-- ==== Sys2Proof/Word.lean ====
section
/-! DEFINITION. The word types of the model (R16, R21) and their plainest arithmetic. -/

namespace Sys2Proof

/-- A register word (R16). -/
abbrev Word := BitVec 32

/-- An octet. -/
abbrev Byte := BitVec 8

/-- The `width`-bit field of a word that starts at bit `lsb` (R8). -/
def Word.field (w : Word) (lsb width : Nat) : Nat := (w >>> lsb).toNat % 2 ^ width

/-- The word with its `width`-bit field at `lsb` replaced by the low bits of `v`. -/
def Word.withField (w : Word) (lsb width v : Nat) : Word :=
  BitVec.ofNat 32 (w.toNat - w.field lsb width * 2 ^ lsb + v % 2 ^ width * 2 ^ lsb)

/-- A sum that stops at `hi` instead of wrapping (the counters that saturate). -/
def satAdd (hi a b : Nat) : Nat := min hi (a + b)

/-- The value `a` held between `lo` and `hi`. -/
def clampTo (lo hi a : Nat) : Nat := max lo (min hi a)

/-- The signed value that the low `w` bits of `n` stand for. -/
def signed (w n : Nat) : Int :=
  let m := n % 2 ^ w
  if m < 2 ^ (w - 1) then (m : Int) else (m : Int) - 2 ^ w

/-- The `w`-bit two's complement code of `x`. -/
def unsigned (w : Nat) (x : Int) : Nat := (x % (2 ^ w : Int)).toNat

/-- `a` divided by `b`, rounded up. -/
def ceilDiv (a b : Nat) : Nat := (a + b - 1) / b

/-- `a` divided by `b`, rounded to nearest, halves up. -/
def roundDiv (a b : Nat) : Nat := (2 * a + b) / (2 * b)

/-- Bit `i` of `n`. -/
def bit (n i : Nat) : Bool := n.testBit i

/-- `n` with bit `i` set. -/
def setBit (n i : Nat) : Nat := n ||| 2 ^ i

/-- `n` with bit `i` cleared. -/
def clearBit (n i : Nat) : Nat := if n.testBit i then n - 2 ^ i else n

/-- 1 for true and 0 for false. -/
def bnat (b : Bool) : Nat := if b then 1 else 0

end Sys2Proof
end

