-- ==== Sys2Proof/Syntax.lean ====
section
/-! DEFINITION. The commands of the block: one constructor of `Instr` for each row of spec/opcode_table.json, with what the
command carries from outside the device: who sends it, the values it names, and what the device observes there. -/

namespace Sys2Proof

/-- Who sends a request (R498): the hardware stamps it with this. -/
inductive Sender where
  | host (fn : Nat)
  | control (core : Nat)
  | dsp (core : Nat)
  | engine (index : Nat)
  | fixed (index : Nat)
  deriving DecidableEq, Repr

/-- The 16-bit SENDER field (R498). -/
def Sender.stamp : Sender → Nat
  | .host n => n
  | .control n => 0x1000 + n
  | .dsp n => 0x2000 + n
  | .engine n => 0x3000 + n
  | .fixed n => 0x4000 + n

/-- The islands of R629, by their island number. -/
abbrev Island := Fin 56

/-- The bits that have changed in storage in each of the three copies of a register (R17). -/
structure Upset where
  a : Word
  b : Word
  c : Word
  deriving DecidableEq, Repr

/-- The operation that a channel entry belongs to (R36): a write or a read of an internal sender, a task, an operation of an engine or a
cipher core by its number, or a host's access of BAR0 or BAR2. -/
inductive CrossingOp where
  | write (who : Sender) (addr : Nat)
  | read (who : Sender) (addr : Nat)
  | task (id : Nat)
  | operation (who : Sender) (id : Nat)
  | hostRead (fn : Fin 16) (addr : Nat)
  | hostWrite (addr : Nat)
  deriving DecidableEq, Repr

/-- How a frame ends at a port's receiver (R65, R98): whether its FCS is right, and the codewords of it that FEC corrected and those it could
not. -/
structure FrameEnd where
  fcsOk     : Bool
  corrected : Nat
  lost      : Nat
  deriving DecidableEq, Repr

/-- What a port's link does (R58, R98): it comes up or goes down, the modes whose technologies the partner offers in auto-negotiation, and
whether link training has ended well. -/
structure LinkReport where
  up      : Bool
  offers  : List (Fin 6)
  trained : Bool
  deriving DecidableEq, Repr

/-- The class of an allocation (R102). -/
inductive AllocClass where
  | media | reliable | control
  deriving DecidableEq, Repr

/-- Which threshold of a pool a write names (R109, R127). -/
inductive Threshold where
  | warn1 | warn2 | stop | hyst
  deriving DecidableEq, Repr

/-- A word of a stream queue with its sideband (R116). -/
structure QWord where
  data : List Byte
  sop  : Bool
  eop  : Bool
  bad  : Bool
  prio : Nat
  deriving DecidableEq, Repr

/-- The word of all zeros that a queue's consumer has read last after a cold reset (R118). -/
def QWord.zero : QWord := ⟨[], false, false, false, 0⟩



/-- A clean random-access picture, by kind (R190). -/
inductive RapKind where
  | no | clean | cra
  deriving DecidableEq, Repr

/-- A layer that an access unit codes (R171): dependency or spatial, quality and temporal layer, and its coded size. -/
structure CodedLayer where
  did    : Nat
  qid    : Nat
  tid    : Nat
  width  : Nat
  height : Nat
  deriving DecidableEq, Repr

/-- What a bitstream may use that R169 names as not supported, or as no part of a profile. -/
inductive VideoFeature where
  | profile | fieldPictures | mbaff | sliceGroups | sliceOrder | redundantSlices | dataPartitioning | chroma422 | chroma444 | depth
  | dependencyLayers | spatialRatio | extension | largeScaleTile
  deriving DecidableEq, Repr

/-- What a VDE finds when it parses an access unit, before it decodes the picture (R169, R171, R185, R190): the coded layers; the sample
format and the features used; the parameter sets and sequence headers brought, by number, and those needed; the kind of picture; the names
(frame number, order count or reference slots) under which it is a reference, its order count or hint and its cropping (left, top, width,
height); the names it refers to, those it only lists, the frame numbers of a gap, the reference pictures the stream asks for, and the names
that the standard's marking of a gap's frames removes; and, of an AV1 unit with show_existing_frame = 1, the name of the frame shown. -/
structure PicInfo where
  layers   : List CodedLayer
  bit10    : Bool
  mono     : Bool
  features : List VideoFeature
  sets     : List (Nat × List Byte)
  uses     : List Nat
  rap      : RapKind
  rasl     : Bool
  names    : List Nat
  order    : Nat
  crop     : List Nat
  refs     : List Nat
  lists    : List Nat
  gap      : List Nat
  maxRefs  : Nat
  drops    : List Nat
  existing : Option Nat
  deriving DecidableEq, Repr

/-- The highest of layers, which is the one put out (R171). -/
def topLayer (ls : List CodedLayer) : CodedLayer :=
  ls.foldl (fun a b => if a.did < b.did || (a.did == b.did && a.qid ≤ b.qid) then b else a) ⟨0, 0, 0, 0, 0⟩

/-- The coded width. -/
def PicInfo.width (p : PicInfo) : Nat := (topLayer p.layers).width

/-- The coded height. -/
def PicInfo.height (p : PicInfo) : Nat := (topLayer p.layers).height

/-- The luma samples of every coded layer decoded (R187). -/
def PicInfo.samples (p : PicInfo) : Nat := p.layers.foldl (fun n l => n + l.width * l.height) 0

/-- The layer put out, in the encoding of R79. -/
def PicInfo.layer (p : PicInfo) : Nat := ((topLayer p.layers).did % 8) * 32 + ((topLayer p.layers).tid % 8) * 4 + min 3 (topLayer p.layers).qid

/-- The buffer a record displays (R181). -/
inductive Display where
  | nothing
  | own
  | buf (n : Nat)
  deriving DecidableEq, Repr

/-- The reference mark that the standard's marking gives the decoded picture (R184). -/
inductive RefMark where
  | unused | short | long
  deriving DecidableEq, Repr

/-- How the decode of a picture ends (R180, R184, R186, R188): a syntax error met, the addresses of writes that a faulty engine sends
elsewhere, engine cycles, the standard's marking of the picture, the names of the references it removes and of those it makes long-term with
their new names, what it displays, and film grain parameters. -/
structure PicEnd where
  syntaxErr : Bool
  strays    : List Nat
  cycles    : Nat
  mark      : RefMark
  removed   : List Nat
  longs     : List (Nat × Nat)
  display   : Display
  filmGrain : Option (List Byte)
  deriving DecidableEq, Repr

/-- An engine of the video path: VDE, VEE, CMP by number, or the TSP. -/
inductive Engine where
  | vde (n : Fin 16)
  | vee (n : Fin 16)
  | cmp (n : Fin 4)
  | tsp
  deriving DecidableEq, Repr

/-- How the decode of a strip ends (R187, R189): the 16×16 blocks of it that were not decoded, and the engine cycles of the attempt so far. -/
structure StripEnd where
  lost   : List Nat
  cycles : Nat
  deriving DecidableEq, Repr

/-- How a fill task ends (R188): the addresses of writes that a faulty engine sends elsewhere, and engine cycles. -/
structure FillEnd where
  strays : List Nat
  cycles : Nat
  deriving DecidableEq, Repr

/-- A prediction unit of a coding row (R236): its place and size in luma samples, and its motion vector in quarter samples. -/
structure PredUnit where
  x   : Nat
  y   : Nat
  w   : Nat
  h   : Nat
  mvx : Int
  mvy : Int
  deriving DecidableEq, Repr

/-- A row as a VEE codes it (R221, R236): its octets and its prediction units. -/
structure RowCode where
  octets : List Byte
  units  : List PredUnit
  deriving DecidableEq, Repr

/-- The H.265 profile that a leg has negotiated (R232). -/
inductive VideoProfile where
  | main | main10 | other
  deriving DecidableEq, Repr

/-- What a leg's receiver offers for its video (R232): whether it can take forwarded layers, its H.265 profile and declared level as
general_level_idc (R234), and the address of the layout table that vendor firmware would give it. -/
structure ViewerOffer where
  forwards : Bool
  profile  : VideoProfile
  level    : Nat
  layout   : Nat
  deriving DecidableEq, Repr

/-- What a leg has negotiated when it connects (R362, R545): its suite, and what its receiver offers for its video. -/
structure LegOffer where
  suite : Fin 5
  video : ViewerOffer
  deriving DecidableEq, Repr

/-- An audio packet of the last 200 ms, as the relay tells firmware of it (R47, R270): its sender's roster identifier, its
level L, its V bit, and whether the leg negotiated vad=on. -/
structure LevelReport where
  id    : Nat
  level : Nat
  v     : Bool
  vad   : Bool
  deriving DecidableEq, Repr

/-- An audio DSP core, 0 to 127 (R293). -/
abbrev Core := Fin 128

/-- The two move slots of a bundle (R295). -/
inductive MoveSlot where
  | x | y
  deriving DecidableEq, Repr

/-- The registers that kernel code sees (R298). -/
inductive DspReg where
  | d (n : Fin 16)
  | accL (n : Fin 4)
  | accH (n : Fin 4)
  | accG (n : Fin 4)
  | a (n : Fin 8)
  | m (n : Fin 8)
  | l (n : Fin 8)
  | b (n : Fin 8)
  | amode
  | lps (k : Fin 4)
  | lpe (k : Fin 4)
  | lpc (k : Fin 4)
  | lr
  | status
  | ipc
  | istat
  deriving DecidableEq, Repr

/-- An operand that is a data register or an immediate (R311). -/
inductive Opnd where
  | reg (n : Fin 16)
  | imm (v : Word)
  deriving DecidableEq, Repr

/-- The address of a move (R300): (An)+Mm, or (An+imm). -/
inductive DspAddr where
  | post (a m : Fin 8)
  | index (a : Fin 8) (imm : BitVec 16)
  deriving DecidableEq, Repr

/-- The conditions of Bcc over Z, N, V and C: a flag, set or clear. -/
inductive DspCond where
  | z (set : Bool)
  | n (set : Bool)
  | v (set : Bool)
  | c (set : Bool)
  deriving DecidableEq, Repr

/-- The slot a NOP stands in. -/
inductive NopSlot where
  | compute | x | y
  deriving DecidableEq, Repr

/-- A software interrupt, 5 to 7. -/
inductive SwiNumber where
  | n5 | n6 | n7
  deriving DecidableEq, Repr

/-- What a codec kernel hands over with its DONE (R268, R269): an encode's frame as an RTP packet of its output stream, with its mix frame's
number; or, of a decode, how many of the leg's packets came after their audio was due. -/
inductive KernelReport where
  | none
  | encoded (stream : BitVec 16) (frame : Nat) (rtp : List Byte)
  | decoded (leg : Fin 16384) (late : Nat)
  deriving DecidableEq, Repr

/-- What a kernel's DONE gives: the register that holds its status, and what the codec kernel hands over. -/
structure KernelEnd where
  src    : Fin 16
  report : KernelReport
  deriving DecidableEq, Repr

/-- The cycles that a core has spent on its task (R328). -/
structure CoreCycles where
  core   : Core
  cycles : Nat
  deriving DecidableEq, Repr

/-- What one receiver of a detector finds in a mix frame (R344): a qualifier of 255ths at an alignment, or a decided bit, with the
RSSI code of the band energy over the 16 bits that end with it. -/
inductive RxFinding where
  | qualifier (q : Nat)
  | decided (bit : Bool) (rssi : Nat)
  deriving DecidableEq, Repr

/-- A leg of a probed leg's conference as PROBE_JUDGE finds it (R346): the leg, its detector channel, and whether it had the
detector for the whole acceptance period and could be heard throughout. -/
structure Listener where
  leg   : Nat
  det   : Nat
  heard : Bool
  deriving DecidableEq, Repr

/-- The kind of a cipher operation (R365). -/
inductive CipherKind where
  | srtp | srtcp | trunk | xts
  deriving DecidableEq, Repr

/-- Who takes the completion of a cipher operation: a requester on the fabric, or the unit that keeps the operation's
number (the relay for a packet or a copy, the trunk unit for a frame). -/
inductive CipherUser where
  | fabric (who : Sender)
  | held
  deriving DecidableEq, Repr

/-- A cipher request (R365). `cls` is 0 RT, 1 TRUNK, 2 FW (R355). A relay or trunk operation carries its input; a request
of a control core names device addresses. -/
structure CipherReq where
  user   : CipherUser
  cls    : Nat
  kind   : CipherKind
  enc    : Bool
  genSel : Nat
  xts4k  : Bool
  slot   : Nat
  ctx    : Nat
  input  : Option (List Byte)
  src    : Nat
  dst    : Nat
  len    : Nat
  hdrLen : Nat
  ivCtr  : Nat
  deriving DecidableEq, Repr

/-- What the result check of an operation finds (R359, R360): it passes, fails once and passes its retry, or fails both. -/
inductive CheckResult where
  | pass | retried | failed
  deriving DecidableEq, Repr

/-- The start of a modulator's beacon frame, and what Sundog's own check then finds (R351). -/
structure BeaconStart where
  mod   : Fin 256
  check : CheckResult
  deriving DecidableEq, Repr

/-- How random data is asked for (R383): by a read of CPX_RNG_DATA, or by a request over the fabric. -/
inductive RngAsk where
  | read (who : Sender)
  | request (who : Sender)
  deriving DecidableEq, Repr

/-- What the trunk unit does with AUDIO frames (R397): it takes a received one for the source channel that firmware assigns to its
trunk and conference, or sends the two halves of a frame of a conference's MIX_TRUNK bus. -/
inductive TrunkAudio where
  | received (frame source : Nat)
  | sent (trunk conf bus : Nat)
  deriving DecidableEq, Repr

/-- A conference-wide operation, or a change to one leg (R410): what it acts on (a roster identifier, or none for the conference), the
operation and its argument. -/
structure ConfOp where
  object : Option Nat
  op     : Nat
  arg    : Nat
  deriving DecidableEq, Repr

/-- A participant's presence (R408); a participant that is not on the roster is LEFT. -/
inductive Presence where
  | left | present | away
  deriving DecidableEq, Repr

/-- What starts the wake of an island in Lull (R28, R439, R484). -/
inductive WakeCause where
  | task | port | access
  deriving DecidableEq, Repr

/-- The consumer groups of R428: VDE, VEE, CMP, TSP, DSP, CTL. -/
abbrev TaskGroup := Fin 6

/-- What vendor firmware has placed for a decoded stream (R436, R175): the address of its decode context and of the output record of this
picture, the holds on the displayed buffer, and the task template: PRIO, ECLASS, VISIBLE, the deadline's offset from handover in ns, WORK,
CQ and USER. -/
structure DecodeTemplate where
  ctx       : Nat
  out       : Nat
  consumers : Fin 16
  prio      : Fin 8
  eclass    : Fin 16
  visible   : Bool
  offset    : Nat
  work      : Nat
  cq        : Nat
  user      : Nat
  deriving DecidableEq, Repr

/-- What a read of an HBM word finds (R466): no error, a corrected one, an uncorrectable one that the second read passes, or one that it
does not. -/
inductive EccFinding where
  | clean | corrected | retried | uncorrectable
  deriving DecidableEq, Repr

/-- A request for octets of HBM (R460, R462). -/
inductive HbmOp where
  | read (n : Nat)
  | write (bytes : List Byte)
  deriving DecidableEq, Repr

/-- The octets a request reaches. -/
def HbmOp.size : HbmOp → Nat
  | .read n => n
  | .write bs => bs.length

/-- A request that a unit offers to the controllers (R460). -/
structure HbmAsk where
  who  : Sender
  addr : Nat
  op   : HbmOp
  deriving DecidableEq, Repr

/-- How a training step ends (R470, R471): done, done with a lane repaired by a spare, or failed. -/
inductive TrainOutcome where
  | done
  | repaired (lane : Nat)
  | failed
  deriving DecidableEq, Repr

/-- An object address (R525): index, subindex, instance. -/
structure ObjAddr where
  index : BitVec 16
  sub   : BitVec 8
  inst  : BitVec 16
  deriving DecidableEq, Repr

/-- An entry of a WRITE (R525): an address and the octets of the value, without the length of an OCTETS or STRING value. -/
structure ObjWrite where
  addr  : ObjAddr
  value : List Byte
  deriving DecidableEq, Repr

/-- How a Gulter message reaches the dictionary server (R522, R523): in a mailbox of a function, or on the management port. -/
inductive GulPath where
  | mailbox (fn : Fin 16)
  | management
  deriving DecidableEq, Repr

/-- What the header of a client's message says (R524), and on the management port whether its datagram has the length of R522, its
counter, and whether it authenticates (R527). -/
structure GulHead where
  ver       : BitVec 8
  path      : GulPath
  session   : BitVec 16
  seq       : Word
  flags     : BitVec 8
  counter   : BitVec 64
  lengthOk  : Bool
  authentic : Bool
  deriving DecidableEq, Repr

/-- The body of a block segment (R525): data of a write, or what a read asks for. -/
inductive GulSeg where
  | data (offset : Word) (octets : List Byte)
  | ask (offset : Word) (len : BitVec 16)
  deriving DecidableEq, Repr

/-- The instructions of the JTAG port (R619), any other by its code, and the state Test-Logic-Reset. -/
inductive JtagInstr where
  | bypass | samplePreload | extest | clamp | highz
  | other (code : Nat)
  | testLogicReset
  deriving DecidableEq, Repr

/-- The commands. -/
inductive Instr where
  /-- REGISTER_WRITE (R17): A write to a register field that has no row of its own is applied by its type (RW, W1C,
      RWM, RWV, RWD), with RWD writes while enabled refused and flagged in CFG_IGNORED. -/
  | registerWrite (who : Sender) (addr : BitVec 24) (value : Word)
  /-- RWV_READ (R17): a register with RWV fields is read; `upset` says which bits of its three copies have changed
      in storage since the vote before -/
  | rwvRead (who : Sender) (addr : BitVec 24) (upset : Upset)
  /-- RWV_SWEEP (R486): Once per millisecond every RWV register is swept and any disagreement is corrected as on a
      read. -/
  | rwvSweep (upsets : List (BitVec 24 × Upset))
  /-- CROSSING_PARITY_ERROR (R36): an entry of the channel that an island sends on fails its parity check; `op` is
      the operation it belongs to, and `again` says that the entry sent again fails too -/
  | crossingParityError (island : Island) (op : CrossingOp) (again : Bool)
  /-- LULL_ENTRY (R439): An island enters Lull after UPD_LULL_IDLE µs with no ready task it serves, or when its
      entry condition of R28 holds. -/
  | lullEntry (island : Island)
  /-- LULL_WAKE (R28): A ready task, an enabled port or a BAR0 access starts the wake of an island in Lull. -/
  | lullWake (island : Island) (cause : WakeCause)
  /-- LULL_WAKE_DONE (R29): An island finishes waking within 20 µs and may then take tasks. -/
  | lullWakeDone (island : Island)
  /-- CLUSTER_PREWAKE (R439): Updraft starts the wake of a DSP cluster 25 µs before the T_F that a HELD task of its
      kernels awaits. -/
  | clusterPrewake (cluster : Fin 8)
  /-- RX_FRAME (R63): A frame arriving on a media port is stamped, filtered and parsed while arriving, looked up in
      the FCT cache and given a cell. -/
  | rxFrame (port : Fin 8) (frame : List Byte)
  /-- FCT_SLOW_LOOKUP_DONE (R76): The slow-path bucket read completes, fills the cache on a hit, and releases every
      waiting packet of that key with the result. -/
  | fctSlowLookupDone
  /-- RX_FRAME_END (R65): At the last bit the UDP checksum and FCS are checked and a failing packet is marked bad
      and rewound. -/
  | rxFrameEnd (port : Fin 8) (fin : FrameEnd)
  /-- INGRESS_DECRYPT_DONE (R38): The ingress SRTP or SRTCP cipher operation completes and the packet is forwarded,
      processed, tapped or dropped and counted. -/
  | ingressDecryptDone (packet : Nat)
  /-- REPLICATE (R89): The replication stage issues a copy of a classified packet to one receiver of its route
      snapshot, rewriting headers and sequence numbers. -/
  | replicate
  /-- EGRESS_ENCRYPT_DONE (R33): A copy's egress cipher operation completes and the reorder stage releases copies in
      ingress order, removing failed ones. -/
  | egressEncryptDone (op : Nat)
  /-- ROUTE_RETIRED (R86): When the last packet classified under a route version finishes replication, the version
      retires and ROUTE_RETIRED is posted. -/
  | routeRetired (stream : Fin 65536)
  /-- LINK_CHANGE (R98): A media port's link and alignment come up or go down, changing LINK_UP and setting
      LINK_CHANGE. -/
  | linkChange (port : Fin 8) (link : LinkReport)
  /-- AN_COMPLETE (R57): Auto-negotiation of a 25 Gb/s port completes and the port runs the resolved FEC. -/
  | anComplete (port : Fin 8) (fec : Fin 4)
  /-- PORT_DISABLE (R96): Clearing PORT_EN aborts the frame being received and drops queued copies as they reach the
      head. -/
  | portDisable (who : Sender) (port : Fin 8)
  /-- RELAY_DISABLE (R96): Clearing RLY_CTRL ENABLE stops every port as if its PORT_EN were cleared. -/
  | relayDisable (who : Sender)
  /-- RLY_FCT_CLAIM (R72): A read of RLY_FCT_CLAIM grants the FCT command engine to the reader if it is free. -/
  | rlyFctClaim (who : Sender)
  /-- RLY_FCT_RELEASE (R72): A write of RLY_FCT_RELEASE ends the holder's grant of the command engine. -/
  | rlyFctRelease (who : Sender)
  /-- INSERT (R69): INSERT places an entry in the first free way of bucket H0 or H1 with VALID set and LAST_HIT
      stamped. -/
  | insert (who : Sender)
  /-- UPDATE (R72): UPDATE replaces the result bytes of the entry its key selects. -/
  | update (who : Sender)
  /-- DELETE (R72): DELETE removes the entry its key selects from HBM and the cache. -/
  | delete (who : Sender)
  /-- LOOKUP (R72): LOOKUP returns the entry its key selects in DATA0–DATA15. -/
  | lookup (who : Sender)
  /-- ROUTE_COMMIT (R86): ROUTE_COMMIT replaces a stream's route pointer and version as one step with respect to
      classification. -/
  | routeCommit (who : Sender)
  /-- SELECT (R84): SELECT writes a pending selection for a receiver and moves it to STEADY, PENDING_DOWN or
      PENDING_UP. -/
  | select (who : Sender)
  /-- STATE_WRITE (R84): STATE_WRITE replaces a receiver's whole state, pending selection included. -/
  | stateWrite (who : Sender)
  /-- CLEAR (R73): CLEAR sets VALID to 0 in every FCT entry and empties the cache, holding FCT_READY at 0 while it
      runs. -/
  | clear (who : Sender)
  /-- FCT_COMMAND_DONE (R73): An FCT or route command finishes, BUSY falls to 0 and RESULT reports its outcome. -/
  | fctCommandDone
  /-- HASH_SEED_WRITE (R97): A write that changes RLY_HASH_SEED starts CLEAR on the command engine as soon as any
      running command ends. -/
  | hashSeedWrite (who : Sender) (value : Word)
  /-- AGE_SCAN (R74): The background scan visits each entry once per 8 s and removes aged entries by DELETE, posting
      AGED. -/
  | ageScan (entry : Fin 16777216)
  /-- ALLOC (R107): An allocation request is served, held or refused from the smallest pool of its tier by class and
      pool level. -/
  | alloc (who : Sender) (req size : Nat) (cls : AllocClass) (onDie nowait : Bool)
  /-- FREE (R110): A returned cell pointer is checked and freed, going to the oldest held request or back to the
      bitmap. -/
  | free (who : Sender) (ptr : Nat)
  /-- HOLD_TIMEOUT (R108): A held allocation that waits longer than BPM_HOLD_MAX completes with POOL_STOP. -/
  | holdTimeout (pool : Fin 6)
  /-- RESET_POOLS (R112): RESET_POOLS clears the bitmaps of the selected pools while Billow is disabled and
      re-judges their levels. -/
  | resetPools (who : Sender) (mask : Nat)
  /-- BPM_DISABLE (R112): Clearing BPM_CTRL ENABLE completes every held request with POOL_OFFLINE. -/
  | bpmDisable (who : Sender)
  /-- POOL_THRESHOLD_WRITE (R109): A threshold write that keeps WARN1 ≥ WARN2 ≥ STOP is taken for the pool's next
      change, otherwise refused. -/
  | poolThresholdWrite (who : Sender) (pool : Fin 6) (which : Threshold) (value : Nat)
  /-- MINFREE_WRITE (R127): A write of BPM_Pp_MINFREE sets it to the pool's current free count. -/
  | minfreeWrite (who : Sender) (pool : Fin 6)
  /-- QUEUE_WRITE (R116): A producer writes a word to a stream queue, committing a packet at its EOP or rewinding a
      bad one. -/
  | queueWrite (who : Sender) (queue : Fin 2048) (word : QWord)
  /-- QUEUE_READ (R118): A consumer reads the next word in arrival or priority order, or the last word with UNDERRUN
      when empty. -/
  | queueRead (who : Sender) (queue : Fin 2048)
  /-- DROP_REST (R121): DROP_REST discards the rest of the packet being read up to its EOP word. -/
  | dropRest (who : Sender) (queue : Fin 2048)
  /-- FLUSH (R124): FLUSH discards every word of a disabled queue and ends any rewind. -/
  | flush (who : Sender) (queue : Fin 2048)
  /-- COMPAT_STALL_TIMEOUT (R123): A KB3_COMPAT write stalled longer than BPM_COMPAT_STALL is dropped with OVERRUN. -/
  | compatStallTimeout (queue : Fin 2048)
  /-- ENQUEUE (R131): A released copy enters its destination's class queue, or is tail-dropped above EGS_DQ_LIMIT. -/
  | enqueue (port : Fin 8)
  /-- EGRESS_PICK (R132): The port scheduler picks the next frame by class priority, DWRR, shaper and gate, and
      starts sending it. -/
  | egressPick (port : Fin 8)
  /-- IND_READ (R164): The indirect READ command loads a shaper's or policer's fields into EGS_IND_DATA0–3. -/
  | indRead (who : Sender)
  /-- IND_WRITE (R139): The indirect WRITE command checks and stores a shaper's or policer's fields between two
      scheduler decisions. -/
  | indWrite (who : Sender)
  /-- DEPTH_SAMPLE (R144): Every 10 µs each port samples each class's depth and delay and adds them to the
      histograms. -/
  | depthSample (port : Fin 8)
  /-- HIST_CLR (R145): HIST_CLR zeroes every depth and delay histogram. -/
  | histClr (who : Sender)
  /-- ACTIVATE (R150): ACTIVATE snapshots a valid admin gate list and computes its takeover time. -/
  | activate (who : Sender) (port : Fin 8)
  /-- GATE_TAKEOVER (R150): When device time reaches T, the pending gate list takes effect at entry 0 and
      LIST_CHANGED is set. -/
  | gateTakeover (port : Fin 8)
  /-- GATE_ENTRY_ADVANCE (R146): A gate entry's interval ends and the next entry, or the next cycle at entry 0,
      takes effect. -/
  | gateEntryAdvance (port : Fin 8)
  /-- GATE_DISABLE (R150): Clearing TGC ENABLE opens every gate and discards the pending snapshot. -/
  | gateDisable (who : Sender) (port : Fin 8)
  /-- STEP_ABSOLUTE (R154): STEP_CMD 1 sets device time to an absolute value if allowed, incrementing the step
      epoch. -/
  | stepAbsolute (who : Sender)
  /-- STEP_OFFSET (R154): STEP_CMD 2 adds a signed nanosecond offset to device time if allowed, incrementing the
      step epoch. -/
  | stepOffset (who : Sender)
  /-- TIM_SLEW_WRITE (R153): A write of TIM_SLEW sets the rate offset from the next fabric cycle, clamping
      out-of-range values. -/
  | timSlewWrite (who : Sender) (value : Word)
  /-- TIM_NS_READ (R158): A read of TIM_NS latches the seconds words so the three reads give one time. -/
  | timNsRead (who : Sender)
  /-- PPS_EDGE (R157): A rising edge on the PPS input latches device time into TIM_PPS_CAPT and sets PPS_SEEN. -/
  | ppsEdge
  /-- PPS_OUT_RISE (R157): At each whole second of device time the PPS output rises. -/
  | ppsOutRise
  /-- PPS_OUT_FALL (R157): The PPS output falls after PPS_WIDTH ms counted in fabric cycles. -/
  | ppsOutFall
  /-- PTP_EVENT_TX (R161): A PTP event message leaves a port, with a one-step originTimestamp written or its
      two-step timestamp pushed to the TXTS FIFO. -/
  | ptpEventTx (port : Fin 8) (oneStep : Bool) (frame : List Byte) (msgType : BitVec 4) (domain : Byte) (seqId : BitVec 16)
  /-- TXTS_POP (R167): A read of TIM_Pn_TXTS_ID pops the head entry of the port's TXTS FIFO. -/
  | txtsPop (who : Sender) (port : Fin 8)
  /-- DECODE_START (R192): A VDE takes a decode task, checks context and descriptor, claims a buffer and decodes the
      access unit by the stream state. -/
  | decodeStart (vde : Fin 16) (pic : PicInfo)
  /-- STRIP_PUBLISHED (R178): A decoded 16-line strip becomes final and is published through the strip-ready count
      after the write fence. -/
  | stripPublished (vde : Fin 16) (luma chroma : List Nat) (fin : StripEnd)
  /-- DECODE_COMPLETE (R180): A picture's decode ends, marks change by the standard's marking, holds are placed and
      the output record is written. -/
  | decodeComplete (vde : Fin 16) (fin : PicEnd)
  /-- VDE_WATCHDOG_EXPIRY (R187): A VDE's cycle budget expires; the engine resets and retries once, and a second
      expiry fences it. -/
  | vdeWatchdogExpiry (vde : Fin 16) (cycles : Nat)
  /-- DECODE_FILL (R188): A fill task on another VDE fills the rows of a picture lost on a fenced engine and puts
      the stream into RECOVERY. -/
  | decodeFill (vde : Fin 16) (fin : FillEnd)
  /-- INJ_WD (R196): INJ_WD makes the watchdog expire on the first attempt of the engine's next task. -/
  | injWd (who : Sender) (engine : Engine)
  /-- HOLD_RELEASE (R182): A consumer's completion releases one hold on a displayed buffer, freeing it when holds
      and role allow. -/
  | holdRelease (who : Sender) (mark : Nat)
  /-- COMPOSE_PASS (R202): A CMP takes a pass, checks its descriptors and starts composing, refusing a bad pass with
      CMP_DESC_BAD or CMP_SCALE. -/
  | composePass (cmp : Fin 4)
  /-- COMPOSE_STRIP (R207): Once its source strips exist, the CMP composes an output strip and writes it to HBM and
      linked encoders. -/
  | composeStrip (cmp : Fin 4)
  /-- COMPOSE_COMPLETE (R211): A pass ends, decode holds are released and the pass record is written. -/
  | composeComplete (cmp : Fin 4) (cycles waits : Nat)
  /-- CMP_WATCHDOG_EXPIRY (R227): A CMP's budget expires or a write is blocked; it retries once, and a second
      failure fences it. -/
  | cmpWatchdogExpiry (cmp : Fin 4) (cycles : Nat) (blocked : Option Nat)
  /-- COMPOSE_FILL (R228): A fill task on another CMP publishes the unpublished strips as BG and writes the record
      with FILLED. -/
  | composeFill (cmp : Fin 4) (cycles : Nat)
  /-- ENCODE_START (R215): A VEE takes an encode task, checks context and output size, and sets budget, cap and QP
      for the picture. -/
  | encodeStart (vee : Fin 16) (sets : List (List Byte))
  /-- ENCODE_ROW (R221): Once its source rows are published, the VEE codes a row, committing it or recoding it and
      the rest as truncated rows. -/
  | encodeRow (vee : Fin 16) (coded : RowCode) (trunc : List Byte)
  /-- ENCODE_COMPLETE (R216): A picture's encode ends, rate state is updated and the record, and for a tile encode
      the tile record and table entry, are written. -/
  | encodeComplete (vee : Fin 16) (units : List Nat) (cycles : Nat)
  /-- VEE_WATCHDOG_EXPIRY (R227): A VEE's budget expires or a write is blocked; it retries once, and a second
      failure fences it with the picture not coded. -/
  | veeWatchdogExpiry (vee : Fin 16) (cycles : Nat) (blocked : Option Nat)
  /-- PACKETIZE (R225): the leg, the codec of R169, the encode or splice record, where the picture lies, the frame
      time, and how many units each packet takes -/
  | packetize (leg : Fin 16384) (codec : Fin 4) (record bits frameUs : Nat) (groups : List Nat)
  /-- PACE_PACKET (R225): the leg, its output stream and class, and the RTP header that vendor firmware gives the
      packet -/
  | pacePacket (leg : Fin 16384) (stream : BitVec 16) (cls : Fin 8) (header : List Byte)
  /-- SPLICE_START (R260): The TSP takes a splice, reads its inputs once and checks layout, tick and room. -/
  | spliceStart
  /-- SPLICE_COMPLETE (R261): The spliced picture is written, the viewer context updated and the splice record
      written. -/
  | spliceComplete (cycles : Nat)
  /-- ENTRY_TILE_REQUEST (R253): Firmware sets FORCE_INTRA on a wanted tile set's next allowed tile encode. -/
  | entryTileRequest (tset tick desc : Nat)
  /-- TSP_WATCHDOG_EXPIRY (R262): The TSP's budget expires or a write is blocked; it retries once, and a second
      failure fences it. -/
  | tspWatchdogExpiry (cycles : Nat) (blocked : Option Nat)
  /-- JB_TARGET_UPDATE (R269): Once every second the jitter buffer target is set to J95 + P within its limits. -/
  | jbTargetUpdate (leg : Fin 16384) (transit : List Nat) (ptime : Nat)
  /-- TALKER_SET_UPDATE (R271): At each mix frame firmware applies the leave, join and replace rules to each
      conference's talker set. -/
  | talkerSetUpdate (conf : Fin 4096) (reports : List LevelReport)
  /-- SOURCE_PORT_WRITE (R273): A 64-byte line written to a source port appends 16 samples, or is refused with a bus
      error. -/
  | sourcePortWrite (who : Sender) (source : Fin 1536) (offset : Nat) (data : List Byte)
  /-- SOURCE_CFG_APPLY (R275): A change of a source's IN_RATE or EN takes effect at the next frame boundary. -/
  | sourceCfgApply (source : Fin 1536)
  /-- FRAME_START (R276): At T_F a mix frame begins, releasing its decode tasks and raising FRAME interrupts. -/
  | frameStart
  /-- MIX_FRAME (R278): At T_F + MIX_PHASE the MXM mixes one frame of every source into every bus and posts the mix
      completion. -/
  | mixFrame (check : CheckResult)
  /-- MXM_CLAIM (R280): A read of MXM_CLAIM grants the set and swap command port if free. -/
  | mxmClaim (who : Sender)
  /-- MXM_RELEASE (R280): A write of MXM_RELEASE ends the holder's grant. -/
  | mxmRelease (who : Sender)
  /-- LOAD (R280): LOAD copies a bus's shadow set into MXM_SET_DATA. -/
  | load (who : Sender)
  /-- STORE (R280): STORE writes MXM_SET_DATA into a bus's shadow set, refusing an invalid set or a bus with a swap
      pending. -/
  | store (who : Sender)
  /-- READ_ACTIVE (R280): READ_ACTIVE copies a bus's active set into MXM_SET_DATA. -/
  | readActive (who : Sender)
  /-- SWAP_COMMIT (R281): A write of MXM_SWAP_CMD commits a swap group with a target sample, or refuses it. -/
  | swapCommit (who : Sender) (count : BitVec 7) (at_ : Bool) (tag : BitVec 16)
  /-- SWAP_APPLY (R281): At the first sample at or after the target with no step in progress the group's shadow sets
      become active and steps are scheduled. -/
  | swapApply
  /-- GAIN_STEP (R282): A scheduled gain, exclusion or OUT_GAIN step takes its new value at its signal's zero
      crossing. -/
  | gainStep (bus : Fin 4096) (step : Nat) (before now : Int)
  /-- STEP_TIMEOUT (R282): A step with no zero crossing within MXM_ZC_TIMEOUT samples takes its new value and is
      counted. -/
  | stepTimeout (bus : Fin 4096) (step : Nat)
  /-- MIX_DISABLE (R281): Clearing MXM ENABLE discards pending groups and steps and outputs zeros. -/
  | mixDisable (who : Sender)
  /-- TALKER_ADMIT (R285): Firmware admits a talker with a minus-own bus, primed encode, swap at frame F and route
      move. -/
  | talkerAdmit (leg : Fin 16384) (source : Fin 1536) (listener own : Fin 4096) (frame tag : Nat) (encode : List Byte) (routes : List (Nat × Nat)) (rstate : Nat) (rbytes : List Byte)
  /-- TALKER_REMOVE (R286): Firmware removes a talker from the listener bus and, after STEPS_DONE, moves its leg
      back. -/
  | talkerRemove (leg : Fin 16384) (source : Fin 1536) (listener own : Fin 4096) (tag : Nat) (routes : List (Nat × Nat)) (rstate : Nat) (rbytes : List Byte)
  /-- AUDIO_FRAME_LATE (R288): An encoded frame not handed to the relay by T_F + 10 ms is discarded and its encode
      completes with AUD_FRAME_LATE. -/
  | audioFrameLate (core : Core) (frame : Nat)
  /-- LD (R296): LD loads a word into a D register, visible two bundles later. -/
  | ld (core : Core) (slot : MoveSlot) (dst : Fin 16) (addr : DspAddr) (last : Bool)
  /-- LD2 (R296): LD2 loads a 64-bit pair into an even-odd register pair. -/
  | ld2 (core : Core) (slot : MoveSlot) (dst : Fin 8) (addr : DspAddr) (last : Bool)
  /-- ST (R296): ST stores a word from a D register through slot X. -/
  | st (core : Core) (slot : MoveSlot) (addr : DspAddr) (src : Fin 16) (last : Bool)
  /-- ST2 (R296): ST2 stores a register pair through slot X. -/
  | st2 (core : Core) (slot : MoveSlot) (addr : DspAddr) (src : Fin 8) (last : Bool)
  /-- MOD (R300): MOD updates an address register by its modifier under AMODE without an access. -/
  | mod (core : Core) (slot : MoveSlot) (a m : Fin 8) (last : Bool)
  /-- ADD (R311): ADD adds two operands, saturating when SAT is 1. -/
  | add (core : Core) (dst x : Fin 16) (y : Opnd) (last : Bool)
  /-- SUB (R311): SUB subtracts two operands, saturating when SAT is 1. -/
  | sub (core : Core) (dst x : Fin 16) (y : Opnd) (last : Bool)
  /-- AND (R311): AND forms the bitwise and of two operands. -/
  | dspAnd (core : Core) (dst x : Fin 16) (y : Opnd) (last : Bool)
  /-- OR (R311): OR forms the bitwise or of two operands. -/
  | dspOr (core : Core) (dst x : Fin 16) (y : Opnd) (last : Bool)
  /-- XOR (R311): XOR forms the bitwise exclusive or of two operands. -/
  | xor (core : Core) (dst x : Fin 16) (y : Opnd) (last : Bool)
  /-- ASH (R311): ASH shifts arithmetically by −31 to +31. -/
  | ash (core : Core) (dst x : Fin 16) (y : Opnd) (last : Bool)
  /-- LSH (R311): LSH shifts logically by −31 to +31. -/
  | lsh (core : Core) (dst x : Fin 16) (y : Opnd) (last : Bool)
  /-- MIN (R311): MIN takes the smaller of two operands. -/
  | min (core : Core) (dst x : Fin 16) (y : Opnd) (last : Bool)
  /-- MAX (R311): MAX takes the larger of two operands. -/
  | max (core : Core) (dst x : Fin 16) (y : Opnd) (last : Bool)
  /-- ABS (R311): ABS takes the absolute value, saturating when SAT is 1. -/
  | abs (core : Core) (dst x : Fin 16) (last : Bool)
  /-- NEG (R311): NEG negates, saturating when SAT is 1. -/
  | neg (core : Core) (dst x : Fin 16) (last : Bool)
  /-- CMP (R311): CMP compares two operands and sets the flags only. -/
  | cmp (core : Core) (x : Fin 16) (y : Opnd) (last : Bool)
  /-- ADDA (R311): ADDA does linear address arithmetic on an address register. -/
  | adda (core : Core) (dst src : Fin 8) (imm : Word) (last : Bool)
  /-- MOV (R311): MOV copies any register to any, sign-extending accumulator parts. -/
  | mov (core : Core) (dst src : DspReg) (last : Bool)
  /-- MVG (R311): MVG moves an accumulator's 8 guard bits alone. -/
  | mvg (core : Core) (toAcc : Bool) (acc : Fin 4) (d : Fin 16) (last : Bool)
  /-- MAC2 (R303): MAC2 adds two products to two accumulators. -/
  | mac2 (core : Core) (a b : Fin 4) (w x y z : Fin 16) (last : Bool)
  /-- MSU2 (R311): MSU2 subtracts two products from two accumulators. -/
  | msu2 (core : Core) (a b : Fin 4) (w x y z : Fin 16) (last : Bool)
  /-- MPY2 (R311): MPY2 replaces two accumulators with two products. -/
  | mpy2 (core : Core) (a b : Fin 4) (w x y z : Fin 16) (last : Bool)
  /-- MAC (R303): MAC adds one product to an accumulator. -/
  | mac (core : Core) (a : Fin 4) (x y : Fin 16) (last : Bool)
  /-- MSU (R311): MSU subtracts one product from an accumulator. -/
  | msu (core : Core) (a : Fin 4) (x y : Fin 16) (last : Bool)
  /-- MPY (R311): MPY replaces an accumulator with one product. -/
  | mpy (core : Core) (a : Fin 4) (x y : Fin 16) (last : Bool)
  /-- ACCADD (R311): ACCADD adds two 72-bit accumulators. -/
  | accadd (core : Core) (a b c : Fin 4) (last : Bool)
  /-- ACCSH (R311): ACCSH shifts an accumulator arithmetically by −63 to +8. -/
  | accsh (core : Core) (a : Fin 4) (shift : BitVec 7) (last : Bool)
  /-- RND (R304): RND rounds and extracts 32 bits of an accumulator with saturation. -/
  | rnd (core : Core) (d : Fin 16) (a : Fin 4) (last : Bool)
  /-- CLR2 (R311): CLR2 clears two accumulators. -/
  | clr2 (core : Core) (a b : Fin 4) (last : Bool)
  /-- B (R307): B branches after two delay slots. -/
  | dspB (core : Core) (offset : BitVec 13) (last : Bool)
  /-- BCC (R307): Bcc branches after two delay slots when its condition holds at the start of the bundle. -/
  | bcc (core : Core) (cond : DspCond) (offset : BitVec 13) (last : Bool)
  /-- CALL (R324): CALL sets LR to the bundle after its delay slots and branches. -/
  | call (core : Core) (offset : BitVec 13) (last : Bool)
  /-- RET (R307): RET branches to LR after two delay slots. -/
  | ret (core : Core) (last : Bool)
  /-- REP (R308): REPk sets up loop level k with start, end and count. -/
  | dspRep (core : Core) (level : Fin 4) (count : Opnd) (end_ : BitVec 13) (last : Bool)
  /-- BRK (R310): BRK k clears loop level k without jumping. -/
  | brk (core : Core) (level : Fin 4) (last : Bool)
  /-- TAKE (R312): TAKE blocks the core until the HTS grants a task whose kernel it holds. -/
  | take (core : Core) (dst : Fin 16)
  /-- TAKE_GRANT (R312): The HTS grants a task to a core in TAKE, writes its argument block to TASKBOX and returns
      slot and kernel ID. -/
  | takeGrant (core : Core)
  /-- DONE (R314): DONE completes the core's task with a status once every DMA channel is idle. -/
  | done (core : Core) (fin : KernelEnd)
  /-- DONE_DMA_DRAINED (R314): The DMA channels of a core waiting in DONE go idle and the completion is sent to the
      HTS. -/
  | doneDmaDrained (core : Core)
  /-- RTI (R320): RTI restores PC, STATUS and LACT after two delay slots. -/
  | rti (core : Core) (last : Bool)
  /-- SWI (R311): SWI raises software interrupt 5–7. -/
  | swi (core : Core) (n : SwiNumber) (last : Bool)
  /-- NOP (R311): NOP does nothing in its slot. -/
  | nop (core : Core) (slot : NopSlot) (last : Bool)
  /-- INTERRUPT_TAKEN (R320): An enabled interrupt is taken at an open boundary, saving IPC and ISTAT and jumping to
      its vector. -/
  | interruptTaken (core : Core)
  /-- CORE_TIMER_EXPIRY (R318): A core's TIMER counts down to 0 and raises the TIMER interrupt. -/
  | coreTimerExpiry (core : Core)
  /-- DMA_START (R316): A write of DMA_Cn_DESC starts a channel's descriptor chain, or sets ERR if the channel is
      busy. -/
  | dmaStart (core : Core) (channel : Fin 4) (desc : Nat)
  /-- DMA_DESC_DONE (R317): A DMA descriptor finishes, raising DMA_DONE if asked and starting the next, or stops the
      chain on error. -/
  | dmaDescDone (core : Core) (channel : Fin 4)
  /-- DSP_WATCHDOG_EXPIRY (R328): A task's cycle watchdog expires; the core resets and retries once, and a second
      expiry runs the self-test. -/
  | dspWatchdogExpiry (spent : CoreCycles)
  /-- SELFTEST_DONE (R328): A DSP core's self-test ends, fencing the core and redispatching the task, or faulting
      the kernel. -/
  | selftestDone (core : Core) (pass : Bool)
  /-- DSC_DOORBELL (R318): A write of DSC_DOORBELL raises DOORBELL on the named cores. -/
  | dscDoorbell (who : Sender) (cluster : Fin 8) (ring : BitVec 16)
  /-- HALT (R331): CORE_DBG HALT halts the core at its next open boundary. -/
  | halt (who : Sender) (core : Core) (on : Bool)
  /-- STEP (R331): CORE_DBG STEP runs one bundle of a halted core. -/
  | step (who : Sender) (core : Core)
  /-- KERNEL_INSTALL (R326): Firmware verifies a signed kernel image and installs it on disabled cores, setting its
      CORE_KMASK bit. -/
  | kernelInstall (image : List Byte) (cores : List (Fin 128))
  /-- PROBE_NOW (R339): A probe request for a leg is queued, or refused as not fullband or busy. -/
  | probeNow (who : Sender) (leg : Fin 16384) (fullband : Bool)
  /-- PROBE_ARM (R339): When a modulator is free, firmware draws a nonce, configures the modulator and private bus,
      and writes START. -/
  | probeArm (nonce : BitVec 26) (bus : Fin 4096) (parent : Nat) (exclusions : List Nat) (gain : Nat) (encode : List Byte)
  /-- MOD_START_WRITE (R340): A write of SDG_MOD_m_START arms one beacon frame, setting LATE if its frame's mix has
      begun. -/
  | modStartWrite (who : Sender) (mod : Fin 256) (frame : Word)
  /-- BEACON_FRAME_START (R335): At sample 0 of its START frame the modulator begins sending the beacon frame. -/
  | beaconFrameStart (start : BeaconStart)
  /-- BEACON_FRAME_END (R339): The last chip is sent and the probe enters COLLECT. -/
  | beaconFrameEnd (mod : Fin 256)
  /-- PROBE_JUDGE (R346): 100 ms after the window ends firmware judges every pair, frees the modulator and returns
      the leg to its mix. -/
  | probeJudge (leg : Fin 16384) (listeners : List Listener)
  /-- PROBE_ABORT (R339): A leg leaving, losing fullband, or the SDG fenced or disabled ends the probe and discards
      its detections. -/
  | probeAbort (leg : Fin 16384)
  /-- DETECTOR_CONFIG (R341): Enabling a detector or changing its SRC seeds its floor and AGC and unlocks its
      receivers. -/
  | detectorConfig (who : Sender) (det : Fin 1024) (source : BitVec 11) (on : Bool)
  /-- DETECTOR_FRAME (R342): For each mix frame the detector measures band energy, gates, updates its floor and runs
      its 31 receivers. -/
  | detectorFrame (det : Fin 1024) (energy : Nat) (findings : List (Fin 31 × RxFinding)) (check : CheckResult)
  /-- AGC_RELEASE (R343): A frozen AGC releases 3 s after it froze if not released earlier. -/
  | agcRelease (det : Fin 1024)
  /-- COLOC_GROUP_APPLY (R348): A change of co-location group is applied at the next mix frame boundary through
      swaps. -/
  | colocGroupApply (conf : Fin 4096) (buses : List Nat) (tag : Nat)
  /-- CIPHER_REQUEST (R631): A cipher request is checked in order and, if accepted, binds generation, counter and
      index. -/
  | cipherRequest (req : CipherReq)
  /-- CIPHER_COMPLETE (R359): A cipher operation finishes, its result is checked and retried once or fenced, and its
      completion is sent. -/
  | cipherComplete (op : Nat) (check : CheckResult)
  /-- GRACE_PERIOD_END (R368): The grace period of an older generation ends; it takes no new operation and retires
      when none binds it. -/
  | gracePeriodEnd (slot : Fin 65536)
  /-- KEY_STORE_ECC_ERROR (R385): An uncorrectable key store read is retried once; a second failure zeroes the
      generation. -/
  | keyStoreEccError (slot : Fin 65536) (gen : Nat) (again : Bool)
  /-- KSL_CLAIM (R378): A read of KSL_CLAIM grants the key command port if free. -/
  | kslClaim (who : Sender)
  /-- KSL_RELEASE (R378): A write of KSL_RELEASE ends the holder's grant. -/
  | kslRelease (who : Sender)
  /-- KSL_DATA_WRITE (R378): A write to the KSL command window or KSL_SEL is taken from the grant holder and
      otherwise ignored with CMD_IGNORED. -/
  | kslDataWrite (who : Sender) (word : Option (Fin 32)) (value : Word)
  /-- WRITE (R368): WRITE derives and stores a new key generation in a slot, or refuses it. -/
  | write (who : Sender)
  /-- ERASE (R368): ERASE refuses new operations and drains the slot to EMPTY. -/
  | erase (who : Sender)
  /-- ZEROIZE (R369): ZEROIZE aborts operations with KEY_GONE and zeroes every generation of a slot. -/
  | zeroize (who : Sender)
  /-- ZEROIZE_ALL (R369): ZEROIZE_ALL zeroizes every slot and clears every PKA private register. -/
  | zeroizeAll (who : Sender)
  /-- RETIRE_OLD (R368): RETIRE_OLD ends the older generation's service and retires it once unbound. -/
  | retireOld (who : Sender)
  /-- KSL_STATUS (R378): STATUS reports a slot's state and counter in KSL_SLOT_STAT and KSL_SLOT_COUNT. -/
  | kslStatus (who : Sender)
  /-- CTX_INIT (R378): CTX_INIT writes an SRTP context valid with its SSRC, slot, direction and ROC and clears its
      windows. -/
  | ctxInit (who : Sender)
  /-- CTX_CLEAR (R378): CTX_CLEAR sets a context's VALID to 0. -/
  | ctxClear (who : Sender)
  /-- KSL_COMMAND_DONE (R386): A key command finishes, BUSY falls and the window is zeroed. -/
  | kslCommandDone
  /-- CPX_PKA_CLAIM (R382): A read of CPX_PKA_CLAIM grants the PKA if free. -/
  | cpxPkaClaim (who : Sender)
  /-- CPX_PKA_RELEASE (R382): A write of CPX_PKA_RELEASE ends the PKA grant. -/
  | cpxPkaRelease (who : Sender)
  /-- VERIFY (R382): VERIFY checks a P-256 signature over a digest. -/
  | verify (who : Sender) (digest x y r sv : Nat)
  /-- SIGN (R382): SIGN signs a digest with a private register or the device identity key. -/
  | sign (who : Sender) (digest : Nat) (key : Option (Fin 16))
  /-- KEYGEN (R382): KEYGEN generates a key pair in a private register. -/
  | keygen (who : Sender) (target : Fin 16)
  /-- ECDH (R382): ECDH computes and holds a shared x-coordinate. -/
  | ecdh (who : Sender) (key : Fin 16) (x y : Nat)
  /-- DERIVE_TO_SLOT (R382): DERIVE_TO_SLOT writes an HKDF-derived trunk key into a slot as a WRITE. -/
  | deriveToSlot (who : Sender) (slot : Fin 65536) (suite : Nat) (decryptOnly : Bool) (salt info : List Byte)
  /-- PKA_COMMAND_DONE (R382): A PKA command finishes and its status appears in CPX_PKA_RESULT. -/
  | pkaCommandDone
  /-- RNG_DATA_READ (R383): A read of CPX_RNG_DATA consumes 32 bits of conditioned output, or returns 0 when none is
      ready. -/
  | rngDataRead (ask : RngAsk)
  /-- RNG_READY (R383): The random source passes its start-up tests and sets RNG_READY. -/
  | rngReady
  /-- RNG_HEALTH_FAIL (R384): A failed health test discards output and restarts the source once; a second failure
      fences it. -/
  | rngHealthFail
  /-- TRUNK_ENABLE (R412): Setting a trunk's EN sends HELLO and enters HANDSHAKE. -/
  | trunkEnable (who : Sender) (trunk : Fin 256)
  /-- TRUNK_DISABLE (R412): Clearing a trunk's EN stops its sending and returns it to DISABLED. -/
  | trunkDisable (who : Sender) (trunk : Fin 256)
  /-- HELLO_RESEND (R399): Every 1 s until the handshake completes the trunk sends HELLO or HELLO_REPLY again. -/
  | helloResend (trunk : Fin 256)
  /-- HELLO (R399): A received HELLO is checked against PEER_ID_HASH, signature and suite, and answered. -/
  | hello (frame : Nat)
  /-- HELLO_REPLY (R400): A received HELLO_REPLY is checked and, with the HELLO, leads to ECDH and two
      DERIVE_TO_SLOT writes. -/
  | helloReply (frame : Nat)
  /-- MEDIA (R396): A received MEDIA frame is mapped through the channel map and re-injected into the relay. -/
  | media (frame : Nat)
  /-- AUDIO (R397): A received AUDIO frame writes its half of a partial mix into its Mix Matrix source channel. -/
  | audio (what : TrunkAudio)
  /-- RELIABLE (R403): A received RELIABLE frame is delivered in SEQ order to the trunk receive queue or held in the
      window. -/
  | reliable (frame : Nat)
  /-- ACK (R404): A received ACK releases acknowledged bodies, triggers SACK resends and raises the credit limit. -/
  | ack (frame : Nat)
  /-- HEARTBEAT (R412): A received heartbeat resets the miss count or advances the healing count. -/
  | heartbeat (frame : Nat)
  /-- PROBE (R412): A received PROBE is answered at once with PROBE_REPLY. -/
  | probe (frame : Nat)
  /-- PROBE_REPLY (R412): A PROBE_REPLY arriving within 50 ms returns the trunk to UP. -/
  | probeReply (frame : Nat)
  /-- REKEY (R401): A received REKEY message drives the key exchange that inverts KEY_PHASE. -/
  | rekey (frame : Nat)
  /-- CONTROL (R408): A received CONTROL frame delivers one firmware message without retransmission. -/
  | control (frame : Nat)
  /-- HEARTBEAT_SEND (R412): Every 20 ms an UP trunk sends a HEARTBEAT. -/
  | heartbeatSend (trunk : Fin 256)
  /-- HEARTBEAT_MISS (R412): A 20 ms interval without a heartbeat counts a miss; the fifth sends a PROBE. -/
  | heartbeatMiss (trunk : Fin 256)
  /-- PROBE_TIMEOUT (R412): 50 ms without a reply sends a second PROBE, and after the second the trunk goes DOWN. -/
  | probeTimeout (trunk : Fin 256)
  /-- ACK_SEND (R403): At least every 5 ms with frames unacknowledged, or at once after a gap, the receiver sends an
      ACK. -/
  | ackSend (trunk : Fin 256)
  /-- RETRANSMIT_TIMEOUT (R404): A RELIABLE body's retransmission timer expires and it is resent with a new counter. -/
  | retransmitTimeout (trunk : Fin 256) (seq : Nat)
  /-- REKEY_START (R401): A REKEY_REQ or TRK_REKEY_S expiry starts a trunk rekey when the old generation has
      retired. -/
  | rekeyStart (trunk : Fin 256)
  /-- ROSTER_UPDATE (R410): A ROSTER_UPDATE message changes the roster state of a participant. -/
  | rosterUpdate (trunk : Fin 256) (conf : Fin 4096) (epoch id : Nat) (presence : Presence)
  /-- TALKER_REPORT (R411): A TALKER_REPORT gives the anchor a module's local talker scores. -/
  | talkerReport (trunk : Fin 256) (conf : Fin 4096) (epoch : Nat) (pairs : List (Nat × Nat))
  /-- TALKER_SET (R411): A TALKER_SET from the anchor is applied at the next mix frame. -/
  | talkerSet (trunk : Fin 256) (conf : Fin 4096) (epoch : Nat) (ids : List Nat)
  /-- CONF_OP (R410): A conference-wide operation is applied by the anchor, or refused or journaled on an island. -/
  | confOp (from_ : Option (Fin 256)) (who : Sender) (conf : Fin 4096) (op : ConfOp)
  /-- CONF_OP_RESULT (R410): The anchor's result of a forwarded operation is returned to its requester. -/
  | confOpResult (trunk : Fin 256) (conf : Fin 4096) (status : Nat)
  /-- STATE_SUMMARY (R418): A STATE_SUMMARY joins a module as MEMBER or, at heal, decides the winning anchor. -/
  | stateSummary (trunk : Fin 256) (conf : Fin 4096) (anchor anchorEpoch epoch length : Nat)
  /-- JOURNAL_ENTRY (R419): A journal entry from the joining side is received for replay. -/
  | journalEntry (trunk : Fin 256) (conf : Fin 4096) (epoch time : Nat) (valid : Bool) (op : ConfOp)
  /-- JOURNAL_DONE (R419): The winning anchor replays the journal, posts conflicts, increments EPOCH and makes the
      joining side MEMBER. -/
  | journalDone (trunk : Fin 256) (conf : Fin 4096) (count : Nat)
  /-- CHANNEL_OFFER (R408): A CHANNEL_OFFER advertises a stream the sender can send. -/
  | channelOffer (trunk : Fin 256) (conf : Fin 4096) (stream : Nat)
  /-- PROMOTE (R416): PROMOTE makes an island ANCHOR of its part and applies its queued journal. -/
  | promote (who : Sender) (conf : Fin 4096)
  /-- CREATE (R430): CREATE takes the lowest free slot for a descriptor with its creation hold. -/
  | create (who : Sender) (desc : List Byte)
  /-- LINK (R431): LINK adds a successor to a predecessor, or returns LINK_DONE if it has completed. -/
  | link (who : Sender) (pred succ mode : Nat)
  /-- ARM (R432): ARM removes a task's creation hold. -/
  | arm (who : Sender) (task : Nat)
  /-- CANCEL (R433): CANCEL completes a held or ready task with HTS_CANCELLED, or is refused for a running one. -/
  | cancel (who : Sender) (task : Nat)
  /-- STRIP (R436): STRIP records a task's strip count and BUF and notifies followers, firing FIRST_STRIP links. -/
  | strip (who : Sender) (task count buf : Nat)
  /-- FOLLOW (R436): FOLLOW returns a task's strip count and BUF and registers the follower. -/
  | follow (who : Sender) (task : Nat)
  /-- COMPLETE (R435): COMPLETE applies hold releases, fires links, posts the completion entry and frees the slot. -/
  | complete (who : Sender) (task status : Nat) (holds : List Nat)
  /-- TASK_DISPATCH (R437): A unit asking for work is given the best eligible task that Updraft admits, stepped,
      deferred or skipped. -/
  | taskDispatch (group : TaskGroup)
  /-- AU_HANDOVER (R436): the relay hands the oldest complete access unit to the HTS as a DECODE task; `tpl` is what
      vendor firmware has placed for its stream, none where the stream has no decode context -/
  | auHandover (tpl : Option DecodeTemplate)
  /-- UPD_WINDOW_END (R445): At each 250 µs window end Updraft computes the next budget and raises or lowers the
      shed level. -/
  | updWindowEnd
  /-- THERMAL_SAMPLE (R446): Every 100 µs Updraft takes Tj and moves the thermal state, factor and THERM_N. -/
  | thermalSample (sensors : List Byte)
  /-- TELEMETRY_SAMPLE (R608): Every 2 µs the regulators report each rail's voltage and current for Updraft. -/
  | telemetrySample (vin : Nat) (rails : List (Nat × Nat)) (islands : List Nat) (link : CheckResult)
  /-- STANDBY_ENTER (R449): A write of STANDBY = 1 puts the Fabric, Control and HBM PHYs into Lull when no port or
      task is active. -/
  | standbyEnter (who : Sender)
  /-- STANDBY_EXIT (R449): A write of STANDBY = 0 starts the wake of the device. -/
  | standbyExit (who : Sender)
  /-- STANDBY_WAKE_DONE (R449): The device wakes, sets AWAKE and resumes MXM_FRAME with sources PRIMING. -/
  | standbyWakeDone
  /-- HBM_REQUEST (R461): A controller serves the next request of a pseudo-channel by promotion, class, row hit and
      age, with ECC handling. -/
  | hbmRequest (ctl : Fin 4) (pc : Fin 32) (arrivals : List HbmAsk) (ecc : EccFinding)
  /-- REFRESH (R463): A scheduled bank refresh command runs within the refresh window. -/
  | refresh (ctl : Fin 4) (pc bank : Fin 32)
  /-- REFRESH_WINDOW_START (R464): A new refresh window clears every tracker and applies the temperature's window
      length. -/
  | refreshWindowStart (ctl : Fin 4) (celsius : BitVec 8)
  /-- THROTTLE_EXPIRY (R465): A source's throttle period of HBM_RDT_US ends and it is freed. -/
  | throttleExpiry (ctl : Fin 4) (slot : Fin 8)
  /-- SCRUB_READ (R468): The patrol scrub reads the next word and applies the ECC rules. -/
  | scrubRead (ecc : EccFinding)
  /-- HBM_PARITY_ERROR (R469): A stack parity error repeats the command once and fences the controller on a second
      failure. -/
  | hbmParityError (ctl : Fin 4) (again : Bool)
  /-- HBM_TRAIN_STEP (R470): A training step of a stack completes, fails and retries, or fences the controller. -/
  | hbmTrainStep (ctl : Fin 4) (outcome : TrainOutcome)
  /-- MAP_ENABLE (R459): Setting HBM_MAP_CTRL ENABLE fixes the region layout until reset. -/
  | mapEnable (who : Sender)
  /-- BAR2_READ (R473): A BAR2 read is served as a BULK request of F0. -/
  | bar2Read (offset n : Nat) (ecc : EccFinding)
  /-- BAR2_WRITE (R473): A BAR2 write is served, or dropped and counted in a write-protected region. -/
  | bar2Write (offset : Nat) (bytes : List Byte) (ecc : EccFinding)
  /-- FUNCTION_LEVEL_RESET (R480): A function-level reset disables the function's queues, mailboxes, grants,
      doorbells and vectors. -/
  | functionLevelReset (fn : Fin 16)
  /-- VF_ENABLE_CLEAR (R481): VF Enable is cleared; NumVFs as it is enabled again afterwards, 0 while it stays clear -/
  | vfEnableClear (again : Fin 16)
  /-- HOT_RESET (R481): the rate code and the lanes of the link that comes up afterwards, 0 while it is down -/
  | hotReset (speed width : Fin 17)
  /-- BAD_ACCESS (R483): A BAR0 request not one aligned DWORD is refused, counted and logged. -/
  | badAccess (fn : Fin 16) (addr : Nat) (read : Bool)
  /-- TAIL_WRITE (R488): A host write of a RING submission queue's TAIL makes descriptors available for fetch. -/
  | tailWrite (fn j : Fin 16) (tail : BitVec 16)
  /-- DESC_FETCH_DONE (R488): A fetch of up to 8 descriptors from host memory completes and each is checked,
      committed and HEAD advanced. -/
  | descFetchDone (fn j : Fin 16) (descs : List (List Byte)) (failed : Bool)
  /-- PIO_COMMIT (R488): The write of a PIO queue's eighth word commits the descriptor. -/
  | pioCommit (fn j : Fin 16)
  /-- DESC_NOP (R490): A NOP descriptor is committed with no data. -/
  | descNop (fn j : Fin 16)
  /-- INLINE (R490): An INLINE descriptor carries up to 16 bytes of data in the descriptor. -/
  | inline (fn j : Fin 16)
  /-- HOST_BUF (R490): what the read of host memory gives; none when it fails -/
  | hostBuf (fn j : Fin 16) (data : Option (List Byte))
  /-- DEV_BUF (R490): A DEV_BUF descriptor is committed unchanged, naming HBM data. -/
  | devBuf (fn j : Fin 16)
  /-- FREE_CELL (R490): A FREE_CELL descriptor returns a cell to Billow. -/
  | freeCell (fn j : Fin 16)
  /-- RX_BUF (R490): An RX_BUF descriptor adds a host buffer to the CQ's receive list. -/
  | rxBuf (fn j : Fin 16)
  /-- FRAME_TX (R491): The FRAME_TX service sends a descriptor's data as one Ethernet frame on a named port and
      class. -/
  | frameTx (fn j : Fin 16)
  /-- GULTER_BLOCK (R491): The GULTER_BLOCK service takes a segment of a Gulter block transfer. -/
  | gulterBlock (fn j : Fin 16)
  /-- FIRMWARE (R491): the status with which the host service ends the job -/
  | firmware (fn j : Fin 16) (status : BitVec 8)
  /-- CQ_ENTRY_WRITE (R494): A completion or data entry is written at the CQ's TAIL with its phase, after its data
      writes. -/
  | cqEntryWrite (fn k : Fin 16)
  /-- HEAD_WRITE (R494): A host write of a CQ's HEAD returns entries and lets waiting entries be written. -/
  | headWrite (fn k : Fin 16) (head : BitVec 16)
  /-- CQ_COALESCE_TIMER (R495): The oldest waiting entry reaching COAL_US raises the CQ's MSI-X vector. -/
  | cqCoalesceTimer (fn k : Fin 16)
  /-- MSIX_UNMASK (R509): the vector; none when MSI-X Enable is set -/
  | msixUnmask (fn : Fin 16) (vec : Option (Fin 128))
  /-- HOST_QUEUE_DISABLE (R496): Clearing a host queue's ENABLE completes unconsumed descriptors with HQ_ABORTED. -/
  | hostQueueDisable (fn : Fin 16) (j : Fin 32)
  /-- MBX_CLAIM (R500): A host read of MBX_CLAIM claims the lowest free eligible channel and starts its claim timer. -/
  | mbxClaim (fn : Fin 16)
  /-- MBX_DATA_WRITE (R499): The claimer's write of DATA0–15 stages a word, or is rejected. -/
  | mbxDataWrite (fn : Fin 16) (ch : Fin 64) (index : Fin 16) (word : Word)
  /-- SEND (R499): The claimer's SEND makes the stage the message, stamps SENDER and notifies the receiver. -/
  | send (fn : Fin 16) (ch : Fin 64) (check : CheckResult)
  /-- MBX_CLAIM_TIMEOUT (R499): A claim not sent within MBX_CLAIM_TO lapses and the stage is discarded. -/
  | mbxClaimTimeout (ch : Fin 64)
  /-- MBX_INTERNAL_WRITE (R499): An internal 64-byte line write stores a message in a free channel or takes a bus
      error. -/
  | mbxInternalWrite (who : Sender) (ch : Fin 64) (line : List Byte) (check : CheckResult)
  /-- MBX_RELEASE (R501): A host read of DATA15 or an internal line read releases a full channel. -/
  | mbxRelease (who : Sender) (ch : Fin 64)
  /-- DBL_SET (R505): A write of DBL_SETw sets device-bound bits and interrupts control cores on 0-to-1 changes. -/
  | dblSet (fn : Fin 16) (w : Fin 8) (bits : Word)
  /-- DBL_INTERNAL_SET (R506): the host-bound bit 128 + bit -/
  | dblInternalSet (who : Sender) (bit : Fin 128)
  /-- DBL_STAT_CLEAR (R506): A W1C write of DBL_STATw clears doorbell bits. -/
  | dblStatClear (who : Sender) (w : Fin 8) (bits : Word)
  /-- OPEN (R529): the body: 97 octets on the management port, none on the mailbox path -/
  | gulterOpen (head : GulHead) (body : List Byte)
  /-- AUTH (R526): the body: the client's public key and its signature -/
  | auth (head : GulHead) (body : List Byte)
  /-- AUTH_TIMEOUT (R529): 5 s in AUTH_WAIT without AUTH closes the session. -/
  | authTimeout (session : BitVec 16)
  /-- CLOSE (R529): CLOSE drops a session's subscriptions and block and closes it. -/
  | close (head : GulHead)
  /-- SESSION_IDLE_TIMEOUT (R529): SESSION_IDLE_S without a client message closes the session silently. -/
  | sessionIdleTimeout (session : BitVec 16)
  /-- READ (R518): A Gulter READ checks and reads up to 16 objects as one step. -/
  | read (head : GulHead) (addrs : List ObjAddr)
  /-- GULTER_WRITE (R518): A Gulter WRITE checks and applies up to 16 object writes in order as one step. -/
  | gulterWrite (head : GulHead) (entries : List ObjWrite)
  /-- BLOCK_BEGIN (R534): BLOCK_BEGIN opens a block write or takes a snapshot for a block read. -/
  | blockBegin (head : GulHead) (addr : ObjAddr) (dir : BitVec 8) (total : Word)
  /-- BLOCK_SEG (R535): BLOCK_SEG carries write data at an offset or returns read data. -/
  | blockSeg (head : GulHead) (seg : GulSeg)
  /-- BLOCK_END (R535): BLOCK_END checks completeness and CRC and applies a block write as one step. -/
  | blockEnd (head : GulHead) (crc : Word)
  /-- BLOCK_TIMEOUT (R534): A block with no message for 5 s is discarded. -/
  | blockTimeout (session : BitVec 16)
  /-- SUBSCRIBE (R537): SUBSCRIBE adds an ON_CHANGE or PERIODIC subscription, or is denied. -/
  | subscribe (head : GulHead) (addr : ObjAddr) (mode : BitVec 8) (periodMs : BitVec 16)
  /-- UNSUBSCRIBE (R525): UNSUBSCRIBE removes a subscription. -/
  | unsubscribe (head : GulHead) (id : BitVec 16)
  /-- SUBSCRIPTION_SAMPLE (R537): the SUB_ID -/
  | subscriptionSample (sub : BitVec 16)
  /-- NOTIFY_RESEND (R538): An unacknowledged NOTIFY is resent every 250 ms and the eighth send closes the session. -/
  | notifyResend (session : BitVec 16)
  /-- NOTIFY_ACK (R538): the SEQ of the NOTIFY -/
  | notifyAck (head : GulHead) (seq : Word)
  /-- KEEPALIVE (R525): KEEPALIVE is answered with KEEPALIVE of the same SEQ. -/
  | keepalive (head : GulHead)
  /-- SEQ_GAP_TIMEOUT (R532): A held request whose predecessor has not arrived in 2 s releases the gap with ERROR
      for each missing SEQ. -/
  | seqGapTimeout (session : BitVec 16)
  /-- SESSION_CLOSE_ALL (R529): SESSION_CLOSE_ALL closes every session but the writer's. -/
  | sessionCloseAll (head : GulHead)
  /-- CONF_CREATE (R544): CONF_CREATE makes a FREE conference ACTIVE and sets its owner. -/
  | confCreate (head : GulHead) (conf : BitVec 16)
  /-- CONF_END (R544): CONF_END detaches every leg and ends the conference. -/
  | confEnd (head : GulHead) (conf : BitVec 16)
  /-- LEG_ATTACH (R545): LEG_ATTACH joins a configured leg to an active unlocked conference and starts connecting. -/
  | legAttach (head : GulHead) (leg conf : BitVec 16)
  /-- LEG_DETACH (R545): LEG_DETACH removes a leg from its conference, returning it to CONFIGURED. -/
  | legDetach (head : GulHead) (leg : BitVec 16)
  /-- LEG_RELEASE (R545): LEG_RELEASE detaches the leg, erases its slots and FCT entries and frees it. -/
  | legRelease (head : GulHead) (leg : BitVec 16)
  /-- LEG_CONNECTED (R545): the leg, the negotiated suite and what its receiver offers -/
  | legConnected (leg : Fin 16384) (offer : LegOffer)
  /-- LEG_CONNECT_TIMEOUT (R545): the leg, and whether DTLS fails to verify LEG_DTLS_FP -/
  | legConnectTimeout (leg : Fin 16384) (badFingerprint : Bool)
  /-- ENC_FORCE_INTRA (R224): the encode stream and its next encode descriptor that is not released -/
  | encForceIntra (stream : Fin 16384) (desc : Nat)
  /-- POWER_ON (R606): VIN rising through 10.0 V starts the rails in order and a cold reset. -/
  | powerOn
  /-- RAILS_IN_REGULATION (R606): Every rail reaches regulation, internal reset is released and the boot ROM runs. -/
  | railsInRegulation
  /-- RAMP_TIMEOUT (R606): A rail not in regulation 10 ms after the start switches every rail off into FAULT. -/
  | rampTimeout
  /-- VIN_LOW (R606): VIN below 10.8 V for 10 µs sets VIN_LOW. -/
  | vinLow
  /-- POWER_OFF (R606): VIN below 10.0 V switches rails off and loses every state but the fuses. -/
  | powerOff
  /-- RAIL_FAULT (R606): Overvoltage or a rail out of limit for 50 µs switches every rail off into latched FAULT. -/
  | railFault
  /-- PERST_N_FALL (R547): A falling edge of PERST_N after a seen high starts a warm reset held until PERST_N rises. -/
  | perstNFall
  /-- PERST_N_RISE (R547): PERST_N rising releases a held warm reset and resamples the PCIe reference. -/
  | perstNRise
  /-- RESET (R548): A FUS_CTRL write of 0x7B07 requests a warm reset, taken only while Tj < T_WARN. -/
  | reset (who : Sender) (value : BitVec 16)
  /-- DEVICE_RESET (R548): A DEVICE_RESET write from an ADMIN session requests a warm reset. -/
  | deviceReset (head : GulHead)
  /-- FW_WATCHDOG (R546): Firmware not writing FUS_FW_WD for 1 s causes a warm reset. -/
  | fwWatchdog
  /-- KICK (R574): A firmware write of FUS_FW_WD restarts the firmware watchdog. -/
  | kick (who : Sender)
  /-- FUSE_SENSE (R550): the record that cannot be read; none when every record's ECC is valid -/
  | fuseSense (unreadable : Option Nat)
  /-- BANK_VERIFY (R557): The boot ROM checks a bank's header, signatures, SVN and stage-one digest and loads it or
      tries the other. -/
  | bankVerify (link : CheckResult)
  /-- STAGE1_CHECK (R558): Stage one checks the body digest and starts every control core, or marks the bank bad
      with STAGE1_FAIL. -/
  | stage1Check
  /-- HBM_READY (R550): HBM training completes and the region layout is loaded, entering BRINGUP, or NO_MEMORY on a
      fenced controller. -/
  | hbmReady
  /-- BRINGUP_COMPLETE (R550): the units whose self-test fails (R584): kind 0 VDE, 1 VEE, 2 CMP, 3 TSP, 4 DSP core,
      5 cipher core, and instance -/
  | bringupComplete (failed : List (Fin 6 × Nat))
  /-- RCV_LOAD (R559): LOAD checks the recovery image and starts its stage one. -/
  | rcvLoad (who : Sender)
  /-- RCV_CLEAR (R574): CLEAR resets the recovery window. -/
  | rcvClear (who : Sender)
  /-- DEVICE_IDENTITY (R563): A DEVICE_IDENTITY write burns the identity and endorsement once. -/
  | deviceIdentity (head : GulHead) (value : List Byte)
  /-- OWNER_KEY_HASH (R565): An OWNER_KEY_HASH write provisions or transfers the owner under its conditions. -/
  | ownerKeyHash (head : GulHead) (value : List Byte)
  /-- OWNER_TRANSFER_AUTH (R566): OWNER_TRANSFER_AUTH verifies the current owner's signature and holds the pending
      owner. -/
  | ownerTransferAuth (head : GulHead) (value : List Byte)
  /-- ROLLBACK_FLOOR (R561): A ROLLBACK_FLOOR write raises the floor up to the running SVN. -/
  | rollbackFloor (head : GulHead) (value : BitVec 8)
  /-- TRUNK_CIPHER_LOCK (R377): A TRUNK_CIPHER_LOCK write burns the lock on 128-bit trunk keys and low SCA levels. -/
  | trunkCipherLock (head : GulHead) (value : BitVec 8)
  /-- DEBUG_DISABLE (R560): A DEBUG_DISABLE write burns the closure of the debug controls. -/
  | debugDisable (head : GulHead) (value : BitVec 8)
  /-- FUSE_BURN_DONE (R562): whether the record reads back as burnt -/
  | fuseBurnDone (matches_ : Bool)
  /-- ATTEST_NONCE (R567): An ATTEST_NONCE write builds and signs an attestation report for the session. -/
  | attestNonce (head : GulHead) (value : List Byte)
  /-- FW_STAGE_BEGIN (R571): FW_STAGE_BEGIN records the session and erases the other bank. -/
  | fwStageBegin (head : GulHead)
  /-- FW_STAGE_DATA (R571): FW_STAGE_DATA writes image data at FW_STAGE_OFFSET. -/
  | fwStageData (head : GulHead) (value : List Byte)
  /-- FW_STAGE_HBM (R571): FW_STAGE_HBM writes image data from BAR2 region 6. -/
  | fwStageHbm (head : GulHead) (value : List Byte)
  /-- FW_STAGE_END (R571): FW_STAGE_END checks the staged image and sets VERIFIED or REJECTED. -/
  | fwStageEnd (head : GulHead)
  /-- FW_ACTIVATE (R571): FW_ACTIVATE makes the staged bank preferred on trial. -/
  | fwActivate (head : GulHead)
  /-- FW_COMMIT (R572): FW_COMMIT ends the trial of a running READY image. -/
  | fwCommit (head : GulHead)
  /-- SQUALL_ENTRY_READ (R594): the entry at an index of the log is read; `check` says how its ECC check ends:
      passed, passed on the second read, or failed both -/
  | squallEntryRead (who : Sender) (index : Fin 8192) (check : CheckResult)
  /-- REFCLK_SAMPLE (R611): The endpoint samples PCIE_REFCLK after rails come up and at each PERST_N rise, choosing
      its clock. -/
  | refclkSample (present : Bool)
  /-- REFCLK_LOST (R611): A reference clock stopping takes the link down and sets REFCLK_LOST. -/
  | refclkLost
  /-- CAGE_PRESENCE_CHANGE (R616): the level of a cage's MODPRS_N changes -/
  | cagePresenceChange (cage : Fin 8) (level : Bool)
  /-- CAGE_IDENTIFY (R616): vendor firmware goes on with a plugged cage: 50 ms after MODPRS_N fell it sets CAGE_EN,
      and 100 ms later it releases MODRST_N, reads the identifier and accepts the module or refuses it -/
  | cageIdentify (cage : Fin 8) (accepted : Bool)
  /-- CAGE_OVERCURRENT (R617): cage 0-7, or 8 for the SFP cage -/
  | cageOvercurrent (cage : Fin 9)
  /-- MGMT_LOS_CHANGE (R618): the levels of MGMT_LOS and MGMT_TXFAULT -/
  | mgmtLosChange (los txfault : Bool)
  /-- JTAG_INSTRUCTION (R619): the instruction loaded into the TAP, or Test-Logic-Reset -/
  | jtagInstruction (instr : JtagInstr)
  /-- FLR_COMPLETE (R480): A function-level reset finishes within 10 ms and the function's FLR_BUSY bit clears. -/
  | flrComplete (fn : Fin 16)
  /-- CPL_TIMEOUT (R496): A device read of host memory with no completion within HIF_CPL_TIMEOUT fails its
      descriptor with HQ_DMA_ERR. -/
  | cplTimeout (fn j : Fin 16)
  /-- MXM_COMMAND_DONE (R280): A LOAD, STORE or READ_ACTIVE command finishes, BUSY in MXM_CMD_RESULT falls and
      RESULT reports its outcome. -/
  | mxmCommandDone
  /-- MGMT_MODABS_CHANGE (R616): the level of MGMT_MODABS, and whether firmware accepts the module that is there
      when it is low -/
  | mgmtModabsChange (level accepted : Bool)
  /-- CAGE_INT_N_FALL (R626): A falling edge on a media cage's INT_N line sets that cage's INT_FELL bit in
      FUS_PAD_CHG. -/
  | cageIntNFall (cage : Fin 8)
  /-- FIR_RESEND (R191): When a stream is still not NORMAL 1 s after the record that carried ENTERED, and every 1 s
      after that, firmware sends an RTCP FIR on the leg. -/
  | firResend (ctx : Nat)
  /-- COUNTER_LO_READ (R97): A read of the LO word of a 64-bit counter or register latches its HI word, so a
      LO-then-HI pair reads one value. -/
  | counterLoRead (who : Sender) (addr : BitVec 24)
  /-- BAR2_SIZE_CHANGE (R472): A change of the BAR2 size through F0's Resizable BAR capability clears HBM_BAR2_WIN
      to 0. -/
  | bar2SizeChange (log2 : Nat) (decode : Bool)
  /-- SLOTS_MAX_WRITE (R453): A write of HTS_SLOTS_MAX sets it to the current HTS_SLOTS_USED. -/
  | slotsMaxWrite (who : Sender)
  /-- IRQ_WAIT_MAX_WRITE (R330): A write of DSC_IRQ_WAIT_MAX sets it to 0. -/
  | irqWaitMaxWrite (who : Sender) (cluster : Fin 8)
  /-- IPEAK_WRITE (R627): A write of UPD_RAILr_IPEAK sets it to the rail's current sample. -/
  | ipeakWrite (who : Sender) (rail : Fin 8)
  deriving DecidableEq, Repr

end Sys2Proof
end

