-- ==== Sys2Proof/Decode.lean ====
section
/-! DEFINITION. The decoder of the table's bits. The spec's table gives no row bits: the commands of this block are not
encoded as words, so no word spells one. -/

namespace Sys2Proof

/-- The command that an `nbits`-bit word spells by the table: none, since no row of the table has bits. -/
def decodeTableWord (_nbits _w : Nat) : Option Instr := none

end Sys2Proof
end

