-- ==== Sys2Proof/Config.lean ====
section
/-! DEFINITION. What an implementation fixes and the spec leaves open: the free values. None has a body, so nothing can
be proved of one. A free value is applied to a counter that the step reads and advances (State.freeCtr), so that every
use has a value of its own; `notes/assumptions/` lists each use. -/

namespace Sys2Proof.Config

/-- A value the spec leaves open, by the count of such values taken so far. -/
opaque freeValue : Nat → Nat

/-- A list of `n` octets whose value the spec leaves open, by the count of values taken so far and the octet's place. -/
opaque freeOctet : Nat → Nat → Byte

/-- The die's unique secret, fused at the factory and readable only by the PKA (R563). -/
opaque dieSecret : List Byte

/-- What the boot flash holds when it leaves the factory, by octet of a 256 MiB bank: both banks hold the same vendor image (R624). -/
opaque factoryFlash : Nat → Byte

/-- What an octet of an erased bank reads as, by its flash address. -/
opaque erasedFlash : Nat → Byte

/-- The vendor root hash held in the boot ROM (R557). -/
opaque vendorRoot : List Byte

/-- The die key, fused at the factory and used by the PKA alone (R563). -/
opaque dieKey : Nat

/-- DIE_PUBKEY and DIE_CERT, fused at the factory (R564, R575). -/
opaque diePubkey : List Byte

/-- DIE_CERT (R564, R575). -/
opaque dieCert : List Byte

/-- Whether a part of 16,384 legs is the KB7-16K-E, not the KB7-16K-C (R2). -/
opaque extendedPart : Bool

/-- Where vendor firmware keeps the context of an encode stream, in units of 256 octets of HBM (R231). -/
opaque encodeCtx : Nat → Nat

/-- Where vendor firmware keeps a leg's viewer context, in units of 512 octets of HBM (R265). -/
opaque viewerCtx : Nat → Nat

/-- The mid-grey background card of a tier that vendor firmware loads at start-up (R253). -/
opaque greyCard : Nat → List Byte

/-- Where vendor firmware keeps the background card of a tier that a client writes, in units of 64 octets of HBM (R253). -/
opaque cardPlace : Nat → Nat

/-- Whether octets that hold a tier's slices decode as an intra picture that meets R235 and R237. -/
opaque cardDecodes : Nat → List Byte → Bool

/-- Whether the 81 coefficients of a shaping FIR meet the mask of R336. -/
opaque firMaskOk : List Nat → Bool

/-- What a scaling filter makes of its taps, by the source and destination size of its axis and the phase: the coefficients are fixed in the
Compose Engine and not given (R205). -/
opaque filter : Nat × Nat → Nat → List Nat → Nat

/-- An octet of a row's reconstruction, by the count of values taken so far, the source's samples and the octet's place (R217). -/
opaque reconOctet : Nat → List Nat → Nat → Byte

/-- The default skip cell that vendor firmware loads at start-up: a length-prefixed T1 P slice whose every unit is a skip (R253). -/
opaque skipCell : List Byte

/-- Where vendor firmware keeps the background table, in units of 256 octets of region 1 (R253, R459). -/
opaque bgTable : Nat

end Sys2Proof.Config
end

