-- ==== Sys2Proof/Machine/Registers.lean ====
section
/-! DEFINITION. The BAR0 register map: every register table of spec/ (chapters 02 to 19) as data, with the type (R17),
the reset value and the accepted range of each field, and one named field per row. Names are the spec's, with the
field's name after the register's. -/

namespace Sys2Proof.Machine

/-- A register field: the BAR0 address of its register, its lowest bit and its width. -/
structure Fld where
  addr  : Nat
  lsb   : Nat
  width : Nat
  deriving DecidableEq, Repr

/-- The field types of R17. -/
inductive RegTy where
  | rw | ro | w1c | wo | rwm | rwv | rwd
  deriving DecidableEq, Repr

/-- What a register's Effect column says of the values it takes. -/
inductive Chk where
  /-- every value is taken -/
  | any
  /-- values outside are ignored and set CFG_IGNORED -/
  | range (lo hi : Nat)
  /-- values above are stored as the limit -/
  | clamp (hi : Nat)
  /-- 0, or a value in the range -/
  | zeroOr (lo hi : Nat)
  /-- a rule of its own, in RegisterWrite.lean -/
  | special
  deriving DecidableEq, Repr

/-- A field's reset value: one for all, one for each index, or by the queue's owner (R630). -/
inductive Rst where
  | lit (v : Nat)
  | byIndex (vs : List Nat)
  | queueWidth
  | queueDepth
  deriving DecidableEq, Repr

/-- One row of a register table. `c1` by `s1` and `c2` by `s2` are the counts and strides of the arrays it stands in;
`abase` is where its array starts, `en` the offset from there of the register whose bit 0 enables the element, and `ig`
where the element's own CFG_IGNORED lies. -/
structure RegRow where
  off   : Nat
  lsb   : Nat
  width : Nat
  ty    : RegTy
  rst   : Rst
  chk   : Chk
  c1    : Nat
  s1    : Nat
  c2    : Nat
  s2    : Nat
  abase : Nat
  en    : Option Nat
  ig    : Option (Nat × Nat)
  deriving DecidableEq, Repr

/-- A block of registers: its base, its instances and their stride, its ENABLE and its CFG_IGNORED. -/
structure RegBlock where
  base   : Nat
  count  : Nat
  stride : Nat
  en     : Option (Nat × Nat)
  ig     : Option (Nat × Nat)
  rows   : List RegRow
  deriving DecidableEq, Repr

namespace R

/-- Register rows of RLY (part 1). -/
def rowsRLY0 : List RegRow := [
  ⟨0, 0, 16, .ro, .lit 514, .any, 1, 0, 1, 0, 0, none, none⟩,
  ⟨0, 16, 8, .ro, .lit 16, .any, 1, 0, 1, 0, 0, none, none⟩,
  ⟨4, 0, 1, .rw, .lit 0, .any, 1, 0, 1, 0, 0, none, none⟩,
  ⟨8, 0, 1, .w1c, .lit 0, .any, 1, 0, 1, 0, 0, none, none⟩,
  ⟨8, 1, 1, .w1c, .lit 0, .any, 1, 0, 1, 0, 0, none, none⟩,
  ⟨8, 2, 1, .ro, .lit 0, .any, 1, 0, 1, 0, 0, none, none⟩,
  ⟨12, 0, 16, .ro, .lit 0, .any, 1, 0, 1, 0, 0, none, none⟩,
  ⟨16, 0, 3, .rwd, .lit 0, .range 0 5, 1, 0, 1, 0, 0, none, none⟩,
  ⟨20, 0, 14, .rwd, .lit 1522, .range 64 9216, 1, 0, 1, 0, 0, none, none⟩,
  ⟨24, 0, 32, .rwd, .lit 1515870810, .any, 1, 0, 1, 0, 0, none, none⟩,
  ⟨28, 0, 12, .rw, .lit 30, .clamp 3600, 1, 0, 1, 0, 0, none, none⟩,
  ⟨32, 0, 1, .rw, .lit 1, .any, 1, 0, 1, 0, 0, none, none⟩,
  ⟨36, 0, 24, .rw, .lit 200000, .any, 1, 0, 1, 0, 0, none, none⟩,
  ⟨40, 0, 16, .ro, .lit 0, .any, 1, 0, 1, 0, 0, none, none⟩,
  ⟨48, 0, 8, .rwd, .lit 0, .any, 1, 0, 1, 0, 0, none, none⟩,
  ⟨48, 8, 8, .rwd, .lit 0, .any, 1, 0, 1, 0, 0, none, none⟩,
  ⟨64, 12, 20, .rwd, .lit 0, .any, 1, 0, 1, 0, 0, none, none⟩,
  ⟨68, 0, 4, .rwd, .lit 0, .any, 1, 0, 1, 0, 0, none, none⟩,
  ⟨72, 12, 20, .rwd, .lit 0, .any, 1, 0, 1, 0, 0, none, none⟩,
  ⟨76, 0, 4, .rwd, .lit 0, .any, 1, 0, 1, 0, 0, none, none⟩,
  ⟨80, 12, 20, .rwd, .lit 0, .any, 1, 0, 1, 0, 0, none, none⟩,
  ⟨84, 0, 4, .rwd, .lit 0, .any, 1, 0, 1, 0, 0, none, none⟩,
  ⟨88, 12, 20, .rwd, .lit 0, .any, 1, 0, 1, 0, 0, none, none⟩,
  ⟨92, 0, 4, .rwd, .lit 0, .any, 1, 0, 1, 0, 0, none, none⟩]

/-- Register rows of RLY (part 2). -/
def rowsRLY1 : List RegRow := [
  ⟨256, 0, 1, .ro, .lit 0, .any, 1, 0, 1, 0, 0, none, none⟩,
  ⟨260, 0, 1, .wo, .lit 0, .any, 1, 0, 1, 0, 0, none, none⟩,
  ⟨264, 0, 4, .wo, .lit 0, .any, 1, 0, 1, 0, 0, none, none⟩,
  ⟨268, 0, 1, .ro, .lit 0, .any, 1, 0, 1, 0, 0, none, none⟩,
  ⟨268, 1, 3, .ro, .lit 0, .any, 1, 0, 1, 0, 0, none, none⟩,
  ⟨268, 4, 1, .ro, .lit 0, .any, 1, 0, 1, 0, 0, none, none⟩,
  ⟨268, 5, 2, .ro, .lit 0, .any, 1, 0, 1, 0, 0, none, none⟩,
  ⟨320, 0, 32, .rw, .lit 0, .any, 16, 4, 1, 0, 0, none, none⟩,
  ⟨4096, 0, 1, .rw, .lit 0, .any, 8, 256, 1, 0, 4096, some 0, none⟩,
  ⟨4096, 1, 1, .rwd, .lit 1, .any, 8, 256, 1, 0, 4096, some 0, none⟩,
  ⟨4096, 2, 2, .rwd, .lit 0, .any, 8, 256, 1, 0, 4096, some 0, none⟩,
  ⟨4096, 4, 1, .rwd, .lit 1, .any, 8, 256, 1, 0, 4096, some 0, none⟩,
  ⟨4096, 5, 1, .rwd, .lit 0, .any, 8, 256, 1, 0, 4096, some 0, none⟩,
  ⟨4100, 0, 1, .ro, .lit 0, .any, 8, 256, 1, 0, 4096, some 0, none⟩,
  ⟨4100, 1, 1, .w1c, .lit 0, .any, 8, 256, 1, 0, 4096, some 0, none⟩,
  ⟨4100, 2, 2, .ro, .lit 0, .any, 8, 256, 1, 0, 4096, some 0, none⟩,
  ⟨4104, 0, 32, .rw, .lit 0, .any, 8, 256, 1, 0, 4096, some 0, none⟩,
  ⟨4108, 0, 16, .rw, .lit 0, .any, 8, 256, 1, 0, 4096, some 0, none⟩,
  ⟨4112, 0, 32, .ro, .lit 0, .any, 8, 256, 1, 0, 4096, some 0, none⟩,
  ⟨4116, 0, 32, .ro, .lit 0, .any, 8, 256, 1, 0, 4096, some 0, none⟩]

/-- The block RLY. -/
def blockRLY : RegBlock := ⟨0x00200000, 1, 0x0, some (4, 0), some (8, 0), rowsRLY0 ++ rowsRLY1⟩

def RLY_ID_BLOCK : Fld := ⟨0x00200000, 0, 16⟩
def RLY_ID_REV : Fld := ⟨0x00200000, 16, 8⟩
def RLY_CTRL_ENABLE : Fld := ⟨0x00200004, 0, 1⟩
def RLY_STATUS_CFG_IGNORED : Fld := ⟨0x00200008, 0, 1⟩
def RLY_STATUS_CMD_IGNORED : Fld := ⟨0x00200008, 1, 1⟩
def RLY_STATUS_FCT_READY : Fld := ⟨0x00200008, 2, 1⟩
def RLY_VOTE_FIX_COUNT : Fld := ⟨0x0020000C, 0, 16⟩
def RLY_PORT_MODE_MODE : Fld := ⟨0x00200010, 0, 3⟩
def RLY_MAX_FRAME_BYTES : Fld := ⟨0x00200014, 0, 14⟩
def RLY_HASH_SEED_SEED : Fld := ⟨0x00200018, 0, 32⟩
def RLY_AGE_TIMEOUT_SECONDS : Fld := ⟨0x0020001C, 0, 12⟩
def RLY_MISS_ACTION_ACTION : Fld := ⟨0x00200020, 0, 1⟩
def RLY_EXC_RATE_PPS : Fld := ⟨0x00200024, 0, 24⟩
def RLY_AGE_CLOCK_SECONDS : Fld := ⟨0x00200028, 0, 16⟩
def RLY_LANE_POL_RX_INV : Fld := ⟨0x00200030, 0, 8⟩
def RLY_LANE_POL_TX_INV : Fld := ⟨0x00200030, 8, 8⟩
def RLY_FCT_BASE_LO_ADDR : Fld := ⟨0x00200040, 12, 20⟩
def RLY_FCT_BASE_HI_ADDR : Fld := ⟨0x00200044, 0, 4⟩
def RLY_STREAM_BASE_LO_ADDR : Fld := ⟨0x00200048, 12, 20⟩
def RLY_STREAM_BASE_HI_ADDR : Fld := ⟨0x0020004C, 0, 4⟩
def RLY_RSTATE_BASE_LO_ADDR : Fld := ⟨0x00200050, 12, 20⟩
def RLY_RSTATE_BASE_HI_ADDR : Fld := ⟨0x00200054, 0, 4⟩
def RLY_HDR_BASE_LO_ADDR : Fld := ⟨0x00200058, 12, 20⟩
def RLY_HDR_BASE_HI_ADDR : Fld := ⟨0x0020005C, 0, 4⟩
def RLY_FCT_CLAIM_GRANTED : Fld := ⟨0x00200100, 0, 1⟩
def RLY_FCT_RELEASE_RELEASE : Fld := ⟨0x00200104, 0, 1⟩
def RLY_FCT_CMD_OP : Fld := ⟨0x00200108, 0, 4⟩
def RLY_FCT_RESULT_BUSY : Fld := ⟨0x0020010C, 0, 1⟩
def RLY_FCT_RESULT_RESULT : Fld := ⟨0x0020010C, 1, 3⟩
def RLY_FCT_RESULT_BUCKET : Fld := ⟨0x0020010C, 4, 1⟩
def RLY_FCT_RESULT_WAY : Fld := ⟨0x0020010C, 5, 2⟩
def RLY_FCT_DATA_DATA (i : Nat) : Fld := ⟨0x00200140 + i * 0x4, 0, 32⟩
def RLY_PnCTL_PORT_EN (i : Nat) : Fld := ⟨0x00201000 + i * 0x100, 0, 1⟩
def RLY_PnCTL_AN_EN (i : Nat) : Fld := ⟨0x00201000 + i * 0x100, 1, 1⟩
def RLY_PnCTL_FEC (i : Nat) : Fld := ⟨0x00201000 + i * 0x100, 2, 2⟩
def RLY_PnCTL_LT_EN (i : Nat) : Fld := ⟨0x00201000 + i * 0x100, 4, 1⟩
def RLY_PnCTL_LOOPBACK (i : Nat) : Fld := ⟨0x00201000 + i * 0x100, 5, 1⟩
def RLY_PnSTAT_LINK_UP (i : Nat) : Fld := ⟨0x00201004 + i * 0x100, 0, 1⟩
def RLY_PnSTAT_LINK_CHANGE (i : Nat) : Fld := ⟨0x00201004 + i * 0x100, 1, 1⟩
def RLY_PnSTAT_FEC_ACTIVE (i : Nat) : Fld := ⟨0x00201004 + i * 0x100, 2, 2⟩
def RLY_PnMAC_LO_ADDR (i : Nat) : Fld := ⟨0x00201008 + i * 0x100, 0, 32⟩
def RLY_PnMAC_HI_ADDR (i : Nat) : Fld := ⟨0x0020100C + i * 0x100, 0, 16⟩
def RLY_PnFEC_CORR_COUNT (i : Nat) : Fld := ⟨0x00201010 + i * 0x100, 0, 32⟩
def RLY_PnFEC_UNCORR_COUNT (i : Nat) : Fld := ⟨0x00201014 + i * 0x100, 0, 32⟩

def C_RLY_FCT_HIT : Nat := 0x00200200
def C_RLY_FCT_MISS : Nat := 0x00200208
def C_RLY_MISS_NOMATCH : Nat := 0x00200210
def C_RLY_MISS_OVF : Nat := 0x00200218
def C_RLY_AUTH_DROP : Nat := 0x00200220
def C_RLY_REPLAY_DROP : Nat := 0x00200228
def C_RLY_CSUM_DROP : Nat := 0x00200230
def C_RLY_FRAG_DROP : Nat := 0x00200238
def C_RLY_LATE_DROP : Nat := 0x00200240
def C_RLY_DD_UNKNOWN : Nat := 0x00200248
def C_RLY_EXC_DROP : Nat := 0x00200250
def C_RLY_COPIES : Nat := 0x00200258
def C_RLY_COPY_DROP : Nat := 0x00200260
def C_RLY_Pn_RX_FRAMES (i : Nat) : Nat := 0x00201020 + i * 0x100
def C_RLY_Pn_RX_BYTES (i : Nat) : Nat := 0x00201028 + i * 0x100
def C_RLY_Pn_RX_FCS_ERR (i : Nat) : Nat := 0x00201030 + i * 0x100
def C_RLY_Pn_RX_RUNT (i : Nat) : Nat := 0x00201038 + i * 0x100
def C_RLY_Pn_RX_OVERSIZE (i : Nat) : Nat := 0x00201040 + i * 0x100
def C_RLY_Pn_RX_VLAN_DROP (i : Nat) : Nat := 0x00201048 + i * 0x100
def C_RLY_Pn_RX_PAUSE (i : Nat) : Nat := 0x00201050 + i * 0x100
def C_RLY_Pn_RX_FILTER_DROP (i : Nat) : Nat := 0x00201058 + i * 0x100
def C_RLY_Pn_RX_ABORT (i : Nat) : Nat := 0x00201060 + i * 0x100
def C_RLY_Pn_TX_FRAMES (i : Nat) : Nat := 0x00201068 + i * 0x100
def C_RLY_Pn_TX_BYTES (i : Nat) : Nat := 0x00201070 + i * 0x100
def C_RLY_Pn_TX_DISCARD (i : Nat) : Nat := 0x00201078 + i * 0x100

/-- Register rows of BPM (part 1). -/
def rowsBPM0 : List RegRow := [
  ⟨0, 0, 16, .ro, .lit 771, .any, 1, 0, 1, 0, 0, none, none⟩,
  ⟨0, 16, 8, .ro, .lit 16, .any, 1, 0, 1, 0, 0, none, none⟩,
  ⟨4, 0, 1, .rw, .lit 0, .any, 1, 0, 1, 0, 0, none, none⟩,
  ⟨4, 8, 6, .wo, .lit 0, .any, 1, 0, 1, 0, 0, none, none⟩,
  ⟨8, 0, 1, .w1c, .lit 0, .any, 1, 0, 1, 0, 0, none, none⟩,
  ⟨8, 1, 1, .ro, .lit 0, .any, 1, 0, 1, 0, 0, none, none⟩,
  ⟨8, 8, 6, .ro, .lit 0, .any, 1, 0, 1, 0, 0, none, none⟩,
  ⟨12, 0, 16, .ro, .lit 0, .any, 1, 0, 1, 0, 0, none, none⟩,
  ⟨16, 0, 17, .rw, .lit 2000, .range 100 100000, 1, 0, 1, 0, 0, none, none⟩,
  ⟨20, 0, 14, .rw, .lit 100, .range 1 10000, 1, 0, 1, 0, 0, none, none⟩,
  ⟨24, 30, 2, .rwd, .lit 0, .any, 1, 0, 1, 0, 0, none, none⟩,
  ⟨28, 0, 4, .rwd, .lit 0, .any, 1, 0, 1, 0, 0, none, none⟩,
  ⟨32, 30, 2, .rwd, .lit 0, .any, 1, 0, 1, 0, 0, none, none⟩,
  ⟨36, 0, 4, .rwd, .lit 0, .any, 1, 0, 1, 0, 0, none, none⟩,
  ⟨40, 0, 32, .ro, .lit 0, .any, 1, 0, 1, 0, 0, none, none⟩,
  ⟨44, 0, 32, .ro, .lit 0, .any, 1, 0, 1, 0, 0, none, none⟩,
  ⟨48, 0, 16, .ro, .lit 0, .any, 1, 0, 1, 0, 0, none, none⟩,
  ⟨52, 0, 32, .ro, .lit 0, .any, 1, 0, 1, 0, 0, none, none⟩,
  ⟨256, 0, 21, .ro, .byIndex [65536, 8192, 1024, 112, 1048576, 65536], .any, 6, 64, 1, 0, 256, none, none⟩,
  ⟨260, 0, 21, .rwv, .byIndex [8192, 1024, 128, 16, 131072, 8192], .special, 6, 64, 1, 0, 256, none, none⟩,
  ⟨264, 0, 21, .rwv, .byIndex [4096, 512, 64, 8, 65536, 4096], .special, 6, 64, 1, 0, 256, none, none⟩,
  ⟨268, 0, 21, .rwv, .byIndex [2048, 256, 32, 4, 32768, 2048], .special, 6, 64, 1, 0, 256, none, none⟩,
  ⟨272, 0, 21, .rwv, .byIndex [512, 64, 8, 2, 8192, 512], .special, 6, 64, 1, 0, 256, none, none⟩,
  ⟨276, 0, 2, .ro, .lit 0, .any, 6, 64, 1, 0, 256, none, none⟩]

/-- Register rows of BPM (part 2). -/
def rowsBPM1 : List RegRow := [
  ⟨276, 8, 8, .ro, .lit 0, .any, 6, 64, 1, 0, 256, none, none⟩,
  ⟨280, 0, 21, .rw, .byIndex [65536, 8192, 1024, 112, 1048576, 65536], .special, 6, 64, 1, 0, 256, none, none⟩,
  ⟨284, 0, 32, .ro, .lit 0, .any, 6, 64, 1, 0, 256, none, none⟩,
  ⟨288, 0, 32, .ro, .lit 0, .any, 6, 64, 1, 0, 256, none, none⟩,
  ⟨292, 0, 32, .ro, .lit 0, .any, 6, 64, 1, 0, 256, none, none⟩,
  ⟨296, 0, 32, .ro, .lit 0, .any, 6, 64, 1, 0, 256, none, none⟩,
  ⟨300, 0, 32, .ro, .lit 0, .any, 6, 64, 1, 0, 256, none, none⟩,
  ⟨65536, 0, 1, .rw, .lit 0, .any, 2048, 32, 1, 0, 65536, some 0, some (12, 6)⟩,
  ⟨65536, 1, 1, .rwd, .lit 0, .any, 2048, 32, 1, 0, 65536, some 0, some (12, 6)⟩,
  ⟨65536, 2, 1, .rwd, .lit 0, .special, 2048, 32, 1, 0, 65536, some 0, some (12, 6)⟩,
  ⟨65536, 4, 2, .ro, .queueWidth, .any, 2048, 32, 1, 0, 65536, some 0, some (12, 6)⟩,
  ⟨65540, 0, 16, .rwd, .queueDepth, .special, 2048, 32, 1, 0, 65536, some 0, some (12, 6)⟩,
  ⟨65544, 0, 16, .rw, .lit 65535, .any, 2048, 32, 1, 0, 65536, some 0, some (12, 6)⟩,
  ⟨65544, 16, 16, .rw, .lit 0, .any, 2048, 32, 1, 0, 65536, some 0, some (12, 6)⟩,
  ⟨65548, 0, 1, .ro, .lit 1, .any, 2048, 32, 1, 0, 65536, some 0, some (12, 6)⟩,
  ⟨65548, 1, 1, .ro, .lit 0, .any, 2048, 32, 1, 0, 65536, some 0, some (12, 6)⟩,
  ⟨65548, 2, 1, .w1c, .lit 0, .any, 2048, 32, 1, 0, 65536, some 0, some (12, 6)⟩,
  ⟨65548, 3, 1, .w1c, .lit 0, .any, 2048, 32, 1, 0, 65536, some 0, some (12, 6)⟩,
  ⟨65548, 4, 1, .ro, .lit 0, .any, 2048, 32, 1, 0, 65536, some 0, some (12, 6)⟩,
  ⟨65548, 5, 1, .w1c, .lit 0, .any, 2048, 32, 1, 0, 65536, some 0, some (12, 6)⟩,
  ⟨65548, 6, 1, .w1c, .lit 0, .any, 2048, 32, 1, 0, 65536, some 0, some (12, 6)⟩,
  ⟨65552, 0, 16, .ro, .lit 0, .any, 2048, 32, 1, 0, 65536, some 0, some (12, 6)⟩,
  ⟨65552, 16, 16, .ro, .lit 0, .any, 2048, 32, 1, 0, 65536, some 0, some (12, 6)⟩,
  ⟨65556, 0, 1, .wo, .lit 0, .any, 2048, 32, 1, 0, 65536, some 0, some (12, 6)⟩]

/-- Register rows of BPM (part 3). -/
def rowsBPM2 : List RegRow := [
  ⟨65556, 1, 1, .wo, .lit 0, .any, 2048, 32, 1, 0, 65536, some 0, some (12, 6)⟩,
  ⟨65560, 0, 16, .ro, .lit 0, .any, 2048, 32, 1, 0, 65536, some 0, some (12, 6)⟩,
  ⟨65560, 16, 16, .ro, .lit 0, .any, 2048, 32, 1, 0, 65536, some 0, some (12, 6)⟩]

/-- The block BPM. -/
def blockBPM : RegBlock := ⟨0x00300000, 1, 0x0, some (4, 0), some (8, 0), rowsBPM0 ++ rowsBPM1 ++ rowsBPM2⟩

def BPM_ID_BLOCK : Fld := ⟨0x00300000, 0, 16⟩
def BPM_ID_REV : Fld := ⟨0x00300000, 16, 8⟩
def BPM_CTRL_ENABLE : Fld := ⟨0x00300004, 0, 1⟩
def BPM_CTRL_RESET_POOLS : Fld := ⟨0x00300004, 8, 6⟩
def BPM_STATUS_CFG_IGNORED : Fld := ⟨0x00300008, 0, 1⟩
def BPM_STATUS_H_READY : Fld := ⟨0x00300008, 1, 1⟩
def BPM_STATUS_STOPPED : Fld := ⟨0x00300008, 8, 6⟩
def BPM_VOTE_FIX_COUNT : Fld := ⟨0x0030000C, 0, 16⟩
def BPM_HOLD_MAX_MICROSECONDS : Fld := ⟨0x00300010, 0, 17⟩
def BPM_COMPAT_STALL_MICROSECONDS : Fld := ⟨0x00300014, 0, 14⟩
def BPM_H1_BASE_LO_ADDR : Fld := ⟨0x00300018, 30, 2⟩
def BPM_H1_BASE_HI_ADDR : Fld := ⟨0x0030001C, 0, 4⟩
def BPM_H3_BASE_LO_ADDR : Fld := ⟨0x00300020, 30, 2⟩
def BPM_H3_BASE_HI_ADDR : Fld := ⟨0x00300024, 0, 4⟩
def BPM_BADPTR_LAST_LO_PTR : Fld := ⟨0x00300028, 0, 32⟩
def BPM_BADPTR_LAST_HI_PTR : Fld := ⟨0x0030002C, 0, 32⟩
def BPM_BADPTR_SENDER_SENDER : Fld := ⟨0x00300030, 0, 16⟩
def BPM_BADPTR_NOPOOL_COUNT : Fld := ⟨0x00300034, 0, 32⟩
def BPM_Pp_FREE_F (i : Nat) : Fld := ⟨0x00300100 + i * 0x40, 0, 21⟩
def BPM_Pp_WARN1_CELLS (i : Nat) : Fld := ⟨0x00300104 + i * 0x40, 0, 21⟩
def BPM_Pp_WARN2_CELLS (i : Nat) : Fld := ⟨0x00300108 + i * 0x40, 0, 21⟩
def BPM_Pp_STOP_CELLS (i : Nat) : Fld := ⟨0x0030010C + i * 0x40, 0, 21⟩
def BPM_Pp_HYST_CELLS (i : Nat) : Fld := ⟨0x00300110 + i * 0x40, 0, 21⟩
def BPM_Pp_LEVEL_LEVEL (i : Nat) : Fld := ⟨0x00300114 + i * 0x40, 0, 2⟩
def BPM_Pp_LEVEL_HELD (i : Nat) : Fld := ⟨0x00300114 + i * 0x40, 8, 8⟩
def BPM_Pp_MINFREE_F (i : Nat) : Fld := ⟨0x00300118 + i * 0x40, 0, 21⟩
def BPM_Pp_ALLOCS_COUNT (i : Nat) : Fld := ⟨0x0030011C + i * 0x40, 0, 32⟩
def BPM_Pp_EMPTY_DROPS_COUNT (i : Nat) : Fld := ⟨0x00300120 + i * 0x40, 0, 32⟩
def BPM_Pp_HOLDS_COUNT (i : Nat) : Fld := ⟨0x00300124 + i * 0x40, 0, 32⟩
def BPM_Pp_HOLD_TIMEOUTS_COUNT (i : Nat) : Fld := ⟨0x00300128 + i * 0x40, 0, 32⟩
def BPM_Pp_BAD_PTR_COUNT (i : Nat) : Fld := ⟨0x0030012C + i * 0x40, 0, 32⟩
def BPM_Qq_CFG_ENABLE (i : Nat) : Fld := ⟨0x00310000 + i * 0x20, 0, 1⟩
def BPM_Qq_CFG_ORDER_MODE (i : Nat) : Fld := ⟨0x00310000 + i * 0x20, 1, 1⟩
def BPM_Qq_CFG_KB3_COMPAT (i : Nat) : Fld := ⟨0x00310000 + i * 0x20, 2, 1⟩
def BPM_Qq_CFG_WIDTH (i : Nat) : Fld := ⟨0x00310000 + i * 0x20, 4, 2⟩
def BPM_Qq_DEPTH_WORDS (i : Nat) : Fld := ⟨0x00310004 + i * 0x20, 0, 16⟩
def BPM_Qq_PRIO_PRIO_THRESH (i : Nat) : Fld := ⟨0x00310008 + i * 0x20, 0, 16⟩
def BPM_Qq_PRIO_PRIO_HYST (i : Nat) : Fld := ⟨0x00310008 + i * 0x20, 16, 16⟩
def BPM_Qq_STAT_EMPTY (i : Nat) : Fld := ⟨0x0031000C + i * 0x20, 0, 1⟩
def BPM_Qq_STAT_FULL (i : Nat) : Fld := ⟨0x0031000C + i * 0x20, 1, 1⟩
def BPM_Qq_STAT_UNDERRUN (i : Nat) : Fld := ⟨0x0031000C + i * 0x20, 2, 1⟩
def BPM_Qq_STAT_OVERRUN (i : Nat) : Fld := ⟨0x0031000C + i * 0x20, 3, 1⟩
def BPM_Qq_STAT_PRIO_ACTIVE (i : Nat) : Fld := ⟨0x0031000C + i * 0x20, 4, 1⟩
def BPM_Qq_STAT_CMD_IGNORED (i : Nat) : Fld := ⟨0x0031000C + i * 0x20, 5, 1⟩
def BPM_Qq_STAT_CFG_IGNORED (i : Nat) : Fld := ⟨0x0031000C + i * 0x20, 6, 1⟩
def BPM_Qq_FILL_FILL (i : Nat) : Fld := ⟨0x00310010 + i * 0x20, 0, 16⟩
def BPM_Qq_FILL_PKTS (i : Nat) : Fld := ⟨0x00310010 + i * 0x20, 16, 16⟩
def BPM_Qq_CMD_DROP_REST (i : Nat) : Fld := ⟨0x00310014 + i * 0x20, 0, 1⟩
def BPM_Qq_CMD_FLUSH (i : Nat) : Fld := ⟨0x00310014 + i * 0x20, 1, 1⟩
def BPM_Qq_DROPS_BAD_REWOUND (i : Nat) : Fld := ⟨0x00310018 + i * 0x20, 0, 16⟩
def BPM_Qq_DROPS_OVERRUN_PKTS (i : Nat) : Fld := ⟨0x00310018 + i * 0x20, 16, 16⟩


/-- Register rows of EGS (part 1). -/
def rowsEGS0 : List RegRow := [
  ⟨0, 0, 16, .ro, .lit 1028, .any, 1, 0, 1, 0, 0, none, none⟩,
  ⟨0, 16, 8, .ro, .lit 16, .any, 1, 0, 1, 0, 0, none, none⟩,
  ⟨4, 0, 1, .rw, .lit 0, .any, 1, 0, 1, 0, 0, none, none⟩,
  ⟨4, 1, 1, .wo, .lit 0, .any, 1, 0, 1, 0, 0, none, none⟩,
  ⟨8, 0, 1, .w1c, .lit 0, .any, 1, 0, 1, 0, 0, none, none⟩,
  ⟨12, 0, 16, .ro, .lit 0, .any, 1, 0, 1, 0, 0, none, none⟩,
  ⟨16, 0, 6, .rwd, .lit 20, .any, 1, 0, 1, 0, 0, none, none⟩,
  ⟨20, 0, 16, .rwv, .lit 40000, .range 5000 40000, 1, 0, 1, 0, 0, none, none⟩,
  ⟨24, 0, 25, .rw, .lit 262144, .range 16384 16777216, 1, 0, 1, 0, 0, none, none⟩,
  ⟨32, 0, 16, .rw, .lit 0, .any, 1, 0, 1, 0, 0, none, none⟩,
  ⟨32, 16, 2, .rw, .lit 0, .any, 1, 0, 1, 0, 0, none, none⟩,
  ⟨36, 0, 1, .wo, .lit 0, .any, 1, 0, 1, 0, 0, none, none⟩,
  ⟨36, 1, 1, .wo, .lit 0, .any, 1, 0, 1, 0, 0, none, none⟩,
  ⟨40, 0, 1, .ro, .lit 0, .any, 1, 0, 1, 0, 0, none, none⟩,
  ⟨40, 1, 1, .w1c, .lit 0, .any, 1, 0, 1, 0, 0, none, none⟩,
  ⟨48, 0, 32, .rw, .lit 0, .any, 4, 4, 1, 0, 0, none, none⟩,
  ⟨4096, 0, 24, .rw, .byIndex [32768, 16384, 16384, 8192, 4096], .range 64 16777215, 8, 256, 5, 4, 4096, none, none⟩,
  ⟨4224, 0, 32, .ro, .lit 0, .any, 8, 256, 8, 8, 4096, none, none⟩,
  ⟨4228, 0, 32, .ro, .lit 0, .any, 8, 256, 8, 8, 4096, none, none⟩,
  ⟨32768, 0, 32, .ro, .lit 0, .any, 64, 128, 16, 4, 0, none, none⟩,
  ⟨32832, 0, 32, .ro, .lit 0, .any, 64, 128, 16, 4, 0, none, none⟩]

/-- The block EGS. -/
def blockEGS : RegBlock := ⟨0x00400000, 1, 0x0, some (4, 0), some (8, 0), rowsEGS0⟩

def EGS_ID_BLOCK : Fld := ⟨0x00400000, 0, 16⟩
def EGS_ID_REV : Fld := ⟨0x00400000, 16, 8⟩
def EGS_CTRL_ENABLE : Fld := ⟨0x00400004, 0, 1⟩
def EGS_CTRL_HIST_CLR : Fld := ⟨0x00400004, 1, 1⟩
def EGS_STATUS_CFG_IGNORED : Fld := ⟨0x00400008, 0, 1⟩
def EGS_VOTE_FIX_COUNT : Fld := ⟨0x0040000C, 0, 16⟩
def EGS_OVERHEAD_BYTES : Fld := ⟨0x00400010, 0, 6⟩
def EGS_AGE_MAX_NS : Fld := ⟨0x00400014, 0, 16⟩
def EGS_DQ_LIMIT_BYTES : Fld := ⟨0x00400018, 0, 25⟩
def EGS_IND_SEL_INDEX : Fld := ⟨0x00400020, 0, 16⟩
def EGS_IND_SEL_TARGET : Fld := ⟨0x00400020, 16, 2⟩
def EGS_IND_CMD_READ : Fld := ⟨0x00400024, 0, 1⟩
def EGS_IND_CMD_WRITE : Fld := ⟨0x00400024, 1, 1⟩
def EGS_IND_STAT_BUSY : Fld := ⟨0x00400028, 0, 1⟩
def EGS_IND_STAT_BAD_INDEX : Fld := ⟨0x00400028, 1, 1⟩
def EGS_IND_DATA_DATA (i : Nat) : Fld := ⟨0x00400030 + i * 0x4, 0, 32⟩
def EGS_Pn_QUANTUM_BYTES (i j : Nat) : Fld := ⟨0x00401000 + i * 0x100 + j * 0x4, 0, 24⟩
def EGS_Pn_Cc_DEPTH_BYTES (i j : Nat) : Fld := ⟨0x00401080 + i * 0x100 + j * 0x8, 0, 32⟩
def EGS_Pn_Cc_DELAY_NS (i j : Nat) : Fld := ⟨0x00401084 + i * 0x100 + j * 0x8, 0, 32⟩
def EGS_HIST_DEPTH_COUNT (i j : Nat) : Fld := ⟨0x00408000 + i * 0x80 + j * 0x4, 0, 32⟩
def EGS_HIST_DELAY_COUNT (i j : Nat) : Fld := ⟨0x00408040 + i * 0x80 + j * 0x4, 0, 32⟩

def C_EGS_Pn_AGE_DROP (i : Nat) : Nat := 0x00401020 + i * 0x100
def C_EGS_Pn_TAIL_DROP (i : Nat) : Nat := 0x00401028 + i * 0x100
def C_EGS_Pn_OVERSIZE_FOR_WINDOW (i : Nat) : Nat := 0x00401030 + i * 0x100
def C_EGS_Pn_POL_YELLOW (i : Nat) : Nat := 0x00401038 + i * 0x100
def C_EGS_Pn_POL_RED_DROP (i : Nat) : Nat := 0x00401040 + i * 0x100

/-- Register rows of TGC (part 1). -/
def rowsTGC0 : List RegRow := [
  ⟨0, 0, 1, .rw, .lit 0, .any, 1, 0, 1, 0, 0, none, none⟩,
  ⟨0, 1, 1, .wo, .lit 0, .any, 1, 0, 1, 0, 0, none, none⟩,
  ⟨4, 0, 2, .ro, .lit 0, .any, 1, 0, 1, 0, 0, none, none⟩,
  ⟨4, 2, 1, .w1c, .lit 0, .any, 1, 0, 1, 0, 0, none, none⟩,
  ⟨4, 3, 1, .w1c, .lit 0, .any, 1, 0, 1, 0, 0, none, none⟩,
  ⟨8, 0, 9, .rw, .lit 0, .any, 1, 0, 1, 0, 0, none, none⟩,
  ⟨12, 0, 30, .rw, .lit 1000000, .any, 1, 0, 1, 0, 0, none, none⟩,
  ⟨16, 0, 30, .rw, .lit 0, .any, 1, 0, 1, 0, 0, none, none⟩,
  ⟨20, 0, 32, .rw, .lit 0, .any, 1, 0, 1, 0, 0, none, none⟩,
  ⟨24, 0, 16, .rw, .lit 0, .any, 1, 0, 1, 0, 0, none, none⟩,
  ⟨32, 0, 9, .ro, .lit 0, .any, 1, 0, 1, 0, 0, none, none⟩,
  ⟨36, 0, 30, .ro, .lit 0, .any, 1, 0, 1, 0, 0, none, none⟩,
  ⟨40, 0, 8, .ro, .lit 0, .any, 1, 0, 1, 0, 0, none, none⟩,
  ⟨64, 0, 14, .rw, .lit 1522, .range 64 9216, 7, 4, 1, 0, 64, none, none⟩,
  ⟨96, 0, 32, .ro, .lit 0, .any, 7, 4, 1, 0, 96, none, none⟩,
  ⟨128, 0, 32, .ro, .lit 0, .any, 7, 4, 1, 0, 128, none, none⟩,
  ⟨4096, 0, 8, .rw, .lit 255, .any, 256, 8, 1, 0, 4096, none, none⟩,
  ⟨4100, 0, 30, .rw, .lit 1000, .any, 256, 8, 1, 0, 4100, none, none⟩,
  ⟨8192, 0, 8, .ro, .lit 0, .any, 256, 8, 1, 0, 8192, none, none⟩,
  ⟨8196, 0, 30, .ro, .lit 0, .any, 256, 8, 1, 0, 8192, none, none⟩]

/-- The block TGC. -/
def blockTGC : RegBlock := ⟨0x00480000, 8, 0x10000, some (0, 0), some (4, 2), rowsTGC0⟩

def TGC_CTRL_ENABLE (n : Nat) : Fld := ⟨0x00480000 + n * 0x10000, 0, 1⟩
def TGC_CTRL_ACTIVATE (n : Nat) : Fld := ⟨0x00480000 + n * 0x10000, 1, 1⟩
def TGC_STATUS_STATE (n : Nat) : Fld := ⟨0x00480004 + n * 0x10000, 0, 2⟩
def TGC_STATUS_CFG_IGNORED (n : Nat) : Fld := ⟨0x00480004 + n * 0x10000, 2, 1⟩
def TGC_STATUS_LIST_CHANGED (n : Nat) : Fld := ⟨0x00480004 + n * 0x10000, 3, 1⟩
def TGC_ADMIN_LEN_ENTRIES (n : Nat) : Fld := ⟨0x00480008 + n * 0x10000, 0, 9⟩
def TGC_ADMIN_CYCLE_NS (n : Nat) : Fld := ⟨0x0048000C + n * 0x10000, 0, 30⟩
def TGC_ADMIN_BASE_NS_NS (n : Nat) : Fld := ⟨0x00480010 + n * 0x10000, 0, 30⟩
def TGC_ADMIN_BASE_SEC_LO_SEC (n : Nat) : Fld := ⟨0x00480014 + n * 0x10000, 0, 32⟩
def TGC_ADMIN_BASE_SEC_HI_SEC (n : Nat) : Fld := ⟨0x00480018 + n * 0x10000, 0, 16⟩
def TGC_OPER_LEN_ENTRIES (n : Nat) : Fld := ⟨0x00480020 + n * 0x10000, 0, 9⟩
def TGC_OPER_CYCLE_NS (n : Nat) : Fld := ⟨0x00480024 + n * 0x10000, 0, 30⟩
def TGC_CUR_ENTRY_ENTRY (n : Nat) : Fld := ⟨0x00480028 + n * 0x10000, 0, 8⟩
def TGC_MAXFRAME_BYTES (n i : Nat) : Fld := ⟨0x00480040 + n * 0x10000 + i * 0x4, 0, 14⟩
def TGC_GUARD_NS (n i : Nat) : Fld := ⟨0x00480060 + n * 0x10000 + i * 0x4, 0, 32⟩
def TGC_WMAX_NS (n i : Nat) : Fld := ⟨0x00480080 + n * 0x10000 + i * 0x4, 0, 32⟩
def TGC_ADMIN_GATES_GATES (n i : Nat) : Fld := ⟨0x00481000 + n * 0x10000 + i * 0x8, 0, 8⟩
def TGC_ADMIN_INTV_NS (n i : Nat) : Fld := ⟨0x00481004 + n * 0x10000 + i * 0x8, 0, 30⟩
def TGC_OPER_GATES (n i : Nat) : Fld := ⟨0x00482000 + n * 0x10000 + i * 0x8, 0, 8⟩
def TGC_OPER_INTV (n i : Nat) : Fld := ⟨0x00482004 + n * 0x10000 + i * 0x8, 0, 30⟩


/-- Register rows of TIM (part 1). -/
def rowsTIM0 : List RegRow := [
  ⟨0, 0, 16, .ro, .lit 1285, .any, 1, 0, 1, 0, 0, none, none⟩,
  ⟨0, 16, 8, .ro, .lit 16, .any, 1, 0, 1, 0, 0, none, none⟩,
  ⟨4, 0, 1, .rwv, .lit 0, .any, 1, 0, 1, 0, 0, none, none⟩,
  ⟨4, 1, 1, .rwv, .lit 0, .any, 1, 0, 1, 0, 0, none, none⟩,
  ⟨4, 2, 1, .rw, .lit 0, .any, 1, 0, 1, 0, 0, none, none⟩,
  ⟨4, 3, 9, .rw, .lit 100, .range 1 500, 1, 0, 1, 0, 0, none, none⟩,
  ⟨8, 0, 1, .w1c, .lit 0, .any, 1, 0, 1, 0, 0, none, none⟩,
  ⟨8, 1, 1, .w1c, .lit 0, .any, 1, 0, 1, 0, 0, none, none⟩,
  ⟨8, 2, 1, .w1c, .lit 0, .any, 1, 0, 1, 0, 0, none, none⟩,
  ⟨8, 3, 2, .ro, .lit 0, .any, 1, 0, 1, 0, 0, none, none⟩,
  ⟨8, 5, 1, .w1c, .lit 0, .any, 1, 0, 1, 0, 0, none, none⟩,
  ⟨12, 0, 16, .ro, .lit 0, .any, 1, 0, 1, 0, 0, none, none⟩,
  ⟨16, 0, 30, .ro, .lit 0, .any, 1, 0, 1, 0, 0, none, none⟩,
  ⟨20, 0, 32, .ro, .lit 0, .any, 1, 0, 1, 0, 0, none, none⟩,
  ⟨24, 0, 16, .ro, .lit 0, .any, 1, 0, 1, 0, 0, none, none⟩,
  ⟨28, 0, 32, .rw, .lit 0, .special, 1, 0, 1, 0, 0, none, none⟩,
  ⟨32, 0, 32, .rw, .lit 0, .any, 1, 0, 1, 0, 0, none, none⟩,
  ⟨36, 0, 32, .rw, .lit 0, .any, 1, 0, 1, 0, 0, none, none⟩,
  ⟨40, 0, 16, .rw, .lit 0, .any, 1, 0, 1, 0, 0, none, none⟩,
  ⟨44, 0, 2, .wo, .lit 0, .any, 1, 0, 1, 0, 0, none, none⟩,
  ⟨48, 0, 30, .ro, .lit 0, .any, 1, 0, 1, 0, 0, none, none⟩,
  ⟨52, 0, 32, .ro, .lit 0, .any, 1, 0, 1, 0, 0, none, none⟩,
  ⟨56, 0, 16, .ro, .lit 0, .any, 1, 0, 1, 0, 0, none, none⟩,
  ⟨4096, 0, 16, .rw, .lit 0, .any, 8, 256, 1, 0, 4096, none, none⟩]

/-- Register rows of TIM (part 2). -/
def rowsTIM1 : List RegRow := [
  ⟨4100, 0, 16, .rw, .lit 0, .any, 8, 256, 1, 0, 4096, none, none⟩,
  ⟨4104, 0, 30, .ro, .lit 0, .any, 8, 256, 1, 0, 4096, none, none⟩,
  ⟨4108, 0, 32, .ro, .lit 0, .any, 8, 256, 1, 0, 4096, none, none⟩,
  ⟨4112, 0, 16, .ro, .lit 0, .any, 8, 256, 1, 0, 4096, none, none⟩,
  ⟨4116, 0, 16, .ro, .lit 0, .any, 8, 256, 1, 0, 4096, none, none⟩,
  ⟨4116, 16, 8, .ro, .lit 0, .any, 8, 256, 1, 0, 4096, none, none⟩,
  ⟨4116, 24, 4, .ro, .lit 0, .any, 8, 256, 1, 0, 4096, none, none⟩,
  ⟨4116, 31, 1, .ro, .lit 0, .any, 8, 256, 1, 0, 4096, none, none⟩,
  ⟨4120, 0, 32, .ro, .lit 0, .any, 8, 256, 1, 0, 4096, none, none⟩]

/-- The block TIM. -/
def blockTIM : RegBlock := ⟨0x00500000, 1, 0x0, none, some (8, 5), rowsTIM0 ++ rowsTIM1⟩

def TIM_ID_BLOCK : Fld := ⟨0x00500000, 0, 16⟩
def TIM_ID_REV : Fld := ⟨0x00500000, 16, 8⟩
def TIM_CTRL_TIME_VALID : Fld := ⟨0x00500004, 0, 1⟩
def TIM_CTRL_STEP_ALLOWED : Fld := ⟨0x00500004, 1, 1⟩
def TIM_CTRL_PPS_DIR : Fld := ⟨0x00500004, 2, 1⟩
def TIM_CTRL_PPS_WIDTH : Fld := ⟨0x00500004, 3, 9⟩
def TIM_STATUS_STEP_REFUSED : Fld := ⟨0x00500008, 0, 1⟩
def TIM_STATUS_SLEW_CLAMPED : Fld := ⟨0x00500008, 1, 1⟩
def TIM_STATUS_PPS_SEEN : Fld := ⟨0x00500008, 2, 1⟩
def TIM_STATUS_EPOCH : Fld := ⟨0x00500008, 3, 2⟩
def TIM_STATUS_CFG_IGNORED : Fld := ⟨0x00500008, 5, 1⟩
def TIM_VOTE_FIX_COUNT : Fld := ⟨0x0050000C, 0, 16⟩
def TIM_NS_NS : Fld := ⟨0x00500010, 0, 30⟩
def TIM_SEC_LO_SEC : Fld := ⟨0x00500014, 0, 32⟩
def TIM_SEC_HI_SEC : Fld := ⟨0x00500018, 0, 16⟩
def TIM_SLEW_PPB : Fld := ⟨0x0050001C, 0, 32⟩
def TIM_STEP_NS_VALUE : Fld := ⟨0x00500020, 0, 32⟩
def TIM_STEP_SEC_LO_SEC : Fld := ⟨0x00500024, 0, 32⟩
def TIM_STEP_SEC_HI_SEC : Fld := ⟨0x00500028, 0, 16⟩
def TIM_STEP_CMD_CMD : Fld := ⟨0x0050002C, 0, 2⟩
def TIM_PPS_CAPT_NS : Fld := ⟨0x00500030, 0, 30⟩
def TIM_PPS_CAPT_SEC_LO : Fld := ⟨0x00500034, 0, 32⟩
def TIM_PPS_CAPT_SEC_HI : Fld := ⟨0x00500038, 0, 16⟩
def TIM_Pn_RX_LAT_NS (i : Nat) : Fld := ⟨0x00501000 + i * 0x100, 0, 16⟩
def TIM_Pn_TX_LAT_NS (i : Nat) : Fld := ⟨0x00501004 + i * 0x100, 0, 16⟩
def TIM_Pn_TXTS_NS_NS (i : Nat) : Fld := ⟨0x00501008 + i * 0x100, 0, 30⟩
def TIM_Pn_TXTS_SEC_LO_SEC (i : Nat) : Fld := ⟨0x0050100C + i * 0x100, 0, 32⟩
def TIM_Pn_TXTS_SEC_HI_SEC (i : Nat) : Fld := ⟨0x00501010 + i * 0x100, 0, 16⟩
def TIM_Pn_TXTS_ID_SEQUENCE_ID (i : Nat) : Fld := ⟨0x00501014 + i * 0x100, 0, 16⟩
def TIM_Pn_TXTS_ID_DOMAIN (i : Nat) : Fld := ⟨0x00501014 + i * 0x100, 16, 8⟩
def TIM_Pn_TXTS_ID_MSG_TYPE (i : Nat) : Fld := ⟨0x00501014 + i * 0x100, 24, 4⟩
def TIM_Pn_TXTS_ID_VALID (i : Nat) : Fld := ⟨0x00501014 + i * 0x100, 31, 1⟩
def TIM_Pn_TXTS_OVF_COUNT (i : Nat) : Fld := ⟨0x00501018 + i * 0x100, 0, 32⟩


/-- Register rows of VDE (part 1). -/
def rowsVDE0 : List RegRow := [
  ⟨0, 0, 16, .ro, .lit 1799, .any, 1, 0, 1, 0, 0, none, none⟩,
  ⟨0, 16, 8, .ro, .lit 16, .any, 1, 0, 1, 0, 0, none, none⟩,
  ⟨4, 0, 1, .rw, .lit 0, .any, 1, 0, 1, 0, 0, none, none⟩,
  ⟨4, 1, 1, .wo, .lit 0, .any, 1, 0, 1, 0, 0, none, none⟩,
  ⟨8, 0, 1, .w1c, .lit 0, .any, 1, 0, 1, 0, 0, none, none⟩,
  ⟨8, 1, 1, .ro, .lit 0, .any, 1, 0, 1, 0, 0, none, none⟩,
  ⟨8, 2, 1, .ro, .lit 0, .any, 1, 0, 1, 0, 0, none, none⟩,
  ⟨8, 3, 1, .ro, .lit 0, .any, 1, 0, 1, 0, 0, none, none⟩,
  ⟨8, 4, 1, .w1c, .lit 0, .any, 1, 0, 1, 0, 0, none, none⟩,
  ⟨12, 0, 16, .ro, .lit 0, .any, 1, 0, 1, 0, 0, none, none⟩,
  ⟨16, 0, 3, .rwd, .lit 1, .range 1 4, 1, 0, 1, 0, 0, none, none⟩,
  ⟨20, 0, 1, .ro, .lit 1, .any, 1, 0, 1, 0, 0, none, none⟩,
  ⟨20, 1, 1, .ro, .lit 1, .any, 1, 0, 1, 0, 0, none, none⟩,
  ⟨20, 2, 1, .ro, .lit 1, .any, 1, 0, 1, 0, 0, none, none⟩,
  ⟨20, 3, 1, .ro, .lit 1, .any, 1, 0, 1, 0, 0, none, none⟩,
  ⟨20, 4, 1, .ro, .lit 1, .any, 1, 0, 1, 0, 0, none, none⟩,
  ⟨24, 0, 32, .ro, .lit 0, .any, 1, 0, 1, 0, 0, none, none⟩,
  ⟨28, 0, 32, .ro, .lit 0, .any, 1, 0, 1, 0, 0, none, none⟩,
  ⟨32, 0, 32, .ro, .lit 0, .any, 1, 0, 1, 0, 0, none, none⟩,
  ⟨36, 0, 32, .ro, .lit 0, .any, 1, 0, 1, 0, 0, none, none⟩,
  ⟨40, 0, 32, .ro, .lit 0, .any, 1, 0, 1, 0, 0, none, none⟩,
  ⟨44, 0, 32, .ro, .lit 0, .any, 1, 0, 1, 0, 0, none, none⟩]

/-- The block VDE. -/
def blockVDE : RegBlock := ⟨0x00800000, 16, 0x10000, some (4, 0), some (8, 0), rowsVDE0⟩

def VDE_ID_BLOCK (n : Nat) : Fld := ⟨0x00800000 + n * 0x10000, 0, 16⟩
def VDE_ID_REV (n : Nat) : Fld := ⟨0x00800000 + n * 0x10000, 16, 8⟩
def VDE_CTRL_ENABLE (n : Nat) : Fld := ⟨0x00800004 + n * 0x10000, 0, 1⟩
def VDE_CTRL_INJ_WD (n : Nat) : Fld := ⟨0x00800004 + n * 0x10000, 1, 1⟩
def VDE_STATUS_CFG_IGNORED (n : Nat) : Fld := ⟨0x00800008 + n * 0x10000, 0, 1⟩
def VDE_STATUS_BUSY (n : Nat) : Fld := ⟨0x00800008 + n * 0x10000, 1, 1⟩
def VDE_STATUS_LULL (n : Nat) : Fld := ⟨0x00800008 + n * 0x10000, 2, 1⟩
def VDE_STATUS_FENCED (n : Nat) : Fld := ⟨0x00800008 + n * 0x10000, 3, 1⟩
def VDE_STATUS_TRANSIENT (n : Nat) : Fld := ⟨0x00800008 + n * 0x10000, 4, 1⟩
def VDE_VOTE_FIX_COUNT (n : Nat) : Fld := ⟨0x0080000C + n * 0x10000, 0, 16⟩
def VDE_WD_SCALE_SCALE (n : Nat) : Fld := ⟨0x00800010 + n * 0x10000, 0, 3⟩
def VDE_CAPS_H264 (n : Nat) : Fld := ⟨0x00800014 + n * 0x10000, 0, 1⟩
def VDE_CAPS_H264_SVC (n : Nat) : Fld := ⟨0x00800014 + n * 0x10000, 1, 1⟩
def VDE_CAPS_H265 (n : Nat) : Fld := ⟨0x00800014 + n * 0x10000, 2, 1⟩
def VDE_CAPS_AV1 (n : Nat) : Fld := ⟨0x00800014 + n * 0x10000, 3, 1⟩
def VDE_CAPS_BIT10 (n : Nat) : Fld := ⟨0x00800014 + n * 0x10000, 4, 1⟩
def VDE_CUR_CTX_LO_ADDR (n : Nat) : Fld := ⟨0x00800018 + n * 0x10000, 0, 32⟩
def VDE_CUR_CTX_HI_ADDR (n : Nat) : Fld := ⟨0x0080001C + n * 0x10000, 0, 32⟩
def VDE_CUR_CYCLES_CYCLES (n : Nat) : Fld := ⟨0x00800020 + n * 0x10000, 0, 32⟩
def VDE_CUR_BUDGET_CYCLES (n : Nat) : Fld := ⟨0x00800024 + n * 0x10000, 0, 32⟩
def VDE_BOUNDS_LAST_LO_ADDR (n : Nat) : Fld := ⟨0x00800028 + n * 0x10000, 0, 32⟩
def VDE_BOUNDS_LAST_HI_ADDR (n : Nat) : Fld := ⟨0x0080002C + n * 0x10000, 0, 32⟩

def C_VDE_PICS (n : Nat) : Nat := 0x00800100 + n * 0x10000
def C_VDE_PIXELS (n : Nat) : Nat := 0x00800108 + n * 0x10000
def C_VDE_BUSY_CYCLES (n : Nat) : Nat := 0x00800110 + n * 0x10000
def C_VDE_ABANDONED (n : Nat) : Nat := 0x00800118 + n * 0x10000
def C_VDE_CONCEALED_PICS (n : Nat) : Nat := 0x00800120 + n * 0x10000
def C_VDE_CONCEALED_BLOCKS (n : Nat) : Nat := 0x00800128 + n * 0x10000
def C_VDE_STANDINS (n : Nat) : Nat := 0x00800130 + n * 0x10000
def C_VDE_WD_TRANSIENT (n : Nat) : Nat := 0x00800138 + n * 0x10000
def C_VDE_BOUNDS_BLOCKED (n : Nat) : Nat := 0x00800140 + n * 0x10000
def C_VDE_NOT_DECODED (n : Nat) : Nat := 0x00800148 + n * 0x10000

/-- Register rows of VEE (part 1). -/
def rowsVEE0 : List RegRow := [
  ⟨0, 0, 16, .ro, .lit 2056, .any, 1, 0, 1, 0, 0, none, none⟩,
  ⟨0, 16, 8, .ro, .lit 16, .any, 1, 0, 1, 0, 0, none, none⟩,
  ⟨4, 0, 1, .rw, .lit 0, .any, 1, 0, 1, 0, 0, none, none⟩,
  ⟨4, 1, 1, .wo, .lit 0, .any, 1, 0, 1, 0, 0, none, none⟩,
  ⟨8, 0, 1, .w1c, .lit 0, .any, 1, 0, 1, 0, 0, none, none⟩,
  ⟨8, 1, 1, .ro, .lit 0, .any, 1, 0, 1, 0, 0, none, none⟩,
  ⟨8, 2, 1, .ro, .lit 0, .any, 1, 0, 1, 0, 0, none, none⟩,
  ⟨8, 3, 1, .ro, .lit 0, .any, 1, 0, 1, 0, 0, none, none⟩,
  ⟨8, 4, 1, .w1c, .lit 0, .any, 1, 0, 1, 0, 0, none, none⟩,
  ⟨12, 0, 16, .ro, .lit 0, .any, 1, 0, 1, 0, 0, none, none⟩,
  ⟨16, 0, 3, .rwd, .lit 1, .range 1 4, 1, 0, 1, 0, 0, none, none⟩,
  ⟨20, 0, 1, .ro, .lit 1, .any, 1, 0, 1, 0, 0, none, none⟩,
  ⟨20, 2, 1, .ro, .lit 1, .any, 1, 0, 1, 0, 0, none, none⟩,
  ⟨20, 3, 1, .ro, .lit 1, .any, 1, 0, 1, 0, 0, none, none⟩,
  ⟨20, 4, 1, .ro, .lit 1, .any, 1, 0, 1, 0, 0, none, none⟩,
  ⟨24, 0, 32, .ro, .lit 0, .any, 1, 0, 1, 0, 0, none, none⟩,
  ⟨28, 0, 32, .ro, .lit 0, .any, 1, 0, 1, 0, 0, none, none⟩,
  ⟨32, 0, 32, .ro, .lit 0, .any, 1, 0, 1, 0, 0, none, none⟩,
  ⟨36, 0, 32, .ro, .lit 0, .any, 1, 0, 1, 0, 0, none, none⟩,
  ⟨40, 0, 32, .ro, .lit 0, .any, 1, 0, 1, 0, 0, none, none⟩,
  ⟨44, 0, 32, .ro, .lit 0, .any, 1, 0, 1, 0, 0, none, none⟩,
  ⟨48, 0, 2, .ro, .lit 0, .any, 1, 0, 1, 0, 0, none, none⟩]

/-- The block VEE. -/
def blockVEE : RegBlock := ⟨0x00900000, 16, 0x10000, some (4, 0), some (8, 0), rowsVEE0⟩

def VEE_ID_BLOCK (n : Nat) : Fld := ⟨0x00900000 + n * 0x10000, 0, 16⟩
def VEE_ID_REV (n : Nat) : Fld := ⟨0x00900000 + n * 0x10000, 16, 8⟩
def VEE_CTRL_ENABLE (n : Nat) : Fld := ⟨0x00900004 + n * 0x10000, 0, 1⟩
def VEE_CTRL_INJ_WD (n : Nat) : Fld := ⟨0x00900004 + n * 0x10000, 1, 1⟩
def VEE_STATUS_CFG_IGNORED (n : Nat) : Fld := ⟨0x00900008 + n * 0x10000, 0, 1⟩
def VEE_STATUS_BUSY (n : Nat) : Fld := ⟨0x00900008 + n * 0x10000, 1, 1⟩
def VEE_STATUS_LULL (n : Nat) : Fld := ⟨0x00900008 + n * 0x10000, 2, 1⟩
def VEE_STATUS_FENCED (n : Nat) : Fld := ⟨0x00900008 + n * 0x10000, 3, 1⟩
def VEE_STATUS_TRANSIENT (n : Nat) : Fld := ⟨0x00900008 + n * 0x10000, 4, 1⟩
def VEE_VOTE_FIX_COUNT (n : Nat) : Fld := ⟨0x0090000C + n * 0x10000, 0, 16⟩
def VEE_WD_SCALE_SCALE (n : Nat) : Fld := ⟨0x00900010 + n * 0x10000, 0, 3⟩
def VEE_CAPS_H264 (n : Nat) : Fld := ⟨0x00900014 + n * 0x10000, 0, 1⟩
def VEE_CAPS_H265 (n : Nat) : Fld := ⟨0x00900014 + n * 0x10000, 2, 1⟩
def VEE_CAPS_AV1 (n : Nat) : Fld := ⟨0x00900014 + n * 0x10000, 3, 1⟩
def VEE_CAPS_BIT10 (n : Nat) : Fld := ⟨0x00900014 + n * 0x10000, 4, 1⟩
def VEE_CUR_DESC_LO_ADDR (n : Nat) : Fld := ⟨0x00900018 + n * 0x10000, 0, 32⟩
def VEE_CUR_DESC_HI_ADDR (n : Nat) : Fld := ⟨0x0090001C + n * 0x10000, 0, 32⟩
def VEE_CUR_CYCLES_CYCLES (n : Nat) : Fld := ⟨0x00900020 + n * 0x10000, 0, 32⟩
def VEE_CUR_BUDGET_CYCLES (n : Nat) : Fld := ⟨0x00900024 + n * 0x10000, 0, 32⟩
def VEE_BOUNDS_LAST_LO_ADDR (n : Nat) : Fld := ⟨0x00900028 + n * 0x10000, 0, 32⟩
def VEE_BOUNDS_LAST_HI_ADDR (n : Nat) : Fld := ⟨0x0090002C + n * 0x10000, 0, 32⟩
def VEE_CUR_EFFORT_LEVEL (n : Nat) : Fld := ⟨0x00900030 + n * 0x10000, 0, 2⟩

def C_VEE_PICS (n : Nat) : Nat := 0x00900100 + n * 0x10000
def C_VEE_PIXELS (n : Nat) : Nat := 0x00900108 + n * 0x10000
def C_VEE_BUSY_CYCLES (n : Nat) : Nat := 0x00900110 + n * 0x10000
def C_VEE_INTRA_PICS (n : Nat) : Nat := 0x00900118 + n * 0x10000
def C_VEE_MAXQP_PICS (n : Nat) : Nat := 0x00900120 + n * 0x10000
def C_VEE_TRUNC_PICS (n : Nat) : Nat := 0x00900128 + n * 0x10000
def C_VEE_TRUNC_ROWS (n : Nat) : Nat := 0x00900130 + n * 0x10000
def C_VEE_NOT_CODED (n : Nat) : Nat := 0x00900138 + n * 0x10000
def C_VEE_STEPPED_PICS (n : Nat) : Nat := 0x00900140 + n * 0x10000
def C_VEE_WD_TRANSIENT (n : Nat) : Nat := 0x00900148 + n * 0x10000

/-- Register rows of CMP (part 1). -/
def rowsCMP0 : List RegRow := [
  ⟨0, 0, 16, .ro, .lit 2313, .any, 1, 0, 1, 0, 0, none, none⟩,
  ⟨0, 16, 8, .ro, .lit 16, .any, 1, 0, 1, 0, 0, none, none⟩,
  ⟨4, 0, 1, .rw, .lit 0, .any, 1, 0, 1, 0, 0, none, none⟩,
  ⟨4, 1, 1, .wo, .lit 0, .any, 1, 0, 1, 0, 0, none, none⟩,
  ⟨8, 0, 1, .w1c, .lit 0, .any, 1, 0, 1, 0, 0, none, none⟩,
  ⟨8, 1, 1, .ro, .lit 0, .any, 1, 0, 1, 0, 0, none, none⟩,
  ⟨8, 2, 1, .ro, .lit 0, .any, 1, 0, 1, 0, 0, none, none⟩,
  ⟨8, 3, 1, .ro, .lit 0, .any, 1, 0, 1, 0, 0, none, none⟩,
  ⟨8, 4, 1, .w1c, .lit 0, .any, 1, 0, 1, 0, 0, none, none⟩,
  ⟨12, 0, 16, .ro, .lit 0, .any, 1, 0, 1, 0, 0, none, none⟩,
  ⟨16, 0, 3, .rwd, .lit 1, .range 1 4, 1, 0, 1, 0, 0, none, none⟩,
  ⟨20, 0, 4, .ro, .lit 8, .any, 1, 0, 1, 0, 0, none, none⟩,
  ⟨20, 4, 1, .ro, .lit 1, .any, 1, 0, 1, 0, 0, none, none⟩,
  ⟨24, 0, 32, .ro, .lit 0, .any, 1, 0, 1, 0, 0, none, none⟩,
  ⟨28, 0, 32, .ro, .lit 0, .any, 1, 0, 1, 0, 0, none, none⟩,
  ⟨32, 0, 32, .ro, .lit 0, .any, 1, 0, 1, 0, 0, none, none⟩,
  ⟨36, 0, 32, .ro, .lit 0, .any, 1, 0, 1, 0, 0, none, none⟩,
  ⟨40, 0, 32, .ro, .lit 0, .any, 1, 0, 1, 0, 0, none, none⟩,
  ⟨44, 0, 32, .ro, .lit 0, .any, 1, 0, 1, 0, 0, none, none⟩]

/-- The block CMP. -/
def blockCMP : RegBlock := ⟨0x00A00000, 4, 0x10000, some (4, 0), some (8, 0), rowsCMP0⟩

def CMP_ID_BLOCK (n : Nat) : Fld := ⟨0x00A00000 + n * 0x10000, 0, 16⟩
def CMP_ID_REV (n : Nat) : Fld := ⟨0x00A00000 + n * 0x10000, 16, 8⟩
def CMP_CTRL_ENABLE (n : Nat) : Fld := ⟨0x00A00004 + n * 0x10000, 0, 1⟩
def CMP_CTRL_INJ_WD (n : Nat) : Fld := ⟨0x00A00004 + n * 0x10000, 1, 1⟩
def CMP_STATUS_CFG_IGNORED (n : Nat) : Fld := ⟨0x00A00008 + n * 0x10000, 0, 1⟩
def CMP_STATUS_BUSY (n : Nat) : Fld := ⟨0x00A00008 + n * 0x10000, 1, 1⟩
def CMP_STATUS_LULL (n : Nat) : Fld := ⟨0x00A00008 + n * 0x10000, 2, 1⟩
def CMP_STATUS_FENCED (n : Nat) : Fld := ⟨0x00A00008 + n * 0x10000, 3, 1⟩
def CMP_STATUS_TRANSIENT (n : Nat) : Fld := ⟨0x00A00008 + n * 0x10000, 4, 1⟩
def CMP_VOTE_FIX_COUNT (n : Nat) : Fld := ⟨0x00A0000C + n * 0x10000, 0, 16⟩
def CMP_WD_SCALE_SCALE (n : Nat) : Fld := ⟨0x00A00010 + n * 0x10000, 0, 3⟩
def CMP_CAPS_MAX_LAYERS (n : Nat) : Fld := ⟨0x00A00014 + n * 0x10000, 0, 4⟩
def CMP_CAPS_BIT10 (n : Nat) : Fld := ⟨0x00A00014 + n * 0x10000, 4, 1⟩
def CMP_CUR_DESC_LO_ADDR (n : Nat) : Fld := ⟨0x00A00018 + n * 0x10000, 0, 32⟩
def CMP_CUR_DESC_HI_ADDR (n : Nat) : Fld := ⟨0x00A0001C + n * 0x10000, 0, 32⟩
def CMP_CUR_CYCLES_CYCLES (n : Nat) : Fld := ⟨0x00A00020 + n * 0x10000, 0, 32⟩
def CMP_CUR_BUDGET_CYCLES (n : Nat) : Fld := ⟨0x00A00024 + n * 0x10000, 0, 32⟩
def CMP_BOUNDS_LAST_LO_ADDR (n : Nat) : Fld := ⟨0x00A00028 + n * 0x10000, 0, 32⟩
def CMP_BOUNDS_LAST_HI_ADDR (n : Nat) : Fld := ⟨0x00A0002C + n * 0x10000, 0, 32⟩

def C_CMP_PASSES (n : Nat) : Nat := 0x00A00100 + n * 0x10000
def C_CMP_PIXELS (n : Nat) : Nat := 0x00A00108 + n * 0x10000
def C_CMP_BUSY_CYCLES (n : Nat) : Nat := 0x00A00110 + n * 0x10000
def C_CMP_WAIT_CYCLES (n : Nat) : Nat := 0x00A00118 + n * 0x10000
def C_CMP_FILL_LAYERS (n : Nat) : Nat := 0x00A00120 + n * 0x10000
def C_CMP_WD_TRANSIENT (n : Nat) : Nat := 0x00A00128 + n * 0x10000
def C_CMP_BOUNDS_BLOCKED (n : Nat) : Nat := 0x00A00130 + n * 0x10000
def C_CMP_REFUSED (n : Nat) : Nat := 0x00A00138 + n * 0x10000

/-- Register rows of TSP (part 1). -/
def rowsTSP0 : List RegRow := [
  ⟨0, 0, 16, .ro, .lit 2570, .any, 1, 0, 1, 0, 0, none, none⟩,
  ⟨0, 16, 8, .ro, .lit 16, .any, 1, 0, 1, 0, 0, none, none⟩,
  ⟨4, 0, 1, .rw, .lit 0, .any, 1, 0, 1, 0, 0, none, none⟩,
  ⟨4, 1, 1, .wo, .lit 0, .any, 1, 0, 1, 0, 0, none, none⟩,
  ⟨8, 0, 1, .w1c, .lit 0, .any, 1, 0, 1, 0, 0, none, none⟩,
  ⟨8, 1, 1, .ro, .lit 0, .any, 1, 0, 1, 0, 0, none, none⟩,
  ⟨8, 2, 1, .ro, .lit 0, .any, 1, 0, 1, 0, 0, none, none⟩,
  ⟨8, 3, 1, .ro, .lit 0, .any, 1, 0, 1, 0, 0, none, none⟩,
  ⟨8, 4, 1, .w1c, .lit 0, .any, 1, 0, 1, 0, 0, none, none⟩,
  ⟨12, 0, 16, .ro, .lit 0, .any, 1, 0, 1, 0, 0, none, none⟩,
  ⟨16, 0, 3, .rwd, .lit 1, .range 1 4, 1, 0, 1, 0, 0, none, none⟩,
  ⟨20, 0, 1, .rwd, .lit 0, .any, 1, 0, 1, 0, 0, none, none⟩,
  ⟨24, 0, 32, .rwd, .lit 0, .any, 1, 0, 1, 0, 0, none, none⟩,
  ⟨28, 0, 4, .rwd, .lit 0, .any, 1, 0, 1, 0, 0, none, none⟩,
  ⟨32, 0, 32, .rwd, .lit 0, .any, 1, 0, 1, 0, 0, none, none⟩,
  ⟨36, 0, 4, .rwd, .lit 0, .any, 1, 0, 1, 0, 0, none, none⟩,
  ⟨40, 0, 32, .ro, .lit 0, .any, 1, 0, 1, 0, 0, none, none⟩,
  ⟨44, 0, 32, .ro, .lit 0, .any, 1, 0, 1, 0, 0, none, none⟩,
  ⟨48, 0, 32, .ro, .lit 0, .any, 1, 0, 1, 0, 0, none, none⟩,
  ⟨52, 0, 32, .ro, .lit 0, .any, 1, 0, 1, 0, 0, none, none⟩,
  ⟨56, 0, 32, .ro, .lit 0, .any, 1, 0, 1, 0, 0, none, none⟩,
  ⟨60, 0, 32, .ro, .lit 0, .any, 1, 0, 1, 0, 0, none, none⟩]

/-- The block TSP. -/
def blockTSP : RegBlock := ⟨0x00A80000, 1, 0x0, some (4, 0), some (8, 0), rowsTSP0⟩

def TSP_ID_BLOCK : Fld := ⟨0x00A80000, 0, 16⟩
def TSP_ID_REV : Fld := ⟨0x00A80000, 16, 8⟩
def TSP_CTRL_ENABLE : Fld := ⟨0x00A80004, 0, 1⟩
def TSP_CTRL_INJ_WD : Fld := ⟨0x00A80004, 1, 1⟩
def TSP_STATUS_CFG_IGNORED : Fld := ⟨0x00A80008, 0, 1⟩
def TSP_STATUS_BUSY : Fld := ⟨0x00A80008, 1, 1⟩
def TSP_STATUS_LULL : Fld := ⟨0x00A80008, 2, 1⟩
def TSP_STATUS_FENCED : Fld := ⟨0x00A80008, 3, 1⟩
def TSP_STATUS_TRANSIENT : Fld := ⟨0x00A80008, 4, 1⟩
def TSP_VOTE_FIX_COUNT : Fld := ⟨0x00A8000C, 0, 16⟩
def TSP_WD_SCALE_SCALE : Fld := ⟨0x00A80010, 0, 3⟩
def TSP_CADENCE_RATE : Fld := ⟨0x00A80014, 0, 1⟩
def TSP_TSET_BASE_LO_ADDR : Fld := ⟨0x00A80018, 0, 32⟩
def TSP_TSET_BASE_HI_ADDR : Fld := ⟨0x00A8001C, 0, 4⟩
def TSP_BG_BASE_LO_ADDR : Fld := ⟨0x00A80020, 0, 32⟩
def TSP_BG_BASE_HI_ADDR : Fld := ⟨0x00A80024, 0, 4⟩
def TSP_CUR_DESC_LO_ADDR : Fld := ⟨0x00A80028, 0, 32⟩
def TSP_CUR_DESC_HI_ADDR : Fld := ⟨0x00A8002C, 0, 32⟩
def TSP_CUR_CYCLES_CYCLES : Fld := ⟨0x00A80030, 0, 32⟩
def TSP_CUR_BUDGET_CYCLES : Fld := ⟨0x00A80034, 0, 32⟩
def TSP_BOUNDS_LAST_LO_ADDR : Fld := ⟨0x00A80038, 0, 32⟩
def TSP_BOUNDS_LAST_HI_ADDR : Fld := ⟨0x00A8003C, 0, 32⟩

def C_TSP_PICS : Nat := 0x00A80100
def C_TSP_IDR_PICS : Nat := 0x00A80108
def C_TSP_SLICES : Nat := 0x00A80110
def C_TSP_BYTES : Nat := 0x00A80118
def C_TSP_INTRA_SLOTS : Nat := 0x00A80120
def C_TSP_BG_SLOTS : Nat := 0x00A80128
def C_TSP_SKIP_CELLS : Nat := 0x00A80130
def C_TSP_WD_TRANSIENT : Nat := 0x00A80138
def C_TSP_BOUNDS_BLOCKED : Nat := 0x00A80140
def C_TSP_REFUSED : Nat := 0x00A80148

/-- Register rows of MXM (part 1). -/
def rowsMXM0 : List RegRow := [
  ⟨0, 0, 16, .ro, .lit 2827, .any, 1, 0, 1, 0, 0, none, none⟩,
  ⟨0, 16, 8, .ro, .lit 16, .any, 1, 0, 1, 0, 0, none, none⟩,
  ⟨4, 0, 1, .rw, .lit 0, .any, 1, 0, 1, 0, 0, none, none⟩,
  ⟨8, 0, 1, .w1c, .lit 0, .any, 1, 0, 1, 0, 0, none, none⟩,
  ⟨8, 1, 1, .w1c, .lit 0, .any, 1, 0, 1, 0, 0, none, none⟩,
  ⟨8, 2, 1, .ro, .lit 0, .any, 1, 0, 1, 0, 0, none, none⟩,
  ⟨8, 3, 1, .w1c, .lit 0, .any, 1, 0, 1, 0, 0, none, none⟩,
  ⟨12, 0, 16, .ro, .lit 0, .any, 1, 0, 1, 0, 0, none, none⟩,
  ⟨16, 0, 12, .rwv, .lit 240, .range 24 2400, 1, 0, 1, 0, 0, none, none⟩,
  ⟨20, 0, 13, .rwd, .lit 3000, .range 1000 5000, 1, 0, 1, 0, 0, none, none⟩,
  ⟨24, 0, 11, .rwd, .lit 0, .zeroOr 784 2047, 1, 0, 1, 0, 0, none, none⟩,
  ⟨32, 0, 32, .ro, .lit 0, .any, 1, 0, 1, 0, 0, none, none⟩,
  ⟨36, 0, 32, .ro, .lit 0, .any, 1, 0, 1, 0, 0, none, none⟩,
  ⟨48, 0, 1, .ro, .lit 0, .any, 1, 0, 1, 0, 0, none, none⟩,
  ⟨52, 0, 1, .wo, .lit 0, .any, 1, 0, 1, 0, 0, none, none⟩,
  ⟨64, 0, 12, .rw, .lit 0, .any, 1, 0, 1, 0, 0, none, none⟩,
  ⟨68, 0, 2, .wo, .lit 0, .any, 1, 0, 1, 0, 0, none, none⟩,
  ⟨72, 0, 1, .ro, .lit 0, .any, 1, 0, 1, 0, 0, none, none⟩,
  ⟨72, 1, 3, .ro, .lit 0, .any, 1, 0, 1, 0, 0, none, none⟩,
  ⟨72, 4, 1, .ro, .lit 0, .any, 1, 0, 1, 0, 0, none, none⟩,
  ⟨76, 0, 7, .wo, .lit 0, .any, 1, 0, 1, 0, 0, none, none⟩,
  ⟨76, 7, 1, .wo, .lit 0, .any, 1, 0, 1, 0, 0, none, none⟩,
  ⟨76, 16, 16, .wo, .lit 0, .any, 1, 0, 1, 0, 0, none, none⟩,
  ⟨80, 0, 32, .rw, .lit 0, .any, 1, 0, 1, 0, 0, none, none⟩]

/-- Register rows of MXM (part 2). -/
def rowsMXM1 : List RegRow := [
  ⟨84, 0, 9, .rw, .lit 0, .any, 1, 0, 1, 0, 0, none, none⟩,
  ⟨256, 0, 12, .rw, .lit 0, .any, 64, 4, 1, 0, 0, none, none⟩,
  ⟨1024, 0, 32, .rw, .lit 0, .any, 72, 4, 1, 0, 0, none, none⟩,
  ⟨32768, 0, 32, .rw, .lit 0, .special, 1536, 4, 1, 0, 32768, none, none⟩,
  ⟨40960, 0, 3, .rw, .lit 5, .range 0 5, 1536, 4, 1, 0, 40960, none, none⟩,
  ⟨40960, 3, 1, .rw, .lit 0, .any, 1536, 4, 1, 0, 40960, none, none⟩,
  ⟨40960, 4, 2, .ro, .lit 0, .any, 1536, 4, 1, 0, 40960, none, none⟩,
  ⟨40960, 16, 12, .ro, .lit 0, .any, 1536, 4, 1, 0, 40960, none, none⟩]

/-- The block MXM. -/
def blockMXM : RegBlock := ⟨0x00B00000, 1, 0x0, some (4, 0), some (8, 0), rowsMXM0 ++ rowsMXM1⟩

def MXM_ID_BLOCK : Fld := ⟨0x00B00000, 0, 16⟩
def MXM_ID_REV : Fld := ⟨0x00B00000, 16, 8⟩
def MXM_CTRL_ENABLE : Fld := ⟨0x00B00004, 0, 1⟩
def MXM_STATUS_CFG_IGNORED : Fld := ⟨0x00B00008, 0, 1⟩
def MXM_STATUS_CMD_IGNORED : Fld := ⟨0x00B00008, 1, 1⟩
def MXM_STATUS_FENCED : Fld := ⟨0x00B00008, 2, 1⟩
def MXM_STATUS_TRANSIENT : Fld := ⟨0x00B00008, 3, 1⟩
def MXM_VOTE_FIX_COUNT : Fld := ⟨0x00B0000C, 0, 16⟩
def MXM_ZC_TIMEOUT_SAMPLES : Fld := ⟨0x00B00010, 0, 12⟩
def MXM_MIX_PHASE_MICROSECONDS : Fld := ⟨0x00B00014, 0, 13⟩
def MXM_EVT_QUEUE_QUEUE : Fld := ⟨0x00B00018, 0, 11⟩
def MXM_FRAME_FRAME : Fld := ⟨0x00B00020, 0, 32⟩
def MXM_FRAME_TS_NS : Fld := ⟨0x00B00024, 0, 32⟩
def MXM_CLAIM_GRANTED : Fld := ⟨0x00B00030, 0, 1⟩
def MXM_RELEASE_RELEASE : Fld := ⟨0x00B00034, 0, 1⟩
def MXM_SET_SEL_BUS : Fld := ⟨0x00B00040, 0, 12⟩
def MXM_SET_CMD_OP : Fld := ⟨0x00B00044, 0, 2⟩
def MXM_CMD_RESULT_BUSY : Fld := ⟨0x00B00048, 0, 1⟩
def MXM_CMD_RESULT_RESULT : Fld := ⟨0x00B00048, 1, 3⟩
def MXM_CMD_RESULT_LATE : Fld := ⟨0x00B00048, 4, 1⟩
def MXM_SWAP_CMD_COUNT : Fld := ⟨0x00B0004C, 0, 7⟩
def MXM_SWAP_CMD_WHEN : Fld := ⟨0x00B0004C, 7, 1⟩
def MXM_SWAP_CMD_TAG : Fld := ⟨0x00B0004C, 16, 16⟩
def MXM_SWAP_FRAME_FRAME : Fld := ⟨0x00B00050, 0, 32⟩
def MXM_SWAP_OFFSET_SAMPLE : Fld := ⟨0x00B00054, 0, 9⟩
def MXM_SWAP_LIST_BUS (i : Nat) : Fld := ⟨0x00B00100 + i * 0x4, 0, 12⟩
def MXM_SET_DATA_DATA (i : Nat) : Fld := ⟨0x00B00400 + i * 0x4, 0, 32⟩
def MXM_SRC_TRIM_TRIM (i : Nat) : Fld := ⟨0x00B08000 + i * 0x4, 0, 32⟩
def MXM_SRC_CFG_IN_RATE (i : Nat) : Fld := ⟨0x00B0A000 + i * 0x4, 0, 3⟩
def MXM_SRC_CFG_EN (i : Nat) : Fld := ⟨0x00B0A000 + i * 0x4, 3, 1⟩
def MXM_SRC_CFG_STATE (i : Nat) : Fld := ⟨0x00B0A000 + i * 0x4, 4, 2⟩
def MXM_SRC_CFG_FILL (i : Nat) : Fld := ⟨0x00B0A000 + i * 0x4, 16, 12⟩

def C_MXM_FRAMES : Nat := 0x00B00200
def C_MXM_SWAPS : Nat := 0x00B00208
def C_MXM_SWAPS_LATE : Nat := 0x00B00210
def C_MXM_STEPS_TIMEOUT : Nat := 0x00B00218
def C_MXM_SRC_UNDERRUN : Nat := 0x00B00220
def C_MXM_SRC_OVERRUN : Nat := 0x00B00228
def C_MXM_SUM_SAT : Nat := 0x00B00230
def C_MXM_CLIP_SAMPLES : Nat := 0x00B00238
def C_MXM_PARENT_BAD : Nat := 0x00B00240
def C_MXM_EVT_DROP : Nat := 0x00B00248
def C_MXM_MIX_RETRIES : Nat := 0x00B00250

/-- Register rows of DSC (part 1). -/
def rowsDSC0 : List RegRow := [
  ⟨0, 0, 16, .ro, .lit 3084, .any, 1, 0, 1, 0, 0, none, none⟩,
  ⟨0, 16, 8, .ro, .lit 16, .any, 1, 0, 1, 0, 0, none, none⟩,
  ⟨4, 0, 1, .rw, .lit 0, .any, 1, 0, 1, 0, 0, none, none⟩,
  ⟨8, 0, 1, .w1c, .lit 0, .any, 1, 0, 1, 0, 0, none, none⟩,
  ⟨8, 1, 1, .ro, .lit 0, .any, 1, 0, 1, 0, 0, none, none⟩,
  ⟨8, 2, 1, .w1c, .lit 0, .any, 1, 0, 1, 0, 0, none, none⟩,
  ⟨12, 0, 16, .ro, .lit 0, .any, 1, 0, 1, 0, 0, none, none⟩,
  ⟨16, 0, 3, .rwd, .lit 1, .range 1 4, 1, 0, 1, 0, 0, none, none⟩,
  ⟨20, 0, 16, .rwm, .lit 0, .any, 1, 0, 1, 0, 0, none, none⟩,
  ⟨24, 0, 16, .ro, .lit 0, .any, 1, 0, 1, 0, 0, none, none⟩,
  ⟨28, 0, 16, .rw, .lit 0, .special, 1, 0, 1, 0, 0, none, none⟩,
  ⟨32, 0, 16, .wo, .lit 0, .any, 1, 0, 1, 0, 0, none, none⟩,
  ⟨4096, 0, 3, .ro, .lit 0, .any, 16, 256, 1, 0, 4096, none, none⟩,
  ⟨4096, 4, 4, .ro, .lit 0, .any, 16, 256, 1, 0, 4096, none, none⟩,
  ⟨4096, 8, 1, .ro, .lit 0, .any, 16, 256, 1, 0, 4096, none, none⟩,
  ⟨4100, 0, 13, .ro, .lit 0, .any, 16, 256, 1, 0, 4096, none, none⟩,
  ⟨4104, 0, 12, .ro, .lit 0, .any, 16, 256, 1, 0, 4096, none, none⟩,
  ⟨4104, 15, 1, .ro, .lit 0, .any, 16, 256, 1, 0, 4096, none, none⟩,
  ⟨4104, 24, 8, .ro, .lit 0, .any, 16, 256, 1, 0, 4096, none, none⟩,
  ⟨4108, 0, 4, .ro, .lit 0, .any, 16, 256, 1, 0, 4096, none, none⟩,
  ⟨4108, 16, 13, .ro, .lit 0, .any, 16, 256, 1, 0, 4096, none, none⟩,
  ⟨4112, 0, 32, .ro, .lit 0, .any, 16, 256, 1, 0, 4096, none, none⟩,
  ⟨4116, 0, 18, .rw, .lit 0, .any, 16, 256, 1, 0, 4096, none, none⟩,
  ⟨4120, 0, 1, .rw, .lit 0, .special, 16, 256, 1, 0, 4096, none, none⟩]

/-- Register rows of DSC (part 2). -/
def rowsDSC1 : List RegRow := [
  ⟨4120, 1, 1, .wo, .lit 0, .any, 16, 256, 1, 0, 4096, none, none⟩,
  ⟨4128, 0, 32, .rw, .lit 0, .any, 16, 256, 8, 4, 4096, none, none⟩,
  ⟨4160, 0, 32, .rw, .lit 0, .any, 16, 256, 8, 16, 4096, none, none⟩,
  ⟨4164, 0, 4, .rw, .lit 0, .any, 16, 256, 8, 16, 4096, none, none⟩,
  ⟨4168, 0, 20, .rw, .lit 0, .any, 16, 256, 8, 16, 4096, none, none⟩]

/-- The block DSC. -/
def blockDSC : RegBlock := ⟨0x00C00000, 8, 0x10000, some (4, 0), some (8, 0), rowsDSC0 ++ rowsDSC1⟩

def DSC_ID_BLOCK (n : Nat) : Fld := ⟨0x00C00000 + n * 0x10000, 0, 16⟩
def DSC_ID_REV (n : Nat) : Fld := ⟨0x00C00000 + n * 0x10000, 16, 8⟩
def DSC_CTRL_ENABLE (n : Nat) : Fld := ⟨0x00C00004 + n * 0x10000, 0, 1⟩
def DSC_STATUS_CFG_IGNORED (n : Nat) : Fld := ⟨0x00C00008 + n * 0x10000, 0, 1⟩
def DSC_STATUS_LULL (n : Nat) : Fld := ⟨0x00C00008 + n * 0x10000, 1, 1⟩
def DSC_STATUS_TRANSIENT (n : Nat) : Fld := ⟨0x00C00008 + n * 0x10000, 2, 1⟩
def DSC_VOTE_FIX_COUNT (n : Nat) : Fld := ⟨0x00C0000C + n * 0x10000, 0, 16⟩
def DSC_WD_SCALE_SCALE (n : Nat) : Fld := ⟨0x00C00010 + n * 0x10000, 0, 3⟩
def DSC_CORE_EN_EN (n : Nat) : Fld := ⟨0x00C00014 + n * 0x10000, 0, 16⟩
def DSC_FENCED_CORES (n : Nat) : Fld := ⟨0x00C00018 + n * 0x10000, 0, 16⟩
def DSC_IRQ_WAIT_MAX_CYCLES (n : Nat) : Fld := ⟨0x00C0001C + n * 0x10000, 0, 16⟩
def DSC_DOORBELL_RING (n : Nat) : Fld := ⟨0x00C00020 + n * 0x10000, 0, 16⟩
def CORE_STAT_STATE (n i : Nat) : Fld := ⟨0x00C01000 + n * 0x10000 + i * 0x100, 0, 3⟩
def CORE_STAT_LACT (n i : Nat) : Fld := ⟨0x00C01000 + n * 0x10000 + i * 0x100, 4, 4⟩
def CORE_STAT_IE (n i : Nat) : Fld := ⟨0x00C01000 + n * 0x10000 + i * 0x100, 8, 1⟩
def CORE_PC_PC (n i : Nat) : Fld := ⟨0x00C01004 + n * 0x10000 + i * 0x100, 0, 13⟩
def CORE_TASK_SLOT (n i : Nat) : Fld := ⟨0x00C01008 + n * 0x10000 + i * 0x100, 0, 12⟩
def CORE_TASK_VALID (n i : Nat) : Fld := ⟨0x00C01008 + n * 0x10000 + i * 0x100, 15, 1⟩
def CORE_TASK_KERNEL (n i : Nat) : Fld := ⟨0x00C01008 + n * 0x10000 + i * 0x100, 24, 8⟩
def CORE_KF_CAUSE_CAUSE (n i : Nat) : Fld := ⟨0x00C0100C + n * 0x10000 + i * 0x100, 0, 4⟩
def CORE_KF_CAUSE_PC (n i : Nat) : Fld := ⟨0x00C0100C + n * 0x10000 + i * 0x100, 16, 13⟩
def CORE_KF_ADDR_ADDR (n i : Nat) : Fld := ⟨0x00C01010 + n * 0x10000 + i * 0x100, 0, 32⟩
def CORE_SLIM_ADDR (n i : Nat) : Fld := ⟨0x00C01014 + n * 0x10000 + i * 0x100, 0, 18⟩
def CORE_DBG_HALT (n i : Nat) : Fld := ⟨0x00C01018 + n * 0x10000 + i * 0x100, 0, 1⟩
def CORE_DBG_STEP (n i : Nat) : Fld := ⟨0x00C01018 + n * 0x10000 + i * 0x100, 1, 1⟩
def CORE_KMASK_KERNELS (n i j : Nat) : Fld := ⟨0x00C01020 + n * 0x10000 + i * 0x100 + j * 0x4, 0, 32⟩
def CORE_WIN_BASE_LO_ADDR (n i j : Nat) : Fld := ⟨0x00C01040 + n * 0x10000 + i * 0x100 + j * 0x10, 0, 32⟩
def CORE_WIN_BASE_HI_ADDR (n i j : Nat) : Fld := ⟨0x00C01044 + n * 0x10000 + i * 0x100 + j * 0x10, 0, 4⟩
def CORE_WIN_SIZE_PAGES (n i j : Nat) : Fld := ⟨0x00C01048 + n * 0x10000 + i * 0x100 + j * 0x10, 0, 20⟩

def C_CORE_TASKS (n i : Nat) : Nat := 0x00C010C0 + n * 0x10000 + i * 0x100
def C_CORE_TASK_CYCLES (n i : Nat) : Nat := 0x00C010C8 + n * 0x10000 + i * 0x100
def C_CORE_KFAULTS (n i : Nat) : Nat := 0x00C010D0 + n * 0x10000 + i * 0x100
def C_CORE_WD_TRANSIENT (n i : Nat) : Nat := 0x00C010D8 + n * 0x10000 + i * 0x100

/-- Register rows of SDG (part 1). -/
def rowsSDG0 : List RegRow := [
  ⟨0, 0, 16, .ro, .lit 3341, .any, 1, 0, 1, 0, 0, none, none⟩,
  ⟨0, 16, 8, .ro, .lit 16, .any, 1, 0, 1, 0, 0, none, none⟩,
  ⟨4, 0, 1, .rw, .lit 0, .any, 1, 0, 1, 0, 0, none, none⟩,
  ⟨8, 0, 1, .w1c, .lit 0, .any, 1, 0, 1, 0, 0, none, none⟩,
  ⟨8, 1, 1, .ro, .lit 0, .any, 1, 0, 1, 0, 0, none, none⟩,
  ⟨8, 2, 1, .w1c, .lit 0, .any, 1, 0, 1, 0, 0, none, none⟩,
  ⟨12, 0, 16, .ro, .lit 0, .any, 1, 0, 1, 0, 0, none, none⟩,
  ⟨16, 0, 11, .rwd, .lit 0, .zeroOr 784 2047, 1, 0, 1, 0, 0, none, none⟩,
  ⟨20, 0, 8, .rwv, .lit 124, .range 80 160, 1, 0, 1, 0, 0, none, none⟩,
  ⟨24, 0, 8, .rwv, .lit 153, .range 64 255, 1, 0, 1, 0, 0, none, none⟩,
  ⟨28, 0, 5, .rw, .lit 6, .range 0 20, 1, 0, 1, 0, 0, none, none⟩,
  ⟨1024, 0, 24, .rwd, .byIndex [0, 16740674, 16701017, 16658364, 16612874, 16564742, 16514200, 16461519, 16407009, 16351017, 16293925, 16236155, 16178160, 16120426, 16063470, 16007839, 15954103, 15902855, 15854706, 15810285, 15770229, 15735185, 15705801, 15682724, 15666595, 15658044, 15657685, 15666109, 15683884, 15711547, 15749597, 15798495, 15858657, 15930448, 16014181, 16110111, 16218433, 16339277, 16472705, 16618711, 0, 170852, 353824, 548615, 754847, 972067, 1199748, 1437291, 1684025, 1939210, 2202041, 2471650, 2747111, 3027444, 3311621, 3598567, 3887172, 4176291, 4464753, 4751368, 5034933, 5314238, 5588075, 5855242, 6114552, 6364843, 6604980, 6833862, 7050434, 7253689, 7442675, 7616501, 7774344, 7915453, 8039152, 8144848, 8232032, 8300284, 8349273, 8378762, 8388607], .any, 81, 4, 1, 0, 1024, none, none⟩,
  ⟨4096, 0, 1, .rw, .lit 0, .any, 256, 16, 1, 0, 4096, none, none⟩,
  ⟨4096, 1, 5, .rw, .lit 0, .range 0 30, 256, 16, 1, 0, 4096, none, none⟩,
  ⟨4096, 8, 8, .rw, .lit 60, .range 40 80, 256, 16, 1, 0, 4096, none, none⟩,
  ⟨4096, 16, 2, .ro, .lit 0, .any, 256, 16, 1, 0, 4096, none, none⟩,
  ⟨4096, 18, 1, .w1c, .lit 0, .any, 256, 16, 1, 0, 4096, none, none⟩,
  ⟨4100, 0, 32, .rw, .lit 0, .any, 256, 16, 1, 0, 4096, none, none⟩,
  ⟨4104, 0, 32, .rw, .lit 0, .any, 256, 16, 1, 0, 4096, none, none⟩,
  ⟨4108, 0, 16, .rw, .lit 0, .any, 256, 16, 1, 0, 4096, none, none⟩,
  ⟨16384, 0, 11, .rw, .lit 0, .any, 1024, 16, 1, 0, 16384, none, none⟩,
  ⟨16384, 15, 1, .rw, .lit 0, .any, 1024, 16, 1, 0, 16384, none, none⟩,
  ⟨16388, 0, 8, .ro, .lit 140, .any, 1024, 16, 1, 0, 16384, none, none⟩,
  ⟨16388, 8, 7, .ro, .lit 60, .any, 1024, 16, 1, 0, 16384, none, none⟩]

/-- Register rows of SDG (part 2). -/
def rowsSDG1 : List RegRow := [
  ⟨16388, 16, 1, .ro, .lit 0, .any, 1024, 16, 1, 0, 16384, none, none⟩,
  ⟨16388, 17, 1, .ro, .lit 0, .any, 1024, 16, 1, 0, 16384, none, none⟩,
  ⟨16388, 18, 5, .ro, .lit 0, .any, 1024, 16, 1, 0, 16384, none, none⟩,
  ⟨16392, 0, 8, .ro, .lit 255, .any, 1024, 16, 1, 0, 16384, none, none⟩]

/-- The block SDG. -/
def blockSDG : RegBlock := ⟨0x00B80000, 1, 0x0, some (4, 0), some (8, 0), rowsSDG0 ++ rowsSDG1⟩

def SDG_ID_BLOCK : Fld := ⟨0x00B80000, 0, 16⟩
def SDG_ID_REV : Fld := ⟨0x00B80000, 16, 8⟩
def SDG_CTRL_ENABLE : Fld := ⟨0x00B80004, 0, 1⟩
def SDG_STATUS_CFG_IGNORED : Fld := ⟨0x00B80008, 0, 1⟩
def SDG_STATUS_FENCED : Fld := ⟨0x00B80008, 1, 1⟩
def SDG_STATUS_TRANSIENT : Fld := ⟨0x00B80008, 2, 1⟩
def SDG_VOTE_FIX_COUNT : Fld := ⟨0x00B8000C, 0, 16⟩
def SDG_EVT_QUEUE_QUEUE : Fld := ⟨0x00B80010, 0, 11⟩
def SDG_DET_THRESH_CODE : Fld := ⟨0x00B80014, 0, 8⟩
def SDG_QUAL_MIN_CODE : Fld := ⟨0x00B80018, 0, 8⟩
def SDG_FLOOR_MARGIN_DB : Fld := ⟨0x00B8001C, 0, 5⟩
def SDG_FIR_COEF (i : Nat) : Fld := ⟨0x00B80400 + i * 0x4, 0, 24⟩
def SDG_MOD_CTRL_EN (i : Nat) : Fld := ⟨0x00B81000 + i * 0x10, 0, 1⟩
def SDG_MOD_CTRL_SHIFT (i : Nat) : Fld := ⟨0x00B81000 + i * 0x10, 1, 5⟩
def SDG_MOD_CTRL_LEVEL (i : Nat) : Fld := ⟨0x00B81000 + i * 0x10, 8, 8⟩
def SDG_MOD_CTRL_STATE (i : Nat) : Fld := ⟨0x00B81000 + i * 0x10, 16, 2⟩
def SDG_MOD_CTRL_LATE (i : Nat) : Fld := ⟨0x00B81000 + i * 0x10, 18, 1⟩
def SDG_MOD_START_FRAME (i : Nat) : Fld := ⟨0x00B81004 + i * 0x10, 0, 32⟩
def SDG_MOD_TOKEN_LO_TOKEN (i : Nat) : Fld := ⟨0x00B81008 + i * 0x10, 0, 32⟩
def SDG_MOD_TOKEN_HI_TOKEN (i : Nat) : Fld := ⟨0x00B8100C + i * 0x10, 0, 16⟩
def SDG_DET_CFG_SRC (i : Nat) : Fld := ⟨0x00B84000 + i * 0x10, 0, 11⟩
def SDG_DET_CFG_EN (i : Nat) : Fld := ⟨0x00B84000 + i * 0x10, 15, 1⟩
def SDG_DET_STAT_FLOOR (i : Nat) : Fld := ⟨0x00B84004 + i * 0x10, 0, 8⟩
def SDG_DET_STAT_AGC (i : Nat) : Fld := ⟨0x00B84004 + i * 0x10, 8, 7⟩
def SDG_DET_STAT_GATE (i : Nat) : Fld := ⟨0x00B84004 + i * 0x10, 16, 1⟩
def SDG_DET_STAT_FROZEN (i : Nat) : Fld := ⟨0x00B84004 + i * 0x10, 17, 1⟩
def SDG_DET_STAT_LOCKED (i : Nat) : Fld := ⟨0x00B84004 + i * 0x10, 18, 5⟩
def SDG_DET_ENERGY_CODE (i : Nat) : Fld := ⟨0x00B84008 + i * 0x10, 0, 8⟩

def C_SDG_FRAMES_SENT : Nat := 0x00B80200
def C_SDG_ABORTED : Nat := 0x00B80208
def C_SDG_LOCKS : Nat := 0x00B80210
def C_SDG_DETECTS : Nat := 0x00B80218
def C_SDG_CRC_FAIL : Nat := 0x00B80220
def C_SDG_SYNC_MISS : Nat := 0x00B80228
def C_SDG_EVT_DROP : Nat := 0x00B80230

/-- Register rows of CPX (part 1). -/
def rowsCPX0 : List RegRow := [
  ⟨0, 0, 16, .ro, .lit 1542, .any, 1, 0, 1, 0, 0, none, none⟩,
  ⟨0, 16, 8, .ro, .lit 16, .any, 1, 0, 1, 0, 0, none, none⟩,
  ⟨4, 0, 1, .rw, .lit 0, .any, 1, 0, 1, 0, 0, none, none⟩,
  ⟨8, 0, 1, .w1c, .lit 0, .any, 1, 0, 1, 0, 0, none, none⟩,
  ⟨8, 1, 1, .w1c, .lit 0, .any, 1, 0, 1, 0, 0, none, none⟩,
  ⟨8, 2, 1, .ro, .lit 0, .any, 1, 0, 1, 0, 0, none, none⟩,
  ⟨8, 3, 1, .ro, .lit 0, .any, 1, 0, 1, 0, 0, none, none⟩,
  ⟨12, 0, 16, .ro, .lit 0, .any, 1, 0, 1, 0, 0, none, none⟩,
  ⟨16, 0, 2, .rwv, .lit 2, .special, 1, 0, 1, 0, 0, none, none⟩,
  ⟨20, 0, 6, .rwv, .lit 40, .range 16 47, 1, 0, 1, 0, 0, none, none⟩,
  ⟨24, 0, 24, .ro, .lit 0, .any, 1, 0, 1, 0, 0, none, none⟩,
  ⟨28, 0, 16, .rw, .lit 100, .any, 1, 0, 1, 0, 0, none, none⟩,
  ⟨32, 12, 20, .rwd, .lit 0, .any, 1, 0, 1, 0, 0, none, none⟩,
  ⟨36, 0, 4, .rwd, .lit 0, .any, 1, 0, 1, 0, 0, none, none⟩,
  ⟨40, 0, 11, .rwd, .lit 0, .zeroOr 784 2047, 1, 0, 1, 0, 0, none, none⟩,
  ⟨48, 0, 32, .ro, .lit 0, .any, 1, 0, 1, 0, 0, none, none⟩,
  ⟨64, 0, 1, .ro, .lit 0, .any, 1, 0, 1, 0, 0, none, none⟩,
  ⟨68, 0, 1, .wo, .lit 0, .any, 1, 0, 1, 0, 0, none, none⟩,
  ⟨72, 0, 4, .wo, .lit 0, .any, 1, 0, 1, 0, 0, none, none⟩,
  ⟨76, 0, 1, .ro, .lit 0, .any, 1, 0, 1, 0, 0, none, none⟩,
  ⟨76, 8, 8, .ro, .lit 0, .any, 1, 0, 1, 0, 0, none, none⟩,
  ⟨256, 0, 32, .rw, .lit 0, .any, 64, 4, 1, 0, 0, none, none⟩]

/-- The block CPX. -/
def blockCPX : RegBlock := ⟨0x00600000, 1, 0x0, some (4, 0), some (8, 0), rowsCPX0⟩

def CPX_ID_BLOCK : Fld := ⟨0x00600000, 0, 16⟩
def CPX_ID_REV : Fld := ⟨0x00600000, 16, 8⟩
def CPX_CTRL_ENABLE : Fld := ⟨0x00600004, 0, 1⟩
def CPX_STATUS_CFG_IGNORED : Fld := ⟨0x00600008, 0, 1⟩
def CPX_STATUS_TRANSIENT : Fld := ⟨0x00600008, 1, 1⟩
def CPX_STATUS_RNG_READY : Fld := ⟨0x00600008, 2, 1⟩
def CPX_STATUS_RNG_FAIL : Fld := ⟨0x00600008, 3, 1⟩
def CPX_VOTE_FIX_COUNT : Fld := ⟨0x0060000C, 0, 16⟩
def CPX_SCA_LEVEL_LEVEL : Fld := ⟨0x00600010, 0, 2⟩
def CPX_SOFT_EXP_EXP : Fld := ⟨0x00600014, 0, 6⟩
def CPX_FENCED_CORES : Fld := ⟨0x00600018, 0, 24⟩
def CPX_GRACE_MS_MS : Fld := ⟨0x0060001C, 0, 16⟩
def CPX_SCTX_BASE_LO_ADDR : Fld := ⟨0x00600020, 12, 20⟩
def CPX_SCTX_BASE_HI_ADDR : Fld := ⟨0x00600024, 0, 4⟩
def CPX_EVT_QUEUE_QUEUE : Fld := ⟨0x00600028, 0, 11⟩
def CPX_RNG_DATA_DATA : Fld := ⟨0x00600030, 0, 32⟩
def CPX_PKA_CLAIM_GRANTED : Fld := ⟨0x00600040, 0, 1⟩
def CPX_PKA_RELEASE_RELEASE : Fld := ⟨0x00600044, 0, 1⟩
def CPX_PKA_CMD_OP : Fld := ⟨0x00600048, 0, 4⟩
def CPX_PKA_RESULT_BUSY : Fld := ⟨0x0060004C, 0, 1⟩
def CPX_PKA_RESULT_STATUS : Fld := ⟨0x0060004C, 8, 8⟩
def CPX_PKA_DATA_DATA (i : Nat) : Fld := ⟨0x00600100 + i * 0x4, 0, 32⟩

def C_CPX_OPS : Nat := 0x00600400
def C_CPX_BYTES : Nat := 0x00600408
def C_CPX_CHECK_RETRIES : Nat := 0x00600410
def C_CPX_AUTH_FAIL : Nat := 0x00600418
def C_CPX_OLD_GEN_HITS : Nat := 0x00600420
def C_CPX_REPLAY : Nat := 0x00600428
def C_CPX_INDEX_USED : Nat := 0x00600430
def C_CPX_EXHAUSTED_REFUSALS : Nat := 0x00600438
def C_CPX_ZEROIZE_ABORTS : Nat := 0x00600440
def C_CPX_RNG_HEALTH_FAIL : Nat := 0x00600448
def C_CPX_EVT_DROP : Nat := 0x00600450
def C_CPX_Ck_OPS (i : Nat) : Nat := 0x00601000 + i * 0x100
def C_CPX_Ck_TRANSIENT (i : Nat) : Nat := 0x00601008 + i * 0x100

/-- Register rows of KSL (part 1). -/
def rowsKSL0 : List RegRow := [
  ⟨0, 0, 16, .ro, .lit 5638, .any, 1, 0, 1, 0, 0, none, none⟩,
  ⟨0, 16, 8, .ro, .lit 16, .any, 1, 0, 1, 0, 0, none, none⟩,
  ⟨8, 0, 1, .w1c, .lit 0, .any, 1, 0, 1, 0, 0, none, none⟩,
  ⟨8, 1, 1, .w1c, .lit 0, .any, 1, 0, 1, 0, 0, none, none⟩,
  ⟨12, 0, 16, .ro, .lit 0, .any, 1, 0, 1, 0, 0, none, none⟩,
  ⟨16, 0, 1, .ro, .lit 0, .any, 1, 0, 1, 0, 0, none, none⟩,
  ⟨20, 0, 1, .wo, .lit 0, .any, 1, 0, 1, 0, 0, none, none⟩,
  ⟨24, 0, 16, .rw, .lit 0, .any, 1, 0, 1, 0, 0, none, none⟩,
  ⟨28, 0, 4, .wo, .lit 0, .any, 1, 0, 1, 0, 0, none, none⟩,
  ⟨32, 0, 1, .ro, .lit 0, .any, 1, 0, 1, 0, 0, none, none⟩,
  ⟨32, 8, 8, .ro, .lit 0, .any, 1, 0, 1, 0, 0, none, none⟩,
  ⟨64, 0, 32, .wo, .lit 0, .any, 32, 4, 1, 0, 0, none, none⟩,
  ⟨256, 0, 3, .ro, .lit 0, .any, 1, 0, 1, 0, 0, none, none⟩,
  ⟨256, 3, 1, .ro, .lit 0, .any, 1, 0, 1, 0, 0, none, none⟩,
  ⟨256, 4, 1, .ro, .lit 0, .any, 1, 0, 1, 0, 0, none, none⟩,
  ⟨256, 8, 4, .ro, .lit 0, .any, 1, 0, 1, 0, 0, none, none⟩,
  ⟨256, 16, 16, .ro, .lit 0, .any, 1, 0, 1, 0, 0, none, none⟩,
  ⟨260, 0, 16, .ro, .lit 0, .any, 1, 0, 1, 0, 0, none, none⟩,
  ⟨264, 0, 32, .ro, .lit 0, .any, 1, 0, 1, 0, 0, none, none⟩,
  ⟨268, 0, 32, .ro, .lit 0, .any, 1, 0, 1, 0, 0, none, none⟩]

/-- The block KSL. -/
def blockKSL : RegBlock := ⟨0x00700000, 1, 0x0, none, some (8, 0), rowsKSL0⟩

def KSL_ID_BLOCK : Fld := ⟨0x00700000, 0, 16⟩
def KSL_ID_REV : Fld := ⟨0x00700000, 16, 8⟩
def KSL_STATUS_CFG_IGNORED : Fld := ⟨0x00700008, 0, 1⟩
def KSL_STATUS_CMD_IGNORED : Fld := ⟨0x00700008, 1, 1⟩
def KSL_VOTE_FIX_COUNT : Fld := ⟨0x0070000C, 0, 16⟩
def KSL_CLAIM_GRANTED : Fld := ⟨0x00700010, 0, 1⟩
def KSL_RELEASE_RELEASE : Fld := ⟨0x00700014, 0, 1⟩
def KSL_SEL_SLOT : Fld := ⟨0x00700018, 0, 16⟩
def KSL_CMD_OP : Fld := ⟨0x0070001C, 0, 4⟩
def KSL_RESULT_BUSY : Fld := ⟨0x00700020, 0, 1⟩
def KSL_RESULT_STATUS : Fld := ⟨0x00700020, 8, 8⟩
def KSL_DATA_DATA (i : Nat) : Fld := ⟨0x00700040 + i * 0x4, 0, 32⟩
def KSL_SLOT_STAT_STATE : Fld := ⟨0x00700100, 0, 3⟩
def KSL_SLOT_STAT_REKEY_REQ : Fld := ⟨0x00700100, 3, 1⟩
def KSL_SLOT_STAT_DECRYPT_ONLY : Fld := ⟨0x00700100, 4, 1⟩
def KSL_SLOT_STAT_SUITE : Fld := ⟨0x00700100, 8, 4⟩
def KSL_SLOT_STAT_GEN : Fld := ⟨0x00700100, 16, 16⟩
def KSL_SLOT_INFLIGHT_OPS : Fld := ⟨0x00700104, 0, 16⟩
def KSL_SLOT_COUNT_LO_COUNT : Fld := ⟨0x00700108, 0, 32⟩
def KSL_SLOT_COUNT_HI_COUNT : Fld := ⟨0x0070010C, 0, 32⟩


/-- Register rows of TRK (part 1). -/
def rowsTRK0 : List RegRow := [
  ⟨0, 0, 16, .ro, .lit 4369, .any, 1, 0, 1, 0, 0, none, none⟩,
  ⟨0, 16, 8, .ro, .lit 16, .any, 1, 0, 1, 0, 0, none, none⟩,
  ⟨4, 0, 1, .rw, .lit 0, .any, 1, 0, 1, 0, 0, none, none⟩,
  ⟨8, 0, 1, .w1c, .lit 0, .any, 1, 0, 1, 0, 0, none, none⟩,
  ⟨12, 0, 16, .ro, .lit 0, .any, 1, 0, 1, 0, 0, none, none⟩,
  ⟨16, 0, 8, .rwd, .lit 0, .any, 1, 0, 1, 0, 0, none, none⟩,
  ⟨20, 0, 32, .rwd, .lit 0, .any, 1, 0, 1, 0, 0, none, none⟩,
  ⟨24, 0, 1, .rwv, .lit 0, .special, 1, 0, 1, 0, 0, none, none⟩,
  ⟨28, 0, 10, .rw, .lit 20, .range 5 1000, 1, 0, 1, 0, 0, none, none⟩,
  ⟨32, 20, 12, .rwd, .lit 0, .any, 1, 0, 1, 0, 0, none, none⟩,
  ⟨36, 0, 4, .rwd, .lit 0, .any, 1, 0, 1, 0, 0, none, none⟩,
  ⟨40, 12, 20, .rwd, .lit 0, .any, 1, 0, 1, 0, 0, none, none⟩,
  ⟨44, 0, 4, .rwd, .lit 0, .any, 1, 0, 1, 0, 0, none, none⟩,
  ⟨48, 12, 20, .rwd, .lit 0, .any, 1, 0, 1, 0, 0, none, none⟩,
  ⟨52, 0, 4, .rwd, .lit 0, .any, 1, 0, 1, 0, 0, none, none⟩,
  ⟨56, 0, 11, .rwd, .lit 0, .zeroOr 784 2047, 1, 0, 1, 0, 0, none, none⟩,
  ⟨60, 0, 17, .rw, .lit 3600, .range 60 86400, 1, 0, 1, 0, 0, none, none⟩,
  ⟨4096, 0, 1, .rw, .lit 0, .any, 256, 64, 1, 0, 4096, some 0, none⟩,
  ⟨4096, 8, 8, .rwd, .lit 0, .any, 256, 64, 1, 0, 4096, some 0, none⟩,
  ⟨4100, 0, 3, .ro, .lit 0, .any, 256, 64, 1, 0, 4096, some 0, none⟩,
  ⟨4100, 3, 1, .ro, .lit 0, .any, 256, 64, 1, 0, 4096, some 0, none⟩,
  ⟨4100, 4, 1, .w1c, .lit 0, .any, 256, 64, 1, 0, 4096, some 0, none⟩,
  ⟨4100, 8, 3, .ro, .lit 0, .any, 256, 64, 1, 0, 4096, some 0, none⟩,
  ⟨4104, 0, 16, .rwd, .lit 0, .any, 256, 64, 1, 0, 4096, some 0, none⟩]

/-- Register rows of TRK (part 2). -/
def rowsTRK1 : List RegRow := [
  ⟨4104, 16, 9, .rwd, .lit 0, .range 0 256, 256, 64, 1, 0, 4096, some 0, none⟩,
  ⟨4108, 0, 16, .rwd, .lit 0, .any, 256, 64, 1, 0, 4096, some 0, none⟩,
  ⟨4108, 16, 16, .rwd, .lit 0, .any, 256, 64, 1, 0, 4096, some 0, none⟩,
  ⟨4112, 0, 24, .ro, .lit 0, .any, 256, 64, 1, 0, 4096, some 0, none⟩,
  ⟨4116, 0, 32, .ro, .lit 0, .any, 256, 64, 1, 0, 4096, some 0, none⟩]

/-- The block TRK. -/
def blockTRK : RegBlock := ⟨0x00E80000, 1, 0x0, some (4, 0), some (8, 0), rowsTRK0 ++ rowsTRK1⟩

def TRK_ID_BLOCK : Fld := ⟨0x00E80000, 0, 16⟩
def TRK_ID_REV : Fld := ⟨0x00E80000, 16, 8⟩
def TRK_CTRL_ENABLE : Fld := ⟨0x00E80004, 0, 1⟩
def TRK_STATUS_CFG_IGNORED : Fld := ⟨0x00E80008, 0, 1⟩
def TRK_VOTE_FIX_COUNT : Fld := ⟨0x00E8000C, 0, 16⟩
def TRK_MODULE_INDEX : Fld := ⟨0x00E80010, 0, 8⟩
def TRK_CASCADE_ID_ID : Fld := ⟨0x00E80014, 0, 32⟩
def TRK_SUITE_GCM128 : Fld := ⟨0x00E80018, 0, 1⟩
def TRK_RTO_MIN_MS : Fld := ⟨0x00E8001C, 0, 10⟩
def TRK_WIN_BASE_LO_ADDR : Fld := ⟨0x00E80020, 20, 12⟩
def TRK_WIN_BASE_HI_ADDR : Fld := ⟨0x00E80024, 0, 4⟩
def TRK_CMAP_BASE_LO_ADDR : Fld := ⟨0x00E80028, 12, 20⟩
def TRK_CMAP_BASE_HI_ADDR : Fld := ⟨0x00E8002C, 0, 4⟩
def TRK_HDR_BASE_LO_ADDR : Fld := ⟨0x00E80030, 12, 20⟩
def TRK_HDR_BASE_HI_ADDR : Fld := ⟨0x00E80034, 0, 4⟩
def TRK_EVT_QUEUE_QUEUE : Fld := ⟨0x00E80038, 0, 11⟩
def TRK_REKEY_S_SECONDS : Fld := ⟨0x00E8003C, 0, 17⟩
def TRK_Tt_CTRL_EN (i : Nat) : Fld := ⟨0x00E81000 + i * 0x40, 0, 1⟩
def TRK_Tt_CTRL_PEER (i : Nat) : Fld := ⟨0x00E81000 + i * 0x40, 8, 8⟩
def TRK_Tt_STAT_STATE (i : Nat) : Fld := ⟨0x00E81004 + i * 0x40, 0, 3⟩
def TRK_Tt_STAT_KEY_PHASE (i : Nat) : Fld := ⟨0x00E81004 + i * 0x40, 3, 1⟩
def TRK_Tt_STAT_STATE_CHANGE (i : Nat) : Fld := ⟨0x00E81004 + i * 0x40, 4, 1⟩
def TRK_Tt_STAT_MISSES (i : Nat) : Fld := ⟨0x00E81004 + i * 0x40, 8, 3⟩
def TRK_Tt_WIN_WIN_OFS (i : Nat) : Fld := ⟨0x00E81008 + i * 0x40, 0, 16⟩
def TRK_Tt_WIN_WIN_MIB (i : Nat) : Fld := ⟨0x00E81008 + i * 0x40, 16, 9⟩
def TRK_Tt_SLOTS_SEND (i : Nat) : Fld := ⟨0x00E8100C + i * 0x40, 0, 16⟩
def TRK_Tt_SLOTS_RECV (i : Nat) : Fld := ⟨0x00E8100C + i * 0x40, 16, 16⟩
def TRK_Tt_SRTT_MICROSECONDS (i : Nat) : Fld := ⟨0x00E81010 + i * 0x40, 0, 24⟩
def TRK_Tt_CREDIT_BYTES (i : Nat) : Fld := ⟨0x00E81014 + i * 0x40, 0, 32⟩

def C_TRK_Tt_TX_FRAMES (i : Nat) : Nat := 0x00E88000 + i * 0x80
def C_TRK_Tt_RX_FRAMES (i : Nat) : Nat := 0x00E88008 + i * 0x80
def C_TRK_Tt_RETX (i : Nat) : Nat := 0x00E88010 + i * 0x80
def C_TRK_Tt_AUTH_DROP (i : Nat) : Nat := 0x00E88018 + i * 0x80
def C_TRK_Tt_REPLAY_DROP (i : Nat) : Nat := 0x00E88020 + i * 0x80
def C_TRK_Tt_BAD_FRAME (i : Nat) : Nat := 0x00E88028 + i * 0x80
def C_TRK_Tt_CMAP_MISS (i : Nat) : Nat := 0x00E88030 + i * 0x80
def C_TRK_Tt_CREDIT_STALLS (i : Nat) : Nat := 0x00E88038 + i * 0x80
def C_TRK_Tt_HB_MISSED (i : Nat) : Nat := 0x00E88040 + i * 0x80
def C_TRK_Tt_DOWN_EVENTS (i : Nat) : Nat := 0x00E88048 + i * 0x80
def C_TRK_Tt_HS_FAIL (i : Nat) : Nat := 0x00E88050 + i * 0x80
def C_TRK_EVT_DROP : Nat := 0x00E80100

/-- Register rows of HTS (part 1). -/
def rowsHTS0 : List RegRow := [
  ⟨0, 0, 16, .ro, .lit 3598, .any, 1, 0, 1, 0, 0, none, none⟩,
  ⟨0, 16, 8, .ro, .lit 16, .any, 1, 0, 1, 0, 0, none, none⟩,
  ⟨4, 0, 1, .rw, .lit 0, .any, 1, 0, 1, 0, 0, none, none⟩,
  ⟨8, 0, 1, .w1c, .lit 0, .any, 1, 0, 1, 0, 0, none, none⟩,
  ⟨8, 1, 1, .w1c, .lit 0, .any, 1, 0, 1, 0, 0, none, none⟩,
  ⟨12, 0, 16, .ro, .lit 0, .any, 1, 0, 1, 0, 0, none, none⟩,
  ⟨16, 0, 12, .rwv, .lit 256, .range 0 2048, 1, 0, 1, 0, 0, none, none⟩,
  ⟨20, 0, 16, .rw, .lit 8176, .any, 1, 0, 1, 0, 0, none, none⟩,
  ⟨24, 12, 20, .rwd, .lit 0, .any, 1, 0, 1, 0, 0, none, none⟩,
  ⟨28, 0, 4, .rwd, .lit 0, .any, 1, 0, 1, 0, 0, none, none⟩,
  ⟨32, 0, 16, .ro, .lit 0, .any, 1, 0, 1, 0, 0, none, none⟩,
  ⟨36, 0, 13, .ro, .lit 0, .any, 1, 0, 1, 0, 0, none, none⟩,
  ⟨40, 0, 13, .rw, .lit 0, .special, 1, 0, 1, 0, 0, none, none⟩,
  ⟨64, 0, 13, .ro, .lit 0, .any, 64, 4, 1, 0, 64, none, none⟩]

/-- The block HTS. -/
def blockHTS : RegBlock := ⟨0x00D00000, 1, 0x0, some (4, 0), some (8, 0), rowsHTS0⟩

def HTS_ID_BLOCK : Fld := ⟨0x00D00000, 0, 16⟩
def HTS_ID_REV : Fld := ⟨0x00D00000, 16, 8⟩
def HTS_CTRL_ENABLE : Fld := ⟨0x00D00004, 0, 1⟩
def HTS_STATUS_CFG_IGNORED : Fld := ⟨0x00D00008, 0, 1⟩
def HTS_STATUS_TRACE_WRAP : Fld := ⟨0x00D00008, 1, 1⟩
def HTS_VOTE_FIX_COUNT : Fld := ⟨0x00D0000C, 0, 16⟩
def HTS_RESV_SLOTS : Fld := ⟨0x00D00010, 0, 12⟩
def HTS_TRACE_MASK_REASONS : Fld := ⟨0x00D00014, 0, 16⟩
def HTS_TRACE_BASE_LO_ADDR : Fld := ⟨0x00D00018, 12, 20⟩
def HTS_TRACE_BASE_HI_ADDR : Fld := ⟨0x00D0001C, 0, 4⟩
def HTS_TRACE_WP_ENTRY : Fld := ⟨0x00D00020, 0, 16⟩
def HTS_SLOTS_USED_SLOTS : Fld := ⟨0x00D00024, 0, 13⟩
def HTS_SLOTS_MAX_SLOTS : Fld := ⟨0x00D00028, 0, 13⟩
def HTS_READY_TASKS (i : Nat) : Fld := ⟨0x00D00040 + i * 0x4, 0, 13⟩

def C_HTS_CREATED : Nat := 0x00D00200
def C_HTS_COMPLETED : Nat := 0x00D00208
def C_HTS_CANCELLED : Nat := 0x00D00210
def C_HTS_SKIPPED : Nat := 0x00D00218
def C_HTS_STEPPED : Nat := 0x00D00220
def C_HTS_DEFERRED : Nat := 0x00D00228
def C_HTS_LATE_START : Nat := 0x00D00230
def C_HTS_LATE_DONE : Nat := 0x00D00238
def C_HTS_REDISPATCH : Nat := 0x00D00240
def C_HTS_FULL_REFUSED : Nat := 0x00D00248
def C_HTS_CQ_DROP : Nat := 0x00D00250
def C_HTS_TRACE_LOST : Nat := 0x00D00258
def C_HTS_KERNEL_FAULTS : Nat := 0x00D00260

/-- Register rows of UPD (part 1). -/
def rowsUPD0 : List RegRow := [
  ⟨0, 0, 16, .ro, .lit 3855, .any, 1, 0, 1, 0, 0, none, none⟩,
  ⟨0, 16, 8, .ro, .lit 16, .any, 1, 0, 1, 0, 0, none, none⟩,
  ⟨4, 0, 1, .rwv, .lit 1, .any, 1, 0, 1, 0, 0, none, none⟩,
  ⟨4, 1, 1, .rw, .lit 1, .any, 1, 0, 1, 0, 0, none, none⟩,
  ⟨4, 2, 1, .rw, .lit 0, .any, 1, 0, 1, 0, 0, none, none⟩,
  ⟨8, 0, 1, .w1c, .lit 0, .any, 1, 0, 1, 0, 0, none, none⟩,
  ⟨8, 1, 1, .ro, .lit 1, .any, 1, 0, 1, 0, 0, none, none⟩,
  ⟨8, 2, 2, .ro, .lit 0, .any, 1, 0, 1, 0, 0, none, none⟩,
  ⟨8, 4, 1, .w1c, .lit 0, .any, 1, 0, 1, 0, 0, none, none⟩,
  ⟨8, 5, 1, .w1c, .lit 0, .any, 1, 0, 1, 0, 0, none, none⟩,
  ⟨12, 0, 16, .ro, .lit 0, .any, 1, 0, 1, 0, 0, none, none⟩,
  ⟨16, 0, 8, .rwv, .lit 240, .range 90 240, 1, 0, 1, 0, 0, none, none⟩,
  ⟨20, 0, 8, .rwv, .lit 95, .special, 1, 0, 1, 0, 0, none, none⟩,
  ⟨24, 0, 8, .rwv, .lit 102, .special, 1, 0, 1, 0, 0, none, none⟩,
  ⟨28, 0, 8, .ro, .lit 112, .any, 1, 0, 1, 0, 0, none, none⟩,
  ⟨32, 0, 8, .ro, .lit 0, .any, 1, 0, 1, 0, 0, none, none⟩,
  ⟨32, 8, 8, .ro, .lit 0, .any, 1, 0, 1, 0, 0, none, none⟩,
  ⟨36, 0, 3, .ro, .lit 0, .any, 1, 0, 1, 0, 0, none, none⟩,
  ⟨36, 4, 3, .rw, .lit 0, .range 0 4, 1, 0, 1, 0, 0, none, none⟩,
  ⟨40, 0, 10, .rw, .lit 40, .range 1 1000, 1, 0, 1, 0, 0, none, none⟩,
  ⟨44, 0, 14, .rw, .lit 200, .zeroOr 20 16383, 1, 0, 1, 0, 0, none, none⟩,
  ⟨48, 0, 24, .ro, .lit 0, .any, 1, 0, 1, 0, 0, none, none⟩,
  ⟨52, 0, 24, .ro, .lit 0, .any, 1, 0, 1, 0, 0, none, none⟩,
  ⟨56, 0, 20, .ro, .lit 0, .any, 1, 0, 1, 0, 0, none, none⟩]

/-- Register rows of UPD (part 2). -/
def rowsUPD1 : List RegRow := [
  ⟨60, 0, 32, .ro, .lit 0, .any, 1, 0, 1, 0, 0, none, none⟩,
  ⟨256, 0, 24, .ro, .byIndex [2000000, 0, 45, 40, 45, 1000, 1200, 1400, 400, 2400, 2600, 3000, 2600, 20, 0, 0], .any, 16, 8, 1, 0, 256, none, none⟩,
  ⟨260, 0, 24, .ro, .byIndex [2000000, 0, 45, 40, 45, 1000, 1200, 1400, 400, 2400, 2600, 3000, 2600, 20, 0, 0], .any, 16, 8, 1, 0, 260, none, none⟩,
  ⟨512, 0, 8, .ro, .lit 0, .any, 40, 4, 1, 0, 512, none, none⟩,
  ⟨64, 0, 16, .ro, .lit 0, .any, 1, 0, 1, 0, 0, none, none⟩,
  ⟨64, 16, 1, .w1c, .lit 0, .any, 1, 0, 1, 0, 0, none, none⟩,
  ⟨64, 17, 1, .ro, .lit 0, .any, 1, 0, 1, 0, 0, none, none⟩,
  ⟨768, 0, 16, .ro, .lit 0, .any, 8, 16, 1, 0, 768, none, none⟩,
  ⟨772, 0, 20, .ro, .lit 0, .any, 8, 16, 1, 0, 768, none, none⟩,
  ⟨776, 0, 20, .rw, .lit 0, .special, 8, 16, 1, 0, 768, none, none⟩,
  ⟨780, 0, 20, .ro, .byIndex [210000, 32000, 2000, 26000, 18000, 6000, 6000, 200], .any, 8, 16, 1, 0, 768, none, none⟩]

/-- The block UPD. -/
def blockUPD : RegBlock := ⟨0x00D80000, 1, 0x0, some (4, 0), some (8, 0), rowsUPD0 ++ rowsUPD1⟩

def UPD_ID_BLOCK : Fld := ⟨0x00D80000, 0, 16⟩
def UPD_ID_REV : Fld := ⟨0x00D80000, 16, 8⟩
def UPD_CTRL_ENABLE : Fld := ⟨0x00D80004, 0, 1⟩
def UPD_CTRL_LEARN : Fld := ⟨0x00D80004, 1, 1⟩
def UPD_CTRL_STANDBY : Fld := ⟨0x00D80004, 2, 1⟩
def UPD_STATUS_CFG_IGNORED : Fld := ⟨0x00D80008, 0, 1⟩
def UPD_STATUS_AWAKE : Fld := ⟨0x00D80008, 1, 1⟩
def UPD_STATUS_THERMAL : Fld := ⟨0x00D80008, 2, 2⟩
def UPD_STATUS_CAP_EXCEEDED : Fld := ⟨0x00D80008, 4, 1⟩
def UPD_STATUS_LEARN_CLAMP : Fld := ⟨0x00D80008, 5, 1⟩
def UPD_VOTE_FIX_COUNT : Fld := ⟨0x00D8000C, 0, 16⟩
def UPD_CAP_WATTS : Fld := ⟨0x00D80010, 0, 8⟩
def UPD_T_WARN_CELSIUS : Fld := ⟨0x00D80014, 0, 8⟩
def UPD_T_SHED_CELSIUS : Fld := ⟨0x00D80018, 0, 8⟩
def UPD_T_TRIP_CELSIUS : Fld := ⟨0x00D8001C, 0, 8⟩
def UPD_TJ_CELSIUS : Fld := ⟨0x00D80020, 0, 8⟩
def UPD_TJ_SENSOR : Fld := ⟨0x00D80020, 8, 8⟩
def UPD_SHED_LEVEL : Fld := ⟨0x00D80024, 0, 3⟩
def UPD_SHED_FLOOR : Fld := ⟨0x00D80024, 4, 3⟩
def UPD_SHED_HOLD_WINDOWS : Fld := ⟨0x00D80028, 0, 10⟩
def UPD_LULL_IDLE_MICROSECONDS : Fld := ⟨0x00D8002C, 0, 14⟩
def UPD_BUDGET_MICROJOULES : Fld := ⟨0x00D80030, 0, 24⟩
def UPD_COMMIT_MICROJOULES : Fld := ⟨0x00D80034, 0, 24⟩
def UPD_PKG_POWER_MILLIWATTS : Fld := ⟨0x00D80038, 0, 20⟩
def UPD_WINDOW_COUNT : Fld := ⟨0x00D8003C, 0, 32⟩
def UPD_EC_COST_PJ (i : Nat) : Fld := ⟨0x00D80100 + i * 0x8, 0, 24⟩
def UPD_EC_FUSED_PJ (i : Nat) : Fld := ⟨0x00D80104 + i * 0x8, 0, 24⟩
def UPD_TS_CELSIUS (i : Nat) : Fld := ⟨0x00D80200 + i * 0x4, 0, 8⟩
def UPD_VIN_MILLIVOLTS : Fld := ⟨0x00D80040, 0, 16⟩
def UPD_VIN_VIN_LOW : Fld := ⟨0x00D80040, 16, 1⟩
def UPD_VIN_TELEMETRY_FENCED : Fld := ⟨0x00D80040, 17, 1⟩
def UPD_RAIL_V_MILLIVOLTS (i : Nat) : Fld := ⟨0x00D80300 + i * 0x10, 0, 16⟩
def UPD_RAIL_I_MILLIAMPS (i : Nat) : Fld := ⟨0x00D80304 + i * 0x10, 0, 20⟩
def UPD_RAIL_IPEAK_MILLIAMPS (i : Nat) : Fld := ⟨0x00D80308 + i * 0x10, 0, 20⟩
def UPD_RAIL_ILIM_MILLIAMPS (i : Nat) : Fld := ⟨0x00D8030C + i * 0x10, 0, 20⟩


/-- Register rows of HBM (part 1). -/
def rowsHBM0 : List RegRow := [
  ⟨0, 0, 16, .ro, .lit 4112, .any, 1, 0, 1, 0, 0, none, none⟩,
  ⟨0, 16, 8, .ro, .lit 16, .any, 1, 0, 1, 0, 0, none, none⟩,
  ⟨8, 0, 1, .w1c, .lit 0, .any, 1, 0, 1, 0, 0, none, none⟩,
  ⟨8, 1, 1, .ro, .lit 0, .any, 1, 0, 1, 0, 0, none, none⟩,
  ⟨8, 2, 1, .ro, .lit 0, .any, 1, 0, 1, 0, 0, none, none⟩,
  ⟨8, 3, 1, .w1c, .lit 0, .any, 1, 0, 1, 0, 0, none, none⟩,
  ⟨8, 4, 1, .ro, .lit 0, .any, 1, 0, 1, 0, 0, none, none⟩,
  ⟨12, 0, 16, .ro, .lit 0, .any, 1, 0, 1, 0, 0, none, none⟩,
  ⟨16, 0, 8, .ro, .lit 0, .any, 1, 0, 1, 0, 0, none, none⟩,
  ⟨20, 0, 32, .ro, .lit 0, .any, 1, 0, 1, 0, 0, none, none⟩,
  ⟨24, 0, 4, .ro, .lit 0, .any, 1, 0, 1, 0, 0, none, none⟩,
  ⟨24, 16, 16, .ro, .lit 0, .any, 1, 0, 1, 0, 0, none, none⟩,
  ⟨28, 0, 14, .ro, .lit 0, .any, 1, 0, 1, 0, 0, none, none⟩,
  ⟨28, 16, 5, .ro, .lit 0, .any, 1, 0, 1, 0, 0, none, none⟩,
  ⟨28, 23, 5, .ro, .lit 0, .any, 1, 0, 1, 0, 0, none, none⟩,
  ⟨32, 0, 11, .ro, .lit 0, .any, 1, 0, 1, 0, 0, none, none⟩,
  ⟨36, 0, 8, .ro, .lit 0, .any, 1, 0, 1, 0, 0, none, none⟩,
  ⟨64, 0, 16, .ro, .lit 0, .any, 8, 4, 1, 0, 64, none, none⟩,
  ⟨64, 16, 14, .ro, .lit 0, .any, 8, 4, 1, 0, 64, none, none⟩]

/-- The block HBM. -/
def blockHBM : RegBlock := ⟨0x00E00000, 4, 0x10000, none, some (8, 0), rowsHBM0⟩

def HBM_ID_BLOCK (n : Nat) : Fld := ⟨0x00E00000 + n * 0x10000, 0, 16⟩
def HBM_ID_REV (n : Nat) : Fld := ⟨0x00E00000 + n * 0x10000, 16, 8⟩
def HBM_STATUS_CFG_IGNORED (n : Nat) : Fld := ⟨0x00E00008 + n * 0x10000, 0, 1⟩
def HBM_STATUS_READY (n : Nat) : Fld := ⟨0x00E00008 + n * 0x10000, 1, 1⟩
def HBM_STATUS_FENCED (n : Nat) : Fld := ⟨0x00E00008 + n * 0x10000, 2, 1⟩
def HBM_STATUS_TRANSIENT (n : Nat) : Fld := ⟨0x00E00008 + n * 0x10000, 3, 1⟩
def HBM_STATUS_HOT_REFRESH (n : Nat) : Fld := ⟨0x00E00008 + n * 0x10000, 4, 1⟩
def HBM_VOTE_FIX_COUNT (n : Nat) : Fld := ⟨0x00E0000C + n * 0x10000, 0, 16⟩
def HBM_STACK_TEMP_CELSIUS (n : Nat) : Fld := ⟨0x00E00010 + n * 0x10000, 0, 8⟩
def HBM_POISON_LAST_LO_ADDR (n : Nat) : Fld := ⟨0x00E00014 + n * 0x10000, 0, 32⟩
def HBM_POISON_LAST_HI_ADDR (n : Nat) : Fld := ⟨0x00E00018 + n * 0x10000, 0, 4⟩
def HBM_POISON_LAST_HI_SRC (n : Nat) : Fld := ⟨0x00E00018 + n * 0x10000, 16, 16⟩
def HBM_RDT_LAST_ROW (n : Nat) : Fld := ⟨0x00E0001C + n * 0x10000, 0, 14⟩
def HBM_RDT_LAST_BANK (n : Nat) : Fld := ⟨0x00E0001C + n * 0x10000, 16, 5⟩
def HBM_RDT_LAST_PC (n : Nat) : Fld := ⟨0x00E0001C + n * 0x10000, 23, 5⟩
def HBM_OUTSTANDING_REQUESTS (n : Nat) : Fld := ⟨0x00E00020 + n * 0x10000, 0, 11⟩
def HBM_LANES_REPAIRED_COUNT (n : Nat) : Fld := ⟨0x00E00024 + n * 0x10000, 0, 8⟩
def HBM_THR_SRC (n i : Nat) : Fld := ⟨0x00E00040 + n * 0x10000 + i * 0x4, 0, 16⟩
def HBM_THR_US_LEFT (n i : Nat) : Fld := ⟨0x00E00040 + n * 0x10000 + i * 0x4, 16, 14⟩

def C_HBM_READS (n : Nat) : Nat := 0x00E00100 + n * 0x10000
def C_HBM_WRITES (n : Nat) : Nat := 0x00E00108 + n * 0x10000
def C_HBM_CE_COUNT (n : Nat) : Nat := 0x00E00110 + n * 0x10000
def C_HBM_UE_RETRIED (n : Nat) : Nat := 0x00E00118 + n * 0x10000
def C_HBM_POISONED (n : Nat) : Nat := 0x00E00120 + n * 0x10000
def C_HBM_POISON_READS (n : Nat) : Nat := 0x00E00128 + n * 0x10000
def C_HBM_RDT_EVENTS (n : Nat) : Nat := 0x00E00130 + n * 0x10000
def C_HBM_THROTTLED_ACTS (n : Nat) : Nat := 0x00E00138 + n * 0x10000
def C_HBM_PROMOTIONS (n : Nat) : Nat := 0x00E00140 + n * 0x10000
def C_HBM_PARITY_RETRIES (n : Nat) : Nat := 0x00E00148 + n * 0x10000

/-- Register rows of HBMC (part 1). -/
def rowsHBMC0 : List RegRow := [
  ⟨0, 0, 16, .ro, .lit 8208, .any, 1, 0, 1, 0, 0, none, none⟩,
  ⟨0, 16, 8, .ro, .lit 16, .any, 1, 0, 1, 0, 0, none, none⟩,
  ⟨4, 0, 1, .rw, .lit 0, .special, 1, 0, 1, 0, 0, none, none⟩,
  ⟨8, 0, 1, .w1c, .lit 0, .any, 1, 0, 1, 0, 0, none, none⟩,
  ⟨8, 1, 1, .ro, .lit 0, .any, 1, 0, 1, 0, 0, none, none⟩,
  ⟨16, 0, 13, .rwv, .lit 2000, .range 200 8000, 1, 0, 1, 0, 0, none, none⟩,
  ⟨20, 0, 16, .rwv, .lit 4096, .range 256 32768, 1, 0, 1, 0, 0, none, none⟩,
  ⟨24, 0, 13, .rwv, .lit 500, .range 50 5000, 1, 0, 1, 0, 0, none, none⟩,
  ⟨28, 0, 14, .rwv, .lit 100, .range 10 10000, 1, 0, 1, 0, 0, none, none⟩,
  ⟨32, 0, 8, .rw, .lit 24, .any, 1, 0, 1, 0, 0, none, none⟩,
  ⟨36, 28, 4, .rw, .lit 0, .special, 1, 0, 1, 0, 0, none, none⟩,
  ⟨40, 0, 4, .rw, .lit 0, .special, 1, 0, 1, 0, 0, none, none⟩,
  ⟨44, 0, 32, .ro, .lit 0, .any, 1, 0, 1, 0, 0, none, none⟩,
  ⟨256, 0, 14, .rwd, .lit 0, .special, 16, 16, 1, 0, 256, none, none⟩,
  ⟨260, 0, 15, .rwd, .lit 0, .special, 16, 16, 1, 0, 256, none, none⟩,
  ⟨264, 0, 2, .rwd, .lit 0, .range 0 2, 16, 16, 1, 0, 256, none, none⟩,
  ⟨264, 4, 1, .rwd, .lit 0, .any, 16, 16, 1, 0, 256, none, none⟩]

/-- The block HBMC. -/
def blockHBMC : RegBlock := ⟨0x00E40000, 1, 0x0, some (4, 0), some (8, 0), rowsHBMC0⟩

def HBM_MAP_ID_BLOCK : Fld := ⟨0x00E40000, 0, 16⟩
def HBM_MAP_ID_REV : Fld := ⟨0x00E40000, 16, 8⟩
def HBM_MAP_CTRL_ENABLE : Fld := ⟨0x00E40004, 0, 1⟩
def HBM_MAP_STATUS_CFG_IGNORED : Fld := ⟨0x00E40008, 0, 1⟩
def HBM_MAP_STATUS_HBM_READY : Fld := ⟨0x00E40008, 1, 1⟩
def HBM_AGE_MAX_NS : Fld := ⟨0x00E40010, 0, 13⟩
def HBM_RDT_THRESH_ACTS : Fld := ⟨0x00E40014, 0, 16⟩
def HBM_RDT_GAP_NS : Fld := ⟨0x00E40018, 0, 13⟩
def HBM_RDT_US_US : Fld := ⟨0x00E4001C, 0, 14⟩
def HBM_SCRUB_H_HOURS : Fld := ⟨0x00E40020, 0, 8⟩
def HBM_BAR2_WIN_LO_ADDR : Fld := ⟨0x00E40024, 28, 4⟩
def HBM_BAR2_WIN_HI_ADDR : Fld := ⟨0x00E40028, 0, 4⟩
def HBM_WP_DROPS_COUNT : Fld := ⟨0x00E4002C, 0, 32⟩
def HBM_REG_BASE_UNITS (i : Nat) : Fld := ⟨0x00E40100 + i * 0x10, 0, 14⟩
def HBM_REG_SIZE_UNITS (i : Nat) : Fld := ⟨0x00E40104 + i * 0x10, 0, 15⟩
def HBM_REG_CFG_MAP (i : Nat) : Fld := ⟨0x00E40108 + i * 0x10, 0, 2⟩
def HBM_REG_CFG_HOST_WP (i : Nat) : Fld := ⟨0x00E40108 + i * 0x10, 4, 1⟩


/-- Register rows of HIF (part 1). -/
def rowsHIF0 : List RegRow := [
  ⟨0, 0, 16, .ro, .lit 257, .any, 1, 0, 1, 0, 0, none, none⟩,
  ⟨0, 16, 8, .ro, .lit 16, .any, 1, 0, 1, 0, 0, none, none⟩,
  ⟨4, 0, 1, .rw, .lit 0, .any, 1, 0, 1, 0, 0, none, none⟩,
  ⟨8, 0, 1, .w1c, .lit 0, .any, 1, 0, 1, 0, 0, none, none⟩,
  ⟨8, 1, 4, .ro, .lit 0, .any, 1, 0, 1, 0, 0, none, none⟩,
  ⟨8, 5, 5, .ro, .lit 0, .any, 1, 0, 1, 0, 0, none, none⟩,
  ⟨8, 10, 16, .ro, .lit 0, .any, 1, 0, 1, 0, 0, none, none⟩,
  ⟨12, 0, 16, .ro, .lit 0, .any, 1, 0, 1, 0, 0, none, none⟩,
  ⟨16, 0, 8, .ro, .lit 0, .any, 1, 0, 1, 0, 0, none, none⟩,
  ⟨20, 0, 10, .rwv, .lit 50, .range 1 1000, 1, 0, 1, 0, 0, none, none⟩,
  ⟨24, 0, 32, .ro, .lit 0, .any, 1, 0, 1, 0, 0, none, none⟩,
  ⟨28, 0, 16, .rwv, .lit 1, .any, 1, 0, 1, 0, 0, none, none⟩,
  ⟨32, 0, 32, .ro, .lit 0, .any, 1, 0, 1, 0, 0, none, none⟩,
  ⟨36, 0, 1, .ro, .lit 0, .any, 1, 0, 1, 0, 0, none, none⟩,
  ⟨36, 1, 1, .w1c, .lit 0, .any, 1, 0, 1, 0, 0, none, none⟩]

/-- The block HIF. -/
def blockHIF : RegBlock := ⟨0x00000000, 1, 0x0, some (4, 0), some (8, 0), rowsHIF0⟩

def HIF_ID_BLOCK : Fld := ⟨0x00000000, 0, 16⟩
def HIF_ID_REV : Fld := ⟨0x00000000, 16, 8⟩
def HIF_CTRL_ENABLE : Fld := ⟨0x00000004, 0, 1⟩
def HIF_STATUS_CFG_IGNORED : Fld := ⟨0x00000008, 0, 1⟩
def HIF_STATUS_SPEED : Fld := ⟨0x00000008, 1, 4⟩
def HIF_STATUS_WIDTH : Fld := ⟨0x00000008, 5, 5⟩
def HIF_STATUS_FLR_BUSY : Fld := ⟨0x00000008, 10, 16⟩
def HIF_VOTE_FIX_COUNT : Fld := ⟨0x0000000C, 0, 16⟩
def HIF_BOOT_STAGE_STAGE : Fld := ⟨0x00000010, 0, 8⟩
def HIF_CPL_TIMEOUT_MS : Fld := ⟨0x00000014, 0, 10⟩
def HIF_BAD_ACCESS_COUNT : Fld := ⟨0x00000018, 0, 32⟩
def HIF_FRAME_TX_EN_FUNCTIONS : Fld := ⟨0x0000001C, 0, 16⟩
def HIF_CQ_LOST_COUNT : Fld := ⟨0x00000020, 0, 32⟩
def HIF_CLK_STAT_REFCLK_EXT : Fld := ⟨0x00000024, 0, 1⟩
def HIF_CLK_STAT_REFCLK_LOST : Fld := ⟨0x00000024, 1, 1⟩


/-- Register rows of HFP (part 1). -/
def rowsHFP0 : List RegRow := [
  ⟨0, 0, 6, .ro, .lit 0, .any, 1, 0, 1, 0, 0, none, none⟩,
  ⟨0, 8, 8, .ro, .lit 0, .any, 1, 0, 1, 0, 0, none, none⟩,
  ⟨0, 16, 1, .w1c, .lit 0, .special, 1, 0, 1, 0, 0, none, none⟩,
  ⟨0, 17, 1, .ro, .lit 0, .any, 1, 0, 1, 0, 0, none, none⟩,
  ⟨16, 0, 7, .rw, .lit 0, .any, 1, 0, 1, 0, 0, none, none⟩,
  ⟨16, 8, 7, .rw, .lit 0, .any, 1, 0, 1, 0, 0, none, none⟩,
  ⟨16, 16, 7, .rw, .lit 0, .any, 1, 0, 1, 0, 0, none, none⟩,
  ⟨16, 24, 7, .rw, .lit 0, .any, 1, 0, 1, 0, 0, none, none⟩,
  ⟨20, 0, 7, .rw, .lit 0, .special, 1, 0, 1, 0, 0, none, none⟩,
  ⟨4096, 0, 1, .rw, .lit 0, .any, 32, 256, 1, 0, 4096, some 0, some (28, 3)⟩,
  ⟨4096, 1, 1, .rwd, .lit 0, .any, 32, 256, 1, 0, 4096, some 0, some (28, 3)⟩,
  ⟨4096, 2, 1, .rwd, .lit 0, .special, 32, 256, 1, 0, 4096, some 0, some (28, 3)⟩,
  ⟨4096, 3, 1, .rwd, .lit 0, .special, 32, 256, 1, 0, 4096, some 0, some (28, 3)⟩,
  ⟨4096, 4, 2, .rwd, .lit 0, .special, 32, 256, 1, 0, 4096, some 0, some (28, 3)⟩,
  ⟨4096, 6, 1, .rwd, .lit 0, .special, 32, 256, 1, 0, 4096, some 0, some (28, 3)⟩,
  ⟨4096, 8, 7, .rwd, .lit 0, .any, 32, 256, 1, 0, 4096, some 0, some (28, 3)⟩,
  ⟨4096, 15, 1, .ro, .byIndex [0, 0, 0, 0, 0, 0, 0, 0, 0, 0, 0, 0, 0, 0, 0, 0, 1, 1, 1, 1, 1, 1, 1, 1, 1, 1, 1, 1, 1, 1, 1, 1], .any, 32, 256, 1, 0, 4096, some 0, some (28, 3)⟩,
  ⟨4100, 6, 26, .rwd, .lit 0, .any, 32, 256, 1, 0, 4096, some 0, some (28, 3)⟩,
  ⟨4104, 0, 32, .rwd, .lit 0, .any, 32, 256, 1, 0, 4096, some 0, some (28, 3)⟩,
  ⟨4108, 0, 5, .rwd, .lit 4, .range 4 16, 32, 256, 1, 0, 4096, some 0, some (28, 3)⟩,
  ⟨4112, 0, 16, .ro, .lit 0, .any, 32, 256, 1, 0, 4096, some 0, some (28, 3)⟩,
  ⟨4116, 0, 16, .ro, .lit 0, .any, 32, 256, 1, 0, 4096, some 0, some (28, 3)⟩,
  ⟨4120, 0, 8, .rw, .lit 0, .any, 32, 256, 1, 0, 4096, some 0, some (28, 3)⟩,
  ⟨4120, 8, 10, .rw, .lit 0, .any, 32, 256, 1, 0, 4096, some 0, some (28, 3)⟩]

/-- Register rows of HFP (part 2). -/
def rowsHFP1 : List RegRow := [
  ⟨4124, 0, 1, .w1c, .lit 0, .any, 32, 256, 1, 0, 4096, some 0, some (28, 3)⟩,
  ⟨4124, 1, 1, .w1c, .lit 0, .any, 32, 256, 1, 0, 4096, some 0, some (28, 3)⟩,
  ⟨4124, 2, 1, .ro, .lit 0, .any, 32, 256, 1, 0, 4096, some 0, some (28, 3)⟩,
  ⟨4124, 3, 1, .w1c, .lit 0, .any, 32, 256, 1, 0, 4096, some 0, some (28, 3)⟩,
  ⟨4124, 8, 9, .ro, .lit 0, .any, 32, 256, 1, 0, 4096, some 0, some (28, 3)⟩,
  ⟨4128, 0, 32, .wo, .lit 0, .any, 32, 256, 8, 4, 4096, some 0, some (28, 3)⟩,
  ⟨4160, 0, 32, .ro, .lit 0, .any, 32, 256, 1, 0, 4096, some 0, some (28, 3)⟩]

/-- The block HFP. -/
def blockHFP : RegBlock := ⟨0x00080000, 16, 0x8000, none, none, rowsHFP0 ++ rowsHFP1⟩

def HIF_Fn_MBX_REJ_CHANNEL (n : Nat) : Fld := ⟨0x00080000 + n * 0x8000, 0, 6⟩
def HIF_Fn_MBX_REJ_CAUSE (n : Nat) : Fld := ⟨0x00080000 + n * 0x8000, 8, 8⟩
def HIF_Fn_MBX_REJ_REJECTED (n : Nat) : Fld := ⟨0x00080000 + n * 0x8000, 16, 1⟩
def HIF_Fn_MBX_REJ_MULTI (n : Nat) : Fld := ⟨0x00080000 + n * 0x8000, 17, 1⟩
def HIF_Fn_VEC_MBX_RX (n : Nat) : Fld := ⟨0x00080010 + n * 0x8000, 0, 7⟩
def HIF_Fn_VEC_MBX_REJ (n : Nat) : Fld := ⟨0x00080010 + n * 0x8000, 8, 7⟩
def HIF_Fn_VEC_DBL (n : Nat) : Fld := ⟨0x00080010 + n * 0x8000, 16, 7⟩
def HIF_Fn_VEC_QERR (n : Nat) : Fld := ⟨0x00080010 + n * 0x8000, 24, 7⟩
def HIF_Fn_VEC2_DEV_EVENT (n : Nat) : Fld := ⟨0x00080014 + n * 0x8000, 0, 7⟩
def HIF_Fn_Qj_CFG_ENABLE (n i : Nat) : Fld := ⟨0x00081000 + n * 0x8000 + i * 0x100, 0, 1⟩
def HIF_Fn_Qj_CFG_ORDER_MODE (n i : Nat) : Fld := ⟨0x00081000 + n * 0x8000 + i * 0x100, 1, 1⟩
def HIF_Fn_Qj_CFG_KB3_COMPAT (n i : Nat) : Fld := ⟨0x00081000 + n * 0x8000 + i * 0x100, 2, 1⟩
def HIF_Fn_Qj_CFG_MODE (n i : Nat) : Fld := ⟨0x00081000 + n * 0x8000 + i * 0x100, 3, 1⟩
def HIF_Fn_Qj_CFG_CLASS (n i : Nat) : Fld := ⟨0x00081000 + n * 0x8000 + i * 0x100, 4, 2⟩
def HIF_Fn_Qj_CFG_DELIVERY (n i : Nat) : Fld := ⟨0x00081000 + n * 0x8000 + i * 0x100, 6, 1⟩
def HIF_Fn_Qj_CFG_VECTOR (n i : Nat) : Fld := ⟨0x00081000 + n * 0x8000 + i * 0x100, 8, 7⟩
def HIF_Fn_Qj_CFG_DIR (n i : Nat) : Fld := ⟨0x00081000 + n * 0x8000 + i * 0x100, 15, 1⟩
def HIF_Fn_Qj_BASE_LO_ADDR (n i : Nat) : Fld := ⟨0x00081004 + n * 0x8000 + i * 0x100, 6, 26⟩
def HIF_Fn_Qj_BASE_HI_ADDR (n i : Nat) : Fld := ⟨0x00081008 + n * 0x8000 + i * 0x100, 0, 32⟩
def HIF_Fn_Qj_SIZE_LOG2 (n i : Nat) : Fld := ⟨0x0008100C + n * 0x8000 + i * 0x100, 0, 5⟩
def HIF_Fn_Qj_TAIL_ENTRY (n i : Nat) : Fld := ⟨0x00081010 + n * 0x8000 + i * 0x100, 0, 16⟩
def HIF_Fn_Qj_HEAD_ENTRY (n i : Nat) : Fld := ⟨0x00081014 + n * 0x8000 + i * 0x100, 0, 16⟩
def HIF_Fn_Qj_COAL_COUNT (n i : Nat) : Fld := ⟨0x00081018 + n * 0x8000 + i * 0x100, 0, 8⟩
def HIF_Fn_Qj_COAL_US (n i : Nat) : Fld := ⟨0x00081018 + n * 0x8000 + i * 0x100, 8, 10⟩
def HIF_Fn_Qj_STAT_DMA_ERR (n i : Nat) : Fld := ⟨0x0008101C + n * 0x8000 + i * 0x100, 0, 1⟩
def HIF_Fn_Qj_STAT_DESC_ERR (n i : Nat) : Fld := ⟨0x0008101C + n * 0x8000 + i * 0x100, 1, 1⟩
def HIF_Fn_Qj_STAT_PAUSED (n i : Nat) : Fld := ⟨0x0008101C + n * 0x8000 + i * 0x100, 2, 1⟩
def HIF_Fn_Qj_STAT_CFG_IGNORED (n i : Nat) : Fld := ⟨0x0008101C + n * 0x8000 + i * 0x100, 3, 1⟩
def HIF_Fn_Qj_STAT_RX_BUFS (n i : Nat) : Fld := ⟨0x0008101C + n * 0x8000 + i * 0x100, 8, 9⟩
def HIF_Fn_Qj_PIO_WORD (n i j : Nat) : Fld := ⟨0x00081020 + n * 0x8000 + i * 0x100 + j * 0x4, 0, 32⟩
def HIF_Fn_Qj_DONE_COUNT (n i : Nat) : Fld := ⟨0x00081040 + n * 0x8000 + i * 0x100, 0, 32⟩


/-- Register rows of MBX (part 1). -/
def rowsMBX0 : List RegRow := [
  ⟨0, 0, 32, .rw, .lit 0, .special, 64, 256, 16, 4, 0, none, none⟩,
  ⟨64, 0, 1, .ro, .lit 0, .any, 64, 256, 1, 0, 0, none, none⟩,
  ⟨64, 1, 1, .ro, .lit 0, .any, 64, 256, 1, 0, 0, none, none⟩,
  ⟨64, 16, 4, .ro, .lit 0, .any, 64, 256, 1, 0, 0, none, none⟩,
  ⟨68, 0, 1, .wo, .lit 0, .any, 64, 256, 1, 0, 0, none, none⟩,
  ⟨72, 0, 16, .ro, .lit 0, .any, 64, 256, 1, 0, 0, none, none⟩,
  ⟨128, 0, 16, .rwd, .byIndex [4096, 4097, 4098, 4099, 4100, 4101, 4102, 4103, 4104, 4105, 4106, 4107, 4108, 4109, 4110, 4111, 4096, 4097, 4098, 4099, 4100, 4101, 4102, 4103, 4104, 4105, 4106, 4107, 4108, 4109, 4110, 4111, 0, 0, 1, 1, 2, 2, 3, 3, 4, 4, 5, 5, 6, 6, 7, 7, 8, 8, 9, 9, 10, 10, 11, 11, 12, 12, 13, 13, 14, 14, 15, 15], .special, 64, 256, 1, 0, 0, none, none⟩,
  ⟨128, 16, 16, .rwd, .byIndex [65535, 65535, 65535, 65535, 65535, 65535, 65535, 65535, 65535, 65535, 65535, 65535, 65535, 65535, 65535, 65535, 65535, 65535, 65535, 65535, 65535, 65535, 65535, 65535, 65535, 65535, 65535, 65535, 65535, 65535, 65535, 65535, 0, 0, 0, 0, 0, 0, 0, 0, 0, 0, 0, 0, 0, 0, 0, 0, 0, 0, 0, 0, 0, 0, 0, 0, 0, 0, 0, 0, 0, 0, 0, 0], .any, 64, 256, 1, 0, 0, none, none⟩,
  ⟨16384, 0, 16, .ro, .lit 4626, .any, 1, 0, 1, 0, 0, none, none⟩,
  ⟨16384, 16, 8, .ro, .lit 16, .any, 1, 0, 1, 0, 0, none, none⟩,
  ⟨16388, 0, 1, .rw, .lit 1, .any, 1, 0, 1, 0, 0, none, none⟩,
  ⟨16392, 0, 1, .w1c, .lit 0, .any, 1, 0, 1, 0, 0, none, none⟩,
  ⟨16396, 0, 16, .ro, .lit 0, .any, 1, 0, 1, 0, 0, none, none⟩,
  ⟨16400, 0, 6, .ro, .lit 0, .any, 1, 0, 1, 0, 0, none, none⟩,
  ⟨16400, 7, 1, .ro, .lit 0, .any, 1, 0, 1, 0, 0, none, none⟩,
  ⟨16404, 0, 14, .rwv, .lit 100, .range 10 10000, 1, 0, 1, 0, 0, none, none⟩,
  ⟨16408, 0, 32, .ro, .lit 0, .any, 1, 0, 1, 0, 0, none, none⟩,
  ⟨24576, 0, 32, .wo, .lit 0, .any, 8, 4, 1, 0, 0, none, none⟩,
  ⟨24608, 0, 32, .w1c, .lit 0, .special, 8, 4, 1, 0, 0, none, none⟩,
  ⟨24640, 0, 32, .ro, .lit 0, .any, 1, 0, 1, 0, 0, none, none⟩,
  ⟨24644, 0, 32, .ro, .lit 0, .any, 1, 0, 1, 0, 0, none, none⟩]

/-- The block MBX. -/
def blockMBX : RegBlock := ⟨0x00100000, 1, 0x0, some (16388, 0), some (16392, 0), rowsMBX0⟩

def MBX_CHc_DATA_DATA (i j : Nat) : Fld := ⟨0x00100000 + i * 0x100 + j * 0x4, 0, 32⟩
def MBX_CHc_STAT_FULL (i : Nat) : Fld := ⟨0x00100040 + i * 0x100, 0, 1⟩
def MBX_CHc_STAT_CLAIMED (i : Nat) : Fld := ⟨0x00100040 + i * 0x100, 1, 1⟩
def MBX_CHc_STAT_CLAIMER (i : Nat) : Fld := ⟨0x00100040 + i * 0x100, 16, 4⟩
def MBX_CHc_CTRL_SEND (i : Nat) : Fld := ⟨0x00100044 + i * 0x100, 0, 1⟩
def MBX_CHc_SENDER_SENDER (i : Nat) : Fld := ⟨0x00100048 + i * 0x100, 0, 16⟩
def MBX_CHc_CFG_RECV (i : Nat) : Fld := ⟨0x00100080 + i * 0x100, 0, 16⟩
def MBX_CHc_CFG_HOST_MASK (i : Nat) : Fld := ⟨0x00100080 + i * 0x100, 16, 16⟩
def MBX_ID_BLOCK : Fld := ⟨0x00104000, 0, 16⟩
def MBX_ID_REV : Fld := ⟨0x00104000, 16, 8⟩
def MBX_CTRL_ENABLE : Fld := ⟨0x00104004, 0, 1⟩
def MBX_STATUS_CFG_IGNORED : Fld := ⟨0x00104008, 0, 1⟩
def MBX_VOTE_FIX_COUNT : Fld := ⟨0x0010400C, 0, 16⟩
def MBX_CLAIM_CHANNEL : Fld := ⟨0x00104010, 0, 6⟩
def MBX_CLAIM_VALID : Fld := ⟨0x00104010, 7, 1⟩
def MBX_CLAIM_TO_US : Fld := ⟨0x00104014, 0, 14⟩
def MBX_INT_REFUSED_COUNT : Fld := ⟨0x00104018, 0, 32⟩
def DBL_SET_SET (i : Nat) : Fld := ⟨0x00106000 + i * 0x4, 0, 32⟩
def DBL_STAT_BITS (i : Nat) : Fld := ⟨0x00106020 + i * 0x4, 0, 32⟩
def DBL_IGNORED_COUNT : Fld := ⟨0x00106040, 0, 32⟩
def DBL_COALESCED_COUNT : Fld := ⟨0x00106044, 0, 32⟩


/-- Register rows of FUS (part 1). -/
def rowsFUS0 : List RegRow := [
  ⟨0, 0, 16, .ro, .lit 4883, .any, 1, 0, 1, 0, 0, none, none⟩,
  ⟨0, 16, 8, .ro, .lit 16, .any, 1, 0, 1, 0, 0, none, none⟩,
  ⟨4, 0, 16, .wo, .lit 0, .any, 1, 0, 1, 0, 0, none, none⟩,
  ⟨8, 0, 1, .w1c, .lit 0, .any, 1, 0, 1, 0, 0, none, none⟩,
  ⟨8, 1, 1, .ro, .lit 0, .any, 1, 0, 1, 0, 0, none, none⟩,
  ⟨8, 2, 1, .ro, .lit 0, .any, 1, 0, 1, 0, 0, none, none⟩,
  ⟨8, 3, 1, .ro, .lit 0, .any, 1, 0, 1, 0, 0, none, none⟩,
  ⟨8, 4, 1, .ro, .lit 0, .any, 1, 0, 1, 0, 0, none, none⟩,
  ⟨8, 5, 1, .ro, .lit 0, .any, 1, 0, 1, 0, 0, none, none⟩,
  ⟨8, 6, 1, .ro, .lit 0, .any, 1, 0, 1, 0, 0, none, none⟩,
  ⟨12, 0, 16, .ro, .lit 0, .any, 1, 0, 1, 0, 0, none, none⟩,
  ⟨16, 0, 1, .w1c, .lit 1, .any, 1, 0, 1, 0, 0, none, none⟩,
  ⟨16, 1, 1, .w1c, .lit 0, .any, 1, 0, 1, 0, 0, none, none⟩,
  ⟨16, 2, 1, .w1c, .lit 0, .any, 1, 0, 1, 0, 0, none, none⟩,
  ⟨16, 3, 1, .w1c, .lit 0, .any, 1, 0, 1, 0, 0, none, none⟩,
  ⟨16, 4, 1, .w1c, .lit 0, .any, 1, 0, 1, 0, 0, none, none⟩,
  ⟨16, 5, 1, .w1c, .lit 0, .any, 1, 0, 1, 0, 0, none, none⟩,
  ⟨20, 0, 32, .ro, .lit 0, .any, 1, 0, 1, 0, 0, none, none⟩,
  ⟨24, 0, 1, .ro, .lit 0, .any, 1, 0, 1, 0, 0, none, none⟩,
  ⟨24, 1, 1, .ro, .lit 0, .any, 1, 0, 1, 0, 0, none, none⟩,
  ⟨24, 2, 1, .ro, .lit 0, .any, 1, 0, 1, 0, 0, none, none⟩,
  ⟨24, 8, 8, .ro, .lit 0, .any, 1, 0, 1, 0, 0, none, none⟩,
  ⟨24, 16, 8, .ro, .lit 0, .any, 1, 0, 1, 0, 0, none, none⟩,
  ⟨24, 24, 8, .ro, .lit 0, .any, 1, 0, 1, 0, 0, none, none⟩]

/-- Register rows of FUS (part 2). -/
def rowsFUS1 : List RegRow := [
  ⟨28, 0, 32, .ro, .lit 0, .any, 1, 0, 1, 0, 0, none, none⟩,
  ⟨32, 0, 1, .wo, .lit 0, .any, 1, 0, 1, 0, 0, none, none⟩,
  ⟨64, 0, 32, .ro, .lit 0, .any, 8, 4, 1, 0, 0, none, none⟩,
  ⟨96, 0, 32, .ro, .lit 0, .any, 8, 4, 1, 0, 0, none, none⟩,
  ⟨128, 0, 1, .ro, .lit 1, .any, 1, 0, 1, 0, 0, none, none⟩,
  ⟨128, 1, 1, .ro, .lit 0, .any, 1, 0, 1, 0, 0, none, none⟩,
  ⟨128, 2, 3, .ro, .lit 4, .any, 1, 0, 1, 0, 0, none, none⟩,
  ⟨128, 5, 7, .ro, .lit 64, .any, 1, 0, 1, 0, 0, none, none⟩,
  ⟨128, 12, 1, .ro, .lit 1, .any, 1, 0, 1, 0, 0, none, none⟩,
  ⟨128, 13, 1, .ro, .lit 1, .any, 1, 0, 1, 0, 0, none, none⟩,
  ⟨132, 0, 1, .ro, .lit 0, .any, 1, 0, 1, 0, 0, none, none⟩,
  ⟨256, 0, 7, .rw, .lit 0, .special, 1, 0, 1, 0, 0, none, none⟩,
  ⟨260, 0, 2, .wo, .lit 0, .any, 1, 0, 1, 0, 0, none, none⟩,
  ⟨264, 0, 2, .ro, .lit 0, .any, 1, 0, 1, 0, 0, none, none⟩,
  ⟨264, 8, 4, .ro, .lit 0, .any, 1, 0, 1, 0, 0, none, none⟩,
  ⟨512, 0, 2, .rw, .lit 1, .any, 1, 0, 1, 0, 0, none, none⟩,
  ⟨512, 2, 2, .rw, .lit 1, .any, 1, 0, 1, 0, 0, none, none⟩,
  ⟨512, 4, 2, .rw, .lit 2, .any, 1, 0, 1, 0, 0, none, none⟩,
  ⟨512, 6, 2, .rw, .lit 1, .any, 1, 0, 1, 0, 0, none, none⟩,
  ⟨512, 8, 2, .rw, .lit 2, .any, 1, 0, 1, 0, 0, none, none⟩,
  ⟨512, 10, 2, .rw, .lit 1, .any, 1, 0, 1, 0, 0, none, none⟩,
  ⟨516, 0, 8, .ro, .lit 255, .any, 1, 0, 1, 0, 0, none, none⟩,
  ⟨516, 8, 8, .ro, .lit 255, .any, 1, 0, 1, 0, 0, none, none⟩,
  ⟨516, 16, 1, .ro, .lit 1, .any, 1, 0, 1, 0, 0, none, none⟩]

/-- Register rows of FUS (part 3). -/
def rowsFUS2 : List RegRow := [
  ⟨516, 17, 1, .ro, .lit 1, .any, 1, 0, 1, 0, 0, none, none⟩,
  ⟨516, 18, 1, .ro, .lit 1, .any, 1, 0, 1, 0, 0, none, none⟩,
  ⟨516, 19, 1, .ro, .lit 0, .any, 1, 0, 1, 0, 0, none, none⟩,
  ⟨516, 20, 1, .ro, .lit 0, .any, 1, 0, 1, 0, 0, none, none⟩,
  ⟨520, 0, 8, .rwm, .lit 0, .any, 1, 0, 1, 0, 0, none, none⟩,
  ⟨520, 8, 8, .rwm, .lit 0, .any, 1, 0, 1, 0, 0, none, none⟩,
  ⟨524, 0, 8, .rwm, .lit 0, .any, 1, 0, 1, 0, 0, none, none⟩,
  ⟨524, 8, 1, .rwm, .lit 0, .any, 1, 0, 1, 0, 0, none, none⟩,
  ⟨524, 9, 1, .rwm, .lit 1, .any, 1, 0, 1, 0, 0, none, none⟩,
  ⟨528, 0, 8, .w1c, .lit 0, .any, 1, 0, 1, 0, 0, none, none⟩,
  ⟨528, 8, 8, .w1c, .lit 0, .any, 1, 0, 1, 0, 0, none, none⟩,
  ⟨528, 16, 1, .w1c, .lit 0, .any, 1, 0, 1, 0, 0, none, none⟩,
  ⟨528, 17, 1, .w1c, .lit 0, .any, 1, 0, 1, 0, 0, none, none⟩,
  ⟨528, 18, 1, .w1c, .lit 0, .any, 1, 0, 1, 0, 0, none, none⟩,
  ⟨532, 0, 8, .w1c, .lit 0, .any, 1, 0, 1, 0, 0, none, none⟩,
  ⟨532, 8, 1, .w1c, .lit 0, .any, 1, 0, 1, 0, 0, none, none⟩,
  ⟨532, 16, 8, .rw, .lit 0, .special, 1, 0, 1, 0, 0, none, none⟩]

/-- The block FUS. -/
def blockFUS : RegBlock := ⟨0x00F80000, 1, 0x0, none, some (8, 0), rowsFUS0 ++ rowsFUS1 ++ rowsFUS2⟩

def FUS_ID_BLOCK : Fld := ⟨0x00F80000, 0, 16⟩
def FUS_ID_REV : Fld := ⟨0x00F80000, 16, 8⟩
def FUS_CTRL_RESET : Fld := ⟨0x00F80004, 0, 16⟩
def FUS_STATUS_CFG_IGNORED : Fld := ⟨0x00F80008, 0, 1⟩
def FUS_STATUS_BANK_A_BAD : Fld := ⟨0x00F80008, 1, 1⟩
def FUS_STATUS_BANK_B_BAD : Fld := ⟨0x00F80008, 2, 1⟩
def FUS_STATUS_IDENTITY_SET : Fld := ⟨0x00F80008, 3, 1⟩
def FUS_STATUS_OWNER_SET : Fld := ⟨0x00F80008, 4, 1⟩
def FUS_STATUS_TRUNK_LOCK : Fld := ⟨0x00F80008, 5, 1⟩
def FUS_STATUS_DEBUG_DIS : Fld := ⟨0x00F80008, 6, 1⟩
def FUS_VOTE_FIX_COUNT : Fld := ⟨0x00F8000C, 0, 16⟩
def FUS_RESET_CAUSE_POWER_ON : Fld := ⟨0x00F80010, 0, 1⟩
def FUS_RESET_CAUSE_PERST : Fld := ⟨0x00F80010, 1, 1⟩
def FUS_RESET_CAUSE_HOST_REQ : Fld := ⟨0x00F80010, 2, 1⟩
def FUS_RESET_CAUSE_GULTER_REQ : Fld := ⟨0x00F80010, 3, 1⟩
def FUS_RESET_CAUSE_FW_WATCHDOG : Fld := ⟨0x00F80010, 4, 1⟩
def FUS_RESET_CAUSE_STAGE1_FAIL : Fld := ⟨0x00F80010, 5, 1⟩
def FUS_WARM_COUNT_COUNT : Fld := ⟨0x00F80014, 0, 32⟩
def FUS_BOOT_BANK : Fld := ⟨0x00F80018, 0, 1⟩
def FUS_BOOT_TRIAL : Fld := ⟨0x00F80018, 1, 1⟩
def FUS_BOOT_FALLBACK : Fld := ⟨0x00F80018, 2, 1⟩
def FUS_BOOT_SVN : Fld := ⟨0x00F80018, 8, 8⟩
def FUS_BOOT_FLOOR : Fld := ⟨0x00F80018, 16, 8⟩
def FUS_BOOT_TRIES_LEFT : Fld := ⟨0x00F80018, 24, 8⟩
def FUS_FW_VERSION_VERSION : Fld := ⟨0x00F8001C, 0, 32⟩
def FUS_FW_WD_KICK : Fld := ⟨0x00F80020, 0, 1⟩
def FUS_IDENTITY_DATA (i : Nat) : Fld := ⟨0x00F80040 + i * 0x4, 0, 32⟩
def FUS_OWNER_HASH_DATA (i : Nat) : Fld := ⟨0x00F80060 + i * 0x4, 0, 32⟩
def FUS_ONCE_LEFT_IDENTITY : Fld := ⟨0x00F80080, 0, 1⟩
def FUS_ONCE_LEFT_CAPACITY : Fld := ⟨0x00F80080, 1, 1⟩
def FUS_ONCE_LEFT_OWNER : Fld := ⟨0x00F80080, 2, 3⟩
def FUS_ONCE_LEFT_FLOOR : Fld := ⟨0x00F80080, 5, 7⟩
def FUS_ONCE_LEFT_TRUNK_LOCK : Fld := ⟨0x00F80080, 12, 1⟩
def FUS_ONCE_LEFT_DEBUG_DIS : Fld := ⟨0x00F80080, 13, 1⟩
def FUS_CAPACITY_TIER : Fld := ⟨0x00F80084, 0, 1⟩
def FUS_RCV_PAGE_PAGE : Fld := ⟨0x00F80100, 0, 7⟩
def FUS_RCV_CMD_OP : Fld := ⟨0x00F80104, 0, 2⟩
def FUS_RCV_STAT_STATE : Fld := ⟨0x00F80108, 0, 2⟩
def FUS_RCV_STAT_STEP : Fld := ⟨0x00F80108, 8, 4⟩
def FUS_PAD_PU_ALERT_PU : Fld := ⟨0x00F80200, 0, 2⟩
def FUS_PAD_PU_THERM_PU : Fld := ⟨0x00F80200, 2, 2⟩
def FUS_PAD_PU_MGMT_I2C_PU : Fld := ⟨0x00F80200, 4, 2⟩
def FUS_PAD_PU_MGMT_IN_PU : Fld := ⟨0x00F80200, 6, 2⟩
def FUS_PAD_PU_CAGE_I2C_PU : Fld := ⟨0x00F80200, 8, 2⟩
def FUS_PAD_PU_CAGE_IN_PU : Fld := ⟨0x00F80200, 10, 2⟩
def FUS_PAD_IN_MODPRS_N : Fld := ⟨0x00F80204, 0, 8⟩
def FUS_PAD_IN_INT_N : Fld := ⟨0x00F80204, 8, 8⟩
def FUS_PAD_IN_MGMT_MODABS : Fld := ⟨0x00F80204, 16, 1⟩
def FUS_PAD_IN_MGMT_LOS : Fld := ⟨0x00F80204, 17, 1⟩
def FUS_PAD_IN_MGMT_TXFAULT : Fld := ⟨0x00F80204, 18, 1⟩
def FUS_PAD_IN_PERST_N : Fld := ⟨0x00F80204, 19, 1⟩
def FUS_PAD_IN_PPS : Fld := ⟨0x00F80204, 20, 1⟩
def FUS_PAD_OUT_MODRST_N : Fld := ⟨0x00F80208, 0, 8⟩
def FUS_PAD_OUT_LPMODE : Fld := ⟨0x00F80208, 8, 8⟩
def FUS_PAD_PWR_CAGE_EN : Fld := ⟨0x00F8020C, 0, 8⟩
def FUS_PAD_PWR_MGMT_EN : Fld := ⟨0x00F8020C, 8, 1⟩
def FUS_PAD_PWR_MGMT_TXDIS : Fld := ⟨0x00F8020C, 9, 1⟩
def FUS_PAD_CHG_PRS_CHG : Fld := ⟨0x00F80210, 0, 8⟩
def FUS_PAD_CHG_INT_FELL : Fld := ⟨0x00F80210, 8, 8⟩
def FUS_PAD_CHG_MODABS_CHG : Fld := ⟨0x00F80210, 16, 1⟩
def FUS_PAD_CHG_LOS_CHG : Fld := ⟨0x00F80210, 17, 1⟩
def FUS_PAD_CHG_TXFAULT_CHG : Fld := ⟨0x00F80210, 18, 1⟩
def FUS_PAD_FAULT_CAGE_OC : Fld := ⟨0x00F80214, 0, 8⟩
def FUS_PAD_FAULT_MGMT_OC : Fld := ⟨0x00F80214, 8, 1⟩
def FUS_PAD_FAULT_REFUSED : Fld := ⟨0x00F80214, 16, 8⟩


/-- Register rows of SQL (part 1). -/
def rowsSQL0 : List RegRow := [
  ⟨0, 0, 16, .ro, .lit 5140, .any, 1, 0, 1, 0, 0, none, none⟩,
  ⟨0, 16, 8, .ro, .lit 16, .any, 1, 0, 1, 0, 0, none, none⟩,
  ⟨4, 0, 3, .rwv, .lit 1, .range 0 4, 1, 0, 1, 0, 0, none, none⟩,
  ⟨8, 0, 1, .w1c, .lit 0, .any, 1, 0, 1, 0, 0, none, none⟩,
  ⟨8, 1, 1, .w1c, .lit 0, .any, 1, 0, 1, 0, 0, none, none⟩,
  ⟨12, 0, 16, .ro, .lit 0, .any, 1, 0, 1, 0, 0, none, none⟩,
  ⟨16, 0, 32, .ro, .lit 0, .any, 1, 0, 1, 0, 0, none, none⟩,
  ⟨20, 0, 32, .ro, .lit 0, .any, 1, 0, 1, 0, 0, none, none⟩,
  ⟨24, 0, 32, .ro, .lit 0, .any, 1, 0, 1, 0, 0, none, none⟩,
  ⟨32, 0, 1, .w1c, .lit 0, .any, 1, 0, 1, 0, 0, none, none⟩,
  ⟨32, 1, 1, .w1c, .lit 0, .any, 1, 0, 1, 0, 0, none, none⟩,
  ⟨32, 2, 1, .w1c, .lit 0, .any, 1, 0, 1, 0, 0, none, none⟩,
  ⟨32, 3, 1, .w1c, .lit 0, .any, 1, 0, 1, 0, 0, none, none⟩,
  ⟨36, 0, 4, .rw, .lit 0, .any, 1, 0, 1, 0, 0, none, none⟩,
  ⟨40, 0, 8, .rwv, .lit 16, .any, 1, 0, 1, 0, 0, none, none⟩,
  ⟨44, 0, 16, .ro, .lit 0, .any, 1, 0, 1, 0, 0, none, none⟩,
  ⟨256, 0, 32, .ro, .lit 0, .any, 24, 4, 1, 0, 256, none, none⟩,
  ⟨512, 0, 32, .ro, .lit 0, .any, 24, 16, 4, 4, 0, none, none⟩]

/-- The block SQL. -/
def blockSQL : RegBlock := ⟨0x00F00000, 1, 0x0, none, some (8, 0), rowsSQL0⟩

def SQL_ID_BLOCK : Fld := ⟨0x00F00000, 0, 16⟩
def SQL_ID_REV : Fld := ⟨0x00F00000, 16, 8⟩
def SQL_CTRL_MIN_SEV : Fld := ⟨0x00F00004, 0, 3⟩
def SQL_STATUS_CFG_IGNORED : Fld := ⟨0x00F00008, 0, 1⟩
def SQL_STATUS_WRAPPED : Fld := ⟨0x00F00008, 1, 1⟩
def SQL_VOTE_FIX_COUNT : Fld := ⟨0x00F0000C, 0, 16⟩
def SQL_COUNT_LO_COUNT : Fld := ⟨0x00F00010, 0, 32⟩
def SQL_COUNT_HI_COUNT : Fld := ⟨0x00F00014, 0, 32⟩
def SQL_SUPPRESSED_COUNT : Fld := ⟨0x00F00018, 0, 32⟩
def SQL_ALERT_CAUSE_FENCE : Fld := ⟨0x00F00020, 0, 1⟩
def SQL_ALERT_CAUSE_FATAL : Fld := ⟨0x00F00020, 1, 1⟩
def SQL_ALERT_CAUSE_VOTE_LOST : Fld := ⟨0x00F00020, 2, 1⟩
def SQL_ALERT_CAUSE_ENTRY_LOST : Fld := ⟨0x00F00020, 3, 1⟩
def SQL_ALERT_MASK_MASK : Fld := ⟨0x00F00024, 0, 4⟩
def SQL_TRANSIENT_LIMIT_PER_SECOND : Fld := ⟨0x00F00028, 0, 8⟩
def SQL_FENCED_UNITS_COUNT : Fld := ⟨0x00F0002C, 0, 16⟩
def SQL_TRANS_COUNT (i : Nat) : Fld := ⟨0x00F00100 + i * 0x4, 0, 32⟩
def SQL_FENCE_INSTANCES (i j : Nat) : Fld := ⟨0x00F00200 + i * 0x10 + j * 0x4, 0, 32⟩


/-- Every block of the BAR0 map. -/
def blocks : List RegBlock :=
  [blockRLY, blockBPM, blockEGS, blockTGC, blockTIM, blockVDE, blockVEE, blockCMP, blockTSP, blockMXM, blockDSC, blockSDG, blockCPX, blockKSL, blockTRK, blockHTS, blockUPD, blockHBM, blockHBMC, blockHIF, blockHFP, blockMBX, blockFUS, blockSQL]

/-- Where the 64-bit counters lie (R97): address, instances and stride, elements and stride (part 1). -/
def counterRows0 : List (Nat × Nat × Nat × Nat × Nat) :=
  [(0x00401020, 1, 0x0, 8, 0x100),
   (0x00401028, 1, 0x0, 8, 0x100),
   (0x00401030, 1, 0x0, 8, 0x100),
   (0x00401038, 1, 0x0, 8, 0x100),
   (0x00401040, 1, 0x0, 8, 0x100),
   (0x00C010C0, 8, 0x10000, 16, 0x100),
   (0x00C010C8, 8, 0x10000, 16, 0x100),
   (0x00C010D0, 8, 0x10000, 16, 0x100),
   (0x00C010D8, 8, 0x10000, 16, 0x100),
   (0x00200200, 1, 0x0, 1, 0x0),
   (0x00200208, 1, 0x0, 1, 0x0),
   (0x00200210, 1, 0x0, 1, 0x0),
   (0x00200218, 1, 0x0, 1, 0x0),
   (0x00200220, 1, 0x0, 1, 0x0),
   (0x00200228, 1, 0x0, 1, 0x0),
   (0x00200230, 1, 0x0, 1, 0x0),
   (0x00200238, 1, 0x0, 1, 0x0),
   (0x00200240, 1, 0x0, 1, 0x0),
   (0x00200248, 1, 0x0, 1, 0x0),
   (0x00200250, 1, 0x0, 1, 0x0),
   (0x00200258, 1, 0x0, 1, 0x0),
   (0x00200260, 1, 0x0, 1, 0x0),
   (0x00201020, 1, 0x0, 8, 0x100),
   (0x00201028, 1, 0x0, 8, 0x100),
   (0x00201030, 1, 0x0, 8, 0x100),
   (0x00201038, 1, 0x0, 8, 0x100),
   (0x00201040, 1, 0x0, 8, 0x100),
   (0x00201048, 1, 0x0, 8, 0x100),
   (0x00201050, 1, 0x0, 8, 0x100),
   (0x00201058, 1, 0x0, 8, 0x100),
   (0x00201060, 1, 0x0, 8, 0x100),
   (0x00201068, 1, 0x0, 8, 0x100),
   (0x00201070, 1, 0x0, 8, 0x100),
   (0x00201078, 1, 0x0, 8, 0x100),
   (0x00800100, 16, 0x10000, 1, 0x0),
   (0x00800108, 16, 0x10000, 1, 0x0),
   (0x00800110, 16, 0x10000, 1, 0x0),
   (0x00800118, 16, 0x10000, 1, 0x0),
   (0x00800120, 16, 0x10000, 1, 0x0),
   (0x00800128, 16, 0x10000, 1, 0x0)]

/-- Where the 64-bit counters lie (R97): address, instances and stride, elements and stride (part 2). -/
def counterRows1 : List (Nat × Nat × Nat × Nat × Nat) :=
  [(0x00800130, 16, 0x10000, 1, 0x0),
   (0x00800138, 16, 0x10000, 1, 0x0),
   (0x00800140, 16, 0x10000, 1, 0x0),
   (0x00800148, 16, 0x10000, 1, 0x0),
   (0x00A00100, 4, 0x10000, 1, 0x0),
   (0x00A00108, 4, 0x10000, 1, 0x0),
   (0x00A00110, 4, 0x10000, 1, 0x0),
   (0x00A00118, 4, 0x10000, 1, 0x0),
   (0x00A00120, 4, 0x10000, 1, 0x0),
   (0x00A00128, 4, 0x10000, 1, 0x0),
   (0x00A00130, 4, 0x10000, 1, 0x0),
   (0x00A00138, 4, 0x10000, 1, 0x0),
   (0x00900100, 16, 0x10000, 1, 0x0),
   (0x00900108, 16, 0x10000, 1, 0x0),
   (0x00900110, 16, 0x10000, 1, 0x0),
   (0x00900118, 16, 0x10000, 1, 0x0),
   (0x00900120, 16, 0x10000, 1, 0x0),
   (0x00900128, 16, 0x10000, 1, 0x0),
   (0x00900130, 16, 0x10000, 1, 0x0),
   (0x00900138, 16, 0x10000, 1, 0x0),
   (0x00900140, 16, 0x10000, 1, 0x0),
   (0x00900148, 16, 0x10000, 1, 0x0),
   (0x00A80100, 1, 0x0, 1, 0x0),
   (0x00A80108, 1, 0x0, 1, 0x0),
   (0x00A80110, 1, 0x0, 1, 0x0),
   (0x00A80118, 1, 0x0, 1, 0x0),
   (0x00A80120, 1, 0x0, 1, 0x0),
   (0x00A80128, 1, 0x0, 1, 0x0),
   (0x00A80130, 1, 0x0, 1, 0x0),
   (0x00A80138, 1, 0x0, 1, 0x0),
   (0x00A80140, 1, 0x0, 1, 0x0),
   (0x00A80148, 1, 0x0, 1, 0x0),
   (0x00B00200, 1, 0x0, 1, 0x0),
   (0x00B00208, 1, 0x0, 1, 0x0),
   (0x00B00210, 1, 0x0, 1, 0x0),
   (0x00B00218, 1, 0x0, 1, 0x0),
   (0x00B00220, 1, 0x0, 1, 0x0),
   (0x00B00228, 1, 0x0, 1, 0x0),
   (0x00B00230, 1, 0x0, 1, 0x0),
   (0x00B00238, 1, 0x0, 1, 0x0)]

/-- Where the 64-bit counters lie (R97): address, instances and stride, elements and stride (part 3). -/
def counterRows2 : List (Nat × Nat × Nat × Nat × Nat) :=
  [(0x00B00240, 1, 0x0, 1, 0x0),
   (0x00B00248, 1, 0x0, 1, 0x0),
   (0x00B00250, 1, 0x0, 1, 0x0),
   (0x00B80200, 1, 0x0, 1, 0x0),
   (0x00B80208, 1, 0x0, 1, 0x0),
   (0x00B80210, 1, 0x0, 1, 0x0),
   (0x00B80218, 1, 0x0, 1, 0x0),
   (0x00B80220, 1, 0x0, 1, 0x0),
   (0x00B80228, 1, 0x0, 1, 0x0),
   (0x00B80230, 1, 0x0, 1, 0x0),
   (0x00600400, 1, 0x0, 1, 0x0),
   (0x00600408, 1, 0x0, 1, 0x0),
   (0x00600410, 1, 0x0, 1, 0x0),
   (0x00600418, 1, 0x0, 1, 0x0),
   (0x00600420, 1, 0x0, 1, 0x0),
   (0x00600428, 1, 0x0, 1, 0x0),
   (0x00600430, 1, 0x0, 1, 0x0),
   (0x00600438, 1, 0x0, 1, 0x0),
   (0x00600440, 1, 0x0, 1, 0x0),
   (0x00600448, 1, 0x0, 1, 0x0),
   (0x00600450, 1, 0x0, 1, 0x0),
   (0x00E88000, 1, 0x0, 256, 0x80),
   (0x00E88008, 1, 0x0, 256, 0x80),
   (0x00E88010, 1, 0x0, 256, 0x80),
   (0x00E88018, 1, 0x0, 256, 0x80),
   (0x00E88020, 1, 0x0, 256, 0x80),
   (0x00E88028, 1, 0x0, 256, 0x80),
   (0x00E88030, 1, 0x0, 256, 0x80),
   (0x00E88038, 1, 0x0, 256, 0x80),
   (0x00E88040, 1, 0x0, 256, 0x80),
   (0x00E88048, 1, 0x0, 256, 0x80),
   (0x00E88050, 1, 0x0, 256, 0x80),
   (0x00E80100, 1, 0x0, 1, 0x0),
   (0x00D00200, 1, 0x0, 1, 0x0),
   (0x00D00208, 1, 0x0, 1, 0x0),
   (0x00D00210, 1, 0x0, 1, 0x0),
   (0x00D00218, 1, 0x0, 1, 0x0),
   (0x00D00220, 1, 0x0, 1, 0x0),
   (0x00D00228, 1, 0x0, 1, 0x0),
   (0x00D00230, 1, 0x0, 1, 0x0)]

/-- Where the 64-bit counters lie (R97): address, instances and stride, elements and stride (part 4). -/
def counterRows3 : List (Nat × Nat × Nat × Nat × Nat) :=
  [(0x00D00238, 1, 0x0, 1, 0x0),
   (0x00D00240, 1, 0x0, 1, 0x0),
   (0x00D00248, 1, 0x0, 1, 0x0),
   (0x00D00250, 1, 0x0, 1, 0x0),
   (0x00D00258, 1, 0x0, 1, 0x0),
   (0x00D00260, 1, 0x0, 1, 0x0),
   (0x00E00100, 4, 0x10000, 1, 0x0),
   (0x00E00108, 4, 0x10000, 1, 0x0),
   (0x00E00110, 4, 0x10000, 1, 0x0),
   (0x00E00118, 4, 0x10000, 1, 0x0),
   (0x00E00120, 4, 0x10000, 1, 0x0),
   (0x00E00128, 4, 0x10000, 1, 0x0),
   (0x00E00130, 4, 0x10000, 1, 0x0),
   (0x00E00138, 4, 0x10000, 1, 0x0),
   (0x00E00140, 4, 0x10000, 1, 0x0),
   (0x00E00148, 4, 0x10000, 1, 0x0),
   (0x00601000, 1, 0x0, 24, 0x100),
   (0x00601008, 1, 0x0, 24, 0x100)]

/-- Where every 64-bit counter lies. -/
def counterRows : List (Nat × Nat × Nat × Nat × Nat) :=
  counterRows0 ++ counterRows1 ++ counterRows2 ++ counterRows3

end R

/-- A queue's word width and storage by its owner (R630). -/
def queueOwner (q : Nat) : Nat × Nat :=
  if q < 16 then (0, 1024) else if q < 272 then (2, 256) else if q < 784 then (1, 256) else (0, 256)

/-- The value a field's reset column gives at array index `i`. -/
def Rst.at (r : Rst) (i : Nat) : Nat :=
  match r with
  | .lit v => v
  | .byIndex vs => vs.getD i 0
  | .queueWidth => (queueOwner i).1
  | .queueDepth => (queueOwner i).2

/-- The index of offset `o` in an array of `c` elements of stride `s`, with what is left of it. -/
def arrayIndex (o c s : Nat) : Option (Nat × Nat) :=
  if s = 0 then some (0, o) else if o / s < c then some (o / s, o % s) else none

/-- The indexes at which a row lies at offset `o` of its block. -/
def RegRow.find (r : RegRow) (o : Nat) : Option (Nat × Nat) :=
  if o < r.off then none
  else if r.s1 = 0 then if o = r.off then some (0, 0) else none
  else
    match arrayIndex (o - r.off) r.c1 r.s1 with
    | none => none
    | some (i, rest) =>
      match arrayIndex rest r.c2 r.s2 with
      | none => none
      | some (j, z) => if z = 0 then some (i, j) else none

/-- A register address within a block: the instance and the offset. -/
def RegBlock.find (b : RegBlock) (a : Nat) : Option (Nat × Nat) :=
  if a < b.base then none
  else if b.stride = 0 then some (0, a - b.base)
  else if (a - b.base) / b.stride < b.count then some ((a - b.base) / b.stride, (a - b.base) % b.stride) else none

/-- One field that lies at an address: its block, the block's instance, its row and its indexes. -/
structure FieldAt where
  blk : RegBlock
  n   : Nat
  row : RegRow
  i   : Nat
  j   : Nat
  deriving DecidableEq, Repr

/-- The rows of a block that lie at BAR0 address `a`. -/
def RegBlock.fieldsAt (b : RegBlock) (a : Nat) : List FieldAt :=
  match b.find a with
  | none => []
  | some (n, o) => b.rows.filterMap fun r => (r.find o).map fun ij => ⟨b, n, r, ij.1, ij.2⟩

/-- Every field that lies at BAR0 address `a`; an address with none is one that no chapter defines (R19). -/
def fieldsAt (a : Nat) : List FieldAt := R.blocks.flatMap fun b => b.fieldsAt a

/-- The array index that a field's reset value goes by. -/
def FieldAt.index (f : FieldAt) : Nat := if f.row.s2 = 0 then f.i else f.j

/-- The value of the register at `a` after a cold reset (the Reset columns; R19 for an address with no field). -/
def resetWord (a : Nat) : Word :=
  BitVec.ofNat 32 ((fieldsAt a).foldl (fun w f => w + (f.row.rst.at f.index % 2 ^ f.row.width) * 2 ^ f.row.lsb) 0)

end Sys2Proof.Machine
end

