-- ==== Sys2Proof/Machine/State.lean ====
section
/-! DEFINITION. The state of the KB-7 as plain data: every register (by its BAR0 address), counter, memory, queue, table and
mode the spec gives it, the queue of waiting commands, and the model's own fields, each of which says so. -/

namespace Sys2Proof.Machine

open Sys2Proof

/-- A map from numbers to values, as a list in one canonical form: keys strictly rising, and no entry equal to what an
unlisted key reads as. -/
abbrev SMap (α : Type) := List (Nat × α)

/-- What leaves the device: the completions, messages, frames and levels an observer outside sees. -/
inductive Output where
  /-- a register or memory read returns `value` -/
  | readDone (dst : Sender) (addr value : Nat)
  /-- a read ends in Completer Abort (R36) or Unsupported Request (R483) -/
  | readAbort (dst : Sender) (addr : Nat)
  /-- a write on the internal fabric is refused in its own cycle (R35) -/
  | busError (dst : Sender) (addr : Nat)
  /-- a host write was dropped and reported through AER (R36) -/
  | aer (addr : Nat)
  /-- an operation completes to its requester with a status and results -/
  | done (dst : Sender) (status : Nat) (data : List Nat)
  /-- an MSI-X message of a function (R508) -/
  | msix (fn vec : Nat)
  /-- a write to host memory by the host interface (R494) -/
  | hostWrite (fn addr : Nat) (bytes : List Byte)
  /-- a read of host memory is requested (R488) -/
  | hostRead (fn addr len : Nat)
  /-- the first bit of a frame leaves a media port: port, class, length with FCS, octets -/
  | frame (port cls len : Nat) (data : List Byte)
  /-- a Hokuvon frame is handed to the egress of a trunk: type and body -/
  | trunk (t ty : Nat) (body : List Nat)
  /-- a Gulter message of a session: type, sequence number and body -/
  | gulter (session kind seq : Nat) (body : List Nat)
  /-- a control core is interrupted: its line and what it carries -/
  | coreIrq (core line value : Nat)
  /-- a message or an event reaches vendor firmware: what, and its values -/
  | firmware (what : Nat) (data : List Nat)
  /-- a consumer takes a word of a stream queue: its octets, and SOP, EOP, BAD and PRIO in bits 0, 1, 2 and 5:3 -/
  | word (dst : Sender) (q : Nat) (data : List Byte) (side : Nat)
  /-- a level of an output pin changes: PPS, ALERT_N, THERM_N and the pads -/
  | pin (pin : Nat) (level : Bool)
  deriving DecidableEq, Repr

/-- A Squall entry (R589). -/
structure SquallEntry where
  time     : Nat
  unit     : Nat
  severity : Nat
  event    : Nat
  inst     : Nat
  param0   : Nat
  param1   : Nat
  deriving DecidableEq, Repr

/-- The entry a place of the log holds before any is written there. -/
def SquallEntry.blank : SquallEntry := ⟨0, 0, 0, 0, 0, 0, 0⟩

/-- The latest written entry of a unit, which the repetition filter of R592 compares with. -/
structure SquallLast where
  inst  : Nat
  event : Nat
  at_   : Nat
  deriving DecidableEq, Repr

/-- The Squall log (R589 to R594). The count is the 64-bit register at 0x00F0_0010. -/
structure Squall where
  entries    : SMap SquallEntry
  last       : SMap (Option SquallLast)
  /-- fabric cycles of the transients of a unit and instance (key unit × 2^16 + instance) in the last second (R581) -/
  transients : SMap (List Nat)
  deriving DecidableEq, Repr

/-- The power state of an island (R28). -/
inductive LullState where
  | awake
  | waking (since : Nat)
  | lull
  deriving DecidableEq, Repr

/-- One function's host interface outside its register page: whether it exists and its MSI-X table (R479, R508). -/
structure HostFunction where
  exists_  : Bool
  msixEn   : Bool
  masked   : SMap Bool
  pendingV : SMap Bool
  flrSince : Option Nat
  deriving DecidableEq, Repr

/-- A function after reset: F0 exists; a vector reads as masked. -/
def HostFunction.init (n : Nat) : HostFunction := ⟨n == 0, false, [], [], none⟩

/-- A held allocation (R108). -/
structure HeldAlloc where
  who   : Sender
  req   : Nat
  cls   : AllocClass
  since : Nat
  deriving DecidableEq, Repr

/-- Billow: the bitmap of each pool as the set of its allocated cells, and each pool's hold FIFO, oldest first (R104,
R108). Levels and free counts are the pools' registers. -/
structure Billow where
  used : SMap (SMap Bool)
  held : SMap (List HeldAlloc)
  deriving DecidableEq, Repr

/-- Whose a withheld write is (R123): an entry of the device's own, a host queue's descriptor, or a word of QUEUE_WRITE. -/
inductive WordOwner where
  | entry
  | desc
  | sender (who : Sender)
  deriving DecidableEq, Repr

/-- A stream queue (R116 to R124). Its flags and counts are its registers. -/
structure StreamQueue where
  /-- committed packets not yet started, oldest first -/
  packets   : List (List QWord)
  /-- words of the packet being written, not yet visible -/
  openPkt   : List QWord
  /-- the producer's words are ignored up to the EOP of a bad packet (R117) -/
  rewinding : Bool
  /-- unread words of the packet being read -/
  reading   : List QWord
  /-- the last word the consumer read -/
  last      : QWord
  /-- host writes withheld in KB3_COMPAT mode, oldest first (R123) -/
  stalled   : List (QWord × WordOwner)
  /-- fabric cycle at which the oldest withheld write began to wait -/
  since     : Nat
  deriving DecidableEq, Repr

/-- A queue after a cold reset. -/
def StreamQueue.init : StreamQueue := ⟨[], [], false, [], QWord.zero, [], 0⟩

/-- A frame in the egress path: its destination (a leg, 16,384 + trunk, or 16,640 + port for a frame sent outside every
destination, R130, R491), class, port, length with FCS, cell, age reference in fabric cycles (R62, R140), and whether its
demotion has been counted (R149). -/
structure EFrame where
  dest    : Nat
  cls     : Nat
  port    : Nat
  len     : Nat
  cell    : Nat
  age     : Nat
  demoted : Bool
  /-- the octets, without FCS -/
  data    : List Byte
  deriving DecidableEq, Repr

/-- A shaper (R135 to R138): its level counts bytes in units of 2^-32, as it stood at 64 ns update `upd`. -/
structure Shaper where
  rate   : Nat
  en     : Bool
  policy : Nat
  burst  : Nat
  level  : Int
  upd    : Nat
  deriving DecidableEq, Repr

/-- A shaper after a cold reset (R135, R164). -/
def Shaper.init : Shaper := ⟨0, false, 0, 65536, 65536 * 4294967296, 0⟩

/-- A two-rate three-colour policer (R142): its buckets count bytes in units of 1/1,500,000, what CIR or PIR 1 gains in a
fabric cycle, as they stood at cycle `upd`. -/
structure Policer where
  cir        : Nat
  en         : Bool
  yellowDrop : Bool
  pir        : Nat
  cbs        : Nat
  pbs        : Nat
  tc         : Nat
  tp         : Nat
  upd        : Nat
  deriving DecidableEq, Repr

/-- A policer after a cold reset (R142, R164). -/
def Policer.init : Policer := ⟨0, false, false, 0, 16384, 16384, 16384 * 1500000, 16384 * 1500000, 0⟩

/-- A port's DWRR (R133): the deficit of each of classes 2 to 6, the class being visited and whether its quantum has been
added in this visit. -/
structure Dwrr where
  deficit : SMap Nat
  cur     : Nat
  visited : Bool
  deriving DecidableEq, Repr

/-- A port's DWRR after reset. -/
def Dwrr.init : Dwrr := ⟨[], 2, false⟩

/-- The egress scheduler (R130 to R145). -/
structure Egress where
  /-- class queues, oldest first, by destination × 8 + class -/
  queues   : SMap (List EFrame)
  /-- copies released by the reorder stage of each port and not yet enqueued (R32) -/
  released : SMap (List EFrame)
  shapers  : SMap Shaper
  policers : SMap Policer
  dwrr     : SMap Dwrr
  /-- the destination served last, by port × 8 + class (R133) -/
  turn     : SMap Nat
  /-- the fabric cycle until which each port is sending -/
  busy     : SMap Nat
  /-- the fabric cycle of each port's latest sample (R144) -/
  sampled  : SMap Nat
  deriving DecidableEq, Repr

/-- A snapshot of an admin gate list and its takeover time (R150). -/
structure GateSnapshot where
  entries : List (Nat × Nat)
  cycle   : Nat
  base    : Nat
  takeover : Nat
  deriving DecidableEq, Repr

/-- A port's Rainband gates (R146 to R155); the list in effect is its registers. -/
structure Gates where
  snapshot   : Option GateSnapshot
  /-- nanosecond of device time at which the present cycle of the list in effect began -/
  cycleStart : Nat
  /-- BASE of the list in effect -/
  base       : Nat
  /-- after a step, the nanosecond of device time at which the list restarts at entry 0 (R155) -/
  resume     : Option Nat
  deriving DecidableEq, Repr

/-- Gates after reset. -/
def Gates.init : Gates := ⟨none, 0, 0, none⟩

/-- An entry of a port's transmit timestamp FIFO (R161). -/
structure TxTs where
  ns     : Nat
  sec    : Nat
  seqId  : Nat
  domain : Nat
  msg    : Nat
  deriving DecidableEq, Repr

/-- The time base (R152): whole seconds, nanoseconds below 10^9, and its 32 fractional bits of a
nanosecond. -/
structure TimeBase where
  sec      : Nat
  ns       : Nat
  frac     : Nat
  /-- fabric cycle of the rising edge of a PPS pulse that is still high (R157) -/
  ppsHigh  : Option Nat
  /-- the latest second whose PPS edge is not due: it has been sent, or the time did not pass its start as an output -/
  ppsSec   : Nat
  /-- fabric cycle of the latest change of PPS_DIR (R612) -/
  dirAt    : Option Nat
  /-- seconds captured with TIM_PPS_CAPT_NS -/
  captSec  : Nat
  /-- transmit timestamps of each port, oldest first -/
  txts     : SMap (List TxTs)
  deriving DecidableEq, Repr

/-- A receiver entry of a route descriptor (R85). -/
structure RouteEntry where
  dest    : Nat
  keySlot : Nat
  rstate  : Nat
  ssrcOut : Nat
  tsOff   : Nat
  deriving DecidableEq, Repr

/-- A version of a stream's route that has not retired (R86), and how many packets classified under it are in flight. -/
structure RouteVersion where
  vid      : Nat
  ptr      : Nat
  ver      : Nat
  inflight : Nat
  deriving DecidableEq, Repr

/-- A packet's route snapshot (R39) with what its classification found (R79 to R83). -/
structure RouteSnap where
  stream     : Nat
  vid        : Nat
  entries    : List RouteEntry
  layer      : Nat
  frameStart : Bool
  switchPt   : Bool
  unresolved : Bool
  deriving DecidableEq, Repr

/-- What becomes of a packet once its last bit is in and its checks pass. -/
inductive RxPlan where
  /-- its slow-path lookup runs (R76) -/
  | waiting
  | discard
  /-- to an exception queue with this reason, for this leg where it is known (R93, R94) -/
  | exception (reason : Nat) (leg : Option Nat)
  /-- a PTP message, to the time base (R63, R161) -/
  | ptp
  /-- authenticated and decrypted, then tapped with this reason, or handled as media when 0 (R38, R92) -/
  | decrypt (tap : Nat)
  /-- to the trunk unit (R68, R393) -/
  | trunk
  /-- replication of a packet that needs no decryption, or has had it -/
  | media
  deriving DecidableEq, Repr

/-- A received packet. `ts` is its ingress timestamp and `age` its age reference (R62); `tag` its ingress sequence tag
(R32); `pay` and `payLen` place its UDP payload; `op` is its cipher operation; `rtp` the plaintext once decrypted. -/
structure RxPacket where
  id     : Nat
  port   : Nat
  frame  : List Byte
  len    : Nat
  ts     : Nat
  age    : Nat
  epoch  : Nat
  tag    : Nat
  kind   : Nat
  key    : List Byte
  h0     : Nat
  entry  : List Byte
  pay    : Nat
  payLen : Nat
  cell   : Nat
  udpOk  : Bool
  ended  : Bool
  plan   : RxPlan
  op     : Nat
  rtp    : List Byte
  snap   : Option RouteSnap
  deriving DecidableEq, Repr

/-- A copy on its way from the cipher to its egress port (R32, R33): its operation, its ingress port, its header template
and, once the operation is done, its frame or its removal. -/
structure EgressCopy where
  op     : Nat
  inPort : Nat
  frame  : EFrame
  hdr    : List Byte
  flags  : Nat
  sealed : Option Bool
  deriving DecidableEq, Repr

/-- A packet of an access unit that is being reassembled (R42). -/
structure MediaPkt where
  leg     : Nat
  seq     : Nat
  ts      : Nat
  marker  : Bool
  arrival : Nat
  payload : List Byte
  deriving DecidableEq, Repr

/-- An access unit that is complete and waits for its handover (R42, R436). -/
structure AccessUnit where
  stream  : Nat
  packets : List MediaPkt
  /-- the sequence number of the packet whose new timestamp ended it, if one did -/
  until_  : Option Nat
  deriving DecidableEq, Repr

/-- An entry of the on-die cache (R70): its key, its entry number in the table, and its octets. -/
structure CacheWay where
  key   : List Byte
  entry : Nat
  data  : List Byte
  deriving DecidableEq, Repr

/-- A set of the on-die cache (R70): its 8 ways, and the 7 bits of its pseudo-LRU tree, bit 1 being the root. -/
structure CacheSet where
  ways : SMap (Option CacheWay)
  tree : Nat
  deriving DecidableEq, Repr

/-- A set that holds nothing. -/
def CacheSet.empty : CacheSet := ⟨[], 0⟩

/-- A SELECT or STATE_WRITE that waits for packets classified before it (R39, R84): the receiver state, those packets, and the octets of a
STATE_WRITE or the selection of a SELECT. -/
structure SelectChange where
  rstate : Nat
  after  : List Nat
  bytes  : Option (List Byte)
  sel    : Nat
  exact  : Bool
  deriving DecidableEq, Repr

/-- A command of the FCT command engine that runs, with its outcome (R72). -/
structure FctJob where
  op     : Nat
  result : Nat
  bucket : Nat
  way    : Nat
  data   : Option (List Byte)
  deriving DecidableEq, Repr

/-- The relay (R55 to R99) outside its registers and its tables in HBM. -/
structure Relay where
  /-- received packets, in the order of their classification -/
  packets      : List RxPacket
  nextId       : Nat
  /-- the latest ingress tag of each media port (R32) -/
  tags         : SMap Nat
  /-- copies whose encryption runs or that wait in a reorder stage, in the order of issue -/
  copies       : List EgressCopy
  cache        : SMap CacheSet
  job          : Option FctJob
  /-- a changed RLY_HASH_SEED waits for the running command (R97) -/
  clearPending : Bool
  versions     : SMap (List RouteVersion)
  /-- receiver states in PENDING_DOWN (R84) -/
  down         : SMap Bool
  /-- the exception token bucket (R95): spent tokens, in units of 1 / (100 × 1.5 × 10^9) packets, as of a cycle -/
  excSpent     : Nat
  excAt        : Nat
  /-- access units in reassembly, by stream -/
  building     : SMap (List MediaPkt)
  units        : List AccessUnit
  /-- by stream: the sequence number of the last packet handed over, and the TASK_ID of the latest DECODE task -/
  lastSeq      : SMap (Option Nat)
  lastTask     : SMap Nat
  /-- access units dropped for want of a slot (AU_DROP, R436) -/
  auDrop       : Nat
  /-- changes of selections that wait (R39), in the order of their commands -/
  selects      : List SelectChange
  /-- frames that a port in LOOPBACK has sent and not yet received, oldest first (R98) -/
  looped       : SMap (List (List Byte))
  deriving DecidableEq, Repr

/-- The states of a source channel (R275). -/
inductive SrcMode where
  | off | priming | running
  deriving DecidableEq, Repr

/-- A source channel of the Mix Matrix (R273 to R275): its state, the IN_RATE in effect, its FIFO oldest first, the 24 latest
samples of a 48 kHz converter's delay, the converter's position in units of 2^-32 of an input sample, and its last output. -/
structure MixSource where
  mode : SrcMode
  rate : Nat
  fifo : List Int
  hist : List Int
  pos  : Nat
  last : Int
  deriving DecidableEq, Repr

/-- A channel after a cold reset. -/
def MixSource.init : MixSource := ⟨.off, 5, [], [], 0, 0⟩

/-- A step in progress (R282): the source it steps, or none for OUT_GAIN, its new value, n0, and the sample of its timeout. -/
structure MixStep where
  source : Option Nat
  goal    : Nat
  from_  : Nat
  limit  : Nat
  deriving DecidableEq, Repr

/-- What the mixer uses of a bus (R277, R278, R282): MODE and PARENT, OUT_GAIN as it stands, the gain (or, of a MINUS bus,
w) of each source as it stands, the steps in progress, and its latest S. -/
structure MixBus where
  mode   : Nat
  parent : Nat
  out    : Nat
  terms  : List (Nat × Nat)
  steps  : List MixStep
  prev   : Int
  deriving DecidableEq, Repr

/-- A bus after a cold reset: MODE OFF. -/
def MixBus.init : MixBus := ⟨0, 0, 0, [], [], 0⟩

/-- A pending swap group (R281) and its target, counted in samples since frame 0. -/
structure SwapGroup where
  buses  : List Nat
  tag    : Nat
  target : Nat
  deriving DecidableEq, Repr

/-- A talker of a conference (R271): its roster identifier, the cycle it joined and the cycle it was last active, and its score. -/
structure Talker where
  id     : Nat
  joined : Nat
  active : Nat
  score  : Nat
  deriving DecidableEq, Repr

/-- The Mix Matrix (R273 to R287) outside its registers, and what vendor firmware holds of talkers and decodes. Frames are
counted from 0 without wrapping; MXM_FRAME is `next` modulo 2^32. -/
structure Mxm where
  sources  : SMap MixSource
  active   : SMap (List Byte)
  shadow   : SMap (List Byte)
  buses    : SMap MixBus
  waiting  : List SwapGroup
  /-- groups whose swap is applied and whose steps are not all made, with their tags -/
  stepping : List (List Nat × Nat)
  /-- frames begun, the next frame to be mixed, the cycle of the latest T_F, and the cycle of the next -/
  began    : Nat
  next     : Nat
  tf       : Nat
  tfNext   : Nat
  /-- the cycle at which the latest frame boundary was taken -/
  boundary : Option Nat
  /-- the buses' output areas, by bus × 8,192 + offset (R279) -/
  area     : SMap Byte
  /-- FRAME[h] of every output area, by half -/
  frames   : SMap Nat
  /-- the result that BUSY hides: RESULT and LATE (R291) -/
  job      : Option (Nat × Bool)
  /-- each conference's talkers (R271) and the frame of their last update -/
  talkers  : SMap (List Talker)
  talkedAt : SMap Nat
  /-- decoded candidates of the module: leg and score (R272) -/
  cands    : SMap Nat
  /-- legs that wait for a decode slot -/
  deferred : SMap Bool
  /-- the cycle of each leg's latest jitter-buffer target (R269) -/
  jbAt     : SMap Nat
  deriving DecidableEq, Repr

/-- An entry of a Gulter WRITE that waits for its action: session, sequence number and entry. -/
structure GulToken where
  session : Nat
  seq     : Nat
  entry   : Nat
  deriving DecidableEq, Repr

/-- Who waits for the outcome of an operation: a requester (R498), or an entry of a Gulter WRITE. -/
inductive Asker where
  | unit (who : Sender)
  | gulter (t : GulToken)
  deriving DecidableEq, Repr

/-- A Gulter message of the device (R524): type, SEQ, FLAGS, STATUS and body. -/
structure GulMsg where
  ty     : Nat
  seq    : Nat
  flags  : Nat
  status : Nat
  body   : List Byte
  deriving DecidableEq, Repr

/-- A request that the dictionary server processes in order (R525, R532). -/
inductive GulReq where
  | read (addrs : List ObjAddr)
  | write (confirm : Bool) (entries : List ObjWrite)
  | blockBegin (addr : ObjAddr) (read : Bool) (total : Nat)
  | blockSeg (seg : GulSeg)
  | blockEnd (crc : Nat)
  | subscribe (addr : ObjAddr) (periodic : Bool) (periodMs : Nat)
  | unsubscribe (id : Nat)
  | keepalive
  | close
  deriving DecidableEq, Repr

/-- A block transfer of a session (R534 to R536): object and instance, direction, TOTAL, the octets received or the snapshot, and the
cycle of its latest message. -/
structure GulBlock where
  obj      : Nat
  inst     : Nat
  read     : Bool
  total    : Nat
  octets   : SMap (Option Byte)
  lastAt   : Nat
  deriving DecidableEq, Repr

/-- A NOTIFY of a management session that no NOTIFY_ACK has named (R538): its message, subscription and instance, how often it was
sent, when last, and whether a later value replaced its own since. -/
structure GulNote where
  msg    : GulMsg
  sub    : Nat
  inst   : Nat
  sends  : Nat
  lastAt : Nat
  newer  : Bool
  deriving DecidableEq, Repr

/-- A session (R526 to R533): its path, its role (0 OBSERVER, 1 OPERATOR, 2 ADMIN, 3 TENANT), whether it is OPEN (else AUTH_WAIT), its
client key's number, the cycle of its latest client message, LAST, the replies to its last requests, the requests held for a
predecessor with the cycle they came, its NOTIFY numbering and the NOTIFY messages not yet acknowledged, its block, LOG_FROM, its
attestation report, the octets of its OPEN and OPEN_REPLY bodies, the device's ephemeral key, the two 36-octet outputs of R527, the
counter of its next datagram, and the receive window. -/
structure GulSession where
  path    : GulPath
  role    : Nat
  isOpen  : Bool
  key     : Option Nat
  heard   : Nat
  last    : Nat
  replies : List GulMsg
  held    : List (Nat × Nat × GulReq)
  noteSeq : Nat
  notes   : List GulNote
  block   : Option GulBlock
  logFrom : Nat
  report  : List Byte
  hello   : List Byte
  answer  : List Byte
  secret  : Nat
  keys    : Option (List Byte × List Byte)
  tx      : Nat
  rxAny   : Bool
  rxTop   : Nat
  rxSeen  : Nat
  deriving DecidableEq, Repr

/-- A subscription (R537): SUB_ID, session, object, instance (0xFFFF for every one), mode and period in ms, the cycle of its next sample,
and the value last sent of each instance. -/
structure GulSub where
  id       : Nat
  session  : Nat
  obj      : Nat
  inst     : Nat
  periodic : Bool
  periodMs : Nat
  nextAt   : Nat
  sent     : SMap (Option (List Byte))
  deriving DecidableEq, Repr

/-- A WRITE whose reply waits for an entry's action: session, sequence number, and the statuses there are. -/
structure GulWait where
  session  : Nat
  seq      : Nat
  statuses : List (Option Nat)
  deriving DecidableEq, Repr

/-- A NOTIFY that waits for its mailbox channel (R523, R537): its session, subscription and instance. -/
structure GulWaiting where
  session : Nat
  sub     : Nat
  inst    : Nat
  msg     : GulMsg
  deriving DecidableEq, Repr

/-- The dictionary server (R516 to R545): its sessions, subscriptions, waiting WRITEs, and for each function the replies and the
notifications that wait for their mailbox channel (R523). -/
structure Gulter where
  sessions : SMap (Option GulSession)
  subs     : List GulSub
  waits    : List GulWait
  replyQ   : SMap (List (Nat × GulMsg))
  noteQ    : SMap (List GulWaiting)
  deriving DecidableEq, Repr

/-- A video packet that the packetizer holds for its slot (R225): the leg, the cycle of its slot, whether it is its picture's last, and its
RTP payload. -/
structure PacedPacket where
  leg     : Nat
  due     : Nat
  marker  : Bool
  payload : List Byte
  deriving DecidableEq, Repr

/-- What vendor firmware keeps of streams and legs: the decode context of each decoded stream (R197), the Mix Matrix source that carries
each leg's contributions (R285), the cycle at which each connecting leg began (R545), the paced video packets (R225), and the sum of the
BG_SLOTS of each viewer's records, by the address of its context (R265). -/
structure Firmware where
  streamCtx  : SMap Nat
  sources    : SMap (Option Nat)
  connecting : SMap (Option Nat)
  paced      : List PacedPacket
  bgSlots    : SMap Nat
  /-- the MINUS bus of each talker (R285) -/
  ownBus     : SMap (Option Nat)
  /-- legs without a level extension that hold a decode slot (R272) -/
  noLevel    : SMap Bool
  /-- tile sets whose entry request waits for its first allowed tick (R253) -/
  waiting    : SMap Bool
  deriving DecidableEq, Repr

/-- The supply states of R606. -/
inductive Supply where
  | off | ramp | run | fault
  deriving DecidableEq, Repr

/-- A once-setting write (R560, R562): the subindex of its object, its octets, and who waits for it. -/
structure OnceBurn where
  what  : Nat
  value : List Byte
  asker : Asker
  deriving DecidableEq, Repr

/-- Start-up and firmware (R546 to R573): the supply; whether PERST_N has been seen high since the last reset, and whether a warm reset is
held; the cycle of the latest KICK while the watchdog is armed, and that of the image's start; the banks still to try; the header of the running image, and whether it came
through the recovery window; the endorsement of the identity; the pending owner; the once-setting writes, the one being burnt first; the
recovery window; the state, session, offset and owner of the staging; and the flash: the octets written to it, and the banks erased. -/
structure Boot where
  supply   : Supply
  perst    : Bool
  held     : Bool
  wd       : Option Nat
  started  : Nat
  order    : List Nat
  header   : List Byte
  window   : Bool
  endorse  : List Byte
  pending  : Option (List Byte)
  burns    : List OnceBurn
  rcv      : SMap Byte
  stage    : Nat
  stageBy  : Nat
  stageOff : Nat
  stageFor : List Byte
  flash    : SMap (Option Byte)
  erased   : SMap Bool
  deriving DecidableEq, Repr

/-- Start-up at a cold reset: the rails are ramping (R606). -/
def Boot.init : Boot :=
  ⟨.ramp, false, false, none, 0, [], [], false, [], none, [], [], 0, 0, 0, [], [], []⟩

/-- A beacon modulator (R334 to R340): whether a frame is armed, and its START as a frame number that does not wrap; the frame
being sent: its TOKEN, SHIFT, LEVEL and 2,480 differential chips as read at its start, the samples sent, and whether it is
ending with a fall. -/
structure Modulator where
  armed   : Option Nat
  sending : Bool
  token   : Nat
  shift   : Nat
  level   : Nat
  chips   : List Bool
  sent    : Nat
  falling : Bool
  deriving DecidableEq, Repr

/-- A modulator after reset. -/
def Modulator.init : Modulator := ⟨none, false, 0, 0, 0, [], 0, false⟩

/-- A locked receiver (R344): its qualifier at lock, the bits decided since, newest first, and the RSSI code latched at its sync
word, if it has matched. -/
structure Receiver where
  qual : Nat
  bits : List Bool
  rssi : Option Nat
  deriving DecidableEq, Repr

/-- A detector channel (R341 to R344): its floor in steps of 0.05 dB below 0 dBFS, its gain in steps of 0.5 dB, the gate, the
SHIFT and cycle of the pass that froze its AGC, and its locked receivers by SHIFT. -/
structure Detector where
  floor  : Nat
  agc    : Nat
  gate   : Bool
  frozen : Option (Nat × Nat)
  locked : SMap (Option Receiver)
  deriving DecidableEq, Repr

/-- A detector after its enabling (R341). -/
def Detector.init : Detector := ⟨1400, 60, false, none, []⟩

/-- The states of a probe (R339); an IDLE leg has none. -/
inductive ProbeState where
  | queued | armed | sending | collect
  deriving DecidableEq, Repr

/-- A probe of a leg (R337 to R339): its conference, modulator, token, window's first frame, and bus. -/
structure Probe where
  leg    : Nat
  conf   : Nat
  st     : ProbeState
  mod    : Nat
  token  : Nat
  window : Nat
  bus    : Nat
  deriving DecidableEq, Repr

/-- An event that vendor firmware has from the SDG (R346, R347): its type, detector, token, RSSI code and cycle. -/
structure SdgEvent where
  type : Nat
  det  : Nat
  token : Nat
  rssi : Nat
  at_  : Nat
  deriving DecidableEq, Repr

/-- Sundog (R334 to R351) outside its registers, and what vendor firmware holds of probes and links. -/
structure Sdg where
  mods   : SMap Modulator
  dets   : SMap Detector
  /-- running and queued probes, in the order of their requests -/
  probes : List Probe
  events : List SdgEvent
  /-- links between legs, each pair once (R346) -/
  links  : List (Nat × Nat)
  /-- the cycle of the latest test of each pair of legs (R339) -/
  tests  : SMap Nat
  deriving DecidableEq, Repr

/-- The states of a key slot (R368). -/
inductive SlotState where
  | empty | active | activeTwo | exhausted | draining
  deriving DecidableEq, Repr

/-- One generation of a key slot (R362, R367, R370): its number, suite and keys, its invocation counter, whether its
grace period has ended, whether it posted REKEY_REQ, and whether an index under it has ended. -/
structure KeyGen where
  num         : Nat
  suite       : Nat
  decryptOnly : Bool
  keys        : List (List Byte)
  count       : Nat
  closed      : Bool
  rekey       : Bool
  ended       : Bool
  deriving DecidableEq, Repr

/-- Who waits for an ERASE: nobody, the KSL port, or a Gulter session's request. -/
inductive EraseBy where
  | nobody
  | ksl
  | gulter (t : GulToken)
  deriving DecidableEq, Repr

/-- A key slot: its generations, newest first, the highest number written, and the cycle its grace period ends. -/
structure KeySlot where
  state    : SlotState
  gens     : List KeyGen
  genNo    : Nat
  grace    : Option Nat
  erasing  : EraseBy
  decCount : Nat
  deriving DecidableEq, Repr

/-- A key slot after a cold reset. -/
def KeySlot.init : KeySlot := ⟨.empty, [], 0, none, .nobody, 0⟩

/-- An operation in flight, with what it binds (R356): the generation, the older generation it may also try, the
counter value and the index. -/
structure CipherOp where
  id      : Nat
  core    : Nat
  req     : CipherReq
  gen     : KeyGen
  alt     : Option KeyGen
  counter : Nat
  index   : Nat
  outLen  : Nat
  level   : Nat
  deriving DecidableEq, Repr

/-- What a completed operation left for the unit that started it: status, generation, counter or index, output. -/
structure CipherResult where
  status : Nat
  gen    : Nat
  value  : Nat
  out    : List Byte
  deriving DecidableEq, Repr

/-- The random source (R383, R384). -/
inductive RngState where
  | off | starting | ready | retesting | failed
  deriving DecidableEq, Repr

/-- A PKA command in progress: what it will leave in the result registers. -/
structure PkaJob where
  status : Nat
  result : List Nat
  deriving DecidableEq, Repr

/-- The cipher complex (R355 to R390) outside its registers and the contexts in HBM. -/
structure Cpx where
  slots    : SMap KeySlot
  waiting  : List (Nat × CipherReq)
  ops      : List CipherOp
  nextId   : Nat
  results  : SMap (Option CipherResult)
  /-- pending marks of received indexes (R374): context, SRTCP, index -/
  marks    : List (Nat × Bool × Nat)
  /-- the KSL command that runs, with its status; `none` as status while an ERASE drains -/
  ksl      : Option (Nat × Option Nat)
  pka      : Option PkaJob
  /-- the numbers the last PKA command gave: the model's own place for them -/
  pkaOut   : List Nat
  /-- the PKA's private registers (R382) -/
  priv     : SMap Nat
  /-- the held x-coordinate -/
  heldX    : Option Nat
  rng      : RngState
  deriving DecidableEq, Repr

/-- The states of a trunk (R412). -/
inductive TrunkState where
  | disabled | handshake | up | probe1 | probe2 | down | healing
  deriving DecidableEq, Repr

/-- A RELIABLE body in the send window (R404): SEQ, octets, whether it has been sent, the cycle of its latest sending, its timer in
microseconds, and how many later SEQs an ACK has marked. -/
structure SentBody where
  seq   : Nat
  body  : List Byte
  sent  : Bool
  at_   : Nat
  rto   : Nat
  later : Nat
  deriving DecidableEq, Repr

/-- A receive window of counters (R402): the highest seen and the counters seen within 127 of it. -/
structure CounterWindow where
  top  : Option Nat
  seen : List Nat
  deriving DecidableEq, Repr

/-- What a side of a handshake or a rekey holds (R399, R401): the private key and nonce of its own message, and the peer's public
key and nonce once accepted. -/
structure KeyExchange where
  d     : Option Nat
  nonce : List Byte
  peer  : Option (Nat × Nat)
  peerNonce : List Byte
  deriving DecidableEq, Repr

/-- A key exchange that has not begun. -/
def KeyExchange.init : KeyExchange := ⟨none, [], none, []⟩

/-- A trunk (R391 to R407, R412) outside its registers. Sequence numbers and octet totals count from SYN. -/
structure Trunk where
  st       : TrunkState
  hs       : KeyExchange
  helloAt  : Nat
  peerId   : Option (Nat × Nat)
  keyAt    : Nat
  rekeying : Bool
  /-- by KEY_PHASE: the low bit of the receive slot's generation (R401), and the window (R402) -/
  gens     : SMap (Option Nat)
  windows  : SMap CounterWindow
  /-- heartbeats: the next HB_SEQ, the cycles of those sent, the last received, its cycle, and the start of the present interval -/
  hbNext   : Nat
  hbSent   : SMap Nat
  hbAt     : Nat
  hbGot    : Nat
  missFrom : Nat
  /-- the first HB_SEQ sent since DOWN, the last one counted, and the count -/
  downSeq  : Nat
  counted  : Nat
  count    : Nat
  resync   : Bool
  probeId  : Nat
  probeAt  : Nat
  /-- SRTT and RTTVAR in microseconds -/
  rtt      : Option (Nat × Nat)
  /-- sending: next SEQ, bodies unacknowledged or waiting for credit, octets sent, CREDIT_LIMIT, and whether the frame with
  SYN is unacknowledged -/
  txNext   : Nat
  tx       : List SentBody
  txOctets : Nat
  limit    : Nat
  synDue   : Bool
  /-- receiving: next SEQ, bodies held early, octets delivered, the last CREDIT_LIMIT given, frames unacknowledged, a gap, and the
  cycle of the latest ACK -/
  rxNext   : Nat
  rxHeld   : SMap (List Byte)
  rxOctets : Nat
  granted  : Nat
  unacked  : Bool
  gap      : Bool
  ackAt    : Nat
  /-- the pool of the latest trunk frame's cell -/
  pool     : Option Nat
  deriving DecidableEq, Repr

/-- A trunk after reset. -/
def Trunk.init : Trunk :=
  { st := .disabled, hs := KeyExchange.init, helloAt := 0, peerId := none, keyAt := 0, rekeying := false, gens := [], windows := [],
    hbNext := 0, hbSent := [], hbAt := 0, hbGot := 0, missFrom := 0, downSeq := 0, counted := 0, count := 0, resync := false,
    probeId := 0, probeAt := 0, rtt := none, txNext := 0, tx := [], txOctets := 0, limit := 0, synDue := true, rxNext := 0, rxHeld := [],
    rxOctets := 0, granted := 0, unacked := false, gap := false, ackAt := 0, pool := none }

/-- An entry of a conference's journal (R417). -/
structure JournalEntry where
  epoch  : Nat
  time   : Nat
  valid  : Bool
  /-- a roster identifier, or none for the conference itself -/
  object : Option Nat
  op     : Nat
  arg    : Nat
  /-- an operation that has not taken effect (R415) -/
  queued : Bool
  deriving DecidableEq, Repr

/-- What a module holds of a conference's cascade (R409 to R419) beside the objects of 0x8200: the modules that serve it, those it
has lost, its roster, its journal, the entries received for replay, the latest TALKER_REPORT of each module, the TALKER_SET that
waits and the mix frame under way when it came, the streams on offer, the operations forwarded and not yet answered, and whether it was ANCHOR by
PROMOTE. -/
structure Cascade where
  members : List Nat
  lost    : List Nat
  roster  : SMap Presence
  journal : List JournalEntry
  replay  : List JournalEntry
  reports : SMap (List (Nat × Nat))
  setDue  : Option (List Nat)
  setAt   : Nat
  offers  : List (Nat × Nat)
  asked   : List (Asker × Nat × Nat)
  done    : List JournalEntry
  joining : Bool
  deriving DecidableEq, Repr

/-- A conference that no cascade serves. -/
def Cascade.init : Cascade := ⟨[], [], [], [], [], [], none, 0, [], [], [], false⟩

/-- The trunk unit and the cascade logic above it. -/
structure Trk where
  trunks   : SMap Trunk
  /-- frames in the trunk unit, oldest first: the packet (its `op` is its cipher operation, 0 for none) and the trunk -/
  frames   : List (RxPacket × Nat)
  confs    : SMap Cascade
  /-- the source channel of each (trunk, conference), by trunk × 4,096 + conference (R397) -/
  sources  : SMap Nat
  deriving DecidableEq, Repr

/-- The states of a task (R433). DONE lasts no longer than the step that completes a task. -/
inductive TaskState where
  | free | held | ready | running
  deriving DecidableEq, Repr

/-- The charge of a running task (R440, R441) in units of 0.001 pJ: when it started, its power per nanosecond and its
estimate. -/
structure Charge where
  start : Nat
  power : Nat
  total : Nat
  deriving DecidableEq, Repr

/-- A slot of the HTS (R425 to R436). -/
structure Task where
  inc        : Nat
  st         : TaskState
  /-- KIND, which a fill changes (R428) -/
  kind       : Nat
  desc       : List Byte
  counter    : Nat
  armed      : Bool
  evtPending : Bool
  /-- successors with MODE FIRST_STRIP or not -/
  succs      : List (Nat × Bool)
  strips     : Nat
  buf        : Nat
  followers  : List Sender
  readyAt    : Nat
  deferred   : Bool
  unit       : Nat
  effort     : Nat
  stepped    : Bool
  again      : Bool
  charge     : Charge
  /-- energy measured while it runs, in pJ (R442) -/
  energy     : Nat
  deriving DecidableEq, Repr

/-- A slot that no task has taken. -/
def Task.init : Task := ⟨0, .free, 0, [], 0, false, false, [], 0, 0, [], 0, false, 0, 0, false, false, ⟨0, 0, 0⟩, 0⟩

/-- The Hardware Task Scheduler (R425 to R453). -/
structure Hts where
  slots     : SMap Task
  /-- the latest frame of each event kind that has fired (R432), FRAME_START 1 and MIX_DONE 2 -/
  events    : SMap (Option Nat)
  /-- the cycle until which each island last had a ready task it could serve (R439) -/
  lastReady : SMap Nat
  deriving DecidableEq, Repr

/-- Updraft's state outside its registers (R440 to R448). Energies in 0.001 pJ are marked so; others are pJ. -/
structure Updraft where
  /-- B_W of the current window and its committed charge, in 0.001 pJ -/
  budget    : Nat
  commit    : Nat
  windowAt  : Nat
  /-- package energy, energy of tasks and of STEP and SKIP tasks measured in this window -/
  package   : Nat
  tasks     : Nat
  shed      : Nat
  measured  : Bool
  /-- package energies of the last 40 windows, newest first -/
  history   : List Nat
  deferred  : Bool
  late      : Bool
  quiet     : Nat
  tripOnce  : Bool
  /-- idle power of each island, in µW (R442) -/
  idle      : SMap Nat
  /-- VIN and the rails' voltages and currents, mV and mA, of the last millisecond, newest first (R608) -/
  samples   : List (Nat × List (Nat × Nat))
  deriving DecidableEq, Repr

/-- An entry of a bank's activation tracker (R464). -/
structure RowCount where
  row   : Nat
  count : Nat
  src   : Nat
  vote  : Nat
  deriving DecidableEq, Repr

/-- A bank (R456, R463, R464): its open row, its tracker, and the refresh commands of the present window. -/
structure HbmBank where
  row       : Option Nat
  tracker   : List RowCount
  refreshes : Nat
  deriving DecidableEq, Repr

/-- A bank after reset. -/
def HbmBank.init : HbmBank := ⟨none, [], 0⟩

/-- A controller outside its registers: training steps done and whether it has been repeated (R470), its eight throttles (R465), each a
source and the cycle it ends, the cycle of each throttled source's latest activation, and the start of the refresh window. -/
structure HbmCtl where
  step      : Nat
  repeated  : Bool
  throttles : SMap (Option (Nat × Nat))
  lastAct   : SMap Nat
  windowAt  : Nat
  deriving DecidableEq, Repr

/-- A controller after reset. -/
def HbmCtl.init : HbmCtl := ⟨0, false, [], [], 0⟩

/-- What one 32-byte word bears of a request that a controller holds (R456, R460, R461): its number, which rises with its age's end, the
request it is part of, its source, its address and octets, the cycle it came, whether it has been promoted and counted as delayed, and what ECC is to find in it
where that is known. -/
structure HbmReq where
  n        : Nat
  flow     : Nat
  who      : Sender
  addr     : Nat
  op       : HbmOp
  since    : Nat
  promoted : Bool
  delayed  : Bool
  ecc      : EccFinding
  deriving DecidableEq, Repr

/-- A request with words still waiting: its source, its address, the octets read so far, the words left, whether one was poisoned, and
whether its end is answered. -/
structure HbmFlow where
  who    : Sender
  addr   : Nat
  octets : List Byte
  left   : Nat
  bad    : Bool
  answer : Bool
  deriving DecidableEq, Repr

/-- The stacked memory controllers (R456 to R473): banks by controller × 1,024 + pseudo-channel × 32 + bank, the requests held, oldest
first, with the number the next takes, the requests their words belong to, the next word of the patrol scrub, the size of BAR2 as a power
of 2, and whether its memory decode is enabled (R472). -/
structure Hbm where
  banks  : SMap HbmBank
  ctls   : SMap HbmCtl
  reqs   : List HbmReq
  next   : Nat
  flows  : SMap HbmFlow
  scrub  : Nat
  bar2   : Nat
  decode : Bool
  deriving DecidableEq, Repr

/-- A picture in decode on a VDE: its task's slot, its context and access-unit descriptor, what its parse found of the layers decoded, the
buffer it decodes into, the state and mode it is decoded in, how many stand-ins it needed, whether a reference carries CONCEALED or STANDIN
and whether one was a stand-in, TEST as it was when the picture started, whether INJ_WD is to expire its first attempt, the strips published,
the blocks concealed in them, and the attempt. -/
structure VdeJob where
  slot      : Nat
  ctx       : Nat
  au        : Nat
  info      : PicInfo
  buf       : Nat
  state     : Nat
  recovery  : Bool
  gap       : Bool
  runsPast  : Bool
  standins  : Nat
  refBad    : Bool
  refStand  : Bool
  test      : Bool
  inject    : Bool
  strips    : Nat
  concealed : Nat
  attempt   : Nat
  deriving DecidableEq, Repr

/-- What a VDE keeps of a stream between pictures in the context's codec state (R173), whose format the VDE owns: the decode order, the last
coded size, whether the latest random-access picture was a CRA handled as a BLA; of each buffer its coded size, whether it was made as a
stand-in, the names it is a reference under, its order count, and whether it has been displayed; and the parameter sets and sequence headers
by number, which also lie in the context's parameter region. -/
structure Codec where
  order    : Nat
  width    : Nat
  height   : Nat
  bla      : Bool
  sizes    : SMap (Nat × Nat)
  standin  : SMap Bool
  names    : SMap (List Nat)
  orders   : SMap Nat
  shown    : SMap Bool
  params   : SMap (List Byte)
  /-- the cycle of the latest record with ENTERED or of the latest FIR since (R191) -/
  asked    : Option Nat
  deriving DecidableEq, Repr

/-- The codec state of a context that has had no picture. -/
def Codec.init : Codec := ⟨0, 0, 0, false, [], [], [], [], [], [], none⟩

/-- A pass in progress on a CMP: its task's slot, its pass and layer descriptors and its palettes as read at the start, what
each layer's source is and which flags it has, the strips published, whether INJ_WD is to expire its first attempt, and the attempt. A source
is the buffer it draws, or none where it shows nothing; `seen` holds, of each layer that follows a decode task, the strips of its latest
notice and the buffer of its first. -/
structure CmpJob where
  slot     : Nat
  addr     : Nat
  desc     : List Byte
  layers   : List (List Byte)
  palettes : List (List Byte)
  sources  : List (Option (Option Nat))
  flags    : List Nat
  drawn    : List Nat
  strips   : Nat
  seen     : SMap (Nat × Nat)
  inject   : Bool
  attempt  : Nat
  deriving DecidableEq, Repr

/-- What becomes of the data of the HOST_BUF descriptor at the front of a submission queue (R490): nothing yet, a cell is waited for
(R108), or its data is read into a cell since a cycle. -/
inductive BufPhase where
  | none
  | asked
  | reading (cell since : Nat)
  deriving DecidableEq, Repr

/-- A submission queue inside the host interface (R488, R490): the read of descriptors under way (how many, and since which cycle), and
the descriptors read and not yet acted on, oldest first, each with whether it came from the ring. -/
structure SubQueue where
  fetch   : Option (Nat × Nat)
  fetched : List (List Byte × Bool)
  phase   : BufPhase
  deriving DecidableEq, Repr

/-- A submission queue at reset. -/
def SubQueue.init : SubQueue := ⟨none, [], .none⟩

/-- A receive buffer (R490): host address, length and the TAG of its RX_BUF. -/
structure RxBuf where
  addr : Nat
  len  : Nat
  tag  : Nat
  deriving DecidableEq, Repr

/-- A completion queue inside the host interface (R493 to R495): the receive list, oldest first; the cycle at which each waiting entry
was written, oldest first; whether PHASE has turned to 0; and whether the oldest waiting entry has raised the vector by its age. -/
structure CplQueue where
  rx       : List RxBuf
  waiting  : List Nat
  inverted : Bool
  aged     : Bool
  deriving DecidableEq, Repr

/-- A completion queue at reset. -/
def CplQueue.init : CplQueue := ⟨[], [], false, false⟩

/-- A mailbox channel outside its registers (R499, R503): when its claim began, the staged words, and the function whose claim lapsed
last, no function having claimed the channel since. -/
structure MbxChannel where
  since    : Nat
  stage    : SMap (Option Nat)
  lapsedBy : Option Nat
  deriving DecidableEq, Repr

/-- A channel at reset. -/
def MbxChannel.init : MbxChannel := ⟨0, [], none⟩

/-- What a truncated row holds (R219, R238): every unit skipped as its codec does, merge skip without motion in a tile encode, or
DC-predicted without residual. -/
inductive Skipped where
  | pSkip | mergeSkip | skipMode | zeroMerge | dcOnly
  deriving DecidableEq, Repr

/-- A row that a VEE has coded: its QP, its bytes, and what it holds where it is a truncated row (R219, R221). -/
structure CodedRow where
  qp    : Nat
  bytes : Nat
  cut   : Option Skipped
  deriving DecidableEq, Repr

/-- A picture in progress on a VEE: its task's slot, its descriptor, its context as read at the start (R214) with the START
values applied (R223, R224), its budget, cap and first QP, and what has been coded. `share` is the sum of the rows' shares; `blank` says that
the context was in START, `anew` that every row weight was set to 1; `store` holds the source strips received directly (R210), and `inject`
that INJ_WD is to expire the first attempt. -/
structure VeeJob where
  slot    : Nat
  desc    : List Byte
  ctx     : Nat
  cfg     : List Byte
  weights : List Nat
  debt    : Int
  maxqp   : Nat
  intra   : Bool
  reset   : Bool
  start   : Bool
  effort  : Nat
  stepped : Bool
  tid     : Nat
  target  : Nat
  nominal : Nat
  budget  : Int
  cap     : Nat
  baseQp  : Nat
  hdr     : Nat
  qp      : Nat
  spent   : Nat
  share   : Int
  rows    : List CodedRow
  maxFrom : Option Nat
  cutFrom : Option Nat
  blank   : Bool
  anew    : Bool
  store   : List Nat
  inject  : Bool
  attempt : Nat
  deriving DecidableEq, Repr

/-- What a VEE keeps of a stream in its context's codec state (R214), whose format the VEE owns: the codec, profile and CU of
the last picture, the place in the temporal pattern, and the buffers of the latest T0 picture and of the latest T0 or T1
picture, 3 where there is none. -/
structure EncCodec where
  codec   : Nat
  profile : Nat
  cu      : Nat
  place   : Nat
  t0      : Nat
  le1     : Nat
  deriving DecidableEq, Repr

/-- The codec state of an encode context that has had no picture. -/
def EncCodec.init : EncCodec := ⟨0, 0, 0, 0, 3, 3⟩

/-- The held state of a cell (R244): the tile set, generation and picture of its anchor, and CELL_INFO. -/
structure HeldCell where
  tset  : Nat
  gen   : Nat
  seq   : Nat
  tier  : Nat
  bg    : Bool
  dirty : Bool
  deriving DecidableEq, Repr

/-- A slice to place: its cell, and the address and length of the NAL unit it is copied from (R254). -/
structure PlacedSlice where
  cell : Nat
  addr : Nat
  len  : Nat
  tier : Nat
  deriving DecidableEq, Repr

/-- A splice in progress: its task's slot, its descriptor, its canvas, the slices to place in the order of R255, the viewer's PICS as read at
the start, the held state after it, what its record reports, and whether INJ_WD is to expire its first attempt. -/
structure TspJob where
  slot    : Nat
  addr    : Nat
  desc    : List Byte
  canvas  : Nat
  idr     : Bool
  poc     : Nat
  pics    : Nat
  slices  : List PlacedSlice
  held    : List HeldCell
  wanted  : Nat
  intra   : Nat
  bgs     : Nat
  skips   : Nat
  inject  : Bool
  attempt : Nat
  deriving DecidableEq, Repr

/-- What a DSP core is doing (CORE_STAT, R331). A halted core keeps what it halted from. -/
inductive CoreMode where
  | disabled | take | run | handler | selftest | fenced
  deriving DecidableEq, Repr

/-- A DMA channel (R316, R317): the descriptor in progress, and its status bits. -/
structure DmaChannel where
  desc  : Option Nat
  done  : Bool
  err   : Bool
  cause : Nat
  deriving DecidableEq, Repr

/-- A channel that has run nothing. -/
def DmaChannel.init : DmaChannel := ⟨none, false, false, 0⟩

/-- What the instructions of the bundle in issue will do at its end (R306): the slots used, register writes of the compute
slot and of the move slots, loads that land a bundle later, stores, the flags of an ALU result, sticky flags, loop levels
made active or not, whether it holds a branch and where it goes, the bundle after a REP of count 0, and RTI. Accumulators
are written whole under their number. -/
structure Bundle where
  usedC  : Bool
  usedX  : Bool
  usedY  : Bool
  writes : List (DspReg × Nat)
  accs   : List (Nat × Nat)
  moves  : List (DspReg × Nat)
  loads  : List (DspReg × Nat)
  stores : List (Nat × List Byte)
  nzvc   : Option Nat
  satd   : Bool
  aov    : Bool
  lact   : List (Nat × Bool)
  branch : Bool
  target : Option Nat
  skip   : Option Nat
  rti    : Bool
  swi    : List Nat
  deriving DecidableEq, Repr

/-- A bundle with nothing issued. -/
def Bundle.empty : Bundle :=
  ⟨false, false, false, [], [], [], [], [], none, false, false, [], false, none, none, false, []⟩

/-- A kernel installed on a core (R325, R326). -/
structure Kernel where
  id      : Nat
  version : Nat
  base    : Nat
  bundles : Nat
  data    : Nat
  bytes   : Nat
  cycles  : Nat
  entry   : Nat
  stack   : Nat
  deriving DecidableEq, Repr

/-- An audio DSP core (R293 to R332): its mode, whether it is halted (and runs one bundle for STEP), its registers, the
bundle in issue, loads in flight, delay slots left and where they lead, the depth of handlers, its memories, the task it
holds (slot and kernel) and its attempt, a status that waits in DONE, the register a TAKE waits to fill, its timer, its
interrupt mask and pending sources with the cycles they were raised, and its DMA channels. -/
structure DspCore where
  mode    : CoreMode
  halted  : Bool
  haltReq : Bool
  oneStep : Bool
  d       : SMap Word
  acc     : SMap (BitVec 72)
  a       : SMap Word
  m       : SMap Word
  l       : SMap Word
  b       : SMap Word
  amode   : Nat
  lps     : SMap Nat
  lpe     : SMap Nat
  lpc     : SMap Word
  lr      : Nat
  status  : Nat
  ipc     : Nat
  istat   : Nat
  pc      : Nat
  bundle  : Bundle
  flight  : List (DspReg × Nat)
  delay   : Nat
  target  : Option Nat
  rti     : Bool
  nest    : Nat
  loaded  : Bool
  data    : SMap Byte
  prog    : SMap Nat
  kernels : List Kernel
  task    : Option (Nat × Nat)
  attempt : Nat
  doneSt  : Option (Nat × KernelReport)
  takeDst : Nat
  timer   : Option Nat
  imask   : Nat
  ipend   : Nat
  raised  : SMap Nat
  dma     : SMap DmaChannel
  deriving DecidableEq, Repr

/-- A DSP core after reset: disabled, every register 0. -/
def DspCore.init : DspCore :=
  { mode := .disabled, halted := false, haltReq := false, oneStep := false, d := [], acc := [], a := [], m := [], l := [], b := [],
    amode := 0, lps := [], lpe := [], lpc := [], lr := 0, status := 0, ipc := 0, istat := 0, pc := 0, bundle := Bundle.empty,
    flight := [], delay := 0, target := none, rti := false, nest := 0, loaded := false, data := [], prog := [], kernels := [],
    task := none, attempt := 1, doneSt := none, takeDst := 0, timer := none, imask := 0, ipend := 0, raised := [], dma := [] }

/-- What vendor firmware and the TAP hold of the module's pads (R616 to R619): for each cage whose module it manages, the cycle at which
MODPRS_N fell and, once CAGE_EN is set, the cycle of that; whether the SFP module is accepted; and the TAP's instruction, none in
Test-Logic-Reset. -/
structure Pads where
  fell    : SMap (Option Nat)
  powered : SMap (Option Nat)
  sfp     : Bool
  jtag    : Option JtagInstr
  deriving DecidableEq, Repr

/-- The state. -/
structure State where
  /-- the commands that are waiting, first in, first out -/
  pending : List Instr
  /-- fabric cycles since power-on, 1.5 GHz (R27) -/
  cycle : Nat
  /-- the model's own: how many free values have been taken (Config.freeValue) -/
  freeCtr : Nat
  /-- the model's own: what has left the device, newest first -/
  out : List Output
  /-- every 32-bit register by BAR0 address (R16); an unlisted one reads as its reset value -/
  regs : SMap Word
  /-- what the second copy of an RWV register differs in from the first (R17) -/
  rwvB : SMap Word
  /-- what the third copy of an RWV register differs in from the first (R17) -/
  rwvC : SMap Word
  /-- the cycle of the latest sweep of the RWV registers (R486) -/
  sweptAt : Nat
  /-- every 64-bit counter by the address of its LO word (R97) -/
  ctr : SMap Nat
  /-- the HI words latched by reads of LO words, by the address of the HI word (R97) -/
  latch : SMap Nat
  /-- HBM and Billow SRAM by device address (R101); an unlisted octet reads as 0 -/
  mem : List Host.Cell
  /-- the 32-byte HBM words that carry a poison mark (R466), by address -/
  poison : SMap Bool
  /-- the Squall log -/
  sql : Squall
  /-- the power state of each island (R28); an unlisted one is awake -/
  islands : SMap LullState
  /-- the model's own: host register writes of the present cycle that an internal write to the same register let go
      first (R485) -/
  early : List Instr
  /-- the cycle of the latest set of each doorbell bit (R505, R506) -/
  bells : SMap (Option Nat)
  /-- a lasting fault of R583 is in force -/
  deviceFatal : Bool
  /-- the host functions F0 to F15 -/
  fns : SMap HostFunction
  /-- the buffer pools -/
  bpm : Billow
  /-- the 2,048 stream queues -/
  queues : SMap StreamQueue
  /-- the egress scheduler -/
  egress : Egress
  /-- the Rainband gates of each port -/
  gates : SMap Gates
  /-- device time and the PPS output (R152, R157) -/
  time : TimeBase
  /-- the relay -/
  rly : Relay
  /-- the fabric cycle at which the relay left reset (R74) -/
  ageZero : Nat
  /-- the Mix Matrix -/
  mxm : Mxm
  /-- what vendor firmware keeps of streams and legs beside their objects -/
  fw : Firmware
  /-- the dictionary server of vendor firmware and its sessions -/
  gul : Gulter
  /-- start-up, firmware images and once-settings; the fuses' values are in the registers of R574 -/
  boot : Boot
  /-- Sundog -/
  sdg : Sdg
  /-- the cipher complex and the key store -/
  cpx : Cpx
  /-- who holds the grant of each claimed port (R72), by the port's CLAIM address -/
  holders : SMap (Option Sender)
  /-- the trunk unit -/
  trk : Trk
  /-- the Hardware Task Scheduler -/
  hts : Hts
  /-- the Updraft governor -/
  upd : Updraft
  /-- the ENERGY_CLASS of each installed kernel (R325) -/
  kernelClass : SMap Nat
  /-- the stacked memory controllers -/
  hbm : Hbm
  /-- the picture in decode on each VDE -/
  vdes : SMap (Option VdeJob)
  /-- the codec state of each decode context, by its address -/
  codecs : SMap Codec
  /-- INJ_WD armed on an engine, by CONSUMER number (R196, R230, R264) -/
  injected : SMap Bool
  /-- the pass in progress on each CMP -/
  cmps : SMap (Option CmpJob)
  /-- the submission queues (R488), by stream queue number -/
  subs : SMap SubQueue
  /-- the completion queues (R493), by stream queue number -/
  cpls : SMap CplQueue
  /-- what Billow answered a held request of the host interface (R108): status and pointer, by stream queue number -/
  hostGrants : SMap (Option (Nat × Nat))
  /-- the mailbox channels (R499) -/
  mbx : SMap MbxChannel
  /-- the picture in progress on each VEE -/
  vees : SMap (Option VeeJob)
  /-- the codec state of each encode context, by its address -/
  encs : SMap EncCodec
  /-- the splice in progress -/
  tsp : Option TspJob
  /-- the numeric objects that vendor firmware holds, by object number and instance, those written (R515) -/
  objNum : SMap Nat
  /-- the octet-string objects that vendor firmware holds, by object number and instance, those written (R515) -/
  objOct : SMap (List Byte)
  /-- the 128 audio DSP cores -/
  dsp : SMap DspCore
  /-- the shared memory of each cluster, by local address (R294) -/
  dspShared : SMap (SMap Byte)
  /-- cage management and the JTAG port -/
  pads : Pads
  deriving DecidableEq, Repr

/-- The machine right after reset (R16: the Reset columns; the values the model names are in notes/assumptions/). -/
def State.reset : State :=
  { pending := [],
    cycle := 0,
    freeCtr := 0,
    out := [],
    regs := [],
    rwvB := [],
    rwvC := [],
    sweptAt := 0,
    ctr := [],
    latch := [],
    mem := [],
    poison := [],
    sql := ⟨[], [], []⟩,
    islands := [],
    early := [],
    bells := [],
    deviceFatal := false,
    fns := [],
    bpm := ⟨[], []⟩,
    queues := [],
    egress := ⟨[], [], [], [], [], [], [], []⟩,
    gates := [],
    time := ⟨0, 0, 0, none, 0, none, 0, []⟩,
    rly := ⟨[], 1, [], [], [], none, false, [], [], 0, 0, [], [], [], [], 0, [], []⟩,
    ageZero := 0,
    mxm := ⟨[], [], [], [], [], [], 0, 0, 0, 0, none, [], [], none, [], [], [], [], []⟩,
    fw := ⟨[], [], [], [], [], [], [], []⟩,
    gul := ⟨[], [], [], [], []⟩,
    boot := Boot.init,
    sdg := ⟨[], [], [], [], [], []⟩,
    cpx := ⟨[], [], [], 1, [], [], none, none, [], [], none, .starting⟩,
    holders := [],
    trk := ⟨[], [], [], []⟩,
    hts := ⟨[], [], []⟩,
    upd := ⟨0, 0, 0, 0, 0, 0, false, [], false, false, 0, false, [], []⟩,
    kernelClass := [],
    hbm := ⟨[], [], [], 0, [], 0, 30, false⟩,
    vdes := [],
    codecs := [],
    injected := [],
    cmps := [],
    subs := [],
    cpls := [],
    hostGrants := [],
    mbx := [],
    vees := [],
    encs := [],
    tsp := none,
    objNum := [],
    objOct := [],
    dsp := [],
    dspShared := [],
    pads := ⟨[], [], false, none⟩ }

/-- Why a step stops with a fault. -/
inductive Fault where
  /-- Raised by HBM_REQUEST and the memory operations for an address outside the device's address space (R101, R457):
  the spec gives no memory there. Safe: the model stops where the device has nothing to access. -/
  | noSuchAddress (addr : Nat)
  deriving DecidableEq, Repr

/-- Why a command has no meaning. -/
inductive Refusal where
  /-- Raised by `exec` for a command whose meaning the model does not give yet. Safe: nothing is claimed of it. -/
  | notModelled (mnemonic : String)
  /-- Raised by JTAG_INSTRUCTION for an instruction other than those of R619 while DEBUG_DISABLE is not written: the port takes it, and
  the spec says nothing of what a vendor debug instruction does. Safe: the model stops where it has nothing to go by. -/
  | debugInstruction (code : Nat)
  deriving DecidableEq, Repr

/-- What a command answers. -/
abbrev Result := Host.Outcome State Fault Refusal

end Sys2Proof.Machine
end

