-- ==== Sys2Proof/Machine/Status.lean ====
section
/-! DEFINITION. The completion status codes of R24 and R596, under the spec's names, and the Squall event codes (R591),
severities (R589) and unit codes (R590). -/

namespace Sys2Proof.Machine.St

def ok : Nat := 0x00
def okRetried : Nat := 0x01
def keyEmpty : Nat := 0x10
def keyBusy : Nat := 0x11
def keyGone : Nat := 0x12
def keyExhausted : Nat := 0x13
def keyStale : Nat := 0x14
def authFail : Nat := 0x15
def replay : Nat := 0x16
def indexUsed : Nat := 0x17
def ctxMismatch : Nat := 0x18
def suiteMismatch : Nat := 0x19
def badLength : Nat := 0x1A
def keyPolicy : Nat := 0x1B
def rngNotReady : Nat := 0x1C
def pkaInvalid : Nat := 0x1D
def cmdBad : Nat := 0x1E
def poolEmpty : Nat := 0x20
def poolStop : Nat := 0x21
def badPointer : Nat := 0x22
def badSize : Nat := 0x23
def poolOffline : Nat := 0x24
def queueFull : Nat := 0x25
def queueDisabled : Nat := 0x26
def decSyntax : Nat := 0x30
def decBounds : Nat := 0x31
def decUnsupported : Nat := 0x32
def decGeometry : Nat := 0x33
def decNoParam : Nat := 0x34
def decPoolFull : Nat := 0x35
def decDropped : Nat := 0x36
def decCtxBad : Nat := 0x37
def cmpDescBad : Nat := 0x38
def cmpScale : Nat := 0x39
def encCtxBad : Nat := 0x3A
def encOutSmall : Nat := 0x3B
def splDescBad : Nat := 0x3C
def splOutSmall : Nat := 0x3D
def splTickBad : Nat := 0x3E
def mixSrcLate : Nat := 0x40
def mixParentBad : Nat := 0x41
def audPktBad : Nat := 0x42
def audVariantBad : Nat := 0x43
def audFrameLate : Nat := 0x44
def sdgNotFullband : Nat := 0x48
def sdgProbeBusy : Nat := 0x49
def sdgMaskFail : Nat := 0x4A
def sdgOffline : Nat := 0x4B
def trunkDown : Nat := 0x60
def trunkIsland : Nat := 0x61
def trunkQueued : Nat := 0x62
def trunkJournalFull : Nat := 0x63
def trunkConflict : Nat := 0x64
def trunkAuth : Nat := 0x65
def trunkNotIsland : Nat := 0x66
def trunkBadCfg : Nat := 0x67
def htsFull : Nat := 0x50
def htsFanout : Nat := 0x51
def htsCounterOvf : Nat := 0x52
def htsBadDesc : Nat := 0x53
def htsStaleId : Nat := 0x54
def htsRunning : Nat := 0x55
def htsKernelFault : Nat := 0x56
def htsCancelled : Nat := 0x57
def htsSkipped : Nat := 0x58
def htsNoConsumer : Nat := 0x59
def hqDescBad : Nat := 0x70
def hqDmaErr : Nat := 0x71
def hqAborted : Nat := 0x72
def hqRxbufSmall : Nat := 0x73
def mbxNotOwner : Nat := 0x74
def mbxLapsed : Nat := 0x75
def mbxHostBound : Nat := 0x76
def hqService : Nat := 0x77
def objUnknown : Nat := 0x78
def objInstance : Nat := 0x79
def objAccess : Nat := 0x7A
def objRange : Nat := 0x7B
def objUnitEnabled : Nat := 0x7C
def objOnceSpent : Nat := 0x7D
def gulDenied : Nat := 0x7E
def gulProtocol : Nat := 0x7F
def unitFenced : Nat := 0xF0

/-- R25: codes below 0x10 are success. -/
def success (c : Nat) : Bool := c < 0x10

/-- The codes below the fatal range that a chapter lists (R24, R596). -/
def listed (c : Nat) : Bool :=
  c ≤ 0x01 || (0x10 ≤ c && c ≤ 0x1E) || (0x20 ≤ c && c ≤ 0x26) || (0x30 ≤ c && c ≤ 0x3E) || (0x40 ≤ c && c ≤ 0x44) ||
    (0x48 ≤ c && c ≤ 0x4B) || (0x50 ≤ c && c ≤ 0x59) || (0x60 ≤ c && c ≤ 0x67) || (0x70 ≤ c && c ≤ 0x7F)

end Sys2Proof.Machine.St

/-! Squall event codes (R591). -/

namespace Sys2Proof.Machine.Ev

def retryOk : Nat := 0x0001
def fenced : Nat := 0x0002
def fencedDevice : Nat := 0x0003
def selftestFail : Nat := 0x0004
def transientStorm : Nat := 0x0005
def voteFix : Nat := 0x0010
def voteLost : Nat := 0x0011
def cfgIgnored : Nat := 0x0012
def boundsBlocked : Nat := 0x0020
def badPointer : Nat := 0x0021
def holdUnderflow : Nat := 0x0022
def kernelFault : Nat := 0x0023
def badAccess : Nat := 0x0024
def wpDrop : Nat := 0x0025
def poolLevel : Nat := 0x0030
def timeStep : Nat := 0x0031
def stepRefused : Nat := 0x0032
def rdtTrigger : Nat := 0x0040
def poisoned : Nat := 0x0041
def laneRepaired : Nat := 0x0042
def shedLevel : Nat := 0x0050
def learnClamp : Nat := 0x0051
def thermal : Nat := 0x0052
def capExceeded : Nat := 0x0053
def trip : Nat := 0x0054
def bootStage : Nat := 0x0060
def bankRefused : Nat := 0x0061
def resetRefused : Nat := 0x0062
def fuseUnreadable : Nat := 0x0063
def entryLost : Nat := 0x0070

end Sys2Proof.Machine.Ev

/-! Severities of a Squall entry (R589). -/

namespace Sys2Proof.Machine.Sev

def trace : Nat := 0
def note : Nat := 1
def warn : Nat := 2
def fault : Nat := 3
def fatal : Nat := 4

end Sys2Proof.Machine.Sev

/-! Unit codes (R590). -/

namespace Sys2Proof.Machine.Unit

def hif : Nat := 0x01
def rly : Nat := 0x02
def bpm : Nat := 0x03
def egs : Nat := 0x04
def tim : Nat := 0x05
def cpx : Nat := 0x06
def vde : Nat := 0x07
def vee : Nat := 0x08
def cmp : Nat := 0x09
def tsp : Nat := 0x0A
def mxm : Nat := 0x0B
def dsc : Nat := 0x0C
def sdg : Nat := 0x0D
def hts : Nat := 0x0E
def upd : Nat := 0x0F
def hbm : Nat := 0x10
def trk : Nat := 0x11
def mbx : Nat := 0x12
def fus : Nat := 0x13
def sql : Nat := 0x14
def core : Nat := 0x15
def crossing : Nat := 0x16
def link : Nat := 0x17

end Sys2Proof.Machine.Unit
end

