-- ==== Sys2Proof/Machine/Ops.lean ====
section
/-! DEFINITION. The named operations over state: sparse maps, registers and their fields, 64-bit counters, memory, device
time, free values, the Squall log, interrupts, the single retry and fencing. -/

namespace Sys2Proof.Machine

open Sys2Proof

/-! ### Sparse maps -/

/-- The entry at key `k`, if one is listed. -/
def SMap.find? {α : Type} : SMap α → Nat → Option α
  | [], _ => none
  | (j, v) :: m, k => if j = k then some v else SMap.find? m k

/-- What the map holds at `k`, `d` being what an unlisted key reads as. -/
def SMap.get {α : Type} (d : α) (m : SMap α) (k : Nat) : α := (SMap.find? m k).getD d

/-- The map without an entry at `k`. -/
def SMap.erase {α : Type} (m : SMap α) (k : Nat) : SMap α := m.filter fun e => e.1 != k

/-- The map with the entry `v` at `k`, in its place. -/
def SMap.insert {α : Type} : SMap α → Nat → α → SMap α
  | [], k, v => [(k, v)]
  | (j, w) :: m, k, v =>
    if k < j then (k, v) :: (j, w) :: m
    else if j = k then (k, v) :: m
    else (j, w) :: SMap.insert m k v

/-- The map with `v` at `k`; writing what an unlisted key reads as removes the entry. -/
def SMap.set {α : Type} [DecidableEq α] (d : α) (m : SMap α) (k : Nat) (v : α) : SMap α :=
  if v = d then SMap.erase m k else SMap.insert m k v

/-- Every key of the map is above `k` and they rise. -/
def SMap.risingFrom {α : Type} : Nat → SMap α → Bool
  | _, [] => true
  | k, (j, _) :: m => decide (k ≤ j) && SMap.risingFrom (j + 1) m

/-- The canonical form: keys strictly rising, no entry equal to what its key reads as when unlisted. -/
def SMap.wf {α : Type} [DecidableEq α] (d : Nat → α) (m : SMap α) : Bool :=
  SMap.risingFrom 0 m && m.all fun e => decide (e.2 ≠ d e.1)

/-- The canonical form of memory: addresses strictly rising, no octet listed that reads as 0. -/
def Memory.wf (m : List Host.Cell) : Bool := SMap.wf (fun _ => (0 : Byte)) m

/-! ### Registers (R16 to R19) -/

/-- The 32-bit register at BAR0 address `a`. -/
def State.reg (s : State) (a : Nat) : Word := SMap.get (resetWord a) s.regs a

/-- The state with `w` in the register at `a`. -/
def State.setReg (s : State) (a : Nat) (w : Word) : State :=
  { s with regs := SMap.set (resetWord a) s.regs a w }

/-- The value of a register field. -/
def State.get (s : State) (f : Fld) : Nat := (s.reg f.addr).field f.lsb f.width

/-- The state with the low bits of `v` in a register field. -/
def State.put (s : State) (f : Fld) (v : Nat) : State :=
  s.setReg f.addr ((s.reg f.addr).withField f.lsb f.width v)

/-- The state with a field of a register in three copies stored in all of them (R17). -/
def State.putVoted (s : State) (f : Fld) (v : Nat) : State :=
  let clear (m : SMap Word) : SMap Word := SMap.set 0 m f.addr ((SMap.get 0 m f.addr).withField f.lsb f.width 0)
  { s.put f v with rwvB := clear s.rwvB, rwvC := clear s.rwvC }

/-- Whether a one-bit field is 1. -/
def State.isSet (s : State) (f : Fld) : Bool := s.get f == 1

/-- The state with a one-bit field at the given level. -/
def State.putBit (s : State) (f : Fld) (b : Bool) : State := s.put f (bnat b)

/-- The value that two registers' fields hold together, `lo` with its own shift kept. -/
def State.pair (s : State) (lo hi : Fld) : Nat := s.get lo * 2 ^ lo.lsb + s.get hi * 2 ^ 32

/-- The state with a value spread over a LO and a HI field. -/
def State.putPair (s : State) (lo hi : Fld) (v : Nat) : State :=
  (s.put lo (v / 2 ^ lo.lsb)).put hi (v / 2 ^ 32)

/-- The state with a field raised by `n`, staying at its highest value (the counters that saturate). -/
def State.bump (s : State) (f : Fld) (n : Nat := 1) : State := s.put f (satAdd (2 ^ f.width - 1) (s.get f) n)

/-- The state with a field lowered by `n`, no lower than 0. -/
def State.drop (s : State) (f : Fld) (n : Nat := 1) : State := s.put f (s.get f - n)

/-- A 64-bit counter by the address of its LO word (R97). -/
def State.counter (s : State) (a : Nat) : Nat := SMap.get 0 s.ctr a

/-- The state with a 64-bit counter raised by `n`, modulo 2^64 (R97). -/
def State.count (s : State) (a : Nat) (n : Nat := 1) : State :=
  { s with ctr := SMap.set 0 s.ctr a ((s.counter a + n) % 2 ^ 64) }

/-- The state with a 64-bit register at `a` set to `v`. -/
def State.setCounter (s : State) (a v : Nat) : State := { s with ctr := SMap.set 0 s.ctr a (v % 2 ^ 64) }

/-! ### Output -/

/-- The state after `o` has left the device. -/
def State.emit (s : State) (o : Output) : State := { s with out := o :: s.out }

/-- The state after each of `os` has left, in order. -/
def State.emitAll (s : State) (os : List Output) : State := { s with out := os.reverse ++ s.out }

/-! ### Free values -/

/-- The state after one free value has been taken. -/
def State.spent (s : State) : State := { s with freeCtr := s.freeCtr + 1 }

/-- The next free value, below `n` (below 1 when `n` is 0). -/
def State.free (s : State) (n : Nat) : Nat := Config.freeValue s.freeCtr % (max n 1)

/-- The next free octet string, of `n` octets. -/
def State.freeBytes (s : State) (n : Nat) : List Byte := (List.range n).map (Config.freeOctet s.freeCtr)

/-! ### Memory (R9, R101) -/

/-- The octets of HBM: device addresses below this (R101, R457). -/
def hbmBytes : Nat := 2 ^ 36

/-- Where the Billow SRAM begins and ends (R100). -/
def sramBase : Nat := 0x10000000000

/-- The end of the Billow SRAM (R100). -/
def sramEnd : Nat := 0x10003000000

/-- Whether a device address names memory (R100, R101). -/
def addressExists (a : Nat) : Bool := a < hbmBytes || (sramBase ≤ a && a < sramEnd)

/-- The octet at a device address. -/
def State.byte (s : State) (a : Nat) : Byte := SMap.get (0 : Byte) s.mem a

/-- Whether the 32-byte word of an address carries a poison mark (R466). -/
def State.marked (s : State) (a : Nat) : Bool := SMap.get false s.poison (a / 32 * 32)

/-- The state with an octet stored at a device address; an address that names no memory takes nothing, nor does a poisoned word, which
only a write of all of it clears (R466). -/
def State.setByte (s : State) (a : Nat) (b : Byte) : State :=
  if addressExists a && !s.marked a then { s with mem := SMap.set (0 : Byte) s.mem a b } else s

/-- `n` octets from a device address. -/
def State.bytes (s : State) (a n : Nat) : List Byte := (List.range n).map fun i => s.byte (a + i)

/-- The state with octets stored one after the other. -/
def State.storeBytes (s : State) (a : Nat) : List Byte → State
  | [] => s
  | b :: bs => (s.setByte a b).storeBytes (a + 1) bs

/-- The poison marks that a write of `n` octets at `a` leaves: those of words it does not cover whole (R466). -/
def State.unmark (s : State) (a n : Nat) : State :=
  if s.poison.isEmpty then s else { s with poison := s.poison.filter fun e => !(decide (a ≤ e.1) && decide (e.1 + 32 ≤ a + n)) }

/-- The state with octets stored from a device address. -/
def State.setBytes (s : State) (a : Nat) (bs : List Byte) : State := (s.unmark a bs.length).storeBytes a bs

/-- The little-endian value of octets (R9). -/
def leVal : List Byte → Nat
  | [] => 0
  | b :: bs => b.toNat + 256 * leVal bs

/-- The value of octets, most significant first (R9). -/
def beVal (bs : List Byte) : Nat := bs.foldl (fun v b => v * 256 + b.toNat) 0

/-- `n` octets of `v`, least significant first. -/
def leBytes : Nat → Nat → List Byte
  | 0, _ => []
  | n + 1, v => BitVec.ofNat 8 v :: leBytes n (v / 256)

/-- `n` octets of `v`, most significant first. -/
def beBytes (n v : Nat) : List Byte := (leBytes n v).reverse

/-- The `n`-octet little-endian field at a device address. -/
def State.le (s : State) (a n : Nat) : Nat := leVal (s.bytes a n)

/-- The state with an `n`-octet little-endian field stored. -/
def State.setLe (s : State) (a n v : Nat) : State := s.setBytes a (leBytes n v)

/-- The state with `n` zero octets from a device address. -/
def State.zero (s : State) (a n : Nat) : State := s.setBytes a (List.replicate n 0)

/-- Whether any 32-byte word of `n` octets at `a` carries a poison mark (R466, R467). -/
def State.poisoned (s : State) (a n : Nat) : Bool :=
  s.poison.any fun e => e.2 && decide (e.1 < a + n) && decide (a < e.1 + 32)

/-! ### Time (R27, R152, R159) -/

/-- Fabric cycles in a microsecond (R27). -/
def usCycles : Nat := 1500

/-- Fabric cycles in a millisecond. -/
def msCycles : Nat := 1500000

/-- Fabric cycles in a second. -/
def secCycles : Nat := 1500000000

/-- Device time as a TIME64 (R152). -/
def State.time64 (s : State) : Nat := (s.time.sec * 1000000000 + s.time.ns) % 2 ^ 64

/-- The descriptor timestamp of the present (R159). -/
def State.descTs (s : State) : Nat := s.time64 % 2 ^ 32

/-- The signed value of TIM_SLEW, in parts per billion (R153). -/
def State.slew (s : State) : Int := signed 32 (s.get R.TIM_SLEW_PPB)

/-- The time base one fabric cycle later: (2/3 ns) × (1 + slew × 10^-9) is 2 × (10^9 + slew) units of 1/(3 × 10^9) ns (R152). -/
def TimeBase.tick (t : TimeBase) (slew : Int) : TimeBase :=
  let f := t.frac + (2 * (1000000000 + slew)).toNat * 2 ^ 32 / 3000000000
  let ns := t.ns + f / 2 ^ 32
  { t with frac := f % 2 ^ 32, ns := ns % 1000000000, sec := (t.sec + ns / 1000000000) % 2 ^ 48 }

/-- One fabric cycle: the cycle count and device time advance, and RLY_AGE_CLOCK each second since the relay left reset
(R74). -/
def State.tick (s : State) : State :=
  let t := { s with cycle := s.cycle + 1, time := s.time.tick s.slew }
  if (s.cycle + 1 - s.ageZero) % secCycles = 0 then
    t.put R.RLY_AGE_CLOCK_SECONDS (t.get R.RLY_AGE_CLOCK_SECONDS + 1)
  else t

/-- The age in nanoseconds of what happened at fabric cycle `c` (R140). -/
def State.ageNs (s : State) (c : Nat) : Nat := (s.cycle - c) * 2 / 3

/-- Whether `n` fabric cycles have passed since cycle `c`. -/
def State.passed (s : State) (c n : Nat) : Bool := c + n ≤ s.cycle

/-! ### MSI-X (R508, R509) -/

/-- The host function `n`. -/
def State.fn (s : State) (n : Nat) : HostFunction := SMap.get (HostFunction.init n) s.fns n

/-- The state with a host function replaced. -/
def State.setFn (s : State) (n : Nat) (f : HostFunction) : State := { s with fns := SMap.set (HostFunction.init n) s.fns n f }

/-- Whether a vector is masked: all are until MSI-X Enable is set (R509). -/
def HostFunction.isMasked (f : HostFunction) (v : Nat) : Bool := !f.msixEn || SMap.get true f.masked v

/-- A source event on a function's vector: a message, or the pending bit while the vector is masked (R509). -/
def State.raise (s : State) (n v : Nat) : State :=
  let f := s.fn n
  if !f.exists_ then s
  else if f.isMasked v then s.setFn n { f with pendingV := SMap.set false f.pendingV v true }
  else s.emit (.msix n v)

/-! ### Squall (R586 to R593) -/

/-- Raise F0's DEV_EVENT vector (R508). -/
def State.devEvent (s : State) : State := s.raise 0 (s.get (R.HIF_Fn_VEC2_DEV_EVENT 0))

/-- Whether ALERT_N is asserted: a cause bit set and not masked; FATAL cannot be masked (R587). RECOVERY
and HALTED assert it too (R550). -/
def State.alert (s : State) : Bool :=
  let cause := (s.reg R.SQL_ALERT_CAUSE_FENCE.addr).toNat % 16
  let stage := s.get R.HIF_BOOT_STAGE_STAGE
  let mask := s.get R.SQL_ALERT_MASK_MASK
  stage == 0xE0 || stage == 0xFF || (List.range 4).any fun k => cause.testBit k && (!mask.testBit k || k == 1)

/-- The state with an entry in the log at the place of its sequence number (R593). -/
def State.writeEntry (s : State) (e : SquallEntry) : State :=
  let n := s.counter 0x00F00010
  let s := if n < 8192 then s else s.putBit R.SQL_STATUS_WRAPPED true
  { s.count 0x00F00010 with
    sql := { s.sql with entries := SMap.set SquallEntry.blank s.sql.entries (n % 8192) e
                        last := SMap.set none s.sql.last e.unit (some ⟨e.inst, e.event, s.cycle⟩) } }

/-- Whether an entry repeats its unit's previous entry within 1 ms (R592). -/
def State.repeats (s : State) (unit inst event : Nat) : Bool :=
  match SMap.get none s.sql.last unit with
  | none => false
  | some l => l.inst == inst && l.event == event && s.cycle ≤ l.at_ + msCycles

/-- An event reaches Squall: it is written, filtered by severity, or suppressed as a repetition (R592); a FAULT or FATAL
entry raises DEV_EVENT (R508), and a FATAL one sets its alert cause (R587). -/
def State.log (s : State) (unit inst sev event p0 p1 : Nat) : State :=
  if sev < 3 && sev < s.get R.SQL_CTRL_MIN_SEV then s
  else if (sev == 1 || sev == 2) && s.repeats unit inst event then s.bump R.SQL_SUPPRESSED_COUNT
  else
    let s := s.writeEntry ⟨s.time64, unit, sev, event, inst, p0 % 2 ^ 64, p1 % 2 ^ 64⟩
    let s := if sev < 3 then s else s.devEvent
    if sev = 4 then s.putBit R.SQL_ALERT_CAUSE_FATAL true else s

/-! ### Retry and fencing (R577, R581 to R583) -/

/-- Whether an instance of a unit is fenced (SQL_FENCE_u, R597). -/
def State.isFenced (s : State) (unit b : Nat) : Bool :=
  (s.get (R.SQL_FENCE_INSTANCES unit (b / 32))).testBit (b % 32)

/-- The fenced instances of a unit among its first `n`. -/
def State.fencedCount (s : State) (unit n : Nat) : Nat := ((List.range n).filter fun i => s.isFenced unit i).length

/-- The FENCED bit of a unit in its own block, where it has one (R582 step 1). -/
def fencedBit (unit inst : Nat) : Option Fld :=
  if unit = Unit.vde then some (R.VDE_STATUS_FENCED inst)
  else if unit = Unit.vee then some (R.VEE_STATUS_FENCED inst)
  else if unit = Unit.cmp then some (R.CMP_STATUS_FENCED inst)
  else if unit = Unit.tsp then some R.TSP_STATUS_FENCED
  else if unit = Unit.mxm then some R.MXM_STATUS_FENCED
  else if unit = Unit.sdg then some R.SDG_STATUS_FENCED
  else if unit = Unit.hbm then some (R.HBM_STATUS_FENCED inst)
  else if unit = Unit.dsc then some ⟨(R.DSC_FENCED_CORES (inst / 16)).addr, inst % 16, 1⟩
  else if unit = Unit.cpx && inst < 24 then some ⟨R.CPX_FENCED_CORES.addr, inst, 1⟩
  else if unit = Unit.cpx && inst = 24 then some R.CPX_STATUS_RNG_FAIL
  else if unit = Unit.link && inst = 1 then some R.UPD_VIN_TELEMETRY_FENCED
  else none

/-- The island that an engine, a cluster's memory controller or a splicer has to itself (R582 step 4, R629). -/
def ownIsland (unit inst : Nat) : Option Nat :=
  if unit = Unit.vde then some (3 + inst)
  else if unit = Unit.vee then some (19 + inst)
  else if unit = Unit.cmp then some (35 + inst)
  else if unit = Unit.tsp then some 39
  else if unit = Unit.hbm && inst < 4 then some (50 + inst)
  else none

/-- The INSTANCE that names an island in a crossing's entries (R629). -/
def islandInstance (i : Nat) : Nat :=
  if i = 0 then 0x0210 else if i = 1 then 0x0208 else if i = 2 then 0x0600
  else if i < 19 then 0x0700 + (i - 3) else if i < 35 then 0x0800 + (i - 19) else if i < 39 then 0x0900 + (i - 35)
  else if i = 39 then 0x0A00 else if i = 40 then 0x0B00 else if i < 49 then 0x0C80 + (i - 41)
  else if i = 49 then 0x0E00 else if i < 54 then 0x1000 + (i - 50) else if i = 54 then 0x0110 else 0x0111

/-- A unit whose lasting fault is the device's own (R583). -/
def isDeviceUnit (unit inst : Nat) : Bool :=
  unit = Unit.rly || unit = Unit.bpm || unit = Unit.egs || unit = Unit.tim || unit = Unit.hts || unit = Unit.upd ||
    (unit = Unit.crossing && (inst = 40 || inst = 49))

/-- The island's power state (R28). -/
def State.island (s : State) (i : Nat) : LullState := SMap.get .awake s.islands i

/-- The LULL bit of the block on an island, where it has one (R196, R230, R264, R330). -/
def lullBit (i : Nat) : Option Fld :=
  if 3 ≤ i && i < 19 then some (R.VDE_STATUS_LULL (i - 3))
  else if 19 ≤ i && i < 35 then some (R.VEE_STATUS_LULL (i - 19))
  else if 35 ≤ i && i < 39 then some (R.CMP_STATUS_LULL (i - 35))
  else if i = 39 then some R.TSP_STATUS_LULL
  else if 41 ≤ i && i < 49 then some (R.DSC_STATUS_LULL (i - 41))
  else none

/-- The state with an island's power state set, and its LULL bit with it. -/
def State.setIsland (s : State) (i : Nat) (l : LullState) : State :=
  let s := match lullBit i with | some f => s.putBit f (l != LullState.awake) | none => s
  { s with islands := SMap.set .awake s.islands i l }

/-- Power-gate the island that a fenced unit has to itself (R582 step 4). -/
def State.gateOwnIsland (s : State) (unit inst : Nat) : State :=
  match ownIsland unit inst with
  | some i => s.setIsland i .lull
  | none => s

/-- Fence a unit, in the order of R582, with `event` as its entry: the bits of step 1, the island of step 4, the entry of
step 5, the alert of step 6 and the count of step 8. The operation in progress (step 3) is its own chapter's; the
capacities of step 7 and the dispatch of step 2 are read from the fence bits. A unit already fenced stays as it is. -/
def State.fenceWith (s : State) (unit inst event row param : Nat) : State :=
  if s.isFenced unit inst then s
  else
    let shown := if unit = Unit.crossing then islandInstance inst else inst
    let s := s.putBit ⟨(R.SQL_FENCE_INSTANCES unit (inst / 32)).addr, inst % 32, 1⟩ true
    let s := match fencedBit unit inst with | some f => s.putBit f true | none => s
    let s := s.gateOwnIsland unit inst
    let s := if isDeviceUnit unit inst then { s.log unit shown Sev.fatal Ev.fencedDevice row param with deviceFatal := true }
             else s.log unit shown Sev.fault event row param
    let s := s.putBit R.SQL_ALERT_CAUSE_FENCE true
    s.put R.SQL_FENCED_UNITS_COUNT (s.get R.SQL_FENCED_UNITS_COUNT + 1)

/-- Fence a unit after a failed retry (R578): error row of R576 and the address or TASK_ID. -/
def State.fence (s : State) (unit inst row param : Nat) : State := s.fenceWith unit inst Ev.fenced row param

/-- The unit kinds that the storm rule covers (R582). -/
def stormKind (unit inst : Nat) : Bool :=
  unit = Unit.vde || unit = Unit.vee || unit = Unit.cmp || unit = Unit.tsp || unit = Unit.dsc || unit = Unit.mbx ||
    unit = Unit.core || (unit = Unit.cpx && inst < 24)

/-- The TRANSIENT bit of a unit (R577). -/
def transientBit (unit inst : Nat) : Option Fld :=
  if unit = Unit.vde then some (R.VDE_STATUS_TRANSIENT inst)
  else if unit = Unit.vee then some (R.VEE_STATUS_TRANSIENT inst)
  else if unit = Unit.cmp then some (R.CMP_STATUS_TRANSIENT inst)
  else if unit = Unit.tsp then some R.TSP_STATUS_TRANSIENT
  else if unit = Unit.mxm then some R.MXM_STATUS_TRANSIENT
  else if unit = Unit.sdg then some R.SDG_STATUS_TRANSIENT
  else if unit = Unit.dsc then some (R.DSC_STATUS_TRANSIENT (inst / 16))
  else if unit = Unit.cpx then some R.CPX_STATUS_TRANSIENT
  else if unit = Unit.hbm && inst < 4 then some (R.HBM_STATUS_TRANSIENT inst)
  else none

/-- The transient counter of a unit where its block has one (R577). -/
def transientCounter (unit inst : Nat) : Option Nat :=
  if unit = Unit.vde then some (R.C_VDE_WD_TRANSIENT inst)
  else if unit = Unit.vee then some (R.C_VEE_WD_TRANSIENT inst)
  else if unit = Unit.cmp then some (R.C_CMP_WD_TRANSIENT inst)
  else if unit = Unit.tsp then some R.C_TSP_WD_TRANSIENT
  else if unit = Unit.mxm then some R.C_MXM_MIX_RETRIES
  else if unit = Unit.dsc then some (R.C_CORE_WD_TRANSIENT (inst / 16) (inst % 16))
  else if unit = Unit.cpx && inst < 24 then some (R.C_CPX_Ck_TRANSIENT inst)
  else none

/-- Record a transient's time and fence the unit when its count in one second passes SQL_TRANSIENT_LIMIT (R581). -/
def State.storm (s : State) (unit inst : Nat) : State :=
  let key := unit * 65536 + inst
  let times := s.cycle :: (SMap.get [] s.sql.transients key).filter fun t => s.cycle < t + secCycles
  let s := { s with sql := { s.sql with transients := SMap.set [] s.sql.transients key times } }
  let limit := s.get R.SQL_TRANSIENT_LIMIT_PER_SECOND
  if stormKind unit inst && limit != 0 && limit < times.length then
    s.fenceWith unit inst Ev.transientStorm times.length limit
  else s

/-- A retry succeeded (R577): the TRANSIENT bit, the unit's counter, SQL_TRANS_u and a RETRY_OK entry; then the storm
rule (R581). -/
def State.retried (s : State) (unit inst row param : Nat) : State :=
  let s := match transientBit unit inst with | some f => s.putBit f true | none => s
  let s := match transientCounter unit inst with | some a => s.count a | none => s
  let s := s.bump (R.SQL_TRANS_COUNT unit)
  let shown := if unit = Unit.crossing then islandInstance inst else inst
  let s := s.log unit shown Sev.note Ev.retryOk row param
  s.storm unit inst

/-- Fence a unit whose error has neither an address nor a TASK_ID: PARAM1 of the entry (R591) is a free value. -/
def State.fenceOpen (s : State) (unit inst row : Nat) : State :=
  if s.isFenced unit inst then s else s.spent.fence unit inst row (s.free (2 ^ 64))

/-- A retry succeeded of an error that has neither an address nor a TASK_ID: PARAM1 of the entry (R591) is a free value. -/
def State.retriedOpen (s : State) (unit inst row : Nat) : State := s.spent.retried unit inst row (s.free (2 ^ 64))

/-! ### Objects that vendor firmware holds (R515, R21) -/

/-- The key of an object instance that vendor firmware holds. -/
def objKey (obj inst : Nat) : Nat := obj * 16777216 + inst

/-- The value of a numeric object that vendor firmware holds, `d` being its default. -/
def State.obj (s : State) (o inst d : Nat) : Nat := SMap.get d s.objNum (objKey o inst)

/-- The state with a numeric object written, `d` being its default. -/
def State.setObj (s : State) (o inst d v : Nat) : State := { s with objNum := SMap.set d s.objNum (objKey o inst) v }

/-- The state with a U32 count of an object raised. -/
def State.bumpObj (s : State) (o inst : Nat) : State := s.setObj o inst 0 ((s.obj o inst 0 + 1) % 2 ^ 32)

/-- The state with a U64 count of an object raised. -/
def State.countObj64 (s : State) (o inst : Nat) : State := s.setObj o inst 0 ((s.obj o inst 0 + 1) % 2 ^ 64)

/-- The octets of an octet-string object that vendor firmware holds, empty by default. -/
def State.octets (s : State) (o inst : Nat) : List Byte := SMap.get [] s.objOct (objKey o inst)

/-- The state with an octet-string object written. -/
def State.setOctets (s : State) (o inst : Nat) (v : List Byte) : State := { s with objOct := SMap.set [] s.objOct (objKey o inst) v }

/-- The instances of a numeric object that hold `v`, a value other than its default. -/
def State.instancesWith (s : State) (o v : Nat) : List Nat :=
  (s.objNum.filter fun e => e.1 / 16777216 == o && e.2 == v).map fun e => e.1 % 16777216

/-- The conference of a leg (R545); 0xFFFF for none. -/
def State.confOf (s : State) (leg : Nat) : Nat := s.obj 0x401005 leg 0xFFFF

/-- The local legs attached to a conference. -/
def State.legsOf (s : State) (conf : Nat) : List Nat := s.instancesWith 0x401005 conf

/-- The roster identifier of a local leg (R13). -/
def State.rosterId (s : State) (leg : Nat) : Nat := s.get R.TRK_MODULE_INDEX * 16384 + leg

/-- Whether a roster identifier names a leg of this module (R13). -/
def State.isLocal (s : State) (id : Nat) : Bool := id / 16384 == s.get R.TRK_MODULE_INDEX

/-! ### CRCs (R69, R334, R535) -/

/-- One octet of a reflected CRC with polynomial `poly`, `w` bits wide. -/
def crcOctet (poly : Nat) (crc : Nat) (b : Byte) : Nat :=
  (List.range 8).foldl (fun c _ => if c % 2 = 1 then (c / 2) ^^^ poly else c / 2) (crc ^^^ b.toNat)

/-- CRC-32C of octets from a preset, without the final complement. -/
def crc32c (preset : Nat) (bs : List Byte) : Nat := bs.foldl (crcOctet 0x82F63B78) preset

/-- CRC-32C with preset 0xFFFF_FFFF and final complement. -/
def crc32cFull (bs : List Byte) : Nat := crc32c 0xFFFFFFFF bs ^^^ 0xFFFFFFFF

end Sys2Proof.Machine
end

