-- ==== Sys2Proof/Machine/Access.lean ====
section
/-! DEFINITION. Which BAR0 offsets answer which sender, and when (spec/02_media_ports_relay.md, R56; spec/13_scheduler_updraft.md, R447,
R449; spec/15_host_interface.md, R482, R484, R507; spec/17_startup_trust.md, R551), and the wake that an access starts. -/

namespace Sys2Proof.Machine

open Sys2Proof

/-! ### Islands and their units (R28, R629) -/

/-- The units of a group. -/
def groupSize (g : Nat) : Nat := [16, 16, 4, 1, 128, 16].getD g 0

/-- A unit's Squall code and instance. -/
def unitCode (g i : Nat) : Nat × Nat :=
  ([Unit.vde, Unit.vee, Unit.cmp, Unit.tsp, Unit.dsc, Unit.core].getD g 0, i)

/-- The island of a unit (R629). -/
def unitIsland (g i : Nat) : Nat :=
  if g = 0 then 3 + i else if g = 1 then 19 + i else if g = 2 then 35 + i else if g = 3 then 39
  else if g = 4 then 41 + i / 16 else 49

/-- Whether a unit is fenced, or its island with the crossing it sends on (R36). -/
def State.unitFencedAt (s : State) (g i : Nat) : Bool :=
  s.isFenced (unitCode g i).1 (unitCode g i).2 || s.isFenced Unit.crossing (unitIsland g i)

/-- The group and the units of an island that Updraft gates by its work: an engine's, the TSP's or a cluster's (R28, R629). -/
def islandUnits (i : Nat) : List (Nat × Nat) :=
  if 3 ≤ i && i < 19 then [(0, i - 3)] else if 19 ≤ i && i < 35 then [(1, i - 19)] else if 35 ≤ i && i < 39 then [(2, i - 35)]
  else if i = 39 then [(3, 0)]
  else if 41 ≤ i && i < 49 then (List.range 16).map fun c => (4, (i - 41) * 16 + c)
  else []

/-- The unit whose fence keeps an island gated (R582 step 4). -/
def State.gatedForGood (s : State) (i : Nat) : Bool :=
  s.isFenced Unit.crossing i ||
    match islandUnits i with
    | [u] => s.unitFencedAt u.1 u.2
    | _ => 50 ≤ i && i < 54 && s.isFenced Unit.hbm (i - 50)

/-- Start the wake of an island in Lull. -/
def State.wake (s : State) (i : Nat) : State :=
  if s.island i == .lull && !s.gatedForGood i && s.get R.UPD_STATUS_THERMAL != 3 then s.setIsland i (.waking s.cycle) else s

/-- The island of the block at an offset that an access wakes (R484). -/
def islandAt (a : Nat) : Option Nat :=
  if 0x200000 ≤ a && a < 0x500000 then some 1
  else if 0x600000 ≤ a && a < 0x800000 then some 2
  else if 0x800000 ≤ a && a < 0x900000 then some (3 + (a - 0x800000) / 0x10000)
  else if 0x900000 ≤ a && a < 0xA00000 then some (19 + (a - 0x900000) / 0x10000)
  else if 0xA00000 ≤ a && a < 0xA40000 then some (35 + (a - 0xA00000) / 0x10000)
  else if 0xA80000 ≤ a && a < 0xB00000 then some 39
  else if 0xC00000 ≤ a && a < 0xC80000 then some (41 + (a - 0xC00000) / 0x10000)
  else none

/-- An access wakes the island of its block (R484). -/
def State.accessWakes (s : State) (a : Nat) : State :=
  match islandAt a with
  | some i => s.wake i
  | none => s

/-! ### Who reaches what -/

/-- BOOT_STAGE (R550). -/
def State.bootStage (s : State) : Nat := s.get R.HIF_BOOT_STAGE_STAGE

/-- Whether the mode in use has a port of this name (R55, R56). -/
def State.portNamed (s : State) (n : Nat) : Bool :=
  let m := s.get R.RLY_PORT_MODE_MODE
  n < 8 && (if m = 1 then n % 4 == 0 else if m = 2 then n % 2 == 0 else true)

/-- The receiver's class: 0 a host function, 1 a control core (R497, R498). -/
def State.recvClass (s : State) (c : Nat) : Nat := s.get (R.MBX_CHc_CFG_RECV c) / 4096

/-- The receiver's index. -/
def State.recvIndex (s : State) (c : Nat) : Nat := s.get (R.MBX_CHc_CFG_RECV c) % 16

/-- Whether a channel's HOST_MASK admits a function; it is used only when RECV is a control core (R497). -/
def State.admits (s : State) (c n : Nat) : Bool := s.recvClass c == 1 && (s.get (R.MBX_CHc_CFG_HOST_MASK c)).testBit n

/-- Whether a function sees a channel (R497). -/
def State.seesChannel (s : State) (n c : Nat) : Bool :=
  n == 0 || s.admits c n || (s.recvClass c == 0 && s.recvIndex c == n)

/-- Whether a sender's register writes reach the blocks that only F0 and vendor firmware reach (R482). -/
def fullAccess : Sender → Bool
  | .host n => n == 0
  | .control _ => true
  | _ => false

/-- Whether a sender reaches an offset (R482). DSP cores, engines and fixed units have no way to registers other than the mailbox and
doorbell block. -/
def State.reaches (s : State) (who : Sender) (a : Nat) : Bool :=
  match who with
  | .control _ => true
  | .host 0 => true
  | .host n =>
    (s.fn n).exists_ &&
      ((0x80000 + n * 0x8000 ≤ a && a < 0x80000 + n * 0x8000 + 0x8000) ||
        (0x100000 ≤ a && a < 0x104000 && s.seesChannel n ((a - 0x100000) / 0x100)) ||
        a == R.MBX_CLAIM_VALID.addr || (0x106000 ≤ a && a < 0x107000))
  | _ => 0x100000 ≤ a && a < 0x108000

/-- The blocks that BAR0 serves at each stage of start-up (R551); from RESET until configuration-ready, none. -/
def State.stageServes (s : State) (a : Nat) : Bool :=
  let g := s.bootStage
  let early := a < 0x1000 || (0xF00000 ≤ a && a < 0xFC0000) || (g == 0xE0 && 0xFC0000 ≤ a && a < 0xFD0000)
  if g = 0 then false
  else if g = 0xFF then a == R.HIF_BOOT_STAGE_STAGE.addr
  else if g = 0x30 || g = 0x40 || g = 0x70 then early || (0x100000 ≤ a && a < 0x108000)
  else if g = 0x50 || g = 0x60 || g = 0xF0 then true
  else early

/-- The blocks that answer in standby and after a trip (R447, R449). -/
def State.powerServes (s : State) (a : Nat) : Bool :=
  let hif := a < 0x100000
  let upd := 0xD80000 ≤ a && a < 0xD90000
  if s.get R.UPD_STATUS_THERMAL = 3 then hif || upd || (0xF00000 ≤ a && a < 0xF80000) || a == R.FUS_CTRL_RESET.addr
  else if !s.isSet R.UPD_STATUS_AWAKE then hif || upd
  else true

/-- The port of a per-port register set (R56). -/
def portOfReg (a : Nat) : Option Nat :=
  if 0x201000 ≤ a && a < 0x201800 then some ((a - 0x201000) / 0x100)
  else if 0x401000 ≤ a && a < 0x401800 then some ((a - 0x401000) / 0x100)
  else if 0x408000 ≤ a && a < 0x40A000 then some ((a - 0x408000) / 0x400)
  else if 0x480000 ≤ a && a < 0x500000 then some ((a - 0x480000) / 0x10000)
  else if 0x501000 ≤ a && a < 0x501800 then some ((a - 0x501000) / 0x100)
  else none

/-- Whether a register of a port name that the mode does not use lies at `a` (R56). -/
def State.portHidden (s : State) (a : Nat) : Bool :=
  match portOfReg a with
  | some n => !s.portNamed n
  | none => false

/-- Whether a sender is a host function. -/
def isHost : Sender → Bool
  | .host _ => true
  | _ => false

/-- Whether an access takes place at all, a host's also by the stage of start-up; a denied read returns 0 and a denied write is ignored. -/
def State.accessible (s : State) (who : Sender) (a : Nat) : Bool :=
  s.reaches who a && (!isHost who || s.stageServes a) && s.powerServes a && !s.portHidden a

/-! ### Fenced crossings (R36) -/

/-- The island from which a sender's accesses cross (R498, R629); that of the trunk unit, which no table places, is taken to be Fabric. -/
def senderIsland : Sender → Nat
  | .host _ => 54
  | .control _ => 49
  | .dsp n => 41 + n / 16
  | .engine n => if n < 32 then 3 + n else if n < 36 then 35 + (n - 32) else 39
  | .fixed n => if n ≤ 1 then 1 else if n = 2 then 2 else if n = 6 then 49 else if n = 7 then 50 else if n = 8 then 54 else 40

/-- Whether what a sender offers meets a fenced crossing, which discards it (R36). -/
def State.cutOff (s : State) (who : Sender) : Bool := s.isFenced Unit.crossing (senderIsland who)

/-- A write that a fenced crossing discards (R36): a host's is dropped and reported through AER, another takes a bus error. -/
def State.lostWrite (s : State) (who : Sender) (a : Nat) : State :=
  match who with
  | .host _ => s.emit (.aer a)
  | _ => s.emit (.busError who a)

/-- A read that a fenced crossing discards (R36): a host's ends in Completer Abort, another with UNIT_FENCED. -/
def State.lostRead (s : State) (who : Sender) (a : Nat) : State :=
  match who with
  | .host _ => s.emit (.readAbort who a)
  | _ => s.emit (.done who St.unitFenced [a])

/-- A command that is an access of the register at `a` (R36, R482, R484): it takes place where the sender reaches it, and wakes the island
of its block; a denied one is ignored. -/
def State.access (s : State) (who : Sender) (a : Nat) (run : State → Result) : Result :=
  if s.cutOff who then .next (s.lostWrite who a) else if s.accessible who a then run (s.accessWakes a) else .next s

/-- Whether a sender is a function that does not exist: it answers no request (R479). -/
def State.absent (s : State) : Sender → Bool
  | .host n => !(s.fn n).exists_
  | _ => false

/-- A command that is a read of the register at `a`; a denied one returns 0 (R36, R479, R482). -/
def State.accessRead (s : State) (who : Sender) (a : Nat) (run : State → Result) : Result :=
  if s.absent who then .next s
  else if s.cutOff who then .next (s.lostRead who a)
  else if s.accessible who a then run (s.accessWakes a) else .next (s.emit (.readDone who a 0))

end Sys2Proof.Machine
end

