-- ==== Sys2Proof/Machine/Contexts.lean ====
section
/-! DEFINITION. The contexts that vendor firmware keeps for streams and viewers, by their numbers (spec/05_video_decode.md, R197;
spec/06_compose_encode.md, R231; spec/07_tile_layouts.md, R244, R265). -/

namespace Sys2Proof.Machine

open Sys2Proof

/-- The state with what firmware keeps changed. -/
def State.withFw (s : State) (f : Firmware → Firmware) : State := { s with fw := f s.fw }

/-- The decode context of a stream (R197); 0 where it has none. -/
def State.streamCtx (s : State) (stream : Nat) : Nat := SMap.get 0 s.fw.streamCtx stream

/-- The context of an encode stream (R231). -/
def encodeCtxAddr (e : Nat) : Nat := Config.encodeCtx e % 2 ^ 28 * 256

/-- Where an ENC object's value lies in the encode context (R214): its offset and size. -/
def encodePlace (o : Nat) : Nat × Nat :=
  if o = 0x504001 then (0x08, 4) else if o = 0x504002 then (0x0C, 4) else if o = 0x504003 then (0x07, 1)
  else if o = 0x504004 then (0x10, 2) else if o = 0x504005 then (0x16, 1) else (0x18, 2)

/-- Whether firmware has created the context of an encode stream: its WIDTH is no longer 0 (R214). -/
def State.encodeMade (s : State) (e : Nat) : Bool := s.le (encodeCtxAddr e + 2) 2 != 0

/-- ENC_TARGET_KBPS to ENC_INTRA_PERIOD (R231): the context's field; the object's own value while the stream has no context
(DESIGN CHOICE, log 117). -/
def State.encodeField (s : State) (o e d : Nat) : Nat :=
  if s.encodeMade e then s.le (encodeCtxAddr e + (encodePlace o).1) (encodePlace o).2 else s.obj o e d

/-- A leg's viewer context (R265). -/
def viewerCtxAddr (leg : Nat) : Nat := Config.viewerCtx leg % 2 ^ 27 * 512

/-- The legs whose VIEWER_CANVAS has been written. -/
def State.canvasLegs (s : State) : List Nat := (s.objNum.filter fun e => e.1 / 16777216 == 0x506102).map fun e => e.1 % 16777216

/-- VIEWER_CANVAS goes to the leg's viewer context, while its LOCK is 0 (R244). -/
def State.putCanvas (s : State) (leg : Nat) : State :=
  let v := viewerCtxAddr leg
  if s.byte (v + 2) == 0 then s.setByte v (BitVec.ofNat 8 (s.obj 0x506102 leg 3)) else s

/-- A splice for the viewer of a context has ended (R244, R265): its BG_SLOTS is summed, and a canvas written meanwhile reaches it. -/
def State.viewerSpliced (s : State) (v bgs : Nat) : State :=
  let s := s.withFw fun y => { y with bgSlots := SMap.set 0 y.bgSlots v ((SMap.get 0 y.bgSlots v + bgs) % 2 ^ 32) }
  (s.canvasLegs.filter fun l => viewerCtxAddr l == v).foldl State.putCanvas s

end Sys2Proof.Machine
end

