-- ==== Sys2Proof/Machine/Beacon.lean ====
section
/-! DEFINITION. The beacon signal and the modulators that send it (spec/10_sundog_beacon.md, R334 to R340), up to the samples
that the Mix Matrix adds. -/

namespace Sys2Proof.Machine

open Sys2Proof

/-! ### The beacon frame (R334) -/

/-- CRC-8 of bits, first bit first: polynomial x^8 + x^2 + x + 1, initial value 0, no final XOR. -/
def crc8 (bits : List Bool) : Nat :=
  bits.foldl (fun c b => let t := (c * 2) % 256; if (c.testBit 7) != b then t ^^^ 0x07 else t) 0

/-- The low `n` bits of a value, most significant first. -/
def bitsOf (n v : Nat) : List Bool := (List.range n).map fun i => v.testBit (n - 1 - i)

/-- The 80 bits of a beacon frame: preamble, sync word, token and CRC. -/
def beaconBits (token : Nat) : List Bool :=
  bitsOf 8 0x55 ++ bitsOf 16 0xF36A ++ bitsOf 48 token ++ bitsOf 8 (crc8 (bitsOf 48 token))

/-- The m-sequence from a state of five bits s(n) to s(n+4): s(n+5) = s(n+2) XOR s(n). -/
def mSequence : Nat → List Bool → List Bool
  | 0, _ => []
  | n + 1, st => st.headD false :: mSequence n (st.tail ++ [(st.getD 2 false) != (st.headD false)])

/-- The chips m_0 to m_30 of a SHIFT. -/
def chipsOf (shift : Nat) : List Bool := ((mSequence 62 [true, true, true, true, true]).drop shift).take 31

/-- Differential encoding from `prev`: d = d_prev XOR c. -/
def differential : Bool → List Bool → List Bool
  | _, [] => []
  | prev, c :: cs => (prev != c) :: differential (prev != c) cs

/-- The 2,480 differential chips of a frame. -/
def beaconChips (token shift : Nat) : List Bool :=
  differential false ((beaconBits token).flatMap fun b => (chipsOf shift).map fun m => m != b)

/-- Samples of a beacon frame: 2,480 chips of 40 (R335). -/
def beaconSamples : Nat := 99200

/-! ### Modulators (R335, R340) -/

/-- A modulator. -/
def State.modulator (s : State) (m : Nat) : Modulator := SMap.get Modulator.init s.sdg.mods m

/-- STATE of a modulator (R353). -/
def Modulator.stateCode (m : Modulator) : Nat := if m.sending then 2 else if m.armed.isSome then 1 else 0

/-- The state with a modulator replaced, and its STATE field with it. -/
def State.setModulator (s : State) (n : Nat) (m : Modulator) : State :=
  let s := { s with sdg := { s.sdg with mods := SMap.set Modulator.init s.sdg.mods n m } }
  s.put (R.SDG_MOD_CTRL_STATE n) m.stateCode

/-- Whether the SDG runs: enabled and not fenced. -/
def State.sdgRuns (s : State) : Bool := s.isSet R.SDG_CTRL_ENABLE && !s.isFenced Unit.sdg 0

/-- A 32-bit frame number as a count that does not wrap, near the next frame to be mixed (R281, R340): the nearest one ahead or
behind. -/
def State.frameNear (s : State) (f : Nat) : Int := (s.mxm.next : Int) + signed 32 (f + 2 ^ 32 - s.mxm.next % 2 ^ 32)

/-- A write of START arms one frame (R340): at its frame, or at the next frame not yet mixed with LATE set. -/
def State.armBeacon (s : State) (m frame : Nat) : State :=
  let s := s.put (R.SDG_MOD_START_FRAME m) frame
  if !s.sdgRuns || !s.isSet (R.SDG_MOD_CTRL_EN m) then s
  else
    let f := s.frameNear frame
    let late := f < s.mxm.next
    let s := if late then s.putBit (R.SDG_MOD_CTRL_LATE m) true else s
    s.setModulator m { s.modulator m with armed := some (max s.mxm.next f.toNat) }

/-- The state with the probe on a modulator changed. -/
def State.onProbeOf (s : State) (m : Nat) (was : ProbeState) (f : Probe → Probe) : State :=
  { s with sdg := { s.sdg with probes := s.sdg.probes.map fun p => if p.mod = m && p.st == was then f p else p } }

/-- The modulator begins its frame, reading TOKEN, SHIFT and LEVEL (R340); its probe's window opens (R337, R339). -/
def State.startBeacon (s : State) (m : Nat) : State :=
  let token := s.get (R.SDG_MOD_TOKEN_HI_TOKEN m) * 2 ^ 32 + s.get (R.SDG_MOD_TOKEN_LO_TOKEN m)
  let shift := s.get (R.SDG_MOD_CTRL_SHIFT m)
  let s := s.setModulator m ⟨none, true, token, shift, s.get (R.SDG_MOD_CTRL_LEVEL m), beaconChips token shift, 0, false⟩
  let s := s.sdg.probes.foldl (fun (s : State) p =>
    if p.mod = m && p.st == ProbeState.armed then s.setObj 0x621005 p.leg 0 s.time64 else s) s
  s.onProbeOf m .armed fun p => { p with st := .sending, window := s.mxm.next }

/-- Whether a modulator's START frame is the next to be mixed, or past. -/
def State.beaconDue (s : State) (m : Nat) : Bool :=
  match (s.modulator m).armed with
  | some f => !(s.modulator m).sending && f ≤ s.mxm.next
  | none => false

/-- The beacon frame has been sent whole (R339). -/
def State.endBeacon (s : State) (m : Nat) : State :=
  let b := s.modulator m
  ((s.count R.C_SDG_FRAMES_SENT).setModulator m { b with sending := false, chips := [], sent := 0 }).onProbeOf m .sending
    fun p => { p with st := .collect }

/-- A modulator stops (R340): a frame being sent falls over 480 samples and is counted, an armed one is not sent. -/
def State.stopBeacon (s : State) (m : Nat) : State :=
  let b := s.modulator m
  if b.sending && !b.falling then (s.count R.C_SDG_ABORTED).setModulator m { b with armed := none, falling := true }
  else s.setModulator m { b with armed := none }

/-- Every modulator stops (R340, R351). -/
def State.stopBeacons (s : State) : State := (s.sdg.mods.map Prod.fst).foldl (fun (s : State) m => s.stopBeacon m) s

/-- The modulators after a mix frame: 480 samples more have been sent, and a fall is over (R340). -/
def State.advanceBeacons (s : State) : State :=
  s.sdg.mods.foldl (fun (s : State) e =>
    if !e.2.sending then s
    else if e.2.falling then s.setModulator e.1 { e.2 with sending := false, falling := false, chips := [], sent := 0 }
    else s.setModulator e.1 { e.2 with sent := e.2.sent + 480 }) s

/-- Whether a modulator sends at sample `i` of the frame being mixed. -/
def Modulator.sends (m : Modulator) (i : Nat) : Bool := m.sending && m.sent + i < beaconSamples

end Sys2Proof.Machine
end

