-- ==== Sys2Proof/Machine/DecodeSlots.lean ====
section
/-! DEFINITION. The slots of the audio legs that are decoded, and the encodes that legs share (spec/01_architecture.md, R47, R48;
spec/08_audio_mix.md, R272, R284). -/

namespace Sys2Proof.Machine

open Sys2Proof

/-- The state with the Mix Matrix changed. -/
def State.withMxm (s : State) (f : Mxm → Mxm) : State := { s with mxm := f s.mxm }

/-- A leg's AUDIO_ROLE (R292): 0 NONE, 1 LISTENER, 2 CANDIDATE, 3 TALKER, 4 JOINER. -/
def State.roleOfLeg (s : State) (leg : Nat) : Nat := s.obj 0x602001 leg 0

/-- Whether a leg holds a decode slot: as a candidate, talker or joiner, or as a leg without a level extension (R272). -/
def State.decodes (s : State) (leg : Nat) : Bool := 2 ≤ s.roleOfLeg leg || SMap.get false s.fw.noLevel leg

/-- The decode slots held. -/
def State.decodesUsed (s : State) : Nat :=
  let byRole := s.objNum.filter fun e => e.1 / 16777216 == 0x602001 && 2 ≤ e.2
  byRole.length + (s.fw.noLevel.filter fun e => s.roleOfLeg e.1 < 2).length

/-- DECODE_SLOTS_FREE is shown. -/
def State.showSlots (s : State) : State := s.setObj 0x600005 0 1024 (1024 - s.decodesUsed)

/-- A role is written (R292); a leg that leaves audio gives up its slot. -/
def State.setRole (s : State) (leg role : Nat) : State :=
  let s := s.setObj 0x602001 leg 0 role
  let s := if role = 2 then s else s.withMxm fun m => { m with cands := SMap.erase m.cands leg }
  let s := if role = 0 then s.withFw fun y => { y with noLevel := SMap.set false y.noLevel leg false } else s
  s.showSlots

/-- Whether a leg is in its Sundog probe window (R272, R339). -/
def State.probing (s : State) (leg : Nat) : Bool := s.sdg.probes.any fun p => p.leg == leg && p.st != .queued

/-- A leg that is neither talker nor candidate any more: JOINER in its probe window, LISTENER outside it. -/
def State.restRole (s : State) (leg : Nat) : State := s.setRole leg (if s.probing leg then 4 else 1)

/-- The candidate with the highest score in the module. -/
def State.worstCandidate (s : State) : Option Nat :=
  (s.mxm.cands.foldl (fun (b : Option (Nat × Nat)) e => match b with | none => some e | some x => if x.2 < e.2 then some e else b) none).map Prod.fst

/-- A request for a decode slot waits (R272), counted when it begins to. -/
def State.deferDecode (s : State) (leg : Nat) : State :=
  if SMap.get false s.mxm.deferred leg then s
  else (s.bumpObj 0x60000B 0).withMxm fun m => { m with deferred := SMap.insert m.deferred leg true }

/-! ### Requests for probes (R339) -/

/-- The probe of a leg, if it has one. -/
def State.probeOf (s : State) (leg : Nat) : Option Probe := s.sdg.probes.find? fun p => p.leg == leg

/-- A probe of a leg is requested (R339, R352), by PROBE_NOW or by vendor firmware: whether the downlink of an Opus leg has fullband
bandwidth is a free value (R345). -/
def State.requestProbe (s : State) (leg : Nat) : State × Nat :=
  if !s.sdgRuns then (s, St.sdgOffline)
  else if (s.probeOf leg).isSome then (s, St.sdgProbeBusy)
  else if s.obj 0x40100E leg 1 != 1 || s.free 2 = 0 then (s.spent, St.sdgNotFullband)
  else ({ s with sdg := { s.sdg with probes := s.sdg.probes ++ [(⟨leg, s.confOf leg, .queued, 0, 0, 0, 0⟩ : Probe)] } }.spent, St.ok)

/-- The key of a pair of legs. -/
def pairKey (a b : Nat) : Nat := min a b * 16384 + max a b

/-- Whether two legs have been tested against each other within SWEEP_AGE_S (R339). -/
def State.tested (s : State) (a b : Nat) : Bool :=
  match SMap.find? s.sdg.tests (pairKey a b) with
  | some c => !s.passed c (s.obj 0x620006 0 300 * secCycles)
  | none => false

/-- A leg enters the decoded set: vendor firmware requests a probe of every leg of its conference that has not been tested against it (R339). -/
def State.sweepConf (s : State) (leg : Nat) : State :=
  let conf := s.confOf leg
  if conf = 0xFFFF || !s.sdgRuns then s
  else ((s.legsOf conf).filter fun e => e != leg && !s.tested e leg).foldl (fun (s : State) e => (s.requestProbe e).1) s

/-- A leg takes a decode slot in a role: 0 stands for a leg without a level extension, whose AUDIO_ROLE stays as it is. Where its decode
begins, its jitter buffer's target starts at 40 ms or JB_MIN_MS (R269), and its conference is swept (R339). -/
def State.grantDecode (s : State) (leg role score : Nat) : State :=
  let s := s.withMxm fun m => { m with deferred := SMap.erase m.deferred leg }
  let s := if s.decodes leg then s else (s.setObj 0x602006 leg 40 (max 40 (s.obj 0x602004 leg 20))).sweepConf leg
  if role = 0 then (s.withFw fun y => { y with noLevel := SMap.set false y.noLevel leg true }).showSlots
  else
    let s := s.setRole leg role
    if role = 2 then s.withMxm fun m => { m with cands := SMap.insert m.cands leg score } else s

/-- A leg asks for a decode slot in a role (R272): a joiner does not become a candidate, nor a talker a joiner. -/
def State.takeDecode (s : State) (leg role score : Nat) : State :=
  if (role = 2 && s.roleOfLeg leg = 4) || (role = 4 && s.roleOfLeg leg = 3) then s
  else if s.decodes leg || s.decodesUsed < 1024 then s.grantDecode leg role score
  else if role = 3 then
    match s.worstCandidate with
    | some c => (s.setRole c 1).grantDecode leg role score
    | none => s.deferDecode leg
  else s.deferDecode leg

/-- The legs of a conference in their probe windows that wait for a slot ask again. -/
def State.seatJoiners (s : State) (conf : Nat) : State :=
  (s.sdg.probes.filter fun p => p.conf == conf && p.st != .queued && !s.decodes p.leg).foldl (fun (s : State) p => s.takeDecode p.leg 4 0) s

/-! ### Shared encodes (R284) -/

/-- The co-location group of a leg (R348, R354), where it has one. -/
def State.groupOf (s : State) (id : Nat) : Option Nat :=
  let g := s.obj 0x621003 (id % 16384) 0xFFFFFFFF
  if s.isLocal id && g != 0xFFFFFFFF then some g else none

/-- The minus-own bus of the voice of a leg's group (R349), where the group has a local voice. -/
def State.groupBus (s : State) (leg : Nat) : Option Nat :=
  let g := s.groupOf (s.rosterId leg)
  let voice := (SMap.get [] s.mxm.talkers (s.confOf leg)).find? fun t => g.isSome && s.groupOf t.id == g
  voice.bind fun t => SMap.get none s.fw.ownBus (t.id % 16384)

/-- The bus that a leg hears in place of the listener mix: its probe's (R287), that of its group's voice (R349), or its own as a talker
(R285). -/
def State.hears (s : State) (leg : Nat) : Option Nat :=
  match s.sdg.probes.find? fun p => p.leg == leg && p.st != .queued with
  | some p => some p.bus
  | none => s.groupBus leg <|> SMap.get none s.fw.ownBus leg

/-- The codec variant of a leg, as far as its objects say it: codec, packet time and Opus bit rate; what else R284 names is the same for every
leg (log entry 115). -/
def State.variant (s : State) (leg : Nat) : Nat × Nat × Nat :=
  let codec := s.obj 0x40100E leg 1
  (codec, s.obj 0x602008 leg 20, if codec = 1 then s.obj 0x602009 leg 32 else 0)

/-- AUDIO_ENCODES of a conference (R284): the distinct pairs of a bus and a variant that its connected legs use. -/
def State.audioEncodes (s : State) (conf : Nat) : Nat :=
  let legs := (s.legsOf conf).filter fun l => s.obj 0x401001 l 0 == 3 && s.obj 0x40100E l 1 != 0
  ((legs.map fun l => (s.hears l, s.variant l)).eraseDups).length

end Sys2Proof.Machine
end

