-- ==== Sys2Proof/Machine/HostQueue.lean ====
section
/-! DEFINITION. A host queue's ring and the fetch of its descriptors (spec/15_host_interface.md, R488, R489), which a pool's level pauses and
resumes (R106). -/

namespace Sys2Proof.Machine

open Sys2Proof

/-- The queue `q`. -/
def State.queue (s : State) (q : Nat) : StreamQueue := SMap.get StreamQueue.init s.queues q

/-- The words a queue holds, committed or not (FILL). -/
def StreamQueue.fill (q : StreamQueue) : Nat :=
  (q.packets.map List.length).sum + q.openPkt.length + q.reading.length

/-- The BAR0 address of a function's page, which also names the function in entries. -/
def fnPage (n : Nat) : Nat := 0x80000 + n * 0x8000

/-- Stream queue of a function's queue `j` (R487). -/
def hostQueue (n j : Nat) : Nat := 272 + 32 * n + j

/-- A submission queue. -/
def State.sub (s : State) (n j : Nat) : SubQueue := SMap.get SubQueue.init s.subs (hostQueue n j)

/-- The state with a submission queue replaced. -/
def State.setSub (s : State) (n j : Nat) (q : SubQueue) : State :=
  { s with subs := SMap.set SubQueue.init s.subs (hostQueue n j) q }

/-- Whether the host interface serves a queue (R512, R496). -/
def State.serves (s : State) (n j : Nat) : Bool :=
  s.isSet R.HIF_CTRL_ENABLE && s.isSet (R.BPM_Qq_CFG_ENABLE (hostQueue n j)) && (s.fn n).exists_

/-- The entries of a queue's ring (R488). -/
def State.ringSize (s : State) (n j : Nat) : Nat := 2 ^ s.get (R.HIF_Fn_Qj_SIZE_LOG2 n j)

/-- The host address of entry `e` of a queue's ring. -/
def State.ringEntry (s : State) (n j e : Nat) : Nat := s.pair (R.HIF_Fn_Qj_BASE_LO_ADDR n j) (R.HIF_Fn_Qj_BASE_HI_ADDR n j) + 32 * e

/-- A queue's HEAD. -/
def State.hqHead (s : State) (n j : Nat) : Nat := s.get (R.HIF_Fn_Qj_HEAD_ENTRY n j)

/-- A queue's TAIL. -/
def State.hqTail (s : State) (n j : Nat) : Nat := s.get (R.HIF_Fn_Qj_TAIL_ENTRY n j)

/-- Entries from `a` to `b` around a ring. -/
def ringGap (size a b : Nat) : Nat := (b + size - a % size) % size

/-- Whether a queue is in RING mode. -/
def State.isRing (s : State) (n j : Nat) : Bool := !s.isSet (R.HIF_Fn_Qj_CFG_MODE n j)

/-- The Billow class of a queue (R489). -/
def State.hostClass (s : State) (n j : Nat) : AllocClass :=
  let c := s.get (R.HIF_Fn_Qj_CFG_CLASS n j)
  if c = 0 then .control else if c = 1 then .reliable else .media

/-- Whether a queue is paused: RING, class RELIABLE, and a pool of tier HBM at WARN2 or STOP (R489). -/
def State.hostPaused (s : State) (n j : Nat) : Bool :=
  s.isRing n j && s.hostClass n j == AllocClass.reliable && (2 ≤ s.get (R.BPM_Pp_LEVEL_LEVEL 4) || 2 ≤ s.get (R.BPM_Pp_LEVEL_LEVEL 5))

/-- How many descriptors the next read may ask for: at most 8, those the ring holds from HEAD on, up to its end, and those the stream
queue has room for (R488). -/
def State.fetchCount (s : State) (n j : Nat) : Nat :=
  let size := s.ringSize n j
  let have_ := (s.sub n j).fetched.length
  let first := (s.hqHead n j + have_) % size
  let room := s.get (R.BPM_Qq_DEPTH_WORDS (hostQueue n j)) - (s.queue (hostQueue n j)).fill - have_
  min (min 8 room) (min (ringGap size (s.hqHead n j) (s.hqTail n j) - have_) (size - first))

/-- Ask for the next descriptors of a RING queue when it is served, not paused, has room and has no read under way (R488, R489). -/
def State.startFetch (s : State) (n j : Nat) : State :=
  let s := s.putBit (R.HIF_Fn_Qj_STAT_PAUSED n j) (s.hostPaused n j)
  let c := s.fetchCount n j
  if s.serves n j && s.isRing n j && !s.hostPaused n j && (s.sub n j).fetch.isNone && c != 0 then
    let first := (s.hqHead n j + (s.sub n j).fetched.length) % s.ringSize n j
    (s.setSub n j { s.sub n j with fetch := some (c, s.cycle) }).emit (.hostRead n (s.ringEntry n j first) (32 * c))
  else s

/-- Every host queue pauses or resumes by the pools' levels (R106, R489). -/
def State.resumeHost (s : State) : State :=
  (List.range 256).foldl (fun (s : State) k => if (s.fn (k / 16)).exists_ then s.startFetch (k / 16) (k % 16) else s) s

end Sys2Proof.Machine
end

