-- ==== Sys2Proof/Machine/Buffers.lean ====
section
/-! DEFINITION. Billow buffer pools and stream queues (spec/03_buffers_queues.md). -/

namespace Sys2Proof.Machine

open Sys2Proof

/-! ### Pools -/

/-- The cell size of a pool (R100). -/
def poolCellSize (p : Nat) : Nat := [256, 2048, 9216, 65536, 2048, 65536].getD p 0

/-- The cells of a pool (R100). -/
def poolCells (p : Nat) : Nat := [65536, 8192, 1024, 112, 1048576, 65536].getD p 0

/-- The base address of a pool (R100). -/
def State.poolBase (s : State) (p : Nat) : Nat :=
  if p = 4 then s.pair R.BPM_H1_BASE_LO_ADDR R.BPM_H1_BASE_HI_ADDR
  else if p = 5 then s.pair R.BPM_H3_BASE_LO_ADDR R.BPM_H3_BASE_HI_ADDR
  else [0x10000000000, 0x10001000000, 0x10002000000, 0x10002900000].getD p 0

/-- The smallest pool of a tier whose cell holds the size (R102). -/
def poolFor (onDie : Bool) (size : Nat) : Nat :=
  if onDie then if size ≤ 256 then 0 else if size ≤ 2048 then 1 else if size ≤ 9216 then 2 else 3
  else if size ≤ 2048 then 4 else 5

/-- The allocated cells of a pool. -/
def State.used (s : State) (p : Nat) : SMap Bool := SMap.get [] s.bpm.used p

/-- The state with a pool's bitmap replaced. -/
def State.setUsed (s : State) (p : Nat) (m : SMap Bool) : State :=
  { s with bpm := { s.bpm with used := SMap.set [] s.bpm.used p m } }

/-- The hold FIFO of a pool. -/
def State.heldOf (s : State) (p : Nat) : List HeldAlloc := SMap.get [] s.bpm.held p

/-- The state with a pool's hold FIFO replaced, and its length shown in HELD (at most 255). -/
def State.setHeld (s : State) (p : Nat) (l : List HeldAlloc) : State :=
  { s with bpm := { s.bpm with held := SMap.set [] s.bpm.held p l } }.put (R.BPM_Pp_LEVEL_HELD p) (min 255 l.length)

/-- The lowest key from `k` that a rising map does not list (the find-first-free search of R104). -/
def firstFree : Nat → SMap Bool → Nat
  | k, [] => k
  | k, (j, _) :: m => if j = k then firstFree (k + 1) m else if j < k then firstFree k m else k

/-- The next level of a pool and its log severity, if its free count moves it (R106). -/
def levelStep (level f w1 w2 st hy : Nat) : Option (Nat × Option Nat) :=
  if level = 0 then if f ≤ w1 then some (1, some Sev.note) else none
  else if level = 1 then if f ≤ w2 then some (2, some Sev.warn) else if w1 + hy < f then some (0, some Sev.note) else none
  else if level = 2 then if f ≤ st then some (3, some Sev.warn) else if w2 + hy < f then some (1, none) else none
  else if st + hy < f then some (2, none) else none

/-- Move a pool through up to `n` levels (R106: a change that crosses several thresholds passes through each). -/
def State.judge (s : State) (p : Nat) : Nat → State
  | 0 => s
  | n + 1 =>
    match levelStep (s.get (R.BPM_Pp_LEVEL_LEVEL p)) (s.get (R.BPM_Pp_FREE_F p)) (s.get (R.BPM_Pp_WARN1_CELLS p))
        (s.get (R.BPM_Pp_WARN2_CELLS p)) (s.get (R.BPM_Pp_STOP_CELLS p)) (s.get (R.BPM_Pp_HYST_CELLS p)) with
    | none => s
    | some (l, sev) =>
      let s := (s.put (R.BPM_Pp_LEVEL_LEVEL p) l).putBit ⟨R.BPM_STATUS_STOPPED.addr, 8 + p, 1⟩ (l == 3)
      let s := match sev with | some v => s.log Unit.bpm p v Ev.poolLevel p l | none => s
      let s := if 4 ≤ p then s.resumeHost else s
      s.judge p n

/-- A change of a pool's free count: the count, its lowest value and the level (R106, R127). -/
def State.setFree (s : State) (p f : Nat) : State :=
  let s := s.put (R.BPM_Pp_FREE_F p) f
  let s := if f < s.get (R.BPM_Pp_MINFREE_F p) then s.put (R.BPM_Pp_MINFREE_F p) f else s
  s.judge p 3

/-- Give a cell of a pool that has one: the lowest free cell (R104). -/
def State.takeCell (s : State) (p : Nat) : State × Nat :=
  let i := firstFree 0 (s.used p)
  let s := s.setUsed p (SMap.set false (s.used p) i true)
  let s := (s.bump (R.BPM_Pp_ALLOCS_COUNT p)).setFree p (s.get (R.BPM_Pp_FREE_F p) - 1)
  (s, s.poolBase p + i * poolCellSize p)

/-- What an allocation request gets. -/
inductive AllocOut where
  | cell (ptr : Nat)
  | held
  | refused (code : Nat)
  deriving DecidableEq, Repr

/-- The HBM pool `p` cannot serve yet (R112). -/
def State.poolNotReady (s : State) (p : Nat) : Bool := 4 ≤ p && !s.isSet R.BPM_STATUS_H_READY

/-- How a class fares at a pool with `f` free cells at a level: served, or what becomes of it (R107). -/
def allocVerdict (cls : AllocClass) (level f : Nat) (nowait : Bool) : Option AllocOut :=
  match cls with
  | .media => if f = 0 then some (.refused St.poolEmpty) else none
  | .reliable => if f = 0 || level == 3 then some (if nowait then .refused St.poolStop else .held) else none
  | .control => if f = 0 then some (if nowait then .refused St.poolStop else .held) else none

/-- Put a request in its pool's hold FIFO, or refuse it when the FIFO is full (R108). -/
def State.hold (s : State) (p : Nat) (h : HeldAlloc) : State × AllocOut :=
  if 256 ≤ (s.heldOf p).length then (s.bump (R.BPM_Pp_HOLD_TIMEOUTS_COUNT p), .refused St.poolStop)
  else ((s.setHeld p (s.heldOf p ++ [h])).bump (R.BPM_Pp_HOLDS_COUNT p), .held)

/-- An allocation request (R102, R103, R107, R108, R112). -/
def State.allocCell (s : State) (who : Sender) (req size : Nat) (cls : AllocClass) (onDie nowait : Bool) : State × AllocOut :=
  let p := poolFor onDie size
  if size = 0 || 65536 < size then (s, .refused St.badSize)
  else if !s.isSet R.BPM_CTRL_ENABLE || s.poolNotReady p then (s, .refused St.poolOffline)
  else
    match allocVerdict cls (s.get (R.BPM_Pp_LEVEL_LEVEL p)) (s.get (R.BPM_Pp_FREE_F p)) nowait with
    | none => let r := s.takeCell p; (r.1, .cell r.2)
    | some .held => s.hold p ⟨who, req, cls, s.cycle⟩
    | some o =>
      let s := if cls = .media then s.bump (R.BPM_Pp_EMPTY_DROPS_COUNT p) else s.bump (R.BPM_Pp_HOLD_TIMEOUTS_COUNT p)
      (s, o)

/-- The pool that holds a pointer (R110 check 1). -/
def State.poolOf (s : State) (ptr : Nat) : Option Nat :=
  (List.range 6).find? fun p => s.poolBase p ≤ ptr && ptr < s.poolBase p + poolCells p * poolCellSize p

/-- The oldest held request of a class, and the FIFO without it. -/
def takeHeld (cls : AllocClass) : List HeldAlloc → Option (HeldAlloc × List HeldAlloc)
  | [] => none
  | h :: t => if h.cls = cls then some (h, t) else (takeHeld cls t).map fun r => (r.1, h :: r.2)

/-- The held request that a freed cell goes to: the oldest CONTROL, else the oldest RELIABLE once the pool has left STOP
(R108). -/
def State.nextHeld (s : State) (p : Nat) : Option (HeldAlloc × List HeldAlloc) :=
  match takeHeld .control (s.heldOf p) with
  | some r => some r
  | none => if s.get (R.BPM_Pp_LEVEL_LEVEL p) = 3 then none else takeHeld .reliable (s.heldOf p)

/-- Answer a held request: a request of the host interface's own (fixed unit 8) keeps its answer there, any other sender's
leaves as a completion. -/
def State.answerHeld (s : State) (h : HeldAlloc) (code ptr : Nat) : State :=
  if h.who = .fixed 8 then { s with hostGrants := SMap.set none s.hostGrants h.req (some (code, ptr)) }
  else s.emit (.done h.who code (if code = St.ok then [h.req, ptr] else [h.req]))

/-- Free cell `i` of pool `p`, which is allocated: its bit clears and the level is judged, and a held request that the
cell goes to takes it at once (R104, R106, R108). -/
def State.freeCell (s : State) (p i : Nat) : State :=
  let s := (s.setUsed p (SMap.set false (s.used p) i false)).setFree p (s.get (R.BPM_Pp_FREE_F p) + 1)
  match s.nextHeld p with
  | none => s
  | some (h, rest) =>
    let s := (s.setHeld p rest).setUsed p (SMap.set false (s.used p) i true)
    let s := (s.bump (R.BPM_Pp_ALLOCS_COUNT p)).setFree p (s.get (R.BPM_Pp_FREE_F p) - 1)
    s.answerHeld h St.ok (s.poolBase p + i * poolCellSize p)

/-- Reject a returned pointer: it is latched, counted and logged (R110). -/
def State.badPointer (s : State) (who : Sender) (ptr : Nat) (pool : Option Nat) : State :=
  let s := s.putPair R.BPM_BADPTR_LAST_LO_PTR R.BPM_BADPTR_LAST_HI_PTR ptr
  let s := s.put R.BPM_BADPTR_SENDER_SENDER who.stamp
  let s := match pool with | some p => s.bump (R.BPM_Pp_BAD_PTR_COUNT p) | none => s.bump R.BPM_BADPTR_NOPOOL_COUNT
  s.log Unit.bpm (pool.getD 0xFFFF) Sev.warn Ev.badPointer ptr who.stamp

/-- Return a pointer to Billow: the checks of R110 in order, then the free. -/
def State.returnCell (s : State) (who : Sender) (ptr : Nat) : State × Nat :=
  match s.poolOf ptr with
  | none => (s.badPointer who ptr none, St.badPointer)
  | some p =>
    let o := ptr - s.poolBase p
    if o % poolCellSize p ≠ 0 then (s.badPointer who ptr (some p), St.badPointer)
    else if !SMap.get false (s.used p) (o / poolCellSize p) then (s.badPointer who ptr (some p), St.badPointer)
    else (s.freeCell p (o / poolCellSize p), St.ok)

/-- What stands for the cell of a packet or frame that has none: no 64-bit pointer is it. -/
def noCell : Nat := 2 ^ 64

/-- A fixed unit frees a cell of its own, if it holds one: the checks are those of any return (R110). -/
def State.releaseBy (s : State) (unit ptr : Nat) : State := if ptr = noCell then s else (s.returnCell (.fixed unit) ptr).1

/-- The relay frees a cell of its own. -/
def State.release (s : State) (ptr : Nat) : State := s.releaseBy 0 ptr

/-- ALLOC (R102, R107). -/
def execAlloc (who : Sender) (req size : Nat) (cls : AllocClass) (onDie nowait : Bool) (s : State) : Result :=
  match s.allocCell who req size cls onDie nowait with
  | (t, .cell ptr) => .next (t.emit (.done who St.ok [req, ptr]))
  | (t, .held) => .next t
  | (t, .refused c) => .next (t.emit (.done who c [req]))

/-- FREE (R110). -/
def execFree (who : Sender) (ptr : Nat) (s : State) : Result :=
  let r := s.returnCell who ptr
  .next (r.1.emit (.done who r.2 [ptr]))

/-- HOLD_TIMEOUT (R108): the pool's oldest held request has waited longer than BPM_HOLD_MAX. -/
def execHoldTimeout (pool : Fin 6) (s : State) : Result :=
  match s.heldOf pool with
  | [] => .next s
  | h :: t =>
    if h.since + s.get R.BPM_HOLD_MAX_MICROSECONDS * usCycles < s.cycle then
      .next (((s.setHeld pool t).bump (R.BPM_Pp_HOLD_TIMEOUTS_COUNT pool)).answerHeld h St.poolStop 0)
    else .next s

/-- Clear a pool's bitmap and judge its level with every cell free; MINFREE stays (R112). -/
def State.resetPool (s : State) (p : Nat) : State :=
  ((s.setUsed p []).put (R.BPM_Pp_FREE_F p) (poolCells p)).judge p 3

/-- A RESET_POOLS write of word `w`: taken only while Billow is disabled (R112, R126). -/
def State.resetPools (s : State) (mask w : Nat) : State :=
  if s.isSet R.BPM_CTRL_ENABLE then
    (s.putBit R.BPM_STATUS_CFG_IGNORED true).log Unit.bpm 0 Sev.note Ev.cfgIgnored 4 w
  else (List.range 6).foldl (fun s p => if mask.testBit p then s.resetPool p else s) s

/-- RESET_POOLS (R112). -/
def execResetPools (who : Sender) (mask : Nat) (s : State) : Result :=
  s.access who R.BPM_CTRL_ENABLE.addr fun s =>
  .next (s.resetPools mask (mask * 256))

/-- Complete every held request of a pool with POOL_OFFLINE (R112). -/
def State.offline (s : State) (p : Nat) : State :=
  (s.heldOf p).foldl (fun (s : State) h => s.answerHeld h St.poolOffline 0) (s.setHeld p [])

/-- Clear BPM_CTRL ENABLE (R112). -/
def State.bpmDisable (s : State) : State :=
  (List.range 6).foldl State.offline (s.putBit R.BPM_CTRL_ENABLE false)

/-- BPM_DISABLE (R112). -/
def execBpmDisable (who : Sender) (s : State) : Result :=
  s.access who R.BPM_CTRL_ENABLE.addr fun s =>
  .next s.bpmDisable

/-- The register field of a threshold. -/
def thresholdFld (t : Threshold) (p : Nat) : Fld :=
  match t with
  | .warn1 => R.BPM_Pp_WARN1_CELLS p
  | .warn2 => R.BPM_Pp_WARN2_CELLS p
  | .stop => R.BPM_Pp_STOP_CELLS p
  | .hyst => R.BPM_Pp_HYST_CELLS p

/-- Whether a threshold write keeps WARN1 ≥ WARN2 ≥ STOP and the pool's size (R109). -/
def State.thresholdOk (s : State) (p : Nat) (t : Threshold) (v : Nat) : Bool :=
  let w1 := if t = .warn1 then v else s.get (R.BPM_Pp_WARN1_CELLS p)
  let w2 := if t = .warn2 then v else s.get (R.BPM_Pp_WARN2_CELLS p)
  let st := if t = .stop then v else s.get (R.BPM_Pp_STOP_CELLS p)
  st ≤ w2 && w2 ≤ w1 && v ≤ poolCells p

/-- A write of word `w` to a pool threshold (R109): it takes effect at the pool's next allocation or free. -/
def State.writeThreshold (s : State) (p : Nat) (t : Threshold) (w : Nat) : State :=
  let v := w % 2 ^ 21
  if s.thresholdOk p t v then s.putVoted (thresholdFld t p) v
  else (s.putBit R.BPM_STATUS_CFG_IGNORED true).log Unit.bpm p Sev.note Ev.cfgIgnored ((thresholdFld t p).addr % 0x10000) w

/-- The register of a threshold (R127). -/
def thresholdAddr (p : Nat) : Threshold → Nat
  | .warn1 => (R.BPM_Pp_WARN1_CELLS p).addr
  | .warn2 => (R.BPM_Pp_WARN2_CELLS p).addr
  | .stop => (R.BPM_Pp_STOP_CELLS p).addr
  | .hyst => (R.BPM_Pp_HYST_CELLS p).addr

/-- POOL_THRESHOLD_WRITE (R109). -/
def execPoolThresholdWrite (who : Sender) (pool : Fin 6) (which : Threshold) (value : Nat) (s : State) : Result :=
  s.access who (thresholdAddr pool which) fun s =>
  .next (s.writeThreshold pool which value)

/-- A write of MINFREE sets it to the current free count (R127). -/
def State.writeMinfree (s : State) (p : Nat) : State := s.put (R.BPM_Pp_MINFREE_F p) (s.get (R.BPM_Pp_FREE_F p))

/-- MINFREE_WRITE (R127). -/
def execMinfreeWrite (who : Sender) (pool : Fin 6) (s : State) : Result :=
  s.access who (R.BPM_Pp_MINFREE_F pool).addr fun s =>
  .next (s.writeMinfree pool)

/-! ### Stream queues -/

/-- The octets of a queue's words (R114, R630). -/
def queueOctets (n : Nat) : Nat := [16, 32, 64].getD (queueOwner n).1 16

/-- A word in the width of its queue: shorter data is followed by zeros, and what goes beyond the width is not there to be written. -/
def fitWord (n : Nat) (w : QWord) : QWord :=
  { w with data := w.data.take (queueOctets n) ++ List.replicate (queueOctets n - w.data.length) 0 }

/-- The committed packets whose EOP word is unread (PKTS). -/
def StreamQueue.pkts (q : StreamQueue) : Nat := q.packets.length + (if q.reading.isEmpty then 0 else 1)

/-- Whether no committed word is unread (R118). -/
def StreamQueue.empty (q : StreamQueue) : Bool := q.packets.isEmpty && q.reading.isEmpty

/-- The state with a queue replaced, its counts and flags shown in its registers (R118, R128). -/
def State.setQueue (s : State) (n : Nat) (q : StreamQueue) : State :=
  let s := { s with queues := SMap.set StreamQueue.init s.queues n q }
  let s := s.putBit (R.BPM_Qq_STAT_EMPTY n) q.empty
  let s := s.putBit (R.BPM_Qq_STAT_FULL n) (q.fill == s.get (R.BPM_Qq_DEPTH_WORDS n))
  (s.put (R.BPM_Qq_FILL_FILL n) q.fill).put (R.BPM_Qq_FILL_PKTS n) (min 65535 q.pkts)

/-- Judge the order of a queue after a commit or the removal of an EOP word (R122). -/
def State.judgeOrder (s : State) (n : Nat) : State :=
  if !s.isSet (R.BPM_Qq_CFG_ORDER_MODE n) then s.putBit (R.BPM_Qq_STAT_PRIO_ACTIVE n) false
  else
    let f := (s.queue n).fill
    let t := s.get (R.BPM_Qq_PRIO_PRIO_THRESH n)
    let h := s.get (R.BPM_Qq_PRIO_PRIO_HYST n)
    if s.isSet (R.BPM_Qq_STAT_PRIO_ACTIVE n) then
      if f + h < t || f = 0 then s.putBit (R.BPM_Qq_STAT_PRIO_ACTIVE n) false else s
    else if t < f then s.putBit (R.BPM_Qq_STAT_PRIO_ACTIVE n) true
    else s

/-- The PRIO of a packet, from its SOP word (R116). -/
def packetPrio : List QWord → Nat
  | [] => 0
  | w :: _ => w.prio

/-- A queue with ORDER_MODE 0 stays in ARRIVAL (R122). -/
def State.settleOrder (s : State) (n : Nat) : State :=
  if s.isSet (R.BPM_Qq_CFG_ORDER_MODE n) then s else s.putBit (R.BPM_Qq_STAT_PRIO_ACTIVE n) false

/-- The lowest PRIO value among packets. -/
def lowestPrio (ps : List (List QWord)) : Nat := ps.foldl (fun m p => min m (packetPrio p)) 7

/-- The oldest packet that satisfies a test, and the others in order. -/
def takeFirst {α : Type} (t : α → Bool) : List α → Option (α × List α)
  | [] => none
  | a :: l => if t a then some (a, l) else (takeFirst t l).map fun r => (r.1, a :: r.2)

/-- The packet the consumer starts next: the oldest, or the oldest of the lowest PRIO value (R122). -/
def StreamQueue.pick (q : StreamQueue) (prioActive : Bool) : Option (List QWord × List (List QWord)) :=
  takeFirst (fun p => !prioActive || packetPrio p == lowestPrio q.packets) q.packets

/-- Rewind the packet being written: its words vanish, and the producer's further words are ignored up to its EOP (R117). A packet is
delimited by EOP alone; SOP only marks the word that gives PRIO (log entry 100). -/
def State.rewind (s : State) (n : Nat) (eop : Bool) : State :=
  (s.setQueue n { s.queue n with openPkt := [], rewinding := !eop }).bump (R.BPM_Qq_DROPS_BAD_REWOUND n)

/-- R119 for a write that a full queue does not take: OVERRUN, and the packet is rewound and counted in both counters, also where the write
is the packet's first (log entry 100). -/
def State.overrun (s : State) (n : Nat) (w : QWord) : State :=
  ((s.putBit (R.BPM_Qq_STAT_OVERRUN n) true).rewind n w.eop).bump (R.BPM_Qq_DROPS_OVERRUN_PKTS n)

/-- What a producer is told of its word: OK, QUEUE_FULL or QUEUE_DISABLED. A withheld write answers nothing yet. -/
inductive WriteOut where
  | taken | full | disabled | withheld
  deriving DecidableEq, Repr

/-- A producer writes a word to a queue (R116, R117, R119, R123, R124). -/
def State.writeWord (s : State) (n : Nat) (word : QWord) (owner : WordOwner) : State × WriteOut :=
  let q := s.queue n
  let w := fitWord n word
  if !s.isSet (R.BPM_Qq_CFG_ENABLE n) then (s, .disabled)
  else if !q.stalled.isEmpty then (s.setQueue n { q with stalled := q.stalled ++ [(w, owner)] }, .withheld)
  else if q.rewinding then (s.setQueue n { q with rewinding := !w.eop }, .taken)
  else if q.fill == s.get (R.BPM_Qq_DEPTH_WORDS n) then
    if s.isSet (R.BPM_Qq_CFG_KB3_COMPAT n) then (s.setQueue n { q with stalled := [(w, owner)], since := s.cycle }, .withheld)
    else (s.overrun n w, .full)
  else if w.bad then (s.rewind n w.eop, .taken)
  else if w.eop then
    ((s.setQueue n { q with packets := q.packets ++ [q.openPkt ++ [w]], openPkt := [] }).judgeOrder n, .taken)
  else (s.setQueue n { q with openPkt := q.openPkt ++ [w] }, .taken)

/-- Take the withheld writes of a queue as far as they go (R123). -/
def State.unstall (s : State) (n : Nat) : List (QWord × WordOwner) → State
  | [] => s
  | w :: ws => ((s.writeWord n w.1 w.2).1).unstall n ws

/-- The withheld writes of a queue are offered again after room appeared or the oldest was dropped. -/
def State.retryStalled (s : State) (n : Nat) : State :=
  let ws := (s.queue n).stalled
  if ws.isEmpty then s else (s.setQueue n { s.queue n with stalled := [] }).unstall n ws

/-- The sideband of a word as a number: SOP, EOP, BAD and PRIO. -/
def qwordSide (w : QWord) : Nat := bnat w.sop + 2 * bnat w.eop + 4 * bnat w.bad + 8 * (w.prio % 8)

/-- The consumer takes word `w`, leaving `rest` of its packet. -/
def State.took (s : State) (n : Nat) (q : StreamQueue) (w : QWord) (rest : List QWord) : State × QWord :=
  let s := s.setQueue n { q with reading := rest, last := w }
  let s := if rest.isEmpty then s.judgeOrder n else s
  (s.retryStalled n, w)

/-- A consumer reads the next word, or the last word with UNDERRUN (R118, R122, R124). -/
def State.readWord (s : State) (n : Nat) : State × QWord :=
  let q := s.queue n
  if !s.isSet (R.BPM_Qq_CFG_ENABLE n) then (s.putBit (R.BPM_Qq_STAT_UNDERRUN n) true, fitWord n q.last)
  else
    match q.reading with
    | w :: rest => s.took n q w rest
    | [] =>
      match q.pick (s.isSet (R.BPM_Qq_STAT_PRIO_ACTIVE n)) with
      | some (w :: rest, others) => s.took n { q with packets := others } w rest
      | _ => (s.putBit (R.BPM_Qq_STAT_UNDERRUN n) true, fitWord n q.last)

/-- Post a one-word packet to a queue from inside the device; false when it was refused (R119, R124). -/
def State.post (s : State) (n : Nat) (prio : Nat) (data : List Byte) : State × Bool :=
  match s.writeWord n ⟨data, true, true, false, prio⟩ .entry with
  | (t, .taken) => (t, true)
  | (t, .withheld) => (t, true)
  | (t, _) => (t, false)

/-- Post a one-word event to the queue that a register names; 0 posts nothing, and a refused post is counted. -/
def State.postEvent (s : State) (queue : Nat) (dropCounter : Nat) (data : List Byte) : State :=
  if queue = 0 then s
  else
    let r := s.post queue 0 data
    if r.2 then r.1 else r.1.count dropCounter

/-- QUEUE_WRITE (R116). -/
def execQueueWrite (who : Sender) (queue : Fin 2048) (word : QWord) (s : State) : Result :=
  match s.writeWord queue word (.sender who) with
  | (t, .full) => .next (t.emit (.done who St.queueFull [queue]))
  | (t, .disabled) => .next (t.emit (.done who St.queueDisabled [queue]))
  | (t, _) => .next t

/-- QUEUE_READ (R118). -/
def execQueueRead (who : Sender) (queue : Fin 2048) (s : State) : Result :=
  let r := s.readWord queue
  .next (r.1.emit (.word who queue r.2.data (qwordSide r.2)))

/-- Discard the rest of the packet being read (R121). -/
def State.dropRest (s : State) (n : Nat) : State :=
  if (s.queue n).reading.isEmpty then s.putBit (R.BPM_Qq_STAT_CMD_IGNORED n) true
  else ((s.setQueue n { s.queue n with reading := [] }).judgeOrder n).retryStalled n

/-- DROP_REST (R121). -/
def execDropRest (who : Sender) (queue : Fin 2048) (s : State) : Result :=
  s.access who (R.BPM_Qq_CMD_DROP_REST queue).addr fun s =>
  .next (s.dropRest queue)

/-- Discard every word of a disabled queue (R124). -/
def State.flushQueue (s : State) (n : Nat) : State :=
  if s.isSet (R.BPM_Qq_CFG_ENABLE n) then s.putBit (R.BPM_Qq_STAT_CMD_IGNORED n) true
  else (s.setQueue n { s.queue n with packets := [], openPkt := [], rewinding := false, reading := [] }).judgeOrder n

/-- FLUSH (R124). -/
def execFlush (who : Sender) (queue : Fin 2048) (s : State) : Result :=
  s.access who (R.BPM_Qq_CMD_DROP_REST queue).addr fun s =>
  .next (s.flushQueue queue)

end Sys2Proof.Machine
end

