-- ==== Sys2Proof/Machine/Crypto.lean ====
section
/-! DEFINITION. The standard algorithms that the spec names and does not set out: AES (FIPS 197), counter mode, GCM
(SP 800-38D), XTS (IEEE 1619), SHA-1 and SHA-256 (FIPS 180), HMAC, HKDF, the key derivation of RFC 3711 and ECDSA and ECDH
on P-256 (R362, R363, R364, R382). PRESUMED: the algorithms are their standards', log entry 20. -/

namespace Sys2Proof.Machine

open Sys2Proof

/-! ### Octet strings -/

/-- Octet by octet exclusive or, as long as the shorter. -/
def xorBytes (a b : List Byte) : List Byte := List.zipWith (fun x y => x ^^^ y) a b

/-- Octets cut into blocks of `n`, the last one possibly short; `fuel` blocks at most. -/
def blocksOf (n : Nat) : Nat → List Byte → List (List Byte)
  | 0, _ => []
  | _ + 1, [] => []
  | fuel + 1, b :: bs => (b :: bs).take n :: blocksOf n fuel ((b :: bs).drop n)

/-- The number that octets stand for, most significant first. -/
def osToNat (bs : List Byte) : Nat := bs.foldl (fun v b => v * 256 + b.toNat) 0

/-- `n` octets of a number, most significant first. -/
def natToOs : Nat → Nat → List Byte
  | 0, _ => []
  | n + 1, v => natToOs n (v / 256) ++ [BitVec.ofNat 8 v]

/-- Octets padded with zeros to a multiple of 16. -/
def padBlock (bs : List Byte) : List Byte := bs ++ List.replicate ((16 - bs.length % 16) % 16) 0

/-! ### AES -/

/-- Multiplication by x in AES's field. -/
def xtime (b : Byte) : Byte := (b <<< 1) ^^^ (if b.msb then 0x1B else 0)

/-- The product in AES's field. -/
def gmul (a b : Byte) : Byte :=
  ((List.range 8).foldl (fun (acc : Byte × Byte) i =>
    (if b.toNat.testBit i then acc.1 ^^^ acc.2 else acc.1, xtime acc.2)) (0, a)).1

/-- The inverse in AES's field, 0 for 0: the 254th power. -/
def ginv (a : Byte) : Byte :=
  let a2 := gmul a a
  let a4 := gmul a2 a2
  let a8 := gmul a4 a4
  let a16 := gmul a8 a8
  let a32 := gmul a16 a16
  let a64 := gmul a32 a32
  let a128 := gmul a64 a64
  gmul a128 (gmul a64 (gmul a32 (gmul a16 (gmul a8 (gmul a4 a2)))))

/-- The S-box. -/
def subByte (a : Byte) : Byte :=
  let b := ginv a
  b ^^^ b.rotateLeft 1 ^^^ b.rotateLeft 2 ^^^ b.rotateLeft 3 ^^^ b.rotateLeft 4 ^^^ 0x63

/-- The inverse S-box. -/
def invSubByte (a : Byte) : Byte := ginv (a.rotateLeft 1 ^^^ a.rotateLeft 3 ^^^ a.rotateLeft 6 ^^^ 0x05)

/-- The key schedule from word `i` on, newest word first. -/
def expandKey (nk : Nat) : Nat → Nat → Byte → List (List Byte) → List (List Byte)
  | 0, _, _, ws => ws
  | fuel + 1, i, rc, ws =>
    let t := ws.headD []
    let t' := if i % nk = 0 then
        xorBytes ((t.drop 1 ++ t.take 1).map subByte) [rc, 0, 0, 0]
      else if 6 < nk && i % nk = 4 then t.map subByte else t
    expandKey nk fuel (i + 1) (if i % nk = 0 then xtime rc else rc) (xorBytes (ws.getD (nk - 1) []) t' :: ws)

/-- The round keys of a 16- or 32-octet key. -/
def roundKeys (key : List Byte) : List (List Byte) :=
  let nk := key.length / 4
  let ws := (expandKey nk (4 * (nk + 7) - nk) nk 1 (blocksOf 4 8 key).reverse).reverse
  (List.range (nk + 7)).map fun r => ((ws.drop (4 * r)).take 4).flatten

/-- Row shifts: the octet at row r, column c comes from column c + r, or c − r in the inverse. -/
def shiftRows (inverse : Bool) (st : List Byte) : List Byte :=
  (List.range 16).map fun i =>
    let r := i % 4
    let c := i / 4
    st.getD (4 * ((if inverse then c + 4 - r else c + r) % 4) + r) 0

/-- Column mixing by the circulant matrix with first row `m`. -/
def mixColumns (m : List Byte) (st : List Byte) : List Byte :=
  (List.range 16).map fun i =>
    (List.range 4).foldl (fun a k => a ^^^ gmul (m.getD ((k + 4 - i % 4) % 4) 0) (st.getD (4 * (i / 4) + k) 0)) 0

/-- AES encryption of a block. -/
def aesEncrypt (key blk : List Byte) : List Byte :=
  match roundKeys key with
  | [] => blk
  | k :: ks =>
    let st := ks.dropLast.foldl (fun st rk => xorBytes (mixColumns [2, 3, 1, 1] (shiftRows false (st.map subByte))) rk)
      (xorBytes blk k)
    xorBytes (shiftRows false (st.map subByte)) (ks.getLastD [])

/-- AES decryption of a block. -/
def aesDecrypt (key blk : List Byte) : List Byte :=
  match (roundKeys key).reverse with
  | [] => blk
  | k :: ks =>
    let st := ks.dropLast.foldl
      (fun st rk => mixColumns [14, 11, 13, 9] (xorBytes ((shiftRows true st).map invSubByte) rk)) (xorBytes blk k)
    xorBytes ((shiftRows true st).map invSubByte) (ks.getLastD [])

/-- Counter mode from a 128-bit counter: block i takes counter + i modulo 2^`w` in its low `w` bits. -/
def ctrMode (w : Nat) (key : List Byte) (ctr : Nat) (data : List Byte) : List Byte :=
  let hi := ctr - ctr % 2 ^ w
  ((blocksOf 16 data.length data).zipIdx.map fun b =>
    xorBytes b.1 (aesEncrypt key (natToOs 16 (hi + (ctr + b.2) % 2 ^ w)))).flatten

/-! ### GCM -/

/-- The product in GCM's field, blocks as numbers with bit 0 of the standard leftmost. -/
def ghashMul (x y : Nat) : Nat :=
  ((List.range 128).foldl (fun (acc : Nat × Nat) i =>
    (if x.testBit (127 - i) then acc.1 ^^^ acc.2 else acc.1,
     if acc.2 % 2 = 1 then (acc.2 / 2) ^^^ (0xE1 * 2 ^ 120) else acc.2 / 2)) (0, y)).1

/-- GHASH of associated data and ciphertext under hash key `h`. -/
def ghash (h : Nat) (aad c : List Byte) : Nat :=
  let data := padBlock aad ++ padBlock c ++ natToOs 8 (8 * aad.length) ++ natToOs 8 (8 * c.length)
  (blocksOf 16 data.length data).foldl (fun y b => ghashMul (y ^^^ osToNat b) h) 0

/-- The GCM keystream applied to data, and the 16-octet tag of associated data and ciphertext, for a 12-octet IV. -/
def gcmStream (key iv data : List Byte) : List Byte := ctrMode 32 key (osToNat (iv ++ [0, 0, 0, 2])) data

/-- The tag of associated data and ciphertext. -/
def gcmTag (key iv aad c : List Byte) : List Byte :=
  let h := osToNat (aesEncrypt key (List.replicate 16 0))
  natToOs 16 (ghash h aad c ^^^ osToNat (aesEncrypt key (iv ++ [0, 0, 0, 1])))

/-! ### XTS -/

/-- The next tweak: multiplication by x, least significant octet first. -/
def xtsNext (t : List Byte) : List Byte :=
  let v := osToNat t.reverse
  (natToOs 16 (if v.testBit 127 then (2 * v) % 2 ^ 128 ^^^ 0x87 else 2 * v)).reverse

/-- One block under a tweak. -/
def xtsBlock (enc : Bool) (key t b : List Byte) : List Byte :=
  xorBytes (if enc then aesEncrypt key (xorBytes b t) else aesDecrypt key (xorBytes b t)) t

/-- A data unit from its first tweak, with ciphertext stealing for a last partial block. -/
def xtsBlocks (enc : Bool) (key : List Byte) : List Byte → List (List Byte) → List Byte
  | _, [] => []
  | t, [b] => xtsBlock enc key t b
  | t, [b, p] =>
    if p.length = 16 then xtsBlock enc key t b ++ xtsBlock enc key (xtsNext t) p
    else
      let cc := xtsBlock enc key (if enc then t else xtsNext t) b
      xtsBlock enc key (if enc then xtsNext t else t) (p ++ cc.drop p.length) ++ cc.take p.length
  | t, b :: bs => xtsBlock enc key t b ++ xtsBlocks enc key (xtsNext t) bs

/-- Data units of `size` octets numbered from `first` (R362: the tweak is the number, little-endian). -/
def xts (enc : Bool) (key1 key2 : List Byte) (size first : Nat) (data : List Byte) : List Byte :=
  ((blocksOf size data.length data).zipIdx.map fun u =>
    xtsBlocks enc key1 (aesEncrypt key2 (natToOs 16 (first + u.2)).reverse) (blocksOf 16 u.1.length u.1)).flatten

/-! ### SHA-1, SHA-256, HMAC, HKDF -/

/-- A message with its padding, in 64-octet blocks of 16 words. -/
def shaBlocks (m : List Byte) : List (List Word) :=
  let p := m ++ [0x80] ++ List.replicate ((119 - m.length % 64) % 64) 0 ++ natToOs 8 (8 * m.length)
  (blocksOf 64 p.length p).map fun b => (blocksOf 4 16 b).map fun w => BitVec.ofNat 32 (osToNat w)

/-- The message schedule extended by `n` words, newest first. -/
def extend (f : List Word → Word) : Nat → List Word → List Word
  | 0, ws => ws
  | n + 1, ws => extend f n (f ws :: ws)

/-- The word `k` places back in a schedule, newest first. -/
def back (ws : List Word) (k : Nat) : Word := ws.getD (k - 1) 0

/-- One round of SHA-1. -/
def sha1Round (s : List Word) (wt : Word × Nat) : List Word :=
  match s with
  | [a, b, c, d, e] =>
    let t := wt.2
    let fk : Word × Word :=
      if t < 20 then ((b &&& c) ||| (~~~b &&& d), 0x5A827999)
      else if t < 40 then (b ^^^ c ^^^ d, 0x6ED9EBA1)
      else if t < 60 then ((b &&& c) ||| (b &&& d) ||| (c &&& d), 0x8F1BBCDC)
      else (b ^^^ c ^^^ d, 0xCA62C1D6)
    [a.rotateLeft 5 + fk.1 + e + fk.2 + wt.1, a, b.rotateLeft 30, c, d]
  | s => s

/-- SHA-1. -/
def sha1 (m : List Byte) : List Byte :=
  let h := (shaBlocks m).foldl (fun h b =>
    let ws := (extend (fun ws => (back ws 3 ^^^ back ws 8 ^^^ back ws 14 ^^^ back ws 16).rotateLeft 1) 64 b.reverse).reverse
    List.zipWith (· + ·) h (ws.zipIdx.foldl sha1Round h))
    [0x67452301, 0xEFCDAB89, 0x98BADCFE, 0x10325476, 0xC3D2E1F0]
  (h.map fun w => natToOs 4 w.toNat).flatten

/-- The 32-bit words of a row of sixteen, written as one number, most significant word first. -/
def wordRow (row : Nat) : List Word := (List.range 16).map fun i => BitVec.ofNat 32 (row / 2 ^ (32 * (15 - i)))

/-- The round constants of SHA-256: sixteen to a row. -/
def sha256K : List Word := List.flatMap wordRow
  [0x428a2f9871374491b5c0fbcfe9b5dba53956c25b59f111f1923f82a4ab1c5ed5d807aa9812835b01243185be550c7dc372be5d7480deb1fe9bdc06a7c19bf174,
    0xe49b69c1efbe47860fc19dc6240ca1cc2de92c6f4a7484aa5cb0a9dc76f988da983e5152a831c66db00327c8bf597fc7c6e00bf3d5a7914706ca635114292967,
    0x27b70a852e1b21384d2c6dfc53380d13650a7354766a0abb81c2c92e92722c85a2bfe8a1a81a664bc24b8b70c76c51a3d192e819d6990624f40e3585106aa070,
    0x19a4c1161e376c082748774c34b0bcb5391c0cb34ed8aa4a5b9cca4f682e6ff3748f82ee78a5636f84c878148cc7020890befffaa4506cebbef9a3f7c67178f2]

/-- One round of SHA-256. -/
def sha256Round (s : List Word) (wk : Word × Word) : List Word :=
  match s with
  | [a, b, c, d, e, f, g, h] =>
    let s1 := e.rotateRight 6 ^^^ e.rotateRight 11 ^^^ e.rotateRight 25
    let t1 := h + s1 + ((e &&& f) ^^^ (~~~e &&& g)) + wk.2 + wk.1
    let s0 := a.rotateRight 2 ^^^ a.rotateRight 13 ^^^ a.rotateRight 22
    [t1 + s0 + ((a &&& b) ^^^ (a &&& c) ^^^ (b &&& c)), a, b, c, d + t1, e, f, g]
  | s => s

/-- SHA-256. -/
def sha256 (m : List Byte) : List Byte :=
  let sig (x : Word) (p q r : Nat) : Word := x.rotateRight p ^^^ x.rotateRight q ^^^ (x >>> r)
  let h := (shaBlocks m).foldl (fun h b =>
    let ws := (extend (fun ws => sig (back ws 2) 17 19 10 + back ws 7 + sig (back ws 15) 7 18 3 + back ws 16)
      48 b.reverse).reverse
    List.zipWith (· + ·) h ((ws.zip sha256K).foldl sha256Round h))
    [0x6a09e667, 0xbb67ae85, 0x3c6ef372, 0xa54ff53a, 0x510e527f, 0x9b05688c, 0x1f83d9ab, 0x5be0cd19]
  (h.map fun w => natToOs 4 w.toNat).flatten

/-- HMAC over a hash with 64-octet blocks. -/
def hmac (hash : List Byte → List Byte) (key m : List Byte) : List Byte :=
  let k := if 64 < key.length then hash key else key
  let k := k ++ List.replicate (64 - k.length) 0
  hash (k.map (· ^^^ 0x5C) ++ hash (k.map (· ^^^ 0x36) ++ m))

/-- The blocks of HKDF's expansion from number `i` on, after block `t` (RFC 5869). -/
def hkdfBlocks (prk info : List Byte) : Nat → Nat → List Byte → List Byte
  | 0, _, _ => []
  | n + 1, i, t =>
    let u := hmac sha256 prk (t ++ info ++ natToOs 1 i)
    u ++ hkdfBlocks prk info n (i + 1) u

/-- HKDF-SHA256 to `n` octets (RFC 5869). -/
def hkdf (salt ikm info : List Byte) (n : Nat) : List Byte :=
  (hkdfBlocks (hmac sha256 salt ikm) info ((n + 31) / 32) 1 []).take n

/-! ### The key derivation of RFC 3711 (R363) -/

/-- `n` octets of the session key with a label, from a master key and a 14-octet master salt. -/
def srtpKdf (mk ms : List Byte) (label n : Nat) : List Byte :=
  ctrMode 16 mk ((osToNat ms ^^^ label * 2 ^ 48) * 2 ^ 16) (List.replicate n 0)

/-! ### P-256 -/

namespace P256

/-- The field's prime. -/
def p : Nat := 2 ^ 256 - 2 ^ 224 + 2 ^ 192 + 2 ^ 96 - 1

/-- The group's order. -/
def n : Nat := 0xffffffff00000000ffffffffffffffffbce6faada7179e84f3b9cac2fc632551

/-- The curve's constant. -/
def b : Nat := 0x5ac635d8aa3a93e7b3ebbd55769886bc651d06b0cc53b0f63bce3c3e27d2604b

/-- A point; `none` is the point at infinity. -/
abbrev Point := Option (Nat × Nat)

/-- The generator. -/
def g : Point :=
  some (0x6b17d1f2e12c4247f8bce6e563a440f277037d812deb33a0f4a13945d898c296,
        0x4fe342e2fe1a7f9b8ee7eb4a7c0f9e162bce33576b315ececbb6406837bf51f5)

/-- `a` to the power whose bits from place `i` − 1 down are those of `e`, modulo `m`. -/
def powMod (m a e : Nat) : Nat → Nat
  | 0 => 1
  | i + 1 =>
    let r := powMod m a (e / 2) i
    r * r % m * (if e % 2 = 1 then a else 1) % m

/-- The inverse modulo a prime. -/
def inv (m a : Nat) : Nat := powMod m a (m - 2) 256

/-- Addition of points. -/
def add : Point → Point → Point
  | none, q => q
  | q, none => q
  | some (x1, y1), some (x2, y2) =>
    if x1 = x2 && (y1 + y2) % p = 0 then none
    else
      let l := if x1 = x2 then (3 * x1 * x1 + (p - 3)) * inv p (2 * y1 % p) % p
               else (y2 + p - y1) * inv p ((x2 + p - x1) % p) % p
      let x3 := (l * l + 2 * p - x1 - x2) % p
      some (x3, (l * (x1 + p - x3) + p - y1) % p)

/-- `k` times a point, by the low `i` bits of `k`. -/
def mul (k : Nat) (q : Point) : Nat → Point
  | 0 => none
  | i + 1 =>
    let r := mul (k / 2) q i
    let r := add r r
    if k % 2 = 1 then add r q else r

/-- Whether coordinates are a point of the curve. -/
def onCurve (x y : Nat) : Bool := x < p && y < p && (y * y) % p == (x * x * x + (p - 3) * x + b) % p

/-- Whether `r`, `s` sign digest `e` under public key (x, y). -/
def verify (e x y r s : Nat) : Bool :=
  onCurve x y && 0 < r && r < n && 0 < s && s < n &&
    (let w := inv n s
     match add (mul (e * w % n) g 256) (mul (r * w % n) (some (x, y)) 256) with
     | none => false
     | some (x1, _) => x1 % n == r)

/-- The signature of digest `e` under private key `d` with the per-signature secret `k`. -/
def sign (e d k : Nat) : Nat × Nat :=
  match mul k g 256 with
  | none => (0, 0)
  | some (x1, _) => let r := x1 % n; (r, inv n k * (e + r * d) % n)

end P256

end Sys2Proof.Machine
end

