-- ==== Sys2Proof/Machine/GulterBase.lean ====
section
/-! DEFINITION. Mailbox channels and the messages of the dictionary server (spec/15_host_interface.md, R497 to R502;
spec/16_object_dictionary.md, R522 to R533). -/

namespace Sys2Proof.Machine

open Sys2Proof

/-! ### Mailbox channels -/

/-- A mailbox channel outside its registers. -/
def State.chan (s : State) (c : Nat) : MbxChannel := SMap.get MbxChannel.init s.mbx c

/-- The state with a channel replaced. -/
def State.setMbx (s : State) (c : Nat) (m : MbxChannel) : State := { s with mbx := SMap.set MbxChannel.init s.mbx c m }

/-- Whether a channel is FULL. -/
def State.mbxFull (s : State) (c : Nat) : Bool := s.isSet (R.MBX_CHc_STAT_FULL c)

/-- Whether a channel is CLAIMED. -/
def State.mbxClaimed (s : State) (c : Nat) : Bool := s.isSet (R.MBX_CHc_STAT_CLAIMED c)

/-- Notify a channel's receiver (R502). -/
def State.notifyReceiver (s : State) (c : Nat) : State :=
  if s.recvClass c = 0 then s.raise (s.recvIndex c) (s.get (R.HIF_Fn_VEC_MBX_RX (s.recvIndex c)))
  else s.emit (.coreIrq (s.recvIndex c) 0 c)

/-- A message fills a channel: its words, the stamp, FULL, and the notice (R499, R502). -/
def State.fillChannel (s : State) (c stamp : Nat) (words : List Nat) : State :=
  let s := (words.zipIdx).foldl (fun (s : State) (e : Nat × Nat) => s.put (R.MBX_CHc_DATA_DATA c e.2) e.1) s
  ((s.put (R.MBX_CHc_SENDER_SENDER c) stamp).putBit (R.MBX_CHc_STAT_FULL c) true).notifyReceiver c

/-! ### Messages -/

/-- A session. -/
def State.session (s : State) (n : Nat) : Option GulSession := SMap.get none s.gul.sessions n

/-- The state with a session replaced, or ended. -/
def State.setSession (s : State) (n : Nat) (g : Option GulSession) : State :=
  { s with gul := { s.gul with sessions := SMap.set none s.gul.sessions n g } }

/-- The octets of a message: its header and body (R524). -/
def gulOctets (session : Nat) (m : GulMsg) : List Byte :=
  [0] ++ natToOs 1 m.ty ++ natToOs 2 session ++ natToOs 4 m.seq ++ natToOs 2 m.body.length ++ natToOs 1 m.flags ++ natToOs 1 m.status ++
    m.body

/-- The octets of a datagram with a message protected (R527): counter, header, encrypted body and tag. `key` is the direction's 36-octet
output. -/
def gulDatagram (key : List Byte) (ctr session : Nat) (m : GulMsg) : List Byte :=
  let iv := key.drop 32 ++ natToOs 8 ctr
  let hdr := (gulOctets session m).take 12
  let c := gcmStream (key.take 32) iv m.body
  natToOs 8 ctr ++ hdr ++ c ++ gcmTag (key.take 32) iv (natToOs 8 ctr ++ hdr) c

/-- The replies of a function that wait for their channel. -/
def State.replyQueue (s : State) (fn : Nat) : List (Nat × GulMsg) := SMap.get [] s.gul.replyQ fn

/-- The state with them replaced. -/
def State.setReplyQueue (s : State) (fn : Nat) (l : List (Nat × GulMsg)) : State :=
  { s with gul := { s.gul with replyQ := SMap.set [] s.gul.replyQ fn l } }

/-- The notifications of a function that wait for their channel. -/
def State.noteQueue (s : State) (fn : Nat) : List GulWaiting := SMap.get [] s.gul.noteQ fn

/-- The state with them replaced. -/
def State.setNoteQueue (s : State) (fn : Nat) (l : List GulWaiting) : State :=
  { s with gul := { s.gul with noteQ := SMap.set [] s.gul.noteQ fn l } }

/-- The words of a 64-byte line. -/
def lineWords (line : List Byte) : List Nat := (List.range 16).map fun i => leVal ((line.drop (4 * i)).take 4)

/-- A message goes into a channel; which control core writes it is a free value. -/
def State.putMessage (s : State) (c n : Nat) (m : GulMsg) : State :=
  (s.fillChannel c (0x1000 + s.free 16) (lineWords (gulOctets n m ++ List.replicate (52 - m.body.length) 0))).spent

/-- Whether the device may fill a channel now (R499). -/
def State.channelOpen (s : State) (c : Nat) : Bool :=
  !(s.mbxFull c || s.mbxClaimed c || s.isFenced Unit.mbx c || !s.isSet R.MBX_CTRL_ENABLE)

/-- Put the next waiting reply into channel 32 + 2n, or the next notification into channel 33 + 2n, when it is not FULL (R523). -/
def State.flushGul (s : State) (note : Bool) (fn : Nat) : State :=
  let c := 32 + 2 * fn + bnat note
  if !s.channelOpen c then s
  else if note then
    match s.noteQueue fn with
    | [] => s
    | w :: rest => (s.setNoteQueue fn rest).putMessage c w.session w.msg
  else
    match s.replyQueue fn with
    | [] => s
    | (n, m) :: rest => (s.setReplyQueue fn rest).putMessage c n m

/-- A message leaves for a session's client on a path: among the replies of its function, or as a datagram, protected once the keys are
there (R523, R527). -/
def State.gulSendOn (s : State) (path : GulPath) (n : Nat) (m : GulMsg) : State :=
  match path with
  | .mailbox fn => (s.setReplyQueue fn (s.replyQueue fn ++ [(n, m)])).flushGul false fn
  | .management =>
    match s.session n with
    | none => s.emit (.gulter n m.ty m.seq ((gulOctets n m).map BitVec.toNat))
    | some g =>
      match g.keys with
      | none => s.emit (.gulter n m.ty m.seq ((gulOctets n m).map BitVec.toNat))
      | some k =>
        (s.setSession n (some { g with tx := g.tx + 1 })).emit (.gulter n m.ty m.seq ((gulDatagram k.2 g.tx n m).map BitVec.toNat))

/-- A message leaves for a session's client. -/
def State.gulSend (s : State) (n : Nat) (m : GulMsg) : State :=
  match s.session n with
  | none => s
  | some g => s.gulSendOn g.path n m

/-- A reply leaves, and is kept among the replies to the last 16 requests (R532). -/
def State.gulReply (s : State) (n : Nat) (m : GulMsg) : State :=
  match s.session n with
  | none => s
  | some g =>
    (s.setSession n (some { g with replies := (m :: g.replies.filter fun (r : GulMsg) => r.seq != m.seq).take 16 })).gulSend n m

/-- A WRITE_REPLY with a status for every entry (R525). -/
def writeReply (seq : Nat) (codes : List Nat) : GulMsg :=
  ⟨9, seq, 0, St.ok, natToOs 1 codes.length ++ codes.flatMap fun c => natToOs 1 c⟩

/-- The outcome of a deferred entry of a WRITE: the reply leaves once every entry has its status (R518). -/
def State.gulAnswer (s : State) (t : GulToken) (status : Nat) : State :=
  match s.gul.waits.find? fun w => w.session == t.session && w.seq == t.seq with
  | none => s
  | some w =>
    let rest := s.gul.waits.filter fun w => !(w.session == t.session && w.seq == t.seq)
    let codes := w.statuses.set t.entry (some status)
    if codes.all Option.isSome then
      { s with gul := { s.gul with waits := rest } }.gulReply t.session (writeReply t.seq (codes.map fun (c : Option Nat) => c.getD 0))
    else { s with gul := { s.gul with waits := { w with statuses := codes } :: rest } }

/-- Tell who waits for an operation its outcome. -/
def State.answer (s : State) (a : Asker) (status : Nat) (data : List Nat) : State :=
  match a with
  | .unit who => s.emit (.done who status data)
  | .gulter t => s.gulAnswer t status

end Sys2Proof.Machine
end

