-- ==== Sys2Proof/Machine/Cipher.lean ====
section
/-! DEFINITION. Claimed command ports (R72), the key store, cipher operations, SRTP contexts, the KSL command port and the
random source (spec/11_cipher.md, R355 to R390, R631). -/

namespace Sys2Proof.Machine

open Sys2Proof

/-! ### Claimed ports (R72, R378, R382, R280) -/

/-- F0 and the control cores may claim a command port. -/
def mayClaim : Sender → Bool
  | .host n => n == 0
  | .control _ => true
  | _ => false

/-- The holder of the port whose CLAIM register is at `a`. -/
def State.holder (s : State) (a : Nat) : Option Sender := SMap.get none s.holders a

/-- The state with a port's holder set. -/
def State.setHolder (s : State) (a : Nat) (h : Option Sender) : State := { s with holders := SMap.set none s.holders a h }

/-- A read of a CLAIM register: it grants a free port and answers whether the reader holds it. -/
def State.claim (s : State) (a : Nat) (who : Sender) : State :=
  if !mayClaim who then s.emit (.readDone who a 0)
  else
    match s.holder a with
    | none => (s.setHolder a (some who)).emit (.readDone who a 1)
    | some h => s.emit (.readDone who a (bnat (h == who)))

/-- A write of 1 to a RELEASE register ends the writer's own grant. -/
def State.unclaim (s : State) (a : Nat) (who : Sender) : State :=
  if s.holder a = some who then s.setHolder a none else s

/-- Whether a requester holds a port. -/
def State.holds (s : State) (a : Nat) (who : Sender) : Bool := s.holder a == some who

/-! ### Slots -/

/-- A key slot. -/
def State.slot (s : State) (n : Nat) : KeySlot := SMap.get KeySlot.init s.cpx.slots n

/-- The state with a key slot replaced. -/
def State.setSlot (s : State) (n : Nat) (k : KeySlot) : State :=
  { s with cpx := { s.cpx with slots := SMap.set KeySlot.init s.cpx.slots n k } }

/-- The current generation: the newest (R367). -/
def KeySlot.cur? (k : KeySlot) : Option KeyGen := k.gens.head?

/-- The older live generation. -/
def KeySlot.older? (k : KeySlot) : Option KeyGen := (k.gens.drop 1).head?

/-- The hard limit of a counter and of an SRTP index (R371, R374). -/
def hardLimit : Nat := 2 ^ 48

/-- Post a key event (R380): type, slot, generation, counter. -/
def State.keyEvent (s : State) (ty slot gen count : Nat) : State :=
  s.postEvent (s.get R.CPX_EVT_QUEUE_QUEUE) R.C_CPX_EVT_DROP
    (leBytes 2 ty ++ leBytes 2 slot ++ leBytes 2 gen ++ leBytes 2 0 ++ leBytes 8 count)

/-- The operations in flight on a slot. -/
def State.slotOps (s : State) (n : Nat) : List CipherOp := s.cpx.ops.filter fun o => o.req.slot == n

/-- Whether an operation binds generation `g` of slot `n`. -/
def CipherOp.binds (o : CipherOp) (n g : Nat) : Bool :=
  o.req.slot == n && (o.gen.num == g || (o.alt.map KeyGen.num) == some g)

/-- Tell who asked for an ERASE that it is done. -/
def State.eraseDone (s : State) (by_ : EraseBy) : State :=
  match by_ with
  | .nobody => s
  | .ksl => { s with cpx := { s.cpx with ksl := s.cpx.ksl.map fun c => (c.1, some St.ok) } }
  | .gulter t => s.gulAnswer t St.ok

/-- Retire the older generation when its service has ended and no operation binds it; empty a draining slot with nothing
in flight (R368). -/
def State.settle (s : State) (n : Nat) : State :=
  let k := s.slot n
  let retired := (k.gens.drop 1).filter fun g => g.closed && !(s.cpx.ops.any fun o => o.binds n g.num)
  let k := if retired.isEmpty then k else
    { k with gens := k.gens.take 1, grace := none, state := if k.state = .activeTwo then .active else k.state }
  let s := s.setSlot n k
  let s := retired.foldl (fun s g => s.keyEvent 3 n g.num g.count) s
  if k.state = .draining && (s.slotOps n).isEmpty then
    let g := k.cur?
    let s := s.setSlot n { k with state := .empty, gens := [], grace := none, erasing := .nobody }
    let s := s.keyEvent 4 n ((g.map KeyGen.num).getD k.genNo) ((g.map KeyGen.count).getD 0)
    s.eraseDone k.erasing
  else s

/-- The older generation takes no new operation (R368). -/
def State.closeOld (s : State) (n : Nat) : State :=
  let k := s.slot n
  (s.setSlot n { k with gens := k.gens.take 1 ++ (k.gens.drop 1).map fun g => { g with closed := true }, grace := none }).settle n

/-- The slot becomes EXHAUSTED (R368, R371, R374). -/
def State.exhaust (s : State) (n : Nat) : State :=
  let k := s.slot n
  match k.state, k.gens with
  | .active, g :: gs => (s.setSlot n { k with state := .exhausted, gens := { g with ended := true } :: gs }).keyEvent 2 n g.num g.count
  | .activeTwo, g :: gs => (s.setSlot n { k with state := .exhausted, gens := { g with ended := true } :: gs }).keyEvent 2 n g.num g.count
  | _, _ => s

/-- An accepted encryption takes the current counter's value (R370, R371). -/
def State.takeCounter (s : State) (n : Nat) : State :=
  let k := s.slot n
  match k.gens with
  | [] => s
  | g :: gs =>
    let c := g.count + 1
    let soft := !g.rekey && 2 ^ s.get R.CPX_SOFT_EXP_EXP ≤ c
    let s := s.setSlot n { k with gens := { g with count := c, rekey := g.rekey || soft } :: gs }
    let s := if soft then s.keyEvent 1 n g.num c else s
    if hardLimit ≤ c then s.exhaust n else s

/-! ### SRTP contexts (R372 to R374) -/

/-- Contexts that exist. -/
def ctxCount : Nat := 1114112

/-- The device address of a context. -/
def State.ctxAddr (s : State) (c : Nat) : Nat := s.pair R.CPX_SCTX_BASE_LO_ADDR R.CPX_SCTX_BASE_HI_ADDR + c * 64

/-- The highest index of a context and its window, for SRTP or SRTCP, and whether it has one. -/
def State.ctxIndex (s : State) (c : Nat) (rtcp : Bool) : Bool × Nat × Nat :=
  let a := s.ctxAddr c
  if rtcp then ((s.le (a + 0x20) 4).testBit 31, s.le (a + 0x20) 4 % 2 ^ 31, s.le (a + 0x28) 16)
  else ((s.le (a + 6) 1).testBit 0, s.le (a + 8) 4 * 65536 + s.le (a + 12) 2, s.le (a + 16) 16)

/-- An index is too old or already used (R374). -/
def indexSpent (st : Bool × Nat × Nat) (i : Nat) : Bool :=
  st.1 && i ≤ st.2.1 && (127 < st.2.1 - i || st.2.2.testBit (st.2.1 - i))

/-- The state with an index marked used or accepted in its context's window (R374). -/
def State.markIndex (s : State) (c : Nat) (rtcp : Bool) (i : Nat) : State :=
  let a := s.ctxAddr c
  let st := s.ctxIndex c rtcp
  let hi := if st.1 then max st.2.1 i else i
  let win := if !st.1 then 1
    else if st.2.1 < i then (if i - st.2.1 < 128 then st.2.2 * 2 ^ (i - st.2.1) + 1 else 1) % 2 ^ 128
    else setBit st.2.2 (st.2.1 - i)
  if rtcp then (s.setLe (a + 0x20) 4 (2 ^ 31 + hi)).setLe (a + 0x28) 16 win
  else
    let s := s.setLe (a + 6) 1 (setBit (s.le (a + 6) 1) 0)
    ((s.setLe (a + 8) 4 (hi / 65536)).setLe (a + 12) 2 (hi % 65536)).setLe (a + 16) 16 win

/-- The index of an SRTP sequence number by RFC 3711 section 3.3.1 (R374); below 0 where no such index exists. -/
def State.estimate (s : State) (c seq : Nat) : Int :=
  let a := s.ctxAddr c
  let roc : Int := s.le (a + 8) 4
  let sl := s.le (a + 12) 2
  let v : Int :=
    if !(s.le (a + 6) 1).testBit 0 then roc
    else if sl < 32768 then (if sl + 32768 < seq then roc - 1 else roc)
    else if seq + 32768 < sl then roc + 1 else roc
  v * 65536 + seq

/-- Whether the context suits the operation (R373). -/
def State.ctxSuits (s : State) (r : CipherReq) (input : List Byte) : Bool :=
  let a := s.ctxAddr r.ctx
  let ssrc := if r.kind = .srtp then (input.drop 8).take 4 else (input.drop 4).take 4
  r.ctx < ctxCount && (s.le (a + 6) 1).testBit 1 && s.le (a + 4) 2 == r.slot && s.bytes a 4 == ssrc &&
    (s.le (a + 6) 1).testBit 2 == r.enc

/-! ### Operations -/

/-- The tag length of a suite (R362). -/
def tagLen (suite : Nat) (kind : CipherKind) : Nat :=
  if kind = .xts then 0 else if suite = 1 then 10 else if suite = 2 then (if kind = .srtcp then 10 else 4) else 16

/-- Whether an operation's kind suits a suite (R362). -/
def kindSuits (k : CipherKind) (suite : Nat) : Bool :=
  match k with
  | .srtp => 1 ≤ suite && suite ≤ 4
  | .srtcp => 1 ≤ suite && suite ≤ 4
  | .trunk => suite == 5 || suite == 6
  | .xts => suite == 7 || suite == 8

/-- The output length, or none where R364 gives BAD_LENGTH. -/
def outLength (r : CipherReq) (suite : Nat) : Option Nat :=
  let extra := tagLen suite r.kind + (if r.kind = .srtcp then 4 else 0)
  let unit := if r.xts4k then 4096 else 512
  if r.len = 0 || 65536 < r.len || r.len < r.hdrLen then none
  else if r.kind = .xts then (if r.len % unit != 0 && r.len % unit < 16 then none else some r.len)
  else if r.enc then (if 65536 < r.len + extra then none else some (r.len + extra))
  else if r.len < r.hdrLen + extra then none else some (r.len - extra)

/-- The input octets of a request. -/
def State.cipherInput (s : State) (r : CipherReq) : List Byte :=
  match r.input with
  | some bs => bs
  | none => s.bytes r.src r.len

/-- The SRTCP index and E bit that a received packet carries (R362, R363). -/
def srtcpTrailer (suite : Nat) (input : List Byte) : Nat :=
  let t := if suite ≤ 2 then (input.drop (input.length - 14)).take 4 else input.drop (input.length - 4)
  osToNat t

/-- Send a completion: to its requester on the fabric, or kept for the unit that started it (R365). -/
def State.complete (s : State) (id : Nat) (r : CipherReq) (res : CipherResult) : State :=
  match r.user with
  | .fabric who => s.emit (.done who res.status [res.gen, res.out.length, res.value])
  | .held => { s with cpx := { s.cpx with results := SMap.set none s.cpx.results id (some res) } }

/-- Complete a request with a status other than OK: the output buffer is zeroed to `n` octets first (R366). -/
def State.failRequest (s : State) (id : Nat) (r : CipherReq) (status gen value n : Nat) : State :=
  let s := if r.input.isNone then s.zero r.dst n else s
  s.complete id r ⟨status, gen, value, List.replicate n 0⟩

/-- What the acceptance checks of a request find (R631): a refusal status, or the generation it binds, the older one, and
its index. `end_` says that an index ended, which exhausts the slot (R374). -/
inductive Verdict where
  | refuse (status : Nat) (ended : Bool)
  | accept (gen : KeyGen) (alt : Option KeyGen) (index outLen : Nat)
  deriving DecidableEq, Repr

/-- Whether an encryption's index would pass its end, in a context that exists and is valid (R374). -/
def State.indexEnds (s : State) (r : CipherReq) (input : List Byte) : Bool :=
  r.enc && r.ctx < ctxCount && (s.le (s.ctxAddr r.ctx + 6) 1).testBit 1 &&
    (if r.kind = .srtp then hardLimit ≤ s.estimate r.ctx (osToNat ((input.drop 2).take 2))
     else
      let st := s.ctxIndex r.ctx true
      st.1 && 2 ^ 31 ≤ st.2.1 + 1)

/-- The context and index checks (R373, R374), the last ones of R631; an index's end is part of the sixth check, before the context's. -/
def State.checkIndex (s : State) (r : CipherReq) (input : List Byte) (g : KeyGen) (alt : Option KeyGen) (outLen : Nat) : Verdict :=
  if s.indexEnds r input then .refuse St.keyExhausted true
  else if !s.ctxSuits r input then .refuse St.ctxMismatch false
  else if r.kind = .srtp then
    let i := s.estimate r.ctx (osToNat ((input.drop 2).take 2))
    if i < 0 || hardLimit ≤ i || indexSpent (s.ctxIndex r.ctx false) i.toNat || s.cpx.marks.contains (r.ctx, false, i.toNat) then
      .refuse (if r.enc then St.indexUsed else St.replay) false
    else .accept g alt i.toNat outLen
  else
    let st := s.ctxIndex r.ctx true
    if r.enc then .accept g alt (if st.1 then st.2.1 + 1 else 0) outLen
    else
      let i := srtcpTrailer g.suite input % 2 ^ 31
      if indexSpent st i || s.cpx.marks.contains (r.ctx, true, i) then .refuse St.replay false
      else .accept g alt i outLen

/-- The checks of R631 in their order, from the generation on. -/
def State.checkGen (s : State) (r : CipherReq) (input : List Byte) (k : KeySlot) (g : KeyGen) : Verdict :=
  if !kindSuits r.kind g.suite then .refuse St.suiteMismatch false
  else
    match outLength r g.suite with
    | none => .refuse St.badLength false
    | some n =>
      let srtp := r.kind = .srtp || r.kind = .srtcp
      let alt := if srtp && !r.enc then k.older?.filter fun o => !o.closed && kindSuits r.kind o.suite else none
      if r.enc && g.decryptOnly then .refuse St.keyPolicy false
      else if r.enc && k.state = .exhausted then .refuse St.keyExhausted false
      else if srtp then s.checkIndex r input g alt n
      else .accept g alt 0 n

/-- The checks of R631 in their order. -/
def State.checkRequest (s : State) (r : CipherReq) : Verdict :=
  let k := s.slot r.slot
  if !s.isSet R.CPX_CTRL_ENABLE then .refuse St.keyEmpty false
  else if k.state = .empty || k.state = .draining then .refuse St.keyEmpty false
  else
    let g := if r.kind = .trunk && !r.enc then k.gens.find? fun g => !g.closed && g.num % 2 == r.genSel % 2 else k.cur?
    match g with
    | none => .refuse (if r.kind = .trunk && !r.enc then St.keyStale else St.keyEmpty) false
    | some g => s.checkGen r (s.cipherInput r) k g

/-- Count a refusal where a counter does. -/
def State.countRefusal (s : State) (status : Nat) : State :=
  if status = St.keyExhausted then s.count R.C_CPX_EXHAUSTED_REFUSALS
  else if status = St.replay then s.count R.C_CPX_REPLAY
  else if status = St.indexUsed then s.count R.C_CPX_INDEX_USED
  else s

/-- The lowest core that is neither fenced nor busy. -/
def State.freeCore (s : State) : Option Nat :=
  (List.range 24).find? fun c => !s.isFenced Unit.cpx c && !(s.cpx.ops.any fun o => o.core == c)

/-- Accept a request on a core, or refuse it (R356, R631). -/
def State.acceptRequest (s : State) (id core : Nat) (r : CipherReq) : State :=
  match s.checkRequest r with
  | .refuse st ended =>
    let s := if ended then s.exhaust r.slot else s
    (s.countRefusal st).failRequest id r st 0 0 ((outLength r (((s.slot r.slot).cur?.map KeyGen.suite).getD 0)).getD r.len)
  | .accept g alt i n =>
    let srtp := r.kind = .srtp || r.kind = .srtcp
    let op : CipherOp := ⟨id, core, r, g, alt, g.count, i, n, s.get R.CPX_SCA_LEVEL_LEVEL⟩
    let s := { s with cpx := { s.cpx with ops := s.cpx.ops ++ [op] } }
    let s := if r.enc then s.takeCounter r.slot else s.setSlot r.slot { s.slot r.slot with decCount := (s.slot r.slot).decCount + 1 }
    if !srtp then s
    else if r.enc then s.markIndex r.ctx (r.kind == .srtcp) i
    else { s with cpx := { s.cpx with marks := (r.ctx, r.kind == .srtcp, i) :: s.cpx.marks } }

/-- The waiting request that is served next: the lowest class, the oldest within it (R355). -/
def nextRequest (w : List (Nat × CipherReq)) : Option (Nat × CipherReq) :=
  match w.find? fun x => x.2.cls == 0 with
  | some x => some x
  | none => match w.find? fun x => x.2.cls == 1 with
    | some x => some x
    | none => w.head?

/-- Whether the cipher island can answer nothing: every core is fenced, or the island's crossing is (R36, R360). -/
def State.cipherGone (s : State) : Bool :=
  s.isFenced Unit.crossing 2 || (List.range 24).all fun c => s.isFenced Unit.cpx c

/-- Start waiting requests while a core is free and the island is awake (R355, R361). -/
def State.dispatchCipher (s : State) : Nat → State
  | 0 => s
  | fuel + 1 =>
    match nextRequest s.cpx.waiting with
    | none => s
    | some (id, r) =>
      let without := { s with cpx := { s.cpx with waiting := s.cpx.waiting.filter fun x => x.1 != id } }
      if s.cipherGone then (without.failRequest id r St.unitFenced 0 0 r.len).dispatchCipher fuel
      else if s.island 2 != .awake then s
      else
        match s.freeCore with
        | none => s
        | some c => (without.acceptRequest id c r).dispatchCipher fuel

/-- Hand a request to the cipher scheduler; the operation's number is what `cpx.nextId` was. -/
def State.submit (s : State) (r : CipherReq) : State :=
  let id := s.cpx.nextId
  let s := { s with cpx := { s.cpx with nextId := id + 1, waiting := s.cpx.waiting ++ [(id, r)] } }
  s.dispatchCipher s.cpx.waiting.length

/-- CIPHER_REQUEST (R631). -/
def execCipherRequest (req : CipherReq) (s : State) : Result := .next (s.submit req)

/-! ### Results (R359, R362, R363) -/

/-- The session key with label `i` of a generation of suite 1 to 4 (R363), or the `i`-th key of another. -/
def KeyGen.key (g : KeyGen) (i : Nat) : List Byte := g.keys.getD i []

/-- Encrypt or decrypt the body of an SRTP or SRTCP packet with AES-CM (R362). -/
def cmStream (g : KeyGen) (base ssrc index : Nat) (body : List Byte) : List Byte :=
  ctrMode 16 (g.key base) (osToNat (g.key (base + 2)) * 2 ^ 16 ^^^ ssrc * 2 ^ 64 ^^^ index * 2 ^ 16) body

/-- The IV of the AEAD suites (R362). -/
def aeadIv (g : KeyGen) (rtcp : Bool) (ssrc index : Nat) : List Byte :=
  let x := if rtcp then natToOs 2 0 ++ natToOs 4 ssrc ++ natToOs 2 0 ++ natToOs 4 index
           else natToOs 2 0 ++ natToOs 4 ssrc ++ natToOs 6 index
  xorBytes x (g.key (if rtcp then 5 else 2))

/-- SRTP and SRTCP encryption: header, ciphertext, and the trailer of the suite (R362, R363). -/
def srtpSeal (g : KeyGen) (rtcp : Bool) (hdrLen index : Nat) (input : List Byte) : List Byte :=
  let hdr := input.take hdrLen
  let body := input.drop hdrLen
  let ssrc := osToNat ((input.drop (if rtcp then 4 else 8)).take 4)
  let word := natToOs 4 (2 ^ 31 + index)
  if g.suite ≤ 2 then
    let ct := cmStream g (if rtcp then 3 else 0) ssrc index body
    let part := hdr ++ ct ++ (if rtcp then word else [])
    let tag := hmac sha1 (g.key (if rtcp then 4 else 1)) (part ++ (if rtcp then [] else natToOs 4 (index / 65536)))
    part ++ tag.take (tagLen g.suite (if rtcp then CipherKind.srtcp else CipherKind.srtp))
  else
    let k := g.key (if rtcp then 3 else 0)
    let iv := aeadIv g rtcp ssrc index
    let ct := gcmStream k iv body
    if rtcp then hdr ++ ct ++ gcmTag k iv (hdr ++ word) ct ++ word else hdr ++ ct ++ gcmTag k iv hdr ct

/-- SRTP and SRTCP authentication and decryption; none when the tag does not verify. -/
def srtpOpen (g : KeyGen) (rtcp : Bool) (hdrLen index : Nat) (input : List Byte) : Option (List Byte) :=
  let hdr := input.take hdrLen
  let ssrc := osToNat ((input.drop (if rtcp then 4 else 8)).take 4)
  let tl := tagLen g.suite (if rtcp then CipherKind.srtcp else CipherKind.srtp)
  let word := natToOs 4 (srtcpTrailer g.suite input)
  let sealed := !rtcp || (srtcpTrailer g.suite input).testBit 31
  if g.suite ≤ 2 then
    let part := input.take (input.length - tl)
    let ct := (part.take (part.length - if rtcp then 4 else 0)).drop hdrLen
    let tag := hmac sha1 (g.key (if rtcp then 4 else 1)) (part ++ (if rtcp then [] else natToOs 4 (index / 65536)))
    if tag.take tl != input.drop part.length then none
    else some (hdr ++ if sealed then cmStream g (if rtcp then 3 else 0) ssrc index ct else ct)
  else
    let k := g.key (if rtcp then 3 else 0)
    let iv := aeadIv g rtcp ssrc index
    let end_ := input.length - (if rtcp then 4 else 0)
    let ct := (input.take (end_ - tl)).drop hdrLen
    let tag := (input.take end_).drop (end_ - tl)
    let aad := if rtcp then hdr ++ (if sealed then [] else ct) ++ word else hdr
    if gcmTag k iv aad (if sealed then ct else []) != tag then none
    else some (hdr ++ if sealed then gcmStream k iv ct else ct)

/-- What an operation's transform gives under a generation; none when authentication fails. A frame of the trunk unit
carries its counter value in octets 12 to 19 of its header (R365, R394). -/
def transform (g : KeyGen) (o : CipherOp) (input : List Byte) : Option (List Byte) :=
  let r := o.req
  match r.kind with
  | .xts => some (xts r.enc (g.key 0) (g.key 1) (if r.xts4k then 4096 else 512) r.ivCtr input)
  | .trunk =>
    let hdr := input.take r.hdrLen
    let hdr := if r.enc && r.user = .held then (hdr.take 12 ++ natToOs 8 o.counter ++ hdr.drop 20) else hdr
    let iv := g.key 1 ++ natToOs 8 (if r.enc then o.counter else r.ivCtr)
    if r.enc then
      let ct := gcmStream (g.key 0) iv (input.drop r.hdrLen)
      some (hdr ++ ct ++ gcmTag (g.key 0) iv hdr ct)
    else
      let ct := (input.take (input.length - 16)).drop r.hdrLen
      if gcmTag (g.key 0) iv hdr ct != input.drop (input.length - 16) then none
      else some (hdr ++ gcmStream (g.key 0) iv ct)
  | .srtp => if r.enc then some (srtpSeal g false r.hdrLen o.index input) else srtpOpen g false r.hdrLen o.index input
  | .srtcp => if r.enc then some (srtpSeal g true r.hdrLen o.index input) else srtpOpen g true r.hdrLen o.index input

/-- End an operation: its core, marks and slot are released, it is counted and its completion sent; then waiting requests
start (R365, R366, R368). -/
def State.endOp (s : State) (o : CipherOp) (status gen : Nat) (out : List Byte) : State :=
  let s := { s with cpx := { s.cpx with
    ops := s.cpx.ops.filter fun x => x.id != o.id
    marks := s.cpx.marks.filter fun m => o.req.enc || m != (o.req.ctx, o.req.kind == CipherKind.srtcp, o.index) } }
  let s := ((s.count R.C_CPX_OPS).count R.C_CPX_BYTES o.req.len).count (R.C_CPX_Ck_OPS o.core)
  let value := if o.req.kind = .srtp || o.req.kind = .srtcp then o.index else o.counter
  let s := if St.success status then
      (if o.req.input.isNone then s.setBytes o.req.dst out else s).complete o.id o.req ⟨status, gen, value, out⟩
    else s.failRequest o.id o.req status gen value o.outLen
  let s := s.settle o.req.slot
  s.dispatchCipher s.cpx.waiting.length

/-- An operation whose check passed: its transform under the generation it binds, then under the older one (R367), and
the receive context's update on a pass (R374). -/
def State.finishOp (s : State) (o : CipherOp) (okStatus : Nat) : State :=
  let input := s.cipherInput o.req
  let srtp := o.req.kind = .srtp || o.req.kind = .srtcp
  let pass (s : State) (g : KeyGen) (out : List Byte) : State :=
    let s := if srtp && !o.req.enc then s.markIndex o.req.ctx (o.req.kind == .srtcp) o.index else s
    s.endOp o okStatus g.num out
  match transform o.gen o input with
  | some out => pass s o.gen out
  | none =>
    match o.alt.bind fun g => (transform g o input).map fun out => (g, out) with
    | some (g, out) => pass (s.count R.C_CPX_OLD_GEN_HITS) g out
    | none => (s.count R.C_CPX_AUTH_FAIL).endOp o St.authFail o.gen.num []

/-- The cipher island's crossing is fenced: its operations and the requests that wait end with UNIT_FENCED (R36). -/
def State.fenceCipher (s : State) : State :=
  let s := s.cpx.ops.foldl (fun (s : State) o => s.endOp o St.unitFenced o.gen.num []) s
  s.dispatchCipher s.cpx.waiting.length

/-- CIPHER_COMPLETE (R359, R360, R577). -/
def execCipherComplete (op : Nat) (check : CheckResult) (s : State) : Result :=
  match s.cpx.ops.find? fun o => o.id == op with
  | none => .next s
  | some o =>
    .next (match check with
    | .pass => s.finishOp o St.ok
    | .retried => ((s.count R.C_CPX_CHECK_RETRIES).retriedOpen Unit.cpx o.core 5).finishOp o St.okRetried
    | .failed => ((s.count R.C_CPX_CHECK_RETRIES).fenceOpen Unit.cpx o.core 5).endOp o St.unitFenced o.gen.num [])

/-! ### Key commands (R368, R378, R379) -/

/-- The key length of a suite. -/
def suiteKeyLen (suite : Nat) : Nat := if suite = 4 || suite = 6 || suite = 8 then 32 else 16

/-- Whether octets are all zero. -/
def allZero (bs : List Byte) : Bool := bs.all fun b => b == 0

/-- Octets [a, b) of a window. -/
def slice (bs : List Byte) (a b : Nat) : List Byte := (bs.take b).drop a

/-- Whether a WRITE window is valid (R377, R379). -/
def windowOk (w : List Byte) : Bool :=
  let suite := (w.headD 0).toNat
  let kl := suiteKeyLen suite
  let salt := if suite ≤ 2 then 14 else if suite ≤ 4 then 12 else 0
  1 ≤ suite && suite ≤ 8 && (w.getD 1 0).toNat < 2 && allZero (slice w 2 4) && allZero (slice w 0x56 0x80) &&
    allZero (slice w (8 + kl) 0x28) && (suite == 5 || suite == 6 || allZero (slice w 4 8)) &&
    allZero (slice w (if suite ≥ 7 then 0x28 + kl else 0x28) 0x48) && allZero (slice w (0x48 + salt) 0x56) &&
    (suite < 7 || slice w 8 (8 + kl) != slice w 0x28 (0x28 + kl))

/-- The keys that a WRITE stores: for suites 1 to 4, those of labels 0 to 5 (R363). -/
def windowKeys (w : List Byte) : List (List Byte) :=
  let suite := (w.headD 0).toNat
  let kl := suiteKeyLen suite
  let k1 := slice w 8 (8 + kl)
  if suite ≤ 4 then
    let ms := slice w 0x48 0x56
    let authLen := 20
    let saltLen := if suite ≤ 2 then 14 else 12
    [srtpKdf k1 ms 0 kl, srtpKdf k1 ms 1 authLen, srtpKdf k1 ms 2 saltLen, srtpKdf k1 ms 3 kl, srtpKdf k1 ms 4 authLen,
      srtpKdf k1 ms 5 saltLen]
  else if suite ≤ 6 then [k1, slice w 4 8]
  else [k1, slice w 0x28 (0x28 + kl)]

/-- Store a new generation in a slot (R367, R368). -/
def State.newGen (s : State) (n suite : Nat) (decryptOnly : Bool) (keys : List (List Byte)) : State × Nat :=
  let k := s.slot n
  if k.state = .draining || 2 ≤ k.gens.length then (s, St.keyBusy)
  else
    let num := (k.genNo + 1) % 65536
    let ms := s.get R.CPX_GRACE_MS_MS
    let two := k.state != .empty
    (s.setSlot n { k with
      state := if two then .activeTwo else .active
      gens := ⟨num, suite, decryptOnly, keys, 0, false, false, false⟩ :: k.gens
      genNo := num
      grace := if two && ms != 0 then some (s.cycle + ms * msCycles) else none }, St.ok)

/-- A WRITE of a slot with a 128-octet window (R368, R377, R379). -/
def State.writeSlot (s : State) (n : Nat) (w : List Byte) : State × Nat :=
  if !windowOk w then (s, St.cmdBad)
  else if (w.headD 0).toNat = 5 && s.isSet R.FUS_STATUS_TRUNK_LOCK then (s, St.keyPolicy)
  else s.newGen n (w.headD 0).toNat ((w.getD 1 0).toNat == 1) (windowKeys w)

/-- An ERASE of a slot (R368): its status, or none while it drains. -/
def State.eraseSlot (s : State) (n : Nat) (by_ : EraseBy) : State × Option Nat :=
  let k := s.slot n
  if k.state = .empty then (s, some St.ok)
  else if k.state = .draining then (s, some St.keyBusy)
  else ((s.setSlot n { k with state := .draining, grace := none, erasing := by_ }).settle n, none)

/-- End operations with KEY_GONE (R369, R385). -/
def State.abortOps (s : State) : List CipherOp → State
  | [] => s
  | o :: os => ((s.count R.C_CPX_ZEROIZE_ABORTS).endOp o St.keyGone o.gen.num []).abortOps os

/-- A ZEROIZE of a slot (R368, R369): of an EMPTY one, nothing. -/
def State.zeroizeSlot (s : State) (n : Nat) : State :=
  let k := s.slot n
  if k.state = .empty then s
  else
    let ops := s.slotOps n
    let s := s.setSlot n { k with state := .empty, gens := [], grace := none, erasing := .nobody }
    let s := s.abortOps ops
    let s := s.keyEvent 5 n ((k.cur?.map KeyGen.num).getD k.genNo) ((k.cur?.map KeyGen.count).getD 0)
    s.eraseDone k.erasing

/-- ZEROIZE of every slot, and the PKA's private registers cleared (R369). -/
def State.zeroizeAll (s : State) : State :=
  let s := (s.cpx.slots.filter fun e => e.2.state != .empty).foldl (fun s e => s.zeroizeSlot e.1) s
  { s with cpx := { s.cpx with priv := [] } }

/-- RETIRE_OLD of a slot (R368). -/
def State.retireOld (s : State) (n : Nat) : State :=
  let k := s.slot n
  if 2 ≤ k.gens.length && k.state != .draining then s.closeOld n else s

/-- CTX_INIT and CTX_CLEAR (R378). -/
def State.ctxWrite (s : State) (init : Bool) (c ssrc slotDir roc : Nat) : State × Nat :=
  if ctxCount ≤ c then (s, St.cmdBad)
  else if s.cpx.ops.any fun o => (o.req.kind == .srtp || o.req.kind == .srtcp) && o.req.ctx == c then (s, St.keyBusy)
  else
    let a := s.ctxAddr c
    if init then
      let s := (s.zero (a + 0x10) 0x30).setBytes a (natToOs 4 ssrc ++ leBytes 2 slotDir)
      (((s.setLe (a + 6) 1 (2 + slotDir / 65536 % 2 * 4)).setLe (a + 8) 4 roc).setLe (a + 12) 2 0, St.ok)
    else (s.setLe (a + 6) 1 (clearBit (s.le (a + 6) 1) 1), St.ok)

/-- The KSL window's word. -/
def State.kslWord (s : State) (i : Nat) : Nat := s.get (R.KSL_DATA_DATA i)

/-- The KSL window's octets. -/
def State.kslWindow (s : State) : List Byte := (List.range 32).flatMap fun i => leBytes 4 (s.kslWord i)

/-- The address of KSL_CLAIM, which names its grant. -/
def kslPort : Nat := R.KSL_CLAIM_GRANTED.addr

/-- Run a key command for its requester, or ignore it with CMD_IGNORED (R378). -/
def State.kslCommand (s : State) (who : Sender) (op : Nat) (run : State → State × Option Nat) : State :=
  if !s.holds kslPort who || s.isSet R.KSL_RESULT_BUSY then s.putBit R.KSL_STATUS_CMD_IGNORED true
  else
    let s := s.putBit R.KSL_RESULT_BUSY true
    let r := run { s with cpx := { s.cpx with ksl := some (op, none) } }
    match r.2 with
    | none => r.1
    | some st => { r.1 with cpx := { r.1.cpx with ksl := some (op, some st) } }

/-- The slot a key command names. -/
def State.kslSlot (s : State) : Nat := s.get R.KSL_SEL_SLOT

/-- Show a slot in KSL_SLOT_STAT and its companions (R378, R389). -/
def State.showSlot (s : State) (n : Nat) : State :=
  let k := s.slot n
  let g := k.cur?
  let code := match k.state with | .empty => 0 | .active => 1 | .activeTwo => 2 | .exhausted => 3 | .draining => 4
  let s := s.put R.KSL_SLOT_STAT_STATE code
  let s := s.putBit R.KSL_SLOT_STAT_REKEY_REQ ((g.map KeyGen.rekey).getD false)
  let s := s.putBit R.KSL_SLOT_STAT_DECRYPT_ONLY ((g.map KeyGen.decryptOnly).getD false)
  let s := s.put R.KSL_SLOT_STAT_SUITE ((g.map KeyGen.suite).getD 0)
  let s := s.put R.KSL_SLOT_STAT_GEN ((g.map KeyGen.num).getD 0)
  let s := s.put R.KSL_SLOT_INFLIGHT_OPS (min 65535 (s.slotOps n).length)
  let c := (g.map KeyGen.count).getD 0
  (s.put R.KSL_SLOT_COUNT_LO_COUNT c).put R.KSL_SLOT_COUNT_HI_COUNT (c / 2 ^ 32)

/-- KSL_CLAIM (R378). -/
def execKslClaim (who : Sender) (s : State) : Result :=
  s.accessRead who kslPort fun s =>
  .next (s.claim kslPort who)

/-- KSL_RELEASE (R378). -/
def execKslRelease (who : Sender) (s : State) : Result :=
  s.access who R.KSL_RELEASE_RELEASE.addr fun s =>
  .next (s.unclaim kslPort who)

/-- KSL_SEL, or a word of the KSL window (R390). -/
def kslWordAddr : Option (Fin 32) → Nat
  | none => R.KSL_SEL_SLOT.addr
  | some i => (R.KSL_DATA_DATA i).addr

/-- KSL_DATA_WRITE (R378): a word of the window, or KSL_SEL. -/
def execKslDataWrite (who : Sender) (word : Option (Fin 32)) (value : Word) (s : State) : Result :=
  s.access who (kslWordAddr word) fun s =>
  if !s.holds kslPort who then .next (s.putBit R.KSL_STATUS_CMD_IGNORED true)
  else
    match word with
    | none => .next (s.put R.KSL_SEL_SLOT value.toNat)
    | some i => .next (s.put (R.KSL_DATA_DATA i) value.toNat)

/-- WRITE (R368). -/
def execWrite (who : Sender) (s : State) : Result :=
  s.access who R.KSL_CMD_OP.addr fun s =>
  .next (s.kslCommand who 1 fun s => let r := s.writeSlot s.kslSlot s.kslWindow; (r.1, some r.2))

/-- ERASE (R368). -/
def execErase (who : Sender) (s : State) : Result :=
  s.access who R.KSL_CMD_OP.addr fun s =>
  .next (s.kslCommand who 2 fun s =>
    let r := s.eraseSlot s.kslSlot .ksl
    match r.2 with
    | some st => (r.1, some st)
    | none => (r.1, r.1.cpx.ksl.bind fun c => c.2))

/-- ZEROIZE (R369). -/
def execZeroize (who : Sender) (s : State) : Result :=
  s.access who R.KSL_CMD_OP.addr fun s =>
  .next (s.kslCommand who 3 fun s => (s.zeroizeSlot s.kslSlot, some St.ok))

/-- ZEROIZE_ALL (R369). -/
def execZeroizeAll (who : Sender) (s : State) : Result :=
  s.access who R.KSL_CMD_OP.addr fun s =>
  .next (s.kslCommand who 4 fun s => (s.zeroizeAll, some St.ok))

/-- RETIRE_OLD (R368). -/
def execRetireOld (who : Sender) (s : State) : Result :=
  s.access who R.KSL_CMD_OP.addr fun s =>
  .next (s.kslCommand who 5 fun s => (s.retireOld s.kslSlot, some St.ok))

/-- STATUS of the KSL port (R378). -/
def execKslStatus (who : Sender) (s : State) : Result :=
  s.access who R.KSL_CMD_OP.addr fun s =>
  .next (s.kslCommand who 6 fun s => (s.showSlot s.kslSlot, some St.ok))

/-- CTX_INIT (R378). -/
def execCtxInit (who : Sender) (s : State) : Result :=
  s.access who R.KSL_CMD_OP.addr fun s =>
  .next (s.kslCommand who 7 fun s =>
    let r := s.ctxWrite true (s.kslWord 0 % 2 ^ 21) (s.kslWord 1) (s.kslWord 2) (s.kslWord 3)
    (r.1, some r.2))

/-- CTX_CLEAR (R378). -/
def execCtxClear (who : Sender) (s : State) : Result :=
  s.access who R.KSL_CMD_OP.addr fun s =>
  .next (s.kslCommand who 8 fun s => let r := s.ctxWrite false (s.kslWord 0 % 2 ^ 21) 0 0 0; (r.1, some r.2))

/-- KSL_COMMAND_DONE (R378, R386): BUSY falls, the status shows and the window is zeroed; an ERASE that still drains is
not done. -/
def execKslCommandDone (s : State) : Result :=
  match s.cpx.ksl with
  | some (_, some st) =>
    let s := (s.putBit R.KSL_RESULT_BUSY false).put R.KSL_RESULT_STATUS st
    let s := (List.range 32).foldl (fun s i => s.put (R.KSL_DATA_DATA i) 0) s
    .next { s with cpx := { s.cpx with ksl := none } }
  | _ => .next s

/-- GRACE_PERIOD_END (R368). -/
def execGracePeriodEnd (slot : Fin 65536) (s : State) : Result :=
  match (s.slot slot).grace with
  | some t => if t ≤ s.cycle then .next (s.closeOld slot) else .next s
  | none => .next s

/-- Lose a generation to a key store fault (R385). -/
def State.loseGen (s : State) (n g : Nat) : State :=
  let k := s.slot n
  match k.gens.find? fun x => x.num == g with
  | none => s
  | some lost =>
    let ops := s.cpx.ops.filter fun o => o.binds n g
    let left := (k.gens.filter fun x => x.num != g).map fun x => { x with closed := false }
    let st : SlotState := match left with
      | [] => .empty
      | x :: _ => if k.state = .draining then .draining else if x.ended || hardLimit ≤ x.count then .exhausted else .active
    let s := s.setSlot n { k with
      gens := left, state := st, grace := none, erasing := if left.isEmpty then .nobody else k.erasing }
    let s := s.abortOps ops
    let s := s.keyEvent 5 n lost.num lost.count
    if left.isEmpty then s.eraseDone k.erasing else s

/-- KEY_STORE_ECC_ERROR (R385, R577): the read is repeated once. -/
def execKeyStoreEccError (slot : Fin 65536) (gen : Nat) (again : Bool) (s : State) : Result :=
  if again then .next (s.loseGen slot gen) else .next (s.retried Unit.cpx 26 7 slot)

/-! ### The random source (R383, R384) -/

/-- RNG_READY (R383, R384): the start-up tests pass; after a failure, the event was a transient. -/
def execRngReady (s : State) : Result :=
  match s.cpx.rng with
  | .starting => .next ({ s with cpx := { s.cpx with rng := .ready } }.putBit R.CPX_STATUS_RNG_READY true)
  | .retesting =>
    .next (({ s with cpx := { s.cpx with rng := .ready } }.putBit R.CPX_STATUS_RNG_READY true).retriedOpen Unit.cpx 24 6)
  | _ => .next s

/-- RNG_HEALTH_FAIL (R384): output is discarded and the source restarts once; a second failure in a row fences it. -/
def execRngHealthFail (s : State) : Result :=
  let failed (s : State) : State := (s.count R.C_CPX_RNG_HEALTH_FAIL).putBit R.CPX_STATUS_RNG_READY false
  match s.cpx.rng with
  | .ready => .next (failed { s with cpx := { s.cpx with rng := .retesting } })
  | .starting => .next (failed { s with cpx := { s.cpx with rng := .retesting } })
  | .retesting =>
    .next (((failed { s with cpx := { s.cpx with rng := .failed } }).fenceOpen Unit.cpx 24 6).keyEvent 6 0 0 0)
  | _ => .next s

/-- RNG_DATA_READ (R383): a read of the register gives 32 bits of output, which the spec leaves open, or 0 when none is ready; a
fabric request for random data that finds none completes with RNG_NOT_READY. -/
def execRngDataRead (ask : RngAsk) (s : State) : Result :=
  let ready := s.cpx.rng = .ready
  match ask with
  | .request who => .next (if ready then s.spent.emit (.done who St.ok [s.free (2 ^ 32)]) else s.emit (.done who St.rngNotReady []))
  | .read who =>
    s.accessRead who R.CPX_RNG_DATA_DATA.addr fun s =>
    if ready then .next (s.spent.emit (.readDone who R.CPX_RNG_DATA_DATA.addr (s.free (2 ^ 32))))
    else .next (s.emit (.readDone who R.CPX_RNG_DATA_DATA.addr 0))

end Sys2Proof.Machine
end

