-- ==== Sys2Proof/Machine/Egress.lean ====
section
/-! DEFINITION. Egress scheduling, shapers, policers and the Rainband gates (spec/04_egress_time.md, R130 to R151, R163 to
R166). -/

namespace Sys2Proof.Machine

open Sys2Proof

/-- The legs of the part: 16,384, or 8,192 with CAPACITY_TIER 1 (R3). -/
def State.legLimit (s : State) : Nat := if s.isSet R.FUS_CAPACITY_TIER then 8192 else 16384

/-- The rate of a port in Gb/s, by RLY_PORT_MODE (R55). -/
def State.portRate (s : State) : Nat := [100, 400, 200, 50, 25, 10].getD (s.get R.RLY_PORT_MODE_MODE) 100

/-- The charged length of a frame (R134). -/
def State.charged (s : State) (len : Nat) : Nat := len + s.get R.EGS_OVERHEAD_BYTES

/-- The serialization time of charged bytes at the port rate, in ns, rounded up. -/
def State.serialNs (s : State) (bytes : Nat) : Nat := ceilDiv (bytes * 8) s.portRate

/-! ### Shapers -/

/-- The shaper of a destination. -/
def State.shaper (s : State) (d : Nat) : Shaper := SMap.get Shaper.init s.egress.shapers d

/-- The state with a shaper replaced. -/
def State.setShaper (s : State) (d : Nat) (h : Shaper) : State :=
  { s with egress := { s.egress with shapers := SMap.set Shaper.init s.egress.shapers d h } }

/-- A byte in the units of a level. -/
def levelUnit : Int := 4294967296

/-- The rate of a port in units of 8 kb/s. -/
def State.portUnits (s : State) : Nat := s.portRate * 125000

/-- The shaper at 64 ns update `u`: RATE × 8 kb/s of credit since its last update, up to BURST (R135), and no more than a port of rate `most`
gives (R137). One update is 96 fabric cycles and gains RATE / 15,625 bytes. -/
def Shaper.refill (h : Shaper) (most u : Nat) : Shaper :=
  if h.en then
    let gain : Int := ((u - h.upd) * min h.rate most : Nat) * levelUnit / 15625
    { h with level := min ((h.burst : Int) * levelUnit) (h.level + gain), upd := u }
  else { h with upd := u }

/-- The present 64 ns update. -/
def State.update64 (s : State) : Nat := s.cycle / 96

/-- The shaper of a destination, filled up to the present. -/
def State.shaperNow (s : State) (d : Nat) : Shaper := (s.shaper d).refill s.portUnits s.update64

/-- Every shaper filled up to the present, before the port rate changes. -/
def State.fillShapers (s : State) : State :=
  { s with egress := { s.egress with shapers := s.egress.shapers.map fun e => (e.1, e.2.refill s.portUnits s.update64) } }

/-- Whether a destination's shaper lets a frame of a class start (R136, R137); a frame outside every destination has
none. -/
def State.shaperLets (s : State) (d cls : Nat) : Bool :=
  cls < 2 || 16640 ≤ d || !(s.shaper d).en || 0 ≤ (s.shaperNow d).level

/-- Charge a frame's start to its destination (R136, R137). -/
def State.charge (s : State) (d len : Nat) : State :=
  if 16640 ≤ d || !(s.shaper d).en then s
  else
    let h := s.shaperNow d
    s.setShaper d { h with level := h.level - (s.charged len : Int) * levelUnit }

/-- The level after a rate change, by DEBT_POLICY (R138). -/
def debtLevel (level : Int) (policy oldRate newRate : Nat) : Int :=
  if 0 ≤ level || newRate = oldRate then level
  else if policy = 2 then 0
  else if policy = 1 then
    if oldRate = 0 then 0 else if newRate = 0 then level else -(((-level).toNat * newRate / oldRate : Nat) : Int)
  else level

/-- A shaper after a write of its fields (R135, R138). -/
def Shaper.write (h : Shaper) (rate : Nat) (en : Bool) (policy burst : Nat) : Shaper :=
  let lvl := if en && !h.en then (burst : Int) * levelUnit else debtLevel h.level policy h.rate rate
  { h with rate := rate, en := en, policy := policy, burst := burst, level := min lvl ((burst : Int) * levelUnit) }

/-! ### Policers (R142, R143) -/

/-- The policer of a leg. -/
def State.policer (s : State) (leg : Nat) : Policer := SMap.get Policer.init s.egress.policers leg

/-- The state with a policer replaced. -/
def State.setPolicer (s : State) (leg : Nat) (p : Policer) : State :=
  { s with egress := { s.egress with policers := SMap.set Policer.init s.egress.policers leg p } }

/-- The policer with its buckets filled up to fabric cycle `c`. -/
def Policer.refill (p : Policer) (c : Nat) : Policer :=
  { p with tc := min (p.cbs * 1500000) (p.tc + (c - p.upd) * p.cir)
           tp := min (p.pbs * 1500000) (p.tp + (c - p.upd) * p.pir), upd := c }

/-- The colours of RFC 2698. -/
inductive Colour where
  | green | yellow | red
  deriving DecidableEq, Repr

/-- Measure a packet in colour-blind mode: what it takes from the buckets and its colour. -/
def Policer.measure (p : Policer) (len : Nat) : Policer × Colour :=
  let b := len * 1500000
  if p.tp < b then (p, .red)
  else if p.tc < b then ({ p with tp := p.tp - b }, .yellow)
  else ({ p with tp := p.tp - b, tc := p.tc - b }, .green)

/-- Police a packet of a leg that came in on a port: whether it is admitted, with the counts of R143. -/
def State.police (s : State) (leg port len : Nat) : State × Bool :=
  let p := s.policer leg
  if !p.en then (s, true)
  else
    let r := (p.refill s.cycle).measure len
    let s := s.setPolicer leg r.1
    match r.2 with
    | .green => (s, true)
    | .yellow => if p.yellowDrop then (s.count (R.C_EGS_Pn_POL_RED_DROP port), false)
                 else (s.count (R.C_EGS_Pn_POL_YELLOW port), true)
    | .red => (s.count (R.C_EGS_Pn_POL_RED_DROP port), false)

/-! ### Class queues -/

/-- The class queue of a destination. -/
def State.classQueue (s : State) (d c : Nat) : List EFrame := SMap.get [] s.egress.queues (d * 8 + c)

/-- The state with a class queue replaced. -/
def State.setClassQueue (s : State) (d c : Nat) (l : List EFrame) : State :=
  { s with egress := { s.egress with queues := SMap.set [] s.egress.queues (d * 8 + c) l } }

/-- The bytes of frames. -/
def frameBytes (l : List EFrame) : Nat := (l.map EFrame.len).sum

/-- The copies released for a port. -/
def State.releasedOf (s : State) (n : Nat) : List EFrame := SMap.get [] s.egress.released n

/-- The state with the released copies of a port replaced. -/
def State.setReleased (s : State) (n : Nat) (l : List EFrame) : State :=
  { s with egress := { s.egress with released := SMap.set [] s.egress.released n l } }

/-- A frame enters its class queue, or is dropped above EGS_DQ_LIMIT (R131). -/
def State.enqueueFrame (s : State) (f : EFrame) : State :=
  let q := s.classQueue f.dest f.cls
  if s.get R.EGS_DQ_LIMIT_BYTES < frameBytes q + f.len then (s.count (R.C_EGS_Pn_TAIL_DROP f.port)).release f.cell
  else s.setClassQueue f.dest f.cls (q ++ [f])

/-- ENQUEUE (R131): the port's oldest released copy enters its class queue. -/
def execEnqueue (port : Fin 8) (s : State) : Result :=
  match s.releasedOf port with
  | [] => .next s
  | f :: rest => .next ((s.setReleased port rest).enqueueFrame f)

/-! ### Gates -/

/-- Device time as a count of nanoseconds, which BASE + k × CYCLE is compared with (R150). -/
def State.timeNs (s : State) : Nat := s.time.sec * 1000000000 + s.time.ns

/-- The gates of a port. -/
def State.gate (s : State) (n : Nat) : Gates := SMap.get Gates.init s.gates n

/-- The state with a port's gates replaced. -/
def State.setGate (s : State) (n : Nat) (g : Gates) : State := { s with gates := SMap.set Gates.init s.gates n g }

/-- Whether a list is in effect: RUNNING or RUNNING_PENDING (R150). -/
def State.listInEffect (s : State) (n : Nat) : Bool := 2 ≤ s.get (R.TGC_STATUS_STATE n)

/-- The gates and the interval of entry `e` of the list in effect. -/
def State.operEntry (s : State) (n e : Nat) : Nat × Nat := (s.get (R.TGC_OPER_GATES n e), s.get (R.TGC_OPER_INTV n e))

/-- The list in effect. -/
def State.operList (s : State) (n : Nat) : List (Nat × Nat) :=
  (List.range (s.get (R.TGC_OPER_LEN_ENTRIES n))).map (s.operEntry n)

/-- Where each entry of a list ends within its cycle: the last lasts to the end, and the list is cut there (R146). -/
def entryEnds (cycle : Nat) : Nat → List (Nat × Nat) → List Nat
  | _, [] => []
  | _, [_] => [cycle]
  | t, e :: es => min cycle (t + e.2) :: entryEnds cycle (t + e.2) es

/-- The entries that run within the cycle: gates and length. -/
def entrySpans (cycle : Nat) (l : List (Nat × Nat)) : List (Nat × Nat) :=
  let ends := entryEnds cycle 0 l
  (List.zip (l.map Prod.fst) (List.zip ends (0 :: ends))).map fun x => (x.1, x.2.1 - x.2.2)

/-- The longest run of class `c` among spans, and the run that is still going. -/
def longestRun (c : Nat) : Nat → Nat → List (Nat × Nat) → Nat
  | best, _, [] => best
  | best, run, (g, d) :: l =>
    if g.testBit c then longestRun c (max best (run + d)) (run + d) l else longestRun c best 0 l

/-- W_max of a class over a list (R147): the longest window, counted cyclically. -/
def wMax (c cycle : Nat) (l : List (Nat × Nat)) : Nat :=
  let sp := (entrySpans cycle l).filter fun x => x.2 != 0
  if sp.all fun x => x.1.testBit c then 0xFFFFFFFF else longestRun c 0 0 (sp ++ sp)

/-- The guard band of a class in ns, rounded up (R148). -/
def State.guardNs (s : State) (n c : Nat) : Nat :=
  ceilDiv ((s.get (R.TGC_MAXFRAME_BYTES n c) + s.get R.EGS_OVERHEAD_BYTES) * 8) s.portRate

/-- Show W_max and the guard bands of a port (R147, R148): 0 with no list in effect. -/
def State.showGates (s : State) (n : Nat) : State :=
  (List.range 7).foldl (fun t c =>
    let t := t.put (R.TGC_GUARD_NS n c) (if s.listInEffect n then s.guardNs n c else 0)
    t.put (R.TGC_WMAX_NS n c) (if s.listInEffect n then wMax c (s.get (R.TGC_OPER_CYCLE_NS n)) (s.operList n) else 0)) s

/-- Whether class `c` is open now (R146). -/
def State.gateOpen (s : State) (n c : Nat) : Bool :=
  c == 7 || !s.isSet (R.TGC_CTRL_ENABLE n) || !s.listInEffect n ||
    (s.get (R.TGC_OPER_GATES n (s.get (R.TGC_CUR_ENTRY_ENTRY n)))).testBit c

/-- When the entry in effect ends, in nanoseconds of device time: its end in the present cycle, or where the list restarts after a step
(R146, R155). -/
def State.entryEnd (s : State) (n : Nat) : Nat :=
  match (s.gate n).resume with
  | some t => t
  | none => (s.gate n).cycleStart +
      (entryEnds (s.get (R.TGC_OPER_CYCLE_NS n)) 0 (s.operList n)).getD (s.get (R.TGC_CUR_ENTRY_ENTRY n)) 0

/-- How long class `c` stays open over spans, until the first that closes it; `none` if none does. -/
def openFor (c : Nat) : Nat → List (Nat × Nat) → Option Nat
  | _, [] => none
  | t, (g, d) :: l => if g.testBit c || d = 0 then openFor c (t + d) l else some t

/-- The nanoseconds until class `c` closes on a port, `none` if it never does (R147, R148, R151). -/
def State.openNs (s : State) (n c : Nat) : Option Nat :=
  if c = 7 || !s.isSet (R.TGC_CTRL_ENABLE n) then none
  else
    let sp := entrySpans (s.get (R.TGC_OPER_CYCLE_NS n)) (s.operList n)
    let e := s.get (R.TGC_CUR_ENTRY_ENTRY n)
    let later := match (s.gate n).resume with
      | some _ => sp
      | none => sp.drop (e + 1) ++ sp
    let own := if s.listInEffect n then openFor c (s.entryEnd n - s.timeNs) later else none
    match (s.gate n).snapshot with
    | none => own
    | some p => some (min (p.takeover - s.timeNs) (own.getD (p.takeover - s.timeNs)))

/-- Whether a frame of class `c` may start under the gates: the gate is open and the frame ends before it closes (R148). -/
def State.gateLets (s : State) (n c len : Nat) : Bool :=
  s.gateOpen n c &&
    match s.openNs n c with
    | none => true
    | some t => s.charged len * 8 ≤ t * s.portRate

/-- Whether a frame of class `c` can fit no window of the list in effect (R149). -/
def State.oversize (s : State) (n c len : Nat) : Bool :=
  let w := s.get (R.TGC_WMAX_NS n c)
  c < 7 && s.isSet (R.TGC_CTRL_ENABLE n) && s.listInEffect n && w != 0 && w != 0xFFFFFFFF && w * s.portRate < s.charged len * 8

/-! ### The pick (R132, R133, R140, R149) -/

/-- Count the heads on a port that can fit no window, each once (R149). -/
def State.demoteHeads (s : State) (n : Nat) : List (Nat × List EFrame) → State
  | [] => s
  | (_, f :: rest) :: l =>
    let s := if f.port == n && !f.demoted && s.oversize n f.cls f.len then
        (s.setClassQueue f.dest f.cls ({ f with demoted := true } :: rest)).count (R.C_EGS_Pn_OVERSIZE_FOR_WINDOW n)
      else s
    s.demoteHeads n l
  | (_, []) :: l => s.demoteHeads n l

/-- The class that a frame at the head of its queue is arbitrated in: 7, ungated, while the list in effect has no window for it (R149, R151). -/
def State.standsIn (s : State) (f : EFrame) : Nat := if s.oversize f.port f.cls f.len then 7 else f.cls

/-- The heads of a port that are eligible in arbitration class `c` (R132). -/
def State.eligible (s : State) (n c : Nat) : List EFrame :=
  s.egress.queues.filterMap fun e =>
    match e.2 with
    | [] => none
    | f :: _ =>
      if f.port == n && s.standsIn f == c && (s.oversize n f.cls f.len || s.gateLets n c f.len) && s.shaperLets f.dest f.cls
      then some f else none

/-- The destination whose turn it is: the next after the one served last, round (R133). -/
def nextTurn (last : Nat) (fs : List EFrame) : Option EFrame :=
  match fs.filter fun f => last < f.dest with
  | f :: _ => some f
  | [] => fs.head?

/-- The head whose turn it is in a class. -/
def State.turnOf (s : State) (n c : Nat) : Option EFrame :=
  nextTurn (SMap.get 16651 s.egress.turn (n * 8 + c)) (s.eligible n c)

/-- The DWRR of a port. -/
def State.dwrrOf (s : State) (n : Nat) : Dwrr := SMap.get Dwrr.init s.egress.dwrr n

/-- The state with a port's DWRR replaced. -/
def State.setDwrr (s : State) (n : Nat) (d : Dwrr) : State :=
  { s with egress := { s.egress with dwrr := SMap.set Dwrr.init s.egress.dwrr n d } }

/-- The class after `c` in the DWRR's round. -/
def nextDwrr (c : Nat) : Nat := if c = 6 then 2 else c + 1

/-- Visit classes 2 to 6 in turn until one's deficit covers its head (R133); at most `fuel` visits. -/
def State.dwrrPick (s : State) (n : Nat) : Nat → State × Option EFrame
  | 0 => (s, none)
  | fuel + 1 =>
    let d := s.dwrrOf n
    match s.turnOf n d.cur with
    | none =>
      (s.setDwrr n { deficit := SMap.set 0 d.deficit d.cur 0, cur := nextDwrr d.cur, visited := false }).dwrrPick n fuel
    | some f =>
      let have_ := SMap.get 0 d.deficit d.cur + (if d.visited then 0 else s.get (R.EGS_Pn_QUANTUM_BYTES n (d.cur - 2)))
      if s.charged f.len ≤ have_ then
        (s.setDwrr n { deficit := SMap.set 0 d.deficit d.cur have_, cur := d.cur, visited := true }, some f)
      else
        (s.setDwrr n { deficit := SMap.set 0 d.deficit d.cur have_, cur := nextDwrr d.cur, visited := false }).dwrrPick n fuel

/-- A frame that a class of the DWRR sends is taken from its deficit (R133). -/
def State.chargeDwrr (s : State) (n c len : Nat) : State :=
  if 2 ≤ c && c ≤ 6 then
    let d := s.dwrrOf n
    s.setDwrr n { d with deficit := SMap.set 0 d.deficit c (SMap.get 0 d.deficit c - s.charged len) }
  else s

/-- With no class of the DWRR eligible, each one's visit sets its deficit to 0 (R133). -/
def State.idleDwrr (s : State) (n : Nat) : State := s.setDwrr n { s.dwrrOf n with deficit := [], visited := false }

/-- The visits that suffice for the longest frame at the least quantum. -/
def dwrrFuel : Nat := 1100

/-- The frame that arbitration selects, by class (R132). -/
def State.arbitrate (s : State) (n : Nat) : State × Option EFrame :=
  match s.turnOf n 0 with
  | some f => (s, some f)
  | none =>
    match s.turnOf n 1 with
    | some f => (s, some f)
    | none =>
      match if [2, 3, 4, 5, 6].any fun c => (s.turnOf n c).isSome then s.dwrrPick n dwrrFuel else (s.idleDwrr n, none) with
      | (t, some f) => (t, some f)
      | (t, none) => (t, t.turnOf n 7)

/-- Take a frame off the head of its class queue, noting whose turn it was. -/
def State.takeHead (s : State) (n c : Nat) (f : EFrame) : State :=
  let s := s.setClassQueue f.dest f.cls (s.classQueue f.dest f.cls).tail
  { s with egress := { s.egress with turn := SMap.set 16651 s.egress.turn (n * 8 + c) f.dest } }

/-- The fabric cycles since an age reference, which counts modulo 2^32 (R62). -/
def State.ageCycles (s : State) (age : Nat) : Nat := (s.cycle + 2 ^ 32 - age % 2 ^ 32) % 2 ^ 32

/-- A selected frame is too old to send: classes 1 to 3 above EGS_AGE_MAX, a cycle being 2/3 ns (R140). -/
def State.tooOld (s : State) (f : EFrame) : Bool :=
  1 ≤ f.cls && f.cls ≤ 3 && s.get R.EGS_AGE_MAX_NS * 3 < s.ageCycles f.age * 2

/-- The first bit of a frame leaves a port's MAC: a port in LOOPBACK loops it to its own receiver inside the PCS, and it does not leave the
device (R98, log entry 112). -/
def State.sendFrame (s : State) (n cls len : Nat) (data : List Byte) : State :=
  if s.isSet (R.RLY_PnCTL_LOOPBACK n) then
    { s with rly := { s.rly with looped := SMap.set [] s.rly.looped n (SMap.get [] s.rly.looped n ++ [data]) } }
  else s.emit (.frame n cls len data)

/-- The first bit of a frame leaves: the shaper is charged, the frame counted, the port busy for its charged length, and
its cell returned (R134, R136). -/
def State.startFrame (s : State) (n : Nat) (f : EFrame) : State :=
  let s := s.charge f.dest f.len
  let s := (s.count (R.C_RLY_Pn_TX_FRAMES n)).count (R.C_RLY_Pn_TX_BYTES n) f.len
  let s := { s with egress := { s.egress with
              busy := SMap.set 0 s.egress.busy n (s.cycle + ceilDiv (s.charged f.len * 12) s.portRate) } }
  (s.sendFrame n (s.standsIn f) f.len f.data).release f.cell

/-- Select frames on a port until one is sent (R140: an old one is dropped and the scheduler selects again); at most `fuel`
frames. -/
def State.pickLoop (s : State) (n : Nat) : Nat → State
  | 0 => s
  | fuel + 1 =>
    match s.arbitrate n with
    | (t, none) => t
    | (t, some f) =>
      let u := t.takeHead n (s.standsIn f) f
      if u.tooOld f then ((u.count (R.C_EGS_Pn_AGE_DROP n)).release f.cell).pickLoop n fuel
      else (u.chargeDwrr n (s.standsIn f) f.len).startFrame n f

/-- Drop the frames at the front of each class queue that satisfy a test, counting each and freeing its cell. -/
def State.dropFront (s : State) (test : Nat → EFrame → Bool) (counter : Nat) : List (Nat × List EFrame) → State
  | [] => s
  | (k, q) :: l =>
    let gone := q.takeWhile (test (k / 8))
    let s := if gone.isEmpty then s else
      gone.foldl (fun (s : State) f => (s.count counter).release f.cell) (s.setClassQueue (k / 8) (k % 8) (q.drop gone.length))
    s.dropFront test counter l

/-- Whether a frame of class 2 or 3 waits at a shaper that gets no credit and is too old (R137, R140). -/
def State.stranded (s : State) (d : Nat) (f : EFrame) : Bool :=
  (f.cls == 2 || f.cls == 3) && s.tooOld f && (s.shaper d).rate == 0 && !s.shaperLets d f.cls

/-- Every frame in the class queues. -/
def State.queuedFrames (s : State) : Nat := (s.egress.queues.map fun e => e.2.length).sum

/-- Whether a port runs: named, enabled, the relay enabled, and no fault of the device (R56, R96, R583). -/
def State.portRuns (s : State) (n : Nat) : Bool :=
  s.portNamed n && s.isSet (R.RLY_PnCTL_PORT_EN n) && s.isSet R.RLY_CTRL_ENABLE && !s.deviceFatal

/-- EGRESS_PICK (R132): the scheduler of an idle port picks the next frame and starts it; frames that a shaper with RATE 0 strands are
dropped once they are too old (R137), and a stopped port drops what reaches the head of its queues (R96). -/
def execEgressPick (port : Fin 8) (s : State) : Result :=
  if !s.isSet R.EGS_CTRL_ENABLE || s.cycle < SMap.get 0 s.egress.busy port then .next s
  else if !s.portRuns port then
    .next (s.dropFront (fun _ f => f.port == port.val) (R.C_RLY_Pn_TX_DISCARD port) s.egress.queues)
  else
    let s := s.dropFront (fun d f => f.port == port.val && s.stranded d f) (R.C_EGS_Pn_AGE_DROP port) s.egress.queues
    let s := s.demoteHeads port s.egress.queues
    .next (s.pickLoop port (s.queuedFrames + 1))

/-! ### Indirect shaper and policer access (R139, R164) -/

/-- Whether the index selected by EGS_IND_SEL is beyond its target's range (R163). -/
def State.indBad (s : State) : Bool :=
  let t := s.get R.EGS_IND_SEL_TARGET
  let i := s.get R.EGS_IND_SEL_INDEX
  if t = 0 || t = 2 then s.legLimit ≤ i else if t = 1 then 256 ≤ i else true

/-- The destination that a shaper target and index name. -/
def shaperDest (target index : Nat) : Nat := if target = 1 then 16384 + index else index

/-- The frames queued for a destination, over its classes. -/
def State.framesQueued (s : State) (d : Nat) : Nat := ((List.range 8).map fun c => (s.classQueue d c).length).sum

/-- The indirect READ command (R164). -/
def State.indReadOp (s : State) : State :=
  let t := s.get R.EGS_IND_SEL_TARGET
  let i := s.get R.EGS_IND_SEL_INDEX
  let out := fun (a b c d : Nat) => (((s.put (R.EGS_IND_DATA_DATA 0) a).put (R.EGS_IND_DATA_DATA 1) b).put
    (R.EGS_IND_DATA_DATA 2) c).put (R.EGS_IND_DATA_DATA 3) d
  if s.indBad then s.putBit R.EGS_IND_STAT_BAD_INDEX true
  else if t = 2 then
    let p := s.policer i
    out (p.cir + bnat p.en * 2 ^ 26 + bnat p.yellowDrop * 2 ^ 27) p.pir p.cbs p.pbs
  else
    let h := s.shaperNow (shaperDest t i)
    out (h.rate + bnat h.en * 2 ^ 26 + h.policy * 2 ^ 27) h.burst (unsigned 32 (h.level / levelUnit))
      (min 65535 (s.framesQueued (shaperDest t i)))

/-- Every port shows its W_max and guard bands again, after a change of what they are computed from (R148). -/
def State.renewGates (s : State) : State :=
  (List.range 8).foldl (fun (s : State) n => if s.listInEffect n then s.showGates n else s) s

/-- A refused value in the egress block, by a write of word `w`. -/
def State.egsIgnored (s : State) (w : Nat) : State :=
  (s.putBit R.EGS_STATUS_CFG_IGNORED true).log Unit.egs 0 Sev.note Ev.cfgIgnored 0x24 w

/-- The indirect WRITE command, checked as a whole (R138, R139, R164), by a write of word `w`. -/
def State.indWriteOp (s : State) (w : Nat) : State :=
  let t := s.get R.EGS_IND_SEL_TARGET
  let i := s.get R.EGS_IND_SEL_INDEX
  let d0 := s.reg (R.EGS_IND_DATA_DATA 0).addr
  let d1 := s.reg (R.EGS_IND_DATA_DATA 1).addr
  let rate := d0.field 0 26
  let en := d0.field 26 1 == 1
  if s.indBad then s.putBit R.EGS_IND_STAT_BAD_INDEX true
  else if t = 2 then
    let pir := d1.field 0 26
    let cbs := (s.reg (R.EGS_IND_DATA_DATA 2).addr).field 0 24
    let pbs := (s.reg (R.EGS_IND_DATA_DATA 3).addr).field 0 24
    if cbs = 0 || pbs = 0 || pir < rate then s.egsIgnored w
    else
      let p := (s.policer i).refill s.cycle
      let full := en && !p.en
      let tc := if full then cbs * 1500000 else min p.tc (cbs * 1500000)
      let tp := if full then pbs * 1500000 else min p.tp (pbs * 1500000)
      s.setPolicer i ⟨rate, en, d0.field 27 1 == 1, pir, cbs, pbs, tc, tp, s.cycle⟩
  else
    let policy := d0.field 27 2
    let burst := d1.field 0 25
    if policy = 3 || burst < 64 || 16777216 < burst then s.egsIgnored w
    else
      let d := shaperDest t i
      s.setShaper d ((s.shaperNow d).write rate en policy burst)

/-- IND_READ (R164). -/
def execIndRead (who : Sender) (s : State) : Result :=
  s.access who R.EGS_IND_CMD_READ.addr fun s =>
  .next s.indReadOp

/-- IND_WRITE (R139). -/
def execIndWrite (who : Sender) (s : State) : Result :=
  s.access who R.EGS_IND_CMD_READ.addr fun s =>
  .next (s.indWriteOp 2)

/-! ### Sampling (R144, R145) -/

/-- The bin of a value in units of `u` (R145). -/
def histBin (u v : Nat) : Nat := if v < u then 0 else min 15 (Nat.log2 (v / u) + 1)

/-- Sample one class of a port (R144). -/
def State.sampleClass (s : State) (n : Nat) (t : State) (c : Nat) : State :=
  let qs := s.egress.queues.filter fun e => e.1 % 8 == c && (match e.2 with | f :: _ => f.port == n | [] => false)
  let depth := (qs.map fun e => frameBytes e.2).sum
  let delay := qs.foldl (fun m e => match e.2 with | f :: _ => max m (s.ageCycles f.age * 2 / 3) | [] => m) 0
  let t := (t.put (R.EGS_Pn_Cc_DEPTH_BYTES n c) (min 0xFFFFFFFF depth)).put (R.EGS_Pn_Cc_DELAY_NS n c) (min 0xFFFFFFFF delay)
  (t.bump (R.EGS_HIST_DEPTH_COUNT (n * 8 + c) (histBin 256 depth))).bump (R.EGS_HIST_DELAY_COUNT (n * 8 + c) (histBin 50 delay))

/-- DEPTH_SAMPLE (R144): every 10 µs, for a port that the mode has (R56). -/
def execDepthSample (port : Fin 8) (s : State) : Result :=
  if s.portNamed port && s.passed (SMap.get 0 s.egress.sampled port) (10 * usCycles) then
    let s := { s with egress := { s.egress with sampled := SMap.set 0 s.egress.sampled port s.cycle } }
    .next ((List.range 8).foldl (s.sampleClass port) s)
  else .next s

/-- Add the latest sample of a port to its histograms again. -/
def State.resample (s : State) (n : Nat) : State :=
  (List.range 8).foldl (fun (t : State) c =>
    (t.bump (R.EGS_HIST_DEPTH_COUNT (n * 8 + c) (histBin 256 (t.get (R.EGS_Pn_Cc_DEPTH_BYTES n c))))).bump
      (R.EGS_HIST_DELAY_COUNT (n * 8 + c) (histBin 50 (t.get (R.EGS_Pn_Cc_DELAY_NS n c))))) s

/-- Zero every histogram; the samples of this fabric cycle are counted after the clear (R145). -/
def State.clearHistograms (s : State) : State :=
  let t := { s with regs := s.regs.filter fun e => e.1 < 0x00408000 || 0x0040A000 ≤ e.1 }
  (List.range 8).foldl (fun (t : State) n => if SMap.find? s.egress.sampled n = some s.cycle then t.resample n else t) t

/-- HIST_CLR (R145). -/
def execHistClr (who : Sender) (s : State) : Result :=
  s.access who R.EGS_CTRL_ENABLE.addr fun s =>
  .next s.clearHistograms

/-! ### Gate lists (R150, R151) -/

/-- The admin list of a port. -/
def State.adminList (s : State) (n : Nat) : List (Nat × Nat) :=
  (List.range (s.get (R.TGC_ADMIN_LEN_ENTRIES n))).map fun e =>
    (s.get (R.TGC_ADMIN_GATES_GATES n e), s.get (R.TGC_ADMIN_INTV_NS n e))

/-- Whether the admin list may be activated (R150). -/
def State.adminValid (s : State) (n : Nat) : Bool :=
  let len := s.get (R.TGC_ADMIN_LEN_ENTRIES n)
  let cyc := s.get (R.TGC_ADMIN_CYCLE_NS n)
  1 ≤ len && len ≤ 256 && 125000 ≤ cyc && cyc ≤ 1000000000 &&
    (s.adminList n).all fun e => 100 ≤ e.2 && e.2 ≤ 1000000000

/-- The first base + k × cycle at or after `t` (R150). -/
def firstBoundary (base cycle t : Nat) : Nat :=
  if t ≤ base || cycle = 0 then base else base + ceilDiv (t - base) cycle * cycle

/-- A refused activation, by a write of word `w`. -/
def State.tgcIgnored (s : State) (n w : Nat) : State :=
  (s.putBit (R.TGC_STATUS_CFG_IGNORED n) true).log Unit.egs n Sev.note Ev.cfgIgnored 0 w

/-- Activate a port's admin list (R150), by a write of word `w`. -/
def State.activate (s : State) (n w : Nat) : State :=
  if !s.isSet (R.TGC_CTRL_ENABLE n) || !s.adminValid n then s.tgcIgnored n w
  else
    let base := (s.get (R.TGC_ADMIN_BASE_SEC_LO_SEC n) + s.get (R.TGC_ADMIN_BASE_SEC_HI_SEC n) * 2 ^ 32) * 1000000000 +
      s.get (R.TGC_ADMIN_BASE_NS_NS n)
    let cyc := s.get (R.TGC_ADMIN_CYCLE_NS n)
    let snap := ⟨s.adminList n, cyc, base, firstBoundary base cyc (s.timeNs + 10000)⟩
    let s := s.setGate n { s.gate n with snapshot := some snap }
    s.put (R.TGC_STATUS_STATE n) (if s.get (R.TGC_STATUS_STATE n) ≤ 1 then 1 else 3)

/-- ACTIVATE (R150). -/
def execActivate (who : Sender) (port : Fin 8) (s : State) : Result :=
  s.access who (R.TGC_CTRL_ENABLE port).addr fun s =>
  .next (s.activate port (2 + s.get (R.TGC_CTRL_ENABLE port)))

/-- Put a list into the oper registers from entry `e`. -/
def State.putOper (s : State) (n : Nat) : Nat → List (Nat × Nat) → State
  | _, [] => s
  | e, (g, i) :: l => ((s.put (R.TGC_OPER_GATES n e) g).put (R.TGC_OPER_INTV n e) i).putOper n (e + 1) l

/-- A snapshot becomes the list in effect at entry 0 (R150). -/
def State.takeover (s : State) (n : Nat) (p : GateSnapshot) : State :=
  let s := (s.put (R.TGC_OPER_LEN_ENTRIES n) p.entries.length).put (R.TGC_OPER_CYCLE_NS n) p.cycle
  let s := (s.putOper n 0 p.entries).put (R.TGC_CUR_ENTRY_ENTRY n) 0
  let s := s.setGate n { snapshot := none, cycleStart := p.takeover, base := p.base, resume := none }
  ((s.put (R.TGC_STATUS_STATE n) 2).putBit (R.TGC_STATUS_LIST_CHANGED n) true).showGates n

/-- GATE_TAKEOVER (R150): device time has reached the takeover time of the port's snapshot. -/
def execGateTakeover (port : Fin 8) (s : State) : Result :=
  match (s.gate port).snapshot with
  | none => .next s
  | some p => if s.portNamed port && p.takeover ≤ s.timeNs then .next (s.takeover port p) else .next s

/-- The next entry of a list in effect that runs, or entry 0 of the next cycle (R146). -/
def State.advanceEntry (s : State) (n : Nat) : State :=
  let g := s.gate n
  match g.resume with
  | some t => (s.setGate n { g with resume := none, cycleStart := t }).put (R.TGC_CUR_ENTRY_ENTRY n) 0
  | none =>
    let e := s.get (R.TGC_CUR_ENTRY_ENTRY n)
    let cyc := s.get (R.TGC_OPER_CYCLE_NS n)
    if (entryEnds cyc 0 (s.operList n)).getD e cyc < cyc then s.put (R.TGC_CUR_ENTRY_ENTRY n) (e + 1)
    else (s.setGate n { g with cycleStart := g.cycleStart + cyc }).put (R.TGC_CUR_ENTRY_ENTRY n) 0

/-- GATE_ENTRY_ADVANCE (R146): the interval of the entry in effect has ended. -/
def execGateEntryAdvance (port : Fin 8) (s : State) : Result :=
  if s.portNamed port && s.listInEffect port && s.entryEnd port ≤ s.timeNs then .next (s.advanceEntry port) else .next s

/-- Clear a port's TGC ENABLE: every gate opens and the snapshot is discarded (R150). -/
def State.gateOff (s : State) (n : Nat) : State :=
  (((s.putBit (R.TGC_CTRL_ENABLE n) false).setGate n Gates.init).put (R.TGC_STATUS_STATE n) 0).showGates n

/-- GATE_DISABLE (R150). -/
def execGateDisable (who : Sender) (port : Fin 8) (s : State) : Result :=
  s.access who (R.TGC_CTRL_ENABLE port).addr fun s =>
  .next (s.gateOff port)

/-- After a step of device time the gates of a port hold until the next cycle boundary of the new time (R155), and a
pending takeover is due by the new time. -/
def State.gatesAfterStep (s : State) (n : Nat) : State :=
  let g := s.gate n
  if s.listInEffect n then
    s.setGate n { g with resume := some (firstBoundary g.base (s.get (R.TGC_OPER_CYCLE_NS n)) (s.timeNs + 1)) }
  else s

end Sys2Proof.Machine
end

