-- ==== Sys2Proof/Machine/EgressPath.lean ====
section
/-! DEFINITION. From a copy or a trunk frame to the egress port: header templates, encryption and the reorder stage (R32,
R33, R89, R393, R394). -/

namespace Sys2Proof.Machine

open Sys2Proof

/-- The relay's part of the state replaced. -/
def State.withRly (s : State) (f : Relay → Relay) : State := { s with rly := f s.rly }

/-! ### Frames -/

/-- Octets [a, a + n) as a number, most significant first. -/
def be (bs : List Byte) (a n : Nat) : Nat := osToNat (slice bs a (a + n))

/-- Octets with those from place `a` replaced by `v`. -/
def patch (bs : List Byte) (a : Nat) (v : List Byte) : List Byte := bs.take a ++ v ++ bs.drop (a + v.length)

/-- The sum of octets as 16-bit words, a last single octet padded. -/
def sum16 : List Byte → Nat
  | [] => 0
  | [a] => a.toNat * 256
  | a :: b :: bs => a.toNat * 256 + b.toNat + sum16 bs

/-- The Internet checksum: the ones' complement of the ones' complement sum. -/
def checksum (bs : List Byte) : Nat :=
  let t := sum16 bs
  65535 - (if t = 0 then 0 else (t - 1) % 65535 + 1)

/-- The header template at index `i` of a table (R89): its length, flags, port and octets. -/
def State.template (s : State) (base i : Nat) : Nat × Nat × Nat × List Byte :=
  let a := base + i * 128
  (s.le a 1, s.le (a + 1) 1, s.le (a + 2) 1 % 8, s.bytes (a + 4) 66)

/-- Whether a template can send: its length is in 42 to 66 and the mode has its port (R89). -/
def State.templateOk (s : State) (t : Nat × Nat × Nat × List Byte) : Bool :=
  42 ≤ t.1 && t.1 ≤ 66 && s.portNamed t.2.2.1

/-- Fill a header template for a UDP payload and put them together: IP lengths, identification 0 with DF, the header
checksum, the UDP length and checksum (R89). `hdr` is the template's octets, of length HDR_LEN. -/
def wrapUdp (flags : Nat) (hdr payload : List Byte) : List Byte :=
  let l3 := if flags.testBit 1 then 18 else 14
  let u := hdr.length - 8
  let ulen := 8 + payload.length
  let v6 := flags.testBit 0
  let h := if v6 then patch hdr (l3 + 4) (natToOs 2 ulen)
    else
      let h := patch (patch (patch hdr (l3 + 2) (natToOs 2 (u - l3 + ulen))) (l3 + 4) [0, 0, 0x40, 0]) (l3 + 10) [0, 0]
      patch h (l3 + 10) (natToOs 2 (checksum (slice h l3 u)))
  let h := patch h (u + 4) (natToOs 2 ulen ++ [0, 0])
  let pseudo := if v6 then slice h (l3 + 8) (l3 + 40) ++ natToOs 4 ulen ++ [0, 0, 0, 17]
    else slice h (l3 + 12) (l3 + 20) ++ [0, 17] ++ natToOs 2 ulen
  let ck := checksum (pseudo ++ h.drop u ++ payload)
  patch h (u + 6) (natToOs 2 (if ck = 0 then 65535 else ck)) ++ payload

/-- A frame padded to the 60 octets of IEEE 802.3, FCS not counted. -/
def padFrame (f : List Byte) : List Byte := f ++ List.replicate (60 - f.length) 0

/-! ### Copies -/

/-- A copy enters the order of its egress port (R32). -/
def State.addCopy (s : State) (c : EgressCopy) : State := s.withRly fun r => { r with copies := r.copies ++ [c] }

/-- Release the copies of an egress port and an ingress port from the front of their order while their operations are
done; a failed one is removed at its place (R33). What stays is answered with what is released, oldest first. -/
def releaseFront (outPort inPort : Nat) : List EgressCopy → List EgressCopy × List EFrame
  | [] => ([], [])
  | c :: cs =>
    if c.frame.port != outPort || c.inPort != inPort then
      let r := releaseFront outPort inPort cs
      (c :: r.1, r.2)
    else
      match c.sealed with
      | none => (c :: cs, [])
      | some ok =>
        let r := releaseFront outPort inPort cs
        (r.1, if ok then c.frame :: r.2 else r.2)

/-- The reorder stage of a port hands on what its order lets go (R33, R41). -/
def State.reorder (s : State) (outPort inPort : Nat) : State :=
  let r := releaseFront outPort inPort s.rly.copies
  (s.withRly fun x => { x with copies := r.1 }).setReleased outPort (s.releasedOf outPort ++ r.2)

/-- Put a frame into a cell (R103, R130): class RELIABLE for a trunk's, MEDIA for a leg's, on the die and without waiting (log entry 28). -/
def State.frameCell (s : State) (f : EFrame) : State × Option EFrame :=
  match s.allocCell (.fixed 0) 0 f.len (if 16384 ≤ f.dest then .reliable else .media) true true with
  | (t, .cell ptr) => (t.setBytes ptr f.data, some { f with cell := ptr })
  | (t, _) => (if f.dest < 16384 then t.count R.C_RLY_COPY_DROP else t, none)

/-- The copy with its operation's outcome: its frame in a cell, or its removal. -/
def State.seal (s : State) (c : EgressCopy) (res : CipherResult) : State × EgressCopy :=
  if !St.success res.status then (s, { c with sealed := some false })
  else
    let data := padFrame (wrapUdp c.flags c.hdr res.out)
    match s.frameCell { c.frame with data := data, len := data.length + 4 } with
    | (t, some f) => (t, { c with sealed := some true, frame := f })
    | (t, none) => (t, { c with sealed := some false })

/-- The result of a cipher operation is taken from the core that holds it. -/
def State.dropResult (s : State) (op : Nat) : State := { s with cpx := { s.cpx with results := SMap.set none s.cpx.results op none } }

/-- EGRESS_ENCRYPT_DONE (R33): the copy whose operation this is takes its outcome, and its port's order moves on. -/
def execEgressEncryptDone (op : Nat) (s : State) : Result :=
  match SMap.get none s.cpx.results op, s.rly.copies.find? fun c => c.op == op with
  | some res, some c =>
    let r := (s.dropResult op).seal c res
    let s := r.1.withRly fun x => { x with copies := x.copies.map fun y => if y.op == op then r.2 else y }
    .next (s.reorder c.frame.port c.inPort)
  | _, _ => .next s

/-! ### Trunk frames (R393, R394) -/

/-- The 20-octet Hokuvon header, COUNTER 0 (R394). -/
def State.hokuvonHeader (s : State) (t ty flags length : Nat) : List Byte :=
  natToOs 1 (0x80 + ty) ++ natToOs 1 flags ++ natToOs 1 (s.get R.TRK_MODULE_INDEX) ++
    natToOs 1 (s.get (R.TRK_Tt_CTRL_PEER t)) ++ natToOs 2 length ++ natToOs 2 0 ++ natToOs 4 (s.get R.TRK_CASCADE_ID_ID) ++
    natToOs 8 0

/-- The address of the trunk header templates. -/
def State.trunkHdrBase (s : State) : Nat := s.pair R.TRK_HDR_BASE_LO_ADDR R.TRK_HDR_BASE_HI_ADDR

/-- The egress destination of a trunk (R130). -/
def trunkDest (t : Nat) : Nat := 16384 + t

/-- Send a Hokuvon frame on a trunk: type, flags, body, class, age reference and ingress port (8 for the trunk unit's
own). An encrypted frame takes the trunk's send slot (R395, R398). A template that cannot send sends nothing. -/
def State.trunkSend (s : State) (t ty flags : Nat) (body : List Byte) (cls age inPort : Nat) : State :=
  let tpl := s.template s.trunkHdrBase t
  if !s.templateOk tpl then s
  else
    let hdr := tpl.2.2.2.take tpl.1
    let frame : EFrame := ⟨trunkDest t, cls, tpl.2.2.1, 0, noCell, age, false, []⟩
    let s := s.count (R.C_TRK_Tt_TX_FRAMES t)
    if ty = 8 || ty = 9 then
      let data := padFrame (wrapUdp tpl.2.1 hdr (s.hokuvonHeader t ty flags body.length ++ body))
      match s.frameCell { frame with data := data, len := data.length + 4 } with
      | (s, none) => s
      | (s, some f) => (s.addCopy ⟨0, inPort, f, hdr, tpl.2.1, some true⟩).reorder frame.port inPort
    else
      let input := s.hokuvonHeader t ty (flags + s.get (R.TRK_Tt_STAT_KEY_PHASE t)) (body.length + 16) ++ body
      let s := s.addCopy ⟨s.cpx.nextId, inPort, frame, hdr, tpl.2.1, none⟩
      s.submit { user := .held, cls := 1, kind := .trunk, enc := true, genSel := 0, xts4k := false,
                 slot := s.get (R.TRK_Tt_SLOTS_SEND t), ctx := 0, input := some input, src := 0, dst := 0,
                 len := input.length, hdrLen := 20, ivCtr := 0 }

end Sys2Proof.Machine
end

