-- ==== Sys2Proof/Machine/Pka.lean ====
section
/-! DEFINITION. The P-256 public-key accelerator (R382, R388). The places of arguments and results in CPX_PKA_DATA are
not given, so that commands carry their arguments and results leave in the completion; log entry 21. -/

namespace Sys2Proof.Machine

open Sys2Proof

/-- The address of CPX_PKA_CLAIM, which names its grant. -/
def pkaPort : Nat := R.CPX_PKA_CLAIM_GRANTED.addr

/-- CPX_PKA_CLAIM (R382). -/
def execCpxPkaClaim (who : Sender) (s : State) : Result :=
  s.accessRead who pkaPort fun s =>
  .next (s.claim pkaPort who)

/-- CPX_PKA_RELEASE (R382). -/
def execCpxPkaRelease (who : Sender) (s : State) : Result :=
  s.access who R.CPX_PKA_RELEASE_RELEASE.addr fun s =>
  .next (s.unclaim pkaPort who)

/-- Start a PKA command for its requester: BUSY rises and the outcome waits for PKA_COMMAND_DONE; a command without the
grant or while BUSY is ignored. -/
def State.pkaCommand (s : State) (who : Sender) (run : State → State × PkaJob) : State :=
  if !s.holds pkaPort who || s.isSet R.CPX_PKA_RESULT_BUSY then s
  else
    let r := run (s.putBit R.CPX_PKA_RESULT_BUSY true)
    { r.1 with cpx := { r.1.cpx with pka := some r.2 } }

/-- The device identity key (R563): the first 32-octet candidate in 1 to n − 1 of HKDF over the die's secret. -/
def identityCandidate : List (List Byte) → Nat
  | [] => 1
  | c :: cs => if 0 < osToNat c && osToNat c < P256.n then osToNat c else identityCandidate cs

/-- The candidates of an identity, as many as HKDF gives. -/
def identityCandidates (ident : List Byte) : List (List Byte) :=
  (List.range 255).map fun i => ((hkdf [] Config.dieSecret ident (255 * 32)).drop (32 * i)).take 32

/-- DEVICE_IDENTITY's octets. -/
def State.identity (s : State) : List Byte := (List.range 8).flatMap fun i => leBytes 4 (s.get (R.FUS_IDENTITY_DATA i))

/-- The identifiers of a function's configuration space (R478): Vendor ID, Device ID, Subsystem Vendor ID and Subsystem ID; class code
0x04_8000. -/
def State.functionIds (s : State) (n : Nat) : List Nat :=
  let set := s.isSet R.FUS_STATUS_IDENTITY_SET
  [0x1F3B, if n = 0 then 0x7B07 else 0x7B08, if set then osToNat (slice s.identity 14 16) else 0x1F3B,
    if set then osToNat (slice s.identity 16 18) else 0]

/-- The Device Serial Number (R478): the low 64 bits of DEVICE_IDENTITY, and 0 until it is written. -/
def State.deviceSerial (s : State) : Nat := if s.isSet R.FUS_STATUS_IDENTITY_SET then leVal (slice s.identity 0 8) else 0

/-- A private key: a register of the PKA, or the device's own (R382, R563); none is not usable by the requester. -/
def State.privateKey (s : State) (reg : Option (Fin 16)) : Nat :=
  match reg with
  | some r => SMap.get 0 s.cpx.priv r
  | none => identityCandidate (identityCandidates s.identity)

/-- Whether a scalar is accepted (R382). -/
def scalarOk (d : Nat) : Bool := 0 < d && d < P256.n

/-- VERIFY (R382). -/
def execVerify (who : Sender) (digest x y r sv : Nat) (s : State) : Result :=
  s.access who R.CPX_PKA_CMD_OP.addr fun s =>
  .next (s.pkaCommand who fun s => (s, ⟨if P256.verify digest x y r sv then St.ok else St.pkaInvalid, []⟩))

/-- A control core. -/
def Sender.isControl : Sender → Bool
  | .control _ => true
  | _ => false

/-- SIGN (R382, R563): `none` names DEVICE, for a control core alone and once the identity is written. -/
def execSign (who : Sender) (digest : Nat) (key : Option (Fin 16)) (s : State) : Result :=
  s.access who R.CPX_PKA_CMD_OP.addr fun s =>
  .next (s.pkaCommand who fun s =>
    if key.isNone && (!Sender.isControl who || !s.isSet R.FUS_STATUS_IDENTITY_SET) then (s, ⟨St.keyPolicy, []⟩)
    else
      let d := s.privateKey key
      if !scalarOk d then (s, ⟨St.pkaInvalid, []⟩)
      else
        let rs := P256.sign (digest % 2 ^ 256) d (s.free (P256.n - 1) + 1)
        (s.spent, ⟨St.ok, [rs.1, rs.2]⟩))

/-- KEYGEN (R382): a private key from the random source, its public key as the result. -/
def execKeygen (who : Sender) (target : Fin 16) (s : State) : Result :=
  s.access who R.CPX_PKA_CMD_OP.addr fun s =>
  .next (s.pkaCommand who fun s =>
    if s.cpx.rng != .ready then (s, ⟨St.rngNotReady, []⟩)
    else
      let d := s.free (P256.n - 1) + 1
      let s := s.spent
      let s := { s with cpx := { s.cpx with priv := SMap.set 0 s.cpx.priv target d } }
      match P256.mul d P256.g 256 with
      | some (x, y) => (s, ⟨St.ok, [x, y]⟩)
      | none => (s, ⟨St.pkaInvalid, []⟩))

/-- ECDH (R382): the shared x-coordinate is held inside the PKA. -/
def execEcdh (who : Sender) (key : Fin 16) (x y : Nat) (s : State) : Result :=
  s.access who R.CPX_PKA_CMD_OP.addr fun s =>
  .next (s.pkaCommand who fun s =>
    let d := s.privateKey (some key)
    if !scalarOk d || !P256.onCurve x y then (s, ⟨St.pkaInvalid, []⟩)
    else
      match P256.mul d (some (x, y)) 256 with
      | some (sx, _) => ({ s with cpx := { s.cpx with heldX := some sx } }, ⟨St.ok, []⟩)
      | none => (s, ⟨St.pkaInvalid, []⟩))

/-- DERIVE_TO_SLOT (R382): HKDF output written as a WRITE would be, and the held x-coordinate cleared. -/
def execDeriveToSlot (who : Sender) (slot : Fin 65536) (suite : Nat) (decryptOnly : Bool) (salt info : List Byte) (s : State) : Result :=
  s.access who R.CPX_PKA_CMD_OP.addr fun s =>
  .next (s.pkaCommand who fun s =>
    match s.cpx.heldX with
    | none => (s, ⟨St.cmdBad, []⟩)
    | some x =>
      let t := { s with cpx := { s.cpx with heldX := none } }
      if suite != 5 && suite != 6 || salt.length != 32 || 64 < info.length then (t, ⟨St.cmdBad, []⟩)
      else if suite = 5 && s.isSet R.FUS_STATUS_TRUNK_LOCK then (t, ⟨St.keyPolicy, []⟩)
      else
        let kl := suiteKeyLen suite
        let okm := hkdf salt (natToOs 32 x) info (kl + 4)
        let r := t.newGen slot suite decryptOnly [okm.take kl, okm.drop kl]
        (r.1, ⟨r.2, []⟩))

/-- The window after a command that gives results: the places of its results are not given, so every word is free. -/
def State.freeWindow (s : State) : Nat → State
  | 0 => s
  | n + 1 => ((s.put (R.CPX_PKA_DATA_DATA n) (s.free (2 ^ 32))).spent).freeWindow n

/-- PKA_COMMAND_DONE (R36, R382): BUSY falls and the status shows. -/
def execPkaCommandDone (s : State) : Result :=
  match s.cpx.pka with
  | none => .next s
  | some j =>
    let j : PkaJob := if s.isFenced Unit.crossing 2 then ⟨St.unitFenced, []⟩ else j
    let s := (s.putBit R.CPX_PKA_RESULT_BUSY false).put R.CPX_PKA_RESULT_STATUS j.status
    let s := if j.result.isEmpty then s else s.freeWindow 64
    .next { s with cpx := { s.cpx with pka := none, pkaOut := j.result } }

end Sys2Proof.Machine
end

