-- ==== Sys2Proof/Machine/TrunkBase.lean ====
section
/-! DEFINITION. The trunk unit's part of a frame's way in and out (spec/12_cascade.md, R392 to R408): arrival and its checks, the
windows of counters, reliable sending, and the events of R421. -/

namespace Sys2Proof.Machine

open Sys2Proof

/-! ### Trunks (R412, R423) -/

/-- A trunk. -/
def State.trunk (s : State) (t : Nat) : Trunk := SMap.get Trunk.init s.trk.trunks t

/-- STATE of a trunk (R423). -/
def TrunkState.code : TrunkState → Nat
  | .disabled => 0
  | .handshake => 1
  | .up => 2
  | .probe1 => 3
  | .probe2 => 4
  | .down => 5
  | .healing => 6

/-- Whether a trunk carries media and reliable traffic: UP, or probing. -/
def TrunkState.carries : TrunkState → Bool
  | .up => true
  | .probe1 => true
  | .probe2 => true
  | _ => false

/-- The state with a trunk replaced, and its STATE, STATE_CHANGE, SRTT and CREDIT with it (R423). -/
def State.setTrunk (s : State) (n : Nat) (t : Trunk) : State :=
  let changed := t.st != (s.trunk n).st
  let s := { s with trk := { s.trk with trunks := SMap.set Trunk.init s.trk.trunks n t } }
  let s := if changed then (s.put (R.TRK_Tt_STAT_STATE n) t.st.code).putBit (R.TRK_Tt_STAT_STATE_CHANGE n) true else s
  let s := s.put (R.TRK_Tt_SRTT_MICROSECONDS n) (min (2 ^ 24 - 1) ((t.rtt.map Prod.fst).getD 0))
  s.put (R.TRK_Tt_CREDIT_BYTES n) (min (2 ^ 32 - 1) (t.limit - t.txOctets))

/-- The peer's module index. -/
def State.peerOf (s : State) (t : Nat) : Nat := s.get (R.TRK_Tt_CTRL_PEER t)

/-- The trunk to a module that is enabled, if there is one. -/
def State.trunkTo (s : State) (m : Nat) : Option Nat :=
  (List.range 256).find? fun t => s.isSet (R.TRK_Tt_CTRL_EN t) && s.peerOf t == m

/-- Post a trunk event (R421). The EPOCH of an event that concerns no conference is not given: free octets. -/
def State.trunkEvent (s : State) (type st what : Nat) (epoch : Option Nat) : State :=
  let e := match epoch with | some n => leBytes 4 n | none => s.freeBytes 4
  s.spent.postEvent (s.get R.TRK_EVT_QUEUE_QUEUE) R.C_TRK_EVT_DROP
    ([BitVec.ofNat 8 type, BitVec.ofNat 8 st] ++ leBytes 2 what ++ e ++ leBytes 8 s.time64)

/-! ### Arrival (R393 to R395, R401) -/

/-- Whether a Hokuvon frame passes the checks of R394 and R395 for a trunk. -/
def State.trunkFrameOk (s : State) (t : Nat) (f : List Byte) : Bool :=
  let b0 := (f.headD 0).toNat
  let fl := (f.getD 1 0).toNat
  20 ≤ f.length && b0 / 16 % 4 == 0 && fl < 8 && be f 6 2 == 0 && be f 3 1 == s.get R.TRK_MODULE_INDEX &&
    be f 2 1 == s.peerOf t && be f 4 2 == f.length - 20 && 1 ≤ b0 % 16 && b0 % 16 ≤ 11

/-- TYPE of a Hokuvon frame. -/
def trunkType (f : List Byte) : Nat := (f.headD 0).toNat % 16

/-- The low bit of the receive generation recorded for a KEY_PHASE (R401). -/
def Trunk.genOf (t : Trunk) (phase : Nat) : Option Nat := SMap.get none t.gens phase

/-- A frame that the relay hands to the trunk unit (R68, R393): the trunk is the low octet of the FCT entry's LEG. One that fails its
checks is dropped; an encrypted one starts its decryption with the generation of its KEY_PHASE. -/
def State.trunkArrive (s : State) (p : RxPacket) : State :=
  let t := leVal (slice p.entry 0x30 0x31)
  let f := slice p.frame p.pay (p.pay + p.payLen)
  let k := s.trunk t
  if !s.isSet R.TRK_CTRL_ENABLE || k.st == .disabled then s.releaseBy 3 p.cell
  else if !s.trunkFrameOk t f then (s.count (R.C_TRK_Tt_BAD_FRAME t)).releaseBy 3 p.cell
  else
    let hold := fun (s : State) op => { s with trk := { s.trk with frames := s.trk.frames ++ [({ p with op := op }, t)] } }
    let s := s.setTrunk t { k with pool := s.poolOf p.cell }
    if trunkType f = 8 || trunkType f = 9 then hold s 0
    else
      match k.genOf ((f.getD 1 0).toNat % 2) with
      | none => (s.count (R.C_TRK_Tt_AUTH_DROP t)).releaseBy 3 p.cell
      | some g =>
        let op := s.cpx.nextId
        (hold s op).submit { user := .held, cls := 1, kind := .trunk, enc := false, genSel := g, xts4k := false,
                             slot := s.get (R.TRK_Tt_SLOTS_RECV t), ctx := 0, input := some f, src := 0, dst := 0, len := f.length,
                             hdrLen := 20, ivCtr := be f 12 8 }

/-! ### The window of counters (R374, R402) -/

/-- A window that has seen nothing. -/
def CounterWindow.init : CounterWindow := ⟨none, []⟩

/-- Whether a counter is more than 127 below the highest seen, or already seen. -/
def CounterWindow.refuses (w : CounterWindow) (c : Nat) : Bool :=
  match w.top with
  | none => false
  | some m => c + 127 < m || w.seen.contains c

/-- The window with a counter taken. -/
def CounterWindow.take (w : CounterWindow) (c : Nat) : CounterWindow :=
  let m := max c (w.top.getD 0)
  ⟨some m, c :: w.seen.filter fun x => m ≤ x + 127⟩

/-- A frame in hand: the trunk, its FLAGS and body, and its packet. -/
structure TrunkFrame where
  trunk : Nat
  flags : Nat
  body  : List Byte
  pkt   : RxPacket
  deriving DecidableEq, Repr

/-- Take a frame of a type from the trunk unit once its decryption is done (R401, R402): one that fails authentication, or whose
counter the window refuses, is dropped. -/
def State.takeFrame (s : State) (id ty : Nat) : State × Option TrunkFrame :=
  match s.trk.frames.find? fun x => x.1.id == id with
  | none => (s, none)
  | some (p, t) =>
    let f := slice p.frame p.pay (p.pay + p.payLen)
    let gone := fun (s : State) => { s with trk := { s.trk with frames := s.trk.frames.filter fun x => x.1.id != id } }
    if trunkType f != ty then (s, none)
    else if p.op = 0 then
      (((gone s).count (R.C_TRK_Tt_RX_FRAMES t)).releaseBy 3 p.cell, some ⟨t, (f.getD 1 0).toNat, f.drop 20, p⟩)
    else
      match SMap.get none s.cpx.results p.op with
      | none => (s, none)
      | some res =>
        let s := gone { s with cpx := { s.cpx with results := SMap.set none s.cpx.results p.op none } }
        let s := s.releaseBy 3 p.cell
        let phase := (f.getD 1 0).toNat % 2
        let w := SMap.get CounterWindow.init (s.trunk t).windows phase
        if !St.success res.status then (s.count (R.C_TRK_Tt_AUTH_DROP t), none)
        else if w.refuses (be f 12 8) then (s.count (R.C_TRK_Tt_REPLAY_DROP t), none)
        else
          let k := s.trunk t
          let s := s.setTrunk t { k with windows := SMap.set CounterWindow.init k.windows phase (w.take (be f 12 8)) }
          (s.count (R.C_TRK_Tt_RX_FRAMES t), some ⟨t, (f.getD 1 0).toNat, res.out.drop 20, p⟩)

/-! ### Sending (R395, R403 to R405) -/

/-- Send a frame of the trunk unit's own on an enabled trunk; MEDIA, AUDIO and CONTROL only while it is UP or probing (R412, R414). -/
def State.trunkOut (s : State) (t ty flags : Nat) (body : List Byte) (cls : Nat) : State :=
  let k := s.trunk t
  if k.st == .disabled || !s.isSet R.TRK_CTRL_ENABLE then s
  else if (ty ≤ 2 || ty = 11) && !k.st.carries then s
  else s.trunkSend t ty flags body cls s.cycle 8

/-- The retransmission timer of a trunk in microseconds (R404, R570). -/
def State.rtoOf (s : State) (t : Nat) : Nat :=
  match (s.trunk t).rtt with
  | none => 1000000
  | some (srtt, var) => max (s.get R.TRK_RTO_MIN_MS * 1000) (srtt + 4 * var)

/-- A body of the send window goes out, with SYN in the first frame of a series (R403). -/
def State.transmit (s : State) (t : Nat) (b : SentBody) : State :=
  s.trunkOut t 3 (if b.seq = 0 && (s.trunk t).synDue then 4 else 0) (natToOs 4 b.seq ++ b.body) 4

/-- Send the bodies that wait, in order, as far as the credit reaches (R405). -/
def State.pump (s : State) (t : Nat) : List SentBody → State
  | [] => s
  | b :: rest =>
    let k := s.trunk t
    if b.sent then s.pump t rest
    else if k.limit < k.txOctets + b.body.length then s
    else
      let b' := { b with sent := true, at_ := s.cycle, rto := s.rtoOf t }
      let s := s.setTrunk t { k with txOctets := k.txOctets + b.body.length, tx := k.tx.map fun x => if x.seq = b.seq then b' else x }
      (s.transmit t b').pump t rest

/-- A RELIABLE body enters the send window (R403 to R405): refused on a trunk that carries none, and counted when it waits for
credit. -/
def State.sendReliable (s : State) (t : Nat) (body : List Byte) : State × Nat :=
  let k := s.trunk t
  if !k.st.carries || s.get (R.TRK_Tt_WIN_WIN_MIB t) = 0 then (s, St.trunkDown)
  else
    let s := s.setTrunk t { k with txNext := (k.txNext + 1) % 2 ^ 32, tx := k.tx ++ [⟨k.txNext, body, false, 0, 0, 0⟩] }
    let s := s.pump t (s.trunk t).tx
    let waits := (s.trunk t).tx.any fun x => x.seq == k.txNext && !x.sent
    (if waits then s.count (R.C_TRK_Tt_CREDIT_STALLS t) else s, St.ok)

/-- A firmware message (R408): KIND, CONF, EPOCH, then content whose layout the spec does not give: free octets. -/
def State.message (s : State) (kind conf epoch : Nat) : List Byte :=
  natToOs 1 kind ++ natToOs 2 conf ++ natToOs 4 epoch ++ s.freeBytes (s.free 1024)

/-- The EPOCH of a conference (R409). -/
def State.epochOf (s : State) (conf : Nat) : Nat := s.obj 0x820003 conf 0

/-- Firmware sends a RELIABLE message, what it says being shown to an observer. -/
def State.tell (s : State) (t kind conf : Nat) (what : List Nat) : State × Nat :=
  let r := s.spent.sendReliable t (s.message kind conf (s.epochOf conf))
  (if r.2 = St.ok then r.1.emit (.trunk t 3 ([kind, conf, s.epochOf conf] ++ what)) else r.1, r.2)

/-- Firmware sends a CONTROL message. -/
def State.tellControl (s : State) (t kind conf : Nat) (what : List Nat) : State :=
  if !(s.trunk t).st.carries then s
  else
    (s.spent.trunkOut t 11 0 (s.message kind conf (s.epochOf conf)) 0).emit (.trunk t 11 ([kind, conf, s.epochOf conf] ++ what))

/-- What a module holds of a conference's cascade. -/
def State.cascade (s : State) (conf : Nat) : Cascade := SMap.get Cascade.init s.trk.confs conf

/-- The state with a conference's cascade replaced. -/
def State.setCascade (s : State) (conf : Nat) (c : Cascade) : State :=
  { s with trk := { s.trk with confs := SMap.set Cascade.init s.trk.confs conf c } }

/-- CONF_ROLE (R409): 0 NONE, 1 ANCHOR, 2 MEMBER, 3 ISLAND. -/
def State.roleOf (s : State) (conf : Nat) : Nat := s.obj 0x820001 conf 0

/-- The anchor's module index (R424). -/
def State.anchorOf (s : State) (conf : Nat) : Nat := s.obj 0x820002 conf 0

end Sys2Proof.Machine
end

