-- ==== Sys2Proof/Machine/Relay.lean ====
section
/-! DEFINITION. The relay's parse path, Flow Classification Table lookup, stream and layer handling, decryption hand-over
and replication (spec/02_media_ports_relay.md, R59 to R71, R76 to R96; R37 to R42 of spec/01_architecture.md). -/

namespace Sys2Proof.Machine

open Sys2Proof

/-! ### Tables in HBM -/

/-- The device address of the FCT (R67). -/
def State.fctBase (s : State) : Nat := s.pair R.RLY_FCT_BASE_LO_ADDR R.RLY_FCT_BASE_HI_ADDR

/-- The stream table's entry of a stream (R78). -/
def State.streamAddr (s : State) (n : Nat) : Nat := s.pair R.RLY_STREAM_BASE_LO_ADDR R.RLY_STREAM_BASE_HI_ADDR + n * 128

/-- The receiver state entry of an index (R87). -/
def State.rstateAddr (s : State) (n : Nat) : Nat := s.pair R.RLY_RSTATE_BASE_LO_ADDR R.RLY_RSTATE_BASE_HI_ADDR + n * 16

/-- The leg header templates (R89). -/
def State.legHdrBase (s : State) : Nat := s.pair R.RLY_HDR_BASE_LO_ADDR R.RLY_HDR_BASE_HI_ADDR

/-- The lookup key of an FCT entry: octets 0x00 to 0x2F with VALID and AGE_EN masked (R67). -/
def fctKey (e : List Byte) : List Byte := (e.headD 0 &&& 0xFC) :: slice e 1 48

/-- Hash H0 of a key (R69). -/
def hash0 (key : List Byte) : Nat := crc32c 0xFFFFFFFF key

/-- Hash H1 of a key (R69). -/
def State.hash1 (s : State) (key : List Byte) : Nat := crc32c (s.get R.RLY_HASH_SEED_SEED) key

/-- The candidate places of a key: which hash, the way, and the entry number (R69). -/
def State.places (s : State) (key : List Byte) : List (Nat × Nat × Nat) :=
  let b0 := hash0 key % 2 ^ 22
  let b1 := s.hash1 key % 2 ^ 22
  let of (h b : Nat) := (List.range 4).map fun w => (h, w, b * 4 + w)
  if b0 = b1 then of 0 b0 else of 0 b0 ++ of 1 b1

/-- The octets of an FCT entry. -/
def State.fctEntry (s : State) (e : Nat) : List Byte := s.bytes (s.fctBase + e * 64) 64

/-- Where the valid entry of a key lies. -/
def State.fctFind (s : State) (key : List Byte) : Option (Nat × Nat × Nat) :=
  (s.places key).find? fun p =>
    let e := s.fctEntry p.2.2
    (e.headD 0).toNat.testBit 0 && fctKey e == key

/-- The first free place of a key (R69). -/
def State.fctFree (s : State) (key : List Byte) : Option (Nat × Nat × Nat) :=
  (s.places key).find? fun p => !((s.fctEntry p.2.2).headD 0).toNat.testBit 0

/-- RLY_AGE_CLOCK as two octets. -/
def State.ageOctets (s : State) : List Byte := leBytes 2 (s.get R.RLY_AGE_CLOCK_SECONDS)

/-! ### The cache (R70) -/

/-- The cache set of a key. -/
def cacheSet (key : List Byte) : Nat := hash0 key % 32768

/-- A cache set. -/
def State.cacheSetOf (s : State) (n : Nat) : CacheSet := SMap.get CacheSet.empty s.rly.cache n

/-- The way of a set that holds a key, and its entry. -/
def CacheSet.find (c : CacheSet) (key : List Byte) : Option (Nat × CacheWay) :=
  c.ways.findSome? fun (e : Nat × Option CacheWay) => match e.2 with
    | some w => if w.key == key then some (e.1, w) else none
    | none => none

/-- The cached entry of a key. -/
def State.cached (s : State) (key : List Byte) : Option CacheWay := ((s.cacheSetOf (cacheSet key)).find key).map Prod.snd

/-- The state with a cache set replaced. -/
def State.setCache (s : State) (n : Nat) (c : CacheSet) : State :=
  s.withRly fun r => { r with cache := SMap.set CacheSet.empty r.cache n c }

/-- Bit `i` of the tree, as a number. -/
def CacheSet.node (c : CacheSet) (i : Nat) : Nat := bnat (c.tree.testBit i)

/-- The way that pseudo-LRU gives up: the tree's bits lead to it from the root, bit 1 (log entry 101). -/
def CacheSet.victim (c : CacheSet) : Nat :=
  let a := c.node 1
  let b := c.node (2 + a)
  4 * a + 2 * b + c.node (4 + 2 * a + b)

/-- A way was used: the bits on its path turn away from it. -/
def CacheSet.used (c : CacheSet) (w : Nat) : CacheSet :=
  let turn := fun (t i b : Nat) => if b = 0 then setBit t i else clearBit t i
  { c with tree := turn (turn (turn c.tree 1 (w / 4 % 2)) (2 + w / 4 % 2) (w / 2 % 2)) (4 + w / 2 % 4) (w % 2) }

/-- The lowest way that holds nothing. -/
def CacheSet.freeWay (c : CacheSet) : Option Nat := (List.range 8).find? fun w => (SMap.get none c.ways w).isNone

/-- Fill the cache with an entry: into a free way, or the one that pseudo-LRU gives up (R70). -/
def State.fillCache (s : State) (w : CacheWay) : State :=
  let n := cacheSet w.key
  let c := s.cacheSetOf n
  let way := match c.find w.key with
    | some e => e.1
    | none => c.freeWay.getD c.victim
  s.setCache n ({ c with ways := SMap.set none c.ways way (some w) }.used way)

/-- A hit is a use of its way (R70). -/
def State.useCache (s : State) (key : List Byte) : State :=
  let n := cacheSet key
  match (s.cacheSetOf n).find key with
  | some e => s.setCache n ((s.cacheSetOf n).used e.1)
  | none => s

/-- Change the cached copy of a key, where there is one (R71). -/
def State.updateCache (s : State) (key data : List Byte) : State :=
  let n := cacheSet key
  let c := s.cacheSetOf n
  match c.find key with
  | some e => s.setCache n { c with ways := SMap.set none c.ways e.1 (some { e.2 with data := data }) }
  | none => s

/-- Drop the cached copy of a key (R71). -/
def State.dropCache (s : State) (key : List Byte) : State :=
  let n := cacheSet key
  let c := s.cacheSetOf n
  match c.find key with
  | some e => s.setCache n { c with ways := SMap.set none c.ways e.1 none }
  | none => s

/-! ### Exception queues (R93 to R95) -/

/-- Tokens of the exception bucket are counted in units of 1 / (100 × 1.5 × 10^9) of a packet. -/
def excUnit : Nat := 100 * 1500000000

/-- Take a token of the exception bucket: its depth is RLY_EXC_RATE / 100 packets (R95). Choices of the model, log entry 102: it is full at
reset; the time since the last packet is credited at the present rate, and a full bucket is full at the present depth; a depth below one packet
never holds a token. -/
def State.excToken (s : State) : State × Bool :=
  let rate := s.get R.RLY_EXC_RATE_PPS
  let spent := s.rly.excSpent - (s.cycle - s.rly.excAt) * rate * 100
  if spent + excUnit ≤ rate * 1500000000 then
    (s.withRly fun r => { r with excSpent := spent + excUnit, excAt := s.cycle }, true)
  else (s.withRly fun r => { r with excSpent := spent, excAt := s.cycle }, false)

/-- The 16-octet exception descriptor (R93). -/
def excEntry (len reason port ts : Nat) (tail : List Byte) : List Byte :=
  leBytes 2 len ++ leBytes 1 reason ++ leBytes 1 (port % 8) ++ leBytes 4 ts ++ tail

/-- Post an event to control core 0's queue (R93, R94). -/
def State.excEvent (s : State) (reason : Nat) (tail : List Byte) : State :=
  let r := s.post 0 0 (excEntry 0 reason 0 s.descTs tail)
  if r.2 then r.1 else r.1.count R.C_RLY_EXC_DROP

/-- Post a packet to the exception queue of its leg's control core, or of its hash's (R94, R95). -/
def State.excPacket (s : State) (p : RxPacket) (reason : Nat) (leg : Option Nat) : State :=
  let t := s.excToken
  if !t.2 then (t.1.count R.C_RLY_EXC_DROP).release p.cell
  else
    let r := t.1.post ((leg.getD p.h0) % 16) 0 (excEntry p.frame.length reason p.port (p.ts % 2 ^ 32) (leBytes 8 p.cell))
    if r.2 then r.1 else (r.1.count R.C_RLY_EXC_DROP).release p.cell

/-! ### Packets in the relay -/

/-- The state with a packet replaced. -/
def State.setPacket (s : State) (p : RxPacket) : State :=
  s.withRly fun r => { r with packets := r.packets.map fun x => if x.id == p.id then p else x }

/-- The state without a packet. -/
def State.forget (s : State) (p : RxPacket) : State :=
  s.withRly fun r => { r with packets := r.packets.filter fun x => x.id != p.id }

/-- The route versions of a stream that have not retired, oldest first. -/
def State.versionsOf (s : State) (n : Nat) : List RouteVersion := SMap.get [] s.rly.versions n

/-- The state with a stream's versions replaced. -/
def State.setVersions (s : State) (n : Nat) (l : List RouteVersion) : State :=
  s.withRly fun r => { r with versions := SMap.set [] r.versions n l }

/-- One packet more, or less, in flight under a version. -/
def State.inflight (s : State) (n vid : Nat) (up : Bool) : State :=
  s.setVersions n ((s.versionsOf n).map fun v =>
    if v.vid = vid then { v with inflight := if up then v.inflight + 1 else v.inflight - 1 } else v)

/-- A packet leaves the relay: its snapshot is given back (R86). -/
def State.finishPacket (s : State) (p : RxPacket) : State :=
  match p.snap with
  | some n => (s.forget p).inflight n.stream n.vid false
  | none => s.forget p

/-! ### Changes of selections (R84) -/

/-- S, T and Q of a layer octet. -/
def layerS (l : Nat) : Nat := l / 32 % 8

/-- The temporal layer. -/
def layerT (l : Nat) : Nat := l / 4 % 8

/-- The quality layer. -/
def layerQ (l : Nat) : Nat := l % 4

/-- A SELECT takes effect on a receiver's state (R84). -/
def State.select (s : State) (r sel : Nat) (exact : Bool) : State :=
  let a := s.rstateAddr r
  let old := s.le a 1
  let fl := s.le (a + 2) 1
  let oldEx := fl.testBit 2
  let clear (s : State) := s.withRly fun x => { x with down := SMap.set false x.down r false }
  if sel = old && exact = oldEx then clear (s.setLe (a + 2) 1 (clearBit fl 1))
  else
    let raises := layerS old < layerS sel || layerT old < layerT sel || layerQ old < layerQ sel
    let down := !exact && !oldEx && !raises
    let fl := setBit (if exact then setBit fl 3 else clearBit fl 3) 1
    let s := (s.setLe (a + 1) 1 sel).setLe (a + 2) 1 fl
    s.withRly fun x => { x with down := SMap.set false x.down r down }

/-- A STATE_WRITE takes effect (R84). -/
def State.stateWrite (s : State) (r : Nat) (bytes : List Byte) : State :=
  let s := s.setBytes (s.rstateAddr r) bytes
  s.withRly fun x => { x with down := SMap.set false x.down r false }

/-- The packets whose snapshots still have a receiver state to be judged by. -/
def State.boundTo (s : State) (r : Nat) : List Nat :=
  (s.rly.packets.filter fun p => match p.snap with | some n => n.entries.any fun e => e.rstate == r | none => false).map RxPacket.id

/-- A change of a receiver's selection waits while a packet classified before it has not been judged for that receiver (R39, log entry 109). -/
def State.selectWaits (s : State) (c : SelectChange) : Bool := (s.boundTo c.rstate).any c.after.contains

/-- A change of a receiver's selection takes effect. -/
def State.applySelect (s : State) (c : SelectChange) : State :=
  match c.bytes with
  | some b => s.stateWrite c.rstate b
  | none => s.select c.rstate c.sel c.exact

/-- The changes of selections that wait for no packet any more take effect, in the order of their commands. -/
def State.settleSelects (s : State) : State :=
  let cs := s.rly.selects
  let t := s.withRly fun x => { x with selects := cs.filter s.selectWaits }
  (cs.filter fun c => !s.selectWaits c).foldl State.applySelect t

/-- A packet is dropped: its snapshot is given back and its cell freed. -/
def State.dropPacket (s : State) (p : RxPacket) : State := ((s.finishPacket p).release p.cell).settleSelects

/-- Give a packet a cell of its class, holding its octets (R105); false when the pool refuses it. -/
def State.packetCell (s : State) (p : RxPacket) (cls : AllocClass) : State × RxPacket × Bool :=
  match s.allocCell (.fixed 0) 0 p.len cls true true with
  | (t, .cell ptr) => (t.setBytes ptr p.frame, { p with cell := ptr }, true)
  | (t, _) => (t, p, false)

/-- A packet bound for an exception queue gets its cell and plan, or is dropped (R105). -/
def State.planException (s : State) (p : RxPacket) (reason : Nat) (leg : Option Nat) : State :=
  let r := s.packetCell p .control
  r.1.setPacket { r.2.1 with plan := if r.2.2 then .exception reason leg else .discard }

/-! ### RTP header extensions (R66) -/

/-- The length of an RTP header with its CSRCs and extension. -/
def rtpHdrLen (p : List Byte) : Nat :=
  let h := 12 + 4 * ((p.headD 0).toNat % 16)
  if (p.headD 0).toNat.testBit 4 && h + 4 ≤ p.length then h + 4 + 4 * be p (h + 2) 2 else h

/-- The extension elements of RFC 8285: identifier, place, length; `two` is the two-byte form. -/
def extElements (two : Bool) (p : List Byte) (stop : Nat) : Nat → Nat → List (Nat × Nat × Nat)
  | 0, _ => []
  | fuel + 1, i =>
    if stop ≤ i then []
    else
      let b := (p.getD i 0).toNat
      if b = 0 then extElements two p stop fuel (i + 1)
      else if two then
        let n := (p.getD (i + 1) 0).toNat
        if stop < i + 2 + n then [] else (b, i + 2, n) :: extElements two p stop fuel (i + 2 + n)
      else if b / 16 = 15 then []
      else
        let n := b % 16 + 1
        if stop < i + 1 + n then [] else (b / 16, i + 1, n) :: extElements two p stop fuel (i + 1 + n)

/-- The header extension with an identifier, if it ends within the frame's first 512 octets (R66); `at_` is where the RTP
packet begins in the frame. -/
def rtpExt (p : List Byte) (at_ id : Nat) : Option (List Byte) :=
  let h := 12 + 4 * ((p.headD 0).toNat % 16)
  let prof := be p h 2
  if id = 0 || !(p.headD 0).toNat.testBit 4 || p.length < h + 4 || (prof != 0xBEDE && prof / 16 != 0x100) then none
  else
    let stop := min p.length (h + 4 + 4 * be p (h + 2) 2)
    match (extElements (prof != 0xBEDE) p stop 512 (h + 4)).find? fun e => e.1 == id with
    | some e => if at_ + e.2.1 + e.2.2 ≤ 512 then some (slice p e.2.1 (e.2.1 + e.2.2)) else none
    | none => none

/-- Bits [i, i + n) of octets, most significant first. -/
def bitsAt (bs : List Byte) (i n : Nat) : Nat := osToNat bs / 2 ^ (8 * bs.length - i - n) % 2 ^ n

/-- The templates of a dependency structure from bit `i`: each one's layer octet (R80); none when it does not end or holds
more than 64. -/
def ddTemplates (bs : List Byte) : Nat → Nat → Nat → Nat → Option (List Byte)
  | 0, _, _, _ => none
  | fuel + 1, i, sp, tp =>
    if 8 * bs.length < i + 2 then none
    else
      let here := BitVec.ofNat 8 (min sp 7 * 32 + min tp 7 * 4)
      match bitsAt bs i 2 with
      | 0 => (ddTemplates bs fuel (i + 2) sp tp).map fun l => here :: l
      | 1 => (ddTemplates bs fuel (i + 2) sp (tp + 1)).map fun l => here :: l
      | 2 => (ddTemplates bs fuel (i + 2) (sp + 1) 0).map fun l => here :: l
      | _ => some [here]

/-- An AV1 Dependency Descriptor: start_of_frame, template identifier, whether a structure is attached, and that
structure's offset and layers where it can be read. -/
structure DepDesc where
  start : Bool
  tmpl  : Nat
  has   : Bool
  new   : Option (Nat × List Byte)
  deriving DecidableEq, Repr

/-- Read a Dependency Descriptor (R80, AV1 RTP payload format). -/
def depDesc (e : List Byte) : Option DepDesc :=
  if e.length < 3 then none
  else
    let b := (e.headD 0).toNat
    let rest := e.drop 3
    let has := (rest.headD 0).toNat.testBit 7
    let new := if !has || rest.length < 2 then none
      else (ddTemplates rest 64 16 0 0).map fun l => (bitsAt rest 5 6, l)
    some ⟨b.testBit 7, b % 64, has, new⟩

/-! ### Layers and switch points (R79, R83) -/

/-- The NAL units of an aggregation packet: each with a 2-octet length. -/
def aggregated : Nat → List Byte → List (List Byte)
  | 0, _ => []
  | fuel + 1, p =>
    if p.length < 3 then []
    else
      let n := be p 0 2
      if n = 0 then [] else slice p 2 (2 + n) :: aggregated fuel (p.drop (2 + n))

/-- What a packet's payload says of its layer: the layer octet, or that it is a later fragment; whether it is a first
fragment; and the NAL types it carries. -/
structure NalView where
  layer : Option Nat
  first : Bool
  types : List Nat
  deriving DecidableEq, Repr

/-- The layer octet of S, T, Q. -/
def layerOf (s t q : Nat) : Nat := min s 7 * 32 + min t 7 * 4 + min q 3

/-- The layer of an H.264 NAL unit of type 14 or 20 (R79). -/
def svcLayer (n : List Byte) : Nat :=
  layerOf ((n.getD 2 0).toNat / 16 % 8) ((n.getD 3 0).toNat / 32) ((n.getD 2 0).toNat % 16)

/-- An H.264 payload (R79, RFC 6184). -/
def h264View (p : List Byte) : NalView :=
  let b := (p.headD 0).toNat
  let t := b % 32
  if t = 28 && !(p.getD 1 0).toNat.testBit 7 then ⟨none, false, []⟩
  else
    let nals := if t = 24 then aggregated p.length (p.drop 1)
      else if t = 28 then [BitVec.ofNat 8 (b / 32 * 32 + (p.getD 1 0).toNat % 32) :: p.drop 2]
      else [p]
    let types := nals.map fun n => (n.headD 0).toNat % 32
    let svc := nals.find? fun n => 4 ≤ n.length && ((n.headD 0).toNat % 32 == 14 || (n.headD 0).toNat % 32 == 20)
    ⟨some ((svc.map svcLayer).getD 0), t == 28, types⟩

/-- An H.265 payload (R79, RFC 7798). -/
def h265View (p : List Byte) : NalView :=
  let b := (p.headD 0).toNat
  let t := b / 2 % 64
  let lid := b % 2 * 32 + (p.getD 1 0).toNat / 8
  let types := if t = 48 then (aggregated p.length (p.drop 2)).map fun n => (n.headD 0).toNat / 2 % 64
    else if t = 49 then (if (p.getD 2 0).toNat.testBit 7 then [(p.getD 2 0).toNat % 64] else [])
    else [t]
  ⟨some (layerOf lid ((p.getD 1 0).toNat % 8 - 1) 0), false, types⟩

/-- Fields of an FCT result. -/
def fctLeg (e : List Byte) : Nat := leVal (slice e 0x30 0x32) % 16384

/-- STREAM of an FCT result. -/
def fctStream (e : List Byte) : Nat := leVal (slice e 0x32 0x34)

/-- ACTION of an FCT result. -/
def fctAction (e : List Byte) : Nat := (e.getD 0x35 0).toNat

/-- KEY_SLOT of an FCT result. -/
def fctSlot (e : List Byte) : Nat := leVal (slice e 0x36 0x38)

/-- LAYER_MODE's mode and SW_CODEC. -/
def fctMode (e : List Byte) : Nat × Nat := ((e.getD 0x3A 0).toNat % 4, (e.getD 0x3A 0).toNat / 4 % 4)

/-- The RTP or RTCP packet of a received packet, as it arrived. -/
def RxPacket.body (p : RxPacket) : List Byte := slice p.frame p.pay (p.pay + p.payLen)

/-- Whether an entry's packets are forwarded. -/
def forwards (entry : List Byte) : Bool := fctAction entry == 1 || fctAction entry == 3

/-- The receiver entries of a route version (R85). -/
def State.routeEntries (s : State) (v : RouteVersion) : List RouteEntry :=
  (List.range (if v.ptr = 0 then 0 else s.le v.ptr 2)).map fun k =>
    let e := v.ptr + 16 + 16 * k
    ⟨s.le e 2, s.le (e + 2) 2, s.le (e + 4) 4 % 2 ^ 20, s.le (e + 8) 4, s.le (e + 12) 4⟩

/-- Judge a packet of a stream at classification: the frame start and the Dependency Descriptor (R80, R83), and take its route snapshot
(R39); version 0 stands for no route, or for an ACTION that forwards nothing. `rtp` is the packet and `at_` its place in the frame. Entries of
DD_LAYER beyond the new structure's templates keep their octets (log entry 103). -/
def State.classifyStream (s : State) (entry rtp : List Byte) (at_ : Nat) : State × RouteSnap :=
  let n := fctStream entry
  let a := s.streamAddr n
  let dd := (rtpExt rtp at_ (entry.getD 0x39 0).toNat).bind depDesc
  let flags := s.le (a + 0x0A) 1
  let start := !flags.testBit 1 || s.le (a + 0x0C) 4 != be rtp 4 4 || (dd.map DepDesc.start).getD false
  let s := match dd.bind DepDesc.new with
    | some (ofs, layers) => ((s.setBytes (a + 0x10) layers).setLe (a + 0x0B) 1 ofs).setLe (a + 0x0A) 1 (setBit flags 0)
    | none => s
  let s := (s.setLe (a + 0x0A) 1 (setBit (s.le (a + 0x0A) 1) 1)).setLe (a + 0x0C) 4 (be rtp 4 4)
  let valid := (s.le (a + 0x0A) 1).testBit 0
  let mode := fctMode entry
  let ddLayer := match dd with
    | some d => if valid then some (s.le (a + 0x10 + (d.tmpl + 64 - s.le (a + 0x0B) 1) % 64) 1) else none
    | none => none
  let layer := if mode.1 = 0 then (entry.getD 0x34 0).toNat else if mode.1 = 3 then ddLayer.getD 0 else 0
  let ddSwitch := (dd.map DepDesc.has).getD false && (mode.1 == 3 || (mode.1 == 0 && mode.2 == 2))
  let snap (vid : Nat) (es : List RouteEntry) : RouteSnap := ⟨n, vid, es, layer, start, start && ddSwitch, mode.1 == 3 && ddLayer.isNone⟩
  match if forwards entry then (s.versionsOf n).getLast? else none with
  | none => (s, snap 0 [])
  | some v => (s.inflight n v.vid true, snap v.vid (s.routeEntries v))

/-- Judge what only the decrypted payload shows: the layer of modes 1 and 2, FU_LAYER, and the switch point (R78, R79,
R83). -/
def State.judgePayload (s : State) (entry rtp : List Byte) (n : RouteSnap) : State × RouteSnap :=
  let mode := fctMode entry
  let payload := rtp.drop (rtpHdrLen rtp)
  let codec := if mode.1 = 1 then 0 else if mode.1 = 2 then 1 else if mode.1 = 0 then mode.2 else 2
  if 2 ≤ codec then (s, n)
  else
    let v := if codec = 0 then h264View payload else h265View payload
    let key := if codec = 0 then v.types.any fun t => t == 5 || t == 7
      else v.types.any fun t => (16 ≤ t && t ≤ 21) || t == 32
    let a := s.streamAddr n.stream + 0x50
    let layer := if mode.1 = 0 then n.layer else v.layer.getD (s.le a 1)
    let s := if mode.1 = 1 && v.first then s.setLe a 1 layer else s
    (s, { n with layer := layer, switchPt := n.frameStart && key })

/-! ### The parse path (R63, R64) -/

/-- What the parse path makes of a frame. -/
inductive Parsed where
  | drop (counter : Option Nat)
  | exception (reason : Nat) (key : List Byte)
  | ptp (udpOk : Bool)
  | flow (kind : Nat) (key : List Byte) (pay payLen : Nat) (udpOk : Bool)
  deriving DecidableEq, Repr

/-- An FCT key (R67, R68): port, address family, kind, UDP ports, SSRC and addresses as they are on the wire. -/
def mkKey (port kind : Nat) (v6 : Bool) (udp ssrc src dst : List Byte) : List Byte :=
  let pad (a : List Byte) := List.replicate (16 - a.length) 0 ++ a
  [BitVec.ofNat 8 (port * 32 + kind * 8 + (if v6 then 4 else 0)), 0] ++ udp ++ [0, 0] ++ ssrc ++
    [0, 0, 0, 0] ++ pad src ++ pad dst

/-- Whether a UDP datagram's checksum is correct; zero is accepted over IPv4 alone (R65). -/
def udpOk (f : List Byte) (l4 : Nat) (v6 : Bool) (src dst : List Byte) : Bool :=
  let n := be f (l4 + 4) 2
  if be f (l4 + 6) 2 = 0 then !v6
  else
    let pseudo := src ++ dst ++ if v6 then natToOs 4 n ++ [0, 0, 0, 17] else [0, 17] ++ natToOs 2 n
    8 ≤ n && l4 + n ≤ f.length && (sum16 (pseudo ++ slice f l4 (l4 + n))) % 65535 == 0

/-- The kind of a UDP payload by its first octets (R64): 0 RTP, 1 RTCP, 2 STUN, 3 DTLS. -/
def payloadKind (p : List Byte) : Option Nat :=
  match p with
  | [] => none
  | b :: _ =>
    let b := b.toNat
    if b ≤ 3 then some 2
    else if 20 ≤ b && b ≤ 63 then some 3
    else if 128 ≤ b && b ≤ 191 then
      let c := (p.getD 1 0).toNat
      if 192 ≤ c && c ≤ 223 then (if 8 ≤ p.length then some 1 else none)
      else if 12 ≤ p.length then some 0 else none
    else none

/-- Steps 5 to 7 of R63, from the UDP header at `l4`. -/
def parseUdp (port : Nat) (f : List Byte) (l4 : Nat) (v6 : Bool) (src dst : List Byte) : Parsed :=
  let ok := udpOk f l4 v6 src dst
  let dport := be f (l4 + 2) 2
  if f.length < l4 + 8 then .drop none
  else if dport = 319 || dport = 320 then .ptp ok
  else
    let n := min (be f (l4 + 4) 2) (f.length - l4) - 8
    let p := slice f (l4 + 8) (l4 + 8 + n)
    match payloadKind p with
    | none => .drop (some R.C_RLY_MISS_NOMATCH)
    | some k =>
      let ssrc := if k = 0 then slice p 8 12 else if k = 1 then slice p 4 8 else [0, 0, 0, 0]
      .flow k (mkKey port k v6 (slice f l4 (l4 + 4)) ssrc src dst) (l4 + 8) n ok

/-- Steps 1 to 7 of R63. Choices of the model, log entry 104: a fragment whose header checksum is bad as well is judged by the checksum; a packet
that has no flow key is given the key of its port, family and addresses with zeros elsewhere, for the H0 of R94. -/
def parseFrame (port : Nat) (f : List Byte) : Parsed :=
  let tagged := be f 12 2 == 0x8100
  let l3 := if tagged then 18 else 14
  let et := be f (l3 - 2) 2
  let none_ (v6 : Bool) (src dst : List Byte) := mkKey port 0 v6 [0, 0, 0, 0] [0, 0, 0, 0] src dst
  if et = 0x0806 then .exception 6 (none_ false [] [])
  else if et = 0x88F7 then .ptp true
  else if et = 0x0800 then
    let src := slice f (l3 + 12) (l3 + 16)
    let dst := slice f (l3 + 16) (l3 + 20)
    let ihl := be f l3 1 % 16
    if f.length < l3 + 20 || be f l3 1 / 16 != 4 || ihl < 5 then .drop none
    else if 5 < ihl then .exception 4 (none_ false src dst)
    else if sum16 (slice f l3 (l3 + 20)) % 65535 != 0 then .drop (some R.C_RLY_CSUM_DROP)
    else if be f (l3 + 6) 2 % 2 ^ 14 != 0 then .drop (some R.C_RLY_FRAG_DROP)
    else if be f (l3 + 9) 1 != 17 then .exception 5 (none_ false src dst)
    else parseUdp port f (l3 + 20) false src dst
  else if et = 0x86DD then
    let src := slice f (l3 + 8) (l3 + 24)
    let dst := slice f (l3 + 24) (l3 + 40)
    if f.length < l3 + 40 then .drop none
    else if be f (l3 + 6) 1 != 17 then .exception 7 (none_ true src dst)
    else parseUdp port f (l3 + 40) true src dst
  else .drop none

/-! ### Lookup (R68, R76, R77) -/

/-- A key that matches no entry (R73, R77). An unmatched STUN or DTLS packet goes to the exception queue as a no-match: reason NO_MATCH (log entry
105). -/
def State.noMatch (s : State) (p : RxPacket) : State :=
  let s := s.count R.C_RLY_MISS_NOMATCH
  if 2 ≤ p.kind || s.isSet R.RLY_MISS_ACTION_ACTION then s.planException p 3 none
  else s.setPacket { p with plan := .discard }

/-- A packet that has its result gets a cell of its class and its plan, or is dropped (R105). -/
def State.planWith (s : State) (p : RxPacket) (cls : AllocClass) (plan : RxPlan) : State :=
  let r := s.packetCell p cls
  r.1.setPacket { r.2.1 with plan := if r.2.2 then plan else .discard }

/-- An RTP packet is classified for its stream, unless its ACTION is DROP or TRUNK (log entry 106): its snapshot and its layer (R39, R79 to
R83). -/
def State.classify (s : State) (p : RxPacket) : State × RxPacket :=
  if p.kind = 0 && 1 ≤ fctAction p.entry && fctAction p.entry ≤ 4 then
    let c := s.classifyStream p.entry p.body p.pay
    (c.1, { p with snap := some c.2 })
  else (s, p)

/-- A packet takes its FCT result: it is classified and policed, and planned by KIND and ACTION (R68, R83, R92, R142). -/
def State.matched (s : State) (p : RxPacket) (entry : List Byte) : State :=
  let act := fctAction entry
  let leg := fctLeg entry
  let c := (s.countObj64 0x401012 leg).classify { p with entry := entry }
  let p := c.2
  if 2 ≤ p.kind then if act = 0 then c.1.setPacket { p with plan := .discard } else c.1.planException p (p.kind - 1) (some leg)
  else
    let pol := c.1.police leg p.port p.len
    if act = 0 || !pol.2 then pol.1.setPacket { p with plan := .discard }
    else if p.kind = 1 || act = 4 then pol.1.planWith p .control (.decrypt (if p.kind = 1 then 9 else 8))
    else if act = 5 then pol.1.planWith p .reliable .trunk
    else pol.1.planWith p .media (.decrypt 0)

/-- A lookup's hit writes LAST_HIT in HBM and in the cached copy (R67). -/
def State.touch (s : State) (w : CacheWay) : State × List Byte :=
  let data := patch w.data 0x3C s.ageOctets
  ((s.setBytes (s.fctBase + w.entry * 64 + 0x3C) s.ageOctets).updateCache w.key data, data)

/-- The packets that wait for a key's slow lookup. -/
def State.waiters (s : State) (key : List Byte) : List RxPacket :=
  s.rly.packets.filter fun p => p.plan == .waiting && p.key == key

/-- The keys whose slow lookups run, oldest first. -/
def missKeys : List RxPacket → List (List Byte)
  | [] => []
  | p :: ps => let r := missKeys ps; if p.plan == .waiting then p.key :: r.filter fun k => k != p.key else r

/-- Look a packet up: the cache, or a miss buffer, or an immediate no-match while the FCT is not ready (R70, R73, R76). -/
def State.lookup (s : State) (p : RxPacket) : State :=
  if !s.isSet R.RLY_STATUS_FCT_READY then (s.count R.C_RLY_FCT_MISS).noMatch p
  else
    match s.cached p.key with
    | some w => let t := ((s.count R.C_RLY_FCT_HIT).useCache p.key).touch w; t.1.matched p t.2
    | none =>
      let s := s.count R.C_RLY_FCT_MISS
      let n := (s.waiters p.key).length
      if 32 ≤ n || (n = 0 && 512 ≤ (missKeys s.rly.packets).length) then
        (s.count R.C_RLY_MISS_OVF).setPacket { p with plan := .discard }
      else s.setPacket { p with plan := .waiting }

/-! ### The end of a packet (R38, R65, R92) -/

/-- The context of a flow: 1,048,576 + SCTX (R372). -/
def flowContext (entry : List Byte) : Nat := 1048576 + leVal (slice entry 0x3E 0x40)

/-- Start the ingress cipher operation of a packet (R38, R92). -/
def State.startDecrypt (s : State) (p : RxPacket) : State :=
  let rtcp := p.kind == 1
  let input := p.body
  let s := s.setPacket { p with op := s.cpx.nextId }
  s.submit { user := .held, cls := 0, kind := if rtcp then .srtcp else .srtp, enc := false, genSel := 0, xts4k := false,
             slot := fctSlot p.entry, ctx := flowContext p.entry, input := some input, src := 0, dst := 0,
             len := input.length, hdrLen := if rtcp then 8 else rtpHdrLen input, ivCtr := 0 }

/-- Hand a complete access unit on: its packets leave reassembly (R42). A change of timestamp ends it before the packet `until`. -/
def State.completeUnit (s : State) (n : Nat) (until_ : Option Nat) : State :=
  match SMap.get [] s.rly.building n with
  | [] => s
  | ps => s.withRly fun r => { r with building := SMap.set [] r.building n [], units := r.units ++ [⟨n, ps, until_⟩] }

/-- A packet joins its stream's access unit; the marker bit or a new timestamp completes one (R42). -/
def State.reassemble (s : State) (p : RxPacket) : State :=
  let n := fctStream p.entry
  let ts := be p.rtp 4 4
  let seq := be p.rtp 2 2
  let s := match SMap.get [] s.rly.building n with
    | q :: _ => if q.ts = ts then s else s.completeUnit n (some seq)
    | [] => s
  let marker := (p.rtp.getD 1 0).toNat.testBit 7
  let pkt : MediaPkt := ⟨fctLeg p.entry, seq, ts, marker, p.ts % 2 ^ 32, p.rtp.drop (rtpHdrLen p.rtp)⟩
  let s := s.withRly fun r => { r with building := SMap.set [] r.building n (SMap.get [] r.building n ++ [pkt]) }
  if marker then s.completeUnit n none else s

/-- Hand the audio level of an authenticated packet to the control firmware (R47, R66): the leg (16,384 for a stream of a trunk, whose channel
map names none), level, voice bit and stream. -/
def State.audioLevel (s : State) (p : RxPacket) : State :=
  match rtpExt p.rtp p.pay (p.entry.getD 0x38 0).toNat with
  | some (b :: _) =>
    let leg := if (p.entry.headD 0).toNat.testBit 0 then fctLeg p.entry else 16384
    s.emit (.firmware 1 [leg, b.toNat % 128, b.toNat / 128, fctStream p.entry])
  | _ => s

/-- An RTP packet in the clear: its level is handed on and its layer judged (R66, R79). -/
def State.judged (s : State) (p : RxPacket) : State × RxPacket :=
  let s := s.audioLevel p
  match p.snap with
  | none => (s, p)
  | some n => let j := s.judgePayload p.entry p.rtp n; (j.1, { p with snap := some j.2 })

/-- Whether an RTP packet is audio of a leg of the module: its egress class is that of audio (R132, log entry 116). -/
def legAudio (entry : List Byte) : Bool := (entry.headD 0).toNat.testBit 0 && (entry.getD 0x3B 0).toNat % 8 == 1

/-- Audio of a leg is decoded only while the leg holds a decode slot, for which a leg without a level extension asks (R47, R270, R272); other
media need none. -/
def State.seatAudio (s : State) (entry : List Byte) : State × Bool :=
  if !legAudio entry then (s, true)
  else
    let leg := fctLeg entry
    let s := if entry.getD 0x38 0 = 0 && !s.decodes leg then s.takeDecode leg 0 0 else s
    (s, s.decodes leg)

/-- A media packet in the clear: it is reassembled for processing, and waits for replication where a route forwards it (R38, R42, R81). -/
def State.media (s : State) (p : RxPacket) : State :=
  let act := fctAction p.entry
  let s := if act = 2 || act = 3 then
      let a := s.seatAudio p.entry
      if a.2 then a.1.reassemble p else a.1
    else s
  let j := s.judged p
  match j.2.snap with
  | none => j.1.dropPacket j.2
  | some n =>
    let s := if n.unresolved && forwards p.entry then j.1.count R.C_RLY_DD_UNKNOWN else j.1
    if n.vid = 0 then s.dropPacket j.2 else s.setPacket { j.2 with plan := .media }

/-- A packet whose last bit is in and whose plan is known goes its way. -/
def State.proceed (s : State) (p : RxPacket) : State :=
  match p.plan with
  | .waiting => s.setPacket p
  | .discard => s.dropPacket p
  | .exception reason leg => (s.forget p).excPacket p reason leg
  | .ptp => (s.forget p).emit (.firmware 2 ([p.port, unsigned 64 ((p.ts : Int) + signed 16 (s.get (R.TIM_Pn_RX_LAT_NS p.port)))] ++ p.frame.map BitVec.toNat))
  | .decrypt _ => s.startDecrypt p
  | .trunk => (s.forget p).trunkArrive p
  | .media => s.media p

/-- A packet in the clear that the device itself brings to the relay takes its place last, and is classified and handled as media (R39, R42). -/
def State.enterRelay (s : State) (p : RxPacket) : State :=
  let c := (s.withRly fun r => { r with packets := r.packets ++ [p] }).classify p
  let t := c.1.planWith c.2 .media .media
  match t.rly.packets.find? fun x => x.id == p.id with
  | some q => t.proceed q
  | none => t

/-- The frame that RX_FRAME brings: a port in LOOPBACK receives what it has sent, oldest first (R98). -/
def State.arrives (s : State) (n : Nat) (frame : List Byte) : Option (List Byte) :=
  if s.isSet (R.RLY_PnCTL_LOOPBACK n) then (SMap.get [] s.rly.looped n).head? else some frame

/-- The looped frame at the front of a port's queue has arrived. -/
def State.unloop (s : State) (n : Nat) : State :=
  if s.isSet (R.RLY_PnCTL_LOOPBACK n) then s.withRly fun r => { r with looped := SMap.set [] r.looped n (SMap.get [] r.looped n).tail } else s

/-- A frame that a port takes in, by R59 to R64. A frame that passes the filters counts in RX_FRAMES and RX_BYTES as it starts, whatever its end
shows (log entry 107). RLY_PnMAC_HI holds address octets 0 and 1, RLY_PnMAC_LO octets 2 to 5, the lower octet in the higher bits (log entry
107). -/
def State.receive (s : State) (n : Nat) (frame : List Byte) : State :=
  let len := frame.length + 4
  let et := be frame 12 2
  let da := frame.take 6
  let mac := natToOs 2 (s.get (R.RLY_PnMAC_HI_ADDR n)) ++ natToOs 4 (s.get (R.RLY_PnMAC_LO_ADDR n))
  if len < 64 then s.count (R.C_RLY_Pn_RX_RUNT n)
  else if s.get R.RLY_MAX_FRAME_BYTES < len then s.count (R.C_RLY_Pn_RX_OVERSIZE n)
  else if et = 0x8808 then s.count (R.C_RLY_Pn_RX_PAUSE n)
  else if da != mac && da != List.replicate 6 0xFF && da.take 2 != [0x33, 0x33] then s.count (R.C_RLY_Pn_RX_FILTER_DROP n)
  else if et = 0x88A8 || (et = 0x8100 && (be frame 16 2 = 0x8100 || be frame 16 2 = 0x88A8)) then s.count (R.C_RLY_Pn_RX_VLAN_DROP n)
  else
    let s := (s.count (R.C_RLY_Pn_RX_FRAMES n)).count (R.C_RLY_Pn_RX_BYTES n) len
    let tag := (SMap.get 0 s.rly.tags n + 1) % 65536
    let p : RxPacket := ⟨s.rly.nextId, n, frame, len, s.time64, s.cycle % 2 ^ 32, s.get R.TIM_STATUS_EPOCH, tag, 0, [], 0, [], 0, 0, noCell,
      true, false, .discard, 0, [], none⟩
    let s := s.withRly fun r => { r with nextId := r.nextId + 1, tags := SMap.set 0 r.tags n tag, packets := r.packets ++ [p] }
    match parseFrame n frame with
    | .drop none => s.count (R.C_RLY_Pn_RX_FILTER_DROP n)
    | .drop (some c) => s.count c
    | .ptp ok => s.setPacket { p with plan := .ptp, udpOk := ok }
    | .exception reason key => s.planException { p with h0 := hash0 key } reason none
    | .flow kind key pay payLen ok => s.lookup { p with kind := kind, key := key, h0 := hash0 key, pay := pay, payLen := payLen, udpOk := ok }

/-- RX_FRAME (R59 to R64, R76): a frame, without its FCS, arrives on a port that runs. Its stamps and tag are taken, and
it is filtered, parsed and looked up. -/
def execRxFrame (port : Fin 8) (frame : List Byte) (s : State) : Result :=
  let n := port.val
  if !s.portRuns n || !s.isSet (R.RLY_PnSTAT_LINK_UP n) || s.rly.packets.any (fun p => p.port == n && !p.ended) then .next s
  else
    match s.arrives n frame with
    | none => .next s
    | some f => .next ((s.unloop n).receive n f)

/-- The codewords of a frame that FEC corrected, and those it could not, where the port runs FEC (R98). -/
def State.countFec (s : State) (n corrected lost : Nat) : State :=
  if s.get (R.RLY_PnSTAT_FEC_ACTIVE n) ≤ 1 then s
  else (s.bump (R.RLY_PnFEC_CORR_COUNT n) corrected).bump (R.RLY_PnFEC_UNCORR_COUNT n) lost

/-- RX_FRAME_END (R65, R98): the last bit; the FCS and the UDP checksum are judged and a failing packet is rewound. -/
def execRxFrameEnd (port : Fin 8) (fin : FrameEnd) (s : State) : Result :=
  match s.rly.packets.find? fun p => p.port == port.val && !p.ended with
  | none => .next s
  | some p =>
    let s := s.countFec port fin.corrected fin.lost
    if !fin.fcsOk then .next ((s.count (R.C_RLY_Pn_RX_FCS_ERR port)).dropPacket p)
    else if !p.udpOk then .next ((s.count R.C_RLY_CSUM_DROP).dropPacket p)
    else .next (s.proceed { p with ended := true })

/-- Apply a slow lookup's result to the packets that waited for it, each in its place of arrival (R41, R76). -/
def State.resolve (s : State) (w : Option CacheWay) : List RxPacket → State
  | [] => s
  | p :: ps =>
    let t := match w with
      | some w => let r := s.touch w; r.1.matched p r.2
      | none => s.noMatch p
    let t := match t.rly.packets.find? fun x => x.id == p.id with
      | some q => if q.ended then t.proceed q else t
      | none => t
    t.resolve w ps

/-- FCT_SLOW_LOOKUP_DONE (R76): the oldest miss's buckets are read; a hit fills the cache; every packet that waits takes
the result in arrival order. -/
def execFctSlowLookupDone (s : State) : Result :=
  match missKeys s.rly.packets with
  | [] => .next s
  | key :: _ =>
    let ws := s.waiters key
    match if s.isSet R.RLY_STATUS_FCT_READY then s.fctFind key else none with
    | some (_, _, e) =>
      let w : CacheWay := ⟨key, e, s.fctEntry e⟩
      .next ((s.fillCache w).resolve (some w) ws)
    | none => .next (s.resolve none ws)

/-- INGRESS_DECRYPT_DONE (R38, R92): a packet's cipher operation has ended. A tapped packet's plaintext stands in its cell in place of what it
decrypts; LEN stays the received frame's and the octets of the tag stay behind it (log entry 108). -/
def execIngressDecryptDone (packet : Nat) (s : State) : Result :=
  match s.rly.packets.find? fun p => p.id == packet with
  | none => .next s
  | some p =>
    match p.plan, SMap.get none s.cpx.results p.op with
    | .decrypt tap, some res =>
      let s := s.dropResult p.op
      let s := if St.success res.status then s else s.setObj 0x401014 (fctLeg p.entry) 0 res.status
      if res.status = St.replay then .next ((s.count R.C_RLY_REPLAY_DROP).dropPacket p)
      else if !St.success res.status then .next ((s.count R.C_RLY_AUTH_DROP).dropPacket p)
      else
        let p := { p with rtp := res.out }
        if tap = 0 then .next (s.media p)
        else
          let j := if tap = 8 then s.judged p else (s, p)
          .next (((j.1.setBytes (p.cell + p.pay) res.out).forget p).excPacket p tap (some (fctLeg p.entry)))
    | _, _ => .next s

/-! ### Replication (R81, R82, R84, R89, R90) -/

/-- Whether a selection includes a layer (R82). -/
def includes (sel layer : Nat) (exact : Bool) : Bool :=
  layerT layer ≤ layerT sel && layerQ layer ≤ layerQ sel &&
    (if exact then layerS layer == layerS sel else layerS layer ≤ layerS sel)

/-- Sequence number a is after b (R90). -/
def seqAfter (a b : Nat) : Bool :=
  let d := (a + 65536 - b % 65536) % 65536
  1 ≤ d && d ≤ 32767

/-- Apply a receiver's pending selection where this packet is its boundary (R84). -/
def State.applyPending (s : State) (r : Nat) (n : RouteSnap) : State :=
  let a := s.rstateAddr r
  let fl := s.le (a + 2) 1
  let down := SMap.get false s.rly.down r
  let due := if down then n.frameStart
    else n.switchPt && !n.unresolved && layerS n.layer == layerS (s.le (a + 1) 1) && layerT n.layer == 0
  if fl.testBit 1 && due then
    let fl' := (if fl.testBit 3 then setBit fl 2 else clearBit fl 2)
    let s := (s.setLe a 1 (s.le (a + 1) 1)).setLe (a + 2) 1 (clearBit (clearBit fl' 1) 3)
    s.withRly fun x => { x with down := SMap.set false x.down r false }
  else s

/-- Judge a source packet for a receiver: its pending selection, then the sequence rules of R90; the number it is sent
under, if it is sent. -/
def State.judgeReceiver (s : State) (r : Nat) (n : RouteSnap) (seq : Nat) : State × Option Nat :=
  let s := s.applyPending r n
  let a := s.rstateAddr r
  let fl := s.le (a + 2) 1
  let sel := s.le a 1
  let inc := if n.unresolved then sel == 0xFF else includes sel n.layer (fl.testBit 2)
  let ofs := s.le (a + 4) 2
  let init := fl.testBit 0
  let high := if init then s.le (a + 6) 2 else (seq + 65535) % 65536
  let oseq := if init then s.le (a + 8) 2 else (seq + 65535) % 65536
  let store (s : State) (ofs high oseq : Nat) : State :=
    (((s.setLe (a + 2) 1 (setBit fl 0)).setLe (a + 4) 2 ofs).setLe (a + 6) 2 high).setLe (a + 8) 2 oseq
  let out := (seq + 65536 - ofs) % 65536
  if seqAfter seq high then
    if inc then (store s ofs seq oseq, some out) else (store s ((ofs + 1) % 65536) seq seq, none)
  else if seqAfter seq oseq then (store s ofs high oseq, if inc then some out else none)
  else ((store s ofs high oseq).count R.C_RLY_LATE_DROP, none)

/-- A source packet as a copy carries it: SSRC, timestamp and sequence number (R85, R89). -/
def rewriteRtp (rtp : List Byte) (e : RouteEntry) (seq : Nat) : List Byte :=
  patch rtp 2 (natToOs 2 seq ++ natToOs 4 ((be rtp 4 4 + e.tsOff) % 2 ^ 32) ++ natToOs 4 e.ssrcOut)

/-- Issue a copy to a leg (R89, R4): the template is checked, the headers rewritten and the encryption started. -/
def State.copyToLeg (s : State) (p : RxPacket) (e : RouteEntry) (seq : Nat) : State :=
  let leg := e.dest % 16384
  let tpl := s.template s.legHdrBase leg
  if s.legLimit ≤ leg || !s.templateOk tpl then s.count R.C_RLY_COPY_DROP
  else
    let rtp := rewriteRtp p.rtp e seq
    let frame : EFrame := ⟨leg, (p.entry.getD 0x3B 0).toNat % 8, tpl.2.2.1, 0, noCell, p.age, false, []⟩
    let s := ((s.count R.C_RLY_COPIES).countObj64 0x401013 leg).addCopy ⟨s.cpx.nextId, p.port, frame, tpl.2.2.2.take tpl.1, tpl.2.1, none⟩
    s.submit { user := .held, cls := 0, kind := .srtp, enc := true, genSel := 0, xts4k := false, slot := e.keySlot,
               ctx := e.rstate, input := some rtp, src := 0, dst := 0, len := rtp.length, hdrLen := rtpHdrLen rtp, ivCtr := 0 }

/-- Whether the conference of the leg a packet came from has lost a module: none of its media goes there (R414). -/
def State.mediaLost (s : State) (p : RxPacket) (peer : Nat) : Bool :=
  (p.entry.headD 0).toNat.testBit 0 && (s.cascade (s.confOf (fctLeg p.entry))).lost.contains peer

/-- One receiver of a packet: its copy, to a leg or a trunk (R85, R89, R396). -/
def State.copyTo (s : State) (p : RxPacket) (n : RouteSnap) (e : RouteEntry) : State :=
  let j := s.judgeReceiver e.rstate n (be p.rtp 2 2)
  match j.2 with
  | none => j.1
  | some seq =>
    if e.dest.testBit 15 then
      if !(s.trunk (e.dest % 256)).st.carries || s.mediaLost p (s.peerOf (e.dest % 256)) then j.1
      else
        (j.1.count R.C_RLY_COPIES).trunkSend (e.dest % 256) 1 0 (natToOs 2 n.stream ++ rewriteRtp p.rtp e seq)
          ((p.entry.getD 0x3B 0).toNat % 8) p.age p.port
    else j.1.copyToLeg p e seq

/-- The packet whose replication is next: the first in order that is ready, behind no earlier packet of its stream that is not, and no earlier
packet of its media port whose stream its slow lookup has yet to tell (R41, log entry 110). -/
def nextReplica : List Nat → List Nat → List RxPacket → Option RxPacket
  | _, _, [] => none
  | held, ports, p :: ps =>
    match p.snap with
    | none => nextReplica held (if p.plan == .waiting then p.port :: ports else ports) ps
    | some n =>
      if p.plan == .media && p.ended && !held.contains n.stream && !ports.contains p.port then some p
      else nextReplica (n.stream :: held) ports ps

/-- REPLICATE (R81 to R90): one copy of the next packet to the next receiver of its snapshot. -/
def execReplicate (s : State) : Result :=
  match nextReplica [] [] s.rly.packets with
  | none => .next s
  | some p =>
    match p.snap with
    | none => .next s
    | some n =>
      match n.entries with
      | [] => .next (s.dropPacket p)
      | e :: es =>
        let s := s.copyTo p n e
        let p' := { p with snap := some { n with entries := es } }
        .next (if es.isEmpty then s.dropPacket p' else (s.setPacket p').settleSelects)

/-- ROUTE_RETIRED (R86): a replaced version with nothing in flight retires and is reported. -/
def execRouteRetired (stream : Fin 65536) (s : State) : Result :=
  let vs := s.versionsOf stream
  match vs.dropLast.find? fun v => v.inflight == 0 with
  | none => .next s
  | some v =>
    let s := s.setVersions stream (vs.filter fun x => x.vid != v.vid)
    .next (s.excEvent 0x21 (leBytes 2 stream ++ leBytes 2 v.ver ++ leBytes 4 0))

/-! ### Ports (R57, R58, R96, R98) -/

/-- The FEC that a port runs before auto-negotiation resolves one (R57): 1 none, 2 BASE-R, 3 RS. -/
def State.fecChoice (s : State) (n : Nat) : Nat × Bool :=
  let f := s.get (R.RLY_PnCTL_FEC n)
  let rate := s.portRate
  if rate = 25 then (if f = 0 then 3 else f, false)
  else if rate = 10 then (if f = 0 || f = 3 then 2 else f, f == 3)
  else (3, f == 1 || f == 2)

/-- Enable a port: its FEC is chosen, and a request it cannot serve is ignored with CFG_IGNORED (R57). -/
def State.enablePort (s : State) (n : Nat) : State :=
  let c := s.fecChoice n
  let s := s.put (R.RLY_PnSTAT_FEC_ACTIVE n) c.1
  if c.2 then s.putBit R.RLY_STATUS_CFG_IGNORED true else s

/-- The ports that run choose their FEC for the present rate (R57). -/
def State.renewFec (s : State) : State :=
  (List.range 8).foldl (fun (s : State) n => if s.portNamed n && s.isSet (R.RLY_PnCTL_PORT_EN n) then s.enablePort n else s) s

/-- The frame that a port is receiving is discarded and counted (R96). -/
def State.abortRx (s : State) (n : Nat) : State :=
  match s.rly.packets.find? fun p => p.port == n && !p.ended with
  | some p => (s.count (R.C_RLY_Pn_RX_ABORT n)).dropPacket p
  | none => s

/-- Clear a port's PORT_EN (R96). -/
def State.disablePort (s : State) (n : Nat) : State := (s.abortRx n).putBit (R.RLY_PnCTL_PORT_EN n) false

/-- Clear ENABLE of RLY_CTRL (R96). -/
def State.disableRelay (s : State) : State :=
  ((List.range 8).foldl State.abortRx s).putBit R.RLY_CTRL_ENABLE false

/-- PORT_DISABLE (R96); a port name that the mode does not use ignores the write (R56). -/
def execPortDisable (who : Sender) (port : Fin 8) (s : State) : Result :=
  s.access who (R.RLY_PnCTL_PORT_EN port).addr fun s =>
  .next (s.disablePort port)

/-- RELAY_DISABLE (R96). -/
def execRelayDisable (who : Sender) (s : State) : Result :=
  s.access who R.RLY_CTRL_ENABLE.addr fun s =>
  .next s.disableRelay

/-- Whether the link of a port may come up (R58): with AN_EN the partner must offer the technology of the present mode, and with LT_EN the link
training must have ended well. A port in LOOPBACK has no partner. -/
def State.linkMay (s : State) (n : Nat) (offers : List (Fin 6)) (trained : Bool) : Bool :=
  s.portRuns n && (s.isSet (R.RLY_PnCTL_LOOPBACK n) ||
    ((!s.isSet (R.RLY_PnCTL_AN_EN n) || offers.any fun m => m.val == s.get R.RLY_PORT_MODE_MODE) &&
      (!s.isSet (R.RLY_PnCTL_LT_EN n) || trained)))

/-- LINK_CHANGE (R58, R98): the link of a port that runs comes up, or a link goes down. -/
def execLinkChange (port : Fin 8) (link : LinkReport) (s : State) : Result :=
  let f := R.RLY_PnSTAT_LINK_UP port
  if s.isSet f == link.up || (link.up && !s.linkMay port link.offers link.trained) then .next s
  else .next ((s.putBit f link.up).putBit (R.RLY_PnSTAT_LINK_CHANGE port) true)

/-- AN_COMPLETE (R57): auto-negotiation of a 25 Gb/s port with FEC auto resolves its FEC. -/
def execAnComplete (port : Fin 8) (fec : Fin 4) (s : State) : Result :=
  if s.portRuns port && s.isSet (R.RLY_PnCTL_AN_EN port) && s.portRate = 25 && s.get (R.RLY_PnCTL_FEC port) = 0 && fec.val != 0 then
    .next (s.put (R.RLY_PnSTAT_FEC_ACTIVE port) fec)
  else .next s

end Sys2Proof.Machine
end

