-- ==== Sys2Proof/Machine/Hts.lean ====
section
/-! DEFINITION. The Hardware Task Scheduler and Updraft's admission (spec/13_scheduler_updraft.md, R425 to R445, R451 to
R453). -/

namespace Sys2Proof.Machine

open Sys2Proof

/-! ### Tasks and their descriptors (R425, R427, R428) -/

/-- The slot of a TASK_ID. -/
def slotOf (id : Nat) : Nat := id % 4096

/-- The content of a slot. -/
def State.taskAt (s : State) (n : Nat) : Task := SMap.get Task.init s.hts.slots n

/-- The state with a slot replaced. -/
def State.setTask (s : State) (n : Nat) (t : Task) : State :=
  { s with hts := { s.hts with slots := SMap.set Task.init s.hts.slots n t } }

/-- The TASK_ID of the task in a slot. -/
def State.taskId (s : State) (n : Nat) : Nat := (s.taskAt n).inc * 4096 + n

/-- The task a TASK_ID names, unless it is retired (R425). -/
def State.liveTask (s : State) (id : Nat) : Option Task :=
  let t := s.taskAt (slotOf id)
  if id != 0 && t.inc == id / 4096 && t.st != .free then some t else none

/-- PRIO. -/
def Task.prio (t : Task) : Nat := (t.desc.getD 1 0).toNat % 8

/-- VISIBLE. -/
def Task.visible (t : Task) : Bool := (t.desc.getD 1 0).toNat.testBit 3

/-- EFFORT_REQ. -/
def Task.effortReq (t : Task) : Nat := (t.desc.getD 1 0).toNat / 16 % 4

/-- KERNEL. -/
def Task.kernel (t : Task) : Nat := (t.desc.getD 3 0).toNat

/-- DEADLINE. -/
def Task.deadline (t : Task) : Nat := leVal (slice t.desc 4 8)

/-- WORK. -/
def Task.work (t : Task) : Nat := leVal (slice t.desc 8 12)

/-- CQ. -/
def Task.cq (t : Task) : Nat := leVal (slice t.desc 12 14)

/-- EVENT. -/
def Task.event (t : Task) : Nat := (t.desc.getD 14 0).toNat

/-- EVENT_ARG. -/
def Task.eventArg (t : Task) : Nat := leVal (slice t.desc 16 20)

/-- The argument area. -/
def Task.args (t : Task) : List Byte := slice t.desc 0x40 0x80

/-- The consumer group of a kind (R428); 6 for FAN. -/
def kindGroup (k : Nat) : Nat :=
  if k ≤ 2 then 0 else if k ≤ 4 then 2 else if k ≤ 6 then 1 else if k = 7 then 3 else if k = 8 then 4 else if k = 9 then 5 else 6

/-- The shedding classes (R428). -/
inductive Shedding where
  | never | step | skip
  deriving DecidableEq, Repr

/-- The shedding class of a task. -/
def Task.shedding (t : Task) : Shedding :=
  if t.kind = 1 && !t.visible then .skip else if t.kind = 5 || t.kind = 6 then .step else .never

/-- Whether a descriptor may be created (R427): its fields in range, its reserved bytes 0, its kind and fields in
agreement. -/
def descOk (d : List Byte) : Bool :=
  let k := (d.headD 0).toNat
  let f := (d.getD 1 0).toNat
  let kern := (d.getD 3 0).toNat
  let cq := leVal (slice d 12 14)
  let work := leVal (slice d 8 12)
  d.length == 128 && 1 ≤ k && k ≤ 10 && k != 2 && k != 4 && f < 64 && (!f.testBit 3 || k == 1) &&
    (f / 16 % 4 == 0 || k == 5 || k == 6) && (d.getD 2 0).toNat < 16 && ((k == 8) == (kern != 0)) &&
    (cq == 0 || (784 ≤ cq && cq < 2048)) && (d.getD 14 0).toNat ≤ 2 && (d.getD 15 0) == 0 && allZero (slice d 0x18 0x40) &&
    (k != 9 || work == 1) && (k != 10 || work == 0)

/-- 32-bit time a is after b (R427: serial order). -/
def timeAfter (a b : Nat) : Bool :=
  let d := (a + 2 ^ 32 - b % 2 ^ 32) % 2 ^ 32
  1 ≤ d && d < 2 ^ 31

/-! ### The decision trace (R451) -/

/-- Write a trace entry where its reason is enabled. -/
def State.trace (s : State) (task consumer reason effort val : Nat) : State :=
  if !(s.get R.HTS_TRACE_MASK_REASONS).testBit reason then s
  else
    let wp := s.get R.HTS_TRACE_WP_ENTRY
    let a := s.pair R.HTS_TRACE_BASE_LO_ADDR R.HTS_TRACE_BASE_HI_ADDR + wp * 16
    let b := s.get R.UPD_SHED_LEVEL + effort % 4 * 16 + s.get R.UPD_STATUS_THERMAL * 64
    let s := s.setBytes a (leBytes 4 s.descTs ++ leBytes 4 task ++ leBytes 2 consumer ++ leBytes 1 reason ++ leBytes 1 b ++ leBytes 4 val)
    let s := s.put R.HTS_TRACE_WP_ENTRY (wp + 1)
    if wp = 65535 then s.putBit R.HTS_STATUS_TRACE_WRAP true else s

/-! ### Units -/

/-- CONSUMER of a unit (R435). -/
def consumer (g i : Nat) : Nat := g * 4096 + i

/-- Whether a DSP core's CORE_KMASK holds a kernel (R437). -/
def State.holdsKernel (s : State) (core k : Nat) : Bool :=
  (s.get (R.CORE_KMASK_KERNELS (core / 16) (core % 16) (k / 32))).testBit (k % 32)

/-- Whether a unit could serve a task (R428, R437). -/
def State.couldServe (s : State) (g i : Nat) (t : Task) : Bool :=
  kindGroup t.kind == g && i < groupSize g && (g != 4 || s.holdsKernel i t.kernel)

/-- The tasks in their slots, those not free. -/
def State.tasks (s : State) : List (Nat × Task) := s.hts.slots.filter fun e => e.2.st != .free

/-- Whether every consumer that could serve a task is fenced (R433). -/
def State.noConsumer (s : State) (t : Task) : Bool :=
  let us := (List.range (groupSize (kindGroup t.kind))).filter fun i => s.couldServe (kindGroup t.kind) i t
  !us.isEmpty && us.all fun i => s.unitFencedAt (kindGroup t.kind) i

/-- The ready queue of a task (R437). -/
def Task.queue (t : Task) : Nat := kindGroup t.kind * 8 + t.prio

/-- The islands that a ready task leaves have had it until now (R439). -/
def State.noteReady (s : State) (t : Task) : State :=
  let g := kindGroup t.kind
  let is := ((List.range (groupSize g)).filter fun i => s.couldServe g i t).map (unitIsland g)
  { s with hts := { s.hts with lastReady := is.foldl (fun m i => SMap.set 0 m i s.cycle) s.hts.lastReady } }

/-- A task leaves its ready queue. -/
def State.unready (s : State) (t : Task) : State :=
  if t.st = .ready then (s.drop (R.HTS_READY_TASKS t.queue)).noteReady t else s

/-! ### Completion and links (R431 to R435) -/

/-- The device address of a hold release's mark word, with one hold fewer; below 0 it is ignored and logged (R182). -/
def State.releaseHold (s : State) (who a : Nat) : State :=
  let w := s.le a 4
  if w / 256 % 16 = 0 then s.log Unit.hts 0 Sev.warn Ev.holdUnderflow a who
  else
    let w := w - 256
    s.setLe a 4 (if w % 8 = 0 && w / 256 % 16 = 0 then w - w / 8 % 4 * 8 else w)

/-- Apply hold releases. -/
def State.releaseHolds (s : State) (who : Nat) : List Nat → State
  | [] => s
  | a :: as => (s.releaseHold who a).releaseHolds who as

/-- Free a slot (R433). -/
def State.freeSlot (s : State) (n : Nat) : State :=
  let t := s.taskAt n
  (s.setTask n { Task.init with inc := t.inc }).drop R.HTS_SLOTS_USED_SLOTS

/-- Complete the task of a slot with a status, as `cons`: the entry is posted and the slot freed (R433, R435). The links
to fire are its successors. -/
def State.finishTask (s : State) (n status cons : Nat) : State :=
  let t := s.taskAt n
  let id := s.taskId n
  let late := timeAfter s.descTs t.deadline
  let s := s.unready t
  let s := s.count R.C_HTS_COMPLETED
  let s := if status = St.htsCancelled then s.count R.C_HTS_CANCELLED else if status = St.htsSkipped then s.count R.C_HTS_SKIPPED
    else if status = St.htsKernelFault then s.count R.C_HTS_KERNEL_FAULTS else s
  let s := if late then s.count R.C_HTS_LATE_DONE else s
  let s := s.trace id cons 3 t.effort 0
  let flags := t.effort % 4 + 4 * bnat t.stepped + 8 * bnat late
  let s := s.postEvent t.cq R.C_HTS_CQ_DROP
    (leBytes 4 id ++ leBytes 1 status ++ leBytes 1 flags ++ leBytes 2 cons ++ slice t.desc 0x14 0x18 ++ leBytes 4 s.descTs)
  s.freeSlot n

/-- The HTS itself as CONSUMER (R435). -/
def htsConsumer : Nat := 6 * 4096

/-- The status of a ready task that no unit can serve: HTS_NO_CONSUMER, and for a splice the fenced-unit code (R262, R433). -/
def Task.unserved (t : Task) : Nat := if t.kind = 7 then St.unitFenced else St.htsNoConsumer

/-- Take one off the counter of each task named; a task that reaches 0 becomes READY, a FAN task completes, and so does one
that no unit can serve; `fuel` bounds the links fired (R431 to R433). -/
def State.fire (s : State) : Nat → List Nat → State
  | 0, _ => s
  | _ + 1, [] => s
  | fuel + 1, id :: ids =>
    let n := slotOf id
    match s.liveTask id with
    | none => s.fire fuel ids
    | some t =>
      if t.st != .held then s.fire fuel ids
      else if 1 < t.counter then (s.setTask n { t with counter := t.counter - 1 }).fire fuel ids
      else
        let r := { t with counter := 0, st := .ready, readyAt := s.cycle }
        let s := (s.setTask n r).trace id htsConsumer 1 0 0
        let done (s : State) (st : Nat) : State :=
          (s.finishTask n st htsConsumer).fire fuel (ids ++ t.succs.map Prod.fst)
        if t.kind = 10 then done (s.setTask n { r with st := .running }) St.ok
        else
          let s := s.bump (R.HTS_READY_TASKS r.queue)
          if s.noConsumer r then done s r.unserved else s.fire fuel ids

/-- Fuel for the links that one event can fire: every slot's eight. -/
def linkFuel : Nat := 65536

/-- Complete a task and fire its links (R433, R435): those of MODE FIRST_STRIP that strip 0 has not fired yet too. -/
def State.completeTask (s : State) (n status cons : Nat) : State :=
  let t := s.taskAt n
  let left := if t.strips = 0 then t.succs else t.succs.filter fun x => !x.2
  (s.finishTask n status cons).fire linkFuel (left.map Prod.fst)

/-- The frame event of a kind fires (R432). -/
def State.fireEvent (s : State) (kind frame : Nat) : State :=
  let s := { s with hts := { s.hts with events := SMap.set none s.hts.events kind (some frame) } }
  let due := s.tasks.filter fun e => e.2.evtPending && e.2.event == kind && e.2.eventArg == frame
  let ids := due.map fun e => s.taskId e.1
  let s := due.foldl (fun s e => s.setTask e.1 { e.2 with evtPending := false }) s
  s.fire linkFuel ids

/-! ### Commands (R429 to R436) -/

/-- Vendor firmware on the control cores and the relay create tasks (R426). -/
def mayCreate : Sender → Bool
  | .control _ => true
  | .fixed 0 => true
  | _ => false

/-- The lowest free slot. -/
def State.lowestFree (s : State) : Option Nat := (List.range 4096).find? fun n => (s.taskAt n).st == .free

/-- CREATE (R430): the TASK_ID, or the refusal. -/
def State.createTask (s : State) (d : List Byte) : State × (Nat × Nat) :=
  let k := (d.headD 0).toNat
  let used := s.get R.HTS_SLOTS_USED_SLOTS
  if !descOk d then (s, (St.htsBadDesc, 0))
  else if 4096 - used < s.get R.HTS_RESV_SLOTS && k < 8 then (s.count R.C_HTS_FULL_REFUSED, (St.htsFull, 0))
  else
    match s.lowestFree with
    | none => (s.count R.C_HTS_FULL_REFUSED, (St.htsFull, 0))
    | some n =>
      let inc := ((s.taskAt n).inc + 1) % 2 ^ 20
      let inc := if inc = 0 then 1 else inc
      let t : Task := { Task.init with inc := inc, st := .held, kind := k, desc := d }
      let passed := match SMap.get none s.hts.events t.event with
        | some f => (f + 2 ^ 32 - t.eventArg) % 2 ^ 32 < 2 ^ 31
        | none => false
      let wait := t.event != 0 && !passed
      let s := s.setTask n { t with counter := if wait then 2 else 1, armed := true, evtPending := wait }
      let s := (s.bump R.HTS_SLOTS_USED_SLOTS).count R.C_HTS_CREATED
      let s := s.put R.HTS_SLOTS_MAX_SLOTS (max (s.get R.HTS_SLOTS_MAX_SLOTS) (s.get R.HTS_SLOTS_USED_SLOTS))
      (s, (St.ok, inc * 4096 + n))

/-- LINK (R431): status, and 1 for LINK_DONE. -/
def State.linkTasks (s : State) (pred succ : Nat) (first : Bool) : State × (Nat × Nat) :=
  match s.liveTask succ with
  | none => (s, (St.htsStaleId, 0))
  | some u =>
    if u.st != .held || !u.armed then (s, (St.htsStaleId, 0))
    else
      match s.liveTask pred with
      | none => (s, (St.ok, 1))
      | some p =>
        if first && 0 < p.strips then (s, (St.ok, 1))
        else if 8 ≤ p.succs.length then (s, (St.htsFanout, 0))
        else if 255 ≤ u.counter then (s, (St.htsCounterOvf, 0))
        else
          let s := s.setTask (slotOf succ) { u with counter := u.counter + 1 }
          let p := s.taskAt (slotOf pred)
          (s.setTask (slotOf pred) { p with succs := p.succs ++ [(succ, first)] }, (St.ok, 0))

/-- ARM (R432): the creation hold goes. -/
def State.armTask (s : State) (id : Nat) : State × Nat :=
  match s.liveTask id with
  | some t => if t.st = .held && t.armed then ((s.setTask (slotOf id) { t with armed := false }).fire linkFuel [id], St.ok)
              else (s, St.htsStaleId)
  | none => (s, St.htsStaleId)

/-- CREATE (R430). -/
def execCreate (who : Sender) (desc : List Byte) (s : State) : Result :=
  if !mayCreate who then .next s
  else let r := s.createTask desc; .next (r.1.emit (.done who r.2.1 [r.2.2]))

/-- ARM (R432). -/
def execArm (who : Sender) (task : Nat) (s : State) : Result :=
  if !mayCreate who then .next s else let r := s.armTask task; .next (r.1.emit (.done who r.2 []))

/-- The group and index of a unit by what the hardware stamps it with (R498). -/
def senderUnit : Sender → Option (Nat × Nat)
  | .control n => some (5, n)
  | .dsp n => some (4, n)
  | .engine n => if n < 16 then some (0, n) else if n < 32 then some (1, n - 16) else if n < 36 then some (2, n - 32)
      else if n = 36 then some (3, 0) else none
  | _ => none

/-- Whether a completion of a unit's task comes in this cycle too, which is taken before a fence of the unit (R434): what waits in the
queue falls in the present cycle. -/
def State.endsNow (s : State) (g i : Nat) : Bool :=
  s.pending.any fun c => match c with
    | .complete who _ _ _ => senderUnit who == some (g, i)
    | .decodeComplete v _ => g == 0 && v.val == i
    | .encodeComplete v _ _ => g == 1 && v.val == i
    | .composeComplete v _ _ => g == 2 && v.val == i
    | .spliceComplete _ => g == 3 && i == 0
    | _ => false

/-- Whether a running task is the sender's. -/
def runsOn (t : Task) (who : Sender) : Bool :=
  t.st == .running && (match senderUnit who with | some u => t.unit == consumer u.1 u.2 | none => false)

/-- Whether INJ_WD is armed on an engine (R196, R230, R264). -/
def State.armed (s : State) (g i : Nat) : Bool := SMap.get false s.injected (consumer g i)

/-- The engine's next picture has taken an armed INJ_WD. -/
def State.disarm (s : State) (g i : Nat) : State := { s with injected := SMap.set false s.injected (consumer g i) false }

/-- Whether layer `i` of a pass follows a task: a PIPELINED video layer with that SRC_TASK (R201, R207). -/
def CmpJob.follows (j : CmpJob) (i id : Nat) : Bool :=
  let l := j.layers.getD i []
  (l.headD 0) == 0 && ((l.getD 1 0).toNat.testBit 0) && leVal (slice l 0x28 0x2C) == id

/-- A strip-ready notice reaches the passes that follow the task (R207): the count, and the buffer of the first notice. -/
def CmpJob.notice (j : CmpJob) (id count buf : Nat) : CmpJob :=
  { j with seen := (List.range j.layers.length).foldl (fun m i =>
      if j.follows i id then SMap.insert m i (count, ((SMap.find? m i).map Prod.snd).getD buf) else m) j.seen }

/-- Every pass in progress has a task's notice. -/
def State.noticePasses (s : State) (id count buf : Nat) : State :=
  { s with cmps := s.cmps.map fun e => (e.1, e.2.map fun j => j.notice id count buf) }

/-- A STRIP of a task (R436): the count and BUF are stored, followers and passes told, and FIRST_STRIP links fired at strip 0. -/
def State.publishStrip (s : State) (id count buf : Nat) : State :=
  match s.liveTask id with
  | none => s
  | some t =>
    let s := s.setTask (slotOf id) { t with strips := count % 256, buf := buf }
    let s := (s.noticePasses id (count % 256) buf).emitAll (t.followers.map fun f => .done f St.ok [id, count % 256, buf, 0])
    if t.strips = 0 && 0 < count then s.fire linkFuel ((t.succs.filter fun x => x.2).map Prod.fst) else s

/-- STRIP (R436), from the unit that runs the task. -/
def execStrip (who : Sender) (task count buf : Nat) (s : State) : Result :=
  match s.liveTask task with
  | some t => if runsOn t who then .next (s.publishStrip task count buf) else .next s
  | none => .next s

/-- The statuses that a DSP task may complete with (R314). -/
def dspStatusOk (st : Nat) : Bool := st == 0 || st == 1 || (0x40 ≤ st && st ≤ 0x44) || (0x48 ≤ st && st ≤ 0x4F)

/-- Learn the cost of a task's class from its measured energy (R442). -/
def State.learn (s : State) (t : Task) (cls g : Nat) : State :=
  if t.work = 0 || !s.isSet R.UPD_CTRL_LEARN || s.isFenced Unit.link 1 then s
  else
    let f := s.get (R.UPD_EC_FUSED_PJ cls)
    let c := s.get (R.UPD_EC_COST_PJ cls)
    let r := t.energy * 100 / (t.work * g)
    let new : Int := (c : Int) + ((r : Int) - c) / 16
    let new := new.toNat
    let held := clampTo (f / 2) (2 * f) new
    let s := s.put (R.UPD_EC_COST_PJ cls) held
    if held = new then s else (s.putBit R.UPD_STATUS_LEARN_CLAMP true).log Unit.upd 0 Sev.note Ev.learnClamp cls held

/-- The energy factor of an effort level, in hundredths (R213). -/
def effortFactor (e : Nat) : Nat := [100, 72, 52, 38].getD e 38

/-- The rate of an effort level, in tenths of a luma sample a nanosecond (R213). -/
def effortRate (e : Nat) : Nat := [15, 20, 26, 32].getD e 32

/-- The energy class of a task: a DSP task takes its kernel's (R427, R325). -/
def State.energyClass (s : State) (t : Task) : Nat :=
  if t.kind = 8 then SMap.get 0 s.kernelClass t.kernel else (t.desc.getD 2 0).toNat % 16

/-- g of R441 for a task at an effort level. -/
def Task.factor (t : Task) (e : Nat) : Nat := if t.kind = 5 || t.kind = 6 then effortFactor e else 100

/-- A unit completes its task (R433, R435): hold releases, links, the entry. -/
def State.unitComplete (s : State) (n status : Nat) (who : Nat) (holds : List Nat) : State :=
  let t := s.taskAt n
  let status := if t.kind = 8 && !dspStatusOk status && status != St.htsKernelFault && status != St.unitFenced then St.htsKernelFault else status
  let s := s.releaseHolds who holds
  let s := s.learn t (s.energyClass t) (t.factor t.effort)
  s.completeTask n status t.unit

/-- Whether a unit may report a status (R24, R25): a listed code; the fenced-unit code where a unit is fenced; any of a DSP task, whose
others R435 replaces. -/
def State.mayReport (s : State) (t : Task) (status : Nat) : Bool :=
  t.kind == 8 || St.listed status || (status == St.unitFenced && s.get R.SQL_FENCED_UNITS_COUNT != 0)

/-- COMPLETE (R435), from the unit that runs the task; no unit sends a status that it may not report. -/
def execComplete (who : Sender) (task status : Nat) (holds : List Nat) (s : State) : Result :=
  match s.liveTask task with
  | some t => if runsOn t who && s.mayReport t status then .next (s.unitComplete (slotOf task) status (Sender.stamp who) holds) else .next s
  | none => .next s

/-! ### Admission (R440, R441, R444) -/

/-- The rate of a task's unit in tenths of a work unit a nanosecond (R441); 0 for a run time of 0. -/
def Task.rate (t : Task) (e : Nat) : Nat :=
  if t.kind ≤ 2 then 20 else if t.kind ≤ 4 then 40 else if t.kind ≤ 6 then effortRate e else if t.kind = 7 then 160
  else if t.kind = 8 then 15 else 0

/-- The charge of a task at an effort level, started now (R440, R441). -/
def State.chargeOf (s : State) (t : Task) (e : Nat) : Charge :=
  let c := s.get (R.UPD_EC_COST_PJ (s.energyClass t)) * t.factor e
  ⟨s.cycle, c * t.rate e, c * t.work * 10⟩

/-- What of a charge falls within the next `ns`, `spent` of it being past (R440). -/
def Charge.share (c : Charge) (spent ns : Nat) : Nat :=
  let left := c.total - spent
  if c.power = 0 then left else min left (c.power * ns)

/-- The nanoseconds left of the current window. -/
def State.windowLeft (s : State) : Nat := 250000 - min 250000 (s.ageNs s.upd.windowAt)

/-- Commit a charge to the current window. -/
def State.commitCharge (s : State) (v : Nat) : State :=
  let c := s.upd.commit + v
  { s with upd := { s.upd with commit := c } }.put R.UPD_COMMIT_MICROJOULES (c / 1000000000)

/-- Whether a charge fits the window (R440). -/
def State.fits (s : State) (c : Charge) : Bool := s.upd.commit + c.share 0 s.windowLeft ≤ s.upd.budget

/-- Whether a task at an effort level ends before its DEADLINE (R444). -/
def State.endsInTime (s : State) (t : Task) (e : Nat) : Bool :=
  let left := signed 32 (t.deadline + 2 ^ 32 - s.descTs % 2 ^ 32)
  ((t.work * 10 : Nat) : Int) < left * (t.rate e : Nat)

/-- The floor k0 of a STEP task, and whether no level ends in time (R444). -/
def State.effortFloor (s : State) (t : Task) : Nat × Bool :=
  match (List.range 4).find? fun e => s.endsInTime t e with
  | some e => (min 3 (max (max t.effortReq (s.get R.UPD_SHED_LEVEL)) e), false)
  | none => (3, true)

/-- What Updraft decides of a chosen task (R440, R444). -/
inductive Decision where
  | grant (effort : Nat)
  | defer
  | skip
  deriving DecidableEq, Repr

/-- Updraft's decision on a chosen task. -/
def State.judgeTask (s : State) (t : Task) : Decision :=
  if !s.isSet R.UPD_CTRL_ENABLE then .grant t.effortReq
  else
    match t.shedding with
    | .never => .grant 0
    | .skip => if s.get R.UPD_SHED_LEVEL = 4 then .skip else if s.fits (s.chargeOf t 0) then .grant 0 else .defer
    | .step =>
      let k := (s.effortFloor t).1
      match ((List.range 4).filter fun e => k ≤ e).find? fun e => s.fits (s.chargeOf t e) with
      | some e => .grant e
      | none => .defer

/-- Hand a task to a unit (R433, R437). -/
def State.giveTask (s : State) (n g i effort : Nat) : State :=
  let t := s.taskAt n
  let id := s.taskId n
  let c := s.chargeOf t effort
  let s := s.unready t
  let step := t.shedding == .step
  let late := timeAfter s.descTs t.deadline
  let stepped := step && t.effortReq < effort
  let s := if late then { s.count R.C_HTS_LATE_START with upd := { s.upd with late := true } } else s
  let s := if step && s.isSet R.UPD_CTRL_ENABLE && (s.effortFloor t).2 then s.trace id (consumer g i) 7 effort 0 else s
  let est := c.total / 1000000000
  let s := if stepped then (s.count R.C_HTS_STEPPED).trace id (consumer g i) 5 effort est else s
  let s := s.trace id (consumer g i) 2 effort est
  let s := s.commitCharge (c.share 0 s.windowLeft)
  s.setTask n { t with st := .running, unit := consumer g i, effort := effort, stepped := stepped, charge := c, energy := 0, deferred := false }

/-- Whether task `a` is chosen before task `b` of the same unit's group (R437). -/
def chosenBefore (a b : Nat × Task) : Bool :=
  if a.2.prio != b.2.prio then a.2.prio < b.2.prio
  else if a.2.deadline != b.2.deadline then timeAfter b.2.deadline a.2.deadline
  else a.2.readyAt < b.2.readyAt

/-- The first of tasks in the order of R437. -/
def firstChosen : List (Nat × Task) → Option (Nat × Task)
  | [] => none
  | a :: as => match firstChosen as with
    | none => some a
    | some b => if chosenBefore b a then some b else some a

/-- The tasks a unit may be given: ready, of its group, not deferred, and NEVER tasks alone past a deferred task of equal or
higher priority (R437, R438). -/
def State.candidates (s : State) (g i : Nat) : List (Nat × Task) :=
  let rs := s.tasks.filter fun e => e.2.st == .ready && kindGroup e.2.kind == g
  let bars := (rs.filter fun e => e.2.deferred).map fun e => e.2.prio
  rs.filter fun e => !e.2.deferred && s.couldServe g i e.2 &&
    (e.2.shedding == .never || bars.all fun p => e.2.prio < p)

/-- Choose for a unit until a task is given or none is left (R437, R438, R440); what is given is its slot. -/
def State.choose (s : State) (g i : Nat) : Nat → State × Option Nat
  | 0 => (s, none)
  | fuel + 1 =>
    match firstChosen (s.candidates g i) with
    | none => (s, none)
    | some (n, t) =>
      match s.judgeTask t with
      | .grant e => (s.giveTask n g i e, some n)
      | .skip => ((s.trace (s.taskId n) htsConsumer 6 0 0).completeTask n St.htsSkipped htsConsumer).choose g i fuel
      | .defer =>
        let s := (s.count R.C_HTS_DEFERRED).setTask n { t with deferred := true }
        let est := (s.chargeOf t (s.effortFloor t).1).total / 1000000000
        ({ s with upd := { s.upd with deferred := true } }.trace (s.taskId n) (consumer g i) 4 0 est).choose g i fuel

/-- Whether a unit has no task. -/
def State.unitIdle (s : State) (g i : Nat) : Bool :=
  !(s.hts.slots.any fun e => e.2.st == .running && e.2.unit == consumer g i)

/-- Whether a unit's ENABLE lets it take tasks (R196, R230, R264, R330); control cores have none. -/
def State.unitEnabled (s : State) (g i : Nat) : Bool :=
  if g = 0 then s.isSet (R.VDE_CTRL_ENABLE i) else if g = 1 then s.isSet (R.VEE_CTRL_ENABLE i)
  else if g = 2 then s.isSet (R.CMP_CTRL_ENABLE i) else if g = 3 then s.isSet R.TSP_CTRL_ENABLE
  else if g = 4 then s.isSet (R.DSC_CTRL_ENABLE (i / 16)) && (s.get (R.DSC_CORE_EN_EN (i / 16))).testBit (i % 16) else true

/-- Whether a unit asks for work: awake, not fenced, idle, and a DSP core in TAKE (R29, R312, R437). -/
def State.asks (s : State) (g i : Nat) : Bool :=
  !s.unitFencedAt g i && s.unitEnabled g i && s.island (unitIsland g i) == .awake && s.unitIdle g i && (g != 4 || (SMap.get DspCore.init s.dsp i).mode == .take)

/-- Whether tasks may be taken: from BRINGUP on, with memory (R569, R573). -/
def State.taskStage (s : State) : Bool := s.get R.HIF_BOOT_STAGE_STAGE == 0x50 || s.get R.HIF_BOOT_STAGE_STAGE == 0x60

/-- Whether the HTS dispatches at all (R447, R449, R453, R569, R583). -/
def State.dispatches (s : State) : Bool :=
  s.taskStage &&
  s.isSet R.HTS_CTRL_ENABLE && !s.deviceFatal && s.get R.UPD_STATUS_THERMAL != 3 && s.isSet R.UPD_STATUS_AWAKE

/-- Go through the asking units of a group, lowest number first, until one is given a task (R439). -/
def State.dispatchGroup (s : State) (g : Nat) : List Nat → State
  | [] => s
  | i :: is =>
    if !s.asks g i then s.dispatchGroup g is
    else
      match s.choose g i 4096 with
      | (t, some _) => t
      | (t, none) => t.dispatchGroup g is

/-- Complete the ready tasks of a group that no unit can serve any more (R433). -/
def State.sweep (s : State) : List (Nat × Task) → State
  | [] => s
  | (n, t) :: l =>
    (if t.st = .ready && (s.taskAt n).st = .ready && s.noConsumer t then s.completeTask n t.unserved htsConsumer else s).sweep l

/-- TASK_DISPATCH (R437 to R440, R444). -/
def execTaskDispatch (group : TaskGroup) (s : State) : Result :=
  let s := s.sweep s.tasks
  if s.dispatches then .next (s.dispatchGroup group (List.range (groupSize group))) else .next s

/-- The running task of a unit. -/
def State.runningOn (s : State) (g i : Nat) : Option (Nat × Task) :=
  List.find? (fun (e : Nat × Task) => e.2.st == .running && e.2.unit == consumer g i) s.hts.slots

/-- Put a task back in its ready queue, with its kind (R428, R433). -/
def State.requeue (s : State) (n kind : Nat) : State :=
  let t := s.taskAt n
  let r := { t with st := .ready, kind := kind, again := true, readyAt := s.cycle, deferred := false }
  let s := ((s.setTask n r).count R.C_HTS_REDISPATCH).trace (s.taskId n) htsConsumer 9 0 0
  let s := s.bump (R.HTS_READY_TASKS r.queue)
  if s.noConsumer r then s.completeTask n (if kind = 8 || kind = 9 then r.unserved else St.unitFenced) htsConsumer else s

/-- What becomes of the task of a unit that has been fenced (R428). -/
def State.loseUnit (s : State) (g i : Nat) : State :=
  match s.runningOn g i with
  | none => s
  | some (n, t) =>
    if t.kind = 1 then s.requeue n 2
    else if t.kind = 3 then s.requeue n 4
    else if (t.kind = 8 || t.kind = 9) && !t.again then s.requeue n t.kind
    else s.completeTask n St.unitFenced t.unit

/-- SLOTS_MAX_WRITE (R453). -/
def execSlotsMaxWrite (who : Sender) (s : State) : Result :=
  s.access who R.HTS_SLOTS_MAX_SLOTS.addr fun s =>
  .next (s.put R.HTS_SLOTS_MAX_SLOTS (s.get R.HTS_SLOTS_USED_SLOTS))

end Sys2Proof.Machine
end

