-- ==== Sys2Proof/Machine/Pictures.lean ====
section
/-! DEFINITION. Pictures in memory (R177 to R179): planes, samples, strips and the reduced outputs. -/

namespace Sys2Proof.Machine

open Sys2Proof

/-- The first samples of a picture buffer's planes and their strides (R177). -/
structure Layout where
  base    : Nat
  stride  : Nat
  rows    : Nat
  bit10   : Bool
  half    : Bool
  quarter : Bool
  deriving DecidableEq, Repr

/-- `n` rounded up to a multiple of 16. -/
def up16 (n : Nat) : Nat := (n + 15) / 16 * 16

/-- Bytes of a full picture: luma and chroma planes. -/
def Layout.fullSize (l : Layout) : Nat := l.stride * l.rows + l.stride * l.rows / 2

/-- Bytes of the half output. -/
def Layout.halfSize (l : Layout) : Nat :=
  if l.half then l.stride / 2 * (l.rows / 2) + l.stride / 2 * (l.rows / 4) else 0

/-- Bytes of the quarter output. -/
def Layout.quarterSize (l : Layout) : Nat :=
  if l.quarter then l.stride / 4 * (l.rows / 4) + l.stride / 4 * (l.rows / 8) else 0

/-- The slot size that a picture of width `w` needs, with its motion data (R177). -/
def Layout.slotSize (l : Layout) (w : Nat) : Nat :=
  let n := l.fullSize + l.halfSize + l.quarterSize + (w + 15) / 16 * (l.rows / 16) * 16
  (n + 4095) / 4096 * 4096

/-- A plane in memory: its first sample, its stride, its size in samples of `comps` components each. -/
structure Plane where
  addr   : Nat
  stride : Nat
  width  : Nat
  height : Nat
  bit10  : Bool
  comps  : Nat
  deriving DecidableEq, Repr

/-- Bytes of a sample. -/
def sampleBytes (bit10 : Bool) : Nat := if bit10 then 2 else 1

/-- The luma plane of a picture of a coded size; `red` is 0 full, 1 half, 2 quarter. -/
def Layout.luma (l : Layout) (w h red : Nat) : Plane :=
  if red = 0 then ⟨l.base, l.stride, w, h, l.bit10, 1⟩
  else if red = 1 then ⟨l.base + l.fullSize, l.stride / 2, ceilDiv w 2, ceilDiv h 2, l.bit10, 1⟩
  else ⟨l.base + l.fullSize + l.halfSize, l.stride / 4, ceilDiv w 4, ceilDiv h 4, l.bit10, 1⟩

/-- The chroma plane that goes with it. -/
def Layout.chroma (l : Layout) (w h red : Nat) : Plane :=
  let cw := ceilDiv w 2
  let ch := ceilDiv h 2
  if red = 0 then ⟨l.base + l.stride * l.rows, l.stride, cw, ch, l.bit10, 2⟩
  else if red = 1 then
    ⟨l.base + l.fullSize + l.stride / 2 * (l.rows / 2), l.stride / 2, ceilDiv cw 2, ceilDiv ch 2, l.bit10, 2⟩
  else
    ⟨l.base + l.fullSize + l.halfSize + l.stride / 4 * (l.rows / 4), l.stride / 4, ceilDiv cw 4, ceilDiv ch 4, l.bit10, 2⟩

/-- The address of a component of a sample. -/
def Plane.at_ (p : Plane) (x y c : Nat) : Nat := p.addr + y * p.stride + (x * p.comps + c) * sampleBytes p.bit10

/-- A sample of a plane; a position outside it takes the nearest sample on its edge (R179, R205, R208). -/
def State.sample (s : State) (p : Plane) (x y c : Nat) : Nat :=
  let v := s.le (p.at_ (min x (p.width - 1)) (min y (p.height - 1)) c) (sampleBytes p.bit10)
  if p.bit10 then v % 1024 else v

/-- Store a sample (R177). -/
def State.setSample (s : State) (p : Plane) (x y c v : Nat) : State :=
  s.setLe (p.at_ x y c) (sampleBytes p.bit10) (if p.bit10 then v % 1024 else v)

/-- Store every component of the samples of rows `ys` of a plane, each given by its place. -/
def State.paint (s : State) (p : Plane) (ys : List Nat) (f : State → Nat → Nat → Nat → Nat) : State :=
  ys.foldl (fun (s : State) y => (List.range p.width).foldl (fun (s : State) x =>
    (List.range p.comps).foldl (fun (s : State) c => s.setSample p x y c (f s x y c)) s) s) s

/-- The 2×2 average of samples (R179). -/
def average (f : Nat → Nat → Nat) (w h x y : Nat) : Nat :=
  let x1 := min (2 * x + 1) (w - 1)
  let y1 := min (2 * y + 1) (h - 1)
  (f (2 * x) (2 * y) + f x1 (2 * y) + f (2 * x) y1 + f x1 y1 + 2) / 4

/-- The 1/2 output of a plane. -/
def State.halved (s : State) (p : Plane) (c x y : Nat) : Nat :=
  average (fun x y => s.sample p x y c) p.width p.height x y

/-- The 1/4 output of a plane: the average of its 1/2 output (R179). -/
def State.quartered (s : State) (p : Plane) (c x y : Nat) : Nat :=
  average (s.halved p c) (ceilDiv p.width 2) (ceilDiv p.height 2) x y

/-- The numbers from `a` that are below `b`. -/
def span (a b : Nat) : List Nat := (List.range (b - a)).map (a + ·)

/-- Strips of 16 rows in a height. -/
def stripsOf (h : Nat) : Nat := ceilDiv h 16

/-- Write the reduced outputs of the rows of a strip (R178, R179). -/
def State.reduceStrip (s : State) (l : Layout) (w h k : Nat) : State :=
  let y := l.luma w h 0
  let c := l.chroma w h 0
  let rows (p : Plane) (n : Nat) : List Nat := span (k * n) (min (k * n + n) p.height)
  let s := if l.half then
      let s := s.paint (l.luma w h 1) (rows (l.luma w h 1) 8) fun s x r _ => s.halved y 0 x r
      s.paint (l.chroma w h 1) (rows (l.chroma w h 1) 4) fun s x r i => s.halved c i x r
    else s
  if l.quarter then
    let s := s.paint (l.luma w h 2) (rows (l.luma w h 2) 4) fun s x r _ => s.quartered y 0 x r
    s.paint (l.chroma w h 2) (rows (l.chroma w h 2) 2) fun s x r i => s.quartered c i x r
  else s

/-- Write a strip of a picture and its reduced outputs from samples given by their place: component 0 of luma, then the
components of chroma (R178). -/
def State.writeStrip (s : State) (l : Layout) (w h k : Nat) (luma : State → Nat → Nat → Nat)
    (chroma : State → Nat → Nat → Nat → Nat) : State :=
  let y := l.luma w h 0
  let c := l.chroma w h 0
  let s := s.paint y (span (16 * k) (min (16 * k + 16) y.height)) fun s x r _ => luma s x r
  let s := s.paint c (span (8 * k) (min (8 * k + 8) c.height)) chroma
  s.reduceStrip l w h k

/-- Mid-grey (R185, R170). -/
def midGrey (bit10 : Bool) : Nat := if bit10 then 512 else 128

/-- An octet string with other strings laid over it, each at its place. -/
def overlay (base : List Byte) : List (Nat × List Byte) → List Byte
  | [] => base
  | (n, bs) :: l => overlay (base.take n ++ bs ++ base.drop (n + bs.length)) l

/-- Write a 64-byte record: the fields given, and free octets where the record's layout gives no value. -/
def State.writeRecord (s : State) (a : Nat) (fields : List (Nat × List Byte)) : State :=
  (s.setBytes a (overlay (s.freeBytes 64) fields)).spent

/-- Whether an output record's address can be used (R180). -/
def recordUsable (a : Nat) : Bool := a != 0 && a % 64 == 0

end Sys2Proof.Machine
end

