-- ==== Sys2Proof/Machine/DecodePool.lean ====
section
/-! DEFINITION. What a Video Decode Engine works on (spec/05_video_decode.md, R169 to R186): decode contexts, frame buffers and their marks,
references by name, access units, limits, layers and output records. The bitstream standards are not part of the spec: what they give of a
picture comes with the commands. -/

namespace Sys2Proof.Machine

open Sys2Proof

/-! ### Contexts (R173, R174, R177) -/

/-- A field of a decode context. -/
def State.ctxField (s : State) (ctx off n : Nat) : Nat := s.le (ctx + off) n

/-- BIT10 of a context. -/
def State.ctxBit10 (s : State) (ctx : Nat) : Bool := (s.ctxField ctx 1 1).testBit 3

/-- The layout of buffer `i` of a context's pool (R177). -/
def State.bufLayout (s : State) (ctx i : Nat) : Layout :=
  let f := s.ctxField ctx 1 1
  ⟨s.ctxField ctx 8 8 + i * s.ctxField ctx 0x10 4, s.ctxField ctx 0x14 2, up16 (s.ctxField ctx 4 2), f.testBit 3, f.testBit 1,
    f.testBit 2⟩

/-- Whether a decode context is valid (R174). -/
def State.ctxValid (s : State) (ctx : Nat) : Bool :=
  let w := s.ctxField ctx 2 2
  let h := s.ctxField ctx 4 2
  let n := s.ctxField ctx 6 1
  let size := s.ctxField ctx 0x10 4
  let stride := s.ctxField ctx 0x14 2
  ctx % 256 == 0 && s.ctxField ctx 0 1 ≤ 3 && 16 ≤ w && w ≤ 4096 && 16 ≤ h && h ≤ 2304 && 2 ≤ n && n ≤ 32 &&
    s.ctxField ctx 7 1 % 4 ≤ 2 && s.ctxField ctx 8 8 % 4096 == 0 && size % 4096 == 0 && stride % 64 == 0 &&
    s.ctxField ctx 0x16 2 == 0 && s.ctxField ctx 0x18 8 % 4096 == 0 && w * sampleBytes (s.ctxBit10 ctx) ≤ stride &&
    (s.bufLayout ctx 0).slotSize w ≤ size

/-- Where the motion data of buffer `i` starts (R177). -/
def State.motionAddr (s : State) (ctx i : Nat) : Nat :=
  let l := s.bufLayout ctx i
  l.base + l.fullSize + l.halfSize + l.quarterSize

/-- The motion data of a strip of a buffer, whose format the VDE owns (R177). -/
def State.writeMotion (s : State) (ctx i w k : Nat) : State :=
  (s.setBytes (s.motionAddr ctx i + k * (ceilDiv (s.ctxField ctx 2 2) 16 * 16)) (s.freeBytes (ceilDiv w 16 * 16))).spent

/-- The codec state of a context (R173). -/
def State.codec (s : State) (ctx : Nat) : Codec := SMap.get Codec.init s.codecs ctx

/-- The state with a context's codec state replaced; its octets in the context are the VDE's own. -/
def State.setCodec (s : State) (ctx : Nat) (c : Codec) : State :=
  { (s.setBytes (ctx + 0x38) (s.freeBytes 72)).spent with codecs := SMap.set Codec.init s.codecs ctx c }

/-- Put octets at an open place of a context's 64 KiB parameter region (R173, R180): where, and the state. -/
def State.putParam (s : State) (ctx : Nat) (bs : List Byte) : State × Nat :=
  let a := s.ctxField ctx 0x18 8 + s.free (65537 - bs.length)
  ((s.setBytes a (bs.take 65536)).spent, a)

/-- The parameter sets and sequence headers that an access unit brings are kept, each in place of the one of its number (R173). -/
def State.keepSets (s : State) (ctx : Nat) (sets : List (Nat × List Byte)) : State :=
  sets.foldl (fun (s : State) e =>
    let c := s.codec ctx
    (s.setCodec ctx { c with params := SMap.insert c.params e.1 e.2 }).putParam ctx e.2 |>.1) s

/-- Raise a 4-byte counter of a context, modulo 2^32 (R173). -/
def State.ctxCount (s : State) (ctx off n : Nat) : State := s.setLe (ctx + off) 4 (s.le (ctx + off) 4 + n)

/-! ### Marks (R179, R183, R184) -/

/-- The address of the mark word of buffer `i`. -/
def markAddr (ctx i : Nat) : Nat := ctx + 0x80 + 4 * i

/-- The mark word of buffer `i`. -/
def State.mark (s : State) (ctx i : Nat) : Nat := s.le (markAddr ctx i) 4

/-- ROLE of a mark word. -/
def markRole (w : Nat) : Nat := w % 8

/-- HOLD of a mark word. -/
def markHold (w : Nat) : Nat := w / 256 % 16

/-- Store a mark word; CONCEALED and FILLED clear when the buffer is free (R183). -/
def State.setMark (s : State) (ctx i w : Nat) : State :=
  s.setLe (markAddr ctx i) 4 (if markRole w = 0 && markHold w = 0 then w - w / 8 % 4 * 8 else w)

/-- Give a buffer a role. -/
def State.setBufRole (s : State) (ctx i r : Nat) : State :=
  let w := s.mark ctx i
  s.setMark ctx i (w - markRole w + r)

/-- The buffers of a context's pool. -/
def State.pool (s : State) (ctx : Nat) : List Nat := List.range (s.ctxField ctx 6 1)

/-- The free buffers, lowest number first (R183). -/
def State.freeBufs (s : State) (ctx : Nat) : List Nat :=
  (s.pool ctx).filter fun i => markRole (s.mark ctx i) == 0 && markHold (s.mark ctx i) == 0

/-- Whether a buffer holds a stand-in that has not been filled (R185). -/
def State.unfilled (s : State) (ctx i : Nat) : Bool := SMap.get false (s.codec ctx).standin i && !(s.mark ctx i).testBit 4

/-- The usable pictures: complete, and SHORT or LONG (R183). -/
def State.usable (s : State) (ctx : Nat) : List Nat :=
  (s.pool ctx).filter fun i => (markRole (s.mark ctx i) == 2 || markRole (s.mark ctx i) == 3) && !s.unfilled ctx i

/-- How long before the present decode order a buffer was decoded. -/
def State.bufAge (s : State) (ctx i : Nat) : Nat := ((s.codec ctx).order + 65536 - s.mark ctx i / 65536) % 65536

/-- The newest of buffers by decode order. -/
def State.newest (s : State) (ctx : Nat) : List Nat → Option Nat
  | [] => none
  | i :: is => match s.newest ctx is with
    | none => some i
    | some j => if s.bufAge ctx i ≤ s.bufAge ctx j then some i else some j

/-- The coded size of the picture in a buffer. -/
def State.bufSize (s : State) (ctx i : Nat) : Nat × Nat := SMap.get (0, 0) (s.codec ctx).sizes i

/-- The newest usable picture of a coded size. -/
def State.newestOf (s : State) (ctx w h : Nat) : Option Nat :=
  s.newest ctx ((s.usable ctx).filter fun i => s.bufSize ctx i == (w, h))

/-- Every role becomes UNUSED, but for `keep`'s (R184). -/
def State.unmarkAll (s : State) (ctx : Nat) (keep : Option Nat) : State :=
  ((s.pool ctx).filter fun i => some i != keep).foldl (fun (s : State) i => s.setBufRole ctx i 0) s

/-! ### References by name (R183 to R185) -/

/-- The buffer that a name of the bitstream stands for, among those that can be references: SHORT, LONG or STANDIN (R183). -/
def State.named (s : State) (ctx n : Nat) : Option Nat :=
  (s.pool ctx).find? fun i => 2 ≤ markRole (s.mark ctx i) && (SMap.get [] (s.codec ctx).names i).contains n

/-- A buffer takes names, which no other keeps; an AV1 buffer that no slot names any more is UNUSED (R184). -/
def State.takeNames (s : State) (ctx i : Nat) (ns : List Nat) : State :=
  let c := s.codec ctx
  let left := fun j => (SMap.get [] c.names j).filter fun n => !ns.contains n
  let others := (s.pool ctx).filter (· != i)
  let lost := others.filter fun j => s.ctxField ctx 0 1 == 3 && SMap.get [] c.names j != [] && left j == []
  let names := others.foldl (fun m j => SMap.set [] m j (left j)) (SMap.set [] c.names i ns)
  lost.foldl (fun (s : State) j => s.setBufRole ctx j 0) { s with codecs := SMap.set Codec.init s.codecs ctx { c with names := names } }

/-- The standard's marking removes references (R184). -/
def State.dropNames (s : State) (ctx : Nat) (ns : List Nat) : State :=
  ns.foldl (fun (s : State) n => match s.named ctx n with | some i => s.setBufRole ctx i 0 | none => s) s

/-- A buffer becomes a long-term reference; a stand-in is then concealed (R184). -/
def State.makeLong (s : State) (ctx i : Nat) : State :=
  let w := s.mark ctx i
  s.setMark ctx i (w - markRole w + 3 + (if markRole w == 4 && !w.testBit 3 then 8 else 0))

/-- The standard's marking makes references long-term, each under a new name (R184). -/
def State.longNames (s : State) (ctx : Nat) (ns : List (Nat × Nat)) : State :=
  ns.foldl (fun (s : State) e => match s.named ctx e.1 with | some i => (s.makeLong ctx i).takeNames ctx i [e.2] | none => s) s

/-- The buffers that a picture refers to. -/
def State.refBufs (s : State) (ctx : Nat) (p : PicInfo) : List Nat := p.refs.filterMap (s.named ctx)

/-! ### Access units (R175) -/

/-- A segment of an access unit: its address and its length. -/
def State.segments (s : State) (au : Nat) : List (Nat × Nat) :=
  let p := s.le (au + 8) 8
  (List.range (s.le (au + 0x10) 2)).map fun i => (s.le (p + 16 * i) 8, s.le (p + 16 * i + 8) 4)

/-- Whether an access-unit descriptor is valid (R175). -/
def State.auValid (s : State) (au : Nat) : Bool :=
  let n := s.le (au + 0x10) 2
  1 ≤ n && n ≤ 64 && ((s.segments au).foldl (fun v x => v + x.2) 0 == s.le (au + 0x14) 4)

/-- The payload of an access unit. -/
def State.auPayload (s : State) (au : Nat) : List Byte := (s.segments au).flatMap fun x => s.bytes x.1 x.2

/-- Whether length-prefixed NAL units run past the payload (R175). -/
def nalsRunPast : Nat → List Byte → Bool
  | 0, _ => false
  | _ + 1, [] => false
  | fuel + 1, bs =>
    let n := 4 + beVal (bs.take 4)
    if bs.length < n then true else nalsRunPast fuel (bs.drop n)

/-- A leb128 number: its value and how many octets it takes. -/
def leb128 : Nat → List Byte → Option (Nat × Nat)
  | 0, _ => none
  | _ + 1, [] => none
  | fuel + 1, b :: bs =>
    if b.toNat < 128 then some (b.toNat, 1)
    else match leb128 fuel bs with
      | some (v, n) => some (b.toNat % 128 + 128 * v, n + 1)
      | none => none

/-- Whether OBUs run past the payload (R175). -/
def obusRunPast : Nat → List Byte → Bool
  | 0, _ => false
  | _ + 1, [] => false
  | fuel + 1, b :: bs =>
    let h := if b.toNat.testBit 2 then 1 else 0
    if !b.toNat.testBit 1 then true
    else match leb128 8 (bs.drop h) with
      | none => true
      | some (v, n) => if bs.length < h + n + v then true else obusRunPast fuel (bs.drop (h + n + v))

/-- Whether the payload of an access unit is a syntax error by its own lengths (R175). -/
def State.runsPast (s : State) (codec au : Nat) : Bool :=
  let p := s.auPayload au
  if codec = 3 then obusRunPast (p.length + 1) p else nalsRunPast (p.length + 1) p

/-! ### Limits (R169) -/

/-- Whether a codec's row of R169 leaves a feature out. -/
def featureBarred (codec : Nat) : VideoFeature → Bool
  | .profile | .chroma422 | .chroma444 | .depth => true
  | .fieldPictures | .mbaff | .sliceGroups | .sliceOrder | .redundantSlices | .dataPartitioning => codec < 2
  | .dependencyLayers | .spatialRatio => codec == 1
  | .extension => codec == 2
  | .largeScaleTile => codec == 3

/-- Whether a picture lies outside R169: its features, sample format, size, depth or reference pictures. -/
def outsideLimits (codec : Nat) (p : PicInfo) : Bool :=
  p.features.any (featureBarred codec) || p.width < 16 || 4096 < p.width || p.height < 16 || 2304 < p.height ||
    (if codec = 0 then 36864 < ceilDiv p.width 16 * ceilDiv p.height 16
     else if codec = 1 then 1920 < p.width || 1088 < p.height
     else 8912896 < p.width * p.height) || (p.bit10 && codec < 2) || (p.mono && (codec == 1 || codec == 2)) ||
    (if codec = 3 then 8 else 16) < p.maxRefs

/-- Whether LAYER_TARGET takes in a layer of an access unit (R171). A stream of codec 0 has its base layer alone, and one of codec 2 no NAL
unit with nuh_layer_id > 0 (R169). -/
def layerWithin (l : CodedLayer) (codec target : Nat) : Bool :=
  let did := target % 4
  let tid := target / 16 % 8
  if codec = 0 then l.did == 0 && l.qid == 0
  else if codec = 1 then (l.did < did || (l.did == did && l.qid ≤ target / 4 % 4)) && l.tid ≤ tid
  else if codec = 2 then l.did == 0 && l.tid ≤ tid
  else l.did ≤ did && l.tid ≤ tid

/-- A picture with the layers that a context decodes; data above the target is skipped (R171). -/
def State.atTarget (s : State) (ctx : Nat) (p : PicInfo) : PicInfo :=
  { p with layers := p.layers.filter fun l => layerWithin l (s.ctxField ctx 0 1) (s.ctxField ctx 7 1) }

/-- Whether a picture exceeds its context (DEC_GEOMETRY). -/
def State.exceedsCtx (s : State) (ctx : Nat) (p : PicInfo) : Bool :=
  s.ctxField ctx 2 2 < p.width || s.ctxField ctx 4 2 < p.height || (p.bit10 && !s.ctxBit10 ctx)

/-- Whether a picture lacks a parameter set or sequence header (R192). -/
def State.lacksSets (s : State) (ctx : Nat) (p : PicInfo) : Bool :=
  p.uses.any fun k => (SMap.find? (s.codec ctx).params k).isNone

/-- What is missing of the references that a picture names (R185): the last of a gap's frame numbers, and each name that the pool does not
hold; with each, whether the picture refers to it. -/
def State.missing (s : State) (ctx : Nat) (p : PicInfo) : List (Nat × Bool) :=
  let gap := p.gap.drop (p.gap.length - p.maxRefs)
  let rest := ((p.refs ++ p.lists ++ p.existing.toList).eraseDups).filter fun n => (s.named ctx n).isNone && !gap.contains n
  (gap ++ rest).map fun n => (n, p.refs.contains n || p.existing == some n)

/-! ### Records (R180) -/

/-- A record's flags. -/
structure RecFlags where
  display   : Bool
  concealed : Bool
  standin   : Bool
  held      : Bool
  repeated  : Bool
  noPicture : Bool
  rap       : Bool
  entered   : Bool
  film      : Bool
  bit10     : Bool
  deriving DecidableEq, Repr

/-- The flags' code. -/
def RecFlags.code (f : RecFlags) : Nat :=
  bnat f.display + 2 * bnat f.concealed + 4 * bnat f.standin + 8 * bnat f.held + 16 * bnat f.repeated + 32 * bnat f.noPicture +
    64 * bnat f.rap + 128 * bnat f.entered + 256 * bnat f.film + 512 * bnat f.bit10

/-- Write the output record of an access unit where its address can be used (R180). -/
def State.decodeRecord (s : State) (au status flags buf : Nat) (fields : List (Nat × List Byte)) : State :=
  let out := s.le (au + 0x20) 8
  if recordUsable out then
    s.writeRecord out ([(0, leBytes 1 status), (2, leBytes 2 flags), (4, leBytes 1 buf), (0x14, s.bytes (au + 0x18) 4),
      (0x18, s.bytes (au + 0x1C) 4)] ++ fields)
  else s

/-- The fields of a record that a picture's parse gives: size, cropping and layer. -/
def picFields (p : PicInfo) : List (Nat × List Byte) :=
  [(8, leBytes 2 p.width ++ leBytes 2 p.height), (0x0C, (p.crop.take 4).flatMap (leBytes 2)), (0x26, leBytes 1 p.layer)]

/-- The fields of the buffer displayed: DISP_BUF and its ORDER, which is open where the buffer has none. -/
def State.shownFields (s : State) (ctx : Nat) : Option Nat → List (Nat × List Byte)
  | none => []
  | some b => (5, leBytes 1 b) :: match SMap.find? (s.codec ctx).orders b with | some o => [(0x1C, leBytes 4 o)] | none => []

/-- Place CONSUMERS holds on a displayed buffer (R182). -/
def State.placeHolds (s : State) (au ctx i : Nat) : State :=
  let w := s.mark ctx i
  let c := s.codec ctx
  let s := { s with codecs := SMap.set Codec.init s.codecs ctx { c with shown := SMap.set false c.shown i true } }
  s.setMark ctx i (w - markHold w * 256 + min 15 (markHold w + s.le (au + 0x28) 1) * 256)

end Sys2Proof.Machine
end

