-- ==== Sys2Proof/Machine/Vde.lean ====
section
/-! DEFINITION. The Video Decode Engines (spec/05_video_decode.md, R169 to R197). The bitstream standards are not part of the
spec: what they give of a picture comes with the commands. -/

namespace Sys2Proof.Machine

open Sys2Proof

/-! ### Starting (R176, R184, R185, R189 to R193) -/

/-- The running task of an engine. -/
def State.engineTask (s : State) (g i : Nat) : Option (Nat × Task) := s.runningOn g i

/-- The address of the engine descriptor of a task (R427). -/
def Task.descAddr (t : Task) : Nat := leVal (slice t.args 0 8)

/-- The job of a VDE. -/
def State.vdeJob (s : State) (i : Nat) : Option VdeJob := SMap.get none s.vdes i

/-- The state with a VDE's job replaced, and BUSY with it. -/
def State.setVdeJob (s : State) (i : Nat) (j : Option VdeJob) : State :=
  { s.putBit (R.VDE_STATUS_BUSY i) j.isSome with vdes := SMap.set none s.vdes i j }

/-- A picture moved its stream into a state: STATE, RECOVERY_ENTRIES and the request for a key picture (R191, R192). -/
def State.enterState (s : State) (ctx old new : Nat) : State :=
  let s := s.setLe (ctx + 0x20) 1 new
  let s := if 2 ≤ new && new != old then s.ctxCount ctx 0x34 1 else s
  if old < 2 && 2 ≤ new then (s.setCodec ctx { s.codec ctx with asked := some s.cycle }).emit (.firmware 3 [ctx])
  else if new = 1 then s.setCodec ctx { s.codec ctx with asked := none }
  else s

/-- The picture is not decoded: the newest usable picture of the last coded size again, or none (R193). Without its parameter sets nothing
is known of the picture's size. -/
def State.notDecoded (s : State) (vde slot ctx au old status new : Nat) (p : PicInfo) : State :=
  let c := s.codec ctx
  let again := s.newestOf ctx c.width c.height
  let f : RecFlags := ⟨again.isSome, false, false, false, again.isSome, again.isNone, p.rap != RapKind.no, old < 2 && 2 ≤ new, false,
    p.bit10⟩
  let s := s.decodeRecord au status f.code 0xFF
    (s.shownFields ctx again ++ (if status = St.decNoParam then [] else picFields p) ++
      [(0x20, leBytes 4 0), (0x24, leBytes 2 0), (0x28, leBytes 4 0)])
  let s := match again with | some b => s.placeHolds au ctx b | none => s
  let s := ((s.enterState ctx old new).setLe (ctx + 0x21) 1 0).count (R.C_VDE_NOT_DECODED vde)
  s.unitComplete slot status (0x3000 + vde) []

/-- A task on an invalid context or descriptor (R174, R175, R176). -/
def State.ctxBad (s : State) (vde slot au : Nat) : State :=
  let s := s.decodeRecord au St.decCtxBad 0 0xFF []
  (s.count (R.C_VDE_NOT_DECODED vde)).unitComplete slot St.decCtxBad (0x3000 + vde) []

/-- Fill a stand-in: a copy of the newest usable picture, or mid-grey, its motion data cleared to intra (R185). -/
def State.fillStandin (s : State) (ctx i : Nat) : State :=
  let l := s.bufLayout ctx i
  let src := s.newest ctx ((s.usable ctx).filter (· != i))
  let size := match src with | some j => s.bufSize ctx j | none => (s.ctxField ctx 2 2, s.ctxField ctx 4 2)
  let s := (List.range (stripsOf size.2)).foldl (fun (s : State) k =>
    match src with
    | some j =>
      let m := s.bufLayout ctx j
      s.writeStrip l size.1 size.2 k (fun s x y => s.sample (m.luma size.1 size.2 0) x y 0)
        (fun s x y c => s.sample (m.chroma size.1 size.2 0) x y c)
    | none => s.writeStrip l size.1 size.2 k (fun _ _ _ => midGrey l.bit10) (fun _ _ _ _ => midGrey l.bit10)) s
  let s := (List.range (stripsOf size.2)).foldl (fun (s : State) k => s.writeMotion ctx i size.1 k) s
  let w := s.mark ctx i
  let s := if w.testBit 4 then s else s.setMark ctx i (w + 16)
  let c := s.codec ctx
  s.setCodec ctx { c with sizes := SMap.set (0, 0) c.sizes i size }

/-- Make a stand-in for a missing name in a free buffer (R185); an H.265 name is the order count. -/
def State.makeStandin (s : State) (vde ctx i name : Nat) (referenced : Bool) : State :=
  let c := s.codec ctx
  let s := s.setMark ctx i (4 + c.order % 65536 * 65536)
  let orders := if s.ctxField ctx 0 1 = 2 then SMap.insert c.orders i name else SMap.erase c.orders i
  let s := s.setCodec ctx { c with standin := SMap.set false c.standin i true, sizes := SMap.erase c.sizes i, orders := orders,
                                   shown := SMap.erase c.shown i }
  let s := ((s.takeNames ctx i [name]).ctxCount ctx 0x2C 1).count (R.C_VDE_STANDINS vde)
  if referenced then s.fillStandin ctx i else s

/-- Make each stand-in in its buffer. -/
def State.makeStandins (s : State) (vde ctx : Nat) : List Nat → List (Nat × Bool) → State
  | i :: is, r :: rs => (s.makeStandin vde ctx i r.1 r.2).makeStandins vde ctx is rs
  | _, _ => s

/-- Fill the stand-ins that a picture is the first to refer to (R185). -/
def State.fillFirst (s : State) (ctx : Nat) (refs : List Nat) : State :=
  (refs.filter fun i => s.unfilled ctx i).foldl (fun (s : State) i => s.fillStandin ctx i) s

/-- The watchdog budget of a VDE (R187). -/
def State.vdeBudget (s : State) (vde samples bytes : Nat) : Nat :=
  min (2 ^ 32 - 1) (s.get (R.VDE_WD_SCALE_SCALE vde) * (200000 + samples + 16 * bytes))

/-- Whether a picture is decoded in recovery (R189, R191, R192): by TEST, by the stream's state, after a gap, or with stand-ins. -/
def inRecovery (st : Nat) (test gap : Bool) (rap : RapKind) (standins : Nat) : Bool :=
  (test && st != 3) || st == 2 || (st == 0 && rap == RapKind.no) || gap || standins != 0

/-- What a stream knows of a buffer that a picture is decoded into. -/
def Codec.begin (c : Codec) (b : Nat) (p : PicInfo) (st : Nat) : Codec :=
  { c with order := (c.order + 1) % 65536, width := p.width, height := p.height,
           bla := if p.rap = RapKind.no then c.bla else p.rap == RapKind.cra && (st == 0 || st == 2),
           sizes := SMap.set (0, 0) c.sizes b (p.width, p.height), standin := SMap.set false c.standin b false,
           names := SMap.set [] c.names b [], orders := SMap.insert c.orders b p.order, shown := SMap.set false c.shown b false }

/-- Start to decode a picture: the buffer, the stand-ins and the engine's registers (R184, R185, R187, R189). -/
def State.startPicture (s : State) (vde slot ctx au st : Nat) (p : PicInfo) : State :=
  let gap := (s.le (au + 0x12) 2).testBit 0
  let need := s.missing ctx p
  let d := s.dropNames ctx p.drops
  match s.freeBufs ctx, (d.freeBufs ctx) with
  | b :: _, free =>
    let rest := free.filter (· != b)
    if rest.length < need.length then s.notDecoded vde slot ctx au st St.decPoolFull 2 p
    else
      let s := d
      let c := (s.codec ctx).begin b p st
      let test := (s.ctxField ctx 1 1).testBit 0
      let past := s.runsPast (s.ctxField ctx 0 1) au
      let s := s.setMark ctx b (1 + c.order * 65536)
      let s := { s with codecs := SMap.set Codec.init s.codecs ctx c }
      let s := s.makeStandins vde ctx rest need
      let refs := s.refBufs ctx p
      let s := s.fillFirst ctx refs
      let refBad := refs.any fun i => (s.mark ctx i).testBit 3 || markRole (s.mark ctx i) == 4
      let refStand := refs.any fun i => SMap.get false (s.codec ctx).standin i
      let job : VdeJob := ⟨slot, ctx, au, p, b, st, inRecovery st test gap p.rap need.length, gap, past, need.length, refBad, refStand, test,
        s.armed 0 vde, 0, 0, 1⟩
      let s := (s.setVdeJob vde (some job)).disarm 0 vde
      let s := s.putPair (R.VDE_CUR_CTX_LO_ADDR vde) (R.VDE_CUR_CTX_HI_ADDR vde) ctx
      let s := s.put (R.VDE_CUR_CYCLES_CYCLES vde) 0
      s.put (R.VDE_CUR_BUDGET_CYCLES vde) (s.vdeBudget vde p.samples (s.le (au + 0x14) 4))
  | [], _ => s.notDecoded vde slot ctx au st St.decPoolFull 2 p

/-- The end of an access unit that decodes no picture: its record, the stream's state and OK. -/
def State.noPicture (s : State) (vde slot ctx au old new : Nat) (f : RecFlags) (shown : Option Nat) (p : PicInfo) : State :=
  let s := match shown with | some b => s.placeHolds au ctx b | none => s
  let s := s.decodeRecord au St.ok f.code 0xFF
    (s.shownFields ctx shown ++ picFields p ++ [(0x20, leBytes 4 0), (0x24, leBytes 2 0), (0x28, leBytes 4 0)])
  let s := if f.concealed then s.count (R.C_VDE_CONCEALED_PICS vde) else s
  ((s.enterState ctx old new).setLe (ctx + 0x21) 1 0).unitComplete slot St.ok (0x3000 + vde) []

/-- An AV1 unit with show_existing_frame = 1 (R181, R185): the record displays the frame named, and no buffer is decoded into. A frame that
the pool does not hold is a missing reference. -/
def State.showExisting (s : State) (vde slot ctx au st n : Nat) (p : PicInfo) : State :=
  let need := s.missing ctx p
  if (s.freeBufs ctx).length < need.length then s.notDecoded vde slot ctx au st St.decPoolFull 2 p
  else
    let s := s.makeStandins vde ctx (s.freeBufs ctx) need
    match s.named ctx n with
    | none => s.notDecoded vde slot ctx au st St.decPoolFull 2 p
    | some b =>
      let s := s.fillFirst ctx [b]
      let c := s.codec ctx
      let standin := SMap.get false c.standin b
      let gap := (s.le (au + 0x12) 2).testBit 0
      let new := if st = 1 && !gap && need.isEmpty then 1 else 2
      let f : RecFlags := ⟨true, standin || (s.mark ctx b).testBit 3, standin, false, SMap.get false c.shown b, false, false,
        st < 2 && new == 2, false, p.bit10⟩
      (s.takeNames ctx b ((SMap.get [] c.names b ++ p.names).eraseDups)).noPicture vde slot ctx au st new f (some b) p

/-- The state in which an access unit finds its stream (R184, R192): RESET starts it anew and forgets its parameter sets. -/
def State.enterUnit (s : State) (vde ctx : Nat) (reset : Bool) : State :=
  let s := s.setLe (ctx + 0x21) 1 (vde + 1)
  let st0 := s.ctxField ctx 0x20 1 % 4
  let s := if reset then (s.unmarkAll ctx none).setCodec ctx { s.codec ctx with bla := false, params := [] } else s
  if st0 = 0 then { s with codecs := SMap.erase s.codecs ctx } else s

/-- DECODE_START (R171, R174 to R176, R181, R190 to R193): a VDE takes the decode task it was given. -/
def execDecodeStart (vde : Fin 16) (pic : PicInfo) (s : State) : Result :=
  match s.engineTask 0 vde, s.vdeJob vde with
  | some (n, t), none =>
    if t.kind != 1 then .next s
    else
      let au := t.descAddr
      let ctx := s.le au 8
      if !s.ctxValid ctx || !s.auValid au || s.ctxField ctx 0x21 1 != 0 then .next (s.ctxBad vde n au)
      else
        let reset := (s.le (au + 0x12) 2).testBit 1
        let st := if reset then 0 else s.ctxField ctx 0x20 1 % 4
        let p := s.atTarget ctx pic
        let s := (s.enterUnit vde ctx reset).keepSets ctx p.sets
        let halted := st = 3
        let lacks := s.lacksSets ctx p
        let shows := if s.ctxField ctx 0 1 = 3 then p.existing else none
        if !lacks && p.layers.isEmpty && shows.isNone then
          .next (s.noPicture vde n ctx au st st ⟨false, false, false, false, false, true, false, false, false, p.bit10⟩ none p)
        else
          let big := shows.isNone && outsideLimits (s.ctxField ctx 0 1) p
          let wide := shows.isNone && s.exceedsCtx ctx p
          if !halted && big then .next (s.notDecoded vde n ctx au st St.decUnsupported 3 p)
          else if !halted && wide then .next (s.notDecoded vde n ctx au st St.decGeometry 3 p)
          else if !halted && lacks then .next (s.notDecoded vde n ctx au st St.decNoParam 3 p)
          else if halted && (p.rap = RapKind.no || shows.isSome || lacks || big || wide) then .next (s.notDecoded vde n ctx au st St.decDropped 3 p)
          else if p.rasl && (s.codec ctx).bla then .next (s.notDecoded vde n ctx au st St.decDropped st p)
          else
            match shows with
            | some name => .next (s.showExisting vde n ctx au st name p)
            | none => .next (s.startPicture vde n ctx au st p)
  | _, _ => .next s

/-! ### Strips (R170, R178, R179) -/

/-- Whether INJ_WD makes this attempt expire (R196). -/
def VdeJob.failing (j : VdeJob) : Bool := j.inject && j.attempt == 1

/-- How far two order counts lie apart. -/
def orderGap (a b : Nat) : Nat := (a - b) + (b - a)

/-- The nearest of buffers by order count or hint; of two at the same distance, the one earlier in the list. -/
def nearestOrder (orders : SMap Nat) (o : Nat) : List Nat → Option Nat
  | [] => none
  | i :: is => match nearestOrder orders o is with
    | none => some i
    | some j => if orderGap o (SMap.get 0 orders j) < orderGap o (SMap.get 0 orders i) then some j else some i

/-- The picture from which a picture's blocks are concealed (R189): the nearest usable reference, or the newest usable picture of the size. -/
def State.concealSource (s : State) (ctx : Nat) (p : PicInfo) : Option Nat :=
  let us := (s.refBufs ctx p).filter fun i => (s.usable ctx).contains i
  match nearestOrder (s.codec ctx).orders p.order us with
  | some i => some i
  | none => s.newestOf ctx p.width p.height

/-- A strip's samples, luma row by row and chroma with Cb and Cr interleaved; the blocks lost are copied from the co-located ones of another
picture, or are mid-grey (R189), and a monochrome picture's chroma is mid-grey (R170). -/
def State.decodeStrip (s : State) (j : VdeJob) (luma chroma lost : List Nat) : State :=
  let p := j.info
  let l := s.bufLayout j.ctx j.buf
  let k := j.strips
  let cw := ceilDiv p.width 2
  let src := s.concealSource j.ctx p
  let size := match src with | some i => s.bufSize j.ctx i | none => (0, 0)
  let s := s.writeStrip l p.width p.height k
    (fun s x y =>
      if !lost.contains (x / 16) then luma.getD ((y - 16 * k) * p.width + x) 0
      else match src with
        | some i => s.sample ((s.bufLayout j.ctx i).luma size.1 size.2 0) x y 0
        | none => midGrey l.bit10)
    (fun s x y c =>
      if p.mono then midGrey l.bit10
      else if !lost.contains (x / 8) then chroma.getD (((y - 8 * k) * cw + x) * 2 + c) 0
      else match src with
        | some i => s.sample ((s.bufLayout j.ctx i).chroma size.1 size.2 0) x y c
        | none => midGrey l.bit10)
  s.writeMotion j.ctx j.buf p.width k

/-- STRIP_PUBLISHED (R170, R178, R179, R189): the next strip's samples are written with the reduced rows and the strip is published. Only a
picture in recovery has blocks that were not decoded. Past the budget the watchdog expires first
(R187). -/
def execStripPublished (vde : Fin 16) (luma chroma : List Nat) (fin : StripEnd) (s : State) : Result :=
  match s.vdeJob vde with
  | none => .next s
  | some j =>
    if j.failing || stripsOf j.info.height ≤ j.strips || s.isFenced Unit.vde vde || s.get (R.VDE_CUR_BUDGET_CYCLES vde) < fin.cycles then .next s
    else
      let lost := if j.recovery then (fin.lost.filter fun x => x < ceilDiv j.info.width 16).eraseDups else []
      let s := s.decodeStrip j luma chroma lost
      let s := s.setVdeJob vde (some { j with strips := j.strips + 1, concealed := j.concealed + lost.length })
      let s := s.put (R.VDE_CUR_CYCLES_CYCLES vde) fin.cycles
      .next (s.publishStrip (s.taskId j.slot) (j.strips + 1) j.buf)

/-! ### Completion (R180 to R186, R188, R192, R193) -/

/-- Fill a picture's rows from strip `k` on, from the newest usable picture of its size or mid-grey (R186). -/
def State.rowFill (s : State) (ctx buf w h k : Nat) : State :=
  let l := s.bufLayout ctx buf
  let src := s.newestOf ctx w h
  (span k (stripsOf h)).foldl (fun (s : State) r =>
    match src with
    | some j =>
      let m := s.bufLayout ctx j
      s.writeStrip l w h r (fun s x y => s.sample (m.luma w h 0) x y 0) (fun s x y c => s.sample (m.chroma w h 0) x y c)
    | none => s.writeStrip l w h r (fun _ _ _ => midGrey l.bit10) (fun _ _ _ _ => midGrey l.bit10)) s

/-- Publish the strips from `k` on. -/
def State.publishRest (s : State) (id buf h k : Nat) : State :=
  (span k (stripsOf h)).foldl (fun (s : State) r => s.publishStrip id (r + 1) buf) s

/-- ROLE of a reference mark. -/
def refRole : RefMark → Nat
  | .unused => 0
  | .short => 2
  | .long => 3

/-- The buffer a record displays. -/
def VdeJob.shown (j : VdeJob) : Display → Option Nat
  | .nothing => none
  | .own => some j.buf
  | .buf n => some (n % 32)

/-- A write outside its window is blocked, latched, logged and counted (R188). -/
def State.vdeBlocked (s : State) (vde a task : Nat) : State :=
  let s := s.putPair (R.VDE_BOUNDS_LAST_LO_ADDR vde) (R.VDE_BOUNDS_LAST_HI_ADDR vde) a
  (s.log Unit.vde vde Sev.warn Ev.boundsBlocked a task).count (R.C_VDE_BOUNDS_BLOCKED vde)

/-- Whether an address lies in a window that a decode may write (R188): its buffer, its output record, the context or the parameter region. -/
def State.vdeWindow (s : State) (j : VdeJob) (a : Nat) : Bool :=
  let out := s.le (j.au + 0x20) 8
  let buf := (s.bufLayout j.ctx j.buf).base
  let par := s.ctxField j.ctx 0x18 8
  (buf ≤ a && a < buf + s.ctxField j.ctx 0x10 4) || (recordUsable out && out ≤ a && a < out + 64) || (j.ctx ≤ a && a < j.ctx + 256) ||
    (par ≤ a && a < par + 65536)

/-- The writes of an engine that fall outside its windows. -/
def State.straysOf (s : State) (j : VdeJob) (as : List Nat) : List Nat := as.filter fun a => !s.vdeWindow j a

/-- The state of a stream after a decoded picture (R189 to R192). -/
def VdeJob.after (j : VdeJob) (test abandoned concealed : Bool) : Nat :=
  let clean := j.info.rap != RapKind.no
  if abandoned then 2
  else if j.gap || j.standins != 0 then 2
  else if j.state = 1 then (if concealed && test then 2 else 1)
  else if j.state = 2 then (if clean && !concealed && !test then 1 else 2)
  else if clean && !concealed then 1
  else 2

/-- The luma samples of a picture that were decoded, `k` strips of its output layer being so (R196). -/
def picDecoded (p : PicInfo) (k : Nat) : Nat := p.samples - p.width * (p.height - min p.height (16 * k))

/-- The standard's marking of the other pictures, once a picture has completed (R184). -/
def State.markOthers (s : State) (j : VdeJob) (f : PicEnd) (abandoned : Bool) : State :=
  let s := if abandoned then s else (s.dropNames j.ctx f.removed).longNames j.ctx f.longs
  if j.info.rap != RapKind.no then s.unmarkAll j.ctx (some j.buf) else s

/-- A completed picture's own mark and names (R184). -/
def State.markOwn (s : State) (j : VdeJob) (f : PicEnd) (abandoned concealed : Bool) : State :=
  let role := if abandoned then 0 else refRole f.mark
  let w := s.mark j.ctx j.buf
  let s := s.setMark j.ctx j.buf (w - markRole w + role + (if concealed && !w.testBit 3 then 8 else 0))
  s.takeNames j.ctx j.buf (if role = 0 then [] else j.info.names)

/-- The film grain parameters go to the parameter region: their address and length (R180). -/
def State.putGrain (s : State) (ctx : Nat) : Option (List Byte) → State × List (Nat × List Byte)
  | none => (s, [])
  | some g => let (t, a) := s.putParam ctx g; (t, [(0x2C, leBytes 8 a ++ leBytes 4 g.length)])

/-- Finish a picture: its marks, record, counters and completion. -/
def State.finishPicture (s : State) (vde : Nat) (j : VdeJob) (f : PicEnd) (status : Nat) (abandoned : Bool) : State :=
  let p := j.info
  let ctx := j.ctx
  let n := stripsOf p.height
  let blocks := j.concealed + (if abandoned then ceilDiv p.width 16 * (n - j.strips) else 0)
  let damaged := blocks != 0 || (!abandoned && (f.syntaxErr || j.runsPast))
  let concealed := damaged || abandoned || j.gap || j.refBad || j.refStand
  let held := abandoned && j.strips < n
  let new := j.after j.test abandoned damaged
  let shown := j.shown f.display
  let again := match f.display with | .buf b => SMap.get false (s.codec ctx).shown (b % 32) | _ => false
  let s := match shown with | some b => s.placeHolds j.au ctx b | none => s
  let s := (s.markOthers j f abandoned).markOwn j f abandoned concealed
  let (s, grain) := s.putGrain ctx f.filmGrain
  let fl : RecFlags := ⟨shown.isSome, concealed, j.refStand, held, again, shown.isNone, p.rap != RapKind.no, j.state < 2 && new = 2,
    f.filmGrain.isSome, p.bit10⟩
  let s := s.decodeRecord j.au status fl.code j.buf
    (s.shownFields ctx shown ++ picFields p ++ (if held then [(6, leBytes 2 (16 * j.strips))] else []) ++
      [(0x20, leBytes 4 blocks), (0x24, leBytes 2 (if abandoned then j.strips else n)), (0x28, leBytes 4 f.cycles)] ++ grain)
  let s := s.enterState ctx j.state new
  let s := s.setCodec ctx (s.codec ctx)
  let s := s.ctxCount ctx 0x24 1
  let s := if concealed then (s.ctxCount ctx 0x28 1).count (R.C_VDE_CONCEALED_PICS vde) else s
  let s := if abandoned then (s.ctxCount ctx 0x30 1).count (R.C_VDE_ABANDONED vde) else s
  let s := ((s.count (R.C_VDE_CONCEALED_BLOCKS vde) blocks).count (R.C_VDE_PICS vde)).count (R.C_VDE_PIXELS vde)
    (picDecoded p (if abandoned then j.strips else n))
  let s := (s.count (R.C_VDE_BUSY_CYCLES vde) f.cycles).put (R.VDE_CUR_CYCLES_CYCLES vde) f.cycles
  let s := ((s.setLe (ctx + 0x21) 1 0).setVdeJob vde none).unitComplete j.slot status (0x3000 + vde) []
  if j.attempt = 2 then s.retried Unit.vde vde 8 (s.taskId j.slot) else s

/-- DECODE_COMPLETE (R180 to R188, R192, R193). -/
def execDecodeComplete (vde : Fin 16) (fin : PicEnd) (s : State) : Result :=
  match s.vdeJob vde with
  | none => .next s
  | some j =>
    let syn := fin.syntaxErr || j.runsPast
    let strays := s.straysOf j fin.strays
    let abandoned := !strays.isEmpty || (syn && !j.recovery)
    if j.failing || s.isFenced Unit.vde vde || s.get (R.VDE_CUR_BUDGET_CYCLES vde) < fin.cycles ||
        (!abandoned && j.strips < stripsOf j.info.height) then .next s
    else
      let s := strays.foldl (fun (s : State) a => s.vdeBlocked vde a (s.taskId j.slot)) s
      let s := if abandoned then
          (s.rowFill j.ctx j.buf j.info.width j.info.height j.strips).publishRest (s.taskId j.slot) j.buf j.info.height j.strips
        else s
      let status :=
        if syn && !j.recovery then St.decSyntax
        else if syn || j.gap || j.standins != 0 then St.ok
        else if !strays.isEmpty then St.decBounds
        else if j.attempt = 2 then St.okRetried else St.ok
      .next (s.finishPicture vde j fin status abandoned)

/-! ### Watchdog and fill (R187, R188, R196) -/

/-- VDE_WATCHDOG_EXPIRY (R187, R188, R196): the cycles spent exceed the budget, or INJ_WD says so; the engine resets and starts the picture again; a second expiry fences it. -/
def execVdeWatchdogExpiry (vde : Fin 16) (cycles : Nat) (s : State) : Result :=
  match s.vdeJob vde with
  | none => .next s
  | some j =>
    if s.isFenced Unit.vde vde || s.endsNow 0 vde || (!j.failing && cycles ≤ s.get (R.VDE_CUR_BUDGET_CYCLES vde)) then .next s
    else
      let s := s.count (R.C_VDE_BUSY_CYCLES vde) cycles
      if j.attempt = 1 then
        .next ((s.setVdeJob vde (some { j with attempt := 2 })).put (R.VDE_CUR_CYCLES_CYCLES vde) 0)
      else
        let s := (s.fence Unit.vde vde 8 (s.taskId j.slot)).putBit (R.VDE_STATUS_BUSY vde) false
        .next (s.loseUnit 0 vde)

/-- DECODE_FILL (R188): the fill task's VDE fills the lost picture's rows, writes its record, clears LOCK and puts the stream
into RECOVERY. -/
def execDecodeFill (vde : Fin 16) (fill : FillEnd) (s : State) : Result :=
  match s.engineTask 0 vde, s.vdeJob vde with
  | some (n, t), none =>
    if t.kind != 2 then .next s
    else
      let au := t.descAddr
      let ctx := s.le au 8
      let lock := s.ctxField ctx 0x21 1
      match (if lock = 0 then none else s.vdeJob (lock - 1)) with
      | none => .next (s.ctxBad vde n au)
      | some j =>
        if !s.isFenced Unit.vde (lock - 1) || j.slot != n then .next (s.ctxBad vde n au)
        else
          let s := (s.rowFill ctx j.buf j.info.width j.info.height j.strips).publishRest (s.taskId n) j.buf j.info.height j.strips
          let s := (s.straysOf j fill.strays).foldl (fun (s : State) a => s.vdeBlocked vde a (s.taskId n)) s
          let s := { s with vdes := SMap.set none s.vdes (lock - 1) none }
          let fin : PicEnd := ⟨false, [], fill.cycles, .unused, [], [], .own, none⟩
          .next (s.finishPicture vde { j with attempt := 1 } fin St.unitFenced true)
  | _, _ => .next s

/-- The group and number of an engine. -/
def engineUnit : Engine → Nat × Nat
  | .vde n => (0, n)
  | .vee n => (1, n)
  | .cmp n => (2, n)
  | .tsp => (3, 0)

/-- The control register with INJ_WD of an engine (R196, R230, R264). -/
def injectAddr : Engine → Nat
  | .vde n => (R.VDE_CTRL_INJ_WD n).addr
  | .vee n => (R.VEE_CTRL_INJ_WD n).addr
  | .cmp n => (R.CMP_CTRL_INJ_WD n).addr
  | .tsp => R.TSP_CTRL_INJ_WD.addr

/-- INJ_WD (R196, R230, R264): the watchdog expires on the first attempt of the engine's next task. -/
def execInjWd (who : Sender) (engine : Engine) (s : State) : Result :=
  s.access who (injectAddr engine) fun s =>
  .next { s with injected := SMap.set false s.injected (consumer (engineUnit engine).1 (engineUnit engine).2) true }

/-- HOLD_RELEASE (R182): a consumer's completion releases one hold. -/
def execHoldRelease (who : Sender) (mark : Nat) (s : State) : Result := .next (s.releaseHold (Sender.stamp who) mark)

/-- FIR_RESEND (R191): a stream that is still not NORMAL a second after its record with ENTERED, and each second after. -/
def execFirResend (ctx : Nat) (s : State) : Result :=
  match (s.codec ctx).asked with
  | none => .next s
  | some c =>
    if s.passed c secCycles && s.ctxField ctx 0x20 1 != 1 then
      .next ({ s with codecs := SMap.set Codec.init s.codecs ctx { s.codec ctx with asked := some s.cycle } }.emit (.firmware 4 [ctx]))
    else .next s

end Sys2Proof.Machine
end

