-- ==== Sys2Proof/Machine/Handover.lean ====
section
/-! DEFINITION. The relay's handover of access units to the scheduler (spec/01_architecture.md, R42; spec/05_video_decode.md, R175;
spec/13_scheduler_updraft.md, R436). -/

namespace Sys2Proof.Machine

open Sys2Proof

/-! ### From RTP payloads to an access unit (R175) -/

/-- A packet in its place by sequence number, `base` being the number of the first to arrive. -/
def seqInsert (base : Nat) (p : MediaPkt) : List MediaPkt → List MediaPkt
  | [] => [p]
  | q :: qs => if (p.seq + 98304 - base) % 65536 < (q.seq + 98304 - base) % 65536 then p :: q :: qs else q :: seqInsert base p qs

/-- The packets of a unit in serial order of their sequence numbers. -/
def seqSort (ps : List MediaPkt) : List MediaPkt := ps.foldl (fun l p => seqInsert ((ps.map MediaPkt.seq).headD 0) p l) []

/-- What has been read of an access unit: its complete NAL units or OBUs, the one whose fragments are being joined, the sequence number
expected next, and whether anything is missing. -/
structure Joined where
  units : List (List Byte)
  cur   : Option (List Byte)
  next  : Option Nat
  gap   : Bool
  deriving DecidableEq, Repr

/-- A unit that has begun and not ended is left out. -/
def Joined.cut (j : Joined) : Joined := { j with cur := none, gap := j.gap || j.cur.isSome }

/-- A complete unit. -/
def Joined.add (j : Joined) (u : List Byte) : Joined := { j with units := j.units ++ [u] }

/-- A fragment: it starts a unit, goes on with it, or is left out where the start is missing. -/
def Joined.part (j : Joined) (start : Option (List Byte)) (body : List Byte) (last : Bool) : Joined :=
  let cur := match start with
    | some h => some (h ++ body)
    | none => j.cur.map fun c => c ++ body
  let j := match start with
    | some _ => j.cut
    | none => j
  match cur with
  | none => { j with gap := true }
  | some c => if last then { j with cur := none, units := j.units ++ [c] } else { j with cur := some c }

/-- The payload of an H.264 packet (RFC 6184: single NAL unit, STAP-A, FU-A). -/
def Joined.h264 (j : Joined) (p : List Byte) : Joined :=
  let b := (p.headD 0).toNat
  let f := (p.getD 1 0).toNat
  if b % 32 = 28 then
    j.part (if f.testBit 7 then some [BitVec.ofNat 8 (b / 32 * 32 + f % 32)] else none) (p.drop 2) (f.testBit 6)
  else if b % 32 = 24 then (aggregated p.length (p.drop 1)).foldl Joined.add j.cut
  else if 1 ≤ b % 32 && b % 32 ≤ 23 then j.cut.add p
  else j.cut

/-- The payload of an H.265 packet (RFC 7798: single NAL unit, AP, FU). -/
def Joined.h265 (j : Joined) (p : List Byte) : Joined :=
  let b := (p.headD 0).toNat
  let f := (p.getD 2 0).toNat
  let ty := b / 2 % 64
  if ty = 49 then
    j.part (if f.testBit 7 then some [BitVec.ofNat 8 (b / 128 * 128 + f % 64 * 2 + b % 2), p.getD 1 0] else none) (p.drop 3) (f.testBit 6)
  else if ty = 48 then (aggregated p.length (p.drop 2)).foldl Joined.add j.cut
  else if ty < 48 then j.cut.add p
  else j.cut

/-- A number as leb128. -/
def toLeb128 : Nat → Nat → List Byte
  | 0, _ => []
  | fuel + 1, v => if v < 128 then [BitVec.ofNat 8 v] else BitVec.ofNat 8 (v % 128 + 128) :: toLeb128 fuel (v / 128)

/-- An OBU in the low-overhead format, with obu_has_size_field = 1 (R175). -/
def sizedObu (u : List Byte) : List Byte :=
  let b := (u.headD 0).toNat
  let h := if b.testBit 2 then 2 else 1
  if b.testBit 1 then u else BitVec.ofNat 8 (b + 2) :: slice u 1 h ++ toLeb128 8 (u.length - h) ++ u.drop h

/-- The OBU elements of a packet; `w` is how many there are, 0 where each has its length. -/
def obuElements : Nat → Nat → List Byte → List (List Byte)
  | 0, _, _ => []
  | fuel + 1, w, p =>
    if p.isEmpty then []
    else if w = 1 then [p]
    else
      match leb128 8 p with
      | none => []
      | some (v, n) => slice p n (n + v) :: obuElements fuel (w - 1) (p.drop (n + v))

/-- The elements of an AV1 packet: the first goes on with an OBU where `z`, the last is unfinished where `y`. -/
def Joined.elements (j : Joined) (z y : Bool) : List (List Byte) → Joined
  | [] => j
  | [e] => j.part (if z then none else some []) e (!y)
  | e :: es => (j.part (if z then none else some []) e true).elements false y es

/-- The payload of an AV1 packet: the aggregation header with Z, Y and W, and its elements. -/
def Joined.av1 (j : Joined) (p : List Byte) : Joined :=
  let b := (p.headD 0).toNat
  j.elements (b.testBit 7) (b.testBit 6) (obuElements p.length (b / 16 % 4) (p.drop 1))

/-- A packet of the unit: where its predecessor is missing, what has begun is left out and the unit has a gap (R42, R175). -/
def Joined.packet (codec : Nat) (j : Joined) (p : MediaPkt) : Joined :=
  let j := if j.next = none || j.next = some p.seq then j else { j.cut with gap := true }
  let j := { j with next := some ((p.seq + 1) % 65536) }
  if codec = 3 then j.av1 p.payload else if codec = 2 then j.h265 p.payload else j.h264 p.payload

/-- An access unit of packets in order, `next` being the sequence number after the stream's last unit. -/
def joinUnit (codec : Nat) (next : Option Nat) (ps : List MediaPkt) : Joined :=
  (ps.foldl (Joined.packet codec) ⟨[], none, next, false⟩).cut

/-- A unit that a new timestamp ended has a gap where packets before the one that brought it are missing (R42). Whose they were is not known: the
next unit has the gap too (log entry 114). -/
def Joined.endsBefore (j : Joined) (until_ : Option Nat) : Joined :=
  match j.next, until_ with
  | some n, some u => { j with gap := j.gap || seqAfter u n }
  | _, _ => j

/-- The payload of an access unit (R175): NAL units after their 4-octet lengths, or sized OBUs. -/
def unitPayload (codec : Nat) (us : List (List Byte)) : List Byte :=
  us.flatMap fun u => if codec = 3 then sizedObu u else natToOs 4 u.length ++ u

/-! ### Cells (R102, R175) -/

/-- Octets in parts of a cell's size. -/
def cellParts : Nat → List Byte → List (List Byte)
  | 0, _ => []
  | fuel + 1, l => if l.isEmpty then [] else l.take 65536 :: cellParts fuel (l.drop 65536)

/-- Free cells that the relay took. -/
def State.releaseAll (s : State) (ps : List Nat) : State := ps.foldl State.release s

/-- Put each part into an HBM cell: the cells, or nothing, with those taken returned. -/
def State.fillCells (s : State) (taken : List Nat) : List (List Byte) → State × Option (List Nat)
  | [] => (s, some taken)
  | b :: bs =>
    match s.allocCell (.fixed 0) 0 b.length .media false true with
    | (t, .cell p) => (t.setBytes p b).fillCells (taken ++ [p]) bs
    | (t, _) => (t.releaseAll taken, none)

/-- The access-unit descriptor (R175), with its segment table behind it. -/
def unitDescriptor (tpl : DecodeTemplate) (at_ : Nat) (j : Joined) (first : Option MediaPkt) (segs : List (Nat × Nat)) : List Byte :=
  leBytes 8 tpl.ctx ++ leBytes 8 (at_ + 64) ++ leBytes 2 segs.length ++ leBytes 2 (bnat j.gap) ++
    leBytes 4 (segs.foldl (fun (n : Nat) (e : Nat × Nat) => n + e.2) 0) ++ leBytes 4 ((first.map MediaPkt.ts).getD 0) ++
    leBytes 4 ((first.map MediaPkt.arrival).getD 0) ++ leBytes 8 tpl.out ++ leBytes 1 tpl.consumers ++ List.replicate 23 0 ++
    segs.flatMap fun (e : Nat × Nat) => leBytes 8 e.1 ++ leBytes 4 e.2 ++ leBytes 4 0

/-- The descriptor of the DECODE task (R427, R436). -/
def State.decodeTask (s : State) (tpl : DecodeTemplate) (at_ : Nat) : List Byte :=
  [1, BitVec.ofNat 8 (tpl.prio + 8 * bnat tpl.visible), BitVec.ofNat 8 tpl.eclass, 0] ++ leBytes 4 (s.descTs + tpl.offset) ++
    leBytes 4 tpl.work ++ leBytes 2 tpl.cq ++ leBytes 6 0 ++ leBytes 4 tpl.user ++ List.replicate 40 0 ++ leBytes 8 at_ ++
    List.replicate 56 0

/-- Create, link and arm the DECODE task of a unit in its cells, and tell vendor firmware its TASK_ID (R436). -/
def State.createDecode (s : State) (stream at_ : Nat) (cells : List Nat) (tpl : DecodeTemplate) : State :=
  let r := s.createTask (s.decodeTask tpl at_)
  if r.2.1 = St.ok then
    let id := r.2.2
    let s := (r.1.linkTasks (SMap.get 0 r.1.rly.lastTask stream) id false).1
    let s := s.withRly fun y => { y with lastTask := SMap.set 0 y.lastTask stream id }
    (s.armTask id).1.emit (.firmware 6 [stream, id])
  else
    let s := r.1.releaseAll cells
    if r.2.1 = St.htsFull then s.withRly fun y => { y with auDrop := y.auDrop + 1 } else s

/-- AU_HANDOVER (R42, R436): the oldest complete unit goes to the scheduler; one whose stream has no decode context goes to vendor
firmware as its packets' payloads. -/
def execAuHandover (tpl : Option DecodeTemplate) (s : State) : Result :=
  match s.rly.units with
  | [] => .next s
  | u :: us =>
    let s := s.withRly fun y => { y with units := us }
    let ps := seqSort u.packets
    match tpl with
    | none => .next (s.emitAll (ps.map fun p => .firmware 7 ([u.stream, p.leg, p.seq, p.ts, p.arrival] ++ p.payload.map BitVec.toNat)))
    | some t =>
      let codec := (s.byte t.ctx).toNat
      let j := (joinUnit codec (SMap.get none s.rly.lastSeq u.stream) ps).endsBefore u.until_
      let s := s.withFw fun y => { y with streamCtx := SMap.set 0 y.streamCtx u.stream t.ctx }
      let data := unitPayload codec j.units
      if data.isEmpty then .next s
      else
        let s := s.withRly fun y => { y with lastSeq := SMap.set none y.lastSeq u.stream j.next }
        let parts := cellParts data.length data
        match s.fillCells [] parts with
        | (s, none) => .next s
        | (s, some cells) =>
          match s.allocCell (.fixed 0) 0 (64 + 16 * cells.length) .media false true with
          | (s, .cell d) =>
            let s := s.setBytes d (unitDescriptor t d j ps.head? (cells.zip (parts.map List.length)))
            .next (s.createDecode u.stream d (d :: cells) t)
          | (s, _) => .next (s.releaseAll cells)

end Sys2Proof.Machine
end

