-- ==== Sys2Proof/Machine/OutputStream.lean ====
section
/-! DEFINITION. The packets that the device makes for an output stream (spec/06_compose_encode.md, R225; spec/08_audio_mix.md, R268, R288). -/

namespace Sys2Proof.Machine

open Sys2Proof

/-- The FCT result of a packet of an output stream: FORWARD, its stream and its egress class (R67, R268). -/
def outputEntry (stream cls : Nat) : List Byte :=
  List.replicate 0x32 0 ++ leBytes 2 stream ++ [0, 1, 0, 0, 0, 0, 0, BitVec.ofNat 8 cls, 0, 0, 0, 0]

/-- What stands for the ingress port of a packet that the device makes itself: no media port, so that its order is its own (R41). -/
def innerPort : Nat := 9

/-- An RTP packet of an output stream enters the relay, which replicates and encrypts it (R225, R268). -/
def State.injectRtp (s : State) (stream cls : Nat) (rtp : List Byte) : State :=
  let id := s.rly.nextId
  let p : RxPacket := ⟨id, innerPort, rtp, rtp.length, s.descTs, s.cycle % 2 ^ 32, s.get R.TIM_STATUS_EPOCH, 0, 0, [], 0, outputEntry stream cls,
    0, rtp.length, noCell, true, true, .media, 0, rtp, none⟩
  (s.withRly fun r => { r with nextId := id + 1 }).enterRelay p

/-- Fabric cycles of a mix frame (R276). -/
def mixFrameCycles : Nat := 15000000

/-- Whether T_F + 10 ms has passed for a mix frame that has begun (R288). -/
def State.frameLate (s : State) (frame : Nat) : Bool :=
  frame < s.mxm.began && s.passed (s.mxm.tf - (s.mxm.began - 1 - frame) * mixFrameCycles) mixFrameCycles

/-- The status of a kernel's task (R288): an encoded frame that comes too late ends in AUD_FRAME_LATE. -/
def State.reportStatus (s : State) (r : KernelReport) (status : Nat) : Nat :=
  match r with
  | .encoded _ frame _ => if status = St.ok && s.frameLate frame then St.audFrameLate else status
  | _ => status

/-- What a kernel that ends its task with a status hands over (R268, R269): an encoded frame goes to the relay as one packet of its output
stream, in egress class 1; the packets that a decode found late are counted in JB_LATE. -/
def State.handReport (s : State) (r : KernelReport) (status : Nat) : State :=
  match r with
  | .none => s
  | .encoded stream _ rtp => if status = St.ok then s.injectRtp stream.toNat 1 rtp else s
  | .decoded leg late => s.setObj 0x602007 leg 0 ((s.obj 0x602007 leg 0 + late) % 2 ^ 32)

end Sys2Proof.Machine
end

