-- ==== Sys2Proof/Machine/Flags.lean ====
section
/-! DEFINITION. The flags of the audio DSP cores (R299) and the arithmetic that sets them (R303 to R305, R311). -/

namespace Sys2Proof.Machine

open Sys2Proof

/-- Z, N, V and C as STATUS holds them in bits 0 to 3 (R299). -/
def nzvcCode (z n v c : Bool) : Nat := bnat z + 2 * bnat n + 4 * bnat v + 8 * bnat c

/-- Z and N of a 32-bit result, with V and C given. -/
def flagsOf (r : Word) (v c : Bool) : Nat := nzvcCode (r == 0) r.msb v c

/-- The least and the greatest signed 32-bit number. -/
def fits32 (x : Int) : Bool := -2147483648 ≤ x && x ≤ 2147483647

/-- A number as 32 bits: held at the end of the range by sign where `sat` says so and it does not fit, else its low bits. -/
def narrow (sat : Bool) (x : Int) : Word :=
  if fits32 x then BitVec.ofInt 32 x
  else if sat then (if 0 ≤ x then 0x7FFFFFFF else 0x80000000)
  else BitVec.ofInt 32 x

/-- What an ALU operation gives: the result, its flags, and whether a saturating operation clipped. -/
structure AluOut where
  result : Word
  flags  : Nat
  clip   : Bool
  deriving DecidableEq, Repr

/-- An exact signed result narrowed, with V where it does not fit, C given, and the clip of a saturating operation (R299). -/
def aluExact (sat : Bool) (x : Int) (c : Bool) : AluOut :=
  let r := narrow sat x
  ⟨r, flagsOf r (!fits32 x) c, sat && !fits32 x⟩

/-- ADD: C is the carry out of bit 31. -/
def aluAdd (sat : Bool) (x y : Word) : AluOut := aluExact sat (x.toInt + y.toInt) (2 ^ 32 ≤ x.toNat + y.toNat)

/-- SUB, CMP: the sense of C is not given, so it is the free bit `c`. -/
def aluSub (sat : Bool) (x y : Word) (c : Bool) : AluOut := aluExact sat (x.toInt - y.toInt) c

/-- A result for which V and C are not given: they are the free bits `v` and `c`. -/
def aluPlain (r : Word) (v c : Bool) : AluOut := ⟨r, flagsOf r v c, false⟩

/-- ASH by a signed amount, to the left when positive: V where the exact product of a left shift does not fit. -/
def aluAsh (x : Word) (n : Int) (c : Bool) : AluOut :=
  if 0 ≤ n then aluExact false (x.toInt * 2 ^ n.toNat) c
  else let r := x.sshiftRight (-n).toNat; ⟨r, flagsOf r false c, false⟩

/-- LSH by a signed amount, to the left when positive. -/
def aluLsh (x : Word) (n : Int) (v c : Bool) : AluOut :=
  aluPlain (if 0 ≤ n then x <<< n.toNat else x >>> (-n).toNat) v c

/-! ### Accumulators (R303 to R305) -/

/-- The product of two registers, shifted left one place with FRAC (R303). -/
def product (frac : Bool) (x y : Word) : Int := x.toInt * y.toInt * (if frac then 2 else 1)

/-- Whether a number lies in the 72-bit signed range. -/
def fits72 (x : Int) : Bool := -(2 ^ 71) ≤ x && x < 2 ^ 71

/-- A number in an accumulator: it wraps modulo 2^72, and AOV where it does not fit (R305). -/
def toAcc (x : Int) : BitVec 72 × Bool := (BitVec.ofInt 72 x, !fits72 x)

/-- RND (R304): the 32 bits of an accumulator, and whether they were clipped. -/
def roundAcc (frac : Bool) (a : BitVec 72) : Word × Bool :=
  let v := if frac then (a.toInt + 2147483648) / 4294967296 else a.toInt
  (narrow true v, !fits32 v)

/-- ACCSH by −63 to +8 (R311). -/
def shiftAcc (a : BitVec 72) (n : Int) : Int := if 0 ≤ n then a.toInt * 2 ^ n.toNat else a.toInt / 2 ^ (-n).toNat

end Sys2Proof.Machine
end

