-- ==== Sys2Proof/Machine/Operands.lean ====
section
/-! DEFINITION. The operand forms of the audio DSP cores: registers (R298), address generation (R300 to R302) and the local
address space (R294, R332). -/

namespace Sys2Proof.Machine

open Sys2Proof

/-! ### Registers (R298) -/

/-- A DSP core. -/
def State.core (s : State) (c : Nat) : DspCore := SMap.get DspCore.init s.dsp c

/-- The state with a core replaced. -/
def State.setCore (s : State) (c : Nat) (k : DspCore) : State := { s with dsp := SMap.set DspCore.init s.dsp c k }

/-- An accumulator. -/
def DspCore.accum (k : DspCore) (n : Nat) : BitVec 72 := SMap.get 0 k.acc n

/-- The core with an accumulator replaced. -/
def DspCore.setAccum (k : DspCore) (n : Nat) (v : BitVec 72) : DspCore := { k with acc := SMap.set 0 k.acc n v }

/-- A data register. -/
def DspCore.dreg (k : DspCore) (n : Nat) : Word := SMap.get 0 k.d n

/-- STATUS without its reserved bits, which read as 0 (R299). -/
def statusMask (v : Nat) : Nat := v % 512 + v / 4096 % 16 * 4096

/-- What a register reads as: ACCnG sign-extended, narrower ones zero-extended (R298, R311). -/
def DspCore.read (k : DspCore) : DspReg → Word
  | .d n => k.dreg n
  | .accL n => (k.accum n).setWidth 32
  | .accH n => (k.accum n >>> 32).setWidth 32
  | .accG n => ((k.accum n >>> 64).setWidth 8).signExtend 32
  | .a n => SMap.get 0 k.a n
  | .m n => SMap.get 0 k.m n
  | .l n => SMap.get 0 k.l n
  | .b n => SMap.get 0 k.b n
  | .amode => BitVec.ofNat 32 k.amode
  | .lps n => BitVec.ofNat 32 (SMap.get 0 k.lps n)
  | .lpe n => BitVec.ofNat 32 (SMap.get 0 k.lpe n)
  | .lpc n => SMap.get 0 k.lpc n
  | .lr => BitVec.ofNat 32 k.lr
  | .status => BitVec.ofNat 32 k.status
  | .ipc => BitVec.ofNat 32 k.ipc
  | .istat => BitVec.ofNat 32 k.istat

/-- The core after a write of a register: ACCnH sign-extends into ACCnG (R311), narrower ones take their low bits. -/
def DspCore.write (k : DspCore) (r : DspReg) (v : Nat) : DspCore :=
  let w := BitVec.ofNat 32 v
  match r with
  | .d n => { k with d := SMap.set 0 k.d n w }
  | .accL n => k.setAccum n (((k.accum n >>> 32).setWidth 40 ++ w).setWidth 72)
  | .accH n => k.setAccum n ((w.signExtend 40 ++ (k.accum n).setWidth 32).setWidth 72)
  | .accG n => k.setAccum n ((w.setWidth 8 ++ (k.accum n).setWidth 64).setWidth 72)
  | .a n => { k with a := SMap.set 0 k.a n w }
  | .m n => { k with m := SMap.set 0 k.m n w }
  | .l n => { k with l := SMap.set 0 k.l n w }
  | .b n => { k with b := SMap.set 0 k.b n w }
  | .amode => { k with amode := v % 65536 }
  | .lps n => { k with lps := SMap.set 0 k.lps n (v % 8192) }
  | .lpe n => { k with lpe := SMap.set 0 k.lpe n (v % 8192) }
  | .lpc n => { k with lpc := SMap.set 0 k.lpc n w }
  | .lr => { k with lr := v % 8192 }
  | .status => { k with status := statusMask v }
  | .ipc => { k with ipc := v % 8192 }
  | .istat => { k with istat := statusMask v }

/-- The value of a second operand. -/
def DspCore.opnd (k : DspCore) : Opnd → Word
  | .reg n => k.dreg n
  | .imm v => v

/-- FRAC (R299). -/
def DspCore.frac (k : DspCore) : Bool := k.status.testBit 6

/-- SAT (R299). -/
def DspCore.sat (k : DspCore) : Bool := k.status.testBit 7

/-- IE (R299). -/
def DspCore.ie (k : DspCore) : Bool := k.status.testBit 8

/-- LACT (R299). -/
def DspCore.lact (k : DspCore) (n : Nat) : Bool := k.status.testBit (12 + n)

/-! ### Kernel faults (R327, R328) -/

/-- The causes of a kernel fault. -/
inductive KfCause where
  | addr | align | illegal | loop | stack | code | watchdog
  deriving DecidableEq, Repr

/-- The code of a cause. -/
def kfCode : KfCause → Nat
  | .addr => 1
  | .align => 2
  | .illegal => 3
  | .loop => 4
  | .stack => 5
  | .code => 6
  | .watchdog => 7

/-- What an instruction gives: its part of the bundle, or a kernel fault with its address. -/
inductive Issued where
  | ok (b : Bundle)
  | fault (c : KfCause) (addr : Nat)
  deriving DecidableEq, Repr

/-! ### Address generation (R300 to R302) -/

/-- The mode of an address register. -/
def DspCore.modeOf (k : DspCore) (n : Nat) : Nat := k.amode / 4 ^ n % 4

/-- `k` bits of a number in reverse. -/
def reverseBits : Nat → Nat → Nat
  | 0, _ => 0
  | k + 1, n => n % 2 * 2 ^ k + reverseBits k (n / 2)

/-- The number k of Ln = 4 × 2^k for a bit-reversed update, if it is allowed (R302). -/
def reversedSize (l : Nat) : Option Nat := (List.range 17).find? fun k => 1 ≤ k && l == 4 * 2 ^ k

/-- An address register updated by a modifier under its mode, or the kernel fault of the update (R300 to R302). -/
def DspCore.update (k : DspCore) (n m : Nat) : Except KfCause Word :=
  let a : Word := SMap.get 0 k.a n
  let md : Word := SMap.get 0 k.m m
  let b : Word := SMap.get 0 k.b n
  let l := (SMap.get (0 : Word) k.l n).toNat
  match k.modeOf n with
  | 0 => .ok (a + md)
  | 1 =>
    if l = 0 || l % 4 != 0 then .error .addr
    else
      let t := (a.toNat : Int) - b.toNat + md.toInt
      let t := if (l : Int) ≤ t then t - l else if t < 0 then t + l else t
      if t < 0 || (l : Int) ≤ t then .error .addr else .ok (b + BitVec.ofInt 32 t)
  | 2 =>
    match reversedSize l with
    | none => .error .addr
    | some w =>
      let off := (a - b).toNat / 4 % 2 ^ w
      let mw := (md.toInt / 4 % (2 ^ w : Nat)).toNat
      let sum := (reverseBits w off + reverseBits w mw) % 2 ^ w
      .ok (b + BitVec.ofNat 32 (4 * reverseBits w sum))
  | _ => .error .illegal

/-- The address of a move and the update it makes of its address register (R300). -/
def DspCore.address (k : DspCore) : DspAddr → Except KfCause (Nat × List (DspReg × Nat))
  | .post a m =>
    match k.update a m with
    | .ok v => .ok ((SMap.get (0 : Word) k.a a).toNat, [(.a a, v.toNat)])
    | .error c => .error c
  | .index a imm => .ok ((SMap.get (0 : Word) k.a a + imm.signExtend 32).toNat, [])

/-- The address register of a move. -/
def baseReg : DspAddr → Nat
  | .post a _ => a
  | .index a _ => a

/-! ### Local memory (R294, R297, R332) -/

/-- Whether a local address lies in data memory, TASKBOX included. -/
def inData (a : Nat) : Bool := a < 0x40000

/-- Whether it lies in the cluster's shared memory. -/
def inShared (a : Nat) : Bool := 0x100000 ≤ a && a < 0x300000

/-- Whether a word at a local address is a register of the core control space (R332). -/
def isControl (a : Nat) : Bool :=
  (0x400000 ≤ a && a < 0x400080 && (a % 32 == 0 || a % 32 == 4)) || a == 0x400100 || a == 0x400104 || a == 0x400108

/-- Whether `n` octets at a local address may be accessed: memory, or one register (R294). -/
def localOk (a n : Nat) : Bool :=
  (inData a && inData (a + n - 1)) || (inShared a && inShared (a + n - 1)) || (n == 4 && isControl a)

/-- An octet of a core's data memory or of its cluster's shared memory. -/
def State.localByte (s : State) (c a : Nat) : Byte :=
  if inShared a then SMap.get 0 (SMap.get [] s.dspShared (c / 16)) a else SMap.get 0 (s.core c).data a

/-- The state with an octet of local memory stored. -/
def State.setLocalByte (s : State) (c a : Nat) (v : Byte) : State :=
  if inShared a then
    { s with dspShared := SMap.set [] s.dspShared (c / 16) (SMap.set 0 (SMap.get [] s.dspShared (c / 16)) a v) }
  else if inData a then
    let k := s.core c
    s.setCore c { k with data := SMap.set 0 k.data a v }
  else s

/-- Octets of local memory. -/
def State.localBytes (s : State) (c a n : Nat) : List Byte := (List.range n).map fun i => s.localByte c (a + i)

/-- The state with octets of local memory stored. -/
def State.setLocalBytes (s : State) (c a : Nat) : List Byte → State
  | [] => s
  | b :: bs => (s.setLocalByte c a b).setLocalBytes c (a + 1) bs

/-- A DMA channel of a core. -/
def DspCore.chan (k : DspCore) (n : Nat) : DmaChannel := SMap.get DmaChannel.init k.dma n

/-- The core with a DMA channel replaced. -/
def DspCore.setChan (k : DspCore) (n : Nat) (d : DmaChannel) : DspCore := { k with dma := SMap.set DmaChannel.init k.dma n d }

/-- What a register of the control space reads as (R332). -/
def State.controlRead (s : State) (c a : Nat) : Nat :=
  let k := s.core c
  if a = 0x400100 then (match k.timer with | some t => t - s.cycle | none => 0)
  else if a = 0x400104 then k.imask
  else if a = 0x400108 then k.ipend
  else if a % 32 = 4 then
    let d := k.chan ((a - 0x400000) / 32)
    bnat d.desc.isSome + 2 * bnat d.done + 4 * bnat d.err + 8 * d.cause
  else 0

/-- A source of interrupts of a core becomes pending (R318). -/
def State.coreIrq (s : State) (c n : Nat) : State :=
  let k := s.core c
  if k.ipend.testBit n then s else s.setCore c { k with ipend := setBit k.ipend n, raised := SMap.insert k.raised n s.cycle }

/-- Start a DMA channel, or set ERR with cause 5 while it is busy (R316, R317). -/
def State.startDma (s : State) (c n desc : Nat) : State :=
  let k := s.core c
  let d := k.chan n
  if d.desc.isSome then (s.setCore c (k.setChan n { d with err := true, cause := 5 })).coreIrq c 2
  else s.setCore c (k.setChan n { d with desc := some (desc % 2 ^ 18) })

/-- A write of a register of the control space (R332). -/
def State.controlWrite (s : State) (c a v : Nat) : State :=
  let k := s.core c
  if a = 0x400100 then s.setCore c { k with timer := if v = 0 then none else some (s.cycle + v) }
  else if a = 0x400104 then s.setCore c { k with imask := v % 256 }
  else if a = 0x400108 then s.setCore c { k with ipend := (List.range 8).foldl (fun p i => if v.testBit i then clearBit p i else p) k.ipend }
  else
    let n := (a - 0x400000) / 32
    if a % 32 = 0 then s.startDma c n v
    else
      let d := k.chan n
      s.setCore c (k.setChan n { d with done := d.done && !v.testBit 1, err := d.err && !v.testBit 2 })

/-- A load of `n` octets from a local address: a little-endian number (R9, R296). -/
def State.localRead (s : State) (c a n : Nat) : Nat := if isControl a then s.controlRead c a else leVal (s.localBytes c a n)

/-- A store to a local address. -/
def State.localWrite (s : State) (c a : Nat) (bs : List Byte) : State :=
  if isControl a then s.controlWrite c a (leVal bs) else s.setLocalBytes c a bs

end Sys2Proof.Machine
end

