-- ==== Sys2Proof/Machine/Dsp.lean ====
section
/-! DEFINITION. The audio DSP cores (spec/09_dsp_cores.md, R293 to R332): bundles, instructions, loops, tasks, interrupts and
the watchdog. The spec gives no encodings: each instruction comes as a command that names its core and slot, the last of a
bundle ending it. -/

namespace Sys2Proof.Machine

open Sys2Proof

/-! ### Core states (R293, R331) -/

/-- Whether a core is enabled (R330). -/
def State.coreEnabled (s : State) (c : Nat) : Bool := s.unitEnabled 4 c

/-- The CORE_STAT STATE of a core (R331). -/
def DspCore.stateCode (k : DspCore) : Nat :=
  if k.halted then 6
  else match k.mode with
    | .disabled => 0
    | .take => 1
    | .run => 2
    | .handler => 3
    | .selftest => 4
    | .fenced => 5

/-- Whether a core issues instructions: it runs, is not halted (or runs one bundle for STEP), and does not wait in DONE. -/
def DspCore.issues (k : DspCore) : Bool :=
  (k.mode == .run || k.mode == .handler) && (!k.halted || k.oneStep) && k.doneSt.isNone

/-- Whether the boundary a core stands at is open (R319). -/
def DspCore.openBoundary (k : DspCore) : Bool := k.bundle == Bundle.empty && k.delay == 0 && !k.loaded && k.doneSt.isNone

/-- A core back in the runtime with its registers reset; its memories, kernels, timer, interrupts and channels stay. -/
def DspCore.restart (k : DspCore) : DspCore :=
  { k with mode := .run, d := [], acc := [], a := [], m := [], l := [], b := [], amode := 0, lps := [], lpe := [], lpc := [], lr := 0,
           status := 0, ipc := 0, istat := 0, pc := 0, bundle := Bundle.empty, flight := [], delay := 0, target := none, rti := false,
           nest := 0, loaded := false, doneSt := none }

/-- A core whose enable bits changed: it starts in the runtime, or stops once it holds no task (R330). -/
def State.settleCore (s : State) (c : Nat) : State :=
  let k := s.core c
  if k.mode = .fenced then s
  else if s.coreEnabled c then (if k.mode = .disabled then s.setCore c k.restart else s)
  else if k.task.isNone && k.mode != .selftest && (s.runningOn 4 c).isNone then s.setCore c { k with mode := .disabled, bundle := Bundle.empty }
  else s

/-- The stamp of a DSP core (R498). -/
def coreStamp (c : Nat) : Nat := 0x2000 + c

/-- The core's task completes with a status (R314, R435). -/
def State.completeCoreTask (s : State) (c status : Nat) : State :=
  match s.runningOn 4 c with
  | some (n, _) => (s.count (R.C_CORE_TASKS (c / 16) (c % 16))).unitComplete n status (coreStamp c) []
  | none => s

/-- KERNEL_FAULTS of a kernel (R333). -/
def State.bumpKernelFaults (s : State) (kernel : Nat) : State :=
  s.bumpObj 0x610202 kernel

/-- A kernel fault (R327): cause, PC and address are latched, the task completes with the kernel-fault code, the fault is
counted and logged, and the core returns to the runtime with its registers reset. -/
def State.kernelFault (s : State) (c : Nat) (cause : KfCause) (addr : Nat) : State :=
  let k := s.core c
  let s := (s.put (R.CORE_KF_CAUSE_CAUSE (c / 16) (c % 16)) (kfCode cause)).put (R.CORE_KF_CAUSE_PC (c / 16) (c % 16)) k.pc
  let s := if cause = .addr || cause = .align then s.put (R.CORE_KF_ADDR_ADDR (c / 16) (c % 16)) addr else s
  let s := s.count (R.C_CORE_KFAULTS (c / 16) (c % 16))
  let s := match k.task with | some (_, kern) => s.bumpKernelFaults kern | none => s
  let kern := match k.task with | some (_, kern) => kern | none => s.free 256
  let s := s.spent.log Unit.dsc c Sev.warn Ev.kernelFault (kfCode cause) (k.pc % 8192 + kern * 65536)
  let s := (s.setCore c { k.restart with task := none, attempt := 1 }).completeCoreTask c St.htsKernelFault
  s.settleCore c

/-! ### Bundles (R295, R306 to R310) -/

/-- Write registers in order. -/
def DspCore.writes (k : DspCore) : List (DspReg × Nat) → DspCore
  | [] => k
  | (r, v) :: l => (k.write r v).writes l

/-- Whether a register is written twice by a list. -/
def repeated (r : DspReg) (l : List (DspReg × Nat)) : Bool := 2 ≤ (l.filter fun e => e.1 == r).length

/-- The move-slot writes that land at a boundary: of a register that two of them write, the value is the free number `v`,
which the spec leaves open; the compute slot's own writes come after. -/
def settleMoves (v : Nat) (l : List (DspReg × Nat)) : List (DspReg × Nat) := l.map fun e => if repeated e.1 l then (e.1, v) else e

/-- STATUS after the flags of a bundle (R299). -/
def Bundle.newStatus (b : Bundle) (st : Nat) : Nat :=
  let st := match b.nzvc with | some f => st - st % 16 + f | none => st
  let st := if b.satd && !st.testBit 4 then st + 16 else st
  let st := if b.aov && !st.testBit 5 then st + 32 else st
  b.lact.foldl (fun v e => if e.2 then setBit v (12 + e.1) else clearBit v (12 + e.1)) st

/-- The core after the writes that land at the end of its bundle (R306). -/
def DspCore.land (k : DspCore) (free : Nat) : DspCore :=
  let b := k.bundle
  let k := (k.writes (settleMoves free (k.flight ++ b.moves))).writes b.writes
  let k := b.accs.foldl (fun k e => k.setAccum e.1 (BitVec.ofNat 72 e.2)) k
  { k with status := b.newStatus k.status, flight := b.loads }

/-- The loop levels evaluated at the end of a bundle, highest first: where the next bundle is, if a level repeats or ends
here (R309). -/
def DspCore.loops (k : DspCore) : List Nat → DspCore × Option Nat
  | [] => (k, none)
  | n :: ns =>
    if k.lact n && SMap.get 0 k.lpe n == k.pc then
      let left : Word := SMap.get (0 : Word) k.lpc n - 1
      let k := { k with lpc := SMap.set 0 k.lpc n left }
      if left != 0 then (k, some (SMap.get 0 k.lps n))
      else
        let r := ({ k with status := clearBit k.status (12 + n) } : DspCore).loops ns
        (r.1, some (r.2.getD ((k.pc + 1) % 8192)))
    else k.loops ns

/-- Whether the bundle ends an active level (R310). -/
def DspCore.atLoopEnd (k : DspCore) : Bool := (List.range 4).any fun n => k.lact n && SMap.get 0 k.lpe n == k.pc

/-- The next bundle after the present one ends (R307 to R309): past the last delay slot the branch's target, else where the
loops lead, else past a loop of count 0, else the next bundle. -/
def DspCore.advance (k : DspCore) (b : Bundle) : DspCore :=
  let r := k.loops [3, 2, 1, 0]
  let k := r.1
  let seq := match b.skip with | some t => t | none => r.2.getD ((k.pc + 1) % 8192)
  if b.branch then { k with pc := seq, delay := 2, target := b.target, rti := b.rti }
  else if k.delay = 2 then { k with pc := seq, delay := 1 }
  else if k.delay = 1 then
    let k := { k with delay := 0, pc := k.target.getD seq, target := none }
    if k.rti then
      let nest := k.nest - 1
      { k with rti := false, pc := k.ipc, status := k.istat, nest := nest, mode := if nest = 0 then .run else .handler }
    else k
  else { k with pc := seq }

/-- Store what a bundle stores. -/
def State.storeAll (s : State) (c : Nat) : List (Nat × List Byte) → State
  | [] => s
  | (a, bs) :: l => (s.localWrite c a bs).storeAll c l

/-- The kernel of the task that a core holds, where the core stands at its entry (R323, R325). -/
def DspCore.entered (k : DspCore) : Option Kernel :=
  match k.task with
  | some (_, id) => k.kernels.find? fun x => x.id == id && x.entry == k.pc
  | none => none

/-- The end of a kernel's stack, where it starts to grow (R323). -/
def Kernel.stackTop (x : Kernel) : Nat := (x.data + x.bytes) / 8 * 8

/-- The core as the runtime calls a kernel (R323). -/
def DspCore.atEntry (k : DspCore) (x : Kernel) : DspCore :=
  { k with d := [], acc := [], a := SMap.set 0 (SMap.set 0 [] 0 0x3FF00) 7 (BitVec.ofNat 32 x.stackTop), m := [], l := [], b := [], amode := 0,
           lr := 0, status := k.status % 16 + 0x1C0 }

/-- The kernel that the runtime, which is bundles 0 to 511 (R294), calls by the jump that lands at the end of this bundle (R323). -/
def DspCore.called (before after : DspCore) : Option Kernel :=
  if before.delay = 1 && !before.rti && before.pc < 512 then after.entered else none

/-- The end of a core's bundle (R295, R306 to R310, R323, R331). -/
def State.endBundle (s : State) (c : Nat) : State :=
  let k := s.core c
  let b := k.bundle
  let k := k.land (s.free (2 ^ 32))
  let s := s.spent
  if (b.branch && !b.rti || k.delay != 0) && k.atLoopEnd then s.kernelFault c .loop 0
  else
    let n := { k with bundle := Bundle.empty, loaded := !b.loads.isEmpty }.advance b
    let call := k.called n
    let n := match call with | some x => n.atEntry x | none => n
    let n := if n.oneStep || (n.haltReq && n.delay = 0 && !n.loaded) then { n with halted := true, haltReq := false, oneStep := false } else n
    let s := s.setCore c n
    let s := match call with | some x => s.put (R.CORE_SLIM_ADDR (c / 16) (c % 16)) (x.stackTop - x.stack) | none => s
    let s := s.storeAll c b.stores
    let s := b.swi.foldl (fun (s : State) i => s.coreIrq c i) s
    if n.task.isSome && k.mode = .run then s.count (R.C_CORE_TASK_CYCLES (c / 16) (c % 16)) else s

/-- The slots of a bundle. -/
inductive BundleSlot where
  | compute | x | y
  deriving DecidableEq, Repr

/-- The slot of a move. -/
def moveSlot : MoveSlot → BundleSlot
  | .x => .x
  | .y => .y

/-- Whether a slot of a bundle is taken. -/
def Bundle.uses (b : Bundle) : BundleSlot → Bool
  | .compute => b.usedC
  | .x => b.usedX
  | .y => b.usedY

/-- The bundle with a slot taken. -/
def Bundle.mark (b : Bundle) : BundleSlot → Bundle
  | .compute => { b with usedC := true }
  | .x => { b with usedX := true }
  | .y => { b with usedY := true }

/-- An instruction in a slot of a core's bundle: what it gives joins the bundle, whose end follows its last instruction; a
second instruction in one slot is no encoding, an ILLEGAL kernel fault (R295, R311). -/
def State.issue (s : State) (c : Nat) (slot : BundleSlot) (last : Bool) (eff : DspCore → Bundle → Issued) : State :=
  let k := s.core c
  if !k.issues then s
  else if k.bundle.uses slot then s.kernelFault c .illegal 0
  else
    match eff k (k.bundle.mark slot) with
    | .fault f a => s.kernelFault c f a
    | .ok b =>
      let s := s.spent.setCore c { k with bundle := b }
      if last then s.endBundle c else s

/-- A free bit of an issue: flag `i` of those the spec leaves open. -/
def State.freeBit (s : State) (i : Nat) : Bool := (Config.freeValue s.freeCtr).testBit i

/-! ### Moves (R296, R300, R324) -/

/-- A load of `n` registers from register `r` on (R296, R306). -/
def State.loadEff (s : State) (c n r : Nat) (addr : DspAddr) (k : DspCore) (b : Bundle) : Issued :=
  match k.address addr with
  | .error f => .fault f (SMap.get (0 : Word) k.a (baseReg addr)).toNat
  | .ok (a, upd) =>
    if a % (4 * n) != 0 then .fault .align a
    else if !localOk a (4 * n) then .fault .addr a
    else
      let v := s.localRead c a (4 * n)
      .ok { b with moves := b.moves ++ upd,
                   loads := b.loads ++ (List.range n).map fun i => (.d (Fin.ofNat 16 (r + i)), v / 2 ^ (32 * i) % 2 ^ 32) }

/-- A store of `n` registers from register `r` on; a push below CORE_SLIM through A7 is a STACK kernel fault (R296, R324). -/
def State.storeEff (s : State) (c n r : Nat) (addr : DspAddr) (k : DspCore) (b : Bundle) : Issued :=
  match k.address addr with
  | .error f => .fault f (SMap.get (0 : Word) k.a (baseReg addr)).toNat
  | .ok (a, upd) =>
    if a % (4 * n) != 0 then .fault .align a
    else if !localOk a (4 * n) then .fault .addr a
    else if baseReg addr = 7 && a < s.get (R.CORE_SLIM_ADDR (c / 16) (c % 16)) then .fault .stack a
    else
      .ok { b with moves := b.moves ++ upd,
                   stores := b.stores ++ [(a, (List.range n).flatMap fun i => leBytes 4 (k.dreg (r + i)).toNat)] }

/-- LD (R296, R306). -/
def execLd (core : Core) (slot : MoveSlot) (dst : Fin 16) (addr : DspAddr) (last : Bool) (s : State) : Result :=
  .next (s.issue core (moveSlot slot) last (s.loadEff core 1 dst addr))

/-- LD2 (R296, R306). -/
def execLd2 (core : Core) (slot : MoveSlot) (dst : Fin 8) (addr : DspAddr) (last : Bool) (s : State) : Result :=
  .next (s.issue core (moveSlot slot) last (s.loadEff core 2 (2 * dst.val) addr))

/-- A store's effect in its slot: slot Y may only load (R295). -/
def State.storeIn (s : State) (c n r : Nat) (slot : MoveSlot) (addr : DspAddr) (k : DspCore) (b : Bundle) : Issued :=
  match slot with
  | .x => s.storeEff c n r addr k b
  | .y => .fault .illegal 0

/-- ST (R295, R296). -/
def execSt (core : Core) (slot : MoveSlot) (addr : DspAddr) (src : Fin 16) (last : Bool) (s : State) : Result :=
  .next (s.issue core (moveSlot slot) last (s.storeIn core 1 src slot addr))

/-- ST2 (R295, R296). -/
def execSt2 (core : Core) (slot : MoveSlot) (addr : DspAddr) (src : Fin 8) (last : Bool) (s : State) : Result :=
  .next (s.issue core (moveSlot slot) last (s.storeIn core 2 (2 * src.val) slot addr))

/-- The effect of MOD. -/
def modEff (a m : Fin 8) (k : DspCore) (b : Bundle) : Issued :=
  match k.update a m with
  | .error f => .fault f (SMap.get (0 : Word) k.a a).toNat
  | .ok v => .ok { b with moves := b.moves ++ [(.a a, v.toNat)] }

/-- MOD (R300 to R302). -/
def execMod (core : Core) (slot : MoveSlot) (a m : Fin 8) (last : Bool) (s : State) : Result :=
  .next (s.issue core (moveSlot slot) last (modEff a m))

/-! ### ALU operations (R299, R311) -/

/-- A bundle with an ALU result in register `dst`. -/
def Bundle.alu (b : Bundle) (dst : Fin 16) (o : AluOut) : Bundle :=
  { b with writes := b.writes ++ [(.d dst, o.result.toNat)], nzvc := some o.flags, satd := b.satd || o.clip }

/-- ADD. -/
def execAdd (core : Core) (dst x : Fin 16) (y : Opnd) (last : Bool) (s : State) : Result :=
  .next (s.issue core .compute last fun k b => .ok (b.alu dst (aluAdd k.sat (k.dreg x) (k.opnd y))))

/-- SUB. -/
def execSub (core : Core) (dst x : Fin 16) (y : Opnd) (last : Bool) (s : State) : Result :=
  .next (s.issue core .compute last fun k b => .ok (b.alu dst (aluSub k.sat (k.dreg x) (k.opnd y) (s.freeBit 0))))

/-- AND. -/
def execDspAnd (core : Core) (dst x : Fin 16) (y : Opnd) (last : Bool) (s : State) : Result :=
  .next (s.issue core .compute last fun k b => .ok (b.alu dst (aluPlain (k.dreg x &&& k.opnd y) (s.freeBit 1) (s.freeBit 0))))

/-- OR. -/
def execDspOr (core : Core) (dst x : Fin 16) (y : Opnd) (last : Bool) (s : State) : Result :=
  .next (s.issue core .compute last fun k b => .ok (b.alu dst (aluPlain (k.dreg x ||| k.opnd y) (s.freeBit 1) (s.freeBit 0))))

/-- XOR. -/
def execXor (core : Core) (dst x : Fin 16) (y : Opnd) (last : Bool) (s : State) : Result :=
  .next (s.issue core .compute last fun k b => .ok (b.alu dst (aluPlain (k.dreg x ^^^ k.opnd y) (s.freeBit 1) (s.freeBit 0))))

/-- A shift's amount is −31 to +31; an immediate outside is no encoding, and a register outside leaves the result open. -/
def State.shiftEff (s : State) (dst x : Fin 16) (y : Opnd) (f : Word → Int → AluOut) (k : DspCore) (b : Bundle) : Issued :=
  let n := (k.opnd y).toInt
  if -31 ≤ n && n ≤ 31 then .ok (b.alu dst (f (k.dreg x) n))
  else match y with
    | .imm _ => .fault .illegal 0
    | .reg _ => .ok (b.alu dst (aluPlain (BitVec.ofNat 32 (s.free (2 ^ 32))) (s.freeBit 33) (s.freeBit 32)))

/-- ASH. -/
def execAsh (core : Core) (dst x : Fin 16) (y : Opnd) (last : Bool) (s : State) : Result :=
  .next (s.issue core .compute last (s.shiftEff dst x y fun w n => aluAsh w n (s.freeBit 0)))

/-- LSH. -/
def execLsh (core : Core) (dst x : Fin 16) (y : Opnd) (last : Bool) (s : State) : Result :=
  .next (s.issue core .compute last (s.shiftEff dst x y fun w n => aluLsh w n (s.freeBit 1) (s.freeBit 0)))

/-- MIN, of signed numbers. -/
def execMin (core : Core) (dst x : Fin 16) (y : Opnd) (last : Bool) (s : State) : Result :=
  .next (s.issue core .compute last fun k b =>
    .ok (b.alu dst (aluPlain (if (k.dreg x).toInt ≤ (k.opnd y).toInt then k.dreg x else k.opnd y) (s.freeBit 1) (s.freeBit 0))))

/-- MAX, of signed numbers. -/
def execMax (core : Core) (dst x : Fin 16) (y : Opnd) (last : Bool) (s : State) : Result :=
  .next (s.issue core .compute last fun k b =>
    .ok (b.alu dst (aluPlain (if (k.opnd y).toInt ≤ (k.dreg x).toInt then k.dreg x else k.opnd y) (s.freeBit 1) (s.freeBit 0))))

/-- ABS, which saturates when SAT is 1. -/
def execAbs (core : Core) (dst x : Fin 16) (last : Bool) (s : State) : Result :=
  .next (s.issue core .compute last fun k b => .ok (b.alu dst (aluExact k.sat ((k.dreg x).toInt.natAbs : Int) (s.freeBit 0))))

/-- NEG, which saturates when SAT is 1. -/
def execNeg (core : Core) (dst x : Fin 16) (last : Bool) (s : State) : Result :=
  .next (s.issue core .compute last fun k b => .ok (b.alu dst (aluExact k.sat (-(k.dreg x).toInt) (s.freeBit 0))))

/-- CMP: the flags of a difference, which does not saturate. -/
def execCmp (core : Core) (x : Fin 16) (y : Opnd) (last : Bool) (s : State) : Result :=
  .next (s.issue core .compute last fun k b => .ok { b with nzvc := some (aluSub false (k.dreg x) (k.opnd y) (s.freeBit 0)).flags })

/-- ADDA: linear address arithmetic. -/
def execAdda (core : Core) (dst src : Fin 8) (imm : Word) (last : Bool) (s : State) : Result :=
  .next (s.issue core .compute last fun k b =>
    let o := aluAdd false (SMap.get (0 : Word) k.a src) imm
    .ok { b with writes := b.writes ++ [(.a dst, o.result.toNat)], nzvc := some o.flags })

/-- MOV: any register to any; into STATUS it is the moved value that stands, elsewhere the flags are the result's. -/
def execMov (core : Core) (dst src : DspReg) (last : Bool) (s : State) : Result :=
  .next (s.issue core .compute last fun k b =>
    let v := k.read src
    .ok { b with writes := b.writes ++ [(dst, v.toNat)],
                 nzvc := if dst = .status then b.nzvc else some (flagsOf v (s.freeBit 1) (s.freeBit 0)) })

/-- MVG: the 8 guard bits alone, sign-extended into a data register. -/
def execMvg (core : Core) (toAcc : Bool) (acc : Fin 4) (d : Fin 16) (last : Bool) (s : State) : Result :=
  .next (s.issue core .compute last fun k b =>
    let v := if toAcc then k.dreg d else k.read (.accG acc)
    .ok { b with writes := b.writes ++ [(if toAcc then .accG acc else .d d, v.toNat)],
                 nzvc := some (flagsOf v (s.freeBit 1) (s.freeBit 0)) })

/-! ### Multiply-accumulate (R303 to R305, R311) -/

/-- A bundle with numbers in accumulators; two in one accumulator leave it open. -/
def State.accEff (s : State) (b : Bundle) (l : List (Nat × Int)) : Issued :=
  let same := match l with | [x, y] => x.1 == y.1 | _ => false
  .ok { b with accs := b.accs ++ l.map fun e => (e.1, if same then s.free (2 ^ 72) else (toAcc e.2).1.toNat),
               aov := b.aov || l.any fun e => (toAcc e.2).2 }

/-- MAC2. -/
def execMac2 (core : Core) (a b : Fin 4) (w x y z : Fin 16) (last : Bool) (s : State) : Result :=
  .next (s.issue core .compute last fun k bn =>
    s.accEff bn [(a, (k.accum a).toInt + product k.frac (k.dreg w) (k.dreg x)), (b, (k.accum b).toInt + product k.frac (k.dreg y) (k.dreg z))])

/-- MSU2. -/
def execMsu2 (core : Core) (a b : Fin 4) (w x y z : Fin 16) (last : Bool) (s : State) : Result :=
  .next (s.issue core .compute last fun k bn =>
    s.accEff bn [(a, (k.accum a).toInt - product k.frac (k.dreg w) (k.dreg x)), (b, (k.accum b).toInt - product k.frac (k.dreg y) (k.dreg z))])

/-- MPY2. -/
def execMpy2 (core : Core) (a b : Fin 4) (w x y z : Fin 16) (last : Bool) (s : State) : Result :=
  .next (s.issue core .compute last fun k bn =>
    s.accEff bn [(a, product k.frac (k.dreg w) (k.dreg x)), (b, product k.frac (k.dreg y) (k.dreg z))])

/-- MAC. -/
def execMac (core : Core) (a : Fin 4) (x y : Fin 16) (last : Bool) (s : State) : Result :=
  .next (s.issue core .compute last fun k bn => s.accEff bn [(a, (k.accum a).toInt + product k.frac (k.dreg x) (k.dreg y))])

/-- MSU. -/
def execMsu (core : Core) (a : Fin 4) (x y : Fin 16) (last : Bool) (s : State) : Result :=
  .next (s.issue core .compute last fun k bn => s.accEff bn [(a, (k.accum a).toInt - product k.frac (k.dreg x) (k.dreg y))])

/-- MPY. -/
def execMpy (core : Core) (a : Fin 4) (x y : Fin 16) (last : Bool) (s : State) : Result :=
  .next (s.issue core .compute last fun k bn => s.accEff bn [(a, product k.frac (k.dreg x) (k.dreg y))])

/-- ACCADD. -/
def execAccadd (core : Core) (a b c : Fin 4) (last : Bool) (s : State) : Result :=
  .next (s.issue core .compute last fun k bn => s.accEff bn [(a, (k.accum b).toInt + (k.accum c).toInt)])

/-- ACCSH: a shift of −63 to +8; any other is no encoding. -/
def execAccsh (core : Core) (a : Fin 4) (shift : BitVec 7) (last : Bool) (s : State) : Result :=
  .next (s.issue core .compute last fun k bn =>
    let n := shift.toInt
    if -63 ≤ n && n ≤ 8 then s.accEff bn [(a, shiftAcc (k.accum a) n)] else .fault .illegal 0)

/-- RND. -/
def execRnd (core : Core) (d : Fin 16) (a : Fin 4) (last : Bool) (s : State) : Result :=
  .next (s.issue core .compute last fun k b =>
    let r := roundAcc k.frac (k.accum a)
    .ok { b with writes := b.writes ++ [(.d d, r.1.toNat)], satd := b.satd || r.2 })

/-- CLR2. -/
def execClr2 (core : Core) (a b : Fin 4) (last : Bool) (s : State) : Result :=
  .next (s.issue core .compute last fun _ bn => .ok { bn with accs := bn.accs ++ [(a.val, 0), (b.val, 0)] })

/-! ### Control (R307 to R310, R320, R324) -/

/-- A branch-class instruction; in a delay slot it is an ILLEGAL kernel fault (R307). -/
def branchEff (k : DspCore) (b : Bundle) (target : Option Nat) : Issued :=
  if k.delay != 0 then .fault .illegal 0 else .ok { b with branch := true, target := target }

/-- A bundle at an offset from the present one (R311). -/
def DspCore.away (k : DspCore) (offset : BitVec 13) : Nat := (BitVec.ofNat 13 k.pc + offset).toNat

/-- B. -/
def execDspB (core : Core) (offset : BitVec 13) (last : Bool) (s : State) : Result :=
  .next (s.issue core .compute last fun k b => branchEff k b (some (k.away offset)))

/-- Whether a condition holds on the flags as they stand (R307). -/
def DspCore.holds (k : DspCore) : DspCond → Bool
  | .z v => k.status.testBit 0 == v
  | .n v => k.status.testBit 1 == v
  | .v v => k.status.testBit 2 == v
  | .c v => k.status.testBit 3 == v

/-- Bcc. -/
def execBcc (core : Core) (cond : DspCond) (offset : BitVec 13) (last : Bool) (s : State) : Result :=
  .next (s.issue core .compute last fun k b => branchEff k b (if k.holds cond then some (k.away offset) else none))

/-- CALL: LR is the bundle after the delay slots (R324). -/
def execCall (core : Core) (offset : BitVec 13) (last : Bool) (s : State) : Result :=
  .next (s.issue core .compute last fun k b =>
    branchEff k { b with writes := b.writes ++ [(.lr, (k.pc + 3) % 8192)] } (some (k.away offset)))

/-- RET. -/
def execRet (core : Core) (last : Bool) (s : State) : Result :=
  .next (s.issue core .compute last fun k b => branchEff k b (some k.lr))

/-- REP (R308): a count of 0 sets no level and continues after the end. -/
def execDspRep (core : Core) (level : Fin 4) (count : Opnd) (end_ : BitVec 13) (last : Bool) (s : State) : Result :=
  .next (s.issue core .compute last fun k b =>
    let n := match count with | .reg r => (k.dreg r).toNat | .imm v => v.toNat % 65536
    let start := (k.pc + 1) % 8192
    let e := k.away end_
    if k.lact level || e < start then .fault .loop 0
    else if n = 0 then .ok { b with skip := some ((e + 1) % 8192) }
    else .ok { b with writes := b.writes ++ [(.lps level, start), (.lpe level, e), (.lpc level, n)], lact := b.lact ++ [(level.val, true)] })

/-- BRK. -/
def execBrk (core : Core) (level : Fin 4) (last : Bool) (s : State) : Result :=
  .next (s.issue core .compute last fun _ b => .ok { b with lact := b.lact ++ [(level.val, false)] })

/-- RTI (R320). -/
def execRti (core : Core) (last : Bool) (s : State) : Result :=
  .next (s.issue core .compute last fun k b => branchEff k { b with rti := true } none)

/-- The number of a software interrupt. -/
def swiCode : SwiNumber → Nat
  | .n5 => 5
  | .n6 => 6
  | .n7 => 7

/-- SWI. -/
def execSwi (core : Core) (n : SwiNumber) (last : Bool) (s : State) : Result :=
  .next (s.issue core .compute last fun _ b => .ok { b with swi := b.swi ++ [swiCode n] })

/-- The slot of a NOP. -/
def nopSlot : NopSlot → BundleSlot
  | .compute => .compute
  | .x => .x
  | .y => .y

/-- NOP. -/
def execNop (core : Core) (slot : NopSlot) (last : Bool) (s : State) : Result :=
  .next (s.issue core (nopSlot slot) last fun _ b => .ok b)

/-! ### Tasks (R312 to R314) -/

/-- TAKE: the core waits for a task, its bundle open; with a task in hand it is an ILLEGAL kernel fault (R312). -/
def execTake (core : Core) (dst : Fin 16) (s : State) : Result :=
  let k := s.core core
  if !k.issues then .next s
  else if k.task.isSome || k.bundle.usedC then .next (s.kernelFault core .illegal 0)
  else .next ((s.setCore core { k with mode := .take, takeDst := dst.val, bundle := k.bundle.mark .compute }).settleCore core)

/-- TAKE_GRANT (R312): the argument block is written to TASKBOX, then the TAKE returns slot and kernel. -/
def execTakeGrant (core : Core) (s : State) : Result :=
  let k := s.core core
  match s.runningOn 4 core with
  | none => .next s
  | some (n, t) =>
    if k.mode != .take || k.halted then .next s
    else
      let s := s.setLocalBytes core 0x3FF00 t.args
      let k := s.core core
      let v := n + t.kernel * 16777216
      let b := { k.bundle with writes := k.bundle.writes ++ [(.d (Fin.ofNat 16 k.takeDst), v)] }
      .next ((s.setCore core { k with mode := .run, bundle := b, task := some (n, t.kernel) }).endBundle core)

/-- Whether every DMA channel of a core is idle. -/
def DspCore.dmaIdle (k : DspCore) : Bool := (List.range 4).all fun n => (k.chan n).desc.isNone

/-- The statuses a kernel may give (R314). -/
def kernelStatusOk (v : Nat) : Bool := v == 0 || (0x40 ≤ v && v ≤ 0x44) || (0x48 ≤ v && v ≤ 0x4F)

/-- The core's task completes with the status in hand, its report is handed over, and the runtime goes on (R268, R314, R328). -/
def State.finishDone (s : State) (c status : Nat) (report : KernelReport) : State :=
  let k := s.core c
  let status := s.reportStatus report status
  let s := s.setCore c { k with task := none, attempt := 1, doneSt := none }
  let retried := k.attempt = 2
  let s := s.completeCoreTask c (if retried && status = St.ok then St.okRetried else status)
  let s := if retried then s.retried Unit.dsc c 9 (match k.task with | some (n, _) => s.taskId n | none => 0) else s
  ((s.handReport report status).endBundle c).settleCore c

/-- DONE (R314): a status outside the allowed values completes the task with the kernel-fault code. -/
def execDone (core : Core) (fin : KernelEnd) (s : State) : Result :=
  let k := s.core core
  if !k.issues then .next s
  else if k.task.isNone || k.bundle.usedC then .next (s.kernelFault core .illegal 0)
  else
    let v := (k.dreg fin.src).toNat % 256
    let k' := { k with bundle := k.bundle.mark .compute }
    if !kernelStatusOk v then .next (s.kernelFault core .code 0)
    else if k.dmaIdle then .next ((s.setCore core k').finishDone core v fin.report)
    else .next (s.setCore core { k' with doneSt := some (v, fin.report) })

/-- DONE_DMA_DRAINED (R314). -/
def execDoneDmaDrained (core : Core) (s : State) : Result :=
  match (s.core core).doneSt with
  | some (v, r) => if (s.core core).dmaIdle then .next (s.finishDone core v r) else .next s
  | none => .next s

/-! ### Interrupts (R318 to R322) -/

/-- The interrupt a core would take: the lowest pending number whose mask bit is 1. -/
def DspCore.dueIrq (k : DspCore) : Option Nat := (List.range 8).find? fun n => k.ipend.testBit n && k.imask.testBit n

/-- INTERRUPT_TAKEN (R319, R320, R322): from an open boundary, or from a TAKE that no grant has reached. -/
def execInterruptTaken (core : Core) (s : State) : Result :=
  let k := s.core core
  let waits := k.mode == .take && (s.runningOn 4 core).isNone
  match k.dueIrq with
  | none => .next s
  | some n =>
    if k.ie && !k.halted && (waits || ((k.mode == .run || k.mode == .handler) && k.openBoundary)) then
      let wait := s.cycle - SMap.get s.cycle k.raised n
      let f := R.DSC_IRQ_WAIT_MAX_CYCLES (core / 16)
      let s := if s.get f < wait then s.put f (min 65535 wait) else s
      let st := clearBit k.status 8 % 4096
      .next (s.setCore core { k with ipc := k.pc, istat := k.status, status := st, pc := 2 * n, mode := .handler, nest := k.nest + 1,
                                     bundle := Bundle.empty, loaded := false })
    else .next s

/-- CORE_TIMER_EXPIRY (R318): the timer of a core has counted down to 0. -/
def execCoreTimerExpiry (core : Core) (s : State) : Result :=
  let k := s.core core
  match k.timer with
  | some t => if t ≤ s.cycle then .next ((s.setCore core { k with timer := none }).coreIrq core 0) else .next s
  | none => .next s

/-- DSC_DOORBELL (R318): each bit raises DOORBELL on a core of the cluster. -/
def execDscDoorbell (who : Sender) (cluster : Fin 8) (ring : BitVec 16) (s : State) : Result :=
  s.access who (R.DSC_DOORBELL_RING cluster).addr fun s =>
  .next (((List.range 16).filter fun i => ring.getLsbD i).foldl (fun (s : State) i => s.coreIrq (cluster * 16 + i) 3) s)

/-- IRQ_WAIT_MAX_WRITE (R330): a write sets 0. -/
def execIrqWaitMaxWrite (who : Sender) (cluster : Fin 8) (s : State) : Result :=
  s.access who (R.DSC_IRQ_WAIT_MAX_CYCLES cluster).addr fun s =>
  .next (s.put (R.DSC_IRQ_WAIT_MAX_CYCLES cluster) 0)

/-- A mix frame begins: FRAME is raised on every core (R318). -/
def State.frameIrq (s : State) : State := (List.range 128).foldl (fun (s : State) c => s.coreIrq c 4) s

/-! ### Debug (R331) -/

/-- HALT (R331): a write of CORE_DBG HALT; ignored with CFG_IGNORED once DEBUG_DISABLE is written. -/
def execHalt (who : Sender) (core : Core) (on : Bool) (s : State) : Result :=
  s.access who (R.CORE_DBG_HALT (core / 16) (core % 16)).addr fun s =>
  let k := s.core core
  if s.isSet R.FUS_STATUS_DEBUG_DIS then
    .next ((s.putBit (R.DSC_STATUS_CFG_IGNORED (core / 16)) true).log Unit.dsc core Sev.note Ev.cfgIgnored
      (0x1018 + core % 16 * 0x100) (bnat on))
  else
    let s := s.putBit (R.CORE_DBG_HALT (core / 16) (core % 16)) on
    if !on then .next (s.setCore core { k with halted := false, haltReq := false, oneStep := false })
    else if (k.mode == .run || k.mode == .handler || k.mode == .take) && (k.openBoundary || k.mode == .take) then
      .next (s.setCore core { k with halted := true })
    else .next (s.setCore core { k with haltReq := true })

/-- STEP (R331): one bundle of a halted core. -/
def execStep (who : Sender) (core : Core) (s : State) : Result :=
  s.access who (R.CORE_DBG_HALT (core / 16) (core % 16)).addr fun s =>
  let k := s.core core
  if k.halted then .next (s.setCore core { k with oneStep := true }) else .next s

/-! ### Watchdog and self-test (R328) -/

/-- The watchdog's limit for a core's task: DSC_WD_SCALE × MAX_CYCLES of its kernel (R328). -/
def State.dspBudget (s : State) (c : Nat) : Nat :=
  let k := s.core c
  let x := k.kernels.find? fun x => (k.task.map Prod.snd) == some x.id
  s.get (R.DSC_WD_SCALE_SCALE (c / 16)) * ((x.map Kernel.cycles).getD 0)

/-- DSP_WATCHDOG_EXPIRY (R328): once the task's cycles, stalls with them and handlers without, pass the limit, the core resets and its task
is given again to it; a second expiry runs the self-test. -/
def execDspWatchdogExpiry (spent : CoreCycles) (s : State) : Result :=
  let core := spent.core
  let k := s.core core
  if k.task.isNone || s.endsNow 4 core || k.mode == .selftest || spent.cycles ≤ s.dspBudget core then .next s
  else if k.attempt = 1 then .next (s.setCore core { k.restart with task := none, attempt := 2 })
  else .next (s.setCore core { k.restart with mode := .selftest, pc := k.pc })

/-- SELFTEST_DONE (R328): a failure fences the core, whose task goes once to another; a pass makes the fault the kernel's. -/
def execSelftestDone (core : Core) (pass : Bool) (s : State) : Result :=
  let k := s.core core
  if k.mode != .selftest then .next s
  else if pass then .next (s.kernelFault core .watchdog 0)
  else
    let id := match k.task with | some (n, _) => s.taskId n | none => 0
    let s := s.setCore core { k with mode := .fenced, task := none, attempt := 1 }
    .next ((s.fence Unit.dsc core 9 id).loseUnit 4 core)

/-- DMA_START (R316, R317): a write of DMA_Cn_DESC. -/
def execDmaStart (core : Core) (channel : Fin 4) (desc : Nat) (s : State) : Result := .next (s.startDma core channel desc)

end Sys2Proof.Machine
end

