-- ==== Sys2Proof/Machine/FctEngine.lean ====
section
/-! DEFINITION. The FCT command engine, route commits, selections and ageing (spec/02_media_ports_relay.md, R69 to R75, R84
to R87, R632). A command's effect comes with its issue; BUSY and RESULT follow at FCT_COMMAND_DONE (R73). -/

namespace Sys2Proof.Machine

open Sys2Proof

/-- The address of RLY_FCT_CLAIM, which names its grant. -/
def fctPort : Nat := R.RLY_FCT_CLAIM_GRANTED.addr

/-- RLY_FCT_CLAIM (R72). -/
def execRlyFctClaim (who : Sender) (s : State) : Result :=
  s.accessRead who fctPort fun s =>
  .next (s.claim fctPort who)

/-- RLY_FCT_RELEASE (R72). -/
def execRlyFctRelease (who : Sender) (s : State) : Result :=
  s.access who R.RLY_FCT_RELEASE_RELEASE.addr fun s =>
  .next (s.unclaim fctPort who)

/-- RESULT values (R97). -/
def FctResult.done : Nat := 0

/-- NOT_FOUND. -/
def FctResult.notFound : Nat := 1

/-- EXISTS. -/
def FctResult.exists_ : Nat := 2

/-- NO_ROOM. -/
def FctResult.noRoom : Nat := 3

/-- BAD_ARG. -/
def FctResult.badArg : Nat := 4

/-- BUSY. -/
def FctResult.busy : Nat := 5

/-- The command window's octets: DATAn holds bytes 4n to 4n + 3 (R97). -/
def State.fctWindow (s : State) : List Byte := (List.range 16).flatMap fun i => leBytes 4 (s.get (R.RLY_FCT_DATA_DATA i))

/-- A word of the window. -/
def State.fctWord (s : State) (i : Nat) : Nat := s.get (R.RLY_FCT_DATA_DATA i)

/-- Start a command of the engine. -/
def State.startJob (s : State) (op : Nat) (run : State → State × FctJob) : State :=
  let r := run (s.putBit R.RLY_FCT_RESULT_BUSY true)
  r.1.withRly fun x => { x with job := some { r.2 with op := op } }

/-- A command of a requester: without the grant or while BUSY it is ignored (R72). -/
def State.fctCommand (s : State) (who : Sender) (op : Nat) (run : State → State × FctJob) : State :=
  if !s.holds fctPort who || s.isSet R.RLY_FCT_RESULT_BUSY then s.putBit R.RLY_STATUS_CMD_IGNORED true
  else s.startJob op run

/-- An outcome without a place. -/
def outcome (result : Nat) : FctJob := ⟨0, result, 0, 0, none⟩

/-- An outcome at a place. -/
def outcomeAt (result : Nat) (p : Nat × Nat × Nat) : FctJob := ⟨0, result, p.1, p.2.1, none⟩

/-- Whether an entry's fields are refused (R68, R4). -/
def State.entryBad (s : State) (e : List Byte) : Bool :=
  5 < fctAction e || (fctMode e).2 == 3 || 16 ≤ (e.getD 0x3A 0).toNat || s.legLimit ≤ fctLeg e

/-- INSERT (R69). -/
def State.fctInsert (s : State) (e : List Byte) : State × FctJob :=
  let key := fctKey e
  if s.entryBad e then (s, outcome FctResult.badArg)
  else
    match s.fctFind key with
    | some p => (s, outcomeAt FctResult.exists_ p)
    | none =>
      match s.fctFree key with
      | none => (s, outcome FctResult.noRoom)
      | some p =>
        let e := patch (patch e 0 [e.headD 0 ||| 1]) 0x3C s.ageOctets
        (s.setBytes (s.fctBase + p.2.2 * 64) e, outcomeAt FctResult.done p)

/-- UPDATE (R72): bytes 0x30 to 0x3B and 0x3E to 0x3F replace. -/
def State.fctUpdate (s : State) (e : List Byte) : State × FctJob :=
  let key := fctKey e
  if s.entryBad e then (s, outcome FctResult.badArg)
  else
    match s.fctFind key with
    | none => (s, outcome FctResult.notFound)
    | some p =>
      let new := patch (patch (s.fctEntry p.2.2) 0x30 (slice e 0x30 0x3C)) 0x3E (slice e 0x3E 0x40)
      ((s.setBytes (s.fctBase + p.2.2 * 64) new).updateCache key new, outcomeAt FctResult.done p)

/-- Remove an entry from HBM and the cache (R71, R75). -/
def State.fctRemove (s : State) (e : Nat) : State :=
  let d := s.fctEntry e
  (s.setBytes (s.fctBase + e * 64) [d.headD 0 &&& 0xFE]).dropCache (fctKey d)

/-- DELETE (R72). -/
def State.fctDelete (s : State) (e : List Byte) : State × FctJob :=
  match s.fctFind (fctKey e) with
  | none => (s, outcome FctResult.notFound)
  | some p => (s.fctRemove p.2.2, outcomeAt FctResult.done p)

/-- LOOKUP (R72): the entry comes back in DATA0 to DATA15. -/
def State.fctLookup (s : State) (e : List Byte) : State × FctJob :=
  match s.fctFind (fctKey e) with
  | none => (s, outcome FctResult.notFound)
  | some p => (s, { outcomeAt FctResult.done p with data := some (s.fctEntry p.2.2) })

/-- ROUTE_COMMIT (R85, R86): a stream has at most four versions that have not retired, the present one among them. -/
def State.routeCommit (s : State) (stream ptr : Nat) : State × FctJob :=
  let vs := s.versionsOf stream
  if ptr % 64 != 0 || (ptr != 0 && (16640 < s.le ptr 2 || s.le (ptr + 2) 2 != stream)) then (s, outcome FctResult.badArg)
  else if 4 ≤ vs.length then (s, outcome FctResult.busy)
  else
    let ver := if ptr = 0 then 0 else s.le (ptr + 4) 2
    let s := (s.setLe (s.streamAddr stream) 8 ptr).setLe (s.streamAddr stream + 8) 2 ver
    let vid := s.rly.nextId
    let s := s.withRly fun r => { r with nextId := vid + 1 }
    (s.setVersions stream (vs ++ [⟨vid, ptr, ver, 0⟩]), outcome FctResult.done)

/-- A change of a receiver's selection takes effect at once, or after the packets classified before it (R39, R84). -/
def State.changeSelect (s : State) (r : Nat) (bytes : Option (List Byte)) (sel : Nat) (exact : Bool) : State × FctJob :=
  ((s.withRly fun x => { x with selects := x.selects ++ [⟨r, s.boundTo r, bytes, sel, exact⟩] }).settleSelects, outcome FctResult.done)

/-- The listed octets of the FCT's first octets of entries lose VALID. -/
def State.clearValid (s : State) : List Nat → State
  | [] => s
  | a :: as => (s.setByte a (s.byte a &&& 0xFE)).clearValid as

/-- CLEAR (R72, R73): VALID = 0 in every entry, the cache empty, FCT_READY 0 while it runs. -/
def State.fctClear (s : State) : State × FctJob :=
  let base := s.fctBase
  let firsts := (s.mem.map fun c => c.1).filter fun a => base ≤ a && a < base + 2 ^ 30 && (a - base) % 64 == 0
  let s := (s.clearValid firsts).withRly fun r => { r with cache := [] }
  (s.putBit R.RLY_STATUS_FCT_READY false, outcome FctResult.done)

/-- The operation that an OP value names, run (R72, R97); 0 and 9 to 15 give BAD_ARG. A route descriptor's address is the 36 bits that reach HBM
(R101): DATA2's upper bits are among those R632 ignores (log entry 111). -/
def State.runFct (s : State) (op : Nat) : State × FctJob :=
  let w := s.fctWindow
  if op = 1 then s.fctInsert w
  else if op = 2 then s.fctUpdate w
  else if op = 3 then s.fctDelete w
  else if op = 4 then s.fctLookup w
  else if op = 5 then s.routeCommit (s.fctWord 0 % 65536) (s.fctWord 1 + s.fctWord 2 % 16 * 2 ^ 32)
  else if op = 6 then s.changeSelect (s.fctWord 0 % 2 ^ 20) none (s.fctWord 1 % 256) ((s.fctWord 1).testBit 8)
  else if op = 7 then s.changeSelect (s.fctWord 0 % 2 ^ 20) (some (slice w 4 20)) 0 false
  else if op = 8 then s.fctClear
  else (s, outcome FctResult.badArg)

/-- A write of RLY_FCT_CMD by a requester (R72). -/
def State.fctIssue (s : State) (who : Sender) (op : Nat) : State := s.fctCommand who op fun s => s.runFct op

/-- INSERT (R69). -/
def execInsert (who : Sender) (s : State) : Result :=
  s.access who R.RLY_FCT_CMD_OP.addr fun s =>
  .next (s.fctIssue who 1)

/-- UPDATE (R72). -/
def execUpdate (who : Sender) (s : State) : Result :=
  s.access who R.RLY_FCT_CMD_OP.addr fun s =>
  .next (s.fctIssue who 2)

/-- DELETE (R72). -/
def execDelete (who : Sender) (s : State) : Result :=
  s.access who R.RLY_FCT_CMD_OP.addr fun s =>
  .next (s.fctIssue who 3)

/-- LOOKUP (R72). -/
def execLookup (who : Sender) (s : State) : Result :=
  s.access who R.RLY_FCT_CMD_OP.addr fun s =>
  .next (s.fctIssue who 4)

/-- ROUTE_COMMIT (R86). -/
def execRouteCommit (who : Sender) (s : State) : Result :=
  s.access who R.RLY_FCT_CMD_OP.addr fun s =>
  .next (s.fctIssue who 5)

/-- SELECT (R84). -/
def execSelect (who : Sender) (s : State) : Result :=
  s.access who R.RLY_FCT_CMD_OP.addr fun s =>
  .next (s.fctIssue who 6)

/-- STATE_WRITE (R84). -/
def execStateWrite (who : Sender) (s : State) : Result :=
  s.access who R.RLY_FCT_CMD_OP.addr fun s =>
  .next (s.fctIssue who 7)

/-- CLEAR (R73). -/
def execClear (who : Sender) (s : State) : Result :=
  s.access who R.RLY_FCT_CMD_OP.addr fun s =>
  .next (s.fctIssue who 8)

/-- Start the CLEAR that a changed seed asked for (R97). -/
def State.startClear (s : State) : State :=
  (s.withRly fun r => { r with clearPending := false }).startJob 8 fun s => s.fctClear

/-- FCT_COMMAND_DONE (R72, R73): BUSY falls and RESULT reports; a CLEAR's end makes the FCT ready again; a CLEAR that waits
for the engine starts. -/
def execFctCommandDone (s : State) : Result :=
  match s.rly.job with
  | none => .next s
  | some j =>
    let s := (s.withRly fun r => { r with job := none }).putBit R.RLY_FCT_RESULT_BUSY false
    let s := ((s.put R.RLY_FCT_RESULT_RESULT j.result).put R.RLY_FCT_RESULT_BUCKET j.bucket).put R.RLY_FCT_RESULT_WAY j.way
    let s := match j.data with
      | some d => (List.range 16).foldl (fun (s : State) i => s.put (R.RLY_FCT_DATA_DATA i) (leVal (slice d (4 * i) (4 * i + 4)))) s
      | none => s
    let s := if j.op = 8 then s.putBit R.RLY_STATUS_FCT_READY (s.isSet R.BPM_STATUS_H_READY) else s
    .next (if s.rly.clearPending then s.startClear else s)

/-- A write of RLY_HASH_SEED while the relay is disabled (R17, R97): a change starts CLEAR once the engine is idle. -/
def State.writeSeed (s : State) (v : Nat) : State :=
  if v = s.get R.RLY_HASH_SEED_SEED then s
  else
    let s := s.put R.RLY_HASH_SEED_SEED v
    if s.isSet R.RLY_FCT_RESULT_BUSY then s.withRly fun r => { r with clearPending := true } else s.startClear

/-- HASH_SEED_WRITE (R97); RLY_HASH_SEED is RWD, so that the write is ignored while the relay runs. -/
def execHashSeedWrite (who : Sender) (value : Word) (s : State) : Result :=
  s.access who R.RLY_HASH_SEED_SEED.addr fun s =>
  if !s.isSet R.RLY_CTRL_ENABLE then .next (s.writeSeed value.toNat)
  else if value.toNat = s.get R.RLY_HASH_SEED_SEED then .next s
  else .next ((s.putBit R.RLY_STATUS_CFG_IGNORED true).log Unit.rly 8 Sev.note Ev.cfgIgnored 0x18 value.toNat)

/-- AGE_SCAN (R74, R75): the scan visits an entry; LAST_HIT is read at that moment. -/
def execAgeScan (entry : Fin 16777216) (s : State) : Result :=
  let e := s.fctEntry entry
  let ctl := (e.headD 0).toNat
  let limit := s.get R.RLY_AGE_TIMEOUT_SECONDS
  let age := (s.get R.RLY_AGE_CLOCK_SECONDS + 65536 - leVal (slice e 0x3C 0x3E)) % 65536
  if s.isSet R.RLY_STATUS_FCT_READY && limit != 0 && ctl.testBit 0 && ctl.testBit 1 && limit < age then
    .next ((s.fctRemove entry).excEvent 0x20 (leBytes 4 entry ++ leBytes 4 0))
  else .next s

end Sys2Proof.Machine
end

