-- ==== Sys2Proof/Machine/Mxm.lean ====
section
/-! DEFINITION. The Mix Matrix and the choice of talkers (spec/08_audio_mix.md, R266 to R292). -/

namespace Sys2Proof.Machine

open Sys2Proof

/-- Whether the Mix Matrix mixes: enabled and not fenced (R289, R291). -/
def State.mixes (s : State) : Bool := s.isSet R.MXM_CTRL_ENABLE && !s.isFenced Unit.mxm 0

/-- Post an MXM event (R283). -/
def State.mixEvent (s : State) (type what frame sample : Nat) : State :=
  s.postEvent (s.get R.MXM_EVT_QUEUE_QUEUE) R.C_MXM_EVT_DROP
    ([BitVec.ofNat 8 type, 0] ++ leBytes 2 what ++ leBytes 4 frame ++ leBytes 2 sample ++ List.replicate 6 0)

/-! ### Source channels (R273 to R275) -/

/-- A source channel. -/
def State.source (s : State) (i : Nat) : MixSource := SMap.get MixSource.init s.mxm.sources i

/-- STATE of a channel (R291). -/
def SrcMode.code : SrcMode → Nat
  | .off => 0
  | .priming => 1
  | .running => 2

/-- The state with a channel replaced, and its STATE and FILL fields with it. -/
def State.setSource (s : State) (i : Nat) (c : MixSource) : State :=
  let s := s.withMxm fun m => { m with sources := SMap.set MixSource.init m.sources i c }
  (s.put (R.MXM_SRC_CFG_STATE i) c.mode.code).put (R.MXM_SRC_CFG_FILL i) c.fifo.length

/-- Input samples of a 10 ms frame at a rate (R274). -/
def frameInput (rate : Nat) : Nat :=
  if rate = 0 then 80 else if rate = 1 then 160 else if rate = 2 then 240 else if rate = 3 then 320 else if rate = 4 then 441 else 480

/-- The FILL that makes a channel RUNNING (R275). -/
def primeFill (rate : Nat) : Nat := ceilDiv (frameInput rate * 105) 100

/-- A channel as far as its FILL lets it run (R275). -/
def MixSource.primed (c : MixSource) : MixSource :=
  if c.mode == .priming && primeFill c.rate ≤ c.fifo.length then { c with mode := .running } else c

/-- Signed 32-bit samples from little-endian octets. -/
def samplesOf : List Byte → List Int
  | a :: b :: c :: d :: r => signed 32 (leVal [a, b, c, d]) :: samplesOf r
  | _ => []

/-- Samples arrive at a channel's port (R273); false when the write is refused. -/
def State.feedSource (s : State) (i : Nat) (xs : List Int) : State × Bool :=
  let c := s.source i
  if 2048 < c.fifo.length + xs.length then (s.count R.C_MXM_SRC_OVERRUN, false)
  else (s.setSource i ({ c with fifo := c.fifo ++ xs }).primed, true)

/-- SOURCE_PORT_WRITE (R273): one aligned 64-byte line appends 16 samples; anything else is refused with a bus error. -/
def State.portWrite (s : State) (who : Sender) (i offset : Nat) (data : List Byte) : State :=
  let a := 0x10008000000 + i * 0x2000 + offset
  if offset % 64 = 0 && offset < 0x2000 && data.length = 64 then
    let r := s.feedSource i (samplesOf data)
    if r.2 then r.1 else r.1.emit (.busError who a)
  else (s.count R.C_MXM_SRC_OVERRUN).emit (.busError who a)

/-- SOURCE_PORT_WRITE (R273). -/
def execSourcePortWrite (who : Sender) (source : Fin 1536) (offset : Nat) (data : List Byte) (s : State) : Result :=
  .next (s.portWrite who source offset data)

/-- A channel takes its IN_RATE and EN at a frame boundary (R275). -/
def State.applySource (s : State) (i : Nat) : State :=
  let c := s.source i
  let rate := s.get (R.MXM_SRC_CFG_IN_RATE i)
  if !s.isSet (R.MXM_SRC_CFG_EN i) then
    if c.mode == .off then s.setSource i { c with rate := rate } else s.setSource i { c with mode := .off, rate := rate, fifo := [] }
  else if c.mode == .off || c.rate != rate then s.setSource i ⟨.priming, rate, [], [], 0, 0⟩
  else s

/-- SOURCE_CFG_APPLY (R275): at a frame boundary, before the frame's decodes write. -/
def execSourceCfgApply (source : Fin 1536) (s : State) : Result :=
  .next (if s.mxm.boundary = some s.cycle then s.applySource source else s)

/-- TRIM, clamped (R274). -/
def State.trim (s : State) (i : Nat) : Int := max (-4294967) (min 4294967 (signed 32 (s.get (R.MXM_SRC_TRIM_TRIM i))))

/-- `n` samples whose value the spec leaves open. -/
def State.freeSamples (s : State) (n : Nat) : List Int :=
  (List.range n).map fun i => signed 32 (leVal ((List.range 4).map fun j => Config.freeOctet s.freeCtr (4 * i + j)))

/-- The 24 samples that a 48 kHz converter holds. -/
def MixSource.delayLine (c : MixSource) : List Int := List.replicate (24 - c.hist.length) 0 ++ c.hist

/-- A RUNNING channel gives one frame (R274, R275): the 480 outputs, the channel after it, and whether it lacked samples. At 48 kHz
without trim the converter is the pure delay; else its outputs are free values within R274. -/
def State.convert (s : State) (i : Nat) : List Int × MixSource × Bool :=
  let c := s.source i
  let pos := c.pos + frameInput c.rate * (2 ^ 32 + s.trim i).toNat
  let need := pos / 2 ^ 32
  let line := c.delayLine ++ c.fifo.take need ++ List.replicate (need - c.fifo.length) 0
  let late := c.fifo.length < need
  let out := if c.rate = 5 && s.trim i = 0 && c.pos = 0 then line.take 480 else s.freeSamples 480
  (out, { c with mode := if late then .priming else .running, fifo := c.fifo.drop need, hist := line.drop (line.length - 24),
                 pos := pos % 2 ^ 32, last := out.getLastD 0 }, late)

/-- The sources' outputs of a frame, each headed by its last sample of the frame before. -/
abbrev FrameInputs := SMap (List Int)

/-- Every channel gives its frame (R275): the outputs, the channels after it, and whether a RUNNING one lacked samples. -/
def State.convertAll (s : State) : List (Nat × MixSource) → State × FrameInputs × Bool
  | [] => (s, [], false)
  | (i, c) :: rest =>
    if c.mode == .running then
      let (out, c', late) := s.convert i
      let t := s.spent.setSource i c'
      let t := if late then (t.count R.C_MXM_SRC_UNDERRUN).mixEvent 3 i t.mxm.next 0 else t
      let (u, xs, l) := t.convertAll rest
      (u, (i, c.last :: out) :: xs, late || l)
    else
      let t := if c.last = 0 then s else s.setSource i { c with last := 0 }
      let (u, xs, l) := t.convertAll rest
      (u, (if c.last = 0 then xs else (i, c.last :: List.replicate 480 0) :: xs), l)

/-- Sample `n` of a source in a frame. -/
def sampleAt (xs : FrameInputs) (src n : Nat) : Int := (SMap.get [] xs src).getD (n + 1) 0

/-- The sample before it. -/
def sampleBefore (xs : FrameInputs) (src n : Nat) : Int := (SMap.get [] xs src).getD n 0

/-- The zero crossing of R282: zero, or a sign other than the sample before. -/
def crosses (before now : Int) : Bool := now == 0 || decide (now.sign ≠ before.sign)

/-! ### Sets (R277) -/

/-- A parameter set that nothing has stored: all zeros, MODE OFF (R280). -/
def blankSet : List Byte := List.replicate 288 0

/-- The active set of a bus. -/
def State.activeSet (s : State) (b : Nat) : List Byte := SMap.get blankSet s.mxm.active b

/-- The shadow set of a bus. -/
def State.shadowSet (s : State) (b : Nat) : List Byte := SMap.get blankSet s.mxm.shadow b

/-- The `n`-octet little-endian field at an offset of a set. -/
def setField (d : List Byte) (off n : Nat) : Nat := leVal (slice d off (off + n))

/-- The entries of a set: source and gain of its first COUNT entries; in a MINUS set w is 1. -/
def setEntries (d : List Byte) : List (Nat × Nat) :=
  (List.range (min 64 (setField d 1 1))).map fun k =>
    (setField d (0x20 + 4 * k) 2 % 2048, if setField d 0 1 = 2 then 1 else setField d (0x22 + 4 * k) 2)

/-- Whether a set is valid for a bus (R277). -/
def setValid (bus : Nat) (d : List Byte) : Bool :=
  let e := (setEntries d).map Prod.fst
  setField d 0 1 ≤ 2 && setField d 1 1 ≤ 64 && e.all (fun i => i ≤ 1535) && e.eraseDups.length == e.length &&
    (setField d 0 1 != 2 || (setField d 2 2 != bus && setField d 2 2 ≤ 4095))

/-- The octets of a set with MODE, PARENT, OUT_GAIN, BEACON and entries, RATES 0. -/
def makeSet (mode parent out beacon : Nat) (entries : List (Nat × Nat)) : List Byte :=
  [BitVec.ofNat 8 mode, BitVec.ofNat 8 entries.length] ++ leBytes 2 parent ++ leBytes 2 out ++ [0, 0] ++ leBytes 2 beacon ++
    List.replicate 22 0 ++ (entries.flatMap fun e => leBytes 2 e.1 ++ leBytes 2 e.2) ++ List.replicate (256 - 4 * entries.length) 0

/-- A bus. -/
def State.bus (s : State) (b : Nat) : MixBus := SMap.get MixBus.init s.mxm.buses b

/-- The state with a bus replaced. -/
def State.setBus (s : State) (b : Nat) (x : MixBus) : State :=
  s.withMxm fun m => { m with buses := SMap.set MixBus.init m.buses b x }

/-! ### Swaps (R281, R282) -/

/-- Whether a swap of a bus is pending. -/
def State.swapPending (s : State) (b : Nat) : Bool := s.mxm.waiting.any fun g => g.buses.contains b

/-- A bus takes a new set at sample `n0` (R282): its MODE and PARENT at once, and a step for every gain, exclusion and OUT_GAIN
that differs. -/
def MixBus.take (b : MixBus) (d : List Byte) (n0 timeout : Nat) : MixBus :=
  let mode := setField d 0 1
  let want := if mode = 0 then [] else setEntries d
  let kept := if b.mode = mode then b.terms else []
  let terms := kept ++ ((want.filter fun e => !(kept.any fun k => k.1 == e.1)).map fun e => (e.1, 0))
  let steps := (terms.filter fun k => ((want.find? fun e => e.1 == k.1).map Prod.snd).getD 0 != k.2).map fun k =>
    (⟨some k.1, ((want.find? fun e => e.1 == k.1).map Prod.snd).getD 0, n0, n0 + timeout⟩ : MixStep)
  let out := setField d 4 2
  let steps := if b.out = out then steps else steps ++ [⟨none, out, n0, n0 + timeout⟩]
  { b with mode := mode, parent := setField d 2 2, terms := terms.filter (fun k => k.2 != 0 || steps.any fun t => t.source == some k.1),
           steps := steps }

/-- Apply a pending group at absolute sample `n` (R281): each shadow set becomes active and steps are scheduled. -/
def State.applyGroup (s : State) (g : SwapGroup) (n : Nat) : State :=
  let timeout := s.get R.MXM_ZC_TIMEOUT_SAMPLES
  let s := g.buses.foldl (fun (s : State) b =>
    let d := s.shadowSet b
    (s.setBus b ((s.bus b).take d n timeout)).withMxm fun m => { m with active := SMap.set blankSet m.active b d }) s
  let s := (s.count R.C_MXM_SWAPS).mixEvent 1 g.tag (n / 480) (n % 480)
  let s := s.withMxm fun m => { m with waiting := m.waiting.filter fun h => h != g }
  if g.buses.any fun b => !(s.bus b).steps.isEmpty then s.withMxm fun m => { m with stepping := m.stepping ++ [(g.buses, g.tag)] } else s

/-- The pending groups whose time has come at absolute sample `n`, in the order of their commits (R281). -/
def State.evalSwaps (s : State) (n : Nat) : State :=
  s.mxm.waiting.foldl (fun (s : State) g =>
    if g.target ≤ n && g.buses.all fun b => (s.bus b).steps.isEmpty then s.applyGroup g n else s) s

/-- A step of a bus takes its new value (R282); a source that has left is summed no longer. -/
def MixBus.make (b : MixBus) (t : MixStep) : MixBus :=
  let b := { b with steps := b.steps.erase t }
  match t.source with
  | none => { b with out := t.goal }
  | some i => { b with terms := (b.terms.map fun k => if k.1 = i then (i, t.goal) else k).filter fun k => k.1 != i || k.2 != 0 }

/-- A bus's step is made at a sample, by timeout or not. -/
def State.makeStep (s : State) (b : Nat) (t : MixStep) (timedOut : Bool) : State :=
  let s := s.setBus b ((s.bus b).make t)
  if timedOut then s.count R.C_MXM_STEPS_TIMEOUT else s

/-- The groups whose last step has been made post STEPS_DONE (R281). -/
def State.settleSteps (s : State) (n : Nat) : State :=
  let done := s.mxm.stepping.filter fun g => g.1.all fun b => (s.bus b).steps.isEmpty
  let s := s.withMxm fun m => { m with stepping := m.stepping.filter fun g => !(g.1.all fun b => (s.bus b).steps.isEmpty) }
  done.foldl (fun (s : State) g => s.mixEvent 2 g.2 (n / 480) (n % 480)) s

/-- The steps of a bus's sources, or those of its OUT_GAIN, at absolute sample `n`: each at its zero crossing or its timeout. -/
def State.stepBus (s : State) (b n : Nat) (mine : MixStep → Bool) (cross : MixStep → Bool) : State :=
  (s.bus b).steps.foldl (fun (s : State) t =>
    if mine t && t.from_ ≤ n then
      if t.limit ≤ n then s.makeStep b t true else if cross t then s.makeStep b t false else s
    else s) s

/-! ### Sums (R278) -/

/-- (x × g + 2^13) >> 14, an arithmetic shift. -/
def scaled (x : Int) (g : Nat) : Int := (x * g + 8192) / 16384

/-- `x` held within ±(2^39 − 1). -/
def sat40 (x : Int) : Int := max (-(2 ^ 39 - 1)) (min (2 ^ 39 - 1) x)

/-- `x` held within the signed 32-bit range. -/
def sat32 (x : Int) : Int := max (-2147483648) (min 2147483647 x)

/-- The exact sum of a SUM bus at a sample. -/
def MixBus.sum (b : MixBus) (xs : FrameInputs) (i : Nat) : Int :=
  (b.terms.map fun k => scaled (sampleAt xs k.1 i) k.2).foldl (· + ·) 0

/-- S of a bus at a sample: none for a MINUS bus whose parent is not SUM (R278). -/
def State.busSum (s : State) (b : MixBus) (xs : FrameInputs) (i : Nat) : Option Int :=
  if b.mode = 1 then some (sat40 (b.sum xs i))
  else if b.mode = 2 then
    let p := s.bus b.parent
    if p.mode != 1 then none
    else
      let minus := b.terms.map fun k => (k.2 : Int) * scaled (sampleAt xs k.1 i) (((p.terms.find? fun e => e.1 == k.1).map Prod.snd).getD 0)
      some (sat40 (p.sum xs i) - minus.foldl (· + ·) 0)
  else some 0

/-- What a mix frame has given so far: each bus's outputs, latest first, and the MINUS buses that had a bad parent. -/
structure MixRun where
  ys  : SMap (List Int)
  bad : List Nat
  deriving DecidableEq, Repr

/-- The bus's modulator, where its set names one that sends at this sample (R287, R335). -/
def State.beaconOf (s : State) (b i : Nat) : Option Nat :=
  let f := setField (s.activeSet b) 8 2
  if f.testBit 15 && (s.modulator (f % 256)).sends i then some (f % 256) else none

/-- One output sample of one bus (R278, R282, R287), the sources' steps having been made: S, the step of OUT_GAIN, y, and the
beacon, whose sample is a free value within R335. A bus with a bad parent gives zeros, and its OUT_GAIN steps as at S = 0. -/
def State.busSample (s : State) (b n i : Nat) (xs : FrameInputs) (run : MixRun) : State × MixRun :=
  let x := s.bus b
  match s.busSum x xs i with
  | none =>
    let s := if run.bad.contains b then s else (s.count R.C_MXM_PARENT_BAD).mixEvent 4 b (n / 480) i
    let s := s.stepBus b n (fun t => t.source.isNone) fun _ => true
    (s.setBus b { s.bus b with prev := 0 }, ⟨SMap.insert run.ys b (0 :: SMap.get [] run.ys b), if run.bad.contains b then run.bad else b :: run.bad⟩)
  | some v =>
    let s := if x.mode = 1 && sat40 (x.sum xs i) != x.sum xs i then s.count R.C_MXM_SUM_SAT else s
    let s := s.stepBus b n (fun t => t.source.isNone) fun _ => crosses x.prev v
    let exact := scaled v (s.bus b).out
    let y := sat32 exact
    let (s, y, clip) := match s.beaconOf b i with
      | some _ => (s.spent, sat32 (y + signed 32 (Config.freeValue s.freeCtr)), y != exact || sat32 (y + signed 32 (Config.freeValue s.freeCtr)) != y + signed 32 (Config.freeValue s.freeCtr))
      | none => (s, y, y != exact)
    let s := if clip then s.count R.C_MXM_CLIP_SAMPLES else s
    (s.setBus b { s.bus b with prev := v }, ⟨SMap.insert run.ys b (y :: SMap.get [] run.ys b), run.bad⟩)

/-- The sample `i` of the frame for every bus that is in use (R278, R281, R282). -/
def State.mixSample (s : State) (xs : FrameInputs) (run : MixRun) (i : Nat) : State × MixRun :=
  let n := s.mxm.next * 480 + i
  let s := s.evalSwaps n
  let used := s.mxm.buses.map Prod.fst
  let s := used.foldl (fun (s : State) b =>
    s.stepBus b n (fun t => t.source.isSome) fun t => crosses (sampleBefore xs (t.source.getD 0) i) (sampleAt xs (t.source.getD 0) i)) s
  let r := used.foldl (fun (r : State × MixRun) b => r.1.busSample b n i xs r.2) (s, run)
  (r.1.settleSteps n, r.2)

/-- The samples of a frame from `i` on. -/
def State.mixSamples (s : State) (xs : FrameInputs) (run : MixRun) : Nat → Nat → State × MixRun
  | 0, _ => (s, run)
  | k + 1, i => let r := s.mixSample xs run i; r.1.mixSamples xs r.2 k (i + 1)

/-! ### Output areas (R279) -/

/-- What an octet of an output area holds that no frame has written: zeros with LEVEL 127 (R291). -/
def areaDefault (k : Nat) : Byte := if k % 0x2000 = 0x1680 || k % 0x2000 = 0x1681 then 127 else 0

/-- The octet of the output areas at bus × 8,192 + offset: FRAME[h] is one number for all buses. -/
def State.areaByte (s : State) (k : Nat) : Byte :=
  let o := k % 0x2000
  if 0x1684 ≤ o && o < 0x168C then (leBytes 4 (SMap.get 0 s.mxm.frames ((o - 0x1684) / 4))).getD (o % 4) 0
  else SMap.get (areaDefault k) s.mxm.area k

/-- The state with octets in the output areas. -/
def State.setArea (s : State) (k : Nat) : List Byte → State
  | [] => s
  | b :: bs => (s.withMxm fun m => { m with area := SMap.set (areaDefault k) m.area k b }).setArea (k + 1) bs

/-- LEVEL of a frame (R279): the greatest k up to 127 with mean(y²) / 2^62 ≤ 10^(−(2k − 1)/20), in whole numbers. -/
def levelOf (ys : List Int) : Nat :=
  let sum := ys.foldl (fun a y => a + y.natAbs * y.natAbs) 0
  (List.range 127).foldl (fun l k => if sum ^ 20 * 10 ^ (2 * k + 1) ≤ (ys.length * 2 ^ 62) ^ 20 then max l (k + 1) else l) 0

/-- The octets of samples, little-endian. -/
def pcmBytes (ys : List Int) : List Byte := ys.flatMap fun y => leBytes 4 (unsigned 32 y)

/-- Whether the octet at bus × 8,192 + offset lies in what frame half `h` rewrites (R279). -/
def State.inHalf (s : State) (h k : Nat) : Bool :=
  let o := k % 0x2000
  let rates := setField (s.activeSet (k / 0x2000)) 6 1
  (h * 0x780 ≤ o && o < h * 0x780 + 0x780) || o == 0x1680 + h ||
    (rates.testBit 0 && 0xF00 + h * 0x280 ≤ o && o < 0xF00 + h * 0x280 + 0x280) ||
    (rates.testBit 1 && 0x1400 + h * 0x140 ≤ o && o < 0x1400 + h * 0x140 + 0x140)

/-- The half of a frame in every output area holds zeros, with LEVEL 127, and the frame's number. -/
def State.blankHalf (s : State) (frame : Nat) : State :=
  s.withMxm fun m => { m with area := m.area.filter fun e => !s.inHalf (frame % 2) e.1
                              frames := SMap.set 0 m.frames (frame % 2) (frame % 2 ^ 32) }

/-- A bus's outputs of a frame go to its blanked half (R279); the 16 kHz and 8 kHz outputs are free values within R274. -/
def State.writeArea (s : State) (frame b : Nat) (ys : List Int) : State :=
  let h := frame % 2
  let base := b * 0x2000
  let rates := setField (s.activeSet b) 6 1
  let s := s.setArea (base + h * 0x780) (pcmBytes ys)
  let s := if rates.testBit 0 then (s.setArea (base + 0xF00 + h * 0x280) (s.freeBytes 640)).spent else s
  let s := if rates.testBit 1 then (s.setArea (base + 0x1400 + h * 0x140) (s.freeBytes 320)).spent else s
  s.setArea (base + 0x1680 + h) [BitVec.ofNat 8 (levelOf ys)]

/-! ### Frames (R276) -/

/-- The cycle at which the next frame to be mixed began. -/
def State.mixFrameStart (s : State) : Nat := s.mxm.tf - (s.mxm.began - 1 - s.mxm.next) * mixFrameCycles

/-- FRAME_START (R276): at T_F, unless the Fabric island is gated (R449). Channels take their settings (R275), MXM_FRAME_TS is
written, and the frame event and the cores' FRAME interrupts are raised. -/
def execFrameStart (s : State) : Result :=
  if s.cycle < s.mxm.tfNext || s.island 40 != LullState.awake then .next s
  else
    let f := s.mxm.began
    let s := s.withMxm fun m => { m with began := f + 1, tf := m.tfNext, tfNext := m.tfNext + mixFrameCycles, boundary := some s.cycle }
    let written := (s.regs.filter fun (e : Nat × Word) => 0xB0A000 ≤ e.1 && e.1 < 0xB0B800).map fun (e : Nat × Word) => (e.1 - 0xB0A000) / 4
    let used := (s.mxm.sources.map Prod.fst ++ written).eraseDups
    let s := used.foldl (fun (s : State) i => s.applySource i) s
    let s := s.put R.MXM_FRAME_TS_NS s.descTs
    .next ((s.fireEvent 1 (f % 2 ^ 32)).frameIrq)

/-- The mix completion of a frame (R276, R290). -/
def State.mixDone (s : State) (status frame : Nat) : State :=
  (s.emit (.done (.fixed 4) status [frame])).fireEvent 2 (frame % 2 ^ 32)

/-- MXM_FRAME counts on. -/
def State.nextFrame (s : State) : State :=
  let s := s.withMxm fun m => { m with next := m.next + 1 }
  s.put R.MXM_FRAME_FRAME s.mxm.next

/-- One frame is mixed (R278): every channel's frame, every bus's 480 samples, and the output areas. Answers the status. -/
def State.mixOnce (s : State) : State × Nat :=
  let f := s.mxm.next
  let due := (s.sdg.mods.map Prod.fst).filter fun m => s.beaconDue m
  let s := if s.sdgRuns then due.foldl (fun (s : State) m => s.startBeacon m) s else s
  let (s, xs, late) := s.convertAll s.mxm.sources
  let (s, run) := s.mixSamples xs ⟨[], []⟩ 480 0
  let s := s.advanceBeacons
  let s := run.ys.foldl (fun (s : State) e => s.writeArea f e.1 (List.replicate (480 - e.2.length) 0 ++ e.2.reverse)) (s.blankHalf f)
  (s.count R.C_MXM_FRAMES, if late then St.mixSrcLate else if run.bad.isEmpty then St.ok else St.mixParentBad)

/-- MIX_FRAME (R276, R278, R289): at T_F + MIX_PHASE. While ENABLE is 0 only MXM_FRAME counts; a frame whose retry fails fences
the Mix Matrix, and a fenced one gives zeros and the fenced-unit code. -/
def execMixFrame (check : CheckResult) (s : State) : Result :=
  if s.mxm.began ≤ s.mxm.next || !s.passed s.mixFrameStart (s.get R.MXM_MIX_PHASE_MICROSECONDS * usCycles) then .next s
  else if !s.isSet R.MXM_CTRL_ENABLE then .next s.nextFrame
  else
    let f := s.mxm.next
    let s := if check == .failed then s.fenceOpen Unit.mxm 0 10 else s
    if s.isFenced Unit.mxm 0 then
      .next (((s.blankHalf f).mixDone St.unitFenced f).nextFrame)
    else
      let (t, status) := s.mixOnce
      if check == .retried then .next (((t.retriedOpen Unit.mxm 0 10).mixDone (if status = St.ok then St.okRetried else status) f).nextFrame)
      else .next ((t.mixDone status f).nextFrame)

/-! ### Set and swap commands (R280, R281) -/

/-- The MXM's command port, by its CLAIM register. -/
def mxmPort : Nat := R.MXM_CLAIM_GRANTED.addr

/-- MXM_CLAIM (R280). -/
def execMxmClaim (who : Sender) (s : State) : Result :=
  s.accessRead who mxmPort fun s =>
  .next (s.claim mxmPort who)

/-- MXM_RELEASE (R280). -/
def execMxmRelease (who : Sender) (s : State) : Result :=
  s.access who R.MXM_RELEASE_RELEASE.addr fun s =>
  .next (s.unclaim mxmPort who)

/-- A command written by a requester: without the grant or while BUSY it is ignored and CMD_IGNORED set (R291). The result shows
when the command ends. -/
def State.mixCommand (s : State) (who : Sender) (f : State → State × Nat × Bool) : State :=
  if !s.holds mxmPort who || s.isSet R.MXM_CMD_RESULT_BUSY then s.putBit R.MXM_STATUS_CMD_IGNORED true
  else
    let (t, result, late) := f s
    (t.withMxm fun m => { m with job := some (result, late) }).putBit R.MXM_CMD_RESULT_BUSY true

/-- MXM_SET_DATA takes a set. -/
def State.showSet (s : State) (d : List Byte) : State :=
  (List.range 72).foldl (fun (s : State) i => s.put (R.MXM_SET_DATA_DATA i) (setField d (4 * i) 4)) s

/-- The set in MXM_SET_DATA. -/
def State.setInHand (s : State) : List Byte := (List.range 72).flatMap fun i => leBytes 4 (s.get (R.MXM_SET_DATA_DATA i))

/-- A set goes to a bus's shadow (R280): 0 DONE, 1 BAD_SET or 2 BUS_BUSY. -/
def State.storeSet (s : State) (b : Nat) (d : List Byte) : State × Nat :=
  if !setValid b d then (s, 1)
  else if s.swapPending b then (s, 2)
  else (s.withMxm fun m => { m with shadow := SMap.set blankSet m.shadow b d }, 0)

/-- A write of MXM_SET_CMD (R280). -/
def State.setCommand (s : State) (who : Sender) (op : Nat) : State :=
  let b := s.get R.MXM_SET_SEL_BUS
  if op = 0 then s
  else s.mixCommand who fun s =>
    if op = 1 then (s.showSet (s.shadowSet b), 0, false)
    else if op = 2 then let r := s.storeSet b s.setInHand; (r.1, r.2, false)
    else (s.showSet (s.activeSet b), 0, false)

/-- LOAD (R280). -/
def execLoad (who : Sender) (s : State) : Result :=
  s.access who R.MXM_SET_CMD_OP.addr fun s =>
  .next (s.setCommand who 1)

/-- STORE (R280). -/
def execStore (who : Sender) (s : State) : Result :=
  s.access who R.MXM_SET_CMD_OP.addr fun s =>
  .next (s.setCommand who 2)

/-- READ_ACTIVE (R280). -/
def execReadActive (who : Sender) (s : State) : Result :=
  s.access who R.MXM_SET_CMD_OP.addr fun s =>
  .next (s.setCommand who 3)

/-- Commit a swap group (R281): 3 BAD_GROUP, 2 BUS_BUSY, 4 BAD_ARG or 0 DONE, and LATE. `at_` holds the target frame and sample of
WHEN = 1. -/
def State.commitGroup (s : State) (count : Nat) (buses : List Nat) (tag : Nat) (at_ : Option (Nat × Nat)) : State × Nat × Bool :=
  if count = 0 || 64 < count || buses.any (fun b => 4095 < b) || buses.eraseDups.length != buses.length then (s, 3, false)
  else if buses.any s.swapPending then (s, 2, false)
  else
    let asap := s.mxm.next * 480
    let hold := fun (s : State) target => s.withMxm fun m => { m with waiting := m.waiting ++ [⟨buses, tag, target⟩] }
    match at_ with
    | none => (hold s asap, 0, false)
    | some (f, o) =>
      if 479 < o then (s, 4, false)
      else if s.frameNear f < s.mxm.next then ((hold s asap).count R.C_MXM_SWAPS_LATE, 0, true)
      else (hold s ((s.frameNear f).toNat * 480 + o), 0, false)

/-- A write of MXM_SWAP_CMD (R281). -/
def State.swapCommand (s : State) (who : Sender) (count : Nat) (at_ : Bool) (tag : Nat) : State :=
  s.mixCommand who fun s =>
    s.commitGroup count ((List.range (min 64 count)).map fun k => s.get (R.MXM_SWAP_LIST_BUS k)) tag
      (if at_ then some (s.get R.MXM_SWAP_FRAME_FRAME, s.get R.MXM_SWAP_OFFSET_SAMPLE) else none)

/-- SWAP_COMMIT (R281). -/
def execSwapCommit (who : Sender) (count : BitVec 7) (at_ : Bool) (tag : BitVec 16) (s : State) : Result :=
  s.access who R.MXM_SWAP_CMD_COUNT.addr fun s =>
  .next (s.swapCommand who count.toNat at_ tag.toNat)

/-- MXM_COMMAND_DONE (R280, R291): BUSY falls and the result shows. -/
def execMxmCommandDone (s : State) : Result :=
  match s.mxm.job with
  | none => .next s
  | some (r, late) =>
    let s := (s.withMxm fun m => { m with job := none }).putBit R.MXM_CMD_RESULT_BUSY false
    .next ((s.put R.MXM_CMD_RESULT_RESULT r).putBit R.MXM_CMD_RESULT_LATE late)

/-- SWAP_APPLY (R281): the groups due at the first sample of the next frame to be mixed. The samples inside a frame are MIX_FRAME's. -/
def execSwapApply (s : State) : Result :=
  .next (if s.mixes then s.evalSwaps (s.mxm.next * 480) else s)

/-- GAIN_STEP (R282): a step of a bus at the first sample of the next frame, its signal going from `before` to `now`. -/
def execGainStep (bus : Fin 4096) (step : Nat) (before now : Int) (s : State) : Result :=
  let n := s.mxm.next * 480
  match (s.bus bus).steps[step]? with
  | some t => .next (if s.mixes && t.from_ ≤ n && crosses before now then (s.makeStep bus t false).settleSteps n else s)
  | none => .next s

/-- STEP_TIMEOUT (R282): a step whose time has run out by the first sample of the next frame. -/
def execStepTimeout (bus : Fin 4096) (step : Nat) (s : State) : Result :=
  let n := s.mxm.next * 480
  match (s.bus bus).steps[step]? with
  | some t => .next (if s.mixes && t.limit ≤ n then (s.makeStep bus t true).settleSteps n else s)
  | none => .next s

/-- MXM ENABLE is cleared (R281, R291): pending groups and steps are discarded, the new gains apply at once, and every output area
holds zeros with LEVEL 127. -/
def State.disableMix (s : State) : State :=
  let s := s.putBit R.MXM_CTRL_ENABLE false
  let s := (s.mxm.buses.map Prod.fst).foldl (fun (s : State) b => (s.bus b).steps.foldl (fun (s : State) t => s.makeStep b t false) s) s
  s.withMxm fun m => { m with waiting := [], stepping := [], area := [] }

/-- MIX_DISABLE (R281). -/
def execMixDisable (who : Sender) (s : State) : Result :=
  s.access who R.MXM_CTRL_ENABLE.addr fun s =>
  .next s.disableMix

/-! ### Talkers (R270 to R272, R349) -/

/-- Whether an audio packet is voiced (R270). -/
def State.voiced (s : State) (r : LevelReport) : Bool := r.level ≤ s.obj 0x600006 0 45 && (!r.vad || r.v)

/-- The active legs of the last 200 ms, each with its score (R270). -/
def State.activeLegs (s : State) (rs : List LevelReport) : List (Nat × Nat) :=
  let ids := (rs.map fun r => r.id).eraseDups
  let act := ids.filter fun i => 3 ≤ (rs.filter fun r => r.id == i && s.voiced r).length
  act.map fun i => (i, (rs.filter fun r => r.id == i).foldl (fun m r => min m r.level) 127)

/-- Whether a leg's contributions are muted (R271, R292). -/
def State.muted (s : State) (id : Nat) : Bool := s.isLocal id && s.obj 0x602003 (id % 16384) 0 == 1

/-- The talkers of a conference. -/
def State.talkersOf (s : State) (conf : Nat) : List Talker := SMap.get [] s.mxm.talkers conf

/-- The better of two newcomers: the lower score, then the lower leg (R271). -/
def firstOf (a b : Nat × Nat) : Nat × Nat := if b.2 < a.2 || (b.2 == a.2 && b.1 < a.1) then b else a

/-- The newcomers in the order in which they are considered. -/
def inOrder : Nat → List (Nat × Nat) → List (Nat × Nat)
  | 0, _ => []
  | _ + 1, [] => []
  | k + 1, a :: l => let b := l.foldl firstOf a; b :: inOrder k ((a :: l).filter fun x => x.1 != b.1)

/-- The talker that a newcomer may replace: the voice of its group (R349), else, in a full set, the talker with the highest score,
the lower leg on a tie (R271). -/
def State.replaceable (s : State) (full : Bool) (ts : List Talker) (new : Nat × Nat) : Option Talker :=
  let voice := ts.find? fun t => (s.groupOf new.1).isSome && s.groupOf t.id == s.groupOf new.1
  match voice with
  | some v => some v
  | none => if full then ts.foldl (fun (b : Option Talker) t => match b with | none => some t | some x => if x.score < t.score || (x.score == t.score && t.id < x.id) then some t else b) none else none

/-- Whether a talker has held its place for MIN_HOLD_MS and loses to a newcomer by SWITCH_MARGIN_DB (R271, R349). -/
def State.yields (s : State) (t : Talker) (new : Nat × Nat) : Bool :=
  s.passed t.joined (s.obj 0x600008 0 500 * msCycles) && new.2 + s.obj 0x600009 0 6 ≤ t.score

/-- The one join of a frame (R271 rules 2 to 4, R349). -/
def State.joinOne (s : State) (limit : Nat) (ts : List Talker) : List (Nat × Nat) → List Talker
  | [] => ts
  | new :: rest =>
    let full := limit ≤ ts.length
    let me : Talker := ⟨new.1, s.cycle, s.cycle, new.2⟩
    match s.replaceable full ts new with
    | some t => if s.yields t new then (ts.filter fun x => x.id != t.id) ++ [me] else s.joinOne limit ts rest
    | none => if full then s.joinOne limit ts rest else ts ++ [me]

/-- The talker set after the rules of R271 (and R349, by which a group takes one place): `act` holds the active legs of the last 200 ms, `rs`
their packets. -/
def State.nextTalkers (s : State) (conf : Nat) (rs : List LevelReport) (act : List (Nat × Nat)) : List Talker :=
  let hang := s.obj 0x600007 0 1000 * msCycles
  let ts := (s.talkersOf conf).map fun t =>
    match act.find? fun a => a.1 == t.id with
    | some a => { t with active := s.cycle, score := a.2 }
    | none => { t with score := (rs.filter fun r => r.id == t.id).foldl (fun m r => min m r.level) 127 }
  let ts := ts.filter fun t => !s.muted t.id && !(s.passed t.active hang && t.active != s.cycle)
  let ts := ts.filter fun t => !(ts.any fun x => (s.groupOf t.id).isSome && s.groupOf x.id == s.groupOf t.id && firstOf (t.id, t.score) (x.id, x.score) != (t.id, t.score))
  let new := act.filter fun a => !s.muted a.1 && !(ts.any fun t => t.id == a.1)
  s.joinOne (s.obj 0x601001 conf 8) ts (inOrder new.length new)

/-- The talker set of a conference is `ts` (R271, R272): the roles of its local legs, and its candidates. -/
def State.setTalkers (s : State) (conf : Nat) (ts : List Talker) (act : List (Nat × Nat)) : State :=
  let left := (s.talkersOf conf).filter fun t => !(ts.any fun x => x.id == t.id)
  let s := (s.withMxm fun m => { m with talkers := SMap.set [] m.talkers conf ts }).setObj 0x601002 conf 0 ts.length
  let s := (left.filter fun t => s.isLocal t.id).foldl (fun (s : State) t => s.restRole (t.id % 16384)) s
  let s := (ts.filter fun t => s.isLocal t.id).foldl (fun (s : State) t => s.takeDecode (t.id % 16384) 3 t.score) s
  let rest := inOrder act.length (act.filter fun a => s.isLocal a.1 && !s.muted a.1 && !(ts.any fun t => t.id == a.1))
  let cand := rest.take (s.obj 0x60000A 0 2)
  let was := (s.mxm.cands.map Prod.fst).filter fun l => s.confOf l == conf && !(cand.any fun a => a.1 % 16384 == l)
  let s := was.foldl (fun (s : State) l => if s.obj 0x602001 l 0 = 2 then s.restRole l else s) s
  let s := cand.foldl (fun (s : State) a => s.takeDecode (a.1 % 16384) 2 a.2) s
  s.seatJoiners conf

/-- The talkers of a set that an anchor sent (R411): those already talking keep their times. -/
def State.talkersFrom (s : State) (conf : Nat) (ids : List Nat) : List Talker :=
  ids.map fun i => ((s.talkersOf conf).find? fun t => t.id == i).getD ⟨i, s.cycle, s.cycle, 127⟩

/-- A module tells its anchor its loudest legs, and an anchor tells the set to its members, each mix frame (R408, R411). -/
def State.tellTalkers (s : State) (conf : Nat) (act : List (Nat × Nat)) : State :=
  let mine := (inOrder act.length (act.filter fun a => s.isLocal a.1)).take 8
  if s.roleOf conf = 2 then
    match s.trunkTo (s.anchorOf conf) with
    | some t => s.tellControl t 2 conf (mine.flatMap fun a => [a.1 % 16384, a.2])
    | none => s
  else if s.roleOf conf = 1 then
    let c := s.cascade conf
    let rest := c.members.filter fun m => m != s.get R.TRK_MODULE_INDEX && !c.lost.contains m
    rest.foldl (fun (s : State) m => match s.trunkTo m with | some t => s.tellControl t 3 conf ((s.talkersOf conf).map Talker.id) | none => s) s
  else s

/-- TALKER_SET_UPDATE (R271, R411): once each mix frame. An anchor chooses over every module's reports, a MEMBER takes its anchor's
latest set, and any other module chooses for itself. -/
def execTalkerSetUpdate (conf : Fin 4096) (reports : List LevelReport) (s : State) : Result :=
  if SMap.get 0 s.mxm.talkedAt conf = s.mxm.began then .next s
  else
    let s := s.withMxm fun m => { m with talkedAt := SMap.set 0 m.talkedAt conf m.began }
    let act := s.activeLegs reports
    if s.roleOf conf = 2 then
      let c := s.cascade conf
      let due := if c.setAt < s.mxm.began then c.setDue else none
      let ts := match due with | some ids => s.talkersFrom conf ids | none => s.talkersOf conf
      let s := if due.isSome then s.setCascade conf { c with setDue := none } else s
      .next ((s.setTalkers conf ts act).tellTalkers conf act)
    else
      let all := if s.roleOf conf = 1 then act ++ (s.cascade conf).reports.flatMap Prod.snd else act
      .next ((s.setTalkers conf (s.nextTalkers conf reports all) act).tellTalkers conf act)

/-! ### Jitter buffers (R269) -/

/-- Insert into a rising list. -/
def insertRising (x : Nat) : List Nat → List Nat
  | [] => [x]
  | y :: l => if x ≤ y then x :: y :: l else y :: insertRising x l

/-- The 95th percentile of values: the least of them that 95% do not exceed. -/
def percentile95 (l : List Nat) : Nat :=
  let r := l.foldr insertRising []
  r.getD (ceilDiv (95 * r.length) 100 - 1) 0

/-- JB_TARGET_UPDATE (R269): once a second, J95 of the last 2 s plus P, within JB_MIN_MS and JB_MAX_MS. Times are in ms. -/
def execJbTargetUpdate (leg : Fin 16384) (transit : List Nat) (ptime : Nat) (s : State) : Result :=
  let due := match SMap.find? s.mxm.jbAt leg with | some c => s.passed c secCycles | none => true
  if s.legLimit ≤ leg || !due then .next s
  else
    let lo := s.obj 0x602004 leg 20
    let hi := s.obj 0x602005 leg 200
    let s := s.withMxm fun m => { m with jbAt := SMap.insert m.jbAt leg s.cycle }
    .next (s.setObj 0x602006 leg 40 (clampTo lo hi (percentile95 transit + ptime)))

/-! ### Admitting and removing a talker (R285, R286, R288) -/

/-- The routes and the receiver state of a leg that moves between streams (R285 step 5, R286): ROUTE_COMMIT of each, then
STATE_WRITE. -/
def State.moveLeg (s : State) (routes : List (Nat × Nat)) (rstate : Nat) (rbytes : List Byte) : State :=
  let s := routes.foldl (fun (s : State) r => (s.routeCommit r.1 r.2).1) s
  (s.changeSelect rstate (some rbytes) 0 false).1

/-- TALKER_ADMIT (R285): the MINUS set of the talker's own bus, the listener bus with its source added, the encode's task, the swap of
both at frame F, and the leg's move. Nothing happens where a set or the swap is refused. -/
def execTalkerAdmit (leg : Fin 16384) (source : Fin 1536) (listener own : Fin 4096) (frame tag : Nat) (encode : List Byte)
    (routes : List (Nat × Nat)) (rstate : Nat) (rbytes : List Byte) (s : State) : Result :=
  let p := s.shadowSet listener
  let entries := (setEntries p).filter fun e => e.1 != source.val
  let gain := s.obj 0x602002 leg 16384
  let withSource := patch p 1 ([BitVec.ofNat 8 (entries.length + 1)])
  let withSource := patch withSource 0x20 ((entries ++ [(source.val, gain)]).flatMap fun e => leBytes 2 e.1 ++ leBytes 2 e.2)
  let (t, r1) := s.storeSet own (makeSet 2 listener (setField p 4 2) 0 [(source.val, 0)])
  let (t, r2) := t.storeSet listener withSource
  let (t, r3, _) := t.commitGroup 2 [listener.val, own.val] (tag % 65536) (some (frame % 2 ^ 32, 0))
  if s.legLimit ≤ leg || r1 != 0 || r2 != 0 || r3 != 0 then .next s
  else
    let t := (t.createTask encode).1
    let t := t.withFw fun y => { y with sources := SMap.set none y.sources leg (some source.val), ownBus := SMap.set none y.ownBus leg (some own.val) }
    .next (t.moveLeg routes rstate rbytes)

/-- TALKER_REMOVE (R286): first the listener bus alone is committed with the source removed; once its steps are done, the leg moves
back, the own bus is set to OFF, and its encode ends. -/
def execTalkerRemove (leg : Fin 16384) (source : Fin 1536) (listener own : Fin 4096) (tag : Nat) (routes : List (Nat × Nat))
    (rstate : Nat) (rbytes : List Byte) (s : State) : Result :=
  let p := s.shadowSet listener
  if s.legLimit ≤ leg then .next s
  else if (setEntries p).any fun e => e.1 == source.val then
    let entries := (setEntries p).filter fun e => e.1 != source.val
    let d := patch (patch p 1 [BitVec.ofNat 8 entries.length]) 0x20 (entries.flatMap fun e => leBytes 2 e.1 ++ leBytes 2 e.2)
    let (t, r1) := s.storeSet listener d
    let (t, r2, _) := t.commitGroup 1 [listener.val] (tag % 65536) none
    .next (if r1 != 0 || r2 != 0 then s else t)
  else if s.swapPending listener || !(s.bus listener).steps.isEmpty then .next s
  else
    let t := s.moveLeg routes rstate rbytes
    let t := t.withFw fun y => { y with sources := SMap.set none y.sources leg none, ownBus := SMap.set none y.ownBus leg none }
    let (t, r1) := t.storeSet own blankSet
    .next (if r1 != 0 then t else (t.commitGroup 1 [own.val] (tag % 65536) none).1)

/-- The set of a bus with a source's gain replaced, where the bus sums that source (R277). -/
def withGain (d : List Byte) (source gain : Nat) : Option (List Byte) :=
  let es := setEntries d
  if setField d 0 1 = 1 && es.any fun e => e.1 == source then
    some (patch d 0x20 ((es.map fun e => if e.1 = source then (e.1, gain) else e).flatMap fun e => leBytes 2 e.1 ++ leBytes 2 e.2))
  else none

/-- Lists of at most `n` buses, the most that one swap takes (R281). -/
def groupsOf (n : Nat) : Nat → List Nat → List (List Nat)
  | 0, _ => []
  | _, [] => []
  | f + 1, l => l.take n :: groupsOf n f (l.drop n)

/-- The set of a bus without a source, where the bus names it (R277). -/
def withoutSource (d : List Byte) (source : Nat) : Option (List Byte) :=
  let es := setEntries d
  if setField d 0 1 != 0 && es.any fun e => e.1 == source then
    let es := es.filter fun e => e.1 != source
    some (patch (patch d 1 [BitVec.ofNat 8 es.length]) 0x20 (es.flatMap fun e => leBytes 2 e.1 ++ leBytes 2 e.2))
  else none

/-- A source leaves every bus that has no swap pending, by a swap at the start of the frame after the next two (R281, R414). -/
def State.dropSource (s : State) (src : Nat) : State :=
  let mine := s.mxm.shadow.filterMap fun (e : Nat × List Byte) =>
    if s.swapPending e.1 then none else (withoutSource e.2 src).map fun d => (e.1, d)
  let s := mine.foldl (fun (s : State) e => (s.storeSet e.1 e.2).1) s
  (groupsOf 64 mine.length (mine.map Prod.fst)).foldl (fun (s : State) g => (s.commitGroup g.length g 0 (some ((s.mxm.next + 2) % 2 ^ 32, 0))).1) s

/-- LEG_GAIN of a leg (R292): where its source is in sums, their sets take the gain and a swap is committed; none where one of the buses
has a swap that is not applied. -/
def State.applyLegGain (s : State) (leg gain : Nat) : Option State :=
  match SMap.get none s.fw.sources leg with
  | none => some s
  | some src =>
    let mine := s.mxm.shadow.filterMap fun (e : Nat × List Byte) => (withGain e.2 src gain).map fun d => (e.1, d)
    if mine.any fun e => s.swapPending e.1 then none
    else
      let s := mine.foldl (fun (s : State) e => (s.storeSet e.1 e.2).1) s
      some ((groupsOf 64 mine.length (mine.map Prod.fst)).foldl (fun (s : State) g => (s.commitGroup g.length g 0 none).1) s)

/-- AUDIO_FRAME_LATE (R288): the encode that a core runs for a frame completes with AUD_FRAME_LATE when its frame has not reached the
relay by T_F + 10 ms. -/
def execAudioFrameLate (core : Core) (frame : Nat) (s : State) : Result :=
  .next (if s.frameLate frame && (s.core core).task.isSome then s.finishDone core St.audFrameLate .none else s)

end Sys2Proof.Machine
end

