-- ==== Sys2Proof/Machine/Probes.lean ====
section
/-! DEFINITION. The end of a Sundog probe, and the links between legs (spec/10_sundog_beacon.md, R339, R346). -/

namespace Sys2Proof.Machine

open Sys2Proof

/-- A pair of legs, each pair one way. -/
def pairOf (a b : Nat) : Nat × Nat := (min a b, max a b)

/-- The state with a link added or removed (R346). -/
def State.setLink (s : State) (a b : Nat) (on : Bool) : State :=
  let rest := s.sdg.links.filter fun l => l != pairOf a b
  { s with sdg := { s.sdg with links := if on then rest ++ [pairOf a b] else rest } }

/-- A probe is over: it leaves the table, and the events that no running probe needs with it. -/
def State.dropProbe (s : State) (leg : Nat) : State :=
  let left := s.sdg.probes.filter fun q => q.leg != leg
  let need := left.any fun q => q.st != .queued
  { s with sdg := { s.sdg with probes := left, events := if need then s.sdg.events else [] } }

/-- The leg of an ended probe returns to its ordinary mix (R339): its private bus goes OFF by a swap, and it is a joiner no more (R272). -/
def State.returnLeg (s : State) (p : Probe) : State :=
  let s := if s.roleOfLeg p.leg = 4 then s.restRole p.leg else s
  let (t, r) := s.storeSet p.bus blankSet
  if r != 0 then t else (t.commitGroup 1 [p.bus] p.mod none).1

/-- A probe is aborted (R339): its modulator's EN is cleared, and every detection of it is discarded. -/
def State.abortProbe (s : State) (leg : Nat) : State :=
  match s.probeOf leg with
  | some p =>
    if p.st == .queued then s.dropProbe leg
    else
      let s := (s.putBit (R.SDG_MOD_CTRL_EN p.mod) false).stopBeacon p.mod
      let s := { s with sdg := { s.sdg with events := s.sdg.events.filter fun e => e.token != p.token } }
      (s.dropProbe leg).returnLeg p
  | none => s

/-- A leg leaves its conference: its probe is aborted and its links end (R339, R346). -/
def State.leaveSundog (s : State) (leg : Nat) : State :=
  let s := s.abortProbe leg
  { s with sdg := { s.sdg with links := s.sdg.links.filter fun l => l.1 != leg && l.2 != leg } }

end Sys2Proof.Machine
end

