-- ==== Sys2Proof/Machine/Hevc.lean ====
section
/-! DEFINITION. The parts of the H.265 syntax that the Tile Splicer writes and reads (R234, R235, R254, R256): parameter sets
and slice segment headers. The order of the syntax elements is the standard's (PRESUMED, log entry 45). -/

namespace Sys2Proof.Machine

open Sys2Proof

/-- `n` bits of `v`, most significant first. -/
def hevcBits : Nat → Nat → List Bool
  | 0, _ => []
  | n + 1, v => v.testBit n :: hevcBits n v

/-- The bits of an unsigned Exp-Golomb code. -/
def ueBits (v : Nat) : List Bool :=
  let n := (v + 1).log2
  List.replicate n false ++ hevcBits (n + 1) (v + 1)

/-- The value of bits, most significant first. -/
def hevcVal (bs : List Bool) : Nat := bs.foldl (fun v b => 2 * v + bnat b) 0

/-- Bits as octets, the last one padded with zeros. -/
def packBits : Nat → List Bool → List Byte
  | 0, _ => []
  | _ + 1, [] => []
  | fuel + 1, bs => BitVec.ofNat 8 (hevcVal ((bs ++ List.replicate 8 false).take 8)) :: packBits fuel (bs.drop 8)

/-- The bits of octets. -/
def unpackBits (bs : List Byte) : List Bool := bs.flatMap fun b => hevcBits 8 b.toNat

/-- Bits followed by a 1 and zeros up to an octet (byte_alignment and rbsp_trailing_bits). -/
def aligned (bs : List Bool) : List Byte := packBits (bs.length + 8) (bs ++ [true])

/-- Octets with emulation prevention, `z` zeros having come before. -/
def escapeFrom : Nat → List Byte → List Byte
  | _, [] => []
  | z, b :: bs =>
    if 2 ≤ z && b.toNat ≤ 3 then 3 :: b :: escapeFrom (if b = 0 then 1 else 0) bs
    else b :: escapeFrom (if b = 0 then z + 1 else 0) bs

/-- A NAL unit's octets with emulation prevention. -/
def escape (bs : List Byte) : List Byte := escapeFrom 0 bs

/-- A NAL unit's octets without emulation prevention, each with the number of octets up to and with it. -/
def unescapeFrom : Nat → Nat → List Byte → List (Byte × Nat)
  | _, _, [] => []
  | z, n, b :: bs =>
    if 2 ≤ z && b = 3 then unescapeFrom 0 (n + 1) bs
    else (b, n + 1) :: unescapeFrom (if b = 0 then z + 1 else 0) (n + 1) bs

/-- profile_tier_level of Main at a level (R235). -/
def ptlBits (level : Nat) : List Bool :=
  hevcBits 2 0 ++ hevcBits 1 0 ++ hevcBits 5 1 ++ hevcBits 32 0x60000000 ++ hevcBits 4 9 ++ hevcBits 43 0 ++ hevcBits 1 0 ++ hevcBits 8 level

/-- A NAL unit of a type from its bits. -/
def nalUnit (ty : Nat) (bits : List Bool) : List Byte := escape ([BitVec.ofNat 8 (ty * 2), 1] ++ aligned bits)

/-- The VPS of a level (R235, R256). -/
def vpsNal (level : Nat) : List Byte :=
  nalUnit 32 (hevcBits 4 0 ++ [true, true] ++ hevcBits 6 0 ++ hevcBits 3 0 ++ [true] ++ hevcBits 16 0xFFFF ++ ptlBits level ++ [true] ++
    ueBits 1 ++ ueBits 0 ++ ueBits 0 ++ hevcBits 6 0 ++ ueBits 0 ++ [false, false])

/-- The SPS of a coded size, crop, level and tick (R234, R235, R256). -/
def spsNal (w h crop level tick : Nat) : List Byte :=
  nalUnit 33 (hevcBits 4 0 ++ hevcBits 3 0 ++ [true] ++ ptlBits level ++ ueBits 0 ++ ueBits 1 ++ ueBits w ++ ueBits h ++ [true] ++
    ueBits 0 ++ ueBits 0 ++ ueBits 0 ++ ueBits crop ++ ueBits 0 ++ ueBits 0 ++ ueBits 4 ++ [true] ++ ueBits 1 ++ ueBits 0 ++ ueBits 0 ++
    ueBits 0 ++ ueBits 3 ++ ueBits 0 ++ ueBits 3 ++ ueBits 1 ++ ueBits 1 ++ [false, true, true, false] ++
    ueBits 1 ++ ueBits 1 ++ ueBits 0 ++ ueBits 0 ++ [true] ++ [false, false, true] ++
    [true] ++ [false, false] ++ [true] ++ hevcBits 3 5 ++ [false, true] ++ hevcBits 8 1 ++ hevcBits 8 1 ++ hevcBits 8 1 ++
    [false, false, false, false, false] ++ [true] ++ hevcBits 32 tick ++ hevcBits 32 90000 ++ [false, false] ++ [false] ++ [false])

/-- The PPS of a grid of cells (R235, R256). -/
def ppsNal (cols rows : Nat) : List Byte :=
  nalUnit 34 (ueBits 0 ++ ueBits 0 ++ [false, false] ++ hevcBits 3 0 ++ [false, true] ++ ueBits 0 ++ ueBits 0 ++ ueBits 0 ++
    [false, false, true] ++ ueBits 0 ++ ueBits 0 ++ ueBits 0 ++ [false, false, false, false] ++ [true, false] ++
    ueBits (cols - 1) ++ ueBits (rows - 1) ++ [true, false, false] ++ [true, false, false] ++ ueBits 0 ++ ueBits 0 ++
    [false, false] ++ ueBits 0 ++ [false, false])

/-- Read an unsigned Exp-Golomb code: its value and the bits after it. -/
def readUe (bs : List Bool) : Nat × List Bool :=
  let n := (bs.takeWhile (!·)).length
  (hevcVal ((bs.drop n).take (n + 1)) - 1, bs.drop (2 * n + 1))

/-- What a slice segment header of a tile encode gives the splicer (R254): the elements it copies, as they were coded, and
the octets of the NAL unit up to the slice data. -/
structure SliceHead where
  isI   : Bool
  ty    : List Bool
  sao   : List Bool
  cabac : List Bool
  merge : List Bool
  qp    : List Bool
  raw   : Nat
  deriving DecidableEq, Repr

/-- The bits of slice_segment_address in a tier's picture (R233). -/
def tierAddrBits (tier : Nat) : Nat := if tier = 1 then 4 else if tier = 2 then 6 else 8

/-- Parse the slice segment header of a tile's NAL unit (R235, R254). -/
def parseSlice (tier : Nat) (nal : List Byte) : SliceHead :=
  let plain := unescapeFrom 0 0 nal
  let octets := plain.map Prod.fst
  let nalTy := (octets.headD 0).toNat / 2 % 64
  let irap := 16 ≤ nalTy && nalTy ≤ 23
  let idr := nalTy == 19 || nalTy == 20
  let all := unpackBits (octets.drop 2)
  let first := all.headD false
  let b := all.drop (if irap then 2 else 1)
  let b := (readUe b).2
  let b := if first then b else b.drop (tierAddrBits tier)
  let t := readUe b
  let tyBits := b.take (b.length - t.2.length)
  let b := if idr then t.2 else t.2.drop 9
  let sao := b.take 2
  let b := b.drop 2
  let isI := t.1 == 2
  let b1 := if isI then b else b.drop 1
  let cabac := if isI then [] else b1.take 1
  let b2 := if isI then b1 else b1.drop 1
  let m := readUe b2
  let merge := if isI then [] else b2.take (b2.length - m.2.length)
  let b3 := if isI then b2 else m.2
  let q := readUe b3
  let qp := b3.take (b3.length - q.2.length)
  let e := readUe q.2
  let used := all.length - e.2.length
  let n := used / 8 + 1 + 2
  ⟨isI, tyBits, sao, cabac, merge, qp, (plain.getD (n - 1) (0, nal.length)).2⟩

/-- Whether a NAL unit is the slice of a tile encode's cell `k` in raster order, coded by the stitching profile (R235, R237): its place, its
PPS and type, the SPS's reference set and five merge candidates of a P slice, and no entry points. -/
def tileSliceOk (tier : Nat) (intra : Bool) (k : Nat) (nal : List Byte) : Bool :=
  let octets := (unescapeFrom 0 0 nal).map Prod.fst
  let ty := (octets.headD 0).toNat / 2 % 64
  let irap := 16 ≤ ty && ty ≤ 23
  let all := unpackBits (octets.drop 2)
  let b := readUe (all.drop (if irap then 2 else 1))
  let side := 2 ^ (tier - 1)
  let n := tierAddrBits tier
  let rest := if k = 0 then b.2 else b.2.drop n
  let h := parseSlice tier nal
  let t := readUe rest
  irap == intra && all.headD false == (k == 0) && b.1 == 0 && (k == 0 || hevcVal (b.2.take n) == k / side * 3 * (side * 5) + k % side * 5) &&
    t.1 == (if intra then 2 else 1) && (ty == 19 || ty == 20 || t.2.getD 8 false) && (h.isI || h.merge == [true]) && h.raw ≤ nal.length

/-- A slice placed at a CTB address: the new header and the slice data as they were (R254). -/
def placeSlice (tier ctb addrBits poc : Nat) (idr : Bool) (nal : List Byte) : List Byte :=
  let h := parseSlice tier nal
  let first := ctb == 0
  let bits := [first] ++ (if idr then [false] else []) ++ ueBits 0 ++ (if first then [] else hevcBits addrBits ctb) ++ h.ty ++
    (if idr then [] else hevcBits 8 (poc % 256) ++ [true]) ++ h.sao ++ (if h.isI then [] else [false] ++ h.cabac ++ h.merge) ++ h.qp ++ ueBits 0
  escape ([BitVec.ofNat 8 ((if idr then 19 else 1) * 2), 1] ++ aligned bits) ++ nal.drop h.raw

end Sys2Proof.Machine
end

