-- ==== Sys2Proof/Machine/Cmp.lean ====
section
/-! DEFINITION. The Compose Engines (spec/06_compose_encode.md, R200 to R211, R227 to R230). The filters' coefficients are not
given: what a filter makes of its taps is open. -/

namespace Sys2Proof.Machine

open Sys2Proof

/-! ### Descriptors (R200 to R202) -/

/-- A little-endian field of an octet string. -/
def fieldOf (d : List Byte) (off n : Nat) : Nat := leVal (slice d off (off + n))

/-- OUT_W and OUT_H of a pass. -/
def passSize (d : List Byte) : Nat × Nat := (fieldOf d 8 2, fieldOf d 0xA 2)

/-- Whether a pass has 10-bit output. -/
def passBit10 (d : List Byte) : Bool := (fieldOf d 0xE 1).testBit 0

/-- The output buffer of a pass (R200). -/
def passLayout (d : List Byte) : Layout := ⟨fieldOf d 0 8, fieldOf d 0xC 2, up16 (fieldOf d 0xA 2), passBit10 d, false, false⟩

/-- Whether the fields of a pass descriptor are in range (R200). -/
def passOk (d : List Byte) : Bool :=
  let w := fieldOf d 8 2
  let h := fieldOf d 0xA 2
  fieldOf d 0 8 % 4096 == 0 && 64 ≤ w && w ≤ 4096 && w % 2 == 0 && 64 ≤ h && h ≤ 2304 && h % 2 == 0 &&
    fieldOf d 0xC 2 % 64 == 0 && w * sampleBytes (passBit10 d) ≤ fieldOf d 0xC 2 && fieldOf d 0xE 1 / 2 % 8 ≤ 4 &&
    1 ≤ fieldOf d 0xF 1 && fieldOf d 0xF 1 ≤ 8 && fieldOf d 0x13 1 == 0 && fieldOf d 0x18 8 % 64 == 0 && allZero (slice d 0x34 0x40)

/-- The plane a video layer reads. -/
def layerPlane (l : List Byte) : Nat := fieldOf l 1 1 / 2 % 4

/-- Whether a layer is a video layer. -/
def isVideo (l : List Byte) : Bool := fieldOf l 0 1 == 0

/-- A layer's source rectangle. -/
def srcRect (l : List Byte) : Nat × Nat × Nat × Nat := (fieldOf l 4 2, fieldOf l 6 2, fieldOf l 8 2, fieldOf l 0xA 2)

/-- A layer's destination rectangle. -/
def dstRect (l : List Byte) : Int × Int × Nat × Nat :=
  (signed 16 (fieldOf l 0xC 2), signed 16 (fieldOf l 0xE 2), fieldOf l 0x10 2, fieldOf l 0x12 2)

/-- Whether a layer descriptor passes the check of R202. -/
def State.layerOk (s : State) (l : List Byte) : Bool :=
  let (sx, sy, sw, sh) := srcRect l
  let (dx, dy, dw, dh) := dstRect l
  let ctx := fieldOf l 0x18 8
  let f := s.ctxField ctx 1 1
  fieldOf l 0 1 ≤ 3 && (!isVideo l || layerPlane l != 3) && fieldOf l 3 1 == 0 && fieldOf l 0x16 2 == 0 && allZero (slice l 0x2F 0x40) &&
    sx % 2 == 0 && sy % 2 == 0 && sw % 2 == 0 && sh % 2 == 0 && 2 ≤ sw && 2 ≤ sh && dx % 2 == 0 && dy % 2 == 0 && dw % 2 == 0 &&
    dh % 2 == 0 && 2 ≤ dw && 2 ≤ dh &&
    (if isVideo l then s.ctxValid ctx && (layerPlane l != 1 || f.testBit 1) && (layerPlane l != 2 || f.testBit 2)
     else dw == sw && dh == sh && (fieldOf l 0 1 == 3 || fieldOf l 0x20 8 == 0))

/-- Whether a layer's ratios lie within R205. -/
def scaleOk (l : List Byte) : Bool :=
  let (_, _, sw, sh) := srcRect l
  let (_, _, dw, dh) := dstRect l
  !isVideo l || (sw ≤ 8 * dw && dw ≤ 16 * sw && sh ≤ 8 * dh && dh ≤ 16 * sh)

/-! ### Sources (R207, R208) -/

/-- What a decode record says of a source: the buffer to draw, or none, and the layer's flags (R208). -/
def State.recordSource (s : State) (rec : Nat) : Option Nat × Nat :=
  let f := s.le (rec + 2) 2
  if f.testBit 5 || !f.testBit 0 then (none, 1)
  else (some (s.le (rec + 5) 1 % 32), 8 * bnat (f.testBit 4) + 2 * bnat (f.testBit 1))

/-- The size of the picture in a layer's buffer. -/
def State.sourceSize (s : State) (l : List Byte) (buf : Nat) : Nat × Nat :=
  let z := s.bufSize (fieldOf l 0x18 8) buf
  if z = (0, 0) then (s.le (fieldOf l 0x20 8 + 8) 2, s.le (fieldOf l 0x20 8 + 10) 2) else z

/-- SRC_CLIPPED: the coded size is smaller than the source rectangle (R208). -/
def State.clipped (s : State) (l : List Byte) (buf : Nat) : Bool :=
  let z := s.sourceSize l buf
  let d := 2 ^ layerPlane l
  let (sx, sy, sw, sh) := srcRect l
  ceilDiv z.1 d < sx + sw || ceilDiv z.2 d < sy + sh

/-- The source strips that an output strip of a pipelined layer needs; none where the strip holds no row of it (R207). -/
def State.stripsNeeded (s : State) (l : List Byte) (buf k outH : Nat) : Nat :=
  let (_, sy, _, sh) := srcRect l
  let (_, dy, _, dh) := dstRect l
  let last := min (min (16 * (k : Int) + 15) (outH - 1)) (dy + dh - 1)
  if last < 16 * (k : Int) || last < dy then 0
  else
    let h := (s.sourceSize l buf).2
    let plane := layerPlane l
    let ph := ceilDiv h (2 ^ plane)
    let ylast := (2 * sy * dh + (2 * (last - dy) + 1) * sh - dh) / (2 * dh)
    let r := (min (ylast + 2) ((ph : Int) - 1)).toNat
    let r := if plane = 0 then r else if plane = 1 then 2 * r + 1 else 4 * r + 3
    min r (h - 1) / 16 + 1

/-- What a layer's source is for a strip: `none` while it must wait, else the buffer drawn or nothing, with flags. A pipelined layer draws
the buffer of the first notice as far as its strips go, and by the decode record once the task has ended with strips missing (R207, R208). -/
def State.layerSource (s : State) (j : CmpJob) (i k : Nat) : Option (Option Nat × Nat) :=
  let l := j.layers.getD i []
  if !isVideo l then some (none, 0)
  else if !(fieldOf l 1 1).testBit 0 then some (((j.sources.getD i none).getD none), j.flags.getD i 0)
  else
    let ended := if (s.liveTask (fieldOf l 0x28 4)).isNone then some (s.recordSource (fieldOf l 0x20 8)) else none
    match SMap.find? j.seen i with
    | none => ended
    | some (n, b) => if n != 0 && s.stripsNeeded l b k (passSize j.desc).2 ≤ n then some (some b, 0) else ended

/-! ### Samples (R203 to R206) -/

/-- A source sample in the output's depth (R204). -/
def toDepth (from10 to10 : Bool) (v : Nat) : Nat :=
  if from10 == to10 then v else if to10 then v * 4 else min 255 ((v + 2) / 4)

/-- Where an output place falls in a source, on one axis (R205, R207): the source sample at or before it, and the phase of 64 between that
and the next. -/
def scalePlace (src size dst at_ : Nat) : Int × Nat :=
  let n : Int := ((2 * at_ + 1) * size : Nat) - (dst : Int)
  ((src : Int) + n / (2 * dst), (n % (2 * dst)).toNat * 32 / dst)

/-- `n` taps around a place, from `back` samples before it, each held to the source's range (R205). -/
def taps (src size back n : Nat) (place : Int) : List Nat :=
  (List.range n).map fun (k : Nat) => (max (src : Int) (min (src + size - 1 : Int) (place - back + k))).toNat

/-- A scaled sample of a plane from a source rectangle (R205): polyphase filters of 8 taps for luma and 4 for chroma across and of 4 down,
with 64 phases and the rectangle's edge repeated. What a filter makes of its taps is open, since the coefficients are not given. -/
def State.scaledSample (s : State) (p : Plane) (rect size : Nat × Nat × Nat × Nat) (x y c : Nat) : Nat :=
  let (sx, sy, sw, sh) := rect
  let (_, _, dw, dh) := size
  let px := scalePlace sx sw dw x
  let py := scalePlace sy sh dh y
  let xs := if p.comps = 1 then taps sx sw 3 8 px.1 else taps sx sw 1 4 px.1
  let line (y : Nat) : Nat := Config.filter (sw, dw) px.2 (xs.map fun x => s.sample p x y c)
  Config.filter (sh, dh) py.2 ((taps sy sh 1 4 py.1).map line) % 2 ^ (if p.bit10 then 10 else 8)

/-- Y, Cb and Cr of an RGB colour (R204). -/
def toYcc (r g b : Int) : Nat × Nat × Nat :=
  (((47 * r + 157 * g + 16 * b + 128) / 256 + 16).toNat, ((-26 * r - 87 * g + 112 * b + 128) / 256 + 128).toNat,
    ((112 * r - 102 * g - 10 * b + 128) / 256 + 128).toNat)

/-- A graphics pixel: A, R, G and B (R204). -/
def State.pixel (s : State) (l palette : List Byte) (x y : Nat) : Nat × Nat × Nat × Nat :=
  let kind := fieldOf l 0 1
  let row := fieldOf l 0x18 8 + y * fieldOf l 0x14 2
  let argb (v : Nat) : Nat × Nat × Nat × Nat := (v / 16777216 % 256, v / 65536 % 256, v / 256 % 256, v % 256)
  if kind = 1 then argb (s.le (row + 4 * x) 4)
  else if kind = 2 then
    let v := s.le (row + 2 * x) 2
    (v / 4096 % 16 * 17, v / 256 % 16 * 17, v / 16 % 16 * 17, v % 16 * 17)
  else argb (fieldOf palette (4 * (s.byte (row + x)).toNat) 4)

/-- What a drawn layer gives at an output luma position: the weight, Y in the output's depth, and Cb and Cr, of 8 bits where `narrow`, else
in the output's depth. Video and FILL have one weight; a graphics pixel its own. -/
structure Drawn where
  weight : Nat
  y      : Nat
  cb     : Nat
  cr     : Nat
  narrow : Bool
  deriving DecidableEq, Repr

/-- A layer's place within its destination of an output position, if it lies in it. -/
def placeIn (l : List Byte) (x y : Nat) : Option (Nat × Nat) :=
  let (dx, dy, dw, dh) := dstRect l
  let px := (x : Int) - dx
  let py := (y : Int) - dy
  if 0 ≤ px && px < dw && 0 ≤ py && py < dh then some (px.toNat, py.toNat) else none

/-- A sample of a video layer at a place of its destination, in the output's depth (R204 to R206): luma, or component `c` - 1 of chroma, of
the plane the layer names. -/
def State.videoSample (s : State) (l : List Byte) (buf : Nat) (out10 : Bool) (c x y : Nat) : Nat :=
  let ctx := fieldOf l 0x18 8
  let z := s.sourceSize l buf
  let m := s.bufLayout ctx buf
  let (sx, sy, sw, sh) := srcRect l
  let (_, _, dw, dh) := dstRect l
  toDepth (s.ctxBit10 ctx) out10
    (if c = 0 then s.scaledSample (m.luma z.1 z.2 (layerPlane l)) (sx, sy, sw, sh) (0, 0, dw, dh) x y 0
     else s.scaledSample (m.chroma z.1 z.2 (layerPlane l)) (sx / 2, sy / 2, sw / 2, sh / 2) (0, 0, dw / 2, dh / 2) (x / 2) (y / 2) (c - 1))

/-- What a layer gives at a luma position (R203, R204, R208). -/
def State.drawAt (s : State) (j : CmpJob) (i : Nat) (src : Option Nat) (x y : Nat) : Option Drawn :=
  let l := j.layers.getD i []
  let out10 := passBit10 j.desc
  let alpha := fieldOf l 2 1
  match placeIn l x y with
  | none => none
  | some (px, py) =>
    if isVideo l then
      match src with
      | none => some ⟨alpha, toDepth false out10 (fieldOf l 0x2C 1), fieldOf l 0x2D 1, fieldOf l 0x2E 1, true⟩
      | some b => some ⟨alpha, s.videoSample l b out10 0 px py, s.videoSample l b out10 1 px py, s.videoSample l b out10 2 px py, false⟩
    else
      let (sx, sy, _, _) := srcRect l
      let (a, r, g, b) := s.pixel l (j.palettes.getD i []) (sx + px) (sy + py)
      let c := toYcc r g b
      some ⟨(a * alpha + 127) / 255, toDepth false out10 c.1, c.2.1, c.2.2, true⟩

/-- The blend of R204. -/
def blend (a sv d : Nat) : Nat := (a * sv + (255 - a) * d + 127) / 255

/-- The luma sample of a pass (R203, R204). -/
def State.passLuma (s : State) (j : CmpJob) (srcs : List (Option Nat)) (x y : Nat) : Nat :=
  (List.range j.layers.length).foldl (fun d i =>
    match s.drawAt j i (srcs.getD i none) x y with
    | none => d
    | some v => blend v.weight v.y d) (toDepth false (passBit10 j.desc) (fieldOf j.desc 0x10 1))

/-- The chroma sample of a pass: the weight is the mean of the block's four, and graphics give their rounded mean (R204). -/
def State.passChroma (s : State) (j : CmpJob) (srcs : List (Option Nat)) (cx cy c : Nat) : Nat :=
  (List.range j.layers.length).foldl (fun d i =>
    let src := srcs.getD i none
    let four := [(2 * cx, 2 * cy), (2 * cx + 1, 2 * cy), (2 * cx, 2 * cy + 1), (2 * cx + 1, 2 * cy + 1)].filterMap
      fun q => s.drawAt j i src q.1 q.2
    if four.length = 4 then
      let sum (f : Drawn → Nat) : Nat := (four.map f).foldl (· + ·) 0
      let mean := (sum (fun v => if c = 0 then v.cb else v.cr) + 2) / 4
      blend (sum Drawn.weight / 4) (if four.all Drawn.narrow then toDepth false (passBit10 j.desc) mean else mean) d
    else d) (toDepth false (passBit10 j.desc) (fieldOf j.desc (0x11 + c) 1))

/-! ### Passes -/

/-- The job of a CMP. -/
def State.cmpJob (s : State) (i : Nat) : Option CmpJob := SMap.get none s.cmps i

/-- The state with a CMP's job replaced, and BUSY with it. -/
def State.setCmpJob (s : State) (i : Nat) (j : Option CmpJob) : State :=
  { s.putBit (R.CMP_STATUS_BUSY i) j.isSome with cmps := SMap.set none s.cmps i j }

/-- Write the pass record where its address can be used (R211). -/
def State.passRecord (s : State) (desc : List Byte) (status flags strips : Nat) (lf : List Nat) (cycles waits : Nat) : State :=
  let a := fieldOf desc 0x18 8
  if recordUsable a then
    s.writeRecord a [(0, leBytes 1 status), (1, leBytes 1 flags), (2, leBytes 2 strips), (4, slice desc 0x14 0x18),
      (8, ((lf ++ List.replicate 8 0).take 8).flatMap (leBytes 1)), (0x10, slice desc 0x30 0x34), (0x14, leBytes 4 cycles), (0x18, leBytes 4 waits)]
  else s

/-- A pass refused at its check (R202). -/
def State.refusePass (s : State) (cmp slot status : Nat) (desc : List Byte) : State :=
  ((s.passRecord desc status 0 0 [] 0 0).count (R.C_CMP_REFUSED cmp)).unitComplete slot status (0x3020 + cmp) []

/-- The strip-ready counts of the tasks that layers follow, as a pass finds them at its start: those with a strip published (R207). -/
def State.firstNotices (s : State) (ls : List (List Byte)) : SMap (Nat × Nat) :=
  (List.range ls.length).filterMap fun i =>
    let l := ls.getD i []
    if isVideo l && (fieldOf l 1 1).testBit 0 then
      (s.liveTask (fieldOf l 0x28 4)).bind fun t => if t.strips = 0 then none else some (i, (t.strips, t.buf))
    else none

/-- A pass as it is read at its start (R209): its descriptors and palettes, and the records of sources that are not
pipelined (R207). -/
def State.readPass (s : State) (slot addr : Nat) : CmpJob :=
  let d := s.bytes addr 64
  let ls := (List.range (min 8 (fieldOf d 0xF 1))).map fun i => s.bytes (addr + 64 + 64 * i) 64
  let recs := ls.map fun l => if isVideo l && !(fieldOf l 1 1).testBit 0 then some (s.recordSource (fieldOf l 0x20 8)) else none
  ⟨slot, addr, d, ls, ls.map fun l => if fieldOf l 0 1 = 3 then s.bytes (fieldOf l 0x20 8) 1024 else [],
    recs.map fun r => r.map Prod.fst, recs.map fun r => (r.map Prod.snd).getD 0, [], 0, s.firstNotices ls, false, 1⟩

/-- COMPOSE_PASS (R202, R207, R209). -/
def execComposePass (cmp : Fin 4) (s : State) : Result :=
  match s.engineTask 2 cmp, s.cmpJob cmp with
  | some (n, t), none =>
    if t.kind != 3 then .next s
    else
      let j := s.readPass n t.descAddr
      if !passOk j.desc || !(j.layers.all s.layerOk) then .next (s.refusePass cmp n St.cmpDescBad j.desc)
      else if !(j.layers.all scaleOk) then .next (s.refusePass cmp n St.cmpScale j.desc)
      else
        let z := passSize j.desc
        let s := ((s.setCmpJob cmp (some { j with inject := s.armed 2 cmp })).disarm 2 cmp).putPair (R.CMP_CUR_DESC_LO_ADDR cmp) (R.CMP_CUR_DESC_HI_ADDR cmp) j.addr
        let s := s.put (R.CMP_CUR_CYCLES_CYCLES cmp) 0
        .next (s.put (R.CMP_CUR_BUDGET_CYCLES cmp) (min (2 ^ 32 - 1) (s.get (R.CMP_WD_SCALE_SCALE cmp) * (50000 + z.1 * z.2))))
  | _, _ => .next s

/-- Whether INJ_WD makes this attempt expire (R230). -/
def CmpJob.failing (j : CmpJob) : Bool := j.inject && j.attempt == 1

/-- The linked encode tasks of a pass: the first ENC_COUNT of ENC_LINK (R200). -/
def passLinks (d : List Byte) : List Nat :=
  (List.range (min 4 (fieldOf d 0xE 1 / 2 % 8))).map fun i => fieldOf d (0x20 + 4 * i) 4

/-- An output strip goes to every linked encode in progress whose 4-strip input store has room (R210). -/
def State.sendStrip (s : State) (links : List Nat) (k : Nat) : State :=
  { s with vees := s.vees.map fun e => (e.1, e.2.map fun j =>
      if links.contains (s.taskId j.slot) && j.store.length < 4 then { j with store := j.store ++ [k] } else j) }

/-- COMPOSE_STRIP (R203 to R210): once its sources are there, the next strip is composed, written and published. -/
def execComposeStrip (cmp : Fin 4) (s : State) : Result :=
  match s.cmpJob cmp with
  | none => .next s
  | some j =>
    let z := passSize j.desc
    let k := j.strips
    let got := (List.range j.layers.length).map fun i => s.layerSource j i k
    if j.failing || s.isFenced Unit.cmp cmp || stripsOf z.2 ≤ k || got.any Option.isNone then .next s
    else
      let srcs := got.map fun g => (g.getD (none, 0)).1
      let flags := (List.range j.layers.length).map fun i =>
        let l := j.layers.getD i []
        let g := (got.getD i none).getD (none, 0)
        let clip := match g.1 with | some b => isVideo l && s.clipped l b | none => false
        (j.flags.getD i 0) ||| (g.2 + 4 * bnat clip)
      let drawn := ((List.range j.layers.length).filterMap fun i =>
        match srcs.getD i none with
        | some b => some (markAddr (fieldOf (j.layers.getD i []) 0x18 8) b)
        | none => none).filter fun a => !j.drawn.contains a
      let s0 := s
      let l := passLayout j.desc
      let s := s.writeStrip l z.1 z.2 k (fun _ x y => s0.passLuma j srcs x y) (fun _ x y c => s0.passChroma j srcs x y c)
      let s := (s.sendStrip (passLinks j.desc) k).setCmpJob cmp (some { j with strips := k + 1, flags := flags, drawn := j.drawn ++ drawn.eraseDups })
      .next (s.publishStrip (s.taskId j.slot) (k + 1) 0)

/-- The flags of a pass record: each set when a layer has it (R211). -/
def passFlags (lf : List Nat) : Nat := lf.foldl (· ||| ·) 0

/-- COMPOSE_COMPLETE (R210, R211). -/
def execComposeComplete (cmp : Fin 4) (cycles waits : Nat) (s : State) : Result :=
  match s.cmpJob cmp with
  | none => .next s
  | some j =>
    let z := passSize j.desc
    if j.failing || s.isFenced Unit.cmp cmp || j.strips < stripsOf z.2 || s.get (R.CMP_CUR_BUDGET_CYCLES cmp) < cycles then .next s
    else
      let status := if j.attempt = 2 then St.okRetried else St.ok
      let s := s.passRecord j.desc status (passFlags j.flags) j.strips j.flags cycles waits
      let fills := (j.flags.filter fun f => f.testBit 0).length
      let s := ((s.count (R.C_CMP_PASSES cmp)).count (R.C_CMP_PIXELS cmp) (z.1 * z.2)).count (R.C_CMP_BUSY_CYCLES cmp) cycles
      let s := ((s.count (R.C_CMP_WAIT_CYCLES cmp) waits).count (R.C_CMP_FILL_LAYERS cmp) fills).put (R.CMP_CUR_CYCLES_CYCLES cmp) cycles
      let s := (s.setCmpJob cmp none).unitComplete j.slot status (0x3020 + cmp) j.drawn
      .next (if j.attempt = 2 then s.retried Unit.cmp cmp 8 (s.taskId j.slot) else s)

/-- A write outside a CMP's windows is blocked, latched, logged and counted (R227). -/
def State.cmpBlocked (s : State) (cmp a task : Nat) : State :=
  let s := s.putPair (R.CMP_BOUNDS_LAST_LO_ADDR cmp) (R.CMP_BOUNDS_LAST_HI_ADDR cmp) a
  (s.log Unit.cmp cmp Sev.warn Ev.boundsBlocked a task).count (R.C_CMP_BOUNDS_BLOCKED cmp)

/-- Whether an address lies in a window that a pass may write (R227): its output buffer or its record. -/
def cmpWindow (d : List Byte) (a : Nat) : Bool :=
  let l := passLayout d
  let r := fieldOf d 0x18 8
  (l.base ≤ a && a < l.base + l.fullSize) || (recordUsable r && r ≤ a && a < r + 64)

/-- CMP_WATCHDOG_EXPIRY (R227, R228, R230): the cycles spent exceed the budget, INJ_WD says so, or a write outside the windows is blocked; a
second expiry fences the engine. -/
def execCmpWatchdogExpiry (cmp : Fin 4) (cycles : Nat) (blocked : Option Nat) (s : State) : Result :=
  match s.cmpJob cmp with
  | none => .next s
  | some j =>
    let blocked := blocked.filter fun a => !cmpWindow j.desc a
    if s.isFenced Unit.cmp cmp || s.endsNow 2 cmp || (!j.failing && blocked.isNone && cycles ≤ s.get (R.CMP_CUR_BUDGET_CYCLES cmp)) then .next s
    else
      let s := s.count (R.C_CMP_BUSY_CYCLES cmp) cycles
      let s := match blocked with | some a => s.cmpBlocked cmp a (s.taskId j.slot) | none => s
      if j.attempt = 1 then
        .next ((s.setCmpJob cmp (some { j with attempt := 2 })).put (R.CMP_CUR_CYCLES_CYCLES cmp) 0)
      else
        let s := (s.fence Unit.cmp cmp 8 (s.taskId j.slot)).putBit (R.CMP_STATUS_BUSY cmp) false
        .next (s.loseUnit 2 cmp)

/-- The pass that a fenced CMP left in a slot. -/
def State.lostPass (s : State) (slot : Nat) : Option (Nat × CmpJob) :=
  s.cmps.findSome? fun e => match e.2 with | some j => if j.slot == slot && s.isFenced Unit.cmp e.1 then some (e.1, j) else none | none => none

/-- COMPOSE_FILL (R228): every unpublished strip is published as BG, and the record carries FILLED. -/
def execComposeFill (cmp : Fin 4) (cycles : Nat) (s : State) : Result :=
  match s.engineTask 2 cmp, s.cmpJob cmp with
  | some (n, t), none =>
    if t.kind != 4 then .next s
    else
      let j := match s.lostPass n with | some (_, j) => j | none => s.readPass n t.descAddr
      if !passOk j.desc then .next (s.refusePass cmp n St.cmpDescBad j.desc)
      else
        let z := passSize j.desc
        let l := passLayout j.desc
        let bg (c : Nat) : Nat := toDepth false (passBit10 j.desc) (fieldOf j.desc (0x10 + c) 1)
        let s := (span j.strips (stripsOf z.2)).foldl (fun (s : State) k =>
          (s.writeStrip l z.1 z.2 k (fun _ _ _ => bg 0) (fun _ _ _ c => bg (1 + c))).publishStrip (s.taskId n) (k + 1) 0) s
        let s := s.passRecord j.desc St.unitFenced (passFlags j.flags ||| 16) (stripsOf z.2) j.flags cycles 0
        let s := match s.lostPass n with | some (i, _) => { s with cmps := SMap.set none s.cmps i none } | none => s
        .next ((s.count (R.C_CMP_BUSY_CYCLES cmp) cycles).unitComplete n St.unitFenced (0x3020 + cmp) j.drawn)
  | _, _ => .next s

end Sys2Proof.Machine
end

