-- ==== Sys2Proof/Machine/Vee.lean ====
section
/-! DEFINITION. The Video Encode Engines (spec/06_compose_encode.md, R212 to R224, R227 to R230; tile encodes,
spec/07_tile_layouts.md, R235 to R241). What the standards and the mode decision make of a row comes with the commands. -/

namespace Sys2Proof.Machine

open Sys2Proof

/-! ### Contexts and descriptors (R214, R215, R237, R239) -/

/-- Whether a context codes 10-bit samples (R212). -/
def encBit10 (c : List Byte) : Bool := fieldOf c 0 1 != 0 && fieldOf c 1 1 == 1

/-- H_U: the luma rows of a coding row (R217). -/
def encUnit (c : List Byte) : Nat :=
  if fieldOf c 0 1 = 0 then 16 else if fieldOf c 0 1 = 2 && fieldOf c 6 1 = 1 then 32 else 64

/-- The coding rows of a picture. -/
def encRows (c : List Byte) : Nat := ceilDiv (fieldOf c 4 2) (encUnit c)

/-- U_w: the coding units across a picture. -/
def encUnits (c : List Byte) : Nat := ceilDiv (fieldOf c 2 2) (encUnit c)

/-- The luma samples of the coded picture: its size padded to whole coding units (R212). -/
def encSamples (c : List Byte) : Nat := encRows c * encUnit c * (encUnits c * encUnit c)

/-- The bytes of the luma, chroma and motion planes of a reconstruction buffer (R177, R214). -/
def reconNeed (c : List Byte) : Nat :=
  let l : Layout := ⟨0, fieldOf c 0x2C 2, up16 (fieldOf c 4 2), encBit10 c, false, false⟩
  l.fullSize + ceilDiv (fieldOf c 2 2) 16 * (l.rows / 16) * 16

/-- Whether bytes 0x00 to 0x2F of an encode context are in range (R214). -/
def encOk (c : List Byte) : Bool :=
  let codec := fieldOf c 0 1
  let w := fieldOf c 2 2
  let h := fieldOf c 4 2
  (codec == 0 || codec == 2 || codec == 3) && fieldOf c 1 1 ≤ (if codec = 0 then 2 else 1) && 64 ≤ w && w ≤ 4096 && w % 2 == 0 &&
    64 ≤ h && h ≤ 2304 && h % 2 == 0 && fieldOf c 6 1 ≤ (if codec = 2 then 1 else 0) && fieldOf c 7 1 ≤ 2 &&
    16 ≤ fieldOf c 8 4 && fieldOf c 8 4 ≤ 200000 &&
    (fieldOf c 7 1 != 1 || (fieldOf c 8 4 ≤ fieldOf c 0xC 4 && fieldOf c 0xC 4 ≤ 400000)) && 150 ≤ fieldOf c 0x10 2 &&
    fieldOf c 0x10 2 ≤ 800 && 1 ≤ fieldOf c 0x12 1 && fieldOf c 0x12 1 ≤ 60 && fieldOf c 0x13 1 ≤ 51 &&
    fieldOf c 0x13 1 ≤ fieldOf c 0x14 1 && fieldOf c 0x14 1 ≤ 51 && fieldOf c 0x15 1 ≤ 51 && fieldOf c 0x16 1 ≤ 3 &&
    1 ≤ fieldOf c 0x17 1 && fieldOf c 0x17 1 ≤ 3 && (fieldOf c 0x1A 2 == 0 || 300 ≤ fieldOf c 0x1A 2) && fieldOf c 0x1C 4 == 0 &&
    fieldOf c 0x20 8 % 4096 == 0 && fieldOf c 0x28 4 % 4096 == 0 && reconNeed c ≤ fieldOf c 0x28 4 && fieldOf c 0x2C 2 % 64 == 0 &&
    w * sampleBytes (encBit10 c) ≤ fieldOf c 0x2C 2 && fieldOf c 0x2E 2 == 0

/-- The size of a tier (R233). -/
def tierSize (t : Nat) : Nat × Nat := (320 * 2 ^ (t - 1), 192 * 2 ^ (t - 1))

/-- The address of a tile set's entry (R240). -/
def State.tsetAddr (s : State) (n : Nat) : Nat := s.pair R.TSP_TSET_BASE_LO_ADDR R.TSP_TSET_BASE_HI_ADDR + n * 64

/-- FPS of the layout cadence (R242). -/
def State.cadence (s : State) : Nat := if s.isSet R.TSP_CADENCE_RATE then 15 else 30

/-- Whether a tile set may have an intra picture at a tick (R253): its first, or ENTRY_HOLDOFF after the latest. -/
def State.entryAllowed (s : State) (tset tick : Nat) : Bool :=
  let first := s.le (s.tsetAddr tset + 0x28) 4 + s.obj 0x506004 0 8
  s.le (s.tsetAddr tset + 4) 4 = 0 || tick % 2 ^ 32 = first % 2 ^ 32 || timeAfter tick (first % 2 ^ 32)

/-- Whether a tile extension is valid (R239). -/
def State.tileOk (s : State) (e : List Byte) : Bool :=
  let tier := fieldOf e 0 1
  let tset := fieldOf e 2 2
  1 ≤ tier && tier ≤ 3 && tset ≤ 16383 && fieldOf e 8 8 % 64 == 0 && s.le (s.tsetAddr tset + 2) 1 == tier

/-- Whether a context serves a tile encode (R237). -/
def State.tileCtxOk (s : State) (c e : List Byte) : Bool :=
  fieldOf c 0 1 == 2 && fieldOf c 1 1 == 0 && fieldOf c 6 1 == 0 && (fieldOf c 2 2, fieldOf c 4 2) == tierSize (fieldOf e 0 1) &&
    fieldOf c 0x17 1 == 1 && fieldOf c 0x1A 2 == 0 && fieldOf c 0x12 1 == s.cadence

/-! ### Rate control (R218, R219, R223) -/

/-- The budget and the cap of a picture (R218): the budget of a CQP picture is none. -/
def pictureBudget (c : List Byte) (intra : Bool) (debt : Int) (outSize : Nat) : Option Int × Nat :=
  let n : Nat := fieldOf c 8 4 * 125 / fieldOf c 0x12 1
  let m : Nat := fieldOf c 0xC 4 * 125 / fieldOf c 0x12 1
  let k : Nat := if intra then 3 else 1
  let b : Int := (k * n : Nat) - max (-((n / 2 : Nat) : Int)) (min ((3 * n / 4 : Nat) : Int) debt)
  let b := max b ((n / 4 : Nat) : Int)
  match fieldOf c 7 1 with
  | 0 => (some b, k * n * fieldOf c 0x10 2 / 100)
  | 1 => (some (min b ((m * k : Nat) : Int)), k * fieldOf c 0xC 4 * 125 / fieldOf c 0x12 1 * fieldOf c 0x10 2 / 100)
  | _ => (none, outSize - 512)

/-- Whether 6 × log2(x / y) is above `k` - 1/2: where the twelfth power passes an odd power of 2. -/
def passesStep (x y k : Nat) : Bool := y ^ 12 * 2 ^ (2 * k - 1) < x ^ 12

/-- round(6 × log2(u / b)), held within ±4 (R219). -/
def qpStep (u b : Nat) : Int :=
  if passesStep u b 4 then 4 else if passesStep u b 3 then 3 else if passesStep u b 2 then 2 else if passesStep u b 1 then 1
  else if passesStep b u 4 then -4 else if passesStep b u 3 then -3 else if passesStep b u 2 then -2 else if passesStep b u 1 then -1 else 0

/-- The first base QP by bits per pixel and picture size (R223). -/
def firstQp (c : List Byte) : Nat :=
  let px := fieldOf c 2 2 * fieldOf c 4 2
  let bits := fieldOf c 8 4 * 1000
  let per := fieldOf c 0x12 1 * px
  let row := if per * 2 ≤ bits * 10 then 22 else if per ≤ bits * 10 then 26 else if per ≤ bits * 20 then 30
    else if per ≤ bits * 40 then 34 else if per ≤ bits * 80 then 38 else 42
  row + (if px ≤ 230400 then 0 else if px ≤ 921600 then 1 else 2) - (if fieldOf c 0 1 = 2 then 2 else 0)

/-- A QP held within QP_MIN to QP_MAX (R219). -/
def holdQp (c : List Byte) (q : Int) : Nat := (max (fieldOf c 0x13 1 : Int) (min (fieldOf c 0x14 1 : Int) q)).toNat

/-- The skip-row bound S (R219, R238). -/
def skipBound (c : List Byte) (intra tile : Bool) : Nat :=
  let u := encUnits c
  if intra then 4 * u + 4 else if tile then ceilDiv u 2 + 4 else ceilDiv u 8 + 4

/-- What a truncated row holds (R219, R238). -/
def skippedAs (codec : Nat) (intra tile : Bool) : Skipped :=
  if intra then .dcOnly else if tile then .zeroMerge else if codec = 0 then .pSkip else if codec = 2 then .mergeSkip else .skipMode

/-- The temporal layer of a place in the pattern (R212). -/
def temporalId (layers place : Nat) : Nat :=
  if layers = 2 then place % 2 else if layers = 3 then [0, 2, 1, 2].getD (place % 4) 0 else 0

/-! ### Records (R216, R241) -/

/-- The job of a VEE. -/
def State.veeJob (s : State) (i : Nat) : Option VeeJob := SMap.get none s.vees i

/-- The state with a VEE's job replaced, and BUSY with it. -/
def State.setVeeJob (s : State) (i : Nat) (j : Option VeeJob) : State :=
  { s.putBit (R.VEE_STATUS_BUSY i) j.isSome with vees := SMap.set none s.vees i j }

/-- Whether a task is a tile encode. -/
def State.isTile (s : State) (slot : Nat) : Bool := (s.taskAt slot).kind == 6

/-- A tile record and its table entry for a picture that was not coded (R241, R248). -/
def State.tileNotCoded (s : State) (ext : List Byte) (out status : Nat) : State :=
  let a := s.tsetAddr (fieldOf ext 2 2)
  let rec_ := fieldOf ext 8 8
  let s := (s.setBytes rec_ (overlay (s.freeBytes 192) [(0, leBytes 1 status), (1, leBytes 1 2), (2, slice ext 0 1), (3, leBytes 1 0),
    (4, slice ext 2 4), (6, s.bytes a 2), (8, slice ext 4 8), (0xC, s.bytes (a + 4) 4), (0x10, leBytes 8 out), (0x18, leBytes 4 0)])).spent
  s.setLe (a + 8 + 8 * (fieldOf ext 4 4 % 4)) 8 rec_

/-- A picture that is not coded: its record, and for a tile encode its tile record (R216, R241). -/
def State.notCoded (s : State) (vee slot status effort : Nat) (stepped : Bool) : State :=
  let d := s.bytes (s.taskAt slot).descAddr 64
  let r := fieldOf d 0x30 8
  let s := if recordUsable r then
      s.writeRecord r [(0, leBytes 1 status), (1, leBytes 1 effort), (2, leBytes 2 (32 + 16 * bnat stepped)), (8, leBytes 4 0),
        (0x18, slice d 0x38 0x3C), (0x20, leBytes 2 0)]
    else s
  let e := s.bytes ((s.taskAt slot).descAddr + 64) 64
  let s := if s.isTile slot && s.tileOk e then s.tileNotCoded e (fieldOf d 0x20 8) status else s
  s.count (R.C_VEE_NOT_CODED vee)

/-! ### Starting (R214, R215, R218, R219, R223, R224, R237, R239) -/

/-- The octets of `v` as leb128. -/
def leb128Of : Nat → Nat → List Byte
  | 0, _ => []
  | fuel + 1, v => if v < 128 then [BitVec.ofNat 8 v] else BitVec.ofNat 8 (v % 128 + 128) :: leb128Of fuel (v / 128)

/-- What a picture begins with (R212): a temporal delimiter for AV1, and before an intra picture its parameter sets or sequence header, whose
payloads are the standard's. H.264 has SPS and PPS, H.265 VPS, SPS and PPS. The lengths of NAL units are written at the end. -/
def picturePrefix (codec : Nat) (intra : Bool) (sets : List (List Byte)) : List Byte :=
  let set (i : Nat) : List Byte := sets.getD i []
  let nal (h : List Byte) (i : Nat) : List Byte := [0, 0, 0, 0] ++ h ++ set i
  if codec = 3 then [0x12, 0] ++ (if intra then 0x0A :: leb128Of 8 (set 0).length ++ set 0 else [])
  else if !intra then []
  else if codec = 0 then nal [0x67] 0 ++ nal [0x68] 1
  else nal [0x40, 1] 0 ++ nal [0x42, 1] 1 ++ nal [0x44, 1] 2

/-- The picture that a task codes, from its descriptor and context as they stand. -/
def State.planPicture (s : State) (slot : Nat) (t : Task) (sets : List (List Byte)) : VeeJob :=
  let d := s.bytes t.descAddr 64
  let ctx := fieldOf d 0 8
  let c := s.bytes ctx 0x30
  let x := SMap.get EncCodec.init s.encs ctx
  let start := s.le (ctx + 0x40) 1 = 0
  let size := s.le (ctx + 0x44 - 2) 2 != fieldOf c 2 2 || s.le (ctx + 0x5C) 2 != fieldOf c 4 2
  let other := !start && (size || x.codec != fieldOf c 0 1 || x.profile != fieldOf c 1 1 || x.cu != fieldOf c 6 1)
  let resetReq := (fieldOf d 0x2C 2).testBit 1
  let fresh := start || other || resetReq
  let since := s.le (ctx + 0x53) 1
  let period := fieldOf c 0x18 2
  let intra := fresh || (fieldOf d 0x2C 2).testBit 0 || (period != 0 && period ≤ since)
  let keepW := resetReq && !start && !size
  let n := encRows c
  let weights := if fresh && !keepW then List.replicate n 1 else (s.bytes (ctx + 0x60) n).map BitVec.toNat
  let debt : Int := if fresh then 0 else signed 32 (s.le (ctx + 0x4C) 4)
  let tile := t.kind == 6
  let maxqp := if fresh then 3 * skipBound c false tile else s.le (ctx + 0x50) 2
  let b := pictureBudget c intra debt (fieldOf d 0x28 4)
  let place := if intra then 0 else x.place + 1
  let p : Int := (s.le (ctx + 0x52) 1 : Int) + qpStep (s.le (ctx + 0x54) 4) (s.le (ctx + 0x58) 4)
  let hdr := (picturePrefix (fieldOf c 0 1) intra sets).length
  let least := fieldOf c 0x16 1
  let baseQp := if fieldOf c 7 1 = 2 then fieldOf c 0x15 1
    else if fresh then holdQp c (firstQp c)
    else if intra then holdQp c ((holdQp c p : Int) - 2)
    else holdQp c p
  ⟨slot, d, ctx, c, weights, debt, maxqp, intra, other || resetReq, fresh, max t.effort least,
    t.stepped && least < t.effort, temporalId (fieldOf c 0x17 1) place, place,
    fieldOf c 8 4 * 125 / fieldOf c 0x12 1, b.1.getD 0, b.2, baseQp, hdr, baseQp, hdr, 0, [], none, none, start, fresh && !keepW, [],
    false, 1⟩

/-- Whether an address lies in a window that an encode may write (R227): reconstruction buffers, bitstream buffer or record. -/
def VeeJob.window (j : VeeJob) (a : Nat) : Bool :=
  let rec_ := fieldOf j.desc 0x30 8
  let out := fieldOf j.desc 0x20 8
  let recon := fieldOf j.cfg 0x20 8
  (recon ≤ a && a < recon + 3 * fieldOf j.cfg 0x28 4) || (out ≤ a && a < out + fieldOf j.desc 0x28 4) || (rec_ ≤ a && a < rec_ + 64)

/-- The first address past the bitstream buffer that octets after the first `n` would reach. -/
def VeeJob.overrun (j : VeeJob) (n len : Nat) : Option Nat :=
  if n + len ≤ fieldOf j.desc 0x28 4 then none else some (fieldOf j.desc 0x20 8 + max n (fieldOf j.desc 0x28 4))

/-- The picture again from its start. -/
def VeeJob.again (j : VeeJob) : VeeJob :=
  { j with qp := j.baseQp, spent := j.hdr, share := 0, rows := [], maxFrom := none, cutFrom := none, attempt := 2 }

/-- An expiry, or a write outside the windows, which is blocked (R227, R228): a second fences the engine and the picture is not coded. -/
def State.veeExpires (s : State) (vee : Nat) (j : VeeJob) (cycles : Nat) (blocked : Option Nat) : State :=
  let s := s.count (R.C_VEE_BUSY_CYCLES vee) cycles
  let s := match blocked with
    | some a => (s.putPair (R.VEE_BOUNDS_LAST_LO_ADDR vee) (R.VEE_BOUNDS_LAST_HI_ADDR vee) a).log Unit.vee vee Sev.warn Ev.boundsBlocked a (s.taskId j.slot)
    | none => s
  if j.attempt = 1 then (s.setVeeJob vee (some j.again)).put (R.VEE_CUR_CYCLES_CYCLES vee) 0
  else
    let s := s.notCoded vee j.slot St.unitFenced j.effort j.stepped
    let s := (s.setLe (j.ctx + 0x41) 1 0).setVeeJob vee none
    (s.fence Unit.vee vee 8 (s.taskId j.slot)).loseUnit 1 vee

/-- A tile set's entry request that waited for its first allowed tick is in this descriptor, if the tick is allowed (R253). -/
def State.grantEntry (s : State) (desc : Nat) (ext : List Byte) : State :=
  let tset := fieldOf ext 2 2
  let tick := fieldOf ext 4 4
  if SMap.get false s.fw.waiting tset && s.entryAllowed tset tick then
    (s.setLe (desc + 0x2C) 2 (s.le (desc + 0x2C) 2 ||| 1)).withFw fun y => { y with waiting := SMap.set false y.waiting tset false }
  else s

/-- ENCODE_START (R212 to R215): a VEE takes the encode task it was given; `sets` are the parameter sets or sequence header that the standard
gives an intra picture. -/
def execEncodeStart (vee : Fin 16) (sets : List (List Byte)) (s : State) : Result :=
  match s.engineTask 1 vee, s.veeJob vee with
  | some (n, t), none =>
    let e := s.bytes (t.descAddr + 64) 64
    let s := if t.kind == 6 then s.grantEntry t.descAddr e else s
    let d := s.bytes t.descAddr 64
    let ctx := fieldOf d 0 8
    let c := s.bytes ctx 0x30
    if !encOk c || ctx % 256 != 0 || s.le (ctx + 0x41) 1 != 0 || fieldOf d 0x30 8 % 64 != 0 ||
        (t.kind == 6 && (!s.tileOk e || !s.tileCtxOk c e)) then
      .next ((s.notCoded vee n St.encCtxBad t.effort t.stepped).unitComplete n St.encCtxBad (0x3010 + vee) [])
    else
      let j := { s.planPicture n t sets with inject := s.armed 1 vee }
      if fieldOf d 0x28 4 < j.cap + 512 then
        .next ((s.notCoded vee n St.encOutSmall j.effort j.stepped).unitComplete n St.encOutSmall (0x3010 + vee) [])
      else
        let hdr := picturePrefix (fieldOf c 0 1) j.intra sets
        let s := (s.setLe (ctx + 0x41) 1 (vee.val + 1)).setBytes (fieldOf d 0x20 8) (hdr.take (fieldOf d 0x28 4))
        let s := (s.setVeeJob vee (some j)).disarm 1 vee
        let s := s.putPair (R.VEE_CUR_DESC_LO_ADDR vee) (R.VEE_CUR_DESC_HI_ADDR vee) t.descAddr
        let s := (s.put (R.VEE_CUR_CYCLES_CYCLES vee) 0).put (R.VEE_CUR_EFFORT_LEVEL vee) j.effort
        let s := s.put (R.VEE_CUR_BUDGET_CYCLES vee) (min (2 ^ 32 - 1) (s.get (R.VEE_WD_SCALE_SCALE vee) * (100000 + 2 * encSamples c)))
        .next (match j.overrun 0 hdr.length with | some a => s.veeExpires vee j 0 (some a) | none => s)
  | _, _ => .next s

/-! ### Rows (R217 to R222, R238) -/

/-- Whether the source rows of coding row `i` are published (R217). -/
def State.rowReady (s : State) (j : VeeJob) (i : Nat) : Bool :=
  let last := min ((i + 1) * encUnit j.cfg - 1) (fieldOf j.cfg 4 2 - 1)
  !(fieldOf j.desc 0x1A 1).testBit 0 ||
    (match s.liveTask (fieldOf j.desc 0x1C 4) with
     | none => true
     | some t => last / 16 < t.strips)

/-- The change of QP after a row by the cumulative spend against the cumulative shares (R219). -/
def qpChange (spend share : Int) : Int :=
  if 130 * share < 100 * spend then 2 else if 115 * share < 100 * spend then 1
  else if 100 * spend < 70 * share then -2 else if 100 * spend < 85 * share then -1 else 0

/-- The reconstruction buffer that holds no reference (R217). -/
def EncCodec.target (x : EncCodec) : Nat := ((List.range 3).find? fun b => b != x.t0 && b != x.le1).getD 2

/-- What a VEE keeps of the stream as this picture finds it: nothing for a context that was in START. -/
def State.encState (s : State) (j : VeeJob) : EncCodec := if j.blank then EncCodec.init else SMap.get EncCodec.init s.encs j.ctx

/-- The source samples of coding row `i`, luma and then Cb and Cr interleaved, at the depth that is coded (R204, R212, R215). -/
def State.sourceRow (s : State) (j : VeeJob) (i : Nat) : List Nat :=
  let w := fieldOf j.cfg 2 2
  let h := fieldOf j.cfg 4 2
  let b10 := (fieldOf j.desc 0x1A 1).testBit 1
  let u := encUnit j.cfg
  let luma : Plane := ⟨fieldOf j.desc 8 8, fieldOf j.desc 0x18 2, w, h, b10, 1⟩
  let chroma : Plane := ⟨fieldOf j.desc 0x10 8, fieldOf j.desc 0x18 2, w / 2, h / 2, b10, 2⟩
  let rows (p : Plane) (n : Nat) : List Nat := (span (i * n) (min ((i + 1) * n) p.height)).flatMap fun y =>
    (List.range (p.width * p.comps)).map fun x => toDepth b10 (encBit10 j.cfg) (s.sample p (x / p.comps) y (x % p.comps))
  rows luma u ++ rows chroma (u / 2)

/-- The reconstruction of a coding row, into the buffer that holds no reference: octets that the standard and the mode decision make of the
source, and the spec does not give (R217). -/
def State.writeRecon (s : State) (j : VeeJob) (i : Nat) : State :=
  let stride := fieldOf j.cfg 0x2C 2
  let base := fieldOf j.cfg 0x20 8 + (s.encState j).target * fieldOf j.cfg 0x28 4
  let u := encUnit j.cfg
  let rows := min u (up16 (fieldOf j.cfg 4 2) - i * u)
  let src := s.sourceRow j i
  let made (n : Nat) (s : State) : List Byte := (List.range n).map (Config.reconOctet s.freeCtr src)
  let s := (s.setBytes (base + i * u * stride) (made (rows * stride) s)).spent
  (s.setBytes (base + up16 (fieldOf j.cfg 4 2) * stride + i * u / 2 * stride) (made (rows / 2 * stride) s)).spent

/-- Whether the samples that a unit reads on one axis lie within a limit (R236): `at_` and `size` of the unit, `mv` in units of 2^`k`. -/
def readsWithin (at_ size limit back : Nat) (mv : Int) (k : Nat) : Bool :=
  let i : Int := at_ + mv / 2 ^ k
  let b : Int := if mv % 2 ^ k != 0 then back else 0
  let e : Int := if mv % 2 ^ k != 0 then (if back = 3 then 3 else 1) else -1
  0 ≤ i - b && i + size + e ≤ (limit : Int) - 1

/-- Whether a prediction unit of a tile encode keeps its reads inside the tier region (R236). -/
def unitInside (u : PredUnit) (w h : Nat) : Bool :=
  readsWithin u.x u.w w 3 u.mvx 2 && readsWithin u.y u.h h 3 u.mvy 2 && readsWithin (u.x / 2) (u.w / 2) (w / 2) 1 u.mvx 3 &&
    readsWithin (u.y / 2) (u.h / 2) (h / 2) 1 u.mvy 3

/-- The strips left in the input store once row `i` is coded (R210, R217). -/
def VeeJob.storeAfter (j : VeeJob) (i : Nat) : List Nat := j.store.filter fun k => (i + 1) * encUnit j.cfg < 16 * k + 16

/-- Whether INJ_WD makes this attempt expire (R230). -/
def VeeJob.failing (j : VeeJob) : Bool := j.inject && j.attempt == 1

/-- ENCODE_ROW (R217, R219 to R221, R236, R238): the next row as the VEE codes it at its QP, with its prediction units, or as a truncated
row. A tile encode codes no unit that reads outside its region. -/
def execEncodeRow (vee : Fin 16) (coded : RowCode) (trunc : List Byte) (s : State) : Result :=
  match s.veeJob vee with
  | none => .next s
  | some j =>
    let total := encRows j.cfg
    let i := j.rows.length
    let left := total - i
    let tile := s.isTile j.slot
    let bound := skipBound j.cfg j.intra tile
    if j.failing || s.isFenced Unit.vee vee || total ≤ i || !s.rowReady j i || bound < trunc.length ||
        (tile && coded.units.any fun u => !unitInside u (fieldOf j.cfg 2 2) (fieldOf j.cfg 4 2)) then .next s
    else
      let cqp := fieldOf j.cfg 7 1 == 2
      let maxNow := !cqp && j.maxFrom.isNone && j.budget - j.spent < (left * j.maxqp : Nat)
      let maxFrom := if maxNow then some i else j.maxFrom
      let qp := if maxFrom.isSome then fieldOf j.cfg 0x14 1 else j.qp
      let fits := j.cutFrom.isNone && j.spent + coded.octets.length + (left - 1) * bound ≤ j.cap
      let cutFrom := if fits then none else some (j.cutFrom.getD i)
      let out := if fits then coded.octets else trunc
      match j.overrun j.spent out.length with
      | some a => .next (s.veeExpires vee j 0 (some a))
      | none =>
        let wsum := (j.weights.drop i).foldl (· + ·) 0
        let share := j.share + (j.budget - j.spent) * (j.weights.getD i 1 : Int) / (max 1 wsum : Nat)
        let spent := j.spent + out.length
        let next := if cqp then qp else holdQp j.cfg ((qp : Int) + qpChange ((spent : Int) - j.hdr) share)
        let s := s.setBytes (fieldOf j.desc 0x20 8 + j.spent) out
        let s := s.writeRecon j i
        let row : CodedRow := ⟨qp, out.length, if fits then none else some (skippedAs (fieldOf j.cfg 0 1) j.intra tile)⟩
        .next (s.setVeeJob vee (some { j with qp := next, spent := spent, share := share, rows := j.rows ++ [row], maxFrom := maxFrom,
                                              cutFrom := cutFrom, store := j.storeAfter i }))

/-! ### Completion (R212, R216, R218, R219, R223, R241) -/

/-- Write the length prefixes of the NAL units of a picture (R212). -/
def State.prefixUnits (s : State) (a : Nat) : List Nat → State
  | [] => s
  | n :: ns => (s.setBytes a (beBytes 4 n)).prefixUnits (a + 4 + n) ns

/-- The offset and length of each slice NAL unit among units at an address. -/
def State.sliceUnits (s : State) (a off : Nat) : List Nat → List (Nat × Nat)
  | [] => []
  | n :: ns =>
    let rest := s.sliceUnits a (off + 4 + n) ns
    if (s.byte (a + off + 4)).toNat / 2 % 64 < 32 then (off + 4, n) :: rest else rest

/-- The tile record, then the table entry (R241). -/
def State.tileRecord (s : State) (j : VeeJob) (ext : List Byte) (status : Nat) (units : List Nat) : State :=
  let a := s.tsetAddr (fieldOf ext 2 2)
  let seq := (s.le (a + 4) 4 + 1) % 2 ^ 32
  let out := fieldOf j.desc 0x20 8
  let sl := s.sliceUnits out 0 units
  let rec_ := fieldOf ext 8 8
  let s := (s.setBytes rec_ (overlay (s.freeBytes 192) [(0, leBytes 1 status),
    (1, leBytes 1 (bnat j.intra + 4 * bnat j.cutFrom.isSome)), (2, slice ext 0 1), (3, leBytes 1 sl.length), (4, slice ext 2 4),
    (6, s.bytes a 2), (8, slice ext 4 8), (0xC, leBytes 4 seq), (0x10, leBytes 8 out), (0x18, leBytes 4 (sl.foldl (fun v x => v + x.2) 0)),
    (0x40, ((sl.take 16).flatMap fun x => leBytes 4 x.1 ++ leBytes 4 x.2))])).spent
  let s := (s.setLe (a + 4) 4 seq).setLe (a + 8 + 8 * (fieldOf ext 4 4 % 4)) 8 rec_
  if j.intra then s.setLe (a + 0x28) 4 (fieldOf ext 4 4) else s

/-- The mean of the QPs of the rows that were coded, and AV1's form of it (R216). -/
def avgQp (c : List Byte) (rows : List CodedRow) : Nat :=
  let q := rows.filter fun r => r.cut.isNone
  let m := (q.map CodedRow.qp).foldl (· + ·) 0 / max 1 q.length
  if fieldOf c 0 1 = 3 then min 255 (4 * m + 8) / 4 else m

/-- The rate state and the rest of a context after a coded picture (R218, R219, R223). -/
def State.updateEncCtx (s : State) (j : VeeJob) : State :=
  let c := j.cfg
  let x := j.ctx
  let n : Int := j.nominal
  let debt := max (-8 * n) (min (8 * n) (j.debt + (j.spent : Int) - n))
  let cqp := fieldOf c 7 1 == 2
  let costs := j.rows.map CodedRow.bytes
  let top := max 1 (costs.foldl max 0)
  let weights := if cqp then j.weights else costs.map fun v => max 1 (v * 255 / top)
  let atMax := j.rows.filter fun r => r.cut.isNone && r.qp == fieldOf c 0x14 1
  let est := if cqp || atMax.isEmpty then j.maxqp else (atMax.map CodedRow.bytes).foldl (· + ·) 0 / atMax.length
  let weights := if j.anew then weights ++ List.replicate (144 - weights.length) 1 else weights
  let s := if cqp && !j.start then s else s.setBytes (x + 0x60) (weights.flatMap (leBytes 1))
  let s := (s.setLe (x + 0x4C) 4 (unsigned 32 debt)).setLe (x + 0x50) 2 est
  let s := if j.start then s.setLe (x + 0x52) 1 (j.baseQp + 2) else if j.intra then s else s.setLe (x + 0x52) 1 j.baseQp
  let s := s.setLe (x + 0x53) 1 (if j.intra then 0 else min 255 (s.le (x + 0x53) 1 + 1))
  let b := if cqp then s.free (2 ^ 32) else j.budget.toNat
  let s := ((s.setLe (x + 0x54) 4 j.spent).setLe (x + 0x58) 4 b).spent
  let s := (s.setLe (x + 0x42) 2 (fieldOf c 2 2)).setLe (x + 0x5C) 2 (fieldOf c 4 2)
  let s := s.ctxCount x 0x44 1
  let s := if j.cutFrom.isSome then s.ctxCount x 0x48 1 else s
  let old := s.encState j
  let t := old.target
  let e : EncCodec := ⟨fieldOf c 0 1, fieldOf c 1 1, fieldOf c 6 1, j.target % 4,
    if j.tid = 0 then t else old.t0, if j.tid ≤ 1 then t else old.le1⟩  -- an intra picture is in layer 0, and so leaves no older reference
  let s := { (s.setBytes (x + 0xF0) (s.freeBytes 16)).spent with encs := SMap.set EncCodec.init s.encs x e }
  (s.setLe (x + 0x40) 1 1).setLe (x + 0x41) 1 0

/-- Whether an octet string is one OBU with obu_has_size_field = 1 (R212). -/
def isSizedObu (u : List Byte) : Bool :=
  let b := (u.headD 0).toNat
  let h := if b.testBit 2 then 2 else 1
  b.testBit 1 && (match leb128 8 (u.drop h) with | some (v, n) => u.length == h + n + v | none => false)

/-- Whether a unit holds slice data, or an AV1 tile group (R214). -/
def isSliceUnit (codec : Nat) (u : List Byte) : Bool :=
  let b := (u.headD 0).toNat
  if codec = 0 then 1 ≤ b % 32 && b % 32 ≤ 5 else if codec = 2 then b / 2 % 64 < 32 else b / 8 % 16 == 4 || b / 8 % 16 == 6

/-- The units at an address, NAL units after their 4-octet lengths or OBUs (R212). -/
def State.unitsAt (s : State) (codec a : Nat) : List Nat → List (List Byte)
  | [] => []
  | n :: ns => if codec = 3 then s.bytes a n :: s.unitsAt codec (a + n) ns else s.bytes (a + 4) n :: s.unitsAt codec (a + 4 + n) ns

/-- Whether a picture's units are what a VEE writes (R212, R214, R235, R237): OBUs with their sizes; one slice, or slices of at most
SLICE_BYTES; and for a tile encode one slice of the stitching profile for each cell, in raster order. -/
def State.unitsOk (s : State) (j : VeeJob) (ns : List Nat) : Bool :=
  let codec := fieldOf j.cfg 0 1
  let us := s.unitsAt codec (fieldOf j.desc 0x20 8) ns
  let slices := us.filter (isSliceUnit codec)
  let most := fieldOf j.cfg 0x1A 2
  let tier := fieldOf (s.bytes ((s.taskAt j.slot).descAddr + 64) 64) 0 1
  (codec != 3 || us.all isSizedObu) &&
    (if s.isTile j.slot then slices.length == 4 ^ (tier - 1) && slices.zipIdx.all fun e => tileSliceOk tier j.intra e.2 e.1
     else if most = 0 then slices.length == 1 else slices.all fun u => u.length ≤ most)

/-- ENCODE_COMPLETE (R216, R218, R219, R241): `units` are the lengths of the NAL units or OBUs written. -/
def execEncodeComplete (vee : Fin 16) (units : List Nat) (cycles : Nat) (s : State) : Result :=
  match s.veeJob vee with
  | none => .next s
  | some j =>
    let c := j.cfg
    let av1 := fieldOf c 0 1 == 3
    let size := units.foldl (fun v n => v + n + (if av1 then 0 else 4)) 0
    if j.failing || s.isFenced Unit.vee vee || j.rows.length < encRows c || size != j.spent || !s.unitsOk j units ||
        s.get (R.VEE_CUR_BUDGET_CYCLES vee) < cycles then .next s
    else
      let status := if j.attempt = 2 then St.okRetried else St.ok
      let s := if av1 then s else s.prefixUnits (fieldOf j.desc 0x20 8) units
      let flags := bnat j.intra + 2 * bnat j.cutFrom.isSome + 4 * bnat j.maxFrom.isSome + 8 * bnat j.reset + 16 * bnat j.stepped
      let b := if fieldOf c 7 1 = 2 then s.free (2 ^ 32) else j.budget.toNat
      let s := s.spent.writeRecord (fieldOf j.desc 0x30 8)
        ([(0, leBytes 1 status), (1, leBytes 1 j.effort), (2, leBytes 2 flags)] ++
          (match j.cutFrom with | some i => [(4, leBytes 2 i)] | none => []) ++
          (match j.maxFrom with | some i => [(6, leBytes 2 i)] | none => []) ++
          [(8, leBytes 4 j.spent), (0xC, leBytes 4 b), (0x10, leBytes 4 j.cap)] ++
          (if j.rows.all fun r => r.cut.isSome then [] else [(0x14, leBytes 1 (avgQp c j.rows))]) ++
          [(0x15, leBytes 1 j.tid), (0x16, leBytes 2 (encRows c)), (0x18, slice j.desc 0x38 0x3C), (0x1C, leBytes 4 cycles),
            (0x20, leBytes 2 units.length)])
      let e := s.bytes ((s.taskAt j.slot).descAddr + 64) 64
      let s := if s.isTile j.slot then s.tileRecord j e status units else s
      let s := s.updateEncCtx j
      let cut := (j.rows.filter fun r => r.cut.isSome).length
      let s := ((s.count (R.C_VEE_PICS vee)).count (R.C_VEE_PIXELS vee) (encSamples c)).count (R.C_VEE_BUSY_CYCLES vee) cycles
      let s := if j.intra then s.count (R.C_VEE_INTRA_PICS vee) else s
      let s := if j.maxFrom.isSome then s.count (R.C_VEE_MAXQP_PICS vee) else s
      let s := if j.cutFrom.isSome then (s.count (R.C_VEE_TRUNC_PICS vee)).count (R.C_VEE_TRUNC_ROWS vee) cut else s
      let s := if j.stepped then s.count (R.C_VEE_STEPPED_PICS vee) else s
      let s := (s.put (R.VEE_CUR_CYCLES_CYCLES vee) cycles).setVeeJob vee none
      let s := s.unitComplete j.slot status (0x3010 + vee) []
      .next (if j.attempt = 2 then s.retried Unit.vee vee 8 (s.taskId j.slot) else s)

/-! ### Watchdog (R227, R228) -/

/-- VEE_WATCHDOG_EXPIRY (R227, R228, R230): the cycles spent exceed the budget, INJ_WD says so, or a write outside the windows is blocked. -/
def execVeeWatchdogExpiry (vee : Fin 16) (cycles : Nat) (blocked : Option Nat) (s : State) : Result :=
  match s.veeJob vee with
  | none => .next s
  | some j =>
    let blocked := blocked.filter fun a => !j.window a
    if s.isFenced Unit.vee vee || s.endsNow 1 vee || (!j.failing && blocked.isNone && cycles ≤ s.get (R.VEE_CUR_BUDGET_CYCLES vee)) then .next s
    else .next (s.veeExpires vee j cycles blocked)

end Sys2Proof.Machine
end

