-- ==== Sys2Proof/Machine/Tsp.lean ====
section
/-! DEFINITION. The Tile Splicer (spec/07_tile_layouts.md, R232 to R264). -/

namespace Sys2Proof.Machine

open Sys2Proof

/-- A canvas: cells a side, conf_win_bottom_offset, general_level_idc and the bits of slice_segment_address (R234). -/
structure Canvas where
  side  : Nat
  crop  : Nat
  level : Nat
  bits  : Nat
  deriving DecidableEq, Repr

/-- The canvases of R234. -/
def canvasOf (n : Nat) : Canvas :=
  if n = 0 then ⟨2, 12, 90, 6⟩ else if n = 1 then ⟨3, 18, 93, 8⟩ else if n = 2 then ⟨4, 24, 120, 8⟩ else ⟨6, 36, 150, 10⟩

/-- The cells a side of a tier (R233). -/
def tierSide (t : Nat) : Nat := 2 ^ (t - 1)

/-- A slot of a layout (R245). -/
structure LayoutSlot where
  x    : Nat
  y    : Nat
  tier : Nat
  tset : Nat
  deriving DecidableEq, Repr

/-- The slots of a layout table. -/
def State.layoutSlots (s : State) (a : Nat) : List LayoutSlot :=
  (List.range (s.le a 1)).map fun i => ⟨s.le (a + 4 + 8 * i) 1, s.le (a + 5 + 8 * i) 1, s.le (a + 6 + 8 * i) 1, s.le (a + 8 + 8 * i) 2⟩

/-- The cells of a slot, in cell raster order within its tier. -/
def LayoutSlot.cells (l : LayoutSlot) (side : Nat) : List Nat :=
  (List.range (tierSide l.tier)).flatMap fun dy => (List.range (tierSide l.tier)).map fun dx => (l.y + dy) * side + l.x + dx

/-- The anchor cell of a slot. -/
def LayoutSlot.anchor (l : LayoutSlot) (side : Nat) : Nat := l.y * side + l.x

/-- No member of a list repeats. -/
def noRepeats : List Nat → Bool
  | [] => true
  | x :: xs => !xs.contains x && noRepeats xs

/-- Whether a splice's descriptor, layout and viewer context pass R245. -/
def State.spliceOk (s : State) (d : List Byte) : Bool :=
  let v := fieldOf d 0 8
  let lay := fieldOf d 8 8
  let canvas := s.le v 1
  let side := (canvasOf canvas).side
  let ls := s.layoutSlots lay
  v % 512 == 0 && lay % 8 == 0 && fieldOf d 0x20 8 % 64 == 0 && allZero (slice d 0x30 0x40) && s.le lay 1 ≤ 36 && canvas ≤ 3 &&
    s.le (v + 2) 1 == 0 &&
    (List.range (s.le lay 1)).all (fun i => s.le (lay + 7 + 8 * i) 1 == 0 && s.le (lay + 10 + 8 * i) 2 == 0) &&
    ls.all (fun l => 1 ≤ l.tier && l.tier ≤ 3 && l.tset ≤ 16383 && l.x + tierSide l.tier ≤ side && l.y + tierSide l.tier ≤ side &&
      s.le (s.tsetAddr l.tset + 2) 1 == l.tier) &&
    noRepeats (ls.flatMap fun l => l.cells side)

/-- A cell that anchors nothing. -/
def HeldCell.none : HeldCell := ⟨0, 0, 0, 0, false, false⟩

/-- The held state of a viewer's cell (R244). -/
def State.heldCell (s : State) (v n : Nat) : HeldCell :=
  let i := s.le (v + 0x140 + n) 1
  ⟨s.le (v + 0x20 + 8 * n) 2, s.le (v + 0x22 + 8 * n) 2, s.le (v + 0x24 + 8 * n) 4, i % 4, i.testBit 2, i.testBit 3⟩

/-- The octets of a held cell in HELD. -/
def HeldCell.held (h : HeldCell) : List Byte := leBytes 2 h.tset ++ leBytes 2 h.gen ++ leBytes 4 h.seq

/-- Its CELL_INFO. -/
def HeldCell.info (h : HeldCell) : Nat := h.tier + 4 * bnat h.bg + 8 * bnat h.dirty

/-- The address of a background record: the skip cell is 0, BG_I of tier t is t (R253). -/
def State.bgRecord (s : State) (n : Nat) : Nat := s.pair R.TSP_BG_BASE_LO_ADDR R.TSP_BG_BASE_HI_ADDR + 256 * n

/-- Slice `k` of a tile record, placed at a cell (R241). -/
def State.recSlice (s : State) (rec_ k cell tier : Nat) : PlacedSlice :=
  ⟨cell, s.le (rec_ + 0x10) 8 + s.le (rec_ + 0x40 + 8 * k) 4, s.le (rec_ + 0x44 + 8 * k) 4, tier⟩

/-- What a slot shows (R249): the held state of its anchor after it, its slices, whether its entry is wanted, and what it
counts as: 0 a P record, 1 an intra record, 2 BG_I, 3 skip cells. -/
structure SlotOut where
  held   : HeldCell
  slices : List PlacedSlice
  wanted : Bool
  kind   : Nat
  deriving DecidableEq, Repr

/-- The slices of a record at a slot's cells. -/
def State.recSlices (s : State) (rec_ tier : Nat) (cells : List Nat) : List PlacedSlice :=
  (List.range cells.length).map fun k => s.recSlice rec_ k (cells.getD k 0) tier

/-- The skip cell at each of a slot's cells. -/
def State.skipSlices (s : State) (cells : List Nat) : List PlacedSlice := cells.map fun c => s.recSlice (s.bgRecord 0) 0 c 1

/-- The content of a slot at a tick (R248, R249, R252). -/
def State.slotContent (s : State) (l : LayoutSlot) (side tick : Nat) (idr : Bool) (h : HeldCell) : SlotOut :=
  let a := s.tsetAddr l.tset
  let rec_ := s.le (a + 8 + 8 * (tick % 4)) 8
  let gen := s.le a 2
  let flags := s.le (rec_ + 1) 1
  let present := s.le (rec_ + 8) 4 == tick && s.le (rec_ + 4) 2 == l.tset && s.le (rec_ + 6) 2 == gen && !flags.testBit 1
  let intra := flags.testBit 0
  let seq := s.le (rec_ + 0xC) 4
  let cells := l.cells side
  let same := h.tier == l.tier
  let src := same && !h.bg && h.tset == l.tset && h.gen == gen
  if present && intra then ⟨⟨l.tset, gen, seq, l.tier, false, false⟩, s.recSlices rec_ l.tier cells, false, 1⟩
  else if !idr && src && present && seq == (h.seq + 1) % 2 ^ 32 then
    ⟨{ h with seq := seq }, s.recSlices rec_ l.tier cells, h.dirty, 0⟩
  else if !idr && src && !present then ⟨h, s.skipSlices cells, h.dirty, 3⟩
  else if !idr && same && h.bg then ⟨h, s.skipSlices cells, true, 3⟩
  else ⟨⟨0, 0, 0, l.tier, true, false⟩, s.recSlices (s.bgRecord l.tier) l.tier cells, true, 2⟩

/-- The content of a cell that no slot covers (R250). -/
def State.bareContent (s : State) (cell : Nat) (idr : Bool) (h : HeldCell) : SlotOut :=
  if !idr && h.tier == 1 && h.bg then ⟨h, s.skipSlices [cell], false, 3⟩
  else ⟨⟨0, 0, 0, 1, true, false⟩, s.recSlices (s.bgRecord 1) 1 [cell], false, 2⟩

/-- The CTB address of a cell (R255). -/
def cellCtb (side cell : Nat) : Nat := cell / side * 3 * (side * 5) + cell % side * 5

/-- The slices in increasing CTB address (R255). -/
def orderSlices (cells : Nat) (l : List PlacedSlice) : List PlacedSlice :=
  (List.range cells).flatMap fun c => l.filter fun p => p.cell == c

/-- The splice of a descriptor, as its inputs stand (R246 to R253). -/
def State.planSplice (s : State) (slot addr : Nat) (d : List Byte) : TspJob :=
  let v := fieldOf d 0 8
  let f := fieldOf d 0x28 2
  let tick := fieldOf d 0x1C 4
  let canvas := s.le v 1
  let side := (canvasOf canvas).side
  let n := side * side
  let reset := f.testBit 2
  let start := s.le (v + 3) 1 = 0
  let idr := start || reset || f.testBit 0 || canvas != s.le (v + 1) 1
  let old := (List.range 36).map fun c =>
    let h := if reset then HeldCell.none else s.heldCell v c
    if f.testBit 1 && h.tier != 0 && !h.bg then { h with dirty := true } else h
  let ls := s.layoutSlots (fieldOf d 8 8)
  let covered := ls.flatMap fun l => l.cells side
  let bare := (List.range n).filter fun c => !covered.contains c
  let outs := (ls.map fun l => (l.anchor side, s.slotContent l side tick idr (old.getD (l.anchor side) HeldCell.none))) ++
    bare.map fun c => (c, s.bareContent c idr (old.getD c HeldCell.none))
  let held := (List.range 36).map fun c =>
    match outs.find? fun o => o.1 == c with
    | some o => o.2.held
    | none => HeldCell.none
  let count (k : Nat) : Nat := (outs.filter fun o => o.2.kind == k).length
  ⟨slot, addr, d, canvas, idr, if idr then 0 else (s.le (v + 8) 4 + 1) % 2 ^ 32, s.le (v + 0xC) 4, orderSlices n (outs.flatMap fun o => o.2.slices), held,
    outs.foldl (fun w o => if o.2.wanted then w + 2 ^ o.1 else w) 0, count 1, count 2,
    (outs.filter fun o => o.2.kind == 3).foldl (fun v o => v + o.2.slices.length) 0, false, 1⟩

/-- The bytes of room a splice needs (R260). -/
def TspJob.room (j : TspJob) : Nat :=
  j.slices.foldl (fun v p => v + p.len + 36) 0 + (if j.idr then 512 + 12 else 0)

/-- The splice record of a splice that writes nothing (R260, R261). -/
def State.spliceRefused (s : State) (slot status : Nat) (d : List Byte) : State :=
  let r := fieldOf d 0x20 8
  let s := if recordUsable r then
      s.writeRecord r [(0, leBytes 1 status), (1, leBytes 1 0), (2, leBytes 2 0), (4, leBytes 4 0), (8, slice d 0x1C 0x20), (0x10, leBytes 8 0),
        (0x18, leBytes 3 0), (0x1C, slice d 0x2C 0x30)]
    else s
  (s.count R.C_TSP_REFUSED).unitComplete slot status 0x3024 []

/-- The state with the TSP's job replaced, and BUSY with it. -/
def State.setTspJob (s : State) (j : Option TspJob) : State := { s.putBit R.TSP_STATUS_BUSY j.isSome with tsp := j }

/-- SPLICE_START (R245, R246, R260). -/
def execSpliceStart (s : State) : Result :=
  match s.engineTask 3 0, s.tsp with
  | some (n, t), none =>
    let d := s.bytes t.descAddr 64
    let v := fieldOf d 0 8
    if !s.spliceOk d then .next (s.spliceRefused n St.splDescBad d)
    else if s.le (v + 3) 1 != 0 && !timeAfter (fieldOf d 0x1C 4) (s.le (v + 4) 4) then .next (s.spliceRefused n St.splTickBad d)
    else
      let j := s.planSplice n t.descAddr d
      if fieldOf d 0x18 4 < j.room then .next (s.spliceRefused n St.splOutSmall d)
      else
        let s := ((s.setLe (v + 2) 1 1).setTspJob (some { j with inject := s.armed 3 0 })).disarm 3 0
        let s := (s.putPair R.TSP_CUR_DESC_LO_ADDR R.TSP_CUR_DESC_HI_ADDR t.descAddr).put R.TSP_CUR_CYCLES_CYCLES 0
        let bytes := j.slices.foldl (fun v p => v + p.len) 0
        .next (s.put R.TSP_CUR_BUDGET_CYCLES
          (min (2 ^ 32 - 1) (s.get R.TSP_WD_SCALE_SCALE * (10000 + 1000 * j.slices.length + bytes / 4))))
  | _, _ => .next s

/-- Whether INJ_WD makes this attempt expire (R264). -/
def TspJob.failing (j : TspJob) : Bool := j.inject && j.attempt == 1

/-- Whether an address lies in a window that a splice may write (R262): the output buffer, the record or the viewer context. -/
def TspJob.window (j : TspJob) (a : Nat) : Bool :=
  let out := fieldOf j.desc 0x10 8
  let r := fieldOf j.desc 0x20 8
  let v := fieldOf j.desc 0 8
  (out ≤ a && a < out + fieldOf j.desc 0x18 4) || (recordUsable r && r ≤ a && a < r + 64) || (v ≤ a && a < v + 512)

/-- Vendor firmware moves every stitched leg to a composed encode (R262): VIEWER_MODE 1 becomes 2. -/
def State.unstitch (s : State) : State :=
  (s.objNum.filter fun e => e.1 / 16777216 == 0x506101 && e.2 == 1).foldl (fun (s : State) e => s.setObj 0x506101 (e.1 % 16777216) 0 2) s

/-- A NAL unit with its length before it (R256). -/
def prefixed (nal : List Byte) : List Byte := beBytes 4 nal.length ++ nal

/-- The output of a splice (R254 to R256). -/
def State.spliceOutput (s : State) (j : TspJob) : List Byte :=
  let c := canvasOf j.canvas
  let sets := if j.idr then
      prefixed (vpsNal c.level) ++ prefixed (spsNal (c.side * 320) (c.side * 192) c.crop c.level (if s.isSet R.TSP_CADENCE_RATE then 6000 else 3000)) ++
        prefixed (ppsNal c.side c.side)
    else []
  sets ++ j.slices.flatMap fun p => prefixed (placeSlice p.tier (cellCtb c.side p.cell) c.bits j.poc j.idr (s.bytes p.addr p.len))

/-- SPLICE_COMPLETE (R254 to R256, R261): the output, then the viewer context, then the record. -/
def execSpliceComplete (cycles : Nat) (s : State) : Result :=
  match s.tsp with
  | none => .next s
  | some j =>
    if j.failing || s.isFenced Unit.tsp 0 || s.get R.TSP_CUR_BUDGET_CYCLES < cycles then .next s
    else
      let d := j.desc
      let v := fieldOf d 0 8
      let out := s.spliceOutput j
      let status := if j.attempt = 2 then St.okRetried else St.ok
      let s := s.setBytes (fieldOf d 0x10 8) out
      let s := s.setBytes v [s.byte v, BitVec.ofNat 8 j.canvas, 0, 1]
      let s := (s.setBytes (v + 4) (slice d 0x1C 0x20)).setLe (v + 8) 4 j.poc
      let s := s.setLe (v + 0xC) 4 (j.pics + 1)
      let s := (s.setBytes (v + 0x20) (j.held.flatMap HeldCell.held)).setBytes (v + 0x140) (j.held.flatMap fun h => leBytes 1 h.info)
      let dirty := j.held.any HeldCell.dirty
      let r := fieldOf d 0x20 8
      let s := if recordUsable r then
          s.writeRecord r [(0, leBytes 1 status), (1, leBytes 1 (3 * bnat j.idr + 4 * bnat (j.bgs != 0) + 8 * bnat dirty)),
            (2, leBytes 2 j.slices.length), (4, leBytes 4 out.length), (8, slice d 0x1C 0x20), (0xC, leBytes 4 j.poc), (0x10, leBytes 8 j.wanted),
            (0x18, leBytes 1 j.intra), (0x19, leBytes 1 j.bgs), (0x1A, leBytes 1 j.skips), (0x1C, slice d 0x2C 0x30), (0x20, leBytes 4 cycles)]
        else s
      let s := s.count R.C_TSP_PICS
      let s := if j.idr then s.count R.C_TSP_IDR_PICS else s
      let s := (s.count R.C_TSP_SLICES j.slices.length).count R.C_TSP_BYTES out.length
      let s := ((s.count R.C_TSP_INTRA_SLOTS j.intra).count R.C_TSP_BG_SLOTS j.bgs).count R.C_TSP_SKIP_CELLS j.skips
      let s := s.viewerSpliced v j.bgs
      let s := ((s.put R.TSP_CUR_CYCLES_CYCLES cycles).setTspJob none).unitComplete j.slot status 0x3024 []
      .next (if j.attempt = 2 then s.retried Unit.tsp 0 8 (s.taskId j.slot) else s)

/-- TSP_WATCHDOG_EXPIRY (R262, R264): the cycles spent exceed the budget, INJ_WD says so, or a write outside the windows is blocked; a second
expiry fences the TSP, and ends the splice with the viewer's LOCK at 0 (R244). -/
def execTspWatchdogExpiry (cycles : Nat) (blocked : Option Nat) (s : State) : Result :=
  match s.tsp with
  | none => .next s
  | some j =>
    let blocked := blocked.filter fun a => !j.window a
    if s.isFenced Unit.tsp 0 || s.endsNow 3 0 || (!j.failing && blocked.isNone && cycles ≤ s.get R.TSP_CUR_BUDGET_CYCLES) then .next s
    else
      let s := match blocked with
        | some a => ((s.putPair R.TSP_BOUNDS_LAST_LO_ADDR R.TSP_BOUNDS_LAST_HI_ADDR a).log Unit.tsp 0 Sev.warn Ev.boundsBlocked a (s.taskId j.slot)).count
            R.C_TSP_BOUNDS_BLOCKED
        | none => s
      if j.attempt = 1 then
        .next ((s.setTspJob (some { j with attempt := 2 })).put R.TSP_CUR_CYCLES_CYCLES 0)
      else
        let s := ((s.setTspJob none).put R.TSP_CUR_CYCLES_CYCLES cycles).setLe (fieldOf j.desc 0 8 + 2) 1 0
        .next (((s.fence Unit.tsp 0 8 (s.taskId j.slot)).loseUnit 3 0).unstitch)

/-- ENTRY_TILE_REQUEST (R253): FORCE_INTRA in the tile set's next encode descriptor, at `desc` and for `tick`, once the holdoff allows it;
an earlier request waits for the first allowed tick, and those that wait share it. -/
def execEntryTileRequest (tset tick desc : Nat) (s : State) : Result :=
  if s.entryAllowed tset tick then
    .next ((s.setLe (desc + 0x2C) 2 (s.le (desc + 0x2C) 2 ||| 1)).withFw fun y => { y with waiting := SMap.set false y.waiting tset false })
  else .next (s.withFw fun y => { y with waiting := SMap.set false y.waiting tset true })

/-! ### Serving a leg with stitched layouts (R232) -/

/-- The sum of the tile rates of a layout in kb/s (R232, R265). -/
def State.layoutKbps (s : State) (layout : Nat) : Nat :=
  (s.layoutSlots layout).foldl (fun n l => n + (if l.tier = 1 then s.obj 0x506006 0 150 else if l.tier = 2 then s.obj 0x506007 0 450 else s.obj 0x506008 0 1500)) 0

/-- The VCL bit rate of a canvas's level in kb/s (R234), within which vendor firmware keeps a layout's tile rates (R257). -/
def canvasKbps (n : Nat) : Nat := if n = 0 then 6000 else if n = 1 then 10000 else if n = 2 then 12000 else 25000

/-- VIEWER_MODE of a leg by what its receiver offers (R232): nothing for a leg without video or that takes forwarded layers, stitched layouts
where R232 allows them and the TSP serves, else a composed encode. -/
def State.viewerMode (s : State) (leg : Nat) (o : ViewerOffer) : Nat :=
  let codec := s.obj 0x40100F leg 0
  if codec = 0 || o.forwards then 0
  else if codec = 3 && (o.profile == .main || o.profile == .main10) && (canvasOf (s.obj 0x506102 leg 3)).level ≤ o.level &&
      s.layoutKbps o.layout ≤ min (s.obj 0x401011 leg 1500) (canvasKbps (s.obj 0x506102 leg 3)) && !s.isFenced Unit.tsp 0 then 1
  else 2

end Sys2Proof.Machine
end

