-- ==== Sys2Proof/Machine/Legs.lean ====
section
/-! DEFINITION. A leg's life (spec/16_object_dictionary.md, R545). -/

namespace Sys2Proof.Machine

open Sys2Proof

/-- LEG_STATE: 0 FREE, 1 CONFIGURED, 2 CONNECTING, 3 CONNECTED, 4 FAILED (R545). -/
def State.legState (s : State) (leg : Nat) : Nat := s.obj 0x401001 leg 0

/-- The state with a leg's LEG_STATE; the 30 s of CONNECTING count from the cycle at which it begins. -/
def State.setLegState (s : State) (leg v : Nat) : State :=
  let c := if v = 2 then some s.cycle else none
  (s.setObj 0x401001 leg 0 v).withFw fun y => { y with connecting := SMap.set none y.connecting leg c }

/-- A leg joins a conference and connects (R545); its audio listens (R292), and vendor firmware requests a probe of it (R339). -/
def State.joinLeg (s : State) (leg conf : Nat) : State :=
  ((((s.setObj 0x401005 leg 0xFFFF conf).setLegState leg 2).setRole leg 1).requestProbe leg).1

/-- A leg leaves its conference, or its failure, and is CONFIGURED again (R545). -/
def State.leaveLeg (s : State) (leg : Nat) : State :=
  let s := (((s.leaveSundog leg).setObj 0x401005 leg 0xFFFF 0xFFFF).setRole leg 0).setObj 0x506101 leg 0 0
  if s.legState leg = 0 then s else s.setLegState leg 1

/-- The numbers of the FCT entries that hold something, by the octets that memory lists. -/
def State.fctListed (s : State) : List Nat :=
  let inFct := fun (e : Nat × Byte) => s.fctBase ≤ e.1 && e.1 < s.fctBase + 2 ^ 30
  ((s.mem.filter inFct).map fun e => (e.1 - s.fctBase) / 64).eraseDups

/-- The valid FCT entries of a leg (R67). -/
def State.fctOfLeg (s : State) (leg : Nat) : List Nat :=
  s.fctListed.filter fun e => ((s.fctEntry e).headD 0).toNat.testBit 0 && fctLeg (s.fctEntry e) == leg

/-- The route entries of a stream's current version (R85, R86). -/
def State.routeOf (s : State) (stream : Nat) : List RouteEntry :=
  match (s.versionsOf stream).getLast? with
  | none => []
  | some v => s.routeEntries v

/-- The key slots of a leg: those its FCT entries and the route entries towards it name (R67, R85). -/
def State.slotsOfLeg (s : State) (leg : Nat) : List Nat :=
  let ingress := (s.fctOfLeg leg).map fun e => fctSlot (s.fctEntry e)
  let routes := (s.rly.versions.map Prod.fst).flatMap s.routeOf
  (ingress ++ (routes.filter fun e => e.dest == leg).map RouteEntry.keySlot).eraseDups

/-- LEG_RELEASE's work on a leg that has left (R545): its key slots and FCT entries are erased, and it is FREE. -/
def State.freeLeg (s : State) (leg : Nat) : State :=
  let slots := s.slotsOfLeg leg
  let entries := s.fctOfLeg leg
  let s := slots.foldl (fun (s : State) n => (s.eraseSlot n .nobody).1) s
  let s := entries.foldl State.fctRemove s
  (s.setObj 0x401010 leg 0 0).setLegState leg 0

/-- LEG_CONNECTED (R545): ICE and DTLS-SRTP have both completed, with the negotiated suite (R362), and vendor firmware decides how the leg's
video is served (R232). -/
def execLegConnected (leg : Fin 16384) (offer : LegOffer) (s : State) : Result :=
  .next (if s.legState leg = 2 then
      ((s.setObj 0x401010 leg 0 offer.suite).setObj 0x506101 leg 0 (s.viewerMode leg offer.video)).setLegState leg 3
    else s)

/-- LEG_CONNECT_TIMEOUT (R545): 30 s have passed in CONNECTING, or DTLS fails to verify LEG_DTLS_FP. -/
def execLegConnectTimeout (leg : Fin 16384) (badFingerprint : Bool) (s : State) : Result :=
  match SMap.get none s.fw.connecting leg with
  | some c => .next (if s.legState leg = 2 && (badFingerprint || s.passed c (30 * secCycles)) then s.setLegState leg 4 else s)
  | none => .next s

end Sys2Proof.Machine
end

