-- ==== Sys2Proof/Machine/Cascade.lean ====
section
/-! DEFINITION. The cascade logic of vendor firmware: roles, roster, trunk loss, journals and heal (spec/12_cascade.md, R408 to
R420). A conference-wide operation is named by the object it writes. -/

namespace Sys2Proof.Machine

open Sys2Proof

/-! ### The roster (R408, R409) -/

/-- The state with the counts of a conference's roster in their objects (R424, R544). -/
def State.countRoster (s : State) (conf : Nat) : State :=
  let r := (s.cascade conf).roster
  (s.setObj 0x40000A conf 0 (r.filter fun e => e.2 != Presence.left).length).setObj 0x820008 conf 0
    (r.filter fun e => e.2 == Presence.away).length

/-- An ending conference whose last participant is gone is FREE (R544): nobody owns it, and it has no role. -/
def State.settleEnd (s : State) (conf : Nat) : State :=
  if s.obj 0x400001 conf 0 = 2 && (s.legsOf conf).isEmpty && ((s.cascade conf).roster.all fun e => e.2 == Presence.left) then
    let s := ((s.setObj 0x400001 conf 0 0).setObj 0x400004 conf 255 255).setObj 0x820001 conf 0 0
    (s.setCascade conf Cascade.init).countRoster conf
  else s

/-- A participant's presence changes. -/
def State.setPresence (s : State) (conf id : Nat) (p : Presence) : State :=
  let c := s.cascade conf
  ((s.setCascade conf { c with roster := SMap.set Presence.left c.roster id p }).countRoster conf).settleEnd conf

/-- The module of a roster identifier (R13). -/
def moduleOf (id : Nat) : Nat := id / 16384

/-- Every participant that `who` picks turns from one presence to another, neither of them LEFT. -/
def State.turn (s : State) (conf : Nat) (who : Nat → Bool) (was is_ : Presence) : State :=
  let c := s.cascade conf
  (s.setCascade conf { c with roster := c.roster.map fun e => if who e.1 && e.2 == was then (e.1, is_) else e }).countRoster conf

/-- This module's index. -/
def State.module (s : State) : Nat := s.get R.TRK_MODULE_INDEX

/-- The state with a conference's EPOCH raised by 1 (R414). -/
def State.bumpEpoch (s : State) (conf : Nat) : State := s.setObj 0x820003 conf 0 ((s.epochOf conf + 1) % 2 ^ 32)

/-- ANCHOR_EPOCH (R409). -/
def State.anchorEpochOf (s : State) (conf : Nat) : Nat := s.obj 0x820004 conf 0

/-- The modules of a conference's part that this module still reaches, itself left out. -/
def State.reached (s : State) (conf : Nat) : List Nat :=
  (s.cascade conf).members.filter fun m => m != s.module && !((s.cascade conf).lost.contains m)

/-- Firmware tells every module that it reaches (R408). -/
def State.tellAll (s : State) (conf kind : Nat) (what : List Nat) : State :=
  (s.reached conf).foldl (fun (s : State) m => match s.trunkTo m with | some t => (s.tell t kind conf what).1 | none => s) s

/-! ### Operations and the journal (R410, R415, R417) -/

/-- The roster of an anchor changes, and it tells every module (R408, R410). -/
def State.announce (s : State) (conf id : Nat) (p : Presence) : State :=
  let s := s.setPresence conf id p
  if s.roleOf conf = 1 then s.tellAll conf 1 [id, if p = .present then 0 else 2] else s

/-- A local leg leaves its conference (R545). -/
def State.detachLeg (s : State) (leg : Nat) : State :=
  let conf := s.confOf leg
  let s := s.leaveLeg leg
  if conf = 0xFFFF then s else s.announce conf (s.rosterId leg) .left

/-- A local leg joins a conference (R545). -/
def State.attachLeg (s : State) (leg conf : Nat) : State := (s.joinLeg leg conf).announce conf (s.rosterId leg) .present

/-- CONF_END (R544): every leg is detached; ENDING until the last is gone. -/
def State.endConf (s : State) (conf : Nat) : State :=
  if s.obj 0x400001 conf 0 = 1 then
    let s := s.setObj 0x400001 conf 0 2
    ((s.legsOf conf).foldl State.detachLeg s).settleEnd conf
  else s

/-- What an operation does (R410), named by the object it writes: to a local leg, or to the conference; with no leg and a leg's setting, to
every local leg. -/
def State.applyOp (s : State) (conf : Nat) (o : ConfOp) : State :=
  match o.object with
  | some id =>
    let leg := id % 16384
    if !s.isLocal id then s
    else if o.op = 0x401002 then s.attachLeg leg conf
    else if o.op = 0x401003 then s.detachLeg leg
    else if o.op = 0x506102 then (s.setObj 0x506102 leg 3 o.arg).putCanvas leg
    else s.setObj o.op leg 0 o.arg
  | none =>
    if o.op / 256 = 0x6020 then (s.legsOf conf).foldl (fun (s : State) l => s.setObj o.op l 0 o.arg) s
    else if o.op = 0x400003 then s.endConf conf
    else s.setObj o.op conf 0 o.arg

/-- JOURNAL_DEPTH (R424). -/
def State.journalDepth (s : State) : Nat := s.obj 0x800005 0 4096

/-- The state with a conference's journal, and JOURNAL_USED with it. -/
def State.setJournal (s : State) (conf : Nat) (j : List JournalEntry) : State :=
  (s.setCascade conf { s.cascade conf with journal := j }).setObj 0x820007 conf 0 j.length

/-- A journal entry of the present (R417). -/
def State.entryOf (s : State) (conf : Nat) (o : ConfOp) (queued : Bool) : JournalEntry :=
  ⟨s.epochOf conf, s.time64, s.isSet R.TIM_CTRL_TIME_VALID, o.object, o.op, o.arg, queued⟩

/-- Journal an operation: none when the journal is full. -/
def State.journal (s : State) (conf : Nat) (o : ConfOp) (queued : Bool) : Option State :=
  let j := (s.cascade conf).journal
  if s.journalDepth ≤ j.length then none else some (s.setJournal conf (j ++ [s.entryOf conf o queued]))

/-- Whether an operation concerns this module's own leg (R410). -/
def State.ownLeg (s : State) (o : ConfOp) : Bool := match o.object with | some id => s.isLocal id | none => false

/-- The anchor applies an operation (R410, R417): one on a leg of a lost module is journaled, and refused when the journal is full. -/
def State.anchorApply (s : State) (conf : Nat) (o : ConfOp) : State × Nat :=
  let c := s.cascade conf
  let forLost := match o.object with | some id => c.lost.contains (moduleOf id) | none => false
  let conflictable := fun (s : State) => s.setCascade conf { s.cascade conf with done := (s.cascade conf).done ++ [s.entryOf conf o false] }
  if forLost then
    match s.journal conf o false with
    | some t => (conflictable (t.applyOp conf o), St.ok)
    | none => (s, St.trunkJournalFull)
  else ((conflictable (s.applyOp conf o)), St.ok)

/-- An operation on an island (R415). -/
def State.islandOp (s : State) (conf : Nat) (o : ConfOp) : State × Nat :=
  if s.ownLeg o then
    match s.journal conf o false with
    | some t => (t.applyOp conf o, St.ok)
    | none => (s, St.trunkJournalFull)
  else if s.obj 0x820005 conf 0 = 0 then (s, St.trunkIsland)
  else
    match s.journal conf o true with
    | some t => (t, St.trunkQueued)
    | none => (s, St.trunkJournalFull)

/-- An operation asked of this module (R410, R415): its status, or none where the anchor's answer is awaited. -/
def State.confOp (s : State) (who : Asker) (conf : Nat) (o : ConfOp) : State × Option Nat :=
  let role := s.roleOf conf
  if role = 3 then let r := s.islandOp conf o; (r.1, some r.2)
  else if role = 2 then
    if s.ownLeg o then ((s.applyOp conf o).tellAll conf 1 [o.object.getD 0, o.op, o.arg], some St.ok)
    else
      match s.trunkTo (s.anchorOf conf) with
      | none => (s, some St.trunkDown)
      | some t =>
        let r := s.tell t 4 conf [o.object.getD (2 ^ 22), o.op, o.arg]
        if r.2 != St.ok then (r.1, some r.2)
        else (r.1.setCascade conf { r.1.cascade conf with asked := (r.1.cascade conf).asked ++ [(who, o.op, o.arg)] }, none)
  else let r := s.anchorApply conf o; (r.1, some r.2)

/-- CONF_OP (R410, R415): from a member over a trunk, whose result goes back in CONF_OP_RESULT, or asked of this module. -/
def execConfOp (from_ : Option (Fin 256)) (who : Sender) (conf : Fin 4096) (op : ConfOp) (s : State) : Result :=
  match from_ with
  | none =>
    let r := s.confOp (.unit who) conf op
    .next (match r.2 with | some st => r.1.emit (.done who st [conf.val]) | none => r.1)
  | some t =>
    if s.roleOf conf != 1 then .next s
    else
      let r := s.anchorApply conf op
      .next (r.1.tell t 5 conf [r.2]).1

/-- CONF_OP_RESULT (R410): the anchor's status goes to the oldest requester that waits. -/
def execConfOpResult (trunk : Fin 256) (conf : Fin 4096) (status : Nat) (s : State) : Result :=
  let c := s.cascade conf
  if s.peerOf trunk != s.anchorOf conf || !(St.listed status || status == St.unitFenced) then .next s
  else
    match c.asked with
    | [] => .next s
    | (who, _) :: rest => .next ((s.setCascade conf { c with asked := rest }).answer who status [conf.val])

/-! ### Trunk loss (R414) -/

/-- The audio of a trunk's source ramps to zero over 960 samples, then zeros, which last into the frame whose swap takes the source away (R414). -/
def fadeSamples (xs : List Int) : List Int :=
  (xs.zipIdx.map fun e => if e.2 < 960 then e.1 * (960 - (e.2 : Int)) / 960 else 0) ++ List.replicate (1440 - xs.length) 0

/-- The source of a trunk and conference fades, and vendor firmware removes it from every bus by a swap two frames on (R414). -/
def State.fadeSource (s : State) (t conf : Nat) : State :=
  match SMap.find? s.trk.sources (t * 4096 + conf) with
  | some i => (s.setSource i { s.source i with fifo := fadeSamples (s.source i).fifo }).dropSource i
  | none => s

/-- The loss of a module's trunk, to one conference (R414): a MEMBER that loses its anchor becomes ISLAND, an anchor that loses a
member stays ANCHOR, and a member that loses another member goes on through the anchor (R411). -/
def State.loseModule (s : State) (t conf : Nat) : State :=
  let c := s.cascade conf
  let peer := s.peerOf t
  let role := s.roleOf conf
  if !c.members.contains peer || c.lost.contains peer then s
  else if role = 1 then
    let s := (s.setCascade conf { c with lost := c.lost ++ [peer] }).bumpEpoch conf
    (s.turn conf (fun id => moduleOf id == peer) .present .away).fadeSource t conf
  else if role = 2 && peer = s.anchorOf conf then
    let s := (s.setCascade conf { c with lost := c.members.filter fun m => m != s.module }).bumpEpoch conf
    let s := (s.setObj 0x820001 conf 0 3).turn conf (fun id => moduleOf id != s.module) .present .away
    (List.range 256).foldl (fun (s : State) t => s.fadeSource t conf) s
  else s

/-- The loss of a trunk, to every conference it serves. -/
def State.loseTrunk (s : State) (t : Nat) : State := (s.trk.confs.map Prod.fst).foldl (fun (s : State) c => s.loseModule t c) s

/-! ### Heal (R418, R419) -/

/-- A STATE_SUMMARY goes to the other side of a trunk that has come UP, for every conference the two parts share (R418). -/
def State.summarise (s : State) (t : Nat) : State :=
  (s.trk.confs.map Prod.fst).foldl (fun (s : State) c =>
    if (s.cascade c).members.contains (s.peerOf t) && (s.roleOf c = 1 || s.roleOf c = 3) then
      (s.tell t 6 c [s.anchorOf c, s.anchorEpochOf c, s.epochOf c, (s.cascade c).journal.length]).1
    else s) s

/-- A conflict is posted (R418, R419, R421). -/
def State.postConflict (s : State) (conf : Nat) : State := s.trunkEvent 4 0 conf (some (s.epochOf conf))

/-- The joining side sends its journal (R419). -/
def State.sendJournal (s : State) (t conf : Nat) : State :=
  let j := (s.cascade conf).journal
  let s := j.foldl (fun (s : State) e => (s.tell t 7 conf [e.epoch, e.time, bnat e.valid, e.object.getD (2 ^ 22), e.op, e.arg]).1) s
  let s := (s.tell t 8 conf [j.length]).1
  s.setCascade conf { s.cascade conf with joining := true }

/-- STATE_SUMMARY (R409, R418): a module that serves the conference not yet joins it as MEMBER; a member takes its anchor's counters;
at heal the joining side sends its journal, a losing anchor discarding its changes. -/
def execStateSummary (trunk : Fin 256) (conf : Fin 4096) (anchor anchorEpoch epoch _length : Nat) (s : State) : Result :=
  let role := s.roleOf conf
  let peer := s.peerOf trunk
  let fromAnchor := anchor = peer
  let takeAll := fun (s : State) => ((s.setObj 0x820002 conf 0 (anchor % 256)).setObj 0x820003 conf 0 (epoch % 2 ^ 32)).setObj 0x820004 conf 0 (anchorEpoch % 2 ^ 32)
  let withPeer := fun (s : State) => if (s.cascade conf).members.contains peer then s else s.setCascade conf { s.cascade conf with members := (s.cascade conf).members ++ [peer] }
  if role = 0 then .next (if fromAnchor then withPeer (((takeAll s).setObj 0x820001 conf 0 2).setObj 0x400001 conf 0 1) else s)
  else if role = 2 then .next (if fromAnchor && peer = s.anchorOf conf then takeAll s else s)
  else if role = 3 then
    .next (if fromAnchor && s.anchorEpochOf conf ≤ anchorEpoch then (s.sendJournal trunk conf).setObj 0x820002 conf 0 (anchor % 256) else s)
  else if fromAnchor && (s.anchorEpochOf conf < anchorEpoch || (s.anchorEpochOf conf = anchorEpoch && peer < s.module)) then
    let s := (s.cascade conf).done.foldl (fun (s : State) e => if e.object.isNone then s.postConflict conf else s) s
    let s := s.setCascade conf { s.cascade conf with done := [] }
    .next ((s.sendJournal trunk conf).setObj 0x820002 conf 0 (anchor % 256))
  else .next (withPeer s)

/-- JOURNAL_ENTRY (R419): kept for the replay. -/
def execJournalEntry (_trunk : Fin 256) (conf : Fin 4096) (epoch time : Nat) (valid : Bool) (op : ConfOp) (s : State) : Result :=
  if s.roleOf conf != 1 then .next s
  else .next (s.setCascade conf { s.cascade conf with replay := (s.cascade conf).replay ++ [⟨epoch, time, valid, op.object, op.op, op.arg, false⟩] })

/-- The replay's order (R419): EPOCH, entries without valid time first, then device time. -/
def JournalEntry.before (a b : JournalEntry) : Bool :=
  a.epoch < b.epoch || (a.epoch == b.epoch && ((!a.valid && b.valid) || (a.valid == b.valid && a.time < b.time)))

/-- Insert an entry after those not later than it. -/
def JournalEntry.insert (a : JournalEntry) : List JournalEntry → List JournalEntry
  | [] => [a]
  | b :: l => if a.before b then a :: b :: l else b :: a.insert l

/-- One entry is replayed (R419): it is applied unless the anchor's journal holds a later change to the same object. -/
def State.replayOne (s : State) (conf : Nat) (e : JournalEntry) : State :=
  if (s.cascade conf).journal.any fun j => j.object == e.object && e.before j then s.postConflict conf
  else
    match e.object with
    | some id => (s.applyOp conf ⟨e.object, e.op, e.arg⟩).emit (.firmware 11 [conf, id, e.op, e.arg])
    | none => s.applyOp conf ⟨none, e.op, e.arg⟩

/-- JOURNAL_DONE (R419): the anchor replays the journal, increments EPOCH, sends ROSTER_UPDATE for every participant, and the joined
side's participants are PRESENT; the journals are cleared. -/
def execJournalDone (trunk : Fin 256) (conf : Fin 4096) (count : Nat) (s : State) : Result :=
  let c := s.cascade conf
  let peer := s.peerOf trunk
  if s.roleOf conf != 1 || c.replay.length != count then .next s
  else
    let s := (c.replay.foldl (fun l e => e.insert l) []).foldl (fun (s : State) e => s.replayOne conf e) s
    let s := (s.setJournal conf []).bumpEpoch conf
    let s := s.setCascade conf { s.cascade conf with replay := [], lost := (s.cascade conf).lost.filter fun m => m != peer, done := [] }
    let s := s.turn conf (fun id => moduleOf id == peer) .away .present
    .next ((s.cascade conf).roster.foldl (fun (s : State) e => s.tellAll conf 1 [e.1]) s)

/-- ROSTER_UPDATE (R408, R410, R419): a participant's presence and the EPOCH; the first from the winning anchor makes a joining side
MEMBER. -/
def execRosterUpdate (trunk : Fin 256) (conf : Fin 4096) (epoch id : Nat) (presence : Presence) (s : State) : Result :=
  let c := s.cascade conf
  let s := if c.joining && s.peerOf trunk = s.anchorOf conf then
      let s := ((s.setObj 0x820001 conf 0 2).setJournal conf []).setObj 0x820003 conf 0 (epoch % 2 ^ 32)
      let s := s.setCascade conf { s.cascade conf with joining := false, lost := [], done := [] }
      s.turn conf (fun _ => true) .away .present
    else s
  .next (s.setPresence conf (id % 2 ^ 22) presence)

/-- A promotion (R416): an ISLAND becomes an ANCHOR, and the operations it queued are applied. -/
def State.promote (s : State) (conf : Nat) : State × Nat :=
  if s.roleOf conf != 3 then (s, St.trunkNotIsland)
  else
    let queued := (s.cascade conf).journal.filter fun e => e.queued
    let s := ((s.setObj 0x820001 conf 0 1).setObj 0x820002 conf 0 s.module).setObj 0x820004 conf 0 ((s.anchorEpochOf conf + 1) % 2 ^ 32)
    let s := s.bumpEpoch conf
    let s := queued.foldl (fun (s : State) e => (s.anchorApply conf ⟨e.object, e.op, e.arg⟩).1) s
    (s.setJournal conf ((s.cascade conf).journal.filter fun e => !e.queued), St.ok)

/-- PROMOTE (R416). -/
def execPromote (who : Sender) (conf : Fin 4096) (s : State) : Result :=
  let r := s.promote conf
  .next (r.1.emit (.done who r.2 [conf.val]))

/-! ### Talkers across the cascade, and channels (R408, R411) -/

/-- TALKER_REPORT (R411): the anchor keeps each module's latest. -/
def execTalkerReport (trunk : Fin 256) (conf : Fin 4096) (_epoch : Nat) (pairs : List (Nat × Nat)) (s : State) : Result :=
  if s.roleOf conf != 1 then .next s
  else
    let c := s.cascade conf
    let peer := s.peerOf trunk
    .next (s.setCascade conf { c with reports := SMap.set [] c.reports peer ((pairs.take 8).map fun p => (peer * 16384 + p.1 % 16384, p.2)) })

/-- TALKER_SET (R411): from the anchor, for the first mix frame that begins after it. -/
def execTalkerSet (trunk : Fin 256) (conf : Fin 4096) (_epoch : Nat) (ids : List Nat) (s : State) : Result :=
  if s.roleOf conf != 2 || s.peerOf trunk != s.anchorOf conf then .next s
  else .next (s.setCascade conf { s.cascade conf with setDue := some (ids.map fun i => i % 2 ^ 22), setAt := s.mxm.began })

/-- CHANNEL_OFFER (R408): a stream that the peer can send. -/
def execChannelOffer (trunk : Fin 256) (conf : Fin 4096) (stream : Nat) (s : State) : Result :=
  let c := s.cascade conf
  let o := (s.peerOf trunk, stream % 65536)
  .next (s.setCascade conf { c with offers := c.offers.filter (fun x => x != o) ++ [o] })

end Sys2Proof.Machine
end

