-- ==== Sys2Proof/Machine/Trunk.lean ====
section
/-! DEFINITION. The trunk unit's protocol: handshake and keys, media, reliable delivery, heartbeats and probes
(spec/12_cascade.md, R391 to R413). -/

namespace Sys2Proof.Machine

open Sys2Proof

/-! ### Handshake (R398 to R401) -/

/-- The suite code of the trunks (R398): 5 TRUNK_GCM_128, 6 TRUNK_GCM_256. -/
def State.trunkSuite (s : State) : Nat := if s.isSet R.TRK_SUITE_GCM128 then 5 else 6

/-- A public key uncompressed, 65 octets. -/
def pointBytes (p : Nat × Nat) : List Byte := 4 :: (natToOs 32 p.1 ++ natToOs 32 p.2)

/-- The public key of a private one. -/
def publicOf (d : Nat) : Nat × Nat := (P256.mul d P256.g 256).getD (0, 0)

/-- A fresh private key and nonce for a trunk's own message, when the random source gives them. -/
def State.freshExchange (s : State) (k : KeyExchange) : State × KeyExchange :=
  (s.spent.spent, { k with d := some (s.free (P256.n - 1) + 1), nonce := s.spent.freeBytes 32 })

/-- A HELLO, HELLO_REPLY (with the identity key) or REKEY body (R399, R401), signed over every frame octet before the signature. -/
def State.helloBody (s : State) (t ty : Nat) (d : Nat) (nonce : List Byte) : State × List Byte :=
  let id := s.privateKey none
  let head := [BitVec.ofNat 8 s.trunkSuite] ++ pointBytes (publicOf d) ++ nonce ++ (if ty = 10 then [] else pointBytes (publicOf id))
  let flags := if ty = 10 then s.get (R.TRK_Tt_STAT_KEY_PHASE t) else 0
  let before := s.hokuvonHeader t ty flags (head.length + 64 + if ty = 10 then 16 else 0) ++ head
  let rs := P256.sign (osToNat (sha256 before)) id (s.free (P256.n - 1) + 1)
  (s.spent, head ++ natToOs 32 rs.1 ++ natToOs 32 rs.2)

/-- Send the trunk's own HELLO (the module of lower index), HELLO_REPLY or REKEY. Nothing is sent while the random source gives no
output. -/
def State.sendHello (s : State) (t ty : Nat) : State :=
  if s.cpx.rng != .ready then s
  else
    let k := s.trunk t
    let r := if k.hs.d.isSome then (s, k.hs) else s.freshExchange k.hs
    let s := r.1.setTrunk t { k with hs := r.2, helloAt := s.cycle }
    let b := s.helloBody t ty (r.2.d.getD 0) r.2.nonce
    b.1.trunkOut t ty 0 b.2 0

/-- TYPE of the handshake message that this module sends on a trunk (R399). -/
def State.helloType (s : State) (t : Nat) : Nat := if s.module < s.peerOf t then 8 else 9

/-- A handshake message fails (R391, R399). -/
def State.helloFails (s : State) (t : Nat) : State :=
  (s.count (R.C_TRK_Tt_HS_FAIL t)).trunkEvent 2 (s.trunk t).st.code t none

/-- The parts of a handshake or rekey body: suite, public key, nonce, identity key (the one given for a REKEY) and signature. -/
def helloParts (body : List Byte) (identity : Option (Nat × Nat)) : Nat × (Nat × Nat) × List Byte × (Nat × Nat) × (Nat × Nat) :=
  let o := if identity.isSome then 0 else 65
  (be body 0 1, (be body 2 32, be body 34 32), slice body 66 98, identity.getD (be body 99 32, be body 131 32),
    (be body (98 + o) 32, be body (130 + o) 32))

/-- Whether a handshake body is acceptable (R399): length, form of its keys, identity hash, signature and suite. -/
def State.helloOk (s : State) (t : Nat) (signed body : List Byte) : Bool :=
  let (suite, _, _, id, sig) := helloParts body none
  body.length == 227 && body.getD 1 0 == 4 && body.getD 98 0 == 4 && sha256 (slice body 98 163) == s.octets 0x801003 t &&
    P256.verify (osToNat (sha256 signed)) id.1 id.2 sig.1 sig.2 && suite == s.trunkSuite && s.peerOf t != s.module

/-- The keys of a completed exchange are written (R400): ECDH, then the send and the receive slot; the receive generation's bit is
recorded for the new KEY_PHASE and that phase's window cleared (R401, R402). False when a slot takes no new key. -/
def State.writeKeys (s : State) (t phase : Nat) : State × Bool :=
  let k := s.trunk t
  match k.hs.d, k.hs.peer with
  | some d, some q =>
    match P256.mul d (some q) 256 with
    | none => (s, false)
    | some (x, _) =>
      let me := s.module
      let peer := s.peerOf t
      let salt := sha256 (if me < peer then k.hs.nonce ++ k.hs.peerNonce else k.hs.peerNonce ++ k.hs.nonce)
      let kl := suiteKeyLen s.trunkSuite
      let okm := fun (a b : Nat) => hkdf salt (natToOs 32 x) [0x48, 0x4B, 0x56, BitVec.ofNat 8 a, BitVec.ofNat 8 b, BitVec.ofNat 8 phase] (kl + 4)
      let keys := fun (o : List Byte) => [o.take kl, o.drop kl]
      if s.trunkSuite = 5 && s.isSet R.FUS_STATUS_TRUNK_LOCK then (s, false)
      else
        let rx := s.get (R.TRK_Tt_SLOTS_RECV t)
        let w1 := s.newGen (s.get (R.TRK_Tt_SLOTS_SEND t)) s.trunkSuite false (keys (okm me peer))
        let w2 := w1.1.newGen rx s.trunkSuite true (keys (okm peer me))
        if w1.2 != St.ok || w2.2 != St.ok then (s, false)
        else
          let s := w2.1
          let g := (s.slot rx).genNo % 2
          let s := s.setTrunk t { s.trunk t with gens := SMap.set none k.gens phase (some g), windows := SMap.set CounterWindow.init k.windows phase CounterWindow.init
                                                 keyAt := s.cycle, hs := KeyExchange.init, rekeying := false }
          (s.put (R.TRK_Tt_STAT_KEY_PHASE t) phase, true)
  | _, _ => (s, false)

/-- The handshake is over (R400, R412): KEY_PHASE 0, heartbeats start, HEALING. -/
def State.handshakeDone (s : State) (t : Nat) : State :=
  let r := s.writeKeys t 0
  if !r.2 then s
  else
    let k := r.1.trunk t
    r.1.setTrunk t { k with st := .healing, count := 0, downSeq := k.hbNext, resync := true, missFrom := s.cycle, hbAt := s.cycle - 20 * msCycles }

/-- A handshake message is taken (R399, R400): refused with AUTH_FAIL, or kept, answered when it is a HELLO, and the keys written. -/
def State.takeHello (s : State) (f : TrunkFrame) (ty : Nat) : State :=
  let t := f.trunk
  let p := f.pkt
  let whole := slice p.frame p.pay (p.pay + p.payLen)
  if (s.trunk t).st != .handshake then s
  else if !s.helloOk t (whole.take (whole.length - 64)) f.body || (ty = 8) != (s.peerOf t < s.module) then s.helloFails t
  else
    let (_, q, nonce, id, _) := helloParts f.body none
    let s := s.setTrunk t { s.trunk t with peerId := some id, hs := { (s.trunk t).hs with peer := some q, peerNonce := nonce } }
    let s := if ty = 8 then s.sendHello t 9 else s
    s.handshakeDone t

/-- HELLO (R399). -/
def execHello (frame : Nat) (s : State) : Result :=
  let r := s.takeFrame frame 8
  .next (match r.2 with | some f => r.1.takeHello f 8 | none => r.1)

/-- HELLO_REPLY (R400). -/
def execHelloReply (frame : Nat) (s : State) : Result :=
  let r := s.takeFrame frame 9
  .next (match r.2 with | some f => r.1.takeHello f 9 | none => r.1)

/-- A trunk starts its handshake (R399, R412). -/
def State.startTrunk (s : State) (t : Nat) : State :=
  (s.setTrunk t { Trunk.init with st := .handshake, rtt := (s.trunk t).rtt, helloAt := s.cycle }).sendHello t (s.helloType t)

/-- EN of a trunk is set, by a write of word `w` (R392, R412): HELLO and HANDSHAKE once the unit runs, unless another enabled trunk names the
same peer, which refuses the write. -/
def State.enableTrunk (s : State) (t w : Nat) : State :=
  if s.isSet (R.TRK_Tt_CTRL_EN t) then s
  else if ((List.range 256).any fun u => u != t && s.isSet (R.TRK_Tt_CTRL_EN u) && s.peerOf u == s.peerOf t) then
    (s.putBit R.TRK_STATUS_CFG_IGNORED true).log Unit.trk t Sev.note Ev.cfgIgnored 0x1000 w
  else
    let s := s.putBit (R.TRK_Tt_CTRL_EN t) true
    if s.isSet R.TRK_CTRL_ENABLE then s.startTrunk t else s

/-- A trunk stops sending; neither slot is zeroed (R412). -/
def State.stopTrunk (s : State) (t : Nat) : State := s.setTrunk t { s.trunk t with st := .disabled, hs := KeyExchange.init, rekeying := false }

/-- EN of a trunk is cleared (R412). -/
def State.disableTrunk (s : State) (t : Nat) : State := (s.putBit (R.TRK_Tt_CTRL_EN t) false).stopTrunk t

/-- The trunk unit is enabled: every trunk whose EN is set starts (R412, R422). -/
def State.enableTrk (s : State) : State :=
  ((List.range 256).filter fun t => s.isSet (R.TRK_Tt_CTRL_EN t)).foldl State.startTrunk (s.putBit R.TRK_CTRL_ENABLE true)

/-- The trunk unit is disabled: every trunk stops as if EN were cleared (R422). -/
def State.disableTrk (s : State) : State := ((List.range 256).foldl State.stopTrunk s).putBit R.TRK_CTRL_ENABLE false

/-- TRUNK_ENABLE (R412). -/
def execTrunkEnable (who : Sender) (trunk : Fin 256) (s : State) : Result :=
  s.access who (R.TRK_Tt_CTRL_EN trunk).addr fun s =>
  .next (s.enableTrunk trunk (1 + 256 * s.peerOf trunk))

/-- TRUNK_DISABLE (R412). -/
def execTrunkDisable (who : Sender) (trunk : Fin 256) (s : State) : Result :=
  s.access who (R.TRK_Tt_CTRL_EN trunk).addr fun s =>
  .next (s.disableTrunk trunk)

/-- HELLO_RESEND (R399): every 1 s until the handshake completes. -/
def execHelloResend (trunk : Fin 256) (s : State) : Result :=
  let k := s.trunk trunk
  .next (if k.st == .handshake && s.passed k.helloAt secCycles then (s.setTrunk trunk { k with helloAt := s.cycle }).sendHello trunk (s.helloType trunk) else s)

/-- Whether the slot's previous generation is still live (R401). -/
def State.twoLive (s : State) (slot : Nat) : Bool := 2 ≤ (s.slot slot).gens.length

/-- REKEY_START (R401): on REKEY_REQ or after TRK_REKEY_S, and not while a previous generation is live. -/
def execRekeyStart (trunk : Fin 256) (s : State) : Result :=
  let k := s.trunk trunk
  let slot := s.slot (s.get (R.TRK_Tt_SLOTS_SEND trunk))
  let asked := (slot.cur?.map KeyGen.rekey).getD false
  let due := s.passed k.keyAt (s.get R.TRK_REKEY_S_SECONDS * secCycles)
  if !k.st.carries || k.rekeying || !(asked || due) || s.twoLive (s.get (R.TRK_Tt_SLOTS_SEND trunk)) || s.twoLive (s.get (R.TRK_Tt_SLOTS_RECV trunk)) then .next s
  else .next ((s.setTrunk trunk { k with rekeying := true, hs := KeyExchange.init }).sendHello trunk 10)

/-- REKEY (R401): the peer's message is checked, answered where this module did not start the exchange, and the new keys are written
under the inverted KEY_PHASE. -/
def execRekey (frame : Nat) (s : State) : Result :=
  let r := s.takeFrame frame 10
  match r.2 with
  | none => .next r.1
  | some f =>
    let s := r.1
    let t := f.trunk
    let k := s.trunk t
    let p := f.pkt
    let whole := slice p.frame p.pay (p.pay + 20) ++ f.body
    let (suite, q, nonce, id, sig) := helloParts f.body k.peerId
    let signed := patch (whole.take (whole.length - 64)) 12 (List.replicate 8 0)
    if f.body.length != 162 || k.peerId.isNone || suite != s.trunkSuite || !P256.verify (osToNat (sha256 signed)) id.1 id.2 sig.1 sig.2 then
      .next (s.helloFails t)
    else
      let s := if k.rekeying then s else (s.setTrunk t { k with hs := KeyExchange.init }).sendHello t 10
      let s := s.setTrunk t { s.trunk t with hs := { (s.trunk t).hs with peer := some q, peerNonce := nonce } }
      let w := s.writeKeys t (1 - s.get (R.TRK_Tt_STAT_KEY_PHASE t))
      .next (if w.2 then w.1.trunkEvent 3 (s.trunk t).st.code t none else s)

/-! ### Media and audio (R396, R397) -/

/-- The FCT result that a channel map entry gives (R396). -/
def cmapEntry (e : List Byte) : List Byte :=
  List.replicate 0x32 0 ++ e.take 2 ++ [0, e.getD 2 0, 0, 0, e.getD 5 0, e.getD 4 0, e.getD 3 0, e.getD 6 0, 0, 0, 0, 0]

/-- A MEDIA frame (R396): its RTP packet is handled as a packet of the mapped stream, with the frame's stamps. -/
def State.takeMedia (s : State) (f : TrunkFrame) : State :=
  let e := s.bytes (s.pair R.TRK_CMAP_BASE_LO_ADDR R.TRK_CMAP_BASE_HI_ADDR + (f.trunk * 65536 + be f.body 0 2) * 8) 8
  let act := (e.getD 2 0).toNat
  if !(e.getD 7 0).toNat.testBit 0 || act = 0 || 3 < act then s.count (R.C_TRK_Tt_CMAP_MISS f.trunk)
  else
    let rtp := f.body.drop 2
    let id := s.rly.nextId
    let s := s.withRly fun r => { r with nextId := id + 1 }
    let p : RxPacket := { f.pkt with id := id, entry := cmapEntry e, frame := rtp, pay := 0, payLen := rtp.length, rtp := rtp, op := 0,
                                     kind := 0, cell := noCell, ended := true, plan := .media, snap := none }
    s.enterRelay p

/-- MEDIA (R396). -/
def execMedia (frame : Nat) (s : State) : Result :=
  let r := s.takeFrame frame 1
  .next (match r.2 with | some f => r.1.takeMedia f | none => r.1)

/-- 240 samples of an AUDIO frame, most significant octet first (R395). -/
def audioSamples (b : List Byte) : List Int := (List.range 240).map fun i => signed 32 (be b (8 + 4 * i) 4)

/-- The body of an AUDIO frame: half `h` of a bus's output of a frame (R395, R397). -/
def State.audioBody (s : State) (conf bus frame h : Nat) : List Byte :=
  let at_ := bus * 0x2000 + frame % 2 * 0x780 + h * 960
  natToOs 2 conf ++ natToOs 4 frame ++ natToOs 1 h ++ [0] ++
    (List.range 240).flatMap fun i => ((List.range 4).map fun j => s.areaByte (at_ + 4 * i + j)).reverse

/-- AUDIO (R397): a received half goes to the source channel assigned to its trunk and conference; or the latest mixed frame of a
conference's MIX_TRUNK bus is sent in two halves. -/
def execAudio (what : TrunkAudio) (s : State) : Result :=
  match what with
  | .received frame source =>
    let r := s.takeFrame frame 2
    match r.2 with
    | none => .next r.1
    | some f =>
      let s := { r.1 with trk := { r.1.trk with sources := SMap.insert r.1.trk.sources (f.trunk * 4096 + be f.body 0 2) (source % 1536) } }
      .next (s.feedSource (source % 1536) (audioSamples f.body)).1
  | .sent trunk conf bus =>
    if s.mxm.next = 0 || !(s.trunk (trunk % 256)).st.carries || (s.cascade conf).lost.contains (s.peerOf (trunk % 256)) then .next s
    else
      let frame := s.mxm.next - 1
      .next ((s.trunkOut (trunk % 256) 2 0 (s.audioBody conf bus (frame % 2 ^ 32) 0) 1).trunkOut (trunk % 256) 2 0 (s.audioBody conf bus (frame % 2 ^ 32) 1) 1)

/-! ### Reliable delivery (R403 to R405) -/

/-- The words of a body in a trunk receive queue (R115): 64 octets each, the last filled with zeros. -/
def bodyWords : Nat → List Byte → List (List Byte)
  | 0, _ => []
  | _ + 1, [] => []
  | n + 1, bs => (bs.take 64 ++ List.replicate (64 - bs.length) 0) :: bodyWords n (bs.drop 64)

/-- Whether a trunk receive queue takes so many words. -/
def State.queueRoom (s : State) (q n : Nat) : Bool :=
  s.isSet (R.BPM_Qq_CFG_ENABLE q) && (s.queue q).fill + n ≤ s.get (R.BPM_Qq_DEPTH_WORDS q) && !(s.queue q).rewinding && (s.queue q).stalled.isEmpty

/-- Write a body's words as one packet. -/
def State.writeBody (s : State) (q : Nat) (first : Bool) : List (List Byte) → State
  | [] => s
  | [w] => (s.writeWord q ⟨w, first, true, false, 0⟩ .entry).1
  | w :: ws => (s.writeWord q ⟨w, first, false, false, 0⟩ .entry).1.writeBody q false ws

/-- Whether a firmware message is of a KIND that R408 gives. -/
def kindKnown (kind : Nat) : Bool := 1 ≤ kind && kind ≤ 9

/-- Deliver the bodies that are in order, as far as the trunk's receive queue takes them (R403); one of unknown
KIND, which firmware discards from there, is counted (R408). -/
def State.deliver (s : State) (t : Nat) : Nat → State
  | 0 => s
  | n + 1 =>
    let k := s.trunk t
    match SMap.find? k.rxHeld k.rxNext with
    | none => s
    | some body =>
      let words := bodyWords body.length body
      if !body.isEmpty && !s.queueRoom (16 + t) words.length then s
      else
        let s := if body.isEmpty || kindKnown (be body 0 1) then s else s.count (R.C_TRK_Tt_BAD_FRAME t)
        let s := s.setTrunk t { k with rxNext := (k.rxNext + 1) % 2 ^ 32, rxHeld := SMap.erase k.rxHeld k.rxNext, rxOctets := k.rxOctets + body.length }
        (s.writeBody (16 + t) true words).deliver t n

/-- The octets held in a trunk's receive window. -/
def Trunk.heldOctets (k : Trunk) : Nat := k.rxHeld.foldl (fun n e => n + e.2.length) 0

/-- CREDIT_LIMIT (R405): the octets delivered and the free octets of the window; nothing new while the pool of the trunk's frames stands
at WARN1 or higher. -/
def State.creditFor (s : State) (t : Nat) : Nat :=
  let k := s.trunk t
  let warned : Bool := match k.pool with | some p => s.get (R.BPM_Pp_LEVEL_LEVEL p) != 0 | none => false
  if warned then k.granted
  else max k.granted (k.rxOctets + (s.get (R.TRK_Tt_WIN_WIN_MIB t) * 2 ^ 20 - k.heldOctets))

/-- Send an ACK (R403). -/
def State.sendAck (s : State) (t : Nat) : State :=
  let k := s.trunk t
  let sack := (List.range 64).foldl (fun v b => if (SMap.find? k.rxHeld ((k.rxNext + b) % 2 ^ 32)).isSome then v + 2 ^ b else v) 0
  let limit := s.creditFor t
  let body := natToOs 4 ((k.rxNext + 2 ^ 32 - 1) % 2 ^ 32) ++ natToOs 8 sack ++ natToOs 8 limit
  (s.setTrunk t { k with granted := limit, unacked := false, gap := false, ackAt := s.cycle }).trunkOut t 4 0 body 0

/-- A RELIABLE frame (R403): delivered in order, or held while it is early and the window has room. -/
def State.takeReliable (s : State) (f : TrunkFrame) : State :=
  let t := f.trunk
  let k := s.trunk t
  let seq := be f.body 0 4
  let body := f.body.drop 4
  if !k.st.carries then s
  else
    let ahead := (seq + 2 ^ 32 - k.rxNext) % 2 ^ 32
    let room := k.heldOctets + body.length ≤ s.get (R.TRK_Tt_WIN_WIN_MIB t) * 2 ^ 20
    let k := { k with unacked := true, gap := k.gap || (0 < ahead && ahead < 2 ^ 31) }
    if ahead < 2 ^ 31 && room then
      let k := if (SMap.find? k.rxHeld seq).isSome then k else { k with rxHeld := SMap.insert k.rxHeld seq body }
      (s.setTrunk t k).deliver t (k.rxHeld.length)
    else s.setTrunk t k

/-- RELIABLE (R403); an ACK goes at once after a gap. -/
def execReliable (frame : Nat) (s : State) : Result :=
  let r := s.takeFrame frame 3
  match r.2 with
  | none => .next r.1
  | some f =>
    let t := r.1.takeReliable f
    .next (if (t.trunk f.trunk).gap then t.sendAck f.trunk else t)

/-- ACK_SEND (R403): 5 ms after the last, with frames unacknowledged, or after a gap. -/
def execAckSend (trunk : Fin 256) (s : State) : Result :=
  let s := s.deliver trunk (s.trunk trunk).rxHeld.length
  let k := s.trunk trunk
  .next (if k.st.carries && (k.gap || (k.unacked && s.passed k.ackAt (5 * msCycles))) then s.sendAck trunk else s)

/-- Resend a body (R404): a new encryption, its timer doubled up to 2 s. -/
def State.resend (s : State) (t : Nat) (b : SentBody) : State :=
  let k := s.trunk t
  let b' := { b with at_ := s.cycle, rto := min 2000000 (2 * b.rto), later := b.later }
  ((s.setTrunk t { k with tx := k.tx.map fun x => if x.seq = b.seq then b' else x }).count (R.C_TRK_Tt_RETX t)).transmit t b'

/-- An ACK (R404, R405): covered bodies leave the window, three later marks resend a body once, and the credit limit rises. -/
def State.takeAck (s : State) (f : TrunkFrame) : State :=
  let t := f.trunk
  let k := s.trunk t
  let cum := be f.body 0 4
  let sack := be f.body 4 8
  let limit := be f.body 12 8
  let covered := fun (b : SentBody) => b.sent && (cum + 2 ^ 32 - b.seq) % 2 ^ 32 < 2 ^ 31
  let marked := (List.range 64).filter fun i => sack.testBit i
  let off := fun (b : SentBody) => (b.seq + 2 ^ 32 - (cum + 1) % 2 ^ 32) % 2 ^ 32
  let kept := k.tx.filter fun b => !covered b
  let late := kept.filter fun b => b.sent && b.later < 3 && !marked.contains (off b) && 3 ≤ (marked.filter fun i => off b < i).length
  let s := s.setTrunk t { k with tx := kept.map fun b => if late.contains b then { b with later := 3 } else b, limit := max k.limit limit
                                 synDue := k.synDue && kept.any fun b => b.seq == 0 }
  let s := late.foldl (fun (s : State) b => s.resend t { b with later := 3 }) s
  s.pump t (s.trunk t).tx

/-- ACK (R404). -/
def execAck (frame : Nat) (s : State) : Result :=
  let r := s.takeFrame frame 4
  .next (match r.2 with | some f => if (r.1.trunk f.trunk).st.carries then r.1.takeAck f else r.1 | none => r.1)

/-- RETRANSMIT_TIMEOUT (R404). -/
def execRetransmitTimeout (trunk : Fin 256) (seq : Nat) (s : State) : Result :=
  let k := s.trunk trunk
  match k.tx.find? fun b => b.seq == seq && b.sent with
  | some b => .next (if k.st.carries && s.passed b.at_ (b.rto * usCycles) then s.resend trunk b else s)
  | none => .next s

/-- CONTROL (R408): one firmware message, delivered as it came; one of unknown KIND is discarded and counted. -/
def execControl (frame : Nat) (s : State) : Result :=
  let r := s.takeFrame frame 11
  match r.2 with
  | none => .next r.1
  | some f =>
    let kind := be f.body 0 1
    .next (if kindKnown kind then r.1.emit (.firmware 12 ([f.trunk] ++ f.body.map BitVec.toNat))
           else r.1.count (R.C_TRK_Tt_BAD_FRAME f.trunk))

/-! ### Heartbeats, probes and states (R404, R407, R412) -/

/-- The round-trip estimate after a sample in microseconds, in the manner of RFC 6298 (R404, R570). -/
def rttStep (old : Option (Nat × Nat)) (r : Nat) : Nat × Nat :=
  match old with
  | none => (r, r / 2)
  | some (srtt, var) =>
    let dev := if srtt < r then r - srtt else srtt - r
    ((7 * srtt + r) / 8, (3 * var + dev) / 4)

/-- HEARTBEAT_SEND (R412): every 20 ms, in every state that has keys. -/
def execHeartbeatSend (trunk : Fin 256) (s : State) : Result :=
  let k := s.trunk trunk
  if k.st == .disabled || k.st == .handshake || !s.passed k.hbAt (20 * msCycles) then .next s
  else
    let body := natToOs 4 k.hbNext ++ natToOs 4 k.hbGot ++ natToOs 8 s.time64
    let sent := SMap.insert (k.hbSent.filter fun e => s.cycle < e.2 + 4 * secCycles) k.hbNext s.cycle
    let s := s.setTrunk trunk { k with hbNext := (k.hbNext + 1) % 2 ^ 32, hbAt := s.cycle, hbSent := sent }
    .next (s.trunkOut trunk 5 (if k.resync then 2 else 0) body 0)

/-- DOWN (R407, R412): the windows are discarded, RESYNC is set in this side's heartbeats, STATE is posted, and the conferences lose the
peer (R414). -/
def State.trunkDown (s : State) (t : Nat) : State :=
  let k := s.trunk t
  let s := (s.count (R.C_TRK_Tt_DOWN_EVENTS t)).setTrunk t
    { k with st := .down, tx := [], rxHeld := [], txNext := 0, txOctets := 0, limit := 0, rxNext := 0, rxOctets := 0, granted := 0, unacked := false,
             gap := false, resync := true, downSeq := k.hbNext, count := 0 }
  (s.trunkEvent 1 5 t none).loseTrunk t

/-- UP (R412, R418): RESYNC is cleared, a RELIABLE with SYN is sent, STATE is posted, and the parts summarise. -/
def State.trunkUp (s : State) (t : Nat) : State :=
  let k := s.trunk t
  let s := s.setTrunk t { k with st := .up, resync := false, count := 0, synDue := true, tx := [], rxHeld := [], txNext := 0, txOctets := 0, limit := 0,
                                 rxNext := 0, rxOctets := 0, granted := 0 }
  let s := (s.sendReliable t []).1
  (s.trunkEvent 1 2 t none).summarise t

/-- The miss count is reset (R412). -/
def State.resetMisses (s : State) (t : Nat) : State := s.put (R.TRK_Tt_STAT_MISSES t) 0

/-- A heartbeat (R412): it resets the misses or counts towards UP, and its ECHO measures the round trip (R404). -/
def State.takeHeartbeat (s : State) (f : TrunkFrame) : State :=
  let t := f.trunk
  let k := s.trunk t
  let seq := be f.body 0 4
  let echo := be f.body 4 4
  let rtt := match SMap.find? k.hbSent echo with
    | some c => some (rttStep k.rtt ((s.cycle - c) / usCycles))
    | none => k.rtt
  let follows := 0 < k.count && seq = (k.counted + 1) % 2 ^ 32 && (SMap.find? k.hbSent echo).isSome && (echo + 2 ^ 32 - k.downSeq) % 2 ^ 32 < 2 ^ 31
  let n := if follows then k.count + 1 else 1
  let s := s.resetMisses t
  let k := { k with hbGot := seq, missFrom := s.cycle, rtt := rtt }
  match k.st with
  | .disabled => s
  | .handshake => s
  | .up => if f.flags.testBit 1 then (s.setTrunk t k).trunkDown t else s.setTrunk t k
  | .probe1 => s.setTrunk t { k with st := .up }
  | .probe2 => s.setTrunk t { k with st := .up }
  | .down => s.setTrunk t { k with st := .healing, counted := seq, count := n }
  | .healing =>
    let s := s.setTrunk t { k with counted := seq, count := n }
    if 3 ≤ n then s.trunkUp t else s

/-- HEARTBEAT (R412). -/
def execHeartbeat (frame : Nat) (s : State) : Result :=
  let r := s.takeFrame frame 5
  .next (match r.2 with | some f => r.1.takeHeartbeat f | none => r.1)

/-- Send a PROBE with a new PROBE_ID (R412). -/
def State.sendProbe (s : State) (t : Nat) (st : TrunkState) : State :=
  let k := s.trunk t
  let id := (k.probeId + 1) % 2 ^ 32
  (s.setTrunk t { k with st := st, probeId := id, probeAt := s.cycle }).trunkOut t 6 0 (natToOs 4 id) 0

/-- HEARTBEAT_MISS (R412): a 20 ms interval without an authenticated heartbeat. -/
def execHeartbeatMiss (trunk : Fin 256) (s : State) : Result :=
  let k := s.trunk trunk
  if k.st == .disabled || k.st == .handshake || !s.passed k.missFrom (20 * msCycles) then .next s
  else
    let s := (s.count (R.C_TRK_Tt_HB_MISSED trunk)).setTrunk trunk { k with missFrom := k.missFrom + 20 * msCycles }
    let s := s.bump (R.TRK_Tt_STAT_MISSES trunk)
    if k.st == .up && 5 ≤ s.get (R.TRK_Tt_STAT_MISSES trunk) then .next (s.sendProbe trunk .probe1)
    else if k.st == .healing then
      .next ((s.count (R.C_TRK_Tt_DOWN_EVENTS trunk)).setTrunk trunk { s.trunk trunk with st := .down, count := 0 })
    else .next s

/-- PROBE (R412): answered at once in any state. -/
def execProbe (frame : Nat) (s : State) : Result :=
  let r := s.takeFrame frame 6
  .next (match r.2 with | some f => r.1.trunkOut f.trunk 7 0 (f.body.take 4) 0 | none => r.1)

/-- PROBE_REPLY (R412): it counts only within 50 ms of its PROBE. -/
def execProbeReply (frame : Nat) (s : State) : Result :=
  let r := s.takeFrame frame 7
  match r.2 with
  | none => .next r.1
  | some f =>
    let k := r.1.trunk f.trunk
    let probing := k.st == .probe1 || k.st == .probe2
    if probing && be f.body 0 4 = k.probeId && r.1.cycle ≤ k.probeAt + 50 * msCycles then
      .next ((r.1.resetMisses f.trunk).setTrunk f.trunk { k with st := .up, missFrom := r.1.cycle })
    else .next r.1

/-- PROBE_TIMEOUT (R412): 50 ms without an answer. -/
def execProbeTimeout (trunk : Fin 256) (s : State) : Result :=
  let k := s.trunk trunk
  if !s.passed k.probeAt (50 * msCycles) then .next s
  else if k.st == .probe1 then .next (s.sendProbe trunk .probe2)
  else if k.st == .probe2 then .next (s.trunkDown trunk)
  else .next s

end Sys2Proof.Machine
end

