-- ==== Sys2Proof/Machine/Pacing.lean ====
section
/-! DEFINITION. The packetizer of composed video (spec/06_compose_encode.md, R224, R225). Its payload formats are those of RFC 6184,
RFC 7798 and the AV1 RTP payload specification, PRESUMED from outside the spec (log entry 46). -/

namespace Sys2Proof.Machine

open Sys2Proof

/-- The NAL units of a picture, each behind its length of 4 octets (R212). -/
def nalUnits : Nat → List Byte → List (List Byte)
  | 0, _ => []
  | fuel + 1, bs =>
    let n := beVal (bs.take 4)
    if bs.length < 5 || bs.length < 4 + n then [] else (bs.drop 4).take n :: nalUnits fuel (bs.drop (4 + n))

/-- The OBUs of a picture, each with its size field, as an RTP packet carries them: without it (R212). A temporal delimiter is not carried. -/
def obuUnits : Nat → List Byte → List (List Byte)
  | 0, _ => []
  | _ + 1, [] => []
  | fuel + 1, b :: bs =>
    let ext := if b.toNat.testBit 2 then 1 else 0
    match leb128 8 (bs.drop ext) with
    | none => []
    | some (v, n) =>
      let head := (b &&& 0xFD) :: bs.take ext
      (head ++ (bs.drop (ext + n)).take v) :: obuUnits fuel (bs.drop (ext + n + v))

/-- Octets in parts of at most `n`. -/
def partsOf (n : Nat) : Nat → List Byte → List (List Byte)
  | 0, _ => []
  | fuel + 1, bs => if bs.length ≤ n then [bs] else bs.take n :: partsOf n fuel (bs.drop n)

/-- The payloads of one unit of H.264 or H.265 that may hold `room` octets: the unit itself, or its fragments. -/
def nalPayloads (h265 : Bool) (room : Nat) (u : List Byte) : List (List Byte) :=
  if u.length ≤ room then [u]
  else
    let b := (u.headD 0).toNat
    let head : List Byte := if h265 then [BitVec.ofNat 8 (b / 128 * 128 + 98 + b % 2), u.getD 1 0] else [BitVec.ofNat 8 (b / 32 * 32 + 28)]
    let ty := if h265 then b / 2 % 64 else b % 32
    let body := u.drop head.length
    let ps := partsOf (room - head.length - 1) body.length body
    ps.zipIdx.map fun (e : List Byte × Nat) =>
      head ++ [BitVec.ofNat 8 (128 * bnat (e.2 == 0) + 64 * bnat (e.2 + 1 == ps.length) + ty)] ++ e.1

/-- The payload that aggregates units of H.264 or H.265. -/
def aggregate (h265 : Bool) (us : List (List Byte)) : List Byte :=
  let b := fun (u : List Byte) => (u.headD 0).toNat
  let head : List Byte :=
    if h265 then [96, BitVec.ofNat 8 ((us.map fun u => (u.getD 1 0).toNat % 8).foldl min 7)]
    else [BitVec.ofNat 8 ((us.map fun u => b u / 32 % 4).foldl max 0 * 32 + 24)]
  head ++ us.flatMap fun u => natToOs 2 u.length ++ u

/-- The payloads of one OBU, behind the aggregation header with Z, Y, W = 1 and N; N marks the first packet of an intra picture. -/
def obuPayloads (room : Nat) (first : Bool) (u : List Byte) : List (List Byte) :=
  let ps := partsOf (room - 1) u.length u
  ps.zipIdx.map fun (e : List Byte × Nat) =>
    BitVec.ofNat 8 (128 * bnat (e.2 != 0) + 64 * bnat (e.2 + 1 != ps.length) + 16 + 8 * bnat (first && e.2 == 0)) :: e.1

/-- The payload that aggregates OBUs, each with its length. -/
def aggregateObus (first : Bool) (us : List (List Byte)) : List Byte :=
  BitVec.ofNat 8 (8 * bnat first) :: us.flatMap fun u => toLeb128 8 u.length ++ u

/-- The payloads of a picture's units: `groups` says how many units the packetizer puts together each time; a group that does not fit
goes unit by unit. -/
def pictureGroups (codec room : Nat) (intra : Bool) : Nat → List Nat → List (List Byte) → List (List Byte)
  | 0, _, _ => []
  | _ + 1, _, [] => []
  | fuel + 1, gs, u :: us =>
    let n := max 1 (gs.headD 1)
    let group := (u :: us).take n
    let whole := if codec = 3 then aggregateObus intra group else aggregate (codec == 2) group
    let here :=
      if 2 ≤ group.length && whole.length ≤ room then [whole]
      else if codec = 3 then group.zipIdx.flatMap fun (e : List Byte × Nat) => obuPayloads room (intra && e.2 == 0) e.1
      else group.flatMap (nalPayloads (codec == 2) room)
    here ++ pictureGroups codec room false fuel (gs.drop 1) ((u :: us).drop n)

/-- PACKETIZE (R225): the picture of an encode record becomes RTP payloads of at most VIDEO_MAX_PAYLOAD octets, whose slots spread evenly
over the lesser of VIDEO_PACE_US and half the frame interval. `codec` is the context's CODEC (R212). -/
def execPacketize (leg : Fin 16384) (codec : Fin 4) (record bits frameUs : Nat) (groups : List Nat) (s : State) : Result :=
  let flags := s.le (record + 2) 2
  let data := s.bytes bits (s.le (record + 8) 4)
  if s.legLimit ≤ leg || flags.testBit 5 then .next s
  else
    let units := if codec = 3 then (obuUnits data.length data).filter fun u => (u.headD 0).toNat / 8 % 16 != 2 else nalUnits data.length data
    let payloads := pictureGroups codec (s.obj 0x505002 leg 1200) (flags.testBit 0) units.length groups units
    let window := min (s.obj 0x505001 leg 500) (frameUs / 2) * usCycles
    let made := payloads.zipIdx.map fun (e : List Byte × Nat) =>
      (⟨leg, s.cycle + e.2 * window / payloads.length, e.2 + 1 == payloads.length, e.1⟩ : PacedPacket)
    .next (s.withFw fun y => { y with paced := y.paced ++ made })

/-- The first packet that waits for a leg, and the others. -/
def takePaced (leg : Nat) : List PacedPacket → Option (PacedPacket × List PacedPacket)
  | [] => none
  | p :: ps =>
    if p.leg = leg then some (p, ps)
    else match takePaced leg ps with
      | some (q, qs) => some (q, p :: qs)
      | none => none

/-- PACE_PACKET (R225): at its slot a packet passes to encryption and egress, as a packet of the leg's output stream; `header` is the RTP
header that vendor firmware gives it, whose marker bit the picture's last packet sets. -/
def execPacePacket (leg : Fin 16384) (stream : BitVec 16) (cls : Fin 8) (header : List Byte) (s : State) : Result :=
  match takePaced leg s.fw.paced with
  | none => .next s
  | some (p, rest) =>
    if s.cycle < p.due then .next s
    else
      let s := s.withFw fun y => { y with paced := rest }
      let m := (header.getD 1 0 &&& 0x7F) ||| (if p.marker then 0x80 else 0)
      .next (s.injectRtp stream.toNat cls (patch header 1 [m] ++ p.payload))

/-- ENC_FORCE_INTRA (R224): FORCE_INTRA is set in the stream's next encode descriptor that vendor firmware has not released; the requests
that wait are merged in it. -/
def execEncForceIntra (stream : Fin 16384) (desc : Nat) (s : State) : Result :=
  .next ((s.setLe (desc + 0x2C) 2 (s.le (desc + 0x2C) 2 ||| 1)).setObj 0x504007 stream 0 0)

end Sys2Proof.Machine
end

