-- ==== Sys2Proof/Machine/Cards.lean ====
section
/-! DEFINITION. The background table of the Tile Splicer (spec/07_tile_layouts.md, R253, R265), which vendor firmware loads. -/

namespace Sys2Proof.Machine

open Sys2Proof

/-- The slices of a tier's picture. -/
def tierSlices (tier : Nat) : Nat := if tier = 1 then 1 else if tier = 2 then 4 else 16

/-- The place and length of each slice NAL unit among length-prefixed units (R241). -/
def cardSlices (off : Nat) : List (List Byte) → List (Nat × Nat)
  | [] => []
  | u :: us =>
    let rest := cardSlices (off + 4 + u.length) us
    if (u.headD 0).toNat / 2 % 64 < 32 then (off + 4, u.length) :: rest else rest

/-- Whether a card holds one intra slice for every cell of its tier, first slice first, and nothing else but units that are no slices (R235,
R237, R253). -/
def cardOk (tier : Nat) (v : List Byte) : Bool :=
  let us := nalUnits v.length v
  let slices := us.filter fun u => (u.headD 0).toNat / 2 % 64 < 32
  (us.map fun u => 4 + u.length).sum == v.length && slices.length == tierSlices tier && slices.all (fun u => (parseSlice tier u).isI) &&
    Config.cardDecodes tier v

/-- Record `n` of the background table gets a picture of a tier, in the format of R241 (R253): the picture at its place, and the record. -/
def State.putCard (s : State) (n tier : Nat) (intra : Bool) (v : List Byte) : State :=
  let a := Config.cardPlace n % 2 ^ 30 * 64
  let sl := cardSlices 0 (nalUnits v.length v)
  let body := [0, BitVec.ofNat 8 (bnat intra), BitVec.ofNat 8 tier, BitVec.ofNat 8 sl.length] ++ List.replicate 12 0 ++ leBytes 8 a ++
    leBytes 4 ((sl.map Prod.snd).sum) ++ List.replicate 36 0 ++ sl.flatMap fun e => leBytes 4 e.1 ++ leBytes 4 e.2
  (s.setBytes a v).setBytes (s.bgRecord n) body

/-- BG_CARD (R253): vendor firmware keeps the picture and writes the tier's background record (R241). -/
def State.writeCard (s : State) (tier : Nat) (v : List Byte) : State × Nat :=
  if !cardOk tier v then (s, St.objRange) else ((s.putCard tier tier true v).setOctets (0x506008 + tier) 0 v, St.ok)

/-- Vendor firmware loads the background table at start-up (R253): the skip cell and the three mid-grey cards. It places a table that has no
base yet in region 1 (R459). -/
def State.loadCards (s : State) : State :=
  let base := 2 ^ 30 + Config.bgTable % 2 ^ 22 * 256
  let s := if s.pair R.TSP_BG_BASE_LO_ADDR R.TSP_BG_BASE_HI_ADDR = 0 then s.putPair R.TSP_BG_BASE_LO_ADDR R.TSP_BG_BASE_HI_ADDR base else s
  let s := s.putCard 0 1 false Config.skipCell
  ((s.putCard 1 1 true (Config.greyCard 1)).putCard 2 2 true (Config.greyCard 2)).putCard 3 3 true (Config.greyCard 3)

end Sys2Proof.Machine
end

