-- ==== Sys2Proof/Machine/Hbm.lean ====
section
/-! DEFINITION. The stacked memory controllers (spec/14_stacked_memory.md, R456 to R477): mappings, activation trackers and throttles, ECC
and poison, training, and the BAR2 aperture. -/

namespace Sys2Proof.Machine

open Sys2Proof

/-! ### Mappings (R457, R458) -/

/-- Where a byte lies: controller, pseudo-channel, bank and row. -/
structure HbmPlace where
  ctl  : Nat
  pc   : Nat
  bank : Nat
  row  : Nat
  deriving DecidableEq, Repr

/-- `n` bits of an address from bit `i`. -/
def abits (a i n : Nat) : Nat := a / 2 ^ i % 2 ^ n

/-- The place of an address under a mapping: 0 STREAM, 1 SCATTER, 2 ROWLOCAL (R457). -/
def placeOf (map a : Nat) : HbmPlace :=
  if map = 1 then ⟨abits a 13 2, abits a 15 5, abits a 8 5 ^^^ abits a 22 5, abits a 22 14⟩
  else if map = 2 then ⟨abits a 10 2, abits a 12 5, abits a 17 5, abits a 22 14⟩
  else ⟨abits a 8 2, abits a 10 5, abits a 17 5, abits a 22 14⟩

/-- The lowest-numbered region that an address lies in (R458). -/
def State.regionOf (s : State) (a : Nat) : Option Nat :=
  (List.range 8).find? fun r =>
    s.get (R.HBM_REG_BASE_UNITS r) ≤ a / 2 ^ 22 && a / 2 ^ 22 < s.get (R.HBM_REG_BASE_UNITS r) + s.get (R.HBM_REG_SIZE_UNITS r)

/-- The place of an address (R457, R458). -/
def State.place (s : State) (a : Nat) : HbmPlace :=
  placeOf (match s.regionOf a with | some r => s.get (R.HBM_REG_CFG_MAP r) | none => 0) a

/-! ### Controllers and banks -/

/-- A controller. -/
def State.hbmCtl (s : State) (c : Nat) : HbmCtl := SMap.get HbmCtl.init s.hbm.ctls c

/-- The state with a controller replaced. -/
def State.setHbmCtl (s : State) (c : Nat) (k : HbmCtl) : State := { s with hbm := { s.hbm with ctls := SMap.set HbmCtl.init s.hbm.ctls c k } }

/-- The key of a bank. -/
def HbmPlace.key (p : HbmPlace) : Nat := p.ctl * 1024 + p.pc * 32 + p.bank

/-- A bank. -/
def State.hbmBank (s : State) (k : Nat) : HbmBank := SMap.get HbmBank.init s.hbm.banks k

/-- The state with a bank replaced. -/
def State.setHbmBank (s : State) (k : Nat) (b : HbmBank) : State := { s with hbm := { s.hbm with banks := SMap.set HbmBank.init s.hbm.banks k b } }

/-- Whether a controller serves requests: trained and not fenced. -/
def State.hbmServes (s : State) (c : Nat) : Bool := s.isSet (R.HBM_STATUS_READY c) && !s.isFenced Unit.hbm c

/-! ### Activation trackers and throttles (R464, R465) -/

/-- VOTE and SRC of an entry after an activation by `src` (R464 step 3). -/
def RowCount.vote1 (e : RowCount) (src : Nat) : RowCount :=
  if e.src = src then { e with vote := min 255 (e.vote + 1) }
  else if e.vote ≤ 1 then { e with src := src, vote := 1 }
  else { e with vote := e.vote - 1 }

/-- The lowest COUNT of a tracker. -/
def lowestCount (t : List RowCount) : Nat := t.foldl (fun m e => min m e.count) (2 ^ 16)

/-- The entries with the first of the lowest COUNT replaced by a row at one more (R464 step 2). -/
def replaceLowest (m row : Nat) : List RowCount → List RowCount
  | [] => []
  | e :: es => if e.count = m then { e with row := row, count := m + 1 } :: es else e :: replaceLowest m row es

/-- A tracker after an activation of a row by a source (R464). -/
def trackRow (t : List RowCount) (row src : Nat) : List RowCount :=
  let t := if t.any fun e => e.row == row then t.map fun e => if e.row = row then { e with count := min 65535 (e.count + 1) } else e
           else if t.length < 16 then t ++ [⟨row, 1, src, 0⟩]
           else replaceLowest (lowestCount t) row t
  t.map fun e => if e.row = row then e.vote1 src else e

/-- The throttle slot that a source takes (R465): its own, a free one, or the one with the least time left. -/
def State.throttleSlot (s : State) (c src : Nat) : Nat :=
  let k := s.hbmCtl c
  let at_ := fun i => SMap.get none k.throttles i
  match (List.range 8).find? fun i => (at_ i).map Prod.fst == some src with
  | some i => i
  | none =>
    match (List.range 8).find? fun i => (at_ i).isNone with
    | some i => i
    | none => (List.range 8).foldl (fun b i => if ((at_ i).getD (0, 0)).2 < ((at_ b).getD (0, 0)).2 then i else b) 0

/-- A throttle slot is set or freed, with its register (R475). -/
def State.setThrottle (s : State) (c i : Nat) (v : Option (Nat × Nat)) : State :=
  let k := s.hbmCtl c
  let s := s.setHbmCtl c { k with throttles := SMap.set none k.throttles i v }
  match v with
  | some (src, until_) => (s.put (R.HBM_THR_SRC c i) src).put (R.HBM_THR_US_LEFT c i) (ceilDiv (until_ - s.cycle) usCycles)
  | none => (s.put (R.HBM_THR_SRC c i) 0).put (R.HBM_THR_US_LEFT c i) 0

/-- A source whose COUNT reached the threshold is throttled for HBM_RDT_US (R465). -/
def State.throttle (s : State) (c src : Nat) : State :=
  s.setThrottle c (s.throttleSlot c src) (some (src, s.cycle + s.get R.HBM_RDT_US_US * usCycles))

/-- The targeted refresh of R465: the entry is cleared, the event counted, shown and logged, and SRC throttled. The rows refreshed keep
their contents. -/
def State.rowTrigger (s : State) (p : HbmPlace) (e : RowCount) : State :=
  let b := s.hbmBank p.key
  let s := s.setHbmBank p.key { b with tracker := b.tracker.filter fun x => x.row != e.row }
  let s := (s.count (R.C_HBM_RDT_EVENTS p.ctl)).put (R.HBM_RDT_LAST_ROW p.ctl) p.row
  let s := (s.put (R.HBM_RDT_LAST_BANK p.ctl) p.bank).put (R.HBM_RDT_LAST_PC p.ctl) p.pc
  (s.log Unit.hbm p.ctl Sev.note Ev.rdtTrigger ((p.pc * 32 + p.bank) * 16384 + p.row) e.src).throttle p.ctl e.src

/-- Whether a source is throttled at a controller (R465). -/
def State.isThrottled (s : State) (c src : Nat) : Bool :=
  (List.range 8).any fun i => match SMap.get none (s.hbmCtl c).throttles i with | some (x, u) => x == src && decide (s.cycle < u) | none => false

/-- Whether a throttle keeps a source from a row for now (R465): the row is not open, and the source opened one less than HBM_RDT_GAP ago. -/
def State.rowWaits (s : State) (p : HbmPlace) (src : Nat) : Bool :=
  decide ((s.hbmBank p.key).row ≠ some p.row) && s.isThrottled p.ctl src &&
    match SMap.find? (s.hbmCtl p.ctl).lastAct src with
    | some c => decide (2 * (s.cycle - c) < 3 * s.get R.HBM_RDT_GAP_NS)
    | none => false

/-- A source reaches a row (R464, R465): a row that is not open is activated. -/
def State.hbmActivate (s : State) (p : HbmPlace) (src : Nat) : State :=
  let b := s.hbmBank p.key
  if b.row = some p.row then s
  else
    let k := s.hbmCtl p.ctl
    let s := s.setHbmCtl p.ctl { k with lastAct := SMap.insert k.lastAct src s.cycle }
    let s := s.setHbmBank p.key { b with row := some p.row, tracker := trackRow b.tracker p.row src }
    match (s.hbmBank p.key).tracker.find? fun e => e.row == p.row with
    | some e => if s.get R.HBM_RDT_THRESH_ACTS ≤ e.count then s.rowTrigger p e else s
    | none => s

/-! ### ECC and poison (R466, R467) -/

/-- The 32-byte word of an address. -/
def wordOf (a : Nat) : Nat := a / 32 * 32

/-- A word is poisoned (R466). -/
def State.poisonWord (s : State) (c a src : Nat) : State :=
  let w := wordOf a
  let s := (s.setBytes w (List.replicate 32 0)).count (R.C_HBM_POISONED c)
  let s := { s with poison := SMap.set false s.poison w true }
  let s := ((s.put (R.HBM_POISON_LAST_LO_ADDR c) a).put (R.HBM_POISON_LAST_HI_ADDR c) (a / 2 ^ 32)).put (R.HBM_POISON_LAST_HI_SRC c) src
  s.log Unit.hbm c Sev.warn Ev.poisoned a src

/-- What the ECC of a read word does (R466); false where the word is delivered poisoned. -/
def State.eccRead (s : State) (c a src : Nat) (f : EccFinding) : State × Bool :=
  let s := s.count (R.C_HBM_READS c)
  if s.marked a then (s.count (R.C_HBM_POISON_READS c), false)
  else
    match f with
    | .clean => (s, true)
    | .corrected => (s.count (R.C_HBM_CE_COUNT c), true)
    | .retried => ((s.count (R.C_HBM_UE_RETRIED c)).retried Unit.hbm c 1 a, true)
    | .uncorrectable => ((s.poisonWord c a src).count (R.C_HBM_POISON_READS c), false)

/-- The pieces of `n` octets at an address, word by word. -/
def pieces : Nat → Nat → Nat → List (Nat × Nat)
  | 0, _, _ => []
  | fuel + 1, a, n => if n = 0 then [] else let k := min n (wordOf a + 32 - a); (a, k) :: pieces fuel (a + k) (n - k)

/-! ### The requests held (R460 to R462) -/

/-- The service class of a source (R460): 0 RT, 1 VIDEO, 2 BULK, 3 MAINT. The decision trace is written by the HTS. -/
def classOf : Sender → Nat
  | .host _ => 2
  | .control _ => 2
  | .dsp _ => 0
  | .engine _ => 1
  | .fixed n => if n = 8 then 2 else if n = 6 || n = 7 then 3 else 0

/-- Octets of a request held as one word's part. -/
def pieceOf (op : HbmOp) (i k : Nat) : HbmOp :=
  match op with
  | .read _ => .read k
  | .write bs => .write ((bs.drop i).take k)

/-- The controllers' registers of the requests held (R475): a controller holds up to 1,024, and what comes beyond them waits to enter. -/
def State.showHeld (s : State) : State :=
  (List.range 4).foldl (fun (t : State) c =>
    t.put (R.HBM_OUTSTANDING_REQUESTS c) (min 1024 (s.hbm.reqs.filter fun r => (s.place r.addr).ctl == c).length)) s

/-- A request's words join those held, youngest last; `ecc` is what ECC is to find in the first. -/
def State.holdWords (s : State) (a : HbmAsk) (answer : Bool) (ecc : EccFinding) : State :=
  let ps := pieces (a.op.size + 1) a.addr a.op.size
  let h := s.hbm
  let octets : List Byte := match a.op with | .read n => List.replicate n 0 | .write _ => []
  let words := ps.zipIdx.map fun e => (⟨h.next + e.2, h.next, a.who, e.1.1, pieceOf a.op (e.1.1 - a.addr) e.1.2, s.cycle, false, false, if e.2 = 0 then ecc else .clean⟩ : HbmReq)
  if ps = [] then s
  else ({ s with hbm := { h with reqs := h.reqs ++ words, next := h.next + ps.length,
                                 flows := SMap.insert h.flows h.next ⟨a.who, a.addr, octets, ps.length, false, answer⟩ } }).showHeld

/-- A fenced controller's answer to a request (R36, R471): a host's read is aborted and its write reported, any other has UNIT_FENCED. -/
def State.memoryLost (s : State) (a : HbmAsk) : State :=
  match a.who, a.op with
  | .host _, .read _ => s.emit (.readAbort a.who a.addr)
  | .host _, .write _ => s.emit (.aer a.addr)
  | _, _ => s.emit (.done a.who St.unitFenced [a.addr])

/-- A request reaches the controllers (R36, R460): a fenced crossing discards it, a fenced controller refuses it, and any other holds it. -/
def State.ask (s : State) (a : HbmAsk) (answer : Bool) (ecc : EccFinding) : State :=
  if s.cutOff a.who then (match a.op with | .read _ => s.lostRead a.who a.addr | .write _ => s.lostWrite a.who a.addr)
  else if (pieces (a.op.size + 1) a.addr a.op.size).any fun e => s.isFenced Unit.hbm (s.place e.1).ctl then s.memoryLost a
  else s.holdWords a answer ecc

/-- Whether a request may not pass an older one: their words overlap (R462), or both came through BAR2, whose order is kept (R473). -/
def HbmReq.behind (r o : HbmReq) : Bool := wordOf r.addr == wordOf o.addr || (isHost r.who && isHost o.who)

/-- The requests that a pseudo-channel can serve now, oldest first; `older` are those ahead of them. -/
def State.servable (s : State) (c pc : Nat) : List HbmReq → List HbmReq → List HbmReq
  | _, [] => []
  | older, r :: rs =>
    let p := s.place r.addr
    let rest := s.servable c pc (r :: older) rs
    if p.ctl = c && p.pc = pc && !older.any r.behind && !s.rowWaits p r.who.stamp then r :: rest else rest

/-- The requests a controller holds: the first 1,024 (R475). -/
def State.heldBy (s : State) (c : Nat) : List HbmReq := (s.hbm.reqs.filter fun r => (s.place r.addr).ctl == c).take 1024

/-- A request's rank (R461): promoted ones, then the classes, and row hits before the others of a class. -/
def State.rank (s : State) (r : HbmReq) : Nat :=
  if r.promoted then 0 else 1 + 2 * classOf r.who + bnat (decide ((s.hbmBank (s.place r.addr).key).row ≠ some (s.place r.addr).row))

/-- The first of the lowest rank, which is its oldest. -/
def State.bestReq (s : State) : List HbmReq → Option HbmReq
  | [] => none
  | r :: rs =>
    match s.bestReq rs with
    | some b => if s.rank b < s.rank r then some b else some r
    | none => some r

/-- The next request of a pseudo-channel (R461). -/
def State.nextReq (s : State) (c pc : Nat) : Option HbmReq :=
  let held := s.heldBy c
  s.bestReq ((s.servable c pc [] s.hbm.reqs).filter fun r => held.any fun h => h.n == r.n)

/-- A request held by a pseudo-channel is promoted once it has waited longer than HBM_AGE_MAX (R461), and is counted as delayed once a
throttle holds it back (R465). -/
def State.ageReq (s : State) (r : HbmReq) : State :=
  let p := s.place r.addr
  let up := !r.promoted && decide (3 * s.get R.HBM_AGE_MAX_NS < 2 * (s.cycle - r.since))
  let late := !r.delayed && s.rowWaits p r.who.stamp
  let s := if up then s.count (R.C_HBM_PROMOTIONS p.ctl) else s
  let s := if late then s.count (R.C_HBM_THROTTLED_ACTS p.ctl) else s
  { s with hbm := { s.hbm with reqs := s.hbm.reqs.map fun x =>
      if x.n = r.n then { x with promoted := x.promoted || up, delayed := x.delayed || late } else x } }

/-- A word of a request is done: its octets and poison are kept, and the request's end is answered with its last word (R467). -/
def State.wordDone (s : State) (r : HbmReq) (bs : List Byte) (bad : Bool) : State :=
  let s := { s with hbm := { s.hbm with reqs := s.hbm.reqs.filter fun x => x.n != r.n } }
  let s := s.showHeld
  match SMap.find? s.hbm.flows r.flow with
  | none => s
  | some f =>
    let i := r.addr - f.addr
    let f := { f with octets := f.octets.take i ++ bs ++ f.octets.drop (i + bs.length), left := f.left - 1, bad := f.bad || bad }
    if f.left = 0 then
      let s := { s with hbm := { s.hbm with flows := SMap.erase s.hbm.flows r.flow } }
      if !f.answer then s
      else if f.octets = [] then s.emit (.done f.who St.ok [f.addr])
      else s.emit (.done f.who St.ok (f.addr :: bnat f.bad :: f.octets.map BitVec.toNat))
    else { s with hbm := { s.hbm with flows := SMap.insert s.hbm.flows r.flow f } }

/-- A word is served (R462, R464, R466, R467): less than a word is written as a read-modify-write, and only a whole word clears a poison
mark. What ECC finds is known with the request, or with the command that serves it. -/
def State.serveWord (s : State) (r : HbmReq) (ecc : EccFinding) : State :=
  let p := s.place r.addr
  let ecc := if r.ecc = .clean then ecc else r.ecc
  let s := s.hbmActivate p r.who.stamp
  match r.op with
  | .read n =>
    let e := s.eccRead p.ctl r.addr r.who.stamp ecc
    e.1.wordDone r (if e.2 then e.1.bytes r.addr n else List.replicate n 0) (!e.2)
  | .write bs =>
    let s := if bs.length = 32 then s else (s.eccRead p.ctl r.addr r.who.stamp ecc).1
    ((s.count (R.C_HBM_WRITES p.ctl)).setBytes r.addr bs).wordDone r [] false

/-- A pseudo-channel serves its next request (R461); none while its controller does not serve. -/
def State.serveNext (s : State) (c pc : Nat) (ecc : EccFinding) : State :=
  if !s.hbmServes c then s
  else
    let s := ((s.heldBy c).filter fun r => (s.place r.addr).pc == pc).foldl State.ageReq s
    match s.nextReq c pc with
    | some r => s.serveWord r ecc
    | none => s

/-- A fenced controller ends every request with a word it holds (R36, R471). -/
def State.loseHeld (s : State) (c : Nat) : State :=
  let lost := ((s.hbm.reqs.filter fun r => (s.place r.addr).ctl == c).map HbmReq.flow).eraseDups
  let asks := lost.filterMap fun i => (SMap.find? s.hbm.flows i).bind fun f =>
    if f.answer || isHost f.who then some (⟨f.who, f.addr, if f.octets = [] then .write [] else .read f.octets.length⟩ : HbmAsk) else none
  let s := { s with hbm := { s.hbm with reqs := s.hbm.reqs.filter fun r => !lost.contains r.flow, flows := s.hbm.flows.filter fun e => !lost.contains e.1 } }
  asks.foldl State.memoryLost s.showHeld

/-- HBM_REQUEST (R460 to R467): the requests that arrive are held, and the pseudo-channel serves its next one; an address outside the
64 GiB names no memory. -/
def execHbmRequest (ctl : Fin 4) (pc : Fin 32) (arrivals : List HbmAsk) (ecc : EccFinding) (s : State) : Result :=
  match arrivals.find? fun a => decide (hbmBytes < a.addr + a.op.size ∨ hbmBytes ≤ a.addr) with
  | some a => .fault (.noSuchAddress a.addr)
  | none => .next ((arrivals.foldl (fun s a => s.ask a true .clean) s).serveNext ctl pc ecc)

/-! ### Refresh, throttles and scrub (R463 to R465, R468) -/

/-- REFRESH (R463): one refresh command of a bank. -/
def execRefresh (ctl : Fin 4) (pc bank : Fin 32) (s : State) : Result :=
  let k := ctl.val * 1024 + pc.val * 32 + bank.val
  .next (s.setHbmBank k { s.hbmBank k with refreshes := (s.hbmBank k).refreshes + 1 })

/-- Milliseconds of the refresh window in force (R463). -/
def State.windowMs (s : State) (c : Nat) : Nat := if s.isSet (R.HBM_STATUS_HOT_REFRESH c) then 16 else 32

/-- REFRESH_WINDOW_START (R463, R464): every tracker of the controller is cleared, and the stack's temperature takes effect. -/
def execRefreshWindowStart (ctl : Fin 4) (celsius : BitVec 8) (s : State) : Result :=
  let k := s.hbmCtl ctl
  if !s.passed k.windowAt (s.windowMs ctl * msCycles) then .next s
  else
    let s := s.setHbmCtl ctl { k with windowAt := s.cycle }
    let s := { s with hbm := { s.hbm with banks := s.hbm.banks.foldl (fun m (e : Nat × HbmBank) =>
      if e.1 / 1024 = ctl.val then SMap.set HbmBank.init m e.1 { e.2 with tracker := [], refreshes := 0 } else m) s.hbm.banks } }
    .next ((s.put (R.HBM_STACK_TEMP_CELSIUS ctl) celsius.toNat).putBit (R.HBM_STATUS_HOT_REFRESH ctl) (85 < celsius.toNat))

/-- THROTTLE_EXPIRY (R465). -/
def execThrottleExpiry (ctl : Fin 4) (slot : Fin 8) (s : State) : Result :=
  match SMap.get none (s.hbmCtl ctl).throttles slot with
  | some (_, u) => .next (if u ≤ s.cycle then s.setThrottle ctl slot none else s)
  | none => .next s

/-- SCRUB_READ (R468): the patrol scrub asks for its next word, in class MAINT; the read's ECC is judged as it is served (R466). -/
def execScrubRead (ecc : EccFinding) (s : State) : Result :=
  let a := s.hbm.scrub
  if s.get R.HBM_SCRUB_H_HOURS = 0 || !s.hbmServes (s.place a).ctl then .next s
  else
    let s := s.holdWords ⟨.fixed 7, a, .read 32⟩ false ecc
    .next { s with hbm := { s.hbm with scrub := (a + 32) % hbmBytes } }

/-! ### Parity, training and the layout (R459, R469 to R471) -/

/-- The memory is lost (R471): HBM_READY, H_READY and FCT_READY are 0. -/
def State.loseMemory (s : State) : State :=
  ((s.putBit R.HBM_MAP_STATUS_HBM_READY false).putBit R.BPM_STATUS_H_READY false).putBit R.RLY_STATUS_FCT_READY false

/-- A controller is fenced for a cause (R469, R471): the memory is lost, and so are the requests it holds. -/
def State.loseController (s : State) (c cause : Nat) : State := ((s.fenceOpen Unit.hbm c cause).loseMemory).loseHeld c

/-- HBM_PARITY_ERROR (R469): the command is repeated once; `again` says that the repeat failed. -/
def execHbmParityError (ctl : Fin 4) (again : Bool) (s : State) : Result :=
  if again then .next (s.loseController ctl 2)
  else .next ((s.count (R.C_HBM_PARITY_RETRIES ctl)).retriedOpen Unit.hbm ctl 2)

/-- HBM_TRAIN_STEP (R470, R471): five steps; a failure repeats training from the first, a second one fences the controller. The last
step's end shows READY. -/
def execHbmTrainStep (ctl : Fin 4) (outcome : TrainOutcome) (s : State) : Result :=
  let k := s.hbmCtl ctl
  let forward := fun (s : State) =>
    if k.step < 4 then s.setHbmCtl ctl { k with step := k.step + 1 }
    else
      let s := (s.setHbmCtl ctl { k with step := 5, windowAt := s.cycle }).putBit (R.HBM_STATUS_READY ctl) true
      if k.repeated then s.retriedOpen Unit.hbm ctl 3 else s
  if s.isFenced Unit.hbm ctl || 5 ≤ k.step then .next s
  else
    match outcome with
    | .done => .next (forward s)
    | .repaired lane =>
      .next (forward ((s.bump (R.HBM_LANES_REPAIRED_COUNT ctl)).log Unit.hbm ctl Sev.note Ev.laneRepaired lane 0))
    | .failed =>
      if k.repeated then .next (s.loseController ctl 3)
      else .next (s.setHbmCtl ctl { k with step := 0, repeated := true })

/-- MAP_ENABLE (R459): the layout is fixed until the next reset. -/
def execMapEnable (who : Sender) (s : State) : Result :=
  s.access who R.HBM_MAP_CTRL_ENABLE.addr fun s =>
  .next (s.putBit R.HBM_MAP_CTRL_ENABLE true)

/-! ### BAR2 (R472, R473) -/

/-- The device address of a BAR2 offset (R472). -/
def State.bar2Addr (s : State) (o : Nat) : Nat := (s.pair R.HBM_BAR2_WIN_LO_ADDR R.HBM_BAR2_WIN_HI_ADDR + o) % hbmBytes

/-- BAR2_READ (R467, R473): a BULK request of F0; a poisoned one completes with EP = 1. -/
def execBar2Read (offset n : Nat) (ecc : EccFinding) (s : State) : Result :=
  if 2 ^ s.hbm.bar2 < offset + n then .next s else .next (s.ask ⟨.host 0, s.bar2Addr offset, .read n⟩ true ecc)

/-- Whether a device address lies in a region with HOST_WP. -/
def State.hostProtected (s : State) (a : Nat) : Bool :=
  match s.regionOf a with | some r => s.isSet (R.HBM_REG_CFG_HOST_WP r) | none => false

/-- BAR2_WRITE (R473): a BULK request of F0, posted; dropped and counted in a region with HOST_WP. -/
def execBar2Write (offset : Nat) (bytes : List Byte) (ecc : EccFinding) (s : State) : Result :=
  let a := s.bar2Addr offset
  if 2 ^ s.hbm.bar2 < offset + bytes.length then .next s
  else if s.cutOff (.host 0) then .next (s.lostWrite (.host 0) a)
  else if (pieces (bytes.length + 1) a bytes.length).any fun e => s.hostProtected e.1 then
    .next ((s.bump R.HBM_WP_DROPS_COUNT).log Unit.hbm 4 Sev.warn Ev.wpDrop a 0)
  else .next (s.ask ⟨.host 0, a, .write bytes⟩ false ecc)

/-- BAR2_SIZE_CHANGE (R472): a size of 256 MiB to 64 GiB clears the window; `decode` is BAR2's memory decode after it. -/
def execBar2SizeChange (log2 : Nat) (decode : Bool) (s : State) : Result :=
  if log2 < 28 || 36 < log2 then .next s
  else
    let s := if log2 = s.hbm.bar2 then s else (s.put R.HBM_BAR2_WIN_LO_ADDR 0).put R.HBM_BAR2_WIN_HI_ADDR 0
    .next { s with hbm := { s.hbm with bar2 := log2, decode := decode } }

/-- A write of the BAR2 window (R472): a multiple of the BAR2 size, and not while BAR2 memory decode is enabled. -/
def State.bar2WindowOk (s : State) (v : Nat) : Bool := !s.hbm.decode && v % 2 ^ s.hbm.bar2 == 0

end Sys2Proof.Machine
end

