-- ==== Sys2Proof/Machine/Boot.lean ====
section
/-! DEFINITION. Resets, start-up, firmware images, once-settings and firmware update (spec/17_startup_trust.md; the supply states of
spec/19_module_electrical.md, R606). -/

namespace Sys2Proof.Machine

open Sys2Proof

/-- The state with start-up replaced. -/
def State.setBoot (s : State) (b : Boot) : State := { s with boot := b }

/-- The state at a stage. -/
def State.setStage (s : State) (v : Nat) : State := s.put R.HIF_BOOT_STAGE_STAGE v

/-- Whether vendor firmware runs (R550): from FW_RUNNING to READY, and in NO_MEMORY. -/
def State.firmwareRuns (s : State) : Bool :=
  let g := s.bootStage
  g == 0x30 || g == 0x40 || g == 0x50 || g == 0x60 || g == 0x70

/-- Vendor firmware clears MGMT_TXDIS once MGMT_ENABLE is set and the SFP module is accepted (R618). -/
def State.settleTxdis (s : State) : State :=
  if s.firmwareRuns then s.putBit R.FUS_PAD_PWR_MGMT_TXDIS !(s.obj 0x200001 0 0 == 1 && s.pads.sfp) else s

/-- Vendor firmware supplies an accepted SFP module, and no other (R616). -/
def State.manageSfp (s : State) : State :=
  if s.firmwareRuns then (s.putBit R.FUS_PAD_PWR_MGMT_EN s.pads.sfp).settleTxdis else s

/-! ### Resets (R546 to R549, R606) -/

/-- The state with fields at the values they have in `old`. -/
def State.keepFields (s old : State) : List Fld → State
  | [] => s
  | f :: fs => (s.put f (old.get f)).keepFields old fs

/-- The registers that show fuses (R574). -/
def fuseFields : List Fld :=
  [R.FUS_STATUS_IDENTITY_SET, R.FUS_STATUS_OWNER_SET, R.FUS_STATUS_TRUNK_LOCK, R.FUS_STATUS_DEBUG_DIS, R.FUS_BOOT_FLOOR,
   ⟨R.FUS_ONCE_LEFT_IDENTITY.addr, 0, 32⟩, R.FUS_CAPACITY_TIER] ++
  (List.range 8).map R.FUS_IDENTITY_DATA ++ (List.range 8).map R.FUS_OWNER_HASH_DATA ++ (List.range 16).map R.UPD_EC_FUSED_PJ

/-- The registers that a warm reset keeps beside the fuses (R549, R594), and the levels of the input balls. -/
def warmFields : List Fld :=
  [R.SQL_SUPPRESSED_COUNT, R.SQL_STATUS_WRAPPED, ⟨R.SQL_ALERT_CAUSE_FENCE.addr, 0, 4⟩, R.TIM_CTRL_TIME_VALID, R.TIM_STATUS_EPOCH,
   R.TIM_SEC_LO_SEC, R.TIM_SEC_HI_SEC, R.TIM_NS_NS, ⟨R.FUS_RESET_CAUSE_POWER_ON.addr, 0, 6⟩, R.FUS_WARM_COUNT_COUNT,
   R.FUS_STATUS_BANK_A_BAD, R.FUS_STATUS_BANK_B_BAD, ⟨R.FUS_PAD_IN_MODPRS_N.addr, 0, 21⟩] ++
  (List.range 23).map (fun u => R.SQL_TRANS_COUNT (u + 1)) ++ (List.range 16).map R.UPD_EC_COST_PJ

/-- The fuse record being burnt when its burn is cut off counts as a spent write (R562). -/
def State.spendOnce (s : State) (what : Nat) : State :=
  if what = 1 then s.drop R.FUS_ONCE_LEFT_IDENTITY
  else if what = 3 then s.drop R.FUS_ONCE_LEFT_OWNER
  else if what = 5 then s.drop R.FUS_ONCE_LEFT_FLOOR
  else if what = 6 then s.drop R.FUS_ONCE_LEFT_TRUNK_LOCK
  else s.drop R.FUS_ONCE_LEFT_DEBUG_DIS

/-- A burn in progress is cut off. -/
def State.cutBurn (s : State) : State := match s.boot.burns with | [] => s | b :: _ => s.spendOnce b.what

/-- The reset state with what no reset changes: the fuses, the flash, and the model's own fields (R546). -/
def State.coldReset (s : State) (supply : Supply) : State :=
  let s := s.cutBurn
  let b := { Boot.init with supply := supply, endorse := s.boot.endorse, flash := s.boot.flash, erased := s.boot.erased }
  ({ State.reset with pending := s.pending, early := s.early, freeCtr := s.freeCtr, out := s.out, boot := b }).keepFields s fuseFields

/-- A warm reset with its cause (R546, R548, R549): `held` while PERST_N or the temperature holds the device in it. -/
def State.warmReset (s : State) (cause : Fld) (held : Bool) : State :=
  let t := (s.coldReset .run).keepFields s warmFields
  let t := { t with cycle := s.cycle, ageZero := s.cycle, time := s.time
                    sql := { t.sql with entries := s.sql.entries }
                    pads := { t.pads with fell := s.pads.fell, sfp := s.pads.sfp, jtag := s.pads.jtag }
                    boot := { t.boot with held := held, perst := !held && s.isSet R.FUS_PAD_IN_PERST_N } }
  let t := (t.setCounter 0x00F00010 (s.counter 0x00F00010)).putBit cause true
  (t.bump R.FUS_WARM_COUNT_COUNT).setStage (if held then 0 else 0x10)

/-- Whether Tj < T_WARN (R548). -/
def State.coolEnough (s : State) : Bool := signed 8 (s.get R.UPD_TJ_CELSIUS) < signed 8 (s.get R.UPD_T_WARN_CELSIUS)

/-- A request for a warm reset: taken, or ignored with an entry while it is too hot (R548). -/
def State.requestReset (s : State) (cause : Fld) : State :=
  if s.coolEnough then s.warmReset cause false
  else (s.putBit R.FUS_STATUS_CFG_IGNORED true).log Unit.fus 0 Sev.warn Ev.resetRefused cause.lsb (s.get R.UPD_TJ_CELSIUS)

/-- POWER_ON (R606): VIN rises through 10.0 V; the rails start, and every state but the fuses is as after a cold reset. -/
def execPowerOn (s : State) : Result := if s.boot.supply = .off then .next (s.coldReset .ramp) else .next s

/-- RAILS_IN_REGULATION (R606): internal reset is released and the boot ROM runs. PERST_N, which was not sampled before (R609), is seen at
its level. -/
def execRailsInRegulation (s : State) : Result :=
  if s.boot.supply = .ramp then
    .next ((s.setBoot { s.boot with supply := .run, perst := s.isSet R.FUS_PAD_IN_PERST_N }).setStage 0x10)
  else .next s

/-- RAMP_TIMEOUT (R606): a rail is not in regulation 10 ms after the start. -/
def execRampTimeout (s : State) : Result :=
  if s.boot.supply = .ramp && s.passed 0 (10 * msCycles) then .next (s.coldReset .fault) else .next s

/-- VIN_LOW (R606). -/
def execVinLow (s : State) : Result :=
  if s.boot.supply = .run then .next (s.putBit R.UPD_VIN_VIN_LOW true) else .next s

/-- POWER_OFF (R606): VIN falls below 10.0 V, and every state but the fuses is lost. -/
def execPowerOff (s : State) : Result := .next (s.coldReset .off)

/-- RAIL_FAULT (R606): every rail is switched off, and stays off until VIN is removed. -/
def execRailFault (s : State) : Result := if s.boot.supply = .run then .next (s.coldReset .fault) else .next s

/-- PERST_N_FALL (R547): a falling edge that follows a high level seen since the last reset starts a warm reset, held until PERST_N rises. -/
def execPerstNFall (s : State) : Result :=
  if s.boot.supply = .ramp then .next (s.putBit R.FUS_PAD_IN_PERST_N false)
  else if s.boot.supply != .run then .next s
  else
    let seen := s.boot.perst
    let s := s.putBit R.FUS_PAD_IN_PERST_N false
    if seen then .next (s.warmReset R.FUS_RESET_CAUSE_PERST true) else .next s

/-- A held warm reset ends once PERST_N is high and it is cool enough (R547, R548). -/
def State.releaseReset (s : State) : State :=
  if s.boot.held && s.isSet R.FUS_PAD_IN_PERST_N && s.coolEnough then (s.setBoot { s.boot with held := false }).setStage 0x10 else s

/-- PERST_N_RISE (R547). -/
def execPerstNRise (s : State) : Result :=
  if s.boot.supply = .ramp then .next (s.putBit R.FUS_PAD_IN_PERST_N true)
  else if s.boot.supply != .run then .next s
  else .next ((s.putBit R.FUS_PAD_IN_PERST_N true).setBoot { s.boot with perst := true }).releaseReset

/-- A write of FUS_CTRL RESET (R546, R548). -/
def State.writeFusCtrl (s : State) (who : Sender) (v : Nat) : State :=
  if who = .host 0 && v = 0x7B07 && s.boot.supply = .run && s.bootStage != 0xFF && s.bootStage != 0 then
    s.requestReset R.FUS_RESET_CAUSE_HOST_REQ
  else s

/-- RESET (R548). -/
def execReset (who : Sender) (value : BitVec 16) (s : State) : Result :=
  s.access who R.FUS_CTRL_RESET.addr fun s =>
  .next (s.writeFusCtrl who value.toNat)

/-- FW_WATCHDOG (R546): vendor firmware has not written FUS_FW_WD for 1 s. -/
def execFwWatchdog (s : State) : Result :=
  match s.boot.wd with
  | some t => if s.passed t secCycles then .next (s.requestReset R.FUS_RESET_CAUSE_FW_WATCHDOG) else .next s
  | none => .next s

/-- Whether vendor firmware has given up its start: 10 s after it, it has reached neither READY nor NO_MEMORY (R572). -/
def State.startLost (s : State) : Bool :=
  let g := s.bootStage
  (g == 0x20 || g == 0x30 || g == 0x40 || g == 0x50) && s.passed s.boot.started (10 * secCycles)

/-- A write of FUS_FW_WD KICK: vendor firmware's only, which makes none once its start is lost (R572, R574). -/
def State.kick (s : State) (who : Sender) : State :=
  match who, s.boot.wd with
  | .control _, some _ => if s.startLost then s else s.setBoot { s.boot with wd := some s.cycle }
  | _, _ => s

/-- KICK (R574). -/
def execKick (who : Sender) (s : State) : Result :=
  s.access who R.FUS_FW_WD_KICK.addr fun s =>
  .next (s.kick who)

/-! ### Flash and images (R553 to R557) -/

/-- Octets of a flash bank. -/
def bankSize : Nat := 0x10000000

/-- The octets an image may have (R553). -/
def imageMax : Nat := 268369920

/-- An octet of the flash. -/
def State.flashByte (s : State) (a : Nat) : Byte :=
  match SMap.get none s.boot.flash a with
  | some b => b
  | none => if a % bankSize < imageMax && SMap.get false s.boot.erased (a / bankSize) then Config.erasedFlash a
            else Config.factoryFlash (a % bankSize)

/-- The state with an octet of the flash written. -/
def State.setFlash (s : State) (a : Nat) : List Byte → State
  | [] => s
  | b :: bs => (s.setBoot { s.boot with flash := SMap.set none s.boot.flash a (some b) }).setFlash (a + 1) bs

/-- Octets of an image or a record, which `rd` reads. -/
def octetsOf (rd : Nat → Byte) (a n : Nat) : List Byte := (List.range n).map fun i => rd (a + i)

/-- Whether octets are all zero. -/
def zeros (rd : Nat → Byte) (a n : Nat) : Bool := (octetsOf rd a n).all fun b => b == 0

/-- An ECDSA signature over octets verifies under a 65-octet public key (R382, R554). -/
def sigOk (pub sig digest : List Byte) : Bool :=
  pub.length == 65 && sig.length == 64 && (pub.headD 0) == 4 &&
    P256.verify (osToNat digest) (osToNat ((pub.drop 1).take 32)) (osToNat (pub.drop 33)) (osToNat (sig.take 32)) (osToNat (sig.drop 32))

/-- A little-endian header field. -/
def hdrField (rd : Nat → Byte) (a n : Nat) : Nat := leVal (octetsOf rd a n)

/-- Check 1 of R557: MAGIC, FORMAT, reserved fields and sizes (R554). -/
def imageFormOk (rd : Nat → Byte) : Bool :=
  octetsOf rd 0 4 == [0x4B, 0x42, 0x37, 0x46] && hdrField rd 4 2 == 1 && zeros rd 6 2 && hdrField rd 0xC 1 ≤ 64 && hdrField rd 0xD 1 < 2 &&
    zeros rd 0xE 2 && zeros rd 0x18 8 && zeros rd 0x60 32 && zeros rd 0xC1 3 && zeros rd 0x145 3 && zeros rd 0x188 120 &&
    65536 ≤ hdrField rd 0x10 4 && hdrField rd 0x10 4 ≤ 8388608 && hdrField rd 0x10 4 % 4096 == 0 &&
    hdrField rd 0x10 4 ≤ hdrField rd 0x14 4 && hdrField rd 0x14 4 ≤ 268369408

/-- Check 2 of R557: the vendor's key and signature. -/
def vendorOk (rd : Nat → Byte) : Bool :=
  sha256 (octetsOf rd 0x80 65) == Config.vendorRoot && sigOk (octetsOf rd 0x80 65) (octetsOf rd 0xC4 64) (sha256 (octetsOf rd 0 0x80))

/-- Check 3 of R557 against an owner's hash, empty for none. -/
def ownerOk (rd : Nat → Byte) (owner : List Byte) : Bool :=
  owner.isEmpty ||
    ((hdrField rd 0xD 1).testBit 0 && sha256 (octetsOf rd 0x104 65) == owner &&
      sigOk (octetsOf rd 0x104 65) (octetsOf rd 0x148 64) (sha256 (octetsOf rd 0 0x104)))

/-- The first check of R557 that fails; 0 when all pass. -/
def imageCheck (rd : Nat → Byte) (owner : List Byte) (floor : Nat) : Nat :=
  if !imageFormOk rd then 1
  else if !vendorOk rd then 2
  else if !ownerOk rd owner then 3
  else if hdrField rd 0xC 1 < floor then 4
  else if sha256 (octetsOf rd 0x200 (hdrField rd 0x10 4)) == octetsOf rd 0x20 32 then 0 else 5

/-- Whether the whole body has its digest (R558). -/
def bodyOk (rd : Nat → Byte) : Bool := sha256 (octetsOf rd 0x200 (hdrField rd 0x14 4)) == octetsOf rd 0x40 32

/-- How a bank is read. -/
def State.bankByte (s : State) (bank : Nat) (i : Nat) : Byte := s.flashByte (bank * bankSize + i)

/-- The current owner's hash, empty for none. -/
def State.ownerHash (s : State) : List Byte :=
  if s.isSet R.FUS_STATUS_OWNER_SET then (List.range 8).flatMap fun i => leBytes 4 (s.get (R.FUS_OWNER_HASH_DATA i)) else []

/-- The checks of R557 on a bank against an owner. -/
def State.bankCheck (s : State) (bank : Nat) (owner : List Byte) : Nat := imageCheck (s.bankByte bank) owner (s.get R.FUS_BOOT_FLOOR)

/-! ### The boot record (R555, R556) -/

/-- A boot record. -/
structure BootRecord where
  seq      : Nat
  pref     : Nat
  trial    : Nat
  tries    : Nat
  fallback : Nat
  deriving DecidableEq, Repr

/-- Where a copy of the boot record lies. -/
def recordAt (copy : Nat) : Nat := copy * bankSize + imageMax

/-- The octets of a record. -/
def BootRecord.octets (r : BootRecord) : List Byte :=
  let b := [0x4B, 0x42, 0x37, 0x42] ++ leBytes 4 r.seq ++ leBytes 1 r.pref ++ leBytes 1 r.trial ++ leBytes 1 r.tries ++
    leBytes 1 r.fallback ++ List.replicate 48 0
  b ++ leBytes 4 (crc32cFull b)

/-- A copy of the record, if its MAGIC and CRC are valid. -/
def State.recordCopy (s : State) (copy : Nat) : Option BootRecord :=
  let o := octetsOf s.flashByte (recordAt copy) 64
  let f := fun a => (o.getD a 0).toNat
  if o.take 4 == [0x4B, 0x42, 0x37, 0x42] && leVal (o.drop 60) == crc32cFull (o.take 60) then
    some ⟨leVal ((o.drop 4).take 4), f 8, f 9, f 10, f 11⟩
  else none

/-- Whether `a` is later than `b` in serial order modulo 2^32 (R555). -/
def later (a b : Nat) : Bool := a != b && (a + 2 ^ 32 - b) % 2 ^ 32 < 2 ^ 31

/-- The current record and the copy that a new one replaces (R555). -/
def State.bootRecord (s : State) : BootRecord × Nat :=
  match s.recordCopy 0, s.recordCopy 1 with
  | none, none => (⟨0, 0, 0, 0, 0⟩, 0)
  | some r, none => (r, 1)
  | none, some r => (r, 0)
  | some a, some b => if later b.seq a.seq then (b, 0) else (a, 1)

/-- Show the record in FUS_BOOT (R574). -/
def State.showRecord (s : State) : State :=
  let r := s.bootRecord.1
  ((s.put R.FUS_BOOT_TRIAL r.trial).put R.FUS_BOOT_FALLBACK r.fallback).put R.FUS_BOOT_TRIES_LEFT r.tries

/-- Write a record in place of the other copy, with the next SEQ (R555). -/
def State.writeBootRecord (s : State) (r : BootRecord) : State :=
  let cur := s.bootRecord
  (s.setFlash (recordAt cur.2) { r with seq := (cur.1.seq + 1) % 2 ^ 32 }.octets).showRecord

/-- The bank marked bad by R558. -/
def bankBad (bank : Nat) : Fld := if bank = 0 then R.FUS_STATUS_BANK_A_BAD else R.FUS_STATUS_BANK_B_BAD

/-- The order in which the banks are tried, after its effect on the record (R556). -/
def State.bankOrder (s : State) : State × List Nat :=
  let r := s.bootRecord.1
  let first := r.pref % 2
  let good := fun (s : State) (l : List Nat) => l.filter fun b => !s.isSet (bankBad b)
  if r.trial = 1 then
    if r.tries = 0 then
      let t := s.writeBootRecord { r with pref := 1 - first, trial := 0, fallback := 1 }
      (t, good t [1 - first, first])
    else
      let t := s.writeBootRecord { r with tries := r.tries - 1 }
      (t, good t [first, 1 - first])
  else (s.showRecord, good s [first, 1 - first])

/-! ### Stages (R550) -/

/-- Enter RECOVERY. -/
def State.enterRecovery (s : State) : State := (s.setBoot { s.boot with order := [] }).setStage 0xE0

/-- FUSE_SENSE (R550): the fuses are read and the bank order selected, or the device halts. -/
def execFuseSense (unreadable : Option Nat) (s : State) : Result :=
  let s := s.releaseReset
  if s.bootStage != 0x10 || s.boot.supply != .run then .next s
  else
    match unreadable with
    | some r => .next ((s.log Unit.fus 0 Sev.fatal Ev.fuseUnreadable r 0).setStage 0xFF)
    | none =>
      let r := s.bankOrder
      if r.2.isEmpty then .next r.1.enterRecovery
      else .next ((r.1.setBoot { r.1.boot with order := r.2 }).setStage 0x11)

/-- Start stage one of an image that has passed (R550): the watchdog is armed. -/
def State.startImage (s : State) (rd : Nat → Byte) (window : Bool) : State :=
  let s := s.setBoot { s.boot with header := octetsOf rd 0 512, window := window, wd := some s.cycle, started := s.cycle, order := [] }
  ((s.put R.FUS_BOOT_SVN (hdrField rd 0xC 1)).put R.FUS_FW_VERSION_VERSION (hdrField rd 8 4)).setStage 0x20

/-- The transfer over the boot flash link: repeated once, and the link fenced when the repeat fails (R576, R579). -/
def State.flashTransfer (s : State) (link : CheckResult) : State :=
  match link with
  | .pass => s
  | .retried => if s.isFenced Unit.link 0 then s else s.retriedOpen Unit.link 0 4
  | .failed => s.fenceOpen Unit.link 0 4

/-- The step of R557 that a bank fails, 0 where it passes. Over a fenced link every bank is refused (R579), with a step that is a free
value. -/
def State.verifyBank (s : State) (b : Nat) : State × Nat :=
  if s.isFenced Unit.link 0 then (s.spent, 1 + s.free 5) else (s, s.bankCheck b s.ownerHash)

/-- BANK_VERIFY (R550, R556, R557): the next bank of the order is checked; it starts, or the other one is next, or RECOVERY. -/
def execBankVerify (link : CheckResult) (s : State) : Result :=
  if s.bootStage != 0x11 then .next s
  else
    match s.boot.order with
    | [] => .next s.enterRecovery
    | b :: rest =>
      let (s, step) := (s.flashTransfer link).verifyBank b
      if step = 0 then .next ((s.put R.FUS_BOOT_BANK b).startImage (s.bankByte b) false)
      else
        let s := (s.setBoot { s.boot with order := rest }).log Unit.fus b Sev.warn Ev.bankRefused b step
        .next (if rest.isEmpty then s.enterRecovery else s)

/-- A stage's entry of severity NOTE, with the firmware's version; its instance is the bank (R550, R591). -/
def State.logStage (s : State) (sev : Nat) : State :=
  s.log Unit.fus (s.get R.FUS_BOOT_BANK) sev Ev.bootStage s.bootStage (s.get R.FUS_FW_VERSION_VERSION)

/-- STAGE1_CHECK (R550, R558): the body's digest matches and every control core starts, and training is awaited; or the bank is marked bad
and a warm reset follows. An image of the recovery window has no whole body to check (R559). -/
def execStage1Check (s : State) : Result :=
  if s.bootStage != 0x20 then .next s
  else
    let b := s.get R.FUS_BOOT_BANK
    if s.boot.window || bodyOk (s.bankByte b) then .next (((s.setStage 0x30).manageSfp.logStage Sev.note).setStage 0x40)
    else .next ((s.putBit (bankBad b) true).requestReset R.FUS_RESET_CAUSE_STAGE1_FAIL)

/-- HBM_READY (R459, R470, R550): every controller is trained, memory serves, and the blocks are brought up; a fenced controller leaves the
device without memory (R471, R573). -/
def execHbmReady (s : State) : Result :=
  if s.bootStage != 0x40 then .next s
  else if (List.range 4).any fun c => s.isFenced Unit.hbm c then .next ((s.setStage 0x70).logStage Sev.fault)
  else if (List.range 4).all fun c => s.isSet (R.HBM_STATUS_READY c) then
    let s := ((s.putBit R.HBM_MAP_STATUS_HBM_READY true).putBit R.BPM_STATUS_H_READY true).putBit R.RLY_STATUS_FCT_READY true
    .next (s.setStage 0x50)
  else .next s

/-- A unit kind and its code (R584). -/
def selftestUnit (k : Nat) : Nat := [Unit.vde, Unit.vee, Unit.cmp, Unit.tsp, Unit.dsc, Unit.cpx].getD k 0

/-- How many units of a kind there are. -/
def selftestCount (k : Nat) : Nat := [16, 16, 4, 1, 128, 24].getD k 0

/-- The units that failed their self-test, in the order of unit code and instance (R585). -/
def selftestFailed (failed : List (Fin 6 × Nat)) : List (Nat × Nat) :=
  ([5, 0, 1, 2, 3, 4] : List (Fin 6)).flatMap fun (k : Fin 6) =>
    (List.range (selftestCount k)).filterMap fun i => if failed.any (fun e => e.1 == k && e.2 == i) then some (selftestUnit k, i) else none

/-- BRINGUP_COMPLETE (R550, R584): units that fail their self-test start fenced; with the random source
ready, full service begins. Vendor firmware loads the background cards (R253). -/
def execBringupComplete (failed : List (Fin 6 × Nat)) (s : State) : Result :=
  if s.bootStage != 0x50 || !s.isSet R.CPX_STATUS_RNG_READY then .next s
  else
    let s := (selftestFailed failed).foldl (fun (s : State) e => s.spent.fenceWith e.1 e.2 Ev.selftestFail (s.free (2 ^ 64)) 0) s
    .next ((s.loadCards.setStage 0x60).logStage Sev.note)

/-! ### The recovery window (R559) -/

/-- An octet of the recovery window's image. -/
def State.rcvByte (s : State) (a : Nat) : Byte := SMap.get 0 s.boot.rcv a

/-- A write of FUS_RCV_CMD (R559, R574): 1 LOAD checks and starts the image, 2 CLEAR empties the window. -/
def State.rcvCommand (s : State) (op : Nat) : State :=
  if s.bootStage != 0xE0 then s
  else if op = 1 then
    let step := imageCheck s.rcvByte s.ownerHash (s.get R.FUS_BOOT_FLOOR)
    if step = 0 then ((s.put R.FUS_RCV_STAT_STATE 3).put R.FUS_RCV_STAT_STEP 0).startImage s.rcvByte true
    else ((s.put R.FUS_RCV_STAT_STATE 2).put R.FUS_RCV_STAT_STEP step).spent.log Unit.fus 0 Sev.warn Ev.bankRefused (s.free (2 ^ 64)) step
  else if op = 2 then ((s.setBoot { s.boot with rcv := [] }).put R.FUS_RCV_STAT_STATE 0).put R.FUS_RCV_STAT_STEP 0
  else s

/-- RCV_LOAD (R559). -/
def execRcvLoad (who : Sender) (s : State) : Result :=
  s.access who R.FUS_RCV_CMD_OP.addr fun s =>
  .next (s.rcvCommand 1)

/-- RCV_CLEAR (R574). -/
def execRcvClear (who : Sender) (s : State) : Result :=
  s.access who R.FUS_RCV_CMD_OP.addr fun s =>
  .next (s.rcvCommand 2)

/-- A word written to the recovery window (R559). -/
def State.rcvWrite (s : State) (offset v : Nat) : State :=
  if s.bootStage != 0xE0 then s
  else
    let a := s.get R.FUS_RCV_PAGE_PAGE * 65536 + offset
    s.setBoot { s.boot with rcv := (leBytes 4 v).zipIdx.foldl (fun m (e : Byte × Nat) => SMap.set 0 m (a + e.2) e.1) s.boot.rcv }

/-! ### Once-settings (R560 to R566) -/

/-- Writes left of a once-setting, by the subindex of its object. -/
def onceLeft (what : Nat) : Fld :=
  if what = 1 then R.FUS_ONCE_LEFT_IDENTITY else if what = 3 then R.FUS_ONCE_LEFT_OWNER else if what = 5 then R.FUS_ONCE_LEFT_FLOOR
  else if what = 6 then R.FUS_ONCE_LEFT_TRUNK_LOCK else R.FUS_ONCE_LEFT_DEBUG_DIS

/-- The bank that is not running. -/
def State.otherBank (s : State) : Nat := 1 - s.get R.FUS_BOOT_BANK

/-- Whether an owner write is accepted (R565, R566). -/
def State.ownerWriteOk (s : State) (v : List Byte) : Bool :=
  if !s.isSet R.FUS_STATUS_OWNER_SET then s.bankCheck 0 v == 0 || s.bankCheck 1 v == 0
  else s.boot.pending == some v && s.boot.stage == 2 && s.bankCheck s.otherBank v == 0

/-- The status of a once-setting write's own conditions (R518 step 6, R560 to R562, R565, R566). -/
def State.onceCheck (s : State) (b : OnceBurn) : Nat :=
  let v := osToNat b.value
  if s.get (onceLeft b.what) = 0 then St.objOnceSpent
  else if s.get R.UPD_VIN_MILLIVOLTS < 11400 || !s.coolEnough then St.objRange
  else if b.what = 3 && !s.ownerWriteOk b.value then St.objRange
  else if b.what = 5 && (v ≤ s.get R.FUS_BOOT_FLOOR || s.get R.FUS_BOOT_SVN < v) then St.objRange
  else if (b.what = 6 || b.what = 7) && v != 1 then St.objRange
  else St.ok

/-- Begin the first burn that its conditions let begin; the others end with their status. -/
def State.beginBurns (s : State) : List OnceBurn → State
  | [] => s.setBoot { s.boot with burns := [] }
  | b :: bs =>
    let code := s.onceCheck b
    if code = St.ok then s.setBoot { s.boot with burns := b :: bs } else (s.answer b.asker code []).beginBurns bs

/-- A once-setting write: burns follow one another (R520, R562). -/
def State.onceWrite (s : State) (b : OnceBurn) : State :=
  if s.boot.burns.isEmpty then s.beginBurns [b] else s.setBoot { s.boot with burns := s.boot.burns ++ [b] }

/-- Store octets in a run of registers, least significant octet first. -/
def State.putOctets (s : State) (f : Nat → Fld) (bs : List Byte) : State :=
  (List.range 8).foldl (fun (s : State) i => s.put (f i) (leVal ((bs.drop (4 * i)).take 4))) s

/-- A public key's 65 octets. -/
def pubOctets (d : Nat) : List Byte :=
  match P256.mul d P256.g 256 with
  | some (x, y) => [4] ++ natToOs 32 x ++ natToOs 32 y
  | none => []

/-- The device identity public key (R563); empty until the identity is written. -/
def State.identityPub (s : State) : List Byte := if s.isSet R.FUS_STATUS_IDENTITY_SET then pubOctets (s.privateKey none) else []

/-- A signature of octets with a key: r then s; its nonce is a free value. -/
def State.signOctets (s : State) (d : Nat) (bs : List Byte) : List Byte :=
  let rs := P256.sign (osToNat (sha256 bs)) d (s.free (P256.n - 1) + 1)
  natToOs 32 rs.1 ++ natToOs 32 rs.2

/-- What a record that reads back as burnt gives (R560, R561, R563, R566). -/
def State.burnt (s : State) (b : OnceBurn) : State :=
  if b.what = 1 then
    let s := (s.putOctets R.FUS_IDENTITY_DATA b.value).putBit R.FUS_STATUS_IDENTITY_SET true
    (s.setBoot { s.boot with endorse := s.signOctets Config.dieKey (s.identityPub ++ b.value) }).spent
  else if b.what = 3 then
    let transfer := s.isSet R.FUS_STATUS_OWNER_SET
    let s := (s.putOctets R.FUS_OWNER_HASH_DATA b.value).putBit R.FUS_STATUS_OWNER_SET true
    if transfer then s.writeBootRecord { s.bootRecord.1 with pref := s.otherBank, trial := 0 } else s
  else if b.what = 5 then (s.put R.FUS_BOOT_FLOOR (osToNat b.value)).put R.FUS_ONCE_LEFT_FLOOR (64 - osToNat b.value)
  else if b.what = 6 then s.putBit R.FUS_STATUS_TRUNK_LOCK true
  else s.putBit R.FUS_STATUS_DEBUG_DIS true

/-- FUSE_BURN_DONE (R562): the write completes with OK once the record reads back, else it is spent and completes with OBJ_RANGE. -/
def execFuseBurnDone (matches_ : Bool) (s : State) : Result :=
  match s.boot.burns with
  | [] => .next s
  | b :: bs =>
    let s := s.spendOnce b.what
    let s := if matches_ then (s.burnt b).answer b.asker St.ok [] else s.answer b.asker St.objRange []
    .next (s.beginBurns bs)

/-- OWNER_TRANSFER_AUTH's action (R566): the current owner's signature over the new hash makes it the pending owner. -/
def State.ownerAuth (s : State) (v : List Byte) : State × Nat :=
  let new := v.take 32
  let pub := (v.drop 32).take 65
  let msg := [0x4F, 0x57, 0x4E] ++ s.identity ++ new
  if !s.ownerHash.isEmpty && sha256 pub == s.ownerHash && sigOk pub (v.drop 97) (sha256 msg) then
    (s.setBoot { s.boot with pending := some new }, St.ok)
  else (s, St.objRange)

/-! ### Firmware update (R571 to R573) -/

/-- Whether staging is refused as a whole: without memory, or with the boot flash link fenced (R573, R579). -/
def State.noStaging (s : State) : Bool := s.bootStage == 0x70 || s.isFenced Unit.link 0

/-- Whether a session may write the staging objects (R571). -/
def State.stager (s : State) (n : Nat) : Bool := s.boot.stage == 0 || s.boot.stageBy == n

/-- FW_STAGE_BEGIN's action: record the session and erase the other bank (R571). -/
def State.stageBegin (s : State) (n : Nat) : State × Nat :=
  if s.noStaging || !s.stager n then (s, St.objRange)
  else
    let b := s.otherBank
    let inBank := fun (a : Nat) => a / bankSize == b && a % bankSize < imageMax
    (s.setBoot { s.boot with stage := 1, stageBy := n, stageOff := 0, erased := SMap.set false s.boot.erased b true
                             flash := s.boot.flash.filter fun e => !inBank e.1 }, St.ok)

/-- Write image octets at FW_STAGE_OFFSET and advance it (R571); a bank that is written is no longer marked bad (R550). -/
def State.stageWrite (s : State) (n : Nat) (bs : List Byte) : State × Nat :=
  if s.noStaging || s.boot.stage != 1 || s.boot.stageBy != n || imageMax < s.boot.stageOff + bs.length then (s, St.objRange)
  else
    let s := (s.setFlash (s.otherBank * bankSize + s.boot.stageOff) bs).putBit (bankBad s.otherBank) false
    (s.setBoot { s.boot with stageOff := s.boot.stageOff + bs.length }, St.ok)

/-- FW_STAGE_HBM's action (R571): an area of BAR2 region 6 holds the image; F0's session alone. -/
def State.stageHbm (s : State) (n : Nat) (fromF0 : Bool) (v : List Byte) : State × Nat :=
  let a := osToNat (v.take 8)
  let len := osToNat (v.drop 8)
  let inside := (a + len ≤ hbmBytes) && s.regionOf a == some 6 && s.regionOf (a + len - 1) == some 6
  if !fromF0 || len = 0 || !inside then (s, St.objRange) else s.stageWrite n (s.bytes a len)

/-- FW_STAGE_END's action (R571): the checks of R557 against the current or the pending owner, and the body's digest. -/
def State.stageEnd (s : State) (n : Nat) : State × Nat :=
  if s.noStaging || s.boot.stage != 1 || s.boot.stageBy != n then (s, St.objRange)
  else
    let b := s.otherBank
    let okFor := fun (o : List Byte) => s.bankCheck b o == 0
    let pend := match s.boot.pending with | some p => okFor p | none => false
    let ok := (okFor s.ownerHash || pend) && bodyOk (s.bankByte b)
    (s.setBoot { s.boot with stage := if ok then 2 else 3, stageFor := s.ownerHash }, St.ok)

/-- FW_ACTIVATE's action (R571): the staged bank is preferred, on trial. -/
def State.fwActivate (s : State) (n : Nat) : State × Nat :=
  if s.noStaging || s.boot.stage != 2 || s.boot.stageBy != n then (s, St.objRange)
  else if hdrField (s.bankByte s.otherBank) 0xC 1 < s.get R.FUS_BOOT_FLOOR || s.ownerHash != s.boot.stageFor then
    (s.setBoot { s.boot with stage := 3 }, St.objRange)
  else
    let s := s.writeBootRecord { s.bootRecord.1 with pref := s.otherBank, trial := 1, tries := 3, fallback := 0 }
    (s.setBoot { s.boot with stage := 4 }, St.ok)

/-- FW_COMMIT's action (R572): at READY, the trial ends. -/
def State.fwCommit (s : State) : State × Nat :=
  if s.bootStage = 0x60 && s.isSet R.FUS_BOOT_TRIAL then (s.writeBootRecord { s.bootRecord.1 with trial := 0 }, St.ok) else (s, St.objRange)

/-- The staging of a session that closes before ACTIVATED ends (R571). -/
def State.endStaging (s : State) (n : Nat) : State :=
  if s.boot.stage != 0 && s.boot.stage != 4 && s.boot.stageBy = n then s.setBoot { s.boot with stage := 0 } else s

/-! ### Attestation (R567) -/

/-- The octets of a text. -/
def textOctets (t : String) : List Byte := t.toList.map fun c => BitVec.ofNat 8 c.toNat

/-- The ordering code by the capacity tier and the part (R2, R3). -/
def State.orderingCode (s : State) : List Byte :=
  textOctets (if s.isSet R.FUS_CAPACITY_TIER then "KB7-8K-C" else if Config.extendedPart then "KB7-16K-E" else "KB7-16K-C")

/-- The octets 0x00 to 0xDF of an attestation report (R567). `kernels` are the digests of the installed kernel images, in kernel ID
order. -/
def State.reportBody (s : State) (nonce : List Byte) (kernels : List (List Byte)) : List Byte :=
  let flags := bnat (s.isSet R.FUS_STATUS_TRUNK_LOCK) + 2 * bnat (s.isSet R.FUS_STATUS_DEBUG_DIS) +
    4 * bnat (s.isSet R.TIM_CTRL_TIME_VALID) + 8 * bnat (s.isSet R.FUS_STATUS_OWNER_SET)
  let owner := if s.ownerHash.isEmpty then List.replicate 32 0 else s.ownerHash
  [0x4B, 0x42, 0x37, 0x41] ++ natToOs 2 1 ++ natToOs 2 flags ++ nonce ++ s.identity ++
    (s.orderingCode ++ List.replicate 16 0).take 16 ++ [0x42, 0x30] ++ [2] ++
    natToOs 1 (s.get R.FUS_CAPACITY_TIER) ++ natToOs 4 (s.get R.FUS_FW_VERSION_VERSION) ++ natToOs 1 (s.get R.FUS_BOOT_SVN) ++
    natToOs 1 (s.get R.FUS_BOOT_FLOOR) ++ natToOs 1 (s.get R.FUS_BOOT_BANK) ++ natToOs 1 s.bootStage ++
    natToOs 4 (s.reg R.FUS_RESET_CAUSE_POWER_ON.addr).toNat ++ natToOs 8 s.time64 ++ sha256 (s.boot.header.take 128) ++ owner ++
    natToOs 1 (s.get R.FUS_ONCE_LEFT_OWNER) ++ List.replicate 15 0 ++ sha256 kernels.flatten

/-- An attestation report: its octets and its signature by the identity key (R567). -/
def State.report (s : State) (nonce : List Byte) (kernels : List (List Byte)) : List Byte :=
  let body := s.reportBody nonce kernels
  body ++ s.signOctets (s.privateKey none) body

end Sys2Proof.Machine
end

