-- ==== Sys2Proof/Machine/Fabric.lean ====
section
/-! DEFINITION. Device addresses as the DMA channels of DSP cores reach them, and DMA descriptors (spec/09_dsp_cores.md, R316, R317;
the address windows of R101, R273 and R279). -/

namespace Sys2Proof.Machine

open Sys2Proof

/-- Where the source ports begin (R273). -/
def portBase : Nat := 0x10008000000

/-- Where the output areas begin (R279). -/
def areaBase : Nat := 0x1000A000000

/-- Whether `n` octets at an address lie in memory. -/
def inMemory (a n : Nat) : Bool := (a + n ≤ hbmBytes) || (sramBase ≤ a && a + n ≤ sramEnd)

/-- Whether they lie in the source ports (R273). -/
def inPorts (a n : Nat) : Bool := portBase ≤ a && a + n ≤ portBase + 1536 * 0x2000

/-- Whether they lie in the output areas (R279). -/
def inAreas (a n : Nat) : Bool := areaBase ≤ a && a + n ≤ areaBase + 4096 * 0x2000

/-- A DMA descriptor (R316). -/
structure DmaDesc where
  dev   : Nat
  loc   : Nat
  len   : Nat
  flags : Nat
  next  : Nat
  rest  : Nat
  deriving DecidableEq, Repr

/-- The descriptor at a local address of a core. -/
def State.dmaDesc (s : State) (c a : Nat) : DmaDesc :=
  let f := fun (o n : Nat) => leVal (s.localBytes c (a + o) n)
  ⟨f 0 8, f 8 4, f 0xC 4, f 0x10 4, f 0x14 4, f 0x18 8⟩

/-- Whether a device range lies inside one of a core's DMA windows (R317). -/
def State.inWindow (s : State) (c dev len : Nat) : Bool :=
  (List.range 8).any fun w =>
    let base := s.pair (R.CORE_WIN_BASE_LO_ADDR (c / 16) (c % 16) w) (R.CORE_WIN_BASE_HI_ADDR (c / 16) (c % 16) w) / 4096 * 4096
    let size := s.get (R.CORE_WIN_SIZE_PAGES (c / 16) (c % 16) w) * 4096
    base ≤ dev && dev + len ≤ base + size

/-- Whether a descriptor's fields and local range are in order (R316, R317). -/
def dmaFieldsOk (d : DmaDesc) : Bool :=
  8 ≤ d.len && d.len ≤ 1048576 && d.len % 8 == 0 && d.flags < 8 && d.next % 8 == 0 && d.rest == 0 &&
    ((inData d.loc && inData (d.loc + d.len - 1)) || (inShared d.loc && inShared (d.loc + d.len - 1))) &&
    (!d.flags.testBit 2 || (d.dev % 64 == 0 && d.loc % 64 == 0 && d.len % 64 == 0))

/-- The octets a read of memory gives before its first poisoned word, and whether it is all of them (R317). -/
def State.readUpTo (s : State) (a n : Nat) : List Byte × Bool :=
  if !s.poisoned a n then (s.bytes a n, true)
  else
    let good := (List.range n).find? fun i => s.marked (a + i)
    (s.bytes a (good.getD n), false)

/-- Move device octets into local memory (R316, R317): the error cause, 0 for none. -/
def State.dmaIn (s : State) (c : Nat) (d : DmaDesc) : State × Nat :=
  if inMemory d.dev d.len then
    let r := s.readUpTo d.dev d.len
    (s.setLocalBytes c d.loc r.1, if r.2 then 0 else 3)
  else if inAreas d.dev d.len then
    (s.setLocalBytes c d.loc ((List.range d.len).map fun i => s.areaByte (d.dev - areaBase + i)), 0)
  else if inPorts d.dev d.len then
    (s.setLocalBytes c d.loc ((List.range (d.len / 4)).flatMap fun i => leBytes 4 ((s.source ((d.dev + 4 * i - portBase) / 0x2000)).fifo.length % 4096)), 0)
  else (s, 2)

/-- Write lines to source ports one after the other, until one is refused (R273, R317). -/
def State.dmaLines (s : State) (c : Nat) (d : DmaDesc) : Nat → Nat → State × Nat
  | 0, _ => (s, 0)
  | n + 1, i =>
    let source := (d.dev + 64 * i - portBase) / 0x2000
    let r := s.feedSource source (samplesOf (s.localBytes c (d.loc + 64 * i) 64))
    if r.2 then r.1.dmaLines c d n (i + 1) else (r.1, 2)

/-- Move local octets to the device (R316, R317): the error cause, 0 for none. -/
def State.dmaOut (s : State) (c : Nat) (d : DmaDesc) : State × Nat :=
  if inMemory d.dev d.len then (s.setBytes d.dev (s.localBytes c d.loc d.len), 0)
  else if inPorts d.dev d.len && d.flags.testBit 2 then s.dmaLines c d (d.len / 64) 0
  else if inPorts d.dev d.len then (s.count R.C_MXM_SRC_OVERRUN, 2)
  else (s, 2)

/-- Stop a channel's chain with an error (R317, R318). -/
def State.dmaStop (s : State) (c n cause : Nat) : State :=
  let k := s.core c
  (s.setCore c (k.setChan n { k.chan n with desc := none, err := true, cause := cause })).coreIrq c 2

/-- Run the descriptor a channel is at: its checks, its bytes, DMA_DONE when IRQ is set, and the next one or the chain's end (R316 to
R318). -/
def State.dmaRun (s : State) (c n a : Nat) : State :=
  let d := s.dmaDesc c a
  if !((inData a && inData (a + 31)) || (inShared a && inShared (a + 31))) then s.dmaStop c n 4
  else if !s.inWindow c d.dev d.len then s.dmaStop c n 1
  else if !dmaFieldsOk d then s.dmaStop c n 4
  else
    let r := if d.flags.testBit 0 then s.dmaOut c d else s.dmaIn c d
    if r.2 != 0 then r.1.dmaStop c n r.2
    else
      let k := r.1.core c
      let ch := k.chan n
      let s := r.1.setCore c (k.setChan n (if d.next = 0 then { ch with desc := none, done := true } else { ch with desc := some d.next }))
      if d.flags.testBit 1 then s.coreIrq c 1 else s

/-- DMA_DESC_DONE (R317). -/
def execDmaDescDone (core : Core) (channel : Fin 4) (s : State) : Result :=
  match ((s.core core).chan channel).desc with
  | none => .next s
  | some a => .next (s.dmaRun core channel a)

end Sys2Proof.Machine
end

