-- ==== Sys2Proof/Machine/Hif.lean ====
section
/-! DEFINITION. Host queues and the functions' resets (spec/15_host_interface.md, R478 to R496, R508, R509). -/

namespace Sys2Proof.Machine

open Sys2Proof

/-- A completion queue, by its number 0 to 15. -/
def State.cpl (s : State) (n k : Nat) : CplQueue := SMap.get CplQueue.init s.cpls (hostQueue n (16 + k))

/-- The state with a completion queue replaced, and the length of its receive list shown. -/
def State.setCpl (s : State) (n k : Nat) (q : CplQueue) : State :=
  { s with cpls := SMap.set CplQueue.init s.cpls (hostQueue n (16 + k)) q }.put (R.HIF_Fn_Qj_STAT_RX_BUFS n (16 + k)) q.rx.length

/-! ### Completion entries (R492 to R495) -/

/-- An entry as it waits in a CQ's stream queue: KIND, STATUS, SERVICE, TAG, LEN, CELL, TS and ARG of R492; SQ_HEAD, PHASE and CELL of
FLAGS are filled in when it is written to the ring. -/
def cqEntry (kind status service tag len cell ts arg : Nat) : List Byte :=
  leBytes 1 kind ++ leBytes 1 status ++ leBytes 1 0 ++ leBytes 1 service ++ leBytes 4 0 ++ leBytes 4 tag ++ leBytes 4 len ++
    leBytes 8 cell ++ leBytes 4 ts ++ leBytes 4 arg

/-- The host interface frees a cell of its own. -/
def State.hostRelease (s : State) (ptr : Nat) : State := s.releaseBy 8 ptr

/-- An entry that no queue takes is counted in CQ_LOST, and the cell of a DATA entry goes back to Billow (R124, R494). -/
def State.loseEntry (s : State) (e : List Byte) : State :=
  let s := s.bump R.HIF_CQ_LOST_COUNT
  if leVal (slice e 0 1) = 2 then s.hostRelease (leVal (slice e 0x10 0x18)) else s

/-- Put an entry into a CQ's stream queue; one that a full or disabled queue refuses is lost (R124, R494). -/
def State.postEntry (s : State) (n k : Nat) (e : List Byte) : State :=
  match s.writeWord (hostQueue n (16 + k)) ⟨e, true, true, false, 0⟩ .entry with
  | (t, .taken) => t
  | (t, .withheld) => t
  | (t, _) => t.loseEntry e

/-- The fields of a descriptor (R490). -/
def descField (d : List Byte) (at_ n : Nat) : Nat := leVal (slice d at_ (at_ + n))

/-- A descriptor of SQj ends: DONE counts it, and its entry goes to CQj when CQ_REQ is set or the status is not OK (R493). -/
def State.sqDone (s : State) (n j : Nat) (d : List Byte) (status : Nat) : State :=
  let s := s.put (R.HIF_Fn_Qj_DONE_COUNT n j) (s.get (R.HIF_Fn_Qj_DONE_COUNT n j) + 1)
  if descField d 1 1 / 8 % 2 = 1 || status != St.ok then
    s.postEntry n j (cqEntry 1 status (descField d 2 1) (descField d 8 4) (descField d 4 4) 0 s.descTs (descField d 0xC 4))
  else s

/-- Deliver data that lies in a cell to a CQ of a function as a DATA entry (R493). -/
def State.deliverData (s : State) (n k service arg cell len : Nat) : State :=
  s.postEntry n k (cqEntry 2 St.ok service 0 len cell s.descTs arg)

/-- The word that a queue's consumer reads next. -/
def State.peekWord (s : State) (q : Nat) : Option QWord :=
  match (s.queue q).reading with
  | w :: _ => some w
  | [] =>
    match (s.queue q).pick (s.isSet (R.BPM_Qq_STAT_PRIO_ACTIVE q)) with
    | some (w :: _, _) => some w
    | _ => none

/-- Raise a CQ's vector (R495). -/
def State.raiseCq (s : State) (n k : Nat) : State := s.raise n (s.get (R.HIF_Fn_Qj_CFG_VECTOR n (16 + k)))

/-- Count an entry just written among the waiting ones: the vector is raised as the number of waiting entries reaches COAL_COUNT, and
for every entry when both fields are 0 (R495). -/
def State.coalesce (s : State) (n k : Nat) : State :=
  let q := s.cpl n k
  let s := s.setCpl n k { q with waiting := q.waiting ++ [s.cycle] }
  let count := s.get (R.HIF_Fn_Qj_COAL_COUNT n (16 + k))
  let us := s.get (R.HIF_Fn_Qj_COAL_US n (16 + k))
  if (count = 0 && us = 0) || (count != 0 && q.waiting.length + 1 == count) then s.raiseCq n k else s

/-- Write an entry to the ring at TAIL and advance TAIL; the next pass has the inverse PHASE (R494). -/
def State.writeEntryAt (s : State) (n k : Nat) (e : List Byte) (cellFlag : Bool) (tag cell : Nat) : State :=
  let q := s.cpl n k
  let tail := s.hqTail n (16 + k)
  let head := if descField e 0 1 = 1 then s.hqHead n k else 0
  let flags := bnat (!q.inverted) + 2 * bnat cellFlag
  let e := patch (patch (patch (patch e 2 (leBytes 1 flags)) 4 (leBytes 2 head)) 8 (leBytes 4 tag)) 0x10 (leBytes 8 cell)
  let size := s.ringSize n (16 + k)
  let s := s.emit (.hostWrite n (s.ringEntry n (16 + k) tail) e)
  let s := s.put (R.HIF_Fn_Qj_TAIL_ENTRY n (16 + k)) ((tail + 1) % size)
  let s := if (tail + 1) % size = 0 then s.setCpl n k { s.cpl n k with inverted := !q.inverted } else s
  (s.put (R.HIF_Fn_Qj_DONE_COUNT n (16 + k)) (s.get (R.HIF_Fn_Qj_DONE_COUNT n (16 + k)) + 1)).coalesce n k

/-- The DATA entry at the front goes into the oldest receive buffer: its octets before the entry, or HQ_RXBUF_SMALL with no octet
written; the buffer is used up and the cell goes back (R493). -/
def State.writeData (s : State) (n k : Nat) (e : List Byte) (b : RxBuf) (rest : List RxBuf) : State :=
  let len := descField e 0xC 4
  let cell := descField e 0x10 8
  let s := s.setCpl n k { s.cpl n k with rx := rest }
  let fits := len ≤ b.len
  let e := if fits then e else patch e 1 (leBytes 1 St.hqRxbufSmall)
  let s := if fits then s.emit (.hostWrite n b.addr (s.bytes cell len)) else s
  (s.hostRelease cell).writeEntryAt n k e false b.tag 0

/-- Write the next waiting entry of a CQ, if the ring has room and its data has somewhere to go (R493, R494). -/
def State.writeNextEntry (s : State) (n k : Nat) : State :=
  let size := s.ringSize n (16 + k)
  let full := (s.hqTail n (16 + k) + 1) % size = s.hqHead n (16 + k) % size
  if !s.serves n (16 + k) || full then s
  else
    match s.peekWord (hostQueue n (16 + k)) with
    | none => s
    | some w =>
      let take := (s.readWord (hostQueue n (16 + k))).1
      if descField w.data 0 1 = 1 then take.writeEntryAt n k w.data false (descField w.data 8 4) 0
      else if n = 0 && s.isSet (R.HIF_Fn_Qj_CFG_DELIVERY n (16 + k)) then
        take.writeEntryAt n k w.data true 0 (descField w.data 0x10 8)
      else
        match (s.cpl n k).rx with
        | [] => s
        | b :: rest => take.writeData n k w.data b rest

/-- CQ_ENTRY_WRITE (R493, R494). -/
def execCqEntryWrite (fn k : Fin 16) (s : State) : Result := .next (s.writeNextEntry fn k)

/-- A host write of a CQ's HEAD returns the entries it passes (R494, R495). -/
def State.writeHead (s : State) (n k head : Nat) : State :=
  let size := s.ringSize n (16 + k)
  let passed := ringGap size (s.hqHead n (16 + k)) head
  let q := s.cpl n k
  (s.put (R.HIF_Fn_Qj_HEAD_ENTRY n (16 + k)) head).setCpl n k
    { q with waiting := q.waiting.drop passed, aged := q.aged && passed == 0 }

/-- HEAD_WRITE (R494). -/
def execHeadWrite (fn k : Fin 16) (head : BitVec 16) (s : State) : Result :=
  s.access (.host fn) (R.HIF_Fn_Qj_HEAD_ENTRY fn (16 + k)).addr fun s =>
  .next (s.writeHead fn k head.toNat)

/-- CQ_COALESCE_TIMER (R495): the oldest waiting entry is COAL_US old. -/
def execCqCoalesceTimer (fn k : Fin 16) (s : State) : Result :=
  let q := s.cpl fn k
  let us := s.get (R.HIF_Fn_Qj_COAL_US fn (16 + k))
  match q.waiting with
  | [] => .next s
  | t :: _ =>
    if us != 0 && !q.aged && s.passed t (us * usCycles) then
      .next ((s.setCpl fn k { q with aged := true }).raiseCq fn k)
    else .next s

/-! ### Submission descriptors (R488 to R491) -/

/-- Whether a descriptor's LEN suits its OPCODE (R490). -/
def descLenOk (op len : Nat) : Bool :=
  if op = 1 then 1 ≤ len && len ≤ 16
  else if op = 2 || op = 3 then 1 ≤ len && len ≤ 65536
  else if op = 5 then 64 ≤ len && len ≤ 65536 && len % 64 == 0
  else len == 0

/-- Whether FRAME_TX takes a descriptor's data: its length and its port (R491). -/
def State.frameTxOk (s : State) (d : List Byte) : Bool :=
  60 ≤ descField d 4 4 && descField d 4 4 + 4 ≤ s.get R.RLY_MAX_FRAME_BYTES && s.portNamed (descField d 0xC 4 % 8)

/-- The status of a descriptor's check (R490, R491): its form, then its service, then what the service admits. -/
def State.descCheck (s : State) (n : Nat) (d : List Byte) : Nat :=
  let op := descField d 0 1
  let service := descField d 2 1
  if 5 < op || 16 ≤ descField d 1 1 || descField d 3 1 != 0 || !descLenOk op (descField d 4 4) then St.hqDescBad
  else if op = 0 || op = 4 || op = 5 then (if service = 0 then St.ok else St.hqDescBad)
  else if service = 0 || 3 < service then St.hqService
  else if service = 1 && !(s.get R.HIF_FRAME_TX_EN_FUNCTIONS).testBit n then St.hqService
  else if (service = 3 && op != 1) || (op = 3 && n != 0) then St.hqDescBad
  else if service = 1 && !s.frameTxOk d then St.hqDescBad
  else St.ok

/-- Take the front descriptor away: HEAD advances past one of the ring (R488). -/
def State.popDesc (s : State) (n j : Nat) : State :=
  match (s.sub n j).fetched with
  | [] => s
  | (_, ring) :: rest =>
    let s := s.setSub n j { s.sub n j with fetched := rest, phase := .none }
    if ring then s.put (R.HIF_Fn_Qj_HEAD_ENTRY n j) ((s.hqHead n j + 1) % s.ringSize n j) else s

/-- Ask Billow for the cell of a HOST_BUF descriptor and start the read of its data (R489, R490). An answer other than a cell or a wait
is the descriptor's status. -/
def State.startBuf (s : State) (n j : Nat) (d : List Byte) : State × Nat :=
  let q := s.sub n j
  match s.allocCell (.fixed 8) (hostQueue n j) (descField d 4 4) (s.hostClass n j) false false with
  | (t, .cell ptr) =>
    ((t.setSub n j { q with phase := .reading ptr s.cycle }).emit (.hostRead n (descField d 0x10 8) (descField d 4 4)), St.ok)
  | (t, .held) => (t.setSub n j { q with phase := .asked }, St.ok)
  | (t, .refused c) => (t, c)

/-- Look at the front descriptors: a refused one ends with its status and sets DESC_ERR, and a HOST_BUF one starts its read. `fuel` bounds
how many are refused at once. -/
def State.settleFront (s : State) (n j : Nat) : Nat → State
  | 0 => s
  | fuel + 1 =>
    let q := s.sub n j
    match q.fetched with
    | [] => s
    | (d, _) :: _ =>
      let code := s.descCheck n d
      if code != St.ok then
        (((s.putBit (R.HIF_Fn_Qj_STAT_DESC_ERR n j) true).popDesc n j).sqDone n j d code).settleFront n j fuel
      else if descField d 0 1 = 2 && q.phase == BufPhase.none then
        let r := s.startBuf n j d
        if r.2 = St.ok then r.1 else ((r.1.popDesc n j).sqDone n j d r.2).settleFront n j fuel
      else s

/-- Go on with a queue after its front descriptor was dealt with. -/
def State.goOn (s : State) (n j : Nat) : State :=
  (s.settleFront n j ((s.sub n j).fetched.length + 1)).startFetch n j

/-- A host write of TAIL (R488): one beyond the ring's free space is ignored and sets DESC_ERR. -/
def State.writeTail (s : State) (n j tail : Nat) : State :=
  let size := s.ringSize n j
  let used := ringGap size (s.hqHead n j) (s.hqTail n j)
  if size ≤ tail || size - 1 - used < ringGap size (s.hqTail n j) tail then s.putBit (R.HIF_Fn_Qj_STAT_DESC_ERR n j) true
  else (s.put (R.HIF_Fn_Qj_TAIL_ENTRY n j) tail).startFetch n j

/-- TAIL_WRITE (R488). -/
def execTailWrite (fn j : Fin 16) (tail : BitVec 16) (s : State) : Result :=
  s.access (.host fn) (R.HIF_Fn_Qj_TAIL_ENTRY fn j).addr fun s =>
  .next (s.writeTail fn j tail.toNat)

/-- A failed read of host memory: DMA_ERR, the QERR vector and AER (R496). -/
def State.dmaError (s : State) (n j addr : Nat) : State :=
  let s := (s.putBit (R.HIF_Fn_Qj_STAT_DMA_ERR n j) true).emit (.aer addr)
  s.raise n (s.get (R.HIF_Fn_VEC_QERR n))

/-- The descriptors that a failed read would have brought end with HQ_DMA_ERR, and HEAD passes them; what they held is not known (R496). -/
def State.failFetch (s : State) (n j c : Nat) : State :=
  let s := (s.setSub n j { s.sub n j with fetch := none }).dmaError n j (s.ringEntry n j (s.hqHead n j))
  let s := (List.range c).foldl (fun (s : State) _ => (s.sqDone n j (s.freeBytes 32) St.hqDmaErr).spent) s
  (s.put (R.HIF_Fn_Qj_HEAD_ENTRY n j) ((s.hqHead n j + c) % s.ringSize n j)).goOn n j

/-- The data of the HOST_BUF descriptor at the front did not come: its cell goes back and it ends with HQ_DMA_ERR (R496). -/
def State.failBuf (s : State) (n j : Nat) (d : List Byte) (cell : Nat) : State :=
  (((((s.hostRelease cell).popDesc n j).dmaError n j (descField d 0x10 8)).sqDone n j d St.hqDmaErr)).goOn n j

/-- DESC_FETCH_DONE (R488): the read's descriptors come, 32 octets each. A paused read that may now start does so first. -/
def execDescFetchDone (fn j : Fin 16) (descs : List (List Byte)) (failed : Bool) (s : State) : Result :=
  let s := s.startFetch fn j
  match (s.sub fn j).fetch with
  | none => .next s
  | some (c, _) =>
    if failed then
      if (s.sub fn j).fetched.isEmpty then .next (s.failFetch fn j c) else .next s
    else if descs.length = c && (descs.all fun (d : List Byte) => d.length == 32) then
      let q := s.sub fn j
      .next ((s.setSub fn j { q with fetch := none, fetched := q.fetched ++ descs.map fun d => (d, true) }).goOn fn j)
    else .next s

/-- The descriptor in a queue's PIO window. -/
def State.pioDesc (s : State) (n j : Nat) : List Byte :=
  (List.range 8).flatMap fun w => leBytes 4 (s.get (R.HIF_Fn_Qj_PIO_WORD n j w))

/-- The write of the eighth word of a PIO window hands the descriptor on (R488). -/
def State.pioCommit (s : State) (n j : Nat) : State :=
  if s.isRing n j || !(s.fn n).exists_ then s
  else if s.serves n j then
    (s.setSub n j { s.sub n j with fetched := (s.sub n j).fetched ++ [(s.pioDesc n j, false)] }).goOn n j
  else s.sqDone n j (s.pioDesc n j) St.queueDisabled

/-- PIO_COMMIT (R488). -/
def execPioCommit (fn j : Fin 16) (s : State) : Result :=
  s.access (.host fn) (R.HIF_Fn_Qj_PIO_WORD fn j 7).addr fun s => .next (s.pioCommit fn j)

/-- The consumer finishes the NOP descriptors that come next in a queue. -/
def State.passNops (s : State) (n j : Nat) : Nat → State
  | 0 => s
  | fuel + 1 =>
    match s.peekWord (hostQueue n j) with
    | none => s
    | some w =>
      if descField w.data 0 1 = 0 && (w.data.length == 32) then
        (((s.readWord (hostQueue n j)).1).sqDone n j w.data St.ok).passNops n j fuel
      else s

/-- Commit the front descriptor, as `d`, to the queue's stream queue (R488, R490): one that a full or disabled queue refuses ends with
that status, and its cell goes back. -/
def State.commitDesc (s : State) (n j : Nat) (d : List Byte) (cell : Nat) : State :=
  let s := s.popDesc n j
  let r := s.writeWord (hostQueue n j) ⟨d, true, true, false, descField d 1 1 % 8⟩ .desc
  let s := match r.2 with
    | .full => (r.1.hostRelease cell).sqDone n j d St.queueFull
    | .disabled => (r.1.hostRelease cell).sqDone n j d St.queueDisabled
    | _ => r.1
  (s.passNops n j ((s.queue (hostQueue n j)).packets.length + 1)).goOn n j

/-- Run `f` on the front descriptor of a queue when its OPCODE is `op`. -/
def State.onFront (s : State) (n j op : Nat) (f : List Byte → State) : State :=
  match (s.sub n j).fetched with
  | [] => s
  | (d, _) :: _ => if descField d 0 1 = op then f d else s

/-- DESC_NOP (R490). -/
def execDescNop (fn j : Fin 16) (s : State) : Result := .next (s.onFront fn j 0 fun d => s.commitDesc fn j d noCell)

/-- INLINE (R490). -/
def execInline (fn j : Fin 16) (s : State) : Result := .next (s.onFront fn j 1 fun d => s.commitDesc fn j d noCell)

/-- The data of a HOST_BUF descriptor reaches its cell, and the descriptor is committed with ADDR the cell's pointer (R490). -/
def State.bufArrived (s : State) (n j : Nat) (d : List Byte) (cell : Nat) (data : Option (List Byte)) : State :=
  match data with
  | none => s.failBuf n j d cell
  | some bs =>
    if bs.length = descField d 4 4 then (s.setBytes cell bs).commitDesc n j (patch d 0x10 (leBytes 8 cell)) cell
    else s.failBuf n j d cell

/-- A HOST_BUF descriptor at the front goes on: with the cell it reads into, or with what Billow has answered its wait (R108). -/
def State.hostBuf (s : State) (n j : Nat) (d : List Byte) (data : Option (List Byte)) : State :=
  match (s.sub n j).phase with
  | .none => s.goOn n j
  | .reading cell _ => s.bufArrived n j d cell data
  | .asked =>
    match SMap.get none s.hostGrants (hostQueue n j) with
    | none => s
    | some (code, ptr) =>
      let s := { s with hostGrants := SMap.set none s.hostGrants (hostQueue n j) none }
      if code = St.ok then
        ((s.setSub n j { s.sub n j with phase := .reading ptr s.cycle }).emit
          (.hostRead n (descField d 0x10 8) (descField d 4 4))).bufArrived n j d ptr data
      else ((s.popDesc n j).sqDone n j d code).goOn n j

/-- HOST_BUF (R490). -/
def execHostBuf (fn j : Fin 16) (data : Option (List Byte)) (s : State) : Result :=
  .next (s.onFront fn j 2 fun d => s.hostBuf fn j d data)

/-- DEV_BUF (R490). -/
def execDevBuf (fn j : Fin 16) (s : State) : Result := .next (s.onFront fn j 3 fun d => s.commitDesc fn j d noCell)

/-- A FREE_CELL descriptor returns its cell, and the host interface writes its entry (R110, R493). -/
def State.freeDesc (s : State) (n j : Nat) (d : List Byte) : State :=
  let r := s.returnCell (.host n) (descField d 0x10 8)
  ((r.1.popDesc n j).sqDone n j d r.2).goOn n j

/-- FREE_CELL (R490). -/
def execFreeCell (fn j : Fin 16) (s : State) : Result := .next (s.onFront fn j 4 fun d => s.freeDesc fn j d)

/-- An RX_BUF descriptor adds its buffer to the receive list of CQj, which holds up to 256; a further one is refused (R490). -/
def State.rxDesc (s : State) (n j : Nat) (d : List Byte) : State :=
  let s := s.popDesc n j
  let q := s.cpl n j
  if 256 ≤ q.rx.length then ((s.putBit (R.HIF_Fn_Qj_STAT_DESC_ERR n j) true).sqDone n j d St.hqDescBad).goOn n j
  else
    let s := s.setCpl n j { q with rx := q.rx ++ [⟨descField d 0x10 8, descField d 4 4, descField d 8 4⟩] }
    (s.put (R.HIF_Fn_Qj_DONE_COUNT n j) (s.get (R.HIF_Fn_Qj_DONE_COUNT n j) + 1)).goOn n j

/-- RX_BUF (R490). -/
def execRxBuf (fn j : Fin 16) (s : State) : Result := .next (s.onFront fn j 5 fun d => s.rxDesc fn j d)

/-! ### Services (R491) -/

/-- Octets at a device address; where no memory is, free ones. -/
def State.deviceOctets (s : State) (a n : Nat) : List Byte :=
  if addressExists a && addressExists (a + n - 1) then s.bytes a n else s.freeBytes n

/-- The data of a committed descriptor: in it, in its cell, or in HBM (R490). -/
def State.descData (s : State) (d : List Byte) : List Byte :=
  if descField d 0 1 = 1 then slice d 0x10 (0x10 + descField d 4 4) else s.deviceOctets (descField d 0x10 8) (descField d 4 4)

/-- The cell of a committed descriptor's data, if it has one. -/
def descCell (d : List Byte) : Nat := if descField d 0 1 = 2 then descField d 0x10 8 else noCell

/-- The consumer takes the next descriptor of a queue when its SERVICE is `service`, and `f` does its work. -/
def State.consume (s : State) (n j service : Nat) (f : State → List Byte → State) : State :=
  match s.peekWord (hostQueue n j) with
  | none => s
  | some w =>
    if descField w.data 2 1 = service then
      let s := f ((s.readWord (hostQueue n j)).1) w.data
      (s.passNops n j ((s.queue (hostQueue n j)).packets.length + 1)).goOn n j
    else s

/-- FRAME_TX's work: the data is one frame, in the class and on the port of ARG, outside every leg's shaper; its cell is freed as the
frame starts. -/
def State.frameTx (s : State) (n j : Nat) (d : List Byte) : State :=
  let arg := descField d 0xC 4
  let data := s.descData d
  let f : EFrame := ⟨16640 + arg % 8, arg / 16 % 8, arg % 8, data.length + 4, descCell d, s.cycle % 2 ^ 32, false, data⟩
  (s.spent.enqueueFrame f).sqDone n j d St.ok

/-- FRAME_TX (R491). -/
def execFrameTx (fn j : Fin 16) (s : State) : Result :=
  .next (s.consume fn j 1 fun s d => s.frameTx fn j d)

/-- FIRMWARE's work: vendor firmware has the job, and ends it with a status. -/
def State.firmwareJob (s : State) (n j : Nat) (d : List Byte) (status : Nat) : State :=
  (s.emit (.firmware 5 (n :: descField d 0xC 4 :: (s.descData d).map BitVec.toNat))).sqDone n j d status

/-- FIRMWARE (R491). -/
def execFirmware (fn j : Fin 16) (status : BitVec 8) (s : State) : Result :=
  if St.listed status.toNat || (status.toNat == St.unitFenced && s.get R.SQL_FENCED_UNITS_COUNT != 0) then
    .next (s.consume fn j 3 fun s d => s.firmwareJob fn j d status.toNat)
  else .next s

/-! ### Disable, time-outs and function-level resets (R480, R481, R496) -/

/-- Take back the cell, or the wait for one, of the HOST_BUF descriptor at the front of a queue. -/
def State.dropBuf (s : State) (n j : Nat) : State :=
  match (s.sub n j).phase with
  | .none => s
  | .reading cell _ => s.hostRelease cell
  | .asked =>
    let g := SMap.get none s.hostGrants (hostQueue n j)
    let s := { s with hostGrants := SMap.set none s.hostGrants (hostQueue n j) none }
    match g with
    | some (_, ptr) => s.hostRelease ptr
    | none =>
      let mine := fun (h : HeldAlloc) => !(h.who == .fixed 8 && h.req == hostQueue n j)
      (s.setHeld 4 ((s.heldOf 4).filter mine)).setHeld 5 (((s.setHeld 4 ((s.heldOf 4).filter mine)).heldOf 5).filter mine)

/-- The committed descriptors of a queue that its consumer has not taken. -/
def StreamQueue.unread (q : StreamQueue) : List QWord := q.reading ++ q.packets.flatten

/-- End a descriptor with HQ_ABORTED: with its entry, or inside the device only (R480, R496). -/
def State.abortDesc (s : State) (n j : Nat) (entry : Bool) (d : List Byte) : State :=
  let s := s.hostRelease (descCell d)
  if entry then s.sqDone n j d St.hqAborted
  else s.put (R.HIF_Fn_Qj_DONE_COUNT n j) (s.get (R.HIF_Fn_Qj_DONE_COUNT n j) + 1)

/-- Tell the owner of a withheld word that it was not taken, with QUEUE_FULL or QUEUE_DISABLED (R123 to R125). -/
def State.answerWord (s : State) (q code : Nat) (w : QWord × WordOwner) : State :=
  match w.2 with
  | .sender who => s.emit (.done who code [q])
  | .desc => (s.hostRelease (descCell w.1.data)).sqDone ((q - 272) / 32) ((q - 272) % 32) w.1.data code
  | .entry => s.loseEntry w.1.data

/-- The withheld words of a queue whose ENABLE is cleared are ignored (R124). -/
def State.dropStalled (s : State) (q : Nat) : State :=
  (s.queue q).stalled.foldl (fun (s : State) w => s.answerWord q St.queueDisabled w) (s.setQueue q { s.queue q with stalled := [] })

/-- COMPAT_STALL_TIMEOUT (R123): a withheld write has waited longer than BPM_COMPAT_STALL. -/
def execCompatStallTimeout (queue : Fin 2048) (s : State) : Result :=
  match (s.queue queue).stalled with
  | [] => .next s
  | w :: ws =>
    if (s.queue queue).since + s.get R.BPM_COMPAT_STALL_MICROSECONDS * usCycles < s.cycle then
      let t := s.overrun queue w.1
      .next (((t.setQueue queue { t.queue queue with stalled := [] }).answerWord queue St.queueFull w).unstall queue ws)
    else .next s

/-- What clearing a submission queue's ENABLE does (R496): the descriptor whose data is being read is finished with, the ones not yet
consumed end with HQ_ABORTED, and HEAD stays after the last descriptor committed. -/
def State.abortSub (s : State) (n j : Nat) (entry : Bool) : State :=
  let q := hostQueue n j
  let front := match (s.sub n j).fetched with
    | (d, _) :: _ => if descField d 0 1 = 2 && (s.sub n j).phase != BufPhase.none then [d] else []
    | [] => []
  let words := ((s.queue q).unread ++ ((s.queue q).stalled.filter fun w => w.2 == .desc).map Prod.fst).map QWord.data
  let s := ((s.queue q).stalled.filter fun w => w.2 != .desc).foldl (fun (s : State) w => s.answerWord q St.queueDisabled w) s
  let s := s.dropBuf n j
  let s := if front.isEmpty then s else s.popDesc n j
  let s := s.setSub n j SubQueue.init
  let s := s.setQueue q { s.queue q with packets := [], reading := [], openPkt := [], stalled := [], rewinding := false }
  let s := words.foldl (fun (s : State) d => s.abortDesc n j entry d) (s.judgeOrder q)
  front.foldl (fun (s : State) d => s.abortDesc n j entry (patch d 0 [1])) s

/-- Clear a host queue's ENABLE (R496). -/
def State.disableHostQueue (s : State) (n j : Nat) : State :=
  let on := s.serves n j
  let s := s.putBit (R.BPM_Qq_CFG_ENABLE (hostQueue n j)) false
  if on && j < 16 then s.abortSub n j true else s.dropStalled (hostQueue n j)

/-- HOST_QUEUE_DISABLE (R496). -/
def execHostQueueDisable (fn : Fin 16) (j : Fin 32) (s : State) : Result :=
  s.access (.host fn) (R.HIF_Fn_Qj_CFG_MODE fn j).addr fun s =>
  .next (s.disableHostQueue fn j)

/-- Clear HIF_CTRL ENABLE: every queue is as one whose ENABLE is cleared (R512). -/
def State.disableHif (s : State) : State :=
  let on := (List.range 256).filter fun i => s.serves (i / 16) (i % 16)
  on.foldl (fun (s : State) i => s.abortSub (i / 16) (i % 16) true) (s.putBit R.HIF_CTRL_ENABLE false)

/-- CPL_TIMEOUT (R496): a read of host memory has had no completion for HIF_CPL_TIMEOUT. -/
def execCplTimeout (fn j : Fin 16) (s : State) : Result :=
  let limit := s.get R.HIF_CPL_TIMEOUT_MS * msCycles
  match (s.sub fn j).fetched, (s.sub fn j).phase, (s.sub fn j).fetch with
  | (d, _) :: _, .reading cell t, _ => if s.passed t limit then .next (s.failBuf fn j d cell) else .next s
  | [], _, some (c, t) => if s.passed t limit then .next (s.failFetch fn j c) else .next s
  | _, _, _ => .next s

/-- MSIX_UNMASK (R509): a pending vector sends its message once it is no longer masked. -/
def State.unmask (s : State) (n v : Nat) : State :=
  let f := s.fn n
  if SMap.get false f.pendingV v && !f.isMasked v then
    (s.setFn n { f with pendingV := SMap.set false f.pendingV v false }).emit (.msix n v)
  else s

/-- A write that unmasks a vector of a function's table (R509). -/
def State.unmaskVector (s : State) (n v : Nat) : State :=
  let f := s.fn n
  if !f.exists_ then s else (s.setFn n { f with masked := SMap.set true f.masked v false }).unmask n v

/-- A configuration write that sets MSI-X Enable (R509). -/
def State.enableMsix (s : State) (n : Nat) : State :=
  let f := s.fn n
  if !f.exists_ then s else (List.range 128).foldl (fun (s : State) v => s.unmask n v) (s.setFn n { f with msixEn := true })

/-- The Vector Control word of a vector in a function's page (R508). -/
def vectorControl (n v : Nat) : Nat := 0x84000 + n * 0x8000 + v * 16 + 12

/-- MSIX_UNMASK (R509): a vector is unmasked, or MSI-X Enable is set. -/
def execMsixUnmask (fn : Fin 16) (vec : Option (Fin 128)) (s : State) : Result :=
  match vec with
  | some v => s.access (.host fn) (vectorControl fn v) fun s => .next (s.unmaskVector fn v)
  | none => .next (s.enableMsix fn)

/-- A BAR0 request of a shape that R483 does not serve: a read ends in Unsupported Request, a write is dropped; either is counted and
logged. -/
def State.badAccess (s : State) (n addr : Nat) (read : Bool) : State :=
  let s := (s.bump R.HIF_BAD_ACCESS_COUNT).log Unit.hif 0 Sev.note Ev.badAccess addr n
  if read then s.emit (.readAbort (.host n) addr) else s

/-- BAD_ACCESS (R483). -/
def execBadAccess (fn : Fin 16) (addr : Nat) (read : Bool) (s : State) : Result := .next (s.badAccess fn addr read)

end Sys2Proof.Machine
end

