-- ==== Sys2Proof/Machine/Mailbox.lean ====
section
/-! DEFINITION. Mailboxes, doorbells and the resets of host functions (spec/15_host_interface.md, R480, R481, R497 to R507, R580). -/

namespace Sys2Proof.Machine

open Sys2Proof

/-! ### Mailboxes -/

/-- Whether the claim of a channel has stood for MBX_CLAIM_TO (R499). -/
def State.claimDue (s : State) (c : Nat) : Bool :=
  s.mbxClaimed c && s.passed (s.chan c).since (s.get R.MBX_CLAIM_TO_US * usCycles)

/-- End a claim: the stage is discarded and the channel is FREE (R499). -/
def State.endClaim (s : State) (c : Nat) (lapsed : Option Nat) : State :=
  ((s.putBit (R.MBX_CHc_STAT_CLAIMED c) false).put (R.MBX_CHc_STAT_CLAIMER c) 0).setMbx c ⟨0, [], lapsed⟩

/-- A claim whose time has passed lapses (R499). -/
def State.lapse (s : State) (c : Nat) : State :=
  if s.claimDue c then s.endClaim c (some (s.get (R.MBX_CHc_STAT_CLAIMER c))) else s

/-- MBX_CLAIM_TIMEOUT (R499). -/
def execMbxClaimTimeout (ch : Fin 64) (s : State) : Result := .next (s.lapse ch)

/-- Whether a claim by a function may choose a channel: FREE, not fenced, its receiver a control core, the function admitted (R500,
R580). -/
def State.claimable (s : State) (n c : Nat) : Bool :=
  !s.mbxFull c && (!s.mbxClaimed c || s.claimDue c) && !s.isFenced Unit.mbx c && s.admits c n

/-- The channel a claim chooses: the lowest-numbered one (R500). -/
def State.claimChoice (s : State) (n : Nat) : Option Nat := (List.range 64).find? fun c => s.claimable n c

/-- Store a message with its delivery check, retried once (R576, R577, R580). A channel whose retry fails is fenced and never becomes
FULL. -/
def State.mbxDeliver (s : State) (c stamp : Nat) (words : List Nat) (check : CheckResult) : State :=
  match check with
  | .pass => s.fillChannel c stamp words
  | .retried => (s.fillChannel c stamp words).retriedOpen Unit.mbx c 12
  | .failed => s.fenceOpen Unit.mbx c 12

/-- An internal 64-byte line write (R36, R499, R580): it fills a FREE channel, or takes a bus error. -/
def State.mbxLineWrite (s : State) (who : Sender) (c : Nat) (line : List Byte) (check : CheckResult) : State :=
  let s := s.lapse c
  let a := 0x100000 + c * 0x100
  if s.cutOff who || !s.isSet R.MBX_CTRL_ENABLE || s.isFenced Unit.mbx c then s.emit (.busError who a)
  else if s.mbxFull c || s.mbxClaimed c then (s.bump R.MBX_INT_REFUSED_COUNT).emit (.busError who a)
  else
    let s := s.mbxDeliver c who.stamp (lineWords line) check
    if check = .failed then s.emit (.busError who a) else s

/-- What a read of MBX_CLAIM by a function does when its claim chooses a channel, or none (R500). -/
def State.takeClaim (s : State) (n : Nat) (choice : Option Nat) : State :=
  match if s.isSet R.MBX_CTRL_ENABLE then choice else none with
  | none => s.emit (.readDone (.host n) R.MBX_CLAIM_CHANNEL.addr 0)
  | some c =>
    let s := (s.lapse c).putBit (R.MBX_CHc_STAT_CLAIMED c) true
    ((s.put (R.MBX_CHc_STAT_CLAIMER c) n).setMbx c ⟨s.cycle, [], none⟩).emit
      (.readDone (.host n) R.MBX_CLAIM_CHANNEL.addr (128 + c))

/-- The function that a command lets claim, if it is a claim. -/
def claimant : Instr → Option Nat
  | .mbxClaim fn => some fn.val
  | _ => none

/-- The channels as Fn's claim finds them: what waits in the queue falls in the present cycle, and the internal line writes of a cycle are
served first, then the claims of lower functions (R500). -/
def State.beforeClaim (s : State) (n : Nat) : State :=
  let t := s.pending.foldl (fun (t : State) c => match c with
    | .mbxInternalWrite who ch line check => t.mbxLineWrite who ch line check
    | _ => t) s
  ((List.range n).flatMap fun k => (s.pending.filterMap claimant).filter (· == k)).foldl
    (fun (t : State) k => if t.accessible (.host k) R.MBX_CLAIM_VALID.addr then t.takeClaim k (t.claimChoice k) else t) t

/-- A host read of MBX_CLAIM (R500). -/
def State.mbxClaim (s : State) (n : Nat) : State := s.takeClaim n ((s.beforeClaim n).claimChoice n)

/-- MBX_CLAIM (R500). -/
def execMbxClaim (fn : Fin 16) (s : State) : Result :=
  s.accessRead (.host fn) R.MBX_CLAIM_VALID.addr fun s => .next (s.mbxClaim fn)

/-- The cause for which a host write to a channel is rejected, the first row of R503 that applies. -/
def State.mbxReject (s : State) (n c : Nat) : Option Nat :=
  if s.isFenced Unit.mbx c then some St.unitFenced
  else if s.recvClass c = 0 then some St.mbxHostBound
  else if (s.chan c).lapsedBy = some n then some St.mbxLapsed
  else if s.mbxClaimed c && s.get (R.MBX_CHc_STAT_CLAIMER c) == n then none
  else some St.mbxNotOwner

/-- Tell a function that its write was rejected: channel, cause, REJECTED or MULTI, and the MBX_REJ vector (R503). -/
def State.rejectWrite (s : State) (n c cause : Nat) : State :=
  let again := s.isSet (R.HIF_Fn_MBX_REJ_REJECTED n)
  let s := (s.put (R.HIF_Fn_MBX_REJ_CHANNEL n) c).put (R.HIF_Fn_MBX_REJ_CAUSE n) cause
  let s := if again then s.putBit (R.HIF_Fn_MBX_REJ_MULTI n) true else s.putBit (R.HIF_Fn_MBX_REJ_REJECTED n) true
  s.raise n (s.get (R.HIF_Fn_VEC_MBX_REJ n))

/-- A host write to a channel: refused in silence where the function does not see the channel (R482), rejected (R503), or `f`. -/
def State.hostMbxWrite (s : State) (n c : Nat) (f : State → State) : State :=
  if !(s.fn n).exists_ || !s.seesChannel n c then s
  else
    let s := s.lapse c
    match s.mbxReject n c with
    | some cause => s.rejectWrite n c cause
    | none => f s

/-- MBX_DATA_WRITE (R499): the claimer stages a word. -/
def execMbxDataWrite (fn : Fin 16) (ch : Fin 64) (index : Fin 16) (word : Word) (s : State) : Result :=
  s.access (.host fn) (R.MBX_CHc_DATA_DATA ch index).addr fun s =>
  .next (s.hostMbxWrite fn ch fun s =>
    s.setMbx ch { s.chan ch with stage := SMap.set none (s.chan ch).stage index (some word.toNat) })

/-- The staged message, word by word; a word that was not staged is a free value. -/
def State.stagedWords (s : State) (c : Nat) : List Nat :=
  (List.range 16).map fun i =>
    match SMap.get none (s.chan c).stage i with
    | some w => w
    | none => leVal (slice (s.freeBytes 64) (4 * i) (4 * i + 4))

/-- SEND (R499): the stage becomes the message. -/
def execSend (fn : Fin 16) (ch : Fin 64) (check : CheckResult) (s : State) : Result :=
  s.access (.host fn) (R.MBX_CHc_CTRL_SEND ch).addr fun s =>
  .next (s.hostMbxWrite fn ch fun s =>
    let words := s.stagedWords ch
    let s := (s.endClaim ch none).spent.mbxDeliver ch (Sender.host fn).stamp words check
    if check = .failed then s.rejectWrite fn ch St.unitFenced else s)

/-- MBX_INTERNAL_WRITE (R499). -/
def execMbxInternalWrite (who : Sender) (ch : Fin 64) (line : List Byte) (check : CheckResult) (s : State) : Result :=
  .next (s.mbxLineWrite who ch line check)

/-- The message words of a channel. -/
def State.mbxWords (s : State) (c : Nat) : List Nat := (List.range 16).map fun i => s.get (R.MBX_CHc_DATA_DATA c i)

/-- Whether a sender is a channel's receiver. -/
def State.isReceiver (s : State) (who : Sender) (c : Nat) : Bool := who.stamp == s.get (R.MBX_CHc_CFG_RECV c)

/-- A read that releases (R501): a host function reads DATA15, a core the whole line. A function that is neither claimer nor receiver reads
0 (R499); only the receiver of a FULL channel releases it. -/
def State.mbxRelease (s : State) (who : Sender) (c : Nat) : State :=
  let mine := s.isReceiver who c
  let freed := if mine && s.mbxFull c then s.putBit (R.MBX_CHc_STAT_FULL c) false else s
  match who with
  | .host n =>
    if !(s.fn n).exists_ then s
    else
      let claimer := s.mbxClaimed c && s.get (R.MBX_CHc_STAT_CLAIMER c) == n
      let v := if mine || (claimer && s.seesChannel n c) then s.get (R.MBX_CHc_DATA_DATA c 15) else 0
      freed.emit (.readDone who (R.MBX_CHc_DATA_DATA c 15).addr v)
  | _ => freed.emit (.done who St.ok (s.mbxWords c))

/-- A freed channel of a function's replies or notifications takes the next one that waits (R523). -/
def State.refillChannel (s : State) (c : Nat) : State :=
  if 32 ≤ c && !s.mbxFull c then s.flushGul (c % 2 == 1) ((c - 32) / 2) else s

/-- MBX_RELEASE (R36, R501). -/
def execMbxRelease (who : Sender) (ch : Fin 64) (s : State) : Result :=
  .next (if s.cutOff who then s.lostRead who (R.MBX_CHc_DATA_DATA ch 15).addr else (s.mbxRelease who ch).refillChannel ch)

/-! ### Doorbells -/

/-- The function that owns a doorbell bit (R504). -/
def doorbellOwner (bit : Nat) : Nat := bit % 128 / 8

/-- The state of a doorbell bit. -/
def State.doorbell (s : State) (bit : Nat) : Bool := (s.get (R.DBL_STAT_BITS (bit / 32))).testBit (bit % 32)

/-- The state with a doorbell bit at a level. -/
def State.setDoorbell (s : State) (bit : Nat) (v : Bool) : State :=
  s.putBit ⟨(R.DBL_STAT_BITS (bit / 32)).addr, bit % 32, 1⟩ v

/-- A set of a doorbell bit falls in the present cycle. -/
def State.noteBell (s : State) (bit : Nat) : State := { s with bells := SMap.set none s.bells bit (some s.cycle) }

/-- Whether a function may set a bit (R505): its own device-bound bits, or any of them for F0. -/
def mayRing (n bit : Nat) : Bool := bit < 128 && (n == 0 || n == doorbellOwner bit)

/-- Whether a set of a bit falls in the present cycle, served already or still in the queue: a clear of that cycle then leaves it set
(R505, R506). -/
def State.bellHeld (s : State) (bit : Nat) : Bool :=
  SMap.get none s.bells bit == some s.cycle || s.pending.any fun c => match c with
    | .dblSet fn w bits => w.val == bit / 32 && bits.toNat.testBit (bit % 32) && mayRing fn bit
    | .dblInternalSet _ b => 128 + b.val == bit
    | _ => false

/-- A function rings a bit (R505): its own device-bound bits, or any for F0. -/
def State.ring (s : State) (n bit : Nat) : State :=
  if !mayRing n bit then s.bump R.DBL_IGNORED_COUNT
  else if s.doorbell bit then (s.noteBell bit).bump R.DBL_COALESCED_COUNT
  else ((s.noteBell bit).setDoorbell bit true).emit (.coreIrq (bit % 16) 1 bit)

/-- A host write of DBL_SETw (R505). -/
def State.writeDblSet (s : State) (n w bits : Nat) : State :=
  if !(s.fn n).exists_ then s
  else (List.range 32).foldl (fun (s : State) i => if bits.testBit i then s.ring n (32 * w + i) else s) s

/-- DBL_SET (R505). -/
def execDblSet (fn : Fin 16) (w : Fin 8) (bits : Word) (s : State) : Result :=
  s.access (.host fn) (R.DBL_SET_SET w).addr fun s =>
  .next (s.writeDblSet fn w bits.toNat)

/-- An internal sender sets a host-bound bit (R506). -/
def State.ringHost (s : State) (bit : Nat) : State :=
  let s := s.noteBell bit
  if s.doorbell bit then s
  else
    let n := doorbellOwner bit
    (s.setDoorbell bit true).raise n (s.get (R.HIF_Fn_VEC_DBL n))

/-- DBL_INTERNAL_SET (R36, R506). -/
def execDblInternalSet (who : Sender) (bit : Fin 128) (s : State) : Result :=
  .next (if s.cutOff who then s.lostWrite who (R.DBL_SET_SET (4 + bit / 32)).addr else s.ringHost (128 + bit))

/-- Whether a sender may clear a doorbell bit: a host-bound bit its owner or F0, a device-bound bit vendor firmware (R482, R505 to R507). -/
def mayClearDoorbell (who : Sender) (bit : Nat) : Bool :=
  match who with
  | .host n => 128 ≤ bit && (n == 0 || n == doorbellOwner bit)
  | .control _ => bit < 128
  | _ => false

/-- A write of ones to DBL_STATw (R506): a set of the same cycle outlasts it. -/
def State.writeDblStat (s : State) (who : Sender) (w bits : Nat) : State :=
  (List.range 32).foldl (fun (s : State) i =>
    if bits.testBit i && mayClearDoorbell who (32 * w + i) && !s.bellHeld (32 * w + i) then s.setDoorbell (32 * w + i) false else s) s

/-- DBL_STAT_CLEAR (R506). -/
def execDblStatClear (who : Sender) (w : Fin 8) (bits : Word) (s : State) : Result :=
  s.access who (R.DBL_STAT_BITS w).addr fun s =>
  .next (s.writeDblStat who w bits.toNat)

/-! ### Resets of functions (R480, R481) -/

/-- A channel at the reset of a function: a message to it is discarded, and a claim of its ends (R480, R499). -/
def State.flrChannel (s : State) (n c : Nat) : State :=
  let s := if s.mbxFull c && s.isReceiver (.host n) c then s.putBit (R.MBX_CHc_STAT_FULL c) false else s
  if s.mbxClaimed c && s.get (R.MBX_CHc_STAT_CLAIMER c) == n then s.endClaim c none else s

/-- A host queue at the reset of its function: disabled, its descriptors ended with no entry, its entries dropped, and its fields of R128
that the function page shares at their reset values (R480, R513). -/
def State.flrQueue (s : State) (n j : Nat) : State :=
  let q := hostQueue n j
  let s := s.putBit (R.BPM_Qq_CFG_ENABLE q) false
  let s := if j < 16 then s.abortSub n j false
    else
      let s := ((s.queue q).unread.filter fun w => descField w.data 0 1 == 2).foldl
        (fun (s : State) w => s.hostRelease (descField w.data 0x10 8)) s
      (s.setQueue q { s.queue q with packets := [], reading := [], openPkt := [], stalled := [], rewinding := false }).setCpl n (j - 16)
        CplQueue.init
  (s.putBit (R.BPM_Qq_CFG_ORDER_MODE q) false).putBit (R.BPM_Qq_CFG_KB3_COMPAT q) false

/-- The registers of a function's page at their reset values (R480). -/
def State.resetPage (s : State) (n : Nat) : State :=
  { s with regs := s.regs.filter fun e => !(decide (fnPage n ≤ e.1) && decide (e.1 < fnPage n + 0x8000)) }

/-- The grants of command ports that a function holds end (R480, R72). -/
def State.flrGrants (s : State) (n : Nat) : State :=
  { s with holders := s.holders.filter fun e => e.2 != some (Sender.host n) }

/-- A function-level reset of one function (R480). -/
def State.flr (s : State) (n : Nat) : State :=
  let s := (List.range 32).foldl (fun (s : State) j => s.flrQueue n j) s
  let s := ((List.range 64).foldl (fun (s : State) c => s.flrChannel n c) s).flrGrants n
  let s := (List.range 8).foldl (fun (s : State) i => (s.setDoorbell (8 * n + i) false).setDoorbell (128 + 8 * n + i) false) s
  let s := s.resetPage n
  let s := s.setFn n { s.fn n with masked := [], flrSince := some s.cycle }
  s.putBit ⟨R.HIF_STATUS_FLR_BUSY.addr, R.HIF_STATUS_FLR_BUSY.lsb + n, 1⟩ true

/-- Reset every function from `F<first>` on (R481). -/
def State.flrFrom (s : State) (first : Nat) : State :=
  ((List.range 16).filter fun n => first ≤ n && (s.fn n).exists_).foldl (fun (s : State) n => s.flr n) s

/-- FUNCTION_LEVEL_RESET (R480, R481): F0's resets the virtual functions too. -/
def execFunctionLevelReset (fn : Fin 16) (s : State) : Result :=
  if !(s.fn fn).exists_ then .next s else .next (if fn.val = 0 then s.flrFrom 0 else s.flr fn)

/-- FLR_COMPLETE (R480): the reset of a function is done, at the latest after 10 ms. -/
def execFlrComplete (fn : Fin 16) (s : State) : Result :=
  match (s.fn fn).flrSince with
  | none => .next s
  | some _ =>
    .next ((s.setFn fn { s.fn fn with flrSince := none }).putBit
      ⟨R.HIF_STATUS_FLR_BUSY.addr, R.HIF_STATUS_FLR_BUSY.lsb + fn.val, 1⟩ false)

/-- VF_ENABLE_CLEAR (R479, R481): every virtual function is reset and is gone; `again` of them exist once VF Enable is set again. -/
def execVfEnableClear (again : Fin 16) (s : State) : Result :=
  let s := s.flrFrom 1
  .next ((List.range 15).foldl (fun (s : State) i => s.setFn (i + 1) { s.fn (i + 1) with exists_ := decide (i + 1 ≤ again.val) }) s)

/-- HOT_RESET (R481): every function is reset, and the link's rate and width are shown. -/
def execHotReset (speed width : Fin 17) (s : State) : Result :=
  .next (((s.flrFrom 0).put R.HIF_STATUS_SPEED speed).put R.HIF_STATUS_WIDTH width)

end Sys2Proof.Machine
end

