-- ==== Sys2Proof/Machine/Updraft.lean ====
section
/-! DEFINITION. The Updraft governor: windows and budget (R440, R445, R448), temperature (R446, R447) and the regulators'
telemetry (R442, R579, R608). -/

namespace Sys2Proof.Machine

open Sys2Proof

/-! ### The thermal factor (R446) -/

/-- The thermal factor of R446 as a fraction. -/
def State.thermalFactor (s : State) : Nat × Nat :=
  let th := s.get R.UPD_STATUS_THERMAL
  if th = 1 || th = 2 then
    let den := (2 * (signed 8 (s.get R.UPD_T_SHED_CELSIUS) - signed 8 (s.get R.UPD_T_WARN_CELSIUS))).toNat
    let above := signed 8 (s.get R.UPD_TJ_CELSIUS) - signed 8 (s.get R.UPD_T_WARN_CELSIUS)
    if den = 0 then (1, 1) else if (den : Int) < 2 * above then (1, 2) else (((den : Int) - above).toNat, den)
  else (1, 1)

/-- f × P_cap × 250 µs in units of 0.001 pJ. -/
def State.capEnergy (s : State) : Nat :=
  let f := s.thermalFactor
  s.get R.UPD_CAP_WATTS * 250 * 1000000000 * f.1 / f.2

/-! ### Window ends (R440, R445, R448) -/

/-- The energy that the running tasks commit to the window that begins now (R440). -/
def State.nextCommit (s : State) : Nat :=
  (s.hts.slots.filter fun e => e.2.st == .running && e.2.charge.power != 0).foldl
    (fun (v : Nat) e => v + e.2.charge.share (e.2.charge.power * s.ageNs e.2.charge.start) 250000) 0

/-- Set the shed level, with its trace entry and its log entry (R445, R451). -/
def State.setShed (s : State) (l : Nat) : State :=
  if s.get R.UPD_SHED_LEVEL = l then s
  else ((s.put R.UPD_SHED_LEVEL l).trace 0 htsConsumer 11 0 l).log Unit.upd 0 Sev.note Ev.shedLevel l (s.get R.UPD_WINDOW_COUNT)

/-- Move the shed level at a window's end (R445). -/
def State.moveShed (s : State) : State :=
  let l := s.get R.UPD_SHED_LEVEL
  let floor := if s.get R.UPD_STATUS_THERMAL = 2 then 4 else s.get R.UPD_SHED_FLOOR
  let busy := s.upd.deferred || s.upd.late
  let calm := !busy && s.upd.commit * 100 ≤ s.upd.budget * 85
  let quiet := if calm then s.upd.quiet + 1 else 0
  if !s.isSet R.UPD_CTRL_ENABLE then { s with upd := { s.upd with quiet := 0 } }.setShed 0
  else if busy then { s with upd := { s.upd with quiet := 0 } }.setShed (min 4 (l + 1))
  else if s.get R.UPD_SHED_HOLD_WINDOWS ≤ quiet && floor < l then { s with upd := { s.upd with quiet := 0 } }.setShed (l - 1)
  else { s with upd := { s.upd with quiet := quiet } }

/-- The deferred marks last until the next window (R438). -/
def State.clearDeferred (s : State) : State :=
  (s.hts.slots.filter fun e => e.2.deferred).foldl (fun (s : State) e => s.setTask e.1 { e.2 with deferred := false }) s

/-- The window that has ended, in fabric cycles (R440). -/
def windowCycles : Nat := 375000

/-- UPD_WINDOW_END (R440, R445, R448): the cap is judged, L moves, and the next window's budget and commit are set. -/
def execUpdWindowEnd (s : State) : Result :=
  if !s.passed s.upd.windowAt windowCycles then .next s
  else
    let cap := s.capEnergy
    let seen := s.upd.measured && !s.isFenced Unit.link 1
    let e := s.upd.package
    let exceeded := seen && cap < e * 1000 && cap < (e - s.upd.shed) * 1000
    let s := if exceeded then
        (s.putBit R.UPD_STATUS_CAP_EXCEEDED true).log Unit.upd 0 Sev.warn Ev.capExceeded (e / 1000000) (cap / 1000000000)
      else s
    let fixed := if seen then (e - s.upd.tasks) * 1000 else 15000 * 1000000000
    let excess := if seen then min cap (e * 1000 - cap) else 0
    let budget := cap - fixed - excess
    let s := s.moveShed
    let history := (e :: s.upd.history).take 40
    let mean := history.foldl (· + ·) 0 / (250 * max 1 history.length) / 1000
    let s := if seen then s.put R.UPD_PKG_POWER_MILLIWATTS mean else s
    let s := s.clearDeferred
    let commit := s.nextCommit
    let upd := { s.upd with budget := budget, commit := commit, windowAt := s.cycle, package := 0, tasks := 0, shed := 0,
                            measured := false, history := if seen then history else s.upd.history,
                            deferred := false, late := false }
    let s := { s with upd := upd }.put R.UPD_WINDOW_COUNT (s.get R.UPD_WINDOW_COUNT + 1)
    .next ((s.put R.UPD_BUDGET_MICROJOULES (budget / 1000000000)).put R.UPD_COMMIT_MICROJOULES (commit / 1000000000))

/-! ### Temperature (R446, R447) -/

/-- The highest reading of the sensors and the lowest sensor that gives it. -/
def hottest : List Byte → Nat → Int × Nat
  | [], _ => (-128, 0)
  | b :: bs, i =>
    let r := hottest bs (i + 1)
    let t := signed 8 b.toNat
    if bs.isEmpty || r.1 ≤ t then (t, i) else r

/-- The readings of the sensors in their registers. -/
def State.putSensors (s : State) : Nat → List Byte → State
  | _, [] => s
  | i, b :: bs => (s.put (R.UPD_TS_CELSIUS i) b.toNat).putSensors (i + 1) bs

/-- Drop the tasks in flight without completion (R447). -/
def State.loseRunning (s : State) : State :=
  (s.hts.slots.filter fun e => e.2.st == .running).foldl (fun (s : State) e => s.freeSlot e.1) s

/-- Gate every island but the host interface's, which Updraft and Squall share (R447). -/
def State.gateAll (s : State) : State := ((List.range 56).filter (· != 54)).foldl (fun (s : State) i => s.setIsland i .lull) s

/-- The number of the THERM_N pin among those of Output.pin. -/
def thermPin : Nat := 2

/-- Trip: shutdown (R447). -/
def State.trip (s : State) (tj : Int) (sensor : Nat) : State :=
  let s := ((s.log Unit.upd sensor Sev.fatal Ev.trip (unsigned 8 tj) sensor).emit (.pin thermPin false)).put R.UPD_STATUS_THERMAL 3
  let s := s.put R.HIF_BOOT_STAGE_STAGE 0xF0
  let s := s.trace 0 htsConsumer 12 0 (unsigned 8 tj)
  (((List.range 8).foldl State.disablePort s).loseRunning).gateAll

/-- A thermal state is entered, with its trace entry. -/
def State.enterThermal (s : State) (st : Nat) (tj : Int) : State :=
  (s.put R.UPD_STATUS_THERMAL st).trace 0 htsConsumer 12 0 (unsigned 8 tj)

/-- One transition of the thermal state at a sample (R446). -/
def State.moveThermal (s : State) (tj : Int) : State :=
  let th := s.get R.UPD_STATUS_THERMAL
  let warn := signed 8 (s.get R.UPD_T_WARN_CELSIUS)
  let shed := signed 8 (s.get R.UPD_T_SHED_CELSIUS)
  if th = 0 && warn ≤ tj then
    ((s.enterThermal 1 tj).emit (.pin thermPin false)).log Unit.upd 0 Sev.warn Ev.thermal 1 (unsigned 8 tj)
  else if th = 1 && tj < warn - 3 then (s.enterThermal 0 tj).emit (.pin thermPin true)
  else if th = 1 && shed ≤ tj then
    (((s.enterThermal 2 tj).setShed (if s.isSet R.UPD_CTRL_ENABLE then 4 else 0)).log Unit.upd 0 Sev.warn Ev.thermal 2 (unsigned 8 tj))
  else if th = 2 && tj < shed - 3 then s.enterThermal 1 tj
  else s

/-- THERMAL_SAMPLE (R446, R447). -/
def execThermalSample (sensors : List Byte) (s : State) : Result :=
  let sensors := sensors.take 40
  if sensors.isEmpty then .next s
  else
    let r := hottest sensors 0
    let s := ((s.putSensors 0 sensors).put R.UPD_TJ_CELSIUS (unsigned 8 r.1)).put R.UPD_TJ_SENSOR r.2
    if s.get R.UPD_STATUS_THERMAL = 3 then .next s
    else
      let hot := signed 8 (s.get R.UPD_T_TRIP_CELSIUS) ≤ r.1
      if hot && s.upd.tripOnce then .next (s.trip r.1 r.2)
      else .next ({ s with upd := { s.upd with tripOnce := hot } }.moveThermal r.1)

/-! ### Telemetry (R442, R579, R607, R608) -/

/-- The running tasks of an island. -/
def State.runningOf (s : State) (island : Nat) : List (Nat × Task) :=
  s.hts.slots.filter fun e => e.2.st == .running && unitIsland (e.2.unit / 4096) (e.2.unit % 4096) == island

/-- Attribute two microseconds of an island's power, in µW, to its running tasks, less its idle power; with none running
it is its idle power (R442). -/
def State.attribute (s : State) (island uw : Nat) : State :=
  match s.runningOf island with
  | [] =>
    if s.island island = .awake then { s with upd := { s.upd with idle := SMap.set 0 s.upd.idle island uw } } else s
  | ts =>
    let e := (uw - SMap.get 0 s.upd.idle island) * 2 / ts.length
    ts.foldl (fun (s : State) (x : Nat × Task) =>
      let s := s.setTask x.1 { x.2 with energy := x.2.energy + e }
      let sh := if x.2.shedding == .never then 0 else e
      { s with upd := { s.upd with tasks := s.upd.tasks + e, shed := s.upd.shed + sh } }) s

/-- Attribute the power of each island in turn. -/
def State.attributeAll (s : State) : Nat → List Nat → State
  | _, [] => s
  | i, uw :: l => (s.attribute i uw).attributeAll (i + 1) l

/-- The mean of a quantity over samples. -/
def meanOf (xs : List Nat) : Nat := xs.foldl (· + ·) 0 / max 1 xs.length

/-- The rails' registers from the samples of the last millisecond (R608). -/
def State.putRails (s : State) (l : List Nat) (rails : List (Nat × Nat)) : State :=
  l.foldl (fun (s : State) r =>
    let col := s.upd.samples.map fun x => x.2.getD r (0, 0)
    let s := s.put (R.UPD_RAIL_V_MILLIVOLTS r) (meanOf (col.map Prod.fst))
    let s := s.put (R.UPD_RAIL_I_MILLIAMPS r) (meanOf (col.map Prod.snd))
    let i := (rails.getD r (0, 0)).2
    if s.get (R.UPD_RAIL_IPEAK_MILLIAMPS r) < i then s.put (R.UPD_RAIL_IPEAK_MILLIAMPS r) i else s) s

/-- TELEMETRY_SAMPLE (R442, R579, R608): VIN in mV, each rail's mV and mA, each island's µW, and how the transfer's CRC
check ended (R576 row 4). -/
def execTelemetrySample (vin : Nat) (rails : List (Nat × Nat)) (islands : List Nat) (link : CheckResult) (s : State) : Result :=
  if s.isFenced Unit.link 1 then .next s
  else if link = .failed then .next (s.fenceOpen Unit.link 1 4)
  else
    let s := if link = .retried then s.retriedOpen Unit.link 1 4 else s
    let samples := ((vin, rails.take 8) :: s.upd.samples).take 500
    let pj := (rails.take 8).foldl (fun (v : Nat) x => v + x.1 * x.2) 0 * 2
    let upd := { s.upd with samples := samples, package := s.upd.package + pj, measured := true }
    let s := ({ s with upd := upd }.attributeAll 0 islands).put R.UPD_VIN_MILLIVOLTS (meanOf (samples.map Prod.fst))
    .next (s.putRails (List.range 8) rails)

/-- A write of UPD_RAIL_IPEAK sets it to the rail's current of the latest sample (R627). -/
def State.showIpeak (s : State) (rail : Nat) : State :=
  s.put (R.UPD_RAIL_IPEAK_MILLIAMPS rail) ((s.upd.samples.headD (0, [])).2.getD rail (0, 0)).2

/-- IPEAK_WRITE (R627): the peak becomes the rail's current sample. -/
def execIpeakWrite (who : Sender) (rail : Fin 8) (s : State) : Result :=
  s.access who (R.UPD_RAIL_IPEAK_MILLIAMPS rail).addr fun s => .next (s.showIpeak rail)

end Sys2Proof.Machine
end

