-- ==== Sys2Proof/Machine/Power.lean ====
section
/-! DEFINITION. Lull and device standby (spec/01_architecture.md, R28, R29; spec/13_scheduler_updraft.md, R439, R449). -/

namespace Sys2Proof.Machine

open Sys2Proof

/-! ### Lull (R28, R439) -/

/-- Whether every media port is disabled. -/
def State.portsOff (s : State) : Bool :=
  (List.range 8).all fun n => !(s.portNamed n && s.isSet (R.RLY_PnCTL_PORT_EN n) && s.isSet R.RLY_CTRL_ENABLE)

/-- Whether a ready task could be served by a unit. -/
def State.readyFor (s : State) (g i : Nat) : Bool := s.tasks.any fun e => e.2.st == .ready && s.couldServe g i e.2

/-- Whether an enabled DSP core has something under way of its own: a handler, a timer or a transfer. -/
def State.coreBusy (s : State) (c : Nat) : Bool :=
  let k := s.core c
  s.coreEnabled c && (k.mode != .take || k.timer.isSome || k.dma.any fun (e : Nat × DmaChannel) => e.2.desc.isSome)

/-- Whether an island's units have been without work for UPD_LULL_IDLE µs (R439). -/
def State.islandIdle (s : State) (i : Nat) : Bool :=
  let us := islandUnits i
  let idle := s.get R.UPD_LULL_IDLE_MICROSECONDS
  !us.isEmpty && idle != 0 && s.passed (SMap.get 0 s.hts.lastReady i) (idle * usCycles) &&
    us.all fun u => s.unitIdle u.1 u.2 && !s.readyFor u.1 u.2 && (u.1 != 4 || !s.coreBusy u.2)

/-- LULL_ENTRY (R28, R439). -/
def execLullEntry (island : Island) (s : State) : Result :=
  let i := island.val
  if s.island i != .awake then .next s
  else if s.islandIdle i || ((i = 1 || i = 2) && s.portsOff) then .next (s.setIsland i .lull)
  else .next s

/-- Whether a ready task of a unit's group is left to it because no awake unit of the group that could serve it is idle (R439). -/
def State.taskWakes (s : State) (g i : Nat) : Bool :=
  !s.unitFencedAt g i && s.unitEnabled g i && s.tasks.any fun e => e.2.st == .ready && s.couldServe g i e.2 &&
    (List.range (groupSize g)).all fun j => !(s.asks g j && s.couldServe g j e.2)

/-- LULL_WAKE (R28, R439, R484): a ready task, an enabled port, or an access to a block of the island, outside standby. -/
def execLullWake (island : Island) (cause : WakeCause) (s : State) : Result :=
  let i := island.val
  let due := s.isSet R.UPD_STATUS_AWAKE && match cause with
    | .task => (islandUnits i).any fun u => s.taskWakes u.1 u.2
    | .port => (i == 1 || i == 2) && !s.portsOff
    | .access => i == 1 || i == 2 || !(islandUnits i).isEmpty
  .next (if due then s.wake i else s)

/-- LULL_WAKE_DONE (R28, R29): the island is awake and may take work. -/
def execLullWakeDone (island : Island) (s : State) : Result :=
  let i := island.val
  match s.island i with
  | .waking _ =>
    if s.isSet R.UPD_STATUS_AWAKE then
      let s := s.setIsland i .awake
      .next (if i = 2 then s.dispatchCipher s.cpx.waiting.length else s)
    else .next s
  | _ => .next s

/-- Whether a HELD task that a cluster's kernels serve awaits a frame that begins within 25 µs (R439). -/
def State.prewakes (s : State) (cluster : Nat) : Bool :=
  s.tasks.any fun e =>
    let ahead := (e.2.eventArg + 2 ^ 32 - s.mxm.began % 2 ^ 32) % 2 ^ 32
    e.2.st == .held && e.2.evtPending && e.2.event == 1 && s.mxm.tfNext + ahead * mixFrameCycles ≤ s.cycle + 25 * usCycles &&
      (List.range 16).any fun c => s.couldServe 4 (cluster * 16 + c) e.2

/-- CLUSTER_PREWAKE (R439). -/
def execClusterPrewake (cluster : Fin 8) (s : State) : Result :=
  .next (if s.isSet R.UPD_STATUS_AWAKE && s.prewakes cluster then s.wake (41 + cluster.val) else s)

/-! ### Device standby (R449) -/

/-- The islands that standby gates: Fabric, Control and the HBM PHYs. -/
def standbyIslands : List Nat := [40, 49, 50, 51, 52, 53]

/-- A write of word `w`, with STANDBY = 1. -/
def State.standbyEnter (s : State) (w : Nat) : State :=
  if s.isSet R.UPD_CTRL_STANDBY then s
  else if s.portsOff && !(s.tasks.any fun e => e.2.st == .ready || e.2.st == .running) then
    let s := standbyIslands.foldl (fun (s : State) i => s.setIsland i .lull) s
    (s.putBit R.UPD_CTRL_STANDBY true).putBit R.UPD_STATUS_AWAKE false
  else (s.putBit R.UPD_STATUS_CFG_IGNORED true).log Unit.upd 0 Sev.note Ev.cfgIgnored 4 w

/-- A write of STANDBY = 0. -/
def State.standbyExit (s : State) : State :=
  if s.isSet R.UPD_CTRL_STANDBY then
    (standbyIslands.foldl (fun (s : State) i => s.wake i) s).putBit R.UPD_CTRL_STANDBY false
  else s

/-- STANDBY_ENTER (R449). -/
def execStandbyEnter (who : Sender) (s : State) : Result :=
  s.access who R.UPD_CTRL_ENABLE.addr fun s =>
  .next (s.standbyEnter (4 + s.get ⟨R.UPD_CTRL_ENABLE.addr, 0, 2⟩))

/-- STANDBY_EXIT (R449). -/
def execStandbyExit (who : Sender) (s : State) : Result :=
  s.access who R.UPD_CTRL_ENABLE.addr fun s =>
  .next s.standbyExit

/-- Every channel that was PRIMING or RUNNING enters PRIMING with nothing held, so that it gives fresh input only (R275, R449). -/
def State.primeSources (s : State) : State :=
  let l := s.mxm.sources.map fun (e : Nat × MixSource) => (e.1, if e.2.mode == .off then e.2 else ⟨.priming, e.2.rate, [], [], 0, 0⟩)
  let s := l.foldl (fun (s : State) (e : Nat × MixSource) => (s.put (R.MXM_SRC_CFG_STATE e.1) e.2.mode.code).put (R.MXM_SRC_CFG_FILL e.1) e.2.fifo.length) s
  s.withMxm fun m => { m with sources := l, tfNext := s.cycle }

/-- STANDBY_WAKE_DONE (R449): the device is awake, within 2.5 ms. -/
def execStandbyWakeDone (s : State) : Result :=
  if s.isSet R.UPD_STATUS_AWAKE || s.isSet R.UPD_CTRL_STANDBY then .next s
  else
    let s := (standbyIslands.filter fun i => s.island i != .lull).foldl (fun (s : State) i => s.setIsland i .awake) s
    .next (s.primeSources.putBit R.UPD_STATUS_AWAKE true)

end Sys2Proof.Machine
end

