-- ==== Sys2Proof/Machine/Sundog.lean ====
section
/-! DEFINITION. Sundog: probes, detectors and co-location groups (spec/10_sundog_beacon.md, R334 to R354). -/

namespace Sys2Proof.Machine

open Sys2Proof

/-! ### Modulator commands (R339, R340) -/

/-- MOD_START_WRITE (R340). -/
def execModStartWrite (who : Sender) (mod : Fin 256) (frame : Word) (s : State) : Result :=
  s.access who (R.SDG_MOD_START_FRAME mod).addr fun s =>
  .next (s.armBeacon mod frame.toNat)

/-- BEACON_FRAME_END (R339): once the last chip is sent. -/
def execBeaconFrameEnd (mod : Fin 256) (s : State) : Result :=
  let m := s.modulator mod
  .next (if m.sending && !m.falling && beaconSamples ≤ m.sent then s.endBeacon mod else s)

/-! ### Detectors (R341 to R344, R347) -/

/-- A detector channel. -/
def State.detector (s : State) (d : Nat) : Detector := SMap.get Detector.init s.sdg.dets d

/-- A level in steps of 0.05 dB below full scale as a code of 0.5 dB, 255 for any lower level. -/
def levelCode (l : Nat) : Nat := min 255 (roundDiv l 10)

/-- The receivers of a detector that are locked. -/
def Detector.lockedCount (d : Detector) : Nat := (d.locked.filter fun e => e.2.isSome).length

/-- The state with a detector replaced, and its STAT fields with it. -/
def State.setDetector (s : State) (n : Nat) (d : Detector) : State :=
  let s := { s with sdg := { s.sdg with dets := SMap.set Detector.init s.sdg.dets n d } }
  let s := (s.put (R.SDG_DET_STAT_FLOOR n) (levelCode d.floor)).put (R.SDG_DET_STAT_AGC n) d.agc
  let s := (s.putBit (R.SDG_DET_STAT_GATE n) d.gate).putBit (R.SDG_DET_STAT_FROZEN n) d.frozen.isSome
  s.put (R.SDG_DET_STAT_LOCKED n) d.lockedCount

/-- SRC and EN of a detector are written (R341): enabling it, or a changed SRC, seeds it. -/
def State.configDetector (s : State) (n src : Nat) (on : Bool) : State :=
  let fresh := on && (!s.isSet (R.SDG_DET_CFG_EN n) || s.get (R.SDG_DET_CFG_SRC n) != src)
  let s := (s.put (R.SDG_DET_CFG_SRC n) src).putBit (R.SDG_DET_CFG_EN n) on
  if fresh then s.setDetector n Detector.init else s

/-- DETECTOR_CONFIG (R341). -/
def execDetectorConfig (who : Sender) (det : Fin 1024) (source : BitVec 11) (on : Bool) (s : State) : Result :=
  s.access who (R.SDG_DET_CFG_SRC det).addr fun s =>
  .next (s.configDetector det source.toNat on)

/-- Whether a token is that of a probe whose acceptance period, 310 frames from its window's start, is open (R337, R338). -/
def State.tokenOpen (s : State) (token : Nat) : Bool :=
  s.sdg.probes.any fun p => p.token == token && (p.st == .sending || p.st == .collect) && s.mxm.next < p.window + 310

/-- The frame that the detectors read: the latest mixed. -/
def State.heardFrame (s : State) : Nat := s.mxm.next - 1

/-- The number whose bits a list holds, first bit most significant. -/
def bitsVal (l : List Bool) : Nat := l.foldl (fun v b => 2 * v + bnat b) 0

/-- Post a detector's event (R347), as far as the queue takes it, and what firmware makes of a detection (R338, R346): a token of no
open probe is stale, one of another module goes to the anchor's cascade control. -/
def State.sdgEvent (s : State) (type shift det rssi qual token : Nat) : State :=
  let q := s.get R.SDG_EVT_QUEUE_QUEUE
  if q = 0 then s
  else
    let r := s.post q 0 ([BitVec.ofNat 8 type, BitVec.ofNat 8 shift] ++ leBytes 2 det ++ leBytes 4 s.heardFrame ++
      [BitVec.ofNat 8 rssi, BitVec.ofNat 8 qual] ++ leBytes 6 token)
    if !r.2 then r.1.count R.C_SDG_EVT_DROP
    else
      let t := r.1
      if type = 1 && token / 2 ^ 40 != s.get R.TRK_MODULE_INDEX then t.emit (.firmware 10 [det, rssi, token])
      else if type = 1 && !s.tokenOpen token then t.bumpObj 0x620009 0
      else { t with sdg := { t.sdg with events := t.sdg.events ++ [⟨type, det, token, rssi, s.heardFrame⟩] } }

/-- The sync word as a receiver has it, latest bit first (R334). -/
def syncWord : List Bool := (bitsOf 16 0xF36A).reverse

/-- A receiver is unlocked. -/
def Detector.unlock (d : Detector) (shift : Nat) : Detector := { d with locked := SMap.set none d.locked shift none }

/-- A frame whose pass froze the AGC has ended: it releases (R343). -/
def Detector.releaseOf (d : Detector) (shift : Nat) : Detector :=
  match d.frozen with
  | some (f, _) => if f = shift then { d with frozen := none } else d
  | none => d

/-- A locked receiver decides a bit (R344). -/
def State.decideBit (s : State) (n : Nat) (shift : Nat) (r : Receiver) (b : Bool) (rssi : Nat) : State :=
  let d := s.detector n
  let bits := b :: r.bits
  match r.rssi with
  | none =>
    if bits.take 16 == syncWord then s.setDetector n { d with locked := SMap.set none d.locked shift (some ⟨r.qual, [], some (min 255 rssi)⟩) }
    else if 24 ≤ bits.length then
      (((s.count R.C_SDG_SYNC_MISS).spent).sdgEvent 3 shift n (s.free 256) r.qual 0).setDetector n (d.unlock shift)
    else s.setDetector n { d with locked := SMap.set none d.locked shift (some { r with bits := bits }) }
  | some code =>
    if bits.length < 56 then s.setDetector n { d with locked := SMap.set none d.locked shift (some { r with bits := bits }) }
    else
      let frame := bits.reverse
      let good := crc8 (frame.take 48) = bitsVal (frame.drop 48)
      let s := s.count (if good then R.C_SDG_DETECTS else R.C_SDG_CRC_FAIL)
      (s.sdgEvent (if good then 1 else 2) shift n code r.qual (bitsVal (frame.take 48))).setDetector n ((d.unlock shift).releaseOf shift)

/-- What one receiver finds in a frame (R344): a qualifier that reaches QUAL_MIN locks it and freezes the AGC. -/
def State.receiverFinds (s : State) (n : Nat) (search : Bool) (shift : Nat) (f : RxFinding) : State :=
  let d := s.detector n
  match f, SMap.get none d.locked shift with
  | .qualifier q, none =>
    if search && s.get R.SDG_QUAL_MIN_CODE ≤ q then
      (s.count R.C_SDG_LOCKS).setDetector n { d with locked := SMap.set none d.locked shift (some ⟨min 255 q, [], none⟩),
                                                     frozen := d.frozen <|> some (shift, s.cycle) }
    else s
  | .decided b rssi, some r => s.decideBit n shift r b rssi
  | _, _ => s

/-- Sundog stops (R339, R340, R351, R353): modulators as under R340, every receiver unlocked, every probe aborted. -/
def State.stopSdg (s : State) : State :=
  let s := s.sdg.dets.foldl (fun (s : State) e => s.setDetector e.1 { e.2 with locked := [], frozen := none }) s.stopBeacons
  (s.sdg.probes.map Probe.leg).foldl State.abortProbe s

/-- BEACON_FRAME_START (R335, R340, R351): at sample 0 of the START frame. -/
def execBeaconFrameStart (start : BeaconStart) (s : State) : Result :=
  if !s.sdgRuns || !s.beaconDue start.mod then .next s
  else
    match start.check with
    | .pass => .next (s.startBeacon start.mod)
    | .retried => .next ((s.startBeacon start.mod).retriedOpen Unit.sdg 0 10)
    | .failed => .next ((s.fenceOpen Unit.sdg 0 10).stopSdg)

/-- A detector's frame (R342, R343): gate, floor, AGC and receivers. `energy` is the band energy in steps of 0.05 dB below 0 dBFS;
the gain of an AGC that is neither held nor frozen is a free value. -/
def State.detectFrame (s : State) (n energy : Nat) (fs : List (Fin 31 × RxFinding)) : State :=
  let d := s.detector n
  let gate := energy ≤ min (s.get R.SDG_DET_THRESH_CODE * 10) (d.floor - 20 * s.get R.SDG_FLOOR_MARGIN_DB)
  let idle := !gate && d.lockedCount = 0
  let floor := if !idle then d.floor else if d.floor < energy then energy else d.floor - 1
  let moves := !idle && d.frozen.isNone
  let s' := if moves then s.spent else s
  let s' := (s'.put (R.SDG_DET_ENERGY_CODE n) (levelCode energy)).setDetector n
    { d with floor := floor, gate := gate, agc := if moves then s.free 121 else d.agc }
  fs.foldl (fun (s : State) f => s.receiverFinds n (!idle) f.1 f.2) s'

/-- DETECTOR_FRAME (R342, R351). -/
def execDetectorFrame (det : Fin 1024) (energy : Nat) (findings : List (Fin 31 × RxFinding)) (check : CheckResult) (s : State) : Result :=
  if !s.sdgRuns || !s.isSet (R.SDG_DET_CFG_EN det) then .next s
  else
    match check with
    | .pass => .next (s.detectFrame det energy findings)
    | .retried => .next ((s.detectFrame det energy findings).retriedOpen Unit.sdg 0 10)
    | .failed => .next ((s.fenceOpen Unit.sdg 0 10).stopSdg)

/-- AGC_RELEASE (R343): 3 s after the AGC froze. -/
def execAgcRelease (det : Fin 1024) (s : State) : Result :=
  let d := s.detector det
  match d.frozen with
  | some (_, c) => .next (if s.passed c (3 * secCycles) then s.setDetector det { d with frozen := none } else s)
  | none => .next s

/-! ### Probes (R337 to R339, R345, R346) -/

/-- PROBE_NOW (R339, R352): a request for a probe of a leg, by a client or by firmware at a join or in a sweep; `fullband` says whether
the leg can emit (R345). -/
def execProbeNow (who : Sender) (leg : Fin 16384) (fullband : Bool) (s : State) : Result :=
  let answer := fun (s : State) code => Host.Outcome.next (s.emit (.done who code [leg.val]))
  if s.legLimit ≤ leg then answer s St.objInstance
  else if !s.sdgRuns then answer s St.sdgOffline
  else if (s.probeOf leg).isSome then answer s St.sdgProbeBusy
  else if !fullband then answer s St.sdgNotFullband
  else answer { s with sdg := { s.sdg with probes := s.sdg.probes ++ [⟨leg, s.confOf leg, .queued, 0, 0, 0, 0⟩] } } St.ok

/-- The lowest modulator that no probe has and that sends nothing. -/
def State.freeModulator (s : State) : Option Nat :=
  (List.range 256).find? fun m => (s.modulator m).stateCode == 0 && !(s.sdg.probes.any fun p => p.st != .queued && p.mod == m)

/-- The SHIFT that the fewest running probes of a conference use, the lowest on a tie (R339). -/
def State.freshShift (s : State) (conf : Nat) : Nat :=
  let uses := fun k => (s.sdg.probes.filter fun p => p.st != .queued && p.conf == conf && s.get (R.SDG_MOD_CTRL_SHIFT p.mod) == k).length
  (List.range 31).foldl (fun b k => if uses k < uses b then k else b) 0

/-- PROBE_ARM (R339): the first queued probe takes a free modulator: nonce, TOKEN, SHIFT and LEVEL, the leg's private bus with its
BEACON, the bus's encode, and START two frames on from the next not yet mixed. -/
def execProbeArm (nonce : BitVec 26) (bus : Fin 4096) (parent : Nat) (exclusions : List Nat) (gain : Nat) (encode : List Byte) (s : State) : Result :=
  match s.sdg.probes.find? fun p => p.st == .queued, s.freeModulator with
  | some p, some m =>
    let token := (s.rosterId p.leg) * 2 ^ 26 + nonce.toNat
    let start := s.mxm.next + 2
    let (t, r1) := s.storeSet bus (makeSet 2 parent gain (0x8000 + m) (exclusions.map fun e => (e, 0)))
    let (t, r2, _) := t.commitGroup 1 [bus.val] m (some (start % 2 ^ 32, 0))
    if r1 != 0 || r2 != 0 || !s.sdgRuns then .next s
    else
      let t := ((t.put (R.SDG_MOD_TOKEN_LO_TOKEN m) token).put (R.SDG_MOD_TOKEN_HI_TOKEN m) (token / 2 ^ 32)).put (R.SDG_MOD_CTRL_SHIFT m) (s.freshShift p.conf)
      let t := (t.put (R.SDG_MOD_CTRL_LEVEL m) (s.obj 0x620004 0 60)).putBit (R.SDG_MOD_CTRL_EN m) true
      let t := (t.createTask encode).1
      let t := { t with sdg := { t.sdg with probes := t.sdg.probes.map fun (q : Probe) =>
        if q.leg = p.leg then { q with st := .armed, mod := m, token := token, window := start, bus := bus.val } else q } }
      .next ((t.armBeacon m start).takeDecode p.leg 4 0)
  | _, _ => .next s

/-- The two legs of a probe have been tested against each other (R339). -/
def State.noteTest (s : State) (a b : Nat) : State :=
  { s with sdg := { s.sdg with tests := SMap.insert s.sdg.tests (pairKey a b) s.cycle } }

/-- What a probe of a leg says of one other leg of its conference (R346). -/
def State.judgeOne (s : State) (p : Probe) (l : Listener) : State :=
  let mine := s.sdg.events.filter fun e => e.det == l.det && p.window ≤ e.at_
  let found := mine.filter fun e => e.type == 1 && e.token == p.token
  if l.leg = p.leg then (List.range found.length).foldl (fun (s : State) _ => s.bumpObj 0x621006 p.leg) s
  else if s.confOf l.leg != p.conf || !l.heard then s
  else if found.any fun e => e.rssi ≤ s.obj 0x620005 0 120 then (s.setLink p.leg l.leg true).noteTest p.leg l.leg
  else if found.isEmpty && mine.any fun e => e.type == 2 then s
  else (s.setLink p.leg l.leg false).noteTest p.leg l.leg

/-- PROBE_JUDGE (R346): 100 ms after the probe's window of 300 frames ends. -/
def execProbeJudge (leg : Fin 16384) (listeners : List Listener) (s : State) : Result :=
  match s.probeOf leg with
  | some p =>
    if p.st != .collect || s.mxm.next < p.window + 310 then .next s
    else
      let s := listeners.foldl (fun (s : State) l => s.judgeOne p l) s
      .next ((((s.putBit (R.SDG_MOD_CTRL_EN p.mod) false).dropProbe leg).returnLeg p))
  | none => .next s

/-- PROBE_ABORT (R339): the leg has left, its downlink has left fullband, or the SDG is fenced or disabled. -/
def execProbeAbort (leg : Fin 16384) (s : State) : Result := .next (s.abortProbe leg)

/-! ### Co-location groups (R348) -/

/-- Whether two legs belong together (R348): the same nonzero room, or a link between legs without a room. -/
def State.together (s : State) (a b : Nat) : Bool :=
  let ra := s.obj 0x621004 a 0
  let rb := s.obj 0x621004 b 0
  if ra != 0 || rb != 0 then ra == rb else s.sdg.links.contains (pairOf a b)

/-- One round: each leg takes the lowest label among the legs it belongs with. -/
def State.spread (s : State) (labels : List (Nat × Nat)) : List (Nat × Nat) :=
  labels.map fun x => (x.1, labels.foldl (fun m y => if s.together x.1 y.1 then min m y.2 else m) x.2)

/-- The labels after `n` rounds. -/
def State.spreadAll (s : State) : Nat → List (Nat × Nat) → List (Nat × Nat)
  | 0, l => l
  | n + 1, l => s.spreadAll n (s.spread l)

/-- COLOC_GROUP_APPLY (R348, R354): the groups of a conference's legs, each named by its lowest roster identifier, and the swap that
brings the groups' sets, which firmware has stored, into the mix at the next frame boundary. -/
def execColocGroupApply (conf : Fin 4096) (buses : List Nat) (tag : Nat) (s : State) : Result :=
  let legs := s.legsOf conf
  let labels := s.spreadAll legs.length (legs.map fun l => (l, s.rosterId l))
  let t := labels.foldl (fun (t : State) x =>
    let alone := !(labels.any fun y => y.1 != x.1 && y.2 == x.2)
    t.setObj 0x621003 x.1 0xFFFFFFFF (if alone then 0xFFFFFFFF else x.2)) s
  .next (if buses.isEmpty then t else (t.commitGroup buses.length buses (tag % 65536) none).1)

end Sys2Proof.Machine
end

