-- ==== Sys2Proof/Machine/TimeBase.lean ====
section
/-! DEFINITION. The time base and IEEE 1588 timestamps (spec/04_egress_time.md, R152 to R162, R167). -/

namespace Sys2Proof.Machine

open Sys2Proof

/-- Whether a step of device time is allowed (R154). -/
def State.stepAllowed (s : State) : Bool := !s.isSet R.TIM_CTRL_TIME_VALID || s.isSet R.TIM_CTRL_STEP_ALLOWED

/-- A refused step: STEP_REFUSED and an entry of severity WARN (R154). -/
def State.refuseStep (s : State) (requested cmd : Nat) : State :=
  (s.putBit R.TIM_STATUS_STEP_REFUSED true).log Unit.tim 0 Sev.warn Ev.stepRefused requested cmd

/-- An applied step to `ns` nanoseconds of device time and a fraction: the epoch, the entry of severity NOTE and the gates (R141, R154,
R155). -/
def State.applyStep (s : State) (ns frac : Nat) : State :=
  let old := s.time64
  let sec := ns / 1000000000 % 2 ^ 48
  let pps := if ns % 1000000000 = 0 then s.time.ppsSec else sec
  let s := { s with time := { s.time with sec := sec, ns := ns % 1000000000, frac := frac, ppsSec := pps } }
  let s := s.put R.TIM_STATUS_EPOCH (s.get R.TIM_STATUS_EPOCH + 1)
  let s := s.log Unit.tim 0 Sev.note Ev.timeStep old s.time64
  (List.range 8).foldl State.gatesAfterStep s

/-- STEP_CMD 1 (R154): the absolute value of TIM_STEP_SEC and TIM_STEP_NS. -/
def State.stepAbsolute (s : State) : State :=
  let w := s.get R.TIM_STEP_NS_VALUE
  let ns := w % 2 ^ 30
  let sec := s.get R.TIM_STEP_SEC_LO_SEC + s.get R.TIM_STEP_SEC_HI_SEC * 2 ^ 32
  if !s.stepAllowed || 999999999 < ns then s.refuseStep (sec * 1000000000 + ns) 1
  else s.applyStep (sec * 1000000000 + ns) 0

/-- STEP_CMD 2 (R154): the signed offset of TIM_STEP_NS. -/
def State.stepOffset (s : State) : State :=
  let w := s.get R.TIM_STEP_NS_VALUE
  let t : Int := (s.time.sec * 1000000000 + s.time.ns : Nat) + signed 32 w
  if !s.stepAllowed || t < 0 then s.refuseStep (unsigned 64 (signed 32 w)) 2 else s.applyStep t.toNat s.time.frac

/-- STEP_ABSOLUTE (R154). -/
def execStepAbsolute (who : Sender) (s : State) : Result :=
  s.access who R.TIM_STEP_CMD_CMD.addr fun s =>
  .next s.stepAbsolute

/-- STEP_OFFSET (R154). -/
def execStepOffset (who : Sender) (s : State) : Result :=
  s.access who R.TIM_STEP_CMD_CMD.addr fun s =>
  .next s.stepOffset

/-- A write of TIM_SLEW (R153). -/
def State.writeSlew (s : State) (v : Nat) : State :=
  let x := signed 32 v
  if x < -200000 then (s.put R.TIM_SLEW_PPB (unsigned 32 (-200000))).putBit R.TIM_STATUS_SLEW_CLAMPED true
  else if 200000 < x then (s.put R.TIM_SLEW_PPB 200000).putBit R.TIM_STATUS_SLEW_CLAMPED true
  else s.put R.TIM_SLEW_PPB v

/-- TIM_SLEW_WRITE (R153). -/
def execTimSlewWrite (who : Sender) (value : Word) (s : State) : Result :=
  s.access who R.TIM_SLEW_PPB.addr fun s =>
  .next (s.writeSlew value.toNat)

/-- Device time shown in TIM_NS and the seconds words (R158). -/
def State.showTime (s : State) : State :=
  ((s.put R.TIM_NS_NS s.time.ns).put R.TIM_SEC_LO_SEC s.time.sec).put R.TIM_SEC_HI_SEC (s.time.sec / 2 ^ 32)

/-- TIM_NS_READ (R158): the read latches the seconds words. -/
def execTimNsRead (who : Sender) (s : State) : Result :=
  s.accessRead who R.TIM_NS_NS.addr fun s =>
  .next (s.showTime.emit (.readDone who R.TIM_NS_NS.addr s.time.ns))

/-- Whether PPS_DIR changed within the last 100 ns (R612). -/
def State.ppsTurning (s : State) : Bool := match s.time.dirAt with | some c => s.cycle ≤ c + 150 | none => false

/-- PPS_EDGE (R157): a rising edge on the PPS ball while it is an input. -/
def execPpsEdge (s : State) : Result :=
  let s := s.putBit R.FUS_PAD_IN_PPS true
  if s.isSet R.TIM_CTRL_PPS_DIR || s.ppsTurning then .next s
  else .next ({ s.put R.TIM_PPS_CAPT_NS s.time.ns with time := { s.time with captSec := s.time.sec } }.putBit
    R.TIM_STATUS_PPS_SEEN true)

/-- The number of the PPS output among the pins of `Output.pin`. -/
def pinPps : Nat := 0

/-- PPS_OUT_RISE (R157): a whole second of device time has been reached since the last edge. A pulse that is still high, after a step of
device time, has no new edge and keeps its width. -/
def execPpsOutRise (s : State) : Result :=
  if s.isSet R.TIM_CTRL_PPS_DIR && s.time.sec != s.time.ppsSec && s.time.ppsHigh.isSome then
    .next { s with time := { s.time with ppsSec := s.time.sec } }
  else if s.isSet R.TIM_CTRL_PPS_DIR && s.time.sec != s.time.ppsSec then
    .next ({ s with time := { s.time with ppsSec := s.time.sec, ppsHigh := some s.cycle } }.emit (.pin pinPps true))
  else .next s

/-- PPS_OUT_FALL (R157): PPS_WIDTH ms of fabric cycles have passed since the rising edge. -/
def execPpsOutFall (s : State) : Result :=
  match s.time.ppsHigh with
  | none => .next s
  | some c =>
    if s.passed c (s.get R.TIM_CTRL_PPS_WIDTH * msCycles) then
      .next ({ s with time := { s.time with ppsHigh := none } }.emit (.pin pinPps false))
    else .next s

/-- The transmit timestamps waiting on a port, oldest first. -/
def State.txtsOf (s : State) (n : Nat) : List TxTs := SMap.get [] s.time.txts n

/-- The state with a port's transmit timestamps replaced, its head shown in the port's registers (R167). -/
def State.setTxts (s : State) (n : Nat) (l : List TxTs) : State :=
  let s := { s with time := { s.time with txts := SMap.set [] s.time.txts n l } }
  match l with
  | [] => s.setReg (R.TIM_Pn_TXTS_ID_VALID n).addr 0
  | h :: _ =>
    let s := (s.put (R.TIM_Pn_TXTS_NS_NS n) h.ns).put (R.TIM_Pn_TXTS_ID_SEQUENCE_ID n) h.seqId
    let s := (s.put (R.TIM_Pn_TXTS_ID_DOMAIN n) h.domain).put (R.TIM_Pn_TXTS_ID_MSG_TYPE n) h.msg
    s.putBit (R.TIM_Pn_TXTS_ID_VALID n) true

/-- A read of TXTS_NS latches the seconds of the FIFO's head (R158, R167). -/
def State.latchTxts (s : State) (n : Nat) : State :=
  match s.txtsOf n with
  | [] => s
  | h :: _ => (s.put (R.TIM_Pn_TXTS_SEC_LO_SEC n) h.sec).put (R.TIM_Pn_TXTS_SEC_HI_SEC n) (h.sec / 2 ^ 32)

/-- A time in nanoseconds moved by a signed board delay (R161). -/
def shiftNs (t : Nat) (d : Int) : Nat := ((t : Int) + d).toNat

/-- Where a frame carries its IEEE 1588 message, and the place of the UDP header, if it has one, with whether it is over IPv6 (R160). -/
def ptpAt (f : List Byte) : Option (Nat × Option (Nat × Bool)) :=
  let l3 := if be f 12 2 = 0x8100 then 18 else 14
  let et := be f (l3 - 2) 2
  if et = 0x88F7 then some (l3, none)
  else if et = 0x0800 then some (l3 + 28, some (l3 + 20, false))
  else if et = 0x86DD then some (l3 + 48, some (l3 + 40, true))
  else none

/-- A frame with the checksum of its UDP datagram as a one-step event leaves it: 0 over IPv4, recomputed over IPv6 (R161). -/
def ptpChecksum (f : List Byte) : Option (Nat × Bool) → List Byte
  | none => f
  | some (u, false) => patch f (u + 6) [0, 0]
  | some (u, true) =>
    let f := patch f (u + 6) [0, 0]
    let n := be f (u + 4) 2
    let ck := checksum (slice f (u - 32) u ++ natToOs 4 n ++ [0, 0, 0, 17] ++ slice f u (u + n))
    patch f (u + 6) (natToOs 2 (if ck = 0 then 65535 else ck))

/-- A frame whose IEEE 1588 message, at `m`, has a message type, a domain and a sequence number (R161). -/
def ptpMessage (f : List Byte) (m : Nat) (type : BitVec 4) (domain : Byte) (seqId : BitVec 16) : List Byte :=
  patch (patch (patch f m [f.getD m 0 &&& 0xF0 ||| type.setWidth 8]) (m + 4) [domain]) (m + 30) (natToOs 2 seqId.toNat)

/-- PTP_EVENT_TX (R161): a frame with an event message leaves a port. A Sync flagged for one-step has its originTimestamp written; any other
has its transmit time pushed to the port's FIFO of 64. The message's fields lie where IEEE 1588-2019 has them (log entry 113). -/
def execPtpEventTx (port : Fin 8) (oneStep : Bool) (frame : List Byte) (msgType : BitVec 4) (domain : Byte) (seqId : BitVec 16)
    (s : State) : Result :=
  match ptpAt frame with
  | none => .next s
  | some (m, udp) =>
    let type := msgType.toNat
    let frame := ptpMessage frame m msgType domain seqId
    if !s.portRuns port || 4 ≤ type || frame.length < m + 44 then .next s
    else if oneStep && type = 0 then
      let stamp := natToOs 6 s.time.sec ++ natToOs 4 s.time.ns
      .next (s.sendFrame port 0 (frame.length + 4) (ptpChecksum (patch frame (m + 34) stamp) udp))
    else
      let s := s.sendFrame port 0 (frame.length + 4) frame
      if 64 ≤ (s.txtsOf port).length then .next (s.bump (R.TIM_Pn_TXTS_OVF_COUNT port))
      else
        let t := shiftNs (s.time.sec * 1000000000 + s.time.ns) (signed 16 (s.get (R.TIM_Pn_TX_LAT_NS port)))
        .next (s.setTxts port (s.txtsOf port ++
          [⟨t % 1000000000, t / 1000000000 % 2 ^ 48, seqId.toNat, domain.toNat, type⟩]))

/-- TXTS_POP (R167): the read of TXTS_ID returns the head and pops it. -/
def execTxtsPop (who : Sender) (port : Fin 8) (s : State) : Result :=
  s.accessRead who (R.TIM_Pn_TXTS_ID_VALID port).addr fun s =>
  let a := (R.TIM_Pn_TXTS_ID_VALID port).addr
  .next ((s.setTxts port (s.txtsOf port).tail).emit (.readDone who a (s.reg a).toNat))

end Sys2Proof.Machine
end

