-- ==== Sys2Proof/Machine/RegisterWrite.lean ====
section
/-! DEFINITION. Writes of registers (spec/00_scope.md, R16 to R19; spec/15_host_interface.md, R482 to R485): the field types, the checks of
the Effect columns, and the actions of the registers that have some. -/

namespace Sys2Proof.Machine

open Sys2Proof

/-! ### Where a field belongs (R17, R591) -/

/-- Where the element of an array that a field stands in begins. -/
def FieldAt.element (f : FieldAt) : Nat := f.blk.base + f.n * f.blk.stride + f.row.abase + f.i * f.row.s1

/-- The bit that enables what the field belongs to. -/
def FieldAt.enableFld (f : FieldAt) : Option Fld :=
  match f.row.en with
  | some o => some ⟨f.element + o, 0, 1⟩
  | none => f.blk.en.map fun e => ⟨f.blk.base + f.n * f.blk.stride + e.1, e.2, 1⟩

/-- The CFG_IGNORED bit of what the field belongs to. -/
def FieldAt.ignoredFld (f : FieldAt) : Option Fld :=
  match f.row.ig with
  | some e => some ⟨f.element + e.1, e.2, 1⟩
  | none => f.blk.ig.map fun e => ⟨f.blk.base + f.n * f.blk.stride + e.1, e.2, 1⟩

/-- The unit code and instance of a register (R590). -/
def FieldAt.unit (f : FieldAt) : Nat × Nat :=
  let b := f.blk.base
  if b = 0x200000 then (Unit.rly, if f.row.en.isSome then f.i else 8)
  else if b = 0x300000 then (Unit.bpm, if f.row.c1 = 6 || f.row.c1 = 2048 then f.i else 0)
  else if b = 0x400000 then (Unit.egs, f.i)
  else if b = 0x480000 then (Unit.egs, f.n)
  else if b = 0x500000 then (Unit.tim, 0)
  else if b = 0x600000 || b = 0x700000 then (Unit.cpx, 0)
  else if b = 0x800000 then (Unit.vde, f.n)
  else if b = 0x900000 then (Unit.vee, f.n)
  else if b = 0xA00000 then (Unit.cmp, f.n)
  else if b = 0xA80000 then (Unit.tsp, 0)
  else if b = 0xB00000 then (Unit.mxm, 0)
  else if b = 0xB80000 then (Unit.sdg, 0)
  else if b = 0xC00000 then (Unit.dsc, f.n * 16 + f.i)
  else if b = 0xD00000 then (Unit.hts, 0)
  else if b = 0xD80000 then (Unit.upd, 0)
  else if b = 0xE00000 then (Unit.hbm, f.n)
  else if b = 0xE40000 then (Unit.hbm, 4)
  else if b = 0xE80000 then (Unit.trk, f.i)
  else if b = 0x100000 then (Unit.mbx, f.i)
  else if b = 0x80000 then (Unit.hif, f.n)
  else if b = 0xF00000 then (Unit.sql, 0)
  else if b = 0xF80000 then (Unit.fus, 0)
  else (Unit.hif, 0)

/-- Whether what the field belongs to is enabled; a host queue's ENABLE is that of its stream queue (R487). -/
def State.fieldEnabled (s : State) (f : FieldAt) : Bool :=
  if f.blk.base = 0x80000 && f.row.en.isSome then s.isSet (R.BPM_Qq_CFG_ENABLE (hostQueue f.n f.i))
  else match f.enableFld with
    | some e => s.isSet e
    | none => false

/-! ### Values that are taken -/

/-- What becomes of a value written to a field: it is stored, or refused with CFG_IGNORED. -/
inductive Taken where
  | store (v : Nat)
  | keep
  | refuse
  deriving DecidableEq, Repr

/-- Taken where a condition holds. -/
def takeIf (c : Bool) (v : Nat) : Taken := if c then .store v else .refuse

/-- The field's address and place. -/
def FieldAt.fld (f : FieldAt) (a : Nat) : Fld := ⟨a, f.row.lsb, f.row.width⟩

/-- The registers whose accepted values a rule of their own gives. -/
def State.specialTake (s : State) (f : FieldAt) (a v : Nat) : Taken :=
  let b := f.blk.base
  if b = 0x300000 then
    if a % 32 = 0 then takeIf (v == 0 || (272 ≤ f.i && f.i < 784)) v
    else takeIf (16 ≤ v && v ≤ (queueOwner f.i).2) v
  else if b = 0xB00000 then .store (unsigned 32 (max (-4294967) (min 4294967 (signed 32 v))))
  else if a = R.CPX_SCA_LEVEL_LEVEL.addr then takeIf (2 ≤ v || !s.isSet R.FUS_STATUS_TRUNK_LOCK) v
  else if a = R.TRK_SUITE_GCM128.addr then takeIf (v == 0 || !s.isSet R.FUS_STATUS_TRUNK_LOCK) v
  else if a = R.UPD_T_WARN_CELSIUS.addr then takeIf (70 ≤ v && v ≤ 95) v
  else if a = R.UPD_T_SHED_CELSIUS.addr then takeIf (s.get R.UPD_T_WARN_CELSIUS + 2 ≤ v && v ≤ 102) v
  else if a = R.HBM_MAP_CTRL_ENABLE.addr then if v = 1 then .store 1 else .keep
  else if a = R.HBM_BAR2_WIN_LO_ADDR.addr then takeIf (s.bar2WindowOk (v * 2 ^ 28 + s.get R.HBM_BAR2_WIN_HI_ADDR * 2 ^ 32)) v
  else if a = R.HBM_BAR2_WIN_HI_ADDR.addr then takeIf (s.bar2WindowOk (s.get R.HBM_BAR2_WIN_LO_ADDR * 2 ^ 28 + v * 2 ^ 32)) v
  else if a = (R.HBM_REG_BASE_UNITS f.i).addr then takeIf (v + s.get (R.HBM_REG_SIZE_UNITS f.i) ≤ 16384) v
  else if a = (R.HBM_REG_SIZE_UNITS f.i).addr then takeIf (s.get (R.HBM_REG_BASE_UNITS f.i) + v ≤ 16384) v
  else if b = 0x100000 then takeIf ((v / 4096 ≤ 1) && v % 4096 < 16) v
  else if b = 0x80000 then
    if a = (R.HIF_Fn_VEC2_DEV_EVENT f.n).addr then if f.n = 0 then .store v else .keep
    else if f.row.lsb = 3 then if f.i < 16 then .store v else .keep
    else if f.row.lsb = 4 then if 16 ≤ f.i then .keep else takeIf (v != 3) v
    else if f.row.lsb = 6 then if 16 ≤ f.i && f.n = 0 then .store v else .keep
    else .keep
  else .store v

/-- A value by the field's check. -/
def State.take (s : State) (f : FieldAt) (a v : Nat) : Taken :=
  match f.row.chk with
  | .any => .store v
  | .range lo hi => takeIf (lo ≤ v && v ≤ hi) v
  | .clamp hi => .store (min v hi)
  | .zeroOr lo hi => takeIf (v == 0 || (lo ≤ v && v ≤ hi)) v
  | .special => s.specialTake f a v

/-- What a write of word `w` makes of one field, `old` being what the field holds and `en` whether what it belongs to was enabled
before the write (R17, R18). -/
def State.writeField (s : State) (f : FieldAt) (en : Bool) (a old w : Nat) : Taken :=
  let v := w / 2 ^ f.row.lsb % 2 ^ f.row.width
  match f.row.ty with
  | .ro => .keep
  | .wo => .keep
  | .w1c => .store (old - (old &&& v))
  | .rw => s.take f a v
  | .rwv => s.take f a v
  | .rwd => if en then (if v = old then .keep else .refuse) else s.take f a v
  | .rwm =>
    let m := w / 2 ^ (16 + f.row.lsb) % 2 ^ f.row.width
    .store ((old - (old &&& m)) + (v &&& m))

/-- A field's value is stored, in all three copies where it has them (R17). -/
def State.storeField (s : State) (f : FieldAt) (a v : Nat) : State :=
  if f.row.ty = .rwv then s.putVoted (f.fld a) v else s.put (f.fld a) v

/-- A refused write sets CFG_IGNORED and is logged (R17, R591); one of a stream queue's registers sets the queue's bit and the block's
(R126, R128). -/
def State.refuseWrite (s : State) (f : FieldAt) (a w : Nat) : State :=
  let s := match f.ignoredFld with
    | some b => s.putBit b true
    | none => s
  let s := if f.blk.base = 0x300000 then s.putBit R.BPM_STATUS_CFG_IGNORED true else s
  s.log f.unit.1 f.unit.2 Sev.note Ev.cfgIgnored (a - f.blk.base - f.n * f.blk.stride) w

/-- Every field of a register takes its part of a word, judged on the register as it stood (R18); answers whether any refused its own. -/
def State.storeFields (s was : State) (a w : Nat) : List FieldAt → State × Option FieldAt
  | [] => (s, none)
  | f :: fs =>
    match was.writeField f (was.fieldEnabled f) a (was.get (f.fld a)) w with
    | .store v => (s.storeField f a v).storeFields was a w fs
    | .keep => s.storeFields was a w fs
    | .refuse => let r := s.storeFields was a w fs; (r.1, some f)

/-- A write of a register by the types of its fields: word `w`, of which the fields take `v`. -/
def State.typedWriteOf (s : State) (a w v : Nat) : State :=
  let r := s.storeFields s a v (fieldsAt a)
  match r.2 with
  | some f => r.1.refuseWrite f a w
  | none => r.1

/-- A write of a register by the types of its fields. -/
def State.typedWrite (s : State) (a w : Nat) : State := s.typedWriteOf a w w

/-! ### Registers whose write is an action -/

/-- The state a command leads to. -/
def resultState (s : State) : Result → State
  | .next t => t
  | _ => s

/-- The index of an address in an array of `n` registers. -/
def inArray (a base n stride : Nat) : Option Nat :=
  if base ≤ a && (a - base) % stride = 0 && (a - base) / stride < n then some ((a - base) / stride) else none

/-- A command of the FCT engine by its OP; others give BAD_ARG (R72, R97). -/
def State.fctOp (s : State) (who : Sender) (op : Nat) : State :=
  if 1 ≤ op && op ≤ 8 then s.fctIssue who op else s.fctCommand who op fun s => (s, ⟨op, 4, 0, 0, none⟩)

/-- A command of the KSL port by its OP; others give CMD_BAD (R378). -/
def State.kslOp (s : State) (who : Sender) (op : Nat) : State :=
  let r := if op = 1 then execWrite who s else if op = 2 then execErase who s else if op = 3 then execZeroize who s
    else if op = 4 then execZeroizeAll who s else if op = 5 then execRetireOld who s else if op = 6 then execKslStatus who s
    else if op = 7 then execCtxInit who s else if op = 8 then execCtxClear who s
    else .next (s.kslCommand who op fun s => (s, some St.cmdBad))
  resultState s r

/-- A command of the PKA by its OP (R388): 1 to 5 are the commands VERIFY, SIGN, KEYGEN, ECDH and DERIVE_TO_SLOT, which carry the arguments
whose places in the window the spec does not give; others give CMD_BAD. -/
def State.pkaOp (s : State) (who : Sender) (op : Nat) : State :=
  if 1 ≤ op && op ≤ 5 then s else s.pkaCommand who fun s => (s, ⟨St.cmdBad, []⟩)

/-- A write to a host queue's register set (R488, R494, R513): its window, TAIL and HEAD; others go by type. -/
def State.writeQueueReg (s : State) (n j o a w : Nat) : State :=
  if o = 0x10 then if j < 16 then s.writeTail n j (w % 65536) else s
  else if o = 0x14 then if 16 ≤ j then s.writeHead n (j - 16) (w % 65536) else s
  else if 0x20 ≤ o && o < 0x40 then
    if 16 ≤ j then s
    else
      let s := s.setReg a (BitVec.ofNat 32 w)
      if o = 0x3C then s.pioCommit n j else s
  else if o = 0 then
    let q := hostQueue n j
    let was := s
    let en := was.isSet (R.BPM_Qq_CFG_ENABLE q)
    let pio := j < 16 && (if en then was.isSet (R.HIF_Fn_Qj_CFG_MODE n j) else w.testBit 3)
    let kb3 := w.testBit 2
    let order := w.testBit 1
    let s := s.typedWriteOf a w (w - w % 8)
    let lost := en && (order != was.isSet (R.BPM_Qq_CFG_ORDER_MODE q) || kb3 != was.isSet (R.BPM_Qq_CFG_KB3_COMPAT q))
    let s := if en then s else
      (s.putBit (R.BPM_Qq_CFG_ORDER_MODE q) order).putBit (R.BPM_Qq_CFG_KB3_COMPAT q) (if kb3 && !pio then was.isSet (R.BPM_Qq_CFG_KB3_COMPAT q) else kb3)
    let s := if lost || (!en && kb3 && !pio) then
        (s.putBit (R.HIF_Fn_Qj_STAT_CFG_IGNORED n j) true).log Unit.hif n Sev.note Ev.cfgIgnored (0x1000 + j * 0x100) w
      else s
    let s := s.settleOrder q
    if w.testBit 0 then s.putBit (R.BPM_Qq_CFG_ENABLE q) true else if en then s.disableHostQueue n j else s
  else s.typedWrite a w

/-- A write to a function page (R508, R513): the MSI-X table's words, the rejection record, the queues. -/
def State.writePage (s : State) (n o a w : Nat) : State :=
  if 0x4000 ≤ o && o < 0x4800 then
    if o % 16 = 12 then
      let v := (o - 0x4000) / 16
      let f := s.fn n
      if w.testBit 0 then s.setFn n { f with masked := SMap.set true f.masked v true }
      else s.unmaskVector n v
    else s.setReg a (BitVec.ofNat 32 w)
  else if 0x1000 ≤ o && o < 0x3000 then s.writeQueueReg n ((o - 0x1000) / 0x100) (o % 0x100) a w
  else if o = 0 then
    if w.testBit 16 then (s.putBit (R.HIF_Fn_MBX_REJ_REJECTED n) false).putBit (R.HIF_Fn_MBX_REJ_MULTI n) false else s
  else s.typedWrite a w

/-- A write to the mailbox and doorbell block (R499, R505, R506, R514). -/
def State.writeMbxBlock (s : State) (who : Sender) (a w : Nat) : State :=
  let o := a - 0x100000
  if o < 0x4000 then
    let c := Fin.ofNat 64 (o / 0x100)
    let r := o % 0x100
    match who with
    | .host n =>
      if r < 0x40 then resultState s (execMbxDataWrite (Fin.ofNat 16 n) c (Fin.ofNat 16 (r / 4)) (BitVec.ofNat 32 w) s)
      else if r = 0x44 then if w.testBit 0 then resultState s (execSend (Fin.ofNat 16 n) c .pass s) else s
      else if n = 0 then s.typedWrite a w else s
    | .control _ => if r < 0x48 then s else s.typedWrite a w
    | _ => s
  else if 0x6000 ≤ o && o < 0x6020 then
    match who with
    | .host n => s.writeDblSet n ((o - 0x6000) / 4) w
    | _ => ((List.range 32).filter fun b => w.testBit b && 128 ≤ (o - 0x6000) / 4 * 32 + b).foldl
        (fun (s : State) b => s.ringHost ((o - 0x6000) / 4 * 32 + b)) s
  else if 0x6020 ≤ o && o < 0x6040 then s.writeDblStat who ((o - 0x6020) / 4) w
  else if fullAccess who then s.typedWrite a w else s

/-- The pools' and queues' registers (R109, R112, R121, R124, R127). -/
def State.writeBpm (s : State) (a w : Nat) : State :=
  if a = R.BPM_CTRL_ENABLE.addr then
    let mask := w / 256 % 64
    let s := if mask = 0 then s else s.resetPools mask w
    if w.testBit 0 then s.putBit R.BPM_CTRL_ENABLE true else if s.isSet R.BPM_CTRL_ENABLE then s.bpmDisable else s
  else if 0x300100 ≤ a && a < 0x300280 then
    let p := (a - 0x300100) / 0x40
    let o := (a - 0x300100) % 0x40
    if o = 4 then s.writeThreshold p .warn1 w else if o = 8 then s.writeThreshold p .warn2 w
    else if o = 12 then s.writeThreshold p .stop w else if o = 16 then s.writeThreshold p .hyst w
    else if o = 0x18 then s.writeMinfree p else s.typedWrite a w
  else if 0x310000 ≤ a && a < 0x320000 then
    let q := (a - 0x310000) / 32
    let o := a % 32
    if o = 0x14 then
      let s := if w.testBit 0 then s.dropRest q else s
      if w.testBit 1 then s.flushQueue q else s
    else if o = 0 && 272 ≤ q && q < 784 && s.isSet (R.BPM_Qq_CFG_ENABLE q) && !w.testBit 0 then
      (s.typedWrite a w).disableHostQueue ((q - 272) / 32) ((q - 272) % 32)
    else
      let s := s.typedWrite a w
      (s.setQueue q (s.queue q)).settleOrder q
  else s.typedWrite a w

/-- The relay's registers (R72, R96, R97). -/
def State.writeRly (s : State) (who : Sender) (a w : Nat) : State :=
  if a = R.RLY_CTRL_ENABLE.addr then
    if w.testBit 0 then if s.isSet R.RLY_CTRL_ENABLE then s else (s.putBit R.RLY_CTRL_ENABLE true).renewFec
    else if s.isSet R.RLY_CTRL_ENABLE then s.disableRelay else s
  else if a = R.RLY_PORT_MODE_MODE.addr then
    let t := s.fillShapers.typedWrite a w
    if t.get R.RLY_PORT_MODE_MODE = s.get R.RLY_PORT_MODE_MODE then t else t.renewFec.renewGates
  else if a = R.RLY_HASH_SEED_SEED.addr then resultState s (execHashSeedWrite who (BitVec.ofNat 32 w) s)
  else if a = R.RLY_FCT_RELEASE_RELEASE.addr then if w.testBit 0 then s.unclaim fctPort who else s
  else if a = R.RLY_FCT_CMD_OP.addr then s.fctOp who (w % 16)
  else match inArray a 0x201000 8 0x100 with
    | some n =>
      let on := s.isSet (R.RLY_PnCTL_PORT_EN n)
      let s := s.typedWrite a w
      if w.testBit 0 && !on then (((s.enablePort n).wake 1).wake 2) else if on && !w.testBit 0 then s.disablePort n else s
    | none => s.typedWrite a w

/-- The egress scheduler's registers (R139, R145). -/
def State.writeEgs (s : State) (a w : Nat) : State :=
  if a = R.EGS_IND_CMD_READ.addr then
    let s := if w.testBit 1 then s.indWriteOp w else s
    if w.testBit 0 then s.indReadOp else s
  else
    let s := s.typedWrite a w
    let s := if a = R.EGS_OVERHEAD_BYTES.addr then s.renewGates else s
    if a = R.EGS_CTRL_ENABLE.addr && w.testBit 1 then s.clearHistograms else s

/-- The gates' registers (R146, R150). -/
def State.writeTgc (s : State) (a w : Nat) : State :=
  match inArray a 0x480000 8 0x10000 with
  | some n =>
    let on := s.isSet (R.TGC_CTRL_ENABLE n)
    let s := s.typedWrite a w
    let s := if on && !w.testBit 0 then s.gateOff n else if s.listInEffect n then s.showGates n else s
    if w.testBit 1 then s.activate n w else s
  | none => s.typedWrite a w

/-- A write of a time base register by type: a PPS output that starts within a second rises at the next one (R157); the moment of a change
of PPS_DIR is kept (R612). -/
def State.writeTimReg (s : State) (a w : Nat) : State :=
  let t := s.typedWrite a w
  let t := if t.isSet R.TIM_CTRL_PPS_DIR != s.isSet R.TIM_CTRL_PPS_DIR then { t with time := { t.time with dirAt := some s.cycle } } else t
  if t.isSet R.TIM_CTRL_PPS_DIR && !s.isSet R.TIM_CTRL_PPS_DIR then { t with time := { t.time with ppsSec := t.time.sec } } else t

/-- The time base's registers (R153, R154). -/
def State.writeTim (s : State) (a w : Nat) : State :=
  if a = R.TIM_SLEW_PPB.addr then s.writeSlew w
  else if a = R.TIM_STEP_CMD_CMD.addr then
    if w % 4 = 1 then s.stepAbsolute else if w % 4 = 2 then s.stepOffset else s
  else s.writeTimReg a w

/-- The cipher complex's and the key store's registers (R378, R382). -/
def State.writeCipher (s : State) (who : Sender) (a w : Nat) : State :=
  if a = R.CPX_PKA_RELEASE_RELEASE.addr then if w.testBit 0 then s.unclaim pkaPort who else s
  else if a = R.CPX_PKA_CMD_OP.addr then s.pkaOp who (w % 16)
  else if a = R.KSL_RELEASE_RELEASE.addr then if w.testBit 0 then s.unclaim kslPort who else s
  else if a = R.KSL_SEL_SLOT.addr then resultState s (execKslDataWrite who none (BitVec.ofNat 32 w) s)
  else if a = R.KSL_CMD_OP.addr then s.kslOp who (w % 16)
  else match inArray a (R.KSL_DATA_DATA 0).addr 32 4 with
    | some i => resultState s (execKslDataWrite who (some (Fin.ofNat 32 i)) (BitVec.ofNat 32 w) s)
    | none => s.typedWrite a w

/-- The control register of an engine with INJ_WD (R196, R230, R264). -/
def State.writeEngine (s : State) (g i a w : Nat) : State :=
  let s := s.typedWrite a w
  if i < groupSize g && a % 0x10000 = 4 && w.testBit 1 then { s with injected := SMap.set false s.injected (consumer g i) true } else s

/-- The Mix Matrix's registers (R280, R281, R291). -/
def State.writeMxm (s : State) (who : Sender) (a w : Nat) : State :=
  if a = R.MXM_CTRL_ENABLE.addr then
    if w.testBit 0 then s.putBit R.MXM_CTRL_ENABLE true else if s.isSet R.MXM_CTRL_ENABLE then s.disableMix else s
  else if a = R.MXM_RELEASE_RELEASE.addr then if w.testBit 0 then s.unclaim mxmPort who else s
  else if a = R.MXM_SET_CMD_OP.addr then if w % 4 = 0 then s else s.setCommand who (w % 4)
  else if a = R.MXM_SWAP_CMD_COUNT.addr then s.swapCommand who (w % 128) (w.testBit 7) (w / 65536)
  else s.typedWrite a w

/-- The beacon unit's registers (R340, R341). -/
def State.writeSdg (s : State) (a w : Nat) : State :=
  if a = R.SDG_CTRL_ENABLE.addr then
    if w.testBit 0 then s.putBit R.SDG_CTRL_ENABLE true else if s.isSet R.SDG_CTRL_ENABLE then (s.putBit R.SDG_CTRL_ENABLE false).stopSdg else s
  else match inArray a (R.SDG_DET_CFG_SRC 0).addr 1024 4 with
    | some d => s.configDetector d (w % 2 ^ 11) (w.testBit 15)
    | none =>
      let m := (a - 0xB81000) / 16
      if 0xB81000 ≤ a && m < 256 then
        if a % 16 = 4 then s.armBeacon m w
        else
          let on := s.isSet (R.SDG_MOD_CTRL_EN m)
          let s := s.typedWrite a w
          if a % 16 = 0 && on && !w.testBit 0 then s.stopBeacon m else s
      else s.typedWrite a w

/-- The DSP clusters' registers (R318, R322, R330). -/
def State.writeDsc (s : State) (who : Sender) (k o a w : Nat) : State :=
  if o = 0x1C then s.put (R.DSC_IRQ_WAIT_MAX_CYCLES k) 0
  else if o = 0x20 then resultState s (execDscDoorbell who (Fin.ofNat 8 k) (BitVec.ofNat 16 w) s)
  else if o = 4 || o = 0x14 then
    (List.range 16).foldl (fun (s : State) c => s.settleCore (k * 16 + c)) (s.typedWrite a w)
  else if 0x1000 ≤ o && o < 0x2000 && o % 0x100 = 0x18 then
    let c := Fin.ofNat 128 (k * 16 + (o - 0x1000) / 0x100)
    let s := if w.testBit 0 == s.isSet (R.CORE_DBG_HALT k ((o - 0x1000) / 0x100)) then s else resultState s (execHalt who c (w.testBit 0) s)
    if w.testBit 1 then resultState s (execStep who c s) else s
  else s.typedWrite a w

/-- The trunk unit's registers (R412). -/
def State.writeTrk (s : State) (a w : Nat) : State :=
  if a = R.TRK_CTRL_ENABLE.addr then
    if w.testBit 0 then (if s.isSet R.TRK_CTRL_ENABLE then s else s.enableTrk)
    else if s.isSet R.TRK_CTRL_ENABLE then s.disableTrk else s
  else match inArray a (R.TRK_Tt_CTRL_EN 0).addr 256 0x40 with
    | some t =>
      let on := s.isSet (R.TRK_Tt_CTRL_EN t)
      let s := s.typedWriteOf a w (if on then w else w - w % 2)
      if w.testBit 0 && !on then s.enableTrunk t w else if on && !w.testBit 0 then s.disableTrunk t else s
    | none => s.typedWrite a w

/-- Updraft's registers (R445, R449, R627). -/
def State.writeUpd (s : State) (a w : Nat) : State :=
  if a = R.UPD_CTRL_ENABLE.addr then
    let s := s.typedWriteOf a w (w % 4 + 4 * s.get R.UPD_CTRL_STANDBY)
    let s := if s.isSet R.UPD_CTRL_ENABLE then s else s.setShed 0
    if w.testBit 2 then s.standbyEnter w else s.standbyExit
  else match inArray a (R.UPD_RAIL_IPEAK_MILLIAMPS 0).addr 8 0x10 with
    | some r => s.showIpeak r
    | none => s.typedWrite a w

/-- The recovery window and the reset registers (R548, R559, R574). -/
def State.writeFus (s : State) (who : Sender) (a w : Nat) : State :=
  if a = R.FUS_CTRL_RESET.addr then s.writeFusCtrl who (w % 65536)
  else if a = R.FUS_FW_WD_KICK.addr then if w.testBit 0 then s.kick who else s
  else if a = R.FUS_RCV_CMD_OP.addr then if w % 4 = 1 || w % 4 = 2 then s.rcvCommand (w % 4) else s
  else if 0xFC0000 ≤ a then s.rcvWrite (a - 0xFC0000) w
  else s.typedWrite a w

/-- The effect of a register write that reaches its block (R16 to R19). -/
def State.writeReg (s : State) (who : Sender) (a w : Nat) : State :=
  if a < 0x80000 then
    if a = R.HIF_CTRL_ENABLE.addr then
      if w.testBit 0 then s.putBit R.HIF_CTRL_ENABLE true else if s.isSet R.HIF_CTRL_ENABLE then s.disableHif else s
    else s.typedWrite a w
  else if a < 0x100000 then s.writePage ((a - 0x80000) / 0x8000) ((a - 0x80000) % 0x8000) a w
  else if a < 0x200000 then s.writeMbxBlock who a w
  else if a < 0x300000 then s.writeRly who a w
  else if a < 0x400000 then s.writeBpm a w
  else if a < 0x480000 then s.writeEgs a w
  else if a < 0x500000 then s.writeTgc a w
  else if a < 0x600000 then s.writeTim a w
  else if a < 0x800000 then s.writeCipher who a w
  else if a < 0x900000 then s.writeEngine 0 ((a - 0x800000) / 0x10000) a w
  else if a < 0xA00000 then s.writeEngine 1 ((a - 0x900000) / 0x10000) a w
  else if a < 0xA80000 then s.writeEngine 2 ((a - 0xA00000) / 0x10000) a w
  else if a < 0xB00000 then s.writeEngine 3 ((a - 0xA80000) / 0x10000) a w
  else if a < 0xB80000 then s.writeMxm who a w
  else if a < 0xC00000 then s.writeSdg a w
  else if a < 0xC80000 then s.writeDsc who ((a - 0xC00000) / 0x10000) (a % 0x10000) a w
  else if a = R.HTS_SLOTS_MAX_SLOTS.addr then s.put R.HTS_SLOTS_MAX_SLOTS (s.get R.HTS_SLOTS_USED_SLOTS)
  else if 0xD80000 ≤ a && a < 0xE00000 then s.writeUpd a w
  else if 0xE80000 ≤ a && a < 0xF00000 then s.writeTrk a w
  else if 0xF80000 ≤ a then s.writeFus who a w
  else s.typedWrite a w

/-- A write of a register by a sender, where it reaches one (R36, R482, R484, R551). -/
def State.registerWrite (s : State) (who : Sender) (a w : Nat) : State :=
  if s.cutOff who then s.lostWrite who a else if s.accessible who a then (s.accessWakes a).writeReg who a w else s

/-- Whether a command is a host function's write of the register at `a`. -/
def hostWriteOf (a : Nat) : Instr → Bool
  | .registerWrite (.host _) addr _ => addr.toNat == a
  | _ => false

/-- The host writes of the present cycle to a register that have not been applied yet; what waits in the queue falls in the cycle. -/
def State.hostWritesNow (s : State) (a : Nat) : List Instr := s.early.foldl List.erase (s.pending.filter (hostWriteOf a))

/-- The host writes of a cycle apply before an internal write to the same register (R485). -/
def State.hostFirst (s : State) (a : Nat) : State :=
  let l := s.hostWritesNow a
  l.foldl (fun (s : State) c => match c with
    | .registerWrite who _ value => s.registerWrite who a value.toNat
    | _ => s) { s with early := s.early ++ l }

/-- REGISTER_WRITE (R17, R482, R483, R485). -/
def execRegisterWrite (who : Sender) (addr : BitVec 24) (value : Word) (s : State) : Result :=
  let a := addr.toNat
  if s.early.contains (.registerWrite who addr value) then .next { s with early := s.early.erase (.registerWrite who addr value) }
  else if a % 4 ≠ 0 then
    match who with
    | .host n => .next (s.badAccess n a false)
    | _ => .next s
  else if isHost who then .next (s.registerWrite who a value.toNat)
  else .next ((s.hostFirst a).registerWrite who a value.toNat)

end Sys2Proof.Machine
end

