-- ==== Sys2Proof/Machine/Kernels.lean ====
section
/-! DEFINITION. The installation of DSP kernel images by vendor firmware (spec/09_dsp_cores.md, R325, R326). -/

namespace Sys2Proof.Machine

open Sys2Proof

/-- A little-endian field of a kernel image. -/
def kfield (image : List Byte) (a n : Nat) : Nat := leVal (slice image a (a + n))

/-- Octets of an image's code. -/
def codeBytes (image : List Byte) : Nat := kfield image 0x0E 2 * 8

/-- How long an image with this header is (R325). -/
def imageLength (image : List Byte) : Nat := 64 + codeBytes image + kfield image 0x14 4 + 64

/-- The data memory or shared memory that a kernel takes: its data, its zeroed area and its stack behind them. -/
def kernelSpan (image : List Byte) : Nat := kfield image 0x14 4 + kfield image 0x18 4 + kfield image 0x1C 4

/-- Whether `n` octets at a local address lie in a core's data memory below TASKBOX, or in shared memory (R294). -/
def kernelArea (a n : Nat) : Bool := a + n ≤ 0x3FF00 || (0x100000 ≤ a && a + n ≤ 0x300000)

/-- The form of an image (R325). -/
def imageOk (image : List Byte) : Bool :=
  let stack := kfield image 0x1C 4
  image.take 4 == [0x4B, 0x44, 0x4B, 0x37] && kfield image 4 2 == 1 && 1 ≤ kfield image 6 1 && kfield image 7 1 ≤ 15 &&
    1 ≤ kfield image 0x0E 2 && kfield image 0x0E 2 ≤ 7680 && kfield image 0x0C 2 < kfield image 0x0E 2 && kfield image 0x10 4 % 8 == 0 &&
    64 ≤ stack && stack ≤ 65536 && stack % 8 == 0 && allZero (slice image 0x2C 64) && image.length == imageLength image &&
    kernelArea (kfield image 0x10 4) (kernelSpan image)

/-- Whether the image's signature verifies under the vendor root key or the owner key, which the running firmware's header gives (R326,
R554, R557). -/
def State.kernelSigned (s : State) (image : List Byte) : Bool :=
  let digest := sha256 (image.take (image.length - 64))
  let sig := image.drop (image.length - 64)
  let h := s.boot.header
  sigOk (slice h 0x80 0xC1) sig digest || (s.isSet R.FUS_STATUS_OWNER_SET && sigOk (slice h 0x104 0x145) sig digest)

/-- The lowest place from bundle `b` on where `n` bundles are free among kernels that rise (R294). -/
def placeAfter (n : Nat) : Nat → List Kernel → Nat
  | b, [] => b
  | b, k :: ks => if b + n ≤ k.base then b else placeAfter n (max b (k.base + k.bundles)) ks

/-- Insert a kernel by its place. -/
def insertKernel (k : Kernel) : List Kernel → List Kernel
  | [] => [k]
  | x :: xs => if k.base ≤ x.base then k :: x :: xs else x :: insertKernel k xs

/-- The kernels that an image installed on a core stands beside: those with another number. -/
def DspCore.others (k : DspCore) (id : Nat) : List Kernel := k.kernels.filter fun x => x.id != id

/-- Whether a core is a target that can take the image (R326): disabled, room for the code, no area shared with another kernel. -/
def State.kernelFits (s : State) (image : List Byte) (c : Nat) : Bool :=
  let os := (s.core c).others (kfield image 6 1)
  let a := kfield image 0x10 4
  let n := kernelSpan image
  placeAfter (kfield image 0x0E 2) 512 os + kfield image 0x0E 2 ≤ 8192 &&
    os.all fun x => a + n ≤ x.data || x.data + x.bytes ≤ a

/-- Install the image on one core (R325, R326): its code, its data, its zeroed area, and then its bit of CORE_KMASK. -/
def State.installOn (s : State) (image : List Byte) (c : Nat) : State :=
  let k := s.core c
  let id := kfield image 6 1
  let n := kfield image 0x0E 2
  let os := k.others id
  let base := placeAfter n 512 os
  let words := (List.range n).map fun i => (base + i, kfield image (64 + 8 * i) 8)
  let new : Kernel := ⟨id, kfield image 8 4, base, n, kfield image 0x10 4, kernelSpan image, kfield image 0x20 4,
    base + kfield image 0x0C 2, kfield image 0x1C 4⟩
  let k := { k with prog := words.foldl (fun m (e : Nat × Nat) => SMap.set 0 m e.1 e.2) k.prog, kernels := insertKernel new os }
  let s := s.setCore c k
  let code := 64 + codeBytes image
  let data := slice image code (code + kfield image 0x14 4)
  let s := s.setLocalBytes c (kfield image 0x10 4) (data ++ List.replicate (kfield image 0x18 4) 0)
  let m := R.CORE_KMASK_KERNELS (c / 16) (c % 16) (id / 32)
  s.put m (setBit (s.get m) (id % 32))

/-- The object that holds the digest of each installed kernel image, which R567 reports; it is the model's own number. -/
def digestObject : Nat := 0x610200

/-- Install an image on cores (R326): refused with OBJ_RANGE, and then nothing changes. -/
def State.installKernel (s : State) (image : List Byte) (cores : List Nat) : State × Nat :=
  let id := kfield image 6 1
  let off := fun (c : Nat) => c < 128 && !(s.get (R.DSC_CORE_EN_EN (c / 16))).testBit (c % 16)
  if !imageOk image || cores.isEmpty || !cores.all off || !s.kernelSigned image || !cores.all (s.kernelFits image) then (s, St.objRange)
  else
    let s := cores.foldl (fun (s : State) c => s.installOn image c) s
    let s := (s.setObj 0x610201 id 0 (kfield image 8 4)).setOctets digestObject id (sha256 image)
    ({ s with kernelClass := SMap.set 0 s.kernelClass id (kfield image 7 1) }, St.ok)

/-- The digests of the installed kernel images, in kernel number order (R567). -/
def State.kernelDigests (s : State) : List (List Byte) :=
  (s.objOct.filter fun e => e.1 / 16777216 == digestObject).map Prod.snd

/-- KERNEL_INSTALL (R326): vendor firmware installs an image on the cores it chooses, and says how it ended. -/
def execKernelInstall (image : List Byte) (cores : List (Fin 128)) (s : State) : Result :=
  let r := s.installKernel image (cores.map Fin.val)
  .next (r.1.emit (.firmware 8 [kfield image 6 1, r.2]))

end Sys2Proof.Machine
end

