-- ==== Sys2Proof/Machine/Module.lean ====
section
/-! DEFINITION. The log's read, the reference clock, the cages and the JTAG port (spec/18_faults_log.md, R594;
spec/19_module_electrical.md, R611, R616 to R619, R626). -/

namespace Sys2Proof.Machine

open Sys2Proof

/-! ### Squall entries (R589, R594) -/

/-- The eight words of an entry (R589). -/
def SquallEntry.words (e : SquallEntry) : List Nat :=
  [e.time % 2 ^ 32, e.time / 2 ^ 32, e.unit + e.severity * 256 + e.event * 65536, e.inst, e.param0 % 2 ^ 32, e.param0 / 2 ^ 32,
   e.param1 % 2 ^ 32, e.param1 / 2 ^ 32]

/-- The entry at an index of the log. -/
def State.entryAt (s : State) (i : Nat) : SquallEntry := SMap.get SquallEntry.blank s.sql.entries i

/-- The sequence number of the entry at an index: the highest below SQL_COUNT that is congruent to it (R594). -/
def State.entrySeq (s : State) (i : Nat) : Nat :=
  let n := s.counter 0x00F00010
  if n ≤ i then i else n - 1 - (n - 1 - i) % 8192

/-- The ENTRY_LOST entry that is returned for an entry that cannot be read (R594). -/
def State.lostEntry (s : State) (i : Nat) : SquallEntry := ⟨0, Unit.sql, Sev.warn, 0x0070, 0, s.entrySeq i, 0⟩

/-- An entry leaves as the reads of its eight words. -/
def State.emitEntry (s : State) (who : Sender) (i : Nat) (e : SquallEntry) : State :=
  s.emitAll (e.words.zipIdx.map fun (w : Nat × Nat) => .readDone who (0x00F40000 + i * 32 + w.2 * 4) w.1)

/-- SQUALL_ENTRY_READ (R594). -/
def execSquallEntryRead (who : Sender) (index : Fin 8192) (check : CheckResult) (s : State) : Result :=
  let i := index.val
  if s.absent who then .next s
  else if s.cutOff who then .next (s.lostRead who (0x00F40000 + i * 32))
  else if !s.accessible who (0x00F40000 + i * 32) then .next (s.emitEntry who i SquallEntry.blank)
  else
    match check with
    | .pass => .next (s.emitEntry who i (s.entryAt i))
    | .retried => .next ((s.emitEntry who i (s.entryAt i)).retried Unit.sql 0 13 (0x00F40000 + i * 32))
    | .failed => .next ((s.emitEntry who i (s.lostEntry i)).putBit ⟨R.SQL_ALERT_CAUSE_FENCE.addr, 3, 1⟩ true)

/-! ### The reference clock (R611) -/

/-- REFCLK_SAMPLE (R611). -/
def execRefclkSample (present : Bool) (s : State) : Result := .next (s.putBit R.HIF_CLK_STAT_REFCLK_EXT present)

/-- REFCLK_LOST (R481, R611): a reference in use stops: the link is down and every function is reset. -/
def execRefclkLost (s : State) : Result :=
  if s.isSet R.HIF_CLK_STAT_REFCLK_EXT then
    .next ((((s.flrFrom 0).put R.HIF_STATUS_SPEED 0).put R.HIF_STATUS_WIDTH 0).putBit R.HIF_CLK_STAT_REFCLK_LOST true)
  else .next s

/-! ### Cages (R616 to R618) -/

/-- A bit of a field that holds one for each cage. -/
def cageBit (f : Fld) (n : Nat) : Fld := ⟨f.addr, f.lsb + n, 1⟩

/-- The state with the pads' record replaced. -/
def State.setPads (s : State) (p : Pads) : State := { s with pads := p }

/-- Vendor firmware ends its management of a cage: supply off and MODRST_N at 0 (R616). -/
def State.dropCage (s : State) (n : Nat) : State :=
  if s.firmwareRuns then (s.putBit (cageBit R.FUS_PAD_PWR_CAGE_EN n) false).putBit (cageBit R.FUS_PAD_OUT_MODRST_N n) false else s

/-- CAGE_PRESENCE_CHANGE (R616, R626). -/
def execCagePresenceChange (cage : Fin 8) (level : Bool) (s : State) : Result :=
  let n := cage.val
  if s.isSet (cageBit R.FUS_PAD_IN_MODPRS_N n) == level then .next s
  else
    let s := (s.putBit (cageBit R.FUS_PAD_IN_MODPRS_N n) level).putBit (cageBit R.FUS_PAD_CHG_PRS_CHG n) true
    let p := s.pads
    let s := s.setPads { p with fell := SMap.set none p.fell n (if level then none else some s.cycle), powered := SMap.set none p.powered n none }
    .next (if level then s.dropCage n else s)

/-- CAGE_IDENTIFY (R616): steps 1 and 2 of a managed cage, then steps 3 and 4. -/
def execCageIdentify (cage : Fin 8) (accepted : Bool) (s : State) : Result :=
  let n := cage.val
  let p := s.pads
  match s.firmwareRuns, SMap.get none p.fell n, SMap.get none p.powered n with
  | true, some t, none =>
    if s.passed (max t s.ageZero) (50 * msCycles) then
      .next ((s.putBit (cageBit R.FUS_PAD_PWR_CAGE_EN n) true).setPads { p with powered := SMap.set none p.powered n (some s.cycle) })
    else .next s
  | true, some _, some t =>
    let waits := !s.isSet (cageBit R.FUS_PAD_PWR_CAGE_EN n) || s.isSet (cageBit R.FUS_PAD_OUT_MODRST_N n)
    if waits || !s.passed t (100 * msCycles) then .next s
    else if accepted then .next (s.putBit (cageBit R.FUS_PAD_OUT_MODRST_N n) true)
    else .next ((s.dropCage n).putBit (cageBit R.FUS_PAD_FAULT_REFUSED n) true)
  | _, _, _ => .next s

/-- CAGE_OVERCURRENT (R617): an enabled supply is switched off. -/
def execCageOvercurrent (cage : Fin 9) (s : State) : Result :=
  let en : Fld := ⟨R.FUS_PAD_PWR_CAGE_EN.addr, cage, 1⟩
  if s.isSet en then .next ((s.putBit en false).putBit ⟨R.FUS_PAD_FAULT_CAGE_OC.addr, cage, 1⟩ true) else .next s

/-- CAGE_INT_N_FALL (R626). -/
def execCageIntNFall (cage : Fin 8) (s : State) : Result :=
  .next ((s.putBit (cageBit R.FUS_PAD_IN_INT_N cage) false).putBit (cageBit R.FUS_PAD_CHG_INT_FELL cage) true)

/-- An input's level, and its change bit where it changed (R626). -/
def State.inputLevel (s : State) (input changed : Fld) (level : Bool) : State :=
  if s.isSet input == level then s else (s.putBit input level).putBit changed true

/-- MGMT_LOS_CHANGE (R618, R626). -/
def execMgmtLosChange (los txfault : Bool) (s : State) : Result :=
  .next ((s.inputLevel R.FUS_PAD_IN_MGMT_LOS R.FUS_PAD_CHG_LOS_CHG los).inputLevel R.FUS_PAD_IN_MGMT_TXFAULT R.FUS_PAD_CHG_TXFAULT_CHG txfault)

/-- MGMT_MODABS_CHANGE (R616, R618, R626): vendor firmware accepts the module that is there, or there is none. -/
def execMgmtModabsChange (level accepted : Bool) (s : State) : Result :=
  let s := s.inputLevel R.FUS_PAD_IN_MGMT_MODABS R.FUS_PAD_CHG_MODABS_CHG level
  .next (s.setPads { s.pads with sfp := !level && accepted }).manageSfp

/-- Whether the management link is up (R618, R543): the port enabled, an accepted module, its signal there and no fault, and the identity
written without which the port carries nothing (R563). -/
def State.mgmtUp (s : State) : Bool :=
  s.obj 0x200001 0 0 == 1 && s.pads.sfp && !s.isSet R.FUS_PAD_IN_MGMT_LOS && !s.isSet R.FUS_PAD_IN_MGMT_TXFAULT &&
    !s.isSet R.FUS_PAD_PWR_MGMT_TXDIS && s.isSet R.FUS_STATUS_IDENTITY_SET

/-! ### JTAG (R619) -/

/-- JTAG_INSTRUCTION (R619): the instruction in the TAP; after DEBUG_DISABLE any other acts as BYPASS. EXTEST, CLAMP and HIGHZ hold the 3.3 V
balls until Test-Logic-Reset. -/
def execJtagInstruction (instr : JtagInstr) (s : State) : Result :=
  match instr with
  | .testLogicReset => .next (s.setPads { s.pads with jtag := none })
  | .other code =>
    if s.isSet R.FUS_STATUS_DEBUG_DIS then .next (s.setPads { s.pads with jtag := some .bypass }) else .refused (.debugInstruction code)
  | i => .next (s.setPads { s.pads with jtag := some i })

/-- Whether the 3.3 V balls are taken from the device's logic (R619). -/
def State.ballsTaken (s : State) : Bool :=
  s.pads.jtag == some .extest || s.pads.jtag == some .clamp || s.pads.jtag == some .highz

end Sys2Proof.Machine
end

