-- ==== Sys2Proof/Machine/ObjTable.lean ====
section
/-! DEFINITION. The object dictionary's rows (spec/16_object_dictionary.md, R541 to R545, and the object tables of the other chapters):
each object's number (index × 256 + subindex), instances, type, access, range, and where its value is held. -/

namespace Sys2Proof.Machine

open Sys2Proof

/-- The types of object values (R21). -/
inductive ObjTy where
  | u8 | u16 | u32 | u64 | i32 | bool | enum | time64 | octets | string
  deriving DecidableEq, Repr

/-- The access kinds (R22). -/
inductive ObjAccess where
  | ro | rw | rwd | wo | once
  deriving DecidableEq, Repr

/-- The instances of an object (R516). -/
inductive ObjInst where
  | one
  | upTo (n : Nat)
  | port
  | leg
  | conf
  deriving DecidableEq, Repr

/-- Where an object's value is held: in a register field, in a 64-bit counter, by vendor firmware as a number or as octets with a default,
or by a rule of its own. -/
inductive ObjHome where
  | fld (f : Nat → Fld)
  | ctr (f : Nat → Nat)
  | num (d : Nat)
  | text (d : List Byte)
  | own

/-- A row of the dictionary; `lo` and `hi` bound a number, or the length of octets. -/
structure ObjRow where
  num    : Nat
  inst   : ObjInst
  ty     : ObjTy
  access : ObjAccess
  lo     : Nat
  hi     : Nat
  home   : ObjHome

/-- How many octets a number of a type takes; none for octets and strings (R21). -/
def ObjTy.size : ObjTy → Option Nat
  | .u8 => some 1
  | .u16 => some 2
  | .u32 => some 4
  | .u64 => some 8
  | .i32 => some 4
  | .bool => some 1
  | .enum => some 2
  | .time64 => some 8
  | .octets => none
  | .string => none

/-- Objects 0x1000 to 0x10FF. -/
def objRows10 : List ObjRow := [
  ⟨0x100001, .one, .string, .ro, 0, 32, .own⟩,  -- VENDOR
  ⟨0x100002, .one, .string, .ro, 0, 32, .own⟩,  -- PRODUCT
  ⟨0x100003, .one, .string, .ro, 0, 16, .own⟩,  -- ORDERING_CODE
  ⟨0x100004, .one, .string, .ro, 0, 4, .own⟩,  -- STEPPING
  ⟨0x100005, .one, .u8, .ro, 0, 255, .own⟩,  -- MODULE_REV
  ⟨0x100006, .one, .u16, .ro, 8192, 16384, .own⟩,  -- LEG_CAPACITY
  ⟨0x100007, .one, .u64, .ro, 0, 18446744073709551615, .own⟩,  -- DEVICE_SERIAL
  ⟨0x100008, .one, .octets, .ro, 65, 65, .own⟩,  -- IDENTITY_PUBKEY
  ⟨0x100009, .one, .u32, .ro, 0, 4294967295, (.fld fun _ => R.FUS_FW_VERSION_VERSION)⟩,  -- FW_VERSION
  ⟨0x10000A, .one, .enum, .ro, 0, 1, (.fld fun _ => R.FUS_BOOT_BANK)⟩,  -- FW_BANK
  ⟨0x10000B, .one, .u8, .ro, 0, 255, (.fld fun _ => R.HIF_BOOT_STAGE_STAGE)⟩,  -- BOOT_STAGE
  ⟨0x10000C, .one, .u64, .ro, 0, 18446744073709551615, .own⟩,  -- UPTIME_S
  ⟨0x10000D, .one, .u16, .ro, 0, 65535, .own⟩   -- DICT_VERSION
]

/-- Objects 0x1100 to 0x11FF. -/
def objRows11 : List ObjRow := [
  ⟨0x110001, .one, .octets, .ro, 65, 65, .own⟩,  -- DIE_PUBKEY
  ⟨0x110002, .one, .octets, .ro, 64, 64, .own⟩,  -- DIE_CERT
  ⟨0x110003, .one, .octets, .ro, 0, 64, .own⟩,  -- IDENTITY_ENDORSEMENT
  ⟨0x110004, .one, .octets, .wo, 32, 32, .own⟩,  -- ATTEST_NONCE
  ⟨0x110005, .one, .octets, .ro, 288, 288, .own⟩,  -- ATTEST_REPORT
  ⟨0x110010, .one, .bool, .wo, 1, 1, .own⟩,  -- FW_STAGE_BEGIN
  ⟨0x110011, .one, .u32, .rw, 0, 268369919, .own⟩,  -- FW_STAGE_OFFSET
  ⟨0x110012, .one, .octets, .wo, 1, 65535, .own⟩,  -- FW_STAGE_DATA
  ⟨0x110013, .one, .octets, .wo, 12, 12, .own⟩,  -- FW_STAGE_HBM
  ⟨0x110014, .one, .bool, .wo, 1, 1, .own⟩,  -- FW_STAGE_END
  ⟨0x110015, .one, .enum, .ro, 0, 4, .own⟩,  -- FW_STAGE_STATE
  ⟨0x110016, .one, .bool, .wo, 1, 1, .own⟩,  -- FW_ACTIVATE
  ⟨0x110017, .one, .u32, .ro, 0, 4294967295, (.fld fun _ => ⟨R.FUS_RESET_CAUSE_POWER_ON.addr, 0, 6⟩)⟩,  -- RESET_CAUSE
  ⟨0x110018, .one, .bool, .wo, 1, 1, .own⟩,  -- DEVICE_RESET
  ⟨0x110019, .one, .bool, .wo, 1, 1, .own⟩,  -- FW_COMMIT
  ⟨0x11001A, .one, .bool, .ro, 0, 1, (.fld fun _ => R.FUS_BOOT_TRIAL)⟩,  -- FW_TRIAL
  ⟨0x11001B, .one, .bool, .ro, 0, 1, (.fld fun _ => R.FUS_BOOT_FALLBACK)⟩,  -- FW_FALLBACK
  ⟨0x11001C, .one, .u32, .ro, 0, 4294967295, .own⟩   -- FW_OTHER_VERSION
]

/-- Objects 0x2000 to 0x20FF. -/
def objRows20 : List ObjRow := [
  ⟨0x200001, .one, .bool, .rw, 0, 1, (.num 0)⟩,  -- MGMT_ENABLE
  ⟨0x200002, .one, .enum, .rwd, 0, 1, (.num 0)⟩,  -- MGMT_MODE
  ⟨0x200003, .one, .bool, .ro, 0, 1, .own⟩,  -- MGMT_LINK_UP
  ⟨0x200004, .one, .octets, .ro, 6, 6, .own⟩,  -- MGMT_MAC
  ⟨0x200005, .one, .octets, .rwd, 4, 4, (.text (List.replicate 4 0))⟩,  -- MGMT_IPV4
  ⟨0x200006, .one, .u8, .rwd, 8, 30, (.num 24)⟩,  -- MGMT_IPV4_PREFIX
  ⟨0x200007, .one, .octets, .rwd, 4, 4, (.text (List.replicate 4 0))⟩,  -- MGMT_IPV4_GW
  ⟨0x200008, .one, .octets, .rwd, 16, 16, (.text (List.replicate 16 0))⟩,  -- MGMT_IPV6
  ⟨0x200009, .one, .u8, .rwd, 16, 127, (.num 64)⟩,  -- MGMT_IPV6_PREFIX
  ⟨0x20000A, .one, .u16, .rwd, 0, 4094, (.num 0)⟩,  -- MGMT_VLAN
  ⟨0x20000B, .one, .u16, .rwd, 1024, 65535, (.num 4210)⟩,  -- GULTER_UDP_PORT
  ⟨0x20000C, .one, .u32, .ro, 0, 4294967295, (.num 0)⟩   -- GUL_BAD_FRAMES
]

/-- Objects 0x2100 to 0x21FF. -/
def objRows21 : List ObjRow := [
  ⟨0x210001, .one, .enum, .ro, 0, 5, (.fld fun _ => R.HIF_STATUS_SPEED)⟩,  -- PCIE_SPEED
  ⟨0x210002, .one, .u8, .ro, 0, 16, (.fld fun _ => R.HIF_STATUS_WIDTH)⟩,  -- PCIE_WIDTH
  ⟨0x210003, .one, .u8, .ro, 0, 15, .own⟩,  -- NUM_VFS
  ⟨0x210004, .one, .u16, .rw, 1, 1000, (.fld fun _ => R.HIF_CPL_TIMEOUT_MS)⟩,  -- CPL_TIMEOUT_MS
  ⟨0x210005, .one, .u16, .rw, 10, 10000, (.fld fun _ => R.MBX_CLAIM_TO_US)⟩,  -- MBX_CLAIM_TO_US
  ⟨0x210006, .one, .u32, .ro, 0, 4294967295, (.fld fun _ => R.HIF_BAD_ACCESS_COUNT)⟩,  -- BAD_ACCESS
  ⟨0x211001, (.upTo 16), .bool, .rw, 0, 1, (.fld fun i => ⟨R.HIF_FRAME_TX_EN_FUNCTIONS.addr, i, 1⟩)⟩,  -- FRAME_TX_EN
  ⟨0x211002, (.upTo 16), .bool, .ro, 0, 1, .own⟩   -- FN_PRESENT
]

/-- Objects 0x2200 to 0x22FF. -/
def objRows22 : List ObjRow := [
  ⟨0x220001, (.upTo 16), .octets, .rw, 0, 32, (.text [])⟩,  -- CLIENT_KEY_HASH
  ⟨0x220002, (.upTo 16), .enum, .rw, 0, 2, (.num 0)⟩,  -- CLIENT_ROLE
  ⟨0x220003, .one, .u16, .rw, 10, 3600, (.num 60)⟩,  -- SESSION_IDLE_S
  ⟨0x220004, .one, .u8, .ro, 0, 8, .own⟩,  -- MGMT_SESSIONS
  ⟨0x220005, .one, .u16, .ro, 0, 65535, .own⟩,  -- MAILBOX_SESSIONS
  ⟨0x220006, .one, .u16, .ro, 0, 512, .own⟩,  -- SUBSCRIPTIONS
  ⟨0x220007, .one, .u32, .ro, 0, 4294967295, (.num 0)⟩,  -- AUTH_FAILURES
  ⟨0x220008, .one, .bool, .wo, 1, 1, .own⟩   -- SESSION_CLOSE_ALL
]

/-- Objects 0x3000 to 0x30FF. -/
def objRows30 : List ObjRow := [
  ⟨0x300001, .one, .enum, .rwd, 0, 5, (.fld fun _ => R.RLY_PORT_MODE_MODE)⟩,  -- PORT_MODE
  ⟨0x300002, .one, .u16, .rwd, 64, 9216, (.fld fun _ => R.RLY_MAX_FRAME_BYTES)⟩,  -- MAX_FRAME
  ⟨0x300003, .one, .u16, .rw, 0, 3600, (.fld fun _ => R.RLY_AGE_TIMEOUT_SECONDS)⟩,  -- AGE_TIMEOUT
  ⟨0x300004, .one, .enum, .rw, 0, 1, (.fld fun _ => R.RLY_MISS_ACTION_ACTION)⟩,  -- MISS_ACTION
  ⟨0x300005, .one, .u32, .rw, 0, 16777215, (.fld fun _ => R.RLY_EXC_RATE_PPS)⟩,  -- EXC_RATE
  ⟨0x301001, .port, .bool, .rw, 0, 1, (.fld fun i => R.RLY_PnCTL_PORT_EN i)⟩,  -- PORT_ENABLE
  ⟨0x301002, .port, .bool, .ro, 0, 1, (.fld fun i => R.RLY_PnSTAT_LINK_UP i)⟩,  -- LINK_UP
  ⟨0x301003, .port, .enum, .rwd, 0, 3, (.fld fun i => R.RLY_PnCTL_FEC i)⟩,  -- FEC
  ⟨0x302001, .one, .u64, .ro, 0, 18446744073709551615, (.ctr fun _ => R.C_RLY_FCT_HIT)⟩,  -- RELAY_COUNTERS
  ⟨0x302002, .one, .u64, .ro, 0, 18446744073709551615, (.ctr fun _ => R.C_RLY_FCT_MISS)⟩,  -- RELAY_COUNTERS
  ⟨0x302003, .one, .u64, .ro, 0, 18446744073709551615, (.ctr fun _ => R.C_RLY_MISS_NOMATCH)⟩,  -- RELAY_COUNTERS
  ⟨0x302004, .one, .u64, .ro, 0, 18446744073709551615, (.ctr fun _ => R.C_RLY_MISS_OVF)⟩,  -- RELAY_COUNTERS
  ⟨0x302005, .one, .u64, .ro, 0, 18446744073709551615, (.ctr fun _ => R.C_RLY_AUTH_DROP)⟩,  -- RELAY_COUNTERS
  ⟨0x302006, .one, .u64, .ro, 0, 18446744073709551615, (.ctr fun _ => R.C_RLY_REPLAY_DROP)⟩,  -- RELAY_COUNTERS
  ⟨0x302007, .one, .u64, .ro, 0, 18446744073709551615, (.ctr fun _ => R.C_RLY_CSUM_DROP)⟩,  -- RELAY_COUNTERS
  ⟨0x302008, .one, .u64, .ro, 0, 18446744073709551615, (.ctr fun _ => R.C_RLY_FRAG_DROP)⟩,  -- RELAY_COUNTERS
  ⟨0x302009, .one, .u64, .ro, 0, 18446744073709551615, (.ctr fun _ => R.C_RLY_LATE_DROP)⟩,  -- RELAY_COUNTERS
  ⟨0x30200A, .one, .u64, .ro, 0, 18446744073709551615, (.ctr fun _ => R.C_RLY_DD_UNKNOWN)⟩,  -- RELAY_COUNTERS
  ⟨0x30200B, .one, .u64, .ro, 0, 18446744073709551615, (.ctr fun _ => R.C_RLY_EXC_DROP)⟩,  -- RELAY_COUNTERS
  ⟨0x30200C, .one, .u64, .ro, 0, 18446744073709551615, (.ctr fun _ => R.C_RLY_COPIES)⟩,  -- RELAY_COUNTERS
  ⟨0x30200D, .one, .u64, .ro, 0, 18446744073709551615, (.ctr fun _ => R.C_RLY_COPY_DROP)⟩   -- RELAY_COUNTERS
]

/-- Objects 0x3100 to 0x31FF. -/
def objRows31 : List ObjRow := [
  ⟨0x310001, .one, .u8, .rwd, 0, 63, (.fld fun _ => R.EGS_OVERHEAD_BYTES)⟩,  -- EGS_OVERHEAD
  ⟨0x310002, .one, .u32, .rw, 5000, 40000, (.fld fun _ => R.EGS_AGE_MAX_NS)⟩,  -- AGE_MAX
  ⟨0x310003, .one, .u32, .rw, 16384, 16777216, (.fld fun _ => R.EGS_DQ_LIMIT_BYTES)⟩,  -- DQ_LIMIT
  ⟨0x311001, .port, .bool, .rw, 0, 1, (.fld fun i => R.TGC_CTRL_ENABLE i)⟩,  -- GATE_ENABLE
  ⟨0x311002, .port, .octets, .rw, 5, 1280, .own⟩,  -- GATE_ADMIN_LIST
  ⟨0x311003, .port, .u32, .rw, 125000, 1000000000, (.fld fun i => R.TGC_ADMIN_CYCLE_NS i)⟩,  -- GATE_ADMIN_CYCLE
  ⟨0x311004, .port, .time64, .rw, 0, 18446744073709551615, .own⟩,  -- GATE_ADMIN_BASE
  ⟨0x311005, .port, .bool, .wo, 1, 1, .own⟩   -- GATE_ACTIVATE
]

/-- Objects 0x4000 to 0x40FF. -/
def objRows40 : List ObjRow := [
  ⟨0x400001, .conf, .enum, .ro, 0, 2, (.num 0)⟩,  -- CONF_STATE
  ⟨0x400002, .conf, .bool, .wo, 1, 1, .own⟩,  -- CONF_CREATE
  ⟨0x400003, .conf, .bool, .wo, 1, 1, .own⟩,  -- CONF_END
  ⟨0x400004, .conf, .u8, .rw, 0, 255, (.num 255)⟩,  -- CONF_OWNER
  ⟨0x400005, .conf, .string, .rw, 0, 64, (.text [])⟩,  -- CONF_NAME
  ⟨0x400006, .conf, .bool, .rw, 0, 1, (.num 0)⟩,  -- CONF_LOCK
  ⟨0x400007, .conf, .enum, .rw, 0, 2, (.num 0)⟩,  -- CONF_LAYOUT
  ⟨0x400008, .conf, .bool, .rw, 0, 1, (.num 0)⟩,  -- CONF_RECORD
  ⟨0x400009, .conf, .u16, .ro, 0, 16384, .own⟩,  -- CONF_LEGS
  ⟨0x40000A, .conf, .u32, .ro, 0, 4194304, (.num 0)⟩,  -- CONF_PARTICIPANTS
  ⟨0x401001, .leg, .enum, .ro, 0, 4, (.num 0)⟩,  -- LEG_STATE
  ⟨0x401002, .leg, .u16, .wo, 0, 4095, .own⟩,  -- LEG_ATTACH
  ⟨0x401003, .leg, .bool, .wo, 1, 1, .own⟩,  -- LEG_DETACH
  ⟨0x401004, .leg, .bool, .wo, 1, 1, .own⟩,  -- LEG_RELEASE
  ⟨0x401005, .leg, .u16, .ro, 0, 65535, (.num 65535)⟩,  -- LEG_CONF
  ⟨0x401006, .leg, .u32, .ro, 0, 4294967295, .own⟩,  -- LEG_ROSTER_ID
  ⟨0x401007, .leg, .u8, .rwd, 0, 7, (.num 0)⟩,  -- LEG_MEDIA_PORT
  ⟨0x401008, .leg, .octets, .rwd, 18, 18, (.text [])⟩,  -- LEG_LOCAL_ADDR
  ⟨0x401009, .leg, .octets, .rwd, 18, 18, (.text [])⟩,  -- LEG_REMOTE_ADDR
  ⟨0x40100A, .leg, .string, .rwd, 4, 32, (.text [])⟩,  -- LEG_ICE_UFRAG
  ⟨0x40100B, .leg, .string, .rwd, 22, 64, (.text [])⟩,  -- LEG_ICE_PWD
  ⟨0x40100C, .leg, .octets, .rwd, 32, 32, (.text [])⟩,  -- LEG_DTLS_FP
  ⟨0x40100D, .leg, .enum, .rwd, 0, 1, (.num 0)⟩,  -- LEG_DTLS_ROLE
  ⟨0x40100E, .leg, .enum, .rwd, 0, 4, (.num 1)⟩,  -- LEG_AUDIO_CODEC
  ⟨0x40100F, .leg, .enum, .rwd, 0, 4, (.num 0)⟩,  -- LEG_VIDEO_CODEC
  ⟨0x401010, .leg, .enum, .ro, 0, 4, (.num 0)⟩,  -- LEG_SRTP_SUITE
  ⟨0x401011, .leg, .u32, .ro, 0, 4294967295, (.num 1500)⟩,  -- LEG_BWE_KBPS
  ⟨0x401012, .leg, .u64, .ro, 0, 18446744073709551615, (.num 0)⟩,  -- LEG_RX_PACKETS
  ⟨0x401013, .leg, .u64, .ro, 0, 18446744073709551615, (.num 0)⟩,  -- LEG_TX_PACKETS
  ⟨0x401014, .leg, .u8, .ro, 0, 255, (.num 0)⟩   -- LEG_LAST_ERROR
]

/-- Objects 0x4100 to 0x41FF. -/
def objRows41 : List ObjRow := [
  ⟨0x410001, .leg, .u32, .rw, 0, 67108863, .own⟩,  -- SHAPER_RATE
  ⟨0x410002, .leg, .u32, .rw, 64, 16777216, .own⟩,  -- SHAPER_BURST
  ⟨0x410003, .leg, .bool, .rw, 0, 1, .own⟩,  -- SHAPER_ENABLE
  ⟨0x410004, .leg, .enum, .rw, 0, 2, .own⟩,  -- DEBT_POLICY
  ⟨0x410101, .leg, .octets, .rw, 16, 16, .own⟩   -- POLICER
]

/-- Objects 0x5000 to 0x50FF. -/
def objRows50 : List ObjRow := [
  ⟨0x500001, (.upTo 16), .bool, .rw, 0, 1, (.fld fun i => R.VDE_CTRL_ENABLE i)⟩,  -- VDE_ENABLE
  ⟨0x500002, (.upTo 16), .enum, .ro, 0, 3, .own⟩,  -- VDE_STATE
  ⟨0x500003, (.upTo 16), .u8, .rwd, 1, 4, (.fld fun i => R.VDE_WD_SCALE_SCALE i)⟩,  -- VDE_WD_SCALE
  ⟨0x500004, (.upTo 16), .u64, .ro, 0, 18446744073709551615, (.ctr fun i => R.C_VDE_PIXELS i)⟩,  -- VDE_PIXELS
  ⟨0x500005, (.upTo 16), .u64, .ro, 0, 18446744073709551615, (.ctr fun i => R.C_VDE_WD_TRANSIENT i)⟩,  -- VDE_WD_TRANSIENT
  ⟨0x500101, .one, .u32, .ro, 0, 32000, .own⟩,  -- DECODE_CAPACITY
  ⟨0x501001, (.upTo 65536), .enum, .ro, 0, 3, .own⟩,  -- STREAM_STATE
  ⟨0x501002, (.upTo 65536), .u32, .ro, 0, 4294967295, .own⟩,  -- STREAM_PICS
  ⟨0x501003, (.upTo 65536), .u32, .ro, 0, 4294967295, .own⟩,  -- STREAM_CONCEALED
  ⟨0x501004, (.upTo 65536), .u32, .ro, 0, 4294967295, .own⟩,  -- STREAM_STANDINS
  ⟨0x501005, (.upTo 65536), .u32, .ro, 0, 4294967295, .own⟩,  -- STREAM_ABANDONED
  ⟨0x501006, (.upTo 65536), .bool, .rw, 0, 1, .own⟩,  -- STREAM_TEST
  ⟨0x502001, (.upTo 4), .bool, .rw, 0, 1, (.fld fun i => R.CMP_CTRL_ENABLE i)⟩,  -- CMP_ENABLE
  ⟨0x502002, (.upTo 4), .enum, .ro, 0, 3, .own⟩,  -- CMP_STATE
  ⟨0x502003, (.upTo 4), .u8, .rwd, 1, 4, (.fld fun i => R.CMP_WD_SCALE_SCALE i)⟩,  -- CMP_WD_SCALE
  ⟨0x502004, (.upTo 4), .u64, .ro, 0, 18446744073709551615, (.ctr fun i => R.C_CMP_PIXELS i)⟩,  -- CMP_PIXELS
  ⟨0x502101, .one, .u32, .ro, 0, 16000, .own⟩,  -- COMPOSE_CAPACITY
  ⟨0x503001, (.upTo 16), .bool, .rw, 0, 1, (.fld fun i => R.VEE_CTRL_ENABLE i)⟩,  -- VEE_ENABLE
  ⟨0x503002, (.upTo 16), .enum, .ro, 0, 3, .own⟩,  -- VEE_STATE
  ⟨0x503003, (.upTo 16), .u8, .rwd, 1, 4, (.fld fun i => R.VEE_WD_SCALE_SCALE i)⟩,  -- VEE_WD_SCALE
  ⟨0x503004, (.upTo 16), .u64, .ro, 0, 18446744073709551615, (.ctr fun i => R.C_VEE_PIXELS i)⟩,  -- VEE_PIXELS
  ⟨0x503005, (.upTo 16), .u64, .ro, 0, 18446744073709551615, (.ctr fun i => R.C_VEE_TRUNC_PICS i)⟩,  -- VEE_TRUNC_PICS
  ⟨0x503101, .one, .u32, .ro, 0, 24000, .own⟩,  -- ENCODE_CAPACITY
  ⟨0x504001, (.upTo 16384), .u32, .rw, 16, 200000, (.num 1500)⟩,  -- ENC_TARGET_KBPS
  ⟨0x504002, (.upTo 16384), .u32, .rw, 16, 400000, (.num 3000)⟩,  -- ENC_MAX_KBPS
  ⟨0x504003, (.upTo 16384), .enum, .rw, 0, 2, (.num 0)⟩,  -- ENC_RC_MODE
  ⟨0x504004, (.upTo 16384), .u16, .rw, 150, 800, (.num 200)⟩,  -- ENC_CAP_PCT
  ⟨0x504005, (.upTo 16384), .u8, .rw, 0, 3, (.num 0)⟩,  -- ENC_EFFORT
  ⟨0x504006, (.upTo 16384), .u16, .rw, 0, 65535, (.num 0)⟩,  -- ENC_INTRA_PERIOD
  ⟨0x504007, (.upTo 16384), .bool, .wo, 1, 1, .own⟩,  -- ENC_FORCE_INTRA
  ⟨0x504008, (.upTo 16384), .u32, .ro, 0, 4294967295, .own⟩,  -- ENC_PICS
  ⟨0x504009, (.upTo 16384), .u32, .ro, 0, 4294967295, .own⟩,  -- ENC_TRUNC_PICS
  ⟨0x50400A, (.upTo 16384), .u8, .ro, 0, 51, .own⟩,  -- ENC_LAST_QP
  ⟨0x505001, .leg, .u16, .rw, 0, 16000, (.num 500)⟩,  -- VIDEO_PACE_US
  ⟨0x505002, .leg, .u16, .rw, 500, 8900, (.num 1200)⟩,  -- VIDEO_MAX_PAYLOAD
  ⟨0x506001, .one, .bool, .rw, 0, 1, (.fld fun _ => R.TSP_CTRL_ENABLE)⟩,  -- TSP_ENABLE
  ⟨0x506002, .one, .enum, .ro, 0, 3, .own⟩,  -- TSP_STATE
  ⟨0x506003, .one, .enum, .rwd, 0, 1, (.fld fun _ => R.TSP_CADENCE_RATE)⟩,  -- LAYOUT_CADENCE
  ⟨0x506004, .one, .u8, .rw, 0, 255, (.num 8)⟩,  -- ENTRY_HOLDOFF
  ⟨0x506005, .one, .u32, .ro, 0, 300000, .own⟩,  -- STITCH_CAPACITY
  ⟨0x506006, .one, .u32, .rw, 16, 25000, (.num 150)⟩,  -- TILE_KBPS_T1
  ⟨0x506007, .one, .u32, .rw, 16, 25000, (.num 450)⟩,  -- TILE_KBPS_T2
  ⟨0x506008, .one, .u32, .rw, 16, 25000, (.num 1500)⟩,  -- TILE_KBPS_T3
  ⟨0x506009, .one, .octets, .rw, 0, 65535, (.text [])⟩,  -- BG_CARD_T1
  ⟨0x50600A, .one, .octets, .rw, 0, 65535, (.text [])⟩,  -- BG_CARD_T2
  ⟨0x50600B, .one, .octets, .rw, 0, 65535, (.text [])⟩,  -- BG_CARD_T3
  ⟨0x506101, .leg, .enum, .ro, 0, 2, (.num 0)⟩,  -- VIEWER_MODE
  ⟨0x506102, .leg, .enum, .rw, 0, 3, (.num 3)⟩,  -- VIEWER_CANVAS
  ⟨0x506103, .leg, .u32, .ro, 0, 4294967295, .own⟩,  -- VIEWER_PICS
  ⟨0x506104, .leg, .u32, .ro, 0, 4294967295, .own⟩,  -- VIEWER_BG_SLOTS
  ⟨0x506201, (.upTo 16384), .u32, .ro, 0, 4294967295, .own⟩,  -- TSET_SEQ
  ⟨0x506202, (.upTo 16384), .u32, .ro, 0, 4294967295, .own⟩   -- TSET_LAST_INTRA_TICK
]

/-- Objects 0x6000 to 0x60FF. -/
def objRows60 : List ObjRow := [
  ⟨0x600001, .one, .bool, .rw, 0, 1, (.fld fun _ => R.MXM_CTRL_ENABLE)⟩,  -- MIX_ENABLE
  ⟨0x600002, .one, .u16, .rw, 500, 50000, .own⟩,  -- ZC_TIMEOUT_US
  ⟨0x600003, .one, .u16, .rwd, 1000, 5000, (.fld fun _ => R.MXM_MIX_PHASE_MICROSECONDS)⟩,  -- MIX_PHASE_US
  ⟨0x600004, .one, .u16, .ro, 0, 4096, .own⟩,  -- MIX_CAPACITY
  ⟨0x600005, .one, .u16, .ro, 0, 1024, (.num 1024)⟩,  -- DECODE_SLOTS_FREE
  ⟨0x600006, .one, .u8, .rw, 0, 127, (.num 45)⟩,  -- ACTIVE_LEVEL
  ⟨0x600007, .one, .u16, .rw, 100, 10000, (.num 1000)⟩,  -- HANGOVER_MS
  ⟨0x600008, .one, .u16, .rw, 0, 10000, (.num 500)⟩,  -- MIN_HOLD_MS
  ⟨0x600009, .one, .u8, .rw, 0, 40, (.num 6)⟩,  -- SWITCH_MARGIN_DB
  ⟨0x60000A, .one, .u8, .rw, 0, 8, (.num 2)⟩,  -- CANDIDATES
  ⟨0x60000B, .one, .u32, .ro, 0, 4294967295, (.num 0)⟩,  -- DECODE_DEFERRED
  ⟨0x601001, .conf, .u8, .rw, 1, 64, (.num 8)⟩,  -- MIX_TALKERS
  ⟨0x601002, .conf, .u8, .ro, 0, 64, (.num 0)⟩,  -- TALKERS_NOW
  ⟨0x601003, .conf, .u16, .ro, 0, 4096, .own⟩,  -- AUDIO_ENCODES
  ⟨0x602001, .leg, .enum, .ro, 0, 4, (.num 0)⟩,  -- AUDIO_ROLE
  ⟨0x602002, .leg, .u16, .rw, 0, 65535, (.num 16384)⟩,  -- LEG_GAIN
  ⟨0x602003, .leg, .bool, .rw, 0, 1, (.num 0)⟩,  -- MUTE
  ⟨0x602004, .leg, .u16, .rw, 0, 500, (.num 20)⟩,  -- JB_MIN_MS
  ⟨0x602005, .leg, .u16, .rw, 20, 500, (.num 200)⟩,  -- JB_MAX_MS
  ⟨0x602006, .leg, .u16, .ro, 0, 500, (.num 40)⟩,  -- JB_NOW_MS
  ⟨0x602007, .leg, .u32, .ro, 0, 4294967295, (.num 0)⟩,  -- JB_LATE
  ⟨0x602008, .leg, .u8, .rw, 10, 60, (.num 20)⟩,  -- AUDIO_PTIME_MS
  ⟨0x602009, .leg, .u16, .rw, 6, 128, (.num 32)⟩   -- OPUS_KBPS
]

/-- Objects 0x6100 to 0x61FF. -/
def objRows61 : List ObjRow := [
  ⟨0x610001, (.upTo 8), .bool, .rw, 0, 1, (.fld fun i => R.DSC_CTRL_ENABLE i)⟩,  -- DSC_ENABLE
  ⟨0x610002, (.upTo 8), .u16, .ro, 0, 65535, (.fld fun i => R.DSC_FENCED_CORES i)⟩,  -- DSC_FENCED
  ⟨0x610003, (.upTo 8), .u8, .rwd, 1, 4, (.fld fun i => R.DSC_WD_SCALE_SCALE i)⟩,  -- DSC_WD_SCALE
  ⟨0x610101, .one, .u8, .ro, 0, 128, .own⟩,  -- DSP_CAPACITY
  ⟨0x610102, .one, .octets, .wo, 200, 65535, .own⟩,  -- KERNEL_INSTALL
  ⟨0x610201, (.upTo 256), .u32, .ro, 0, 4294967295, (.num 0)⟩,  -- KERNEL_VERSION
  ⟨0x610202, (.upTo 256), .u32, .ro, 0, 4294967295, (.num 0)⟩   -- KERNEL_FAULTS
]

/-- Objects 0x6200 to 0x62FF. -/
def objRows62 : List ObjRow := [
  ⟨0x620001, .one, .bool, .rw, 0, 1, (.fld fun _ => R.SDG_CTRL_ENABLE)⟩,  -- SDG_ENABLE
  ⟨0x620002, .one, .u8, .rw, 80, 160, (.fld fun _ => R.SDG_DET_THRESH_CODE)⟩,  -- DET_THRESH
  ⟨0x620003, .one, .u8, .rw, 64, 255, (.fld fun _ => R.SDG_QUAL_MIN_CODE)⟩,  -- QUAL_MIN
  ⟨0x620004, .one, .u8, .rw, 40, 80, (.num 60)⟩,  -- TX_LEVEL
  ⟨0x620005, .one, .u8, .rw, 80, 160, (.num 120)⟩,  -- COLOC_RSSI_MIN
  ⟨0x620006, .one, .u16, .rw, 30, 3600, (.num 300)⟩,  -- SWEEP_AGE_S
  ⟨0x620007, .one, .octets, .rwd, 243, 243, .own⟩,  -- SHAPING_FIR
  ⟨0x620008, .one, .u16, .ro, 0, 256, .own⟩,  -- SUNDOG_CAPACITY
  ⟨0x620009, .one, .u32, .ro, 0, 4294967295, (.num 0)⟩,  -- STALE_TOKEN
  ⟨0x621001, .leg, .bool, .wo, 1, 1, .own⟩,  -- PROBE_NOW
  ⟨0x621002, .leg, .enum, .ro, 0, 3, (.num 3)⟩,  -- COLOC_MODE
  ⟨0x621003, .leg, .u32, .ro, 0, 4294967295, (.num 4294967295)⟩,  -- GROUP
  ⟨0x621004, .leg, .u16, .rw, 0, 4095, (.num 0)⟩,  -- ROOM
  ⟨0x621005, .leg, .time64, .ro, 0, 18446744073709551615, (.num 0)⟩,  -- LAST_PROBE
  ⟨0x621006, .leg, .u32, .ro, 0, 4294967295, (.num 0)⟩   -- SELF_HEARD
]

/-- Objects 0x7000 to 0x70FF. -/
def objRows70 : List ObjRow := [
  ⟨0x700001, .one, .u8, .rw, 0, 3, (.fld fun _ => R.CPX_SCA_LEVEL_LEVEL)⟩,  -- SCA_LEVEL
  ⟨0x700002, .one, .u8, .rw, 16, 47, (.fld fun _ => R.CPX_SOFT_EXP_EXP)⟩,  -- SOFT_LIMIT_EXP
  ⟨0x700003, .one, .u16, .rw, 0, 65535, (.fld fun _ => R.CPX_GRACE_MS_MS)⟩,  -- GRACE_MS
  ⟨0x700004, .one, .u8, .ro, 0, 24, .own⟩,  -- CIPHER_CORES
  ⟨0x700005, .one, .enum, .ro, 0, 2, .own⟩,  -- RNG_STATE
  ⟨0x700006, .one, .bool, .wo, 1, 1, .own⟩,  -- ZEROIZE_ALL
  ⟨0x700007, .one, .u64, .ro, 0, 18446744073709551615, (.ctr fun _ => R.C_CPX_AUTH_FAIL)⟩,  -- AUTH_FAIL
  ⟨0x701001, (.upTo 65536), .octets, .wo, 128, 128, .own⟩,  -- KEY_WRITE
  ⟨0x701002, (.upTo 65536), .bool, .wo, 1, 1, .own⟩,  -- KEY_ERASE
  ⟨0x701003, (.upTo 65536), .bool, .wo, 1, 1, .own⟩,  -- KEY_ZEROIZE
  ⟨0x701004, (.upTo 65536), .bool, .wo, 1, 1, .own⟩,  -- KEY_RETIRE_OLD
  ⟨0x701005, (.upTo 65536), .enum, .ro, 0, 4, .own⟩,  -- KEY_STATE
  ⟨0x701006, (.upTo 65536), .u16, .ro, 0, 65535, .own⟩,  -- KEY_GEN
  ⟨0x701007, (.upTo 65536), .u64, .ro, 0, 281474976710656, .own⟩,  -- KEY_COUNT
  ⟨0x701008, (.upTo 65536), .enum, .ro, 0, 8, .own⟩   -- KEY_SUITE
]

/-- Objects 0x8000 to 0x80FF. -/
def objRows80 : List ObjRow := [
  ⟨0x800001, .one, .u8, .rwd, 0, 255, (.fld fun _ => R.TRK_MODULE_INDEX)⟩,  -- MODULE_INDEX
  ⟨0x800002, .one, .u32, .rwd, 0, 4294967295, (.fld fun _ => R.TRK_CASCADE_ID_ID)⟩,  -- CASCADE_ID
  ⟨0x800003, .one, .enum, .rw, 5, 6, .own⟩,  -- TRUNK_SUITE
  ⟨0x800004, .one, .u32, .rw, 60, 86400, (.fld fun _ => R.TRK_REKEY_S_SECONDS)⟩,  -- REKEY_S
  ⟨0x800005, .one, .u16, .rwd, 256, 16384, (.num 4096)⟩,  -- JOURNAL_DEPTH
  ⟨0x801001, (.upTo 256), .bool, .rw, 0, 1, (.fld fun i => R.TRK_Tt_CTRL_EN i)⟩,  -- TRUNK_ENABLE
  ⟨0x801002, (.upTo 256), .u8, .rwd, 0, 255, (.fld fun i => R.TRK_Tt_CTRL_PEER i)⟩,  -- PEER_MODULE
  ⟨0x801003, (.upTo 256), .octets, .rwd, 32, 32, (.text [])⟩,  -- PEER_ID_HASH
  ⟨0x801004, (.upTo 256), .enum, .ro, 0, 6, (.fld fun i => R.TRK_Tt_STAT_STATE i)⟩,  -- TRUNK_STATE
  ⟨0x801005, (.upTo 256), .u16, .rwd, 0, 256, (.fld fun i => R.TRK_Tt_WIN_WIN_MIB i)⟩,  -- WIN_MIB
  ⟨0x801006, (.upTo 256), .u32, .ro, 0, 4294967295, (.fld fun i => R.TRK_Tt_SRTT_MICROSECONDS i)⟩,  -- RTT_US
  ⟨0x801007, (.upTo 256), .octets, .rwd, 128, 128, .own⟩   -- HEADER_TEMPLATE
]

/-- Objects 0x8100 to 0x81FF. -/
def objRows81 : List ObjRow := [
  ⟨0x810001, (.upTo 256), .octets, .rw, 8, 8, .own⟩   -- TRUNK_SHAPER
]

/-- Objects 0x8200 to 0x82FF. -/
def objRows82 : List ObjRow := [
  ⟨0x820001, .conf, .enum, .ro, 0, 3, (.num 0)⟩,  -- CONF_ROLE
  ⟨0x820002, .conf, .u8, .ro, 0, 255, (.num 0)⟩,  -- ANCHOR_MODULE
  ⟨0x820003, .conf, .u32, .ro, 0, 4294967295, (.num 0)⟩,  -- EPOCH
  ⟨0x820004, .conf, .u32, .ro, 0, 4294967295, (.num 0)⟩,  -- ANCHOR_EPOCH
  ⟨0x820005, .conf, .enum, .rw, 0, 1, (.num 0)⟩,  -- ISLAND_POLICY
  ⟨0x820006, .conf, .bool, .wo, 1, 1, .own⟩,  -- PROMOTE
  ⟨0x820007, .conf, .u16, .ro, 0, 16384, (.num 0)⟩,  -- JOURNAL_USED
  ⟨0x820008, .conf, .u32, .ro, 0, 4194304, (.num 0)⟩   -- AWAY_COUNT
]

/-- Objects 0x9000 to 0x90FF. -/
def objRows90 : List ObjRow := [
  ⟨0x900001, .one, .bool, .rw, 0, 1, (.fld fun _ => R.HTS_CTRL_ENABLE)⟩,  -- HTS_ENABLE
  ⟨0x900002, .one, .u16, .ro, 0, 4096, (.fld fun _ => R.HTS_SLOTS_USED_SLOTS)⟩,  -- TASKS_IN_FLIGHT
  ⟨0x900003, .one, .u16, .rw, 0, 2048, (.fld fun _ => R.HTS_RESV_SLOTS)⟩,  -- SLOT_RESERVE
  ⟨0x900004, .one, .u16, .rw, 0, 65535, (.fld fun _ => R.HTS_TRACE_MASK_REASONS)⟩,  -- TRACE_MASK
  ⟨0x900005, .one, .u64, .ro, 0, 18446744073709551615, (.ctr fun _ => R.C_HTS_SKIPPED)⟩,  -- TASKS_SKIPPED
  ⟨0x900006, .one, .u64, .ro, 0, 18446744073709551615, (.ctr fun _ => R.C_HTS_STEPPED)⟩,  -- TASKS_STEPPED
  ⟨0x900007, .one, .u64, .ro, 0, 18446744073709551615, (.ctr fun _ => R.C_HTS_LATE_DONE)⟩   -- TASKS_LATE
]

/-- Objects 0x9100 to 0x91FF. -/
def objRows91 : List ObjRow := [
  ⟨0x910001, .one, .u8, .rw, 90, 240, (.fld fun _ => R.UPD_CAP_WATTS)⟩,  -- POWER_CAP_W
  ⟨0x910002, .one, .u32, .ro, 0, 4294967295, (.fld fun _ => R.UPD_PKG_POWER_MILLIWATTS)⟩,  -- PACKAGE_POWER_MW
  ⟨0x910003, .one, .u8, .ro, 0, 4, (.fld fun _ => R.UPD_SHED_LEVEL)⟩,  -- SHED_LEVEL
  ⟨0x910004, .one, .u8, .rw, 0, 4, (.fld fun _ => R.UPD_SHED_FLOOR)⟩,  -- SHED_FLOOR
  ⟨0x910005, .one, .u16, .rw, 1, 1000, (.fld fun _ => R.UPD_SHED_HOLD_WINDOWS)⟩,  -- SHED_HOLD
  ⟨0x910006, .one, .u16, .rw, 0, 10000, (.fld fun _ => R.UPD_LULL_IDLE_MICROSECONDS)⟩,  -- LULL_IDLE_US
  ⟨0x910007, .one, .bool, .rw, 0, 1, (.fld fun _ => R.UPD_CTRL_LEARN)⟩,  -- LEARN
  ⟨0x910008, .one, .bool, .rw, 0, 1, (.fld fun _ => R.UPD_CTRL_STANDBY)⟩   -- STANDBY
]

/-- Objects 0x9200 to 0x92FF. -/
def objRows92 : List ObjRow := [
  ⟨0x920001, .one, .u8, .rw, 70, 95, (.fld fun _ => R.UPD_T_WARN_CELSIUS)⟩,  -- T_WARN
  ⟨0x920002, .one, .u8, .rw, 72, 102, (.fld fun _ => R.UPD_T_SHED_CELSIUS)⟩,  -- T_SHED
  ⟨0x920003, .one, .u8, .ro, 0, 255, (.fld fun _ => R.UPD_T_TRIP_CELSIUS)⟩,  -- T_TRIP
  ⟨0x920004, .one, .u8, .ro, 0, 255, (.fld fun _ => R.UPD_TJ_CELSIUS)⟩,  -- TJ_NOW
  ⟨0x920005, .one, .enum, .ro, 0, 3, (.fld fun _ => R.UPD_STATUS_THERMAL)⟩   -- THERMAL_STATE
]

/-- Objects 0x9300 to 0x93FF. -/
def objRows93 : List ObjRow := [
  ⟨0x930001, (.upTo 16), .u32, .ro, 0, 4294967295, (.fld fun i => R.UPD_EC_COST_PJ i)⟩,  -- ECLASS_COST
  ⟨0x930002, (.upTo 16), .u32, .ro, 0, 4294967295, (.fld fun i => R.UPD_EC_FUSED_PJ i)⟩   -- ECLASS_FUSED
]

/-- Objects 0xA000 to 0xA0FF. -/
def objRowsA0 : List ObjRow := [
  ⟨0xA00001, .one, .bool, .ro, 0, 1, (.fld fun _ => R.HBM_MAP_STATUS_HBM_READY)⟩,  -- HBM_READY
  ⟨0xA00002, .one, .u16, .rw, 200, 8000, (.fld fun _ => R.HBM_AGE_MAX_NS)⟩,  -- AGE_MAX_NS
  ⟨0xA00003, .one, .u16, .rw, 256, 32768, (.fld fun _ => R.HBM_RDT_THRESH_ACTS)⟩,  -- RDT_THRESH
  ⟨0xA00004, .one, .u16, .rw, 50, 5000, (.fld fun _ => R.HBM_RDT_GAP_NS)⟩,  -- RDT_GAP_NS
  ⟨0xA00005, .one, .u16, .rw, 10, 10000, (.fld fun _ => R.HBM_RDT_US_US)⟩,  -- RDT_THROTTLE_US
  ⟨0xA00006, .one, .u8, .rw, 0, 255, (.fld fun _ => R.HBM_SCRUB_H_HOURS)⟩,  -- SCRUB_HOURS
  ⟨0xA00007, .one, .u64, .rw, 0, 68451041280, .own⟩,  -- BAR2_WINDOW
  ⟨0xA01001, (.upTo 4), .enum, .ro, 0, 2, .own⟩,  -- HBM_STATE
  ⟨0xA01002, (.upTo 4), .u8, .ro, 0, 255, (.fld fun i => R.HBM_STACK_TEMP_CELSIUS i)⟩,  -- STACK_TEMP
  ⟨0xA01003, (.upTo 4), .u64, .ro, 0, 18446744073709551615, (.ctr fun i => R.C_HBM_CE_COUNT i)⟩,  -- CE_COUNT
  ⟨0xA01004, (.upTo 4), .u64, .ro, 0, 18446744073709551615, (.ctr fun i => R.C_HBM_POISONED i)⟩,  -- POISONED
  ⟨0xA01005, (.upTo 4), .u64, .ro, 0, 18446744073709551615, (.ctr fun i => R.C_HBM_RDT_EVENTS i)⟩,  -- RDT_EVENTS
  ⟨0xA02001, (.upTo 8), .octets, .ro, 8, 8, .own⟩   -- REGION
]

/-- Objects 0xA100 to 0xA1FF. -/
def objRowsA1 : List ObjRow := [
  ⟨0xA10001, (.upTo 6), .u32, .ro, 0, 1048576, (.fld fun i => R.BPM_Pp_FREE_F i)⟩,  -- POOL_FREE
  ⟨0xA10002, (.upTo 6), .enum, .ro, 0, 3, (.fld fun i => R.BPM_Pp_LEVEL_LEVEL i)⟩,  -- POOL_LEVEL
  ⟨0xA10003, (.upTo 6), .u32, .rw, 0, 2097151, (.fld fun i => R.BPM_Pp_WARN1_CELLS i)⟩,  -- POOL_WARN1
  ⟨0xA10004, (.upTo 6), .u32, .rw, 0, 2097151, (.fld fun i => R.BPM_Pp_WARN2_CELLS i)⟩,  -- POOL_WARN2
  ⟨0xA10005, (.upTo 6), .u32, .rw, 0, 2097151, (.fld fun i => R.BPM_Pp_STOP_CELLS i)⟩,  -- POOL_STOP
  ⟨0xA10006, (.upTo 6), .u32, .rw, 0, 2097151, (.fld fun i => R.BPM_Pp_HYST_CELLS i)⟩,  -- POOL_HYST
  ⟨0xA10007, (.upTo 6), .u32, .ro, 0, 4294967295, (.fld fun i => R.BPM_Pp_EMPTY_DROPS_COUNT i)⟩,  -- POOL_EMPTY_DROPS
  ⟨0xA10101, .one, .u32, .rw, 100, 100000, (.fld fun _ => R.BPM_HOLD_MAX_MICROSECONDS)⟩,  -- HOLD_MAX
  ⟨0xA10102, .one, .u16, .rw, 1, 10000, (.fld fun _ => R.BPM_COMPAT_STALL_MICROSECONDS)⟩   -- COMPAT_STALL
]

/-- Objects 0xB000 to 0xB0FF. -/
def objRowsB0 : List ObjRow := [
  ⟨0xB00001, .one, .time64, .ro, 0, 18446744073709551615, .own⟩,  -- TIME_NOW
  ⟨0xB00002, .one, .bool, .rw, 0, 1, (.fld fun _ => R.TIM_CTRL_TIME_VALID)⟩,  -- TIME_VALID
  ⟨0xB00003, .one, .bool, .rw, 0, 1, (.fld fun _ => R.TIM_CTRL_STEP_ALLOWED)⟩,  -- STEP_ALLOWED
  ⟨0xB00004, .one, .i32, .rw, 0, 4294967295, (.fld fun _ => R.TIM_SLEW_PPB)⟩,  -- SLEW_PPB
  ⟨0xB00005, .one, .u32, .rw, 10, 1000000, (.num 1000)⟩,  -- VALID_LIMIT_NS
  ⟨0xB00006, .one, .enum, .rw, 0, 8, (.num 8)⟩,  -- PTP_PORT
  ⟨0xB00007, .one, .u8, .rw, 0, 127, (.num 0)⟩   -- PTP_DOMAIN
]

/-- Objects 0xE000 to 0xE0FF. -/
def objRowsE0 : List ObjRow := [
  ⟨0xE00001, .one, .octets, .once, 32, 32, .own⟩,  -- DEVICE_IDENTITY
  ⟨0xE00002, .one, .enum, .ro, 0, 1, (.fld fun _ => R.FUS_CAPACITY_TIER)⟩,  -- CAPACITY_TIER
  ⟨0xE00003, .one, .octets, .once, 32, 32, .own⟩,  -- OWNER_KEY_HASH
  ⟨0xE00004, .one, .octets, .wo, 161, 161, .own⟩,  -- OWNER_TRANSFER_AUTH
  ⟨0xE00005, .one, .u8, .once, 0, 64, (.fld fun _ => R.FUS_BOOT_FLOOR)⟩,  -- ROLLBACK_FLOOR
  ⟨0xE00006, .one, .bool, .once, 1, 1, (.fld fun _ => R.FUS_STATUS_TRUNK_LOCK)⟩,  -- TRUNK_CIPHER_LOCK
  ⟨0xE00007, .one, .bool, .once, 1, 1, (.fld fun _ => R.FUS_STATUS_DEBUG_DIS)⟩,  -- DEBUG_DISABLE
  ⟨0xE00011, .one, .u8, .ro, 0, 64, (.fld fun _ => R.FUS_ONCE_LEFT_IDENTITY)⟩,  -- ONCE_LEFT
  ⟨0xE00012, .one, .u8, .ro, 0, 64, (.fld fun _ => R.FUS_ONCE_LEFT_CAPACITY)⟩,  -- ONCE_LEFT
  ⟨0xE00013, .one, .u8, .ro, 0, 64, (.fld fun _ => R.FUS_ONCE_LEFT_OWNER)⟩,  -- ONCE_LEFT
  ⟨0xE00014, .one, .u8, .ro, 0, 64, (.fld fun _ => R.FUS_ONCE_LEFT_FLOOR)⟩,  -- ONCE_LEFT
  ⟨0xE00015, .one, .u8, .ro, 0, 64, (.fld fun _ => R.FUS_ONCE_LEFT_TRUNK_LOCK)⟩,  -- ONCE_LEFT
  ⟨0xE00016, .one, .u8, .ro, 0, 64, (.fld fun _ => R.FUS_ONCE_LEFT_DEBUG_DIS)⟩   -- ONCE_LEFT
]

/-- Objects 0xF000 to 0xF0FF. -/
def objRowsF0 : List ObjRow := [
  ⟨0xF00001, .one, .u64, .ro, 0, 18446744073709551615, (.ctr fun _ => 0x00F00010)⟩,  -- LOG_COUNT
  ⟨0xF00002, .one, .enum, .rw, 0, 4, (.fld fun _ => R.SQL_CTRL_MIN_SEV)⟩,  -- LOG_MIN_SEVERITY
  ⟨0xF00003, .one, .u64, .rw, 0, 18446744073709551615, .own⟩,  -- LOG_FROM
  ⟨0xF00004, .one, .octets, .ro, 8, 32776, .own⟩,  -- LOG_EXPORT
  ⟨0xF00005, .one, .u32, .ro, 0, 4294967295, (.fld fun _ => R.SQL_SUPPRESSED_COUNT)⟩,  -- LOG_SUPPRESSED
  ⟨0xF00006, .one, .u8, .rw, 0, 15, (.fld fun _ => ⟨R.SQL_ALERT_CAUSE_FENCE.addr, 0, 4⟩)⟩,  -- ALERT_CAUSE
  ⟨0xF00007, .one, .u8, .rw, 0, 255, (.fld fun _ => R.SQL_TRANSIENT_LIMIT_PER_SECOND)⟩,  -- TRANSIENT_LIMIT
  ⟨0xF00008, .one, .u16, .ro, 0, 65535, (.fld fun _ => R.SQL_FENCED_UNITS_COUNT)⟩,  -- FENCED_UNITS
  ⟨0xF01001, (.upTo 24), .octets, .ro, 16, 16, .own⟩,  -- FENCE_MASK
  ⟨0xF01002, (.upTo 24), .u32, .ro, 0, 4294967295, (.fld fun i => R.SQL_TRANS_COUNT i)⟩   -- TRANSIENTS
]

/-- Every object. -/
def objRows : List (List ObjRow) :=
  [objRows10, objRows11, objRows20, objRows21, objRows22, objRows30, objRows31, objRows40,
   objRows41, objRows50, objRows60, objRows61, objRows62, objRows70, objRows80, objRows81,
   objRows82, objRows90, objRows91, objRows92, objRows93, objRowsA0, objRowsA1, objRowsB0,
   objRowsE0, objRowsF0]

/-- The row of an object number. -/
def objRow (n : Nat) : Option ObjRow := objRows.findSome? fun rs => rs.find? fun r => r.num == n

end Sys2Proof.Machine
end

