-- ==== Sys2Proof/Machine/DictRead.lean ====
section
/-! DEFINITION. Reading the object dictionary (spec/16_object_dictionary.md, R516 to R519, R541 to R545, and the object tables of the
other chapters): the values that a rule gives, and the octets of a value (R21, R517). -/

namespace Sys2Proof.Machine

open Sys2Proof

/-! ### Values that a rule gives -/

/-- The state of an engine as its object reports it: 0 ACTIVE, 1 LULL, 2 DISABLED, 3 FENCED (R196, R231, R265). -/
def engineState (fenced lull on : Bool) : Nat := if fenced then 3 else if !on then 2 else if lull then 1 else 0

/-- The state of the VDE, CMP or VEE `n`, or of the splicer. -/
def State.engineStateOf (s : State) (o n : Nat) : Nat :=
  if o = 0x500002 then engineState (s.isSet (R.VDE_STATUS_FENCED n)) (s.isSet (R.VDE_STATUS_LULL n)) (s.isSet (R.VDE_CTRL_ENABLE n))
  else if o = 0x502002 then engineState (s.isSet (R.CMP_STATUS_FENCED n)) (s.isSet (R.CMP_STATUS_LULL n)) (s.isSet (R.CMP_CTRL_ENABLE n))
  else if o = 0x503002 then engineState (s.isSet (R.VEE_STATUS_FENCED n)) (s.isSet (R.VEE_STATUS_LULL n)) (s.isSet (R.VEE_CTRL_ENABLE n))
  else engineState (s.isSet R.TSP_STATUS_FENCED) (s.isSet R.TSP_STATUS_LULL) (s.isSet R.TSP_CTRL_ENABLE)

/-- The capacities, less what is fenced (R196, R231, R265, R292, R326, R351, R390). -/
def State.capacity (s : State) (o : Nat) : Nat :=
  if o = 0x500101 then 2000 * (16 - s.fencedCount Unit.vde 16)
  else if o = 0x502101 then 4000 * (4 - s.fencedCount Unit.cmp 4)
  else if o = 0x503101 then 1500 * (16 - s.fencedCount Unit.vee 16)
  else if o = 0x506005 then (if s.isFenced Unit.tsp 0 then 0 else 300000)
  else if o = 0x600004 then (if s.isFenced Unit.mxm 0 then 0 else 4096)
  else if o = 0x610101 then 128 - s.fencedCount Unit.dsc 128
  else if o = 0x620008 then (if s.isFenced Unit.sdg 0 then 0 else 256)
  else 24 - s.fencedCount Unit.cpx 24

/-- A field of a stream's decode context, 0 where the stream has none (R173, R197). -/
def State.streamField (s : State) (stream offset n : Nat) : Nat :=
  if s.streamCtx stream = 0 then 0 else s.le (s.streamCtx stream + offset) n

/-- The stream objects (R197). -/
def State.streamNum (s : State) (o stream : Nat) : Nat :=
  if o = 0x501001 then s.streamField stream 0x20 1 % 4
  else if o = 0x501002 then s.streamField stream 0x24 4
  else if o = 0x501003 then s.streamField stream 0x28 4
  else if o = 0x501004 then s.streamField stream 0x2C 4
  else if o = 0x501005 then s.streamField stream 0x30 4
  else s.streamField stream 1 1 % 2

/-- STATE of a key slot (R389). -/
def SlotState.code : SlotState → Nat
  | .empty => 0
  | .active => 1
  | .activeTwo => 2
  | .exhausted => 3
  | .draining => 4

/-- The objects of a key slot (R390): its state, and its current generation's number, counter and suite. -/
def State.keyNum (s : State) (o n : Nat) : Nat :=
  let k := s.slot n
  if o = 0x701005 then k.state.code
  else if o = 0x701006 then (k.cur?.map KeyGen.num).getD 0
  else if o = 0x701007 then (k.cur?.map KeyGen.count).getD 0
  else (k.cur?.map KeyGen.suite).getD 0

/-- Words as octets, each most significant octet first. -/
def wordOctets (ws : List Nat) : List Byte := ws.flatMap fun w => natToOs 4 (w % 2 ^ 32)

/-- The numbers of the sessions there are. -/
def State.sessionList (s : State) : List (Nat × GulSession) :=
  s.gul.sessions.filterMap fun e => e.2.map fun g => (e.1, g)

/-- Whether a session is one of function `fn`'s mailbox path. -/
def GulSession.onMailbox (g : GulSession) (fn : Nat) : Bool := match g.path with | .mailbox n => n.val == fn | .management => false

/-- Whether a session is one of the management port. -/
def GulSession.onPort (g : GulSession) : Bool := match g.path with | .mailbox _ => false | .management => true

/-- The functions that hold a session, as a mask (R543). -/
def State.mailboxMask (s : State) : Nat :=
  (List.range 16).foldl (fun m n => if s.sessionList.any fun e => e.2.onMailbox n then setBit m n else m) 0

/-- The numbers that a rule of their own gives; `sess` is the session that reads. -/
def State.ownNum (s : State) (sess o i : Nat) : Nat :=
  if o = 0x100005 then 2
  else if o = 0x100006 then s.legLimit
  else if o = 0x100007 then s.deviceSerial
  else if o = 0x10000C then s.cycle / secCycles
  else if o = 0x10000D then 1
  else if o = 0x110011 then s.boot.stageOff
  else if o = 0x110015 then s.boot.stage
  else if o = 0x11001C then (if s.bankCheck s.otherBank s.ownerHash = 0 then hdrField (s.bankByte s.otherBank) 8 4 else 0)
  else if o = 0x200003 then bnat s.mgmtUp
  else if o = 0x210003 then ((List.range 16).filter fun n => n != 0 && (s.fn n).exists_).length
  else if o = 0x211002 then bnat (s.fn i).exists_
  else if o = 0x220004 then (s.sessionList.filter fun e => e.2.onPort).length
  else if o = 0x220005 then s.mailboxMask
  else if o = 0x220006 then s.gul.subs.length
  else if o = 0x311004 then
    (s.get (R.TGC_ADMIN_BASE_SEC_LO_SEC i) + s.get (R.TGC_ADMIN_BASE_SEC_HI_SEC i) * 2 ^ 32) * 1000000000 + s.get (R.TGC_ADMIN_BASE_NS_NS i)
  else if o = 0x400009 then (s.legsOf i).length
  else if o = 0x601003 then s.audioEncodes i
  else if o = 0x401006 then s.rosterId i
  else if o = 0x410001 then (s.shaper i).rate
  else if o = 0x410002 then (s.shaper i).burst
  else if o = 0x410003 then bnat (s.shaper i).en
  else if o = 0x410004 then (s.shaper i).policy
  else if o = 0x500002 || o = 0x502002 || o = 0x503002 || o = 0x506002 then s.engineStateOf o i
  else if o = 0x500101 || o = 0x502101 || o = 0x503101 || o = 0x506005 || o = 0x600004 || o = 0x610101 || o = 0x620008 || o = 0x700004 then
    s.capacity o
  else if 0x501001 ≤ o && o ≤ 0x501006 then s.streamNum o i
  else if o = 0x504008 then s.le (encodeCtxAddr i + 0x44) 4
  else if o = 0x504009 then s.le (encodeCtxAddr i + 0x48) 4
  else if o = 0x50400A then s.le (encodeCtxAddr i + 0x52) 1
  else if o = 0x506103 then s.le (viewerCtxAddr i + 0xC) 4
  else if o = 0x506104 then SMap.get 0 s.fw.bgSlots (viewerCtxAddr i)
  else if o = 0x506201 then s.le (s.tsetAddr i + 4) 4
  else if o = 0x506202 then s.le (s.tsetAddr i + 0x28) 4
  else if o = 0x600002 then roundDiv (s.get R.MXM_ZC_TIMEOUT_SAMPLES * 1000) 48
  else if o = 0x700005 then
    match s.cpx.rng with
    | .off => 0
    | .starting => 0
    | .ready => 1
    | .retesting => 0
    | .failed => 2
  else if 0x701005 ≤ o && o ≤ 0x701008 then s.keyNum o i
  else if o = 0x800003 then s.trunkSuite
  else if o = 0xA00007 then s.pair R.HBM_BAR2_WIN_LO_ADDR R.HBM_BAR2_WIN_HI_ADDR
  else if o = 0xA01001 then (if s.isSet (R.HBM_STATUS_FENCED i) then 2 else if s.isSet (R.HBM_STATUS_READY i) then 1 else 0)
  else if o = 0xB00001 then s.time64
  else if o = 0xF00003 then ((s.session sess).map GulSession.logFrom).getD 0
  else 0

/-- LOG_EXPORT (R598): the first sequence number, then up to 1,024 entries in the layout of R589. -/
def State.logExport (s : State) (from_ : Nat) : List Byte :=
  let n := s.counter 0x00F00010
  let first := max from_ (n - 8192)
  natToOs 8 first ++ (List.range (min 1024 (n - first))).flatMap fun k => (s.entryAt ((first + k) % 8192)).words.flatMap (leBytes 4)

/-- The octet strings that a rule of their own gives. -/
def State.ownText (s : State) (sess o i : Nat) : List Byte :=
  if o = 0x100001 then textOctets "Ifezar"
  else if o = 0x100002 then textOctets "Kaliadon KB-7"
  else if o = 0x100003 then s.orderingCode
  else if o = 0x100004 then textOctets "B0"
  else if o = 0x100008 then s.identityPub
  else if o = 0x110001 then Config.diePubkey
  else if o = 0x110002 then Config.dieCert
  else if o = 0x110003 then s.boot.endorse
  else if o = 0x110005 then ((s.session sess).map GulSession.report).getD []
  else if o = 0x200004 then slice s.identity 8 14
  else if o = 0x311002 then (s.adminList i).flatMap fun e => natToOs 1 e.1 ++ natToOs 4 e.2
  else if o = 0x410101 then
    let p := s.policer i
    wordOctets [p.cir + bnat p.en * 2 ^ 26 + bnat p.yellowDrop * 2 ^ 27, p.pir, p.cbs, p.pbs]
  else if o = 0x620007 then (List.range 81).flatMap fun k => natToOs 3 (s.get (R.SDG_FIR_COEF k))
  else if o = 0x801007 then s.bytes (s.trunkHdrBase + i * 128) 128
  else if o = 0x810001 then
    let h := s.shaper (16384 + i)
    wordOctets [h.rate + bnat h.en * 2 ^ 26 + h.policy * 2 ^ 27, h.burst]
  else if o = 0xA02001 then
    natToOs 2 (s.get (R.HBM_REG_BASE_UNITS i)) ++ natToOs 2 (s.get (R.HBM_REG_SIZE_UNITS i)) ++ natToOs 1 (s.get (R.HBM_REG_CFG_MAP i)) ++
      natToOs 1 (s.get (R.HBM_REG_CFG_HOST_WP i)) ++ [0, 0]
  else if o = 0xE00001 then (if s.isSet R.FUS_STATUS_IDENTITY_SET then s.identity else [])
  else if o = 0xE00003 then s.ownerHash
  else if o = 0xF00004 then s.logExport (((s.session sess).map GulSession.logFrom).getD 0)
  else if o = 0xF01001 then wordOctets ((List.range 4).map fun j => s.get (R.SQL_FENCE_INSTANCES i j))
  else []

/-! ### Reading a value -/

/-- Whether an instance is of a port that the port mode does not use (R56). -/
def State.hiddenPort (s : State) (r : ObjRow) (i : Nat) : Bool :=
  match r.inst with
  | .port => !s.portNamed i
  | _ => false

/-- A number object's value. -/
def State.objValue (s : State) (sess : Nat) (r : ObjRow) (i : Nat) : Nat :=
  if s.hiddenPort r i then 0
  else
    match r.home with
    | .fld f => s.get (f i)
    | .ctr f => s.counter (f i)
    | .num d => if 0x504001 ≤ r.num && r.num ≤ 0x504006 then s.encodeField r.num i d else s.obj r.num i d
    | .text _ => 0
    | .own => s.ownNum sess r.num i

/-- The octets that an OCTETS or STRING object holds where none have been written. -/
def textDefault (r : ObjRow) : List Byte :=
  match r.home with
  | .text d => if 0x506009 ≤ r.num && r.num ≤ 0x50600B then Config.greyCard (r.num - 0x506008) else d
  | _ => []

/-- An octet-string object's value; a remote ICE password is not shown (R545). -/
def State.objText (s : State) (sess : Nat) (r : ObjRow) (i : Nat) : List Byte :=
  if s.hiddenPort r i || r.num = 0x40100B then []
  else
    match r.home with
    | .own => s.ownText sess r.num i
    | _ => (SMap.find? s.objOct (objKey r.num i)).getD (textDefault r)

/-- The octets of an object's value, without the length of an OCTETS or STRING value (R21, R517). -/
def State.readObj (s : State) (sess : Nat) (r : ObjRow) (i : Nat) : List Byte :=
  match r.ty.size with
  | some n => natToOs n (s.objValue sess r i)
  | none => s.objText sess r i

end Sys2Proof.Machine
end

