-- ==== Sys2Proof/Machine/Sessions.lean ====
section
/-! DEFINITION. Opening and closing sessions, and what a session sees of the dictionary (spec/16_object_dictionary.md, R516, R528 to
R531). -/

namespace Sys2Proof.Machine

open Sys2Proof

/-! ### Closing (R529) -/

/-- A session ends: its subscriptions, block, waiting notifications and staging go with it (R529, R571). -/
def State.dropSession (s : State) (n : Nat) : State :=
  let s := (s.setSession n none).endStaging n
  { s with gul := { s.gul with subs := s.gul.subs.filter fun b => b.session != n
                               waits := s.gul.waits.filter fun w => w.session != n
                               noteQ := s.gul.noteQ.filterMap fun e =>
                                 let l := e.2.filter fun w => w.session != n
                                 if l.isEmpty then none else some (e.1, l) } }

/-- The device closes a session of its own accord with CLOSE, whose SEQ is a free value, since it answers no request (R533). -/
def State.closeSession (s : State) (n : Nat) : State :=
  ((s.gulSend n ⟨5, s.free (2 ^ 32), 0, St.ok, []⟩).spent).dropSession n

/-- Close every session that a condition names. -/
def State.closeWhere (s : State) (f : Nat → GulSession → Bool) : State :=
  (s.sessionList.filter fun e => f e.1 e.2).foldl (fun (s : State) e => s.closeSession e.1) s

/-! ### What a session may see and do (R516, R530, R531) -/

/-- Whether an object is indexed by a conference or a leg. -/
def ObjRow.perConf (r : ObjRow) : Bool := match r.inst with | .conf => true | _ => false

/-- Whether an object is indexed by a leg. -/
def ObjRow.perLeg (r : ObjRow) : Bool := match r.inst with | .leg => true | _ => false

/-- Whether an instance exists (R516). -/
def State.instanceExists (s : State) (r : ObjRow) (i : Nat) : Bool :=
  match r.inst with
  | .one => i == 0
  | .upTo n => i < n
  | .port => i < 8
  | .leg => i < s.legLimit
  | .conf => i < 4096

/-- The owner of a conference (R544). -/
def State.confOwner (s : State) (conf : Nat) : Nat := s.obj 0x400004 conf 255

/-- Whether a session of function `fn` sees an instance of a conference's or a leg's object (R531). -/
def State.tenantSees (s : State) (fn : Nat) (r : ObjRow) (i : Nat) : Bool :=
  if r.perLeg then s.confOf i != 0xFFFF && s.confOwner (s.confOf i) == fn
  else s.confOwner i == fn || (s.obj 0x400001 i 0 == 0 && (r.num == 0x400001 || r.num == 0x400002))

/-- Whether an object is one of those whose instances a TENANT sees by their conference (R531). -/
def ObjRow.tenantKind (r : ObjRow) : Bool := 0x400000 ≤ r.num && r.num < 0x700000 && (r.perConf || r.perLeg)

/-- The function of a session of the mailbox path. -/
def GulSession.fn (g : GulSession) : Nat := match g.path with | .mailbox n => n | .management => 255

/-- Whether an instance is visible to a session (R531). -/
def State.visible (s : State) (g : GulSession) (r : ObjRow) (i : Nat) : Bool :=
  if g.role = 3 && r.tenantKind then s.tenantSees g.fn r i else true

/-- Whether a role may read an object (R530, R531). -/
def roleReads (role : Nat) (r : ObjRow) : Bool :=
  if role = 3 then (0x100000 ≤ r.num && r.num < 0x200000) || r.tenantKind else true

/-- Whether a role may write an object (R530, R531). CONF_OWNER is the ADMIN's alone (R544). -/
def roleWrites (role : Nat) (r : ObjRow) : Bool :=
  if role = 2 then true
  else if r.num = 0x400004 then false
  else if role = 1 then (r.access == .rw || r.access == .rwd) && 0x300000 ≤ r.num && r.num < 0xC00000
  else if role = 3 then r.tenantKind
  else false

/-- Steps 1 to 3 of R518: the row, or the status of the first check that fails. -/
def State.objCheck (s : State) (g : GulSession) (a : ObjAddr) (write : Bool) : Except Nat ObjRow :=
  match objRow (a.index.toNat * 256 + a.sub.toNat) with
  | none => .error St.objUnknown
  | some r =>
    if !s.instanceExists r a.inst.toNat || !s.visible g r a.inst.toNat then .error St.objInstance
    else if write then
      if r.access == .ro || !roleWrites g.role r then .error St.objAccess else .ok r
    else if r.access == .wo || !roleReads g.role r then .error St.objAccess
    else .ok r

/-- Whether the device serves an object in its state of start-up (R551, R573). -/
def State.objServed (s : State) (r : ObjRow) : Bool :=
  let x := r.num / 256
  let g := s.bootStage
  if g = 0x60 || g = 0xF0 then true
  else if g = 0x70 then
    x == 0x1000 || (x == 0x1100 && !(0x110010 ≤ r.num && r.num ≤ 0x110016)) || (0x2000 ≤ x && x ≤ 0x2200) || x == 0xE000 || x == 0xF000
  else (0x1000 ≤ x && x < 0x3000) || x == 0xE000 || x == 0xF000

end Sys2Proof.Machine
end

