-- ==== Sys2Proof/Machine/DictWrite.lean ====
section
/-! DEFINITION. Writing the object dictionary (spec/16_object_dictionary.md, R516 to R521, R541 to R545, and the object tables of the
other chapters): the checks of a value, the units of rwd objects, and each object's own action. -/

namespace Sys2Proof.Machine

open Sys2Proof

/-! ### Well-formed and in range (R517) -/

/-- Whether `n` continuation octets of UTF-8 begin a list. -/
def utf8Tail : Nat → List Byte → Bool
  | 0, _ => true
  | _ + 1, [] => false
  | n + 1, b :: bs => b.toNat / 64 == 2 && utf8Tail n bs

/-- Whether octets are UTF-8 (R21), checked within `fuel` characters. -/
def utf8Ok : Nat → List Byte → Bool
  | _, [] => true
  | 0, _ => false
  | fuel + 1, b :: bs =>
    let v := b.toNat
    let c := ((bs.headD 0).toNat)
    if v < 0x80 then utf8Ok fuel bs
    else if 0xC2 ≤ v && v < 0xE0 then utf8Tail 1 bs && utf8Ok fuel (bs.drop 1)
    else if 0xE0 ≤ v && v < 0xF0 then
      utf8Tail 2 bs && !(v == 0xE0 && c < 0xA0) && !(v == 0xED && 0xA0 ≤ c) && utf8Ok fuel (bs.drop 2)
    else if 0xF0 ≤ v && v < 0xF5 then
      utf8Tail 3 bs && !(v == 0xF0 && c < 0x90) && !(v == 0xF4 && 0x90 ≤ c) && utf8Ok fuel (bs.drop 3)
    else false

/-- Whether a number lies in its object's Range column. -/
def State.numOk (s : State) (r : ObjRow) (i v : Nat) : Bool :=
  if r.num = 0xB00004 then v ≤ 200000 || 2 ^ 32 - 200000 ≤ v
  else r.lo ≤ v && v ≤ r.hi &&
    (if r.num = 0x400004 then v ≤ 15 || v == 255
     else if r.num = 0x910006 then v == 0 || 20 ≤ v
     else if r.num = 0xB00006 then v == 8 || s.portNamed v
     else if r.num = 0x401007 then s.portNamed v
     else if r.num = 0xA00007 then v % 2 ^ 28 == 0
     else if 0xA10003 ≤ r.num && r.num ≤ 0xA10006 then v ≤ poolCells i
     else true)

/-- Whether octets are within their object's cap. -/
def textOk (r : ObjRow) (v : List Byte) : Bool :=
  r.lo ≤ v.length && v.length ≤ r.hi &&
    (if r.num = 0x220001 then v.length == 0 || v.length == 32
     else if r.num = 0x311002 then v.length % 5 == 0
     else match r.ty with
      | .string => utf8Ok v.length v
      | _ => true)

/-- Step 4 of R518 for the octets of a value. -/
def State.valueOk (s : State) (r : ObjRow) (i : Nat) (v : List Byte) : Bool :=
  match r.ty.size with
  | some n => v.length == n && s.numOk r i (beVal v)
  | none => textOk r v

/-! ### Units of rwd objects (R518 step 5) -/

/-- Whether the unit that owns an rwd object is disabled. -/
def State.unitOff (s : State) (r : ObjRow) (i : Nat) : Bool :=
  let x := r.num / 256
  if x = 0x2000 then s.obj 0x200001 0 0 == 0
  else if x = 0x3000 then !s.isSet R.RLY_CTRL_ENABLE
  else if x = 0x3010 then !s.isSet (R.RLY_PnCTL_PORT_EN i)
  else if x = 0x3100 then !s.isSet R.EGS_CTRL_ENABLE
  else if x = 0x4010 then s.legState i ≤ 1
  else if x = 0x5000 then !s.isSet (R.VDE_CTRL_ENABLE i)
  else if x = 0x5020 then !s.isSet (R.CMP_CTRL_ENABLE i)
  else if x = 0x5030 then !s.isSet (R.VEE_CTRL_ENABLE i)
  else if x = 0x5060 then !s.isSet R.TSP_CTRL_ENABLE
  else if x = 0x6000 then !s.isSet R.MXM_CTRL_ENABLE
  else if x = 0x6100 then !s.isSet (R.DSC_CTRL_ENABLE i)
  else if x = 0x6200 then !s.isSet R.SDG_CTRL_ENABLE
  else if x = 0x8000 then !s.isSet R.TRK_CTRL_ENABLE
  else !s.isSet (R.TRK_Tt_CTRL_EN i)

/-! ### Register mirrors -/

/-- The word that leaves a register's other fields as they are: W1C, WO and RWM fields as 0. -/
def State.keptWord (s : State) (a : Nat) : Nat :=
  let clear := fun (w : Word) (f : FieldAt) =>
    match f.row.ty with
    | .w1c => w.withField f.row.lsb f.row.width 0
    | .wo => w.withField f.row.lsb f.row.width 0
    | .rwm => 0
    | _ => w
  ((fieldsAt a).foldl clear (s.reg a)).toNat

/-- Whether a register takes a write only under its mask bits. -/
def maskedReg (a : Nat) : Bool := (fieldsAt a).any fun f => f.row.ty == .rwm

/-- Vendor firmware writes a register's field; a value that the register does not take completes with OBJ_RANGE. -/
def State.writeMirror (s : State) (f : Fld) (v : Nat) : State × Nat :=
  let w := Word.withField (BitVec.ofNat 32 (s.keptWord f.addr)) f.lsb f.width v
  let w := if maskedReg f.addr then Word.withField w (16 + f.lsb) f.width (2 ^ f.width - 1) else w
  let t := (s.accessWakes f.addr).writeReg (.control 0) f.addr w.toNat
  (t, if t.get f = v then St.ok else St.objRange)

/-! ### Actions of octet strings (R518 step 7) -/

/-- The status of a condition. -/
def okIf (c : Bool) : Nat := if c then St.ok else St.objRange

/-- A change that a condition lets happen, or OBJ_RANGE. -/
def State.changeIf (s : State) (c : Bool) (t : State) : State × Nat := if c then (t, St.ok) else (s, St.objRange)

/-- A change of a shaper or policer that a condition lets happen; one that R164 refuses has the effect of the refused register write, which is
the WRITE of EGS_IND_CMD (R143, R168). -/
def State.egsChange (s : State) (c : Bool) (t : State) : State × Nat := if c then (t, St.ok) else (s.egsIgnored 2, St.objRange)

/-- A port's admin list from octets of five an entry (R150). -/
def State.putAdmin (s : State) (n : Nat) : Nat → List Byte → Nat → State
  | _, _, 0 => s
  | e, v, k + 1 =>
    ((s.put (R.TGC_ADMIN_GATES_GATES n e) (osToNat (v.take 1))).put (R.TGC_ADMIN_INTV_NS n e) (osToNat ((v.drop 1).take 4))).putAdmin n (e + 1)
      (v.drop 5) k

/-- Whether each interval of a list fits its register. -/
def intervalsFit : Nat → List Byte → Bool
  | 0, _ => true
  | k + 1, v => osToNat ((v.drop 1).take 4) < 2 ^ 30 && intervalsFit k (v.drop 5)

/-- GATE_ADMIN_LIST. -/
def State.writeAdminList (s : State) (n : Nat) (v : List Byte) : State × Nat :=
  let k := v.length / 5
  s.changeIf (intervalsFit k v) ((s.put (R.TGC_ADMIN_LEN_ENTRIES n) k).putAdmin n 0 v k)

/-- POLICER: the four data words of R164. -/
def State.writePolicer (s : State) (leg : Nat) (v : List Byte) : State × Nat :=
  let w := fun (k : Nat) => osToNat (slice v (4 * k) (4 * k + 4))
  let cir := w 0 % 2 ^ 26
  let pir := w 1 % 2 ^ 26
  let cbs := w 2 % 2 ^ 24
  let pbs := w 3 % 2 ^ 24
  let en := (w 0).testBit 26
  let p := (s.policer leg).refill s.cycle
  let full := en && !p.en
  let tc := if full then cbs * 1500000 else min p.tc (cbs * 1500000)
  let tp := if full then pbs * 1500000 else min p.tp (pbs * 1500000)
  s.egsChange (cbs != 0 && pbs != 0 && cir ≤ pir) (s.setPolicer leg ⟨cir, en, (w 0).testBit 27, pir, cbs, pbs, tc, tp, s.cycle⟩)

/-- A destination's shaper takes new settings (R138). -/
def State.writeShaper (s : State) (d rate : Nat) (en : Bool) (policy burst : Nat) : State × Nat :=
  s.egsChange (policy != 3 && 64 ≤ burst && burst ≤ 16777216) (s.setShaper d ((s.shaperNow d).write rate en policy burst))

/-- TRUNK_SHAPER: the two data words of R164. -/
def State.writeTrunkShaper (s : State) (t : Nat) (v : List Byte) : State × Nat :=
  let a := osToNat (v.take 4)
  s.writeShaper (16384 + t) (a % 2 ^ 26) (a.testBit 26) (a / 2 ^ 27 % 4) (osToNat (v.drop 4) % 2 ^ 25)

/-- SHAPING_FIR: the coefficient set is loaded when it meets the mask (R336). -/
def State.writeFir (s : State) (v : List Byte) : State × Nat :=
  let cs := (List.range 81).map fun k => osToNat (slice v (3 * k) (3 * k + 3))
  let default := (List.range 81).map fun k => (resetWord (R.SDG_FIR_COEF k).addr).field 0 24
  if cs == default || Config.firMaskOk cs then
    (cs.zipIdx.foldl (fun (s : State) (e : Nat × Nat) => s.put (R.SDG_FIR_COEF e.2) e.1) s, St.ok)
  else (s, St.sdgMaskFail)

/-- KERNEL_INSTALL (R326): the image goes to every disabled core. -/
def State.writeKernel (s : State) (v : List Byte) : State × Nat :=
  s.installKernel v ((List.range 128).filter fun c => !(s.get (R.DSC_CORE_EN_EN (c / 16))).testBit (c % 16))

/-- ATTEST_NONCE (R567): a report for the session. -/
def State.writeNonce (s : State) (n : Nat) (v : List Byte) : State × Nat :=
  match s.session n with
  | none => (s, St.objRange)
  | some g =>
    s.changeIf (s.isSet R.FUS_STATUS_IDENTITY_SET) ((s.setSession n (some { g with report := s.report v s.kernelDigests })).spent)

/-- LEG_LOCAL_ADDR (R545): a first write makes the leg CONFIGURED. -/
def State.writeLocalAddr (s : State) (leg : Nat) (v : List Byte) : State :=
  let s := s.setOctets 0x401008 leg v
  if s.legState leg = 0 then s.setLegState leg 1 else s

/-- The action of an OCTETS or STRING object. -/
def State.writeText (s : State) (n : Nat) (g : GulSession) (r : ObjRow) (i : Nat) (v : List Byte) : State × Nat :=
  let o := r.num
  if o = 0x110004 then s.writeNonce n v
  else if o = 0x110012 then s.stageWrite n v
  else if o = 0x110013 then s.stageHbm n (g.fn == 0) v
  else if o = 0x311002 then s.writeAdminList i v
  else if o = 0x401008 then (s.writeLocalAddr i v, St.ok)
  else if o = 0x410101 then s.writePolicer i v
  else if 0x506009 ≤ o && o ≤ 0x50600B then s.writeCard (o - 0x506008) v
  else if o = 0x610102 then s.writeKernel v
  else if o = 0x620007 then s.writeFir v
  else if o = 0x701001 then s.writeSlot i v
  else if o = 0x801007 then (s.setBytes (s.trunkHdrBase + i * 128) v, St.ok)
  else if o = 0x810001 then s.writeTrunkShaper i v
  else if o = 0xE00004 then s.ownerAuth v
  else (s.setOctets o i v, St.ok)

/-! ### Actions of numbers -/

/-- An operation on a conference, or on one of its legs (R410, R415). -/
def State.askConf (s : State) (t : GulToken) (conf : Nat) (object : Option Nat) (o v : Nat) : State × Option Nat :=
  s.confOp (.gulter t) conf ⟨object, o, v⟩

/-- An object that a member applies to its own legs (R410): through its conference where the leg is in one. -/
def State.askLeg (s : State) (t : GulToken) (leg o v : Nat) (alone : State) : State × Option Nat :=
  if s.confOf leg = 0xFFFF then (alone, some St.ok) else s.askConf t (s.confOf leg) (some (s.rosterId leg)) o v

/-- CONF_CREATE (R544): a FREE conference becomes ACTIVE, with this module as its anchor. -/
def State.createConf (s : State) (g : GulSession) (conf : Nat) : State × Nat :=
  let t := ((s.setObj 0x400001 conf 0 1).setObj 0x400004 conf 255 g.fn).setObj 0x820001 conf 0 1
  s.changeIf (s.obj 0x400001 conf 0 == 0) (((t.setObj 0x820002 conf 0 s.module).setObj 0x820003 conf 0 1).setObj 0x820004 conf 0 1)

/-- LEG_ATTACH (R545). -/
def State.attach (s : State) (t : GulToken) (leg conf : Nat) : State × Option Nat :=
  if s.legState leg = 1 && s.obj 0x400001 conf 0 == 1 && s.obj 0x400006 conf 0 == 0 then
    s.askConf t conf (some (s.rosterId leg)) 0x401002 conf
  else (s, some St.objRange)

/-- LEG_RELEASE (R545): the leg is detached, and then erased and freed. -/
def State.releaseLeg (s : State) (t : GulToken) (leg : Nat) : State × Option Nat :=
  let r := s.askLeg t leg 0x401003 1 s
  match r.2 with
  | some code => if St.success code then (r.1.freeLeg leg, some code) else r
  | none => r

/-- LEG_GAIN (R292). -/
def State.writeGain (s : State) (leg v : Nat) : State × Nat :=
  match s.applyLegGain leg v with
  | some t => (t.setObj 0x602002 leg 16384 v, St.ok)
  | none => (s, St.objRange)

/-- Whether a packet time suits a leg's codec (R266). -/
def State.ptimeOk (s : State) (leg v : Nat) : Bool :=
  let c := s.obj 0x40100E leg 1
  if c = 0 then true else if c = 1 then v == 10 || v == 20 else v % 10 == 0

/-- An ENC object (R214, R231): its value reaches the stream's context. -/
def State.writeEncode (s : State) (r : ObjRow) (e v d : Nat) : State × Nat :=
  let p := encodePlace r.num
  s.changeIf (r.num != 0x504002 || s.encodeField 0x504001 e 1500 ≤ v)
    ((s.setLe (encodeCtxAddr e + p.1) p.2 v).setObj r.num e d v)

/-- GATE_ADMIN_BASE. -/
def State.writeAdminBase (s : State) (n v : Nat) : State :=
  ((s.put (R.TGC_ADMIN_BASE_NS_NS n) (v % 1000000000)).put (R.TGC_ADMIN_BASE_SEC_LO_SEC n) (v / 1000000000)).put
    (R.TGC_ADMIN_BASE_SEC_HI_SEC n) (v / 1000000000 / 2 ^ 32)

/-- FW_STAGE_OFFSET (R571). -/
def State.writeStageOffset (s : State) (n v : Nat) : State × Nat :=
  s.changeIf (!s.noStaging && s.stager n) (s.setBoot { s.boot with stageOff := v })

/-- STREAM_TEST (R197): the stream's context takes it. -/
def State.writeStreamTest (s : State) (stream v : Nat) : State × Nat :=
  let a := s.streamCtx stream + 1
  s.changeIf (s.streamCtx stream != 0) (s.setLe a 1 (s.le a 1 / 2 * 2 + v))

/-- BAR2_WINDOW (R472). -/
def State.writeBar2 (s : State) (v : Nat) : State × Nat :=
  s.changeIf (s.bar2WindowOk v) (s.putPair R.HBM_BAR2_WIN_LO_ADDR R.HBM_BAR2_WIN_HI_ADDR v)

/-- The key slot's objects of kind wo (R368). -/
def State.writeKeyOp (s : State) (t : GulToken) (o n : Nat) : State × Option Nat :=
  if o = 0x701002 then s.eraseSlot n (.gulter t)
  else if o = 0x701003 then (s.zeroizeSlot n, some St.ok)
  else (s.retireOld n, some St.ok)

/-- A leg's shaper objects (R164). -/
def State.writeLegShaper (s : State) (o leg v : Nat) : State × Nat :=
  let h := s.shaper leg
  if o = 0x410001 then s.writeShaper leg v h.en h.policy h.burst
  else if o = 0x410002 then s.writeShaper leg h.rate h.en h.policy v
  else if o = 0x410003 then s.writeShaper leg h.rate (v == 1) h.policy h.burst
  else s.writeShaper leg h.rate h.en v h.burst

/-- A status that is there at once. -/
def now (r : State × Nat) : State × Option Nat := (r.1, some r.2)

/-- The action of a number that no register holds; none where its status comes later. -/
def State.writeOwn (s : State) (t : GulToken) (g : GulSession) (o i v : Nat) : State × Option Nat :=
  if o = 0x110010 then now (s.stageBegin t.session)
  else if o = 0x110011 then now (s.writeStageOffset t.session v)
  else if o = 0x110014 then now (s.stageEnd t.session)
  else if o = 0x110016 then now (s.fwActivate t.session)
  else if o = 0x110018 then if s.coolEnough then (s, some St.ok) else (s.requestReset R.FUS_RESET_CAUSE_GULTER_REQ, some St.objRange)
  else if o = 0x110019 then now s.fwCommit
  else if o = 0x311004 then (s.writeAdminBase i v, some St.ok)
  else if o = 0x311005 then now (s.activate i (2 + s.get (R.TGC_CTRL_ENABLE i)), okIf (s.isSet (R.TGC_CTRL_ENABLE i) && s.adminValid i))
  else if o = 0x400002 then now (s.createConf g i)
  else if o = 0x400003 then s.askConf t i none o v
  else if o = 0x401002 then s.attach t i v
  else if o = 0x401003 then s.askLeg t i o v (s.leaveLeg i)
  else if o = 0x401004 then s.releaseLeg t i
  else if 0x410001 ≤ o && o ≤ 0x410004 then now (s.writeLegShaper o i v)
  else if o = 0x501006 then now (s.writeStreamTest i v)
  else if o = 0x504007 then ((s.setObj o i 0 1).emit (.firmware 13 [i]), some St.ok)
  else if o = 0x600002 then now (s.writeMirror R.MXM_ZC_TIMEOUT_SAMPLES (roundDiv (v * 48) 1000))
  else if o = 0x621001 then now (s.requestProbe i)
  else if o = 0x700006 then (s.zeroizeAll, some St.ok)
  else if 0x701002 ≤ o && o ≤ 0x701004 then s.writeKeyOp t o i
  else if o = 0x800003 then
    if v = 5 && s.isSet R.FUS_STATUS_TRUNK_LOCK then (s, some St.keyPolicy) else now (s.writeMirror R.TRK_SUITE_GCM128 (6 - v))
  else if o = 0x820006 then now (s.promote i)
  else if o = 0xA00007 then now (s.writeBar2 v)
  else if o = 0xF00003 then
    ((match s.session t.session with
      | some g => s.setSession t.session (some { g with logFrom := v })
      | none => s), some St.ok)
  else (s, some St.ok)

/-- The action of a number that vendor firmware holds, `d` being its default. -/
def State.writeHeld (s : State) (t : GulToken) (r : ObjRow) (i d v : Nat) : State × Option Nat :=
  let o := r.num
  if o = 0x200001 then ((s.setObj o i d v).settleTxdis, some St.ok)
  else if 0x400006 ≤ o && o ≤ 0x400008 then s.askConf t i none o v
  else if 0x504001 ≤ o && o ≤ 0x504006 then now (s.writeEncode r i v d)
  else if o = 0x506102 then s.askLeg t i o v ((s.setObj o i d v).putCanvas i)
  else if o = 0x602002 then now (s.writeGain i v)
  else if o = 0x602003 then s.askLeg t i o v (s.setObj o i d v)
  else if o = 0x602005 then now (s.changeIf (s.obj 0x602004 i 20 ≤ v) (s.setObj o i d v))
  else if o = 0x602008 then now (s.changeIf (s.ptimeOk i v) (s.setObj o i d v))
  else (s.setObj o i d v, some St.ok)

/-! ### A write as a whole (R518, R520) -/

/-- Step 6 of R518 and the action of a once-setting (R520, R560): a burn ends later. -/
def State.writeOnce (s : State) (t : GulToken) (confirm : Bool) (o : Nat) (v : List Byte) : State × Option Nat :=
  if s.get (onceLeft (o % 256)) = 0 then (s, some St.objOnceSpent)
  else if !confirm then (s, some St.objAccess)
  else (s.onceWrite ⟨o % 256, v, .gulter t⟩, none)

/-- Steps 4 to 7 of R518: the status of a write, none where it comes later. `confirm` says that it is a WRITE with a single entry and
CONFIRM. -/
def State.applyWrite (s : State) (t : GulToken) (g : GulSession) (confirm : Bool) (r : ObjRow) (i : Nat) (v : List Byte) :
    State × Option Nat :=
  if !s.valueOk r i v then (s, some St.objRange)
  else if !s.objServed r then (s, some St.objRange)
  else if s.hiddenPort r i then (s, some St.ok)
  else if r.access == .rwd && !s.unitOff r i then (s, some St.objUnitEnabled)
  else if r.access == .once then s.writeOnce t confirm r.num v
  else if r.ty.size.isNone then now (s.writeText t.session g r i v)
  else
    match r.home with
    | .fld f =>
      if r.num = 0xF00006 then (s.put (f i) (s.get (f i) - (s.get (f i) &&& beVal v)), some St.ok)
      else
        let w := s.writeMirror (f i) (beVal v)
        now (w.1, if r.num / 256 = 0x8010 && w.2 != St.ok then St.trunkBadCfg else w.2)
    | .num d => s.writeHeld t r i d (beVal v)
    | _ => s.writeOwn t g r.num i (beVal v)

/-! ### What follows a message (R529, R538, R548) -/

/-- What a write that was applied brings about once its message has been answered: sessions close (R529, R543), and a requested reset
begins (R548). -/
def State.afterWrite (s : State) (n o i : Nat) (v : List Byte) : State :=
  if o = 0x220001 || o = 0x220002 then s.closeWhere fun _ g => g.key == some i
  else if o = 0x220008 then s.closeWhere fun m _ => m != n
  else if o = 0x200001 && beVal v = 0 then s.closeWhere fun _ g => g.onPort
  else if o = 0x110018 then s.requestReset R.FUS_RESET_CAUSE_GULTER_REQ
  else s

end Sys2Proof.Machine
end

