-- ==== Sys2Proof/Machine/Gulter.lean ====
section
/-! DEFINITION. The Gulter protocol (spec/16_object_dictionary.md, R520 to R538): how a client's message arrives, sessions and their
authentication, sequencing, reads, writes, block transfers and subscriptions. -/

namespace Sys2Proof.Machine

open Sys2Proof

/-! ### Arrival (R522 to R524, R527, R529) -/

/-- The TYPE of an AUTH_REPLY's request, and of the other requests (R525). -/
def GulReq.code : GulReq → Nat
  | .read _ => 6
  | .write _ _ => 8
  | .blockBegin _ _ _ => 10
  | .blockSeg _ => 11
  | .blockEnd _ => 12
  | .subscribe _ _ _ => 14
  | .unsubscribe _ => 16
  | .keepalive => 19
  | .close => 5

/-- Whether vendor firmware serves Gulter: it runs, and the Control island is awake (R449, R540). -/
def State.gulServes (s : State) : Bool := s.firmwareRuns && s.isSet R.UPD_STATUS_AWAKE

/-- An ERROR (R524, R525). -/
def errorMsg (seq status ty : Nat) : GulMsg := ⟨20, seq, 0, status, natToOs 1 ty⟩

/-- A datagram is discarded and counted (R522, R527). -/
def State.badFrame (s : State) : State := s.bumpObj 0x20000C 0

/-- Whether the receive window of a session takes a counter (R374, R527). -/
def GulSession.fresh (g : GulSession) (c : Nat) : Bool :=
  !g.rxAny || g.rxTop < c || (g.rxTop - c ≤ 127 && !g.rxSeen.testBit (g.rxTop - c))

/-- The session after a datagram of counter `c` has authenticated: bit k of the window stands for the counter k below the highest. -/
def GulSession.received (g : GulSession) (c : Nat) : GulSession :=
  if !g.rxAny then { g with rxAny := true, rxTop := c, rxSeen := 1 }
  else if g.rxTop < c then { g with rxTop := c, rxSeen := (g.rxSeen * 2 ^ (c - g.rxTop) + 1) % 2 ^ 128 }
  else { g with rxSeen := setBit g.rxSeen (g.rxTop - c) }

/-- What becomes of a message at the door: it goes no further, with the state that leaves, or it is one of a session's. -/
inductive Arrived where
  | done (s : State)
  | session (s : State) (n : Nat) (g : GulSession)
  deriving DecidableEq, Repr

/-- A message of a management datagram that names a session (R522, R527, R529). -/
def State.arriveOnPort (s : State) (h : GulHead) : Arrived :=
  let n := h.session.toNat
  if !s.mgmtUp then .done s
  else if !h.lengthOk then .done s.badFrame
  else
    match s.session n with
    | none => .done s
    | some g =>
      if !g.onPort then .done s
      else if !g.isOpen then .session s n g
      else if !h.authentic || !g.fresh h.counter.toNat then .done s.badFrame
      else
        let g := { g.received h.counter.toNat with heard := s.cycle }
        .session (s.setSession n (some g)) n g

/-- A message of a function's mailbox that names a session (R523, R529). A function with 16 replies waiting has no request taken. -/
def State.arriveInMailbox (s : State) (fn : Nat) (h : GulHead) (ty : Nat) : Arrived :=
  let n := h.session.toNat
  let refuse := fun (_ : Unit) => Arrived.done (s.gulSendOn h.path n (errorMsg h.seq.toNat St.gulProtocol ty))
  if 16 ≤ (s.replyQueue fn).length then .done s
  else
    match s.session n with
    | none => refuse ()
    | some g =>
      if !g.onMailbox fn then refuse ()
      else
        let g := { g with heard := s.cycle }
        .session (s.setSession n (some g)) n g

/-- A client's message that names a session arrives. -/
def State.arrive (s : State) (h : GulHead) (ty : Nat) : Arrived :=
  if !s.gulServes then .done s
  else
    match h.path with
    | .mailbox fn => s.arriveInMailbox fn h ty
    | .management => s.arriveOnPort h

/-- Whether a header is as R524 sets it. -/
def headOk (h : GulHead) : Bool := h.ver == 0 && h.flags.toNat / 8 == 0

/-! ### READ (R518, R525, R534) -/

/-- The octets that a body may have on a session's path (R522, R523). -/
def GulSession.room (g : GulSession) : Nat := if g.onPort then 1400 else 52

/-- An object as a READ finds it: the status, whether the value carries its length, and its octets. -/
def State.readEntry (s : State) (n : Nat) (g : GulSession) (a : ObjAddr) : Nat × Bool × List Byte :=
  match s.objCheck g a false with
  | .error c => (c, false, [])
  | .ok r =>
    let v := s.readObj n r a.inst.toNat
    if !s.objServed r || (r.num = 0x110005 && v.isEmpty) then (St.objRange, false, []) else (St.ok, r.ty.size.isNone, v)

/-- A value as a message carries it (R517). -/
def carried (text : Bool) (v : List Byte) : List Byte := if text then natToOs 2 v.length ++ v else v

/-- An entry of a READ_REPLY whose value does not fit: its length, with no data (R534). -/
def tooLong (text : Bool) (v : List Byte) : List Byte := natToOs 1 St.gulProtocol ++ (if text then natToOs 2 v.length else [])

/-- An entry of a READ_REPLY. -/
def readOctets (e : Nat × Bool × List Byte) : List Byte := natToOs 1 e.1 ++ (if e.1 = St.ok then carried e.2.1 e.2.2 else [])

/-- The fewest octets that an entry takes. -/
def leastOctets (e : Nat × Bool × List Byte) : Nat :=
  if e.1 = St.ok then min (readOctets e).length (tooLong e.2.1 e.2.2).length else 1

/-- The entries of a READ_REPLY within `room` octets: each value that leaves room for the entries after it. -/
def packEntries (room : Nat) : List (Nat × Bool × List Byte) → List Byte
  | [] => []
  | e :: es =>
    let later := (es.map leastOctets).sum
    let o := if (readOctets e).length + later ≤ room then readOctets e else tooLong e.2.1 e.2.2
    o ++ packEntries (room - o.length) es

/-- READ (R518): up to 16 objects, as one step. -/
def State.doRead (s : State) (n : Nat) (g : GulSession) (seq : Nat) (addrs : List ObjAddr) : State :=
  let es := addrs.map (s.readEntry n g)
  s.gulReply n ⟨7, seq, 0, St.ok, natToOs 1 es.length ++ packEntries (g.room - 1) es⟩

/-! ### Subscriptions (R537, R538) -/

/-- The row of a subscription. -/
def GulSub.row (b : GulSub) : Option ObjRow := objRow b.obj

/-- The number of instances of an object. -/
def State.instanceCount (s : State) (r : ObjRow) : Nat :=
  match r.inst with
  | .one => 1
  | .upTo n => n
  | .port => 8
  | .leg => s.legLimit
  | .conf => 4096

/-- The body of a NOTIFY, and its status (R525, R534): SUB_ID, instance, TIME64 and the value where it fits. -/
def State.noteBody (s : State) (g : GulSession) (b : GulSub) (inst : Nat) (text : Bool) (v : List Byte) : Nat × List Byte :=
  let head := natToOs 2 b.id ++ natToOs 2 inst ++ natToOs 8 s.time64
  let fits := (head ++ carried text v).length ≤ g.room
  if fits then (St.ok, head ++ carried text v) else (St.gulProtocol, head ++ (if text then natToOs 2 v.length else []))

/-- A NOTIFY on the mailbox path: it waits for its channel; a value that waits already is replaced (R523, R537). -/
def State.noteInMailbox (s : State) (n : Nat) (g : GulSession) (b : GulSub) (inst status : Nat) (body : List Byte) : State :=
  let q := s.noteQueue g.fn
  let same := fun (w : GulWaiting) => w.session == n && w.sub == b.id && w.inst == inst
  if q.any same then
    s.setNoteQueue g.fn (q.map fun w => if same w then { w with msg := { w.msg with flags := 2, status := status, body := body } } else w)
  else
    let s := s.setSession n (some { g with noteSeq := g.noteSeq + 1 })
    (s.setNoteQueue g.fn (q ++ [⟨n, b.id, inst, ⟨17, g.noteSeq % 2 ^ 32, 0, status, body⟩⟩])).flushGul true g.fn

/-- A NOTIFY on the management port: it is sent and kept until it is acknowledged; a value not yet acknowledged is replaced (R537, R538). -/
def State.noteOnPort (s : State) (n : Nat) (g : GulSession) (b : GulSub) (inst status : Nat) (body : List Byte) : State :=
  let same := fun (w : GulNote) => w.sub == b.id && w.inst == inst
  if g.notes.any same then
    let put := fun (w : GulNote) =>
      if same w then { w with msg := { w.msg with flags := 2, status := status, body := body }, newer := true } else w
    s.setSession n (some { g with notes := g.notes.map put })
  else
    let m : GulMsg := ⟨17, g.noteSeq % 2 ^ 32, 0, status, body⟩
    (s.setSession n (some { g with noteSeq := g.noteSeq + 1, notes := g.notes ++ [⟨m, b.id, inst, 1, s.cycle, false⟩] })).gulSend n m

/-- A NOTIFY for an instance of a subscription. -/
def State.notify (s : State) (b : GulSub) (inst status : Nat) (body : List Byte) : State :=
  match s.session b.session with
  | none => s
  | some g => if g.onPort then s.noteOnPort b.session g b inst status body else s.noteInMailbox b.session g b inst status body

/-- The subscriptions without one. -/
def State.dropSub (s : State) (id : Nat) : State :=
  { s with gul := { s.gul with subs := s.gul.subs.filter fun b => b.id != id } }

/-- The state with a subscription replaced. -/
def State.setWatch (s : State) (b : GulSub) : State :=
  { s with gul := { s.gul with subs := s.gul.subs.map fun c => if c.id == b.id then b else c } }

/-- Whether a subscription of one instance has become invisible to its session (R538). -/
def State.subHidden (s : State) (b : GulSub) : Bool :=
  match s.session b.session, b.row with
  | some g, some r => b.inst != 0xFFFF && !s.visible g r b.inst
  | _, _ => false

/-- A subscription whose object has become invisible is dropped, with a last NOTIFY that carries no value (R538). -/
def State.dropHidden (s : State) (b : GulSub) : State :=
  (s.notify b b.inst St.objInstance (natToOs 2 b.id ++ natToOs 2 b.inst ++ natToOs 8 s.time64)).dropSub b.id

/-- Drop every subscription whose object has become invisible. -/
def State.sweepSubs (s : State) : State := (s.gul.subs.filter s.subHidden).foldl State.dropHidden s

/-- One instance of a subscription is sampled (R537): PERIODIC sends its value, ON_CHANGE one that differs from the last sent. -/
def State.sampleOne (s : State) (g : GulSession) (r : ObjRow) (b : GulSub) (inst : Nat) : State :=
  let v := s.readObj b.session r inst
  match s.gul.subs.find? fun c => c.id == b.id with
  | none => s
  | some c =>
    if !s.instanceExists r inst || !s.visible g r inst || (!b.periodic && SMap.get none c.sent inst == some v) then s
    else
      let body := s.noteBody g b inst r.ty.size.isNone v
      (s.notify b inst body.1 body.2).setWatch { c with sent := SMap.set none c.sent inst (some v) }

/-- A subscription's sample comes due. -/
def State.sampleWatch (s : State) (b : GulSub) : State :=
  match s.session b.session, b.row with
  | some g, some r =>
    if s.subHidden b then s.dropHidden b
    else
      let period := if b.periodic then b.periodMs * msCycles else 10 * msCycles
      let s := s.setWatch { b with nextAt := b.nextAt + period }
      let insts := if b.inst = 0xFFFF then List.range (s.instanceCount r) else [b.inst]
      insts.foldl (fun (s : State) i => s.sampleOne g r b i) s
  | _, _ => s.dropSub b.id

/-- The next number from `start` on, among `count` from 1, that is not used; within `fuel` steps. -/
def freshNumber (used : Nat → Bool) (start count : Nat) : Nat → Nat
  | 0 => start % count + 1
  | fuel + 1 => if used (start % count + 1) then freshNumber used (start + 1) count fuel else start % count + 1

/-- SUBSCRIBE (R537). -/
def State.doSubscribe (s : State) (n : Nat) (g : GulSession) (seq : Nat) (a : ObjAddr) (periodic : Bool) (ms : Nat) : State :=
  let reply := fun (s : State) status id => s.gulReply n ⟨15, seq, 0, status, natToOs 2 id⟩
  let num := a.index.toNat * 256 + a.sub.toNat
  let every := a.inst.toNat == 0xFFFF && ((objRow num).map fun r => match r.inst with | .one => false | _ => true).getD false
  let r := s.objCheck { g with role := if every && g.role == 3 then 0 else g.role } (if every then { a with inst := 0 } else a) false
  match r with
  | .error c => reply s c 0
  | .ok r =>
    if every && !roleReads g.role r then reply s St.objAccess 0
    else if !s.objServed r then reply s St.objRange 0
    else if 64 ≤ (s.gul.subs.filter fun b => b.session == n).length || 512 ≤ s.gul.subs.length then reply s St.gulDenied 0
    else if periodic && !(10 ≤ ms && ms ≤ 60000) then reply s St.gulProtocol 0
    else
      let id := freshNumber (fun k => s.gul.subs.any fun b => b.id == k) (s.free 65535) 65535 512
      let b : GulSub := ⟨id, n, num, a.inst.toNat, periodic, ms, s.cycle + (if periodic then ms else 10) * msCycles, []⟩
      reply { s.spent with gul := { s.gul with subs := s.gul.subs ++ [b] } } St.ok id

/-- UNSUBSCRIBE (R525): what waits for it goes with it. -/
def State.doUnsubscribe (s : State) (n : Nat) (g : GulSession) (seq id : Nat) : State :=
  if s.gul.subs.any (fun b => b.id == id && b.session == n) then
    let s := (s.dropSub id).setSession n (some { g with notes := g.notes.filter fun w => w.sub != id })
    let s := s.setNoteQueue g.fn ((s.noteQueue g.fn).filter fun w => w.sub != id)
    s.gulReply n ⟨15, seq, 0, St.ok, natToOs 2 id⟩
  else s.gulReply n ⟨15, seq, 0, St.gulProtocol, natToOs 2 id⟩

/-! ### WRITE (R518 to R521) -/

/-- One entry of a WRITE: its status, none where it comes later. -/
def State.writeEntry_ (s : State) (t : GulToken) (g : GulSession) (confirm : Bool) (e : ObjWrite) : State × Option Nat :=
  match s.objCheck g e.addr true with
  | .error c => (s, some c)
  | .ok r => s.applyWrite t g confirm r e.addr.inst.toNat e.value

/-- The entries of a WRITE, in order, each entry's status reaching its reply; answers the entries that were applied at once. -/
def State.writeEntries (s : State) (n seq : Nat) (g : GulSession) (confirm : Bool) : Nat → List ObjWrite → State × List ObjWrite
  | _, [] => (s, [])
  | k, e :: es =>
    let r := s.writeEntry_ ⟨n, seq, k⟩ g confirm e
    let s := match r.2 with
      | some c => r.1.gulAnswer ⟨n, seq, k⟩ c
      | none => r.1
    let rest := s.writeEntries n seq ((s.session n).getD g) confirm (k + 1) es
    (rest.1, if r.2 == some St.ok then e :: rest.2 else rest.2)

/-- WRITE (R518, R521): up to 16 objects, in order, as one step; its reply leaves once every entry has its status. -/
def State.doWrite (s : State) (n : Nat) (g : GulSession) (seq : Nat) (confirm : Bool) (es : List ObjWrite) : State :=
  let s := { s with gul := { s.gul with waits := ⟨n, seq, es.map fun _ => none⟩ :: s.gul.waits } }
  let r := s.writeEntries n seq g (confirm && es.length == 1) 0 es
  let after := fun (s : State) (e : ObjWrite) => s.afterWrite n (e.addr.index.toNat * 256 + e.addr.sub.toNat) e.addr.inst.toNat e.value
  (r.2.foldl after r.1).sweepSubs

/-! ### Block transfers (R534 to R536) -/

/-- The state with a session's block. -/
def State.setBlock (s : State) (n : Nat) (b : Option GulBlock) : State :=
  match s.session n with
  | some g => s.setSession n (some { g with block := b })
  | none => s

/-- Octets at their places in a block. -/
def putOctetsAt (at_ : Nat) (bs : List Byte) (m : SMap (Option Byte)) : SMap (Option Byte) :=
  bs.zipIdx.foldl (fun m (e : Byte × Nat) => SMap.set none m (at_ + e.2) (some e.1)) m

/-- The octets of a block from a place on. -/
def GulBlock.take (b : GulBlock) (at_ n : Nat) : List Byte :=
  (List.range n).map fun i => (SMap.get none b.octets (at_ + i)).getD 0

/-- Whether every octet of a block has come, and none beyond it. -/
def GulBlock.whole (b : GulBlock) : Bool := b.octets.length == b.total && b.octets.all fun e => e.1 < b.total

/-- BLOCK_BEGIN (R534 to R536). -/
def State.doBlockBegin (s : State) (n : Nat) (g : GulSession) (seq : Nat) (a : ObjAddr) (read : Bool) (total : Nat) : State :=
  let reply := fun (s : State) status v => s.gulReply n ⟨13, seq, 0, status, natToOs 4 v⟩
  if g.block.isSome then reply s St.gulDenied 0
  else
    match s.objCheck g a (!read) with
    | .error c => reply s c 0
    | .ok r =>
      let v := s.readObj n r a.inst.toNat
      if r.ty.size.isSome then reply s St.gulProtocol 0
      else if !read then reply (s.setBlock n (some ⟨r.num, a.inst.toNat, false, total, [], s.cycle⟩)) St.ok total
      else if !s.objServed r || (r.num = 0x110005 && v.isEmpty) then reply s St.objRange 0
      else reply (s.setBlock n (some ⟨r.num, a.inst.toNat, true, v.length, putOctetsAt 0 v [], s.cycle⟩)) St.ok v.length

/-- BLOCK_SEG on the management port (R535, R536). -/
def State.doBlockSeg (s : State) (n : Nat) (g : GulSession) (seq : Nat) (x : GulSeg) : State :=
  let at_ := match x with | .data o _ => o.toNat | .ask o _ => o.toNat
  let reply := fun (s : State) status flags (bs : List Byte) => s.gulReply n ⟨13, seq, flags, status, natToOs 4 at_ ++ bs⟩
  match g.block with
  | none => reply s St.gulProtocol 0 []
  | some b =>
    let s := s.setBlock n (some { b with lastAt := s.cycle })
    match x with
    | .data _ bs =>
      if !g.onPort || b.read || bs.isEmpty || 1024 < bs.length then reply s St.gulProtocol 0 []
      else reply (s.setBlock n (some { b with octets := putOctetsAt at_ bs b.octets, lastAt := s.cycle })) St.ok 0 []
    | .ask _ len =>
      if !g.onPort || !b.read || len.toNat = 0 || 1024 < len.toNat || b.total < at_ then reply s St.gulProtocol 0 []
      else
        let k := min len.toNat (b.total - at_)
        reply s St.ok (if at_ + k = b.total then 4 else 0) (b.take at_ k)

/-- The snapshot of a block read goes to CQ0 of its function as one DATA entry (R536): the status. -/
def State.deliverBlock (s : State) (fn n : Nat) (b : GulBlock) : State × Nat :=
  match s.allocCell (.control 0) 0 (max b.total 1) .reliable false true with
  | (s, .cell cell) => ((s.setBytes cell (b.take 0 b.total)).deliverData fn 0 2 n cell b.total, St.ok)
  | (s, .refused code) => (s, code)
  | (s, .held) => (s, St.poolStop)

/-- BLOCK_END of a write (R535): the value is checked and written as one step. -/
def State.endBlockWrite (s : State) (n : Nat) (g : GulSession) (seq crc : Nat) (b : GulBlock) : State × Nat :=
  let v := b.take 0 b.total
  if !b.whole || crc32cFull v != crc then (s, St.gulProtocol)
  else
    match objRow b.obj with
    | none => (s, St.objUnknown)
    | some r =>
      let w := s.applyWrite ⟨n, seq, 0⟩ g false r b.inst v
      (w.1, w.2.getD St.ok)

/-- BLOCK_END (R535, R536). -/
def State.doBlockEnd (s : State) (n : Nat) (g : GulSession) (seq crc : Nat) : State :=
  let reply := fun (s : State) status => s.gulReply n ⟨13, seq, 0, status, []⟩
  match g.block with
  | none => reply s St.gulProtocol
  | some b =>
    let s := s.setBlock n none
    if b.read then
      if g.onPort then reply s St.ok else let r := s.deliverBlock g.fn n b; reply r.1 r.2
    else
      let r := s.endBlockWrite n g seq crc b
      let t := reply r.1 r.2
      if r.2 = St.ok then (t.afterWrite n b.obj b.inst (b.take 0 b.total)).sweepSubs else t

/-! ### Sequencing (R532) -/

/-- What a request does (R525). -/
def State.doRequest (s : State) (n : Nat) (g : GulSession) (seq : Nat) (q : GulReq) : State :=
  match q with
  | .read addrs => s.doRead n g seq addrs
  | .write confirm es => s.doWrite n g seq confirm es
  | .blockBegin a read total => s.doBlockBegin n g seq a read total
  | .blockSeg x => s.doBlockSeg n g seq x
  | .blockEnd crc => s.doBlockEnd n g seq crc
  | .subscribe a periodic ms => s.doSubscribe n g seq a periodic ms
  | .unsubscribe id => s.doUnsubscribe n g seq id
  | .keepalive => s.gulReply n ⟨19, seq, 0, St.ok, []⟩
  | .close => (s.gulReply n ⟨5, seq, 0, St.ok, []⟩).dropSession n

/-- The next request in order of a session is processed. -/
def State.takeRequest (s : State) (n seq : Nat) (q : GulReq) : State :=
  match s.session n with
  | none => s
  | some g =>
    let g := { g with last := seq, held := g.held.filter fun e => e.1 != seq }
    (s.setSession n (some g)).doRequest n g seq q

/-- The request that a session holds under a number. -/
def GulSession.heldAt (g : GulSession) (seq : Nat) : Option GulReq := (g.held.find? fun e => e.1 == seq).map fun e => e.2.2

/-- The number after LAST. -/
def GulSession.next (g : GulSession) : Nat := (g.last + 1) % 2 ^ 32

/-- Process what is held and next in order, at most `fuel` requests. -/
def State.drain (s : State) (n : Nat) : Nat → State
  | 0 => s
  | fuel + 1 =>
    match s.session n with
    | none => s
    | some g =>
      match g.heldAt g.next with
      | none => s
      | some q => (s.takeRequest n g.next q).drain n fuel

/-- A request with its number (R532): a repeat has its reply sent again, the next sixteen numbers are taken in order, others are refused. -/
def State.sequence (s : State) (n : Nat) (g : GulSession) (seq : Nat) (q : GulReq) : State :=
  let d := (seq + 2 ^ 32 - g.last) % 2 ^ 32
  if d = 0 || 2 ^ 32 - 15 ≤ d then
    match g.replies.find? fun m => m.seq == seq with
    | some m => s.gulSend n m
    | none =>
      if s.gul.waits.any (fun w => w.session == n && w.seq == seq) then s
      else s.gulSend n (errorMsg seq St.gulProtocol q.code)
  else if d ≤ 16 then
    let held := if (g.heldAt seq).isSome then g.held else g.held ++ [(seq, s.cycle, q)]
    (s.setSession n (some { g with held := held })).drain n 17
  else s.gulSend n (errorMsg seq St.gulProtocol q.code)

/-- A client's request that names a session (R524, R529, R532); `parses` says whether its body parses. -/
def State.request (s : State) (h : GulHead) (parses : Bool) (q : GulReq) : State :=
  match s.arrive h q.code with
  | .done t => t
  | .session s n g =>
    if !g.isOpen || !headOk h || !parses then s.gulSend n (errorMsg h.seq.toNat St.gulProtocol q.code)
    else s.sequence n g h.seq.toNat q

/-- A WRITE message. -/
def State.gulWrite (s : State) (h : GulHead) (es : List ObjWrite) : State :=
  s.request h (1 ≤ es.length && es.length ≤ 16) (.write (h.flags.getLsbD 0) es)

/-- The WRITE of one object by its number: what the rows of single objects are. -/
def State.writeOneObject (s : State) (h : GulHead) (o inst : Nat) (v : List Byte) : State :=
  s.gulWrite h [⟨⟨BitVec.ofNat 16 (o / 256), BitVec.ofNat 8 o, BitVec.ofNat 16 inst⟩, v⟩]

/-- READ (R518, R525). -/
def execRead (head : GulHead) (addrs : List ObjAddr) (s : State) : Result :=
  .next (s.request head (1 ≤ addrs.length && addrs.length ≤ 16) (.read addrs))

/-- WRITE (R518, R525). -/
def execGulterWrite (head : GulHead) (entries : List ObjWrite) (s : State) : Result := .next (s.gulWrite head entries)

/-- BLOCK_BEGIN (R534). -/
def execBlockBegin (head : GulHead) (addr : ObjAddr) (dir : BitVec 8) (total : Word) (s : State) : Result :=
  .next (s.request head (dir.toNat ≤ 1) (.blockBegin addr (dir.toNat == 1) total.toNat))

/-- BLOCK_SEG (R535, R536). -/
def execBlockSeg (head : GulHead) (seg : GulSeg) (s : State) : Result := .next (s.request head true (.blockSeg seg))

/-- BLOCK_END (R535, R536). -/
def execBlockEnd (head : GulHead) (crc : Word) (s : State) : Result := .next (s.request head true (.blockEnd crc.toNat))

/-- SUBSCRIBE (R537). -/
def execSubscribe (head : GulHead) (addr : ObjAddr) (mode : BitVec 8) (periodMs : BitVec 16) (s : State) : Result :=
  .next (s.request head (mode.toNat ≤ 1) (.subscribe addr (mode.toNat == 1) periodMs.toNat))

/-- UNSUBSCRIBE (R525). -/
def execUnsubscribe (head : GulHead) (id : BitVec 16) (s : State) : Result := .next (s.request head true (.unsubscribe id.toNat))

/-- KEEPALIVE (R525). -/
def execKeepalive (head : GulHead) (s : State) : Result := .next (s.request head true .keepalive)

/-- CLOSE (R529). -/
def execClose (head : GulHead) (s : State) : Result := .next (s.request head true .close)

/-- NOTIFY_ACK (R538): on the management port it ends the sending of a NOTIFY; a value that replaced it since is sent under a new number. -/
def State.acknowledge (s : State) (n : Nat) (g : GulSession) (seq : Nat) : State :=
  match g.notes.find? fun w => w.msg.seq == seq with
  | none => s
  | some w =>
    let g := { g with notes := g.notes.filter fun w => w.msg.seq != seq }
    if !w.newer then s.setSession n (some g)
    else
      let m := { w.msg with seq := g.noteSeq % 2 ^ 32 }
      (s.setSession n (some { g with noteSeq := g.noteSeq + 1, notes := g.notes ++ [⟨m, w.sub, w.inst, 1, s.cycle, false⟩] })).gulSend n m

/-- NOTIFY_ACK (R538). -/
def execNotifyAck (head : GulHead) (seq : Word) (s : State) : Result :=
  match s.arrive head 18 with
  | .done t => .next t
  | .session s n g =>
    if !g.isOpen || !headOk head then .next (s.gulSend n (errorMsg head.seq.toNat St.gulProtocol 18))
    else .next (if g.onPort then s.acknowledge n g seq.toNat else s)

/-- SEQ_GAP_TIMEOUT (R532): the numbers missing before a request held for 2 s are answered with ERROR and marked processed, and the held
requests go on. -/
def State.releaseGap (s : State) (n : Nat) : Nat → State
  | 0 => s
  | fuel + 1 =>
    match s.session n with
    | none => s
    | some g =>
      if !(g.held.any fun e => s.passed e.2.1 (2 * secCycles)) then s
      else
        match g.heldAt g.next with
        | some q => (s.takeRequest n g.next q).releaseGap n fuel
        | none => ((s.setSession n (some { g with last := g.next })).gulReply n (errorMsg g.next St.gulProtocol 0)).releaseGap n fuel

/-- SEQ_GAP_TIMEOUT (R532). -/
def execSeqGapTimeout (session : BitVec 16) (s : State) : Result := .next ((s.releaseGap session.toNat 17).drain session.toNat 17)

/-! ### OPEN and AUTH (R526 to R529) -/

/-- A session's number: a free value that no session has. -/
def State.newSession (s : State) : Nat := freshNumber (fun n => (s.session n).isSome) (s.free 65535) 65535 65535

/-- A session just opened. -/
def GulSession.init (path : GulPath) (role : Nat) (isOpen : Bool) (cycle : Nat) : GulSession :=
  ⟨path, role, isOpen, none, cycle, 0, [], [], 1, [], none, 0, [], [], [], 0, none, 0, false, 0, 0⟩

/-- OPEN on the mailbox path (R528): it closes the session that the function holds; F0 is ADMIN and the others TENANT. -/
def State.openMailbox (s : State) (fn : Fin 16) : State :=
  let old := s.sessionList.filter fun e => e.2.onMailbox fn
  let s := old.foldl (fun (s : State) e =>
    (s.dropSession e.1).setReplyQueue fn ((s.replyQueue fn).filter fun r => r.1 != e.1)) s
  let n := s.newSession
  let role := if fn.val = 0 then 2 else 3
  (s.spent.setSession n (some (GulSession.init (.mailbox fn) role true s.cycle))).gulReply n ⟨2, 0, 0, St.ok, natToOs 1 role⟩

/-- Whether any client key is set. -/
def State.anyClient (s : State) : Bool := (List.range 16).any fun k => !(s.octets 0x220001 k).isEmpty

/-- OPEN on the management port (R526): the device's ephemeral key pair, and its reply signed by the identity key. -/
def State.openPort (s : State) (body : List Byte) : State :=
  if !s.anyClient || 8 ≤ (s.sessionList.filter fun e => e.2.onPort).length || s.cpx.rng != .ready then
    s.gulSendOn .management 0 (errorMsg 0 St.gulDenied 1)
  else
    let d := s.free (P256.n - 1) + 1
    let s := s.spent
    let head := pubOctets d ++ s.freeBytes 32 ++ s.identityPub
    let s := s.spent
    let answer := head ++ s.signOctets (s.privateKey none) (body ++ head)
    let s := s.spent
    let n := s.newSession
    let g := { GulSession.init .management 0 false s.cycle with hello := body, answer := answer, secret := d }
    (s.spent.setSession n (some g)).gulReply n ⟨2, 0, 0, St.ok, answer⟩

/-- OPEN (R529). -/
def execGulterOpen (head : GulHead) (body : List Byte) (s : State) : Result :=
  if !s.gulServes then .next s
  else
    match head.path with
    | .mailbox fn =>
      if 16 ≤ (s.replyQueue fn).length then .next s
      else if !headOk head || head.session != 0 || head.seq != 0 || !body.isEmpty then
        .next (s.gulSendOn head.path head.session.toNat (errorMsg head.seq.toNat St.gulProtocol 1))
      else .next (s.openMailbox fn)
    | .management =>
      if !s.mgmtUp then .next s
      else if !head.lengthOk then .next s.badFrame
      else if !headOk head || head.session != 0 || head.seq != 0 || body.length != 97 then
        .next (s.gulSendOn .management 0 (errorMsg head.seq.toNat St.gulProtocol 1))
      else .next (s.openPort body)

/-- The number of the client key that an AUTH body proves, if one does (R526). -/
def State.clientOf (s : State) (g : GulSession) (body : List Byte) : Option Nat :=
  let pub := body.take 65
  let signed := sigOk pub (body.drop 65) (sha256 (g.hello ++ g.answer ++ pub))
  if !signed then none
  else (List.range 16).find? fun k => !(s.octets 0x220001 k).isEmpty && s.octets 0x220001 k == sha256 pub

/-- The keys of both directions (R527): none where the client's ephemeral key is no point of the curve. -/
def GulSession.derive (g : GulSession) : Option (List Byte × List Byte) :=
  let x := osToNat ((g.hello.drop 1).take 32)
  let y := osToNat ((g.hello.drop 33).take 32)
  if (g.hello.headD 0) != 4 || !P256.onCurve x y then none
  else
    match P256.mul g.secret (some (x, y)) 256 with
    | none => none
    | some (z, _) =>
      let salt := sha256 ((g.hello.drop 65).take 32 ++ (g.answer.drop 65).take 32)
      let out := fun (d : Byte) => hkdf salt (natToOs 32 z) [0x47, 0x55, 0x4C, d] 36
      some (out 0, out 1)

/-- AUTH is refused, or does not come (R529): ERROR, and the session is gone. -/
def State.refuseAuth (s : State) (n seq : Nat) : State :=
  ((s.gulSend n (errorMsg seq St.gulDenied 3)).bumpObj 0x220007 0).dropSession n

/-- AUTH (R526, R527) in a session that waits for it. -/
def State.authenticate (s : State) (n : Nat) (g : GulSession) (seq : Nat) (body : List Byte) : State :=
  match s.clientOf g body, g.derive with
  | some k, some keys =>
    let role := s.obj 0x220002 k 0
    let g := { g with isOpen := true, role := role, key := some k, keys := some keys, heard := s.cycle, last := seq, secret := 0 }
    (s.setSession n (some g)).gulReply n ⟨4, seq, 0, St.ok, natToOs 1 role⟩
  | _, _ => s.refuseAuth n seq

/-- AUTH (R526, R529). -/
def execAuth (head : GulHead) (body : List Byte) (s : State) : Result :=
  match s.arrive head 3 with
  | .done t => .next t
  | .session s n g =>
    let seq := head.seq.toNat
    let error := Host.Outcome.next (s.gulSend n (errorMsg seq St.gulProtocol 3))
    match g.replies.find? fun m => m.seq == seq && headOk head with
    | some m => .next (s.gulSend n m)
    | none => if g.isOpen || !headOk head || body.length != 129 || seq != 1 then error else .next (s.authenticate n g seq body)

/-- AUTH_TIMEOUT (R529): 5 s in AUTH_WAIT. -/
def execAuthTimeout (session : BitVec 16) (s : State) : Result :=
  let n := session.toNat
  match s.session n with
  | none => .next s
  | some g => .next (if !g.isOpen && s.passed g.heard (5 * secCycles) then s.refuseAuth n 1 else s)

/-- SESSION_IDLE_TIMEOUT (R529): no message from the client for SESSION_IDLE_S; nothing is sent. -/
def execSessionIdleTimeout (session : BitVec 16) (s : State) : Result :=
  let n := session.toNat
  match s.session n with
  | none => .next s
  | some g => .next (if g.isOpen && s.passed g.heard (s.obj 0x220003 0 60 * secCycles) then s.dropSession n else s)

/-! ### What comes due (R534, R537, R538) -/

/-- BLOCK_TIMEOUT (R534): no message for 5 s. -/
def execBlockTimeout (session : BitVec 16) (s : State) : Result :=
  let n := session.toNat
  match s.session n with
  | none => .next s
  | some g =>
    match g.block with
    | none => .next s
    | some b => .next (if s.passed b.lastAt (5 * secCycles) then s.setBlock n none else s)

/-- SUBSCRIPTION_SAMPLE (R537). -/
def execSubscriptionSample (sub : BitVec 16) (s : State) : Result :=
  match s.gul.subs.find? fun b => b.id == sub.toNat with
  | none => .next s
  | some b => .next (if s.gulServes && b.nextAt ≤ s.cycle then s.sampleWatch b else s)

/-- One NOTIFY that no acknowledgement has named is sent again. -/
def State.resendNote (s : State) (n : Nat) (w : GulNote) : State :=
  match s.session n with
  | none => s
  | some g =>
    let again := fun (v : GulNote) => if v.msg.seq == w.msg.seq then { v with sends := v.sends + 1, lastAt := s.cycle, newer := false } else v
    (s.setSession n (some { g with notes := g.notes.map again })).gulSend n w.msg

/-- NOTIFY_RESEND (R538): every NOTIFY that is due goes again; after 8 sends the session closes. -/
def execNotifyResend (session : BitVec 16) (s : State) : Result :=
  let n := session.toNat
  match s.session n with
  | none => .next s
  | some g =>
    let due := g.notes.filter fun w => s.passed w.lastAt (250 * msCycles)
    if !s.gulServes then .next s
    else if due.any (fun w => 8 ≤ w.sends) then .next (s.closeSession n)
    else .next (due.foldl (fun (s : State) w => s.resendNote n w) s)

/-! ### The GULTER_BLOCK service (R491, R535) -/

/-- A segment of a block write in a descriptor of a function: its session, and its first octet's place. -/
def State.blockDesc (s : State) (fn j : Nat) (d : List Byte) : State :=
  let arg := descField d 0xC 4
  let n := arg % 65536
  let bs := s.descData d
  let freed := s.hostRelease (descCell d)
  match s.session n with
  | none => freed.sqDone fn j d St.gulProtocol
  | some g =>
    match g.block with
    | none => freed.sqDone fn j d St.gulProtocol
    | some b =>
      if !g.onMailbox fn || b.read || bs.isEmpty then freed.sqDone fn j d St.gulProtocol
      else
        (freed.setBlock n (some { b with octets := putOctetsAt (arg / 65536) bs b.octets, lastAt := s.cycle })).sqDone fn j d St.ok

/-- GULTER_BLOCK (R491). -/
def execGulterBlock (fn j : Fin 16) (s : State) : Result := .next (s.consume fn j 2 fun s d => s.blockDesc fn j d)

/-! ### Rows of single objects (R544, R545, R548, R560 to R572): the WRITE of one object -/

/-- The octet 1 of a BOOL. -/
def one : List Byte := [1]

/-- SESSION_CLOSE_ALL (R529, R543). -/
def execSessionCloseAll (head : GulHead) (s : State) : Result := .next (s.writeOneObject head 0x220008 0 one)

/-- CONF_CREATE (R544). -/
def execConfCreate (head : GulHead) (conf : BitVec 16) (s : State) : Result := .next (s.writeOneObject head 0x400002 conf.toNat one)

/-- CONF_END (R544). -/
def execConfEnd (head : GulHead) (conf : BitVec 16) (s : State) : Result := .next (s.writeOneObject head 0x400003 conf.toNat one)

/-- LEG_ATTACH (R545). -/
def execLegAttach (head : GulHead) (leg conf : BitVec 16) (s : State) : Result :=
  .next (s.writeOneObject head 0x401002 leg.toNat (natToOs 2 conf.toNat))

/-- LEG_DETACH (R545). -/
def execLegDetach (head : GulHead) (leg : BitVec 16) (s : State) : Result := .next (s.writeOneObject head 0x401003 leg.toNat one)

/-- LEG_RELEASE (R545). -/
def execLegRelease (head : GulHead) (leg : BitVec 16) (s : State) : Result := .next (s.writeOneObject head 0x401004 leg.toNat one)

/-- DEVICE_RESET (R548). -/
def execDeviceReset (head : GulHead) (s : State) : Result := .next (s.writeOneObject head 0x110018 0 one)

/-- DEVICE_IDENTITY (R563). -/
def execDeviceIdentity (head : GulHead) (value : List Byte) (s : State) : Result := .next (s.writeOneObject head 0xE00001 0 value)

/-- OWNER_KEY_HASH (R565, R566). -/
def execOwnerKeyHash (head : GulHead) (value : List Byte) (s : State) : Result := .next (s.writeOneObject head 0xE00003 0 value)

/-- OWNER_TRANSFER_AUTH (R566). -/
def execOwnerTransferAuth (head : GulHead) (value : List Byte) (s : State) : Result := .next (s.writeOneObject head 0xE00004 0 value)

/-- ROLLBACK_FLOOR (R561). -/
def execRollbackFloor (head : GulHead) (value : BitVec 8) (s : State) : Result := .next (s.writeOneObject head 0xE00005 0 [value])

/-- TRUNK_CIPHER_LOCK (R377, R560). -/
def execTrunkCipherLock (head : GulHead) (value : BitVec 8) (s : State) : Result := .next (s.writeOneObject head 0xE00006 0 [value])

/-- DEBUG_DISABLE (R560). -/
def execDebugDisable (head : GulHead) (value : BitVec 8) (s : State) : Result := .next (s.writeOneObject head 0xE00007 0 [value])

/-- ATTEST_NONCE (R567). -/
def execAttestNonce (head : GulHead) (value : List Byte) (s : State) : Result := .next (s.writeOneObject head 0x110004 0 value)

/-- FW_STAGE_BEGIN (R571). -/
def execFwStageBegin (head : GulHead) (s : State) : Result := .next (s.writeOneObject head 0x110010 0 one)

/-- FW_STAGE_DATA (R571). -/
def execFwStageData (head : GulHead) (value : List Byte) (s : State) : Result := .next (s.writeOneObject head 0x110012 0 value)

/-- FW_STAGE_HBM (R571). -/
def execFwStageHbm (head : GulHead) (value : List Byte) (s : State) : Result := .next (s.writeOneObject head 0x110013 0 value)

/-- FW_STAGE_END (R571). -/
def execFwStageEnd (head : GulHead) (s : State) : Result := .next (s.writeOneObject head 0x110014 0 one)

/-- FW_ACTIVATE (R571). -/
def execFwActivate (head : GulHead) (s : State) : Result := .next (s.writeOneObject head 0x110016 0 one)

/-- FW_COMMIT (R572). -/
def execFwCommit (head : GulHead) (s : State) : Result := .next (s.writeOneObject head 0x110019 0 one)

end Sys2Proof.Machine
end

