-- ==== Sys2Proof/Machine/RegisterRead.lean ====
section
/-! DEFINITION. Reads of registers with three copies and of 64-bit counters, and parity errors of the crossings (spec/00_scope.md, R17;
spec/01_architecture.md, R36; spec/02_media_ports_relay.md, R97; spec/15_host_interface.md, R486; spec/18_faults_log.md, R586). -/

namespace Sys2Proof.Machine

open Sys2Proof

/-! ### The vote (R17, R486, R586) -/

/-- The three copies of a register. -/
def State.copies (s : State) (a : Nat) : Word × Word × Word :=
  let r := s.reg a
  (r, r ^^^ SMap.get 0 s.rwvB a, r ^^^ SMap.get 0 s.rwvC a)

/-- The state with what the second and third copies differ in. -/
def State.setDiffs (s : State) (a : Nat) (b c : Word) : State :=
  { s with rwvB := SMap.set 0 s.rwvB a b, rwvC := SMap.set 0 s.rwvC a c }

/-- The bits of a register that have three copies. -/
def rwvMask (a : Nat) : Nat :=
  (fieldsAt a).foldl (fun (m : Nat) f => if f.row.ty = .rwv then m + (2 ^ f.row.width - 1) * 2 ^ f.row.lsb else m) 0

/-- Storage upsets reach the copies. -/
def State.upsetCopies (s : State) (a : Nat) (u : Upset) : State :=
  let m := BitVec.ofNat 32 (rwvMask a)
  let b := SMap.get 0 s.rwvB a ^^^ ((u.a ^^^ u.b) &&& m)
  let c := SMap.get 0 s.rwvC a ^^^ ((u.a ^^^ u.c) &&& m)
  (s.setReg a (s.reg a ^^^ (u.a &&& m))).setDiffs a b c

/-- The repair of a block is counted in its VOTE_FIX register (R17). -/
def State.countFix (s : State) (f : FieldAt) : State :=
  let a := if f.blk.base = 0x100000 then 0x10400C else f.blk.base + f.n * f.blk.stride + 0xC
  if (fieldsAt a).isEmpty then s else s.bump ⟨a, 0, 16⟩

/-- The vote on one field of three copies (R17, R586). -/
def State.voteField (s : State) (a : Nat) (f : FieldAt) : State :=
  let k := s.copies a
  let x := k.1.field f.row.lsb f.row.width
  let y := k.2.1.field f.row.lsb f.row.width
  let z := k.2.2.field f.row.lsb f.row.width
  let o := a - f.blk.base - f.n * f.blk.stride
  if f.row.ty != .rwv || (x == y && y == z) then s
  else if x == y || x == z || y == z then
    let v := if y == z then y else x
    ((s.storeField f a v).countFix f).log f.unit.1 f.unit.2 Sev.note Ev.voteFix o v
  else
    let v := f.row.rst.at f.index
    ((s.storeField f a v).log f.unit.1 f.unit.2 Sev.fault Ev.voteLost o v).putBit R.SQL_ALERT_CAUSE_VOTE_LOST true

/-- The vote on a register. -/
def State.vote (s : State) (a : Nat) : State := (fieldsAt a).foldl (fun (s : State) f => s.voteField a f) s

/-! ### Reads (R17, R97, R158) -/

/-- Whether the LO word of a 64-bit counter lies at `a`, or one of the 64-bit registers of Squall. -/
def isCounterLo (a : Nat) : Bool :=
  a == 0x00F00010 || R.counterRows.any fun r =>
    r.1 ≤ a &&
      (let o := a - r.1
       let n := if r.2.2.1 = 0 then 0 else o / r.2.2.1
       let o := if r.2.2.1 = 0 then o else o % r.2.2.1
       n < max 1 r.2.1 && (if r.2.2.2.2 = 0 then o == 0 else o % r.2.2.2.2 == 0 && o / r.2.2.2.2 < r.2.2.2.1))

/-- What a read of the register at `a` latches first: the seconds that belong to its nanoseconds (R158). -/
def State.readLatches (s : State) (a : Nat) : State :=
  if a = R.TIM_NS_NS.addr then s.showTime
  else if a = R.TIM_PPS_CAPT_NS.addr then
    (s.put R.TIM_PPS_CAPT_SEC_LO s.time.captSec).put R.TIM_PPS_CAPT_SEC_HI (s.time.captSec / 2 ^ 32)
  else
    match inArray a (R.TIM_Pn_TXTS_NS_NS 0).addr 8 0x100 with
    | some n => if a = (R.TIM_Pn_TXTS_NS_NS n).addr then s.latchTxts n else s
    | none => s

/-- The doorbell bits of a function in word `k` of the 256 (R504). -/
def ownBits (n k : Nat) : Word := if k % 4 = n / 4 then BitVec.ofNat 32 (255 * 2 ^ (8 * (n % 4))) else 0

/-- What a read of a register that holds `w` returns: a function reads DATA of a channel as its claimer or its receiver alone (R499), and
a virtual function its own doorbell bits alone (R507). -/
def State.seen (s : State) (who : Sender) (a : Nat) (w : Word) : Word :=
  match who with
  | .host n =>
    let c := (a - 0x100000) / 0x100
    if 0x100000 ≤ a && a < 0x104000 && a % 0x100 < 0x40 then
      if s.isReceiver who c || (s.mbxClaimed c && s.get (R.MBX_CHc_STAT_CLAIMER c) == n) then w else 0
    else if n != 0 && 0x106000 ≤ a && a < 0x106040 then w &&& ownBits n ((a - 0x106000) / 4 % 8)
    else w
  | _ => w

/-- Where a host queue's register set and an offset in it lie, for an address in a function page (R513). -/
def queueRegAt (a : Nat) : Option (Nat × Nat × Nat) :=
  let o := (a - 0x80000) % 0x8000
  if 0x80000 ≤ a && a < 0x100000 && 0x1000 ≤ o && o < 0x3000 then some ((a - 0x80000) / 0x8000, (o - 0x1000) / 0x100, o % 0x100) else none

/-- What a function's MSI-X structures read as at offset `o` of its page: the Mask bits and the pending bit array, which are not among the
registers (R508, R509). -/
def State.msixWord (s : State) (n o : Nat) : Option Word :=
  let f := s.fn n
  if 0x4000 ≤ o && o < 0x4800 && o % 16 = 12 then some (BitVec.ofNat 32 (bnat (SMap.get true f.masked ((o - 0x4000) / 16))))
  else if 0x5000 ≤ o && o < 0x5010 then
    some (BitVec.ofNat 32 ((List.range 32).foldl (fun v b => v + bnat (SMap.get false f.pendingV ((o - 0x5000) * 8 + b)) * 2 ^ b) 0))
  else none

/-- What the word at `a` holds for a reader (R17, R97, R513): the HI word of a 64-bit counter is what the latest read of its LO word
latched; the write-only window of a host queue reads 0; ENABLE, ORDER_MODE and KB3_COMPAT of a host queue are those of its stream queue. -/
def State.wordAt (s : State) (a : Nat) : Word :=
  if 4 ≤ a && isCounterLo (a - 4) then BitVec.ofNat 32 (SMap.get 0 s.latch a)
  else match queueRegAt a with
    | some (n, j, o) =>
      if 0x20 ≤ o && o < 0x40 then 0
      else if o = 0 then s.reg a ||| BitVec.ofNat 32 ((s.reg (R.BPM_Qq_CFG_ENABLE (hostQueue n j)).addr).toNat % 8)
      else s.reg a
    | none =>
      if 0x80000 ≤ a && a < 0x100000 then (s.msixWord ((a - 0x80000) / 0x8000) ((a - 0x80000) % 0x8000)).getD (s.reg a) else s.reg a

/-- The read of the LO word of a 64-bit counter: its value, and its HI word latched (R97). -/
def State.readCounter (s : State) (who : Sender) (a : Nat) : State :=
  let v := s.counter a
  { s with latch := SMap.set 0 s.latch (a + 4) (v / 2 ^ 32) }.emit (.readDone who a (v % 2 ^ 32))

/-- RWV_READ (R17, R36, R97, R158, R482, R499, R507, R513): the read of any register whose read has no row of its own. -/
def execRwvRead (who : Sender) (addr : BitVec 24) (upset : Upset) (s : State) : Result :=
  let a := addr.toNat
  (s.upsetCopies a upset).accessRead who a fun s =>
  if isCounterLo a then .next (s.readCounter who a)
  else
    let s := (s.vote a).readLatches a
    .next (s.emit (.readDone who a (s.seen who a (s.wordAt a)).toNat))

/-- RWV_SWEEP (R486): once a millisecond, every register whose copies may differ is voted on, in rising order. -/
def execRwvSweep (upsets : List (BitVec 24 × Upset)) (s : State) : Result :=
  if !s.passed s.sweptAt msCycles then .next s
  else
    let s := upsets.foldl (fun (s : State) u => s.upsetCopies u.1.toNat u.2) { s with sweptAt := s.cycle }
    let keys := (s.rwvB.map Prod.fst ++ s.rwvC.map Prod.fst).foldl (fun (m : SMap Unit) k => SMap.insert m k ()) []
    .next ((keys.map Prod.fst).foldl State.vote s)

/-- COUNTER_LO_READ (R97): the LO word is returned and the HI word latched. -/
def execCounterLoRead (who : Sender) (addr : BitVec 24) (s : State) : Result :=
  let a := addr.toNat
  s.accessRead who a fun s =>
  .next (if isCounterLo a then s.readCounter who a else s.emit (.readDone who a 0))

/-! ### Crossings (R36) -/

/-- A DSP core on a fenced island stops. -/
def State.fenceCore (s : State) (c : Nat) : State := s.setCore c { s.core c with mode := .fenced, task := none, attempt := 1 }

/-- The work of a unit whose island is fenced ends with UNIT_FENCED (R36). -/
def State.endUnit (s : State) (g i : Nat) : State :=
  let s := if g = 0 then (s.setVdeJob i none).putBit (R.VDE_STATUS_BUSY i) false else if g = 1 then s.setVeeJob i none
    else if g = 2 then (s.setCmpJob i none).putBit (R.CMP_STATUS_BUSY i) false else if g = 3 then s.setTspJob none else s.fenceCore i
  match s.runningOn g i with
  | some (n, t) => s.completeTask n St.unitFenced t.unit
  | none => s

/-- A crossing is fenced with the island on its sending side (R36, R582); every media port stops where that ends the device's
service (R583). -/
def State.fenceCrossing (s : State) (i param : Nat) : State :=
  let s := s.fence Unit.crossing i 11 param
  let s := (islandUnits i).foldl (fun (s : State) u => s.endUnit u.1 u.2) s
  let s := if i = 0 || i = 1 then (List.range 8).foldl State.disablePort s
    else if isDeviceUnit Unit.crossing i then (List.range 8).foldl State.abortRx s else s
  let s := if 50 ≤ i && i < 54 then s.loseMemory else s
  let s := s.setIsland i .lull
  if i = 2 then s.fenceCipher else s

/-- The operation of an entry that was discarded ends with an error to its requester (R36). -/
def State.failEntry (s : State) (op : CrossingOp) : State :=
  match op with
  | .write who a => s.emit (.busError who a)
  | .read who a => s.emit (.done who St.unitFenced [a])
  | .task id =>
    match s.liveTask id with
    | some t => s.completeTask (slotOf id) St.unitFenced (if t.st = .running then t.unit else htsConsumer)
    | none => s
  | .operation who id => s.emit (.done who St.unitFenced [id])
  | .hostRead n a => s.emit (.readAbort (.host n) a)
  | .hostWrite a => s.emit (.aer a)

/-- The address or TASK_ID of an operation (R591); a free value where it has neither. -/
def State.crossingParam (s : State) : CrossingOp → Nat
  | .write _ a => a
  | .read _ a => a
  | .task id => id
  | .operation _ _ => s.free (2 ^ 64)
  | .hostRead _ a => a
  | .hostWrite a => a

/-- CROSSING_PARITY_ERROR (R36, R577): the entry is sent again once; what is offered to a fenced crossing is discarded. -/
def execCrossingParityError (island : Island) (op : CrossingOp) (again : Bool) (s : State) : Result :=
  let i := island.val
  if s.isFenced Unit.crossing i then .next (s.failEntry op)
  else if again then .next ((s.failEntry op).spent.fenceCrossing i (s.crossingParam op))
  else .next (s.spent.retried Unit.crossing i 11 (s.crossingParam op))

end Sys2Proof.Machine
end

