-- ==== Sys2Proof/Machine/TaskCommands.lean ====
section
/-! DEFINITION. The commands to the Hardware Task Scheduler that meet other events of a task in their cycle (spec/13_scheduler_updraft.md,
R431, R433, R434, R436): LINK, CANCEL and FOLLOW. Commands that wait in the queue fall in the present cycle. -/

namespace Sys2Proof.Machine

open Sys2Proof

/-! ### The order of one cycle (R434) -/

/-- The place of an event in its cycle: completions, fences of units, dispatches; a command to the HTS comes after them. -/
def eventPhase : Instr → Option Nat
  | .complete _ _ _ _ => some 0
  | .decodeComplete _ _ => some 0
  | .encodeComplete _ _ _ => some 0
  | .composeComplete _ _ _ => some 0
  | .spliceComplete _ => some 0
  | .vdeWatchdogExpiry _ _ => some 1
  | .veeWatchdogExpiry _ _ _ => some 1
  | .cmpWatchdogExpiry _ _ _ => some 1
  | .tspWatchdogExpiry _ _ => some 1
  | .selftestDone _ _ => some 1
  | .taskDispatch _ => some 2
  | _ => none

/-- What an event that may go before a command does. -/
def State.foresee (s : State) (c : Instr) : State :=
  let r := match c with
    | .complete who task status holds => execComplete who task status holds s
    | .decodeComplete vde fin => execDecodeComplete vde fin s
    | .encodeComplete vee units cycles => execEncodeComplete vee units cycles s
    | .composeComplete cmp cycles waits => execComposeComplete cmp cycles waits s
    | .spliceComplete cycles => execSpliceComplete cycles s
    | .vdeWatchdogExpiry vde cycles => execVdeWatchdogExpiry vde cycles s
    | .veeWatchdogExpiry vee cycles blocked => execVeeWatchdogExpiry vee cycles blocked s
    | .cmpWatchdogExpiry cmp cycles blocked => execCmpWatchdogExpiry cmp cycles blocked s
    | .tspWatchdogExpiry cycles blocked => execTspWatchdogExpiry cycles blocked s
    | .selftestDone core pass => execSelftestDone core pass s
    | .taskDispatch group => execTaskDispatch group s
    | _ => .next s
  match r with
  | .next t => t
  | _ => s

/-- The tasks as a command of this cycle finds them: after every completion, fence and dispatch of the cycle (R434). -/
def State.ahead (s : State) : State :=
  let ev (k : Nat) := s.pending.filter fun c => eventPhase c == some k
  (ev 0 ++ ev 1 ++ ev 2).foldl State.foresee { s with pending := [] }

/-! ### LINK, CANCEL, FOLLOW -/

/-- LINK as the cycle's order answers it (R431, R434): what is not linked changes nothing. -/
def State.link (s : State) (pred succ : Nat) (first : Bool) : State × (Nat × Nat) :=
  let r := s.ahead.linkTasks pred succ first
  if r.2 = (St.ok, 0) then s.linkTasks pred succ first else (s, r.2)

/-- LINK (R431): mode 1 is FIRST_STRIP. -/
def execLink (who : Sender) (pred succ mode : Nat) (s : State) : Result :=
  if !mayCreate who then .next s
  else let r := s.link pred succ (mode == 1); .next (r.1.emit (.done who r.2.1 [r.2.2]))

/-- CANCEL as the cycle's order answers it (R433, R434). -/
def State.cancelTask (s : State) (id : Nat) : State × Nat :=
  match s.ahead.liveTask id with
  | none => (s, St.htsStaleId)
  | some t => if t.st = .running then (s, St.htsRunning) else ((s.trace id htsConsumer 10 0 0).completeTask (slotOf id) St.htsCancelled htsConsumer, St.ok)

/-- CANCEL (R433). -/
def execCancel (who : Sender) (task : Nat) (s : State) : Result :=
  if !mayCreate who then .next s else let r := s.cancelTask task; .next (r.1.emit (.done who r.2 []))

/-- FOLLOW (R436): strip count, BUF and DONE; a retired task is done with every strip published. -/
def execFollow (who : Sender) (task : Nat) (s : State) : Result :=
  match (s.ahead.liveTask task).bind fun _ => s.liveTask task with
  | some t =>
    let s := s.setTask (slotOf task) { t with followers := if t.followers.contains who then t.followers else t.followers ++ [who] }
    .next (s.emit (.done who St.ok [task, t.strips, t.buf, 0]))
  | none => .next (s.emit (.done who St.ok [task, 255, 0, 1]))

end Sys2Proof.Machine
end

