-- ==== Sys2Proof/Machine/Dispatch.lean ====
section
/-! DEFINITION. The meaning of each command: one arm per constructor of Instr. -/

namespace Sys2Proof.Machine

open Sys2Proof

/-- The effect of a command on everything but the queue. -/
def exec (i : Instr) (s : State) : Host.Outcome State Fault Refusal :=
  match i with
  | .registerWrite who addr value => Sys2Proof.Machine.execRegisterWrite who addr value s
  | .rwvRead who addr upset => Sys2Proof.Machine.execRwvRead who addr upset s
  | .rwvSweep upsets => Sys2Proof.Machine.execRwvSweep upsets s
  | .crossingParityError island op again => Sys2Proof.Machine.execCrossingParityError island op again s
  | .lullEntry island => Sys2Proof.Machine.execLullEntry island s
  | .lullWake island cause => Sys2Proof.Machine.execLullWake island cause s
  | .lullWakeDone island => Sys2Proof.Machine.execLullWakeDone island s
  | .clusterPrewake cluster => Sys2Proof.Machine.execClusterPrewake cluster s
  | .rxFrame port frame => Sys2Proof.Machine.execRxFrame port frame s
  | .fctSlowLookupDone => Sys2Proof.Machine.execFctSlowLookupDone s
  | .rxFrameEnd port fin => Sys2Proof.Machine.execRxFrameEnd port fin s
  | .ingressDecryptDone packet => Sys2Proof.Machine.execIngressDecryptDone packet s
  | .replicate => Sys2Proof.Machine.execReplicate s
  | .egressEncryptDone op => Sys2Proof.Machine.execEgressEncryptDone op s
  | .routeRetired stream => Sys2Proof.Machine.execRouteRetired stream s
  | .linkChange port link => Sys2Proof.Machine.execLinkChange port link s
  | .anComplete port fec => Sys2Proof.Machine.execAnComplete port fec s
  | .portDisable who port => Sys2Proof.Machine.execPortDisable who port s
  | .relayDisable who => Sys2Proof.Machine.execRelayDisable who s
  | .rlyFctClaim who => Sys2Proof.Machine.execRlyFctClaim who s
  | .rlyFctRelease who => Sys2Proof.Machine.execRlyFctRelease who s
  | .insert who => Sys2Proof.Machine.execInsert who s
  | .update who => Sys2Proof.Machine.execUpdate who s
  | .delete who => Sys2Proof.Machine.execDelete who s
  | .lookup who => Sys2Proof.Machine.execLookup who s
  | .routeCommit who => Sys2Proof.Machine.execRouteCommit who s
  | .select who => Sys2Proof.Machine.execSelect who s
  | .stateWrite who => Sys2Proof.Machine.execStateWrite who s
  | .clear who => Sys2Proof.Machine.execClear who s
  | .fctCommandDone => Sys2Proof.Machine.execFctCommandDone s
  | .hashSeedWrite who value => Sys2Proof.Machine.execHashSeedWrite who value s
  | .ageScan entry => Sys2Proof.Machine.execAgeScan entry s
  | .alloc who req size cls onDie nowait => Sys2Proof.Machine.execAlloc who req size cls onDie nowait s
  | .free who ptr => Sys2Proof.Machine.execFree who ptr s
  | .holdTimeout pool => Sys2Proof.Machine.execHoldTimeout pool s
  | .resetPools who mask => Sys2Proof.Machine.execResetPools who mask s
  | .bpmDisable who => Sys2Proof.Machine.execBpmDisable who s
  | .poolThresholdWrite who pool which value => Sys2Proof.Machine.execPoolThresholdWrite who pool which value s
  | .minfreeWrite who pool => Sys2Proof.Machine.execMinfreeWrite who pool s
  | .queueWrite who queue word => Sys2Proof.Machine.execQueueWrite who queue word s
  | .queueRead who queue => Sys2Proof.Machine.execQueueRead who queue s
  | .dropRest who queue => Sys2Proof.Machine.execDropRest who queue s
  | .flush who queue => Sys2Proof.Machine.execFlush who queue s
  | .compatStallTimeout queue => Sys2Proof.Machine.execCompatStallTimeout queue s
  | .enqueue port => Sys2Proof.Machine.execEnqueue port s
  | .egressPick port => Sys2Proof.Machine.execEgressPick port s
  | .indRead who => Sys2Proof.Machine.execIndRead who s
  | .indWrite who => Sys2Proof.Machine.execIndWrite who s
  | .depthSample port => Sys2Proof.Machine.execDepthSample port s
  | .histClr who => Sys2Proof.Machine.execHistClr who s
  | .activate who port => Sys2Proof.Machine.execActivate who port s
  | .gateTakeover port => Sys2Proof.Machine.execGateTakeover port s
  | .gateEntryAdvance port => Sys2Proof.Machine.execGateEntryAdvance port s
  | .gateDisable who port => Sys2Proof.Machine.execGateDisable who port s
  | .stepAbsolute who => Sys2Proof.Machine.execStepAbsolute who s
  | .stepOffset who => Sys2Proof.Machine.execStepOffset who s
  | .timSlewWrite who value => Sys2Proof.Machine.execTimSlewWrite who value s
  | .timNsRead who => Sys2Proof.Machine.execTimNsRead who s
  | .ppsEdge => Sys2Proof.Machine.execPpsEdge s
  | .ppsOutRise => Sys2Proof.Machine.execPpsOutRise s
  | .ppsOutFall => Sys2Proof.Machine.execPpsOutFall s
  | .ptpEventTx port oneStep frame msgType domain seqId => Sys2Proof.Machine.execPtpEventTx port oneStep frame msgType domain seqId s
  | .txtsPop who port => Sys2Proof.Machine.execTxtsPop who port s
  | .decodeStart vde pic => Sys2Proof.Machine.execDecodeStart vde pic s
  | .stripPublished vde luma chroma fin => Sys2Proof.Machine.execStripPublished vde luma chroma fin s
  | .decodeComplete vde fin => Sys2Proof.Machine.execDecodeComplete vde fin s
  | .vdeWatchdogExpiry vde cycles => Sys2Proof.Machine.execVdeWatchdogExpiry vde cycles s
  | .decodeFill vde fin => Sys2Proof.Machine.execDecodeFill vde fin s
  | .injWd who engine => Sys2Proof.Machine.execInjWd who engine s
  | .holdRelease who mark => Sys2Proof.Machine.execHoldRelease who mark s
  | .composePass cmp => Sys2Proof.Machine.execComposePass cmp s
  | .composeStrip cmp => Sys2Proof.Machine.execComposeStrip cmp s
  | .composeComplete cmp cycles waits => Sys2Proof.Machine.execComposeComplete cmp cycles waits s
  | .cmpWatchdogExpiry cmp cycles blocked => Sys2Proof.Machine.execCmpWatchdogExpiry cmp cycles blocked s
  | .composeFill cmp cycles => Sys2Proof.Machine.execComposeFill cmp cycles s
  | .encodeStart vee sets => Sys2Proof.Machine.execEncodeStart vee sets s
  | .encodeRow vee coded trunc => Sys2Proof.Machine.execEncodeRow vee coded trunc s
  | .encodeComplete vee units cycles => Sys2Proof.Machine.execEncodeComplete vee units cycles s
  | .veeWatchdogExpiry vee cycles blocked => Sys2Proof.Machine.execVeeWatchdogExpiry vee cycles blocked s
  | .packetize leg codec record bits frameUs groups => Sys2Proof.Machine.execPacketize leg codec record bits frameUs groups s
  | .pacePacket leg stream cls header => Sys2Proof.Machine.execPacePacket leg stream cls header s
  | .spliceStart => Sys2Proof.Machine.execSpliceStart s
  | .spliceComplete cycles => Sys2Proof.Machine.execSpliceComplete cycles s
  | .entryTileRequest tset tick desc => Sys2Proof.Machine.execEntryTileRequest tset tick desc s
  | .tspWatchdogExpiry cycles blocked => Sys2Proof.Machine.execTspWatchdogExpiry cycles blocked s
  | .jbTargetUpdate leg transit ptime => Sys2Proof.Machine.execJbTargetUpdate leg transit ptime s
  | .talkerSetUpdate conf reports => Sys2Proof.Machine.execTalkerSetUpdate conf reports s
  | .sourcePortWrite who source offset data => Sys2Proof.Machine.execSourcePortWrite who source offset data s
  | .sourceCfgApply source => Sys2Proof.Machine.execSourceCfgApply source s
  | .frameStart => Sys2Proof.Machine.execFrameStart s
  | .mixFrame check => Sys2Proof.Machine.execMixFrame check s
  | .mxmClaim who => Sys2Proof.Machine.execMxmClaim who s
  | .mxmRelease who => Sys2Proof.Machine.execMxmRelease who s
  | .load who => Sys2Proof.Machine.execLoad who s
  | .store who => Sys2Proof.Machine.execStore who s
  | .readActive who => Sys2Proof.Machine.execReadActive who s
  | .swapCommit who count at_ tag => Sys2Proof.Machine.execSwapCommit who count at_ tag s
  | .swapApply => Sys2Proof.Machine.execSwapApply s
  | .gainStep bus step before now => Sys2Proof.Machine.execGainStep bus step before now s
  | .stepTimeout bus step => Sys2Proof.Machine.execStepTimeout bus step s
  | .mixDisable who => Sys2Proof.Machine.execMixDisable who s
  | .talkerAdmit leg source listener own frame tag encode routes rstate rbytes => Sys2Proof.Machine.execTalkerAdmit leg source listener own frame tag encode routes rstate rbytes s
  | .talkerRemove leg source listener own tag routes rstate rbytes => Sys2Proof.Machine.execTalkerRemove leg source listener own tag routes rstate rbytes s
  | .audioFrameLate core frame => Sys2Proof.Machine.execAudioFrameLate core frame s
  | .ld core slot dst addr last => Sys2Proof.Machine.execLd core slot dst addr last s
  | .ld2 core slot dst addr last => Sys2Proof.Machine.execLd2 core slot dst addr last s
  | .st core slot addr src last => Sys2Proof.Machine.execSt core slot addr src last s
  | .st2 core slot addr src last => Sys2Proof.Machine.execSt2 core slot addr src last s
  | .mod core slot a m last => Sys2Proof.Machine.execMod core slot a m last s
  | .add core dst x y last => Sys2Proof.Machine.execAdd core dst x y last s
  | .sub core dst x y last => Sys2Proof.Machine.execSub core dst x y last s
  | .dspAnd core dst x y last => Sys2Proof.Machine.execDspAnd core dst x y last s
  | .dspOr core dst x y last => Sys2Proof.Machine.execDspOr core dst x y last s
  | .xor core dst x y last => Sys2Proof.Machine.execXor core dst x y last s
  | .ash core dst x y last => Sys2Proof.Machine.execAsh core dst x y last s
  | .lsh core dst x y last => Sys2Proof.Machine.execLsh core dst x y last s
  | .min core dst x y last => Sys2Proof.Machine.execMin core dst x y last s
  | .max core dst x y last => Sys2Proof.Machine.execMax core dst x y last s
  | .abs core dst x last => Sys2Proof.Machine.execAbs core dst x last s
  | .neg core dst x last => Sys2Proof.Machine.execNeg core dst x last s
  | .cmp core x y last => Sys2Proof.Machine.execCmp core x y last s
  | .adda core dst src imm last => Sys2Proof.Machine.execAdda core dst src imm last s
  | .mov core dst src last => Sys2Proof.Machine.execMov core dst src last s
  | .mvg core toAcc acc d last => Sys2Proof.Machine.execMvg core toAcc acc d last s
  | .mac2 core a b w x y z last => Sys2Proof.Machine.execMac2 core a b w x y z last s
  | .msu2 core a b w x y z last => Sys2Proof.Machine.execMsu2 core a b w x y z last s
  | .mpy2 core a b w x y z last => Sys2Proof.Machine.execMpy2 core a b w x y z last s
  | .mac core a x y last => Sys2Proof.Machine.execMac core a x y last s
  | .msu core a x y last => Sys2Proof.Machine.execMsu core a x y last s
  | .mpy core a x y last => Sys2Proof.Machine.execMpy core a x y last s
  | .accadd core a b c last => Sys2Proof.Machine.execAccadd core a b c last s
  | .accsh core a shift last => Sys2Proof.Machine.execAccsh core a shift last s
  | .rnd core d a last => Sys2Proof.Machine.execRnd core d a last s
  | .clr2 core a b last => Sys2Proof.Machine.execClr2 core a b last s
  | .dspB core offset last => Sys2Proof.Machine.execDspB core offset last s
  | .bcc core cond offset last => Sys2Proof.Machine.execBcc core cond offset last s
  | .call core offset last => Sys2Proof.Machine.execCall core offset last s
  | .ret core last => Sys2Proof.Machine.execRet core last s
  | .dspRep core level count end_ last => Sys2Proof.Machine.execDspRep core level count end_ last s
  | .brk core level last => Sys2Proof.Machine.execBrk core level last s
  | .take core dst => Sys2Proof.Machine.execTake core dst s
  | .takeGrant core => Sys2Proof.Machine.execTakeGrant core s
  | .done core fin => Sys2Proof.Machine.execDone core fin s
  | .doneDmaDrained core => Sys2Proof.Machine.execDoneDmaDrained core s
  | .rti core last => Sys2Proof.Machine.execRti core last s
  | .swi core n last => Sys2Proof.Machine.execSwi core n last s
  | .nop core slot last => Sys2Proof.Machine.execNop core slot last s
  | .interruptTaken core => Sys2Proof.Machine.execInterruptTaken core s
  | .coreTimerExpiry core => Sys2Proof.Machine.execCoreTimerExpiry core s
  | .dmaStart core channel desc => Sys2Proof.Machine.execDmaStart core channel desc s
  | .dmaDescDone core channel => Sys2Proof.Machine.execDmaDescDone core channel s
  | .dspWatchdogExpiry spent => Sys2Proof.Machine.execDspWatchdogExpiry spent s
  | .selftestDone core pass => Sys2Proof.Machine.execSelftestDone core pass s
  | .dscDoorbell who cluster ring => Sys2Proof.Machine.execDscDoorbell who cluster ring s
  | .halt who core on => Sys2Proof.Machine.execHalt who core on s
  | .step who core => Sys2Proof.Machine.execStep who core s
  | .kernelInstall image cores => Sys2Proof.Machine.execKernelInstall image cores s
  | .probeNow who leg fullband => Sys2Proof.Machine.execProbeNow who leg fullband s
  | .probeArm nonce bus parent exclusions gain encode => Sys2Proof.Machine.execProbeArm nonce bus parent exclusions gain encode s
  | .modStartWrite who mod frame => Sys2Proof.Machine.execModStartWrite who mod frame s
  | .beaconFrameStart start => Sys2Proof.Machine.execBeaconFrameStart start s
  | .beaconFrameEnd mod => Sys2Proof.Machine.execBeaconFrameEnd mod s
  | .probeJudge leg listeners => Sys2Proof.Machine.execProbeJudge leg listeners s
  | .probeAbort leg => Sys2Proof.Machine.execProbeAbort leg s
  | .detectorConfig who det source on => Sys2Proof.Machine.execDetectorConfig who det source on s
  | .detectorFrame det energy findings check => Sys2Proof.Machine.execDetectorFrame det energy findings check s
  | .agcRelease det => Sys2Proof.Machine.execAgcRelease det s
  | .colocGroupApply conf buses tag => Sys2Proof.Machine.execColocGroupApply conf buses tag s
  | .cipherRequest req => Sys2Proof.Machine.execCipherRequest req s
  | .cipherComplete op check => Sys2Proof.Machine.execCipherComplete op check s
  | .gracePeriodEnd slot => Sys2Proof.Machine.execGracePeriodEnd slot s
  | .keyStoreEccError slot gen again => Sys2Proof.Machine.execKeyStoreEccError slot gen again s
  | .kslClaim who => Sys2Proof.Machine.execKslClaim who s
  | .kslRelease who => Sys2Proof.Machine.execKslRelease who s
  | .kslDataWrite who word value => Sys2Proof.Machine.execKslDataWrite who word value s
  | .write who => Sys2Proof.Machine.execWrite who s
  | .erase who => Sys2Proof.Machine.execErase who s
  | .zeroize who => Sys2Proof.Machine.execZeroize who s
  | .zeroizeAll who => Sys2Proof.Machine.execZeroizeAll who s
  | .retireOld who => Sys2Proof.Machine.execRetireOld who s
  | .kslStatus who => Sys2Proof.Machine.execKslStatus who s
  | .ctxInit who => Sys2Proof.Machine.execCtxInit who s
  | .ctxClear who => Sys2Proof.Machine.execCtxClear who s
  | .kslCommandDone => Sys2Proof.Machine.execKslCommandDone s
  | .cpxPkaClaim who => Sys2Proof.Machine.execCpxPkaClaim who s
  | .cpxPkaRelease who => Sys2Proof.Machine.execCpxPkaRelease who s
  | .verify who digest x y r sv => Sys2Proof.Machine.execVerify who digest x y r sv s
  | .sign who digest key => Sys2Proof.Machine.execSign who digest key s
  | .keygen who target => Sys2Proof.Machine.execKeygen who target s
  | .ecdh who key x y => Sys2Proof.Machine.execEcdh who key x y s
  | .deriveToSlot who slot suite decryptOnly salt info => Sys2Proof.Machine.execDeriveToSlot who slot suite decryptOnly salt info s
  | .pkaCommandDone => Sys2Proof.Machine.execPkaCommandDone s
  | .rngDataRead ask => Sys2Proof.Machine.execRngDataRead ask s
  | .rngReady => Sys2Proof.Machine.execRngReady s
  | .rngHealthFail => Sys2Proof.Machine.execRngHealthFail s
  | .trunkEnable who trunk => Sys2Proof.Machine.execTrunkEnable who trunk s
  | .trunkDisable who trunk => Sys2Proof.Machine.execTrunkDisable who trunk s
  | .helloResend trunk => Sys2Proof.Machine.execHelloResend trunk s
  | .hello frame => Sys2Proof.Machine.execHello frame s
  | .helloReply frame => Sys2Proof.Machine.execHelloReply frame s
  | .media frame => Sys2Proof.Machine.execMedia frame s
  | .audio what => Sys2Proof.Machine.execAudio what s
  | .reliable frame => Sys2Proof.Machine.execReliable frame s
  | .ack frame => Sys2Proof.Machine.execAck frame s
  | .heartbeat frame => Sys2Proof.Machine.execHeartbeat frame s
  | .probe frame => Sys2Proof.Machine.execProbe frame s
  | .probeReply frame => Sys2Proof.Machine.execProbeReply frame s
  | .rekey frame => Sys2Proof.Machine.execRekey frame s
  | .control frame => Sys2Proof.Machine.execControl frame s
  | .heartbeatSend trunk => Sys2Proof.Machine.execHeartbeatSend trunk s
  | .heartbeatMiss trunk => Sys2Proof.Machine.execHeartbeatMiss trunk s
  | .probeTimeout trunk => Sys2Proof.Machine.execProbeTimeout trunk s
  | .ackSend trunk => Sys2Proof.Machine.execAckSend trunk s
  | .retransmitTimeout trunk seq => Sys2Proof.Machine.execRetransmitTimeout trunk seq s
  | .rekeyStart trunk => Sys2Proof.Machine.execRekeyStart trunk s
  | .rosterUpdate trunk conf epoch id presence => Sys2Proof.Machine.execRosterUpdate trunk conf epoch id presence s
  | .talkerReport trunk conf epoch pairs => Sys2Proof.Machine.execTalkerReport trunk conf epoch pairs s
  | .talkerSet trunk conf epoch ids => Sys2Proof.Machine.execTalkerSet trunk conf epoch ids s
  | .confOp from_ who conf op => Sys2Proof.Machine.execConfOp from_ who conf op s
  | .confOpResult trunk conf status => Sys2Proof.Machine.execConfOpResult trunk conf status s
  | .stateSummary trunk conf anchor anchorEpoch epoch length => Sys2Proof.Machine.execStateSummary trunk conf anchor anchorEpoch epoch length s
  | .journalEntry trunk conf epoch time valid op => Sys2Proof.Machine.execJournalEntry trunk conf epoch time valid op s
  | .journalDone trunk conf count => Sys2Proof.Machine.execJournalDone trunk conf count s
  | .channelOffer trunk conf stream => Sys2Proof.Machine.execChannelOffer trunk conf stream s
  | .promote who conf => Sys2Proof.Machine.execPromote who conf s
  | .create who desc => Sys2Proof.Machine.execCreate who desc s
  | .link who pred succ mode => Sys2Proof.Machine.execLink who pred succ mode s
  | .arm who task => Sys2Proof.Machine.execArm who task s
  | .cancel who task => Sys2Proof.Machine.execCancel who task s
  | .strip who task count buf => Sys2Proof.Machine.execStrip who task count buf s
  | .follow who task => Sys2Proof.Machine.execFollow who task s
  | .complete who task status holds => Sys2Proof.Machine.execComplete who task status holds s
  | .taskDispatch group => Sys2Proof.Machine.execTaskDispatch group s
  | .auHandover tpl => Sys2Proof.Machine.execAuHandover tpl s
  | .updWindowEnd => Sys2Proof.Machine.execUpdWindowEnd s
  | .thermalSample sensors => Sys2Proof.Machine.execThermalSample sensors s
  | .telemetrySample vin rails islands link => Sys2Proof.Machine.execTelemetrySample vin rails islands link s
  | .standbyEnter who => Sys2Proof.Machine.execStandbyEnter who s
  | .standbyExit who => Sys2Proof.Machine.execStandbyExit who s
  | .standbyWakeDone => Sys2Proof.Machine.execStandbyWakeDone s
  | .hbmRequest ctl pc arrivals ecc => Sys2Proof.Machine.execHbmRequest ctl pc arrivals ecc s
  | .refresh ctl pc bank => Sys2Proof.Machine.execRefresh ctl pc bank s
  | .refreshWindowStart ctl celsius => Sys2Proof.Machine.execRefreshWindowStart ctl celsius s
  | .throttleExpiry ctl slot => Sys2Proof.Machine.execThrottleExpiry ctl slot s
  | .scrubRead ecc => Sys2Proof.Machine.execScrubRead ecc s
  | .hbmParityError ctl again => Sys2Proof.Machine.execHbmParityError ctl again s
  | .hbmTrainStep ctl outcome => Sys2Proof.Machine.execHbmTrainStep ctl outcome s
  | .mapEnable who => Sys2Proof.Machine.execMapEnable who s
  | .bar2Read offset n ecc => Sys2Proof.Machine.execBar2Read offset n ecc s
  | .bar2Write offset bytes ecc => Sys2Proof.Machine.execBar2Write offset bytes ecc s
  | .functionLevelReset fn => Sys2Proof.Machine.execFunctionLevelReset fn s
  | .vfEnableClear again => Sys2Proof.Machine.execVfEnableClear again s
  | .hotReset speed width => Sys2Proof.Machine.execHotReset speed width s
  | .badAccess fn addr read => Sys2Proof.Machine.execBadAccess fn addr read s
  | .tailWrite fn j tail => Sys2Proof.Machine.execTailWrite fn j tail s
  | .descFetchDone fn j descs failed => Sys2Proof.Machine.execDescFetchDone fn j descs failed s
  | .pioCommit fn j => Sys2Proof.Machine.execPioCommit fn j s
  | .descNop fn j => Sys2Proof.Machine.execDescNop fn j s
  | .inline fn j => Sys2Proof.Machine.execInline fn j s
  | .hostBuf fn j data => Sys2Proof.Machine.execHostBuf fn j data s
  | .devBuf fn j => Sys2Proof.Machine.execDevBuf fn j s
  | .freeCell fn j => Sys2Proof.Machine.execFreeCell fn j s
  | .rxBuf fn j => Sys2Proof.Machine.execRxBuf fn j s
  | .frameTx fn j => Sys2Proof.Machine.execFrameTx fn j s
  | .gulterBlock fn j => Sys2Proof.Machine.execGulterBlock fn j s
  | .firmware fn j status => Sys2Proof.Machine.execFirmware fn j status s
  | .cqEntryWrite fn k => Sys2Proof.Machine.execCqEntryWrite fn k s
  | .headWrite fn k head => Sys2Proof.Machine.execHeadWrite fn k head s
  | .cqCoalesceTimer fn k => Sys2Proof.Machine.execCqCoalesceTimer fn k s
  | .msixUnmask fn vec => Sys2Proof.Machine.execMsixUnmask fn vec s
  | .hostQueueDisable fn j => Sys2Proof.Machine.execHostQueueDisable fn j s
  | .mbxClaim fn => Sys2Proof.Machine.execMbxClaim fn s
  | .mbxDataWrite fn ch index word => Sys2Proof.Machine.execMbxDataWrite fn ch index word s
  | .send fn ch check => Sys2Proof.Machine.execSend fn ch check s
  | .mbxClaimTimeout ch => Sys2Proof.Machine.execMbxClaimTimeout ch s
  | .mbxInternalWrite who ch line check => Sys2Proof.Machine.execMbxInternalWrite who ch line check s
  | .mbxRelease who ch => Sys2Proof.Machine.execMbxRelease who ch s
  | .dblSet fn w bits => Sys2Proof.Machine.execDblSet fn w bits s
  | .dblInternalSet who bit => Sys2Proof.Machine.execDblInternalSet who bit s
  | .dblStatClear who w bits => Sys2Proof.Machine.execDblStatClear who w bits s
  | .gulterOpen head body => Sys2Proof.Machine.execGulterOpen head body s
  | .auth head body => Sys2Proof.Machine.execAuth head body s
  | .authTimeout session => Sys2Proof.Machine.execAuthTimeout session s
  | .close head => Sys2Proof.Machine.execClose head s
  | .sessionIdleTimeout session => Sys2Proof.Machine.execSessionIdleTimeout session s
  | .read head addrs => Sys2Proof.Machine.execRead head addrs s
  | .gulterWrite head entries => Sys2Proof.Machine.execGulterWrite head entries s
  | .blockBegin head addr dir total => Sys2Proof.Machine.execBlockBegin head addr dir total s
  | .blockSeg head seg => Sys2Proof.Machine.execBlockSeg head seg s
  | .blockEnd head crc => Sys2Proof.Machine.execBlockEnd head crc s
  | .blockTimeout session => Sys2Proof.Machine.execBlockTimeout session s
  | .subscribe head addr mode periodMs => Sys2Proof.Machine.execSubscribe head addr mode periodMs s
  | .unsubscribe head id => Sys2Proof.Machine.execUnsubscribe head id s
  | .subscriptionSample sub => Sys2Proof.Machine.execSubscriptionSample sub s
  | .notifyResend session => Sys2Proof.Machine.execNotifyResend session s
  | .notifyAck head seq => Sys2Proof.Machine.execNotifyAck head seq s
  | .keepalive head => Sys2Proof.Machine.execKeepalive head s
  | .seqGapTimeout session => Sys2Proof.Machine.execSeqGapTimeout session s
  | .sessionCloseAll head => Sys2Proof.Machine.execSessionCloseAll head s
  | .confCreate head conf => Sys2Proof.Machine.execConfCreate head conf s
  | .confEnd head conf => Sys2Proof.Machine.execConfEnd head conf s
  | .legAttach head leg conf => Sys2Proof.Machine.execLegAttach head leg conf s
  | .legDetach head leg => Sys2Proof.Machine.execLegDetach head leg s
  | .legRelease head leg => Sys2Proof.Machine.execLegRelease head leg s
  | .legConnected leg offer => Sys2Proof.Machine.execLegConnected leg offer s
  | .legConnectTimeout leg badFingerprint => Sys2Proof.Machine.execLegConnectTimeout leg badFingerprint s
  | .encForceIntra stream desc => Sys2Proof.Machine.execEncForceIntra stream desc s
  | .powerOn => Sys2Proof.Machine.execPowerOn s
  | .railsInRegulation => Sys2Proof.Machine.execRailsInRegulation s
  | .rampTimeout => Sys2Proof.Machine.execRampTimeout s
  | .vinLow => Sys2Proof.Machine.execVinLow s
  | .powerOff => Sys2Proof.Machine.execPowerOff s
  | .railFault => Sys2Proof.Machine.execRailFault s
  | .perstNFall => Sys2Proof.Machine.execPerstNFall s
  | .perstNRise => Sys2Proof.Machine.execPerstNRise s
  | .reset who value => Sys2Proof.Machine.execReset who value s
  | .deviceReset head => Sys2Proof.Machine.execDeviceReset head s
  | .fwWatchdog => Sys2Proof.Machine.execFwWatchdog s
  | .kick who => Sys2Proof.Machine.execKick who s
  | .fuseSense unreadable => Sys2Proof.Machine.execFuseSense unreadable s
  | .bankVerify link => Sys2Proof.Machine.execBankVerify link s
  | .stage1Check => Sys2Proof.Machine.execStage1Check s
  | .hbmReady => Sys2Proof.Machine.execHbmReady s
  | .bringupComplete failed => Sys2Proof.Machine.execBringupComplete failed s
  | .rcvLoad who => Sys2Proof.Machine.execRcvLoad who s
  | .rcvClear who => Sys2Proof.Machine.execRcvClear who s
  | .deviceIdentity head value => Sys2Proof.Machine.execDeviceIdentity head value s
  | .ownerKeyHash head value => Sys2Proof.Machine.execOwnerKeyHash head value s
  | .ownerTransferAuth head value => Sys2Proof.Machine.execOwnerTransferAuth head value s
  | .rollbackFloor head value => Sys2Proof.Machine.execRollbackFloor head value s
  | .trunkCipherLock head value => Sys2Proof.Machine.execTrunkCipherLock head value s
  | .debugDisable head value => Sys2Proof.Machine.execDebugDisable head value s
  | .fuseBurnDone matches_ => Sys2Proof.Machine.execFuseBurnDone matches_ s
  | .attestNonce head value => Sys2Proof.Machine.execAttestNonce head value s
  | .fwStageBegin head => Sys2Proof.Machine.execFwStageBegin head s
  | .fwStageData head value => Sys2Proof.Machine.execFwStageData head value s
  | .fwStageHbm head value => Sys2Proof.Machine.execFwStageHbm head value s
  | .fwStageEnd head => Sys2Proof.Machine.execFwStageEnd head s
  | .fwActivate head => Sys2Proof.Machine.execFwActivate head s
  | .fwCommit head => Sys2Proof.Machine.execFwCommit head s
  | .squallEntryRead who index check => Sys2Proof.Machine.execSquallEntryRead who index check s
  | .refclkSample present => Sys2Proof.Machine.execRefclkSample present s
  | .refclkLost => Sys2Proof.Machine.execRefclkLost s
  | .cagePresenceChange cage level => Sys2Proof.Machine.execCagePresenceChange cage level s
  | .cageIdentify cage accepted => Sys2Proof.Machine.execCageIdentify cage accepted s
  | .cageOvercurrent cage => Sys2Proof.Machine.execCageOvercurrent cage s
  | .mgmtLosChange los txfault => Sys2Proof.Machine.execMgmtLosChange los txfault s
  | .jtagInstruction instr => Sys2Proof.Machine.execJtagInstruction instr s
  | .flrComplete fn => Sys2Proof.Machine.execFlrComplete fn s
  | .cplTimeout fn j => Sys2Proof.Machine.execCplTimeout fn j s
  | .mxmCommandDone => Sys2Proof.Machine.execMxmCommandDone s
  | .mgmtModabsChange level accepted => Sys2Proof.Machine.execMgmtModabsChange level accepted s
  | .cageIntNFall cage => Sys2Proof.Machine.execCageIntNFall cage s
  | .firResend ctx => Sys2Proof.Machine.execFirResend ctx s
  | .counterLoRead who addr => Sys2Proof.Machine.execCounterLoRead who addr s
  | .bar2SizeChange log2 decode => Sys2Proof.Machine.execBar2SizeChange log2 decode s
  | .slotsMaxWrite who => Sys2Proof.Machine.execSlotsMaxWrite who s
  | .irqWaitMaxWrite who cluster => Sys2Proof.Machine.execIrqWaitMaxWrite who cluster s
  | .ipeakWrite who rail => Sys2Proof.Machine.execIpeakWrite who rail s

end Sys2Proof.Machine
end

