-- ==== Sys2Proof/Safety.lean ====
section
/-! DEFINITION. What counts as a safe state and a safe step, in the terms the statements use: the canonical form of what
State holds by address, a step that goes on, and what an update leaves as it was. -/

namespace Sys2Proof.Safety

open Sys2Proof Sys2Proof.Machine

/-- The canonical form: memory, the registers and the 64-bit counters each list rising addresses, and none that holds what
an unlisted address reads as. Equal contents are then equal data. -/
def Canonical (s : State) : Prop :=
  Memory.wf s.mem = true ∧ SMap.wf resetWord s.regs = true ∧ SMap.wf (fun _ => 0) s.ctr = true

/-- The outcome is a next state for which `p` holds. -/
def Completes (r : Result) (p : State → Prop) : Prop := ∃ t, r = .next t ∧ p t

/-- What a sender offers crosses to the registers: its crossing is not fenced and, for a host function, the function exists. -/
def Crosses (s : State) (who : Sender) : Prop := s.cutOff who = false ∧ s.absent who = false

/-- An access of the register at `a` takes place and finds the island of its block awake. -/
def Serves (s : State) (who : Sender) (a : Nat) : Prop := (s.accessible who a = true ∧ s.accessWakes a = s) ∧ Crosses s who

/-- A write by a sender crosses, and no host write of the cycle is due before it (R36, R485). -/
def WritesAlone (s : State) (who : Sender) : Prop :=
  s.cutOff who = false ∧ s.early = [] ∧ (isHost who = true ∨ ∀ a, s.hostWritesNow a = [])

/-- The access of a BAR0 register that a command is, where it is one: who makes it, and the register's address (R482). -/
def accessOf : Instr → Option (Sender × Nat)
  | .portDisable who port => some (who, (R.RLY_PnCTL_PORT_EN port).addr)
  | .relayDisable who => some (who, R.RLY_CTRL_ENABLE.addr)
  | .rlyFctClaim who => some (who, fctPort)
  | .rlyFctRelease who => some (who, R.RLY_FCT_RELEASE_RELEASE.addr)
  | .insert who => some (who, R.RLY_FCT_CMD_OP.addr)
  | .update who => some (who, R.RLY_FCT_CMD_OP.addr)
  | .delete who => some (who, R.RLY_FCT_CMD_OP.addr)
  | .lookup who => some (who, R.RLY_FCT_CMD_OP.addr)
  | .routeCommit who => some (who, R.RLY_FCT_CMD_OP.addr)
  | .select who => some (who, R.RLY_FCT_CMD_OP.addr)
  | .stateWrite who => some (who, R.RLY_FCT_CMD_OP.addr)
  | .clear who => some (who, R.RLY_FCT_CMD_OP.addr)
  | .hashSeedWrite who _ => some (who, R.RLY_HASH_SEED_SEED.addr)
  | .resetPools who _ => some (who, R.BPM_CTRL_ENABLE.addr)
  | .bpmDisable who => some (who, R.BPM_CTRL_ENABLE.addr)
  | .poolThresholdWrite who pool which _ => some (who, (thresholdAddr pool which))
  | .minfreeWrite who pool => some (who, (R.BPM_Pp_MINFREE_F pool).addr)
  | .dropRest who queue => some (who, (R.BPM_Qq_CMD_DROP_REST queue).addr)
  | .flush who queue => some (who, (R.BPM_Qq_CMD_DROP_REST queue).addr)
  | .indRead who => some (who, R.EGS_IND_CMD_READ.addr)
  | .indWrite who => some (who, R.EGS_IND_CMD_READ.addr)
  | .histClr who => some (who, R.EGS_CTRL_ENABLE.addr)
  | .activate who port => some (who, (R.TGC_CTRL_ENABLE port).addr)
  | .gateDisable who port => some (who, (R.TGC_CTRL_ENABLE port).addr)
  | .stepAbsolute who => some (who, R.TIM_STEP_CMD_CMD.addr)
  | .stepOffset who => some (who, R.TIM_STEP_CMD_CMD.addr)
  | .timSlewWrite who _ => some (who, R.TIM_SLEW_PPB.addr)
  | .timNsRead who => some (who, R.TIM_NS_NS.addr)
  | .txtsPop who port => some (who, (R.TIM_Pn_TXTS_ID_VALID port).addr)
  | .injWd who engine => some (who, (injectAddr engine))
  | .mxmClaim who => some (who, mxmPort)
  | .mxmRelease who => some (who, R.MXM_RELEASE_RELEASE.addr)
  | .load who => some (who, R.MXM_SET_CMD_OP.addr)
  | .store who => some (who, R.MXM_SET_CMD_OP.addr)
  | .readActive who => some (who, R.MXM_SET_CMD_OP.addr)
  | .swapCommit who _ _ _ => some (who, R.MXM_SWAP_CMD_COUNT.addr)
  | .mixDisable who => some (who, R.MXM_CTRL_ENABLE.addr)
  | .dscDoorbell who cluster _ => some (who, (R.DSC_DOORBELL_RING cluster).addr)
  | .halt who core _ => some (who, (R.CORE_DBG_HALT (core / 16) (core % 16)).addr)
  | .step who core => some (who, (R.CORE_DBG_HALT (core / 16) (core % 16)).addr)
  | .modStartWrite who mod _ => some (who, (R.SDG_MOD_START_FRAME mod).addr)
  | .detectorConfig who det _ _ => some (who, (R.SDG_DET_CFG_SRC det).addr)
  | .kslClaim who => some (who, kslPort)
  | .kslRelease who => some (who, R.KSL_RELEASE_RELEASE.addr)
  | .kslDataWrite who word _ => some (who, (kslWordAddr word))
  | .write who => some (who, R.KSL_CMD_OP.addr)
  | .erase who => some (who, R.KSL_CMD_OP.addr)
  | .zeroize who => some (who, R.KSL_CMD_OP.addr)
  | .zeroizeAll who => some (who, R.KSL_CMD_OP.addr)
  | .retireOld who => some (who, R.KSL_CMD_OP.addr)
  | .kslStatus who => some (who, R.KSL_CMD_OP.addr)
  | .ctxInit who => some (who, R.KSL_CMD_OP.addr)
  | .ctxClear who => some (who, R.KSL_CMD_OP.addr)
  | .cpxPkaClaim who => some (who, pkaPort)
  | .cpxPkaRelease who => some (who, R.CPX_PKA_RELEASE_RELEASE.addr)
  | .verify who _ _ _ _ _ => some (who, R.CPX_PKA_CMD_OP.addr)
  | .sign who _ _ => some (who, R.CPX_PKA_CMD_OP.addr)
  | .keygen who _ => some (who, R.CPX_PKA_CMD_OP.addr)
  | .ecdh who _ _ _ => some (who, R.CPX_PKA_CMD_OP.addr)
  | .deriveToSlot who _ _ _ _ _ => some (who, R.CPX_PKA_CMD_OP.addr)
  | .rngDataRead (.read who) => some (who, R.CPX_RNG_DATA_DATA.addr)
  | .rngDataRead (.request _) => none
  | .trunkEnable who trunk => some (who, (R.TRK_Tt_CTRL_EN trunk).addr)
  | .trunkDisable who trunk => some (who, (R.TRK_Tt_CTRL_EN trunk).addr)
  | .standbyEnter who => some (who, R.UPD_CTRL_ENABLE.addr)
  | .standbyExit who => some (who, R.UPD_CTRL_ENABLE.addr)
  | .mapEnable who => some (who, R.HBM_MAP_CTRL_ENABLE.addr)
  | .tailWrite fn j _ => some (.host fn, (R.HIF_Fn_Qj_TAIL_ENTRY fn j).addr)
  | .pioCommit fn j => some (.host fn, (R.HIF_Fn_Qj_PIO_WORD fn j 7).addr)
  | .headWrite fn k _ => some (.host fn, (R.HIF_Fn_Qj_HEAD_ENTRY fn (16 + k)).addr)
  | .hostQueueDisable fn j => some (.host fn, (R.HIF_Fn_Qj_CFG_MODE fn j).addr)
  | .mbxClaim fn => some (.host fn, R.MBX_CLAIM_VALID.addr)
  | .mbxDataWrite fn ch index _ => some (.host fn, (R.MBX_CHc_DATA_DATA ch index).addr)
  | .send fn ch _ => some (.host fn, (R.MBX_CHc_CTRL_SEND ch).addr)
  | .dblSet fn w _ => some (.host fn, (R.DBL_SET_SET w).addr)
  | .dblStatClear who w _ => some (who, (R.DBL_STAT_BITS w).addr)
  | .reset who _ => some (who, R.FUS_CTRL_RESET.addr)
  | .kick who => some (who, R.FUS_FW_WD_KICK.addr)
  | .rcvLoad who => some (who, R.FUS_RCV_CMD_OP.addr)
  | .rcvClear who => some (who, R.FUS_RCV_CMD_OP.addr)
  | .slotsMaxWrite who => some (who, R.HTS_SLOTS_MAX_SLOTS.addr)
  | .irqWaitMaxWrite who cluster => some (who, (R.DSC_IRQ_WAIT_MAX_CYCLES cluster).addr)
  | .ipeakWrite who rail => some (who, (R.UPD_RAIL_IPEAK_MILLIAMPS rail).addr)
  | .msixUnmask fn (some v) => some (.host fn, vectorControl fn v)
  | _ => none

/-- The registers of `t` are those of `s`, but for the addresses listed. -/
def SameRegsBut (s t : State) (as : List Nat) : Prop := ∀ a, a ∉ as → t.reg a = s.reg a

/-- The 64-bit counters of `t` are those of `s`, but for the addresses listed. -/
def SameCountersBut (s t : State) (as : List Nat) : Prop := ∀ a, a ∉ as → t.counter a = s.counter a

/-- The octets of memory of `t` are those of `s`, but for `n` octets from `a`. -/
def SameMemoryBut (s t : State) (a n : Nat) : Prop := ∀ p, ¬ (a ≤ p ∧ p < a + n) → t.byte p = s.byte p

/-- `t` is `s` with the 64-bit counter at `a` raised by `n`, modulo 2^64, and nothing else changed. -/
def CountsOnly (s t : State) (a n : Nat) : Prop :=
  t = { s with ctr := t.ctr } ∧ t.counter a = (s.counter a + n) % 2 ^ 64 ∧ SameCountersBut s t [a]

/-- `t` is `s` with the low bits of `v` in a register field, and nothing else changed: no other field of the register, no
other register, nothing beside the registers. -/
def SetsOnly (s t : State) (f : Fld) (v : Nat) : Prop :=
  t = { s with regs := t.regs } ∧ t.get f = v % 2 ^ f.width ∧ SameRegsBut s t [f.addr] ∧
  ∀ l n, l + n ≤ f.lsb ∨ f.lsb + f.width ≤ l → (t.reg f.addr).field l n = (s.reg f.addr).field l n

/-- A core about to issue a bundle: nothing issued yet, no load in flight, no delay slot, no repeat due at this bundle, and no
debug request (R306 to R310, R331). -/
def Fresh (k : DspCore) : Prop :=
  k.issues = true ∧ k.bundle = Bundle.empty ∧ k.flight = [] ∧ k.delay = 0 ∧ k.atLoopEnd = false ∧ k.haltReq = false ∧ k.oneStep = false

/-- Of the cores only `c` changed, to `k`; beside the cores, only the count of cycles in task context and the free values taken. -/
def OnlyCore (s t : State) (c : Core) (k : DspCore) : Prop :=
  t.core c = k ∧ (∀ e, e ≠ c.val → t.core e = s.core e) ∧ t = { s with dsp := t.dsp, ctr := t.ctr, freeCtr := t.freeCtr } ∧
  SameCountersBut s t [R.C_CORE_TASK_CYCLES (c / 16) (c % 16)]

/-- The bundle ended with core `k`, which goes on to the next bundle with no load in flight. -/
def EndsBundle (s t : State) (c : Core) (k : DspCore) : Prop :=
  OnlyCore s t c { k with pc := (k.pc + 1) % 8192, loaded := false }

/-- STATUS after an ALU operation: Z and N as given, SATD kept or set, and all from bit 5 on as before; V and C are not said. -/
def StatusAfter (old new : Nat) (z n clip : Bool) : Prop :=
  new.testBit 0 = z ∧ new.testBit 1 = n ∧ new.testBit 4 = (old.testBit 4 || clip) ∧ ∀ i, 5 ≤ i → new.testBit i = old.testBit i

/-- A signed 32-bit result of an exact one: its low bits where it fits or `sat` is off, else the end of the range by sign (R299). -/
def Narrowed (sat : Bool) (x : Int) (r : Word) : Prop :=
  (-2 ^ 31 ≤ x ∧ x < 2 ^ 31 → r.toInt = x) ∧ (sat = false → r = BitVec.ofInt 32 x) ∧
  (sat = true → 2 ^ 31 ≤ x → r = 0x7FFFFFFF) ∧ (sat = true → x < -2 ^ 31 → r = 0x80000000)

/-- A Hokuvon frame of a type other than HELLO and HELLO_REPLY has left trunk `n` for encryption (R395, R398): said where its template can
send and no core is free at once, so that its request waits. -/
def Sends (s t : State) (n ty flags : Nat) (body : List Byte) : Prop :=
  s.templateOk (s.template s.trunkHdrBase n) = true → s.isSet R.TRK_CTRL_ENABLE = true → s.freeCore = none → s.cpx.waiting = [] →
  s.cipherGone = false → ∃ c r, t.rly.copies = s.rly.copies ++ [c] ∧ c.op = s.cpx.nextId ∧ t.cpx.waiting = [(s.cpx.nextId, r)] ∧
    r.input = some (s.hokuvonHeader n ty (flags + s.get (R.TRK_Tt_STAT_KEY_PHASE n)) (body.length + 16) ++ body) ∧ r.enc = true ∧
    r.kind = .trunk ∧ r.hdrLen = 20 ∧ r.slot = s.get (R.TRK_Tt_SLOTS_SEND n)

/-- A client's request with header `h` has reached its open session `n` in order, with nothing held before it (R527, R529, R532). -/
def Heard (s u : State) (h : GulHead) (ty n : Nat) (g : GulSession) : Prop :=
  s.arrive h ty = .session u n g ∧ g.isOpen = true ∧ headOk h = true ∧ g.held = [] ∧ g.last < 2 ^ 32 ∧ h.seq.toNat = (g.last + 1) % 2 ^ 32

/-- The reply that a session keeps to the request numbered `seq`, and LAST (R532). -/
def Replied (t : State) (n seq : Nat) (m : GulMsg) : Prop :=
  m.seq = seq ∧ ∃ g, t.session n = some g ∧ m ∈ g.replies ∧ g.last = seq

/-- Every state but what `keep` and the registers at `as` hold, the fuses, the flash and the commands that wait is as after a reset
(R546, R549), with no burn under way. -/
def ResetBut (s t : State) (keep : List Fld) (as : List Nat) : Prop :=
  (∀ f ∈ keep, t.get f = s.get f) ∧ (∀ a, a ∉ keep.map Fld.addr → a ∉ as → t.reg a = resetWord a) ∧ t.mem = [] ∧
  t.gul = State.reset.gul ∧ t.hts = State.reset.hts ∧ t.rly = State.reset.rly ∧ t.fns = State.reset.fns ∧ t.dsp = State.reset.dsp ∧
  t.boot.flash = s.boot.flash ∧ t.boot.erased = s.boot.erased ∧ t.boot.endorse = s.boot.endorse ∧ t.boot.burns = [] ∧
  t.pending = s.pending ∧ t.out = s.out

/-- A cold reset has left the supply in state `x` (R546, R606). -/
def ColdStart (s t : State) (x : Supply) : Prop := ResetBut s t fuseFields [] ∧ t.boot.supply = x ∧ t.ctr = []

/-- A warm reset for `cause` has left the device at stage `stage` (R546, R549): the log, the time and the cause bits go on. -/
def WarmStart (s t : State) (cause : Fld) (stage : Nat) : Prop :=
  ResetBut s t ((fuseFields ++ warmFields).filter fun f => f.addr != R.FUS_RESET_CAUSE_POWER_ON.addr && f.addr != R.FUS_WARM_COUNT_COUNT.addr)
    [R.FUS_RESET_CAUSE_POWER_ON.addr, R.FUS_WARM_COUNT_COUNT.addr, R.HIF_BOOT_STAGE_STAGE.addr] ∧
  (∀ i, i < 6 → (t.reg cause.addr).getLsbD i = ((s.reg cause.addr).getLsbD i || i == cause.lsb)) ∧
  t.get R.FUS_WARM_COUNT_COUNT = min (2 ^ 32 - 1) (s.get R.FUS_WARM_COUNT_COUNT + 1) ∧ t.bootStage = stage ∧ t.boot.supply = .run ∧
  t.boot.wd = none ∧ t.sql.entries = s.sql.entries ∧ t.time = s.time ∧ t.cycle = s.cycle ∧
  ∀ a, t.counter a = if a = 0x00F00010 then s.counter a % 2 ^ 64 else 0

/-- A reset asked for while it is too hot is refused, with an entry in the log (R548). -/
def ResetRefused (s t : State) (cause : Fld) : Prop :=
  ∃ u, SetsOnly s u R.FUS_STATUS_CFG_IGNORED 1 ∧
    t = u.log Unit.fus 0 Sev.warn Ev.resetRefused cause.lsb (s.get R.UPD_TJ_CELSIUS)

end Sys2Proof.Safety
end

