-- ==== Sys2Proof/Certificates/Slice0/Obligations.lean ====
section
/-! DEFINITION. The statements for the provers. Where a statement rests on a choice of the model, its docstring names the log entry. -/

open Sys2Proof Sys2Proof.Machine Sys2Proof.Safety

/-- One step of the block takes the command at the front of its queue and runs it on the state with the queue's rest. -/
def Obligations.StepRunsFrontCommand : Prop :=
  ∀ (c : Instr) (rest : List Instr) (s : State),
    step { s with pending := c :: rest } = exec c { s with pending := rest }

/-- Without a waiting command a step is one fabric cycle: DESIGN CHOICE, log entry 1; the rates are those of R152 and R74. -/
def Obligations.EmptyQueueLetsOneCyclePass : Prop :=
  ∀ s : State, s.pending = [] → Completes (step s) fun t =>
    t = { s with cycle := s.cycle + 1, time := s.time.tick s.slew, regs := t.regs } ∧
    SameRegsBut s t [R.RLY_AGE_CLOCK_SECONDS.addr] ∧
    t.get R.RLY_AGE_CLOCK_SECONDS =
      if (s.cycle + 1 - s.ageZero) % 1500000000 = 0 then (s.get R.RLY_AGE_CLOCK_SECONDS + 1) % 2 ^ 16
      else s.get R.RLY_AGE_CLOCK_SECONDS

/-- Commands are taken in the order in which they arrive, each once: no command touches the queue.
Choices of the model: log entry 14. -/
def Obligations.StepTakesOnlyTheFrontCommand : Prop :=
  ∀ (c : Instr) (rest : List Instr) (s t : State), step { s with pending := c :: rest } = .next t → t.pending = rest

/-- Equal contents stay equal data: the canonical form of memory, registers and counters is an invariant of every step. -/
def Obligations.StepKeepsCanonicalForm : Prop :=
  ∀ s t : State, Canonical s → step s = .next t → Canonical t

/-- The state after reset: canonical, its queue empty, every register at its Reset column. The octet 0 of memory is the model's choice (log entry 2).
Choices of the model: log entries 2, 3 and 4. -/
def Obligations.ResetIsCanonical : Prop :=
  Canonical State.reset ∧ State.reset.pending = [] ∧
  (∀ a, State.reset.reg a = resetWord a) ∧ (∀ a, State.reset.counter a = 0) ∧ (∀ a, State.reset.byte a = 0) ∧
  (∀ u i, u < 24 → i < 128 → State.reset.isFenced u i = false)

/-- R17 to R19 on one register of each type, and R485.
Choices of the model: log entries 5, 8 and 17. -/
def Obligations.RegisterWritesFollowTheirTypes : Prop :=
  (∀ (s : State) (who : Sender) (w : Word), WritesAlone s who →
    (s.accessible who 0xD00014 = true → Completes (exec (.registerWrite who 0xD00014 w) s) fun t =>
      t = { s with regs := t.regs } ∧ SameRegsBut s t [0xD00014] ∧ t.get R.HTS_TRACE_MASK_REASONS = w.toNat % 2 ^ 16) ∧
    (s.accessible who 0xF00028 = true → Completes (exec (.registerWrite who 0xF00028 w) s) fun t =>
      t = { s with regs := t.regs, rwvB := t.rwvB, rwvC := t.rwvC } ∧ SameRegsBut s t [0xF00028] ∧
      (t.copies 0xF00028).1.field 0 8 = w.toNat % 256 ∧ (t.copies 0xF00028).2.1.field 0 8 = w.toNat % 256 ∧
      (t.copies 0xF00028).2.2.field 0 8 = w.toNat % 256) ∧
    (s.accessible who 0xD00024 = true → Completes (exec (.registerWrite who 0xD00024 w) s) fun t => t = s) ∧
    (s.accessible who 0xF00020 = true → Completes (exec (.registerWrite who 0xF00020 w) s) fun t =>
      t = { s with regs := t.regs } ∧ SameRegsBut s t [0xF00020] ∧
      t.isSet R.SQL_ALERT_CAUSE_FENCE = (s.isSet R.SQL_ALERT_CAUSE_FENCE && !w.getLsbD 0) ∧
      t.isSet R.SQL_ALERT_CAUSE_FATAL = (s.isSet R.SQL_ALERT_CAUSE_FATAL && !w.getLsbD 1)) ∧
    (s.accessible who 0xF8020C = true → Completes (exec (.registerWrite who 0xF8020C w) s) fun t =>
      t = { s with regs := t.regs } ∧ SameRegsBut s t [0xF8020C] ∧
      t.isSet R.FUS_PAD_PWR_MGMT_TXDIS = if w.getLsbD 25 then w.getLsbD 9 else s.isSet R.FUS_PAD_PWR_MGMT_TXDIS) ∧
    (s.accessible who 0xD00018 = true → s.isSet R.HTS_CTRL_ENABLE = false →
      Completes (exec (.registerWrite who 0xD00018 w) s) fun t =>
        t = { s with regs := t.regs } ∧ SameRegsBut s t [0xD00018] ∧ t.get R.HTS_TRACE_BASE_LO_ADDR = w.toNat / 4096) ∧
    (s.accessible who 0xD00018 = true → s.isSet R.HTS_CTRL_ENABLE = true → w.toNat / 4096 = s.get R.HTS_TRACE_BASE_LO_ADDR →
      Completes (exec (.registerWrite who 0xD00018 w) s) fun t => t = s) ∧
    (s.accessible who 0xD00018 = true → s.isSet R.HTS_CTRL_ENABLE = true → w.toNat / 4096 ≠ s.get R.HTS_TRACE_BASE_LO_ADDR →
      Completes (exec (.registerWrite who 0xD00018 w) s) fun t =>
        t.get R.HTS_TRACE_BASE_LO_ADDR = s.get R.HTS_TRACE_BASE_LO_ADDR ∧ t.isSet R.HTS_STATUS_CFG_IGNORED = true ∧
        t.mem = s.mem) ∧
    (s.accessible who 0xF00F00 = true → Completes (exec (.registerWrite who 0xF00F00 w) s) fun t => t = s) ∧
    (∀ n, Completes (exec (.registerWrite (.control n) 0xF00029 w) s) fun t => t = s)) ∧
  ∀ (s : State) (n : Fin 16) (c : Fin 12) (v w : Word), s.early = [] → s.pending = [.registerWrite (.host n) 0xD00014 v] →
    s.cutOff (.host n) = false → s.cutOff (.control c) = false → s.accessible (.host n) 0xD00014 = true →
    s.accessible (.control c) 0xD00014 = true → Completes (exec (.registerWrite (.control c) 0xD00014 w) s) fun t =>
      t.get R.HTS_TRACE_MASK_REASONS = w.toNat % 2 ^ 16 ∧
      Completes (exec (.registerWrite (.host n) 0xD00014 v) t) fun u => u = { t with early := [] }

/-- R17 on one RWV register, and the sweep of R486 over registers whose copies agree. R97: the two reads of a 64-bit counter belong to one moment.
Choices of the model: log entries 5, 6 and 19. -/
def Obligations.VotedAndCountedRegistersReadWhole : Prop :=
  ((∀ (s : State) (who : Sender) (u : Word), Crosses s who → s.accessible who 0xF00028 = true →
    SMap.get 0 s.rwvB 0xF00028 = 0 → SMap.get 0 s.rwvC 0xF00028 = 0 →
    Completes (exec (.rwvRead who 0xF00028 ⟨0, u, 0⟩) s) fun t =>
      t.out.head? = some (.readDone who 0xF00028 (s.reg 0xF00028).toNat) ∧
      t.copies 0xF00028 = (s.reg 0xF00028, s.reg 0xF00028, s.reg 0xF00028) ∧
      t.get R.SQL_VOTE_FIX_COUNT =
        (if u.field 0 8 = 0 then s.get R.SQL_VOTE_FIX_COUNT else min 65535 (s.get R.SQL_VOTE_FIX_COUNT + 1)) ∧
      t.mem = s.mem) ∧
  (∀ s : State, s.sweptAt + 1500000 ≤ s.cycle → s.rwvB = [] → s.rwvC = [] →
    Completes (exec (.rwvSweep []) s) fun t => t = { s with sweptAt := s.cycle })) ∧
  (∀ (s : State) (c : Fin 12) (b : BitVec 24), Crosses s (.control c) → s.accessible (.control c) b.toNat = true → 4 ≤ b.toNat →
    isCounterLo (b.toNat - 4) = true → isCounterLo b.toNat = false →
    Completes (exec (.rwvRead (.control c) b ⟨0, 0, 0⟩) s) fun t =>
      t.out.head? = some (.readDone (.control c) b.toNat (SMap.get 0 s.latch b.toNat % 2 ^ 32))) ∧
  (∀ (s : State) (who : Sender) (a : BitVec 24), Crosses s who →
    (s.accessible who a.toNat = true → isCounterLo a.toNat = true →
      Completes (exec (.counterLoRead who a) s) fun t =>
        t.out.head? = some (.readDone who a.toNat (s.counter a.toNat % 2 ^ 32)) ∧
        SMap.get 0 t.latch (a.toNat + 4) = s.counter a.toNat / 2 ^ 32 ∧ t.ctr = s.ctr ∧ t.mem = s.mem) ∧
    (s.accessible who a.toNat = false →
      Completes (exec (.counterLoRead who a) s) fun t => t = { s with out := .readDone who a.toNat 0 :: s.out }))

/-- R28 and R439: the four events of an island's Lull. R36: what a parity error at a channel's receiver does.
Choices of the model: log entries 18 and 35. -/
def Obligations.IslandsSleepWakeAndAreFenced : Prop :=
  (∀ (s : State) (i : Island),
    (s.island i = .awake → (s.islandIdle i = true ∨ ((i.val = 1 ∨ i.val = 2) ∧ s.portsOff = true)) →
      Completes (exec (.lullEntry i) s) fun t =>
        t.island i = .lull ∧ (∀ j, j ≠ i.val → t.island j = s.island j) ∧
        t = { s with regs := t.regs, islands := t.islands } ∧ (∀ f, lullBit i = some f → t.isSet f = true)) ∧
    (s.island i = .lull → s.gatedForGood i = false → s.get R.UPD_STATUS_THERMAL ≠ 3 → s.isSet R.UPD_STATUS_AWAKE = true →
      (i.val = 1 ∨ i.val = 2 ∨ islandUnits i ≠ []) →
      Completes (exec (.lullWake i .access) s) fun t =>
        t.island i = .waking s.cycle ∧ (∀ j, j ≠ i.val → t.island j = s.island j) ∧
        t = { s with regs := t.regs, islands := t.islands }) ∧
    (∀ c, s.island i = .waking c → s.isSet R.UPD_STATUS_AWAKE = true → i.val ≠ 2 →
      Completes (exec (.lullWakeDone i) s) fun t =>
        t.island i = .awake ∧ (∀ j, j ≠ i.val → t.island j = s.island j) ∧
        t = { s with regs := t.regs, islands := t.islands } ∧ (∀ f, lullBit i = some f → t.isSet f = false)) ∧
    (∀ k : Fin 8, s.island (41 + k.val) = .lull → s.gatedForGood (41 + k.val) = false → s.get R.UPD_STATUS_THERMAL ≠ 3 →
      s.isSet R.UPD_STATUS_AWAKE = true → s.prewakes k = true →
      Completes (exec (.clusterPrewake k) s) fun t =>
        t.island (41 + k.val) = .waking s.cycle ∧ t = { s with regs := t.regs, islands := t.islands })) ∧
  (∀ (s : State) (i : Island) (op : CrossingOp),
    (s.isFenced Unit.crossing i = false →
      Completes (exec (.crossingParityError i op false) s) fun t =>
        t.get (R.SQL_TRANS_COUNT Unit.crossing) = min (2 ^ 32 - 1) (s.get (R.SQL_TRANS_COUNT Unit.crossing) + 1) ∧
        t.mem = s.mem ∧ t.islands = s.islands) ∧
    (s.isFenced Unit.crossing i = false → i.val ≠ 2 →
      Completes (exec (.crossingParityError i op true) s) fun t => t.island i = .lull) ∧
    (s.isFenced Unit.crossing i = true → ∀ (who : Sender) (a : Nat) (n : Fin 16) (again : Bool),
      Completes (exec (.crossingParityError i (.write who a) again) s) (fun t => t = { s with out := .busError who a :: s.out }) ∧
      Completes (exec (.crossingParityError i (.read who a) again) s) (fun t => t = { s with out := .done who 0xF0 [a] :: s.out }) ∧
      Completes (exec (.crossingParityError i (.hostRead n a) again) s) (fun t => t = { s with out := .readAbort (.host n) a :: s.out }) ∧
      Completes (exec (.crossingParityError i (.hostWrite a) again) s) (fun t => t = { s with out := .aer a :: s.out })))

/-- R59 to R62 and R76: RX_FRAME from the wire to the miss buffer.
Choices of the model: log entries 26, 27 and 107. -/
def Obligations.ReceivedFramesAreFilteredOrKept : Prop :=
  ∀ (s : State) (p : Fin 8) (f : List Byte), s.portRuns p = true → s.isSet (R.RLY_PnSTAT_LINK_UP p) = true →
    (∀ q ∈ s.rly.packets, q.port = p.val → q.ended = true) →
    (s.isSet (R.RLY_PnCTL_LOOPBACK p) = true →
      (SMap.get [] s.rly.looped p = [] → Completes (exec (.rxFrame p f) s) fun t => t = s) ∧
      (∀ g l, SMap.get [] s.rly.looped p = g :: l → g.length + 4 < 64 → Completes (exec (.rxFrame p f) s) fun t =>
        t = { s with ctr := t.ctr, rly := t.rly } ∧ SMap.get [] t.rly.looped p = l ∧
        t.counter (R.C_RLY_Pn_RX_RUNT p) = (s.counter (R.C_RLY_Pn_RX_RUNT p) + 1) % 2 ^ 64)) ∧
    (s.isSet (R.RLY_PnCTL_LOOPBACK p) = false →
    (f.length + 4 < 64 → Completes (exec (.rxFrame p f) s) fun t => CountsOnly s t (R.C_RLY_Pn_RX_RUNT p) 1) ∧
    (64 ≤ f.length + 4 → s.get R.RLY_MAX_FRAME_BYTES < f.length + 4 →
      Completes (exec (.rxFrame p f) s) fun t => CountsOnly s t (R.C_RLY_Pn_RX_OVERSIZE p) 1) ∧
    (64 ≤ f.length + 4 → f.length + 4 ≤ s.get R.RLY_MAX_FRAME_BYTES → be f 12 2 = 0x8808 →
      Completes (exec (.rxFrame p f) s) fun t => CountsOnly s t (R.C_RLY_Pn_RX_PAUSE p) 1) ∧
    (64 ≤ f.length + 4 → f.length + 4 ≤ s.get R.RLY_MAX_FRAME_BYTES → be f 12 2 ≠ 0x8808 →
      f.take 6 ≠ natToOs 2 (s.get (R.RLY_PnMAC_HI_ADDR p)) ++ natToOs 4 (s.get (R.RLY_PnMAC_LO_ADDR p)) →
      f.take 6 ≠ List.replicate 6 0xFF → f.take 2 ≠ [0x33, 0x33] →
      Completes (exec (.rxFrame p f) s) fun t => CountsOnly s t (R.C_RLY_Pn_RX_FILTER_DROP p) 1) ∧
    (∀ kind key pay len ok, 64 ≤ f.length + 4 → f.length + 4 ≤ s.get R.RLY_MAX_FRAME_BYTES → be f 12 2 ≠ 0x8808 →
      f.take 6 = natToOs 2 (s.get (R.RLY_PnMAC_HI_ADDR p)) ++ natToOs 4 (s.get (R.RLY_PnMAC_LO_ADDR p)) →
      be f 12 2 ≠ 0x88A8 → be f 12 2 ≠ 0x8100 → parseFrame p f = .flow kind key pay len ok →
      s.isSet R.RLY_STATUS_FCT_READY = true → s.cached key = none → s.rly.packets = [] →
      Completes (exec (.rxFrame p f) s) fun t =>
        t = { s with ctr := t.ctr, rly := t.rly } ∧
        t.counter (R.C_RLY_Pn_RX_FRAMES p) = (s.counter (R.C_RLY_Pn_RX_FRAMES p) + 1) % 2 ^ 64 ∧
        t.counter (R.C_RLY_Pn_RX_BYTES p) = (s.counter (R.C_RLY_Pn_RX_BYTES p) + (f.length + 4)) % 2 ^ 64 ∧
        t.counter R.C_RLY_FCT_MISS = (s.counter R.C_RLY_FCT_MISS + 1) % 2 ^ 64 ∧
        SameCountersBut s t [R.C_RLY_Pn_RX_FRAMES p, R.C_RLY_Pn_RX_BYTES p, R.C_RLY_FCT_MISS] ∧
        SMap.get 0 t.rly.tags p = (SMap.get 0 s.rly.tags p + 1) % 65536 ∧
        ∃ q, t.rly.packets = [q] ∧ q.plan = .waiting ∧ q.key = key ∧ q.kind = kind ∧ q.port = p ∧ q.ts = s.time64 ∧
          q.age = s.cycle % 2 ^ 32 ∧ q.frame = f ∧ q.ended = false))

/-- R38, R39, R65, R76, R77, R79, R81 and R98: where a packet leaves the relay, and from decryption to replication.
Choices of the model: log entries 28 and 31. -/
def Obligations.PacketsLeaveTheRelayOrAwaitReplication : Prop :=
  (∀ (s : State) (p : RxPacket) (port : Fin 8), s.rly.packets = [p] → p.port = port.val → p.cell = noCell → p.snap = none → s.rly.selects = [] →
    (p.plan = .waiting → p.ended = false → p.kind < 2 → s.isSet R.RLY_MISS_ACTION_ACTION = false →
      s.isSet R.RLY_STATUS_FCT_READY = true → s.fctFind p.key = none →
      Completes (exec .fctSlowLookupDone s) fun t =>
        t = { s with ctr := t.ctr, rly := { s.rly with packets := [{ p with plan := .discard }] } } ∧
        t.counter R.C_RLY_MISS_NOMATCH = (s.counter R.C_RLY_MISS_NOMATCH + 1) % 2 ^ 64 ∧
        SameCountersBut s t [R.C_RLY_MISS_NOMATCH]) ∧
    (p.plan = .waiting → p.ended = false → p.udpOk = true → s.get (R.RLY_PnSTAT_FEC_ACTIVE port) ≤ 1 → ∀ c l,
      Completes (exec (.rxFrameEnd port ⟨true, c, l⟩) s) fun t =>
        t = { s with rly := { s.rly with packets := [{ p with ended := true }] } }) ∧
    (p.plan = .waiting → p.ended = false → p.udpOk = true → 1 < s.get (R.RLY_PnSTAT_FEC_ACTIVE port) → ∀ c l,
      Completes (exec (.rxFrameEnd port ⟨true, c, l⟩) s) fun t =>
        t = { s with regs := t.regs, rly := { s.rly with packets := [{ p with ended := true }] } } ∧
        t.get (R.RLY_PnFEC_CORR_COUNT port) = min (2 ^ 32 - 1) (s.get (R.RLY_PnFEC_CORR_COUNT port) + c) ∧
        t.get (R.RLY_PnFEC_UNCORR_COUNT port) = min (2 ^ 32 - 1) (s.get (R.RLY_PnFEC_UNCORR_COUNT port) + l)) ∧
    (p.ended = false → s.get (R.RLY_PnSTAT_FEC_ACTIVE port) ≤ 1 → ∀ c l, Completes (exec (.rxFrameEnd port ⟨false, c, l⟩) s) fun t =>
      t = { s with ctr := t.ctr, rly := { s.rly with packets := [] } } ∧
      t.counter (R.C_RLY_Pn_RX_FCS_ERR port) = (s.counter (R.C_RLY_Pn_RX_FCS_ERR port) + 1) % 2 ^ 64 ∧
      SameCountersBut s t [R.C_RLY_Pn_RX_FCS_ERR port]) ∧
    (p.ended = false → p.udpOk = false → s.get (R.RLY_PnSTAT_FEC_ACTIVE port) ≤ 1 → ∀ c l, Completes (exec (.rxFrameEnd port ⟨true, c, l⟩) s) fun t =>
      t = { s with ctr := t.ctr, rly := { s.rly with packets := [] } } ∧
      t.counter R.C_RLY_CSUM_DROP = (s.counter R.C_RLY_CSUM_DROP + 1) % 2 ^ 64 ∧ SameCountersBut s t [R.C_RLY_CSUM_DROP]) ∧
    (∀ tap res, p.plan = .decrypt tap → SMap.get none s.cpx.results p.op = some res → St.success res.status = false →
      Completes (exec (.ingressDecryptDone p.id) s) fun t =>
        t.rly.packets = [] ∧ t.mem = s.mem ∧ t.regs = s.regs ∧
        t.counter R.C_RLY_REPLAY_DROP =
          (if res.status = 0x16 then (s.counter R.C_RLY_REPLAY_DROP + 1) % 2 ^ 64 else s.counter R.C_RLY_REPLAY_DROP) ∧
        t.counter R.C_RLY_AUTH_DROP =
          (if res.status = 0x16 then s.counter R.C_RLY_AUTH_DROP else (s.counter R.C_RLY_AUTH_DROP + 1) % 2 ^ 64))) ∧
  (∀ (s : State) (p : RxPacket) (n : RouteSnap) (res : CipherResult), s.rly.packets = [p] → p.snap = some n →
    p.plan = .decrypt 0 → fctAction p.entry = 1 → (fctMode p.entry).1 = 3 → p.entry.getD 0x38 0 = 0 → s.rly.selects = [] →
    SMap.get none s.cpx.results p.op = some res → (res.status = 0 ∨ res.status = 1) →
    (n.unresolved = true → n.vid = 0 → p.cell = noCell → Completes (exec (.ingressDecryptDone p.id) s) fun t =>
      t.rly.packets = [] ∧ t.mem = s.mem ∧ t.regs = s.regs ∧
      t.counter R.C_RLY_DD_UNKNOWN = (s.counter R.C_RLY_DD_UNKNOWN + 1) % 2 ^ 64 ∧ SameCountersBut s t [R.C_RLY_DD_UNKNOWN]) ∧
    (n.unresolved = false → n.vid ≠ 0 → Completes (exec (.ingressDecryptDone p.id) s) fun t =>
      t = { s with rly := { s.rly with packets := [{ p with rtp := res.out, plan := .media, snap := some n }] }, cpx := t.cpx } ∧
      t.cpx = { s.cpx with results := SMap.set none s.cpx.results p.op none }))

/-- R482, R484 and R551: which register commands take place.
Choices of the model: log entry 15. -/
def Obligations.RegisterCommandsRunWhereTheyReach : Prop :=
  (∀ (c : Instr) (s : State) (who : Sender) (a : Nat), accessOf c = some (who, a) →
    (s.cutOff who = true → Completes (exec c s) fun t => t = s ∨ t = s.lostWrite who a ∨ t = s.lostRead who a) ∧
    (s.cutOff who = false → s.accessible who a = false →
      Completes (exec c s) fun t => t = s ∨ t = { s with out := .readDone who a 0 :: s.out }) ∧
    (Crosses s who → s.accessible who a = true → exec c s = exec c (s.accessWakes a))) ∧
  (∀ (s : State) (n a : Nat), 1 ≤ n → n < 16 → 0x107000 ≤ a → s.accessible (.host n) a = false) ∧
  (∀ (s : State) (n a : Nat), s.bootStage < 0x50 → 0x200000 ≤ a → a < 0xF00000 → s.accessible (.host n) a = false) ∧
  (∀ (s : State) (who : Sender) (a : Nat), s.isSet R.UPD_STATUS_AWAKE = false → s.get R.UPD_STATUS_THERMAL ≠ 3 → 0x100000 ≤ a →
    ¬ (0xD80000 ≤ a ∧ a < 0xD90000) → s.accessible who a = false)

/-- R90 and R89 for one receiver, and the end of a packet without receivers. R33: the reorder stage after egress encryption.
Choices of the model: log entries 28 and 31. -/
def Obligations.CopiesKeepSequenceAndOrder : Prop :=
  ((∀ (s : State) (p : RxPacket) (n : RouteSnap) (e : RouteEntry),
    s.rly.packets = [p] → p.plan = .media → p.ended = true → p.snap = some n → n.entries = [e] → p.cell = noCell → s.rly.selects = [] →
    e.dest < 16384 → s.poison = [] → s.rstateAddr e.rstate + 16 ≤ hbmBytes → n.unresolved = false →
    (s.le (s.rstateAddr e.rstate + 2) 1).testBit 0 = true → (s.le (s.rstateAddr e.rstate + 2) 1).testBit 1 = false →
    seqAfter (be p.rtp 2 2) (s.le (s.rstateAddr e.rstate + 6) 2) = true →
    (includes (s.le (s.rstateAddr e.rstate) 1) n.layer ((s.le (s.rstateAddr e.rstate + 2) 1).testBit 2) = false →
      Completes (exec .replicate s) fun t =>
        t.rly.packets = [] ∧ t.rly.copies = s.rly.copies ∧ t.regs = s.regs ∧ t.ctr = s.ctr ∧
        t.le (s.rstateAddr e.rstate + 4) 2 = (s.le (s.rstateAddr e.rstate + 4) 2 + 1) % 65536 ∧
        t.le (s.rstateAddr e.rstate + 6) 2 = be p.rtp 2 2 ∧ t.le (s.rstateAddr e.rstate + 8) 2 = be p.rtp 2 2 ∧
        SameMemoryBut s t (s.rstateAddr e.rstate + 2) 8) ∧
    (includes (s.le (s.rstateAddr e.rstate) 1) n.layer ((s.le (s.rstateAddr e.rstate + 2) 1).testBit 2) = true →
      s.legLimit > e.dest → s.cipherGone = false → s.freeCore = none →
      (s.judgeReceiver e.rstate n (be p.rtp 2 2)).1.templateOk
        ((s.judgeReceiver e.rstate n (be p.rtp 2 2)).1.template s.legHdrBase e.dest) = true →
      Completes (exec .replicate s) fun t =>
        t.rly.packets = [] ∧ t.le (s.rstateAddr e.rstate + 6) 2 = be p.rtp 2 2 ∧
        t.le (s.rstateAddr e.rstate + 4) 2 = s.le (s.rstateAddr e.rstate + 4) 2 ∧
        t.counter R.C_RLY_COPIES = (s.counter R.C_RLY_COPIES + 1) % 2 ^ 64 ∧
        SameMemoryBut s t (s.rstateAddr e.rstate + 2) 8 ∧
        ∃ c, t.rly.copies = s.rly.copies ++ [c] ∧ c.op = s.cpx.nextId ∧ c.inPort = p.port ∧ c.frame.dest = e.dest ∧
          c.frame.cls = (p.entry.getD 0x3B 0).toNat % 8 ∧ c.sealed = none ∧
          ∃ r, t.cpx.waiting = s.cpx.waiting ++ [(s.cpx.nextId, r)] ∧ r.slot = e.keySlot ∧ r.ctx = e.rstate ∧ r.enc = true ∧
            r.input = some (rewriteRtp p.rtp e ((be p.rtp 2 2 + 65536 - s.le (s.rstateAddr e.rstate + 4) 2) % 65536)))) ∧
  (∀ (s : State) (p : RxPacket) (n : RouteSnap),
    s.rly.packets = [p] → p.plan = .media → p.ended = true → p.snap = some n → n.entries = [] → p.cell = noCell → s.rly.selects = [] →
    Completes (exec .replicate s) fun t => t.rly.packets = [] ∧ t = { s with rly := t.rly })) ∧
  ((∀ (s u : State) (op ptr k : Nat) (c : EgressCopy) (res : CipherResult) (d : List Byte),
    SMap.get none s.cpx.results op = some res → s.rly.copies = [c] → c.op = op → c.frame.dest < 16384 →
    d = padFrame (wrapUdp c.flags c.hdr res.out) →
    (St.success res.status = false → Completes (exec (.egressEncryptDone op) s) fun t =>
      t.rly.copies = [] ∧ t.mem = s.mem ∧ t.regs = s.regs ∧ t.ctr = s.ctr ∧ SMap.get none t.cpx.results op = none ∧
      ∀ p, t.releasedOf p = s.releasedOf p) ∧
    (St.success res.status = true → (s.dropResult op).allocCell (.fixed 0) 0 (d.length + 4) .media true true = (u, .cell ptr) →
      Completes (exec (.egressEncryptDone op) s) fun t =>
        t.rly.copies = [] ∧ t.mem = (u.setBytes ptr d).mem ∧ t.bpm = u.bpm ∧ t.regs = u.regs ∧ t.ctr = u.ctr ∧
        SMap.get none t.cpx.results op = none ∧
        t.releasedOf c.frame.port = s.releasedOf c.frame.port ++ [{ c.frame with data := d, len := d.length + 4, cell := ptr }] ∧
        ∀ p, p ≠ c.frame.port → t.releasedOf p = s.releasedOf p) ∧
    (St.success res.status = true → (s.dropResult op).allocCell (.fixed 0) 0 (d.length + 4) .media true true = (u, .refused k) →
      Completes (exec (.egressEncryptDone op) s) fun t =>
        t.rly.copies = [] ∧ t.mem = u.mem ∧ t.counter R.C_RLY_COPY_DROP = (u.counter R.C_RLY_COPY_DROP + 1) % 2 ^ 64 ∧
        ∀ p, t.releasedOf p = s.releasedOf p)) ∧
  (∀ (s : State) (c d : EgressCopy) (r1 r2 : CipherResult) (x : State × EgressCopy), s.rly.copies = [c, d] → c.op ≠ d.op → c.sealed = none →
    d.frame.port = c.frame.port → d.inPort = c.inPort → SMap.get none s.cpx.results c.op = some r1 →
    SMap.get none s.cpx.results d.op = some r2 → x = (s.dropResult d.op).seal d r2 → x.2.sealed = some true →
    Completes (exec (.egressEncryptDone d.op) s) fun t =>
      t.releasedOf c.frame.port = s.releasedOf c.frame.port ∧ t.rly.copies.length = 2 ∧
      ∀ y, y = (t.dropResult c.op).seal c r1 → y.2.sealed = some true →
        Completes (exec (.egressEncryptDone c.op) t) fun u =>
          u.rly.copies = [] ∧ u.releasedOf c.frame.port = s.releasedOf c.frame.port ++ [y.2.frame, x.2.frame]))

/-- R86, R98, R57, R58 and R96.
Choices of the model: log entries 13 and 29. -/
def Obligations.RoutesRetireAndPortsStop : Prop :=
  (∀ (s : State) (n : Fin 65536) (v w : RouteVersion), s.versionsOf n = [v, w] → v.inflight = 0 → v.vid ≠ w.vid →
    Completes (exec (.routeRetired n) s) fun t =>
      t.versionsOf n = [w] ∧ t.mem = s.mem ∧
      t = (s.setVersions n [w]).excEvent 0x21 (leBytes 2 n ++ leBytes 2 v.ver ++ leBytes 4 0)) ∧
  (∀ (s : State) (p : Fin 8) (up trained : Bool) (offers : List (Fin 6)), s.isSet (R.RLY_PnSTAT_LINK_UP p) = !up →
    (up = true → s.linkMay p offers trained = false → Completes (exec (.linkChange p ⟨up, offers, trained⟩) s) fun t => t = s) ∧
    ((up = true → s.portRuns p = true ∧ (s.isSet (R.RLY_PnCTL_LOOPBACK p) = true ∨
        ((s.isSet (R.RLY_PnCTL_AN_EN p) = true → ∃ m ∈ offers, m.val = s.get R.RLY_PORT_MODE_MODE) ∧
          (s.isSet (R.RLY_PnCTL_LT_EN p) = true → trained = true)))) →
    Completes (exec (.linkChange p ⟨up, offers, trained⟩) s) fun t =>
      t = { s with regs := t.regs } ∧ t.isSet (R.RLY_PnSTAT_LINK_UP p) = up ∧ t.isSet (R.RLY_PnSTAT_LINK_CHANGE p) = true ∧
      t.get (R.RLY_PnSTAT_FEC_ACTIVE p) = s.get (R.RLY_PnSTAT_FEC_ACTIVE p) ∧
      SameRegsBut s t [(R.RLY_PnSTAT_LINK_UP p).addr])) ∧
  (∀ (s : State) (p : Fin 8) (fec : Fin 4), s.portRuns p = true → s.isSet (R.RLY_PnCTL_AN_EN p) = true → s.portRate = 25 →
    s.get (R.RLY_PnCTL_FEC p) = 0 → fec ≠ 0 →
    Completes (exec (.anComplete p fec) s) fun t => SetsOnly s t (R.RLY_PnSTAT_FEC_ACTIVE p) fec) ∧
  (∀ (s : State) (who : Sender) (p : Fin 8), Serves s who (R.RLY_PnCTL_PORT_EN p).addr →
    ((∀ q ∈ s.rly.packets, q.port = p.val → q.ended = true) →
      Completes (exec (.portDisable who p) s) fun t => SetsOnly s t (R.RLY_PnCTL_PORT_EN p) 0) ∧
    (∀ q, s.rly.packets = [q] → q.port = p.val → q.ended = false → q.cell = noCell → s.rly.selects = [] → q.snap = none →
      Completes (exec (.portDisable who p) s) fun t =>
        t = { s with regs := t.regs, ctr := t.ctr, rly := { s.rly with packets := [] } } ∧
        t.isSet (R.RLY_PnCTL_PORT_EN p) = false ∧ SameRegsBut s t [(R.RLY_PnCTL_PORT_EN p).addr] ∧
        t.counter (R.C_RLY_Pn_RX_ABORT p) = (s.counter (R.C_RLY_Pn_RX_ABORT p) + 1) % 2 ^ 64 ∧
        SameCountersBut s t [R.C_RLY_Pn_RX_ABORT p])) ∧
  (∀ (s : State) (who : Sender), Serves s who R.RLY_CTRL_ENABLE.addr → (∀ q ∈ s.rly.packets, q.ended = true) →
    Completes (exec (.relayDisable who) s) fun t => SetsOnly s t R.RLY_CTRL_ENABLE 0)

/-- R72 and its likes R280, R378, R382: grants of command ports. R69 and R72: the entry commands of the FCT engine.
Choices of the model: log entry 30. -/
def Obligations.HeldPortsCommandOneEntry : Prop :=
  (∀ (s : State) (who : Sender), ∀ x ∈ [(fctPort, R.RLY_FCT_RELEASE_RELEASE.addr, Instr.rlyFctClaim who, Instr.rlyFctRelease who),
      (mxmPort, R.MXM_RELEASE_RELEASE.addr, .mxmClaim who, .mxmRelease who),
      (kslPort, R.KSL_RELEASE_RELEASE.addr, .kslClaim who, .kslRelease who),
      (pkaPort, R.CPX_PKA_RELEASE_RELEASE.addr, .cpxPkaClaim who, .cpxPkaRelease who)],
    mayClaim who = true →
    (Serves s who x.1 → s.holder x.1 = none → Completes (exec x.2.2.1 s) fun t =>
      t.holder x.1 = some who ∧ (∀ b, b ≠ x.1 → t.holder b = s.holder b) ∧
      t = { s with holders := t.holders, out := .readDone who x.1 1 :: s.out }) ∧
    (∀ h, Serves s who x.1 → s.holder x.1 = some h → h ≠ who → Completes (exec x.2.2.1 s) fun t =>
      t = { s with out := .readDone who x.1 0 :: s.out }) ∧
    (Serves s who x.2.1 → s.holder x.1 = some who → Completes (exec x.2.2.2 s) fun t =>
      t.holder x.1 = none ∧ (∀ b, b ≠ x.1 → t.holder b = s.holder b) ∧ t = { s with holders := t.holders }) ∧
    (Serves s who x.2.1 → s.holder x.1 ≠ some who → Completes (exec x.2.2.2 s) fun t => t = s)) ∧
  ((∀ (s : State) (who : Sender), Serves s who R.RLY_FCT_CMD_OP.addr → s.holds fctPort who = true →
    s.isSet R.RLY_FCT_RESULT_BUSY = false → s.poison = [] → s.fctBase + 2 ^ 30 ≤ hbmBytes →
    (∀ p, s.entryBad s.fctWindow = false → s.fctFind (fctKey s.fctWindow) = none → s.fctFree (fctKey s.fctWindow) = some p →
      p.2.2 < 2 ^ 24 → Completes (exec (.insert who) s) fun t =>
        t.bytes (s.fctBase + p.2.2 * 64) 64 =
          patch (patch s.fctWindow 0 [s.fctWindow.headD 0 ||| 1]) 0x3C s.ageOctets ∧
        SameMemoryBut s t (s.fctBase + p.2.2 * 64) 64 ∧ t.isSet R.RLY_FCT_RESULT_BUSY = true ∧
        t.rly.job = some ⟨1, FctResult.done, p.1, p.2.1, none⟩ ∧ SameRegsBut s t [R.RLY_FCT_RESULT_BUSY.addr] ∧ t.ctr = s.ctr) ∧
    (∀ p, s.entryBad s.fctWindow = false → s.fctFind (fctKey s.fctWindow) = some p →
      Completes (exec (.insert who) s) fun t =>
        t.mem = s.mem ∧ t.rly.job = some ⟨1, FctResult.exists_, p.1, p.2.1, none⟩) ∧
    (∀ p, s.entryBad s.fctWindow = false → s.fctFind (fctKey s.fctWindow) = some p → p.2.2 < 2 ^ 24 →
      Completes (exec (.update who) s) fun t =>
        t.bytes (s.fctBase + p.2.2 * 64) 64 = (s.fctEntry p.2.2).take 0x30 ++ slice s.fctWindow 0x30 0x3C ++
          slice (s.fctEntry p.2.2) 0x3C 0x3E ++ slice s.fctWindow 0x3E 0x40 ∧
        SameMemoryBut s t (s.fctBase + p.2.2 * 64) 64 ∧ t.rly.job = some ⟨2, FctResult.done, p.1, p.2.1, none⟩ ∧
        SameRegsBut s t [R.RLY_FCT_RESULT_BUSY.addr]) ∧
    (∀ p, s.fctFind (fctKey s.fctWindow) = some p → p.2.2 < 2 ^ 24 → Completes (exec (.delete who) s) fun t =>
        (t.byte (s.fctBase + p.2.2 * 64)).toNat % 2 = 0 ∧ SameMemoryBut s t (s.fctBase + p.2.2 * 64) 1 ∧
        t.rly.job = some ⟨3, FctResult.done, p.1, p.2.1, none⟩ ∧ SameRegsBut s t [R.RLY_FCT_RESULT_BUSY.addr]) ∧
    (∀ p, s.fctFind (fctKey s.fctWindow) = some p → Completes (exec (.lookup who) s) fun t =>
        t.mem = s.mem ∧ t.rly.job = some ⟨4, FctResult.done, p.1, p.2.1, some (s.fctEntry p.2.2)⟩ ∧
        SameRegsBut s t [R.RLY_FCT_RESULT_BUSY.addr]) ∧
    Completes (exec (.clear who) s) fun t =>
      (∀ e, e < 2 ^ 24 → (t.byte (s.fctBase + e * 64)).toNat % 2 = 0) ∧ t.rly.cache = [] ∧
      t.isSet R.RLY_STATUS_FCT_READY = false ∧ t.rly.job = some ⟨8, FctResult.done, 0, 0, none⟩ ∧
      ∀ a, (a < s.fctBase ∨ s.fctBase + 2 ^ 30 ≤ a) → t.byte a = s.byte a) ∧
  ∀ (s : State) (who : Sender), Serves s who R.RLY_FCT_CMD_OP.addr →
    s.holds fctPort who = false ∨ s.isSet R.RLY_FCT_RESULT_BUSY = true →
    ∀ c ∈ [Instr.insert who, .update who, .delete who, .lookup who, .routeCommit who, .select who, .stateWrite who, .clear who],
      Completes (exec c s) fun t => SetsOnly s t R.RLY_STATUS_CMD_IGNORED 1)

/-- R39, R84 to R86 and R632: the route and receiver commands. R72 to R75 and R97.
Choices of the model: log entries 16, 30, 109 and 111. -/
def Obligations.RoutesSelectionsAndTheFctEngine : Prop :=
  (∀ (s : State) (who : Sender), Serves s who R.RLY_FCT_CMD_OP.addr → s.holds fctPort who = true →
    s.isSet R.RLY_FCT_RESULT_BUSY = false → s.poison = [] →
    (∀ n ptr, n = s.fctWord 0 % 65536 → ptr = s.fctWord 1 + s.fctWord 2 % 16 * 2 ^ 32 → ptr ≠ 0 → ptr % 64 = 0 →
      s.le ptr 2 ≤ 16640 → s.le (ptr + 2) 2 = n → s.streamAddr n + 128 ≤ hbmBytes →
      ((s.versionsOf n).length < 4 → Completes (exec (.routeCommit who) s) fun t =>
        t.le (s.streamAddr n) 8 = ptr ∧ t.le (s.streamAddr n + 8) 2 = s.le (ptr + 4) 2 ∧
        SameMemoryBut s t (s.streamAddr n) 10 ∧
        t.versionsOf n = s.versionsOf n ++ [⟨s.rly.nextId, ptr, s.le (ptr + 4) 2, 0⟩] ∧
        t.rly.job = some ⟨5, FctResult.done, 0, 0, none⟩) ∧
      (4 ≤ (s.versionsOf n).length → Completes (exec (.routeCommit who) s) fun t =>
        t.mem = s.mem ∧ t.versionsOf n = s.versionsOf n ∧ t.rly.job = some ⟨5, FctResult.busy, 0, 0, none⟩)) ∧
    (∀ r a, r = s.fctWord 0 % 2 ^ 20 → a = s.rstateAddr r → a + 16 ≤ hbmBytes → s.rly.selects = [] →
      (s.boundTo r ≠ [] →
        Completes (exec (.select who) s) (fun t => t.mem = s.mem ∧ t.rly.selects =
          [⟨r, s.boundTo r, none, s.fctWord 1 % 256, (s.fctWord 1).testBit 8⟩] ∧ t.rly.job = some ⟨6, FctResult.done, 0, 0, none⟩) ∧
        Completes (exec (.stateWrite who) s) fun t => t.mem = s.mem ∧ t.rly.selects =
          [⟨r, s.boundTo r, some (slice s.fctWindow 4 20), 0, false⟩] ∧ t.rly.job = some ⟨7, FctResult.done, 0, 0, none⟩) ∧
      (s.boundTo r = [] →
      (∀ sel, sel = s.fctWord 1 % 256 → (s.fctWord 1).testBit 8 = false → (s.le (a + 2) 1).testBit 2 = false →
        (sel = s.le a 1 → Completes (exec (.select who) s) fun t =>
          (t.le (a + 2) 1).testBit 1 = false ∧ SMap.get false t.rly.down r = false ∧ SameMemoryBut s t (a + 2) 1) ∧
        (sel ≠ s.le a 1 → Completes (exec (.select who) s) fun t =>
          t.le (a + 1) 1 = sel ∧ (t.le (a + 2) 1).testBit 1 = true ∧ t.le a 1 = s.le a 1 ∧ SameMemoryBut s t (a + 1) 2 ∧
          SMap.get false t.rly.down r = (decide (layerS sel ≤ layerS (s.le a 1)) && decide (layerT sel ≤ layerT (s.le a 1)) &&
            decide (layerQ sel ≤ layerQ (s.le a 1))) ∧
          t.rly.job = some ⟨6, FctResult.done, 0, 0, none⟩)) ∧
      Completes (exec (.stateWrite who) s) fun t =>
        t.bytes a 16 = slice s.fctWindow 4 20 ∧ SameMemoryBut s t a 16 ∧ SMap.get false t.rly.down r = false ∧
        t.rly.job = some ⟨7, FctResult.done, 0, 0, none⟩))) ∧
  ((∀ (s : State) (j : FctJob), s.rly.job = some j → s.rly.clearPending = false → j.op < 9 → j.result < 6 → j.bucket < 2 → j.way < 4 →
    Completes (exec .fctCommandDone s) fun t =>
      t.isSet R.RLY_FCT_RESULT_BUSY = false ∧ t.get R.RLY_FCT_RESULT_RESULT = j.result ∧ t.get R.RLY_FCT_RESULT_BUCKET = j.bucket ∧
      t.get R.RLY_FCT_RESULT_WAY = j.way ∧ t.rly.job = none ∧ t.mem = s.mem ∧ t.ctr = s.ctr ∧
      (∀ d, j.data = some d → d.length = 64 → ∀ i : Fin 16, t.fctWord i = leVal (slice d (4 * i) (4 * i + 4))) ∧
      (j.op = 8 → t.isSet R.RLY_STATUS_FCT_READY = s.isSet R.BPM_STATUS_H_READY)) ∧
  (∀ (s : State) (who : Sender) (v : Word), Serves s who R.RLY_HASH_SEED_SEED.addr → v.toNat ≠ s.get R.RLY_HASH_SEED_SEED →
    (s.isSet R.RLY_CTRL_ENABLE = false → s.isSet R.RLY_FCT_RESULT_BUSY = false →
      Completes (exec (.hashSeedWrite who v) s) fun t =>
        t.get R.RLY_HASH_SEED_SEED = v.toNat ∧ t.isSet R.RLY_FCT_RESULT_BUSY = true ∧ t.isSet R.RLY_STATUS_FCT_READY = false ∧
        t.rly.cache = [] ∧ t.rly.job = some ⟨8, FctResult.done, 0, 0, none⟩) ∧
    (s.isSet R.RLY_CTRL_ENABLE = true → Completes (exec (.hashSeedWrite who v) s) fun t =>
      t.get R.RLY_HASH_SEED_SEED = s.get R.RLY_HASH_SEED_SEED ∧ t.isSet R.RLY_STATUS_CFG_IGNORED = true ∧ t.mem = s.mem ∧
      t.rly = s.rly)) ∧
  ∀ (s : State) (e : Fin 16777216),
    (s.isSet R.RLY_STATUS_FCT_READY = true → s.get R.RLY_AGE_TIMEOUT_SECONDS ≠ 0 → s.poison = [] →
      s.fctBase + 2 ^ 30 ≤ hbmBytes → (s.byte (s.fctBase + e * 64)).toNat % 4 = 3 →
      s.get R.RLY_AGE_TIMEOUT_SECONDS <
        (s.get R.RLY_AGE_CLOCK_SECONDS + 65536 - s.le (s.fctBase + e * 64 + 0x3C) 2) % 65536 →
      Completes (exec (.ageScan e) s) fun t =>
        (t.byte (s.fctBase + e * 64)).toNat % 2 = 0 ∧ SameMemoryBut s t (s.fctBase + e * 64) 1) ∧
    (s.get R.RLY_AGE_TIMEOUT_SECONDS = 0 → Completes (exec (.ageScan e) s) fun t => t = s))

/-- R102 to R110: allocation requests, held requests and returned pointers. R109, R112 and R127.
Choices of the model: log entry 10. -/
def Obligations.PoolsServeAndAreControlled : Prop :=
  (∀ (s : State) (who : Sender) (req size p : Nat) (cls : AllocClass) (onDie nowait : Bool), p = poolFor onDie size →
    (size = 0 ∨ 65536 < size → Completes (exec (.alloc who req size cls onDie nowait) s) fun t =>
      t = { s with out := .done who St.badSize [req] :: s.out }) ∧
    (1 ≤ size → size ≤ 65536 → s.isSet R.BPM_CTRL_ENABLE = false →
      Completes (exec (.alloc who req size cls onDie nowait) s) fun t =>
        t = { s with out := .done who St.poolOffline [req] :: s.out }) ∧
    (1 ≤ size → size ≤ 65536 → s.isSet R.BPM_CTRL_ENABLE = true → s.poolNotReady p = false →
      (0 < s.get (R.BPM_Pp_FREE_F p) → (cls = .reliable → s.get (R.BPM_Pp_LEVEL_LEVEL p) ≠ 3) →
        Completes (exec (.alloc who req size cls onDie nowait) s) fun t =>
          t.out.head? = some (.done who St.ok [req, s.poolBase p + firstFree 0 (s.used p) * poolCellSize p]) ∧
          SMap.get false (t.used p) (firstFree 0 (s.used p)) = true ∧
          (∀ i, i ≠ firstFree 0 (s.used p) → SMap.get false (t.used p) i = SMap.get false (s.used p) i) ∧
          (∀ q, q ≠ p → t.used q = s.used q) ∧ t.get (R.BPM_Pp_FREE_F p) = s.get (R.BPM_Pp_FREE_F p) - 1 ∧
          t.mem = s.mem ∧ t.queues = s.queues) ∧
      (s.get (R.BPM_Pp_FREE_F p) = 0 → cls = .media → Completes (exec (.alloc who req size cls onDie nowait) s) fun t =>
        t = { s with regs := t.regs, out := .done who St.poolEmpty [req] :: s.out } ∧
        t.get (R.BPM_Pp_EMPTY_DROPS_COUNT p) = min (2 ^ 32 - 1) (s.get (R.BPM_Pp_EMPTY_DROPS_COUNT p) + 1) ∧
        SameRegsBut s t [(R.BPM_Pp_EMPTY_DROPS_COUNT p).addr]) ∧
      (s.get (R.BPM_Pp_LEVEL_LEVEL p) = 3 → cls = .reliable → nowait = true →
        Completes (exec (.alloc who req size cls onDie nowait) s) fun t =>
          t = { s with regs := t.regs, out := .done who St.poolStop [req] :: s.out } ∧
          SameRegsBut s t [(R.BPM_Pp_HOLD_TIMEOUTS_COUNT p).addr]) ∧
      (s.get (R.BPM_Pp_LEVEL_LEVEL p) = 3 → cls = .reliable → nowait = false → (s.heldOf p).length < 256 →
        Completes (exec (.alloc who req size cls onDie nowait) s) fun t =>
          t.heldOf p = s.heldOf p ++ [⟨who, req, cls, s.cycle⟩] ∧ t.out = s.out ∧ t.bpm.used = s.bpm.used)) ∧
    (∀ q i, q < 6 → s.poolOf (s.poolBase q + i * poolCellSize q) = some q → SMap.get false (s.used q) i = true →
      s.heldOf q = [] → s.get (R.BPM_Pp_FREE_F q) < poolCells q →
      Completes (exec (.free who (s.poolBase q + i * poolCellSize q)) s) fun t =>
        t.out.head? = some (.done who St.ok [s.poolBase q + i * poolCellSize q]) ∧
        SMap.get false (t.used q) i = false ∧ (∀ j, j ≠ i → SMap.get false (t.used q) j = SMap.get false (s.used q) j) ∧
        t.get (R.BPM_Pp_FREE_F q) = s.get (R.BPM_Pp_FREE_F q) + 1 ∧ t.mem = s.mem) ∧
    (∀ ptr, s.poolOf ptr = none → Completes (exec (.free who ptr) s) fun t =>
      t.bpm = s.bpm ∧ t.out.head? = some (.done who St.badPointer [ptr]) ∧
      t.get R.BPM_BADPTR_SENDER_SENDER = who.stamp % 65536 ∧ t.get R.BPM_BADPTR_LAST_LO_PTR = ptr % 2 ^ 32 ∧
      t.get R.BPM_BADPTR_NOPOOL_COUNT = min (2 ^ 32 - 1) (s.get R.BPM_BADPTR_NOPOOL_COUNT + 1)) ∧
    ∀ (q : Fin 6) h rest, s.heldOf q = h :: rest → h.since + s.get R.BPM_HOLD_MAX_MICROSECONDS * usCycles < s.cycle →
      h.who ≠ .fixed 8 → Completes (exec (.holdTimeout q) s) fun t =>
        t.heldOf q = rest ∧ t.out = .done h.who St.poolStop [h.req] :: s.out ∧ t.bpm.used = s.bpm.used ∧ t.mem = s.mem) ∧
  (∀ (s : State) (who : Sender), Serves s who R.BPM_CTRL_ENABLE.addr →
    (∀ mask, s.isSet R.BPM_CTRL_ENABLE = false → Completes (exec (.resetPools who mask) s) fun t =>
      (∀ p, p < 6 → mask.testBit p = true → t.used p = [] ∧ t.get (R.BPM_Pp_FREE_F p) = poolCells p ∧
        t.get (R.BPM_Pp_MINFREE_F p) = s.get (R.BPM_Pp_MINFREE_F p) ∧
        (s.get (R.BPM_Pp_STOP_CELLS p) ≤ s.get (R.BPM_Pp_WARN2_CELLS p) → s.get (R.BPM_Pp_WARN2_CELLS p) ≤ s.get (R.BPM_Pp_WARN1_CELLS p) →
          s.get (R.BPM_Pp_WARN1_CELLS p) + s.get (R.BPM_Pp_HYST_CELLS p) < poolCells p → t.get (R.BPM_Pp_LEVEL_LEVEL p) = 0)) ∧
      (∀ p, mask.testBit p = false → t.used p = s.used p) ∧ t.mem = s.mem ∧ t.bpm.held = s.bpm.held) ∧
    (∀ mask, s.isSet R.BPM_CTRL_ENABLE = true → Completes (exec (.resetPools who mask) s) fun t =>
      t.bpm = s.bpm ∧ t.isSet R.BPM_STATUS_CFG_IGNORED = true ∧ t.mem = s.mem) ∧
    Completes (exec (.bpmDisable who) s) (fun t =>
      t.isSet R.BPM_CTRL_ENABLE = false ∧ (∀ p, p < 6 → t.heldOf p = []) ∧ t.bpm.used = s.bpm.used ∧ t.mem = s.mem ∧
      (∀ p h, p < 6 → s.heldOf p = [h] → (∀ q, q ≠ p → s.heldOf q = []) → h.who ≠ .fixed 8 →
        t.out = .done h.who St.poolOffline [h.req] :: s.out)) ∧
    (∀ (p : Fin 6) (k : Threshold) (v : Nat), Serves s who (thresholdAddr p k) →
      (s.thresholdOk p k (v % 2 ^ 21) = true → Completes (exec (.poolThresholdWrite who p k v) s) fun t =>
        t = { s with regs := t.regs, rwvB := t.rwvB, rwvC := t.rwvC } ∧ t.get (thresholdFld k p) = v % 2 ^ 21 ∧
        SameRegsBut s t [(thresholdFld k p).addr] ∧
        (SMap.get 0 t.rwvB (thresholdFld k p).addr).field 0 21 = 0 ∧ (SMap.get 0 t.rwvC (thresholdFld k p).addr).field 0 21 = 0) ∧
      (s.thresholdOk p k (v % 2 ^ 21) = false → Completes (exec (.poolThresholdWrite who p k v) s) fun t =>
        t.isSet R.BPM_STATUS_CFG_IGNORED = true ∧ t.get (thresholdFld k p) = s.get (thresholdFld k p) ∧ t.bpm = s.bpm)) ∧
    ∀ p : Fin 6, Serves s who (R.BPM_Pp_MINFREE_F p).addr → Completes (exec (.minfreeWrite who p) s) fun t =>
      SetsOnly s t (R.BPM_Pp_MINFREE_F p) (s.get (R.BPM_Pp_FREE_F p)))

/-- R114 and R116 to R125: what passes through one stream queue; that SOP alone ends nothing is the model's choice (log entry 100). -/
def Obligations.StreamQueuesPassWholePackets : Prop :=
  ∀ (s : State) (who : Sender) (n : Fin 2048) (w : QWord),
    (s.isSet (R.BPM_Qq_CFG_ENABLE n) = false → Completes (exec (.queueWrite who n w) s) fun t =>
      t = { s with out := .done who St.queueDisabled [n.val] :: s.out }) ∧
    (s.isSet (R.BPM_Qq_CFG_ENABLE n) = true → (s.queue n).stalled = [] → (s.queue n).rewinding = false →
      ((s.queue n).fill ≠ s.get (R.BPM_Qq_DEPTH_WORDS n) → Completes (exec (.queueWrite who n w) s) fun t =>
        (w.bad = false → w.eop = true → t.queue n = { s.queue n with packets := (s.queue n).packets ++ [(s.queue n).openPkt ++ [fitWord n w]], openPkt := [] }) ∧
        (w.bad = false → w.eop = false → t.queue n = { s.queue n with openPkt := (s.queue n).openPkt ++ [fitWord n w] }) ∧
        (w.bad = true → t.queue n = { s.queue n with openPkt := [], rewinding := !w.eop }) ∧
        (∀ m, m ≠ n.val → t.queue m = s.queue m) ∧ t = { s with regs := t.regs, queues := t.queues }) ∧
      ((s.queue n).fill = s.get (R.BPM_Qq_DEPTH_WORDS n) → s.isSet (R.BPM_Qq_CFG_KB3_COMPAT n) = false →
        Completes (exec (.queueWrite who n w) s) fun t =>
          t.queue n = { s.queue n with openPkt := [], rewinding := !w.eop } ∧ t.isSet (R.BPM_Qq_STAT_OVERRUN n) = true ∧
          t = { s with regs := t.regs, queues := t.queues, out := .done who St.queueFull [n.val] :: s.out }) ∧
      ((s.queue n).fill = s.get (R.BPM_Qq_DEPTH_WORDS n) → s.isSet (R.BPM_Qq_CFG_KB3_COMPAT n) = true →
        Completes (exec (.queueWrite who n w) s) fun t =>
          t.queue n = { s.queue n with stalled := [(fitWord n w, .sender who)], since := s.cycle } ∧ t = { s with regs := t.regs, queues := t.queues })) ∧
    ((s.queue n).stalled = [(w, .sender who)] → (s.queue n).since + s.get R.BPM_COMPAT_STALL_MICROSECONDS * usCycles < s.cycle →
      Completes (exec (.compatStallTimeout n) s) fun t =>
        t.isSet (R.BPM_Qq_STAT_OVERRUN n) = true ∧ (t.queue n).stalled = [] ∧ (t.queue n).openPkt = [] ∧
        (t.queue n).packets = (s.queue n).packets ∧ t = { s with regs := t.regs, queues := t.queues, out := .done who St.queueFull [n.val] :: s.out }) ∧
    (s.isSet (R.BPM_Qq_CFG_ENABLE n) = true → (s.queue n).stalled = [] →
      (∀ r, (s.queue n).reading = w :: r → Completes (exec (.queueRead who n) s) fun t =>
        t.out = .word who n w.data (qwordSide w) :: s.out ∧ t.queue n = { s.queue n with reading := r, last := w } ∧
        t = { s with regs := t.regs, queues := t.queues, out := t.out }) ∧
      (∀ r ps, (s.queue n).reading = [] → s.isSet (R.BPM_Qq_STAT_PRIO_ACTIVE n) = false → (s.queue n).packets = (w :: r) :: ps →
        Completes (exec (.queueRead who n) s) fun t =>
          t.out = .word who n w.data (qwordSide w) :: s.out ∧ t.queue n = { s.queue n with packets := ps, reading := r, last := w }) ∧
      (∀ x xs r, (s.queue n).reading = [] → s.isSet (R.BPM_Qq_STAT_PRIO_ACTIVE n) = true → (s.queue n).packets = [x :: xs, w :: r] →
        w.prio < x.prio → w.prio < 8 → Completes (exec (.queueRead who n) s) fun t =>
          t.out = .word who n w.data (qwordSide w) :: s.out ∧
          t.queue n = { s.queue n with packets := [x :: xs], reading := r, last := w })) ∧
    ((s.isSet (R.BPM_Qq_CFG_ENABLE n) = false ∨ ((s.queue n).reading = [] ∧ (s.queue n).packets = [])) →
      Completes (exec (.queueRead who n) s) fun t =>
        t.out = .word who n (fitWord n (s.queue n).last).data (qwordSide (s.queue n).last) :: s.out ∧ t.queues = s.queues ∧
        t.isSet (R.BPM_Qq_STAT_UNDERRUN n) = true) ∧
    (Serves s who (R.BPM_Qq_CMD_DROP_REST n).addr →
      ((s.queue n).reading ≠ [] → (s.queue n).stalled = [] → Completes (exec (.dropRest who n) s) fun t =>
        t.queue n = { s.queue n with reading := [] } ∧ t = { s with regs := t.regs, queues := t.queues }) ∧
      ((s.queue n).reading = [] → Completes (exec (.dropRest who n) s) fun t => SetsOnly s t (R.BPM_Qq_STAT_CMD_IGNORED n) 1) ∧
      (s.isSet (R.BPM_Qq_CFG_ENABLE n) = false → Completes (exec (.flush who n) s) fun t =>
        t.queue n = { s.queue n with packets := [], openPkt := [], rewinding := false, reading := [] } ∧
        t.get (R.BPM_Qq_FILL_FILL n) = 0 ∧ t.isSet (R.BPM_Qq_STAT_EMPTY n) = true ∧ (∀ m, m ≠ n.val → t.queue m = s.queue m)) ∧
      (s.isSet (R.BPM_Qq_CFG_ENABLE n) = true → Completes (exec (.flush who n) s) fun t =>
        SetsOnly s t (R.BPM_Qq_STAT_CMD_IGNORED n) 1))

/-- R131 to R140: one frame through a class queue.
Choices of the model: log entries 12, 13, 99 and 112. -/
def Obligations.EgressQueuesSendInOrder : Prop :=
  (∀ (s : State) (p : Fin 8) (f : EFrame) (rest : List EFrame), s.releasedOf p = f :: rest → f.cell = noCell → f.cls < 8 →
    (frameBytes (s.classQueue f.dest f.cls) + f.len ≤ s.get R.EGS_DQ_LIMIT_BYTES → Completes (exec (.enqueue p) s) fun t =>
      t.classQueue f.dest f.cls = s.classQueue f.dest f.cls ++ [f] ∧ t.releasedOf p = rest ∧
      (∀ d c, c < 8 → (d, c) ≠ (f.dest, f.cls) → t.classQueue d c = s.classQueue d c) ∧ t = { s with egress := t.egress }) ∧
    (s.get R.EGS_DQ_LIMIT_BYTES < frameBytes (s.classQueue f.dest f.cls) + f.len → Completes (exec (.enqueue p) s) fun t =>
      t.releasedOf p = rest ∧ t.egress.queues = s.egress.queues ∧ t = { s with egress := t.egress, ctr := t.ctr } ∧
      t.counter (R.C_EGS_Pn_TAIL_DROP f.port) = (s.counter (R.C_EGS_Pn_TAIL_DROP f.port) + 1) % 2 ^ 64 ∧
      SameCountersBut s t [R.C_EGS_Pn_TAIL_DROP f.port])) ∧
  (∀ (s : State) (p : Fin 8) (f : EFrame), s.isSet R.EGS_CTRL_ENABLE = true → SMap.get 0 s.egress.busy p ≤ s.cycle →
    s.egress.queues = [(f.dest * 8 + f.cls, [f])] → f.port = p.val → f.cls < 2 → f.dest < 16640 → f.cell = noCell → f.demoted = false →
    s.isSet (R.TGC_CTRL_ENABLE p) = false →
    (s.portRuns p = true → s.tooOld f = false → s.isSet (R.RLY_PnCTL_LOOPBACK p) = true → Completes (exec (.egressPick p) s) fun t =>
      t.out = s.out ∧ t.egress.queues = [] ∧ SMap.get [] t.rly.looped p = SMap.get [] s.rly.looped p ++ [f.data] ∧ t.mem = s.mem ∧
      t.counter (R.C_RLY_Pn_TX_FRAMES p) = (s.counter (R.C_RLY_Pn_TX_FRAMES p) + 1) % 2 ^ 64) ∧
    (s.portRuns p = true → s.tooOld f = false → s.isSet (R.RLY_PnCTL_LOOPBACK p) = false → Completes (exec (.egressPick p) s) fun t =>
      t.out = .frame p f.cls f.len f.data :: s.out ∧ t.egress.queues = [] ∧ t.mem = s.mem ∧ t.regs = s.regs ∧
      SMap.get 0 t.egress.busy p = s.cycle + ceilDiv (s.charged f.len * 12) s.portRate ∧
      t.counter (R.C_RLY_Pn_TX_FRAMES p) = (s.counter (R.C_RLY_Pn_TX_FRAMES p) + 1) % 2 ^ 64 ∧
      t.counter (R.C_RLY_Pn_TX_BYTES p) = (s.counter (R.C_RLY_Pn_TX_BYTES p) + f.len) % 2 ^ 64 ∧
      SameCountersBut s t [R.C_RLY_Pn_TX_FRAMES p, R.C_RLY_Pn_TX_BYTES p]) ∧
    (s.portRuns p = true → s.tooOld f = true → Completes (exec (.egressPick p) s) fun t =>
      t.out = s.out ∧ t.egress.queues = [] ∧ t.regs = s.regs ∧ t.mem = s.mem ∧
      t.counter (R.C_EGS_Pn_AGE_DROP p) = (s.counter (R.C_EGS_Pn_AGE_DROP p) + 1) % 2 ^ 64 ∧
      SameCountersBut s t [R.C_EGS_Pn_AGE_DROP p]) ∧
    (s.portRuns p = false → Completes (exec (.egressPick p) s) fun t =>
      t.out = s.out ∧ t.egress.queues = [] ∧ t.regs = s.regs ∧ t.mem = s.mem ∧
      t.counter (R.C_RLY_Pn_TX_DISCARD p) = (s.counter (R.C_RLY_Pn_TX_DISCARD p) + 1) % 2 ^ 64 ∧
      SameCountersBut s t [R.C_RLY_Pn_TX_DISCARD p])) ∧
  ∀ (s : State) (p : Fin 8), s.isSet R.EGS_CTRL_ENABLE = false ∨ s.cycle < SMap.get 0 s.egress.busy p →
    Completes (exec (.egressPick p) s) fun t => t = s

/-- R138, R139, R144, R145, R164.
Choices of the model: log entry 11. -/
def Obligations.ShapersAndPolicersAreWrittenWhole : Prop :=
  (∀ (s : State) (who : Sender) (d : Nat), Serves s who R.EGS_IND_CMD_READ.addr → s.indBad = false →
    d = shaperDest (s.get R.EGS_IND_SEL_TARGET) (s.get R.EGS_IND_SEL_INDEX) →
    (s.get R.EGS_IND_SEL_TARGET ≤ 1 → (s.reg (R.EGS_IND_DATA_DATA 0).addr).field 27 2 ≠ 3 →
      64 ≤ (s.reg (R.EGS_IND_DATA_DATA 1).addr).field 0 25 → (s.reg (R.EGS_IND_DATA_DATA 1).addr).field 0 25 ≤ 16777216 →
      Completes (exec (.indWrite who) s) fun t =>
        (t.shaper d).rate = (s.reg (R.EGS_IND_DATA_DATA 0).addr).field 0 26 ∧
        (t.shaper d).en = ((s.reg (R.EGS_IND_DATA_DATA 0).addr).field 26 1 == 1) ∧
        (t.shaper d).policy = (s.reg (R.EGS_IND_DATA_DATA 0).addr).field 27 2 ∧
        (t.shaper d).burst = (s.reg (R.EGS_IND_DATA_DATA 1).addr).field 0 25 ∧
        (t.shaper d).level ≤ ((t.shaper d).burst : Int) * levelUnit ∧
        ((s.shaper d).en = true → (s.shaperNow d).level < 0 → (t.shaper d).policy = 2 → (t.shaper d).rate ≠ (s.shaper d).rate →
          (t.shaper d).level = 0) ∧
        (∀ e, e ≠ d → t.shaper e = s.shaper e) ∧ t.egress.policers = s.egress.policers ∧ t = { s with egress := t.egress }) ∧
    (s.get R.EGS_IND_SEL_TARGET = 2 → 0 < (s.reg (R.EGS_IND_DATA_DATA 2).addr).field 0 24 →
      0 < (s.reg (R.EGS_IND_DATA_DATA 3).addr).field 0 24 →
      (s.reg (R.EGS_IND_DATA_DATA 0).addr).field 0 26 ≤ (s.reg (R.EGS_IND_DATA_DATA 1).addr).field 0 26 →
      Completes (exec (.indWrite who) s) fun t =>
        (t.policer (s.get R.EGS_IND_SEL_INDEX)).cir = (s.reg (R.EGS_IND_DATA_DATA 0).addr).field 0 26 ∧
        (t.policer (s.get R.EGS_IND_SEL_INDEX)).pir = (s.reg (R.EGS_IND_DATA_DATA 1).addr).field 0 26 ∧
        (t.policer (s.get R.EGS_IND_SEL_INDEX)).cbs = (s.reg (R.EGS_IND_DATA_DATA 2).addr).field 0 24 ∧
        (t.policer (s.get R.EGS_IND_SEL_INDEX)).pbs = (s.reg (R.EGS_IND_DATA_DATA 3).addr).field 0 24 ∧
        t.egress.shapers = s.egress.shapers ∧ t = { s with egress := t.egress }) ∧
    (s.get R.EGS_IND_SEL_TARGET ≤ 1 → (s.reg (R.EGS_IND_DATA_DATA 0).addr).field 27 2 = 3 →
      Completes (exec (.indWrite who) s) fun t => t.egress = s.egress ∧ t.isSet R.EGS_STATUS_CFG_IGNORED = true) ∧
    (s.get R.EGS_IND_SEL_TARGET = 2 →
      (s.reg (R.EGS_IND_DATA_DATA 1).addr).field 0 26 < (s.reg (R.EGS_IND_DATA_DATA 0).addr).field 0 26 →
      Completes (exec (.indWrite who) s) fun t => t.egress = s.egress ∧ t.isSet R.EGS_STATUS_CFG_IGNORED = true) ∧
    (s.get R.EGS_IND_SEL_TARGET ≤ 1 → (s.shaper d).rate < 2 ^ 26 → (s.shaper d).policy < 3 → Completes (exec (.indRead who) s) fun t =>
      (t.reg (R.EGS_IND_DATA_DATA 0).addr).field 0 26 = (s.shaper d).rate ∧
      (t.reg (R.EGS_IND_DATA_DATA 0).addr).field 27 2 = (s.shaper d).policy ∧
      t.get (R.EGS_IND_DATA_DATA 1) = (s.shaper d).burst % 2 ^ 32 ∧ t = { s with regs := t.regs })) ∧
  (∀ (s : State) (who : Sender), Serves s who R.EGS_IND_CMD_READ.addr → s.indBad = true →
    Completes (exec (.indWrite who) s) (fun t => SetsOnly s t R.EGS_IND_STAT_BAD_INDEX 1) ∧
    Completes (exec (.indRead who) s) (fun t => SetsOnly s t R.EGS_IND_STAT_BAD_INDEX 1)) ∧
  (∀ (s : State) (p : Fin 8), s.egress.queues = [] → SMap.get 0 s.egress.sampled p + 10 * usCycles ≤ s.cycle →
    (s.portNamed p = false → Completes (exec (.depthSample p) s) fun t => t = s) ∧
    (s.portNamed p = true → Completes (exec (.depthSample p) s) fun t =>
      (∀ c : Fin 8, t.get (R.EGS_Pn_Cc_DEPTH_BYTES p c) = 0 ∧ t.get (R.EGS_Pn_Cc_DELAY_NS p c) = 0 ∧
        t.get (R.EGS_HIST_DEPTH_COUNT (p * 8 + c) 0) = min (2 ^ 32 - 1) (s.get (R.EGS_HIST_DEPTH_COUNT (p * 8 + c) 0) + 1) ∧
        t.get (R.EGS_HIST_DELAY_COUNT (p * 8 + c) 0) = min (2 ^ 32 - 1) (s.get (R.EGS_HIST_DELAY_COUNT (p * 8 + c) 0) + 1)) ∧
      SMap.get 0 t.egress.sampled p = s.cycle ∧ t.mem = s.mem ∧ t.ctr = s.ctr)) ∧
  ∀ (s : State) (who : Sender), Serves s who R.EGS_CTRL_ENABLE.addr → Completes (exec (.histClr who) s) fun t =>
    (∀ (i : Fin 64) (b : Fin 16), SMap.find? s.egress.sampled (i / 8) ≠ some s.cycle →
      t.get (R.EGS_HIST_DEPTH_COUNT i b) = 0 ∧ t.get (R.EGS_HIST_DELAY_COUNT i b) = 0) ∧
    (∀ (p c : Fin 8), SMap.find? s.egress.sampled p = some s.cycle → s.get (R.EGS_Pn_Cc_DEPTH_BYTES p c) = 0 →
      t.get (R.EGS_HIST_DEPTH_COUNT (p * 8 + c) 0) = 1) ∧
    (∀ a, a < 0x408000 ∨ 0x40A000 ≤ a → t.reg a = s.reg a) ∧ t = { s with regs := t.regs }

/-- R56, R146, R150 and R155: a port's gate list. -/
def Obligations.GateListsTakeOverAtTheirTime : Prop :=
  (∀ (s : State) (who : Sender) (p : Fin 8), Serves s who (R.TGC_CTRL_ENABLE p).addr →
    (s.isSet (R.TGC_CTRL_ENABLE p) = true → s.adminValid p = true → Completes (exec (.activate who p) s) fun t =>
      (∃ g, (t.gate p).snapshot = some g ∧ g.entries = s.adminList p ∧ g.cycle = s.get (R.TGC_ADMIN_CYCLE_NS p) ∧
        g.takeover = firstBoundary g.base g.cycle (s.timeNs + 10000) ∧ s.timeNs + 10000 ≤ g.takeover) ∧
      t.get (R.TGC_STATUS_STATE p) = (if s.get (R.TGC_STATUS_STATE p) ≤ 1 then 1 else 3) ∧
      (∀ q, q ≠ p.val → t.gate q = s.gate q) ∧ t = { s with regs := t.regs, gates := t.gates } ∧
      SameRegsBut s t [(R.TGC_STATUS_STATE p).addr]) ∧
    (s.isSet (R.TGC_CTRL_ENABLE p) = false ∨ s.adminValid p = false → Completes (exec (.activate who p) s) fun t =>
      t.gates = s.gates ∧ t.isSet (R.TGC_STATUS_CFG_IGNORED p) = true ∧
      t.get (R.TGC_STATUS_STATE p) = s.get (R.TGC_STATUS_STATE p)) ∧
    Completes (exec (.gateDisable who p) s) fun t =>
      (t.gate p).snapshot = none ∧ t.get (R.TGC_STATUS_STATE p) = 0 ∧ t.isSet (R.TGC_CTRL_ENABLE p) = false ∧
      (∀ c, t.gateOpen p c = true) ∧ t = { s with regs := t.regs, gates := t.gates }) ∧
  (∀ (s : State) (p : Fin 8) (g : GateSnapshot), (s.gate p).snapshot = some g → g.takeover ≤ s.timeNs → 1 ≤ g.entries.length →
    g.entries.length ≤ 256 → g.cycle < 2 ^ 30 → (∀ e ∈ g.entries, e.1 < 256 ∧ e.2 < 2 ^ 30) →
    (s.portNamed p = false → Completes (exec (.gateTakeover p) s) fun t => t = s) ∧
    (s.portNamed p = true → Completes (exec (.gateTakeover p) s) fun t =>
      t.operList p = g.entries ∧ t.get (R.TGC_OPER_CYCLE_NS p) = g.cycle ∧ t.get (R.TGC_CUR_ENTRY_ENTRY p) = 0 ∧
      t.get (R.TGC_STATUS_STATE p) = 2 ∧ t.isSet (R.TGC_STATUS_LIST_CHANGED p) = true ∧
      t.gate p = ⟨none, g.takeover, g.base, none⟩ ∧ t = { s with regs := t.regs, gates := t.gates })) ∧
  (∀ (s : State) (p : Fin 8), s.portNamed p = true → s.listInEffect p = true → s.entryEnd p ≤ s.timeNs →
    ((s.gate p).resume = none → s.get (R.TGC_CUR_ENTRY_ENTRY p) < 255 →
      (entryEnds (s.get (R.TGC_OPER_CYCLE_NS p)) 0 (s.operList p)).getD (s.get (R.TGC_CUR_ENTRY_ENTRY p)) 0 <
        s.get (R.TGC_OPER_CYCLE_NS p) → s.get (R.TGC_CUR_ENTRY_ENTRY p) < (s.operList p).length →
      Completes (exec (.gateEntryAdvance p) s) fun t =>
        SetsOnly s t (R.TGC_CUR_ENTRY_ENTRY p) (s.get (R.TGC_CUR_ENTRY_ENTRY p) + 1)) ∧
    ((s.gate p).resume = none → s.get (R.TGC_CUR_ENTRY_ENTRY p) + 1 = (s.operList p).length →
      Completes (exec (.gateEntryAdvance p) s) fun t =>
        t.get (R.TGC_CUR_ENTRY_ENTRY p) = 0 ∧ (t.gate p).cycleStart = (s.gate p).cycleStart + s.get (R.TGC_OPER_CYCLE_NS p) ∧
        SameRegsBut s t [(R.TGC_CUR_ENTRY_ENTRY p).addr]) ∧
    (∀ b, (s.gate p).resume = some b → Completes (exec (.gateEntryAdvance p) s) fun t =>
      t.get (R.TGC_CUR_ENTRY_ENTRY p) = 0 ∧ (t.gate p).cycleStart = b ∧ (t.gate p).resume = none))

/-- R153, R154, R157, R158, R161, R167 and R612. The places of the message's fields are those of IEEE 1588, which the spec only names.
Choices of the model: log entries 7 and 113. -/
def Obligations.DeviceTimeStepsSlewsAndStamps : Prop :=
  (∀ (s : State) (who : Sender), Serves s who R.TIM_STEP_CMD_CMD.addr →
    (s.stepAllowed = true → s.get R.TIM_STEP_NS_VALUE < 1000000000 → Completes (exec (.stepAbsolute who) s) fun t =>
      t.time.sec = s.get R.TIM_STEP_SEC_LO_SEC + s.get R.TIM_STEP_SEC_HI_SEC * 2 ^ 32 ∧ t.time.ns = s.get R.TIM_STEP_NS_VALUE ∧
      t.get R.TIM_STATUS_EPOCH = (s.get R.TIM_STATUS_EPOCH + 1) % 4 ∧ t.mem = s.mem) ∧
    (s.stepAllowed = false → Completes (exec (.stepAbsolute who) s) fun t =>
      t.time = s.time ∧ t.isSet R.TIM_STATUS_STEP_REFUSED = true ∧ t.get R.TIM_STATUS_EPOCH = s.get R.TIM_STATUS_EPOCH) ∧
    (∀ n : Nat, s.stepAllowed = true →
      ((s.time.sec * 1000000000 + s.time.ns : Nat) : Int) + signed 32 (s.get R.TIM_STEP_NS_VALUE) = n →
      Completes (exec (.stepOffset who) s) fun t =>
        t.time.sec = n / 1000000000 % 2 ^ 48 ∧ t.time.ns = n % 1000000000 ∧ t.time.frac = s.time.frac ∧
        t.get R.TIM_STATUS_EPOCH = (s.get R.TIM_STATUS_EPOCH + 1) % 4) ∧
    (((s.time.sec * 1000000000 + s.time.ns : Nat) : Int) + signed 32 (s.get R.TIM_STEP_NS_VALUE) < 0 →
      Completes (exec (.stepOffset who) s) fun t => t.time = s.time ∧ t.isSet R.TIM_STATUS_STEP_REFUSED = true)) ∧
  (∀ (s : State) (who : Sender) (v : Word), Serves s who R.TIM_SLEW_PPB.addr → Completes (exec (.timSlewWrite who v) s) fun t =>
    t.slew = max (-200000) (min 200000 v.toInt) ∧ t = { s with regs := t.regs } ∧
    (v.toInt < -200000 ∨ 200000 < v.toInt → t.isSet R.TIM_STATUS_SLEW_CLAMPED = true) ∧
    (-200000 ≤ v.toInt → v.toInt ≤ 200000 → SameRegsBut s t [R.TIM_SLEW_PPB.addr])) ∧
  (∀ (s : State) (who : Sender), Serves s who R.TIM_NS_NS.addr → Completes (exec (.timNsRead who) s) fun t =>
    t.out = .readDone who R.TIM_NS_NS.addr s.time.ns :: s.out ∧ t.get R.TIM_SEC_LO_SEC = s.time.sec % 2 ^ 32 ∧
    t.get R.TIM_SEC_HI_SEC = s.time.sec / 2 ^ 32 % 2 ^ 16 ∧ t = { s with regs := t.regs, out := t.out }) ∧
  (∀ s : State, s.isSet R.TIM_CTRL_PPS_DIR = true ∨ (∃ c, s.time.dirAt = some c ∧ s.cycle ≤ c + 150) →
    Completes (exec .ppsEdge s) fun t => SetsOnly s t R.FUS_PAD_IN_PPS 1) ∧
  (∀ s : State, s.isSet R.TIM_CTRL_PPS_DIR = false → (∀ c, s.time.dirAt = some c → c + 150 < s.cycle) → Completes (exec .ppsEdge s) fun t =>
    t.get R.TIM_PPS_CAPT_NS = s.time.ns % 2 ^ 30 ∧ t.time = { s.time with captSec := s.time.sec } ∧
    t.isSet R.TIM_STATUS_PPS_SEEN = true ∧ t = { s with regs := t.regs, time := t.time }) ∧
  (∀ (s : State) (c : Nat), s.isSet R.TIM_CTRL_PPS_DIR = true → s.time.sec ≠ s.time.ppsSec → s.time.ppsHigh = some c →
    Completes (exec .ppsOutRise s) fun t => t = { s with time := { s.time with ppsSec := s.time.sec } }) ∧
  (∀ s : State, s.isSet R.TIM_CTRL_PPS_DIR = true → s.time.sec ≠ s.time.ppsSec → s.time.ppsHigh = none → Completes (exec .ppsOutRise s) fun t =>
    t = { s with time := { s.time with ppsSec := s.time.sec, ppsHigh := some s.cycle }, out := .pin pinPps true :: s.out }) ∧
  (∀ (s : State) (c : Nat), s.time.ppsHigh = some c → c + s.get R.TIM_CTRL_PPS_WIDTH * msCycles ≤ s.cycle →
    Completes (exec .ppsOutFall s) fun t =>
      t = { s with time := { s.time with ppsHigh := none }, out := .pin pinPps false :: s.out }) ∧
  (∀ (s : State) (p : Fin 8) (f g : List Byte) (ty : BitVec 4) (dom : Byte) (sq : BitVec 16), g = ptpMessage f 14 ty dom sq →
    be f 12 2 = 0x88F7 → ty.toNat < 4 → 58 ≤ f.length →
    s.isSet (R.RLY_PnCTL_LOOPBACK p) = false →
    (s.portRuns p = false → ∀ o, Completes (exec (.ptpEventTx p o f ty dom sq) s) fun t => t = s) ∧
    (s.portRuns p = true → ty = 0 → Completes (exec (.ptpEventTx p true f ty dom sq) s) fun t =>
      t = { s with out := .frame p 0 (g.length + 4) (patch g 48 (natToOs 6 s.time.sec ++ natToOs 4 s.time.ns)) :: s.out }) ∧
    ∀ o, s.portRuns p = true → o = false ∨ ty ≠ 0 →
      ((s.txtsOf p).length < 64 → s.get (R.TIM_Pn_TX_LAT_NS p) = 0 → Completes (exec (.ptpEventTx p o f ty dom sq) s) fun t =>
        ∃ e, t.txtsOf p = s.txtsOf p ++ [e] ∧
          e.sec * 1000000000 + e.ns = (s.time.sec * 1000000000 + s.time.ns) % (2 ^ 48 * 1000000000) ∧ e.seqId = sq.toNat ∧
          e.msg = ty.toNat ∧ e.domain = dom.toNat ∧ t.out = .frame p 0 (g.length + 4) g :: s.out ∧ t.mem = s.mem ∧ t.ctr = s.ctr) ∧
      (64 ≤ (s.txtsOf p).length → Completes (exec (.ptpEventTx p o f ty dom sq) s) fun t =>
        t.txtsOf p = s.txtsOf p ∧ t = { s with regs := t.regs, out := .frame p 0 (g.length + 4) g :: s.out } ∧
        t.get (R.TIM_Pn_TXTS_OVF_COUNT p) = min (2 ^ 32 - 1) (s.get (R.TIM_Pn_TXTS_OVF_COUNT p) + 1))) ∧
  (∀ (s : State) (p : Fin 8) (f g : List Byte) (dom : Byte) (sq : BitVec 16), g = ptpMessage f 42 0 dom sq → be f 12 2 = 0x0800 → 86 ≤ f.length →
    s.isSet (R.RLY_PnCTL_LOOPBACK p) = false → s.portRuns p = true → Completes (exec (.ptpEventTx p true f 0 dom sq) s) fun t =>
      t = { s with out := .frame p 0 (g.length + 4) (patch (patch g 76 (natToOs 6 s.time.sec ++ natToOs 4 s.time.ns)) 40 [0, 0]) :: s.out }) ∧
  ∀ (s : State) (who : Sender) (p : Fin 8), Serves s who (R.TIM_Pn_TXTS_ID_VALID p).addr → Completes (exec (.txtsPop who p) s) fun t =>
    t.txtsOf p = (s.txtsOf p).tail ∧
    t.out = .readDone who (R.TIM_Pn_TXTS_ID_VALID p).addr (s.reg (R.TIM_Pn_TXTS_ID_VALID p).addr).toNat :: s.out ∧
    (s.txtsOf p = [] → t.isSet (R.TIM_Pn_TXTS_ID_VALID p) = false)

/-- R171, R176, R178, R184, R187, R189, R192, R193 and R196: a picture of a stream in NORMAL.
Choices of the model: log entries 36 to 39. -/
def Obligations.VideoDecodeRunsPictureByPicture : Prop :=
  (∀ (s : State) (v : Fin 16) (pic : PicInfo) (n : Nat) (k : Task) (au ctx b : Nat) (rest : List Nat),
    s.engineTask 0 v = some (n, k) → k.kind = 1 → s.vdeJob v = none → au = k.descAddr → ctx = s.le au 8 →
    s.ctxValid ctx = true → s.auValid au = true → s.poison = [] → ctx + 256 ≤ hbmBytes → (au + 64 ≤ ctx ∨ ctx + 256 ≤ au) →
    (s.ctxField ctx 0x21 1 ≠ 0 → Completes (exec (.decodeStart v pic) s) fun t => ∃ u : State,
      t = u.unitComplete n St.decCtxBad (0x3000 + v) [] ∧ u.vdes = s.vdes ∧
      u.counter (R.C_VDE_NOT_DECODED v) = (s.counter (R.C_VDE_NOT_DECODED v) + 1) % 2 ^ 64) ∧
    (s.ctxField ctx 0x21 1 = 0 → s.ctxField ctx 0x20 1 = 1 → (s.le (au + 0x12) 2).testBit 1 = false → pic.sets = [] → pic.existing = none →
      (pic.uses = [] → (s.atTarget ctx pic).layers = [] → Completes (exec (.decodeStart v pic) s) fun t => ∃ u : State,
        t = u.unitComplete n St.ok (0x3000 + v) [] ∧ u.vdes = s.vdes ∧ u.ctxField ctx 0x21 1 = 0 ∧ u.ctr = s.ctr) ∧
      (∀ x, pic.uses = [x] → SMap.find? (s.codec ctx).params x = none → outsideLimits (s.ctxField ctx 0 1) (s.atTarget ctx pic) = false →
        s.exceedsCtx ctx (s.atTarget ctx pic) = false → Completes (exec (.decodeStart v pic) s) fun t => ∃ u : State,
          t = u.unitComplete n St.decNoParam (0x3000 + v) [] ∧ u.vdes = s.vdes ∧ u.ctxField ctx 0x21 1 = 0 ∧ u.ctxField ctx 0x20 1 = 3 ∧
          u.counter (R.C_VDE_NOT_DECODED v) = (s.counter (R.C_VDE_NOT_DECODED v) + 1) % 2 ^ 64) ∧
      (pic.uses = [] → (s.atTarget ctx pic).layers ≠ [] → outsideLimits (s.ctxField ctx 0 1) (s.atTarget ctx pic) = false →
        s.exceedsCtx ctx (s.atTarget ctx pic) = false → pic.rasl = false → pic.refs = [] → pic.lists = [] → pic.gap = [] → pic.drops = [] →
        s.freeBufs ctx = b :: rest → Completes (exec (.decodeStart v pic) s) fun t =>
          (∃ j, t.vdeJob v = some j ∧ j.slot = n ∧ j.ctx = ctx ∧ j.au = au ∧ j.info = s.atTarget ctx pic ∧ j.buf = b ∧ j.state = 1 ∧
            j.strips = 0 ∧ j.attempt = 1 ∧ j.standins = 0 ∧ j.inject = SMap.get false s.injected v) ∧
          SMap.get false t.injected v = false ∧ t.isSet (R.VDE_STATUS_BUSY v) = true ∧ t.ctxField ctx 0x21 1 = v + 1 ∧
          markRole (t.mark ctx b) = 1 ∧
          t.get (R.VDE_CUR_BUDGET_CYCLES v) = s.vdeBudget v (s.atTarget ctx pic).samples (s.le (au + 0x14) 4) % 2 ^ 32 ∧
          SameMemoryBut s t ctx 256 ∧ t.hts = s.hts ∧ t.ctr = s.ctr))) ∧
  (∀ (s : State) (v : Fin 16) (j : VdeJob) (luma chroma lost : List Nat) (cycles : Nat), s.vdeJob v = some j →
    (s.get (R.VDE_CUR_BUDGET_CYCLES v) < cycles → Completes (exec (.stripPublished v luma chroma ⟨lost, cycles⟩) s) fun t => t = s) ∧
    (j.failing = false → s.isFenced Unit.vde v = false → j.strips < stripsOf j.info.height → cycles ≤ s.get (R.VDE_CUR_BUDGET_CYCLES v) →
      Completes (exec (.stripPublished v luma chroma ⟨lost, cycles⟩) s) fun t => ∃ u : State,
        t = u.publishStrip (s.taskId j.slot) (j.strips + 1) j.buf ∧
        u.vdeJob v = some { j with strips := j.strips + 1, concealed := j.concealed +
          (if j.recovery then (lost.filter fun x => x < ceilDiv j.info.width 16).eraseDups.length else 0) } ∧
        u.get (R.VDE_CUR_CYCLES_CYCLES v) = cycles % 2 ^ 32 ∧ u.hts = s.hts ∧ u.ctr = s.ctr)) ∧
  (∀ (s : State) (v : Fin 16) (j : VdeJob) (f : PicEnd), s.vdeJob v = some j → j.failing = false →
    s.isFenced Unit.vde v = false → f.cycles ≤ s.get (R.VDE_CUR_BUDGET_CYCLES v) → j.state = 1 → j.gap = false → j.standins = 0 →
    j.recovery = false → j.attempt = 1 → s.straysOf j f.strays = [] → s.poison = [] → j.ctx + 256 ≤ hbmBytes →
    (f.syntaxErr = false → j.runsPast = false → j.concealed = 0 → stripsOf j.info.height ≤ j.strips →
      Completes (exec (.decodeComplete v f) s) fun t => ∃ u : State,
        t = u.unitComplete j.slot St.ok (0x3000 + v) [] ∧ u.vdeJob v = none ∧ u.isSet (R.VDE_STATUS_BUSY v) = false ∧
        u.ctxField j.ctx 0x21 1 = 0 ∧ u.ctxField j.ctx 0x20 1 = 1 ∧ u.hts = s.hts ∧
        u.counter (R.C_VDE_PICS v) = (s.counter (R.C_VDE_PICS v) + 1) % 2 ^ 64 ∧
        u.counter (R.C_VDE_ABANDONED v) = s.counter (R.C_VDE_ABANDONED v)) ∧
    (f.syntaxErr = true → stripsOf j.info.height ≤ j.strips → Completes (exec (.decodeComplete v f) s) fun t => ∃ u : State,
        t = u.unitComplete j.slot St.decSyntax (0x3000 + v) [] ∧ u.vdeJob v = none ∧ u.ctxField j.ctx 0x21 1 = 0 ∧
        u.ctxField j.ctx 0x20 1 = 2 ∧ u.counter (R.C_VDE_ABANDONED v) = (s.counter (R.C_VDE_ABANDONED v) + 1) % 2 ^ 64))

/-- R182, R187, R188, R191 and R196.
Choices of the model: log entries 38 and 40. -/
def Obligations.VideoDecodeRetriesFillsAndReleases : Prop :=
  (∀ (s : State) (who : Sender) (e : Engine), Serves s who (injectAddr e) → Completes (exec (.injWd who e) s) fun t =>
    SMap.get false t.injected (consumer (engineUnit e).1 (engineUnit e).2) = true ∧ t = { s with injected := t.injected } ∧
    ∀ k, k ≠ consumer (engineUnit e).1 (engineUnit e).2 → SMap.get false t.injected k = SMap.get false s.injected k) ∧
  (∀ (s : State) (v : Fin 16) (j : VdeJob) (cycles : Nat), s.vdeJob v = some j → s.isFenced Unit.vde v = false → s.endsNow 0 v = false →
    (j.failing = false → cycles ≤ s.get (R.VDE_CUR_BUDGET_CYCLES v) → Completes (exec (.vdeWatchdogExpiry v cycles) s) fun t => t = s) ∧
    (j.failing = true ∨ s.get (R.VDE_CUR_BUDGET_CYCLES v) < cycles →
    (j.attempt = 1 → Completes (exec (.vdeWatchdogExpiry v cycles) s) fun t =>
      t.vdeJob v = some { j with attempt := 2 } ∧ t.mem = s.mem ∧ t.hts = s.hts ∧
      t.counter (R.C_VDE_BUSY_CYCLES v) = (s.counter (R.C_VDE_BUSY_CYCLES v) + cycles) % 2 ^ 64 ∧
      SameCountersBut s t [R.C_VDE_BUSY_CYCLES v]) ∧
    (j.attempt = 2 → Completes (exec (.vdeWatchdogExpiry v cycles) s) fun t => ∃ u : State,
      t = u.loseUnit 0 v ∧ u.isFenced Unit.vde v = true ∧ u.isSet (R.VDE_STATUS_BUSY v) = false ∧
      u.isSet (R.VDE_STATUS_FENCED v) = true ∧ u.hts = s.hts ∧ u.mem = s.mem))) ∧
  (∀ (s : State) (v w : Fin 16) (n : Nat) (k : Task) (j : VdeJob) (cycles : Nat), s.engineTask 0 v = some (n, k) → k.kind = 2 →
    v ≠ w → s.vdeJob v = none → s.ctxField (s.le k.descAddr 8) 0x21 1 = w + 1 → s.vdeJob w = some j → s.isFenced Unit.vde w = true →
    j.slot = n → j.ctx = s.le k.descAddr 8 → s.poison = [] → j.ctx + 256 ≤ hbmBytes →
    Completes (exec (.decodeFill v ⟨[], cycles⟩) s) fun t => ∃ u : State,
      t = u.unitComplete n St.unitFenced (0x3000 + v) [] ∧ u.vdeJob w = none ∧ u.ctxField j.ctx 0x21 1 = 0 ∧
      u.ctxField j.ctx 0x20 1 = 2 ∧ u.counter (R.C_VDE_ABANDONED v) = (s.counter (R.C_VDE_ABANDONED v) + 1) % 2 ^ 64) ∧
  (∀ (s : State) (who : Sender) (a : Nat), a + 4 ≤ hbmBytes → s.poison = [] →
    (0 < markHold (s.le a 4) → Completes (exec (.holdRelease who a) s) fun t =>
      markHold (t.le a 4) = markHold (s.le a 4) - 1 ∧ markRole (t.le a 4) = markRole (s.le a 4) ∧ SameMemoryBut s t a 4 ∧
      t.regs = s.regs ∧ t.ctr = s.ctr) ∧
    (markHold (s.le a 4) = 0 → Completes (exec (.holdRelease who a) s) fun t => t.mem = s.mem)) ∧
  ∀ (s : State) (ctx c : Nat), (s.codec ctx).asked = some c → c + secCycles ≤ s.cycle → s.ctxField ctx 0x20 1 ≠ 1 →
    Completes (exec (.firResend ctx) s) fun t =>
      t.out = .firmware 4 [ctx] :: s.out ∧ (t.codec ctx).asked = some s.cycle ∧ t = { s with codecs := t.codecs, out := t.out }

/-- R202, R209 to R211, R227 and R228.
Choices of the model: log entries 41 to 43. -/
def Obligations.ComposeEnginesRunPassesStripByStrip : Prop :=
  (∀ (s : State) (c : Fin 4) (n : Nat) (k : Task) (j : CmpJob), s.engineTask 2 c = some (n, k) → s.cmpJob c = none →
    j = s.readPass n k.descAddr →
    (k.kind = 3 → (passOk j.desc && j.layers.all s.layerOk) = false → Completes (exec (.composePass c) s) fun t => ∃ u : State,
      t = u.unitComplete n St.cmpDescBad (0x3020 + c) [] ∧ u.cmps = s.cmps ∧ u.hts = s.hts ∧ u.regs = s.regs ∧
      u.counter (R.C_CMP_REFUSED c) = (s.counter (R.C_CMP_REFUSED c) + 1) % 2 ^ 64) ∧
    (k.kind = 3 → (passOk j.desc && j.layers.all s.layerOk) = true → j.layers.all scaleOk = false →
      Completes (exec (.composePass c) s) fun t => ∃ u : State,
      t = u.unitComplete n St.cmpScale (0x3020 + c) [] ∧ u.cmps = s.cmps ∧ u.hts = s.hts ∧
      u.counter (R.C_CMP_REFUSED c) = (s.counter (R.C_CMP_REFUSED c) + 1) % 2 ^ 64) ∧
    (k.kind = 3 → (passOk j.desc && j.layers.all s.layerOk) = true → j.layers.all scaleOk = true →
      Completes (exec (.composePass c) s) fun t =>
        t.cmpJob c = some { j with inject := s.armed 2 c } ∧ t.injected = (s.disarm 2 c).injected ∧
        t.isSet (R.CMP_STATUS_BUSY c) = true ∧ t.mem = s.mem ∧ t.hts = s.hts ∧ t.ctr = s.ctr ∧
        t.get (R.CMP_CUR_BUDGET_CYCLES c) = min (2 ^ 32 - 1)
          (s.get (R.CMP_WD_SCALE_SCALE c) * (50000 + (passSize j.desc).1 * (passSize j.desc).2))) ∧
    (k.kind = 4 → ∀ l i cycles, s.lostPass n = some (i, l) → i ≠ c.val → passOk l.desc = true →
      Completes (exec (.composeFill c cycles) s) fun t => ∃ u : State,
        t = u.unitComplete n St.unitFenced (0x3020 + c) l.drawn ∧ u.cmpJob i = none ∧ (l.strips = stripsOf (passSize l.desc).2 → u.hts = s.hts))) ∧
  (∀ (s : State) (c : Fin 4) (j : CmpJob), s.cmpJob c = some j → j.failing = false → s.isFenced Unit.cmp c = false →
    (j.strips < stripsOf (passSize j.desc).2 → (∀ i, i < j.layers.length → (s.layerSource j i j.strips).isSome = true) →
      Completes (exec (.composeStrip c) s) fun t => ∃ u : State,
        t = u.publishStrip (s.taskId j.slot) (j.strips + 1) 0 ∧ u.hts = s.hts ∧ u.ctr = s.ctr ∧
        ∃ j', u.cmpJob c = some j' ∧ j'.strips = j.strips + 1 ∧ j'.desc = j.desc ∧ j'.layers = j.layers) ∧
    (∀ i, i < j.layers.length → s.layerSource j i j.strips = none → Completes (exec (.composeStrip c) s) fun t => t = s) ∧
    (∀ cycles waits, stripsOf (passSize j.desc).2 ≤ j.strips → cycles ≤ s.get (R.CMP_CUR_BUDGET_CYCLES c) → j.attempt = 1 →
      Completes (exec (.composeComplete c cycles waits) s) fun t => ∃ u : State,
        t = u.unitComplete j.slot St.ok (0x3020 + c) j.drawn ∧ u.cmpJob c = none ∧ u.isSet (R.CMP_STATUS_BUSY c) = false ∧ u.hts = s.hts ∧
        u.counter (R.C_CMP_PASSES c) = (s.counter (R.C_CMP_PASSES c) + 1) % 2 ^ 64)) ∧
  ∀ (s : State) (c : Fin 4) (j : CmpJob) (cycles : Nat), s.cmpJob c = some j → s.isFenced Unit.cmp c = false →
    s.endsNow 2 c = false →
    (j.failing = false → cycles ≤ s.get (R.CMP_CUR_BUDGET_CYCLES c) → (∀ a, cmpWindow j.desc a = true →
      Completes (exec (.cmpWatchdogExpiry c cycles (some a)) s) fun t => t = s) ∧
      Completes (exec (.cmpWatchdogExpiry c cycles none) s) fun t => t = s) ∧
    (∀ a, cmpWindow j.desc a = false → j.attempt = 1 → Completes (exec (.cmpWatchdogExpiry c cycles (some a)) s) fun t =>
      t.cmpJob c = some { j with attempt := 2 } ∧ t.mem = s.mem ∧ t.hts = s.hts ∧
      t.pair (R.CMP_BOUNDS_LAST_LO_ADDR c) (R.CMP_BOUNDS_LAST_HI_ADDR c) = a % 2 ^ 64 ∧
      t.counter (R.C_CMP_BOUNDS_BLOCKED c) = (s.counter (R.C_CMP_BOUNDS_BLOCKED c) + 1) % 2 ^ 64) ∧
    (j.failing = true ∨ s.get (R.CMP_CUR_BUDGET_CYCLES c) < cycles → j.attempt = 1 →
      Completes (exec (.cmpWatchdogExpiry c cycles none) s) fun t =>
      t.cmpJob c = some { j with attempt := 2 } ∧ t.mem = s.mem ∧ t.hts = s.hts ∧
      CountsOnly s { t with cmps := s.cmps, regs := s.regs } (R.C_CMP_BUSY_CYCLES c) cycles) ∧
    (s.get (R.CMP_CUR_BUDGET_CYCLES c) < cycles → j.attempt = 2 → Completes (exec (.cmpWatchdogExpiry c cycles none) s) fun t => ∃ u : State,
      t = u.loseUnit 2 c ∧ u.isFenced Unit.cmp c = true ∧ u.isSet (R.CMP_STATUS_BUSY c) = false ∧ u.hts = s.hts ∧ u.mem = s.mem)

/-- R214 to R221, R224, R227, R228.
Choices of the model: log entries 36 and 44. -/
def Obligations.EncodeEnginesHoldTheCap : Prop :=
  (∀ (s : State) (v : Fin 16) (sets : List (List Byte)) (d c e hdr : List Byte) (n ctx : Nat) (k : Task) (j : VeeJob) (ok : Bool),
    s.engineTask 1 v = some (n, k) → s.veeJob v = none → d = s.bytes k.descAddr 64 → ctx = fieldOf d 0 8 → c = s.bytes ctx 0x30 →
    e = s.bytes (k.descAddr + 64) 64 → (k.kind = 5 ∨ k.kind = 6 ∧ SMap.get false s.fw.waiting (fieldOf e 2 2) = false) →
    j = { s.planPicture n k sets with inject := s.armed 1 v } → hdr = picturePrefix (fieldOf c 0 1) j.intra sets →
    ok = (encOk c && ctx % 256 == 0 && s.le (ctx + 0x41) 1 == 0 && fieldOf d 0x30 8 % 64 == 0 &&
      (k.kind == 5 || (s.tileOk e && s.tileCtxOk c e))) →
    (ok = false → Completes (exec (.encodeStart v sets) s) fun t => ∃ u : State,
      t = u.unitComplete n St.encCtxBad (0x3010 + v) [] ∧ u.vees = s.vees ∧ u.hts = s.hts ∧ u.encs = s.encs ∧
      u.counter (R.C_VEE_NOT_CODED v) = (s.counter (R.C_VEE_NOT_CODED v) + 1) % 2 ^ 64) ∧
    (ok = true →
      (fieldOf d 0x28 4 < j.cap + 512 → Completes (exec (.encodeStart v sets) s) fun t => ∃ u : State,
        t = u.unitComplete n St.encOutSmall (0x3010 + v) [] ∧ u.vees = s.vees ∧ u.hts = s.hts ∧
        u.counter (R.C_VEE_NOT_CODED v) = (s.counter (R.C_VEE_NOT_CODED v) + 1) % 2 ^ 64) ∧
      (j.cap + 512 ≤ fieldOf d 0x28 4 → hdr.length ≤ fieldOf d 0x28 4 → s.poison = [] → ctx + 256 ≤ hbmBytes →
        (fieldOf d 0x20 8 + hdr.length ≤ ctx ∨ ctx + 256 ≤ fieldOf d 0x20 8) → Completes (exec (.encodeStart v sets) s) fun t =>
          t.veeJob v = some j ∧ t.le (ctx + 0x41) 1 = v + 1 ∧ t.isSet (R.VEE_STATUS_BUSY v) = true ∧ t.injected = (s.disarm 1 v).injected ∧
          t.get (R.VEE_CUR_BUDGET_CYCLES v) = min (2 ^ 32 - 1) (s.get (R.VEE_WD_SCALE_SCALE v) * (100000 + 2 * encSamples c)) ∧
          t.hts = s.hts ∧ t.ctr = s.ctr) ∧
      (j.cap + 512 ≤ fieldOf d 0x28 4 → fieldOf d 0x28 4 < hdr.length → Completes (exec (.encodeStart v sets) s) fun t =>
        t.veeJob v = some j.again ∧ t.hts = s.hts ∧ ∀ a, fieldOf d 0x20 8 + fieldOf d 0x28 4 ≤ a → a ≠ ctx + 0x41 → t.byte a = s.byte a))) ∧
  (∀ (s : State) (v : Fin 16) (j : VeeJob) (coded trunc : List Byte) (units : List PredUnit) (left bound : Nat) (tile : Bool),
    s.veeJob v = some j → j.failing = false → s.isFenced Unit.vee v = false → j.rows.length < encRows j.cfg →
    s.rowReady j j.rows.length = true → left = encRows j.cfg - j.rows.length - 1 → tile = s.isTile j.slot →
    bound = skipBound j.cfg j.intra tile → trunc.length ≤ bound →
    (tile = true → (units.any fun u => !unitInside u (fieldOf j.cfg 2 2) (fieldOf j.cfg 4 2)) = true →
      Completes (exec (.encodeRow v ⟨coded, units⟩ trunc) s) fun t => t = s) ∧
    ((tile = true → (units.all fun u => unitInside u (fieldOf j.cfg 2 2) (fieldOf j.cfg 4 2)) = true) →
      j.spent + max coded.length trunc.length ≤ fieldOf j.desc 0x28 4 →
      Completes (exec (.encodeRow v ⟨coded, units⟩ trunc) s) fun t => t.ctr = s.ctr ∧ t.hts = s.hts ∧ t.encs = s.encs ∧
      ∃ j' r, t.veeJob v = some j' ∧ j'.rows = j.rows ++ [r] ∧ j'.spent = j.spent + r.bytes ∧
        (j.cutFrom = none → j.spent + coded.length + left * bound ≤ j.cap → r.bytes = coded.length ∧ r.cut = none ∧ j'.cutFrom = none) ∧
        (j.cutFrom = none → j.cap < j.spent + coded.length + left * bound → r.bytes = trunc.length ∧
          r.cut = some (skippedAs (fieldOf j.cfg 0 1) j.intra tile) ∧ j'.cutFrom = some j.rows.length) ∧
        (∀ i, j.cutFrom = some i → r.bytes = trunc.length ∧ r.cut = some (skippedAs (fieldOf j.cfg 0 1) j.intra tile) ∧ j'.cutFrom = some i) ∧
        (j.spent + (left + 1) * bound ≤ j.cap → j'.spent + left * bound ≤ j.cap))) ∧
  (∀ (s : State) (v : Fin 16) (j : VeeJob) (units : List Nat) (cycles : Nat), s.veeJob v = some j → s.isFenced Unit.vee v = false →
    s.poison = [] → j.ctx + 256 ≤ hbmBytes →
    (j.failing = false → cycles ≤ s.get (R.VEE_CUR_BUDGET_CYCLES v) → s.unitsOk j units = true →
      encRows j.cfg ≤ j.rows.length → units.foldl (fun v n => v + n + (if fieldOf j.cfg 0 1 == 3 then 0 else 4)) 0 = j.spent → j.attempt = 1 →
      s.isTile j.slot = false → Completes (exec (.encodeComplete v units cycles) s) fun t => ∃ u : State,
        t = u.unitComplete j.slot St.ok (0x3010 + v) [] ∧ u.veeJob v = none ∧ u.le (j.ctx + 0x41) 1 = 0 ∧ u.le (j.ctx + 0x40) 1 = 1 ∧
        u.isSet (R.VEE_STATUS_BUSY v) = false ∧ u.hts = s.hts ∧
        u.counter (R.C_VEE_PICS v) = (s.counter (R.C_VEE_PICS v) + 1) % 2 ^ 64) ∧
    (s.endsNow 1 v = false → j.failing = true ∨ s.get (R.VEE_CUR_BUDGET_CYCLES v) < cycles → j.attempt = 1 →
      Completes (exec (.veeWatchdogExpiry v cycles none) s) fun t =>
      t.veeJob v = some j.again ∧ t.mem = s.mem ∧ t.hts = s.hts ∧ SameCountersBut s t [R.C_VEE_BUSY_CYCLES v]) ∧
    (s.endsNow 1 v = false → s.get (R.VEE_CUR_BUDGET_CYCLES v) < cycles → j.attempt = 2 → Completes (exec (.veeWatchdogExpiry v cycles none) s) fun t => ∃ u : State,
      t = u.loseUnit 1 v ∧ u.isFenced Unit.vee v = true ∧ u.veeJob v = none ∧ u.le (j.ctx + 0x41) 1 = 0 ∧ u.encs = s.encs ∧ u.hts = s.hts ∧
      u.counter (R.C_VEE_NOT_CODED v) = (s.counter (R.C_VEE_NOT_CODED v) + 1) % 2 ^ 64)) ∧
  ∀ (s : State) (e : Fin 16384) (desc : Nat), desc + 64 ≤ hbmBytes → s.poison = [] → Completes (exec (.encForceIntra e desc) s) fun t =>
    t.le (desc + 0x2C) 2 = (s.le (desc + 0x2C) 2 ||| 1) ∧ SameMemoryBut s t (desc + 0x2C) 2 ∧ t.obj 0x504007 e 0 = 0 ∧ t.regs = s.regs ∧ t.ctr = s.ctr

/-- R225, R245 to R253, R260 to R262. The payload formats are PRESUMED (log entries 45 to 47), their size and spreading are the spec's. -/
def Obligations.SplicedPicturesAreBuiltAndSpread : Prop :=
  ((∀ (s : State) (n v : Nat) (k : Task) (d : List Byte), s.engineTask 3 0 = some (n, k) → s.tsp = none → d = s.bytes k.descAddr 64 →
    v = fieldOf d 0 8 →
    (s.spliceOk d = false → Completes (exec .spliceStart s) fun t => ∃ u : State, t = u.unitComplete n St.splDescBad 0x3024 [] ∧ u.tsp = none ∧
      u.hts = s.hts ∧ u.counter R.C_TSP_REFUSED = (s.counter R.C_TSP_REFUSED + 1) % 2 ^ 64) ∧
    (s.spliceOk d = true → s.le (v + 3) 1 ≠ 0 → timeAfter (fieldOf d 0x1C 4) (s.le (v + 4) 4) = false →
      Completes (exec .spliceStart s) fun t => ∃ u : State, t = u.unitComplete n St.splTickBad 0x3024 [] ∧ u.tsp = none ∧ u.hts = s.hts) ∧
    (s.spliceOk d = true → s.le (v + 3) 1 = 0 → fieldOf d 0x18 4 < (s.planSplice n k.descAddr d).room →
      Completes (exec .spliceStart s) fun t => ∃ u : State, t = u.unitComplete n St.splOutSmall 0x3024 [] ∧ u.tsp = none ∧ u.hts = s.hts) ∧
    (s.spliceOk d = true → s.le (v + 3) 1 = 0 ∨ timeAfter (fieldOf d 0x1C 4) (s.le (v + 4) 4) = true →
      (s.planSplice n k.descAddr d).room ≤ fieldOf d 0x18 4 → s.poison = [] → v + 512 ≤ hbmBytes → Completes (exec .spliceStart s) fun t =>
        t.tsp = some { s.planSplice n k.descAddr d with inject := s.armed 3 0 } ∧ t.injected = (s.disarm 3 0).injected ∧ t.le (v + 2) 1 = 1 ∧ t.isSet R.TSP_STATUS_BUSY = true ∧ SameMemoryBut s t (v + 2) 1 ∧
        t.hts = s.hts ∧ t.ctr = s.ctr)) ∧
  (∀ (s : State) (l : LayoutSlot) (side tick : Nat) (idr : Bool) (h : HeldCell), (s.slotContent l side tick idr h).kind = 0 →
    idr = false ∧ h.tier = l.tier ∧ h.bg = false ∧ h.tset = l.tset ∧ h.gen = s.le (s.tsetAddr l.tset) 2 ∧
    (s.slotContent l side tick idr h).held.seq = (h.seq + 1) % 2 ^ 32 ∧ (s.slotContent l side tick idr h).wanted = h.dirty) ∧
  (∀ (s : State) (j : TspJob) (cycles v : Nat), s.tsp = some j → s.isFenced Unit.tsp 0 = false → v = fieldOf j.desc 0 8 →
    (j.failing = false → cycles ≤ s.get R.TSP_CUR_BUDGET_CYCLES → j.attempt = 1 → j.held.length = 36 → s.poison = [] → v + 512 ≤ hbmBytes →
      (v + 512 ≤ fieldOf j.desc 0x20 8 ∨ fieldOf j.desc 0x20 8 + 64 ≤ v) → Completes (exec (.spliceComplete cycles) s) fun t => ∃ u : State,
        t = u.unitComplete j.slot St.ok 0x3024 [] ∧ u.tsp = none ∧ u.le (v + 2) 1 = 0 ∧ u.le (v + 3) 1 = 1 ∧ u.le (v + 8) 4 = j.poc % 2 ^ 32 ∧
        u.le (v + 0xC) 4 = (j.pics + 1) % 2 ^ 32 ∧
        u.isSet R.TSP_STATUS_BUSY = false ∧ u.counter R.C_TSP_PICS = (s.counter R.C_TSP_PICS + 1) % 2 ^ 64 ∧
        u.counter R.C_TSP_SLICES = (s.counter R.C_TSP_SLICES + j.slices.length) % 2 ^ 64 ∧ u.hts = s.hts) ∧
    (s.endsNow 3 0 = false → j.failing = true ∨ s.get R.TSP_CUR_BUDGET_CYCLES < cycles → j.attempt = 1 →
      Completes (exec (.tspWatchdogExpiry cycles none) s) fun t =>
      t.tsp = some { j with attempt := 2 } ∧ t.mem = s.mem ∧ t.hts = s.hts ∧ t.ctr = s.ctr) ∧
    (s.endsNow 3 0 = false → s.get R.TSP_CUR_BUDGET_CYCLES < cycles → j.attempt = 2 → s.poison = [] → v + 512 ≤ hbmBytes →
      Completes (exec (.tspWatchdogExpiry cycles none) s) fun t => ∃ u : State,
      t = (u.loseUnit 3 0).unstitch ∧ u.tsp = none ∧ u.isFenced Unit.tsp 0 = true ∧ u.isSet R.TSP_STATUS_FENCED = true ∧
      u.le (v + 2) 1 = 0 ∧ SameMemoryBut s u (v + 2) 1 ∧ u.hts = s.hts)) ∧
  ∀ (s : State) (tset tick desc first : Nat), first = (s.le (s.tsetAddr tset + 0x28) 4 + s.obj 0x506004 0 8) % 2 ^ 32 →
    desc + 64 ≤ hbmBytes → s.poison = [] → s.le (s.tsetAddr tset + 4) 4 ≠ 0 →
    ((tick = first ∨ timeAfter tick first = true) → tick < 2 ^ 32 → Completes (exec (.entryTileRequest tset tick desc) s) fun t =>
      t.le (desc + 0x2C) 2 = (s.le (desc + 0x2C) 2 ||| 1) ∧ SameMemoryBut s t (desc + 0x2C) 2 ∧ t.regs = s.regs ∧
      SMap.get false t.fw.waiting tset = false) ∧
    (tick ≠ first → timeAfter tick first = false → tick < 2 ^ 32 → Completes (exec (.entryTileRequest tset tick desc) s) fun t =>
      t = { s with fw := { s.fw with waiting := t.fw.waiting } } ∧ SMap.get false t.fw.waiting tset = true)) ∧
  ((∀ (s : State) (leg : Fin 16384) (codec : Fin 4) (record bits frameUs : Nat) (groups : List Nat),
    ((s.le (record + 2) 2).testBit 5 = true → Completes (exec (.packetize leg codec record bits frameUs groups) s) fun t => t = s) ∧
    (leg < s.legLimit → (s.le (record + 2) 2).testBit 5 = false → 500 ≤ s.obj 0x505002 leg 1200 →
      Completes (exec (.packetize leg codec record bits frameUs groups) s) fun t => ∃ made : List PacedPacket,
        t = { s with fw := { s.fw with paced := s.fw.paced ++ made } } ∧
        ∀ p ∈ made, p.leg = leg ∧ p.payload.length ≤ s.obj 0x505002 leg 1200 ∧ s.cycle ≤ p.due ∧
          p.due ≤ s.cycle + min (s.obj 0x505001 leg 500) (frameUs / 2) * usCycles)) ∧
  ∀ (s : State) (leg : Fin 16384) (stream : BitVec 16) (cls : Fin 8) (header : List Byte) (p : PacedPacket) (before after : List PacedPacket),
    s.fw.paced = before ++ p :: after → p.leg = leg → (∀ q ∈ before, q.leg ≠ leg) →
    (s.cycle < p.due → Completes (exec (.pacePacket leg stream cls header) s) fun t => t = s) ∧
    (p.due ≤ s.cycle → Completes (exec (.pacePacket leg stream cls header) s) fun t => ∃ m : Byte,
      t = { s with fw := { s.fw with paced := before ++ after } }.injectRtp stream.toNat cls (patch header 1 [m] ++ p.payload) ∧
      m.toNat % 128 = (header.getD 1 0).toNat % 128 ∧ m.toNat.testBit 7 = p.marker))

/-- R277, R280, R281. -/
def Obligations.SetAndSwapCommandsChangeWhatTheyName : Prop :=
  (∀ (s : State) (who : Sender) (b : Nat), Serves s who R.MXM_SET_CMD_OP.addr → s.holds mxmPort who = true →
    s.isSet R.MXM_CMD_RESULT_BUSY = false → b = s.get R.MXM_SET_SEL_BUS →
    (∀ x ∈ [(Instr.load who, s.shadowSet b), (.readActive who, s.activeSet b)], Completes (exec x.1 s) fun t =>
      (∀ i, i < 72 → t.get (R.MXM_SET_DATA_DATA i) = setField x.2 (4 * i) 4) ∧ t.mxm = { s.mxm with job := some (0, false) } ∧
      t = { s with regs := t.regs, mxm := t.mxm } ∧ t.isSet R.MXM_CMD_RESULT_BUSY = true ∧
      ∀ a, a ≠ R.MXM_CMD_RESULT_BUSY.addr → (∀ i, i < 72 → a ≠ (R.MXM_SET_DATA_DATA i).addr) → t.reg a = s.reg a) ∧
    (setValid b s.setInHand = true → s.swapPending b = false → Completes (exec (.store who) s) fun t =>
      t.shadowSet b = s.setInHand ∧ (∀ c, c ≠ b → t.shadowSet c = s.shadowSet c) ∧
      t.mxm = { s.mxm with shadow := t.mxm.shadow, job := some (0, false) } ∧ t = { s with regs := t.regs, mxm := t.mxm } ∧
      SameRegsBut s t [R.MXM_CMD_RESULT_BUSY.addr]) ∧
    (setValid b s.setInHand = false → Completes (exec (.store who) s) fun t => t.mxm = { s.mxm with job := some (1, false) }) ∧
    (setValid b s.setInHand = true → s.swapPending b = true → Completes (exec (.store who) s) fun t =>
      t.mxm = { s.mxm with job := some (2, false) })) ∧
  (∀ (s : State) (who : Sender) (count : BitVec 7) (tag : BitVec 16) (bs : List Nat), Serves s who R.MXM_SWAP_CMD_COUNT.addr →
    s.holds mxmPort who = true → s.isSet R.MXM_CMD_RESULT_BUSY = false →
    bs = (List.range (min 64 count.toNat)).map (fun k => s.get (R.MXM_SWAP_LIST_BUS k)) →
    (0 < count.toNat → count.toNat ≤ 64 → bs.Nodup → (∀ b ∈ bs, b ≤ 4095 ∧ s.swapPending b = false) →
      Completes (exec (.swapCommit who count false tag) s) fun t =>
        t.mxm = { s.mxm with waiting := s.mxm.waiting ++ [⟨bs, tag.toNat, s.mxm.next * 480⟩], job := some (0, false) } ∧
        t.isSet R.MXM_CMD_RESULT_BUSY = true ∧ t = { s with regs := t.regs, mxm := t.mxm }) ∧
    (count.toNat = 0 ∨ 64 < count.toNat ∨ ¬ bs.Nodup → ∀ at_, Completes (exec (.swapCommit who count at_ tag) s) fun t =>
      t.mxm = { s.mxm with job := some (3, false) }) ∧
    (0 < count.toNat → count.toNat ≤ 64 → bs.Nodup → (∀ b ∈ bs, b ≤ 4095) → (∃ b ∈ bs, s.swapPending b = true) →
      ∀ at_, Completes (exec (.swapCommit who count at_ tag) s) fun t => t.mxm = { s.mxm with job := some (2, false) })) ∧
  (∀ (s : State) (r : Nat) (late : Bool), s.mxm.job = some (r, late) → Completes (exec .mxmCommandDone s) fun t =>
    t.isSet R.MXM_CMD_RESULT_BUSY = false ∧ t.get R.MXM_CMD_RESULT_RESULT = r % 8 ∧ t.isSet R.MXM_CMD_RESULT_LATE = late ∧
    t.mxm = { s.mxm with job := none } ∧ SameRegsBut s t [R.MXM_CMD_RESULT_BUSY.addr]) ∧
  ∀ (s : State) (who : Sender), s.holds mxmPort who = false ∨ s.isSet R.MXM_CMD_RESULT_BUSY = true →
    (Serves s who R.MXM_SET_CMD_OP.addr → ∀ c ∈ [Instr.load who, .store who, .readActive who], Completes (exec c s) fun t =>
      SetsOnly s t R.MXM_STATUS_CMD_IGNORED 1) ∧
    (Serves s who R.MXM_SWAP_CMD_COUNT.addr → ∀ count at_ tag, Completes (exec (.swapCommit who count at_ tag) s) fun t =>
      SetsOnly s t R.MXM_STATUS_CMD_IGNORED 1)

/-- R278, R281, R282, R291. The sign of 0 counts as a sign of its own (log entry 49).
Choices of the model: log entries 49 and 50. -/
def Obligations.SwapsApplyWholeAndGainsStep : Prop :=
  (∀ (s : State) (g : SwapGroup), s.mxm.waiting = [g] →
    (s.mixes = true → g.target ≤ s.mxm.next * 480 → (∀ b ∈ g.buses, (s.bus b).steps = []) → Completes (exec .swapApply s) fun t =>
      (∀ b ∈ g.buses, t.activeSet b = s.shadowSet b) ∧ (∀ b, b ∉ g.buses → t.activeSet b = s.activeSet b ∧ t.bus b = s.bus b) ∧
      t.mxm.shadow = s.mxm.shadow ∧ t.mxm.waiting = [] ∧ t.mxm.sources = s.mxm.sources ∧
      t.counter R.C_MXM_SWAPS = (s.counter R.C_MXM_SWAPS + 1) % 2 ^ 64) ∧
    (s.mixes = false ∨ s.mxm.next * 480 < g.target ∨ (∃ b ∈ g.buses, (s.bus b).steps ≠ []) →
      Completes (exec .swapApply s) fun t => t = s)) ∧
  (∀ (s : State) (b : Fin 4096) (k : Nat) (st : MixStep) (before now : Int), (s.bus b).steps[k]? = some st → s.mixes = true →
    (st.from_ ≤ s.mxm.next * 480 → now = 0 ∨ now.sign ≠ before.sign → Completes (exec (.gainStep b k before now) s) fun t =>
      t.bus b = (s.bus b).make st ∧ (∀ c, c ≠ b.val → t.bus c = s.bus c) ∧ (t.bus b).steps = (s.bus b).steps.erase st ∧
      (st.source = none → (t.bus b).out = st.goal) ∧ t.mxm.active = s.mxm.active ∧
      t.counter R.C_MXM_STEPS_TIMEOUT = s.counter R.C_MXM_STEPS_TIMEOUT) ∧
    (s.mxm.next * 480 < st.from_ ∨ (now ≠ 0 ∧ now.sign = before.sign) → Completes (exec (.gainStep b k before now) s) fun t => t = s) ∧
    (st.limit ≤ s.mxm.next * 480 → Completes (exec (.stepTimeout b k) s) fun t =>
      t.bus b = (s.bus b).make st ∧ (∀ c, c ≠ b.val → t.bus c = s.bus c) ∧
      t.counter R.C_MXM_STEPS_TIMEOUT = (s.counter R.C_MXM_STEPS_TIMEOUT + 1) % 2 ^ 64) ∧
    (s.mxm.next * 480 < st.limit → Completes (exec (.stepTimeout b k) s) fun t => t = s)) ∧
  (∀ (s : State) (who : Sender), Serves s who R.MXM_CTRL_ENABLE.addr → Completes (exec (.mixDisable who) s) fun t =>
    t.isSet R.MXM_CTRL_ENABLE = false ∧ t.mxm.waiting = [] ∧ t.mxm.stepping = [] ∧ (∀ b, (t.bus b).steps = []) ∧
    (∀ b n, n < 0x1684 → t.areaByte (b * 0x2000 + n) = if n = 0x1680 ∨ n = 0x1681 then 127 else 0) ∧
    t = { s with regs := t.regs, mxm := t.mxm } ∧ SameRegsBut s t [R.MXM_CTRL_ENABLE.addr] ∧
    t.mxm.active = s.mxm.active ∧ t.mxm.shadow = s.mxm.shadow ∧ t.mxm.sources = s.mxm.sources) ∧
  ∀ (s : State) (p m : MixBus) (xs : FrameInputs) (i : Nat), s.bus m.parent = p → p.mode = 1 → m.mode = 2 →
    (p.terms.map Prod.fst).Nodup → (m.terms.map Prod.fst).Nodup → (∀ k ∈ m.terms, k.2 = 1) → -(2 ^ 39 - 1) ≤ p.sum xs i → p.sum xs i ≤ 2 ^ 39 - 1 →
    s.busSum m xs i = some (MixBus.sum { p with terms := p.terms.filter fun k => !(m.terms.any fun e => e.1 == k.1) } xs i)

/-- R273 to R276, R279, R289.
Choices of the model: log entries 51 and 52. -/
def Obligations.MixFramesKeepTheirClock : Prop :=
  (∀ s : State, (s.cycle < s.mxm.tfNext ∨ s.island 40 ≠ .awake → Completes (exec .frameStart s) fun t => t = s) ∧
    (s.mxm.tfNext ≤ s.cycle → s.island 40 = .awake → Completes (exec .frameStart s) fun t => ∃ u : State,
      t = (u.fireEvent 1 (s.mxm.began % 2 ^ 32)).frameIrq ∧ u.mxm.began = s.mxm.began + 1 ∧ u.mxm.tf = s.mxm.tfNext ∧
      u.mxm.tfNext = s.mxm.tfNext + 15000000 ∧ u.mxm.boundary = some s.cycle ∧ u.get R.MXM_FRAME_TS_NS = s.time64 % 2 ^ 32 ∧
      u.mxm.buses = s.mxm.buses ∧ u.mem = s.mem ∧ u.ctr = s.ctr ∧ u.hts = s.hts)) ∧
  (∀ (s : State) (check : CheckResult),
    (s.mxm.began ≤ s.mxm.next ∨ s.passed s.mixFrameStart (s.get R.MXM_MIX_PHASE_MICROSECONDS * 1500) = false →
      Completes (exec (.mixFrame check) s) fun t => t = s) ∧
    (s.mxm.next < s.mxm.began → s.passed s.mixFrameStart (s.get R.MXM_MIX_PHASE_MICROSECONDS * 1500) = true →
      (s.isSet R.MXM_CTRL_ENABLE = false → Completes (exec (.mixFrame check) s) fun t =>
        t.mxm = { s.mxm with next := s.mxm.next + 1 } ∧ SetsOnly s { t with mxm := s.mxm } R.MXM_FRAME_FRAME (s.mxm.next + 1)) ∧
      (s.isSet R.MXM_CTRL_ENABLE = true → s.isFenced Unit.mxm 0 = false → check = .pass → Completes (exec (.mixFrame check) s) fun t =>
        ∃ (u : State) (status : Nat), t = (u.mixDone status s.mxm.next).nextFrame ∧ status ∈ [St.ok, St.mixSrcLate, St.mixParentBad] ∧
          SMap.get 0 u.mxm.frames (s.mxm.next % 2) = s.mxm.next % 2 ^ 32) ∧
      (s.isSet R.MXM_CTRL_ENABLE = true → s.isFenced Unit.mxm 0 = false → check = .failed → Completes (exec (.mixFrame check) s) fun t =>
        ∃ u : State, t = (u.mixDone St.unitFenced s.mxm.next).nextFrame ∧ u.isFenced Unit.mxm 0 = true ∧ u.isSet R.MXM_STATUS_FENCED = true ∧
          (∀ b n, n < 0x780 → u.areaByte (b * 0x2000 + s.mxm.next % 2 * 0x780 + n) = 0) ∧
          (∀ b, u.areaByte (b * 0x2000 + 0x1680 + s.mxm.next % 2) = 127)))) ∧
  (∀ (s : State) (who : Sender) (i : Fin 1536) (offset : Nat) (data : List Byte),
    (offset % 64 = 0 → offset < 0x2000 → data.length = 64 → (s.source i).fifo.length + 16 ≤ 2048 →
      Completes (exec (.sourcePortWrite who i offset data) s) fun t =>
        (t.source i).fifo = (s.source i).fifo ++ samplesOf data ∧ (∀ k, k ≠ i.val → t.source k = s.source k) ∧
        t.get (R.MXM_SRC_CFG_FILL i) = (s.source i).fifo.length + 16 ∧ t = { s with regs := t.regs, mxm := t.mxm }) ∧
    (¬ (offset % 64 = 0 ∧ offset < 0x2000 ∧ data.length = 64) ∨ 2048 < (s.source i).fifo.length + 16 →
      Completes (exec (.sourcePortWrite who i offset data) s) fun t =>
        t.out = .busError who (0x10008000000 + i * 0x2000 + offset) :: s.out ∧ CountsOnly s { t with out := s.out } R.C_MXM_SRC_OVERRUN 1)) ∧
  ∀ (s : State) (i : Fin 1536),
    (s.mxm.boundary ≠ some s.cycle → Completes (exec (.sourceCfgApply i) s) fun t => t = s) ∧
    (s.mxm.boundary = some s.cycle →
      (s.isSet (R.MXM_SRC_CFG_EN i) = false → (s.source i).mode ≠ .off → Completes (exec (.sourceCfgApply i) s) fun t =>
        (t.source i).mode = .off ∧ (t.source i).fifo = [] ∧ t.get (R.MXM_SRC_CFG_FILL i) = 0 ∧ t.get (R.MXM_SRC_CFG_STATE i) = 0 ∧
        (∀ k, k ≠ i.val → t.source k = s.source k) ∧ t = { s with regs := t.regs, mxm := t.mxm }) ∧
      (s.isSet (R.MXM_SRC_CFG_EN i) = true → (s.source i).mode = .off ∨ (s.source i).rate ≠ s.get (R.MXM_SRC_CFG_IN_RATE i) →
        Completes (exec (.sourceCfgApply i) s) fun t =>
          t.source i = ⟨.priming, s.get (R.MXM_SRC_CFG_IN_RATE i), [], [], 0, 0⟩ ∧ t.get (R.MXM_SRC_CFG_STATE i) = 1 ∧
          (∀ k, k ≠ i.val → t.source k = s.source k)) ∧
      (s.isSet (R.MXM_SRC_CFG_EN i) = true → (s.source i).mode ≠ .off → (s.source i).rate = s.get (R.MXM_SRC_CFG_IN_RATE i) →
        Completes (exec (.sourceCfgApply i) s) fun t => t = s))

/-- R269, R271, R285, R286, R288; the rules between modules (R411) are other statements'.
Choices of the model: log entry 53. -/
def Obligations.TalkersAreChosenByTheirScores : Prop :=
  (∀ (s : State) (conf : Fin 4096) (rs : List LevelReport),
    (SMap.get 0 s.mxm.talkedAt conf = s.mxm.began → Completes (exec (.talkerSetUpdate conf rs) s) fun t => t = s) ∧
    (SMap.get 0 s.mxm.talkedAt conf ≠ s.mxm.began → s.roleOf conf ≠ 1 → s.roleOf conf ≠ 2 →
      Completes (exec (.talkerSetUpdate conf rs) s) fun t =>
        (∀ x ∈ t.talkersOf conf, s.muted x.id = false) ∧
        ((t.talkersOf conf).filter fun x => !((s.talkersOf conf).any fun y => y.id == x.id)).length ≤ 1 ∧
        (t.talkersOf conf).length ≤ max (s.obj 0x601001 conf 8) (s.talkersOf conf).length ∧
        (∀ c, c ≠ conf.val → t.talkersOf c = s.talkersOf c) ∧ t.mxm.buses = s.mxm.buses ∧ t.mem = s.mem ∧ t.regs = s.regs)) ∧
  (∀ (s : State) (leg : Fin 16384) (transit : List Nat) (ptime : Nat), leg < s.legLimit →
    ((∀ c, SMap.find? s.mxm.jbAt leg = some c → c + secCycles ≤ s.cycle) → Completes (exec (.jbTargetUpdate leg transit ptime) s) fun t =>
      t.obj 0x602006 leg 40 = max (s.obj 0x602004 leg 20) (min (s.obj 0x602005 leg 200) (percentile95 transit + ptime)) ∧
      t = { s with mxm := t.mxm, objNum := t.objNum }) ∧
    (∀ c, SMap.find? s.mxm.jbAt leg = some c → s.cycle < c + secCycles →
      Completes (exec (.jbTargetUpdate leg transit ptime) s) fun t => t = s)) ∧
  (∀ (s : State) (leg : Fin 16384) (src : Fin 1536) (p m : Fin 4096) (frame tag : Nat) (encode : List Byte) (routes : List (Nat × Nat))
      (rstate : Nat) (rbytes : List Byte), leg < s.legLimit → p ≠ m →
    s.swapPending p = false → s.swapPending m = false →
    (setField (s.shadowSet p) 0 1 = 1 → (s.shadowSet p).length = 288 → setValid p (s.shadowSet p) = true → setField (s.shadowSet p) 1 1 < 64 →
      (∀ e ∈ setEntries (s.shadowSet p), e.1 ≠ src.val) →
      Completes (exec (.talkerAdmit leg src p m frame tag encode routes rstate rbytes) s) fun t =>
        setField (t.shadowSet m) 0 1 = 2 ∧ setField (t.shadowSet m) 2 2 = p ∧ setEntries (t.shadowSet m) = [(src.val, 1)] ∧
        (∃ g, (src.val, g) ∈ setEntries (t.shadowSet p)) ∧ t.swapPending p = true ∧ t.swapPending m = true ∧ t.mxm.active = s.mxm.active ∧
        SMap.get none t.fw.ownBus leg = some m.val) ∧
    ((∃ e ∈ setEntries (s.shadowSet p), e.1 = src.val) → (s.shadowSet p).length = 288 → setValid p (s.shadowSet p) = true →
      Completes (exec (.talkerRemove leg src p m tag routes rstate rbytes) s) fun t =>
        (∀ e ∈ setEntries (t.shadowSet p), e.1 ≠ src.val) ∧ t.swapPending p = true ∧ t.mxm.active = s.mxm.active ∧
        t = { s with mxm := t.mxm })) ∧
  (∀ (s : State) (leg : Fin 16384) (src : Fin 1536) (p m : Fin 4096) (tag : Nat) (routes : List (Nat × Nat)) (rstate : Nat)
      (rbytes : List Byte), (∀ e ∈ setEntries (s.shadowSet p), e.1 ≠ src.val) → s.swapPending p = true ∨ (s.bus p).steps ≠ [] →
    Completes (exec (.talkerRemove leg src p m tag routes rstate rbytes) s) fun t => t = s) ∧
  ∀ (s : State) (c : Core) (frame : Nat),
    (frame < s.mxm.began → s.passed (s.mxm.tf - (s.mxm.began - 1 - frame) * 15000000) 15000000 = true → (s.core c).task ≠ none →
      Completes (exec (.audioFrameLate c frame) s) fun t => t = s.finishDone c St.audFrameLate .none) ∧
    (s.mxm.began ≤ frame ∨ (s.core c).task = none → Completes (exec (.audioFrameLate c frame) s) fun t => t = s)

/-- R299, R306, R311: one compute instruction alone in its bundle.
Choices of the model: log entries 48 and 49. -/
def Obligations.DspAluWritesResultAndFlags : Prop :=
  (∀ (s : State) (c : Core) (k : DspCore) (dst x : Fin 16) (y : Opnd), k = s.core c → Fresh k →
    (∀ i ∈ [(Instr.add c dst x y true, (k.dreg x).toInt + (k.opnd y).toInt), (.sub c dst x y true, (k.dreg x).toInt - (k.opnd y).toInt),
        (.abs c dst x true, ((k.dreg x).toInt.natAbs : Int)), (.neg c dst x true, -(k.dreg x).toInt)],
      Completes (exec i.1 s) fun t => ∃ (r : Word) (st : Nat), Narrowed k.sat i.2 r ∧
        StatusAfter k.status st (r == 0) r.msb (k.sat && !(decide (-2 ^ 31 ≤ i.2) && decide (i.2 < 2 ^ 31))) ∧
        st.testBit 2 = (!(decide (-2 ^ 31 ≤ i.2) && decide (i.2 < 2 ^ 31))) ∧
        EndsBundle s t c { k with d := SMap.set 0 k.d dst r, status := st }) ∧
    (Completes (exec (.add c dst x y true) s) fun t =>
      (t.core c).status.testBit 3 = decide (2 ^ 32 ≤ (k.dreg x).toNat + (k.opnd y).toNat)) ∧
    (∀ i ∈ [(Instr.dspAnd c dst x y true, k.dreg x &&& k.opnd y), (.dspOr c dst x y true, k.dreg x ||| k.opnd y),
        (.xor c dst x y true, k.dreg x ^^^ k.opnd y), (.min c dst x y true, if (k.dreg x).toInt ≤ (k.opnd y).toInt then k.dreg x else k.opnd y),
        (.max c dst x y true, if (k.dreg x).toInt ≤ (k.opnd y).toInt then k.opnd y else k.dreg x)],
      Completes (exec i.1 s) fun t => ∃ st, StatusAfter k.status st (i.2 == 0) i.2.msb false ∧
        EndsBundle s t c { k with d := SMap.set 0 k.d dst i.2, status := st }) ∧
    (Completes (exec (.cmp c x y true) s) fun t => ∃ (r : Word) (st : Nat), r = k.dreg x - k.opnd y ∧
      StatusAfter k.status st (r == 0) r.msb false ∧ EndsBundle s t c { k with status := st }) ∧
    ∀ n : Int, n = (k.opnd y).toInt → -31 ≤ n → n ≤ 31 →
      (Completes (exec (.ash c dst x y true) s) fun t => ∃ (r : Word) (st : Nat),
        r = (if 0 ≤ n then k.dreg x <<< n.toNat else (k.dreg x).sshiftRight (-n).toNat) ∧ StatusAfter k.status st (r == 0) r.msb false ∧
        EndsBundle s t c { k with d := SMap.set 0 k.d dst r, status := st }) ∧
      Completes (exec (.lsh c dst x y true) s) fun t => ∃ (r : Word) (st : Nat),
        r = (if 0 ≤ n then k.dreg x <<< n.toNat else k.dreg x >>> (-n).toNat) ∧ StatusAfter k.status st (r == 0) r.msb false ∧
        EndsBundle s t c { k with d := SMap.set 0 k.d dst r, status := st }) ∧
  ∀ (s : State) (c : Core) (k : DspCore), k = s.core c → Fresh k →
    (∀ (dst src : Fin 8) (imm : Word), Completes (exec (.adda c dst src imm true) s) fun t => ∃ (r : Word) (st : Nat),
      r = SMap.get 0 k.a src + imm ∧ StatusAfter k.status st (r == 0) r.msb false ∧
      EndsBundle s t c { k with a := SMap.set 0 k.a dst r, status := st }) ∧
    (∀ dst src : DspReg, (k.write dst (k.read src).toNat).atLoopEnd = false → Completes (exec (.mov c dst src true) s) fun t =>
      (dst ≠ .status → ∃ st, StatusAfter k.status st (k.read src == 0) (k.read src).msb false ∧
        EndsBundle s t c { (k.write dst (k.read src).toNat) with status := st }) ∧
      (dst = .status → EndsBundle s t c (k.write .status (k.read src).toNat))) ∧
    ∀ (n : Fin 4) (d : Fin 16),
      (Completes (exec (.mvg c true n d true) s) fun t => ∃ st, EndsBundle s t c { (k.write (.accG n) (k.dreg d).toNat) with status := st }) ∧
      Completes (exec (.mvg c false n d true) s) fun t => ∃ st, StatusAfter k.status st (k.read (.accG n) == 0) (k.read (.accG n)).msb false ∧
        EndsBundle s t c { (k.write (.d d) (k.read (.accG n)).toNat) with status := st }

/-- R303, R305 and R311.
Choices of the model: log entry 48. -/
def Obligations.DspAccumulatorsHoldExactSums : Prop :=
  ∀ (s : State) (c : Core) (k : DspCore) (f : Int), k = s.core c → Fresh k → f = (if k.frac then 2 else 1) →
    (∀ (a b e : Fin 4) (x y : Fin 16) (p : Int), p = (k.dreg x).toInt * (k.dreg y).toInt * f →
      ∀ i ∈ [(Instr.mac c a x y true, (k.accum a).toInt + p), (.msu c a x y true, (k.accum a).toInt - p), (.mpy c a x y true, p),
          (.accadd c a b e true, (k.accum b).toInt + (k.accum e).toInt)],
        Completes (exec i.1 s) fun t => ∃ st : Nat,
          st.testBit 5 = (k.status.testBit 5 || !(decide (-2 ^ 71 ≤ i.2) && decide (i.2 < 2 ^ 71))) ∧
          (∀ j, j ≠ 5 → st.testBit j = k.status.testBit j) ∧
          EndsBundle s t c { k with acc := SMap.set 0 k.acc a (BitVec.ofInt 72 i.2), status := st }) ∧
    (∀ (a b : Fin 4) (w x y z : Fin 16) (p q : Int), a ≠ b → p = (k.dreg w).toInt * (k.dreg x).toInt * f →
      q = (k.dreg y).toInt * (k.dreg z).toInt * f →
      ∀ i ∈ [(Instr.mac2 c a b w x y z true, (k.accum a).toInt + p, (k.accum b).toInt + q),
          (.msu2 c a b w x y z true, (k.accum a).toInt - p, (k.accum b).toInt - q), (.mpy2 c a b w x y z true, p, q)],
        Completes (exec i.1 s) fun t =>
          (t.core c).accum a = BitVec.ofInt 72 i.2.1 ∧ (t.core c).accum b = BitVec.ofInt 72 i.2.2 ∧
          (∀ n, n ≠ a.val → n ≠ b.val → (t.core c).accum n = k.accum n) ∧
          ∃ st acc, st.testBit 5 = (k.status.testBit 5 || !(decide (-2 ^ 71 ≤ i.2.1) && decide (i.2.1 < 2 ^ 71)) ||
              !(decide (-2 ^ 71 ≤ i.2.2) && decide (i.2.2 < 2 ^ 71))) ∧
            (∀ j, j ≠ 5 → st.testBit j = k.status.testBit j) ∧ EndsBundle s t c { k with acc := acc, status := st }) ∧
    (∀ (a : Fin 4) (shift : BitVec 7) (v : Int),
      (-63 ≤ shift.toInt → shift.toInt ≤ 8 →
        v = (if 0 ≤ shift.toInt then (k.accum a).toInt * 2 ^ shift.toInt.toNat else (k.accum a).toInt / 2 ^ (-shift.toInt).toNat) →
        Completes (exec (.accsh c a shift true) s) fun t => ∃ st : Nat,
          st.testBit 5 = (k.status.testBit 5 || !(decide (-2 ^ 71 ≤ v) && decide (v < 2 ^ 71))) ∧
          EndsBundle s t c { k with acc := SMap.set 0 k.acc a (BitVec.ofInt 72 v), status := st }) ∧
      (8 < shift.toInt ∨ shift.toInt < -63 → Completes (exec (.accsh c a shift true) s) fun t => t = s.kernelFault c .illegal 0)) ∧
    ∀ a b : Fin 4, Completes (exec (.clr2 c a b true) s) fun t => (t.core c).accum a = 0 ∧ (t.core c).accum b = 0 ∧
      (∀ n, n ≠ a.val → n ≠ b.val → (t.core c).accum n = k.accum n) ∧ ∃ acc, EndsBundle s t c { k with acc := acc }

/-- R295, R296, R300, R306 to R310, R320, R324.
Choices of the model: log entries 48 and 49. -/
def Obligations.DspMovesAndBranchesKeepTheirDelays : Prop :=
  (∀ (s : State) (c : Core) (k : DspCore) (m : MoveSlot) (addr : DspAddr) (a : Nat) (upd : List (DspReg × Nat)), k = s.core c → Fresh k →
    k.address addr = .ok (a, upd) →
    (∀ dst : Fin 16, a % 4 = 0 → localOk a 4 = true → Completes (exec (.ld c m dst addr true) s) fun t =>
      OnlyCore s t c { k.writes upd with flight := [(.d dst, s.localRead c a 4 % 2 ^ 32)], pc := (k.pc + 1) % 8192, loaded := true }) ∧
    (∀ p : Fin 8, a % 8 = 0 → localOk a 8 = true → Completes (exec (.ld2 c m p addr true) s) fun t =>
      OnlyCore s t c { k.writes upd with
        flight := [(.d (Fin.ofNat 16 (2 * p.val)), s.localRead c a 8 % 2 ^ 32), (.d (Fin.ofNat 16 (2 * p.val + 1)), s.localRead c a 8 / 2 ^ 32 % 2 ^ 32)],
        pc := (k.pc + 1) % 8192, loaded := true }) ∧
    (isControl a = false → (baseReg addr ≠ 7 ∨ s.get (R.CORE_SLIM_ADDR (c / 16) (c % 16)) ≤ a) →
      (∀ src : Fin 16, a % 4 = 0 → localOk a 4 = true → Completes (exec (.st c .x addr src true) s) fun t =>
        t.localBytes c a 4 = leBytes 4 (k.dreg src).toNat ∧ (∀ e p, ¬ (a ≤ p ∧ p < a + 4) → t.localByte e p = s.localByte e p) ∧
        (t.core c).d = k.d ∧ (t.core c).a = (k.writes upd).a ∧ (t.core c).pc = (k.pc + 1) % 8192 ∧ t.mem = s.mem ∧ t.regs = s.regs) ∧
      ∀ p : Fin 8, a % 8 = 0 → localOk a 8 = true → Completes (exec (.st2 c .x addr p true) s) fun t =>
        t.localBytes c a 8 = leBytes 4 (k.dreg (2 * p.val)).toNat ++ leBytes 4 (k.dreg (2 * p.val + 1)).toNat ∧
        (∀ e q, ¬ (a ≤ q ∧ q < a + 8) → t.localByte e q = s.localByte e q) ∧ (t.core c).pc = (k.pc + 1) % 8192 ∧ t.mem = s.mem) ∧
    (a % 4 ≠ 0 → ∀ dst : Fin 16, Completes (exec (.ld c m dst addr true) s) fun t => t = s.kernelFault c .align a)) ∧
  (∀ (s : State) (c : Core) (k : DspCore), k = s.core c → Fresh k →
    (∀ addr src, Completes (exec (.st c .y addr src true) s) fun t => t = s.kernelFault c .illegal 0) ∧
    (∀ (m : MoveSlot) (a b : Fin 8) (v : Word), k.update a b = .ok v → Completes (exec (.mod c m a b true) s) fun t =>
      EndsBundle s t c { k with a := SMap.set 0 k.a a v }) ∧
    (∀ i ∈ [(fun o => Instr.dspB c o true, fun o => some (k.away o)), (fun o => .bcc c (.z true) o true, fun o => if k.status.testBit 0 then some (k.away o) else none),
        (fun o => .bcc c (.c false) o true, fun o => if k.status.testBit 3 then none else some (k.away o)), (fun _ => .ret c true, fun _ => some k.lr)],
      ∀ o : BitVec 13, Completes (exec (i.1 o) s) fun t => EndsBundle s t c { k with delay := 2, target := i.2 o, rti := false }) ∧
    (∀ o : BitVec 13, Completes (exec (.call c o true) s) fun t =>
      EndsBundle s t c { k with delay := 2, target := some (k.away o), rti := false, lr := (k.pc + 3) % 8192 }) ∧
    (Completes (exec (.rti c true) s) fun t => EndsBundle s t c { k with delay := 2, target := none, rti := true }) ∧
    (∀ (l : Fin 4) (v : BitVec 16) (e : BitVec 13), k.lact l = false → k.pc < 8191 → k.pc + 1 ≤ k.away e →
      (v ≠ 0 → Completes (exec (.dspRep c l (.imm (v.setWidth 32)) e true) s) fun t => EndsBundle s t c { k with
        lps := SMap.set 0 k.lps l (k.pc + 1), lpe := SMap.set 0 k.lpe l (k.away e), lpc := SMap.set 0 k.lpc l (v.setWidth 32),
        status := setBit k.status (12 + l) }) ∧
      Completes (exec (.dspRep c l (.imm 0) e true) s) fun t => OnlyCore s t c { k with pc := (k.away e + 1) % 8192, loaded := false }) ∧
    (∀ l : Fin 4, Completes (exec (.brk c l true) s) fun t => EndsBundle s t c { k with status := clearBit k.status (12 + l) }) ∧
    ∀ n : SwiNumber, Completes (exec (.swi c n true) s) fun t => (t.core c).ipend.testBit (swiCode n) = true ∧ (t.core c).d = k.d ∧
      (t.core c).pc = (k.pc + 1) % 8192 ∧ ∀ e, e ≠ c.val → t.core e = s.core e) ∧
  ∀ (s : State) (c : Core) (k : DspCore) (slot : NopSlot), k = s.core c → k.issues = true → k.bundle = Bundle.empty → k.atLoopEnd = false →
    k.haltReq = false → k.oneStep = false →
    (∀ (n : Fin 16) (v : Nat), k.delay = 0 → k.flight = [(.d n, v)] → Completes (exec (.nop c slot true) s) fun t =>
      EndsBundle s t c { k with d := SMap.set 0 k.d n (BitVec.ofNat 32 v), flight := [] }) ∧
    (k.flight = [] → k.delay = 1 → k.rti = false → ∀ p, k.target = some p → 512 ≤ k.pc ∨ k.task = none → Completes (exec (.nop c slot true) s) fun t =>
      OnlyCore s t c { k with pc := p, delay := 0, target := none, loaded := false }) ∧
    (k.flight = [] → k.delay = 1 → k.rti = false → k.pc < 512 → ∀ (p n id : Nat) (x : Kernel), k.target = some p → k.task = some (n, id) →
      k.kernels.find? (fun y => y.id == id && y.entry == p) = some x → Completes (exec (.nop c slot true) s) fun t =>
      t.core c = ({ k with pc := p, delay := 0, target := none, loaded := false } : DspCore).atEntry x ∧ t.mem = s.mem ∧
      t.get (R.CORE_SLIM_ADDR (c / 16) (c % 16)) = (x.stackTop - x.stack) % 2 ^ 32) ∧
    (k.flight = [] → k.delay = 1 → k.rti = true → Completes (exec (.nop c slot true) s) fun t =>
      (t.core c).pc = k.ipc ∧ (t.core c).status = k.istat ∧ (t.core c).nest = k.nest - 1 ∧
      ((t.core c).mode = .run ↔ k.nest - 1 = 0) ∧ (t.core c).d = k.d)

/-- R311 to R314, R326 to R328.
Choices of the model: log entry 56. -/
def Obligations.DspTasksEndOnceAndFaultsStop : Prop :=
  (∀ (s : State) (c : Core) (k : DspCore) (r : Fin 16) (rep : KernelReport), k = s.core c → Fresh k →
    (k.task = none → s.coreEnabled c = true → k.mode ≠ .disabled → Completes (exec (.take c r) s) fun t =>
      t.core c = { k with mode := .take, takeDst := r.val, bundle := Bundle.empty.mark .compute } ∧ t = { s with dsp := t.dsp } ∧
      ∀ e, e ≠ c.val → t.core e = s.core e) ∧
    (k.task ≠ none → Completes (exec (.take c r) s) fun t => t = s.kernelFault c .illegal 0) ∧
    (k.task = none → Completes (exec (.done c ⟨r, rep⟩) s) fun t => t = s.kernelFault c .illegal 0) ∧
    (k.task ≠ none → ∀ v, v = (k.dreg r).toNat % 256 →
      (kernelStatusOk v = false → Completes (exec (.done c ⟨r, rep⟩) s) fun t => t = s.kernelFault c .code 0) ∧
      (kernelStatusOk v = true → k.dmaIdle = false → Completes (exec (.done c ⟨r, rep⟩) s) fun t =>
        (t.core c).doneSt = some (v, rep) ∧ (t.core c).task = k.task ∧ t = { s with dsp := t.dsp }) ∧
      (kernelStatusOk v = true → k.dmaIdle = true → k.attempt = 1 → Completes (exec (.done c ⟨r, rep⟩) s) fun t => ∃ u : State,
        t = (((u.completeCoreTask c (s.reportStatus rep v)).handReport rep (s.reportStatus rep v)).endBundle c).settleCore c ∧
        (u.core c).task = none ∧ u.hts = s.hts ∧ u.regs = s.regs ∧ u.mem = s.mem))) ∧
  (∀ (s : State) (c : Core) (n : Nat) (job : Task) (k : DspCore), s.runningOn 4 c = some (n, job) → k = s.core c → k.mode = .take →
    k.halted = false → k.bundle = Bundle.empty.mark .compute → k.flight = [] → k.delay = 0 → k.atLoopEnd = false → k.haltReq = false → k.oneStep = false →
    job.args.length = 64 → Completes (exec (.takeGrant c) s) fun t =>
      (t.core c).task = some (n, job.kernel) ∧ (t.core c).mode = .run ∧
      (t.core c).dreg (k.takeDst % 16) = BitVec.ofNat 32 (n + job.kernel * 16777216) ∧ t.localBytes c 0x3FF00 64 = job.args ∧
      (∀ p, ¬ (0x3FF00 ≤ p ∧ p < 0x3FF40) → t.localByte c p = s.localByte c p) ∧ (t.core c).pc = (k.pc + 1) % 8192 ∧ t.hts = s.hts ∧ t.mem = s.mem) ∧
  (∀ (s : State) (c : Core) (v : Nat) (rep : KernelReport), (s.core c).doneSt = some (v, rep) →
    ((s.core c).dmaIdle = false → Completes (exec (.doneDmaDrained c) s) fun t => t = s) ∧
    ((s.core c).dmaIdle = true → (s.core c).attempt = 1 → Completes (exec (.doneDmaDrained c) s) fun t => ∃ u : State,
      t = (((u.completeCoreTask c (s.reportStatus rep v)).handReport rep (s.reportStatus rep v)).endBundle c).settleCore c ∧
      (u.core c).task = none ∧ (u.core c).doneSt = none ∧ u.hts = s.hts ∧ u.regs = s.regs)) ∧
  (∀ (s : State) (c : Core) (cause : KfCause) (addr : Nat), s.runningOn 4 c = none → s.coreEnabled c = true → (s.core c).mode ≠ .fenced →
    (s.kernelFault c cause addr).get (R.CORE_KF_CAUSE_CAUSE (c / 16) (c % 16)) = kfCode cause ∧
    (s.kernelFault c cause addr).counter (R.C_CORE_KFAULTS (c / 16) (c % 16)) = (s.counter (R.C_CORE_KFAULTS (c / 16) (c % 16)) + 1) % 2 ^ 64 ∧
    (s.kernelFault c cause addr).core c = { (s.core c).restart with task := none, attempt := 1 }) ∧
  (∀ (s : State) (c : Core) (cycles : Nat), (s.core c).task ≠ none → s.endsNow 4 c = false → (s.core c).mode ≠ .selftest →
    (cycles ≤ s.dspBudget c → Completes (exec (.dspWatchdogExpiry ⟨c, cycles⟩) s) fun t => t = s) ∧
    (s.dspBudget c < cycles → (s.core c).attempt = 1 → Completes (exec (.dspWatchdogExpiry ⟨c, cycles⟩) s) fun t =>
      t.core c = { (s.core c).restart with task := none, attempt := 2 } ∧ t = { s with dsp := t.dsp } ∧ ∀ e, e ≠ c.val → t.core e = s.core e) ∧
    (s.dspBudget c < cycles → (s.core c).attempt = 2 → Completes (exec (.dspWatchdogExpiry ⟨c, cycles⟩) s) fun t =>
      (t.core c).mode = .selftest ∧ (t.core c).task = (s.core c).task ∧ t = { s with dsp := t.dsp })) ∧
  (∀ (s : State) (c : Core), (s.core c).mode = .selftest →
    (Completes (exec (.selftestDone c true) s) fun t => t = s.kernelFault c .watchdog 0) ∧
    (s.isFenced Unit.dsc c = false → Completes (exec (.selftestDone c false) s) fun t => ∃ u : State, t = u.loseUnit 4 c ∧
      u.isFenced Unit.dsc c = true ∧ (u.core c).mode = .fenced ∧ (u.core c).task = none ∧ (u.get (R.DSC_FENCED_CORES (c / 16))).testBit (c % 16) = true ∧
      u.hts = s.hts)) ∧
  ∀ (s : State) (image : List Byte) (cores : List (Fin 128)),
    imageOk image = false ∨ cores = [] ∨ s.kernelSigned image = false ∨ (∃ c ∈ cores, (s.get (R.DSC_CORE_EN_EN (c / 16))).testBit (c % 16) = true ∨
      s.kernelFits image c = false) →
    Completes (exec (.kernelInstall image cores) s) fun t =>
      t = { s with out := .firmware 8 [kfield image 6 1, St.objRange] :: s.out }

/-- R316 to R320, R326, R330, R331.
Choices of the model: log entry 72. -/
def Obligations.DspInterruptsDmaAndDebug : Prop :=
  (∀ (s : State) (c : Core) (k : DspCore) (n : Nat), k = s.core c →
    (k.dueIrq = some n → k.ie = true → k.halted = false → k.mode = .run ∨ k.mode = .handler → k.openBoundary = true →
      Completes (exec (.interruptTaken c) s) fun t => (t.core c).ipc = k.pc ∧ (t.core c).istat = k.status ∧ (t.core c).pc = 2 * n ∧
        (t.core c).ie = false ∧ (∀ l, l < 4 → (t.core c).lact l = false) ∧ (t.core c).mode = .handler ∧ (t.core c).d = k.d ∧ (t.core c).acc = k.acc ∧
        (t.core c).a = k.a ∧ (t.core c).lr = k.lr ∧ t = { s with dsp := t.dsp, regs := t.regs } ∧
        SameRegsBut s t [(R.DSC_IRQ_WAIT_MAX_CYCLES (c / 16)).addr]) ∧
    (k.dueIrq = none ∨ k.ie = false ∨ k.halted = true ∨ (k.mode ≠ .take ∧ k.openBoundary = false) →
      Completes (exec (.interruptTaken c) s) fun t => t = s)) ∧
  (∀ (s : State) (c : Core), (∀ e, (s.core c).timer = some e → e ≤ s.cycle → Completes (exec (.coreTimerExpiry c) s) fun t =>
      (t.core c).timer = none ∧ (t.core c).ipend.testBit 0 = true ∧ t = { s with dsp := t.dsp }) ∧
    ((s.core c).timer = none → Completes (exec (.coreTimerExpiry c) s) fun t => t = s)) ∧
  (∀ (s : State) (who : Sender) (k : Fin 8) (ring : BitVec 16), Serves s who (R.DSC_DOORBELL_RING k).addr →
    Completes (exec (.dscDoorbell who k ring) s) fun t =>
      (∀ i, i < 16 → (t.core (k * 16 + i)).ipend.testBit 3 = ((s.core (k * 16 + i)).ipend.testBit 3 || ring.getLsbD i)) ∧
      (∀ e, e / 16 ≠ k.val → t.core e = s.core e) ∧ t = { s with dsp := t.dsp }) ∧
  (∀ (s : State) (who : Sender) (k : Fin 8), Serves s who (R.DSC_IRQ_WAIT_MAX_CYCLES k).addr →
    Completes (exec (.irqWaitMaxWrite who k) s) fun t => SetsOnly s t (R.DSC_IRQ_WAIT_MAX_CYCLES k) 0) ∧
  (∀ (s : State) (c : Core) (n : Fin 4) (desc : Nat),
    (((s.core c).chan n).desc = none → Completes (exec (.dmaStart c n desc) s) fun t =>
      (t.core c).chan n = { (s.core c).chan n with desc := some (desc % 2 ^ 18) } ∧ t = { s with dsp := t.dsp }) ∧
    (((s.core c).chan n).desc ≠ none → Completes (exec (.dmaStart c n desc) s) fun t =>
      (t.core c).chan n = { (s.core c).chan n with err := true, cause := 5 } ∧ (t.core c).ipend.testBit 2 = true ∧ t = { s with dsp := t.dsp })) ∧
  (∀ (s : State) (c : Core) (n : Fin 4) (a : Nat) (d : DmaDesc), ((s.core c).chan n).desc = some a → d = s.dmaDesc c a → a + 32 ≤ 0x40000 →
    (s.inWindow c d.dev d.len = false → Completes (exec (.dmaDescDone c n) s) fun t =>
      (t.core c).chan n = { (s.core c).chan n with desc := none, err := true, cause := 1 } ∧ (t.core c).data = (s.core c).data ∧
      t = { s with dsp := t.dsp }) ∧
    (s.inWindow c d.dev d.len = true → dmaFieldsOk d = true → inMemory d.dev d.len = true → s.poison = [] → d.next = 0 →
      (d.flags.testBit 0 = true → Completes (exec (.dmaDescDone c n) s) fun t =>
        t.bytes d.dev d.len = s.localBytes c d.loc d.len ∧ SameMemoryBut s t d.dev d.len ∧ ((t.core c).chan n).desc = none ∧
        ((t.core c).chan n).done = true ∧ t.regs = s.regs ∧ t.ctr = s.ctr) ∧
      (d.flags.testBit 0 = false → Completes (exec (.dmaDescDone c n) s) fun t =>
        t.localBytes c d.loc d.len = s.bytes d.dev d.len ∧ ((t.core c).chan n).desc = none ∧ ((t.core c).chan n).done = true ∧ t.mem = s.mem))) ∧
  (∀ (s : State) (who : Sender) (c : Core) (f : Fld), f = R.CORE_DBG_HALT (c / 16) (c % 16) → Serves s who f.addr →
    (s.isSet R.FUS_STATUS_DEBUG_DIS = false →
      (Completes (exec (.halt who c false) s) fun t => (t.core c).halted = false ∧ (t.core c).haltReq = false ∧ t.isSet f = false ∧
        t = { s with regs := t.regs, dsp := t.dsp }) ∧
      ((s.core c).mode = .run → (s.core c).openBoundary = true → Completes (exec (.halt who c true) s) fun t =>
        t.core c = { s.core c with halted := true } ∧ t.isSet f = true ∧ SameRegsBut s t [f.addr]) ∧
      ((s.core c).mode = .run → (s.core c).openBoundary = false → Completes (exec (.halt who c true) s) fun t =>
        t.core c = { s.core c with haltReq := true })) ∧
    (s.isSet R.FUS_STATUS_DEBUG_DIS = true → ∀ on, Completes (exec (.halt who c on) s) fun t =>
      t.dsp = s.dsp ∧ t.isSet (R.DSC_STATUS_CFG_IGNORED (c / 16)) = true ∧ t.get f = s.get f) ∧
    ((s.core c).halted = true → Completes (exec (.step who c) s) fun t =>
      t.core c = { s.core c with oneStep := true } ∧ t = { s with dsp := t.dsp }) ∧
    ((s.core c).halted = false → Completes (exec (.step who c) s) fun t => t = s)) ∧
  ∀ (s : State) (image : List Byte) (c : Fin 128), imageOk image = true → s.kernelSigned image = true → s.kernelFits image c = true →
    (s.get (R.DSC_CORE_EN_EN (c / 16))).testBit (c % 16) = false → Completes (exec (.kernelInstall image [c]) s) fun t =>
      (t.get (R.CORE_KMASK_KERNELS (c / 16) (c % 16) (kfield image 6 1 / 32))).testBit (kfield image 6 1 % 32) = true ∧
      (∃ x ∈ (t.core c).kernels, x.id = kfield image 6 1 ∧ 512 ≤ x.base ∧ x.bundles = kfield image 0x0E 2) ∧
      (∀ e, e ≠ c.val → (t.core e).kernels = (s.core e).kernels ∧ (t.core e).prog = (s.core e).prog) ∧ t.obj 0x610201 (kfield image 6 1) 0 = kfield image 8 4

/-- R334 to R340, R346, R352.
Choices of the model: log entries 54 and 55. -/
def Obligations.SundogProbesFollowTheirStates : Prop :=
  (∀ (s : State) (who : Sender) (leg : Fin 16384) (fb : Bool), ∀ code, code = (if s.legLimit ≤ leg then St.objInstance else if s.sdgRuns = false then St.sdgOffline
      else if (s.probeOf leg).isSome then St.sdgProbeBusy else if fb = false then St.sdgNotFullband else St.ok) →
    Completes (exec (.probeNow who leg fb) s) fun t =>
      t.out = .done who code [leg.val] :: s.out ∧ t = { s with out := t.out, sdg := t.sdg } ∧
      t.sdg = { s.sdg with probes := s.sdg.probes ++ if code = St.ok then [⟨leg, s.confOf leg, .queued, 0, 0, 0, 0⟩] else [] }) ∧
  (∀ (s : State) (nonce : BitVec 26) (bus : Fin 4096) (parent gain m : Nat) (ex : List Nat) (encode : List Byte) (p : Probe)
      (after : List Probe), s.sdg.probes = p :: after → p.st = .queued → (∀ q ∈ after, q.leg ≠ p.leg) → s.freeModulator = some m → s.sdgRuns = true →
    setValid bus (makeSet 2 parent gain (0x8000 + m) (ex.map fun e => (e, 0))) = true → s.swapPending bus = false →
    Completes (exec (.probeArm nonce bus parent ex gain encode) s) fun t =>
      (∃ more : List Probe, t.sdg.probes =
        { p with st := .armed, mod := m, token := s.rosterId p.leg * 2 ^ 26 + nonce.toNat, window := s.mxm.next + 2, bus := bus.val } ::
          after ++ more ∧ ∀ q ∈ more, q.st = .queued) ∧
      (t.modulator m).armed = some (s.mxm.next + 2) ∧ t.isSet (R.SDG_MOD_CTRL_EN m) = true ∧ t.swapPending bus = true) ∧
  (∀ (s : State) (who : Sender) (m : Fin 256) (frame : Word), Serves s who (R.SDG_MOD_START_FRAME m).addr →
    (s.sdgRuns = false ∨ s.isSet (R.SDG_MOD_CTRL_EN m) = false → Completes (exec (.modStartWrite who m frame) s) fun t =>
      SetsOnly s t (R.SDG_MOD_START_FRAME m) frame.toNat) ∧
    (s.sdgRuns = true → s.isSet (R.SDG_MOD_CTRL_EN m) = true → ∀ d : Nat,
      (d < 2 ^ 31 → frame.toNat = (s.mxm.next + d) % 2 ^ 32 → Completes (exec (.modStartWrite who m frame) s) fun t =>
        (t.modulator m).armed = some (s.mxm.next + d) ∧ t.isSet (R.SDG_MOD_CTRL_LATE m) = s.isSet (R.SDG_MOD_CTRL_LATE m) ∧
        t.get (R.SDG_MOD_START_FRAME m) = frame.toNat ∧ ∀ n, n ≠ m.val → t.modulator n = s.modulator n) ∧
      (0 < d → d ≤ 2 ^ 31 → d ≤ s.mxm.next → frame.toNat = (s.mxm.next - d) % 2 ^ 32 → Completes (exec (.modStartWrite who m frame) s) fun t =>
        (t.modulator m).armed = some s.mxm.next ∧ t.isSet (R.SDG_MOD_CTRL_LATE m) = true))) ∧
  (∀ (s : State) (m : Fin 256) (token shift : Nat), shift = s.get (R.SDG_MOD_CTRL_SHIFT m) →
    token = s.get (R.SDG_MOD_TOKEN_HI_TOKEN m) * 2 ^ 32 + s.get (R.SDG_MOD_TOKEN_LO_TOKEN m) →
    (s.sdgRuns = true → s.beaconDue m = true → Completes (exec (.beaconFrameStart ⟨m, .pass⟩) s) fun t =>
      t.modulator m = ⟨none, true, token, shift, s.get (R.SDG_MOD_CTRL_LEVEL m), beaconChips token shift, 0, false⟩ ∧
      (t.modulator m).chips.length = 2480 ∧ t.get (R.SDG_MOD_CTRL_STATE m) = 2 ∧ (∀ n, n ≠ m.val → t.modulator n = s.modulator n) ∧
      (∀ p ∈ s.sdg.probes, p.mod = m → p.st = .armed → { p with st := .sending, window := s.mxm.next } ∈ t.sdg.probes)) ∧
    (s.sdgRuns = true → s.beaconDue m = true → (∀ e ∈ s.sdg.dets, e.1 < 1024) → (∀ e ∈ s.sdg.mods, e.1 < 256) →
      (∀ q ∈ s.sdg.probes, q.mod < 256) → Completes (exec (.beaconFrameStart ⟨m, .failed⟩) s) fun t => t.isFenced Unit.sdg 0 = true ∧
        t.sdg.probes = [] ∧ (∀ n, (t.detector n).locked = []) ∧ (∀ n, (t.modulator n).armed = none) ∧ t.mem = s.mem) ∧
    (∀ check, s.sdgRuns = false ∨ s.beaconDue m = false → Completes (exec (.beaconFrameStart ⟨m, check⟩) s) fun t => t = s) ∧
    ((s.modulator m).sending = true → (s.modulator m).falling = false → 99200 ≤ (s.modulator m).sent → Completes (exec (.beaconFrameEnd m) s) fun t =>
      (t.modulator m).sending = false ∧ t.counter R.C_SDG_FRAMES_SENT = (s.counter R.C_SDG_FRAMES_SENT + 1) % 2 ^ 64 ∧
      SameCountersBut s t [R.C_SDG_FRAMES_SENT] ∧
      (∀ p ∈ s.sdg.probes, p.mod = m → p.st = .sending → { p with st := .collect } ∈ t.sdg.probes)) ∧
    ((s.modulator m).sending = false ∨ (s.modulator m).sent < 99200 → Completes (exec (.beaconFrameEnd m) s) fun t => t = s)) ∧
  (∀ (s : State) (leg : Fin 16384) (p : Probe), s.probeOf leg = some p →
    (∀ ls, p.st ≠ .collect ∨ s.mxm.next < p.window + 310 → Completes (exec (.probeJudge leg ls) s) fun t => t = s) ∧
    (∀ (l : Listener) (mine : List SdgEvent), p.st = .collect → p.window + 310 ≤ s.mxm.next → l.leg ≠ p.leg → s.confOf l.leg = p.conf → l.heard = true →
      mine = (s.sdg.events.filter fun e => e.det == l.det && decide (p.window ≤ e.at_)) → Completes (exec (.probeJudge leg [l]) s) fun t =>
        t.probeOf leg = none ∧ t.isSet (R.SDG_MOD_CTRL_EN p.mod) = false ∧ t.mem = s.mem ∧
        ((∃ e ∈ mine, e.type = 1 ∧ e.token = p.token ∧ e.rssi ≤ s.obj 0x620005 0 120) → pairOf p.leg l.leg ∈ t.sdg.links ∧
          t.tested p.leg l.leg = decide (0 < s.obj 0x620006 0 300)) ∧
        ((∀ e ∈ mine, e.type ≠ 2 ∧ ¬ (e.type = 1 ∧ e.token = p.token ∧ e.rssi ≤ s.obj 0x620005 0 120)) → pairOf p.leg l.leg ∉ t.sdg.links) ∧
        ((∀ e ∈ mine, ¬ (e.type = 1 ∧ e.token = p.token)) → (∃ e ∈ mine, e.type = 2) → t.sdg.links = s.sdg.links)) ∧
    (Completes (exec (.probeAbort leg) s) fun t => t.probeOf leg = none ∧ t.mem = s.mem ∧
      (p.st ≠ .queued → t.isSet (R.SDG_MOD_CTRL_EN p.mod) = false ∧ (t.modulator p.mod).armed = none) ∧
      (p.st ≠ .queued → (s.modulator p.mod).sending = true → (s.modulator p.mod).falling = false →
        t.counter R.C_SDG_ABORTED = (s.counter R.C_SDG_ABORTED + 1) % 2 ^ 64))) ∧
  ∀ (s : State) (leg : Fin 16384), s.probeOf leg = none → Completes (exec (.probeAbort leg) s) fun t => t = s

/-- R341 to R344, R348, R351, R354. Levels count in steps of 0.05 dB below full scale.
Choices of the model: log entry 54. -/
def Obligations.DetectorsGateLockAndGroup : Prop :=
  (∀ (s : State) (who : Sender) (d : Fin 1024) (src : BitVec 11) (on : Bool), Serves s who (R.SDG_DET_CFG_SRC d).addr →
    (on = true → s.isSet (R.SDG_DET_CFG_EN d) = false ∨ s.get (R.SDG_DET_CFG_SRC d) ≠ src.toNat →
      Completes (exec (.detectorConfig who d src on) s) fun t => t.detector d = Detector.init ∧ t.get (R.SDG_DET_CFG_SRC d) = src.toNat ∧
        t.isSet (R.SDG_DET_CFG_EN d) = true ∧ (∀ n, n ≠ d.val → t.detector n = s.detector n) ∧
        SameRegsBut s t [(R.SDG_DET_CFG_SRC d).addr, (R.SDG_DET_STAT_FLOOR d).addr]) ∧
    (on = false ∨ (s.isSet (R.SDG_DET_CFG_EN d) = true ∧ s.get (R.SDG_DET_CFG_SRC d) = src.toNat) →
      Completes (exec (.detectorConfig who d src on) s) fun t => t = { s with regs := t.regs } ∧ t.get (R.SDG_DET_CFG_SRC d) = src.toNat ∧
        t.isSet (R.SDG_DET_CFG_EN d) = on ∧ SameRegsBut s t [(R.SDG_DET_CFG_SRC d).addr])) ∧
  (∀ (s : State) (d : Fin 1024) (energy : Nat) (fs : List (Fin 31 × RxFinding)) (check : CheckResult),
    s.sdgRuns = false ∨ s.isSet (R.SDG_DET_CFG_EN d) = false → Completes (exec (.detectorFrame d energy fs check) s) fun t => t = s) ∧
  (∀ (s : State) (d : Fin 1024) (energy : Nat) (gate : Bool), s.sdgRuns = true → s.isSet (R.SDG_DET_CFG_EN d) = true →
    (gate = true ↔ energy ≤ s.get R.SDG_DET_THRESH_CODE * 10 ∧ energy + 20 * s.get R.SDG_FLOOR_MARGIN_DB ≤ (s.detector d).floor) →
    20 * s.get R.SDG_FLOOR_MARGIN_DB ≤ (s.detector d).floor →
    (Completes (exec (.detectorFrame d energy [] .pass) s) fun t => (t.detector d).gate = gate ∧ t.isSet (R.SDG_DET_STAT_GATE d) = gate ∧
      (gate = false → (s.detector d).lockedCount = 0 → (t.detector d).agc = (s.detector d).agc ∧
        (t.detector d).floor = if (s.detector d).floor < energy then energy else (s.detector d).floor - 1) ∧
      (gate = true → (t.detector d).floor = (s.detector d).floor) ∧ (t.detector d).locked = (s.detector d).locked ∧
      (∀ n, n ≠ d.val → t.detector n = s.detector n) ∧ t.mem = s.mem ∧ t.ctr = s.ctr) ∧
    (∀ (k : Fin 31) (q : Nat), gate = true → s.get R.SDG_QUAL_MIN_CODE ≤ q → SMap.get none (s.detector d).locked k = none →
      (s.detector d).frozen = none → Completes (exec (.detectorFrame d energy [(k, .qualifier q)] .pass) s) fun t =>
        SMap.get none (t.detector d).locked k = some ⟨min 255 q, [], none⟩ ∧ (t.detector d).frozen = some (k.val, s.cycle) ∧
        t.isSet (R.SDG_DET_STAT_FROZEN d) = true ∧ CountsOnly s { s with ctr := t.ctr } R.C_SDG_LOCKS 1) ∧
    (s.isFenced Unit.sdg 0 = false → (∀ e ∈ s.sdg.dets, e.1 < 1024) → (∀ e ∈ s.sdg.mods, e.1 < 256) → (∀ q ∈ s.sdg.probes, q.mod < 256) →
      Completes (exec (.detectorFrame d energy [] .failed) s) fun t => t.isFenced Unit.sdg 0 = true ∧
      t.isSet R.SDG_STATUS_FENCED = true ∧ (∀ n, (t.detector n).locked = []) ∧ (∀ m, (t.modulator m).armed = none) ∧ t.sdg.probes = [])) ∧
  (∀ (s : State) (d : Fin 1024), ((s.detector d).frozen = none → Completes (exec (.agcRelease d) s) fun t => t = s) ∧
    ∀ k c, (s.detector d).frozen = some (k, c) →
      (c + 3 * secCycles ≤ s.cycle → Completes (exec (.agcRelease d) s) fun t =>
        t.detector d = { s.detector d with frozen := none } ∧ t.isSet (R.SDG_DET_STAT_FROZEN d) = false ∧ t.ctr = s.ctr) ∧
      (s.cycle < c + 3 * secCycles → Completes (exec (.agcRelease d) s) fun t => t = s)) ∧
  ∀ (s : State) (conf : Fin 4096) (a b tag : Nat), s.legsOf conf = [a, b] → a < b →
    (Completes (exec (.colocGroupApply conf [] tag) s) fun t => t = { s with objNum := t.objNum } ∧
      (s.together a b = true → t.obj 0x621003 a 0xFFFFFFFF = s.rosterId a ∧ t.obj 0x621003 b 0xFFFFFFFF = s.rosterId a) ∧
      (s.together a b = false → t.obj 0x621003 a 0xFFFFFFFF = 0xFFFFFFFF ∧ t.obj 0x621003 b 0xFFFFFFFF = 0xFFFFFFFF)) ∧
    (s.together a b = (if s.obj 0x621004 a 0 = 0 ∧ s.obj 0x621004 b 0 = 0 then s.sdg.links.contains (a, b)
      else s.obj 0x621004 a 0 == s.obj 0x621004 b 0)) ∧
    ∀ bus, bus ≤ 4095 → s.swapPending bus = false → Completes (exec (.colocGroupApply conf [bus] tag) s) fun t =>
      t.mxm.waiting = s.mxm.waiting ++ [⟨[bus], tag % 65536, s.mxm.next * 480⟩]

/-- R368, R369, R378, R379, R385: the key commands, on whatever slot KSL_SEL names.
Choices of the model: log entries 23 and 24. -/
def Obligations.KeySlotCommandsFollowTheirTable : Prop :=
  (∀ (s : State) (who : Sender), Serves s who R.KSL_CMD_OP.addr →
    (s.holds kslPort who = false ∨ s.isSet R.KSL_RESULT_BUSY = true →
      ∀ c ∈ [Instr.write who, .erase who, .zeroize who, .zeroizeAll who, .retireOld who, .kslStatus who, .ctxInit who, .ctxClear who],
        Completes (exec c s) fun t => SetsOnly s t R.KSL_STATUS_CMD_IGNORED 1) ∧
    (s.holds kslPort who = true → s.isSet R.KSL_RESULT_BUSY = false → ∀ (n : Nat) (w : List Byte) (k : KeySlot) (suite : Nat),
      n = s.kslSlot → w = s.kslWindow → k = s.slot n → suite = (w.headD 0).toNat →
      (∀ code, (windowOk w = false ∧ code = St.cmdBad) ∨
          (windowOk w = true ∧ suite = 5 ∧ s.isSet R.FUS_STATUS_TRUNK_LOCK = true ∧ code = St.keyPolicy) ∨
          (windowOk w = true ∧ ¬ (suite = 5 ∧ s.isSet R.FUS_STATUS_TRUNK_LOCK = true) ∧ (k.state = .draining ∨ 2 ≤ k.gens.length) ∧ code = St.keyBusy) →
        Completes (exec (.write who) s) fun t => t = { s with regs := t.regs, cpx := { s.cpx with ksl := some (1, some code) } } ∧
          t.isSet R.KSL_RESULT_BUSY = true ∧ SameRegsBut s t [R.KSL_RESULT_BUSY.addr]) ∧
      (suite = 0 ∨ 8 < suite → windowOk w = false) ∧
      (windowOk w = true → ¬ (suite = 5 ∧ s.isSet R.FUS_STATUS_TRUNK_LOCK = true) → k.state ≠ .draining → k.gens.length < 2 →
        Completes (exec (.write who) s) fun t => t.slot n = { k with
            state := if k.state = .empty then .active else .activeTwo
            gens := ⟨(k.genNo + 1) % 65536, suite, (w.getD 1 0).toNat == 1, windowKeys w, 0, false, false, false⟩ :: k.gens
            genNo := (k.genNo + 1) % 65536
            grace := if k.state = .empty ∨ s.get R.CPX_GRACE_MS_MS = 0 then none else some (s.cycle + s.get R.CPX_GRACE_MS_MS * msCycles) } ∧
          (∀ m, m ≠ n → t.slot m = s.slot m) ∧ t.cpx.ksl = some (1, some St.ok) ∧ t.mem = s.mem ∧ t.ctr = s.ctr ∧
          SameRegsBut s t [R.KSL_RESULT_BUSY.addr]) ∧
      (k.state = .empty → ∀ c ∈ [(2, Instr.erase who), (3, .zeroize who), (5, .retireOld who)], (c.1 = 5 → k.gens = []) →
        Completes (exec c.2 s) fun t => t = { s with regs := t.regs, cpx := { s.cpx with ksl := some (c.1, some St.ok) } } ∧
          SameRegsBut s t [R.KSL_RESULT_BUSY.addr]) ∧
      (k.state ≠ .empty → k.state ≠ .draining → k.gens.length = 1 →
        (s.slotOps n = [] → Completes (exec (.erase who) s) fun t => (t.slot n).state = .empty ∧ (t.slot n).gens = [] ∧
          t.cpx.ksl = some (2, some St.ok) ∧ ∀ m, m ≠ n → t.slot m = s.slot m) ∧
        (s.slotOps n ≠ [] → Completes (exec (.erase who) s) fun t => t.slot n = { k with state := .draining, grace := none, erasing := .ksl } ∧
          t.cpx.ksl = some (2, none) ∧ (∀ m, m ≠ n → t.slot m = s.slot m) ∧ t.cpx.ops = s.cpx.ops)) ∧
      (k.state ≠ .empty → s.cpx.waiting = [] → (∀ x, k.erasing ≠ .gulter x) → Completes (exec (.zeroize who) s) fun t => (t.slot n).state = .empty ∧ (t.slot n).gens = [] ∧
          t.slotOps n = [] ∧ t.cpx.ksl = some (3, some St.ok)) ∧
      (s.cpx.ops = [] → s.cpx.waiting = [] → (∀ m x, (s.slot m).erasing ≠ .gulter x) → Completes (exec (.zeroizeAll who) s) fun t => (∀ m, (t.slot m).state = .empty) ∧ t.cpx.priv = [] ∧
          t.mem = s.mem ∧ t.cpx.ksl = some (4, some St.ok)) ∧
      (∀ g o, k.gens = [g, o] → k.state ≠ .draining → (∀ x ∈ s.cpx.ops, x.binds n o.num = false) → Completes (exec (.retireOld who) s) fun t =>
          t.slot n = { k with gens := [g], grace := none, state := if k.state = .activeTwo then .active else k.state } ∧
          (∀ m, m ≠ n → t.slot m = s.slot m) ∧ t.cpx.ksl = some (5, some St.ok) ∧ t.mem = s.mem) ∧
      (∀ g gs, k.state = .active → k.gens = g :: gs → Completes (exec (.kslStatus who) s) fun t => t.get R.KSL_SLOT_STAT_STATE = 1 ∧
          t.get R.KSL_SLOT_STAT_SUITE = g.suite % 16 ∧ t.get R.KSL_SLOT_STAT_GEN = g.num % 65536 ∧
          t.isSet R.KSL_SLOT_STAT_DECRYPT_ONLY = g.decryptOnly ∧ t.isSet R.KSL_SLOT_STAT_REKEY_REQ = g.rekey ∧
          t.get R.KSL_SLOT_INFLIGHT_OPS = min 65535 (s.slotOps n).length ∧
          t.get R.KSL_SLOT_COUNT_LO_COUNT = g.count % 2 ^ 32 ∧ t.get R.KSL_SLOT_COUNT_HI_COUNT = g.count / 2 ^ 32 % 2 ^ 32 ∧
          t = { s with regs := t.regs, cpx := { s.cpx with ksl := some (6, some St.ok) } }))) ∧
  (∀ (s : State) (op code : Nat), s.cpx.ksl = some (op, some code) → Completes (exec .kslCommandDone s) fun t =>
    t.isSet R.KSL_RESULT_BUSY = false ∧ t.get R.KSL_RESULT_STATUS = code % 256 ∧ (∀ i, i < 32 → t.get (R.KSL_DATA_DATA i) = 0) ∧ t.cpx.ksl = none ∧
    t = { s with regs := t.regs, cpx := t.cpx } ∧ (∀ m, t.slot m = s.slot m) ∧ ∀ a, a < 0x00700020 ∨ 0x007000C0 ≤ a → t.reg a = s.reg a) ∧
  (∀ (s : State) (who : Sender) (i : Option (Fin 32)) (v : Word), Serves s who (kslWordAddr i) →
    (s.holds kslPort who = false → Completes (exec (.kslDataWrite who i v) s) fun t => SetsOnly s t R.KSL_STATUS_CMD_IGNORED 1) ∧
    (s.holds kslPort who = true → Completes (exec (.kslDataWrite who i v) s) fun t =>
      SetsOnly s t (match i with | none => R.KSL_SEL_SLOT | some j => R.KSL_DATA_DATA j) v.toNat)) ∧
  (∀ (s : State) (slot : Fin 65536) (k : KeySlot), k = s.slot slot →
    (k.grace = none → Completes (exec (.gracePeriodEnd slot) s) fun t => t = s) ∧
    (∀ c, k.grace = some c → s.cycle < c → Completes (exec (.gracePeriodEnd slot) s) fun t => t = s) ∧
    (∀ c g o, k.grace = some c → c ≤ s.cycle → k.gens = [g, o] → k.state ≠ .draining →
      ((∀ x ∈ s.cpx.ops, x.binds slot o.num = false) → Completes (exec (.gracePeriodEnd slot) s) fun t => ∃ u : State,
        t = u.keyEvent 3 slot o.num o.count ∧ u = { s with cpx := u.cpx } ∧ (∀ m, m ≠ slot.val → u.slot m = s.slot m) ∧
        u.slot slot = { k with gens := [g], grace := none, state := if k.state = .activeTwo then .active else k.state }) ∧
      ((∃ x ∈ s.cpx.ops, x.binds slot o.num = true) → Completes (exec (.gracePeriodEnd slot) s) fun t =>
        t.slot slot = { k with gens := [g, { o with closed := true }], grace := none } ∧ t = { s with cpx := t.cpx }))) ∧
  ∀ (s : State) (slot : Fin 65536) (k : KeySlot), k = s.slot slot →
    (∀ gen, Completes (exec (.keyStoreEccError slot gen false) s) fun t => t.isSet R.CPX_STATUS_TRANSIENT = true ∧ t.cpx = s.cpx ∧ t.mem = s.mem) ∧
    (∀ g, k.gens = [g] → s.slotOps slot = [] → k.erasing = .nobody → Completes (exec (.keyStoreEccError slot g.num true) s) fun t => ∃ u : State,
      t = u.keyEvent 5 slot g.num g.count ∧ u.slot slot = { k with gens := [], state := .empty, grace := none }) ∧
    ∀ g o x, k.gens = [g, o] → g.num ≠ o.num → k.state ≠ .draining → s.slotOps slot = [] → (x = g ∨ x = o) →
      Completes (exec (.keyStoreEccError slot x.num true) s) fun t => ∃ (u : State) (y : KeyGen), t = u.keyEvent 5 slot x.num x.count ∧
        y = { (if x = g then o else g) with closed := false } ∧
        u.slot slot = { k with gens := [y], grace := none, state := if y.ended ∨ 2 ^ 48 ≤ y.count then .exhausted else .active }

/-- R355 to R378 and R631. The transforms are the model's reading of the standards that R362 names (log entry 20). -/
def Obligations.ContextsAndCipherOperations : Prop :=
  (∀ (s : State) (who : Sender) (c a : Nat), Serves s who R.KSL_CMD_OP.addr → s.holds kslPort who = true → s.isSet R.KSL_RESULT_BUSY = false →
    c = s.kslWord 0 % 2 ^ 21 → a = s.ctxAddr c →
    (∀ code, (1114112 ≤ c ∧ code = St.cmdBad) ∨ (c < 1114112 ∧ (∃ o ∈ s.cpx.ops, o.req.ctx = c ∧ (o.req.kind = .srtp ∨ o.req.kind = .srtcp)) ∧ code = St.keyBusy) →
      ∀ i ∈ [(7, Instr.ctxInit who), (8, .ctxClear who)], Completes (exec i.2 s) fun t =>
        t = { s with regs := t.regs, cpx := { s.cpx with ksl := some (i.1, some code) } } ∧ SameRegsBut s t [R.KSL_RESULT_BUSY.addr]) ∧
    (c < 1114112 → (∀ o ∈ s.cpx.ops, o.req.ctx ≠ c) → s.poison = [] → a + 64 ≤ hbmBytes →
      (Completes (exec (.ctxInit who) s) fun t => t.bytes a 4 = natToOs 4 (s.kslWord 1) ∧ t.le (a + 4) 2 = s.kslWord 2 % 65536 ∧
        (t.byte (a + 6)).toNat = 2 + s.kslWord 2 / 65536 % 2 * 4 ∧ t.le (a + 8) 4 = s.kslWord 3 ∧ t.bytes (a + 16) 48 = List.replicate 48 0 ∧
        SameMemoryBut s t a 64 ∧ t.cpx = { s.cpx with ksl := some (7, some St.ok) }) ∧
      (Completes (exec (.ctxClear who) s) fun t => (t.byte (a + 6)).toNat.testBit 1 = false ∧
        (∀ i, i ≠ 1 → (t.byte (a + 6)).toNat.testBit i = (s.byte (a + 6)).toNat.testBit i) ∧ SameMemoryBut s t (a + 6) 1 ∧
        t.cpx = { s.cpx with ksl := some (8, some St.ok) }))) ∧
  (∀ (s : State) (r : CipherReq) (k : KeySlot), k = s.slot r.slot → s.cpx.waiting = [] → s.cipherGone = false → s.island 2 = .awake → r.user = .held →
    ∀ c, s.freeCore = some c →
    (∀ (g : KeyGen) (gs : List KeyGen) (code : Nat), k.gens = g :: gs → (r.kind = .trunk → r.enc = true) →
        ((s.isSet R.CPX_CTRL_ENABLE = false ∨ k.state = .empty ∨ k.state = .draining) ∧ code = St.keyEmpty) ∨
        (s.isSet R.CPX_CTRL_ENABLE = true ∧ k.state ≠ .empty ∧ k.state ≠ .draining ∧
          ((kindSuits r.kind g.suite = false ∧ code = St.suiteMismatch) ∨
           (kindSuits r.kind g.suite = true ∧ ((r.len = 0 ∨ 65536 < r.len ∨ r.len < r.hdrLen) ∧ code = St.badLength ∨
             ∃ n, outLength r g.suite = some n ∧ r.enc = true ∧ ((g.decryptOnly = true ∧ code = St.keyPolicy) ∨
               (g.decryptOnly = false ∧ k.state = .exhausted ∧ code = St.keyExhausted)))))) →
      Completes (exec (.cipherRequest r) s) fun t => (∃ n v, SMap.get none t.cpx.results s.cpx.nextId = some ⟨code, 0, v, List.replicate n 0⟩) ∧
        t.cpx.ops = s.cpx.ops ∧ (∀ m, t.slot m = s.slot m) ∧ t.cpx.nextId = s.cpx.nextId + 1 ∧ t.regs = s.regs) ∧
    (s.isSet R.CPX_CTRL_ENABLE = true → k.state = .active ∨ k.state = .activeTwo →
      (∀ g gs n, k.gens = g :: gs → r.enc = true → (r.kind = .trunk ∨ r.kind = .xts) → kindSuits r.kind g.suite = true → outLength r g.suite = some n →
        g.decryptOnly = false → g.count + 1 < 2 ^ s.get R.CPX_SOFT_EXP_EXP → g.count + 1 < 2 ^ 48 → Completes (exec (.cipherRequest r) s) fun t =>
          t.cpx.ops = s.cpx.ops ++ [⟨s.cpx.nextId, c, r, g, none, g.count, 0, n, s.get R.CPX_SCA_LEVEL_LEVEL⟩] ∧
          t.slot r.slot = { k with gens := { g with count := g.count + 1 } :: gs } ∧ (∀ m, m ≠ r.slot → t.slot m = s.slot m) ∧ t = { s with cpx := t.cpx }) ∧
      (∀ g gs, k.gens = g :: gs → r.enc = true → r.kind = .trunk → kindSuits r.kind g.suite = true → g.decryptOnly = false → r.len ≠ 0 →
        r.hdrLen ≤ r.len → r.len + 16 ≤ 65536 → g.count + 1 = 2 ^ 48 → Completes (exec (.cipherRequest r) s) fun t =>
          (t.slot r.slot).state = .exhausted ∧ ∃ o ∈ t.cpx.ops, o.id = s.cpx.nextId ∧ o.counter = 2 ^ 48 - 1) ∧
      (r.kind = .trunk → r.enc = false → (∀ g ∈ k.gens, g.closed = true ∨ g.num % 2 ≠ r.genSel % 2) → Completes (exec (.cipherRequest r) s) fun t =>
        ∃ n v, SMap.get none t.cpx.results s.cpx.nextId = some ⟨St.keyStale, 0, v, List.replicate n 0⟩) ∧
      (∀ g ∈ k.gens, r.kind = .trunk → r.enc = false → g.closed = false → g.num % 2 = r.genSel % 2 → (∀ x ∈ k.gens, x ≠ g → x.num % 2 ≠ r.genSel % 2) →
        kindSuits .trunk g.suite = true → r.len ≠ 0 → r.hdrLen + 16 ≤ r.len → r.len ≤ 65536 → Completes (exec (.cipherRequest r) s) fun t =>
          t.cpx.ops = s.cpx.ops ++ [⟨s.cpx.nextId, c, r, g, none, g.count, 0, r.len - 16, s.get R.CPX_SCA_LEVEL_LEVEL⟩] ∧
          (t.slot r.slot).gens = k.gens ∧ (t.slot r.slot).decCount = k.decCount + 1) ∧
      (∀ (g : KeyGen) (n i : Nat) (bs : List Byte), k.gens = [g] → r.kind = .srtp → r.enc = false → kindSuits .srtp g.suite = true →
        outLength r g.suite = some n → r.input = some bs →
        (s.ctxSuits r bs = false → Completes (exec (.cipherRequest r) s) fun t => ∃ l v,
          SMap.get none t.cpx.results s.cpx.nextId = some ⟨St.ctxMismatch, 0, v, List.replicate l 0⟩) ∧
        (s.ctxSuits r bs = true → s.estimate r.ctx (osToNat ((bs.drop 2).take 2)) = i → i < 2 ^ 48 →
          (indexSpent (s.ctxIndex r.ctx false) i = true ∨ (r.ctx, false, i) ∈ s.cpx.marks → Completes (exec (.cipherRequest r) s) fun t =>
            CountsOnly s { s with ctr := t.ctr } R.C_CPX_REPLAY 1 ∧
            ∃ l v, SMap.get none t.cpx.results s.cpx.nextId = some ⟨St.replay, 0, v, List.replicate l 0⟩) ∧
          (indexSpent (s.ctxIndex r.ctx false) i = false → (r.ctx, false, i) ∉ s.cpx.marks → Completes (exec (.cipherRequest r) s) fun t =>
            t.cpx.ops = s.cpx.ops ++ [⟨s.cpx.nextId, c, r, g, none, g.count, i, n, s.get R.CPX_SCA_LEVEL_LEVEL⟩] ∧
            (r.ctx, false, i) ∈ t.cpx.marks ∧ t.mem = s.mem))))) ∧
  ∀ (s : State) (op : Nat),
    ((∀ o ∈ s.cpx.ops, o.id ≠ op) → ∀ check, Completes (exec (.cipherComplete op check) s) fun t => t = s) ∧
    ∀ (o : CipherOp) (bs : List Byte), s.cpx.ops.find? (fun x => x.id == op) = some o → s.cpx.waiting = [] → o.req.user = .held → o.req.input = some bs →
      (s.slot o.req.slot).state ≠ .draining → (∀ g ∈ (s.slot o.req.slot).gens, g.closed = false) →
      (∀ out, transform o.gen o bs = some out → (o.req.kind = .trunk ∨ o.req.kind = .xts ∨ o.req.enc = true) →
        Completes (exec (.cipherComplete op .pass) s) fun t =>
          (∃ v, SMap.get none t.cpx.results op = some ⟨St.ok, o.gen.num, v, out⟩) ∧ t.cpx.ops = s.cpx.ops.filter (fun x => x.id != op) ∧
          t.counter R.C_CPX_OPS = (s.counter R.C_CPX_OPS + 1) % 2 ^ 64 ∧ t.counter R.C_CPX_BYTES = (s.counter R.C_CPX_BYTES + o.req.len) % 2 ^ 64 ∧
          (∀ m, t.slot m = s.slot m) ∧ t.mem = s.mem ∧ t.regs = s.regs) ∧
      (transform o.gen o bs = none → o.alt = none → Completes (exec (.cipherComplete op .pass) s) fun t =>
        (∃ v, SMap.get none t.cpx.results op = some ⟨St.authFail, o.gen.num, v, List.replicate o.outLen 0⟩) ∧
        t.counter R.C_CPX_AUTH_FAIL = (s.counter R.C_CPX_AUTH_FAIL + 1) % 2 ^ 64 ∧ t.mem = s.mem) ∧
      (∀ g out, transform o.gen o bs = none → o.alt = some g → transform g o bs = some out → Completes (exec (.cipherComplete op .pass) s) fun t =>
        (∃ v, SMap.get none t.cpx.results op = some ⟨St.ok, g.num, v, out⟩) ∧
        t.counter R.C_CPX_OLD_GEN_HITS = (s.counter R.C_CPX_OLD_GEN_HITS + 1) % 2 ^ 64) ∧
      (∀ out, transform o.gen o bs = some out → Completes (exec (.cipherComplete op .retried) s) fun t =>
        (∃ v, SMap.get none t.cpx.results op = some ⟨St.okRetried, o.gen.num, v, out⟩) ∧
        t.counter R.C_CPX_CHECK_RETRIES = (s.counter R.C_CPX_CHECK_RETRIES + 1) % 2 ^ 64) ∧
      (o.core < 24 → Completes (exec (.cipherComplete op .failed) s) fun t =>
        (∃ v, SMap.get none t.cpx.results op = some ⟨St.unitFenced, o.gen.num, v, List.replicate o.outLen 0⟩) ∧
        t.isFenced Unit.cpx o.core = true ∧ t.mem = s.mem)

/-- R382 to R384. Signatures, keys and random words are free values: each statement holds for every value of them.
Choices of the model: log entries 20 and 21. -/
def Obligations.PublicKeysAndRandomSource : Prop :=
  (∀ (s : State) (who : Sender), Serves s who R.CPX_PKA_CMD_OP.addr →
    (s.holds pkaPort who = false ∨ s.isSet R.CPX_PKA_RESULT_BUSY = true → ∀ digest x y r sv slot suite b salt info reg tgt,
      ∀ c ∈ [Instr.verify who digest x y r sv, .sign who digest reg, .keygen who tgt, .ecdh who tgt x y, .deriveToSlot who slot suite b salt info],
        Completes (exec c s) fun t => t = s) ∧
    (s.holds pkaPort who = true → s.isSet R.CPX_PKA_RESULT_BUSY = false → ∀ Busy : State → Prop,
      (∀ t, Busy t ↔ t = { s with regs := t.regs, cpx := t.cpx, freeCtr := t.freeCtr } ∧ t.isSet R.CPX_PKA_RESULT_BUSY = true ∧ SameRegsBut s t [R.CPX_PKA_RESULT_BUSY.addr]) →
      (∀ digest x y r sv, (Completes (exec (.verify who digest x y r sv) s) fun t => Busy t ∧
          t.cpx = { s.cpx with pka := some ⟨if P256.verify digest x y r sv then St.ok else St.pkaInvalid, []⟩ }) ∧
        (r = 0 ∨ P256.n ≤ r ∨ sv = 0 ∨ P256.n ≤ sv ∨ P256.onCurve x y = false → P256.verify digest x y r sv = false)) ∧
      (∀ digest, Sender.isControl who = false ∨ s.isSet R.FUS_STATUS_IDENTITY_SET = false → Completes (exec (.sign who digest none) s) fun t =>
        Busy t ∧ t.cpx = { s.cpx with pka := some ⟨St.keyPolicy, []⟩ }) ∧
      (∀ digest (reg : Fin 16) d, SMap.get 0 s.cpx.priv reg = d →
        (d = 0 ∨ P256.n ≤ d → Completes (exec (.sign who digest (some reg)) s) fun t => Busy t ∧ t.cpx = { s.cpx with pka := some ⟨St.pkaInvalid, []⟩ }) ∧
        (0 < d → d < P256.n → Completes (exec (.sign who digest (some reg)) s) fun t => Busy t ∧ ∃ k, 0 < k ∧ k < P256.n ∧
          t.cpx = { s.cpx with pka := some ⟨St.ok, [(P256.sign (digest % 2 ^ 256) d k).1, (P256.sign (digest % 2 ^ 256) d k).2]⟩ }) ∧
        ∀ x y, (d = 0 ∨ P256.n ≤ d ∨ P256.onCurve x y = false → Completes (exec (.ecdh who reg x y) s) fun t =>
            Busy t ∧ t.cpx = { s.cpx with pka := some ⟨St.pkaInvalid, []⟩ }) ∧
          ∀ sx sy, 0 < d → d < P256.n → P256.onCurve x y = true → P256.mul d (some (x, y)) 256 = some (sx, sy) → Completes (exec (.ecdh who reg x y) s) fun t =>
            Busy t ∧ t.cpx = { s.cpx with heldX := some sx, pka := some ⟨St.ok, []⟩ }) ∧
      (∀ tgt : Fin 16, (s.cpx.rng ≠ .ready → Completes (exec (.keygen who tgt) s) fun t => Busy t ∧ t.cpx = { s.cpx with pka := some ⟨St.rngNotReady, []⟩ }) ∧
        (s.cpx.rng = .ready → Completes (exec (.keygen who tgt) s) fun t => Busy t ∧ ∃ d, 0 < d ∧ d < P256.n ∧ SMap.get 0 t.cpx.priv tgt = d ∧
          (∀ n, n ≠ tgt.val → SMap.get 0 t.cpx.priv n = SMap.get 0 s.cpx.priv n) ∧
          ∀ x y, P256.mul d P256.g 256 = some (x, y) → t.cpx.pka = some ⟨St.ok, [x, y]⟩)) ∧
      ∀ (slot : Fin 65536) (suite : Nat) (dec : Bool) (salt info : List Byte),
        (s.cpx.heldX = none → Completes (exec (.deriveToSlot who slot suite dec salt info) s) fun t => Busy t ∧ t.cpx = { s.cpx with pka := some ⟨St.cmdBad, []⟩ }) ∧
        ∀ (x : Nat) (k : KeySlot) (kl : Nat), s.cpx.heldX = some x → k = s.slot slot → kl = (if suite = 6 then 32 else 16) →
          (suite ≠ 5 → suite ≠ 6 → Completes (exec (.deriveToSlot who slot suite dec salt info) s) fun t =>
            Busy t ∧ t.cpx = { s.cpx with heldX := none, pka := some ⟨St.cmdBad, []⟩ }) ∧
          (suite = 5 → s.isSet R.FUS_STATUS_TRUNK_LOCK = true → salt.length = 32 → info.length ≤ 64 → Completes (exec (.deriveToSlot who slot suite dec salt info) s) fun t =>
            Busy t ∧ t.cpx = { s.cpx with heldX := none, pka := some ⟨St.keyPolicy, []⟩ }) ∧
          (suite = 6 ∨ (suite = 5 ∧ s.isSet R.FUS_STATUS_TRUNK_LOCK = false) → salt.length = 32 → info.length ≤ 64 →
            (k.state = .draining ∨ 2 ≤ k.gens.length → Completes (exec (.deriveToSlot who slot suite dec salt info) s) fun t =>
              Busy t ∧ t.cpx = { s.cpx with heldX := none, pka := some ⟨St.keyBusy, []⟩ }) ∧
            (k.state ≠ .draining → k.gens.length < 2 → Completes (exec (.deriveToSlot who slot suite dec salt info) s) fun t => Busy t ∧ t.cpx.heldX = none ∧
              t.cpx.pka = some ⟨St.ok, []⟩ ∧ (∀ m, m ≠ slot.val → t.slot m = s.slot m) ∧ ∃ okm, okm = hkdf salt (natToOs 32 x) info (kl + 4) ∧
              (t.slot slot).gens = ⟨(k.genNo + 1) % 65536, suite, dec, [okm.take kl, okm.drop kl], 0, false, false, false⟩ :: k.gens)))) ∧
  (∀ (s : State) (j : PkaJob), s.cpx.pka = some j → Completes (exec .pkaCommandDone s) fun t => t.isSet R.CPX_PKA_RESULT_BUSY = false ∧
    t.get R.CPX_PKA_RESULT_STATUS = j.status % 256 ∧ t.cpx = { s.cpx with pka := none, pkaOut := j.result } ∧ t.mem = s.mem ∧ t.ctr = s.ctr ∧
    (∀ a, (a < 0x0060004C ∨ 0x00600200 ≤ a) → t.reg a = s.reg a) ∧ (j.result = [] → SameRegsBut s t [R.CPX_PKA_RESULT_BUSY.addr])) ∧
  (∀ (s : State) (who : Sender), Serves s who R.CPX_RNG_DATA_DATA.addr →
    (s.cpx.rng ≠ .ready → Completes (exec (.rngDataRead (.read who)) s) fun t => t = { s with out := .readDone who R.CPX_RNG_DATA_DATA.addr 0 :: s.out }) ∧
    (s.cpx.rng = .ready → Completes (exec (.rngDataRead (.read who)) s) fun t => ∃ v, v < 2 ^ 32 ∧
      t = { s with freeCtr := s.freeCtr + 1, out := .readDone who R.CPX_RNG_DATA_DATA.addr v :: s.out })) ∧
  (∀ (s : State) (who : Sender),
    (s.cpx.rng ≠ .ready → Completes (exec (.rngDataRead (.request who)) s) fun t => t = { s with out := .done who St.rngNotReady [] :: s.out }) ∧
    (s.cpx.rng = .ready → Completes (exec (.rngDataRead (.request who)) s) fun t => ∃ v, v < 2 ^ 32 ∧
      t = { s with freeCtr := s.freeCtr + 1, out := .done who St.ok [v] :: s.out })) ∧
  ∀ s : State,
    (s.cpx.rng = .starting → Completes (exec .rngReady s) fun t => t = { s with regs := t.regs, cpx := { s.cpx with rng := .ready } } ∧
      t.isSet R.CPX_STATUS_RNG_READY = true ∧ SameRegsBut s t [R.CPX_STATUS_RNG_READY.addr]) ∧
    (s.cpx.rng = .retesting → Completes (exec .rngReady s) fun t => t.cpx = { s.cpx with rng := .ready } ∧ t.isSet R.CPX_STATUS_RNG_READY = true ∧
      t.isSet R.CPX_STATUS_TRANSIENT = true) ∧
    (s.cpx.rng = .ready ∨ s.cpx.rng = .failed → Completes (exec .rngReady s) fun t => t = s) ∧
    (s.cpx.rng = .ready ∨ s.cpx.rng = .starting → Completes (exec .rngHealthFail s) fun t => t.cpx = { s.cpx with rng := .retesting } ∧
      t.isSet R.CPX_STATUS_RNG_READY = false ∧ t.counter R.C_CPX_RNG_HEALTH_FAIL = (s.counter R.C_CPX_RNG_HEALTH_FAIL + 1) % 2 ^ 64 ∧
      SameCountersBut s t [R.C_CPX_RNG_HEALTH_FAIL] ∧ SameRegsBut s t [R.CPX_STATUS_RNG_READY.addr]) ∧
    (s.cpx.rng = .retesting → s.isFenced Unit.cpx 24 = false → Completes (exec .rngHealthFail s) fun t => ∃ u : State, t = u.keyEvent 6 0 0 0 ∧
      u.cpx = { s.cpx with rng := .failed } ∧ u.isSet R.CPX_STATUS_RNG_READY = false ∧ u.isSet R.CPX_STATUS_RNG_FAIL = true ∧
      u.isFenced Unit.cpx 24 = true ∧ u.isSet R.SQL_ALERT_CAUSE_FENCE = true) ∧
    (s.cpx.rng = .failed → Completes (exec .rngHealthFail s) fun t => t = s)

/-- R392, R399 to R402. `takeFrame` is the trunk unit's hand-over of a frame it holds, said in `TrunkFramesAreAuthenticatedOnce`.
Choices of the model: log entry 57. -/
def Obligations.TrunksKeyThemselves : Prop :=
  (∀ (s : State) (who : Sender) (n : Fin 256), Serves s who (R.TRK_Tt_CTRL_EN n).addr →
    (s.isSet (R.TRK_Tt_CTRL_EN n) = true → Completes (exec (.trunkEnable who n) s) fun t => t = s) ∧
    (s.isSet (R.TRK_Tt_CTRL_EN n) = false →
      ((∃ u, u < 256 ∧ u ≠ n.val ∧ s.isSet (R.TRK_Tt_CTRL_EN u) = true ∧ s.peerOf u = s.peerOf n) →
        Completes (exec (.trunkEnable who n) s) fun t => t.isSet R.TRK_STATUS_CFG_IGNORED = true ∧ t.isSet (R.TRK_Tt_CTRL_EN n) = false ∧
          t.trk = s.trk ∧ t.cpx = s.cpx ∧ t.ctr = s.ctr) ∧
      ((∀ u, u < 256 → u ≠ n.val → s.isSet (R.TRK_Tt_CTRL_EN u) = true → s.peerOf u ≠ s.peerOf n) →
        (s.isSet R.TRK_CTRL_ENABLE = false → Completes (exec (.trunkEnable who n) s) fun t => SetsOnly s t (R.TRK_Tt_CTRL_EN n) 1) ∧
        (s.isSet R.TRK_CTRL_ENABLE = true → Completes (exec (.trunkEnable who n) s) fun t => (t.trunk n).st = .handshake ∧
          t.isSet (R.TRK_Tt_CTRL_EN n) = true ∧ (∀ m, m ≠ n.val → t.trunk m = s.trunk m) ∧ t.cpx = s.cpx) ∧
        (s.isSet R.TRK_CTRL_ENABLE = true → s.cpx.rng ≠ .ready → (s.trunk n).st = .disabled → Completes (exec (.trunkEnable who n) s) fun t =>
          t = { s with regs := t.regs, trk := t.trk } ∧ t.get (R.TRK_Tt_STAT_STATE n) = 1 ∧ t.isSet (R.TRK_Tt_STAT_STATE_CHANGE n) = true))) ∧
    Completes (exec (.trunkDisable who n) s) fun t => t = { s with regs := t.regs, trk := t.trk } ∧ (t.trunk n).st = .disabled ∧
      t.isSet (R.TRK_Tt_CTRL_EN n) = false ∧ t.peerOf n = s.peerOf n ∧ (∀ m, m ≠ n.val → t.trunk m = s.trunk m) ∧
      ((s.trunk n).st ≠ .disabled → t.get (R.TRK_Tt_STAT_STATE n) = 0)) ∧
  (∀ (s : State) (n : Fin 256), ((s.trunk n).st ≠ .handshake ∨ s.cycle < (s.trunk n).helloAt + secCycles → Completes (exec (.helloResend n) s) fun t => t = s) ∧
    ((s.trunk n).st = .handshake → (s.trunk n).helloAt + secCycles ≤ s.cycle → Completes (exec (.helloResend n) s) fun t =>
      (t.trunk n).helloAt = s.cycle ∧ (t.trunk n).st = .handshake ∧ (s.cpx.rng = .ready → ((t.trunk n).hs.d.isSome = true ∧
        (s.templateOk (s.template s.trunkHdrBase n) = true → s.isSet R.TRK_CTRL_ENABLE = true →
          t.counter (R.C_TRK_Tt_TX_FRAMES n) = (s.counter (R.C_TRK_Tt_TX_FRAMES n) + 1) % 2 ^ 64))))) ∧
  (∀ (s u : State) (id ty : Nat) (f : TrunkFrame) (n : Nat) (signed : List Byte) (c : Instr), s.takeFrame id ty = (u, some f) → n = f.trunk → n < 256 →
    (ty, c) ∈ [(8, Instr.hello id), (9, .helloReply id)] →
    signed = (slice f.pkt.frame f.pkt.pay (f.pkt.pay + f.pkt.payLen)).take (f.pkt.payLen - 64) → f.pkt.pay + f.pkt.payLen ≤ f.pkt.frame.length →
    ((u.trunk n).st ≠ .handshake → Completes (exec c s) fun t => t = u) ∧
    ((u.trunk n).st = .handshake → u.helloOk n signed f.body = false ∨ (ty = 8 ∧ u.module < u.peerOf n) ∨ (ty = 9 ∧ u.peerOf n < u.module) →
      Completes (exec c s) fun t => ∃ v : State, t = v.trunkEvent 2 1 n none ∧ CountsOnly u v (R.C_TRK_Tt_HS_FAIL n) 1) ∧
    (∀ (d x y kl : Nat) (salt peerNonce : List Byte) (q : Nat × Nat) (send recv : Nat), (u.trunk n).st = .handshake → u.helloOk n signed f.body = true →
      ((ty = 8 ∧ u.peerOf n < u.module) ∨ (ty = 9 ∧ u.module < u.peerOf n)) → (u.trunk n).hs.d = some d →
      q = (be f.body 2 32, be f.body 34 32) → peerNonce = slice f.body 66 98 → P256.mul d (some q) 256 = some (x, y) →
      salt = sha256 (if u.module < u.peerOf n then (u.trunk n).hs.nonce ++ peerNonce else peerNonce ++ (u.trunk n).hs.nonce) →
      kl = (if u.isSet R.TRK_SUITE_GCM128 then 16 else 32) → (u.isSet R.TRK_SUITE_GCM128 = true → u.isSet R.FUS_STATUS_TRUNK_LOCK = false) →
      send = u.get (R.TRK_Tt_SLOTS_SEND n) → recv = u.get (R.TRK_Tt_SLOTS_RECV n) → send ≠ recv →
      (∀ k ∈ [send, recv], (u.slot k).state ≠ .draining ∧ (u.slot k).gens.length < 2) →
      Completes (exec c s) fun t => (t.trunk n).st = .healing ∧ (t.trunk n).resync = true ∧ t.get (R.TRK_Tt_STAT_KEY_PHASE n) = 0 ∧
        (t.slot send).cur?.map KeyGen.keys = some [(hkdf salt (natToOs 32 x) [0x48, 0x4B, 0x56, BitVec.ofNat 8 u.module, BitVec.ofNat 8 (u.peerOf n), 0] (kl + 4)).take kl,
          (hkdf salt (natToOs 32 x) [0x48, 0x4B, 0x56, BitVec.ofNat 8 u.module, BitVec.ofNat 8 (u.peerOf n), 0] (kl + 4)).drop kl] ∧
        (t.slot recv).cur?.map KeyGen.keys = some [(hkdf salt (natToOs 32 x) [0x48, 0x4B, 0x56, BitVec.ofNat 8 (u.peerOf n), BitVec.ofNat 8 u.module, 0] (kl + 4)).take kl,
          (hkdf salt (natToOs 32 x) [0x48, 0x4B, 0x56, BitVec.ofNat 8 (u.peerOf n), BitVec.ofNat 8 u.module, 0] (kl + 4)).drop kl] ∧
        (t.slot recv).cur?.map KeyGen.decryptOnly = some true ∧ (t.slot send).cur?.map KeyGen.decryptOnly = some false ∧
        (t.trunk n).genOf 0 = some ((t.slot recv).genNo % 2) ∧ SMap.get CounterWindow.init (t.trunk n).windows 0 = CounterWindow.init ∧
        SMap.get CounterWindow.init (t.trunk n).windows 1 = SMap.get CounterWindow.init (u.trunk n).windows 1 ∧
        ∀ m, m ≠ send → m ≠ recv → t.slot m = u.slot m)) ∧
  (∀ (s : State) (n : Fin 256) (k : Trunk) (send recv : Nat), k = s.trunk n → send = s.get (R.TRK_Tt_SLOTS_SEND n) → recv = s.get (R.TRK_Tt_SLOTS_RECV n) →
    (k.st.carries = false ∨ k.rekeying = true ∨ 2 ≤ (s.slot send).gens.length ∨ 2 ≤ (s.slot recv).gens.length ∨
        ((∀ g, (s.slot send).cur? = some g → g.rekey = false) ∧ s.cycle < k.keyAt + s.get R.TRK_REKEY_S_SECONDS * secCycles) →
      Completes (exec (.rekeyStart n) s) fun t => t = s) ∧
    (k.st.carries = true → k.rekeying = false → (s.slot send).gens.length < 2 → (s.slot recv).gens.length < 2 →
      (∃ g, (s.slot send).cur? = some g ∧ g.rekey = true) ∨ k.keyAt + s.get R.TRK_REKEY_S_SECONDS * secCycles ≤ s.cycle →
      Completes (exec (.rekeyStart n) s) fun t => (t.trunk n).rekeying = true ∧ (t.trunk n).st = k.st ∧ (∀ m, m ≠ n.val → t.trunk m = s.trunk m) ∧
        (s.cpx.rng = .ready → (t.trunk n).hs.d.isSome = true) ∧ (s.cpx.rng ≠ .ready → t.cpx = s.cpx))) ∧
  ∀ (s u : State) (id n : Nat) (f : TrunkFrame), s.takeFrame id 10 = (u, some f) → n = f.trunk → n < 256 →
    (f.body.length ≠ 162 ∨ (u.trunk n).peerId = none → Completes (exec (.rekey id) s) fun t =>
      ∃ v : State, t = v.trunkEvent 2 (u.trunk n).st.code n none ∧ CountsOnly u v (R.C_TRK_Tt_HS_FAIL n) 1) ∧
    ∀ (i q : Nat × Nat) (d x y recv : Nat) (signed : List Byte), f.body.length = 162 → (u.trunk n).peerId = some i → be f.body 0 1 = (if u.isSet R.TRK_SUITE_GCM128 then 5 else 6) →
      signed = patch ((slice f.pkt.frame f.pkt.pay (f.pkt.pay + 20) ++ f.body).take ((slice f.pkt.frame f.pkt.pay (f.pkt.pay + 20)).length + 98)) 12 (List.replicate 8 0) →
      P256.verify (osToNat (sha256 signed)) i.1 i.2 (be f.body 98 32) (be f.body 130 32) = true → (u.trunk n).rekeying = true → (u.trunk n).hs.d = some d →
      q = (be f.body 2 32, be f.body 34 32) → P256.mul d (some q) 256 = some (x, y) → (u.isSet R.TRK_SUITE_GCM128 = true → u.isSet R.FUS_STATUS_TRUNK_LOCK = false) →
      recv = u.get (R.TRK_Tt_SLOTS_RECV n) → u.get (R.TRK_Tt_SLOTS_SEND n) ≠ recv →
      (∀ k ∈ [u.get (R.TRK_Tt_SLOTS_SEND n), recv], (u.slot k).state ≠ .draining ∧ (u.slot k).gens.length < 2) → Completes (exec (.rekey id) s) fun t =>
        ∃ v : State, t = v.trunkEvent 3 (u.trunk n).st.code n none ∧ v.get (R.TRK_Tt_STAT_KEY_PHASE n) = 1 - u.get (R.TRK_Tt_STAT_KEY_PHASE n) ∧
          (v.trunk n).rekeying = false ∧ (v.trunk n).genOf (1 - u.get (R.TRK_Tt_STAT_KEY_PHASE n)) = some ((v.slot recv).genNo % 2) ∧
          (v.slot recv).genNo = ((u.slot recv).genNo + 1) % 65536

/-- R396, R397, R401 to R405, R408.
Choices of the model: log entries 58 and 62. -/
def Obligations.TrunkFramesAreAuthenticatedOnce : Prop :=
  (∀ (s : State) (id src ty : Nat) (c : Instr), (ty, c) ∈ [(1, Instr.media id), (2, .audio (.received id src)), (3, .reliable id), (4, .ack id),
      (5, .heartbeat id), (6, .probe id), (7, .probeReply id), (10, .rekey id), (11, .control id)] →
    ((∀ x ∈ s.trk.frames, x.1.id = id → trunkType (slice x.1.frame x.1.pay (x.1.pay + x.1.payLen)) ≠ ty) → Completes (exec c s) fun t => t = s) ∧
    ∀ (p : RxPacket) (n : Nat) (f : List Byte) (res : CipherResult) (w : CounterWindow), s.trk.frames.find? (fun x => x.1.id == id) = some (p, n) → p.cell = noCell → p.op ≠ 0 →
      f = slice p.frame p.pay (p.pay + p.payLen) → trunkType f = ty → SMap.get none s.cpx.results p.op = some res →
      w = SMap.get CounterWindow.init (s.trunk n).windows ((f.getD 1 0).toNat % 2) →
      ∀ ctr, (St.success res.status = false ∧ ctr = R.C_TRK_Tt_AUTH_DROP n) ∨
          (St.success res.status = true ∧ (∃ m, w.top = some m ∧ (be f 12 8 + 127 < m ∨ be f 12 8 ∈ w.seen)) ∧ ctr = R.C_TRK_Tt_REPLAY_DROP n) →
        Completes (exec c s) fun t => t = { s with ctr := t.ctr, cpx := t.cpx, trk := { s.trk with frames := s.trk.frames.filter fun x => x.1.id != id } } ∧
          t.counter ctr = (s.counter ctr + 1) % 2 ^ 64 ∧ SameCountersBut s t [ctr] ∧ t.cpx = { s.cpx with results := t.cpx.results }) ∧
  (∀ (s u : State) (id n a : Nat) (f : TrunkFrame) (e : List Byte), s.takeFrame id 1 = (u, some f) → n = f.trunk →
    a = u.pair R.TRK_CMAP_BASE_LO_ADDR R.TRK_CMAP_BASE_HI_ADDR + (n * 65536 + be f.body 0 2) * 8 → e = u.bytes a 8 →
    ((e.getD 7 0).toNat % 2 = 0 ∨ (e.getD 2 0).toNat = 0 ∨ 3 < (e.getD 2 0).toNat → Completes (exec (.media id) s) fun t => CountsOnly u t (R.C_TRK_Tt_CMAP_MISS n) 1) ∧
    (∀ (v w : State) (ptr stream : Nat) (p q : RxPacket), (e.getD 7 0).toNat % 2 = 1 → (e.getD 2 0).toNat = 2 → stream = leVal (e.take 2) →
      p = { f.pkt with id := u.rly.nextId, entry := cmapEntry e, frame := f.body.drop 2, pay := 0, payLen := (f.body.drop 2).length,
                       rtp := f.body.drop 2, op := 0, kind := 0, cell := noCell, ended := true, plan := .media, snap := none } →
      (u.withRly fun r => { r with nextId := r.nextId + 1, packets := r.packets ++ [p] }).classify p = (w, q) →
      w.allocCell (.fixed 0) 0 f.pkt.len .media true true = (v, .cell ptr) →
      (∀ q ∈ u.rly.packets, q.id ≠ u.rly.nextId) → SMap.get [] u.rly.building stream = [] → ((f.body.drop 2).getD 1 0).toNat.testBit 7 = false →
      Completes (exec (.media id) s) fun t => ∃ k, SMap.get [] t.rly.building stream = [k] ∧ k.seq = be f.body 4 2 ∧ k.ts = be f.body 6 4)) ∧
  (∀ (s u : State) (id src : Nat) (f : TrunkFrame), s.takeFrame id 2 = (u, some f) → src < 1536 → (u.source src).fifo.length + 240 ≤ 2048 →
    Completes (exec (.audio (.received id src)) s) fun t => (t.source src).fifo = (u.source src).fifo ++ (List.range 240).map (fun i => signed 32 (be f.body (8 + 4 * i) 4)) ∧
      (∀ i, i ≠ src → t.source i = u.source i) ∧ SMap.find? t.trk.sources (f.trunk * 4096 + be f.body 0 2) = some src ∧ t.ctr = u.ctr) ∧
  (∀ (s : State) (n conf bus : Nat), n < 256 →
    (s.mxm.next = 0 ∨ (s.trunk n).st.carries = false ∨ s.peerOf n ∈ (s.cascade conf).lost → Completes (exec (.audio (.sent n conf bus)) s) fun t => t = s) ∧
    (s.mxm.next ≠ 0 → (s.trunk n).st.carries = true → s.peerOf n ∉ (s.cascade conf).lost → s.templateOk (s.template s.trunkHdrBase n) = true → s.isSet R.TRK_CTRL_ENABLE = true → s.cpx.waiting = [] →
      Completes (exec (.audio (.sent n conf bus)) s) fun t => t.rly.copies.length = s.rly.copies.length + 2 ∧ t.cpx.nextId = s.cpx.nextId + 2 ∧ t.trk = s.trk)) ∧
  (∀ (s u : State) (id n seq : Nat) (f : TrunkFrame) (k : Trunk) (body : List Byte), s.takeFrame id 3 = (u, some f) → n = f.trunk → n < 256 → k = u.trunk n →
    seq = be f.body 0 4 → body = f.body.drop 4 → k.rxNext < 2 ^ 32 →
    (k.st.carries = false → k.gap = false → Completes (exec (.reliable id) s) fun t => t = u) ∧
    (k.st.carries = true → k.rxHeld = [] → k.gap = false → body.length ≤ u.get (R.TRK_Tt_WIN_WIN_MIB n) * 2 ^ 20 →
      (seq = k.rxNext → 0 < body.length → body.length ≤ 64 → 1 ≤ be body 0 1 → be body 0 1 ≤ 9 → u.queueRoom (16 + n) 1 = true → Completes (exec (.reliable id) s) fun t =>
        t.trunk n = { k with rxNext := (k.rxNext + 1) % 2 ^ 32, rxOctets := k.rxOctets + body.length, unacked := true } ∧
        ∃ v : State, t = (v.writeWord (16 + n) ⟨body ++ List.replicate (64 - body.length) 0, true, true, false, 0⟩ .entry).1 ∧ v = { u with regs := v.regs, trk := v.trk }) ∧
      (∀ d, 0 < d → d < 2 ^ 31 → seq = (k.rxNext + d) % 2 ^ 32 → Completes (exec (.reliable id) s) fun t => SMap.find? (t.trunk n).rxHeld seq = some body ∧
        (t.trunk n).rxNext = k.rxNext ∧ (t.trunk n).gap = false ∧ (t.trunk n).ackAt = u.cycle))) ∧
  (∀ (s u : State) (id n cum sack : Nat) (f : TrunkFrame) (k : Trunk), s.takeFrame id 4 = (u, some f) → n = f.trunk → n < 256 → k = u.trunk n →
    cum = be f.body 0 4 → sack = be f.body 4 8 →
    (k.st.carries = false → Completes (exec (.ack id) s) fun t => t = u) ∧
    (k.st.carries = true → (∀ b ∈ k.tx, b.sent = true) →
      (sack = 0 → Completes (exec (.ack id) s) fun t => t = { u with regs := t.regs, trk := t.trk } ∧ (t.trunk n).limit = max k.limit (be f.body 12 8) ∧
        (t.trunk n).tx = k.tx.filter fun b => !decide ((cum + 2 ^ 32 - b.seq) % 2 ^ 32 < 2 ^ 31)) ∧
      (∀ b, k.tx = [b] → b.later < 3 → b.seq = (cum + 1) % 2 ^ 32 → sack = 14 → Completes (exec (.ack id) s) fun t =>
        t.counter (R.C_TRK_Tt_RETX n) = (u.counter (R.C_TRK_Tt_RETX n) + 1) % 2 ^ 64 ∧
        (t.trunk n).tx = [{ b with later := 3, at_ := u.cycle, rto := min 2000000 (2 * b.rto) }]))) ∧
  (∀ (s u : State) (id : Nat) (f : TrunkFrame), s.takeFrame id 11 = (u, some f) →
    (be f.body 0 1 = 0 ∨ 9 < be f.body 0 1 → Completes (exec (.control id) s) fun t => CountsOnly u t (R.C_TRK_Tt_BAD_FRAME f.trunk) 1) ∧
    (1 ≤ be f.body 0 1 → be f.body 0 1 ≤ 9 → Completes (exec (.control id) s) fun t => t = { u with out := .firmware 12 (f.trunk :: f.body.map BitVec.toNat) :: u.out })) ∧
  ∀ (s : State) (n : Fin 256) (k : Trunk), k = s.trunk n →
    (k.rxHeld = [] → k.gap = false → k.st.carries = false ∨ k.unacked = false ∨ s.cycle < k.ackAt + 5 * msCycles → Completes (exec (.ackSend n) s) fun t => t = s) ∧
    (k.rxHeld = [] → k.st.carries = true → k.gap = true ∨ (k.unacked = true ∧ k.ackAt + 5 * msCycles ≤ s.cycle) → Completes (exec (.ackSend n) s) fun t =>
      (t.trunk n).unacked = false ∧ (t.trunk n).gap = false ∧ (t.trunk n).ackAt = s.cycle ∧
      (k.pool = none → (t.trunk n).granted = max k.granted (k.rxOctets + s.get (R.TRK_Tt_WIN_WIN_MIB n) * 2 ^ 20)) ∧
      (∀ p, k.pool = some p → s.get (R.BPM_Pp_LEVEL_LEVEL p) ≠ 0 → (t.trunk n).granted = k.granted)) ∧
    ∀ seq, ((∀ b ∈ k.tx, b.seq = seq → b.sent = false) → Completes (exec (.retransmitTimeout n seq) s) fun t => t = s) ∧
      ∀ b, k.tx = [b] → b.seq = seq → b.sent = true →
        (k.st.carries = false ∨ s.cycle < b.at_ + b.rto * usCycles → Completes (exec (.retransmitTimeout n seq) s) fun t => t = s) ∧
        (k.st.carries = true → b.at_ + b.rto * usCycles ≤ s.cycle → Completes (exec (.retransmitTimeout n seq) s) fun t =>
          (t.trunk n).tx = [{ b with at_ := s.cycle, rto := min 2000000 (2 * b.rto) }] ∧
          t.counter (R.C_TRK_Tt_RETX n) = (s.counter (R.C_TRK_Tt_RETX n) + 1) % 2 ^ 64)

/-- R412, with R404's estimate and R407.
Choices of the model: log entry 58. -/
def Obligations.TrunksFollowTheirHeartbeats : Prop :=
  (∀ (s : State) (n : Fin 256) (k : Trunk), k = s.trunk n →
    (k.st = .disabled ∨ k.st = .handshake ∨ s.cycle < k.hbAt + 20 * msCycles → Completes (exec (.heartbeatSend n) s) fun t => t = s) ∧
    (k.st ≠ .disabled → k.st ≠ .handshake → k.hbAt + 20 * msCycles ≤ s.cycle → Completes (exec (.heartbeatSend n) s) fun t =>
      (t.trunk n).hbNext = (k.hbNext + 1) % 2 ^ 32 ∧ (t.trunk n).hbAt = s.cycle ∧ SMap.find? (t.trunk n).hbSent k.hbNext = some s.cycle ∧ (t.trunk n).st = k.st ∧
      Sends s t n 5 (if k.resync then 2 else 0) (natToOs 4 k.hbNext ++ natToOs 4 k.hbGot ++ natToOs 8 s.time64)) ∧
    (k.st = .disabled ∨ k.st = .handshake ∨ s.cycle < k.missFrom + 20 * msCycles → Completes (exec (.heartbeatMiss n) s) fun t => t = s) ∧
    (k.missFrom + 20 * msCycles ≤ s.cycle →
      (k.st = .up → s.get (R.TRK_Tt_STAT_MISSES n) < 4 → Completes (exec (.heartbeatMiss n) s) fun t => (t.trunk n) = { k with missFrom := k.missFrom + 20 * msCycles } ∧
        t.get (R.TRK_Tt_STAT_MISSES n) = s.get (R.TRK_Tt_STAT_MISSES n) + 1 ∧ t.counter (R.C_TRK_Tt_HB_MISSED n) = (s.counter (R.C_TRK_Tt_HB_MISSED n) + 1) % 2 ^ 64 ∧
        t = { s with regs := t.regs, ctr := t.ctr, trk := t.trk } ∧ SameCountersBut s t [R.C_TRK_Tt_HB_MISSED n]) ∧
      (k.st = .up → 4 ≤ s.get (R.TRK_Tt_STAT_MISSES n) → Completes (exec (.heartbeatMiss n) s) fun t => (t.trunk n).st = .probe1 ∧
        (t.trunk n).probeAt = s.cycle ∧ (t.trunk n).probeId = (k.probeId + 1) % 2 ^ 32 ∧ (∀ m, m ≠ n.val → t.trunk m = s.trunk m)) ∧
      (k.st = .healing → Completes (exec (.heartbeatMiss n) s) fun t => (t.trunk n).st = .down ∧ (t.trunk n).count = 0 ∧ t.get (R.TRK_Tt_STAT_STATE n) = 5)) ∧
    ((k.st ≠ .probe1 ∧ k.st ≠ .probe2) ∨ s.cycle < k.probeAt + 50 * msCycles → Completes (exec (.probeTimeout n) s) fun t => t = s) ∧
    (k.probeAt + 50 * msCycles ≤ s.cycle →
      (k.st = .probe1 → Completes (exec (.probeTimeout n) s) fun t => (t.trunk n).st = .probe2 ∧ (t.trunk n).probeAt = s.cycle ∧
        Sends s t n 6 0 (natToOs 4 ((k.probeId + 1) % 2 ^ 32))) ∧
      (k.st = .probe2 → Completes (exec (.probeTimeout n) s) fun t => (t.trunk n).st = .down ∧ (t.trunk n).tx = [] ∧ (t.trunk n).rxHeld = [] ∧
        (t.trunk n).resync = true ∧ (t.trunk n).rtt = k.rtt ∧ (∀ m, m ≠ n.val → t.trunk m = s.trunk m) ∧ t.cpx = s.cpx ∧
        t.counter (R.C_TRK_Tt_DOWN_EVENTS n) = (s.counter (R.C_TRK_Tt_DOWN_EVENTS n) + 1) % 2 ^ 64))) ∧
  (∀ (s u : State) (id n seq echo : Nat) (f : TrunkFrame) (k : Trunk), s.takeFrame id 5 = (u, some f) → n = f.trunk → n < 256 → k = u.trunk n →
    seq = be f.body 0 4 → echo = be f.body 4 4 →
    (k.st = .disabled ∨ k.st = .handshake → Completes (exec (.heartbeat id) s) fun t => SetsOnly u t (R.TRK_Tt_STAT_MISSES n) 0) ∧
    ((k.st = .up ∧ f.flags % 4 / 2 = 0) ∨ k.st = .probe1 ∨ k.st = .probe2 → Completes (exec (.heartbeat id) s) fun t => t = { u with regs := t.regs, trk := t.trk } ∧
      t.trunk n = { k with st := .up, hbGot := seq, missFrom := u.cycle, rtt := (t.trunk n).rtt } ∧ t.get (R.TRK_Tt_STAT_MISSES n) = 0 ∧
      (SMap.find? k.hbSent echo = none → (t.trunk n).rtt = k.rtt) ∧
      (∀ c, SMap.find? k.hbSent echo = some c → (t.trunk n).rtt = some (match k.rtt with
        | none => ((u.cycle - c) / 1500, (u.cycle - c) / 1500 / 2)
        | some (srtt, var) => ((7 * srtt + (u.cycle - c) / 1500) / 8, (3 * var + ((u.cycle - c) / 1500 - srtt + (srtt - (u.cycle - c) / 1500))) / 4))) ∧
      (∀ m, m ≠ n → t.trunk m = u.trunk m)) ∧
    (k.st = .up → f.flags % 4 / 2 = 1 → Completes (exec (.heartbeat id) s) fun t => (t.trunk n).st = .down ∧ (t.trunk n).resync = true ∧ (t.trunk n).tx = [] ∧
      t.counter (R.C_TRK_Tt_DOWN_EVENTS n) = (u.counter (R.C_TRK_Tt_DOWN_EVENTS n) + 1) % 2 ^ 64) ∧
    (k.st = .down → k.count = 0 → Completes (exec (.heartbeat id) s) fun t => (t.trunk n).st = .healing ∧ (t.trunk n).count = 1 ∧ (t.trunk n).counted = seq) ∧
    (∀ c, k.st = .healing → SMap.find? k.hbSent echo = some c → (echo + 2 ^ 32 - k.downSeq) % 2 ^ 32 < 2 ^ 31 → seq = (k.counted + 1) % 2 ^ 32 →
      (k.count = 1 → Completes (exec (.heartbeat id) s) fun t => (t.trunk n).st = .healing ∧ (t.trunk n).count = 2 ∧ (t.trunk n).counted = seq) ∧
      (k.count = 2 → 0 < u.get (R.TRK_Tt_WIN_WIN_MIB n) → u.trk.confs = [] → Completes (exec (.heartbeat id) s) fun t => (t.trunk n).st = .up ∧ (t.trunk n).resync = false ∧
        ∃ b, (t.trunk n).tx = [b] ∧ b.seq = 0 ∧ b.body = [] ∧ b.sent = true)) ∧
    (k.st = .healing → seq ≠ (k.counted + 1) % 2 ^ 32 → Completes (exec (.heartbeat id) s) fun t => (t.trunk n).st = .healing ∧ (t.trunk n).count = 1)) ∧
  (∀ (s u : State) (id n : Nat) (f : TrunkFrame), s.takeFrame id 6 = (u, some f) → n = f.trunk → n < 256 →
    ((u.trunk n).st = .disabled → Completes (exec (.probe id) s) fun t => t = u) ∧
    ((u.trunk n).st ≠ .disabled → Completes (exec (.probe id) s) fun t => t.trk = u.trk ∧ Sends u t n 7 0 (f.body.take 4))) ∧
  ∀ (s u : State) (id n : Nat) (f : TrunkFrame) (k : Trunk), s.takeFrame id 7 = (u, some f) → n = f.trunk → n < 256 → k = u.trunk n →
    ((k.st ≠ .probe1 ∧ k.st ≠ .probe2) ∨ be f.body 0 4 ≠ k.probeId ∨ k.probeAt + 50 * msCycles < u.cycle → Completes (exec (.probeReply id) s) fun t => t = u) ∧
    (k.st = .probe1 ∨ k.st = .probe2 → be f.body 0 4 = k.probeId → u.cycle ≤ k.probeAt + 50 * msCycles → Completes (exec (.probeReply id) s) fun t =>
      t.trunk n = { k with st := .up, missFrom := u.cycle } ∧ t.get (R.TRK_Tt_STAT_MISSES n) = 0 ∧ t.get (R.TRK_Tt_STAT_STATE n) = 2 ∧ t = { u with regs := t.regs, trk := t.trk })

/-- R409 to R419, R544, R545. A conference-wide operation is named by the object it writes (log entry 60).
Choices of the model: log entries 60, 61 and 81. -/
def Obligations.ConferencesHaveOneAnchor : Prop :=
  (∀ (s u : State) (h : GulHead) (n : Nat) (g : GulSession) (conf leg : BitVec 16) (c l : Nat), Heard s u h 8 n g → g.role = 2 → s.bootStage = 0x60 →
    c = conf.toNat → l = leg.toNat → c < 4096 → l < u.legLimit → u.gul.waits = [] →
    (u.obj 0x400001 c 0 = 0 → Completes (exec (.confCreate h conf) s) fun t => t.obj 0x400001 c 0 = 1 ∧ t.roleOf c = 1 ∧ t.anchorOf c = u.module ∧ t.epochOf c = 1 ∧
      t.anchorEpochOf c = 1 ∧ t.obj 0x400004 c 255 = g.fn ∧ Replied t n h.seq.toNat (writeReply h.seq.toNat [St.ok])) ∧
    (u.obj 0x400001 c 0 ≠ 0 → Completes (exec (.confCreate h conf) s) fun t => t.objNum = u.objNum ∧ Replied t n h.seq.toNat (writeReply h.seq.toNat [St.objRange])) ∧
    (u.obj 0x400001 c 0 = 1 → u.roleOf c = 1 → u.legsOf c = [] → (u.cascade c).roster = [] → Completes (exec (.confEnd h conf) s) fun t => t.obj 0x400001 c 0 = 0 ∧
      t.roleOf c = 0 ∧ t.obj 0x400004 c 255 = 255 ∧ Replied t n h.seq.toNat (writeReply h.seq.toNat [St.ok])) ∧
    (u.legState l = 1 → u.obj 0x400001 c 0 = 1 → u.obj 0x400006 c 0 = 0 → u.roleOf c = 1 → (u.cascade c).members = [] → (u.cascade c).lost = [] →
      Completes (exec (.legAttach h leg conf) s) fun t => t.legState l = 2 ∧ t.confOf l = c ∧ t.obj 0x602001 l 0 = 1 ∧ SMap.get none t.fw.connecting l = some u.cycle ∧
        SMap.get .left (t.cascade c).roster (u.rosterId l) = .present ∧ Replied t n h.seq.toNat (writeReply h.seq.toNat [St.ok])) ∧
    (u.legState l ≠ 1 ∨ u.obj 0x400001 c 0 ≠ 1 ∨ u.obj 0x400006 c 0 ≠ 0 → Completes (exec (.legAttach h leg conf) s) fun t => t.objNum = u.objNum ∧ t.trk = u.trk ∧
      Replied t n h.seq.toNat (writeReply h.seq.toNat [St.objRange])) ∧
    (u.confOf l = 0xFFFF → (u.legState l ≠ 0 → Completes (exec (.legDetach h leg) s) fun t => t.legState l = 1 ∧ t.confOf l = 0xFFFF ∧ t.obj 0x506101 l 0 = 0 ∧ Replied t n h.seq.toNat (writeReply h.seq.toNat [St.ok])) ∧
      (u.slotsOfLeg l = [] → u.fctOfLeg l = [] → Completes (exec (.legRelease h leg) s) fun t => t.legState l = 0 ∧ t.obj 0x401010 l 0 = 0 ∧ t.cpx = u.cpx ∧ t.mem = u.mem ∧
        Replied t n h.seq.toNat (writeReply h.seq.toNat [St.ok])))) ∧
  (∀ (s : State) (leg : Fin 16384), (∀ suite (o : ViewerOffer) (kbps : Nat), kbps = min (s.obj 0x401011 leg 1500) (canvasKbps (s.obj 0x506102 leg 3)) →
      (s.legState leg ≠ 2 → Completes (exec (.legConnected leg ⟨suite, o⟩) s) fun t => t = s) ∧
      (s.legState leg = 2 → Completes (exec (.legConnected leg ⟨suite, o⟩) s) fun t => t.legState leg = 3 ∧ t.obj 0x401010 leg 0 = suite ∧ t = { s with objNum := t.objNum, fw := t.fw } ∧
        (s.obj 0x40100F leg 0 = 0 ∨ o.forwards = true → t.obj 0x506101 leg 0 = 0) ∧
        (s.obj 0x40100F leg 0 = 3 → o.forwards = false → o.profile = .main ∨ o.profile = .main10 → (canvasOf (s.obj 0x506102 leg 3)).level ≤ o.level →
          s.layoutKbps o.layout ≤ kbps → s.isFenced Unit.tsp 0 = false → t.obj 0x506101 leg 0 = 1) ∧
        (s.obj 0x40100F leg 0 ≠ 0 → o.forwards = false →
          s.obj 0x40100F leg 0 ≠ 3 ∨ (o.profile ≠ .main ∧ o.profile ≠ .main10) ∨ o.level < (canvasOf (s.obj 0x506102 leg 3)).level ∨ kbps < s.layoutKbps o.layout ∨
            s.isFenced Unit.tsp 0 = true → t.obj 0x506101 leg 0 = 2))) ∧
    ∀ bad c, SMap.get none s.fw.connecting leg = some c →
      (s.legState leg = 2 → (bad = true ∨ c + 30 * secCycles ≤ s.cycle) → Completes (exec (.legConnectTimeout leg bad) s) fun t => t.legState leg = 4 ∧ t = { s with objNum := t.objNum, fw := t.fw }) ∧
      (s.legState leg ≠ 2 ∨ (bad = false ∧ s.cycle < c + 30 * secCycles) → Completes (exec (.legConnectTimeout leg bad) s) fun t => t = s)) ∧
  (∀ (s : State) (who : Sender) (conf : Fin 4096) (op : ConfOp) (c : Cascade), c = s.cascade conf →
    (s.roleOf conf = 1 → op.object = none → 0x400006 ≤ op.op → op.op ≤ 0x400008 → Completes (exec (.confOp none who conf op) s) fun t =>
      t.obj op.op conf 0 = op.arg ∧ t = { s with objNum := t.objNum, trk := t.trk, out := .done who St.ok [conf.val] :: s.out } ∧ (t.cascade conf).journal = c.journal) ∧
    (s.roleOf conf = 2 → s.ownLeg op = false → s.trunkTo (s.anchorOf conf) = none → Completes (exec (.confOp none who conf op) s) fun t =>
      t = { s with out := .done who St.trunkDown [conf.val] :: s.out }) ∧
    (∀ k, s.roleOf conf = 2 → s.ownLeg op = false → s.trunkTo (s.anchorOf conf) = some k → (s.trunk k).st.carries = true → s.get (R.TRK_Tt_WIN_WIN_MIB k) ≠ 0 →
      Completes (exec (.confOp none who conf op) s) fun t => (t.cascade conf).asked = c.asked ++ [(.unit who, op.op, op.arg)] ∧
        (t.trunk k).txNext = ((s.trunk k).txNext + 1) % 2 ^ 32 ∧ t.objNum = s.objNum) ∧
    (s.roleOf conf = 3 → s.ownLeg op = false → s.obj 0x820005 conf 0 = 0 → Completes (exec (.confOp none who conf op) s) fun t =>
      t = { s with out := .done who St.trunkIsland [conf.val] :: s.out }) ∧
    (s.roleOf conf = 3 → (s.ownLeg op = true ∨ s.obj 0x820005 conf 0 ≠ 0) → s.obj 0x800005 0 4096 ≤ c.journal.length → Completes (exec (.confOp none who conf op) s) fun t =>
      t = { s with out := .done who St.trunkJournalFull [conf.val] :: s.out }) ∧
    (s.roleOf conf = 3 → s.ownLeg op = false → s.obj 0x820005 conf 0 ≠ 0 → c.journal.length < s.obj 0x800005 0 4096 → Completes (exec (.confOp none who conf op) s) fun t =>
      t.cascade conf = { c with journal := c.journal ++ [⟨s.epochOf conf, s.time64, s.isSet R.TIM_CTRL_TIME_VALID, op.object, op.op, op.arg, true⟩] } ∧
      t.obj 0x820007 conf 0 = c.journal.length + 1 ∧ t = { s with objNum := t.objNum, trk := t.trk, out := .done who St.trunkQueued [conf.val] :: s.out }) ∧
    (∀ id, s.roleOf conf = 3 → op.object = some id → s.isLocal id = true → op.op = 0x602003 → c.journal.length < s.obj 0x800005 0 4096 → Completes (exec (.confOp none who conf op) s) fun t =>
      t.obj 0x602003 (id % 16384) 0 = op.arg ∧ (t.cascade conf).journal.length = c.journal.length + 1 ∧ t.out = .done who St.ok [conf.val] :: s.out) ∧
    (∀ k, s.roleOf conf ≠ 1 → Completes (exec (.confOp (some k) who conf op) s) fun t => t = s) ∧
    (∀ (k : Fin 256) st, s.peerOf k ≠ s.anchorOf conf ∨ c.asked = [] → Completes (exec (.confOpResult k conf st) s) fun t => t = s) ∧
    (∀ (k : Fin 256) st x rest, s.peerOf k = s.anchorOf conf → c.asked = (.unit who, x) :: rest →
      (St.listed st = true ∨ st = St.unitFenced → Completes (exec (.confOpResult k conf st) s) fun t =>
        t.cascade conf = { c with asked := rest } ∧ t = { s with trk := t.trk, out := .done who st [conf.val] :: s.out }) ∧
      (St.listed st = false → st ≠ St.unitFenced → Completes (exec (.confOpResult k conf st) s) fun t => t = s)) ∧
    (s.roleOf conf ≠ 3 → Completes (exec (.promote who conf) s) fun t => t = { s with out := .done who St.trunkNotIsland [conf.val] :: s.out }) ∧
    (s.roleOf conf = 3 → (∀ e ∈ c.journal, e.queued = false) → Completes (exec (.promote who conf) s) fun t => t.roleOf conf = 1 ∧ t.anchorOf conf = s.module ∧
      t.anchorEpochOf conf = (s.anchorEpochOf conf + 1) % 2 ^ 32 ∧ t.epochOf conf = (s.epochOf conf + 1) % 2 ^ 32 ∧ (t.cascade conf).journal = c.journal ∧
      t = { s with objNum := t.objNum, trk := t.trk, out := .done who St.ok [conf.val] :: s.out })) ∧
  ∀ (s : State) (k : Fin 256) (conf : Fin 4096) (c : Cascade) (peer : Nat), c = s.cascade conf → peer = s.peerOf k →
    (∀ ae e len, (s.roleOf conf = 0 → Completes (exec (.stateSummary k conf peer ae e len) s) fun t => t.roleOf conf = 2 ∧ t.anchorOf conf = peer % 256 ∧ t.epochOf conf = e % 2 ^ 32 ∧
        t.anchorEpochOf conf = ae % 2 ^ 32 ∧ t.obj 0x400001 conf 0 = 1 ∧ peer ∈ (t.cascade conf).members) ∧
      (s.roleOf conf = 2 → peer = s.anchorOf conf → Completes (exec (.stateSummary k conf peer ae e len) s) fun t => t.epochOf conf = e % 2 ^ 32 ∧
        t.anchorEpochOf conf = ae % 2 ^ 32 ∧ t = { s with objNum := t.objNum }) ∧
      (∀ a, a ≠ peer → s.roleOf conf = 0 ∨ s.roleOf conf = 2 ∨ s.roleOf conf = 3 → Completes (exec (.stateSummary k conf a ae e len) s) fun t => t = s) ∧
      (s.roleOf conf = 3 → ae < s.anchorEpochOf conf → Completes (exec (.stateSummary k conf peer ae e len) s) fun t => t = s) ∧
      (s.roleOf conf = 3 → s.anchorEpochOf conf ≤ ae → c.journal = [] → Completes (exec (.stateSummary k conf peer ae e len) s) fun t =>
        (t.cascade conf).joining = true ∧ t.anchorOf conf = peer % 256 ∧ t.roleOf conf = 3)) ∧
    (∀ e time v op, (s.roleOf conf ≠ 1 → Completes (exec (.journalEntry k conf e time v op) s) fun t => t = s) ∧
      (s.roleOf conf = 1 → Completes (exec (.journalEntry k conf e time v op) s) fun t => t.cascade conf = { c with replay := c.replay ++ [⟨e, time, v, op.object, op.op, op.arg, false⟩] } ∧
        t = { s with trk := t.trk })) ∧
    (∀ count, s.roleOf conf ≠ 1 ∨ c.replay.length ≠ count → Completes (exec (.journalDone k conf count) s) fun t => t = s) ∧
    (∀ e, s.roleOf conf = 1 → c.replay = [e] → e.object = none → 0x400006 ≤ e.op → e.op ≤ 0x400008 → Completes (exec (.journalDone k conf 1) s) fun t =>
      t.epochOf conf = (s.epochOf conf + 1) % 2 ^ 32 ∧ (t.cascade conf).journal = [] ∧ (t.cascade conf).replay = [] ∧ (t.cascade conf).lost = c.lost.filter (fun m => m != peer) ∧
      ((∀ j ∈ c.journal, j.object ≠ none) → t.obj e.op conf 0 = e.arg) ∧
      (∀ j ∈ c.journal, j.object = none → e.epoch < j.epoch → t.obj e.op conf 0 = s.obj e.op conf 0)) ∧
    (∀ e id p, c.joining = false → s.obj 0x400001 conf 0 ≠ 2 → Completes (exec (.rosterUpdate k conf e id p) s) fun t =>
      SMap.get .left (t.cascade conf).roster (id % 2 ^ 22) = p ∧ t = { s with objNum := t.objNum, trk := t.trk } ∧ t.roleOf conf = s.roleOf conf) ∧
    (∀ e id p, c.joining = true → peer = s.anchorOf conf → s.obj 0x400001 conf 0 ≠ 2 → Completes (exec (.rosterUpdate k conf e id p) s) fun t =>
      t.roleOf conf = 2 ∧ t.epochOf conf = e % 2 ^ 32 ∧ (t.cascade conf).journal = [] ∧ (t.cascade conf).lost = [] ∧ (t.cascade conf).joining = false) ∧
    (∀ e pairs, (s.roleOf conf ≠ 1 → Completes (exec (.talkerReport k conf e pairs) s) fun t => t = s) ∧
      (s.roleOf conf = 1 → Completes (exec (.talkerReport k conf e pairs) s) fun t => t = { s with trk := t.trk } ∧
        SMap.get [] (t.cascade conf).reports peer = (pairs.take 8).map fun p => (peer * 16384 + p.1 % 16384, p.2))) ∧
    (∀ e ids, (s.roleOf conf ≠ 2 ∨ peer ≠ s.anchorOf conf → Completes (exec (.talkerSet k conf e ids) s) fun t => t = s) ∧
      (s.roleOf conf = 2 → peer = s.anchorOf conf → Completes (exec (.talkerSet k conf e ids) s) fun t => t = { s with trk := t.trk } ∧
        t.cascade conf = { c with setDue := some (ids.map fun i => i % 2 ^ 22), setAt := s.mxm.began })) ∧
    ∀ stream, Completes (exec (.channelOffer k conf stream) s) fun t => t = { s with trk := t.trk } ∧
      t.cascade conf = { c with offers := c.offers.filter (fun x => x != (peer, stream % 65536)) ++ [(peer, stream % 65536)] }

/-- R425 to R436, R442 and R451: the commands of the HTS command port.
Choices of the model: log entries 14, 32 and 33. -/
def Obligations.TaskCommandsBuildAndRunTheGraph : Prop :=
  (∀ (s : State) (who : Sender), Serves s who R.HTS_SLOTS_MAX_SLOTS.addr → Completes (exec (.slotsMaxWrite who) s) fun t =>
    SetsOnly s t R.HTS_SLOTS_MAX_SLOTS (s.get R.HTS_SLOTS_USED_SLOTS)) ∧
  (∀ (s : State) (who : Sender), mayCreate who = false → ∀ d p u m i,
    ∀ c ∈ [Instr.create who d, .link who p u m, .arm who i, .cancel who i], Completes (exec c s) fun t => t = s) ∧
  (∀ (s : State) (who : Sender) (d : List Byte), mayCreate who = true →
    (descOk d = false → Completes (exec (.create who d) s) fun t => t = { s with out := .done who St.htsBadDesc [0] :: s.out }) ∧
    ((d.headD 0).toNat ∉ [1, 3, 5, 6, 7, 8, 9, 10] ∨ d.length ≠ 128 ∨ 16 ≤ (d.getD 2 0).toNat → descOk d = false) ∧
    (descOk d = true → (d.headD 0).toNat < 8 → 4096 - s.get R.HTS_SLOTS_USED_SLOTS < s.get R.HTS_RESV_SLOTS → Completes (exec (.create who d) s) fun t =>
      t.out = .done who St.htsFull [0] :: s.out ∧ t.hts = s.hts ∧ t.regs = s.regs ∧ t.counter R.C_HTS_FULL_REFUSED = (s.counter R.C_HTS_FULL_REFUSED + 1) % 2 ^ 64) ∧
    (∀ n k, descOk d = true → s.get R.HTS_RESV_SLOTS ≤ 4096 - s.get R.HTS_SLOTS_USED_SLOTS ∨ 8 ≤ (d.headD 0).toNat → n < 4096 → (s.taskAt n).st = .free →
      (∀ m, m < n → (s.taskAt m).st ≠ .free) → k = (if ((s.taskAt n).inc + 1) % 2 ^ 20 = 0 then 1 else ((s.taskAt n).inc + 1) % 2 ^ 20) →
      Completes (exec (.create who d) s) fun t => t.out = .done who St.ok [k * 4096 + n] :: s.out ∧ (∀ m, m ≠ n → t.taskAt m = s.taskAt m) ∧
        (t.taskAt n).inc = k ∧ (t.taskAt n).st = .held ∧ (t.taskAt n).desc = d ∧ (t.taskAt n).armed = true ∧ (t.taskAt n).succs = [] ∧
        ((d.getD 14 0) = 0 → (t.taskAt n).counter = 1) ∧
        ((d.getD 14 0) ≠ 0 → SMap.get none s.hts.events (d.getD 14 0).toNat = none → (t.taskAt n).counter = 2 ∧ (t.taskAt n).evtPending = true) ∧
        t.get R.HTS_SLOTS_USED_SLOTS = min 8191 (s.get R.HTS_SLOTS_USED_SLOTS + 1) ∧ t = { s with regs := t.regs, ctr := t.ctr, hts := t.hts, out := t.out } ∧
        SameCountersBut s t [R.C_HTS_CREATED] ∧ SameRegsBut s t [R.HTS_SLOTS_USED_SLOTS.addr, R.HTS_SLOTS_MAX_SLOTS.addr])) ∧
  (∀ (s : State) (who : Sender) (pred succ mode : Nat), mayCreate who = true → (∀ c ∈ s.pending, eventPhase c = none) →
    ((∀ u, s.liveTask succ = some u → u.st ≠ .held ∨ u.armed = false) → Completes (exec (.link who pred succ mode) s) fun t =>
      t = { s with out := .done who St.htsStaleId [0] :: s.out }) ∧
    ∀ u, s.liveTask succ = some u → u.st = .held → u.armed = true →
      (s.liveTask pred = none → Completes (exec (.link who pred succ mode) s) fun t => t = { s with out := .done who St.ok [1] :: s.out }) ∧
      ∀ p, s.liveTask pred = some p → pred ≠ succ →
        (mode = 1 → 0 < p.strips → Completes (exec (.link who pred succ mode) s) fun t => t = { s with out := .done who St.ok [1] :: s.out }) ∧
        (mode = 0 ∨ p.strips = 0 → 8 ≤ p.succs.length → Completes (exec (.link who pred succ mode) s) fun t => t = { s with out := .done who St.htsFanout [0] :: s.out }) ∧
        (mode = 0 ∨ p.strips = 0 → p.succs.length < 8 → 255 ≤ u.counter → Completes (exec (.link who pred succ mode) s) fun t =>
          t = { s with out := .done who St.htsCounterOvf [0] :: s.out }) ∧
        (mode = 0 ∨ p.strips = 0 → p.succs.length < 8 → u.counter < 255 → Completes (exec (.link who pred succ mode) s) fun t =>
          t.taskAt (slotOf succ) = { u with counter := u.counter + 1 } ∧ t.taskAt (slotOf pred) = { p with succs := p.succs ++ [(succ, mode == 1)] } ∧
          (∀ m, m ≠ slotOf succ → m ≠ slotOf pred → t.taskAt m = s.taskAt m) ∧ t = { s with hts := t.hts, out := .done who St.ok [0] :: s.out })) ∧
  (∀ (s : State) (who : Sender) (id : Nat), mayCreate who = true →
    ((∀ k, s.liveTask id = some k → k.st ≠ .held ∨ k.armed = false) → Completes (exec (.arm who id) s) fun t => t = { s with out := .done who St.htsStaleId [] :: s.out }) ∧
    ((∀ c ∈ s.pending, eventPhase c = none) → s.liveTask id = none → Completes (exec (.cancel who id) s) fun t => t = { s with out := .done who St.htsStaleId [] :: s.out }) ∧
    ∀ k, s.liveTask id = some k →
      (k.st = .held → k.armed = true → 1 < k.counter → Completes (exec (.arm who id) s) fun t => t.taskAt (slotOf id) = { k with armed := false, counter := k.counter - 1 } ∧
        (∀ m, m ≠ slotOf id → t.taskAt m = s.taskAt m) ∧ t = { s with hts := t.hts, out := .done who St.ok [] :: s.out }) ∧
      (k.st = .held → k.armed = true → k.counter ≤ 1 → k.kind < 10 → (∀ r, r = { k with armed := false, counter := 0, st := .ready, readyAt := s.cycle } →
        s.noConsumer r = false → Completes (exec (.arm who id) s) fun t => t.taskAt (slotOf id) = r ∧ (∀ m, m ≠ slotOf id → t.taskAt m = s.taskAt m) ∧
          t.get (R.HTS_READY_TASKS r.queue) = min 8191 (s.get (R.HTS_READY_TASKS r.queue) + 1) ∧ t.ctr = s.ctr ∧ t.out = .done who St.ok [] :: s.out)) ∧
      (k.st = .held → k.armed = true → k.counter ≤ 1 → k.kind = 10 → k.succs = [] → k.cq = 0 → Completes (exec (.arm who id) s) fun t =>
        (t.taskAt (slotOf id)).st = .free ∧ (t.taskAt (slotOf id)).inc = k.inc ∧ t.counter R.C_HTS_COMPLETED = (s.counter R.C_HTS_COMPLETED + 1) % 2 ^ 64 ∧
        SameCountersBut s t [R.C_HTS_COMPLETED, R.C_HTS_LATE_DONE]) ∧
      ((∀ c ∈ s.pending, eventPhase c = none) → k.st = .running → Completes (exec (.cancel who id) s) fun t => t = { s with out := .done who St.htsRunning [] :: s.out }) ∧
      ((∀ c ∈ s.pending, eventPhase c = none) → k.st = .held ∨ k.st = .ready → k.kind < 10 → k.succs = [] → k.cq = 0 → Completes (exec (.cancel who id) s) fun t =>
        t.taskAt (slotOf id) = { Task.init with inc := k.inc } ∧ (∀ m, m ≠ slotOf id → t.taskAt m = s.taskAt m) ∧ t.out = .done who St.ok [] :: s.out ∧
        t.counter R.C_HTS_CANCELLED = (s.counter R.C_HTS_CANCELLED + 1) % 2 ^ 64 ∧ t.counter R.C_HTS_COMPLETED = (s.counter R.C_HTS_COMPLETED + 1) % 2 ^ 64 ∧
        SameCountersBut s t [R.C_HTS_CANCELLED, R.C_HTS_COMPLETED, R.C_HTS_LATE_DONE] ∧
        t.get R.HTS_SLOTS_USED_SLOTS = s.get R.HTS_SLOTS_USED_SLOTS - 1 ∧
        (k.st = .ready → t.get (R.HTS_READY_TASKS k.queue) = s.get (R.HTS_READY_TASKS k.queue) - 1) ∧
        ((s.get R.HTS_TRACE_MASK_REASONS).testBit 10 = false → (s.get R.HTS_TRACE_MASK_REASONS).testBit 3 = false → t.mem = s.mem) ∧
        ((s.get R.HTS_TRACE_MASK_REASONS).testBit 10 = true → s.poison = [] → ∀ a, a = s.pair R.HTS_TRACE_BASE_LO_ADDR R.HTS_TRACE_BASE_HI_ADDR + s.get R.HTS_TRACE_WP_ENTRY * 16 →
          a + 32 ≤ hbmBytes → t.bytes a 11 = leBytes 4 s.descTs ++ leBytes 4 id ++ [0x00, 0x60, 10] ∧ t.le (a + 12) 4 = 0 ∧
            ((s.get R.HTS_TRACE_MASK_REASONS).testBit 3 = false → SameMemoryBut s t a 16 ∧ t.get R.HTS_TRACE_WP_ENTRY = (s.get R.HTS_TRACE_WP_ENTRY + 1) % 65536) ∧
            ((s.get R.HTS_TRACE_MASK_REASONS).testBit 3 = true → s.get R.HTS_TRACE_WP_ENTRY ≠ 65535 → t.bytes (a + 16) 11 = leBytes 4 s.descTs ++ leBytes 4 id ++ [0x00, 0x60, 3] ∧
              t.le (a + 28) 4 = 0 ∧ SameMemoryBut s t a 32 ∧ t.get R.HTS_TRACE_WP_ENTRY = (s.get R.HTS_TRACE_WP_ENTRY + 2) % 65536)))) ∧
  (∀ (s u : State) (who : Sender) (c : Instr), mayCreate who = true →
    (s.pending = [c] ∧ eventPhase c ≠ none ∧ exec c { s with pending := [] } = .next u) ∨
      (∃ d v i j, s.pending = [d, c] ∧ eventPhase c = some i ∧ eventPhase d = some j ∧ i < j ∧ exec c { s with pending := [] } = .next v ∧ exec d v = .next u) →
    (∀ pred succ mode k, u.liveTask succ = some k → k.st = .held → k.armed = true → u.liveTask pred = none → Completes (exec (.link who pred succ mode) s) fun t =>
      t = { s with out := .done who St.ok [1] :: s.out }) ∧
    ∀ id, (u.liveTask id = none → (Completes (exec (.cancel who id) s) fun t => t = { s with out := .done who St.htsStaleId [] :: s.out }) ∧
        Completes (exec (.follow who id) s) fun t => t = { s with out := .done who St.ok [id, 255, 0, 1] :: s.out }) ∧
      ∀ k, u.liveTask id = some k → k.st = .running → Completes (exec (.cancel who id) s) fun t => t = { s with out := .done who St.htsRunning [] :: s.out }) ∧
  ∀ (s : State) (who : Sender) (id : Nat),
    ((∀ k, s.liveTask id = some k → runsOn k who = false) → (∀ n b, Completes (exec (.strip who id n b) s) fun t => t = s) ∧
      ∀ st hs, Completes (exec (.complete who id st hs) s) fun t => t = s) ∧
    ((∀ c ∈ s.pending, eventPhase c = none) → s.liveTask id = none → Completes (exec (.follow who id) s) fun t => t = { s with out := .done who St.ok [id, 255, 0, 1] :: s.out }) ∧
    ∀ k, s.liveTask id = some k →
      ((∀ c ∈ s.pending, eventPhase c = none) → Completes (exec (.follow who id) s) fun t => who ∈ (t.taskAt (slotOf id)).followers ∧ (∀ f ∈ k.followers, f ∈ (t.taskAt (slotOf id)).followers) ∧
        (∀ m, m ≠ slotOf id → t.taskAt m = s.taskAt m) ∧ t = { s with hts := t.hts, out := .done who St.ok [id, k.strips, k.buf, 0] :: s.out }) ∧
      (runsOn k who = true → ∀ n b, n = 0 ∨ 0 < k.strips ∨ (∀ x ∈ k.succs, x.2 = false) → Completes (exec (.strip who id n b) s) fun t =>
        t.taskAt (slotOf id) = { k with strips := n % 256, buf := b } ∧ (∀ m, m ≠ slotOf id → t.taskAt m = s.taskAt m) ∧
        t.cmps = (s.cmps.map fun e => (e.1, e.2.map fun j => j.notice id (n % 256) b)) ∧
        t = { s with hts := t.hts, cmps := t.cmps, out := (k.followers.map fun f => Output.done f St.ok [id, n % 256, b, 0]).reverse ++ s.out }) ∧
      (runsOn k who = true → ∀ n b id2 u, 0 < n → k.strips = 0 → k.succs = [(id2, true)] → slotOf id2 ≠ slotOf id → s.liveTask id2 = some u → u.st = .held → 1 < u.counter →
        Completes (exec (.strip who id n b) s) fun t => t.taskAt (slotOf id) = { k with strips := n % 256, buf := b } ∧
          t.taskAt (slotOf id2) = { u with counter := u.counter - 1 }) ∧
      (runsOn k who = true → k.kind < 8 → ∀ st hs, (St.listed st = false → st ≠ St.unitFenced ∨ s.get R.SQL_FENCED_UNITS_COUNT = 0 →
        Completes (exec (.complete who id st hs) s) fun t => t = s)) ∧
      (runsOn k who = true → k.kind < 8 → k.cq = 0 → ∀ st, St.listed st = true ∨ (st = St.unitFenced ∧ s.get R.SQL_FENCED_UNITS_COUNT ≠ 0) →
        (k.succs = [] → Completes (exec (.complete who id st []) s) fun t => t.taskAt (slotOf id) = { Task.init with inc := k.inc } ∧
          (∀ m, m ≠ slotOf id → t.taskAt m = s.taskAt m) ∧ t.counter R.C_HTS_COMPLETED = (s.counter R.C_HTS_COMPLETED + 1) % 2 ^ 64 ∧
          (timeAfter s.descTs k.deadline = true → t.counter R.C_HTS_LATE_DONE = (s.counter R.C_HTS_LATE_DONE + 1) % 2 ^ 64) ∧
          t.get R.HTS_SLOTS_USED_SLOTS = s.get R.HTS_SLOTS_USED_SLOTS - 1 ∧
          (s.isSet R.UPD_CTRL_LEARN = false ∨ k.work = 0 → ∀ c, t.reg (R.UPD_EC_COST_PJ c).addr = s.reg (R.UPD_EC_COST_PJ c).addr ∨ 16 ≤ c) ∧
          ∀ c f v new, c = R.UPD_EC_COST_PJ ((k.desc.getD 2 0).toNat % 16) → f = s.get (R.UPD_EC_FUSED_PJ ((k.desc.getD 2 0).toNat % 16)) → 0 < k.work →
            s.isSet R.UPD_CTRL_LEARN = true → s.isFenced Unit.link 1 = false → v = k.energy * 100 / (k.work * k.factor k.effort) →
            (new : Int) = (s.get c : Int) + ((v : Int) - s.get c) / 16 →
            (f / 2 ≤ new → new ≤ 2 * f → t.get c = new % 2 ^ 24) ∧ (new < f / 2 → t.get c = f / 2 % 2 ^ 24 ∧ t.isSet R.UPD_STATUS_LEARN_CLAMP = true) ∧
            (2 * f < new → t.get c = 2 * f % 2 ^ 24 ∧ t.isSet R.UPD_STATUS_LEARN_CLAMP = true)) ∧
        ∀ id2 f u, k.succs = [(id2, f)] → f = false ∨ k.strips = 0 → slotOf id2 ≠ slotOf id → s.liveTask id2 = some u → u.st = .held → 1 < u.counter →
          Completes (exec (.complete who id st []) s) fun t => t.taskAt (slotOf id) = { Task.init with inc := k.inc } ∧
            t.taskAt (slotOf id2) = { u with counter := u.counter - 1 })

/-- R437 to R444, and R42, R175 and R436 for the handover of access units; the payload format and the hand-over are choices of the model (log entries 46 and 79). -/
def Obligations.UnitsAreGivenTheFirstAdmittedTask : Prop :=
  (∀ (s : State) (g : TaskGroup), (∀ e ∈ s.tasks, s.noConsumer e.2 = false) →
    (s.isSet R.HTS_CTRL_ENABLE = false ∨ s.get R.UPD_STATUS_THERMAL = 3 ∨ (s.bootStage ≠ 0x50 ∧ s.bootStage ≠ 0x60) ∨ s.isSet R.UPD_STATUS_AWAKE = false ∨ s.deviceFatal = true ∨ (∀ i, i < groupSize g → s.asks g i = false) →
      Completes (exec (.taskDispatch g) s) fun t => t = s) ∧
    ∀ i n k, s.dispatches = true → SMap.wf (fun _ => Task.init) s.hts.slots = true → i < groupSize g → s.asks g i = true → (∀ j, j < i → s.asks g j = false) → (n, k) ∈ s.hts.slots → s.taskAt n = k →
      k.st = .ready → kindGroup k.kind = g → k.deferred = false → s.couldServe g i k = true →
      (∀ e ∈ s.hts.slots, e ≠ (n, k) → e.2.st = .ready → kindGroup e.2.kind = g → e.2.deferred = false ∧
        (k.prio < e.2.prio ∨ (k.prio = e.2.prio ∧ k.deadline ≠ e.2.deadline ∧ timeAfter e.2.deadline k.deadline = true))) →
      (∀ f, (s.isSet R.UPD_CTRL_ENABLE = false ∧ f = k.effortReq) ∨ (s.isSet R.UPD_CTRL_ENABLE = true ∧ k.shedding = .never ∧ f = 0) ∨
          (s.isSet R.UPD_CTRL_ENABLE = true ∧ k.shedding = .step ∧ f < 4 ∧ (s.effortFloor k).1 ≤ f ∧ s.fits (s.chargeOf k f) = true ∧
            ∀ e, (s.effortFloor k).1 ≤ e → e < f → s.fits (s.chargeOf k e) = false) →
        Completes (exec (.taskDispatch g) s) fun t =>
          t.taskAt n = { k with st := .running, unit := consumer g i, effort := f, stepped := k.shedding == .step && k.effortReq < f, charge := s.chargeOf k f, energy := 0 } ∧
          (∀ m, m ≠ n → t.taskAt m = s.taskAt m) ∧ t.get (R.HTS_READY_TASKS k.queue) = s.get (R.HTS_READY_TASKS k.queue) - 1 ∧
          t.upd.commit = s.upd.commit + (s.chargeOf k f).share 0 s.windowLeft ∧ t.upd.budget = s.upd.budget ∧
          t.counter R.C_HTS_STEPPED = (s.counter R.C_HTS_STEPPED + (if k.shedding = .step ∧ k.effortReq < f then 1 else 0)) % 2 ^ 64 ∧
          (timeAfter s.descTs k.deadline = true → t.upd.late = true)) ∧
      (s.isSet R.UPD_CTRL_ENABLE = true → k.shedding = .step → (∀ e, (s.effortFloor k).1 ≤ e → e < 4 → s.fits (s.chargeOf k e) = false) →
        (∀ e ∈ s.hts.slots, e ≠ (n, k) → e.2.st = .ready → kindGroup e.2.kind ≠ g) → (∀ j, i < j → j < groupSize g → s.asks g j = false) →
        Completes (exec (.taskDispatch g) s) fun t => t.taskAt n = { k with deferred := true } ∧ t.upd.deferred = true ∧ t.upd.commit = s.upd.commit ∧
          CountsOnly s { s with ctr := t.ctr } R.C_HTS_DEFERRED 1) ∧
      (s.isSet R.UPD_CTRL_ENABLE = true → k.shedding = .skip → s.get R.UPD_SHED_LEVEL = 4 → k.succs = [] → k.cq = 0 →
        (∀ e ∈ s.hts.slots, e ≠ (n, k) → e.2.st = .ready → kindGroup e.2.kind ≠ g) → (∀ j, i < j → j < groupSize g → s.asks g j = false) →
        Completes (exec (.taskDispatch g) s) fun t => t.taskAt n = { Task.init with inc := k.inc } ∧
          t.counter R.C_HTS_SKIPPED = (s.counter R.C_HTS_SKIPPED + 1) % 2 ^ 64 ∧ t.upd = s.upd)) ∧
  (∀ (s : State) (k : Task), k.factor 0 = 100 ∧ (k.kind = 5 ∨ k.kind = 6 → k.factor 1 = 72 ∧ k.factor 2 = 52 ∧ k.factor 3 = 38 ∧ k.rate 0 = 15 ∧ k.rate 1 = 20 ∧ k.rate 2 = 26 ∧ k.rate 3 = 32) ∧
    (s.effortFloor k).1 ≤ 3 ∧ ((∀ e, e < 4 → s.endsInTime k e = false) → s.effortFloor k = (3, true)) ∧
    (∀ e, e < 4 → s.endsInTime k e = true → (∀ f, f < e → s.endsInTime k f = false) →
      s.effortFloor k = (min 3 (max (max k.effortReq (s.get R.UPD_SHED_LEVEL)) e), false))) ∧
  ∀ (s : State) (tpl : Option DecodeTemplate),
    (s.rly.units = [] → Completes (exec (.auHandover tpl) s) fun t => t = s) ∧
    ∀ u us, s.rly.units = u :: us →
      (∀ p, u.packets = [p] → Completes (exec (.auHandover none) s) fun t => t.rly.units = us ∧ t.out = .firmware 7 ([u.stream, p.leg, p.seq, p.ts, p.arrival] ++ p.payload.map BitVec.toNat) :: s.out ∧
        t = { s with rly := t.rly, out := t.out }) ∧
      ∀ p w, tpl = some w → u.packets = [p] → (s.byte w.ctx).toNat = 1 → SMap.get none s.rly.lastSeq u.stream = none ∨ SMap.get none s.rly.lastSeq u.stream = some p.seq →
        1 ≤ (p.payload.headD 0).toNat % 32 → (p.payload.headD 0).toNat % 32 ≤ 23 → p.payload.length ≤ 65532 →
        (s.isSet R.BPM_CTRL_ENABLE = false → Completes (exec (.auHandover tpl) s) fun t => t.rly.units = us ∧ t.hts = s.hts ∧ t.mem = s.mem ∧ t.out = s.out ∧
          SMap.get none t.rly.lastSeq u.stream = some ((p.seq + 1) % 65536)) ∧
        (∀ (a v : State) (c d : Nat) (x : State), a = { s with
              rly := { s.rly with units := us, lastSeq := SMap.set none s.rly.lastSeq u.stream (some ((p.seq + 1) % 65536)) }
              fw := { s.fw with streamCtx := SMap.set 0 s.fw.streamCtx u.stream w.ctx } } →
          s.poison = [] → a.allocCell (.fixed 0) 0 (4 + p.payload.length) .media false true = (v, .cell c) → v.poison = [] →
          (v.setBytes c (natToOs 4 p.payload.length ++ p.payload)).allocCell (.fixed 0) 0 80 .media false true = (x, .cell d) →
          x.poison = [] → c + 65536 ≤ hbmBytes → d + 65536 ≤ hbmBytes → c + 65536 ≤ d ∨ d + 65536 ≤ c → Completes (exec (.auHandover tpl) s) fun t => ∃ y : State,
            t = y.createDecode u.stream d [d, c] w ∧ y.rly.units = us ∧ y.bytes c (4 + p.payload.length) = natToOs 4 p.payload.length ++ p.payload ∧
            y.le d 8 = w.ctx % 2 ^ 64 ∧ y.le (d + 8) 8 = (d + 64) % 2 ^ 64 ∧ y.le (d + 16) 2 = 1 ∧ y.le (d + 18) 2 = (match u.until_ with | none => 0 | some x => if seqAfter x ((p.seq + 1) % 65536) then 1 else 0) ∧ y.le (d + 20) 4 = 4 + p.payload.length ∧
            y.le (d + 24) 4 = p.ts % 2 ^ 32 ∧ y.le (d + 64) 8 = c % 2 ^ 64 ∧ y.le (d + 72) 4 = 4 + p.payload.length ∧ y.hts = s.hts)

/-- R438 to R449, R607, R608 and R627.
Choices of the model: log entries 32, 34, 35 and 99. -/
def Obligations.EnergyWindowsTemperatureAndStandby : Prop :=
  (∀ (s : State), s.cycle < s.upd.windowAt + 375000 → Completes (exec .updWindowEnd s) fun t => t = s) ∧
  (∀ (s : State) (cap : Nat), s.upd.windowAt + 375000 ≤ s.cycle → SMap.wf (fun _ => Task.init) s.hts.slots = true → cap = s.capEnergy →
    (s.get R.UPD_STATUS_THERMAL = 0 → cap = s.get R.UPD_CAP_WATTS * 250000000000) ∧
    Completes (exec .updWindowEnd s) fun t => t.upd.windowAt = s.cycle ∧ t.get R.UPD_WINDOW_COUNT = (s.get R.UPD_WINDOW_COUNT + 1) % 2 ^ 32 ∧
      (s.upd.measured = false ∨ s.isFenced Unit.link 1 = true → t.upd.budget = cap - 15000000000000) ∧
      (s.upd.measured = true → s.isFenced Unit.link 1 = false → t.upd.budget = cap - (s.upd.package - s.upd.tasks) * 1000 - min cap (s.upd.package * 1000 - cap) ∧
        (cap < s.upd.package * 1000 → cap < (s.upd.package - s.upd.shed) * 1000 → t.isSet R.UPD_STATUS_CAP_EXCEEDED = true)) ∧
      t.get R.UPD_BUDGET_MICROJOULES = t.upd.budget / 1000000000 % 2 ^ 24 ∧ t.get R.UPD_COMMIT_MICROJOULES = t.upd.commit / 1000000000 % 2 ^ 24 ∧
      ((∀ e ∈ s.hts.slots, e.2.st ≠ .running) → t.upd.commit = 0) ∧ t.upd.package = 0 ∧ t.upd.tasks = 0 ∧ t.upd.deferred = false ∧ t.upd.late = false ∧
      (∀ n, t.taskAt n = { s.taskAt n with deferred := false }) ∧
      ∀ l floor, l = s.get R.UPD_SHED_LEVEL → floor = (if s.get R.UPD_STATUS_THERMAL = 2 then 4 else s.get R.UPD_SHED_FLOOR) →
        (s.isSet R.UPD_CTRL_ENABLE = false → t.get R.UPD_SHED_LEVEL = 0) ∧
        (s.isSet R.UPD_CTRL_ENABLE = true →
          (s.upd.deferred = true ∨ s.upd.late = true → t.get R.UPD_SHED_LEVEL = min 4 (l + 1)) ∧
          (s.upd.deferred = false → s.upd.late = false →
            (s.upd.commit * 100 ≤ s.upd.budget * 85 → s.get R.UPD_SHED_HOLD_WINDOWS ≤ s.upd.quiet + 1 → floor < l → t.get R.UPD_SHED_LEVEL = l - 1) ∧
            (l ≤ floor → t.get R.UPD_SHED_LEVEL = l) ∧
            (s.upd.budget * 85 < s.upd.commit * 100 → 0 < s.get R.UPD_SHED_HOLD_WINDOWS → t.get R.UPD_SHED_LEVEL = l ∧ t.upd.quiet = 0)))) ∧
  (∀ (s : State) (sensors : List Byte) (i : Nat) (tj warn shed trip : Int), i < sensors.length → sensors.length ≤ 40 → tj = signed 8 (sensors.getD i 0).toNat →
    (∀ j, j < sensors.length → signed 8 (sensors.getD j 0).toNat ≤ tj) → (∀ j, j < i → signed 8 (sensors.getD j 0).toNat < tj) →
    warn = signed 8 (s.get R.UPD_T_WARN_CELSIUS) → shed = signed 8 (s.get R.UPD_T_SHED_CELSIUS) → trip = signed 8 (s.get R.UPD_T_TRIP_CELSIUS) →
    (Completes (exec (.thermalSample sensors) s) fun t => t.get R.UPD_TJ_CELSIUS = (sensors.getD i 0).toNat ∧ t.get R.UPD_TJ_SENSOR = i ∧
      (∀ j, j < sensors.length → t.get (R.UPD_TS_CELSIUS j) = (sensors.getD j 0).toNat) ∧
      (s.get R.UPD_STATUS_THERMAL = 3 → t = { s with regs := t.regs } ∧ t.get R.UPD_STATUS_THERMAL = 3) ∧
      (s.get R.UPD_STATUS_THERMAL ≠ 3 → tj < trip ∨ s.upd.tripOnce = false → t.upd.tripOnce = decide (trip ≤ tj) ∧
        (s.get R.UPD_STATUS_THERMAL = 0 → warn ≤ tj → t.get R.UPD_STATUS_THERMAL = 1 ∧ .pin thermPin false ∈ t.out) ∧
        (s.get R.UPD_STATUS_THERMAL = 0 → tj < warn → t.get R.UPD_STATUS_THERMAL = 0 ∧ t.out = s.out) ∧
        (s.get R.UPD_STATUS_THERMAL = 1 → tj < warn - 3 → t.get R.UPD_STATUS_THERMAL = 0 ∧ t.out = .pin thermPin true :: s.out) ∧
        (s.get R.UPD_STATUS_THERMAL = 1 → warn - 3 ≤ tj → tj < shed → t.get R.UPD_STATUS_THERMAL = 1 ∧ t.out = s.out) ∧
        (s.get R.UPD_STATUS_THERMAL = 1 → warn - 3 ≤ tj → shed ≤ tj → t.get R.UPD_STATUS_THERMAL = 2 ∧ t.get R.UPD_SHED_LEVEL = if s.isSet R.UPD_CTRL_ENABLE then 4 else 0) ∧
        (s.get R.UPD_STATUS_THERMAL = 2 → tj < shed - 3 → t.get R.UPD_STATUS_THERMAL = 1 ∧ t.get R.UPD_SHED_LEVEL = s.get R.UPD_SHED_LEVEL) ∧
        (s.get R.UPD_STATUS_THERMAL = 2 → shed - 3 ≤ tj → t.get R.UPD_STATUS_THERMAL = 2)) ∧
      (s.get R.UPD_STATUS_THERMAL ≠ 3 → trip ≤ tj → s.upd.tripOnce = true → SMap.wf (fun _ => Task.init) s.hts.slots = true →
        t.get R.UPD_STATUS_THERMAL = 3 ∧ t.get R.HIF_BOOT_STAGE_STAGE = 0xF0 ∧ t.isSet R.SQL_ALERT_CAUSE_FATAL = true ∧ .pin thermPin false ∈ t.out ∧
        (∀ p, p < 8 → t.isSet (R.RLY_PnCTL_PORT_EN p) = false) ∧ (∀ n, (t.taskAt n).st ≠ .running) ∧ ∀ k, k < 56 → k ≠ 54 → t.island k = .lull))) ∧
  (∀ (s : State) (vin : Nat) (rails : List (Nat × Nat)) (islands : List Nat),
    (∀ c, s.isFenced Unit.link 1 = true → Completes (exec (.telemetrySample vin rails islands c) s) fun t => t = s) ∧
    (s.isFenced Unit.link 1 = false → Completes (exec (.telemetrySample vin rails islands .failed) s) fun t => t.isFenced Unit.link 1 = true ∧ t.upd = s.upd ∧ t.hts = s.hts) ∧
    (s.isFenced Unit.link 1 = false → ∀ l, l = ((vin, rails.take 8) :: s.upd.samples).take 500 → Completes (exec (.telemetrySample vin rails islands .pass) s) fun t =>
      t.upd.samples = l ∧ t.upd.measured = true ∧ t.get R.UPD_VIN_MILLIVOLTS = (l.map Prod.fst).foldl (· + ·) 0 / l.length % 2 ^ 16 ∧
      (∀ r, r < 8 → t.get (R.UPD_RAIL_V_MILLIVOLTS r) = (l.map fun x => (x.2.getD r (0, 0)).1).foldl (· + ·) 0 / l.length % 2 ^ 16 ∧
        t.get (R.UPD_RAIL_I_MILLIAMPS r) = (l.map fun x => (x.2.getD r (0, 0)).2).foldl (· + ·) 0 / l.length % 2 ^ 20 ∧
        t.get (R.UPD_RAIL_IPEAK_MILLIAMPS r) = max (s.get (R.UPD_RAIL_IPEAK_MILLIAMPS r)) (rails.getD r (0, 0)).2 % 2 ^ 20) ∧
      (∀ v i, rails = [(v, i)] → t.upd.package = s.upd.package + v * i * 2) ∧
      (s.hts.slots = [] → t.hts = s.hts ∧ t.upd.tasks = s.upd.tasks ∧ ∀ j, j < islands.length → s.island j = .awake → SMap.get 0 t.upd.idle j = islands.getD j 0) ∧
      (∀ n k j, s.hts.slots = [(n, k)] → k.st = .running → unitIsland (k.unit / 4096) (k.unit % 4096) = j → j < islands.length →
        t.taskAt n = { k with energy := k.energy + (islands.getD j 0 - SMap.get 0 s.upd.idle j) * 2 } ∧
        t.upd.tasks = s.upd.tasks + (islands.getD j 0 - SMap.get 0 s.upd.idle j) * 2) ∧
      t = { s with regs := t.regs, upd := t.upd, hts := t.hts })) ∧
  (∀ (s : State) (who : Sender) (rail : Fin 8), Serves s who (R.UPD_RAIL_IPEAK_MILLIAMPS rail).addr → ∀ v l b, s.upd.samples = (v, l) :: b →
    Completes (exec (.ipeakWrite who rail) s) fun t => SetsOnly s t (R.UPD_RAIL_IPEAK_MILLIAMPS rail) (l.getD rail (0, 0)).2) ∧
  (∀ (s : State) (who : Sender), Serves s who R.UPD_CTRL_ENABLE.addr →
    (s.isSet R.UPD_CTRL_STANDBY = true → Completes (exec (.standbyEnter who) s) fun t => t = s) ∧
    (s.isSet R.UPD_CTRL_STANDBY = false → s.isSet R.RLY_CTRL_ENABLE = false ∨ (∀ p, p < 8 → s.portNamed p = true → s.isSet (R.RLY_PnCTL_PORT_EN p) = false) → (∀ e ∈ s.hts.slots, e.2.st ≠ .ready ∧ e.2.st ≠ .running) →
      Completes (exec (.standbyEnter who) s) fun t => t.isSet R.UPD_CTRL_STANDBY = true ∧ t.isSet R.UPD_STATUS_AWAKE = false ∧
        (∀ k ∈ [40, 49, 50, 51, 52, 53], t.island k = .lull) ∧ (∀ k, k ∉ [40, 49, 50, 51, 52, 53] → t.island k = s.island k) ∧
        t = { s with regs := t.regs, islands := t.islands }) ∧
    (s.isSet R.UPD_CTRL_STANDBY = false → (∃ p, p < 8 ∧ s.portNamed p = true ∧ s.isSet R.RLY_CTRL_ENABLE = true ∧ s.isSet (R.RLY_PnCTL_PORT_EN p) = true) ∨ (∃ e ∈ s.hts.slots, e.2.st = .ready ∨ e.2.st = .running) →
      Completes (exec (.standbyEnter who) s) fun t => t.isSet R.UPD_CTRL_STANDBY = false ∧ t.isSet R.UPD_STATUS_CFG_IGNORED = true ∧ t.islands = s.islands) ∧
    (s.isSet R.UPD_CTRL_STANDBY = false → Completes (exec (.standbyExit who) s) fun t => t = s) ∧
    (s.isSet R.UPD_CTRL_STANDBY = true → s.get R.UPD_STATUS_THERMAL ≠ 3 → (∀ k ∈ [40, 49, 50, 51, 52, 53], s.island k = .lull ∧ s.gatedForGood k = false) →
      Completes (exec (.standbyExit who) s) fun t => t.isSet R.UPD_CTRL_STANDBY = false ∧ t.isSet R.UPD_STATUS_AWAKE = s.isSet R.UPD_STATUS_AWAKE ∧
        (∀ k ∈ [40, 49, 50, 51, 52, 53], t.island k = .waking s.cycle) ∧ t = { s with regs := t.regs, islands := t.islands })) ∧
  ∀ (s : State), (s.isSet R.UPD_STATUS_AWAKE = true ∨ s.isSet R.UPD_CTRL_STANDBY = true → Completes (exec .standbyWakeDone s) fun t => t = s) ∧
    (s.isSet R.UPD_STATUS_AWAKE = false → s.isSet R.UPD_CTRL_STANDBY = false → Completes (exec .standbyWakeDone s) fun t => t.isSet R.UPD_STATUS_AWAKE = true ∧
      (∀ k ∈ [40, 49, 50, 51, 52, 53], s.island k ≠ .lull → t.island k = .awake) ∧ (∀ e ∈ t.mxm.sources, e.2.mode ≠ .running) ∧
      t.mxm.tfNext = s.cycle ∧ t.hts = s.hts ∧ t.mem = s.mem ∧ t.mxm.began = s.mxm.began)

/-- R594, R611, R616 to R619 and R626.
Choices of the model: log entries 77, 80 and 97. -/
def Obligations.PinsCagesAndTheLogAreRead : Prop :=
  (∀ (s : State) (b : Bool), Completes (exec (.refclkSample b) s) fun t => SetsOnly s t R.HIF_CLK_STAT_REFCLK_EXT b.toNat) ∧
  (∀ (s : State), (s.isSet R.HIF_CLK_STAT_REFCLK_EXT = false → Completes (exec .refclkLost s) fun t => t = s) ∧
    (s.isSet R.HIF_CLK_STAT_REFCLK_EXT = true → Completes (exec .refclkLost s) fun t => t.get R.HIF_STATUS_SPEED = 0 ∧ t.get R.HIF_STATUS_WIDTH = 0 ∧
      t.isSet R.HIF_CLK_STAT_REFCLK_LOST = true ∧ t.isSet R.HIF_CLK_STAT_REFCLK_EXT = true ∧ ∀ n, n < 16 → (s.fn n).exists_ = true → (t.fn n).flrSince = some s.cycle)) ∧
  (∀ (s : State) (n : Fin 8) (level acc : Bool),
    (s.isSet (cageBit R.FUS_PAD_IN_MODPRS_N n) = level → Completes (exec (.cagePresenceChange n level) s) fun t => t = s) ∧
    (s.isSet (cageBit R.FUS_PAD_IN_MODPRS_N n) ≠ level → Completes (exec (.cagePresenceChange n level) s) fun t => t.isSet (cageBit R.FUS_PAD_IN_MODPRS_N n) = level ∧
      t.isSet (cageBit R.FUS_PAD_CHG_PRS_CHG n) = true ∧ SMap.get none t.pads.fell n = (if level then none else some s.cycle) ∧ SMap.get none t.pads.powered n = none ∧
      (level = true → s.firmwareRuns = true → t.isSet (cageBit R.FUS_PAD_PWR_CAGE_EN n) = false ∧ t.isSet (cageBit R.FUS_PAD_OUT_MODRST_N n) = false) ∧
      (level = false → SameRegsBut s t [R.FUS_PAD_IN_MODPRS_N.addr, R.FUS_PAD_CHG_PRS_CHG.addr]) ∧ t = { s with regs := t.regs, pads := t.pads } ∧
      ∀ m : Fin 8, m ≠ n → t.isSet (cageBit R.FUS_PAD_IN_MODPRS_N m) = s.isSet (cageBit R.FUS_PAD_IN_MODPRS_N m) ∧
        t.isSet (cageBit R.FUS_PAD_PWR_CAGE_EN m) = s.isSet (cageBit R.FUS_PAD_PWR_CAGE_EN m)) ∧
    (s.firmwareRuns = false ∨ SMap.get none s.pads.fell n = none → Completes (exec (.cageIdentify n acc) s) fun t => t = s) ∧
    (∀ c, s.firmwareRuns = true → SMap.get none s.pads.fell n = some c → SMap.get none s.pads.powered n = none →
      (s.cycle < max c s.ageZero + 75000000 → Completes (exec (.cageIdentify n acc) s) fun t => t = s) ∧
      (max c s.ageZero + 75000000 ≤ s.cycle → Completes (exec (.cageIdentify n acc) s) fun t => t.isSet (cageBit R.FUS_PAD_PWR_CAGE_EN n) = true ∧
        SMap.get none t.pads.powered n = some s.cycle ∧ SameRegsBut s t [R.FUS_PAD_PWR_CAGE_EN.addr] ∧ t = { s with regs := t.regs, pads := t.pads })) ∧
    (∀ c d, s.firmwareRuns = true → SMap.get none s.pads.fell n = some c → SMap.get none s.pads.powered n = some d →
      s.isSet (cageBit R.FUS_PAD_PWR_CAGE_EN n) = true → s.isSet (cageBit R.FUS_PAD_OUT_MODRST_N n) = false →
      (s.cycle < d + 150000000 → Completes (exec (.cageIdentify n acc) s) fun t => t = s) ∧
      (d + 150000000 ≤ s.cycle →
        (Completes (exec (.cageIdentify n true) s) fun t => SetsOnly s t (cageBit R.FUS_PAD_OUT_MODRST_N n) 1) ∧
        Completes (exec (.cageIdentify n false) s) fun t => t.isSet (cageBit R.FUS_PAD_FAULT_REFUSED n) = true ∧ t.isSet (cageBit R.FUS_PAD_PWR_CAGE_EN n) = false ∧
          t.isSet (cageBit R.FUS_PAD_OUT_MODRST_N n) = false ∧ t = { s with regs := t.regs })) ∧
    Completes (exec (.cageIntNFall n) s) fun t => t.isSet (cageBit R.FUS_PAD_IN_INT_N n) = false ∧ t.isSet (cageBit R.FUS_PAD_CHG_INT_FELL n) = true ∧
      t = { s with regs := t.regs } ∧ SameRegsBut s t [R.FUS_PAD_IN_INT_N.addr, R.FUS_PAD_CHG_INT_FELL.addr]) ∧
  (∀ (s : State) (cage : Fin 9) (en oc : Fld), en = ⟨R.FUS_PAD_PWR_CAGE_EN.addr, cage, 1⟩ → oc = ⟨R.FUS_PAD_FAULT_CAGE_OC.addr, cage, 1⟩ →
    (s.isSet en = false → Completes (exec (.cageOvercurrent cage) s) fun t => t = s) ∧
    (s.isSet en = true → Completes (exec (.cageOvercurrent cage) s) fun t => t.isSet en = false ∧ t.isSet oc = true ∧ t = { s with regs := t.regs } ∧
      SameRegsBut s t [en.addr, oc.addr])) ∧
  (∀ (s : State) (a b : Bool), Completes (exec (.mgmtLosChange a b) s) fun t => t.isSet R.FUS_PAD_IN_MGMT_LOS = a ∧ t.isSet R.FUS_PAD_IN_MGMT_TXFAULT = b ∧
      t.isSet R.FUS_PAD_CHG_LOS_CHG = (s.isSet R.FUS_PAD_CHG_LOS_CHG || s.isSet R.FUS_PAD_IN_MGMT_LOS != a) ∧
      t.isSet R.FUS_PAD_CHG_TXFAULT_CHG = (s.isSet R.FUS_PAD_CHG_TXFAULT_CHG || s.isSet R.FUS_PAD_IN_MGMT_TXFAULT != b) ∧ t = { s with regs := t.regs } ∧
      SameRegsBut s t [R.FUS_PAD_IN_MGMT_LOS.addr, R.FUS_PAD_CHG_LOS_CHG.addr]) ∧
  (∀ (s : State) (level acc : Bool), Completes (exec (.mgmtModabsChange level acc) s) fun t => t.isSet R.FUS_PAD_IN_MGMT_MODABS = level ∧
      t.isSet R.FUS_PAD_CHG_MODABS_CHG = (s.isSet R.FUS_PAD_CHG_MODABS_CHG || s.isSet R.FUS_PAD_IN_MGMT_MODABS != level) ∧ t.pads = { s.pads with sfp := !level && acc } ∧
      (s.firmwareRuns = true → t.isSet R.FUS_PAD_PWR_MGMT_EN = (!level && acc) ∧ t.isSet R.FUS_PAD_PWR_MGMT_TXDIS = !(s.obj 0x200001 0 0 == 1 && (!level && acc))) ∧
      (s.firmwareRuns = false → SameRegsBut s t [R.FUS_PAD_IN_MGMT_MODABS.addr, R.FUS_PAD_CHG_MODABS_CHG.addr]) ∧ t = { s with regs := t.regs, pads := t.pads }) ∧
  (∀ (s : State), (∀ i ∈ [JtagInstr.bypass, .samplePreload, .extest, .clamp, .highz], Completes (exec (.jtagInstruction i) s) fun t => t = { s with pads := { s.pads with jtag := some i } }) ∧
    (Completes (exec (.jtagInstruction .testLogicReset) s) fun t => t = { s with pads := { s.pads with jtag := none } }) ∧
    ∀ code, (s.isSet R.FUS_STATUS_DEBUG_DIS = true → Completes (exec (.jtagInstruction (.other code)) s) fun t => t = { s with pads := { s.pads with jtag := some .bypass } }) ∧
      (s.isSet R.FUS_STATUS_DEBUG_DIS = false → exec (.jtagInstruction (.other code)) s = .refused (.debugInstruction code))) ∧
  ∀ (s : State) (who : Sender) (i : Fin 8192) (e : SquallEntry) (show_ : SquallEntry → List Output), e = SMap.get SquallEntry.blank s.sql.entries i →
    (∀ x, show_ x = (x.words.zipIdx.map fun (w : Nat × Nat) => Output.readDone who (0x00F40000 + i * 32 + w.2 * 4) w.1).reverse) →
    e.words = [e.time % 2 ^ 32, e.time / 2 ^ 32, e.unit + e.severity * 256 + e.event * 65536, e.inst, e.param0 % 2 ^ 32, e.param0 / 2 ^ 32,
      e.param1 % 2 ^ 32, e.param1 / 2 ^ 32] ∧
    (s.cutOff who = true → s.absent who = false → ∀ c, Completes (exec (.squallEntryRead who i c) s) fun t => t = s.lostRead who (0x00F40000 + i * 32)) ∧
    (Crosses s who → s.accessible who (0x00F40000 + i * 32) = false → ∀ c, Completes (exec (.squallEntryRead who i c) s) fun t => t = { s with out := show_ SquallEntry.blank ++ s.out }) ∧
    (Crosses s who → s.accessible who (0x00F40000 + i * 32) = true →
      (Completes (exec (.squallEntryRead who i .pass) s) fun t => t = { s with out := show_ e ++ s.out }) ∧
      (Completes (exec (.squallEntryRead who i .retried) s) fun t => ∃ u : State, t = u.retried Unit.sql 0 13 (0x00F40000 + i * 32) ∧ u = { s with out := show_ e ++ s.out }) ∧
      (Completes (exec (.squallEntryRead who i .failed) s) fun t => t.out = show_ ⟨0, Unit.sql, Sev.warn, 0x0070, 0, s.entrySeq i, 0⟩ ++ s.out ∧
        t.isSet ⟨R.SQL_ALERT_CAUSE_FENCE.addr, 3, 1⟩ = true ∧ t = { s with regs := t.regs, out := t.out } ∧ SameRegsBut s t [R.SQL_ALERT_CAUSE_FENCE.addr]))

/-- R459 to R473. What memory holds is the spec's; the words of one request are taken one at a time, and a pseudo-channel serves one word at a command.
Choices of the model: log entries 63 and 64. -/
def Obligations.MemoryRequestsAndControllers : Prop :=
  (∀ (s : State) (who : Sender) (a : Nat) (ecc : EccFinding) (ctl : Fin 4) (pc : Fin 32),
    (∀ n, hbmBytes < a + n ∨ hbmBytes ≤ a → exec (.hbmRequest ctl pc [⟨who, a, .read n⟩] ecc) s = .fault (.noSuchAddress a)) ∧
    (∀ bs, hbmBytes < a + bs.length ∨ hbmBytes ≤ a → exec (.hbmRequest ctl pc [⟨who, a, .write bs⟩] ecc) s = .fault (.noSuchAddress a)) ∧
    (∀ n, 0 < n → a < hbmBytes → a + n ≤ hbmBytes → s.cutOff who = false → s.isFenced Unit.hbm (s.place a).ctl = true → s.hbm.reqs = [] →
      (isHost who = false → Completes (exec (.hbmRequest ctl pc [⟨who, a, .read n⟩] ecc) s) fun t => t = { s with out := .done who St.unitFenced [a] :: s.out }) ∧
      (isHost who = true → Completes (exec (.hbmRequest ctl pc [⟨who, a, .read n⟩] ecc) s) fun t => t = { s with out := .readAbort who a :: s.out })) ∧
    (∀ n, 0 < n → a % 32 + n ≤ 32 → a + n ≤ hbmBytes → s.cutOff who = false → s.isFenced Unit.hbm (s.place a).ctl = false → s.isSet (R.HBM_STATUS_READY ctl) = false →
      Completes (exec (.hbmRequest ctl pc [⟨who, a, .read n⟩] ecc) s) fun t =>
        t.hbm.reqs = s.hbm.reqs ++ [⟨s.hbm.next, s.hbm.next, who, a, .read n, s.cycle, false, false, .clean⟩] ∧ t = { s with regs := t.regs, hbm := t.hbm })) ∧
  (∀ (s : State) (ctl : Fin 4) (pc : Fin 32) (x y : HbmReq) (hit : HbmReq → Prop), s.hbmServes ctl = true → s.hbm.reqs = [x, y] → x.n ≠ y.n →
    (∀ r ∈ [x, y], (s.place r.addr).ctl = ctl.val ∧ (s.place r.addr).pc = pc.val ∧ r.promoted = false ∧ r.delayed = false) →
    (∀ r, hit r ↔ (s.hbmBank (s.place r.addr).key).row = some (s.place r.addr).row) → s.rowWaits (s.place y.addr) y.who.stamp = false →
    2 * (s.cycle - y.since) ≤ 3 * s.get R.HBM_AGE_MAX_NS →
    (s.rowWaits (s.place x.addr) x.who.stamp = false → 2 * (s.cycle - x.since) ≤ 3 * s.get R.HBM_AGE_MAX_NS → wordOf x.addr ≠ wordOf y.addr →
      isHost x.who = false ∨ isHost y.who = false →
      (classOf y.who < classOf x.who ∨ (classOf y.who = classOf x.who ∧ hit y ∧ ¬ hit x) → Completes (exec (.hbmRequest ctl pc [] .clean) s) fun t => t.hbm.reqs = [x]) ∧
      (classOf x.who < classOf y.who ∨ (classOf x.who = classOf y.who ∧ (hit x ∨ ¬ hit y)) → Completes (exec (.hbmRequest ctl pc [] .clean) s) fun t => t.hbm.reqs = [y] ∧
        t.counter (R.C_HBM_PROMOTIONS ctl) = s.counter (R.C_HBM_PROMOTIONS ctl))) ∧
    (s.rowWaits (s.place x.addr) x.who.stamp = false → 3 * s.get R.HBM_AGE_MAX_NS < 2 * (s.cycle - x.since) → Completes (exec (.hbmRequest ctl pc [] .clean) s) fun t =>
      t.hbm.reqs = [y] ∧ t.counter (R.C_HBM_PROMOTIONS ctl) = (s.counter (R.C_HBM_PROMOTIONS ctl) + 1) % 2 ^ 64) ∧
    (s.rowWaits (s.place x.addr) x.who.stamp = true → 2 * (s.cycle - x.since) ≤ 3 * s.get R.HBM_AGE_MAX_NS → wordOf x.addr ≠ wordOf y.addr →
      isHost x.who = false ∨ isHost y.who = false → Completes (exec (.hbmRequest ctl pc [] .clean) s) fun t =>
      t.hbm.reqs = [{ x with delayed := true }] ∧ t.counter (R.C_HBM_THROTTLED_ACTS ctl) = (s.counter (R.C_HBM_THROTTLED_ACTS ctl) + 1) % 2 ^ 64) ∧
    (s.rowWaits (s.place x.addr) x.who.stamp = false → 2 * (s.cycle - x.since) ≤ 3 * s.get R.HBM_AGE_MAX_NS →
      wordOf x.addr = wordOf y.addr ∨ (isHost x.who = true ∧ isHost y.who = true) → Completes (exec (.hbmRequest ctl pc [] .clean) s) fun t => t.hbm.reqs = [y])) ∧
  (∀ (s : State) (who : Sender) (a c n : Nat) (ctl : Fin 4) (pc : Fin 32), c = ctl.val → (s.place a).ctl = ctl.val → (s.place a).pc = pc.val → s.hbmServes c = true →
    s.cutOff who = false → s.hbm.reqs = [] → s.hbm.flows = [] → s.rowWaits (s.place a) who.stamp = false → 0 < n → a % 32 + n ≤ 32 → a + n ≤ hbmBytes →
    (s.marked a = false →
      (Completes (exec (.hbmRequest ctl pc [⟨who, a, .read n⟩] .clean) s) fun t => t.out = .done who St.ok (a :: 0 :: (s.bytes a n).map BitVec.toNat) :: s.out ∧
        t.mem = s.mem ∧ t.poison = s.poison ∧ t.counter (R.C_HBM_READS c) = (s.counter (R.C_HBM_READS c) + 1) % 2 ^ 64 ∧
        t.counter (R.C_HBM_CE_COUNT c) = s.counter (R.C_HBM_CE_COUNT c) ∧ t.counter (R.C_HBM_POISON_READS c) = s.counter (R.C_HBM_POISON_READS c)) ∧
      (Completes (exec (.hbmRequest ctl pc [⟨who, a, .read n⟩] .corrected) s) fun t => t.out = .done who St.ok (a :: 0 :: (s.bytes a n).map BitVec.toNat) :: s.out ∧
        t.mem = s.mem ∧ t.counter (R.C_HBM_CE_COUNT c) = (s.counter (R.C_HBM_CE_COUNT c) + 1) % 2 ^ 64) ∧
      (Completes (exec (.hbmRequest ctl pc [⟨who, a, .read n⟩] .retried) s) fun t => t.out = .done who St.ok (a :: 0 :: (s.bytes a n).map BitVec.toNat) :: s.out ∧
        t.mem = s.mem ∧ t.counter (R.C_HBM_UE_RETRIED c) = (s.counter (R.C_HBM_UE_RETRIED c) + 1) % 2 ^ 64 ∧ t.isSet (R.HBM_STATUS_TRANSIENT c) = true) ∧
      (Completes (exec (.hbmRequest ctl pc [⟨who, a, .read n⟩] .uncorrectable) s) fun t => t.out = .done who St.ok (a :: 1 :: List.replicate n 0) :: s.out ∧
        t.marked a = true ∧ (∀ p, p / 32 ≠ a / 32 → t.byte p = s.byte p ∧ t.marked p = s.marked p) ∧
        t.counter (R.C_HBM_POISONED c) = (s.counter (R.C_HBM_POISONED c) + 1) % 2 ^ 64 ∧ t.counter (R.C_HBM_POISON_READS c) = (s.counter (R.C_HBM_POISON_READS c) + 1) % 2 ^ 64 ∧
        t.get (R.HBM_POISON_LAST_LO_ADDR c) = a % 2 ^ 32 ∧ t.get (R.HBM_POISON_LAST_HI_ADDR c) = a / 2 ^ 32 % 16 ∧ t.get (R.HBM_POISON_LAST_HI_SRC c) = who.stamp % 2 ^ 16)) ∧
    (s.marked a = true → ∀ e, Completes (exec (.hbmRequest ctl pc [⟨who, a, .read n⟩] e) s) fun t => t.out = .done who St.ok (a :: 1 :: List.replicate n 0) :: s.out ∧
      t.mem = s.mem ∧ t.poison = s.poison ∧ t.counter (R.C_HBM_POISON_READS c) = (s.counter (R.C_HBM_POISON_READS c) + 1) % 2 ^ 64) ∧
    (∀ bs : List Byte, bs.length = n → s.marked a = false → Completes (exec (.hbmRequest ctl pc [⟨who, a, .write bs⟩] .clean) s) fun t => t.bytes a n = bs ∧ SameMemoryBut s t a n ∧
      t.out = .done who St.ok [a] :: s.out ∧ t.counter (R.C_HBM_WRITES c) = (s.counter (R.C_HBM_WRITES c) + 1) % 2 ^ 64 ∧
      t.counter (R.C_HBM_READS c) = (s.counter (R.C_HBM_READS c) + (if n = 32 then 0 else 1)) % 2 ^ 64) ∧
    (∀ (bs : List Byte) e, bs.length = n → s.marked a = true → n < 32 → Completes (exec (.hbmRequest ctl pc [⟨who, a, .write bs⟩] e) s) fun t => t.mem = s.mem ∧ t.marked a = true) ∧
    (∀ (bs : List Byte) e, bs.length = 32 → n = 32 → Completes (exec (.hbmRequest ctl pc [⟨who, a, .write bs⟩] e) s) fun t => t.bytes a 32 = bs ∧ t.marked a = false ∧
      SameMemoryBut s t a 32) ∧
    ∀ p k : Nat, ∀ r : HbmPlace, r = s.place a → k = r.key → p = s.get R.HBM_RDT_THRESH_ACTS →
      ((s.hbmBank k).row = some r.row → Completes (exec (.hbmRequest ctl pc [⟨who, a, .read n⟩] .clean) s) fun t => t.hbm = { s.hbm with next := s.hbm.next + 1 }) ∧
      ((s.hbmBank k).row ≠ some r.row → (s.hbmBank k).tracker = [] → 1 < p → Completes (exec (.hbmRequest ctl pc [⟨who, a, .read n⟩] .clean) s) fun t =>
        t.hbmBank k = { s.hbmBank k with row := some r.row, tracker := [⟨r.row, 1, who.stamp, 1⟩] } ∧ SMap.find? (t.hbmCtl c).lastAct who.stamp = some s.cycle ∧ (∀ j, j ≠ k → t.hbmBank j = s.hbmBank j) ∧
        t.counter (R.C_HBM_RDT_EVENTS c) = s.counter (R.C_HBM_RDT_EVENTS c)) ∧
      (∀ e, (s.hbmBank k).row ≠ some r.row → (s.hbmBank k).tracker = [e] → e.row = r.row → e.src = who.stamp → p ≤ e.count + 1 → e.count < 65535 →
        Completes (exec (.hbmRequest ctl pc [⟨who, a, .read n⟩] .clean) s) fun t => (t.hbmBank k).tracker = [] ∧ (t.hbmBank k).row = some r.row ∧
          t.counter (R.C_HBM_RDT_EVENTS c) = (s.counter (R.C_HBM_RDT_EVENTS c) + 1) % 2 ^ 64 ∧ t.get (R.HBM_RDT_LAST_ROW c) = r.row ∧
          t.get (R.HBM_RDT_LAST_BANK c) = r.bank ∧ t.get (R.HBM_RDT_LAST_PC c) = r.pc ∧
          ∃ i, i < 8 ∧ SMap.get none (t.hbmCtl c).throttles i = some (who.stamp, s.cycle + s.get R.HBM_RDT_US_US * 1500) ∧ t.get (R.HBM_THR_SRC c i) = who.stamp % 2 ^ 16)) ∧
  (∀ (s : State) (ctl : Fin 4) (k : HbmCtl), k = s.hbmCtl ctl →
    (∀ pc bank, Completes (exec (.refresh ctl pc bank) s) fun t => ∀ i : Nat, i = ctl.val * 1024 + pc.val * 32 + bank.val →
      t.hbmBank i = { s.hbmBank i with refreshes := (s.hbmBank i).refreshes + 1 } ∧ (∀ j, j ≠ i → t.hbmBank j = s.hbmBank j) ∧ t = { s with hbm := t.hbm }) ∧
    (∀ c w : Nat, w = (if s.isSet (R.HBM_STATUS_HOT_REFRESH ctl) then 16 else 32) * 1500000 →
      (s.cycle < k.windowAt + w → Completes (exec (.refreshWindowStart ctl (BitVec.ofNat 8 c)) s) fun t => t = s) ∧
      (k.windowAt + w ≤ s.cycle → c < 256 → SMap.wf (fun _ => HbmBank.init) s.hbm.banks = true → Completes (exec (.refreshWindowStart ctl (BitVec.ofNat 8 c)) s) fun t =>
        (∀ j : Nat, j / 1024 = ctl.val → t.hbmBank j = { s.hbmBank j with tracker := [], refreshes := 0 }) ∧ (∀ j : Nat, j / 1024 ≠ ctl.val → t.hbmBank j = s.hbmBank j) ∧
        t.get (R.HBM_STACK_TEMP_CELSIUS ctl) = c ∧ t.isSet (R.HBM_STATUS_HOT_REFRESH ctl) = decide (85 < c) ∧ (t.hbmCtl ctl).windowAt = s.cycle ∧
        t = { s with regs := t.regs, hbm := t.hbm })) ∧
    (∀ i, (SMap.get none k.throttles i.val = none → Completes (exec (.throttleExpiry ctl i) s) fun t => t = s) ∧
      (∀ x u, SMap.get none k.throttles i.val = some (x, u) → (s.cycle < u → Completes (exec (.throttleExpiry ctl i) s) fun t => t = s) ∧
        (u ≤ s.cycle → Completes (exec (.throttleExpiry ctl i) s) fun t => SMap.get none (t.hbmCtl ctl).throttles i.val = none ∧ t.get (R.HBM_THR_US_LEFT ctl i) = 0 ∧
          t = { s with regs := t.regs, hbm := t.hbm }))) ∧
    (s.isFenced Unit.hbm ctl = false → (Completes (exec (.hbmParityError ctl true) s) fun t => t.isFenced Unit.hbm ctl = true ∧ t.isSet R.HBM_MAP_STATUS_HBM_READY = false ∧
        t.isSet R.BPM_STATUS_H_READY = false ∧ t.isSet R.RLY_STATUS_FCT_READY = false ∧ ∀ r ∈ t.hbm.reqs, (s.place r.addr).ctl ≠ ctl.val) ∧
      Completes (exec (.hbmParityError ctl false) s) fun t => t.counter (R.C_HBM_PARITY_RETRIES ctl) = (s.counter (R.C_HBM_PARITY_RETRIES ctl) + 1) % 2 ^ 64 ∧
        t.isSet (R.HBM_STATUS_TRANSIENT ctl) = true ∧ t.mem = s.mem ∧ t.isFenced Unit.hbm ctl = false) ∧
    (s.isFenced Unit.hbm ctl = true ∨ 5 ≤ k.step → ∀ o, Completes (exec (.hbmTrainStep ctl o) s) fun t => t = s) ∧
    (s.isFenced Unit.hbm ctl = false → k.step < 4 → Completes (exec (.hbmTrainStep ctl .done) s) fun t => t.hbmCtl ctl = { k with step := k.step + 1 } ∧ t = { s with hbm := t.hbm }) ∧
    (s.isFenced Unit.hbm ctl = false → k.step < 4 → ∀ lane, Completes (exec (.hbmTrainStep ctl (.repaired lane)) s) fun t => t.hbmCtl ctl = { k with step := k.step + 1 } ∧
      t.get (R.HBM_LANES_REPAIRED_COUNT ctl) = min 255 (s.get (R.HBM_LANES_REPAIRED_COUNT ctl) + 1)) ∧
    (s.isFenced Unit.hbm ctl = false → k.step = 4 → k.repeated = false → Completes (exec (.hbmTrainStep ctl .done) s) fun t => (t.hbmCtl ctl).step = 5 ∧
      SameRegsBut s t [(R.HBM_STATUS_READY ctl).addr] ∧ t.isSet (R.HBM_STATUS_READY ctl) = true ∧ t = { s with regs := t.regs, hbm := t.hbm }) ∧
    (s.isFenced Unit.hbm ctl = false → k.step < 5 → k.repeated = false → Completes (exec (.hbmTrainStep ctl .failed) s) fun t =>
      t.hbmCtl ctl = { k with step := 0, repeated := true } ∧ t = { s with hbm := t.hbm }) ∧
    (s.isFenced Unit.hbm ctl = false → k.step < 5 → k.repeated = true → Completes (exec (.hbmTrainStep ctl .failed) s) fun t => t.isFenced Unit.hbm ctl = true ∧
      t.isSet R.HBM_MAP_STATUS_HBM_READY = false ∧ t.isSet R.BPM_STATUS_H_READY = false ∧ t.isSet R.RLY_STATUS_FCT_READY = false)) ∧
  (∀ (s : State) (who : Sender), Serves s who R.HBM_MAP_CTRL_ENABLE.addr → Completes (exec (.mapEnable who) s) fun t => SetsOnly s t R.HBM_MAP_CTRL_ENABLE 1) ∧
  (∀ (s : State) (a : Nat) (ctl : Fin 4) (pc : Fin 32), a = s.hbm.scrub → (s.place a).ctl = ctl.val → (s.place a).pc = pc.val → a < hbmBytes → a % 32 = 0 →
    (s.get R.HBM_SCRUB_H_HOURS = 0 ∨ s.hbmServes ctl = false → ∀ ecc, Completes (exec (.scrubRead ecc) s) fun t => t = s) ∧
    (s.get R.HBM_SCRUB_H_HOURS ≠ 0 → s.hbmServes ctl = true → s.hbm.reqs = [] → s.hbm.flows = [] → ∀ ecc, Completes (exec (.scrubRead ecc) s) fun u =>
      u.hbm.scrub = (a + 32) % hbmBytes ∧ u.hbm.reqs = [⟨s.hbm.next, s.hbm.next, .fixed 7, a, .read 32, s.cycle, false, false, ecc⟩] ∧ u = { s with regs := u.regs, hbm := u.hbm } ∧
      (s.rowWaits (s.place a) (Sender.stamp (.fixed 7)) = false → s.marked a = false →
        (ecc = .clean → Completes (exec (.hbmRequest ctl pc [] .clean) u) fun t => t.mem = s.mem ∧ t.out = s.out ∧ t.hbm.reqs = [] ∧ t.counter (R.C_HBM_READS ctl) = (s.counter (R.C_HBM_READS ctl) + 1) % 2 ^ 64) ∧
        (ecc = .uncorrectable → Completes (exec (.hbmRequest ctl pc [] .clean) u) fun t => t.marked a = true ∧ SameMemoryBut s t a 32 ∧
          t.counter (R.C_HBM_POISONED ctl) = (s.counter (R.C_HBM_POISONED ctl) + 1) % 2 ^ 64)))) ∧
  ∀ (s : State) (o a : Nat) (ctl : Fin 4) (pc : Fin 32), a = (s.pair R.HBM_BAR2_WIN_LO_ADDR R.HBM_BAR2_WIN_HI_ADDR + o) % hbmBytes →
    (s.place a).ctl = ctl.val → (s.place a).pc = pc.val →
    (∀ n, 2 ^ s.hbm.bar2 < o + n → ∀ ecc, Completes (exec (.bar2Read o n ecc) s) fun t => t = s) ∧
    (∀ bs, 2 ^ s.hbm.bar2 < o + bs.length → ∀ ecc, Completes (exec (.bar2Write o bs ecc) s) fun t => t = s) ∧
    (∀ n, 0 < n → a % 32 + n ≤ 32 → o + n ≤ 2 ^ s.hbm.bar2 → s.cutOff (.host 0) = false → s.hbmServes ctl = true → s.marked a = false → s.hbm.reqs = [] → s.hbm.flows = [] →
      s.rowWaits (s.place a) (Sender.stamp (.host 0)) = false → Completes (exec (.bar2Read o n .clean) s) fun u => u.out = s.out ∧ u.hbm.reqs.length = 1 ∧
        Completes (exec (.hbmRequest ctl pc [] .clean) u) fun t => t.out = .done (.host 0) St.ok (a :: 0 :: (s.bytes a n).map BitVec.toNat) :: s.out ∧ t.mem = s.mem) ∧
    (∀ bs r, 0 < bs.length → o + bs.length ≤ 2 ^ s.hbm.bar2 → s.cutOff (.host 0) = false → s.regionOf a = some r → s.isSet (R.HBM_REG_CFG_HOST_WP r) = true →
      ∀ ecc, Completes (exec (.bar2Write o bs ecc) s) fun t => t.get R.HBM_WP_DROPS_COUNT = min (2 ^ 32 - 1) (s.get R.HBM_WP_DROPS_COUNT + 1) ∧ t.mem = s.mem ∧ t.hbm = s.hbm) ∧
    (∀ bs : List Byte, 0 < bs.length → a % 32 + bs.length ≤ 32 → o + bs.length ≤ 2 ^ s.hbm.bar2 → s.cutOff (.host 0) = false →
      (∀ r, s.regionOf a = some r → s.isSet (R.HBM_REG_CFG_HOST_WP r) = false) → s.hbmServes ctl = true → s.marked a = false → s.hbm.reqs = [] → s.hbm.flows = [] →
      s.rowWaits (s.place a) (Sender.stamp (.host 0)) = false → Completes (exec (.bar2Write o bs .clean) s) fun u => u.mem = s.mem ∧
        Completes (exec (.hbmRequest ctl pc [] .clean) u) fun t => t.bytes a bs.length = bs ∧ SameMemoryBut s t a bs.length ∧ t.out = s.out) ∧
    ∀ l d, (l < 28 ∨ 36 < l → Completes (exec (.bar2SizeChange l d) s) fun t => t = s) ∧
      (28 ≤ l → l ≤ 36 → l = s.hbm.bar2 → Completes (exec (.bar2SizeChange l d) s) fun t => t = { s with hbm := { s.hbm with decode := d } }) ∧
      (28 ≤ l → l ≤ 36 → l ≠ s.hbm.bar2 → Completes (exec (.bar2SizeChange l d) s) fun t => t.get R.HBM_BAR2_WIN_LO_ADDR = 0 ∧ t.get R.HBM_BAR2_WIN_HI_ADDR = 0 ∧
        t.hbm = { s.hbm with bar2 := l, decode := d } ∧ t = { s with regs := t.regs, hbm := t.hbm })

/-- R488 to R496. `goOn`, with which every command of a queue ends, checks the next descriptor and asks for more; the order of a
descriptor's checks and what a failed fetch reports are choices of the model (log entries 65 to 69). -/
def Obligations.HostQueuesRunTheirDescriptors : Prop :=
  (∀ (s : State) (fn j : Fin 16) (size head tail : Nat) (new : BitVec 16), Serves s (.host fn) (R.HIF_Fn_Qj_TAIL_ENTRY fn j).addr →
    size = 2 ^ s.get (R.HIF_Fn_Qj_SIZE_LOG2 fn j) → head = s.get (R.HIF_Fn_Qj_HEAD_ENTRY fn j) → tail = s.get (R.HIF_Fn_Qj_TAIL_ENTRY fn j) →
    (size ≤ new.toNat ∨ size - 1 - ringGap size head tail < ringGap size tail new.toNat → Completes (exec (.tailWrite fn j new) s) fun t =>
      SetsOnly s t (R.HIF_Fn_Qj_STAT_DESC_ERR fn j) 1) ∧
    (new.toNat < size → ringGap size tail new.toNat ≤ size - 1 - ringGap size head tail →
      (s.serves fn j = false ∨ s.isRing fn j = false ∨ (s.sub fn j).fetch ≠ none → Completes (exec (.tailWrite fn j new) s) fun t =>
        t.get (R.HIF_Fn_Qj_TAIL_ENTRY fn j) = new.toNat ∧ t = { s with regs := t.regs } ∧
        SameRegsBut s t [(R.HIF_Fn_Qj_TAIL_ENTRY fn j).addr, (R.HIF_Fn_Qj_STAT_PAUSED fn j).addr]) ∧
      ∀ c, s.serves fn j = true → s.isRing fn j = true → s.hostPaused fn j = false → s.sub fn j = SubQueue.init →
        s.queue (hostQueue fn j) = StreamQueue.init → 8 ≤ s.get (R.BPM_Qq_DEPTH_WORDS (hostQueue fn j)) → c = min 8 (min (ringGap size head new.toNat) (size - head % size)) → 0 < c →
        Completes (exec (.tailWrite fn j new) s) fun t => t.get (R.HIF_Fn_Qj_TAIL_ENTRY fn j) = new.toNat ∧ (t.sub fn j).fetch = some (c, s.cycle) ∧
          t.out = .hostRead fn (s.pair (R.HIF_Fn_Qj_BASE_LO_ADDR fn j) (R.HIF_Fn_Qj_BASE_HI_ADDR fn j) + 32 * (head % size)) (32 * c) :: s.out)) ∧
  (∀ (s : State) (fn j : Fin 16) (q : SubQueue), q = s.sub fn j →
    (∀ c a ds, q.fetch = some (c, a) → ds.length = c → (∀ d ∈ ds, d.length = 32) → Completes (exec (.descFetchDone fn j ds false) s) fun t => ∃ u : State,
      t = u.goOn fn j ∧ u.sub fn j = { q with fetch := none, fetched := q.fetched ++ ds.map fun d => (d, true) } ∧ u = { s with regs := u.regs, subs := u.subs } ∧
      SameRegsBut s u [(R.HIF_Fn_Qj_STAT_PAUSED fn j).addr]) ∧
    (∀ c a ds, q.fetch = some (c, a) → q.fetched = [] → Completes (exec (.descFetchDone fn j ds true) s) fun t => ∃ u : State, t = u.goOn fn j ∧
      u.isSet (R.HIF_Fn_Qj_STAT_DMA_ERR fn j) = true ∧ (u.sub fn j).fetch = none ∧ u.get (R.HIF_Fn_Qj_DONE_COUNT fn j) = (s.get (R.HIF_Fn_Qj_DONE_COUNT fn j) + c) % 2 ^ 32 ∧
      u.get (R.HIF_Fn_Qj_HEAD_ENTRY fn j) = (s.get (R.HIF_Fn_Qj_HEAD_ENTRY fn j) + c) % s.ringSize fn j % 2 ^ 16) ∧
    (∀ c a, q.fetch = some (c, a) → q.fetched = [] →
      (s.cycle < a + s.get R.HIF_CPL_TIMEOUT_MS * 1500000 → Completes (exec (.cplTimeout fn j) s) fun t => t = s) ∧
      (a + s.get R.HIF_CPL_TIMEOUT_MS * 1500000 ≤ s.cycle → Completes (exec (.cplTimeout fn j) s) fun t => t = s.failFetch fn j c)) ∧
    (Serves s (.host fn) (R.HIF_Fn_Qj_PIO_WORD fn j 7).addr →
      (s.isRing fn j = true → Completes (exec (.pioCommit fn j) s) fun t => t = s) ∧
      (s.isRing fn j = false → s.serves fn j = true → Completes (exec (.pioCommit fn j) s) fun t => ∃ u : State, t = u.goOn fn j ∧
        u.sub fn j = { q with fetched := q.fetched ++ [((List.range 8).flatMap fun w => leBytes 4 (s.get (R.HIF_Fn_Qj_PIO_WORD fn j w)), false)] } ∧ u = { s with subs := u.subs }) ∧
      (s.isRing fn j = false → (s.fn fn).exists_ = true → s.serves fn j = false → Completes (exec (.pioCommit fn j) s) fun t => t = s.sqDone fn j (s.pioDesc fn j) St.queueDisabled)) ∧
    (q.fetched = [] → ∀ dat, ∀ c ∈ [Instr.descNop fn j, .inline fn j, .hostBuf fn j dat, .devBuf fn j, .freeCell fn j, .rxBuf fn j], Completes (exec c s) fun t => t = s) ∧
    (∀ d b rest, q.fetched = (d, b) :: rest → ∀ u : State, u = s.popDesc fn j →
      ((u.sub fn j).fetched = rest ∧ (b = true → u.get (R.HIF_Fn_Qj_HEAD_ENTRY fn j) = (s.get (R.HIF_Fn_Qj_HEAD_ENTRY fn j) + 1) % s.ringSize fn j % 2 ^ 16) ∧
        (b = false → u.regs = s.regs)) ∧
      (∀ op dat, op = descField d 0 1 → ∀ c ∈ [(0, Instr.descNop fn j), (1, .inline fn j), (2, .hostBuf fn j dat), (3, .devBuf fn j), (4, .freeCell fn j), (5, .rxBuf fn j)],
        c.1 ≠ op → Completes (exec c.2 s) fun t => t = s) ∧
      (∀ op v o, op = descField d 0 1 → u.writeWord (hostQueue fn j) ⟨d, true, true, false, descField d 1 1 % 8⟩ .desc = (v, o) → o = .taken ∨ o = .withheld →
        (∀ w, v.peekWord (hostQueue fn j) = some w → descField w.data 0 1 ≠ 0) → ∀ c ∈ [(1, Instr.inline fn j), (3, .devBuf fn j)], c.1 = op → Completes (exec c.2 s) fun t => t = v.goOn fn j) ∧
      (∀ op v o code, op = descField d 0 1 → u.writeWord (hostQueue fn j) ⟨d, true, true, false, descField d 1 1 % 8⟩ .desc = (v, o) →
        (o = .full ∧ code = St.queueFull) ∨ (o = .disabled ∧ code = St.queueDisabled) → (∀ w, v.peekWord (hostQueue fn j) = some w → descField w.data 0 1 ≠ 0) →
        ∀ c ∈ [(1, Instr.inline fn j), (3, .devBuf fn j)], c.1 = op → Completes (exec c.2 s) fun t => t = (v.sqDone fn j d code).goOn fn j) ∧
      (∀ v w x, descField d 0 1 = 0 → d.length = 32 → u.writeWord (hostQueue fn j) ⟨d, true, true, false, descField d 1 1 % 8⟩ .desc = (v, .taken) →
        v.peekWord (hostQueue fn j) = some ⟨d, true, true, false, x⟩ → (v.readWord (hostQueue fn j)).1 = w → w.peekWord (hostQueue fn j) = none →
        Completes (exec (.descNop fn j) s) fun t => t = (w.sqDone fn j d St.ok).goOn fn j) ∧
      (descField d 0 1 = 2 →
        (q.phase = .none → ∀ dat, Completes (exec (.hostBuf fn j dat) s) fun t => t = s.goOn fn j) ∧
        (q.phase = .asked → SMap.get none s.hostGrants (hostQueue fn j) = none → ∀ dat, Completes (exec (.hostBuf fn j dat) s) fun t => t = s) ∧
        ∀ cell since, q.phase = .reading cell since →
          (Completes (exec (.hostBuf fn j none) s) fun t => t = s.failBuf fn j d cell ∧ ∃ u : State, t = u.goOn fn j ∧ u.isSet (R.HIF_Fn_Qj_STAT_DMA_ERR fn j) = true) ∧
          (∀ bs, bs.length = descField d 4 4 → s.poison = [] → cell + bs.length ≤ hbmBytes → Completes (exec (.hostBuf fn j (some bs)) s) fun t => ∃ u : State,
            t = u.commitDesc fn j (patch d 0x10 (leBytes 8 cell)) cell ∧ u.bytes cell bs.length = bs ∧ SameMemoryBut s u cell bs.length ∧ u = { s with mem := u.mem }) ∧
          (s.cycle < since + s.get R.HIF_CPL_TIMEOUT_MS * 1500000 → Completes (exec (.cplTimeout fn j) s) fun t => t = s) ∧
          (since + s.get R.HIF_CPL_TIMEOUT_MS * 1500000 ≤ s.cycle → Completes (exec (.cplTimeout fn j) s) fun t => t = s.failBuf fn j d cell)) ∧
      (descField d 0 1 = 4 → ∀ v code, s.returnCell (.host fn) (descField d 0x10 8) = (v, code) → Completes (exec (.freeCell fn j) s) fun t =>
        t = ((v.popDesc fn j).sqDone fn j d code).goOn fn j) ∧
      (descField d 0 1 = 5 → 256 ≤ (s.cpl fn j).rx.length → Completes (exec (.rxBuf fn j) s) fun t => ∃ v : State, t = (v.sqDone fn j d St.hqDescBad).goOn fn j ∧
        v.isSet (R.HIF_Fn_Qj_STAT_DESC_ERR fn j) = true ∧ v.cpls = s.cpls) ∧
      (descField d 0 1 = 5 → (s.cpl fn j).rx.length < 256 → Completes (exec (.rxBuf fn j) s) fun t => ∃ v : State, t = v.goOn fn j ∧
        v.cpl fn j = { s.cpl fn j with rx := (s.cpl fn j).rx ++ [⟨descField d 0x10 8, descField d 4 4, descField d 8 4⟩] } ∧
        v.get (R.HIF_Fn_Qj_DONE_COUNT fn j) = (s.get (R.HIF_Fn_Qj_DONE_COUNT fn j) + 1) % 2 ^ 32 ∧ v.out = s.out)) ∧
    (∀ w v st, s.peekWord (hostQueue fn j) = some w → (s.readWord (hostQueue fn j)).1 = v → (∀ (x : State) y, x.queue (hostQueue fn j) = v.queue (hostQueue fn j) →
        x.peekWord (hostQueue fn j) = some y → descField y.data 0 1 ≠ 0) →
      (descField w.data 2 1 ≠ 1 → Completes (exec (.frameTx fn j) s) fun t => t = s) ∧
      (descField w.data 2 1 ≠ 3 ∨ (St.listed st.toNat = false ∧ (st.toNat ≠ St.unitFenced ∨ s.get R.SQL_FENCED_UNITS_COUNT = 0)) → Completes (exec (.firmware fn j st) s) fun t => t = s) ∧
      (descField w.data 2 1 = 3 → St.listed st.toNat = true ∨ (st.toNat = St.unitFenced ∧ s.get R.SQL_FENCED_UNITS_COUNT ≠ 0) → Completes (exec (.firmware fn j st) s) fun t => ∃ x : State, t = x.goOn fn j ∧
        x = (v.emit (.firmware 5 (fn :: descField w.data 0xC 4 :: (v.descData w.data).map BitVec.toNat))).sqDone fn j w.data st.toNat)) ∧
    (∀ w v, s.peekWord (hostQueue fn j) = some w → (s.readWord (hostQueue fn j)).1 = v → descField w.data 2 1 = 1 → Completes (exec (.frameTx fn j) s) fun t => ∃ (x : State) (f : EFrame),
      x = (v.spent.enqueueFrame f).sqDone fn j w.data St.ok ∧ t = (x.passNops fn j ((x.queue (hostQueue fn j)).packets.length + 1)).goOn fn j ∧ f.data = v.descData w.data ∧
      f = ⟨16640 + descField w.data 0xC 4 % 8, descField w.data 0xC 4 / 16 % 8, descField w.data 0xC 4 % 8, (v.descData w.data).length + 4, descCell w.data, v.cycle % 2 ^ 32, false, v.descData w.data⟩)) ∧
  (∀ (s : State) (fn k : Fin 16) (q : CplQueue) (size tail : Nat), q = s.cpl fn k → size = 2 ^ s.get (R.HIF_Fn_Qj_SIZE_LOG2 fn (16 + k)) →
    tail = s.get (R.HIF_Fn_Qj_TAIL_ENTRY fn (16 + k)) →
    (s.serves fn (16 + k) = false ∨ (tail + 1) % size = s.get (R.HIF_Fn_Qj_HEAD_ENTRY fn (16 + k)) % size ∨ s.peekWord (hostQueue fn (16 + k)) = none →
      Completes (exec (.cqEntryWrite fn k) s) fun t => t = s) ∧
    (∀ w v, s.serves fn (16 + k) = true → (tail + 1) % size ≠ s.get (R.HIF_Fn_Qj_HEAD_ENTRY fn (16 + k)) % size → s.peekWord (hostQueue fn (16 + k)) = some w →
      (s.readWord (hostQueue fn (16 + k))).1 = v →
      (descField w.data 0 1 = 1 → Completes (exec (.cqEntryWrite fn k) s) fun t => ∃ u : State, t = u.coalesce fn k ∧
        u.out = .hostWrite fn (v.ringEntry fn (16 + k) (v.hqTail fn (16 + k))) (patch (patch (patch (patch w.data 2 (leBytes 1 (bnat (!(v.cpl fn k).inverted)))) 4
          (leBytes 2 (v.hqHead fn k))) 8 (leBytes 4 (descField w.data 8 4))) 0x10 (leBytes 8 0)) :: v.out ∧
        u.get (R.HIF_Fn_Qj_TAIL_ENTRY fn (16 + k)) = (v.hqTail fn (16 + k) + 1) % v.ringSize fn (16 + k) % 2 ^ 16 ∧
        ((v.hqTail fn (16 + k) + 1) % v.ringSize fn (16 + k) = 0 → (u.cpl fn k).inverted = !(v.cpl fn k).inverted) ∧
        ((v.hqTail fn (16 + k) + 1) % v.ringSize fn (16 + k) ≠ 0 → u.cpl fn k = v.cpl fn k)) ∧
      (descField w.data 0 1 ≠ 1 → q.rx = [] → (fn.val ≠ 0 ∨ s.isSet (R.HIF_Fn_Qj_CFG_DELIVERY fn (16 + k)) = false) → Completes (exec (.cqEntryWrite fn k) s) fun t => t = s) ∧
      (descField w.data 0 1 ≠ 1 → fn.val = 0 → s.isSet (R.HIF_Fn_Qj_CFG_DELIVERY fn (16 + k)) = true → Completes (exec (.cqEntryWrite fn k) s) fun t =>
        t = v.writeEntryAt fn k w.data true 0 (descField w.data 0x10 8)) ∧
      (∀ b rest, descField w.data 0 1 ≠ 1 → q.rx = b :: rest → fn.val ≠ 0 ∨ s.isSet (R.HIF_Fn_Qj_CFG_DELIVERY fn (16 + k)) = false →
        Completes (exec (.cqEntryWrite fn k) s) fun t => t = v.writeData fn k w.data b rest ∧
          (descField w.data 0xC 4 ≤ b.len → .hostWrite fn b.addr (v.bytes (descField w.data 0x10 8) (descField w.data 0xC 4)) ∈ t.out))) ∧
    (∀ h : BitVec 16, Serves s (.host fn) (R.HIF_Fn_Qj_HEAD_ENTRY fn (16 + k)).addr → Completes (exec (.headWrite fn k h) s) fun t =>
      t.get (R.HIF_Fn_Qj_HEAD_ENTRY fn (16 + k)) = h.toNat ∧ (t.cpl fn k).waiting = q.waiting.drop (ringGap size (s.get (R.HIF_Fn_Qj_HEAD_ENTRY fn (16 + k))) h.toNat) ∧
      (t.cpl fn k).rx = q.rx ∧ (t.cpl fn k).inverted = q.inverted ∧ t = { s with regs := t.regs, cpls := t.cpls }) ∧
    (q.waiting = [] ∨ s.get (R.HIF_Fn_Qj_COAL_US fn (16 + k)) = 0 ∨ q.aged = true → Completes (exec (.cqCoalesceTimer fn k) s) fun t => t = s) ∧
    (∀ a as, q.waiting = a :: as → s.get (R.HIF_Fn_Qj_COAL_US fn (16 + k)) ≠ 0 → q.aged = false →
      (s.cycle < a + s.get (R.HIF_Fn_Qj_COAL_US fn (16 + k)) * 1500 → Completes (exec (.cqCoalesceTimer fn k) s) fun t => t = s) ∧
      (a + s.get (R.HIF_Fn_Qj_COAL_US fn (16 + k)) * 1500 ≤ s.cycle → Completes (exec (.cqCoalesceTimer fn k) s) fun t => ∃ u : State,
        t = u.raise fn (s.get (R.HIF_Fn_Qj_CFG_VECTOR fn (16 + k))) ∧ u.cpl fn k = { q with aged := true } ∧ u = { s with regs := u.regs, cpls := u.cpls }))) ∧
  ∀ (s : State) (fn : Fin 16) (j : Fin 32), Serves s (.host fn) (R.HIF_Fn_Qj_CFG_MODE fn j).addr →
    (s.serves fn j = false ∨ 16 ≤ j.val → (s.queue (hostQueue fn j)).stalled = [] → Completes (exec (.hostQueueDisable fn j) s) fun t =>
      t.isSet (R.BPM_Qq_CFG_ENABLE (hostQueue fn j)) = false ∧ t.queue (hostQueue fn j) = s.queue (hostQueue fn j) ∧ t = { s with regs := t.regs, queues := t.queues }) ∧
    (s.serves fn j = true → j.val < 16 → Completes (exec (.hostQueueDisable fn j) s) fun t => t.isSet (R.BPM_Qq_CFG_ENABLE (hostQueue fn j)) = false ∧ t.sub fn j = SubQueue.init ∧
      (t.queue (hostQueue fn j)).packets = [] ∧ (t.queue (hostQueue fn j)).reading = [] ∧ t.mem = s.mem)

/-- R497 to R507, with the delivery check of R576 and R580.
Choices of the model: log entries 14, 70 and 78. -/
def Obligations.MailboxesCarryWholeMessages : Prop :=
  (∀ (s : State) (n c : Nat), s.claimable n c = true ↔ (s.mbxFull c = false ∧ (s.mbxClaimed c = false ∨ s.claimDue c = true) ∧ s.isFenced Unit.mbx c = false ∧
      s.get (R.MBX_CHc_CFG_RECV c) / 4096 = 1 ∧ (s.get (R.MBX_CHc_CFG_HOST_MASK c)).testBit n = true)) ∧
  (∀ (s b : State) (fn : Fin 16), Serves s (.host fn) R.MBX_CLAIM_VALID.addr → b = s.beforeClaim fn →
    (s.pending = [] → b = s) ∧ (∀ who d line k, s.pending = [.mbxInternalWrite who d line k] → exec (.mbxInternalWrite who d line k) s = .next b) ∧
    (∀ m : Fin 16, s.pending = [.mbxClaim m] → Serves s (.host m) R.MBX_CLAIM_VALID.addr → (m < fn → exec (.mbxClaim m) s = .next b) ∧ (fn ≤ m → b = s)) ∧
    (s.isSet R.MBX_CTRL_ENABLE = false ∨ (∀ c, c < 64 → b.claimable fn c = false) → Completes (exec (.mbxClaim fn) s) fun t =>
      t = { s with out := .readDone (.host fn) R.MBX_CLAIM_VALID.addr 0 :: s.out }) ∧
    (∀ c, c < 64 → s.isSet R.MBX_CTRL_ENABLE = true → s.mbxFull c = false → b.claimable fn c = true → (∀ d, d < c → b.claimable fn d = false) →
      Completes (exec (.mbxClaim fn) s) fun t =>
      t.out = .readDone (.host fn) R.MBX_CLAIM_VALID.addr (128 + c) :: s.out ∧ t.mbxClaimed c = true ∧ t.get (R.MBX_CHc_STAT_CLAIMER c) = fn ∧
      t.chan c = ⟨s.cycle, [], none⟩ ∧ (∀ d, d ≠ c → t.chan d = s.chan d) ∧ SameRegsBut s t [(R.MBX_CHc_STAT_FULL c).addr] ∧ t.mbxFull c = false ∧
      t = { s with regs := t.regs, mbx := t.mbx, out := t.out })) ∧
  (∀ (s : State) (fn : Fin 16) (ch : Fin 64) (i : Fin 16) (v : Word), Serves s (.host fn) (R.MBX_CHc_DATA_DATA ch i).addr → Serves s (.host fn) (R.MBX_CHc_CTRL_SEND ch).addr →
    (s.seesChannel fn ch = true → (s.fn fn).exists_ = true → s.claimDue ch = false →
      (∀ cause, (s.isFenced Unit.mbx ch = true ∧ cause = St.unitFenced) ∨ (s.isFenced Unit.mbx ch = false ∧ s.recvClass ch = 0 ∧ cause = St.mbxHostBound) ∨
          (s.isFenced Unit.mbx ch = false ∧ s.recvClass ch ≠ 0 ∧ (s.chan ch).lapsedBy = some fn.val ∧ cause = St.mbxLapsed) ∨
          (s.isFenced Unit.mbx ch = false ∧ s.recvClass ch ≠ 0 ∧ (s.chan ch).lapsedBy ≠ some fn.val ∧
            (s.mbxClaimed ch = false ∨ s.get (R.MBX_CHc_STAT_CLAIMER ch) ≠ fn) ∧ cause = St.mbxNotOwner) →
        ∀ c ∈ [Instr.mbxDataWrite fn ch i v, .send fn ch .pass], Completes (exec c s) fun t => ∃ u : State, t = u.raise fn (s.get (R.HIF_Fn_VEC_MBX_REJ fn)) ∧
          u = { s with regs := u.regs } ∧ SameRegsBut s u [(R.HIF_Fn_MBX_REJ_CHANNEL fn).addr] ∧ u.get (R.HIF_Fn_MBX_REJ_CHANNEL fn) = ch ∧
          u.get (R.HIF_Fn_MBX_REJ_CAUSE fn) = cause % 256 ∧ u.isSet (R.HIF_Fn_MBX_REJ_REJECTED fn) = true ∧
          u.isSet (R.HIF_Fn_MBX_REJ_MULTI fn) = (s.isSet (R.HIF_Fn_MBX_REJ_MULTI fn) || s.isSet (R.HIF_Fn_MBX_REJ_REJECTED fn))) ∧
      (s.isFenced Unit.mbx ch = false → s.recvClass ch ≠ 0 → (s.chan ch).lapsedBy ≠ some fn.val → s.mbxClaimed ch = true → s.get (R.MBX_CHc_STAT_CLAIMER ch) = fn →
        (Completes (exec (.mbxDataWrite fn ch i v) s) fun t => t.chan ch = { s.chan ch with stage := SMap.set none (s.chan ch).stage i (some v.toNat) } ∧
          (∀ d, d ≠ ch.val → t.chan d = s.chan d) ∧ t = { s with mbx := t.mbx }) ∧
        (Completes (exec (.send fn ch .pass) s) fun t => ∃ u : State, t = u.notifyReceiver ch ∧ u.mbxClaimed ch = false ∧ u.mbxFull ch = true ∧
          u.get (R.MBX_CHc_SENDER_SENDER ch) = fn ∧ u.chan ch = MbxChannel.init ∧ (∀ w k, k < 16 → SMap.get none (s.chan ch).stage k = some w →
            u.get (R.MBX_CHc_DATA_DATA ch k) = w % 2 ^ 32) ∧ u = { s with regs := u.regs, mbx := u.mbx, freeCtr := u.freeCtr }) ∧
        Completes (exec (.send fn ch .failed) s) fun t => t.isFenced Unit.mbx ch = true ∧ t.mbxClaimed ch = false ∧ t.mbxFull ch = s.mbxFull ch ∧
          t.get (R.HIF_Fn_MBX_REJ_CAUSE fn) = St.unitFenced % 256)) ∧
    (s.seesChannel fn ch = true → (s.fn fn).exists_ = true → s.claimDue ch = true → s.get (R.MBX_CHc_STAT_CLAIMER ch) = fn → s.isFenced Unit.mbx ch = false → s.recvClass ch ≠ 0 →
      Completes (exec (.send fn ch .pass) s) fun t => ∃ u : State, t = u.raise fn (s.get (R.HIF_Fn_VEC_MBX_REJ fn)) ∧ u.get (R.HIF_Fn_MBX_REJ_CAUSE fn) = St.mbxLapsed % 256 ∧
        u.mbxClaimed ch = false ∧ u.chan ch = ⟨0, [], some fn⟩ ∧ u.mbxFull ch = s.mbxFull ch)) ∧
  (∀ (s : State) (ch : Fin 64), (s.claimDue ch = true ↔ s.mbxClaimed ch = true ∧ (s.chan ch).since + s.get R.MBX_CLAIM_TO_US * 1500 ≤ s.cycle) ∧
    (s.claimDue ch = false → Completes (exec (.mbxClaimTimeout ch) s) fun t => t = s) ∧
    (s.claimDue ch = true → Completes (exec (.mbxClaimTimeout ch) s) fun t => t.mbxClaimed ch = false ∧ t.chan ch = ⟨0, [], some (s.get (R.MBX_CHc_STAT_CLAIMER ch))⟩ ∧
      (∀ d, d ≠ ch.val → t.chan d = s.chan d) ∧ SameRegsBut s t [(R.MBX_CHc_STAT_FULL ch).addr] ∧ t = { s with regs := t.regs, mbx := t.mbx }) ∧
    ∀ (who : Sender) (line : List Byte), s.claimDue ch = false →
      (s.cutOff who = true ∨ s.isSet R.MBX_CTRL_ENABLE = false ∨ s.isFenced Unit.mbx ch = true → ∀ k, Completes (exec (.mbxInternalWrite who ch line k) s) fun t =>
        t = { s with out := .busError who (0x100000 + ch.val * 0x100) :: s.out }) ∧
      (s.cutOff who = false → s.isSet R.MBX_CTRL_ENABLE = true → s.isFenced Unit.mbx ch = false → s.mbxFull ch = true ∨ s.mbxClaimed ch = true → ∀ k, Completes (exec (.mbxInternalWrite who ch line k) s) fun t =>
        t.out = .busError who (0x100000 + ch.val * 0x100) :: s.out ∧ t.get R.MBX_INT_REFUSED_COUNT = min (2 ^ 32 - 1) (s.get R.MBX_INT_REFUSED_COUNT + 1) ∧
        SameRegsBut s t [R.MBX_INT_REFUSED_COUNT.addr] ∧ t = { s with regs := t.regs, out := t.out }) ∧
      (s.cutOff who = false → s.isSet R.MBX_CTRL_ENABLE = true → s.isFenced Unit.mbx ch = false → s.mbxFull ch = false → s.mbxClaimed ch = false → line.length = 64 →
        (Completes (exec (.mbxInternalWrite who ch line .pass) s) fun t => ∃ u : State, t = u.notifyReceiver ch ∧ u.mbxFull ch = true ∧
          u.get (R.MBX_CHc_SENDER_SENDER ch) = who.stamp % 2 ^ 16 ∧ (∀ k, k < 16 → u.get (R.MBX_CHc_DATA_DATA ch k) = leVal (slice line (4 * k) (4 * k + 4))) ∧
          u = { s with regs := u.regs }) ∧
        Completes (exec (.mbxInternalWrite who ch line .failed) s) fun t => t.isFenced Unit.mbx ch = true ∧ t.mbxFull ch = false ∧
          .busError who (0x100000 + ch.val * 0x100) ∈ t.out)) ∧
  (∀ (s : State) (ch : Fin 64) (fn : Fin 16), (s.fn fn).exists_ = true → ∀ a, a = (R.MBX_CHc_DATA_DATA ch 15).addr →
    (∀ who, s.cutOff who = true → Completes (exec (.mbxRelease who ch) s) fun t => t = s.lostRead who a) ∧
    (s.cutOff (.host fn) = false → s.get (R.MBX_CHc_CFG_RECV ch) = fn → s.mbxFull ch = true → Completes (exec (.mbxRelease (.host fn) ch) s) fun t => ∃ u : State, t = u.refillChannel ch ∧ (ch.val < 32 → t = u) ∧
      u.mbxFull ch = false ∧ u.out = .readDone (.host fn) a (s.get (R.MBX_CHc_DATA_DATA ch 15)) :: s.out ∧ SameRegsBut s u [(R.MBX_CHc_STAT_FULL ch).addr] ∧
      u = { s with regs := u.regs, out := u.out }) ∧
    (s.cutOff (.host fn) = false → s.get (R.MBX_CHc_CFG_RECV ch) ≠ fn → s.mbxClaimed ch = false → s.mbxFull ch = true → Completes (exec (.mbxRelease (.host fn) ch) s) fun t =>
      t = { s with out := .readDone (.host fn) a 0 :: s.out }) ∧
    ∀ n, s.cutOff (.control n) = false → s.get (R.MBX_CHc_CFG_RECV ch) = 0x1000 + n → n < 16 → s.mbxFull ch = true → Completes (exec (.mbxRelease (.control n) ch) s) fun t => ∃ u : State,
      t = u.refillChannel ch ∧ (ch.val < 32 → t = u) ∧ u.mbxFull ch = false ∧ u.out = .done (.control n) St.ok ((List.range 16).map fun k => s.get (R.MBX_CHc_DATA_DATA ch k)) :: s.out) ∧
  (∀ (s : State) (fn : Fin 16) (w : Fin 8) (bits : Word), Serves s (.host fn) (R.DBL_SET_SET w).addr → (s.fn fn).exists_ = true →
    (Completes (exec (.dblSet fn w bits) s) fun t => ∀ b, b < 256 →
      t.doorbell b = (s.doorbell b || (b / 32 == w.val && bits.toNat.testBit (b % 32) && decide (b < 128) && (fn.val == 0 || b / 8 == fn.val)))) ∧
    ∀ b, b < 32 → bits.toNat = 2 ^ b →
      (4 ≤ w.val ∨ (fn.val ≠ 0 ∧ (32 * w.val + b) / 8 ≠ fn.val) → Completes (exec (.dblSet fn w bits) s) fun t => t.get R.DBL_IGNORED_COUNT = min (2 ^ 32 - 1) (s.get R.DBL_IGNORED_COUNT + 1) ∧
        SameRegsBut s t [R.DBL_IGNORED_COUNT.addr] ∧ t = { s with regs := t.regs }) ∧
      (w.val < 4 → fn.val = 0 ∨ (32 * w.val + b) / 8 = fn.val → s.doorbell (32 * w.val + b) = true → Completes (exec (.dblSet fn w bits) s) fun t =>
        t.get R.DBL_COALESCED_COUNT = min (2 ^ 32 - 1) (s.get R.DBL_COALESCED_COUNT + 1) ∧ SameRegsBut s t [R.DBL_COALESCED_COUNT.addr] ∧ t = { s with regs := t.regs, bells := t.bells }) ∧
      (w.val < 4 → fn.val = 0 ∨ (32 * w.val + b) / 8 = fn.val → s.doorbell (32 * w.val + b) = false → Completes (exec (.dblSet fn w bits) s) fun t =>
        t.out = .coreIrq ((32 * w.val + b) % 16) 1 (32 * w.val + b) :: s.out ∧ SameRegsBut s t [(R.DBL_STAT_BITS w).addr] ∧ SMap.get none t.bells (32 * w.val + b) = some s.cycle ∧
        t = { s with regs := t.regs, bells := t.bells, out := t.out })) ∧
  ∀ (s : State) (who : Sender),
    (∀ b : Fin 128, (s.cutOff who = true → Completes (exec (.dblInternalSet who b) s) fun t => t = s.lostWrite who (R.DBL_SET_SET (4 + b / 32)).addr) ∧
      (s.cutOff who = false → s.doorbell (128 + b.val) = true → Completes (exec (.dblInternalSet who b) s) fun t => t = { s with bells := t.bells } ∧
        SMap.get none t.bells (128 + b.val) = some s.cycle) ∧
      (s.cutOff who = false → s.doorbell (128 + b.val) = false → Completes (exec (.dblInternalSet who b) s) fun t => ∃ u : State,
        t = u.raise (b.val / 8) (s.get (R.HIF_Fn_VEC_DBL (b.val / 8))) ∧ u.doorbell (128 + b.val) = true ∧ (∀ c, c < 256 → c ≠ 128 + b.val → u.doorbell c = s.doorbell c) ∧
        SMap.get none u.bells (128 + b.val) = some s.cycle ∧ u = { s with regs := u.regs, bells := u.bells })) ∧
    (∀ b, (SMap.get none s.bells b = some s.cycle → s.bellHeld b = true) ∧ (∀ x (c : Fin 128), .dblInternalSet x c ∈ s.pending → b = 128 + c.val → s.bellHeld b = true) ∧
      (s.pending = [] → SMap.get none s.bells b ≠ some s.cycle → s.bellHeld b = false)) ∧
    ∀ (w : Fin 8) (bits : Word), Serves s who (R.DBL_STAT_BITS w).addr → Completes (exec (.dblStatClear who w bits) s) fun t => t = { s with regs := t.regs } ∧
      SameRegsBut s t [(R.DBL_STAT_BITS w).addr] ∧ ∀ b, b < 256 → t.doorbell b = (s.doorbell b && !(b / 32 == w.val && bits.toNat.testBit (b % 32) && !s.bellHeld b &&
        (match who with | .host n => decide (128 ≤ b) && (n == 0 || n == b % 128 / 8) | .control _ => decide (b < 128) | _ => false)))

/-- R479 to R483, R508 and R509; what a reset leaves of MSI-X and of VF Enable is the model's choice (log entry 71). -/
def Obligations.FunctionsAreResetAndUnmasked : Prop :=
  (∀ (s : State) (fn : Fin 16), ((s.fn fn).exists_ = false → Completes (exec (.functionLevelReset fn) s) fun t => t = s) ∧
    ((s.fn fn).exists_ = true → fn.val ≠ 0 → Completes (exec (.functionLevelReset fn) s) fun t => (t.fn fn).flrSince = some s.cycle ∧ (t.fn fn).exists_ = true ∧ (t.fn fn).masked = [] ∧
      t.isSet ⟨R.HIF_STATUS_FLR_BUSY.addr, 10 + fn.val, 1⟩ = true ∧ (∀ a, 0x80000 + fn.val * 0x8000 ≤ a → a < 0x88000 + fn.val * 0x8000 → t.reg a = resetWord a) ∧
      (∀ p, t.holder p ≠ some (.host fn)) ∧ (∀ b, b < 8 → t.doorbell (8 * fn.val + b) = false ∧ t.doorbell (128 + 8 * fn.val + b) = false) ∧
      (∀ c, c < 64 → (t.mbxClaimed c = false ∨ t.get (R.MBX_CHc_STAT_CLAIMER c) ≠ fn) ∧ (s.get (R.MBX_CHc_CFG_RECV c) = fn → t.mbxFull c = false)) ∧
      (∀ j, j < 32 → t.isSet (R.BPM_Qq_CFG_ENABLE (hostQueue fn j)) = false) ∧ t.mem = s.mem ∧ t.cpx = s.cpx ∧ t.objNum = s.objNum ∧ t.rly = s.rly ∧ t.hts = s.hts)) ∧
  (∀ (s : State), ((s.fn 0).exists_ = true → Completes (exec (.functionLevelReset 0) s) fun t => ∀ n, n < 16 → (s.fn n).exists_ = true → (t.fn n).flrSince = some s.cycle ∧
      t.isSet ⟨R.HIF_STATUS_FLR_BUSY.addr, 10 + n, 1⟩ = true) ∧
    (∀ v w, Completes (exec (.hotReset v w) s) fun t => t.get R.HIF_STATUS_SPEED = v.val % 16 ∧ t.get R.HIF_STATUS_WIDTH = w ∧
      ∀ n, n < 16 → (s.fn n).exists_ = true → (t.fn n).flrSince = some s.cycle ∧ t.isSet ⟨R.HIF_STATUS_FLR_BUSY.addr, 10 + n, 1⟩ = true) ∧
    (∀ again : Fin 16, Completes (exec (.vfEnableClear again) s) fun t => (t.fn 0).exists_ = (s.fn 0).exists_ ∧ (t.fn 0).flrSince = (s.fn 0).flrSince ∧
      (∀ n, 1 ≤ n → n < 16 → (t.fn n).exists_ = decide (n ≤ again.val) ∧ ((s.fn n).exists_ = true → (t.fn n).flrSince = some s.cycle)))) ∧
  (∀ (s : State) (fn : Fin 16) (f : HostFunction), f = s.fn fn →
    (f.flrSince = none → Completes (exec (.flrComplete fn) s) fun t => t = s) ∧
    (∀ c, f.flrSince = some c → Completes (exec (.flrComplete fn) s) fun t => t.fn fn = { f with flrSince := none } ∧ t.isSet ⟨R.HIF_STATUS_FLR_BUSY.addr, 10 + fn.val, 1⟩ = false ∧
      (∀ m, m ≠ fn.val → t.fn m = s.fn m) ∧ SameRegsBut s t [R.HIF_STATUS_FLR_BUSY.addr] ∧ t = { s with regs := t.regs, fns := t.fns }) ∧
    (∀ v : Fin 128, Serves s (.host fn) (vectorControl fn v) →
      (f.exists_ = false → Completes (exec (.msixUnmask fn (some v)) s) fun t => t = s) ∧
      (f.exists_ = true → SMap.get false f.pendingV v = true → f.msixEn = true → Completes (exec (.msixUnmask fn (some v)) s) fun t => t.out = .msix fn v :: s.out ∧
        SMap.get true (t.fn fn).masked v = false ∧ SMap.get false (t.fn fn).pendingV v = false ∧ t = { s with fns := t.fns, out := t.out }) ∧
      (f.exists_ = true → SMap.get false f.pendingV v = false ∨ f.msixEn = false → Completes (exec (.msixUnmask fn (some v)) s) fun t =>
        t.fn fn = { f with masked := SMap.set true f.masked v false } ∧ (∀ m, m ≠ fn.val → t.fn m = s.fn m) ∧ t = { s with fns := t.fns })) ∧
    (f.exists_ = false → Completes (exec (.msixUnmask fn none) s) fun t => t = s) ∧
    (f.exists_ = true → Completes (exec (.msixUnmask fn none) s) fun t => (t.fn fn).msixEn = true ∧ (t.fn fn).masked = f.masked ∧
      (∀ v, v < 128 → (.msix fn v ∈ t.out ↔ .msix fn v ∈ s.out ∨ (SMap.get false f.pendingV v = true ∧ SMap.get true f.masked v = false))) ∧
      (∀ v, v < 128 → SMap.get true f.masked v = false → SMap.get false (t.fn fn).pendingV v = false) ∧ t = { s with fns := t.fns, out := t.out })) ∧
  (∀ (s : State) (fn : Fin 16) (a : Nat), (Completes (exec (.badAccess fn a true) s) fun t => t.out = .readAbort (.host fn) a :: s.out ∧
      t.get R.HIF_BAD_ACCESS_COUNT = min (2 ^ 32 - 1) (s.get R.HIF_BAD_ACCESS_COUNT + 1) ∧ t.mem = s.mem) ∧
    Completes (exec (.badAccess fn a false) s) fun t => t.out = s.out ∧ t.get R.HIF_BAD_ACCESS_COUNT = min (2 ^ 32 - 1) (s.get R.HIF_BAD_ACCESS_COUNT + 1) ∧ t.mem = s.mem)

/-- R522 to R537: the commands of the Gulter protocol; the details that the manual leaves open are the model's choices (log entries 86 to 92). -/
def Obligations.SessionsServeRequestsInOrder : Prop :=
  (∀ (s : State) (h : GulHead) (fn : Fin 16) (body : List Byte), h.path = .mailbox fn →
    (s.gulServes = false ∨ 16 ≤ (s.replyQueue fn).length → Completes (exec (.gulterOpen h body) s) fun t => t = s) ∧
    (s.gulServes = true → (s.replyQueue fn).length < 16 → h.ver = 0 → h.flags = 0 → h.session = 0 → h.seq = 0 → body = [] → s.gul.sessions = [] →
      Completes (exec (.gulterOpen h body) s) fun t => ∃ (n : Nat) (g : GulSession), 1 ≤ n ∧ n ≤ 65535 ∧ t.session n = some g ∧ g.isOpen = true ∧ g.path = .mailbox fn ∧
        g.role = (if fn.val = 0 then 2 else 3) ∧ g.last = 0 ∧ ⟨2, 0, 0, St.ok, natToOs 1 g.role⟩ ∈ g.replies ∧ (∀ m, m ≠ n → t.session m = none))) ∧
  (∀ (s : State) (h : GulHead) (body : List Byte), h.path = .management → s.gulServes = true → s.mgmtUp = true → h.lengthOk = true → h.ver = 0 → h.flags = 0 →
      h.session = 0 → h.seq = 0 → body.length = 97 → s.gul.sessions = [] →
    (s.anyClient = false ∨ s.cpx.rng ≠ .ready → Completes (exec (.gulterOpen h body) s) fun t => t.gul.sessions = [] ∧
      t.out = .gulter 0 20 0 ((gulOctets 0 ⟨20, 0, 0, St.gulDenied, [1]⟩).map BitVec.toNat) :: s.out) ∧
    (s.anyClient = true → s.cpx.rng = .ready → Completes (exec (.gulterOpen h body) s) fun t => ∃ (n : Nat) (g : GulSession), t.session n = some g ∧ g.isOpen = false ∧
      g.path = .management ∧ g.hello = body ∧ g.heard = s.cycle ∧ ⟨2, 0, 0, St.ok, g.answer⟩ ∈ g.replies ∧ ∀ m, m ≠ n → t.session m = none)) ∧
  (∀ (s u : State) (h : GulHead) (n : Nat) (g : GulSession) (body : List Byte), s.arrive h 3 = .session u n g → headOk h = true → u.session n = some g → g.isOpen = false →
      h.seq = 1 → body.length = 129 → (∀ m ∈ g.replies, m.seq ≠ 1) →
    (∀ k keys, u.clientOf g body = some k → g.derive = some keys → Completes (exec (.auth h body) s) fun t => ∃ x, t.session n = some x ∧ x.isOpen = true ∧
      x.role = u.obj 0x220002 k 0 ∧ x.key = some k ∧ x.keys = some keys ∧ x.last = 1 ∧ x.secret = 0 ∧ ⟨4, 1, 0, St.ok, natToOs 1 x.role⟩ ∈ x.replies) ∧
    (u.clientOf g body = none ∨ g.derive = none → Completes (exec (.auth h body) s) fun t => t.session n = none ∧
      t.obj 0x220007 0 0 = (u.obj 0x220007 0 0 + 1) % 2 ^ 32)) ∧
  (∀ (s : State) (b : BitVec 16) (n : Nat), n = b.toNat →
    (s.session n = none → ∀ c ∈ [Instr.authTimeout b, .sessionIdleTimeout b, .blockTimeout b, .notifyResend b, .seqGapTimeout b], Completes (exec c s) fun t => t = s) ∧
    ∀ g, s.session n = some g →
      (g.isOpen = true ∨ s.cycle < g.heard + 7500000000 → Completes (exec (.authTimeout b) s) fun t => t = s) ∧
      (g.isOpen = false → g.heard + 7500000000 ≤ s.cycle → Completes (exec (.authTimeout b) s) fun t => t.session n = none ∧ ∀ m, m ≠ n → t.session m = s.session m) ∧
      (g.isOpen = false ∨ s.cycle < g.heard + s.obj 0x220003 0 60 * 1500000000 → Completes (exec (.sessionIdleTimeout b) s) fun t => t = s) ∧
      (g.isOpen = true → g.heard + s.obj 0x220003 0 60 * 1500000000 ≤ s.cycle → Completes (exec (.sessionIdleTimeout b) s) fun t => t.session n = none ∧
        (∀ m, m ≠ n → t.session m = s.session m) ∧ t.gul.subs = s.gul.subs.filter (fun x => x.session != n) ∧ t.out = s.out) ∧
      (g.block = none → Completes (exec (.blockTimeout b) s) fun t => t = s) ∧
      (∀ k, g.block = some k → (s.cycle < k.lastAt + 7500000000 → Completes (exec (.blockTimeout b) s) fun t => t = s) ∧
        (k.lastAt + 7500000000 ≤ s.cycle → Completes (exec (.blockTimeout b) s) fun t => t.session n = some { g with block := none } ∧ t = { s with gul := t.gul })) ∧
      (s.gulServes = false → Completes (exec (.notifyResend b) s) fun t => t = s) ∧
      (∀ w, s.gulServes = true → g.notes = [w] →
        (s.cycle < w.lastAt + 375000000 → Completes (exec (.notifyResend b) s) fun t => t = s) ∧
        (w.lastAt + 375000000 ≤ s.cycle → 8 ≤ w.sends → Completes (exec (.notifyResend b) s) fun t => t.session n = none ∧ ∀ m, m ≠ n → t.session m = s.session m) ∧
        (w.lastAt + 375000000 ≤ s.cycle → w.sends < 8 → Completes (exec (.notifyResend b) s) fun t => ∃ x, t.session n = some x ∧
          x.notes = [{ w with sends := w.sends + 1, lastAt := s.cycle, newer := false }] ∧ ∀ m, m ≠ n → t.session m = s.session m)) ∧
      (g.held = [] → Completes (exec (.seqGapTimeout b) s) fun t => t = s) ∧
      (∀ c, g.held = [(g.last + 2, c, .keepalive)] → g.last + 2 < 2 ^ 32 →
        (s.cycle < c + 3000000000 → Completes (exec (.seqGapTimeout b) s) fun t => t = s) ∧
        (c + 3000000000 ≤ s.cycle → Completes (exec (.seqGapTimeout b) s) fun t => ∃ x, t.session n = some x ∧ x.last = g.last + 2 ∧ x.held = [] ∧
          ⟨20, g.last + 1, 0, St.gulProtocol, [0]⟩ ∈ x.replies ∧ ⟨19, g.last + 2, 0, St.ok, []⟩ ∈ x.replies))) ∧
  (∀ (s u w : State) (h : GulHead) (n q : Nat) (g k : GulSession), q = h.seq.toNat → k = { g with last := q } → w = u.setSession n (some k) →
    (Heard s u h 19 n g → Completes (exec (.keepalive h) s) fun t => Replied t n q ⟨19, q, 0, St.ok, []⟩ ∧ t.gul.subs = u.gul.subs ∧ t.objNum = u.objNum) ∧
    (Heard s u h 5 n g → Completes (exec (.close h) s) fun t => t.session n = none ∧ (∀ m, m ≠ n → t.session m = u.session m) ∧ ∀ b ∈ t.gul.subs, b.session ≠ n) ∧
    (Heard s u h 6 n g →
      (∀ a e, e = w.readEntry n k a → (readOctets e).length ≤ g.room - 1 → Completes (exec (.read h [a]) s) fun t => Replied t n q ⟨7, q, 0, St.ok, [1] ++ readOctets e⟩ ∧
        t.objNum = u.objNum ∧ t.mem = u.mem) ∧
      (∀ a c, w.objCheck k a false = .error c → w.readEntry n k a = (c, false, [])) ∧
      (∀ as, as = [] ∨ 16 < as.length → u.session n = some g → Completes (exec (.read h as) s) fun t => t = u.gulSend n ⟨20, q, 0, St.gulProtocol, [6]⟩)) ∧
    (Heard s u h 8 n g → u.gul.waits = [] →
      (∀ a v c, w.objCheck k a true = .error c → Completes (exec (.gulterWrite h [⟨a, v⟩]) s) fun t => Replied t n q (writeReply q [c]) ∧ t.objNum = u.objNum ∧ t.objOct = u.objOct) ∧
      (∀ v : Nat, g.role = 2 → u.bootStage = 0x60 → 10 ≤ v → v ≤ 3600 → Completes (exec (.gulterWrite h [⟨⟨0x2200, 3, 0⟩, natToOs 2 v⟩]) s) fun t =>
        Replied t n q (writeReply q [St.ok]) ∧ t.obj 0x220003 0 60 = v ∧ t.objOct = u.objOct) ∧
      (∀ v : Nat, g.role = 2 → u.bootStage = 0x60 → v < 10 ∨ 3600 < v → v < 65536 → Completes (exec (.gulterWrite h [⟨⟨0x2200, 3, 0⟩, natToOs 2 v⟩]) s) fun t =>
        Replied t n q (writeReply q [St.objRange]) ∧ t.objNum = u.objNum) ∧
      (g.role = 2 → u.bootStage = 0x60 → Completes (exec (.sessionCloseAll h) s) fun t => Replied t n q (writeReply q [St.ok]) ∧ ∀ m, m ≠ n → t.session m = none)) ∧
    (Heard s u h 10 n g → ∀ a total, (g.block ≠ none → Completes (exec (.blockBegin h a 0 total) s) fun t => Replied t n q ⟨13, q, 0, St.gulDenied, [0, 0, 0, 0]⟩) ∧
      (∀ r, g.block = none → w.objCheck k a true = .ok r → r.ty.size = none → Completes (exec (.blockBegin h a 0 total) s) fun t =>
        Replied t n q ⟨13, q, 0, St.ok, natToOs 4 total.toNat⟩ ∧ ∃ x, t.session n = some x ∧ x.block = some ⟨r.num, a.inst.toNat, false, total.toNat, [], u.cycle⟩)) ∧
    (Heard s u h 11 n g →
      (∀ x, g.block = none → Completes (exec (.blockSeg h x) s) fun t => ∃ at_ : Word, Replied t n q ⟨13, q, 0, St.gulProtocol, natToOs 4 at_.toNat⟩) ∧
      (∀ b (o : Word) bs, g.block = some b → b.read = false → g.path = .management → 1 ≤ bs.length → bs.length ≤ 1024 → Completes (exec (.blockSeg h (.data o bs)) s) fun t =>
        Replied t n q ⟨13, q, 0, St.ok, natToOs 4 o.toNat⟩ ∧ ∃ x, t.session n = some x ∧ x.block = some { b with octets := putOctetsAt o.toNat bs b.octets, lastAt := u.cycle }) ∧
      (∀ b (o : Word) (len : BitVec 16) l, g.block = some b → b.read = true → g.path = .management → 1 ≤ len.toNat → len.toNat ≤ 1024 → o.toNat ≤ b.total →
        l = min len.toNat (b.total - o.toNat) → Completes (exec (.blockSeg h (.ask o len)) s) fun t =>
          Replied t n q ⟨13, q, if o.toNat + l = b.total then 4 else 0, St.ok, natToOs 4 o.toNat ++ b.take o.toNat l⟩)) ∧
    (Heard s u h 12 n g →
      (∀ c, g.block = none → Completes (exec (.blockEnd h c) s) fun t => Replied t n q ⟨13, q, 0, St.gulProtocol, []⟩) ∧
      (∀ c b, g.block = some b → b.read = true → g.path = .management → Completes (exec (.blockEnd h c) s) fun t => Replied t n q ⟨13, q, 0, St.ok, []⟩ ∧
        ∃ x, t.session n = some x ∧ x.block = none) ∧
      (∀ c b, g.block = some b → b.read = false → b.whole = false ∨ crc32cFull (b.take 0 b.total) ≠ c.toNat → Completes (exec (.blockEnd h c) s) fun t =>
        Replied t n q ⟨13, q, 0, St.gulProtocol, []⟩ ∧ (∃ x, t.session n = some x ∧ x.block = none) ∧ t.objOct = u.objOct ∧ t.objNum = u.objNum ∧ t.mem = u.mem) ∧
      (∀ c b v, g.block = some b → b.read = false → b.whole = true → b.take 0 b.total = v → crc32cFull v = c.toNat → b.obj = 0x400005 → v.length ≤ 64 →
        utf8Ok v.length v = true → u.bootStage = 0x60 → g.role = 2 → Completes (exec (.blockEnd h c) s) fun t => Replied t n q ⟨13, q, 0, St.ok, []⟩ ∧
          t.octets 0x400005 b.inst = v ∧ ∃ x, t.session n = some x ∧ x.block = none)) ∧
    (Heard s u h 14 n g → ∀ a ms, a.inst ≠ 0xFFFF →
      (∀ r, w.objCheck k a false = .ok r → w.objServed r = true → (u.gul.subs.filter fun b => b.session == n).length < 64 → u.gul.subs.length < 512 →
        (Completes (exec (.subscribe h a 0 ms) s) fun t => ∃ id, 1 ≤ id ∧ id ≤ 65535 ∧ Replied t n q ⟨15, q, 0, St.ok, natToOs 2 id⟩ ∧ t.gul.subs = u.gul.subs ++
          [⟨id, n, a.index.toNat * 256 + a.sub.toNat, a.inst.toNat, false, ms.toNat, u.cycle + 15000000, []⟩]) ∧
        (10 ≤ ms.toNat → ms.toNat ≤ 60000 → Completes (exec (.subscribe h a 1 ms) s) fun t => ∃ id, Replied t n q ⟨15, q, 0, St.ok, natToOs 2 id⟩ ∧ t.gul.subs = u.gul.subs ++
          [⟨id, n, a.index.toNat * 256 + a.sub.toNat, a.inst.toNat, true, ms.toNat, u.cycle + ms.toNat * 1500000, []⟩])) ∧
      (∀ r, w.objCheck k a false = .ok r → w.objServed r = true → 64 ≤ (u.gul.subs.filter fun b => b.session == n).length ∨ 512 ≤ u.gul.subs.length →
        Completes (exec (.subscribe h a 0 ms) s) fun t => Replied t n q ⟨15, q, 0, St.gulDenied, [0, 0]⟩ ∧ t.gul.subs = u.gul.subs) ∧
      (∀ c, w.objCheck k a false = .error c → Completes (exec (.subscribe h a 0 ms) s) fun t => Replied t n q ⟨15, q, 0, c, [0, 0]⟩ ∧ t.gul.subs = u.gul.subs)) ∧
    (Heard s u h 16 n g → ∀ id : BitVec 16,
      ((∃ b ∈ u.gul.subs, b.id = id.toNat ∧ b.session = n) → Completes (exec (.unsubscribe h id) s) fun t => Replied t n q ⟨15, q, 0, St.ok, natToOs 2 id.toNat⟩ ∧
        t.gul.subs = u.gul.subs.filter fun b => b.id != id.toNat) ∧
      ((∀ b ∈ u.gul.subs, ¬ (b.id = id.toNat ∧ b.session = n)) → Completes (exec (.unsubscribe h id) s) fun t => Replied t n q ⟨15, q, 0, St.gulProtocol, natToOs 2 id.toNat⟩ ∧
        t.gul.subs = u.gul.subs))) ∧
  (∀ (s u : State) (h : GulHead) (n : Nat) (g : GulSession), headOk h = true → g.isOpen = true → u.session n = some g →
    (∀ m, s.arrive h 19 = .session u n g → m ∈ g.replies → h.seq.toNat = g.last → g.last < 2 ^ 32 → g.replies.find? (fun x => x.seq == h.seq.toNat) = some m →
      Completes (exec (.keepalive h) s) fun t => t = u.gulSend n m) ∧
    (s.arrive h 19 = .session u n g → g.last + 17 ≤ h.seq.toNat → h.seq.toNat < g.last + 2 ^ 31 → Completes (exec (.keepalive h) s) fun t =>
      t = u.gulSend n ⟨20, h.seq.toNat, 0, St.gulProtocol, [19]⟩) ∧
    (s.arrive h 18 = .session u n g → ∀ q : Word,
      (g.path ≠ .management ∨ (∀ x ∈ g.notes, x.msg.seq ≠ q.toNat) → Completes (exec (.notifyAck h q) s) fun t => t = u) ∧
      (∀ x, g.path = .management → g.notes = [x] → x.msg.seq = q.toNat → x.newer = false → Completes (exec (.notifyAck h q) s) fun t => t.session n = some { g with notes := [] } ∧
        (∀ m, m ≠ n → t.session m = u.session m) ∧ t = { u with gul := t.gul }))) ∧
  (∀ (s : State) (id : BitVec 16), (s.gul.subs.find? (fun b => b.id == id.toNat) = none → Completes (exec (.subscriptionSample id) s) fun t => t = s) ∧
    ∀ b, s.gul.subs = [b] → b.id = id.toNat → (s.gulServes = false ∨ s.cycle < b.nextAt → Completes (exec (.subscriptionSample id) s) fun t => t = s) ∧
      ∀ g r v, s.gulServes = true → b.nextAt ≤ s.cycle → s.session b.session = some g → objRow b.obj = some r → g.role = 2 → b.inst ≠ 0xFFFF → s.instanceExists r b.inst = true →
        b.periodic = false → v = (s.setWatch { b with nextAt := b.nextAt + 15000000 }).readObj b.session r b.inst →
        (SMap.get none b.sent b.inst = some v → Completes (exec (.subscriptionSample id) s) fun t => t = { s with gul := { s.gul with subs := [{ b with nextAt := b.nextAt + 15000000 }] } }) ∧
        (SMap.get none b.sent b.inst ≠ some v → Completes (exec (.subscriptionSample id) s) fun t => t.gul.subs =
            [{ b with nextAt := b.nextAt + 15000000, sent := SMap.set none b.sent b.inst (some v) }] ∧
          (g.path = .management → g.notes = [] → ∃ x y, t.session b.session = some x ∧ x.notes = [y] ∧ y.sub = b.id ∧ y.inst = b.inst ∧ y.sends = 1 ∧ y.msg.ty = 17 ∧
            y.msg.seq = g.noteSeq % 2 ^ 32 ∧ x.noteSeq = g.noteSeq + 1))) ∧
  ∀ (s v : State) (fn j : Fin 16) (w : QWord), s.peekWord (hostQueue fn j) = some w → (s.readWord (hostQueue fn j)).1 = v →
    (descField w.data 2 1 ≠ 2 → Completes (exec (.gulterBlock fn j) s) fun t => t = s) ∧
    (descField w.data 2 1 = 2 → Completes (exec (.gulterBlock fn j) s) fun t => ∃ x y : State, t = (x.passNops fn j ((x.queue (hostQueue fn j)).packets.length + 1)).goOn fn j ∧
      (v.session (descField w.data 0xC 4 % 65536) = none → x = (v.hostRelease (descCell w.data)).sqDone fn j w.data St.gulProtocol) ∧
      (∀ g b, v.session (descField w.data 0xC 4 % 65536) = some g → g.block = some b → g.path = .mailbox fn → b.read = false → v.descData w.data ≠ [] →
        x = y.sqDone fn j w.data St.ok ∧ y.session (descField w.data 0xC 4 % 65536) =
          some { g with block := some { b with octets := putOctetsAt (descField w.data 0xC 4 / 65536) (v.descData w.data) b.octets, lastAt := v.cycle } }))

/-- R546 to R549, R574 and R606; a burn that a reset cuts off, and the levels of pins that a reset keeps, are the model's choices (log entries 75 and 76). -/
def Obligations.SupplyAndResetsStartTheDeviceAnew : Prop :=
  (∀ (s : State), s.boot.burns = [] →
    (s.boot.supply = .off → Completes (exec .powerOn s) fun t => ColdStart s t .ramp) ∧ Completes (exec .powerOff s) (fun t => ColdStart s t .off) ∧
    (s.boot.supply = .run → Completes (exec .railFault s) fun t => ColdStart s t .fault) ∧
    (s.boot.supply = .ramp → 15000000 ≤ s.cycle → Completes (exec .rampTimeout s) fun t => ColdStart s t .fault)) ∧
  (∀ (s : State), (s.boot.supply ≠ .off → Completes (exec .powerOn s) fun t => t = s) ∧ (s.boot.supply ≠ .run → Completes (exec .railFault s) fun t => t = s) ∧
    (s.boot.supply ≠ .ramp ∨ s.cycle < 15000000 → Completes (exec .rampTimeout s) fun t => t = s) ∧
    (s.boot.supply = .ramp → Completes (exec .railsInRegulation s) fun t => t = { s with regs := t.regs, boot := { s.boot with supply := .run, perst := s.isSet R.FUS_PAD_IN_PERST_N } } ∧ t.bootStage = 0x10 ∧
      SameRegsBut s t [R.HIF_BOOT_STAGE_STAGE.addr]) ∧
    (s.boot.supply ≠ .ramp → Completes (exec .railsInRegulation s) fun t => t = s) ∧
    (s.boot.supply = .run → Completes (exec .vinLow s) fun t => SetsOnly s t R.UPD_VIN_VIN_LOW 1) ∧ (s.boot.supply ≠ .run → Completes (exec .vinLow s) fun t => t = s)) ∧
  (∀ (s : State),
    (s.boot.supply = .off ∨ s.boot.supply = .fault → Completes (exec .perstNFall s) (fun t => t = s) ∧ Completes (exec .perstNRise s) fun t => t = s) ∧
    (s.boot.supply = .ramp → Completes (exec .perstNFall s) (fun t => SetsOnly s t R.FUS_PAD_IN_PERST_N 0) ∧
      Completes (exec .perstNRise s) fun t => SetsOnly s t R.FUS_PAD_IN_PERST_N 1) ∧
    (s.boot.supply = .run →
      (s.boot.perst = false → Completes (exec .perstNFall s) fun t => SetsOnly s t R.FUS_PAD_IN_PERST_N 0) ∧
      (s.boot.perst = true → s.boot.burns = [] → Completes (exec .perstNFall s) fun t => ∃ u, SetsOnly s u R.FUS_PAD_IN_PERST_N 0 ∧
        WarmStart u t R.FUS_RESET_CAUSE_PERST 0 ∧ t.boot.held = true ∧ t.boot.perst = false) ∧
      (s.boot.held = false ∨ s.coolEnough = false → Completes (exec .perstNRise s) fun t => ∃ u, SetsOnly s u R.FUS_PAD_IN_PERST_N 1 ∧
        t = { u with boot := { s.boot with perst := true } }) ∧
      (s.boot.held = true → s.coolEnough = true → Completes (exec .perstNRise s) fun t => t.bootStage = 0x10 ∧ t.get R.FUS_PAD_IN_PERST_N = 1 ∧
        t = { s with regs := t.regs, boot := { s.boot with perst := true, held := false } } ∧ SameRegsBut s t [R.FUS_PAD_IN_PERST_N.addr, R.HIF_BOOT_STAGE_STAGE.addr]))) ∧
  (∀ (s : State) (who : Sender) (v : BitVec 16), Serves s who R.FUS_CTRL_RESET.addr →
    (who ≠ .host 0 ∨ v ≠ 0x7B07 ∨ s.boot.supply ≠ .run ∨ s.bootStage = 0xFF ∨ s.bootStage = 0 → Completes (exec (.reset who v) s) fun t => t = s) ∧
    (who = .host 0 → v = 0x7B07 → s.boot.supply = .run → s.bootStage ≠ 0xFF → s.bootStage ≠ 0 →
      (s.coolEnough = true → s.boot.burns = [] → Completes (exec (.reset who v) s) fun t => WarmStart s t R.FUS_RESET_CAUSE_HOST_REQ 0x10) ∧
      (s.coolEnough = false → Completes (exec (.reset who v) s) fun t => ResetRefused s t R.FUS_RESET_CAUSE_HOST_REQ))) ∧
  (∀ (s u : State) (h : GulHead) (n q : Nat) (g : GulSession), q = h.seq.toNat → Heard s u h 8 n g → g.role = 2 → u.bootStage = 0x60 → u.gul.waits = [] →
    (u.coolEnough = true → u.boot.burns = [] → Completes (exec (.deviceReset h) s) fun t => ∃ v, Replied v n q (writeReply q [St.ok]) ∧ WarmStart v t R.FUS_RESET_CAUSE_GULTER_REQ 0x10) ∧
    (u.coolEnough = false → Completes (exec (.deviceReset h) s) fun t => Replied t n q (writeReply q [St.objRange]) ∧ t.bootStage = 0x60 ∧ t.get R.FUS_STATUS_CFG_IGNORED = 1 ∧
      t.mem = u.mem)) ∧
  ∀ (s : State), (s.boot.wd = none → Completes (exec .fwWatchdog s) fun t => t = s) ∧
    (∀ c, s.boot.wd = some c →
      (s.cycle < c + 1500000000 → Completes (exec .fwWatchdog s) fun t => t = s) ∧
      (c + 1500000000 ≤ s.cycle → s.coolEnough = true → s.boot.burns = [] → Completes (exec .fwWatchdog s) fun t => WarmStart s t R.FUS_RESET_CAUSE_FW_WATCHDOG 0x10) ∧
      (c + 1500000000 ≤ s.cycle → s.coolEnough = false → Completes (exec .fwWatchdog s) fun t => ResetRefused s t R.FUS_RESET_CAUSE_FW_WATCHDOG)) ∧
    ∀ who, Serves s who R.FUS_FW_WD_KICK.addr →
      ((∃ c, who = .control c) → s.boot.wd ≠ none → s.startLost = false → Completes (exec (.kick who) s) fun t => t = { s with boot := { s.boot with wd := some s.cycle } }) ∧
      ((∀ c, who ≠ .control c) ∨ s.boot.wd = none ∨ s.startLost = true → Completes (exec (.kick who) s) fun t => t = s)

/-- R550, R555 to R559, R573, R579 and R584; the flash and the vendor's root are free, and the boot record's copy is the model's choice (log entries 73 and 74). -/
def Obligations.StartUpRunsThroughItsStages : Prop :=
  (∀ (s : State), s.boot.held = false →
    (s.bootStage ≠ 0x10 ∨ s.boot.supply ≠ .run → ∀ r, Completes (exec (.fuseSense r) s) fun t => t = s) ∧
    (s.bootStage = 0x10 → s.boot.supply = .run →
      (∀ r, Completes (exec (.fuseSense (some r)) s) fun t => ∃ u, u = s.log Unit.fus 0 Sev.fatal Ev.fuseUnreadable r 0 ∧ SetsOnly u t R.HIF_BOOT_STAGE_STAGE 0xFF) ∧
      (∀ r f : Nat, r = s.bootRecord.1.pref → f = r % 2 → s.isSet (bankBad 0) = false → s.isSet (bankBad 1) = false →
        (s.bootRecord.1.trial ≠ 1 → Completes (exec (.fuseSense none) s) fun t => t.bootStage = 0x11 ∧ t.boot = { s.boot with order := [f, 1 - f] } ∧
          t.get R.FUS_BOOT_FALLBACK = s.bootRecord.1.fallback % 2 ∧ t = { s with regs := t.regs, boot := t.boot } ∧
          SameRegsBut s t [R.HIF_BOOT_STAGE_STAGE.addr, R.FUS_BOOT_TRIAL.addr]) ∧
        (s.bootRecord.1.trial = 1 → s.bootRecord.1.tries ≠ 0 → Completes (exec (.fuseSense none) s) fun t => t.bootStage = 0x11 ∧ t.boot.order = [f, 1 - f] ∧
          t.boot.flash = (s.setFlash (recordAt s.bootRecord.2) { s.bootRecord.1 with seq := (s.bootRecord.1.seq + 1) % 2 ^ 32, tries := s.bootRecord.1.tries - 1 }.octets).boot.flash ∧
          t = { s with regs := t.regs, boot := t.boot }) ∧
        (s.bootRecord.1.trial = 1 → s.bootRecord.1.tries = 0 → Completes (exec (.fuseSense none) s) fun t => t.bootStage = 0x11 ∧ t.boot.order = [1 - f, f] ∧
          t.boot.flash = (s.setFlash (recordAt s.bootRecord.2) (⟨(s.bootRecord.1.seq + 1) % 2 ^ 32, 1 - f, 0, 0, 1⟩ : BootRecord).octets).boot.flash ∧
          t = { s with regs := t.regs, boot := t.boot })) ∧
      (∀ b, b < 2 → s.bootRecord.1.trial ≠ 1 → s.isSet (bankBad b) = true → s.isSet (bankBad (1 - b)) = false →
        Completes (exec (.fuseSense none) s) fun t => t.bootStage = 0x11 ∧ t.boot.order = [1 - b]) ∧
      (s.bootRecord.1.trial ≠ 1 → s.isSet (bankBad 0) = true → s.isSet (bankBad 1) = true →
        Completes (exec (.fuseSense none) s) fun t => t.bootStage = 0xE0 ∧ t.boot.order = []))) ∧
  (∀ (s : State), (s.bootStage ≠ 0x11 → ∀ link, Completes (exec (.bankVerify link) s) fun t => t = s) ∧
    (s.bootStage = 0x11 → s.boot.order = [] → ∀ link, Completes (exec (.bankVerify link) s) fun t => t.bootStage = 0xE0) ∧
    ∀ b rest, s.bootStage = 0x11 → s.boot.order = b :: rest →
      (s.isFenced Unit.link 0 = false → b < 2 → s.bankCheck b s.ownerHash = 0 → Completes (exec (.bankVerify .pass) s) fun t => t.bootStage = 0x20 ∧ t.get R.FUS_BOOT_BANK = b ∧
        t.get R.FUS_BOOT_SVN = hdrField (s.bankByte b) 0xC 1 ∧ t.get R.FUS_FW_VERSION_VERSION = hdrField (s.bankByte b) 8 4 ∧
        t.boot = { s.boot with header := octetsOf (s.bankByte b) 0 512, window := false, wd := some s.cycle, started := s.cycle, order := [] } ∧ t = { s with regs := t.regs, boot := t.boot } ∧
        SameRegsBut s t [R.HIF_BOOT_STAGE_STAGE.addr, R.FUS_BOOT_BANK.addr, R.FUS_FW_VERSION_VERSION.addr]) ∧
      (s.isFenced Unit.link 0 = false → s.bankCheck b s.ownerHash ≠ 0 → Completes (exec (.bankVerify .pass) s) fun t =>
        ∃ u, u = ({ s with boot := { s.boot with order := rest } }).log Unit.fus b Sev.warn Ev.bankRefused b (s.bankCheck b s.ownerHash) ∧
        (rest ≠ [] → t = u) ∧ (rest = [] → SetsOnly u t R.HIF_BOOT_STAGE_STAGE 0xE0)) ∧
      (s.isFenced Unit.link 0 = false → Completes (exec (.bankVerify .retried) s) fun t => exec (.bankVerify .pass) (s.retriedOpen Unit.link 0 4) = .next t) ∧
      (s.isFenced Unit.link 0 = true → ∀ link, Completes (exec (.bankVerify link) s) fun t => t.bootStage = (if rest = [] then 0xE0 else 0x11) ∧
        t.boot = { s.boot with order := rest }) ∧
      (s.isFenced Unit.link 0 = false → Completes (exec (.bankVerify .failed) s) fun t => t.isFenced Unit.link 0 = true ∧
        t.bootStage = (if rest = [] then 0xE0 else 0x11) ∧ t.boot = { s.boot with order := rest })) ∧
  (∀ (s : State) (b : Nat), b = s.get R.FUS_BOOT_BANK → (s.bootStage ≠ 0x20 → Completes (exec .stage1Check s) fun t => t = s) ∧
    (s.bootStage = 0x20 →
      (s.boot.window = true ∨ bodyOk (s.bankByte b) = true → Completes (exec .stage1Check s) fun t => t.bootStage = 0x40 ∧ t.get R.FUS_PAD_PWR_MGMT_EN = bnat s.pads.sfp ∧
        t.boot = s.boot ∧ t.mem = s.mem) ∧
      (s.boot.window = false → bodyOk (s.bankByte b) = false → s.boot.burns = [] → s.coolEnough = true → Completes (exec .stage1Check s) fun t => ∃ u, SetsOnly s u (bankBad b) 1 ∧
        WarmStart u t R.FUS_RESET_CAUSE_STAGE1_FAIL 0x10) ∧
      (s.boot.window = false → bodyOk (s.bankByte b) = false → s.coolEnough = false → Completes (exec .stage1Check s) fun t => ∃ u, SetsOnly s u (bankBad b) 1 ∧
        ResetRefused u t R.FUS_RESET_CAUSE_STAGE1_FAIL))) ∧
  (∀ (s : State), (s.bootStage ≠ 0x40 → Completes (exec .hbmReady s) fun t => t = s) ∧
    (s.bootStage = 0x40 →
      ((∃ c, c < 4 ∧ s.isFenced Unit.hbm c = true) → Completes (exec .hbmReady s) fun t => t.bootStage = 0x70 ∧ t.get R.HBM_MAP_STATUS_HBM_READY = s.get R.HBM_MAP_STATUS_HBM_READY ∧ t.boot = s.boot) ∧
      ((∀ c, c < 4 → s.isFenced Unit.hbm c = false) →
        ((∀ c : Nat, c < 4 → s.isSet (R.HBM_STATUS_READY c) = true) → Completes (exec .hbmReady s) fun t => t.bootStage = 0x50 ∧ t.get R.HBM_MAP_STATUS_HBM_READY = 1 ∧
          t.get R.BPM_STATUS_H_READY = 1 ∧ t.get R.RLY_STATUS_FCT_READY = 1 ∧ t = { s with regs := t.regs } ∧
          SameRegsBut s t [R.HIF_BOOT_STAGE_STAGE.addr, R.HBM_MAP_STATUS_HBM_READY.addr, R.BPM_STATUS_H_READY.addr, R.RLY_STATUS_FCT_READY.addr]) ∧
        ((∃ c : Nat, c < 4 ∧ s.isSet (R.HBM_STATUS_READY c) = false) → Completes (exec .hbmReady s) fun t => t = s)))) ∧
  (∀ (s : State), (s.bootStage ≠ 0x50 ∨ s.isSet R.CPX_STATUS_RNG_READY = false → ∀ l, Completes (exec (.bringupComplete l) s) fun t => t = s) ∧
    (s.bootStage = 0x50 → s.isSet R.CPX_STATUS_RNG_READY = true →
      Completes (exec (.bringupComplete []) s) (fun t => ∃ u, SetsOnly s.loadCards u R.HIF_BOOT_STAGE_STAGE 0x60 ∧ t = u.logStage Sev.note ∧ t.bootStage = 0x60) ∧
      ∀ (k : Fin 6) (i : Nat), i < selftestCount k → Completes (exec (.bringupComplete [(k, i)]) s) fun t => t.bootStage = 0x60 ∧ t.isFenced (selftestUnit k) i = true)) ∧
  ∀ (s : State) (who : Sender) (c : Nat), Serves s who R.FUS_RCV_CMD_OP.addr → c = imageCheck s.rcvByte s.ownerHash (s.get R.FUS_BOOT_FLOOR) →
    (s.bootStage ≠ 0xE0 → Completes (exec (.rcvLoad who) s) (fun t => t = s) ∧ Completes (exec (.rcvClear who) s) fun t => t = s) ∧
    (s.bootStage = 0xE0 →
      (c = 0 → Completes (exec (.rcvLoad who) s) fun t => t.bootStage = 0x20 ∧ t.get R.FUS_RCV_STAT_STATE = 3 ∧ t.get R.FUS_RCV_STAT_STEP = 0 ∧
        t.boot = { s.boot with header := octetsOf s.rcvByte 0 512, window := true, wd := some s.cycle, started := s.cycle, order := [] } ∧ t = { s with regs := t.regs, boot := t.boot }) ∧
      (c ≠ 0 → Completes (exec (.rcvLoad who) s) fun t => t.bootStage = 0xE0 ∧ t.get R.FUS_RCV_STAT_STATE = 2 ∧ t.get R.FUS_RCV_STAT_STEP = c ∧ t.boot = s.boot ∧ t.mem = s.mem) ∧
      Completes (exec (.rcvClear who) s) fun t => t.get R.FUS_RCV_STAT_STATE = 0 ∧ t.get R.FUS_RCV_STAT_STEP = 0 ∧ t.boot = { s.boot with rcv := [] } ∧
        t = { s with regs := t.regs, boot := t.boot } ∧ SameRegsBut s t [R.FUS_RCV_STAT_STATE.addr])

/-- R518, R520, R560 to R563, R565 and R566; the order of the checks, and the endorsement's nonce, are the model's choices (log entries 20 and 75). -/
def Obligations.OnceSettingsAreBurntOnce : Prop :=
  (∀ (s u : State) (h : GulHead) (n q : Nat) (g : GulSession), q = h.seq.toNat → Heard s u h 8 n g → g.role = 2 → u.bootStage = 0x60 → u.gul.waits = [] →
    (∀ v : List Byte, v.length ≠ 32 → ∀ c ∈ [Instr.deviceIdentity h v, .ownerKeyHash h v], Completes (exec c s) fun t => Replied t n q (writeReply q [St.objRange]) ∧ t.boot = u.boot) ∧
    (∀ b : BitVec 8, (64 < b.toNat → Completes (exec (.rollbackFloor h b) s) fun t => Replied t n q (writeReply q [St.objRange]) ∧ t.boot = u.boot) ∧
      (b ≠ 1 → ∀ c ∈ [Instr.trunkCipherLock h b, .debugDisable h b], Completes (exec c s) fun t => Replied t n q (writeReply q [St.objRange]) ∧ t.boot = u.boot)) ∧
    (∀ (x : List Byte) (f : BitVec 8) (c : Instr) (k : Nat) (v : List Byte), x.length = 32 → f.toNat ≤ 64 →
      (c, k, v) ∈ [(Instr.deviceIdentity h x, 1, x), (.ownerKeyHash h x, 3, x), (.rollbackFloor h f, 5, [f]), (.trunkCipherLock h 1, 6, [1]), (.debugDisable h 1, 7, [1])] →
      (u.get (onceLeft k) = 0 → Completes (exec c s) fun t => Replied t n q (writeReply q [St.objOnceSpent]) ∧ t.boot = u.boot) ∧
      (u.get (onceLeft k) ≠ 0 → h.flags.getLsbD 0 = false → Completes (exec c s) fun t => Replied t n q (writeReply q [St.objAccess]) ∧ t.boot = u.boot) ∧
      (u.get (onceLeft k) ≠ 0 → h.flags.getLsbD 0 = true → u.boot.burns = [] →
        (u.get R.UPD_VIN_MILLIVOLTS < 11400 ∨ u.coolEnough = false ∨ (k = 5 ∧ (f.toNat ≤ u.get R.FUS_BOOT_FLOOR ∨ u.get R.FUS_BOOT_SVN < f.toNat)) ∨
            (k = 3 ∧ u.isSet R.FUS_STATUS_OWNER_SET = false ∧ u.bankCheck 0 x ≠ 0 ∧ u.bankCheck 1 x ≠ 0) ∨
            (k = 3 ∧ u.isSet R.FUS_STATUS_OWNER_SET = true ∧ (u.boot.pending ≠ some x ∨ u.boot.stage ≠ 2 ∨ u.bankCheck (1 - u.get R.FUS_BOOT_BANK) x ≠ 0)) →
          Completes (exec c s) fun t => Replied t n q (writeReply q [St.objRange]) ∧ t.boot = u.boot) ∧
        (11400 ≤ u.get R.UPD_VIN_MILLIVOLTS → u.coolEnough = true → (k = 5 → u.get R.FUS_BOOT_FLOOR < f.toNat ∧ f.toNat ≤ u.get R.FUS_BOOT_SVN) →
          (k = 3 → (u.isSet R.FUS_STATUS_OWNER_SET = false ∧ (u.bankCheck 0 x = 0 ∨ u.bankCheck 1 x = 0)) ∨
            (u.isSet R.FUS_STATUS_OWNER_SET = true ∧ u.boot.pending = some x ∧ u.boot.stage = 2 ∧ u.bankCheck (1 - u.get R.FUS_BOOT_BANK) x = 0)) →
          Completes (exec c s) fun t => t.boot = { u.boot with burns := [⟨k, v, .gulter ⟨n, q, 0⟩⟩] } ∧ t.gul.waits = [⟨n, q, [none]⟩] ∧
            (∃ y, t.session n = some y ∧ y.last = q ∧ y.replies = g.replies) ∧ t.get (onceLeft k) = u.get (onceLeft k)))) ∧
    ∀ v new pub : List Byte, v.length = 161 → new = v.take 32 → pub = (v.drop 32).take 65 →
      (u.ownerHash ≠ [] → sha256 pub = u.ownerHash → sigOk pub (v.drop 97) (sha256 ([0x4F, 0x57, 0x4E] ++ u.identity ++ new)) = true →
        Completes (exec (.ownerTransferAuth h v) s) fun t => Replied t n q (writeReply q [St.ok]) ∧ t.boot = { u.boot with pending := some new }) ∧
      (u.ownerHash = [] ∨ sha256 pub ≠ u.ownerHash ∨ sigOk pub (v.drop 97) (sha256 ([0x4F, 0x57, 0x4E] ++ u.identity ++ new)) = false →
        Completes (exec (.ownerTransferAuth h v) s) fun t => Replied t n q (writeReply q [St.objRange]) ∧ t.boot = u.boot)) ∧
  (∀ (s : State), s.boot.burns = [] → ∀ m, Completes (exec (.fuseBurnDone m) s) fun t => t = s) ∧
  ∀ (s : State) (g : GulSession) (n q k : Nat) (v : List Byte), k ∈ [1, 3, 5, 6, 7] → s.gul.waits = [⟨n, q, [none]⟩] → s.session n = some g →
    (s.boot.burns = [⟨k, v, .gulter ⟨n, q, 0⟩⟩] →
      Completes (exec (.fuseBurnDone false) s) (fun t => t.get (onceLeft k) = s.get (onceLeft k) - 1 ∧ (∀ j ∈ [1, 3, 5, 6, 7], j ≠ k → t.get (onceLeft j) = s.get (onceLeft j)) ∧
        (∀ f ∈ fuseFields, f.addr ≠ R.FUS_ONCE_LEFT_IDENTITY.addr → t.get f = s.get f) ∧ t.boot = { s.boot with burns := [] } ∧ t.gul.waits = [] ∧
        ∃ y, t.session n = some y ∧ writeReply q [St.objRange] ∈ y.replies) ∧
      Completes (exec (.fuseBurnDone true) s) fun t => t.boot.burns = [] ∧ t.gul.waits = [] ∧ (∃ y, t.session n = some y ∧ writeReply q [St.ok] ∈ y.replies) ∧
        (k ≠ 5 → t.get (onceLeft k) = s.get (onceLeft k) - 1) ∧
        (k = 1 → v.length = 32 → t.identity = v ∧ t.get R.FUS_STATUS_IDENTITY_SET = 1 ∧ ∃ nonce r, 1 ≤ nonce ∧ t.boot.endorse = natToOs 32 r.1 ++ natToOs 32 r.2 ∧
          r = P256.sign (osToNat (sha256 (t.identityPub ++ v))) Config.dieKey nonce) ∧
        (k = 3 → v.length = 32 → t.ownerHash = v ∧ t.get R.FUS_STATUS_OWNER_SET = 1 ∧ (s.isSet R.FUS_STATUS_OWNER_SET = false → t.boot.flash = s.boot.flash) ∧
          (s.isSet R.FUS_STATUS_OWNER_SET = true → t.boot.flash = (s.setFlash (recordAt s.bootRecord.2) { s.bootRecord.1 with
            seq := (s.bootRecord.1.seq + 1) % 2 ^ 32, pref := 1 - s.get R.FUS_BOOT_BANK, trial := 0 }.octets).boot.flash)) ∧
        (k = 5 → ∀ b : BitVec 8, b.toNat ≤ 64 → v = [b] → t.get R.FUS_BOOT_FLOOR = b.toNat ∧ t.get R.FUS_ONCE_LEFT_FLOOR = 64 - b.toNat) ∧
        (k = 6 → t.get R.FUS_STATUS_TRUNK_LOCK = 1) ∧ (k = 7 → t.get R.FUS_STATUS_DEBUG_DIS = 1)) ∧
    ∀ b bs, s.boot.burns = ⟨k, v, .gulter ⟨n, q, 0⟩⟩ :: b :: bs → b.what ∈ [1, 3, 5, 6, 7] → b.what ≠ k → s.onceCheck b = St.ok →
      Completes (exec (.fuseBurnDone false) s) fun t => t.boot = { s.boot with burns := b :: bs }

/-- R518, R556 to R558, R567, R571 to R573 and R579; what erased flash holds is a free value (log entry 73). -/
def Obligations.ImagesAreStagedAndActivated : Prop :=
  ∀ (s u : State) (h : GulHead) (n q o : Nat) (g : GulSession), q = h.seq.toNat → Heard s u h 8 n g → g.role = 2 → u.bootStage = 0x60 → u.gul.waits = [] →
    o = 1 - u.get R.FUS_BOOT_BANK →
    (∀ v : List Byte, v.length = 32 →
      (u.isSet R.FUS_STATUS_IDENTITY_SET = false → Completes (exec (.attestNonce h v) s) fun t => Replied t n q (writeReply q [St.objRange])) ∧
      (u.isSet R.FUS_STATUS_IDENTITY_SET = true → ∀ body, body = u.reportBody v u.kernelDigests → Completes (exec (.attestNonce h v) s) fun t => Replied t n q (writeReply q [St.ok]) ∧
        ∃ x nonce r, t.session n = some x ∧ x.report = body ++ natToOs 32 r.1 ++ natToOs 32 r.2 ∧ 1 ≤ nonce ∧
          r = P256.sign (osToNat (sha256 body)) (u.privateKey none) nonce)) ∧
    (u.isFenced Unit.link 0 = true ∨ (u.boot.stage ≠ 0 ∧ u.boot.stageBy ≠ n) → ∀ (bs v : List Byte), 1 ≤ bs.length → bs.length ≤ 65535 → v.length = 12 →
      ∀ c ∈ [Instr.fwStageBegin h, .fwStageData h bs, .fwStageHbm h v, .fwStageEnd h, .fwActivate h], Completes (exec c s) fun t =>
        Replied t n q (writeReply q [St.objRange]) ∧ t.boot = u.boot) ∧
    (u.boot.stage ≠ 1 → ∀ (bs v : List Byte), 1 ≤ bs.length → bs.length ≤ 65535 → v.length = 12 → ∀ c ∈ [Instr.fwStageData h bs, .fwStageHbm h v, .fwStageEnd h],
      Completes (exec c s) fun t => Replied t n q (writeReply q [St.objRange]) ∧ t.boot = u.boot) ∧
    (u.isFenced Unit.link 0 = false →
      (u.boot.stage = 0 ∨ u.boot.stageBy = n → Completes (exec (.fwStageBegin h) s) fun t => Replied t n q (writeReply q [St.ok]) ∧
        t.boot = { u.boot with stage := 1, stageBy := n, stageOff := 0, erased := t.boot.erased, flash := t.boot.flash } ∧
        ∀ a, t.flashByte a = if a / bankSize = o ∧ a % bankSize < imageMax then Config.erasedFlash a else u.flashByte a) ∧
      (u.boot.stage = 1 → u.boot.stageBy = n → ∀ p, p = o * bankSize + u.boot.stageOff →
        (∀ bs : List Byte, 1 ≤ bs.length → bs.length ≤ 65535 →
          (u.boot.stageOff + bs.length ≤ imageMax → Completes (exec (.fwStageData h bs) s) fun t => Replied t n q (writeReply q [St.ok]) ∧
            t.boot = { u.boot with stageOff := u.boot.stageOff + bs.length, flash := t.boot.flash } ∧ t.isSet (bankBad o) = false ∧
            ∀ a, t.flashByte a = if p ≤ a ∧ a < p + bs.length then bs.getD (a - p) 0 else u.flashByte a) ∧
          (imageMax < u.boot.stageOff + bs.length → Completes (exec (.fwStageData h bs) s) fun t => Replied t n q (writeReply q [St.objRange]) ∧ t.boot = u.boot)) ∧
        (∀ (v : List Byte) (m l : Nat), v.length = 12 → m = osToNat (v.take 8) → l = osToNat (v.drop 8) →
          (g.path = .mailbox 0 → l ≠ 0 → m + l ≤ hbmBytes → u.regionOf m = some 6 → u.regionOf (m + l - 1) = some 6 → u.boot.stageOff + l ≤ imageMax →
            Completes (exec (.fwStageHbm h v) s) fun t => Replied t n q (writeReply q [St.ok]) ∧ t.boot = { u.boot with stageOff := u.boot.stageOff + l, flash := t.boot.flash } ∧
              ∀ a, t.flashByte a = if p ≤ a ∧ a < p + l then u.byte (m + (a - p)) else u.flashByte a) ∧
          (g.path ≠ .mailbox 0 ∨ l = 0 ∨ hbmBytes < m + l ∨ u.regionOf m ≠ some 6 ∨ u.regionOf (m + l - 1) ≠ some 6 ∨ imageMax < u.boot.stageOff + l →
            Completes (exec (.fwStageHbm h v) s) fun t => Replied t n q (writeReply q [St.objRange]) ∧ t.boot = u.boot)) ∧
        (bodyOk (u.bankByte o) = true → u.bankCheck o u.ownerHash = 0 ∨ (∃ p, u.boot.pending = some p ∧ u.bankCheck o p = 0) →
          Completes (exec (.fwStageEnd h) s) fun t => Replied t n q (writeReply q [St.ok]) ∧ t.boot = { u.boot with stage := 2, stageFor := u.ownerHash }) ∧
        (bodyOk (u.bankByte o) = false ∨ (u.bankCheck o u.ownerHash ≠ 0 ∧ ∀ p, u.boot.pending = some p → u.bankCheck o p ≠ 0) →
          Completes (exec (.fwStageEnd h) s) fun t => Replied t n q (writeReply q [St.ok]) ∧ t.boot = { u.boot with stage := 3, stageFor := u.ownerHash })) ∧
      (u.boot.stage ≠ 2 → Completes (exec (.fwActivate h) s) fun t => Replied t n q (writeReply q [St.objRange]) ∧ t.boot = u.boot) ∧
      (u.boot.stage = 2 → u.boot.stageBy = n →
        (u.get R.FUS_BOOT_FLOOR ≤ hdrField (u.bankByte o) 0xC 1 → u.ownerHash = u.boot.stageFor → Completes (exec (.fwActivate h) s) fun t => Replied t n q (writeReply q [St.ok]) ∧
          t.boot = { u.boot with stage := 4, flash := (u.setFlash (recordAt u.bootRecord.2) (⟨(u.bootRecord.1.seq + 1) % 2 ^ 32, o, 1, 3, 0⟩ : BootRecord).octets).boot.flash }) ∧
        (hdrField (u.bankByte o) 0xC 1 < u.get R.FUS_BOOT_FLOOR ∨ u.ownerHash ≠ u.boot.stageFor → Completes (exec (.fwActivate h) s) fun t =>
          Replied t n q (writeReply q [St.objRange]) ∧ t.boot = { u.boot with stage := 3 }))) ∧
    (u.isSet R.FUS_BOOT_TRIAL = true → Completes (exec (.fwCommit h) s) fun t => Replied t n q (writeReply q [St.ok]) ∧
      t.boot = { u.boot with flash := (u.setFlash (recordAt u.bootRecord.2) { u.bootRecord.1 with seq := (u.bootRecord.1.seq + 1) % 2 ^ 32, trial := 0 }.octets).boot.flash }) ∧
    (u.isSet R.FUS_BOOT_TRIAL = false → Completes (exec (.fwCommit h) s) fun t => Replied t n q (writeReply q [St.objRange]) ∧ t.boot = u.boot)

/-- R304. -/
def Obligations.RndRoundsAndSaturates : Prop :=
  ∀ (s : State) (c : Core) (k : DspCore) (d : Fin 16) (a : Fin 4) (v : Int), k = s.core c → Fresh k →
    v = (if k.frac then ((k.accum a).toInt + 2 ^ 31) / 2 ^ 32 else (k.accum a).toInt) →
    Completes (exec (.rnd c d a true) s) fun t => ∃ (r : Word) (st : Nat),
      (-2 ^ 31 ≤ v → v < 2 ^ 31 → r.toInt = v ∧ st.testBit 4 = k.status.testBit 4) ∧
      (2 ^ 31 ≤ v → r = 0x7FFFFFFF ∧ st.testBit 4 = true) ∧ (v < -2 ^ 31 → r = 0x80000000 ∧ st.testBit 4 = true) ∧
      (∀ j, j ≠ 4 → st.testBit j = k.status.testBit j) ∧ EndsBundle s t c { k with d := SMap.set 0 k.d d r, status := st }

/-- R305. -/
def Obligations.AccumulationsWrapAndSetAov : Prop :=
  (∀ (s : State) (c : Core) (k : DspCore) (a b e : Fin 4) (x y : Fin 16) (p : Int), k = s.core c → Fresh k →
    p = (k.dreg x).toInt * (k.dreg y).toInt * (if k.frac then 2 else 1) →
    ∀ i ∈ [(Instr.mac c a x y true, (k.accum a).toInt + p), (.msu c a x y true, (k.accum a).toInt - p), (.accadd c a b e true, (k.accum b).toInt + (k.accum e).toInt)],
      i.2 < -2 ^ 71 ∨ 2 ^ 71 ≤ i.2 → Completes (exec i.1 s) fun t =>
        (∃ n : Int, ((t.core c).accum a).toInt = i.2 + n * 2 ^ 72) ∧ (t.core c).status.testBit 5 = true) ∧
  (∀ (s : State) (c : Core) (k : DspCore) (a b : Fin 4) (w x y z : Fin 16) (f p q : Int), k = s.core c → Fresh k → a ≠ b → f = (if k.frac then 2 else 1) →
    p = (k.dreg w).toInt * (k.dreg x).toInt * f → q = (k.dreg y).toInt * (k.dreg z).toInt * f →
    ∀ i ∈ [(Instr.mac2 c a b w x y z true, (k.accum a).toInt + p, (k.accum b).toInt + q), (.msu2 c a b w x y z true, (k.accum a).toInt - p, (k.accum b).toInt - q)],
      fits72 i.2.1 = false ∨ fits72 i.2.2 = false → Completes (exec i.1 s) fun t => (∃ n : Int, ((t.core c).accum a).toInt = i.2.1 + n * 2 ^ 72) ∧
        (∃ n : Int, ((t.core c).accum b).toInt = i.2.2 + n * 2 ^ 72) ∧ (t.core c).status.testBit 5 = true) ∧
  (∀ x y : Word, (x = 0x80000000 ∧ y = 0x80000000 ∧ product true x y = 2 ^ 63) ∨
    (-(2 ^ 63 - 2 ^ 32) ≤ product true x y ∧ product true x y ≤ 2 ^ 63 - 2 ^ 32)) ∧
  (∀ l : List (Word × Word), l.length ≤ 255 → fits72 (l.map fun e => product true e.1 e.2).sum = true) ∧
  ∀ l : List (Word × Word), l.length = 256 → fits72 (l.map fun e => product true e.1 e.2).sum = false →
    (∀ e ∈ l, e = (0x80000000, 0x80000000)) ∧ (l.map fun e => product true e.1 e.2).sum = 2 ^ 71 ∧ (l.map fun e => product true e.1 e.2).sum - 1 = 2 ^ 71 - 1

/-- R302. -/
def Obligations.BitReversedUpdatesCarryDown : Prop :=
  ∀ (s : State) (c : Core) (k : DspCore) (m : MoveSlot) (n j : Fin 8) (a b l md : Word), k = s.core c → Fresh k → k.modeOf n = 2 →
    a = SMap.get 0 k.a n → b = SMap.get 0 k.b n → l = SMap.get 0 k.l n → md = SMap.get 0 k.m j →
    (∀ (w off add x y r : Nat), 1 ≤ w → w ≤ 16 → l.toNat = 4 * 2 ^ w → off = (a - b).toNat / 4 → (add : Int) = md.toInt / 4 % 2 ^ w →
      x < 2 ^ w → y < 2 ^ w → r < 2 ^ w → (∀ i, i < w → x.testBit i = off.testBit (w - 1 - i)) → (∀ i, i < w → y.testBit i = add.testBit (w - 1 - i)) →
      (∀ i, i < w → r.testBit (w - 1 - i) = (x + y).testBit i) →
      Completes (exec (.mod c m n j true) s) fun t => EndsBundle s t c { k with a := SMap.set 0 k.a n (b + BitVec.ofNat 32 (4 * r)) }) ∧
    ((∀ w : Nat, 1 ≤ w → w ≤ 16 → l.toNat ≠ 4 * 2 ^ w) → Completes (exec (.mod c m n j true) s) fun t => t = s.kernelFault c .addr a.toNat)
end

