-- ==== Sys2Proof/Laws/Map.lean ====
section
/-! SUPPORT. The laws of the sparse maps: what a lookup finds after each update, and that every update keeps the
canonical form. -/

namespace Sys2Proof.Laws

open Sys2Proof Sys2Proof.Machine

variable {α : Type}

@[simp] theorem find_nil (k : Nat) : SMap.find? ([] : SMap α) k = none := rfl

@[simp] theorem get_nil (d : α) (k : Nat) : SMap.get d ([] : SMap α) k = d := rfl

theorem find_cons (j : Nat) (v : α) (m : SMap α) (k : Nat) :
    SMap.find? ((j, v) :: m) k = if j = k then some v else SMap.find? m k := rfl

theorem find_erase_same (m : SMap α) (k : Nat) : SMap.find? (SMap.erase m k) k = none := by
  induction m with
  | nil => rfl
  | cons e m ih =>
    obtain ⟨j, v⟩ := e
    by_cases h : j = k
    · simpa [SMap.erase, h] using ih
    · simpa [SMap.erase, h, find_cons] using ih

theorem find_erase_ne (m : SMap α) {k i : Nat} (hki : i ≠ k) : SMap.find? (SMap.erase m k) i = SMap.find? m i := by
  induction m with
  | nil => rfl
  | cons e m ih =>
    obtain ⟨j, v⟩ := e
    by_cases h : j = k
    · subst h
      have hj : ¬ j = i := fun e => hki e.symm
      simpa [SMap.erase, find_cons, hj] using ih
    · by_cases hi : j = i
      · simp [SMap.erase, find_cons, hi, hki]
      · simpa [SMap.erase, h, find_cons, hi] using ih

theorem find_insert_same (m : SMap α) (k : Nat) (v : α) : SMap.find? (SMap.insert m k v) k = some v := by
  induction m with
  | nil => simp [SMap.insert, find_cons]
  | cons e m ih =>
    obtain ⟨j, w⟩ := e
    unfold SMap.insert
    split
    · simp [find_cons]
    · split
      · simp [find_cons]
      · rename_i h; simp [find_cons, h, ih]

theorem find_insert_ne (m : SMap α) {k i : Nat} (v : α) (hki : i ≠ k) :
    SMap.find? (SMap.insert m k v) i = SMap.find? m i := by
  have hk : ¬ k = i := fun e => hki e.symm
  induction m with
  | nil => simp [SMap.insert, find_cons, hk]
  | cons e m ih =>
    obtain ⟨j, w⟩ := e
    unfold SMap.insert
    split
    · simp [find_cons, hk]
    · split
      · rename_i h; subst h; simp [find_cons, hk]
      · by_cases hj : j = i <;> simp [find_cons, hj, ih]

/-- What is written at a key is what it holds. -/
@[simp] theorem get_set_same [DecidableEq α] (d : α) (m : SMap α) (k : Nat) (v : α) :
    SMap.get d (SMap.set d m k v) k = v := by
  unfold SMap.get SMap.set
  split
  · rename_i h; simp [find_erase_same, h]
  · simp [find_insert_same]

/-- A write leaves every other key as it was, whatever either key reads as when unlisted. -/
theorem get_set_ne [DecidableEq α] (d d' : α) (m : SMap α) {k i : Nat} (v : α) (h : i ≠ k) :
    SMap.get d (SMap.set d' m k v) i = SMap.get d m i := by
  unfold SMap.get SMap.set
  split
  · simp [find_erase_ne m h]
  · simp [find_insert_ne m v h]

theorem get_set [DecidableEq α] (d : α) (m : SMap α) (k i : Nat) (v : α) :
    SMap.get d (SMap.set d m k v) i = if i = k then v else SMap.get d m i := by
  split
  · rename_i h; subst h; simp
  · rename_i h; exact get_set_ne d d m v h

/-! ### The canonical form -/

theorem risingFrom_mono (m : SMap α) {a b : Nat} (h : b ≤ a) (hm : SMap.risingFrom a m = true) : SMap.risingFrom b m = true := by
  cases m with
  | nil => rfl
  | cons e m =>
    simp only [SMap.risingFrom, Bool.and_eq_true, decide_eq_true_eq] at hm ⊢
    exact ⟨le_trans h hm.1, hm.2⟩

theorem risingFrom_erase (m : SMap α) (a k : Nat) (hm : SMap.risingFrom a m = true) :
    SMap.risingFrom a (SMap.erase m k) = true := by
  induction m generalizing a with
  | nil => rfl
  | cons e m ih =>
    obtain ⟨j, v⟩ := e
    simp only [SMap.risingFrom, Bool.and_eq_true, decide_eq_true_eq] at hm
    by_cases h : j = k
    · have := ih (j + 1) hm.2
      simpa [SMap.erase, h] using risingFrom_mono _ (by omega) this
    · have := ih (j + 1) hm.2
      simpa [SMap.erase, h, SMap.risingFrom, hm.1] using this

theorem risingFrom_insert (m : SMap α) (a k : Nat) (v : α) (hk : a ≤ k) (hm : SMap.risingFrom a m = true) :
    SMap.risingFrom a (SMap.insert m k v) = true := by
  induction m generalizing a with
  | nil => simp [SMap.insert, SMap.risingFrom, hk]
  | cons e m ih =>
    obtain ⟨j, w⟩ := e
    simp only [SMap.risingFrom, Bool.and_eq_true, decide_eq_true_eq] at hm
    unfold SMap.insert
    split
    · rename_i h
      simp only [SMap.risingFrom, Bool.and_eq_true, decide_eq_true_eq]
      exact ⟨hk, by omega, hm.2⟩
    · split
      · rename_i h; subst h
        simp only [SMap.risingFrom, Bool.and_eq_true, decide_eq_true_eq]
        exact ⟨hk, hm.2⟩
      · simp only [SMap.risingFrom, Bool.and_eq_true, decide_eq_true_eq]
        exact ⟨hm.1, ih (j + 1) (by omega) hm.2⟩

theorem mem_insert (m : SMap α) (k : Nat) (v : α) (e : Nat × α) (h : e ∈ SMap.insert m k v) : e = (k, v) ∨ e ∈ m := by
  induction m with
  | nil => simpa [SMap.insert] using h
  | cons f m ih =>
    obtain ⟨j, w⟩ := f
    unfold SMap.insert at h
    split at h
    · simpa using h
    · split at h
      · simp only [List.mem_cons] at h ⊢
        rcases h with h | h
        · exact .inl h
        · exact .inr (.inr h)
      · simp only [List.mem_cons] at h ⊢
        rcases h with h | h
        · exact .inr (.inl h)
        · rcases ih h with h | h
          · exact .inl h
          · exact .inr (.inr h)

/-- A write keeps the canonical form. -/
theorem wf_set [DecidableEq α] (d : Nat → α) (m : SMap α) (k : Nat) (v : α) (hm : SMap.wf d m = true) :
    SMap.wf d (SMap.set (d k) m k v) = true := by
  simp only [SMap.wf, Bool.and_eq_true, List.all_eq_true, decide_eq_true_eq] at hm ⊢
  unfold SMap.set
  split
  · refine ⟨risingFrom_erase m 0 k hm.1, fun e he => hm.2 e ?_⟩
    simp only [SMap.erase, List.mem_filter] at he
    exact he.1
  · rename_i hv
    refine ⟨risingFrom_insert m 0 k v (Nat.zero_le k) hm.1, fun e he => ?_⟩
    rcases mem_insert m k v e he with rfl | he
    · exact hv
    · exact hm.2 e he

theorem risingFrom_filter (m : SMap α) (p : Nat × α → Bool) (a : Nat) (hm : SMap.risingFrom a m = true) :
    SMap.risingFrom a (m.filter p) = true := by
  induction m generalizing a with
  | nil => rfl
  | cons e m ih =>
    obtain ⟨j, v⟩ := e
    simp only [SMap.risingFrom, Bool.and_eq_true, decide_eq_true_eq] at hm
    have := ih (j + 1) hm.2
    by_cases h : p (j, v)
    · simp [h, SMap.risingFrom, hm.1, this]
    · simpa [h] using risingFrom_mono _ (by omega) this

/-- Taking entries out keeps the canonical form. -/
theorem wf_filter [DecidableEq α] (d : Nat → α) (m : SMap α) (p : Nat × α → Bool) (hm : SMap.wf d m = true) :
    SMap.wf d (m.filter p) = true := by
  simp only [SMap.wf, Bool.and_eq_true, List.all_eq_true] at hm ⊢
  exact ⟨risingFrom_filter m p 0 hm.1, fun e he => hm.2 e (List.mem_filter.1 he).1⟩

@[simp] theorem wf_nil [DecidableEq α] (d : Nat → α) : SMap.wf d ([] : SMap α) = true := rfl

end Sys2Proof.Laws
end

