-- ==== Sys2Proof/Laws/Field.lean ====
section
/-! SUPPORT. The laws of register words and fields: what a field reads after a write of it, of another field of its word,
and of another register. -/

namespace Sys2Proof.Laws

open Sys2Proof Sys2Proof.Machine

theorem field_eq (w : Word) (l n : Nat) : w.field l n = w.toNat / 2 ^ l % 2 ^ n := by
  simp [Word.field, Nat.shiftRight_eq_div_pow]

theorem field_lt (w : Word) (l n : Nat) : w.field l n < 2 ^ n := Nat.mod_lt _ (by positivity)

/-- A digit string in a base stays below the next power. -/
theorem digits_lt {a b m n : Nat} (ha : a < n) (hb : b < m) : a * m + b < n * m := by
  calc a * m + b < a * m + m := by omega
    _ = (a + 1) * m := by ring
    _ ≤ n * m := Nat.mul_le_mul_right m ha

/-- A word is what lies above a field, the field, and what lies below it. -/
theorem word_split (x l n : Nat) : x = x / 2 ^ (l + n) * 2 ^ (l + n) + x / 2 ^ l % 2 ^ n * 2 ^ l + x % 2 ^ l := by
  have h1 := Nat.div_add_mod x (2 ^ l)
  have h2 := Nat.div_add_mod (x / 2 ^ l) (2 ^ n)
  have h3 : x / 2 ^ (l + n) = x / 2 ^ l / 2 ^ n := by rw [pow_add, Nat.div_div_eq_div_mul]
  have h4 : (2 : Nat) ^ (l + n) = 2 ^ l * 2 ^ n := pow_add 2 l n
  have h5 : x / 2 ^ l / 2 ^ n * (2 ^ l * 2 ^ n) = 2 ^ l * (2 ^ n * (x / 2 ^ l / 2 ^ n)) := by ring
  have h6 : 2 ^ l * (2 ^ n * (x / 2 ^ l / 2 ^ n)) + 2 ^ l * (x / 2 ^ l % 2 ^ n) = 2 ^ l * (x / 2 ^ l) := by rw [← mul_add, h2]
  rw [h3, h4, h5, Nat.mul_comm (x / 2 ^ l % 2 ^ n)]
  omega

theorem withField_toNat (w : Word) (l n v : Nat) (h : l + n ≤ 32) :
    (w.withField l n v).toNat =
      w.toNat / 2 ^ (l + n) * 2 ^ (l + n) + v % 2 ^ n * 2 ^ l + w.toNat % 2 ^ l := by
  have hs := word_split w.toNat l n
  have hw : w.toNat < 2 ^ 32 := w.isLt
  have hv : v % 2 ^ n < 2 ^ n := Nat.mod_lt _ (by positivity)
  have hlo : w.toNat % 2 ^ l < 2 ^ l := Nat.mod_lt _ (by positivity)
  have h4 : (2 : Nat) ^ (l + n) = 2 ^ l * 2 ^ n := pow_add 2 l n
  have h5 : (2 : Nat) ^ 32 = 2 ^ (32 - (l + n)) * 2 ^ (l + n) := by rw [← pow_add]; congr 1; omega
  have hhi : w.toNat / 2 ^ (l + n) < 2 ^ (32 - (l + n)) := by
    rw [Nat.div_lt_iff_lt_mul (by positivity), ← h5]; exact hw
  have hmid : v % 2 ^ n * 2 ^ l + w.toNat % 2 ^ l < 2 ^ (l + n) := by rw [h4, Nat.mul_comm (2 ^ l)]; exact digits_lt hv hlo
  have hb : w.toNat / 2 ^ (l + n) * 2 ^ (l + n) + v % 2 ^ n * 2 ^ l + w.toNat % 2 ^ l < 2 ^ 32 := by
    rw [h5, Nat.add_assoc]; exact digits_lt hhi hmid
  unfold Word.withField
  rw [field_eq, BitVec.toNat_ofNat]
  have he : w.toNat - w.toNat / 2 ^ l % 2 ^ n * 2 ^ l + v % 2 ^ n * 2 ^ l =
      w.toNat / 2 ^ (l + n) * 2 ^ (l + n) + v % 2 ^ n * 2 ^ l + w.toNat % 2 ^ l := by omega
  rw [he, Nat.mod_eq_of_lt hb]

/-- A field reads the low bits of what was written to it. -/
theorem field_withField_same (w : Word) (l n v : Nat) (h : l + n ≤ 32) : (w.withField l n v).field l n = v % 2 ^ n := by
  rw [field_eq, withField_toNat w l n v h]
  have hlo : w.toNat % 2 ^ l < 2 ^ l := Nat.mod_lt _ (by positivity)
  have h4 : (2 : Nat) ^ (l + n) = 2 ^ n * 2 ^ l := by rw [pow_add, Nat.mul_comm]
  have : w.toNat / 2 ^ (l + n) * 2 ^ (l + n) + v % 2 ^ n * 2 ^ l + w.toNat % 2 ^ l =
      (w.toNat / 2 ^ (l + n) * 2 ^ n + v % 2 ^ n) * 2 ^ l + w.toNat % 2 ^ l := by rw [h4]; ring
  rw [this, Nat.mul_comm _ (2 ^ l), Nat.mul_add_div (by positivity), Nat.div_eq_of_lt hlo]
  simp [Nat.mul_comm _ (2 ^ n)]

/-- A field that lies below a written field of its word is unchanged. -/
theorem field_withField_below (w : Word) (l n v l' n' : Nat) (h : l + n ≤ 32) (hd : l' + n' ≤ l) :
    (w.withField l n v).field l' n' = w.field l' n' := by
  obtain ⟨k, rfl⟩ := Nat.exists_eq_add_of_le hd
  rw [field_eq, field_eq, withField_toNat w _ n v h]
  generalize hl : l' + n' + k = l at *
  have h1 := word_split w.toNat l n
  have hp : (2 : Nat) ^ l = 2 ^ l' * (2 ^ n' * 2 ^ k) := by rw [← hl, pow_add, pow_add]; ring
  have h4 : (2 : Nat) ^ (l + n) = 2 ^ l * 2 ^ n := pow_add 2 l n
  have e1 : w.toNat / 2 ^ (l + n) * 2 ^ (l + n) + v % 2 ^ n * 2 ^ l + w.toNat % 2 ^ l =
      2 ^ l' * (2 ^ n' * (2 ^ k * (w.toNat / 2 ^ (l + n) * 2 ^ n + v % 2 ^ n))) + w.toNat % 2 ^ l := by rw [h4, hp]; ring
  have e2 : w.toNat =
      2 ^ l' * (2 ^ n' * (2 ^ k * (w.toNat / 2 ^ (l + n) * 2 ^ n + w.toNat / 2 ^ l % 2 ^ n))) + w.toNat % 2 ^ l := by
    conv_lhs => rw [h1]
    rw [h4, hp]; ring
  rw [e1]
  conv_rhs => rw [e2]
  rw [Nat.mul_add_div (by positivity), Nat.mul_add_div (by positivity), Nat.mul_add_mod, Nat.mul_add_mod]

/-- A field that lies above a written field of its word is unchanged. -/
theorem field_withField_above (w : Word) (l n v l' n' : Nat) (h : l + n ≤ 32) (hd : l + n ≤ l') :
    (w.withField l n v).field l' n' = w.field l' n' := by
  rw [field_eq, field_eq, withField_toNat w l n v h]
  obtain ⟨k, rfl⟩ := Nat.exists_eq_add_of_le hd
  have h1 := word_split w.toNat l n
  have hlo : w.toNat % 2 ^ l < 2 ^ l := Nat.mod_lt _ (by positivity)
  have hv : v % 2 ^ n < 2 ^ n := Nat.mod_lt _ (by positivity)
  have h4 : (2 : Nat) ^ (l + n) = 2 ^ l * 2 ^ n := pow_add 2 l n
  have hm : v % 2 ^ n * 2 ^ l + w.toNat % 2 ^ l < 2 ^ (l + n) := by rw [h4, Nat.mul_comm (2 ^ l)]; exact digits_lt hv hlo
  rw [pow_add 2 (l + n) k, ← Nat.div_div_eq_div_mul, ← Nat.div_div_eq_div_mul]
  congr 2
  rw [Nat.add_assoc, Nat.mul_comm _ (2 ^ (l + n)), Nat.mul_add_div (by positivity), Nat.div_eq_of_lt hm]
  simp

/-- Two fields of one word with no bit in common. -/
abbrev apart (l n l' n' : Nat) : Prop := l + n ≤ l' ∨ l' + n' ≤ l

theorem field_withField_apart (w : Word) (l n v l' n' : Nat) (h : l + n ≤ 32) (hd : apart l n l' n') :
    (w.withField l n v).field l' n' = w.field l' n' := by
  rcases hd with hd | hd
  · exact field_withField_above w l n v l' n' h hd
  · exact field_withField_below w l n v l' n' h hd

/-! ### Registers -/

@[simp] theorem reg_setReg_same (s : State) (a : Nat) (w : Word) : (s.setReg a w).reg a = w := by
  simp [State.reg, State.setReg]

theorem reg_setReg_ne (s : State) {a b : Nat} (w : Word) (h : b ≠ a) : (s.setReg a w).reg b = s.reg b := by
  simp [State.reg, State.setReg, get_set_ne _ _ _ w h]

theorem reg_put_ne (s : State) (f : Fld) (v : Nat) {b : Nat} (h : b ≠ f.addr) : (s.put f v).reg b = s.reg b :=
  reg_setReg_ne s _ h

theorem reg_put_same (s : State) (f : Fld) (v : Nat) : (s.put f v).reg f.addr = (s.reg f.addr).withField f.lsb f.width v :=
  reg_setReg_same s _ _

/-- A field reads the low bits of what was written to it. -/
theorem get_put_same (s : State) (f : Fld) (v : Nat) (h : f.lsb + f.width ≤ 32) : (s.put f v).get f = v % 2 ^ f.width := by
  simp only [State.get, reg_put_same]
  exact field_withField_same _ _ _ _ h

/-- A field of another register is unchanged. -/
theorem get_put_ne (s : State) (f g : Fld) (v : Nat) (h : g.addr ≠ f.addr) : (s.put f v).get g = s.get g := by
  simp [State.get, reg_put_ne s f v h]

/-- A field that has no bit in common with the written one is unchanged. -/
theorem get_put_apart (s : State) (f g : Fld) (v : Nat) (h : f.lsb + f.width ≤ 32)
    (hd : g.addr ≠ f.addr ∨ apart f.lsb f.width g.lsb g.width) : (s.put f v).get g = s.get g := by
  by_cases ha : g.addr = f.addr
  · have hd := hd.resolve_left (fun e => e ha)
    simp only [State.get, ha, reg_put_same]
    exact field_withField_apart _ _ _ _ _ _ h hd
  · exact get_put_ne s f g v ha

theorem get_lt (s : State) (f : Fld) : s.get f < 2 ^ f.width := field_lt _ _ _

theorem isSet_eq (s : State) (f : Fld) : s.isSet f = (s.get f == 1) := rfl

/-- A bit reads as it was written. -/
theorem isSet_putBit_same (s : State) (f : Fld) (b : Bool) (h : f.lsb + 1 ≤ 32) (hw : f.width = 1) :
    (s.putBit f b).isSet f = b := by
  unfold State.isSet State.putBit
  rw [get_put_same s f _ (by rw [hw]; exact h), hw]
  cases b <;> rfl

/-! ### Counters and objects -/

@[simp] theorem counter_setCounter_same (s : State) (a v : Nat) : (s.setCounter a v).counter a = v % 2 ^ 64 := by
  simp [State.counter, State.setCounter]

theorem counter_setCounter_ne (s : State) {a b : Nat} (v : Nat) (h : b ≠ a) : (s.setCounter a v).counter b = s.counter b := by
  simp [State.counter, State.setCounter, get_set_ne _ _ _ _ h]

@[simp] theorem counter_count_same (s : State) (a n : Nat) : (s.count a n).counter a = (s.counter a + n) % 2 ^ 64 := by
  simp [State.counter, State.count]

theorem counter_count_ne (s : State) {a b : Nat} (n : Nat) (h : b ≠ a) : (s.count a n).counter b = s.counter b := by
  simp [State.counter, State.count, get_set_ne _ _ _ _ h]

@[simp] theorem obj_setObj_same (s : State) (o i d v : Nat) : (s.setObj o i d v).obj o i d = v := by
  simp [State.obj, State.setObj]

theorem obj_setObj_ne (s : State) (o i d v o' i' d' : Nat) (h : objKey o' i' ≠ objKey o i) :
    (s.setObj o i d v).obj o' i' d' = s.obj o' i' d' := by
  simp [State.obj, State.setObj, get_set_ne _ _ _ _ h]

@[simp] theorem octets_setOctets_same (s : State) (o i : Nat) (v : List Byte) : (s.setOctets o i v).octets o i = v := by
  simp [State.octets, State.setOctets]

end Sys2Proof.Laws
end

