-- ==== Sys2Proof/Laws/Memory.lean ====
section
/-! SUPPORT. The laws of memory: what a read finds after a store, that a store touches memory and the poison marks alone and leaves
every other octet, and that every memory operation keeps the canonical form. -/

namespace Sys2Proof.Laws

open Sys2Proof Sys2Proof.Machine

/-! ### One octet -/

/-- What a store of one octet can do: it goes to an address that exists and whose word is not poisoned, and nowhere else. -/
theorem byte_setByte (s : State) (a : Nat) (b : Byte) (c : Nat) :
    (s.setByte a b).byte c = if c = a ∧ addressExists a = true ∧ s.marked a = false then b else s.byte c := by
  unfold State.setByte State.byte
  by_cases h : addressExists a && !s.marked a
  · simp only [h, if_true]
    simp only [Bool.and_eq_true, Bool.not_eq_true'] at h
    rw [get_set]; simp [h]
  · simp only [h, if_false, Bool.false_eq_true]
    simp only [Bool.and_eq_true, Bool.not_eq_true', not_and] at h
    split
    · rename_i h2; exact absurd h2.2.2 (h h2.2.1)
    · rfl

/-- A store of one octet is a store: nothing but memory changes. -/
theorem setByte_frame (s : State) (a : Nat) (b : Byte) : s.setByte a b = { s with mem := (s.setByte a b).mem } := by
  unfold State.setByte; split <;> rfl

/-- A store of one octet keeps the canonical form. -/
theorem wf_setByte (s : State) (a : Nat) (b : Byte) (h : Memory.wf s.mem = true) : Memory.wf (s.setByte a b).mem = true := by
  unfold State.setByte; split
  · exact wf_set (fun _ => (0 : Byte)) s.mem a b h
  · exact h

/-! ### A run of octets -/

theorem storeBytes_mem (s : State) (a : Nat) (bs : List Byte) : ∃ m, s.storeBytes a bs = { s with mem := m } := by
  induction bs generalizing s a with
  | nil => exact ⟨s.mem, rfl⟩
  | cons b bs ih =>
    obtain ⟨m, h⟩ := ih (s.setByte a b) (a + 1)
    refine ⟨m, ?_⟩
    show (s.setByte a b).storeBytes (a + 1) bs = _
    rw [h]; unfold State.setByte; split <;> rfl

/-- A store of octets changes memory alone. -/
theorem storeBytes_frame (s : State) (a : Nat) (bs : List Byte) : s.storeBytes a bs = { s with mem := (s.storeBytes a bs).mem } := by
  obtain ⟨m, h⟩ := storeBytes_mem s a bs
  rw [h]

theorem unmark_frame (s : State) (a n : Nat) : s.unmark a n = { s with poison := (s.unmark a n).poison } := by
  unfold State.unmark; split <;> rfl

/-- A store of octets changes memory and the poison marks alone. -/
theorem setBytes_frame (s : State) (a : Nat) (bs : List Byte) :
    s.setBytes a bs = { s with mem := (s.setBytes a bs).mem, poison := (s.setBytes a bs).poison } := by
  unfold State.setBytes
  obtain ⟨m, h⟩ := storeBytes_mem (s.unmark a bs.length) a bs
  rw [h]; unfold State.unmark; split <;> rfl

@[simp] theorem unmark_byte (s : State) (a n c : Nat) : (s.unmark a n).byte c = s.byte c := by
  rw [unmark_frame]; rfl

/-- Octets outside the run that is stored read as before. -/
theorem byte_storeBytes_outside (s : State) (a : Nat) (bs : List Byte) (c : Nat) (h : c < a ∨ a + bs.length ≤ c) :
    (s.storeBytes a bs).byte c = s.byte c := by
  induction bs generalizing s a with
  | nil => rfl
  | cons b bs ih =>
    simp only [List.length_cons] at h
    show ((s.setByte a b).storeBytes (a + 1) bs).byte c = _
    rw [ih (s.setByte a b) (a + 1) (by omega), byte_setByte, if_neg (by omega)]

/-- Octets outside the run that is stored read as before. -/
theorem byte_setBytes_outside (s : State) (a : Nat) (bs : List Byte) (c : Nat) (h : c < a ∨ a + bs.length ≤ c) :
    (s.setBytes a bs).byte c = s.byte c := by
  unfold State.setBytes
  rw [byte_storeBytes_outside _ _ _ _ h, unmark_byte]

/-- With no poison mark in the memory, a run of addresses that exist reads as what was stored. -/
theorem byte_storeBytes_inside (s : State) (a : Nat) (bs : List Byte) (i : Nat) (hi : i < bs.length) (hp : s.poison = [])
    (he : ∀ k, k < bs.length → addressExists (a + k) = true) : (s.storeBytes a bs).byte (a + i) = bs.getD i 0 := by
  induction bs generalizing s a i with
  | nil => simp at hi
  | cons b bs ih =>
    have hp' : (s.setByte a b).poison = [] := by rw [setByte_frame]; exact hp
    show ((s.setByte a b).storeBytes (a + 1) bs).byte (a + i) = _
    cases i with
    | zero =>
      rw [byte_storeBytes_outside _ _ _ _ (by omega), byte_setByte, if_pos]
      · rfl
      · refine ⟨rfl, he 0 (by simp), by simp [State.marked, hp]⟩
    | succ i =>
      have := ih (s.setByte a b) (a + 1) i (by simpa using hi) hp' (fun k hk => by
        have := he (k + 1) (by simpa using hk); simpa [Nat.add_assoc, Nat.add_comm 1 k] using this)
      simpa [Nat.add_assoc, Nat.add_comm 1 i] using this

/-- With no poison mark in the memory, a run of addresses that exist reads as what was stored. -/
theorem byte_setBytes_inside (s : State) (a : Nat) (bs : List Byte) (i : Nat) (hi : i < bs.length) (hp : s.poison = [])
    (he : ∀ k, k < bs.length → addressExists (a + k) = true) : (s.setBytes a bs).byte (a + i) = bs.getD i 0 := by
  unfold State.setBytes
  have : s.unmark a bs.length = s := by simp [State.unmark, hp]
  rw [this]
  exact byte_storeBytes_inside s a bs i hi hp he

theorem wf_storeBytes (s : State) (a : Nat) (bs : List Byte) (h : Memory.wf s.mem = true) : Memory.wf (s.storeBytes a bs).mem = true := by
  induction bs generalizing s a with
  | nil => exact h
  | cons b bs ih => exact ih _ _ (wf_setByte s a b h)

/-- A store of octets keeps the canonical form. -/
theorem wf_setBytes (s : State) (a : Nat) (bs : List Byte) (h : Memory.wf s.mem = true) : Memory.wf (s.setBytes a bs).mem = true := by
  unfold State.setBytes
  refine wf_storeBytes _ _ _ ?_
  rw [unmark_frame]; exact h

/-- A store of a little-endian field keeps the canonical form. -/
theorem wf_setLe (s : State) (a n v : Nat) (h : Memory.wf s.mem = true) : Memory.wf (s.setLe a n v).mem = true := wf_setBytes _ _ _ h

/-- A store of zero octets keeps the canonical form. -/
theorem wf_zero (s : State) (a n : Nat) (h : Memory.wf s.mem = true) : Memory.wf (s.zero a n).mem = true := wf_setBytes _ _ _ h

/-- The memory after reset is in the canonical form. -/
theorem wf_reset : Memory.wf State.reset.mem = true := rfl

/-! ### Little-endian fields (R9) -/

@[simp] theorem leBytes_length (n v : Nat) : (leBytes n v).length = n := by
  induction n generalizing v with
  | zero => rfl
  | succ n ih => simp [leBytes, ih]

/-- A little-endian field reads as what was written to it, as far as its octets hold it. -/
theorem leVal_leBytes (n v : Nat) : leVal (leBytes n v) = v % 256 ^ n := by
  induction n generalizing v with
  | zero => simp [leBytes, leVal, Nat.mod_one]
  | succ n ih =>
    simp only [leBytes, leVal, ih, BitVec.toNat_ofNat]
    rw [show (256 : Nat) ^ (n + 1) = 256 * 256 ^ n from by ring, Nat.mod_mul]

@[simp] theorem bytes_length (s : State) (a n : Nat) : (s.bytes a n).length = n := by simp [State.bytes]

/-- With no poison mark, what is stored in octets that exist is what they read as. -/
theorem bytes_setBytes (s : State) (a : Nat) (bs : List Byte) (hp : s.poison = [])
    (he : ∀ k, k < bs.length → addressExists (a + k) = true) : (s.setBytes a bs).bytes a bs.length = bs := by
  apply List.ext_getElem
  · simp
  · intro i h1 h2
    simp only [State.bytes, List.getElem_map, List.getElem_range]
    rw [byte_setBytes_inside s a bs i h2 hp he]
    simp [List.getD, h2]

/-- With no poison mark, a little-endian field in octets that exist reads as what was stored. -/
theorem le_setLe (s : State) (a n v : Nat) (hp : s.poison = []) (he : ∀ k, k < n → addressExists (a + k) = true) :
    (s.setLe a n v).le a n = v % 256 ^ n := by
  unfold State.le State.setLe
  have := bytes_setBytes s a (leBytes n v) hp (by simpa using he)
  rw [leBytes_length] at this
  rw [this, leVal_leBytes]

/-- A field in other octets reads as before. -/
theorem le_setBytes_outside (s : State) (a : Nat) (bs : List Byte) (c n : Nat) (h : c + n ≤ a ∨ a + bs.length ≤ c) :
    (s.setBytes a bs).le c n = s.le c n := by
  unfold State.le State.bytes
  congr 1
  refine List.map_congr_left fun i hi => ?_
  have := List.mem_range.1 hi
  exact byte_setBytes_outside s a bs (c + i) (by omega)

end Sys2Proof.Laws
end

