-- ==== Sys2Proof/Laws/State.lean ====
section
/-! SUPPORT. One law per field per update: what each of the named updates of State leaves as it was, in the fields and in the
reading functions. All hold by computation. -/

namespace Sys2Proof.Laws

open Sys2Proof Sys2Proof.Machine


/-! ### setReg -/

@[simp] theorem setReg_pending (s : State) (a : Nat) (w : Word) : (s.setReg a w).pending = s.pending := rfl
@[simp] theorem setReg_cycle (s : State) (a : Nat) (w : Word) : (s.setReg a w).cycle = s.cycle := rfl
@[simp] theorem setReg_freeCtr (s : State) (a : Nat) (w : Word) : (s.setReg a w).freeCtr = s.freeCtr := rfl
@[simp] theorem setReg_out (s : State) (a : Nat) (w : Word) : (s.setReg a w).out = s.out := rfl
@[simp] theorem setReg_rwvB (s : State) (a : Nat) (w : Word) : (s.setReg a w).rwvB = s.rwvB := rfl
@[simp] theorem setReg_rwvC (s : State) (a : Nat) (w : Word) : (s.setReg a w).rwvC = s.rwvC := rfl
@[simp] theorem setReg_sweptAt (s : State) (a : Nat) (w : Word) : (s.setReg a w).sweptAt = s.sweptAt := rfl
@[simp] theorem setReg_ctr (s : State) (a : Nat) (w : Word) : (s.setReg a w).ctr = s.ctr := rfl
@[simp] theorem setReg_latch (s : State) (a : Nat) (w : Word) : (s.setReg a w).latch = s.latch := rfl
@[simp] theorem setReg_mem (s : State) (a : Nat) (w : Word) : (s.setReg a w).mem = s.mem := rfl
@[simp] theorem setReg_poison (s : State) (a : Nat) (w : Word) : (s.setReg a w).poison = s.poison := rfl
@[simp] theorem setReg_sql (s : State) (a : Nat) (w : Word) : (s.setReg a w).sql = s.sql := rfl
@[simp] theorem setReg_islands (s : State) (a : Nat) (w : Word) : (s.setReg a w).islands = s.islands := rfl
@[simp] theorem setReg_early (s : State) (a : Nat) (w : Word) : (s.setReg a w).early = s.early := rfl
@[simp] theorem setReg_bells (s : State) (a : Nat) (w : Word) : (s.setReg a w).bells = s.bells := rfl
@[simp] theorem setReg_deviceFatal (s : State) (a : Nat) (w : Word) : (s.setReg a w).deviceFatal = s.deviceFatal := rfl
@[simp] theorem setReg_fns (s : State) (a : Nat) (w : Word) : (s.setReg a w).fns = s.fns := rfl
@[simp] theorem setReg_bpm (s : State) (a : Nat) (w : Word) : (s.setReg a w).bpm = s.bpm := rfl
@[simp] theorem setReg_queues (s : State) (a : Nat) (w : Word) : (s.setReg a w).queues = s.queues := rfl
@[simp] theorem setReg_egress (s : State) (a : Nat) (w : Word) : (s.setReg a w).egress = s.egress := rfl
@[simp] theorem setReg_gates (s : State) (a : Nat) (w : Word) : (s.setReg a w).gates = s.gates := rfl
@[simp] theorem setReg_time (s : State) (a : Nat) (w : Word) : (s.setReg a w).time = s.time := rfl
@[simp] theorem setReg_rly (s : State) (a : Nat) (w : Word) : (s.setReg a w).rly = s.rly := rfl
@[simp] theorem setReg_ageZero (s : State) (a : Nat) (w : Word) : (s.setReg a w).ageZero = s.ageZero := rfl
@[simp] theorem setReg_mxm (s : State) (a : Nat) (w : Word) : (s.setReg a w).mxm = s.mxm := rfl
@[simp] theorem setReg_fw (s : State) (a : Nat) (w : Word) : (s.setReg a w).fw = s.fw := rfl
@[simp] theorem setReg_gul (s : State) (a : Nat) (w : Word) : (s.setReg a w).gul = s.gul := rfl
@[simp] theorem setReg_boot (s : State) (a : Nat) (w : Word) : (s.setReg a w).boot = s.boot := rfl
@[simp] theorem setReg_sdg (s : State) (a : Nat) (w : Word) : (s.setReg a w).sdg = s.sdg := rfl
@[simp] theorem setReg_cpx (s : State) (a : Nat) (w : Word) : (s.setReg a w).cpx = s.cpx := rfl
@[simp] theorem setReg_holders (s : State) (a : Nat) (w : Word) : (s.setReg a w).holders = s.holders := rfl
@[simp] theorem setReg_trk (s : State) (a : Nat) (w : Word) : (s.setReg a w).trk = s.trk := rfl
@[simp] theorem setReg_hts (s : State) (a : Nat) (w : Word) : (s.setReg a w).hts = s.hts := rfl
@[simp] theorem setReg_upd (s : State) (a : Nat) (w : Word) : (s.setReg a w).upd = s.upd := rfl
@[simp] theorem setReg_kernelClass (s : State) (a : Nat) (w : Word) : (s.setReg a w).kernelClass = s.kernelClass := rfl
@[simp] theorem setReg_hbm (s : State) (a : Nat) (w : Word) : (s.setReg a w).hbm = s.hbm := rfl
@[simp] theorem setReg_vdes (s : State) (a : Nat) (w : Word) : (s.setReg a w).vdes = s.vdes := rfl
@[simp] theorem setReg_codecs (s : State) (a : Nat) (w : Word) : (s.setReg a w).codecs = s.codecs := rfl
@[simp] theorem setReg_injected (s : State) (a : Nat) (w : Word) : (s.setReg a w).injected = s.injected := rfl
@[simp] theorem setReg_cmps (s : State) (a : Nat) (w : Word) : (s.setReg a w).cmps = s.cmps := rfl
@[simp] theorem setReg_subs (s : State) (a : Nat) (w : Word) : (s.setReg a w).subs = s.subs := rfl
@[simp] theorem setReg_cpls (s : State) (a : Nat) (w : Word) : (s.setReg a w).cpls = s.cpls := rfl
@[simp] theorem setReg_hostGrants (s : State) (a : Nat) (w : Word) : (s.setReg a w).hostGrants = s.hostGrants := rfl
@[simp] theorem setReg_mbx (s : State) (a : Nat) (w : Word) : (s.setReg a w).mbx = s.mbx := rfl
@[simp] theorem setReg_vees (s : State) (a : Nat) (w : Word) : (s.setReg a w).vees = s.vees := rfl
@[simp] theorem setReg_encs (s : State) (a : Nat) (w : Word) : (s.setReg a w).encs = s.encs := rfl
@[simp] theorem setReg_tsp (s : State) (a : Nat) (w : Word) : (s.setReg a w).tsp = s.tsp := rfl
@[simp] theorem setReg_objNum (s : State) (a : Nat) (w : Word) : (s.setReg a w).objNum = s.objNum := rfl
@[simp] theorem setReg_objOct (s : State) (a : Nat) (w : Word) : (s.setReg a w).objOct = s.objOct := rfl
@[simp] theorem setReg_dsp (s : State) (a : Nat) (w : Word) : (s.setReg a w).dsp = s.dsp := rfl
@[simp] theorem setReg_dspShared (s : State) (a : Nat) (w : Word) : (s.setReg a w).dspShared = s.dspShared := rfl
@[simp] theorem setReg_pads (s : State) (a : Nat) (w : Word) : (s.setReg a w).pads = s.pads := rfl
@[simp] theorem setReg_counter_read (s : State) (a : Nat) (w : Word) (p : Nat) : (s.setReg a w).counter p = s.counter p := rfl
@[simp] theorem setReg_obj_read (s : State) (a : Nat) (w : Word) (p q r : Nat) : (s.setReg a w).obj p q r = s.obj p q r := rfl
@[simp] theorem setReg_octets_read (s : State) (a : Nat) (w : Word) (p q : Nat) : (s.setReg a w).octets p q = s.octets p q := rfl
@[simp] theorem setReg_byte_read (s : State) (a : Nat) (w : Word) (p : Nat) : (s.setReg a w).byte p = s.byte p := rfl
@[simp] theorem setReg_bytes_read (s : State) (a : Nat) (w : Word) (p q : Nat) : (s.setReg a w).bytes p q = s.bytes p q := rfl
@[simp] theorem setReg_le_read (s : State) (a : Nat) (w : Word) (p q : Nat) : (s.setReg a w).le p q = s.le p q := rfl
@[simp] theorem setReg_marked_read (s : State) (a : Nat) (w : Word) (p : Nat) : (s.setReg a w).marked p = s.marked p := rfl
@[simp] theorem setReg_island_read (s : State) (a : Nat) (w : Word) (p : Nat) : (s.setReg a w).island p = s.island p := rfl
@[simp] theorem setReg_fn_read (s : State) (a : Nat) (w : Word) (p : Nat) : (s.setReg a w).fn p = s.fn p := rfl
@[simp] theorem setReg_time64_read (s : State) (a : Nat) (w : Word) : (s.setReg a w).time64 = s.time64 := rfl
@[simp] theorem setReg_core_read (s : State) (a : Nat) (w : Word) (p : Nat) : (s.setReg a w).core p = s.core p := rfl
@[simp] theorem setReg_taskAt_read (s : State) (a : Nat) (w : Word) (p : Nat) : (s.setReg a w).taskAt p = s.taskAt p := rfl
@[simp] theorem setReg_free_read (s : State) (a : Nat) (w : Word) (p : Nat) : (s.setReg a w).free p = s.free p := rfl

/-! ### put -/

@[simp] theorem put_pending (s : State) (f : Fld) (v : Nat) : (s.put f v).pending = s.pending := rfl
@[simp] theorem put_cycle (s : State) (f : Fld) (v : Nat) : (s.put f v).cycle = s.cycle := rfl
@[simp] theorem put_freeCtr (s : State) (f : Fld) (v : Nat) : (s.put f v).freeCtr = s.freeCtr := rfl
@[simp] theorem put_out (s : State) (f : Fld) (v : Nat) : (s.put f v).out = s.out := rfl
@[simp] theorem put_rwvB (s : State) (f : Fld) (v : Nat) : (s.put f v).rwvB = s.rwvB := rfl
@[simp] theorem put_rwvC (s : State) (f : Fld) (v : Nat) : (s.put f v).rwvC = s.rwvC := rfl
@[simp] theorem put_sweptAt (s : State) (f : Fld) (v : Nat) : (s.put f v).sweptAt = s.sweptAt := rfl
@[simp] theorem put_ctr (s : State) (f : Fld) (v : Nat) : (s.put f v).ctr = s.ctr := rfl
@[simp] theorem put_latch (s : State) (f : Fld) (v : Nat) : (s.put f v).latch = s.latch := rfl
@[simp] theorem put_mem (s : State) (f : Fld) (v : Nat) : (s.put f v).mem = s.mem := rfl
@[simp] theorem put_poison (s : State) (f : Fld) (v : Nat) : (s.put f v).poison = s.poison := rfl
@[simp] theorem put_sql (s : State) (f : Fld) (v : Nat) : (s.put f v).sql = s.sql := rfl
@[simp] theorem put_islands (s : State) (f : Fld) (v : Nat) : (s.put f v).islands = s.islands := rfl
@[simp] theorem put_early (s : State) (f : Fld) (v : Nat) : (s.put f v).early = s.early := rfl
@[simp] theorem put_bells (s : State) (f : Fld) (v : Nat) : (s.put f v).bells = s.bells := rfl
@[simp] theorem put_deviceFatal (s : State) (f : Fld) (v : Nat) : (s.put f v).deviceFatal = s.deviceFatal := rfl
@[simp] theorem put_fns (s : State) (f : Fld) (v : Nat) : (s.put f v).fns = s.fns := rfl
@[simp] theorem put_bpm (s : State) (f : Fld) (v : Nat) : (s.put f v).bpm = s.bpm := rfl
@[simp] theorem put_queues (s : State) (f : Fld) (v : Nat) : (s.put f v).queues = s.queues := rfl
@[simp] theorem put_egress (s : State) (f : Fld) (v : Nat) : (s.put f v).egress = s.egress := rfl
@[simp] theorem put_gates (s : State) (f : Fld) (v : Nat) : (s.put f v).gates = s.gates := rfl
@[simp] theorem put_time (s : State) (f : Fld) (v : Nat) : (s.put f v).time = s.time := rfl
@[simp] theorem put_rly (s : State) (f : Fld) (v : Nat) : (s.put f v).rly = s.rly := rfl
@[simp] theorem put_ageZero (s : State) (f : Fld) (v : Nat) : (s.put f v).ageZero = s.ageZero := rfl
@[simp] theorem put_mxm (s : State) (f : Fld) (v : Nat) : (s.put f v).mxm = s.mxm := rfl
@[simp] theorem put_fw (s : State) (f : Fld) (v : Nat) : (s.put f v).fw = s.fw := rfl
@[simp] theorem put_gul (s : State) (f : Fld) (v : Nat) : (s.put f v).gul = s.gul := rfl
@[simp] theorem put_boot (s : State) (f : Fld) (v : Nat) : (s.put f v).boot = s.boot := rfl
@[simp] theorem put_sdg (s : State) (f : Fld) (v : Nat) : (s.put f v).sdg = s.sdg := rfl
@[simp] theorem put_cpx (s : State) (f : Fld) (v : Nat) : (s.put f v).cpx = s.cpx := rfl
@[simp] theorem put_holders (s : State) (f : Fld) (v : Nat) : (s.put f v).holders = s.holders := rfl
@[simp] theorem put_trk (s : State) (f : Fld) (v : Nat) : (s.put f v).trk = s.trk := rfl
@[simp] theorem put_hts (s : State) (f : Fld) (v : Nat) : (s.put f v).hts = s.hts := rfl
@[simp] theorem put_upd (s : State) (f : Fld) (v : Nat) : (s.put f v).upd = s.upd := rfl
@[simp] theorem put_kernelClass (s : State) (f : Fld) (v : Nat) : (s.put f v).kernelClass = s.kernelClass := rfl
@[simp] theorem put_hbm (s : State) (f : Fld) (v : Nat) : (s.put f v).hbm = s.hbm := rfl
@[simp] theorem put_vdes (s : State) (f : Fld) (v : Nat) : (s.put f v).vdes = s.vdes := rfl
@[simp] theorem put_codecs (s : State) (f : Fld) (v : Nat) : (s.put f v).codecs = s.codecs := rfl
@[simp] theorem put_injected (s : State) (f : Fld) (v : Nat) : (s.put f v).injected = s.injected := rfl
@[simp] theorem put_cmps (s : State) (f : Fld) (v : Nat) : (s.put f v).cmps = s.cmps := rfl
@[simp] theorem put_subs (s : State) (f : Fld) (v : Nat) : (s.put f v).subs = s.subs := rfl
@[simp] theorem put_cpls (s : State) (f : Fld) (v : Nat) : (s.put f v).cpls = s.cpls := rfl
@[simp] theorem put_hostGrants (s : State) (f : Fld) (v : Nat) : (s.put f v).hostGrants = s.hostGrants := rfl
@[simp] theorem put_mbx (s : State) (f : Fld) (v : Nat) : (s.put f v).mbx = s.mbx := rfl
@[simp] theorem put_vees (s : State) (f : Fld) (v : Nat) : (s.put f v).vees = s.vees := rfl
@[simp] theorem put_encs (s : State) (f : Fld) (v : Nat) : (s.put f v).encs = s.encs := rfl
@[simp] theorem put_tsp (s : State) (f : Fld) (v : Nat) : (s.put f v).tsp = s.tsp := rfl
@[simp] theorem put_objNum (s : State) (f : Fld) (v : Nat) : (s.put f v).objNum = s.objNum := rfl
@[simp] theorem put_objOct (s : State) (f : Fld) (v : Nat) : (s.put f v).objOct = s.objOct := rfl
@[simp] theorem put_dsp (s : State) (f : Fld) (v : Nat) : (s.put f v).dsp = s.dsp := rfl
@[simp] theorem put_dspShared (s : State) (f : Fld) (v : Nat) : (s.put f v).dspShared = s.dspShared := rfl
@[simp] theorem put_pads (s : State) (f : Fld) (v : Nat) : (s.put f v).pads = s.pads := rfl
@[simp] theorem put_counter_read (s : State) (f : Fld) (v : Nat) (p : Nat) : (s.put f v).counter p = s.counter p := rfl
@[simp] theorem put_obj_read (s : State) (f : Fld) (v : Nat) (p q r : Nat) : (s.put f v).obj p q r = s.obj p q r := rfl
@[simp] theorem put_octets_read (s : State) (f : Fld) (v : Nat) (p q : Nat) : (s.put f v).octets p q = s.octets p q := rfl
@[simp] theorem put_byte_read (s : State) (f : Fld) (v : Nat) (p : Nat) : (s.put f v).byte p = s.byte p := rfl
@[simp] theorem put_bytes_read (s : State) (f : Fld) (v : Nat) (p q : Nat) : (s.put f v).bytes p q = s.bytes p q := rfl
@[simp] theorem put_le_read (s : State) (f : Fld) (v : Nat) (p q : Nat) : (s.put f v).le p q = s.le p q := rfl
@[simp] theorem put_marked_read (s : State) (f : Fld) (v : Nat) (p : Nat) : (s.put f v).marked p = s.marked p := rfl
@[simp] theorem put_island_read (s : State) (f : Fld) (v : Nat) (p : Nat) : (s.put f v).island p = s.island p := rfl
@[simp] theorem put_fn_read (s : State) (f : Fld) (v : Nat) (p : Nat) : (s.put f v).fn p = s.fn p := rfl
@[simp] theorem put_time64_read (s : State) (f : Fld) (v : Nat) : (s.put f v).time64 = s.time64 := rfl
@[simp] theorem put_core_read (s : State) (f : Fld) (v : Nat) (p : Nat) : (s.put f v).core p = s.core p := rfl
@[simp] theorem put_taskAt_read (s : State) (f : Fld) (v : Nat) (p : Nat) : (s.put f v).taskAt p = s.taskAt p := rfl
@[simp] theorem put_free_read (s : State) (f : Fld) (v : Nat) (p : Nat) : (s.put f v).free p = s.free p := rfl

/-! ### putVoted -/

@[simp] theorem putVoted_pending (s : State) (f : Fld) (v : Nat) : (s.putVoted f v).pending = s.pending := rfl
@[simp] theorem putVoted_cycle (s : State) (f : Fld) (v : Nat) : (s.putVoted f v).cycle = s.cycle := rfl
@[simp] theorem putVoted_freeCtr (s : State) (f : Fld) (v : Nat) : (s.putVoted f v).freeCtr = s.freeCtr := rfl
@[simp] theorem putVoted_out (s : State) (f : Fld) (v : Nat) : (s.putVoted f v).out = s.out := rfl
@[simp] theorem putVoted_sweptAt (s : State) (f : Fld) (v : Nat) : (s.putVoted f v).sweptAt = s.sweptAt := rfl
@[simp] theorem putVoted_ctr (s : State) (f : Fld) (v : Nat) : (s.putVoted f v).ctr = s.ctr := rfl
@[simp] theorem putVoted_latch (s : State) (f : Fld) (v : Nat) : (s.putVoted f v).latch = s.latch := rfl
@[simp] theorem putVoted_mem (s : State) (f : Fld) (v : Nat) : (s.putVoted f v).mem = s.mem := rfl
@[simp] theorem putVoted_poison (s : State) (f : Fld) (v : Nat) : (s.putVoted f v).poison = s.poison := rfl
@[simp] theorem putVoted_sql (s : State) (f : Fld) (v : Nat) : (s.putVoted f v).sql = s.sql := rfl
@[simp] theorem putVoted_islands (s : State) (f : Fld) (v : Nat) : (s.putVoted f v).islands = s.islands := rfl
@[simp] theorem putVoted_early (s : State) (f : Fld) (v : Nat) : (s.putVoted f v).early = s.early := rfl
@[simp] theorem putVoted_bells (s : State) (f : Fld) (v : Nat) : (s.putVoted f v).bells = s.bells := rfl
@[simp] theorem putVoted_deviceFatal (s : State) (f : Fld) (v : Nat) : (s.putVoted f v).deviceFatal = s.deviceFatal := rfl
@[simp] theorem putVoted_fns (s : State) (f : Fld) (v : Nat) : (s.putVoted f v).fns = s.fns := rfl
@[simp] theorem putVoted_bpm (s : State) (f : Fld) (v : Nat) : (s.putVoted f v).bpm = s.bpm := rfl
@[simp] theorem putVoted_queues (s : State) (f : Fld) (v : Nat) : (s.putVoted f v).queues = s.queues := rfl
@[simp] theorem putVoted_egress (s : State) (f : Fld) (v : Nat) : (s.putVoted f v).egress = s.egress := rfl
@[simp] theorem putVoted_gates (s : State) (f : Fld) (v : Nat) : (s.putVoted f v).gates = s.gates := rfl
@[simp] theorem putVoted_time (s : State) (f : Fld) (v : Nat) : (s.putVoted f v).time = s.time := rfl
@[simp] theorem putVoted_rly (s : State) (f : Fld) (v : Nat) : (s.putVoted f v).rly = s.rly := rfl
@[simp] theorem putVoted_ageZero (s : State) (f : Fld) (v : Nat) : (s.putVoted f v).ageZero = s.ageZero := rfl
@[simp] theorem putVoted_mxm (s : State) (f : Fld) (v : Nat) : (s.putVoted f v).mxm = s.mxm := rfl
@[simp] theorem putVoted_fw (s : State) (f : Fld) (v : Nat) : (s.putVoted f v).fw = s.fw := rfl
@[simp] theorem putVoted_gul (s : State) (f : Fld) (v : Nat) : (s.putVoted f v).gul = s.gul := rfl
@[simp] theorem putVoted_boot (s : State) (f : Fld) (v : Nat) : (s.putVoted f v).boot = s.boot := rfl
@[simp] theorem putVoted_sdg (s : State) (f : Fld) (v : Nat) : (s.putVoted f v).sdg = s.sdg := rfl
@[simp] theorem putVoted_cpx (s : State) (f : Fld) (v : Nat) : (s.putVoted f v).cpx = s.cpx := rfl
@[simp] theorem putVoted_holders (s : State) (f : Fld) (v : Nat) : (s.putVoted f v).holders = s.holders := rfl
@[simp] theorem putVoted_trk (s : State) (f : Fld) (v : Nat) : (s.putVoted f v).trk = s.trk := rfl
@[simp] theorem putVoted_hts (s : State) (f : Fld) (v : Nat) : (s.putVoted f v).hts = s.hts := rfl
@[simp] theorem putVoted_upd (s : State) (f : Fld) (v : Nat) : (s.putVoted f v).upd = s.upd := rfl
@[simp] theorem putVoted_kernelClass (s : State) (f : Fld) (v : Nat) : (s.putVoted f v).kernelClass = s.kernelClass := rfl
@[simp] theorem putVoted_hbm (s : State) (f : Fld) (v : Nat) : (s.putVoted f v).hbm = s.hbm := rfl
@[simp] theorem putVoted_vdes (s : State) (f : Fld) (v : Nat) : (s.putVoted f v).vdes = s.vdes := rfl
@[simp] theorem putVoted_codecs (s : State) (f : Fld) (v : Nat) : (s.putVoted f v).codecs = s.codecs := rfl
@[simp] theorem putVoted_injected (s : State) (f : Fld) (v : Nat) : (s.putVoted f v).injected = s.injected := rfl
@[simp] theorem putVoted_cmps (s : State) (f : Fld) (v : Nat) : (s.putVoted f v).cmps = s.cmps := rfl
@[simp] theorem putVoted_subs (s : State) (f : Fld) (v : Nat) : (s.putVoted f v).subs = s.subs := rfl
@[simp] theorem putVoted_cpls (s : State) (f : Fld) (v : Nat) : (s.putVoted f v).cpls = s.cpls := rfl
@[simp] theorem putVoted_hostGrants (s : State) (f : Fld) (v : Nat) : (s.putVoted f v).hostGrants = s.hostGrants := rfl
@[simp] theorem putVoted_mbx (s : State) (f : Fld) (v : Nat) : (s.putVoted f v).mbx = s.mbx := rfl
@[simp] theorem putVoted_vees (s : State) (f : Fld) (v : Nat) : (s.putVoted f v).vees = s.vees := rfl
@[simp] theorem putVoted_encs (s : State) (f : Fld) (v : Nat) : (s.putVoted f v).encs = s.encs := rfl
@[simp] theorem putVoted_tsp (s : State) (f : Fld) (v : Nat) : (s.putVoted f v).tsp = s.tsp := rfl
@[simp] theorem putVoted_objNum (s : State) (f : Fld) (v : Nat) : (s.putVoted f v).objNum = s.objNum := rfl
@[simp] theorem putVoted_objOct (s : State) (f : Fld) (v : Nat) : (s.putVoted f v).objOct = s.objOct := rfl
@[simp] theorem putVoted_dsp (s : State) (f : Fld) (v : Nat) : (s.putVoted f v).dsp = s.dsp := rfl
@[simp] theorem putVoted_dspShared (s : State) (f : Fld) (v : Nat) : (s.putVoted f v).dspShared = s.dspShared := rfl
@[simp] theorem putVoted_pads (s : State) (f : Fld) (v : Nat) : (s.putVoted f v).pads = s.pads := rfl
@[simp] theorem putVoted_counter_read (s : State) (f : Fld) (v : Nat) (p : Nat) : (s.putVoted f v).counter p = s.counter p := rfl
@[simp] theorem putVoted_obj_read (s : State) (f : Fld) (v : Nat) (p q r : Nat) : (s.putVoted f v).obj p q r = s.obj p q r := rfl
@[simp] theorem putVoted_octets_read (s : State) (f : Fld) (v : Nat) (p q : Nat) : (s.putVoted f v).octets p q = s.octets p q := rfl
@[simp] theorem putVoted_byte_read (s : State) (f : Fld) (v : Nat) (p : Nat) : (s.putVoted f v).byte p = s.byte p := rfl
@[simp] theorem putVoted_bytes_read (s : State) (f : Fld) (v : Nat) (p q : Nat) : (s.putVoted f v).bytes p q = s.bytes p q := rfl
@[simp] theorem putVoted_le_read (s : State) (f : Fld) (v : Nat) (p q : Nat) : (s.putVoted f v).le p q = s.le p q := rfl
@[simp] theorem putVoted_marked_read (s : State) (f : Fld) (v : Nat) (p : Nat) : (s.putVoted f v).marked p = s.marked p := rfl
@[simp] theorem putVoted_island_read (s : State) (f : Fld) (v : Nat) (p : Nat) : (s.putVoted f v).island p = s.island p := rfl
@[simp] theorem putVoted_fn_read (s : State) (f : Fld) (v : Nat) (p : Nat) : (s.putVoted f v).fn p = s.fn p := rfl
@[simp] theorem putVoted_time64_read (s : State) (f : Fld) (v : Nat) : (s.putVoted f v).time64 = s.time64 := rfl
@[simp] theorem putVoted_core_read (s : State) (f : Fld) (v : Nat) (p : Nat) : (s.putVoted f v).core p = s.core p := rfl
@[simp] theorem putVoted_taskAt_read (s : State) (f : Fld) (v : Nat) (p : Nat) : (s.putVoted f v).taskAt p = s.taskAt p := rfl
@[simp] theorem putVoted_free_read (s : State) (f : Fld) (v : Nat) (p : Nat) : (s.putVoted f v).free p = s.free p := rfl

/-! ### putBit -/

@[simp] theorem putBit_pending (s : State) (f : Fld) (b : Bool) : (s.putBit f b).pending = s.pending := rfl
@[simp] theorem putBit_cycle (s : State) (f : Fld) (b : Bool) : (s.putBit f b).cycle = s.cycle := rfl
@[simp] theorem putBit_freeCtr (s : State) (f : Fld) (b : Bool) : (s.putBit f b).freeCtr = s.freeCtr := rfl
@[simp] theorem putBit_out (s : State) (f : Fld) (b : Bool) : (s.putBit f b).out = s.out := rfl
@[simp] theorem putBit_rwvB (s : State) (f : Fld) (b : Bool) : (s.putBit f b).rwvB = s.rwvB := rfl
@[simp] theorem putBit_rwvC (s : State) (f : Fld) (b : Bool) : (s.putBit f b).rwvC = s.rwvC := rfl
@[simp] theorem putBit_sweptAt (s : State) (f : Fld) (b : Bool) : (s.putBit f b).sweptAt = s.sweptAt := rfl
@[simp] theorem putBit_ctr (s : State) (f : Fld) (b : Bool) : (s.putBit f b).ctr = s.ctr := rfl
@[simp] theorem putBit_latch (s : State) (f : Fld) (b : Bool) : (s.putBit f b).latch = s.latch := rfl
@[simp] theorem putBit_mem (s : State) (f : Fld) (b : Bool) : (s.putBit f b).mem = s.mem := rfl
@[simp] theorem putBit_poison (s : State) (f : Fld) (b : Bool) : (s.putBit f b).poison = s.poison := rfl
@[simp] theorem putBit_sql (s : State) (f : Fld) (b : Bool) : (s.putBit f b).sql = s.sql := rfl
@[simp] theorem putBit_islands (s : State) (f : Fld) (b : Bool) : (s.putBit f b).islands = s.islands := rfl
@[simp] theorem putBit_early (s : State) (f : Fld) (b : Bool) : (s.putBit f b).early = s.early := rfl
@[simp] theorem putBit_bells (s : State) (f : Fld) (b : Bool) : (s.putBit f b).bells = s.bells := rfl
@[simp] theorem putBit_deviceFatal (s : State) (f : Fld) (b : Bool) : (s.putBit f b).deviceFatal = s.deviceFatal := rfl
@[simp] theorem putBit_fns (s : State) (f : Fld) (b : Bool) : (s.putBit f b).fns = s.fns := rfl
@[simp] theorem putBit_bpm (s : State) (f : Fld) (b : Bool) : (s.putBit f b).bpm = s.bpm := rfl
@[simp] theorem putBit_queues (s : State) (f : Fld) (b : Bool) : (s.putBit f b).queues = s.queues := rfl
@[simp] theorem putBit_egress (s : State) (f : Fld) (b : Bool) : (s.putBit f b).egress = s.egress := rfl
@[simp] theorem putBit_gates (s : State) (f : Fld) (b : Bool) : (s.putBit f b).gates = s.gates := rfl
@[simp] theorem putBit_time (s : State) (f : Fld) (b : Bool) : (s.putBit f b).time = s.time := rfl
@[simp] theorem putBit_rly (s : State) (f : Fld) (b : Bool) : (s.putBit f b).rly = s.rly := rfl
@[simp] theorem putBit_ageZero (s : State) (f : Fld) (b : Bool) : (s.putBit f b).ageZero = s.ageZero := rfl
@[simp] theorem putBit_mxm (s : State) (f : Fld) (b : Bool) : (s.putBit f b).mxm = s.mxm := rfl
@[simp] theorem putBit_fw (s : State) (f : Fld) (b : Bool) : (s.putBit f b).fw = s.fw := rfl
@[simp] theorem putBit_gul (s : State) (f : Fld) (b : Bool) : (s.putBit f b).gul = s.gul := rfl
@[simp] theorem putBit_boot (s : State) (f : Fld) (b : Bool) : (s.putBit f b).boot = s.boot := rfl
@[simp] theorem putBit_sdg (s : State) (f : Fld) (b : Bool) : (s.putBit f b).sdg = s.sdg := rfl
@[simp] theorem putBit_cpx (s : State) (f : Fld) (b : Bool) : (s.putBit f b).cpx = s.cpx := rfl
@[simp] theorem putBit_holders (s : State) (f : Fld) (b : Bool) : (s.putBit f b).holders = s.holders := rfl
@[simp] theorem putBit_trk (s : State) (f : Fld) (b : Bool) : (s.putBit f b).trk = s.trk := rfl
@[simp] theorem putBit_hts (s : State) (f : Fld) (b : Bool) : (s.putBit f b).hts = s.hts := rfl
@[simp] theorem putBit_upd (s : State) (f : Fld) (b : Bool) : (s.putBit f b).upd = s.upd := rfl
@[simp] theorem putBit_kernelClass (s : State) (f : Fld) (b : Bool) : (s.putBit f b).kernelClass = s.kernelClass := rfl
@[simp] theorem putBit_hbm (s : State) (f : Fld) (b : Bool) : (s.putBit f b).hbm = s.hbm := rfl
@[simp] theorem putBit_vdes (s : State) (f : Fld) (b : Bool) : (s.putBit f b).vdes = s.vdes := rfl
@[simp] theorem putBit_codecs (s : State) (f : Fld) (b : Bool) : (s.putBit f b).codecs = s.codecs := rfl
@[simp] theorem putBit_injected (s : State) (f : Fld) (b : Bool) : (s.putBit f b).injected = s.injected := rfl
@[simp] theorem putBit_cmps (s : State) (f : Fld) (b : Bool) : (s.putBit f b).cmps = s.cmps := rfl
@[simp] theorem putBit_subs (s : State) (f : Fld) (b : Bool) : (s.putBit f b).subs = s.subs := rfl
@[simp] theorem putBit_cpls (s : State) (f : Fld) (b : Bool) : (s.putBit f b).cpls = s.cpls := rfl
@[simp] theorem putBit_hostGrants (s : State) (f : Fld) (b : Bool) : (s.putBit f b).hostGrants = s.hostGrants := rfl
@[simp] theorem putBit_mbx (s : State) (f : Fld) (b : Bool) : (s.putBit f b).mbx = s.mbx := rfl
@[simp] theorem putBit_vees (s : State) (f : Fld) (b : Bool) : (s.putBit f b).vees = s.vees := rfl
@[simp] theorem putBit_encs (s : State) (f : Fld) (b : Bool) : (s.putBit f b).encs = s.encs := rfl
@[simp] theorem putBit_tsp (s : State) (f : Fld) (b : Bool) : (s.putBit f b).tsp = s.tsp := rfl
@[simp] theorem putBit_objNum (s : State) (f : Fld) (b : Bool) : (s.putBit f b).objNum = s.objNum := rfl
@[simp] theorem putBit_objOct (s : State) (f : Fld) (b : Bool) : (s.putBit f b).objOct = s.objOct := rfl
@[simp] theorem putBit_dsp (s : State) (f : Fld) (b : Bool) : (s.putBit f b).dsp = s.dsp := rfl
@[simp] theorem putBit_dspShared (s : State) (f : Fld) (b : Bool) : (s.putBit f b).dspShared = s.dspShared := rfl
@[simp] theorem putBit_pads (s : State) (f : Fld) (b : Bool) : (s.putBit f b).pads = s.pads := rfl
@[simp] theorem putBit_counter_read (s : State) (f : Fld) (b : Bool) (p : Nat) : (s.putBit f b).counter p = s.counter p := rfl
@[simp] theorem putBit_obj_read (s : State) (f : Fld) (b : Bool) (p q r : Nat) : (s.putBit f b).obj p q r = s.obj p q r := rfl
@[simp] theorem putBit_octets_read (s : State) (f : Fld) (b : Bool) (p q : Nat) : (s.putBit f b).octets p q = s.octets p q := rfl
@[simp] theorem putBit_byte_read (s : State) (f : Fld) (b : Bool) (p : Nat) : (s.putBit f b).byte p = s.byte p := rfl
@[simp] theorem putBit_bytes_read (s : State) (f : Fld) (b : Bool) (p q : Nat) : (s.putBit f b).bytes p q = s.bytes p q := rfl
@[simp] theorem putBit_le_read (s : State) (f : Fld) (b : Bool) (p q : Nat) : (s.putBit f b).le p q = s.le p q := rfl
@[simp] theorem putBit_marked_read (s : State) (f : Fld) (b : Bool) (p : Nat) : (s.putBit f b).marked p = s.marked p := rfl
@[simp] theorem putBit_island_read (s : State) (f : Fld) (b : Bool) (p : Nat) : (s.putBit f b).island p = s.island p := rfl
@[simp] theorem putBit_fn_read (s : State) (f : Fld) (b : Bool) (p : Nat) : (s.putBit f b).fn p = s.fn p := rfl
@[simp] theorem putBit_time64_read (s : State) (f : Fld) (b : Bool) : (s.putBit f b).time64 = s.time64 := rfl
@[simp] theorem putBit_core_read (s : State) (f : Fld) (b : Bool) (p : Nat) : (s.putBit f b).core p = s.core p := rfl
@[simp] theorem putBit_taskAt_read (s : State) (f : Fld) (b : Bool) (p : Nat) : (s.putBit f b).taskAt p = s.taskAt p := rfl
@[simp] theorem putBit_free_read (s : State) (f : Fld) (b : Bool) (p : Nat) : (s.putBit f b).free p = s.free p := rfl

/-! ### bump -/

@[simp] theorem bump_pending (s : State) (f : Fld) (n : Nat) : (s.bump f n).pending = s.pending := rfl
@[simp] theorem bump_cycle (s : State) (f : Fld) (n : Nat) : (s.bump f n).cycle = s.cycle := rfl
@[simp] theorem bump_freeCtr (s : State) (f : Fld) (n : Nat) : (s.bump f n).freeCtr = s.freeCtr := rfl
@[simp] theorem bump_out (s : State) (f : Fld) (n : Nat) : (s.bump f n).out = s.out := rfl
@[simp] theorem bump_rwvB (s : State) (f : Fld) (n : Nat) : (s.bump f n).rwvB = s.rwvB := rfl
@[simp] theorem bump_rwvC (s : State) (f : Fld) (n : Nat) : (s.bump f n).rwvC = s.rwvC := rfl
@[simp] theorem bump_sweptAt (s : State) (f : Fld) (n : Nat) : (s.bump f n).sweptAt = s.sweptAt := rfl
@[simp] theorem bump_ctr (s : State) (f : Fld) (n : Nat) : (s.bump f n).ctr = s.ctr := rfl
@[simp] theorem bump_latch (s : State) (f : Fld) (n : Nat) : (s.bump f n).latch = s.latch := rfl
@[simp] theorem bump_mem (s : State) (f : Fld) (n : Nat) : (s.bump f n).mem = s.mem := rfl
@[simp] theorem bump_poison (s : State) (f : Fld) (n : Nat) : (s.bump f n).poison = s.poison := rfl
@[simp] theorem bump_sql (s : State) (f : Fld) (n : Nat) : (s.bump f n).sql = s.sql := rfl
@[simp] theorem bump_islands (s : State) (f : Fld) (n : Nat) : (s.bump f n).islands = s.islands := rfl
@[simp] theorem bump_early (s : State) (f : Fld) (n : Nat) : (s.bump f n).early = s.early := rfl
@[simp] theorem bump_bells (s : State) (f : Fld) (n : Nat) : (s.bump f n).bells = s.bells := rfl
@[simp] theorem bump_deviceFatal (s : State) (f : Fld) (n : Nat) : (s.bump f n).deviceFatal = s.deviceFatal := rfl
@[simp] theorem bump_fns (s : State) (f : Fld) (n : Nat) : (s.bump f n).fns = s.fns := rfl
@[simp] theorem bump_bpm (s : State) (f : Fld) (n : Nat) : (s.bump f n).bpm = s.bpm := rfl
@[simp] theorem bump_queues (s : State) (f : Fld) (n : Nat) : (s.bump f n).queues = s.queues := rfl
@[simp] theorem bump_egress (s : State) (f : Fld) (n : Nat) : (s.bump f n).egress = s.egress := rfl
@[simp] theorem bump_gates (s : State) (f : Fld) (n : Nat) : (s.bump f n).gates = s.gates := rfl
@[simp] theorem bump_time (s : State) (f : Fld) (n : Nat) : (s.bump f n).time = s.time := rfl
@[simp] theorem bump_rly (s : State) (f : Fld) (n : Nat) : (s.bump f n).rly = s.rly := rfl
@[simp] theorem bump_ageZero (s : State) (f : Fld) (n : Nat) : (s.bump f n).ageZero = s.ageZero := rfl
@[simp] theorem bump_mxm (s : State) (f : Fld) (n : Nat) : (s.bump f n).mxm = s.mxm := rfl
@[simp] theorem bump_fw (s : State) (f : Fld) (n : Nat) : (s.bump f n).fw = s.fw := rfl
@[simp] theorem bump_gul (s : State) (f : Fld) (n : Nat) : (s.bump f n).gul = s.gul := rfl
@[simp] theorem bump_boot (s : State) (f : Fld) (n : Nat) : (s.bump f n).boot = s.boot := rfl
@[simp] theorem bump_sdg (s : State) (f : Fld) (n : Nat) : (s.bump f n).sdg = s.sdg := rfl
@[simp] theorem bump_cpx (s : State) (f : Fld) (n : Nat) : (s.bump f n).cpx = s.cpx := rfl
@[simp] theorem bump_holders (s : State) (f : Fld) (n : Nat) : (s.bump f n).holders = s.holders := rfl
@[simp] theorem bump_trk (s : State) (f : Fld) (n : Nat) : (s.bump f n).trk = s.trk := rfl
@[simp] theorem bump_hts (s : State) (f : Fld) (n : Nat) : (s.bump f n).hts = s.hts := rfl
@[simp] theorem bump_upd (s : State) (f : Fld) (n : Nat) : (s.bump f n).upd = s.upd := rfl
@[simp] theorem bump_kernelClass (s : State) (f : Fld) (n : Nat) : (s.bump f n).kernelClass = s.kernelClass := rfl
@[simp] theorem bump_hbm (s : State) (f : Fld) (n : Nat) : (s.bump f n).hbm = s.hbm := rfl
@[simp] theorem bump_vdes (s : State) (f : Fld) (n : Nat) : (s.bump f n).vdes = s.vdes := rfl
@[simp] theorem bump_codecs (s : State) (f : Fld) (n : Nat) : (s.bump f n).codecs = s.codecs := rfl
@[simp] theorem bump_injected (s : State) (f : Fld) (n : Nat) : (s.bump f n).injected = s.injected := rfl
@[simp] theorem bump_cmps (s : State) (f : Fld) (n : Nat) : (s.bump f n).cmps = s.cmps := rfl
@[simp] theorem bump_subs (s : State) (f : Fld) (n : Nat) : (s.bump f n).subs = s.subs := rfl
@[simp] theorem bump_cpls (s : State) (f : Fld) (n : Nat) : (s.bump f n).cpls = s.cpls := rfl
@[simp] theorem bump_hostGrants (s : State) (f : Fld) (n : Nat) : (s.bump f n).hostGrants = s.hostGrants := rfl
@[simp] theorem bump_mbx (s : State) (f : Fld) (n : Nat) : (s.bump f n).mbx = s.mbx := rfl
@[simp] theorem bump_vees (s : State) (f : Fld) (n : Nat) : (s.bump f n).vees = s.vees := rfl
@[simp] theorem bump_encs (s : State) (f : Fld) (n : Nat) : (s.bump f n).encs = s.encs := rfl
@[simp] theorem bump_tsp (s : State) (f : Fld) (n : Nat) : (s.bump f n).tsp = s.tsp := rfl
@[simp] theorem bump_objNum (s : State) (f : Fld) (n : Nat) : (s.bump f n).objNum = s.objNum := rfl
@[simp] theorem bump_objOct (s : State) (f : Fld) (n : Nat) : (s.bump f n).objOct = s.objOct := rfl
@[simp] theorem bump_dsp (s : State) (f : Fld) (n : Nat) : (s.bump f n).dsp = s.dsp := rfl
@[simp] theorem bump_dspShared (s : State) (f : Fld) (n : Nat) : (s.bump f n).dspShared = s.dspShared := rfl
@[simp] theorem bump_pads (s : State) (f : Fld) (n : Nat) : (s.bump f n).pads = s.pads := rfl
@[simp] theorem bump_counter_read (s : State) (f : Fld) (n : Nat) (p : Nat) : (s.bump f n).counter p = s.counter p := rfl
@[simp] theorem bump_obj_read (s : State) (f : Fld) (n : Nat) (p q r : Nat) : (s.bump f n).obj p q r = s.obj p q r := rfl
@[simp] theorem bump_octets_read (s : State) (f : Fld) (n : Nat) (p q : Nat) : (s.bump f n).octets p q = s.octets p q := rfl
@[simp] theorem bump_byte_read (s : State) (f : Fld) (n : Nat) (p : Nat) : (s.bump f n).byte p = s.byte p := rfl
@[simp] theorem bump_bytes_read (s : State) (f : Fld) (n : Nat) (p q : Nat) : (s.bump f n).bytes p q = s.bytes p q := rfl
@[simp] theorem bump_le_read (s : State) (f : Fld) (n : Nat) (p q : Nat) : (s.bump f n).le p q = s.le p q := rfl
@[simp] theorem bump_marked_read (s : State) (f : Fld) (n : Nat) (p : Nat) : (s.bump f n).marked p = s.marked p := rfl
@[simp] theorem bump_island_read (s : State) (f : Fld) (n : Nat) (p : Nat) : (s.bump f n).island p = s.island p := rfl
@[simp] theorem bump_fn_read (s : State) (f : Fld) (n : Nat) (p : Nat) : (s.bump f n).fn p = s.fn p := rfl
@[simp] theorem bump_time64_read (s : State) (f : Fld) (n : Nat) : (s.bump f n).time64 = s.time64 := rfl
@[simp] theorem bump_core_read (s : State) (f : Fld) (n : Nat) (p : Nat) : (s.bump f n).core p = s.core p := rfl
@[simp] theorem bump_taskAt_read (s : State) (f : Fld) (n : Nat) (p : Nat) : (s.bump f n).taskAt p = s.taskAt p := rfl
@[simp] theorem bump_free_read (s : State) (f : Fld) (n : Nat) (p : Nat) : (s.bump f n).free p = s.free p := rfl

/-! ### drop -/

@[simp] theorem drop_pending (s : State) (f : Fld) (n : Nat) : (s.drop f n).pending = s.pending := rfl
@[simp] theorem drop_cycle (s : State) (f : Fld) (n : Nat) : (s.drop f n).cycle = s.cycle := rfl
@[simp] theorem drop_freeCtr (s : State) (f : Fld) (n : Nat) : (s.drop f n).freeCtr = s.freeCtr := rfl
@[simp] theorem drop_out (s : State) (f : Fld) (n : Nat) : (s.drop f n).out = s.out := rfl
@[simp] theorem drop_rwvB (s : State) (f : Fld) (n : Nat) : (s.drop f n).rwvB = s.rwvB := rfl
@[simp] theorem drop_rwvC (s : State) (f : Fld) (n : Nat) : (s.drop f n).rwvC = s.rwvC := rfl
@[simp] theorem drop_sweptAt (s : State) (f : Fld) (n : Nat) : (s.drop f n).sweptAt = s.sweptAt := rfl
@[simp] theorem drop_ctr (s : State) (f : Fld) (n : Nat) : (s.drop f n).ctr = s.ctr := rfl
@[simp] theorem drop_latch (s : State) (f : Fld) (n : Nat) : (s.drop f n).latch = s.latch := rfl
@[simp] theorem drop_mem (s : State) (f : Fld) (n : Nat) : (s.drop f n).mem = s.mem := rfl
@[simp] theorem drop_poison (s : State) (f : Fld) (n : Nat) : (s.drop f n).poison = s.poison := rfl
@[simp] theorem drop_sql (s : State) (f : Fld) (n : Nat) : (s.drop f n).sql = s.sql := rfl
@[simp] theorem drop_islands (s : State) (f : Fld) (n : Nat) : (s.drop f n).islands = s.islands := rfl
@[simp] theorem drop_early (s : State) (f : Fld) (n : Nat) : (s.drop f n).early = s.early := rfl
@[simp] theorem drop_bells (s : State) (f : Fld) (n : Nat) : (s.drop f n).bells = s.bells := rfl
@[simp] theorem drop_deviceFatal (s : State) (f : Fld) (n : Nat) : (s.drop f n).deviceFatal = s.deviceFatal := rfl
@[simp] theorem drop_fns (s : State) (f : Fld) (n : Nat) : (s.drop f n).fns = s.fns := rfl
@[simp] theorem drop_bpm (s : State) (f : Fld) (n : Nat) : (s.drop f n).bpm = s.bpm := rfl
@[simp] theorem drop_queues (s : State) (f : Fld) (n : Nat) : (s.drop f n).queues = s.queues := rfl
@[simp] theorem drop_egress (s : State) (f : Fld) (n : Nat) : (s.drop f n).egress = s.egress := rfl
@[simp] theorem drop_gates (s : State) (f : Fld) (n : Nat) : (s.drop f n).gates = s.gates := rfl
@[simp] theorem drop_time (s : State) (f : Fld) (n : Nat) : (s.drop f n).time = s.time := rfl
@[simp] theorem drop_rly (s : State) (f : Fld) (n : Nat) : (s.drop f n).rly = s.rly := rfl
@[simp] theorem drop_ageZero (s : State) (f : Fld) (n : Nat) : (s.drop f n).ageZero = s.ageZero := rfl
@[simp] theorem drop_mxm (s : State) (f : Fld) (n : Nat) : (s.drop f n).mxm = s.mxm := rfl
@[simp] theorem drop_fw (s : State) (f : Fld) (n : Nat) : (s.drop f n).fw = s.fw := rfl
@[simp] theorem drop_gul (s : State) (f : Fld) (n : Nat) : (s.drop f n).gul = s.gul := rfl
@[simp] theorem drop_boot (s : State) (f : Fld) (n : Nat) : (s.drop f n).boot = s.boot := rfl
@[simp] theorem drop_sdg (s : State) (f : Fld) (n : Nat) : (s.drop f n).sdg = s.sdg := rfl
@[simp] theorem drop_cpx (s : State) (f : Fld) (n : Nat) : (s.drop f n).cpx = s.cpx := rfl
@[simp] theorem drop_holders (s : State) (f : Fld) (n : Nat) : (s.drop f n).holders = s.holders := rfl
@[simp] theorem drop_trk (s : State) (f : Fld) (n : Nat) : (s.drop f n).trk = s.trk := rfl
@[simp] theorem drop_hts (s : State) (f : Fld) (n : Nat) : (s.drop f n).hts = s.hts := rfl
@[simp] theorem drop_upd (s : State) (f : Fld) (n : Nat) : (s.drop f n).upd = s.upd := rfl
@[simp] theorem drop_kernelClass (s : State) (f : Fld) (n : Nat) : (s.drop f n).kernelClass = s.kernelClass := rfl
@[simp] theorem drop_hbm (s : State) (f : Fld) (n : Nat) : (s.drop f n).hbm = s.hbm := rfl
@[simp] theorem drop_vdes (s : State) (f : Fld) (n : Nat) : (s.drop f n).vdes = s.vdes := rfl
@[simp] theorem drop_codecs (s : State) (f : Fld) (n : Nat) : (s.drop f n).codecs = s.codecs := rfl
@[simp] theorem drop_injected (s : State) (f : Fld) (n : Nat) : (s.drop f n).injected = s.injected := rfl
@[simp] theorem drop_cmps (s : State) (f : Fld) (n : Nat) : (s.drop f n).cmps = s.cmps := rfl
@[simp] theorem drop_subs (s : State) (f : Fld) (n : Nat) : (s.drop f n).subs = s.subs := rfl
@[simp] theorem drop_cpls (s : State) (f : Fld) (n : Nat) : (s.drop f n).cpls = s.cpls := rfl
@[simp] theorem drop_hostGrants (s : State) (f : Fld) (n : Nat) : (s.drop f n).hostGrants = s.hostGrants := rfl
@[simp] theorem drop_mbx (s : State) (f : Fld) (n : Nat) : (s.drop f n).mbx = s.mbx := rfl
@[simp] theorem drop_vees (s : State) (f : Fld) (n : Nat) : (s.drop f n).vees = s.vees := rfl
@[simp] theorem drop_encs (s : State) (f : Fld) (n : Nat) : (s.drop f n).encs = s.encs := rfl
@[simp] theorem drop_tsp (s : State) (f : Fld) (n : Nat) : (s.drop f n).tsp = s.tsp := rfl
@[simp] theorem drop_objNum (s : State) (f : Fld) (n : Nat) : (s.drop f n).objNum = s.objNum := rfl
@[simp] theorem drop_objOct (s : State) (f : Fld) (n : Nat) : (s.drop f n).objOct = s.objOct := rfl
@[simp] theorem drop_dsp (s : State) (f : Fld) (n : Nat) : (s.drop f n).dsp = s.dsp := rfl
@[simp] theorem drop_dspShared (s : State) (f : Fld) (n : Nat) : (s.drop f n).dspShared = s.dspShared := rfl
@[simp] theorem drop_pads (s : State) (f : Fld) (n : Nat) : (s.drop f n).pads = s.pads := rfl
@[simp] theorem drop_counter_read (s : State) (f : Fld) (n : Nat) (p : Nat) : (s.drop f n).counter p = s.counter p := rfl
@[simp] theorem drop_obj_read (s : State) (f : Fld) (n : Nat) (p q r : Nat) : (s.drop f n).obj p q r = s.obj p q r := rfl
@[simp] theorem drop_octets_read (s : State) (f : Fld) (n : Nat) (p q : Nat) : (s.drop f n).octets p q = s.octets p q := rfl
@[simp] theorem drop_byte_read (s : State) (f : Fld) (n : Nat) (p : Nat) : (s.drop f n).byte p = s.byte p := rfl
@[simp] theorem drop_bytes_read (s : State) (f : Fld) (n : Nat) (p q : Nat) : (s.drop f n).bytes p q = s.bytes p q := rfl
@[simp] theorem drop_le_read (s : State) (f : Fld) (n : Nat) (p q : Nat) : (s.drop f n).le p q = s.le p q := rfl
@[simp] theorem drop_marked_read (s : State) (f : Fld) (n : Nat) (p : Nat) : (s.drop f n).marked p = s.marked p := rfl
@[simp] theorem drop_island_read (s : State) (f : Fld) (n : Nat) (p : Nat) : (s.drop f n).island p = s.island p := rfl
@[simp] theorem drop_fn_read (s : State) (f : Fld) (n : Nat) (p : Nat) : (s.drop f n).fn p = s.fn p := rfl
@[simp] theorem drop_time64_read (s : State) (f : Fld) (n : Nat) : (s.drop f n).time64 = s.time64 := rfl
@[simp] theorem drop_core_read (s : State) (f : Fld) (n : Nat) (p : Nat) : (s.drop f n).core p = s.core p := rfl
@[simp] theorem drop_taskAt_read (s : State) (f : Fld) (n : Nat) (p : Nat) : (s.drop f n).taskAt p = s.taskAt p := rfl
@[simp] theorem drop_free_read (s : State) (f : Fld) (n : Nat) (p : Nat) : (s.drop f n).free p = s.free p := rfl

/-! ### putPair -/

@[simp] theorem putPair_pending (s : State) (lo hi : Fld) (v : Nat) : (s.putPair lo hi v).pending = s.pending := rfl
@[simp] theorem putPair_cycle (s : State) (lo hi : Fld) (v : Nat) : (s.putPair lo hi v).cycle = s.cycle := rfl
@[simp] theorem putPair_freeCtr (s : State) (lo hi : Fld) (v : Nat) : (s.putPair lo hi v).freeCtr = s.freeCtr := rfl
@[simp] theorem putPair_out (s : State) (lo hi : Fld) (v : Nat) : (s.putPair lo hi v).out = s.out := rfl
@[simp] theorem putPair_rwvB (s : State) (lo hi : Fld) (v : Nat) : (s.putPair lo hi v).rwvB = s.rwvB := rfl
@[simp] theorem putPair_rwvC (s : State) (lo hi : Fld) (v : Nat) : (s.putPair lo hi v).rwvC = s.rwvC := rfl
@[simp] theorem putPair_sweptAt (s : State) (lo hi : Fld) (v : Nat) : (s.putPair lo hi v).sweptAt = s.sweptAt := rfl
@[simp] theorem putPair_ctr (s : State) (lo hi : Fld) (v : Nat) : (s.putPair lo hi v).ctr = s.ctr := rfl
@[simp] theorem putPair_latch (s : State) (lo hi : Fld) (v : Nat) : (s.putPair lo hi v).latch = s.latch := rfl
@[simp] theorem putPair_mem (s : State) (lo hi : Fld) (v : Nat) : (s.putPair lo hi v).mem = s.mem := rfl
@[simp] theorem putPair_poison (s : State) (lo hi : Fld) (v : Nat) : (s.putPair lo hi v).poison = s.poison := rfl
@[simp] theorem putPair_sql (s : State) (lo hi : Fld) (v : Nat) : (s.putPair lo hi v).sql = s.sql := rfl
@[simp] theorem putPair_islands (s : State) (lo hi : Fld) (v : Nat) : (s.putPair lo hi v).islands = s.islands := rfl
@[simp] theorem putPair_early (s : State) (lo hi : Fld) (v : Nat) : (s.putPair lo hi v).early = s.early := rfl
@[simp] theorem putPair_bells (s : State) (lo hi : Fld) (v : Nat) : (s.putPair lo hi v).bells = s.bells := rfl
@[simp] theorem putPair_deviceFatal (s : State) (lo hi : Fld) (v : Nat) : (s.putPair lo hi v).deviceFatal = s.deviceFatal := rfl
@[simp] theorem putPair_fns (s : State) (lo hi : Fld) (v : Nat) : (s.putPair lo hi v).fns = s.fns := rfl
@[simp] theorem putPair_bpm (s : State) (lo hi : Fld) (v : Nat) : (s.putPair lo hi v).bpm = s.bpm := rfl
@[simp] theorem putPair_queues (s : State) (lo hi : Fld) (v : Nat) : (s.putPair lo hi v).queues = s.queues := rfl
@[simp] theorem putPair_egress (s : State) (lo hi : Fld) (v : Nat) : (s.putPair lo hi v).egress = s.egress := rfl
@[simp] theorem putPair_gates (s : State) (lo hi : Fld) (v : Nat) : (s.putPair lo hi v).gates = s.gates := rfl
@[simp] theorem putPair_time (s : State) (lo hi : Fld) (v : Nat) : (s.putPair lo hi v).time = s.time := rfl
@[simp] theorem putPair_rly (s : State) (lo hi : Fld) (v : Nat) : (s.putPair lo hi v).rly = s.rly := rfl
@[simp] theorem putPair_ageZero (s : State) (lo hi : Fld) (v : Nat) : (s.putPair lo hi v).ageZero = s.ageZero := rfl
@[simp] theorem putPair_mxm (s : State) (lo hi : Fld) (v : Nat) : (s.putPair lo hi v).mxm = s.mxm := rfl
@[simp] theorem putPair_fw (s : State) (lo hi : Fld) (v : Nat) : (s.putPair lo hi v).fw = s.fw := rfl
@[simp] theorem putPair_gul (s : State) (lo hi : Fld) (v : Nat) : (s.putPair lo hi v).gul = s.gul := rfl
@[simp] theorem putPair_boot (s : State) (lo hi : Fld) (v : Nat) : (s.putPair lo hi v).boot = s.boot := rfl
@[simp] theorem putPair_sdg (s : State) (lo hi : Fld) (v : Nat) : (s.putPair lo hi v).sdg = s.sdg := rfl
@[simp] theorem putPair_cpx (s : State) (lo hi : Fld) (v : Nat) : (s.putPair lo hi v).cpx = s.cpx := rfl
@[simp] theorem putPair_holders (s : State) (lo hi : Fld) (v : Nat) : (s.putPair lo hi v).holders = s.holders := rfl
@[simp] theorem putPair_trk (s : State) (lo hi : Fld) (v : Nat) : (s.putPair lo hi v).trk = s.trk := rfl
@[simp] theorem putPair_hts (s : State) (lo hi : Fld) (v : Nat) : (s.putPair lo hi v).hts = s.hts := rfl
@[simp] theorem putPair_upd (s : State) (lo hi : Fld) (v : Nat) : (s.putPair lo hi v).upd = s.upd := rfl
@[simp] theorem putPair_kernelClass (s : State) (lo hi : Fld) (v : Nat) : (s.putPair lo hi v).kernelClass = s.kernelClass := rfl
@[simp] theorem putPair_hbm (s : State) (lo hi : Fld) (v : Nat) : (s.putPair lo hi v).hbm = s.hbm := rfl
@[simp] theorem putPair_vdes (s : State) (lo hi : Fld) (v : Nat) : (s.putPair lo hi v).vdes = s.vdes := rfl
@[simp] theorem putPair_codecs (s : State) (lo hi : Fld) (v : Nat) : (s.putPair lo hi v).codecs = s.codecs := rfl
@[simp] theorem putPair_injected (s : State) (lo hi : Fld) (v : Nat) : (s.putPair lo hi v).injected = s.injected := rfl
@[simp] theorem putPair_cmps (s : State) (lo hi : Fld) (v : Nat) : (s.putPair lo hi v).cmps = s.cmps := rfl
@[simp] theorem putPair_subs (s : State) (lo hi : Fld) (v : Nat) : (s.putPair lo hi v).subs = s.subs := rfl
@[simp] theorem putPair_cpls (s : State) (lo hi : Fld) (v : Nat) : (s.putPair lo hi v).cpls = s.cpls := rfl
@[simp] theorem putPair_hostGrants (s : State) (lo hi : Fld) (v : Nat) : (s.putPair lo hi v).hostGrants = s.hostGrants := rfl
@[simp] theorem putPair_mbx (s : State) (lo hi : Fld) (v : Nat) : (s.putPair lo hi v).mbx = s.mbx := rfl
@[simp] theorem putPair_vees (s : State) (lo hi : Fld) (v : Nat) : (s.putPair lo hi v).vees = s.vees := rfl
@[simp] theorem putPair_encs (s : State) (lo hi : Fld) (v : Nat) : (s.putPair lo hi v).encs = s.encs := rfl
@[simp] theorem putPair_tsp (s : State) (lo hi : Fld) (v : Nat) : (s.putPair lo hi v).tsp = s.tsp := rfl
@[simp] theorem putPair_objNum (s : State) (lo hi : Fld) (v : Nat) : (s.putPair lo hi v).objNum = s.objNum := rfl
@[simp] theorem putPair_objOct (s : State) (lo hi : Fld) (v : Nat) : (s.putPair lo hi v).objOct = s.objOct := rfl
@[simp] theorem putPair_dsp (s : State) (lo hi : Fld) (v : Nat) : (s.putPair lo hi v).dsp = s.dsp := rfl
@[simp] theorem putPair_dspShared (s : State) (lo hi : Fld) (v : Nat) : (s.putPair lo hi v).dspShared = s.dspShared := rfl
@[simp] theorem putPair_pads (s : State) (lo hi : Fld) (v : Nat) : (s.putPair lo hi v).pads = s.pads := rfl
@[simp] theorem putPair_counter_read (s : State) (lo hi : Fld) (v : Nat) (p : Nat) : (s.putPair lo hi v).counter p = s.counter p := rfl
@[simp] theorem putPair_obj_read (s : State) (lo hi : Fld) (v : Nat) (p q r : Nat) : (s.putPair lo hi v).obj p q r = s.obj p q r := rfl
@[simp] theorem putPair_octets_read (s : State) (lo hi : Fld) (v : Nat) (p q : Nat) : (s.putPair lo hi v).octets p q = s.octets p q := rfl
@[simp] theorem putPair_byte_read (s : State) (lo hi : Fld) (v : Nat) (p : Nat) : (s.putPair lo hi v).byte p = s.byte p := rfl
@[simp] theorem putPair_bytes_read (s : State) (lo hi : Fld) (v : Nat) (p q : Nat) : (s.putPair lo hi v).bytes p q = s.bytes p q := rfl
@[simp] theorem putPair_le_read (s : State) (lo hi : Fld) (v : Nat) (p q : Nat) : (s.putPair lo hi v).le p q = s.le p q := rfl
@[simp] theorem putPair_marked_read (s : State) (lo hi : Fld) (v : Nat) (p : Nat) : (s.putPair lo hi v).marked p = s.marked p := rfl
@[simp] theorem putPair_island_read (s : State) (lo hi : Fld) (v : Nat) (p : Nat) : (s.putPair lo hi v).island p = s.island p := rfl
@[simp] theorem putPair_fn_read (s : State) (lo hi : Fld) (v : Nat) (p : Nat) : (s.putPair lo hi v).fn p = s.fn p := rfl
@[simp] theorem putPair_time64_read (s : State) (lo hi : Fld) (v : Nat) : (s.putPair lo hi v).time64 = s.time64 := rfl
@[simp] theorem putPair_core_read (s : State) (lo hi : Fld) (v : Nat) (p : Nat) : (s.putPair lo hi v).core p = s.core p := rfl
@[simp] theorem putPair_taskAt_read (s : State) (lo hi : Fld) (v : Nat) (p : Nat) : (s.putPair lo hi v).taskAt p = s.taskAt p := rfl
@[simp] theorem putPair_free_read (s : State) (lo hi : Fld) (v : Nat) (p : Nat) : (s.putPair lo hi v).free p = s.free p := rfl

/-! ### count -/

@[simp] theorem count_pending (s : State) (a n : Nat) : (s.count a n).pending = s.pending := rfl
@[simp] theorem count_cycle (s : State) (a n : Nat) : (s.count a n).cycle = s.cycle := rfl
@[simp] theorem count_freeCtr (s : State) (a n : Nat) : (s.count a n).freeCtr = s.freeCtr := rfl
@[simp] theorem count_out (s : State) (a n : Nat) : (s.count a n).out = s.out := rfl
@[simp] theorem count_regs (s : State) (a n : Nat) : (s.count a n).regs = s.regs := rfl
@[simp] theorem count_rwvB (s : State) (a n : Nat) : (s.count a n).rwvB = s.rwvB := rfl
@[simp] theorem count_rwvC (s : State) (a n : Nat) : (s.count a n).rwvC = s.rwvC := rfl
@[simp] theorem count_sweptAt (s : State) (a n : Nat) : (s.count a n).sweptAt = s.sweptAt := rfl
@[simp] theorem count_latch (s : State) (a n : Nat) : (s.count a n).latch = s.latch := rfl
@[simp] theorem count_mem (s : State) (a n : Nat) : (s.count a n).mem = s.mem := rfl
@[simp] theorem count_poison (s : State) (a n : Nat) : (s.count a n).poison = s.poison := rfl
@[simp] theorem count_sql (s : State) (a n : Nat) : (s.count a n).sql = s.sql := rfl
@[simp] theorem count_islands (s : State) (a n : Nat) : (s.count a n).islands = s.islands := rfl
@[simp] theorem count_early (s : State) (a n : Nat) : (s.count a n).early = s.early := rfl
@[simp] theorem count_bells (s : State) (a n : Nat) : (s.count a n).bells = s.bells := rfl
@[simp] theorem count_deviceFatal (s : State) (a n : Nat) : (s.count a n).deviceFatal = s.deviceFatal := rfl
@[simp] theorem count_fns (s : State) (a n : Nat) : (s.count a n).fns = s.fns := rfl
@[simp] theorem count_bpm (s : State) (a n : Nat) : (s.count a n).bpm = s.bpm := rfl
@[simp] theorem count_queues (s : State) (a n : Nat) : (s.count a n).queues = s.queues := rfl
@[simp] theorem count_egress (s : State) (a n : Nat) : (s.count a n).egress = s.egress := rfl
@[simp] theorem count_gates (s : State) (a n : Nat) : (s.count a n).gates = s.gates := rfl
@[simp] theorem count_time (s : State) (a n : Nat) : (s.count a n).time = s.time := rfl
@[simp] theorem count_rly (s : State) (a n : Nat) : (s.count a n).rly = s.rly := rfl
@[simp] theorem count_ageZero (s : State) (a n : Nat) : (s.count a n).ageZero = s.ageZero := rfl
@[simp] theorem count_mxm (s : State) (a n : Nat) : (s.count a n).mxm = s.mxm := rfl
@[simp] theorem count_fw (s : State) (a n : Nat) : (s.count a n).fw = s.fw := rfl
@[simp] theorem count_gul (s : State) (a n : Nat) : (s.count a n).gul = s.gul := rfl
@[simp] theorem count_boot (s : State) (a n : Nat) : (s.count a n).boot = s.boot := rfl
@[simp] theorem count_sdg (s : State) (a n : Nat) : (s.count a n).sdg = s.sdg := rfl
@[simp] theorem count_cpx (s : State) (a n : Nat) : (s.count a n).cpx = s.cpx := rfl
@[simp] theorem count_holders (s : State) (a n : Nat) : (s.count a n).holders = s.holders := rfl
@[simp] theorem count_trk (s : State) (a n : Nat) : (s.count a n).trk = s.trk := rfl
@[simp] theorem count_hts (s : State) (a n : Nat) : (s.count a n).hts = s.hts := rfl
@[simp] theorem count_upd (s : State) (a n : Nat) : (s.count a n).upd = s.upd := rfl
@[simp] theorem count_kernelClass (s : State) (a n : Nat) : (s.count a n).kernelClass = s.kernelClass := rfl
@[simp] theorem count_hbm (s : State) (a n : Nat) : (s.count a n).hbm = s.hbm := rfl
@[simp] theorem count_vdes (s : State) (a n : Nat) : (s.count a n).vdes = s.vdes := rfl
@[simp] theorem count_codecs (s : State) (a n : Nat) : (s.count a n).codecs = s.codecs := rfl
@[simp] theorem count_injected (s : State) (a n : Nat) : (s.count a n).injected = s.injected := rfl
@[simp] theorem count_cmps (s : State) (a n : Nat) : (s.count a n).cmps = s.cmps := rfl
@[simp] theorem count_subs (s : State) (a n : Nat) : (s.count a n).subs = s.subs := rfl
@[simp] theorem count_cpls (s : State) (a n : Nat) : (s.count a n).cpls = s.cpls := rfl
@[simp] theorem count_hostGrants (s : State) (a n : Nat) : (s.count a n).hostGrants = s.hostGrants := rfl
@[simp] theorem count_mbx (s : State) (a n : Nat) : (s.count a n).mbx = s.mbx := rfl
@[simp] theorem count_vees (s : State) (a n : Nat) : (s.count a n).vees = s.vees := rfl
@[simp] theorem count_encs (s : State) (a n : Nat) : (s.count a n).encs = s.encs := rfl
@[simp] theorem count_tsp (s : State) (a n : Nat) : (s.count a n).tsp = s.tsp := rfl
@[simp] theorem count_objNum (s : State) (a n : Nat) : (s.count a n).objNum = s.objNum := rfl
@[simp] theorem count_objOct (s : State) (a n : Nat) : (s.count a n).objOct = s.objOct := rfl
@[simp] theorem count_dsp (s : State) (a n : Nat) : (s.count a n).dsp = s.dsp := rfl
@[simp] theorem count_dspShared (s : State) (a n : Nat) : (s.count a n).dspShared = s.dspShared := rfl
@[simp] theorem count_pads (s : State) (a n : Nat) : (s.count a n).pads = s.pads := rfl
@[simp] theorem count_reg_read (s : State) (a n : Nat) (p : Nat) : (s.count a n).reg p = s.reg p := rfl
@[simp] theorem count_get_read (s : State) (a n : Nat) (g : Fld) : (s.count a n).get g = s.get g := rfl
@[simp] theorem count_isSet_read (s : State) (a n : Nat) (g : Fld) : (s.count a n).isSet g = s.isSet g := rfl
@[simp] theorem count_pair_read (s : State) (a n : Nat) (g g₂ : Fld) : (s.count a n).pair g g₂ = s.pair g g₂ := rfl
@[simp] theorem count_isFenced_read (s : State) (a n : Nat) (p q : Nat) : (s.count a n).isFenced p q = s.isFenced p q := rfl
@[simp] theorem count_obj_read (s : State) (a n : Nat) (p q r : Nat) : (s.count a n).obj p q r = s.obj p q r := rfl
@[simp] theorem count_octets_read (s : State) (a n : Nat) (p q : Nat) : (s.count a n).octets p q = s.octets p q := rfl
@[simp] theorem count_byte_read (s : State) (a n : Nat) (p : Nat) : (s.count a n).byte p = s.byte p := rfl
@[simp] theorem count_bytes_read (s : State) (a n : Nat) (p q : Nat) : (s.count a n).bytes p q = s.bytes p q := rfl
@[simp] theorem count_le_read (s : State) (a n : Nat) (p q : Nat) : (s.count a n).le p q = s.le p q := rfl
@[simp] theorem count_marked_read (s : State) (a n : Nat) (p : Nat) : (s.count a n).marked p = s.marked p := rfl
@[simp] theorem count_island_read (s : State) (a n : Nat) (p : Nat) : (s.count a n).island p = s.island p := rfl
@[simp] theorem count_fn_read (s : State) (a n : Nat) (p : Nat) : (s.count a n).fn p = s.fn p := rfl
@[simp] theorem count_time64_read (s : State) (a n : Nat) : (s.count a n).time64 = s.time64 := rfl
@[simp] theorem count_core_read (s : State) (a n : Nat) (p : Nat) : (s.count a n).core p = s.core p := rfl
@[simp] theorem count_taskAt_read (s : State) (a n : Nat) (p : Nat) : (s.count a n).taskAt p = s.taskAt p := rfl
@[simp] theorem count_free_read (s : State) (a n : Nat) (p : Nat) : (s.count a n).free p = s.free p := rfl

/-! ### setCounter -/

@[simp] theorem setCounter_pending (s : State) (a v : Nat) : (s.setCounter a v).pending = s.pending := rfl
@[simp] theorem setCounter_cycle (s : State) (a v : Nat) : (s.setCounter a v).cycle = s.cycle := rfl
@[simp] theorem setCounter_freeCtr (s : State) (a v : Nat) : (s.setCounter a v).freeCtr = s.freeCtr := rfl
@[simp] theorem setCounter_out (s : State) (a v : Nat) : (s.setCounter a v).out = s.out := rfl
@[simp] theorem setCounter_regs (s : State) (a v : Nat) : (s.setCounter a v).regs = s.regs := rfl
@[simp] theorem setCounter_rwvB (s : State) (a v : Nat) : (s.setCounter a v).rwvB = s.rwvB := rfl
@[simp] theorem setCounter_rwvC (s : State) (a v : Nat) : (s.setCounter a v).rwvC = s.rwvC := rfl
@[simp] theorem setCounter_sweptAt (s : State) (a v : Nat) : (s.setCounter a v).sweptAt = s.sweptAt := rfl
@[simp] theorem setCounter_latch (s : State) (a v : Nat) : (s.setCounter a v).latch = s.latch := rfl
@[simp] theorem setCounter_mem (s : State) (a v : Nat) : (s.setCounter a v).mem = s.mem := rfl
@[simp] theorem setCounter_poison (s : State) (a v : Nat) : (s.setCounter a v).poison = s.poison := rfl
@[simp] theorem setCounter_sql (s : State) (a v : Nat) : (s.setCounter a v).sql = s.sql := rfl
@[simp] theorem setCounter_islands (s : State) (a v : Nat) : (s.setCounter a v).islands = s.islands := rfl
@[simp] theorem setCounter_early (s : State) (a v : Nat) : (s.setCounter a v).early = s.early := rfl
@[simp] theorem setCounter_bells (s : State) (a v : Nat) : (s.setCounter a v).bells = s.bells := rfl
@[simp] theorem setCounter_deviceFatal (s : State) (a v : Nat) : (s.setCounter a v).deviceFatal = s.deviceFatal := rfl
@[simp] theorem setCounter_fns (s : State) (a v : Nat) : (s.setCounter a v).fns = s.fns := rfl
@[simp] theorem setCounter_bpm (s : State) (a v : Nat) : (s.setCounter a v).bpm = s.bpm := rfl
@[simp] theorem setCounter_queues (s : State) (a v : Nat) : (s.setCounter a v).queues = s.queues := rfl
@[simp] theorem setCounter_egress (s : State) (a v : Nat) : (s.setCounter a v).egress = s.egress := rfl
@[simp] theorem setCounter_gates (s : State) (a v : Nat) : (s.setCounter a v).gates = s.gates := rfl
@[simp] theorem setCounter_time (s : State) (a v : Nat) : (s.setCounter a v).time = s.time := rfl
@[simp] theorem setCounter_rly (s : State) (a v : Nat) : (s.setCounter a v).rly = s.rly := rfl
@[simp] theorem setCounter_ageZero (s : State) (a v : Nat) : (s.setCounter a v).ageZero = s.ageZero := rfl
@[simp] theorem setCounter_mxm (s : State) (a v : Nat) : (s.setCounter a v).mxm = s.mxm := rfl
@[simp] theorem setCounter_fw (s : State) (a v : Nat) : (s.setCounter a v).fw = s.fw := rfl
@[simp] theorem setCounter_gul (s : State) (a v : Nat) : (s.setCounter a v).gul = s.gul := rfl
@[simp] theorem setCounter_boot (s : State) (a v : Nat) : (s.setCounter a v).boot = s.boot := rfl
@[simp] theorem setCounter_sdg (s : State) (a v : Nat) : (s.setCounter a v).sdg = s.sdg := rfl
@[simp] theorem setCounter_cpx (s : State) (a v : Nat) : (s.setCounter a v).cpx = s.cpx := rfl
@[simp] theorem setCounter_holders (s : State) (a v : Nat) : (s.setCounter a v).holders = s.holders := rfl
@[simp] theorem setCounter_trk (s : State) (a v : Nat) : (s.setCounter a v).trk = s.trk := rfl
@[simp] theorem setCounter_hts (s : State) (a v : Nat) : (s.setCounter a v).hts = s.hts := rfl
@[simp] theorem setCounter_upd (s : State) (a v : Nat) : (s.setCounter a v).upd = s.upd := rfl
@[simp] theorem setCounter_kernelClass (s : State) (a v : Nat) : (s.setCounter a v).kernelClass = s.kernelClass := rfl
@[simp] theorem setCounter_hbm (s : State) (a v : Nat) : (s.setCounter a v).hbm = s.hbm := rfl
@[simp] theorem setCounter_vdes (s : State) (a v : Nat) : (s.setCounter a v).vdes = s.vdes := rfl
@[simp] theorem setCounter_codecs (s : State) (a v : Nat) : (s.setCounter a v).codecs = s.codecs := rfl
@[simp] theorem setCounter_injected (s : State) (a v : Nat) : (s.setCounter a v).injected = s.injected := rfl
@[simp] theorem setCounter_cmps (s : State) (a v : Nat) : (s.setCounter a v).cmps = s.cmps := rfl
@[simp] theorem setCounter_subs (s : State) (a v : Nat) : (s.setCounter a v).subs = s.subs := rfl
@[simp] theorem setCounter_cpls (s : State) (a v : Nat) : (s.setCounter a v).cpls = s.cpls := rfl
@[simp] theorem setCounter_hostGrants (s : State) (a v : Nat) : (s.setCounter a v).hostGrants = s.hostGrants := rfl
@[simp] theorem setCounter_mbx (s : State) (a v : Nat) : (s.setCounter a v).mbx = s.mbx := rfl
@[simp] theorem setCounter_vees (s : State) (a v : Nat) : (s.setCounter a v).vees = s.vees := rfl
@[simp] theorem setCounter_encs (s : State) (a v : Nat) : (s.setCounter a v).encs = s.encs := rfl
@[simp] theorem setCounter_tsp (s : State) (a v : Nat) : (s.setCounter a v).tsp = s.tsp := rfl
@[simp] theorem setCounter_objNum (s : State) (a v : Nat) : (s.setCounter a v).objNum = s.objNum := rfl
@[simp] theorem setCounter_objOct (s : State) (a v : Nat) : (s.setCounter a v).objOct = s.objOct := rfl
@[simp] theorem setCounter_dsp (s : State) (a v : Nat) : (s.setCounter a v).dsp = s.dsp := rfl
@[simp] theorem setCounter_dspShared (s : State) (a v : Nat) : (s.setCounter a v).dspShared = s.dspShared := rfl
@[simp] theorem setCounter_pads (s : State) (a v : Nat) : (s.setCounter a v).pads = s.pads := rfl
@[simp] theorem setCounter_reg_read (s : State) (a v : Nat) (p : Nat) : (s.setCounter a v).reg p = s.reg p := rfl
@[simp] theorem setCounter_get_read (s : State) (a v : Nat) (g : Fld) : (s.setCounter a v).get g = s.get g := rfl
@[simp] theorem setCounter_isSet_read (s : State) (a v : Nat) (g : Fld) : (s.setCounter a v).isSet g = s.isSet g := rfl
@[simp] theorem setCounter_pair_read (s : State) (a v : Nat) (g g₂ : Fld) : (s.setCounter a v).pair g g₂ = s.pair g g₂ := rfl
@[simp] theorem setCounter_isFenced_read (s : State) (a v : Nat) (p q : Nat) : (s.setCounter a v).isFenced p q = s.isFenced p q := rfl
@[simp] theorem setCounter_obj_read (s : State) (a v : Nat) (p q r : Nat) : (s.setCounter a v).obj p q r = s.obj p q r := rfl
@[simp] theorem setCounter_octets_read (s : State) (a v : Nat) (p q : Nat) : (s.setCounter a v).octets p q = s.octets p q := rfl
@[simp] theorem setCounter_byte_read (s : State) (a v : Nat) (p : Nat) : (s.setCounter a v).byte p = s.byte p := rfl
@[simp] theorem setCounter_bytes_read (s : State) (a v : Nat) (p q : Nat) : (s.setCounter a v).bytes p q = s.bytes p q := rfl
@[simp] theorem setCounter_le_read (s : State) (a v : Nat) (p q : Nat) : (s.setCounter a v).le p q = s.le p q := rfl
@[simp] theorem setCounter_marked_read (s : State) (a v : Nat) (p : Nat) : (s.setCounter a v).marked p = s.marked p := rfl
@[simp] theorem setCounter_island_read (s : State) (a v : Nat) (p : Nat) : (s.setCounter a v).island p = s.island p := rfl
@[simp] theorem setCounter_fn_read (s : State) (a v : Nat) (p : Nat) : (s.setCounter a v).fn p = s.fn p := rfl
@[simp] theorem setCounter_time64_read (s : State) (a v : Nat) : (s.setCounter a v).time64 = s.time64 := rfl
@[simp] theorem setCounter_core_read (s : State) (a v : Nat) (p : Nat) : (s.setCounter a v).core p = s.core p := rfl
@[simp] theorem setCounter_taskAt_read (s : State) (a v : Nat) (p : Nat) : (s.setCounter a v).taskAt p = s.taskAt p := rfl
@[simp] theorem setCounter_free_read (s : State) (a v : Nat) (p : Nat) : (s.setCounter a v).free p = s.free p := rfl

/-! ### emit -/

@[simp] theorem emit_pending (s : State) (o : Output) : (s.emit o).pending = s.pending := rfl
@[simp] theorem emit_cycle (s : State) (o : Output) : (s.emit o).cycle = s.cycle := rfl
@[simp] theorem emit_freeCtr (s : State) (o : Output) : (s.emit o).freeCtr = s.freeCtr := rfl
@[simp] theorem emit_regs (s : State) (o : Output) : (s.emit o).regs = s.regs := rfl
@[simp] theorem emit_rwvB (s : State) (o : Output) : (s.emit o).rwvB = s.rwvB := rfl
@[simp] theorem emit_rwvC (s : State) (o : Output) : (s.emit o).rwvC = s.rwvC := rfl
@[simp] theorem emit_sweptAt (s : State) (o : Output) : (s.emit o).sweptAt = s.sweptAt := rfl
@[simp] theorem emit_ctr (s : State) (o : Output) : (s.emit o).ctr = s.ctr := rfl
@[simp] theorem emit_latch (s : State) (o : Output) : (s.emit o).latch = s.latch := rfl
@[simp] theorem emit_mem (s : State) (o : Output) : (s.emit o).mem = s.mem := rfl
@[simp] theorem emit_poison (s : State) (o : Output) : (s.emit o).poison = s.poison := rfl
@[simp] theorem emit_sql (s : State) (o : Output) : (s.emit o).sql = s.sql := rfl
@[simp] theorem emit_islands (s : State) (o : Output) : (s.emit o).islands = s.islands := rfl
@[simp] theorem emit_early (s : State) (o : Output) : (s.emit o).early = s.early := rfl
@[simp] theorem emit_bells (s : State) (o : Output) : (s.emit o).bells = s.bells := rfl
@[simp] theorem emit_deviceFatal (s : State) (o : Output) : (s.emit o).deviceFatal = s.deviceFatal := rfl
@[simp] theorem emit_fns (s : State) (o : Output) : (s.emit o).fns = s.fns := rfl
@[simp] theorem emit_bpm (s : State) (o : Output) : (s.emit o).bpm = s.bpm := rfl
@[simp] theorem emit_queues (s : State) (o : Output) : (s.emit o).queues = s.queues := rfl
@[simp] theorem emit_egress (s : State) (o : Output) : (s.emit o).egress = s.egress := rfl
@[simp] theorem emit_gates (s : State) (o : Output) : (s.emit o).gates = s.gates := rfl
@[simp] theorem emit_time (s : State) (o : Output) : (s.emit o).time = s.time := rfl
@[simp] theorem emit_rly (s : State) (o : Output) : (s.emit o).rly = s.rly := rfl
@[simp] theorem emit_ageZero (s : State) (o : Output) : (s.emit o).ageZero = s.ageZero := rfl
@[simp] theorem emit_mxm (s : State) (o : Output) : (s.emit o).mxm = s.mxm := rfl
@[simp] theorem emit_fw (s : State) (o : Output) : (s.emit o).fw = s.fw := rfl
@[simp] theorem emit_gul (s : State) (o : Output) : (s.emit o).gul = s.gul := rfl
@[simp] theorem emit_boot (s : State) (o : Output) : (s.emit o).boot = s.boot := rfl
@[simp] theorem emit_sdg (s : State) (o : Output) : (s.emit o).sdg = s.sdg := rfl
@[simp] theorem emit_cpx (s : State) (o : Output) : (s.emit o).cpx = s.cpx := rfl
@[simp] theorem emit_holders (s : State) (o : Output) : (s.emit o).holders = s.holders := rfl
@[simp] theorem emit_trk (s : State) (o : Output) : (s.emit o).trk = s.trk := rfl
@[simp] theorem emit_hts (s : State) (o : Output) : (s.emit o).hts = s.hts := rfl
@[simp] theorem emit_upd (s : State) (o : Output) : (s.emit o).upd = s.upd := rfl
@[simp] theorem emit_kernelClass (s : State) (o : Output) : (s.emit o).kernelClass = s.kernelClass := rfl
@[simp] theorem emit_hbm (s : State) (o : Output) : (s.emit o).hbm = s.hbm := rfl
@[simp] theorem emit_vdes (s : State) (o : Output) : (s.emit o).vdes = s.vdes := rfl
@[simp] theorem emit_codecs (s : State) (o : Output) : (s.emit o).codecs = s.codecs := rfl
@[simp] theorem emit_injected (s : State) (o : Output) : (s.emit o).injected = s.injected := rfl
@[simp] theorem emit_cmps (s : State) (o : Output) : (s.emit o).cmps = s.cmps := rfl
@[simp] theorem emit_subs (s : State) (o : Output) : (s.emit o).subs = s.subs := rfl
@[simp] theorem emit_cpls (s : State) (o : Output) : (s.emit o).cpls = s.cpls := rfl
@[simp] theorem emit_hostGrants (s : State) (o : Output) : (s.emit o).hostGrants = s.hostGrants := rfl
@[simp] theorem emit_mbx (s : State) (o : Output) : (s.emit o).mbx = s.mbx := rfl
@[simp] theorem emit_vees (s : State) (o : Output) : (s.emit o).vees = s.vees := rfl
@[simp] theorem emit_encs (s : State) (o : Output) : (s.emit o).encs = s.encs := rfl
@[simp] theorem emit_tsp (s : State) (o : Output) : (s.emit o).tsp = s.tsp := rfl
@[simp] theorem emit_objNum (s : State) (o : Output) : (s.emit o).objNum = s.objNum := rfl
@[simp] theorem emit_objOct (s : State) (o : Output) : (s.emit o).objOct = s.objOct := rfl
@[simp] theorem emit_dsp (s : State) (o : Output) : (s.emit o).dsp = s.dsp := rfl
@[simp] theorem emit_dspShared (s : State) (o : Output) : (s.emit o).dspShared = s.dspShared := rfl
@[simp] theorem emit_pads (s : State) (o : Output) : (s.emit o).pads = s.pads := rfl
@[simp] theorem emit_reg_read (s : State) (o : Output) (p : Nat) : (s.emit o).reg p = s.reg p := rfl
@[simp] theorem emit_get_read (s : State) (o : Output) (g : Fld) : (s.emit o).get g = s.get g := rfl
@[simp] theorem emit_isSet_read (s : State) (o : Output) (g : Fld) : (s.emit o).isSet g = s.isSet g := rfl
@[simp] theorem emit_pair_read (s : State) (o : Output) (g g₂ : Fld) : (s.emit o).pair g g₂ = s.pair g g₂ := rfl
@[simp] theorem emit_isFenced_read (s : State) (o : Output) (p q : Nat) : (s.emit o).isFenced p q = s.isFenced p q := rfl
@[simp] theorem emit_counter_read (s : State) (o : Output) (p : Nat) : (s.emit o).counter p = s.counter p := rfl
@[simp] theorem emit_obj_read (s : State) (o : Output) (p q r : Nat) : (s.emit o).obj p q r = s.obj p q r := rfl
@[simp] theorem emit_octets_read (s : State) (o : Output) (p q : Nat) : (s.emit o).octets p q = s.octets p q := rfl
@[simp] theorem emit_byte_read (s : State) (o : Output) (p : Nat) : (s.emit o).byte p = s.byte p := rfl
@[simp] theorem emit_bytes_read (s : State) (o : Output) (p q : Nat) : (s.emit o).bytes p q = s.bytes p q := rfl
@[simp] theorem emit_le_read (s : State) (o : Output) (p q : Nat) : (s.emit o).le p q = s.le p q := rfl
@[simp] theorem emit_marked_read (s : State) (o : Output) (p : Nat) : (s.emit o).marked p = s.marked p := rfl
@[simp] theorem emit_island_read (s : State) (o : Output) (p : Nat) : (s.emit o).island p = s.island p := rfl
@[simp] theorem emit_fn_read (s : State) (o : Output) (p : Nat) : (s.emit o).fn p = s.fn p := rfl
@[simp] theorem emit_time64_read (s : State) (o : Output) : (s.emit o).time64 = s.time64 := rfl
@[simp] theorem emit_core_read (s : State) (o : Output) (p : Nat) : (s.emit o).core p = s.core p := rfl
@[simp] theorem emit_taskAt_read (s : State) (o : Output) (p : Nat) : (s.emit o).taskAt p = s.taskAt p := rfl
@[simp] theorem emit_free_read (s : State) (o : Output) (p : Nat) : (s.emit o).free p = s.free p := rfl

/-! ### emitAll -/

@[simp] theorem emitAll_pending (s : State) (os : List Output) : (s.emitAll os).pending = s.pending := rfl
@[simp] theorem emitAll_cycle (s : State) (os : List Output) : (s.emitAll os).cycle = s.cycle := rfl
@[simp] theorem emitAll_freeCtr (s : State) (os : List Output) : (s.emitAll os).freeCtr = s.freeCtr := rfl
@[simp] theorem emitAll_regs (s : State) (os : List Output) : (s.emitAll os).regs = s.regs := rfl
@[simp] theorem emitAll_rwvB (s : State) (os : List Output) : (s.emitAll os).rwvB = s.rwvB := rfl
@[simp] theorem emitAll_rwvC (s : State) (os : List Output) : (s.emitAll os).rwvC = s.rwvC := rfl
@[simp] theorem emitAll_sweptAt (s : State) (os : List Output) : (s.emitAll os).sweptAt = s.sweptAt := rfl
@[simp] theorem emitAll_ctr (s : State) (os : List Output) : (s.emitAll os).ctr = s.ctr := rfl
@[simp] theorem emitAll_latch (s : State) (os : List Output) : (s.emitAll os).latch = s.latch := rfl
@[simp] theorem emitAll_mem (s : State) (os : List Output) : (s.emitAll os).mem = s.mem := rfl
@[simp] theorem emitAll_poison (s : State) (os : List Output) : (s.emitAll os).poison = s.poison := rfl
@[simp] theorem emitAll_sql (s : State) (os : List Output) : (s.emitAll os).sql = s.sql := rfl
@[simp] theorem emitAll_islands (s : State) (os : List Output) : (s.emitAll os).islands = s.islands := rfl
@[simp] theorem emitAll_early (s : State) (os : List Output) : (s.emitAll os).early = s.early := rfl
@[simp] theorem emitAll_bells (s : State) (os : List Output) : (s.emitAll os).bells = s.bells := rfl
@[simp] theorem emitAll_deviceFatal (s : State) (os : List Output) : (s.emitAll os).deviceFatal = s.deviceFatal := rfl
@[simp] theorem emitAll_fns (s : State) (os : List Output) : (s.emitAll os).fns = s.fns := rfl
@[simp] theorem emitAll_bpm (s : State) (os : List Output) : (s.emitAll os).bpm = s.bpm := rfl
@[simp] theorem emitAll_queues (s : State) (os : List Output) : (s.emitAll os).queues = s.queues := rfl
@[simp] theorem emitAll_egress (s : State) (os : List Output) : (s.emitAll os).egress = s.egress := rfl
@[simp] theorem emitAll_gates (s : State) (os : List Output) : (s.emitAll os).gates = s.gates := rfl
@[simp] theorem emitAll_time (s : State) (os : List Output) : (s.emitAll os).time = s.time := rfl
@[simp] theorem emitAll_rly (s : State) (os : List Output) : (s.emitAll os).rly = s.rly := rfl
@[simp] theorem emitAll_ageZero (s : State) (os : List Output) : (s.emitAll os).ageZero = s.ageZero := rfl
@[simp] theorem emitAll_mxm (s : State) (os : List Output) : (s.emitAll os).mxm = s.mxm := rfl
@[simp] theorem emitAll_fw (s : State) (os : List Output) : (s.emitAll os).fw = s.fw := rfl
@[simp] theorem emitAll_gul (s : State) (os : List Output) : (s.emitAll os).gul = s.gul := rfl
@[simp] theorem emitAll_boot (s : State) (os : List Output) : (s.emitAll os).boot = s.boot := rfl
@[simp] theorem emitAll_sdg (s : State) (os : List Output) : (s.emitAll os).sdg = s.sdg := rfl
@[simp] theorem emitAll_cpx (s : State) (os : List Output) : (s.emitAll os).cpx = s.cpx := rfl
@[simp] theorem emitAll_holders (s : State) (os : List Output) : (s.emitAll os).holders = s.holders := rfl
@[simp] theorem emitAll_trk (s : State) (os : List Output) : (s.emitAll os).trk = s.trk := rfl
@[simp] theorem emitAll_hts (s : State) (os : List Output) : (s.emitAll os).hts = s.hts := rfl
@[simp] theorem emitAll_upd (s : State) (os : List Output) : (s.emitAll os).upd = s.upd := rfl
@[simp] theorem emitAll_kernelClass (s : State) (os : List Output) : (s.emitAll os).kernelClass = s.kernelClass := rfl
@[simp] theorem emitAll_hbm (s : State) (os : List Output) : (s.emitAll os).hbm = s.hbm := rfl
@[simp] theorem emitAll_vdes (s : State) (os : List Output) : (s.emitAll os).vdes = s.vdes := rfl
@[simp] theorem emitAll_codecs (s : State) (os : List Output) : (s.emitAll os).codecs = s.codecs := rfl
@[simp] theorem emitAll_injected (s : State) (os : List Output) : (s.emitAll os).injected = s.injected := rfl
@[simp] theorem emitAll_cmps (s : State) (os : List Output) : (s.emitAll os).cmps = s.cmps := rfl
@[simp] theorem emitAll_subs (s : State) (os : List Output) : (s.emitAll os).subs = s.subs := rfl
@[simp] theorem emitAll_cpls (s : State) (os : List Output) : (s.emitAll os).cpls = s.cpls := rfl
@[simp] theorem emitAll_hostGrants (s : State) (os : List Output) : (s.emitAll os).hostGrants = s.hostGrants := rfl
@[simp] theorem emitAll_mbx (s : State) (os : List Output) : (s.emitAll os).mbx = s.mbx := rfl
@[simp] theorem emitAll_vees (s : State) (os : List Output) : (s.emitAll os).vees = s.vees := rfl
@[simp] theorem emitAll_encs (s : State) (os : List Output) : (s.emitAll os).encs = s.encs := rfl
@[simp] theorem emitAll_tsp (s : State) (os : List Output) : (s.emitAll os).tsp = s.tsp := rfl
@[simp] theorem emitAll_objNum (s : State) (os : List Output) : (s.emitAll os).objNum = s.objNum := rfl
@[simp] theorem emitAll_objOct (s : State) (os : List Output) : (s.emitAll os).objOct = s.objOct := rfl
@[simp] theorem emitAll_dsp (s : State) (os : List Output) : (s.emitAll os).dsp = s.dsp := rfl
@[simp] theorem emitAll_dspShared (s : State) (os : List Output) : (s.emitAll os).dspShared = s.dspShared := rfl
@[simp] theorem emitAll_pads (s : State) (os : List Output) : (s.emitAll os).pads = s.pads := rfl
@[simp] theorem emitAll_reg_read (s : State) (os : List Output) (p : Nat) : (s.emitAll os).reg p = s.reg p := rfl
@[simp] theorem emitAll_get_read (s : State) (os : List Output) (g : Fld) : (s.emitAll os).get g = s.get g := rfl
@[simp] theorem emitAll_isSet_read (s : State) (os : List Output) (g : Fld) : (s.emitAll os).isSet g = s.isSet g := rfl
@[simp] theorem emitAll_pair_read (s : State) (os : List Output) (g g₂ : Fld) : (s.emitAll os).pair g g₂ = s.pair g g₂ := rfl
@[simp] theorem emitAll_isFenced_read (s : State) (os : List Output) (p q : Nat) : (s.emitAll os).isFenced p q = s.isFenced p q := rfl
@[simp] theorem emitAll_counter_read (s : State) (os : List Output) (p : Nat) : (s.emitAll os).counter p = s.counter p := rfl
@[simp] theorem emitAll_obj_read (s : State) (os : List Output) (p q r : Nat) : (s.emitAll os).obj p q r = s.obj p q r := rfl
@[simp] theorem emitAll_octets_read (s : State) (os : List Output) (p q : Nat) : (s.emitAll os).octets p q = s.octets p q := rfl
@[simp] theorem emitAll_byte_read (s : State) (os : List Output) (p : Nat) : (s.emitAll os).byte p = s.byte p := rfl
@[simp] theorem emitAll_bytes_read (s : State) (os : List Output) (p q : Nat) : (s.emitAll os).bytes p q = s.bytes p q := rfl
@[simp] theorem emitAll_le_read (s : State) (os : List Output) (p q : Nat) : (s.emitAll os).le p q = s.le p q := rfl
@[simp] theorem emitAll_marked_read (s : State) (os : List Output) (p : Nat) : (s.emitAll os).marked p = s.marked p := rfl
@[simp] theorem emitAll_island_read (s : State) (os : List Output) (p : Nat) : (s.emitAll os).island p = s.island p := rfl
@[simp] theorem emitAll_fn_read (s : State) (os : List Output) (p : Nat) : (s.emitAll os).fn p = s.fn p := rfl
@[simp] theorem emitAll_time64_read (s : State) (os : List Output) : (s.emitAll os).time64 = s.time64 := rfl
@[simp] theorem emitAll_core_read (s : State) (os : List Output) (p : Nat) : (s.emitAll os).core p = s.core p := rfl
@[simp] theorem emitAll_taskAt_read (s : State) (os : List Output) (p : Nat) : (s.emitAll os).taskAt p = s.taskAt p := rfl
@[simp] theorem emitAll_free_read (s : State) (os : List Output) (p : Nat) : (s.emitAll os).free p = s.free p := rfl

/-! ### spent -/

@[simp] theorem spent_pending (s : State) : s.spent.pending = s.pending := rfl
@[simp] theorem spent_cycle (s : State) : s.spent.cycle = s.cycle := rfl
@[simp] theorem spent_out (s : State) : s.spent.out = s.out := rfl
@[simp] theorem spent_regs (s : State) : s.spent.regs = s.regs := rfl
@[simp] theorem spent_rwvB (s : State) : s.spent.rwvB = s.rwvB := rfl
@[simp] theorem spent_rwvC (s : State) : s.spent.rwvC = s.rwvC := rfl
@[simp] theorem spent_sweptAt (s : State) : s.spent.sweptAt = s.sweptAt := rfl
@[simp] theorem spent_ctr (s : State) : s.spent.ctr = s.ctr := rfl
@[simp] theorem spent_latch (s : State) : s.spent.latch = s.latch := rfl
@[simp] theorem spent_mem (s : State) : s.spent.mem = s.mem := rfl
@[simp] theorem spent_poison (s : State) : s.spent.poison = s.poison := rfl
@[simp] theorem spent_sql (s : State) : s.spent.sql = s.sql := rfl
@[simp] theorem spent_islands (s : State) : s.spent.islands = s.islands := rfl
@[simp] theorem spent_early (s : State) : s.spent.early = s.early := rfl
@[simp] theorem spent_bells (s : State) : s.spent.bells = s.bells := rfl
@[simp] theorem spent_deviceFatal (s : State) : s.spent.deviceFatal = s.deviceFatal := rfl
@[simp] theorem spent_fns (s : State) : s.spent.fns = s.fns := rfl
@[simp] theorem spent_bpm (s : State) : s.spent.bpm = s.bpm := rfl
@[simp] theorem spent_queues (s : State) : s.spent.queues = s.queues := rfl
@[simp] theorem spent_egress (s : State) : s.spent.egress = s.egress := rfl
@[simp] theorem spent_gates (s : State) : s.spent.gates = s.gates := rfl
@[simp] theorem spent_time (s : State) : s.spent.time = s.time := rfl
@[simp] theorem spent_rly (s : State) : s.spent.rly = s.rly := rfl
@[simp] theorem spent_ageZero (s : State) : s.spent.ageZero = s.ageZero := rfl
@[simp] theorem spent_mxm (s : State) : s.spent.mxm = s.mxm := rfl
@[simp] theorem spent_fw (s : State) : s.spent.fw = s.fw := rfl
@[simp] theorem spent_gul (s : State) : s.spent.gul = s.gul := rfl
@[simp] theorem spent_boot (s : State) : s.spent.boot = s.boot := rfl
@[simp] theorem spent_sdg (s : State) : s.spent.sdg = s.sdg := rfl
@[simp] theorem spent_cpx (s : State) : s.spent.cpx = s.cpx := rfl
@[simp] theorem spent_holders (s : State) : s.spent.holders = s.holders := rfl
@[simp] theorem spent_trk (s : State) : s.spent.trk = s.trk := rfl
@[simp] theorem spent_hts (s : State) : s.spent.hts = s.hts := rfl
@[simp] theorem spent_upd (s : State) : s.spent.upd = s.upd := rfl
@[simp] theorem spent_kernelClass (s : State) : s.spent.kernelClass = s.kernelClass := rfl
@[simp] theorem spent_hbm (s : State) : s.spent.hbm = s.hbm := rfl
@[simp] theorem spent_vdes (s : State) : s.spent.vdes = s.vdes := rfl
@[simp] theorem spent_codecs (s : State) : s.spent.codecs = s.codecs := rfl
@[simp] theorem spent_injected (s : State) : s.spent.injected = s.injected := rfl
@[simp] theorem spent_cmps (s : State) : s.spent.cmps = s.cmps := rfl
@[simp] theorem spent_subs (s : State) : s.spent.subs = s.subs := rfl
@[simp] theorem spent_cpls (s : State) : s.spent.cpls = s.cpls := rfl
@[simp] theorem spent_hostGrants (s : State) : s.spent.hostGrants = s.hostGrants := rfl
@[simp] theorem spent_mbx (s : State) : s.spent.mbx = s.mbx := rfl
@[simp] theorem spent_vees (s : State) : s.spent.vees = s.vees := rfl
@[simp] theorem spent_encs (s : State) : s.spent.encs = s.encs := rfl
@[simp] theorem spent_tsp (s : State) : s.spent.tsp = s.tsp := rfl
@[simp] theorem spent_objNum (s : State) : s.spent.objNum = s.objNum := rfl
@[simp] theorem spent_objOct (s : State) : s.spent.objOct = s.objOct := rfl
@[simp] theorem spent_dsp (s : State) : s.spent.dsp = s.dsp := rfl
@[simp] theorem spent_dspShared (s : State) : s.spent.dspShared = s.dspShared := rfl
@[simp] theorem spent_pads (s : State) : s.spent.pads = s.pads := rfl
@[simp] theorem spent_reg_read (s : State) (p : Nat) : s.spent.reg p = s.reg p := rfl
@[simp] theorem spent_get_read (s : State) (g : Fld) : s.spent.get g = s.get g := rfl
@[simp] theorem spent_isSet_read (s : State) (g : Fld) : s.spent.isSet g = s.isSet g := rfl
@[simp] theorem spent_pair_read (s : State) (g g₂ : Fld) : s.spent.pair g g₂ = s.pair g g₂ := rfl
@[simp] theorem spent_isFenced_read (s : State) (p q : Nat) : s.spent.isFenced p q = s.isFenced p q := rfl
@[simp] theorem spent_counter_read (s : State) (p : Nat) : s.spent.counter p = s.counter p := rfl
@[simp] theorem spent_obj_read (s : State) (p q r : Nat) : s.spent.obj p q r = s.obj p q r := rfl
@[simp] theorem spent_octets_read (s : State) (p q : Nat) : s.spent.octets p q = s.octets p q := rfl
@[simp] theorem spent_byte_read (s : State) (p : Nat) : s.spent.byte p = s.byte p := rfl
@[simp] theorem spent_bytes_read (s : State) (p q : Nat) : s.spent.bytes p q = s.bytes p q := rfl
@[simp] theorem spent_le_read (s : State) (p q : Nat) : s.spent.le p q = s.le p q := rfl
@[simp] theorem spent_marked_read (s : State) (p : Nat) : s.spent.marked p = s.marked p := rfl
@[simp] theorem spent_island_read (s : State) (p : Nat) : s.spent.island p = s.island p := rfl
@[simp] theorem spent_fn_read (s : State) (p : Nat) : s.spent.fn p = s.fn p := rfl
@[simp] theorem spent_time64_read (s : State) : s.spent.time64 = s.time64 := rfl
@[simp] theorem spent_core_read (s : State) (p : Nat) : s.spent.core p = s.core p := rfl
@[simp] theorem spent_taskAt_read (s : State) (p : Nat) : s.spent.taskAt p = s.taskAt p := rfl

/-! ### setObj -/

@[simp] theorem setObj_pending (s : State) (o i d v : Nat) : (s.setObj o i d v).pending = s.pending := rfl
@[simp] theorem setObj_cycle (s : State) (o i d v : Nat) : (s.setObj o i d v).cycle = s.cycle := rfl
@[simp] theorem setObj_freeCtr (s : State) (o i d v : Nat) : (s.setObj o i d v).freeCtr = s.freeCtr := rfl
@[simp] theorem setObj_out (s : State) (o i d v : Nat) : (s.setObj o i d v).out = s.out := rfl
@[simp] theorem setObj_regs (s : State) (o i d v : Nat) : (s.setObj o i d v).regs = s.regs := rfl
@[simp] theorem setObj_rwvB (s : State) (o i d v : Nat) : (s.setObj o i d v).rwvB = s.rwvB := rfl
@[simp] theorem setObj_rwvC (s : State) (o i d v : Nat) : (s.setObj o i d v).rwvC = s.rwvC := rfl
@[simp] theorem setObj_sweptAt (s : State) (o i d v : Nat) : (s.setObj o i d v).sweptAt = s.sweptAt := rfl
@[simp] theorem setObj_ctr (s : State) (o i d v : Nat) : (s.setObj o i d v).ctr = s.ctr := rfl
@[simp] theorem setObj_latch (s : State) (o i d v : Nat) : (s.setObj o i d v).latch = s.latch := rfl
@[simp] theorem setObj_mem (s : State) (o i d v : Nat) : (s.setObj o i d v).mem = s.mem := rfl
@[simp] theorem setObj_poison (s : State) (o i d v : Nat) : (s.setObj o i d v).poison = s.poison := rfl
@[simp] theorem setObj_sql (s : State) (o i d v : Nat) : (s.setObj o i d v).sql = s.sql := rfl
@[simp] theorem setObj_islands (s : State) (o i d v : Nat) : (s.setObj o i d v).islands = s.islands := rfl
@[simp] theorem setObj_early (s : State) (o i d v : Nat) : (s.setObj o i d v).early = s.early := rfl
@[simp] theorem setObj_bells (s : State) (o i d v : Nat) : (s.setObj o i d v).bells = s.bells := rfl
@[simp] theorem setObj_deviceFatal (s : State) (o i d v : Nat) : (s.setObj o i d v).deviceFatal = s.deviceFatal := rfl
@[simp] theorem setObj_fns (s : State) (o i d v : Nat) : (s.setObj o i d v).fns = s.fns := rfl
@[simp] theorem setObj_bpm (s : State) (o i d v : Nat) : (s.setObj o i d v).bpm = s.bpm := rfl
@[simp] theorem setObj_queues (s : State) (o i d v : Nat) : (s.setObj o i d v).queues = s.queues := rfl
@[simp] theorem setObj_egress (s : State) (o i d v : Nat) : (s.setObj o i d v).egress = s.egress := rfl
@[simp] theorem setObj_gates (s : State) (o i d v : Nat) : (s.setObj o i d v).gates = s.gates := rfl
@[simp] theorem setObj_time (s : State) (o i d v : Nat) : (s.setObj o i d v).time = s.time := rfl
@[simp] theorem setObj_rly (s : State) (o i d v : Nat) : (s.setObj o i d v).rly = s.rly := rfl
@[simp] theorem setObj_ageZero (s : State) (o i d v : Nat) : (s.setObj o i d v).ageZero = s.ageZero := rfl
@[simp] theorem setObj_mxm (s : State) (o i d v : Nat) : (s.setObj o i d v).mxm = s.mxm := rfl
@[simp] theorem setObj_fw (s : State) (o i d v : Nat) : (s.setObj o i d v).fw = s.fw := rfl
@[simp] theorem setObj_gul (s : State) (o i d v : Nat) : (s.setObj o i d v).gul = s.gul := rfl
@[simp] theorem setObj_boot (s : State) (o i d v : Nat) : (s.setObj o i d v).boot = s.boot := rfl
@[simp] theorem setObj_sdg (s : State) (o i d v : Nat) : (s.setObj o i d v).sdg = s.sdg := rfl
@[simp] theorem setObj_cpx (s : State) (o i d v : Nat) : (s.setObj o i d v).cpx = s.cpx := rfl
@[simp] theorem setObj_holders (s : State) (o i d v : Nat) : (s.setObj o i d v).holders = s.holders := rfl
@[simp] theorem setObj_trk (s : State) (o i d v : Nat) : (s.setObj o i d v).trk = s.trk := rfl
@[simp] theorem setObj_hts (s : State) (o i d v : Nat) : (s.setObj o i d v).hts = s.hts := rfl
@[simp] theorem setObj_upd (s : State) (o i d v : Nat) : (s.setObj o i d v).upd = s.upd := rfl
@[simp] theorem setObj_kernelClass (s : State) (o i d v : Nat) : (s.setObj o i d v).kernelClass = s.kernelClass := rfl
@[simp] theorem setObj_hbm (s : State) (o i d v : Nat) : (s.setObj o i d v).hbm = s.hbm := rfl
@[simp] theorem setObj_vdes (s : State) (o i d v : Nat) : (s.setObj o i d v).vdes = s.vdes := rfl
@[simp] theorem setObj_codecs (s : State) (o i d v : Nat) : (s.setObj o i d v).codecs = s.codecs := rfl
@[simp] theorem setObj_injected (s : State) (o i d v : Nat) : (s.setObj o i d v).injected = s.injected := rfl
@[simp] theorem setObj_cmps (s : State) (o i d v : Nat) : (s.setObj o i d v).cmps = s.cmps := rfl
@[simp] theorem setObj_subs (s : State) (o i d v : Nat) : (s.setObj o i d v).subs = s.subs := rfl
@[simp] theorem setObj_cpls (s : State) (o i d v : Nat) : (s.setObj o i d v).cpls = s.cpls := rfl
@[simp] theorem setObj_hostGrants (s : State) (o i d v : Nat) : (s.setObj o i d v).hostGrants = s.hostGrants := rfl
@[simp] theorem setObj_mbx (s : State) (o i d v : Nat) : (s.setObj o i d v).mbx = s.mbx := rfl
@[simp] theorem setObj_vees (s : State) (o i d v : Nat) : (s.setObj o i d v).vees = s.vees := rfl
@[simp] theorem setObj_encs (s : State) (o i d v : Nat) : (s.setObj o i d v).encs = s.encs := rfl
@[simp] theorem setObj_tsp (s : State) (o i d v : Nat) : (s.setObj o i d v).tsp = s.tsp := rfl
@[simp] theorem setObj_objOct (s : State) (o i d v : Nat) : (s.setObj o i d v).objOct = s.objOct := rfl
@[simp] theorem setObj_dsp (s : State) (o i d v : Nat) : (s.setObj o i d v).dsp = s.dsp := rfl
@[simp] theorem setObj_dspShared (s : State) (o i d v : Nat) : (s.setObj o i d v).dspShared = s.dspShared := rfl
@[simp] theorem setObj_pads (s : State) (o i d v : Nat) : (s.setObj o i d v).pads = s.pads := rfl
@[simp] theorem setObj_reg_read (s : State) (o i d v : Nat) (p : Nat) : (s.setObj o i d v).reg p = s.reg p := rfl
@[simp] theorem setObj_get_read (s : State) (o i d v : Nat) (g : Fld) : (s.setObj o i d v).get g = s.get g := rfl
@[simp] theorem setObj_isSet_read (s : State) (o i d v : Nat) (g : Fld) : (s.setObj o i d v).isSet g = s.isSet g := rfl
@[simp] theorem setObj_pair_read (s : State) (o i d v : Nat) (g g₂ : Fld) : (s.setObj o i d v).pair g g₂ = s.pair g g₂ := rfl
@[simp] theorem setObj_isFenced_read (s : State) (o i d v : Nat) (p q : Nat) : (s.setObj o i d v).isFenced p q = s.isFenced p q := rfl
@[simp] theorem setObj_counter_read (s : State) (o i d v : Nat) (p : Nat) : (s.setObj o i d v).counter p = s.counter p := rfl
@[simp] theorem setObj_octets_read (s : State) (o i d v : Nat) (p q : Nat) : (s.setObj o i d v).octets p q = s.octets p q := rfl
@[simp] theorem setObj_byte_read (s : State) (o i d v : Nat) (p : Nat) : (s.setObj o i d v).byte p = s.byte p := rfl
@[simp] theorem setObj_bytes_read (s : State) (o i d v : Nat) (p q : Nat) : (s.setObj o i d v).bytes p q = s.bytes p q := rfl
@[simp] theorem setObj_le_read (s : State) (o i d v : Nat) (p q : Nat) : (s.setObj o i d v).le p q = s.le p q := rfl
@[simp] theorem setObj_marked_read (s : State) (o i d v : Nat) (p : Nat) : (s.setObj o i d v).marked p = s.marked p := rfl
@[simp] theorem setObj_island_read (s : State) (o i d v : Nat) (p : Nat) : (s.setObj o i d v).island p = s.island p := rfl
@[simp] theorem setObj_fn_read (s : State) (o i d v : Nat) (p : Nat) : (s.setObj o i d v).fn p = s.fn p := rfl
@[simp] theorem setObj_time64_read (s : State) (o i d v : Nat) : (s.setObj o i d v).time64 = s.time64 := rfl
@[simp] theorem setObj_core_read (s : State) (o i d v : Nat) (p : Nat) : (s.setObj o i d v).core p = s.core p := rfl
@[simp] theorem setObj_taskAt_read (s : State) (o i d v : Nat) (p : Nat) : (s.setObj o i d v).taskAt p = s.taskAt p := rfl
@[simp] theorem setObj_free_read (s : State) (o i d v : Nat) (p : Nat) : (s.setObj o i d v).free p = s.free p := rfl

/-! ### bumpObj -/

@[simp] theorem bumpObj_pending (s : State) (o i : Nat) : (s.bumpObj o i).pending = s.pending := rfl
@[simp] theorem bumpObj_cycle (s : State) (o i : Nat) : (s.bumpObj o i).cycle = s.cycle := rfl
@[simp] theorem bumpObj_freeCtr (s : State) (o i : Nat) : (s.bumpObj o i).freeCtr = s.freeCtr := rfl
@[simp] theorem bumpObj_out (s : State) (o i : Nat) : (s.bumpObj o i).out = s.out := rfl
@[simp] theorem bumpObj_regs (s : State) (o i : Nat) : (s.bumpObj o i).regs = s.regs := rfl
@[simp] theorem bumpObj_rwvB (s : State) (o i : Nat) : (s.bumpObj o i).rwvB = s.rwvB := rfl
@[simp] theorem bumpObj_rwvC (s : State) (o i : Nat) : (s.bumpObj o i).rwvC = s.rwvC := rfl
@[simp] theorem bumpObj_sweptAt (s : State) (o i : Nat) : (s.bumpObj o i).sweptAt = s.sweptAt := rfl
@[simp] theorem bumpObj_ctr (s : State) (o i : Nat) : (s.bumpObj o i).ctr = s.ctr := rfl
@[simp] theorem bumpObj_latch (s : State) (o i : Nat) : (s.bumpObj o i).latch = s.latch := rfl
@[simp] theorem bumpObj_mem (s : State) (o i : Nat) : (s.bumpObj o i).mem = s.mem := rfl
@[simp] theorem bumpObj_poison (s : State) (o i : Nat) : (s.bumpObj o i).poison = s.poison := rfl
@[simp] theorem bumpObj_sql (s : State) (o i : Nat) : (s.bumpObj o i).sql = s.sql := rfl
@[simp] theorem bumpObj_islands (s : State) (o i : Nat) : (s.bumpObj o i).islands = s.islands := rfl
@[simp] theorem bumpObj_early (s : State) (o i : Nat) : (s.bumpObj o i).early = s.early := rfl
@[simp] theorem bumpObj_bells (s : State) (o i : Nat) : (s.bumpObj o i).bells = s.bells := rfl
@[simp] theorem bumpObj_deviceFatal (s : State) (o i : Nat) : (s.bumpObj o i).deviceFatal = s.deviceFatal := rfl
@[simp] theorem bumpObj_fns (s : State) (o i : Nat) : (s.bumpObj o i).fns = s.fns := rfl
@[simp] theorem bumpObj_bpm (s : State) (o i : Nat) : (s.bumpObj o i).bpm = s.bpm := rfl
@[simp] theorem bumpObj_queues (s : State) (o i : Nat) : (s.bumpObj o i).queues = s.queues := rfl
@[simp] theorem bumpObj_egress (s : State) (o i : Nat) : (s.bumpObj o i).egress = s.egress := rfl
@[simp] theorem bumpObj_gates (s : State) (o i : Nat) : (s.bumpObj o i).gates = s.gates := rfl
@[simp] theorem bumpObj_time (s : State) (o i : Nat) : (s.bumpObj o i).time = s.time := rfl
@[simp] theorem bumpObj_rly (s : State) (o i : Nat) : (s.bumpObj o i).rly = s.rly := rfl
@[simp] theorem bumpObj_ageZero (s : State) (o i : Nat) : (s.bumpObj o i).ageZero = s.ageZero := rfl
@[simp] theorem bumpObj_mxm (s : State) (o i : Nat) : (s.bumpObj o i).mxm = s.mxm := rfl
@[simp] theorem bumpObj_fw (s : State) (o i : Nat) : (s.bumpObj o i).fw = s.fw := rfl
@[simp] theorem bumpObj_gul (s : State) (o i : Nat) : (s.bumpObj o i).gul = s.gul := rfl
@[simp] theorem bumpObj_boot (s : State) (o i : Nat) : (s.bumpObj o i).boot = s.boot := rfl
@[simp] theorem bumpObj_sdg (s : State) (o i : Nat) : (s.bumpObj o i).sdg = s.sdg := rfl
@[simp] theorem bumpObj_cpx (s : State) (o i : Nat) : (s.bumpObj o i).cpx = s.cpx := rfl
@[simp] theorem bumpObj_holders (s : State) (o i : Nat) : (s.bumpObj o i).holders = s.holders := rfl
@[simp] theorem bumpObj_trk (s : State) (o i : Nat) : (s.bumpObj o i).trk = s.trk := rfl
@[simp] theorem bumpObj_hts (s : State) (o i : Nat) : (s.bumpObj o i).hts = s.hts := rfl
@[simp] theorem bumpObj_upd (s : State) (o i : Nat) : (s.bumpObj o i).upd = s.upd := rfl
@[simp] theorem bumpObj_kernelClass (s : State) (o i : Nat) : (s.bumpObj o i).kernelClass = s.kernelClass := rfl
@[simp] theorem bumpObj_hbm (s : State) (o i : Nat) : (s.bumpObj o i).hbm = s.hbm := rfl
@[simp] theorem bumpObj_vdes (s : State) (o i : Nat) : (s.bumpObj o i).vdes = s.vdes := rfl
@[simp] theorem bumpObj_codecs (s : State) (o i : Nat) : (s.bumpObj o i).codecs = s.codecs := rfl
@[simp] theorem bumpObj_injected (s : State) (o i : Nat) : (s.bumpObj o i).injected = s.injected := rfl
@[simp] theorem bumpObj_cmps (s : State) (o i : Nat) : (s.bumpObj o i).cmps = s.cmps := rfl
@[simp] theorem bumpObj_subs (s : State) (o i : Nat) : (s.bumpObj o i).subs = s.subs := rfl
@[simp] theorem bumpObj_cpls (s : State) (o i : Nat) : (s.bumpObj o i).cpls = s.cpls := rfl
@[simp] theorem bumpObj_hostGrants (s : State) (o i : Nat) : (s.bumpObj o i).hostGrants = s.hostGrants := rfl
@[simp] theorem bumpObj_mbx (s : State) (o i : Nat) : (s.bumpObj o i).mbx = s.mbx := rfl
@[simp] theorem bumpObj_vees (s : State) (o i : Nat) : (s.bumpObj o i).vees = s.vees := rfl
@[simp] theorem bumpObj_encs (s : State) (o i : Nat) : (s.bumpObj o i).encs = s.encs := rfl
@[simp] theorem bumpObj_tsp (s : State) (o i : Nat) : (s.bumpObj o i).tsp = s.tsp := rfl
@[simp] theorem bumpObj_objOct (s : State) (o i : Nat) : (s.bumpObj o i).objOct = s.objOct := rfl
@[simp] theorem bumpObj_dsp (s : State) (o i : Nat) : (s.bumpObj o i).dsp = s.dsp := rfl
@[simp] theorem bumpObj_dspShared (s : State) (o i : Nat) : (s.bumpObj o i).dspShared = s.dspShared := rfl
@[simp] theorem bumpObj_pads (s : State) (o i : Nat) : (s.bumpObj o i).pads = s.pads := rfl
@[simp] theorem bumpObj_reg_read (s : State) (o i : Nat) (p : Nat) : (s.bumpObj o i).reg p = s.reg p := rfl
@[simp] theorem bumpObj_get_read (s : State) (o i : Nat) (g : Fld) : (s.bumpObj o i).get g = s.get g := rfl
@[simp] theorem bumpObj_isSet_read (s : State) (o i : Nat) (g : Fld) : (s.bumpObj o i).isSet g = s.isSet g := rfl
@[simp] theorem bumpObj_pair_read (s : State) (o i : Nat) (g g₂ : Fld) : (s.bumpObj o i).pair g g₂ = s.pair g g₂ := rfl
@[simp] theorem bumpObj_isFenced_read (s : State) (o i : Nat) (p q : Nat) : (s.bumpObj o i).isFenced p q = s.isFenced p q := rfl
@[simp] theorem bumpObj_counter_read (s : State) (o i : Nat) (p : Nat) : (s.bumpObj o i).counter p = s.counter p := rfl
@[simp] theorem bumpObj_octets_read (s : State) (o i : Nat) (p q : Nat) : (s.bumpObj o i).octets p q = s.octets p q := rfl
@[simp] theorem bumpObj_byte_read (s : State) (o i : Nat) (p : Nat) : (s.bumpObj o i).byte p = s.byte p := rfl
@[simp] theorem bumpObj_bytes_read (s : State) (o i : Nat) (p q : Nat) : (s.bumpObj o i).bytes p q = s.bytes p q := rfl
@[simp] theorem bumpObj_le_read (s : State) (o i : Nat) (p q : Nat) : (s.bumpObj o i).le p q = s.le p q := rfl
@[simp] theorem bumpObj_marked_read (s : State) (o i : Nat) (p : Nat) : (s.bumpObj o i).marked p = s.marked p := rfl
@[simp] theorem bumpObj_island_read (s : State) (o i : Nat) (p : Nat) : (s.bumpObj o i).island p = s.island p := rfl
@[simp] theorem bumpObj_fn_read (s : State) (o i : Nat) (p : Nat) : (s.bumpObj o i).fn p = s.fn p := rfl
@[simp] theorem bumpObj_time64_read (s : State) (o i : Nat) : (s.bumpObj o i).time64 = s.time64 := rfl
@[simp] theorem bumpObj_core_read (s : State) (o i : Nat) (p : Nat) : (s.bumpObj o i).core p = s.core p := rfl
@[simp] theorem bumpObj_taskAt_read (s : State) (o i : Nat) (p : Nat) : (s.bumpObj o i).taskAt p = s.taskAt p := rfl
@[simp] theorem bumpObj_free_read (s : State) (o i : Nat) (p : Nat) : (s.bumpObj o i).free p = s.free p := rfl

/-! ### setOctets -/

@[simp] theorem setOctets_pending (s : State) (o i : Nat) (v : List Byte) : (s.setOctets o i v).pending = s.pending := rfl
@[simp] theorem setOctets_cycle (s : State) (o i : Nat) (v : List Byte) : (s.setOctets o i v).cycle = s.cycle := rfl
@[simp] theorem setOctets_freeCtr (s : State) (o i : Nat) (v : List Byte) : (s.setOctets o i v).freeCtr = s.freeCtr := rfl
@[simp] theorem setOctets_out (s : State) (o i : Nat) (v : List Byte) : (s.setOctets o i v).out = s.out := rfl
@[simp] theorem setOctets_regs (s : State) (o i : Nat) (v : List Byte) : (s.setOctets o i v).regs = s.regs := rfl
@[simp] theorem setOctets_rwvB (s : State) (o i : Nat) (v : List Byte) : (s.setOctets o i v).rwvB = s.rwvB := rfl
@[simp] theorem setOctets_rwvC (s : State) (o i : Nat) (v : List Byte) : (s.setOctets o i v).rwvC = s.rwvC := rfl
@[simp] theorem setOctets_sweptAt (s : State) (o i : Nat) (v : List Byte) : (s.setOctets o i v).sweptAt = s.sweptAt := rfl
@[simp] theorem setOctets_ctr (s : State) (o i : Nat) (v : List Byte) : (s.setOctets o i v).ctr = s.ctr := rfl
@[simp] theorem setOctets_latch (s : State) (o i : Nat) (v : List Byte) : (s.setOctets o i v).latch = s.latch := rfl
@[simp] theorem setOctets_mem (s : State) (o i : Nat) (v : List Byte) : (s.setOctets o i v).mem = s.mem := rfl
@[simp] theorem setOctets_poison (s : State) (o i : Nat) (v : List Byte) : (s.setOctets o i v).poison = s.poison := rfl
@[simp] theorem setOctets_sql (s : State) (o i : Nat) (v : List Byte) : (s.setOctets o i v).sql = s.sql := rfl
@[simp] theorem setOctets_islands (s : State) (o i : Nat) (v : List Byte) : (s.setOctets o i v).islands = s.islands := rfl
@[simp] theorem setOctets_early (s : State) (o i : Nat) (v : List Byte) : (s.setOctets o i v).early = s.early := rfl
@[simp] theorem setOctets_bells (s : State) (o i : Nat) (v : List Byte) : (s.setOctets o i v).bells = s.bells := rfl
@[simp] theorem setOctets_deviceFatal (s : State) (o i : Nat) (v : List Byte) : (s.setOctets o i v).deviceFatal = s.deviceFatal := rfl
@[simp] theorem setOctets_fns (s : State) (o i : Nat) (v : List Byte) : (s.setOctets o i v).fns = s.fns := rfl
@[simp] theorem setOctets_bpm (s : State) (o i : Nat) (v : List Byte) : (s.setOctets o i v).bpm = s.bpm := rfl
@[simp] theorem setOctets_queues (s : State) (o i : Nat) (v : List Byte) : (s.setOctets o i v).queues = s.queues := rfl
@[simp] theorem setOctets_egress (s : State) (o i : Nat) (v : List Byte) : (s.setOctets o i v).egress = s.egress := rfl
@[simp] theorem setOctets_gates (s : State) (o i : Nat) (v : List Byte) : (s.setOctets o i v).gates = s.gates := rfl
@[simp] theorem setOctets_time (s : State) (o i : Nat) (v : List Byte) : (s.setOctets o i v).time = s.time := rfl
@[simp] theorem setOctets_rly (s : State) (o i : Nat) (v : List Byte) : (s.setOctets o i v).rly = s.rly := rfl
@[simp] theorem setOctets_ageZero (s : State) (o i : Nat) (v : List Byte) : (s.setOctets o i v).ageZero = s.ageZero := rfl
@[simp] theorem setOctets_mxm (s : State) (o i : Nat) (v : List Byte) : (s.setOctets o i v).mxm = s.mxm := rfl
@[simp] theorem setOctets_fw (s : State) (o i : Nat) (v : List Byte) : (s.setOctets o i v).fw = s.fw := rfl
@[simp] theorem setOctets_gul (s : State) (o i : Nat) (v : List Byte) : (s.setOctets o i v).gul = s.gul := rfl
@[simp] theorem setOctets_boot (s : State) (o i : Nat) (v : List Byte) : (s.setOctets o i v).boot = s.boot := rfl
@[simp] theorem setOctets_sdg (s : State) (o i : Nat) (v : List Byte) : (s.setOctets o i v).sdg = s.sdg := rfl
@[simp] theorem setOctets_cpx (s : State) (o i : Nat) (v : List Byte) : (s.setOctets o i v).cpx = s.cpx := rfl
@[simp] theorem setOctets_holders (s : State) (o i : Nat) (v : List Byte) : (s.setOctets o i v).holders = s.holders := rfl
@[simp] theorem setOctets_trk (s : State) (o i : Nat) (v : List Byte) : (s.setOctets o i v).trk = s.trk := rfl
@[simp] theorem setOctets_hts (s : State) (o i : Nat) (v : List Byte) : (s.setOctets o i v).hts = s.hts := rfl
@[simp] theorem setOctets_upd (s : State) (o i : Nat) (v : List Byte) : (s.setOctets o i v).upd = s.upd := rfl
@[simp] theorem setOctets_kernelClass (s : State) (o i : Nat) (v : List Byte) : (s.setOctets o i v).kernelClass = s.kernelClass := rfl
@[simp] theorem setOctets_hbm (s : State) (o i : Nat) (v : List Byte) : (s.setOctets o i v).hbm = s.hbm := rfl
@[simp] theorem setOctets_vdes (s : State) (o i : Nat) (v : List Byte) : (s.setOctets o i v).vdes = s.vdes := rfl
@[simp] theorem setOctets_codecs (s : State) (o i : Nat) (v : List Byte) : (s.setOctets o i v).codecs = s.codecs := rfl
@[simp] theorem setOctets_injected (s : State) (o i : Nat) (v : List Byte) : (s.setOctets o i v).injected = s.injected := rfl
@[simp] theorem setOctets_cmps (s : State) (o i : Nat) (v : List Byte) : (s.setOctets o i v).cmps = s.cmps := rfl
@[simp] theorem setOctets_subs (s : State) (o i : Nat) (v : List Byte) : (s.setOctets o i v).subs = s.subs := rfl
@[simp] theorem setOctets_cpls (s : State) (o i : Nat) (v : List Byte) : (s.setOctets o i v).cpls = s.cpls := rfl
@[simp] theorem setOctets_hostGrants (s : State) (o i : Nat) (v : List Byte) : (s.setOctets o i v).hostGrants = s.hostGrants := rfl
@[simp] theorem setOctets_mbx (s : State) (o i : Nat) (v : List Byte) : (s.setOctets o i v).mbx = s.mbx := rfl
@[simp] theorem setOctets_vees (s : State) (o i : Nat) (v : List Byte) : (s.setOctets o i v).vees = s.vees := rfl
@[simp] theorem setOctets_encs (s : State) (o i : Nat) (v : List Byte) : (s.setOctets o i v).encs = s.encs := rfl
@[simp] theorem setOctets_tsp (s : State) (o i : Nat) (v : List Byte) : (s.setOctets o i v).tsp = s.tsp := rfl
@[simp] theorem setOctets_objNum (s : State) (o i : Nat) (v : List Byte) : (s.setOctets o i v).objNum = s.objNum := rfl
@[simp] theorem setOctets_dsp (s : State) (o i : Nat) (v : List Byte) : (s.setOctets o i v).dsp = s.dsp := rfl
@[simp] theorem setOctets_dspShared (s : State) (o i : Nat) (v : List Byte) : (s.setOctets o i v).dspShared = s.dspShared := rfl
@[simp] theorem setOctets_pads (s : State) (o i : Nat) (v : List Byte) : (s.setOctets o i v).pads = s.pads := rfl
@[simp] theorem setOctets_reg_read (s : State) (o i : Nat) (v : List Byte) (p : Nat) : (s.setOctets o i v).reg p = s.reg p := rfl
@[simp] theorem setOctets_get_read (s : State) (o i : Nat) (v : List Byte) (g : Fld) : (s.setOctets o i v).get g = s.get g := rfl
@[simp] theorem setOctets_isSet_read (s : State) (o i : Nat) (v : List Byte) (g : Fld) : (s.setOctets o i v).isSet g = s.isSet g := rfl
@[simp] theorem setOctets_pair_read (s : State) (o i : Nat) (v : List Byte) (g g₂ : Fld) : (s.setOctets o i v).pair g g₂ = s.pair g g₂ := rfl
@[simp] theorem setOctets_isFenced_read (s : State) (o i : Nat) (v : List Byte) (p q : Nat) : (s.setOctets o i v).isFenced p q = s.isFenced p q := rfl
@[simp] theorem setOctets_counter_read (s : State) (o i : Nat) (v : List Byte) (p : Nat) : (s.setOctets o i v).counter p = s.counter p := rfl
@[simp] theorem setOctets_obj_read (s : State) (o i : Nat) (v : List Byte) (p q r : Nat) : (s.setOctets o i v).obj p q r = s.obj p q r := rfl
@[simp] theorem setOctets_byte_read (s : State) (o i : Nat) (v : List Byte) (p : Nat) : (s.setOctets o i v).byte p = s.byte p := rfl
@[simp] theorem setOctets_bytes_read (s : State) (o i : Nat) (v : List Byte) (p q : Nat) : (s.setOctets o i v).bytes p q = s.bytes p q := rfl
@[simp] theorem setOctets_le_read (s : State) (o i : Nat) (v : List Byte) (p q : Nat) : (s.setOctets o i v).le p q = s.le p q := rfl
@[simp] theorem setOctets_marked_read (s : State) (o i : Nat) (v : List Byte) (p : Nat) : (s.setOctets o i v).marked p = s.marked p := rfl
@[simp] theorem setOctets_island_read (s : State) (o i : Nat) (v : List Byte) (p : Nat) : (s.setOctets o i v).island p = s.island p := rfl
@[simp] theorem setOctets_fn_read (s : State) (o i : Nat) (v : List Byte) (p : Nat) : (s.setOctets o i v).fn p = s.fn p := rfl
@[simp] theorem setOctets_time64_read (s : State) (o i : Nat) (v : List Byte) : (s.setOctets o i v).time64 = s.time64 := rfl
@[simp] theorem setOctets_core_read (s : State) (o i : Nat) (v : List Byte) (p : Nat) : (s.setOctets o i v).core p = s.core p := rfl
@[simp] theorem setOctets_taskAt_read (s : State) (o i : Nat) (v : List Byte) (p : Nat) : (s.setOctets o i v).taskAt p = s.taskAt p := rfl
@[simp] theorem setOctets_free_read (s : State) (o i : Nat) (v : List Byte) (p : Nat) : (s.setOctets o i v).free p = s.free p := rfl

/-! ### setFn -/

@[simp] theorem setFn_pending (s : State) (n : Nat) (f : HostFunction) : (s.setFn n f).pending = s.pending := rfl
@[simp] theorem setFn_cycle (s : State) (n : Nat) (f : HostFunction) : (s.setFn n f).cycle = s.cycle := rfl
@[simp] theorem setFn_freeCtr (s : State) (n : Nat) (f : HostFunction) : (s.setFn n f).freeCtr = s.freeCtr := rfl
@[simp] theorem setFn_out (s : State) (n : Nat) (f : HostFunction) : (s.setFn n f).out = s.out := rfl
@[simp] theorem setFn_regs (s : State) (n : Nat) (f : HostFunction) : (s.setFn n f).regs = s.regs := rfl
@[simp] theorem setFn_rwvB (s : State) (n : Nat) (f : HostFunction) : (s.setFn n f).rwvB = s.rwvB := rfl
@[simp] theorem setFn_rwvC (s : State) (n : Nat) (f : HostFunction) : (s.setFn n f).rwvC = s.rwvC := rfl
@[simp] theorem setFn_sweptAt (s : State) (n : Nat) (f : HostFunction) : (s.setFn n f).sweptAt = s.sweptAt := rfl
@[simp] theorem setFn_ctr (s : State) (n : Nat) (f : HostFunction) : (s.setFn n f).ctr = s.ctr := rfl
@[simp] theorem setFn_latch (s : State) (n : Nat) (f : HostFunction) : (s.setFn n f).latch = s.latch := rfl
@[simp] theorem setFn_mem (s : State) (n : Nat) (f : HostFunction) : (s.setFn n f).mem = s.mem := rfl
@[simp] theorem setFn_poison (s : State) (n : Nat) (f : HostFunction) : (s.setFn n f).poison = s.poison := rfl
@[simp] theorem setFn_sql (s : State) (n : Nat) (f : HostFunction) : (s.setFn n f).sql = s.sql := rfl
@[simp] theorem setFn_islands (s : State) (n : Nat) (f : HostFunction) : (s.setFn n f).islands = s.islands := rfl
@[simp] theorem setFn_early (s : State) (n : Nat) (f : HostFunction) : (s.setFn n f).early = s.early := rfl
@[simp] theorem setFn_bells (s : State) (n : Nat) (f : HostFunction) : (s.setFn n f).bells = s.bells := rfl
@[simp] theorem setFn_deviceFatal (s : State) (n : Nat) (f : HostFunction) : (s.setFn n f).deviceFatal = s.deviceFatal := rfl
@[simp] theorem setFn_bpm (s : State) (n : Nat) (f : HostFunction) : (s.setFn n f).bpm = s.bpm := rfl
@[simp] theorem setFn_queues (s : State) (n : Nat) (f : HostFunction) : (s.setFn n f).queues = s.queues := rfl
@[simp] theorem setFn_egress (s : State) (n : Nat) (f : HostFunction) : (s.setFn n f).egress = s.egress := rfl
@[simp] theorem setFn_gates (s : State) (n : Nat) (f : HostFunction) : (s.setFn n f).gates = s.gates := rfl
@[simp] theorem setFn_time (s : State) (n : Nat) (f : HostFunction) : (s.setFn n f).time = s.time := rfl
@[simp] theorem setFn_rly (s : State) (n : Nat) (f : HostFunction) : (s.setFn n f).rly = s.rly := rfl
@[simp] theorem setFn_ageZero (s : State) (n : Nat) (f : HostFunction) : (s.setFn n f).ageZero = s.ageZero := rfl
@[simp] theorem setFn_mxm (s : State) (n : Nat) (f : HostFunction) : (s.setFn n f).mxm = s.mxm := rfl
@[simp] theorem setFn_fw (s : State) (n : Nat) (f : HostFunction) : (s.setFn n f).fw = s.fw := rfl
@[simp] theorem setFn_gul (s : State) (n : Nat) (f : HostFunction) : (s.setFn n f).gul = s.gul := rfl
@[simp] theorem setFn_boot (s : State) (n : Nat) (f : HostFunction) : (s.setFn n f).boot = s.boot := rfl
@[simp] theorem setFn_sdg (s : State) (n : Nat) (f : HostFunction) : (s.setFn n f).sdg = s.sdg := rfl
@[simp] theorem setFn_cpx (s : State) (n : Nat) (f : HostFunction) : (s.setFn n f).cpx = s.cpx := rfl
@[simp] theorem setFn_holders (s : State) (n : Nat) (f : HostFunction) : (s.setFn n f).holders = s.holders := rfl
@[simp] theorem setFn_trk (s : State) (n : Nat) (f : HostFunction) : (s.setFn n f).trk = s.trk := rfl
@[simp] theorem setFn_hts (s : State) (n : Nat) (f : HostFunction) : (s.setFn n f).hts = s.hts := rfl
@[simp] theorem setFn_upd (s : State) (n : Nat) (f : HostFunction) : (s.setFn n f).upd = s.upd := rfl
@[simp] theorem setFn_kernelClass (s : State) (n : Nat) (f : HostFunction) : (s.setFn n f).kernelClass = s.kernelClass := rfl
@[simp] theorem setFn_hbm (s : State) (n : Nat) (f : HostFunction) : (s.setFn n f).hbm = s.hbm := rfl
@[simp] theorem setFn_vdes (s : State) (n : Nat) (f : HostFunction) : (s.setFn n f).vdes = s.vdes := rfl
@[simp] theorem setFn_codecs (s : State) (n : Nat) (f : HostFunction) : (s.setFn n f).codecs = s.codecs := rfl
@[simp] theorem setFn_injected (s : State) (n : Nat) (f : HostFunction) : (s.setFn n f).injected = s.injected := rfl
@[simp] theorem setFn_cmps (s : State) (n : Nat) (f : HostFunction) : (s.setFn n f).cmps = s.cmps := rfl
@[simp] theorem setFn_subs (s : State) (n : Nat) (f : HostFunction) : (s.setFn n f).subs = s.subs := rfl
@[simp] theorem setFn_cpls (s : State) (n : Nat) (f : HostFunction) : (s.setFn n f).cpls = s.cpls := rfl
@[simp] theorem setFn_hostGrants (s : State) (n : Nat) (f : HostFunction) : (s.setFn n f).hostGrants = s.hostGrants := rfl
@[simp] theorem setFn_mbx (s : State) (n : Nat) (f : HostFunction) : (s.setFn n f).mbx = s.mbx := rfl
@[simp] theorem setFn_vees (s : State) (n : Nat) (f : HostFunction) : (s.setFn n f).vees = s.vees := rfl
@[simp] theorem setFn_encs (s : State) (n : Nat) (f : HostFunction) : (s.setFn n f).encs = s.encs := rfl
@[simp] theorem setFn_tsp (s : State) (n : Nat) (f : HostFunction) : (s.setFn n f).tsp = s.tsp := rfl
@[simp] theorem setFn_objNum (s : State) (n : Nat) (f : HostFunction) : (s.setFn n f).objNum = s.objNum := rfl
@[simp] theorem setFn_objOct (s : State) (n : Nat) (f : HostFunction) : (s.setFn n f).objOct = s.objOct := rfl
@[simp] theorem setFn_dsp (s : State) (n : Nat) (f : HostFunction) : (s.setFn n f).dsp = s.dsp := rfl
@[simp] theorem setFn_dspShared (s : State) (n : Nat) (f : HostFunction) : (s.setFn n f).dspShared = s.dspShared := rfl
@[simp] theorem setFn_pads (s : State) (n : Nat) (f : HostFunction) : (s.setFn n f).pads = s.pads := rfl
@[simp] theorem setFn_reg_read (s : State) (n : Nat) (f : HostFunction) (p : Nat) : (s.setFn n f).reg p = s.reg p := rfl
@[simp] theorem setFn_get_read (s : State) (n : Nat) (f : HostFunction) (g : Fld) : (s.setFn n f).get g = s.get g := rfl
@[simp] theorem setFn_isSet_read (s : State) (n : Nat) (f : HostFunction) (g : Fld) : (s.setFn n f).isSet g = s.isSet g := rfl
@[simp] theorem setFn_pair_read (s : State) (n : Nat) (f : HostFunction) (g g₂ : Fld) : (s.setFn n f).pair g g₂ = s.pair g g₂ := rfl
@[simp] theorem setFn_isFenced_read (s : State) (n : Nat) (f : HostFunction) (p q : Nat) : (s.setFn n f).isFenced p q = s.isFenced p q := rfl
@[simp] theorem setFn_counter_read (s : State) (n : Nat) (f : HostFunction) (p : Nat) : (s.setFn n f).counter p = s.counter p := rfl
@[simp] theorem setFn_obj_read (s : State) (n : Nat) (f : HostFunction) (p q r : Nat) : (s.setFn n f).obj p q r = s.obj p q r := rfl
@[simp] theorem setFn_octets_read (s : State) (n : Nat) (f : HostFunction) (p q : Nat) : (s.setFn n f).octets p q = s.octets p q := rfl
@[simp] theorem setFn_byte_read (s : State) (n : Nat) (f : HostFunction) (p : Nat) : (s.setFn n f).byte p = s.byte p := rfl
@[simp] theorem setFn_bytes_read (s : State) (n : Nat) (f : HostFunction) (p q : Nat) : (s.setFn n f).bytes p q = s.bytes p q := rfl
@[simp] theorem setFn_le_read (s : State) (n : Nat) (f : HostFunction) (p q : Nat) : (s.setFn n f).le p q = s.le p q := rfl
@[simp] theorem setFn_marked_read (s : State) (n : Nat) (f : HostFunction) (p : Nat) : (s.setFn n f).marked p = s.marked p := rfl
@[simp] theorem setFn_island_read (s : State) (n : Nat) (f : HostFunction) (p : Nat) : (s.setFn n f).island p = s.island p := rfl
@[simp] theorem setFn_time64_read (s : State) (n : Nat) (f : HostFunction) : (s.setFn n f).time64 = s.time64 := rfl
@[simp] theorem setFn_core_read (s : State) (n : Nat) (f : HostFunction) (p : Nat) : (s.setFn n f).core p = s.core p := rfl
@[simp] theorem setFn_taskAt_read (s : State) (n : Nat) (f : HostFunction) (p : Nat) : (s.setFn n f).taskAt p = s.taskAt p := rfl
@[simp] theorem setFn_free_read (s : State) (n : Nat) (f : HostFunction) (p : Nat) : (s.setFn n f).free p = s.free p := rfl

/-! ### setHolder -/

@[simp] theorem setHolder_pending (s : State) (a : Nat) (h : Option Sender) : (s.setHolder a h).pending = s.pending := rfl
@[simp] theorem setHolder_cycle (s : State) (a : Nat) (h : Option Sender) : (s.setHolder a h).cycle = s.cycle := rfl
@[simp] theorem setHolder_freeCtr (s : State) (a : Nat) (h : Option Sender) : (s.setHolder a h).freeCtr = s.freeCtr := rfl
@[simp] theorem setHolder_out (s : State) (a : Nat) (h : Option Sender) : (s.setHolder a h).out = s.out := rfl
@[simp] theorem setHolder_regs (s : State) (a : Nat) (h : Option Sender) : (s.setHolder a h).regs = s.regs := rfl
@[simp] theorem setHolder_rwvB (s : State) (a : Nat) (h : Option Sender) : (s.setHolder a h).rwvB = s.rwvB := rfl
@[simp] theorem setHolder_rwvC (s : State) (a : Nat) (h : Option Sender) : (s.setHolder a h).rwvC = s.rwvC := rfl
@[simp] theorem setHolder_sweptAt (s : State) (a : Nat) (h : Option Sender) : (s.setHolder a h).sweptAt = s.sweptAt := rfl
@[simp] theorem setHolder_ctr (s : State) (a : Nat) (h : Option Sender) : (s.setHolder a h).ctr = s.ctr := rfl
@[simp] theorem setHolder_latch (s : State) (a : Nat) (h : Option Sender) : (s.setHolder a h).latch = s.latch := rfl
@[simp] theorem setHolder_mem (s : State) (a : Nat) (h : Option Sender) : (s.setHolder a h).mem = s.mem := rfl
@[simp] theorem setHolder_poison (s : State) (a : Nat) (h : Option Sender) : (s.setHolder a h).poison = s.poison := rfl
@[simp] theorem setHolder_sql (s : State) (a : Nat) (h : Option Sender) : (s.setHolder a h).sql = s.sql := rfl
@[simp] theorem setHolder_islands (s : State) (a : Nat) (h : Option Sender) : (s.setHolder a h).islands = s.islands := rfl
@[simp] theorem setHolder_early (s : State) (a : Nat) (h : Option Sender) : (s.setHolder a h).early = s.early := rfl
@[simp] theorem setHolder_bells (s : State) (a : Nat) (h : Option Sender) : (s.setHolder a h).bells = s.bells := rfl
@[simp] theorem setHolder_deviceFatal (s : State) (a : Nat) (h : Option Sender) : (s.setHolder a h).deviceFatal = s.deviceFatal := rfl
@[simp] theorem setHolder_fns (s : State) (a : Nat) (h : Option Sender) : (s.setHolder a h).fns = s.fns := rfl
@[simp] theorem setHolder_bpm (s : State) (a : Nat) (h : Option Sender) : (s.setHolder a h).bpm = s.bpm := rfl
@[simp] theorem setHolder_queues (s : State) (a : Nat) (h : Option Sender) : (s.setHolder a h).queues = s.queues := rfl
@[simp] theorem setHolder_egress (s : State) (a : Nat) (h : Option Sender) : (s.setHolder a h).egress = s.egress := rfl
@[simp] theorem setHolder_gates (s : State) (a : Nat) (h : Option Sender) : (s.setHolder a h).gates = s.gates := rfl
@[simp] theorem setHolder_time (s : State) (a : Nat) (h : Option Sender) : (s.setHolder a h).time = s.time := rfl
@[simp] theorem setHolder_rly (s : State) (a : Nat) (h : Option Sender) : (s.setHolder a h).rly = s.rly := rfl
@[simp] theorem setHolder_ageZero (s : State) (a : Nat) (h : Option Sender) : (s.setHolder a h).ageZero = s.ageZero := rfl
@[simp] theorem setHolder_mxm (s : State) (a : Nat) (h : Option Sender) : (s.setHolder a h).mxm = s.mxm := rfl
@[simp] theorem setHolder_fw (s : State) (a : Nat) (h : Option Sender) : (s.setHolder a h).fw = s.fw := rfl
@[simp] theorem setHolder_gul (s : State) (a : Nat) (h : Option Sender) : (s.setHolder a h).gul = s.gul := rfl
@[simp] theorem setHolder_boot (s : State) (a : Nat) (h : Option Sender) : (s.setHolder a h).boot = s.boot := rfl
@[simp] theorem setHolder_sdg (s : State) (a : Nat) (h : Option Sender) : (s.setHolder a h).sdg = s.sdg := rfl
@[simp] theorem setHolder_cpx (s : State) (a : Nat) (h : Option Sender) : (s.setHolder a h).cpx = s.cpx := rfl
@[simp] theorem setHolder_trk (s : State) (a : Nat) (h : Option Sender) : (s.setHolder a h).trk = s.trk := rfl
@[simp] theorem setHolder_hts (s : State) (a : Nat) (h : Option Sender) : (s.setHolder a h).hts = s.hts := rfl
@[simp] theorem setHolder_upd (s : State) (a : Nat) (h : Option Sender) : (s.setHolder a h).upd = s.upd := rfl
@[simp] theorem setHolder_kernelClass (s : State) (a : Nat) (h : Option Sender) : (s.setHolder a h).kernelClass = s.kernelClass := rfl
@[simp] theorem setHolder_hbm (s : State) (a : Nat) (h : Option Sender) : (s.setHolder a h).hbm = s.hbm := rfl
@[simp] theorem setHolder_vdes (s : State) (a : Nat) (h : Option Sender) : (s.setHolder a h).vdes = s.vdes := rfl
@[simp] theorem setHolder_codecs (s : State) (a : Nat) (h : Option Sender) : (s.setHolder a h).codecs = s.codecs := rfl
@[simp] theorem setHolder_injected (s : State) (a : Nat) (h : Option Sender) : (s.setHolder a h).injected = s.injected := rfl
@[simp] theorem setHolder_cmps (s : State) (a : Nat) (h : Option Sender) : (s.setHolder a h).cmps = s.cmps := rfl
@[simp] theorem setHolder_subs (s : State) (a : Nat) (h : Option Sender) : (s.setHolder a h).subs = s.subs := rfl
@[simp] theorem setHolder_cpls (s : State) (a : Nat) (h : Option Sender) : (s.setHolder a h).cpls = s.cpls := rfl
@[simp] theorem setHolder_hostGrants (s : State) (a : Nat) (h : Option Sender) : (s.setHolder a h).hostGrants = s.hostGrants := rfl
@[simp] theorem setHolder_mbx (s : State) (a : Nat) (h : Option Sender) : (s.setHolder a h).mbx = s.mbx := rfl
@[simp] theorem setHolder_vees (s : State) (a : Nat) (h : Option Sender) : (s.setHolder a h).vees = s.vees := rfl
@[simp] theorem setHolder_encs (s : State) (a : Nat) (h : Option Sender) : (s.setHolder a h).encs = s.encs := rfl
@[simp] theorem setHolder_tsp (s : State) (a : Nat) (h : Option Sender) : (s.setHolder a h).tsp = s.tsp := rfl
@[simp] theorem setHolder_objNum (s : State) (a : Nat) (h : Option Sender) : (s.setHolder a h).objNum = s.objNum := rfl
@[simp] theorem setHolder_objOct (s : State) (a : Nat) (h : Option Sender) : (s.setHolder a h).objOct = s.objOct := rfl
@[simp] theorem setHolder_dsp (s : State) (a : Nat) (h : Option Sender) : (s.setHolder a h).dsp = s.dsp := rfl
@[simp] theorem setHolder_dspShared (s : State) (a : Nat) (h : Option Sender) : (s.setHolder a h).dspShared = s.dspShared := rfl
@[simp] theorem setHolder_pads (s : State) (a : Nat) (h : Option Sender) : (s.setHolder a h).pads = s.pads := rfl
@[simp] theorem setHolder_reg_read (s : State) (a : Nat) (h : Option Sender) (p : Nat) : (s.setHolder a h).reg p = s.reg p := rfl
@[simp] theorem setHolder_get_read (s : State) (a : Nat) (h : Option Sender) (g : Fld) : (s.setHolder a h).get g = s.get g := rfl
@[simp] theorem setHolder_isSet_read (s : State) (a : Nat) (h : Option Sender) (g : Fld) : (s.setHolder a h).isSet g = s.isSet g := rfl
@[simp] theorem setHolder_pair_read (s : State) (a : Nat) (h : Option Sender) (g g₂ : Fld) : (s.setHolder a h).pair g g₂ = s.pair g g₂ := rfl
@[simp] theorem setHolder_isFenced_read (s : State) (a : Nat) (h : Option Sender) (p q : Nat) : (s.setHolder a h).isFenced p q = s.isFenced p q := rfl
@[simp] theorem setHolder_counter_read (s : State) (a : Nat) (h : Option Sender) (p : Nat) : (s.setHolder a h).counter p = s.counter p := rfl
@[simp] theorem setHolder_obj_read (s : State) (a : Nat) (h : Option Sender) (p q r : Nat) : (s.setHolder a h).obj p q r = s.obj p q r := rfl
@[simp] theorem setHolder_octets_read (s : State) (a : Nat) (h : Option Sender) (p q : Nat) : (s.setHolder a h).octets p q = s.octets p q := rfl
@[simp] theorem setHolder_byte_read (s : State) (a : Nat) (h : Option Sender) (p : Nat) : (s.setHolder a h).byte p = s.byte p := rfl
@[simp] theorem setHolder_bytes_read (s : State) (a : Nat) (h : Option Sender) (p q : Nat) : (s.setHolder a h).bytes p q = s.bytes p q := rfl
@[simp] theorem setHolder_le_read (s : State) (a : Nat) (h : Option Sender) (p q : Nat) : (s.setHolder a h).le p q = s.le p q := rfl
@[simp] theorem setHolder_marked_read (s : State) (a : Nat) (h : Option Sender) (p : Nat) : (s.setHolder a h).marked p = s.marked p := rfl
@[simp] theorem setHolder_island_read (s : State) (a : Nat) (h : Option Sender) (p : Nat) : (s.setHolder a h).island p = s.island p := rfl
@[simp] theorem setHolder_fn_read (s : State) (a : Nat) (h : Option Sender) (p : Nat) : (s.setHolder a h).fn p = s.fn p := rfl
@[simp] theorem setHolder_time64_read (s : State) (a : Nat) (h : Option Sender) : (s.setHolder a h).time64 = s.time64 := rfl
@[simp] theorem setHolder_core_read (s : State) (a : Nat) (h : Option Sender) (p : Nat) : (s.setHolder a h).core p = s.core p := rfl
@[simp] theorem setHolder_taskAt_read (s : State) (a : Nat) (h : Option Sender) (p : Nat) : (s.setHolder a h).taskAt p = s.taskAt p := rfl
@[simp] theorem setHolder_free_read (s : State) (a : Nat) (h : Option Sender) (p : Nat) : (s.setHolder a h).free p = s.free p := rfl

/-! ### setCore -/

@[simp] theorem setCore_pending (s : State) (c : Nat) (k : DspCore) : (s.setCore c k).pending = s.pending := rfl
@[simp] theorem setCore_cycle (s : State) (c : Nat) (k : DspCore) : (s.setCore c k).cycle = s.cycle := rfl
@[simp] theorem setCore_freeCtr (s : State) (c : Nat) (k : DspCore) : (s.setCore c k).freeCtr = s.freeCtr := rfl
@[simp] theorem setCore_out (s : State) (c : Nat) (k : DspCore) : (s.setCore c k).out = s.out := rfl
@[simp] theorem setCore_regs (s : State) (c : Nat) (k : DspCore) : (s.setCore c k).regs = s.regs := rfl
@[simp] theorem setCore_rwvB (s : State) (c : Nat) (k : DspCore) : (s.setCore c k).rwvB = s.rwvB := rfl
@[simp] theorem setCore_rwvC (s : State) (c : Nat) (k : DspCore) : (s.setCore c k).rwvC = s.rwvC := rfl
@[simp] theorem setCore_sweptAt (s : State) (c : Nat) (k : DspCore) : (s.setCore c k).sweptAt = s.sweptAt := rfl
@[simp] theorem setCore_ctr (s : State) (c : Nat) (k : DspCore) : (s.setCore c k).ctr = s.ctr := rfl
@[simp] theorem setCore_latch (s : State) (c : Nat) (k : DspCore) : (s.setCore c k).latch = s.latch := rfl
@[simp] theorem setCore_mem (s : State) (c : Nat) (k : DspCore) : (s.setCore c k).mem = s.mem := rfl
@[simp] theorem setCore_poison (s : State) (c : Nat) (k : DspCore) : (s.setCore c k).poison = s.poison := rfl
@[simp] theorem setCore_sql (s : State) (c : Nat) (k : DspCore) : (s.setCore c k).sql = s.sql := rfl
@[simp] theorem setCore_islands (s : State) (c : Nat) (k : DspCore) : (s.setCore c k).islands = s.islands := rfl
@[simp] theorem setCore_early (s : State) (c : Nat) (k : DspCore) : (s.setCore c k).early = s.early := rfl
@[simp] theorem setCore_bells (s : State) (c : Nat) (k : DspCore) : (s.setCore c k).bells = s.bells := rfl
@[simp] theorem setCore_deviceFatal (s : State) (c : Nat) (k : DspCore) : (s.setCore c k).deviceFatal = s.deviceFatal := rfl
@[simp] theorem setCore_fns (s : State) (c : Nat) (k : DspCore) : (s.setCore c k).fns = s.fns := rfl
@[simp] theorem setCore_bpm (s : State) (c : Nat) (k : DspCore) : (s.setCore c k).bpm = s.bpm := rfl
@[simp] theorem setCore_queues (s : State) (c : Nat) (k : DspCore) : (s.setCore c k).queues = s.queues := rfl
@[simp] theorem setCore_egress (s : State) (c : Nat) (k : DspCore) : (s.setCore c k).egress = s.egress := rfl
@[simp] theorem setCore_gates (s : State) (c : Nat) (k : DspCore) : (s.setCore c k).gates = s.gates := rfl
@[simp] theorem setCore_time (s : State) (c : Nat) (k : DspCore) : (s.setCore c k).time = s.time := rfl
@[simp] theorem setCore_rly (s : State) (c : Nat) (k : DspCore) : (s.setCore c k).rly = s.rly := rfl
@[simp] theorem setCore_ageZero (s : State) (c : Nat) (k : DspCore) : (s.setCore c k).ageZero = s.ageZero := rfl
@[simp] theorem setCore_mxm (s : State) (c : Nat) (k : DspCore) : (s.setCore c k).mxm = s.mxm := rfl
@[simp] theorem setCore_fw (s : State) (c : Nat) (k : DspCore) : (s.setCore c k).fw = s.fw := rfl
@[simp] theorem setCore_gul (s : State) (c : Nat) (k : DspCore) : (s.setCore c k).gul = s.gul := rfl
@[simp] theorem setCore_boot (s : State) (c : Nat) (k : DspCore) : (s.setCore c k).boot = s.boot := rfl
@[simp] theorem setCore_sdg (s : State) (c : Nat) (k : DspCore) : (s.setCore c k).sdg = s.sdg := rfl
@[simp] theorem setCore_cpx (s : State) (c : Nat) (k : DspCore) : (s.setCore c k).cpx = s.cpx := rfl
@[simp] theorem setCore_holders (s : State) (c : Nat) (k : DspCore) : (s.setCore c k).holders = s.holders := rfl
@[simp] theorem setCore_trk (s : State) (c : Nat) (k : DspCore) : (s.setCore c k).trk = s.trk := rfl
@[simp] theorem setCore_hts (s : State) (c : Nat) (k : DspCore) : (s.setCore c k).hts = s.hts := rfl
@[simp] theorem setCore_upd (s : State) (c : Nat) (k : DspCore) : (s.setCore c k).upd = s.upd := rfl
@[simp] theorem setCore_kernelClass (s : State) (c : Nat) (k : DspCore) : (s.setCore c k).kernelClass = s.kernelClass := rfl
@[simp] theorem setCore_hbm (s : State) (c : Nat) (k : DspCore) : (s.setCore c k).hbm = s.hbm := rfl
@[simp] theorem setCore_vdes (s : State) (c : Nat) (k : DspCore) : (s.setCore c k).vdes = s.vdes := rfl
@[simp] theorem setCore_codecs (s : State) (c : Nat) (k : DspCore) : (s.setCore c k).codecs = s.codecs := rfl
@[simp] theorem setCore_injected (s : State) (c : Nat) (k : DspCore) : (s.setCore c k).injected = s.injected := rfl
@[simp] theorem setCore_cmps (s : State) (c : Nat) (k : DspCore) : (s.setCore c k).cmps = s.cmps := rfl
@[simp] theorem setCore_subs (s : State) (c : Nat) (k : DspCore) : (s.setCore c k).subs = s.subs := rfl
@[simp] theorem setCore_cpls (s : State) (c : Nat) (k : DspCore) : (s.setCore c k).cpls = s.cpls := rfl
@[simp] theorem setCore_hostGrants (s : State) (c : Nat) (k : DspCore) : (s.setCore c k).hostGrants = s.hostGrants := rfl
@[simp] theorem setCore_mbx (s : State) (c : Nat) (k : DspCore) : (s.setCore c k).mbx = s.mbx := rfl
@[simp] theorem setCore_vees (s : State) (c : Nat) (k : DspCore) : (s.setCore c k).vees = s.vees := rfl
@[simp] theorem setCore_encs (s : State) (c : Nat) (k : DspCore) : (s.setCore c k).encs = s.encs := rfl
@[simp] theorem setCore_tsp (s : State) (c : Nat) (k : DspCore) : (s.setCore c k).tsp = s.tsp := rfl
@[simp] theorem setCore_objNum (s : State) (c : Nat) (k : DspCore) : (s.setCore c k).objNum = s.objNum := rfl
@[simp] theorem setCore_objOct (s : State) (c : Nat) (k : DspCore) : (s.setCore c k).objOct = s.objOct := rfl
@[simp] theorem setCore_dspShared (s : State) (c : Nat) (k : DspCore) : (s.setCore c k).dspShared = s.dspShared := rfl
@[simp] theorem setCore_pads (s : State) (c : Nat) (k : DspCore) : (s.setCore c k).pads = s.pads := rfl
@[simp] theorem setCore_reg_read (s : State) (c : Nat) (k : DspCore) (p : Nat) : (s.setCore c k).reg p = s.reg p := rfl
@[simp] theorem setCore_get_read (s : State) (c : Nat) (k : DspCore) (g : Fld) : (s.setCore c k).get g = s.get g := rfl
@[simp] theorem setCore_isSet_read (s : State) (c : Nat) (k : DspCore) (g : Fld) : (s.setCore c k).isSet g = s.isSet g := rfl
@[simp] theorem setCore_pair_read (s : State) (c : Nat) (k : DspCore) (g g₂ : Fld) : (s.setCore c k).pair g g₂ = s.pair g g₂ := rfl
@[simp] theorem setCore_isFenced_read (s : State) (c : Nat) (k : DspCore) (p q : Nat) : (s.setCore c k).isFenced p q = s.isFenced p q := rfl
@[simp] theorem setCore_counter_read (s : State) (c : Nat) (k : DspCore) (p : Nat) : (s.setCore c k).counter p = s.counter p := rfl
@[simp] theorem setCore_obj_read (s : State) (c : Nat) (k : DspCore) (p q r : Nat) : (s.setCore c k).obj p q r = s.obj p q r := rfl
@[simp] theorem setCore_octets_read (s : State) (c : Nat) (k : DspCore) (p q : Nat) : (s.setCore c k).octets p q = s.octets p q := rfl
@[simp] theorem setCore_byte_read (s : State) (c : Nat) (k : DspCore) (p : Nat) : (s.setCore c k).byte p = s.byte p := rfl
@[simp] theorem setCore_bytes_read (s : State) (c : Nat) (k : DspCore) (p q : Nat) : (s.setCore c k).bytes p q = s.bytes p q := rfl
@[simp] theorem setCore_le_read (s : State) (c : Nat) (k : DspCore) (p q : Nat) : (s.setCore c k).le p q = s.le p q := rfl
@[simp] theorem setCore_marked_read (s : State) (c : Nat) (k : DspCore) (p : Nat) : (s.setCore c k).marked p = s.marked p := rfl
@[simp] theorem setCore_island_read (s : State) (c : Nat) (k : DspCore) (p : Nat) : (s.setCore c k).island p = s.island p := rfl
@[simp] theorem setCore_fn_read (s : State) (c : Nat) (k : DspCore) (p : Nat) : (s.setCore c k).fn p = s.fn p := rfl
@[simp] theorem setCore_time64_read (s : State) (c : Nat) (k : DspCore) : (s.setCore c k).time64 = s.time64 := rfl
@[simp] theorem setCore_taskAt_read (s : State) (c : Nat) (k : DspCore) (p : Nat) : (s.setCore c k).taskAt p = s.taskAt p := rfl
@[simp] theorem setCore_free_read (s : State) (c : Nat) (k : DspCore) (p : Nat) : (s.setCore c k).free p = s.free p := rfl

/-! ### setTask -/

@[simp] theorem setTask_pending (s : State) (n : Nat) (t : Task) : (s.setTask n t).pending = s.pending := rfl
@[simp] theorem setTask_cycle (s : State) (n : Nat) (t : Task) : (s.setTask n t).cycle = s.cycle := rfl
@[simp] theorem setTask_freeCtr (s : State) (n : Nat) (t : Task) : (s.setTask n t).freeCtr = s.freeCtr := rfl
@[simp] theorem setTask_out (s : State) (n : Nat) (t : Task) : (s.setTask n t).out = s.out := rfl
@[simp] theorem setTask_regs (s : State) (n : Nat) (t : Task) : (s.setTask n t).regs = s.regs := rfl
@[simp] theorem setTask_rwvB (s : State) (n : Nat) (t : Task) : (s.setTask n t).rwvB = s.rwvB := rfl
@[simp] theorem setTask_rwvC (s : State) (n : Nat) (t : Task) : (s.setTask n t).rwvC = s.rwvC := rfl
@[simp] theorem setTask_sweptAt (s : State) (n : Nat) (t : Task) : (s.setTask n t).sweptAt = s.sweptAt := rfl
@[simp] theorem setTask_ctr (s : State) (n : Nat) (t : Task) : (s.setTask n t).ctr = s.ctr := rfl
@[simp] theorem setTask_latch (s : State) (n : Nat) (t : Task) : (s.setTask n t).latch = s.latch := rfl
@[simp] theorem setTask_mem (s : State) (n : Nat) (t : Task) : (s.setTask n t).mem = s.mem := rfl
@[simp] theorem setTask_poison (s : State) (n : Nat) (t : Task) : (s.setTask n t).poison = s.poison := rfl
@[simp] theorem setTask_sql (s : State) (n : Nat) (t : Task) : (s.setTask n t).sql = s.sql := rfl
@[simp] theorem setTask_islands (s : State) (n : Nat) (t : Task) : (s.setTask n t).islands = s.islands := rfl
@[simp] theorem setTask_early (s : State) (n : Nat) (t : Task) : (s.setTask n t).early = s.early := rfl
@[simp] theorem setTask_bells (s : State) (n : Nat) (t : Task) : (s.setTask n t).bells = s.bells := rfl
@[simp] theorem setTask_deviceFatal (s : State) (n : Nat) (t : Task) : (s.setTask n t).deviceFatal = s.deviceFatal := rfl
@[simp] theorem setTask_fns (s : State) (n : Nat) (t : Task) : (s.setTask n t).fns = s.fns := rfl
@[simp] theorem setTask_bpm (s : State) (n : Nat) (t : Task) : (s.setTask n t).bpm = s.bpm := rfl
@[simp] theorem setTask_queues (s : State) (n : Nat) (t : Task) : (s.setTask n t).queues = s.queues := rfl
@[simp] theorem setTask_egress (s : State) (n : Nat) (t : Task) : (s.setTask n t).egress = s.egress := rfl
@[simp] theorem setTask_gates (s : State) (n : Nat) (t : Task) : (s.setTask n t).gates = s.gates := rfl
@[simp] theorem setTask_time (s : State) (n : Nat) (t : Task) : (s.setTask n t).time = s.time := rfl
@[simp] theorem setTask_rly (s : State) (n : Nat) (t : Task) : (s.setTask n t).rly = s.rly := rfl
@[simp] theorem setTask_ageZero (s : State) (n : Nat) (t : Task) : (s.setTask n t).ageZero = s.ageZero := rfl
@[simp] theorem setTask_mxm (s : State) (n : Nat) (t : Task) : (s.setTask n t).mxm = s.mxm := rfl
@[simp] theorem setTask_fw (s : State) (n : Nat) (t : Task) : (s.setTask n t).fw = s.fw := rfl
@[simp] theorem setTask_gul (s : State) (n : Nat) (t : Task) : (s.setTask n t).gul = s.gul := rfl
@[simp] theorem setTask_boot (s : State) (n : Nat) (t : Task) : (s.setTask n t).boot = s.boot := rfl
@[simp] theorem setTask_sdg (s : State) (n : Nat) (t : Task) : (s.setTask n t).sdg = s.sdg := rfl
@[simp] theorem setTask_cpx (s : State) (n : Nat) (t : Task) : (s.setTask n t).cpx = s.cpx := rfl
@[simp] theorem setTask_holders (s : State) (n : Nat) (t : Task) : (s.setTask n t).holders = s.holders := rfl
@[simp] theorem setTask_trk (s : State) (n : Nat) (t : Task) : (s.setTask n t).trk = s.trk := rfl
@[simp] theorem setTask_upd (s : State) (n : Nat) (t : Task) : (s.setTask n t).upd = s.upd := rfl
@[simp] theorem setTask_kernelClass (s : State) (n : Nat) (t : Task) : (s.setTask n t).kernelClass = s.kernelClass := rfl
@[simp] theorem setTask_hbm (s : State) (n : Nat) (t : Task) : (s.setTask n t).hbm = s.hbm := rfl
@[simp] theorem setTask_vdes (s : State) (n : Nat) (t : Task) : (s.setTask n t).vdes = s.vdes := rfl
@[simp] theorem setTask_codecs (s : State) (n : Nat) (t : Task) : (s.setTask n t).codecs = s.codecs := rfl
@[simp] theorem setTask_injected (s : State) (n : Nat) (t : Task) : (s.setTask n t).injected = s.injected := rfl
@[simp] theorem setTask_cmps (s : State) (n : Nat) (t : Task) : (s.setTask n t).cmps = s.cmps := rfl
@[simp] theorem setTask_subs (s : State) (n : Nat) (t : Task) : (s.setTask n t).subs = s.subs := rfl
@[simp] theorem setTask_cpls (s : State) (n : Nat) (t : Task) : (s.setTask n t).cpls = s.cpls := rfl
@[simp] theorem setTask_hostGrants (s : State) (n : Nat) (t : Task) : (s.setTask n t).hostGrants = s.hostGrants := rfl
@[simp] theorem setTask_mbx (s : State) (n : Nat) (t : Task) : (s.setTask n t).mbx = s.mbx := rfl
@[simp] theorem setTask_vees (s : State) (n : Nat) (t : Task) : (s.setTask n t).vees = s.vees := rfl
@[simp] theorem setTask_encs (s : State) (n : Nat) (t : Task) : (s.setTask n t).encs = s.encs := rfl
@[simp] theorem setTask_tsp (s : State) (n : Nat) (t : Task) : (s.setTask n t).tsp = s.tsp := rfl
@[simp] theorem setTask_objNum (s : State) (n : Nat) (t : Task) : (s.setTask n t).objNum = s.objNum := rfl
@[simp] theorem setTask_objOct (s : State) (n : Nat) (t : Task) : (s.setTask n t).objOct = s.objOct := rfl
@[simp] theorem setTask_dsp (s : State) (n : Nat) (t : Task) : (s.setTask n t).dsp = s.dsp := rfl
@[simp] theorem setTask_dspShared (s : State) (n : Nat) (t : Task) : (s.setTask n t).dspShared = s.dspShared := rfl
@[simp] theorem setTask_pads (s : State) (n : Nat) (t : Task) : (s.setTask n t).pads = s.pads := rfl
@[simp] theorem setTask_reg_read (s : State) (n : Nat) (t : Task) (p : Nat) : (s.setTask n t).reg p = s.reg p := rfl
@[simp] theorem setTask_get_read (s : State) (n : Nat) (t : Task) (g : Fld) : (s.setTask n t).get g = s.get g := rfl
@[simp] theorem setTask_isSet_read (s : State) (n : Nat) (t : Task) (g : Fld) : (s.setTask n t).isSet g = s.isSet g := rfl
@[simp] theorem setTask_pair_read (s : State) (n : Nat) (t : Task) (g g₂ : Fld) : (s.setTask n t).pair g g₂ = s.pair g g₂ := rfl
@[simp] theorem setTask_isFenced_read (s : State) (n : Nat) (t : Task) (p q : Nat) : (s.setTask n t).isFenced p q = s.isFenced p q := rfl
@[simp] theorem setTask_counter_read (s : State) (n : Nat) (t : Task) (p : Nat) : (s.setTask n t).counter p = s.counter p := rfl
@[simp] theorem setTask_obj_read (s : State) (n : Nat) (t : Task) (p q r : Nat) : (s.setTask n t).obj p q r = s.obj p q r := rfl
@[simp] theorem setTask_octets_read (s : State) (n : Nat) (t : Task) (p q : Nat) : (s.setTask n t).octets p q = s.octets p q := rfl
@[simp] theorem setTask_byte_read (s : State) (n : Nat) (t : Task) (p : Nat) : (s.setTask n t).byte p = s.byte p := rfl
@[simp] theorem setTask_bytes_read (s : State) (n : Nat) (t : Task) (p q : Nat) : (s.setTask n t).bytes p q = s.bytes p q := rfl
@[simp] theorem setTask_le_read (s : State) (n : Nat) (t : Task) (p q : Nat) : (s.setTask n t).le p q = s.le p q := rfl
@[simp] theorem setTask_marked_read (s : State) (n : Nat) (t : Task) (p : Nat) : (s.setTask n t).marked p = s.marked p := rfl
@[simp] theorem setTask_island_read (s : State) (n : Nat) (t : Task) (p : Nat) : (s.setTask n t).island p = s.island p := rfl
@[simp] theorem setTask_fn_read (s : State) (n : Nat) (t : Task) (p : Nat) : (s.setTask n t).fn p = s.fn p := rfl
@[simp] theorem setTask_time64_read (s : State) (n : Nat) (t : Task) : (s.setTask n t).time64 = s.time64 := rfl
@[simp] theorem setTask_core_read (s : State) (n : Nat) (t : Task) (p : Nat) : (s.setTask n t).core p = s.core p := rfl
@[simp] theorem setTask_free_read (s : State) (n : Nat) (t : Task) (p : Nat) : (s.setTask n t).free p = s.free p := rfl

end Sys2Proof.Laws
end

