-- ==== Sys2Proof/Laws/Machine.lean ====
section
/-! SUPPORT. The shared operations of the machine: what an access, an island's state, a fence, an entry of the log, a vector and a cycle
can do, and that each keeps the queue of commands and the canonical form. -/

namespace Sys2Proof.Laws

open Sys2Proof Sys2Proof.Machine Sys2Proof.Safety

/-! ### Accesses (R482, R484) -/

theorem access_denied {s : State} {who : Sender} {a : Nat} {f : State → Result} (c : s.cutOff who = false)
    (h : s.accessible who a = false) : s.access who a f = .next s := by simp [State.access, c, h]

theorem access_cutOff {s : State} {who : Sender} {a : Nat} {f : State → Result} (c : s.cutOff who = true) :
    s.access who a f = .next (s.lostWrite who a) := by simp [State.access, c]

theorem accessRead_denied {s : State} {who : Sender} {a : Nat} {f : State → Result} (c : Crosses s who)
    (h : s.accessible who a = false) : s.accessRead who a f = .next (s.emit (.readDone who a 0)) := by
  simp [State.accessRead, c.1, c.2, h]

theorem accessRead_absent {s : State} {who : Sender} {a : Nat} {f : State → Result} (h : s.absent who = true) :
    s.accessRead who a f = .next s := by simp [State.accessRead, h]

theorem accessRead_cutOff {s : State} {who : Sender} {a : Nat} {f : State → Result} (c : s.cutOff who = true)
    (h : s.absent who = false) : s.accessRead who a f = .next (s.lostRead who a) := by simp [State.accessRead, c, h]

theorem access_served {s : State} {who : Sender} {a : Nat} {f : State → Result} (h : Serves s who a) : s.access who a f = f s := by
  simp [State.access, h.1.1, h.1.2, h.2.1]

theorem accessRead_served {s : State} {who : Sender} {a : Nat} {f : State → Result} (h : Serves s who a) :
    s.accessRead who a f = f s := by simp [State.accessRead, h.1.1, h.1.2, h.2.1, h.2.2]

/-- No write of a host function is due before an internal write of the register. -/
theorem hostFirst_none (s : State) (a : Nat) (h : s.hostWritesNow a = []) : s.hostFirst a = s := by simp [State.hostFirst, h]

/-- A write of a register whose block no access wakes is the write of its word, where no host write comes before it. -/
theorem registerWrite_next (s : State) (who : Sender) (a : BitVec 24) (w : Word) (h : s.accessible who a.toNat = true)
    (c : s.cutOff who = false) (ha : a.toNat % 4 = 0) (hi : islandAt a.toNat = none) (he : s.early = [])
    (hw : isHost who = false → s.hostWritesNow a.toNat = []) :
    exec (.registerWrite who a w) s = .next (s.writeReg who a.toNat w.toNat) := by
  cases hh : isHost who
  · simp [exec, execRegisterWrite, State.registerWrite, h, ha, State.accessWakes, hi, he, hh, c, hostFirst_none _ _ (hw hh)]
  · simp [exec, execRegisterWrite, State.registerWrite, h, ha, State.accessWakes, hi, he, hh, c]

/-! ### Islands (R28) -/

theorem island_setIsland (s : State) (i j : Nat) (l : LullState) : (s.setIsland i l).island j = if j = i then l else s.island j := by
  unfold State.setIsland State.island
  simp only [get_set]
  split
  · rfl
  · split <;> rfl

theorem setIsland_frame (s : State) (i : Nat) (l : LullState) :
    s.setIsland i l = { s with regs := (s.setIsland i l).regs, islands := (s.setIsland i l).islands } := by
  unfold State.setIsland; split <;> rfl

theorem lullBit_width (i : Nat) (f : Fld) (h : lullBit i = some f) : f.width = 1 ∧ f.lsb + 1 ≤ 32 := by
  unfold lullBit at h
  (repeat' split at h) <;> (try cases h) <;> exact ⟨rfl, Nat.le_of_ble_eq_true rfl⟩

/-- The LULL bit shows whether the island is awake. -/
theorem setIsland_lullBit (s : State) (i : Nat) (l : LullState) (f : Fld) (h : lullBit i = some f) :
    (s.setIsland i l).isSet f = (l != .awake) := by
  unfold State.setIsland; rw [h]
  exact isSet_putBit_same s f _ (lullBit_width i f h).2 (lullBit_width i f h).1

theorem wake_frame (s : State) (i : Nat) : s.wake i = { s with regs := (s.wake i).regs, islands := (s.wake i).islands } := by
  unfold State.wake; split
  · exact setIsland_frame _ _ _
  · rfl

theorem accessWakes_frame (s : State) (a : Nat) :
    s.accessWakes a = { s with regs := (s.accessWakes a).regs, islands := (s.accessWakes a).islands } := by
  unfold State.accessWakes; split
  · exact wake_frame _ _
  · rfl

/-! ### What an operation keeps -/

/-- The state `t` has the queue of `s`, and is in the canonical form where `s` is. -/
def Keeps (s t : State) : Prop := t.pending = s.pending ∧ (Canonical s → Canonical t)

theorem Keeps.refl (s : State) : Keeps s s := ⟨rfl, id⟩

theorem Keeps.trans {s t u : State} (h : Keeps s t) (k : Keeps t u) : Keeps s u := ⟨k.1.trans h.1, fun c => k.2 (h.2 c)⟩

/-- An update of other fields than the queue, memory, the registers and the counters keeps them. -/
theorem Keeps.other {s t : State} (hp : t.pending = s.pending) (hm : t.mem = s.mem) (hr : t.regs = s.regs) (hc : t.ctr = s.ctr) :
    Keeps s t := ⟨hp, fun c => by unfold Canonical at *; rw [hm, hr, hc]; exact c⟩

theorem keeps_setReg (s : State) (a : Nat) (w : Word) : Keeps s (s.setReg a w) :=
  ⟨rfl, fun c => ⟨c.1, wf_set resetWord s.regs a w c.2.1, c.2.2⟩⟩

theorem keeps_put (s : State) (f : Fld) (v : Nat) : Keeps s (s.put f v) := keeps_setReg _ _ _

theorem keeps_putBit (s : State) (f : Fld) (b : Bool) : Keeps s (s.putBit f b) := keeps_put _ _ _

theorem keeps_bump (s : State) (f : Fld) (n : Nat) : Keeps s (s.bump f n) := keeps_put _ _ _

theorem keeps_drop (s : State) (f : Fld) (n : Nat) : Keeps s (s.drop f n) := keeps_put _ _ _

theorem keeps_putVoted (s : State) (f : Fld) (v : Nat) : Keeps s (s.putVoted f v) :=
  (keeps_put s f v).trans (.other rfl rfl rfl rfl)

theorem keeps_putPair (s : State) (lo hi : Fld) (v : Nat) : Keeps s (s.putPair lo hi v) := (keeps_put _ _ _).trans (keeps_put _ _ _)

/-- Registers that return to their reset values keep the canonical form. -/
theorem keeps_filterRegs (s : State) (p : Nat × Word → Bool) : Keeps s { s with regs := s.regs.filter p } :=
  ⟨rfl, fun c => ⟨c.1, wf_filter resetWord s.regs p c.2.1, c.2.2⟩⟩

theorem keeps_setCounter (s : State) (a v : Nat) : Keeps s (s.setCounter a v) :=
  ⟨rfl, fun c => ⟨c.1, c.2.1, wf_set (fun _ => 0) s.ctr a _ c.2.2⟩⟩

theorem keeps_count (s : State) (a n : Nat) : Keeps s (s.count a n) :=
  ⟨rfl, fun c => ⟨c.1, c.2.1, wf_set (fun _ => 0) s.ctr a _ c.2.2⟩⟩

theorem keeps_emit (s : State) (o : Output) : Keeps s (s.emit o) := .other rfl rfl rfl rfl

theorem keeps_emitAll (s : State) (os : List Output) : Keeps s (s.emitAll os) := .other rfl rfl rfl rfl

theorem keeps_spent (s : State) : Keeps s s.spent := .other rfl rfl rfl rfl

theorem keeps_setBytes (s : State) (a : Nat) (bs : List Byte) : Keeps s (s.setBytes a bs) := by
  refine ⟨by rw [setBytes_frame], fun c => ⟨wf_setBytes s a bs c.1, ?_⟩⟩
  rw [setBytes_frame]; exact c.2

theorem keeps_setLe (s : State) (a n v : Nat) : Keeps s (s.setLe a n v) := keeps_setBytes _ _ _

theorem keeps_zero (s : State) (a n : Nat) : Keeps s (s.zero a n) := keeps_setBytes _ _ _

theorem keeps_tick (s : State) : Keeps s s.tick := by
  have h : Keeps s { s with cycle := s.cycle + 1, time := s.time.tick s.slew } := .other rfl rfl rfl rfl
  unfold State.tick; split
  · exact h.trans (keeps_put _ _ _)
  · exact h

theorem keeps_setFn (s : State) (n : Nat) (f : HostFunction) : Keeps s (s.setFn n f) := .other rfl rfl rfl rfl

/-- A vector's event changes the output or the function's pending bit. -/
theorem keeps_raise (s : State) (n v : Nat) : Keeps s (s.raise n v) := by
  unfold State.raise; dsimp only
  split
  · exact .refl s
  · split
    · exact keeps_setFn _ _ _
    · exact keeps_emit _ _

theorem keeps_devEvent (s : State) : Keeps s s.devEvent := keeps_raise _ _ _

theorem keeps_writeEntry (s : State) (e : SquallEntry) : Keeps s (s.writeEntry e) := by
  unfold State.writeEntry; dsimp only
  split
  · exact (keeps_count _ _ _).trans (.other rfl rfl rfl rfl)
  · exact (keeps_putBit _ _ _).trans ((keeps_count _ _ _).trans (.other rfl rfl rfl rfl))

/-- An entry reaches the log, is filtered or is counted as suppressed (R592); no other entry, memory or queue changes. -/
theorem keeps_log (s : State) (unit inst sev event p0 p1 : Nat) : Keeps s (s.log unit inst sev event p0 p1) := by
  unfold State.log; dsimp only
  split
  · exact .refl s
  · split
    · exact keeps_bump _ _ _
    · have h : Keeps s (if sev < 3 then s.writeEntry ⟨s.time64, unit, sev, event, inst, p0 % 2 ^ 64, p1 % 2 ^ 64⟩
          else (s.writeEntry ⟨s.time64, unit, sev, event, inst, p0 % 2 ^ 64, p1 % 2 ^ 64⟩).devEvent) := by
        split
        · exact keeps_writeEntry _ _
        · exact (keeps_writeEntry _ _).trans (keeps_devEvent _)
      split
      · exact h.trans (keeps_putBit _ _ _)
      · exact h

theorem keeps_setIsland (s : State) (i : Nat) (l : LullState) : Keeps s (s.setIsland i l) := by
  unfold State.setIsland; dsimp only
  split
  · exact (keeps_putBit _ _ _).trans (.other rfl rfl rfl rfl)
  · exact .other rfl rfl rfl rfl

theorem keeps_wake (s : State) (i : Nat) : Keeps s (s.wake i) := by
  unfold State.wake; split
  · exact keeps_setIsland _ _ _
  · exact .refl s

theorem keeps_accessWakes (s : State) (a : Nat) : Keeps s (s.accessWakes a) := by
  unfold State.accessWakes; split
  · exact keeps_wake _ _
  · exact .refl s

/-- What a fenced crossing discards changes only what leaves the block. -/
theorem keeps_lostWrite (s : State) (who : Sender) (a : Nat) : Keeps s (s.lostWrite who a) := by
  unfold State.lostWrite; split <;> exact keeps_emit _ _

theorem keeps_lostRead (s : State) (who : Sender) (a : Nat) : Keeps s (s.lostRead who a) := by
  unfold State.lostRead; split <;> exact keeps_emit _ _

/-- A command that is an access keeps what its effect keeps. -/
theorem keeps_access {s t : State} {who : Sender} {a : Nat} {f : State → Result}
    (hf : ∀ u t, f u = .next t → Keeps u t) (h : s.access who a f = .next t) : Keeps s t := by
  unfold State.access at h; split at h
  · cases h; exact keeps_lostWrite _ _ _
  · split at h
    · exact (keeps_accessWakes _ _).trans (hf _ _ h)
    · cases h; exact .refl s

theorem keeps_accessRead {s t : State} {who : Sender} {a : Nat} {f : State → Result}
    (hf : ∀ u t, f u = .next t → Keeps u t) (h : s.accessRead who a f = .next t) : Keeps s t := by
  unfold State.accessRead at h; split at h
  · cases h; exact .refl s
  · split at h
    · cases h; exact keeps_lostRead _ _ _
    · split at h
      · exact (keeps_accessWakes _ _).trans (hf _ _ h)
      · cases h; exact keeps_emit _ _

theorem keeps_gateOwnIsland (s : State) (unit inst : Nat) : Keeps s (s.gateOwnIsland unit inst) := by
  unfold State.gateOwnIsland; split
  · exact keeps_setIsland _ _ _
  · exact .refl s

/-- A fence sets bits, counts, gates an island and writes an entry (R582); a second fence of the same unit does nothing. -/
theorem keeps_fenceWith (s : State) (unit inst event row param : Nat) : Keeps s (s.fenceWith unit inst event row param) := by
  unfold State.fenceWith; dsimp only
  split
  · exact .refl s
  · refine Keeps.trans ?_ (keeps_put _ _ _)
    refine Keeps.trans ?_ (keeps_putBit _ _ _)
    have h1 : ∀ u : State, Keeps u (match fencedBit unit inst with | some f => u.putBit f true | none => u) := by
      intro u; split
      · exact keeps_putBit _ _ _
      · exact .refl u
    have h2 := ((keeps_putBit s ⟨(R.SQL_FENCE_INSTANCES unit (inst / 32)).addr, inst % 32, 1⟩ true).trans (h1 _)).trans
      (keeps_gateOwnIsland _ unit inst)
    split
    · exact h2.trans ((keeps_log _ _ _ _ _ _ _).trans (.other rfl rfl rfl rfl))
    · exact h2.trans (keeps_log _ _ _ _ _ _ _)

theorem keeps_fence (s : State) (unit inst row param : Nat) : Keeps s (s.fence unit inst row param) := keeps_fenceWith _ _ _ _ _ _

/-- A unit that is fenced stays as it is. -/
theorem fence_again (s : State) (unit inst row param : Nat) (h : s.isFenced unit inst = true) : s.fence unit inst row param = s := by
  simp [State.fence, State.fenceWith, h]

theorem keeps_storm (s : State) (unit inst : Nat) : Keeps s (s.storm unit inst) := by
  have h : ∀ q, Keeps s { s with sql := q } := fun q => .other rfl rfl rfl rfl
  unfold State.storm; dsimp only
  split
  · exact (h _).trans (keeps_fenceWith _ _ _ _ _ _)
  · exact h _

/-- A transient's retry sets its bit, counts it, writes an entry and may fence the unit (R577, R581). -/
theorem keeps_retried (s : State) (unit inst row param : Nat) : Keeps s (s.retried unit inst row param) := by
  unfold State.retried; dsimp only
  have h1 : ∀ u : State, Keeps u (match transientBit unit inst with | some f => u.putBit f true | none => u) := by
    intro u; split
    · exact keeps_putBit _ _ _
    · exact .refl u
  have h2 : ∀ u : State, Keeps u (match transientCounter unit inst with | some a => u.count a | none => u) := by
    intro u; split
    · exact keeps_count _ _ _
    · exact .refl u
  exact ((((h1 s).trans (h2 _)).trans (keeps_bump _ _ _)).trans (keeps_log _ _ _ _ _ _ _)).trans (keeps_storm _ _ _)

theorem keeps_setObj (s : State) (o i d v : Nat) : Keeps s (s.setObj o i d v) := .other rfl rfl rfl rfl

theorem keeps_setOctets (s : State) (o i : Nat) (v : List Byte) : Keeps s (s.setOctets o i v) := .other rfl rfl rfl rfl

/-! ### Counting -/

/-- A counter's increment changes that counter alone. -/
theorem count_only (s : State) (a n : Nat) : CountsOnly s (s.count a n) a n :=
  ⟨rfl, by simp, fun b hb => counter_count_ne s n (by simpa using hb)⟩

end Sys2Proof.Laws
end

