-- ==== Sys2Proof/WellFormed.lean ====
section
/-! DEFINITION. Which commands are well formed: the ranges of what a command carries that its types do not hold by themselves. The device
answers a command that is not within them as its rule says; these are the values that a sender or the world outside can bring at all. -/

namespace Sys2Proof

/-- The senders there are (R498): host functions F0 to F15, control cores, DSP cores, engines 0 to 36 and fixed units 0 to 8. -/
def Sender.ok : Sender → Bool
  | .host n => n < 16
  | .control n => n < 16
  | .dsp n => n < 128
  | .engine n => n < 37
  | .fixed n => n < 9

/-- A roster identifier has 22 bits (R13). -/
def rosterOk (id : Nat) : Bool := id < 2 ^ 22

/-- An operation of a crossing names a sender there is. -/
def CrossingOp.ok : CrossingOp → Bool
  | .write who _ => who.ok
  | .read who _ => who.ok
  | .task id => id < 2 ^ 32
  | .operation who _ => who.ok
  | .hostRead _ _ => true
  | .hostWrite _ => true

/-- The octets of a word of a stream queue, by its owner (R630). -/
def wordWidth (queue : Fin 2048) : Nat := if 16 ≤ queue.val && queue.val < 272 then 64 else if 272 ≤ queue.val && queue.val < 784 then 32 else 16

/-- A word of a stream queue has its queue's width and a PRIO of three bits (R114, R116). -/
def QWord.ok (width : Nat) (w : QWord) : Bool := w.data.length == width && w.prio < 8

/-- A picture's size and layer have the widths of their fields (R79, R169). -/
def PicInfo.ok (p : PicInfo) : Bool :=
  p.layers.all fun l => l.did < 8 && l.qid < 16 && l.tid < 8 && l.width < 65536 && l.height < 65536

/-- A packet's sender is a roster identifier, and its level has seven bits (R47). -/
def LevelReport.ok (r : LevelReport) : Bool := rosterOk r.id && r.level < 128

/-- A listener is a leg, its channel one of the detectors (R341, R346). -/
def Listener.ok (l : Listener) : Bool := l.leg < 16384 && l.det < 1024

/-- A qualifier counts 255ths, and an RSSI code has eight bits (R344). -/
def RxFinding.ok : RxFinding → Bool
  | .qualifier q => q ≤ 255
  | .decided _ rssi => rssi < 256

/-- A cipher request has one of the classes RT, TRUNK and FW and names a key slot; host functions make none (R355, R365). -/
def CipherReq.ok (r : CipherReq) : Bool :=
  r.cls < 3 && r.slot < 65536 && (match r.user with | .fabric (.host _) => false | .fabric who => who.ok | .held => true)

/-- The ranges of a request for octets of HBM (R456, R460). -/
def HbmAsk.ok (a : HbmAsk) : Bool := a.who.ok && 0 < a.op.size && a.addr + a.op.size ≤ 2 ^ 36

/-- Random data is asked for by a sender that is well-formed. -/
def RngAsk.ok : RngAsk → Bool
  | .read who => who.ok
  | .request who => who.ok

/-- An operation on a conference acts on it or on a participant, with an object's number (R20, R410). -/
def ConfOp.ok (o : ConfOp) : Bool := (match o.object with | none => true | some id => rosterOk id) && o.op < 2 ^ 24

/-- Whether a command is well formed. -/
def Instr.wellFormed : Instr → Bool
  | .registerWrite who _ _ => who.ok
  | .rwvRead who _ _ => who.ok
  | .rwvSweep _ => true
  | .crossingParityError _ op _ => op.ok
  | .lullEntry _ => true
  | .lullWake _ _ => true
  | .lullWakeDone _ => true
  | .clusterPrewake _ => true
  | .rxFrame _ _ => true
  | .fctSlowLookupDone => true
  | .rxFrameEnd _ fin => fin.corrected < 65536 && fin.lost < 65536
  | .ingressDecryptDone _ => true
  | .replicate => true
  | .egressEncryptDone _ => true
  | .routeRetired _ => true
  | .linkChange _ _ => true
  | .anComplete _ _ => true
  | .portDisable who _ => who.ok
  | .relayDisable who => who.ok
  | .rlyFctClaim who => who.ok
  | .rlyFctRelease who => who.ok
  | .insert who => who.ok
  | .update who => who.ok
  | .delete who => who.ok
  | .lookup who => who.ok
  | .routeCommit who => who.ok
  | .select who => who.ok
  | .stateWrite who => who.ok
  | .clear who => who.ok
  | .fctCommandDone => true
  | .hashSeedWrite who _ => who.ok
  | .ageScan _ => true
  | .alloc who req _ _ _ _ => who.ok && req < 2 ^ 32
  | .free who _ => who.ok
  | .holdTimeout _ => true
  | .resetPools who mask => who.ok && mask < 64
  | .bpmDisable who => who.ok
  | .poolThresholdWrite who _ _ value => who.ok && value < 2 ^ 21
  | .minfreeWrite who _ => who.ok
  | .queueWrite who queue word => who.ok && word.ok (wordWidth queue)
  | .queueRead who _ => who.ok
  | .dropRest who _ => who.ok
  | .flush who _ => who.ok
  | .compatStallTimeout _ => true
  | .enqueue _ => true
  | .egressPick _ => true
  | .indRead who => who.ok
  | .indWrite who => who.ok
  | .depthSample _ => true
  | .histClr who => who.ok
  | .activate who _ => who.ok
  | .gateTakeover _ => true
  | .gateEntryAdvance _ => true
  | .gateDisable who _ => who.ok
  | .stepAbsolute who => who.ok
  | .stepOffset who => who.ok
  | .timSlewWrite who _ => who.ok
  | .timNsRead who => who.ok
  | .ppsEdge => true
  | .ppsOutRise => true
  | .ppsOutFall => true
  | .ptpEventTx _ _ _ _ _ _ => true
  | .txtsPop who _ => who.ok
  | .decodeStart _ pic => pic.ok
  | .stripPublished _ _ _ _ => true
  | .decodeComplete _ _ => true
  | .vdeWatchdogExpiry _ _ => true
  | .decodeFill _ _ => true
  | .injWd who _ => who.ok
  | .holdRelease who _ => who.ok
  | .composePass _ => true
  | .composeStrip _ => true
  | .composeComplete _ _ _ => true
  | .cmpWatchdogExpiry _ _ _ => true
  | .composeFill _ _ => true
  | .encodeStart _ _ => true
  | .encodeRow _ _ _ => true
  | .encodeComplete _ _ _ => true
  | .veeWatchdogExpiry _ _ _ => true
  | .packetize _ _ _ _ _ _ => true
  | .pacePacket _ _ _ _ => true
  | .spliceStart => true
  | .spliceComplete _ => true
  | .entryTileRequest _ _ _ => true
  | .tspWatchdogExpiry _ _ => true
  | .jbTargetUpdate _ _ _ => true
  | .talkerSetUpdate _ reports => reports.all LevelReport.ok
  | .sourcePortWrite who _ _ _ => who.ok
  | .sourceCfgApply _ => true
  | .frameStart => true
  | .mixFrame _ => true
  | .mxmClaim who => who.ok
  | .mxmRelease who => who.ok
  | .load who => who.ok
  | .store who => who.ok
  | .readActive who => who.ok
  | .swapCommit who _ _ _ => who.ok
  | .swapApply => true
  | .gainStep _ _ _ _ => true
  | .stepTimeout _ _ => true
  | .mixDisable who => who.ok
  | .talkerAdmit _ _ _ _ frame tag _ _ _ _ => frame < 2 ^ 32 && tag < 65536
  | .talkerRemove _ _ _ _ tag _ _ _ => tag < 65536
  | .audioFrameLate _ frame => frame < 2 ^ 32
  | .ld _ _ _ _ _ => true
  | .ld2 _ _ _ _ _ => true
  | .st _ _ _ _ _ => true
  | .st2 _ _ _ _ _ => true
  | .mod _ _ _ _ _ => true
  | .add _ _ _ _ _ => true
  | .sub _ _ _ _ _ => true
  | .dspAnd _ _ _ _ _ => true
  | .dspOr _ _ _ _ _ => true
  | .xor _ _ _ _ _ => true
  | .ash _ _ _ _ _ => true
  | .lsh _ _ _ _ _ => true
  | .min _ _ _ _ _ => true
  | .max _ _ _ _ _ => true
  | .abs _ _ _ _ => true
  | .neg _ _ _ _ => true
  | .cmp _ _ _ _ => true
  | .adda _ _ _ _ _ => true
  | .mov _ _ _ _ => true
  | .mvg _ _ _ _ _ => true
  | .mac2 _ _ _ _ _ _ _ _ => true
  | .msu2 _ _ _ _ _ _ _ _ => true
  | .mpy2 _ _ _ _ _ _ _ _ => true
  | .mac _ _ _ _ _ => true
  | .msu _ _ _ _ _ => true
  | .mpy _ _ _ _ _ => true
  | .accadd _ _ _ _ _ => true
  | .accsh _ _ _ _ => true
  | .rnd _ _ _ _ => true
  | .clr2 _ _ _ _ => true
  | .dspB _ _ _ => true
  | .bcc _ _ _ _ => true
  | .call _ _ _ => true
  | .ret _ _ => true
  | .dspRep _ _ _ _ _ => true
  | .brk _ _ _ => true
  | .take _ _ => true
  | .takeGrant _ => true
  | .done _ _ => true
  | .doneDmaDrained _ => true
  | .rti _ _ => true
  | .swi _ _ _ => true
  | .nop _ _ _ => true
  | .interruptTaken _ => true
  | .coreTimerExpiry _ => true
  | .dmaStart _ _ _ => true
  | .dmaDescDone _ _ => true
  | .dspWatchdogExpiry _ => true
  | .selftestDone _ _ => true
  | .dscDoorbell who _ _ => who.ok
  | .halt who _ _ => who.ok
  | .step who _ => who.ok
  | .kernelInstall _ _ => true
  | .probeNow who _ _ => who.ok
  | .probeArm _ _ _ _ _ _ => true
  | .modStartWrite who _ _ => who.ok
  | .beaconFrameStart _ => true
  | .beaconFrameEnd _ => true
  | .probeJudge _ listeners => listeners.all Listener.ok
  | .probeAbort _ => true
  | .detectorConfig who _ _ _ => who.ok
  | .detectorFrame _ _ findings _ => findings.all fun f => f.2.ok
  | .agcRelease _ => true
  | .colocGroupApply _ buses tag => buses.all (fun b => b < 4096) && tag < 65536
  | .cipherRequest req => req.ok
  | .cipherComplete _ _ => true
  | .gracePeriodEnd _ => true
  | .keyStoreEccError _ _ _ => true
  | .kslClaim who => who.ok
  | .kslRelease who => who.ok
  | .kslDataWrite who _ _ => who.ok
  | .write who => who.ok
  | .erase who => who.ok
  | .zeroize who => who.ok
  | .zeroizeAll who => who.ok
  | .retireOld who => who.ok
  | .kslStatus who => who.ok
  | .ctxInit who => who.ok
  | .ctxClear who => who.ok
  | .kslCommandDone => true
  | .cpxPkaClaim who => who.ok
  | .cpxPkaRelease who => who.ok
  | .verify who digest x y r sv => who.ok && (digest < 2 ^ 256 && x < 2 ^ 256 && y < 2 ^ 256 && r < 2 ^ 256 && sv < 2 ^ 256)
  | .sign who digest _ => who.ok && digest < 2 ^ 256
  | .keygen who _ => who.ok
  | .ecdh who _ x y => who.ok && (x < 2 ^ 256 && y < 2 ^ 256)
  | .deriveToSlot who _ suite _ _ _ => who.ok && suite < 256
  | .pkaCommandDone => true
  | .rngDataRead ask => ask.ok
  | .rngReady => true
  | .rngHealthFail => true
  | .trunkEnable who _ => who.ok
  | .trunkDisable who _ => who.ok
  | .helloResend _ => true
  | .hello _ => true
  | .helloReply _ => true
  | .media _ => true
  | .audio _ => true
  | .reliable _ => true
  | .ack _ => true
  | .heartbeat _ => true
  | .probe _ => true
  | .probeReply _ => true
  | .rekey _ => true
  | .control _ => true
  | .heartbeatSend _ => true
  | .heartbeatMiss _ => true
  | .probeTimeout _ => true
  | .ackSend _ => true
  | .retransmitTimeout _ seq => seq < 2 ^ 32
  | .rekeyStart _ => true
  | .rosterUpdate _ _ epoch id _ => epoch < 2 ^ 32 && rosterOk id
  | .talkerReport _ _ epoch pairs => epoch < 2 ^ 32 && pairs.all (fun p => p.1 < 16384 && p.2 < 256)
  | .talkerSet _ _ epoch ids => epoch < 2 ^ 32 && ids.all rosterOk
  | .confOp _ who _ op => who.ok && op.ok
  | .confOpResult _ _ status => status < 256
  | .stateSummary _ _ anchor anchorEpoch epoch length => anchor < 256 && anchorEpoch < 2 ^ 32 && epoch < 2 ^ 32 && length < 2 ^ 32
  | .journalEntry _ _ epoch _ _ op => (epoch < 2 ^ 32 && op.ok)
  | .journalDone _ _ count => count < 2 ^ 32
  | .channelOffer _ _ stream => stream < 65536
  | .promote who _ => who.ok
  | .create who _ => who.ok
  | .link who pred succ mode => who.ok && pred < 2 ^ 32 && succ < 2 ^ 32 && mode < 2
  | .arm who task => who.ok && task < 2 ^ 32
  | .cancel who task => who.ok && task < 2 ^ 32
  | .strip who task count _ => who.ok && task < 2 ^ 32 && count < 65536
  | .follow who task => who.ok && task < 2 ^ 32
  | .complete who task status _ => who.ok && task < 2 ^ 32 && status < 256
  | .taskDispatch _ => true
  | .auHandover _ => true
  | .updWindowEnd => true
  | .thermalSample sensors => sensors.length ≤ 40
  | .telemetrySample _ rails islands _ => rails.length == 8 && islands.length == 56
  | .standbyEnter who => who.ok
  | .standbyExit who => who.ok
  | .standbyWakeDone => true
  | .hbmRequest _ _ arrivals _ => arrivals.all HbmAsk.ok
  | .refresh _ _ _ => true
  | .refreshWindowStart _ _ => true
  | .throttleExpiry _ _ => true
  | .scrubRead _ => true
  | .hbmParityError _ _ => true
  | .hbmTrainStep _ _ => true
  | .mapEnable who => who.ok
  | .bar2Read _ n _ => 0 < n
  | .bar2Write _ bytes _ => bytes != []
  | .functionLevelReset _ => true
  | .vfEnableClear _ => true
  | .hotReset _ _ => true
  | .badAccess _ addr _ => addr < 2 ^ 24
  | .tailWrite _ _ _ => true
  | .descFetchDone _ _ descs _ => descs.all fun d => d.length == 32
  | .pioCommit _ _ => true
  | .descNop _ _ => true
  | .inline _ _ => true
  | .hostBuf _ _ _ => true
  | .devBuf _ _ => true
  | .freeCell _ _ => true
  | .rxBuf _ _ => true
  | .frameTx _ _ => true
  | .gulterBlock _ _ => true
  | .firmware _ _ _ => true
  | .cqEntryWrite _ _ => true
  | .headWrite _ _ _ => true
  | .cqCoalesceTimer _ _ => true
  | .msixUnmask _ _ => true
  | .hostQueueDisable _ _ => true
  | .mbxClaim _ => true
  | .mbxDataWrite _ _ _ _ => true
  | .send _ _ _ => true
  | .mbxClaimTimeout _ => true
  | .mbxInternalWrite who _ line _ => who.ok && line.length == 64
  | .mbxRelease who _ => who.ok
  | .dblSet _ _ _ => true
  | .dblInternalSet who _ => who.ok
  | .dblStatClear who _ _ => who.ok
  | .gulterOpen _ _ => true
  | .auth _ _ => true
  | .authTimeout _ => true
  | .close _ => true
  | .sessionIdleTimeout _ => true
  | .read _ _ => true
  | .gulterWrite _ _ => true
  | .blockBegin _ _ _ _ => true
  | .blockSeg _ _ => true
  | .blockEnd _ _ => true
  | .blockTimeout _ => true
  | .subscribe _ _ _ _ => true
  | .unsubscribe _ _ => true
  | .subscriptionSample _ => true
  | .notifyResend _ => true
  | .notifyAck _ _ => true
  | .keepalive _ => true
  | .seqGapTimeout _ => true
  | .sessionCloseAll _ => true
  | .confCreate _ _ => true
  | .confEnd _ _ => true
  | .legAttach _ _ _ => true
  | .legDetach _ _ => true
  | .legRelease _ _ => true
  | .legConnected _ _ => true
  | .legConnectTimeout _ _ => true
  | .encForceIntra _ _ => true
  | .powerOn => true
  | .railsInRegulation => true
  | .rampTimeout => true
  | .vinLow => true
  | .powerOff => true
  | .railFault => true
  | .perstNFall => true
  | .perstNRise => true
  | .reset who _ => who.ok
  | .deviceReset _ => true
  | .fwWatchdog => true
  | .kick who => who.ok
  | .fuseSense _ => true
  | .bankVerify _ => true
  | .stage1Check => true
  | .hbmReady => true
  | .bringupComplete failed => failed.all fun f => f.2 < [16, 16, 4, 1, 128, 24].getD f.1 0
  | .rcvLoad who => who.ok
  | .rcvClear who => who.ok
  | .deviceIdentity _ _ => true
  | .ownerKeyHash _ _ => true
  | .ownerTransferAuth _ _ => true
  | .rollbackFloor _ _ => true
  | .trunkCipherLock _ _ => true
  | .debugDisable _ _ => true
  | .fuseBurnDone _ => true
  | .attestNonce _ _ => true
  | .fwStageBegin _ => true
  | .fwStageData _ _ => true
  | .fwStageHbm _ _ => true
  | .fwStageEnd _ => true
  | .fwActivate _ => true
  | .fwCommit _ => true
  | .squallEntryRead who _ _ => who.ok
  | .refclkSample _ => true
  | .refclkLost => true
  | .cagePresenceChange _ _ => true
  | .cageIdentify _ _ => true
  | .cageOvercurrent _ => true
  | .mgmtLosChange _ _ => true
  | .jtagInstruction _ => true
  | .flrComplete _ => true
  | .cplTimeout _ _ => true
  | .mxmCommandDone => true
  | .mgmtModabsChange _ _ => true
  | .cageIntNFall _ => true
  | .firResend _ => true
  | .counterLoRead who _ => who.ok
  | .bar2SizeChange log2 _ => 28 ≤ log2 && log2 ≤ 36
  | .slotsMaxWrite who => who.ok
  | .irqWaitMaxWrite who _ => who.ok
  | .ipeakWrite who _ => who.ok

end Sys2Proof
end

