-- ==== Sys2Proof/Tests/Slice0.lean ====
section
/-! SUPPORT. Tests: ill-formed commands that WellFormed refuses, published vectors of the algorithms, and for each statement of
Obligations that has premises a state and operands that meet the premises of each of its clauses. -/

namespace Sys2Proof.Tests
open Sys2Proof Sys2Proof.Machine Sys2Proof.Safety
set_option Elab.async false
set_option linter.unusedVariables false

/-- A register listed with the bits of `w` added to it. -/
def ins (a : Nat) (w : Word) : SMap Word → SMap Word
  | [] => [(a, w)]
  | (b, x) :: r => if a < b then (a, w) :: (b, x) :: r else if a = b then (b, x ||| w) :: r else (b, x) :: ins a w r

/-- The machine after reset, with the registers of these fields holding them and zero beside them. -/
def on (fs : List (Fld × Nat)) : State :=
  { State.reset with regs := fs.foldl (fun m f => ins f.1.addr (BitVec.ofNat 32 (f.2 * 2 ^ f.1.lsb)) m) [] }

/-- A task that runs on the unit numbered `u`. -/
def running (kind u : Nat) (desc : List Byte) : Task := { Task.init with st := .running, kind := kind, desc := desc, unit := u }

/-- A received packet of which nothing has been decided. -/
def pkt : RxPacket := ⟨1, 0, [], 64, 0, 0, 0, 0, 0, [], 0, [], 0, 0, noCell, true, false, .waiting, 0, [], none⟩

/-- The state with one received packet. -/
def withPkt (s : State) (p : RxPacket) : State := { s with rly := { s.rly with packets := [p] } }

/-- A snapshot of one route entry to leg 0. -/
def snap1 : RouteSnap := ⟨0, 1, [⟨0, 0, 0, 0, 0⟩], 0, true, true, false⟩

/-- A frame that waits for egress on port 0. -/
def efr : EFrame := ⟨0, 0, 0, 64, noCell, 0, false, []⟩

/-- An IPv4 frame of UDP that carries an RTP header. -/
def udpFrame : List Byte :=
  [0, 0, 0, 0, 0, 0, 2, 0, 0, 0, 0, 1, 8, 0, 0x45, 0, 0, 0x28, 0, 0, 0, 0, 0x40, 0x11, 0x66, 0xC3, 10, 0, 0, 1, 10, 0, 0, 2,
    0x13, 0x88, 0x13, 0x89, 0, 20, 0, 0, 0x80, 0x60, 0, 1, 0, 0, 0, 0, 0, 0, 0, 9, 0, 0, 0, 0, 0, 0]

/-- The state with the port at `a` held by control core 0. -/
def held (a : Nat) (s : State) : State := { s with holders := [(a, some (.control 0))] }
/-- An operation in progress on cipher core `c`. -/
def busyOp (c : Nat) : CipherOp :=
  ⟨c + 100, c, ⟨.held, 0, .xts, true, 0, false, 0, 0, some [], 0, 0, 0, 0, 0⟩, ⟨0, 6, false, [], 0, false, false, false⟩, none, 0, 0, 0, 0⟩
/-- An Ethernet Sync message of the shortest length (R161). -/
def ptpFrame : List Byte := List.replicate 12 0 ++ [0x88, 0xF7] ++ List.replicate 44 0
/-- The key of that frame's flow on port 0 (R58). -/
def udpKey : List Byte :=
  [0, 0, 0x13, 0x88, 0x13, 0x89, 0, 0, 0, 0, 0, 9] ++ List.replicate 16 0 ++ [10, 0, 0, 1] ++ List.replicate 12 0 ++ [10, 0, 0, 2]
/-- Octets from address `a` on, as memory cells: those that are not zero. -/
def cells (a : Nat) (bs : List Byte) : List Host.Cell :=
  ((List.range bs.length).zip bs).filterMap fun e => if e.2 = 0 then none else some (a + e.1, e.2)

/-- A running task whose ARG names address 0x1000. -/
def at1000 (kind u : Nat) : Task := running kind u (List.replicate 64 0 ++ [0, 0x10])

/-- The state with task slot 0 holding `t`. -/
def withTask (s : State) (t : Task) : State := { s with hts := { s.hts with slots := [(0, t)] } }

/-- A decode context of two H.264 buffers of 16 by 16 pixels, in state 1 (R178). -/
def decCtx : List Byte := [0, 0, 16, 0, 16, 0, 2, 0, 0, 0, 0, 0, 0, 0, 0, 0, 0, 0, 1, 0, 64, 0] ++ List.replicate 10 0 ++ [1]

/-- A picture of 16 by 16 pixels that refers to none. -/
def pic16 : PicInfo := ⟨[⟨0, 0, 0, 16, 16⟩], false, false, [], [], [], .no, false, [], 0, [], [], [], [], 0, [], none⟩

/-- A picture being decoded, one strip high. -/
def vdeJob0 : VdeJob := ⟨0, 0x2000, 0x1000, pic16, 0, 1, false, false, false, 0, false, false, false, false, 0, 0, 1⟩

/-- A compose pass over 64 by 64 pixels with one layer (R202). -/
def passDesc : List Byte := [0, 0, 0, 0, 0, 0, 0, 0, 64, 0, 64, 0, 64, 0, 0, 1] ++ List.replicate 48 0

/-- A layer of a glyph, 2 by 2 pixels. -/
def layer2 : List Byte := [1, 0, 0, 0, 0, 0, 0, 0, 2, 0, 2, 0, 0, 0, 0, 0, 2, 0, 2, 0] ++ List.replicate 44 0

/-- A pass in progress. -/
def cmpJob0 : CmpJob := ⟨0, 0x1000, passDesc, [layer2], [[]], [none], [0], [], 0, [], false, 1⟩

/-- The configuration of an H.264 encode of 64 by 64 pixels (R215). -/
def encCfg : List Byte :=
  [0, 0, 64, 0, 64, 0, 0, 0, 16, 0, 0, 0, 0, 0, 0, 0, 150, 0, 30, 20, 40, 30, 0, 1, 0, 0, 0, 0, 0, 0, 0, 0,
    0, 0, 0, 0, 0, 0, 0, 0, 0, 0, 16, 0, 64, 0, 0, 0]

/-- A picture being encoded, none of its four rows coded. -/
def veeJob0 : VeeJob :=
  ⟨0, List.replicate 64 0, 0x2000, encCfg, [1, 1, 1, 1], 0, 0, true, false, true, 0, false, 0, 0, 0, 10000, 2000, 30, 0, 30, 0, 0, [], none, none, false, false, [], false, 1⟩

/-- A splice in progress on an empty canvas. -/
def tspJob0 : TspJob := ⟨0, 0x1000, [0, 0x20] ++ List.replicate 31 0 ++ [0x60] ++ List.replicate 30 0, 0, true, 0, 0, [], List.replicate 36 HeldCell.none, 0, 0, 0, 0, false, 1⟩
/-- A core in a kernel, at an open boundary. -/
def coreRun : DspCore := { DspCore.init with mode := .run, task := some (0, 1) }

/-- The state with core 0 as given. -/
def withCore (k : DspCore) (s : State := State.reset) : State := { s with dsp := [(0, k)] }

/-- A kernel image of one bundle, signed (R325). -/
def kernelImage : List Byte :=
  [0x4B, 0x44, 0x4B, 0x37, 1, 0, 1, 0, 0, 0, 0, 0, 0, 0, 1, 0, 0, 0, 0, 0, 0, 0, 0, 0, 0, 0, 0, 0, 64, 0, 0, 0] ++ List.replicate 40 0 ++
    natToOs 32 0x19910f69ead268a7583aa83f0d1d1062bd3dff87ede7434286ac5435f467c28c ++
    natToOs 32 0x19910f69ead268a7583aa83f0d1d1062bd3dff87ede7434286ac5435f467c28c

/-- The header of a running image with the key that signed it. -/
def kernelHeader : List Byte :=
  List.replicate 128 0 ++ [4] ++ natToOs 32 0x1a91ed6cd15179874d9f23a262fe26ebb638fd06af90b95642fa1bfdd6724846 ++
    natToOs 32 0x49c9939f22cf5cf171bdd2a4bd0b9da1fffcdf801c966a7b7f220503dc4bb806

/-- A key generation of a suite, never used. -/
def gen (num suite : Nat) : KeyGen := ⟨num, suite, false, [], 0, false, false, false⟩

/-- The state with key slot 0 as given. -/
def withSlot (k : KeySlot) (s : State := State.reset) : State := { s with cpx := { s.cpx with slots := [(0, k)] } }

/-- A request for an XTS encryption of 512 octets. -/
def xtsReq : CipherReq := ⟨.held, 0, .xts, true, 0, false, 0, 0, some [], 0, 0, 512, 0, 0⟩
/-- The state with trunk 0 as given and one frame of a type held from it, with a header of zeros. -/
def withTrunk (k : Trunk) (ty : Byte) (body : List Byte) (s : State := State.reset) : State :=
  { s with trk := { s.trk with trunks := [(0, k)], frames := [({ pkt with frame := (ty :: List.replicate 19 0) ++ body, payLen := 20 + body.length }, 0)] } }

/-- That frame, taken. -/
def frame (ty : Byte) (body : List Byte) : TrunkFrame :=
  ⟨0, 0, body, { pkt with frame := (ty :: List.replicate 19 0) ++ body, payLen := 20 + body.length }⟩

/-- A trunk that is up. -/
def trunkUp : Trunk := { Trunk.init with st := .up }

/-- The generator of the curve, in octets. -/
def gOctets : List Byte :=
  natToOs 32 0x6b17d1f2e12c4247f8bce6e563a440f277037d812deb33a0f4a13945d898c296 ++
    natToOs 32 0x4fe342e2fe1a7f9b8ee7eb4a7c0f9e162bce33576b315ececbb6406837bf51f5

/-- A signed REKEY body whose ephemeral key is the generator. -/
def rekeyBody : List Byte :=
  [6, 4] ++ gOctets ++ List.replicate 32 0 ++ natToOs 32 0x4e947b59cc01b48326eb1429b87cdc24d6f7ae58d5fa20568199d821959b0ed0 ++
    natToOs 32 0x4e947b59cc01b48326eb1429b87cdc24d6f7ae58d5fa20568199d821959b0ed0

/-- A trunk that rekeys, with the private key 1 and its peer's identity. -/
def trunkRekey : Trunk :=
  { trunkUp with
    rekeying := true, hs := { KeyExchange.init with d := some 1 },
    peerId := some (0x726f3d6dee993963eaabef85f5a3c8468b6999988fb010ce51677d33bd7dcdfa, 0xeae135ba1a7999b8cfc065655156d95bead7d2666a6695d90a29c9d00ce3226a) }
theorem pair_eta {α β : Type} (p : α × β) : p = (p.1, p.2) := rfl

theorem pair_of {α β : Type} {p : α × β} {b : β} (h : p.2 = b) : p = (p.1, b) := by rw [← h]

theorem none_absurd {α : Type} {o : Option α} {w : α} {p : Prop} (h : o = none) (e : o = some w) : p := by rw [h] at e; cases e

/-- The device at OPERATIONAL, awake. -/
def up60 : List (Fld × Nat) := [(R.HIF_BOOT_STAGE_STAGE, 0x60), (R.UPD_STATUS_AWAKE, 1)]

/-- An open session of function 0. -/
def gul0 : GulSession := ⟨.mailbox 0, 2, true, none, 0, 0, [], [], 0, [], none, 0, [], [], [], 0, none, 0, false, 0, 0⟩

/-- Its next request. -/
def head1 : GulHead := ⟨0, .mailbox 0, 1, 1, 0, 0, true, true⟩

/-- The operational device with session 1 as given. -/
def withGul (g : GulSession) (fs : List (Fld × Nat) := []) : State :=
  { on (up60 ++ fs) with gul := { State.reset.gul with sessions := [(1, some g)] } }

/-- A descriptor of an operation and a service, the rest zero. -/
def desc32 (op svc : Byte) : List Byte := [op, 0, svc] ++ List.replicate 29 0

/-- A one-word packet. -/
def word (d : List Byte) : QWord := ⟨d, true, true, false, 0⟩

/-- Function 0's queue 0 enabled, with one descriptor read. -/
def withDesc (d : List Byte) (ph : BufPhase) (fs : List (Fld × Nat)) : State :=
  { on ([(R.HIF_CTRL_ENABLE, 1), (R.BPM_Qq_CFG_ENABLE 272, 1)] ++ fs) with subs := [(272, ⟨none, [(d, false)], ph⟩)] }

/-- Function 0's queue `j` enabled, with one word for its consumer. -/
def withWord (j : Nat) (d : List Byte) (fs : List (Fld × Nat)) : State :=
  { on ([(R.HIF_CTRL_ENABLE, 1), (R.BPM_Qq_CFG_ENABLE (272 + j), 1)] ++ fs) with queues := [(272 + j, { StreamQueue.init with packets := [[word d]] })] }

/-- A signed transfer of ownership to the owner of hash zero. -/
def transferBody : List Byte := List.replicate 32 0 ++ [4] ++
    natToOs 32 0x9275d3ad583ee65c0b41fe37b3f9e73a1078ad9130cde1bd185025f7ea5504e ++ natToOs 32 0x12611a67e4e1f712bd30260f3819cd964d5afccc895f370dc0f2480473032356 ++
    natToOs 32 0xc89ceed664dc836ab7aecc7d21a8541384b41186c423f53a97f12facb63e79a0 ++ natToOs 32 0xc89ceed664dc836ab7aecc7d21a8541384b41186c423f53a97f12facb63e79a0

/-- The fuses with its signer as owner. -/
def ownerFuses : List (Fld × Nat) :=
  (R.FUS_STATUS_OWNER_SET, 1) :: ([0xcb6dc72, 0x8c74d5fb, 0xa01dc4d9, 0x90ee6700, 0x931a7c04, 0xe71149ca, 0xc39a4540, 0xe87bde53].zipIdx.map fun e => (R.FUS_OWNER_HASH_DATA e.2, e.1))

/-- A session of the management port before and after its next datagram. -/
def port0 : GulSession := { gul0 with path := .management }
def port1 (g : GulSession) : GulSession := { g with rxAny := true, rxTop := 0, rxSeen := 1 }

/-- The operational device with its management port up and session 1 as given. -/
def withPort (g : GulSession) : State :=
  { withGul g [(R.FUS_STATUS_IDENTITY_SET, 1), (R.FUS_PAD_IN_MGMT_LOS, 0), (R.FUS_PAD_PWR_MGMT_TXDIS, 0)] with
    objNum := [(objKey 0x200001 0, 1)], pads := { State.reset.pads with sfp := true } }

theorem peek_empty {x : State} {q : StreamQueue} {n : Nat} (h : x.queue n = q) (e : q = { q with packets := [], reading := [] }) :
    x.peekWord n = none := by
  unfold State.peekWord; rw [h, e]; simp [StreamQueue.pick, takeFirst]

theorem objCheck_of {s : State} {g : GulSession} {a : ObjAddr} {w : Bool} {r : ObjRow} (n : Nat)
    (hn : a.index.toNat * 256 + a.sub.toNat = n) (h : objRow n = some r)
    (hv : (!s.instanceExists r a.inst.toNat || !s.visible g r a.inst.toNat) = false)
    (hw : (if w then r.access == .ro || !roleWrites g.role r else r.access == .wo || !roleReads g.role r) = false) :
    s.objCheck g a w = .ok r := by
  unfold State.objCheck
  rw [hn, h]
  cases w <;> simp_all

/-- The trunk unit enabled, and every trunk off. -/
def trunksOff : State :=
  { State.reset with regs := ins R.TRK_CTRL_ENABLE.addr 1 ((List.range 256).map fun u => ((R.TRK_Tt_CTRL_EN u).addr, 0)) }

theorem trunks_off : ∀ u, u < 256 → trunksOff.isSet (R.TRK_Tt_CTRL_EN u) = false := by decide +kernel

/-! ### Ill-formed commands that the checks refuse -/

/-- There are 16 host functions, 16 control cores, 128 DSP cores, 37 engines and 9 fixed units. -/
theorem test_refuses_senders : Sender.ok (.host 16) = false ∧ Sender.ok (.control 16) = false ∧ Sender.ok (.dsp 128) = false ∧
    Sender.ok (.engine 37) = false ∧ Sender.ok (.fixed 9) = false ∧ Sender.ok (.fixed 8) = true ∧
    RngAsk.ok (.read (.host 16)) = false := by decide

theorem test_refuses_register_write : Instr.wellFormed (.registerWrite (.host 16) 0 0) = false := by decide
theorem test_refuses_roster : rosterOk (2 ^ 22) = false ∧ rosterOk (2 ^ 22 - 1) = true := by decide

theorem test_refuses_crossing_operation : CrossingOp.ok (.task (2 ^ 32)) = false ∧ CrossingOp.ok (.write (.dsp 128) 0) = false ∧
    Instr.wellFormed (.crossingParityError 0 (.operation (.engine 37) 0) false) = false := by decide

theorem test_refuses_queue_word : QWord.ok 16 ⟨List.replicate 17 0, true, true, false, 0⟩ = false ∧
    QWord.ok 16 ⟨List.replicate 16 0, true, true, false, 8⟩ = false ∧ QWord.ok 16 ⟨List.replicate 16 0, true, true, false, 7⟩ = true ∧
    wordWidth 15 = 16 ∧ wordWidth 16 = 64 ∧ wordWidth 271 = 64 ∧ wordWidth 272 = 32 ∧ wordWidth 783 = 32 ∧ wordWidth 784 = 16 ∧
    Instr.wellFormed (.queueWrite (.control 0) 16 ⟨List.replicate 32 0, true, true, false, 0⟩) = false := by decide

theorem test_refuses_picture : PicInfo.ok { pic16 with layers := [⟨0, 0, 0, 65536, 16⟩] } = false ∧
    PicInfo.ok { pic16 with layers := [⟨8, 0, 0, 16, 16⟩] } = false ∧
    Instr.wellFormed (.decodeStart 0 { pic16 with layers := [⟨0, 0, 8, 16, 16⟩] }) = false := by decide

theorem test_refuses_fec_counts : Instr.wellFormed (.rxFrameEnd 0 ⟨true, 65536, 0⟩) = false ∧ Instr.wellFormed (.rxFrameEnd 0 ⟨true, 0, 65536⟩) = false := by decide

theorem test_refuses_memory_request : HbmAsk.ok ⟨.control 0, 2 ^ 36 - 1, .read 2⟩ = false ∧ HbmAsk.ok ⟨.control 0, 0, .write []⟩ = false ∧
    Instr.wellFormed (.hbmRequest 0 0 [⟨.control 16, 0, .read 1⟩] .clean) = false := by decide

theorem test_refuses_level : LevelReport.ok ⟨0, 128, false, false⟩ = false ∧
    Instr.wellFormed (.talkerSetUpdate 0 [⟨2 ^ 22, 0, false, false⟩]) = false := by decide

theorem test_refuses_listener : Listener.ok ⟨16384, 0, true⟩ = false ∧ Instr.wellFormed (.probeJudge 0 [⟨0, 1024, true⟩]) = false := by decide

theorem test_refuses_finding : RxFinding.ok (.qualifier 256) = false ∧
    Instr.wellFormed (.detectorFrame 0 0 [(0, .decided true 256)] .pass) = false := by decide

theorem test_refuses_cipher_request : CipherReq.ok ⟨.fabric (.host 0), 0, .srtp, true, 0, false, 0, 0, none, 0, 0, 0, 0, 0⟩ = false ∧
    CipherReq.ok ⟨.held, 3, .srtp, true, 0, false, 0, 0, none, 0, 0, 0, 0, 0⟩ = false ∧
    Instr.wellFormed (.cipherRequest ⟨.held, 0, .srtp, true, 0, false, 65536, 0, none, 0, 0, 0, 0, 0⟩) = false := by decide

theorem test_refuses_conference_operation : ConfOp.ok ⟨some (2 ^ 22), 0, 0⟩ = false ∧ ConfOp.ok ⟨none, 2 ^ 24, 0⟩ = false ∧
    Instr.wellFormed (.confOp none (.control 0) 0 ⟨none, 2 ^ 24, 0⟩) = false ∧
    Instr.wellFormed (.journalEntry 0 0 (2 ^ 32) 0 true ⟨none, 0, 0⟩) = false := by decide

theorem test_refuses_pools : Instr.wellFormed (.alloc (.control 0) (2 ^ 32) 1 .media false false) = false ∧
    Instr.wellFormed (.resetPools (.control 0) 64) = false ∧ Instr.wellFormed (.poolThresholdWrite (.control 0) 0 .stop (2 ^ 21)) = false := by decide

theorem test_refuses_time_and_mixing : Instr.wellFormed (.bar2Read 0 0 .clean) = false ∧ Instr.wellFormed (.bar2Write 0 [] .clean) = false ∧
    Instr.wellFormed (.talkerAdmit 0 0 0 0 (2 ^ 32) 0 [] [] 0 []) = false ∧ Instr.wellFormed (.talkerRemove 0 0 0 0 65536 [] 0 []) = false ∧
    Instr.wellFormed (.audioFrameLate 0 (2 ^ 32)) = false ∧ Instr.wellFormed (.colocGroupApply 0 [4096] 0) = false := by decide

theorem test_refuses_keys : Instr.wellFormed (.verify (.control 0) (2 ^ 256) 0 0 0 0) = false ∧
    Instr.wellFormed (.sign (.control 0) (2 ^ 256) none) = false ∧ Instr.wellFormed (.ecdh (.control 0) 0 0 (2 ^ 256)) = false ∧
    Instr.wellFormed (.deriveToSlot (.control 0) 0 256 false [] []) = false := by decide

theorem test_refuses_trunk_messages : Instr.wellFormed (.retransmitTimeout 0 (2 ^ 32)) = false ∧
    Instr.wellFormed (.rosterUpdate 0 0 0 (2 ^ 22) .left) = false ∧ Instr.wellFormed (.talkerReport 0 0 0 [(16384, 0)]) = false ∧
    Instr.wellFormed (.talkerSet 0 0 0 [2 ^ 22]) = false ∧ Instr.wellFormed (.confOpResult 0 0 256) = false ∧
    Instr.wellFormed (.stateSummary 0 0 256 0 0 0) = false ∧ Instr.wellFormed (.journalDone 0 0 (2 ^ 32)) = false ∧
    Instr.wellFormed (.channelOffer 0 0 65536) = false := by decide

theorem test_refuses_tasks : Instr.wellFormed (.link (.control 0) 0 0 2) = false ∧ Instr.wellFormed (.arm (.control 0) (2 ^ 32)) = false ∧
    Instr.wellFormed (.cancel (.control 0) (2 ^ 32)) = false ∧ Instr.wellFormed (.follow (.control 0) (2 ^ 32)) = false ∧
    Instr.wellFormed (.strip (.control 0) 0 65536 0) = false ∧ Instr.wellFormed (.complete (.control 0) 0 256 []) = false := by decide

theorem test_refuses_samples : Instr.wellFormed (.thermalSample (List.replicate 41 0)) = false ∧
    Instr.wellFormed (.telemetrySample 0 [] (List.replicate 56 0) .pass) = false := by decide

theorem test_refuses_host_accesses : Instr.wellFormed (.descFetchDone 0 0 [[]] false) = false ∧
    Instr.wellFormed (.mbxInternalWrite (.control 0) 0 [] .pass) = false ∧ Instr.wellFormed (.badAccess 0 (2 ^ 24) true) = false ∧
    Instr.wellFormed (.bar2SizeChange 27 true) = false ∧ Instr.wellFormed (.bringupComplete [(0, 16)]) = false := by decide

/-! ### Published test vectors of the algorithms that R383 and R384 name -/

/-- The octets of a number written in hexadecimal. -/
def hex (n v : Nat) : List Byte := natToOs n v

/-- FIPS 197, appendix C.1. -/
theorem test_aes128 : aesEncrypt (hex 16 0x000102030405060708090a0b0c0d0e0f) (hex 16 0x00112233445566778899aabbccddeeff) =
    hex 16 0x69c4e0d86a7b0430d8cdb78070b4c55a := by decide +kernel

/-- FIPS 180: "abc". -/
theorem test_sha1 : sha1 [0x61, 0x62, 0x63] = hex 20 0xa9993e364706816aba3e25717850c26c9cd0d89d := by decide +kernel

/-- FIPS 180: "abc". -/
theorem test_sha256 : sha256 [0x61, 0x62, 0x63] = hex 32 0xba7816bf8f01cfea414140de5dae2223b00361a396177a9cb410ff61f20015ad := by decide +kernel

/-! ### Premises of the statements about a step -/

/-- The premise of `Obligations.EmptyQueueLetsOneCyclePass` can be met. -/
theorem witness_EmptyQueueLetsOneCyclePass : ∃ s : State, s.pending = [] := ⟨State.reset, rfl⟩

/-- The premise of `Obligations.StepTakesOnlyTheFrontCommand` can be met: a step with two commands waiting goes on. -/
theorem witness_StepTakesOnlyTheFrontCommand : ∃ (c : Instr) (rest : List Instr) (s t : State), step { s with pending := c :: rest } = .next t :=
  ⟨.registerWrite (.control 0) 0xD00014 5, [.ppsEdge], State.reset, _, rfl⟩

/-- The premises of `Obligations.StepKeepsCanonicalForm` can be met, with nothing listed and with a register and an octet listed. -/
theorem witness_StepKeepsCanonicalForm :
    (∃ s t : State, Canonical s ∧ step s = .next t) ∧ (∃ s t : State, Canonical s ∧ s.mem ≠ [] ∧ s.regs ≠ [] ∧ step s = .next t) :=
  ⟨⟨State.reset, _, ⟨by decide +kernel, by decide +kernel, by decide +kernel⟩, rfl⟩,
   ⟨{ on [(R.HTS_TRACE_MASK_REASONS, 1)] with mem := [(0, 7)] }, _, ⟨by decide +kernel, by decide +kernel, by decide +kernel⟩,
    by decide +kernel, by decide +kernel, rfl⟩⟩

/-- The premises of each clause of `Obligations.RegisterCommandsRunWhereTheyReach` can be met, the register's address at the first and at the
last value of its range. -/
theorem witness_RegisterCommandsRunWhereTheyReach :
    (∃ (c : Instr) (s : State) (who : Sender) (a : Nat), accessOf c = some (who, a) ∧ s.accessible who a = false) ∧
    (∃ (c : Instr) (s : State) (who : Sender) (a : Nat), accessOf c = some (who, a) ∧ s.accessible who a = true) ∧
    (∃ n a : Nat, 1 ≤ n ∧ n < 16 ∧ 0x107000 ≤ a) ∧
    (∃ (s : State) (a : Nat), s.bootStage < 0x50 ∧ 0x200000 ≤ a ∧ a < 0xF00000) ∧
    (∃ (s : State) (a : Nat), s.isSet R.UPD_STATUS_AWAKE = false ∧ s.get R.UPD_STATUS_THERMAL ≠ 3 ∧ 0x100000 ≤ a ∧
      ¬ (0xD80000 ≤ a ∧ a < 0xD90000)) :=
  ⟨⟨.relayDisable (.host 1), State.reset, .host 1, _, rfl, by decide +kernel⟩,
   ⟨.relayDisable (.control 0), on [(R.UPD_STATUS_AWAKE, 1)], .control 0, _, rfl, by decide +kernel⟩,
   ⟨15, 0x107000, by decide, by decide, by decide⟩,
   ⟨State.reset, 0xEFFFFF, by decide +kernel, by decide, by decide⟩,
   ⟨on [(R.UPD_STATUS_AWAKE, 0)], 0xD90000, by decide +kernel, by decide +kernel, by decide, by decide⟩⟩

/-- A core about to issue, with two accumulators at the largest value and 1 in D0. -/
def fullCore : DspCore := { coreRun with acc := [(0, BitVec.ofInt 72 (2 ^ 71 - 1)), (1, BitVec.ofInt 72 (2 ^ 71 - 1))], d := [(0, 1)] }

/-- The premises of `Obligations.AccumulationsWrapAndSetAov` can be met: one product, two products, and 256 of the largest. -/
theorem witness_AccumulationsWrapAndSetAov :
    (∃ (s : State) (c : Core) (k : DspCore) (a : Fin 4) (x y : Fin 16) (p : Int), k = s.core c ∧ Fresh k ∧
      p = (k.dreg x).toInt * (k.dreg y).toInt * (if k.frac then 2 else 1) ∧ 2 ^ 71 ≤ (k.accum a).toInt + p) ∧
    (∃ (s : State) (c : Core) (k : DspCore) (a b : Fin 4) (w x : Fin 16) (f p : Int), k = s.core c ∧ Fresh k ∧ a ≠ b ∧
      f = (if k.frac then 2 else 1) ∧ p = (k.dreg w).toInt * (k.dreg x).toInt * f ∧ fits72 ((k.accum a).toInt + p) = false) ∧
    (∃ l : List (Word × Word), l.length = 256 ∧ fits72 (l.map fun e => product true e.1 e.2).sum = false) :=
  ⟨⟨withCore fullCore, 0, _, 0, 0, 0, _, rfl, by unfold Fresh; decide +kernel, rfl, by decide +kernel⟩,
   ⟨withCore fullCore, 0, _, 0, 1, 0, 0, _, _, rfl, by unfold Fresh; decide +kernel, by decide, rfl, rfl, by decide +kernel⟩,
   ⟨List.replicate 256 (0x80000000, 0x80000000), by decide +kernel, by decide +kernel⟩⟩

/-! ### Premises of the other statements, clause by clause -/

/-- The premises of `Obligations.RegisterWritesFollowTheirTypes` can be met: registerWrite. -/
theorem witness_RegisterWritesFollowTheirTypes :
    ∃ (s : State) (who : Sender), (WritesAlone s who) ∧ (s.accessible who 13631508 = true) :=
  ⟨State.reset, .control 0, ⟨by decide +kernel, by decide +kernel, Or.inr (fun _ => rfl)⟩, by decide +kernel⟩

/-- The premises of `Obligations.VotedAndCountedRegistersReadWhole` can be met: rwvRead, rwvSweep, counterLoRead. -/
theorem witness_VotedAndCountedRegistersReadWhole :
    (∃ (s : State) (who : Sender), (Crosses s who) ∧ (s.accessible who 15728680 = true) ∧ (SMap.get 0 s.rwvB 15728680 = 0) ∧ (SMap.get 0 s.rwvC 15728680 = 0)) ∧
    (∃ (s : State), (s.sweptAt + 1500000 ≤ s.cycle) ∧ (s.rwvB = []) ∧ (s.rwvC = [])) ∧
    (∃ (s : State) (who : Sender) (a : BitVec 24), (Crosses s who) ∧ (s.accessible who a.toNat = true) ∧ (isCounterLo a.toNat = true)) :=
  ⟨⟨State.reset, .control 0, by unfold Crosses; decide +kernel, by decide +kernel, by decide +kernel, by decide +kernel⟩,
   ⟨{ State.reset with cycle := 1500000 }, by decide +kernel, by decide +kernel, by decide +kernel⟩,
   ⟨State.reset, .control 0, 0x00F00010, by unfold Crosses; decide +kernel, by decide +kernel, by decide +kernel⟩⟩

/-- The premises of `Obligations.IslandsSleepWakeAndAreFenced` can be met: crossingParityError, lullEntry, lullWake, lullWakeDone, clusterPrewake. -/
theorem witness_IslandsSleepWakeAndAreFenced :
    (∃ (s : State) (i : Island), s.isFenced Unit.crossing ↑i = false) ∧
    (∃ (s : State) (i : Island), (s.island ↑i = LullState.awake) ∧ (s.islandIdle ↑i = true ∨ (↑i = 1 ∨ ↑i = 2) ∧ s.portsOff = true)) ∧
    (∃ (s : State) (i : Island), (s.island ↑i = LullState.lull) ∧ (s.gatedForGood ↑i = false) ∧ (s.get R.UPD_STATUS_THERMAL ≠ 3) ∧ (s.isSet R.UPD_STATUS_AWAKE = true) ∧ (↑i = 1 ∨ ↑i = 2 ∨ islandUnits ↑i ≠ [])) ∧
    (∃ (s : State) (i : Island) (c : Nat), (s.island ↑i = LullState.waking c) ∧ (s.isSet R.UPD_STATUS_AWAKE = true) ∧ (↑i ≠ 2)) ∧
    (∃ (s : State) (k : Fin 8), (s.island (41 + ↑k) = LullState.lull) ∧ (s.gatedForGood (41 + ↑k) = false) ∧ (s.get R.UPD_STATUS_THERMAL ≠ 3) ∧ (s.isSet R.UPD_STATUS_AWAKE = true) ∧ (s.prewakes ↑k = true)) :=
  ⟨⟨State.reset, 0, by decide +kernel⟩,
   ⟨{ on [(R.UPD_LULL_IDLE_MICROSECONDS, 200)] with cycle := 300000 }, 3, by decide +kernel, by decide +kernel⟩,
   ⟨{ State.reset with islands := [(3, .lull)] }, 3, by decide +kernel, by decide +kernel, by decide +kernel, by decide +kernel, by decide +kernel⟩,
   ⟨{ State.reset with islands := [(3, .waking 0)] }, 3, 0, by decide +kernel, by decide +kernel, by decide +kernel⟩,
   ⟨{ on [(R.CORE_KMASK_KERNELS 0 0 0, 1), (R.UPD_STATUS_AWAKE, 1)] with islands := [(41, .lull)], hts := ⟨[(0, { Task.init with st := .held, kind := 8, evtPending := true, desc := List.replicate 14 0 ++ [1] })], [], []⟩ }, 0, by decide +kernel, by decide +kernel, by decide +kernel, by decide +kernel, by decide +kernel⟩⟩

/-- The premises of `Obligations.ReceivedFramesAreFilteredOrKept` can be met: rxFrame. -/
theorem witness_ReceivedFramesAreFilteredOrKept :
    ∃ (s : State) (p : Fin 8) (f : List Byte) (kind : Nat) (key : List Byte) (pay : Nat) (len : Nat) (ok : Bool), (s.portRuns ↑p = true) ∧ (s.isSet (R.RLY_PnSTAT_LINK_UP ↑p) = true) ∧ (∀ (q : RxPacket), q ∈ s.rly.packets → q.port = ↑p → q.ended = true) ∧ (s.isSet (R.RLY_PnCTL_LOOPBACK ↑p) = false) ∧ (64 ≤ f.length + 4) ∧ (f.length + 4 ≤ s.get R.RLY_MAX_FRAME_BYTES) ∧ (be f 12 2 ≠ 34824) ∧ (List.take 6 f = natToOs 2 (s.get (R.RLY_PnMAC_HI_ADDR ↑p)) ++ natToOs 4 (s.get (R.RLY_PnMAC_LO_ADDR ↑p))) ∧ (be f 12 2 ≠ 34984) ∧ (be f 12 2 ≠ 33024) ∧ (parseFrame (↑p) f = Parsed.flow kind key pay len ok) ∧ (s.isSet R.RLY_STATUS_FCT_READY = true) ∧ (s.cached key = none) ∧ (s.rly.packets = []) :=
  ⟨on [(R.RLY_PnCTL_PORT_EN 0, 1), (R.RLY_CTRL_ENABLE, 1), (R.RLY_PnSTAT_LINK_UP 0, 1), (R.RLY_STATUS_FCT_READY, 1)], 0, udpFrame, 0, udpKey, 42, 12, true, by decide +kernel, by decide +kernel, by decide +kernel, by decide +kernel, by decide +kernel, by decide +kernel, by decide +kernel, by decide +kernel, by decide +kernel, by decide +kernel, by decide +kernel, by decide +kernel, by decide +kernel, by decide +kernel⟩

/-- The premises of `Obligations.PacketsLeaveTheRelayOrAwaitReplication` can be met: fctSlowLookupDone, rxFrameEnd, ingressDecryptDone. -/
theorem witness_PacketsLeaveTheRelayOrAwaitReplication :
    (∃ (s : State) (p : RxPacket) (port : Fin 8), (s.rly.packets = [p]) ∧ (p.port = ↑port) ∧ (p.cell = noCell) ∧ (p.snap = none) ∧ (s.rly.selects = []) ∧ (p.plan = RxPlan.waiting) ∧ (p.ended = false) ∧ (p.kind < 2) ∧ (s.isSet R.RLY_MISS_ACTION_ACTION = false) ∧ (s.isSet R.RLY_STATUS_FCT_READY = true) ∧ (s.fctFind p.key = none)) ∧
    (∃ (s : State) (p : RxPacket) (port : Fin 8), (s.rly.packets = [p]) ∧ (p.port = ↑port) ∧ (p.cell = noCell) ∧ (p.snap = none) ∧ (s.rly.selects = []) ∧ (p.plan = RxPlan.waiting) ∧ (p.ended = false) ∧ (p.udpOk = true) ∧ (s.get (R.RLY_PnSTAT_FEC_ACTIVE ↑port) ≤ 1)) ∧
    (∃ (s : State) (p : RxPacket) (n : RouteSnap) (res : CipherResult), (s.rly.packets = [p]) ∧ (p.snap = some n) ∧ (p.plan = RxPlan.decrypt 0) ∧ (fctAction p.entry = 1) ∧ ((fctMode p.entry).fst = 3) ∧ (p.entry.getD 56 0 = 0) ∧ (s.rly.selects = []) ∧ (SMap.get none s.cpx.results p.op = some res) ∧ (res.status = 0 ∨ res.status = 1) ∧ (n.unresolved = false) ∧ (n.vid ≠ 0)) :=
  ⟨⟨withPkt (on [(R.RLY_STATUS_FCT_READY, 1), (R.RLY_MISS_ACTION_ACTION, 0)]) pkt, pkt, 0, by decide +kernel, by decide +kernel, by decide +kernel, by decide +kernel, by decide +kernel, by decide +kernel, by decide +kernel, by decide +kernel, by decide +kernel, by decide +kernel, by decide +kernel⟩,
   ⟨withPkt State.reset pkt, pkt, 0, by decide +kernel, by decide +kernel, by decide +kernel, by decide +kernel, by decide +kernel, by decide +kernel, by decide +kernel, by decide +kernel, by decide +kernel⟩,
   ⟨{ withPkt State.reset { pkt with plan := .decrypt 0, snap := some snap1, op := 1, entry := List.replicate 53 0 ++ [1, 0, 0, 0, 0, 3] } with cpx := { State.reset.cpx with results := [(1, some ⟨0, 0, 0, []⟩)] } }, _, snap1, ⟨0, 0, 0, []⟩, rfl, by decide +kernel, by decide +kernel, by decide +kernel, by decide +kernel, by decide +kernel, by decide +kernel, by decide +kernel, by decide +kernel, by decide +kernel, by decide +kernel⟩⟩

/-- The premises of `Obligations.CopiesKeepSequenceAndOrder` can be met: replicate, egressEncryptDone. -/
theorem witness_CopiesKeepSequenceAndOrder :
    (∃ (s : State) (p : RxPacket) (n : RouteSnap) (e : RouteEntry), (s.rly.packets = [p]) ∧ (p.plan = RxPlan.media) ∧ (p.ended = true) ∧ (p.snap = some n) ∧ (n.entries = [e]) ∧ (p.cell = noCell) ∧ (s.rly.selects = []) ∧ (e.dest < 16384) ∧ (s.poison = []) ∧ (s.rstateAddr e.rstate + 16 ≤ hbmBytes) ∧ (n.unresolved = false) ∧ ((s.le (s.rstateAddr e.rstate + 2) 1).testBit 0 = true) ∧ ((s.le (s.rstateAddr e.rstate + 2) 1).testBit 1 = false) ∧ (seqAfter (be p.rtp 2 2) (s.le (s.rstateAddr e.rstate + 6) 2) = true) ∧ (includes (s.le (s.rstateAddr e.rstate) 1) n.layer ((s.le (s.rstateAddr e.rstate + 2) 1).testBit 2) = true) ∧ (s.legLimit > e.dest) ∧ (s.cipherGone = false) ∧ (s.freeCore = none) ∧ ((s.judgeReceiver e.rstate n (be p.rtp 2 2)).fst.templateOk ((s.judgeReceiver e.rstate n (be p.rtp 2 2)).fst.template s.legHdrBase e.dest) = true)) ∧
    (∃ (s : State) (u : State) (op : Nat) (ptr : Nat) (c : EgressCopy) (res : CipherResult) (d : List Byte), (SMap.get none s.cpx.results op = some res) ∧ (s.rly.copies = [c]) ∧ (c.op = op) ∧ (c.frame.dest < 16384) ∧ (d = padFrame (wrapUdp c.flags c.hdr res.out)) ∧ (St.success res.status = true) ∧ ((s.dropResult op).allocCell (Sender.fixed 0) 0 (d.length + 4) AllocClass.media true true = (u, AllocOut.cell ptr))) :=
  ⟨⟨{ withPkt (on [(R.RLY_RSTATE_BASE_LO_ADDR, 1), (R.RLY_HDR_BASE_LO_ADDR, 2)]) { pkt with plan := .media, ended := true, snap := some snap1, rtp := [0x80, 0x60, 0, 2] ++ List.replicate 8 0 } with
      mem := [(0x1002, 1), (0x1006, 1), (0x2000, 42)], cpx := { State.reset.cpx with ops := (List.range 24).map fun c => busyOp c } }, _, snap1, ⟨0, 0, 0, 0, 0⟩, rfl, by decide +kernel, by decide +kernel, by decide +kernel, by decide +kernel, by decide +kernel, by decide +kernel, by decide +kernel, by decide +kernel, by decide +kernel, by decide +kernel, by decide +kernel, by decide +kernel, by decide +kernel, by decide +kernel, by decide +kernel, by decide +kernel, by decide +kernel, by decide +kernel⟩,
   ⟨{ on [(R.BPM_CTRL_ENABLE, 1)] with cpx := { State.reset.cpx with results := [(1, some ⟨0, 0, 0, []⟩)] }, rly := { State.reset.rly with copies := [⟨1, 0, efr, [], 0, none⟩] } }, _, 1, 0x10000000000, ⟨1, 0, efr, [], 0, none⟩, ⟨0, 0, 0, []⟩, _, by decide +kernel, by decide +kernel, by decide +kernel, by decide +kernel, rfl, by decide +kernel, Prod.ext rfl (by decide +kernel)⟩⟩

/-- The premises of `Obligations.RoutesRetireAndPortsStop` can be met: routeRetired, linkChange, anComplete, portDisable, relayDisable. -/
theorem witness_RoutesRetireAndPortsStop :
    (∃ (s : State) (n : Fin 65536) (v : RouteVersion) (w : RouteVersion), (s.versionsOf ↑n = [v, w]) ∧ (v.inflight = 0) ∧ (v.vid ≠ w.vid)) ∧
    (∃ (s : State) (p : Fin 8) (up : Bool) (trained : Bool) (offers : List (Fin 6)), (s.isSet (R.RLY_PnSTAT_LINK_UP ↑p) = !up) ∧ (up = true → s.portRuns ↑p = true ∧ (s.isSet (R.RLY_PnCTL_LOOPBACK ↑p) = true ∨ (s.isSet (R.RLY_PnCTL_AN_EN ↑p) = true → ∃ m, m ∈ offers ∧ ↑m = s.get R.RLY_PORT_MODE_MODE) ∧ (s.isSet (R.RLY_PnCTL_LT_EN ↑p) = true → trained = true)))) ∧
    (∃ (s : State) (p : Fin 8) (fec : Fin 4), (s.portRuns ↑p = true) ∧ (s.isSet (R.RLY_PnCTL_AN_EN ↑p) = true) ∧ (s.portRate = 25) ∧ (s.get (R.RLY_PnCTL_FEC ↑p) = 0) ∧ (fec ≠ 0)) ∧
    (∃ (s : State) (who : Sender) (p : Fin 8) (q : RxPacket), (Serves s who (R.RLY_PnCTL_PORT_EN ↑p).addr) ∧ (s.rly.packets = [q]) ∧ (q.port = ↑p) ∧ (q.ended = false) ∧ (q.cell = noCell) ∧ (s.rly.selects = []) ∧ (q.snap = none)) ∧
    (∃ (s : State) (who : Sender), (Serves s who R.RLY_CTRL_ENABLE.addr) ∧ (∀ (q : RxPacket), q ∈ s.rly.packets → q.ended = true)) :=
  ⟨⟨{ State.reset with rly := { State.reset.rly with versions := [(0, [⟨0, 64, 0, 0⟩, ⟨1, 128, 1, 0⟩])] } }, 0, ⟨0, 64, 0, 0⟩, ⟨1, 128, 1, 0⟩, by decide +kernel, by decide +kernel, by decide +kernel⟩,
   ⟨on [(R.RLY_PnCTL_PORT_EN 0, 1), (R.RLY_CTRL_ENABLE, 1)], 0, true, true, [], by decide +kernel, by decide +kernel⟩,
   ⟨on [(R.RLY_PnCTL_PORT_EN 0, 1), (R.RLY_CTRL_ENABLE, 1), (R.RLY_PnCTL_AN_EN 0, 1), (R.RLY_PORT_MODE_MODE, 4)], 0, 1, by decide +kernel, by decide +kernel, by decide +kernel, by decide +kernel, by decide +kernel⟩,
   ⟨withPkt State.reset pkt, .control 0, 0, pkt, ⟨⟨by decide +kernel, by decide +kernel⟩, by unfold Crosses; decide +kernel⟩, by decide +kernel, by decide +kernel, by decide +kernel, by decide +kernel, by decide +kernel, by decide +kernel⟩,
   ⟨State.reset, .control 0, ⟨⟨by decide +kernel, by decide +kernel⟩, by unfold Crosses; decide +kernel⟩, by decide +kernel⟩⟩

/-- The premises of `Obligations.HeldPortsCommandOneEntry` can be met: rlyFctClaim/rlyFctRelease/mxmClaim/mxmRelease/kslClaim/kslRelease/cpxPkaClaim/cpxPkaRelease, insert, update, delete, lookup, clear. -/
theorem witness_HeldPortsCommandOneEntry :
    (∃ (s : State) (who : Sender) (x : Nat × Nat × Instr × Instr), (x ∈ [(fctPort, R.RLY_FCT_RELEASE_RELEASE.addr, Instr.rlyFctClaim who, Instr.rlyFctRelease who), (mxmPort, R.MXM_RELEASE_RELEASE.addr, Instr.mxmClaim who, Instr.mxmRelease who), (kslPort, R.KSL_RELEASE_RELEASE.addr, Instr.kslClaim who, Instr.kslRelease who), (pkaPort, R.CPX_PKA_RELEASE_RELEASE.addr, Instr.cpxPkaClaim who, Instr.cpxPkaRelease who)]) ∧ (mayClaim who = true) ∧ (Serves s who x.fst) ∧ (s.holder x.fst = none)) ∧
    (∃ (s : State) (who : Sender) (p : Nat × Nat × Nat), (Serves s who R.RLY_FCT_CMD_OP.addr) ∧ (s.holds fctPort who = true) ∧ (s.isSet R.RLY_FCT_RESULT_BUSY = false) ∧ (s.poison = []) ∧ (s.fctBase + 2 ^ 30 ≤ hbmBytes) ∧ (s.entryBad s.fctWindow = false) ∧ (s.fctFind (fctKey s.fctWindow) = none) ∧ (s.fctFree (fctKey s.fctWindow) = some p) ∧ (p.snd.snd < 2 ^ 24)) ∧
    (∃ (s : State) (who : Sender) (p : Nat × Nat × Nat), (Serves s who R.RLY_FCT_CMD_OP.addr) ∧ (s.holds fctPort who = true) ∧ (s.isSet R.RLY_FCT_RESULT_BUSY = false) ∧ (s.poison = []) ∧ (s.fctBase + 2 ^ 30 ≤ hbmBytes) ∧ (s.entryBad s.fctWindow = false) ∧ (s.fctFind (fctKey s.fctWindow) = some p) ∧ (p.snd.snd < 2 ^ 24)) ∧
    (∃ (s : State) (who : Sender) (p : Nat × Nat × Nat), (Serves s who R.RLY_FCT_CMD_OP.addr) ∧ (s.holds fctPort who = true) ∧ (s.isSet R.RLY_FCT_RESULT_BUSY = false) ∧ (s.poison = []) ∧ (s.fctBase + 2 ^ 30 ≤ hbmBytes) ∧ (s.fctFind (fctKey s.fctWindow) = some p) ∧ (p.snd.snd < 2 ^ 24)) ∧
    (∃ (s : State) (who : Sender) (p : Nat × Nat × Nat), (Serves s who R.RLY_FCT_CMD_OP.addr) ∧ (s.holds fctPort who = true) ∧ (s.isSet R.RLY_FCT_RESULT_BUSY = false) ∧ (s.poison = []) ∧ (s.fctBase + 2 ^ 30 ≤ hbmBytes) ∧ (s.fctFind (fctKey s.fctWindow) = some p)) ∧
    (∃ (s : State) (who : Sender), (Serves s who R.RLY_FCT_CMD_OP.addr) ∧ (s.holds fctPort who = true) ∧ (s.isSet R.RLY_FCT_RESULT_BUSY = false) ∧ (s.poison = []) ∧ (s.fctBase + 2 ^ 30 ≤ hbmBytes)) :=
  ⟨⟨State.reset, .control 0, (fctPort, R.RLY_FCT_RELEASE_RELEASE.addr, Instr.rlyFctClaim (.control 0), Instr.rlyFctRelease (.control 0)), List.mem_cons_self, by decide +kernel, ⟨⟨by decide +kernel, by decide +kernel⟩, by unfold Crosses; decide +kernel⟩, by decide +kernel⟩,
   ⟨held fctPort State.reset, .control 0, (0, 0, 13571352), ⟨⟨by decide +kernel, by decide +kernel⟩, by unfold Crosses; decide +kernel⟩, by decide +kernel, by decide +kernel, by decide +kernel, by decide +kernel, by decide +kernel, by decide +kernel, by decide +kernel, by decide +kernel⟩,
   ⟨{ held fctPort State.reset with mem := [(868566528, 1)] }, .control 0, (0, 0, 13571352), ⟨⟨by decide +kernel, by decide +kernel⟩, by unfold Crosses; decide +kernel⟩, by decide +kernel, by decide +kernel, by decide +kernel, by decide +kernel, by decide +kernel, by decide +kernel, by decide +kernel⟩,
   ⟨{ held fctPort State.reset with mem := [(868566528, 1)] }, .control 0, (0, 0, 13571352), ⟨⟨by decide +kernel, by decide +kernel⟩, by unfold Crosses; decide +kernel⟩, by decide +kernel, by decide +kernel, by decide +kernel, by decide +kernel, by decide +kernel, by decide +kernel⟩,
   ⟨{ held fctPort State.reset with mem := [(868566528, 1)] }, .control 0, (0, 0, 13571352), ⟨⟨by decide +kernel, by decide +kernel⟩, by unfold Crosses; decide +kernel⟩, by decide +kernel, by decide +kernel, by decide +kernel, by decide +kernel, by decide +kernel⟩,
   ⟨held fctPort State.reset, .control 0, ⟨⟨by decide +kernel, by decide +kernel⟩, by unfold Crosses; decide +kernel⟩, by decide +kernel, by decide +kernel, by decide +kernel, by decide +kernel⟩⟩

/-- The premises of `Obligations.RoutesSelectionsAndTheFctEngine` can be met: routeCommit, select, stateWrite, fctCommandDone, hashSeedWrite, ageScan. -/
theorem witness_RoutesSelectionsAndTheFctEngine :
    (∃ (s : State) (who : Sender) (n : Nat) (ptr : Nat), (Serves s who R.RLY_FCT_CMD_OP.addr) ∧ (s.holds fctPort who = true) ∧ (s.isSet R.RLY_FCT_RESULT_BUSY = false) ∧ (s.poison = []) ∧ (n = s.fctWord 0 % 65536) ∧ (ptr = s.fctWord 1 + s.fctWord 2 % 16 * 2 ^ 32) ∧ (ptr ≠ 0) ∧ (ptr % 64 = 0) ∧ (s.le ptr 2 ≤ 16640) ∧ (s.le (ptr + 2) 2 = n) ∧ (s.streamAddr n + 128 ≤ hbmBytes) ∧ ((s.versionsOf n).length < 4)) ∧
    (∃ (s : State) (who : Sender) (r : Nat) (a : Nat) (sel : Nat), (Serves s who R.RLY_FCT_CMD_OP.addr) ∧ (s.holds fctPort who = true) ∧ (s.isSet R.RLY_FCT_RESULT_BUSY = false) ∧ (s.poison = []) ∧ (r = s.fctWord 0 % 2 ^ 20) ∧ (a = s.rstateAddr r) ∧ (a + 16 ≤ hbmBytes) ∧ (s.rly.selects = []) ∧ (s.boundTo r = []) ∧ (sel = s.fctWord 1 % 256) ∧ ((s.fctWord 1).testBit 8 = false) ∧ ((s.le (a + 2) 1).testBit 2 = false) ∧ (sel ≠ s.le a 1)) ∧
    (∃ (s : State) (who : Sender) (r : Nat) (a : Nat), (Serves s who R.RLY_FCT_CMD_OP.addr) ∧ (s.holds fctPort who = true) ∧ (s.isSet R.RLY_FCT_RESULT_BUSY = false) ∧ (s.poison = []) ∧ (r = s.fctWord 0 % 2 ^ 20) ∧ (a = s.rstateAddr r) ∧ (a + 16 ≤ hbmBytes) ∧ (s.rly.selects = []) ∧ (s.boundTo r = [])) ∧
    (∃ (s : State) (j : FctJob), (s.rly.job = some j) ∧ (s.rly.clearPending = false) ∧ (j.op < 9) ∧ (j.result < 6) ∧ (j.bucket < 2) ∧ (j.way < 4)) ∧
    (∃ (s : State) (who : Sender) (v : Word), (Serves s who R.RLY_HASH_SEED_SEED.addr) ∧ (BitVec.toNat v ≠ s.get R.RLY_HASH_SEED_SEED) ∧ (s.isSet R.RLY_CTRL_ENABLE = false) ∧ (s.isSet R.RLY_FCT_RESULT_BUSY = false)) ∧
    (∃ (s : State) (e : Fin 16777216), (s.isSet R.RLY_STATUS_FCT_READY = true) ∧ (s.get R.RLY_AGE_TIMEOUT_SECONDS ≠ 0) ∧ (s.poison = []) ∧ (s.fctBase + 2 ^ 30 ≤ hbmBytes) ∧ (BitVec.toNat (s.byte (s.fctBase + ↑e * 64)) % 4 = 3) ∧ (s.get R.RLY_AGE_TIMEOUT_SECONDS < (s.get R.RLY_AGE_CLOCK_SECONDS + 65536 - s.le (s.fctBase + ↑e * 64 + 60) 2) % 65536)) :=
  ⟨⟨held fctPort (on [(R.RLY_FCT_DATA_DATA 1, 0x1000), (R.RLY_STREAM_BASE_LO_ADDR, 4)]), .control 0, _, _, ⟨⟨by decide +kernel, by decide +kernel⟩, by unfold Crosses; decide +kernel⟩, by decide +kernel, by decide +kernel, by decide +kernel, rfl, rfl, by decide +kernel, by decide +kernel, by decide +kernel, by decide +kernel, by decide +kernel, by decide +kernel⟩,
   ⟨held fctPort (on [(R.RLY_FCT_DATA_DATA 1, 9)]), .control 0, _, _, _, ⟨⟨by decide +kernel, by decide +kernel⟩, by unfold Crosses; decide +kernel⟩, by decide +kernel, by decide +kernel, by decide +kernel, rfl, rfl, by decide +kernel, by decide +kernel, by decide +kernel, rfl, by decide +kernel, by decide +kernel, by decide +kernel⟩,
   ⟨held fctPort State.reset, .control 0, _, _, ⟨⟨by decide +kernel, by decide +kernel⟩, by unfold Crosses; decide +kernel⟩, by decide +kernel, by decide +kernel, by decide +kernel, rfl, rfl, by decide +kernel, by decide +kernel, by decide +kernel⟩,
   ⟨{ State.reset with rly := { State.reset.rly with job := some ⟨8, 5, 1, 3, none⟩ } }, ⟨8, 5, 1, 3, none⟩, by decide +kernel, by decide +kernel, by decide +kernel, by decide +kernel, by decide +kernel, by decide +kernel⟩,
   ⟨State.reset, .control 0, 1, ⟨⟨by decide +kernel, by decide +kernel⟩, by unfold Crosses; decide +kernel⟩, by decide +kernel, by decide +kernel, by decide +kernel⟩,
   ⟨{ on [(R.RLY_STATUS_FCT_READY, 1), (R.RLY_AGE_CLOCK_SECONDS, 31), (R.RLY_AGE_TIMEOUT_SECONDS, 30)] with mem := [(0, 3)] }, 0, by decide +kernel, by decide +kernel, by decide +kernel, by decide +kernel, by decide +kernel, by decide +kernel⟩⟩

/-- The premises of `Obligations.PoolsServeAndAreControlled` can be met: alloc, free, holdTimeout, resetPools, bpmDisable, poolThresholdWrite. -/
theorem witness_PoolsServeAndAreControlled_1 :
    (∃ (s : State) (size : Nat) (p : Nat) (cls : AllocClass) (onDie : Bool), (p = poolFor onDie size) ∧ (1 ≤ size) ∧ (size ≤ 65536) ∧ (s.isSet R.BPM_CTRL_ENABLE = true) ∧ (s.poolNotReady p = false) ∧ (0 < s.get (R.BPM_Pp_FREE_F p)) ∧ (cls = AllocClass.reliable → s.get (R.BPM_Pp_LEVEL_LEVEL p) ≠ 3)) ∧
    (∃ (s : State) (size : Nat) (p : Nat) (onDie : Bool) (q : Nat) (i : Nat), (p = poolFor onDie size) ∧ (q < 6) ∧ (s.poolOf (s.poolBase q + i * poolCellSize q) = some q) ∧ (SMap.get false (s.used q) i = true) ∧ (s.heldOf q = []) ∧ (s.get (R.BPM_Pp_FREE_F q) < poolCells q)) ∧
    (∃ (s : State) (size : Nat) (p : Nat) (onDie : Bool) (q : Fin 6) (h : HeldAlloc) (rest : List HeldAlloc), (p = poolFor onDie size) ∧ (s.heldOf ↑q = h :: rest) ∧ (h.since + s.get R.BPM_HOLD_MAX_MICROSECONDS * usCycles < s.cycle) ∧ (h.who ≠ Sender.fixed 8)) ∧
    (∃ (s : State) (who : Sender), (Serves s who R.BPM_CTRL_ENABLE.addr) ∧ (s.isSet R.BPM_CTRL_ENABLE = false)) ∧
    (∃ (s : State) (who : Sender), Serves s who R.BPM_CTRL_ENABLE.addr) ∧
    (∃ (s : State) (who : Sender) (p : Fin 6) (k : Threshold) (v : Nat), (Serves s who R.BPM_CTRL_ENABLE.addr) ∧ (Serves s who (thresholdAddr (↑p) k)) ∧ (s.thresholdOk (↑p) k (v % 2 ^ 21) = true)) :=
  ⟨⟨on [(R.BPM_CTRL_ENABLE, 1), (R.BPM_Pp_FREE_F 3, 1)], 65536, _, .reliable, true, rfl, by decide +kernel, by decide +kernel, by decide +kernel, by decide +kernel, by decide +kernel, by decide +kernel⟩,
   ⟨{ on [(R.BPM_Pp_FREE_F 0, 65535)] with bpm := ⟨[(0, [(0, true)])], []⟩ }, 0, _, true, 0, 0, rfl, by decide +kernel, by decide +kernel, by decide +kernel, by decide +kernel, by decide +kernel⟩,
   ⟨{ on [(R.BPM_HOLD_MAX_MICROSECONDS, 1)] with cycle := 1501, bpm := ⟨[], [(0, [⟨.control 0, 1, .media, 0⟩])]⟩ }, 0, _, true, 0, ⟨.control 0, 1, .media, 0⟩, [], rfl, by decide +kernel, by decide +kernel, by decide +kernel⟩,
   ⟨State.reset, .control 0, ⟨⟨by decide +kernel, by decide +kernel⟩, by unfold Crosses; decide +kernel⟩, by decide +kernel⟩,
   ⟨State.reset, .control 0, ⟨⟨by decide +kernel, by decide +kernel⟩, by unfold Crosses; decide +kernel⟩⟩,
   ⟨State.reset, .control 0, 0, .hyst, 0, ⟨⟨by decide +kernel, by decide +kernel⟩, by unfold Crosses; decide +kernel⟩, ⟨⟨by decide +kernel, by decide +kernel⟩, by unfold Crosses; decide +kernel⟩, by decide +kernel⟩⟩

/-- The premises of `Obligations.PoolsServeAndAreControlled` can be met: minfreeWrite. -/
theorem witness_PoolsServeAndAreControlled_2 :
    ∃ (s : State) (who : Sender) (p : Fin 6), (Serves s who R.BPM_CTRL_ENABLE.addr) ∧ (Serves s who (R.BPM_Pp_MINFREE_F ↑p).addr) :=
  ⟨State.reset, .control 0, 0, ⟨⟨by decide +kernel, by decide +kernel⟩, by unfold Crosses; decide +kernel⟩, ⟨⟨by decide +kernel, by decide +kernel⟩, by unfold Crosses; decide +kernel⟩⟩

/-- The premises of `Obligations.StreamQueuesPassWholePackets` can be met: queueWrite, queueRead, dropRest, flush, compatStallTimeout. -/
theorem witness_StreamQueuesPassWholePackets :
    (∃ (s : State) (n : Fin 2048), (s.isSet (R.BPM_Qq_CFG_ENABLE ↑n) = true) ∧ ((s.queue ↑n).stalled = []) ∧ ((s.queue ↑n).rewinding = false) ∧ ((s.queue ↑n).fill ≠ s.get (R.BPM_Qq_DEPTH_WORDS ↑n))) ∧
    (∃ (s : State) (n : Fin 2048) (w : QWord) (r : List QWord), (s.isSet (R.BPM_Qq_CFG_ENABLE ↑n) = true) ∧ ((s.queue ↑n).stalled = []) ∧ ((s.queue ↑n).reading = w :: r)) ∧
    (∃ (s : State) (who : Sender) (n : Fin 2048), (Serves s who (R.BPM_Qq_CMD_DROP_REST ↑n).addr) ∧ ((s.queue ↑n).reading ≠ []) ∧ ((s.queue ↑n).stalled = [])) ∧
    (∃ (s : State) (who : Sender) (n : Fin 2048), (Serves s who (R.BPM_Qq_CMD_DROP_REST ↑n).addr) ∧ (s.isSet (R.BPM_Qq_CFG_ENABLE ↑n) = false)) ∧
    (∃ (s : State) (who : Sender) (n : Fin 2048) (w : QWord), ((s.queue ↑n).stalled = [(w, WordOwner.sender who)]) ∧ ((s.queue ↑n).since + s.get R.BPM_COMPAT_STALL_MICROSECONDS * usCycles < s.cycle)) :=
  ⟨⟨on [(R.BPM_Qq_CFG_ENABLE 0, 1), (R.BPM_Qq_DEPTH_WORDS 0, 1024)], 0, by decide +kernel, by decide +kernel, by decide +kernel, by decide +kernel⟩,
   ⟨{ on [(R.BPM_Qq_CFG_ENABLE 0, 1)] with queues := [(0, { StreamQueue.init with reading := [QWord.zero] })] }, 0, QWord.zero, [], by decide +kernel, by decide +kernel, by decide +kernel⟩,
   ⟨{ State.reset with queues := [(0, { StreamQueue.init with reading := [QWord.zero] })] }, .control 0, 0, ⟨⟨by decide +kernel, by decide +kernel⟩, by unfold Crosses; decide +kernel⟩, by decide +kernel, by decide +kernel⟩,
   ⟨State.reset, .control 0, 0, ⟨⟨by decide +kernel, by decide +kernel⟩, by unfold Crosses; decide +kernel⟩, by decide +kernel⟩,
   ⟨{ on [(R.BPM_COMPAT_STALL_MICROSECONDS, 1)] with cycle := 1501, queues := [(0, { StreamQueue.init with stalled := [(QWord.zero, .sender (.control 0))] })] }, .control 0, 0, QWord.zero, by decide +kernel, by decide +kernel⟩⟩

/-- The premises of `Obligations.EgressQueuesSendInOrder` can be met: enqueue, egressPick. -/
theorem witness_EgressQueuesSendInOrder :
    (∃ (s : State) (p : Fin 8) (f : EFrame) (rest : List EFrame), (s.releasedOf ↑p = f :: rest) ∧ (f.cell = noCell) ∧ (f.cls < 8) ∧ (frameBytes (s.classQueue f.dest f.cls) + f.len ≤ s.get R.EGS_DQ_LIMIT_BYTES)) ∧
    (∃ (s : State) (p : Fin 8) (f : EFrame), (s.isSet R.EGS_CTRL_ENABLE = true) ∧ (SMap.get 0 s.egress.busy ↑p ≤ s.cycle) ∧ (s.egress.queues = [(f.dest * 8 + f.cls, [f])]) ∧ (f.port = ↑p) ∧ (f.cls < 2) ∧ (f.dest < 16640) ∧ (f.cell = noCell) ∧ (f.demoted = false) ∧ (s.isSet (R.TGC_CTRL_ENABLE ↑p) = false) ∧ (s.portRuns ↑p = true) ∧ (s.tooOld f = false) ∧ (s.isSet (R.RLY_PnCTL_LOOPBACK ↑p) = false)) :=
  ⟨⟨{ on [(R.EGS_DQ_LIMIT_BYTES, 64)] with egress := { State.reset.egress with released := [(0, [efr])] } }, 0, efr, [], by decide +kernel, by decide +kernel, by decide +kernel, by decide +kernel⟩,
   ⟨{ on [(R.RLY_PnCTL_PORT_EN 0, 1), (R.RLY_CTRL_ENABLE, 1), (R.EGS_CTRL_ENABLE, 1)] with egress := { State.reset.egress with queues := [(0, [efr])] } }, 0, efr, by decide +kernel, by decide +kernel, by decide +kernel, by decide +kernel, by decide +kernel, by decide +kernel, by decide +kernel, by decide +kernel, by decide +kernel, by decide +kernel, by decide +kernel, by decide +kernel⟩⟩

/-- The premises of `Obligations.ShapersAndPolicersAreWrittenWhole` can be met: indRead, indWrite, depthSample, histClr. -/
theorem witness_ShapersAndPolicersAreWrittenWhole :
    (∃ (s : State) (who : Sender) (d : Nat), (Serves s who R.EGS_IND_CMD_READ.addr) ∧ (s.indBad = false) ∧ (d = shaperDest (s.get R.EGS_IND_SEL_TARGET) (s.get R.EGS_IND_SEL_INDEX)) ∧ (s.get R.EGS_IND_SEL_TARGET ≤ 1) ∧ ((s.shaper d).rate < 2 ^ 26) ∧ ((s.shaper d).policy < 3)) ∧
    (∃ (s : State) (who : Sender) (d : Nat), (Serves s who R.EGS_IND_CMD_READ.addr) ∧ (s.indBad = false) ∧ (d = shaperDest (s.get R.EGS_IND_SEL_TARGET) (s.get R.EGS_IND_SEL_INDEX)) ∧ (s.get R.EGS_IND_SEL_TARGET ≤ 1) ∧ ((s.reg (R.EGS_IND_DATA_DATA 0).addr).field 27 2 ≠ 3) ∧ (64 ≤ (s.reg (R.EGS_IND_DATA_DATA 1).addr).field 0 25) ∧ ((s.reg (R.EGS_IND_DATA_DATA 1).addr).field 0 25 ≤ 16777216)) ∧
    (∃ (s : State) (p : Fin 8), (s.egress.queues = []) ∧ (SMap.get 0 s.egress.sampled ↑p + 10 * usCycles ≤ s.cycle) ∧ (s.portNamed ↑p = true)) ∧
    (∃ (s : State) (who : Sender), Serves s who R.EGS_CTRL_ENABLE.addr) :=
  ⟨⟨State.reset, .control 0, _, ⟨⟨by decide +kernel, by decide +kernel⟩, by unfold Crosses; decide +kernel⟩, by decide +kernel, rfl, by decide +kernel, by decide +kernel, by decide +kernel⟩,
   ⟨on [(R.EGS_IND_DATA_DATA 1, 64)], .control 0, _, ⟨⟨by decide +kernel, by decide +kernel⟩, by unfold Crosses; decide +kernel⟩, by decide +kernel, rfl, by decide +kernel, by decide +kernel, by decide +kernel, by decide +kernel⟩,
   ⟨{ State.reset with cycle := 15000 }, 0, by decide +kernel, by decide +kernel, by decide +kernel⟩,
   ⟨State.reset, .control 0, ⟨⟨by decide +kernel, by decide +kernel⟩, by unfold Crosses; decide +kernel⟩⟩⟩

/-- The premises of `Obligations.GateListsTakeOverAtTheirTime` can be met: activate, gateTakeover, gateEntryAdvance, gateDisable. -/
theorem witness_GateListsTakeOverAtTheirTime :
    (∃ (s : State) (who : Sender) (p : Fin 8), (Serves s who (R.TGC_CTRL_ENABLE ↑p).addr) ∧ (s.isSet (R.TGC_CTRL_ENABLE ↑p) = true) ∧ (s.adminValid ↑p = true)) ∧
    (∃ (s : State) (p : Fin 8) (g : GateSnapshot), ((s.gate ↑p).snapshot = some g) ∧ (g.takeover ≤ s.timeNs) ∧ (1 ≤ g.entries.length) ∧ (g.entries.length ≤ 256) ∧ (g.cycle < 2 ^ 30) ∧ (∀ (e : Nat × Nat), e ∈ g.entries → e.fst < 256 ∧ e.snd < 2 ^ 30) ∧ (s.portNamed ↑p = true)) ∧
    (∃ (s : State) (p : Fin 8), (s.portNamed ↑p = true) ∧ (s.listInEffect ↑p = true) ∧ (s.entryEnd ↑p ≤ s.timeNs) ∧ ((s.gate ↑p).resume = none) ∧ (s.get (R.TGC_CUR_ENTRY_ENTRY ↑p) + 1 = (s.operList ↑p).length)) ∧
    (∃ (s : State) (who : Sender) (p : Fin 8), Serves s who (R.TGC_CTRL_ENABLE ↑p).addr) :=
  ⟨⟨on [(R.TGC_CTRL_ENABLE 0, 1), (R.TGC_ADMIN_LEN_ENTRIES 0, 1), (R.TGC_ADMIN_CYCLE_NS 0, 125000), (R.TGC_ADMIN_INTV_NS 0 0, 125000)], .control 0, 0, ⟨⟨by decide +kernel, by decide +kernel⟩, by unfold Crosses; decide +kernel⟩, by decide +kernel, by decide +kernel⟩,
   ⟨{ State.reset with gates := [(0, ⟨some ⟨[(255, 125000)], 125000, 0, 0⟩, 0, 0, none⟩)] }, 0, ⟨[(255, 125000)], 125000, 0, 0⟩, by decide +kernel, by decide +kernel, by decide +kernel, by decide +kernel, by decide +kernel, by decide +kernel, by decide +kernel⟩,
   ⟨{ on [(R.TGC_STATUS_STATE 0, 2), (R.TGC_OPER_LEN_ENTRIES 0, 1), (R.TGC_OPER_CYCLE_NS 0, 125000)] with time := ⟨0, 125000, 0, none, 0, none, 0, []⟩ }, 0, by decide +kernel, by decide +kernel, by decide +kernel, by decide +kernel, by decide +kernel⟩,
   ⟨State.reset, .control 0, 0, ⟨⟨by decide +kernel, by decide +kernel⟩, by unfold Crosses; decide +kernel⟩⟩⟩

/-- The premises of `Obligations.DeviceTimeStepsSlewsAndStamps` can be met: stepAbsolute, stepOffset, timSlewWrite, timNsRead, ppsEdge, ppsOutRise. -/
theorem witness_DeviceTimeStepsSlewsAndStamps_1 :
    (∃ (s : State) (who : Sender), (Serves s who R.TIM_STEP_CMD_CMD.addr) ∧ (s.stepAllowed = true) ∧ (s.get R.TIM_STEP_NS_VALUE < 1000000000)) ∧
    (∃ (s : State) (who : Sender) (n : Nat), (Serves s who R.TIM_STEP_CMD_CMD.addr) ∧ (s.stepAllowed = true) ∧ (↑(s.time.sec * 1000000000 + s.time.ns) + signed 32 (s.get R.TIM_STEP_NS_VALUE) = ↑n)) ∧
    (∃ (s : State) (who : Sender), Serves s who R.TIM_SLEW_PPB.addr) ∧
    (∃ (s : State) (who : Sender), Serves s who R.TIM_NS_NS.addr) ∧
    (∃ (s : State), (s.isSet R.TIM_CTRL_PPS_DIR = false) ∧ (∀ (c : Nat), s.time.dirAt = some c → c + 150 < s.cycle)) ∧
    (∃ (s : State), (s.isSet R.TIM_CTRL_PPS_DIR = true) ∧ (s.time.sec ≠ s.time.ppsSec) ∧ (s.time.ppsHigh = none)) :=
  ⟨⟨State.reset, .control 0, ⟨⟨by decide +kernel, by decide +kernel⟩, by unfold Crosses; decide +kernel⟩, by decide +kernel, by decide +kernel⟩,
   ⟨State.reset, .control 0, 0, ⟨⟨by decide +kernel, by decide +kernel⟩, by unfold Crosses; decide +kernel⟩, by decide +kernel, by decide +kernel⟩,
   ⟨State.reset, .control 0, ⟨⟨by decide +kernel, by decide +kernel⟩, by unfold Crosses; decide +kernel⟩⟩,
   ⟨State.reset, .control 0, ⟨⟨by decide +kernel, by decide +kernel⟩, by unfold Crosses; decide +kernel⟩⟩,
   ⟨State.reset, by decide +kernel, by decide +kernel⟩,
   ⟨{ on [(R.TIM_CTRL_PPS_DIR, 1)] with time := ⟨1, 0, 0, none, 0, none, 0, []⟩ }, by decide +kernel, by decide +kernel, by decide +kernel⟩⟩

/-- The premises of `Obligations.DeviceTimeStepsSlewsAndStamps` can be met: ppsOutFall, ptpEventTx, txtsPop, ptpOneStep. -/
theorem witness_DeviceTimeStepsSlewsAndStamps_2 :
    (∃ (s : State) (c : Nat), (s.time.ppsHigh = some c) ∧ (c + s.get R.TIM_CTRL_PPS_WIDTH * msCycles ≤ s.cycle)) ∧
    (∃ (s : State) (p : Fin 8) (f : List Byte) (g : List Byte) (ty : BitVec 4) (dom : Byte) (sq : BitVec 16) (o : Bool), (g = ptpMessage f 14 ty dom sq) ∧ (be f 12 2 = 35063) ∧ (ty.toNat < 4) ∧ (58 ≤ f.length) ∧ (s.isSet (R.RLY_PnCTL_LOOPBACK ↑p) = false) ∧ (s.portRuns ↑p = true) ∧ (o = false ∨ ty ≠ 0) ∧ ((s.txtsOf ↑p).length < 64) ∧ (s.get (R.TIM_Pn_TX_LAT_NS ↑p) = 0)) ∧
    (∃ (s : State) (who : Sender) (p : Fin 8), Serves s who (R.TIM_Pn_TXTS_ID_VALID ↑p).addr) ∧
    (∃ (s : State) (p : Fin 8) (f : List Byte) (g : List Byte) (ty : BitVec 4) (dom : Byte) (sq : BitVec 16), (g = ptpMessage f 14 ty dom sq) ∧ (be f 12 2 = 35063) ∧ (ty.toNat < 4) ∧ (58 ≤ f.length) ∧ (s.isSet (R.RLY_PnCTL_LOOPBACK ↑p) = false) ∧ (s.portRuns ↑p = true) ∧ (ty = 0)) :=
  ⟨⟨{ State.reset with cycle := 1500000000, time := ⟨0, 0, 0, some 0, 0, none, 0, []⟩ }, 0, by decide +kernel, by decide +kernel⟩,
   ⟨on [(R.RLY_PnCTL_PORT_EN 0, 1), (R.RLY_CTRL_ENABLE, 1)], 0, ptpFrame, _, (0 : BitVec 4), (5 : Byte), (7 : BitVec 16), false, rfl, by decide +kernel, by decide +kernel, by decide +kernel, by decide +kernel, by decide +kernel, by decide +kernel, by decide +kernel, by decide +kernel⟩,
   ⟨State.reset, .control 0, 0, ⟨⟨by decide +kernel, by decide +kernel⟩, by unfold Crosses; decide +kernel⟩⟩,
   ⟨on [(R.RLY_PnCTL_PORT_EN 0, 1), (R.RLY_CTRL_ENABLE, 1)], 0, ptpFrame, _, (0 : BitVec 4), (5 : Byte), (7 : BitVec 16), rfl, by decide +kernel, by decide +kernel, by decide +kernel, by decide +kernel, by decide +kernel, by decide +kernel⟩⟩

/-- The premises of `Obligations.VideoDecodeRunsPictureByPicture` can be met: decodeStart, stripPublished, decodeComplete. -/
theorem witness_VideoDecodeRunsPictureByPicture :
    (∃ (s : State) (v : Fin 16) (pic : PicInfo) (n : Nat) (k : Task) (au : Nat) (ctx : Nat) (b : Nat) (rest : List Nat), (s.engineTask 0 ↑v = some (n, k)) ∧ (k.kind = 1) ∧ (s.vdeJob ↑v = none) ∧ (au = k.descAddr) ∧ (ctx = s.le au 8) ∧ (s.ctxValid ctx = true) ∧ (s.auValid au = true) ∧ (s.poison = []) ∧ (ctx + 256 ≤ hbmBytes) ∧ (au + 64 ≤ ctx ∨ ctx + 256 ≤ au) ∧ (s.ctxField ctx 33 1 = 0) ∧ (s.ctxField ctx 32 1 = 1) ∧ ((s.le (au + 18) 2).testBit 1 = false) ∧ (pic.sets = []) ∧ (pic.existing = none) ∧ (pic.uses = []) ∧ ((s.atTarget ctx pic).layers ≠ []) ∧ (outsideLimits (s.ctxField ctx 0 1) (s.atTarget ctx pic) = false) ∧ (s.exceedsCtx ctx (s.atTarget ctx pic) = false) ∧ (pic.rasl = false) ∧ (pic.refs = []) ∧ (pic.lists = []) ∧ (pic.gap = []) ∧ (pic.drops = []) ∧ (s.freeBufs ctx = b :: rest)) ∧
    (∃ (s : State) (v : Fin 16) (j : VdeJob) (cycles : Nat), (s.vdeJob ↑v = some j) ∧ (j.failing = false) ∧ (s.isFenced Unit.vde ↑v = false) ∧ (j.strips < stripsOf j.info.height) ∧ (cycles ≤ s.get (R.VDE_CUR_BUDGET_CYCLES ↑v))) ∧
    (∃ (s : State) (v : Fin 16) (j : VdeJob) (f : PicEnd), (s.vdeJob ↑v = some j) ∧ (j.failing = false) ∧ (s.isFenced Unit.vde ↑v = false) ∧ (f.cycles ≤ s.get (R.VDE_CUR_BUDGET_CYCLES ↑v)) ∧ (j.state = 1) ∧ (j.gap = false) ∧ (j.standins = 0) ∧ (j.recovery = false) ∧ (j.attempt = 1) ∧ (s.straysOf j f.strays = []) ∧ (s.poison = []) ∧ (j.ctx + 256 ≤ hbmBytes) ∧ (f.syntaxErr = false) ∧ (j.runsPast = false) ∧ (j.concealed = 0) ∧ (stripsOf j.info.height ≤ j.strips)) :=
  ⟨⟨{ withTask State.reset (at1000 1 0) with mem := cells 0x1000 ([0, 0x20] ++ List.replicate 14 0 ++ [1]) ++ cells 0x2000 decCtx }, 0, pic16, 0, at1000 1 0, _, _, 0, [1], by decide +kernel, by decide +kernel, by decide +kernel, rfl, rfl, by decide +kernel, by decide +kernel, by decide +kernel, by decide +kernel, by decide +kernel, by decide +kernel, by decide +kernel, by decide +kernel, by decide +kernel, by decide +kernel, by decide +kernel, by decide +kernel, by decide +kernel, by decide +kernel, by decide +kernel, by decide +kernel, by decide +kernel, by decide +kernel, by decide +kernel, by decide +kernel⟩,
   ⟨{ State.reset with vdes := [(0, some vdeJob0)] }, 0, vdeJob0, 0, by decide +kernel, by decide +kernel, by decide +kernel, by decide +kernel, by decide +kernel⟩,
   ⟨{ on [(R.VDE_CUR_BUDGET_CYCLES 0, 100)] with vdes := [(0, some { vdeJob0 with strips := 1 })] }, 0, { vdeJob0 with strips := 1 }, ⟨false, [], 100, .short, [], [], .own, none⟩, by decide +kernel, by decide +kernel, by decide +kernel, by decide +kernel, by decide +kernel, by decide +kernel, by decide +kernel, by decide +kernel, by decide +kernel, by decide +kernel, by decide +kernel, by decide +kernel, by decide +kernel, by decide +kernel, by decide +kernel, by decide +kernel⟩⟩

/-- The premises of `Obligations.VideoDecodeRetriesFillsAndReleases` can be met: vdeWatchdogExpiry, decodeFill, injWd, holdRelease, firResend. -/
theorem witness_VideoDecodeRetriesFillsAndReleases :
    (∃ (s : State) (v : Fin 16) (j : VdeJob) (cycles : Nat), (s.vdeJob ↑v = some j) ∧ (s.isFenced Unit.vde ↑v = false) ∧ (s.endsNow 0 ↑v = false) ∧ (j.failing = true ∨ s.get (R.VDE_CUR_BUDGET_CYCLES ↑v) < cycles) ∧ (j.attempt = 1)) ∧
    (∃ (s : State) (v : Fin 16) (w : Fin 16) (n : Nat) (k : Task) (j : VdeJob), (s.engineTask 0 ↑v = some (n, k)) ∧ (k.kind = 2) ∧ (v ≠ w) ∧ (s.vdeJob ↑v = none) ∧ (s.ctxField (s.le k.descAddr 8) 33 1 = ↑w + 1) ∧ (s.vdeJob ↑w = some j) ∧ (s.isFenced Unit.vde ↑w = true) ∧ (j.slot = n) ∧ (j.ctx = s.le k.descAddr 8) ∧ (s.poison = []) ∧ (j.ctx + 256 ≤ hbmBytes)) ∧
    (∃ (s : State) (who : Sender) (e : Engine), Serves s who (injectAddr e)) ∧
    (∃ (s : State) (a : Nat), (a + 4 ≤ hbmBytes) ∧ (s.poison = []) ∧ (0 < markHold (s.le a 4))) ∧
    (∃ (s : State) (ctx : Nat) (c : Nat), ((s.codec ctx).asked = some c) ∧ (c + secCycles ≤ s.cycle) ∧ (s.ctxField ctx 32 1 ≠ 1)) :=
  ⟨⟨{ State.reset with vdes := [(0, some vdeJob0)] }, 0, vdeJob0, 1, by decide +kernel, by decide +kernel, by decide +kernel, by decide +kernel, by decide +kernel⟩,
   ⟨{ { withTask (on [(R.SQL_FENCE_INSTANCES Unit.vde 0, 2)]) (at1000 2 0) with mem := cells 0x1000 [0, 0x20] ++ [(0x2021, 2)] } with vdes := [(1, some vdeJob0)] }, 0, 1, 0, at1000 2 0, vdeJob0, by decide +kernel, by decide +kernel, by decide +kernel, by decide +kernel, by decide +kernel, by decide +kernel, by decide +kernel, by decide +kernel, by decide +kernel, by decide +kernel, by decide +kernel⟩,
   ⟨State.reset, .control 0, .tsp, ⟨⟨by decide +kernel, by decide +kernel⟩, by unfold Crosses; decide +kernel⟩⟩,
   ⟨{ State.reset with mem := [(1, 1)] }, 0, by decide +kernel, by decide +kernel, by decide +kernel⟩,
   ⟨{ State.reset with cycle := 1500000000, codecs := [(0, { Codec.init with asked := some 0 })] }, 0, 0, by decide +kernel, by decide +kernel, by decide +kernel⟩⟩

/-- The premises of `Obligations.ComposeEnginesRunPassesStripByStrip` can be met: composePass, composeStrip, composeComplete, cmpWatchdogExpiry, composeFill. -/
theorem witness_ComposeEnginesRunPassesStripByStrip :
    (∃ (s : State) (c : Fin 4) (n : Nat) (k : Task) (j : CmpJob), (s.engineTask 2 ↑c = some (n, k)) ∧ (s.cmpJob ↑c = none) ∧ (j = s.readPass n k.descAddr) ∧ (k.kind = 3) ∧ ((passOk j.desc && j.layers.all s.layerOk) = true) ∧ (j.layers.all scaleOk = true)) ∧
    (∃ (s : State) (c : Fin 4) (j : CmpJob), (s.cmpJob ↑c = some j) ∧ (j.failing = false) ∧ (s.isFenced Unit.cmp ↑c = false) ∧ (j.strips < stripsOf (passSize j.desc).snd) ∧ (∀ (i : Nat), i < j.layers.length → (s.layerSource j i j.strips).isSome = true)) ∧
    (∃ (s : State) (c : Fin 4) (j : CmpJob) (cycles : Nat), (s.cmpJob ↑c = some j) ∧ (j.failing = false) ∧ (s.isFenced Unit.cmp ↑c = false) ∧ (stripsOf (passSize j.desc).snd ≤ j.strips) ∧ (cycles ≤ s.get (R.CMP_CUR_BUDGET_CYCLES ↑c)) ∧ (j.attempt = 1)) ∧
    (∃ (s : State) (c : Fin 4) (j : CmpJob) (cycles : Nat), (s.cmpJob ↑c = some j) ∧ (s.isFenced Unit.cmp ↑c = false) ∧ (s.endsNow 2 ↑c = false) ∧ (j.failing = true ∨ s.get (R.CMP_CUR_BUDGET_CYCLES ↑c) < cycles) ∧ (j.attempt = 1)) ∧
    (∃ (s : State) (c : Fin 4) (n : Nat) (k : Task) (j : CmpJob) (l : CmpJob) (i : Nat), (s.engineTask 2 ↑c = some (n, k)) ∧ (s.cmpJob ↑c = none) ∧ (j = s.readPass n k.descAddr) ∧ (k.kind = 4) ∧ (s.lostPass n = some (i, l)) ∧ (i ≠ ↑c) ∧ (passOk l.desc = true)) :=
  ⟨⟨{ withTask State.reset (at1000 3 8192) with mem := cells 0x1000 (passDesc ++ layer2) }, 0, 0, at1000 3 8192, _, by decide +kernel, by decide +kernel, rfl, by decide +kernel, by decide +kernel, by decide +kernel⟩,
   ⟨{ State.reset with cmps := [(0, some cmpJob0)] }, 0, cmpJob0, by decide +kernel, by decide +kernel, by decide +kernel, by decide +kernel, by decide +kernel⟩,
   ⟨{ State.reset with cmps := [(0, some { cmpJob0 with strips := 4 })] }, 0, { cmpJob0 with strips := 4 }, 0, by decide +kernel, by decide +kernel, by decide +kernel, by decide +kernel, by decide +kernel, by decide +kernel⟩,
   ⟨{ State.reset with cmps := [(0, some cmpJob0)] }, 0, cmpJob0, 1, by decide +kernel, by decide +kernel, by decide +kernel, by decide +kernel, by decide +kernel⟩,
   ⟨{ withTask (on [(R.SQL_FENCE_INSTANCES Unit.cmp 0, 2)]) (at1000 4 8192) with mem := cells 0x1000 (passDesc ++ layer2), cmps := [(1, some cmpJob0)] }, 0, 0, at1000 4 8192, _, cmpJob0, 1, by decide +kernel, by decide +kernel, rfl, by decide +kernel, by decide +kernel, by decide +kernel, by decide +kernel⟩⟩

/-- The premises of `Obligations.EncodeEnginesHoldTheCap` can be met: encodeStart, encodeRow, encodeComplete, veeWatchdogExpiry, encForceIntra. -/
theorem witness_EncodeEnginesHoldTheCap :
    (∃ (s : State) (v : Fin 16) (sets : List (List Byte)) (d : List Byte) (c : List Byte) (e : List Byte) (hdr : List Byte) (n : Nat) (ctx : Nat) (k : Task) (j : VeeJob) (ok : Bool), (s.engineTask 1 ↑v = some (n, k)) ∧ (s.veeJob ↑v = none) ∧ (d = s.bytes k.descAddr 64) ∧ (ctx = fieldOf d 0 8) ∧ (c = s.bytes ctx 48) ∧ (e = s.bytes (k.descAddr + 64) 64) ∧ (k.kind = 5 ∨ k.kind = 6 ∧ SMap.get false s.fw.waiting (fieldOf e 2 2) = false) ∧ (j =   have __src := s.planPicture n k sets;   { slot := __src.slot, desc := __src.desc, ctx := __src.ctx, cfg := __src.cfg, weights := __src.weights, debt := __src.debt, maxqp := __src.maxqp, intra := __src.intra, reset := __src.reset, start := __src.start, effort := __src.effort, stepped := __src.stepped, tid := __src.tid, target := __src.target, nominal := __src.nominal, budget := __src.budget, cap := __src.cap, baseQp := __src.baseQp, hdr := __src.hdr, qp := __src.qp, spent := __src.spent, share := __src.share, rows := __src.rows, maxFrom := __src.maxFrom, cutFrom := __src.cutFrom, blank := __src.blank, anew := __src.anew, store := __src.store, inject := s.armed 1 ↑v, attempt := __src.attempt }) ∧ (hdr = picturePrefix (fieldOf c 0 1) j.intra sets) ∧ (ok = (encOk c && ctx % 256 == 0 && s.le (ctx + 65) 1 == 0 && fieldOf d 48 8 % 64 == 0 && (k.kind == 5 || s.tileOk e && s.tileCtxOk c e))) ∧ (ok = true) ∧ (j.cap + 512 ≤ fieldOf d 40 4) ∧ (hdr.length ≤ fieldOf d 40 4) ∧ (s.poison = []) ∧ (ctx + 256 ≤ hbmBytes) ∧ (fieldOf d 32 8 + hdr.length ≤ ctx ∨ ctx + 256 ≤ fieldOf d 32 8)) ∧
    (∃ (s : State) (v : Fin 16) (j : VeeJob) (coded : List Byte) (trunc : List Byte) (units : List PredUnit) (left : Nat) (bound : Nat) (tile : Bool), (s.veeJob ↑v = some j) ∧ (j.failing = false) ∧ (s.isFenced Unit.vee ↑v = false) ∧ (j.rows.length < encRows j.cfg) ∧ (s.rowReady j j.rows.length = true) ∧ (left = encRows j.cfg - j.rows.length - 1) ∧ (tile = s.isTile j.slot) ∧ (bound = skipBound j.cfg j.intra tile) ∧ (trunc.length ≤ bound) ∧ (tile = true → (units.all fun u => unitInside u (fieldOf j.cfg 2 2) (fieldOf j.cfg 4 2)) = true) ∧ (j.spent + max coded.length trunc.length ≤ fieldOf j.desc 40 4)) ∧
    (∃ (s : State) (v : Fin 16) (j : VeeJob) (units : List Nat) (cycles : Nat), (s.veeJob ↑v = some j) ∧ (s.isFenced Unit.vee ↑v = false) ∧ (s.poison = []) ∧ (j.ctx + 256 ≤ hbmBytes) ∧ (j.failing = false) ∧ (cycles ≤ s.get (R.VEE_CUR_BUDGET_CYCLES ↑v)) ∧ (s.unitsOk j units = true) ∧ (encRows j.cfg ≤ j.rows.length) ∧ (List.foldl (fun v n => v + n + if (fieldOf j.cfg 0 1 == 3) = true then 0 else 4) 0 units = j.spent) ∧ (j.attempt = 1) ∧ (s.isTile j.slot = false)) ∧
    (∃ (s : State) (v : Fin 16) (j : VeeJob) (cycles : Nat), (s.veeJob ↑v = some j) ∧ (s.isFenced Unit.vee ↑v = false) ∧ (s.poison = []) ∧ (j.ctx + 256 ≤ hbmBytes) ∧ (s.endsNow 1 ↑v = false) ∧ (s.get (R.VEE_CUR_BUDGET_CYCLES ↑v) < cycles) ∧ (j.attempt = 2)) ∧
    (∃ (s : State) (desc : Nat), (desc + 64 ≤ hbmBytes) ∧ (s.poison = [])) :=
  ⟨⟨{ withTask State.reset (at1000 5 4096) with
      mem := cells 0x1000 ([0, 0x20] ++ List.replicate 31 0 ++ [0x60] ++ List.replicate 6 0 ++ [0xFF, 0xFF, 0xFF]) ++ cells 0x2000 encCfg }, 0, [], _, _, _, _, 0, _, at1000 5 4096, _, _, by decide +kernel, by decide +kernel, rfl, rfl, rfl, rfl, by decide +kernel, rfl, rfl, rfl, by decide +kernel, by decide +kernel, by decide +kernel, by decide +kernel, by decide +kernel, by decide +kernel⟩,
   ⟨{ State.reset with vees := [(0, some veeJob0)] }, 0, veeJob0, [], [], [], _, _, _, by decide +kernel, by decide +kernel, by decide +kernel, by decide +kernel, by decide +kernel, rfl, rfl, rfl, by decide +kernel, by decide +kernel, by decide +kernel⟩,
   ⟨{ { State.reset with mem := [(4, 0x65)] } with vees := [(0, some { veeJob0 with rows := List.replicate 4 ⟨30, 3, none⟩, spent := 12 })] }, 0, { veeJob0 with rows := List.replicate 4 ⟨30, 3, none⟩, spent := 12 }, [8], 0, by decide +kernel, by decide +kernel, by decide +kernel, by decide +kernel, by decide +kernel, by decide +kernel, by decide +kernel, by decide +kernel, by decide +kernel, by decide +kernel, by decide +kernel⟩,
   ⟨{ State.reset with vees := [(0, some { veeJob0 with attempt := 2 })] }, 0, { veeJob0 with attempt := 2 }, 1, by decide +kernel, by decide +kernel, by decide +kernel, by decide +kernel, by decide +kernel, by decide +kernel, by decide +kernel⟩,
   ⟨State.reset, 0, by decide +kernel, by decide +kernel⟩⟩

/-- The premises of `Obligations.SplicedPicturesAreBuiltAndSpread` can be met: packetize, pacePacket, spliceStart, spliceComplete, entryTileRequest, tspWatchdogExpiry. -/
theorem witness_SplicedPicturesAreBuiltAndSpread :
    (∃ (s : State) (leg : Fin 16384) (record : Nat), (↑leg < s.legLimit) ∧ ((s.le (record + 2) 2).testBit 5 = false) ∧ (500 ≤ s.obj 5263362 (↑leg) 1200)) ∧
    (∃ (s : State) (leg : Fin 16384) (p : PacedPacket) (before : List PacedPacket) (after : List PacedPacket), (s.fw.paced = before ++ p :: after) ∧ (p.leg = ↑leg) ∧ (∀ (q : PacedPacket), q ∈ before → q.leg ≠ ↑leg) ∧ (p.due ≤ s.cycle)) ∧
    (∃ (s : State) (n : Nat) (v : Nat) (k : Task) (d : List Byte), (s.engineTask 3 0 = some (n, k)) ∧ (s.tsp = none) ∧ (d = s.bytes k.descAddr 64) ∧ (v = fieldOf d 0 8) ∧ (s.spliceOk d = true) ∧ (s.le (v + 3) 1 = 0 ∨ timeAfter (fieldOf d 28 4) (s.le (v + 4) 4) = true) ∧ ((s.planSplice n k.descAddr d).room ≤ fieldOf d 24 4) ∧ (s.poison = []) ∧ (v + 512 ≤ hbmBytes)) ∧
    (∃ (s : State) (j : TspJob) (cycles : Nat) (v : Nat), (s.tsp = some j) ∧ (s.isFenced Unit.tsp 0 = false) ∧ (v = fieldOf j.desc 0 8) ∧ (j.failing = false) ∧ (cycles ≤ s.get R.TSP_CUR_BUDGET_CYCLES) ∧ (j.attempt = 1) ∧ (j.held.length = 36) ∧ (s.poison = []) ∧ (v + 512 ≤ hbmBytes) ∧ (v + 512 ≤ fieldOf j.desc 32 8 ∨ fieldOf j.desc 32 8 + 64 ≤ v)) ∧
    (∃ (s : State) (tset : Nat) (tick : Nat) (desc : Nat) (first : Nat), (first = (s.le (s.tsetAddr tset + 40) 4 + s.obj 5267460 0 8) % 2 ^ 32) ∧ (desc + 64 ≤ hbmBytes) ∧ (s.poison = []) ∧ (s.le (s.tsetAddr tset + 4) 4 ≠ 0) ∧ (tick = first ∨ timeAfter tick first = true) ∧ (tick < 2 ^ 32)) ∧
    (∃ (s : State) (j : TspJob) (cycles : Nat) (v : Nat), (s.tsp = some j) ∧ (s.isFenced Unit.tsp 0 = false) ∧ (v = fieldOf j.desc 0 8) ∧ (s.endsNow 3 0 = false) ∧ (j.failing = true ∨ s.get R.TSP_CUR_BUDGET_CYCLES < cycles) ∧ (j.attempt = 1)) :=
  ⟨⟨{ State.reset with objNum := [] }, 0, 0, by decide +kernel, by decide +kernel, by decide +kernel⟩,
   ⟨{ State.reset with fw := { State.reset.fw with paced := [⟨0, 0, true, []⟩] } }, 0, ⟨0, 0, true, []⟩, [], [], by decide +kernel, by decide +kernel, by decide +kernel, by decide +kernel⟩,
   ⟨{ withTask State.reset (at1000 7 12288) with
      mem := cells 0x1000 ([0, 0x20, 0, 0, 0, 0, 0, 0, 0, 0x30] ++ List.replicate 14 0 ++ [0xFF, 0xFF, 0xFF] ++ List.replicate 6 0 ++ [0x60]) }, 0, _, at1000 7 12288, _, by decide +kernel, by decide +kernel, rfl, rfl, by decide +kernel, by decide +kernel, by decide +kernel, by decide +kernel, by decide +kernel⟩,
   ⟨{ State.reset with tsp := some tspJob0 }, tspJob0, 0, _, by decide +kernel, by decide +kernel, rfl, by decide +kernel, by decide +kernel, by decide +kernel, by decide +kernel, by decide +kernel, by decide +kernel, by decide +kernel⟩,
   ⟨{ State.reset with mem := [(4, 1)] }, 0, 8, 0, _, rfl, by decide +kernel, by decide +kernel, by decide +kernel, by decide +kernel, by decide +kernel⟩,
   ⟨{ State.reset with tsp := some tspJob0 }, tspJob0, 1, _, by decide +kernel, by decide +kernel, rfl, by decide +kernel, by decide +kernel, by decide +kernel⟩⟩

/-- The premises of `Obligations.TalkersAreChosenByTheirScores` can be met: jbTargetUpdate, talkerSetUpdate, talkerAdmit, talkerRemove, audioFrameLate. -/
theorem witness_TalkersAreChosenByTheirScores :
    (∃ (s : State) (leg : Fin 16384), (↑leg < s.legLimit) ∧ (∀ (c : Nat), s.mxm.jbAt.find? ↑leg = some c → c + secCycles ≤ s.cycle)) ∧
    (∃ (s : State) (conf : Fin 4096), (SMap.get 0 s.mxm.talkedAt ↑conf ≠ s.mxm.began) ∧ (s.roleOf ↑conf ≠ 1) ∧ (s.roleOf ↑conf ≠ 2)) ∧
    (∃ (s : State) (leg : Fin 16384) (src : Fin 1536) (p : Fin 4096) (m : Fin 4096), (↑leg < s.legLimit) ∧ (p ≠ m) ∧ (s.swapPending ↑p = false) ∧ (s.swapPending ↑m = false) ∧ (setField (s.shadowSet ↑p) 0 1 = 1) ∧ ((s.shadowSet ↑p).length = 288) ∧ (setValid (↑p) (s.shadowSet ↑p) = true) ∧ (setField (s.shadowSet ↑p) 1 1 < 64) ∧ (∀ (e : Nat × Nat), e ∈ setEntries (s.shadowSet ↑p) → e.fst ≠ ↑src)) ∧
    (∃ (s : State) (leg : Fin 16384) (src : Fin 1536) (p : Fin 4096) (m : Fin 4096), (↑leg < s.legLimit) ∧ (p ≠ m) ∧ (s.swapPending ↑p = false) ∧ (s.swapPending ↑m = false) ∧ (∃ e, e ∈ setEntries (s.shadowSet ↑p) ∧ e.fst = ↑src) ∧ ((s.shadowSet ↑p).length = 288) ∧ (setValid (↑p) (s.shadowSet ↑p) = true)) ∧
    (∃ (s : State) (c : Core) (frame : Nat), (frame < s.mxm.began) ∧ (s.passed (s.mxm.tf - (s.mxm.began - 1 - frame) * 15000000) 15000000 = true) ∧ ((s.core ↑c).task ≠ none)) :=
  ⟨⟨State.reset, 0, by decide +kernel, fun _ h => by cases h⟩,
   ⟨{ State.reset with mxm := { State.reset.mxm with began := 1 } }, 0, by decide +kernel, by decide +kernel, by decide +kernel⟩,
   ⟨{ State.reset with mxm := { State.reset.mxm with shadow := [(0, [1, 0] ++ List.replicate 286 0)] } }, 0, 0, 0, 1, by decide +kernel, by decide +kernel, by decide +kernel, by decide +kernel, by decide +kernel, by decide +kernel, by decide +kernel, by decide +kernel, by decide +kernel⟩,
   ⟨{ State.reset with mxm := { State.reset.mxm with shadow := [(0, [1, 1] ++ List.replicate 286 0)] } }, 0, 0, 0, 1, by decide +kernel, by decide +kernel, by decide +kernel, by decide +kernel, by decide +kernel, by decide +kernel, by decide +kernel⟩,
   ⟨{ State.reset with cycle := 15000000, mxm := { State.reset.mxm with began := 1 }, dsp := [(0, { DspCore.init with task := some (0, 0) })] }, 0, 0, by decide +kernel, by decide +kernel, by decide +kernel⟩⟩

/-- The premises of `Obligations.MixFramesKeepTheirClock` can be met: sourcePortWrite, sourceCfgApply, frameStart, mixFrame. -/
theorem witness_MixFramesKeepTheirClock :
    (∃ (s : State) (i : Fin 1536) (offset : Nat) (data : List Byte), (offset % 64 = 0) ∧ (offset < 8192) ∧ (data.length = 64) ∧ ((s.source ↑i).fifo.length + 16 ≤ 2048)) ∧
    (∃ (s : State) (i : Fin 1536), (s.mxm.boundary = some s.cycle) ∧ (s.isSet (R.MXM_SRC_CFG_EN ↑i) = false) ∧ ((s.source ↑i).mode ≠ SrcMode.off)) ∧
    (∃ (s : State), (s.mxm.tfNext ≤ s.cycle) ∧ (s.island 40 = LullState.awake)) ∧
    (∃ (s : State), (s.mxm.next < s.mxm.began) ∧ (s.passed s.mixFrameStart (s.get R.MXM_MIX_PHASE_MICROSECONDS * 1500) = true) ∧ (s.isSet R.MXM_CTRL_ENABLE = false)) :=
  ⟨⟨{ State.reset with mxm := { State.reset.mxm with sources := [(0, { MixSource.init with mode := .priming })] } }, 0, 0, List.replicate 64 0, by decide +kernel, by decide +kernel, by decide +kernel, by decide +kernel⟩,
   ⟨{ State.reset with mxm := { State.reset.mxm with boundary := some 0, sources := [(0, { MixSource.init with mode := .priming })] } }, 0, by decide +kernel, by decide +kernel, by decide +kernel⟩,
   ⟨State.reset, by decide +kernel, by decide +kernel⟩,
   ⟨{ State.reset with cycle := 15000000, mxm := { State.reset.mxm with began := 1 } }, by decide +kernel, by decide +kernel, by decide +kernel⟩⟩

/-- The premises of `Obligations.SetAndSwapCommandsChangeWhatTheyName` can be met: load/readActive, store, swapCommit, mxmCommandDone. -/
theorem witness_SetAndSwapCommandsChangeWhatTheyName :
    (∃ (s : State) (who : Sender) (b : Nat) (x : Instr × List Byte), (Serves s who R.MXM_SET_CMD_OP.addr) ∧ (s.holds mxmPort who = true) ∧ (s.isSet R.MXM_CMD_RESULT_BUSY = false) ∧ (b = s.get R.MXM_SET_SEL_BUS) ∧ (x ∈ [(Instr.load who, s.shadowSet b), (Instr.readActive who, s.activeSet b)])) ∧
    (∃ (s : State) (who : Sender) (b : Nat), (Serves s who R.MXM_SET_CMD_OP.addr) ∧ (s.holds mxmPort who = true) ∧ (s.isSet R.MXM_CMD_RESULT_BUSY = false) ∧ (b = s.get R.MXM_SET_SEL_BUS) ∧ (setValid b s.setInHand = true) ∧ (s.swapPending b = false)) ∧
    (∃ (s : State) (who : Sender) (count : BitVec 7) (bs : List Nat), (Serves s who R.MXM_SWAP_CMD_COUNT.addr) ∧ (s.holds mxmPort who = true) ∧ (s.isSet R.MXM_CMD_RESULT_BUSY = false) ∧ (bs = List.map (fun k => s.get (R.MXM_SWAP_LIST_BUS k)) (List.range (min 64 count.toNat))) ∧ (0 < count.toNat) ∧ (count.toNat ≤ 64) ∧ (bs.Nodup) ∧ (∀ (b : Nat), b ∈ bs → b ≤ 4095 ∧ s.swapPending b = false)) ∧
    (∃ (s : State) (r : Nat) (late : Bool), s.mxm.job = some (r, late)) :=
  ⟨⟨held mxmPort State.reset, .control 0, _, (Instr.load (.control 0), blankSet), ⟨⟨by decide +kernel, by decide +kernel⟩, by unfold Crosses; decide +kernel⟩, by decide +kernel, by decide +kernel, rfl, by decide +kernel⟩,
   ⟨held mxmPort State.reset, .control 0, _, ⟨⟨by decide +kernel, by decide +kernel⟩, by unfold Crosses; decide +kernel⟩, by decide +kernel, by decide +kernel, rfl, by decide +kernel, by decide +kernel⟩,
   ⟨held mxmPort State.reset, .control 0, 1, _, ⟨⟨by decide +kernel, by decide +kernel⟩, by unfold Crosses; decide +kernel⟩, by decide +kernel, by decide +kernel, rfl, by decide +kernel, by decide +kernel, by decide +kernel, by decide +kernel⟩,
   ⟨{ State.reset with mxm := { State.reset.mxm with job := some (0, false) } }, 0, false, by decide +kernel⟩⟩

/-- The premises of `Obligations.SwapsApplyWholeAndGainsStep` can be met: swapApply, gainStep, stepTimeout, mixDisable. -/
theorem witness_SwapsApplyWholeAndGainsStep :
    (∃ (s : State) (g : SwapGroup), (s.mxm.waiting = [g]) ∧ (s.mixes = true) ∧ (g.target ≤ s.mxm.next * 480) ∧ (∀ (b : Nat), b ∈ g.buses → (s.bus b).steps = [])) ∧
    (∃ (s : State) (b : Fin 4096) (k : Nat) (st : MixStep) (before : Int) (now : Int), ((s.bus ↑b).steps[k]? = some st) ∧ (s.mixes = true) ∧ (st.from_ ≤ s.mxm.next * 480) ∧ (now = 0 ∨ now.sign ≠ before.sign)) ∧
    (∃ (s : State) (b : Fin 4096) (k : Nat) (st : MixStep), ((s.bus ↑b).steps[k]? = some st) ∧ (s.mixes = true) ∧ (st.limit ≤ s.mxm.next * 480)) ∧
    (∃ (s : State) (who : Sender), Serves s who R.MXM_CTRL_ENABLE.addr) :=
  ⟨⟨{ on [(R.MXM_CTRL_ENABLE, 1)] with mxm := { State.reset.mxm with waiting := [⟨[0], 0, 0⟩] } }, ⟨[0], 0, 0⟩, by decide +kernel, by decide +kernel, by decide +kernel, by decide +kernel⟩,
   ⟨{ on [(R.MXM_CTRL_ENABLE, 1)] with mxm := { State.reset.mxm with buses := [(0, { MixBus.init with steps := [⟨none, 1, 0, 480⟩] })] } }, 0, 0, ⟨none, 1, 0, 480⟩, 1, 0, by decide +kernel, by decide +kernel, by decide +kernel, by decide +kernel⟩,
   ⟨{ on [(R.MXM_CTRL_ENABLE, 1)] with mxm := { State.reset.mxm with next := 1, buses := [(0, { MixBus.init with steps := [⟨none, 1, 0, 480⟩] })] } }, 0, 0, ⟨none, 1, 0, 480⟩, by decide +kernel, by decide +kernel, by decide +kernel⟩,
   ⟨State.reset, .control 0, ⟨⟨by decide +kernel, by decide +kernel⟩, by unfold Crosses; decide +kernel⟩⟩⟩

/-- The premises of `Obligations.DspMovesAndBranchesKeepTheirDelays` can be met: ld, ld2, st, st2, dspB/bcc/ret, call. -/
theorem witness_DspMovesAndBranchesKeepTheirDelays_1 :
    (∃ (s : State) (c : Core) (k : DspCore) (addr : DspAddr) (a : Nat) (upd : List (DspReg × Nat)), (k = s.core ↑c) ∧ (Fresh k) ∧ (k.address addr = Except.ok (a, upd)) ∧ (a % 4 = 0) ∧ (localOk a 4 = true)) ∧
    (∃ (s : State) (c : Core) (k : DspCore) (addr : DspAddr) (a : Nat) (upd : List (DspReg × Nat)), (k = s.core ↑c) ∧ (Fresh k) ∧ (k.address addr = Except.ok (a, upd)) ∧ (a % 8 = 0) ∧ (localOk a 8 = true)) ∧
    (∃ (s : State) (c : Core) (k : DspCore) (addr : DspAddr) (a : Nat) (upd : List (DspReg × Nat)), (k = s.core ↑c) ∧ (Fresh k) ∧ (k.address addr = Except.ok (a, upd)) ∧ (isControl a = false) ∧ (baseReg addr ≠ 7 ∨ s.get (R.CORE_SLIM_ADDR (↑c / 16) (↑c % 16)) ≤ a) ∧ (a % 4 = 0) ∧ (localOk a 4 = true)) ∧
    (∃ (s : State) (c : Core) (k : DspCore) (addr : DspAddr) (a : Nat) (upd : List (DspReg × Nat)), (k = s.core ↑c) ∧ (Fresh k) ∧ (k.address addr = Except.ok (a, upd)) ∧ (isControl a = false) ∧ (baseReg addr ≠ 7 ∨ s.get (R.CORE_SLIM_ADDR (↑c / 16) (↑c % 16)) ≤ a) ∧ (a % 8 = 0) ∧ (localOk a 8 = true)) ∧
    (∃ (s : State) (c : Core) (k : DspCore) (i : (BitVec 13 → Instr) × (BitVec 13 → Option Nat)) (o : BitVec 13), (k = s.core ↑c) ∧ (Fresh k) ∧ (i ∈ [(fun o => Instr.dspB c o true, fun o => some (k.away o)), (fun o => Instr.bcc c (DspCond.z true) o true, fun o => if k.status.testBit 0 = true then some (k.away o) else none), (fun o => Instr.bcc c (DspCond.c false) o true, fun o => if k.status.testBit 3 = true then none else some (k.away o)), (fun x => Instr.ret c true, fun x => some k.lr)])) ∧
    (∃ (s : State) (c : Core) (k : DspCore), (k = s.core ↑c) ∧ (Fresh k)) :=
  ⟨⟨withCore coreRun, 0, _, .index 0 0, 0, [], rfl, by unfold Fresh; decide +kernel, rfl, by decide +kernel, by decide +kernel⟩,
   ⟨withCore coreRun, 0, _, .index 0 0, 0, [], rfl, by unfold Fresh; decide +kernel, rfl, by decide +kernel, by decide +kernel⟩,
   ⟨withCore coreRun, 0, _, .index 0 0, 0, [], rfl, by unfold Fresh; decide +kernel, rfl, by decide +kernel, by decide +kernel, by decide +kernel, by decide +kernel⟩,
   ⟨withCore coreRun, 0, _, .index 0 0, 0, [], rfl, by unfold Fresh; decide +kernel, rfl, by decide +kernel, by decide +kernel, by decide +kernel, by decide +kernel⟩,
   ⟨withCore coreRun, 0, _, (fun o => Instr.dspB 0 o true, fun o => some (coreRun.away o)), 0, rfl, by unfold Fresh; decide +kernel, List.mem_cons_self⟩,
   ⟨withCore coreRun, 0, _, rfl, by unfold Fresh; decide +kernel⟩⟩

/-- The premises of `Obligations.DspMovesAndBranchesKeepTheirDelays` can be met: dspRep, brk, rti, swi, nop. -/
theorem witness_DspMovesAndBranchesKeepTheirDelays_2 :
    (∃ (s : State) (c : Core) (k : DspCore) (l : Fin 4) (v : BitVec 16) (e : BitVec 13), (k = s.core ↑c) ∧ (Fresh k) ∧ (k.lact ↑l = false) ∧ (k.pc < 8191) ∧ (k.pc + 1 ≤ k.away e) ∧ (v ≠ 0)) ∧
    (∃ (s : State) (c : Core) (k : DspCore), (k = s.core ↑c) ∧ (Fresh k)) ∧
    (∃ (s : State) (c : Core) (k : DspCore), (k = s.core ↑c) ∧ (Fresh k)) ∧
    (∃ (s : State) (c : Core) (k : DspCore), (k = s.core ↑c) ∧ (Fresh k)) ∧
    (∃ (s : State) (c : Core) (k : DspCore) (n : Fin 16) (v : Nat), (k = s.core ↑c) ∧ (k.issues = true) ∧ (k.bundle = Bundle.empty) ∧ (k.atLoopEnd = false) ∧ (k.haltReq = false) ∧ (k.oneStep = false) ∧ (k.delay = 0) ∧ (k.flight = [(DspReg.d n, v)])) :=
  ⟨⟨withCore coreRun, 0, _, 0, 1, 1, rfl, by unfold Fresh; decide +kernel, by decide +kernel, by decide +kernel, by decide +kernel, by decide +kernel⟩,
   ⟨withCore coreRun, 0, _, rfl, by unfold Fresh; decide +kernel⟩,
   ⟨withCore coreRun, 0, _, rfl, by unfold Fresh; decide +kernel⟩,
   ⟨withCore coreRun, 0, _, rfl, by unfold Fresh; decide +kernel⟩,
   ⟨withCore { coreRun with flight := [(.d 0, 7)] }, 0, _, 0, 7, rfl, by decide +kernel, by decide +kernel, by decide +kernel, by decide +kernel, by decide +kernel, by decide +kernel, by decide +kernel⟩⟩

/-- The premises of `Obligations.BitReversedUpdatesCarryDown` can be met: mod. -/
theorem witness_BitReversedUpdatesCarryDown :
    ∃ (s : State) (c : Core) (k : DspCore) (n : Fin 8) (j : Fin 8) (a : Word) (b : Word) (l : Word) (md : Word) (w : Nat) (off : Nat) (add : Nat) (x : Nat) (y : Nat) (r : Nat), (k = s.core ↑c) ∧ (Fresh k) ∧ (k.modeOf ↑n = 2) ∧ (a = SMap.get 0 k.a ↑n) ∧ (b = SMap.get 0 k.b ↑n) ∧ (l = SMap.get 0 k.l ↑n) ∧ (md = SMap.get 0 k.m ↑j) ∧ (1 ≤ w) ∧ (w ≤ 16) ∧ (BitVec.toNat l = 4 * 2 ^ w) ∧ (off = BitVec.toNat (a - b) / 4) ∧ (↑add = BitVec.toInt md / 4 % 2 ^ w) ∧ (x < 2 ^ w) ∧ (y < 2 ^ w) ∧ (r < 2 ^ w) ∧ (∀ (i : Nat), i < w → x.testBit i = off.testBit (w - 1 - i)) ∧ (∀ (i : Nat), i < w → y.testBit i = add.testBit (w - 1 - i)) ∧ (∀ (i : Nat), i < w → r.testBit (w - 1 - i) = (x + y).testBit i) :=
  ⟨withCore { coreRun with amode := 2, l := [(0, 32)], m := [(0, 16)] }, 0, _, 0, 0, _, _, _, _, 3, _, 4, 0, 1, 4, rfl, by unfold Fresh; decide +kernel, by decide +kernel, rfl, rfl, rfl, rfl, by decide +kernel, by decide +kernel, by decide +kernel, rfl, by decide +kernel, by decide +kernel, by decide +kernel, by decide +kernel, by decide +kernel, by decide +kernel, by decide +kernel⟩

/-- The premises of `Obligations.DspAluWritesResultAndFlags` can be met: add/sub/abs/neg, dspAnd/dspOr/xor/min/max, ash, lsh, cmp, adda. -/
theorem witness_DspAluWritesResultAndFlags_1 :
    (∃ (s : State) (c : Core) (k : DspCore) (dst : Fin 16) (x : Fin 16) (y : Opnd) (i : Instr × Int), (k = s.core ↑c) ∧ (Fresh k) ∧ (i ∈ [(Instr.add c dst x y true, BitVec.toInt (k.dreg ↑x) + BitVec.toInt (k.opnd y)), (Instr.sub c dst x y true, BitVec.toInt (k.dreg ↑x) - BitVec.toInt (k.opnd y)), (Instr.abs c dst x true, ↑(BitVec.toInt (k.dreg ↑x)).natAbs), (Instr.neg c dst x true, -BitVec.toInt (k.dreg ↑x))])) ∧
    (∃ (s : State) (c : Core) (k : DspCore) (dst : Fin 16) (x : Fin 16) (y : Opnd) (i : Instr × Word), (k = s.core ↑c) ∧ (Fresh k) ∧ (i ∈ [(Instr.dspAnd c dst x y true, k.dreg ↑x &&& k.opnd y), (Instr.dspOr c dst x y true, k.dreg ↑x ||| k.opnd y), (Instr.xor c dst x y true, k.dreg ↑x ^^^ k.opnd y), (Instr.min c dst x y true, if BitVec.toInt (k.dreg ↑x) ≤ BitVec.toInt (k.opnd y) then k.dreg ↑x else k.opnd y), (Instr.max c dst x y true, if BitVec.toInt (k.dreg ↑x) ≤ BitVec.toInt (k.opnd y) then k.opnd y else k.dreg ↑x)])) ∧
    (∃ (s : State) (c : Core) (k : DspCore) (y : Opnd) (n : Int), (k = s.core ↑c) ∧ (Fresh k) ∧ (n = BitVec.toInt (k.opnd y)) ∧ (-31 ≤ n) ∧ (n ≤ 31)) ∧
    (∃ (s : State) (c : Core) (k : DspCore) (y : Opnd) (n : Int), (k = s.core ↑c) ∧ (Fresh k) ∧ (n = BitVec.toInt (k.opnd y)) ∧ (-31 ≤ n) ∧ (n ≤ 31)) ∧
    (∃ (s : State) (c : Core) (k : DspCore), (k = s.core ↑c) ∧ (Fresh k)) ∧
    (∃ (s : State) (c : Core) (k : DspCore), (k = s.core ↑c) ∧ (Fresh k)) :=
  ⟨⟨withCore coreRun, 0, _, 0, 0, .imm 1, (Instr.add 0 0 0 (.imm 1) true, 1), rfl, by unfold Fresh; decide +kernel, by decide +kernel⟩,
   ⟨withCore coreRun, 0, _, 0, 0, .imm 1, (Instr.dspAnd 0 0 0 (.imm 1) true, 0), rfl, by unfold Fresh; decide +kernel, by decide +kernel⟩,
   ⟨withCore coreRun, 0, _, .imm 31, _, rfl, by unfold Fresh; decide +kernel, rfl, by decide +kernel, by decide +kernel⟩,
   ⟨withCore coreRun, 0, _, .imm 0xFFFFFFE1, _, rfl, by unfold Fresh; decide +kernel, rfl, by decide +kernel, by decide +kernel⟩,
   ⟨withCore coreRun, 0, _, rfl, by unfold Fresh; decide +kernel⟩,
   ⟨withCore coreRun, 0, _, rfl, by unfold Fresh; decide +kernel⟩⟩

/-- The premises of `Obligations.DspAluWritesResultAndFlags` can be met: mov, mvg. -/
theorem witness_DspAluWritesResultAndFlags_2 :
    (∃ (s : State) (c : Core) (k : DspCore) (dst : DspReg) (src : DspReg), (k = s.core ↑c) ∧ (Fresh k) ∧ ((k.write dst (BitVec.toNat (k.read src))).atLoopEnd = false)) ∧
    (∃ (s : State) (c : Core) (k : DspCore), (k = s.core ↑c) ∧ (Fresh k)) :=
  ⟨⟨withCore coreRun, 0, _, .d 1, .d 0, rfl, by unfold Fresh; decide +kernel, by decide +kernel⟩,
   ⟨withCore coreRun, 0, _, rfl, by unfold Fresh; decide +kernel⟩⟩

/-- The premises of `Obligations.DspAccumulatorsHoldExactSums` can be met: mac2/msu2/mpy2, mac/msu/mpy/accadd, accsh, clr2. -/
theorem witness_DspAccumulatorsHoldExactSums :
    (∃ (s : State) (c : Core) (k : DspCore) (f : Int) (a : Fin 4) (b : Fin 4) (w : Fin 16) (x : Fin 16) (y : Fin 16) (z : Fin 16) (p : Int) (q : Int) (i : Instr × Int × Int), (k = s.core ↑c) ∧ (Fresh k) ∧ (f = if k.frac = true then 2 else 1) ∧ (a ≠ b) ∧ (p = BitVec.toInt (k.dreg ↑w) * BitVec.toInt (k.dreg ↑x) * f) ∧ (q = BitVec.toInt (k.dreg ↑y) * BitVec.toInt (k.dreg ↑z) * f) ∧ (i ∈ [(Instr.mac2 c a b w x y z true, (k.accum ↑a).toInt + p, (k.accum ↑b).toInt + q), (Instr.msu2 c a b w x y z true, (k.accum ↑a).toInt - p, (k.accum ↑b).toInt - q), (Instr.mpy2 c a b w x y z true, p, q)])) ∧
    (∃ (s : State) (c : Core) (k : DspCore) (f : Int) (a : Fin 4) (b : Fin 4) (e : Fin 4) (x : Fin 16) (y : Fin 16) (p : Int) (i : Instr × Int), (k = s.core ↑c) ∧ (Fresh k) ∧ (f = if k.frac = true then 2 else 1) ∧ (p = BitVec.toInt (k.dreg ↑x) * BitVec.toInt (k.dreg ↑y) * f) ∧ (i ∈ [(Instr.mac c a x y true, (k.accum ↑a).toInt + p), (Instr.msu c a x y true, (k.accum ↑a).toInt - p), (Instr.mpy c a x y true, p), (Instr.accadd c a b e true, (k.accum ↑b).toInt + (k.accum ↑e).toInt)])) ∧
    (∃ (s : State) (c : Core) (k : DspCore) (f : Int) (a : Fin 4) (shift : BitVec 7) (v : Int), (k = s.core ↑c) ∧ (Fresh k) ∧ (f = if k.frac = true then 2 else 1) ∧ (-63 ≤ shift.toInt) ∧ (shift.toInt ≤ 8) ∧ (v = if 0 ≤ shift.toInt then (k.accum ↑a).toInt * 2 ^ shift.toInt.toNat else (k.accum ↑a).toInt / 2 ^ (-shift.toInt).toNat)) ∧
    (∃ (s : State) (c : Core) (k : DspCore) (f : Int), (k = s.core ↑c) ∧ (Fresh k) ∧ (f = if k.frac = true then 2 else 1)) :=
  ⟨⟨withCore coreRun, 0, _, _, 0, 1, 0, 0, 0, 0, _, _, (Instr.mac2 0 0 1 0 0 0 0 true, 0, 0), rfl, by unfold Fresh; decide +kernel, rfl, by decide +kernel, rfl, rfl, by decide +kernel⟩,
   ⟨withCore coreRun, 0, _, _, 0, 0, 0, 0, 0, _, (Instr.mac 0 0 0 0 true, 0), rfl, by unfold Fresh; decide +kernel, rfl, rfl, by decide +kernel⟩,
   ⟨withCore coreRun, 0, _, _, 0, 8, _, rfl, by unfold Fresh; decide +kernel, rfl, by decide +kernel, by decide +kernel, rfl⟩,
   ⟨withCore coreRun, 0, _, _, rfl, by unfold Fresh; decide +kernel, rfl⟩⟩

/-- The premises of `Obligations.RndRoundsAndSaturates` can be met: rnd. -/
theorem witness_RndRoundsAndSaturates :
    ∃ (s : State) (c : Core) (k : DspCore) (a : Fin 4) (v : Int), (k = s.core ↑c) ∧ (Fresh k) ∧ (v = if k.frac = true then ((k.accum ↑a).toInt + 2 ^ 31) / 2 ^ 32 else (k.accum ↑a).toInt) :=
  ⟨withCore coreRun, 0, _, 0, _, rfl, by unfold Fresh; decide +kernel, rfl⟩

/-- The premises of `Obligations.DspTasksEndOnceAndFaultsStop` can be met: take, takeGrant, done, doneDmaDrained, dspWatchdogExpiry, selftestDone. -/
theorem witness_DspTasksEndOnceAndFaultsStop :
    (∃ (s : State) (c : Core) (k : DspCore), (k = s.core ↑c) ∧ (Fresh k) ∧ (k.task = none) ∧ (s.coreEnabled ↑c = true) ∧ (k.mode ≠ CoreMode.disabled)) ∧
    (∃ (s : State) (c : Core) (n : Nat) (job : Task) (k : DspCore), (s.runningOn 4 ↑c = some (n, job)) ∧ (k = s.core ↑c) ∧ (k.mode = CoreMode.take) ∧ (k.halted = false) ∧ (k.bundle = Bundle.empty.mark BundleSlot.compute) ∧ (k.flight = []) ∧ (k.delay = 0) ∧ (k.atLoopEnd = false) ∧ (k.haltReq = false) ∧ (k.oneStep = false) ∧ (job.args.length = 64)) ∧
    (∃ (s : State) (c : Core) (k : DspCore) (r : Fin 16) (v : Nat), (k = s.core ↑c) ∧ (Fresh k) ∧ (k.task ≠ none) ∧ (v = BitVec.toNat (k.dreg ↑r) % 256) ∧ (kernelStatusOk v = true) ∧ (k.dmaIdle = false)) ∧
    (∃ (s : State) (c : Core) (v : Nat) (rep : KernelReport), ((s.core ↑c).doneSt = some (v, rep)) ∧ ((s.core ↑c).dmaIdle = true) ∧ ((s.core ↑c).attempt = 1)) ∧
    (∃ (s : State) (c : Core) (cycles : Nat), ((s.core ↑c).task ≠ none) ∧ (s.endsNow 4 ↑c = false) ∧ ((s.core ↑c).mode ≠ CoreMode.selftest) ∧ (s.dspBudget ↑c < cycles) ∧ ((s.core ↑c).attempt = 1)) ∧
    (∃ (s : State) (c : Core), ((s.core ↑c).mode = CoreMode.selftest) ∧ (s.isFenced Unit.dsc ↑c = false)) :=
  ⟨⟨withCore { coreRun with task := none } (on [(R.DSC_CTRL_ENABLE 0, 1), (R.DSC_CORE_EN_EN 0, 1)]), 0, _, rfl, by unfold Fresh; decide +kernel, by decide +kernel, by decide +kernel, by decide +kernel⟩,
   ⟨withCore { coreRun with mode := .take, bundle := Bundle.empty.mark .compute } (withTask State.reset (running 8 16384 (List.replicate 128 0))), 0, 0, running 8 16384 (List.replicate 128 0), _, by decide +kernel, rfl, by decide +kernel, by decide +kernel, by decide +kernel, by decide +kernel, by decide +kernel, by decide +kernel, by decide +kernel, by decide +kernel, by decide +kernel⟩,
   ⟨withCore { coreRun with dma := [(0, { DmaChannel.init with desc := some 0 })] }, 0, _, 0, _, rfl, by unfold Fresh; decide +kernel, by decide +kernel, rfl, by decide +kernel, by decide +kernel⟩,
   ⟨withCore { coreRun with doneSt := some (0, KernelReport.none) }, 0, 0, .none, by decide +kernel, by decide +kernel, by decide +kernel⟩,
   ⟨withCore coreRun, 0, 10000000, by decide +kernel, by decide +kernel, by decide +kernel, by decide +kernel, by decide +kernel⟩,
   ⟨withCore { DspCore.init with mode := .selftest }, 0, by decide +kernel, by decide +kernel⟩⟩

/-- The premises of `Obligations.DspInterruptsDmaAndDebug` can be met: interruptTaken, coreTimerExpiry, dmaStart, dmaDescDone, dscDoorbell, halt. -/
theorem witness_DspInterruptsDmaAndDebug_1 :
    (∃ (s : State) (c : Core) (k : DspCore) (n : Nat), (k = s.core ↑c) ∧ (k.dueIrq = some n) ∧ (k.ie = true) ∧ (k.halted = false) ∧ (k.mode = CoreMode.run ∨ k.mode = CoreMode.handler) ∧ (k.openBoundary = true)) ∧
    (∃ (s : State) (c : Core) (e : Nat), ((s.core ↑c).timer = some e) ∧ (e ≤ s.cycle)) ∧
    (∃ (s : State) (c : Core) (n : Fin 4), ((s.core ↑c).chan ↑n).desc = none) ∧
    (∃ (s : State) (c : Core) (n : Fin 4) (a : Nat) (d : DmaDesc), (((s.core ↑c).chan ↑n).desc = some a) ∧ (d = s.dmaDesc (↑c) a) ∧ (a + 32 ≤ 262144) ∧ (s.inWindow (↑c) d.dev d.len = false)) ∧
    (∃ (s : State) (who : Sender) (k : Fin 8), Serves s who (R.DSC_DOORBELL_RING ↑k).addr) ∧
    (∃ (s : State) (who : Sender) (c : Core) (f : Fld), (f = R.CORE_DBG_HALT (↑c / 16) (↑c % 16)) ∧ (Serves s who f.addr) ∧ (s.isSet R.FUS_STATUS_DEBUG_DIS = false)) :=
  ⟨⟨withCore { coreRun with status := 256, ipend := 128, imask := 128 }, 0, _, 7, rfl, by decide +kernel, by decide +kernel, by decide +kernel, by decide +kernel, by decide +kernel⟩,
   ⟨withCore { coreRun with timer := some 0 }, 0, 0, by decide +kernel, by decide +kernel⟩,
   ⟨withCore coreRun, 0, 0, by decide +kernel⟩,
   ⟨withCore { coreRun with dma := [(0, { DmaChannel.init with desc := some 0 })], data := [(12, 1)] }, 0, 0, 0, _, by decide +kernel, rfl, by decide +kernel, by decide +kernel⟩,
   ⟨State.reset, .control 0, 0, ⟨⟨by decide +kernel, by decide +kernel⟩, by unfold Crosses; decide +kernel⟩⟩,
   ⟨State.reset, .control 0, 0, _, rfl, ⟨⟨by decide +kernel, by decide +kernel⟩, by unfold Crosses; decide +kernel⟩, by decide +kernel⟩⟩

/-- The premises of `Obligations.DspInterruptsDmaAndDebug` can be met: step, kernelInstall, irqWaitMaxWrite. -/
theorem witness_DspInterruptsDmaAndDebug_2 :
    (∃ (s : State) (who : Sender) (c : Core) (f : Fld), (f = R.CORE_DBG_HALT (↑c / 16) (↑c % 16)) ∧ (Serves s who f.addr) ∧ ((s.core ↑c).halted = true)) ∧
    (∃ (s : State) (image : List Byte) (c : Fin 128), (imageOk image = true) ∧ (s.kernelSigned image = true) ∧ (s.kernelFits image ↑c = true) ∧ ((s.get (R.DSC_CORE_EN_EN (↑c / 16))).testBit (↑c % 16) = false)) ∧
    (∃ (s : State) (who : Sender) (k : Fin 8), Serves s who (R.DSC_IRQ_WAIT_MAX_CYCLES ↑k).addr) :=
  ⟨⟨withCore { coreRun with halted := true }, .control 0, 0, _, rfl, ⟨⟨by decide +kernel, by decide +kernel⟩, by unfold Crosses; decide +kernel⟩, by decide +kernel⟩,
   ⟨{ State.reset with boot := { State.reset.boot with header := kernelHeader } }, kernelImage, 0, by decide +kernel, by decide +kernel, by decide +kernel, by decide +kernel⟩,
   ⟨State.reset, .control 0, 0, ⟨⟨by decide +kernel, by decide +kernel⟩, by unfold Crosses; decide +kernel⟩⟩⟩

/-- The premises of `Obligations.SundogProbesFollowTheirStates` can be met: probeNow, probeArm, modStartWrite, beaconFrameStart, beaconFrameEnd, probeJudge. -/
theorem witness_SundogProbesFollowTheirStates_1 :
    (∃ (s : State) (leg : Fin 16384) (fb : Bool) (code : Nat), code = if s.legLimit ≤ ↑leg then St.objInstance else if s.sdgRuns = false then St.sdgOffline else if (s.probeOf ↑leg).isSome = true then St.sdgProbeBusy else if fb = false then St.sdgNotFullband else St.ok) ∧
    (∃ (s : State) (bus : Fin 4096) (parent : Nat) (gain : Nat) (m : Nat) (ex : List Nat) (p : Probe) (after : List Probe), (s.sdg.probes = p :: after) ∧ (p.st = ProbeState.queued) ∧ (∀ (q : Probe), q ∈ after → q.leg ≠ p.leg) ∧ (s.freeModulator = some m) ∧ (s.sdgRuns = true) ∧ (setValid (↑bus) (makeSet 2 parent gain (32768 + m) (List.map (fun e => (e, 0)) ex)) = true) ∧ (s.swapPending ↑bus = false)) ∧
    (∃ (s : State) (who : Sender) (m : Fin 256) (frame : Word) (d : Nat), (Serves s who (R.SDG_MOD_START_FRAME ↑m).addr) ∧ (s.sdgRuns = true) ∧ (s.isSet (R.SDG_MOD_CTRL_EN ↑m) = true) ∧ (d < 2 ^ 31) ∧ (BitVec.toNat frame = (s.mxm.next + d) % 2 ^ 32)) ∧
    (∃ (s : State) (m : Fin 256) (token : Nat) (shift : Nat), (shift = s.get (R.SDG_MOD_CTRL_SHIFT ↑m)) ∧ (token = s.get (R.SDG_MOD_TOKEN_HI_TOKEN ↑m) * 2 ^ 32 + s.get (R.SDG_MOD_TOKEN_LO_TOKEN ↑m)) ∧ (s.sdgRuns = true) ∧ (s.beaconDue ↑m = true)) ∧
    (∃ (s : State) (m : Fin 256) (token : Nat) (shift : Nat), (shift = s.get (R.SDG_MOD_CTRL_SHIFT ↑m)) ∧ (token = s.get (R.SDG_MOD_TOKEN_HI_TOKEN ↑m) * 2 ^ 32 + s.get (R.SDG_MOD_TOKEN_LO_TOKEN ↑m)) ∧ ((s.modulator ↑m).sending = true) ∧ ((s.modulator ↑m).falling = false) ∧ (99200 ≤ (s.modulator ↑m).sent)) ∧
    (∃ (s : State) (leg : Fin 16384) (p : Probe) (l : Listener) (mine : List SdgEvent), (s.probeOf ↑leg = some p) ∧ (p.st = ProbeState.collect) ∧ (p.window + 310 ≤ s.mxm.next) ∧ (l.leg ≠ p.leg) ∧ (s.confOf l.leg = p.conf) ∧ (l.heard = true) ∧ (mine = List.filter (fun e => e.det == l.det && decide (p.window ≤ e.at_)) s.sdg.events)) :=
  ⟨⟨on [(R.SDG_CTRL_ENABLE, 1)], 0, true, _, rfl⟩,
   ⟨{ on [(R.SDG_CTRL_ENABLE, 1)] with sdg := { State.reset.sdg with probes := [⟨0, 0, .queued, 0, 0, 0, 0⟩] } }, 0, 1, 0, 0, [], ⟨0, 0, .queued, 0, 0, 0, 0⟩, [], by decide +kernel, by decide +kernel, by decide +kernel, by decide +kernel, by decide +kernel, by decide +kernel, by decide +kernel⟩,
   ⟨on [(R.SDG_CTRL_ENABLE, 1), (R.SDG_MOD_CTRL_EN 0, 1)], .control 0, 0, 0x7FFFFFFF, 0x7FFFFFFF, ⟨⟨by decide +kernel, by decide +kernel⟩, by unfold Crosses; decide +kernel⟩, by decide +kernel, by decide +kernel, by decide +kernel, by decide +kernel⟩,
   ⟨{ on [(R.SDG_CTRL_ENABLE, 1)] with sdg := { State.reset.sdg with mods := [(0, { Modulator.init with armed := some 0 })] } }, 0, _, _, rfl, rfl, by decide +kernel, by decide +kernel⟩,
   ⟨{ on [(R.SDG_CTRL_ENABLE, 1)] with sdg := { State.reset.sdg with mods := [(0, { Modulator.init with sending := true, sent := 99200 })] } }, 0, _, _, rfl, rfl, by decide +kernel, by decide +kernel, by decide +kernel⟩,
   ⟨{ State.reset with sdg := { State.reset.sdg with probes := [⟨0, 65535, .collect, 0, 0, 0, 0⟩] }, mxm := { State.reset.mxm with next := 310 } }, 0, ⟨0, 65535, .collect, 0, 0, 0, 0⟩, ⟨1, 0, true⟩, _, by decide +kernel, by decide +kernel, by decide +kernel, by decide +kernel, by decide +kernel, by decide +kernel, rfl⟩⟩

/-- The premises of `Obligations.SundogProbesFollowTheirStates` can be met: probeAbort. -/
theorem witness_SundogProbesFollowTheirStates_2 :
    ∃ (s : State) (leg : Fin 16384) (p : Probe), s.probeOf ↑leg = some p :=
  ⟨{ on [(R.SDG_CTRL_ENABLE, 1)] with sdg := { State.reset.sdg with probes := [⟨0, 65535, .collect, 0, 0, 0, 0⟩] } }, 0, ⟨0, 65535, .collect, 0, 0, 0, 0⟩, by decide +kernel⟩

/-- The premises of `Obligations.DetectorsGateLockAndGroup` can be met: detectorConfig, detectorFrame, agcRelease, colocGroupApply. -/
theorem witness_DetectorsGateLockAndGroup :
    (∃ (s : State) (who : Sender) (d : Fin 1024) (src : BitVec 11) (on : Bool), (Serves s who (R.SDG_DET_CFG_SRC ↑d).addr) ∧ (on = false ∨ s.isSet (R.SDG_DET_CFG_EN ↑d) = true ∧ s.get (R.SDG_DET_CFG_SRC ↑d) = src.toNat)) ∧
    (∃ (s : State) (d : Fin 1024) (energy : Nat) (gate : Bool), (s.sdgRuns = true) ∧ (s.isSet (R.SDG_DET_CFG_EN ↑d) = true) ∧ (gate = true ↔ energy ≤ s.get R.SDG_DET_THRESH_CODE * 10 ∧ energy + 20 * s.get R.SDG_FLOOR_MARGIN_DB ≤ (s.detector ↑d).floor) ∧ (20 * s.get R.SDG_FLOOR_MARGIN_DB ≤ (s.detector ↑d).floor)) ∧
    (∃ (s : State) (d : Fin 1024) (k : Nat) (c : Nat), ((s.detector ↑d).frozen = some (k, c)) ∧ (c + 3 * secCycles ≤ s.cycle)) ∧
    (∃ (s : State) (conf : Fin 4096) (a : Nat) (b : Nat), (s.legsOf ↑conf = [a, b]) ∧ (a < b)) :=
  ⟨⟨State.reset, .control 0, 0, 0, false, ⟨⟨by decide +kernel, by decide +kernel⟩, by unfold Crosses; decide +kernel⟩, by decide +kernel⟩,
   ⟨on [(R.SDG_CTRL_ENABLE, 1), (R.SDG_DET_CFG_EN 0, 1)], 0, 0, true, by decide +kernel, by decide +kernel, by decide +kernel, by decide +kernel⟩,
   ⟨{ { State.reset with cycle := 4500000000 } with sdg := { State.reset.sdg with dets := [(0, { Detector.init with frozen := some (0, 0) })] } }, 0, 0, 0, by decide +kernel, by decide +kernel⟩,
   ⟨{ State.reset with objNum := [(objKey 0x401005 1, 0), (objKey 0x401005 2, 0)] }, 0, 1, 2, by decide +kernel, by decide +kernel⟩⟩

/-- The premises of `Obligations.ContextsAndCipherOperations` can be met: cipherRequest, cipherComplete, ctxInit/ctxClear, ctxInitDone. -/
theorem witness_ContextsAndCipherOperations :
    (∃ (s : State) (r : CipherReq) (k : KeySlot) (c : Nat) (g : KeyGen) (gs : List KeyGen) (n : Nat), (k = s.slot r.slot) ∧ (s.cpx.waiting = []) ∧ (s.cipherGone = false) ∧ (s.island 2 = LullState.awake) ∧ (r.user = CipherUser.held) ∧ (s.freeCore = some c) ∧ (s.isSet R.CPX_CTRL_ENABLE = true) ∧ (k.state = SlotState.active ∨ k.state = SlotState.activeTwo) ∧ (k.gens = g :: gs) ∧ (r.enc = true) ∧ (r.kind = CipherKind.trunk ∨ r.kind = CipherKind.xts) ∧ (kindSuits r.kind g.suite = true) ∧ (outLength r g.suite = some n) ∧ (g.decryptOnly = false) ∧ (g.count + 1 < 2 ^ s.get R.CPX_SOFT_EXP_EXP) ∧ (g.count + 1 < 2 ^ 48)) ∧
    (∃ (s : State) (op : Nat) (o : CipherOp) (bs : List Byte) (out : List Byte), (List.find? (fun x => x.id == op) s.cpx.ops = some o) ∧ (s.cpx.waiting = []) ∧ (o.req.user = CipherUser.held) ∧ (o.req.input = some bs) ∧ ((s.slot o.req.slot).state ≠ SlotState.draining) ∧ (∀ (g : KeyGen), g ∈ (s.slot o.req.slot).gens → g.closed = false) ∧ (transform o.gen o bs = some out) ∧ (o.req.kind = CipherKind.trunk ∨ o.req.kind = CipherKind.xts ∨ o.req.enc = true)) ∧
    (∃ (s : State) (who : Sender) (c : Nat) (a : Nat) (code : Nat) (i : Nat × Instr), (Serves s who R.KSL_CMD_OP.addr) ∧ (s.holds kslPort who = true) ∧ (s.isSet R.KSL_RESULT_BUSY = false) ∧ (c = s.kslWord 0 % 2 ^ 21) ∧ (a = s.ctxAddr c) ∧ (1114112 ≤ c ∧ code = St.cmdBad ∨ c < 1114112 ∧ (∃ o, o ∈ s.cpx.ops ∧ o.req.ctx = c ∧ (o.req.kind = CipherKind.srtp ∨ o.req.kind = CipherKind.srtcp)) ∧ code = St.keyBusy) ∧ (i ∈ [(7, Instr.ctxInit who), (8, Instr.ctxClear who)])) ∧
    (∃ (s : State) (who : Sender) (c : Nat) (a : Nat), (Serves s who R.KSL_CMD_OP.addr) ∧ (s.holds kslPort who = true) ∧ (s.isSet R.KSL_RESULT_BUSY = false) ∧ (c = s.kslWord 0 % 2 ^ 21) ∧ (a = s.ctxAddr c) ∧ (c < 1114112) ∧ (∀ (o : CipherOp), o ∈ s.cpx.ops → o.req.ctx ≠ c) ∧ (s.poison = []) ∧ (a + 64 ≤ hbmBytes)) :=
  ⟨⟨withSlot { KeySlot.init with state := .active, gens := [gen 1 7] } (on [(R.CPX_CTRL_ENABLE, 1)]), xtsReq, _, 0, gen 1 7, [], 512, rfl, by decide +kernel, by decide +kernel, by decide +kernel, by decide +kernel, by decide +kernel, by decide +kernel, by decide +kernel, by decide +kernel, by decide +kernel, by decide +kernel, by decide +kernel, by decide +kernel, by decide +kernel, by decide +kernel, by decide +kernel⟩,
   ⟨{ State.reset with cpx := { State.reset.cpx with ops := [⟨1, 0, xtsReq, gen 1 7, none, 0, 0, 512, 0⟩] } }, 1, ⟨1, 0, xtsReq, gen 1 7, none, 0, 0, 512, 0⟩, [], [], by decide +kernel, by decide +kernel, by decide +kernel, by decide +kernel, by decide +kernel, by decide +kernel, by decide +kernel, by decide +kernel⟩,
   ⟨held kslPort (on [(R.KSL_DATA_DATA 0, 1114112)]), .control 0, _, _, St.cmdBad, (7, Instr.ctxInit (.control 0)), ⟨⟨by decide +kernel, by decide +kernel⟩, by unfold Crosses; decide +kernel⟩, by decide +kernel, by decide +kernel, rfl, rfl, by decide +kernel, by decide +kernel⟩,
   ⟨held kslPort (on [(R.KSL_DATA_DATA 0, 1114111)]), .control 0, _, _, ⟨⟨by decide +kernel, by decide +kernel⟩, by unfold Crosses; decide +kernel⟩, by decide +kernel, by decide +kernel, rfl, rfl, by decide +kernel, by decide +kernel, by decide +kernel, by decide +kernel⟩⟩

/-- The premises of `Obligations.KeySlotCommandsFollowTheirTable` can be met: gracePeriodEnd, keyStoreEccError, kslDataWrite, write, erase/zeroize/retireOld, zeroizeAll. -/
theorem witness_KeySlotCommandsFollowTheirTable_1 :
    (∃ (s : State) (slot : Fin 65536) (k : KeySlot) (c : Nat) (g : KeyGen) (o : KeyGen), (k = s.slot ↑slot) ∧ (k.grace = some c) ∧ (c ≤ s.cycle) ∧ (k.gens = [g, o]) ∧ (k.state ≠ SlotState.draining) ∧ (∀ (x : CipherOp), x ∈ s.cpx.ops → x.binds (↑slot) o.num = false)) ∧
    (∃ (s : State) (slot : Fin 65536) (k : KeySlot) (g : KeyGen) (o : KeyGen) (x : KeyGen), (k = s.slot ↑slot) ∧ (k.gens = [g, o]) ∧ (g.num ≠ o.num) ∧ (k.state ≠ SlotState.draining) ∧ (s.slotOps ↑slot = []) ∧ (x = g ∨ x = o)) ∧
    (∃ (s : State) (who : Sender) (i : Option (Fin 32)), (Serves s who (kslWordAddr i)) ∧ (s.holds kslPort who = true)) ∧
    (∃ (s : State) (who : Sender) (n : Nat) (w : List Byte) (k : KeySlot) (suite : Nat) (code : Nat), (Serves s who R.KSL_CMD_OP.addr) ∧ (s.holds kslPort who = true) ∧ (s.isSet R.KSL_RESULT_BUSY = false) ∧ (n = s.kslSlot) ∧ (w = s.kslWindow) ∧ (k = s.slot n) ∧ (suite = BitVec.toNat (w.headD 0)) ∧ (windowOk w = false ∧ code = St.cmdBad ∨ windowOk w = true ∧ suite = 5 ∧ s.isSet R.FUS_STATUS_TRUNK_LOCK = true ∧ code = St.keyPolicy ∨ windowOk w = true ∧ ¬(suite = 5 ∧ s.isSet R.FUS_STATUS_TRUNK_LOCK = true) ∧ (k.state = SlotState.draining ∨ 2 ≤ k.gens.length) ∧ code = St.keyBusy)) ∧
    (∃ (s : State) (who : Sender) (n : Nat) (w : List Byte) (k : KeySlot) (suite : Nat) (c : Nat × Instr), (Serves s who R.KSL_CMD_OP.addr) ∧ (s.holds kslPort who = true) ∧ (s.isSet R.KSL_RESULT_BUSY = false) ∧ (n = s.kslSlot) ∧ (w = s.kslWindow) ∧ (k = s.slot n) ∧ (suite = BitVec.toNat (w.headD 0)) ∧ (k.state = SlotState.empty) ∧ (c ∈ [(2, Instr.erase who), (3, Instr.zeroize who), (5, Instr.retireOld who)]) ∧ (c.fst = 5 → k.gens = [])) ∧
    (∃ (s : State) (who : Sender) (n : Nat) (w : List Byte) (k : KeySlot) (suite : Nat), (Serves s who R.KSL_CMD_OP.addr) ∧ (s.holds kslPort who = true) ∧ (s.isSet R.KSL_RESULT_BUSY = false) ∧ (n = s.kslSlot) ∧ (w = s.kslWindow) ∧ (k = s.slot n) ∧ (suite = BitVec.toNat (w.headD 0)) ∧ (s.cpx.ops = []) ∧ (s.cpx.waiting = []) ∧ (∀ (m : Nat) (x : GulToken), (s.slot m).erasing ≠ EraseBy.gulter x)) :=
  ⟨⟨withSlot { KeySlot.init with state := .activeTwo, gens := [gen 2 1, gen 1 1], grace := some 0 }, 0, _, 0, gen 2 1, gen 1 1, rfl, by decide +kernel, by decide +kernel, by decide +kernel, by decide +kernel, by decide +kernel⟩,
   ⟨withSlot { KeySlot.init with state := .activeTwo, gens := [gen 2 1, gen 1 1] }, 0, _, gen 2 1, gen 1 1, gen 1 1, rfl, by decide +kernel, by decide +kernel, by decide +kernel, by decide +kernel, by decide +kernel⟩,
   ⟨held kslPort State.reset, .control 0, some 31, ⟨⟨by decide +kernel, by decide +kernel⟩, by unfold Crosses; decide +kernel⟩, by decide +kernel⟩,
   ⟨held kslPort State.reset, .control 0, _, _, _, _, St.cmdBad, ⟨⟨by decide +kernel, by decide +kernel⟩, by unfold Crosses; decide +kernel⟩, by decide +kernel, by decide +kernel, rfl, rfl, rfl, rfl, by decide +kernel⟩,
   ⟨held kslPort State.reset, .control 0, _, _, _, _, (2, Instr.erase (.control 0)), ⟨⟨by decide +kernel, by decide +kernel⟩, by unfold Crosses; decide +kernel⟩, by decide +kernel, by decide +kernel, rfl, rfl, rfl, rfl, by decide +kernel, by decide +kernel, by decide +kernel⟩,
   ⟨held kslPort State.reset, .control 0, _, _, _, _, ⟨⟨by decide +kernel, by decide +kernel⟩, by unfold Crosses; decide +kernel⟩, by decide +kernel, by decide +kernel, rfl, rfl, rfl, rfl, by decide +kernel, by decide +kernel, fun _ _ h => by cases h⟩⟩

/-- The premises of `Obligations.KeySlotCommandsFollowTheirTable` can be met: kslStatus, kslCommandDone, writeTaken, eraseDone. -/
theorem witness_KeySlotCommandsFollowTheirTable_2 :
    (∃ (s : State) (who : Sender) (n : Nat) (w : List Byte) (k : KeySlot) (suite : Nat) (g : KeyGen) (gs : List KeyGen), (Serves s who R.KSL_CMD_OP.addr) ∧ (s.holds kslPort who = true) ∧ (s.isSet R.KSL_RESULT_BUSY = false) ∧ (n = s.kslSlot) ∧ (w = s.kslWindow) ∧ (k = s.slot n) ∧ (suite = BitVec.toNat (w.headD 0)) ∧ (k.state = SlotState.active) ∧ (k.gens = g :: gs)) ∧
    (∃ (s : State) (op : Nat) (code : Nat), s.cpx.ksl = some (op, some code)) ∧
    (∃ (s : State) (who : Sender) (n : Nat) (w : List Byte) (k : KeySlot) (suite : Nat), (Serves s who R.KSL_CMD_OP.addr) ∧ (s.holds kslPort who = true) ∧ (s.isSet R.KSL_RESULT_BUSY = false) ∧ (n = s.kslSlot) ∧ (w = s.kslWindow) ∧ (k = s.slot n) ∧ (suite = BitVec.toNat (w.headD 0)) ∧ (windowOk w = true) ∧ (¬(suite = 5 ∧ s.isSet R.FUS_STATUS_TRUNK_LOCK = true)) ∧ (k.state ≠ SlotState.draining) ∧ (k.gens.length < 2)) ∧
    (∃ (s : State) (who : Sender) (n : Nat) (w : List Byte) (k : KeySlot) (suite : Nat), (Serves s who R.KSL_CMD_OP.addr) ∧ (s.holds kslPort who = true) ∧ (s.isSet R.KSL_RESULT_BUSY = false) ∧ (n = s.kslSlot) ∧ (w = s.kslWindow) ∧ (k = s.slot n) ∧ (suite = BitVec.toNat (w.headD 0)) ∧ (k.state ≠ SlotState.empty) ∧ (k.state ≠ SlotState.draining) ∧ (k.gens.length = 1) ∧ (s.slotOps n = [])) :=
  ⟨⟨held kslPort (withSlot { KeySlot.init with state := .active, gens := [gen 1 1] }), .control 0, _, _, _, _, gen 1 1, [], ⟨⟨by decide +kernel, by decide +kernel⟩, by unfold Crosses; decide +kernel⟩, by decide +kernel, by decide +kernel, rfl, rfl, rfl, rfl, by decide +kernel, by decide +kernel⟩,
   ⟨{ State.reset with cpx := { State.reset.cpx with ksl := some (1, some 0) } }, 1, 0, by decide +kernel⟩,
   ⟨held kslPort (on [(R.KSL_DATA_DATA 0, 1)]), .control 0, _, _, _, _, ⟨⟨by decide +kernel, by decide +kernel⟩, by unfold Crosses; decide +kernel⟩, by decide +kernel, by decide +kernel, rfl, rfl, rfl, rfl, by decide +kernel, by decide +kernel, by decide +kernel, by decide +kernel⟩,
   ⟨held kslPort (withSlot { KeySlot.init with state := .active, gens := [gen 1 1] }), .control 0, _, _, _, _, ⟨⟨by decide +kernel, by decide +kernel⟩, by unfold Crosses; decide +kernel⟩, by decide +kernel, by decide +kernel, rfl, rfl, rfl, rfl, by decide +kernel, by decide +kernel, by decide +kernel, by decide +kernel⟩⟩

/-- The premises of `Obligations.PublicKeysAndRandomSource` can be met: verify, sign, keygen, ecdh, deriveToSlot, pkaCommandDone. -/
theorem witness_PublicKeysAndRandomSource_1 :
    (∃ (s : State) (who : Sender), (Serves s who R.CPX_PKA_CMD_OP.addr) ∧ (s.holds pkaPort who = true) ∧ (s.isSet R.CPX_PKA_RESULT_BUSY = false)) ∧
    (∃ (s : State) (who : Sender) (reg : Fin 16) (d : Nat), (Serves s who R.CPX_PKA_CMD_OP.addr) ∧ (s.holds pkaPort who = true) ∧ (s.isSet R.CPX_PKA_RESULT_BUSY = false) ∧ (SMap.get 0 s.cpx.priv ↑reg = d) ∧ (0 < d) ∧ (d < P256.n)) ∧
    (∃ (s : State) (who : Sender), (Serves s who R.CPX_PKA_CMD_OP.addr) ∧ (s.holds pkaPort who = true) ∧ (s.isSet R.CPX_PKA_RESULT_BUSY = false) ∧ (s.cpx.rng ≠ RngState.ready)) ∧
    (∃ (s : State) (who : Sender) (reg : Fin 16) (d : Nat) (x : Nat) (y : Nat), (Serves s who R.CPX_PKA_CMD_OP.addr) ∧ (s.holds pkaPort who = true) ∧ (s.isSet R.CPX_PKA_RESULT_BUSY = false) ∧ (SMap.get 0 s.cpx.priv ↑reg = d) ∧ (d = 0 ∨ P256.n ≤ d ∨ P256.onCurve x y = false)) ∧
    (∃ (s : State) (who : Sender) (slot : Fin 65536) (suite : Nat) (salt : List Byte) (info : List Byte) (x : Nat) (k : KeySlot) (kl : Nat), (Serves s who R.CPX_PKA_CMD_OP.addr) ∧ (s.holds pkaPort who = true) ∧ (s.isSet R.CPX_PKA_RESULT_BUSY = false) ∧ (s.cpx.heldX = some x) ∧ (k = s.slot ↑slot) ∧ (kl = if suite = 6 then 32 else 16) ∧ (suite = 6 ∨ suite = 5 ∧ s.isSet R.FUS_STATUS_TRUNK_LOCK = false) ∧ (salt.length = 32) ∧ (info.length ≤ 64) ∧ (k.state ≠ SlotState.draining) ∧ (k.gens.length < 2)) ∧
    (∃ (s : State) (j : PkaJob), s.cpx.pka = some j) :=
  ⟨⟨held pkaPort State.reset, .control 0, ⟨⟨by decide +kernel, by decide +kernel⟩, by unfold Crosses; decide +kernel⟩, by decide +kernel, by decide +kernel⟩,
   ⟨{ held pkaPort State.reset with cpx := { State.reset.cpx with priv := [(0, 1)] } }, .control 0, 0, 1, ⟨⟨by decide +kernel, by decide +kernel⟩, by unfold Crosses; decide +kernel⟩, by decide +kernel, by decide +kernel, by decide +kernel, by decide +kernel, by decide +kernel⟩,
   ⟨held pkaPort State.reset, .control 0, ⟨⟨by decide +kernel, by decide +kernel⟩, by unfold Crosses; decide +kernel⟩, by decide +kernel, by decide +kernel, by decide +kernel⟩,
   ⟨held pkaPort State.reset, .control 0, 0, 0, 0, 0, ⟨⟨by decide +kernel, by decide +kernel⟩, by unfold Crosses; decide +kernel⟩, by decide +kernel, by decide +kernel, by decide +kernel, by decide +kernel⟩,
   ⟨{ held pkaPort State.reset with cpx := { State.reset.cpx with heldX := some 1 } }, .control 0, 0, 6, List.replicate 32 0, [], 1, _, _, ⟨⟨by decide +kernel, by decide +kernel⟩, by unfold Crosses; decide +kernel⟩, by decide +kernel, by decide +kernel, by decide +kernel, rfl, rfl, by decide +kernel, by decide +kernel, by decide +kernel, by decide +kernel, by decide +kernel⟩,
   ⟨{ State.reset with cpx := { State.reset.cpx with pka := some ⟨0, []⟩ } }, ⟨0, []⟩, by decide +kernel⟩⟩

/-- The premises of `Obligations.PublicKeysAndRandomSource` can be met: rngDataRead, rngReady, rngHealthFail, keygenReady, ecdhDone. -/
theorem witness_PublicKeysAndRandomSource_2 :
    (∃ (s : State) (who : Sender), (Serves s who R.CPX_RNG_DATA_DATA.addr) ∧ (s.cpx.rng = RngState.ready)) ∧
    (∃ (s : State), s.cpx.rng = RngState.starting) ∧
    (∃ (s : State), s.cpx.rng = RngState.ready ∨ s.cpx.rng = RngState.starting) ∧
    (∃ (s : State) (who : Sender), (Serves s who R.CPX_PKA_CMD_OP.addr) ∧ (s.holds pkaPort who = true) ∧ (s.isSet R.CPX_PKA_RESULT_BUSY = false) ∧ (s.cpx.rng = RngState.ready)) ∧
    (∃ (s : State) (who : Sender) (reg : Fin 16) (d : Nat) (x : Nat) (y : Nat) (sx : Nat) (sy : Nat), (Serves s who R.CPX_PKA_CMD_OP.addr) ∧ (s.holds pkaPort who = true) ∧ (s.isSet R.CPX_PKA_RESULT_BUSY = false) ∧ (SMap.get 0 s.cpx.priv ↑reg = d) ∧ (0 < d) ∧ (d < P256.n) ∧ (P256.onCurve x y = true) ∧ (P256.mul d (some (x, y)) 256 = some (sx, sy))) :=
  ⟨⟨{ State.reset with cpx := { State.reset.cpx with rng := .ready } }, .control 0, ⟨⟨by decide +kernel, by decide +kernel⟩, by unfold Crosses; decide +kernel⟩, by decide +kernel⟩,
   ⟨State.reset, by decide +kernel⟩,
   ⟨State.reset, by decide +kernel⟩,
   ⟨{ held pkaPort State.reset with cpx := { State.reset.cpx with rng := .ready } }, .control 0, ⟨⟨by decide +kernel, by decide +kernel⟩, by unfold Crosses; decide +kernel⟩, by decide +kernel, by decide +kernel, by decide +kernel⟩,
   ⟨{ held pkaPort State.reset with cpx := { State.reset.cpx with priv := [(0, 1)] } }, .control 0, 0, 1, 0x6b17d1f2e12c4247f8bce6e563a440f277037d812deb33a0f4a13945d898c296, 0x4fe342e2fe1a7f9b8ee7eb4a7c0f9e162bce33576b315ececbb6406837bf51f5, 0x6b17d1f2e12c4247f8bce6e563a440f277037d812deb33a0f4a13945d898c296, 0x4fe342e2fe1a7f9b8ee7eb4a7c0f9e162bce33576b315ececbb6406837bf51f5, ⟨⟨by decide +kernel, by decide +kernel⟩, by unfold Crosses; decide +kernel⟩, by decide +kernel, by decide +kernel, by decide +kernel, by decide +kernel, by decide +kernel, by decide +kernel, by decide +kernel⟩⟩

/-- The premises of `Obligations.TrunksKeyThemselves` can be met: trunkEnable, trunkDisable, helloResend, hello/helloReply, rekeyStart, trunkEnableWaits. -/
theorem witness_TrunksKeyThemselves_1 :
    (∃ (s : State) (who : Sender) (n : Fin 256), (Serves s who (R.TRK_Tt_CTRL_EN ↑n).addr) ∧ (s.isSet (R.TRK_Tt_CTRL_EN ↑n) = false) ∧ (∀ (u : Nat), u < 256 → u ≠ ↑n → s.isSet (R.TRK_Tt_CTRL_EN u) = true → s.peerOf u ≠ s.peerOf ↑n) ∧ (s.isSet R.TRK_CTRL_ENABLE = true)) ∧
    (∃ (s : State) (who : Sender) (n : Fin 256), Serves s who (R.TRK_Tt_CTRL_EN ↑n).addr) ∧
    (∃ (s : State) (n : Fin 256), ((s.trunk ↑n).st = TrunkState.handshake) ∧ ((s.trunk ↑n).helloAt + secCycles ≤ s.cycle)) ∧
    (∃ (s : State) (u : State) (id : Nat) (ty : Nat) (f : TrunkFrame) (n : Nat) (signed : List Byte) (c : Instr), (s.takeFrame id ty = (u, some f)) ∧ (n = f.trunk) ∧ (n < 256) ∧ ((ty, c) ∈ [(8, Instr.hello id), (9, Instr.helloReply id)]) ∧ (signed = List.take (f.pkt.payLen - 64) (slice f.pkt.frame f.pkt.pay (f.pkt.pay + f.pkt.payLen))) ∧ (f.pkt.pay + f.pkt.payLen ≤ f.pkt.frame.length) ∧ ((u.trunk n).st = TrunkState.handshake) ∧ (u.helloOk n signed f.body = false ∨ ty = 8 ∧ u.module < u.peerOf n ∨ ty = 9 ∧ u.peerOf n < u.module)) ∧
    (∃ (s : State) (n : Fin 256) (k : Trunk) (send : Nat) (recv : Nat), (k = s.trunk ↑n) ∧ (send = s.get (R.TRK_Tt_SLOTS_SEND ↑n)) ∧ (recv = s.get (R.TRK_Tt_SLOTS_RECV ↑n)) ∧ (k.st.carries = true) ∧ (k.rekeying = false) ∧ ((s.slot send).gens.length < 2) ∧ ((s.slot recv).gens.length < 2) ∧ ((∃ g, (s.slot send).cur? = some g ∧ g.rekey = true) ∨ k.keyAt + s.get R.TRK_REKEY_S_SECONDS * secCycles ≤ s.cycle)) ∧
    (∃ (s : State) (who : Sender) (n : Fin 256), (Serves s who (R.TRK_Tt_CTRL_EN ↑n).addr) ∧ (s.isSet (R.TRK_Tt_CTRL_EN ↑n) = false) ∧ (∀ (u : Nat), u < 256 → u ≠ ↑n → s.isSet (R.TRK_Tt_CTRL_EN u) = true → s.peerOf u ≠ s.peerOf ↑n) ∧ (s.isSet R.TRK_CTRL_ENABLE = true) ∧ (s.cpx.rng ≠ RngState.ready) ∧ ((s.trunk ↑n).st = TrunkState.disabled)) :=
  ⟨⟨trunksOff, .control 0, 0, ⟨⟨by decide +kernel, by decide +kernel⟩, by unfold Crosses; decide +kernel⟩, by decide +kernel, fun u hu _ h => absurd h (by rw [trunks_off u hu]; decide), by decide +kernel⟩,
   ⟨State.reset, .control 0, 0, ⟨⟨by decide +kernel, by decide +kernel⟩, by unfold Crosses; decide +kernel⟩⟩,
   ⟨{ State.reset with cycle := 1500000000, trk := { State.reset.trk with trunks := [(0, { Trunk.init with st := .handshake })] } }, 0, by decide +kernel, by decide +kernel⟩,
   ⟨withTrunk ({ Trunk.init with st := .handshake }) 8 (List.replicate 227 0) (on [(R.TRK_Tt_CTRL_PEER 0, 1)]), ((withTrunk ({ Trunk.init with st := .handshake }) 8 (List.replicate 227 0) (on [(R.TRK_Tt_CTRL_PEER 0, 1)])).takeFrame 1 8).1, 1, 8, frame 8 (List.replicate 227 0), _, _, .hello 1, by decide +kernel, rfl, by decide +kernel, by decide +kernel, rfl, by decide +kernel, by decide +kernel, Or.inr (Or.inl (by decide +kernel))⟩,
   ⟨{ on [(R.TRK_REKEY_S_SECONDS, 60)] with cycle := 90000000000, trk := { State.reset.trk with trunks := [(0, trunkUp)] } }, 0, _, _, _, rfl, rfl, rfl, by decide +kernel, by decide +kernel, by decide +kernel, by decide +kernel, by decide +kernel⟩,
   ⟨trunksOff, .control 0, 0, ⟨⟨by decide +kernel, by decide +kernel⟩, by unfold Crosses; decide +kernel⟩, by decide +kernel, fun u hu _ h => absurd h (by rw [trunks_off u hu]; decide), by decide +kernel, by decide +kernel, by decide +kernel⟩⟩

/-- The premises of `Obligations.TrunksKeyThemselves` can be met: rekeyDone. -/
theorem witness_TrunksKeyThemselves_2 :
    ∃ (s : State) (u : State) (id : Nat) (n : Nat) (f : TrunkFrame) (i : Nat × Nat) (q : Nat × Nat) (d : Nat) (x : Nat) (y : Nat) (recv : Nat) (signed : List Byte), (s.takeFrame id 10 = (u, some f)) ∧ (n = f.trunk) ∧ (n < 256) ∧ (f.body.length = 162) ∧ ((u.trunk n).peerId = some i) ∧ (be f.body 0 1 = if u.isSet R.TRK_SUITE_GCM128 = true then 5 else 6) ∧ (signed = patch (List.take ((slice f.pkt.frame f.pkt.pay (f.pkt.pay + 20)).length + 98) (slice f.pkt.frame f.pkt.pay (f.pkt.pay + 20) ++ f.body)) 12 (List.replicate 8 0)) ∧ (P256.verify (osToNat (sha256 signed)) i.fst i.snd (be f.body 98 32) (be f.body 130 32) = true) ∧ ((u.trunk n).rekeying = true) ∧ ((u.trunk n).hs.d = some d) ∧ (q = (be f.body 2 32, be f.body 34 32)) ∧ (P256.mul d (some q) 256 = some (x, y)) ∧ (u.isSet R.TRK_SUITE_GCM128 = true → u.isSet R.FUS_STATUS_TRUNK_LOCK = false) ∧ (recv = u.get (R.TRK_Tt_SLOTS_RECV n)) ∧ (u.get (R.TRK_Tt_SLOTS_SEND n) ≠ recv) ∧ (∀ (k : Nat), k ∈ [u.get (R.TRK_Tt_SLOTS_SEND n), recv] → (u.slot k).state ≠ SlotState.draining ∧ (u.slot k).gens.length < 2) :=
  ⟨withTrunk (trunkRekey) 10 (rekeyBody) (on [(R.TRK_Tt_SLOTS_RECV 0, 1)]), ((withTrunk (trunkRekey) 10 (rekeyBody) (on [(R.TRK_Tt_SLOTS_RECV 0, 1)])).takeFrame 1 10).1, 1, _, frame 10 (rekeyBody), ((0x726f3d6dee993963eaabef85f5a3c8468b6999988fb010ce51677d33bd7dcdfa, 0xeae135ba1a7999b8cfc065655156d95bead7d2666a6695d90a29c9d00ce3226a) : Nat × Nat), _, 1, 0x6b17d1f2e12c4247f8bce6e563a440f277037d812deb33a0f4a13945d898c296, 0x4fe342e2fe1a7f9b8ee7eb4a7c0f9e162bce33576b315ececbb6406837bf51f5, _, _, by decide +kernel, rfl, by decide +kernel, by decide +kernel, by decide +kernel, by decide +kernel, rfl, by decide +kernel, by decide +kernel, by decide +kernel, rfl, by decide +kernel, by decide +kernel, rfl, by decide +kernel, by decide +kernel⟩

/-- The premises of `Obligations.TrunkFramesAreAuthenticatedOnce` can be met: media/audio/reliable/ack/heartbeat/probe/probeReply/rekey/control, ackSend, retransmitTimeout, mediaMapped, audioPlayed, audioSent. -/
theorem witness_TrunkFramesAreAuthenticatedOnce_1 :
    (∃ (s : State) (id : Nat) (src : Nat) (ty : Nat) (c : Instr) (p : RxPacket) (n : Nat) (f : List Byte) (res : CipherResult) (w : CounterWindow) (ctr : Nat), ((ty, c) ∈ [(1, Instr.media id), (2, Instr.audio (TrunkAudio.received id src)), (3, Instr.reliable id), (4, Instr.ack id), (5, Instr.heartbeat id), (6, Instr.probe id), (7, Instr.probeReply id), (10, Instr.rekey id), (11, Instr.control id)]) ∧ (List.find? (fun x => x.fst.id == id) s.trk.frames = some (p, n)) ∧ (p.cell = noCell) ∧ (p.op ≠ 0) ∧ (f = slice p.frame p.pay (p.pay + p.payLen)) ∧ (trunkType f = ty) ∧ (SMap.get none s.cpx.results p.op = some res) ∧ (w = SMap.get CounterWindow.init (s.trunk n).windows (BitVec.toNat (f.getD 1 0) % 2)) ∧ (St.success res.status = false ∧ ctr = R.C_TRK_Tt_AUTH_DROP n ∨ St.success res.status = true ∧ (∃ m, w.top = some m ∧ (be f 12 8 + 127 < m ∨ be f 12 8 ∈ w.seen)) ∧ ctr = R.C_TRK_Tt_REPLAY_DROP n)) ∧
    (∃ (s : State) (n : Fin 256) (k : Trunk), (k = s.trunk ↑n) ∧ (k.rxHeld = []) ∧ (k.st.carries = true) ∧ (k.gap = true ∨ k.unacked = true ∧ k.ackAt + 5 * msCycles ≤ s.cycle)) ∧
    (∃ (s : State) (n : Fin 256) (k : Trunk) (seq : Nat) (b : SentBody), (k = s.trunk ↑n) ∧ (k.tx = [b]) ∧ (b.seq = seq) ∧ (b.sent = true) ∧ (k.st.carries = true) ∧ (b.at_ + b.rto * usCycles ≤ s.cycle)) ∧
    (∃ (s : State) (u : State) (id : Nat) (n : Nat) (a : Nat) (f : TrunkFrame) (e : List Byte) (v : State) (w : State) (ptr : Nat) (stream : Nat) (p : RxPacket) (q : RxPacket), (s.takeFrame id 1 = (u, some f)) ∧ (n = f.trunk) ∧ (a = u.pair R.TRK_CMAP_BASE_LO_ADDR R.TRK_CMAP_BASE_HI_ADDR + (n * 65536 + be f.body 0 2) * 8) ∧ (e = u.bytes a 8) ∧ (BitVec.toNat (e.getD 7 0) % 2 = 1) ∧ (BitVec.toNat (e.getD 2 0) = 2) ∧ (stream = leVal (List.take 2 e)) ∧ (p =   have __src := f.pkt;   { id := u.rly.nextId, port := __src.port, frame := List.drop 2 f.body, len := __src.len, ts := __src.ts, age := __src.age, epoch := __src.epoch, tag := __src.tag, kind := 0, key := __src.key, h0 := __src.h0, entry := cmapEntry e, pay := 0, payLen := (List.drop 2 f.body).length, cell := noCell, udpOk := __src.udpOk, ended := true, plan := RxPlan.media, op := 0, rtp := List.drop 2 f.body, snap := none }) ∧ ((u.withRly fun r => { packets := r.packets ++ [p], nextId := r.nextId + 1, tags := r.tags, copies := r.copies, cache := r.cache, job := r.job, clearPending := r.clearPending, versions := r.versions, down := r.down, excSpent := r.excSpent, excAt := r.excAt, building := r.building, units := r.units, lastSeq := r.lastSeq, lastTask := r.lastTask, auDrop := r.auDrop, selects := r.selects, looped := r.looped }).classify p = (w, q)) ∧ (w.allocCell (Sender.fixed 0) 0 f.pkt.len AllocClass.media true true = (v, AllocOut.cell ptr)) ∧ (∀ (q : RxPacket), q ∈ u.rly.packets → q.id ≠ u.rly.nextId) ∧ (SMap.get [] u.rly.building stream = []) ∧ ((BitVec.toNat ((List.drop 2 f.body).getD 1 0)).testBit 7 = false)) ∧
    (∃ (s : State) (u : State) (id : Nat) (src : Nat) (f : TrunkFrame), (s.takeFrame id 2 = (u, some f)) ∧ (src < 1536) ∧ ((u.source src).fifo.length + 240 ≤ 2048)) ∧
    (∃ (s : State) (n : Nat) (conf : Nat), (n < 256) ∧ (s.mxm.next ≠ 0) ∧ ((s.trunk n).st.carries = true) ∧ (¬s.peerOf n ∈ (s.cascade conf).lost) ∧ (s.templateOk (s.template s.trunkHdrBase n) = true) ∧ (s.isSet R.TRK_CTRL_ENABLE = true) ∧ (s.cpx.waiting = [])) :=
  ⟨⟨{ State.reset with
      trk := { State.reset.trk with frames := [({ pkt with frame := 1 :: List.replicate 19 0, payLen := 20, op := 1 }, 0)] },
      cpx := { State.reset.cpx with results := [(1, some ⟨St.authFail, 0, 0, []⟩)] } }, 1, 0, 1, .media 1, { pkt with frame := 1 :: List.replicate 19 0, payLen := 20, op := 1 }, 0, _, ⟨St.authFail, 0, 0, []⟩, _, R.C_TRK_Tt_AUTH_DROP 0, List.mem_cons_self, by decide +kernel, by decide +kernel, by decide +kernel, rfl, by decide +kernel, by decide +kernel, rfl, by decide +kernel⟩,
   ⟨{ State.reset with cycle := 7500000, trk := { State.reset.trk with trunks := [(0, { trunkUp with unacked := true })] } }, 0, _, rfl, by decide +kernel, by decide +kernel, by decide +kernel⟩,
   ⟨{ State.reset with cycle := 150000, trk := { State.reset.trk with trunks := [(0, { trunkUp with tx := [⟨0, [], true, 0, 100, 0⟩] })] } }, 0, _, _, ⟨0, [], true, 0, 100, 0⟩, rfl, by decide +kernel, rfl, by decide +kernel, by decide +kernel, by decide +kernel⟩,
   ⟨withTrunk (trunkUp) 1 ([0, 0, 0x80, 0x60] ++ List.replicate 10 0) ({ on [(R.BPM_CTRL_ENABLE, 1)] with mem := cells 0 [0, 0, 2, 0, 0, 0, 0, 1] }), ((withTrunk (trunkUp) 1 ([0, 0, 0x80, 0x60] ++ List.replicate 10 0) ({ on [(R.BPM_CTRL_ENABLE, 1)] with mem := cells 0 [0, 0, 2, 0, 0, 0, 0, 1] })).takeFrame 1 1).1, 1, _, _, frame 1 ([0, 0, 0x80, 0x60] ++ List.replicate 10 0), _, _, _, 0x10000000000, _, _, _, by decide +kernel, rfl, rfl, rfl, by decide +kernel, by decide +kernel, rfl, rfl, pair_eta _, pair_of (by decide +kernel), by decide +kernel, by decide +kernel, by decide +kernel⟩,
   ⟨withTrunk (trunkUp) 2 (List.replicate 968 0) ({ State.reset with mxm := { State.reset.mxm with sources := [(0, { MixSource.init with mode := .priming })] } }), ((withTrunk (trunkUp) 2 (List.replicate 968 0) ({ State.reset with mxm := { State.reset.mxm with sources := [(0, { MixSource.init with mode := .priming })] } })).takeFrame 1 2).1, 1, 0, frame 2 (List.replicate 968 0), by decide +kernel, by decide +kernel, by decide +kernel⟩,
   ⟨{ on [(R.TRK_CTRL_ENABLE, 1)] with mxm := { State.reset.mxm with next := 1 }, trk := { State.reset.trk with trunks := [(0, trunkUp)] }, mem := [(0, 42)] }, 0, 0, by decide +kernel, by decide +kernel, by decide +kernel, by decide +kernel, by decide +kernel, by decide +kernel, by decide +kernel⟩⟩

/-- The premises of `Obligations.TrunkFramesAreAuthenticatedOnce` can be met: reliableInOrder, reliableAhead, ackTaken, ackOfGap, controlTaken. -/
theorem witness_TrunkFramesAreAuthenticatedOnce_2 :
    (∃ (s : State) (u : State) (id : Nat) (n : Nat) (seq : Nat) (f : TrunkFrame) (k : Trunk) (body : List Byte), (s.takeFrame id 3 = (u, some f)) ∧ (n = f.trunk) ∧ (n < 256) ∧ (k = u.trunk n) ∧ (seq = be f.body 0 4) ∧ (body = List.drop 4 f.body) ∧ (k.rxNext < 2 ^ 32) ∧ (k.st.carries = true) ∧ (k.rxHeld = []) ∧ (k.gap = false) ∧ (body.length ≤ u.get (R.TRK_Tt_WIN_WIN_MIB n) * 2 ^ 20) ∧ (seq = k.rxNext) ∧ (0 < body.length) ∧ (body.length ≤ 64) ∧ (1 ≤ be body 0 1) ∧ (be body 0 1 ≤ 9) ∧ (u.queueRoom (16 + n) 1 = true)) ∧
    (∃ (s : State) (u : State) (id : Nat) (n : Nat) (seq : Nat) (f : TrunkFrame) (k : Trunk) (body : List Byte) (d : Nat), (s.takeFrame id 3 = (u, some f)) ∧ (n = f.trunk) ∧ (n < 256) ∧ (k = u.trunk n) ∧ (seq = be f.body 0 4) ∧ (body = List.drop 4 f.body) ∧ (k.rxNext < 2 ^ 32) ∧ (k.st.carries = true) ∧ (k.rxHeld = []) ∧ (k.gap = false) ∧ (body.length ≤ u.get (R.TRK_Tt_WIN_WIN_MIB n) * 2 ^ 20) ∧ (0 < d) ∧ (d < 2 ^ 31) ∧ (seq = (k.rxNext + d) % 2 ^ 32)) ∧
    (∃ (s : State) (u : State) (id : Nat) (n : Nat) (cum : Nat) (sack : Nat) (f : TrunkFrame) (k : Trunk), (s.takeFrame id 4 = (u, some f)) ∧ (n = f.trunk) ∧ (n < 256) ∧ (k = u.trunk n) ∧ (cum = be f.body 0 4) ∧ (sack = be f.body 4 8) ∧ (k.st.carries = true) ∧ (∀ (b : SentBody), b ∈ k.tx → b.sent = true) ∧ (sack = 0)) ∧
    (∃ (s : State) (u : State) (id : Nat) (n : Nat) (cum : Nat) (sack : Nat) (f : TrunkFrame) (k : Trunk) (b : SentBody), (s.takeFrame id 4 = (u, some f)) ∧ (n = f.trunk) ∧ (n < 256) ∧ (k = u.trunk n) ∧ (cum = be f.body 0 4) ∧ (sack = be f.body 4 8) ∧ (k.st.carries = true) ∧ (∀ (b : SentBody), b ∈ k.tx → b.sent = true) ∧ (k.tx = [b]) ∧ (b.later < 3) ∧ (b.seq = (cum + 1) % 2 ^ 32) ∧ (sack = 14)) ∧
    (∃ (s : State) (u : State) (id : Nat) (f : TrunkFrame), (s.takeFrame id 11 = (u, some f)) ∧ (1 ≤ be f.body 0 1) ∧ (be f.body 0 1 ≤ 9)) :=
  ⟨⟨withTrunk (trunkUp) 3 ([0, 0, 0, 0, 7]) (on [(R.TRK_Tt_WIN_WIN_MIB 0, 1), (R.BPM_Qq_CFG_ENABLE 16, 1), (R.BPM_Qq_DEPTH_WORDS 16, 256)]), ((withTrunk (trunkUp) 3 ([0, 0, 0, 0, 7]) (on [(R.TRK_Tt_WIN_WIN_MIB 0, 1), (R.BPM_Qq_CFG_ENABLE 16, 1), (R.BPM_Qq_DEPTH_WORDS 16, 256)])).takeFrame 1 3).1, 1, _, _, frame 3 ([0, 0, 0, 0, 7]), _, _, by decide +kernel, rfl, by decide +kernel, rfl, rfl, rfl, by decide +kernel, by decide +kernel, by decide +kernel, by decide +kernel, by decide +kernel, by decide +kernel, by decide +kernel, by decide +kernel, by decide +kernel, by decide +kernel, by decide +kernel⟩,
   ⟨withTrunk (trunkUp) 3 ([0, 0, 0, 1, 7]) (on [(R.TRK_Tt_WIN_WIN_MIB 0, 1)]), ((withTrunk (trunkUp) 3 ([0, 0, 0, 1, 7]) (on [(R.TRK_Tt_WIN_WIN_MIB 0, 1)])).takeFrame 1 3).1, 1, _, _, frame 3 ([0, 0, 0, 1, 7]), _, _, 1, by decide +kernel, rfl, by decide +kernel, rfl, rfl, rfl, by decide +kernel, by decide +kernel, by decide +kernel, by decide +kernel, by decide +kernel, by decide +kernel, by decide +kernel, by decide +kernel⟩,
   ⟨withTrunk (trunkUp) 4 (List.replicate 12 0) (State.reset), ((withTrunk (trunkUp) 4 (List.replicate 12 0) (State.reset)).takeFrame 1 4).1, 1, _, _, _, frame 4 (List.replicate 12 0), _, by decide +kernel, rfl, by decide +kernel, rfl, rfl, rfl, by decide +kernel, by decide +kernel, by decide +kernel⟩,
   ⟨withTrunk ({ trunkUp with tx := [⟨1, [], true, 0, 100, 0⟩] }) 4 (List.replicate 11 0 ++ [14]) (State.reset), ((withTrunk ({ trunkUp with tx := [⟨1, [], true, 0, 100, 0⟩] }) 4 (List.replicate 11 0 ++ [14]) (State.reset)).takeFrame 1 4).1, 1, _, _, _, frame 4 (List.replicate 11 0 ++ [14]), _, ⟨1, [], true, 0, 100, 0⟩, by decide +kernel, rfl, by decide +kernel, rfl, rfl, rfl, by decide +kernel, by decide +kernel, by decide +kernel, by decide +kernel, by decide +kernel, by decide +kernel⟩,
   ⟨withTrunk (trunkUp) 11 ([9]) (State.reset), ((withTrunk (trunkUp) 11 ([9]) (State.reset)).takeFrame 1 11).1, 1, frame 11 ([9]), by decide +kernel, by decide +kernel, by decide +kernel⟩⟩

/-- The premises of `Obligations.TrunksFollowTheirHeartbeats` can be met: heartbeatSend, heartbeatMiss, probeTimeout, heartbeatUp, heartbeatFirst, heartbeatThird. -/
theorem witness_TrunksFollowTheirHeartbeats_1 :
    (∃ (s : State) (n : Fin 256) (k : Trunk), (k = s.trunk ↑n) ∧ (k.st ≠ TrunkState.disabled) ∧ (k.st ≠ TrunkState.handshake) ∧ (k.hbAt + 20 * msCycles ≤ s.cycle)) ∧
    (∃ (s : State) (n : Fin 256) (k : Trunk), (k = s.trunk ↑n) ∧ (k.missFrom + 20 * msCycles ≤ s.cycle) ∧ (k.st = TrunkState.up) ∧ (s.get (R.TRK_Tt_STAT_MISSES ↑n) < 4)) ∧
    (∃ (s : State) (n : Fin 256) (k : Trunk), (k = s.trunk ↑n) ∧ (k.probeAt + 50 * msCycles ≤ s.cycle) ∧ (k.st = TrunkState.probe2)) ∧
    (∃ (s : State) (u : State) (id : Nat) (n : Nat) (seq : Nat) (echo : Nat) (f : TrunkFrame) (k : Trunk), (s.takeFrame id 5 = (u, some f)) ∧ (n = f.trunk) ∧ (n < 256) ∧ (k = u.trunk n) ∧ (seq = be f.body 0 4) ∧ (echo = be f.body 4 4) ∧ (k.st = TrunkState.up ∧ f.flags % 4 / 2 = 0 ∨ k.st = TrunkState.probe1 ∨ k.st = TrunkState.probe2)) ∧
    (∃ (s : State) (u : State) (id : Nat) (n : Nat) (seq : Nat) (echo : Nat) (f : TrunkFrame) (k : Trunk), (s.takeFrame id 5 = (u, some f)) ∧ (n = f.trunk) ∧ (n < 256) ∧ (k = u.trunk n) ∧ (seq = be f.body 0 4) ∧ (echo = be f.body 4 4) ∧ (k.st = TrunkState.down) ∧ (k.count = 0)) ∧
    (∃ (s : State) (u : State) (id : Nat) (n : Nat) (seq : Nat) (echo : Nat) (f : TrunkFrame) (k : Trunk) (c : Nat), (s.takeFrame id 5 = (u, some f)) ∧ (n = f.trunk) ∧ (n < 256) ∧ (k = u.trunk n) ∧ (seq = be f.body 0 4) ∧ (echo = be f.body 4 4) ∧ (k.st = TrunkState.healing) ∧ (k.hbSent.find? echo = some c) ∧ ((echo + 2 ^ 32 - k.downSeq) % 2 ^ 32 < 2 ^ 31) ∧ (seq = (k.counted + 1) % 2 ^ 32) ∧ (k.count = 2) ∧ (0 < u.get (R.TRK_Tt_WIN_WIN_MIB n)) ∧ (u.trk.confs = [])) :=
  ⟨⟨{ State.reset with cycle := 30000000, trk := { State.reset.trk with trunks := [(0, trunkUp)] } }, 0, _, rfl, by decide +kernel, by decide +kernel, by decide +kernel⟩,
   ⟨{ State.reset with cycle := 30000000, trk := { State.reset.trk with trunks := [(0, trunkUp)] } }, 0, _, rfl, by decide +kernel, by decide +kernel, by decide +kernel⟩,
   ⟨{ State.reset with cycle := 75000000, trk := { State.reset.trk with trunks := [(0, { Trunk.init with st := .probe2 })] } }, 0, _, rfl, by decide +kernel, by decide +kernel⟩,
   ⟨withTrunk (trunkUp) 5 (List.replicate 8 0) (State.reset), ((withTrunk (trunkUp) 5 (List.replicate 8 0) (State.reset)).takeFrame 1 5).1, 1, _, _, _, frame 5 (List.replicate 8 0), _, by decide +kernel, rfl, by decide +kernel, rfl, rfl, rfl, by decide +kernel⟩,
   ⟨withTrunk ({ Trunk.init with st := .down }) 5 (List.replicate 8 0) (State.reset), ((withTrunk ({ Trunk.init with st := .down }) 5 (List.replicate 8 0) (State.reset)).takeFrame 1 5).1, 1, _, _, _, frame 5 (List.replicate 8 0), _, by decide +kernel, rfl, by decide +kernel, rfl, rfl, rfl, by decide +kernel, by decide +kernel⟩,
   ⟨withTrunk ({ Trunk.init with st := .healing, hbSent := [(0, 0)], count := 2, counted := 2 ^ 32 - 1 }) 5 (List.replicate 8 0) (on [(R.TRK_Tt_WIN_WIN_MIB 0, 1)]), ((withTrunk ({ Trunk.init with st := .healing, hbSent := [(0, 0)], count := 2, counted := 2 ^ 32 - 1 }) 5 (List.replicate 8 0) (on [(R.TRK_Tt_WIN_WIN_MIB 0, 1)])).takeFrame 1 5).1, 1, _, _, _, frame 5 (List.replicate 8 0), _, 0, by decide +kernel, rfl, by decide +kernel, rfl, rfl, rfl, by decide +kernel, by decide +kernel, by decide +kernel, by decide +kernel, by decide +kernel, by decide +kernel, by decide +kernel⟩⟩

/-- The premises of `Obligations.TrunksFollowTheirHeartbeats` can be met: probeAnswered, probeReplyTaken. -/
theorem witness_TrunksFollowTheirHeartbeats_2 :
    (∃ (s : State) (u : State) (id : Nat) (n : Nat) (f : TrunkFrame), (s.takeFrame id 6 = (u, some f)) ∧ (n = f.trunk) ∧ (n < 256) ∧ ((u.trunk n).st ≠ TrunkState.disabled)) ∧
    (∃ (s : State) (u : State) (id : Nat) (n : Nat) (f : TrunkFrame) (k : Trunk), (s.takeFrame id 7 = (u, some f)) ∧ (n = f.trunk) ∧ (n < 256) ∧ (k = u.trunk n) ∧ (k.st = TrunkState.probe1 ∨ k.st = TrunkState.probe2) ∧ (be f.body 0 4 = k.probeId) ∧ (u.cycle ≤ k.probeAt + 50 * msCycles)) :=
  ⟨⟨withTrunk (trunkUp) 6 (List.replicate 4 0) (State.reset), ((withTrunk (trunkUp) 6 (List.replicate 4 0) (State.reset)).takeFrame 1 6).1, 1, _, frame 6 (List.replicate 4 0), by decide +kernel, rfl, by decide +kernel, by decide +kernel⟩,
   ⟨withTrunk ({ Trunk.init with st := .probe1 }) 7 (List.replicate 4 0) (State.reset), ((withTrunk ({ Trunk.init with st := .probe1 }) 7 (List.replicate 4 0) (State.reset)).takeFrame 1 7).1, 1, _, frame 7 (List.replicate 4 0), _, by decide +kernel, rfl, by decide +kernel, rfl, by decide +kernel, by decide +kernel, by decide +kernel⟩⟩

/-- The premises of `Obligations.ConferencesHaveOneAnchor` can be met: rosterUpdate, talkerReport, talkerSet, confOp, confOpResult, stateSummary. -/
theorem witness_ConferencesHaveOneAnchor_1 :
    (∃ (s : State) (k : Fin 256) (conf : Fin 4096) (c : Cascade) (peer : Nat), (c = s.cascade ↑conf) ∧ (peer = s.peerOf ↑k) ∧ (c.joining = false) ∧ (s.obj 4194305 (↑conf) 0 ≠ 2)) ∧
    (∃ (s : State) (k : Fin 256) (conf : Fin 4096) (c : Cascade) (peer : Nat), (c = s.cascade ↑conf) ∧ (peer = s.peerOf ↑k) ∧ (s.roleOf ↑conf = 1)) ∧
    (∃ (s : State) (k : Fin 256) (conf : Fin 4096) (c : Cascade) (peer : Nat), (c = s.cascade ↑conf) ∧ (peer = s.peerOf ↑k) ∧ (s.roleOf ↑conf = 2) ∧ (peer = s.anchorOf ↑conf)) ∧
    (∃ (s : State) (conf : Fin 4096) (op : ConfOp) (c : Cascade), (c = s.cascade ↑conf) ∧ (s.roleOf ↑conf = 1) ∧ (op.object = none) ∧ (4194310 ≤ op.op) ∧ (op.op ≤ 4194312)) ∧
    (∃ (s : State) (who : Sender) (conf : Fin 4096) (c : Cascade) (k : Fin 256) (st : Nat) (x : Nat × Nat) (rest : List (Asker × Nat × Nat)), (c = s.cascade ↑conf) ∧ (s.peerOf ↑k = s.anchorOf ↑conf) ∧ (c.asked = (Asker.unit who, x) :: rest) ∧ (St.listed st = true ∨ st = St.unitFenced)) ∧
    (∃ (s : State) (k : Fin 256) (conf : Fin 4096) (c : Cascade) (peer : Nat), (c = s.cascade ↑conf) ∧ (peer = s.peerOf ↑k) ∧ (s.roleOf ↑conf = 2) ∧ (peer = s.anchorOf ↑conf)) :=
  ⟨⟨State.reset, 0, 0, _, _, rfl, rfl, by decide +kernel, by decide +kernel⟩,
   ⟨{ State.reset with objNum := [(objKey 0x820001 0, 1)] }, 0, 0, _, _, rfl, rfl, by decide +kernel⟩,
   ⟨{ State.reset with objNum := [(objKey 0x820001 0, 2)] }, 0, 0, _, _, rfl, rfl, by decide +kernel, by decide +kernel⟩,
   ⟨{ State.reset with objNum := [(objKey 0x820001 0, 1)] }, 0, ⟨none, 0x400006, 1⟩, _, rfl, by decide +kernel, by decide +kernel, by decide +kernel, by decide +kernel⟩,
   ⟨{ State.reset with trk := { State.reset.trk with confs := [(0, { Cascade.init with asked := [(.unit (.control 0), (5, 6))] })] } }, .control 0, 0, _, 0, 0, (5, 6), [], rfl, by decide +kernel, by decide +kernel, by decide +kernel⟩,
   ⟨{ State.reset with objNum := [(objKey 0x820001 0, 2)] }, 0, 0, _, _, rfl, rfl, by decide +kernel, by decide +kernel⟩⟩

/-- The premises of `Obligations.ConferencesHaveOneAnchor` can be met: journalEntry, journalDone, channelOffer, promote, confCreate, confEnd. -/
theorem witness_ConferencesHaveOneAnchor_2 :
    (∃ (s : State) (k : Fin 256) (conf : Fin 4096) (c : Cascade) (peer : Nat), (c = s.cascade ↑conf) ∧ (peer = s.peerOf ↑k) ∧ (s.roleOf ↑conf = 1)) ∧
    (∃ (s : State) (k : Fin 256) (conf : Fin 4096) (c : Cascade) (peer : Nat) (e : JournalEntry), (c = s.cascade ↑conf) ∧ (peer = s.peerOf ↑k) ∧ (s.roleOf ↑conf = 1) ∧ (c.replay = [e]) ∧ (e.object = none) ∧ (4194310 ≤ e.op) ∧ (e.op ≤ 4194312)) ∧
    (∃ (s : State) (k : Fin 256) (conf : Fin 4096) (c : Cascade) (peer : Nat), (c = s.cascade ↑conf) ∧ (peer = s.peerOf ↑k)) ∧
    (∃ (s : State) (conf : Fin 4096) (c : Cascade), (c = s.cascade ↑conf) ∧ (s.roleOf ↑conf = 3) ∧ (∀ (e : JournalEntry), e ∈ c.journal → e.queued = false)) ∧
    (∃ (s : State) (u : State) (h : GulHead) (n : Nat) (g : GulSession) (conf : BitVec 16) (leg : BitVec 16) (c : Nat) (l : Nat), (Heard s u h 8 n g) ∧ (g.role = 2) ∧ (s.bootStage = 96) ∧ (c = conf.toNat) ∧ (l = leg.toNat) ∧ (c < 4096) ∧ (l < u.legLimit) ∧ (u.gul.waits = []) ∧ (u.obj 4194305 c 0 = 0)) ∧
    (∃ (s : State) (u : State) (h : GulHead) (n : Nat) (g : GulSession) (conf : BitVec 16) (leg : BitVec 16) (c : Nat) (l : Nat), (Heard s u h 8 n g) ∧ (g.role = 2) ∧ (s.bootStage = 96) ∧ (c = conf.toNat) ∧ (l = leg.toNat) ∧ (c < 4096) ∧ (l < u.legLimit) ∧ (u.gul.waits = []) ∧ (u.obj 4194305 c 0 = 1) ∧ (u.roleOf c = 1) ∧ (u.legsOf c = []) ∧ ((u.cascade c).roster = [])) :=
  ⟨⟨{ State.reset with objNum := [(objKey 0x820001 0, 1)] }, 0, 0, _, _, rfl, rfl, by decide +kernel⟩,
   ⟨{ { State.reset with objNum := [(objKey 0x820001 0, 1)] } with trk := { State.reset.trk with confs := [(0, { Cascade.init with replay := [⟨0, 0, true, none, 0x400006, 1, false⟩] })] } }, 0, 0, _, _, ⟨0, 0, true, none, 0x400006, 1, false⟩, rfl, rfl, by decide +kernel, by decide +kernel, by decide +kernel, by decide +kernel, by decide +kernel⟩,
   ⟨State.reset, 0, 0, _, _, rfl, rfl⟩,
   ⟨{ { State.reset with objNum := [(objKey 0x820001 0, 3)] } with trk := { State.reset.trk with confs := [(0, { Cascade.init with journal := [] })] } }, 0, _, rfl, by decide +kernel, by decide +kernel⟩,
   ⟨withGul gul0, withGul gul0, head1, 1, gul0, 0, 0, _, _, ⟨by decide +kernel, by decide +kernel, by decide +kernel, by decide +kernel, by decide +kernel, by decide +kernel⟩, by decide +kernel, by decide +kernel, rfl, rfl, by decide +kernel, by decide +kernel, by decide +kernel, by decide +kernel⟩,
   ⟨{ withGul gul0 with objNum := [(objKey 0x400001 0, 1), (objKey 0x820001 0, 1)] }, { withGul gul0 with objNum := [(objKey 0x400001 0, 1), (objKey 0x820001 0, 1)] }, head1, 1, gul0, 0, 0, _, _, ⟨by decide +kernel, by decide +kernel, by decide +kernel, by decide +kernel, by decide +kernel, by decide +kernel⟩, by decide +kernel, by decide +kernel, rfl, rfl, by decide +kernel, by decide +kernel, by decide +kernel, by decide +kernel, by decide +kernel, by decide +kernel, by decide +kernel⟩⟩

/-- The premises of `Obligations.ConferencesHaveOneAnchor` can be met: legAttach, legDetach, legRelease, legConnected, legConnectTimeout. -/
theorem witness_ConferencesHaveOneAnchor_3 :
    (∃ (s : State) (u : State) (h : GulHead) (n : Nat) (g : GulSession) (conf : BitVec 16) (leg : BitVec 16) (c : Nat) (l : Nat), (Heard s u h 8 n g) ∧ (g.role = 2) ∧ (s.bootStage = 96) ∧ (c = conf.toNat) ∧ (l = leg.toNat) ∧ (c < 4096) ∧ (l < u.legLimit) ∧ (u.gul.waits = []) ∧ (u.legState l = 1) ∧ (u.obj 4194305 c 0 = 1) ∧ (u.obj 4194310 c 0 = 0) ∧ (u.roleOf c = 1) ∧ ((u.cascade c).members = []) ∧ ((u.cascade c).lost = [])) ∧
    (∃ (s : State) (u : State) (h : GulHead) (n : Nat) (g : GulSession) (conf : BitVec 16) (leg : BitVec 16) (c : Nat) (l : Nat), (Heard s u h 8 n g) ∧ (g.role = 2) ∧ (s.bootStage = 96) ∧ (c = conf.toNat) ∧ (l = leg.toNat) ∧ (c < 4096) ∧ (l < u.legLimit) ∧ (u.gul.waits = []) ∧ (u.confOf l = 65535) ∧ (u.legState l ≠ 0)) ∧
    (∃ (s : State) (u : State) (h : GulHead) (n : Nat) (g : GulSession) (conf : BitVec 16) (leg : BitVec 16) (c : Nat) (l : Nat), (Heard s u h 8 n g) ∧ (g.role = 2) ∧ (s.bootStage = 96) ∧ (c = conf.toNat) ∧ (l = leg.toNat) ∧ (c < 4096) ∧ (l < u.legLimit) ∧ (u.gul.waits = []) ∧ (u.confOf l = 65535) ∧ (u.slotsOfLeg l = []) ∧ (u.fctOfLeg l = [])) ∧
    (∃ (s : State) (leg : Fin 16384) (kbps : Nat), (kbps = min (s.obj 4198417 (↑leg) 1500) (canvasKbps (s.obj 5267714 (↑leg) 3))) ∧ (s.legState ↑leg = 2)) ∧
    (∃ (s : State) (leg : Fin 16384) (bad : Bool) (c : Nat), (SMap.get none s.fw.connecting ↑leg = some c) ∧ (s.legState ↑leg = 2) ∧ (bad = true ∨ c + 30 * secCycles ≤ s.cycle)) :=
  ⟨⟨{ withGul gul0 with objNum := [(objKey 0x400001 0, 1), (objKey 0x401001 0, 1), (objKey 0x820001 0, 1)] }, { withGul gul0 with objNum := [(objKey 0x400001 0, 1), (objKey 0x401001 0, 1), (objKey 0x820001 0, 1)] }, head1, 1, gul0, 0, 0, _, _, ⟨by decide +kernel, by decide +kernel, by decide +kernel, by decide +kernel, by decide +kernel, by decide +kernel⟩, by decide +kernel, by decide +kernel, rfl, rfl, by decide +kernel, by decide +kernel, by decide +kernel, by decide +kernel, by decide +kernel, by decide +kernel, by decide +kernel, by decide +kernel, by decide +kernel⟩,
   ⟨{ withGul gul0 with objNum := [(objKey 0x401001 0, 3)] }, { withGul gul0 with objNum := [(objKey 0x401001 0, 3)] }, head1, 1, gul0, 0, 0, _, _, ⟨by decide +kernel, by decide +kernel, by decide +kernel, by decide +kernel, by decide +kernel, by decide +kernel⟩, by decide +kernel, by decide +kernel, rfl, rfl, by decide +kernel, by decide +kernel, by decide +kernel, by decide +kernel, by decide +kernel⟩,
   ⟨{ withGul gul0 with objNum := [(objKey 0x401001 0, 1)] }, { withGul gul0 with objNum := [(objKey 0x401001 0, 1)] }, head1, 1, gul0, 0, 0, _, _, ⟨by decide +kernel, by decide +kernel, by decide +kernel, by decide +kernel, by decide +kernel, by decide +kernel⟩, by decide +kernel, by decide +kernel, rfl, rfl, by decide +kernel, by decide +kernel, by decide +kernel, by decide +kernel, by decide +kernel, by decide +kernel⟩,
   ⟨{ State.reset with objNum := [(objKey 0x401001 0, 2)] }, 0, _, rfl, by decide +kernel⟩,
   ⟨{ { State.reset with objNum := [(objKey 0x401001 0, 2)] } with fw := { State.reset.fw with connecting := [(0, some 0)] }, cycle := 45000000000 }, 0, false, 0, by decide +kernel, by decide +kernel, by decide +kernel⟩⟩

/-- The premises of `Obligations.TaskCommandsBuildAndRunTheGraph` can be met: create, link, arm, cancel, strip, follow. -/
theorem witness_TaskCommandsBuildAndRunTheGraph_1 :
    (∃ (s : State) (who : Sender) (d : List Byte) (n : Nat) (k : Nat), (mayCreate who = true) ∧ (descOk d = true) ∧ (s.get R.HTS_RESV_SLOTS ≤ 4096 - s.get R.HTS_SLOTS_USED_SLOTS ∨ 8 ≤ BitVec.toNat (d.headD 0)) ∧ (n < 4096) ∧ ((s.taskAt n).st = TaskState.free) ∧ (∀ (m : Nat), m < n → (s.taskAt m).st ≠ TaskState.free) ∧ (k = if ((s.taskAt n).inc + 1) % 2 ^ 20 = 0 then 1 else ((s.taskAt n).inc + 1) % 2 ^ 20)) ∧
    (∃ (s : State) (who : Sender) (pred : Nat) (succ : Nat) (mode : Nat) (u : Task) (p : Task), (mayCreate who = true) ∧ (∀ (c : Instr), c ∈ s.pending → eventPhase c = none) ∧ (s.liveTask succ = some u) ∧ (u.st = TaskState.held) ∧ (u.armed = true) ∧ (s.liveTask pred = some p) ∧ (pred ≠ succ) ∧ (mode = 0 ∨ p.strips = 0) ∧ (p.succs.length < 8) ∧ (u.counter < 255)) ∧
    (∃ (s : State) (who : Sender) (id : Nat) (k : Task), (mayCreate who = true) ∧ (s.liveTask id = some k) ∧ (k.st = TaskState.held) ∧ (k.armed = true) ∧ (1 < k.counter)) ∧
    (∃ (s : State) (who : Sender) (id : Nat) (k : Task), (mayCreate who = true) ∧ (s.liveTask id = some k) ∧ (∀ (c : Instr), c ∈ s.pending → eventPhase c = none) ∧ (k.st = TaskState.held ∨ k.st = TaskState.ready) ∧ (k.kind < 10) ∧ (k.succs = []) ∧ (k.cq = 0)) ∧
    (∃ (s : State) (who : Sender) (id : Nat) (k : Task) (n : Nat), (s.liveTask id = some k) ∧ (runsOn k who = true) ∧ (n = 0 ∨ 0 < k.strips ∨ ∀ (x : Nat × Bool), x ∈ k.succs → x.snd = false)) ∧
    (∃ (s : State) (id : Nat) (k : Task), (s.liveTask id = some k) ∧ (∀ (c : Instr), c ∈ s.pending → eventPhase c = none)) :=
  ⟨⟨State.reset, .control 0, [1] ++ List.replicate 127 0, 0, _, by decide +kernel, by decide +kernel, by decide +kernel, by decide +kernel, by decide +kernel, by decide +kernel, rfl⟩,
   ⟨{ State.reset with hts := ⟨[(0, { Task.init with inc := 1, st := .held, armed := true, counter := 254, kind := 1 }), (1, { Task.init with inc := 1, st := .held, armed := true, counter := 1, kind := 1 })], [], []⟩ }, .control 0, 4097, 4096, 0, { Task.init with inc := 1, st := .held, armed := true, counter := 254, kind := 1 }, { Task.init with inc := 1, st := .held, armed := true, counter := 1, kind := 1 }, by decide +kernel, by decide +kernel, by decide +kernel, by decide +kernel, by decide +kernel, by decide +kernel, by decide +kernel, by decide +kernel, by decide +kernel, by decide +kernel⟩,
   ⟨{ State.reset with hts := ⟨[(0, { Task.init with inc := 1, st := .held, armed := true, counter := 2, kind := 1 })], [], []⟩ }, .control 0, 4096, { Task.init with inc := 1, st := .held, armed := true, counter := 2, kind := 1 }, by decide +kernel, by decide +kernel, by decide +kernel, by decide +kernel, by decide +kernel⟩,
   ⟨{ State.reset with hts := ⟨[(0, { Task.init with inc := 1, st := .held, armed := true, counter := 2, kind := 1 })], [], []⟩ }, .control 0, 4096, { Task.init with inc := 1, st := .held, armed := true, counter := 2, kind := 1 }, by decide +kernel, by decide +kernel, by decide +kernel, by decide +kernel, by decide +kernel, by decide +kernel, by decide +kernel⟩,
   ⟨withTask State.reset { at1000 1 0 with inc := 1 }, .engine 0, 4096, { at1000 1 0 with inc := 1 }, 0, by decide +kernel, by decide +kernel, by decide +kernel⟩,
   ⟨withTask State.reset { at1000 1 0 with inc := 1 }, 4096, { at1000 1 0 with inc := 1 }, by decide +kernel, by decide +kernel⟩⟩

/-- The premises of `Obligations.TaskCommandsBuildAndRunTheGraph` can be met: complete, slotsMaxWrite. -/
theorem witness_TaskCommandsBuildAndRunTheGraph_2 :
    (∃ (s : State) (who : Sender) (id : Nat) (k : Task) (st : Nat), (s.liveTask id = some k) ∧ (runsOn k who = true) ∧ (k.kind < 8) ∧ (k.cq = 0) ∧ (St.listed st = true ∨ st = St.unitFenced ∧ s.get R.SQL_FENCED_UNITS_COUNT ≠ 0) ∧ (k.succs = [])) ∧
    (∃ (s : State) (who : Sender), Serves s who R.HTS_SLOTS_MAX_SLOTS.addr) :=
  ⟨⟨withTask State.reset { at1000 1 0 with inc := 1 }, .engine 0, 4096, { at1000 1 0 with inc := 1 }, 0, by decide +kernel, by decide +kernel, by decide +kernel, by decide +kernel, by decide +kernel, by decide +kernel⟩,
   ⟨State.reset, .control 0, ⟨⟨by decide +kernel, by decide +kernel⟩, by unfold Crosses; decide +kernel⟩⟩⟩

/-- The premises of `Obligations.UnitsAreGivenTheFirstAdmittedTask` can be met: taskDispatch, auHandover. -/
theorem witness_UnitsAreGivenTheFirstAdmittedTask :
    (∃ (s : State) (g : TaskGroup) (i : Nat) (n : Nat) (k : Task) (f : Nat), (∀ (e : Nat × Task), e ∈ s.tasks → s.noConsumer e.snd = false) ∧ (s.dispatches = true) ∧ (SMap.wf (fun _ => Task.init) s.hts.slots = true) ∧ (i < groupSize ↑g) ∧ (s.asks (↑g) i = true) ∧ (∀ (j : Nat), j < i → s.asks (↑g) j = false) ∧ ((n, k) ∈ s.hts.slots) ∧ (s.taskAt n = k) ∧ (k.st = TaskState.ready) ∧ (kindGroup k.kind = ↑g) ∧ (k.deferred = false) ∧ (s.couldServe (↑g) i k = true) ∧ (∀ (e : Nat × Task), e ∈ s.hts.slots → e ≠ (n, k) → e.snd.st = TaskState.ready → kindGroup e.snd.kind = ↑g → e.snd.deferred = false ∧ (k.prio < e.snd.prio ∨ k.prio = e.snd.prio ∧ k.deadline ≠ e.snd.deadline ∧ timeAfter e.snd.deadline k.deadline = true)) ∧ (s.isSet R.UPD_CTRL_ENABLE = false ∧ f = k.effortReq ∨ s.isSet R.UPD_CTRL_ENABLE = true ∧ k.shedding = Shedding.never ∧ f = 0 ∨ s.isSet R.UPD_CTRL_ENABLE = true ∧ k.shedding = Shedding.step ∧ f < 4 ∧ (s.effortFloor k).fst ≤ f ∧ s.fits (s.chargeOf k f) = true ∧ ∀ (e : Nat), (s.effortFloor k).fst ≤ e → e < f → s.fits (s.chargeOf k e) = false)) ∧
    (∃ (s : State) (u : AccessUnit) (us : List AccessUnit) (p : MediaPkt), (s.rly.units = u :: us) ∧ (u.packets = [p])) :=
  ⟨⟨withTask (on [(R.HTS_CTRL_ENABLE, 1), (R.UPD_STATUS_AWAKE, 1), (R.VDE_CTRL_ENABLE 0, 1), (R.HIF_BOOT_STAGE_STAGE, 0x60), (R.UPD_CTRL_ENABLE, 0)]) { Task.init with inc := 1, st := .ready, kind := 1, desc := [1] }, 0, 0, 0, { Task.init with inc := 1, st := .ready, kind := 1, desc := [1] }, 0, by decide +kernel, by decide +kernel, by decide +kernel, by decide +kernel, by decide +kernel, by decide +kernel, List.mem_cons_self, by decide +kernel, by decide +kernel, by decide +kernel, by decide +kernel, by decide +kernel, by decide +kernel, Or.inl ⟨by decide +kernel, by decide +kernel⟩⟩,
   ⟨{ State.reset with rly := { State.reset.rly with units := [⟨0, [⟨0, 1, 2, true, 3, []⟩], none⟩] } }, ⟨0, [⟨0, 1, 2, true, 3, []⟩], none⟩, [], ⟨0, 1, 2, true, 3, []⟩, by decide +kernel, by decide +kernel⟩⟩

/-- The premises of `Obligations.EnergyWindowsTemperatureAndStandby` can be met: updWindowEnd, thermalSample, telemetrySample, standbyEnter, standbyExit, standbyWakeDone. -/
theorem witness_EnergyWindowsTemperatureAndStandby_1 :
    (∃ (s : State) (cap : Nat), (s.upd.windowAt + 375000 ≤ s.cycle) ∧ (SMap.wf (fun _ => Task.init) s.hts.slots = true) ∧ (cap = s.capEnergy)) ∧
    (∃ (s : State) (sensors : List Byte) (i : Nat) (tj : Int) (warn : Int) (shed : Int) (trip : Int), (i < sensors.length) ∧ (sensors.length ≤ 40) ∧ (tj = signed 8 (BitVec.toNat (sensors.getD i 0))) ∧ (∀ (j : Nat), j < sensors.length → signed 8 (BitVec.toNat (sensors.getD j 0)) ≤ tj) ∧ (∀ (j : Nat), j < i → signed 8 (BitVec.toNat (sensors.getD j 0)) < tj) ∧ (warn = signed 8 (s.get R.UPD_T_WARN_CELSIUS)) ∧ (shed = signed 8 (s.get R.UPD_T_SHED_CELSIUS)) ∧ (trip = signed 8 (s.get R.UPD_T_TRIP_CELSIUS))) ∧
    (∃ (s : State) (vin : Nat) (rails : List (Nat × Nat)) (l : List (Nat × List (Nat × Nat))), (s.isFenced Unit.link 1 = false) ∧ (l = List.take 500 ((vin, List.take 8 rails) :: s.upd.samples))) ∧
    (∃ (s : State) (who : Sender), (Serves s who R.UPD_CTRL_ENABLE.addr) ∧ (s.isSet R.UPD_CTRL_STANDBY = false) ∧ (s.isSet R.RLY_CTRL_ENABLE = false ∨ ∀ (p : Nat), p < 8 → s.portNamed p = true → s.isSet (R.RLY_PnCTL_PORT_EN p) = false) ∧ (∀ (e : Nat × Task), e ∈ s.hts.slots → e.snd.st ≠ TaskState.ready ∧ e.snd.st ≠ TaskState.running)) ∧
    (∃ (s : State) (who : Sender), (Serves s who R.UPD_CTRL_ENABLE.addr) ∧ (s.isSet R.UPD_CTRL_STANDBY = true) ∧ (s.get R.UPD_STATUS_THERMAL ≠ 3) ∧ (∀ (k : Nat), k ∈ [40, 49, 50, 51, 52, 53] → s.island k = LullState.lull ∧ s.gatedForGood k = false)) ∧
    (∃ (s : State), (s.isSet R.UPD_STATUS_AWAKE = false) ∧ (s.isSet R.UPD_CTRL_STANDBY = false)) :=
  ⟨⟨{ State.reset with cycle := 375000 }, _, by decide +kernel, by decide +kernel, rfl⟩,
   ⟨State.reset, [95, 105, 105, 0xFF], 1, 105, _, _, _, by decide +kernel, by decide +kernel, by decide +kernel, by decide +kernel, by decide +kernel, rfl, rfl, rfl⟩,
   ⟨State.reset, 0, [], _, by decide +kernel, rfl⟩,
   ⟨State.reset, .control 0, ⟨⟨by decide +kernel, by decide +kernel⟩, by unfold Crosses; decide +kernel⟩, by decide +kernel, by decide +kernel, by decide +kernel⟩,
   ⟨{ on [(R.UPD_CTRL_STANDBY, 1)] with islands := [40, 49, 50, 51, 52, 53].map fun k => (k, .lull) }, .control 0, ⟨⟨by decide +kernel, by decide +kernel⟩, by unfold Crosses; decide +kernel⟩, by decide +kernel, by decide +kernel, by decide +kernel⟩,
   ⟨on [(R.UPD_STATUS_AWAKE, 0)], by decide +kernel, by decide +kernel⟩⟩

/-- The premises of `Obligations.EnergyWindowsTemperatureAndStandby` can be met: ipeakWrite. -/
theorem witness_EnergyWindowsTemperatureAndStandby_2 :
    ∃ (s : State) (who : Sender) (rail : Fin 8) (v : Nat) (l : List (Nat × Nat)) (b : List (Nat × List (Nat × Nat))), (Serves s who (R.UPD_RAIL_IPEAK_MILLIAMPS ↑rail).addr) ∧ (s.upd.samples = (v, l) :: b) :=
  ⟨{ State.reset with upd := { State.reset.upd with samples := [(0, [])] } }, .control 0, 0, 0, [], [], ⟨⟨by decide +kernel, by decide +kernel⟩, by unfold Crosses; decide +kernel⟩, by decide +kernel⟩

/-- The premises of `Obligations.MemoryRequestsAndControllers` can be met: hbmRequest, refresh, refreshWindowStart, throttleExpiry, scrubRead, hbmParityError. -/
theorem witness_MemoryRequestsAndControllers_1 :
    (∃ (s : State) (who : Sender) (a : Nat) (c : Nat) (n : Nat) (ctl : Fin 4) (pc : Fin 32), (c = ↑ctl) ∧ ((s.place a).ctl = ↑ctl) ∧ ((s.place a).pc = ↑pc) ∧ (s.hbmServes c = true) ∧ (s.cutOff who = false) ∧ (s.hbm.reqs = []) ∧ (s.hbm.flows = []) ∧ (s.rowWaits (s.place a) who.stamp = false) ∧ (0 < n) ∧ (a % 32 + n ≤ 32) ∧ (a + n ≤ hbmBytes) ∧ (s.marked a = false)) ∧
    (∃ (s : State) (ctl : Fin 4) (k : HbmCtl), k = s.hbmCtl ↑ctl) ∧
    (∃ (s : State) (ctl : Fin 4) (k : HbmCtl) (c : Nat) (w : Nat), (k = s.hbmCtl ↑ctl) ∧ (w = (if s.isSet (R.HBM_STATUS_HOT_REFRESH ↑ctl) = true then 16 else 32) * 1500000) ∧ (k.windowAt + w ≤ s.cycle) ∧ (c < 256) ∧ (SMap.wf (fun x => HbmBank.init) s.hbm.banks = true)) ∧
    (∃ (s : State) (ctl : Fin 4) (k : HbmCtl) (i : Fin 8) (x : Nat) (u : Nat), (k = s.hbmCtl ↑ctl) ∧ (SMap.get none k.throttles ↑i = some (x, u)) ∧ (u ≤ s.cycle)) ∧
    (∃ (s : State) (a : Nat) (ctl : Fin 4) (pc : Fin 32), (a = s.hbm.scrub) ∧ ((s.place a).ctl = ↑ctl) ∧ ((s.place a).pc = ↑pc) ∧ (a < hbmBytes) ∧ (a % 32 = 0) ∧ (s.get R.HBM_SCRUB_H_HOURS ≠ 0) ∧ (s.hbmServes ↑ctl = true) ∧ (s.hbm.reqs = []) ∧ (s.hbm.flows = [])) ∧
    (∃ (s : State) (ctl : Fin 4) (k : HbmCtl), (k = s.hbmCtl ↑ctl) ∧ (s.isFenced Unit.hbm ↑ctl = false)) :=
  ⟨⟨on [(R.HBM_STATUS_READY 0, 1), (R.HBM_STATUS_READY 1, 1), (R.HBM_STATUS_READY 2, 1), (R.HBM_STATUS_READY 3, 1)], .control 0, 0, _, 32, 0, 0, rfl, by decide +kernel, by decide +kernel, by decide +kernel, by decide +kernel, by decide +kernel, by decide +kernel, by decide +kernel, by decide +kernel, by decide +kernel, by decide +kernel, by decide +kernel⟩,
   ⟨State.reset, 0, _, rfl⟩,
   ⟨{ State.reset with cycle := 48000000 }, 0, _, 255, _, rfl, rfl, by decide +kernel, by decide +kernel, by decide +kernel⟩,
   ⟨{ State.reset with hbm := { State.reset.hbm with ctls := [(0, { HbmCtl.init with throttles := [(0, some (7, 0))] })] } }, 0, _, 0, 7, 0, rfl, by decide +kernel, by decide +kernel⟩,
   ⟨on [(R.HBM_STATUS_READY 0, 1), (R.HBM_STATUS_READY 1, 1), (R.HBM_STATUS_READY 2, 1), (R.HBM_STATUS_READY 3, 1), (R.HBM_SCRUB_H_HOURS, 1)], 0, 0, 0, by decide +kernel, by decide +kernel, by decide +kernel, by decide +kernel, by decide +kernel, by decide +kernel, by decide +kernel, by decide +kernel, by decide +kernel⟩,
   ⟨State.reset, 0, _, rfl, by decide +kernel⟩⟩

/-- The premises of `Obligations.MemoryRequestsAndControllers` can be met: hbmTrainStep, mapEnable, bar2Read, bar2Write, bar2SizeChange, hbmRequestByClass. -/
theorem witness_MemoryRequestsAndControllers_2 :
    (∃ (s : State) (ctl : Fin 4) (k : HbmCtl), (k = s.hbmCtl ↑ctl) ∧ (s.isFenced Unit.hbm ↑ctl = false) ∧ (k.step < 4)) ∧
    (∃ (s : State) (who : Sender), Serves s who R.HBM_MAP_CTRL_ENABLE.addr) ∧
    (∃ (s : State) (o : Nat) (a : Nat) (ctl : Fin 4) (pc : Fin 32) (n : Nat), (a = (s.pair R.HBM_BAR2_WIN_LO_ADDR R.HBM_BAR2_WIN_HI_ADDR + o) % hbmBytes) ∧ ((s.place a).ctl = ↑ctl) ∧ ((s.place a).pc = ↑pc) ∧ (0 < n) ∧ (a % 32 + n ≤ 32) ∧ (o + n ≤ 2 ^ s.hbm.bar2) ∧ (s.cutOff (Sender.host 0) = false) ∧ (s.hbmServes ↑ctl = true) ∧ (s.marked a = false) ∧ (s.hbm.reqs = []) ∧ (s.hbm.flows = []) ∧ (s.rowWaits (s.place a) (Sender.host 0).stamp = false)) ∧
    (∃ (s : State) (o : Nat) (a : Nat) (ctl : Fin 4) (pc : Fin 32) (bs : List Byte) (r : Nat), (a = (s.pair R.HBM_BAR2_WIN_LO_ADDR R.HBM_BAR2_WIN_HI_ADDR + o) % hbmBytes) ∧ ((s.place a).ctl = ↑ctl) ∧ ((s.place a).pc = ↑pc) ∧ (0 < bs.length) ∧ (o + bs.length ≤ 2 ^ s.hbm.bar2) ∧ (s.cutOff (Sender.host 0) = false) ∧ (s.regionOf a = some r) ∧ (s.isSet (R.HBM_REG_CFG_HOST_WP r) = true)) ∧
    (∃ (s : State) (o : Nat) (a : Nat) (ctl : Fin 4) (pc : Fin 32) (l : Nat), (a = (s.pair R.HBM_BAR2_WIN_LO_ADDR R.HBM_BAR2_WIN_HI_ADDR + o) % hbmBytes) ∧ ((s.place a).ctl = ↑ctl) ∧ ((s.place a).pc = ↑pc) ∧ (28 ≤ l) ∧ (l ≤ 36) ∧ (l = s.hbm.bar2)) ∧
    (∃ (s : State) (ctl : Fin 4) (pc : Fin 32) (x : HbmReq) (y : HbmReq) (hit : HbmReq → Prop), (s.hbmServes ↑ctl = true) ∧ (s.hbm.reqs = [x, y]) ∧ (x.n ≠ y.n) ∧ (∀ (r : HbmReq), r ∈ [x, y] → (s.place r.addr).ctl = ↑ctl ∧ (s.place r.addr).pc = ↑pc ∧ r.promoted = false ∧ r.delayed = false) ∧ (∀ (r : HbmReq), hit r ↔ (s.hbmBank (s.place r.addr).key).row = some (s.place r.addr).row) ∧ (s.rowWaits (s.place y.addr) y.who.stamp = false) ∧ (2 * (s.cycle - y.since) ≤ 3 * s.get R.HBM_AGE_MAX_NS) ∧ (s.rowWaits (s.place x.addr) x.who.stamp = false) ∧ (2 * (s.cycle - x.since) ≤ 3 * s.get R.HBM_AGE_MAX_NS) ∧ (wordOf x.addr ≠ wordOf y.addr) ∧ (isHost x.who = false ∨ isHost y.who = false) ∧ (classOf y.who < classOf x.who ∨ classOf y.who = classOf x.who ∧ hit y ∧ ¬hit x)) :=
  ⟨⟨State.reset, 0, _, rfl, by decide +kernel, by decide +kernel⟩,
   ⟨State.reset, .control 0, ⟨⟨by decide +kernel, by decide +kernel⟩, by unfold Crosses; decide +kernel⟩⟩,
   ⟨on [(R.HBM_STATUS_READY 0, 1), (R.HBM_STATUS_READY 1, 1), (R.HBM_STATUS_READY 2, 1), (R.HBM_STATUS_READY 3, 1)], 0, _, 0, 0, 32, rfl, by decide +kernel, by decide +kernel, by decide +kernel, by decide +kernel, by decide +kernel, by decide +kernel, by decide +kernel, by decide +kernel, by decide +kernel, by decide +kernel, by decide +kernel⟩,
   ⟨on [(R.HBM_REG_SIZE_UNITS 0, 1), (R.HBM_REG_CFG_HOST_WP 0, 1)], 0, _, 0, 0, [7], 0, rfl, by decide +kernel, by decide +kernel, by decide +kernel, by decide +kernel, by decide +kernel, by decide +kernel, by decide +kernel⟩,
   ⟨State.reset, 0, _, 0, 0, 30, rfl, by decide +kernel, by decide +kernel, by decide +kernel, by decide +kernel, by decide +kernel⟩,
   ⟨{ on [(R.HBM_STATUS_READY 0, 1), (R.HBM_STATUS_READY 1, 1), (R.HBM_STATUS_READY 2, 1), (R.HBM_STATUS_READY 3, 1)] with cycle := 3000, hbm := { State.reset.hbm with reqs := [⟨0, 0, .control 0, 0, .read 32, 0, false, false, .clean⟩, ⟨1, 1, .engine 0, 32, .read 32, 3000, false, false, .clean⟩], next := 2 } }, 0, 0, ⟨0, 0, .control 0, 0, .read 32, 0, false, false, .clean⟩, ⟨1, 1, .engine 0, 32, .read 32, 3000, false, false, .clean⟩, fun r => (({ on [(R.HBM_STATUS_READY 0, 1), (R.HBM_STATUS_READY 1, 1), (R.HBM_STATUS_READY 2, 1), (R.HBM_STATUS_READY 3, 1)] with cycle := 3000, hbm := { State.reset.hbm with reqs := [⟨0, 0, .control 0, 0, .read 32, 0, false, false, .clean⟩, ⟨1, 1, .engine 0, 32, .read 32, 3000, false, false, .clean⟩], next := 2 } } : State).hbmBank (({ on [(R.HBM_STATUS_READY 0, 1), (R.HBM_STATUS_READY 1, 1), (R.HBM_STATUS_READY 2, 1), (R.HBM_STATUS_READY 3, 1)] with cycle := 3000, hbm := { State.reset.hbm with reqs := [⟨0, 0, .control 0, 0, .read 32, 0, false, false, .clean⟩, ⟨1, 1, .engine 0, 32, .read 32, 3000, false, false, .clean⟩], next := 2 } } : State).place r.addr).key).row = some (({ on [(R.HBM_STATUS_READY 0, 1), (R.HBM_STATUS_READY 1, 1), (R.HBM_STATUS_READY 2, 1), (R.HBM_STATUS_READY 3, 1)] with cycle := 3000, hbm := { State.reset.hbm with reqs := [⟨0, 0, .control 0, 0, .read 32, 0, false, false, .clean⟩, ⟨1, 1, .engine 0, 32, .read 32, 3000, false, false, .clean⟩], next := 2 } } : State).place r.addr).row, by decide +kernel, by decide +kernel, by decide +kernel, by decide +kernel, fun _ => Iff.rfl, by decide +kernel, by decide +kernel, by decide +kernel, by decide +kernel, by decide +kernel, by decide +kernel, by decide +kernel⟩⟩

/-- The premises of `Obligations.MemoryRequestsAndControllers` can be met: hbmRequestByAge. -/
theorem witness_MemoryRequestsAndControllers_3 :
    ∃ (s : State) (ctl : Fin 4) (pc : Fin 32) (x : HbmReq) (y : HbmReq) (hit : HbmReq → Prop), (s.hbmServes ↑ctl = true) ∧ (s.hbm.reqs = [x, y]) ∧ (x.n ≠ y.n) ∧ (∀ (r : HbmReq), r ∈ [x, y] → (s.place r.addr).ctl = ↑ctl ∧ (s.place r.addr).pc = ↑pc ∧ r.promoted = false ∧ r.delayed = false) ∧ (∀ (r : HbmReq), hit r ↔ (s.hbmBank (s.place r.addr).key).row = some (s.place r.addr).row) ∧ (s.rowWaits (s.place y.addr) y.who.stamp = false) ∧ (2 * (s.cycle - y.since) ≤ 3 * s.get R.HBM_AGE_MAX_NS) ∧ (s.rowWaits (s.place x.addr) x.who.stamp = false) ∧ (3 * s.get R.HBM_AGE_MAX_NS < 2 * (s.cycle - x.since)) :=
  ⟨{ on [(R.HBM_STATUS_READY 0, 1), (R.HBM_STATUS_READY 1, 1), (R.HBM_STATUS_READY 2, 1), (R.HBM_STATUS_READY 3, 1)] with cycle := 3001, hbm := { State.reset.hbm with reqs := [⟨0, 0, .control 0, 0, .read 32, 0, false, false, .clean⟩, ⟨1, 1, .engine 0, 32, .read 32, 3000, false, false, .clean⟩], next := 2 } }, 0, 0, ⟨0, 0, .control 0, 0, .read 32, 0, false, false, .clean⟩, ⟨1, 1, .engine 0, 32, .read 32, 3000, false, false, .clean⟩, fun r => (({ on [(R.HBM_STATUS_READY 0, 1), (R.HBM_STATUS_READY 1, 1), (R.HBM_STATUS_READY 2, 1), (R.HBM_STATUS_READY 3, 1)] with cycle := 3001, hbm := { State.reset.hbm with reqs := [⟨0, 0, .control 0, 0, .read 32, 0, false, false, .clean⟩, ⟨1, 1, .engine 0, 32, .read 32, 3000, false, false, .clean⟩], next := 2 } } : State).hbmBank (({ on [(R.HBM_STATUS_READY 0, 1), (R.HBM_STATUS_READY 1, 1), (R.HBM_STATUS_READY 2, 1), (R.HBM_STATUS_READY 3, 1)] with cycle := 3001, hbm := { State.reset.hbm with reqs := [⟨0, 0, .control 0, 0, .read 32, 0, false, false, .clean⟩, ⟨1, 1, .engine 0, 32, .read 32, 3000, false, false, .clean⟩], next := 2 } } : State).place r.addr).key).row = some (({ on [(R.HBM_STATUS_READY 0, 1), (R.HBM_STATUS_READY 1, 1), (R.HBM_STATUS_READY 2, 1), (R.HBM_STATUS_READY 3, 1)] with cycle := 3001, hbm := { State.reset.hbm with reqs := [⟨0, 0, .control 0, 0, .read 32, 0, false, false, .clean⟩, ⟨1, 1, .engine 0, 32, .read 32, 3000, false, false, .clean⟩], next := 2 } } : State).place r.addr).row, by decide +kernel, by decide +kernel, by decide +kernel, by decide +kernel, fun _ => Iff.rfl, by decide +kernel, by decide +kernel, by decide +kernel, by decide +kernel⟩

/-- The premises of `Obligations.FunctionsAreResetAndUnmasked` can be met: functionLevelReset, msixUnmask, flrComplete. -/
theorem witness_FunctionsAreResetAndUnmasked :
    (∃ (s : State) (fn : Fin 16), ((s.fn ↑fn).exists_ = true) ∧ (↑fn ≠ 0)) ∧
    (∃ (s : State) (fn : Fin 16) (f : HostFunction) (v : Fin 128), (f = s.fn ↑fn) ∧ (Serves s (Sender.host ↑fn) (vectorControl ↑fn ↑v)) ∧ (f.exists_ = true) ∧ (SMap.get false f.pendingV ↑v = true) ∧ (f.msixEn = true)) ∧
    (∃ (s : State) (fn : Fin 16) (f : HostFunction) (c : Nat), (f = s.fn ↑fn) ∧ (f.flrSince = some c)) :=
  ⟨⟨{ State.reset with fns := [(1, { HostFunction.init 1 with exists_ := true })] }, 1, by decide +kernel, by decide +kernel⟩,
   ⟨{ on up60 with fns := [(0, { HostFunction.init 0 with msixEn := true, pendingV := [(127, true)] })] }, 0, _, 127, rfl, ⟨⟨by decide +kernel, by decide +kernel⟩, by unfold Crosses; decide +kernel⟩, by decide +kernel, by decide +kernel, by decide +kernel⟩,
   ⟨{ State.reset with fns := [(0, { HostFunction.init 0 with flrSince := some 0 })] }, 0, _, 0, rfl, by decide +kernel⟩⟩

/-- The premises of `Obligations.HostQueuesRunTheirDescriptors` can be met: tailWrite, descFetchDone, pioCommit, descNop, inline/devBuf, hostBuf. -/
theorem witness_HostQueuesRunTheirDescriptors_1 :
    (∃ (s : State) (fn : Fin 16) (j : Fin 16) (size : Nat) (head : Nat) (tail : Nat) (new : BitVec 16), (Serves s (Sender.host ↑fn) (R.HIF_Fn_Qj_TAIL_ENTRY ↑fn ↑j).addr) ∧ (size = 2 ^ s.get (R.HIF_Fn_Qj_SIZE_LOG2 ↑fn ↑j)) ∧ (head = s.get (R.HIF_Fn_Qj_HEAD_ENTRY ↑fn ↑j)) ∧ (tail = s.get (R.HIF_Fn_Qj_TAIL_ENTRY ↑fn ↑j)) ∧ (new.toNat < size) ∧ (ringGap size tail new.toNat ≤ size - 1 - ringGap size head tail) ∧ (s.serves ↑fn ↑j = false ∨ s.isRing ↑fn ↑j = false ∨ (s.sub ↑fn ↑j).fetch ≠ none)) ∧
    (∃ (s : State) (fn : Fin 16) (j : Fin 16) (q : SubQueue) (c : Nat) (a : Nat) (ds : List (List Byte)), (q = s.sub ↑fn ↑j) ∧ (q.fetch = some (c, a)) ∧ (ds.length = c) ∧ (∀ (d : List Byte), d ∈ ds → d.length = 32)) ∧
    (∃ (s : State) (fn : Fin 16) (j : Fin 16) (q : SubQueue), (q = s.sub ↑fn ↑j) ∧ (Serves s (Sender.host ↑fn) (R.HIF_Fn_Qj_PIO_WORD (↑fn) (↑j) 7).addr) ∧ (s.isRing ↑fn ↑j = false) ∧ (s.serves ↑fn ↑j = true)) ∧
    (∃ (s : State) (fn : Fin 16) (j : Fin 16) (q : SubQueue) (d : List Byte) (b : Bool) (rest : List (List Byte × Bool)) (u : State) (v : State) (w : State) (x : Nat), (q = s.sub ↑fn ↑j) ∧ (q.fetched = (d, b) :: rest) ∧ (u = s.popDesc ↑fn ↑j) ∧ (descField d 0 1 = 0) ∧ (d.length = 32) ∧ (u.writeWord (hostQueue ↑fn ↑j) { data := d, sop := true, eop := true, bad := false, prio := descField d 1 1 % 8 } WordOwner.desc = (v, WriteOut.taken)) ∧ (v.peekWord (hostQueue ↑fn ↑j) = some { data := d, sop := true, eop := true, bad := false, prio := x }) ∧ ((v.readWord (hostQueue ↑fn ↑j)).fst = w) ∧ (w.peekWord (hostQueue ↑fn ↑j) = none)) ∧
    (∃ (s : State) (fn : Fin 16) (j : Fin 16) (q : SubQueue) (d : List Byte) (b : Bool) (rest : List (List Byte × Bool)) (u : State) (op : Nat) (v : State) (o : WriteOut) (c : Nat × Instr), (q = s.sub ↑fn ↑j) ∧ (q.fetched = (d, b) :: rest) ∧ (u = s.popDesc ↑fn ↑j) ∧ (op = descField d 0 1) ∧ (u.writeWord (hostQueue ↑fn ↑j) { data := d, sop := true, eop := true, bad := false, prio := descField d 1 1 % 8 } WordOwner.desc = (v, o)) ∧ (o = WriteOut.taken ∨ o = WriteOut.withheld) ∧ (∀ (w : QWord), v.peekWord (hostQueue ↑fn ↑j) = some w → descField w.data 0 1 ≠ 0) ∧ (c ∈ [(1, Instr.inline fn j), (3, Instr.devBuf fn j)]) ∧ (c.fst = op)) ∧
    (∃ (s : State) (fn : Fin 16) (j : Fin 16) (q : SubQueue) (d : List Byte) (b : Bool) (rest : List (List Byte × Bool)) (u : State) (cell : Nat) (since : Nat) (bs : List Byte), (q = s.sub ↑fn ↑j) ∧ (q.fetched = (d, b) :: rest) ∧ (u = s.popDesc ↑fn ↑j) ∧ (descField d 0 1 = 2) ∧ (q.phase = BufPhase.reading cell since) ∧ (bs.length = descField d 4 4) ∧ (s.poison = []) ∧ (cell + bs.length ≤ hbmBytes)) :=
  ⟨⟨on (up60 ++ [(R.HIF_Fn_Qj_SIZE_LOG2 0 0, 4)]), 0, 0, _, _, _, 15, ⟨⟨by decide +kernel, by decide +kernel⟩, by unfold Crosses; decide +kernel⟩, rfl, rfl, rfl, by decide +kernel, by decide +kernel, by decide +kernel⟩,
   ⟨{ State.reset with subs := [(272, { SubQueue.init with fetch := some (1, 0) })] }, 0, 0, _, 1, 0, [List.replicate 32 0], rfl, by decide +kernel, by decide +kernel, by decide +kernel⟩,
   ⟨on (up60 ++ [(R.HIF_CTRL_ENABLE, 1), (R.BPM_Qq_CFG_ENABLE 272, 1), (R.HIF_Fn_Qj_CFG_MODE 0 0, 1)]), 0, 0, _, rfl, ⟨⟨by decide +kernel, by decide +kernel⟩, by unfold Crosses; decide +kernel⟩, by decide +kernel, by decide +kernel⟩,
   ⟨withDesc (desc32 0 0) (.none) [(R.BPM_Qq_DEPTH_WORDS 272, 8)], 0, 0, _, desc32 0 0, false, [], _, _, _, 0, rfl, by decide +kernel, rfl, by decide +kernel, by decide +kernel, Prod.ext rfl (by decide +kernel), by decide +kernel, rfl, by decide +kernel⟩,
   ⟨withDesc (desc32 1 0) (.none) [(R.BPM_Qq_DEPTH_WORDS 272, 8)], 0, 0, _, desc32 1 0, false, [], _, 1, _, _, (1, .inline 0 0), rfl, by decide +kernel, rfl, by decide +kernel, Prod.ext rfl (by decide +kernel), by decide +kernel, by decide +kernel, by decide +kernel, by decide +kernel⟩,
   ⟨{ withDesc ([2, 0, 0, 0, 1] ++ List.replicate 27 0) (.reading 0x1000 0) [] with cycle := 0 }, 0, 0, _, [2, 0, 0, 0, 1] ++ List.replicate 27 0, false, [], _, 0x1000, 0, [7], rfl, by decide +kernel, rfl, by decide +kernel, by decide +kernel, by decide +kernel, by decide +kernel, by decide +kernel⟩⟩

/-- The premises of `Obligations.HostQueuesRunTheirDescriptors` can be met: freeCell, rxBuf, frameTx, firmware, cqEntryWrite, headWrite. -/
theorem witness_HostQueuesRunTheirDescriptors_2 :
    (∃ (s : State) (fn : Fin 16) (j : Fin 16) (q : SubQueue) (d : List Byte) (b : Bool) (rest : List (List Byte × Bool)) (u : State) (v : State) (code : Nat), (q = s.sub ↑fn ↑j) ∧ (q.fetched = (d, b) :: rest) ∧ (u = s.popDesc ↑fn ↑j) ∧ (descField d 0 1 = 4) ∧ (s.returnCell (Sender.host ↑fn) (descField d 16 8) = (v, code))) ∧
    (∃ (s : State) (fn : Fin 16) (j : Fin 16) (q : SubQueue) (d : List Byte) (b : Bool) (rest : List (List Byte × Bool)) (u : State), (q = s.sub ↑fn ↑j) ∧ (q.fetched = (d, b) :: rest) ∧ (u = s.popDesc ↑fn ↑j) ∧ (descField d 0 1 = 5) ∧ ((s.cpl ↑fn ↑j).rx.length < 256)) ∧
    (∃ (s : State) (fn : Fin 16) (j : Fin 16) (q : SubQueue) (w : QWord) (v : State), (q = s.sub ↑fn ↑j) ∧ (s.peekWord (hostQueue ↑fn ↑j) = some w) ∧ ((s.readWord (hostQueue ↑fn ↑j)).fst = v) ∧ (descField w.data 2 1 = 1)) ∧
    (∃ (s : State) (fn : Fin 16) (j : Fin 16) (q : SubQueue) (w : QWord) (v : State) (st : BitVec 8), (q = s.sub ↑fn ↑j) ∧ (s.peekWord (hostQueue ↑fn ↑j) = some w) ∧ ((s.readWord (hostQueue ↑fn ↑j)).fst = v) ∧ (∀ (x : State) (y : QWord), x.queue (hostQueue ↑fn ↑j) = v.queue (hostQueue ↑fn ↑j) → x.peekWord (hostQueue ↑fn ↑j) = some y → descField y.data 0 1 ≠ 0) ∧ (descField w.data 2 1 = 3) ∧ (St.listed st.toNat = true ∨ st.toNat = St.unitFenced ∧ s.get R.SQL_FENCED_UNITS_COUNT ≠ 0)) ∧
    (∃ (s : State) (fn : Fin 16) (k : Fin 16) (q : CplQueue) (size : Nat) (tail : Nat) (w : QWord) (v : State), (q = s.cpl ↑fn ↑k) ∧ (size = 2 ^ s.get (R.HIF_Fn_Qj_SIZE_LOG2 (↑fn) (16 + ↑k))) ∧ (tail = s.get (R.HIF_Fn_Qj_TAIL_ENTRY (↑fn) (16 + ↑k))) ∧ (s.serves (↑fn) (16 + ↑k) = true) ∧ ((tail + 1) % size ≠ s.get (R.HIF_Fn_Qj_HEAD_ENTRY (↑fn) (16 + ↑k)) % size) ∧ (s.peekWord (hostQueue (↑fn) (16 + ↑k)) = some w) ∧ ((s.readWord (hostQueue (↑fn) (16 + ↑k))).fst = v) ∧ (descField w.data 0 1 = 1)) ∧
    (∃ (s : State) (fn : Fin 16) (k : Fin 16) (q : CplQueue) (size : Nat) (tail : Nat), (q = s.cpl ↑fn ↑k) ∧ (size = 2 ^ s.get (R.HIF_Fn_Qj_SIZE_LOG2 (↑fn) (16 + ↑k))) ∧ (tail = s.get (R.HIF_Fn_Qj_TAIL_ENTRY (↑fn) (16 + ↑k))) ∧ (Serves s (Sender.host ↑fn) (R.HIF_Fn_Qj_HEAD_ENTRY (↑fn) (16 + ↑k)).addr)) :=
  ⟨⟨withDesc (desc32 4 0) (.none) [], 0, 0, _, desc32 4 0, false, [], _, ((withDesc (desc32 4 0) (.none) []).returnCell (.host 0) 0).1, St.badPointer, rfl, by decide +kernel, rfl, by decide +kernel, by decide +kernel⟩,
   ⟨withDesc (desc32 5 0) (.none) [], 0, 0, _, desc32 5 0, false, [], _, rfl, by decide +kernel, rfl, by decide +kernel, by decide +kernel⟩,
   ⟨withWord 0 (desc32 1 1) [], 0, 0, _, word (desc32 1 1), _, rfl, by decide +kernel, rfl, by decide +kernel⟩,
   ⟨withWord 0 (desc32 1 3) [], 0, 0, _, word (desc32 1 3), _, 0, rfl, by decide +kernel, rfl, fun _ _ hx hp => none_absurd (peek_empty hx (by decide +kernel)) hp, by decide +kernel, by decide +kernel⟩,
   ⟨withWord 16 (desc32 1 0) [(R.HIF_Fn_Qj_SIZE_LOG2 0 16, 4)], 0, 0, _, _, _, word (desc32 1 0), _, rfl, rfl, rfl, by decide +kernel, by decide +kernel, by decide +kernel, rfl, by decide +kernel⟩,
   ⟨on up60, 0, 0, _, _, _, rfl, rfl, rfl, ⟨⟨by decide +kernel, by decide +kernel⟩, by unfold Crosses; decide +kernel⟩⟩⟩

/-- The premises of `Obligations.HostQueuesRunTheirDescriptors` can be met: cqCoalesceTimer, hostQueueDisable, cplTimeout. -/
theorem witness_HostQueuesRunTheirDescriptors_3 :
    (∃ (s : State) (fn : Fin 16) (k : Fin 16) (q : CplQueue) (size : Nat) (tail : Nat) (a : Nat) (as : List Nat), (q = s.cpl ↑fn ↑k) ∧ (size = 2 ^ s.get (R.HIF_Fn_Qj_SIZE_LOG2 (↑fn) (16 + ↑k))) ∧ (tail = s.get (R.HIF_Fn_Qj_TAIL_ENTRY (↑fn) (16 + ↑k))) ∧ (q.waiting = a :: as) ∧ (s.get (R.HIF_Fn_Qj_COAL_US (↑fn) (16 + ↑k)) ≠ 0) ∧ (q.aged = false) ∧ (a + s.get (R.HIF_Fn_Qj_COAL_US (↑fn) (16 + ↑k)) * 1500 ≤ s.cycle)) ∧
    (∃ (s : State) (fn : Fin 16) (j : Fin 32), (Serves s (Sender.host ↑fn) (R.HIF_Fn_Qj_CFG_MODE ↑fn ↑j).addr) ∧ (s.serves ↑fn ↑j = true) ∧ (↑j < 16)) ∧
    (∃ (s : State) (fn : Fin 16) (j : Fin 16) (q : SubQueue) (d : List Byte) (b : Bool) (rest : List (List Byte × Bool)) (u : State) (cell : Nat) (since : Nat), (q = s.sub ↑fn ↑j) ∧ (q.fetched = (d, b) :: rest) ∧ (u = s.popDesc ↑fn ↑j) ∧ (descField d 0 1 = 2) ∧ (q.phase = BufPhase.reading cell since) ∧ (since + s.get R.HIF_CPL_TIMEOUT_MS * 1500000 ≤ s.cycle)) :=
  ⟨⟨{ on [(R.HIF_Fn_Qj_COAL_US 0 16, 1)] with cycle := 1500, cpls := [(288, { CplQueue.init with waiting := [0] })] }, 0, 0, _, _, _, 0, [], rfl, rfl, rfl, by decide +kernel, by decide +kernel, by decide +kernel, by decide +kernel⟩,
   ⟨on (up60 ++ [(R.HIF_CTRL_ENABLE, 1), (R.BPM_Qq_CFG_ENABLE 272, 1)]), 0, 0, ⟨⟨by decide +kernel, by decide +kernel⟩, by unfold Crosses; decide +kernel⟩, by decide +kernel, by decide +kernel⟩,
   ⟨{ withDesc ([2, 0, 0, 0, 1] ++ List.replicate 27 0) (.reading 0x1000 0) [(R.HIF_CPL_TIMEOUT_MS, 1)] with cycle := 1500000 }, 0, 0, _, [2, 0, 0, 0, 1] ++ List.replicate 27 0, false, [], _, 0x1000, 0, rfl, by decide +kernel, rfl, by decide +kernel, by decide +kernel, by decide +kernel⟩⟩

/-- The premises of `Obligations.SessionsServeRequestsInOrder` can be met: gulterBlock, gulterOpen, auth, authTimeout, close, sessionIdleTimeout. -/
theorem witness_SessionsServeRequestsInOrder_1 :
    (∃ (s : State) (v : State) (fn : Fin 16) (j : Fin 16) (w : QWord), (s.peekWord (hostQueue ↑fn ↑j) = some w) ∧ ((s.readWord (hostQueue ↑fn ↑j)).fst = v) ∧ (descField w.data 2 1 = 2)) ∧
    (∃ (s : State) (h : GulHead) (fn : Fin 16) (body : List Byte), (h.path = GulPath.mailbox fn) ∧ (s.gulServes = true) ∧ ((s.replyQueue ↑fn).length < 16) ∧ (h.ver = 0) ∧ (h.flags = 0) ∧ (h.session = 0) ∧ (h.seq = 0) ∧ (body = []) ∧ (s.gul.sessions = [])) ∧
    (∃ (s : State) (u : State) (h : GulHead) (n : Nat) (g : GulSession) (body : List Byte), (s.arrive h 3 = Arrived.session u n g) ∧ (headOk h = true) ∧ (u.session n = some g) ∧ (g.isOpen = false) ∧ (h.seq = 1) ∧ (body.length = 129) ∧ (∀ (m : GulMsg), m ∈ g.replies → m.seq ≠ 1) ∧ (u.clientOf g body = none ∨ g.derive = none)) ∧
    (∃ (s : State) (b : BitVec 16) (n : Nat) (g : GulSession), (n = b.toNat) ∧ (s.session n = some g) ∧ (g.isOpen = false) ∧ (g.heard + 7500000000 ≤ s.cycle)) ∧
    (∃ (s : State) (u : State) (w : State) (h : GulHead) (n : Nat) (q : Nat) (g : GulSession) (k : GulSession), (q = BitVec.toNat h.seq) ∧ (k = { g with last := q }) ∧ (w = u.setSession n (some k)) ∧ (Heard s u h 5 n g)) ∧
    (∃ (s : State) (b : BitVec 16) (n : Nat) (g : GulSession), (n = b.toNat) ∧ (s.session n = some g) ∧ (g.isOpen = true) ∧ (g.heard + s.obj 2228227 0 60 * 1500000000 ≤ s.cycle)) :=
  ⟨⟨withWord 0 (desc32 1 2) [], _, 0, 0, word (desc32 1 2), by decide +kernel, rfl, by decide +kernel⟩,
   ⟨on up60, { head1 with session := 0, seq := 0 }, 0, _, by decide +kernel, by decide +kernel, by decide +kernel, by decide +kernel, by decide +kernel, by decide +kernel, by decide +kernel, rfl, by decide +kernel⟩,
   ⟨withGul { gul0 with isOpen := false }, withGul { gul0 with isOpen := false }, head1, 1, { gul0 with isOpen := false }, List.replicate 129 0, by decide +kernel, by decide +kernel, by decide +kernel, by decide +kernel, by decide +kernel, by decide +kernel, by decide +kernel, Or.inl (by decide +kernel)⟩,
   ⟨{ withGul { gul0 with isOpen := false } with cycle := 7500000000 }, 1, _, { gul0 with isOpen := false }, rfl, by decide +kernel, by decide +kernel, by decide +kernel⟩,
   ⟨withGul gul0, withGul gul0, _, head1, 1, _, gul0, _, rfl, rfl, rfl, ⟨by decide +kernel, by decide +kernel, by decide +kernel, by decide +kernel, by decide +kernel, by decide +kernel⟩⟩,
   ⟨{ withGul gul0 with cycle := 90000000000 }, 1, _, gul0, rfl, by decide +kernel, by decide +kernel, by decide +kernel⟩⟩

/-- The premises of `Obligations.SessionsServeRequestsInOrder` can be met: read, gulterWrite, blockBegin, blockSeg, blockEnd, blockTimeout. -/
theorem witness_SessionsServeRequestsInOrder_2 :
    (∃ (s : State) (u : State) (w : State) (h : GulHead) (n : Nat) (q : Nat) (g : GulSession) (k : GulSession) (a : ObjAddr) (e : Nat × Bool × List Byte), (q = BitVec.toNat h.seq) ∧ (k = { g with last := q }) ∧ (w = u.setSession n (some k)) ∧ (Heard s u h 6 n g) ∧ (e = w.readEntry n k a) ∧ ((readOctets e).length ≤ g.room - 1)) ∧
    (∃ (s : State) (u : State) (w : State) (h : GulHead) (n : Nat) (q : Nat) (g : GulSession) (k : GulSession) (v : Nat), (q = BitVec.toNat h.seq) ∧ (k = { g with last := q }) ∧ (w = u.setSession n (some k)) ∧ (Heard s u h 8 n g) ∧ (u.gul.waits = []) ∧ (g.role = 2) ∧ (u.bootStage = 96) ∧ (10 ≤ v) ∧ (v ≤ 3600)) ∧
    (∃ (s : State) (u : State) (w : State) (h : GulHead) (n : Nat) (q : Nat) (g : GulSession) (k : GulSession) (a : ObjAddr) (r : ObjRow), (q = BitVec.toNat h.seq) ∧ (k = { g with last := q }) ∧ (w = u.setSession n (some k)) ∧ (Heard s u h 10 n g) ∧ (g.block = none) ∧ (w.objCheck k a true = Except.ok r) ∧ (r.ty.size = none)) ∧
    (∃ (s : State) (u : State) (w : State) (h : GulHead) (n : Nat) (q : Nat) (g : GulSession) (k : GulSession) (b : GulBlock) (bs : List Byte), (q = BitVec.toNat h.seq) ∧ (k = { g with last := q }) ∧ (w = u.setSession n (some k)) ∧ (Heard s u h 11 n g) ∧ (g.block = some b) ∧ (b.read = false) ∧ (g.path = GulPath.management) ∧ (1 ≤ bs.length) ∧ (bs.length ≤ 1024)) ∧
    (∃ (s : State) (u : State) (w : State) (h : GulHead) (n : Nat) (q : Nat) (g : GulSession) (k : GulSession) (c : Word) (b : GulBlock), (q = BitVec.toNat h.seq) ∧ (k = { g with last := q }) ∧ (w = u.setSession n (some k)) ∧ (Heard s u h 12 n g) ∧ (g.block = some b) ∧ (b.read = false) ∧ (b.whole = false ∨ crc32cFull (b.take 0 b.total) ≠ BitVec.toNat c)) ∧
    (∃ (s : State) (b : BitVec 16) (n : Nat) (g : GulSession) (k : GulBlock), (n = b.toNat) ∧ (s.session n = some g) ∧ (g.block = some k) ∧ (k.lastAt + 7500000000 ≤ s.cycle)) :=
  ⟨⟨withGul gul0, withGul gul0, _, head1, 1, _, gul0, _, ⟨0x2200, 3, 0⟩, _, rfl, rfl, rfl, ⟨by decide +kernel, by decide +kernel, by decide +kernel, by decide +kernel, by decide +kernel, by decide +kernel⟩, rfl, by decide +kernel⟩,
   ⟨withGul gul0, withGul gul0, _, head1, 1, _, gul0, _, 3600, rfl, rfl, rfl, ⟨by decide +kernel, by decide +kernel, by decide +kernel, by decide +kernel, by decide +kernel, by decide +kernel⟩, by decide +kernel, by decide +kernel, by decide +kernel, by decide +kernel, by decide +kernel⟩,
   ⟨withGul gul0, withGul gul0, _, head1, 1, _, gul0, _, ⟨0x2000, 5, 0⟩, ⟨0x200005, .one, .octets, .rwd, 4, 4, .text (List.replicate 4 0)⟩, rfl, rfl, rfl, ⟨by decide +kernel, by decide +kernel, by decide +kernel, by decide +kernel, by decide +kernel, by decide +kernel⟩, by decide +kernel, objCheck_of 0x200005 (by decide) rfl (by decide +kernel) (by decide +kernel), by decide +kernel⟩,
   ⟨withPort { port0 with block := some ⟨0x200005, 0, false, 4, [], 0⟩ }, withPort (port1 { port0 with block := some ⟨0x200005, 0, false, 4, [], 0⟩ }), _, { head1 with path := .management }, 1, _, port1 { port0 with block := some ⟨0x200005, 0, false, 4, [], 0⟩ }, _, ⟨0x200005, 0, false, 4, [], 0⟩, [7], rfl, rfl, rfl, ⟨by decide +kernel, by decide +kernel, by decide +kernel, by decide +kernel, by decide +kernel, by decide +kernel⟩, by decide +kernel, by decide +kernel, by decide +kernel, by decide +kernel, by decide +kernel⟩,
   ⟨withGul ({ gul0 with block := some ⟨0x200005, 0, false, 4, [], 0⟩ }), withGul ({ gul0 with block := some ⟨0x200005, 0, false, 4, [], 0⟩ }), _, head1, 1, _, { gul0 with block := some ⟨0x200005, 0, false, 4, [], 0⟩ }, _, 0, ⟨0x200005, 0, false, 4, [], 0⟩, rfl, rfl, rfl, ⟨by decide +kernel, by decide +kernel, by decide +kernel, by decide +kernel, by decide +kernel, by decide +kernel⟩, by decide +kernel, by decide +kernel, by decide +kernel⟩,
   ⟨{ withGul { gul0 with block := some ⟨0x200005, 0, false, 4, [], 0⟩ } with cycle := 7500000000 }, 1, _, { gul0 with block := some ⟨0x200005, 0, false, 4, [], 0⟩ }, ⟨0x200005, 0, false, 4, [], 0⟩, rfl, by decide +kernel, by decide +kernel, by decide +kernel⟩⟩

/-- The premises of `Obligations.SessionsServeRequestsInOrder` can be met: subscribe, unsubscribe, subscriptionSample, notifyResend, notifyAck, keepalive. -/
theorem witness_SessionsServeRequestsInOrder_3 :
    (∃ (s : State) (u : State) (w : State) (h : GulHead) (n : Nat) (q : Nat) (g : GulSession) (k : GulSession) (a : ObjAddr) (r : ObjRow), (q = BitVec.toNat h.seq) ∧ (k = { g with last := q }) ∧ (w = u.setSession n (some k)) ∧ (Heard s u h 14 n g) ∧ (a.inst ≠ 65535) ∧ (w.objCheck k a false = Except.ok r) ∧ (w.objServed r = true) ∧ ((List.filter (fun b : GulSub => b.session == n) u.gul.subs).length < 64) ∧ (u.gul.subs.length < 512)) ∧
    (∃ (s : State) (u : State) (w : State) (h : GulHead) (n : Nat) (q : Nat) (g : GulSession) (k : GulSession) (id : BitVec 16), (q = BitVec.toNat h.seq) ∧ (k = { g with last := q }) ∧ (w = u.setSession n (some k)) ∧ (Heard s u h 16 n g) ∧ (∃ b, b ∈ u.gul.subs ∧ b.id = id.toNat ∧ b.session = n)) ∧
    (∃ (s : State) (id : BitVec 16) (b : GulSub) (g : GulSession) (r : ObjRow) (v : List Byte), (s.gul.subs = [b]) ∧ (b.id = id.toNat) ∧ (s.gulServes = true) ∧ (b.nextAt ≤ s.cycle) ∧ (s.session b.session = some g) ∧ (objRow b.obj = some r) ∧ (g.role = 2) ∧ (b.inst ≠ 65535) ∧ (s.instanceExists r b.inst = true) ∧ (b.periodic = false) ∧ (v = (s.setWatch { id := b.id, session := b.session, obj := b.obj, inst := b.inst, periodic := b.periodic, periodMs := b.periodMs, nextAt := b.nextAt + 15000000, sent := b.sent }).readObj b.session r b.inst) ∧ (SMap.get none b.sent b.inst = some v)) ∧
    (∃ (s : State) (b : BitVec 16) (n : Nat) (g : GulSession) (w : GulNote), (n = b.toNat) ∧ (s.session n = some g) ∧ (s.gulServes = true) ∧ (g.notes = [w]) ∧ (w.lastAt + 375000000 ≤ s.cycle) ∧ (w.sends < 8)) ∧
    (∃ (s : State) (u : State) (h : GulHead) (n : Nat) (g : GulSession) (q : Word) (x : GulNote), (headOk h = true) ∧ (g.isOpen = true) ∧ (u.session n = some g) ∧ (s.arrive h 18 = Arrived.session u n g) ∧ (g.path = GulPath.management) ∧ (g.notes = [x]) ∧ (x.msg.seq = BitVec.toNat q) ∧ (x.newer = false)) ∧
    (∃ (s : State) (u : State) (w : State) (h : GulHead) (n : Nat) (q : Nat) (g : GulSession) (k : GulSession), (q = BitVec.toNat h.seq) ∧ (k = { g with last := q }) ∧ (w = u.setSession n (some k)) ∧ (Heard s u h 19 n g)) :=
  ⟨⟨withGul gul0, withGul gul0, _, head1, 1, _, gul0, _, ⟨0x2000, 5, 0⟩, ⟨0x200005, .one, .octets, .rwd, 4, 4, .text (List.replicate 4 0)⟩, rfl, rfl, rfl, ⟨by decide +kernel, by decide +kernel, by decide +kernel, by decide +kernel, by decide +kernel, by decide +kernel⟩, by decide +kernel, objCheck_of 0x200005 (by decide) rfl (by decide +kernel) (by decide +kernel), by decide +kernel, by decide +kernel, by decide +kernel⟩,
   ⟨{ withGul gul0 with gul := { State.reset.gul with sessions := [(1, some gul0)], subs := [⟨3, 1, 0x200005, 0, false, 100, 0, []⟩] } }, { withGul gul0 with gul := { State.reset.gul with sessions := [(1, some gul0)], subs := [⟨3, 1, 0x200005, 0, false, 100, 0, []⟩] } }, _, head1, 1, _, gul0, _, 3, rfl, rfl, rfl, ⟨by decide +kernel, by decide +kernel, by decide +kernel, by decide +kernel, by decide +kernel, by decide +kernel⟩, ⟨⟨3, 1, 0x200005, 0, false, 100, 0, []⟩, by decide +kernel, rfl, rfl⟩⟩,
   ⟨{ withGul gul0 with gul := { State.reset.gul with sessions := [(1, some gul0)], subs := [⟨3, 1, 0x200005, 0, false, 100, 0, [(0, some (List.replicate 4 0))]⟩] } }, 3, ⟨3, 1, 0x200005, 0, false, 100, 0, [(0, some (List.replicate 4 0))]⟩, gul0, ⟨0x200005, .one, .octets, .rwd, 4, 4, .text (List.replicate 4 0)⟩, _, by decide +kernel, by decide +kernel, by decide +kernel, by decide +kernel, by decide +kernel, rfl, by decide +kernel, by decide +kernel, by decide +kernel, by decide +kernel, rfl, by decide +kernel⟩,
   ⟨{ withGul { gul0 with notes := [⟨⟨17, 1, 0, 0, []⟩, 1, 0, 1, 0, false⟩] } with cycle := 375000000 }, 1, _, { gul0 with notes := [⟨⟨17, 1, 0, 0, []⟩, 1, 0, 1, 0, false⟩] }, ⟨⟨17, 1, 0, 0, []⟩, 1, 0, 1, 0, false⟩, rfl, by decide +kernel, by decide +kernel, by decide +kernel, by decide +kernel, by decide +kernel⟩,
   ⟨withPort { port0 with notes := [⟨⟨17, 5, 0, 0, []⟩, 1, 0, 1, 0, false⟩] }, withPort (port1 { port0 with notes := [⟨⟨17, 5, 0, 0, []⟩, 1, 0, 1, 0, false⟩] }), { head1 with path := .management }, 1, port1 { port0 with notes := [⟨⟨17, 5, 0, 0, []⟩, 1, 0, 1, 0, false⟩] }, 5, ⟨⟨17, 5, 0, 0, []⟩, 1, 0, 1, 0, false⟩, by decide +kernel, by decide +kernel, by decide +kernel, by decide +kernel, by decide +kernel, by decide +kernel, by decide +kernel, by decide +kernel⟩,
   ⟨withGul gul0, withGul gul0, _, head1, 1, _, gul0, _, rfl, rfl, rfl, ⟨by decide +kernel, by decide +kernel, by decide +kernel, by decide +kernel, by decide +kernel, by decide +kernel⟩⟩⟩

/-- The premises of `Obligations.SessionsServeRequestsInOrder` can be met: seqGapTimeout, sessionCloseAll. -/
theorem witness_SessionsServeRequestsInOrder_4 :
    (∃ (s : State) (b : BitVec 16) (n : Nat) (g : GulSession) (c : Nat), (n = b.toNat) ∧ (s.session n = some g) ∧ (g.held = [(g.last + 2, c, GulReq.keepalive)]) ∧ (g.last + 2 < 2 ^ 32) ∧ (c + 3000000000 ≤ s.cycle)) ∧
    (∃ (s : State) (u : State) (w : State) (h : GulHead) (n : Nat) (q : Nat) (g : GulSession) (k : GulSession), (q = BitVec.toNat h.seq) ∧ (k = { g with last := q }) ∧ (w = u.setSession n (some k)) ∧ (Heard s u h 8 n g) ∧ (u.gul.waits = []) ∧ (g.role = 2) ∧ (u.bootStage = 96)) :=
  ⟨⟨{ withGul { gul0 with held := [(2, 0, .keepalive)] } with cycle := 3000000000 }, 1, _, { gul0 with held := [(2, 0, .keepalive)] }, 0, rfl, by decide +kernel, by decide +kernel, by decide +kernel, by decide +kernel⟩,
   ⟨withGul gul0, withGul gul0, _, head1, 1, _, gul0, _, rfl, rfl, rfl, ⟨by decide +kernel, by decide +kernel, by decide +kernel, by decide +kernel, by decide +kernel, by decide +kernel⟩, by decide +kernel, by decide +kernel, by decide +kernel⟩⟩

/-- The premises of `Obligations.MailboxesCarryWholeMessages` can be met: mbxClaim, mbxDataWrite/send, mbxClaimTimeout, mbxInternalWrite, mbxRelease, dblSet. -/
theorem witness_MailboxesCarryWholeMessages_1 :
    (∃ (s : State) (b : State) (fn : Fin 16) (c : Nat), (Serves s (Sender.host ↑fn) R.MBX_CLAIM_VALID.addr) ∧ (b = s.beforeClaim ↑fn) ∧ (c < 64) ∧ (s.isSet R.MBX_CTRL_ENABLE = true) ∧ (s.mbxFull c = false) ∧ (b.claimable (↑fn) c = true) ∧ (∀ (d : Nat), d < c → b.claimable (↑fn) d = false)) ∧
    (∃ (s : State) (fn : Fin 16) (ch : Fin 64) (i : Fin 16) (v : Word) (cause : Nat) (c : Instr), (Serves s (Sender.host ↑fn) (R.MBX_CHc_DATA_DATA ↑ch ↑i).addr) ∧ (Serves s (Sender.host ↑fn) (R.MBX_CHc_CTRL_SEND ↑ch).addr) ∧ (s.seesChannel ↑fn ↑ch = true) ∧ ((s.fn ↑fn).exists_ = true) ∧ (s.claimDue ↑ch = false) ∧ (s.isFenced Unit.mbx ↑ch = true ∧ cause = St.unitFenced ∨ s.isFenced Unit.mbx ↑ch = false ∧ s.recvClass ↑ch = 0 ∧ cause = St.mbxHostBound ∨ s.isFenced Unit.mbx ↑ch = false ∧ s.recvClass ↑ch ≠ 0 ∧ (s.chan ↑ch).lapsedBy = some ↑fn ∧ cause = St.mbxLapsed ∨ s.isFenced Unit.mbx ↑ch = false ∧ s.recvClass ↑ch ≠ 0 ∧ (s.chan ↑ch).lapsedBy ≠ some ↑fn ∧ (s.mbxClaimed ↑ch = false ∨ s.get (R.MBX_CHc_STAT_CLAIMER ↑ch) ≠ ↑fn) ∧ cause = St.mbxNotOwner) ∧ (c ∈ [Instr.mbxDataWrite fn ch i v, Instr.send fn ch CheckResult.pass])) ∧
    (∃ (s : State) (ch : Fin 64), s.claimDue ↑ch = true) ∧
    (∃ (s : State) (ch : Fin 64) (who : Sender), (s.claimDue ↑ch = false) ∧ (s.cutOff who = false) ∧ (s.isSet R.MBX_CTRL_ENABLE = true) ∧ (s.isFenced Unit.mbx ↑ch = false) ∧ (s.mbxFull ↑ch = true ∨ s.mbxClaimed ↑ch = true)) ∧
    (∃ (s : State) (ch : Fin 64) (fn : Fin 16) (a : Nat), ((s.fn ↑fn).exists_ = true) ∧ (a = (R.MBX_CHc_DATA_DATA (↑ch) 15).addr) ∧ (s.cutOff (Sender.host ↑fn) = false) ∧ (s.get (R.MBX_CHc_CFG_RECV ↑ch) = ↑fn) ∧ (s.mbxFull ↑ch = true)) ∧
    (∃ (s : State) (fn : Fin 16) (w : Fin 8) (bits : Word) (b : Nat), (Serves s (Sender.host ↑fn) (R.DBL_SET_SET ↑w).addr) ∧ ((s.fn ↑fn).exists_ = true) ∧ (b < 32) ∧ (BitVec.toNat bits = 2 ^ b) ∧ (4 ≤ ↑w ∨ ↑fn ≠ 0 ∧ (32 * ↑w + b) / 8 ≠ ↑fn)) :=
  ⟨⟨on (up60 ++ [(R.MBX_CTRL_ENABLE, 1), (R.MBX_CHc_CFG_RECV 0, 4096), (R.MBX_CHc_CFG_HOST_MASK 0, 1), (R.MBX_CLAIM_TO_US, 10)]), _, 0, 0, ⟨⟨by decide +kernel, by decide +kernel⟩, by unfold Crosses; decide +kernel⟩, rfl, by decide +kernel, by decide +kernel, by decide +kernel, by decide +kernel, by decide +kernel⟩,
   ⟨on (up60 ++ [(R.MBX_CTRL_ENABLE, 1), (R.MBX_CHc_CFG_RECV 0, 4096), (R.MBX_CHc_CFG_HOST_MASK 0, 1), (R.MBX_CLAIM_TO_US, 10)]), 0, 0, 0, 0, St.mbxNotOwner, .mbxDataWrite 0 0 0 0, ⟨⟨by decide +kernel, by decide +kernel⟩, by unfold Crosses; decide +kernel⟩, ⟨⟨by decide +kernel, by decide +kernel⟩, by unfold Crosses; decide +kernel⟩, by decide +kernel, by decide +kernel, by decide +kernel, by decide +kernel, List.mem_cons_self⟩,
   ⟨{ on (up60 ++ [(R.MBX_CTRL_ENABLE, 1), (R.MBX_CHc_CFG_RECV 0, 4096), (R.MBX_CHc_CFG_HOST_MASK 0, 1), (R.MBX_CLAIM_TO_US, 10), (R.MBX_CHc_STAT_CLAIMED 0, 1)]) with cycle := 15000 }, 0, by decide +kernel⟩,
   ⟨on (up60 ++ [(R.MBX_CTRL_ENABLE, 1), (R.MBX_CHc_CFG_RECV 0, 4096), (R.MBX_CHc_CFG_HOST_MASK 0, 1), (R.MBX_CLAIM_TO_US, 10), (R.MBX_CHc_STAT_CLAIMED 0, 1)]), 0, .control 0, by decide +kernel, by decide +kernel, by decide +kernel, by decide +kernel, by decide +kernel⟩,
   ⟨on (up60 ++ [(R.MBX_CHc_CFG_RECV 0, 0), (R.MBX_CHc_STAT_FULL 0, 1)]), 0, 0, _, by decide +kernel, rfl, by decide +kernel, by decide +kernel, by decide +kernel⟩,
   ⟨on (up60 ++ []), 0, 4, 0x80000000, 31, ⟨⟨by decide +kernel, by decide +kernel⟩, by unfold Crosses; decide +kernel⟩, by decide +kernel, by decide +kernel, by decide +kernel, by decide +kernel⟩⟩

/-- The premises of `Obligations.MailboxesCarryWholeMessages` can be met: dblInternalSet, dblStatClear, mbxDataWriteStaged, sendTaken, dblSetRings. -/
theorem witness_MailboxesCarryWholeMessages_2 :
    (∃ (s : State) (who : Sender) (b : Fin 128), (s.cutOff who = false) ∧ (s.doorbell (128 + ↑b) = false)) ∧
    (∃ (s : State) (who : Sender) (w : Fin 8), Serves s who (R.DBL_STAT_BITS ↑w).addr) ∧
    (∃ (s : State) (fn : Fin 16) (ch : Fin 64) (i : Fin 16), (Serves s (Sender.host ↑fn) (R.MBX_CHc_DATA_DATA ↑ch ↑i).addr) ∧ (Serves s (Sender.host ↑fn) (R.MBX_CHc_CTRL_SEND ↑ch).addr) ∧ (s.seesChannel ↑fn ↑ch = true) ∧ ((s.fn ↑fn).exists_ = true) ∧ (s.claimDue ↑ch = false) ∧ (s.isFenced Unit.mbx ↑ch = false) ∧ (s.recvClass ↑ch ≠ 0) ∧ ((s.chan ↑ch).lapsedBy ≠ some ↑fn) ∧ (s.mbxClaimed ↑ch = true) ∧ (s.get (R.MBX_CHc_STAT_CLAIMER ↑ch) = ↑fn)) ∧
    (∃ (s : State) (fn : Fin 16) (ch : Fin 64) (i : Fin 16), (Serves s (Sender.host ↑fn) (R.MBX_CHc_DATA_DATA ↑ch ↑i).addr) ∧ (Serves s (Sender.host ↑fn) (R.MBX_CHc_CTRL_SEND ↑ch).addr) ∧ (s.seesChannel ↑fn ↑ch = true) ∧ ((s.fn ↑fn).exists_ = true) ∧ (s.claimDue ↑ch = false) ∧ (s.isFenced Unit.mbx ↑ch = false) ∧ (s.recvClass ↑ch ≠ 0) ∧ ((s.chan ↑ch).lapsedBy ≠ some ↑fn) ∧ (s.mbxClaimed ↑ch = true) ∧ (s.get (R.MBX_CHc_STAT_CLAIMER ↑ch) = ↑fn)) ∧
    (∃ (s : State) (fn : Fin 16) (w : Fin 8) (bits : Word) (b : Nat), (Serves s (Sender.host ↑fn) (R.DBL_SET_SET ↑w).addr) ∧ ((s.fn ↑fn).exists_ = true) ∧ (b < 32) ∧ (BitVec.toNat bits = 2 ^ b) ∧ (↑w < 4) ∧ (↑fn = 0 ∨ (32 * ↑w + b) / 8 = ↑fn) ∧ (s.doorbell (32 * ↑w + b) = false)) :=
  ⟨⟨State.reset, .control 0, 0, by decide +kernel, by decide +kernel⟩,
   ⟨State.reset, .control 0, 0, ⟨⟨by decide +kernel, by decide +kernel⟩, by unfold Crosses; decide +kernel⟩⟩,
   ⟨on (up60 ++ [(R.MBX_CTRL_ENABLE, 1), (R.MBX_CHc_CFG_RECV 0, 4096), (R.MBX_CHc_CFG_HOST_MASK 0, 1), (R.MBX_CLAIM_TO_US, 10), (R.MBX_CHc_STAT_CLAIMED 0, 1)]), 0, 0, 15, ⟨⟨by decide +kernel, by decide +kernel⟩, by unfold Crosses; decide +kernel⟩, ⟨⟨by decide +kernel, by decide +kernel⟩, by unfold Crosses; decide +kernel⟩, by decide +kernel, by decide +kernel, by decide +kernel, by decide +kernel, by decide +kernel, by decide +kernel, by decide +kernel, by decide +kernel⟩,
   ⟨on (up60 ++ [(R.MBX_CTRL_ENABLE, 1), (R.MBX_CHc_CFG_RECV 0, 4096), (R.MBX_CHc_CFG_HOST_MASK 0, 1), (R.MBX_CLAIM_TO_US, 10), (R.MBX_CHc_STAT_CLAIMED 0, 1)]), 0, 0, 0, ⟨⟨by decide +kernel, by decide +kernel⟩, by unfold Crosses; decide +kernel⟩, ⟨⟨by decide +kernel, by decide +kernel⟩, by unfold Crosses; decide +kernel⟩, by decide +kernel, by decide +kernel, by decide +kernel, by decide +kernel, by decide +kernel, by decide +kernel, by decide +kernel, by decide +kernel⟩,
   ⟨on (up60 ++ []), 0, 3, 0x80000000, 31, ⟨⟨by decide +kernel, by decide +kernel⟩, by unfold Crosses; decide +kernel⟩, by decide +kernel, by decide +kernel, by decide +kernel, by decide +kernel, by decide +kernel, by decide +kernel⟩⟩

/-- The premises of `Obligations.SupplyAndResetsStartTheDeviceAnew` can be met: powerOn, railsInRegulation, rampTimeout, vinLow, powerOff, railFault. -/
theorem witness_SupplyAndResetsStartTheDeviceAnew_1 :
    (∃ (s : State), (s.boot.burns = []) ∧ (s.boot.supply = Supply.off)) ∧
    (∃ (s : State), s.boot.supply = Supply.ramp) ∧
    (∃ (s : State), (s.boot.burns = []) ∧ (s.boot.supply = Supply.ramp) ∧ (15000000 ≤ s.cycle)) ∧
    (∃ (s : State), s.boot.supply = Supply.run) ∧
    (∃ (s : State), s.boot.burns = []) ∧
    (∃ (s : State), (s.boot.burns = []) ∧ (s.boot.supply = Supply.run)) :=
  ⟨⟨{ State.reset with boot := { State.reset.boot with supply := .off } }, by decide +kernel, by decide +kernel⟩,
   ⟨State.reset, by decide +kernel⟩,
   ⟨{ State.reset with cycle := 15000000 }, by decide +kernel, by decide +kernel, by decide +kernel⟩,
   ⟨{ State.reset with boot := { State.reset.boot with supply := .run } }, by decide +kernel⟩,
   ⟨State.reset, by decide +kernel⟩,
   ⟨{ State.reset with boot := { State.reset.boot with supply := .run } }, by decide +kernel, by decide +kernel⟩⟩

/-- The premises of `Obligations.SupplyAndResetsStartTheDeviceAnew` can be met: perstNFall, perstNRise, reset, deviceReset, fwWatchdog, kick. -/
theorem witness_SupplyAndResetsStartTheDeviceAnew_2 :
    (∃ (s : State), (s.boot.supply = Supply.run) ∧ (s.boot.perst = true) ∧ (s.boot.burns = [])) ∧
    (∃ (s : State), (s.boot.supply = Supply.run) ∧ (s.boot.held = false ∨ s.coolEnough = false)) ∧
    (∃ (s : State) (who : Sender) (v : BitVec 16), (Serves s who R.FUS_CTRL_RESET.addr) ∧ (who = Sender.host 0) ∧ (v = 31495) ∧ (s.boot.supply = Supply.run) ∧ (s.bootStage ≠ 255) ∧ (s.bootStage ≠ 0) ∧ (s.coolEnough = true) ∧ (s.boot.burns = [])) ∧
    (∃ (s : State) (u : State) (h : GulHead) (n : Nat) (q : Nat) (g : GulSession), (q = BitVec.toNat h.seq) ∧ (Heard s u h 8 n g) ∧ (g.role = 2) ∧ (u.bootStage = 96) ∧ (u.gul.waits = []) ∧ (u.coolEnough = false)) ∧
    (∃ (s : State) (c : Nat), (s.boot.wd = some c) ∧ (c + 1500000000 ≤ s.cycle) ∧ (s.coolEnough = true) ∧ (s.boot.burns = [])) ∧
    (∃ (s : State) (who : Sender), (Serves s who R.FUS_FW_WD_KICK.addr) ∧ (∃ c, who = Sender.control c) ∧ (s.boot.wd ≠ none) ∧ (s.startLost = false)) :=
  ⟨⟨{ State.reset with boot := { State.reset.boot with supply := .run, perst := true } }, by decide +kernel, by decide +kernel, by decide +kernel⟩,
   ⟨{ State.reset with boot := { State.reset.boot with supply := .run } }, by decide +kernel, by decide +kernel⟩,
   ⟨{ on (up60 ++ [(R.UPD_TJ_CELSIUS, 40), (R.UPD_T_WARN_CELSIUS, 95)]) with boot := { State.reset.boot with supply := .run } }, .host 0, 31495, ⟨⟨by decide +kernel, by decide +kernel⟩, by unfold Crosses; decide +kernel⟩, by decide +kernel, by decide +kernel, by decide +kernel, by decide +kernel, by decide +kernel, by decide +kernel, by decide +kernel⟩,
   ⟨withGul gul0 [(R.UPD_TJ_CELSIUS, 95), (R.UPD_T_WARN_CELSIUS, 95)], withGul gul0 [(R.UPD_TJ_CELSIUS, 95), (R.UPD_T_WARN_CELSIUS, 95)], head1, 1, _, gul0, rfl, ⟨by decide +kernel, by decide +kernel, by decide +kernel, by decide +kernel, by decide +kernel, by decide +kernel⟩, by decide +kernel, by decide +kernel, by decide +kernel, by decide +kernel⟩,
   ⟨{ { on (up60 ++ [(R.UPD_TJ_CELSIUS, 40), (R.UPD_T_WARN_CELSIUS, 95)]) with boot := { State.reset.boot with wd := some 0 } } with cycle := 1500000000 }, 0, by decide +kernel, by decide +kernel, by decide +kernel, by decide +kernel⟩,
   ⟨{ State.reset with boot := { State.reset.boot with wd := some 0 } }, .control 0, ⟨⟨by decide +kernel, by decide +kernel⟩, by unfold Crosses; decide +kernel⟩, ⟨0, rfl⟩, by decide +kernel, by decide +kernel⟩⟩

/-- The premises of `Obligations.SupplyAndResetsStartTheDeviceAnew` can be met: deviceResetTaken. -/
theorem witness_SupplyAndResetsStartTheDeviceAnew_3 :
    ∃ (s : State) (u : State) (h : GulHead) (n : Nat) (q : Nat) (g : GulSession), (q = BitVec.toNat h.seq) ∧ (Heard s u h 8 n g) ∧ (g.role = 2) ∧ (u.bootStage = 96) ∧ (u.gul.waits = []) ∧ (u.coolEnough = true) ∧ (u.boot.burns = []) :=
  ⟨withGul gul0 [(R.UPD_TJ_CELSIUS, 94), (R.UPD_T_WARN_CELSIUS, 95)], withGul gul0 [(R.UPD_TJ_CELSIUS, 94), (R.UPD_T_WARN_CELSIUS, 95)], head1, 1, _, gul0, rfl, ⟨by decide +kernel, by decide +kernel, by decide +kernel, by decide +kernel, by decide +kernel, by decide +kernel⟩, by decide +kernel, by decide +kernel, by decide +kernel, by decide +kernel, by decide +kernel⟩

/-- The premises of `Obligations.StartUpRunsThroughItsStages` can be met: fuseSense, bankVerify, stage1Check, hbmReady, bringupComplete, rcvLoad. -/
theorem witness_StartUpRunsThroughItsStages_1 :
    (∃ (s : State) (r : Nat) (f : Nat), (s.boot.held = false) ∧ (s.bootStage = 16) ∧ (s.boot.supply = Supply.run) ∧ (r = s.bootRecord.fst.pref) ∧ (f = r % 2) ∧ (s.isSet (bankBad 0) = false) ∧ (s.isSet (bankBad 1) = false) ∧ (s.bootRecord.fst.trial ≠ 1)) ∧
    (∃ (s : State) (b : Nat) (rest : List Nat), (s.bootStage = 17) ∧ (s.boot.order = b :: rest) ∧ (s.isFenced Unit.link 0 = false) ∧ (s.bankCheck b s.ownerHash ≠ 0)) ∧
    (∃ (s : State) (b : Nat), (b = s.get R.FUS_BOOT_BANK) ∧ (s.bootStage = 32) ∧ (s.boot.window = true ∨ bodyOk (s.bankByte b) = true)) ∧
    (∃ (s : State), (s.bootStage = 64) ∧ (∀ (c : Nat), c < 4 → s.isFenced Unit.hbm c = false) ∧ (∀ (c : Nat), c < 4 → s.isSet (R.HBM_STATUS_READY c) = true)) ∧
    (∃ (s : State), (s.bootStage = 80) ∧ (s.isSet R.CPX_STATUS_RNG_READY = true)) ∧
    (∃ (s : State) (who : Sender) (c : Nat), (Serves s who R.FUS_RCV_CMD_OP.addr) ∧ (c = imageCheck s.rcvByte s.ownerHash (s.get R.FUS_BOOT_FLOOR)) ∧ (s.bootStage = 224) ∧ (c ≠ 0)) :=
  ⟨⟨{ on [(R.HIF_BOOT_STAGE_STAGE, 16)] with boot := { State.reset.boot with supply := .run, flash := [(imageMax, some 0), (bankSize + imageMax, some 0)] } }, _, _, by decide +kernel, by decide +kernel, by decide +kernel, rfl, rfl, by decide +kernel, by decide +kernel, by decide +kernel⟩,
   ⟨{ on [(R.HIF_BOOT_STAGE_STAGE, 17)] with boot := { State.reset.boot with order := [0, 1], flash := [(0, some 0)] } }, 0, [1], by decide +kernel, by decide +kernel, by decide +kernel, by decide +kernel⟩,
   ⟨{ on [(R.HIF_BOOT_STAGE_STAGE, 32)] with boot := { State.reset.boot with window := true } }, _, rfl, by decide +kernel, by decide +kernel⟩,
   ⟨on [(R.HIF_BOOT_STAGE_STAGE, 64), (R.HBM_STATUS_READY 0, 1), (R.HBM_STATUS_READY 1, 1), (R.HBM_STATUS_READY 2, 1), (R.HBM_STATUS_READY 3, 1)], by decide +kernel, by decide +kernel, by decide +kernel⟩,
   ⟨on [(R.HIF_BOOT_STAGE_STAGE, 80), (R.CPX_STATUS_RNG_READY, 1)], by decide +kernel, by decide +kernel⟩,
   ⟨on [(R.HIF_BOOT_STAGE_STAGE, 224)], .control 0, _, ⟨⟨by decide +kernel, by decide +kernel⟩, by unfold Crosses; decide +kernel⟩, rfl, by decide +kernel, by decide +kernel⟩⟩

/-- The premises of `Obligations.StartUpRunsThroughItsStages` can be met: rcvClear. -/
theorem witness_StartUpRunsThroughItsStages_2 :
    ∃ (s : State) (who : Sender) (c : Nat), (Serves s who R.FUS_RCV_CMD_OP.addr) ∧ (c = imageCheck s.rcvByte s.ownerHash (s.get R.FUS_BOOT_FLOOR)) ∧ (s.bootStage = 224) :=
  ⟨on [(R.HIF_BOOT_STAGE_STAGE, 224)], .control 0, _, ⟨⟨by decide +kernel, by decide +kernel⟩, by unfold Crosses; decide +kernel⟩, rfl, by decide +kernel⟩

/-- The premises of `Obligations.OnceSettingsAreBurntOnce` can be met: deviceIdentity/ownerKeyHash/rollbackFloor/trunkCipherLock/debugDisable, ownerTransferAuth, fuseBurnDone. -/
theorem witness_OnceSettingsAreBurntOnce :
    (∃ (s : State) (u : State) (h : GulHead) (n : Nat) (q : Nat) (g : GulSession) (x : List Byte) (f : BitVec 8) (c : Instr) (k : Nat) (v : List Byte), (q = BitVec.toNat h.seq) ∧ (Heard s u h 8 n g) ∧ (g.role = 2) ∧ (u.bootStage = 96) ∧ (u.gul.waits = []) ∧ (x.length = 32) ∧ (f.toNat ≤ 64) ∧ ((c, k, v) ∈ [(Instr.deviceIdentity h x, 1, x), (Instr.ownerKeyHash h x, 3, x), (Instr.rollbackFloor h f, 5, [f]), (Instr.trunkCipherLock h 1, 6, [1]), (Instr.debugDisable h 1, 7, [1])]) ∧ (u.get (onceLeft k) ≠ 0) ∧ (h.flags.getLsbD 0 = true) ∧ (u.boot.burns = []) ∧ (11400 ≤ u.get R.UPD_VIN_MILLIVOLTS) ∧ (u.coolEnough = true) ∧ (k = 5 → u.get R.FUS_BOOT_FLOOR < f.toNat ∧ f.toNat ≤ u.get R.FUS_BOOT_SVN) ∧ (k = 3 → u.isSet R.FUS_STATUS_OWNER_SET = false ∧ (u.bankCheck 0 x = 0 ∨ u.bankCheck 1 x = 0) ∨ u.isSet R.FUS_STATUS_OWNER_SET = true ∧ u.boot.pending = some x ∧ u.boot.stage = 2 ∧ u.bankCheck (1 - u.get R.FUS_BOOT_BANK) x = 0)) ∧
    (∃ (s : State) (u : State) (h : GulHead) (n : Nat) (q : Nat) (g : GulSession) (v : List Byte) (new : List Byte) (pub : List Byte), (q = BitVec.toNat h.seq) ∧ (Heard s u h 8 n g) ∧ (g.role = 2) ∧ (u.bootStage = 96) ∧ (u.gul.waits = []) ∧ (v.length = 161) ∧ (new = List.take 32 v) ∧ (pub = List.take 65 (List.drop 32 v)) ∧ (u.ownerHash ≠ []) ∧ (sha256 pub = u.ownerHash) ∧ (sigOk pub (List.drop 97 v) (sha256 ([79, 87, 78] ++ u.identity ++ new)) = true)) ∧
    (∃ (s : State) (g : GulSession) (n : Nat) (q : Nat) (k : Nat) (v : List Byte), (k ∈ [1, 3, 5, 6, 7]) ∧ (s.gul.waits = [{ session := n, seq := q, statuses := [none] }]) ∧ (s.session n = some g) ∧ (s.boot.burns = [{ what := k, value := v, asker := Asker.gulter { session := n, seq := q, entry := 0 } }])) :=
  ⟨⟨withGul gul0 [(R.UPD_TJ_CELSIUS, 94), (R.UPD_T_WARN_CELSIUS, 95), (R.UPD_VIN_MILLIVOLTS, 11400)], withGul gul0 [(R.UPD_TJ_CELSIUS, 94), (R.UPD_T_WARN_CELSIUS, 95), (R.UPD_VIN_MILLIVOLTS, 11400)], { head1 with flags := 1 }, 1, _, gul0, List.replicate 32 0, 0, .deviceIdentity { head1 with flags := 1 } (List.replicate 32 0), 1, List.replicate 32 0, rfl, ⟨by decide +kernel, by decide +kernel, by decide +kernel, by decide +kernel, by decide +kernel, by decide +kernel⟩, by decide +kernel, by decide +kernel, by decide +kernel, by decide +kernel, by decide +kernel, by decide +kernel, by decide +kernel, by decide +kernel, by decide +kernel, by decide +kernel, by decide +kernel, by decide +kernel, by decide +kernel⟩,
   ⟨withGul gul0 ownerFuses, withGul gul0 ownerFuses, head1, 1, _, gul0, transferBody, _, _, rfl, ⟨by decide +kernel, by decide +kernel, by decide +kernel, by decide +kernel, by decide +kernel, by decide +kernel⟩, by decide +kernel, by decide +kernel, by decide +kernel, by decide +kernel, rfl, rfl, by decide +kernel, by decide +kernel, by decide +kernel⟩,
   ⟨{ State.reset with
      gul := { State.reset.gul with sessions := [(1, some gul0)], waits := [⟨1, 1, [none]⟩] }, boot := { State.reset.boot with burns := [⟨7, [1], .gulter ⟨1, 1, 0⟩⟩] } }, gul0, 1, 1, 7, [1], by decide +kernel, by decide +kernel, by decide +kernel, by decide +kernel⟩⟩

/-- The premises of `Obligations.ImagesAreStagedAndActivated` can be met: attestNonce, fwStageBegin, fwStageData, fwStageHbm, fwStageEnd, fwActivate. -/
theorem witness_ImagesAreStagedAndActivated_1 :
    (∃ (s : State) (u : State) (h : GulHead) (n : Nat) (q : Nat) (o : Nat) (g : GulSession) (v : List Byte) (body : List Byte), (q = BitVec.toNat h.seq) ∧ (Heard s u h 8 n g) ∧ (g.role = 2) ∧ (u.bootStage = 96) ∧ (u.gul.waits = []) ∧ (o = 1 - u.get R.FUS_BOOT_BANK) ∧ (v.length = 32) ∧ (u.isSet R.FUS_STATUS_IDENTITY_SET = true) ∧ (body = u.reportBody v u.kernelDigests)) ∧
    (∃ (s : State) (u : State) (h : GulHead) (n : Nat) (q : Nat) (o : Nat) (g : GulSession), (q = BitVec.toNat h.seq) ∧ (Heard s u h 8 n g) ∧ (g.role = 2) ∧ (u.bootStage = 96) ∧ (u.gul.waits = []) ∧ (o = 1 - u.get R.FUS_BOOT_BANK) ∧ (u.isFenced Unit.link 0 = false) ∧ (u.boot.stage = 0 ∨ u.boot.stageBy = n)) ∧
    (∃ (s : State) (u : State) (h : GulHead) (n : Nat) (q : Nat) (o : Nat) (g : GulSession) (p : Nat) (bs : List Byte), (q = BitVec.toNat h.seq) ∧ (Heard s u h 8 n g) ∧ (g.role = 2) ∧ (u.bootStage = 96) ∧ (u.gul.waits = []) ∧ (o = 1 - u.get R.FUS_BOOT_BANK) ∧ (u.isFenced Unit.link 0 = false) ∧ (u.boot.stage = 1) ∧ (u.boot.stageBy = n) ∧ (p = o * bankSize + u.boot.stageOff) ∧ (1 ≤ bs.length) ∧ (bs.length ≤ 65535) ∧ (u.boot.stageOff + bs.length ≤ imageMax)) ∧
    (∃ (s : State) (u : State) (h : GulHead) (n : Nat) (q : Nat) (o : Nat) (g : GulSession) (p : Nat) (v : List Byte) (m : Nat) (l : Nat), (q = BitVec.toNat h.seq) ∧ (Heard s u h 8 n g) ∧ (g.role = 2) ∧ (u.bootStage = 96) ∧ (u.gul.waits = []) ∧ (o = 1 - u.get R.FUS_BOOT_BANK) ∧ (u.isFenced Unit.link 0 = false) ∧ (u.boot.stage = 1) ∧ (u.boot.stageBy = n) ∧ (p = o * bankSize + u.boot.stageOff) ∧ (v.length = 12) ∧ (m = osToNat (List.take 8 v)) ∧ (l = osToNat (List.drop 8 v)) ∧ (g.path = GulPath.mailbox 0) ∧ (l ≠ 0) ∧ (m + l ≤ hbmBytes) ∧ (u.regionOf m = some 6) ∧ (u.regionOf (m + l - 1) = some 6) ∧ (u.boot.stageOff + l ≤ imageMax)) ∧
    (∃ (s : State) (u : State) (h : GulHead) (n : Nat) (q : Nat) (o : Nat) (g : GulSession) (p : Nat), (q = BitVec.toNat h.seq) ∧ (Heard s u h 8 n g) ∧ (g.role = 2) ∧ (u.bootStage = 96) ∧ (u.gul.waits = []) ∧ (o = 1 - u.get R.FUS_BOOT_BANK) ∧ (u.isFenced Unit.link 0 = false) ∧ (u.boot.stage = 1) ∧ (u.boot.stageBy = n) ∧ (p = o * bankSize + u.boot.stageOff) ∧ (bodyOk (u.bankByte o) = false ∨ u.bankCheck o u.ownerHash ≠ 0 ∧ ∀ (p : List Byte), u.boot.pending = some p → u.bankCheck o p ≠ 0)) ∧
    (∃ (s : State) (u : State) (h : GulHead) (n : Nat) (q : Nat) (o : Nat) (g : GulSession), (q = BitVec.toNat h.seq) ∧ (Heard s u h 8 n g) ∧ (g.role = 2) ∧ (u.bootStage = 96) ∧ (u.gul.waits = []) ∧ (o = 1 - u.get R.FUS_BOOT_BANK) ∧ (u.isFenced Unit.link 0 = false) ∧ (u.boot.stage = 2) ∧ (u.boot.stageBy = n) ∧ (u.get R.FUS_BOOT_FLOOR ≤ hdrField (u.bankByte o) 12 1) ∧ (u.ownerHash = u.boot.stageFor)) :=
  ⟨⟨withGul gul0 [(R.FUS_STATUS_IDENTITY_SET, 1)], withGul gul0 [(R.FUS_STATUS_IDENTITY_SET, 1)], head1, 1, _, _, gul0, List.replicate 32 0, _, rfl, ⟨by decide +kernel, by decide +kernel, by decide +kernel, by decide +kernel, by decide +kernel, by decide +kernel⟩, by decide +kernel, by decide +kernel, by decide +kernel, rfl, by decide +kernel, by decide +kernel, rfl⟩,
   ⟨withGul gul0, withGul gul0, head1, 1, _, _, gul0, rfl, ⟨by decide +kernel, by decide +kernel, by decide +kernel, by decide +kernel, by decide +kernel, by decide +kernel⟩, by decide +kernel, by decide +kernel, by decide +kernel, rfl, by decide +kernel, by decide +kernel⟩,
   ⟨{ withGul gul0 with boot := { State.reset.boot with stage := 1, stageBy := 1 } }, { withGul gul0 with boot := { State.reset.boot with stage := 1, stageBy := 1 } }, head1, 1, _, _, gul0, _, [0], rfl, ⟨by decide +kernel, by decide +kernel, by decide +kernel, by decide +kernel, by decide +kernel, by decide +kernel⟩, by decide +kernel, by decide +kernel, by decide +kernel, rfl, by decide +kernel, by decide +kernel, by decide +kernel, rfl, by decide +kernel, by decide +kernel, by decide +kernel⟩,
   ⟨{ withGul gul0 [(R.HBM_REG_BASE_UNITS 6, 1), (R.HBM_REG_SIZE_UNITS 6, 1)] with boot := { State.reset.boot with stage := 1, stageBy := 1 } }, { withGul gul0 [(R.HBM_REG_BASE_UNITS 6, 1), (R.HBM_REG_SIZE_UNITS 6, 1)] with boot := { State.reset.boot with stage := 1, stageBy := 1 } }, head1, 1, _, _, gul0, _, natToOs 8 0x400000 ++ natToOs 4 1, _, _, rfl, ⟨by decide +kernel, by decide +kernel, by decide +kernel, by decide +kernel, by decide +kernel, by decide +kernel⟩, by decide +kernel, by decide +kernel, by decide +kernel, rfl, by decide +kernel, by decide +kernel, by decide +kernel, rfl, by decide +kernel, rfl, rfl, by decide +kernel, by decide +kernel, by decide +kernel, by decide +kernel, by decide +kernel, by decide +kernel⟩,
   ⟨{ withGul gul0 with boot := { State.reset.boot with stage := 1, stageBy := 1, flash := [0x14, 0x15, 0x16, 0x17, 0x40].map fun i => (bankSize + i, some 0) } }, { withGul gul0 with boot := { State.reset.boot with stage := 1, stageBy := 1, flash := [0x14, 0x15, 0x16, 0x17, 0x40].map fun i => (bankSize + i, some 0) } }, head1, 1, _, _, gul0, _, rfl, ⟨by decide +kernel, by decide +kernel, by decide +kernel, by decide +kernel, by decide +kernel, by decide +kernel⟩, by decide +kernel, by decide +kernel, by decide +kernel, rfl, by decide +kernel, by decide +kernel, by decide +kernel, rfl, by decide +kernel⟩,
   ⟨{ withGul gul0 with boot := { State.reset.boot with stage := 2, stageBy := 1 } }, { withGul gul0 with boot := { State.reset.boot with stage := 2, stageBy := 1 } }, head1, 1, _, _, gul0, rfl, ⟨by decide +kernel, by decide +kernel, by decide +kernel, by decide +kernel, by decide +kernel, by decide +kernel⟩, by decide +kernel, by decide +kernel, by decide +kernel, rfl, by decide +kernel, by decide +kernel, by decide +kernel, by decide +kernel, by decide +kernel⟩⟩

/-- The premises of `Obligations.ImagesAreStagedAndActivated` can be met: fwCommit. -/
theorem witness_ImagesAreStagedAndActivated_2 :
    ∃ (s : State) (u : State) (h : GulHead) (n : Nat) (q : Nat) (o : Nat) (g : GulSession), (q = BitVec.toNat h.seq) ∧ (Heard s u h 8 n g) ∧ (g.role = 2) ∧ (u.bootStage = 96) ∧ (u.gul.waits = []) ∧ (o = 1 - u.get R.FUS_BOOT_BANK) ∧ (u.isSet R.FUS_BOOT_TRIAL = true) :=
  ⟨withGul gul0 [(R.FUS_BOOT_TRIAL, 1)], withGul gul0 [(R.FUS_BOOT_TRIAL, 1)], head1, 1, _, _, gul0, rfl, ⟨by decide +kernel, by decide +kernel, by decide +kernel, by decide +kernel, by decide +kernel, by decide +kernel⟩, by decide +kernel, by decide +kernel, by decide +kernel, rfl, by decide +kernel⟩

/-- The premises of `Obligations.PinsCagesAndTheLogAreRead` can be met: squallEntryRead, refclkLost, cagePresenceChange, cageIdentify, cageOvercurrent, jtagInstruction. -/
theorem witness_PinsCagesAndTheLogAreRead :
    (∃ (s : State) (who : Sender) (i : Fin 8192) (e : SquallEntry) (show_ : SquallEntry → List Output), (e = SMap.get SquallEntry.blank s.sql.entries ↑i) ∧ (∀ (x : SquallEntry), show_ x = (List.map (fun w => Output.readDone who (15990784 + ↑i * 32 + w.snd * 4) w.fst) x.words.zipIdx).reverse) ∧ (Crosses s who) ∧ (s.accessible who (15990784 + ↑i * 32) = true)) ∧
    (∃ (s : State), s.isSet R.HIF_CLK_STAT_REFCLK_EXT = true) ∧
    (∃ (s : State) (n : Fin 8) (level : Bool), s.isSet (cageBit R.FUS_PAD_IN_MODPRS_N ↑n) ≠ level) ∧
    (∃ (s : State) (n : Fin 8) (c : Nat), (s.firmwareRuns = true) ∧ (SMap.get none s.pads.fell ↑n = some c) ∧ (SMap.get none s.pads.powered ↑n = none) ∧ (max c s.ageZero + 75000000 ≤ s.cycle)) ∧
    (∃ (s : State) (cage : Fin 9) (en : Fld) (oc : Fld), (en = { addr := R.FUS_PAD_PWR_CAGE_EN.addr, lsb := ↑cage, width := 1 }) ∧ (oc = { addr := R.FUS_PAD_FAULT_CAGE_OC.addr, lsb := ↑cage, width := 1 }) ∧ (s.isSet en = true)) ∧
    (∃ (i : JtagInstr), i ∈ [JtagInstr.bypass, JtagInstr.samplePreload, JtagInstr.extest, JtagInstr.clamp, JtagInstr.highz]) :=
  ⟨⟨State.reset, .control 0, 8191, _, _, rfl, fun _ => rfl, by unfold Crosses; decide +kernel, by decide +kernel⟩,
   ⟨on [(R.HIF_CLK_STAT_REFCLK_EXT, 1)], by decide +kernel⟩,
   ⟨on [(cageBit R.FUS_PAD_IN_MODPRS_N 0, 1)], 0, false, by decide +kernel⟩,
   ⟨{ on [(R.HIF_BOOT_STAGE_STAGE, 0x60)] with cycle := 75000000, pads := ⟨[(0, some 0)], [], false, none⟩ }, 0, 0, by decide +kernel, by decide +kernel, by decide +kernel, by decide +kernel⟩,
   ⟨on [(⟨R.FUS_PAD_PWR_CAGE_EN.addr, 8, 1⟩, 1)], 8, _, _, rfl, rfl, by decide +kernel⟩,
   ⟨.highz, by decide +kernel⟩⟩

end Sys2Proof.Tests
end

section
/-! SUPPORT. Every operation of the machine keeps the queue of commands and the canonical form of memory, registers and counters
(`Keeps`). An operation's lemma says: from a state `t` that keeps what `s` has, the operation leads to a state that keeps it too.
Such lemmas chain in the order in which a definition applies its operations (`h.put.log`), `.ite` joins the branches of an `if`,
and `others` is any update beside the queue, memory, registers and counters. -/

namespace Sys2Proof.Laws

open Sys2Proof Sys2Proof.Machine Sys2Proof.Safety

variable {s t u : State}

/-! ### Outcomes, branches and folds -/

/-- Whatever state the outcome `r` goes on with keeps what `s` has. -/
def KeepsNext (s : State) (r : Result) : Prop := ∀ t, r = .next t → Keeps s t

/-- An update of other fields than the queue, memory, the registers and the counters keeps them. -/
theorem Keeps.others
    {cycle freeCtr out rwvB rwvC sweptAt latch poison sql islands early bells deviceFatal fns bpm queues egress gates time rly
    ageZero mxm fw gul boot sdg cpx holders trk hts upd kernelClass hbm vdes codecs injected cmps subs cpls hostGrants mbx vees
    encs tsp objNum objOct dsp dspShared pads}
    (h : Keeps s t) :
    Keeps s { t with
      cycle, freeCtr, out, rwvB, rwvC, sweptAt, latch, poison, sql, islands, early, bells, deviceFatal, fns, bpm, queues, egress,
      gates, time, rly, ageZero, mxm, fw, gul, boot, sdg, cpx, holders, trk, hts, upd, kernelClass, hbm, vdes, codecs, injected,
      cmps, subs, cpls, hostGrants, mbx, vees, encs, tsp, objNum, objOct, dsp, dspShared, pads } :=
  h.trans (.other rfl rfl rfl rfl)

/-- A state with the queue of `t`, empty memory and every register and counter at its reset value keeps what `s` has. -/
theorem Keeps.emptied (h : Keeps s t) (hp : u.pending = t.pending) (hm : u.mem = []) (hr : u.regs = []) (hc : u.ctr = []) :
    Keeps s u := by
  refine ⟨hp.trans h.1, fun _ => ?_⟩
  unfold Canonical
  rw [hm, hr, hc]
  exact ⟨rfl, rfl, rfl⟩

theorem Keeps.ite {c : Prop} [Decidable c] (h : Keeps s t) (k : Keeps s u) : Keeps s (if c then t else u) := by
  split
  · exact h
  · exact k

theorem Keeps.ite_fst {α : Type} {p q : State × α} {c : Prop} [Decidable c] (h : Keeps s p.1) (k : Keeps s q.1) :
    Keeps s (if c then p else q).1 := by
  split
  · exact h
  · exact k

theorem Keeps.fst {α : Type} {a : α} (h : Keeps s t) : Keeps s (t, a).1 := h

theorem Keeps.of_eq {α : Type} {p : State × α} {a : α} (e : p = (u, a)) (h : Keeps s p.1) : Keeps s u := by
  rw [e] at h; exact h

theorem Keeps.foldl {α : Type} {f : State → α → State} {l : List α} (h : Keeps s t)
    (hf : ∀ u x, Keeps s u → Keeps s (f u x)) : Keeps s (l.foldl f t) := by
  induction l generalizing t with
  | nil => exact h
  | cons x l ih => exact ih (hf t x h)

theorem Keeps.foldl_fst {α β : Type} {f : State × β → α → State × β} {l : List α} {p : State × β} (h : Keeps s p.1)
    (hf : ∀ p x, Keeps s p.1 → Keeps s (f p x).1) : Keeps s (l.foldl f p).1 := by
  induction l generalizing p with
  | nil => exact h
  | cons x l ih => exact ih (hf p x h)

theorem Keeps.next (h : Keeps s t) : KeepsNext s (.next t) := fun _ e => by cases e; exact h

theorem KeepsNext.fault (s : State) (r : Fault) : KeepsNext s (.fault r) := fun _ e => nomatch e

theorem KeepsNext.refused (s : State) (r : Refusal) : KeepsNext s (.refused r) := fun _ e => nomatch e

theorem KeepsNext.ite {c : Prop} [Decidable c] {r q : Result} (h : KeepsNext s r) (k : KeepsNext s q) :
    KeepsNext s (if c then r else q) := by
  split
  · exact h
  · exact k

theorem Keeps.access {who : Sender} {a : Nat} {f : State → Result} (h : Keeps s t)
    (hf : ∀ u, Keeps s u → KeepsNext s (f u)) : KeepsNext s (t.access who a f) := by
  unfold State.access
  split
  · exact (h.trans (keeps_lostWrite _ _ _)).next
  · split
    · exact hf _ (h.trans (keeps_accessWakes _ _))
    · exact h.next

theorem Keeps.accessRead {who : Sender} {a : Nat} {f : State → Result} (h : Keeps s t)
    (hf : ∀ u, Keeps s u → KeepsNext s (f u)) : KeepsNext s (t.accessRead who a f) := by
  unfold State.accessRead
  split
  · exact h.next
  · split
    · exact (h.trans (keeps_lostRead _ _ _)).next
    · split
      · exact hf _ (h.trans (keeps_accessWakes _ _))
      · exact (h.trans (keeps_emit _ _)).next

/-! ### Machine/Ops -/

theorem Keeps.setReg {a w} (h : Keeps s t) : Keeps s (t.setReg a w) := h.trans (keeps_setReg ..)
theorem Keeps.put {f v} (h : Keeps s t) : Keeps s (t.put f v) := h.trans (keeps_put ..)
theorem Keeps.putVoted {f v} (h : Keeps s t) : Keeps s (t.putVoted f v) := h.trans (keeps_putVoted ..)
theorem Keeps.putBit {f b} (h : Keeps s t) : Keeps s (t.putBit f b) := h.trans (keeps_putBit ..)
theorem Keeps.putPair {lo hi v} (h : Keeps s t) : Keeps s (t.putPair lo hi v) := h.trans (keeps_putPair ..)
theorem Keeps.bump {f n} (h : Keeps s t) : Keeps s (t.bump f n) := h.trans (keeps_bump ..)
theorem Keeps.drop {f n} (h : Keeps s t) : Keeps s (t.drop f n) := h.trans (keeps_drop ..)
theorem Keeps.count {a n} (h : Keeps s t) : Keeps s (t.count a n) := h.trans (keeps_count ..)
theorem Keeps.setCounter {a v} (h : Keeps s t) : Keeps s (t.setCounter a v) := h.trans (keeps_setCounter ..)
theorem Keeps.emit {o} (h : Keeps s t) : Keeps s (t.emit o) := h.trans (keeps_emit ..)
theorem Keeps.emitAll {os} (h : Keeps s t) : Keeps s (t.emitAll os) := h.trans (keeps_emitAll ..)
theorem Keeps.spent (h : Keeps s t) : Keeps s t.spent := h.trans (keeps_spent ..)

theorem Keeps.setByte {a b} (h : Keeps s t) : Keeps s (t.setByte a b) := by
  refine .ite ⟨h.1, fun c => ?_⟩ h
  obtain ⟨hm, hr, hc⟩ := h.2 c
  exact ⟨wf_set (fun _ => 0) t.mem a b hm, hr, hc⟩

theorem Keeps.setBytes {a bs} (h : Keeps s t) : Keeps s (t.setBytes a bs) := h.trans (keeps_setBytes ..)
theorem Keeps.setLe {a n v} (h : Keeps s t) : Keeps s (t.setLe a n v) := h.trans (keeps_setLe ..)
theorem Keeps.zero {a n} (h : Keeps s t) : Keeps s (t.zero a n) := h.trans (keeps_zero ..)
theorem Keeps.tick (h : Keeps s t) : Keeps s t.tick := h.trans (keeps_tick ..)
theorem Keeps.setFn {n f} (h : Keeps s t) : Keeps s (t.setFn n f) := h.trans (keeps_setFn ..)
theorem Keeps.raise {n v} (h : Keeps s t) : Keeps s (t.raise n v) := h.trans (keeps_raise ..)
theorem Keeps.log {unit x1 sev event p0 p1} (h : Keeps s t) : Keeps s (t.log unit x1 sev event p0 p1) := h.trans (keeps_log ..)
theorem Keeps.setIsland {i l} (h : Keeps s t) : Keeps s (t.setIsland i l) := h.trans (keeps_setIsland ..)
theorem Keeps.fenceWith {unit x1 event row param} (h : Keeps s t) : Keeps s (t.fenceWith unit x1 event row param) :=
  h.trans (keeps_fenceWith ..)
theorem Keeps.fence {unit x1 row param} (h : Keeps s t) : Keeps s (t.fence unit x1 row param) := h.trans (keeps_fence ..)
theorem Keeps.retried {unit x1 row param} (h : Keeps s t) : Keeps s (t.retried unit x1 row param) := h.trans (keeps_retried ..)
theorem Keeps.fenceOpen {unit x1 row} (h : Keeps s t) : Keeps s (t.fenceOpen unit x1 row) := .ite h h.spent.fence
theorem Keeps.retriedOpen {unit x1 row} (h : Keeps s t) : Keeps s (t.retriedOpen unit x1 row) := h.spent.retried
theorem Keeps.setObj {o x1 d v} (h : Keeps s t) : Keeps s (t.setObj o x1 d v) := h.trans (keeps_setObj ..)
theorem Keeps.bumpObj {o x1} (h : Keeps s t) : Keeps s (t.bumpObj o x1) := h.setObj
theorem Keeps.countObj64 {o x1} (h : Keeps s t) : Keeps s (t.countObj64 o x1) := h.setObj
theorem Keeps.setOctets {o x1 v} (h : Keeps s t) : Keeps s (t.setOctets o x1 v) := h.trans (keeps_setOctets ..)

/-! ### Machine/Access -/

theorem Keeps.wake {i} (h : Keeps s t) : Keeps s (t.wake i) := h.trans (keeps_wake ..)
theorem Keeps.accessWakes {a} (h : Keeps s t) : Keeps s (t.accessWakes a) := h.trans (keeps_accessWakes ..)
theorem Keeps.lostWrite {who a} (h : Keeps s t) : Keeps s (t.lostWrite who a) := h.trans (keeps_lostWrite ..)
theorem Keeps.lostRead {who a} (h : Keeps s t) : Keeps s (t.lostRead who a) := h.trans (keeps_lostRead ..)

/-! ### Machine/Contexts -/

theorem Keeps.withFw {f} (h : Keeps s t) : Keeps s (t.withFw f) := h.others
theorem Keeps.putCanvas {leg} (h : Keeps s t) : Keeps s (t.putCanvas leg) := .ite h.setByte h
theorem Keeps.viewerSpliced {v bgs} (h : Keeps s t) : Keeps s (t.viewerSpliced v bgs) := h.withFw.foldl fun _ _ h => h.putCanvas

/-! ### Machine/Beacon -/

theorem Keeps.setModulator {n m} (h : Keeps s t) : Keeps s (t.setModulator n m) := h.others.put
theorem Keeps.armBeacon {m frame} (h : Keeps s t) : Keeps s (t.armBeacon m frame) :=
  .ite h.put (.setModulator (.ite h.put.putBit h.put))
theorem Keeps.onProbeOf {m was f} (h : Keeps s t) : Keeps s (t.onProbeOf m was f) := h.others
theorem Keeps.startBeacon {m} (h : Keeps s t) : Keeps s (t.startBeacon m) :=
  .onProbeOf (h.setModulator.foldl fun _ _ h => .ite h.setObj h)
theorem Keeps.endBeacon {m} (h : Keeps s t) : Keeps s (t.endBeacon m) := h.count.setModulator.onProbeOf
theorem Keeps.stopBeacon {m} (h : Keeps s t) : Keeps s (t.stopBeacon m) := .ite h.count.setModulator h.setModulator
theorem Keeps.stopBeacons (h : Keeps s t) : Keeps s t.stopBeacons := h.foldl fun _ _ h => h.stopBeacon
theorem Keeps.advanceBeacons (h : Keeps s t) : Keeps s t.advanceBeacons :=
  h.foldl fun _ _ h => .ite h <| .ite h.setModulator h.setModulator

/-! ### Machine/DecodeSlots -/

theorem Keeps.withMxm {f} (h : Keeps s t) : Keeps s (t.withMxm f) := h.others
theorem Keeps.showSlots (h : Keeps s t) : Keeps s t.showSlots := h.setObj
theorem Keeps.setRole {leg role} (h : Keeps s t) : Keeps s (t.setRole leg role) :=
  .showSlots (.ite (.withFw (.ite h.setObj h.setObj.withMxm)) <| .ite h.setObj h.setObj.withMxm)
theorem Keeps.restRole {leg} (h : Keeps s t) : Keeps s (t.restRole leg) := h.setRole
theorem Keeps.deferDecode {leg} (h : Keeps s t) : Keeps s (t.deferDecode leg) := .ite h h.bumpObj.withMxm
theorem Keeps.requestProbe {leg} (h : Keeps s t) : Keeps s (t.requestProbe leg).1 :=
  .ite_fst h <| .ite_fst h <| .ite_fst h.spent h.others.spent
theorem Keeps.sweepConf {leg} (h : Keeps s t) : Keeps s (t.sweepConf leg) := .ite h (h.foldl fun _ _ h => h.requestProbe)

theorem Keeps.grantDecode {leg role score} (h : Keeps s t) : Keeps s (t.grantDecode leg role score) := by
  unfold State.grantDecode
  extract_lets s₁ s₂ s₃
  have hs₁ : Keeps s s₁ := h.withMxm
  have hs₂ : Keeps s s₂ := .ite hs₁ hs₁.setObj.sweepConf
  have hs₃ : Keeps s s₃ := hs₂.setRole
  exact .ite hs₂.withFw.showSlots <| .ite hs₃.withMxm hs₃

theorem Keeps.takeDecode {leg role score} (h : Keeps s t) : Keeps s (t.takeDecode leg role score) :=
  .ite h <| .ite h.grantDecode <| .ite (by split; exacts [h.setRole.grantDecode, h.deferDecode]) h.deferDecode
theorem Keeps.seatJoiners {conf} (h : Keeps s t) : Keeps s (t.seatJoiners conf) := h.foldl fun _ _ h => h.takeDecode

/-! ### Machine/HostQueue -/

theorem Keeps.setSub {n j q} (h : Keeps s t) : Keeps s (t.setSub n j q) := h.others
theorem Keeps.startFetch {n j} (h : Keeps s t) : Keeps s (t.startFetch n j) := .ite h.putBit.setSub.emit h.putBit
theorem Keeps.resumeHost (h : Keeps s t) : Keeps s t.resumeHost := h.foldl fun _ _ h => .ite h.startFetch h

/-! ### Machine/Buffers -/

theorem Keeps.setUsed {p m} (h : Keeps s t) : Keeps s (t.setUsed p m) := h.others
theorem Keeps.setHeld {p l} (h : Keeps s t) : Keeps s (t.setHeld p l) := h.others.put

theorem Keeps.judge {p n} (h : Keeps s t) : Keeps s (t.judge p n) := by
  induction n generalizing t with
  | zero => exact h
  | succ n ih =>
    unfold State.judge
    split
    · exact h
    · extract_lets s₁ s₂ s₃
      have hs₁ : Keeps s s₁ := h.put.putBit
      have hs₂ : Keeps s s₂ := by
        unfold s₂
        split
        exacts [hs₁.log, hs₁]
      exact ih (.ite hs₂.resumeHost hs₂)

theorem Keeps.setFree {p f} (h : Keeps s t) : Keeps s (t.setFree p f) := .judge (.ite h.put.put h.put)
theorem Keeps.takeCell {p} (h : Keeps s t) : Keeps s (t.takeCell p).1 := h.setUsed.bump.setFree
theorem Keeps.hold {p h'} (h : Keeps s t) : Keeps s (t.hold p h').1 := .ite_fst h.bump h.setHeld.bump
theorem Keeps.allocCell {who req size cls onDie nowait} (h : Keeps s t) : Keeps s (t.allocCell who req size cls onDie nowait).1 :=
  .ite_fst h <| .ite_fst h (by split; exacts [h.takeCell, h.hold, .ite h.bump h.bump])
theorem Keeps.answerHeld {h' code ptr} (h : Keeps s t) : Keeps s (t.answerHeld h' code ptr) := .ite h.others h.emit

theorem Keeps.freeCell {p i} (h : Keeps s t) : Keeps s (t.freeCell p i) := by
  unfold State.freeCell
  extract_lets s₁
  have hs₁ : Keeps s s₁ := h.setUsed.setFree
  split
  exacts [hs₁, hs₁.setHeld.setUsed.bump.setFree.answerHeld]

theorem Keeps.badPointer {who ptr pool} (h : Keeps s t) : Keeps s (t.badPointer who ptr pool) :=
  .log (by split; exacts [h.putPair.put.bump, h.putPair.put.bump])

theorem Keeps.returnCell {who ptr} (h : Keeps s t) : Keeps s (t.returnCell who ptr).1 := by
  unfold State.returnCell
  split
  exacts [h.badPointer.fst, .ite_fst h.badPointer.fst (.ite_fst h.badPointer.fst h.freeCell.fst)]

theorem Keeps.releaseBy {unit ptr} (h : Keeps s t) : Keeps s (t.releaseBy unit ptr) := .ite h h.returnCell
theorem Keeps.release {ptr} (h : Keeps s t) : Keeps s (t.release ptr) := h.releaseBy

theorem Keeps.execAlloc {who req size cls onDie nowait} (h : Keeps s t) : KeepsNext s (execAlloc who req size cls onDie nowait t) := by
  unfold Machine.execAlloc
  split
  · next e => exact (Keeps.of_eq e h.allocCell).emit.next
  · next e => exact (Keeps.of_eq e h.allocCell).next
  · next e => exact (Keeps.of_eq e h.allocCell).emit.next

theorem Keeps.execFree {who ptr} (h : Keeps s t) : KeepsNext s (execFree who ptr t) := h.returnCell.emit.next

theorem Keeps.execHoldTimeout {pool} (h : Keeps s t) : KeepsNext s (execHoldTimeout pool t) := by
  unfold Machine.execHoldTimeout
  split
  exacts [h.next, .ite h.setHeld.bump.answerHeld.next h.next]

theorem Keeps.resetPool {p} (h : Keeps s t) : Keeps s (t.resetPool p) := h.setUsed.put.judge
theorem Keeps.resetPools {mask w} (h : Keeps s t) : Keeps s (t.resetPools mask w) :=
  .ite h.putBit.log (h.foldl fun _ _ h => .ite h.resetPool h)
theorem Keeps.execResetPools {who mask} (h : Keeps s t) : KeepsNext s (execResetPools who mask t) :=
  h.access fun _ h => h.resetPools.next
theorem Keeps.offline {p} (h : Keeps s t) : Keeps s (t.offline p) := h.setHeld.foldl fun _ _ h => h.answerHeld
theorem Keeps.bpmDisable (h : Keeps s t) : Keeps s t.bpmDisable := h.putBit.foldl fun _ _ h => h.offline
theorem Keeps.execBpmDisable {who} (h : Keeps s t) : KeepsNext s (execBpmDisable who t) := h.access fun _ h => h.bpmDisable.next
theorem Keeps.writeThreshold {p t' w} (h : Keeps s t) : Keeps s (t.writeThreshold p t' w) := .ite h.putVoted h.putBit.log

theorem Keeps.execPoolThresholdWrite {who pool which value} (h : Keeps s t) :
    KeepsNext s (execPoolThresholdWrite who pool which value t) :=
  h.access fun _ h => h.writeThreshold.next

theorem Keeps.writeMinfree {p} (h : Keeps s t) : Keeps s (t.writeMinfree p) := h.put
theorem Keeps.execMinfreeWrite {who pool} (h : Keeps s t) : KeepsNext s (execMinfreeWrite who pool t) :=
  h.access fun _ h => h.writeMinfree.next
theorem Keeps.setQueue {n q} (h : Keeps s t) : Keeps s (t.setQueue n q) := h.others.putBit.putBit.put.put
theorem Keeps.judgeOrder {n} (h : Keeps s t) : Keeps s (t.judgeOrder n) :=
  .ite h.putBit <| .ite (.ite h.putBit h) <| .ite h.putBit h
theorem Keeps.settleOrder {n} (h : Keeps s t) : Keeps s (t.settleOrder n) := .ite h h.putBit
theorem Keeps.rewind {n eop} (h : Keeps s t) : Keeps s (t.rewind n eop) := h.setQueue.bump
theorem Keeps.overrun {n w} (h : Keeps s t) : Keeps s (t.overrun n w) := h.putBit.rewind.bump

theorem Keeps.writeWord {n word owner} (h : Keeps s t) : Keeps s (t.writeWord n word owner).1 :=
  .ite_fst h <| .ite_fst h.setQueue <| .ite_fst h.setQueue <| .ite_fst (.ite_fst h.setQueue h.overrun) <| .ite_fst h.rewind <|
    .ite_fst h.setQueue.judgeOrder h.setQueue

theorem Keeps.unstall {n ws} (h : Keeps s t) : Keeps s (t.unstall n ws) := by
  induction ws generalizing t with
  | nil => exact h
  | cons w ws ih => exact ih h.writeWord

theorem Keeps.retryStalled {n} (h : Keeps s t) : Keeps s (t.retryStalled n) := .ite h h.setQueue.unstall
theorem Keeps.took {n q w rest} (h : Keeps s t) : Keeps s (t.took n q w rest).1 :=
  .retryStalled (.ite h.setQueue.judgeOrder h.setQueue)

theorem Keeps.readWord {n} (h : Keeps s t) : Keeps s (t.readWord n).1 := by
  unfold State.readWord
  extract_lets q
  refine .ite_fst h.putBit ?_
  split
  · exact h.took
  · split
    exacts [h.took, h.putBit]

theorem Keeps.post {n prio data} (h : Keeps s t) : Keeps s (t.post n prio data).1 := by
  unfold State.post
  split
  · next e => exact (Keeps.of_eq e h.writeWord)
  · next e => exact (Keeps.of_eq e h.writeWord)
  · next e => exact (Keeps.of_eq e h.writeWord)

theorem Keeps.postEvent {queue dropCounter data} (h : Keeps s t) : Keeps s (t.postEvent queue dropCounter data) :=
  .ite h <| .ite h.post h.post.count

theorem Keeps.execQueueWrite {who queue word} (h : Keeps s t) : KeepsNext s (execQueueWrite who queue word t) := by
  unfold Machine.execQueueWrite
  split
  · next e => exact (Keeps.of_eq e h.writeWord).emit.next
  · next e => exact (Keeps.of_eq e h.writeWord).emit.next
  · next e => exact (Keeps.of_eq e h.writeWord).next

theorem Keeps.execQueueRead {who queue} (h : Keeps s t) : KeepsNext s (execQueueRead who queue t) := h.readWord.emit.next
theorem Keeps.dropRest {n} (h : Keeps s t) : Keeps s (t.dropRest n) := .ite h.putBit h.setQueue.judgeOrder.retryStalled
theorem Keeps.execDropRest {who queue} (h : Keeps s t) : KeepsNext s (execDropRest who queue t) :=
  h.access fun _ h => h.dropRest.next
theorem Keeps.flushQueue {n} (h : Keeps s t) : Keeps s (t.flushQueue n) := .ite h.putBit h.setQueue.judgeOrder
theorem Keeps.execFlush {who queue} (h : Keeps s t) : KeepsNext s (execFlush who queue t) := h.access fun _ h => h.flushQueue.next

/-! ### Machine/GulterBase -/

theorem Keeps.setMbx {c m} (h : Keeps s t) : Keeps s (t.setMbx c m) := h.others
theorem Keeps.notifyReceiver {c} (h : Keeps s t) : Keeps s (t.notifyReceiver c) := .ite h.raise h.emit
theorem Keeps.fillChannel {c stamp words} (h : Keeps s t) : Keeps s (t.fillChannel c stamp words) :=
  .notifyReceiver (.putBit (.put (h.foldl fun _ _ h => h.put)))
theorem Keeps.setSession {n g} (h : Keeps s t) : Keeps s (t.setSession n g) := h.others
theorem Keeps.setReplyQueue {fn l} (h : Keeps s t) : Keeps s (t.setReplyQueue fn l) := h.others
theorem Keeps.setNoteQueue {fn l} (h : Keeps s t) : Keeps s (t.setNoteQueue fn l) := h.others
theorem Keeps.putMessage {c n m} (h : Keeps s t) : Keeps s (t.putMessage c n m) := h.fillChannel.spent

theorem Keeps.flushGul {note fn} (h : Keeps s t) : Keeps s (t.flushGul note fn) := by
  unfold State.flushGul
  extract_lets
  refine .ite h ?_
  exact .ite (by split; exacts [h, h.setNoteQueue.putMessage]) (by split; exacts [h, h.setReplyQueue.putMessage])

theorem Keeps.gulSendOn {path n m} (h : Keeps s t) : Keeps s (t.gulSendOn path n m) := by
  unfold State.gulSendOn
  split
  · exact h.setReplyQueue.flushGul
  · split
    · exact h.emit
    · split
      exacts [h.emit, h.setSession.emit]

theorem Keeps.gulSend {n m} (h : Keeps s t) : Keeps s (t.gulSend n m) := by
  unfold State.gulSend
  split
  exacts [h, h.gulSendOn]

theorem Keeps.gulReply {n m} (h : Keeps s t) : Keeps s (t.gulReply n m) := by
  unfold State.gulReply
  split
  exacts [h, h.setSession.gulSend]

theorem Keeps.gulAnswer {t' status} (h : Keeps s t) : Keeps s (t.gulAnswer t' status) := by
  unfold State.gulAnswer
  split
  exacts [h, .ite h.others.gulReply h.others]

theorem Keeps.answer {a status data} (h : Keeps s t) : Keeps s (t.answer a status data) := by
  unfold State.answer
  split
  exacts [h.emit, h.gulAnswer]

/-! ### Machine/Cipher -/

theorem Keeps.setHolder {a h'} (h : Keeps s t) : Keeps s (t.setHolder a h') := h.others
theorem Keeps.claim {a who} (h : Keeps s t) : Keeps s (t.claim a who) := .ite h.emit (by split; exacts [h.setHolder.emit, h.emit])
theorem Keeps.unclaim {a who} (h : Keeps s t) : Keeps s (t.unclaim a who) := .ite h.setHolder h
theorem Keeps.setSlot {n k} (h : Keeps s t) : Keeps s (t.setSlot n k) := h.others
theorem Keeps.keyEvent {ty slot gen count} (h : Keeps s t) : Keeps s (t.keyEvent ty slot gen count) := h.postEvent

theorem Keeps.eraseDone {by_} (h : Keeps s t) : Keeps s (t.eraseDone by_) := by
  unfold State.eraseDone
  split
  exacts [h, h.others, h.gulAnswer]

theorem Keeps.settle {n} (h : Keeps s t) : Keeps s (t.settle n) :=
  .ite (.eraseDone (.keyEvent (.setSlot (h.setSlot.foldl fun _ _ h => h.keyEvent)))) (h.setSlot.foldl fun _ _ h => h.keyEvent)
theorem Keeps.closeOld {n} (h : Keeps s t) : Keeps s (t.closeOld n) := h.setSlot.settle

theorem Keeps.exhaust {n} (h : Keeps s t) : Keeps s (t.exhaust n) := by
  unfold State.exhaust
  extract_lets k
  split
  exacts [h.setSlot.keyEvent, h.setSlot.keyEvent, h]

theorem Keeps.takeCounter {n} (h : Keeps s t) : Keeps s (t.takeCounter n) := by
  unfold State.takeCounter
  extract_lets k
  split
  exacts [h, .ite (.exhaust (.ite h.setSlot.keyEvent h.setSlot)) <| .ite h.setSlot.keyEvent h.setSlot]

theorem Keeps.markIndex {c rtcp i} (h : Keeps s t) : Keeps s (t.markIndex c rtcp i) :=
  .ite h.setLe.setLe h.setLe.setLe.setLe.setLe

theorem Keeps.complete {id r res} (h : Keeps s t) : Keeps s (t.complete id r res) := by
  unfold State.complete
  split
  exacts [h.emit, h.others]

theorem Keeps.failRequest {id r status gen value n} (h : Keeps s t) : Keeps s (t.failRequest id r status gen value n) :=
  .complete (.ite h.zero h)
theorem Keeps.countRefusal {status} (h : Keeps s t) : Keeps s (t.countRefusal status) :=
  .ite h.count <| .ite h.count <| .ite h.count h

theorem Keeps.acceptRequest {id core r} (h : Keeps s t) : Keeps s (t.acceptRequest id core r) := by
  unfold State.acceptRequest
  split
  · exact .failRequest (.countRefusal (.ite h.exhaust h))
  · extract_lets _ op y s₁ y₁ s₂ y₂
    have hs₁ : Keeps s s₁ := h.others
    have hs₂ : Keeps s s₂ := .ite hs₁.takeCounter hs₁.setSlot
    exact .ite hs₂ <| .ite hs₂.markIndex hs₂.others

theorem Keeps.dispatchCipher {fuel} (h : Keeps s t) : Keeps s (t.dispatchCipher fuel) := by
  induction fuel generalizing t with
  | zero => exact h
  | succ fuel ih =>
    unfold State.dispatchCipher
    split
    · exact h
    · refine .ite (ih h.others.failRequest) (.ite h ?_)
      split
      exacts [h, ih h.others.acceptRequest]

theorem Keeps.submit {r} (h : Keeps s t) : Keeps s (t.submit r) := h.others.dispatchCipher
theorem Keeps.execCipherRequest {req} (h : Keeps s t) : KeepsNext s (execCipherRequest req t) := h.submit.next

theorem Keeps.endOp {o status gen out} (h : Keeps s t) : Keeps s (t.endOp o status gen out) :=
  .dispatchCipher (.settle (.ite (.complete (.ite h.others.count.count.count.setBytes h.others.count.count.count))
    h.others.count.count.count.failRequest))

theorem Keeps.finishOp {o okStatus} (h : Keeps s t) : Keeps s (t.finishOp o okStatus) := by
  unfold State.finishOp
  extract_lets input
  split
  · exact .endOp (.ite h.markIndex h)
  · split
    exacts [.endOp (.ite h.count.markIndex h.count), h.count.endOp]

theorem Keeps.fenceCipher (h : Keeps s t) : Keeps s t.fenceCipher := .dispatchCipher (h.foldl fun _ _ h => h.endOp)

theorem Keeps.execCipherComplete {op check} (h : Keeps s t) : KeepsNext s (execCipherComplete op check t) := by
  unfold Machine.execCipherComplete
  split
  exacts [h.next, .next (by split; exacts [h.finishOp, h.count.retriedOpen.finishOp, h.count.fenceOpen.endOp])]

theorem Keeps.newGen {n suite decryptOnly keys} (h : Keeps s t) : Keeps s (t.newGen n suite decryptOnly keys).1 :=
  .ite_fst h h.setSlot
theorem Keeps.writeSlot {n w} (h : Keeps s t) : Keeps s (t.writeSlot n w).1 := .ite_fst h <| .ite_fst h h.newGen
theorem Keeps.eraseSlot {n by_} (h : Keeps s t) : Keeps s (t.eraseSlot n by_).1 := .ite_fst h <| .ite_fst h h.setSlot.settle

theorem Keeps.abortOps {os} (h : Keeps s t) : Keeps s (t.abortOps os) := by
  induction os generalizing t with
  | nil => exact h
  | cons o os ih => exact ih h.count.endOp

theorem Keeps.zeroizeSlot {n} (h : Keeps s t) : Keeps s (t.zeroizeSlot n) := .ite h h.setSlot.abortOps.keyEvent.eraseDone
theorem Keeps.zeroizeAll (h : Keeps s t) : Keeps s t.zeroizeAll := .others (h.foldl fun _ _ h => h.zeroizeSlot)
theorem Keeps.retireOld {n} (h : Keeps s t) : Keeps s (t.retireOld n) := .ite h.closeOld h
theorem Keeps.ctxWrite {init c ssrc slotDir roc} (h : Keeps s t) : Keeps s (t.ctxWrite init c ssrc slotDir roc).1 :=
  .ite_fst h <| .ite_fst h <| .ite_fst h.zero.setBytes.setLe.setLe.setLe h.setLe

theorem Keeps.kslCommand {who op run} (h : Keeps s t) (hr : ∀ u, Keeps s u → Keeps s (run u).1) :
    Keeps s (t.kslCommand who op run) := by
  unfold State.kslCommand
  extract_lets s₁ _ r
  have k : Keeps s r.1 := hr _ h.putBit.others
  refine .ite h.putBit ?_
  split
  exacts [k, k.others]

theorem Keeps.showSlot {n} (h : Keeps s t) : Keeps s (t.showSlot n) := h.put.putBit.putBit.put.put.put.put.put
theorem Keeps.execKslClaim {who} (h : Keeps s t) : KeepsNext s (execKslClaim who t) := h.accessRead fun _ h => h.claim.next
theorem Keeps.execKslRelease {who} (h : Keeps s t) : KeepsNext s (execKslRelease who t) := h.access fun _ h => h.unclaim.next
theorem Keeps.execKslDataWrite {who word value} (h : Keeps s t) : KeepsNext s (execKslDataWrite who word value t) :=
  h.access fun _ h => .ite h.putBit.next (by split; exacts [h.put.next, h.put.next])
theorem Keeps.execWrite {who} (h : Keeps s t) : KeepsNext s (execWrite who t) :=
  h.access fun _ h => .next (h.kslCommand fun _ h => h.writeSlot)

theorem Keeps.execErase {who} (h : Keeps s t) : KeepsNext s (execErase who t) := by
  unfold Machine.execErase
  refine h.access fun _ h => ?_
  refine .next ?_
  refine h.kslCommand fun _ h => ?_
  extract_lets r
  have hr : Keeps s r.1 := h.eraseSlot
  split
  exacts [hr, hr]

theorem Keeps.execZeroize {who} (h : Keeps s t) : KeepsNext s (execZeroize who t) :=
  h.access fun _ h => .next (h.kslCommand fun _ h => h.zeroizeSlot)
theorem Keeps.execZeroizeAll {who} (h : Keeps s t) : KeepsNext s (execZeroizeAll who t) :=
  h.access fun _ h => .next (h.kslCommand fun _ h => h.zeroizeAll)
theorem Keeps.execRetireOld {who} (h : Keeps s t) : KeepsNext s (execRetireOld who t) :=
  h.access fun _ h => .next (h.kslCommand fun _ h => h.retireOld)
theorem Keeps.execKslStatus {who} (h : Keeps s t) : KeepsNext s (execKslStatus who t) :=
  h.access fun _ h => .next (h.kslCommand fun _ h => h.showSlot)
theorem Keeps.execCtxInit {who} (h : Keeps s t) : KeepsNext s (execCtxInit who t) :=
  h.access fun _ h => .next (h.kslCommand fun _ h => h.ctxWrite)
theorem Keeps.execCtxClear {who} (h : Keeps s t) : KeepsNext s (execCtxClear who t) :=
  h.access fun _ h => .next (h.kslCommand fun _ h => h.ctxWrite)

theorem Keeps.execKslCommandDone (h : Keeps s t) : KeepsNext s (execKslCommandDone t) := by
  unfold Machine.execKslCommandDone
  split
  exacts [.next (.others (h.putBit.put.foldl fun _ _ h => h.put)), h.next]

theorem Keeps.execGracePeriodEnd {slot} (h : Keeps s t) : KeepsNext s (execGracePeriodEnd slot t) := by
  unfold Machine.execGracePeriodEnd
  split
  exacts [.ite h.closeOld.next h.next, h.next]

theorem Keeps.loseGen {n g} (h : Keeps s t) : Keeps s (t.loseGen n g) := by
  unfold State.loseGen
  extract_lets k ops left st s₁ s₂
  have hs₁ : Keeps s s₁ := h.setSlot
  have hs₂ : Keeps s s₂ := hs₁.abortOps
  split
  exacts [h, .ite hs₂.keyEvent.eraseDone hs₂.keyEvent]

theorem Keeps.execKeyStoreEccError {slot gen again} (h : Keeps s t) : KeepsNext s (execKeyStoreEccError slot gen again t) :=
  .ite h.loseGen.next h.retried.next

theorem Keeps.execRngReady (h : Keeps s t) : KeepsNext s (execRngReady t) := by
  unfold Machine.execRngReady
  split
  exacts [h.others.putBit.next, h.others.putBit.retriedOpen.next, h.next]

theorem Keeps.execRngHealthFail (h : Keeps s t) : KeepsNext s (execRngHealthFail t) := by
  unfold Machine.execRngHealthFail
  extract_lets _ y
  split
  exacts [h.others.count.putBit.next, h.others.count.putBit.next, h.others.count.putBit.fenceOpen.keyEvent.next, h.next]

theorem Keeps.execRngDataRead {ask} (h : Keeps s t) : KeepsNext s (execRngDataRead ask t) := by
  unfold Machine.execRngDataRead
  extract_lets
  split
  exacts [.next (.ite h.spent.emit h.emit), h.accessRead fun _ h => .ite h.spent.emit.next h.emit.next]

/-! ### Machine/Egress -/

theorem Keeps.setShaper {d h'} (h : Keeps s t) : Keeps s (t.setShaper d h') := h.others
theorem Keeps.fillShapers (h : Keeps s t) : Keeps s t.fillShapers := h.others
theorem Keeps.charge {d len} (h : Keeps s t) : Keeps s (t.charge d len) := .ite h h.setShaper
theorem Keeps.setPolicer {leg p} (h : Keeps s t) : Keeps s (t.setPolicer leg p) := h.others

theorem Keeps.police {leg port len} (h : Keeps s t) : Keeps s (t.police leg port len).1 := by
  unfold State.police
  extract_lets p r s₁
  have hs₁ : Keeps s s₁ := h.setPolicer
  exact .ite_fst h (by split; exacts [hs₁, .ite_fst hs₁.count hs₁.count, hs₁.count])

theorem Keeps.setClassQueue {d c l} (h : Keeps s t) : Keeps s (t.setClassQueue d c l) := h.others
theorem Keeps.setReleased {n l} (h : Keeps s t) : Keeps s (t.setReleased n l) := h.others
theorem Keeps.enqueueFrame {f} (h : Keeps s t) : Keeps s (t.enqueueFrame f) := .ite h.count.release h.setClassQueue

theorem Keeps.execEnqueue {port} (h : Keeps s t) : KeepsNext s (execEnqueue port t) := by
  unfold Machine.execEnqueue
  split
  exacts [h.next, h.setReleased.enqueueFrame.next]

theorem Keeps.setGate {n g} (h : Keeps s t) : Keeps s (t.setGate n g) := h.others
theorem Keeps.showGates {n} (h : Keeps s t) : Keeps s (t.showGates n) := h.foldl fun _ _ h => h.put.put

theorem Keeps.demoteHeads {n qs} (h : Keeps s t) : Keeps s (t.demoteHeads n qs) := by
  induction qs generalizing t with
  | nil => exact h
  | cons q qs ih =>
    obtain ⟨k, fs⟩ := q
    cases fs with
    | nil => exact ih h
    | cons f fs => exact ih (.ite h.setClassQueue.count h)

theorem Keeps.setDwrr {n d} (h : Keeps s t) : Keeps s (t.setDwrr n d) := h.others

theorem Keeps.dwrrPick {n fuel} (h : Keeps s t) : Keeps s (t.dwrrPick n fuel).1 := by
  induction fuel generalizing t with
  | zero => exact h
  | succ fuel ih =>
    unfold State.dwrrPick
    extract_lets d
    split
    exacts [ih h.setDwrr, .ite_fst h.setDwrr (ih h.setDwrr)]

theorem Keeps.chargeDwrr {n c len} (h : Keeps s t) : Keeps s (t.chargeDwrr n c len) := .ite h.setDwrr h
theorem Keeps.idleDwrr {n} (h : Keeps s t) : Keeps s (t.idleDwrr n) := h.setDwrr

theorem Keeps.arbitrate {n} (h : Keeps s t) : Keeps s (t.arbitrate n).1 := by
  unfold State.arbitrate
  split
  · exact h
  · split
    · exact h
    · split
      · next e => exact (Keeps.of_eq e (.ite_fst h.dwrrPick h.idleDwrr))
      · next e => exact (Keeps.of_eq e (.ite_fst h.dwrrPick h.idleDwrr))

theorem Keeps.takeHead {n c f} (h : Keeps s t) : Keeps s (t.takeHead n c f) := h.setClassQueue.others
theorem Keeps.sendFrame {n cls len data} (h : Keeps s t) : Keeps s (t.sendFrame n cls len data) := .ite h.others h.emit
theorem Keeps.startFrame {n f} (h : Keeps s t) : Keeps s (t.startFrame n f) := h.charge.count.count.others.sendFrame.release

theorem Keeps.pickLoop {n fuel} (h : Keeps s t) : Keeps s (t.pickLoop n fuel) := by
  induction fuel generalizing t with
  | zero => exact h
  | succ fuel ih =>
    unfold State.pickLoop
    split
    · next e => exact .of_eq e h.arbitrate
    · next e =>
        have k := (Keeps.of_eq e h.arbitrate)
        exact .ite (ih k.takeHead.count.release) k.takeHead.chargeDwrr.startFrame

theorem Keeps.dropFront {test counter qs} (h : Keeps s t) : Keeps s (t.dropFront test counter qs) := by
  induction qs generalizing t with
  | nil => exact h
  | cons q qs ih => exact ih (.ite h (h.setClassQueue.foldl fun _ _ h => h.count.release))

theorem Keeps.execEgressPick {port} (h : Keeps s t) : KeepsNext s (execEgressPick port t) :=
  .ite h.next <| .ite h.dropFront.next h.dropFront.demoteHeads.pickLoop.next
theorem Keeps.indReadOp (h : Keeps s t) : Keeps s t.indReadOp := .ite h.putBit <| .ite h.put.put.put.put h.put.put.put.put
theorem Keeps.renewGates (h : Keeps s t) : Keeps s t.renewGates := h.foldl fun _ _ h => .ite h.showGates h
theorem Keeps.egsIgnored {w} (h : Keeps s t) : Keeps s (t.egsIgnored w) := h.putBit.log
theorem Keeps.indWriteOp {w} (h : Keeps s t) : Keeps s (t.indWriteOp w) :=
  .ite h.putBit <| .ite (.ite h.egsIgnored h.setPolicer) <| .ite h.egsIgnored h.setShaper
theorem Keeps.execIndRead {who} (h : Keeps s t) : KeepsNext s (execIndRead who t) := h.access fun _ h => h.indReadOp.next
theorem Keeps.execIndWrite {who} (h : Keeps s t) : KeepsNext s (execIndWrite who t) := h.access fun _ h => h.indWriteOp.next
theorem Keeps.sampleClass {n c} (h : Keeps s u) : Keeps s (t.sampleClass n u c) := h.put.put.bump.bump
theorem Keeps.execDepthSample {port} (h : Keeps s t) : KeepsNext s (execDepthSample port t) :=
  .ite (.next (h.others.foldl fun _ _ h => h.sampleClass)) h.next
theorem Keeps.resample {n} (h : Keeps s t) : Keeps s (t.resample n) := h.foldl fun _ _ h => h.bump.bump
theorem Keeps.clearHistograms (h : Keeps s t) : Keeps s t.clearHistograms :=
  .foldl (h.trans (keeps_filterRegs ..)) fun _ _ h => .ite h.resample h
theorem Keeps.execHistClr {who} (h : Keeps s t) : KeepsNext s (execHistClr who t) := h.access fun _ h => h.clearHistograms.next
theorem Keeps.tgcIgnored {n w} (h : Keeps s t) : Keeps s (t.tgcIgnored n w) := h.putBit.log
theorem Keeps.activate {n w} (h : Keeps s t) : Keeps s (t.activate n w) := .ite h.tgcIgnored h.setGate.put
theorem Keeps.execActivate {who port} (h : Keeps s t) : KeepsNext s (execActivate who port t) :=
  h.access fun _ h => h.activate.next

theorem Keeps.putOper {n e l} (h : Keeps s t) : Keeps s (t.putOper n e l) := by
  induction l generalizing t e with
  | nil => exact h
  | cons x l ih => exact ih h.put.put

theorem Keeps.takeover {n p} (h : Keeps s t) : Keeps s (t.takeover n p) := h.put.put.putOper.put.setGate.put.putBit.showGates

theorem Keeps.execGateTakeover {port} (h : Keeps s t) : KeepsNext s (execGateTakeover port t) := by
  unfold Machine.execGateTakeover
  split
  exacts [h.next, .ite h.takeover.next h.next]

theorem Keeps.advanceEntry {n} (h : Keeps s t) : Keeps s (t.advanceEntry n) := by
  unfold State.advanceEntry
  extract_lets g
  split
  exacts [h.setGate.put, .ite h.put h.setGate.put]

theorem Keeps.execGateEntryAdvance {port} (h : Keeps s t) : KeepsNext s (execGateEntryAdvance port t) :=
  .ite h.advanceEntry.next h.next
theorem Keeps.gateOff {n} (h : Keeps s t) : Keeps s (t.gateOff n) := h.putBit.setGate.put.showGates
theorem Keeps.execGateDisable {who port} (h : Keeps s t) : KeepsNext s (execGateDisable who port t) :=
  h.access fun _ h => h.gateOff.next
theorem Keeps.gatesAfterStep {n} (h : Keeps s t) : Keeps s (t.gatesAfterStep n) := .ite h.setGate h

/-! ### Machine/EgressPath -/

theorem Keeps.withRly {f} (h : Keeps s t) : Keeps s (t.withRly f) := h.others
theorem Keeps.addCopy {c} (h : Keeps s t) : Keeps s (t.addCopy c) := h.withRly
theorem Keeps.reorder {outPort inPort} (h : Keeps s t) : Keeps s (t.reorder outPort inPort) := h.withRly.setReleased

theorem Keeps.frameCell {f} (h : Keeps s t) : Keeps s (t.frameCell f).1 := by
  unfold State.frameCell
  split
  · next e => exact (Keeps.of_eq e h.allocCell).setBytes
  · next e => exact .ite ((Keeps.of_eq e h.allocCell).count) ((Keeps.of_eq e h.allocCell))

theorem Keeps.seal {c res} (h : Keeps s t) : Keeps s (t.seal c res).1 := by
  unfold State.seal
  refine .ite_fst h ?_
  extract_lets data y
  split
  · next e => exact (Keeps.of_eq e h.frameCell)
  · next e => exact (Keeps.of_eq e h.frameCell)

theorem Keeps.dropResult {op} (h : Keeps s t) : Keeps s (t.dropResult op) := h.others

theorem Keeps.execEgressEncryptDone {op} (h : Keeps s t) : KeepsNext s (execEgressEncryptDone op t) := by
  unfold Machine.execEgressEncryptDone
  split
  exacts [h.dropResult.seal.withRly.reorder.next, h.next]

theorem Keeps.trunkSend {t' ty flags body cls age inPort} (h : Keeps s t) : Keeps s (t.trunkSend t' ty flags body cls age inPort) := by
  unfold State.trunkSend
  extract_lets tpl hdr frame s₁ data input s₂
  have hs₁ : Keeps s s₁ := h.count
  have hs₂ : Keeps s s₂ := hs₁.addCopy
  refine .ite h ?_
  refine .ite ?_ hs₂.submit
  split
  · next e => exact (Keeps.of_eq e hs₁.frameCell)
  · next e => exact (Keeps.of_eq e hs₁.frameCell).addCopy.reorder

/-! ### Machine/Pka -/

theorem Keeps.execCpxPkaClaim {who} (h : Keeps s t) : KeepsNext s (execCpxPkaClaim who t) := h.accessRead fun _ h => h.claim.next
theorem Keeps.execCpxPkaRelease {who} (h : Keeps s t) : KeepsNext s (execCpxPkaRelease who t) :=
  h.access fun _ h => h.unclaim.next
theorem Keeps.pkaCommand {who run} (h : Keeps s t) (hr : ∀ u, Keeps s u → Keeps s (run u).1) :
    Keeps s (t.pkaCommand who run) := .ite h (hr _ h.putBit).others
theorem Keeps.execVerify {who digest x2 y r sv} (h : Keeps s t) : KeepsNext s (execVerify who digest x2 y r sv t) :=
  h.access fun _ h => .next (h.pkaCommand fun _ h => h)
theorem Keeps.execSign {who digest key} (h : Keeps s t) : KeepsNext s (execSign who digest key t) :=
  h.access fun _ h => .next (h.pkaCommand fun _ h => .ite_fst h <| .ite_fst h h.spent)

theorem Keeps.execKeygen {who target} (h : Keeps s t) : KeepsNext s (execKeygen who target t) := by
  unfold Machine.execKeygen
  refine h.access fun _ h => ?_
  refine .next ?_
  refine h.pkaCommand fun _ h => ?_
  refine .ite_fst h ?_
  extract_lets _ s₁ y s₂
  have hs₁ : Keeps s s₁ := h.spent
  have hs₂ : Keeps s s₂ := hs₁.others
  split
  exacts [hs₂, hs₂]

theorem Keeps.execEcdh {who key x2 y} (h : Keeps s t) : KeepsNext s (execEcdh who key x2 y t) :=
  h.access fun _ h => .next (h.pkaCommand fun _ h => .ite_fst h (by split; exacts [h.others, h]))

theorem Keeps.execDeriveToSlot {who slot suite decryptOnly salt info} (h : Keeps s t) :
    KeepsNext s (execDeriveToSlot who slot suite decryptOnly salt info t) :=
  h.access fun _ h => .next (h.pkaCommand fun _ h => by split; exacts [h, .ite_fst h.others <| .ite_fst h.others h.others.newGen])

theorem Keeps.freeWindow {n} (h : Keeps s t) : Keeps s (t.freeWindow n) := by
  induction n generalizing t with
  | zero => exact h
  | succ n ih => exact ih h.put.spent

theorem Keeps.execPkaCommandDone (h : Keeps s t) : KeepsNext s (execPkaCommandDone t) := by
  unfold Machine.execPkaCommandDone
  split
  exacts [h.next, .next (.others (.ite h.putBit.put h.putBit.put.freeWindow))]

/-! ### Machine/TrunkBase -/

theorem Keeps.setTrunk {n t'} (h : Keeps s t) : Keeps s (t.setTrunk n t') := .put (.put (.ite h.others.put.putBit h.others))
theorem Keeps.trunkEvent {type st what epoch} (h : Keeps s t) : Keeps s (t.trunkEvent type st what epoch) := h.spent.postEvent

theorem Keeps.trunkArrive {p} (h : Keeps s t) : Keeps s (t.trunkArrive p) :=
  .ite h.releaseBy <| .ite h.count.releaseBy <|
    .ite h.setTrunk.others (by split; exacts [h.setTrunk.count.releaseBy, h.setTrunk.others.submit])

theorem Keeps.takeFrame {id ty} (h : Keeps s t) : Keeps s (t.takeFrame id ty).1 := by
  unfold State.takeFrame
  split
  · exact h
  · extract_lets f _ y s₁ s₂ _ w k s₃
    have hs₁ : Keeps s s₁ := h.others
    have hs₂ : Keeps s s₂ := hs₁.releaseBy
    have hs₃ : Keeps s s₃ := hs₂.setTrunk
    exact .ite_fst h <| .ite_fst h.others.count.releaseBy
      (by split; exacts [h, .ite_fst hs₂.count <| .ite_fst hs₂.count hs₃.count])

theorem Keeps.trunkOut {t' ty flags body cls} (h : Keeps s t) : Keeps s (t.trunkOut t' ty flags body cls) :=
  .ite h <| .ite h h.trunkSend
theorem Keeps.transmit {t' b} (h : Keeps s t) : Keeps s (t.transmit t' b) := h.trunkOut

theorem Keeps.pump {k bs} (h : Keeps s t) : Keeps s (t.pump k bs) := by
  induction bs generalizing t with
  | nil => exact h
  | cons b bs ih => exact .ite (ih h) (.ite h (ih h.setTrunk.transmit))

theorem Keeps.sendReliable {t' body} (h : Keeps s t) : Keeps s (t.sendReliable t' body).1 :=
  .ite_fst h <| .ite h.setTrunk.pump.count h.setTrunk.pump
theorem Keeps.tell {t' kind conf what} (h : Keeps s t) : Keeps s (t.tell t' kind conf what).1 :=
  .ite h.spent.sendReliable.emit h.spent.sendReliable
theorem Keeps.tellControl {t' kind conf what} (h : Keeps s t) : Keeps s (t.tellControl t' kind conf what) :=
  .ite h h.spent.trunkOut.emit
theorem Keeps.setCascade {conf c} (h : Keeps s t) : Keeps s (t.setCascade conf c) := h.others

/-! ### Machine/Relay -/

theorem Keeps.setCache {n c} (h : Keeps s t) : Keeps s (t.setCache n c) := h.withRly
theorem Keeps.fillCache {w} (h : Keeps s t) : Keeps s (t.fillCache w) := h.setCache

theorem Keeps.useCache {key} (h : Keeps s t) : Keeps s (t.useCache key) := by
  unfold State.useCache
  extract_lets
  split
  exacts [h.setCache, h]

theorem Keeps.updateCache {key data} (h : Keeps s t) : Keeps s (t.updateCache key data) := by
  unfold State.updateCache
  extract_lets _ c
  split
  exacts [h.setCache, h]

theorem Keeps.dropCache {key} (h : Keeps s t) : Keeps s (t.dropCache key) := by
  unfold State.dropCache
  extract_lets _ c
  split
  exacts [h.setCache, h]

theorem Keeps.excToken (h : Keeps s t) : Keeps s t.excToken.1 := .ite_fst h.withRly h.withRly
theorem Keeps.excEvent {reason tail} (h : Keeps s t) : Keeps s (t.excEvent reason tail) := .ite h.post h.post.count
theorem Keeps.excPacket {p reason leg} (h : Keeps s t) : Keeps s (t.excPacket p reason leg) :=
  .ite h.excToken.count.release <| .ite h.excToken.post h.excToken.post.count.release
theorem Keeps.setPacket {p} (h : Keeps s t) : Keeps s (t.setPacket p) := h.withRly
theorem Keeps.forget {p} (h : Keeps s t) : Keeps s (t.forget p) := h.withRly
theorem Keeps.setVersions {n l} (h : Keeps s t) : Keeps s (t.setVersions n l) := h.withRly
theorem Keeps.inflight {n vid up} (h : Keeps s t) : Keeps s (t.inflight n vid up) := h.setVersions

theorem Keeps.finishPacket {p} (h : Keeps s t) : Keeps s (t.finishPacket p) := by
  unfold State.finishPacket
  split
  exacts [h.forget.inflight, h.forget]

theorem Keeps.select {r sel exact} (h : Keeps s t) : Keeps s (t.select r sel exact) := .ite h.setLe.withRly h.setLe.setLe.withRly
theorem Keeps.stateWrite {r bytes} (h : Keeps s t) : Keeps s (t.stateWrite r bytes) := h.setBytes.withRly

theorem Keeps.applySelect {c} (h : Keeps s t) : Keeps s (t.applySelect c) := by
  unfold State.applySelect
  split
  exacts [h.stateWrite, h.select]

theorem Keeps.settleSelects (h : Keeps s t) : Keeps s t.settleSelects := h.withRly.foldl fun _ _ h => h.applySelect
theorem Keeps.dropPacket {p} (h : Keeps s t) : Keeps s (t.dropPacket p) := h.finishPacket.release.settleSelects

theorem Keeps.packetCell {p cls} (h : Keeps s t) : Keeps s (t.packetCell p cls).1 := by
  unfold State.packetCell
  split
  · next e => exact (Keeps.of_eq e h.allocCell).setBytes
  · next e => exact (Keeps.of_eq e h.allocCell)

theorem Keeps.planException {p reason leg} (h : Keeps s t) : Keeps s (t.planException p reason leg) := h.packetCell.setPacket

theorem Keeps.classifyStream {entry rtp at_} (h : Keeps s t) : Keeps s (t.classifyStream entry rtp at_).1 := by
  unfold State.classifyStream
  extract_lets _ _ dd _ _ s₁ s₂ _ mode ddLayer
  have hs₁ : Keeps s s₁ := by
    unfold s₁
    split
    exacts [h.setBytes.setLe.setLe, h]
  have hs₂ : Keeps s s₂ := hs₁.setLe.setLe
  split
  exacts [hs₂, hs₂.inflight]

theorem Keeps.judgePayload {entry rtp n} (h : Keeps s t) : Keeps s (t.judgePayload entry rtp n).1 := .ite_fst h <| .ite h.setLe h
theorem Keeps.noMatch {p} (h : Keeps s t) : Keeps s (t.noMatch p) := .ite h.count.planException h.count.setPacket
theorem Keeps.planWith {p cls plan} (h : Keeps s t) : Keeps s (t.planWith p cls plan) := h.packetCell.setPacket
theorem Keeps.classify {p} (h : Keeps s t) : Keeps s (t.classify p).1 := .ite_fst h.classifyStream h

theorem Keeps.matched {p entry} (h : Keeps s t) : Keeps s (t.matched p entry) := by
  unfold State.matched
  extract_lets _ _ c p₁ pol
  have hc : Keeps s c.1 := h.countObj64.classify
  have hpol : Keeps s pol.1 := hc.police
  exact .ite (.ite hc.setPacket hc.planException) <| .ite hpol.setPacket <| .ite hpol.planWith <| .ite hpol.planWith hpol.planWith

theorem Keeps.touch {w} (h : Keeps s t) : Keeps s (t.touch w).1 := h.setBytes.updateCache
theorem Keeps.lookup {p} (h : Keeps s t) : Keeps s (t.lookup p) :=
  .ite h.count.noMatch (by split; exacts [h.count.useCache.touch.matched, .ite h.count.count.setPacket h.count.setPacket])
theorem Keeps.startDecrypt {p} (h : Keeps s t) : Keeps s (t.startDecrypt p) := h.setPacket.submit

theorem Keeps.completeUnit {n until_} (h : Keeps s t) : Keeps s (t.completeUnit n until_) := by
  unfold State.completeUnit
  split
  exacts [h, h.withRly]

theorem Keeps.reassemble {p} (h : Keeps s t) : Keeps s (t.reassemble p) := by
  unfold State.reassemble
  extract_lets _ _ _ s₁ _ pkt s₂
  have hs₁ : Keeps s s₁ := by
    unfold s₁
    split
    exacts [.ite h h.completeUnit, h]
  have hs₂ : Keeps s s₂ := hs₁.withRly
  exact .ite hs₂.completeUnit hs₂

theorem Keeps.audioLevel {p} (h : Keeps s t) : Keeps s (t.audioLevel p) := by
  unfold State.audioLevel
  split
  exacts [h.emit, h]

theorem Keeps.judged {p} (h : Keeps s t) : Keeps s (t.judged p).1 := by
  unfold State.judged
  extract_lets s₁
  have hs₁ : Keeps s s₁ := h.audioLevel
  split
  exacts [hs₁, hs₁.judgePayload]

theorem Keeps.seatAudio {entry} (h : Keeps s t) : Keeps s (t.seatAudio entry).1 := .ite_fst h <| .ite h.takeDecode h

theorem Keeps.media {p} (h : Keeps s t) : Keeps s (t.media p) := by
  unfold State.media
  extract_lets _ a s₁ j y
  have ha : Keeps s a.1 := h.seatAudio
  have hs₁ : Keeps s s₁ := .ite (.ite ha.reassemble ha) h
  have hj : Keeps s j.1 := hs₁.judged
  split
  exacts [hj.dropPacket, .ite (.dropPacket (.ite hj.count hj)) (.setPacket (.ite hj.count hj))]

theorem Keeps.proceed {p} (h : Keeps s t) : Keeps s (t.proceed p) := by
  unfold State.proceed
  split
  exacts [h.setPacket, h.dropPacket, h.forget.excPacket, h.forget.emit, h.startDecrypt, h.forget.trunkArrive, h.media]

theorem Keeps.enterRelay {p} (h : Keeps s t) : Keeps s (t.enterRelay p) := by
  unfold State.enterRelay
  extract_lets c t₁
  have hc : Keeps s c.1 := h.withRly.classify
  have ht₁ : Keeps s t₁ := hc.planWith
  split
  exacts [ht₁.proceed, ht₁]

theorem Keeps.unloop {n} (h : Keeps s t) : Keeps s (t.unloop n) := .ite h.withRly h

theorem Keeps.receive {n frame} (h : Keeps s t) : Keeps s (t.receive n frame) := by
  unfold State.receive
  extract_lets _ _ da mac s₁ _ p s₂
  have hs₁ : Keeps s s₁ := h.count.count
  have hs₂ : Keeps s s₂ := hs₁.withRly
  refine .ite h.count ?_
  refine .ite h.count ?_
  refine .ite h.count ?_
  refine .ite h.count ?_
  exact .ite h.count (by split; exacts [hs₂.count, hs₂.count, hs₂.setPacket, hs₂.planException, hs₂.lookup])

theorem Keeps.execRxFrame {port frame} (h : Keeps s t) : KeepsNext s (execRxFrame port frame t) :=
  .ite h.next (by split; exacts [h.next, h.unloop.receive.next])
theorem Keeps.countFec {n corrected lost} (h : Keeps s t) : Keeps s (t.countFec n corrected lost) := .ite h h.bump.bump

theorem Keeps.execRxFrameEnd {port fin} (h : Keeps s t) : KeepsNext s (execRxFrameEnd port fin t) := by
  unfold Machine.execRxFrameEnd
  split
  exacts [h.next, .ite h.countFec.count.dropPacket.next <| .ite h.countFec.count.dropPacket.next h.countFec.proceed.next]

theorem Keeps.resolve {w ps} (h : Keeps s t) : Keeps s (t.resolve w ps) := by
  induction ps generalizing t with
  | nil => exact h
  | cons p ps ih =>
    unfold State.resolve
    extract_lets t₁ t₂
    have ht₁ : Keeps s t₁ := by
      unfold t₁
      split
      exacts [h.touch.matched, h.noMatch]
    refine ih ?_
    unfold t₂
    split
    exacts [.ite ht₁.proceed ht₁, ht₁]

theorem Keeps.execFctSlowLookupDone (h : Keeps s t) : KeepsNext s (execFctSlowLookupDone t) := by
  unfold Machine.execFctSlowLookupDone
  split
  · exact h.next
  · extract_lets ws
    split
    exacts [h.fillCache.resolve.next, h.resolve.next]

theorem Keeps.execIngressDecryptDone {packet} (h : Keeps s t) : KeepsNext s (execIngressDecryptDone packet t) := by
  unfold Machine.execIngressDecryptDone
  split
  · exact h.next
  · split
    · extract_lets s₁ s₂ p j
      have hs₁ : Keeps s s₁ := h.dropResult
      have hs₂ : Keeps s s₂ := .ite hs₁ hs₁.setObj
      have hj : Keeps s j.1 := .ite_fst hs₂.judged hs₂
      exact .ite hs₂.count.dropPacket.next <| .ite hs₂.count.dropPacket.next <|
        .ite hs₂.media.next hj.setBytes.forget.excPacket.next
    · exact h.next

theorem Keeps.applyPending {r n} (h : Keeps s t) : Keeps s (t.applyPending r n) := .ite h.setLe.setLe.withRly h

theorem Keeps.judgeReceiver {r n seq} (h : Keeps s t) : Keeps s (t.judgeReceiver r n seq).1 := by
  unfold State.judgeReceiver
  extract_lets s₁
  have hs₁ : Keeps s s₁ := h.applyPending
  refine .ite_fst (.ite_fst hs₁.setLe.setLe.setLe.setLe hs₁.setLe.setLe.setLe.setLe) ?_
  exact .ite_fst hs₁.setLe.setLe.setLe.setLe hs₁.setLe.setLe.setLe.setLe.count

theorem Keeps.copyToLeg {p e seq} (h : Keeps s t) : Keeps s (t.copyToLeg p e seq) :=
  .ite h.count h.count.countObj64.addCopy.submit

theorem Keeps.copyTo {p n e} (h : Keeps s t) : Keeps s (t.copyTo p n e) := by
  unfold State.copyTo
  extract_lets j
  have hj : Keeps s j.1 := h.judgeReceiver
  split
  exacts [hj, .ite (.ite hj hj.count.trunkSend) hj.copyToLeg]

theorem Keeps.execReplicate (h : Keeps s t) : KeepsNext s (execReplicate t) := by
  unfold Machine.execReplicate
  split
  · exact h.next
  · split
    · exact h.next
    · split
      exacts [h.dropPacket.next, .next (.ite h.copyTo.dropPacket h.copyTo.setPacket.settleSelects)]

theorem Keeps.execRouteRetired {stream} (h : Keeps s t) : KeepsNext s (execRouteRetired stream t) := by
  unfold Machine.execRouteRetired
  extract_lets vs
  split
  exacts [h.next, h.setVersions.excEvent.next]

theorem Keeps.enablePort {n} (h : Keeps s t) : Keeps s (t.enablePort n) := .ite h.put.putBit h.put
theorem Keeps.renewFec (h : Keeps s t) : Keeps s t.renewFec := h.foldl fun _ _ h => .ite h.enablePort h

theorem Keeps.abortRx {n} (h : Keeps s t) : Keeps s (t.abortRx n) := by
  unfold State.abortRx
  split
  exacts [h.count.dropPacket, h]

theorem Keeps.disablePort {n} (h : Keeps s t) : Keeps s (t.disablePort n) := h.abortRx.putBit
theorem Keeps.disableRelay (h : Keeps s t) : Keeps s t.disableRelay := .putBit (h.foldl fun _ _ h => h.abortRx)
theorem Keeps.execPortDisable {who port} (h : Keeps s t) : KeepsNext s (execPortDisable who port t) :=
  h.access fun _ h => h.disablePort.next
theorem Keeps.execRelayDisable {who} (h : Keeps s t) : KeepsNext s (execRelayDisable who t) :=
  h.access fun _ h => h.disableRelay.next
theorem Keeps.execLinkChange {port link} (h : Keeps s t) : KeepsNext s (execLinkChange port link t) :=
  .ite h.next h.putBit.putBit.next
theorem Keeps.execAnComplete {port fec} (h : Keeps s t) : KeepsNext s (execAnComplete port fec t) := .ite h.put.next h.next

/-! ### Machine/Hts -/

theorem Keeps.setTask {n t'} (h : Keeps s t) : Keeps s (t.setTask n t') := h.others
theorem Keeps.trace {task consumer reason effort val} (h : Keeps s t) : Keeps s (t.trace task consumer reason effort val) :=
  .ite h <| .ite h.setBytes.put.putBit h.setBytes.put
theorem Keeps.noteReady {t'} (h : Keeps s t) : Keeps s (t.noteReady t') := h.others
theorem Keeps.unready {t'} (h : Keeps s t) : Keeps s (t.unready t') := .ite h.drop.noteReady h
theorem Keeps.releaseHold {who a} (h : Keeps s t) : Keeps s (t.releaseHold who a) := .ite h.log h.setLe

theorem Keeps.releaseHolds {who as} (h : Keeps s t) : Keeps s (t.releaseHolds who as) := by
  induction as generalizing t with
  | nil => exact h
  | cons a as ih => exact ih h.releaseHold

theorem Keeps.freeSlot {n} (h : Keeps s t) : Keeps s (t.freeSlot n) := h.setTask.drop

theorem Keeps.finishTask {n status cons} (h : Keeps s t) : Keeps s (t.finishTask n status cons) :=
  .freeSlot (.postEvent (.trace (.ite (.count (.ite h.unready.count.count <| .ite h.unready.count.count <|
    .ite h.unready.count.count h.unready.count)) <| .ite h.unready.count.count <| .ite h.unready.count.count <|
    .ite h.unready.count.count h.unready.count)))

theorem Keeps.fire {fuel ids} (h : Keeps s t) : Keeps s (t.fire fuel ids) := by
  induction fuel generalizing t ids with
  | zero => unfold State.fire; exact h
  | succ fuel ih =>
    cases ids with
    | nil => exact h
    | cons id ids =>
      unfold State.fire
      split
      · exact ih h
      · refine .ite (ih h) (.ite (ih h.setTask) ?_)
        exact .ite (ih h.setTask.trace.setTask.finishTask) (.ite (ih h.setTask.trace.bump.finishTask) (ih h.setTask.trace.bump))

theorem Keeps.completeTask {n status cons} (h : Keeps s t) : Keeps s (t.completeTask n status cons) := h.finishTask.fire
theorem Keeps.fireEvent {kind frame} (h : Keeps s t) : Keeps s (t.fireEvent kind frame) :=
  .fire (h.others.foldl fun _ _ h => h.setTask)
theorem Keeps.createTask {d} (h : Keeps s t) : Keeps s (t.createTask d).1 :=
  .ite_fst h <| .ite_fst h.count (by split; exacts [h.count, h.setTask.bump.count.put])

theorem Keeps.linkTasks {pred succ first} (h : Keeps s t) : Keeps s (t.linkTasks pred succ first).1 := by
  unfold State.linkTasks
  split
  exacts [h, .ite_fst h (by split; exacts [h, .ite_fst h <| .ite_fst h <| .ite_fst h h.setTask.setTask])]

theorem Keeps.armTask {id} (h : Keeps s t) : Keeps s (t.armTask id).1 := by
  unfold State.armTask
  split
  exacts [.ite_fst h.setTask.fire h, h]

theorem Keeps.execCreate {who desc} (h : Keeps s t) : KeepsNext s (execCreate who desc t) := .ite h.next h.createTask.emit.next
theorem Keeps.execArm {who task} (h : Keeps s t) : KeepsNext s (execArm who task t) := .ite h.next h.armTask.emit.next
theorem Keeps.disarm {g i} (h : Keeps s t) : Keeps s (t.disarm g i) := h.others
theorem Keeps.noticePasses {id count buf} (h : Keeps s t) : Keeps s (t.noticePasses id count buf) := h.others

theorem Keeps.publishStrip {id count buf} (h : Keeps s t) : Keeps s (t.publishStrip id count buf) := by
  unfold State.publishStrip
  split
  exacts [h, .ite h.setTask.noticePasses.emitAll.fire h.setTask.noticePasses.emitAll]

theorem Keeps.execStrip {who task count buf} (h : Keeps s t) : KeepsNext s (execStrip who task count buf t) := by
  unfold Machine.execStrip
  split
  exacts [.ite h.publishStrip.next h.next, h.next]

theorem Keeps.learn {t' cls g} (h : Keeps s t) : Keeps s (t.learn t' cls g) := .ite h <| .ite h.put h.put.putBit.log
theorem Keeps.unitComplete {n status who holds} (h : Keeps s t) : Keeps s (t.unitComplete n status who holds) :=
  h.releaseHolds.learn.completeTask

theorem Keeps.execComplete {who task status holds} (h : Keeps s t) : KeepsNext s (execComplete who task status holds t) := by
  unfold Machine.execComplete
  split
  exacts [.ite h.unitComplete.next h.next, h.next]

theorem Keeps.commitCharge {v} (h : Keeps s t) : Keeps s (t.commitCharge v) := h.others.put

theorem Keeps.giveTask {n g i effort} (h : Keeps s t) : Keeps s (t.giveTask n g i effort) := by
  unfold State.giveTask
  extract_lets t₁ _ c s₁ _ _ _ y y₁ s₂ s₃ _ s₄ s₅ s₆
  have hs₁ : Keeps s s₁ := h.unready
  have hy : Keeps s y := hs₁.count
  have hs₂ : Keeps s s₂ := .ite hy.others hs₁
  have hs₃ : Keeps s s₃ := .ite hs₂.trace hs₂
  have hs₄ : Keeps s s₄ := .ite hs₃.count.trace hs₃
  have hs₅ : Keeps s s₅ := hs₄.trace
  have hs₆ : Keeps s s₆ := hs₅.commitCharge
  exact hs₆.setTask

theorem Keeps.choose {g i fuel} (h : Keeps s t) : Keeps s (t.choose g i fuel).1 := by
  induction fuel generalizing t with
  | zero => exact h
  | succ fuel ih =>
    unfold State.choose
    split
    · exact h
    · split
      exacts [h.giveTask, ih h.trace.completeTask, ih h.count.setTask.others.trace]

theorem Keeps.dispatchGroup {g is} (h : Keeps s t) : Keeps s (t.dispatchGroup g is) := by
  induction is generalizing t with
  | nil => exact h
  | cons i is ih =>
    refine .ite (ih h) ?_
    split
    · next e => exact .of_eq e h.choose
    · next e => exact ih (.of_eq e h.choose)

theorem Keeps.sweep {l} (h : Keeps s t) : Keeps s (t.sweep l) := by
  induction l generalizing t with
  | nil => exact h
  | cons x l ih => exact ih (.ite h.completeTask h)

theorem Keeps.execTaskDispatch {group} (h : Keeps s t) : KeepsNext s (execTaskDispatch group t) :=
  .ite h.sweep.dispatchGroup.next h.sweep.next
theorem Keeps.requeue {n kind} (h : Keeps s t) : Keeps s (t.requeue n kind) :=
  .ite h.setTask.count.trace.bump.completeTask h.setTask.count.trace.bump

theorem Keeps.loseUnit {g i} (h : Keeps s t) : Keeps s (t.loseUnit g i) := by
  unfold State.loseUnit
  split
  exacts [h, .ite h.requeue <| .ite h.requeue <| .ite h.requeue h.completeTask]

theorem Keeps.execSlotsMaxWrite {who} (h : Keeps s t) : KeepsNext s (execSlotsMaxWrite who t) := h.access fun _ h => h.put.next

/-! ### Machine/Pictures -/

theorem Keeps.setSample {p x1 y c v} (h : Keeps s t) : Keeps s (t.setSample p x1 y c v) := h.setLe
theorem Keeps.paint {p ys f} (h : Keeps s t) : Keeps s (t.paint p ys f) :=
  h.foldl fun _ _ h => h.foldl fun _ _ h => h.foldl fun _ _ h => h.setSample
theorem Keeps.reduceStrip {l w h' k} (h : Keeps s t) : Keeps s (t.reduceStrip l w h' k) :=
  .ite (.paint (.paint (.ite h.paint.paint h))) <| .ite h.paint.paint h
theorem Keeps.writeStrip {l w h' k luma chroma} (h : Keeps s t) : Keeps s (t.writeStrip l w h' k luma chroma) :=
  h.paint.paint.reduceStrip
theorem Keeps.writeRecord {a fields} (h : Keeps s t) : Keeps s (t.writeRecord a fields) := h.setBytes.spent

/-! ### Machine/DecodePool -/

theorem Keeps.writeMotion {ctx i w k} (h : Keeps s t) : Keeps s (t.writeMotion ctx i w k) := h.setBytes.spent
theorem Keeps.setCodec {ctx c} (h : Keeps s t) : Keeps s (t.setCodec ctx c) := h.setBytes.spent.others
theorem Keeps.putParam {ctx bs} (h : Keeps s t) : Keeps s (t.putParam ctx bs).1 := h.setBytes.spent
theorem Keeps.keepSets {ctx sets} (h : Keeps s t) : Keeps s (t.keepSets ctx sets) := h.foldl fun _ _ h => h.setCodec.putParam
theorem Keeps.ctxCount {ctx off n} (h : Keeps s t) : Keeps s (t.ctxCount ctx off n) := h.setLe
theorem Keeps.setMark {ctx i w} (h : Keeps s t) : Keeps s (t.setMark ctx i w) := h.setLe
theorem Keeps.setBufRole {ctx i r} (h : Keeps s t) : Keeps s (t.setBufRole ctx i r) := h.setMark
theorem Keeps.unmarkAll {ctx keep} (h : Keeps s t) : Keeps s (t.unmarkAll ctx keep) := h.foldl fun _ _ h => h.setBufRole
theorem Keeps.takeNames {ctx i ns} (h : Keeps s t) : Keeps s (t.takeNames ctx i ns) := h.others.foldl fun _ _ h => h.setBufRole
theorem Keeps.dropNames {ctx ns} (h : Keeps s t) : Keeps s (t.dropNames ctx ns) :=
  h.foldl fun _ _ h => by split; exacts [h.setBufRole, h]
theorem Keeps.makeLong {ctx i} (h : Keeps s t) : Keeps s (t.makeLong ctx i) := h.setMark
theorem Keeps.longNames {ctx ns} (h : Keeps s t) : Keeps s (t.longNames ctx ns) :=
  h.foldl fun _ _ h => by split; exacts [h.makeLong.takeNames, h]

theorem Keeps.decodeRecord {au status flags buf fields} (h : Keeps s t) : Keeps s (t.decodeRecord au status flags buf fields) := by
  unfold State.decodeRecord
  exact .ite h.writeRecord h

theorem Keeps.placeHolds {au ctx i} (h : Keeps s t) : Keeps s (t.placeHolds au ctx i) := h.others.setMark

/-! ### Machine/Vde -/

theorem Keeps.setVdeJob {i j} (h : Keeps s t) : Keeps s (t.setVdeJob i j) := h.putBit.others

theorem Keeps.enterState {ctx old new} (h : Keeps s t) : Keeps s (t.enterState ctx old new) :=
  .ite (.emit (.setCodec (.ite h.setLe.ctxCount h.setLe))) <| .ite (.setCodec (.ite h.setLe.ctxCount h.setLe)) <|
    .ite h.setLe.ctxCount h.setLe

theorem Keeps.notDecoded {vde slot ctx au old status new p} (h : Keeps s t) : Keeps s (t.notDecoded vde slot ctx au old status new p) :=
  .unitComplete (.count (.setLe (.enterState (by split; exacts [h.decodeRecord.placeHolds, h.decodeRecord]))))

theorem Keeps.ctxBad {vde slot au} (h : Keeps s t) : Keeps s (t.ctxBad vde slot au) := by
  unfold State.ctxBad
  exact h.decodeRecord.count.unitComplete

theorem Keeps.fillStandin {ctx i} (h : Keeps s t) : Keeps s (t.fillStandin ctx i) := by
  unfold State.fillStandin
  extract_lets l src size s₁ s₂ _ s₃ c
  have hs₁ : Keeps s s₁ := by
    refine .foldl h fun _ _ h => ?_
    clear_value src
    split
    exacts [h.writeStrip, h.writeStrip]
  have hs₂ : Keeps s s₂ := hs₁.foldl fun _ _ h => h.writeMotion
  have hs₃ : Keeps s s₃ := .ite hs₂ hs₂.setMark
  exact hs₃.setCodec

theorem Keeps.makeStandin {vde ctx i name referenced} (h : Keeps s t) : Keeps s (t.makeStandin vde ctx i name referenced) :=
  .ite h.setMark.setCodec.takeNames.ctxCount.count.fillStandin h.setMark.setCodec.takeNames.ctxCount.count

theorem Keeps.makeStandins {vde ctx : Nat} {is : List Nat} {rs : List (Nat × Bool)} (h : Keeps s t) :
    Keeps s (t.makeStandins vde ctx is rs) := by
  induction is generalizing t rs with
  | nil => exact h
  | cons i is ih =>
    cases rs with
    | nil => exact h
    | cons r rs => exact ih h.makeStandin

theorem Keeps.fillFirst {ctx refs} (h : Keeps s t) : Keeps s (t.fillFirst ctx refs) := h.foldl fun _ _ h => h.fillStandin

theorem Keeps.startPicture {vde slot ctx au st p} (h : Keeps s t) : Keeps s (t.startPicture vde slot ctx au st p) := by
  unfold State.startPicture
  extract_lets _ need d s₁
  have hd : Keeps s d := h.dropNames
  have hs₁ : Keeps s s₁ := hd
  split
  exacts [.ite h.notDecoded hs₁.setMark.others.makeStandins.fillFirst.setVdeJob.disarm.putPair.put.put, h.notDecoded]

theorem Keeps.noPicture {vde slot ctx au old new f shown p} (h : Keeps s t) :
    Keeps s (t.noPicture vde slot ctx au old new f shown p) := by
  unfold State.noPicture
  extract_lets s₁ s₂ s₃
  have hs₁ : Keeps s s₁ := by
    unfold s₁
    split
    exacts [h.placeHolds, h]
  have hs₂ : Keeps s s₂ := hs₁.decodeRecord
  have hs₃ : Keeps s s₃ := .ite hs₂.count hs₂
  exact hs₃.enterState.setLe.unitComplete

theorem Keeps.showExisting {vde slot ctx au st n p} (h : Keeps s t) : Keeps s (t.showExisting vde slot ctx au st n p) := by
  unfold State.showExisting
  extract_lets need s₁
  have hs₁ : Keeps s s₁ := h.makeStandins
  exact .ite h.notDecoded (by split; exacts [hs₁.notDecoded, hs₁.fillFirst.takeNames.noPicture])

theorem Keeps.enterUnit {vde ctx reset} (h : Keeps s t) : Keeps s (t.enterUnit vde ctx reset) :=
  .ite (.others (.ite h.setLe.unmarkAll.setCodec h.setLe)) <| .ite h.setLe.unmarkAll.setCodec h.setLe

theorem Keeps.execDecodeStart {vde pic} (h : Keeps s t) : KeepsNext s (execDecodeStart vde pic t) := by
  unfold Machine.execDecodeStart
  split
  · refine .ite h.next ?_
    extract_lets _ _ _ _ p s₁ _ _ shows
    have hs₁ : Keeps s s₁ := h.enterUnit.keepSets
    refine .ite h.ctxBad.next ?_
    refine .ite hs₁.noPicture.next ?_
    refine .ite hs₁.notDecoded.next ?_
    refine .ite hs₁.notDecoded.next ?_
    refine .ite hs₁.notDecoded.next ?_
    refine .ite hs₁.notDecoded.next ?_
    refine .ite hs₁.notDecoded.next ?_
    clear_value shows
    split
    exacts [hs₁.showExisting.next, hs₁.startPicture.next]
  · exact h.next

theorem Keeps.decodeStrip {j luma chroma lost} (h : Keeps s t) : Keeps s (t.decodeStrip j luma chroma lost) :=
  h.writeStrip.writeMotion

theorem Keeps.execStripPublished {vde luma chroma fin} (h : Keeps s t) : KeepsNext s (execStripPublished vde luma chroma fin t) := by
  unfold Machine.execStripPublished
  split
  exacts [h.next, .ite h.next h.decodeStrip.setVdeJob.put.publishStrip.next]

theorem Keeps.rowFill {ctx buf w h' k} (h : Keeps s t) : Keeps s (t.rowFill ctx buf w h' k) :=
  h.foldl fun _ _ h => by split; exacts [h.writeStrip, h.writeStrip]
theorem Keeps.publishRest {id buf h' k} (h : Keeps s t) : Keeps s (t.publishRest id buf h' k) :=
  h.foldl fun _ _ h => h.publishStrip
theorem Keeps.vdeBlocked {vde a task} (h : Keeps s t) : Keeps s (t.vdeBlocked vde a task) := h.putPair.log.count
theorem Keeps.markOthers {j f abandoned} (h : Keeps s t) : Keeps s (t.markOthers j f abandoned) :=
  .ite (.unmarkAll (.ite h h.dropNames.longNames)) <| .ite h h.dropNames.longNames
theorem Keeps.markOwn {j f abandoned concealed} (h : Keeps s t) : Keeps s (t.markOwn j f abandoned concealed) :=
  h.setMark.takeNames

theorem Keeps.putGrain {ctx a} (h : Keeps s t) : Keeps s (t.putGrain ctx a).1 := by
  unfold State.putGrain
  split
  exacts [h, h.putParam]

theorem Keeps.finishPicture {vde j f status abandoned} (h : Keeps s t) : Keeps s (t.finishPicture vde j f status abandoned) := by
  unfold State.finishPicture
  extract_lets p _ _ _ _ _ _ _ shown _ s₁ s₂ fl
  have hs₁ : Keeps s s₁ := by
    unfold s₁
    clear_value shown
    split
    exacts [h.placeHolds, h]
  have hs₂ : Keeps s s₂ := hs₁.markOthers.markOwn
  split
  · next e =>
      extract_lets s₃ s₄ s₅ s₆ s₇ s₈ s₉ s₁₀ s₁₁
      have hs₃ : Keeps s s₃ := (Keeps.of_eq e hs₂.putGrain).decodeRecord
      have hs₄ : Keeps s s₄ := hs₃.enterState
      have hs₅ : Keeps s s₅ := hs₄.setCodec
      have hs₆ : Keeps s s₆ := hs₅.ctxCount
      have hs₇ : Keeps s s₇ := .ite hs₆.ctxCount.count hs₆
      have hs₈ : Keeps s s₈ := .ite hs₇.ctxCount.count hs₇
      have hs₉ : Keeps s s₉ := hs₈.count.count.count
      have hs₁₀ : Keeps s s₁₀ := hs₉.count.put
      have hs₁₁ : Keeps s s₁₁ := hs₁₀.setLe.setVdeJob.unitComplete
      exact .ite hs₁₁.retried hs₁₁

theorem Keeps.execDecodeComplete {vde fin} (h : Keeps s t) : KeepsNext s (execDecodeComplete vde fin t) := by
  unfold Machine.execDecodeComplete
  split
  · exact h.next
  · extract_lets _ strays _ s₁ s₂
    have hs₁ : Keeps s s₁ := h.foldl fun _ _ h => h.vdeBlocked
    have hs₂ : Keeps s s₂ := .ite hs₁.rowFill.publishRest hs₁
    exact .ite h.next hs₂.finishPicture.next

theorem Keeps.execVdeWatchdogExpiry {vde cycles} (h : Keeps s t) : KeepsNext s (execVdeWatchdogExpiry vde cycles t) := by
  unfold Machine.execVdeWatchdogExpiry
  split
  exacts [h.next, .ite h.next <| .ite h.count.setVdeJob.put.next h.count.fence.putBit.loseUnit.next]

theorem Keeps.execDecodeFill {vde fill} (h : Keeps s t) : KeepsNext s (execDecodeFill vde fill t) := by
  unfold Machine.execDecodeFill
  split
  · refine .ite h.next ?_
    extract_lets _ _ _ fin
    split
    · exact h.ctxBad.next
    · exact .ite h.ctxBad.next (.next (.finishPicture (.others (h.rowFill.publishRest.foldl fun _ _ h => h.vdeBlocked))))
  · exact h.next

theorem Keeps.execInjWd {who engine} (h : Keeps s t) : KeepsNext s (execInjWd who engine t) := h.access fun _ h => h.others.next
theorem Keeps.execHoldRelease {who mark} (h : Keeps s t) : KeepsNext s (execHoldRelease who mark t) := h.releaseHold.next

theorem Keeps.execFirResend {ctx} (h : Keeps s t) : KeepsNext s (execFirResend ctx t) := by
  unfold Machine.execFirResend
  split
  exacts [h.next, .ite h.others.emit.next h.next]

/-! ### Machine/Handover -/

theorem Keeps.releaseAll {ps} (h : Keeps s t) : Keeps s (t.releaseAll ps) := h.foldl fun _ _ h => h.release

theorem Keeps.fillCells {taken bs} (h : Keeps s t) : Keeps s (t.fillCells taken bs).1 := by
  induction bs generalizing t taken with
  | nil => exact h
  | cons b bs ih =>
    unfold State.fillCells
    split
    · next e => exact ih (Keeps.of_eq e h.allocCell).setBytes
    · next e => exact (Keeps.of_eq e h.allocCell).releaseAll

theorem Keeps.createDecode {stream at_ cells tpl} (h : Keeps s t) : Keeps s (t.createDecode stream at_ cells tpl) :=
  .ite h.createTask.linkTasks.withRly.armTask.emit <| .ite h.createTask.releaseAll.withRly h.createTask.releaseAll

theorem Keeps.execAuHandover {tpl} (h : Keeps s t) : KeepsNext s (execAuHandover tpl t) := by
  unfold Machine.execAuHandover
  split
  · exact h.next
  · extract_lets s₁ ps
    have hs₁ : Keeps s s₁ := h.withRly
    split
    · exact hs₁.emitAll.next
    · refine .ite hs₁.withFw.next ?_
      extract_lets
      split
      · next e => exact (Keeps.of_eq e hs₁.withFw.withRly.fillCells).next
      · next s₃ _ e₃ =>
          have hs₃ : Keeps s s₃ := .of_eq e₃ hs₁.withFw.withRly.fillCells
          split
          · next e => exact (Keeps.of_eq e hs₃.allocCell).setBytes.createDecode.next
          · next e => exact (Keeps.of_eq e hs₃.allocCell).releaseAll.next

/-! ### Machine/OutputStream -/

theorem Keeps.injectRtp {stream cls rtp} (h : Keeps s t) : Keeps s (t.injectRtp stream cls rtp) := h.withRly.enterRelay

theorem Keeps.handReport {r status} (h : Keeps s t) : Keeps s (t.handReport r status) := by
  unfold State.handReport
  split
  exacts [h, .ite h.injectRtp h, h.setObj]

/-! ### Machine/Operands -/

theorem Keeps.setCore {c k} (h : Keeps s t) : Keeps s (t.setCore c k) := h.others
theorem Keeps.setLocalByte {c a v} (h : Keeps s t) : Keeps s (t.setLocalByte c a v) := .ite h.others <| .ite h.setCore h

theorem Keeps.setLocalBytes {c a bs} (h : Keeps s t) : Keeps s (t.setLocalBytes c a bs) := by
  induction bs generalizing t a with
  | nil => exact h
  | cons b bs ih => exact ih h.setLocalByte

theorem Keeps.coreIrq {c n} (h : Keeps s t) : Keeps s (t.coreIrq c n) := .ite h h.setCore
theorem Keeps.startDma {c n desc} (h : Keeps s t) : Keeps s (t.startDma c n desc) := .ite h.setCore.coreIrq h.setCore
theorem Keeps.controlWrite {c a v} (h : Keeps s t) : Keeps s (t.controlWrite c a v) :=
  .ite h.setCore <| .ite h.setCore <| .ite h.setCore <| .ite h.startDma h.setCore
theorem Keeps.localWrite {c a bs} (h : Keeps s t) : Keeps s (t.localWrite c a bs) := .ite h.controlWrite h.setLocalBytes

/-! ### Machine/Dsp -/

theorem Keeps.settleCore {c} (h : Keeps s t) : Keeps s (t.settleCore c) := .ite h <| .ite (.ite h.setCore h) <| .ite h.setCore h

theorem Keeps.completeCoreTask {c status} (h : Keeps s t) : Keeps s (t.completeCoreTask c status) := by
  unfold State.completeCoreTask
  split
  exacts [h.count.unitComplete, h]

theorem Keeps.bumpKernelFaults {kernel} (h : Keeps s t) : Keeps s (t.bumpKernelFaults kernel) := h.bumpObj

theorem Keeps.kernelFault {c cause addr} (h : Keeps s t) : Keeps s (t.kernelFault c cause addr) := by
  unfold State.kernelFault
  extract_lets k s₁ s₂ s₃ s₄ _ s₅ y s₆
  have hs₁ : Keeps s s₁ := h.put.put
  have hs₂ : Keeps s s₂ := .ite hs₁.put hs₁
  have hs₃ : Keeps s s₃ := hs₂.count
  have hs₄ : Keeps s s₄ := by
    unfold s₄
    split
    exacts [hs₃.bumpKernelFaults, hs₃]
  have hs₅ : Keeps s s₅ := hs₄.spent.log
  have hs₆ : Keeps s s₆ := hs₅.setCore.completeCoreTask
  exact hs₆.settleCore

theorem Keeps.storeAll {c l} (h : Keeps s t) : Keeps s (t.storeAll c l) := by
  induction l generalizing t with
  | nil => exact h
  | cons x l ih => exact ih h.localWrite

theorem Keeps.endBundle {c} (h : Keeps s t) : Keeps s (t.endBundle c) := by
  unfold State.endBundle
  extract_lets k b k₁ s₁ n call n₁ n₂ s₂ s₃ s₄ s₅
  have hs₁ : Keeps s s₁ := h.spent
  have hs₂ : Keeps s s₂ := hs₁.setCore
  have hs₃ : Keeps s s₃ := by
    unfold s₃
    clear_value call
    split
    exacts [hs₂.put, hs₂]
  have hs₄ : Keeps s s₄ := hs₃.storeAll
  have hs₅ : Keeps s s₅ := hs₄.foldl fun _ _ h => h.coreIrq
  exact .ite hs₁.kernelFault <| .ite hs₅.count hs₅

theorem Keeps.issue {c slot last eff} (h : Keeps s t) : Keeps s (t.issue c slot last eff) :=
  .ite h <| .ite h.kernelFault (by split; exacts [h.kernelFault, .ite h.spent.setCore.endBundle h.spent.setCore])
theorem Keeps.execLd {core slot dst addr last} (h : Keeps s t) : KeepsNext s (execLd core slot dst addr last t) := h.issue.next
theorem Keeps.execLd2 {core slot dst addr last} (h : Keeps s t) : KeepsNext s (execLd2 core slot dst addr last t) := h.issue.next
theorem Keeps.execSt {core slot addr src last} (h : Keeps s t) : KeepsNext s (execSt core slot addr src last t) := h.issue.next
theorem Keeps.execSt2 {core slot addr src last} (h : Keeps s t) : KeepsNext s (execSt2 core slot addr src last t) := h.issue.next
theorem Keeps.execMod {core slot a m last} (h : Keeps s t) : KeepsNext s (execMod core slot a m last t) := h.issue.next
theorem Keeps.execAdd {core dst x2 y last} (h : Keeps s t) : KeepsNext s (execAdd core dst x2 y last t) := h.issue.next
theorem Keeps.execSub {core dst x2 y last} (h : Keeps s t) : KeepsNext s (execSub core dst x2 y last t) := h.issue.next
theorem Keeps.execDspAnd {core dst x2 y last} (h : Keeps s t) : KeepsNext s (execDspAnd core dst x2 y last t) := h.issue.next
theorem Keeps.execDspOr {core dst x2 y last} (h : Keeps s t) : KeepsNext s (execDspOr core dst x2 y last t) := h.issue.next
theorem Keeps.execXor {core dst x2 y last} (h : Keeps s t) : KeepsNext s (execXor core dst x2 y last t) := h.issue.next
theorem Keeps.execAsh {core dst x2 y last} (h : Keeps s t) : KeepsNext s (execAsh core dst x2 y last t) := h.issue.next
theorem Keeps.execLsh {core dst x2 y last} (h : Keeps s t) : KeepsNext s (execLsh core dst x2 y last t) := h.issue.next
theorem Keeps.execMin {core dst x2 y last} (h : Keeps s t) : KeepsNext s (execMin core dst x2 y last t) := h.issue.next
theorem Keeps.execMax {core dst x2 y last} (h : Keeps s t) : KeepsNext s (execMax core dst x2 y last t) := h.issue.next
theorem Keeps.execAbs {core dst x2 last} (h : Keeps s t) : KeepsNext s (execAbs core dst x2 last t) := h.issue.next
theorem Keeps.execNeg {core dst x2 last} (h : Keeps s t) : KeepsNext s (execNeg core dst x2 last t) := h.issue.next
theorem Keeps.execCmp {core x1 y last} (h : Keeps s t) : KeepsNext s (execCmp core x1 y last t) := h.issue.next
theorem Keeps.execAdda {core dst src imm last} (h : Keeps s t) : KeepsNext s (execAdda core dst src imm last t) := h.issue.next
theorem Keeps.execMov {core dst src last} (h : Keeps s t) : KeepsNext s (execMov core dst src last t) := h.issue.next
theorem Keeps.execMvg {core toAcc acc d last} (h : Keeps s t) : KeepsNext s (execMvg core toAcc acc d last t) := h.issue.next
theorem Keeps.execMac2 {core a b w x4 y z last} (h : Keeps s t) : KeepsNext s (execMac2 core a b w x4 y z last t) := h.issue.next
theorem Keeps.execMsu2 {core a b w x4 y z last} (h : Keeps s t) : KeepsNext s (execMsu2 core a b w x4 y z last t) := h.issue.next
theorem Keeps.execMpy2 {core a b w x4 y z last} (h : Keeps s t) : KeepsNext s (execMpy2 core a b w x4 y z last t) := h.issue.next
theorem Keeps.execMac {core a x2 y last} (h : Keeps s t) : KeepsNext s (execMac core a x2 y last t) := h.issue.next
theorem Keeps.execMsu {core a x2 y last} (h : Keeps s t) : KeepsNext s (execMsu core a x2 y last t) := h.issue.next
theorem Keeps.execMpy {core a x2 y last} (h : Keeps s t) : KeepsNext s (execMpy core a x2 y last t) := h.issue.next
theorem Keeps.execAccadd {core a b c last} (h : Keeps s t) : KeepsNext s (execAccadd core a b c last t) := h.issue.next
theorem Keeps.execAccsh {core a shift last} (h : Keeps s t) : KeepsNext s (execAccsh core a shift last t) := h.issue.next
theorem Keeps.execRnd {core d a last} (h : Keeps s t) : KeepsNext s (execRnd core d a last t) := h.issue.next
theorem Keeps.execClr2 {core a b last} (h : Keeps s t) : KeepsNext s (execClr2 core a b last t) := h.issue.next
theorem Keeps.execDspB {core offset last} (h : Keeps s t) : KeepsNext s (execDspB core offset last t) := h.issue.next
theorem Keeps.execBcc {core cond offset last} (h : Keeps s t) : KeepsNext s (execBcc core cond offset last t) := h.issue.next
theorem Keeps.execCall {core offset last} (h : Keeps s t) : KeepsNext s (execCall core offset last t) := h.issue.next
theorem Keeps.execRet {core last} (h : Keeps s t) : KeepsNext s (execRet core last t) := h.issue.next
theorem Keeps.execDspRep {core level count end_ last} (h : Keeps s t) : KeepsNext s (execDspRep core level count end_ last t) :=
  h.issue.next
theorem Keeps.execBrk {core level last} (h : Keeps s t) : KeepsNext s (execBrk core level last t) := h.issue.next
theorem Keeps.execRti {core last} (h : Keeps s t) : KeepsNext s (execRti core last t) := h.issue.next
theorem Keeps.execSwi {core n last} (h : Keeps s t) : KeepsNext s (execSwi core n last t) := h.issue.next
theorem Keeps.execNop {core slot last} (h : Keeps s t) : KeepsNext s (execNop core slot last t) := h.issue.next
theorem Keeps.execTake {core dst} (h : Keeps s t) : KeepsNext s (execTake core dst t) :=
  .ite h.next <| .ite h.kernelFault.next h.setCore.settleCore.next

theorem Keeps.execTakeGrant {core} (h : Keeps s t) : KeepsNext s (execTakeGrant core t) := by
  unfold Machine.execTakeGrant
  extract_lets k
  split
  exacts [h.next, .ite h.next h.setLocalBytes.setCore.endBundle.next]

theorem Keeps.finishDone {c status report} (h : Keeps s t) : Keeps s (t.finishDone c status report) :=
  .settleCore (.endBundle (.handReport (.ite h.setCore.completeCoreTask.retried h.setCore.completeCoreTask)))
theorem Keeps.execDone {core fin} (h : Keeps s t) : KeepsNext s (execDone core fin t) :=
  .ite h.next <| .ite h.kernelFault.next <| .ite h.kernelFault.next <| .ite h.setCore.finishDone.next h.setCore.next

theorem Keeps.execDoneDmaDrained {core} (h : Keeps s t) : KeepsNext s (execDoneDmaDrained core t) := by
  unfold Machine.execDoneDmaDrained
  split
  exacts [.ite h.finishDone.next h.next, h.next]

theorem Keeps.execInterruptTaken {core} (h : Keeps s t) : KeepsNext s (execInterruptTaken core t) := by
  unfold Machine.execInterruptTaken
  extract_lets k _ f
  split
  exacts [h.next, .ite (.next (.setCore (.ite h.put h))) h.next]

theorem Keeps.execCoreTimerExpiry {core} (h : Keeps s t) : KeepsNext s (execCoreTimerExpiry core t) := by
  unfold Machine.execCoreTimerExpiry
  extract_lets k
  split
  exacts [.ite h.setCore.coreIrq.next h.next, h.next]

theorem Keeps.execDscDoorbell {who cluster ring} (h : Keeps s t) : KeepsNext s (execDscDoorbell who cluster ring t) :=
  h.access fun _ h => .next (h.foldl fun _ _ h => h.coreIrq)
theorem Keeps.execIrqWaitMaxWrite {who cluster} (h : Keeps s t) : KeepsNext s (execIrqWaitMaxWrite who cluster t) :=
  h.access fun _ h => h.put.next
theorem Keeps.frameIrq (h : Keeps s t) : Keeps s t.frameIrq := h.foldl fun _ _ h => h.coreIrq
theorem Keeps.execHalt {who core on} (h : Keeps s t) : KeepsNext s (execHalt who core on t) :=
  h.access fun _ h => .ite h.putBit.log.next <| .ite h.putBit.setCore.next <| .ite h.putBit.setCore.next h.putBit.setCore.next
theorem Keeps.execStep {who core} (h : Keeps s t) : KeepsNext s (execStep who core t) :=
  h.access fun _ h => .ite h.setCore.next h.next
theorem Keeps.execDspWatchdogExpiry {spent} (h : Keeps s t) : KeepsNext s (execDspWatchdogExpiry spent t) :=
  .ite h.next <| .ite h.setCore.next h.setCore.next
theorem Keeps.execSelftestDone {core pass} (h : Keeps s t) : KeepsNext s (execSelftestDone core pass t) :=
  .ite h.next <| .ite h.kernelFault.next h.setCore.fence.loseUnit.next
theorem Keeps.execDmaStart {core channel desc} (h : Keeps s t) : KeepsNext s (execDmaStart core channel desc t) := h.startDma.next

/-! ### Machine/FctEngine -/

theorem Keeps.execRlyFctClaim {who} (h : Keeps s t) : KeepsNext s (execRlyFctClaim who t) := h.accessRead fun _ h => h.claim.next
theorem Keeps.execRlyFctRelease {who} (h : Keeps s t) : KeepsNext s (execRlyFctRelease who t) :=
  h.access fun _ h => h.unclaim.next
theorem Keeps.startJob {op run} (h : Keeps s t) (hr : ∀ u, Keeps s u → Keeps s (run u).1) : Keeps s (t.startJob op run) :=
  (hr _ h.putBit).withRly
theorem Keeps.fctCommand {who op run} (h : Keeps s t) (hr : ∀ u, Keeps s u → Keeps s (run u).1) :
    Keeps s (t.fctCommand who op run) := .ite h.putBit (h.startJob hr)

theorem Keeps.fctInsert {e} (h : Keeps s t) : Keeps s (t.fctInsert e).1 := by
  unfold State.fctInsert
  extract_lets key e₁
  refine .ite_fst h ?_
  split
  · exact h
  · split
    exacts [h, h.setBytes]

theorem Keeps.fctUpdate {e} (h : Keeps s t) : Keeps s (t.fctUpdate e).1 :=
  .ite_fst h (by split; exacts [h, h.setBytes.updateCache])
theorem Keeps.fctRemove {e} (h : Keeps s t) : Keeps s (t.fctRemove e) := h.setBytes.dropCache

theorem Keeps.fctDelete {e} (h : Keeps s t) : Keeps s (t.fctDelete e).1 := by
  unfold State.fctDelete
  split
  exacts [h, h.fctRemove]

theorem Keeps.fctLookup {e} (h : Keeps s t) : Keeps s (t.fctLookup e).1 := by
  unfold State.fctLookup
  split
  exacts [h, h]

theorem Keeps.routeCommit {stream ptr} (h : Keeps s t) : Keeps s (t.routeCommit stream ptr).1 :=
  .ite_fst h <| .ite_fst h h.setLe.setLe.withRly.setVersions
theorem Keeps.changeSelect {r bytes sel exact} (h : Keeps s t) : Keeps s (t.changeSelect r bytes sel exact).1 :=
  h.withRly.settleSelects

theorem Keeps.clearValid {as} (h : Keeps s t) : Keeps s (t.clearValid as) := by
  induction as generalizing t with
  | nil => exact h
  | cons a as ih => exact ih h.setByte

theorem Keeps.fctClear (h : Keeps s t) : Keeps s t.fctClear.1 := h.clearValid.withRly.putBit

theorem Keeps.runFct {op} (h : Keeps s t) : Keeps s (t.runFct op).1 :=
  .ite_fst h.fctInsert <| .ite_fst h.fctUpdate <| .ite_fst h.fctDelete <| .ite_fst h.fctLookup <| .ite_fst h.routeCommit <|
    .ite_fst h.changeSelect <| .ite_fst h.changeSelect <| .ite_fst h.fctClear h

theorem Keeps.fctIssue {who op} (h : Keeps s t) : Keeps s (t.fctIssue who op) := h.fctCommand fun _ h => h.runFct
theorem Keeps.execInsert {who} (h : Keeps s t) : KeepsNext s (execInsert who t) := h.access fun _ h => h.fctIssue.next
theorem Keeps.execUpdate {who} (h : Keeps s t) : KeepsNext s (execUpdate who t) := h.access fun _ h => h.fctIssue.next
theorem Keeps.execDelete {who} (h : Keeps s t) : KeepsNext s (execDelete who t) := h.access fun _ h => h.fctIssue.next
theorem Keeps.execLookup {who} (h : Keeps s t) : KeepsNext s (execLookup who t) := h.access fun _ h => h.fctIssue.next
theorem Keeps.execRouteCommit {who} (h : Keeps s t) : KeepsNext s (execRouteCommit who t) := h.access fun _ h => h.fctIssue.next
theorem Keeps.execSelect {who} (h : Keeps s t) : KeepsNext s (execSelect who t) := h.access fun _ h => h.fctIssue.next
theorem Keeps.execStateWrite {who} (h : Keeps s t) : KeepsNext s (execStateWrite who t) := h.access fun _ h => h.fctIssue.next
theorem Keeps.execClear {who} (h : Keeps s t) : KeepsNext s (execClear who t) := h.access fun _ h => h.fctIssue.next
theorem Keeps.startClear (h : Keeps s t) : Keeps s t.startClear := h.withRly.startJob fun _ h => h.fctClear

theorem Keeps.execFctCommandDone (h : Keeps s t) : KeepsNext s (execFctCommandDone t) := by
  unfold Machine.execFctCommandDone
  split
  · exact h.next
  · extract_lets s₁ s₂ s₃ s₄
    have hs₁ : Keeps s s₁ := h.withRly.putBit
    have hs₂ : Keeps s s₂ := hs₁.put.put.put
    have hs₃ : Keeps s s₃ := by
      unfold s₃
      split
      exacts [hs₂.foldl fun _ _ h => h.put, hs₂]
    have hs₄ : Keeps s s₄ := .ite hs₃.putBit hs₃
    exact .next (.ite hs₄.startClear hs₄)

theorem Keeps.writeSeed {v} (h : Keeps s t) : Keeps s (t.writeSeed v) := .ite h <| .ite h.put.withRly h.put.startClear
theorem Keeps.execHashSeedWrite {who value} (h : Keeps s t) : KeepsNext s (execHashSeedWrite who value t) :=
  h.access fun _ h => .ite h.writeSeed.next <| .ite h.next h.putBit.log.next
theorem Keeps.execAgeScan {entry} (h : Keeps s t) : KeepsNext s (execAgeScan entry t) := .ite h.fctRemove.excEvent.next h.next

/-! ### Machine/Mxm -/

theorem Keeps.mixEvent {type what frame sample} (h : Keeps s t) : Keeps s (t.mixEvent type what frame sample) := h.postEvent
theorem Keeps.setSource {i c} (h : Keeps s t) : Keeps s (t.setSource i c) := h.withMxm.put.put
theorem Keeps.feedSource {i xs} (h : Keeps s t) : Keeps s (t.feedSource i xs).1 := .ite_fst h.count h.setSource
theorem Keeps.portWrite {who i offset data} (h : Keeps s t) : Keeps s (t.portWrite who i offset data) :=
  .ite (.ite h.feedSource h.feedSource.emit) h.count.emit

theorem Keeps.execSourcePortWrite {who source offset data} (h : Keeps s t) :
    KeepsNext s (execSourcePortWrite who source offset data t) :=
  h.portWrite.next

theorem Keeps.applySource {i} (h : Keeps s t) : Keeps s (t.applySource i) :=
  .ite (.ite h.setSource h.setSource) <| .ite h.setSource h
theorem Keeps.execSourceCfgApply {source} (h : Keeps s t) : KeepsNext s (execSourceCfgApply source t) :=
  .next (.ite h.applySource h)

theorem Keeps.convertAll {l} (h : Keeps s t) : Keeps s (t.convertAll l).1 := by
  induction l generalizing t with
  | nil => exact h
  | cons x l ih => exact .ite_fst (ih (.ite h.spent.setSource.count.mixEvent h.spent.setSource)) (ih (.ite h h.setSource))

theorem Keeps.setBus {b x1} (h : Keeps s t) : Keeps s (t.setBus b x1) := h.withMxm

theorem Keeps.applyGroup {g n} (h : Keeps s t) : Keeps s (t.applyGroup g n) :=
  .ite (.withMxm (.withMxm (.mixEvent (.count (h.foldl fun _ _ h => h.setBus.withMxm))))) (.withMxm (.mixEvent (.count
    (h.foldl fun _ _ h => h.setBus.withMxm))))

theorem Keeps.evalSwaps {n} (h : Keeps s t) : Keeps s (t.evalSwaps n) := h.foldl fun _ _ h => .ite h.applyGroup h
theorem Keeps.makeStep {b t' timedOut} (h : Keeps s t) : Keeps s (t.makeStep b t' timedOut) := .ite h.setBus.count h.setBus
theorem Keeps.settleSteps {n} (h : Keeps s t) : Keeps s (t.settleSteps n) := h.withMxm.foldl fun _ _ h => h.mixEvent
theorem Keeps.stepBus {b n mine cross} (h : Keeps s t) : Keeps s (t.stepBus b n mine cross) :=
  h.foldl fun _ _ h => .ite (.ite h.makeStep <| .ite h.makeStep h) h

theorem Keeps.busSample {b n i xs run} (h : Keeps s t) : Keeps s (t.busSample b n i xs run).1 := by
  unfold State.busSample
  extract_lets x s₁ s₂ y s₃
  have hs₁ : Keeps s s₁ := .ite h h.count.mixEvent
  have hs₂ : Keeps s s₂ := hs₁.stepBus
  have hs₃ : Keeps s s₃ := .ite h.count h
  split
  · exact hs₂.setBus
  · extract_lets s₄
    have hs₄ : Keeps s s₄ := hs₃.stepBus
    exact .setBus (.ite (.count (by split; exacts [hs₄.spent, hs₄])) (by split; exacts [hs₄.spent, hs₄]))

theorem Keeps.mixSample {xs run i} (h : Keeps s t) : Keeps s (t.mixSample xs run i).1 :=
  .settleSteps (.foldl_fst (h.evalSwaps.foldl fun _ _ h => h.stepBus) fun _ _ h => h.busSample)

theorem Keeps.mixSamples {xs : FrameInputs} {run : MixRun} {k i : Nat} (h : Keeps s t) : Keeps s (t.mixSamples xs run k i).1 := by
  induction k generalizing t run i with
  | zero => exact h
  | succ k ih => exact ih h.mixSample

theorem Keeps.setArea {k bs} (h : Keeps s t) : Keeps s (t.setArea k bs) := by
  induction bs generalizing t k with
  | nil => exact h
  | cons b bs ih => exact ih h.withMxm

theorem Keeps.blankHalf {frame} (h : Keeps s t) : Keeps s (t.blankHalf frame) := h.withMxm
theorem Keeps.writeArea {frame b ys} (h : Keeps s t) : Keeps s (t.writeArea frame b ys) :=
  .setArea (.ite (.spent (.setArea (.ite h.setArea.setArea.spent h.setArea))) <| .ite h.setArea.setArea.spent h.setArea)
theorem Keeps.execFrameStart (h : Keeps s t) : KeepsNext s (execFrameStart t) :=
  .ite h.next (.next (.frameIrq (.fireEvent (.put (h.withMxm.foldl fun _ _ h => h.applySource)))))
theorem Keeps.mixDone {status frame} (h : Keeps s t) : Keeps s (t.mixDone status frame) := h.emit.fireEvent
theorem Keeps.nextFrame (h : Keeps s t) : Keeps s t.nextFrame := h.withMxm.put

theorem Keeps.mixOnce (h : Keeps s t) : Keeps s t.mixOnce.1 := by
  unfold State.mixOnce
  extract_lets f due s₁
  have hs₁ : Keeps s s₁ := .ite (h.foldl fun _ _ h => h.startBeacon) h
  split
  rename_i e₂
  split
  rename_i s₃ _ e₃
  have hs₃ : Keeps s s₃ := .of_eq e₃ (.mixSamples (.of_eq e₂ hs₁.convertAll))
  exact .count (hs₃.advanceBeacons.blankHalf.foldl fun _ _ h => h.writeArea)

theorem Keeps.execMixFrame {check} (h : Keeps s t) : KeepsNext s (execMixFrame check t) := by
  unfold Machine.execMixFrame
  refine .ite h.next ?_
  refine .ite h.nextFrame.next ?_
  extract_lets _ s₁
  have hs₁ : Keeps s s₁ := .ite h.fenceOpen h
  refine .ite hs₁.blankHalf.mixDone.nextFrame.next ?_
  exact .ite hs₁.mixOnce.retriedOpen.mixDone.nextFrame.next hs₁.mixOnce.mixDone.nextFrame.next

theorem Keeps.execMxmClaim {who} (h : Keeps s t) : KeepsNext s (execMxmClaim who t) := h.accessRead fun _ h => h.claim.next
theorem Keeps.execMxmRelease {who} (h : Keeps s t) : KeepsNext s (execMxmRelease who t) := h.access fun _ h => h.unclaim.next

theorem Keeps.mixCommand {who f} (h : Keeps s t) (hf : ∀ u, Keeps s u → Keeps s (f u).1) : Keeps s (t.mixCommand who f) := by
  refine .ite h.putBit ?_
  split
  next e => exact (Keeps.of_eq e (hf _ h)).withMxm.putBit

theorem Keeps.showSet {d} (h : Keeps s t) : Keeps s (t.showSet d) := h.foldl fun _ _ h => h.put
theorem Keeps.storeSet {b d} (h : Keeps s t) : Keeps s (t.storeSet b d).1 := .ite_fst h <| .ite_fst h h.withMxm
theorem Keeps.setCommand {who op} (h : Keeps s t) : Keeps s (t.setCommand who op) :=
  .ite h (h.mixCommand fun _ h => .ite_fst h.showSet <| .ite_fst h.storeSet h.showSet)
theorem Keeps.execLoad {who} (h : Keeps s t) : KeepsNext s (execLoad who t) := h.access fun _ h => h.setCommand.next
theorem Keeps.execStore {who} (h : Keeps s t) : KeepsNext s (execStore who t) := h.access fun _ h => h.setCommand.next
theorem Keeps.execReadActive {who} (h : Keeps s t) : KeepsNext s (execReadActive who t) := h.access fun _ h => h.setCommand.next

theorem Keeps.commitGroup {count buses tag at_} (h : Keeps s t) : Keeps s (t.commitGroup count buses tag at_).1 := by
  unfold State.commitGroup
  refine .ite_fst h ?_
  refine .ite_fst h ?_
  extract_lets
  split
  exacts [h.withMxm, .ite_fst h <| .ite_fst h.withMxm.count h.withMxm]

theorem Keeps.swapCommand {who count at_ tag} (h : Keeps s t) : Keeps s (t.swapCommand who count at_ tag) :=
  h.mixCommand fun _ h => h.commitGroup
theorem Keeps.execSwapCommit {who count at_ tag} (h : Keeps s t) : KeepsNext s (execSwapCommit who count at_ tag t) :=
  h.access fun _ h => h.swapCommand.next

theorem Keeps.execMxmCommandDone (h : Keeps s t) : KeepsNext s (execMxmCommandDone t) := by
  unfold Machine.execMxmCommandDone
  split
  exacts [h.next, h.withMxm.putBit.put.putBit.next]

theorem Keeps.execSwapApply (h : Keeps s t) : KeepsNext s (execSwapApply t) := .next (.ite h.evalSwaps h)

theorem Keeps.execGainStep {bus step before now} (h : Keeps s t) : KeepsNext s (execGainStep bus step before now t) := by
  unfold Machine.execGainStep
  extract_lets
  split
  exacts [.next (.ite h.makeStep.settleSteps h), h.next]

theorem Keeps.execStepTimeout {bus step} (h : Keeps s t) : KeepsNext s (execStepTimeout bus step t) := by
  unfold Machine.execStepTimeout
  extract_lets
  split
  exacts [.next (.ite h.makeStep.settleSteps h), h.next]

theorem Keeps.disableMix (h : Keeps s t) : Keeps s t.disableMix :=
  .withMxm (h.putBit.foldl fun _ _ h => h.foldl fun _ _ h => h.makeStep)
theorem Keeps.execMixDisable {who} (h : Keeps s t) : KeepsNext s (execMixDisable who t) := h.access fun _ h => h.disableMix.next

theorem Keeps.setTalkers {conf ts act} (h : Keeps s t) : Keeps s (t.setTalkers conf ts act) := by
  unfold State.setTalkers
  extract_lets left s₁ s₂ s₃ rest cand was s₄ s₅
  have hs₁ : Keeps s s₁ := h.withMxm.setObj
  have hs₂ : Keeps s s₂ := hs₁.foldl fun _ _ h => h.restRole
  have hs₃ : Keeps s s₃ := hs₂.foldl fun _ _ h => h.takeDecode
  have hs₄ : Keeps s s₄ := hs₃.foldl fun _ _ h => .ite h.restRole h
  have hs₅ : Keeps s s₅ := hs₄.foldl fun _ _ h => h.takeDecode
  exact hs₅.seatJoiners

theorem Keeps.tellTalkers {conf act} (h : Keeps s t) : Keeps s (t.tellTalkers conf act) := by
  unfold State.tellTalkers
  extract_lets mine c rest
  refine .ite ?_ ?_
  · split
    exacts [h.tellControl, h]
  · exact .ite (h.foldl fun _ _ h => by split; exacts [h.tellControl, h]) h

theorem Keeps.execTalkerSetUpdate {conf reports} (h : Keeps s t) : KeepsNext s (execTalkerSetUpdate conf reports t) :=
  .ite h.next <| .ite (.next (.tellTalkers (.setTalkers (.ite h.withMxm.setCascade h.withMxm))))
    h.withMxm.setTalkers.tellTalkers.next

theorem Keeps.execJbTargetUpdate {leg transit ptime} (h : Keeps s t) : KeepsNext s (execJbTargetUpdate leg transit ptime t) :=
  .ite h.next h.withMxm.setObj.next
theorem Keeps.moveLeg {routes rstate rbytes} (h : Keeps s t) : Keeps s (t.moveLeg routes rstate rbytes) :=
  .changeSelect (h.foldl fun _ _ h => h.routeCommit)

theorem Keeps.execTalkerAdmit {leg source listener own frame tag encode routes rstate rbytes} (h : Keeps s t) :
    KeepsNext s (execTalkerAdmit leg source listener own frame tag encode routes rstate rbytes t) := by
  unfold Machine.execTalkerAdmit
  extract_lets
  split
  rename_i e₁
  split
  rename_i e₂
  split
  rename_i t₃ _ _ e₃
  have ht₃ : Keeps s t₃ := .of_eq e₃ (.commitGroup (.of_eq e₂ (.storeSet (.of_eq e₁ h.storeSet))))
  exact .ite h.next ht₃.createTask.withFw.moveLeg.next

theorem Keeps.execTalkerRemove {leg source listener own tag routes rstate rbytes} (h : Keeps s t) :
    KeepsNext s (execTalkerRemove leg source listener own tag routes rstate rbytes t) := by
  unfold Machine.execTalkerRemove
  extract_lets _ _ _ t₁ t₂
  have ht₂ : Keeps s t₂ := h.moveLeg.withFw
  refine .ite h.next (.ite ?_ (.ite h.next ?_))
  · split
    rename_i e₁
    split
    rename_i e₂
    exact (Keeps.ite h (.of_eq e₂ (.commitGroup (.of_eq e₁ h.storeSet)))).next
  · split
    rename_i t₃ _ e₃
    have ht₃ : Keeps s t₃ := .of_eq e₃ ht₂.storeSet
    exact (Keeps.ite ht₃ ht₃.commitGroup).next

theorem Keeps.dropSource {src} (h : Keeps s t) : Keeps s (t.dropSource src) :=
  .foldl (h.foldl fun _ _ h => h.storeSet) fun _ _ h => h.commitGroup

theorem Keeps.applyLegGain {leg gain} (h : Keeps s t) (e : t.applyLegGain leg gain = some u) : Keeps s u := by
  unfold State.applyLegGain at e
  split at e
  · cases e; exact h
  · extract_lets at e
    split at e
    · cases e
    · cases e; exact .foldl (h.foldl fun _ _ h => h.storeSet) fun _ _ h => h.commitGroup

theorem Keeps.execAudioFrameLate {core frame} (h : Keeps s t) : KeepsNext s (execAudioFrameLate core frame t) :=
  .next (.ite h.finishDone h)

/-! ### Machine/Probes -/

theorem Keeps.setLink {a b on} (h : Keeps s t) : Keeps s (t.setLink a b on) := h.others
theorem Keeps.dropProbe {leg} (h : Keeps s t) : Keeps s (t.dropProbe leg) := h.others

theorem Keeps.returnLeg {p} (h : Keeps s t) : Keeps s (t.returnLeg p) := by
  unfold State.returnLeg
  extract_lets s₁
  have hs₁ : Keeps s s₁ := .ite h.restRole h
  split
  rename_i t₂ _ e
  have ht₂ : Keeps s t₂ := .of_eq e hs₁.storeSet
  exact .ite ht₂ ht₂.commitGroup

theorem Keeps.abortProbe {leg} (h : Keeps s t) : Keeps s (t.abortProbe leg) := by
  unfold State.abortProbe
  split
  exacts [.ite h.dropProbe h.putBit.stopBeacon.others.dropProbe.returnLeg, h]

theorem Keeps.leaveSundog {leg} (h : Keeps s t) : Keeps s (t.leaveSundog leg) := h.abortProbe.others

/-! ### Machine/Cmp -/

theorem Keeps.setCmpJob {i j} (h : Keeps s t) : Keeps s (t.setCmpJob i j) := h.putBit.others

theorem Keeps.passRecord {desc status flags strips lf cycles waits} (h : Keeps s t) :
    Keeps s (t.passRecord desc status flags strips lf cycles waits) :=
  .ite h.writeRecord h

theorem Keeps.refusePass {cmp slot status desc} (h : Keeps s t) : Keeps s (t.refusePass cmp slot status desc) :=
  h.passRecord.count.unitComplete

theorem Keeps.execComposePass {cmp} (h : Keeps s t) : KeepsNext s (execComposePass cmp t) := by
  unfold Machine.execComposePass
  split
  exacts [.ite h.next <| .ite h.refusePass.next <| .ite h.refusePass.next h.setCmpJob.disarm.putPair.put.put.next, h.next]

theorem Keeps.sendStrip {links k} (h : Keeps s t) : Keeps s (t.sendStrip links k) := h.others

theorem Keeps.execComposeStrip {cmp} (h : Keeps s t) : KeepsNext s (execComposeStrip cmp t) := by
  unfold Machine.execComposeStrip
  split
  exacts [h.next, .ite h.next h.writeStrip.sendStrip.setCmpJob.publishStrip.next]

theorem Keeps.execComposeComplete {cmp cycles waits} (h : Keeps s t) : KeepsNext s (execComposeComplete cmp cycles waits t) := by
  unfold Machine.execComposeComplete
  split
  · exact h.next
  · extract_lets z _ s₁ _ s₂ s₃ s₄
    have hs₁ : Keeps s s₁ := h.passRecord
    have hs₂ : Keeps s s₂ := hs₁.count.count.count
    have hs₃ : Keeps s s₃ := hs₂.count.count.put
    have hs₄ : Keeps s s₄ := hs₃.setCmpJob.unitComplete
    exact .ite h.next (.next (.ite hs₄.retried hs₄))

theorem Keeps.cmpBlocked {cmp a task} (h : Keeps s t) : Keeps s (t.cmpBlocked cmp a task) := h.putPair.log.count

theorem Keeps.execCmpWatchdogExpiry {cmp cycles blocked} (h : Keeps s t) :
    KeepsNext s (execCmpWatchdogExpiry cmp cycles blocked t) := by
  unfold Machine.execCmpWatchdogExpiry
  split
  · exact h.next
  · extract_lets blocked₁ s₁ s₂ s₃
    have hs₁ : Keeps s s₁ := h.count
    have hs₂ : Keeps s s₂ := by
      unfold s₂
      clear_value blocked₁
      split
      exacts [hs₁.cmpBlocked, hs₁]
    have hs₃ : Keeps s s₃ := hs₂.fence.putBit
    exact .ite h.next <| .ite hs₂.setCmpJob.put.next hs₃.loseUnit.next

theorem Keeps.execComposeFill {cmp cycles} (h : Keeps s t) : KeepsNext s (execComposeFill cmp cycles t) := by
  unfold Machine.execComposeFill
  split
  · refine .ite h.next ?_
    extract_lets j z l _ s₁ s₂ s₃
    have hs₁ : Keeps s s₁ := h.foldl fun _ _ h => h.writeStrip.publishStrip
    have hs₂ : Keeps s s₂ := hs₁.passRecord
    have hs₃ : Keeps s s₃ := by
      unfold s₃
      split
      exacts [hs₂.others, hs₂]
    exact .ite h.refusePass.next hs₃.count.unitComplete.next
  · exact h.next

/-! ### Machine/Vee -/

theorem Keeps.setVeeJob {i j} (h : Keeps s t) : Keeps s (t.setVeeJob i j) := h.putBit.others
theorem Keeps.tileNotCoded {ext out status} (h : Keeps s t) : Keeps s (t.tileNotCoded ext out status) := h.setBytes.spent.setLe
theorem Keeps.notCoded {vee slot status effort stepped} (h : Keeps s t) : Keeps s (t.notCoded vee slot status effort stepped) :=
  .count (.ite (.tileNotCoded (.ite h.writeRecord h)) <| .ite h.writeRecord h)

theorem Keeps.veeExpires {vee j cycles blocked} (h : Keeps s t) : Keeps s (t.veeExpires vee j cycles blocked) := by
  unfold State.veeExpires
  extract_lets s₁ s₂ s₃ s₄
  have hs₁ : Keeps s s₁ := h.count
  have hs₂ : Keeps s s₂ := by
    unfold s₂
    split
    exacts [hs₁.putPair.log, hs₁]
  have hs₃ : Keeps s s₃ := hs₂.notCoded
  have hs₄ : Keeps s s₄ := hs₃.setLe.setVeeJob
  exact .ite hs₂.setVeeJob.put hs₄.fence.loseUnit

theorem Keeps.grantEntry {desc ext} (h : Keeps s t) : Keeps s (t.grantEntry desc ext) := .ite h.setLe.withFw h

theorem Keeps.execEncodeStart {vee sets} (h : Keeps s t) : KeepsNext s (execEncodeStart vee sets t) := by
  unfold Machine.execEncodeStart
  split
  · extract_lets e s₁ d _ c y j hdr s₂ s₃ s₄ s₅ s₆
    have hs₁ : Keeps s s₁ := .ite h.grantEntry h
    have hs₂ : Keeps s s₂ := hs₁.setLe.setBytes
    have hs₃ : Keeps s s₃ := hs₂.setVeeJob.disarm
    have hs₄ : Keeps s s₄ := hs₃.putPair
    have hs₅ : Keeps s s₅ := hs₄.put.put
    have hs₆ : Keeps s s₆ := hs₅.put
    refine .ite hs₁.notCoded.unitComplete.next ?_
    exact .ite hs₁.notCoded.unitComplete.next (.next (by split; exacts [hs₆.veeExpires, hs₆]))
  · exact h.next

theorem Keeps.writeRecon {j i} (h : Keeps s t) : Keeps s (t.writeRecon j i) := h.setBytes.spent.setBytes.spent

theorem Keeps.execEncodeRow {vee coded trunc} (h : Keeps s t) : KeepsNext s (execEncodeRow vee coded trunc t) := by
  unfold Machine.execEncodeRow
  split
  · exact h.next
  · extract_lets _ _ _ _ _ _ _ maxFrom _ _ cutFrom out _ _ _ _ s₁ s₂ row
    have hs₁ : Keeps s s₁ := h.setBytes
    have hs₂ : Keeps s s₂ := hs₁.writeRecon
    exact .ite h.next (by split; exacts [h.veeExpires.next, hs₂.setVeeJob.next])

theorem Keeps.prefixUnits {a ns} (h : Keeps s t) : Keeps s (t.prefixUnits a ns) := by
  induction ns generalizing t a with
  | nil => exact h
  | cons n ns ih => exact ih h.setBytes

theorem Keeps.tileRecord {j ext status units} (h : Keeps s t) : Keeps s (t.tileRecord j ext status units) :=
  .ite h.setBytes.spent.setLe.setLe.setLe h.setBytes.spent.setLe.setLe

theorem Keeps.updateEncCtx {j} (h : Keeps s t) : Keeps s (t.updateEncCtx j) := by
  unfold State.updateEncCtx
  extract_lets c _ _ _ _ costs _ weights atMax _ weights₁ s₁ s₂ s₃ s₄ _ s₅ s₆ s₇ s₈ old _ e y s₉
  have hs₁ : Keeps s s₁ := .ite h h.setBytes
  have hs₂ : Keeps s s₂ := hs₁.setLe.setLe
  have hs₃ : Keeps s s₃ := .ite hs₂.setLe <| .ite hs₂ hs₂.setLe
  have hs₄ : Keeps s s₄ := hs₃.setLe
  have hs₅ : Keeps s s₅ := hs₄.setLe.setLe.spent
  have hs₆ : Keeps s s₆ := hs₅.setLe.setLe
  have hs₇ : Keeps s s₇ := hs₆.ctxCount
  have hs₈ : Keeps s s₈ := .ite hs₇.ctxCount hs₇
  have hy : Keeps s y := hs₈.setBytes.spent
  have hs₉ : Keeps s s₉ := hy.others
  exact hs₉.setLe.setLe

theorem Keeps.execEncodeComplete {vee units cycles} (h : Keeps s t) : KeepsNext s (execEncodeComplete vee units cycles t) := by
  unfold Machine.execEncodeComplete
  split
  · exact h.next
  · extract_lets c _ _ _ s₁ _ _ s₂ e s₃ s₄ _ s₅ s₆ s₇ s₈ s₉ s₁₀ s₁₁
    have hs₁ : Keeps s s₁ := .ite h h.prefixUnits
    have hs₂ : Keeps s s₂ := hs₁.spent.writeRecord
    have hs₃ : Keeps s s₃ := .ite hs₂.tileRecord hs₂
    have hs₄ : Keeps s s₄ := hs₃.updateEncCtx
    have hs₅ : Keeps s s₅ := hs₄.count.count.count
    have hs₆ : Keeps s s₆ := .ite hs₅.count hs₅
    have hs₇ : Keeps s s₇ := .ite hs₆.count hs₆
    have hs₈ : Keeps s s₈ := .ite hs₇.count.count hs₇
    have hs₉ : Keeps s s₉ := .ite hs₈.count hs₈
    have hs₁₀ : Keeps s s₁₀ := hs₉.put.setVeeJob
    have hs₁₁ : Keeps s s₁₁ := hs₁₀.unitComplete
    exact .ite h.next (.next (.ite hs₁₁.retried hs₁₁))

theorem Keeps.execVeeWatchdogExpiry {vee cycles blocked} (h : Keeps s t) :
    KeepsNext s (execVeeWatchdogExpiry vee cycles blocked t) := by
  unfold Machine.execVeeWatchdogExpiry
  split
  exacts [h.next, .ite h.next h.veeExpires.next]

/-! ### Machine/Tsp -/

theorem Keeps.spliceRefused {slot status d} (h : Keeps s t) : Keeps s (t.spliceRefused slot status d) :=
  .unitComplete (.count (.ite h.writeRecord h))
theorem Keeps.setTspJob {j} (h : Keeps s t) : Keeps s (t.setTspJob j) := h.putBit.others

theorem Keeps.execSpliceStart (h : Keeps s t) : KeepsNext s (execSpliceStart t) := by
  unfold Machine.execSpliceStart
  split
  · exact .ite h.spliceRefused.next <| .ite h.spliceRefused.next <|
      .ite h.spliceRefused.next h.setLe.setTspJob.disarm.putPair.put.put.next
  · exact h.next

theorem Keeps.unstitch (h : Keeps s t) : Keeps s t.unstitch := h.foldl fun _ _ h => h.setObj

theorem Keeps.execSpliceComplete {cycles} (h : Keeps s t) : KeepsNext s (execSpliceComplete cycles t) := by
  unfold Machine.execSpliceComplete
  split
  · exact h.next
  · refine .ite h.next ?_
    extract_lets d _ out _ s₁ s₂ s₃ s₄ s₅ _ _ s₆ s₇ s₈ s₉ s₁₀ s₁₁ s₁₂
    have hs₁ : Keeps s s₁ := h.setBytes
    have hs₂ : Keeps s s₂ := hs₁.setBytes
    have hs₃ : Keeps s s₃ := hs₂.setBytes.setLe
    have hs₄ : Keeps s s₄ := hs₃.setLe
    have hs₅ : Keeps s s₅ := hs₄.setBytes.setBytes
    have hs₆ : Keeps s s₆ := .ite hs₅.writeRecord hs₅
    have hs₇ : Keeps s s₇ := hs₆.count
    have hs₈ : Keeps s s₈ := .ite hs₇.count hs₇
    have hs₉ : Keeps s s₉ := hs₈.count.count
    have hs₁₀ : Keeps s s₁₀ := hs₉.count.count.count
    have hs₁₁ : Keeps s s₁₁ := hs₁₀.viewerSpliced
    have hs₁₂ : Keeps s s₁₂ := hs₁₁.put.setTspJob.unitComplete
    exact .next (.ite hs₁₂.retried hs₁₂)

theorem Keeps.execTspWatchdogExpiry {cycles blocked} (h : Keeps s t) : KeepsNext s (execTspWatchdogExpiry cycles blocked t) := by
  unfold Machine.execTspWatchdogExpiry
  split
  · exact h.next
  · extract_lets blocked₁ s₁ s₂
    have hs₁ : Keeps s s₁ := by
      unfold s₁
      clear_value blocked₁
      split
      exacts [h.putPair.log.count, h]
    have hs₂ : Keeps s s₂ := hs₁.setTspJob.put.setLe
    exact .ite h.next <| .ite hs₁.setTspJob.put.next hs₂.fence.loseUnit.unstitch.next

theorem Keeps.execEntryTileRequest {tset tick desc} (h : Keeps s t) : KeepsNext s (execEntryTileRequest tset tick desc t) :=
  .ite h.setLe.withFw.next h.withFw.next

/-! ### Machine/Legs -/

theorem Keeps.setLegState {leg v} (h : Keeps s t) : Keeps s (t.setLegState leg v) := h.setObj.withFw
theorem Keeps.joinLeg {leg conf} (h : Keeps s t) : Keeps s (t.joinLeg leg conf) := h.setObj.setLegState.setRole.requestProbe
theorem Keeps.leaveLeg {leg} (h : Keeps s t) : Keeps s (t.leaveLeg leg) :=
  .ite h.leaveSundog.setObj.setRole.setObj h.leaveSundog.setObj.setRole.setObj.setLegState
theorem Keeps.freeLeg {leg} (h : Keeps s t) : Keeps s (t.freeLeg leg) :=
  .setLegState (.setObj (.foldl (h.foldl fun _ _ h => h.eraseSlot) fun _ _ h => h.fctRemove))
theorem Keeps.execLegConnected {leg offer} (h : Keeps s t) : KeepsNext s (execLegConnected leg offer t) :=
  .next (.ite h.setObj.setObj.setLegState h)

theorem Keeps.execLegConnectTimeout {leg badFingerprint} (h : Keeps s t) :
    KeepsNext s (execLegConnectTimeout leg badFingerprint t) := by
  unfold Machine.execLegConnectTimeout
  split
  exacts [.next (.ite h.setLegState h), h.next]

/-! ### Machine/Cascade -/

theorem Keeps.countRoster {conf} (h : Keeps s t) : Keeps s (t.countRoster conf) := h.setObj.setObj
theorem Keeps.settleEnd {conf} (h : Keeps s t) : Keeps s (t.settleEnd conf) :=
  .ite h.setObj.setObj.setObj.setCascade.countRoster h
theorem Keeps.setPresence {conf id p} (h : Keeps s t) : Keeps s (t.setPresence conf id p) := h.setCascade.countRoster.settleEnd
theorem Keeps.turn {conf who was is_} (h : Keeps s t) : Keeps s (t.turn conf who was is_) := h.setCascade.countRoster
theorem Keeps.bumpEpoch {conf} (h : Keeps s t) : Keeps s (t.bumpEpoch conf) := h.setObj
theorem Keeps.tellAll {conf kind what} (h : Keeps s t) : Keeps s (t.tellAll conf kind what) :=
  h.foldl fun _ _ h => by split; exacts [h.tell, h]
theorem Keeps.announce {conf id p} (h : Keeps s t) : Keeps s (t.announce conf id p) := .ite h.setPresence.tellAll h.setPresence
theorem Keeps.detachLeg {leg} (h : Keeps s t) : Keeps s (t.detachLeg leg) := .ite h.leaveLeg h.leaveLeg.announce
theorem Keeps.attachLeg {leg conf} (h : Keeps s t) : Keeps s (t.attachLeg leg conf) := h.joinLeg.announce
theorem Keeps.endConf {conf} (h : Keeps s t) : Keeps s (t.endConf conf) :=
  .ite (.settleEnd (h.setObj.foldl fun _ _ h => h.detachLeg)) h

theorem Keeps.applyOp {conf o} (h : Keeps s t) : Keeps s (t.applyOp conf o) := by
  unfold State.applyOp
  split
  · exact .ite h <| .ite h.attachLeg <| .ite h.detachLeg <| .ite h.setObj.putCanvas h.setObj
  · exact .ite (h.foldl fun _ _ h => h.setObj) <| .ite h.endConf h.setObj

theorem Keeps.setJournal {conf j} (h : Keeps s t) : Keeps s (t.setJournal conf j) := h.setCascade.setObj

theorem Keeps.journal {conf o queued} (h : Keeps s t) (e : t.journal conf o queued = some u) : Keeps s u := by
  unfold State.journal at e
  extract_lets at e
  split at e
  · cases e
  · cases e; exact h.setJournal

theorem Keeps.anchorApply {conf o} (h : Keeps s t) : Keeps s (t.anchorApply conf o).1 := by
  refine .ite_fst ?_ h.applyOp.setCascade
  split
  · next e => exact (h.journal e).applyOp.setCascade
  · exact h

theorem Keeps.islandOp {conf o} (h : Keeps s t) : Keeps s (t.islandOp conf o).1 := by
  refine .ite_fst ?_ (.ite_fst h ?_)
  · split
    · next e => exact (h.journal e).applyOp
    · exact h
  · split
    · next e => exact h.journal e
    · exact h

theorem Keeps.confOp {who conf o} (h : Keeps s t) : Keeps s (t.confOp who conf o).1 :=
  .ite_fst h.islandOp <| .ite_fst (.ite_fst h.applyOp.tellAll (by split; exacts [h, .ite_fst h.tell h.tell.setCascade]))
    h.anchorApply

theorem Keeps.execConfOp {from_ who conf op} (h : Keeps s t) : KeepsNext s (execConfOp from_ who conf op t) := by
  unfold Machine.execConfOp
  split
  exacts [.next (by split; exacts [h.confOp.emit, h.confOp]), .ite h.next h.anchorApply.tell.next]

theorem Keeps.execConfOpResult {trunk conf status} (h : Keeps s t) : KeepsNext s (execConfOpResult trunk conf status t) :=
  .ite h.next (by split; exacts [h.next, h.setCascade.answer.next])

theorem Keeps.fadeSource {t' conf} (h : Keeps s t) : Keeps s (t.fadeSource t' conf) := by
  unfold State.fadeSource
  split
  exacts [h.setSource.dropSource, h]

theorem Keeps.loseModule {t' conf} (h : Keeps s t) : Keeps s (t.loseModule t' conf) :=
  .ite h <| .ite h.setCascade.bumpEpoch.turn.fadeSource <|
    .ite (h.setCascade.bumpEpoch.setObj.turn.foldl fun _ _ h => h.fadeSource) h

theorem Keeps.loseTrunk {t'} (h : Keeps s t) : Keeps s (t.loseTrunk t') := h.foldl fun _ _ h => h.loseModule
theorem Keeps.summarise {t'} (h : Keeps s t) : Keeps s (t.summarise t') := h.foldl fun _ _ h => .ite h.tell h
theorem Keeps.postConflict {conf} (h : Keeps s t) : Keeps s (t.postConflict conf) := h.trunkEvent
theorem Keeps.sendJournal {t' conf} (h : Keeps s t) : Keeps s (t.sendJournal t' conf) :=
  .setCascade (.tell (h.foldl fun _ _ h => h.tell))

theorem Keeps.execStateSummary {trunk conf anchor anchorEpoch epoch _length} (h : Keeps s t) :
    KeepsNext s (execStateSummary trunk conf anchor anchorEpoch epoch _length t) := by
  unfold Machine.execStateSummary
  extract_lets _ _ _ _ _ s₁ y s₂
  have hs₁ : Keeps s s₁ := h.foldl fun _ _ h => .ite h.postConflict h
  have hs₂ : Keeps s s₂ := hs₁.setCascade
  refine .ite ?_ ?_
  · exact .next (.ite (.ite h.setObj.setObj.setObj.setObj.setObj h.setObj.setObj.setObj.setObj.setObj.setCascade) h)
  · exact .ite (.next (.ite h.setObj.setObj.setObj h)) <| .ite (.next (.ite h.sendJournal.setObj h)) <|
      .ite hs₂.sendJournal.setObj.next (.next (.ite h h.setCascade))

theorem Keeps.execJournalEntry {_trunk conf epoch time valid op} (h : Keeps s t) :
    KeepsNext s (execJournalEntry _trunk conf epoch time valid op t) :=
  .ite h.next h.setCascade.next

theorem Keeps.replayOne {conf e} (h : Keeps s t) : Keeps s (t.replayOne conf e) :=
  .ite h.postConflict (by split; exacts [h.applyOp.emit, h.applyOp])

theorem Keeps.execJournalDone {trunk conf count} (h : Keeps s t) : KeepsNext s (execJournalDone trunk conf count t) :=
  .ite h.next (.next (.foldl (.turn (.setCascade (.bumpEpoch (.setJournal
    (h.foldl fun _ _ h => h.replayOne))))) fun _ _ h => h.tellAll))

theorem Keeps.execRosterUpdate {trunk conf epoch id presence} (h : Keeps s t) :
    KeepsNext s (execRosterUpdate trunk conf epoch id presence t) :=
  .next (.setPresence (.ite h.setObj.setJournal.setObj.setCascade.turn h))

theorem Keeps.promote {conf} (h : Keeps s t) : Keeps s (t.promote conf).1 :=
  .ite_fst h (.setJournal (h.setObj.setObj.setObj.bumpEpoch.foldl fun _ _ h => h.anchorApply))
theorem Keeps.execPromote {who conf} (h : Keeps s t) : KeepsNext s (execPromote who conf t) := h.promote.emit.next
theorem Keeps.execTalkerReport {trunk conf _epoch pairs} (h : Keeps s t) : KeepsNext s (execTalkerReport trunk conf _epoch pairs t) :=
  .ite h.next h.setCascade.next
theorem Keeps.execTalkerSet {trunk conf _epoch ids} (h : Keeps s t) : KeepsNext s (execTalkerSet trunk conf _epoch ids t) :=
  .ite h.next h.setCascade.next
theorem Keeps.execChannelOffer {trunk conf stream} (h : Keeps s t) : KeepsNext s (execChannelOffer trunk conf stream t) :=
  h.setCascade.next

/-! ### Machine/Trunk -/

theorem Keeps.freshExchange {k} (h : Keeps s t) : Keeps s (t.freshExchange k).1 := h.spent.spent
theorem Keeps.helloBody {t' ty d nonce} (h : Keeps s t) : Keeps s (t.helloBody t' ty d nonce).1 := h.spent
theorem Keeps.sendHello {t' ty} (h : Keeps s t) : Keeps s (t.sendHello t' ty) :=
  .ite h (.trunkOut (.helloBody (.setTrunk (.ite_fst h h.freshExchange))))
theorem Keeps.helloFails {t'} (h : Keeps s t) : Keeps s (t.helloFails t') := h.count.trunkEvent

theorem Keeps.writeKeys {t' phase} (h : Keeps s t) : Keeps s (t.writeKeys t' phase).1 := by
  unfold State.writeKeys
  extract_lets k _ _ salt
  split
  · split
    exacts [h, .ite_fst h <| .ite_fst h h.newGen.newGen.setTrunk.put]
  · exact h

theorem Keeps.handshakeDone {t'} (h : Keeps s t) : Keeps s (t.handshakeDone t') := .ite h h.writeKeys.setTrunk
theorem Keeps.takeHello {f ty} (h : Keeps s t) : Keeps s (t.takeHello f ty) :=
  .ite h <| .ite h.helloFails (.handshakeDone (.ite h.setTrunk.sendHello h.setTrunk))
theorem Keeps.execHello {frame} (h : Keeps s t) : KeepsNext s (execHello frame t) :=
  .next (by split; exacts [h.takeFrame.takeHello, h.takeFrame])
theorem Keeps.execHelloReply {frame} (h : Keeps s t) : KeepsNext s (execHelloReply frame t) :=
  .next (by split; exacts [h.takeFrame.takeHello, h.takeFrame])
theorem Keeps.startTrunk {t'} (h : Keeps s t) : Keeps s (t.startTrunk t') := h.setTrunk.sendHello
theorem Keeps.enableTrunk {t' w} (h : Keeps s t) : Keeps s (t.enableTrunk t' w) :=
  .ite h <| .ite h.putBit.log <| .ite h.putBit.startTrunk h.putBit
theorem Keeps.stopTrunk {t'} (h : Keeps s t) : Keeps s (t.stopTrunk t') := h.setTrunk
theorem Keeps.disableTrunk {t'} (h : Keeps s t) : Keeps s (t.disableTrunk t') := h.putBit.stopTrunk
theorem Keeps.enableTrk (h : Keeps s t) : Keeps s t.enableTrk := h.putBit.foldl fun _ _ h => h.startTrunk
theorem Keeps.disableTrk (h : Keeps s t) : Keeps s t.disableTrk := .putBit (h.foldl fun _ _ h => h.stopTrunk)
theorem Keeps.execTrunkEnable {who trunk} (h : Keeps s t) : KeepsNext s (execTrunkEnable who trunk t) :=
  h.access fun _ h => h.enableTrunk.next
theorem Keeps.execTrunkDisable {who trunk} (h : Keeps s t) : KeepsNext s (execTrunkDisable who trunk t) :=
  h.access fun _ h => h.disableTrunk.next
theorem Keeps.execHelloResend {trunk} (h : Keeps s t) : KeepsNext s (execHelloResend trunk t) :=
  .next (.ite h.setTrunk.sendHello h)
theorem Keeps.execRekeyStart {trunk} (h : Keeps s t) : KeepsNext s (execRekeyStart trunk t) :=
  .ite h.next h.setTrunk.sendHello.next

theorem Keeps.execRekey {frame} (h : Keeps s t) : KeepsNext s (execRekey frame t) := by
  unfold Machine.execRekey
  extract_lets r s₁
  have hr : Keeps s r.1 := h.takeFrame
  have hs₁ : Keeps s s₁ := hr
  split
  · exact hr.next
  · extract_lets _ k p whole signed s₂ y y₁
    have hs₂ : Keeps s s₂ := .ite hs₁ hs₁.setTrunk.sendHello
    exact .ite hs₁.helloFails.next (.next (.ite hs₂.setTrunk.writeKeys.trunkEvent hs₂.setTrunk))

theorem Keeps.takeMedia {f} (h : Keeps s t) : Keeps s (t.takeMedia f) := .ite h.count h.withRly.enterRelay
theorem Keeps.execMedia {frame} (h : Keeps s t) : KeepsNext s (execMedia frame t) :=
  .next (by split; exacts [h.takeFrame.takeMedia, h.takeFrame])

theorem Keeps.execAudio {what} (h : Keeps s t) : KeepsNext s (execAudio what t) := by
  unfold Machine.execAudio
  split
  · extract_lets r y y₁
    have hr : Keeps s r.1 := h.takeFrame
    have hy : Keeps s y := hr
    split
    exacts [hr.next, hy.others.feedSource.next]
  · exact .ite h.next h.trunkOut.trunkOut.next

theorem Keeps.writeBody {q first ws} (h : Keeps s t) : Keeps s (t.writeBody q first ws) := by
  induction ws generalizing t first with
  | nil => exact h
  | cons w ws ih =>
    cases ws with
    | nil => exact h.writeWord
    | cons _ _ => exact ih h.writeWord

theorem Keeps.deliver {k n} (h : Keeps s t) : Keeps s (t.deliver k n) := by
  induction n generalizing t with
  | zero => exact h
  | succ n ih =>
    unfold State.deliver
    extract_lets
    split
    · exact h
    · exact .ite h (ih (.writeBody (.setTrunk (.ite h h.count))))

theorem Keeps.sendAck {t'} (h : Keeps s t) : Keeps s (t.sendAck t') := h.setTrunk.trunkOut
theorem Keeps.takeReliable {f} (h : Keeps s t) : Keeps s (t.takeReliable f) := .ite h <| .ite h.setTrunk.deliver h.setTrunk

theorem Keeps.execReliable {frame} (h : Keeps s t) : KeepsNext s (execReliable frame t) := by
  unfold Machine.execReliable
  extract_lets r
  have hr : Keeps s r.1 := h.takeFrame
  split
  exacts [hr.next, .next (.ite hr.takeReliable.sendAck hr.takeReliable)]

theorem Keeps.execAckSend {trunk} (h : Keeps s t) : KeepsNext s (execAckSend trunk t) := .next (.ite h.deliver.sendAck h.deliver)
theorem Keeps.resend {t' b} (h : Keeps s t) : Keeps s (t.resend t' b) := h.setTrunk.count.transmit
theorem Keeps.takeAck {f} (h : Keeps s t) : Keeps s (t.takeAck f) := .pump (h.setTrunk.foldl fun _ _ h => h.resend)
theorem Keeps.execAck {frame} (h : Keeps s t) : KeepsNext s (execAck frame t) :=
  .next (by split; exacts [.ite h.takeFrame.takeAck h.takeFrame, h.takeFrame])

theorem Keeps.execRetransmitTimeout {trunk seq} (h : Keeps s t) : KeepsNext s (execRetransmitTimeout trunk seq t) := by
  unfold Machine.execRetransmitTimeout
  extract_lets k
  split
  exacts [.next (.ite h.resend h), h.next]

theorem Keeps.execControl {frame} (h : Keeps s t) : KeepsNext s (execControl frame t) := by
  unfold Machine.execControl
  extract_lets r
  have hr : Keeps s r.1 := h.takeFrame
  split
  exacts [hr.next, .next (.ite hr.emit hr.count)]

theorem Keeps.execHeartbeatSend {trunk} (h : Keeps s t) : KeepsNext s (execHeartbeatSend trunk t) :=
  .ite h.next h.setTrunk.trunkOut.next
theorem Keeps.trunkDown {t'} (h : Keeps s t) : Keeps s (t.trunkDown t') := h.count.setTrunk.trunkEvent.loseTrunk
theorem Keeps.trunkUp {t'} (h : Keeps s t) : Keeps s (t.trunkUp t') := h.setTrunk.sendReliable.trunkEvent.summarise
theorem Keeps.resetMisses {t'} (h : Keeps s t) : Keeps s (t.resetMisses t') := h.put

theorem Keeps.takeHeartbeat {f} (h : Keeps s t) : Keeps s (t.takeHeartbeat f) := by
  unfold State.takeHeartbeat
  extract_lets _ k _ _ rtt _ _ s₁ k₁ s₂
  have hs₁ : Keeps s s₁ := h.resetMisses
  have hs₂ : Keeps s s₂ := hs₁.setTrunk
  split
  exacts [hs₁, hs₁, .ite hs₁.setTrunk.trunkDown hs₁.setTrunk, hs₁.setTrunk, hs₁.setTrunk, hs₁.setTrunk, .ite hs₂.trunkUp hs₂]

theorem Keeps.execHeartbeat {frame} (h : Keeps s t) : KeepsNext s (execHeartbeat frame t) :=
  .next (by split; exacts [h.takeFrame.takeHeartbeat, h.takeFrame])
theorem Keeps.sendProbe {t' st} (h : Keeps s t) : Keeps s (t.sendProbe t' st) := h.setTrunk.trunkOut

theorem Keeps.execHeartbeatMiss {trunk} (h : Keeps s t) : KeepsNext s (execHeartbeatMiss trunk t) :=
  .ite h.next <| .ite h.count.setTrunk.bump.sendProbe.next <|
    .ite h.count.setTrunk.bump.count.setTrunk.next h.count.setTrunk.bump.next

theorem Keeps.execProbe {frame} (h : Keeps s t) : KeepsNext s (execProbe frame t) :=
  .next (by split; exacts [h.takeFrame.trunkOut, h.takeFrame])

theorem Keeps.execProbeReply {frame} (h : Keeps s t) : KeepsNext s (execProbeReply frame t) := by
  unfold Machine.execProbeReply
  extract_lets r
  have hr : Keeps s r.1 := h.takeFrame
  split
  exacts [hr.next, .ite hr.resetMisses.setTrunk.next hr.next]

theorem Keeps.execProbeTimeout {trunk} (h : Keeps s t) : KeepsNext s (execProbeTimeout trunk t) :=
  .ite h.next <| .ite h.sendProbe.next <| .ite h.trunkDown.next h.next

/-! ### Machine/Pacing -/

theorem Keeps.execPacketize {leg codec record bits frameUs groups} (h : Keeps s t) :
    KeepsNext s (execPacketize leg codec record bits frameUs groups t) :=
  .ite h.next h.withFw.next

theorem Keeps.execPacePacket {leg stream cls header} (h : Keeps s t) : KeepsNext s (execPacePacket leg stream cls header t) := by
  unfold Machine.execPacePacket
  split
  exacts [h.next, .ite h.next h.withFw.injectRtp.next]

theorem Keeps.execEncForceIntra {stream desc} (h : Keeps s t) : KeepsNext s (execEncForceIntra stream desc t) :=
  h.setLe.setObj.next

/-! ### Machine/Cards -/

theorem Keeps.putCard {n tier intra v} (h : Keeps s t) : Keeps s (t.putCard n tier intra v) := h.setBytes.setBytes
theorem Keeps.writeCard {tier v} (h : Keeps s t) : Keeps s (t.writeCard tier v).1 := .ite_fst h h.putCard.setOctets
theorem Keeps.loadCards (h : Keeps s t) : Keeps s t.loadCards := .putCard (.putCard (.putCard (.putCard (.ite h.putPair h))))

/-! ### Machine/Hbm -/

theorem Keeps.setHbmCtl {c k} (h : Keeps s t) : Keeps s (t.setHbmCtl c k) := h.others
theorem Keeps.setHbmBank {k b} (h : Keeps s t) : Keeps s (t.setHbmBank k b) := h.others

theorem Keeps.setThrottle {c i v} (h : Keeps s t) : Keeps s (t.setThrottle c i v) := by
  unfold State.setThrottle
  extract_lets k s₁
  have hs₁ : Keeps s s₁ := h.setHbmCtl
  split
  exacts [h.setHbmCtl.put.put, h.setHbmCtl.put.put]

theorem Keeps.throttle {c src} (h : Keeps s t) : Keeps s (t.throttle c src) := h.setThrottle
theorem Keeps.rowTrigger {p e} (h : Keeps s t) : Keeps s (t.rowTrigger p e) := h.setHbmBank.count.put.put.put.log.throttle

theorem Keeps.hbmActivate {p src} (h : Keeps s t) : Keeps s (t.hbmActivate p src) := by
  unfold State.hbmActivate
  extract_lets b k s₁ s₂
  have hs₁ : Keeps s s₁ := h.setHbmCtl
  have hs₂ : Keeps s s₂ := hs₁.setHbmBank
  exact .ite h (by split; exacts [.ite hs₂.rowTrigger hs₂, hs₂])

theorem Keeps.poisonWord {c a src} (h : Keeps s t) : Keeps s (t.poisonWord c a src) := h.setBytes.count.others.put.put.put.log
theorem Keeps.eccRead {c a src f} (h : Keeps s t) : Keeps s (t.eccRead c a src f).1 :=
  .ite_fst h.count.count (by split; exacts [h.count, h.count.count, h.count.count.retried, h.count.poisonWord.count])
theorem Keeps.showHeld (h : Keeps s t) : Keeps s t.showHeld := h.foldl fun _ _ h => h.put
theorem Keeps.holdWords {a answer ecc} (h : Keeps s t) : Keeps s (t.holdWords a answer ecc) := .ite h h.others.showHeld

theorem Keeps.memoryLost {a} (h : Keeps s t) : Keeps s (t.memoryLost a) := by
  unfold State.memoryLost
  split
  exacts [h.emit, h.emit, h.emit]

theorem Keeps.ask {a answer ecc} (h : Keeps s t) : Keeps s (t.ask a answer ecc) :=
  .ite (by split; exacts [h.lostRead, h.lostWrite]) <| .ite h.memoryLost h.holdWords
theorem Keeps.ageReq {r} (h : Keeps s t) : Keeps s (t.ageReq r) := .others (.ite (.count (.ite h.count h)) <| .ite h.count h)

theorem Keeps.wordDone {r bs bad} (h : Keeps s t) : Keeps s (t.wordDone r bs bad) := by
  unfold State.wordDone
  extract_lets y s₁ s₂ y₁ s₃
  have hs₁ : Keeps s s₁ := h.others
  have hs₂ : Keeps s s₂ := hs₁.showHeld
  have hs₃ : Keeps s s₃ := hs₂.others
  split
  exacts [hs₂, .ite (.ite hs₃ <| .ite hs₃.emit hs₃.emit) hs₂.others]

theorem Keeps.serveWord {r ecc} (h : Keeps s t) : Keeps s (t.serveWord r ecc) := by
  unfold State.serveWord
  extract_lets p ecc₁ s₁ e
  have hs₁ : Keeps s s₁ := h.hbmActivate
  have he : Keeps s e.1 := hs₁.eccRead
  split
  exacts [he.wordDone, .wordDone (.setBytes (.count (.ite hs₁ hs₁.eccRead)))]

theorem Keeps.serveNext {c pc ecc} (h : Keeps s t) : Keeps s (t.serveNext c pc ecc) := by
  unfold State.serveNext
  refine .ite h ?_
  extract_lets s₁
  have hs₁ : Keeps s s₁ := h.foldl fun _ _ h => h.ageReq
  split
  exacts [hs₁.serveWord, hs₁]

theorem Keeps.loseHeld {c} (h : Keeps s t) : Keeps s (t.loseHeld c) := h.others.showHeld.foldl fun _ _ h => h.memoryLost

theorem Keeps.execHbmRequest {ctl pc arrivals ecc} (h : Keeps s t) : KeepsNext s (execHbmRequest ctl pc arrivals ecc t) := by
  unfold Machine.execHbmRequest
  split
  exacts [.fault _ _, .next (.serveNext (h.foldl fun _ _ h => h.ask))]

theorem Keeps.execRefresh {ctl pc bank} (h : Keeps s t) : KeepsNext s (execRefresh ctl pc bank t) := h.setHbmBank.next
theorem Keeps.execRefreshWindowStart {ctl celsius} (h : Keeps s t) : KeepsNext s (execRefreshWindowStart ctl celsius t) :=
  .ite h.next h.setHbmCtl.others.put.putBit.next

theorem Keeps.execThrottleExpiry {ctl slot} (h : Keeps s t) : KeepsNext s (execThrottleExpiry ctl slot t) := by
  unfold Machine.execThrottleExpiry
  split
  exacts [.next (.ite h.setThrottle h), h.next]

theorem Keeps.execScrubRead {ecc} (h : Keeps s t) : KeepsNext s (execScrubRead ecc t) := .ite h.next h.holdWords.others.next
theorem Keeps.loseMemory (h : Keeps s t) : Keeps s t.loseMemory := h.putBit.putBit.putBit
theorem Keeps.loseController {c cause} (h : Keeps s t) : Keeps s (t.loseController c cause) := h.fenceOpen.loseMemory.loseHeld
theorem Keeps.execHbmParityError {ctl again} (h : Keeps s t) : KeepsNext s (execHbmParityError ctl again t) :=
  .ite h.loseController.next h.count.retriedOpen.next

theorem Keeps.execHbmTrainStep {ctl outcome} (h : Keeps s t) : KeepsNext s (execHbmTrainStep ctl outcome t) := by
  unfold Machine.execHbmTrainStep
  extract_lets k
  refine .ite h.next ?_
  split
  · exact .next (.ite h.setHbmCtl <| .ite h.setHbmCtl.putBit.retriedOpen h.setHbmCtl.putBit)
  · exact .next (.ite h.bump.log.setHbmCtl <| .ite h.bump.log.setHbmCtl.putBit.retriedOpen h.bump.log.setHbmCtl.putBit)
  · exact .ite h.loseController.next h.setHbmCtl.next

theorem Keeps.execMapEnable {who} (h : Keeps s t) : KeepsNext s (execMapEnable who t) := h.access fun _ h => h.putBit.next
theorem Keeps.execBar2Read {offset n ecc} (h : Keeps s t) : KeepsNext s (execBar2Read offset n ecc t) := .ite h.next h.ask.next
theorem Keeps.execBar2Write {offset bytes ecc} (h : Keeps s t) : KeepsNext s (execBar2Write offset bytes ecc t) :=
  .ite h.next <| .ite h.lostWrite.next <| .ite h.bump.log.next h.ask.next
theorem Keeps.execBar2SizeChange {log2 decode} (h : Keeps s t) : KeepsNext s (execBar2SizeChange log2 decode t) :=
  .ite h.next (.next (.others (.ite h h.put.put)))

/-! ### Machine/Boot -/

theorem Keeps.setBoot {b} (h : Keeps s t) : Keeps s (t.setBoot b) := h.others
theorem Keeps.setStage {v} (h : Keeps s t) : Keeps s (t.setStage v) := h.put
theorem Keeps.settleTxdis (h : Keeps s t) : Keeps s t.settleTxdis := .ite h.putBit h
theorem Keeps.manageSfp (h : Keeps s t) : Keeps s t.manageSfp := .ite h.putBit.settleTxdis h

theorem Keeps.keepFields {old fs} (h : Keeps s t) : Keeps s (t.keepFields old fs) := by
  induction fs generalizing t with
  | nil => exact h
  | cons f fs ih => exact ih h.put

theorem Keeps.spendOnce {what} (h : Keeps s t) : Keeps s (t.spendOnce what) :=
  .ite h.drop <| .ite h.drop <| .ite h.drop <| .ite h.drop h.drop

theorem Keeps.cutBurn (h : Keeps s t) : Keeps s t.cutBurn := by
  unfold State.cutBurn
  split
  exacts [h, h.spendOnce]

theorem Keeps.coldReset {supply} (h : Keeps s t) : Keeps s (t.coldReset supply) :=
  .keepFields (h.cutBurn.emptied rfl rfl rfl rfl)
theorem Keeps.warmReset {cause held} (h : Keeps s t) : Keeps s (t.warmReset cause held) :=
  h.coldReset.keepFields.others.setCounter.putBit.bump.setStage
theorem Keeps.requestReset {cause} (h : Keeps s t) : Keeps s (t.requestReset cause) := .ite h.warmReset h.putBit.log
theorem Keeps.execPowerOn (h : Keeps s t) : KeepsNext s (execPowerOn t) := .ite h.coldReset.next h.next
theorem Keeps.execRailsInRegulation (h : Keeps s t) : KeepsNext s (execRailsInRegulation t) := .ite h.setBoot.setStage.next h.next
theorem Keeps.execRampTimeout (h : Keeps s t) : KeepsNext s (execRampTimeout t) := .ite h.coldReset.next h.next
theorem Keeps.execVinLow (h : Keeps s t) : KeepsNext s (execVinLow t) := .ite h.putBit.next h.next
theorem Keeps.execPowerOff (h : Keeps s t) : KeepsNext s (execPowerOff t) := h.coldReset.next
theorem Keeps.execRailFault (h : Keeps s t) : KeepsNext s (execRailFault t) := .ite h.coldReset.next h.next
theorem Keeps.execPerstNFall (h : Keeps s t) : KeepsNext s (execPerstNFall t) :=
  .ite h.putBit.next <| .ite h.next <| .ite h.putBit.warmReset.next h.putBit.next
theorem Keeps.releaseReset (h : Keeps s t) : Keeps s t.releaseReset := .ite h.setBoot.setStage h
theorem Keeps.execPerstNRise (h : Keeps s t) : KeepsNext s (execPerstNRise t) :=
  .ite h.putBit.next <| .ite h.next h.putBit.setBoot.releaseReset.next
theorem Keeps.writeFusCtrl {who v} (h : Keeps s t) : Keeps s (t.writeFusCtrl who v) := .ite h.requestReset h
theorem Keeps.execReset {who value} (h : Keeps s t) : KeepsNext s (execReset who value t) :=
  h.access fun _ h => h.writeFusCtrl.next

theorem Keeps.execFwWatchdog (h : Keeps s t) : KeepsNext s (execFwWatchdog t) := by
  unfold Machine.execFwWatchdog
  split
  exacts [.ite h.requestReset.next h.next, h.next]

theorem Keeps.kick {who} (h : Keeps s t) : Keeps s (t.kick who) := by
  unfold State.kick
  split
  exacts [.ite h h.setBoot, h]

theorem Keeps.execKick {who} (h : Keeps s t) : KeepsNext s (execKick who t) := h.access fun _ h => h.kick.next

theorem Keeps.setFlash {a bs} (h : Keeps s t) : Keeps s (t.setFlash a bs) := by
  induction bs generalizing t a with
  | nil => exact h
  | cons b bs ih => exact ih h.setBoot

theorem Keeps.showRecord (h : Keeps s t) : Keeps s t.showRecord := h.put.put.put
theorem Keeps.writeBootRecord {r} (h : Keeps s t) : Keeps s (t.writeBootRecord r) := h.setFlash.showRecord
theorem Keeps.bankOrder (h : Keeps s t) : Keeps s t.bankOrder.1 :=
  .ite_fst (.ite_fst h.writeBootRecord h.writeBootRecord) h.showRecord
theorem Keeps.enterRecovery (h : Keeps s t) : Keeps s t.enterRecovery := h.setBoot.setStage

theorem Keeps.execFuseSense {unreadable} (h : Keeps s t) : KeepsNext s (execFuseSense unreadable t) := by
  unfold Machine.execFuseSense
  extract_lets s₁ r y
  have hs₁ : Keeps s s₁ := h.releaseReset
  have hr : Keeps s r.1 := hs₁.bankOrder
  exact .ite hs₁.next (by split; exacts [hs₁.log.setStage.next, .ite hr.enterRecovery.next hr.setBoot.setStage.next])

theorem Keeps.startImage {rd window} (h : Keeps s t) : Keeps s (t.startImage rd window) := h.setBoot.put.put.setStage

theorem Keeps.flashTransfer {link} (h : Keeps s t) : Keeps s (t.flashTransfer link) := by
  unfold State.flashTransfer
  split
  exacts [h, .ite h h.retriedOpen, h.fenceOpen]

theorem Keeps.verifyBank {b} (h : Keeps s t) : Keeps s (t.verifyBank b).1 := .ite_fst h.spent h

theorem Keeps.execBankVerify {link} (h : Keeps s t) : KeepsNext s (execBankVerify link t) := by
  unfold Machine.execBankVerify
  refine .ite h.next ?_
  split
  · exact h.enterRecovery.next
  · split
    · next e =>
        refine .ite ((Keeps.of_eq e h.flashTransfer.verifyBank).put.startImage.next) ?_
        extract_lets y s₁
        have hs₁ : Keeps s s₁ := (Keeps.of_eq e h.flashTransfer.verifyBank).setBoot.log
        exact .next (.ite hs₁.enterRecovery hs₁)

theorem Keeps.logStage {sev} (h : Keeps s t) : Keeps s (t.logStage sev) := h.log
theorem Keeps.execStage1Check (h : Keeps s t) : KeepsNext s (execStage1Check t) :=
  .ite h.next <| .ite h.setStage.manageSfp.logStage.setStage.next h.putBit.requestReset.next
theorem Keeps.execHbmReady (h : Keeps s t) : KeepsNext s (execHbmReady t) :=
  .ite h.next <| .ite h.setStage.logStage.next <| .ite h.putBit.putBit.putBit.setStage.next h.next
theorem Keeps.execBringupComplete {failed} (h : Keeps s t) : KeepsNext s (execBringupComplete failed t) :=
  .ite h.next (.next (.logStage (.setStage (.loadCards (h.foldl fun _ _ h => h.spent.fenceWith)))))
theorem Keeps.rcvCommand {op} (h : Keeps s t) : Keeps s (t.rcvCommand op) :=
  .ite h <| .ite (.ite h.put.put.startImage h.put.put.spent.log) <| .ite h.setBoot.put.put h
theorem Keeps.execRcvLoad {who} (h : Keeps s t) : KeepsNext s (execRcvLoad who t) := h.access fun _ h => h.rcvCommand.next
theorem Keeps.execRcvClear {who} (h : Keeps s t) : KeepsNext s (execRcvClear who t) := h.access fun _ h => h.rcvCommand.next
theorem Keeps.rcvWrite {offset v} (h : Keeps s t) : Keeps s (t.rcvWrite offset v) := .ite h h.setBoot

theorem Keeps.beginBurns {bs} (h : Keeps s t) : Keeps s (t.beginBurns bs) := by
  induction bs generalizing t with
  | nil => exact h.setBoot
  | cons b bs ih => exact .ite h.setBoot (ih h.answer)

theorem Keeps.onceWrite {b} (h : Keeps s t) : Keeps s (t.onceWrite b) := .ite h.beginBurns h.setBoot
theorem Keeps.putOctets {f bs} (h : Keeps s t) : Keeps s (t.putOctets f bs) := h.foldl fun _ _ h => h.put

theorem Keeps.burnt {b} (h : Keeps s t) : Keeps s (t.burnt b) :=
  .ite h.putOctets.putBit.setBoot.spent <| .ite (.ite h.putOctets.putBit.writeBootRecord h.putOctets.putBit) <| .ite h.put.put <|
    .ite h.putBit h.putBit

theorem Keeps.execFuseBurnDone {matches_} (h : Keeps s t) : KeepsNext s (execFuseBurnDone matches_ t) := by
  unfold Machine.execFuseBurnDone
  split
  exacts [h.next, .next (.beginBurns (.ite h.spendOnce.burnt.answer h.spendOnce.answer))]

theorem Keeps.ownerAuth {v} (h : Keeps s t) : Keeps s (t.ownerAuth v).1 := .ite_fst h.setBoot h
theorem Keeps.stageBegin {n} (h : Keeps s t) : Keeps s (t.stageBegin n).1 := .ite_fst h h.setBoot
theorem Keeps.stageWrite {n bs} (h : Keeps s t) : Keeps s (t.stageWrite n bs).1 := .ite_fst h h.setFlash.putBit.setBoot
theorem Keeps.stageHbm {n fromF0 v} (h : Keeps s t) : Keeps s (t.stageHbm n fromF0 v).1 := .ite_fst h h.stageWrite
theorem Keeps.stageEnd {n} (h : Keeps s t) : Keeps s (t.stageEnd n).1 := .ite_fst h h.setBoot
theorem Keeps.fwActivate {n} (h : Keeps s t) : Keeps s (t.fwActivate n).1 :=
  .ite_fst h <| .ite_fst h.setBoot h.writeBootRecord.setBoot
theorem Keeps.fwCommit (h : Keeps s t) : Keeps s t.fwCommit.1 := .ite_fst h.writeBootRecord h
theorem Keeps.endStaging {n} (h : Keeps s t) : Keeps s (t.endStaging n) := .ite h.setBoot h

/-! ### Machine/Fabric -/

theorem Keeps.dmaIn {c d} (h : Keeps s t) : Keeps s (t.dmaIn c d).1 :=
  .ite_fst h.setLocalBytes <| .ite_fst h.setLocalBytes <| .ite_fst h.setLocalBytes h

theorem Keeps.dmaLines {c : Nat} {d : DmaDesc} {n i : Nat} (h : Keeps s t) : Keeps s (t.dmaLines c d n i).1 := by
  induction n generalizing t i with
  | zero => exact h
  | succ n ih => exact .ite_fst (ih h.feedSource) h.feedSource

theorem Keeps.dmaOut {c d} (h : Keeps s t) : Keeps s (t.dmaOut c d).1 :=
  .ite_fst h.setBytes <| .ite_fst h.dmaLines <| .ite_fst h.count h
theorem Keeps.dmaStop {c n cause} (h : Keeps s t) : Keeps s (t.dmaStop c n cause) := h.setCore.coreIrq

theorem Keeps.dmaRun {c n a} (h : Keeps s t) : Keeps s (t.dmaRun c n a) := by
  unfold State.dmaRun
  extract_lets d r k ch s₁
  have hr : Keeps s r.1 := .ite_fst h.dmaOut h.dmaIn
  have hs₁ : Keeps s s₁ := hr.setCore
  exact .ite h.dmaStop <| .ite h.dmaStop <| .ite h.dmaStop <| .ite hr.dmaStop <| .ite hs₁.coreIrq hs₁

theorem Keeps.execDmaDescDone {core channel} (h : Keeps s t) : KeepsNext s (execDmaDescDone core channel t) := by
  unfold Machine.execDmaDescDone
  split
  exacts [h.next, h.dmaRun.next]

/-! ### Machine/Hif -/

theorem Keeps.setCpl {n k q} (h : Keeps s t) : Keeps s (t.setCpl n k q) := h.others.put
theorem Keeps.hostRelease {ptr} (h : Keeps s t) : Keeps s (t.hostRelease ptr) := h.releaseBy
theorem Keeps.loseEntry {e} (h : Keeps s t) : Keeps s (t.loseEntry e) := .ite h.bump.hostRelease h.bump

theorem Keeps.postEntry {n k e} (h : Keeps s t) : Keeps s (t.postEntry n k e) := by
  unfold State.postEntry
  split
  · next e => exact (Keeps.of_eq e h.writeWord)
  · next e => exact (Keeps.of_eq e h.writeWord)
  · next e => exact (Keeps.of_eq e h.writeWord).loseEntry

theorem Keeps.sqDone {n j d status} (h : Keeps s t) : Keeps s (t.sqDone n j d status) := .ite h.put.postEntry h.put
theorem Keeps.deliverData {n k service arg cell len} (h : Keeps s t) : Keeps s (t.deliverData n k service arg cell len) :=
  h.postEntry
theorem Keeps.raiseCq {n k} (h : Keeps s t) : Keeps s (t.raiseCq n k) := h.raise
theorem Keeps.coalesce {n k} (h : Keeps s t) : Keeps s (t.coalesce n k) := .ite h.setCpl.raiseCq h.setCpl
theorem Keeps.writeEntryAt {n k e cellFlag tag cell} (h : Keeps s t) : Keeps s (t.writeEntryAt n k e cellFlag tag cell) :=
  .coalesce (.put (.ite h.emit.put.setCpl h.emit.put))

theorem Keeps.writeData {n k e b rest} (h : Keeps s t) : Keeps s (t.writeData n k e b rest) := by
  unfold State.writeData
  exact .writeEntryAt (.hostRelease (.ite h.setCpl.emit h.setCpl))

theorem Keeps.writeNextEntry {n k} (h : Keeps s t) : Keeps s (t.writeNextEntry n k) := by
  unfold State.writeNextEntry
  extract_lets _ _ take
  have htake : Keeps s take := h.readWord
  refine .ite h ?_
  split
  exacts [h, .ite htake.writeEntryAt <| .ite htake.writeEntryAt (by split; exacts [h, htake.writeData])]

theorem Keeps.execCqEntryWrite {fn k} (h : Keeps s t) : KeepsNext s (execCqEntryWrite fn k t) := h.writeNextEntry.next
theorem Keeps.writeHead {n k head} (h : Keeps s t) : Keeps s (t.writeHead n k head) := h.put.setCpl
theorem Keeps.execHeadWrite {fn k head} (h : Keeps s t) : KeepsNext s (execHeadWrite fn k head t) :=
  h.access fun _ h => h.writeHead.next

theorem Keeps.execCqCoalesceTimer {fn k} (h : Keeps s t) : KeepsNext s (execCqCoalesceTimer fn k t) := by
  unfold Machine.execCqCoalesceTimer
  extract_lets q
  split
  exacts [h.next, .ite h.setCpl.raiseCq.next h.next]

theorem Keeps.popDesc {n j} (h : Keeps s t) : Keeps s (t.popDesc n j) := by
  unfold State.popDesc
  split
  exacts [h, .ite h.setSub.put h.setSub]

theorem Keeps.startBuf {n j d} (h : Keeps s t) : Keeps s (t.startBuf n j d).1 := by
  unfold State.startBuf
  extract_lets q
  split
  · next e => exact (Keeps.of_eq e h.allocCell).setSub.emit
  · next e => exact (Keeps.of_eq e h.allocCell).setSub
  · next e => exact (Keeps.of_eq e h.allocCell)

theorem Keeps.settleFront {n j fuel} (h : Keeps s t) : Keeps s (t.settleFront n j fuel) := by
  induction fuel generalizing t with
  | zero => exact h
  | succ fuel ih =>
    unfold State.settleFront
    extract_lets
    split
    · exact h
    · exact .ite (ih h.putBit.popDesc.sqDone) (.ite (.ite h.startBuf (ih h.startBuf.popDesc.sqDone)) h)

theorem Keeps.goOn {n j} (h : Keeps s t) : Keeps s (t.goOn n j) := h.settleFront.startFetch
theorem Keeps.writeTail {n j tail} (h : Keeps s t) : Keeps s (t.writeTail n j tail) := .ite h.putBit h.put.startFetch
theorem Keeps.execTailWrite {fn j tail} (h : Keeps s t) : KeepsNext s (execTailWrite fn j tail t) :=
  h.access fun _ h => h.writeTail.next
theorem Keeps.dmaError {n j addr} (h : Keeps s t) : Keeps s (t.dmaError n j addr) := h.putBit.emit.raise
theorem Keeps.failFetch {n j c} (h : Keeps s t) : Keeps s (t.failFetch n j c) :=
  .goOn (.put (h.setSub.dmaError.foldl fun _ _ h => h.sqDone.spent))
theorem Keeps.failBuf {n j d cell} (h : Keeps s t) : Keeps s (t.failBuf n j d cell) := h.hostRelease.popDesc.dmaError.sqDone.goOn

theorem Keeps.execDescFetchDone {fn j descs failed} (h : Keeps s t) : KeepsNext s (execDescFetchDone fn j descs failed t) := by
  unfold Machine.execDescFetchDone
  extract_lets s₁ q
  have hs₁ : Keeps s s₁ := h.startFetch
  split
  exacts [hs₁.next, .ite (.ite hs₁.failFetch.next hs₁.next) <| .ite hs₁.setSub.goOn.next hs₁.next]

theorem Keeps.pioCommit {n j} (h : Keeps s t) : Keeps s (t.pioCommit n j) := .ite h <| .ite h.setSub.goOn h.sqDone
theorem Keeps.execPioCommit {fn j} (h : Keeps s t) : KeepsNext s (execPioCommit fn j t) := h.access fun _ h => h.pioCommit.next

theorem Keeps.passNops {n j fuel} (h : Keeps s t) : Keeps s (t.passNops n j fuel) := by
  induction fuel generalizing t with
  | zero => exact h
  | succ fuel ih =>
    unfold State.passNops
    split
    · exact h
    · exact .ite (ih h.readWord.sqDone) h

theorem Keeps.commitDesc {n j d cell} (h : Keeps s t) : Keeps s (t.commitDesc n j d cell) := by
  unfold State.commitDesc
  extract_lets s₁ r s₂
  have hs₁ : Keeps s s₁ := h.popDesc
  have hr : Keeps s r.1 := hs₁.writeWord
  have hs₂ : Keeps s s₂ := by
    unfold s₂
    split
    exacts [hr.hostRelease.sqDone, hr.hostRelease.sqDone, hr]
  exact hs₂.passNops.goOn

theorem Keeps.onFront {n j op f} (h : Keeps s t) (hf : ∀ d, Keeps s (f d)) : Keeps s (t.onFront n j op f) := by
  unfold State.onFront
  split
  exacts [h, .ite (hf _) h]

theorem Keeps.execDescNop {fn j} (h : Keeps s t) : KeepsNext s (execDescNop fn j t) := .next (h.onFront fun _ => h.commitDesc)
theorem Keeps.execInline {fn j} (h : Keeps s t) : KeepsNext s (execInline fn j t) := .next (h.onFront fun _ => h.commitDesc)

theorem Keeps.bufArrived {n j d cell data} (h : Keeps s t) : Keeps s (t.bufArrived n j d cell data) := by
  unfold State.bufArrived
  split
  exacts [h.failBuf, .ite h.setBytes.commitDesc h.failBuf]

theorem Keeps.hostBuf {n j d data} (h : Keeps s t) : Keeps s (t.hostBuf n j d data) := by
  unfold State.hostBuf
  split
  · exact h.goOn
  · exact h.bufArrived
  · split
    exacts [h, .ite h.others.setSub.emit.bufArrived h.others.popDesc.sqDone.goOn]

theorem Keeps.execHostBuf {fn j data} (h : Keeps s t) : KeepsNext s (execHostBuf fn j data t) :=
  .next (h.onFront fun _ => h.hostBuf)
theorem Keeps.execDevBuf {fn j} (h : Keeps s t) : KeepsNext s (execDevBuf fn j t) := .next (h.onFront fun _ => h.commitDesc)
theorem Keeps.freeDesc {n j d} (h : Keeps s t) : Keeps s (t.freeDesc n j d) := h.returnCell.popDesc.sqDone.goOn
theorem Keeps.execFreeCell {fn j} (h : Keeps s t) : KeepsNext s (execFreeCell fn j t) := .next (h.onFront fun _ => h.freeDesc)
theorem Keeps.rxDesc {n j d} (h : Keeps s t) : Keeps s (t.rxDesc n j d) :=
  .ite h.popDesc.putBit.sqDone.goOn h.popDesc.setCpl.put.goOn
theorem Keeps.execRxBuf {fn j} (h : Keeps s t) : KeepsNext s (execRxBuf fn j t) := .next (h.onFront fun _ => h.rxDesc)

theorem Keeps.consume {n j service f} (h : Keeps s t) (hf : ∀ u d, Keeps s u → Keeps s (f u d)) :
    Keeps s (t.consume n j service f) := by
  unfold State.consume
  split
  exacts [h, .ite (hf _ _ h.readWord).passNops.goOn h]

theorem Keeps.frameTx {n j d} (h : Keeps s t) : Keeps s (t.frameTx n j d) := h.spent.enqueueFrame.sqDone
theorem Keeps.execFrameTx {fn j} (h : Keeps s t) : KeepsNext s (execFrameTx fn j t) := .next (h.consume fun _ _ h => h.frameTx)
theorem Keeps.firmwareJob {n j d status} (h : Keeps s t) : Keeps s (t.firmwareJob n j d status) := h.emit.sqDone
theorem Keeps.execFirmware {fn j status} (h : Keeps s t) : KeepsNext s (execFirmware fn j status t) :=
  .ite (.next (h.consume fun _ _ h => h.firmwareJob)) h.next

theorem Keeps.dropBuf {n j} (h : Keeps s t) : Keeps s (t.dropBuf n j) := by
  unfold State.dropBuf
  split
  · exact h
  · exact h.hostRelease
  · extract_lets g s₁
    have hs₁ : Keeps s s₁ := h.others
    clear_value g
    split
    exacts [hs₁.hostRelease, hs₁.setHeld.setHeld]

theorem Keeps.abortDesc {n j entry d} (h : Keeps s t) : Keeps s (t.abortDesc n j entry d) :=
  .ite h.hostRelease.sqDone h.hostRelease.put

theorem Keeps.answerWord {q code w} (h : Keeps s t) : Keeps s (t.answerWord q code w) := by
  unfold State.answerWord
  split
  exacts [h.emit, h.hostRelease.sqDone, h.loseEntry]

theorem Keeps.dropStalled {q} (h : Keeps s t) : Keeps s (t.dropStalled q) := h.setQueue.foldl fun _ _ h => h.answerWord

theorem Keeps.execCompatStallTimeout {queue} (h : Keeps s t) : KeepsNext s (execCompatStallTimeout queue t) := by
  unfold Machine.execCompatStallTimeout
  split
  exacts [h.next, .ite h.overrun.setQueue.answerWord.unstall.next h.next]

theorem Keeps.abortSub {n j entry} (h : Keeps s t) : Keeps s (t.abortSub n j entry) := by
  unfold State.abortSub
  extract_lets _ front words s₁ s₂ s₃ s₄ y s₅ s₆
  have hs₁ : Keeps s s₁ := h.foldl fun _ _ h => h.answerWord
  have hs₂ : Keeps s s₂ := hs₁.dropBuf
  have hs₃ : Keeps s s₃ := .ite hs₂ hs₂.popDesc
  have hs₄ : Keeps s s₄ := hs₃.setSub
  have hs₅ : Keeps s s₅ := hs₄.setQueue
  have hs₆ : Keeps s s₆ := hs₅.judgeOrder.foldl fun _ _ h => h.abortDesc
  exact hs₆.foldl fun _ _ h => h.abortDesc

theorem Keeps.disableHostQueue {n j} (h : Keeps s t) : Keeps s (t.disableHostQueue n j) :=
  .ite h.putBit.abortSub h.putBit.dropStalled
theorem Keeps.execHostQueueDisable {fn j} (h : Keeps s t) : KeepsNext s (execHostQueueDisable fn j t) :=
  h.access fun _ h => h.disableHostQueue.next
theorem Keeps.disableHif (h : Keeps s t) : Keeps s t.disableHif := h.putBit.foldl fun _ _ h => h.abortSub

theorem Keeps.execCplTimeout {fn j} (h : Keeps s t) : KeepsNext s (execCplTimeout fn j t) := by
  unfold Machine.execCplTimeout
  extract_lets
  split
  exacts [.ite h.failBuf.next h.next, .ite h.failFetch.next h.next, h.next]

theorem Keeps.unmask {n v} (h : Keeps s t) : Keeps s (t.unmask n v) := .ite h.setFn.emit h
theorem Keeps.unmaskVector {n v} (h : Keeps s t) : Keeps s (t.unmaskVector n v) := .ite h h.setFn.unmask
theorem Keeps.enableMsix {n} (h : Keeps s t) : Keeps s (t.enableMsix n) := .ite h (h.setFn.foldl fun _ _ h => h.unmask)

theorem Keeps.execMsixUnmask {fn vec} (h : Keeps s t) : KeepsNext s (execMsixUnmask fn vec t) := by
  unfold Machine.execMsixUnmask
  split
  exacts [h.access fun _ h => h.unmaskVector.next, h.enableMsix.next]

theorem Keeps.badAccess {n addr read} (h : Keeps s t) : Keeps s (t.badAccess n addr read) := .ite h.bump.log.emit h.bump.log
theorem Keeps.execBadAccess {fn addr read} (h : Keeps s t) : KeepsNext s (execBadAccess fn addr read t) := h.badAccess.next

/-! ### Machine/Mailbox -/

theorem Keeps.endClaim {c lapsed} (h : Keeps s t) : Keeps s (t.endClaim c lapsed) := h.putBit.put.setMbx
theorem Keeps.lapse {c} (h : Keeps s t) : Keeps s (t.lapse c) := .ite h.endClaim h
theorem Keeps.execMbxClaimTimeout {ch} (h : Keeps s t) : KeepsNext s (execMbxClaimTimeout ch t) := h.lapse.next

theorem Keeps.mbxDeliver {c stamp words check} (h : Keeps s t) : Keeps s (t.mbxDeliver c stamp words check) := by
  unfold State.mbxDeliver
  split
  exacts [h.fillChannel, h.fillChannel.retriedOpen, h.fenceOpen]

theorem Keeps.mbxLineWrite {who c line check} (h : Keeps s t) : Keeps s (t.mbxLineWrite who c line check) :=
  .ite h.lapse.emit <| .ite h.lapse.bump.emit <| .ite h.lapse.mbxDeliver.emit h.lapse.mbxDeliver

theorem Keeps.takeClaim {n choice} (h : Keeps s t) : Keeps s (t.takeClaim n choice) := by
  unfold State.takeClaim
  split
  exacts [h.emit, h.lapse.putBit.put.setMbx.emit]

theorem Keeps.mbxClaim {n} (h : Keeps s t) : Keeps s (t.mbxClaim n) := h.takeClaim
theorem Keeps.execMbxClaim {fn} (h : Keeps s t) : KeepsNext s (execMbxClaim fn t) := h.accessRead fun _ h => h.mbxClaim.next
theorem Keeps.rejectWrite {n c cause} (h : Keeps s t) : Keeps s (t.rejectWrite n c cause) :=
  .raise (.ite h.put.put.putBit h.put.put.putBit)

theorem Keeps.hostMbxWrite {n c f} (h : Keeps s t) (hf : ∀ u, Keeps s u → Keeps s (f u)) : Keeps s (t.hostMbxWrite n c f) := by
  refine .ite h ?_
  extract_lets
  split
  exacts [h.lapse.rejectWrite, hf _ h.lapse]

theorem Keeps.execMbxDataWrite {fn ch index word} (h : Keeps s t) : KeepsNext s (execMbxDataWrite fn ch index word t) :=
  h.access fun _ h => .next (h.hostMbxWrite fun _ h => h.setMbx)
theorem Keeps.execSend {fn ch check} (h : Keeps s t) : KeepsNext s (execSend fn ch check t) :=
  h.access fun _ h => .next (h.hostMbxWrite fun _ h => .ite h.endClaim.spent.mbxDeliver.rejectWrite h.endClaim.spent.mbxDeliver)
theorem Keeps.execMbxInternalWrite {who ch line check} (h : Keeps s t) : KeepsNext s (execMbxInternalWrite who ch line check t) :=
  h.mbxLineWrite.next

theorem Keeps.mbxRelease {who c} (h : Keeps s t) : Keeps s (t.mbxRelease who c) := by
  unfold State.mbxRelease
  extract_lets _ freed
  have hfreed : Keeps s freed := .ite h.putBit h
  split
  exacts [.ite h (.emit (.ite h.putBit h)), hfreed.emit]

theorem Keeps.refillChannel {c} (h : Keeps s t) : Keeps s (t.refillChannel c) := .ite h.flushGul h
theorem Keeps.execMbxRelease {who ch} (h : Keeps s t) : KeepsNext s (execMbxRelease who ch t) :=
  .next (.ite h.lostRead h.mbxRelease.refillChannel)
theorem Keeps.setDoorbell {bit v} (h : Keeps s t) : Keeps s (t.setDoorbell bit v) := h.putBit
theorem Keeps.noteBell {bit} (h : Keeps s t) : Keeps s (t.noteBell bit) := h.others
theorem Keeps.ring {n bit} (h : Keeps s t) : Keeps s (t.ring n bit) :=
  .ite h.bump <| .ite h.noteBell.bump h.noteBell.setDoorbell.emit
theorem Keeps.writeDblSet {n w bits} (h : Keeps s t) : Keeps s (t.writeDblSet n w bits) :=
  .ite h (h.foldl fun _ _ h => .ite h.ring h)
theorem Keeps.execDblSet {fn w bits} (h : Keeps s t) : KeepsNext s (execDblSet fn w bits t) :=
  h.access fun _ h => h.writeDblSet.next
theorem Keeps.ringHost {bit} (h : Keeps s t) : Keeps s (t.ringHost bit) := .ite h.noteBell h.noteBell.setDoorbell.raise
theorem Keeps.execDblInternalSet {who bit} (h : Keeps s t) : KeepsNext s (execDblInternalSet who bit t) :=
  .next (.ite h.lostWrite h.ringHost)
theorem Keeps.writeDblStat {who w bits} (h : Keeps s t) : Keeps s (t.writeDblStat who w bits) :=
  h.foldl fun _ _ h => .ite h.setDoorbell h
theorem Keeps.execDblStatClear {who w bits} (h : Keeps s t) : KeepsNext s (execDblStatClear who w bits t) :=
  h.access fun _ h => h.writeDblStat.next
theorem Keeps.flrChannel {n c} (h : Keeps s t) : Keeps s (t.flrChannel n c) :=
  .ite (.endClaim (.ite h.putBit h)) <| .ite h.putBit h
theorem Keeps.flrQueue {n j} (h : Keeps s t) : Keeps s (t.flrQueue n j) :=
  .putBit (.putBit (.ite h.putBit.abortSub (.setCpl (.setQueue (h.putBit.foldl fun _ _ h => h.hostRelease)))))
theorem Keeps.resetPage {n} (h : Keeps s t) : Keeps s (t.resetPage n) := h.trans (keeps_filterRegs ..)
theorem Keeps.flrGrants {n} (h : Keeps s t) : Keeps s (t.flrGrants n) := h.others

theorem Keeps.flr {n} (h : Keeps s t) : Keeps s (t.flr n) :=
  .putBit (.setFn (.resetPage (.foldl (.flrGrants (.foldl
    (h.foldl fun _ _ h => h.flrQueue) fun _ _ h => h.flrChannel)) fun _ _ h => h.setDoorbell.setDoorbell)))

theorem Keeps.flrFrom {first} (h : Keeps s t) : Keeps s (t.flrFrom first) := h.foldl fun _ _ h => h.flr
theorem Keeps.execFunctionLevelReset {fn} (h : Keeps s t) : KeepsNext s (execFunctionLevelReset fn t) :=
  .ite h.next (.next (.ite h.flrFrom h.flr))

theorem Keeps.execFlrComplete {fn} (h : Keeps s t) : KeepsNext s (execFlrComplete fn t) := by
  unfold Machine.execFlrComplete
  split
  exacts [h.next, h.setFn.putBit.next]

theorem Keeps.execVfEnableClear {again} (h : Keeps s t) : KeepsNext s (execVfEnableClear again t) :=
  .next (h.flrFrom.foldl fun _ _ h => h.setFn)
theorem Keeps.execHotReset {speed width} (h : Keeps s t) : KeepsNext s (execHotReset speed width t) := h.flrFrom.put.put.next

/-! ### Machine/Updraft -/

theorem Keeps.setShed {l} (h : Keeps s t) : Keeps s (t.setShed l) := .ite h h.put.trace.log
theorem Keeps.moveShed (h : Keeps s t) : Keeps s t.moveShed :=
  .ite h.others.setShed <| .ite h.others.setShed <| .ite h.others.setShed h.others
theorem Keeps.clearDeferred (h : Keeps s t) : Keeps s t.clearDeferred := h.foldl fun _ _ h => h.setTask

theorem Keeps.execUpdWindowEnd (h : Keeps s t) : KeepsNext s (execUpdWindowEnd t) :=
  .ite h.next (.next (.put (.put (.put (.others (.clearDeferred (.ite (.put (.moveShed (.ite h.putBit.log h))) (.moveShed (.ite
    h.putBit.log h)))))))))

theorem Keeps.putSensors {i bs} (h : Keeps s t) : Keeps s (t.putSensors i bs) := by
  induction bs generalizing t i with
  | nil => exact h
  | cons b bs ih => exact ih h.put

theorem Keeps.loseRunning (h : Keeps s t) : Keeps s t.loseRunning := h.foldl fun _ _ h => h.freeSlot
theorem Keeps.gateAll (h : Keeps s t) : Keeps s t.gateAll := h.foldl fun _ _ h => h.setIsland
theorem Keeps.trip {tj sensor} (h : Keeps s t) : Keeps s (t.trip tj sensor) :=
  .gateAll (.loseRunning (h.log.emit.put.put.trace.foldl fun _ _ h => h.disablePort))
theorem Keeps.enterThermal {st tj} (h : Keeps s t) : Keeps s (t.enterThermal st tj) := h.put.trace
theorem Keeps.moveThermal {tj} (h : Keeps s t) : Keeps s (t.moveThermal tj) :=
  .ite h.enterThermal.emit.log <| .ite h.enterThermal.emit <| .ite h.enterThermal.setShed.log <| .ite h.enterThermal h

theorem Keeps.execThermalSample {sensors} (h : Keeps s t) : KeepsNext s (execThermalSample sensors t) :=
  .ite h.next <| .ite h.putSensors.put.put.next <|
    .ite h.putSensors.put.put.trip.next h.putSensors.put.put.others.moveThermal.next

theorem Keeps.attribute {island uw} (h : Keeps s t) : Keeps s (t.attribute island uw) := by
  unfold State.attribute
  split
  exacts [.ite h.others h, h.foldl fun _ _ h => h.setTask.others]

theorem Keeps.attributeAll {i l} (h : Keeps s t) : Keeps s (t.attributeAll i l) := by
  induction l generalizing t i with
  | nil => exact h
  | cons uw l ih => exact ih h.attribute

theorem Keeps.putRails {l rails} (h : Keeps s t) : Keeps s (t.putRails l rails) :=
  h.foldl fun _ _ h => .ite h.put.put.put h.put.put

theorem Keeps.execTelemetrySample {vin rails islands link} (h : Keeps s t) :
    KeepsNext s (execTelemetrySample vin rails islands link t) :=
  .ite h.next <| .ite h.fenceOpen.next (.next (.putRails (.put (.attributeAll (.others (.ite h.retriedOpen h))))))

theorem Keeps.showIpeak {rail} (h : Keeps s t) : Keeps s (t.showIpeak rail) := h.put
theorem Keeps.execIpeakWrite {who rail} (h : Keeps s t) : KeepsNext s (execIpeakWrite who rail t) :=
  h.access fun _ h => h.showIpeak.next

/-! ### Machine/Power -/

theorem Keeps.execLullEntry {island} (h : Keeps s t) : KeepsNext s (execLullEntry island t) :=
  .ite h.next <| .ite h.setIsland.next h.next
theorem Keeps.execLullWake {island cause} (h : Keeps s t) : KeepsNext s (execLullWake island cause t) := .next (.ite h.wake h)

theorem Keeps.execLullWakeDone {island} (h : Keeps s t) : KeepsNext s (execLullWakeDone island t) := by
  unfold Machine.execLullWakeDone
  extract_lets _ s₁
  have hs₁ : Keeps s s₁ := h.setIsland
  split
  exacts [.ite (.next (.ite hs₁.dispatchCipher hs₁)) h.next, h.next]

theorem Keeps.execClusterPrewake {cluster} (h : Keeps s t) : KeepsNext s (execClusterPrewake cluster t) := .next (.ite h.wake h)
theorem Keeps.standbyEnter {w} (h : Keeps s t) : Keeps s (t.standbyEnter w) :=
  .ite h <| .ite (.putBit (.putBit (h.foldl fun _ _ h => h.setIsland))) h.putBit.log
theorem Keeps.standbyExit (h : Keeps s t) : Keeps s t.standbyExit := .ite (.putBit (h.foldl fun _ _ h => h.wake)) h
theorem Keeps.execStandbyEnter {who} (h : Keeps s t) : KeepsNext s (execStandbyEnter who t) :=
  h.access fun _ h => h.standbyEnter.next
theorem Keeps.execStandbyExit {who} (h : Keeps s t) : KeepsNext s (execStandbyExit who t) :=
  h.access fun _ h => h.standbyExit.next
theorem Keeps.primeSources (h : Keeps s t) : Keeps s t.primeSources := .withMxm (h.foldl fun _ _ h => h.put.put)
theorem Keeps.execStandbyWakeDone (h : Keeps s t) : KeepsNext s (execStandbyWakeDone t) :=
  .ite h.next (.next (.putBit (.primeSources (h.foldl fun _ _ h => h.setIsland))))

/-! ### Machine/Sundog -/

theorem Keeps.execModStartWrite {who mod frame} (h : Keeps s t) : KeepsNext s (execModStartWrite who mod frame t) :=
  h.access fun _ h => h.armBeacon.next
theorem Keeps.execBeaconFrameEnd {mod} (h : Keeps s t) : KeepsNext s (execBeaconFrameEnd mod t) := .next (.ite h.endBeacon h)
theorem Keeps.setDetector {n d} (h : Keeps s t) : Keeps s (t.setDetector n d) := h.others.put.put.putBit.putBit.put
theorem Keeps.configDetector {n src on} (h : Keeps s t) : Keeps s (t.configDetector n src on) :=
  .ite h.put.putBit.setDetector h.put.putBit
theorem Keeps.execDetectorConfig {who det source on} (h : Keeps s t) : KeepsNext s (execDetectorConfig who det source on t) :=
  h.access fun _ h => h.configDetector.next
theorem Keeps.sdgEvent {type shift det rssi qual token} (h : Keeps s t) : Keeps s (t.sdgEvent type shift det rssi qual token) :=
  .ite h <| .ite h.post.count <| .ite h.post.emit <| .ite h.post.bumpObj h.post.others

theorem Keeps.decideBit {n shift r b rssi} (h : Keeps s t) : Keeps s (t.decideBit n shift r b rssi) := by
  unfold State.decideBit
  extract_lets d bits frame _ s₁
  have hs₁ : Keeps s s₁ := h.count
  split
  exacts [.ite h.setDetector <|
    .ite h.count.spent.sdgEvent.setDetector h.setDetector, .ite h.setDetector hs₁.sdgEvent.setDetector]

theorem Keeps.receiverFinds {n search shift f} (h : Keeps s t) : Keeps s (t.receiverFinds n search shift f) := by
  unfold State.receiverFinds
  extract_lets d
  split
  exacts [.ite h.count.setDetector h, h.decideBit, h]

theorem Keeps.stopSdg (h : Keeps s t) : Keeps s t.stopSdg :=
  .foldl (h.stopBeacons.foldl fun _ _ h => h.setDetector) fun _ _ h => h.abortProbe
theorem Keeps.execBeaconFrameStart {start} (h : Keeps s t) : KeepsNext s (execBeaconFrameStart start t) :=
  .ite h.next (by split; exacts [h.startBeacon.next, h.startBeacon.retriedOpen.next, h.fenceOpen.stopSdg.next])
theorem Keeps.detectFrame {n energy fs} (h : Keeps s t) : Keeps s (t.detectFrame n energy fs) :=
  .foldl (.setDetector (.put (.ite h.spent h))) fun _ _ h => h.receiverFinds

theorem Keeps.execDetectorFrame {det energy findings check} (h : Keeps s t) :
    KeepsNext s (execDetectorFrame det energy findings check t) :=
  .ite h.next (by split; exacts [h.detectFrame.next, h.detectFrame.retriedOpen.next, h.fenceOpen.stopSdg.next])

theorem Keeps.execAgcRelease {det} (h : Keeps s t) : KeepsNext s (execAgcRelease det t) := by
  unfold Machine.execAgcRelease
  extract_lets d
  split
  exacts [.next (.ite h.setDetector h), h.next]

theorem Keeps.execProbeNow {who leg fullband} (h : Keeps s t) : KeepsNext s (execProbeNow who leg fullband t) :=
  .ite h.emit.next <| .ite h.emit.next <| .ite h.emit.next <| .ite h.emit.next h.others.emit.next

theorem Keeps.execProbeArm {nonce bus parent exclusions gain encode} (h : Keeps s t) :
    KeepsNext s (execProbeArm nonce bus parent exclusions gain encode t) := by
  unfold Machine.execProbeArm
  split
  · extract_lets
    split
    rename_i e₁
    split
    rename_i t₂ _ _ e₂
    have ht₂ : Keeps s t₂ := .of_eq e₂ (.commitGroup (.of_eq e₁ h.storeSet))
    exact .ite h.next ht₂.put.put.put.put.putBit.createTask.others.armBeacon.takeDecode.next
  · exact h.next

theorem Keeps.noteTest {a b} (h : Keeps s t) : Keeps s (t.noteTest a b) := h.others
theorem Keeps.judgeOne {p l} (h : Keeps s t) : Keeps s (t.judgeOne p l) :=
  .ite (h.foldl fun _ _ h => h.bumpObj) <| .ite h <| .ite h.setLink.noteTest <| .ite h h.setLink.noteTest

theorem Keeps.execProbeJudge {leg listeners} (h : Keeps s t) : KeepsNext s (execProbeJudge leg listeners t) := by
  unfold Machine.execProbeJudge
  split
  exacts [.ite h.next (.next (.returnLeg (.dropProbe (.putBit (h.foldl fun _ _ h => h.judgeOne))))), h.next]

theorem Keeps.execProbeAbort {leg} (h : Keeps s t) : KeepsNext s (execProbeAbort leg t) := h.abortProbe.next
theorem Keeps.execColocGroupApply {conf buses tag} (h : Keeps s t) : KeepsNext s (execColocGroupApply conf buses tag t) :=
  .next (.ite (h.foldl fun _ _ h => h.setObj) (.commitGroup (h.foldl fun _ _ h => h.setObj)))

/-! ### Machine/TimeBase -/

theorem Keeps.refuseStep {requested cmd} (h : Keeps s t) : Keeps s (t.refuseStep requested cmd) := h.putBit.log
theorem Keeps.applyStep {ns frac} (h : Keeps s t) : Keeps s (t.applyStep ns frac) :=
  h.others.put.log.foldl fun _ _ h => h.gatesAfterStep
theorem Keeps.stepAbsolute (h : Keeps s t) : Keeps s t.stepAbsolute := .ite h.refuseStep h.applyStep
theorem Keeps.stepOffset (h : Keeps s t) : Keeps s t.stepOffset := .ite h.refuseStep h.applyStep
theorem Keeps.execStepAbsolute {who} (h : Keeps s t) : KeepsNext s (execStepAbsolute who t) :=
  h.access fun _ h => h.stepAbsolute.next
theorem Keeps.execStepOffset {who} (h : Keeps s t) : KeepsNext s (execStepOffset who t) := h.access fun _ h => h.stepOffset.next
theorem Keeps.writeSlew {v} (h : Keeps s t) : Keeps s (t.writeSlew v) := .ite h.put.putBit <| .ite h.put.putBit h.put
theorem Keeps.execTimSlewWrite {who value} (h : Keeps s t) : KeepsNext s (execTimSlewWrite who value t) :=
  h.access fun _ h => h.writeSlew.next
theorem Keeps.showTime (h : Keeps s t) : Keeps s t.showTime := h.put.put.put
theorem Keeps.execTimNsRead {who} (h : Keeps s t) : KeepsNext s (execTimNsRead who t) :=
  h.accessRead fun _ h => h.showTime.emit.next
theorem Keeps.execPpsEdge (h : Keeps s t) : KeepsNext s (execPpsEdge t) := .ite h.putBit.next h.putBit.put.others.putBit.next
theorem Keeps.execPpsOutRise (h : Keeps s t) : KeepsNext s (execPpsOutRise t) :=
  .ite h.others.next <| .ite h.others.emit.next h.next

theorem Keeps.execPpsOutFall (h : Keeps s t) : KeepsNext s (execPpsOutFall t) := by
  unfold Machine.execPpsOutFall
  split
  exacts [h.next, .ite h.others.emit.next h.next]

theorem Keeps.setTxts {n l} (h : Keeps s t) : Keeps s (t.setTxts n l) := by
  unfold State.setTxts
  extract_lets y s₁
  have hs₁ : Keeps s s₁ := h.others
  split
  exacts [h.others.setReg, h.others.put.put.put.put.putBit]

theorem Keeps.latchTxts {n} (h : Keeps s t) : Keeps s (t.latchTxts n) := by
  unfold State.latchTxts
  split
  exacts [h, h.put.put]

theorem Keeps.execPtpEventTx {port oneStep frame msgType domain seqId} (h : Keeps s t) :
    KeepsNext s (execPtpEventTx port oneStep frame msgType domain seqId t) := by
  unfold Machine.execPtpEventTx
  split
  exacts [h.next, .ite h.next <| .ite h.sendFrame.next <| .ite h.sendFrame.bump.next h.sendFrame.setTxts.next]

theorem Keeps.execTxtsPop {who port} (h : Keeps s t) : KeepsNext s (execTxtsPop who port t) :=
  h.accessRead fun _ h => h.setTxts.emit.next

/-! ### Machine/RegisterWrite -/

theorem Keeps.storeField {f a v} (h : Keeps s t) : Keeps s (t.storeField f a v) := .ite h.putVoted h.put

theorem Keeps.refuseWrite {f a w} (h : Keeps s t) : Keeps s (t.refuseWrite f a w) := by
  unfold State.refuseWrite
  exact .log (.ite (.putBit (by split; exacts [h.putBit, h])) (by split; exacts [h.putBit, h]))

theorem Keeps.storeFields {was a w fs} (h : Keeps s t) : Keeps s (t.storeFields was a w fs).1 := by
  induction fs generalizing t with
  | nil => exact h
  | cons f fs ih =>
    unfold State.storeFields
    split
    exacts [ih h.storeField, ih h, ih h]

theorem Keeps.typedWriteOf {a w v} (h : Keeps s t) : Keeps s (t.typedWriteOf a w v) := by
  unfold State.typedWriteOf
  extract_lets r
  have hr : Keeps s r.1 := h.storeFields
  split
  exacts [hr.refuseWrite, hr]

theorem Keeps.typedWrite {a w} (h : Keeps s t) : Keeps s (t.typedWrite a w) := h.typedWriteOf

theorem Keeps.resultState {r} (h : Keeps s t) (hr : KeepsNext s r) : Keeps s (resultState t r) := by
  cases r with
  | next u => exact hr u rfl
  | fault => exact h
  | refused => exact h

theorem Keeps.fctOp {who op} (h : Keeps s t) : Keeps s (t.fctOp who op) := .ite h.fctIssue (h.fctCommand fun _ h => h)

theorem Keeps.kslOp {who op} (h : Keeps s t) : Keeps s (t.kslOp who op) :=
  h.resultState <| .ite h.execWrite <| .ite h.execErase <| .ite h.execZeroize <| .ite h.execZeroizeAll <| .ite h.execRetireOld <|
    .ite h.execKslStatus <| .ite h.execCtxInit <| .ite h.execCtxClear (h.kslCommand fun _ h => h).next

theorem Keeps.pkaOp {who op} (h : Keeps s t) : Keeps s (t.pkaOp who op) := .ite h (h.pkaCommand fun _ h => h)

theorem Keeps.writeQueueReg {n j o a w} (h : Keeps s t) : Keeps s (t.writeQueueReg n j o a w) := by
  unfold State.writeQueueReg
  refine .ite (.ite h.writeTail h) ?_
  refine .ite (.ite h.writeHead h) ?_
  refine .ite (.ite h <| .ite h.setReg.pioCommit h.setReg) ?_
  refine .ite ?_ h.typedWrite
  extract_lets _ was _ _ _ _ s₁ _ s₂ s₃ s₄
  have hwas : Keeps s was := h
  have hs₁ : Keeps s s₁ := h.typedWriteOf
  have hs₂ : Keeps s s₂ := .ite hs₁ hs₁.putBit.putBit
  have hs₃ : Keeps s s₃ := .ite hs₂.putBit.log hs₂
  have hs₄ : Keeps s s₄ := hs₃.settleOrder
  exact .ite hs₄.putBit <| .ite hs₄.disableHostQueue hs₄

theorem Keeps.writePage {n o a w} (h : Keeps s t) : Keeps s (t.writePage n o a w) :=
  .ite (.ite (.ite h.setFn h.unmaskVector) h.setReg) <| .ite h.writeQueueReg <| .ite (.ite h.putBit.putBit h) h.typedWrite

theorem Keeps.writeMbxBlock {who a w} (h : Keeps s t) : Keeps s (t.writeMbxBlock who a w) := by
  unfold State.writeMbxBlock
  extract_lets _ c
  refine .ite ?_ ?_
  · split
    · exact .ite (h.resultState h.execMbxDataWrite) <| .ite (.ite (h.resultState h.execSend) h) <| .ite h.typedWrite h
    · exact .ite h h.typedWrite
    · exact h
  · exact .ite (by split; exacts [h.writeDblSet, h.foldl fun _ _ h => h.ringHost]) <| .ite h.writeDblStat <| .ite h.typedWrite h

theorem Keeps.writeBpm {a w} (h : Keeps s t) : Keeps s (t.writeBpm a w) := by
  unfold State.writeBpm
  refine .ite ?_ ?_
  · exact .ite (.putBit (.ite h h.resetPools)) <| .ite (.bpmDisable (.ite h h.resetPools)) <| .ite h h.resetPools
  · refine .ite ?_ ?_
    · exact .ite h.writeThreshold <| .ite h.writeThreshold <| .ite h.writeThreshold <| .ite h.writeThreshold <|
        .ite h.writeMinfree h.typedWrite
    · refine .ite ?_ h.typedWrite
      exact .ite (.ite (.flushQueue (.ite h.dropRest h)) <| .ite h.dropRest h) <|
        .ite h.typedWrite.disableHostQueue h.typedWrite.setQueue.settleOrder

theorem Keeps.writeRly {who a w} (h : Keeps s t) : Keeps s (t.writeRly who a w) := by
  unfold State.writeRly
  refine .ite (.ite (.ite h h.putBit.renewFec) <| .ite h.disableRelay h) ?_
  refine .ite ?_ ?_
  · exact .ite h.fillShapers.typedWrite h.fillShapers.typedWrite.renewFec.renewGates
  · exact .ite (h.resultState h.execHashSeedWrite) <| .ite (.ite h.unclaim h) <|
      .ite h.fctOp
      (by split; exacts [.ite h.typedWrite.enablePort.wake.wake <| .ite h.typedWrite.disablePort h.typedWrite, h.typedWrite])

theorem Keeps.writeEgs {a w} (h : Keeps s t) : Keeps s (t.writeEgs a w) :=
  .ite (.ite (.indReadOp (.ite h.indWriteOp h)) <| .ite h.indWriteOp h) <|
    .ite (.clearHistograms (.ite h.typedWrite.renewGates h.typedWrite)) <| .ite h.typedWrite.renewGates h.typedWrite

theorem Keeps.writeTgc {a w} (h : Keeps s t) : Keeps s (t.writeTgc a w) := by
  unfold State.writeTgc
  split
  · exact .ite (.activate (.ite h.typedWrite.gateOff <| .ite h.typedWrite.showGates h.typedWrite)) <|
      .ite h.typedWrite.gateOff <| .ite h.typedWrite.showGates h.typedWrite
  · exact h.typedWrite

theorem Keeps.writeTimReg {a w} (h : Keeps s t) : Keeps s (t.writeTimReg a w) :=
  .ite (.others (.ite h.typedWrite.others h.typedWrite)) <| .ite h.typedWrite.others h.typedWrite
theorem Keeps.writeTim {a w} (h : Keeps s t) : Keeps s (t.writeTim a w) :=
  .ite h.writeSlew <| .ite (.ite h.stepAbsolute <| .ite h.stepOffset h) h.writeTimReg

theorem Keeps.writeCipher {who a w} (h : Keeps s t) : Keeps s (t.writeCipher who a w) := by
  unfold State.writeCipher
  refine .ite (.ite h.unclaim h) ?_
  refine .ite h.pkaOp ?_
  refine .ite (.ite h.unclaim h) ?_
  refine .ite (h.resultState h.execKslDataWrite) ?_
  exact .ite h.kslOp (by split; exacts [h.resultState h.execKslDataWrite, h.typedWrite])

theorem Keeps.writeEngine {g i a w} (h : Keeps s t) : Keeps s (t.writeEngine g i a w) := .ite h.typedWrite.others h.typedWrite

theorem Keeps.writeMxm {who a w} (h : Keeps s t) : Keeps s (t.writeMxm who a w) :=
  .ite (.ite h.putBit <| .ite h.disableMix h) <| .ite (.ite h.unclaim h) <| .ite (.ite h h.setCommand) <|
    .ite h.swapCommand h.typedWrite

theorem Keeps.writeSdg {a w} (h : Keeps s t) : Keeps s (t.writeSdg a w) := by
  unfold State.writeSdg
  refine .ite (.ite h.putBit <| .ite h.putBit.stopSdg h) ?_
  split
  exacts [h.configDetector, .ite (.ite h.armBeacon <| .ite h.typedWrite.stopBeacon h.typedWrite) h.typedWrite]

theorem Keeps.writeDsc {who k o a w} (h : Keeps s t) : Keeps s (t.writeDsc who k o a w) := by
  unfold State.writeDsc
  refine .ite h.put ?_
  refine .ite (h.resultState h.execDscDoorbell) ?_
  refine .ite (h.typedWrite.foldl fun _ _ h => h.settleCore) ?_
  refine .ite ?_ h.typedWrite
  extract_lets c s₁
  have hs₁ : Keeps s s₁ := .ite h (h.resultState h.execHalt)
  exact .ite (hs₁.resultState hs₁.execStep) hs₁

theorem Keeps.writeTrk {a w} (h : Keeps s t) : Keeps s (t.writeTrk a w) :=
  .ite (.ite (.ite h h.enableTrk) <|
    .ite h.disableTrk h)
    (by split; exacts [.ite h.typedWriteOf.enableTrunk <| .ite h.typedWriteOf.disableTrunk h.typedWriteOf, h.typedWrite])

theorem Keeps.writeUpd {a w} (h : Keeps s t) : Keeps s (t.writeUpd a w) := by
  unfold State.writeUpd
  refine .ite ?_ ?_
  · extract_lets s₁ s₂
    have hs₁ : Keeps s s₁ := h.typedWriteOf
    have hs₂ : Keeps s s₂ := .ite hs₁ hs₁.setShed
    exact .ite hs₂.standbyEnter hs₂.standbyExit
  · split
    exacts [h.showIpeak, h.typedWrite]

theorem Keeps.writeFus {who a w} (h : Keeps s t) : Keeps s (t.writeFus who a w) :=
  .ite h.writeFusCtrl <| .ite (.ite h.kick h) <| .ite (.ite h.rcvCommand h) <| .ite h.rcvWrite h.typedWrite

theorem Keeps.writeReg {who a w} (h : Keeps s t) : Keeps s (t.writeReg who a w) :=
  .ite (.ite (.ite h.putBit <| .ite h.disableHif h) h.typedWrite) <| .ite h.writePage <| .ite h.writeMbxBlock <|
    .ite h.writeRly <| .ite h.writeBpm <| .ite h.writeEgs <| .ite h.writeTgc <| .ite h.writeTim <| .ite h.writeCipher <|
    .ite h.writeEngine <| .ite h.writeEngine <| .ite h.writeEngine <| .ite h.writeEngine <| .ite h.writeMxm <| .ite h.writeSdg <|
    .ite h.writeDsc <| .ite h.put <| .ite h.writeUpd <| .ite h.writeTrk <| .ite h.writeFus h.typedWrite

theorem Keeps.registerWrite {who a w} (h : Keeps s t) : Keeps s (t.registerWrite who a w) :=
  .ite h.lostWrite <| .ite h.accessWakes.writeReg h
theorem Keeps.hostFirst {a} (h : Keeps s t) : Keeps s (t.hostFirst a) :=
  h.others.foldl fun _ _ h => by split; exacts [h.registerWrite, h]

theorem Keeps.execRegisterWrite {who addr value} (h : Keeps s t) : KeepsNext s (execRegisterWrite who addr value t) :=
  .ite h.others.next <| .ite (by split; exacts [h.badAccess.next, h.next]) <|
    .ite h.registerWrite.next h.hostFirst.registerWrite.next

/-! ### Machine/Kernels -/

theorem Keeps.installOn {image c} (h : Keeps s t) : Keeps s (t.installOn image c) := h.setCore.setLocalBytes.put
theorem Keeps.installKernel {image cores} (h : Keeps s t) : Keeps s (t.installKernel image cores).1 :=
  .ite_fst h (.others (.setOctets (.setObj (h.foldl fun _ _ h => h.installOn))))
theorem Keeps.execKernelInstall {image cores} (h : Keeps s t) : KeepsNext s (execKernelInstall image cores t) :=
  h.installKernel.emit.next

/-! ### Machine/Module -/

theorem Keeps.emitEntry {who i e} (h : Keeps s t) : Keeps s (t.emitEntry who i e) := h.emitAll

theorem Keeps.execSquallEntryRead {who index check} (h : Keeps s t) : KeepsNext s (execSquallEntryRead who index check t) :=
  .ite h.next <| .ite h.lostRead.next <|
    .ite h.emitEntry.next (by split; exacts [h.emitEntry.next, h.emitEntry.retried.next, h.emitEntry.putBit.next])

theorem Keeps.execRefclkSample {present} (h : Keeps s t) : KeepsNext s (execRefclkSample present t) := h.putBit.next
theorem Keeps.execRefclkLost (h : Keeps s t) : KeepsNext s (execRefclkLost t) := .ite h.flrFrom.put.put.putBit.next h.next
theorem Keeps.setPads {p} (h : Keeps s t) : Keeps s (t.setPads p) := h.others
theorem Keeps.dropCage {n} (h : Keeps s t) : Keeps s (t.dropCage n) := .ite h.putBit.putBit h
theorem Keeps.execCagePresenceChange {cage level} (h : Keeps s t) : KeepsNext s (execCagePresenceChange cage level t) :=
  .ite h.next (.next (.ite h.putBit.putBit.setPads.dropCage h.putBit.putBit.setPads))

theorem Keeps.execCageIdentify {cage accepted} (h : Keeps s t) : KeepsNext s (execCageIdentify cage accepted t) := by
  unfold Machine.execCageIdentify
  extract_lets _ p
  split
  exacts [.ite h.putBit.setPads.next h.next, .ite h.next <| .ite h.putBit.next h.dropCage.putBit.next, h.next]

theorem Keeps.execCageOvercurrent {cage} (h : Keeps s t) : KeepsNext s (execCageOvercurrent cage t) :=
  .ite h.putBit.putBit.next h.next
theorem Keeps.execCageIntNFall {cage} (h : Keeps s t) : KeepsNext s (execCageIntNFall cage t) := h.putBit.putBit.next
theorem Keeps.inputLevel {input changed level} (h : Keeps s t) : Keeps s (t.inputLevel input changed level) :=
  .ite h h.putBit.putBit
theorem Keeps.execMgmtLosChange {los txfault} (h : Keeps s t) : KeepsNext s (execMgmtLosChange los txfault t) :=
  h.inputLevel.inputLevel.next
theorem Keeps.execMgmtModabsChange {level accepted} (h : Keeps s t) : KeepsNext s (execMgmtModabsChange level accepted t) :=
  h.inputLevel.setPads.manageSfp.next

theorem Keeps.execJtagInstruction {x0} (h : Keeps s t) : KeepsNext s (execJtagInstruction x0 t) := by
  unfold Machine.execJtagInstruction
  split
  exacts [h.setPads.next, .ite h.setPads.next (.refused _ _), h.setPads.next]

/-! ### Machine/Sessions -/

theorem Keeps.dropSession {n} (h : Keeps s t) : Keeps s (t.dropSession n) := h.setSession.endStaging.others
theorem Keeps.closeSession {n} (h : Keeps s t) : Keeps s (t.closeSession n) := h.gulSend.spent.dropSession
theorem Keeps.closeWhere {f} (h : Keeps s t) : Keeps s (t.closeWhere f) := h.foldl fun _ _ h => h.closeSession

/-! ### Machine/DictWrite -/

theorem Keeps.writeMirror {f v} (h : Keeps s t) : Keeps s (t.writeMirror f v).1 := h.accessWakes.writeReg
theorem Keeps.changeIf {c} (h : Keeps s t) (k : Keeps s u) : Keeps s (t.changeIf c u).1 := .ite_fst k h
theorem Keeps.egsChange {c} (h : Keeps s t) (k : Keeps s u) : Keeps s (t.egsChange c u).1 := .ite_fst k h.egsIgnored

theorem Keeps.putAdmin {n e v k} (h : Keeps s t) : Keeps s (t.putAdmin n e v k) := by
  induction k generalizing t e v with
  | zero => exact h
  | succ k ih => exact ih h.put.put

theorem Keeps.writeAdminList {n v} (h : Keeps s t) : Keeps s (t.writeAdminList n v).1 := h.changeIf h.put.putAdmin
theorem Keeps.writePolicer {leg v} (h : Keeps s t) : Keeps s (t.writePolicer leg v).1 := h.egsChange h.setPolicer
theorem Keeps.writeShaper {d rate en policy burst} (h : Keeps s t) : Keeps s (t.writeShaper d rate en policy burst).1 :=
  h.egsChange h.setShaper
theorem Keeps.writeTrunkShaper {t' v} (h : Keeps s t) : Keeps s (t.writeTrunkShaper t' v).1 := h.writeShaper
theorem Keeps.writeFir {v} (h : Keeps s t) : Keeps s (t.writeFir v).1 := .ite_fst (h.foldl fun _ _ h => h.put) h
theorem Keeps.writeKernel {v} (h : Keeps s t) : Keeps s (t.writeKernel v).1 := h.installKernel

theorem Keeps.writeNonce {n v} (h : Keeps s t) : Keeps s (t.writeNonce n v).1 := by
  unfold State.writeNonce
  split
  exacts [h, h.changeIf h.setSession.spent]

theorem Keeps.writeLocalAddr {leg v} (h : Keeps s t) : Keeps s (t.writeLocalAddr leg v) :=
  .ite h.setOctets.setLegState h.setOctets

theorem Keeps.writeText {n g r i v} (h : Keeps s t) : Keeps s (t.writeText n g r i v).1 :=
  .ite_fst h.writeNonce <| .ite_fst h.stageWrite <| .ite_fst h.stageHbm <| .ite_fst h.writeAdminList <|
    .ite_fst h.writeLocalAddr <| .ite_fst h.writePolicer <| .ite_fst h.writeCard <| .ite_fst h.writeKernel <|
    .ite_fst h.writeFir <| .ite_fst h.writeSlot <| .ite_fst h.setBytes <| .ite_fst h.writeTrunkShaper <|
    .ite_fst h.ownerAuth h.setOctets

theorem Keeps.askConf {t' conf object o v} (h : Keeps s t) : Keeps s (t.askConf t' conf object o v).1 := h.confOp
theorem Keeps.askLeg {k leg o v} (h : Keeps s t) (hu : Keeps s u) : Keeps s (t.askLeg k leg o v u).1 := .ite_fst hu h.askConf
theorem Keeps.createConf {g conf} (h : Keeps s t) : Keeps s (t.createConf g conf).1 :=
  h.changeIf h.setObj.setObj.setObj.setObj.setObj.setObj
theorem Keeps.attach {t' leg conf} (h : Keeps s t) : Keeps s (t.attach t' leg conf).1 := .ite_fst h.askConf h

theorem Keeps.releaseLeg {t' leg} (h : Keeps s t) : Keeps s (t.releaseLeg t' leg).1 := by
  unfold State.releaseLeg
  extract_lets r
  have hr : Keeps s r.1 := h.askLeg h
  split
  exacts [.ite_fst hr.freeLeg hr, hr]

theorem Keeps.writeGain {leg v} (h : Keeps s t) : Keeps s (t.writeGain leg v).1 := by
  unfold State.writeGain
  split
  · next e => exact (h.applyLegGain e).setObj
  · exact h

theorem Keeps.writeEncode {r e v d} (h : Keeps s t) : Keeps s (t.writeEncode r e v d).1 := h.changeIf h.setLe.setObj
theorem Keeps.writeAdminBase {n v} (h : Keeps s t) : Keeps s (t.writeAdminBase n v) := h.put.put.put
theorem Keeps.writeStageOffset {n v} (h : Keeps s t) : Keeps s (t.writeStageOffset n v).1 := h.changeIf h.setBoot
theorem Keeps.writeStreamTest {stream v} (h : Keeps s t) : Keeps s (t.writeStreamTest stream v).1 := h.changeIf h.setLe
theorem Keeps.writeBar2 {v} (h : Keeps s t) : Keeps s (t.writeBar2 v).1 := h.changeIf h.putPair
theorem Keeps.writeKeyOp {t' o n} (h : Keeps s t) : Keeps s (t.writeKeyOp t' o n).1 :=
  .ite_fst h.eraseSlot <| .ite_fst h.zeroizeSlot h.retireOld
theorem Keeps.writeLegShaper {o leg v} (h : Keeps s t) : Keeps s (t.writeLegShaper o leg v).1 :=
  .ite_fst h.writeShaper <| .ite_fst h.writeShaper <| .ite_fst h.writeShaper h.writeShaper

theorem Keeps.writeOwn {t' g o i v} (h : Keeps s t) : Keeps s (t.writeOwn t' g o i v).1 :=
  .ite_fst h.stageBegin <| .ite_fst h.writeStageOffset <| .ite_fst h.stageEnd <| .ite_fst h.fwActivate <|
    .ite_fst (.ite_fst h h.requestReset) <| .ite_fst h.fwCommit <| .ite_fst h.writeAdminBase <| .ite_fst h.activate <|
    .ite_fst h.createConf <| .ite_fst h.askConf <| .ite_fst h.attach <| .ite_fst (h.askLeg h.leaveLeg) <|
    .ite_fst h.releaseLeg <| .ite_fst h.writeLegShaper <| .ite_fst h.writeStreamTest <| .ite_fst h.setObj.emit <|
    .ite_fst h.writeMirror <| .ite_fst h.requestProbe <| .ite_fst h.zeroizeAll <| .ite_fst h.writeKeyOp <|
    .ite_fst (.ite_fst h h.writeMirror) <| .ite_fst h.promote <| .ite_fst h.writeBar2 <|
    .ite_fst (by split; exacts [h.setSession, h]) h

theorem Keeps.writeHeld {t' r i d v} (h : Keeps s t) : Keeps s (t.writeHeld t' r i d v).1 :=
  .ite_fst h.setObj.settleTxdis <| .ite_fst h.askConf <| .ite_fst h.writeEncode <| .ite_fst (h.askLeg h.setObj.putCanvas) <|
    .ite_fst h.writeGain <| .ite_fst (h.askLeg h.setObj) <| .ite_fst (h.changeIf h.setObj) <|
    .ite_fst (h.changeIf h.setObj) h.setObj

theorem Keeps.writeOnce {t' confirm o v} (h : Keeps s t) : Keeps s (t.writeOnce t' confirm o v).1 :=
  .ite_fst h <| .ite_fst h h.onceWrite

theorem Keeps.applyWrite {t' g confirm r i v} (h : Keeps s t) : Keeps s (t.applyWrite t' g confirm r i v).1 := by
  unfold State.applyWrite
  refine .ite_fst h ?_
  refine .ite_fst h ?_
  refine .ite_fst h ?_
  refine .ite_fst h ?_
  refine .ite_fst h.writeOnce ?_
  exact .ite_fst h.writeText (by split; exacts [.ite_fst h.put h.writeMirror, h.writeHeld, h.writeOwn])

theorem Keeps.afterWrite {n o i v} (h : Keeps s t) : Keeps s (t.afterWrite n o i v) :=
  .ite h.closeWhere <| .ite h.closeWhere <| .ite h.closeWhere <| .ite h.requestReset h

/-! ### Machine/Gulter -/

theorem Keeps.badFrame (h : Keeps s t) : Keeps s t.badFrame := h.bumpObj
theorem Keeps.doRead {n g seq addrs} (h : Keeps s t) : Keeps s (t.doRead n g seq addrs) := h.gulReply
theorem Keeps.noteInMailbox {n g b x3 status body} (h : Keeps s t) : Keeps s (t.noteInMailbox n g b x3 status body) :=
  .ite h.setNoteQueue h.setSession.setNoteQueue.flushGul
theorem Keeps.noteOnPort {n g b x3 status body} (h : Keeps s t) : Keeps s (t.noteOnPort n g b x3 status body) :=
  .ite h.setSession h.setSession.gulSend

theorem Keeps.notify {b x1 status body} (h : Keeps s t) : Keeps s (t.notify b x1 status body) := by
  unfold State.notify
  split
  exacts [h, .ite h.noteOnPort h.noteInMailbox]

theorem Keeps.dropSub {id} (h : Keeps s t) : Keeps s (t.dropSub id) := h.others
theorem Keeps.setWatch {b} (h : Keeps s t) : Keeps s (t.setWatch b) := h.others
theorem Keeps.dropHidden {b} (h : Keeps s t) : Keeps s (t.dropHidden b) := h.notify.dropSub
theorem Keeps.sweepSubs (h : Keeps s t) : Keeps s t.sweepSubs := h.foldl fun _ _ h => h.dropHidden

theorem Keeps.sampleOne {g r b x3} (h : Keeps s t) : Keeps s (t.sampleOne g r b x3) := by
  unfold State.sampleOne
  extract_lets v body
  split
  exacts [h, .ite h h.notify.setWatch]

theorem Keeps.sampleWatch {b} (h : Keeps s t) : Keeps s (t.sampleWatch b) := by
  unfold State.sampleWatch
  split
  exacts [.ite h.dropHidden (h.setWatch.foldl fun _ _ h => h.sampleOne), h.dropSub]

theorem Keeps.doSubscribe {n g seq a periodic ms} (h : Keeps s t) : Keeps s (t.doSubscribe n g seq a periodic ms) := by
  unfold State.doSubscribe
  extract_lets _ _ _ r _ b y y₁
  have hy : Keeps s y := h.spent
  clear_value r
  split
  exacts [h.gulReply, .ite h.gulReply <| .ite h.gulReply <| .ite h.gulReply <| .ite h.gulReply hy.others.gulReply]

theorem Keeps.doUnsubscribe {n g seq id} (h : Keeps s t) : Keeps s (t.doUnsubscribe n g seq id) :=
  .ite h.dropSub.setSession.setNoteQueue.gulReply h.gulReply

theorem Keeps.writeEntry_ {t' g confirm e} (h : Keeps s t) : Keeps s (t.writeEntry_ t' g confirm e).1 := by
  unfold State.writeEntry_
  split
  exacts [h, h.applyWrite]

theorem Keeps.writeEntries {n seq g confirm k es} (h : Keeps s t) : Keeps s (t.writeEntries n seq g confirm k es).1 := by
  induction es generalizing t g k with
  | nil => exact h
  | cons e es ih =>
    refine ih ?_
    split
    exacts [h.writeEntry_.gulAnswer, h.writeEntry_]

theorem Keeps.doWrite {n g seq confirm es} (h : Keeps s t) : Keeps s (t.doWrite n g seq confirm es) :=
  .sweepSubs (h.others.writeEntries.foldl fun _ _ h => h.afterWrite)

theorem Keeps.setBlock {n b} (h : Keeps s t) : Keeps s (t.setBlock n b) := by
  unfold State.setBlock
  split
  exacts [h.setSession, h]

theorem Keeps.doBlockBegin {n g seq a read total} (h : Keeps s t) : Keeps s (t.doBlockBegin n g seq a read total) :=
  .ite h.gulReply
    (by split; exacts [h.gulReply, .ite h.gulReply <| .ite h.setBlock.gulReply <| .ite h.gulReply h.setBlock.gulReply])

theorem Keeps.doBlockSeg {n g seq x3} (h : Keeps s t) : Keeps s (t.doBlockSeg n g seq x3) := by
  unfold State.doBlockSeg
  extract_lets
  split
  · exact h.gulReply
  · extract_lets s₁
    have hs₁ : Keeps s s₁ := h.setBlock
    split
    exacts [.ite hs₁.gulReply hs₁.setBlock.gulReply, .ite hs₁.gulReply hs₁.gulReply]

theorem Keeps.deliverBlock {fn n b} (h : Keeps s t) : Keeps s (t.deliverBlock fn n b).1 := by
  unfold State.deliverBlock
  split
  · next e => exact (Keeps.of_eq e h.allocCell).setBytes.deliverData
  · next e => exact (Keeps.of_eq e h.allocCell)
  · next e => exact (Keeps.of_eq e h.allocCell)

theorem Keeps.endBlockWrite {n g seq crc b} (h : Keeps s t) : Keeps s (t.endBlockWrite n g seq crc b).1 :=
  .ite_fst h (by split; exacts [h, h.applyWrite])

theorem Keeps.doBlockEnd {n g seq crc} (h : Keeps s t) : Keeps s (t.doBlockEnd n g seq crc) := by
  unfold State.doBlockEnd
  extract_lets _ s₁
  have hs₁ : Keeps s s₁ := h.setBlock
  split
  · exact h.gulReply
  · refine .ite (.ite hs₁.gulReply hs₁.deliverBlock.gulReply) ?_
    exact .ite hs₁.endBlockWrite.gulReply.afterWrite.sweepSubs hs₁.endBlockWrite.gulReply

theorem Keeps.doRequest {n g seq q} (h : Keeps s t) : Keeps s (t.doRequest n g seq q) := by
  unfold State.doRequest
  split
  · exact h.doRead
  · exact h.doWrite
  · exact h.doBlockBegin
  · exact h.doBlockSeg
  · exact h.doBlockEnd
  · exact h.doSubscribe
  · exact h.doUnsubscribe
  · exact h.gulReply
  · exact h.gulReply.dropSession

theorem Keeps.takeRequest {n seq q} (h : Keeps s t) : Keeps s (t.takeRequest n seq q) := by
  unfold State.takeRequest
  split
  exacts [h, h.setSession.doRequest]

theorem Keeps.drain {n fuel} (h : Keeps s t) : Keeps s (t.drain n fuel) := by
  induction fuel generalizing t with
  | zero => exact h
  | succ fuel ih =>
    unfold State.drain
    split
    · exact h
    · split
      exacts [h, ih h.takeRequest]

theorem Keeps.sequence {n g seq q} (h : Keeps s t) : Keeps s (t.sequence n g seq q) :=
  .ite (by split; exacts [h.gulSend, .ite h h.gulSend]) <| .ite h.setSession.drain h.gulSend

/-- The state with which a message goes on keeps what `s` has. -/
def KeepsArrived (s : State) : Arrived → Prop
  | .done u => Keeps s u
  | .session u _ _ => Keeps s u

theorem KeepsArrived.ite {c : Prop} [Decidable c] {a b : Arrived} (h : KeepsArrived s a) (k : KeepsArrived s b) :
    KeepsArrived s (if c then a else b) := by
  split
  · exact h
  · exact k

theorem Keeps.arriveOnPort {m} (h : Keeps s t) : KeepsArrived s (t.arriveOnPort m) := by
  refine .ite h (.ite h.badFrame ?_)
  split
  · exact h
  · exact .ite h (.ite h (.ite h.badFrame h.setSession))

theorem Keeps.arriveInMailbox {fn m ty} (h : Keeps s t) : KeepsArrived s (t.arriveInMailbox fn m ty) := by
  refine .ite h ?_
  split
  · exact h.gulSendOn
  · exact .ite h.gulSendOn h.setSession

theorem Keeps.arrive {m ty} (h : Keeps s t) : KeepsArrived s (t.arrive m ty) := by
  refine .ite h ?_
  split
  · exact h.arriveInMailbox
  · exact h.arriveOnPort

theorem Keeps.arrive_done {m ty} (h : Keeps s t) (e : t.arrive m ty = .done u) : Keeps s u := by
  have k := h.arrive (m := m) (ty := ty)
  rw [e] at k; exact k

theorem Keeps.arrive_session {m ty n g} (h : Keeps s t) (e : t.arrive m ty = .session u n g) : Keeps s u := by
  have k := h.arrive (m := m) (ty := ty)
  rw [e] at k; exact k

theorem Keeps.request {m parses q} (h : Keeps s t) : Keeps s (t.request m parses q) := by
  unfold State.request
  split
  · next e => exact h.arrive_done e
  · next e => exact .ite (h.arrive_session e).gulSend (h.arrive_session e).sequence

theorem Keeps.gulWrite {h' es} (h : Keeps s t) : Keeps s (t.gulWrite h' es) := h.request
theorem Keeps.writeOneObject {h' o x2 v} (h : Keeps s t) : Keeps s (t.writeOneObject h' o x2 v) := h.gulWrite
theorem Keeps.execRead {head addrs} (h : Keeps s t) : KeepsNext s (execRead head addrs t) := h.request.next
theorem Keeps.execGulterWrite {head entries} (h : Keeps s t) : KeepsNext s (execGulterWrite head entries t) := h.gulWrite.next
theorem Keeps.execBlockBegin {head addr dir total} (h : Keeps s t) : KeepsNext s (execBlockBegin head addr dir total t) :=
  h.request.next
theorem Keeps.execBlockSeg {head seg} (h : Keeps s t) : KeepsNext s (execBlockSeg head seg t) := h.request.next
theorem Keeps.execBlockEnd {head crc} (h : Keeps s t) : KeepsNext s (execBlockEnd head crc t) := h.request.next
theorem Keeps.execSubscribe {head addr mode periodMs} (h : Keeps s t) : KeepsNext s (execSubscribe head addr mode periodMs t) :=
  h.request.next
theorem Keeps.execUnsubscribe {head id} (h : Keeps s t) : KeepsNext s (execUnsubscribe head id t) := h.request.next
theorem Keeps.execKeepalive {head} (h : Keeps s t) : KeepsNext s (execKeepalive head t) := h.request.next
theorem Keeps.execClose {head} (h : Keeps s t) : KeepsNext s (execClose head t) := h.request.next

theorem Keeps.acknowledge {n g seq} (h : Keeps s t) : Keeps s (t.acknowledge n g seq) := by
  unfold State.acknowledge
  split
  exacts [h, .ite h.setSession h.setSession.gulSend]

theorem Keeps.execNotifyAck {m seq} (h : Keeps s t) : KeepsNext s (execNotifyAck m seq t) := by
  unfold Machine.execNotifyAck
  split
  · next e => exact (h.arrive_done e).next
  · next u _ _ e =>
      have hu : Keeps s u := h.arrive_session e
      exact .ite hu.gulSend.next (Keeps.ite hu.acknowledge hu).next

theorem Keeps.releaseGap {n fuel} (h : Keeps s t) : Keeps s (t.releaseGap n fuel) := by
  induction fuel generalizing t with
  | zero => exact h
  | succ fuel ih =>
    unfold State.releaseGap
    split
    · exact h
    · refine .ite h ?_
      split
      exacts [ih h.takeRequest, ih h.setSession.gulReply]

theorem Keeps.execSeqGapTimeout {session} (h : Keeps s t) : KeepsNext s (execSeqGapTimeout session t) := h.releaseGap.drain.next
theorem Keeps.openMailbox {fn} (h : Keeps s t) : Keeps s (t.openMailbox fn) :=
  .gulReply (.setSession (.spent (h.foldl fun _ _ h => h.dropSession.setReplyQueue)))
theorem Keeps.openPort {body} (h : Keeps s t) : Keeps s (t.openPort body) :=
  .ite h.gulSendOn h.spent.spent.spent.spent.setSession.gulReply

theorem Keeps.execGulterOpen {head body} (h : Keeps s t) : KeepsNext s (execGulterOpen head body t) := by
  refine .ite h.next ?_
  split
  · exact .ite h.next <| .ite h.gulSendOn.next h.openMailbox.next
  · exact .ite h.next <| .ite h.badFrame.next <| .ite h.gulSendOn.next h.openPort.next

theorem Keeps.refuseAuth {n seq} (h : Keeps s t) : Keeps s (t.refuseAuth n seq) := h.gulSend.bumpObj.dropSession

theorem Keeps.authenticate {n g seq body} (h : Keeps s t) : Keeps s (t.authenticate n g seq body) := by
  unfold State.authenticate
  split
  exacts [h.setSession.gulReply, h.refuseAuth]

theorem Keeps.execAuth {m body} (h : Keeps s t) : KeepsNext s (execAuth m body t) := by
  unfold Machine.execAuth
  split
  · next e => exact (h.arrive_done e).next
  · next u _ _ e =>
      have hu : Keeps s u := h.arrive_session e
      extract_lets
      split
      exacts [hu.gulSend.next, .ite hu.gulSend.next hu.authenticate.next]

theorem Keeps.execAuthTimeout {session} (h : Keeps s t) : KeepsNext s (execAuthTimeout session t) := by
  unfold Machine.execAuthTimeout
  extract_lets
  split
  exacts [h.next, .next (.ite h.refuseAuth h)]

theorem Keeps.execSessionIdleTimeout {session} (h : Keeps s t) : KeepsNext s (execSessionIdleTimeout session t) := by
  unfold Machine.execSessionIdleTimeout
  extract_lets
  split
  exacts [h.next, .next (.ite h.dropSession h)]

theorem Keeps.execBlockTimeout {session} (h : Keeps s t) : KeepsNext s (execBlockTimeout session t) := by
  unfold Machine.execBlockTimeout
  extract_lets
  split
  · exact h.next
  · split
    exacts [h.next, .next (.ite h.setBlock h)]

theorem Keeps.execSubscriptionSample {sub} (h : Keeps s t) : KeepsNext s (execSubscriptionSample sub t) := by
  unfold Machine.execSubscriptionSample
  split
  exacts [h.next, .next (.ite h.sampleWatch h)]

theorem Keeps.resendNote {n w} (h : Keeps s t) : Keeps s (t.resendNote n w) := by
  unfold State.resendNote
  split
  exacts [h, h.setSession.gulSend]

theorem Keeps.execNotifyResend {session} (h : Keeps s t) : KeepsNext s (execNotifyResend session t) := by
  unfold Machine.execNotifyResend
  extract_lets
  split
  exacts [h.next, .ite h.next <| .ite h.closeSession.next (.next (h.foldl fun _ _ h => h.resendNote))]

theorem Keeps.blockDesc {fn j d} (h : Keeps s t) : Keeps s (t.blockDesc fn j d) := by
  unfold State.blockDesc
  extract_lets _ _ bs freed
  have hfreed : Keeps s freed := h.hostRelease
  split
  · exact hfreed.sqDone
  · split
    exacts [hfreed.sqDone, .ite hfreed.sqDone hfreed.setBlock.sqDone]

theorem Keeps.execGulterBlock {fn j} (h : Keeps s t) : KeepsNext s (execGulterBlock fn j t) :=
  .next (h.consume fun _ _ h => h.blockDesc)
theorem Keeps.execSessionCloseAll {head} (h : Keeps s t) : KeepsNext s (execSessionCloseAll head t) := h.writeOneObject.next
theorem Keeps.execConfCreate {head conf} (h : Keeps s t) : KeepsNext s (execConfCreate head conf t) := h.writeOneObject.next
theorem Keeps.execConfEnd {head conf} (h : Keeps s t) : KeepsNext s (execConfEnd head conf t) := h.writeOneObject.next
theorem Keeps.execLegAttach {head leg conf} (h : Keeps s t) : KeepsNext s (execLegAttach head leg conf t) := h.writeOneObject.next
theorem Keeps.execLegDetach {head leg} (h : Keeps s t) : KeepsNext s (execLegDetach head leg t) := h.writeOneObject.next
theorem Keeps.execLegRelease {head leg} (h : Keeps s t) : KeepsNext s (execLegRelease head leg t) := h.writeOneObject.next
theorem Keeps.execDeviceReset {head} (h : Keeps s t) : KeepsNext s (execDeviceReset head t) := h.writeOneObject.next
theorem Keeps.execDeviceIdentity {head value} (h : Keeps s t) : KeepsNext s (execDeviceIdentity head value t) :=
  h.writeOneObject.next
theorem Keeps.execOwnerKeyHash {head value} (h : Keeps s t) : KeepsNext s (execOwnerKeyHash head value t) := h.writeOneObject.next
theorem Keeps.execOwnerTransferAuth {head value} (h : Keeps s t) : KeepsNext s (execOwnerTransferAuth head value t) :=
  h.writeOneObject.next
theorem Keeps.execRollbackFloor {head value} (h : Keeps s t) : KeepsNext s (execRollbackFloor head value t) :=
  h.writeOneObject.next
theorem Keeps.execTrunkCipherLock {head value} (h : Keeps s t) : KeepsNext s (execTrunkCipherLock head value t) :=
  h.writeOneObject.next
theorem Keeps.execDebugDisable {head value} (h : Keeps s t) : KeepsNext s (execDebugDisable head value t) := h.writeOneObject.next
theorem Keeps.execAttestNonce {head value} (h : Keeps s t) : KeepsNext s (execAttestNonce head value t) := h.writeOneObject.next
theorem Keeps.execFwStageBegin {head} (h : Keeps s t) : KeepsNext s (execFwStageBegin head t) := h.writeOneObject.next
theorem Keeps.execFwStageData {head value} (h : Keeps s t) : KeepsNext s (execFwStageData head value t) := h.writeOneObject.next
theorem Keeps.execFwStageHbm {head value} (h : Keeps s t) : KeepsNext s (execFwStageHbm head value t) := h.writeOneObject.next
theorem Keeps.execFwStageEnd {head} (h : Keeps s t) : KeepsNext s (execFwStageEnd head t) := h.writeOneObject.next
theorem Keeps.execFwActivate {head} (h : Keeps s t) : KeepsNext s (execFwActivate head t) := h.writeOneObject.next
theorem Keeps.execFwCommit {head} (h : Keeps s t) : KeepsNext s (execFwCommit head t) := h.writeOneObject.next

/-! ### Machine/RegisterRead -/

theorem Keeps.setDiffs {a b c} (h : Keeps s t) : Keeps s (t.setDiffs a b c) := h.others
theorem Keeps.upsetCopies {a u'} (h : Keeps s t) : Keeps s (t.upsetCopies a u') := h.setReg.setDiffs
theorem Keeps.countFix {f} (h : Keeps s t) : Keeps s (t.countFix f) := .ite h h.bump
theorem Keeps.voteField {a f} (h : Keeps s t) : Keeps s (t.voteField a f) :=
  .ite h <| .ite h.storeField.countFix.log h.storeField.log.putBit
theorem Keeps.vote {a} (h : Keeps s t) : Keeps s (t.vote a) := h.foldl fun _ _ h => h.voteField
theorem Keeps.readLatches {a} (h : Keeps s t) : Keeps s (t.readLatches a) :=
  .ite h.showTime <| .ite h.put.put (by split; exacts [.ite h.latchTxts h, h])
theorem Keeps.readCounter {who a} (h : Keeps s t) : Keeps s (t.readCounter who a) := h.others.emit
theorem Keeps.execRwvRead {who addr upset} (h : Keeps s t) : KeepsNext s (execRwvRead who addr upset t) :=
  h.upsetCopies.accessRead fun _ h => .ite h.readCounter.next h.vote.readLatches.emit.next
theorem Keeps.execRwvSweep {upsets} (h : Keeps s t) : KeepsNext s (execRwvSweep upsets t) :=
  .ite h.next (.next (.foldl (h.others.foldl fun _ _ h => h.upsetCopies) fun _ _ h => h.vote))
theorem Keeps.execCounterLoRead {who addr} (h : Keeps s t) : KeepsNext s (execCounterLoRead who addr t) :=
  h.accessRead fun _ h => .next (.ite h.readCounter h.emit)
theorem Keeps.fenceCore {c} (h : Keeps s t) : Keeps s (t.fenceCore c) := h.setCore

theorem Keeps.endUnit {g i} (h : Keeps s t) : Keeps s (t.endUnit g i) := by
  unfold State.endUnit
  extract_lets s₁
  have hs₁ : Keeps s s₁ := .ite h.setVdeJob.putBit <| .ite h.setVeeJob <| .ite h.setCmpJob.putBit <| .ite h.setTspJob h.fenceCore
  split
  exacts [hs₁.completeTask, hs₁]

theorem Keeps.fenceCrossing {i param} (h : Keeps s t) : Keeps s (t.fenceCrossing i param) := by
  unfold State.fenceCrossing
  extract_lets s₁ s₂ s₃ s₄ s₅
  have hs₁ : Keeps s s₁ := h.fence
  have hs₂ : Keeps s s₂ := hs₁.foldl fun _ _ h => h.endUnit
  have hs₃ : Keeps s s₃ := .ite (hs₂.foldl fun _ _ h => h.disablePort) <| .ite (hs₂.foldl fun _ _ h => h.abortRx) hs₂
  have hs₄ : Keeps s s₄ := .ite hs₃.loseMemory hs₃
  have hs₅ : Keeps s s₅ := hs₄.setIsland
  exact .ite hs₅.fenceCipher hs₅

theorem Keeps.failEntry {op} (h : Keeps s t) : Keeps s (t.failEntry op) := by
  unfold State.failEntry
  split
  · exact h.emit
  · exact h.emit
  · split
    exacts [h.completeTask, h]
  · exact h.emit
  · exact h.emit
  · exact h.emit

theorem Keeps.execCrossingParityError {island op again} (h : Keeps s t) : KeepsNext s (execCrossingParityError island op again t) :=
  .ite h.failEntry.next <| .ite h.failEntry.spent.fenceCrossing.next h.spent.retried.next

/-! ### Machine/TaskCommands -/

theorem Keeps.link {pred succ first} (h : Keeps s t) : Keeps s (t.link pred succ first).1 := .ite_fst h.linkTasks h
theorem Keeps.execLink {who pred succ mode} (h : Keeps s t) : KeepsNext s (execLink who pred succ mode t) :=
  .ite h.next h.link.emit.next

theorem Keeps.cancelTask {id} (h : Keeps s t) : Keeps s (t.cancelTask id).1 := by
  unfold State.cancelTask
  split
  exacts [h, .ite_fst h h.trace.completeTask]

theorem Keeps.execCancel {who task} (h : Keeps s t) : KeepsNext s (execCancel who task t) := .ite h.next h.cancelTask.emit.next

theorem Keeps.execFollow {who task} (h : Keeps s t) : KeepsNext s (execFollow who task t) := by
  unfold Machine.execFollow
  split
  exacts [h.setTask.emit.next, h.emit.next]

/-! ### Every command -/

/-- What a command leads to, where it goes on, has the queue of the state before and keeps the canonical form. -/
theorem Keeps.exec {c} (h : Keeps s t) : KeepsNext s (Machine.exec c t) := by
  unfold Machine.exec
  cases c with
  | registerWrite => exact h.execRegisterWrite
  | rwvRead => exact h.execRwvRead
  | rwvSweep => exact h.execRwvSweep
  | crossingParityError => exact h.execCrossingParityError
  | lullEntry => exact h.execLullEntry
  | lullWake => exact h.execLullWake
  | lullWakeDone => exact h.execLullWakeDone
  | clusterPrewake => exact h.execClusterPrewake
  | rxFrame => exact h.execRxFrame
  | fctSlowLookupDone => exact h.execFctSlowLookupDone
  | rxFrameEnd => exact h.execRxFrameEnd
  | ingressDecryptDone => exact h.execIngressDecryptDone
  | replicate => exact h.execReplicate
  | egressEncryptDone => exact h.execEgressEncryptDone
  | routeRetired => exact h.execRouteRetired
  | linkChange => exact h.execLinkChange
  | anComplete => exact h.execAnComplete
  | portDisable => exact h.execPortDisable
  | relayDisable => exact h.execRelayDisable
  | rlyFctClaim => exact h.execRlyFctClaim
  | rlyFctRelease => exact h.execRlyFctRelease
  | insert => exact h.execInsert
  | update => exact h.execUpdate
  | delete => exact h.execDelete
  | lookup => exact h.execLookup
  | routeCommit => exact h.execRouteCommit
  | select => exact h.execSelect
  | stateWrite => exact h.execStateWrite
  | clear => exact h.execClear
  | fctCommandDone => exact h.execFctCommandDone
  | hashSeedWrite => exact h.execHashSeedWrite
  | ageScan => exact h.execAgeScan
  | alloc => exact h.execAlloc
  | free => exact h.execFree
  | holdTimeout => exact h.execHoldTimeout
  | resetPools => exact h.execResetPools
  | bpmDisable => exact h.execBpmDisable
  | poolThresholdWrite => exact h.execPoolThresholdWrite
  | minfreeWrite => exact h.execMinfreeWrite
  | queueWrite => exact h.execQueueWrite
  | queueRead => exact h.execQueueRead
  | dropRest => exact h.execDropRest
  | flush => exact h.execFlush
  | compatStallTimeout => exact h.execCompatStallTimeout
  | enqueue => exact h.execEnqueue
  | egressPick => exact h.execEgressPick
  | indRead => exact h.execIndRead
  | indWrite => exact h.execIndWrite
  | depthSample => exact h.execDepthSample
  | histClr => exact h.execHistClr
  | activate => exact h.execActivate
  | gateTakeover => exact h.execGateTakeover
  | gateEntryAdvance => exact h.execGateEntryAdvance
  | gateDisable => exact h.execGateDisable
  | stepAbsolute => exact h.execStepAbsolute
  | stepOffset => exact h.execStepOffset
  | timSlewWrite => exact h.execTimSlewWrite
  | timNsRead => exact h.execTimNsRead
  | ppsEdge => exact h.execPpsEdge
  | ppsOutRise => exact h.execPpsOutRise
  | ppsOutFall => exact h.execPpsOutFall
  | ptpEventTx => exact h.execPtpEventTx
  | txtsPop => exact h.execTxtsPop
  | decodeStart => exact h.execDecodeStart
  | stripPublished => exact h.execStripPublished
  | decodeComplete => exact h.execDecodeComplete
  | vdeWatchdogExpiry => exact h.execVdeWatchdogExpiry
  | decodeFill => exact h.execDecodeFill
  | injWd => exact h.execInjWd
  | holdRelease => exact h.execHoldRelease
  | composePass => exact h.execComposePass
  | composeStrip => exact h.execComposeStrip
  | composeComplete => exact h.execComposeComplete
  | cmpWatchdogExpiry => exact h.execCmpWatchdogExpiry
  | composeFill => exact h.execComposeFill
  | encodeStart => exact h.execEncodeStart
  | encodeRow => exact h.execEncodeRow
  | encodeComplete => exact h.execEncodeComplete
  | veeWatchdogExpiry => exact h.execVeeWatchdogExpiry
  | packetize => exact h.execPacketize
  | pacePacket => exact h.execPacePacket
  | spliceStart => exact h.execSpliceStart
  | spliceComplete => exact h.execSpliceComplete
  | entryTileRequest => exact h.execEntryTileRequest
  | tspWatchdogExpiry => exact h.execTspWatchdogExpiry
  | jbTargetUpdate => exact h.execJbTargetUpdate
  | talkerSetUpdate => exact h.execTalkerSetUpdate
  | sourcePortWrite => exact h.execSourcePortWrite
  | sourceCfgApply => exact h.execSourceCfgApply
  | frameStart => exact h.execFrameStart
  | mixFrame => exact h.execMixFrame
  | mxmClaim => exact h.execMxmClaim
  | mxmRelease => exact h.execMxmRelease
  | load => exact h.execLoad
  | store => exact h.execStore
  | readActive => exact h.execReadActive
  | swapCommit => exact h.execSwapCommit
  | swapApply => exact h.execSwapApply
  | gainStep => exact h.execGainStep
  | stepTimeout => exact h.execStepTimeout
  | mixDisable => exact h.execMixDisable
  | talkerAdmit => exact h.execTalkerAdmit
  | talkerRemove => exact h.execTalkerRemove
  | audioFrameLate => exact h.execAudioFrameLate
  | ld => exact h.execLd
  | ld2 => exact h.execLd2
  | st => exact h.execSt
  | st2 => exact h.execSt2
  | mod => exact h.execMod
  | add => exact h.execAdd
  | sub => exact h.execSub
  | dspAnd => exact h.execDspAnd
  | dspOr => exact h.execDspOr
  | xor => exact h.execXor
  | ash => exact h.execAsh
  | lsh => exact h.execLsh
  | min => exact h.execMin
  | max => exact h.execMax
  | abs => exact h.execAbs
  | neg => exact h.execNeg
  | cmp => exact h.execCmp
  | adda => exact h.execAdda
  | mov => exact h.execMov
  | mvg => exact h.execMvg
  | mac2 => exact h.execMac2
  | msu2 => exact h.execMsu2
  | mpy2 => exact h.execMpy2
  | mac => exact h.execMac
  | msu => exact h.execMsu
  | mpy => exact h.execMpy
  | accadd => exact h.execAccadd
  | accsh => exact h.execAccsh
  | rnd => exact h.execRnd
  | clr2 => exact h.execClr2
  | dspB => exact h.execDspB
  | bcc => exact h.execBcc
  | call => exact h.execCall
  | ret => exact h.execRet
  | dspRep => exact h.execDspRep
  | brk => exact h.execBrk
  | take => exact h.execTake
  | takeGrant => exact h.execTakeGrant
  | done => exact h.execDone
  | doneDmaDrained => exact h.execDoneDmaDrained
  | rti => exact h.execRti
  | swi => exact h.execSwi
  | nop => exact h.execNop
  | interruptTaken => exact h.execInterruptTaken
  | coreTimerExpiry => exact h.execCoreTimerExpiry
  | dmaStart => exact h.execDmaStart
  | dmaDescDone => exact h.execDmaDescDone
  | dspWatchdogExpiry => exact h.execDspWatchdogExpiry
  | selftestDone => exact h.execSelftestDone
  | dscDoorbell => exact h.execDscDoorbell
  | halt => exact h.execHalt
  | step => exact h.execStep
  | kernelInstall => exact h.execKernelInstall
  | probeNow => exact h.execProbeNow
  | probeArm => exact h.execProbeArm
  | modStartWrite => exact h.execModStartWrite
  | beaconFrameStart => exact h.execBeaconFrameStart
  | beaconFrameEnd => exact h.execBeaconFrameEnd
  | probeJudge => exact h.execProbeJudge
  | probeAbort => exact h.execProbeAbort
  | detectorConfig => exact h.execDetectorConfig
  | detectorFrame => exact h.execDetectorFrame
  | agcRelease => exact h.execAgcRelease
  | colocGroupApply => exact h.execColocGroupApply
  | cipherRequest => exact h.execCipherRequest
  | cipherComplete => exact h.execCipherComplete
  | gracePeriodEnd => exact h.execGracePeriodEnd
  | keyStoreEccError => exact h.execKeyStoreEccError
  | kslClaim => exact h.execKslClaim
  | kslRelease => exact h.execKslRelease
  | kslDataWrite => exact h.execKslDataWrite
  | write => exact h.execWrite
  | erase => exact h.execErase
  | zeroize => exact h.execZeroize
  | zeroizeAll => exact h.execZeroizeAll
  | retireOld => exact h.execRetireOld
  | kslStatus => exact h.execKslStatus
  | ctxInit => exact h.execCtxInit
  | ctxClear => exact h.execCtxClear
  | kslCommandDone => exact h.execKslCommandDone
  | cpxPkaClaim => exact h.execCpxPkaClaim
  | cpxPkaRelease => exact h.execCpxPkaRelease
  | verify => exact h.execVerify
  | sign => exact h.execSign
  | keygen => exact h.execKeygen
  | ecdh => exact h.execEcdh
  | deriveToSlot => exact h.execDeriveToSlot
  | pkaCommandDone => exact h.execPkaCommandDone
  | rngDataRead => exact h.execRngDataRead
  | rngReady => exact h.execRngReady
  | rngHealthFail => exact h.execRngHealthFail
  | trunkEnable => exact h.execTrunkEnable
  | trunkDisable => exact h.execTrunkDisable
  | helloResend => exact h.execHelloResend
  | hello => exact h.execHello
  | helloReply => exact h.execHelloReply
  | media => exact h.execMedia
  | audio => exact h.execAudio
  | reliable => exact h.execReliable
  | ack => exact h.execAck
  | heartbeat => exact h.execHeartbeat
  | probe => exact h.execProbe
  | probeReply => exact h.execProbeReply
  | rekey => exact h.execRekey
  | control => exact h.execControl
  | heartbeatSend => exact h.execHeartbeatSend
  | heartbeatMiss => exact h.execHeartbeatMiss
  | probeTimeout => exact h.execProbeTimeout
  | ackSend => exact h.execAckSend
  | retransmitTimeout => exact h.execRetransmitTimeout
  | rekeyStart => exact h.execRekeyStart
  | rosterUpdate => exact h.execRosterUpdate
  | talkerReport => exact h.execTalkerReport
  | talkerSet => exact h.execTalkerSet
  | confOp => exact h.execConfOp
  | confOpResult => exact h.execConfOpResult
  | stateSummary => exact h.execStateSummary
  | journalEntry => exact h.execJournalEntry
  | journalDone => exact h.execJournalDone
  | channelOffer => exact h.execChannelOffer
  | promote => exact h.execPromote
  | create => exact h.execCreate
  | link => exact h.execLink
  | arm => exact h.execArm
  | cancel => exact h.execCancel
  | strip => exact h.execStrip
  | follow => exact h.execFollow
  | complete => exact h.execComplete
  | taskDispatch => exact h.execTaskDispatch
  | auHandover => exact h.execAuHandover
  | updWindowEnd => exact h.execUpdWindowEnd
  | thermalSample => exact h.execThermalSample
  | telemetrySample => exact h.execTelemetrySample
  | standbyEnter => exact h.execStandbyEnter
  | standbyExit => exact h.execStandbyExit
  | standbyWakeDone => exact h.execStandbyWakeDone
  | hbmRequest => exact h.execHbmRequest
  | refresh => exact h.execRefresh
  | refreshWindowStart => exact h.execRefreshWindowStart
  | throttleExpiry => exact h.execThrottleExpiry
  | scrubRead => exact h.execScrubRead
  | hbmParityError => exact h.execHbmParityError
  | hbmTrainStep => exact h.execHbmTrainStep
  | mapEnable => exact h.execMapEnable
  | bar2Read => exact h.execBar2Read
  | bar2Write => exact h.execBar2Write
  | functionLevelReset => exact h.execFunctionLevelReset
  | vfEnableClear => exact h.execVfEnableClear
  | hotReset => exact h.execHotReset
  | badAccess => exact h.execBadAccess
  | tailWrite => exact h.execTailWrite
  | descFetchDone => exact h.execDescFetchDone
  | pioCommit => exact h.execPioCommit
  | descNop => exact h.execDescNop
  | inline => exact h.execInline
  | hostBuf => exact h.execHostBuf
  | devBuf => exact h.execDevBuf
  | freeCell => exact h.execFreeCell
  | rxBuf => exact h.execRxBuf
  | frameTx => exact h.execFrameTx
  | gulterBlock => exact h.execGulterBlock
  | firmware => exact h.execFirmware
  | cqEntryWrite => exact h.execCqEntryWrite
  | headWrite => exact h.execHeadWrite
  | cqCoalesceTimer => exact h.execCqCoalesceTimer
  | msixUnmask => exact h.execMsixUnmask
  | hostQueueDisable => exact h.execHostQueueDisable
  | mbxClaim => exact h.execMbxClaim
  | mbxDataWrite => exact h.execMbxDataWrite
  | send => exact h.execSend
  | mbxClaimTimeout => exact h.execMbxClaimTimeout
  | mbxInternalWrite => exact h.execMbxInternalWrite
  | mbxRelease => exact h.execMbxRelease
  | dblSet => exact h.execDblSet
  | dblInternalSet => exact h.execDblInternalSet
  | dblStatClear => exact h.execDblStatClear
  | gulterOpen => exact h.execGulterOpen
  | auth => exact h.execAuth
  | authTimeout => exact h.execAuthTimeout
  | close => exact h.execClose
  | sessionIdleTimeout => exact h.execSessionIdleTimeout
  | read => exact h.execRead
  | gulterWrite => exact h.execGulterWrite
  | blockBegin => exact h.execBlockBegin
  | blockSeg => exact h.execBlockSeg
  | blockEnd => exact h.execBlockEnd
  | blockTimeout => exact h.execBlockTimeout
  | subscribe => exact h.execSubscribe
  | unsubscribe => exact h.execUnsubscribe
  | subscriptionSample => exact h.execSubscriptionSample
  | notifyResend => exact h.execNotifyResend
  | notifyAck => exact h.execNotifyAck
  | keepalive => exact h.execKeepalive
  | seqGapTimeout => exact h.execSeqGapTimeout
  | sessionCloseAll => exact h.execSessionCloseAll
  | confCreate => exact h.execConfCreate
  | confEnd => exact h.execConfEnd
  | legAttach => exact h.execLegAttach
  | legDetach => exact h.execLegDetach
  | legRelease => exact h.execLegRelease
  | legConnected => exact h.execLegConnected
  | legConnectTimeout => exact h.execLegConnectTimeout
  | encForceIntra => exact h.execEncForceIntra
  | powerOn => exact h.execPowerOn
  | railsInRegulation => exact h.execRailsInRegulation
  | rampTimeout => exact h.execRampTimeout
  | vinLow => exact h.execVinLow
  | powerOff => exact h.execPowerOff
  | railFault => exact h.execRailFault
  | perstNFall => exact h.execPerstNFall
  | perstNRise => exact h.execPerstNRise
  | reset => exact h.execReset
  | deviceReset => exact h.execDeviceReset
  | fwWatchdog => exact h.execFwWatchdog
  | kick => exact h.execKick
  | fuseSense => exact h.execFuseSense
  | bankVerify => exact h.execBankVerify
  | stage1Check => exact h.execStage1Check
  | hbmReady => exact h.execHbmReady
  | bringupComplete => exact h.execBringupComplete
  | rcvLoad => exact h.execRcvLoad
  | rcvClear => exact h.execRcvClear
  | deviceIdentity => exact h.execDeviceIdentity
  | ownerKeyHash => exact h.execOwnerKeyHash
  | ownerTransferAuth => exact h.execOwnerTransferAuth
  | rollbackFloor => exact h.execRollbackFloor
  | trunkCipherLock => exact h.execTrunkCipherLock
  | debugDisable => exact h.execDebugDisable
  | fuseBurnDone => exact h.execFuseBurnDone
  | attestNonce => exact h.execAttestNonce
  | fwStageBegin => exact h.execFwStageBegin
  | fwStageData => exact h.execFwStageData
  | fwStageHbm => exact h.execFwStageHbm
  | fwStageEnd => exact h.execFwStageEnd
  | fwActivate => exact h.execFwActivate
  | fwCommit => exact h.execFwCommit
  | squallEntryRead => exact h.execSquallEntryRead
  | refclkSample => exact h.execRefclkSample
  | refclkLost => exact h.execRefclkLost
  | cagePresenceChange => exact h.execCagePresenceChange
  | cageIdentify => exact h.execCageIdentify
  | cageOvercurrent => exact h.execCageOvercurrent
  | mgmtLosChange => exact h.execMgmtLosChange
  | jtagInstruction => exact h.execJtagInstruction
  | flrComplete => exact h.execFlrComplete
  | cplTimeout => exact h.execCplTimeout
  | mxmCommandDone => exact h.execMxmCommandDone
  | mgmtModabsChange => exact h.execMgmtModabsChange
  | cageIntNFall => exact h.execCageIntNFall
  | firResend => exact h.execFirResend
  | counterLoRead => exact h.execCounterLoRead
  | bar2SizeChange => exact h.execBar2SizeChange
  | slotsMaxWrite => exact h.execSlotsMaxWrite
  | irqWaitMaxWrite => exact h.execIrqWaitMaxWrite
  | ipeakWrite => exact h.execIpeakWrite

end Sys2Proof.Laws
end

section
/-! The statements of chapter 0 about the step and the state after reset. -/

namespace Sys2Proof.Proofs

open Sys2Proof Sys2Proof.Machine Sys2Proof.Safety Sys2Proof.Laws

/-- Settles O1: the step's own equation for a queue that is not empty. -/
theorem stepRunsFrontCommand : Obligations.StepRunsFrontCommand := by
  intro c rest s
  rfl

/-- Settles O3: every command keeps the queue that it is run with, which is the rest (`Keeps.exec`). -/
theorem stepTakesOnlyTheFrontCommand : Obligations.StepTakesOnlyTheFrontCommand := by
  intro c rest s t h
  have k : Keeps { s with pending := rest } t := (Keeps.refl _).exec t h
  exact k.1

/-- Settles O4: a fabric cycle and every command keep the canonical form (`keeps_tick`, `Keeps.exec`). -/
theorem stepKeepsCanonicalForm : Obligations.StepKeepsCanonicalForm := by
  intro s t hs h
  unfold step at h
  split at h
  · cases h
    exact (keeps_tick s).2 hs
  · next c rest _ =>
    have k : Keeps { s with pending := rest } t := (Keeps.refl _).exec t h
    exact k.2 hs

/-- No bit of the fence registers is set in their Reset column. -/
theorem fence_resetWord : ∀ u < 24, ∀ k < 4, resetWord (R.SQL_FENCE_INSTANCES u k).addr = 0 := by decide +kernel

/-- After reset a register reads as its Reset column. -/
theorem reset_reg (a : Nat) : State.reset.reg a = resetWord a := rfl

/-- Settles O5: nothing is listed after reset, so each address reads as its default. -/
theorem resetIsCanonical : Obligations.ResetIsCanonical := by
  refine ⟨⟨rfl, rfl, rfl⟩, rfl, reset_reg, fun _ => rfl, fun _ => rfl, fun u i hu hi => ?_⟩
  have hw := fence_resetWord u hu (i / 32) (by omega)
  simp [State.isFenced, State.get, reset_reg, hw, field_eq]

end Sys2Proof.Proofs
end

section
/-! SUPPORT. What a register write does by the types of the fields at its address: the fields of the registers the statement names, the
word that each type takes, and what an entry of the log leaves as it was. -/

namespace Sys2Proof.Laws

open Sys2Proof Sys2Proof.Machine Sys2Proof.Safety

/-! ### Updates of one register -/

/-- The state `t` is `s` with the register at `a` rewritten. -/
def Rewrites (a : Nat) (s t : State) : Prop := t = { s with regs := t.regs } ∧ SameRegsBut s t [a]

theorem Rewrites.refl (a : Nat) (s : State) : Rewrites a s s := ⟨rfl, fun _ _ => rfl⟩

/-- A write of a field adds to the rewriting of its register. -/
theorem Rewrites.put {s t : State} {a : Nat} (f : Fld) (v : Nat) (hf : f.addr = a) (h : Rewrites a s t) : Rewrites a s (t.put f v) := by
  subst hf
  obtain ⟨hs, hr⟩ := h
  refine ⟨?_, fun b hb => ?_⟩
  · rw [hs]; rfl
  · rw [reg_put_ne t f v (by simpa using hb)]
    exact hr b hb

/-! ### Copies of a voted register (R17) -/

/-- A difference that is 0 in a field leaves the field as it was. -/
theorem field_xor_of_field_zero (x y : Word) (l n : Nat) (h : y.field l n = 0) : (x ^^^ y).field l n = x.field l n := by
  rw [field_eq] at h ⊢
  rw [BitVec.toNat_xor, Nat.xor_div_two_pow, Nat.xor_mod_two_pow, h, Nat.xor_zero, field_eq]

/-- A voted write leaves its value in all three copies. -/
theorem copies_putVoted (s : State) (f : Fld) (v : Nat) (h : f.lsb + f.width ≤ 32) :
    let c := (s.putVoted f v).copies f.addr
    c.1.field f.lsb f.width = v % 2 ^ f.width ∧ c.2.1.field f.lsb f.width = v % 2 ^ f.width ∧
      c.2.2.field f.lsb f.width = v % 2 ^ f.width := by
  have hr : ((s.putVoted f v).reg f.addr).field f.lsb f.width = v % 2 ^ f.width := get_put_same s f v h
  have hd (m : SMap Word) : (SMap.get 0 (SMap.set 0 m f.addr ((SMap.get 0 m f.addr).withField f.lsb f.width 0)) f.addr).field
      f.lsb f.width = 0 := by rw [get_set_same, field_withField_same _ _ _ _ h, Nat.zero_mod]
  refine ⟨hr, ?_, ?_⟩
  · exact (field_xor_of_field_zero _ _ _ _ (hd s.rwvB)).trans hr
  · exact (field_xor_of_field_zero _ _ _ _ (hd s.rwvC)).trans hr

/-! ### The log (R592) -/

theorem devEvent_frame (s : State) : s.devEvent = { s with fns := s.devEvent.fns, out := s.devEvent.out } := by
  unfold State.devEvent State.raise
  dsimp only
  split
  · rfl
  · split <;> rfl

/-- What the log's four updates leave as it was, an entry leaves. -/
theorem log_leaves {β : Type} (p : State → β) (s : State) (unit inst sev event p0 p1 : Nat)
    (hb : p (s.bump R.SQL_SUPPRESSED_COUNT) = p s) (hw : ∀ e, p (s.writeEntry e) = p s) (hd : ∀ t : State, p t.devEvent = p t)
    (hc : ∀ t : State, p (t.putBit R.SQL_ALERT_CAUSE_FATAL true) = p t) : p (s.log unit inst sev event p0 p1) = p s := by
  have he (e : SquallEntry) : p (if sev < 3 then s.writeEntry e else (s.writeEntry e).devEvent) = p s := by
    split
    · exact hw e
    · exact (hd _).trans (hw e)
  unfold State.log
  split
  · rfl
  · split
    · exact hb
    · dsimp only
      split
      · exact (hc _).trans (he _)
      · exact he _

/-- An entry of the log touches no register outside Squall. -/
theorem log_reg (s : State) (unit inst sev event p0 p1 a : Nat) (h1 : a ≠ R.SQL_SUPPRESSED_COUNT.addr)
    (h2 : a ≠ R.SQL_STATUS_WRAPPED.addr) (h3 : a ≠ R.SQL_ALERT_CAUSE_FATAL.addr) :
    (s.log unit inst sev event p0 p1).reg a = s.reg a := by
  refine log_leaves (fun t => t.reg a) s unit inst sev event p0 p1 (reg_put_ne s _ _ h1) (fun e => ?_) (fun t => ?_)
    fun t => reg_put_ne t _ _ h3
  · dsimp only [State.writeEntry]
    split
    · rfl
    · exact reg_put_ne s _ _ h2
  · rw [devEvent_frame]
    rfl

/-- An entry of the log lies outside memory. -/
theorem log_mem (s : State) (unit inst sev event p0 p1 : Nat) : (s.log unit inst sev event p0 p1).mem = s.mem := by
  refine log_leaves (fun t => t.mem) s unit inst sev event p0 p1 rfl (fun e => ?_) (fun t => ?_) fun t => rfl
  · dsimp only [State.writeEntry]
    split <;> rfl
  · rw [devEvent_frame]

/-! ### The fields of a register -/

/-- A field of a block's single instance, with no array, no check and no enable of its own. -/
def plainField (b : RegBlock) (off lsb width : Nat) (ty : RegTy) (rst : Nat) : FieldAt :=
  ⟨b, 0, ⟨off, lsb, width, ty, .lit rst, .any, 1, 0, 1, 0, 0, none, none⟩, 0, 0⟩

theorem fieldsAt_traceMask : fieldsAt 0xD00014 = [plainField R.blockHTS 0x14 0 16 .rw 0x1FF0] := by decide +kernel

theorem fieldsAt_traceBaseLo : fieldsAt 0xD00018 = [plainField R.blockHTS 0x18 12 20 .rwd 0] := by decide +kernel

theorem fieldsAt_slotsUsed : fieldsAt 0xD00024 = [plainField R.blockHTS 0x24 0 13 .ro 0] := by decide +kernel

theorem fieldsAt_transientLimit : fieldsAt 0xF00028 = [plainField R.blockSQL 0x28 0 8 .rwv 16] := by decide +kernel

theorem fieldsAt_alertCause : fieldsAt 0xF00020 = [plainField R.blockSQL 0x20 0 1 .w1c 0, plainField R.blockSQL 0x20 1 1 .w1c 0,
    plainField R.blockSQL 0x20 2 1 .w1c 0, plainField R.blockSQL 0x20 3 1 .w1c 0] := by decide +kernel

theorem fieldsAt_padPwr : fieldsAt 0xF8020C = [plainField R.blockFUS 0x20C 0 8 .rwm 0, plainField R.blockFUS 0x20C 8 1 .rwm 0,
    plainField R.blockFUS 0x20C 9 1 .rwm 1] := by decide +kernel

theorem fieldsAt_undefined : fieldsAt 0xF00F00 = [] := by decide +kernel

/-! ### A write by type (R17 to R19) -/

theorem typedWrite_traceMask (s : State) (w : Nat) : s.typedWrite 0xD00014 w = s.put R.HTS_TRACE_MASK_REASONS (w % 2 ^ 16) := by
  simp [State.typedWrite, State.typedWriteOf, fieldsAt_traceMask, State.storeFields, State.writeField, State.take,
    State.storeField, FieldAt.fld, plainField, R.HTS_TRACE_MASK_REASONS]

theorem typedWrite_transientLimit (s : State) (w : Nat) : s.typedWrite 0xF00028 w = s.putVoted ⟨0xF00028, 0, 8⟩ (w % 2 ^ 8) := by
  simp [State.typedWrite, State.typedWriteOf, fieldsAt_transientLimit, State.storeFields, State.writeField, State.take,
    State.storeField, FieldAt.fld, plainField]

theorem typedWrite_slotsUsed (s : State) (w : Nat) : s.typedWrite 0xD00024 w = s := by
  simp [State.typedWrite, State.typedWriteOf, fieldsAt_slotsUsed, State.storeFields, State.writeField, plainField]

theorem typedWrite_undefined (s : State) (w : Nat) : s.typedWrite 0xF00F00 w = s := by
  simp [State.typedWrite, State.typedWriteOf, fieldsAt_undefined, State.storeFields]

/-- What the bit `k` of ALERT_CAUSE becomes by a write of word `w`. -/
def clearedCause (s : State) (w k : Nat) : Nat := s.get ⟨0xF00020, k, 1⟩ - (s.get ⟨0xF00020, k, 1⟩ &&& w / 2 ^ k % 2)

theorem typedWrite_alertCause (s : State) (w : Nat) : s.typedWrite 0xF00020 w =
    (((s.put ⟨0xF00020, 0, 1⟩ (clearedCause s w 0)).put ⟨0xF00020, 1, 1⟩ (clearedCause s w 1)).put
      ⟨0xF00020, 2, 1⟩ (clearedCause s w 2)).put ⟨0xF00020, 3, 1⟩ (clearedCause s w 3) := by
  simp [State.typedWrite, State.typedWriteOf, fieldsAt_alertCause, State.storeFields, State.writeField, State.storeField,
    FieldAt.fld, plainField, clearedCause]

/-- What a field of PAD_PWR becomes by a write of word `w`, whose upper half selects the bits. -/
def maskedPad (s : State) (w l n : Nat) : Nat :=
  let old := s.get ⟨0xF8020C, l, n⟩
  let m := w / 2 ^ (16 + l) % 2 ^ n
  (old - (old &&& m)) + (w / 2 ^ l % 2 ^ n &&& m)

theorem typedWrite_padPwr (s : State) (w : Nat) : s.typedWrite 0xF8020C w =
    ((s.put ⟨0xF8020C, 0, 8⟩ (maskedPad s w 0 8)).put ⟨0xF8020C, 8, 1⟩ (maskedPad s w 8 1)).put ⟨0xF8020C, 9, 1⟩
      (maskedPad s w 9 1) := by
  simp [State.typedWrite, State.typedWriteOf, fieldsAt_padPwr, State.storeFields, State.writeField, State.storeField,
    FieldAt.fld, plainField, maskedPad]

/-- What a field of HTS belongs to is enabled by HTS_CTRL's bit. -/
theorem fieldEnabled_hts (s : State) (off l n : Nat) (ty : RegTy) (r : Nat) :
    s.fieldEnabled (plainField R.blockHTS off l n ty r) = s.isSet R.HTS_CTRL_ENABLE := by
  simp [State.fieldEnabled, FieldAt.enableFld, plainField, R.blockHTS, R.HTS_CTRL_ENABLE]

theorem typedWrite_traceBaseLo_disabled (s : State) (w : Nat) (h : s.isSet R.HTS_CTRL_ENABLE = false) :
    s.typedWrite 0xD00018 w = s.put R.HTS_TRACE_BASE_LO_ADDR (w / 2 ^ 12 % 2 ^ 20) := by
  simp [State.typedWrite, State.typedWriteOf, fieldsAt_traceBaseLo, State.storeFields, State.writeField, fieldEnabled_hts, h]
  simp [State.take, State.storeField, FieldAt.fld, plainField, R.HTS_TRACE_BASE_LO_ADDR]

theorem typedWrite_traceBaseLo_same (s : State) (w : Nat) (h : s.isSet R.HTS_CTRL_ENABLE = true)
    (hv : w / 2 ^ 12 % 2 ^ 20 = s.get R.HTS_TRACE_BASE_LO_ADDR) : s.typedWrite 0xD00018 w = s := by
  have hv' : w / 2 ^ 12 % 2 ^ 20 = s.get ⟨0xD00018, 12, 20⟩ := hv
  simp only [State.typedWrite, State.typedWriteOf, fieldsAt_traceBaseLo, State.storeFields, State.writeField, fieldEnabled_hts, h]
  simp only [FieldAt.fld, plainField, hv', if_true]

/-- A different value leaves the field, sets the block's CFG_IGNORED and is logged. -/
theorem typedWrite_traceBaseLo_refused (s : State) (w : Nat) (h : s.isSet R.HTS_CTRL_ENABLE = true)
    (hv : w / 2 ^ 12 % 2 ^ 20 ≠ s.get R.HTS_TRACE_BASE_LO_ADDR) :
    s.typedWrite 0xD00018 w = (s.putBit R.HTS_STATUS_CFG_IGNORED true).log Unit.hts 0 Sev.note Ev.cfgIgnored 0x18 w := by
  have hv' : w / 2 ^ 12 % 2 ^ 20 ≠ s.get ⟨0xD00018, 12, 20⟩ := hv
  simp only [State.typedWrite, State.typedWriteOf, fieldsAt_traceBaseLo, State.storeFields, State.writeField, fieldEnabled_hts, h]
  simp only [FieldAt.fld, plainField, hv', if_true, if_false]
  rfl

/-! ### What a bit and a refused field read as -/

/-- A cause that is cleared where the word has a 1. -/
theorem clearedCause_bit (s : State) (w : Word) (k : Nat) :
    (clearedCause s w.toNat k == 1) = (s.isSet ⟨0xF00020, k, 1⟩ && !w.getLsbD k) := by
  have ho : s.get ⟨0xF00020, k, 1⟩ < 2 := get_lt s ⟨0xF00020, k, 1⟩
  have hb : w.getLsbD k = decide (w.toNat / 2 ^ k % 2 = 1) := Nat.testBit_eq_decide_div_mod_eq
  unfold clearedCause State.isSet
  rw [hb]
  generalize s.get ⟨0xF00020, k, 1⟩ = old at *
  obtain hv | hv := Nat.mod_two_eq_zero_or_one (w.toNat / 2 ^ k) <;> rw [hv] <;> interval_cases old <;> rfl

/-- A pad's bit that is taken where the word's upper half selects it. -/
theorem maskedPad_bit (s : State) (w : Word) (l : Nat) :
    (maskedPad s w.toNat l 1 == 1) = if w.getLsbD (16 + l) then w.getLsbD l else s.isSet ⟨0xF8020C, l, 1⟩ := by
  have ho : s.get ⟨0xF8020C, l, 1⟩ < 2 := get_lt s ⟨0xF8020C, l, 1⟩
  have hb (k : Nat) : w.getLsbD k = decide (w.toNat / 2 ^ k % 2 ^ 1 = 1) := Nat.testBit_eq_decide_div_mod_eq
  unfold maskedPad State.isSet
  rw [hb, hb]
  generalize s.get ⟨0xF8020C, l, 1⟩ = old at *
  obtain hv | hv := Nat.mod_two_eq_zero_or_one (w.toNat / 2 ^ l) <;>
    obtain hm | hm := Nat.mod_two_eq_zero_or_one (w.toNat / 2 ^ (16 + l)) <;>
      rw [pow_one, hv, hm] <;> interval_cases old <;> rfl

/-- A one-bit field that is written with a bit's value reads as that bit. -/
theorem isSet_put_same (s : State) (f : Fld) (v : Nat) (h : f.lsb + 1 ≤ 32) (hw : f.width = 1) (hv : v < 2) :
    (s.put f v).isSet f = (v == 1) := by
  rw [State.isSet, get_put_same s f v (by rw [hw]; exact h), hw, pow_one, Nat.mod_eq_of_lt hv]

theorem isSet_put_apart (s : State) (f g : Fld) (v : Nat) (h : f.lsb + f.width ≤ 32)
    (hd : g.addr ≠ f.addr ∨ apart f.lsb f.width g.lsb g.width) : (s.put f v).isSet g = s.isSet g := by
  rw [State.isSet, get_put_apart s f g v h hd, State.isSet]

theorem clearedCause_lt (s : State) (w k : Nat) : clearedCause s w k < 2 :=
  lt_of_le_of_lt (Nat.sub_le _ _) (get_lt s ⟨0xF00020, k, 1⟩)

theorem maskedPad_lt (s : State) (w l : Nat) : maskedPad s w l 1 < 2 := by
  have ho : s.get ⟨0xF8020C, l, 1⟩ < 2 := get_lt s ⟨0xF8020C, l, 1⟩
  unfold maskedPad
  generalize s.get ⟨0xF8020C, l, 1⟩ = old at *
  obtain hv | hv := Nat.mod_two_eq_zero_or_one (w / 2 ^ l) <;>
    obtain hm | hm := Nat.mod_two_eq_zero_or_one (w / 2 ^ (16 + l)) <;>
      rw [pow_one, hv, hm] <;> interval_cases old <;> decide

/-! ### The host's write of a cycle (R485) -/

/-- A write of TRACE_MASK does not change who reaches it: no register of a fence, of a power state or of a stage is written. -/
theorem cutOff_put_traceMask (s : State) (who : Sender) (v : Nat) (e : List Instr) :
    ({ s.put R.HTS_TRACE_MASK_REASONS v with early := e } : State).cutOff who = s.cutOff who := by
  have hne (i : Nat) : (R.SQL_FENCE_INSTANCES Unit.crossing i).addr ≠ R.HTS_TRACE_MASK_REASONS.addr := by
    simp only [R.SQL_FENCE_INSTANCES, R.HTS_TRACE_MASK_REASONS]; omega
  unfold State.cutOff State.isFenced
  exact congrArg (Nat.testBit · _) (get_put_ne s _ _ v (hne _))

theorem accessible_put_traceMask (s : State) (c : Fin 12) (v : Nat) (e : List Instr) :
    ({ s.put R.HTS_TRACE_MASK_REASONS v with early := e } : State).accessible (.control c) 0xD00014 =
      s.accessible (.control c) 0xD00014 := by
  have hp : ({ s.put R.HTS_TRACE_MASK_REASONS v with early := e } : State).powerServes 0xD00014 = s.powerServes 0xD00014 := by
    have h1 := get_put_ne s R.HTS_TRACE_MASK_REASONS R.UPD_STATUS_THERMAL v (by decide)
    have h2 := get_put_ne s R.HTS_TRACE_MASK_REASONS R.UPD_STATUS_AWAKE v (by decide)
    unfold State.powerServes State.isSet
    show (if (s.put R.HTS_TRACE_MASK_REASONS v).get _ = 3 then _ else if !((s.put R.HTS_TRACE_MASK_REASONS v).get _ == 1) then _ else _) = _
    rw [h1, h2]
  unfold State.accessible
  rw [hp]
  rfl

/-! ### Writes of a register, by type -/

/-- A write that no host write precedes, of a register in no island whose write has no action, is the write of its word by type. -/
theorem registerWrite_alone {s : State} {who : Sender} {p : State → Prop} {a : Nat} (b : BitVec 24) (w : Word) (hb : b.toNat = a)
    (hs : WritesAlone s who) (h : s.accessible who a = true) (ha : a % 4 = 0) (hi : islandAt a = none)
    (ht : s.writeReg who a w.toNat = s.typedWrite a w.toNat) (hp : p (s.typedWrite a w.toNat)) :
    Completes (exec (.registerWrite who b w) s) p := by
  subst hb
  obtain ⟨hc, he, hh⟩ := hs
  refine ⟨_, registerWrite_next s who b w h hc ha hi he fun hn => ?_, ht ▸ hp⟩
  exact hh.elim (fun hy => by simp [hn] at hy) (fun hy => hy b.toNat)

theorem writeReg_hts (s : State) (who : Sender) (a w : Nat) (h : 0xD00000 ≤ a ∧ a < 0xD80000) (hm : a ≠ R.HTS_SLOTS_MAX_SLOTS.addr) :
    s.writeReg who a w = s.typedWrite a w := by
  unfold State.writeReg
  simp (disch := omega) only [if_neg, hm, if_false, Bool.and_eq_true, decide_eq_true_eq]

theorem writeReg_sql (s : State) (who : Sender) (a w : Nat) (h : 0xF00000 ≤ a ∧ a < 0xF80000) :
    s.writeReg who a w = s.typedWrite a w := by
  have hm : a ≠ R.HTS_SLOTS_MAX_SLOTS.addr := by simp only [R.HTS_SLOTS_MAX_SLOTS]; omega
  unfold State.writeReg
  simp (disch := omega) only [if_neg, hm, if_false, Bool.and_eq_true, decide_eq_true_eq]

theorem writeReg_padPwr (s : State) (who : Sender) (w : Nat) : s.writeReg who 0xF8020C w = s.typedWrite 0xF8020C w := by
  simp [State.writeReg, State.writeFus, R.HTS_SLOTS_MAX_SLOTS, R.FUS_CTRL_RESET, R.FUS_FW_WD_KICK, R.FUS_RCV_CMD_OP]

/-- R485: the host's write of the cycle comes before the internal one, and is not made again. -/
theorem hostFirst_traceMask (s : State) (n : Fin 16) (c : Fin 12) (v w : Word) (he : s.early = [])
    (hp : s.pending = [.registerWrite (.host n) 0xD00014 v]) (hn : s.cutOff (.host n) = false) (hc : s.cutOff (.control c) = false)
    (hna : s.accessible (.host n) 0xD00014 = true) (hca : s.accessible (.control c) 0xD00014 = true) :
    exec (.registerWrite (.control c) 0xD00014 w) s =
      .next { (s.put R.HTS_TRACE_MASK_REASONS (v.toNat % 2 ^ 16)).put R.HTS_TRACE_MASK_REASONS (w.toNat % 2 ^ 16) with
        early := [.registerWrite (.host n) 0xD00014 v] } := by
  have hl : s.hostWritesNow 0xD00014 = [.registerWrite (.host n) 0xD00014 v] := by
    simp [State.hostWritesNow, he, hp, hostWriteOf]
  have hw (t : State) (who : Sender) (x : Word) (h1 : t.cutOff who = false) (h2 : t.accessible who 0xD00014 = true) :
      t.registerWrite who 0xD00014 x.toNat = t.put R.HTS_TRACE_MASK_REASONS (x.toNat % 2 ^ 16) := by
    rw [← typedWrite_traceMask, ← writeReg_hts t who 0xD00014 x.toNat (by decide) (by decide)]
    simp [State.registerWrite, h1, h2, State.accessWakes, islandAt]
  have hf : s.hostFirst 0xD00014 = { s.put R.HTS_TRACE_MASK_REASONS (v.toNat % 2 ^ 16) with
      early := [.registerWrite (.host n) 0xD00014 v] } := by
    simp only [State.hostFirst, hl, he, List.foldl_cons, List.foldl_nil, List.nil_append]
    exact hw { s with early := [.registerWrite (.host n) 0xD00014 v] } (.host n) v hn hna
  have hi : (s.hostFirst 0xD00014).registerWrite (.control c) 0xD00014 w.toNat =
      (s.hostFirst 0xD00014).put R.HTS_TRACE_MASK_REASONS (w.toNat % 2 ^ 16) := by
    rw [hf]
    exact hw _ (.control c) w ((cutOff_put_traceMask _ _ _ _).trans hc) ((accessible_put_traceMask _ _ _ _).trans hca)
  have hx : exec (.registerWrite (.control c) 0xD00014 w) s =
      .next ((s.hostFirst 0xD00014).registerWrite (.control c) 0xD00014 w.toNat) := by
    simp [exec, execRegisterWrite, he, isHost]
  rw [hx, hi, hf]
  rfl

end Sys2Proof.Laws
end

section
/-! The statement of chapter 0 about the types of registers. -/

namespace Sys2Proof.Proofs

open Sys2Proof Sys2Proof.Machine Sys2Proof.Safety Sys2Proof.Laws

/-- RW: the value is stored. -/
theorem writes_traceMask (s : State) (w : Nat) : Rewrites 0xD00014 s (s.typedWrite 0xD00014 w) ∧
    (s.typedWrite 0xD00014 w).get R.HTS_TRACE_MASK_REASONS = w % 2 ^ 16 := by
  rw [typedWrite_traceMask]
  exact ⟨.put _ _ rfl (.refl _ s), (get_put_same s R.HTS_TRACE_MASK_REASONS _ (by decide)).trans (Nat.mod_mod _ _)⟩

/-- RWV: the value is stored in all three copies. -/
theorem writes_transientLimit (s : State) (w : Nat) :
    let t := s.typedWrite 0xF00028 w
    t = { s with regs := t.regs, rwvB := t.rwvB, rwvC := t.rwvC } ∧ SameRegsBut s t [0xF00028] ∧
      (t.copies 0xF00028).1.field 0 8 = w % 256 ∧ (t.copies 0xF00028).2.1.field 0 8 = w % 256 ∧
      (t.copies 0xF00028).2.2.field 0 8 = w % 256 := by
  intro t
  have ht : t = s.putVoted ⟨0xF00028, 0, 8⟩ (w % 2 ^ 8) := typedWrite_transientLimit s w
  have hc := copies_putVoted s ⟨0xF00028, 0, 8⟩ (w % 2 ^ 8) (by decide)
  rw [Nat.mod_mod, ← ht] at hc
  refine ⟨?_, fun b hb => ?_, hc⟩
  · rw [ht]; rfl
  · rw [ht]
    exact reg_put_ne s ⟨0xF00028, 0, 8⟩ _ (by simpa using hb)

/-- W1C: exactly the bits that the word names are cleared. -/
theorem writes_alertCause (s : State) (w : Word) : Rewrites 0xF00020 s (s.typedWrite 0xF00020 w.toNat) ∧
    (s.typedWrite 0xF00020 w.toNat).isSet R.SQL_ALERT_CAUSE_FENCE = (s.isSet R.SQL_ALERT_CAUSE_FENCE && !w.getLsbD 0) ∧
    (s.typedWrite 0xF00020 w.toNat).isSet R.SQL_ALERT_CAUSE_FATAL = (s.isSet R.SQL_ALERT_CAUSE_FATAL && !w.getLsbD 1) := by
  rw [typedWrite_alertCause]
  refine ⟨.put _ _ rfl (.put _ _ rfl (.put _ _ rfl (.put _ _ rfl (.refl _ s)))), ?_, ?_⟩
  · rw [isSet_put_apart _ _ _ _ (by decide) (by decide), isSet_put_apart _ _ _ _ (by decide) (by decide),
      isSet_put_apart _ _ _ _ (by decide) (by decide)]
    exact (isSet_put_same s ⟨0xF00020, 0, 1⟩ _ (by decide) rfl (clearedCause_lt s _ 0)).trans (clearedCause_bit s w 0)
  · rw [isSet_put_apart _ _ _ _ (by decide) (by decide), isSet_put_apart _ _ _ _ (by decide) (by decide)]
    exact (isSet_put_same _ ⟨0xF00020, 1, 1⟩ _ (by decide) rfl (clearedCause_lt s _ 1)).trans (clearedCause_bit s w 1)

/-- RWM: the bit is taken where the mask half selects it. -/
theorem writes_padPwr (s : State) (w : Word) : Rewrites 0xF8020C s (s.typedWrite 0xF8020C w.toNat) ∧
    (s.typedWrite 0xF8020C w.toNat).isSet R.FUS_PAD_PWR_MGMT_TXDIS =
      if w.getLsbD 25 then w.getLsbD 9 else s.isSet R.FUS_PAD_PWR_MGMT_TXDIS := by
  rw [typedWrite_padPwr]
  refine ⟨.put _ _ rfl (.put _ _ rfl (.put _ _ rfl (.refl _ s))), ?_⟩
  exact (isSet_put_same _ ⟨0xF8020C, 9, 1⟩ _ (by decide) rfl (maskedPad_lt s _ 9)).trans (maskedPad_bit s w 9)

/-- TRACE_BASE_LO takes the word's upper 20 bits. -/
theorem traceBase_of_word (w : Word) : w.toNat / 2 ^ 12 % 2 ^ 20 = w.toNat / 4096 := by
  have := w.isLt
  omega

/-- RWD, disabled: the value is stored. -/
theorem writes_traceBaseLo (s : State) (w : Word) (h : s.isSet R.HTS_CTRL_ENABLE = false) :
    Rewrites 0xD00018 s (s.typedWrite 0xD00018 w.toNat) ∧
    (s.typedWrite 0xD00018 w.toNat).get R.HTS_TRACE_BASE_LO_ADDR = w.toNat / 4096 := by
  rw [typedWrite_traceBaseLo_disabled s _ h]
  refine ⟨.put _ _ rfl (.refl _ s), (get_put_same s R.HTS_TRACE_BASE_LO_ADDR _ (by decide)).trans ?_⟩
  exact (Nat.mod_mod _ _).trans (traceBase_of_word w)

/-- RWD, enabled: a different value is refused with CFG_IGNORED. -/
theorem refuses_traceBaseLo (s : State) (w : Word) (h : s.isSet R.HTS_CTRL_ENABLE = true)
    (hv : w.toNat / 4096 ≠ s.get R.HTS_TRACE_BASE_LO_ADDR) :
    let t := s.typedWrite 0xD00018 w.toNat
    t.get R.HTS_TRACE_BASE_LO_ADDR = s.get R.HTS_TRACE_BASE_LO_ADDR ∧ t.isSet R.HTS_STATUS_CFG_IGNORED = true ∧ t.mem = s.mem := by
  rw [typedWrite_traceBaseLo_refused s _ h (by rw [traceBase_of_word]; exact hv)]
  have hr (f : Fld) (hf : f.addr < 0xF00000) (u : State) (p : Nat) :
      (u.log Unit.hts 0 Sev.note Ev.cfgIgnored 0x18 p).get f = u.get f := by
    unfold State.get
    rw [log_reg _ _ _ _ _ _ _ _ (by simp only [R.SQL_SUPPRESSED_COUNT]; omega) (by simp only [R.SQL_STATUS_WRAPPED]; omega)
      (by simp only [R.SQL_ALERT_CAUSE_FATAL]; omega)]
  refine ⟨?_, ?_, ?_⟩
  · rw [hr _ (by decide)]
    exact get_put_ne s R.HTS_STATUS_CFG_IGNORED _ _ (by decide)
  · rw [State.isSet, hr _ (by decide)]
    exact isSet_putBit_same s R.HTS_STATUS_CFG_IGNORED true (by decide) rfl
  · rw [log_mem, putBit_mem]

/-- A misaligned write of an internal sender changes nothing (R18). -/
theorem misaligned_internal (s : State) (c : Nat) (b : BitVec 24) (w : Word) (he : s.early = []) (hb : b.toNat % 4 ≠ 0) :
    exec (.registerWrite (.control c) b w) s = .next s := by
  simp [exec, execRegisterWrite, he, hb]

/-- Settles O6: each register by the type of its fields, and the host's write of a cycle before the internal one. -/
theorem registerWritesFollowTheirTypes : Obligations.RegisterWritesFollowTheirTypes := by
  refine ⟨fun s who w hs => ⟨fun h => ?rw, fun h => ?rwv, fun h => ?ro, fun h => ?w1c, fun h => ?rwm, fun h hd => ?stored,
    fun h he hv => ?same, fun h he hv => ?refused, fun h => ?undefined, fun n => ?misaligned⟩, ?order⟩
  case rw =>
    obtain ⟨⟨hf, hr⟩, hg⟩ := writes_traceMask s w.toNat
    exact registerWrite_alone _ w rfl hs h rfl rfl (writeReg_hts s who _ _ (by decide) (by decide)) ⟨hf, hr, hg⟩
  case rwv =>
    exact registerWrite_alone _ w rfl hs h rfl rfl (writeReg_sql s who _ _ (by decide)) (writes_transientLimit s w.toNat)
  case ro =>
    exact registerWrite_alone _ w rfl hs h rfl rfl (writeReg_hts s who _ _ (by decide) (by decide)) (typedWrite_slotsUsed s w.toNat)
  case w1c =>
    obtain ⟨⟨hf, hr⟩, hg⟩ := writes_alertCause s w
    exact registerWrite_alone _ w rfl hs h rfl rfl (writeReg_sql s who _ _ (by decide)) ⟨hf, hr, hg⟩
  case rwm =>
    obtain ⟨⟨hf, hr⟩, hg⟩ := writes_padPwr s w
    exact registerWrite_alone _ w rfl hs h rfl rfl (writeReg_padPwr s who _) ⟨hf, hr, hg⟩
  case stored =>
    obtain ⟨⟨hf, hr⟩, hg⟩ := writes_traceBaseLo s w hd
    exact registerWrite_alone _ w rfl hs h rfl rfl (writeReg_hts s who _ _ (by decide) (by decide)) ⟨hf, hr, hg⟩
  case same =>
    exact registerWrite_alone _ w rfl hs h rfl rfl (writeReg_hts s who _ _ (by decide) (by decide))
      (typedWrite_traceBaseLo_same s w.toNat he ((traceBase_of_word w).trans hv))
  case refused =>
    exact registerWrite_alone _ w rfl hs h rfl rfl (writeReg_hts s who _ _ (by decide) (by decide)) (refuses_traceBaseLo s w he hv)
  case undefined =>
    exact registerWrite_alone _ w rfl hs h rfl rfl (writeReg_sql s who _ _ (by decide)) (typedWrite_undefined s w.toNat)
  case misaligned =>
    obtain ⟨_, he, _⟩ := hs
    exact ⟨s, misaligned_internal s n _ w he (by decide), rfl⟩
  case order =>
    intro s n c v w he hp hn hc hna hca
    refine ⟨_, hostFirst_traceMask s n c v w he hp hn hc hna hca, ?_, _, ?_, rfl⟩
    · exact (get_put_same _ R.HTS_TRACE_MASK_REASONS _ (by decide)).trans (Nat.mod_mod _ _)
    · simp [exec, execRegisterWrite]

end Sys2Proof.Proofs
end

section
/-! SUPPORT. What each event of an island (R28, R439) and of a crossing (R36, R577) does, said once per event. -/

namespace Sys2Proof.Laws

open Sys2Proof Sys2Proof.Machine Sys2Proof.Safety

/-! ### Events of an island (R28, R439) -/

/-- What setting an island's state does: the island has it, every other island keeps its own, and beside the islands only registers change. -/
theorem setIsland_only (s : State) (i : Nat) (l : LullState) :
    (s.setIsland i l).island i = l ∧ (∀ j, j ≠ i → (s.setIsland i l).island j = s.island j) ∧
      s.setIsland i l = { s with regs := (s.setIsland i l).regs, islands := (s.setIsland i l).islands } := by
  refine ⟨?_, fun j hj => ?_, setIsland_frame s i l⟩
  · rw [island_setIsland, if_pos rfl]
  · rw [island_setIsland, if_neg hj]

/-- An island in Lull that nothing keeps gated begins to wake. -/
theorem wake_eq_setIsland {s : State} {i : Nat} (hl : s.island i = .lull) (hg : s.gatedForGood i = false)
    (ht : s.get R.UPD_STATUS_THERMAL ≠ 3) : s.wake i = s.setIsland i (.waking s.cycle) := by
  simp [State.wake, hl, hg, ht]

/-- An awake island without work goes to Lull. -/
theorem exec_lullEntry {s : State} {i : Island} (ha : s.island i = .awake)
    (hw : s.islandIdle i = true ∨ ((i.val = 1 ∨ i.val = 2) ∧ s.portsOff = true)) :
    exec (.lullEntry i) s = .next (s.setIsland i .lull) := by
  have hw' : (s.islandIdle i.val || ((i.val = 1 || i.val = 2) && s.portsOff)) = true := by
    simpa only [Bool.or_eq_true, Bool.and_eq_true, decide_eq_true_eq] using hw
  simp [exec, execLullEntry, ha, hw']

/-- An access wakes an island that the relay or the cipher has, or one with units. -/
theorem exec_lullWake_access {s : State} {i : Island} (ha : s.isSet R.UPD_STATUS_AWAKE = true)
    (hi : i.val = 1 ∨ i.val = 2 ∨ islandUnits i ≠ []) : exec (.lullWake i .access) s = .next (s.wake i) := by
  have hi' : (i.val == 1 || i.val == 2 || !(islandUnits i.val).isEmpty) = true := by
    simpa [or_assoc] using hi
  simp [exec, execLullWake, ha, hi']

/-- An island whose wake is done is awake. -/
theorem exec_lullWakeDone {s : State} {i : Island} {c : Nat} (hw : s.island i = .waking c)
    (ha : s.isSet R.UPD_STATUS_AWAKE = true) (hi : i.val ≠ 2) :
    exec (.lullWakeDone i) s = .next (s.setIsland i .awake) := by
  simp [exec, execLullWakeDone, hw, ha, hi]

/-- A cluster that a held task awaits within 25 µs begins to wake. -/
theorem exec_clusterPrewake {s : State} {k : Fin 8} (ha : s.isSet R.UPD_STATUS_AWAKE = true) (hp : s.prewakes k = true) :
    exec (.clusterPrewake k) s = .next (s.wake (41 + k.val)) := by
  simp [exec, execClusterPrewake, ha, hp]

/-! ### Crossings (R36, R577) -/

/-- An entry of the log changes no island. -/
theorem log_islands (s : State) (unit inst sev event p0 p1 : Nat) : (s.log unit inst sev event p0 p1).islands = s.islands := by
  refine log_leaves (fun t => t.islands) s unit inst sev event p0 p1 rfl (fun e => ?_) (fun t => ?_) fun t => rfl
  · dsimp only [State.writeEntry]
    split <;> rfl
  · rw [devEvent_frame]

/-- The storm rule does not cover a crossing: only the times of its transients are kept. -/
theorem storm_crossing (s : State) (i : Nat) : ∃ q, s.storm Unit.crossing i = { s with sql := q } := ⟨_, rfl⟩

/-- A transient of a crossing is counted and logged: it has no bit and no counter of a block, and fences nothing. -/
theorem retried_crossing (s : State) (i row param : Nat) :
    ∃ q, s.retried Unit.crossing i row param =
      { (s.bump (R.SQL_TRANS_COUNT Unit.crossing)).log Unit.crossing (islandInstance i) Sev.note Ev.retryOk row param with sql := q } :=
  storm_crossing _ i

/-- The transients that a crossing's SQL_TRANS counts, of which there is one more, at most 2^32 - 1. -/
theorem get_log_transCount (s : State) (inst sev event p0 p1 : Nat) :
    ((s.bump (R.SQL_TRANS_COUNT Unit.crossing)).log Unit.crossing inst sev event p0 p1).get (R.SQL_TRANS_COUNT Unit.crossing) =
      min (2 ^ 32 - 1) (s.get (R.SQL_TRANS_COUNT Unit.crossing) + 1) := by
  have hl : (s.bump (R.SQL_TRANS_COUNT Unit.crossing)).get (R.SQL_TRANS_COUNT Unit.crossing) =
      min (2 ^ 32 - 1) (s.get (R.SQL_TRANS_COUNT Unit.crossing) + 1) % 2 ^ 32 := get_put_same s _ _ (by decide)
  unfold State.get at hl ⊢
  rw [log_reg _ _ _ _ _ _ _ _ (by decide) (by decide) (by decide), hl]
  exact Nat.mod_eq_of_lt (by omega)

/-- A second parity error fences the crossing, and leaves the island on its sending side in Lull. -/
theorem island_fenceCrossing (s : State) (i param : Nat) (hi : i ≠ 2) : (s.fenceCrossing i param).island i = .lull := by
  unfold State.fenceCrossing
  extract_lets
  rw [if_neg hi, island_setIsland, if_pos rfl]

/-- What is offered to a fenced crossing is discarded. -/
theorem exec_crossingParityError_fenced {s : State} {i : Island} (h : s.isFenced Unit.crossing i = true) (op : CrossingOp)
    (again : Bool) : exec (.crossingParityError i op again) s = .next (s.failEntry op) := by
  simp [exec, execCrossingParityError, h]

/-- A first parity error is a transient of the crossing. -/
theorem exec_crossingParityError_first {s : State} {i : Island} (h : s.isFenced Unit.crossing i = false) (op : CrossingOp) :
    exec (.crossingParityError i op false) s = .next (s.spent.retried Unit.crossing i 11 (s.crossingParam op)) := by
  simp [exec, execCrossingParityError, h]

/-- A second one fails the entry and fences the crossing. -/
theorem exec_crossingParityError_again {s : State} {i : Island} (h : s.isFenced Unit.crossing i = false) (op : CrossingOp) :
    exec (.crossingParityError i op true) s = .next ((s.failEntry op).spent.fenceCrossing i (s.crossingParam op)) := by
  simp [exec, execCrossingParityError, h]

end Sys2Proof.Laws
end

section
/-! The statement of chapter 1 about islands and crossings. -/

namespace Sys2Proof.Proofs

open Sys2Proof Sys2Proof.Machine Sys2Proof.Safety Sys2Proof.Laws

/-- Settles O8: each of the four events of an island sets that island's state, and a parity error is a transient, a fence or a discarded
entry. -/
theorem islandsSleepWakeAndAreFenced : Obligations.IslandsSleepWakeAndAreFenced := by
  refine ⟨fun s i => ⟨fun ha hw => ?entry, fun hl hg ht ha hi => ?wake, fun c hw ha hi => ?done, fun k hl hg ht ha hp => ?prewake⟩,
    fun s i op => ⟨fun h => ?first, fun h hi => ?second, fun h who a n again => ?fenced⟩⟩
  case entry =>
    obtain ⟨hi, hj, hs⟩ := setIsland_only s i .lull
    exact ⟨_, exec_lullEntry ha hw, hi, hj, hs, fun f hf => setIsland_lullBit s i .lull f hf⟩
  case wake =>
    obtain ⟨hi', hj, hs⟩ := setIsland_only s i (.waking s.cycle)
    exact ⟨_, (exec_lullWake_access ha hi).trans (congrArg _ (wake_eq_setIsland hl hg ht)), hi', hj, hs⟩
  case done =>
    obtain ⟨hi', hj, hs⟩ := setIsland_only s i .awake
    exact ⟨_, exec_lullWakeDone hw ha hi, hi', hj, hs, fun f hf => setIsland_lullBit s i .awake f hf⟩
  case prewake =>
    obtain ⟨hi', _, hs⟩ := setIsland_only s (41 + k.val) (.waking s.cycle)
    exact ⟨_, (exec_clusterPrewake ha hp).trans (congrArg _ (wake_eq_setIsland hl hg ht)), hi', hs⟩
  case first =>
    obtain ⟨q, hq⟩ := retried_crossing s.spent i 11 (s.crossingParam op)
    refine ⟨_, (exec_crossingParityError_first h op).trans (congrArg _ hq), ?_, ?_, ?_⟩
    · exact get_log_transCount s.spent _ _ _ _ _
    · exact log_mem _ _ _ _ _ _ _
    · exact log_islands _ _ _ _ _ _ _
  case second => exact ⟨_, exec_crossingParityError_again h op, island_fenceCrossing _ _ _ hi⟩
  case fenced =>
    exact ⟨⟨_, exec_crossingParityError_fenced h _ again, rfl⟩, ⟨_, exec_crossingParityError_fenced h _ again, rfl⟩,
      ⟨_, exec_crossingParityError_fenced h _ again, rfl⟩, ⟨_, exec_crossingParityError_fenced h _ again, rfl⟩⟩

end Sys2Proof.Proofs
end

section
/-! SUPPORT. The command engine of the relay (R72 to R75, R84 to R86, R97): the state that a command runs in, what each command does to the
tables, and what the engine's registers show at its end. -/

namespace Sys2Proof.Laws

open Sys2Proof Sys2Proof.Machine Sys2Proof.Safety

/-! ### Memory -/

theorem leVal_lt (bs : List Byte) : leVal bs < 256 ^ bs.length := by
  induction bs with
  | nil => simp [leVal]
  | cons b bs ih =>
    have hb : b.toNat < 256 := b.isLt
    simp only [leVal, List.length_cons, pow_succ]
    omega

theorem le_lt (s : State) (a n : Nat) : s.le a n < 256 ^ n := by
  simpa [State.le] using leVal_lt (s.bytes a n)

/-- Every address of HBM names memory. -/
theorem addressExists_hbm {a n : Nat} (h : a + n ≤ hbmBytes) : ∀ k, k < n → addressExists (a + k) = true := by
  intro k hk
  have : a + k < hbmBytes := by omega
  simp [addressExists, this]

/-- A store adds no poison mark. -/
theorem setBytes_poison {s : State} (hp : s.poison = []) (a : Nat) (bs : List Byte) : (s.setBytes a bs).poison = [] := by
  unfold State.setBytes
  rw [storeBytes_frame]
  simp [State.unmark, hp]

/-- A one-octet field reads as the number that was stored, where an octet holds it. -/
theorem le_setLe_octet {s : State} (hp : s.poison = []) {a v : Nat} (ha : a < hbmBytes) (hv : v < 256) :
    (s.setLe a 1 v).le a 1 = v := by
  rw [le_setLe s a 1 v hp (addressExists_hbm ha), Nat.mod_eq_of_lt (by omega)]

/-- A store changes memory only where it stores. -/
theorem sameMemoryBut_setBytes (s : State) (a : Nat) (bs : List Byte) : SameMemoryBut s (s.setBytes a bs) a bs.length := by
  intro p hp
  exact byte_setBytes_outside s a bs p (by omega)

theorem sameMemoryBut_setLe (s : State) (a n v : Nat) : SameMemoryBut s (s.setLe a n v) a n := by
  simpa [State.setLe] using sameMemoryBut_setBytes s a (leBytes n v)

/-- Two stores that follow each other in memory change the run that they make up. -/
theorem sameMemoryBut_append {s t u : State} {a m n : Nat} (h : SameMemoryBut s t a m) (k : SameMemoryBut t u (a + m) n) :
    SameMemoryBut s u a (m + n) := fun p hp => (k p (by omega)).trans (h p (by omega))

/-- What differs from a state beside memory has changed the memory no further. -/
theorem sameMemoryBut_of_mem {s t u : State} {a n : Nat} (h : SameMemoryBut s t a n) (hm : u.mem = t.mem) : SameMemoryBut s u a n := by
  intro p hp
  rw [← h p hp, State.byte, hm, State.byte]

@[simp] theorem withRly_mem (s : State) (f : Relay → Relay) : (s.withRly f).mem = s.mem := rfl
@[simp] theorem withRly_le (s : State) (f : Relay → Relay) (a n : Nat) : (s.withRly f).le a n = s.le a n := rfl

/-! ### Reading after a write of another register -/

theorem pair_put_ne (s : State) (f lo hi : Fld) (v : Nat) (hl : lo.addr ≠ f.addr) (hh : hi.addr ≠ f.addr) :
    (s.put f v).pair lo hi = s.pair lo hi := by
  simp only [State.pair, get_put_ne s f lo v hl, get_put_ne s f hi v hh]

theorem dataAddr_ne_of_lt (i a : Nat) (h : a < 0x200140) : (R.RLY_FCT_DATA_DATA i).addr ≠ a := by
  simp only [R.RLY_FCT_DATA_DATA]
  omega

/-! ### The engine while a command runs (R72) -/

/-- The state that a command of the engine runs in: BUSY is 1. -/
def fctBusy (s : State) : State := s.putBit R.RLY_FCT_RESULT_BUSY true

@[simp] theorem fctBusy_rly (s : State) : (fctBusy s).rly = s.rly := rfl
@[simp] theorem fctBusy_le (s : State) (a n : Nat) : (fctBusy s).le a n = s.le a n := rfl
@[simp] theorem fctBusy_versionsOf (s : State) (n : Nat) : (fctBusy s).versionsOf n = s.versionsOf n := rfl
@[simp] theorem fctBusy_fctWord (s : State) (i : Nat) : (fctBusy s).fctWord i = s.fctWord i :=
  get_put_ne s _ _ _ (dataAddr_ne_of_lt i _ (by decide))

@[simp] theorem fctBusy_fctWindow (s : State) : (fctBusy s).fctWindow = s.fctWindow :=
  congrArg (List.flatMap · (List.range 16)) (funext fun i => congrArg (leBytes 4) (fctBusy_fctWord s i))

@[simp] theorem fctBusy_streamAddr (s : State) (n : Nat) : (fctBusy s).streamAddr n = s.streamAddr n :=
  congrArg (· + n * 128) (pair_put_ne s _ _ _ _ (by decide) (by decide))

@[simp] theorem fctBusy_rstateAddr (s : State) (r : Nat) : (fctBusy s).rstateAddr r = s.rstateAddr r :=
  congrArg (· + r * 16) (pair_put_ne s _ _ _ _ (by decide) (by decide))

/-- The state after a command with operation `op` has taken effect: its outcome waits for FCT_COMMAND_DONE (R73). -/
def jobStarted (op : Nat) (r : State × FctJob) : State := r.1.withRly fun x => { x with job := some { r.2 with op := op } }

@[simp] theorem jobStarted_job (op : Nat) (r : State × FctJob) : (jobStarted op r).rly.job = some { r.2 with op := op } := rfl
@[simp] theorem jobStarted_mem (op : Nat) (r : State × FctJob) : (jobStarted op r).mem = r.1.mem := rfl
@[simp] theorem jobStarted_bytes (op : Nat) (r : State × FctJob) (a n : Nat) : (jobStarted op r).bytes a n = r.1.bytes a n := rfl
@[simp] theorem jobStarted_le (op : Nat) (r : State × FctJob) (a n : Nat) : (jobStarted op r).le a n = r.1.le a n := rfl
@[simp] theorem jobStarted_down (op : Nat) (r : State × FctJob) : (jobStarted op r).rly.down = r.1.rly.down := rfl
@[simp] theorem jobStarted_cache (op : Nat) (r : State × FctJob) : (jobStarted op r).rly.cache = r.1.rly.cache := rfl
@[simp] theorem jobStarted_get (op : Nat) (r : State × FctJob) (f : Fld) : (jobStarted op r).get f = r.1.get f := rfl
@[simp] theorem jobStarted_isSet (op : Nat) (r : State × FctJob) (f : Fld) : (jobStarted op r).isSet f = r.1.isSet f := rfl

@[simp] theorem jobStarted_versionsOf (op : Nat) (r : State × FctJob) (n : Nat) :
    (jobStarted op r).versionsOf n = r.1.versionsOf n := rfl

theorem startJob_eq (s : State) (op : Nat) (run : State → State × FctJob) : s.startJob op run = jobStarted op (run (fctBusy s)) := rfl

/-- Who commands: the holder of the engine's port, which is idle, where the access of FCT_CMD takes place (R72). -/
structure Commands (s : State) (who : Sender) : Prop where
  serves : Serves s who R.RLY_FCT_CMD_OP.addr
  holds : s.holds fctPort who = true
  idle : s.isSet R.RLY_FCT_RESULT_BUSY = false

theorem Commands.fctIssue {s : State} {who : Sender} (h : Commands s who) (op : Nat) :
    s.fctIssue who op = jobStarted op ((fctBusy s).runFct op) := by
  simp [State.fctIssue, State.fctCommand, h.holds, h.idle, startJob_eq]

/-- A command whose access takes place is issued. -/
theorem Commands.access {s : State} {who : Sender} (h : Commands s who) (op : Nat) :
    s.access who R.RLY_FCT_CMD_OP.addr (fun s => .next (s.fctIssue who op)) = .next (jobStarted op ((fctBusy s).runFct op)) :=
  (access_served h.serves).trans (congrArg _ (h.fctIssue op))

theorem Commands.exec_routeCommit {s : State} {who : Sender} (h : Commands s who) :
    exec (.routeCommit who) s =
      .next (jobStarted 5 ((fctBusy s).routeCommit (s.fctWord 0 % 65536) (s.fctWord 1 + s.fctWord 2 % 16 * 2 ^ 32))) := by
  refine (h.access 5).trans ?_
  simp [State.runFct]

theorem Commands.exec_select {s : State} {who : Sender} (h : Commands s who) :
    exec (.select who) s = .next (jobStarted 6
      ((fctBusy s).changeSelect (s.fctWord 0 % 2 ^ 20) none (s.fctWord 1 % 256) ((s.fctWord 1).testBit 8))) := by
  refine (h.access 6).trans ?_
  simp [State.runFct]

theorem Commands.exec_stateWrite {s : State} {who : Sender} (h : Commands s who) :
    exec (.stateWrite who) s = .next (jobStarted 7
      ((fctBusy s).changeSelect (s.fctWord 0 % 2 ^ 20) (some (slice s.fctWindow 4 20)) 0 false)) := by
  refine (h.access 7).trans ?_
  simp [State.runFct]

/-! ### Routes (R85, R86) -/

/-- A descriptor that may be committed for a stream: it is aligned, not over long, and names the stream. -/
structure DescriptorOf (s : State) (n ptr : Nat) : Prop where
  present : ptr ≠ 0
  aligned : ptr % 64 = 0
  count : s.le ptr 2 ≤ 16640
  names : s.le (ptr + 2) 2 = n

/-- A stream with four versions that have not retired takes no fifth. -/
theorem routeCommit_full {s : State} {n ptr : Nat} (h : DescriptorOf s n ptr) (hv : 4 ≤ (s.versionsOf n).length) :
    s.routeCommit n ptr = (s, outcome FctResult.busy) := by
  have hc : ¬ 16640 < s.le ptr 2 := by have := h.count; omega
  simp [State.routeCommit, h.aligned, h.names, hc, hv]

/-- The state with a route's pointer and version in the stream's entry. -/
def routeStored (s : State) (n ptr ver : Nat) : State := (s.setLe (s.streamAddr n) 8 ptr).setLe (s.streamAddr n + 8) 2 ver

theorem setLe_rly (s : State) (a n v : Nat) : (s.setLe a n v).rly = s.rly := by
  unfold State.setLe
  rw [setBytes_frame]

theorem routeStored_rly (s : State) (n ptr ver : Nat) : (routeStored s n ptr ver).rly = s.rly :=
  (setLe_rly _ _ _ _).trans (setLe_rly _ _ _ _)

theorem versionsOf_setVersions (s : State) (n : Nat) (l : List RouteVersion) : (s.setVersions n l).versionsOf n = l :=
  get_set_same [] s.rly.versions n l

/-- Otherwise the route is stored, and its version is the stream's latest. -/
theorem routeCommit_stores {s : State} {n ptr : Nat} (h : DescriptorOf s n ptr) (hv : (s.versionsOf n).length < 4) :
    s.routeCommit n ptr =
      (((routeStored s n ptr (s.le (ptr + 4) 2)).withRly fun r => { r with nextId := s.rly.nextId + 1 }).setVersions n
        (s.versionsOf n ++ [⟨s.rly.nextId, ptr, s.le (ptr + 4) 2, 0⟩]), outcome FctResult.done) := by
  have hc : ¬ 16640 < s.le ptr 2 := by have := h.count; omega
  have hn := routeStored_rly s n ptr (s.le (ptr + 4) 2)
  simp only [routeStored] at hn ⊢
  simp [State.routeCommit, h.present, h.aligned, h.names, hc, hv, hn]

/-- What is stored of a route reads back, and nothing else of the memory changes. -/
theorem routeStored_reads {s : State} (hp : s.poison = []) {n ptr ver : Nat} (ha : s.streamAddr n + 128 ≤ hbmBytes)
    (hptr : ptr < 2 ^ 64) (hver : ver < 2 ^ 16) :
    (routeStored s n ptr ver).le (s.streamAddr n) 8 = ptr ∧ (routeStored s n ptr ver).le (s.streamAddr n + 8) 2 = ver ∧
      SameMemoryBut s (routeStored s n ptr ver) (s.streamAddr n) 10 := by
  refine ⟨?_, ?_, sameMemoryBut_append (sameMemoryBut_setLe _ _ 8 _) (sameMemoryBut_setLe _ _ 2 _)⟩
  · refine (le_setBytes_outside _ _ _ _ _ (.inl (Nat.le_refl _))).trans ?_
    rw [le_setLe s _ 8 ptr hp (addressExists_hbm (by omega))]
    exact Nat.mod_eq_of_lt hptr
  · refine (le_setLe _ _ 2 ver (setBytes_poison hp _ _) (addressExists_hbm (by omega))).trans ?_
    exact Nat.mod_eq_of_lt hver

/-! ### Selections (R39, R84) -/

/-- The state with these changes of selections waiting. -/
def withSelects (s : State) (l : List SelectChange) : State := s.withRly fun x => { x with selects := l }

theorem withSelects_self {s : State} {l : List SelectChange} (h : s.rly.selects = l) : withSelects s l = s := by
  subst h
  rfl

theorem changeSelect_eq {s : State} (hs : s.rly.selects = []) (r : Nat) (bytes : Option (List Byte)) (sel : Nat) (exact : Bool) :
    s.changeSelect r bytes sel exact =
      ((withSelects s [⟨r, s.boundTo r, bytes, sel, exact⟩]).settleSelects, outcome FctResult.done) := by
  simp [State.changeSelect, withSelects, State.withRly, hs]

/-- A change that waits goes on waiting. -/
theorem settleSelects_waits {s : State} {c : SelectChange} (h : s.selectWaits c = true) :
    (withSelects s [c]).settleSelects = withSelects s [c] := by
  have hw : (withSelects s [c]).selectWaits c = true := h
  have hc : (withSelects s [c]).rly.selects = [c] := rfl
  simp only [State.settleSelects, hc, List.filter_cons, hw, List.filter_nil]
  rfl

/-- A change that waits for nothing is applied, and waits no more. -/
theorem settleSelects_applies {s : State} {c : SelectChange} (h : s.selectWaits c = false) :
    (withSelects s [c]).settleSelects = (withSelects s []).applySelect c := by
  have hw : (withSelects s [c]).selectWaits c = false := h
  have hc : (withSelects s [c]).rly.selects = [c] := rfl
  simp only [State.settleSelects, hc, List.filter_cons, hw, List.filter_nil]
  rfl

/-- With a packet still to be judged by the receiver state, the change waits. -/
theorem changeSelect_waits {s : State} {r : Nat} (hs : s.rly.selects = []) (hb : s.boundTo r ≠ []) (bytes : Option (List Byte))
    (sel : Nat) (exact : Bool) :
    s.changeSelect r bytes sel exact = (withSelects s [⟨r, s.boundTo r, bytes, sel, exact⟩], outcome FctResult.done) := by
  have hw : s.selectWaits ⟨r, s.boundTo r, bytes, sel, exact⟩ = true := by
    obtain ⟨p, ps, hp⟩ := List.exists_cons_of_ne_nil hb
    simp [State.selectWaits, hp]
  rw [changeSelect_eq hs, settleSelects_waits hw]

/-- With no such packet it takes effect at once. -/
theorem changeSelect_applies {s : State} {r : Nat} (hs : s.rly.selects = []) (hb : s.boundTo r = []) (bytes : Option (List Byte))
    (sel : Nat) (exact : Bool) :
    s.changeSelect r bytes sel exact = (s.applySelect ⟨r, [], bytes, sel, exact⟩, outcome FctResult.done) := by
  have hw : s.selectWaits ⟨r, [], bytes, sel, exact⟩ = false := by simp [State.selectWaits, hb]
  rw [changeSelect_eq hs, hb, settleSelects_applies hw, withSelects_self hs]

theorem applySelect_select (s : State) (r sel : Nat) (after : List Nat) (exact : Bool) :
    s.applySelect ⟨r, after, none, sel, exact⟩ = s.select r sel exact := rfl

theorem applySelect_stateWrite (s : State) (r sel : Nat) (after : List Nat) (bytes : List Byte) (exact : Bool) :
    s.applySelect ⟨r, after, some bytes, sel, exact⟩ = s.stateWrite r bytes := rfl

/-- Bit 1 of an octet, PENDING, cleared. -/
theorem clearBit_pending : ∀ n < 256, clearBit n 1 < 256 ∧ (clearBit n 1).testBit 1 = false := by decide +kernel

/-- Bit 1 of an octet, PENDING, set, and bit 3, EXACT of the pending selection, cleared. -/
theorem setBit_pending : ∀ n < 256, setBit (clearBit n 3) 1 < 256 ∧ (setBit (clearBit n 3) 1).testBit 1 = true := by decide +kernel

/-- A selection of a receiver that has the same one applied: nothing is pending any more. -/
theorem select_applied {s : State} {r sel : Nat} (hx : (s.le (s.rstateAddr r + 2) 1).testBit 2 = false)
    (he : sel = s.le (s.rstateAddr r) 1) :
    s.select r sel false = (s.setLe (s.rstateAddr r + 2) 1 (clearBit (s.le (s.rstateAddr r + 2) 1) 1)).withRly
      fun x => { x with down := SMap.set false x.down r false } := by
  simp [State.select, hx, he]

/-- Whether a selection raises no layer limit over the one applied (R84). -/
def raisesNone (sel old : Nat) : Bool :=
  decide (layerS sel ≤ layerS old) && decide (layerT sel ≤ layerT old) && decide (layerQ sel ≤ layerQ old)

/-- Another selection is stored as the pending one; it takes effect without a switch point where it raises no limit. -/
theorem select_pends {s : State} {r sel : Nat} (hx : (s.le (s.rstateAddr r + 2) 1).testBit 2 = false)
    (he : sel ≠ s.le (s.rstateAddr r) 1) :
    s.select r sel false =
      ((s.setLe (s.rstateAddr r + 1) 1 sel).setLe (s.rstateAddr r + 2) 1 (setBit (clearBit (s.le (s.rstateAddr r + 2) 1) 3) 1)).withRly
        fun x => { x with down := SMap.set false x.down r (raisesNone sel (s.le (s.rstateAddr r) 1)) } := by
  have hd : (!(decide (layerS (s.le (s.rstateAddr r) 1) < layerS sel) || decide (layerT (s.le (s.rstateAddr r) 1) < layerT sel) ||
      decide (layerQ (s.le (s.rstateAddr r) 1) < layerQ sel))) = raisesNone sel (s.le (s.rstateAddr r) 1) := by
    simp only [raisesNone, Bool.not_or, ← decide_not, Nat.not_lt]
  simp [State.select, hx, he, ← hd]

/-- The cancelled selection in memory. -/
theorem cancelled_reads {s : State} (hp : s.poison = []) {a : Nat} (ha : a + 16 ≤ hbmBytes) :
    ((s.setLe (a + 2) 1 (clearBit (s.le (a + 2) 1) 1)).le (a + 2) 1).testBit 1 = false ∧
      SameMemoryBut s (s.setLe (a + 2) 1 (clearBit (s.le (a + 2) 1) 1)) (a + 2) 1 := by
  obtain ⟨hl, hb⟩ := clearBit_pending _ (le_lt s (a + 2) 1)
  refine ⟨?_, sameMemoryBut_setLe _ _ _ _⟩
  rw [le_setLe_octet hp (by omega) hl, hb]

/-- The pending selection in memory. -/
theorem pending_reads {s : State} (hp : s.poison = []) {a sel : Nat} (ha : a + 16 ≤ hbmBytes) (hs : sel < 256) :
    let t := (s.setLe (a + 1) 1 sel).setLe (a + 2) 1 (setBit (clearBit (s.le (a + 2) 1) 3) 1)
    t.le (a + 1) 1 = sel ∧ (t.le (a + 2) 1).testBit 1 = true ∧ t.le a 1 = s.le a 1 ∧ SameMemoryBut s t (a + 1) 2 := by
  intro t
  obtain ⟨hl, hb⟩ := setBit_pending _ (le_lt s (a + 2) 1)
  have hp' : (s.setLe (a + 1) 1 sel).poison = [] := setBytes_poison hp _ _
  refine ⟨?_, ?_, ?_, sameMemoryBut_append (sameMemoryBut_setLe _ _ 1 _) (sameMemoryBut_setLe _ _ 1 _)⟩
  · exact (le_setBytes_outside _ _ _ _ _ (.inl (Nat.le_refl _))).trans (le_setLe_octet hp (by omega) hs)
  · rw [show t.le (a + 2) 1 = _ from le_setLe_octet hp' (by omega) hl, hb]
  · exact (le_setBytes_outside _ _ _ _ _ (.inl (by omega))).trans (le_setBytes_outside _ _ _ _ _ (.inl (Nat.le_refl _)))

theorem fctWindow_length (s : State) : s.fctWindow.length = 64 := by simp [State.fctWindow, List.length_flatMap]

theorem slice_length {bs : List Byte} {a b : Nat} (h : b ≤ bs.length) : (slice bs a b).length = b - a := by
  simp [slice, h]

/-- A receiver's state that STATE_WRITE stores reads back. -/
theorem stateWrite_reads {s : State} (hp : s.poison = []) {r : Nat} {bs : List Byte} (hl : bs.length = 16)
    (ha : s.rstateAddr r + 16 ≤ hbmBytes) :
    (s.stateWrite r bs).bytes (s.rstateAddr r) 16 = bs ∧ SameMemoryBut s (s.stateWrite r bs) (s.rstateAddr r) 16 ∧
      SMap.get false (s.stateWrite r bs).rly.down r = false := by
  refine ⟨?_, ?_, ?_⟩
  · have := bytes_setBytes s (s.rstateAddr r) bs hp (addressExists_hbm (hl ▸ ha))
    rwa [hl] at this
  · have := sameMemoryBut_setBytes s (s.rstateAddr r) bs
    rwa [hl] at this
  · exact get_set_same false (s.setBytes (s.rstateAddr r) bs).rly.down r false

/-! ### The end of a command (R72, R73) -/

/-- The engine's result register at a command's end. -/
def resultShown (s : State) (j : FctJob) : State :=
  ((((s.withRly fun r => { r with job := none }).putBit R.RLY_FCT_RESULT_BUSY false).put R.RLY_FCT_RESULT_RESULT j.result).put
    R.RLY_FCT_RESULT_BUCKET j.bucket).put R.RLY_FCT_RESULT_WAY j.way

/-- Its fields show the job's end and its outcome. -/
theorem resultShown_reads (s : State) {j : FctJob} (hr : j.result < 6) (hb : j.bucket < 2) (hw : j.way < 4) :
    (resultShown s j).isSet R.RLY_FCT_RESULT_BUSY = false ∧ (resultShown s j).get R.RLY_FCT_RESULT_RESULT = j.result ∧
      (resultShown s j).get R.RLY_FCT_RESULT_BUCKET = j.bucket ∧ (resultShown s j).get R.RLY_FCT_RESULT_WAY = j.way := by
  unfold resultShown
  refine ⟨?_, ?_, ?_, ?_⟩
  · rw [isSet_put_apart _ _ _ _ (by decide) (by decide), isSet_put_apart _ _ _ _ (by decide) (by decide),
      isSet_put_apart _ _ _ _ (by decide) (by decide)]
    exact isSet_putBit_same _ _ false (by decide) rfl
  · rw [get_put_apart _ _ _ _ (by decide) (by decide), get_put_apart _ _ _ _ (by decide) (by decide),
      get_put_same _ R.RLY_FCT_RESULT_RESULT _ (by decide)]
    exact Nat.mod_eq_of_lt (Nat.lt_of_lt_of_le hr (by decide))
  · rw [get_put_apart _ _ _ _ (by decide) (by decide), get_put_same _ R.RLY_FCT_RESULT_BUCKET _ (by decide)]
    exact Nat.mod_eq_of_lt hb
  · rw [get_put_same _ R.RLY_FCT_RESULT_WAY _ (by decide)]
    exact Nat.mod_eq_of_lt hw

/-- A register other than RLY_FCT_RESULT is as before. -/
theorem resultShown_get (s : State) (j : FctJob) (f : Fld) (h : f.addr ≠ R.RLY_FCT_RESULT_BUSY.addr) :
    (resultShown s j).get f = s.get f := by
  unfold resultShown
  rw [get_put_ne _ R.RLY_FCT_RESULT_WAY f _ h, get_put_ne _ R.RLY_FCT_RESULT_BUCKET f _ h,
    get_put_ne _ R.RLY_FCT_RESULT_RESULT f _ h]
  exact get_put_ne _ R.RLY_FCT_RESULT_BUSY f _ h

/-- The first `n` words of the command window hold the octets `d` of an entry. -/
def wordsShown (s : State) (d : List Byte) (n : Nat) : State :=
  (List.range n).foldl (fun (s : State) i => s.put (R.RLY_FCT_DATA_DATA i) (leVal (slice d (4 * i) (4 * i + 4)))) s

theorem wordsShown_succ (s : State) (d : List Byte) (n : Nat) :
    wordsShown s d (n + 1) = (wordsShown s d n).put (R.RLY_FCT_DATA_DATA n) (leVal (slice d (4 * n) (4 * n + 4))) := by
  simp [wordsShown, List.range_succ]

/-- They change registers alone. -/
theorem wordsShown_frame (s : State) (d : List Byte) (n : Nat) : wordsShown s d n = { s with regs := (wordsShown s d n).regs } := by
  induction n with
  | zero => rfl
  | succ n ih =>
    rw [wordsShown_succ, ih]
    rfl

/-- A field of another register than those of the command window. -/
abbrev offWindow (f : Fld) : Prop := ∀ i < 16, f.addr ≠ (R.RLY_FCT_DATA_DATA i).addr

/-- A register off the window is as before. -/
theorem wordsShown_get (s : State) (d : List Byte) (n : Nat) (hn : n ≤ 16) (f : Fld) (h : offWindow f) :
    (wordsShown s d n).get f = s.get f := by
  induction n with
  | zero => rfl
  | succ n ih => rw [wordsShown_succ, get_put_ne _ _ _ _ (h n (by omega)), ih (by omega)]

/-- A word of the window reads as its octets of the entry. -/
theorem wordsShown_fctWord (s : State) (d : List Byte) (n i : Nat) (h : i < n) :
    (wordsShown s d n).fctWord i = leVal (slice d (4 * i) (4 * i + 4)) := by
  induction n with
  | zero => omega
  | succ n ih =>
    rw [wordsShown_succ]
    unfold State.fctWord at ih ⊢
    by_cases hn : i = n
    · subst hn
      rw [get_put_same _ _ _ (by simp [R.RLY_FCT_DATA_DATA])]
      have hl := leVal_lt (slice d (4 * i) (4 * i + 4))
      have hs : (slice d (4 * i) (4 * i + 4)).length ≤ 4 := by simp [slice]; omega
      exact Nat.mod_eq_of_lt (Nat.lt_of_lt_of_le hl (Nat.pow_le_pow_right (by decide) hs))
    · rw [get_put_ne _ _ _ _ (by simp only [R.RLY_FCT_DATA_DATA]; omega), ih (by omega)]

/-- The command window at a command's end: an entry that it has found, or what stood there. -/
def windowShown (s : State) (j : FctJob) : State :=
  match j.data with
  | some d => wordsShown s d 16
  | none => s

theorem windowShown_frame (s : State) (j : FctJob) : windowShown s j = { s with regs := (windowShown s j).regs } := by
  unfold windowShown
  split
  · exact wordsShown_frame s _ 16
  · rfl

theorem windowShown_get (s : State) (j : FctJob) (f : Fld) (h : offWindow f) : (windowShown s j).get f = s.get f := by
  unfold windowShown
  split
  · exact wordsShown_get s _ 16 le_rfl f h
  · rfl


/-- The state at a command's end: a CLEAR's end makes FCT_READY follow HBM's readiness. -/
def commandEnded (s : State) (j : FctJob) : State :=
  let t := windowShown (resultShown s j) j
  if j.op = 8 then t.putBit R.RLY_STATUS_FCT_READY (t.isSet R.BPM_STATUS_H_READY) else t

theorem commandEnded_mem (s : State) (j : FctJob) : (commandEnded s j).mem = s.mem := by
  have h : (windowShown (resultShown s j) j).mem = s.mem := by
    rw [windowShown_frame]
    rfl
  unfold commandEnded
  dsimp only
  split <;> exact h

theorem commandEnded_ctr (s : State) (j : FctJob) : (commandEnded s j).ctr = s.ctr := by
  have h : (windowShown (resultShown s j) j).ctr = s.ctr := by
    rw [windowShown_frame]
    rfl
  unfold commandEnded
  dsimp only
  split <;> exact h

theorem commandEnded_rly (s : State) (j : FctJob) : (commandEnded s j).rly = { s.rly with job := none } := by
  have h : (windowShown (resultShown s j) j).rly = { s.rly with job := none } := by
    rw [windowShown_frame]
    rfl
  unfold commandEnded
  dsimp only
  split <;> exact h

/-- A register off the window, other than STATUS, shows what the end of the command made of it. -/
theorem commandEnded_get (s : State) (j : FctJob) (f : Fld) (h : offWindow f) (hf : f.addr ≠ R.RLY_STATUS_FCT_READY.addr) :
    (commandEnded s j).get f = (resultShown s j).get f := by
  unfold commandEnded
  dsimp only
  split
  · exact (get_put_ne _ R.RLY_STATUS_FCT_READY f _ hf).trans (windowShown_get _ j f h)
  · exact windowShown_get _ j f h

/-- The window shows the entry of a LOOKUP. -/
theorem commandEnded_fctWord (s : State) {j : FctJob} {d : List Byte} (hd : j.data = some d) (i : Fin 16) :
    (commandEnded s j).fctWord i = leVal (slice d (4 * i) (4 * i + 4)) := by
  have hw : windowShown (resultShown s j) j = wordsShown (resultShown s j) d 16 := by
    unfold windowShown
    rw [hd]
  unfold commandEnded
  rw [hw]
  dsimp only
  split
  · exact (get_put_ne _ _ _ _ (dataAddr_ne_of_lt i _ (by decide))).trans (wordsShown_fctWord _ d 16 i i.isLt)
  · exact wordsShown_fctWord _ d 16 i i.isLt

/-- The end of a CLEAR makes FCT_READY follow HBM's readiness. -/
theorem commandEnded_fctReady (s : State) {j : FctJob} (h : j.op = 8) :
    (commandEnded s j).isSet R.RLY_STATUS_FCT_READY = s.isSet R.BPM_STATUS_H_READY := by
  have hr : (windowShown (resultShown s j) j).isSet R.BPM_STATUS_H_READY = s.isSet R.BPM_STATUS_H_READY := by
    unfold State.isSet
    rw [windowShown_get _ _ _ (by decide), resultShown_get _ _ _ (by decide)]
  unfold commandEnded
  rw [if_pos h, hr]
  exact isSet_putBit_same _ _ _ (by decide) rfl

theorem exec_fctCommandDone {s : State} {j : FctJob} (hj : s.rly.job = some j) (hc : s.rly.clearPending = false) :
    exec .fctCommandDone s = .next (commandEnded s j) := by
  have hp : (commandEnded s j).rly.clearPending = false := by
    rw [commandEnded_rly]
    exact hc
  have he : exec .fctCommandDone s =
      .next (if (commandEnded s j).rly.clearPending then (commandEnded s j).startClear else commandEnded s j) := by
    simp only [exec, execFctCommandDone, hj]
    rfl
  rw [he, hp]
  rfl

/-! ### CLEAR (R72, R73, R97) -/

/-- Entries lose VALID in memory. -/
theorem clearValid_frame (s : State) (l : List Nat) : s.clearValid l = { s with mem := (s.clearValid l).mem } := by
  induction l generalizing s with
  | nil => rfl
  | cons a l ih =>
    show (s.setByte a (s.byte a &&& 0xFE)).clearValid l = { s with mem := ((s.setByte a (s.byte a &&& 0xFE)).clearValid l).mem }
    rw [ih, setByte_frame]

/-- Registers that two states have in common read the same. -/
theorem get_of_regs {s t : State} (h : t.regs = s.regs) (f : Fld) : t.get f = s.get f := by simp only [State.get, State.reg, h]

/-- CLEAR empties the cache and takes FCT_READY away; no other register changes. -/
theorem fctClear_eq (s : State) : ∃ u : State, u.regs = s.regs ∧ u.rly.cache = [] ∧
    s.fctClear = (u.putBit R.RLY_STATUS_FCT_READY false, outcome FctResult.done) := by
  refine ⟨_, ?_, ?_, rfl⟩
  · rw [clearValid_frame]
    rfl
  · rfl

theorem exec_hashSeedWrite_idle {s : State} {who : Sender} {v : Word} (hs : Serves s who R.RLY_HASH_SEED_SEED.addr)
    (hv : v.toNat ≠ s.get R.RLY_HASH_SEED_SEED) (he : s.isSet R.RLY_CTRL_ENABLE = false)
    (hb : s.isSet R.RLY_FCT_RESULT_BUSY = false) :
    exec (.hashSeedWrite who v) s = .next (s.put R.RLY_HASH_SEED_SEED v.toNat).startClear := by
  have hb' : (s.put R.RLY_HASH_SEED_SEED v.toNat).isSet R.RLY_FCT_RESULT_BUSY = false := by
    rw [isSet_put_apart _ _ _ _ (by decide) (by decide), hb]
  simp [exec, execHashSeedWrite, access_served hs, he, State.writeSeed, hv, hb']

theorem exec_hashSeedWrite_enabled {s : State} {who : Sender} {v : Word} (hs : Serves s who R.RLY_HASH_SEED_SEED.addr)
    (hv : v.toNat ≠ s.get R.RLY_HASH_SEED_SEED) (he : s.isSet R.RLY_CTRL_ENABLE = true) :
    exec (.hashSeedWrite who v) s =
      .next ((s.putBit R.RLY_STATUS_CFG_IGNORED true).log Unit.rly 8 Sev.note Ev.cfgIgnored 0x18 v.toNat) := by
  simp [exec, execHashSeedWrite, access_served hs, he, hv]

/-- A CLEAR that starts: BUSY is 1, FCT_READY 0, the cache empty; registers other than these two are as before. -/
theorem startClear_reads (s : State) :
    s.startClear.isSet R.RLY_FCT_RESULT_BUSY = true ∧ s.startClear.isSet R.RLY_STATUS_FCT_READY = false ∧
      s.startClear.rly.cache = [] ∧ s.startClear.rly.job = some ⟨8, FctResult.done, 0, 0, none⟩ ∧
      ∀ f : Fld, f.addr ≠ R.RLY_FCT_RESULT_BUSY.addr → f.addr ≠ R.RLY_STATUS_FCT_READY.addr → s.startClear.get f = s.get f := by
  obtain ⟨u, hu, hc, hr⟩ := fctClear_eq (fctBusy (s.withRly fun r => { r with clearPending := false }))
  have he : s.startClear = jobStarted 8 (u.putBit R.RLY_STATUS_FCT_READY false, outcome FctResult.done) := congrArg (jobStarted 8) hr
  have hg (f : Fld) (h : f.addr ≠ R.RLY_STATUS_FCT_READY.addr) : s.startClear.get f = (fctBusy s).get f := by
    rw [he, jobStarted_get]
    exact (get_put_ne u R.RLY_STATUS_FCT_READY f _ h).trans (get_of_regs hu f)
  refine ⟨?_, ?_, ?_, ?_, fun f h1 h2 => (hg f h2).trans (get_put_ne s R.RLY_FCT_RESULT_BUSY f _ h1)⟩
  · rw [State.isSet, hg _ (by decide)]
    exact isSet_putBit_same s R.RLY_FCT_RESULT_BUSY true (by decide) rfl
  · rw [he, jobStarted_isSet]
    exact isSet_putBit_same u R.RLY_STATUS_FCT_READY false (by decide) rfl
  · rw [he, jobStarted_cache]
    exact hc
  · rw [he]
    rfl

/-- An entry of the log is no event of the relay. -/
theorem log_rly (s : State) (unit inst sev event p0 p1 : Nat) : (s.log unit inst sev event p0 p1).rly = s.rly := by
  refine log_leaves (fun t => t.rly) s unit inst sev event p0 p1 rfl (fun e => ?_) (fun t => ?_) fun t => rfl
  · dsimp only [State.writeEntry]
    split <;> rfl
  · rw [devEvent_frame]

/-! ### Ageing (R74, R75, R93) -/

theorem setQueue_mem (s : State) (n : Nat) (q : StreamQueue) : (s.setQueue n q).mem = s.mem := by
  rw [State.setQueue, put_mem, put_mem, putBit_mem, putBit_mem]

theorem judgeOrder_mem (s : State) (n : Nat) : (s.judgeOrder n).mem = s.mem := by
  unfold State.judgeOrder
  dsimp only
  split_ifs <;> rfl

theorem rewind_mem (s : State) (n : Nat) (eop : Bool) : (s.rewind n eop).mem = s.mem := by
  rw [State.rewind, bump_mem, setQueue_mem]

theorem overrun_mem (s : State) (n : Nat) (w : QWord) : (s.overrun n w).mem = s.mem := by
  rw [State.overrun, bump_mem, rewind_mem, putBit_mem]

/-- A word that a producer writes goes to a queue, not to memory. -/
theorem writeWord_mem (s : State) (n : Nat) (w : QWord) (o : WordOwner) : (s.writeWord n w o).1.mem = s.mem := by
  unfold State.writeWord
  extract_lets q x
  split_ifs <;> simp only [setQueue_mem, rewind_mem, overrun_mem, judgeOrder_mem]

theorem post_mem (s : State) (n prio : Nat) (data : List Byte) : (s.post n prio data).1.mem = s.mem := by
  have h := writeWord_mem s n ⟨data, true, true, false, prio⟩ .entry
  unfold State.post
  split <;> simp_all

theorem excEvent_mem (s : State) (reason : Nat) (tail : List Byte) : (s.excEvent reason tail).mem = s.mem := by
  unfold State.excEvent
  dsimp only
  split
  · exact post_mem _ _ _ _
  · exact post_mem _ _ _ _

theorem dropCache_mem (s : State) (key : List Byte) : (s.dropCache key).mem = s.mem := by
  unfold State.dropCache
  dsimp only
  split <;> rfl

/-- Some of the octets that are read from an address. -/
theorem slice_bytes (s : State) (a n i j : Nat) (h : j ≤ n) : slice (s.bytes a n) i j = s.bytes (a + i) (j - i) := by
  apply List.ext_getElem
  · simp [slice, h]
  · intro k h1 h2
    simp [slice, State.bytes, Nat.add_assoc]

/-- An entry's first octet is its control octet. -/
theorem fctEntry_head (s : State) (e : Nat) : (s.fctEntry e).headD 0 = s.byte (s.fctBase + e * 64) := by
  simp [State.fctEntry, State.bytes, List.range_succ_eq_map]

/-- The octets of an entry at 0x3C are a field in memory. -/
theorem leVal_slice_fctEntry (s : State) (e : Nat) :
    leVal (slice (s.fctEntry e) 0x3C 0x3E) = s.le (s.fctBase + e * 64 + 0x3C) 2 := by
  rw [State.fctEntry, slice_bytes _ _ _ _ _ (by decide)]
  rfl

/-- The removal of an entry stores its control octet without VALID, and changes no other octet. -/
theorem fctRemove_reads {s : State} (hp : s.poison = []) {e : Nat} (ha : s.fctBase + e * 64 < hbmBytes) :
    (s.fctRemove e).byte (s.fctBase + e * 64) = s.byte (s.fctBase + e * 64) &&& 0xFE ∧
      SameMemoryBut s (s.fctRemove e) (s.fctBase + e * 64) 1 := by
  have hm : (s.fctRemove e).mem = (s.setBytes (s.fctBase + e * 64) [s.byte (s.fctBase + e * 64) &&& 0xFE]).mem := by
    rw [State.fctRemove, dropCache_mem, fctEntry_head]
  have hb (p : Nat) : (s.fctRemove e).byte p = (s.setBytes (s.fctBase + e * 64) [s.byte (s.fctBase + e * 64) &&& 0xFE]).byte p := by
    simp only [State.byte, hm]
  refine ⟨?_, fun p h => (hb p).trans (sameMemoryBut_setBytes s _ _ p h)⟩
  have hs := byte_setBytes_inside s (s.fctBase + e * 64) [s.byte (s.fctBase + e * 64) &&& 0xFE] 0 (by simp) hp
    (addressExists_hbm ha)
  rw [hb]
  simpa only [Nat.add_zero, List.getD_cons_zero] using hs

theorem even_and_0xFE (b : Byte) : (b &&& 0xFE).toNat % 2 = 0 := by
  rw [BitVec.toNat_and]
  exact (Nat.and_mod_two_pow (n := 1)).trans (Nat.and_zero _)

/-- An entry with VALID and AGE_EN that has not been hit for longer than the time-out is removed, and an event posted. -/
theorem exec_ageScan_expired {s : State} {e : Fin 16777216} (hr : s.isSet R.RLY_STATUS_FCT_READY = true)
    (h0 : s.get R.RLY_AGE_TIMEOUT_SECONDS ≠ 0) (hc : (s.byte (s.fctBase + e * 64)).toNat % 4 = 3)
    (ha : s.get R.RLY_AGE_TIMEOUT_SECONDS <
      (s.get R.RLY_AGE_CLOCK_SECONDS + 65536 - s.le (s.fctBase + e * 64 + 0x3C) 2) % 65536) :
    exec (.ageScan e) s = .next ((s.fctRemove e).excEvent 0x20 (leBytes 4 e ++ leBytes 4 0)) := by
  have hv : (s.byte (s.fctBase + e * 64)).toNat.testBit 0 = true := by
    rw [Nat.testBit_zero]
    exact decide_eq_true (by omega)
  have hg : (s.byte (s.fctBase + e * 64)).toNat.testBit 1 = true := by
    rw [Nat.testBit_eq_decide_div_mod_eq]
    exact decide_eq_true (by omega)
  simp only [exec, execAgeScan, leVal_slice_fctEntry, fctEntry_head]
  rw [if_pos]
  simp [hr, h0, hv, hg, ha]

theorem exec_ageScan_off {s : State} (e : Fin 16777216) (h : s.get R.RLY_AGE_TIMEOUT_SECONDS = 0) :
    exec (.ageScan e) s = .next s := by
  simp [exec, execAgeScan, h]

end Sys2Proof.Laws
end

section
/-! The statement of chapter 1 about routes, selections and the command engine. -/

namespace Sys2Proof.Proofs

open Sys2Proof Sys2Proof.Machine Sys2Proof.Safety Sys2Proof.Laws

/-- ROUTE_COMMIT for a stream with fewer than four versions. -/
theorem routeCommit_completes {s : State} {who : Sender} (h : Commands s who) (hp : s.poison = []) {n ptr : Nat}
    (hn : n = s.fctWord 0 % 65536) (hptr : ptr = s.fctWord 1 + s.fctWord 2 % 16 * 2 ^ 32) (hd : DescriptorOf s n ptr)
    (ha : s.streamAddr n + 128 ≤ hbmBytes) (hv : (s.versionsOf n).length < 4) :
    Completes (exec (.routeCommit who) s) fun t =>
      t.le (s.streamAddr n) 8 = ptr ∧ t.le (s.streamAddr n + 8) 2 = s.le (ptr + 4) 2 ∧ SameMemoryBut s t (s.streamAddr n) 10 ∧
      t.versionsOf n = s.versionsOf n ++ [⟨s.rly.nextId, ptr, s.le (ptr + 4) 2, 0⟩] ∧
      t.rly.job = some ⟨5, FctResult.done, 0, 0, none⟩ := by
  have hb : DescriptorOf (fctBusy s) n ptr := ⟨hd.present, hd.aligned, hd.count, hd.names⟩
  have hlt : ptr < 2 ^ 64 := by
    have : s.fctWord 1 < 2 ^ 32 := get_lt s (R.RLY_FCT_DATA_DATA 1)
    omega
  obtain ⟨h1, h2, h3⟩ := routeStored_reads (s := fctBusy s) (n := n) (ver := s.le (ptr + 4) 2) hp
    (by rwa [fctBusy_streamAddr]) hlt (le_lt s (ptr + 4) 2)
  rw [fctBusy_streamAddr] at h1 h2 h3
  rw [h.exec_routeCommit, ← hn, ← hptr, routeCommit_stores hb hv, fctBusy_le, fctBusy_versionsOf, fctBusy_rly]
  refine ⟨_, rfl, ?_, ?_, sameMemoryBut_of_mem h3 ?_, ?_, jobStarted_job _ _⟩
  · rw [jobStarted_le, State.setVersions, withRly_le, withRly_le]
    exact h1
  · rw [jobStarted_le, State.setVersions, withRly_le, withRly_le]
    exact h2
  · rw [jobStarted_mem, State.setVersions, withRly_mem, withRly_mem]
  · rw [jobStarted_versionsOf, versionsOf_setVersions]

/-- ROUTE_COMMIT for a stream with four. -/
theorem routeCommit_busy {s : State} {who : Sender} (h : Commands s who) {n ptr : Nat} (hn : n = s.fctWord 0 % 65536)
    (hptr : ptr = s.fctWord 1 + s.fctWord 2 % 16 * 2 ^ 32) (hd : DescriptorOf s n ptr) (hv : 4 ≤ (s.versionsOf n).length) :
    Completes (exec (.routeCommit who) s) fun t =>
      t.mem = s.mem ∧ t.versionsOf n = s.versionsOf n ∧ t.rly.job = some ⟨5, FctResult.busy, 0, 0, none⟩ := by
  have hb : DescriptorOf (fctBusy s) n ptr := ⟨hd.present, hd.aligned, hd.count, hd.names⟩
  rw [h.exec_routeCommit, ← hn, ← hptr, routeCommit_full hb hv]
  exact ⟨_, rfl, rfl, rfl, jobStarted_job _ _⟩

/-- SELECT and STATE_WRITE while a packet has still to be judged by the receiver state. -/
theorem change_waits {s : State} {who : Sender} (h : Commands s who) (hs : s.rly.selects = []) {r : Nat}
    (hr : r = s.fctWord 0 % 2 ^ 20) (hb : s.boundTo r ≠ []) :
    Completes (exec (.select who) s) (fun t => t.mem = s.mem ∧ t.rly.selects =
        [⟨r, s.boundTo r, none, s.fctWord 1 % 256, (s.fctWord 1).testBit 8⟩] ∧ t.rly.job = some ⟨6, FctResult.done, 0, 0, none⟩) ∧
      Completes (exec (.stateWrite who) s) fun t => t.mem = s.mem ∧ t.rly.selects =
        [⟨r, s.boundTo r, some (slice s.fctWindow 4 20), 0, false⟩] ∧ t.rly.job = some ⟨7, FctResult.done, 0, 0, none⟩ := by
  have hw := changeSelect_waits (s := fctBusy s) hs hb
  rw [h.exec_select, h.exec_stateWrite, ← hr, hw, hw]
  exact ⟨⟨_, rfl, rfl, rfl, rfl⟩, ⟨_, rfl, rfl, rfl, rfl⟩⟩

/-- SELECT of the selection that is applied. -/
theorem select_cancels {s : State} {who : Sender} (h : Commands s who) (hp : s.poison = []) (hs : s.rly.selects = []) {r : Nat}
    (hr : r = s.fctWord 0 % 2 ^ 20) (ha : s.rstateAddr r + 16 ≤ hbmBytes) (hb : s.boundTo r = [])
    (hx : (s.fctWord 1).testBit 8 = false) (ho : (s.le (s.rstateAddr r + 2) 1).testBit 2 = false)
    (he : s.fctWord 1 % 256 = s.le (s.rstateAddr r) 1) :
    Completes (exec (.select who) s) fun t => (t.le (s.rstateAddr r + 2) 1).testBit 1 = false ∧
      SMap.get false t.rly.down r = false ∧ SameMemoryBut s t (s.rstateAddr r + 2) 1 := by
  have hsel := select_applied (s := fctBusy s) (r := r) (sel := s.fctWord 1 % 256) (by simpa using ho) (by simpa using he)
  obtain ⟨h1, h2⟩ := cancelled_reads (s := fctBusy s) hp ha
  simp only [fctBusy_le, fctBusy_rstateAddr] at hsel h1 h2
  rw [h.exec_select, ← hr, hx, changeSelect_applies (s := fctBusy s) hs hb, applySelect_select, hsel]
  refine ⟨_, rfl, ?_, get_set_same false _ r false, sameMemoryBut_of_mem h2 ?_⟩
  · rwa [jobStarted_le, withRly_le]
  · rw [jobStarted_mem, withRly_mem]

/-- SELECT of another selection. -/
theorem select_stored {s : State} {who : Sender} (h : Commands s who) (hp : s.poison = []) (hs : s.rly.selects = []) {r : Nat}
    (hr : r = s.fctWord 0 % 2 ^ 20) (ha : s.rstateAddr r + 16 ≤ hbmBytes) (hb : s.boundTo r = [])
    (hx : (s.fctWord 1).testBit 8 = false) (ho : (s.le (s.rstateAddr r + 2) 1).testBit 2 = false)
    (he : s.fctWord 1 % 256 ≠ s.le (s.rstateAddr r) 1) :
    Completes (exec (.select who) s) fun t =>
      t.le (s.rstateAddr r + 1) 1 = s.fctWord 1 % 256 ∧ (t.le (s.rstateAddr r + 2) 1).testBit 1 = true ∧
      t.le (s.rstateAddr r) 1 = s.le (s.rstateAddr r) 1 ∧ SameMemoryBut s t (s.rstateAddr r + 1) 2 ∧
      SMap.get false t.rly.down r = raisesNone (s.fctWord 1 % 256) (s.le (s.rstateAddr r) 1) ∧
      t.rly.job = some ⟨6, FctResult.done, 0, 0, none⟩ := by
  have hsel := select_pends (s := fctBusy s) (r := r) (sel := s.fctWord 1 % 256) (by simpa using ho) (by simpa using he)
  obtain ⟨h1, h2, h3, h4⟩ := pending_reads (s := fctBusy s) hp ha (Nat.mod_lt (s.fctWord 1) (by decide : 0 < 256))
  simp only [fctBusy_le, fctBusy_rstateAddr] at hsel h1 h2 h3 h4
  rw [h.exec_select, ← hr, hx, changeSelect_applies (s := fctBusy s) hs hb, applySelect_select, hsel]
  refine ⟨_, rfl, ?_, ?_, ?_, sameMemoryBut_of_mem h4 ?_, get_set_same false _ r _, jobStarted_job _ _⟩
  · rw [jobStarted_le, withRly_le]
    exact h1
  · rw [jobStarted_le, withRly_le]
    exact h2
  · rw [jobStarted_le, withRly_le]
    exact h3
  · rw [jobStarted_mem, withRly_mem]

/-- STATE_WRITE. -/
theorem stateWrite_stored {s : State} {who : Sender} (h : Commands s who) (hp : s.poison = []) (hs : s.rly.selects = []) {r : Nat}
    (hr : r = s.fctWord 0 % 2 ^ 20) (ha : s.rstateAddr r + 16 ≤ hbmBytes) (hb : s.boundTo r = []) :
    Completes (exec (.stateWrite who) s) fun t =>
      t.bytes (s.rstateAddr r) 16 = slice s.fctWindow 4 20 ∧ SameMemoryBut s t (s.rstateAddr r) 16 ∧
      SMap.get false t.rly.down r = false ∧ t.rly.job = some ⟨7, FctResult.done, 0, 0, none⟩ := by
  have hl : (slice s.fctWindow 4 20).length = 16 := slice_length (by rw [fctWindow_length]; decide)
  obtain ⟨h1, h2, h3⟩ := stateWrite_reads (s := fctBusy s) (r := r) hp hl (by simpa using ha)
  rw [fctBusy_rstateAddr] at h1 h2
  rw [h.exec_stateWrite, ← hr, changeSelect_applies (s := fctBusy s) hs hb, applySelect_stateWrite]
  refine ⟨_, rfl, ?_, sameMemoryBut_of_mem h2 (jobStarted_mem _ _), ?_, jobStarted_job _ _⟩
  · rwa [jobStarted_bytes]
  · rwa [jobStarted_down]

/-- FCT_COMMAND_DONE. -/
theorem fctCommandDone_shows {s : State} {j : FctJob} (hj : s.rly.job = some j) (hc : s.rly.clearPending = false)
    (hr : j.result < 6) (hb : j.bucket < 2) (hw : j.way < 4) :
    Completes (exec .fctCommandDone s) fun t =>
      t.isSet R.RLY_FCT_RESULT_BUSY = false ∧ t.get R.RLY_FCT_RESULT_RESULT = j.result ∧ t.get R.RLY_FCT_RESULT_BUCKET = j.bucket ∧
      t.get R.RLY_FCT_RESULT_WAY = j.way ∧ t.rly.job = none ∧ t.mem = s.mem ∧ t.ctr = s.ctr ∧
      (∀ d, j.data = some d → d.length = 64 → ∀ i : Fin 16, t.fctWord i = leVal (slice d (4 * i) (4 * i + 4))) ∧
      (j.op = 8 → t.isSet R.RLY_STATUS_FCT_READY = s.isSet R.BPM_STATUS_H_READY) := by
  obtain ⟨hbusy, hres, hbkt, hway⟩ := resultShown_reads s hr hb hw
  refine ⟨_, exec_fctCommandDone hj hc, ?_, ?_, ?_, ?_, ?_, commandEnded_mem s j, commandEnded_ctr s j,
    fun d hd _ i => commandEnded_fctWord s hd i, fun h8 => commandEnded_fctReady s h8⟩
  · rw [State.isSet, commandEnded_get _ _ _ (by decide) (by decide)]
    exact hbusy
  · rw [commandEnded_get _ _ _ (by decide) (by decide), hres]
  · rw [commandEnded_get _ _ _ (by decide) (by decide), hbkt]
  · rw [commandEnded_get _ _ _ (by decide) (by decide), hway]
  · rw [commandEnded_rly]

/-- A new seed while the relay is disabled and the engine idle. -/
theorem hashSeedWrite_clears {s : State} {who : Sender} {v : Word} (hs : Serves s who R.RLY_HASH_SEED_SEED.addr)
    (hv : v.toNat ≠ s.get R.RLY_HASH_SEED_SEED) (he : s.isSet R.RLY_CTRL_ENABLE = false)
    (hb : s.isSet R.RLY_FCT_RESULT_BUSY = false) :
    Completes (exec (.hashSeedWrite who v) s) fun t =>
      t.get R.RLY_HASH_SEED_SEED = v.toNat ∧ t.isSet R.RLY_FCT_RESULT_BUSY = true ∧ t.isSet R.RLY_STATUS_FCT_READY = false ∧
      t.rly.cache = [] ∧ t.rly.job = some ⟨8, FctResult.done, 0, 0, none⟩ := by
  obtain ⟨hbusy, hready, hcache, hjob, hget⟩ := startClear_reads (s.put R.RLY_HASH_SEED_SEED v.toNat)
  refine ⟨_, exec_hashSeedWrite_idle hs hv he hb, ?_, hbusy, hready, hcache, hjob⟩
  rw [hget _ (by decide) (by decide), get_put_same _ _ _ (by decide)]
  exact Nat.mod_eq_of_lt v.isLt

/-- A new seed while the relay is enabled. -/
theorem hashSeedWrite_ignored {s : State} {who : Sender} {v : Word} (hs : Serves s who R.RLY_HASH_SEED_SEED.addr)
    (hv : v.toNat ≠ s.get R.RLY_HASH_SEED_SEED) (he : s.isSet R.RLY_CTRL_ENABLE = true) :
    Completes (exec (.hashSeedWrite who v) s) fun t =>
      t.get R.RLY_HASH_SEED_SEED = s.get R.RLY_HASH_SEED_SEED ∧ t.isSet R.RLY_STATUS_CFG_IGNORED = true ∧ t.mem = s.mem ∧
      t.rly = s.rly := by
  refine ⟨_, exec_hashSeedWrite_enabled hs hv he, ?_, ?_, log_mem _ _ _ _ _ _ _, log_rly _ _ _ _ _ _ _⟩
  · unfold State.get
    rw [log_reg _ _ _ _ _ _ _ _ (by decide) (by decide) (by decide)]
    exact get_put_ne s R.RLY_STATUS_CFG_IGNORED R.RLY_HASH_SEED_SEED _ (by decide)
  · unfold State.isSet State.get
    rw [log_reg _ _ _ _ _ _ _ _ (by decide) (by decide) (by decide)]
    exact isSet_putBit_same s R.RLY_STATUS_CFG_IGNORED true (by decide) rfl

/-- AGE_SCAN of an entry that has not been hit for longer than the time-out. -/
theorem ageScan_removes {s : State} {e : Fin 16777216} (hr : s.isSet R.RLY_STATUS_FCT_READY = true)
    (h0 : s.get R.RLY_AGE_TIMEOUT_SECONDS ≠ 0) (hp : s.poison = []) (hf : s.fctBase + 2 ^ 30 ≤ hbmBytes)
    (hc : (s.byte (s.fctBase + e * 64)).toNat % 4 = 3)
    (ha : s.get R.RLY_AGE_TIMEOUT_SECONDS <
      (s.get R.RLY_AGE_CLOCK_SECONDS + 65536 - s.le (s.fctBase + e * 64 + 0x3C) 2) % 65536) :
    Completes (exec (.ageScan e) s) fun t =>
      (t.byte (s.fctBase + e * 64)).toNat % 2 = 0 ∧ SameMemoryBut s t (s.fctBase + e * 64) 1 := by
  have he : s.fctBase + e * 64 < hbmBytes := by omega
  obtain ⟨h1, h2⟩ := fctRemove_reads hp he
  have hb (p : Nat) : ((s.fctRemove e).excEvent 0x20 (leBytes 4 e ++ leBytes 4 0)).byte p = (s.fctRemove e).byte p := by
    simp only [State.byte, excEvent_mem]
  refine ⟨_, exec_ageScan_expired hr h0 hc ha, ?_, fun p h => (hb p).trans (h2 p h)⟩
  rw [hb, h1, even_and_0xFE]

/-- Settles O15: each command of the holder through the equation of its command, its end, the seed and the scan. -/
theorem routesSelectionsAndTheFctEngine : Obligations.RoutesSelectionsAndTheFctEngine := by
  refine ⟨fun s who hs hh hb hp => ⟨fun n ptr hn hptr h0 ha hl hm hlen => ⟨fun hv => ?stored, fun hv => ?full⟩,
      fun r a hr ha hlen hsel => ⟨fun hw => ?waits, fun hw => ⟨fun sel hs' hx ho => ⟨fun he => ?cancels, fun he => ?pends⟩, ?state⟩⟩⟩,
    fun s j hj hc _ hr hb hw => fctCommandDone_shows hj hc hr hb hw,
    fun s who v hs hv => ⟨fun he hb => hashSeedWrite_clears hs hv he hb, fun he => hashSeedWrite_ignored hs hv he⟩,
    fun s e => ⟨fun hr h0 hp hf hc ha => ageScan_removes hr h0 hp hf hc ha, fun h => ⟨s, exec_ageScan_off e h, rfl⟩⟩⟩
  case stored => exact routeCommit_completes ⟨hs, hh, hb⟩ hp hn hptr ⟨h0, ha, hl, hm⟩ hlen hv
  case full => exact routeCommit_busy ⟨hs, hh, hb⟩ hn hptr ⟨h0, ha, hl, hm⟩ hv
  case waits => exact change_waits ⟨hs, hh, hb⟩ hsel hr hw
  case cancels =>
    subst ha hs'
    exact select_cancels ⟨hs, hh, hb⟩ hp hsel hr hlen hw hx ho he
  case pends =>
    subst ha hs'
    exact select_stored ⟨hs, hh, hb⟩ hp hsel hr hlen hw hx ho he
  case state =>
    subst ha
    exact stateWrite_stored ⟨hs, hh, hb⟩ hp hsel hr hlen hw

end Sys2Proof.Proofs
end

section
/-! The statement of chapter 1 about dispatch, which fails: a state may hold a counter of 2^64 or more, and the statement asks that C_HTS_STEPPED
is reduced modulo 2^64 also by a dispatch that does not count there. -/

namespace Sys2Proof.Proofs

open Sys2Proof Sys2Proof.Machine Sys2Proof.Safety Sys2Proof.Laws

/-- A ready DECODE task of a visible picture, which is never shed. -/
def visibleDecode : Task := { Task.init with inc := 1, st := .ready, kind := 1, desc := [1, 8] }

/-- The operational device with its first decode engine enabled and that task ready, and with C_HTS_STEPPED at 2^64: the state's
map of counters holds any number, though `State.count` stores none above 2^64 - 1 (R97). -/
def overfullStepped : State :=
  let s := ((((State.reset.put R.HIF_BOOT_STAGE_STAGE 0x60).putBit R.UPD_STATUS_AWAKE true).putBit R.UPD_CTRL_ENABLE true).putBit
    R.HTS_CTRL_ENABLE true).putBit (R.VDE_CTRL_ENABLE 0) true
  { s with hts := { s.hts with slots := [(0, visibleDecode)] }, ctr := [(R.C_HTS_STEPPED, 2 ^ 64)] }

/-- C_HTS_STEPPED in the state that an outcome goes on with. -/
def steppedAfter : Result → Nat
  | .next t => t.counter R.C_HTS_STEPPED
  | _ => 0

/-- The engine takes the task, and the counter stays as it is. -/
theorem dispatch_leaves_stepped : steppedAfter (exec (.taskDispatch 0) overfullStepped) = 2 ^ 64 := by decide +kernel

/-- Refutes O46: at 2^64 the counter of stepped tasks is left by a dispatch that steps no task, where the statement has it 0. -/
theorem not_unitsAreGivenTheFirstAdmittedTask : ¬ Obligations.UnitsAreGivenTheFirstAdmittedTask := by
  intro h
  obtain ⟨hd, -, -⟩ := h
  obtain ⟨hgive, -, -⟩ := (hd overfullStepped 0 (by decide +kernel)).2 0 0 visibleDecode (by decide +kernel) (by decide +kernel)
    (by decide +kernel) (by decide +kernel) (by decide +kernel) (List.mem_cons_self ..) (by decide +kernel) rfl rfl rfl (by decide +kernel)
    (by decide +kernel)
  obtain ⟨t, ht, -, -, -, -, -, hstepped, -⟩ := hgive 0 (.inr (.inl ⟨by decide +kernel, by decide +kernel, rfl⟩))
  have hkept : t.counter R.C_HTS_STEPPED = 2 ^ 64 := by
    have h64 := dispatch_leaves_stepped
    rwa [ht] at h64
  have hwrapped : t.counter R.C_HTS_STEPPED = 0 := hstepped.trans (by decide +kernel)
  omega

end Sys2Proof.Proofs
end

section
/-! SUPPORT. What an update of registers leaves of the others: a single field, or the registers of a range. -/

namespace Sys2Proof.Laws

open Sys2Proof Sys2Proof.Machine Sys2Proof.Safety

/-- A write of a field sets that field alone. -/
theorem setsOnly_put (s : State) (f : Fld) (v : Nat) (h : f.lsb + f.width ≤ 32) : SetsOnly s (s.put f v) f v := by
  refine ⟨rfl, get_put_same s f v h, fun b hb => reg_put_ne s f v (by simpa using hb), fun l n hd => ?_⟩
  rw [reg_put_same]
  exact field_withField_apart _ _ _ _ _ _ h hd.symm

/-- The state `t` is `s` with registers rewritten, none of them outside the addresses from `lo` below `hi`. -/
def RegsWithin (lo hi : Nat) (s t : State) : Prop := t = { s with regs := t.regs } ∧ ∀ a, a < lo ∨ hi ≤ a → t.reg a = s.reg a

theorem RegsWithin.refl (lo hi : Nat) (s : State) : RegsWithin lo hi s s := ⟨rfl, fun _ _ => rfl⟩

/-- A write of a field of the range. -/
theorem RegsWithin.put {lo hi : Nat} {s t : State} (h : RegsWithin lo hi s t) (f : Fld) (v : Nat) (hf : lo ≤ f.addr ∧ f.addr < hi) :
    RegsWithin lo hi s (t.put f v) := by
  obtain ⟨hs, hr⟩ := h
  refine ⟨?_, fun a ha => ?_⟩
  · rw [hs]; rfl
  · rw [reg_put_ne t f v (by omega), hr a ha]

/-- A field outside the range reads as before. -/
theorem RegsWithin.get {lo hi : Nat} {s t : State} (h : RegsWithin lo hi s t) {f : Fld} (hf : f.addr < lo ∨ hi ≤ f.addr) :
    t.get f = s.get f := by rw [State.get, h.2 _ hf, State.get]

end Sys2Proof.Laws
end

section
/-! SUPPORT. The gate list of a port (R146, R150, R155): what activation, takeover, an entry's end and the clearing of ENABLE make of it. -/

namespace Sys2Proof.Laws

open Sys2Proof Sys2Proof.Machine Sys2Proof.Safety

@[simp] theorem gate_setGate_same (s : State) (n : Nat) (g : Gates) : (s.setGate n g).gate n = g := get_set_same _ _ _ _

theorem gate_setGate_ne (s : State) {n m : Nat} (g : Gates) (h : m ≠ n) : (s.setGate n g).gate m = s.gate m :=
  get_set_ne _ _ _ _ h

@[simp] theorem gate_put (s : State) (f : Fld) (v n : Nat) : (s.put f v).gate n = s.gate n := rfl
@[simp] theorem get_setGate (s : State) (n : Nat) (g : Gates) (f : Fld) : (s.setGate n g).get f = s.get f := rfl

/-- The state `t` is `s` with registers and gates changed. -/
def GatesOnly (s t : State) : Prop := t = { s with regs := t.regs, gates := t.gates }

theorem GatesOnly.refl (s : State) : GatesOnly s s := rfl

theorem GatesOnly.put {s t : State} (h : GatesOnly s t) (f : Fld) (v : Nat) : GatesOnly s (t.put f v) := by
  unfold GatesOnly at h ⊢
  rw [h]; rfl

theorem GatesOnly.setGate {s t : State} (h : GatesOnly s t) (n : Nat) (g : Gates) : GatesOnly s (t.setGate n g) := by
  unfold GatesOnly at h ⊢
  rw [h]; rfl

theorem GatesOnly.within {s t u : State} (h : GatesOnly s t) {lo hi : Nat} (k : RegsWithin lo hi t u) : GatesOnly s u := by
  unfold GatesOnly at h ⊢
  rw [k.1, h]

/-- An entry of the log changes no gate. -/
theorem log_gates (s : State) (unit inst sev event p0 p1 : Nat) : (s.log unit inst sev event p0 p1).gates = s.gates := by
  refine log_leaves (fun t => t.gates) s unit inst sev event p0 p1 rfl (fun e => ?_) (fun t => ?_) fun t => rfl
  · dsimp only [State.writeEntry]
    split <;> rfl
  · rw [devEvent_frame]

/-! ### Activation (R150) -/

/-- The boundary is not before the time it is asked for. -/
theorem le_firstBoundary (base cycle t : Nat) (h : 0 < cycle) : t ≤ firstBoundary base cycle t := by
  unfold firstBoundary
  split
  · next hc =>
    simp only [Bool.or_eq_true, decide_eq_true_eq] at hc
    omega
  · have hd := Nat.div_add_mod (t - base + cycle - 1) cycle
    have hm := Nat.mod_lt (t - base + cycle - 1) h
    have hq : ceilDiv (t - base) cycle * cycle = cycle * ((t - base + cycle - 1) / cycle) := by
      rw [ceilDiv, Nat.mul_comm]
    omega

/-- The snapshot that activation takes of the admin list. -/
def adminSnapshot (s : State) (n : Nat) : GateSnapshot :=
  let base := (s.get (R.TGC_ADMIN_BASE_SEC_LO_SEC n) + s.get (R.TGC_ADMIN_BASE_SEC_HI_SEC n) * 2 ^ 32) * 1000000000 +
    s.get (R.TGC_ADMIN_BASE_NS_NS n)
  let cycle := s.get (R.TGC_ADMIN_CYCLE_NS n)
  ⟨s.adminList n, cycle, base, firstBoundary base cycle (s.timeNs + 10000)⟩

theorem activate_valid {s : State} {n : Nat} (he : s.isSet (R.TGC_CTRL_ENABLE n) = true) (hv : s.adminValid n = true) (w : Nat) :
    s.activate n w = (s.setGate n { s.gate n with snapshot := some (adminSnapshot s n) }).put (R.TGC_STATUS_STATE n)
      (if s.get (R.TGC_STATUS_STATE n) ≤ 1 then 1 else 3) := by
  simp only [State.activate, he, hv]
  rfl

theorem activate_refused {s : State} {n : Nat} (h : s.isSet (R.TGC_CTRL_ENABLE n) = false ∨ s.adminValid n = false) (w : Nat) :
    s.activate n w = s.tgcIgnored n w := by
  obtain h | h := h <;> simp [State.activate, h]

/-- A valid list's cycle is not empty. -/
theorem adminCycle_pos {s : State} {n : Nat} (hv : s.adminValid n = true) : 0 < s.get (R.TGC_ADMIN_CYCLE_NS n) := by
  simp only [State.adminValid, Bool.and_eq_true, decide_eq_true_eq] at hv
  omega

theorem exec_activate {s : State} {who : Sender} {p : Fin 8} (h : Serves s who (R.TGC_CTRL_ENABLE p).addr) :
    exec (.activate who p) s = .next (s.activate p (2 + s.get (R.TGC_CTRL_ENABLE p))) := by
  simp only [exec, execActivate, access_served h]

theorem exec_gateDisable {s : State} {who : Sender} {p : Fin 8} (h : Serves s who (R.TGC_CTRL_ENABLE p).addr) :
    exec (.gateDisable who p) s = .next (s.gateOff p) := by
  simp only [exec, execGateDisable, access_served h]

/-! ### What a port shows of its gates (R147, R148) -/

/-- W_max and the guard bands are the only registers that it shows them in. -/
theorem showGates_within (s : State) (n : Nat) : RegsWithin (0x480060 + n * 0x10000) (0x4800A0 + n * 0x10000) s (s.showGates n) := by
  unfold State.showGates
  refine List.foldlRecOn _ _ (RegsWithin.refl _ _ s) fun t ht c hc => ?_
  have hc7 : c < 7 := List.mem_range.1 hc
  refine (ht.put _ _ ?_).put _ _ ?_
  · simp only [R.TGC_GUARD_NS]; omega
  · simp only [R.TGC_WMAX_NS]; omega

/-! ### Takeover (R150) -/

/-- The registers of the list in effect are the only ones that a list is put in. -/
theorem putOper_within (s : State) (n e : Nat) (l : List (Nat × Nat)) :
    RegsWithin (0x482000 + n * 0x10000 + e * 8) (0x482000 + n * 0x10000 + (e + l.length) * 8) s (s.putOper n e l) := by
  induction l generalizing s e with
  | nil => exact .refl _ _ s
  | cons x l ih =>
    obtain ⟨hs, hr⟩ := ih ((s.put (R.TGC_OPER_GATES n e) x.1).put (R.TGC_OPER_INTV n e) x.2) (e + 1)
    refine ⟨hs, fun a ha => ?_⟩
    rw [List.length_cons] at ha
    refine (hr a (by omega)).trans ?_
    rw [reg_put_ne _ _ _ (by simp only [R.TGC_OPER_INTV]; omega), reg_put_ne _ _ _ (by simp only [R.TGC_OPER_GATES]; omega)]

/-- An entry that is put in reads back, as far as its fields hold it. -/
theorem operEntry_putOper (s : State) (n e : Nat) (l : List (Nat × Nat)) (i : Nat) (hi : i < l.length) :
    (s.putOper n e l).operEntry n (e + i) = (l[i].1 % 2 ^ 8, l[i].2 % 2 ^ 30) := by
  induction l generalizing s e i with
  | nil => simp at hi
  | cons x l ih =>
    cases i with
    | succ i =>
      have h := ih ((s.put (R.TGC_OPER_GATES n e) x.1).put (R.TGC_OPER_INTV n e) x.2) (e + 1) i (by simpa using hi)
      rwa [Nat.add_right_comm] at h
    | zero =>
      have hw := putOper_within ((s.put (R.TGC_OPER_GATES n e) x.1).put (R.TGC_OPER_INTV n e) x.2) n (e + 1) l
      refine Prod.ext ?_ ?_
      · refine (hw.get (.inl (by simp only [R.TGC_OPER_GATES]; omega))).trans ?_
        rw [Nat.add_zero, get_put_ne _ _ _ _ (by simp only [R.TGC_OPER_GATES, R.TGC_OPER_INTV]; omega)]
        exact get_put_same _ _ _ (by simp [R.TGC_OPER_GATES])
      · refine (hw.get (.inl (by simp only [R.TGC_OPER_INTV]; omega))).trans ?_
        exact get_put_same _ _ _ (by simp [R.TGC_OPER_INTV])

/-- The list of a snapshot in the registers of the list in effect, at entry 0. -/
def listStored (s : State) (n : Nat) (p : GateSnapshot) : State :=
  (((s.put (R.TGC_OPER_LEN_ENTRIES n) p.entries.length).put (R.TGC_OPER_CYCLE_NS n) p.cycle).putOper n 0 p.entries).put
    (R.TGC_CUR_ENTRY_ENTRY n) 0

/-- The gates run it from the takeover time on. -/
def listRuns (s : State) (n : Nat) (p : GateSnapshot) : State :=
  (((listStored s n p).setGate n ⟨none, p.takeover, p.base, none⟩).put (R.TGC_STATUS_STATE n) 2).putBit (R.TGC_STATUS_LIST_CHANGED n) true

theorem takeover_eq (s : State) (n : Nat) (p : GateSnapshot) : s.takeover n p = (listRuns s n p).showGates n := rfl

/-- A takeover changes registers and the gates. -/
theorem takeover_only (s : State) (n : Nat) (p : GateSnapshot) : GatesOnly s (s.takeover n p) := by
  have hl : GatesOnly s (listStored s n p) :=
    ((((GatesOnly.refl s).put _ _).put _ _).within (putOper_within _ _ _ _)).put _ _
  exact (((hl.setGate _ _).put _ _).put _ _).within (showGates_within _ _)

/-- A takeover leaves a field of another register of the port than STATUS as it was stored. -/
theorem takeover_get (s : State) (n : Nat) (p : GateSnapshot) {f : Fld}
    (hf : f.addr < 0x480060 + n * 0x10000 ∨ 0x4800A0 + n * 0x10000 ≤ f.addr) (hs : f.addr ≠ 0x480004 + n * 0x10000) :
    (s.takeover n p).get f = (listStored s n p).get f := by
  rw [takeover_eq, (showGates_within _ n).get hf, listRuns, State.putBit, get_put_ne _ _ _ _ hs, get_put_ne _ _ _ _ hs, get_setGate]

/-- STATUS after a takeover. -/
theorem takeover_status (s : State) (n : Nat) (p : GateSnapshot) :
    (s.takeover n p).get (R.TGC_STATUS_STATE n) = 2 ∧ (s.takeover n p).isSet (R.TGC_STATUS_LIST_CHANGED n) = true := by
  have hw := showGates_within (listRuns s n p) n
  refine ⟨?_, ?_⟩
  · rw [takeover_eq, hw.get (.inl (by simp only [R.TGC_STATUS_STATE]; omega)), listRuns, State.putBit,
      get_put_apart _ (R.TGC_STATUS_LIST_CHANGED n) (R.TGC_STATUS_STATE n) _ (Nat.le_of_ble_eq_true rfl) (.inr (.inr (Nat.le_of_ble_eq_true rfl)))]
    exact get_put_same _ (R.TGC_STATUS_STATE n) 2 (by simp [R.TGC_STATUS_STATE])
  · rw [takeover_eq, State.isSet, hw.get (.inl (by simp only [R.TGC_STATUS_LIST_CHANGED]; omega))]
    exact isSet_putBit_same _ (R.TGC_STATUS_LIST_CHANGED n) true (by simp [R.TGC_STATUS_LIST_CHANGED]) rfl

/-- Where only registers are rewritten, the gates are as before. -/
theorem RegsWithin.gate {lo hi : Nat} {s t : State} (h : RegsWithin lo hi s t) (n : Nat) : t.gate n = s.gate n := by
  rw [h.1]
  rfl

theorem showGates_gate (s : State) (n m : Nat) : (s.showGates n).gate m = s.gate m := (showGates_within s n).gate m

theorem takeover_gate (s : State) (n : Nat) (p : GateSnapshot) : (s.takeover n p).gate n = ⟨none, p.takeover, p.base, none⟩ := by
  rw [takeover_eq, showGates_gate, listRuns, State.putBit, gate_put, gate_put, gate_setGate_same]

/-- A field of the port below the list in effect is left by the list's entries. -/
theorem listStored_get (s : State) (n : Nat) (p : GateSnapshot) {f : Fld} (hf : f.addr < 0x482000 + n * 0x10000)
    (hc : f.addr ≠ 0x480028 + n * 0x10000) :
    (listStored s n p).get f =
      ((s.put (R.TGC_OPER_LEN_ENTRIES n) p.entries.length).put (R.TGC_OPER_CYCLE_NS n) p.cycle).get f := by
  rw [listStored, get_put_ne _ _ _ _ hc, (putOper_within _ n 0 p.entries).get (.inl (by omega))]

/-- The list of a snapshot that fits the registers is the list in effect. -/
theorem takeover_operList (s : State) (n : Nat) (p : GateSnapshot) (hl : p.entries.length ≤ 256)
    (he : ∀ e ∈ p.entries, e.1 < 256 ∧ e.2 < 2 ^ 30) : (s.takeover n p).operList n = p.entries := by
  have hlen : (s.takeover n p).get (R.TGC_OPER_LEN_ENTRIES n) = p.entries.length := by
    rw [takeover_get s n p (by simp only [R.TGC_OPER_LEN_ENTRIES]; omega) (by simp only [R.TGC_OPER_LEN_ENTRIES]; omega),
      listStored_get s n p (by simp only [R.TGC_OPER_LEN_ENTRIES]; omega) (by simp only [R.TGC_OPER_LEN_ENTRIES]; omega),
      get_put_ne _ _ _ _ (by simp only [R.TGC_OPER_LEN_ENTRIES, R.TGC_OPER_CYCLE_NS]; omega), get_put_same _ _ _ (Nat.le_of_ble_eq_true rfl)]
    exact Nat.mod_eq_of_lt (show p.entries.length < 2 ^ 9 by omega)
  unfold State.operList
  rw [hlen]
  refine List.ext_getElem (by simp) fun i h1 h2 => ?_
  have hstored := operEntry_putOper ((s.put (R.TGC_OPER_LEN_ENTRIES n) p.entries.length).put (R.TGC_OPER_CYCLE_NS n) p.cycle) n 0
    p.entries i h2
  obtain ⟨hg, hi⟩ := he p.entries[i] (List.getElem_mem h2)
  rw [Nat.zero_add, Nat.mod_eq_of_lt (b := 2 ^ 8) hg, Nat.mod_eq_of_lt hi] at hstored
  rw [List.getElem_map, List.getElem_range, ← Prod.mk.eta (p := p.entries[i]), ← hstored]
  unfold State.operEntry
  rw [takeover_get s n p (by simp only [R.TGC_OPER_GATES]; omega) (by simp only [R.TGC_OPER_GATES]; omega),
    takeover_get s n p (by simp only [R.TGC_OPER_INTV]; omega) (by simp only [R.TGC_OPER_INTV]; omega), listStored,
    get_put_ne _ _ (R.TGC_OPER_GATES n i) _ (by simp only [R.TGC_OPER_GATES, R.TGC_CUR_ENTRY_ENTRY]; omega),
    get_put_ne _ _ (R.TGC_OPER_INTV n i) _ (by simp only [R.TGC_OPER_INTV, R.TGC_CUR_ENTRY_ENTRY]; omega)]

theorem takeover_cycle (s : State) (n : Nat) (p : GateSnapshot) (hc : p.cycle < 2 ^ 30) :
    (s.takeover n p).get (R.TGC_OPER_CYCLE_NS n) = p.cycle := by
  rw [takeover_get s n p (by simp only [R.TGC_OPER_CYCLE_NS]; omega) (by simp only [R.TGC_OPER_CYCLE_NS]; omega),
    listStored_get s n p (by simp only [R.TGC_OPER_CYCLE_NS]; omega) (by simp only [R.TGC_OPER_CYCLE_NS]; omega),
    get_put_same _ _ _ (Nat.le_of_ble_eq_true rfl)]
  exact Nat.mod_eq_of_lt hc

theorem takeover_curEntry (s : State) (n : Nat) (p : GateSnapshot) : (s.takeover n p).get (R.TGC_CUR_ENTRY_ENTRY n) = 0 := by
  rw [takeover_get s n p (by simp only [R.TGC_CUR_ENTRY_ENTRY]; omega) (by simp only [R.TGC_CUR_ENTRY_ENTRY]; omega)]
  exact get_put_same _ _ _ (Nat.le_of_ble_eq_true rfl)

theorem exec_gateTakeover {s : State} {p : Fin 8} {g : GateSnapshot} (hs : (s.gate p).snapshot = some g) (ht : g.takeover ≤ s.timeNs) :
    exec (.gateTakeover p) s = .next (if s.portNamed p then s.takeover p g else s) := by
  cases hp : s.portNamed p <;> simp [exec, execGateTakeover, hs, ht, hp]

/-! ### The end of an entry (R146, R155) -/

theorem entryEnds_length (cycle t : Nat) (l : List (Nat × Nat)) : (entryEnds cycle t l).length = l.length := by
  fun_induction entryEnds cycle t l with
  | case1 => rfl
  | case2 => rfl
  | case3 t e es hne ih => simp [ih]

/-- The last entry lasts to the end of the cycle. -/
theorem entryEnds_last (cycle t d : Nat) (l : List (Nat × Nat)) (i : Nat) (hi : i + 1 = l.length) :
    (entryEnds cycle t l).getD i d = cycle := by
  fun_induction entryEnds cycle t l generalizing i with
  | case1 => simp at hi
  | case2 t x =>
    obtain rfl : i = 0 := by simpa using hi
    rfl
  | case3 t e es hne ih =>
    cases i with
    | zero => exact absurd (List.length_eq_zero_iff.1 (by simpa using hi.symm)) hne
    | succ i => simpa using ih i (by simpa using hi)

theorem exec_gateEntryAdvance {s : State} {p : Fin 8} (hn : s.portNamed p = true) (hl : s.listInEffect p = true)
    (he : s.entryEnd p ≤ s.timeNs) : exec (.gateEntryAdvance p) s = .next (s.advanceEntry p) := by
  simp [exec, execGateEntryAdvance, hn, hl, he]

/-- The next entry runs where the present one ends before the cycle does. -/
theorem advanceEntry_next {s : State} {n : Nat} (hr : (s.gate n).resume = none)
    (he : (entryEnds (s.get (R.TGC_OPER_CYCLE_NS n)) 0 (s.operList n)).getD (s.get (R.TGC_CUR_ENTRY_ENTRY n))
      (s.get (R.TGC_OPER_CYCLE_NS n)) < s.get (R.TGC_OPER_CYCLE_NS n)) :
    s.advanceEntry n = s.put (R.TGC_CUR_ENTRY_ENTRY n) (s.get (R.TGC_CUR_ENTRY_ENTRY n) + 1) := by
  simp only [State.advanceEntry, hr, if_pos he]

/-- Otherwise the next cycle begins, at entry 0. -/
theorem advanceEntry_cycle {s : State} {n : Nat} (hr : (s.gate n).resume = none)
    (he : (entryEnds (s.get (R.TGC_OPER_CYCLE_NS n)) 0 (s.operList n)).getD (s.get (R.TGC_CUR_ENTRY_ENTRY n))
      (s.get (R.TGC_OPER_CYCLE_NS n)) = s.get (R.TGC_OPER_CYCLE_NS n)) :
    s.advanceEntry n = (s.setGate n { s.gate n with cycleStart := (s.gate n).cycleStart + s.get (R.TGC_OPER_CYCLE_NS n) }).put
      (R.TGC_CUR_ENTRY_ENTRY n) 0 := by
  simp only [State.advanceEntry, hr, he, lt_irrefl, if_false]

/-- After a step the list restarts at its boundary. -/
theorem advanceEntry_resume {s : State} {n b : Nat} (hr : (s.gate n).resume = some b) :
    s.advanceEntry n = (s.setGate n { s.gate n with resume := none, cycleStart := b }).put (R.TGC_CUR_ENTRY_ENTRY n) 0 := by
  simp only [State.advanceEntry, hr]

theorem get_curEntry_put (s : State) (n v : Nat) (h : v < 256) : (s.put (R.TGC_CUR_ENTRY_ENTRY n) v).get (R.TGC_CUR_ENTRY_ENTRY n) = v :=
  (get_put_same s _ _ (Nat.le_of_ble_eq_true rfl)).trans (Nat.mod_eq_of_lt h)

/-! ### The clearing of ENABLE (R150) -/

/-- What the port shows of its gates lies apart from CTRL and STATUS, which ENABLE's clearing writes. -/
theorem gateOff_reads (s : State) (n : Nat) :
    (s.gateOff n).isSet (R.TGC_CTRL_ENABLE n) = false ∧ (s.gateOff n).get (R.TGC_STATUS_STATE n) = 0 ∧
      (s.gateOff n).gate n = Gates.init ∧ GatesOnly s (s.gateOff n) := by
  have hw := showGates_within (((s.putBit (R.TGC_CTRL_ENABLE n) false).setGate n Gates.init).put (R.TGC_STATUS_STATE n) 0) n
  refine ⟨?_, ?_, ?_, ?_⟩
  · rw [State.gateOff, State.isSet, hw.get (.inl (by simp only [R.TGC_CTRL_ENABLE]; omega)),
      get_put_ne _ _ _ _ (by simp only [R.TGC_CTRL_ENABLE, R.TGC_STATUS_STATE]; omega), get_setGate]
    exact isSet_putBit_same s (R.TGC_CTRL_ENABLE n) false (Nat.le_of_ble_eq_true rfl) rfl
  · rw [State.gateOff, hw.get (.inl (by simp only [R.TGC_STATUS_STATE]; omega))]
    exact get_put_same _ _ _ (Nat.le_of_ble_eq_true rfl)
  · rw [State.gateOff, showGates_gate, gate_put, gate_setGate_same]
  · exact ((((GatesOnly.refl s).put _ _).setGate _ _).put _ _).within hw

/-- With ENABLE clear every gate is open. -/
theorem gateOpen_disabled {s : State} {n : Nat} (h : s.isSet (R.TGC_CTRL_ENABLE n) = false) (c : Nat) : s.gateOpen n c = true := by
  simp [State.gateOpen, h]

/-! ### A refused activation (R150) -/

/-- It sets CFG_IGNORED and is logged. -/
theorem tgcIgnored_reads (s : State) (n w : Nat) (hn : n < 8) :
    (s.tgcIgnored n w).gates = s.gates ∧ (s.tgcIgnored n w).isSet (R.TGC_STATUS_CFG_IGNORED n) = true ∧
      (s.tgcIgnored n w).get (R.TGC_STATUS_STATE n) = s.get (R.TGC_STATUS_STATE n) := by
  have hr : (s.tgcIgnored n w).reg (0x480004 + n * 0x10000) = (s.putBit (R.TGC_STATUS_CFG_IGNORED n) true).reg (0x480004 + n * 0x10000) :=
    log_reg _ _ _ _ _ _ _ _ (by simp only [R.SQL_SUPPRESSED_COUNT]; omega) (by simp only [R.SQL_STATUS_WRAPPED]; omega)
      (by simp only [R.SQL_ALERT_CAUSE_FATAL]; omega)
  refine ⟨log_gates _ _ _ _ _ _ _, ?_, ?_⟩
  · refine Eq.trans ?_ (isSet_putBit_same s (R.TGC_STATUS_CFG_IGNORED n) true (Nat.le_of_ble_eq_true rfl) rfl)
    exact congrArg (fun x : Word => x.field 2 1 == 1) hr
  · refine Eq.trans (congrArg (fun x : Word => x.field 0 2) hr) ?_
    exact get_put_apart s (R.TGC_STATUS_CFG_IGNORED n) (R.TGC_STATUS_STATE n) _ (Nat.le_of_ble_eq_true rfl)
      (.inr (.inr (Nat.le_of_ble_eq_true rfl)))

end Sys2Proof.Laws
end

section
/-! The statement of chapter 4 about gate lists. -/

namespace Sys2Proof.Proofs

open Sys2Proof Sys2Proof.Machine Sys2Proof.Safety Sys2Proof.Laws

/-- ACTIVATE of a valid list with ENABLE set. -/
theorem activate_keepsSnapshot {s : State} {who : Sender} {p : Fin 8} (h : Serves s who (R.TGC_CTRL_ENABLE p).addr)
    (he : s.isSet (R.TGC_CTRL_ENABLE p) = true) (hv : s.adminValid p = true) : Completes (exec (.activate who p) s) fun t =>
      (∃ g, (t.gate p).snapshot = some g ∧ g.entries = s.adminList p ∧ g.cycle = s.get (R.TGC_ADMIN_CYCLE_NS p) ∧
        g.takeover = firstBoundary g.base g.cycle (s.timeNs + 10000) ∧ s.timeNs + 10000 ≤ g.takeover) ∧
      t.get (R.TGC_STATUS_STATE p) = (if s.get (R.TGC_STATUS_STATE p) ≤ 1 then 1 else 3) ∧
      (∀ q, q ≠ p.val → t.gate q = s.gate q) ∧ t = { s with regs := t.regs, gates := t.gates } ∧
      SameRegsBut s t [(R.TGC_STATUS_STATE p).addr] := by
  refine ⟨_, (exec_activate h).trans (congrArg _ (activate_valid he hv _)), ⟨adminSnapshot s p, ?_, rfl, rfl, rfl, ?_⟩, ?_, ?_, ?_, ?_⟩
  · rw [gate_put, gate_setGate_same]
  · exact le_firstBoundary _ _ _ (adminCycle_pos hv)
  · rw [get_put_same _ _ _ (Nat.le_of_ble_eq_true rfl)]
    split <;> rfl
  · intro q hq
    rw [gate_put, gate_setGate_ne s _ hq]
  · exact ((GatesOnly.refl s).setGate _ _).put _ _
  · intro a ha
    exact reg_put_ne _ _ _ (by simpa using ha)

/-- GATE_DISABLE. -/
theorem gateDisable_discards {s : State} {who : Sender} {p : Fin 8} (h : Serves s who (R.TGC_CTRL_ENABLE p).addr) :
    Completes (exec (.gateDisable who p) s) fun t =>
      (t.gate p).snapshot = none ∧ t.get (R.TGC_STATUS_STATE p) = 0 ∧ t.isSet (R.TGC_CTRL_ENABLE p) = false ∧
      (∀ c, t.gateOpen p c = true) ∧ t = { s with regs := t.regs, gates := t.gates } := by
  obtain ⟨hen, hst, hg, hs⟩ := gateOff_reads s p
  exact ⟨_, exec_gateDisable h, congrArg Gates.snapshot hg, hst, hen, gateOpen_disabled hen, hs⟩

/-- GATE_TAKEOVER of a port that the mode names. -/
theorem gateTakeover_takesEffect {s : State} {p : Fin 8} {g : GateSnapshot} (hs : (s.gate p).snapshot = some g)
    (ht : g.takeover ≤ s.timeNs) (hl : g.entries.length ≤ 256) (hc : g.cycle < 2 ^ 30)
    (he : ∀ e ∈ g.entries, e.1 < 256 ∧ e.2 < 2 ^ 30) (hn : s.portNamed p = true) : Completes (exec (.gateTakeover p) s) fun t =>
      t.operList p = g.entries ∧ t.get (R.TGC_OPER_CYCLE_NS p) = g.cycle ∧ t.get (R.TGC_CUR_ENTRY_ENTRY p) = 0 ∧
      t.get (R.TGC_STATUS_STATE p) = 2 ∧ t.isSet (R.TGC_STATUS_LIST_CHANGED p) = true ∧
      t.gate p = ⟨none, g.takeover, g.base, none⟩ ∧ t = { s with regs := t.regs, gates := t.gates } := by
  obtain ⟨hst, hch⟩ := takeover_status s p g
  refine ⟨s.takeover p g, ?_, takeover_operList s p g hl he, takeover_cycle s p g hc, takeover_curEntry s p g, hst, hch,
    takeover_gate s p g, takeover_only s p g⟩
  rw [exec_gateTakeover hs ht, hn, if_pos rfl]

/-- GATE_ENTRY_ADVANCE of an entry that is not the last of its cycle. -/
theorem gateEntryAdvance_next {s : State} {p : Fin 8} (hn : s.portNamed p = true) (hl : s.listInEffect p = true)
    (he : s.entryEnd p ≤ s.timeNs) (hr : (s.gate p).resume = none)
    (hc : (entryEnds (s.get (R.TGC_OPER_CYCLE_NS p)) 0 (s.operList p)).getD (s.get (R.TGC_CUR_ENTRY_ENTRY p)) 0 <
      s.get (R.TGC_OPER_CYCLE_NS p)) (hlt : s.get (R.TGC_CUR_ENTRY_ENTRY p) < (s.operList p).length) :
    Completes (exec (.gateEntryAdvance p) s) fun t =>
      SetsOnly s t (R.TGC_CUR_ENTRY_ENTRY p) (s.get (R.TGC_CUR_ENTRY_ENTRY p) + 1) := by
  have hlt' : s.get (R.TGC_CUR_ENTRY_ENTRY p) < (entryEnds (s.get (R.TGC_OPER_CYCLE_NS p)) 0 (s.operList p)).length := by
    rwa [entryEnds_length]
  rw [List.getD_eq_getElem _ _ hlt'] at hc
  refine ⟨_, (exec_gateEntryAdvance hn hl he).trans (congrArg _ (advanceEntry_next hr ?_)), setsOnly_put s _ _ (Nat.le_of_ble_eq_true rfl)⟩
  rwa [List.getD_eq_getElem _ _ hlt']

/-- GATE_ENTRY_ADVANCE of the last entry. -/
theorem gateEntryAdvance_cycle {s : State} {p : Fin 8} (hn : s.portNamed p = true) (hl : s.listInEffect p = true)
    (he : s.entryEnd p ≤ s.timeNs) (hr : (s.gate p).resume = none)
    (hlast : s.get (R.TGC_CUR_ENTRY_ENTRY p) + 1 = (s.operList p).length) : Completes (exec (.gateEntryAdvance p) s) fun t =>
      t.get (R.TGC_CUR_ENTRY_ENTRY p) = 0 ∧ (t.gate p).cycleStart = (s.gate p).cycleStart + s.get (R.TGC_OPER_CYCLE_NS p) ∧
      SameRegsBut s t [(R.TGC_CUR_ENTRY_ENTRY p).addr] := by
  refine ⟨_, (exec_gateEntryAdvance hn hl he).trans (congrArg _ (advanceEntry_cycle hr (entryEnds_last _ _ _ _ _ hlast))), ?_, ?_, ?_⟩
  · exact get_curEntry_put _ _ _ (by decide)
  · rw [gate_put, gate_setGate_same]
  · intro a ha
    exact reg_put_ne _ _ _ (by simpa using ha)

/-- GATE_ENTRY_ADVANCE after a step of device time. -/
theorem gateEntryAdvance_resume {s : State} {p : Fin 8} (hn : s.portNamed p = true) (hl : s.listInEffect p = true)
    (he : s.entryEnd p ≤ s.timeNs) {b : Nat} (hr : (s.gate p).resume = some b) : Completes (exec (.gateEntryAdvance p) s) fun t =>
      t.get (R.TGC_CUR_ENTRY_ENTRY p) = 0 ∧ (t.gate p).cycleStart = b ∧ (t.gate p).resume = none := by
  refine ⟨_, (exec_gateEntryAdvance hn hl he).trans (congrArg _ (advanceEntry_resume hr)), get_curEntry_put _ _ _ (by decide), ?_, ?_⟩
  · rw [gate_put, gate_setGate_same]
  · rw [gate_put, gate_setGate_same]

/-- Settles O20: activation, takeover, the end of an entry and the clearing of ENABLE, each by what it makes of the port's gates and
registers. -/
theorem gateListsTakeOverAtTheirTime : Obligations.GateListsTakeOverAtTheirTime := by
  refine ⟨fun s who p hs => ⟨activate_keepsSnapshot hs, fun h => ?refused, gateDisable_discards hs⟩,
    fun s p g hg ht _ hl hc he => ⟨fun hn => ?unnamed, gateTakeover_takesEffect hg ht hl hc he⟩,
    fun s p hn hl he => ⟨fun hr _ => gateEntryAdvance_next hn hl he hr, gateEntryAdvance_cycle hn hl he,
      fun b => gateEntryAdvance_resume hn hl he⟩⟩
  case refused => exact ⟨_, (exec_activate hs).trans (congrArg _ (activate_refused h _)), tgcIgnored_reads s p _ p.isLt⟩
  case unnamed => exact ⟨s, by rw [exec_gateTakeover hg ht, hn]; rfl, rfl⟩

end Sys2Proof.Proofs
end

section
/-! SUPPORT. The packets that the relay holds (R38, R96) and the queues that it posts events to (R93): what takes a packet out, and what a
posted event leaves as it was. -/

namespace Sys2Proof.Laws

open Sys2Proof Sys2Proof.Machine Sys2Proof.Safety

/-! ### The packets that the relay holds -/

/-- The state with these packets in the relay. -/
def withPackets (s : State) (l : List RxPacket) : State := { s with rly := { s.rly with packets := l } }

@[simp] theorem withPackets_packets (s : State) (l : List RxPacket) : (withPackets s l).rly.packets = l := rfl

@[simp] theorem withPackets_counter (s : State) (l : List RxPacket) (a : Nat) : (withPackets s l).counter a = s.counter a := rfl

/-- The state `t` is `s` with counters and the relay changed. -/
def RelayOnly (s t : State) : Prop := t = { s with ctr := t.ctr, rly := t.rly }

theorem RelayOnly.refl (s : State) : RelayOnly s s := rfl

theorem RelayOnly.count {s t : State} (h : RelayOnly s t) (a n : Nat) : RelayOnly s (t.count a n) := by
  unfold RelayOnly at h ⊢
  rw [h]; rfl

theorem RelayOnly.withRly {s t : State} (h : RelayOnly s t) (f : Relay → Relay) : RelayOnly s (t.withRly f) := by
  unfold RelayOnly at h ⊢
  rw [h]; rfl

theorem RelayOnly.withPackets {s t : State} (h : RelayOnly s t) (l : List RxPacket) : RelayOnly s (withPackets t l) :=
  h.withRly fun r => { r with packets := l }

/-- The relay's only packet is replaced. -/
theorem setPacket_only {s : State} {p q : RxPacket} (hp : s.rly.packets = [p]) (hq : q.id = p.id) :
    s.setPacket q = withPackets s [q] := by
  simp [State.setPacket, State.withRly, withPackets, hp, hq]

/-- The relay's only packet is taken out. -/
theorem forget_only {s : State} {p q : RxPacket} (hp : s.rly.packets = [p]) (hq : q.id = p.id) : s.forget q = withPackets s [] := by
  simp [State.forget, State.withRly, withPackets, hp, hq]

@[simp] theorem release_noCell (s : State) : s.release noCell = s := by simp [State.release, State.releaseBy]

/-- With no change of a selection waiting, none takes effect. -/
theorem settleSelects_none {s : State} (h : s.rly.selects = []) : s.settleSelects = s := by
  simp only [State.settleSelects, h, List.filter_nil, List.foldl_nil]
  exact withSelects_self h

/-- A packet without a cell is dropped: no change of a selection waits for it, so that only its snapshot is given back. -/
theorem dropPacket_noCell {s : State} {p : RxPacket} (hc : p.cell = noCell) (hs : s.rly.selects = []) :
    s.dropPacket p = s.finishPacket p := by
  have hf : (s.finishPacket p).rly.selects = s.rly.selects := by
    unfold State.finishPacket
    split <;> rfl
  rw [State.dropPacket, hc, release_noCell, settleSelects_none (hf.trans hs)]

/-- The relay's only packet, with neither cell nor snapshot, is dropped. -/
theorem dropPacket_only {s : State} {p : RxPacket} (hp : s.rly.packets = [p]) (hc : p.cell = noCell) (hn : p.snap = none)
    (hs : s.rly.selects = []) : s.dropPacket p = withPackets s [] := by
  rw [dropPacket_noCell hc hs, State.finishPacket, hn]
  exact forget_only hp rfl

/-! ### Events that the relay posts (R93) -/

/-- What no register and no queue shows, a word written to a queue leaves. -/
theorem writeWord_leaves {β : Type} (p : State → β) (hr : ∀ (t : State) (f : Fld) (v : Nat), p (t.put f v) = p t)
    (hq : ∀ (t : State) (m : SMap StreamQueue), p { t with queues := m } = p t) (s : State) (n : Nat) (w : QWord) (o : WordOwner) :
    p (s.writeWord n w o).1 = p s := by
  have hset (t : State) (q : StreamQueue) : p (t.setQueue n q) = p t := by
    simp only [State.setQueue, State.putBit, hr, hq]
  have hrew (t : State) (e : Bool) : p (t.rewind n e) = p t := (hr _ _ _).trans (hset _ _)
  have hover (t : State) (x : QWord) : p (t.overrun n x) = p t := ((hr _ _ _).trans (hrew _ _)).trans (hr _ _ _)
  have hord (t : State) : p (t.judgeOrder n) = p t := by
    unfold State.judgeOrder
    dsimp only
    split_ifs <;> simp only [State.putBit, hr]
  unfold State.writeWord
  extract_lets q x
  split_ifs <;> simp only [hset, hrew, hover, hord]

/-- An event that the relay posts leaves what neither registers, queues nor counters show. -/
theorem excEvent_leaves {β : Type} (p : State → β) (hr : ∀ (t : State) (f : Fld) (v : Nat), p (t.put f v) = p t)
    (hq : ∀ (t : State) (m : SMap StreamQueue), p { t with queues := m } = p t) (hc : ∀ (t : State) (a : Nat), p (t.count a) = p t)
    (s : State) (reason : Nat) (tail : List Byte) : p (s.excEvent reason tail) = p s := by
  have hpost (data : List Byte) : p (s.post 0 0 data).1 = p s := by
    have hw := writeWord_leaves p hr hq s 0 ⟨data, true, true, false, 0⟩ .entry
    unfold State.post
    split <;> simp_all only
  unfold State.excEvent
  dsimp only
  split
  · exact hpost _
  · exact (hc _ _).trans (hpost _)

theorem excEvent_rly (s : State) (reason : Nat) (tail : List Byte) : (s.excEvent reason tail).rly = s.rly :=
  excEvent_leaves State.rly (fun _ _ _ => rfl) (fun _ _ => rfl) (fun _ _ => rfl) s reason tail

/-- The older of two versions retires with nothing in flight. -/
theorem exec_routeRetired_older {s : State} {n : Fin 65536} {v w : RouteVersion} (hv : s.versionsOf n = [v, w]) (h0 : v.inflight = 0)
    (hw : v.vid ≠ w.vid) : exec (.routeRetired n) s =
      .next ((s.setVersions n [w]).excEvent 0x21 (leBytes 2 n ++ leBytes 2 v.ver ++ leBytes 4 0)) := by
  simp [exec, execRouteRetired, hv, h0, hw.symm]

/-! ### Ports (R57, R58, R96, R98) -/

/-- No frame is in reception on a port. -/
theorem find_inReception_none {s : State} {n : Nat} (h : ∀ q ∈ s.rly.packets, q.port = n → q.ended = true) :
    s.rly.packets.find? (fun q => q.port == n && !q.ended) = none := by
  refine List.find?_eq_none.2 fun q hq => ?_
  by_cases hn : q.port = n
  · simp [h q hq hn]
  · simp [hn]

theorem abortRx_idle {s : State} {n : Nat} (h : ∀ q ∈ s.rly.packets, q.port = n → q.ended = true) : s.abortRx n = s := by
  simp only [State.abortRx, find_inReception_none h]

/-- The frame that a port is receiving, the relay's only packet, is counted and taken out. -/
theorem abortRx_only {s : State} {q : RxPacket} (hq : s.rly.packets = [q]) (he : q.ended = false) (hc : q.cell = noCell)
    (hn : q.snap = none) (hs : s.rly.selects = []) :
    s.abortRx q.port = withPackets (s.count (R.C_RLY_Pn_RX_ABORT q.port)) [] := by
  simp only [State.abortRx, hq, List.find?_cons_of_pos, beq_self_eq_true, he, Bool.not_false, Bool.and_self]
  exact dropPacket_only hq hc hn hs

theorem exec_portDisable {s : State} {who : Sender} {p : Fin 8} (h : Serves s who (R.RLY_PnCTL_PORT_EN p).addr) :
    exec (.portDisable who p) s = .next (s.disablePort p) := by
  simp only [exec, execPortDisable, access_served h]

theorem exec_relayDisable {s : State} {who : Sender} (h : Serves s who R.RLY_CTRL_ENABLE.addr) :
    exec (.relayDisable who) s = .next s.disableRelay := by
  simp only [exec, execRelayDisable, access_served h]

/-- Between packets the relay stops without another effect. -/
theorem disableRelay_idle {s : State} (h : ∀ q ∈ s.rly.packets, q.ended = true) :
    s.disableRelay = s.putBit R.RLY_CTRL_ENABLE false := by
  rw [State.disableRelay, List.foldl_fixed' fun _ => abortRx_idle fun q hq _ => h q hq]

/-- A link may come up: the port runs, and its partner offers the mode and the training ended well where they count (R58). -/
theorem linkMay_of {s : State} {n : Nat} {offers : List (Fin 6)} {trained : Bool} (hr : s.portRuns n = true)
    (h : s.isSet (R.RLY_PnCTL_LOOPBACK n) = true ∨
      ((s.isSet (R.RLY_PnCTL_AN_EN n) = true → ∃ m ∈ offers, m.val = s.get R.RLY_PORT_MODE_MODE) ∧
        (s.isSet (R.RLY_PnCTL_LT_EN n) = true → trained = true))) : s.linkMay n offers trained = true := by
  have himp {a b : Bool} : (!a || b) = true ↔ (a = true → b = true) := by cases a <;> simp
  simpa only [State.linkMay, hr, Bool.true_and, Bool.or_eq_true, Bool.and_eq_true, himp, List.any_eq_true, beq_iff_eq] using h

theorem exec_linkChange_refused {s : State} {p : Fin 8} {up trained : Bool} {offers : List (Fin 6)} (hu : up = true)
    (hm : s.linkMay p offers trained = false) : exec (.linkChange p ⟨up, offers, trained⟩) s = .next s := by
  simp [exec, execLinkChange, hu, hm]

/-- A link that changes shows its state, and that it changed. -/
theorem exec_linkChange_changes {s : State} {p : Fin 8} {up trained : Bool} {offers : List (Fin 6)}
    (hl : s.isSet (R.RLY_PnSTAT_LINK_UP p) = !up) (hm : up = true → s.linkMay p offers trained = true) :
    exec (.linkChange p ⟨up, offers, trained⟩) s =
      .next ((s.putBit (R.RLY_PnSTAT_LINK_UP p) up).putBit (R.RLY_PnSTAT_LINK_CHANGE p) true) := by
  cases up
  · simp [exec, execLinkChange, hl]
  · simp [exec, execLinkChange, hl, hm rfl]

theorem exec_anComplete_resolves {s : State} {p : Fin 8} {fec : Fin 4} (hr : s.portRuns p = true)
    (ha : s.isSet (R.RLY_PnCTL_AN_EN p) = true) (h25 : s.portRate = 25) (h0 : s.get (R.RLY_PnCTL_FEC p) = 0) (hf : fec ≠ 0) :
    exec (.anComplete p fec) s = .next (s.put (R.RLY_PnSTAT_FEC_ACTIVE p) fec) := by
  have hv : fec.val ≠ 0 := fun h => hf (Fin.ext h)
  simp [exec, execAnComplete, hr, ha, h25, h0, hv]

end Sys2Proof.Laws
end

section
/-! The statement of chapter 2 about route versions and the stopping of ports. -/

namespace Sys2Proof.Proofs

open Sys2Proof Sys2Proof.Machine Sys2Proof.Safety Sys2Proof.Laws

/-- LINK_CHANGE of a link that may change. -/
theorem linkChange_shows {s : State} {p : Fin 8} {up trained : Bool} {offers : List (Fin 6)}
    (hl : s.isSet (R.RLY_PnSTAT_LINK_UP p) = !up) (hm : up = true → s.linkMay p offers trained = true) :
    Completes (exec (.linkChange p ⟨up, offers, trained⟩) s) fun t =>
      t = { s with regs := t.regs } ∧ t.isSet (R.RLY_PnSTAT_LINK_UP p) = up ∧ t.isSet (R.RLY_PnSTAT_LINK_CHANGE p) = true ∧
      t.get (R.RLY_PnSTAT_FEC_ACTIVE p) = s.get (R.RLY_PnSTAT_FEC_ACTIVE p) ∧
      SameRegsBut s t [(R.RLY_PnSTAT_LINK_UP p).addr] := by
  obtain ⟨hs, hr⟩ := ((Rewrites.refl (R.RLY_PnSTAT_LINK_UP p).addr s).put (R.RLY_PnSTAT_LINK_UP p) (bnat up) rfl).put
    (R.RLY_PnSTAT_LINK_CHANGE p) (bnat true) rfl
  have hup : apart 1 1 0 1 := .inr (by decide)
  have hfec : apart 1 1 2 2 ∧ apart 0 1 2 2 := ⟨.inl (by decide), .inl (by decide)⟩
  refine ⟨_, exec_linkChange_changes hl hm, hs, ?_, ?_, ?_, hr⟩
  · exact (isSet_put_apart _ _ _ _ (Nat.le_of_ble_eq_true rfl) (.inr hup)).trans
      (isSet_putBit_same s (R.RLY_PnSTAT_LINK_UP p) up (Nat.le_of_ble_eq_true rfl) rfl)
  · exact isSet_putBit_same _ (R.RLY_PnSTAT_LINK_CHANGE p) true (Nat.le_of_ble_eq_true rfl) rfl
  · exact (get_put_apart _ _ _ _ (Nat.le_of_ble_eq_true rfl) (.inr hfec.1)).trans
      (get_put_apart _ _ _ _ (Nat.le_of_ble_eq_true rfl) (.inr hfec.2))

/-- PORT_DISABLE while the relay's only packet is in reception on the port. -/
theorem portDisable_aborts {s : State} {who : Sender} {p : Fin 8} (h : Serves s who (R.RLY_PnCTL_PORT_EN p).addr) {q : RxPacket}
    (hq : s.rly.packets = [q]) (hp : q.port = p.val) (he : q.ended = false) (hc : q.cell = noCell) (hs : s.rly.selects = [])
    (hn : q.snap = none) : Completes (exec (.portDisable who p) s) fun t =>
      t = { s with regs := t.regs, ctr := t.ctr, rly := { s.rly with packets := [] } } ∧
      t.isSet (R.RLY_PnCTL_PORT_EN p) = false ∧ SameRegsBut s t [(R.RLY_PnCTL_PORT_EN p).addr] ∧
      t.counter (R.C_RLY_Pn_RX_ABORT p) = (s.counter (R.C_RLY_Pn_RX_ABORT p) + 1) % 2 ^ 64 ∧
      SameCountersBut s t [R.C_RLY_Pn_RX_ABORT p] := by
  have ha := abortRx_only hq he hc hn hs
  rw [hp] at ha
  obtain ⟨-, hcount, hsame⟩ := count_only s (R.C_RLY_Pn_RX_ABORT p) 1
  refine ⟨_, (exec_portDisable h).trans (congrArg _ (congrArg (State.putBit · _ false) ha)), rfl, ?_, fun a hx => ?_, hcount, hsame⟩
  · exact isSet_putBit_same _ (R.RLY_PnCTL_PORT_EN p) false (Nat.le_of_ble_eq_true rfl) rfl
  · exact reg_put_ne _ (R.RLY_PnCTL_PORT_EN p) _ (by simpa using hx)

/-- Settles O13: a version that retires, a link, an auto-negotiation, and the two ways to stop a port. -/
theorem routesRetireAndPortsStop : Obligations.RoutesRetireAndPortsStop := by
  refine ⟨fun s n v w hv h0 hw => ?retired, fun s p up trained offers hl => ⟨fun hu hm => ?refused, fun hm => ?changes⟩,
    fun s p fec hr ha h25 h0 hf => ?resolved, fun s who p hs => ⟨fun hi => ?idle, fun q hq hp he hc hsel hn => ?aborts⟩,
    fun s who hs hi => ?relay⟩
  case retired =>
    refine ⟨_, exec_routeRetired_older hv h0 hw, ?_, excEvent_mem _ _ _, rfl⟩
    rw [State.versionsOf, excEvent_rly]
    exact versionsOf_setVersions s n [w]
  case refused => exact ⟨s, exec_linkChange_refused hu hm, rfl⟩
  case changes =>
    refine linkChange_shows hl fun hu => ?_
    obtain ⟨hr, h⟩ := hm hu
    exact linkMay_of hr h
  case resolved => exact ⟨_, exec_anComplete_resolves hr ha h25 h0 hf, setsOnly_put s _ _ (Nat.le_of_ble_eq_true rfl)⟩
  case idle =>
    refine ⟨_, exec_portDisable hs, ?_⟩
    rw [State.disablePort, abortRx_idle hi]
    exact setsOnly_put s _ _ (Nat.le_of_ble_eq_true rfl)
  case aborts => exact portDisable_aborts hs hq hp he hc hsel hn
  case relay =>
    refine ⟨_, exec_relayDisable hs, ?_⟩
    rw [disableRelay_idle hi]
    exact setsOnly_put s _ _ (by decide)

end Sys2Proof.Proofs
end

section
/-! SUPPORT. Counters that several updates raise, and the saturating ones. -/

namespace Sys2Proof.Laws

open Sys2Proof Sys2Proof.Machine Sys2Proof.Safety

/-- A listed counter may be raised as well. -/
theorem sameCountersBut_count {s t : State} {as : List Nat} (h : SameCountersBut s t as) {a : Nat} (ha : a ∈ as) (n : Nat) :
    SameCountersBut s (t.count a n) as := fun b hb =>
  (counter_count_ne t n (ne_of_mem_of_not_mem ha hb).symm).trans (h b hb)

/-- A counter that saturates. -/
theorem get_bump_same (s : State) (f : Fld) (n : Nat) (h : f.lsb + f.width ≤ 32) :
    (s.bump f n).get f = min (2 ^ f.width - 1) (s.get f + n) := by
  refine (get_put_same s f _ h).trans (Nat.mod_eq_of_lt ?_)
  have : 0 < 2 ^ f.width := by positivity
  simp only [satAdd]
  omega

end Sys2Proof.Laws
end

section
/-! SUPPORT. The way of a received frame (R59 to R62, R76): the filters, its stamps and its place in a miss buffer. -/

namespace Sys2Proof.Laws

open Sys2Proof Sys2Proof.Machine Sys2Proof.Safety

/-- A port that takes in frames: it runs, its link is up, and it is receiving none (R59, R96). -/
structure TakesFrames (s : State) (p : Fin 8) : Prop where
  runs : s.portRuns p = true
  up : s.isSet (R.RLY_PnSTAT_LINK_UP p) = true
  between : ∀ q ∈ s.rly.packets, q.port = p.val → q.ended = true

theorem TakesFrames.any_inReception {s : State} {p : Fin 8} (h : TakesFrames s p) :
    s.rly.packets.any (fun q => q.port == p.val && !q.ended) = false := by
  rw [List.any_eq_false]
  intro q hq
  have := List.find?_eq_none.1 (find_inReception_none h.between) q hq
  simpa using this

theorem TakesFrames.exec_rxFrame_none {s : State} {p : Fin 8} (h : TakesFrames s p) {f : List Byte} (ha : s.arrives p f = none) :
    exec (.rxFrame p f) s = .next s := by
  simp only [exec, execRxFrame, h.runs, h.up, h.any_inReception, ha, Bool.not_true, Bool.or_self, Bool.false_eq_true, if_false]

/-- The frame that arrives is taken in. -/
theorem TakesFrames.exec_rxFrame_some {s : State} {p : Fin 8} (h : TakesFrames s p) {f g : List Byte} (ha : s.arrives p f = some g) :
    exec (.rxFrame p f) s = .next ((s.unloop p).receive p g) := by
  simp only [exec, execRxFrame, h.runs, h.up, h.any_inReception, ha, Bool.not_true, Bool.or_self, Bool.false_eq_true, if_false]

/-- A port in LOOPBACK takes in the oldest frame that it has sent (R98). -/
theorem arrives_looped {s : State} {n : Nat} (hl : s.isSet (R.RLY_PnCTL_LOOPBACK n) = true) (f : List Byte) :
    s.arrives n f = (SMap.get [] s.rly.looped n).head? := if_pos hl

theorem unloop_looped {s : State} {n : Nat} (hl : s.isSet (R.RLY_PnCTL_LOOPBACK n) = true) :
    s.unloop n = s.withRly fun r => { r with looped := SMap.set [] r.looped n (SMap.get [] r.looped n).tail } := if_pos hl

/-- Another port takes in the frame that it is sent. -/
theorem TakesFrames.exec_rxFrame_sent {s : State} {p : Fin 8} (h : TakesFrames s p) (hl : s.isSet (R.RLY_PnCTL_LOOPBACK p) = false)
    (f : List Byte) : exec (.rxFrame p f) s = .next (s.receive p f) := by
  have hn : ¬ s.isSet (R.RLY_PnCTL_LOOPBACK p) = true := by rw [hl]; decide
  have ha : s.arrives p f = some f := if_neg hn
  have hu : s.unloop p = s := if_neg hn
  rw [h.exec_rxFrame_some ha, hu]

/-! ### The filters (R60, R61) -/

theorem receive_runt (s : State) (n : Nat) {f : List Byte} (h : f.length + 4 < 64) : s.receive n f = s.count (R.C_RLY_Pn_RX_RUNT n) := by
  simp only [State.receive, if_pos h]

/-- A frame whose length is accepted. -/
structure FitsPort (s : State) (f : List Byte) : Prop where
  long : 64 ≤ f.length + 4
  short : f.length + 4 ≤ s.get R.RLY_MAX_FRAME_BYTES

theorem receive_oversize {s : State} (n : Nat) {f : List Byte} (h : 64 ≤ f.length + 4) (hm : s.get R.RLY_MAX_FRAME_BYTES < f.length + 4) :
    s.receive n f = s.count (R.C_RLY_Pn_RX_OVERSIZE n) := by
  simp only [State.receive, if_neg (Nat.not_lt.2 h), if_pos hm]

theorem receive_pause {s : State} (n : Nat) {f : List Byte} (h : FitsPort s f) (he : be f 12 2 = 0x8808) :
    s.receive n f = s.count (R.C_RLY_Pn_RX_PAUSE n) := by
  simp only [State.receive, if_neg (Nat.not_lt.2 h.long), if_neg (Nat.not_lt.2 h.short), if_pos he]

/-- The address of a port as a frame carries it. -/
def portMac (s : State) (n : Nat) : List Byte :=
  natToOs 2 (s.get (R.RLY_PnMAC_HI_ADDR n)) ++ natToOs 4 (s.get (R.RLY_PnMAC_LO_ADDR n))

theorem receive_filtered {s : State} (n : Nat) {f : List Byte} (h : FitsPort s f) (he : be f 12 2 ≠ 0x8808)
    (hm : f.take 6 ≠ portMac s n) (hb : f.take 6 ≠ List.replicate 6 0xFF) (h6 : f.take 2 ≠ [0x33, 0x33]) :
    s.receive n f = s.count (R.C_RLY_Pn_RX_FILTER_DROP n) := by
  have ht : (f.take 6).take 2 = f.take 2 := by rw [List.take_take]; rfl
  have hd : (f.take 6 != portMac s n && f.take 6 != List.replicate 6 0xFF && (f.take 6).take 2 != [0x33, 0x33]) = true := by
    simp only [ht, Bool.and_eq_true, bne_iff_ne]
    exact ⟨⟨hm, hb⟩, h6⟩
  unfold portMac at hd
  simp only [State.receive, if_neg (Nat.not_lt.2 h.long), if_neg (Nat.not_lt.2 h.short), if_neg he, if_pos hd]

/-! ### A frame that is kept (R62, R76) -/

/-- The packet of a frame that arrives now, of which nothing has been decided. -/
def arrived (s : State) (n : Nat) (f : List Byte) : RxPacket :=
  ⟨s.rly.nextId, n, f, f.length + 4, s.time64, s.cycle % 2 ^ 32, s.get R.TIM_STATUS_EPOCH, (SMap.get 0 s.rly.tags n + 1) % 65536, 0, [], 0,
    [], 0, 0, noCell, true, false, .discard, 0, [], none⟩

/-- The state with the frame counted, tagged and in the relay. -/
def admitted (s : State) (n : Nat) (f : List Byte) : State :=
  ((s.count (R.C_RLY_Pn_RX_FRAMES n)).count (R.C_RLY_Pn_RX_BYTES n) (f.length + 4)).withRly fun r =>
    { r with nextId := r.nextId + 1, tags := SMap.set 0 r.tags n ((SMap.get 0 s.rly.tags n + 1) % 65536),
             packets := r.packets ++ [arrived s n f] }

theorem admitted_counter (s : State) (n : Nat) (f : List Byte) (a : Nat) : (admitted s n f).counter a =
    ((s.count (R.C_RLY_Pn_RX_FRAMES n)).count (R.C_RLY_Pn_RX_BYTES n) (f.length + 4)).counter a := rfl

theorem admitted_only (s : State) (n : Nat) (f : List Byte) : RelayOnly s (admitted s n f) :=
  (((RelayOnly.refl s).count _ _).count _ _).withRly _

/-- The packet of a frame that is parsed as a flow (R63). -/
def flowPacket (s : State) (n : Nat) (f : List Byte) (kind : Nat) (key : List Byte) (pay len : Nat) (ok : Bool) : RxPacket :=
  { arrived s n f with kind := kind, key := key, h0 := hash0 key, pay := pay, payLen := len, udpOk := ok }

theorem receive_flow {s : State} {n : Nat} {f : List Byte} (h : FitsPort s f) (he : be f 12 2 ≠ 0x8808) (hm : f.take 6 = portMac s n)
    (hs : be f 12 2 ≠ 0x88A8) (hv : be f 12 2 ≠ 0x8100) {kind pay len : Nat} {key : List Byte} {ok : Bool}
    (hp : parseFrame n f = .flow kind key pay len ok) :
    s.receive n f = (admitted s n f).lookup (flowPacket s n f kind key pay len ok) := by
  have hd : (f.take 6 != portMac s n && f.take 6 != List.replicate 6 0xFF && (f.take 6).take 2 != [0x33, 0x33]) = false := by
    simp [hm]
  unfold portMac at hd
  simp only [State.receive, if_neg (Nat.not_lt.2 h.long), if_neg (Nat.not_lt.2 h.short), if_neg he, hd, hs, hv, decide_false,
    Bool.false_and, Bool.or_self, Bool.false_eq_true, if_false, hp]
  rfl

theorem cached_of_cache {s t : State} (h : t.rly.cache = s.rly.cache) (key : List Byte) : t.cached key = s.cached key := by
  simp only [State.cached, State.cacheSetOf, h]

/-- A packet whose key the cache does not hold takes a free miss buffer; no other packet waits. -/
theorem lookup_waits {s : State} {p q : RxPacket} (hr : s.isSet R.RLY_STATUS_FCT_READY = true) (hc : s.cached p.key = none)
    (hq : s.rly.packets = [q]) (hd : q.plan = .discard) (hi : p.id = q.id) :
    s.lookup p = withPackets (s.count R.C_RLY_FCT_MISS) [{ p with plan := .waiting }] := by
  have hw : (s.count R.C_RLY_FCT_MISS).waiters p.key = [] := by
    simp [State.waiters, hq, hd]
  have hk : missKeys (s.count R.C_RLY_FCT_MISS).rly.packets = [] := by
    simp [missKeys, hq, hd]
  simp only [State.lookup, hr, hc, hw, hk, List.length_nil]
  exact setPacket_only (s := s.count R.C_RLY_FCT_MISS) hq hi

end Sys2Proof.Laws
end

section
/-! The statement of chapter 2 about received frames. -/

namespace Sys2Proof.Proofs

open Sys2Proof Sys2Proof.Machine Sys2Proof.Safety Sys2Proof.Laws

/-- A looped frame that is too short. -/
theorem rxFrame_loopedRunt {s : State} {p : Fin 8} (h : TakesFrames s p) (hl : s.isSet (R.RLY_PnCTL_LOOPBACK p) = true) (f : List Byte)
    {g : List Byte} {l : List (List Byte)} (hg : SMap.get [] s.rly.looped p = g :: l) (hlen : g.length + 4 < 64) :
    Completes (exec (.rxFrame p f) s) fun t =>
      t = { s with ctr := t.ctr, rly := t.rly } ∧ SMap.get [] t.rly.looped p = l ∧
      t.counter (R.C_RLY_Pn_RX_RUNT p) = (s.counter (R.C_RLY_Pn_RX_RUNT p) + 1) % 2 ^ 64 := by
  have ha : s.arrives p f = some g := by rw [arrives_looped hl, hg, List.head?_cons]
  rw [h.exec_rxFrame_some ha, unloop_looped hl]
  refine ⟨_, congrArg _ (receive_runt _ _ hlen), rfl, ?_, counter_count_same _ _ _⟩
  refine (get_set_same [] s.rly.looped p (SMap.get [] s.rly.looped p).tail).trans ?_
  rw [hg, List.tail_cons]

/-- A flow's frame that passes the filters and finds neither its key in the cache nor another packet in the relay. -/
theorem rxFrame_kept {s : State} {p : Fin 8} (h : TakesFrames s p) (hl : s.isSet (R.RLY_PnCTL_LOOPBACK p) = false) {f : List Byte}
    (hf : FitsPort s f) (he : be f 12 2 ≠ 0x8808) (hm : f.take 6 = portMac s p) (hs : be f 12 2 ≠ 0x88A8) (hv : be f 12 2 ≠ 0x8100)
    {kind pay len : Nat} {key : List Byte} {ok : Bool} (hp : parseFrame p f = .flow kind key pay len ok)
    (hr : s.isSet R.RLY_STATUS_FCT_READY = true) (hc : s.cached key = none) (h0 : s.rly.packets = []) :
    Completes (exec (.rxFrame p f) s) fun t =>
      t = { s with ctr := t.ctr, rly := t.rly } ∧
      t.counter (R.C_RLY_Pn_RX_FRAMES p) = (s.counter (R.C_RLY_Pn_RX_FRAMES p) + 1) % 2 ^ 64 ∧
      t.counter (R.C_RLY_Pn_RX_BYTES p) = (s.counter (R.C_RLY_Pn_RX_BYTES p) + (f.length + 4)) % 2 ^ 64 ∧
      t.counter R.C_RLY_FCT_MISS = (s.counter R.C_RLY_FCT_MISS + 1) % 2 ^ 64 ∧
      SameCountersBut s t [R.C_RLY_Pn_RX_FRAMES p, R.C_RLY_Pn_RX_BYTES p, R.C_RLY_FCT_MISS] ∧
      SMap.get 0 t.rly.tags p = (SMap.get 0 s.rly.tags p + 1) % 65536 ∧
      ∃ q, t.rly.packets = [q] ∧ q.plan = .waiting ∧ q.key = key ∧ q.kind = kind ∧ q.port = p ∧ q.ts = s.time64 ∧
        q.age = s.cycle % 2 ^ 32 ∧ q.frame = f ∧ q.ended = false := by
  have ha : (admitted s p f).rly.packets = [arrived s p f] := by
    show s.rly.packets ++ [arrived s p f] = _
    rw [h0, List.nil_append]
  have hw := lookup_waits (s := admitted s p f) (p := flowPacket s p f kind key pay len ok) hr ((cached_of_cache rfl key).trans hc) ha
    rfl rfl
  have hfb : R.C_RLY_Pn_RX_FRAMES p ≠ R.C_RLY_Pn_RX_BYTES p := by simp [R.C_RLY_Pn_RX_FRAMES, R.C_RLY_Pn_RX_BYTES]
  have hfm : R.C_RLY_Pn_RX_FRAMES p ≠ R.C_RLY_FCT_MISS := by simp only [R.C_RLY_Pn_RX_FRAMES, R.C_RLY_FCT_MISS]; omega
  have hbm : R.C_RLY_Pn_RX_BYTES p ≠ R.C_RLY_FCT_MISS := by simp only [R.C_RLY_Pn_RX_BYTES, R.C_RLY_FCT_MISS]; omega
  refine ⟨_, (h.exec_rxFrame_sent hl f).trans (congrArg _ ((receive_flow hf he hm hs hv hp).trans hw)),
    ((admitted_only s p f).count _ _).withPackets _, ?_, ?_, ?_, ?_, ?_,
    _, rfl, rfl, rfl, rfl, rfl, rfl, rfl, rfl, rfl⟩
  · rw [withPackets_counter, counter_count_ne _ _ hfm, admitted_counter, counter_count_ne _ _ hfb, counter_count_same]
  · rw [withPackets_counter, counter_count_ne _ _ hbm, admitted_counter, counter_count_same, counter_count_ne _ _ hfb.symm]
  · rw [withPackets_counter, counter_count_same, admitted_counter, counter_count_ne _ _ hbm.symm, counter_count_ne _ _ hfm.symm]
  · refine sameCountersBut_count (t := admitted s p f) (fun a ha => ?_) (by simp) 1
    rw [admitted_counter]
    exact sameCountersBut_count (sameCountersBut_count (fun _ _ => rfl) (by simp) 1) (by simp) _ a ha
  · exact get_set_same 0 s.rly.tags p _

/-- Settles O9: a looped frame, each filter in its order, and a frame that is kept. -/
theorem receivedFramesAreFilteredOrKept : Obligations.ReceivedFramesAreFilteredOrKept := by
  intro s p f hr hu hb
  have h : TakesFrames s p := ⟨hr, hu, hb⟩
  refine ⟨fun hl => ⟨fun h0 => ?silent, fun g l => rxFrame_loopedRunt h hl f⟩, fun hl => ⟨fun h1 => ?runt, fun h1 h2 => ?oversize,
    fun h1 h2 he => ?pause, fun h1 h2 he hm hbc h6 => ?filtered,
    fun kind key pay len ok h1 h2 he hm hs hv => rxFrame_kept h hl ⟨h1, h2⟩ he hm hs hv⟩⟩
  case silent => exact ⟨s, h.exec_rxFrame_none (by rw [arrives_looped hl, h0, List.head?_nil]), rfl⟩
  case runt => exact ⟨_, (h.exec_rxFrame_sent hl f).trans (congrArg _ (receive_runt s p h1)), count_only _ _ _⟩
  case oversize => exact ⟨_, (h.exec_rxFrame_sent hl f).trans (congrArg _ (receive_oversize p h1 h2)), count_only _ _ _⟩
  case pause => exact ⟨_, (h.exec_rxFrame_sent hl f).trans (congrArg _ (receive_pause p ⟨h1, h2⟩ he)), count_only _ _ _⟩
  case filtered =>
    exact ⟨_, (h.exec_rxFrame_sent hl f).trans (congrArg _ (receive_filtered p ⟨h1, h2⟩ he hm hbc h6)), count_only _ _ _⟩

end Sys2Proof.Proofs
end

section
/-! SUPPORT. The way of a packet out of the relay (R38, R65, R76 to R79): its lookup's end, its last bit and its decryption. -/

namespace Sys2Proof.Laws

open Sys2Proof Sys2Proof.Machine Sys2Proof.Safety

/-! ### A slow lookup's end (R76, R77) -/

/-- A media packet without a match is discarded where MISS_ACTION says so. -/
theorem noMatch_discards {s : State} {p : RxPacket} (hk : p.kind < 2) (ha : s.isSet R.RLY_MISS_ACTION_ACTION = false) :
    s.noMatch p = (s.count R.C_RLY_MISS_NOMATCH).setPacket { p with plan := .discard } := by
  simp [State.noMatch, Nat.not_le.2 hk, ha]

/-- The only packet, which waits for a key that the table does not hold. -/
theorem exec_fctSlowLookupDone_missed {s : State} {p : RxPacket} (hp : s.rly.packets = [p]) (hw : p.plan = .waiting)
    (he : p.ended = false) (hk : p.kind < 2) (ha : s.isSet R.RLY_MISS_ACTION_ACTION = false) (hf : s.fctFind p.key = none) :
    exec .fctSlowLookupDone s = .next (withPackets (s.count R.C_RLY_MISS_NOMATCH) [{ p with plan := .discard }]) := by
  have hn : s.noMatch p = withPackets (s.count R.C_RLY_MISS_NOMATCH) [{ p with plan := .discard }] :=
    (noMatch_discards hk ha).trans (setPacket_only hp rfl)
  have hr : s.resolve none [p] = s.noMatch p := by
    simp [State.resolve, hn, he]
  have hx : exec .fctSlowLookupDone s = .next (s.resolve none [p]) := by
    simp [exec, execFctSlowLookupDone, hp, missKeys, hw, State.waiters, hf]
  rw [hx, hr, hn]

/-! ### A packet's last bit (R65, R98) -/

theorem countFec_off {s : State} {n : Nat} (h : s.get (R.RLY_PnSTAT_FEC_ACTIVE n) ≤ 1) (c l : Nat) : s.countFec n c l = s := by
  simp only [State.countFec, if_pos h]

/-- A port that runs FEC counts the codewords that it corrected and those it could not. -/
theorem countFec_on {s : State} {n : Nat} (h : 1 < s.get (R.RLY_PnSTAT_FEC_ACTIVE n)) (c l : Nat) :
    s.countFec n c l = (s.bump (R.RLY_PnFEC_CORR_COUNT n) c).bump (R.RLY_PnFEC_UNCORR_COUNT n) l := by
  simp only [State.countFec, if_neg (Nat.not_le.2 h)]

theorem countFec_reads (s : State) (n c l : Nat) :
    ((s.bump (R.RLY_PnFEC_CORR_COUNT n) c).bump (R.RLY_PnFEC_UNCORR_COUNT n) l).get (R.RLY_PnFEC_CORR_COUNT n) =
        min (2 ^ 32 - 1) (s.get (R.RLY_PnFEC_CORR_COUNT n) + c) ∧
      ((s.bump (R.RLY_PnFEC_CORR_COUNT n) c).bump (R.RLY_PnFEC_UNCORR_COUNT n) l).get (R.RLY_PnFEC_UNCORR_COUNT n) =
        min (2 ^ 32 - 1) (s.get (R.RLY_PnFEC_UNCORR_COUNT n) + l) := by
  have hne : (R.RLY_PnFEC_CORR_COUNT n).addr ≠ (R.RLY_PnFEC_UNCORR_COUNT n).addr := by
    simp only [R.RLY_PnFEC_CORR_COUNT, R.RLY_PnFEC_UNCORR_COUNT]
    omega
  refine ⟨?_, ?_⟩
  · exact (get_put_ne _ (R.RLY_PnFEC_UNCORR_COUNT n) _ _ hne).trans (get_bump_same s _ c (Nat.le_of_ble_eq_true rfl))
  · refine (get_bump_same _ _ l (Nat.le_of_ble_eq_true rfl)).trans ?_
    exact congrArg (fun x => min (2 ^ 32 - 1) (x + l)) (get_put_ne s (R.RLY_PnFEC_CORR_COUNT n) _ _ hne.symm)

/-- The relay's only packet is in reception on a port. -/
structure InReception (s : State) (p : RxPacket) (port : Fin 8) : Prop where
  only : s.rly.packets = [p]
  port : p.port = port.val
  open_ : p.ended = false

theorem InReception.exec_rxFrameEnd {s : State} {p : RxPacket} {port : Fin 8} (h : InReception s p port) (ok : Bool) (c l : Nat) :
    exec (.rxFrameEnd port ⟨ok, c, l⟩) s =
      .next (if !ok then ((s.countFec port c l).count (R.C_RLY_Pn_RX_FCS_ERR port)).dropPacket p
        else if !p.udpOk then ((s.countFec port c l).count R.C_RLY_CSUM_DROP).dropPacket p
        else (s.countFec port c l).proceed { p with ended := true }) := by
  obtain ⟨hp, hport, he⟩ := h
  simp only [exec, execRxFrameEnd, hp, List.find?_cons_of_pos, hport, he, beq_self_eq_true, Bool.not_false, Bool.and_self]
  cases ok <;> cases p.udpOk <;> rfl

/-- A packet with a bad FCS is dropped. -/
theorem InReception.exec_rxFrameEnd_badFcs {s : State} {p : RxPacket} {port : Fin 8} (h : InReception s p port) (c l : Nat) :
    exec (.rxFrameEnd port ⟨false, c, l⟩) s = .next (((s.countFec port c l).count (R.C_RLY_Pn_RX_FCS_ERR port)).dropPacket p) :=
  (h.exec_rxFrameEnd false c l).trans (congrArg Host.Outcome.next (if_pos (by decide)))

/-- A packet with a bad UDP checksum is dropped. -/
theorem InReception.exec_rxFrameEnd_badChecksum {s : State} {p : RxPacket} {port : Fin 8} (h : InReception s p port)
    (hu : p.udpOk = false) (c l : Nat) :
    exec (.rxFrameEnd port ⟨true, c, l⟩) s = .next (((s.countFec port c l).count R.C_RLY_CSUM_DROP).dropPacket p) :=
  (h.exec_rxFrameEnd true c l).trans (congrArg Host.Outcome.next ((if_neg (by decide)).trans (if_pos (by simp [hu]))))

/-- A packet that ends well goes on. -/
theorem InReception.exec_rxFrameEnd_good {s : State} {p : RxPacket} {port : Fin 8} (h : InReception s p port)
    (hu : p.udpOk = true) (c l : Nat) :
    exec (.rxFrameEnd port ⟨true, c, l⟩) s = .next ((s.countFec port c l).proceed { p with ended := true }) :=
  (h.exec_rxFrameEnd true c l).trans (congrArg Host.Outcome.next ((if_neg (by decide)).trans (if_neg (by simp [hu]))))

/-- A packet that still waits for its lookup is marked as ended. -/
theorem proceed_waiting {s : State} {p : RxPacket} (hp : s.rly.packets = [p]) (hw : p.plan = .waiting) :
    s.proceed { p with ended := true } = withPackets s [{ p with ended := true }] := by
  simp only [State.proceed, hw]
  exact setPacket_only hp rfl

/-! ### The end of an ingress operation (R38, R92) -/

theorem RelayOnly.inflight {s t : State} (h : RelayOnly s t) (n vid : Nat) (up : Bool) : RelayOnly s (t.inflight n vid up) :=
  h.withRly fun r => { r with versions := SMap.set [] r.versions n ((t.versionsOf n).map fun v =>
    if v.vid = vid then { v with inflight := if up then v.inflight + 1 else v.inflight - 1 } else v) }

theorem RelayOnly.mem {s t : State} (h : RelayOnly s t) : t.mem = s.mem := by rw [h]

theorem RelayOnly.regs {s t : State} (h : RelayOnly s t) : t.regs = s.regs := by rw [h]

@[simp] theorem inflight_packets (s : State) (n vid : Nat) (up : Bool) : (s.inflight n vid up).rly.packets = s.rly.packets := rfl

@[simp] theorem inflight_counter (s : State) (n vid : Nat) (up : Bool) (a : Nat) : (s.inflight n vid up).counter a = s.counter a := rfl

theorem counter_dropResult_setObj (s : State) (op base id disp v a : Nat) :
    ((s.dropResult op).setObj base id disp v).counter a = s.counter a := rfl

/-- An operation that failed is counted by its cause, and its packet dropped. -/
theorem exec_ingressDecryptDone_failed {s : State} {p : RxPacket} (hp : s.rly.packets = [p]) {tap : Nat} (hd : p.plan = .decrypt tap)
    {res : CipherResult} (hr : SMap.get none s.cpx.results p.op = some res) (hf : St.success res.status = false) :
    exec (.ingressDecryptDone p.id) s = .next ((((s.dropResult p.op).setObj 0x401014 (fctLeg p.entry) 0 res.status).count
      (if res.status = St.replay then R.C_RLY_REPLAY_DROP else R.C_RLY_AUTH_DROP)).dropPacket p) := by
  simp only [exec, execIngressDecryptDone, hp, List.find?_cons_of_pos, beq_self_eq_true, hd, hr, hf, Bool.false_eq_true, if_false,
    Bool.not_false, if_true]
  by_cases h : res.status = St.replay
  · simp only [if_pos h]
  · simp only [if_neg h]

/-- An operation that succeeded gives an RTP packet in the clear to its stream. -/
theorem exec_ingressDecryptDone_media {s : State} {p : RxPacket} (hp : s.rly.packets = [p]) (hd : p.plan = .decrypt 0)
    {res : CipherResult} (hr : SMap.get none s.cpx.results p.op = some res) (h01 : res.status = 0 ∨ res.status = 1) :
    exec (.ingressDecryptDone p.id) s = .next ((s.dropResult p.op).media { p with rtp := res.out }) := by
  have hok : St.success res.status = true ∧ res.status ≠ St.replay := by
    obtain h | h := h01 <;> rw [h] <;> decide
  simp [exec, execIngressDecryptDone, hp, hd, hr, hok.1, hok.2]

/-- Identifier 0 names no header extension. -/
theorem rtpExt_zero (p : List Byte) (at_ : Nat) : rtpExt p at_ 0 = none := by simp [rtpExt]

theorem audioLevel_none {s : State} {p : RxPacket} (h : p.entry.getD 0x38 0 = 0) : s.audioLevel p = s := by
  simp only [State.audioLevel, h]
  rw [show (0 : Byte).toNat = 0 from rfl, rtpExt_zero]

/-- The payload of an AV1 packet says nothing of its layer: the Dependency Descriptor has. -/
theorem judgePayload_av1 {entry : List Byte} (h : (fctMode entry).1 = 3) (s : State) (rtp : List Byte) (n : RouteSnap) :
    s.judgePayload entry rtp n = (s, n) := by
  simp [State.judgePayload, h]

/-- A packet with a snapshot and no cell, the relay's only one, is dropped. -/
theorem dropPacket_snapshot {s : State} {p q : RxPacket} (hp : s.rly.packets = [p]) (hq : q.id = p.id) (hc : q.cell = noCell)
    {n : RouteSnap} (hn : q.snap = some n) (hs : s.rly.selects = []) :
    s.dropPacket q = (withPackets s []).inflight n.stream n.vid false := by
  rw [dropPacket_noCell hc hs, State.finishPacket, hn, ← forget_only hp hq]

/-- A packet of a forwarded AV1 stream without an audio level extension, classified under snapshot `n`. -/
structure ForwardedAv1 (p : RxPacket) (n : RouteSnap) : Prop where
  snap : p.snap = some n
  action : fctAction p.entry = 1
  mode : (fctMode p.entry).1 = 3
  level : p.entry.getD 0x38 0 = 0

theorem ForwardedAv1.judged {p : RxPacket} {n : RouteSnap} (h : ForwardedAv1 p n) (s : State) :
    s.judged p = (s, { p with snap := some n }) := by
  simp only [State.judged, audioLevel_none h.level, h.snap, judgePayload_av1 h.mode]

/-- Its template was resolved, and a route is committed: it waits for replication. -/
theorem ForwardedAv1.media_awaits {p : RxPacket} {n : RouteSnap} (h : ForwardedAv1 p n) {s : State} (hu : n.unresolved = false)
    (hv : n.vid ≠ 0) : s.media p = s.setPacket { p with plan := .media, snap := some n } := by
  simp only [State.media, h.action, h.judged, hu, hv, if_false, Bool.false_and, Bool.false_eq_true]
  rfl

/-- Its template was not resolved, and no route is committed: it is counted and dropped. -/
theorem ForwardedAv1.media_drops {p : RxPacket} {n : RouteSnap} (h : ForwardedAv1 p n) {s : State} (hu : n.unresolved = true)
    (hv : n.vid = 0) : s.media p = (s.count R.C_RLY_DD_UNKNOWN).dropPacket { p with snap := some n } := by
  have hf : forwards p.entry = true := by simp [forwards, h.action]
  simp only [State.media, h.action, h.judged, hu, hv, hf, Bool.and_self, if_true]
  rfl

end Sys2Proof.Laws
end

section
/-! The statement of chapter 2 about packets that leave the relay or await replication. -/

namespace Sys2Proof.Proofs

open Sys2Proof Sys2Proof.Machine Sys2Proof.Safety Sys2Proof.Laws

/-- RX_FRAME_END of a packet that waits, on a port that runs FEC. -/
theorem rxFrameEnd_countsCodewords {s : State} {p : RxPacket} {port : Fin 8} (h : InReception s p port) (hw : p.plan = .waiting)
    (hu : p.udpOk = true) (hf : 1 < s.get (R.RLY_PnSTAT_FEC_ACTIVE port)) (c l : Nat) :
    Completes (exec (.rxFrameEnd port ⟨true, c, l⟩) s) fun t =>
      t = { s with regs := t.regs, rly := { s.rly with packets := [{ p with ended := true }] } } ∧
      t.get (R.RLY_PnFEC_CORR_COUNT port) = min (2 ^ 32 - 1) (s.get (R.RLY_PnFEC_CORR_COUNT port) + c) ∧
      t.get (R.RLY_PnFEC_UNCORR_COUNT port) = min (2 ^ 32 - 1) (s.get (R.RLY_PnFEC_UNCORR_COUNT port) + l) := by
  obtain ⟨hc, hl⟩ := countFec_reads s port c l
  refine ⟨withPackets ((s.bump (R.RLY_PnFEC_CORR_COUNT port) c).bump (R.RLY_PnFEC_UNCORR_COUNT port) l) [{ p with ended := true }], ?_,
    rfl, hc, hl⟩
  rw [h.exec_rxFrameEnd_good hu, countFec_on hf]
  exact congrArg _ (proceed_waiting h.only hw)

/-- INGRESS_DECRYPT_DONE of an operation that failed. -/
theorem ingressDecryptDone_removes {s : State} {p : RxPacket} (hp : s.rly.packets = [p]) (hc : p.cell = noCell) (hn : p.snap = none)
    (hs : s.rly.selects = []) {tap : Nat} (hd : p.plan = .decrypt tap) {res : CipherResult}
    (hr : SMap.get none s.cpx.results p.op = some res) (hf : St.success res.status = false) :
    Completes (exec (.ingressDecryptDone p.id) s) fun t =>
      t.rly.packets = [] ∧ t.mem = s.mem ∧ t.regs = s.regs ∧
      t.counter R.C_RLY_REPLAY_DROP =
        (if res.status = 0x16 then (s.counter R.C_RLY_REPLAY_DROP + 1) % 2 ^ 64 else s.counter R.C_RLY_REPLAY_DROP) ∧
      t.counter R.C_RLY_AUTH_DROP =
        (if res.status = 0x16 then s.counter R.C_RLY_AUTH_DROP else (s.counter R.C_RLY_AUTH_DROP + 1) % 2 ^ 64) := by
  have hne : R.C_RLY_REPLAY_DROP ≠ R.C_RLY_AUTH_DROP := by decide
  have hcause : (if res.status = St.replay then R.C_RLY_REPLAY_DROP else R.C_RLY_AUTH_DROP) =
    if res.status = 0x16 then R.C_RLY_REPLAY_DROP else R.C_RLY_AUTH_DROP := rfl
  refine ⟨_, (exec_ingressDecryptDone_failed hp hd hr hf).trans (congrArg _ (dropPacket_only hp hc hn hs)), rfl, rfl, rfl, ?_, ?_⟩ <;>
    rw [withPackets_counter, hcause] <;> split_ifs
  · rw [counter_count_same, counter_dropResult_setObj]
  · rw [counter_count_ne _ _ hne, counter_dropResult_setObj]
  · rw [counter_count_ne _ _ hne.symm, counter_dropResult_setObj]
  · rw [counter_count_same, counter_dropResult_setObj]

/-- Settles O10: each way by which the relay's only packet leaves it, and the one by which it awaits replication. -/
theorem packetsLeaveTheRelayOrAwaitReplication : Obligations.PacketsLeaveTheRelayOrAwaitReplication := by
  refine ⟨fun s p port hp hport hc hn hs => ⟨fun hw he hk ha _ hf => ?missed, fun hw he hu hf c l => ?marked,
      fun hw he hu hf c l => rxFrameEnd_countsCodewords ⟨hp, hport, he⟩ hw hu hf c l, fun he hf c l => ?badFcs,
      fun he hu hf c l => ?badChecksum, fun tap res hd hr hf => ingressDecryptDone_removes hp hc hn hs hd hr hf⟩,
    fun s p n res hp hn hd ha hm hl hs hr h01 => ⟨fun hu hv hc => ?unresolved, fun hu hv => ?awaits⟩⟩
  case missed =>
    obtain ⟨-, hcount, hsame⟩ := count_only s R.C_RLY_MISS_NOMATCH 1
    exact ⟨_, exec_fctSlowLookupDone_missed hp hw he hk ha hf, rfl, hcount, hsame⟩
  case marked =>
    refine ⟨withPackets s [{ p with ended := true }], ?_, rfl⟩
    rw [InReception.exec_rxFrameEnd_good ⟨hp, hport, he⟩ hu, countFec_off hf]
    exact congrArg _ (proceed_waiting hp hw)
  case badFcs =>
    obtain ⟨-, hcount, hsame⟩ := count_only s (R.C_RLY_Pn_RX_FCS_ERR port) 1
    refine ⟨withPackets (s.count (R.C_RLY_Pn_RX_FCS_ERR port)) [], ?_, rfl, hcount, hsame⟩
    rw [InReception.exec_rxFrameEnd_badFcs ⟨hp, hport, he⟩, countFec_off hf]
    exact congrArg _ (dropPacket_only hp hc hn hs)
  case badChecksum =>
    obtain ⟨-, hcount, hsame⟩ := count_only s R.C_RLY_CSUM_DROP 1
    refine ⟨withPackets (s.count R.C_RLY_CSUM_DROP) [], ?_, rfl, hcount, hsame⟩
    rw [InReception.exec_rxFrameEnd_badChecksum ⟨hp, hport, he⟩ hu, countFec_off hf]
    exact congrArg _ (dropPacket_only hp hc hn hs)
  case unresolved =>
    have h : ForwardedAv1 { p with rtp := res.out } n := ⟨hn, ha, hm, hl⟩
    have hp' : ((s.dropResult p.op).count R.C_RLY_DD_UNKNOWN).rly.packets = [p] := hp
    have hdrop := dropPacket_snapshot (q := { p with rtp := res.out, snap := some n }) hp' rfl hc rfl hs
    have hx := (exec_ingressDecryptDone_media hp hd hr h01).trans (congrArg Host.Outcome.next ((h.media_drops hu hv).trans hdrop))
    have hrel : RelayOnly (s.dropResult p.op) _ := (((RelayOnly.refl _).count R.C_RLY_DD_UNKNOWN 1).withPackets []).inflight n.stream n.vid false
    obtain ⟨-, hcount, hsame⟩ := count_only (s.dropResult p.op) R.C_RLY_DD_UNKNOWN 1
    exact ⟨_, hx, inflight_packets _ _ _ _, hrel.mem, hrel.regs, (inflight_counter _ _ _ _ _).trans hcount,
      fun a ha => (inflight_counter _ _ _ _ _).trans (hsame a ha)⟩
  case awaits =>
    have h : ForwardedAv1 { p with rtp := res.out } n := ⟨hn, ha, hm, hl⟩
    exact ⟨_, (exec_ingressDecryptDone_media hp hd hr h01).trans (congrArg _ ((h.media_awaits hu hv).trans (setPacket_only hp rfl))), rfl, rfl⟩

end Sys2Proof.Proofs
end

section
/-! SUPPORT. The command ports (R72, R280, R378, R382) and the entry commands of the FCT engine (R69, R71 to R73): who holds a port, and what
each command does to the table. -/

namespace Sys2Proof.Laws

open Sys2Proof Sys2Proof.Machine Sys2Proof.Safety

/-! ### Claimed ports -/

theorem holder_setHolder_same (s : State) (a : Nat) (h : Option Sender) : (s.setHolder a h).holder a = h := get_set_same _ _ _ _

theorem holder_setHolder_ne (s : State) {a b : Nat} (h : Option Sender) (hb : b ≠ a) : (s.setHolder a h).holder b = s.holder b :=
  get_set_ne _ _ _ _ hb

/-- A free port is granted. -/
theorem claim_free {s : State} {a : Nat} {who : Sender} (hm : mayClaim who = true) (h : s.holder a = none) :
    s.claim a who = (s.setHolder a (some who)).emit (.readDone who a 1) := by simp [State.claim, hm, h]

/-- A port that another requester holds is not. -/
theorem claim_held {s : State} {a : Nat} {who other : Sender} (hm : mayClaim who = true) (h : s.holder a = some other) (hne : other ≠ who) :
    s.claim a who = s.emit (.readDone who a 0) := by simp [State.claim, hm, h, hne, bnat]

theorem unclaim_holder {s : State} {a : Nat} {who : Sender} (h : s.holder a = some who) : s.unclaim a who = s.setHolder a none := if_pos h

theorem unclaim_other {s : State} {a : Nat} {who : Sender} (h : s.holder a ≠ some who) : s.unclaim a who = s := if_neg h

/-! ### The engine while a command runs -/

@[simp] theorem fctBusy_fctBase (s : State) : (fctBusy s).fctBase = s.fctBase := pair_put_ne s _ _ _ _ (by decide) (by decide)

@[simp] theorem fctBusy_fctEntry (s : State) (e : Nat) : (fctBusy s).fctEntry e = s.fctEntry e :=
  congrArg (fun b => s.bytes (b + e * 64) 64) (fctBusy_fctBase s)

@[simp] theorem fctBusy_places (s : State) (key : List Byte) : (fctBusy s).places key = s.places key := by
  have hh : (fctBusy s).hash1 key = s.hash1 key := congrArg (crc32c · key) (get_put_ne s _ _ _ (by decide))
  simp only [State.places, hh]

@[simp] theorem fctBusy_fctFind (s : State) (key : List Byte) : (fctBusy s).fctFind key = s.fctFind key := by
  simp only [State.fctFind, fctBusy_places, fctBusy_fctEntry]

@[simp] theorem fctBusy_fctFree (s : State) (key : List Byte) : (fctBusy s).fctFree key = s.fctFree key := by
  simp only [State.fctFree, fctBusy_places, fctBusy_fctEntry]

@[simp] theorem fctBusy_ageOctets (s : State) : (fctBusy s).ageOctets = s.ageOctets :=
  congrArg (leBytes 2) (get_put_ne s _ _ _ (by decide))

@[simp] theorem fctBusy_entryBad (s : State) (e : List Byte) : (fctBusy s).entryBad e = s.entryBad e := by
  have ht : (fctBusy s).isSet R.FUS_CAPACITY_TIER = s.isSet R.FUS_CAPACITY_TIER :=
    congrArg (· == 1) (get_put_ne s R.RLY_FCT_RESULT_BUSY _ _ (by decide))
  have hl : (fctBusy s).legLimit = s.legLimit := congrArg (fun b : Bool => if b then 8192 else 16384) ht
  simp only [State.entryBad, hl]

/-- The state `t` is `s` with tables in memory and the relay changed. -/
def TablesOnly (s t : State) : Prop := t = { s with mem := t.mem, poison := t.poison, rly := t.rly }

theorem TablesOnly.refl (s : State) : TablesOnly s s := rfl

theorem TablesOnly.setBytes {s t : State} (h : TablesOnly s t) (a : Nat) (bs : List Byte) : TablesOnly s (t.setBytes a bs) := by
  unfold TablesOnly at h ⊢
  rw [setBytes_frame, h]

theorem TablesOnly.withRly {s t : State} (h : TablesOnly s t) (f : Relay → Relay) : TablesOnly s (t.withRly f) := by
  unfold TablesOnly at h ⊢
  rw [h]; rfl

theorem TablesOnly.updateCache {s t : State} (h : TablesOnly s t) (key data : List Byte) : TablesOnly s (t.updateCache key data) := by
  unfold State.updateCache
  dsimp only
  split
  · exact h.withRly _
  · exact h

theorem TablesOnly.dropCache {s t : State} (h : TablesOnly s t) (key : List Byte) : TablesOnly s (t.dropCache key) := by
  unfold State.dropCache
  dsimp only
  split
  · exact h.withRly _
  · exact h

theorem TablesOnly.fctRemove {s t : State} (h : TablesOnly s t) (e : Nat) : TablesOnly s (t.fctRemove e) :=
  (h.setBytes _ _).dropCache _

theorem TablesOnly.regs {s t : State} (h : TablesOnly s t) : t.regs = s.regs := by rw [h]

theorem TablesOnly.ctr {s t : State} (h : TablesOnly s t) : t.ctr = s.ctr := by rw [h]

/-- A command of the holder that changes tables alone: its outcome waits with BUSY at 1, and no other register changes. -/
theorem Commands.completes {s : State} {who : Sender} (h : Commands s who) {op : Nat} {u : State} {j : FctJob}
    (hr : (fctBusy s).runFct op = (u, j)) (ht : TablesOnly (fctBusy s) u) :
    Completes (s.access who R.RLY_FCT_CMD_OP.addr fun s => .next (s.fctIssue who op)) fun t =>
      t.mem = u.mem ∧ t.rly.job = some { j with op := op } ∧ t.isSet R.RLY_FCT_RESULT_BUSY = true ∧
      SameRegsBut s t [R.RLY_FCT_RESULT_BUSY.addr] ∧ t.ctr = s.ctr := by
  refine ⟨jobStarted op (u, j), (h.access op).trans (by rw [hr]), jobStarted_mem _ _, jobStarted_job _ _, ?_, fun a ha => ?_, ht.ctr⟩
  · rw [jobStarted_isSet, State.isSet, get_of_regs ht.regs]
    exact isSet_putBit_same s R.RLY_FCT_RESULT_BUSY true (by decide) rfl
  · have hu : (jobStarted op (u, j)).reg a = (fctBusy s).reg a := by simp only [State.reg, jobStarted, State.withRly, ht.regs]
    exact hu.trans (reg_put_ne s R.RLY_FCT_RESULT_BUSY _ (by simpa using ha))

theorem fctBusy_runInsert (s : State) : (fctBusy s).runFct 1 = (fctBusy s).fctInsert s.fctWindow := by simp [State.runFct]

theorem fctBusy_runUpdate (s : State) : (fctBusy s).runFct 2 = (fctBusy s).fctUpdate s.fctWindow := by simp [State.runFct]

theorem fctBusy_runDelete (s : State) : (fctBusy s).runFct 3 = (fctBusy s).fctDelete s.fctWindow := by simp [State.runFct]

theorem fctBusy_runLookup (s : State) : (fctBusy s).runFct 4 = (fctBusy s).fctLookup s.fctWindow := by simp [State.runFct]

/-- A command without the grant, or while the engine is busy, is ignored. -/
theorem fctIssue_ignored {s : State} {who : Sender} (h : s.holds fctPort who = false ∨ s.isSet R.RLY_FCT_RESULT_BUSY = true) (op : Nat) :
    s.fctIssue who op = s.putBit R.RLY_STATUS_CMD_IGNORED true := by
  refine if_pos ?_
  obtain h | h := h <;> simp [h]

/-! ### Entries -/

theorem patch_length {bs v : List Byte} {a : Nat} (h : a + v.length ≤ bs.length) : (patch bs a v).length = bs.length := by
  simp [patch]
  omega

/-- The octets that two patches of an entry leave between them are the entry's own. -/
theorem patch_patch_entry {d v w : List Byte} (hd : d.length = 64) (hv : v.length = 12) (hw : w.length = 2) :
    patch (patch d 0x30 v) 0x3E w = d.take 0x30 ++ v ++ slice d 0x3C 0x3E ++ w := by
  have htake : (patch d 0x30 v).take 0x3E = d.take 0x30 ++ v ++ slice d 0x3C 0x3E := by
    simp [patch, slice, List.take_append, List.drop_take, hd, hv, List.take_take]
  have hdrop : (patch d 0x30 v).drop (0x3E + w.length) = [] := by
    refine List.drop_eq_nil_of_le ?_
    rw [patch_length (by omega)]
    omega
  rw [patch, htake, hdrop, List.append_nil]

/-- An entry that is stored reads back, and no other octet changes. -/
theorem entryStored_reads {s : State} (hp : s.poison = []) (hf : s.fctBase + 2 ^ 30 ≤ hbmBytes) {e : Nat} (he : e < 2 ^ 24) {d : List Byte}
    (hd : d.length = 64) : (s.setBytes (s.fctBase + e * 64) d).bytes (s.fctBase + e * 64) 64 = d ∧
      SameMemoryBut s (s.setBytes (s.fctBase + e * 64) d) (s.fctBase + e * 64) 64 := by
  have hb := bytes_setBytes s (s.fctBase + e * 64) d hp (addressExists_hbm (by omega))
  have hm := sameMemoryBut_setBytes s (s.fctBase + e * 64) d
  rw [hd] at hb hm
  exact ⟨hb, hm⟩

theorem updateCache_mem (s : State) (key data : List Byte) : (s.updateCache key data).mem = s.mem := by
  unfold State.updateCache
  dsimp only
  split <;> rfl

theorem bytes_of_mem {s t : State} (h : t.mem = s.mem) (a n : Nat) : t.bytes a n = s.bytes a n := by
  simp only [State.bytes, State.byte, h]

/-- An entry that a command stores reads back, and no other octet of memory changes. -/
theorem entryStored_busy {s t : State} (hp : s.poison = []) (hf : s.fctBase + 2 ^ 30 ≤ hbmBytes) {e : Nat} (he : e < 2 ^ 24)
    {d : List Byte} (hd : d.length = 64) (hm : t.mem = ((fctBusy s).setBytes (s.fctBase + e * 64) d).mem) :
    t.bytes (s.fctBase + e * 64) 64 = d ∧ SameMemoryBut s t (s.fctBase + e * 64) 64 := by
  have h := entryStored_reads (s := fctBusy s) hp ((fctBusy_fctBase s).symm ▸ hf) he hd
  rw [fctBusy_fctBase] at h
  exact ⟨(bytes_of_mem hm _ _).trans h.1, fun a ha => (sameMemoryBut_of_mem h.2 hm a ha).trans (putBit_byte_read s _ _ a)⟩

/-- INSERT's entry: the window with VALID set, hit at the age `age`. -/
def inserted (w age : List Byte) : List Byte := patch (patch w 0 [w.headD 0 ||| 1]) 0x3C age

theorem inserted_length {w age : List Byte} (hw : w.length = 64) (ha : age.length = 2) : (inserted w age).length = 64 := by
  have hv : (patch w 0 [w.headD 0 ||| 1]).length = 64 := (patch_length (by simp [hw])).trans hw
  exact (patch_length (by omega)).trans hv

/-- INSERT of a key without an entry, where a place is free. -/
theorem fctInsert_stores {s : State} {e : List Byte} {p : Nat × Nat × Nat} (hb : s.entryBad e = false) (hn : s.fctFind (fctKey e) = none)
    (hf : s.fctFree (fctKey e) = some p) : s.fctInsert e =
      (s.setBytes (s.fctBase + p.2.2 * 64) (inserted e s.ageOctets), outcomeAt FctResult.done p) := by
  simp [State.fctInsert, inserted, hb, hn, hf]

theorem fctInsert_exists {s : State} {e : List Byte} {p : Nat × Nat × Nat} (hb : s.entryBad e = false) (hf : s.fctFind (fctKey e) = some p) :
    s.fctInsert e = (s, outcomeAt FctResult.exists_ p) := by
  simp [State.fctInsert, hb, hf]

/-- UPDATE's entry: the fields of the window, but the key and LAST_HIT of the entry. -/
def updated (d w : List Byte) : List Byte := d.take 0x30 ++ slice w 0x30 0x3C ++ slice d 0x3C 0x3E ++ slice w 0x3E 0x40

/-- UPDATE of a key with an entry. -/
theorem fctUpdate_stores {s : State} {e : List Byte} {p : Nat × Nat × Nat} (hl : e.length = 64) (hb : s.entryBad e = false)
    (hf : s.fctFind (fctKey e) = some p) : s.fctUpdate e =
      ((s.setBytes (s.fctBase + p.2.2 * 64) (updated (s.fctEntry p.2.2) e)).updateCache (fctKey e) (updated (s.fctEntry p.2.2) e),
        outcomeAt FctResult.done p) := by
  have hu := patch_patch_entry (d := s.fctEntry p.2.2) (v := slice e 0x30 0x3C) (w := slice e 0x3E 0x40) (bytes_length _ _ _)
    (slice_length (by omega)) (slice_length (by omega))
  simp only [State.fctUpdate, hb, hf, hu]
  rfl

theorem updated_length {d w : List Byte} (hd : d.length = 64) (hw : w.length = 64) : (updated d w).length = 64 := by
  simp [updated, slice, hd, hw]

theorem fctDelete_found {s : State} {e : List Byte} {p : Nat × Nat × Nat} (hf : s.fctFind (fctKey e) = some p) :
    s.fctDelete e = (s.fctRemove p.2.2, outcomeAt FctResult.done p) := by
  simp only [State.fctDelete, hf]

theorem fctLookup_found {s : State} {e : List Byte} {p : Nat × Nat × Nat} (hf : s.fctFind (fctKey e) = some p) :
    s.fctLookup e = (s, { outcomeAt FctResult.done p with data := some (s.fctEntry p.2.2) }) := by
  simp only [State.fctLookup, hf]

/-! ### CLEAR -/

theorem mem_keys_of_find {α : Type} {m : SMap α} {k : Nat} {v : α} (h : SMap.find? m k = some v) : k ∈ m.map fun c => c.1 := by
  induction m with
  | nil => simp [SMap.find?] at h
  | cons c m ih =>
    obtain ⟨j, w⟩ := c
    rw [find_cons] at h
    split at h
    · next hj => exact List.mem_map.2 ⟨_, List.mem_cons_self .., hj⟩
    · exact List.mem_cons_of_mem _ (ih h)

/-- An octet of memory that is not listed reads as 0. -/
theorem byte_unlisted {s : State} {a : Nat} (h : a ∉ s.mem.map fun c => c.1) : s.byte a = 0 := by
  unfold State.byte SMap.get
  cases hf : SMap.find? s.mem a with
  | none => rfl
  | some v => exact absurd (mem_keys_of_find hf) h

/-- Octets that are not listed keep their value. -/
theorem byte_clearValid_other (s : State) (l : List Nat) {c : Nat} (hc : c ∉ l) : (s.clearValid l).byte c = s.byte c := by
  induction l generalizing s with
  | nil => rfl
  | cons a l ih =>
    obtain ⟨hca, hcl⟩ := not_or.1 fun h => hc (List.mem_cons.2 h)
    rw [State.clearValid, ih _ hcl, byte_setByte, if_neg fun h => hca h.1]

/-- The octets listed become even, and even ones stay so. -/
theorem byte_clearValid_even {s : State} (hp : s.poison = []) {l : List Nat} (hl : ∀ a ∈ l, addressExists a = true) {c : Nat}
    (hc : c ∈ l ∨ (s.byte c).toNat % 2 = 0) : ((s.clearValid l).byte c).toNat % 2 = 0 := by
  induction l generalizing s with
  | nil => exact hc.resolve_left List.not_mem_nil
  | cons a l ih =>
    have hm : s.marked a = false := by rw [State.marked, hp, get_nil]
    have hb := byte_setByte s a (s.byte a &&& 0xFE) c
    refine ih (by rw [setByte_frame]; exact hp) (fun b hb => hl b (List.mem_cons_of_mem _ hb)) ?_
    by_cases hca : c = a
    · rw [hb, if_pos ⟨hca, hl a (List.mem_cons_self ..), hm⟩]
      exact .inr (even_and_0xFE _)
    · rw [hb, if_neg fun h => hca h.1]
      exact hc.imp_left fun h => (List.mem_cons.1 h).resolve_left hca

/-- The first octets of the table's entries, those that memory lists. -/
def listedFirsts (s : State) : List Nat :=
  (s.mem.map fun c => c.1).filter fun a => s.fctBase ≤ a && a < s.fctBase + 2 ^ 30 && (a - s.fctBase) % 64 == 0

/-- CLEAR: no entry is valid, and no octet outside the table changes. -/
theorem fctClear_reads {s : State} (hp : s.poison = []) (hf : s.fctBase + 2 ^ 30 ≤ hbmBytes) :
    (∀ e, e < 2 ^ 24 → (s.fctClear.1.byte (s.fctBase + e * 64)).toNat % 2 = 0) ∧
      ∀ a, (a < s.fctBase ∨ s.fctBase + 2 ^ 30 ≤ a) → s.fctClear.1.byte a = s.byte a := by
  have hb (a : Nat) : s.fctClear.1.byte a = (s.clearValid (listedFirsts s)).byte a := rfl
  have hin (a : Nat) (h : a ∈ listedFirsts s) : s.fctBase ≤ a ∧ a < s.fctBase + 2 ^ 30 := by
    have := (List.mem_filter.1 h).2
    simp only [Bool.and_eq_true, decide_eq_true_eq] at this
    exact this.1
  refine ⟨fun e he => ?_, fun a ha => ?_⟩
  · rw [hb]
    refine byte_clearValid_even hp (fun a h => ?_) ?_
    · have ⟨_, h2⟩ := hin a h
      exact addressExists_hbm (n := 1) (by omega) 0 Nat.one_pos
    · by_cases hm : s.fctBase + e * 64 ∈ s.mem.map fun c => c.1
      · refine .inl (List.mem_filter.2 ⟨hm, ?_⟩)
        simp only [Bool.and_eq_true, decide_eq_true_eq, beq_iff_eq]
        omega
      · rw [byte_unlisted hm]
        exact .inr rfl
  · rw [hb]
    exact byte_clearValid_other s _ fun h => by
      have := hin a h
      omega

end Sys2Proof.Laws
end

section
/-! The statement of chapter 1 about command ports and the entry commands of the FCT engine. -/

namespace Sys2Proof.Proofs

open Sys2Proof Sys2Proof.Machine Sys2Proof.Safety Sys2Proof.Laws

/-- INSERT of a new key. -/
theorem insert_stores {s : State} {who : Sender} (h : Commands s who) (hp : s.poison = []) (hf : s.fctBase + 2 ^ 30 ≤ hbmBytes)
    {p : Nat × Nat × Nat} (hb : s.entryBad s.fctWindow = false) (hn : s.fctFind (fctKey s.fctWindow) = none)
    (hr : s.fctFree (fctKey s.fctWindow) = some p) (hlt : p.2.2 < 2 ^ 24) : Completes (exec (.insert who) s) fun t =>
      t.bytes (s.fctBase + p.2.2 * 64) 64 = patch (patch s.fctWindow 0 [s.fctWindow.headD 0 ||| 1]) 0x3C s.ageOctets ∧
      SameMemoryBut s t (s.fctBase + p.2.2 * 64) 64 ∧ t.isSet R.RLY_FCT_RESULT_BUSY = true ∧
      t.rly.job = some ⟨1, FctResult.done, p.1, p.2.1, none⟩ ∧ SameRegsBut s t [R.RLY_FCT_RESULT_BUSY.addr] ∧ t.ctr = s.ctr := by
  have hx := fctInsert_stores (s := fctBusy s) (e := s.fctWindow) (p := p) (by simpa using hb) (by simpa using hn) (by simpa using hr)
  rw [fctBusy_fctBase, fctBusy_ageOctets] at hx
  obtain ⟨t, ht, hmem, hjob, hbusy, hregs, hctr⟩ := h.completes (op := 1)
    ((fctBusy_runInsert s).trans hx) ((TablesOnly.refl _).setBytes _ _)
  obtain ⟨hread, hsame⟩ := entryStored_busy hp hf hlt (inserted_length (fctWindow_length s) (leBytes_length _ _)) hmem
  exact ⟨t, ht, hread, hsame, hbusy, hjob, hregs, hctr⟩

/-- UPDATE of a key with an entry. -/
theorem update_stores {s : State} {who : Sender} (h : Commands s who) (hp : s.poison = []) (hf : s.fctBase + 2 ^ 30 ≤ hbmBytes)
    {p : Nat × Nat × Nat} (hb : s.entryBad s.fctWindow = false) (hn : s.fctFind (fctKey s.fctWindow) = some p) (hlt : p.2.2 < 2 ^ 24) :
    Completes (exec (.update who) s) fun t =>
      t.bytes (s.fctBase + p.2.2 * 64) 64 = updated (s.fctEntry p.2.2) s.fctWindow ∧
      SameMemoryBut s t (s.fctBase + p.2.2 * 64) 64 ∧ t.rly.job = some ⟨2, FctResult.done, p.1, p.2.1, none⟩ ∧
      SameRegsBut s t [R.RLY_FCT_RESULT_BUSY.addr] := by
  have hw := fctWindow_length s
  have hx := fctUpdate_stores (s := fctBusy s) (e := s.fctWindow) (p := p) hw (by simpa using hb) (by simpa using hn)
  rw [fctBusy_fctBase, fctBusy_fctEntry] at hx
  obtain ⟨t, ht, hmem, hjob, -, hregs, -⟩ := h.completes (op := 2)
    ((fctBusy_runUpdate s).trans hx) (((TablesOnly.refl _).setBytes _ _).updateCache _ _)
  rw [updateCache_mem] at hmem
  obtain ⟨hread, hsame⟩ := entryStored_busy hp hf hlt (updated_length (bytes_length _ _ _) hw) hmem
  exact ⟨t, ht, hread, hsame, hjob, hregs⟩

/-- DELETE of a key with an entry. -/
theorem delete_removes {s : State} {who : Sender} (h : Commands s who) (hp : s.poison = []) (hf : s.fctBase + 2 ^ 30 ≤ hbmBytes)
    {p : Nat × Nat × Nat} (hn : s.fctFind (fctKey s.fctWindow) = some p) (hlt : p.2.2 < 2 ^ 24) :
    Completes (exec (.delete who) s) fun t =>
      (t.byte (s.fctBase + p.2.2 * 64)).toNat % 2 = 0 ∧ SameMemoryBut s t (s.fctBase + p.2.2 * 64) 1 ∧
      t.rly.job = some ⟨3, FctResult.done, p.1, p.2.1, none⟩ ∧ SameRegsBut s t [R.RLY_FCT_RESULT_BUSY.addr] := by
  have hx := fctDelete_found (s := fctBusy s) (e := s.fctWindow) (p := p) (by simpa using hn)
  obtain ⟨t, ht, hmem, hjob, -, hregs, -⟩ := h.completes (op := 3)
    ((fctBusy_runDelete s).trans hx) ((TablesOnly.refl _).fctRemove _)
  have hr := fctRemove_reads (s := fctBusy s) hp (e := p.2.2) (by rw [fctBusy_fctBase]; omega)
  rw [fctBusy_fctBase] at hr
  have hb (a : Nat) : t.byte a = ((fctBusy s).fctRemove p.2.2).byte a := by simp only [State.byte, hmem]
  refine ⟨t, ht, ?_, fun a ha => ((hb a).trans (hr.2 a ha)).trans (putBit_byte_read s _ _ a), hjob, hregs⟩
  rw [hb, hr.1, even_and_0xFE]

/-- LOOKUP of a key with an entry. -/
theorem lookup_finds {s : State} {who : Sender} (h : Commands s who) {p : Nat × Nat × Nat}
    (hn : s.fctFind (fctKey s.fctWindow) = some p) : Completes (exec (.lookup who) s) fun t =>
      t.mem = s.mem ∧ t.rly.job = some ⟨4, FctResult.done, p.1, p.2.1, some (s.fctEntry p.2.2)⟩ ∧
      SameRegsBut s t [R.RLY_FCT_RESULT_BUSY.addr] := by
  have hx := fctLookup_found (s := fctBusy s) (e := s.fctWindow) (p := p) (by simpa using hn)
  rw [fctBusy_fctEntry] at hx
  obtain ⟨t, ht, hmem, hjob, -, hregs, -⟩ := h.completes (op := 4)
    ((fctBusy_runLookup s).trans hx) (TablesOnly.refl _)
  exact ⟨t, ht, hmem.trans (putBit_mem s _ _), hjob, hregs⟩

/-- INSERT of a key with an entry. -/
theorem insert_finds {s : State} {who : Sender} (h : Commands s who) {p : Nat × Nat × Nat} (hb : s.entryBad s.fctWindow = false)
    (hn : s.fctFind (fctKey s.fctWindow) = some p) : Completes (exec (.insert who) s) fun t =>
      t.mem = s.mem ∧ t.rly.job = some ⟨1, FctResult.exists_, p.1, p.2.1, none⟩ := by
  have hx := fctInsert_exists (s := fctBusy s) (e := s.fctWindow) (p := p) (by simpa using hb) (by simpa using hn)
  obtain ⟨t, ht, hmem, hjob, -⟩ := h.completes (op := 1)
    ((fctBusy_runInsert s).trans hx) (TablesOnly.refl _)
  exact ⟨t, ht, hmem.trans (putBit_mem s _ _), hjob⟩

/-- CLEAR. -/
theorem clear_empties {s : State} {who : Sender} (h : Commands s who) (hp : s.poison = []) (hf : s.fctBase + 2 ^ 30 ≤ hbmBytes) :
    Completes (exec (.clear who) s) fun t =>
      (∀ e, e < 2 ^ 24 → (t.byte (s.fctBase + e * 64)).toNat % 2 = 0) ∧ t.rly.cache = [] ∧
      t.isSet R.RLY_STATUS_FCT_READY = false ∧ t.rly.job = some ⟨8, FctResult.done, 0, 0, none⟩ ∧
      ∀ a, (a < s.fctBase ∨ s.fctBase + 2 ^ 30 ≤ a) → t.byte a = s.byte a := by
  obtain ⟨u, -, hc, hx⟩ := fctClear_eq (fctBusy s)
  obtain ⟨heven, hsame⟩ := fctClear_reads (s := fctBusy s) hp ((fctBusy_fctBase s).symm ▸ hf)
  rw [fctBusy_fctBase] at heven hsame
  rw [hx] at heven hsame
  refine ⟨_, (h.access 8).trans (congrArg (fun r => Host.Outcome.next (jobStarted 8 r)) hx), heven, (jobStarted_cache _ _).trans hc, ?_,
    jobStarted_job _ _, fun a ha => (hsame a ha).trans (putBit_byte_read s _ _ a)⟩
  rw [jobStarted_isSet]
  exact isSet_putBit_same u R.RLY_STATUS_FCT_READY false (by decide) rfl

/-- Settles O14: the four ports through their CLAIM and RELEASE, and each command of the engine through the equation of its operation. -/
theorem heldPortsCommandOneEntry : Obligations.HeldPortsCommandOneEntry := by
  refine ⟨fun s who x hx hm => ?ports,
    fun s who hs hh hi hp hf => ⟨fun p hb hn hr hlt => insert_stores ⟨hs, hh, hi⟩ hp hf hb hn hr hlt,
      fun p hb hn => insert_finds ⟨hs, hh, hi⟩ hb hn, fun p hb hn hlt => update_stores ⟨hs, hh, hi⟩ hp hf hb hn hlt,
      fun p hn hlt => delete_removes ⟨hs, hh, hi⟩ hp hf hn hlt, fun p hn => lookup_finds ⟨hs, hh, hi⟩ hn,
      clear_empties ⟨hs, hh, hi⟩ hp hf⟩,
    fun s who hs h c hc => ?ignored⟩
  case ports =>
    obtain ⟨hclaim, hrel⟩ : exec x.2.2.1 s = s.accessRead who x.1 (fun s => .next (s.claim x.1 who)) ∧
        exec x.2.2.2 s = s.access who x.2.1 fun s => .next (s.unclaim x.1 who) := by
      simp only [List.mem_cons, List.not_mem_nil, or_false] at hx
      obtain rfl | rfl | rfl | rfl := hx <;> exact ⟨rfl, rfl⟩
    refine ⟨fun hs h => ⟨(s.setHolder x.1 (some who)).emit (.readDone who x.1 1), ?_, holder_setHolder_same s x.1 (some who),
        fun b hb => holder_setHolder_ne s (some who) hb, rfl⟩, fun o hs h hne => ⟨s.emit (.readDone who x.1 0), ?_, rfl⟩,
      fun hs h => ⟨s.setHolder x.1 none, ?_, holder_setHolder_same s x.1 none, fun b hb => holder_setHolder_ne s none hb, rfl⟩,
      fun hs h => ⟨s, ?_, rfl⟩⟩
    · rw [hclaim, accessRead_served hs, claim_free hm h]
    · rw [hclaim, accessRead_served hs, claim_held hm h hne]
    · rw [hrel, access_served hs, unclaim_holder h]
    · rw [hrel, access_served hs, unclaim_other h]
  case ignored =>
    obtain ⟨op, hop⟩ : ∃ op, exec c s = s.access who R.RLY_FCT_CMD_OP.addr fun s => .next (s.fctIssue who op) := by
      simp only [List.mem_cons, List.not_mem_nil, or_false] at hc
      obtain rfl | rfl | rfl | rfl | rfl | rfl | rfl | rfl := hc <;> exact ⟨_, rfl⟩
    refine ⟨_, ?_, setsOnly_put s R.RLY_STATUS_CMD_IGNORED 1 (by decide)⟩
    rw [hop, access_served hs, fctIssue_ignored h]
    rfl

end Sys2Proof.Proofs
end

section
/-! SUPPORT. The reorder stage of an egress port (R33, R41): what an allocation leaves, how a copy takes its operation's outcome, and what
its port's order then lets go. -/

namespace Sys2Proof.Laws

open Sys2Proof Sys2Proof.Machine Sys2Proof.Safety

/-! ### What an allocation leaves (R103 to R107) -/

/-- Where copies are between their encryption and their class queue: the relay, the cipher island and the egress. -/
def copyPath (s : State) : Relay × Cpx × Egress := (s.rly, s.cpx, s.egress)

theorem log_copyPath (s : State) (unit inst sev event p0 p1 : Nat) : copyPath (s.log unit inst sev event p0 p1) = copyPath s := by
  refine log_leaves copyPath s unit inst sev event p0 p1 rfl (fun e => ?_) (fun t => ?_) fun t => rfl
  · dsimp only [State.writeEntry]
    split <;> rfl
  · rw [devEvent_frame]
    rfl

/-- The levels of a pool on the die wake no host request. -/
theorem judge_copyPath {p : Nat} (hp : p < 4) (n : Nat) (s : State) : copyPath (s.judge p n) = copyPath s := by
  induction n generalizing s with
  | zero => rfl
  | succ n ih =>
    unfold State.judge
    split
    · rfl
    · next l sev _ =>
      dsimp only
      rw [if_neg (by omega), ih]
      split
      · exact log_copyPath _ _ _ _ _ _ _
      · rfl

theorem setFree_copyPath {p : Nat} (hp : p < 4) (s : State) (f : Nat) : copyPath (s.setFree p f) = copyPath s := by
  unfold State.setFree
  dsimp only
  rw [judge_copyPath hp]
  split <;> rfl

theorem takeCell_copyPath {p : Nat} (hp : p < 4) (s : State) : copyPath (s.takeCell p).1 = copyPath s := setFree_copyPath hp _ _

theorem hold_copyPath (s : State) (p : Nat) (h : HeldAlloc) : copyPath (s.hold p h).1 = copyPath s := by
  unfold State.hold
  split <;> rfl

theorem poolFor_onDie (size : Nat) : poolFor true size < 4 := by
  simp only [poolFor, if_true]
  split_ifs <;> decide

/-- An allocation on the die leaves the copies' path as it was. -/
theorem allocCell_copyPath (s : State) (who : Sender) (req size : Nat) (cls : AllocClass) (nowait : Bool) :
    copyPath (s.allocCell who req size cls true nowait).1 = copyPath s := by
  unfold State.allocCell
  dsimp only
  split
  · rfl
  · split
    · rfl
    · split
      · exact takeCell_copyPath (poolFor_onDie size) s
      · exact hold_copyPath _ _ _
      · split <;> rfl

theorem setBytes_copyPath (s : State) (a : Nat) (bs : List Byte) : copyPath (s.setBytes a bs) = copyPath s := by
  rw [setBytes_frame]
  rfl

theorem frameCell_copyPath (s : State) (f : EFrame) : copyPath (s.frameCell f).1 = copyPath s := by
  have ha := allocCell_copyPath s (.fixed 0) 0 f.len (if 16384 ≤ f.dest then .reliable else .media) true
  unfold State.frameCell
  split
  · next h =>
    rw [h] at ha
    exact (setBytes_copyPath _ _ _).trans ha
  · next h =>
    rw [h] at ha
    dsimp only
    split
    · exact ha
    · exact ha

theorem seal_copyPath (s : State) (c : EgressCopy) (res : CipherResult) : copyPath (s.seal c res).1 = copyPath s := by
  unfold State.seal
  split
  · rfl
  · have hf := frameCell_copyPath s
    dsimp only
    split <;> next h => exact (by rw [← hf, h])

/-! ### The outcome of a copy's operation -/

theorem seal_failed {res : CipherResult} (h : St.success res.status = false) (s : State) (c : EgressCopy) :
    s.seal c res = (s, { c with sealed := some false }) := by simp [State.seal, h]

/-- A frame to a leg that gets a cell. -/
theorem seal_cell {res : CipherResult} (h : St.success res.status = true) {s u : State} {c : EgressCopy} (hd : c.frame.dest < 16384)
    {d : List Byte} (hf : d = padFrame (wrapUdp c.flags c.hdr res.out)) {ptr : Nat}
    (ha : s.allocCell (.fixed 0) 0 (d.length + 4) .media true true = (u, .cell ptr)) :
    s.seal c res = (u.setBytes ptr d,
      { c with sealed := some true, frame := { c.frame with data := d, len := d.length + 4, cell := ptr } }) := by
  simp [State.seal, State.frameCell, h, ← hf, Nat.not_le.2 hd, ha]

/-- A frame to a leg that gets none. -/
theorem seal_refused {res : CipherResult} (h : St.success res.status = true) {s u : State} {c : EgressCopy} (hd : c.frame.dest < 16384)
    {d : List Byte} (hf : d = padFrame (wrapUdp c.flags c.hdr res.out)) {k : Nat}
    (ha : s.allocCell (.fixed 0) 0 (d.length + 4) .media true true = (u, .refused k)) :
    s.seal c res = (u.count R.C_RLY_COPY_DROP, { c with sealed := some false }) := by
  simp [State.seal, State.frameCell, h, ← hf, Nat.not_le.2 hd, hd, ha]

/-- Whatever the outcome, the copy stays the one of its operation and of its ports. -/
theorem seal_keeps (s : State) (c : EgressCopy) (res : CipherResult) : (s.seal c res).2.op = c.op ∧
    (s.seal c res).2.inPort = c.inPort ∧ (s.seal c res).2.frame.port = c.frame.port := by
  unfold State.seal
  split
  · exact ⟨rfl, rfl, rfl⟩
  · dsimp only
    split
    · next h =>
      unfold State.frameCell at h
      split at h
      · cases h
        exact ⟨rfl, rfl, rfl⟩
      · cases h
    · exact ⟨rfl, rfl, rfl⟩

/-! ### The order of a port -/

/-- The state with the copies `l` left in the relay, and frames `fs` released to a port behind those that it has. -/
def copiesReleased (s : State) (l : List EgressCopy) (port : Nat) (fs : List EFrame) : State :=
  (s.withRly fun x => { x with copies := l }).setReleased port (s.releasedOf port ++ fs)

@[simp] theorem copiesReleased_copies (s : State) (l : List EgressCopy) (port : Nat) (fs : List EFrame) :
    (copiesReleased s l port fs).rly.copies = l := rfl

@[simp] theorem copiesReleased_mem (s : State) (l : List EgressCopy) (port : Nat) (fs : List EFrame) :
    (copiesReleased s l port fs).mem = s.mem := rfl

@[simp] theorem copiesReleased_bpm (s : State) (l : List EgressCopy) (port : Nat) (fs : List EFrame) :
    (copiesReleased s l port fs).bpm = s.bpm := rfl

@[simp] theorem copiesReleased_regs (s : State) (l : List EgressCopy) (port : Nat) (fs : List EFrame) :
    (copiesReleased s l port fs).regs = s.regs := rfl

@[simp] theorem copiesReleased_ctr (s : State) (l : List EgressCopy) (port : Nat) (fs : List EFrame) :
    (copiesReleased s l port fs).ctr = s.ctr := rfl

@[simp] theorem copiesReleased_counter (s : State) (l : List EgressCopy) (port : Nat) (fs : List EFrame) (a : Nat) :
    (copiesReleased s l port fs).counter a = s.counter a := rfl

@[simp] theorem copiesReleased_cpx (s : State) (l : List EgressCopy) (port : Nat) (fs : List EFrame) :
    (copiesReleased s l port fs).cpx = s.cpx := rfl

theorem copiesReleased_same (s : State) (l : List EgressCopy) (port : Nat) (fs : List EFrame) :
    (copiesReleased s l port fs).releasedOf port = s.releasedOf port ++ fs := get_set_same _ _ _ _

theorem copiesReleased_ne (s : State) (l : List EgressCopy) {port p : Nat} (fs : List EFrame) (h : p ≠ port) :
    (copiesReleased s l port fs).releasedOf p = s.releasedOf p := get_set_ne _ _ _ _ h

/-- With no frame released, every port has those that it had. -/
theorem copiesReleased_none (s : State) (l : List EgressCopy) (port p : Nat) :
    (copiesReleased s l port []).releasedOf p = s.releasedOf p := by
  by_cases h : p = port
  · rw [h, copiesReleased_same, List.append_nil]
  · exact copiesReleased_ne s l [] h

theorem releasedOf_of_path {s t : State} (h : copyPath t = copyPath s) (p : Nat) : t.releasedOf p = s.releasedOf p :=
  congrArg (fun x : Relay × Cpx × Egress => SMap.get [] x.2.2.released p) h

theorem cpx_of_path {s t : State} (h : copyPath t = copyPath s) : t.cpx = s.cpx := congrArg (fun x => x.2.1) h

theorem rly_of_path {s t : State} (h : copyPath t = copyPath s) : t.rly = s.rly := congrArg (fun x => x.1) h

/-- The end of a copy's operation: with the copy's outcome `x`, and `l` and `fs` what its port's order keeps and lets go. -/
theorem exec_egressEncryptDone {s : State} {op : Nat} {res : CipherResult} {c : EgressCopy}
    (hr : SMap.get none s.cpx.results op = some res) (hf : s.rly.copies.find? (fun c => c.op == op) = some c) {x : State × EgressCopy}
    (hx : (s.dropResult op).seal c res = x) {l : List EgressCopy} {fs : List EFrame}
    (hl : releaseFront c.frame.port c.inPort (s.rly.copies.map fun y => if y.op == op then x.2 else y) = (l, fs)) :
    exec (.egressEncryptDone op) s = .next (copiesReleased x.1 l c.frame.port fs) := by
  have hrly : x.1.rly = s.rly := by
    rw [← hx]
    exact rly_of_path (s := s.dropResult op) (seal_copyPath (s.dropResult op) c res)
  have he : exec (.egressEncryptDone op) s = .next ((x.1.withRly fun r =>
      { r with copies := r.copies.map fun y => if y.op == op then x.2 else y }).reorder c.frame.port c.inPort) := by
    simp only [exec, execEgressEncryptDone, hr, hf, hx]
  have hc : (x.1.withRly fun r => { r with copies := r.copies.map fun y => if y.op == op then x.2 else y }).rly.copies =
      s.rly.copies.map fun y => if y.op == op then x.2 else y := by
    rw [← hrly]
    rfl
  rw [he, State.reorder, hc, hl]
  rfl

end Sys2Proof.Laws
end

section
/-! The statement of chapter 2 about replication and the reorder stage: the copies. -/

namespace Sys2Proof.Proofs

open Sys2Proof Sys2Proof.Machine Sys2Proof.Safety Sys2Proof.Laws

/-- The end of the operation of the only copy: it leaves the reorder stage, and its frame is released where it has one. -/
theorem onlyCopy_leaves {s : State} {op : Nat} {res : CipherResult} {c : EgressCopy} (hr : SMap.get none s.cpx.results op = some res)
    (hc : s.rly.copies = [c]) (hop : c.op = op) {v : State} {c' : EgressCopy} (hx : (s.dropResult op).seal c res = (v, c')) {ok : Bool}
    (hok : c'.sealed = some ok) : exec (.egressEncryptDone op) s =
      .next (copiesReleased v [] c.frame.port (if ok then [c'.frame] else [])) ∧ copyPath v = copyPath (s.dropResult op) := by
  have hp := seal_copyPath (s.dropResult op) c res
  obtain ⟨-, hin, hport⟩ := seal_keeps (s.dropResult op) c res
  rw [hx] at hp hin hport
  dsimp only at hin hport
  refine ⟨exec_egressEncryptDone hr (by simp [hc, hop]) hx ?_, hp⟩
  simp [hc, hop, releaseFront, hin, hport, hok]

/-- Whatever its outcome, the operation's result is taken, and a port without a release has the frames that it had. -/
theorem dropResult_taken (s : State) (op : Nat) {v : State} (hv : copyPath v = copyPath (s.dropResult op)) :
    SMap.get none v.cpx.results op = none ∧ ∀ p, v.releasedOf p = s.releasedOf p :=
  ⟨by rw [cpx_of_path hv]; exact get_set_same none s.cpx.results op none, fun p => releasedOf_of_path hv p⟩

/-- Two copies of the same two ports: the second one's frame waits for the first one's. -/
theorem twoCopies_inOrder {s : State} {c d : EgressCopy} {r1 r2 : CipherResult} {x : State × EgressCopy} (hc : s.rly.copies = [c, d])
    (hop : c.op ≠ d.op) (hn : c.sealed = none) (hport : d.frame.port = c.frame.port) (hin : d.inPort = c.inPort)
    (hr1 : SMap.get none s.cpx.results c.op = some r1) (hr2 : SMap.get none s.cpx.results d.op = some r2)
    (hx : x = (s.dropResult d.op).seal d r2) (hok : x.2.sealed = some true) :
    Completes (exec (.egressEncryptDone d.op) s) fun t =>
      t.releasedOf c.frame.port = s.releasedOf c.frame.port ∧ t.rly.copies.length = 2 ∧
      ∀ y, y = (t.dropResult c.op).seal c r1 → y.2.sealed = some true →
        Completes (exec (.egressEncryptDone c.op) t) fun u =>
          u.rly.copies = [] ∧ u.releasedOf c.frame.port = s.releasedOf c.frame.port ++ [y.2.frame, x.2.frame] := by
  obtain ⟨hxop, hxin, hxport⟩ := seal_keeps (s.dropResult d.op) d r2
  have hpath := seal_copyPath (s.dropResult d.op) d r2
  rw [← hx] at hxop hxin hxport hpath
  obtain ⟨-, hrel⟩ := dropResult_taken s d.op hpath
  have hstay : releaseFront d.frame.port d.inPort (s.rly.copies.map fun y => if y.op == d.op then x.2 else y) = ([c, x.2], []) := by
    simp [hc, hop, releaseFront, hn, hport, hin]
  have ht := exec_egressEncryptDone hr2 (by simp [hc, hop]) hx.symm hstay
  refine ⟨_, ht, ?_, rfl, fun y hy hyok => ?_⟩
  · rw [hport, copiesReleased_none, hrel]
  · obtain ⟨-, hyin, hyport⟩ := seal_keeps ((copiesReleased x.1 [c, x.2] d.frame.port []).dropResult c.op) c r1
    have hypath := seal_copyPath ((copiesReleased x.1 [c, x.2] d.frame.port []).dropResult c.op) c r1
    rw [← hy] at hyin hyport hypath
    have hr1' : SMap.get none (copiesReleased x.1 [c, x.2] d.frame.port []).cpx.results c.op = some r1 := by
      rw [copiesReleased_cpx, cpx_of_path hpath]
      exact (get_set_ne none none s.cpx.results none hop).trans hr1
    have hgo : releaseFront c.frame.port c.inPort ((copiesReleased x.1 [c, x.2] d.frame.port []).rly.copies.map fun z =>
        if z.op == c.op then y.2 else z) = ([], [y.2.frame, x.2.frame]) := by
      simp [releaseFront, hxop, hop.symm, hyin, hyport, hyok, hxin, hxport, hok, hport, hin]
    refine ⟨_, exec_egressEncryptDone hr1' (by simp) hy.symm hgo, rfl, ?_⟩
    rw [copiesReleased_same, (dropResult_taken _ c.op hypath).2, copiesReleased_none, hrel]

end Sys2Proof.Proofs
end

section
/-! SUPPORT. Replication to a leg (R81, R82, R89, R90): the receiver's sequence state, the copy that is issued, and the packet's end. -/

namespace Sys2Proof.Laws

open Sys2Proof Sys2Proof.Machine Sys2Proof.Safety

/-! ### A receiver's state (R87, R90) -/

/-- The state with the flags and the three sequence fields of a receiver's state at `a` stored. -/
def receiverStored (s : State) (a fl ofs high oseq : Nat) : State :=
  (((s.setLe (a + 2) 1 fl).setLe (a + 4) 2 ofs).setLe (a + 6) 2 high).setLe (a + 8) 2 oseq

theorem setLe_poison {s : State} (hp : s.poison = []) (a n v : Nat) : (s.setLe a n v).poison = [] := setBytes_poison hp _ _

theorem le_setLe_apart (s : State) {a n c m : Nat} (v : Nat) (h : c + m ≤ a ∨ a + n ≤ c) : (s.setLe a n v).le c m = s.le c m :=
  le_setBytes_outside s a _ c m (by simpa using h)

theorem le_setLe_hbm {s : State} (hp : s.poison = []) {a n v : Nat} (ha : a + n ≤ hbmBytes) (hv : v < 256 ^ n) :
    (s.setLe a n v).le a n = v := by
  rw [le_setLe s a n v hp (addressExists_hbm ha), Nat.mod_eq_of_lt hv]

/-- The three fields read back, and no octet outside them and the flags changes. -/
theorem receiverStored_reads {s : State} (hp : s.poison = []) {a : Nat} (ha : a + 16 ≤ hbmBytes) (fl : Nat) {ofs high oseq : Nat}
    (ho : ofs < 65536) (hh : high < 65536) (hq : oseq < 65536) :
    (receiverStored s a fl ofs high oseq).le (a + 4) 2 = ofs ∧ (receiverStored s a fl ofs high oseq).le (a + 6) 2 = high ∧
      (receiverStored s a fl ofs high oseq).le (a + 8) 2 = oseq ∧
      SameMemoryBut s (receiverStored s a fl ofs high oseq) (a + 2) 8 := by
  have hp1 := setLe_poison hp (a + 2) 1 fl
  have hp2 := setLe_poison hp1 (a + 4) 2 ofs
  have hp3 := setLe_poison hp2 (a + 6) 2 high
  refine ⟨?_, ?_, ?_, fun b hb => ?_⟩
  · exact (le_setLe_apart _ _ (.inl (by omega))).trans ((le_setLe_apart _ _ (.inl (by omega))).trans (le_setLe_hbm hp1 (by omega) ho))
  · exact (le_setLe_apart _ _ (.inl (by omega))).trans (le_setLe_hbm hp2 (by omega) hh)
  · exact le_setLe_hbm hp3 (by omega) hq
  · exact (sameMemoryBut_setLe _ (a + 8) 2 _ b (by omega)).trans ((sameMemoryBut_setLe _ (a + 6) 2 _ b (by omega)).trans
      ((sameMemoryBut_setLe _ (a + 4) 2 _ b (by omega)).trans (sameMemoryBut_setLe _ (a + 2) 1 _ b (by omega))))

/-- Stores change memory alone. -/
theorem setLe_memory {s t : State} (h : t = { s with mem := t.mem, poison := t.poison }) (a n v : Nat) :
    t.setLe a n v = { s with mem := (t.setLe a n v).mem, poison := (t.setLe a n v).poison } := by
  unfold State.setLe
  rw [setBytes_frame, h]

theorem receiverStored_frame (s : State) (a fl ofs high oseq : Nat) : receiverStored s a fl ofs high oseq =
    { s with mem := (receiverStored s a fl ofs high oseq).mem, poison := (receiverStored s a fl ofs high oseq).poison } :=
  setLe_memory (setLe_memory (setLe_memory (setLe_memory rfl _ _ _) _ _ _) _ _ _) _ _ _

/-- A receiver that is initialised, with no selection pending, for which the number `seq` is a new one. -/
structure ReceivesNext (s : State) (r seq : Nat) : Prop where
  init : (s.le (s.rstateAddr r + 2) 1).testBit 0 = true
  settled : (s.le (s.rstateAddr r + 2) 1).testBit 1 = false
  after : seqAfter seq (s.le (s.rstateAddr r + 6) 2) = true

theorem applyPending_settled {s : State} {r : Nat} (h : (s.le (s.rstateAddr r + 2) 1).testBit 1 = false) (n : RouteSnap) :
    s.applyPending r n = s := by simp [State.applyPending, h]

/-- A layer that the selection excludes: the receiver's numbers close up over the packet. -/
theorem judgeReceiver_excluded {s : State} {r seq : Nat} (h : ReceivesNext s r seq) {n : RouteSnap} (hu : n.unresolved = false)
    (hi : includes (s.le (s.rstateAddr r) 1) n.layer ((s.le (s.rstateAddr r + 2) 1).testBit 2) = false) :
    s.judgeReceiver r n seq = (receiverStored s (s.rstateAddr r) (setBit (s.le (s.rstateAddr r + 2) 1) 0)
      ((s.le (s.rstateAddr r + 4) 2 + 1) % 65536) seq seq, none) := by
  simp only [State.judgeReceiver, applyPending_settled h.settled, h.init, if_true, h.after, hu, hi, Bool.false_eq_true, if_false]
  rfl

/-- A layer that it includes: the packet is sent under its number less the receiver's offset. -/
theorem judgeReceiver_included {s : State} {r seq : Nat} (h : ReceivesNext s r seq) {n : RouteSnap} (hu : n.unresolved = false)
    (hi : includes (s.le (s.rstateAddr r) 1) n.layer ((s.le (s.rstateAddr r + 2) 1).testBit 2) = true) :
    s.judgeReceiver r n seq = (receiverStored s (s.rstateAddr r) (setBit (s.le (s.rstateAddr r + 2) 1) 0)
      (s.le (s.rstateAddr r + 4) 2) seq (s.le (s.rstateAddr r + 8) 2), some ((seq + 65536 - s.le (s.rstateAddr r + 4) 2) % 65536)) := by
  simp only [State.judgeReceiver, applyPending_settled h.settled, h.init, if_true, h.after, hu, hi, Bool.false_eq_true, if_false]
  rfl

/-! ### Requests to the cipher island (R355, R361) -/

/-- The state with a request waiting behind those before it. -/
def requestWaits (s : State) (r : CipherReq) : State :=
  { s with cpx := { s.cpx with nextId := s.cpx.nextId + 1, waiting := s.cpx.waiting ++ [(s.cpx.nextId, r)] } }

/-- With no core free, nothing that waits starts. -/
theorem dispatchCipher_waits {s : State} (hg : s.cipherGone = false) (hc : s.freeCore = none) (fuel : Nat) : s.dispatchCipher fuel = s := by
  cases fuel with
  | zero => rfl
  | succ fuel =>
    simp only [State.dispatchCipher, hg, hc, Bool.false_eq_true, if_false]
    split
    · rfl
    · split <;> rfl

theorem submit_waits {s : State} (hg : s.cipherGone = false) (hc : s.freeCore = none) (r : CipherReq) : s.submit r = requestWaits s r :=
  dispatchCipher_waits (s := requestWaits s r) hg hc _

/-! ### A copy to a leg (R89) -/

theorem addCopy_copies (s : State) (c : EgressCopy) : (s.addCopy c).rly.copies = s.rly.copies ++ [c] := rfl
theorem addCopy_packets (s : State) (c : EgressCopy) : (s.addCopy c).rly.packets = s.rly.packets := rfl
theorem addCopy_selects (s : State) (c : EgressCopy) : (s.addCopy c).rly.selects = s.rly.selects := rfl
theorem addCopy_cpx (s : State) (c : EgressCopy) : (s.addCopy c).cpx = s.cpx := rfl
theorem addCopy_mem (s : State) (c : EgressCopy) : (s.addCopy c).mem = s.mem := rfl
theorem addCopy_regs (s : State) (c : EgressCopy) : (s.addCopy c).regs = s.regs := rfl
theorem addCopy_counter (s : State) (c : EgressCopy) (a : Nat) : (s.addCopy c).counter a = s.counter a := rfl
theorem countObj64_rly (s : State) (o i : Nat) : (s.countObj64 o i).rly = s.rly := rfl
theorem countObj64_cpx (s : State) (o i : Nat) : (s.countObj64 o i).cpx = s.cpx := rfl
theorem countObj64_mem (s : State) (o i : Nat) : (s.countObj64 o i).mem = s.mem := rfl
theorem countObj64_regs (s : State) (o i : Nat) : (s.countObj64 o i).regs = s.regs := rfl
theorem countObj64_counter (s : State) (o i a : Nat) : (s.countObj64 o i).counter a = s.counter a := rfl
theorem requestWaits_rly (s : State) (r : CipherReq) : (requestWaits s r).rly = s.rly := rfl
theorem requestWaits_mem (s : State) (r : CipherReq) : (requestWaits s r).mem = s.mem := rfl
theorem requestWaits_counter (s : State) (r : CipherReq) (a : Nat) : (requestWaits s r).counter a = s.counter a := rfl

theorem requestWaits_waiting (s : State) (r : CipherReq) : (requestWaits s r).cpx.waiting = s.cpx.waiting ++ [(s.cpx.nextId, r)] := rfl

/-- Fences stand in registers, and a core's operations in the island. -/
theorem cipherGone_of_regs {s t : State} (h : t.regs = s.regs) : t.cipherGone = s.cipherGone := by
  simp only [State.cipherGone, State.isFenced, get_of_regs h]

theorem freeCore_of_cpx {s t : State} (h : t.regs = s.regs) (hc : t.cpx = s.cpx) : t.freeCore = s.freeCore := by
  simp only [State.freeCore, State.isFenced, get_of_regs h, hc]

/-- The state with a copy `c` issued to a leg, whose encryption is the request `r`. -/
def copyIssued (s : State) (leg : Nat) (c : EgressCopy) (r : CipherReq) : State :=
  requestWaits (((s.count R.C_RLY_COPIES).countObj64 0x401013 leg).addCopy c) r

theorem submit_copyIssued {s : State} (hg : s.cipherGone = false) (hc : s.freeCore = none) (leg : Nat) (c : EgressCopy) (r : CipherReq) :
    (((s.count R.C_RLY_COPIES).countObj64 0x401013 leg).addCopy c).submit r = copyIssued s leg c r := by
  have hregs : (((s.count R.C_RLY_COPIES).countObj64 0x401013 leg).addCopy c).regs = s.regs := by
    rw [addCopy_regs, countObj64_regs, count_regs]
  have hcpx : (((s.count R.C_RLY_COPIES).countObj64 0x401013 leg).addCopy c).cpx = s.cpx := by
    rw [addCopy_cpx, countObj64_cpx, count_cpx]
  exact submit_waits ((cipherGone_of_regs hregs).trans hg) ((freeCore_of_cpx hregs hcpx).trans hc) r

/-- The copy of a packet to a leg whose template can send, while no core is free. -/
theorem copyToLeg_waits {s : State} {p : RxPacket} {e : RouteEntry} (seq : Nat) (hd : e.dest < 16384) (hl : e.dest < s.legLimit)
    (ht : s.templateOk (s.template s.legHdrBase e.dest) = true) (hg : s.cipherGone = false) (hc : s.freeCore = none) :
    ∃ c r, s.copyToLeg p e seq = copyIssued s e.dest c r ∧
      (c.op = s.cpx.nextId ∧ c.inPort = p.port ∧ c.frame.dest = e.dest ∧ c.frame.cls = (p.entry.getD 0x3B 0).toNat % 8 ∧ c.sealed = none) ∧
      r.slot = e.keySlot ∧ r.ctx = e.rstate ∧ r.enc = true ∧ r.input = some (rewriteRtp p.rtp e seq) := by
  simp only [State.copyToLeg, Nat.mod_eq_of_lt hd, Nat.not_le.2 hl, ht, decide_false, Bool.not_true, Bool.or_self, Bool.false_eq_true, if_false]
  exact ⟨_, _, submit_copyIssued hg hc _ _ _, ⟨rfl, rfl, rfl, rfl, rfl⟩, rfl, rfl, rfl, rfl⟩

@[simp] theorem copyIssued_packets (s : State) (leg : Nat) (c : EgressCopy) (r : CipherReq) :
    (copyIssued s leg c r).rly.packets = s.rly.packets := by
  rw [copyIssued, requestWaits_rly, addCopy_packets, countObj64_rly, count_rly]

@[simp] theorem copyIssued_selects (s : State) (leg : Nat) (c : EgressCopy) (r : CipherReq) :
    (copyIssued s leg c r).rly.selects = s.rly.selects := by
  rw [copyIssued, requestWaits_rly, addCopy_selects, countObj64_rly, count_rly]

@[simp] theorem copyIssued_copies (s : State) (leg : Nat) (c : EgressCopy) (r : CipherReq) :
    (copyIssued s leg c r).rly.copies = s.rly.copies ++ [c] := by
  rw [copyIssued, requestWaits_rly, addCopy_copies, countObj64_rly, count_rly]

@[simp] theorem copyIssued_waiting (s : State) (leg : Nat) (c : EgressCopy) (r : CipherReq) :
    (copyIssued s leg c r).cpx.waiting = s.cpx.waiting ++ [(s.cpx.nextId, r)] := by
  rw [copyIssued, requestWaits_waiting, addCopy_cpx, countObj64_cpx, count_cpx]

@[simp] theorem copyIssued_mem (s : State) (leg : Nat) (c : EgressCopy) (r : CipherReq) : (copyIssued s leg c r).mem = s.mem := by
  rw [copyIssued, requestWaits_mem, addCopy_mem, countObj64_mem, count_mem]

theorem copyIssued_copies_counted (s : State) (leg : Nat) (c : EgressCopy) (r : CipherReq) :
    (copyIssued s leg c r).counter R.C_RLY_COPIES = (s.counter R.C_RLY_COPIES + 1) % 2 ^ 64 := by
  rw [copyIssued, requestWaits_counter, addCopy_counter, countObj64_counter, counter_count_same]

/-- A state that differs in memory has the same legs, and the same cipher island. -/
theorem issues_of_memory {s t : State} (h : t = { s with mem := t.mem, poison := t.poison }) :
    t.legLimit = s.legLimit ∧ t.legHdrBase = s.legHdrBase ∧ t.cipherGone = s.cipherGone ∧ t.freeCore = s.freeCore := by
  rw [h]
  exact ⟨rfl, rfl, rfl, rfl⟩

/-- A receiver that is not sent the packet. -/
theorem copyTo_excluded {s u : State} {p : RxPacket} {n : RouteSnap} {e : RouteEntry}
    (h : s.judgeReceiver e.rstate n (be p.rtp 2 2) = (u, none)) : s.copyTo p n e = u := by
  simp only [State.copyTo, h]

/-- A receiver at a leg that is. -/
theorem copyTo_leg {s u : State} {p : RxPacket} {n : RouteSnap} {e : RouteEntry} (hd : e.dest < 16384) {seq : Nat}
    (h : s.judgeReceiver e.rstate n (be p.rtp 2 2) = (u, some seq)) : s.copyTo p n e = u.copyToLeg p e seq := by
  have hb : e.dest.testBit 15 = false := Nat.testBit_lt_two_pow (Nat.lt_of_lt_of_le hd (by decide))
  simp only [State.copyTo, h, hb, Bool.false_eq_true, if_false]

/-! ### REPLICATE -/

theorem osToNat_foldl_lt (bs : List Byte) (v : Nat) :
    bs.foldl (fun v b => v * 256 + b.toNat) v < (v + 1) * 256 ^ bs.length := by
  induction bs generalizing v with
  | nil => simp
  | cons b bs ih =>
    have hb : b.toNat < 256 := b.isLt
    calc (b :: bs).foldl (fun v b => v * 256 + b.toNat) v < (v * 256 + b.toNat + 1) * 256 ^ bs.length := ih _
      _ ≤ ((v + 1) * 256) * 256 ^ bs.length := Nat.mul_le_mul_right _ (by omega)
      _ = (v + 1) * 256 ^ (b :: bs).length := by rw [List.length_cons, Nat.pow_succ, Nat.mul_assoc, Nat.mul_comm 256]

/-- A field of `n` octets. -/
theorem be_lt (bs : List Byte) (a n : Nat) : be bs a n < 256 ^ n := by
  have hl : (slice bs a (a + n)).length ≤ n := by
    simp [slice]
    omega
  calc be bs a n < (0 + 1) * 256 ^ (slice bs a (a + n)).length := osToNat_foldl_lt _ 0
    _ ≤ 256 ^ n := by
      rw [Nat.zero_add, Nat.one_mul]
      exact Nat.pow_le_pow_right (by decide) hl

/-- The relay's only packet, decrypted whole and classified under snapshot `n`. -/
structure Replicates (s : State) (p : RxPacket) (n : RouteSnap) : Prop where
  only : s.rly.packets = [p]
  plan : p.plan = .media
  ended : p.ended = true
  snap : p.snap = some n

theorem Replicates.nextReplica {s : State} {p : RxPacket} {n : RouteSnap} (h : Replicates s p n) :
    nextReplica [] [] s.rly.packets = some p := by
  simp [Machine.nextReplica, h.only, h.snap, h.plan, h.ended]

/-- Without receivers it is dropped. -/
theorem Replicates.exec_nobody {s : State} {p : RxPacket} {n : RouteSnap} (h : Replicates s p n) (hn : n.entries = []) :
    exec .replicate s = .next (s.dropPacket p) := by
  simp only [exec, execReplicate, h.nextReplica, h.snap, hn]

/-- After its last receiver too. -/
theorem Replicates.exec_last {s : State} {p : RxPacket} {n : RouteSnap} {e : RouteEntry} (h : Replicates s p n) (hn : n.entries = [e]) :
    exec .replicate s = .next ((s.copyTo p n e).dropPacket { p with snap := some { n with entries := [] } }) := by
  simp only [exec, execReplicate, h.nextReplica, h.snap, hn, List.isEmpty_nil, if_true]

/-- The state `t` is `s` after the end of the relay's only packet: the relay alone has changed, and not its copies. -/
structure PacketEnded (s t : State) : Prop where
  frame : t = { s with rly := t.rly }
  packets : t.rly.packets = []
  copies : t.rly.copies = s.rly.copies

theorem PacketEnded.mem {s t : State} (h : PacketEnded s t) : t.mem = s.mem := by rw [h.frame]
theorem PacketEnded.regs {s t : State} (h : PacketEnded s t) : t.regs = s.regs := by rw [h.frame]
theorem PacketEnded.ctr {s t : State} (h : PacketEnded s t) : t.ctr = s.ctr := by rw [h.frame]
theorem PacketEnded.cpx {s t : State} (h : PacketEnded s t) : t.cpx = s.cpx := by rw [h.frame]

theorem le_of_mem {s t : State} (h : t.mem = s.mem) (a n : Nat) : t.le a n = s.le a n := congrArg leVal (bytes_of_mem h a n)

/-- A packet whose snapshot holds no receiver any more ends. -/
theorem dropPacket_ends {s : State} {p q : RxPacket} (hp : s.rly.packets = [p]) (hq : q.id = p.id) (hc : q.cell = noCell)
    {n : RouteSnap} (hn : q.snap = some n) (hs : s.rly.selects = []) : PacketEnded s (s.dropPacket q) := by
  rw [dropPacket_snapshot hp hq hc hn hs]
  exact ⟨rfl, rfl, rfl⟩

end Sys2Proof.Laws
end

section
/-! The statement of chapter 2 about replication and the reorder stage. -/

namespace Sys2Proof.Proofs

open Sys2Proof Sys2Proof.Machine Sys2Proof.Safety Sys2Proof.Laws

/-- REPLICATE to a receiver whose selection excludes the layer. -/
theorem replicate_excluded {s : State} {p : RxPacket} {n : RouteSnap} {e : RouteEntry} (h : Replicates s p n) (he : n.entries = [e])
    (hc : p.cell = noCell) (hs : s.rly.selects = []) (hp : s.poison = []) (ha : s.rstateAddr e.rstate + 16 ≤ hbmBytes)
    (hu : n.unresolved = false) (hr : ReceivesNext s e.rstate (be p.rtp 2 2))
    (hi : includes (s.le (s.rstateAddr e.rstate) 1) n.layer ((s.le (s.rstateAddr e.rstate + 2) 1).testBit 2) = false) :
    Completes (exec .replicate s) fun t =>
      t.rly.packets = [] ∧ t.rly.copies = s.rly.copies ∧ t.regs = s.regs ∧ t.ctr = s.ctr ∧
      t.le (s.rstateAddr e.rstate + 4) 2 = (s.le (s.rstateAddr e.rstate + 4) 2 + 1) % 65536 ∧
      t.le (s.rstateAddr e.rstate + 6) 2 = be p.rtp 2 2 ∧ t.le (s.rstateAddr e.rstate + 8) 2 = be p.rtp 2 2 ∧
      SameMemoryBut s t (s.rstateAddr e.rstate + 2) 8 := by
  have hseq := be_lt p.rtp 2 2
  have hj := judgeReceiver_excluded hr hu hi
  obtain ⟨hofs, hhigh, hoseq, hmem⟩ := receiverStored_reads hp ha (setBit (s.le (s.rstateAddr e.rstate + 2) 1) 0)
    (Nat.mod_lt (s.le (s.rstateAddr e.rstate + 4) 2 + 1) (by decide : 0 < 65536)) hseq hseq
  have hframe := receiverStored_frame s (s.rstateAddr e.rstate) (setBit (s.le (s.rstateAddr e.rstate + 2) 1) 0)
    ((s.le (s.rstateAddr e.rstate + 4) 2 + 1) % 65536) (be p.rtp 2 2) (be p.rtp 2 2)
  have hx := h.exec_last he
  rw [copyTo_excluded hj] at hx
  generalize receiverStored s _ _ _ _ _ = u at hofs hhigh hoseq hmem hframe hx
  have hrly : u.rly = s.rly := by rw [hframe]
  have ht := dropPacket_ends (s := u) (p := p) (q := { p with snap := some { n with entries := [] } }) (hrly ▸ h.only) rfl hc rfl
    (hrly ▸ hs)
  refine ⟨_, hx, ht.packets, ht.copies.trans (by rw [hrly]), ht.regs.trans (by rw [hframe]), ht.ctr.trans (by rw [hframe]),
    (le_of_mem ht.mem _ _).trans hofs, (le_of_mem ht.mem _ _).trans hhigh, (le_of_mem ht.mem _ _).trans hoseq,
    sameMemoryBut_of_mem hmem ht.mem⟩

/-- REPLICATE to a receiver whose selection includes it, at a leg that can send, while no core is free. -/
theorem replicate_included {s : State} {p : RxPacket} {n : RouteSnap} {e : RouteEntry} (h : Replicates s p n) (he : n.entries = [e])
    (hc : p.cell = noCell) (hs : s.rly.selects = []) (hd : e.dest < 16384) (hp : s.poison = [])
    (ha : s.rstateAddr e.rstate + 16 ≤ hbmBytes) (hu : n.unresolved = false) (hr : ReceivesNext s e.rstate (be p.rtp 2 2))
    (hi : includes (s.le (s.rstateAddr e.rstate) 1) n.layer ((s.le (s.rstateAddr e.rstate + 2) 1).testBit 2) = true)
    (hl : e.dest < s.legLimit) (hg : s.cipherGone = false) (hf : s.freeCore = none)
    (ho : (s.judgeReceiver e.rstate n (be p.rtp 2 2)).1.templateOk
      ((s.judgeReceiver e.rstate n (be p.rtp 2 2)).1.template s.legHdrBase e.dest) = true) :
    Completes (exec .replicate s) fun t =>
      t.rly.packets = [] ∧ t.le (s.rstateAddr e.rstate + 6) 2 = be p.rtp 2 2 ∧
      t.le (s.rstateAddr e.rstate + 4) 2 = s.le (s.rstateAddr e.rstate + 4) 2 ∧
      t.counter R.C_RLY_COPIES = (s.counter R.C_RLY_COPIES + 1) % 2 ^ 64 ∧
      SameMemoryBut s t (s.rstateAddr e.rstate + 2) 8 ∧
      ∃ c, t.rly.copies = s.rly.copies ++ [c] ∧ c.op = s.cpx.nextId ∧ c.inPort = p.port ∧ c.frame.dest = e.dest ∧
        c.frame.cls = (p.entry.getD 0x3B 0).toNat % 8 ∧ c.sealed = none ∧
        ∃ r, t.cpx.waiting = s.cpx.waiting ++ [(s.cpx.nextId, r)] ∧ r.slot = e.keySlot ∧ r.ctx = e.rstate ∧ r.enc = true ∧
          r.input = some (rewriteRtp p.rtp e ((be p.rtp 2 2 + 65536 - s.le (s.rstateAddr e.rstate + 4) 2) % 65536)) := by
  have hj := judgeReceiver_included hr hu hi
  obtain ⟨hofs, hhigh, -, hmem⟩ := receiverStored_reads hp ha (setBit (s.le (s.rstateAddr e.rstate + 2) 1) 0)
    (le_lt s (s.rstateAddr e.rstate + 4) 2) (be_lt p.rtp 2 2) (le_lt s (s.rstateAddr e.rstate + 8) 2)
  have hframe := receiverStored_frame s (s.rstateAddr e.rstate) (setBit (s.le (s.rstateAddr e.rstate + 2) 1) 0)
    (s.le (s.rstateAddr e.rstate + 4) 2) (be p.rtp 2 2) (s.le (s.rstateAddr e.rstate + 8) 2)
  generalize receiverStored s _ _ _ _ _ = u at hj hofs hhigh hmem hframe
  rw [hj] at ho
  obtain ⟨hul, hub, hug, huf⟩ := issues_of_memory hframe
  have hrly : u.rly = s.rly := by rw [hframe]
  have hcpx : u.cpx = s.cpx := by rw [hframe]
  have hctr : u.ctr = s.ctr := by rw [hframe]
  obtain ⟨c, r, hcopy, ⟨hop, hin, hdest, hcls, hsealed⟩, hreq⟩ := copyToLeg_waits (s := u) (p := p) (e := e)
    ((be p.rtp 2 2 + 65536 - s.le (s.rstateAddr e.rstate + 4) 2) % 65536) hd (hul.symm ▸ hl) (by rw [hub]; exact ho) (hug.trans hg) (huf.trans hf)
  have hx := h.exec_last he
  rw [copyTo_leg hd hj, hcopy] at hx
  have ht := dropPacket_ends (s := copyIssued u e.dest c r) (p := p) (q := { p with snap := some { n with entries := [] } })
    (by rw [copyIssued_packets, hrly, h.only]) rfl hc rfl (by rw [copyIssued_selects, hrly, hs])
  have hm := ht.mem.trans (copyIssued_mem u e.dest c r)
  refine ⟨_, hx, ht.packets, (le_of_mem hm _ _).trans hhigh, (le_of_mem hm _ _).trans hofs, ?_, sameMemoryBut_of_mem hmem hm,
    c, ?_, hop.trans (by rw [hcpx]), hin, hdest, hcls, hsealed, r, ?_, hreq⟩
  · rw [State.counter, ht.ctr]
    exact (copyIssued_copies_counted u e.dest c r).trans (by rw [State.counter, hctr, State.counter])
  · rw [ht.copies, copyIssued_copies, hrly]
  · rw [ht.cpx, copyIssued_waiting, hcpx]

/-- Settles O12: the two judgements of a receiver's numbers, a packet without receivers, and the order of one and of two copies. -/
theorem copiesKeepSequenceAndOrder : Obligations.CopiesKeepSequenceAndOrder := by
  refine ⟨⟨fun s p n e hpk hm hend hn he hc hs hd hp ha hu hinit hpend hseq => ?receiver,
      fun s p n hpk hm hend hn he hc hs => ?nobody⟩,
    fun s u op ptr k c res d hr hc hop hd hf => ⟨fun hbad => ?failed, fun hok hcell => ?released, fun hok href => ?refused⟩,
    fun s c d r1 r2 x hc hop hn hport hin hr1 hr2 hx hok => twoCopies_inOrder hc hop hn hport hin hr1 hr2 hx hok⟩
  case receiver =>
    have h : Replicates s p n := ⟨hpk, hm, hend, hn⟩
    have hr : ReceivesNext s e.rstate (be p.rtp 2 2) := ⟨hinit, hpend, hseq⟩
    exact ⟨fun hi => replicate_excluded h he hc hs hp ha hu hr hi,
      fun hi hl hg hf ho => replicate_included h he hc hs hd hp ha hu hr hi hl hg hf ho⟩
  case nobody =>
    have ht := dropPacket_ends hpk rfl hc hn hs
    exact ⟨_, Replicates.exec_nobody ⟨hpk, hm, hend, hn⟩ he, ht.packets, ht.frame⟩
  case failed =>
    obtain ⟨hx, hpath⟩ := onlyCopy_leaves hr hc hop (seal_failed hbad _ c) rfl
    obtain ⟨htaken, hrel⟩ := dropResult_taken s op hpath
    exact ⟨_, hx, copiesReleased_copies _ _ _ _, copiesReleased_mem _ _ _ _, copiesReleased_regs _ _ _ _, copiesReleased_ctr _ _ _ _, htaken,
      fun p => (copiesReleased_none _ _ _ p).trans (hrel p)⟩
  case released =>
    obtain ⟨hx, hpath⟩ := onlyCopy_leaves hr hc hop (seal_cell hok hd hf hcell) rfl
    obtain ⟨htaken, hrel⟩ := dropResult_taken s op hpath
    have hframe := setBytes_frame u ptr d
    refine ⟨_, hx, copiesReleased_copies _ _ _ _, copiesReleased_mem _ _ _ _, ?_, ?_, ?_, htaken, ?_,
      fun p hp => (copiesReleased_ne _ _ _ hp).trans (hrel p)⟩
    · rw [copiesReleased_bpm, hframe]
    · rw [copiesReleased_regs, hframe]
    · rw [copiesReleased_ctr, hframe]
    · rw [copiesReleased_same, hrel]
      rfl
  case refused =>
    obtain ⟨hx, hpath⟩ := onlyCopy_leaves hr hc hop (seal_refused hok hd hf href) rfl
    obtain ⟨-, hrel⟩ := dropResult_taken s op hpath
    exact ⟨_, hx, copiesReleased_copies _ _ _ _, copiesReleased_mem _ _ _ _,
      (copiesReleased_counter _ _ _ _ _).trans (counter_count_same u R.C_RLY_COPY_DROP 1), fun p => (copiesReleased_none _ _ _ p).trans (hrel p)⟩

end Sys2Proof.Proofs
end

section
/-! SUPPORT. The pools of Billow (R100 to R112, R127): what the moves of a pool's level leave as it was, what an allocation, a free and a
reset make of a pool, and how held requests are answered. -/

namespace Sys2Proof.Laws

open Sys2Proof Sys2Proof.Machine Sys2Proof.Safety

/-! ### What a change of level leaves (R106) -/

/-- Pools, queues and memory are those of `s`, and so are the registers of Billow's block, but for the addresses listed. -/
structure BillowBut (as : List Nat) (s t : State) : Prop where
  bpm : t.bpm = s.bpm
  queues : t.queues = s.queues
  mem : t.mem = s.mem
  regs : ∀ a, 0x300000 ≤ a → a < 0x400000 → a ∉ as → t.reg a = s.reg a

theorem BillowBut.refl (as : List Nat) (s : State) : BillowBut as s s := ⟨rfl, rfl, rfl, fun _ _ _ _ => rfl⟩

theorem BillowBut.trans {as : List Nat} {s t u : State} (h : BillowBut as s t) (k : BillowBut as t u) : BillowBut as s u :=
  ⟨k.bpm.trans h.bpm, k.queues.trans h.queues, k.mem.trans h.mem, fun a h1 h2 hn => (k.regs a h1 h2 hn).trans (h.regs a h1 h2 hn)⟩

theorem BillowBut.mono {as bs : List Nat} {s t : State} (h : BillowBut as s t) (hs : as ⊆ bs) : BillowBut bs s t :=
  ⟨h.bpm, h.queues, h.mem, fun a h1 h2 hn => h.regs a h1 h2 fun ha => hn (hs ha)⟩

theorem BillowBut.get {as : List Nat} {s t : State} (h : BillowBut as s t) {f : Fld} (h1 : 0x300000 ≤ f.addr) (h2 : f.addr < 0x400000)
    (hn : f.addr ∉ as) : t.get f = s.get f := by rw [State.get, h.regs _ h1 h2 hn, State.get]

theorem BillowBut.put {as : List Nat} {s t : State} (h : BillowBut as s t) {f : Fld} (v : Nat) (hf : f.addr ∈ as) :
    BillowBut as s (t.put f v) :=
  ⟨h.bpm, h.queues, h.mem, fun a h1 h2 hn => (reg_put_ne t f v (ne_of_mem_of_not_mem hf hn).symm).trans (h.regs a h1 h2 hn)⟩

/-- A register of another block is none of Billow's. -/
theorem BillowBut.put_elsewhere {as : List Nat} {s t : State} (h : BillowBut as s t) {f : Fld} (v : Nat)
    (hf : f.addr < 0x300000 ∨ 0x400000 ≤ f.addr) : BillowBut as s (t.put f v) :=
  ⟨h.bpm, h.queues, h.mem, fun a h1 h2 hn => (reg_put_ne t f v (by omega)).trans (h.regs a h1 h2 hn)⟩

theorem log_bpm (s : State) (unit inst sev event p0 p1 : Nat) : (s.log unit inst sev event p0 p1).bpm = s.bpm := by
  refine log_leaves (fun t => t.bpm) s unit inst sev event p0 p1 rfl (fun e => ?_) (fun t => ?_) fun t => rfl
  · dsimp only [State.writeEntry]
    split <;> rfl
  · rw [devEvent_frame]

theorem log_queues (s : State) (unit inst sev event p0 p1 : Nat) : (s.log unit inst sev event p0 p1).queues = s.queues := by
  refine log_leaves (fun t => t.queues) s unit inst sev event p0 p1 rfl (fun e => ?_) (fun t => ?_) fun t => rfl
  · dsimp only [State.writeEntry]
    split <;> rfl
  · rw [devEvent_frame]

theorem BillowBut.log {as : List Nat} {s t : State} (h : BillowBut as s t) (unit inst sev event p0 p1 : Nat) :
    BillowBut as s (t.log unit inst sev event p0 p1) := by
  refine h.trans ⟨log_bpm .., log_queues .., log_mem .., fun a h1 h2 _ => log_reg _ _ _ _ _ _ _ _ ?_ ?_ ?_⟩
  all_goals
    simp only [R.SQL_SUPPRESSED_COUNT, R.SQL_STATUS_WRAPPED, R.SQL_ALERT_CAUSE_FATAL]
    omega

theorem BillowBut.emit {as : List Nat} {s t : State} (h : BillowBut as s t) (o : Output) : BillowBut as s (t.emit o) :=
  ⟨h.bpm, h.queues, h.mem, h.regs⟩

theorem head_emit (s : State) (o : Output) : (s.emit o).out.head? = some o := rfl

theorem BillowBut.startFetch {as : List Nat} {s t : State} (h : BillowBut as s t) {n j : Nat} (hn : n < 16) (hj : j < 16) :
    BillowBut as s (t.startFetch n j) := by
  have hp : (R.HIF_Fn_Qj_STAT_PAUSED n j).addr < 0x300000 := by
    simp only [R.HIF_Fn_Qj_STAT_PAUSED]
    omega
  have hu := h.put_elsewhere (bnat (t.hostPaused n j)) (.inl hp)
  unfold State.startFetch
  dsimp only
  split
  · exact ⟨hu.bpm, hu.queues, hu.mem, hu.regs⟩
  · exact hu

theorem BillowBut.resumeHost {as : List Nat} {s t : State} (h : BillowBut as s t) : BillowBut as s t.resumeHost := by
  unfold State.resumeHost
  refine List.foldlRecOn _ _ h fun u hu k hk => ?_
  have hk' := List.mem_range.1 hk
  split
  · exact hu.startFetch (by omega) (by omega)
  · exact hu

/-! ### The level of a pool (R106) -/

/-- The move that a pool's free count asks of its level. -/
def dueMove (s : State) (p : Nat) : Option (Nat × Option Nat) :=
  levelStep (s.get (R.BPM_Pp_LEVEL_LEVEL p)) (s.get (R.BPM_Pp_FREE_F p)) (s.get (R.BPM_Pp_WARN1_CELLS p))
    (s.get (R.BPM_Pp_WARN2_CELLS p)) (s.get (R.BPM_Pp_STOP_CELLS p)) (s.get (R.BPM_Pp_HYST_CELLS p))

/-- The state after a pool's level has moved to `l`, with its entry in the log where the move has a severity. -/
def movedTo (s : State) (p l : Nat) (sev : Option Nat) : State :=
  let s := (s.put (R.BPM_Pp_LEVEL_LEVEL p) l).putBit ⟨R.BPM_STATUS_STOPPED.addr, 8 + p, 1⟩ (l == 3)
  let s := match sev with | some v => s.log Unit.bpm p v Ev.poolLevel p l | none => s
  if 4 ≤ p then s.resumeHost else s

theorem judge_rests {s : State} {p : Nat} (h : dueMove s p = none) (n : Nat) : s.judge p (n + 1) = s := by
  unfold dueMove at h
  simp only [State.judge, h]

theorem judge_moves {s : State} {p l : Nat} {sev : Option Nat} (h : dueMove s p = some (l, sev)) (n : Nat) :
    s.judge p (n + 1) = (movedTo s p l sev).judge p n := by
  unfold dueMove at h
  simp only [State.judge, h]
  rfl

/-- The registers that show a pool's level. -/
def levelShown (p : Nat) : List Nat := [(R.BPM_Pp_LEVEL_LEVEL p).addr, R.BPM_STATUS_STOPPED.addr]

/-- What follows the two writes of a move touches neither pools nor queues nor Billow's registers. -/
theorem movedTo_follows (s : State) (p l : Nat) (sev : Option Nat) :
    BillowBut [] ((s.put (R.BPM_Pp_LEVEL_LEVEL p) l).putBit ⟨R.BPM_STATUS_STOPPED.addr, 8 + p, 1⟩ (l == 3)) (movedTo s p l sev) := by
  have h := BillowBut.refl [] ((s.put (R.BPM_Pp_LEVEL_LEVEL p) l).putBit ⟨R.BPM_STATUS_STOPPED.addr, 8 + p, 1⟩ (l == 3))
  unfold movedTo
  cases sev with
  | none =>
    dsimp only
    split
    · exact h.resumeHost
    · exact h
  | some v =>
    dsimp only
    split
    · exact (h.log _ _ _ _ _ _).resumeHost
    · exact h.log _ _ _ _ _ _

theorem movedTo_but (s : State) (p l : Nat) (sev : Option Nat) : BillowBut (levelShown p) s (movedTo s p l sev) :=
  (((BillowBut.refl (levelShown p) s).put (f := R.BPM_Pp_LEVEL_LEVEL p) l (List.mem_cons_self ..)).put
    (f := ⟨R.BPM_STATUS_STOPPED.addr, 8 + p, 1⟩) (bnat (l == 3)) (List.mem_cons_of_mem _ (List.mem_cons_self ..))).trans
    ((movedTo_follows s p l sev).mono (List.nil_subset _))

/-- However far the level moves, the rest stays. -/
theorem judge_but (p n : Nat) (s : State) : BillowBut (levelShown p) s (s.judge p n) := by
  induction n generalizing s with
  | zero => exact .refl _ s
  | succ n ih =>
    cases h : dueMove s p with
    | none => rw [judge_rests h]; exact .refl _ s
    | some m => rw [judge_moves h]; exact (movedTo_but s p m.1 m.2).trans (ih _)

theorem movedTo_level (s : State) {p : Nat} (hp : p < 6) (l : Nat) (sev : Option Nat) :
    (movedTo s p l sev).get (R.BPM_Pp_LEVEL_LEVEL p) = l % 4 := by
  have ha : (R.BPM_Pp_LEVEL_LEVEL p).addr = 0x300114 + p * 0x40 := rfl
  refine ((movedTo_follows s p l sev).get (by omega) (by omega) (by simp)).trans <|
    (get_put_ne _ ⟨R.BPM_STATUS_STOPPED.addr, 8 + p, 1⟩ _ _ ?_).trans (get_put_same s _ l (Nat.le_of_ble_eq_true rfl))
  simp only [R.BPM_STATUS_STOPPED]
  omega

/-- The free count of a pool lies above all its thresholds, and clear of the highest by the hysteresis. -/
structure AboveThresholds (s : State) (p : Nat) : Prop where
  stop : s.get (R.BPM_Pp_STOP_CELLS p) ≤ s.get (R.BPM_Pp_WARN2_CELLS p)
  warn : s.get (R.BPM_Pp_WARN2_CELLS p) ≤ s.get (R.BPM_Pp_WARN1_CELLS p)
  clear : s.get (R.BPM_Pp_WARN1_CELLS p) + s.get (R.BPM_Pp_HYST_CELLS p) < s.get (R.BPM_Pp_FREE_F p)

/-- Above all thresholds a level other than NORMAL goes down by one. -/
theorem AboveThresholds.dueMove_down {s : State} {p : Nat} (h : AboveThresholds s p) (hl : s.get (R.BPM_Pp_LEVEL_LEVEL p) ≠ 0) :
    ∃ sev, dueMove s p = some (s.get (R.BPM_Pp_LEVEL_LEVEL p) - 1, sev) := by
  obtain ⟨h1, h2, h3⟩ := h
  have h4 : s.get (R.BPM_Pp_LEVEL_LEVEL p) < 4 := get_lt s (R.BPM_Pp_LEVEL_LEVEL p)
  unfold dueMove levelStep
  generalize s.get (R.BPM_Pp_LEVEL_LEVEL p) = l at hl h4 ⊢
  obtain rfl | rfl | rfl : l = 1 ∨ l = 2 ∨ l = 3 := by omega
  · exact ⟨some Sev.note, by rw [if_neg (by omega), if_pos rfl, if_neg (by omega), if_pos (by omega)]⟩
  · exact ⟨none, by rw [if_neg (by omega), if_neg (by omega), if_pos rfl, if_neg (by omega), if_pos (by omega)]⟩
  · exact ⟨none, by rw [if_neg (by omega), if_neg (by omega), if_neg (by omega), if_pos (by omega)]⟩

theorem AboveThresholds.dueMove_none {s : State} {p : Nat} (h : AboveThresholds s p) (hl : s.get (R.BPM_Pp_LEVEL_LEVEL p) = 0) :
    dueMove s p = none := by
  obtain ⟨h1, h2, h3⟩ := h
  unfold dueMove levelStep
  rw [if_pos hl, if_neg (by omega)]

/-- What a pool is judged by, beside its level, does not lie where its level shows. -/
theorem BillowBut.get_pool {p : Nat} {s t : State} (h : BillowBut (levelShown p) s t) (hp : p < 6) {f : Fld}
    (hf : f.addr = 0x300118 + p * 0x40 ∨ (0x300100 + p * 0x40 ≤ f.addr ∧ f.addr < 0x300114 + p * 0x40)) : t.get f = s.get f := by
  refine h.get (by omega) (by omega) ?_
  simp only [levelShown, R.BPM_Pp_LEVEL_LEVEL, R.BPM_STATUS_STOPPED, List.mem_cons, List.not_mem_nil, or_false]
  omega

theorem AboveThresholds.of_but {p : Nat} {s t : State} (h : AboveThresholds s p) (hb : BillowBut (levelShown p) s t) (hp : p < 6) :
    AboveThresholds t p := by
  have hfree := hb.get_pool hp (f := R.BPM_Pp_FREE_F p) (.inr ⟨Nat.le_refl _, by simp only [R.BPM_Pp_FREE_F]; omega⟩)
  have hwarn1 := hb.get_pool hp (f := R.BPM_Pp_WARN1_CELLS p) (by simp only [R.BPM_Pp_WARN1_CELLS]; omega)
  have hwarn2 := hb.get_pool hp (f := R.BPM_Pp_WARN2_CELLS p) (by simp only [R.BPM_Pp_WARN2_CELLS]; omega)
  have hstop := hb.get_pool hp (f := R.BPM_Pp_STOP_CELLS p) (by simp only [R.BPM_Pp_STOP_CELLS]; omega)
  have hhyst := hb.get_pool hp (f := R.BPM_Pp_HYST_CELLS p) (by simp only [R.BPM_Pp_HYST_CELLS]; omega)
  exact ⟨by rw [hstop, hwarn2]; exact h.stop, by rw [hwarn2, hwarn1]; exact h.warn, by rw [hwarn1, hhyst, hfree]; exact h.clear⟩

/-- Above all thresholds each judgement brings the level one nearer to NORMAL. -/
theorem judge_level_falls {p : Nat} (hp : p < 6) (n : Nat) (s : State) (h : AboveThresholds s p) :
    (s.judge p n).get (R.BPM_Pp_LEVEL_LEVEL p) = s.get (R.BPM_Pp_LEVEL_LEVEL p) - n := by
  induction n generalizing s with
  | zero => rfl
  | succ n ih =>
    by_cases hl : s.get (R.BPM_Pp_LEVEL_LEVEL p) = 0
    · rw [judge_rests (h.dueMove_none hl), hl, Nat.zero_sub]
    · obtain ⟨sev, hm⟩ := h.dueMove_down hl
      have h4 : s.get (R.BPM_Pp_LEVEL_LEVEL p) < 4 := get_lt s (R.BPM_Pp_LEVEL_LEVEL p)
      rw [judge_moves hm, ih _ (h.of_but (movedTo_but ..) hp), movedTo_level s hp, Nat.mod_eq_of_lt (by omega)]
      omega

/-! ### The free count of a pool (R106, R127) -/

/-- The registers that show a pool's free count and its level. -/
def countShown (p : Nat) : List Nat := (R.BPM_Pp_FREE_F p).addr :: (R.BPM_Pp_MINFREE_F p).addr :: levelShown p

theorem levelShown_subset (p : Nat) : levelShown p ⊆ countShown p := fun _ h => List.mem_cons_of_mem _ (List.mem_cons_of_mem _ h)

/-- The free count is written, and the lowest one where it is a new one; then the level is judged. -/
theorem setFree_cases (s : State) (p f : Nat) : s.setFree p f = (s.put (R.BPM_Pp_FREE_F p) f).judge p 3 ∨
    s.setFree p f = ((s.put (R.BPM_Pp_FREE_F p) f).put (R.BPM_Pp_MINFREE_F p) f).judge p 3 := by
  unfold State.setFree
  dsimp only
  split
  · exact .inr rfl
  · exact .inl rfl

theorem setFree_but (s : State) (p f : Nat) : BillowBut (countShown p) s (s.setFree p f) := by
  have h := (BillowBut.refl (countShown p) s).put (f := R.BPM_Pp_FREE_F p) f (List.mem_cons_self ..)
  obtain e | e := setFree_cases s p f <;> rw [e]
  · exact h.trans ((judge_but p 3 _).mono (levelShown_subset p))
  · exact (h.put f (List.mem_cons_of_mem _ (List.mem_cons_self ..))).trans ((judge_but p 3 _).mono (levelShown_subset p))

theorem setFree_count (s : State) {p : Nat} (hp : p < 6) {f : Nat} (hf : f < 2 ^ 21) :
    (s.setFree p f).get (R.BPM_Pp_FREE_F p) = f := by
  have ha : (R.BPM_Pp_FREE_F p).addr = 0x300100 + p * 0x40 := rfl
  have hm : (R.BPM_Pp_FREE_F p).addr ≠ (R.BPM_Pp_MINFREE_F p).addr := by
    simp only [R.BPM_Pp_FREE_F, R.BPM_Pp_MINFREE_F]
    omega
  have hs : (s.put (R.BPM_Pp_FREE_F p) f).get (R.BPM_Pp_FREE_F p) = f :=
    (get_put_same s (R.BPM_Pp_FREE_F p) f (Nat.le_of_ble_eq_true rfl)).trans (Nat.mod_eq_of_lt hf)
  obtain e | e := setFree_cases s p f
  · rw [e, (judge_but p 3 _).get_pool hp (by omega), hs]
  · rw [e, (judge_but p 3 _).get_pool hp (by omega), get_put_ne _ _ _ _ hm, hs]

/-! ### The bitmap and the hold FIFO of a pool (R104, R108) -/

@[simp] theorem used_setUsed_same (s : State) (p : Nat) (m : SMap Bool) : (s.setUsed p m).used p = m := get_set_same _ _ _ _

theorem used_setUsed_ne (s : State) {p q : Nat} (m : SMap Bool) (h : q ≠ p) : (s.setUsed p m).used q = s.used q := get_set_ne _ _ _ _ h

@[simp] theorem get_setUsed (s : State) (p : Nat) (m : SMap Bool) (f : Fld) : (s.setUsed p m).get f = s.get f := rfl

@[simp] theorem heldOf_setHeld_same (s : State) (p : Nat) (l : List HeldAlloc) : (s.setHeld p l).heldOf p = l := get_set_same _ _ _ _

@[simp] theorem heldOf_bump (s : State) (f : Fld) (n p : Nat) : (s.bump f n).heldOf p = s.heldOf p := rfl
@[simp] theorem heldOf_emit (s : State) (o : Output) (p : Nat) : (s.emit o).heldOf p = s.heldOf p := rfl

theorem BillowBut.used {as : List Nat} {s t : State} (h : BillowBut as s t) (p : Nat) : t.used p = s.used p := by
  rw [State.used, h.bpm, State.used]

theorem BillowBut.heldOf {as : List Nat} {s t : State} (h : BillowBut as s t) (p : Nat) : t.heldOf p = s.heldOf p := by
  rw [State.heldOf, h.bpm, State.heldOf]

/-- The base of a pool lies where the host has put it. -/
theorem BillowBut.poolBase {as : List Nat} {s t : State} (h : BillowBut as s t) (ha : ∀ a ∈ as, a < 0x300018 ∨ 0x300024 < a) (p : Nat) :
    t.poolBase p = s.poolBase p := by
  have hb (f : Fld) (h1 : 0x300018 ≤ f.addr) (h2 : f.addr ≤ 0x300024) : t.get f = s.get f :=
    h.get (by omega) (by omega) fun hf => by have := ha _ hf; omega
  simp only [State.poolBase, State.pair, hb R.BPM_H1_BASE_LO_ADDR (by decide) (by decide), hb R.BPM_H1_BASE_HI_ADDR (by decide) (by decide),
    hb R.BPM_H3_BASE_LO_ADDR (by decide) (by decide), hb R.BPM_H3_BASE_HI_ADDR (by decide) (by decide)]

/-! ### A cell that is given (R104) -/

/-- The bitmap of a pool with its lowest free cell marked. -/
def lowestMarked (s : State) (p : Nat) : State := s.setUsed p (SMap.set false (s.used p) (firstFree 0 (s.used p)) true)

theorem takeCell_state (s : State) (p : Nat) : (s.takeCell p).1 =
    ((lowestMarked s p).bump (R.BPM_Pp_ALLOCS_COUNT p)).setFree p (s.get (R.BPM_Pp_FREE_F p) - 1) := rfl

theorem takeCell_but (s : State) (p : Nat) :
    BillowBut ((R.BPM_Pp_ALLOCS_COUNT p).addr :: countShown p) (lowestMarked s p) (s.takeCell p).1 :=
  ((BillowBut.refl _ (lowestMarked s p)).put _ (List.mem_cons_self ..)).trans ((setFree_but _ p _).mono (List.subset_cons_self _ _))

theorem takeCell_pointer (s : State) (p : Nat) : (s.takeCell p).2 = s.poolBase p + firstFree 0 (s.used p) * poolCellSize p := by
  have h : (s.takeCell p).1.poolBase p = s.poolBase p := by
    refine (takeCell_but s p).poolBase (fun a ha => ?_) p
    simp only [countShown, levelShown, R.BPM_Pp_ALLOCS_COUNT, R.BPM_Pp_FREE_F, R.BPM_Pp_MINFREE_F, R.BPM_Pp_LEVEL_LEVEL,
      R.BPM_STATUS_STOPPED, List.mem_cons, List.not_mem_nil, or_false] at ha
    omega
  rw [← h]
  rfl

theorem takeCell_count (s : State) {p : Nat} (hp : p < 6) :
    (s.takeCell p).1.get (R.BPM_Pp_FREE_F p) = s.get (R.BPM_Pp_FREE_F p) - 1 := by
  have hf : s.get (R.BPM_Pp_FREE_F p) < 2 ^ 21 := get_lt s (R.BPM_Pp_FREE_F p)
  rw [takeCell_state, setFree_count _ hp (by omega)]

/-! ### An allocation (R102, R103, R107, R108) -/

theorem poolFor_lt (onDie : Bool) (size : Nat) : poolFor onDie size < 6 := by
  unfold poolFor
  split_ifs <;> decide

theorem allocCell_badSize {size : Nat} (h : size = 0 ∨ 65536 < size) (s : State) (who : Sender) (req : Nat) (cls : AllocClass)
    (onDie nowait : Bool) : s.allocCell who req size cls onDie nowait = (s, .refused St.badSize) := by
  simp [State.allocCell, h]

theorem allocCell_offline {s : State} {size : Nat} (h1 : 1 ≤ size) (h2 : size ≤ 65536) (he : s.isSet R.BPM_CTRL_ENABLE = false)
    (who : Sender) (req : Nat) (cls : AllocClass) (onDie nowait : Bool) :
    s.allocCell who req size cls onDie nowait = (s, .refused St.poolOffline) := by
  have hs : ¬ (size = 0 ∨ 65536 < size) := by omega
  simp [State.allocCell, hs, he]

/-- Billow serves requests of a size from its pool `p`. -/
structure Allocates (s : State) (size p : Nat) (onDie : Bool) : Prop where
  pool : p = poolFor onDie size
  atLeast : 1 ≤ size
  atMost : size ≤ 65536
  enabled : s.isSet R.BPM_CTRL_ENABLE = true
  ready : s.poolNotReady p = false

section Verdicts

variable {s : State} {size p : Nat} {onDie : Bool} (h : Allocates s size p onDie) {cls : AllocClass} {nowait : Bool}
include h

theorem Allocates.allocCell_serves
    (hv : allocVerdict cls (s.get (R.BPM_Pp_LEVEL_LEVEL p)) (s.get (R.BPM_Pp_FREE_F p)) nowait = none) (who : Sender) (req : Nat) :
    s.allocCell who req size cls onDie nowait = ((s.takeCell p).1, .cell (s.takeCell p).2) := by
  obtain ⟨rfl, h1, h2, he, hr⟩ := h
  have hs : ¬ (size = 0 ∨ 65536 < size) := by omega
  simp [State.allocCell, hs, he, hr, hv]

theorem Allocates.allocCell_holds
    (hv : allocVerdict cls (s.get (R.BPM_Pp_LEVEL_LEVEL p)) (s.get (R.BPM_Pp_FREE_F p)) nowait = some .held) (who : Sender) (req : Nat) :
    s.allocCell who req size cls onDie nowait = s.hold p ⟨who, req, cls, s.cycle⟩ := by
  obtain ⟨rfl, h1, h2, he, hr⟩ := h
  have hs : ¬ (size = 0 ∨ 65536 < size) := by omega
  simp [State.allocCell, hs, he, hr, hv]

/-- A request that is refused is counted by its class. -/
theorem Allocates.allocCell_refuses {k : Nat}
    (hv : allocVerdict cls (s.get (R.BPM_Pp_LEVEL_LEVEL p)) (s.get (R.BPM_Pp_FREE_F p)) nowait = some (.refused k)) (who : Sender)
    (req : Nat) : s.allocCell who req size cls onDie nowait =
      (if cls = .media then s.bump (R.BPM_Pp_EMPTY_DROPS_COUNT p) else s.bump (R.BPM_Pp_HOLD_TIMEOUTS_COUNT p), .refused k) := by
  obtain ⟨rfl, h1, h2, he, hr⟩ := h
  have hs : ¬ (size = 0 ∨ 65536 < size) := by omega
  simp [State.allocCell, hs, he, hr, hv]

end Verdicts

/-- A class that a pool with a free cell lets through (R107). -/
theorem allocVerdict_serves {cls : AllocClass} {level f : Nat} (hf : 0 < f) (hl : cls = .reliable → level ≠ 3) (nowait : Bool) :
    allocVerdict cls level f nowait = none := by
  cases cls with
  | media => simp [allocVerdict, hf.ne']
  | reliable => simp [allocVerdict, hf.ne', hl rfl]
  | control => simp [allocVerdict, hf.ne']

/-- A RELIABLE request at STOP (R107). -/
theorem allocVerdict_stop {level : Nat} (hl : level = 3) (f : Nat) {nowait : Bool} :
    allocVerdict .reliable level f nowait = some (if nowait then .refused St.poolStop else .held) := by
  simp [allocVerdict, hl]

theorem exec_alloc_cell {s t : State} {who : Sender} {req size ptr : Nat} {cls : AllocClass} {onDie nowait : Bool}
    (h : s.allocCell who req size cls onDie nowait = (t, .cell ptr)) :
    exec (.alloc who req size cls onDie nowait) s = .next (t.emit (.done who St.ok [req, ptr])) := by simp only [exec, execAlloc, h]

theorem exec_alloc_held {s t : State} {who : Sender} {req size : Nat} {cls : AllocClass} {onDie nowait : Bool}
    (h : s.allocCell who req size cls onDie nowait = (t, .held)) : exec (.alloc who req size cls onDie nowait) s = .next t := by
  simp only [exec, execAlloc, h]

theorem exec_alloc_refused {s t : State} {who : Sender} {req size k : Nat} {cls : AllocClass} {onDie nowait : Bool}
    (h : s.allocCell who req size cls onDie nowait = (t, .refused k)) :
    exec (.alloc who req size cls onDie nowait) s = .next (t.emit (.done who k [req])) := by simp only [exec, execAlloc, h]

/-- A hold FIFO that is not full takes the request. -/
theorem hold_waits {s : State} {p : Nat} (h : (s.heldOf p).length < 256) (x : HeldAlloc) :
    s.hold p x = ((s.setHeld p (s.heldOf p ++ [x])).bump (R.BPM_Pp_HOLDS_COUNT p), .held) := by
  simp [State.hold, Nat.not_le.2 h]

/-! ### A pointer that is returned (R110) -/

theorem poolCellSize_pos {p : Nat} (hp : p < 6) : 0 < poolCellSize p := by
  revert p
  decide

theorem poolCells_lt {p : Nat} (hp : p < 6) : poolCells p < 2 ^ 21 := by
  revert p
  decide

theorem nextHeld_none {s : State} {p : Nat} (h : s.heldOf p = []) : s.nextHeld p = none := by
  simp [State.nextHeld, h, takeHeld]

/-- The bitmap of a pool with a cell's mark cleared. -/
def cleared (s : State) (p i : Nat) : State := s.setUsed p (SMap.set false (s.used p) i false)

/-- With no request held, a freed cell goes to nobody. -/
theorem freeCell_unwanted {s : State} {p : Nat} (h : s.heldOf p = []) (i : Nat) :
    s.freeCell p i = (cleared s p i).setFree p (s.get (R.BPM_Pp_FREE_F p) + 1) := by
  unfold State.freeCell
  extract_lets t
  have ht : BillowBut (countShown p) (cleared s p i) t := setFree_but _ _ _
  change _ = t
  clear_value t
  rw [nextHeld_none ((ht.heldOf p).trans h)]

/-- The pointer of an allocated cell passes the checks. -/
theorem returnCell_frees {s : State} {q i : Nat} (hq : q < 6) (hp : s.poolOf (s.poolBase q + i * poolCellSize q) = some q)
    (hu : SMap.get false (s.used q) i = true) (who : Sender) :
    s.returnCell who (s.poolBase q + i * poolCellSize q) = (s.freeCell q i, St.ok) := by
  have hd : i * poolCellSize q / poolCellSize q = i := Nat.mul_div_cancel _ (poolCellSize_pos hq)
  simp [State.returnCell, hp, hd, hu]

theorem returnCell_badPointer {s : State} {ptr : Nat} (h : s.poolOf ptr = none) (who : Sender) :
    s.returnCell who ptr = (s.badPointer who ptr none, St.badPointer) := by
  simp [State.returnCell, h]

theorem exec_free {s t : State} {who : Sender} {ptr k : Nat} (h : s.returnCell who ptr = (t, k)) :
    exec (.free who ptr) s = .next (t.emit (.done who k [ptr])) := by simp only [exec, execFree, h]

/-- The state with a pointer of no pool latched and counted. -/
def badPointerLatched (s : State) (who : Sender) (ptr : Nat) : State :=
  ((s.putPair R.BPM_BADPTR_LAST_LO_PTR R.BPM_BADPTR_LAST_HI_PTR ptr).put R.BPM_BADPTR_SENDER_SENDER who.stamp).bump
    R.BPM_BADPTR_NOPOOL_COUNT

theorem badPointerLatched_bpm (s : State) (who : Sender) (ptr : Nat) : (badPointerLatched s who ptr).bpm = s.bpm := by
  rw [badPointerLatched, bump_bpm, put_bpm, putPair_bpm]

theorem badPointerLatched_reads (s : State) (who : Sender) (ptr : Nat) :
    (badPointerLatched s who ptr).get R.BPM_BADPTR_LAST_LO_PTR = ptr % 2 ^ 32 ∧
    (badPointerLatched s who ptr).get R.BPM_BADPTR_SENDER_SENDER = who.stamp % 65536 ∧
    (badPointerLatched s who ptr).get R.BPM_BADPTR_NOPOOL_COUNT = min (2 ^ 32 - 1) (s.get R.BPM_BADPTR_NOPOOL_COUNT + 1) := by
  unfold badPointerLatched State.putPair
  refine ⟨?_, ?_, ?_⟩
  · rw [State.bump, get_put_ne _ _ _ _ (by decide), get_put_ne _ _ _ _ (by decide), get_put_ne _ _ _ _ (by decide),
      get_put_same _ _ _ (by decide)]
    simp [R.BPM_BADPTR_LAST_LO_PTR]
  · rw [State.bump, get_put_ne _ _ _ _ (by decide), get_put_same _ _ _ (by decide)]
    simp [R.BPM_BADPTR_SENDER_SENDER]
  · rw [get_bump_same _ _ _ (by decide), get_put_ne _ _ _ _ (by decide), get_put_ne _ _ _ _ (by decide),
      get_put_ne _ _ _ _ (by decide), R.BPM_BADPTR_NOPOOL_COUNT]

theorem badPointer_nowhere (s : State) (who : Sender) (ptr : Nat) :
    BillowBut [] (badPointerLatched s who ptr) (s.badPointer who ptr none) := by
  simp only [State.badPointer, badPointerLatched]
  exact (BillowBut.refl [] _).log _ _ _ _ _ _

/-! ### Answers to held requests (R108, R112) -/

/-- The state `t` is `s` with requests answered. -/
def AnswersOnly (s t : State) : Prop := t = { s with hostGrants := t.hostGrants, out := t.out }

theorem AnswersOnly.refl (s : State) : AnswersOnly s s := rfl

theorem AnswersOnly.bpm {s t : State} (h : AnswersOnly s t) : t.bpm = s.bpm := by rw [h]

theorem AnswersOnly.mem {s t : State} (h : AnswersOnly s t) : t.mem = s.mem := by rw [h]

theorem AnswersOnly.get {s t : State} (h : AnswersOnly s t) (f : Fld) : t.get f = s.get f := by
  rw [h]
  rfl

theorem AnswersOnly.answerHeld {s t : State} (h : AnswersOnly s t) (x : HeldAlloc) (k ptr : Nat) :
    AnswersOnly s (t.answerHeld x k ptr) := by
  unfold AnswersOnly at h ⊢
  unfold State.answerHeld
  split
  · rw [h]
  · rw [h]; rfl

/-- A sender's request that gets no cell. -/
theorem answerHeld_sender {h : HeldAlloc} (hw : h.who ≠ .fixed 8) {k : Nat} (hk : k ≠ St.ok) (s : State) :
    s.answerHeld h k 0 = s.emit (.done h.who k [h.req]) := by
  simp [State.answerHeld, hw, hk]

theorem exec_holdTimeout {s : State} {p : Fin 6} {h : HeldAlloc} {rest : List HeldAlloc} (hh : s.heldOf p = h :: rest)
    (hl : h.since + s.get R.BPM_HOLD_MAX_MICROSECONDS * usCycles < s.cycle) : exec (.holdTimeout p) s =
      .next (((s.setHeld p rest).bump (R.BPM_Pp_HOLD_TIMEOUTS_COUNT p)).answerHeld h St.poolStop 0) := by
  simp only [exec, execHoldTimeout, hh, if_pos hl]

/-! ### RESET_POOLS (R112, R126) -/

theorem exec_resetPools {s : State} {who : Sender} (h : Serves s who R.BPM_CTRL_ENABLE.addr) (mask : Nat) :
    exec (.resetPools who mask) s = .next (s.resetPools mask (mask * 256)) := by rw [exec, execResetPools, access_served h]

/-- While Billow is disabled the selected pools are reset in turn. -/
theorem resetPools_disabled {s : State} (h : s.isSet R.BPM_CTRL_ENABLE = false) (mask w : Nat) :
    s.resetPools mask w = ((List.range 6).filter mask.testBit).foldl State.resetPool s := by
  rw [List.foldl_filter]
  simp [State.resetPools, h]

theorem resetPools_enabled {s : State} (h : s.isSet R.BPM_CTRL_ENABLE = true) (mask w : Nat) :
    s.resetPools mask w = (s.putBit R.BPM_STATUS_CFG_IGNORED true).log Unit.bpm 0 Sev.note Ev.cfgIgnored 4 w := if_pos h

/-- A write of Billow's that is ignored (R109, R126): CFG_IGNORED is 1, and its register alone has changed of Billow. -/
theorem cfgIgnored_logged (s : State) (inst p0 p1 : Nat) :
    ((s.putBit R.BPM_STATUS_CFG_IGNORED true).log Unit.bpm inst Sev.note Ev.cfgIgnored p0 p1).isSet R.BPM_STATUS_CFG_IGNORED = true ∧
    BillowBut [R.BPM_STATUS_CFG_IGNORED.addr] s
      ((s.putBit R.BPM_STATUS_CFG_IGNORED true).log Unit.bpm inst Sev.note Ev.cfgIgnored p0 p1) := by
  have hl := (BillowBut.refl [] (s.putBit R.BPM_STATUS_CFG_IGNORED true)).log Unit.bpm inst Sev.note Ev.cfgIgnored p0 p1
  have hb := (BillowBut.refl [R.BPM_STATUS_CFG_IGNORED.addr] s).put (bnat true) (List.mem_singleton_self _)
  refine ⟨?_, hb.trans (hl.mono (List.nil_subset _))⟩
  exact (congrArg (· == 1) (hl.get (by decide) (by decide) List.not_mem_nil)).trans
    (isSet_putBit_same s R.BPM_STATUS_CFG_IGNORED true (by decide) rfl)

theorem resetPool_but (s : State) (p : Nat) :
    BillowBut ((R.BPM_Pp_FREE_F p).addr :: levelShown p) (s.setUsed p []) (s.resetPool p) :=
  ((BillowBut.refl _ (s.setUsed p [])).put _ (List.mem_cons_self ..)).trans ((judge_but p 3 _).mono (List.subset_cons_self _ _))

/-- The bitmap of a pool and its registers are those of `s`. -/
structure SamePool (p : Nat) (s t : State) : Prop where
  used : t.used p = s.used p
  get : ∀ f : Fld, 0x300100 + p * 0x40 ≤ f.addr → f.addr < 0x300140 + p * 0x40 → t.get f = s.get f

/-- The reset of a pool leaves the others. -/
theorem resetPool_other (s : State) {p q : Nat} (hp : p < 6) (h : p ≠ q) : SamePool p s (s.resetPool q) := by
  refine ⟨((resetPool_but s q).used p).trans (used_setUsed_ne s [] h), fun f h1 h2 => ?_⟩
  refine ((resetPool_but s q).get (by omega) (by omega) ?_).trans (get_setUsed s q [] f)
  simp only [levelShown, R.BPM_Pp_FREE_F, R.BPM_Pp_LEVEL_LEVEL, R.BPM_STATUS_STOPPED, List.mem_cons, List.not_mem_nil, or_false]
  omega

/-- Every cell of the pool is free in `t`, its lowest count is that of `s`, and its level NORMAL where the thresholds lie below. -/
structure PoolReset (p : Nat) (s t : State) : Prop where
  used : t.used p = []
  free : t.get (R.BPM_Pp_FREE_F p) = poolCells p
  minFree : t.get (R.BPM_Pp_MINFREE_F p) = s.get (R.BPM_Pp_MINFREE_F p)
  level : s.get (R.BPM_Pp_STOP_CELLS p) ≤ s.get (R.BPM_Pp_WARN2_CELLS p) → s.get (R.BPM_Pp_WARN2_CELLS p) ≤ s.get (R.BPM_Pp_WARN1_CELLS p) →
    s.get (R.BPM_Pp_WARN1_CELLS p) + s.get (R.BPM_Pp_HYST_CELLS p) < poolCells p → t.get (R.BPM_Pp_LEVEL_LEVEL p) = 0

/-- Where the registers of a pool lie. -/
theorem SamePool.gets {p : Nat} {s t : State} (h : SamePool p s t) :
    t.get (R.BPM_Pp_FREE_F p) = s.get (R.BPM_Pp_FREE_F p) ∧ t.get (R.BPM_Pp_MINFREE_F p) = s.get (R.BPM_Pp_MINFREE_F p) ∧
    t.get (R.BPM_Pp_LEVEL_LEVEL p) = s.get (R.BPM_Pp_LEVEL_LEVEL p) ∧ t.get (R.BPM_Pp_STOP_CELLS p) = s.get (R.BPM_Pp_STOP_CELLS p) ∧
    t.get (R.BPM_Pp_WARN2_CELLS p) = s.get (R.BPM_Pp_WARN2_CELLS p) ∧ t.get (R.BPM_Pp_WARN1_CELLS p) = s.get (R.BPM_Pp_WARN1_CELLS p) ∧
    t.get (R.BPM_Pp_HYST_CELLS p) = s.get (R.BPM_Pp_HYST_CELLS p) := by
  refine ⟨h.get _ ?_ ?_, h.get _ ?_ ?_, h.get _ ?_ ?_, h.get _ ?_ ?_, h.get _ ?_ ?_, h.get _ ?_ ?_, h.get _ ?_ ?_⟩
  all_goals
    simp only [R.BPM_Pp_FREE_F, R.BPM_Pp_MINFREE_F, R.BPM_Pp_LEVEL_LEVEL, R.BPM_Pp_STOP_CELLS, R.BPM_Pp_WARN2_CELLS,
      R.BPM_Pp_WARN1_CELLS, R.BPM_Pp_HYST_CELLS]
    omega

theorem PoolReset.same {p : Nat} {s t u : State} (h : PoolReset p s t) (k : SamePool p t u) : PoolReset p s u := by
  obtain ⟨hf, hm, hl, -⟩ := k.gets
  exact ⟨k.used.trans h.used, hf.trans h.free, hm.trans h.minFree, fun h1 h2 h3 => hl.trans (h.level h1 h2 h3)⟩

theorem SamePool.reset {p : Nat} {s t u : State} (h : SamePool p s t) (k : PoolReset p t u) : PoolReset p s u := by
  obtain ⟨-, hm, -, hs, h2, h1, hy⟩ := h.gets
  refine ⟨k.used, k.free, k.minFree.trans hm, fun hs2 h21 h1f => k.level ?_ ?_ ?_⟩
  · rw [hs, h2]; exact hs2
  · rw [h2, h1]; exact h21
  · rw [h1, hy]; exact h1f

theorem resetPool_resets (s : State) {p : Nat} (hp : p < 6) : PoolReset p s (s.resetPool p) := by
  have hj := judge_but p 3 ((s.setUsed p []).put (R.BPM_Pp_FREE_F p) (poolCells p))
  have hf : ((s.setUsed p []).put (R.BPM_Pp_FREE_F p) (poolCells p)).get (R.BPM_Pp_FREE_F p) = poolCells p :=
    (get_put_same _ (R.BPM_Pp_FREE_F p) _ (Nat.le_of_ble_eq_true rfl)).trans (Nat.mod_eq_of_lt (poolCells_lt hp))
  have hn (f : Fld) (h : f.addr ≠ 0x300100 + p * 0x40) :
      ((s.setUsed p []).put (R.BPM_Pp_FREE_F p) (poolCells p)).get f = s.get f := get_put_ne (s.setUsed p []) (R.BPM_Pp_FREE_F p) f _ h
  refine ⟨((resetPool_but s p).used p).trans (used_setUsed_same s p []), ?_, ?_, fun h1 h2 h3 => ?_⟩
  · exact (hj.get_pool hp (by simp only [R.BPM_Pp_FREE_F]; omega)).trans hf
  · exact (hj.get_pool hp (.inl rfl)).trans (hn _ (by simp only [R.BPM_Pp_MINFREE_F]; omega))
  · have hs := hn (R.BPM_Pp_STOP_CELLS p) (by simp only [R.BPM_Pp_STOP_CELLS]; omega)
    have hw2 := hn (R.BPM_Pp_WARN2_CELLS p) (by simp only [R.BPM_Pp_WARN2_CELLS]; omega)
    have hw1 := hn (R.BPM_Pp_WARN1_CELLS p) (by simp only [R.BPM_Pp_WARN1_CELLS]; omega)
    have hy := hn (R.BPM_Pp_HYST_CELLS p) (by simp only [R.BPM_Pp_HYST_CELLS]; omega)
    have hl : ((s.setUsed p []).put (R.BPM_Pp_FREE_F p) (poolCells p)).get (R.BPM_Pp_LEVEL_LEVEL p) < 4 :=
      get_lt _ (R.BPM_Pp_LEVEL_LEVEL p)
    refine (judge_level_falls hp 3 _ ⟨?_, ?_, ?_⟩).trans (by omega)
    · rw [hs, hw2]; exact h1
    · rw [hw2, hw1]; exact h2
    · rw [hw1, hy, hf]; exact h3

theorem resetEach_other {p : Nat} (hp : p < 6) (l : List Nat) (h : p ∉ l) (s : State) : SamePool p s (l.foldl State.resetPool s) := by
  refine List.foldlRecOn l State.resetPool ⟨rfl, fun _ _ _ => rfl⟩ fun t ht q hq => ?_
  have hr := resetPool_other t hp (ne_of_mem_of_not_mem hq h).symm
  exact ⟨hr.used.trans ht.used, fun f h1 h2 => (hr.get f h1 h2).trans (ht.get f h1 h2)⟩

theorem resetEach_resets {p : Nat} (hp : p < 6) (l : List Nat) (hd : l.Nodup) (h : p ∈ l) (s : State) :
    PoolReset p s (l.foldl State.resetPool s) := by
  induction l generalizing s with
  | nil => cases h
  | cons q l ih =>
    obtain ⟨hq, hd⟩ := List.nodup_cons.1 hd
    by_cases he : p = q
    · subst he
      exact (resetPool_resets s hp).same (resetEach_other hp l hq _)
    · exact (resetPool_other s hp he).reset (ih hd (List.mem_of_ne_of_mem he h) _)

/-- A bitmap that is not in the list stays, and so do the hold FIFOs and memory. -/
theorem resetEach_leaves (l : List Nat) (s : State) : (∀ p, p ∉ l → (l.foldl State.resetPool s).used p = s.used p) ∧
    (l.foldl State.resetPool s).mem = s.mem ∧ (l.foldl State.resetPool s).bpm.held = s.bpm.held := by
  refine List.foldlRecOn (motive := fun t => (∀ p, p ∉ l → t.used p = s.used p) ∧ t.mem = s.mem ∧ t.bpm.held = s.bpm.held) l
    State.resetPool ⟨fun _ _ => rfl, rfl, rfl⟩ fun t ht q hq => ?_
  obtain ⟨hu, hm, hh⟩ := ht
  have hb := resetPool_but t q
  refine ⟨fun p hp => ?_, hb.mem.trans hm, (congrArg Billow.held hb.bpm).trans hh⟩
  exact (hb.used p).trans <| (used_setUsed_ne t [] (ne_of_mem_of_not_mem hq hp).symm).trans (hu p hp)

/-! ### Clearing ENABLE (R112) -/

theorem exec_bpmDisable {s : State} {who : Sender} (h : Serves s who R.BPM_CTRL_ENABLE.addr) :
    exec (.bpmDisable who) s = .next ((List.range 6).foldl State.offline (s.putBit R.BPM_CTRL_ENABLE false)) := by
  rw [exec, execBpmDisable, access_served h, State.bpmDisable]

theorem answerEach_only (l : List HeldAlloc) (k ptr : Nat) (s : State) :
    AnswersOnly s (l.foldl (fun (t : State) h => t.answerHeld h k ptr) s) :=
  List.foldlRecOn l _ (AnswersOnly.refl s) fun _ h x _ => h.answerHeld x k ptr

theorem offline_answers (s : State) (p : Nat) : AnswersOnly (s.setHeld p []) (s.offline p) := by
  rw [State.offline]
  exact answerEach_only _ _ _ _

@[simp] theorem setHeld_out (s : State) (p : Nat) (l : List HeldAlloc) : (s.setHeld p l).out = s.out := rfl
@[simp] theorem setHeld_mem (s : State) (p : Nat) (l : List HeldAlloc) : (s.setHeld p l).mem = s.mem := rfl
@[simp] theorem setHeld_used (s : State) (p : Nat) (l : List HeldAlloc) : (s.setHeld p l).bpm.used = s.bpm.used := rfl

theorem get_setHeld (s : State) (p : Nat) (l : List HeldAlloc) {f : Fld} (h : f.addr ≠ (R.BPM_Pp_LEVEL_HELD p).addr) :
    (s.setHeld p l).get f = s.get f := by
  rw [State.setHeld, get_put_ne _ _ _ _ h]
  rfl

/-- The pool's own FIFO is emptied, no other. -/
theorem heldOf_offline (s : State) (p q : Nat) : (s.offline p).heldOf q = if q = p then [] else s.heldOf q := by
  rw [State.heldOf, (offline_answers s p).bpm]
  exact get_set [] s.bpm.held p q []

theorem get_offline (s : State) (p : Nat) {f : Fld} (h : f.addr ≠ (R.BPM_Pp_LEVEL_HELD p).addr) : (s.offline p).get f = s.get f :=
  ((offline_answers s p).get f).trans (get_setHeld s p [] h)

theorem offline_idle {s : State} {p : Nat} (h : s.heldOf p = []) : (s.offline p).out = s.out := by
  rw [State.offline, h, List.foldl_nil, setHeld_out]

theorem offline_lone {s : State} {p : Nat} {h : HeldAlloc} (hh : s.heldOf p = [h]) (hw : h.who ≠ .fixed 8) :
    (s.offline p).out = .done h.who St.poolOffline [h.req] :: s.out := by
  rw [State.offline, hh, List.foldl_cons, List.foldl_nil, answerHeld_sender hw (by decide), State.emit, setHeld_out]

/-- Every FIFO of the list is emptied. -/
theorem heldOf_offlineEach (l : List Nat) (s : State) (p : Nat) :
    (l.foldl State.offline s).heldOf p = if p ∈ l then [] else s.heldOf p := by
  induction l generalizing s with
  | nil => rfl
  | cons q l ih =>
    rw [List.foldl_cons, ih, heldOf_offline]
    by_cases hl : p ∈ l <;> by_cases hq : p = q <;> simp [hl, hq]

theorem offlineEach_idle (l : List Nat) (s : State) (h : ∀ q ∈ l, s.heldOf q = []) : (l.foldl State.offline s).out = s.out := by
  induction l generalizing s with
  | nil => rfl
  | cons q l ih =>
    rw [List.foldl_cons, ih _ fun r hr => ?_, offline_idle (h q (List.mem_cons_self ..))]
    rw [heldOf_offline, h r (List.mem_cons_of_mem _ hr), ite_self]

/-- Of all FIFOs only one holds a request, and only one: it is answered. -/
theorem offlineEach_lone {p : Nat} {h : HeldAlloc} (hw : h.who ≠ .fixed 8) (l : List Nat) (hp : p ∈ l) (s : State)
    (hh : s.heldOf p = [h]) (ho : ∀ q, q ≠ p → s.heldOf q = []) :
    (l.foldl State.offline s).out = .done h.who St.poolOffline [h.req] :: s.out := by
  induction l generalizing s with
  | nil => cases hp
  | cons q l ih =>
    rw [List.foldl_cons]
    by_cases he : p = q
    · subst he
      rw [offlineEach_idle l _ fun r _ => ?_, offline_lone hh hw]
      rw [heldOf_offline]
      split
      · rfl
      · next hr => exact ho r hr
    · rw [ih (List.mem_of_ne_of_mem he hp), offline_idle (ho q (Ne.symm he))]
      · rw [heldOf_offline, if_neg he, hh]
      · intro r hr
        rw [heldOf_offline, ho r hr, ite_self]

/-- What clearing ENABLE leaves: the bit, the bitmaps and memory. -/
theorem offlineEach_leaves (l : List Nat) (s : State) : (l.foldl State.offline s).get R.BPM_CTRL_ENABLE = s.get R.BPM_CTRL_ENABLE ∧
    (l.foldl State.offline s).bpm.used = s.bpm.used ∧ (l.foldl State.offline s).mem = s.mem := by
  refine List.foldlRecOn (motive := fun t : State => t.get R.BPM_CTRL_ENABLE = s.get R.BPM_CTRL_ENABLE ∧ t.bpm.used = s.bpm.used ∧
    t.mem = s.mem) l State.offline ⟨rfl, rfl, rfl⟩ fun t ht q _ => ?_
  obtain ⟨hc, hu, hm⟩ := ht
  refine ⟨(get_offline t q ?_).trans hc, ?_, ?_⟩
  · simp only [R.BPM_CTRL_ENABLE, R.BPM_Pp_LEVEL_HELD]
    omega
  · rw [(offline_answers t q).bpm, setHeld_used, hu]
  · rw [(offline_answers t q).mem, setHeld_mem, hm]

/-! ### Thresholds and MINFREE (R109, R127) -/

theorem thresholdFld_bits (k : Threshold) (p : Nat) : (thresholdFld k p).lsb = 0 ∧ (thresholdFld k p).width = 21 := by
  cases k <;> exact ⟨rfl, rfl⟩

theorem thresholdFld_addr (k : Threshold) (p : Nat) :
    0x300104 + p * 0x40 ≤ (thresholdFld k p).addr ∧ (thresholdFld k p).addr ≤ 0x300110 + p * 0x40 := by
  cases k <;> simp only [thresholdFld, R.BPM_Pp_WARN1_CELLS, R.BPM_Pp_WARN2_CELLS, R.BPM_Pp_STOP_CELLS, R.BPM_Pp_HYST_CELLS] <;> omega

theorem exec_poolThresholdWrite {s : State} {who : Sender} {p : Fin 6} {k : Threshold} (h : Serves s who (thresholdAddr p k)) (v : Nat) :
    exec (.poolThresholdWrite who p k v) s = .next (s.writeThreshold p k v) := by rw [exec, execPoolThresholdWrite, access_served h]

theorem writeThreshold_stores {s : State} {p : Nat} {k : Threshold} {w : Nat} (h : s.thresholdOk p k (w % 2 ^ 21) = true) :
    s.writeThreshold p k w = s.putVoted (thresholdFld k p) (w % 2 ^ 21) := by
  simp only [State.writeThreshold, h, if_true]

theorem writeThreshold_refuses {s : State} {p : Nat} {k : Threshold} {w : Nat} (h : s.thresholdOk p k (w % 2 ^ 21) = false) :
    s.writeThreshold p k w = (s.putBit R.BPM_STATUS_CFG_IGNORED true).log Unit.bpm p Sev.note Ev.cfgIgnored
      ((thresholdFld k p).addr % 0x10000) w := by
  simp only [State.writeThreshold, h, Bool.false_eq_true, if_false]

/-- A voted write leaves no difference of a copy in its field. -/
theorem putVoted_differences (s : State) (f : Fld) (v : Nat) (h : f.lsb + f.width ≤ 32) :
    (SMap.get 0 (s.putVoted f v).rwvB f.addr).field f.lsb f.width = 0 ∧
    (SMap.get 0 (s.putVoted f v).rwvC f.addr).field f.lsb f.width = 0 := by
  have hd (m : SMap Word) : (SMap.get 0 (SMap.set 0 m f.addr ((SMap.get 0 m f.addr).withField f.lsb f.width 0)) f.addr).field
      f.lsb f.width = 0 := by rw [get_set_same, field_withField_same _ _ _ _ h, Nat.zero_mod]
  exact ⟨hd s.rwvB, hd s.rwvC⟩

theorem exec_minfreeWrite {s : State} {who : Sender} {p : Fin 6} (h : Serves s who (R.BPM_Pp_MINFREE_F p).addr) :
    exec (.minfreeWrite who p) s = .next (s.put (R.BPM_Pp_MINFREE_F p) (s.get (R.BPM_Pp_FREE_F p))) := by
  rw [exec, execMinfreeWrite, access_served h, State.writeMinfree]

end Sys2Proof.Laws
end

section
/-! The statement of chapter 3 about the pools. -/

namespace Sys2Proof.Proofs

open Sys2Proof Sys2Proof.Machine Sys2Proof.Safety Sys2Proof.Laws

/-- ALLOC of a class that its pool lets through. -/
theorem alloc_serves {s : State} {size p : Nat} {onDie : Bool} (h : Allocates s size p onDie) {cls : AllocClass} {nowait : Bool}
    (hv : allocVerdict cls (s.get (R.BPM_Pp_LEVEL_LEVEL p)) (s.get (R.BPM_Pp_FREE_F p)) nowait = none) (who : Sender) (req : Nat) :
    Completes (exec (.alloc who req size cls onDie nowait) s) fun t =>
      t.out.head? = some (.done who St.ok [req, s.poolBase p + firstFree 0 (s.used p) * poolCellSize p]) ∧
      SMap.get false (t.used p) (firstFree 0 (s.used p)) = true ∧
      (∀ i, i ≠ firstFree 0 (s.used p) → SMap.get false (t.used p) i = SMap.get false (s.used p) i) ∧
      (∀ q, q ≠ p → t.used q = s.used q) ∧ t.get (R.BPM_Pp_FREE_F p) = s.get (R.BPM_Pp_FREE_F p) - 1 ∧
      t.mem = s.mem ∧ t.queues = s.queues := by
  have hp : p < 6 := h.pool ▸ poolFor_lt onDie size
  have hb := (takeCell_but s p).emit (.done who St.ok [req, (s.takeCell p).2])
  have hm : (lowestMarked s p).used p = SMap.set false (s.used p) (firstFree 0 (s.used p)) true := used_setUsed_same _ _ _
  refine ⟨_, exec_alloc_cell (h.allocCell_serves hv who req), ?_, ?_, fun i hi => ?_, fun q hq => ?_, ?_, hb.mem, hb.queues⟩
  · rw [head_emit, takeCell_pointer]
  · rw [hb.used, hm, get_set_same]
  · rw [hb.used, hm, get_set_ne _ _ _ _ hi]
  · rw [hb.used, lowestMarked, used_setUsed_ne _ _ hq]
  · rw [emit_get_read, takeCell_count s hp]

/-- FREE of an allocated cell while no request is held. -/
theorem free_clears {s : State} {q i : Nat} (hq : q < 6) (hp : s.poolOf (s.poolBase q + i * poolCellSize q) = some q)
    (hu : SMap.get false (s.used q) i = true) (hh : s.heldOf q = []) (hf : s.get (R.BPM_Pp_FREE_F q) < poolCells q) (who : Sender) :
    Completes (exec (.free who (s.poolBase q + i * poolCellSize q)) s) fun t =>
      t.out.head? = some (.done who St.ok [s.poolBase q + i * poolCellSize q]) ∧
      SMap.get false (t.used q) i = false ∧ (∀ j, j ≠ i → SMap.get false (t.used q) j = SMap.get false (s.used q) j) ∧
      t.get (R.BPM_Pp_FREE_F q) = s.get (R.BPM_Pp_FREE_F q) + 1 ∧ t.mem = s.mem := by
  have hc := poolCells_lt hq
  have hr := returnCell_frees hq hp hu who
  rw [freeCell_unwanted hh] at hr
  have hb := (setFree_but (cleared s q i) q (s.get (R.BPM_Pp_FREE_F q) + 1)).emit
    (.done who St.ok [s.poolBase q + i * poolCellSize q])
  have hm : (cleared s q i).used q = SMap.set false (s.used q) i false := used_setUsed_same _ _ _
  refine ⟨_, exec_free hr, head_emit _ _, ?_, fun j hj => ?_, ?_, hb.mem⟩
  · rw [hb.used, hm, get_set_same]
  · rw [hb.used, hm, get_set_ne _ _ _ _ hj]
  · rw [emit_get_read, setFree_count _ hq (by omega)]

/-- FREE of a pointer that lies in no pool. -/
theorem free_latches {s : State} {ptr : Nat} (h : s.poolOf ptr = none) (who : Sender) : Completes (exec (.free who ptr) s) fun t =>
      t.bpm = s.bpm ∧ t.out.head? = some (.done who St.badPointer [ptr]) ∧
      t.get R.BPM_BADPTR_SENDER_SENDER = who.stamp % 65536 ∧ t.get R.BPM_BADPTR_LAST_LO_PTR = ptr % 2 ^ 32 ∧
      t.get R.BPM_BADPTR_NOPOOL_COUNT = min (2 ^ 32 - 1) (s.get R.BPM_BADPTR_NOPOOL_COUNT + 1) := by
  have hb := (badPointer_nowhere s who ptr).emit (.done who St.badPointer [ptr])
  obtain ⟨hlast, hsender, hcount⟩ := badPointerLatched_reads s who ptr
  refine ⟨_, exec_free (returnCell_badPointer h who), ?_, head_emit _ _, ?_, ?_, ?_⟩
  · rw [hb.bpm, badPointerLatched_bpm]
  · rw [hb.get (by decide) (by decide) List.not_mem_nil, hsender]
  · rw [hb.get (by decide) (by decide) List.not_mem_nil, hlast]
  · rw [hb.get (by decide) (by decide) List.not_mem_nil, hcount]

/-- HOLD_TIMEOUT of a sender's request. -/
theorem holdTimeout_answers {s : State} {p : Fin 6} {h : HeldAlloc} {rest : List HeldAlloc} (hh : s.heldOf p = h :: rest)
    (hl : h.since + s.get R.BPM_HOLD_MAX_MICROSECONDS * usCycles < s.cycle) (hw : h.who ≠ .fixed 8) :
    Completes (exec (.holdTimeout p) s) fun t =>
      t.heldOf p = rest ∧ t.out = .done h.who St.poolStop [h.req] :: s.out ∧ t.bpm.used = s.bpm.used ∧ t.mem = s.mem := by
  refine ⟨_, (exec_holdTimeout hh hl).trans (congrArg _ (answerHeld_sender hw (by decide) _)), ?_, ?_, ?_, ?_⟩
  · rw [heldOf_emit, heldOf_bump, heldOf_setHeld_same]
  · rw [State.emit, bump_out, setHeld_out]
  · rw [emit_bpm, bump_bpm, setHeld_used]
  · rw [emit_mem, bump_mem, setHeld_mem]

/-- RESET_POOLS while Billow is disabled. -/
theorem resetPools_frees {s : State} {who : Sender} (h : Serves s who R.BPM_CTRL_ENABLE.addr) (mask : Nat)
    (he : s.isSet R.BPM_CTRL_ENABLE = false) : Completes (exec (.resetPools who mask) s) fun t =>
      (∀ p, p < 6 → mask.testBit p = true → PoolReset p s t) ∧ (∀ p, mask.testBit p = false → t.used p = s.used p) ∧ t.mem = s.mem ∧
      t.bpm.held = s.bpm.held := by
  obtain ⟨hu, hm, hh⟩ := resetEach_leaves ((List.range 6).filter mask.testBit) s
  refine ⟨_, (exec_resetPools h mask).trans (congrArg _ (resetPools_disabled he mask _)), fun p hp hb => ?_, fun p hb => hu p ?_, hm, hh⟩
  · exact resetEach_resets hp _ (List.nodup_range.filter _) (List.mem_filter.2 ⟨List.mem_range.2 hp, hb⟩) s
  · rw [List.mem_filter, hb]
    simp

/-- BPM_DISABLE. -/
theorem bpmDisable_empties {s : State} {who : Sender} (h : Serves s who R.BPM_CTRL_ENABLE.addr) :
    Completes (exec (.bpmDisable who) s) fun t =>
      t.isSet R.BPM_CTRL_ENABLE = false ∧ (∀ p, p < 6 → t.heldOf p = []) ∧ t.bpm.used = s.bpm.used ∧ t.mem = s.mem ∧
      (∀ p h, p < 6 → s.heldOf p = [h] → (∀ q, q ≠ p → s.heldOf q = []) → h.who ≠ .fixed 8 →
        t.out = .done h.who St.poolOffline [h.req] :: s.out) := by
  obtain ⟨hc, hu, hm⟩ := offlineEach_leaves (List.range 6) (s.putBit R.BPM_CTRL_ENABLE false)
  rw [putBit_bpm] at hu
  rw [putBit_mem] at hm
  refine ⟨_, exec_bpmDisable h, ?_, fun p hp => ?_, hu, hm, fun p x hp hx ho hw => ?_⟩
  · exact (congrArg (· == 1) hc).trans (isSet_putBit_same s R.BPM_CTRL_ENABLE false (by decide) rfl)
  · exact (heldOf_offlineEach _ _ p).trans (if_pos (List.mem_range.2 hp))
  · exact offlineEach_lone hw (List.range 6) (List.mem_range.2 hp) (s.putBit R.BPM_CTRL_ENABLE false) hx ho

/-- POOL_THRESHOLD_WRITE of a value in order. -/
theorem poolThresholdWrite_stores {s : State} {who : Sender} {p : Fin 6} {k : Threshold} (h : Serves s who (thresholdAddr p k)) {v : Nat}
    (hv : s.thresholdOk p k (v % 2 ^ 21) = true) : Completes (exec (.poolThresholdWrite who p k v) s) fun t =>
      t = { s with regs := t.regs, rwvB := t.rwvB, rwvC := t.rwvC } ∧ t.get (thresholdFld k p) = v % 2 ^ 21 ∧
      SameRegsBut s t [(thresholdFld k p).addr] ∧
      (SMap.get 0 t.rwvB (thresholdFld k p).addr).field 0 21 = 0 ∧ (SMap.get 0 t.rwvC (thresholdFld k p).addr).field 0 21 = 0 := by
  obtain ⟨hl, hw⟩ := thresholdFld_bits k p
  have hfit : (thresholdFld k p).lsb + (thresholdFld k p).width ≤ 32 := by omega
  have hd := putVoted_differences s (thresholdFld k p) (v % 2 ^ 21) hfit
  rw [hl, hw] at hd
  refine ⟨_, (exec_poolThresholdWrite h v).trans (congrArg _ (writeThreshold_stores hv)), rfl, ?_, fun a ha => ?_, hd⟩
  · refine (get_put_same s (thresholdFld k p) _ hfit).trans ?_
    rw [hw, Nat.mod_mod]
  · exact reg_put_ne s (thresholdFld k p) _ (by simpa using ha)

/-- POOL_THRESHOLD_WRITE of a value out of order. -/
theorem poolThresholdWrite_refuses {s : State} {who : Sender} {p : Fin 6} {k : Threshold} (h : Serves s who (thresholdAddr p k)) {v : Nat}
    (hv : s.thresholdOk p k (v % 2 ^ 21) = false) : Completes (exec (.poolThresholdWrite who p k v) s) fun t =>
      t.isSet R.BPM_STATUS_CFG_IGNORED = true ∧ t.get (thresholdFld k p) = s.get (thresholdFld k p) ∧ t.bpm = s.bpm := by
  obtain ⟨h1, h2⟩ := thresholdFld_addr k p
  have hp := p.isLt
  obtain ⟨hc, hb⟩ := cfgIgnored_logged s p ((thresholdFld k p).addr % 0x10000) v
  refine ⟨_, (exec_poolThresholdWrite h v).trans (congrArg _ (writeThreshold_refuses hv)), hc, hb.get (by omega) (by omega) ?_, hb.bpm⟩
  simp only [R.BPM_STATUS_CFG_IGNORED, List.mem_singleton]
  omega

/-- Settles O16: each request by its size, its pool and its class, each pointer by where it lies, and each control of the pools. -/
theorem poolsServeAndAreControlled : Obligations.PoolsServeAndAreControlled := by
  refine ⟨fun s who req size p cls onDie nowait hp => ⟨fun hs => ?badSize, fun h1 h2 he => ?offline,
      fun h1 h2 he hr => ⟨fun hf hl => ?serves, fun hf hc => ?empty, fun hl hc hn => ?stop, fun hl hc hn hh => ?waits⟩,
      fun q i hq hi hu hh hf => free_clears hq hi hu hh hf who, fun ptr h => free_latches h who,
      fun q h rest hh hl hw => holdTimeout_answers hh hl hw⟩,
    fun s who hs => ⟨fun mask he => ?reset, fun mask he => ?resetIgnored, bpmDisable_empties hs,
      fun p k v ht => ⟨fun hv => poolThresholdWrite_stores ht hv, fun hv => poolThresholdWrite_refuses ht hv⟩,
      fun p hm => ⟨_, exec_minfreeWrite hm, setsOnly_put s _ _ (Nat.le_of_ble_eq_true rfl)⟩⟩⟩
  case badSize => exact ⟨_, exec_alloc_refused (allocCell_badSize hs s who req cls onDie nowait), rfl⟩
  case offline => exact ⟨_, exec_alloc_refused (allocCell_offline h1 h2 he who req cls onDie nowait), rfl⟩
  case serves => exact alloc_serves ⟨hp, h1, h2, he, hr⟩ (allocVerdict_serves hf hl nowait) who req
  case empty =>
    have h : Allocates s size p onDie := ⟨hp, h1, h2, he, hr⟩
    subst hc
    refine ⟨_, exec_alloc_refused (h.allocCell_refuses (k := St.poolEmpty) (by rw [hf]; rfl) who req), rfl, ?_, fun a ha => ?_⟩
    · exact get_bump_same s (R.BPM_Pp_EMPTY_DROPS_COUNT p) 1 (Nat.le_of_ble_eq_true rfl)
    · exact reg_put_ne s (R.BPM_Pp_EMPTY_DROPS_COUNT p) _ (by simpa using ha)
  case stop =>
    have h : Allocates s size p onDie := ⟨hp, h1, h2, he, hr⟩
    subst hc hn
    refine ⟨_, exec_alloc_refused (h.allocCell_refuses (k := St.poolStop) (allocVerdict_stop hl _) who req), rfl, fun a ha => ?_⟩
    exact reg_put_ne s (R.BPM_Pp_HOLD_TIMEOUTS_COUNT p) _ (by simpa using ha)
  case waits =>
    have h : Allocates s size p onDie := ⟨hp, h1, h2, he, hr⟩
    subst hc hn
    refine ⟨_, exec_alloc_held ((h.allocCell_holds (allocVerdict_stop hl _) who req).trans (hold_waits hh _)), ?_, ?_, ?_⟩
    · rw [heldOf_bump, heldOf_setHeld_same]
    · rw [bump_out, setHeld_out]
    · rw [bump_bpm, setHeld_used]
  case reset =>
    obtain ⟨t, ht, hsel, hrest⟩ := resetPools_frees hs mask he
    exact ⟨t, ht, fun p hp hb => ⟨(hsel p hp hb).used, (hsel p hp hb).free, (hsel p hp hb).minFree, (hsel p hp hb).level⟩, hrest⟩
  case resetIgnored =>
    obtain ⟨hc, hb⟩ := cfgIgnored_logged s 0 4 (mask * 256)
    exact ⟨_, (exec_resetPools hs mask).trans (congrArg _ (resetPools_enabled he mask _)), hb.bpm, hc, hb.mem⟩

end Sys2Proof.Proofs
end

section
/-! SUPPORT. The stream queues (R116 to R125): what an update of a queue leaves, and what becomes of a word that a producer writes, of the
word that a consumer takes, and of a packet that is discarded. -/

namespace Sys2Proof.Laws

open Sys2Proof Sys2Proof.Machine Sys2Proof.Safety

/-! ### Updates of a queue -/

/-- The state `t` is `s` with registers and stream queues changed. -/
def QueuesOnly (s t : State) : Prop := t = { s with regs := t.regs, queues := t.queues }

theorem QueuesOnly.refl (s : State) : QueuesOnly s s := rfl

theorem QueuesOnly.put {s t : State} (h : QueuesOnly s t) (f : Fld) (v : Nat) : QueuesOnly s (t.put f v) := by
  unfold QueuesOnly at h ⊢
  rw [h]; rfl

theorem QueuesOnly.bump {s t : State} (h : QueuesOnly s t) (f : Fld) (v : Nat) : QueuesOnly s (t.bump f v) := h.put f _

theorem QueuesOnly.setQueue {s t : State} (h : QueuesOnly s t) (n : Nat) (q : StreamQueue) : QueuesOnly s (t.setQueue n q) := by
  unfold QueuesOnly at h ⊢
  rw [h]; rfl

/-- What leaves the device beside the change of queues and registers. -/
theorem QueuesOnly.emit {s t : State} (h : QueuesOnly s t) (o : Output) :
    t.emit o = { s with regs := (t.emit o).regs, queues := (t.emit o).queues, out := o :: s.out } := by
  unfold QueuesOnly at h
  rw [h]; rfl

@[simp] theorem queue_putBit (s : State) (f : Fld) (b : Bool) (n : Nat) : (s.putBit f b).queue n = s.queue n := rfl
@[simp] theorem queue_bump (s : State) (f : Fld) (v n : Nat) : (s.bump f v).queue n = s.queue n := rfl

@[simp] theorem queue_emit (s : State) (o : Output) (n : Nat) : (s.emit o).queue n = s.queue n := rfl

@[simp] theorem queue_setQueue_same (s : State) (n : Nat) (q : StreamQueue) : (s.setQueue n q).queue n = q := get_set_same _ _ _ _

theorem queue_setQueue_ne (s : State) {n m : Nat} (q : StreamQueue) (h : m ≠ n) : (s.setQueue n q).queue m = s.queue m :=
  get_set_ne _ _ _ _ h

/-- A queue that is replaced shows itself in FILL and PKTS, and in EMPTY and FULL, which are the two lowest bits of STAT. -/
theorem get_setQueue_apart (s : State) (n : Nat) (q : StreamQueue) {f : Fld} (hf : f.addr ≠ (R.BPM_Qq_FILL_FILL n).addr)
    (hl : 2 ≤ f.lsb) : (s.setQueue n q).get f = s.get f := by
  have h0 : apart 0 1 f.lsb f.width := .inl (by omega)
  have h1 : apart 1 1 f.lsb f.width := .inl (by omega)
  exact (get_put_ne _ (R.BPM_Qq_FILL_PKTS n) f _ hf).trans <| (get_put_ne _ (R.BPM_Qq_FILL_FILL n) f _ hf).trans <|
    (get_put_apart _ (R.BPM_Qq_STAT_FULL n) f _ (Nat.le_of_ble_eq_true rfl) (.inr h1)).trans
      (get_put_apart _ (R.BPM_Qq_STAT_EMPTY n) f _ (Nat.le_of_ble_eq_true rfl) (.inr h0))

theorem stat_ne_fill (n : Nat) : (R.BPM_Qq_STAT_EMPTY n).addr ≠ (R.BPM_Qq_FILL_FILL n).addr := by
  simp only [R.BPM_Qq_STAT_EMPTY, R.BPM_Qq_FILL_FILL]
  omega

/-- OVERRUN is none of the flags by which a queue shows itself. -/
theorem overrun_setQueue (s : State) (n : Nat) (q : StreamQueue) :
    (s.setQueue n q).isSet (R.BPM_Qq_STAT_OVERRUN n) = s.isSet (R.BPM_Qq_STAT_OVERRUN n) :=
  congrArg (· == 1) (get_setQueue_apart s n q (stat_ne_fill n) (Nat.le_of_ble_eq_true rfl))

/-- Judging the order of a queue writes PRIO_ACTIVE or nothing (R122). -/
theorem judgeOrder_cases (s : State) (n : Nat) :
    s.judgeOrder n = s ∨ ∃ b, s.judgeOrder n = s.putBit (R.BPM_Qq_STAT_PRIO_ACTIVE n) b := by
  unfold State.judgeOrder
  dsimp only
  split_ifs
  · exact .inr ⟨_, rfl⟩
  · exact .inr ⟨_, rfl⟩
  · exact .inl rfl
  · exact .inr ⟨_, rfl⟩
  · exact .inl rfl

@[simp] theorem queue_judgeOrder (s : State) (n m : Nat) : (s.judgeOrder n).queue m = s.queue m := by
  obtain h | ⟨b, h⟩ := judgeOrder_cases s n
  · rw [h]
  · rw [h, queue_putBit]

theorem QueuesOnly.judgeOrder {s t : State} (h : QueuesOnly s t) (n : Nat) : QueuesOnly s (t.judgeOrder n) := by
  obtain e | ⟨b, e⟩ := judgeOrder_cases t n
  · rwa [e]
  · rw [e]
    exact h.put _ _

/-! ### A packet that is rewound (R117, R119) -/

/-- A queue with the packet being written taken back, and what follows of it ignored up to its EOP. -/
def rewound (q : StreamQueue) (eop : Bool) : StreamQueue := { q with openPkt := [], rewinding := !eop }

@[simp] theorem queue_rewind (s : State) (n : Nat) (eop : Bool) : (s.rewind n eop).queue n = rewound (s.queue n) eop := by
  rw [State.rewind, queue_bump, queue_setQueue_same, rewound]

theorem queue_rewind_ne (s : State) {n m : Nat} (eop : Bool) (h : m ≠ n) : (s.rewind n eop).queue m = s.queue m := by
  rw [State.rewind, queue_bump, queue_setQueue_ne _ _ h]

theorem QueuesOnly.rewind {s t : State} (h : QueuesOnly s t) (n : Nat) (eop : Bool) : QueuesOnly s (t.rewind n eop) :=
  (h.setQueue _ _).bump _ _

@[simp] theorem queue_overrun (s : State) (n : Nat) (w : QWord) : (s.overrun n w).queue n = rewound (s.queue n) w.eop := by
  rw [State.overrun, queue_bump, queue_rewind, queue_putBit]

theorem QueuesOnly.overrun {s t : State} (h : QueuesOnly s t) (n : Nat) (w : QWord) : QueuesOnly s (t.overrun n w) :=
  ((h.put _ _).rewind _ _).bump _ _

theorem overrun_shows (s : State) (n : Nat) (w : QWord) : (s.overrun n w).isSet (R.BPM_Qq_STAT_OVERRUN n) = true := by
  have hd : (R.BPM_Qq_STAT_OVERRUN n).addr ≠ (R.BPM_Qq_DROPS_BAD_REWOUND n).addr := by
    simp only [R.BPM_Qq_STAT_OVERRUN, R.BPM_Qq_DROPS_BAD_REWOUND]
    omega
  have hb (t : State) (f : Fld) (v : Nat) (hf : f.addr = (R.BPM_Qq_DROPS_BAD_REWOUND n).addr) :
      (t.put f v).isSet (R.BPM_Qq_STAT_OVERRUN n) = t.isSet (R.BPM_Qq_STAT_OVERRUN n) :=
    congrArg (· == 1) (get_put_ne t f _ v (hf ▸ hd))
  exact (hb _ (R.BPM_Qq_DROPS_OVERRUN_PKTS n) _ rfl).trans <| (hb _ (R.BPM_Qq_DROPS_BAD_REWOUND n) _ rfl).trans <|
    (overrun_setQueue _ _ _).trans (isSet_putBit_same s (R.BPM_Qq_STAT_OVERRUN n) true (Nat.le_of_ble_eq_true rfl) rfl)

/-! ### A word that a producer writes (R116 to R119, R123, R124) -/

theorem writeWord_disabled {s : State} {n : Nat} (h : s.isSet (R.BPM_Qq_CFG_ENABLE n) = false) (w : QWord) (o : WordOwner) :
    s.writeWord n w o = (s, .disabled) := by
  simp [State.writeWord, h]

/-- A queue that looks at the words of its producer: enabled, with none withheld and no packet being ignored. -/
structure TakesWords (s : State) (n : Nat) : Prop where
  enabled : s.isSet (R.BPM_Qq_CFG_ENABLE n) = true
  unstalled : (s.queue n).stalled = []
  listening : (s.queue n).rewinding = false

/-- A queue with a word that is not BAD behind the packet being written, which an EOP word commits. -/
def joined (q : StreamQueue) (w : QWord) : StreamQueue :=
  if w.eop then { q with packets := q.packets ++ [q.openPkt ++ [w]], openPkt := [] } else { q with openPkt := q.openPkt ++ [w] }

/-- With room, a word that is not BAD joins its packet. -/
theorem TakesWords.writeWord_joins {s : State} {n : Nat} (h : TakesWords s n) (hr : (s.queue n).fill ≠ s.get (R.BPM_Qq_DEPTH_WORDS n))
    {w : QWord} (hb : w.bad = false) (o : WordOwner) : ∃ t, s.writeWord n w o = (t, .taken) ∧ QueuesOnly s t ∧
      t.queue n = joined (s.queue n) (fitWord n w) ∧ ∀ m, m ≠ n → t.queue m = s.queue m := by
  have hb' : (fitWord n w).bad = false := hb
  cases he : (fitWord n w).eop
  · refine ⟨s.setQueue n (joined (s.queue n) (fitWord n w)), ?_, (QueuesOnly.refl s).setQueue _ _, queue_setQueue_same _ _ _,
      fun m hm => queue_setQueue_ne _ _ hm⟩
    simp [State.writeWord, joined, h.enabled, h.unstalled, h.listening, hr, hb', he]
  · refine ⟨(s.setQueue n (joined (s.queue n) (fitWord n w))).judgeOrder n, ?_, ((QueuesOnly.refl s).setQueue _ _).judgeOrder _, ?_,
      fun m hm => ?_⟩
    · simp [State.writeWord, joined, h.enabled, h.unstalled, h.listening, hr, hb', he]
    · rw [queue_judgeOrder, queue_setQueue_same]
    · rw [queue_judgeOrder, queue_setQueue_ne _ _ hm]

/-- With room, a BAD word takes its packet back. -/
theorem TakesWords.writeWord_bad {s : State} {n : Nat} (h : TakesWords s n) (hr : (s.queue n).fill ≠ s.get (R.BPM_Qq_DEPTH_WORDS n))
    {w : QWord} (hb : w.bad = true) (o : WordOwner) : s.writeWord n w o = (s.rewind n w.eop, .taken) := by
  have hb' : (fitWord n w).bad = true := hb
  simp only [State.writeWord, h.enabled, h.unstalled, h.listening, beq_false_of_ne hr, hb', Bool.not_true, List.isEmpty_nil,
    Bool.false_eq_true, if_false, if_true]
  rfl

/-- A full native queue drops the packet. -/
theorem TakesWords.writeWord_full {s : State} {n : Nat} (h : TakesWords s n) (hr : (s.queue n).fill = s.get (R.BPM_Qq_DEPTH_WORDS n))
    (hk : s.isSet (R.BPM_Qq_CFG_KB3_COMPAT n) = false) (w : QWord) (o : WordOwner) :
    s.writeWord n w o = (s.overrun n (fitWord n w), .full) := by
  simp [State.writeWord, h.enabled, h.unstalled, h.listening, hr, hk]

/-- A full KB3_COMPAT queue withholds the write. -/
theorem TakesWords.writeWord_withheld {s : State} {n : Nat} (h : TakesWords s n)
    (hr : (s.queue n).fill = s.get (R.BPM_Qq_DEPTH_WORDS n)) (hk : s.isSet (R.BPM_Qq_CFG_KB3_COMPAT n) = true) (w : QWord)
    (o : WordOwner) : s.writeWord n w o =
      (s.setQueue n { s.queue n with stalled := [(fitWord n w, o)], since := s.cycle }, .withheld) := by
  simp [State.writeWord, h.enabled, h.unstalled, h.listening, hr, hk]

/-- QUEUE_WRITE answers a word that is refused, and no other. -/
theorem exec_queueWrite {s t : State} {n : Fin 2048} {w : QWord} {who : Sender} {r : WriteOut}
    (h : s.writeWord n w (.sender who) = (t, r)) : exec (.queueWrite who n w) s = .next (match r with
      | .full => t.emit (.done who St.queueFull [n.val])
      | .disabled => t.emit (.done who St.queueDisabled [n.val])
      | _ => t) := by
  simp only [exec, execQueueWrite, h]
  cases r <;> rfl

/-! ### A withheld word that waits too long (R123) -/

/-- The only withheld word, of a sender, past BPM_COMPAT_STALL. -/
theorem exec_compatStallTimeout {s : State} {n : Fin 2048} {w : QWord} {who : Sender}
    (hw : (s.queue n).stalled = [(w, .sender who)])
    (hl : (s.queue n).since + s.get R.BPM_COMPAT_STALL_MICROSECONDS * usCycles < s.cycle) :
    exec (.compatStallTimeout n) s = .next (((s.overrun n w).setQueue n { rewound (s.queue n) w.eop with stalled := [] }).emit
      (.done who St.queueFull [n.val])) := by
  simp [exec, execCompatStallTimeout, hw, hl, State.answerWord, State.unstall]

/-! ### The word that a consumer takes (R118, R122, R124) -/

theorem retryStalled_none {s : State} {n : Nat} (h : (s.queue n).stalled = []) : s.retryStalled n = s := by
  simp [State.retryStalled, h]

/-- With no write withheld, the word taken leaves its queue and is its last. -/
theorem took_word (s : State) (n : Nat) {q : StreamQueue} (h : q.stalled = []) (w : QWord) (rest : List QWord) :
    ∃ t, s.took n q w rest = (t, w) ∧ QueuesOnly s t ∧ t.queue n = { q with reading := rest, last := w } := by
  have hq : QueuesOnly s (s.setQueue n { q with reading := rest, last := w }) := (QueuesOnly.refl s).setQueue _ _
  have hs : (s.setQueue n { q with reading := rest, last := w }).queue n = { q with reading := rest, last := w } :=
    queue_setQueue_same _ _ _
  cases he : rest.isEmpty
  · refine ⟨_, ?_, hq, hs⟩
    simp only [State.took, he, Bool.false_eq_true, if_false]
    rw [retryStalled_none (by rw [hs, h])]
  · have hj := (queue_judgeOrder _ n n).trans hs
    refine ⟨_, ?_, hq.judgeOrder n, hj⟩
    simp only [State.took, he, if_true]
    rw [retryStalled_none (by rw [hj, h])]

/-- The packet being read goes on. -/
theorem readWord_goesOn {s : State} {n : Nat} (he : s.isSet (R.BPM_Qq_CFG_ENABLE n) = true) {w : QWord} {rest : List QWord}
    (hr : (s.queue n).reading = w :: rest) : s.readWord n = s.took n (s.queue n) w rest := by
  simp [State.readWord, he, hr]

/-- Between packets the consumer starts the one that its queue picks. -/
theorem readWord_starts {s : State} {n : Nat} (he : s.isSet (R.BPM_Qq_CFG_ENABLE n) = true) (hr : (s.queue n).reading = [])
    {w : QWord} {rest : List QWord} {others : List (List QWord)}
    (hp : (s.queue n).pick (s.isSet (R.BPM_Qq_STAT_PRIO_ACTIVE n)) = some (w :: rest, others)) :
    s.readWord n = s.took n { s.queue n with packets := others } w rest := by
  simp [State.readWord, he, hr, hp]

/-- In arrival order the oldest packet is picked. -/
theorem pick_oldest {q : StreamQueue} {p : List QWord} {ps : List (List QWord)} (h : q.packets = p :: ps) :
    q.pick false = some (p, ps) := by
  simp [StreamQueue.pick, h, takeFirst]

/-- In priority order the younger of two packets is picked where its PRIO is the lower. -/
theorem pick_lowerPrio {q : StreamQueue} {x w : QWord} {xs r : List QWord} (h : q.packets = [x :: xs, w :: r]) (hl : w.prio < x.prio)
    (h8 : w.prio < 8) : q.pick true = some (w :: r, [x :: xs]) := by
  have hlow : lowestPrio [x :: xs, w :: r] = w.prio := by
    simp only [lowestPrio, packetPrio, List.foldl_cons, List.foldl_nil]
    omega
  have hx : (x.prio == w.prio) = false := beq_false_of_ne hl.ne'
  simp [StreamQueue.pick, h, hlow, takeFirst, packetPrio, hx]

/-- A queue that is disabled or holds no committed word gives its last word again. -/
theorem readWord_underrun {s : State} {n : Nat}
    (h : s.isSet (R.BPM_Qq_CFG_ENABLE n) = false ∨ ((s.queue n).reading = [] ∧ (s.queue n).packets = [])) :
    s.readWord n = (s.putBit (R.BPM_Qq_STAT_UNDERRUN n) true, fitWord n (s.queue n).last) := by
  cases he : s.isSet (R.BPM_Qq_CFG_ENABLE n)
  · simp [State.readWord, he]
  · obtain ⟨hr, hp⟩ := h.resolve_left (by rw [he]; decide)
    simp [State.readWord, he, hr, StreamQueue.pick, hp, takeFirst]

theorem exec_queueRead {s t : State} {n : Fin 2048} {w : QWord} (h : s.readWord n = (t, w)) (who : Sender) :
    exec (.queueRead who n) s = .next (t.emit (.word who n w.data (qwordSide w))) := by
  simp only [exec, execQueueRead, h]

/-! ### What a consumer discards (R121, R124) -/

theorem exec_dropRest {s : State} {who : Sender} {n : Fin 2048} (h : Serves s who (R.BPM_Qq_CMD_DROP_REST n).addr) :
    exec (.dropRest who n) s = .next (s.dropRest n) := by
  rw [exec, execDropRest, access_served h]

theorem dropRest_ignored {s : State} {n : Nat} (h : (s.queue n).reading = []) :
    s.dropRest n = s.putBit (R.BPM_Qq_STAT_CMD_IGNORED n) true := by
  simp [State.dropRest, h]

theorem dropRest_discards {s : State} {n : Nat} (h : (s.queue n).reading ≠ []) (hs : (s.queue n).stalled = []) :
    s.dropRest n = (s.setQueue n { s.queue n with reading := [] }).judgeOrder n := by
  simp only [State.dropRest, List.isEmpty_iff, h, if_false]
  exact retryStalled_none (by rw [queue_judgeOrder, queue_setQueue_same, hs])

theorem exec_flush {s : State} {who : Sender} {n : Fin 2048} (h : Serves s who (R.BPM_Qq_CMD_DROP_REST n).addr) :
    exec (.flush who n) s = .next (s.flushQueue n) := by
  rw [exec, execFlush, access_served h]

/-- A queue without any word, but those withheld. -/
def flushed (q : StreamQueue) : StreamQueue := { q with packets := [], openPkt := [], rewinding := false, reading := [] }

theorem flushQueue_disabled {s : State} {n : Nat} (h : s.isSet (R.BPM_Qq_CFG_ENABLE n) = false) :
    s.flushQueue n = (s.setQueue n (flushed (s.queue n))).judgeOrder n := by
  simp [State.flushQueue, h, flushed]

theorem flushQueue_ignored {s : State} {n : Nat} (h : s.isSet (R.BPM_Qq_CFG_ENABLE n) = true) :
    s.flushQueue n = s.putBit (R.BPM_Qq_STAT_CMD_IGNORED n) true := if_pos h

/-- A queue that is replaced by an empty one shows no word and EMPTY. -/
theorem setQueue_shows_empty (s : State) (n : Nat) {q : StreamQueue} (hf : q.fill = 0) (he : q.empty = true) :
    (s.setQueue n q).get (R.BPM_Qq_FILL_FILL n) = 0 ∧ (s.setQueue n q).isSet (R.BPM_Qq_STAT_EMPTY n) = true := by
  have hk : apart 16 16 0 16 := .inr (by decide)
  have h1 : apart 1 1 0 1 := .inr (by decide)
  constructor
  · refine (get_put_apart _ (R.BPM_Qq_FILL_PKTS n) (R.BPM_Qq_FILL_FILL n) _ (Nat.le_of_ble_eq_true rfl) (.inr hk)).trans ?_
    rw [get_put_same _ _ _ (Nat.le_of_ble_eq_true rfl), hf, Nat.zero_mod]
  · have hb := isSet_putBit_same { s with queues := SMap.set StreamQueue.init s.queues n q } (R.BPM_Qq_STAT_EMPTY n) q.empty
      (Nat.le_of_ble_eq_true rfl) rfl
    refine (congrArg (· == 1) ?_).trans (hb.trans he)
    exact (get_put_ne _ (R.BPM_Qq_FILL_PKTS n) _ _ (stat_ne_fill n)).trans <|
      (get_put_ne _ (R.BPM_Qq_FILL_FILL n) _ _ (stat_ne_fill n)).trans
        (get_put_apart _ (R.BPM_Qq_STAT_FULL n) _ _ (Nat.le_of_ble_eq_true rfl) (.inr h1))

/-- Neither FILL nor EMPTY goes by the order of the queue. -/
theorem judgeOrder_shows (s : State) (n : Nat) : (s.judgeOrder n).get (R.BPM_Qq_FILL_FILL n) = s.get (R.BPM_Qq_FILL_FILL n) ∧
    (s.judgeOrder n).isSet (R.BPM_Qq_STAT_EMPTY n) = s.isSet (R.BPM_Qq_STAT_EMPTY n) := by
  have h4 : apart 4 1 0 1 := .inr (by decide)
  obtain h | ⟨b, h⟩ := judgeOrder_cases s n <;> rw [h]
  · exact ⟨rfl, rfl⟩
  · exact ⟨get_put_ne s (R.BPM_Qq_STAT_PRIO_ACTIVE n) _ _ (stat_ne_fill n).symm,
      isSet_put_apart s _ _ _ (Nat.le_of_ble_eq_true rfl) (.inr h4)⟩

end Sys2Proof.Laws
end

section
/-! The statement of chapter 3 about stream queues. -/

namespace Sys2Proof.Proofs

open Sys2Proof Sys2Proof.Machine Sys2Proof.Safety Sys2Proof.Laws

/-- QUEUE_WRITE to a queue that has room. -/
theorem queueWrite_takes {s : State} {n : Fin 2048} (h : TakesWords s n) (hr : (s.queue n).fill ≠ s.get (R.BPM_Qq_DEPTH_WORDS n))
    (who : Sender) (w : QWord) : Completes (exec (.queueWrite who n w) s) fun t =>
      t.queue n = (if w.bad then rewound (s.queue n) w.eop else joined (s.queue n) (fitWord n w)) ∧
      (∀ m, m ≠ n.val → t.queue m = s.queue m) ∧ QueuesOnly s t := by
  cases hb : w.bad
  · obtain ⟨t, ht, hq, hn, hm⟩ := h.writeWord_joins hr hb (.sender who)
    exact ⟨t, exec_queueWrite ht, hn, hm, hq⟩
  · exact ⟨_, exec_queueWrite (h.writeWord_bad hr hb _), queue_rewind _ _ _, fun m hm => queue_rewind_ne _ _ hm,
      (QueuesOnly.refl s).rewind _ _⟩

/-- QUEUE_READ that takes the word `w`, the rest of its packet being `r`. -/
theorem queueRead_takes {s : State} {n : Fin 2048} {q : StreamQueue} (hs : q.stalled = []) {w : QWord} {r : List QWord}
    (h : s.readWord n = s.took n q w r) (who : Sender) : Completes (exec (.queueRead who n) s) fun t =>
      t.out = .word who n w.data (qwordSide w) :: s.out ∧ t.queue n = { q with reading := r, last := w } ∧
      t = { s with regs := t.regs, queues := t.queues, out := t.out } := by
  obtain ⟨t, ht, hq, hn⟩ := took_word s n hs w r
  have he := hq.emit (.word who n w.data (qwordSide w))
  exact ⟨_, exec_queueRead (h.trans ht) who, congrArg State.out he, hn, he.trans (by rw [he])⟩

/-- COMPAT_STALL_TIMEOUT of a queue's only withheld word. -/
theorem compatStallTimeout_drops {s : State} {n : Fin 2048} {w : QWord} {who : Sender}
    (hw : (s.queue n).stalled = [(w, .sender who)])
    (hl : (s.queue n).since + s.get R.BPM_COMPAT_STALL_MICROSECONDS * usCycles < s.cycle) :
    Completes (exec (.compatStallTimeout n) s) fun t =>
      t.isSet (R.BPM_Qq_STAT_OVERRUN n) = true ∧ (t.queue n).stalled = [] ∧ (t.queue n).openPkt = [] ∧
      (t.queue n).packets = (s.queue n).packets ∧
      t = { s with regs := t.regs, queues := t.queues, out := .done who St.queueFull [n.val] :: s.out } := by
  refine ⟨_, exec_compatStallTimeout hw hl, ?_, ?_, ?_, ?_, (((QueuesOnly.refl s).overrun n w).setQueue _ _).emit _⟩
  · rw [emit_isSet_read, overrun_setQueue, overrun_shows]
  all_goals simp only [queue_emit, queue_setQueue_same, rewound]

/-- FLUSH of a disabled queue. -/
theorem flush_empties {s : State} {who : Sender} {n : Fin 2048} (h : Serves s who (R.BPM_Qq_CMD_DROP_REST n).addr)
    (he : s.isSet (R.BPM_Qq_CFG_ENABLE n) = false) : Completes (exec (.flush who n) s) fun t =>
      t.queue n = flushed (s.queue n) ∧ t.get (R.BPM_Qq_FILL_FILL n) = 0 ∧ t.isSet (R.BPM_Qq_STAT_EMPTY n) = true ∧
      ∀ m, m ≠ n.val → t.queue m = s.queue m := by
  obtain ⟨hfill, hempty⟩ := judgeOrder_shows (s.setQueue n (flushed (s.queue n))) n
  obtain ⟨hf, hm⟩ := setQueue_shows_empty s n (q := flushed (s.queue n)) rfl rfl
  refine ⟨_, (exec_flush h).trans (congrArg _ (flushQueue_disabled he)), ?_, hfill.trans hf, hempty.trans hm, fun m hm => ?_⟩
  · rw [queue_judgeOrder, queue_setQueue_same]
  · rw [queue_judgeOrder, queue_setQueue_ne _ _ hm]

/-- Settles O17: a word by the state of its queue, a withheld one that waits too long, the word that a read gives, and what is discarded. -/
theorem streamQueuesPassWholePackets : Obligations.StreamQueuesPassWholePackets := by
  intro s who n w
  refine ⟨fun hd => ?disabled, fun he hs hr => ⟨fun hf => ?room, fun hf hk => ?full, fun hf hk => ?withheld⟩,
    fun hs hl => compatStallTimeout_drops hs hl, fun he hs => ⟨fun r hr => ?goesOn, fun r ps hr hp hq => ?oldest,
      fun x xs r hr hp hq hl h8 => ?lowest⟩, fun hu => ?underrun,
    fun h => ⟨fun hr hs => ?drops, fun hr => ?nothing, fun hd => flush_empties h hd, fun he => ?enabled⟩⟩
  case disabled => exact ⟨_, exec_queueWrite (writeWord_disabled hd w _), rfl⟩
  case room =>
    obtain ⟨t, ht, hn, hm, hq⟩ := queueWrite_takes ⟨he, hs, hr⟩ hf who w
    refine ⟨t, ht, fun hb h1 => ?_, fun hb h1 => ?_, fun hb => ?_, hm, hq⟩
    · rw [hn, hb, joined, show (fitWord n w).eop = true from h1]
      rfl
    · rw [hn, hb, joined, show (fitWord n w).eop = false from h1]
      rfl
    · rw [hn, hb]
      rfl
  case full =>
    have ho : TakesWords s n := ⟨he, hs, hr⟩
    refine ⟨_, exec_queueWrite (ho.writeWord_full hf hk w _), ?_, ?_, ((QueuesOnly.refl s).overrun n (fitWord n w)).emit _⟩
    · rw [queue_emit, queue_overrun]
      rfl
    · rw [emit_isSet_read, overrun_shows]
  case withheld =>
    have ho : TakesWords s n := ⟨he, hs, hr⟩
    exact ⟨_, exec_queueWrite (ho.writeWord_withheld hf hk w _), queue_setQueue_same _ _ _, (QueuesOnly.refl s).setQueue _ _⟩
  case goesOn => exact queueRead_takes hs (readWord_goesOn he hr) who
  case oldest =>
    obtain ⟨t, ht, ho, hn, -⟩ := queueRead_takes (q := { s.queue n with packets := ps }) hs
      (readWord_starts he hr ((congrArg _ hp).trans (pick_oldest hq))) who
    exact ⟨t, ht, ho, hn⟩
  case lowest =>
    obtain ⟨t, ht, ho, hn, -⟩ := queueRead_takes (q := { s.queue n with packets := [x :: xs] }) hs
      (readWord_starts he hr ((congrArg _ hp).trans (pick_lowerPrio hq hl h8))) who
    exact ⟨t, ht, ho, hn⟩
  case underrun =>
    exact ⟨_, exec_queueRead (readWord_underrun hu) who, rfl, rfl,
      isSet_putBit_same s (R.BPM_Qq_STAT_UNDERRUN n) true (Nat.le_of_ble_eq_true rfl) rfl⟩
  case drops =>
    refine ⟨_, (exec_dropRest h).trans (congrArg _ (dropRest_discards hr hs)), ?_,
      ((QueuesOnly.refl s).setQueue _ _).judgeOrder _⟩
    rw [queue_judgeOrder, queue_setQueue_same]
  case nothing =>
    exact ⟨_, (exec_dropRest h).trans (congrArg _ (dropRest_ignored hr)), setsOnly_put s _ _ (Nat.le_of_ble_eq_true rfl)⟩
  case enabled =>
    exact ⟨_, (exec_flush h).trans (congrArg _ (flushQueue_ignored he)), setsOnly_put s _ _ (Nat.le_of_ble_eq_true rfl)⟩

end Sys2Proof.Proofs
end

section
/-! The statement of chapter 0 about a step without a command. -/

namespace Sys2Proof.Proofs

open Sys2Proof Sys2Proof.Machine Sys2Proof.Safety Sys2Proof.Laws

/-- Settles O2: a step of an empty queue is a fabric cycle, in a second's last cycle with RLY_AGE_CLOCK raised and else without. -/
theorem emptyQueueLetsOneCyclePass : Obligations.EmptyQueueLetsOneCyclePass := by
  intro s hp
  refine ⟨s.tick, by rw [step, hp], ?_⟩
  by_cases hsec : (s.cycle + 1 - s.ageZero) % secCycles = 0
  · rw [State.tick, if_pos hsec]
    exact ⟨rfl, fun a ha => reg_put_ne _ _ _ (by simpa using ha), (get_put_same _ _ _ (Nat.le_of_ble_eq_true rfl)).trans (if_pos hsec).symm⟩
  · rw [State.tick, if_neg hsec]
    exact ⟨rfl, fun _ _ => rfl, (if_neg hsec).symm⟩

end Sys2Proof.Proofs
end

section
/-! SUPPORT. The class queues of an egress port (R131 to R140): what a released frame does to its queue, and what the scheduler makes of the only
frame that waits on a port without gates. -/

namespace Sys2Proof.Laws

open Sys2Proof Sys2Proof.Machine Sys2Proof.Safety

/-! ### Class queues and released frames (R131) -/

@[simp] theorem classQueue_setClassQueue_same (s : State) (d c : Nat) (l : List EFrame) : (s.setClassQueue d c l).classQueue d c = l :=
  get_set_same _ _ _ _

/-- Another class queue is left, each destination having eight. -/
theorem classQueue_setClassQueue_ne (s : State) {d c e k : Nat} (l : List EFrame) (hc : c < 8) (hk : k < 8) (h : (e, k) ≠ (d, c)) :
    (s.setClassQueue d c l).classQueue e k = s.classQueue e k := by
  refine get_set_ne _ _ _ _ fun hkey => h ?_
  rw [Prod.mk.injEq]
  omega

@[simp] theorem releasedOf_setReleased (s : State) (n : Nat) (l : List EFrame) : (s.setReleased n l).releasedOf n = l := get_set_same _ _ _ _

theorem exec_enqueue {s : State} {p : Fin 8} {f : EFrame} {rest : List EFrame} (h : s.releasedOf p = f :: rest) :
    exec (.enqueue p) s = .next ((s.setReleased p rest).enqueueFrame f) := by
  simp only [exec, execEnqueue, h]

/-- A frame for which its queue has room joins at the end. -/
theorem enqueueFrame_joins {s : State} {f : EFrame} (h : frameBytes (s.classQueue f.dest f.cls) + f.len ≤ s.get R.EGS_DQ_LIMIT_BYTES) :
    s.enqueueFrame f = s.setClassQueue f.dest f.cls (s.classQueue f.dest f.cls ++ [f]) := by
  rw [State.enqueueFrame, if_neg (Nat.not_lt.2 h)]

/-- A frame that would pass the limit is counted as dropped. -/
theorem enqueueFrame_drops {s : State} {f : EFrame} (hc : f.cell = noCell)
    (h : s.get R.EGS_DQ_LIMIT_BYTES < frameBytes (s.classQueue f.dest f.cls) + f.len) :
    s.enqueueFrame f = s.count (R.C_EGS_Pn_TAIL_DROP f.port) := by
  rw [State.enqueueFrame, if_pos h, hc, release_noCell]

/-! ### A port without gates (R148, R149) -/

section Ungated

variable {s : State} {n : Nat} (h : s.isSet (R.TGC_CTRL_ENABLE n) = false)

include h

theorem oversize_ungated (c len : Nat) : s.oversize n c len = false := by simp [State.oversize, h]

theorem gateLets_ungated (c len : Nat) : s.gateLets n c len = true := by
  have ho : s.openNs n c = none := by simp [State.openNs, h]
  rw [State.gateLets, gateOpen_disabled h, ho]
  rfl

/-- No head is too long for a window. -/
theorem demoteHeads_ungated (l : List (Nat × List EFrame)) : s.demoteHeads n l = s := by
  induction l with
  | nil => rfl
  | cons e l ih =>
    obtain ⟨k, _ | ⟨f, rest⟩⟩ := e
    · exact ih
    · simp only [State.demoteHeads, oversize_ungated h, Bool.and_false, Bool.false_eq_true, if_false, ih]

/-- A frame is arbitrated in its own class. -/
theorem standsIn_ungated {f : EFrame} (hf : f.port = n) : s.standsIn f = f.cls := by
  subst hf
  rw [State.standsIn, oversize_ungated h, if_neg Bool.false_ne_true]

end Ungated

/-- Classes 0 and 1 are sent whatever the shaper's level (R136). -/
theorem shaperLets_unshaped (s : State) (d : Nat) {c : Nat} (h : c < 2) : s.shaperLets d c = true := by simp [State.shaperLets, h]

/-! ### The only frame of a port (R132, R133) -/

/-- The frame `f`, of class 0 or 1 and without a cell, is the only one in the class queues; its port `n` has no gates. -/
structure LoneFrame (s : State) (n : Nat) (f : EFrame) : Prop where
  queued : s.egress.queues = [(f.dest * 8 + f.cls, [f])]
  onPort : f.port = n
  unshaped : f.cls < 2
  noCell : f.cell = noCell
  ungated : s.isSet (R.TGC_CTRL_ENABLE n) = false

/-- With nothing queued no head is eligible. -/
theorem turnOf_empty {s : State} (h : s.egress.queues = []) (n c : Nat) : s.turnOf n c = none := by
  simp [State.turnOf, State.eligible, h, nextTurn]

/-- With nothing queued the DWRR's deficits are set to 0 and no frame is selected. -/
theorem arbitrate_empty {s : State} (h : s.egress.queues = []) (n : Nat) : s.arbitrate n = (s.idleDwrr n, none) := by
  have hidle : (s.idleDwrr n).egress.queues = [] := h
  simp [State.arbitrate, turnOf_empty h, turnOf_empty hidle]

theorem LoneFrame.eligible {s : State} {n : Nat} {f : EFrame} (h : LoneFrame s n f) (c : Nat) :
    s.eligible n c = if f.cls = c then [f] else [] := by
  have hl := gateLets_ungated h.ungated f.cls f.len
  have hs := shaperLets_unshaped s f.dest h.unshaped
  by_cases hc : f.cls = c
  · subst hc
    simp [State.eligible, h.queued, standsIn_ungated h.ungated h.onPort, h.onPort, hl, hs]
  · simp [State.eligible, h.queued, standsIn_ungated h.ungated h.onPort, hc]

/-- Of one head it is that head's turn, wherever the round stands. -/
theorem nextTurn_single (last : Nat) (f : EFrame) : nextTurn last [f] = some f := by
  by_cases hl : last < f.dest <;> simp [nextTurn, hl]

theorem LoneFrame.turnOf {s : State} {n : Nat} {f : EFrame} (h : LoneFrame s n f) (c : Nat) :
    s.turnOf n c = if f.cls = c then some f else none := by
  rw [State.turnOf, h.eligible]
  split
  · exact nextTurn_single _ f
  · rfl

/-- Arbitration selects it, in class 0 or 1. -/
theorem LoneFrame.arbitrate {s : State} {n : Nat} {f : EFrame} (h : LoneFrame s n f) : s.arbitrate n = (s, some f) := by
  obtain hc | hc : f.cls = 0 ∨ f.cls = 1 := by have := h.unshaped; omega
  · simp [State.arbitrate, h.turnOf, hc]
  · simp [State.arbitrate, h.turnOf, hc]

/-- The scheduler with the frame taken off its queue. -/
def headTaken (s : State) (n : Nat) (f : EFrame) : State := s.takeHead n f.cls f

theorem LoneFrame.headTaken_queues {s : State} {n : Nat} {f : EFrame} (h : LoneFrame s n f) : (headTaken s n f).egress.queues = [] := by
  simp [headTaken, State.takeHead, State.setClassQueue, State.classQueue, h.queued, SMap.get, SMap.find?, SMap.set, SMap.erase]

theorem LoneFrame.queuedFrames {s : State} {n : Nat} {f : EFrame} (h : LoneFrame s n f) : s.queuedFrames = 1 := by
  simp [State.queuedFrames, h.queued]

/-- What a frame that is not too old leads to: it starts. -/
theorem LoneFrame.pickLoop_starts {s : State} {n : Nat} {f : EFrame} (h : LoneFrame s n f) (ho : s.tooOld f = false) (k : Nat) :
    s.pickLoop n (k + 1) = (headTaken s n f).startFrame n f := by
  have hk : ¬ (2 ≤ f.cls) := Nat.not_le.2 h.unshaped
  have hold : (s.takeHead n f.cls f).tooOld f = false := ho
  simp [State.pickLoop, h.arbitrate, standsIn_ungated h.ungated h.onPort, hold, State.chargeDwrr, hk, headTaken]

/-- What a frame that is too old leads to: it is counted as dropped, and the scheduler selects again among no frames (R140). -/
theorem LoneFrame.pickLoop_drops {s : State} {n : Nat} {f : EFrame} (h : LoneFrame s n f) (ho : s.tooOld f = true) (k : Nat) :
    s.pickLoop n (k + 2) = ((headTaken s n f).count (R.C_EGS_Pn_AGE_DROP n)).idleDwrr n := by
  have hold : (s.takeHead n f.cls f).tooOld f = true := ho
  have hq : ((s.takeHead n f.cls f).count (R.C_EGS_Pn_AGE_DROP n)).egress.queues = [] := h.headTaken_queues
  simp only [State.pickLoop, h.arbitrate, standsIn_ungated h.ungated h.onPort, hold, if_true, h.noCell, release_noCell, arbitrate_empty hq,
    headTaken]

/-! ### What is dropped before the pick (R96, R137) -/

/-- A single frame that fails the test stays. -/
theorem dropFront_stays {test : Nat → EFrame → Bool} {k : Nat} {f : EFrame} (h : test (k / 8) f = false) (s : State) (a : Nat) :
    s.dropFront test a [(k, [f])] = s := by
  simp [State.dropFront, h]

/-- A single frame that passes the test leaves its queue and is counted. -/
theorem dropFront_leaves {test : Nat → EFrame → Bool} {k : Nat} {f : EFrame} (h : test (k / 8) f = true) (hc : f.cell = noCell) (s : State)
    (a : Nat) : s.dropFront test a [(k, [f])] = (s.setClassQueue (k / 8) (k % 8) []).count a := by
  simp [State.dropFront, h, hc]

/-- A frame of class 0 or 1 is not stranded at a shaper. -/
theorem stranded_unshaped (s : State) (d : Nat) {f : EFrame} (h : f.cls < 2) : s.stranded d f = false := by
  have h2 : f.cls ≠ 2 := by omega
  have h3 : f.cls ≠ 3 := by omega
  simp [State.stranded, h2, h3]

/-! ### EGRESS_PICK -/

/-- The scheduler is enabled and the port is not sending. -/
structure PortIdle (s : State) (n : Nat) : Prop where
  enabled : s.isSet R.EGS_CTRL_ENABLE = true
  idle : SMap.get 0 s.egress.busy n ≤ s.cycle

theorem exec_egressPick_waits {s : State} {p : Fin 8} (h : s.isSet R.EGS_CTRL_ENABLE = false ∨ s.cycle < SMap.get 0 s.egress.busy p) :
    exec (.egressPick p) s = .next s := by
  obtain h | h := h <;> simp [exec, execEgressPick, h]

theorem exec_egressPick_stopped {s : State} {p : Fin 8} {f : EFrame} (hi : PortIdle s p) (h : LoneFrame s p f)
    (hr : s.portRuns p = false) :
    exec (.egressPick p) s = .next ((s.setClassQueue f.dest f.cls []).count (R.C_RLY_Pn_TX_DISCARD p)) := by
  have hd : (f.dest * 8 + f.cls) / 8 = f.dest := by have := h.unshaped; omega
  have hm : (f.dest * 8 + f.cls) % 8 = f.cls := by have := h.unshaped; omega
  have hdrop := dropFront_leaves (test := fun _ f => f.port == p.val) (k := f.dest * 8 + f.cls) (f := f) (by simpa using h.onPort)
    h.noCell s (R.C_RLY_Pn_TX_DISCARD p)
  rw [hd, hm] at hdrop
  simp [exec, execEgressPick, hi.enabled, hi.idle, hr, h.queued, hdrop]

theorem exec_egressPick_runs {s : State} {p : Fin 8} {f : EFrame} (hi : PortIdle s p) (h : LoneFrame s p f) (hr : s.portRuns p = true) :
    exec (.egressPick p) s = .next (s.pickLoop p 2) := by
  have hdrop := dropFront_stays (test := fun d f => f.port == p.val && s.stranded d f) (k := f.dest * 8 + f.cls) (f := f)
    (by simp [stranded_unshaped s _ h.unshaped]) s (R.C_EGS_Pn_AGE_DROP p)
  simp [exec, execEgressPick, hi.enabled, hi.idle, hr, h.queued, hdrop, demoteHeads_ungated h.ungated, h.queuedFrames]

/-! ### The start of a frame (R134, R136, R98) -/

/-- A charge changes the shapers alone. -/
theorem charge_shapers (s : State) (d len : Nat) :
    s.charge d len = { s with egress := { s.egress with shapers := (s.charge d len).egress.shapers } } := by
  unfold State.charge
  split <;> rfl

/-- The frame's start but for its octets: its charge, its counts, and the time until which the port sends. -/
def startNoted (s : State) (n : Nat) (f : EFrame) : State :=
  let t := ((s.charge f.dest f.len).count (R.C_RLY_Pn_TX_FRAMES n)).count (R.C_RLY_Pn_TX_BYTES n) f.len
  { t with egress := { t.egress with busy := SMap.set 0 t.egress.busy n (t.cycle + ceilDiv (t.charged f.len * 12) t.portRate) } }

/-- A note of the start changes the scheduler and counters alone. -/
theorem startNoted_only (s : State) (n : Nat) (f : EFrame) :
    startNoted s n f = { s with ctr := (startNoted s n f).ctr, egress := (startNoted s n f).egress } := by
  unfold startNoted
  rw [charge_shapers]
  rfl

theorem startNoted_queues (s : State) (n : Nat) (f : EFrame) : (startNoted s n f).egress.queues = s.egress.queues := by
  unfold startNoted
  rw [charge_shapers]
  rfl

theorem startNoted_busy (s : State) (n : Nat) (f : EFrame) :
    SMap.get 0 (startNoted s n f).egress.busy n = s.cycle + ceilDiv (s.charged f.len * 12) s.portRate := by
  unfold startNoted
  rw [charge_shapers]
  exact get_set_same _ _ _ _

/-- The frames and the octets sent are counted. -/
theorem startNoted_counts (s : State) (n : Nat) (f : EFrame) :
    (startNoted s n f).counter (R.C_RLY_Pn_TX_FRAMES n) = (s.counter (R.C_RLY_Pn_TX_FRAMES n) + 1) % 2 ^ 64 ∧
    (startNoted s n f).counter (R.C_RLY_Pn_TX_BYTES n) = (s.counter (R.C_RLY_Pn_TX_BYTES n) + f.len) % 2 ^ 64 ∧
    SameCountersBut s (startNoted s n f) [R.C_RLY_Pn_TX_FRAMES n, R.C_RLY_Pn_TX_BYTES n] := by
  have hctr (a : Nat) : (s.charge f.dest f.len).counter a = s.counter a := by rw [charge_shapers]; rfl
  have hnoted (a : Nat) : (startNoted s n f).counter a =
    (((s.charge f.dest f.len).count (R.C_RLY_Pn_TX_FRAMES n)).count (R.C_RLY_Pn_TX_BYTES n) f.len).counter a := rfl
  have hne : R.C_RLY_Pn_TX_BYTES n ≠ R.C_RLY_Pn_TX_FRAMES n := by simp [R.C_RLY_Pn_TX_BYTES, R.C_RLY_Pn_TX_FRAMES]
  refine ⟨?_, ?_, fun a ha => ?_⟩
  · rw [hnoted, counter_count_ne _ _ hne.symm, counter_count_same, hctr]
  · rw [hnoted, counter_count_same, counter_count_ne _ _ hne, hctr]
  · rw [hnoted]
    exact sameCountersBut_count (sameCountersBut_count (fun b _ => hctr b) (by simp) 1) (by simp) f.len a ha

/-- The start of a frame without a cell is its note and its octets. -/
theorem startFrame_eq {s : State} {n : Nat} {f : EFrame} (hc : f.cell = noCell) (hu : s.isSet (R.TGC_CTRL_ENABLE n) = false)
    (hp : f.port = n) : s.startFrame n f = (startNoted s n f).sendFrame n f.cls f.len f.data := by
  have hs : (startNoted s n f).standsIn f = f.cls := by
    refine standsIn_ungated ?_ hp
    rw [startNoted_only]
    exact hu
  show ((startNoted s n f).sendFrame n ((startNoted s n f).standsIn f) f.len f.data).release f.cell = _
  rw [hs, hc, release_noCell]

/-- A port that is not in LOOPBACK sends to its line. -/
theorem sendFrame_line {s : State} {n : Nat} (h : s.isSet (R.RLY_PnCTL_LOOPBACK n) = false) (cls len : Nat) (data : List Byte) :
    s.sendFrame n cls len data = s.emit (.frame n cls len data) := by
  simp [State.sendFrame, h]

/-- A port in LOOPBACK hands the octets to its own receiver. -/
theorem sendFrame_loops {s : State} {n : Nat} (h : s.isSet (R.RLY_PnCTL_LOOPBACK n) = true) (cls len : Nat) (data : List Byte) :
    s.sendFrame n cls len data =
      { s with rly := { s.rly with looped := SMap.set [] s.rly.looped n (SMap.get [] s.rly.looped n ++ [data]) } } := by
  simp [State.sendFrame, h]

/-- The port's lone frame as it starts, before its octets leave. -/
def loneStarted (s : State) (n : Nat) (f : EFrame) : State := startNoted (headTaken s n f) n f

theorem loneStarted_only (s : State) (n : Nat) (f : EFrame) :
    loneStarted s n f = { s with ctr := (loneStarted s n f).ctr, egress := (loneStarted s n f).egress } := by
  unfold loneStarted
  rw [startNoted_only]
  rfl

theorem LoneFrame.starts {s : State} {p : Fin 8} {f : EFrame} (h : LoneFrame s p f) (hi : PortIdle s p) (hr : s.portRuns p = true)
    (ho : s.tooOld f = false) :
    exec (.egressPick p) s = .next ((loneStarted s p f).sendFrame p f.cls f.len f.data) := by
  rw [exec_egressPick_runs hi h hr, h.pickLoop_starts ho 1, startFrame_eq (s := headTaken s p f) h.noCell h.ungated h.onPort]
  rfl

theorem LoneFrame.loneStarted_queues {s : State} {n : Nat} {f : EFrame} (h : LoneFrame s n f) : (loneStarted s n f).egress.queues = [] :=
  (startNoted_queues _ n f).trans h.headTaken_queues

theorem loneStarted_isSet (s : State) (n : Nat) (f : EFrame) (r : Fld) : (loneStarted s n f).isSet r = s.isSet r := by
  rw [loneStarted_only]
  rfl

end Sys2Proof.Laws
end

section
/-! The statement of chapter 4 about the egress queues. -/

namespace Sys2Proof.Proofs

open Sys2Proof Sys2Proof.Machine Sys2Proof.Safety Sys2Proof.Laws

/-- ENQUEUE of a frame for which its queue has room. -/
theorem enqueue_joins {s : State} {p : Fin 8} {f : EFrame} {rest : List EFrame} (h : s.releasedOf p = f :: rest) (hc : f.cls < 8)
    (hl : frameBytes (s.classQueue f.dest f.cls) + f.len ≤ s.get R.EGS_DQ_LIMIT_BYTES) : Completes (exec (.enqueue p) s) fun t =>
      t.classQueue f.dest f.cls = s.classQueue f.dest f.cls ++ [f] ∧ t.releasedOf p = rest ∧
      (∀ d c, c < 8 → (d, c) ≠ (f.dest, f.cls) → t.classQueue d c = s.classQueue d c) ∧ t = { s with egress := t.egress } := by
  have hj := enqueueFrame_joins (s := s.setReleased p rest) hl
  exact ⟨_, (exec_enqueue h).trans (congrArg _ hj), classQueue_setClassQueue_same _ _ _ _, releasedOf_setReleased s p rest,
    fun d c h8 hne => classQueue_setClassQueue_ne _ _ hc h8 hne, rfl⟩

/-- ENQUEUE of a frame that would pass EGS_DQ_LIMIT. -/
theorem enqueue_drops {s : State} {p : Fin 8} {f : EFrame} {rest : List EFrame} (h : s.releasedOf p = f :: rest) (hn : f.cell = noCell)
    (hl : s.get R.EGS_DQ_LIMIT_BYTES < frameBytes (s.classQueue f.dest f.cls) + f.len) : Completes (exec (.enqueue p) s) fun t =>
      t.releasedOf p = rest ∧ t.egress.queues = s.egress.queues ∧ t = { s with egress := t.egress, ctr := t.ctr } ∧
      t.counter (R.C_EGS_Pn_TAIL_DROP f.port) = (s.counter (R.C_EGS_Pn_TAIL_DROP f.port) + 1) % 2 ^ 64 ∧
      SameCountersBut s t [R.C_EGS_Pn_TAIL_DROP f.port] := by
  have hd := enqueueFrame_drops (s := s.setReleased p rest) hn hl
  obtain ⟨-, hcount, hsame⟩ := count_only (s.setReleased p rest) (R.C_EGS_Pn_TAIL_DROP f.port) 1
  exact ⟨_, (exec_enqueue h).trans (congrArg _ hd), releasedOf_setReleased s p rest, rfl, rfl, hcount, hsame⟩

/-- EGRESS_PICK of a frame that a running port in LOOPBACK starts. -/
theorem egressPick_loops {s : State} {p : Fin 8} {f : EFrame} (h : LoneFrame s p f) (hi : PortIdle s p) (hr : s.portRuns p = true)
    (ho : s.tooOld f = false) (hb : s.isSet (R.RLY_PnCTL_LOOPBACK p) = true) : Completes (exec (.egressPick p) s) fun t =>
      t.out = s.out ∧ t.egress.queues = [] ∧ SMap.get [] t.rly.looped p = SMap.get [] s.rly.looped p ++ [f.data] ∧ t.mem = s.mem ∧
      t.counter (R.C_RLY_Pn_TX_FRAMES p) = (s.counter (R.C_RLY_Pn_TX_FRAMES p) + 1) % 2 ^ 64 := by
  have hf := loneStarted_only s p f
  have hl : (loneStarted s p f).rly.looped = s.rly.looped := by rw [hf]
  have hs := sendFrame_loops ((loneStarted_isSet s p f _).trans hb) f.cls f.len f.data
  refine ⟨_, (h.starts hi hr ho).trans (congrArg _ hs), ?_, h.loneStarted_queues, ?_, ?_, (startNoted_counts (headTaken s p f) p f).1⟩
  · show (loneStarted s p f).out = s.out
    rw [hf]
  · exact (get_set_same _ _ _ _).trans (by rw [hl])
  · show (loneStarted s p f).mem = s.mem
    rw [hf]

/-- EGRESS_PICK of a frame that a running port sends. -/
theorem egressPick_sends {s : State} {p : Fin 8} {f : EFrame} (h : LoneFrame s p f) (hi : PortIdle s p) (hr : s.portRuns p = true)
    (ho : s.tooOld f = false) (hb : s.isSet (R.RLY_PnCTL_LOOPBACK p) = false) : Completes (exec (.egressPick p) s) fun t =>
      t.out = .frame p f.cls f.len f.data :: s.out ∧ t.egress.queues = [] ∧ t.mem = s.mem ∧ t.regs = s.regs ∧
      SMap.get 0 t.egress.busy p = s.cycle + ceilDiv (s.charged f.len * 12) s.portRate ∧
      t.counter (R.C_RLY_Pn_TX_FRAMES p) = (s.counter (R.C_RLY_Pn_TX_FRAMES p) + 1) % 2 ^ 64 ∧
      t.counter (R.C_RLY_Pn_TX_BYTES p) = (s.counter (R.C_RLY_Pn_TX_BYTES p) + f.len) % 2 ^ 64 ∧
      SameCountersBut s t [R.C_RLY_Pn_TX_FRAMES p, R.C_RLY_Pn_TX_BYTES p] := by
  have hf := loneStarted_only s p f
  have hs := sendFrame_line ((loneStarted_isSet s p f _).trans hb) f.cls f.len f.data
  refine ⟨_, (h.starts hi hr ho).trans (congrArg _ hs), ?_, h.loneStarted_queues, ?_, ?_, startNoted_busy (headTaken s p f) p f,
    startNoted_counts (headTaken s p f) p f⟩
  · show _ :: (loneStarted s p f).out = _
    rw [hf]
  · show (loneStarted s p f).mem = s.mem
    rw [hf]
  · show (loneStarted s p f).regs = s.regs
    rw [hf]

/-- Settles O18: a released frame joins its queue or is dropped, and the only frame of a port is sent, looped, or dropped by its age or with
the port. -/
theorem egressQueuesSendInOrder : Obligations.EgressQueuesSendInOrder := by
  refine ⟨fun s p f rest h hn hc => ⟨enqueue_joins h hc, enqueue_drops h hn⟩,
    fun s p f he hb hq hp hc _ hn _ hu => ?pick, fun s p h => ⟨s, exec_egressPick_waits h, rfl⟩⟩
  case pick =>
    have hl : LoneFrame s p f := ⟨hq, hp, hc, hn, hu⟩
    have hi : PortIdle s p := ⟨he, hb⟩
    refine ⟨egressPick_loops hl hi, egressPick_sends hl hi, fun hr ho => ?tooOld, fun hr => ?stopped⟩
    case tooOld =>
      obtain ⟨-, hcount, hsame⟩ := count_only (headTaken s p f) (R.C_EGS_Pn_AGE_DROP p) 1
      exact ⟨_, (exec_egressPick_runs hi hl hr).trans (congrArg _ (hl.pickLoop_drops ho 0)), rfl, hl.headTaken_queues, rfl, rfl, hcount,
        hsame⟩
    case stopped =>
      obtain ⟨-, hcount, hsame⟩ := count_only (s.setClassQueue f.dest f.cls []) (R.C_RLY_Pn_TX_DISCARD p) 1
      refine ⟨_, exec_egressPick_stopped hi hl hr, rfl, ?_, rfl, rfl, hcount, hsame⟩
      simp [State.setClassQueue, hq, SMap.set, SMap.erase]

end Sys2Proof.Proofs
end

section
/-! SUPPORT. The time base (R152 to R161, R167): steps and slews of device time, the PPS ball, and the event messages that a port sends. -/

namespace Sys2Proof.Laws

open Sys2Proof Sys2Proof.Machine Sys2Proof.Safety

/-! ### What an entry of the log leaves (R592) -/

/-- An entry of the log changes registers, counters, the log, what vectors wait and what leaves the device. -/
theorem log_only (s : State) (unit inst sev event p0 p1 : Nat) : s.log unit inst sev event p0 p1 =
    { s with regs := (s.log unit inst sev event p0 p1).regs, ctr := (s.log unit inst sev event p0 p1).ctr,
             sql := (s.log unit inst sev event p0 p1).sql, fns := (s.log unit inst sev event p0 p1).fns,
             out := (s.log unit inst sev event p0 p1).out } := by
  have h : { s.log unit inst sev event p0 p1 with regs := s.regs, ctr := s.ctr, sql := s.sql, fns := s.fns, out := s.out } = s :=
    log_leaves (fun t => { t with regs := s.regs, ctr := s.ctr, sql := s.sql, fns := s.fns, out := s.out }) s unit inst sev event
    p0 p1 rfl (fun e => by dsimp only [State.writeEntry]; split <;> rfl) (fun t => by rw [devEvent_frame]) fun t => rfl
  generalize s.log unit inst sev event p0 p1 = t at h ⊢
  rw [← h]

theorem log_time (s : State) (unit inst sev event p0 p1 : Nat) : (s.log unit inst sev event p0 p1).time = s.time := by rw [log_only]

theorem log_egress (s : State) (unit inst sev event p0 p1 : Nat) : (s.log unit inst sev event p0 p1).egress = s.egress := by rw [log_only]

/-- A field below Squall's registers is left. -/
theorem log_get_below (s : State) (unit inst sev event p0 p1 : Nat) {f : Fld} (h : f.addr < 0xF00000) :
    (s.log unit inst sev event p0 p1).get f = s.get f := by
  rw [State.get, log_reg _ _ _ _ _ _ _ _ (by simp only [R.SQL_SUPPRESSED_COUNT]; omega) (by simp only [R.SQL_STATUS_WRAPPED]; omega)
    (by simp only [R.SQL_ALERT_CAUSE_FATAL]; omega), State.get]

/-! ### Updates of the time base -/

/-- The state `t` is `s` with registers and the time base changed. -/
def TimeOnly (s t : State) : Prop := t = { s with regs := t.regs, time := t.time }

theorem TimeOnly.refl (s : State) : TimeOnly s s := rfl

theorem TimeOnly.trans {s t u : State} (h : TimeOnly s t) (k : TimeOnly t u) : TimeOnly s u := by
  unfold TimeOnly at h k ⊢
  rw [k, h]

theorem TimeOnly.put {s t : State} (h : TimeOnly s t) (f : Fld) (v : Nat) : TimeOnly s (t.put f v) := by
  unfold TimeOnly at h ⊢
  rw [h]; rfl

theorem TimeOnly.setReg {s t : State} (h : TimeOnly s t) (a : Nat) (w : Word) : TimeOnly s (t.setReg a w) := by
  unfold TimeOnly at h ⊢
  rw [h]; rfl

/-- The state with another time base. -/
def withTime (s : State) (x : TimeBase) : State := { s with time := x }

theorem TimeOnly.withTime {s t : State} (h : TimeOnly s t) (x : TimeBase) : TimeOnly s (withTime t x) := by
  unfold TimeOnly at h ⊢
  rw [h]; rfl

/-! ### Steps of device time (R154, R155) -/

/-- A step touches the gates of ports and nothing else of the state with the new time. -/
theorem gatesAfterStep_only (l : List Nat) (s : State) :
    l.foldl State.gatesAfterStep s = { s with gates := (l.foldl State.gatesAfterStep s).gates } := by
  refine List.foldlRecOn (motive := fun t : State => t = { s with gates := t.gates }) l _ rfl fun t ht n _ => ?_
  unfold State.gatesAfterStep
  dsimp only
  split
  · exact congrArg (fun u : State => u.setGate n _) ht
  · exact ht

theorem gatesAfterStep_get (l : List Nat) (s : State) (f : Fld) : (l.foldl State.gatesAfterStep s).get f = s.get f := by
  rw [gatesAfterStep_only]
  rfl

/-- A step of device time before the gates take note of it: the new time, the epoch and the entry of the log. -/
def timeStepped (s : State) (ns frac : Nat) : State :=
  let sec := ns / 1000000000 % 2 ^ 48
  let pps := if ns % 1000000000 = 0 then s.time.ppsSec else sec
  let t := (withTime s { s.time with sec := sec, ns := ns % 1000000000, frac := frac, ppsSec := pps }).put R.TIM_STATUS_EPOCH
    (s.get R.TIM_STATUS_EPOCH + 1)
  t.log Unit.tim 0 Sev.note Ev.timeStep s.time64 t.time64

theorem applyStep_eq (s : State) (ns frac : Nat) :
    s.applyStep ns frac = (List.range 8).foldl State.gatesAfterStep (timeStepped s ns frac) := rfl

/-- A step sets the time and raises the epoch. -/
theorem applyStep_shows (s : State) (ns frac : Nat) :
    (s.applyStep ns frac).time.sec = ns / 1000000000 % 2 ^ 48 ∧ (s.applyStep ns frac).time.ns = ns % 1000000000 ∧
    (s.applyStep ns frac).time.frac = frac ∧ (s.applyStep ns frac).get R.TIM_STATUS_EPOCH = (s.get R.TIM_STATUS_EPOCH + 1) % 4 ∧
    (s.applyStep ns frac).mem = s.mem := by
  have he : (timeStepped s ns frac).get R.TIM_STATUS_EPOCH = (s.get R.TIM_STATUS_EPOCH + 1) % 4 := by
    rw [timeStepped, log_get_below _ _ _ _ _ _ _ (by decide), get_put_same _ _ _ (by decide)]
    rfl
  have ht : (s.applyStep ns frac).time = (timeStepped s ns frac).time := by rw [applyStep_eq, gatesAfterStep_only]
  refine ⟨?_, ?_, ?_, ?_, ?_⟩
  · simp only [ht, timeStepped, log_time, put_time, withTime]
  · simp only [ht, timeStepped, log_time, put_time, withTime]
  · simp only [ht, timeStepped, log_time, put_time, withTime]
  · rw [applyStep_eq, gatesAfterStep_get, he]
  · rw [applyStep_eq, gatesAfterStep_only]
    simp only [timeStepped, log_mem, put_mem, withTime]

/-- A refused step is shown and logged; time and epoch stay. -/
theorem refuseStep_shows (s : State) (requested cmd : Nat) :
    (s.refuseStep requested cmd).time = s.time ∧ (s.refuseStep requested cmd).isSet R.TIM_STATUS_STEP_REFUSED = true ∧
    (s.refuseStep requested cmd).get R.TIM_STATUS_EPOCH = s.get R.TIM_STATUS_EPOCH := by
  refine ⟨log_time _ _ _ _ _ _ _, ?_, ?_⟩
  · rw [State.refuseStep, State.isSet, log_get_below _ _ _ _ _ _ _ (by decide)]
    exact isSet_putBit_same s R.TIM_STATUS_STEP_REFUSED true (by decide) rfl
  · rw [State.refuseStep, log_get_below _ _ _ _ _ _ _ (by decide)]
    exact get_put_apart s _ _ _ (by decide) (.inr (by decide))

/-- The seconds that TIM_STEP_SEC holds. -/
def stepSeconds (s : State) : Nat := s.get R.TIM_STEP_SEC_LO_SEC + s.get R.TIM_STEP_SEC_HI_SEC * 2 ^ 32

theorem stepSeconds_lt (s : State) : stepSeconds s < 2 ^ 48 := by
  have hl : s.get R.TIM_STEP_SEC_LO_SEC < 2 ^ 32 := get_lt s _
  have hh : s.get R.TIM_STEP_SEC_HI_SEC < 2 ^ 16 := get_lt s _
  unfold stepSeconds
  omega

theorem stepAbsolute_applies {s : State} (ha : s.stepAllowed = true) (hn : s.get R.TIM_STEP_NS_VALUE < 1000000000) :
    s.stepAbsolute = s.applyStep (stepSeconds s * 1000000000 + s.get R.TIM_STEP_NS_VALUE) 0 := by
  have hw : s.get R.TIM_STEP_NS_VALUE % 2 ^ 30 = s.get R.TIM_STEP_NS_VALUE := Nat.mod_eq_of_lt (by omega)
  have hl : ¬ 999999999 < s.get R.TIM_STEP_NS_VALUE := by omega
  simp only [State.stepAbsolute, hw, ha, hl, stepSeconds, Bool.not_true, Bool.false_or, decide_false, Bool.false_eq_true, if_false]

theorem stepAbsolute_refuses {s : State} (ha : s.stepAllowed = false) :
    s.stepAbsolute = s.refuseStep (stepSeconds s * 1000000000 + s.get R.TIM_STEP_NS_VALUE % 2 ^ 30) 1 := by
  simp [State.stepAbsolute, ha, stepSeconds]

/-- The time that an offset leads to, below 0 where it is before the epoch. -/
def offsetTime (s : State) : Int := (s.time.sec * 1000000000 + s.time.ns : Nat) + signed 32 (s.get R.TIM_STEP_NS_VALUE)

theorem stepOffset_applies {s : State} {n : Nat} (ha : s.stepAllowed = true) (hn : offsetTime s = n) :
    s.stepOffset = s.applyStep n s.time.frac := by
  rw [offsetTime] at hn
  simp only [State.stepOffset, ha, hn, Bool.not_true, Bool.false_or, decide_eq_true_eq, Int.toNat_natCast]
  exact if_neg (by omega)

theorem stepOffset_refuses {s : State} (hn : offsetTime s < 0) :
    s.stepOffset = s.refuseStep (unsigned 64 (signed 32 (s.get R.TIM_STEP_NS_VALUE))) 2 := by
  rw [offsetTime] at hn
  simp only [State.stepOffset, hn, decide_true, Bool.or_true, if_true]

theorem exec_stepAbsolute {s : State} {who : Sender} (h : Serves s who R.TIM_STEP_CMD_CMD.addr) :
    exec (.stepAbsolute who) s = .next s.stepAbsolute := by
  simp only [exec, execStepAbsolute, access_served h]

theorem exec_stepOffset {s : State} {who : Sender} (h : Serves s who R.TIM_STEP_CMD_CMD.addr) :
    exec (.stepOffset who) s = .next s.stepOffset := by
  simp only [exec, execStepOffset, access_served h]

/-! ### Slews (R153) -/

/-- A word's signed value. -/
theorem signed_toNat (v : Word) : signed 32 v.toNat = v.toInt := by
  rw [signed, Nat.mod_eq_of_lt v.isLt, BitVec.toInt_eq_toNat_cond]
  split <;> split <;> omega

/-- A word written to TIM_SLEW is the slew. -/
theorem slew_put (s : State) (v : Nat) : (s.put R.TIM_SLEW_PPB v).slew = signed 32 v := by
  rw [State.slew, get_put_same _ _ _ (by decide), signed, signed]
  simp only [R.TIM_SLEW_PPB, Nat.mod_mod]

/-- The state with a slew of `v` stored in the place of one out of range, which is shown. -/
def slewClamped (s : State) (v : Nat) : State := (s.put R.TIM_SLEW_PPB v).putBit R.TIM_STATUS_SLEW_CLAMPED true

theorem slewClamped_shows (s : State) (v : Nat) :
    (slewClamped s v).slew = signed 32 v ∧ (slewClamped s v).isSet R.TIM_STATUS_SLEW_CLAMPED = true ∧
    slewClamped s v = { s with regs := (slewClamped s v).regs } := by
  refine ⟨?_, isSet_putBit_same _ R.TIM_STATUS_SLEW_CLAMPED true (by decide) rfl, ?_⟩
  · rw [← slew_put s v]
    exact congrArg (signed 32) (get_put_ne _ _ _ _ (by decide))
  · exact (((RegsWithin.refl 0x500008 0x500020 s).put _ _ (by decide)).put _ _ (by decide)).1

theorem writeSlew_below {s : State} {v : Nat} (h : signed 32 v < -200000) : s.writeSlew v = slewClamped s (unsigned 32 (-200000)) :=
  if_pos h

theorem writeSlew_above {s : State} {v : Nat} (h : 200000 < signed 32 v) : s.writeSlew v = slewClamped s 200000 :=
  (if_neg (by omega)).trans (if_pos h)

theorem writeSlew_within {s : State} {v : Nat} (hl : -200000 ≤ signed 32 v) (hh : signed 32 v ≤ 200000) :
    s.writeSlew v = s.put R.TIM_SLEW_PPB v :=
  (if_neg (by omega)).trans (if_neg (by omega))

theorem exec_timSlewWrite {s : State} {who : Sender} (h : Serves s who R.TIM_SLEW_PPB.addr) (v : Word) :
    exec (.timSlewWrite who v) s = .next (s.writeSlew v.toNat) := by
  simp only [exec, execTimSlewWrite, access_served h]

/-! ### The read of device time (R158) -/

theorem exec_timNsRead {s : State} {who : Sender} (h : Serves s who R.TIM_NS_NS.addr) :
    exec (.timNsRead who) s = .next (s.showTime.emit (.readDone who R.TIM_NS_NS.addr s.time.ns)) := by
  simp only [exec, execTimNsRead, accessRead_served h]

/-- The seconds of device time are shown in their two words. -/
theorem showTime_seconds (s : State) : s.showTime.get R.TIM_SEC_LO_SEC = s.time.sec % 2 ^ 32 ∧
    s.showTime.get R.TIM_SEC_HI_SEC = s.time.sec / 2 ^ 32 % 2 ^ 16 := by
  refine ⟨?_, get_put_same _ _ _ (by decide)⟩
  rw [State.showTime, get_put_ne _ _ _ _ (by decide)]
  exact get_put_same _ _ _ (by decide)

/-- It is shown in registers. -/
theorem showTime_only (s : State) : s.showTime = { s with regs := s.showTime.regs } :=
  ((((RegsWithin.refl 0x500010 0x50001C s).put _ _ (by decide)).put _ _ (by decide)).put _ _ (by decide)).1

/-! ### The PPS ball (R157, R612) -/

theorem ppsTurning_putBit (s : State) (f : Fld) (b : Bool) : (s.putBit f b).ppsTurning = s.ppsTurning := rfl

/-- The capture of device time at an edge. -/
def edgeCaptured (s : State) : State :=
  (withTime (s.put R.TIM_PPS_CAPT_NS s.time.ns) { s.time with captSec := s.time.sec }).putBit R.TIM_STATUS_PPS_SEEN true

/-- An edge is seen at the ball, and captured unless the ball is an output or turned within 100 ns. -/
theorem exec_ppsEdge (s : State) : exec .ppsEdge s =
    if (s.putBit R.FUS_PAD_IN_PPS true).isSet R.TIM_CTRL_PPS_DIR || (s.putBit R.FUS_PAD_IN_PPS true).ppsTurning then
      .next (s.putBit R.FUS_PAD_IN_PPS true)
    else .next (edgeCaptured (s.putBit R.FUS_PAD_IN_PPS true)) := rfl

/-- The level of the ball does not say which way it turns. -/
theorem ppsDir_putPad (s : State) : (s.putBit R.FUS_PAD_IN_PPS true).isSet R.TIM_CTRL_PPS_DIR = s.isSet R.TIM_CTRL_PPS_DIR :=
  isSet_put_apart s _ _ _ (by decide) (.inl (by decide))

theorem exec_ppsEdge_unseen {s : State} (h : s.isSet R.TIM_CTRL_PPS_DIR = true ∨ s.ppsTurning = true) :
    exec .ppsEdge s = .next (s.putBit R.FUS_PAD_IN_PPS true) := by
  rw [exec_ppsEdge, ppsDir_putPad, ppsTurning_putBit, if_pos (Bool.or_eq_true_iff.2 h)]

theorem exec_ppsEdge_captures {s : State} (hd : s.isSet R.TIM_CTRL_PPS_DIR = false) (ht : s.ppsTurning = false) :
    exec .ppsEdge s = .next (edgeCaptured (s.putBit R.FUS_PAD_IN_PPS true)) := by
  rw [exec_ppsEdge, ppsDir_putPad, ppsTurning_putBit, hd, ht]
  rfl

/-- What is captured, and that an edge was seen. -/
theorem edgeCaptured_shows (s : State) :
    (edgeCaptured s).get R.TIM_PPS_CAPT_NS = s.time.ns % 2 ^ 30 ∧ (edgeCaptured s).time = { s.time with captSec := s.time.sec } ∧
    (edgeCaptured s).isSet R.TIM_STATUS_PPS_SEEN = true ∧ TimeOnly s (edgeCaptured s) := by
  refine ⟨?_, rfl, isSet_putBit_same _ R.TIM_STATUS_PPS_SEEN true (by decide) rfl, (((TimeOnly.refl s).put _ _).withTime _).put _ _⟩
  rw [edgeCaptured, State.putBit, get_put_ne _ _ _ _ (by decide)]
  exact get_put_same s R.TIM_PPS_CAPT_NS _ (by decide)

/-- The direction is judged by when it last changed. -/
theorem ppsTurning_iff (s : State) : s.ppsTurning = true ↔ ∃ c, s.time.dirAt = some c ∧ s.cycle ≤ c + 150 := by
  unfold State.ppsTurning
  cases s.time.dirAt <;> simp

theorem exec_ppsOutRise_high {s : State} (hd : s.isSet R.TIM_CTRL_PPS_DIR = true) (hs : s.time.sec ≠ s.time.ppsSec) {c : Nat}
    (hh : s.time.ppsHigh = some c) : exec .ppsOutRise s = .next { s with time := { s.time with ppsSec := s.time.sec } } := by
  simp [exec, execPpsOutRise, hd, hs, hh]

theorem exec_ppsOutRise_rises {s : State} (hd : s.isSet R.TIM_CTRL_PPS_DIR = true) (hs : s.time.sec ≠ s.time.ppsSec)
    (hh : s.time.ppsHigh = none) : exec .ppsOutRise s =
      .next { s with time := { s.time with ppsSec := s.time.sec, ppsHigh := some s.cycle }, out := .pin pinPps true :: s.out } := by
  simp [exec, execPpsOutRise, hd, hs, hh, State.emit]

theorem exec_ppsOutFall {s : State} {c : Nat} (hh : s.time.ppsHigh = some c)
    (hw : c + s.get R.TIM_CTRL_PPS_WIDTH * msCycles ≤ s.cycle) :
    exec .ppsOutFall s = .next { s with time := { s.time with ppsHigh := none }, out := .pin pinPps false :: s.out } := by
  simp [exec, execPpsOutFall, hh, State.passed, hw, State.emit]

/-! ### Event messages (R160, R161) -/

theorem natToOs_length (n v : Nat) : (natToOs n v).length = n := by
  induction n generalizing v with
  | zero => rfl
  | succ n ih => simp [natToOs, ih]

/-- A message's type, domain and number replace octets of the frame. -/
theorem ptpMessage_length {f : List Byte} {m : Nat} (h : m + 32 ≤ f.length) (ty : BitVec 4) (dom : Byte) (sq : BitVec 16) :
    (ptpMessage f m ty dom sq).length = f.length := by
  have h1 : (patch f m [f.getD m 0 &&& 0xF0 ||| ty.setWidth 8]).length = f.length := patch_length (by simp; omega)
  have h2 : (patch (patch f m [f.getD m 0 &&& 0xF0 ||| ty.setWidth 8]) (m + 4) [dom]).length = f.length :=
    (patch_length (by rw [h1]; simp; omega)).trans h1
  exact (patch_length (by rw [h2, natToOs_length]; omega)).trans h2

theorem ptpAt_ethernet {f : List Byte} (h : be f 12 2 = 0x88F7) : ptpAt f = some (14, none) := by simp [ptpAt, h]

theorem ptpAt_ipv4 {f : List Byte} (h : be f 12 2 = 0x0800) : ptpAt f = some (42, some (34, false)) := by simp [ptpAt, h]

/-- A port that does not run sends no event message. -/
theorem exec_ptpEventTx_stopped {s : State} {p : Fin 8} (h : s.portRuns p = false) (o : Bool) (f : List Byte) (ty : BitVec 4) (dom : Byte)
    (sq : BitVec 16) : exec (.ptpEventTx p o f ty dom sq) s = .next s := by
  simp only [exec, execPtpEventTx]
  split
  · rfl
  · simp [h]

/-- The frame `f`, with its message at `m` and its UDP header at `udp`, is an event message of type `ty` that port `p` sends to its line. -/
structure EventSent (s : State) (p : Nat) (f : List Byte) (m : Nat) (udp : Option (Nat × Bool)) (ty : BitVec 4) : Prop where
  message : ptpAt f = some (m, udp)
  event : ty.toNat < 4
  whole : m + 44 ≤ f.length
  runs : s.portRuns p = true
  line : s.isSet (R.RLY_PnCTL_LOOPBACK p) = false

/-- A one-step Sync leaves with the present time as its origin timestamp. -/
theorem EventSent.exec_oneStep {s : State} {p : Fin 8} {f : List Byte} {m : Nat} {udp : Option (Nat × Bool)} {ty : BitVec 4}
    (h : EventSent s p f m udp ty) (h0 : ty.toNat = 0) (dom : Byte) (sq : BitVec 16) : exec (.ptpEventTx p true f ty dom sq) s =
      .next (s.emit (.frame p 0 ((ptpMessage f m ty dom sq).length + 4)
        (ptpChecksum (patch (ptpMessage f m ty dom sq) (m + 34) (natToOs 6 s.time.sec ++ natToOs 4 s.time.ns)) udp))) := by
  have hl := ptpMessage_length (f := f) (m := m) (by have := h.whole; omega) ty dom sq
  have hw : ¬ f.length < m + 44 := Nat.not_lt.2 h.whole
  simp [exec, execPtpEventTx, h.message, h.runs, h0, hl, hw, sendFrame_line h.line]

/-- The state after the octets of an event message have left. -/
def eventLeft (s : State) (n : Nat) (g : List Byte) : State := s.emit (.frame n 0 (g.length + 4) g)

/-- The transmit time of an event message that leaves now. -/
def txTime (s : State) (n : Nat) : Nat := shiftNs (s.time.sec * 1000000000 + s.time.ns) (signed 16 (s.get (R.TIM_Pn_TX_LAT_NS n)))

/-- What a port's FIFO holds of an event message's transmit time. -/
def txStamp (s : State) (n : Nat) (ty : BitVec 4) (dom : Byte) (sq : BitVec 16) : TxTs :=
  ⟨txTime s n % 1000000000, txTime s n / 1000000000 % 2 ^ 48, sq.toNat, dom.toNat, ty.toNat⟩

/-- Any other event message leaves, and its transmit time is kept, or counted as lost where 64 wait. -/
theorem EventSent.exec_twoStep {s : State} {p : Fin 8} {f : List Byte} {m : Nat} {udp : Option (Nat × Bool)} {ty : BitVec 4}
    (h : EventSent s p f m udp ty) {o : Bool} (ho : o = false ∨ ty ≠ 0) (dom : Byte) (sq : BitVec 16) :
    exec (.ptpEventTx p o f ty dom sq) s =
      .next (if 64 ≤ (s.txtsOf p).length then (eventLeft s p (ptpMessage f m ty dom sq)).bump (R.TIM_Pn_TXTS_OVF_COUNT p)
        else (eventLeft s p (ptpMessage f m ty dom sq)).setTxts p (s.txtsOf p ++ [txStamp s p ty dom sq])) := by
  have hl := ptpMessage_length (f := f) (m := m) (by have := h.whole; omega) ty dom sq
  have hw : ¬ f.length < m + 44 := Nat.not_lt.2 h.whole
  have he : ¬ 4 ≤ ty.toNat := Nat.not_le.2 h.event
  have hone : (o && decide (ty.toNat = 0)) = false := by
    obtain rfl | hty := ho
    · rfl
    · simp [show ty.toNat ≠ 0 from fun h0 => hty (BitVec.eq_of_toNat_eq h0)]
  have hleft : s.sendFrame p 0 (f.length + 4) (ptpMessage f m ty dom sq) = eventLeft s p (ptpMessage f m ty dom sq) := by
    rw [sendFrame_line h.line, eventLeft, hl]
  have hwait : (eventLeft s p (ptpMessage f m ty dom sq)).txtsOf p = s.txtsOf p := rfl
  simp only [exec, execPtpEventTx, h.message, h.runs, hleft, hwait, hl, hw, he, hone, Bool.not_true, decide_false, Bool.or_self,
    Bool.false_eq_true, if_false]
  by_cases h64 : 64 ≤ (s.txtsOf p).length
  · rw [if_pos h64, if_pos h64]
  · rw [if_neg h64, if_neg h64]
    rfl

/-! ### The FIFO of transmit times (R161, R167) -/

/-- A FIFO that is stored shows its head in registers and changes nothing else. -/
theorem setTxts_only (s : State) (n : Nat) (l : List TxTs) : TimeOnly s (s.setTxts n l) := by
  have h := (TimeOnly.refl s).withTime { s.time with txts := SMap.set [] s.time.txts n l }
  cases l with
  | nil => exact h.setReg _ _
  | cons e l => exact ((((h.put _ _).put _ _).put _ _).put _ _).put _ _

@[simp] theorem txtsOf_setTxts (s : State) (n : Nat) (l : List TxTs) : (s.setTxts n l).txtsOf n = l := by
  have h : (s.setTxts n l).time = { s.time with txts := SMap.set [] s.time.txts n l } := by cases l <;> simp [State.setTxts]
  rw [State.txtsOf, h]
  exact get_set_same _ _ _ _

/-- The registers of an empty FIFO show no valid entry. -/
theorem setTxts_empty_valid (s : State) (n : Nat) : (s.setTxts n []).isSet (R.TIM_Pn_TXTS_ID_VALID n) = false := by
  have hr : (s.setTxts n []).reg (R.TIM_Pn_TXTS_ID_VALID n).addr = 0 := reg_setReg_same _ _ _
  rw [State.isSet, State.get, hr]
  rfl

/-- A transmit time is kept modulo 2^48 seconds. -/
theorem txStamp_time (s : State) (n : Nat) (ty : BitVec 4) (dom : Byte) (sq : BitVec 16) :
    (txStamp s n ty dom sq).sec * 1000000000 + (txStamp s n ty dom sq).ns = txTime s n % (2 ^ 48 * 1000000000) := by
  rw [Nat.mul_comm (2 ^ 48), Nat.mod_mul, txStamp, Nat.add_comm, Nat.mul_comm]

theorem txTime_undelayed {s : State} {n : Nat} (h : s.get (R.TIM_Pn_TX_LAT_NS n) = 0) :
    txTime s n = s.time.sec * 1000000000 + s.time.ns := by
  have h0 : signed 16 0 = 0 := rfl
  rw [txTime, h, h0, shiftNs, Int.add_zero, Int.toNat_natCast]

theorem exec_txtsPop {s : State} {who : Sender} {p : Fin 8} (h : Serves s who (R.TIM_Pn_TXTS_ID_VALID p).addr) :
    exec (.txtsPop who p) s = .next ((s.setTxts p (s.txtsOf p).tail).emit
      (.readDone who (R.TIM_Pn_TXTS_ID_VALID p).addr (s.reg (R.TIM_Pn_TXTS_ID_VALID p).addr).toNat)) := by
  simp only [exec, execTxtsPop, accessRead_served h]

end Sys2Proof.Laws
end

section
/-! The statement of chapter 4 about device time. -/

namespace Sys2Proof.Proofs

open Sys2Proof Sys2Proof.Machine Sys2Proof.Safety Sys2Proof.Laws

/-- STEP_ABSOLUTE to a time in TIM_STEP. -/
theorem stepAbsolute_sets {s : State} {who : Sender} (h : Serves s who R.TIM_STEP_CMD_CMD.addr) (ha : s.stepAllowed = true)
    (hn : s.get R.TIM_STEP_NS_VALUE < 1000000000) : Completes (exec (.stepAbsolute who) s) fun t =>
      t.time.sec = s.get R.TIM_STEP_SEC_LO_SEC + s.get R.TIM_STEP_SEC_HI_SEC * 2 ^ 32 ∧ t.time.ns = s.get R.TIM_STEP_NS_VALUE ∧
      t.get R.TIM_STATUS_EPOCH = (s.get R.TIM_STATUS_EPOCH + 1) % 4 ∧ t.mem = s.mem := by
  obtain ⟨hsec, hns, -, hepoch, hmem⟩ := applyStep_shows s (stepSeconds s * 1000000000 + s.get R.TIM_STEP_NS_VALUE) 0
  have hlt := stepSeconds_lt s
  refine ⟨_, (exec_stepAbsolute h).trans (congrArg _ (stepAbsolute_applies ha hn)), hsec.trans ?_, hns.trans ?_, hepoch, hmem⟩
  · show _ = stepSeconds s
    omega
  · omega

/-- TIM_SLEW_WRITE inside the range and beyond either end. -/
theorem timSlewWrite_stores {s : State} {who : Sender} (h : Serves s who R.TIM_SLEW_PPB.addr) (v : Word) :
    Completes (exec (.timSlewWrite who v) s) fun t =>
      t.slew = max (-200000) (min 200000 v.toInt) ∧ t = { s with regs := t.regs } ∧
      (v.toInt < -200000 ∨ 200000 < v.toInt → t.isSet R.TIM_STATUS_SLEW_CLAMPED = true) ∧
      (-200000 ≤ v.toInt → v.toInt ≤ 200000 → SameRegsBut s t [R.TIM_SLEW_PPB.addr]) := by
  have hx := exec_timSlewWrite h v
  have hv := signed_toNat v
  by_cases hlo : v.toInt < -200000
  · obtain ⟨hs, hc, hr⟩ := slewClamped_shows s (unsigned 32 (-200000))
    have h32 : signed 32 (unsigned 32 (-200000)) = -200000 := by decide
    exact ⟨_, hx.trans (congrArg _ (writeSlew_below (hv ▸ hlo))), by omega, hr, fun _ => hc, fun _ _ => by omega⟩
  · by_cases hhi : 200000 < v.toInt
    · obtain ⟨hs, hc, hr⟩ := slewClamped_shows s 200000
      have h32 : signed 32 200000 = 200000 := by decide
      exact ⟨_, hx.trans (congrArg _ (writeSlew_above (hv ▸ hhi))), by omega, hr, fun _ => hc, fun _ _ => by omega⟩
    · have hs := (slew_put s v.toNat).trans hv
      exact ⟨_, hx.trans (congrArg _ (writeSlew_within (by omega) (by omega))), by omega, rfl, fun _ => by omega,
        fun _ _ a ha => reg_put_ne s _ _ (by simpa using ha)⟩

/-- PPS_EDGE while the ball is an input. -/
theorem ppsEdge_captures {s : State} (hd : s.isSet R.TIM_CTRL_PPS_DIR = false) (ht : s.ppsTurning = false) :
    Completes (exec .ppsEdge s) fun t =>
      t.get R.TIM_PPS_CAPT_NS = s.time.ns % 2 ^ 30 ∧ t.time = { s.time with captSec := s.time.sec } ∧
      t.isSet R.TIM_STATUS_PPS_SEEN = true ∧ t = { s with regs := t.regs, time := t.time } := by
  obtain ⟨hcapt, htime, hseen, honly⟩ := edgeCaptured_shows (s.putBit R.FUS_PAD_IN_PPS true)
  rw [putBit_time] at hcapt htime
  exact ⟨_, exec_ppsEdge_captures hd ht, hcapt, htime, hseen, ((TimeOnly.refl s).put _ _).trans honly⟩

/-- PTP_EVENT_TX of a message whose transmit time is kept. -/
theorem ptpEventTx_keeps {s : State} {p : Fin 8} {f : List Byte} {m : Nat} {udp : Option (Nat × Bool)} {ty : BitVec 4}
    (h : EventSent s p f m udp ty) {o : Bool} (ho : o = false ∨ ty ≠ 0) (dom : Byte) (sq : BitVec 16) (hl : (s.txtsOf p).length < 64)
    (h0 : s.get (R.TIM_Pn_TX_LAT_NS p) = 0) : Completes (exec (.ptpEventTx p o f ty dom sq) s) fun t =>
      ∃ e, t.txtsOf p = s.txtsOf p ++ [e] ∧
        e.sec * 1000000000 + e.ns = (s.time.sec * 1000000000 + s.time.ns) % (2 ^ 48 * 1000000000) ∧ e.seqId = sq.toNat ∧
        e.msg = ty.toNat ∧ e.domain = dom.toNat ∧
        t.out = .frame p 0 ((ptpMessage f m ty dom sq).length + 4) (ptpMessage f m ty dom sq) :: s.out ∧ t.mem = s.mem ∧ t.ctr = s.ctr := by
  have hx := h.exec_twoStep ho dom sq
  rw [if_neg (Nat.not_le.2 hl)] at hx
  refine ⟨_, hx, txStamp s p ty dom sq, txtsOf_setTxts _ _ _, ?_, rfl, rfl, rfl, ?_⟩
  · rw [txStamp_time, txTime_undelayed h0]
  · rw [setTxts_only]
    exact ⟨rfl, rfl, rfl⟩

/-- PTP_EVENT_TX of a message whose transmit time is lost. -/
theorem ptpEventTx_counts {s : State} {p : Fin 8} {f : List Byte} {m : Nat} {udp : Option (Nat × Bool)} {ty : BitVec 4}
    (h : EventSent s p f m udp ty) {o : Bool} (ho : o = false ∨ ty ≠ 0) (dom : Byte) (sq : BitVec 16) (hl : 64 ≤ (s.txtsOf p).length) :
    Completes (exec (.ptpEventTx p o f ty dom sq) s) fun t =>
      t.txtsOf p = s.txtsOf p ∧
      t = { s with regs := t.regs, out := .frame p 0 ((ptpMessage f m ty dom sq).length + 4) (ptpMessage f m ty dom sq) :: s.out } ∧
      t.get (R.TIM_Pn_TXTS_OVF_COUNT p) = min (2 ^ 32 - 1) (s.get (R.TIM_Pn_TXTS_OVF_COUNT p) + 1) := by
  have hx := h.exec_twoStep ho dom sq
  rw [if_pos hl] at hx
  exact ⟨_, hx, rfl, rfl, get_bump_same _ _ _ (by simp [R.TIM_Pn_TXTS_OVF_COUNT])⟩

/-- Settles O21: each command of the time base, the two edges of the PPS ball, and an event message by its type and its port's FIFO. -/
theorem deviceTimeStepsSlewsAndStamps : Obligations.DeviceTimeStepsSlewsAndStamps := by
  refine ⟨fun s who h => ⟨stepAbsolute_sets h, fun ha => ?absoluteRefused, fun n ha hn => ?offset, fun hn => ?offsetRefused⟩,
    fun s who v h => timSlewWrite_stores h v, fun s who h => ?timeRead, fun s h => ?edgeUnseen, fun s hd ht => ?edgeSeen,
    fun s c hd hs hh => ⟨_, exec_ppsOutRise_high hd hs hh, rfl⟩, fun s hd hs hh => ⟨_, exec_ppsOutRise_rises hd hs hh, rfl⟩,
    fun s c hh hw => ⟨_, exec_ppsOutFall hh hw, rfl⟩,
    fun s p f g ty dom sq hg hf ht hl hb => ⟨fun hr o => ⟨s, exec_ptpEventTx_stopped hr o f ty dom sq, rfl⟩, fun hr h0 => ?oneStep,
      fun o hr ho => ?twoStep⟩,
    fun s p f g dom sq hg hf hl hb hr => ?oneStepUdp, fun s who p h => ?pop⟩
  case absoluteRefused => exact ⟨_, (exec_stepAbsolute h).trans (congrArg _ (stepAbsolute_refuses ha)), refuseStep_shows s _ _⟩
  case offset =>
    obtain ⟨hsec, hns, hfrac, hepoch, -⟩ := applyStep_shows s n s.time.frac
    exact ⟨_, (exec_stepOffset h).trans (congrArg _ (stepOffset_applies ha hn)), hsec, hns, hfrac, hepoch⟩
  case offsetRefused =>
    obtain ⟨htime, hshown, -⟩ := refuseStep_shows s (unsigned 64 (signed 32 (s.get R.TIM_STEP_NS_VALUE))) 2
    exact ⟨_, (exec_stepOffset h).trans (congrArg _ (stepOffset_refuses hn)), htime, hshown⟩
  case timeRead =>
    obtain ⟨hlo, hhi⟩ := showTime_seconds s
    refine ⟨_, exec_timNsRead h, ?_, ?_, ?_, ?_⟩
    · rw [showTime_only]
      rfl
    · rw [emit_get_read, hlo]
    · rw [emit_get_read, hhi]
    · rw [showTime_only]
      rfl
  case edgeUnseen =>
    exact ⟨_, exec_ppsEdge_unseen (h.imp_right (ppsTurning_iff s).2), setsOnly_put s R.FUS_PAD_IN_PPS (bnat true) (by decide)⟩
  case edgeSeen =>
    refine ppsEdge_captures hd (Bool.eq_false_iff.2 fun hturn => ?_)
    obtain ⟨c, hc, hle⟩ := (ppsTurning_iff s).1 hturn
    exact absurd (ht c hc) (by omega)
  case oneStep =>
    subst hg h0
    exact ⟨_, EventSent.exec_oneStep ⟨ptpAt_ethernet hf, ht, hl, hr, hb⟩ rfl dom sq, rfl⟩
  case twoStep =>
    subst hg
    have he : EventSent s p f 14 none ty := ⟨ptpAt_ethernet hf, ht, hl, hr, hb⟩
    exact ⟨ptpEventTx_keeps he ho dom sq, ptpEventTx_counts he ho dom sq⟩
  case oneStepUdp =>
    subst hg
    exact ⟨_, EventSent.exec_oneStep ⟨ptpAt_ipv4 hf, by decide, hl, hr, hb⟩ rfl dom sq, rfl⟩
  case pop =>
    refine ⟨_, exec_txtsPop h, txtsOf_setTxts _ _ _, ?_, fun he => ?_⟩
    · rw [setTxts_only]
      rfl
    · rw [he]
      exact setTxts_empty_valid s p

end Sys2Proof.Proofs
end

section
/-! SUPPORT. The reset values of a range of registers (R19), read off the rows of the register tables that reach into it. -/

namespace Sys2Proof.Laws

open Sys2Proof Sys2Proof.Machine Sys2Proof.Safety

/-- The registers of a row lie outside the addresses from `lo` below `hi`, or are 0 after reset. -/
def rowClears (lo hi : Nat) (b : RegBlock) (r : RegRow) : Bool :=
  r.rst == .lit 0 || b.base + b.count * b.stride + r.off + r.c1 * r.s1 < lo || hi ≤ b.base + r.off

theorem arrayIndex_bound {o c s i z : Nat} (h : arrayIndex o c s = some (i, z)) (hs : s ≠ 0) : o < c * s := by
  unfold arrayIndex at h
  rw [if_neg hs] at h
  split at h
  · next hc => exact (Nat.div_lt_iff_lt_mul (Nat.pos_of_ne_zero hs)).1 hc
  · cases h

/-- A row lies between its offset and the end of its outer array. -/
theorem rowFind_bounds {r : RegRow} {o : Nat} {ij : Nat × Nat} (h : r.find o = some ij) : r.off ≤ o ∧ o ≤ r.off + r.c1 * r.s1 := by
  unfold RegRow.find at h
  split at h
  · cases h
  · next hlo =>
    split at h
    · split at h
      · omega
      · cases h
    · next hs =>
      split at h
      · cases h
      · next i rest ha =>
        have := arrayIndex_bound ha hs
        omega

/-- An address lies at its offset in one of the copies of its block. -/
theorem blockFind_bounds {b : RegBlock} {a n o : Nat} (h : b.find a = some (n, o)) :
    b.base + o ≤ a ∧ a ≤ b.base + b.count * b.stride + o := by
  unfold RegBlock.find at h
  split at h
  · cases h
  · split at h
    · cases h
      omega
    · split at h
      · next hs hn =>
        cases h
        have hd := Nat.div_add_mod (a - b.base) b.stride
        have hm : (a - b.base) / b.stride * b.stride ≤ b.count * b.stride := Nat.mul_le_mul_right _ hn.le
        rw [Nat.mul_comm] at hm
        omega
      · cases h

/-- A field that lies in the range has a row that reaches into it. -/
theorem fieldsAt_clear {lo hi a : Nat} (ha : lo ≤ a ∧ a < hi) (h : ∀ b ∈ R.blocks, ∀ r ∈ b.rows, rowClears lo hi b r = true)
    {f : FieldAt} (hf : f ∈ fieldsAt a) : f.row.rst = .lit 0 := by
  obtain ⟨b, hb, hf⟩ := List.mem_flatMap.1 hf
  unfold RegBlock.fieldsAt at hf
  split at hf
  · cases hf
  · next n o hfind =>
    obtain ⟨r, hr, hmap⟩ := List.mem_filterMap.1 hf
    obtain ⟨ij, hij, rfl⟩ := Option.map_eq_some_iff.1 hmap
    have hrow := rowFind_bounds hij
    have hblk := blockFind_bounds hfind
    have hclear := h b hb r hr
    simp only [rowClears, Bool.or_eq_true, beq_iff_eq, decide_eq_true_eq] at hclear
    obtain (hzero | hbelow) | habove := hclear
    · exact hzero
    · omega
    · omega

/-- A register of the range is 0 after reset. -/
theorem resetWord_clear {lo hi a : Nat} (ha : lo ≤ a ∧ a < hi) (h : ∀ b ∈ R.blocks, ∀ r ∈ b.rows, rowClears lo hi b r = true) :
    resetWord a = 0 := by
  have hsum : (fieldsAt a).foldl (fun w f => w + (f.row.rst.at f.index % 2 ^ f.row.width) * 2 ^ f.row.lsb) 0 = 0 := by
    refine List.foldlRecOn (motive := fun w : Nat => w = 0) _ _ rfl fun w hw f hf => ?_
    rw [hw, fieldsAt_clear ha h hf]
    simp [Rst.at]
  rw [resetWord, hsum]
  rfl

/-- The histograms are 0 after reset. -/
theorem histogram_rows_clear : ∀ b ∈ R.blocks, ∀ r ∈ b.rows, rowClears 0x408000 0x40A000 b r = true := by decide +kernel

end Sys2Proof.Laws
end

section
/-! SUPPORT. Shapers, policers and samples of the egress queues (R135 to R145, R164): what an indirect access stores or shows, and what a sample
and a clear make of the histograms. -/

namespace Sys2Proof.Laws

open Sys2Proof Sys2Proof.Machine Sys2Proof.Safety

/-! ### Shapers (R135, R138) -/

@[simp] theorem shaper_setShaper_same (s : State) (d : Nat) (h : Shaper) : (s.setShaper d h).shaper d = h := get_set_same _ _ _ _

theorem shaper_setShaper_ne (s : State) {d e : Nat} (h : Shaper) (hne : e ≠ d) : (s.setShaper d h).shaper e = s.shaper e :=
  get_set_ne _ _ _ _ hne

@[simp] theorem policer_setPolicer_same (s : State) (n : Nat) (p : Policer) : (s.setPolicer n p).policer n = p := get_set_same _ _ _ _

/-- A shaper's credit grows; its settings stay. -/
theorem refill_settings (h : Shaper) (most u : Nat) :
    (h.refill most u).rate = h.rate ∧ (h.refill most u).en = h.en ∧ (h.refill most u).policy = h.policy ∧
    (h.refill most u).burst = h.burst := by
  unfold Shaper.refill
  split <;> exact ⟨rfl, rfl, rfl, rfl⟩

theorem shaperNow_settings (s : State) (d : Nat) :
    (s.shaperNow d).rate = (s.shaper d).rate ∧ (s.shaperNow d).en = (s.shaper d).en ∧ (s.shaperNow d).policy = (s.shaper d).policy ∧
    (s.shaperNow d).burst = (s.shaper d).burst := refill_settings _ _ _

/-- A written shaper holds no more than its burst. -/
theorem shaperWrite_capped (h : Shaper) (rate : Nat) (en : Bool) (policy burst : Nat) :
    (h.write rate en policy burst).level ≤ (burst : Int) * levelUnit := min_le_right _ _

/-- With policy 2 a changed rate forgives an enabled shaper's debt. -/
theorem shaperWrite_forgives {h : Shaper} (he : h.en = true) (hl : h.level < 0) {rate : Nat} (hr : rate ≠ h.rate) (en : Bool)
    (burst : Nat) : (h.write rate en 2 burst).level = 0 := by
  have hdebt : debtLevel h.level 2 h.rate rate = 0 := by simp [debtLevel, hr, Int.not_le.2 hl]
  have hcap : (0 : Int) ≤ (burst : Int) * levelUnit := Int.mul_nonneg (Int.natCast_nonneg _) (by decide)
  simp [Shaper.write, he, hdebt, hcap]

/-! ### Indirect access (R139, R164) -/

theorem exec_indRead {s : State} {who : Sender} (h : Serves s who R.EGS_IND_CMD_READ.addr) :
    exec (.indRead who) s = .next s.indReadOp := by
  simp only [exec, execIndRead, access_served h]

theorem exec_indWrite {s : State} {who : Sender} (h : Serves s who R.EGS_IND_CMD_READ.addr) :
    exec (.indWrite who) s = .next (s.indWriteOp 2) := by
  simp only [exec, execIndWrite, access_served h]

theorem indReadOp_bad {s : State} (h : s.indBad = true) : s.indReadOp = s.putBit R.EGS_IND_STAT_BAD_INDEX true := if_pos h

theorem indWriteOp_bad {s : State} (h : s.indBad = true) (w : Nat) : s.indWriteOp w = s.putBit R.EGS_IND_STAT_BAD_INDEX true :=
  if_pos h

/-- The shaper that EGS_IND_SEL selects. -/
def selectedShaper (s : State) : Nat := shaperDest (s.get R.EGS_IND_SEL_TARGET) (s.get R.EGS_IND_SEL_INDEX)

/-- The word `i` of EGS_IND_DATA. -/
def indData (s : State) (i : Nat) : Word := s.reg (R.EGS_IND_DATA_DATA i).addr

/-- A shaper whose policy and burst are legal is stored. -/
theorem indWriteOp_shaper {s : State} (hb : s.indBad = false) (ht : s.get R.EGS_IND_SEL_TARGET ≤ 1) (hp : (indData s 0).field 27 2 ≠ 3)
    (hlo : 64 ≤ (indData s 1).field 0 25) (hhi : (indData s 1).field 0 25 ≤ 16777216) (w : Nat) :
    s.indWriteOp w = s.setShaper (selectedShaper s) ((s.shaperNow (selectedShaper s)).write ((indData s 0).field 0 26)
      ((indData s 0).field 26 1 == 1) ((indData s 0).field 27 2) ((indData s 1).field 0 25)) := by
  have h2 : s.get R.EGS_IND_SEL_TARGET ≠ 2 := by omega
  unfold indData at *
  simp only [State.indWriteOp, hb, h2, hp, Nat.not_lt.2 hlo, Nat.not_lt.2 hhi, decide_false, Bool.or_self, Bool.false_eq_true, if_false]
  rfl

/-- A shaper of policy 3 is refused. -/
theorem indWriteOp_shaper_refused {s : State} (hb : s.indBad = false) (ht : s.get R.EGS_IND_SEL_TARGET ≤ 1)
    (hp : (indData s 0).field 27 2 = 3) (w : Nat) : s.indWriteOp w = s.egsIgnored w := by
  have h2 : s.get R.EGS_IND_SEL_TARGET ≠ 2 := by omega
  unfold indData at hp
  simp only [State.indWriteOp, hb, h2, hp, decide_true, Bool.true_or, Bool.false_eq_true, if_false, if_true]

/-- The policer with the fields of EGS_IND_DATA that is written over `p`, filled up to the present, its buckets full when it is enabled. -/
def policerWritten (s : State) (p : Policer) : Policer :=
  let en := (indData s 0).field 26 1 == 1
  let cbs := (indData s 2).field 0 24
  let pbs := (indData s 3).field 0 24
  let full := en && !p.en
  ⟨(indData s 0).field 0 26, en, (indData s 0).field 27 1 == 1, (indData s 1).field 0 26, cbs, pbs,
    if full then cbs * 1500000 else min p.tc (cbs * 1500000), if full then pbs * 1500000 else min p.tp (pbs * 1500000), s.cycle⟩

/-- A policer with depths above 0 whose peak rate is not below its committed one is stored. -/
theorem indWriteOp_policer {s : State} (hb : s.indBad = false) (ht : s.get R.EGS_IND_SEL_TARGET = 2) (hc : 0 < (indData s 2).field 0 24)
    (hp : 0 < (indData s 3).field 0 24) (hr : (indData s 0).field 0 26 ≤ (indData s 1).field 0 26) (w : Nat) :
    s.indWriteOp w = s.setPolicer (s.get R.EGS_IND_SEL_INDEX)
      (policerWritten s ((s.policer (s.get R.EGS_IND_SEL_INDEX)).refill s.cycle)) := by
  unfold indData at *
  simp only [State.indWriteOp, hb, ht, hc.ne', hp.ne', Nat.not_lt.2 hr, decide_false, Bool.or_self, Bool.false_eq_true, if_false, if_true]
  rfl

/-- A policer with a peak rate below its committed one is refused. -/
theorem indWriteOp_policer_refused {s : State} (hb : s.indBad = false) (ht : s.get R.EGS_IND_SEL_TARGET = 2)
    (hr : (indData s 1).field 0 26 < (indData s 0).field 0 26) (w : Nat) : s.indWriteOp w = s.egsIgnored w := by
  unfold indData at hr
  simp only [State.indWriteOp, hb, ht, hr, decide_true, Bool.or_true, Bool.false_eq_true, if_false, if_true]

/-- A refused value changes nothing of the scheduler, and is shown. -/
theorem egsIgnored_shows (s : State) (w : Nat) :
    (s.egsIgnored w).egress = s.egress ∧ (s.egsIgnored w).isSet R.EGS_STATUS_CFG_IGNORED = true := by
  refine ⟨log_egress _ _ _ _ _ _ _, ?_⟩
  rw [State.egsIgnored, State.isSet, log_get_below _ _ _ _ _ _ _ (by decide)]
  exact isSet_putBit_same s R.EGS_STATUS_CFG_IGNORED true (by decide) rfl

/-- The words of EGS_IND_DATA. -/
def indShown (s : State) (a b c d : Nat) : State :=
  (((s.put (R.EGS_IND_DATA_DATA 0) a).put (R.EGS_IND_DATA_DATA 1) b).put (R.EGS_IND_DATA_DATA 2) c).put (R.EGS_IND_DATA_DATA 3) d

theorem indShown_only (s : State) (a b c d : Nat) : indShown s a b c d = { s with regs := (indShown s a b c d).regs } :=
  (((((RegsWithin.refl 0x400030 0x400040 s).put _ _ (by decide)).put _ _ (by decide)).put _ _ (by decide)).put _ _ (by decide)).1

/-- A word of EGS_IND_DATA is a whole register. -/
theorem get_put_indData (s : State) (i v : Nat) : (s.put (R.EGS_IND_DATA_DATA i) v).get (R.EGS_IND_DATA_DATA i) = v % 2 ^ 32 :=
  get_put_same s _ _ (Nat.le_of_ble_eq_true rfl)

theorem get_put_indData_ne (s : State) {i j : Nat} (v : Nat) (h : j ≠ i) :
    (s.put (R.EGS_IND_DATA_DATA i) v).get (R.EGS_IND_DATA_DATA j) = s.get (R.EGS_IND_DATA_DATA j) :=
  get_put_ne _ _ _ _ (by simp only [R.EGS_IND_DATA_DATA]; omega)

theorem indShown_first (s : State) (a b c d : Nat) : (indShown s a b c d).get (R.EGS_IND_DATA_DATA 0) = a % 2 ^ 32 := by
  rw [indShown, get_put_indData_ne _ _ (by decide), get_put_indData_ne _ _ (by decide), get_put_indData_ne _ _ (by decide),
    get_put_indData]

theorem indShown_second (s : State) (a b c d : Nat) : (indShown s a b c d).get (R.EGS_IND_DATA_DATA 1) = b % 2 ^ 32 := by
  rw [indShown, get_put_indData_ne _ _ (by decide), get_put_indData_ne _ _ (by decide), get_put_indData]

/-- What the words show of a shaper. -/
def shaperShown (s : State) (d : Nat) : State :=
  indShown s ((s.shaperNow d).rate + bnat (s.shaperNow d).en * 2 ^ 26 + (s.shaperNow d).policy * 2 ^ 27) (s.shaperNow d).burst
    (unsigned 32 ((s.shaperNow d).level / levelUnit)) (min 65535 (s.framesQueued d))

theorem indReadOp_shaper {s : State} (hb : s.indBad = false) (ht : s.get R.EGS_IND_SEL_TARGET ≤ 1) :
    s.indReadOp = shaperShown s (selectedShaper s) := by
  have h2 : s.get R.EGS_IND_SEL_TARGET ≠ 2 := by omega
  simp only [State.indReadOp, hb, h2, Bool.false_eq_true, if_false]
  rfl

/-- A register that holds a number below 2^32 has its fields where that number has them. -/
theorem field_of_get_word {s : State} {i v : Nat} (h : s.get (R.EGS_IND_DATA_DATA i) = v) (l n : Nat) :
    (s.reg (R.EGS_IND_DATA_DATA i).addr).field l n = v / 2 ^ l % 2 ^ n := by
  have hw : (s.reg (R.EGS_IND_DATA_DATA i).addr).toNat = v := by
    rw [← h, State.get, field_eq]
    simp only [R.EGS_IND_DATA_DATA, pow_zero, Nat.div_one]
    exact (Nat.mod_eq_of_lt (BitVec.isLt _)).symm
  rw [field_eq, hw]

/-- Rate and policy read back, where they fit their fields. -/
theorem shaperShown_fields {s : State} {d : Nat} (hr : (s.shaper d).rate < 2 ^ 26) (hp : (s.shaper d).policy < 3) :
    ((shaperShown s d).reg (R.EGS_IND_DATA_DATA 0).addr).field 0 26 = (s.shaper d).rate ∧
    ((shaperShown s d).reg (R.EGS_IND_DATA_DATA 0).addr).field 27 2 = (s.shaper d).policy ∧
    (shaperShown s d).get (R.EGS_IND_DATA_DATA 1) = (s.shaper d).burst % 2 ^ 32 := by
  obtain ⟨hrate, -, hpolicy, hburst⟩ := shaperNow_settings s d
  have he : bnat (s.shaperNow d).en < 2 := by cases (s.shaperNow d).en <;> decide
  rw [← hrate] at hr ⊢
  rw [← hpolicy] at hp ⊢
  rw [← hburst]
  have hw := indShown_first s ((s.shaperNow d).rate + bnat (s.shaperNow d).en * 2 ^ 26 + (s.shaperNow d).policy * 2 ^ 27)
    (s.shaperNow d).burst (unsigned 32 ((s.shaperNow d).level / levelUnit)) (min 65535 (s.framesQueued d))
  refine ⟨(field_of_get_word hw 0 26).trans ?_, (field_of_get_word hw 27 2).trans ?_, indShown_second s _ _ _ _⟩
  · omega
  · omega

/-! ### Passes over the members of an array -/

/-- A pass over different members in which only `c` touches the registers `A` leaves them as that member's turn does. -/
theorem foldl_turn {f : State → Nat → State} {A : Nat → Prop} {c : Nat} (l : List Nat) (hd : l.Nodup) (hc : c ∈ l)
    (ho : ∀ t, ∀ e ∈ l, e ≠ c → ∀ a, A a → (f t e).reg a = t.reg a) (s : State) :
    ∃ u, (∀ a, A a → u.reg a = s.reg a) ∧ ∀ a, A a → (l.foldl f s).reg a = (f u c).reg a := by
  induction l generalizing s with
  | nil => cases hc
  | cons e l ih =>
    obtain ⟨hnot, hd⟩ := List.nodup_cons.1 hd
    have hrest (t : State) (d : Nat) (hdl : d ∈ l) := ho t d (List.mem_cons_of_mem e hdl)
    by_cases he : e = c
    · subst he
      refine ⟨s, fun _ _ => rfl, fun a ha => ?_⟩
      exact List.foldlRecOn (motive := fun u : State => u.reg a = (f s e).reg a) l f rfl fun u hu d hdl =>
        (hrest u d hdl (ne_of_mem_of_not_mem hdl hnot) a ha).trans hu
    · obtain ⟨u, hu, hl⟩ := ih hd ((List.mem_cons.1 hc).resolve_left (Ne.symm he)) hrest (f s e)
      exact ⟨u, fun a ha => (hu a ha).trans (ho s e (List.mem_cons_self ..) he a ha), hl⟩

/-- Registers that are the same have the same fields. -/
theorem get_of_reg {s t : State} {f : Fld} (h : s.reg f.addr = t.reg f.addr) : s.get f = t.get f :=
  congrArg (fun w : Word => w.field f.lsb f.width) h

/-- What lies inside a narrower range lies inside a wider one, and updates within follow one another. -/
theorem RegsWithin.andThen {lo hi lo' hi' : Nat} {s t u : State} (h : RegsWithin lo hi s t) (k : RegsWithin lo' hi' t u)
    (hlo : lo ≤ lo') (hhi : hi' ≤ hi) : RegsWithin lo hi s u := by
  obtain ⟨hs, hr⟩ := h
  obtain ⟨ks, kr⟩ := k
  refine ⟨?_, fun a ha => (kr a (by omega)).trans (hr a ha)⟩
  rw [ks, hs]

/-! ### Samples (R144, R145) -/

theorem histBin_le (u v : Nat) : histBin u v ≤ 15 := by
  unfold histBin
  split <;> omega

/-- The histogram counts of a class lie in a range of their own. -/
theorem histDepth_addr (i : Nat) {b : Nat} (h : b ≤ 15) :
    0x408000 + i * 0x80 ≤ (R.EGS_HIST_DEPTH_COUNT i b).addr ∧ (R.EGS_HIST_DEPTH_COUNT i b).addr < 0x408040 + i * 0x80 := by
  simp only [R.EGS_HIST_DEPTH_COUNT]
  omega

theorem histDelay_addr (i : Nat) {b : Nat} (h : b ≤ 15) :
    0x408040 + i * 0x80 ≤ (R.EGS_HIST_DELAY_COUNT i b).addr ∧ (R.EGS_HIST_DELAY_COUNT i b).addr < 0x408080 + i * 0x80 := by
  simp only [R.EGS_HIST_DELAY_COUNT]
  omega

theorem depth_addr (n c : Nat) : (R.EGS_Pn_Cc_DEPTH_BYTES n c).addr = 0x401080 + n * 0x100 + c * 0x8 := rfl

theorem delay_addr (n c : Nat) : (R.EGS_Pn_Cc_DELAY_NS n c).addr = 0x401084 + n * 0x100 + c * 0x8 := rfl

/-- A depth and a delay shown for a class of a port. -/
def sampleShown (t : State) (n c depth delay : Nat) : State :=
  (t.put (R.EGS_Pn_Cc_DEPTH_BYTES n c) depth).put (R.EGS_Pn_Cc_DELAY_NS n c) delay

/-- A depth and a delay counted in the histograms of a class of a port. -/
def sampleCounted (t : State) (n c depth delay : Nat) : State :=
  (t.bump (R.EGS_HIST_DEPTH_COUNT (n * 8 + c) (histBin 256 depth))).bump (R.EGS_HIST_DELAY_COUNT (n * 8 + c) (histBin 50 delay))

theorem sampleShown_within (t : State) (n c depth delay : Nat) :
    RegsWithin (0x401080 + n * 0x100 + c * 0x8) (0x401088 + n * 0x100 + c * 0x8) t (sampleShown t n c depth delay) :=
  ((RegsWithin.refl _ _ t).put _ _ (by rw [depth_addr]; omega)).put _ _ (by rw [delay_addr]; omega)

theorem sampleCounted_within (t : State) (n c depth delay : Nat) :
    RegsWithin (0x408000 + (n * 8 + c) * 0x80) (0x408080 + (n * 8 + c) * 0x80) t (sampleCounted t n c depth delay) := by
  have hd := histDepth_addr (n * 8 + c) (histBin_le 256 depth)
  have hl := histDelay_addr (n * 8 + c) (histBin_le 50 delay)
  exact ((RegsWithin.refl _ _ t).put _ _ (by omega)).put _ _ (by omega)

/-- What is shown reads back. -/
theorem sampleShown_get (t : State) (n c depth delay : Nat) :
    (sampleShown t n c depth delay).get (R.EGS_Pn_Cc_DEPTH_BYTES n c) = depth % 2 ^ 32 ∧
    (sampleShown t n c depth delay).get (R.EGS_Pn_Cc_DELAY_NS n c) = delay % 2 ^ 32 := by
  refine ⟨?_, get_put_same _ _ _ (Nat.le_of_ble_eq_true rfl)⟩
  rw [sampleShown, get_put_ne _ _ _ _ (by rw [depth_addr, delay_addr]; omega)]
  exact get_put_same _ _ _ (Nat.le_of_ble_eq_true rfl)

/-- The bins of depth and delay rise by one each, staying at the highest value. -/
theorem sampleCounted_get (t : State) (n c depth delay : Nat) :
    (sampleCounted t n c depth delay).get (R.EGS_HIST_DEPTH_COUNT (n * 8 + c) (histBin 256 depth)) =
      min (2 ^ 32 - 1) (t.get (R.EGS_HIST_DEPTH_COUNT (n * 8 + c) (histBin 256 depth)) + 1) ∧
    (sampleCounted t n c depth delay).get (R.EGS_HIST_DELAY_COUNT (n * 8 + c) (histBin 50 delay)) =
      min (2 ^ 32 - 1) (t.get (R.EGS_HIST_DELAY_COUNT (n * 8 + c) (histBin 50 delay)) + 1) := by
  have hd := histDepth_addr (n * 8 + c) (histBin_le 256 depth)
  have hl := histDelay_addr (n * 8 + c) (histBin_le 50 delay)
  refine ⟨?_, ?_⟩
  · rw [sampleCounted, State.bump, get_put_ne _ _ _ _ (by omega)]
    exact get_bump_same _ _ _ (Nat.le_of_ble_eq_true rfl)
  · refine (get_bump_same _ _ _ (Nat.le_of_ble_eq_true rfl)).trans ?_
    rw [State.bump, get_put_ne _ _ _ _ (by omega)]
    rfl

/-- With empty class queues every class samples a depth and a delay of 0. -/
theorem sampleClass_empty {s : State} (h : s.egress.queues = []) (n : Nat) (t : State) (c : Nat) :
    s.sampleClass n t c = sampleCounted (sampleShown t n c 0 0) n c 0 0 := by
  simp only [State.sampleClass, h]
  rfl

/-- The registers of a class of a port: what it shows, and its histograms. -/
def classRegs (n c a : Nat) : Prop :=
  (0x401080 + n * 0x100 + c * 0x8 ≤ a ∧ a < 0x401088 + n * 0x100 + c * 0x8) ∨
    (0x408000 + (n * 8 + c) * 0x80 ≤ a ∧ a < 0x408080 + (n * 8 + c) * 0x80)

/-- A sample of one class leaves the registers of another. -/
theorem emptySample_other {n c e : Nat} (_ : n < 8) (hc : c < 8) (he : e < 8) (hne : e ≠ c) (t : State) {a : Nat}
    (ha : classRegs n c a) : (sampleCounted (sampleShown t n e 0 0) n e 0 0).reg a = t.reg a := by
  unfold classRegs at ha
  exact ((sampleCounted_within _ n e 0 0).2 a (by omega)).trans ((sampleShown_within t n e 0 0).2 a (by omega))

/-- A sample of one class of empty queues: both depth and delay are 0, and counted in the first bins. -/
theorem emptySample_get {n c : Nat} (hn : n < 8) (hc : c < 8) (t : State) :
    let r := sampleCounted (sampleShown t n c 0 0) n c 0 0
    r.get (R.EGS_Pn_Cc_DEPTH_BYTES n c) = 0 ∧ r.get (R.EGS_Pn_Cc_DELAY_NS n c) = 0 ∧
    r.get (R.EGS_HIST_DEPTH_COUNT (n * 8 + c) 0) = min (2 ^ 32 - 1) (t.get (R.EGS_HIST_DEPTH_COUNT (n * 8 + c) 0) + 1) ∧
    r.get (R.EGS_HIST_DELAY_COUNT (n * 8 + c) 0) = min (2 ^ 32 - 1) (t.get (R.EGS_HIST_DELAY_COUNT (n * 8 + c) 0) + 1) := by
  have hw := sampleCounted_within (sampleShown t n c 0 0) n c 0 0
  have hs := sampleShown_within t n c 0 0
  obtain ⟨hdepth, hdelay⟩ := sampleShown_get t n c 0 0
  obtain ⟨hbinDepth, hbinDelay⟩ := sampleCounted_get (sampleShown t n c 0 0) n c 0 0
  have had := histDepth_addr (n * 8 + c) (b := 0) (by decide)
  have hal := histDelay_addr (n * 8 + c) (b := 0) (by decide)
  refine ⟨?_, ?_, ?_, ?_⟩
  · rw [hw.get (by rw [depth_addr]; omega), hdepth, Nat.zero_mod]
  · rw [hw.get (by rw [delay_addr]; omega), hdelay, Nat.zero_mod]
  · rw [← hs.get (by omega)]
    exact hbinDepth
  · rw [← hs.get (by omega)]
    exact hbinDelay

theorem histDepth_class (n c : Nat) : classRegs n c (R.EGS_HIST_DEPTH_COUNT (n * 8 + c) 0).addr := by
  have := histDepth_addr (n * 8 + c) (b := 0) (by decide)
  unfold classRegs
  omega

theorem histDelay_class (n c : Nat) : classRegs n c (R.EGS_HIST_DELAY_COUNT (n * 8 + c) 0).addr := by
  have := histDelay_addr (n * 8 + c) (b := 0) (by decide)
  unfold classRegs
  omega

/-- After a sample of a port with empty class queues each class shows 0, counted in the first bins. -/
theorem sampleEach_get {s : State} (h : s.egress.queues = []) {n c : Nat} (hn : n < 8) (hc : c < 8) (t : State) :
    let r := (List.range 8).foldl (s.sampleClass n) t
    r.get (R.EGS_Pn_Cc_DEPTH_BYTES n c) = 0 ∧ r.get (R.EGS_Pn_Cc_DELAY_NS n c) = 0 ∧
    r.get (R.EGS_HIST_DEPTH_COUNT (n * 8 + c) 0) = min (2 ^ 32 - 1) (t.get (R.EGS_HIST_DEPTH_COUNT (n * 8 + c) 0) + 1) ∧
    r.get (R.EGS_HIST_DELAY_COUNT (n * 8 + c) 0) = min (2 ^ 32 - 1) (t.get (R.EGS_HIST_DELAY_COUNT (n * 8 + c) 0) + 1) := by
  intro r
  have hother (u : State) (e : Nat) (he : e ∈ List.range 8) (hne : e ≠ c) (a : Nat) (ha : classRegs n c a) :
      (s.sampleClass n u e).reg a = u.reg a := by
    rw [sampleClass_empty h]
    exact emptySample_other hn hc (List.mem_range.1 he) hne u ha
  obtain ⟨u, hu, hr⟩ := foldl_turn (List.range 8) List.nodup_range (List.mem_range.2 hc) hother t
  rw [sampleClass_empty h] at hr
  obtain ⟨hdepth, hdelay, hbinDepth, hbinDelay⟩ := emptySample_get hn hc u
  have had := histDepth_class n c
  have hal := histDelay_class n c
  refine ⟨?_, ?_, ?_, ?_⟩
  · exact (get_of_reg (hr _ (.inl (by rw [depth_addr]; omega)))).trans hdepth
  · exact (get_of_reg (hr _ (.inl (by rw [delay_addr]; omega)))).trans hdelay
  · rw [get_of_reg (hr _ had), hbinDepth, get_of_reg (hu _ had)]
  · rw [get_of_reg (hr _ hal), hbinDelay, get_of_reg (hu _ hal)]

/-- A sample of a port with empty class queues touches registers of the egress block. -/
theorem sampleEach_within {s : State} (h : s.egress.queues = []) {n : Nat} (hn : n < 8) (t : State) :
    RegsWithin 0x401080 0x40A000 t ((List.range 8).foldl (s.sampleClass n) t) := by
  refine List.foldlRecOn _ _ (RegsWithin.refl _ _ t) fun u hu c hc => ?_
  have hc8 := List.mem_range.1 hc
  rw [sampleClass_empty h]
  exact (hu.andThen (sampleShown_within u n c 0 0) (by omega) (by omega)).andThen (sampleCounted_within _ n c 0 0) (by omega) (by omega)

/-- The state in which a sample of a port is noted. -/
def sampleNoted (s : State) (n : Nat) : State :=
  { s with egress := { s.egress with sampled := SMap.set 0 s.egress.sampled n s.cycle } }

theorem exec_depthSample_unnamed {s : State} {p : Fin 8} (h : s.portNamed p = false) : exec (.depthSample p) s = .next s := by
  simp [exec, execDepthSample, h]

theorem exec_depthSample {s : State} {p : Fin 8} (hn : s.portNamed p = true)
    (ht : SMap.get 0 s.egress.sampled p + 10 * usCycles ≤ s.cycle) :
    exec (.depthSample p) s = .next ((List.range 8).foldl ((sampleNoted s p).sampleClass p) (sampleNoted s p)) := by
  simp only [exec, execDepthSample, hn, State.passed, ht, decide_true, Bool.and_self, if_true]
  rfl

/-! ### The clear of the histograms (R145) -/

/-- Of a map without the keys that fail a test, those that pass it are found as before. -/
theorem find_filterKeys {α : Type} (m : SMap α) (p : Nat → Bool) (k : Nat) :
    SMap.find? (m.filter fun e => p e.1) k = if p k then SMap.find? m k else none := by
  induction m with
  | nil => simp
  | cons e m ih =>
    obtain ⟨j, v⟩ := e
    by_cases hj : p j = true
    · by_cases hjk : j = k
      · subst hjk
        simp [hj, find_cons]
      · simp [hj, find_cons, hjk, ih]
    · have hjk : p k = true → j ≠ k := fun hk he => hj (he ▸ hk)
      by_cases hk : p k = true
      · simp [hj, hk, find_cons, hjk hk, ih]
      · simp [hj, hk, ih]

/-- The histograms at their reset values. -/
def histogramsZeroed (s : State) : State := { s with regs := s.regs.filter fun e => e.1 < 0x00408000 || 0x0040A000 ≤ e.1 }

theorem histogramsZeroed_reg (s : State) (a : Nat) :
    (histogramsZeroed s).reg a = if a < 0x408000 ∨ 0x40A000 ≤ a then s.reg a else 0 := by
  have hf := find_filterKeys s.regs (fun a => a < 0x00408000 || 0x0040A000 ≤ a) a
  unfold histogramsZeroed State.reg SMap.get
  rw [hf]
  by_cases ha : a < 0x408000 ∨ 0x40A000 ≤ a
  · simp [ha]
  · rw [if_neg ha, if_neg (by simpa using ha)]
    exact resetWord_clear (by omega) histogram_rows_clear

theorem histogramsZeroed_within (s : State) : RegsWithin 0x408000 0x40A000 s (histogramsZeroed s) :=
  ⟨rfl, fun a ha => (histogramsZeroed_reg s a).trans (if_pos ha)⟩

/-- The latest sample of a class counted again. -/
def recounted (n : Nat) (t : State) (c : Nat) : State :=
  sampleCounted t n c (t.get (R.EGS_Pn_Cc_DEPTH_BYTES n c)) (t.get (R.EGS_Pn_Cc_DELAY_NS n c))

theorem resample_eq (t : State) (n : Nat) : t.resample n = (List.range 8).foldl (recounted n) t := rfl

/-- A port's samples are counted in the port's own histograms. -/
theorem resample_within (t : State) (n : Nat) : RegsWithin (0x408000 + n * 0x400) (0x408400 + n * 0x400) t (t.resample n) := by
  rw [resample_eq]
  refine List.foldlRecOn _ _ (RegsWithin.refl _ _ t) fun u hu c hc => ?_
  have hc8 := List.mem_range.1 hc
  exact hu.andThen (sampleCounted_within u n c _ _) (by omega) (by omega)

/-- A sample of depth 0 makes the first bin of an empty histogram 1. -/
theorem resample_first {t : State} {n c : Nat} (_ : n < 8) (hc : c < 8) (hd : t.get (R.EGS_Pn_Cc_DEPTH_BYTES n c) = 0)
    (h0 : t.get (R.EGS_HIST_DEPTH_COUNT (n * 8 + c) 0) = 0) : (t.resample n).get (R.EGS_HIST_DEPTH_COUNT (n * 8 + c) 0) = 1 := by
  have hother (u : State) (e : Nat) (he : e ∈ List.range 8) (hne : e ≠ c) (a : Nat) (ha : classRegs n c a) :
      (recounted n u e).reg a = u.reg a := by
    have he8 := List.mem_range.1 he
    unfold classRegs at ha
    exact (sampleCounted_within u n e _ _).2 a (by omega)
  obtain ⟨u, hu, hr⟩ := foldl_turn (List.range 8) List.nodup_range (List.mem_range.2 hc) hother t
  have had := histDepth_class n c
  have hdu : u.get (R.EGS_Pn_Cc_DEPTH_BYTES n c) = 0 := (get_of_reg (hu _ (.inl (by rw [depth_addr]; omega)))).trans hd
  have h0u : u.get (R.EGS_HIST_DEPTH_COUNT (n * 8 + c) 0) = 0 := (get_of_reg (hu _ had)).trans h0
  have hcount := (sampleCounted_get u n c 0 (u.get (R.EGS_Pn_Cc_DELAY_NS n c))).1
  rw [show histBin 256 0 = 0 from rfl, h0u] at hcount
  rw [resample_eq, get_of_reg (hr _ had), recounted, hdu, hcount]
  rfl

/-- The samples of this cycle are counted again. -/
def recountedNow (s t : State) (n : Nat) : State := if SMap.find? s.egress.sampled n = some s.cycle then t.resample n else t

theorem clearHistograms_eq (s : State) : s.clearHistograms = (List.range 8).foldl (recountedNow s) (histogramsZeroed s) := rfl

theorem recountedNow_within (s t : State) (n : Nat) :
    RegsWithin (0x408000 + n * 0x400) (0x408400 + n * 0x400) t (recountedNow s t n) := by
  unfold recountedNow
  split
  · exact resample_within t n
  · exact .refl _ _ t

/-- A clear touches the histograms alone. -/
theorem clearHistograms_within (s : State) : RegsWithin 0x408000 0x40A000 s s.clearHistograms := by
  rw [clearHistograms_eq]
  refine List.foldlRecOn _ _ (histogramsZeroed_within s) fun u hu n hn => ?_
  have hn8 := List.mem_range.1 hn
  exact hu.andThen (recountedNow_within s u n) (by omega) (by omega)

/-- The histograms of a port without a sample in this cycle are 0. -/
theorem clearHistograms_zero {s : State} {n : Nat} (hn : n < 8) (h : SMap.find? s.egress.sampled n ≠ some s.cycle) {a : Nat}
    (ha : 0x408000 + n * 0x400 ≤ a ∧ a < 0x408400 + n * 0x400) : s.clearHistograms.reg a = 0 := by
  have hzero : (histogramsZeroed s).reg a = 0 := (histogramsZeroed_reg s a).trans (if_neg (by omega))
  rw [clearHistograms_eq]
  refine List.foldlRecOn (motive := fun u : State => u.reg a = 0) _ _ hzero fun u hu m _ => ?_
  by_cases hm : m = n
  · subst hm
    rw [recountedNow, if_neg h]
    exact hu
  · exact ((recountedNow_within s u m).2 a (by omega)).trans hu

/-- A sample of depth 0 in this cycle is the first in its histogram. -/
theorem clearHistograms_first {s : State} {n c : Nat} (hn : n < 8) (hc : c < 8) (h : SMap.find? s.egress.sampled n = some s.cycle)
    (hd : s.get (R.EGS_Pn_Cc_DEPTH_BYTES n c) = 0) : s.clearHistograms.get (R.EGS_HIST_DEPTH_COUNT (n * 8 + c) 0) = 1 := by
  have hother (u : State) (e : Nat) (_ : e ∈ List.range 8) (hne : e ≠ n) (a : Nat)
      (ha : a < 0x408000 ∨ (0x408000 + n * 0x400 ≤ a ∧ a < 0x408400 + n * 0x400)) : (recountedNow s u e).reg a = u.reg a :=
    (recountedNow_within s u e).2 a (by omega)
  obtain ⟨u, hu, hr⟩ := foldl_turn (List.range 8) List.nodup_range (List.mem_range.2 hn) hother (histogramsZeroed s)
  have had := histDepth_addr (n * 8 + c) (b := 0) (by decide)
  have hda := depth_addr n c
  have hdu : u.get (R.EGS_Pn_Cc_DEPTH_BYTES n c) = 0 := by
    rw [get_of_reg (hu _ (.inl (by omega))), (histogramsZeroed_within s).get (.inl (by omega)), hd]
  have h0u : u.get (R.EGS_HIST_DEPTH_COUNT (n * 8 + c) 0) = 0 := by
    rw [get_of_reg (hu _ (.inr (by omega))), State.get, histogramsZeroed_reg, if_neg (by omega)]
    rfl
  rw [clearHistograms_eq, get_of_reg (hr _ (.inr (by omega))), recountedNow, if_pos h]
  exact resample_first hn hc hdu h0u

theorem exec_histClr {s : State} {who : Sender} (h : Serves s who R.EGS_CTRL_ENABLE.addr) :
    exec (.histClr who) s = .next s.clearHistograms := by
  simp only [exec, execHistClr, access_served h]

end Sys2Proof.Laws
end

section
/-! The statement of chapter 4 about shapers, policers and samples. -/

namespace Sys2Proof.Proofs

open Sys2Proof Sys2Proof.Machine Sys2Proof.Safety Sys2Proof.Laws

/-- IND_WRITE of a legal shaper. -/
theorem indWrite_storesShaper {s : State} {who : Sender} (h : Serves s who R.EGS_IND_CMD_READ.addr) (hb : s.indBad = false)
    (ht : s.get R.EGS_IND_SEL_TARGET ≤ 1) (hp : (indData s 0).field 27 2 ≠ 3) (hlo : 64 ≤ (indData s 1).field 0 25)
    (hhi : (indData s 1).field 0 25 ≤ 16777216) : Completes (exec (.indWrite who) s) fun t =>
      (t.shaper (selectedShaper s)).rate = (indData s 0).field 0 26 ∧
      (t.shaper (selectedShaper s)).en = ((indData s 0).field 26 1 == 1) ∧
      (t.shaper (selectedShaper s)).policy = (indData s 0).field 27 2 ∧
      (t.shaper (selectedShaper s)).burst = (indData s 1).field 0 25 ∧
      (t.shaper (selectedShaper s)).level ≤ ((t.shaper (selectedShaper s)).burst : Int) * levelUnit ∧
      ((s.shaper (selectedShaper s)).en = true → (s.shaperNow (selectedShaper s)).level < 0 → (t.shaper (selectedShaper s)).policy = 2 →
        (t.shaper (selectedShaper s)).rate ≠ (s.shaper (selectedShaper s)).rate → (t.shaper (selectedShaper s)).level = 0) ∧
      (∀ e, e ≠ selectedShaper s → t.shaper e = s.shaper e) ∧ t.egress.policers = s.egress.policers ∧ t = { s with egress := t.egress } := by
  obtain ⟨hrate, hen, -, -⟩ := shaperNow_settings s (selectedShaper s)
  refine ⟨_, (exec_indWrite h).trans (congrArg _ (indWriteOp_shaper hb ht hp hlo hhi 2)), ?_⟩
  beta_reduce
  rw [shaper_setShaper_same]
  refine ⟨rfl, rfl, rfl, rfl, shaperWrite_capped _ _ _ _ _, fun he hl h2 hr => ?_, fun e hne => shaper_setShaper_ne s _ hne, rfl, rfl⟩
  have h2' : (indData s 0).field 27 2 = 2 := h2
  rw [h2']
  exact shaperWrite_forgives (hen.trans he) hl (fun heq => hr (heq.trans hrate)) _ _

/-- Settles O19: an indirect write by its target and its fields, an indirect read, a sample of an empty port, and the clear of the
histograms. -/
theorem shapersAndPolicersAreWrittenWhole : Obligations.ShapersAndPolicersAreWrittenWhole := by
  refine ⟨fun s who d h hb hd => ?access, fun s who h hb => ?badIndex, fun s p hq ht => ⟨fun hn => ?unnamed, fun hn => ?sample⟩,
    fun s who h => ?clear⟩
  case access =>
    have hx := exec_indWrite h
    subst hd
    refine ⟨indWrite_storesShaper h hb, fun ht hc hp hr => ?policer, fun ht hp => ?shaperRefused, fun ht hr => ?policerRefused,
      fun ht hr hp => ?read⟩
    case policer =>
      refine ⟨_, hx.trans (congrArg _ (indWriteOp_policer hb ht hc hp hr 2)), ?_⟩
      beta_reduce
      rw [policer_setPolicer_same]
      exact ⟨rfl, rfl, rfl, rfl, rfl, rfl⟩
    case shaperRefused => exact ⟨_, hx.trans (congrArg _ (indWriteOp_shaper_refused hb ht hp 2)), egsIgnored_shows s 2⟩
    case policerRefused => exact ⟨_, hx.trans (congrArg _ (indWriteOp_policer_refused hb ht hr 2)), egsIgnored_shows s 2⟩
    case read =>
      obtain ⟨hrate, hpolicy, hburst⟩ := shaperShown_fields hr hp
      exact ⟨_, (exec_indRead h).trans (congrArg _ (indReadOp_shaper hb ht)), hrate, hpolicy, hburst, indShown_only s _ _ _ _⟩
  case badIndex =>
    have hs := setsOnly_put s R.EGS_IND_STAT_BAD_INDEX (bnat true) (by decide)
    exact ⟨⟨_, (exec_indWrite h).trans (congrArg _ (indWriteOp_bad hb 2)), hs⟩,
      ⟨_, (exec_indRead h).trans (congrArg _ (indReadOp_bad hb)), hs⟩⟩
  case unnamed => exact ⟨s, exec_depthSample_unnamed hn, rfl⟩
  case sample =>
    have hw := sampleEach_within (s := sampleNoted s p) hq p.isLt (sampleNoted s p)
    refine ⟨_, exec_depthSample hn ht, fun c => sampleEach_get (s := sampleNoted s p) hq p.isLt c.isLt (sampleNoted s p), ?_⟩
    rw [hw.1]
    exact ⟨get_set_same _ _ _ _, rfl, rfl⟩
  case clear =>
    obtain ⟨hs, hr⟩ := clearHistograms_within s
    refine ⟨_, exec_histClr h, fun i b hi => ?_, fun p c => clearHistograms_first p.isLt c.isLt, hr, hs⟩
    have hdepth := histDepth_addr i (b := b) (by omega)
    have hdelay := histDelay_addr i (b := b) (by omega)
    have hzero (a : Nat) (ha : 0x408000 + i * 0x80 ≤ a ∧ a < 0x408080 + i * 0x80) : s.clearHistograms.reg a = 0 :=
      clearHistograms_zero (by omega) hi (by omega)
    constructor
    · rw [State.get, hzero _ (by omega)]
      rfl
    · rw [State.get, hzero _ (by omega)]
      rfl

end Sys2Proof.Proofs
end

section
/-! SUPPORT. The Video Decode Engines (R171 to R193): what an engine's stores leave as it was, the fields of a context that a picture's end
writes, and what the start of a decode task, a strip and a picture's end come to. -/

namespace Sys2Proof.Laws

open Sys2Proof Sys2Proof.Machine Sys2Proof.Safety

/-! ### What an engine stores

`DecodeOnly` chains as `Keeps` does: from a state that differs from `s` in what an engine stores alone, the operation leads to one that does. -/

/-- The state `t` is `s` but for memory, what the streams' codecs know, free values taken and messages sent; no poison mark came. -/
structure DecodeOnly (s t : State) : Prop where
  frame : t = { s with mem := t.mem, poison := t.poison, freeCtr := t.freeCtr, codecs := t.codecs, out := t.out }
  unpoisoned : s.poison = [] → t.poison = []

section Stores

variable {s t u : State}

theorem DecodeOnly.refl (s : State) : DecodeOnly s s := ⟨rfl, id⟩

theorem DecodeOnly.trans (h : DecodeOnly s t) (k : DecodeOnly t u) : DecodeOnly s u := by
  refine ⟨?_, fun hp => k.unpoisoned (h.unpoisoned hp)⟩
  rw [k.frame, h.frame]

theorem DecodeOnly.ite {c : Prop} [Decidable c] (h : DecodeOnly s t) (k : DecodeOnly s u) : DecodeOnly s (if c then t else u) := by
  split
  · exact h
  · exact k

theorem DecodeOnly.foldl {α : Type} {f : State → α → State} {l : List α} (h : DecodeOnly s t)
    (hf : ∀ u x, DecodeOnly s u → DecodeOnly s (f u x)) : DecodeOnly s (l.foldl f t) :=
  List.foldlRecOn (motive := DecodeOnly s) l f h fun u hu x _ => hf u x hu

theorem DecodeOnly.regs (h : DecodeOnly s t) : t.regs = s.regs := by rw [h.frame]
theorem DecodeOnly.ctr (h : DecodeOnly s t) : t.ctr = s.ctr := by rw [h.frame]
theorem DecodeOnly.hts (h : DecodeOnly s t) : t.hts = s.hts := by rw [h.frame]
theorem DecodeOnly.vdes (h : DecodeOnly s t) : t.vdes = s.vdes := by rw [h.frame]

theorem DecodeOnly.counter (h : DecodeOnly s t) (a : Nat) : t.counter a = s.counter a := by rw [State.counter, h.ctr, State.counter]

theorem DecodeOnly.setBytes {a : Nat} {bs : List Byte} (h : DecodeOnly s t) : DecodeOnly s (t.setBytes a bs) := by
  refine h.trans ⟨?_, fun hp => setBytes_poison hp a bs⟩
  rw [setBytes_frame]

theorem DecodeOnly.setLe {a n v : Nat} (h : DecodeOnly s t) : DecodeOnly s (t.setLe a n v) := h.setBytes
theorem DecodeOnly.spent (h : DecodeOnly s t) : DecodeOnly s t.spent := h.trans ⟨rfl, id⟩
theorem DecodeOnly.emit {o : Output} (h : DecodeOnly s t) : DecodeOnly s (t.emit o) := h.trans ⟨rfl, id⟩
theorem DecodeOnly.withCodecs {c : SMap Codec} (h : DecodeOnly s t) : DecodeOnly s { t with codecs := c } := h.trans ⟨rfl, id⟩

theorem DecodeOnly.paint {p ys f} (h : DecodeOnly s t) : DecodeOnly s (t.paint p ys f) :=
  h.foldl fun _ _ h => h.foldl fun _ _ h => h.foldl fun _ _ h => h.setLe

theorem DecodeOnly.writeStrip {l w n k luma chroma} (h : DecodeOnly s t) : DecodeOnly s (t.writeStrip l w n k luma chroma) := by
  have hp := (h.paint (p := l.luma w n 0) (ys := span (16 * k) (min (16 * k + 16) (l.luma w n 0).height))
    (f := fun s x r _ => luma s x r)).paint (p := l.chroma w n 0) (ys := span (8 * k) (min (8 * k + 8) (l.chroma w n 0).height)) (f := chroma)
  exact .ite (.paint (.paint (.ite hp.paint.paint hp))) <| .ite hp.paint.paint hp

theorem DecodeOnly.writeMotion {ctx i w k} (h : DecodeOnly s t) : DecodeOnly s (t.writeMotion ctx i w k) := h.setBytes.spent
theorem DecodeOnly.writeRecord {a fields} (h : DecodeOnly s t) : DecodeOnly s (t.writeRecord a fields) := h.setBytes.spent
theorem DecodeOnly.setCodec {ctx c} (h : DecodeOnly s t) : DecodeOnly s (t.setCodec ctx c) := h.setBytes.spent.withCodecs
theorem DecodeOnly.ctxCount {ctx off n} (h : DecodeOnly s t) : DecodeOnly s (t.ctxCount ctx off n) := h.setLe
theorem DecodeOnly.setMark {ctx i w} (h : DecodeOnly s t) : DecodeOnly s (t.setMark ctx i w) := h.setLe
theorem DecodeOnly.setBufRole {ctx i r} (h : DecodeOnly s t) : DecodeOnly s (t.setBufRole ctx i r) := h.setMark

theorem DecodeOnly.unmarkAll {ctx keep} (h : DecodeOnly s t) : DecodeOnly s (t.unmarkAll ctx keep) :=
  h.foldl fun _ _ h => h.setBufRole

theorem DecodeOnly.takeNames {ctx i ns} (h : DecodeOnly s t) : DecodeOnly s (t.takeNames ctx i ns) :=
  h.withCodecs.foldl fun _ _ h => h.setBufRole

theorem DecodeOnly.dropNames {ctx ns} (h : DecodeOnly s t) : DecodeOnly s (t.dropNames ctx ns) :=
  h.foldl fun _ _ h => by split; exacts [h.setBufRole, h]

theorem DecodeOnly.longNames {ctx ns} (h : DecodeOnly s t) : DecodeOnly s (t.longNames ctx ns) :=
  h.foldl fun _ _ h => by split; exacts [h.setMark.takeNames, h]

theorem DecodeOnly.placeHolds {au ctx i} (h : DecodeOnly s t) : DecodeOnly s (t.placeHolds au ctx i) := h.withCodecs.setMark

theorem DecodeOnly.decodeRecord {au status flags buf fields} (h : DecodeOnly s t) :
    DecodeOnly s (t.decodeRecord au status flags buf fields) := by
  unfold State.decodeRecord
  exact .ite h.writeRecord h

theorem DecodeOnly.enterState {ctx old new} (h : DecodeOnly s t) : DecodeOnly s (t.enterState ctx old new) := by
  have hc : DecodeOnly s (if 2 ≤ new && new != old then (t.setLe (ctx + 0x20) 1 new).ctxCount ctx 0x34 1 else t.setLe (ctx + 0x20) 1 new) :=
    .ite h.setLe.ctxCount h.setLe
  exact .ite hc.setCodec.emit <| .ite hc.setCodec hc

theorem DecodeOnly.decodeStrip {j luma chroma lost} (h : DecodeOnly s t) : DecodeOnly s (t.decodeStrip j luma chroma lost) :=
  h.writeStrip.writeMotion

theorem DecodeOnly.rowFill {ctx buf w n k} (h : DecodeOnly s t) : DecodeOnly s (t.rowFill ctx buf w n k) :=
  h.foldl fun _ _ h => by split; exacts [h.writeStrip, h.writeStrip]

theorem DecodeOnly.markOthers {j f abandoned} (h : DecodeOnly s t) : DecodeOnly s (t.markOthers j f abandoned) := by
  have hn : DecodeOnly s (if abandoned = true then t else (t.dropNames j.ctx f.removed).longNames j.ctx f.longs) :=
    .ite h h.dropNames.longNames
  exact .ite hn.unmarkAll hn

theorem DecodeOnly.markOwn {j f abandoned concealed} (h : DecodeOnly s t) : DecodeOnly s (t.markOwn j f abandoned concealed) :=
  h.setMark.takeNames

theorem DecodeOnly.putGrain {ctx g} (h : DecodeOnly s t) : DecodeOnly s (t.putGrain ctx g).1 := by
  cases g with
  | none => exact h
  | some g => exact h.setBytes.spent

end Stores

/-! ### The fields of a context that a picture's end writes (R173) -/

theorem ctxField_setLe_apart (s : State) (ctx v : Nat) {o m off n : Nat} (h : off + n ≤ o ∨ o + m ≤ off) :
    (s.setLe (ctx + o) m v).ctxField ctx off n = s.ctxField ctx off n := le_setLe_apart s v (by omega)

/-- The codec's own octets lie from 0x38 on, above the stream's fields. -/
theorem ctxField_setCodec (s : State) (ctx : Nat) (c : Codec) {off n : Nat} (h : off + n ≤ 0x38) :
    (s.setCodec ctx c).ctxField ctx off n = s.ctxField ctx off n := by
  have hm : (s.setCodec ctx c).mem = (s.setBytes (ctx + 0x38) (s.freeBytes 72)).mem := by
    unfold State.setCodec
    generalize s.freeBytes 72 = bs
    rfl
  exact (le_of_mem hm _ _).trans (le_setBytes_outside s _ _ _ _ (.inl (by omega)))

theorem ctxField_ctxCount (s : State) (ctx n : Nat) {o off m : Nat} (h : off + m ≤ o) :
    (s.ctxCount ctx o n).ctxField ctx off m = s.ctxField ctx off m := ctxField_setLe_apart s ctx _ (.inl h)

/-- A picture leaves its stream in the state it moves it into. -/
theorem enterState_state {s : State} (hp : s.poison = []) {ctx : Nat} (hc : ctx + 256 ≤ hbmBytes) (old : Nat) {new : Nat} (hn : new < 256) :
    (s.enterState ctx old new).ctxField ctx 0x20 1 = new := by
  have h0 : (s.setLe (ctx + 0x20) 1 new).ctxField ctx 0x20 1 = new := le_setLe_octet hp (by omega) hn
  have h1 : (if 2 ≤ new && new != old then (s.setLe (ctx + 0x20) 1 new).ctxCount ctx 0x34 1
      else s.setLe (ctx + 0x20) 1 new).ctxField ctx 0x20 1 = new := by
    split
    · exact (ctxField_ctxCount _ ctx 1 (by decide)).trans h0
    · exact h0
  unfold State.enterState
  dsimp only
  generalize (if 2 ≤ new && new != old then (s.setLe (ctx + 0x20) 1 new).ctxCount ctx 0x34 1 else s.setLe (ctx + 0x20) 1 new) = t at h1 ⊢
  have hs (c : Codec) : (t.setCodec ctx c).ctxField ctx 0x20 1 = new := (ctxField_setCodec t ctx c (by decide)).trans h1
  split
  · exact (emit_le_read _ _ _ _).trans (hs _)
  · split
    · exact hs _
    · exact h1

/-- LOCK clears without a change of the stream's state. -/
theorem unlocked_reads {s : State} (hp : s.poison = []) {ctx : Nat} (hc : ctx + 256 ≤ hbmBytes) :
    (s.setLe (ctx + 0x21) 1 0).ctxField ctx 0x21 1 = 0 ∧ (s.setLe (ctx + 0x21) 1 0).ctxField ctx 0x20 1 = s.ctxField ctx 0x20 1 :=
  ⟨le_setLe_octet hp (by omega) (by omega), ctxField_setLe_apart s ctx 0 (by omega)⟩

end Sys2Proof.Laws
end

section
/-! SUPPORT. A picture of a Video Decode Engine (R171 to R193): the end of a picture, the start of a decode task, and its strips. -/

namespace Sys2Proof.Laws

open Sys2Proof Sys2Proof.Machine Sys2Proof.Safety

/-! ### The end of a picture (R180 to R193) -/

/-- Two counters of one engine are two registers. -/
theorem perEngine_ne {a b : Nat} (h : a ≠ b) (v : Nat) : a + v * 0x10000 ≠ b + v * 0x10000 := by omega

/-- The blocks that a picture's record counts as concealed: those lost, and those of the strips that an abandoned picture lacks. -/
def blocksLost (j : VdeJob) (abandoned : Bool) : Nat :=
  j.concealed + if abandoned then ceilDiv j.info.width 16 * (stripsOf j.info.height - j.strips) else 0

/-- Whether a picture ends with blocks lost or in an error. -/
def endsDamaged (j : VdeJob) (f : PicEnd) (abandoned : Bool) : Bool :=
  blocksLost j abandoned != 0 || (!abandoned && (f.syntaxErr || j.runsPast))

/-- The stream's counts of pictures, concealed pictures and abandoned ones, with the engine's of the latter two. -/
def streamCounted (s : State) (v ctx : Nat) (concealed abandoned : Bool) : State :=
  let s := s.ctxCount ctx 0x24 1
  let s := if concealed then (s.ctxCount ctx 0x28 1).count (R.C_VDE_CONCEALED_PICS v) else s
  if abandoned then (s.ctxCount ctx 0x30 1).count (R.C_VDE_ABANDONED v) else s

/-- The engine's counts of a picture. -/
def engineCounted (s : State) (v blocks pixels cycles : Nat) : State :=
  let s := ((s.count (R.C_VDE_CONCEALED_BLOCKS v) blocks).count (R.C_VDE_PICS v)).count (R.C_VDE_PIXELS v) pixels
  (s.count (R.C_VDE_BUSY_CYCLES v) cycles).put (R.VDE_CUR_CYCLES_CYCLES v) cycles

/-- An engine and its stream once a picture's record is written, up to the completion of the task. -/
def pictureClosed (s : State) (v ctx old new blocks pixels cycles : Nat) (concealed abandoned : Bool) : State :=
  let s := s.enterState ctx old new
  let s := streamCounted (s.setCodec ctx (s.codec ctx)) v ctx concealed abandoned
  ((engineCounted s v blocks pixels cycles).setLe (ctx + 0x21) 1 0).setVdeJob v none

/-- From `s` to `t` the state of the stream of context `ctx` is kept, and so are the engines' jobs, the tasks and memory without marks. -/
structure StreamKept (ctx : Nat) (s t : State) : Prop where
  unpoisoned : s.poison = [] → t.poison = []
  state : t.ctxField ctx 0x20 1 = s.ctxField ctx 0x20 1
  vdes : t.vdes = s.vdes
  hts : t.hts = s.hts

section Counting

variable {ctx : Nat} {s t u : State}

theorem StreamKept.refl (ctx : Nat) (s : State) : StreamKept ctx s s := ⟨id, rfl, rfl, rfl⟩

theorem StreamKept.trans (h : StreamKept ctx s t) (k : StreamKept ctx t u) : StreamKept ctx s u :=
  ⟨fun hp => k.unpoisoned (h.unpoisoned hp), k.state.trans h.state, k.vdes.trans h.vdes, k.hts.trans h.hts⟩

theorem StreamKept.ite {c : Prop} [Decidable c] (h : StreamKept ctx s t) (k : StreamKept ctx s u) :
    StreamKept ctx s (if c then t else u) := by
  split
  · exact h
  · exact k

/-- A count in memory beyond LOCK is no change of the stream's state. -/
theorem StreamKept.ctxCount {off n : Nat} (h : StreamKept ctx s t) (ho : 0x21 ≤ off) : StreamKept ctx s (t.ctxCount ctx off n) :=
  have d := (DecodeOnly.refl t).ctxCount (ctx := ctx) (off := off) (n := n)
  h.trans ⟨d.unpoisoned, ctxField_ctxCount t ctx n ho, d.vdes, d.hts⟩

theorem StreamKept.count {a n : Nat} (h : StreamKept ctx s t) : StreamKept ctx s (t.count a n) := h.trans ⟨id, rfl, rfl, rfl⟩

theorem StreamKept.put {f : Fld} {n : Nat} (h : StreamKept ctx s t) : StreamKept ctx s (t.put f n) := h.trans ⟨id, rfl, rfl, rfl⟩

theorem StreamKept.streamCounted {v : Nat} {concealed abandoned : Bool} (h : StreamKept ctx s t) :
    StreamKept ctx s (streamCounted t v ctx concealed abandoned) := by
  have h₁ : StreamKept ctx s (t.ctxCount ctx 0x24 1) := h.ctxCount (by decide)
  have h₂ : StreamKept ctx s (if concealed then ((t.ctxCount ctx 0x24 1).ctxCount ctx 0x28 1).count (R.C_VDE_CONCEALED_PICS v)
      else t.ctxCount ctx 0x24 1) := .ite (h₁.ctxCount (by decide)).count h₁
  exact .ite (h₂.ctxCount (by decide)).count h₂

theorem StreamKept.engineCounted {v blocks pixels cycles : Nat} (h : StreamKept ctx s t) :
    StreamKept ctx s (engineCounted t v blocks pixels cycles) := h.count.count.count.count.put

end Counting

theorem counter_ctxCount (s : State) (ctx off n a : Nat) : (s.ctxCount ctx off n).counter a = s.counter a :=
  (DecodeOnly.refl s).ctxCount.counter a

theorem streamCounted_pics (s : State) (v ctx : Nat) (concealed abandoned : Bool) :
    (streamCounted s v ctx concealed abandoned).counter (R.C_VDE_PICS v) = s.counter (R.C_VDE_PICS v) := by
  have hc : R.C_VDE_PICS v ≠ R.C_VDE_CONCEALED_PICS v := perEngine_ne (by decide) v
  have ha : R.C_VDE_PICS v ≠ R.C_VDE_ABANDONED v := perEngine_ne (by decide) v
  cases concealed <;> cases abandoned <;> simp [streamCounted, counter_ctxCount, counter_count_ne, hc, ha]

/-- The engine counts the picture as abandoned where it was. -/
theorem streamCounted_abandoned (s : State) (v ctx : Nat) (concealed abandoned : Bool) :
    (streamCounted s v ctx concealed abandoned).counter (R.C_VDE_ABANDONED v) =
      if abandoned then (s.counter (R.C_VDE_ABANDONED v) + 1) % 2 ^ 64 else s.counter (R.C_VDE_ABANDONED v) := by
  have hc : R.C_VDE_ABANDONED v ≠ R.C_VDE_CONCEALED_PICS v := perEngine_ne (by decide) v
  cases concealed <;> cases abandoned <;> simp [streamCounted, counter_ctxCount, counter_count_ne, hc]

theorem engineCounted_pics (s : State) (v blocks pixels cycles : Nat) :
    (engineCounted s v blocks pixels cycles).counter (R.C_VDE_PICS v) = (s.counter (R.C_VDE_PICS v) + 1) % 2 ^ 64 := by
  have hb : R.C_VDE_PICS v ≠ R.C_VDE_CONCEALED_BLOCKS v := perEngine_ne (by decide) v
  have hx : R.C_VDE_PICS v ≠ R.C_VDE_PIXELS v := perEngine_ne (by decide) v
  have hy : R.C_VDE_PICS v ≠ R.C_VDE_BUSY_CYCLES v := perEngine_ne (by decide) v
  simp [engineCounted, counter_count_ne, hb, hx, hy]

theorem engineCounted_abandoned (s : State) (v blocks pixels cycles : Nat) :
    (engineCounted s v blocks pixels cycles).counter (R.C_VDE_ABANDONED v) = s.counter (R.C_VDE_ABANDONED v) := by
  have hb : R.C_VDE_ABANDONED v ≠ R.C_VDE_CONCEALED_BLOCKS v := perEngine_ne (by decide) v
  have hp : R.C_VDE_ABANDONED v ≠ R.C_VDE_PICS v := perEngine_ne (by decide) v
  have hx : R.C_VDE_ABANDONED v ≠ R.C_VDE_PIXELS v := perEngine_ne (by decide) v
  have hy : R.C_VDE_ABANDONED v ≠ R.C_VDE_BUSY_CYCLES v := perEngine_ne (by decide) v
  simp [engineCounted, counter_count_ne, hb, hp, hx, hy]

/-- BUSY shows whether the engine has a job. -/
theorem setVdeJob_busy (s : State) (v : Nat) (j : Option VdeJob) : (s.setVdeJob v j).isSet (R.VDE_STATUS_BUSY v) = j.isSome :=
  isSet_putBit_same s _ _ (Nat.le_of_ble_eq_true rfl) rfl

theorem setVdeJob_le (s : State) (v : Nat) (j : Option VdeJob) (a n : Nat) : (s.setVdeJob v j).le a n = s.le a n := rfl

/-- What the end of a picture shows: the engine idle, LOCK clear, the stream in its new state, and the picture counted. -/
theorem pictureClosed_shows {s : State} (hp : s.poison = []) {ctx : Nat} (hc : ctx + 256 ≤ hbmBytes) (v old : Nat) {new : Nat}
    (hn : new < 256) (blocks pixels cycles : Nat) (concealed abandoned : Bool) :
    let u := pictureClosed s v ctx old new blocks pixels cycles concealed abandoned
    u.vdes = SMap.set none s.vdes v none ∧ u.isSet (R.VDE_STATUS_BUSY v) = false ∧ u.hts = s.hts ∧
    u.ctxField ctx 0x21 1 = 0 ∧ u.ctxField ctx 0x20 1 = new ∧
    u.counter (R.C_VDE_PICS v) = (s.counter (R.C_VDE_PICS v) + 1) % 2 ^ 64 ∧
    u.counter (R.C_VDE_ABANDONED v) =
      if abandoned then (s.counter (R.C_VDE_ABANDONED v) + 1) % 2 ^ 64 else s.counter (R.C_VDE_ABANDONED v) := by
  intro u
  let e := s.enterState ctx old new
  let x := e.setCodec ctx (e.codec ctx)
  let k := engineCounted (streamCounted x v ctx concealed abandoned) v blocks pixels cycles
  let l := k.setLe (ctx + 0x21) 1 0
  have hx : DecodeOnly s x := (DecodeOnly.refl s).enterState.setCodec
  have hk : StreamKept ctx x k := (StreamKept.refl ctx x).streamCounted.engineCounted
  have hl : DecodeOnly k l := (DecodeOnly.refl k).setLe
  have hnew : x.ctxField ctx 0x20 1 = new := (ctxField_setCodec e ctx _ (by decide)).trans (enterState_state hp hc old hn)
  obtain ⟨hlock, hstate⟩ := unlocked_reads (hk.unpoisoned (hx.unpoisoned hp)) hc
  have hv : l.vdes = s.vdes := hl.vdes.trans (hk.vdes.trans hx.vdes)
  have hcount (a : Nat) : u.counter a = k.counter a := hl.counter a
  refine ⟨congrArg (fun m => SMap.set none m v none) hv, setVdeJob_busy l v none, hl.hts.trans (hk.hts.trans hx.hts),
    (setVdeJob_le l v none _ _).trans hlock, (setVdeJob_le l v none _ _).trans (hstate.trans (hk.state.trans hnew)), ?_, ?_⟩
  · rw [hcount, engineCounted_pics, streamCounted_pics, hx.counter]
  · rw [hcount, engineCounted_abandoned, streamCounted_abandoned, hx.counter]

/-- The first attempt's picture ends in `pictureClosed`, from a state in which its marks and its record are stored. -/
theorem finishPicture_closes {s : State} {j : VdeJob} (h : j.attempt ≠ 2) (v : Nat) (f : PicEnd) (status : Nat) (abandoned : Bool) :
    ∃ (r : State) (pixels : Nat) (concealed : Bool), DecodeOnly s r ∧ s.finishPicture v j f status abandoned =
      (pictureClosed r v j.ctx j.state (j.after j.test abandoned (endsDamaged j f abandoned)) (blocksLost j abandoned) pixels f.cycles
        concealed abandoned).unitComplete j.slot status (0x3000 + v) [] := by
  unfold State.finishPicture
  extract_lets p ctx n blocks damaged concealed held new shown again s₁ s₂ fl
  have hs₁ : DecodeOnly s s₁ := by
    unfold s₁
    clear_value shown
    split
    exacts [(DecodeOnly.refl s).placeHolds, .refl s]
  have hs₂ : DecodeOnly s s₂ := hs₁.markOthers.markOwn
  split
  next s₃ grain e =>
    have hs₃ : DecodeOnly s s₃ := by
      have hg := hs₂.putGrain (ctx := ctx) (g := f.filmGrain)
      rw [e] at hg
      exact hg
    exact ⟨_, _, concealed, hs₃.decodeRecord, if_neg h⟩

/-- A first attempt's picture that ends: its engine is idle, its stream unlocked and in the state after it, and it is counted. -/
theorem finishPicture_ends {s : State} (hp : s.poison = []) {j : VdeJob} (hc : j.ctx + 256 ≤ hbmBytes) (h : j.attempt ≠ 2) (v : Nat)
    (f : PicEnd) (status : Nat) (abandoned : Bool) :
    ∃ u : State, s.finishPicture v j f status abandoned = u.unitComplete j.slot status (0x3000 + v) [] ∧
      u.vdes = SMap.set none s.vdes v none ∧ u.isSet (R.VDE_STATUS_BUSY v) = false ∧ u.hts = s.hts ∧
      u.ctxField j.ctx 0x21 1 = 0 ∧ u.ctxField j.ctx 0x20 1 = j.after j.test abandoned (endsDamaged j f abandoned) ∧
      u.counter (R.C_VDE_PICS v) = (s.counter (R.C_VDE_PICS v) + 1) % 2 ^ 64 ∧
      u.counter (R.C_VDE_ABANDONED v) =
        if abandoned then (s.counter (R.C_VDE_ABANDONED v) + 1) % 2 ^ 64 else s.counter (R.C_VDE_ABANDONED v) := by
  obtain ⟨r, pixels, concealed, hr, he⟩ := finishPicture_closes h v f status abandoned
  have hn : j.after j.test abandoned (endsDamaged j f abandoned) < 256 := by
    unfold VdeJob.after
    dsimp only
    split_ifs <;> decide
  have hu := pictureClosed_shows (hr.unpoisoned hp) hc v j.state hn (blocksLost j abandoned) pixels f.cycles concealed abandoned
  rw [hr.vdes, hr.hts, hr.counter, hr.counter] at hu
  exact ⟨_, he, hu⟩

/-! ### The start of a decode task (R174 to R176, R184, R187, R190 to R193) -/

/-- An idle engine has a decode task on a valid context and access unit. -/
structure DecodeTask (s : State) (v : Fin 16) (n au ctx : Nat) : Prop where
  given : ∃ k, s.engineTask 0 v = some (n, k) ∧ k.kind = 1 ∧ au = k.descAddr
  idle : s.vdeJob v = none
  context : ctx = s.le au 8
  ctxValid : s.ctxValid ctx = true
  auValid : s.auValid au = true

/-- The decode task's access unit continues an unlocked stream in NORMAL and brings no parameter sets, in memory of its own. -/
structure NormalUnit (s : State) (v : Fin 16) (n au ctx : Nat) (pic : PicInfo) : Prop extends DecodeTask s v n au ctx where
  unpoisoned : s.poison = []
  inHbm : ctx + 256 ≤ hbmBytes
  apart : au + 64 ≤ ctx ∨ ctx + 256 ≤ au
  unlocked : s.ctxField ctx 0x21 1 = 0
  normal : s.ctxField ctx 0x20 1 = 1
  noReset : (s.le (au + 0x12) 2).testBit 1 = false
  noSets : pic.sets = []
  notShown : pic.existing = none

/-- The stream locked by its engine. -/
def opened (s : State) (v ctx : Nat) : State := s.setLe (ctx + 0x21) 1 (v + 1)

theorem opened_only (s : State) (v ctx : Nat) : DecodeOnly s (opened s v ctx) := (DecodeOnly.refl s).setLe

theorem opened_codecs (s : State) (v ctx : Nat) : (opened s v ctx).codecs = s.codecs := by
  rw [opened, State.setLe, setBytes_frame]

@[simp] theorem opened_codec (s : State) (v ctx c : Nat) : (opened s v ctx).codec c = s.codec c :=
  congrArg (fun m => SMap.get Codec.init m c) (opened_codecs s v ctx)

theorem opened_ctxField (s : State) (v ctx : Nat) {off n : Nat} (h : off + n ≤ 0x21 ∨ 0x22 ≤ off) :
    (opened s v ctx).ctxField ctx off n = s.ctxField ctx off n := ctxField_setLe_apart s ctx _ h

theorem opened_mark (s : State) (v ctx i : Nat) : (opened s v ctx).mark ctx i = s.mark ctx i :=
  le_setLe_apart s _ (by unfold markAddr; omega)

theorem opened_freeBufs (s : State) (v ctx : Nat) : (opened s v ctx).freeBufs ctx = s.freeBufs ctx := by
  simp only [State.freeBufs, State.pool, opened_mark, opened_ctxField s v ctx (off := 6) (n := 1) (by decide)]

theorem opened_lacksSets (s : State) (v ctx : Nat) (p : PicInfo) : (opened s v ctx).lacksSets ctx p = s.lacksSets ctx p := by
  simp only [State.lacksSets, opened_codec]

theorem opened_exceedsCtx (s : State) (v ctx : Nat) (p : PicInfo) : (opened s v ctx).exceedsCtx ctx p = s.exceedsCtx ctx p := by
  simp only [State.exceedsCtx, State.ctxBit10, opened_ctxField s v ctx (off := 2) (n := 2) (by decide),
    opened_ctxField s v ctx (off := 4) (n := 2) (by decide), opened_ctxField s v ctx (off := 1) (n := 1) (by decide)]

theorem DecodeTask.exec_locked {s : State} {v : Fin 16} {n au ctx : Nat} (h : DecodeTask s v n au ctx)
    (hl : s.ctxField ctx 0x21 1 ≠ 0) (pic : PicInfo) : exec (.decodeStart v pic) s = .next (s.ctxBad v n au) := by
  obtain ⟨⟨k, hk, hd, ha⟩, hi, hc, hv, hu⟩ := h
  simp [exec, execDecodeStart, hk, hi, hd, ← ha, ← hc, hv, hu, hl]

section Normal

variable {s : State} {v : Fin 16} {n au ctx : Nat} {pic : PicInfo}

theorem NormalUnit.enterUnit (h : NormalUnit s v n au ctx pic) : s.enterUnit v ctx false = opened s v ctx := by
  have h1 : (opened s v ctx).ctxField ctx 0x20 1 % 4 = 1 := by rw [opened_ctxField s v ctx (by decide), h.normal]
  unfold State.enterUnit
  change (if (opened s v ctx).ctxField ctx 0x20 1 % 4 = 0 then _ else opened s v ctx) = _
  rw [if_neg (by omega)]

/-- What the unit comes to once its context is locked: no picture, one that is not decoded and why, or one that starts. -/
theorem NormalUnit.exec_opened (h : NormalUnit s v n au ctx pic) {p : PicInfo} (hp : p = s.atTarget ctx pic) :
    exec (.decodeStart v pic) s =
      let t := opened s v ctx
      if !s.lacksSets ctx p && p.layers.isEmpty then
        .next (t.noPicture v n ctx au 1 1 ⟨false, false, false, false, false, true, false, false, false, p.bit10⟩ none p)
      else if outsideLimits (s.ctxField ctx 0 1) p then .next (t.notDecoded v n ctx au 1 St.decUnsupported 3 p)
      else if s.exceedsCtx ctx p then .next (t.notDecoded v n ctx au 1 St.decGeometry 3 p)
      else if s.lacksSets ctx p then .next (t.notDecoded v n ctx au 1 St.decNoParam 3 p)
      else if p.rasl && (s.codec ctx).bla then .next (t.notDecoded v n ctx au 1 St.decDropped 1 p)
      else .next (t.startPicture v n ctx au 1 p) := by
  obtain ⟨k, hk, hd, ha⟩ := h.given
  have hsets : p.sets = [] := by rw [hp]; exact h.noSets
  have hex : p.existing = none := by rw [hp]; exact h.notShown
  have hcodec := opened_ctxField s v ctx (off := 0) (n := 1) (by decide)
  simp [exec, execDecodeStart, hk, h.idle, hd, ← ha, ← h.context, h.ctxValid, h.auValid, h.unlocked, h.noReset, h.normal, h.enterUnit,
    ← hp, hsets, State.keepSets, hcodec, hex, opened_exceedsCtx, opened_lacksSets]

end Normal

/-! ### A unit without a picture (R171, R181, R193) -/

/-- A stream's engine is done with a unit that decoded no picture: LOCK is clear and the stream in its new state. -/
theorem closed_reads {s t : State} (hs : DecodeOnly s t) (hp : s.poison = []) {ctx : Nat} (hc : ctx + 256 ≤ hbmBytes) (old : Nat)
    {new : Nat} (hn : new < 256) :
    let u := (t.enterState ctx old new).setLe (ctx + 0x21) 1 0
    DecodeOnly s u ∧ u.ctxField ctx 0x21 1 = 0 ∧ u.ctxField ctx 0x20 1 = new := by
  have he : DecodeOnly s (t.enterState ctx old new) := hs.enterState
  obtain ⟨hlock, hstate⟩ := unlocked_reads (he.unpoisoned hp) hc
  exact ⟨he.setLe, hlock, hstate.trans (enterState_state (hs.unpoisoned hp) hc old hn)⟩

/-- A unit that displays nothing ends as soon as its record is written. -/
theorem noPicture_ends {s t : State} (hs : DecodeOnly s t) (hp : s.poison = []) {ctx : Nat} (hc : ctx + 256 ≤ hbmBytes)
    (v n au old : Nat) {new : Nat} (hn : new < 256) {f : RecFlags} (hf : f.concealed = false) (p : PicInfo) :
    ∃ u : State, t.noPicture v n ctx au old new f none p = u.unitComplete n St.ok (0x3000 + v) [] ∧ DecodeOnly s u ∧
      u.ctxField ctx 0x21 1 = 0 ∧ u.ctxField ctx 0x20 1 = new := by
  unfold State.noPicture
  extract_lets s₁ s₂ s₃
  have hs₂ : DecodeOnly s s₂ := hs.decodeRecord
  have hs₃ : s₃ = s₂ := if_neg (by simp [hf])
  rw [hs₃]
  exact ⟨_, rfl, closed_reads hs₂ hp hc old hn⟩

/-- A picture that is not decoded is counted, and its stream is left in the state given. -/
theorem notDecoded_ends {s t : State} (hs : DecodeOnly s t) (hp : s.poison = []) {ctx : Nat} (hc : ctx + 256 ≤ hbmBytes)
    (v n au old status : Nat) {new : Nat} (hn : new < 256) (p : PicInfo) :
    ∃ u : State, t.notDecoded v n ctx au old status new p = (u.count (R.C_VDE_NOT_DECODED v)).unitComplete n status (0x3000 + v) [] ∧
      DecodeOnly s u ∧ u.ctxField ctx 0x21 1 = 0 ∧ u.ctxField ctx 0x20 1 = new := by
  unfold State.notDecoded
  extract_lets c again f s₁ s₂ s₃
  have hs₂ : DecodeOnly s s₂ := by
    unfold s₂
    clear_value again
    split
    exacts [hs.decodeRecord.placeHolds, hs.decodeRecord]
  exact ⟨_, rfl, closed_reads hs₂ hp hc old hn⟩

/-! ### A picture that starts (R184, R187, R196) -/

/-- The buffer of a picture becomes PENDING, and the stream's knowledge begins a picture in it. -/
def bufferTaken (s : State) (ctx b : Nat) (c : Codec) : State :=
  let s := s.setMark ctx b (1 + c.order * 65536)
  { s with codecs := SMap.set Codec.init s.codecs ctx c }

/-- The engine takes a job, and with it the mark of INJ_WD: BUSY, the context and the cycles. -/
def jobTaken (s : State) (v ctx : Nat) (j : VdeJob) : State :=
  let s := (s.setVdeJob v (some j)).disarm 0 v
  (s.putPair (R.VDE_CUR_CTX_LO_ADDR v) (R.VDE_CUR_CTX_HI_ADDR v) ctx).put (R.VDE_CUR_CYCLES_CYCLES v) 0

/-- The engine sets the budget of the picture of the unit at `au`. -/
def budgetSet (s : State) (v au samples : Nat) : State :=
  s.put (R.VDE_CUR_BUDGET_CYCLES v) (s.vdeBudget v samples (s.le (au + 0x14) 4))

/-- The job of an engine that starts the picture `p` of the unit at `au` in buffer `b`, and names no other picture. -/
structure StartsPicture (n ctx au st b : Nat) (armed : Bool) (p : PicInfo) (j : VdeJob) : Prop where
  slot : j.slot = n
  ctx : j.ctx = ctx
  au : j.au = au
  info : j.info = p
  buf : j.buf = b
  state : j.state = st
  strips : j.strips = 0
  attempt : j.attempt = 1
  standins : j.standins = 0
  inject : j.inject = armed

/-- A picture that refers to no other, in order. -/
structure RefersToNone (p : PicInfo) : Prop where
  refs : p.refs = []
  lists : p.lists = []
  gap : p.gap = []
  drops : p.drops = []
  existing : p.existing = none

theorem RefersToNone.missing {p : PicInfo} (h : RefersToNone p) (s : State) (ctx : Nat) : s.missing ctx p = [] := by
  simp [State.missing, h.refs, h.lists, h.gap, h.existing]

theorem makeStandins_nothing (s : State) (v ctx : Nat) (bufs : List Nat) : s.makeStandins v ctx bufs [] = s := by
  cases bufs <;> rfl

theorem bufferTaken_only (s : State) (ctx b : Nat) (c : Codec) : DecodeOnly s (bufferTaken s ctx b c) :=
  (DecodeOnly.refl s).setMark.withCodecs

/-- A picture that names no other takes the lowest free buffer. -/
theorem startPicture_takes {s : State} {p : PicInfo} (h : RefersToNone p) {ctx b : Nat} {rest : List Nat}
    (hb : s.freeBufs ctx = b :: rest) (v n au st : Nat) :
    ∃ c j, s.startPicture v n ctx au st p = budgetSet (jobTaken (bufferTaken s ctx b c) v ctx j) v au p.samples ∧
      StartsPicture n ctx au st b (s.armed 0 v) p j := by
  unfold State.startPicture
  extract_lets gap need d s₀ test past
  have hneed : need = [] := h.missing s ctx
  have hd : d = s := by
    unfold d
    rw [h.drops]
    rfl
  have hs₀ : s₀ = s := hd
  clear_value need d s₀
  subst hneed hd hs₀
  split
  next _ b' bs e =>
    obtain ⟨rfl, -⟩ : b = b' ∧ rest = bs := by simpa [hb] using e
    extract_lets rest' c s₁ s₂ s₃ refs s₄ refBad refStand job s₅ s₆ s₇
    have hs₃ : s₃ = bufferTaken s₀ ctx b c := makeStandins_nothing s₂ v ctx rest'
    have hrefs : refs = [] := by
      unfold refs
      rw [State.refBufs, h.refs]
      rfl
    have hs₄ : s₄ = bufferTaken s₀ ctx b c := by
      unfold s₄
      rw [hrefs]
      exact hs₃
    have hinject : job.inject = s₀.armed 0 v := by
      change s₄.armed 0 v = _
      rw [hs₄, State.armed, (bufferTaken_only s₀ ctx b c).frame]
      rfl
    refine ⟨c, job, (if_neg (Nat.not_lt_zero _)).trans ?_, ⟨rfl, rfl, rfl, rfl, rfl, rfl, rfl, rfl, rfl, hinject⟩⟩
    unfold s₇ s₆ s₅
    clear_value job s₄
    rw [hs₄]
    rfl
  next e => simp [hb] at e

theorem setVdeJob_get (s : State) (v : Nat) (j : Option VdeJob) {f : Fld} {a : Nat} (hf : f.addr = a + v * 0x10000)
    (ha : a ≠ 0x800008) : (s.setVdeJob v j).get f = s.get f :=
  get_put_ne s _ _ _ (hf ▸ perEngine_ne ha v)

/-- The registers that an engine writes when it takes a job are BUSY, and those of the context and the cycles. -/
theorem jobTaken_get (s : State) (v ctx : Nat) (j : VdeJob) {f : Fld} {a : Nat} (hf : f.addr = a + v * 0x10000)
    (hl : a ≠ 0x800018) (hh : a ≠ 0x80001C) (hc : a ≠ 0x800020) :
    (jobTaken s v ctx j).get f = (s.setVdeJob v (some j)).get f :=
  calc (jobTaken s v ctx j).get f
    _ = _ := get_put_ne _ _ _ _ (hf ▸ perEngine_ne hc v)
    _ = _ := get_put_ne _ _ _ _ (hf ▸ perEngine_ne hh v)
    _ = _ := get_put_ne _ _ _ _ (hf ▸ perEngine_ne hl v)

theorem setVdeJob_leaves (s : State) (v : Nat) (j : Option VdeJob) :
    (s.setVdeJob v j).mem = s.mem ∧ (s.setVdeJob v j).hts = s.hts ∧ (s.setVdeJob v j).ctr = s.ctr ∧
    (s.setVdeJob v j).injected = s.injected ∧ (s.setVdeJob v j).vdes = SMap.set none s.vdes v j := ⟨rfl, rfl, rfl, rfl, rfl⟩

/-- The engine has the job taken and no mark of INJ_WD; memory, tasks and counters are as they were. -/
theorem jobTaken_shows (s : State) (v ctx : Nat) (j : VdeJob) :
    (jobTaken s v ctx j).vdeJob v = some j ∧ (jobTaken s v ctx j).armed 0 v = false ∧ (jobTaken s v ctx j).mem = s.mem ∧
    (jobTaken s v ctx j).hts = s.hts ∧ (jobTaken s v ctx j).ctr = s.ctr := by
  obtain ⟨hm, hh, hc, hi, hv⟩ := setVdeJob_leaves s v (some j)
  simp [jobTaken, State.putPair, State.vdeJob, State.armed, State.disarm, hm, hh, hc, hi, hv, get_set_same]

theorem jobTaken_busy (s : State) (v ctx : Nat) (j : VdeJob) : (jobTaken s v ctx j).isSet (R.VDE_STATUS_BUSY v) = true := by
  unfold State.isSet
  rw [jobTaken_get s v ctx j (a := 0x800008) rfl (by decide) (by decide) (by decide)]
  exact setVdeJob_busy s v (some j)

theorem budgetSet_busy (s : State) (v au samples : Nat) :
    (budgetSet s v au samples).isSet (R.VDE_STATUS_BUSY v) = s.isSet (R.VDE_STATUS_BUSY v) := by
  have h : (R.VDE_STATUS_BUSY v).addr ≠ (R.VDE_CUR_BUDGET_CYCLES v).addr := perEngine_ne (by decide) v
  rw [State.isSet, budgetSet, get_put_ne _ _ _ _ h, State.isSet]

/-- The budget is that of the picture's samples and octets by WD_SCALE. -/
theorem budgetSet_budget (s : State) (v ctx au samples : Nat) (j : VdeJob) :
    (budgetSet (jobTaken s v ctx j) v au samples).get (R.VDE_CUR_BUDGET_CYCLES v) =
      s.vdeBudget v samples (s.le (au + 0x14) 4) % 2 ^ 32 := by
  have hscale : (jobTaken s v ctx j).get (R.VDE_WD_SCALE_SCALE v) = s.get (R.VDE_WD_SCALE_SCALE v) :=
    (jobTaken_get s v ctx j (a := 0x800010) rfl (by decide) (by decide) (by decide)).trans
      (setVdeJob_get s v _ (a := 0x800010) rfl (by decide))
  obtain ⟨-, -, hmem, -, -⟩ := jobTaken_shows s v ctx j
  have hle : (jobTaken s v ctx j).le (au + 0x14) 4 = s.le (au + 0x14) 4 := le_of_mem hmem _ _
  rw [budgetSet, get_put_same _ _ _ (Nat.le_of_ble_eq_true rfl), hle, State.vdeBudget, hscale, State.vdeBudget]
  rfl

theorem vdeBudget_of_regs {s t : State} (h : t.regs = s.regs) (v samples n : Nat) : t.vdeBudget v samples n = s.vdeBudget v samples n := by
  rw [State.vdeBudget, get_of_regs h, State.vdeBudget]

theorem mem_freeBufs_lt {s : State} {ctx b : Nat} (h : b ∈ s.freeBufs ctx) : b < s.ctxField ctx 6 1 :=
  List.mem_range.1 (List.mem_filter.1 h).1

theorem ctxValid_pool {s : State} {ctx : Nat} (h : s.ctxValid ctx = true) : s.ctxField ctx 6 1 ≤ 32 := by
  simp only [State.ctxValid, Bool.and_eq_true, decide_eq_true_eq] at h
  omega

/-- The buffer taken is PENDING. -/
theorem bufferTaken_pending {s : State} (hp : s.poison = []) {ctx b : Nat} (hb : markAddr ctx b + 4 ≤ hbmBytes) (c : Codec) :
    markRole ((bufferTaken s ctx b c).mark ctx b) = 1 := by
  have hw : markRole (1 + c.order * 65536) = 1 := by
    unfold markRole
    omega
  change markRole ((s.setMark ctx b (1 + c.order * 65536)).le (markAddr ctx b) 4) = 1
  rw [State.setMark, if_neg (by simp [hw]), le_setLe s _ _ _ hp (addressExists_hbm hb)]
  unfold markRole
  omega

/-- A context is locked and a buffer of it taken: nothing of memory but the context changes, and LOCK names the engine. -/
theorem bufferTaken_opened {s : State} (hp : s.poison = []) {ctx b : Nat} (hc : ctx + 256 ≤ hbmBytes) (hb : b < 32) {v : Nat}
    (hv : v < 255) (c : Codec) :
    let t := bufferTaken (opened s v ctx) ctx b c
    t.ctxField ctx 0x21 1 = v + 1 ∧ markRole (t.mark ctx b) = 1 ∧ SameMemoryBut s t ctx 256 := by
  have ha : markAddr ctx b = ctx + 0x80 + 4 * b := rfl
  refine ⟨?lock, bufferTaken_pending ((opened_only s v ctx).unpoisoned hp) (by omega) c, fun q hq => ?_⟩
  case lock =>
    exact (le_setLe_apart (opened s v ctx) _ (by omega)).trans (le_setLe_octet hp (by omega) (by omega))
  have h₁ := sameMemoryBut_setLe s (ctx + 0x21) 1 (v + 1) q (by omega)
  exact (sameMemoryBut_setLe (opened s v ctx) (markAddr ctx b) 4 _ q (by omega)).trans h₁

/-- The mark of INJ_WD of a VDE stands under its own number. -/
theorem armed_vde (s : State) (v : Nat) : s.armed 0 v = SMap.get false s.injected v := by
  rw [State.armed, consumer, Nat.zero_mul, Nat.zero_add]

theorem budgetSet_leaves (s : State) (v au samples : Nat) :
    (budgetSet s v au samples).vdes = s.vdes ∧ (budgetSet s v au samples).injected = s.injected ∧ (budgetSet s v au samples).mem = s.mem ∧
    (budgetSet s v au samples).hts = s.hts ∧ (budgetSet s v au samples).ctr = s.ctr := by
  simp [budgetSet]

/-- A run of octets outside the region changed reads as it did. -/
theorem le_sameMemoryBut {s t : State} {a n : Nat} (h : SameMemoryBut s t a n) {c m : Nat} (hd : c + m ≤ a ∨ a + n ≤ c) :
    t.le c m = s.le c m := by
  unfold State.le State.bytes
  congr 1
  refine List.map_congr_left fun i hi => h (c + i) ?_
  have := List.mem_range.1 hi
  omega

theorem lacksSets_of_noUses {s : State} {p : PicInfo} (h : p.uses = []) (ctx : Nat) : s.lacksSets ctx p = false := by
  rw [State.lacksSets, h]
  rfl

/-- A locked context ends the task: one picture not decoded. -/
theorem DecodeTask.locked_ends {s : State} {v : Fin 16} {n au ctx : Nat} (h : DecodeTask s v n au ctx)
    (hl : s.ctxField ctx 0x21 1 ≠ 0) (pic : PicInfo) :
    Completes (exec (.decodeStart v pic) s) fun t => ∃ u : State,
      t = u.unitComplete n St.decCtxBad (0x3000 + v) [] ∧ u.vdes = s.vdes ∧
      u.counter (R.C_VDE_NOT_DECODED v) = (s.counter (R.C_VDE_NOT_DECODED v) + 1) % 2 ^ 64 := by
  have hr : DecodeOnly s (s.decodeRecord au St.decCtxBad 0 0xFF []) := (DecodeOnly.refl s).decodeRecord
  rw [h.exec_locked hl, State.ctxBad]
  generalize s.decodeRecord au St.decCtxBad 0 0xFF [] = r at hr ⊢
  refine ⟨_, rfl, _, rfl, hr.vdes, ?_⟩
  rw [counter_count_same, hr.counter]

section Normal

variable {s : State} {v : Fin 16} {n au ctx : Nat} {pic p : PicInfo}

/-- A unit without a layer within the target decodes no picture. -/
theorem NormalUnit.noLayers_ends (h : NormalUnit s v n au ctx pic) (hp : p = s.atTarget ctx pic) (hu : p.uses = []) (hl : p.layers = []) :
    Completes (exec (.decodeStart v pic) s) fun t => ∃ u : State,
      t = u.unitComplete n St.ok (0x3000 + v) [] ∧ u.vdes = s.vdes ∧ u.ctxField ctx 0x21 1 = 0 ∧ u.ctr = s.ctr := by
  rw [h.exec_opened hp, if_pos (by simp [lacksSets_of_noUses hu, hl])]
  obtain ⟨u, he, hu, hlock, -⟩ := noPicture_ends (opened_only s v ctx) h.unpoisoned h.inHbm v n au 1 (new := 1) (by decide)
    (f := ⟨false, false, false, false, false, true, false, false, false, p.bit10⟩) rfl p
  exact ⟨_, rfl, u, he, hu.vdes, hlock, hu.ctr⟩

/-- A picture that lacks a parameter set is not decoded and halts its stream. -/
theorem NormalUnit.lacksSets_ends (h : NormalUnit s v n au ctx pic) (hp : p = s.atTarget ctx pic) (hl : s.lacksSets ctx p = true)
    (ho : outsideLimits (s.ctxField ctx 0 1) p = false) (hg : s.exceedsCtx ctx p = false) :
    Completes (exec (.decodeStart v pic) s) fun t => ∃ u : State,
      t = u.unitComplete n St.decNoParam (0x3000 + v) [] ∧ u.vdes = s.vdes ∧ u.ctxField ctx 0x21 1 = 0 ∧ u.ctxField ctx 0x20 1 = 3 ∧
      u.counter (R.C_VDE_NOT_DECODED v) = (s.counter (R.C_VDE_NOT_DECODED v) + 1) % 2 ^ 64 := by
  rw [h.exec_opened hp, hl, ho, hg]
  obtain ⟨u, he, hu, hlock, hstate⟩ := notDecoded_ends (opened_only s v ctx) h.unpoisoned h.inHbm v n au 1 St.decNoParam (new := 3)
    (by decide) p
  refine ⟨_, rfl, _, he, hu.vdes, hlock, hstate, ?_⟩
  rw [counter_count_same, hu.counter]

/-- A complete picture within limits that refers to no other takes the lowest free buffer, and the engine its job. -/
theorem NormalUnit.picture_starts (h : NormalUnit s v n au ctx pic) (hp : p = s.atTarget ctx pic) (hu : p.uses = []) (hl : p.layers ≠ [])
    (ho : outsideLimits (s.ctxField ctx 0 1) p = false) (hg : s.exceedsCtx ctx p = false) (hr : p.rasl = false) (href : RefersToNone p)
    {b : Nat} {rest : List Nat} (hb : s.freeBufs ctx = b :: rest) :
    Completes (exec (.decodeStart v pic) s) fun t =>
      (∃ j, t.vdeJob v = some j ∧ StartsPicture n ctx au 1 b (s.armed 0 v) p j) ∧ t.armed 0 v = false ∧ t.isSet (R.VDE_STATUS_BUSY v) = true ∧
      t.ctxField ctx 0x21 1 = v + 1 ∧ markRole (t.mark ctx b) = 1 ∧
      t.get (R.VDE_CUR_BUDGET_CYCLES v) = s.vdeBudget v p.samples (s.le (au + 0x14) 4) % 2 ^ 32 ∧
      SameMemoryBut s t ctx 256 ∧ t.hts = s.hts ∧ t.ctr = s.ctr := by
  have hempty : p.layers.isEmpty = false := by simpa using hl
  have hpool : b < 32 := by
    have := mem_freeBufs_lt (hb ▸ List.mem_cons_self : b ∈ s.freeBufs ctx)
    have := ctxValid_pool h.ctxValid
    omega
  obtain ⟨c, j, he, hj⟩ := startPicture_takes href ((opened_freeBufs s v ctx).trans hb) v n au 1
  have hexec : exec (.decodeStart v pic) s = .next ((opened s v ctx).startPicture v n ctx au 1 p) := by
    rw [h.exec_opened hp, ho, hg, hr, lacksSets_of_noUses hu, hempty]
    rfl
  obtain ⟨hlock, hmark, hmem⟩ := bufferTaken_opened h.unpoisoned h.inHbm hpool (show v.val < 255 by omega) c
  have ho : DecodeOnly s (bufferTaken (opened s v ctx) ctx b c) := (opened_only s v ctx).trans (bufferTaken_only _ ctx b c)
  rw [hexec, he]
  generalize bufferTaken (opened s v ctx) ctx b c = r at hlock hmark hmem ho
  have hau : r.le (au + 0x14) 4 = s.le (au + 0x14) 4 := le_sameMemoryBut hmem (by have := h.apart; omega)
  have hinject : s.armed 0 v = (opened s v ctx).armed 0 v := by rw [State.armed, State.armed, (opened_only s v ctx).frame]
  have hbusy := (budgetSet_busy (jobTaken r v ctx j) v au p.samples).trans (jobTaken_busy r v ctx j)
  have hbudget := budgetSet_budget r v ctx au p.samples j
  rw [hau, vdeBudget_of_regs ho.regs] at hbudget
  obtain ⟨hjob, harmed, hm, hh, hk⟩ := jobTaken_shows r v ctx j
  obtain ⟨hv', hi', hm', hh', hk'⟩ := budgetSet_leaves (jobTaken r v ctx j) v au p.samples
  generalize jobTaken r v ctx j = q at *
  generalize budgetSet q v au p.samples = t at *
  exact ⟨t, rfl, ⟨j, (congrArg (fun m => SMap.get none m v.val) hv').trans hjob, hinject ▸ hj⟩,
    (congrArg (fun m => SMap.get false m _) hi').trans harmed, hbusy,
    (le_of_mem (hm'.trans hm) _ _).trans hlock, (congrArg markRole (le_of_mem (hm'.trans hm) _ _)).trans hmark, hbudget,
    sameMemoryBut_of_mem hmem (hm'.trans hm), hh'.trans (hh.trans ho.hts), hk'.trans (hk.trans ho.ctr)⟩

end Normal

/-! ### Strips (R178, R179, R189) -/

section Strips

variable {s : State} {v : Fin 16} {j : VdeJob} {luma chroma lost : List Nat} {cycles : Nat}

/-- Past the budget no strip is published: the watchdog expires first. -/
theorem stripPublished_late (hj : s.vdeJob v = some j) (hc : s.get (R.VDE_CUR_BUDGET_CYCLES v) < cycles) :
    exec (.stripPublished v luma chroma ⟨lost, cycles⟩) s = .next s := by
  simp [exec, execStripPublished, hj, hc]

/-- The engine's next strip is decoded and counted in its job. -/
def stripDecoded (s : State) (v : Nat) (j : VdeJob) (luma chroma lost : List Nat) (cycles : Nat) : State :=
  ((s.decodeStrip j luma chroma lost).setVdeJob v (some { j with strips := j.strips + 1, concealed := j.concealed + lost.length })).put
    (R.VDE_CUR_CYCLES_CYCLES v) cycles

/-- The blocks of a strip that a picture in recovery conceals. -/
def concealedBlocks (j : VdeJob) (lost : List Nat) : List Nat :=
  if j.recovery then (lost.filter fun x => x < ceilDiv j.info.width 16).eraseDups else []

theorem stripPublished_inTime (hj : s.vdeJob v = some j) (hf : j.failing = false) (hn : s.isFenced Unit.vde v = false)
    (hk : j.strips < stripsOf j.info.height) (hc : cycles ≤ s.get (R.VDE_CUR_BUDGET_CYCLES v)) :
    exec (.stripPublished v luma chroma ⟨lost, cycles⟩) s =
      let t := stripDecoded s v j luma chroma (concealedBlocks j lost) cycles
      .next (t.publishStrip (t.taskId j.slot) (j.strips + 1) j.buf) := by
  simp [exec, execStripPublished, hj, hf, hn, Nat.not_le.2 hk, Nat.not_lt.2 hc, stripDecoded, concealedBlocks]

theorem stripDecoded_shows (s : State) (v : Nat) (j : VdeJob) (luma chroma lost : List Nat) (cycles : Nat) :
    let t := stripDecoded s v j luma chroma lost cycles
    t.vdeJob v = some { j with strips := j.strips + 1, concealed := j.concealed + lost.length } ∧
    t.get (R.VDE_CUR_CYCLES_CYCLES v) = cycles % 2 ^ 32 ∧ t.hts = s.hts ∧ t.ctr = s.ctr := by
  intro t
  have hd : DecodeOnly s (s.decodeStrip j luma chroma lost) := (DecodeOnly.refl s).decodeStrip
  unfold t stripDecoded
  generalize s.decodeStrip j luma chroma lost = r at hd ⊢
  obtain ⟨-, hh, hc, -, hv⟩ := setVdeJob_leaves r v (some { j with strips := j.strips + 1, concealed := j.concealed + lost.length })
  refine ⟨?_, get_put_same _ _ _ (Nat.le_of_ble_eq_true rfl), ?_, ?_⟩
  · simp [State.vdeJob, hv, get_set_same]
  · rw [put_hts, hh, hd.hts]
  · rw [put_ctr, hc, hd.ctr]

/-- A strip in time is published, and its job counts it and the blocks concealed. -/
theorem stripPublished_publishes (hj : s.vdeJob v = some j) (hf : j.failing = false) (hn : s.isFenced Unit.vde v = false)
    (hk : j.strips < stripsOf j.info.height) (hc : cycles ≤ s.get (R.VDE_CUR_BUDGET_CYCLES v)) :
    Completes (exec (.stripPublished v luma chroma ⟨lost, cycles⟩) s) fun t => ∃ u : State,
      t = u.publishStrip (s.taskId j.slot) (j.strips + 1) j.buf ∧
      u.vdeJob v = some { j with strips := j.strips + 1, concealed := j.concealed +
        (if j.recovery then (lost.filter fun x => x < ceilDiv j.info.width 16).eraseDups.length else 0) } ∧
      u.get (R.VDE_CUR_CYCLES_CYCLES v) = cycles % 2 ^ 32 ∧ u.hts = s.hts ∧ u.ctr = s.ctr := by
  rw [stripPublished_inTime hj hf hn hk hc]
  obtain ⟨hjob, hcyc, hhts, hctr⟩ := stripDecoded_shows s v j luma chroma (concealedBlocks j lost) cycles
  generalize stripDecoded s v j luma chroma (concealedBlocks j lost) cycles = u at *
  have hlen : (concealedBlocks j lost).length =
      if j.recovery then (lost.filter fun x => x < ceilDiv j.info.width 16).eraseDups.length else 0 := by
    unfold concealedBlocks
    split <;> rfl
  have htask : u.taskId j.slot = s.taskId j.slot := by
    simp only [State.taskId, State.taskAt, hhts]
  exact ⟨_, rfl, u, by rw [htask], hlen ▸ hjob, hcyc, hhts, hctr⟩

end Strips

/-! ### The completion of a picture (R189 to R193) -/

/-- The engine's first attempt at a picture of a NORMAL stream, in normal service, ends within its budget and its windows. -/
structure EndsInTime (s : State) (v : Fin 16) (j : VdeJob) (f : PicEnd) : Prop where
  job : s.vdeJob v = some j
  notFailing : j.failing = false
  notFenced : s.isFenced Unit.vde v = false
  inTime : f.cycles ≤ s.get (R.VDE_CUR_BUDGET_CYCLES v)
  state : j.state = 1
  noGap : j.gap = false
  noStandins : j.standins = 0
  notRecovery : j.recovery = false
  attempt : j.attempt = 1
  noStrays : s.straysOf j f.strays = []
  unpoisoned : s.poison = []
  inHbm : j.ctx + 256 ≤ hbmBytes

section Ends

variable {s : State} {v : Fin 16} {j : VdeJob} {f : PicEnd}

theorem span_of_le {a b : Nat} (h : b ≤ a) : span a b = [] := by
  rw [span, Nat.sub_eq_zero_of_le h]
  rfl

/-- All strips of a picture are there: an abandoned picture has none to fill and publish. -/
theorem publishRest_all (s : State) (ctx buf w id : Nat) {h k : Nat} (hk : stripsOf h ≤ k) :
    (s.rowFill ctx buf w h k).publishRest id buf h k = s := by
  rw [State.publishRest, State.rowFill, span_of_le hk]
  rfl

theorem EndsInTime.exec_clean (h : EndsInTime s v j f) (hs : f.syntaxErr = false) (hr : j.runsPast = false)
    (hk : stripsOf j.info.height ≤ j.strips) : exec (.decodeComplete v f) s = .next (s.finishPicture v j f St.ok false) := by
  simp [exec, execDecodeComplete, h.job, h.noStrays, hs, hr, h.notFailing, h.notFenced, Nat.not_lt.2 h.inTime, Nat.not_lt.2 hk, h.noGap,
    h.noStandins, h.attempt]

theorem EndsInTime.exec_broken (h : EndsInTime s v j f) (hs : f.syntaxErr = true) (hk : stripsOf j.info.height ≤ j.strips) :
    exec (.decodeComplete v f) s = .next (s.finishPicture v j f St.decSyntax true) := by
  simp [exec, execDecodeComplete, h.job, h.noStrays, hs, h.notRecovery, h.notFailing, h.notFenced, Nat.not_lt.2 h.inTime,
    publishRest_all _ _ _ _ _ hk]

/-- A picture without an error leaves its stream NORMAL. -/
theorem EndsInTime.clean_ends (h : EndsInTime s v j f) (hs : f.syntaxErr = false) (hr : j.runsPast = false) (hc : j.concealed = 0)
    (hk : stripsOf j.info.height ≤ j.strips) : Completes (exec (.decodeComplete v f) s) fun t => ∃ u : State,
      t = u.unitComplete j.slot St.ok (0x3000 + v) [] ∧ u.vdeJob v = none ∧ u.isSet (R.VDE_STATUS_BUSY v) = false ∧
      u.ctxField j.ctx 0x21 1 = 0 ∧ u.ctxField j.ctx 0x20 1 = 1 ∧ u.hts = s.hts ∧
      u.counter (R.C_VDE_PICS v) = (s.counter (R.C_VDE_PICS v) + 1) % 2 ^ 64 ∧
      u.counter (R.C_VDE_ABANDONED v) = s.counter (R.C_VDE_ABANDONED v) := by
  have hd : endsDamaged j f false = false := by simp [endsDamaged, blocksLost, hs, hr, hc]
  have hafter : j.after j.test false (endsDamaged j f false) = 1 := by simp [VdeJob.after, hd, h.noGap, h.noStandins, h.state]
  obtain ⟨u, he, hv, hbusy, hhts, hlock, hstate, hpics, habandoned⟩ :=
    finishPicture_ends h.unpoisoned h.inHbm (by rw [h.attempt]; decide) v f St.ok false
  rw [h.exec_clean hs hr hk]
  refine ⟨_, rfl, u, he, ?_, hbusy, hlock, hstate.trans hafter, hhts, hpics, habandoned⟩
  rw [State.vdeJob, hv, get_set_same]

/-- An error of the bitstream in normal service puts the stream in RECOVERY. -/
theorem EndsInTime.broken_ends (h : EndsInTime s v j f) (hs : f.syntaxErr = true) (hk : stripsOf j.info.height ≤ j.strips) :
    Completes (exec (.decodeComplete v f) s) fun t => ∃ u : State,
      t = u.unitComplete j.slot St.decSyntax (0x3000 + v) [] ∧ u.vdeJob v = none ∧ u.ctxField j.ctx 0x21 1 = 0 ∧
      u.ctxField j.ctx 0x20 1 = 2 ∧ u.counter (R.C_VDE_ABANDONED v) = (s.counter (R.C_VDE_ABANDONED v) + 1) % 2 ^ 64 := by
  obtain ⟨u, he, hv, -, -, hlock, hstate, -, habandoned⟩ :=
    finishPicture_ends h.unpoisoned h.inHbm (by rw [h.attempt]; decide) v f St.decSyntax true
  rw [h.exec_broken hs hk]
  refine ⟨_, rfl, u, he, ?_, hlock, hstate, habandoned⟩
  rw [State.vdeJob, hv, get_set_same]

end Ends

end Sys2Proof.Laws
end

section
/-! SUPPORT. The watchdog, the fills and the holds of the Video Decode Engines (R182, R186 to R188, R196): what a fence leaves, what publishing a
strip leaves, and what a release does to a mark word. -/

namespace Sys2Proof.Laws

open Sys2Proof Sys2Proof.Machine Sys2Proof.Safety

/-! ### A fence (R582, R597) -/

/-- The bit of SQL_FENCE_u that fences an instance. -/
def fenceField (unit inst : Nat) : Fld := ⟨(R.SQL_FENCE_INSTANCES unit (inst / 32)).addr, inst % 32, 1⟩

/-- An instance is fenced where its bit is set. -/
theorem isFenced_eq_isSet (s : State) (unit inst : Nat) : s.isFenced unit inst = s.isSet (fenceField unit inst) := by
  have hlt : inst % 32 < 32 := Nat.mod_lt _ (by decide)
  have hreg (w : Word) : (w.field 0 32).testBit (inst % 32) = (w.field (inst % 32) 1 == 1) := by
    rw [Word.field, Word.field, Nat.testBit_mod_two_pow, Nat.testBit_eq_decide_div_mod_eq, BitVec.toNat_ushiftRight,
      BitVec.toNat_ushiftRight, Nat.shiftRight_eq_div_pow, Nat.shiftRight_eq_div_pow]
    simp [hlt, beq_eq_decide]
  exact hreg (s.reg (R.SQL_FENCE_INSTANCES unit (inst / 32)).addr)

/-- A fence that finds the unit in service: the bits of step 1 and the island of step 4. -/
def fenceBegun (s : State) (v : Nat) : State :=
  ((s.putBit (fenceField Unit.vde v) true).putBit (R.VDE_STATUS_FENCED v) true).setIsland (3 + v) .lull

/-- A VDE that is fenced: the bits and the island, then the entry, the alert and the count of fenced units. -/
theorem fence_vde {s : State} {v : Nat} (h : s.isFenced Unit.vde v = false) (row param : Nat) :
    s.fence Unit.vde v row param =
      let t := ((fenceBegun s v).log Unit.vde v Sev.fault Ev.fenced row param).putBit R.SQL_ALERT_CAUSE_FENCE true
      t.put R.SQL_FENCED_UNITS_COUNT (t.get R.SQL_FENCED_UNITS_COUNT + 1) := by
  rw [State.fence, State.fenceWith, h]
  rfl

theorem fenceBegun_get (s : State) {v : Nat} (hv : v < 16) (f : Fld) : (fenceBegun s v).get f =
    (((s.putBit (fenceField Unit.vde v) true).putBit (R.VDE_STATUS_FENCED v) true).putBit (R.VDE_STATUS_LULL v) true).get f := by
  have hl : lullBit (3 + v) = some (R.VDE_STATUS_LULL v) := by
    rw [lullBit, if_pos (by simp; omega), Nat.add_sub_cancel_left]
  rw [fenceBegun, State.setIsland, hl]
  rfl

/-- The entry, the alert and the count that follow write four registers of Squall's alone. -/
theorem fence_vde_get {s : State} {v : Nat} (h : s.isFenced Unit.vde v = false) (row param : Nat) {f : Fld}
    (hf : f.addr < 0xF00000 ∨ 0xF00200 ≤ f.addr) : (s.fence Unit.vde v row param).get f = (fenceBegun s v).get f := by
  have hlog : ((fenceBegun s v).log Unit.vde v Sev.fault Ev.fenced row param).get f = (fenceBegun s v).get f := by
    rw [State.get, log_reg _ _ _ _ _ _ _ _ (by simp only [R.SQL_SUPPRESSED_COUNT]; omega) (by simp only [R.SQL_STATUS_WRAPPED]; omega)
      (by simp only [R.SQL_ALERT_CAUSE_FATAL]; omega), State.get]
  rw [fence_vde h, ← hlog]
  exact (get_put_ne _ _ _ _ (by simp only [R.SQL_FENCED_UNITS_COUNT]; omega)).trans
    (get_put_ne _ _ _ _ (by simp only [R.SQL_ALERT_CAUSE_FENCE]; omega))

/-- A fence changes neither memory nor the scheduler's tables. -/
theorem fence_vde_leaves {s : State} {v : Nat} (h : s.isFenced Unit.vde v = false) (row param : Nat) :
    (s.fence Unit.vde v row param).mem = s.mem ∧ (s.fence Unit.vde v row param).hts = s.hts := by
  have hb : (fenceBegun s v).mem = s.mem ∧ (fenceBegun s v).hts = s.hts := by
    rw [fenceBegun, setIsland_frame]
    exact ⟨rfl, rfl⟩
  rw [fence_vde h]
  dsimp only
  rw [put_mem, put_hts, State.putBit, put_mem, put_hts, log_mem, log_only]
  exact hb

/-- An engine that is fenced shows it in Squall and in its own block. -/
theorem fence_vde_shows {s : State} {v : Nat} (hv : v < 16) (h : s.isFenced Unit.vde v = false) (row param : Nat) :
    let t := s.fence Unit.vde v row param
    t.isFenced Unit.vde v = true ∧ t.isSet (R.VDE_STATUS_FENCED v) = true := by
  intro t
  have hne : (fenceField Unit.vde v).addr = 0xF00200 + 7 * 0x10 + v / 32 * 4 := rfl
  have hv' : (R.VDE_STATUS_FENCED v).addr = 0x800008 + v * 0x10000 := rfl
  have hl' : (R.VDE_STATUS_LULL v).addr = 0x800008 + v * 0x10000 := rfl
  have hfence : (fenceField Unit.vde v).lsb + 1 ≤ 32 := Nat.mod_lt v (show 0 < 32 by decide)
  constructor
  · rw [isFenced_eq_isSet, State.isSet, fence_vde_get h row param (Or.inr (by omega)), fenceBegun_get s hv, State.putBit,
      get_put_ne _ _ _ _ (by omega), State.putBit, get_put_ne _ _ _ _ (by omega)]
    exact isSet_putBit_same s (fenceField Unit.vde v) true hfence rfl
  · have hapart (t : State) : (t.put (R.VDE_STATUS_LULL v) 1).get (R.VDE_STATUS_FENCED v) = t.get (R.VDE_STATUS_FENCED v) :=
      get_put_apart t (R.VDE_STATUS_LULL v) (R.VDE_STATUS_FENCED v) 1 (Nat.le_of_ble_eq_true rfl) (Or.inr (Or.inl (Nat.le_refl 3)))
    rw [State.isSet, fence_vde_get h row param (Or.inl (by omega)), fenceBegun_get s hv]
    exact (congrArg (· == 1) (hapart _)).trans (isSet_putBit_same _ (R.VDE_STATUS_FENCED v) true (Nat.le_of_ble_eq_true rfl) rfl)

/-! ### The watchdog (R187, R196) -/

/-- A second expiry fences the engine, and BUSY clears. -/
def engineLost (s : State) (v : Nat) (cycles slot : Nat) : State :=
  let s := s.count (R.C_VDE_BUSY_CYCLES v) cycles
  (s.fence Unit.vde v 8 (s.taskId slot)).putBit (R.VDE_STATUS_BUSY v) false

theorem engineLost_shows {s : State} {v : Nat} (hv : v < 16) (h : s.isFenced Unit.vde v = false) (cycles slot : Nat) :
    let t := engineLost s v cycles slot
    t.isFenced Unit.vde v = true ∧ t.isSet (R.VDE_STATUS_BUSY v) = false ∧ t.isSet (R.VDE_STATUS_FENCED v) = true ∧
    t.hts = s.hts ∧ t.mem = s.mem := by
  intro t
  let c := s.count (R.C_VDE_BUSY_CYCLES v) cycles
  have hc : c.isFenced Unit.vde v = false := h
  obtain ⟨hm, hh⟩ := fence_vde_leaves hc 8 (c.taskId slot)
  obtain ⟨hf, hb⟩ := fence_vde_shows hv hc 8 (c.taskId slot)
  have ht : t = (c.fence Unit.vde v 8 (c.taskId slot)).putBit (R.VDE_STATUS_BUSY v) false := rfl
  rw [ht]
  generalize c.fence Unit.vde v 8 (c.taskId slot) = u at hm hh hf hb ⊢
  have hbusy : (R.VDE_STATUS_BUSY v).lsb + (R.VDE_STATUS_BUSY v).width ≤ 32 := Nat.le_of_ble_eq_true rfl
  have hne : (fenceField Unit.vde v).addr ≠ (R.VDE_STATUS_BUSY v).addr := by
    have ha : (fenceField Unit.vde v).addr = 0xF00200 + 7 * 0x10 + v / 32 * 4 := rfl
    have hv' : (R.VDE_STATUS_BUSY v).addr = 0x800008 + v * 0x10000 := rfl
    omega
  refine ⟨?_, isSet_putBit_same u _ _ hbusy rfl, ?_, hh, hm⟩
  · rw [isFenced_eq_isSet, State.putBit, isSet_put_apart u _ _ _ hbusy (Or.inl hne), ← isFenced_eq_isSet, hf]
  · rw [State.putBit, isSet_put_apart u _ (R.VDE_STATUS_FENCED v) _ hbusy (Or.inr (Or.inl (Nat.le_of_ble_eq_true rfl))), hb]

section Watchdog

variable {s : State} {v : Fin 16} {j : VdeJob} {cycles : Nat}

theorem watchdog_early (hj : s.vdeJob v = some j) (hf : j.failing = false) (hc : cycles ≤ s.get (R.VDE_CUR_BUDGET_CYCLES v)) :
    exec (.vdeWatchdogExpiry v cycles) s = .next s := by
  simp [exec, execVdeWatchdogExpiry, hj, hf, hc]

/-- An expiry needs cycles past the budget, or the mark of INJ_WD. -/
theorem watchdog_expires (hj : s.vdeJob v = some j) (hn : s.isFenced Unit.vde v = false) (he : s.endsNow 0 v = false)
    (hx : j.failing = true ∨ s.get (R.VDE_CUR_BUDGET_CYCLES v) < cycles) :
    exec (.vdeWatchdogExpiry v cycles) s =
      if j.attempt = 1 then .next (((s.count (R.C_VDE_BUSY_CYCLES v) cycles).setVdeJob v (some { j with attempt := 2 })).put
        (R.VDE_CUR_CYCLES_CYCLES v) 0)
      else .next ((engineLost s v cycles j.slot).loseUnit 0 v) := by
  have hlate : (!j.failing && decide (cycles ≤ s.get (R.VDE_CUR_BUDGET_CYCLES v))) = false := by
    cases hx with
    | inl hf => simp [hf]
    | inr hc => simp [hc]
  simp only [exec, execVdeWatchdogExpiry, hj, hn, he, hlate, Bool.or_false, engineLost, Bool.false_eq_true, if_false]

/-- A first expiry keeps the job for a second attempt. -/
theorem watchdog_first (s : State) (v : Nat) (j : VdeJob) (cycles : Nat) :
    let t := ((s.count (R.C_VDE_BUSY_CYCLES v) cycles).setVdeJob v (some j)).put (R.VDE_CUR_CYCLES_CYCLES v) 0
    t.vdeJob v = some j ∧ t.mem = s.mem ∧ t.hts = s.hts ∧
    t.counter (R.C_VDE_BUSY_CYCLES v) = (s.counter (R.C_VDE_BUSY_CYCLES v) + cycles) % 2 ^ 64 ∧
    SameCountersBut s t [R.C_VDE_BUSY_CYCLES v] := by
  intro t
  let c := s.count (R.C_VDE_BUSY_CYCLES v) cycles
  obtain ⟨hm, hh, hk, -, hv⟩ := setVdeJob_leaves c v (some j)
  have hctr : t.ctr = c.ctr := hk
  have hcounter (a : Nat) : t.counter a = c.counter a := by rw [State.counter, hctr, State.counter]
  have hjob : t.vdes = SMap.set none s.vdes v (some j) := hv
  refine ⟨by rw [State.vdeJob, hjob, get_set_same], hm, hh, (hcounter _).trans (counter_count_same s _ cycles), fun a ha => ?_⟩
  exact (hcounter a).trans (counter_count_ne s cycles (by simpa using ha))

end Watchdog
/-! ### What the publication of a strip leaves (R431 to R436)

`TasksMove` chains as `Keeps` does. -/

/-- From `s` to `t` no poison mark comes, and no counter below the scheduler's changes. -/
structure TasksMove (s t : State) : Prop where
  unpoisoned : s.poison = [] → t.poison = []
  counter : ∀ a < 0xD00000, t.counter a = s.counter a

section Tasks

variable {s t u : State}

theorem TasksMove.refl (s : State) : TasksMove s s := ⟨id, fun _ _ => rfl⟩

theorem TasksMove.trans (h : TasksMove s t) (k : TasksMove t u) : TasksMove s u :=
  ⟨fun hp => k.unpoisoned (h.unpoisoned hp), fun a ha => (k.counter a ha).trans (h.counter a ha)⟩

theorem TasksMove.ite {c : Prop} [Decidable c] (h : TasksMove s t) (k : TasksMove s u) : TasksMove s (if c then t else u) := by
  split
  · exact h
  · exact k

theorem TasksMove.others (h : TasksMove s t) (hp : u.poison = t.poison) (hc : u.ctr = t.ctr) : TasksMove s u :=
  h.trans ⟨fun hs => hp.trans hs, fun a _ => by rw [State.counter, hc, State.counter]⟩

theorem TasksMove.count {a n : Nat} (h : TasksMove s t) (ha : 0xD00000 ≤ a) : TasksMove s (t.count a n) :=
  h.trans ⟨id, fun b hb => counter_count_ne t n (by omega)⟩

theorem TasksMove.setBytes {a : Nat} {bs : List Byte} (h : TasksMove s t) : TasksMove s (t.setBytes a bs) :=
  have d := (DecodeOnly.refl t).setBytes (a := a) (bs := bs)
  h.trans ⟨d.unpoisoned, fun b _ => d.counter b⟩

theorem TasksMove.put {f : Fld} {x : Nat} (h : TasksMove s t) : TasksMove s (t.put f x) := h.others rfl rfl
theorem TasksMove.putBit {f : Fld} {b : Bool} (h : TasksMove s t) : TasksMove s (t.putBit f b) := h.put
theorem TasksMove.bump {f : Fld} {n : Nat} (h : TasksMove s t) : TasksMove s (t.bump f n) := h.put
theorem TasksMove.drop {f : Fld} {n : Nat} (h : TasksMove s t) : TasksMove s (t.drop f n) := h.put
theorem TasksMove.setTask {n : Nat} {k : Task} (h : TasksMove s t) : TasksMove s (t.setTask n k) := h.others rfl rfl
theorem TasksMove.noteReady {k : Task} (h : TasksMove s t) : TasksMove s (t.noteReady k) := h.others rfl rfl
theorem TasksMove.unready {k : Task} (h : TasksMove s t) : TasksMove s (t.unready k) := .ite h.drop.noteReady h
theorem TasksMove.freeSlot {n : Nat} (h : TasksMove s t) : TasksMove s (t.freeSlot n) := h.setTask.drop
theorem TasksMove.noticePasses {id count buf : Nat} (h : TasksMove s t) : TasksMove s (t.noticePasses id count buf) := h.others rfl rfl
theorem TasksMove.emitAll {os : List Output} (h : TasksMove s t) : TasksMove s (t.emitAll os) := h.others rfl rfl

theorem TasksMove.trace {task consumer reason effort val : Nat} (h : TasksMove s t) :
    TasksMove s (t.trace task consumer reason effort val) :=
  .ite h <| .ite h.setBytes.put.putBit h.setBytes.put

theorem TasksMove.post {n prio : Nat} {data : List Byte} (h : TasksMove s t) : TasksMove s (t.post n prio data).1 := by
  let w : QWord := ⟨data, true, true, false, prio⟩
  have hp : (t.writeWord n w .entry).1.poison = t.poison :=
    writeWord_leaves State.poison (fun _ _ _ => rfl) (fun _ _ => rfl) t n w .entry
  have hc : (t.writeWord n w .entry).1.ctr = t.ctr := writeWord_leaves State.ctr (fun _ _ _ => rfl) (fun _ _ => rfl) t n w .entry
  unfold State.post
  split <;> next e => exact h.others ((congrArg (·.1.poison) e).symm.trans hp) ((congrArg (·.1.ctr) e).symm.trans hc)

theorem TasksMove.postEvent {queue a : Nat} {data : List Byte} (h : TasksMove s t) (ha : 0xD00000 ≤ a) :
    TasksMove s (t.postEvent queue a data) := .ite h <| .ite h.post (h.post.count ha)

theorem TasksMove.finishTask {n status cons : Nat} (h : TasksMove s t) : TasksMove s (t.finishTask n status cons) := by
  unfold State.finishTask
  extract_lets k id late s₁ s₂ s₃ s₄ s₅ flags s₆
  have h₂ : TasksMove s s₂ := h.unready.count (by decide)
  have h₃ : TasksMove s s₃ := .ite (h₂.count (by decide)) <| .ite (h₂.count (by decide)) <| .ite (h₂.count (by decide)) h₂
  have h₄ : TasksMove s s₄ := .ite (h₃.count (by decide)) h₃
  exact (h₄.trace.postEvent (by decide)).freeSlot

/-- The links fired, however many: the tasks that become ready, and those that complete at once. -/
theorem TasksMove.fire {fuel : Nat} {ids : List Nat} (h : TasksMove s t) : TasksMove s (t.fire fuel ids) := by
  induction fuel generalizing t ids with
  | zero => unfold State.fire; exact h
  | succ fuel ih =>
    cases ids with
    | nil => exact h
    | cons id ids =>
      unfold State.fire
      split
      · exact ih h
      · refine .ite (ih h) (.ite (ih h.setTask) ?_)
        exact .ite (ih h.setTask.trace.setTask.finishTask) (.ite (ih h.setTask.trace.bump.finishTask) (ih h.setTask.trace.bump))

theorem TasksMove.publishStrip {id count buf : Nat} (h : TasksMove s t) : TasksMove s (t.publishStrip id count buf) := by
  unfold State.publishStrip
  split
  exacts [h, .ite h.setTask.noticePasses.emitAll.fire h.setTask.noticePasses.emitAll]

theorem TasksMove.publishRest {id buf rows k : Nat} (h : TasksMove s t) : TasksMove s (t.publishRest id buf rows k) := by
  unfold State.publishRest
  generalize span k (stripsOf rows) = l
  induction l generalizing t with
  | nil => exact h
  | cons r l ih => exact ih h.publishStrip

theorem TasksMove.rowFill {ctx buf w rows k : Nat} (h : TasksMove s t) : TasksMove s (t.rowFill ctx buf w rows k) :=
  have d := (DecodeOnly.refl t).rowFill (ctx := ctx) (buf := buf) (w := w) (n := rows) (k := k)
  h.trans ⟨d.unpoisoned, fun b _ => d.counter b⟩

end Tasks
/-! ### A fill (R186, R188) -/

/-- The rows that a lost picture lacks are filled and published, and the fenced engine `w` has no job any more. -/
def lostFilled (s : State) (w n : Nat) (j : VdeJob) : State :=
  let s := (s.rowFill j.ctx j.buf j.info.width j.info.height j.strips).publishRest (s.taskId n) j.buf j.info.height j.strips
  { s with vdes := SMap.set none s.vdes w none }

/-- A fill task for the stream that a fenced engine has locked. -/
structure FillsLost (s : State) (v w : Fin 16) (n : Nat) (j : VdeJob) : Prop where
  given : ∃ k, s.engineTask 0 v = some (n, k) ∧ k.kind = 2 ∧ j.ctx = s.le k.descAddr 8
  idle : s.vdeJob v = none
  locked : s.ctxField j.ctx 0x21 1 = w + 1
  job : s.vdeJob w = some j
  fenced : s.isFenced Unit.vde w = true
  slot : j.slot = n

/-- The end of a filled picture: nothing decoded, no error, the picture displayed. -/
def filledEnd (cycles : Nat) : PicEnd := ⟨false, [], cycles, .unused, [], [], .own, none⟩

section Fill

variable {s : State} {v w : Fin 16} {n : Nat} {j : VdeJob}

theorem FillsLost.exec_fill (h : FillsLost s v w n j) (cycles : Nat) :
    exec (.decodeFill v ⟨[], cycles⟩) s =
      .next ((lostFilled s w n j).finishPicture v { j with attempt := 1 } (filledEnd cycles) St.unitFenced true) := by
  obtain ⟨k, hk, hd, hc⟩ := h.given
  simp [exec, execDecodeFill, hk, h.idle, hd, ← hc, h.locked, h.job, h.fenced, h.slot, State.straysOf, lostFilled, filledEnd]

theorem lostFilled_move (s : State) (w n : Nat) (j : VdeJob) : TasksMove s (lostFilled s w n j) :=
  (TasksMove.refl s).rowFill.publishRest.others rfl rfl

/-- The fill ends the fenced engine's job, unlocks the stream and leaves it in RECOVERY. -/
theorem FillsLost.fill_ends (h : FillsLost s v w n j) (hvw : v ≠ w) (hp : s.poison = []) (hc : j.ctx + 256 ≤ hbmBytes) (cycles : Nat) :
    Completes (exec (.decodeFill v ⟨[], cycles⟩) s) fun t => ∃ u : State,
      t = u.unitComplete n St.unitFenced (0x3000 + v) [] ∧ u.vdeJob w = none ∧ u.ctxField j.ctx 0x21 1 = 0 ∧
      u.ctxField j.ctx 0x20 1 = 2 ∧ u.counter (R.C_VDE_ABANDONED v) = (s.counter (R.C_VDE_ABANDONED v) + 1) % 2 ^ 64 := by
  have hmove := lostFilled_move s w n j
  have hjob : (lostFilled s w n j).vdeJob w = none := by
    rw [State.vdeJob, lostFilled, get_set_same]
  have hcounter : (lostFilled s w n j).counter (R.C_VDE_ABANDONED v) = s.counter (R.C_VDE_ABANDONED v) :=
    hmove.counter _ (by simp only [R.C_VDE_ABANDONED]; omega)
  rw [h.exec_fill]
  generalize lostFilled s w n j = r at *
  obtain ⟨u, he, hv, -, -, hlock, hstate, -, habandoned⟩ :=
    finishPicture_ends (j := { j with attempt := 1 }) (hmove.unpoisoned hp) hc (by simp) v (filledEnd cycles) St.unitFenced true
  refine ⟨_, rfl, u, h.slot ▸ he, ?_, hlock, hstate, ?_⟩
  · rw [State.vdeJob, hv]
    exact (get_set_ne none none r.vdes none fun e => hvw (Fin.ext e.symm)).trans hjob
  · rw [habandoned, hcounter]
    rfl

end Fill

/-! ### Holds (R182) -/

/-- A mark word with one hold fewer; CONCEALED and FILLED clear with the last hold of a free buffer. -/
def releasedWord (w : Nat) : Nat :=
  let w := w - 256
  if w % 8 = 0 && w / 256 % 16 = 0 then w - w / 8 % 4 * 8 else w

/-- One hold fewer, and the same ROLE. -/
theorem releasedWord_shows {w : Nat} (h : 0 < markHold w) :
    releasedWord w < w ∧ markHold (releasedWord w) = markHold w - 1 ∧ markRole (releasedWord w) = markRole w := by
  unfold markHold at h
  obtain ⟨u, rfl⟩ : ∃ u, w = u + 256 := ⟨w - 256, by omega⟩
  have hx : releasedWord (u + 256) = u ∨ u % 8 = 0 ∧ u / 256 % 16 = 0 ∧ releasedWord (u + 256) = u - u / 8 % 4 * 8 := by
    rw [releasedWord, Nat.add_sub_cancel]
    by_cases hz : u % 8 = 0 ∧ u / 256 % 16 = 0
    · exact Or.inr ⟨hz.1, hz.2, if_pos (by simpa using hz)⟩
    · exact Or.inl (if_neg (by simpa using hz))
  unfold markHold markRole
  omega

theorem releaseHold_lowers {s : State} {a : Nat} (h : 0 < markHold (s.le a 4)) (who : Nat) :
    s.releaseHold who a = s.setLe a 4 (releasedWord (s.le a 4)) := if_neg (Nat.ne_of_gt h)

/-- A release with a hold to give back lowers HOLD by one and changes nothing but the mark word. -/
theorem holdRelease_lowers {s : State} (hp : s.poison = []) {a : Nat} (ha : a + 4 ≤ hbmBytes) (h : 0 < markHold (s.le a 4))
    (who : Sender) : Completes (exec (.holdRelease who a) s) fun t =>
      markHold (t.le a 4) = markHold (s.le a 4) - 1 ∧ markRole (t.le a 4) = markRole (s.le a 4) ∧ SameMemoryBut s t a 4 ∧
      t.regs = s.regs ∧ t.ctr = s.ctr := by
  obtain ⟨hlt, hhold, hrole⟩ := releasedWord_shows h
  have hw : releasedWord (s.le a 4) < 256 ^ 4 := hlt.trans (le_lt s a 4)
  have hd : DecodeOnly s (s.setLe a 4 (releasedWord (s.le a 4))) := (DecodeOnly.refl s).setLe
  refine ⟨_, congrArg Host.Outcome.next (releaseHold_lowers h (Sender.stamp who)), ?_⟩
  beta_reduce
  rw [le_setLe_hbm hp ha hw]
  exact ⟨hhold, hrole, sameMemoryBut_setLe s a 4 _, hd.regs, hd.ctr⟩

/-- A release that finds no hold is logged alone. -/
theorem holdRelease_underflow {s : State} {a : Nat} (h : markHold (s.le a 4) = 0) (who : Sender) :
    Completes (exec (.holdRelease who a) s) fun t => t.mem = s.mem :=
  ⟨_, congrArg Host.Outcome.next (if_pos h), log_mem s _ _ _ _ _ _⟩

/-! ### INJ_WD, and the request for a key picture (R191, R196) -/

/-- INJ_WD marks the engine named and no other. -/
theorem injWd_marks {s : State} {who : Sender} {e : Engine} (h : Serves s who (injectAddr e)) :
    Completes (exec (.injWd who e) s) fun t =>
      SMap.get false t.injected (consumer (engineUnit e).1 (engineUnit e).2) = true ∧ t = { s with injected := t.injected } ∧
      ∀ k, k ≠ consumer (engineUnit e).1 (engineUnit e).2 → SMap.get false t.injected k = SMap.get false s.injected k := by
  have hx : exec (.injWd who e) s =
      .next { s with injected := SMap.set false s.injected (consumer (engineUnit e).1 (engineUnit e).2) true } := by
    simp only [exec, execInjWd, access_served h]
  exact ⟨_, hx, get_set_same false s.injected _ true, rfl, fun _ hk => get_set_ne false false s.injected true hk⟩

/-- A stream that has waited a second for its key picture is reported to firmware again, and the second starts anew. -/
theorem firResend_reports {s : State} {ctx c : Nat} (ha : (s.codec ctx).asked = some c) (hc : c + secCycles ≤ s.cycle)
    (hst : s.ctxField ctx 0x20 1 ≠ 1) : Completes (exec (.firResend ctx) s) fun t =>
      t.out = .firmware 4 [ctx] :: s.out ∧ (t.codec ctx).asked = some s.cycle ∧ t = { s with codecs := t.codecs, out := t.out } := by
  have hx : exec (.firResend ctx) s =
      .next (({ s with codecs := SMap.set Codec.init s.codecs ctx { s.codec ctx with asked := some s.cycle } } : State).emit
        (.firmware 4 [ctx])) := by
    simp [exec, execFirResend, ha, State.passed, hc, hst]
  refine ⟨_, hx, rfl, ?_, rfl⟩
  rw [State.codec, emit_codecs, get_set_same]

end Sys2Proof.Laws
end

section
/-! The statements of chapter 5 about the video decode engines. -/

namespace Sys2Proof.Proofs

open Sys2Proof Sys2Proof.Machine Sys2Proof.Safety Sys2Proof.Laws

/-- Settles O22: a decode task locks its context and takes the lowest free buffer or ends with its reason; strips are published one by one in
order, and the end of the picture frees the engine and unlocks the stream. -/
theorem videoDecodeRunsPictureByPicture : Obligations.VideoDecodeRunsPictureByPicture := by
  refine ⟨fun s v pic n k au ctx b rest ht hk hidle hau hctx hvalid hunit hp hc hapart => ⟨?locked, ?unlocked⟩, ?strip, ?complete⟩
  case locked =>
    exact fun hl => DecodeTask.locked_ends ⟨⟨k, ht, hk, hau⟩, hidle, hctx, hvalid, hunit⟩ hl pic
  case unlocked =>
    intro hl hn hr hsets hex
    have h : NormalUnit s v n au ctx pic := ⟨⟨⟨k, ht, hk, hau⟩, hidle, hctx, hvalid, hunit⟩, hp, hc, hapart, hl, hn, hr, hsets, hex⟩
    refine ⟨h.noLayers_ends rfl, fun x hx hmiss => h.lacksSets_ends rfl ?lacks, ?starts⟩
    case lacks => simp [State.lacksSets, State.atTarget, hx, hmiss]
    case starts =>
      intro hu hlay hout hext hrasl hrefs hlists hgap hdrops hb
      obtain ⟨t, he, ⟨j, hj, hs⟩, hshows⟩ := h.picture_starts rfl hu hlay hout hext hrasl ⟨hrefs, hlists, hgap, hdrops, hex⟩ hb
      rw [armed_vde] at hs hshows
      exact ⟨t, he, ⟨j, hj, hs.slot, hs.ctx, hs.au, hs.info, hs.buf, hs.state, hs.strips, hs.attempt, hs.standins, hs.inject⟩, hshows⟩
  case strip =>
    exact fun s v j luma chroma lost cycles hj =>
      ⟨fun hc => ⟨s, stripPublished_late hj hc, rfl⟩, fun hf hn hk hc => stripPublished_publishes hj hf hn hk hc⟩
  case complete =>
    intro s v j f hj hf hn hc hst hg hsi hr ha hs hp hm
    have h : EndsInTime s v j f := ⟨hj, hf, hn, hc, hst, hg, hsi, hr, ha, hs, hp, hm⟩
    exact ⟨h.clean_ends, h.broken_ends⟩

/-- Settles O23: the mark of INJ_WD, a first and a second expiry, a fill for a fenced engine, a hold released or not there, and the report of a
stream that waits for its key picture. -/
theorem videoDecodeRetriesFillsAndReleases : Obligations.VideoDecodeRetriesFillsAndReleases := by
  refine ⟨fun s who e h => injWd_marks h, fun s v j cycles hj hn he => ⟨fun hf hc => ⟨s, watchdog_early hj hf hc, rfl⟩, fun hx => ?expires⟩,
    ?fill, fun s who a ha hp => ⟨fun h => holdRelease_lowers hp ha h who, fun h => holdRelease_underflow h who⟩,
    fun s ctx c ha hc hst => firResend_reports ha hc hst⟩
  case expires =>
    have hexec := watchdog_expires hj hn he hx
    refine ⟨fun h1 => ?first, fun h2 => ?second⟩
    case first =>
      rw [if_pos h1] at hexec
      exact ⟨_, hexec, watchdog_first s v _ cycles⟩
    case second =>
      rw [if_neg (by rw [h2]; decide)] at hexec
      exact ⟨_, hexec, _, rfl, engineLost_shows v.isLt hn cycles j.slot⟩
  case fill =>
    intro s v w n k j cycles hk hd hvw hi hl hj hf hs hc hp hm
    have h : FillsLost s v w n j := ⟨⟨k, hk, hd, hc⟩, hi, hc ▸ hl, hj, hf, hs⟩
    exact h.fill_ends hvw hp hm cycles

end Sys2Proof.Proofs
end

section
/-! SUPPORT. What the engines of chapter 6 share: the parts of the state that a store leaves, a fence, and the publication of a strip as the
passes of the Compose Engines see it. -/

namespace Sys2Proof.Laws

open Sys2Proof Sys2Proof.Machine Sys2Proof.Safety

/-! ### What a store leaves -/

section Stores

variable {s t : State}

theorem DecodeOnly.cmps (h : DecodeOnly s t) : t.cmps = s.cmps := by rw [h.frame]
theorem DecodeOnly.vees (h : DecodeOnly s t) : t.vees = s.vees := by rw [h.frame]
theorem DecodeOnly.encs (h : DecodeOnly s t) : t.encs = s.encs := by rw [h.frame]

theorem DecodeOnly.taskId (h : DecodeOnly s t) (n : Nat) : t.taskId n = s.taskId n := by rw [State.taskId, State.taskAt, h.hts]; rfl

theorem DecodeOnly.passRecord {desc : List Byte} {status flags strips : Nat} {lf : List Nat} {cycles waits : Nat} (h : DecodeOnly s t) :
    DecodeOnly s (t.passRecord desc status flags strips lf cycles waits) := .ite h.writeRecord h

end Stores

/-! ### A fence (R582) -/

/-- An entry of the log counts in Squall alone. -/
theorem log_counter_below (s : State) (unit inst sev event p0 p1 : Nat) {a : Nat} (h : a < 0xF00000) :
    (s.log unit inst sev event p0 p1).counter a = s.counter a := by
  refine log_leaves (fun t => t.counter a) s unit inst sev event p0 p1 rfl (fun e => ?_) (fun t => ?_) fun t => rfl
  · dsimp only [State.writeEntry]
    split <;> exact counter_count_ne _ 1 (by omega)
  · rw [devEvent_frame]
    rfl

/-- What no register, island, entry of the log or lasting fault shows, a fence leaves. -/
theorem fence_leaves {β : Type} (p : State → β) (hr : ∀ (t : State) (f : Fld) (v : Nat), p (t.put f v) = p t)
    (hi : ∀ (t : State) (m : SMap LullState), p { t with islands := m } = p t)
    (hl : ∀ (t : State) (unit inst sev event p0 p1 : Nat), p (t.log unit inst sev event p0 p1) = p t)
    (hd : ∀ (t : State) (b : Bool), p { t with deviceFatal := b } = p t) (s : State) (unit inst row param : Nat) :
    p (s.fence unit inst row param) = p s := by
  have hset (t : State) (i : Nat) (l : LullState) : p (t.setIsland i l) = p t := by
    unfold State.setIsland
    split <;> simp only [hi, State.putBit, hr]
  have hgate (t : State) : p (t.gateOwnIsland unit inst) = p t := by
    unfold State.gateOwnIsland
    split
    exacts [hset _ _ _, rfl]
  unfold State.fence State.fenceWith
  extract_lets shown s₁ s₂ s₃ y s₄ s₅
  have h₂ : p s₂ = p s := by
    unfold s₂
    split <;> simp only [s₁, State.putBit, hr]
  have h₄ : p s₄ = p s := by
    unfold s₄
    split <;> simp only [y, hd, hl, s₃, hgate, h₂]
  split
  · rfl
  · simp only [s₅, State.putBit, hr, h₄]

/-- A fence changes neither memory nor the scheduler's tables, nor what the encode engines hold. -/
theorem fence_keeps (s : State) (unit inst row param : Nat) :
    (s.fence unit inst row param).mem = s.mem ∧ (s.fence unit inst row param).hts = s.hts ∧
    (s.fence unit inst row param).vees = s.vees ∧ (s.fence unit inst row param).encs = s.encs := by
  have h := fence_leaves (fun t => (t.mem, t.hts, t.vees, t.encs)) (fun _ _ _ => rfl) (fun _ _ => rfl)
    (fun t _ _ _ _ _ _ => by rw [log_only]) (fun _ _ => rfl) s unit inst row param
  simpa only [Prod.mk.injEq] using h

theorem fence_counter (s : State) (unit inst row param : Nat) {a : Nat} (h : a < 0xF00000) :
    (s.fence unit inst row param).counter a = s.counter a :=
  fence_leaves (fun t => t.counter a) (fun _ _ _ => rfl) (fun _ _ => rfl) (fun t _ _ _ _ _ _ => log_counter_below t _ _ _ _ _ _ h)
    (fun _ _ => rfl) s unit inst row param

/-- The registers of SQL_FENCE_u lie above the others that a fence writes. -/
theorem fenceField_addr (unit inst : Nat) : 0xF00200 ≤ (fenceField unit inst).addr := by
  simp only [fenceField, R.SQL_FENCE_INSTANCES]
  omega

theorem lullBit_addr {i : Nat} {f : Fld} (h : lullBit i = some f) : f.addr < 0xF00200 := by
  unfold lullBit at h
  split_ifs at h with h₁ h₂ h₃ h₄ h₅ <;> simp only [Option.some.injEq] at h <;> subst h <;>
    simp only [R.VDE_STATUS_LULL, R.VEE_STATUS_LULL, R.CMP_STATUS_LULL, R.TSP_STATUS_LULL, R.DSC_STATUS_LULL, Bool.and_eq_true,
      decide_eq_true_eq] at * <;> omega

/-- A register of SQL_FENCE_u is written by step 1 alone. -/
theorem gateOwnIsland_fences (s : State) (unit inst : Nat) {a : Nat} (ha : 0xF00200 ≤ a) :
    (s.gateOwnIsland unit inst).reg a = s.reg a := by
  unfold State.gateOwnIsland
  split
  · unfold State.setIsland
    split
    next f h => exact reg_put_ne s f _ (by have := lullBit_addr h; omega)
    next => rfl
  · rfl

/-- After a fence the instance is fenced, where its own FENCED bit lies in its block. -/
theorem fence_fences (s : State) {unit inst : Nat} (hb : ∀ f, fencedBit unit inst = some f → f.addr < 0xF00200) (row param : Nat) :
    (s.fence unit inst row param).isFenced unit inst = true := by
  have ha := fenceField_addr unit inst
  have hlog (t : State) (u i sev event p0 p1 : Nat) : (t.log u i sev event p0 p1).reg (fenceField unit inst).addr =
      t.reg (fenceField unit inst).addr :=
    log_reg _ _ _ _ _ _ _ _ (by simp only [R.SQL_SUPPRESSED_COUNT]; omega) (by simp only [R.SQL_STATUS_WRAPPED]; omega)
      (by simp only [R.SQL_ALERT_CAUSE_FATAL]; omega)
  by_cases h : s.isFenced unit inst = true
  · rw [fence_again s unit inst row param h, h]
  have hset := isSet_putBit_same s (fenceField unit inst) true (Nat.mod_lt inst (show 0 < 32 by decide)) rfl
  rw [State.fence, State.fenceWith, if_neg h]
  extract_lets shown s₁ s₂ s₃ y s₄ s₅
  have h₂ : s₂.reg (fenceField unit inst).addr = s₁.reg (fenceField unit inst).addr := by
    unfold s₂
    split
    next f e => exact reg_put_ne s₁ f _ (by have := hb f e; omega)
    next => rfl
  have h₄ : s₄.reg (fenceField unit inst).addr = s₃.reg (fenceField unit inst).addr := by
    unfold s₄
    split <;> exact hlog s₃ _ _ _ _ _ _
  have h₅ : (s₅.put R.SQL_FENCED_UNITS_COUNT (s₅.get R.SQL_FENCED_UNITS_COUNT + 1)).reg (fenceField unit inst).addr =
      s₁.reg (fenceField unit inst).addr :=
    (reg_put_ne _ _ _ (by simp only [R.SQL_FENCED_UNITS_COUNT]; omega)).trans <|
      (reg_put_ne _ _ _ (by simp only [R.SQL_ALERT_CAUSE_FENCE]; omega)).trans <|
        h₄.trans <| (gateOwnIsland_fences s₂ unit inst ha).trans h₂
  rw [isFenced_eq_isSet, State.isSet, State.get, h₅]
  exact hset

/-! ### What the publication of a strip leaves of the passes (R207, R436)

`PassesKept` chains as `Keeps` does. -/

/-- Which CMP has a pass, and of which slot. -/
def passSlot (e : Nat × Option CmpJob) : Nat × Option Nat := (e.1, e.2.map CmpJob.slot)

/-- From `s` to `t` no register of Squall changes, and each CMP keeps the pass of its slot. -/
structure PassesKept (s t : State) : Prop where
  squall : ∀ a, 0xF00000 ≤ a → t.reg a = s.reg a
  slots : t.cmps.map passSlot = s.cmps.map passSlot

theorem leVal_slice_lt (bs : List Byte) {a b n : Nat} (h : b - a ≤ n) : leVal (slice bs a b) < 256 ^ n := by
  refine (leVal_lt _).trans_le (Nat.pow_le_pow_right (by decide) ?_)
  simp only [slice, List.length_drop, List.length_take]
  omega

/-- The registers of a queue that a task's CQ can name lie below Squall's. -/
theorem queueReg_below {a n : Nat} (ha : a < 0x320000) (hn : n < 65536) : a + n * 0x20 < 0xF00000 := by omega

theorem kindGroup_le (k : Nat) : kindGroup k ≤ 6 := by
  unfold kindGroup
  split_ifs <;> decide

theorem readyTasks_below (t : Task) : (R.HTS_READY_TASKS t.queue).addr < 0xF00000 := by
  have hg := kindGroup_le t.kind
  have hp : t.prio < 8 := Nat.mod_lt _ (by decide)
  simp only [R.HTS_READY_TASKS, Task.queue]
  omega

section Passes

variable {s t u : State}

theorem PassesKept.refl (s : State) : PassesKept s s := ⟨fun _ _ => rfl, rfl⟩

theorem PassesKept.trans (h : PassesKept s t) (k : PassesKept t u) : PassesKept s u :=
  ⟨fun a ha => (k.squall a ha).trans (h.squall a ha), k.slots.trans h.slots⟩

theorem PassesKept.ite {c : Prop} [Decidable c] (h : PassesKept s t) (k : PassesKept s u) : PassesKept s (if c then t else u) := by
  split
  · exact h
  · exact k

theorem PassesKept.others (h : PassesKept s t) (hr : u.regs = t.regs) (hc : u.cmps = t.cmps) : PassesKept s u :=
  h.trans ⟨fun a _ => by rw [State.reg, hr, State.reg], by rw [hc]⟩

theorem PassesKept.stored (h : PassesKept s t) (d : DecodeOnly t u) : PassesKept s u := h.others d.regs d.cmps

theorem PassesKept.put {f : Fld} {x : Nat} (h : PassesKept s t) (hf : f.addr < 0xF00000) : PassesKept s (t.put f x) :=
  h.trans ⟨fun _ ha => reg_put_ne t f x (by omega), rfl⟩

theorem PassesKept.count {a n : Nat} (h : PassesKept s t) : PassesKept s (t.count a n) := h.others rfl rfl
theorem PassesKept.setTask {n : Nat} {k : Task} (h : PassesKept s t) : PassesKept s (t.setTask n k) := h.others rfl rfl
theorem PassesKept.noteReady {k : Task} (h : PassesKept s t) : PassesKept s (t.noteReady k) := h.others rfl rfl
theorem PassesKept.emitAll {os : List Output} (h : PassesKept s t) : PassesKept s (t.emitAll os) := h.others rfl rfl

/-- A notice changes what a pass has seen, not whose pass it is. -/
theorem PassesKept.noticePasses {id count buf : Nat} (h : PassesKept s t) : PassesKept s (t.noticePasses id count buf) := by
  refine h.trans ⟨fun _ _ => rfl, ?_⟩
  rw [State.noticePasses, List.map_map]
  refine List.map_congr_left fun e _ => ?_
  simp [passSlot, Function.comp_def, CmpJob.notice]

theorem PassesKept.unready {k : Task} (h : PassesKept s t) : PassesKept s (t.unready k) :=
  .ite (h.put (readyTasks_below k)).noteReady h

theorem PassesKept.freeSlot {n : Nat} (h : PassesKept s t) : PassesKept s (t.freeSlot n) := h.setTask.put (by decide)

theorem PassesKept.trace {task consumer reason effort val : Nat} (h : PassesKept s t) :
    PassesKept s (t.trace task consumer reason effort val) := by
  have hb {a : Nat} {bs : List Byte} : PassesKept s (t.setBytes a bs) := h.stored (DecodeOnly.refl t).setBytes
  exact .ite h <| .ite ((hb.put (by decide)).put (by decide)) (hb.put (by decide))

section Queues

variable {n : Nat} (hn : n < 65536)

include hn

theorem PassesKept.setQueue {q : StreamQueue} (h : PassesKept s t) : PassesKept s (t.setQueue n q) :=
  ((((h.others (u := { t with queues := SMap.set StreamQueue.init t.queues n q }) rfl rfl).put (queueReg_below (by decide) hn)).put
    (queueReg_below (by decide) hn)).put (queueReg_below (by decide) hn)).put (queueReg_below (by decide) hn)

theorem PassesKept.rewind {eop : Bool} (h : PassesKept s t) : PassesKept s (t.rewind n eop) :=
  (h.setQueue hn).put (queueReg_below (by decide) hn)

theorem PassesKept.overrun {w : QWord} (h : PassesKept s t) : PassesKept s (t.overrun n w) :=
  ((h.put (f := R.BPM_Qq_STAT_OVERRUN n) (queueReg_below (by decide) hn)).rewind hn).put (queueReg_below (by decide) hn)

theorem PassesKept.judgeOrder (h : PassesKept s t) : PassesKept s (t.judgeOrder n) := by
  obtain e | ⟨b, e⟩ := judgeOrder_cases t n
  · rwa [e]
  · rw [e]
    exact h.put (queueReg_below (by decide) hn)

theorem PassesKept.writeWord {w : QWord} {o : WordOwner} (h : PassesKept s t) : PassesKept s (t.writeWord n w o).1 := by
  unfold State.writeWord
  extract_lets q x
  split_ifs
  exacts [h, h.setQueue hn, h.setQueue hn, h.setQueue hn, h.overrun hn, h.rewind hn, (h.setQueue hn).judgeOrder hn, h.setQueue hn]

theorem PassesKept.postEvent {a : Nat} {data : List Byte} (h : PassesKept s t) : PassesKept s (t.postEvent n a data) := by
  have hpost : PassesKept s (t.post n 0 data).1 := by
    have hw := h.writeWord hn (w := ⟨data, true, true, false, 0⟩) (o := .entry)
    unfold State.post
    split <;> next e => rwa [e] at hw
  exact .ite h <| .ite hpost hpost.count

end Queues

theorem PassesKept.finishTask {n status cons : Nat} (h : PassesKept s t) : PassesKept s (t.finishTask n status cons) := by
  unfold State.finishTask
  extract_lets k id late s₁ s₂ s₃ s₄ s₅ flags s₆
  have h₂ : PassesKept s s₂ := h.unready.count
  have h₃ : PassesKept s s₃ := .ite h₂.count <| .ite h₂.count <| .ite h₂.count h₂
  have h₄ : PassesKept s s₄ := .ite h₃.count h₃
  exact (h₄.trace.postEvent (leVal_slice_lt (n := 2) k.desc (by decide))).freeSlot

theorem PassesKept.fire {fuel : Nat} {ids : List Nat} (h : PassesKept s t) : PassesKept s (t.fire fuel ids) := by
  induction fuel generalizing t ids with
  | zero => unfold State.fire; exact h
  | succ fuel ih =>
    cases ids with
    | nil => exact h
    | cons id ids =>
      unfold State.fire
      split
      · exact ih h
      · have hr {n : Nat} {k : Task} : PassesKept s (((t.setTask n k).trace id htsConsumer 1 0 0).bump (R.HTS_READY_TASKS k.queue)) :=
          h.setTask.trace.put (readyTasks_below k)
        refine .ite (ih h) (.ite (ih h.setTask) ?_)
        exact .ite (ih h.setTask.trace.setTask.finishTask) (.ite (ih hr.finishTask) (ih hr))

theorem PassesKept.publishStrip {id count buf : Nat} (h : PassesKept s t) : PassesKept s (t.publishStrip id count buf) := by
  unfold State.publishStrip
  split
  exacts [h, .ite h.setTask.noticePasses.emitAll.fire h.setTask.noticePasses.emitAll]

/-- A fenced CMP stays the one that left the slot's pass. -/
theorem PassesKept.lostPass (h : PassesKept s t) (n : Nat) : (t.lostPass n).map Prod.fst = (s.lostPass n).map Prod.fst := by
  have hf (i : Nat) : t.isFenced Unit.cmp i = s.isFenced Unit.cmp i := by
    rw [State.isFenced, State.get, h.squall _ (by simp only [R.SQL_FENCE_INSTANCES]; omega)]
    rfl
  have hslots (r : State) : (r.lostPass n).map Prod.fst = (r.cmps.map passSlot).findSome? fun e =>
      e.2.bind fun m => if m == n && r.isFenced Unit.cmp e.1 then some e.1 else none := by
    rw [State.lostPass, List.map_findSome?, List.findSome?_map]
    congr 1
    funext e
    obtain ⟨i, _ | j⟩ := e
    · rfl
    · exact apply_ite (Option.map Prod.fst) _ _ _
  rw [hslots, hslots, h.slots]
  simp only [hf]

end Passes

end Sys2Proof.Laws
end

section
/-! SUPPORT. The Compose Engines (R202 to R211, R227, R228): what the start of a pass, a strip, the end of a pass, an expiry and a fill come
to. -/

namespace Sys2Proof.Laws

open Sys2Proof Sys2Proof.Machine Sys2Proof.Safety

/-! ### The start of a pass (R202, R209, R227) -/

/-- An idle CMP has a compose task or a fill of kind `kind`, whose descriptors read as the pass `j`. -/
structure ComposeTask (s : State) (c : Fin 4) (n kind : Nat) (j : CmpJob) : Prop where
  given : ∃ k, s.engineTask 2 c = some (n, k) ∧ k.kind = kind ∧ j = s.readPass n k.descAddr
  idle : s.cmpJob c = none

/-- The CMP takes the pass, and with it the mark of INJ_WD. -/
def passTaken (s : State) (c : Fin 4) (j : CmpJob) : State :=
  (s.setCmpJob c (some { j with inject := s.armed 2 c })).disarm 2 c

/-- The CMP's registers show the pass: its descriptor, no cycles yet, and the budget. -/
def passShown (s : State) (c addr samples : Nat) : State :=
  let s := (s.putPair (R.CMP_CUR_DESC_LO_ADDR c) (R.CMP_CUR_DESC_HI_ADDR c) addr).put (R.CMP_CUR_CYCLES_CYCLES c) 0
  s.put (R.CMP_CUR_BUDGET_CYCLES c) (min (2 ^ 32 - 1) (s.get (R.CMP_WD_SCALE_SCALE c) * (50000 + samples)))

/-- BUSY shows whether the CMP has a pass. -/
theorem setCmpJob_busy (s : State) (c : Nat) (j : Option CmpJob) : (s.setCmpJob c j).isSet (R.CMP_STATUS_BUSY c) = j.isSome :=
  isSet_putBit_same s _ _ (Nat.le_of_ble_eq_true rfl) rfl

@[simp] theorem setCmpJob_job (s : State) (c : Nat) (j : Option CmpJob) : (s.setCmpJob c j).cmpJob c = j := get_set_same _ _ _ _

/-- A CMP's job is a matter of its own. -/
theorem setCmpJob_leaves (s : State) (c : Nat) (j : Option CmpJob) :
    (s.setCmpJob c j).mem = s.mem ∧ (s.setCmpJob c j).hts = s.hts ∧ (s.setCmpJob c j).ctr = s.ctr ∧
    (s.setCmpJob c j).injected = s.injected := ⟨rfl, rfl, rfl, rfl⟩

theorem setCmpJob_get (s : State) (c : Nat) (j : Option CmpJob) {f : Fld} {a : Nat} (hf : f.addr = a + c * 0x10000)
    (ha : a ≠ 0xA00008) : (s.setCmpJob c j).get f = s.get f := get_put_ne s _ _ _ (hf ▸ perEngine_ne ha c)

section Start

variable {s : State} {c : Fin 4} {n : Nat} {j : CmpJob}

theorem ComposeTask.exec_descBad (h : ComposeTask s c n 3 j) (hd : (passOk j.desc && j.layers.all s.layerOk) = false) :
    exec (.composePass c) s = .next (s.refusePass c n St.cmpDescBad j.desc) := by
  obtain ⟨⟨k, hk, hkind, rfl⟩, hi⟩ := h
  rw [← Bool.not_eq_true', Bool.not_and] at hd
  simp only [exec, execComposePass, hk, hi, hkind, bne_self_eq_false, Bool.false_eq_true, if_false, hd, if_true]

theorem ComposeTask.exec_scale (h : ComposeTask s c n 3 j) (hd : (passOk j.desc && j.layers.all s.layerOk) = true)
    (hs : j.layers.all scaleOk = false) : exec (.composePass c) s = .next (s.refusePass c n St.cmpScale j.desc) := by
  obtain ⟨⟨k, hk, hkind, rfl⟩, hi⟩ := h
  obtain ⟨hp, hl⟩ := Bool.and_eq_true_iff.1 hd
  simp only [exec, execComposePass, hk, hi, hkind, bne_self_eq_false, Bool.false_eq_true, if_false, hp, hl, hs, Bool.not_true,
    Bool.or_false, Bool.not_false, if_true]

theorem ComposeTask.exec_starts (h : ComposeTask s c n 3 j) (hd : (passOk j.desc && j.layers.all s.layerOk) = true)
    (hs : j.layers.all scaleOk = true) : exec (.composePass c) s =
      .next (passShown (passTaken s c j) c j.addr ((passSize j.desc).1 * (passSize j.desc).2)) := by
  obtain ⟨⟨k, hk, hkind, rfl⟩, hi⟩ := h
  obtain ⟨hp, hl⟩ := Bool.and_eq_true_iff.1 hd
  simp only [exec, execComposePass, hk, hi, hkind, bne_self_eq_false, Bool.false_eq_true, if_false, hp, hl, hs, Bool.not_true,
    Bool.or_false]
  rfl

/-- A refused pass is counted, and its CMP takes no job. -/
theorem refusePass_ends (s : State) (c n status : Nat) (desc : List Byte) : ∃ u : State,
    s.refusePass c n status desc = u.unitComplete n status (0x3020 + c) [] ∧ u.cmps = s.cmps ∧ u.hts = s.hts ∧ u.regs = s.regs ∧
    u.counter (R.C_CMP_REFUSED c) = (s.counter (R.C_CMP_REFUSED c) + 1) % 2 ^ 64 := by
  have hr : DecodeOnly s (s.passRecord desc status 0 0 [] 0 0) := (DecodeOnly.refl s).passRecord
  rw [State.refusePass]
  generalize s.passRecord desc status 0 0 [] 0 0 = r at hr ⊢
  refine ⟨_, rfl, hr.cmps, hr.hts, hr.regs, ?_⟩
  rw [counter_count_same, hr.counter]

theorem passTaken_shows (s : State) (c : Fin 4) (j : CmpJob) :
    (passTaken s c j).cmpJob c = some { j with inject := s.armed 2 c } ∧ (passTaken s c j).injected = (s.disarm 2 c).injected ∧
    (passTaken s c j).isSet (R.CMP_STATUS_BUSY c) = true ∧
    (passTaken s c j).get (R.CMP_WD_SCALE_SCALE c) = s.get (R.CMP_WD_SCALE_SCALE c) ∧ (passTaken s c j).mem = s.mem ∧
    (passTaken s c j).hts = s.hts ∧ (passTaken s c j).ctr = s.ctr := by
  have hj := setCmpJob_job s c (some { j with inject := s.armed 2 c })
  have hb := setCmpJob_busy s c (some { j with inject := s.armed 2 c })
  have hg := setCmpJob_get s c (some { j with inject := s.armed 2 c }) (f := R.CMP_WD_SCALE_SCALE c) (a := 0xA00010) rfl (by decide)
  obtain ⟨hm, hh, hk, hi⟩ := setCmpJob_leaves s c (some { j with inject := s.armed 2 c })
  unfold passTaken State.disarm
  rw [← hi]
  generalize s.setCmpJob c (some { j with inject := s.armed 2 c }) = t at *
  exact ⟨hj, rfl, hb, hg, hm, hh, hk⟩

theorem passShown_leaves (s : State) (c addr samples : Nat) :
    (passShown s c addr samples).cmps = s.cmps ∧ (passShown s c addr samples).injected = s.injected ∧
    (passShown s c addr samples).mem = s.mem ∧ (passShown s c addr samples).hts = s.hts ∧ (passShown s c addr samples).ctr = s.ctr := by
  simp only [passShown, put_cmps, put_injected, put_mem, put_hts, put_ctr, putPair_cmps, putPair_injected, putPair_mem, putPair_hts,
    putPair_ctr, and_self]

/-- BUSY stands in none of the registers that show the pass. -/
theorem passShown_busy (s : State) (c addr samples : Nat) :
    (passShown s c addr samples).isSet (R.CMP_STATUS_BUSY c) = s.isSet (R.CMP_STATUS_BUSY c) := by
  have hne {a : Nat} (ha : 0xA00008 ≠ a) : (R.CMP_STATUS_BUSY c).addr ≠ a + c * 0x10000 := perEngine_ne ha c
  exact congrArg (· == 1) <| (get_put_ne _ _ _ _ (hne (by decide))).trans <| (get_put_ne _ _ _ _ (hne (by decide))).trans <|
    (get_put_ne _ _ _ _ (hne (by decide))).trans (get_put_ne _ _ _ _ (hne (by decide)))

theorem passShown_budget (s : State) (c addr samples : Nat) : (passShown s c addr samples).get (R.CMP_CUR_BUDGET_CYCLES c) =
    min (2 ^ 32 - 1) (s.get (R.CMP_WD_SCALE_SCALE c) * (50000 + samples)) := by
  have hne {a : Nat} (ha : 0xA00010 ≠ a) : (R.CMP_WD_SCALE_SCALE c).addr ≠ a + c * 0x10000 := perEngine_ne ha c
  have hscale : ((s.putPair (R.CMP_CUR_DESC_LO_ADDR c) (R.CMP_CUR_DESC_HI_ADDR c) addr).put (R.CMP_CUR_CYCLES_CYCLES c) 0).get
      (R.CMP_WD_SCALE_SCALE c) = s.get (R.CMP_WD_SCALE_SCALE c) :=
    (get_put_ne _ _ _ _ (hne (by decide))).trans <| (get_put_ne _ _ _ _ (hne (by decide))).trans (get_put_ne _ _ _ _ (hne (by decide)))
  refine (get_put_same _ _ _ (Nat.le_of_ble_eq_true rfl)).trans ?_
  rw [hscale]
  exact Nat.mod_eq_of_lt ((min_le_left _ _).trans_lt (show 2 ^ 32 - 1 < 2 ^ 32 by decide))

/-- A pass that is taken becomes the CMP's job, with its budget; memory, tasks and counters are as they were. -/
theorem ComposeTask.starts (h : ComposeTask s c n 3 j) (hd : (passOk j.desc && j.layers.all s.layerOk) = true)
    (hs : j.layers.all scaleOk = true) : Completes (exec (.composePass c) s) fun t =>
      t.cmpJob c = some { j with inject := s.armed 2 c } ∧ t.injected = (s.disarm 2 c).injected ∧
      t.isSet (R.CMP_STATUS_BUSY c) = true ∧ t.mem = s.mem ∧ t.hts = s.hts ∧ t.ctr = s.ctr ∧
      t.get (R.CMP_CUR_BUDGET_CYCLES c) = min (2 ^ 32 - 1)
        (s.get (R.CMP_WD_SCALE_SCALE c) * (50000 + (passSize j.desc).1 * (passSize j.desc).2)) := by
  obtain ⟨hj, hi, hb, hg, hm, hh, hk⟩ := passTaken_shows s c j
  have he := h.exec_starts hd hs
  generalize passTaken s c j = q at *
  obtain ⟨hc', hi', hm', hh', hk'⟩ := passShown_leaves q c j.addr ((passSize j.desc).1 * (passSize j.desc).2)
  have hb' := passShown_busy q c j.addr ((passSize j.desc).1 * (passSize j.desc).2)
  have hg' := passShown_budget q c j.addr ((passSize j.desc).1 * (passSize j.desc).2)
  rw [hg] at hg'
  exact ⟨_, he, (congrArg (fun m => SMap.get none m c.val) hc').trans hj, hi'.trans hi, hb'.trans hb, hm'.trans hm, hh'.trans hh,
    hk'.trans hk, hg'⟩

end Start

/-! ### Strips (R203 to R210) -/

/-- A CMP in service has the pass `j`, which no mark of INJ_WD makes expire. -/
structure Composes (s : State) (c : Fin 4) (j : CmpJob) : Prop where
  job : s.cmpJob c = some j
  notFailing : j.failing = false
  notFenced : s.isFenced Unit.cmp c = false

section Strips

variable {s : State} {c : Fin 4} {j : CmpJob}

/-- A pass waits for the source of any of its layers. -/
theorem Composes.strip_waits (h : Composes s c j) {i : Nat} (hi : i < j.layers.length) (hw : s.layerSource j i j.strips = none) :
    exec (.composeStrip c) s = .next s := by
  have hany : (((List.range j.layers.length).map fun i => s.layerSource j i j.strips).any Option.isNone) = true :=
    List.any_eq_true.2 ⟨none, List.mem_map.2 ⟨i, List.mem_range.2 hi, hw⟩, rfl⟩
  simp only [exec, execComposeStrip, h.job, hany, Bool.or_true, if_true]

/-- With every source there, the next strip is written, sent to the linked encodes and published. -/
theorem Composes.exec_strip (h : Composes s c j) (hk : j.strips < stripsOf (passSize j.desc).2)
    (hs : ∀ i, i < j.layers.length → (s.layerSource j i j.strips).isSome = true) :
    ∃ (r : State) (flags drawn : List Nat), DecodeOnly s r ∧ exec (.composeStrip c) s =
      .next (((r.sendStrip (passLinks j.desc) j.strips).setCmpJob c
        (some { j with strips := j.strips + 1, flags := flags, drawn := drawn })).publishStrip (r.taskId j.slot) (j.strips + 1) 0) := by
  have hany : (((List.range j.layers.length).map fun i => s.layerSource j i j.strips).any Option.isNone) = false := by
    refine List.any_eq_false.2 fun x hx => ?_
    obtain ⟨i, hi, rfl⟩ := List.mem_map.1 hx
    have := hs i (List.mem_range.1 hi)
    simpa [Option.isSome_iff_ne_none] using this
  simp only [exec, execComposeStrip, h.job, h.notFailing, h.notFenced, hany, Nat.not_le.2 hk, decide_false, Bool.or_false,
    Bool.false_eq_true, if_false]
  exact ⟨_, _, _, (DecodeOnly.refl s).writeStrip, rfl⟩

theorem Composes.strip_publishes (h : Composes s c j) (hk : j.strips < stripsOf (passSize j.desc).2)
    (hs : ∀ i, i < j.layers.length → (s.layerSource j i j.strips).isSome = true) : Completes (exec (.composeStrip c) s) fun t =>
      ∃ u : State, t = u.publishStrip (s.taskId j.slot) (j.strips + 1) 0 ∧ u.hts = s.hts ∧ u.ctr = s.ctr ∧
        ∃ j', u.cmpJob c = some j' ∧ j'.strips = j.strips + 1 ∧ j'.desc = j.desc ∧ j'.layers = j.layers := by
  obtain ⟨r, flags, drawn, hr, he⟩ := h.exec_strip hk hs
  obtain ⟨-, hh, hc, -⟩ := setCmpJob_leaves (r.sendStrip (passLinks j.desc) j.strips) c
    (some { j with strips := j.strips + 1, flags := flags, drawn := drawn })
  exact ⟨_, he, _, by rw [hr.taskId], hh.trans hr.hts, hc.trans hr.ctr, _, setCmpJob_job _ _ _, rfl, rfl, rfl⟩

end Strips

/-! ### The end of a pass (R210, R211) -/

/-- The CMP's counts of a pass, its cycles and the fills among its layers. -/
def passCounted (s : State) (c pixels cycles waits fills : Nat) : State :=
  let s := ((s.count (R.C_CMP_PASSES c)).count (R.C_CMP_PIXELS c) pixels).count (R.C_CMP_BUSY_CYCLES c) cycles
  ((s.count (R.C_CMP_WAIT_CYCLES c) waits).count (R.C_CMP_FILL_LAYERS c) fills).put (R.CMP_CUR_CYCLES_CYCLES c) cycles

theorem passCounted_hts (s : State) (c pixels cycles waits fills : Nat) : (passCounted s c pixels cycles waits fills).hts = s.hts := by
  simp only [passCounted, put_hts, count_hts]

theorem passCounted_passes (s : State) (c pixels cycles waits fills : Nat) :
    (passCounted s c pixels cycles waits fills).counter (R.C_CMP_PASSES c) = (s.counter (R.C_CMP_PASSES c) + 1) % 2 ^ 64 := by
  have hx : R.C_CMP_PASSES c ≠ R.C_CMP_PIXELS c := perEngine_ne (by decide) c
  have hb : R.C_CMP_PASSES c ≠ R.C_CMP_BUSY_CYCLES c := perEngine_ne (by decide) c
  have hw : R.C_CMP_PASSES c ≠ R.C_CMP_WAIT_CYCLES c := perEngine_ne (by decide) c
  have hf : R.C_CMP_PASSES c ≠ R.C_CMP_FILL_LAYERS c := perEngine_ne (by decide) c
  simp [passCounted, counter_count_ne, hx, hb, hw, hf]

section Ends

variable {s : State} {c : Fin 4} {j : CmpJob} {cycles waits : Nat}

theorem Composes.exec_complete (h : Composes s c j) (hk : stripsOf (passSize j.desc).2 ≤ j.strips)
    (hc : cycles ≤ s.get (R.CMP_CUR_BUDGET_CYCLES c)) (ha : j.attempt = 1) : ∃ (r : State) (pixels fills : Nat), DecodeOnly s r ∧
      exec (.composeComplete c cycles waits) s =
        .next (((passCounted r c pixels cycles waits fills).setCmpJob c none).unitComplete j.slot St.ok (0x3020 + c) j.drawn) := by
  simp only [exec, execComposeComplete, h.job, h.notFailing, h.notFenced, Nat.not_lt.2 hk, Nat.not_lt.2 hc, ha, decide_false,
    Bool.or_false, Bool.false_eq_true, if_false, Nat.reduceEqDiff]
  exact ⟨_, _, _, (DecodeOnly.refl s).passRecord, rfl⟩

/-- A pass whose strips are all out completes, with the buffers that it drew released. -/
theorem Composes.pass_ends (h : Composes s c j) (hk : stripsOf (passSize j.desc).2 ≤ j.strips)
    (hc : cycles ≤ s.get (R.CMP_CUR_BUDGET_CYCLES c)) (ha : j.attempt = 1) :
    Completes (exec (.composeComplete c cycles waits) s) fun t => ∃ u : State,
      t = u.unitComplete j.slot St.ok (0x3020 + c) j.drawn ∧ u.cmpJob c = none ∧ u.isSet (R.CMP_STATUS_BUSY c) = false ∧ u.hts = s.hts ∧
      u.counter (R.C_CMP_PASSES c) = (s.counter (R.C_CMP_PASSES c) + 1) % 2 ^ 64 := by
  obtain ⟨r, pixels, fills, hr, he⟩ := h.exec_complete hk hc ha
  have hpasses := passCounted_passes r c pixels cycles waits fills
  have hhts := (passCounted_hts r c pixels cycles waits fills).trans hr.hts
  rw [hr.counter] at hpasses
  generalize passCounted r c pixels cycles waits fills = q at *
  obtain ⟨-, hh, -, -⟩ := setCmpJob_leaves q c none
  exact ⟨_, he, _, rfl, setCmpJob_job q c none, setCmpJob_busy q c none, hh.trans hhts, hpasses⟩

end Ends

/-! ### Expiries (R227, R228) -/

/-- A CMP that is not fenced already has the pass `j`, whose completion does not come in this cycle. -/
structure ComposeWatched (s : State) (c : Fin 4) (j : CmpJob) : Prop where
  job : s.cmpJob c = some j
  notFenced : s.isFenced Unit.cmp c = false
  notEnding : s.endsNow 2 c = false

/-- What an expiry finds: the cycles counted, and a blocked write latched. -/
def expiryNoted (s : State) (c : Nat) (j : CmpJob) (cycles : Nat) (blocked : Option Nat) : State :=
  let s := s.count (R.C_CMP_BUSY_CYCLES c) cycles
  match blocked with
  | some a => s.cmpBlocked c a (s.taskId j.slot)
  | none => s

/-- A first expiry keeps the job for a second attempt. -/
def passRetried (s : State) (c : Nat) (j : CmpJob) : State :=
  (s.setCmpJob c (some { j with attempt := 2 })).put (R.CMP_CUR_CYCLES_CYCLES c) 0

/-- A second expiry fences the CMP, and BUSY clears. -/
def cmpLost (s : State) (c : Nat) (j : CmpJob) : State :=
  (s.fence Unit.cmp c 8 (s.taskId j.slot)).putBit (R.CMP_STATUS_BUSY c) false

/-- What makes a pass expire: an armed watchdog, a blocked write, or cycles past the budget. -/
def PassExpires (s : State) (c : Nat) (j : CmpJob) (cycles : Nat) (blocked : Option Nat) : Bool :=
  j.failing || (blocked.filter fun a => !cmpWindow j.desc a).isSome || s.get (R.CMP_CUR_BUDGET_CYCLES c) < cycles

section Watchdog

variable {s : State} {c : Fin 4} {j : CmpJob} {cycles : Nat} {blocked : Option Nat}

theorem ComposeWatched.exec_early (h : ComposeWatched s c j) (hx : PassExpires s c j cycles blocked = false) :
    exec (.cmpWatchdogExpiry c cycles blocked) s = .next s := by
  simp only [PassExpires, Bool.or_eq_false_iff, decide_eq_false_iff_not, Nat.not_lt, Option.isSome_eq_false_iff] at hx
  obtain ⟨⟨hf, hb⟩, hc⟩ := hx
  simp only [exec, execCmpWatchdogExpiry, h.job, hf, hb, hc, decide_true, Bool.not_false, Bool.and_true, Bool.or_true, if_true]

theorem ComposeWatched.exec_expires (h : ComposeWatched s c j) (hx : PassExpires s c j cycles blocked = true) :
    exec (.cmpWatchdogExpiry c cycles blocked) s =
      let t := expiryNoted s c j cycles (blocked.filter fun a => !cmpWindow j.desc a)
      if j.attempt = 1 then .next (passRetried t c j) else .next ((cmpLost t c j).loseUnit 2 c) := by
  have hlate : (!j.failing && (blocked.filter fun a => !cmpWindow j.desc a).isNone &&
      decide (cycles ≤ s.get (R.CMP_CUR_BUDGET_CYCLES c))) = false := by
    simp only [PassExpires, Bool.or_eq_true, decide_eq_true_eq] at hx
    obtain (hf | hb) | hc := hx
    · simp [hf]
    · simp [← Option.not_isSome, hb]
    · simp [Nat.not_le.2 hc]
  simp only [exec, execCmpWatchdogExpiry, h.job, h.notFenced, h.notEnding, hlate, Bool.or_false, Bool.false_eq_true, if_false]
  rfl

theorem passRetried_shows (s : State) (c : Nat) (j : CmpJob) :
    (passRetried s c j).cmpJob c = some { j with attempt := 2 } ∧ (passRetried s c j).mem = s.mem ∧ (passRetried s c j).hts = s.hts ∧
    (passRetried s c j).ctr = s.ctr := by
  obtain ⟨hm, hh, hc, -⟩ := setCmpJob_leaves s c (some { j with attempt := 2 })
  have hj := setCmpJob_job s c (some { j with attempt := 2 })
  unfold passRetried
  generalize s.setCmpJob c (some { j with attempt := 2 }) = t at *
  exact ⟨hj, hm, hh, hc⟩

/-- Beside the job, a first expiry changes registers alone. -/
theorem passRetried_frame (s : State) (c : Nat) (j : CmpJob) : { passRetried s c j with cmps := s.cmps, regs := s.regs } = s := by
  unfold passRetried State.setCmpJob State.putBit State.put State.setReg
  rfl

theorem passRetried_get (s : State) (c : Nat) (j : CmpJob) {f : Fld} {a : Nat} (hf : f.addr = a + c * 0x10000)
    (hs : a ≠ 0xA00008) (hc : a ≠ 0xA00020) : (passRetried s c j).get f = s.get f :=
  (get_put_ne _ _ _ _ (hf ▸ perEngine_ne hc c)).trans (setCmpJob_get s c _ hf hs)

/-- A value spread over two whole registers reads as it was written. -/
theorem pair_putPair (s : State) {lo hi : Fld} (hl : lo.lsb = 0) (hw : lo.width = 32) (hl' : hi.lsb = 0) (hw' : hi.width = 32)
    (hne : lo.addr ≠ hi.addr) (v : Nat) : (s.putPair lo hi v).pair lo hi = v % 2 ^ 64 := by
  have hlo : (s.putPair lo hi v).get lo = v % 2 ^ 32 := by
    rw [State.putPair, get_put_ne _ _ _ _ hne, get_put_same _ _ _ (by omega), hl, hw, pow_zero, Nat.div_one]
  have hhi : (s.putPair lo hi v).get hi = v / 2 ^ 32 % 2 ^ 32 := by
    rw [State.putPair, get_put_same _ _ _ (by omega), hw']
  rw [State.pair, hlo, hhi, hl]
  omega

/-- A blocked write is latched. -/
theorem expiryNoted_latches (s : State) (c : Fin 4) (j : CmpJob) (cycles a : Nat) :
    (expiryNoted s c j cycles (some a)).pair (R.CMP_BOUNDS_LAST_LO_ADDR c) (R.CMP_BOUNDS_LAST_HI_ADDR c) = a % 2 ^ 64 := by
  have hlo : (R.CMP_BOUNDS_LAST_LO_ADDR c).addr < 0xF00000 := by simp only [R.CMP_BOUNDS_LAST_LO_ADDR]; omega
  have hhi : (R.CMP_BOUNDS_LAST_HI_ADDR c).addr < 0xF00000 := by simp only [R.CMP_BOUNDS_LAST_HI_ADDR]; omega
  have hne : (R.CMP_BOUNDS_LAST_LO_ADDR c).addr ≠ (R.CMP_BOUNDS_LAST_HI_ADDR c).addr := perEngine_ne (by decide) c
  have hpair := pair_putPair (s.count (R.C_CMP_BUSY_CYCLES c) cycles) (lo := R.CMP_BOUNDS_LAST_LO_ADDR c)
    (hi := R.CMP_BOUNDS_LAST_HI_ADDR c) rfl rfl rfl rfl hne a
  rw [expiryNoted, State.cmpBlocked]
  generalize (s.count (R.C_CMP_BUSY_CYCLES c) cycles).putPair (R.CMP_BOUNDS_LAST_LO_ADDR c) (R.CMP_BOUNDS_LAST_HI_ADDR c) a = t at *
  rw [← hpair, State.pair, count_get_read, count_get_read, log_get_below _ _ _ _ _ _ _ hlo, log_get_below _ _ _ _ _ _ _ hhi, State.pair]

/-- A blocked write is counted, beside the cycles; neither memory nor the tasks change. -/
theorem expiryNoted_counts (s : State) (c : Fin 4) (j : CmpJob) (cycles a : Nat) :
    (expiryNoted s c j cycles (some a)).mem = s.mem ∧ (expiryNoted s c j cycles (some a)).hts = s.hts ∧
    (expiryNoted s c j cycles (some a)).counter (R.C_CMP_BOUNDS_BLOCKED c) = (s.counter (R.C_CMP_BOUNDS_BLOCKED c) + 1) % 2 ^ 64 := by
  have ha : R.C_CMP_BOUNDS_BLOCKED c < 0xF00000 := by simp only [R.C_CMP_BOUNDS_BLOCKED]; omega
  have hne : R.C_CMP_BOUNDS_BLOCKED c ≠ R.C_CMP_BUSY_CYCLES c := perEngine_ne (by decide) c
  rw [expiryNoted, State.cmpBlocked]
  refine ⟨?_, ?_, ?_⟩
  · rw [count_mem, log_mem, putPair_mem, count_mem]
  · rw [count_hts, log_only, putPair_hts, count_hts]
  · rw [counter_count_same, log_counter_below _ _ _ _ _ _ _ ha, putPair_counter_read, counter_count_ne _ _ hne]

/-- The engines' own FENCED bits lie below the registers of SQL_FENCE_u. -/
theorem fencedBit_cmp (c : Fin 4) (f : Fld) (h : fencedBit Unit.cmp c = some f) : f.addr < 0xF00200 := by
  have hf : R.CMP_STATUS_FENCED c = f := Option.some.inj h
  rw [← hf]
  simp only [R.CMP_STATUS_FENCED]
  omega

theorem cmpLost_shows (s : State) (c : Fin 4) (j : CmpJob) :
    (cmpLost s c j).isFenced Unit.cmp c = true ∧ (cmpLost s c j).isSet (R.CMP_STATUS_BUSY c) = false ∧ (cmpLost s c j).hts = s.hts ∧
    (cmpLost s c j).mem = s.mem := by
  have hf := fence_fences s (fencedBit_cmp c) 8 (s.taskId j.slot)
  obtain ⟨hm, hh, -, -⟩ := fence_keeps s Unit.cmp c 8 (s.taskId j.slot)
  have hne : (fenceField Unit.cmp c).addr ≠ (R.CMP_STATUS_BUSY c).addr := by
    have ha := fenceField_addr Unit.cmp c
    simp only [R.CMP_STATUS_BUSY]
    omega
  unfold cmpLost
  generalize s.fence Unit.cmp c 8 (s.taskId j.slot) = t at *
  refine ⟨?_, isSet_putBit_same t (R.CMP_STATUS_BUSY c) false (Nat.le_of_ble_eq_true rfl) rfl, hh, hm⟩
  rw [isFenced_eq_isSet, State.isSet, State.putBit, get_put_ne _ _ _ _ hne, ← State.isSet, ← isFenced_eq_isSet, hf]

/-- A blocked write at a first attempt starts the pass again. -/
theorem ComposeWatched.blocked_retries (h : ComposeWatched s c j) {a : Nat} (hw : cmpWindow j.desc a = false) (ha : j.attempt = 1) :
    Completes (exec (.cmpWatchdogExpiry c cycles (some a)) s) fun t =>
      t.cmpJob c = some { j with attempt := 2 } ∧ t.mem = s.mem ∧ t.hts = s.hts ∧
      t.pair (R.CMP_BOUNDS_LAST_LO_ADDR c) (R.CMP_BOUNDS_LAST_HI_ADDR c) = a % 2 ^ 64 ∧
      t.counter (R.C_CMP_BOUNDS_BLOCKED c) = (s.counter (R.C_CMP_BOUNDS_BLOCKED c) + 1) % 2 ^ 64 := by
  have hb : (some a).filter (fun a => !cmpWindow j.desc a) = some a := by simp [Option.filter, hw]
  have hx : PassExpires s c j cycles (some a) = true := by rw [PassExpires, hb]; simp
  have he := h.exec_expires hx
  rw [hb, if_pos ha] at he
  have hl := expiryNoted_latches s c j cycles a
  obtain ⟨hm, hh, hk⟩ := expiryNoted_counts s c j cycles a
  generalize expiryNoted s c j cycles (some a) = t at *
  obtain ⟨hj', hm', hh', hk'⟩ := passRetried_shows t c j
  refine ⟨_, he, hj', hm'.trans hm, hh'.trans hh, ?_, ?_⟩
  · rw [State.pair, passRetried_get t c j (a := 0xA00028) rfl (by decide) (by decide),
      passRetried_get t c j (a := 0xA0002C) rfl (by decide) (by decide), ← hl, State.pair]
  · rw [State.counter, hk', ← hk, State.counter]

/-- A first expiry, by an armed watchdog or by cycles past the budget, starts the pass again and counts the cycles alone. -/
theorem ComposeWatched.first_retries (h : ComposeWatched s c j)
    (hx : j.failing = true ∨ s.get (R.CMP_CUR_BUDGET_CYCLES c) < cycles) (ha : j.attempt = 1) :
    Completes (exec (.cmpWatchdogExpiry c cycles none) s) fun t =>
      t.cmpJob c = some { j with attempt := 2 } ∧ t.mem = s.mem ∧ t.hts = s.hts ∧
      CountsOnly s { t with cmps := s.cmps, regs := s.regs } (R.C_CMP_BUSY_CYCLES c) cycles := by
  have he := h.exec_expires (blocked := none) (by simpa [PassExpires] using hx)
  rw [if_pos ha] at he
  obtain ⟨hj, hm, hh, -⟩ := passRetried_shows (s.count (R.C_CMP_BUSY_CYCLES c) cycles) c j
  have hframe := passRetried_frame (s.count (R.C_CMP_BUSY_CYCLES c) cycles) c j
  have hcount := count_only s (R.C_CMP_BUSY_CYCLES c) cycles
  rw [← hframe] at hcount
  exact ⟨_, he, hj, hm, hh, hcount⟩

/-- A second expiry fences the CMP. -/
theorem ComposeWatched.second_fences (h : ComposeWatched s c j) (hx : s.get (R.CMP_CUR_BUDGET_CYCLES c) < cycles) (ha : j.attempt = 2) :
    Completes (exec (.cmpWatchdogExpiry c cycles none) s) fun t => ∃ u : State,
      t = u.loseUnit 2 c ∧ u.isFenced Unit.cmp c = true ∧ u.isSet (R.CMP_STATUS_BUSY c) = false ∧ u.hts = s.hts ∧ u.mem = s.mem := by
  have he := h.exec_expires (cycles := cycles) (blocked := none) (by simp [PassExpires, hx])
  rw [if_neg (by rw [ha]; decide)] at he
  exact ⟨_, he, _, rfl, cmpLost_shows (s.count (R.C_CMP_BUSY_CYCLES c) cycles) c j⟩

end Watchdog

/-! ### Fills (R228) -/

/-- BG of a pass in the output's depth: Y, Cb and Cr. -/
def passGround (d : List Byte) (c : Nat) : Nat := toDepth false (passBit10 d) (fieldOf d (0x10 + c) 1)

/-- The strips that a lost pass lacks are written as BG and published. -/
def groundFilled (s : State) (n : Nat) (j : CmpJob) : State :=
  (span j.strips (stripsOf (passSize j.desc).2)).foldl (fun (s : State) k =>
    (s.writeStrip (passLayout j.desc) (passSize j.desc).1 (passSize j.desc).2 k (fun _ _ _ => passGround j.desc 0)
      fun _ _ _ c => passGround j.desc (1 + c)).publishStrip (s.taskId n) (k + 1) 0) s

/-- The record of a filled pass is written after its strips. -/
def fillRecorded (s : State) (n : Nat) (j : CmpJob) (cycles : Nat) : State :=
  (groundFilled s n j).passRecord j.desc St.unitFenced (passFlags j.flags ||| 16) (stripsOf (passSize j.desc).2) j.flags cycles 0

theorem fillRecorded_stores (s : State) (n : Nat) (j : CmpJob) (cycles : Nat) :
    DecodeOnly (groundFilled s n j) (fillRecorded s n j cycles) := (DecodeOnly.refl _).passRecord

/-- A fill leaves whose passes were lost. -/
theorem fillRecorded_keeps (s : State) (n : Nat) (j : CmpJob) (cycles : Nat) : PassesKept s (fillRecorded s n j cycles) := by
  have hf : PassesKept s (groundFilled s n j) :=
    List.foldlRecOn (motive := PassesKept s) _ _ (PassesKept.refl s) fun u hu _ _ =>
      (hu.stored (DecodeOnly.refl u).writeStrip).publishStrip
  exact hf.stored (fillRecorded_stores s n j cycles)

/-- With every strip of the lost pass out, a fill publishes none. -/
theorem groundFilled_all (s : State) (n : Nat) {j : CmpJob} (h : stripsOf (passSize j.desc).2 ≤ j.strips) : groundFilled s n j = s := by
  rw [groundFilled, span_of_le h]
  rfl

/-- The job that a lost CMP has kept is taken from it, and the fill's cycles are counted. -/
def lostReleased (s : State) (c i cycles : Nat) : State :=
  ({ s with cmps := SMap.set none s.cmps i none } : State).count (R.C_CMP_BUSY_CYCLES c) cycles

section Fill

variable {s : State} {c : Fin 4} {n i : Nat} {j l : CmpJob} {cycles : Nat}

theorem ComposeTask.exec_fill (h : ComposeTask s c n 4 j) (hl : s.lostPass n = some (i, l)) (hp : passOk l.desc = true) :
    exec (.composeFill c cycles) s =
      .next ((lostReleased (fillRecorded s n l cycles) c i cycles).unitComplete n St.unitFenced (0x3020 + c) l.drawn) := by
  obtain ⟨⟨k, hk, hkind, -⟩, hi⟩ := h
  obtain ⟨l', hl'⟩ : ∃ l', (fillRecorded s n l cycles).lostPass n = some (i, l') := by
    have hkept := (fillRecorded_keeps s n l cycles).lostPass n
    rw [hl, Option.map_some] at hkept
    obtain ⟨⟨i', l'⟩, he, rfl⟩ := Option.map_eq_some_iff.1 hkept
    exact ⟨l', he⟩
  simp only [exec, execComposeFill, hk, hi, hkind, bne_self_eq_false, Bool.false_eq_true, if_false, hl, hp, Bool.not_true]
  change Host.Outcome.next (State.unitComplete (State.count (match (fillRecorded s n l cycles).lostPass n with
    | some (i, _) => { fillRecorded s n l cycles with cmps := SMap.set none (fillRecorded s n l cycles).cmps i none }
    | none => fillRecorded s n l cycles) _ _) _ _ _ _) = _
  rw [hl']
  rfl

/-- A fill completes the lost pass with the fenced-unit code, and the lost CMP has no job any more. -/
theorem ComposeTask.fill_ends (h : ComposeTask s c n 4 j) (hl : s.lostPass n = some (i, l)) (hp : passOk l.desc = true) :
    Completes (exec (.composeFill c cycles) s) fun t => ∃ u : State,
      t = u.unitComplete n St.unitFenced (0x3020 + c) l.drawn ∧ u.cmpJob i = none ∧
      (l.strips = stripsOf (passSize l.desc).2 → u.hts = s.hts) := by
  refine ⟨_, h.exec_fill hl hp, _, rfl, ?_, fun hk => ?_⟩
  · exact get_set_same none (fillRecorded s n l cycles).cmps i none
  · exact (fillRecorded_stores s n l cycles).hts.trans (congrArg State.hts (groundFilled_all s n hk.ge))

end Fill

end Sys2Proof.Laws
end

section
/-! The statement of chapter 6 about the compose engines. -/

namespace Sys2Proof.Proofs

open Sys2Proof Sys2Proof.Machine Sys2Proof.Safety Sys2Proof.Laws

/-- Settles O24: what a compose task's check makes of it, a strip published or waited for, the end of a pass, its expiries, and a fill. -/
theorem composeEnginesRunPassesStripByStrip : Obligations.ComposeEnginesRunPassesStripByStrip := by
  refine ⟨fun s c n k j hk hi hj => ⟨fun hkind hd => ?refused, fun hkind hd hs => ?scale, fun hkind hd hs => ?starts, ?fill⟩,
    fun s c j hj hf hn => ⟨fun hk hs => ?strip, fun i hi hw => ?waits, fun cycles waits hk hc ha => ?complete⟩,
    fun s c j cycles hj hn he => ⟨fun hf hc => ?early, fun a hw ha => ?blocked, fun hx ha => ?first, fun hx ha => ?second⟩⟩
  case refused =>
    have h : ComposeTask s c n 3 j := ⟨⟨k, hk, hkind, hj⟩, hi⟩
    exact ⟨_, h.exec_descBad hd, refusePass_ends s c n St.cmpDescBad j.desc⟩
  case scale =>
    have h : ComposeTask s c n 3 j := ⟨⟨k, hk, hkind, hj⟩, hi⟩
    obtain ⟨u, ht, hc, hh, -, hr⟩ := refusePass_ends s c n St.cmpScale j.desc
    exact ⟨_, h.exec_scale hd hs, u, ht, hc, hh, hr⟩
  case starts =>
    have h : ComposeTask s c n 3 j := ⟨⟨k, hk, hkind, hj⟩, hi⟩
    exact h.starts hd hs
  case fill =>
    intro hkind l i cycles hl _ hp
    have h : ComposeTask s c n 4 j := ⟨⟨k, hk, hkind, hj⟩, hi⟩
    exact h.fill_ends hl hp
  case strip => exact Composes.strip_publishes ⟨hj, hf, hn⟩ hk hs
  case waits => exact ⟨s, Composes.strip_waits ⟨hj, hf, hn⟩ hi hw, rfl⟩
  case complete => exact Composes.pass_ends ⟨hj, hf, hn⟩ hk hc ha
  case early =>
    have h : ComposeWatched s c j := ⟨hj, hn, he⟩
    exact ⟨fun a hw => ⟨s, h.exec_early (by simp [PassExpires, hf, Option.filter, hw, hc]), rfl⟩,
      ⟨s, h.exec_early (by simp [PassExpires, hf, hc]), rfl⟩⟩
  case blocked => exact ComposeWatched.blocked_retries ⟨hj, hn, he⟩ hw ha
  case first => exact ComposeWatched.first_retries ⟨hj, hn, he⟩ hx ha
  case second => exact ComposeWatched.second_fences ⟨hj, hn, he⟩ hx ha

end Sys2Proof.Proofs
end

section
/-! SUPPORT. The Video Encode Engines (R212 to R221, R227, R228, R236 to R238): what the start of an encode task, a coding row, the end of a
picture and an expiry come to. -/

namespace Sys2Proof.Laws

open Sys2Proof Sys2Proof.Machine Sys2Proof.Safety

/-! ### What an engine stores -/

section Stores

variable {s t : State}

theorem DecodeOnly.tileNotCoded {ext : List Byte} {out status : Nat} (h : DecodeOnly s t) : DecodeOnly s (t.tileNotCoded ext out status) :=
  h.setBytes.spent.setLe

theorem DecodeOnly.writeRecon {j : VeeJob} {i : Nat} (h : DecodeOnly s t) : DecodeOnly s (t.writeRecon j i) := h.setBytes.spent.setBytes.spent

theorem DecodeOnly.prefixUnits {a : Nat} {ns : List Nat} (h : DecodeOnly s t) : DecodeOnly s (t.prefixUnits a ns) := by
  induction ns generalizing t a with
  | nil => exact h
  | cons n ns ih => exact ih h.setBytes

/-- A picture that is not coded is stored as such and counted. -/
theorem notCoded_counts (s : State) (v slot status effort : Nat) (stepped : Bool) :
    ∃ r, DecodeOnly s r ∧ s.notCoded v slot status effort stepped = r.count (R.C_VEE_NOT_CODED v) := by
  unfold State.notCoded
  extract_lets d r s₁ e s₂
  have hs₁ : DecodeOnly s s₁ := .ite (DecodeOnly.refl s).writeRecord (.refl s)
  exact ⟨s₂, .ite hs₁.tileNotCoded hs₁, rfl⟩

/-- BUSY shows whether the engine has a job. -/
theorem setVeeJob_busy (s : State) (v : Nat) (j : Option VeeJob) : (s.setVeeJob v j).isSet (R.VEE_STATUS_BUSY v) = j.isSome :=
  isSet_putBit_same s _ _ (Nat.le_of_ble_eq_true rfl) rfl

theorem setVeeJob_job (s : State) (v : Nat) (j : Option VeeJob) : (s.setVeeJob v j).veeJob v = j := get_set_same _ _ _ _

/-- An engine's job is a matter of its own. -/
theorem setVeeJob_leaves (s : State) (v : Nat) (j : Option VeeJob) :
    (s.setVeeJob v j).mem = s.mem ∧ (s.setVeeJob v j).hts = s.hts ∧ (s.setVeeJob v j).ctr = s.ctr ∧ (s.setVeeJob v j).encs = s.encs ∧
    (s.setVeeJob v j).poison = s.poison ∧ (s.setVeeJob v j).injected = s.injected := ⟨rfl, rfl, rfl, rfl, rfl, rfl⟩

theorem setVeeJob_get (s : State) (v : Nat) (j : Option VeeJob) {f : Fld} {a : Nat} (hf : f.addr = a + v * 0x10000)
    (ha : a ≠ 0x900008) : (s.setVeeJob v j).get f = s.get f := get_put_ne s _ _ _ (hf ▸ perEngine_ne ha v)

end Stores

/-! ### Expiries (R227, R228) -/

/-- What an expiry finds: the cycles counted, and a blocked write latched. -/
def veeNoted (s : State) (v : Nat) (j : VeeJob) (cycles : Nat) (blocked : Option Nat) : State :=
  let s := s.count (R.C_VEE_BUSY_CYCLES v) cycles
  match blocked with
  | some a => (s.putPair (R.VEE_BOUNDS_LAST_LO_ADDR v) (R.VEE_BOUNDS_LAST_HI_ADDR v) a).log Unit.vee v Sev.warn Ev.boundsBlocked a
      (s.taskId j.slot)
  | none => s

theorem veeNoted_leaves (s : State) (v : Nat) (j : VeeJob) (cycles : Nat) (blocked : Option Nat) :
    (veeNoted s v j cycles blocked).mem = s.mem ∧ (veeNoted s v j cycles blocked).hts = s.hts := by
  cases blocked with
  | none => exact ⟨rfl, rfl⟩
  | some a =>
    rw [veeNoted]
    exact ⟨by rw [log_mem, putPair_mem, count_mem], by rw [log_only, putPair_hts, count_hts]⟩

/-- A first expiry keeps the job, which starts again. -/
def pictureRetried (s : State) (v : Nat) (j : VeeJob) : State := (s.setVeeJob v (some j.again)).put (R.VEE_CUR_CYCLES_CYCLES v) 0

theorem pictureRetried_shows (s : State) (v : Nat) (j : VeeJob) :
    (pictureRetried s v j).veeJob v = some j.again ∧ (pictureRetried s v j).mem = s.mem ∧ (pictureRetried s v j).hts = s.hts ∧
    (pictureRetried s v j).ctr = s.ctr := by
  obtain ⟨hm, hh, hc, -⟩ := setVeeJob_leaves s v (some j.again)
  have hj := setVeeJob_job s v (some j.again)
  unfold pictureRetried
  generalize s.setVeeJob v (some j.again) = t at *
  exact ⟨hj, hm, hh, hc⟩

/-- The picture is not coded, its context unlocked and the engine without a job. -/
def pictureDropped (s : State) (v : Nat) (j : VeeJob) : State :=
  ((s.notCoded v j.slot St.unitFenced j.effort j.stepped).setLe (j.ctx + 0x41) 1 0).setVeeJob v none

/-- A second expiry drops the picture and fences the engine. -/
def veeLost (s : State) (v : Nat) (j : VeeJob) : State :=
  (pictureDropped s v j).fence Unit.vee v 8 ((pictureDropped s v j).taskId j.slot)

theorem pictureDropped_shows {s : State} (hp : s.poison = []) (v : Nat) {j : VeeJob} (hc : j.ctx + 256 ≤ hbmBytes) :
    let u := pictureDropped s v j
    u.veeJob v = none ∧ u.le (j.ctx + 0x41) 1 = 0 ∧ u.encs = s.encs ∧ u.hts = s.hts ∧
    u.counter (R.C_VEE_NOT_CODED v) = (s.counter (R.C_VEE_NOT_CODED v) + 1) % 2 ^ 64 := by
  obtain ⟨r, hr, he⟩ := notCoded_counts s v j.slot St.unitFenced j.effort j.stepped
  have hpoison : (r.count (R.C_VEE_NOT_CODED v)).poison = [] := hr.unpoisoned hp
  have hencs : (r.count (R.C_VEE_NOT_CODED v)).encs = s.encs := hr.encs
  have hhts : (r.count (R.C_VEE_NOT_CODED v)).hts = s.hts := hr.hts
  have hcount := counter_count_same r (R.C_VEE_NOT_CODED v) 1
  rw [hr.counter] at hcount
  simp only [pictureDropped, he]
  generalize r.count (R.C_VEE_NOT_CODED v) = x at *
  have hq : DecodeOnly x (x.setLe (j.ctx + 0x41) 1 0) := (DecodeOnly.refl x).setLe
  have hlock : (x.setLe (j.ctx + 0x41) 1 0).le (j.ctx + 0x41) 1 = 0 := le_setLe_octet hpoison (by omega) (by decide)
  generalize x.setLe (j.ctx + 0x41) 1 0 = q at *
  obtain ⟨hm, hh, hk, hx, -⟩ := setVeeJob_leaves q v none
  refine ⟨setVeeJob_job q v none, (le_of_mem hm _ _).trans hlock, hx.trans (hq.encs.trans hencs), hh.trans (hq.hts.trans hhts), ?_⟩
  rw [State.counter, hk, ← hcount, ← hq.counter, State.counter]

theorem fencedBit_vee (v : Fin 16) (f : Fld) (h : fencedBit Unit.vee v = some f) : f.addr < 0xF00200 := by
  have hf : R.VEE_STATUS_FENCED v = f := Option.some.inj h
  rw [← hf]
  simp only [R.VEE_STATUS_FENCED]
  omega

theorem veeLost_shows {s : State} (hp : s.poison = []) (v : Fin 16) {j : VeeJob} (hc : j.ctx + 256 ≤ hbmBytes) :
    let u := veeLost s v j
    u.isFenced Unit.vee v = true ∧ u.veeJob v = none ∧ u.le (j.ctx + 0x41) 1 = 0 ∧ u.encs = s.encs ∧ u.hts = s.hts ∧
    u.counter (R.C_VEE_NOT_CODED v) = (s.counter (R.C_VEE_NOT_CODED v) + 1) % 2 ^ 64 := by
  intro u
  obtain ⟨hj, hlock, hencs, hhts, hcount⟩ := pictureDropped_shows hp v hc
  have ha : R.C_VEE_NOT_CODED v < 0xF00000 := by simp only [R.C_VEE_NOT_CODED]; omega
  have hfence := fence_fences (pictureDropped s v j) (fencedBit_vee v) 8 ((pictureDropped s v j).taskId j.slot)
  have hk := fence_counter (pictureDropped s v j) Unit.vee v 8 ((pictureDropped s v j).taskId j.slot) ha
  obtain ⟨hm, hh, hv, hx⟩ := fence_keeps (pictureDropped s v j) Unit.vee v 8 ((pictureDropped s v j).taskId j.slot)
  exact ⟨hfence, (congrArg (fun m => SMap.get none m v.val) hv).trans hj, (le_of_mem hm _ _).trans hlock, hx.trans hencs, hh.trans hhts,
    hk.trans hcount⟩

theorem veeExpires_first (s : State) (v : Nat) {j : VeeJob} (h : j.attempt = 1) (cycles : Nat) (blocked : Option Nat) :
    s.veeExpires v j cycles blocked = pictureRetried (veeNoted s v j cycles blocked) v j := if_pos h

theorem veeExpires_second (s : State) (v : Nat) {j : VeeJob} (h : j.attempt = 2) (cycles : Nat) (blocked : Option Nat) :
    s.veeExpires v j cycles blocked = (veeLost (veeNoted s v j cycles blocked) v j).loseUnit 1 v := if_neg (by rw [h]; decide)

/-- An engine that is not fenced already has the picture `j`, whose completion does not come in this cycle. -/
structure EncodeWatched (s : State) (v : Fin 16) (j : VeeJob) : Prop where
  job : s.veeJob v = some j
  notFenced : s.isFenced Unit.vee v = false
  notEnding : s.endsNow 1 v = false

section Watchdog

variable {s : State} {v : Fin 16} {j : VeeJob} {cycles : Nat}

theorem EncodeWatched.exec_expires (h : EncodeWatched s v j)
    (hx : j.failing = true ∨ s.get (R.VEE_CUR_BUDGET_CYCLES v) < cycles) :
    exec (.veeWatchdogExpiry v cycles none) s = .next (s.veeExpires v j cycles none) := by
  have hlate : (!j.failing && decide (cycles ≤ s.get (R.VEE_CUR_BUDGET_CYCLES v))) = false := by
    cases hx with
    | inl hf => simp [hf]
    | inr hc => simp [hc]
  simp only [exec, execVeeWatchdogExpiry, h.job, h.notFenced, h.notEnding, Option.filter_none, Option.isNone_none, Bool.and_true, hlate,
    Bool.or_false, Bool.false_eq_true, if_false]

/-- A first expiry starts the picture again and counts the cycles alone. -/
theorem EncodeWatched.first_retries (h : EncodeWatched s v j)
    (hx : j.failing = true ∨ s.get (R.VEE_CUR_BUDGET_CYCLES v) < cycles) (ha : j.attempt = 1) :
    Completes (exec (.veeWatchdogExpiry v cycles none) s) fun t =>
      t.veeJob v = some j.again ∧ t.mem = s.mem ∧ t.hts = s.hts ∧ SameCountersBut s t [R.C_VEE_BUSY_CYCLES v] := by
  obtain ⟨hj, hm, hh, hk⟩ := pictureRetried_shows (s.count (R.C_VEE_BUSY_CYCLES v) cycles) v j
  refine ⟨_, (h.exec_expires hx).trans (congrArg _ (veeExpires_first s v ha cycles none)), hj, hm, hh, fun a hb => ?_⟩
  exact (congrArg (fun m => SMap.get 0 m a) hk).trans (counter_count_ne s cycles (by simpa using hb))

/-- A second expiry fences the engine: the picture is not coded, and its context is unlocked. -/
theorem EncodeWatched.second_fences (h : EncodeWatched s v j) (hp : s.poison = []) (hc : j.ctx + 256 ≤ hbmBytes)
    (hx : s.get (R.VEE_CUR_BUDGET_CYCLES v) < cycles) (ha : j.attempt = 2) :
    Completes (exec (.veeWatchdogExpiry v cycles none) s) fun t => ∃ u : State,
      t = u.loseUnit 1 v ∧ u.isFenced Unit.vee v = true ∧ u.veeJob v = none ∧ u.le (j.ctx + 0x41) 1 = 0 ∧ u.encs = s.encs ∧ u.hts = s.hts ∧
      u.counter (R.C_VEE_NOT_CODED v) = (s.counter (R.C_VEE_NOT_CODED v) + 1) % 2 ^ 64 := by
  have hne : R.C_VEE_NOT_CODED v ≠ R.C_VEE_BUSY_CYCLES v := perEngine_ne (by decide) v
  have hshows := veeLost_shows (s := s.count (R.C_VEE_BUSY_CYCLES v) cycles) hp v hc
  rw [counter_count_ne s cycles hne] at hshows
  exact ⟨_, (h.exec_expires (.inr hx)).trans (congrArg _ (veeExpires_second s v ha cycles none)), _, rfl, hshows⟩

end Watchdog

/-! ### The start of an encode task (R214, R215, R237) -/

/-- The context that a task's descriptor names. -/
def encodeCtx (s : State) (k : Task) : Nat := fieldOf (s.bytes k.descAddr 64) 0 8

/-- The configuration in the task's context. -/
def encodeCfg (s : State) (k : Task) : List Byte := s.bytes (encodeCtx s k) 0x30

/-- The task's tile extension. -/
def encodeExt (s : State) (k : Task) : List Byte := s.bytes (k.descAddr + 64) 64

/-- Whether the task's context is valid and unlocked, its record in place, and a tile encode's extension and context are its own. -/
def encodeOk (s : State) (k : Task) : Bool :=
  encOk (encodeCfg s k) && encodeCtx s k % 256 == 0 && s.le (encodeCtx s k + 0x41) 1 == 0 &&
    fieldOf (s.bytes k.descAddr 64) 0x30 8 % 64 == 0 &&
    (k.kind == 5 || (s.tileOk (encodeExt s k) && s.tileCtxOk (encodeCfg s k) (encodeExt s k)))

/-- The picture that an engine plans, with the mark of INJ_WD that it takes. -/
def plannedJob (s : State) (v : Fin 16) (n : Nat) (k : Task) (sets : List (List Byte)) : VeeJob :=
  { s.planPicture n k sets with inject := s.armed 1 v }

/-- What the planned picture begins with. -/
def plannedOpening (s : State) (v : Fin 16) (n : Nat) (k : Task) (sets : List (List Byte)) : List Byte :=
  picturePrefix (fieldOf (encodeCfg s k) 0 1) (plannedJob s v n k sets).intra sets

/-- LOCK names the engine, and as much of the opening octets as the buffer holds is written. -/
def openingStored (s : State) (v : Fin 16) (j : VeeJob) (hdr : List Byte) : State :=
  (s.setLe (j.ctx + 0x41) 1 (v.val + 1)).setBytes (fieldOf j.desc 0x20 8) (hdr.take (fieldOf j.desc 0x28 4))

/-- The engine has the job and no mark of INJ_WD. -/
def pictureTaken (s : State) (v : Fin 16) (j : VeeJob) : State := (s.setVeeJob v (some j)).disarm 1 v

/-- The engine's registers show the picture: its descriptor, no cycles yet, the effort and the budget. -/
def pictureShown (s : State) (v addr effort samples : Nat) : State :=
  let s := s.putPair (R.VEE_CUR_DESC_LO_ADDR v) (R.VEE_CUR_DESC_HI_ADDR v) addr
  let s := (s.put (R.VEE_CUR_CYCLES_CYCLES v) 0).put (R.VEE_CUR_EFFORT_LEVEL v) effort
  s.put (R.VEE_CUR_BUDGET_CYCLES v) (min (2 ^ 32 - 1) (s.get (R.VEE_WD_SCALE_SCALE v) * (100000 + 2 * samples)))

/-- A picture that starts, before its opening octets are found to fit. -/
def pictureStarted (s : State) (v : Fin 16) (k : Task) (j : VeeJob) (hdr : List Byte) : State :=
  pictureShown (pictureTaken (openingStored s v j hdr) v j) v k.descAddr j.effort (encSamples j.cfg)

/-- An idle engine has an encode task, or a tile task that no entry request waits for. -/
structure EncodeTask (s : State) (v : Fin 16) (n : Nat) (k : Task) : Prop where
  given : s.engineTask 1 v = some (n, k)
  idle : s.veeJob v = none
  kind : k.kind = 5 ∨ k.kind = 6 ∧ SMap.get false s.fw.waiting (fieldOf (encodeExt s k) 2 2) = false

section Start

variable {s : State} {v : Fin 16} {n : Nat} {k : Task} {sets : List (List Byte)}

/-- No entry request is merged into the task's descriptor. -/
theorem EncodeTask.noGrant (h : EncodeTask s v n k) :
    (if (k.kind == 6) = true then s.grantEntry k.descAddr (s.bytes (k.descAddr + 64) 64) else s) = s := by
  obtain hk | ⟨-, hw⟩ := h.kind
  · simp [hk]
  · have hw' : SMap.get false s.fw.waiting (fieldOf (s.bytes (k.descAddr + 64) 64) 2 2) = false := hw
    simp [State.grantEntry, hw']

/-- The check refuses what `encodeOk` does not accept. -/
theorem EncodeTask.check (h : EncodeTask s v n k) :
    (!encOk (encodeCfg s k) || encodeCtx s k % 256 != 0 || s.le (encodeCtx s k + 0x41) 1 != 0 ||
      fieldOf (s.bytes k.descAddr 64) 0x30 8 % 64 != 0 ||
      (k.kind == 6 && (!s.tileOk (encodeExt s k) || !s.tileCtxOk (encodeCfg s k) (encodeExt s k)))) = !encodeOk s k := by
  have hkind : (k.kind == 6) = !(k.kind == 5) := by
    obtain hk | ⟨hk, -⟩ := h.kind <;> rw [hk] <;> rfl
  simp only [encodeOk, bne, hkind, Bool.not_and, Bool.not_or]

/-- What an encode task comes to by its check and its sizes. -/
theorem EncodeTask.exec_start (h : EncodeTask s v n k) :
    exec (.encodeStart v sets) s =
      let d := s.bytes k.descAddr 64
      let j := plannedJob s v n k sets
      let hdr := plannedOpening s v n k sets
      if (!encodeOk s k) = true then
        .next ((s.notCoded v n St.encCtxBad k.effort k.stepped).unitComplete n St.encCtxBad (0x3010 + v) [])
      else if fieldOf d 0x28 4 < j.cap + 512 then
        .next ((s.notCoded v n St.encOutSmall j.effort j.stepped).unitComplete n St.encOutSmall (0x3010 + v) [])
      else .next (match j.overrun 0 hdr.length with
        | some a => (pictureStarted s v k j hdr).veeExpires v j 0 (some a)
        | none => pictureStarted s v k j hdr) := by
  rw [← h.check]
  simp only [exec, execEncodeStart, h.given, h.idle, h.noGrant]
  rfl

/-- What a plan takes from the descriptor and its context, and that it is a first attempt. -/
theorem plannedJob_reads (s : State) (v : Fin 16) (n : Nat) (k : Task) (sets : List (List Byte)) :
    (plannedJob s v n k sets).desc = s.bytes k.descAddr 64 ∧ (plannedJob s v n k sets).ctx = encodeCtx s k ∧
    (plannedJob s v n k sets).cfg = encodeCfg s k ∧ (plannedJob s v n k sets).attempt = 1 := ⟨rfl, rfl, rfl, rfl⟩

/-- A task that ends without a picture is counted, and its engine takes no job. -/
theorem notCoded_ends (s : State) (v n status effort : Nat) (stepped : Bool) : ∃ u : State,
    s.notCoded v n status effort stepped = u ∧ u.vees = s.vees ∧ u.hts = s.hts ∧ u.encs = s.encs ∧
    u.counter (R.C_VEE_NOT_CODED v) = (s.counter (R.C_VEE_NOT_CODED v) + 1) % 2 ^ 64 := by
  obtain ⟨r, hr, he⟩ := notCoded_counts s v n status effort stepped
  refine ⟨_, he, hr.vees, hr.hts, hr.encs, ?_⟩
  rw [counter_count_same, hr.counter]

/-- A context or a record that the check does not accept ends the task. -/
theorem EncodeTask.refused_ends (h : EncodeTask s v n k) (hok : encodeOk s k = false) :
    Completes (exec (.encodeStart v sets) s) fun t => ∃ u : State,
      t = u.unitComplete n St.encCtxBad (0x3010 + v) [] ∧ u.vees = s.vees ∧ u.hts = s.hts ∧ u.encs = s.encs ∧
      u.counter (R.C_VEE_NOT_CODED v) = (s.counter (R.C_VEE_NOT_CODED v) + 1) % 2 ^ 64 := by
  obtain ⟨u, he, hu⟩ := notCoded_ends s v n St.encCtxBad k.effort k.stepped
  refine ⟨_, h.exec_start.trans (if_pos (by rw [hok]; rfl)), u, by rw [he], hu⟩

/-- A buffer without room for the cap and 512 octets ends the task. -/
theorem EncodeTask.small_ends (h : EncodeTask s v n k) (hok : encodeOk s k = true)
    (hs : fieldOf (s.bytes k.descAddr 64) 0x28 4 < (plannedJob s v n k sets).cap + 512) :
    Completes (exec (.encodeStart v sets) s) fun t => ∃ u : State,
      t = u.unitComplete n St.encOutSmall (0x3010 + v) [] ∧ u.vees = s.vees ∧ u.hts = s.hts ∧
      u.counter (R.C_VEE_NOT_CODED v) = (s.counter (R.C_VEE_NOT_CODED v) + 1) % 2 ^ 64 := by
  obtain ⟨u, he, hv, hh, -, hk⟩ := notCoded_ends s v n St.encOutSmall (plannedJob s v n k sets).effort (plannedJob s v n k sets).stepped
  refine ⟨_, h.exec_start.trans ((if_neg (by rw [hok]; decide)).trans (if_pos hs)), u, by rw [he], hv, hh, hk⟩

theorem EncodeTask.exec_starts (h : EncodeTask s v n k) (hok : encodeOk s k = true)
    (hs : (plannedJob s v n k sets).cap + 512 ≤ fieldOf (s.bytes k.descAddr 64) 0x28 4)
    (hp : (plannedOpening s v n k sets).length ≤ fieldOf (s.bytes k.descAddr 64) 0x28 4) :
    exec (.encodeStart v sets) s = .next (pictureStarted s v k (plannedJob s v n k sets) (plannedOpening s v n k sets)) := by
  have ho : (plannedJob s v n k sets).overrun 0 (plannedOpening s v n k sets).length = none := if_pos (by rwa [Nat.zero_add])
  refine h.exec_start.trans ((if_neg (by rw [hok]; decide)).trans ((if_neg (Nat.not_lt.2 hs)).trans ?_))
  rw [ho]

theorem EncodeTask.exec_overruns (h : EncodeTask s v n k) (hok : encodeOk s k = true)
    (hs : (plannedJob s v n k sets).cap + 512 ≤ fieldOf (s.bytes k.descAddr 64) 0x28 4)
    (hp : fieldOf (s.bytes k.descAddr 64) 0x28 4 < (plannedOpening s v n k sets).length) :
    ∃ a, exec (.encodeStart v sets) s = .next ((pictureStarted s v k (plannedJob s v n k sets) (plannedOpening s v n k sets)).veeExpires v
      (plannedJob s v n k sets) 0 (some a)) := by
  obtain ⟨a, ho⟩ : ∃ a, (plannedJob s v n k sets).overrun 0 (plannedOpening s v n k sets).length = some a :=
    ⟨_, if_neg (by rw [Nat.zero_add]; exact Nat.not_le.2 hp)⟩
  refine ⟨a, h.exec_start.trans ((if_neg (by rw [hok]; decide)).trans ((if_neg (Nat.not_lt.2 hs)).trans ?_))⟩
  rw [ho]

theorem openingStored_only (s : State) (v : Fin 16) (j : VeeJob) (hdr : List Byte) : DecodeOnly s (openingStored s v j hdr) :=
  (DecodeOnly.refl s).setLe.setBytes

/-- LOCK names the engine where the opening octets lie elsewhere. -/
theorem openingStored_lock (hp : s.poison = []) (v : Fin 16) {j : VeeJob} (hc : j.ctx + 256 ≤ hbmBytes) {hdr : List Byte}
    (hd : fieldOf j.desc 0x20 8 + hdr.length ≤ j.ctx ∨ j.ctx + 256 ≤ fieldOf j.desc 0x20 8) :
    (openingStored s v j hdr).le (j.ctx + 0x41) 1 = v + 1 := by
  have hlen : (hdr.take (fieldOf j.desc 0x28 4)).length ≤ hdr.length := List.length_take_le' _ _
  exact (le_setBytes_outside _ _ _ _ _ (by omega)).trans (le_setLe_octet hp (by omega) (by omega))

/-- Nothing past the buffer is written but LOCK. -/
theorem openingStored_bytes (s : State) (v : Fin 16) (j : VeeJob) (hdr : List Byte) {a : Nat}
    (ha : fieldOf j.desc 0x20 8 + fieldOf j.desc 0x28 4 ≤ a) (hl : a ≠ j.ctx + 0x41) :
    (openingStored s v j hdr).byte a = s.byte a := by
  have hlen : (hdr.take (fieldOf j.desc 0x28 4)).length ≤ fieldOf j.desc 0x28 4 := List.length_take_le _ _
  exact (byte_setBytes_outside _ _ _ _ (by omega)).trans (sameMemoryBut_setLe s (j.ctx + 0x41) 1 _ a (by omega))

theorem pictureTaken_shows (s : State) (v : Fin 16) (j : VeeJob) :
    (pictureTaken s v j).veeJob v = some j ∧ (pictureTaken s v j).injected = (s.disarm 1 v).injected ∧
    (pictureTaken s v j).isSet (R.VEE_STATUS_BUSY v) = true ∧
    (pictureTaken s v j).get (R.VEE_WD_SCALE_SCALE v) = s.get (R.VEE_WD_SCALE_SCALE v) ∧ (pictureTaken s v j).mem = s.mem ∧
    (pictureTaken s v j).hts = s.hts ∧ (pictureTaken s v j).ctr = s.ctr := by
  have hj := setVeeJob_job s v (some j)
  have hb := setVeeJob_busy s v (some j)
  have hs := setVeeJob_get s v (some j) (f := R.VEE_WD_SCALE_SCALE v) (a := 0x900010) rfl (by decide)
  obtain ⟨hm, hh, hk, -, -, hi⟩ := setVeeJob_leaves s v (some j)
  unfold pictureTaken State.disarm
  rw [← hi]
  generalize s.setVeeJob v (some j) = t at *
  exact ⟨hj, rfl, hb, hs, hm, hh, hk⟩

theorem pictureShown_leaves (s : State) (v addr effort samples : Nat) :
    (pictureShown s v addr effort samples).vees = s.vees ∧ (pictureShown s v addr effort samples).injected = s.injected ∧
    (pictureShown s v addr effort samples).mem = s.mem ∧ (pictureShown s v addr effort samples).hts = s.hts ∧
    (pictureShown s v addr effort samples).ctr = s.ctr := by
  simp only [pictureShown, put_vees, put_injected, put_mem, put_hts, put_ctr, putPair_vees, putPair_injected, putPair_mem, putPair_hts,
    putPair_ctr, and_self]

/-- BUSY stands in none of the registers that show the picture. -/
theorem pictureShown_busy (s : State) (v addr effort samples : Nat) :
    (pictureShown s v addr effort samples).isSet (R.VEE_STATUS_BUSY v) = s.isSet (R.VEE_STATUS_BUSY v) := by
  have hne {a : Nat} (ha : 0x900008 ≠ a) : (R.VEE_STATUS_BUSY v).addr ≠ a + v * 0x10000 := perEngine_ne ha v
  exact congrArg (· == 1) <| (get_put_ne _ _ _ _ (hne (by decide))).trans <| (get_put_ne _ _ _ _ (hne (by decide))).trans <|
    (get_put_ne _ _ _ _ (hne (by decide))).trans <| (get_put_ne _ _ _ _ (hne (by decide))).trans (get_put_ne _ _ _ _ (hne (by decide)))

theorem pictureShown_budget (s : State) (v addr effort samples : Nat) :
    (pictureShown s v addr effort samples).get (R.VEE_CUR_BUDGET_CYCLES v) =
      min (2 ^ 32 - 1) (s.get (R.VEE_WD_SCALE_SCALE v) * (100000 + 2 * samples)) := by
  have hne {a : Nat} (ha : 0x900010 ≠ a) : (R.VEE_WD_SCALE_SCALE v).addr ≠ a + v * 0x10000 := perEngine_ne ha v
  have hscale : (((s.putPair (R.VEE_CUR_DESC_LO_ADDR v) (R.VEE_CUR_DESC_HI_ADDR v) addr).put (R.VEE_CUR_CYCLES_CYCLES v) 0).put
      (R.VEE_CUR_EFFORT_LEVEL v) effort).get (R.VEE_WD_SCALE_SCALE v) = s.get (R.VEE_WD_SCALE_SCALE v) :=
    (get_put_ne _ _ _ _ (hne (by decide))).trans <| (get_put_ne _ _ _ _ (hne (by decide))).trans <|
      (get_put_ne _ _ _ _ (hne (by decide))).trans (get_put_ne _ _ _ _ (hne (by decide)))
  refine (get_put_same _ _ _ (Nat.le_of_ble_eq_true rfl)).trans ?_
  rw [hscale]
  exact Nat.mod_eq_of_lt ((min_le_left _ _).trans_lt (show 2 ^ 32 - 1 < 2 ^ 32 by decide))

/-- A picture that starts is the engine's job, with its budget; of memory, its opening octets and LOCK are written. -/
theorem pictureStarted_shows (s : State) (v : Fin 16) (k : Task) (j : VeeJob) (hdr : List Byte) :
    (pictureStarted s v k j hdr).veeJob v = some j ∧ (pictureStarted s v k j hdr).injected = (s.disarm 1 v).injected ∧
    (pictureStarted s v k j hdr).isSet (R.VEE_STATUS_BUSY v) = true ∧
    (pictureStarted s v k j hdr).get (R.VEE_CUR_BUDGET_CYCLES v) =
      min (2 ^ 32 - 1) (s.get (R.VEE_WD_SCALE_SCALE v) * (100000 + 2 * encSamples j.cfg)) ∧
    (pictureStarted s v k j hdr).mem = (openingStored s v j hdr).mem ∧ (pictureStarted s v k j hdr).hts = s.hts ∧
    (pictureStarted s v k j hdr).ctr = s.ctr := by
  have hr := openingStored_only s v j hdr
  have hinj : ((openingStored s v j hdr).disarm 1 v).injected = (s.disarm 1 v).injected := by
    rw [State.disarm, hr.frame]
    rfl
  unfold pictureStarted
  generalize openingStored s v j hdr = r at *
  obtain ⟨hj, hi, hb, hs, hm, hh, hk⟩ := pictureTaken_shows r v j
  generalize pictureTaken r v j = q at *
  obtain ⟨hv', hi', hm', hh', hk'⟩ := pictureShown_leaves q v k.descAddr j.effort (encSamples j.cfg)
  have hb' := pictureShown_busy q v k.descAddr j.effort (encSamples j.cfg)
  have hs' := pictureShown_budget q v k.descAddr j.effort (encSamples j.cfg)
  rw [hs, get_of_regs hr.regs] at hs'
  exact ⟨(congrArg (fun m => SMap.get none m v.val) hv').trans hj, hi'.trans (hi.trans hinj), hb'.trans hb, hs', hm'.trans hm,
    hh'.trans (hh.trans hr.hts), hk'.trans (hk.trans hr.ctr)⟩

/-- A picture whose opening octets fit its buffer starts. -/
theorem EncodeTask.picture_starts (h : EncodeTask s v n k) (hok : encodeOk s k = true)
    (hs : (plannedJob s v n k sets).cap + 512 ≤ fieldOf (s.bytes k.descAddr 64) 0x28 4)
    (hl : (plannedOpening s v n k sets).length ≤ fieldOf (s.bytes k.descAddr 64) 0x28 4) (hp : s.poison = [])
    (hc : encodeCtx s k + 256 ≤ hbmBytes)
    (hd : fieldOf (s.bytes k.descAddr 64) 0x20 8 + (plannedOpening s v n k sets).length ≤ encodeCtx s k ∨
      encodeCtx s k + 256 ≤ fieldOf (s.bytes k.descAddr 64) 0x20 8) :
    Completes (exec (.encodeStart v sets) s) fun t =>
      t.veeJob v = some (plannedJob s v n k sets) ∧ t.le (encodeCtx s k + 0x41) 1 = v + 1 ∧ t.isSet (R.VEE_STATUS_BUSY v) = true ∧
      t.injected = (s.disarm 1 v).injected ∧ t.get (R.VEE_CUR_BUDGET_CYCLES v) =
        min (2 ^ 32 - 1) (s.get (R.VEE_WD_SCALE_SCALE v) * (100000 + 2 * encSamples (encodeCfg s k))) ∧
      t.hts = s.hts ∧ t.ctr = s.ctr := by
  obtain ⟨hj, hi, hb, hg, hm, hh, hk⟩ := pictureStarted_shows s v k (plannedJob s v n k sets) (plannedOpening s v n k sets)
  have hlock := openingStored_lock hp v (j := plannedJob s v n k sets) hc hd
  exact ⟨_, h.exec_starts hok hs hl, hj, (le_of_mem hm _ _).trans hlock, hb, hi, hg, hh, hk⟩

/-- A picture whose opening octets pass its buffer starts again, with nothing past the buffer written. -/
theorem EncodeTask.opening_overruns (h : EncodeTask s v n k) (hok : encodeOk s k = true)
    (hs : (plannedJob s v n k sets).cap + 512 ≤ fieldOf (s.bytes k.descAddr 64) 0x28 4)
    (hl : fieldOf (s.bytes k.descAddr 64) 0x28 4 < (plannedOpening s v n k sets).length) :
    Completes (exec (.encodeStart v sets) s) fun t =>
      t.veeJob v = some (plannedJob s v n k sets).again ∧ t.hts = s.hts ∧
      ∀ a, fieldOf (s.bytes k.descAddr 64) 0x20 8 + fieldOf (s.bytes k.descAddr 64) 0x28 4 ≤ a → a ≠ encodeCtx s k + 0x41 →
        t.byte a = s.byte a := by
  obtain ⟨a, he⟩ := h.exec_overruns hok hs hl
  obtain ⟨hdesc, hctx, -, hattempt⟩ := plannedJob_reads s v n k sets
  obtain ⟨-, -, -, -, hm, hh, -⟩ := pictureStarted_shows s v k (plannedJob s v n k sets) (plannedOpening s v n k sets)
  rw [veeExpires_first _ v hattempt] at he
  generalize pictureStarted s v k (plannedJob s v n k sets) (plannedOpening s v n k sets) = q at *
  obtain ⟨hm', hh'⟩ := veeNoted_leaves q v (plannedJob s v n k sets) 0 (some a)
  generalize veeNoted q v (plannedJob s v n k sets) 0 (some a) = r at *
  obtain ⟨hj, hm'', hh'', -⟩ := pictureRetried_shows r v (plannedJob s v n k sets)
  refine ⟨_, he, hj, hh''.trans (hh'.trans hh), fun b hb hne => ?_⟩
  rw [State.byte, hm''.trans (hm'.trans hm)]
  exact openingStored_bytes s v _ _ (by rwa [hdesc]) (by rwa [hctx])

end Start

/-! ### Rows (R217 to R221, R236, R238) -/

/-- An engine in service codes the picture `j`, whose next row is due; a row is at most `bound` octets once it is skipped, and `left` rows
follow it. -/
structure RowDue (s : State) (v : Fin 16) (j : VeeJob) (left bound : Nat) : Prop where
  job : s.veeJob v = some j
  notFailing : j.failing = false
  notFenced : s.isFenced Unit.vee v = false
  due : j.rows.length < encRows j.cfg
  ready : s.rowReady j j.rows.length = true
  left : left = encRows j.cfg - j.rows.length - 1
  bound : bound = skipBound j.cfg j.intra (s.isTile j.slot)

/-- Whether a row of `n` octets fits beside the bound of each later row, no row before it being truncated. -/
def rowFits (j : VeeJob) (n left bound : Nat) : Bool := j.cutFrom.isNone && decide (j.spent + n + left * bound ≤ j.cap)

/-- The job with its next row coded, of `out` octets: what the QP, the shares and the input store come to is given. -/
def rowCoded (j : VeeJob) (fits : Bool) (out qp next : Nat) (share : Int) (maxFrom : Option Nat) (store : List Nat) (tile : Bool) :
    VeeJob :=
  { j with
    qp := next, spent := j.spent + out, share := share, maxFrom := maxFrom, store := store
    rows := j.rows ++ [⟨qp, out, if fits then none else some (skippedAs (fieldOf j.cfg 0 1) j.intra tile)⟩]
    cutFrom := if fits then none else some (j.cutFrom.getD j.rows.length) }

section Rows

variable {s : State} {v : Fin 16} {j : VeeJob} {coded trunc : List Byte} {units : List PredUnit} {left bound : Nat}

/-- A tile row with a unit that reads outside its region is not coded. -/
theorem RowDue.exec_outside (h : RowDue s v j left bound) (ht : s.isTile j.slot = true)
    (hu : (units.any fun u => !unitInside u (fieldOf j.cfg 2 2) (fieldOf j.cfg 4 2)) = true) :
    exec (.encodeRow v ⟨coded, units⟩ trunc) s = .next s := by
  simp only [exec, execEncodeRow, h.job, ht, hu, Bool.and_true, Bool.or_true, if_true]

/-- The octets of a row that is coded or truncated. -/
def rowOctets (j : VeeJob) (coded trunc : List Byte) (left bound : Nat) : List Byte :=
  if rowFits j coded.length left bound then coded else trunc

theorem RowDue.exec_row (h : RowDue s v j left bound) (hl : trunc.length ≤ bound)
    (hu : s.isTile j.slot = true → (units.all fun u => unitInside u (fieldOf j.cfg 2 2) (fieldOf j.cfg 4 2)) = true)
    (ho : j.spent + max coded.length trunc.length ≤ fieldOf j.desc 0x28 4) :
    ∃ (r : State) (qp next : Nat) (share : Int) (maxFrom : Option Nat) (store : List Nat), DecodeOnly s r ∧
      exec (.encodeRow v ⟨coded, units⟩ trunc) s = .next (r.setVeeJob v (some (rowCoded j (rowFits j coded.length left bound)
        (rowOctets j coded trunc left bound).length qp next share maxFrom store (s.isTile j.slot)))) := by
  have hunits : (s.isTile j.slot && units.any fun u => !unitInside u (fieldOf j.cfg 2 2) (fieldOf j.cfg 4 2)) = false := by
    cases ht : s.isTile j.slot with
    | false => rfl
    | true => simpa using hu ht
  have hlen : (rowOctets j coded trunc left bound).length ≤ max coded.length trunc.length := by
    unfold rowOctets
    split
    exacts [le_max_left _ _, le_max_right _ _]
  have hover : j.overrun j.spent (if rowFits j coded.length left bound = true then coded else trunc).length = none :=
    if_pos ((Nat.add_le_add_left hlen j.spent).trans ho)
  have hbound := h.bound ▸ hl
  have hfits : (j.cutFrom.isNone && decide (j.spent + coded.length +
      (encRows j.cfg - j.rows.length - 1) * skipBound j.cfg j.intra (s.isTile j.slot) ≤ j.cap)) = rowFits j coded.length left bound := by
    rw [rowFits, h.left, h.bound]
  simp only [exec, execEncodeRow, h.job, h.notFailing, h.notFenced, h.ready, hunits, Nat.not_le.2 h.due, Nat.not_lt.2 hbound, hfits,
    hover, decide_false, Bool.or_false, Bool.not_true, Bool.false_eq_true, if_false]
  exact ⟨_, _, _, _, _, _, (DecodeOnly.refl s).setBytes.writeRecon, rfl⟩

theorem rowFits_iff {n : Nat} : rowFits j n left bound = true ↔ j.cutFrom = none ∧ j.spent + n + left * bound ≤ j.cap := by
  rw [rowFits, Bool.and_eq_true, Option.isNone_iff_eq_none, decide_eq_true_eq]

/-- The next row is coded where it fits, else it and every later row are truncated: the picture keeps to the cap as long as it could. -/
theorem RowDue.row_codes (h : RowDue s v j left bound) (hl : trunc.length ≤ bound)
    (hu : s.isTile j.slot = true → (units.all fun u => unitInside u (fieldOf j.cfg 2 2) (fieldOf j.cfg 4 2)) = true)
    (ho : j.spent + max coded.length trunc.length ≤ fieldOf j.desc 0x28 4) :
    Completes (exec (.encodeRow v ⟨coded, units⟩ trunc) s) fun t => t.ctr = s.ctr ∧ t.hts = s.hts ∧ t.encs = s.encs ∧
      ∃ j' r, t.veeJob v = some j' ∧ j'.rows = j.rows ++ [r] ∧ j'.spent = j.spent + r.bytes ∧
        (j.cutFrom = none → j.spent + coded.length + left * bound ≤ j.cap → r.bytes = coded.length ∧ r.cut = none ∧ j'.cutFrom = none) ∧
        (j.cutFrom = none → j.cap < j.spent + coded.length + left * bound → r.bytes = trunc.length ∧
          r.cut = some (skippedAs (fieldOf j.cfg 0 1) j.intra (s.isTile j.slot)) ∧ j'.cutFrom = some j.rows.length) ∧
        (∀ i, j.cutFrom = some i → r.bytes = trunc.length ∧
          r.cut = some (skippedAs (fieldOf j.cfg 0 1) j.intra (s.isTile j.slot)) ∧ j'.cutFrom = some i) ∧
        (j.spent + (left + 1) * bound ≤ j.cap → j'.spent + left * bound ≤ j.cap) := by
  obtain ⟨q, qp, next, share, maxFrom, store, hq, he⟩ := h.exec_row hl hu ho
  have hcap : (left + 1) * bound = left * bound + bound := Nat.succ_mul left bound
  cases hf : rowFits j coded.length left bound with
  | true =>
    obtain ⟨hn, hfit⟩ := rowFits_iff.1 hf
    rw [hf, rowOctets, if_pos hf] at he
    obtain ⟨-, hh, hk, hx, -⟩ := setVeeJob_leaves q v (some (rowCoded j true coded.length qp next share maxFrom store (s.isTile j.slot)))
    refine ⟨_, he, hk.trans hq.ctr, hh.trans hq.hts, hx.trans hq.encs, _, ⟨qp, coded.length, none⟩, setVeeJob_job _ _ _, rfl, rfl,
      fun _ _ => ⟨rfl, rfl, rfl⟩, fun _ hc => absurd hfit (Nat.not_le.2 hc), fun i hi => ?_, fun _ => hfit⟩
    simp [hn] at hi
  | false =>
    have hnf : ¬ (j.cutFrom = none ∧ j.spent + coded.length + left * bound ≤ j.cap) := fun hx => by simp [rowFits_iff.2 hx] at hf
    rw [hf, rowOctets, if_neg (by rw [hf]; decide)] at he
    obtain ⟨-, hh, hk, hx, -⟩ := setVeeJob_leaves q v (some (rowCoded j false trunc.length qp next share maxFrom store (s.isTile j.slot)))
    have hcut (i : Nat) (hi : j.cutFrom.getD j.rows.length = i) :
        (rowCoded j false trunc.length qp next share maxFrom store (s.isTile j.slot)).cutFrom = some i := congrArg some hi
    refine ⟨_, he, hk.trans hq.ctr, hh.trans hq.hts, hx.trans hq.encs, _, ⟨qp, trunc.length, some _⟩, setVeeJob_job _ _ _, rfl, rfl,
      fun hn hfit => absurd ⟨hn, hfit⟩ hnf, fun hn _ => ⟨rfl, rfl, hcut _ (by rw [hn]; rfl)⟩,
      fun i hi => ⟨rfl, rfl, hcut _ (by rw [hi]; rfl)⟩, fun hs => ?_⟩
    change j.spent + trunc.length + left * bound ≤ j.cap
    omega

end Rows

/-! ### The end of a picture (R214, R216, R218) -/

/-- From `s` to `t` the counter at `a` is kept, and so are memory and the tasks. -/
structure CountedBeside (a : Nat) (s t : State) : Prop where
  mem : t.mem = s.mem
  hts : t.hts = s.hts
  counter : t.counter a = s.counter a

section Counting

variable {a : Nat} {s t : State}

theorem CountedBeside.refl (a : Nat) (s : State) : CountedBeside a s s := ⟨rfl, rfl, rfl⟩

theorem CountedBeside.count {b n : Nat} (h : CountedBeside a s t) (hb : a ≠ b) : CountedBeside a s (t.count b n) :=
  ⟨h.mem, h.hts, (counter_count_ne t n hb).trans h.counter⟩

theorem CountedBeside.put {f : Fld} {x : Nat} (h : CountedBeside a s t) : CountedBeside a s (t.put f x) := ⟨h.mem, h.hts, h.counter⟩

theorem CountedBeside.ite {u : State} {c : Prop} [Decidable c] (h : CountedBeside a s t) (k : CountedBeside a s u) :
    CountedBeside a s (if c then t else u) := by
  split
  · exact h
  · exact k

end Counting

/-- The engine's counts of a picture, and its cycles. -/
def pictureCounted (s : State) (v : Nat) (j : VeeJob) (cycles : Nat) : State :=
  let s := ((s.count (R.C_VEE_PICS v)).count (R.C_VEE_PIXELS v) (encSamples j.cfg)).count (R.C_VEE_BUSY_CYCLES v) cycles
  let s := if j.intra then s.count (R.C_VEE_INTRA_PICS v) else s
  let s := if j.maxFrom.isSome then s.count (R.C_VEE_MAXQP_PICS v) else s
  let s := if j.cutFrom.isSome then
      (s.count (R.C_VEE_TRUNC_PICS v)).count (R.C_VEE_TRUNC_ROWS v) (j.rows.filter fun r => r.cut.isSome).length else s
  let s := if j.stepped then s.count (R.C_VEE_STEPPED_PICS v) else s
  s.put (R.VEE_CUR_CYCLES_CYCLES v) cycles

/-- The counts beside that of pictures leave it. -/
theorem pictureCounted_beside (s : State) (v : Nat) (j : VeeJob) (cycles : Nat) :
    CountedBeside (R.C_VEE_PICS v) (s.count (R.C_VEE_PICS v)) (pictureCounted s v j cycles) := by
  have hne {b : Nat} (hb : 0x900100 ≠ b) : R.C_VEE_PICS v ≠ b + v * 0x10000 := perEngine_ne hb v
  unfold pictureCounted
  extract_lets s₁ s₂ s₃ s₄ s₅
  have h₁ : CountedBeside (R.C_VEE_PICS v) (s.count (R.C_VEE_PICS v)) s₁ :=
    ((CountedBeside.refl _ _).count (hne (by decide))).count (hne (by decide))
  have h₂ : CountedBeside (R.C_VEE_PICS v) (s.count (R.C_VEE_PICS v)) s₂ := .ite (h₁.count (hne (by decide))) h₁
  have h₃ : CountedBeside (R.C_VEE_PICS v) (s.count (R.C_VEE_PICS v)) s₃ := .ite (h₂.count (hne (by decide))) h₂
  have h₄ : CountedBeside (R.C_VEE_PICS v) (s.count (R.C_VEE_PICS v)) s₄ :=
    .ite ((h₃.count (hne (by decide))).count (hne (by decide))) h₃
  have h₅ : CountedBeside (R.C_VEE_PICS v) (s.count (R.C_VEE_PICS v)) s₅ := .ite (h₄.count (hne (by decide))) h₄
  exact h₅.put

/-- A coded picture leaves its context RUNNING and unlocked. -/
theorem updateEncCtx_shows {s : State} (hp : s.poison = []) {j : VeeJob} (hc : j.ctx + 256 ≤ hbmBytes) :
    (s.updateEncCtx j).le (j.ctx + 0x41) 1 = 0 ∧ (s.updateEncCtx j).le (j.ctx + 0x40) 1 = 1 ∧ (s.updateEncCtx j).hts = s.hts ∧
    (s.updateEncCtx j).ctr = s.ctr := by
  unfold State.updateEncCtx
  extract_lets c x n debt cqp costs top weights atMax est weights₁ s₁ s₂ s₃ s₄ b s₅ s₆ s₇ s₈ old k e y s₉
  have hs₁ : DecodeOnly s s₁ := .ite (.refl s) (DecodeOnly.refl s).setBytes
  have hs₂ : DecodeOnly s s₂ := hs₁.setLe.setLe
  have hs₃ : DecodeOnly s s₃ := .ite hs₂.setLe <| .ite hs₂ hs₂.setLe
  have hs₅ : DecodeOnly s s₅ := hs₃.setLe.setLe.setLe.spent
  have hs₇ : DecodeOnly s s₇ := hs₅.setLe.setLe.ctxCount
  have hs₈ : DecodeOnly s s₈ := .ite hs₇.ctxCount hs₇
  have hy : DecodeOnly s y := hs₈.setBytes.spent
  have hp₉ : s₉.poison = [] := hy.unpoisoned hp
  have hh₉ : s₉.hts = s.hts := hy.hts
  have hk₉ : s₉.ctr = s.ctr := hy.ctr
  clear_value s₉
  have hr : DecodeOnly s₉ (s₉.setLe (x + 0x40) 1 1) := (DecodeOnly.refl s₉).setLe
  have hu : DecodeOnly s₉ ((s₉.setLe (x + 0x40) 1 1).setLe (x + 0x41) 1 0) := hr.setLe
  exact ⟨le_setLe_octet (hr.unpoisoned hp₉) (by omega) (by decide),
    (le_setLe_apart _ 0 (by omega)).trans (le_setLe_octet hp₉ (by omega) (by decide)), hu.hts.trans hh₉, hu.ctr.trans hk₉⟩

/-- An engine's first attempt at a picture that is no tile has all its rows, in the units that it names, and ends within its budget. -/
structure EncodeEnds (s : State) (v : Fin 16) (j : VeeJob) (units : List Nat) (cycles : Nat) : Prop where
  job : s.veeJob v = some j
  notFenced : s.isFenced Unit.vee v = false
  notFailing : j.failing = false
  inTime : cycles ≤ s.get (R.VEE_CUR_BUDGET_CYCLES v)
  named : s.unitsOk j units = true
  rows : encRows j.cfg ≤ j.rows.length
  size : units.foldl (fun v n => v + n + (if fieldOf j.cfg 0 1 == 3 then 0 else 4)) 0 = j.spent
  attempt : j.attempt = 1
  noTile : s.isTile j.slot = false

section Ends

variable {s : State} {v : Fin 16} {j : VeeJob} {units : List Nat} {cycles : Nat}

theorem EncodeEnds.exec_complete (h : EncodeEnds s v j units cycles) : ∃ r : State, DecodeOnly s r ∧
    exec (.encodeComplete v units cycles) s =
      .next (((pictureCounted (r.updateEncCtx j) v j cycles).setVeeJob v none).unitComplete j.slot St.ok (0x3010 + v) []) := by
  have hsize : (units.foldl (fun v n => v + n + (if (fieldOf j.cfg 0 1 == 3) = true then 0 else 4)) 0 != j.spent) = false := by
    rw [h.size]
    exact bne_self_eq_false j.spent
  have hrows : decide (j.rows.length < encRows j.cfg) = false := decide_eq_false (Nat.not_lt.2 h.rows)
  have htime : decide (s.get (R.VEE_CUR_BUDGET_CYCLES v) < cycles) = false := decide_eq_false (Nat.not_lt.2 h.inTime)
  change ∃ r, DecodeOnly s r ∧ execEncodeComplete v units cycles s = _
  unfold execEncodeComplete
  rw [h.job]
  dsimp -zeta only
  extract_lets c av1 size status s₁ flags b s₂ e s₃ s₄ cut s₅ s₆ s₇ s₈ s₉ s₁₀ s₁₁
  have hs₁ : DecodeOnly s s₁ := .ite (.refl s) (DecodeOnly.refl s).prefixUnits
  have hs₂ : DecodeOnly s s₂ := hs₁.spent.writeRecord
  have htile : s₂.isTile j.slot = false := by rw [State.isTile, State.taskAt, hs₂.hts]; exact h.noTile
  have hs₃ : s₃ = s₂ := if_neg (by rw [htile]; decide)
  have hstatus : status = St.ok := if_neg (by rw [h.attempt]; decide)
  have hgo : (j.failing || s.isFenced Unit.vee v || decide (j.rows.length < encRows c) || size != j.spent || !s.unitsOk j units ||
      decide (s.get (R.VEE_CUR_BUDGET_CYCLES v) < cycles)) = false := by
    rw [h.notFailing, h.notFenced, hrows, hsize, h.named, htime]
    rfl
  refine ⟨s₂, hs₂, ?_⟩
  rw [if_neg (by rw [hgo]; decide), if_neg (by rw [h.attempt]; decide)]
  unfold s₁₁ s₁₀ s₉ s₈ s₇ s₆ s₅ s₄
  rw [hs₃, hstatus]
  rfl

/-- A picture whose rows are all written ends: the engine is idle, its context RUNNING and unlocked, and the picture counted. -/
theorem EncodeEnds.picture_ends (h : EncodeEnds s v j units cycles) (hp : s.poison = []) (hc : j.ctx + 256 ≤ hbmBytes) :
    Completes (exec (.encodeComplete v units cycles) s) fun t => ∃ u : State,
      t = u.unitComplete j.slot St.ok (0x3010 + v) [] ∧ u.veeJob v = none ∧ u.le (j.ctx + 0x41) 1 = 0 ∧ u.le (j.ctx + 0x40) 1 = 1 ∧
      u.isSet (R.VEE_STATUS_BUSY v) = false ∧ u.hts = s.hts ∧
      u.counter (R.C_VEE_PICS v) = (s.counter (R.C_VEE_PICS v) + 1) % 2 ^ 64 := by
  obtain ⟨r, hr, he⟩ := h.exec_complete
  obtain ⟨hlock, hstate, hhts, hctr⟩ := updateEncCtx_shows (hr.unpoisoned hp) hc
  have hcount : (r.updateEncCtx j).counter (R.C_VEE_PICS v) = s.counter (R.C_VEE_PICS v) := by
    rw [State.counter, hctr, hr.ctr, State.counter]
  generalize r.updateEncCtx j = q at *
  have hq := pictureCounted_beside q v j cycles
  generalize pictureCounted q v j cycles = p at *
  have hmem : p.mem = q.mem := hq.mem
  obtain ⟨hm, hh, hk, -⟩ := setVeeJob_leaves p v none
  refine ⟨_, he, _, rfl, setVeeJob_job p v none, (le_of_mem (hm.trans hmem) _ _).trans hlock, (le_of_mem (hm.trans hmem) _ _).trans hstate,
    setVeeJob_busy p v none, hh.trans (hq.hts.trans (hhts.trans hr.hts)), ?_⟩
  rw [State.counter, hk, ← State.counter, hq.counter, counter_count_same, hcount]

end Ends

/-! ### A request for an intra picture (R224) -/

/-- The descriptor named has FORCE_INTRA set, and the requests that waited are merged in it. -/
theorem encForceIntra_sets {s : State} (hp : s.poison = []) (e : Fin 16384) {desc : Nat} (hd : desc + 64 ≤ hbmBytes) :
    Completes (exec (.encForceIntra e desc) s) fun t =>
      t.le (desc + 0x2C) 2 = (s.le (desc + 0x2C) 2 ||| 1) ∧ SameMemoryBut s t (desc + 0x2C) 2 ∧ t.obj 0x504007 e 0 = 0 ∧ t.regs = s.regs ∧
      t.ctr = s.ctr := by
  have hw : (s.le (desc + 0x2C) 2 ||| 1) < 2 ^ 16 := Nat.or_lt_two_pow (le_lt s (desc + 0x2C) 2) (by decide)
  have hr : DecodeOnly s (s.setLe (desc + 0x2C) 2 (s.le (desc + 0x2C) 2 ||| 1)) := (DecodeOnly.refl s).setLe
  have hread := (le_setLe s (desc + 0x2C) 2 (s.le (desc + 0x2C) 2 ||| 1) hp (addressExists_hbm (by omega))).trans (Nat.mod_eq_of_lt hw)
  have hmem := sameMemoryBut_setLe s (desc + 0x2C) 2 (s.le (desc + 0x2C) 2 ||| 1)
  have hx : exec (.encForceIntra e desc) s =
      .next ((s.setLe (desc + 0x2C) 2 (s.le (desc + 0x2C) 2 ||| 1)).setObj 0x504007 e 0 0) := rfl
  rw [hx]
  generalize s.setLe (desc + 0x2C) 2 (s.le (desc + 0x2C) 2 ||| 1) = r at *
  refine ⟨_, rfl, ?_, ?_, ?_, ?_, ?_⟩
  · rw [setObj_le_read, hread]
  · exact sameMemoryBut_of_mem hmem (setObj_mem _ _ _ _ _)
  · exact obj_setObj_same _ _ _ _ _
  · rw [setObj_regs, hr.regs]
  · rw [setObj_ctr, hr.ctr]

end Sys2Proof.Laws
end

section
/-! The statement of chapter 6 about the encode engines. -/

namespace Sys2Proof.Proofs

open Sys2Proof Sys2Proof.Machine Sys2Proof.Safety Sys2Proof.Laws

/-- Settles O25: what an encode task comes to by its check, its sizes and its opening octets, a row coded or truncated, the end of a picture, its
expiries, and the request for an intra picture. -/
theorem encodeEnginesHoldTheCap : Obligations.EncodeEnginesHoldTheCap := by
  refine ⟨?start, ?row, ?ends, fun s e desc hd hp => encForceIntra_sets hp e hd⟩
  case start =>
    rintro s v sets _ _ _ _ n _ k _ _ hk hi rfl rfl rfl rfl hkind rfl rfl rfl
    have h : EncodeTask s v n k := ⟨hk, hi, hkind⟩
    exact ⟨h.refused_ends, fun hok => ⟨h.small_ends hok, h.picture_starts hok, h.opening_overruns hok⟩⟩
  case row =>
    rintro s v j coded trunc units left bound _ hj hf hn hdue hready hleft rfl hbound hl
    have h : RowDue s v j left bound := ⟨hj, hf, hn, hdue, hready, hleft, hbound⟩
    refine ⟨fun ht hu => ⟨s, h.exec_outside ht hu, rfl⟩, h.row_codes hl⟩
  case ends =>
    intro s v j units cycles hj hn hp hc
    refine ⟨fun hf ht hu hr hs ha htile => ?complete, fun he hx ha => ?first, fun he hx ha => ?second⟩
    case complete =>
      have h : EncodeEnds s v j units cycles := ⟨hj, hn, hf, ht, hu, hr, hs, ha, htile⟩
      exact h.picture_ends hp hc
    case first =>
      have h : EncodeWatched s v j := ⟨hj, hn, he⟩
      exact h.first_retries hx ha
    case second =>
      have h : EncodeWatched s v j := ⟨hj, hn, he⟩
      exact h.second_fences hp hc hx ha

end Sys2Proof.Proofs
end

section
/-! SUPPORT. The messages of the cascade (R403 to R408): what a RELIABLE message leaves of the objects, of the conferences and of the numbers that the
trunks' send windows have given. -/

namespace Sys2Proof.Laws

open Sys2Proof Sys2Proof.Machine Sys2Proof.Safety

/-! ### What a frame on a trunk leaves

`CascadeKept` chains as `Keeps` does. -/

/-- From `s` to `t` no object and no conference changes, and no trunk's send window gives a number. -/
structure CascadeKept (s t : State) : Prop where
  objNum : t.objNum = s.objNum
  confs : t.trk.confs = s.trk.confs
  numbers : ∀ n, (t.trunk n).txNext = (s.trunk n).txNext

section Messages

variable {s t u : State}

theorem CascadeKept.refl (s : State) : CascadeKept s s := ⟨rfl, rfl, fun _ => rfl⟩

theorem CascadeKept.trans (h : CascadeKept s t) (k : CascadeKept t u) : CascadeKept s u :=
  ⟨k.objNum.trans h.objNum, k.confs.trans h.confs, fun n => (k.numbers n).trans (h.numbers n)⟩

theorem CascadeKept.ite {c : Prop} [Decidable c] (h : CascadeKept s t) (k : CascadeKept s u) : CascadeKept s (if c then t else u) := by
  split
  · exact h
  · exact k

theorem CascadeKept.others (h : CascadeKept s t) (ho : u.objNum = t.objNum) (ht : u.trk = t.trk) : CascadeKept s u :=
  h.trans ⟨ho, by rw [ht], fun n => by rw [State.trunk, ht, State.trunk]⟩

theorem CascadeKept.obj (h : CascadeKept s t) (o i d : Nat) : t.obj o i d = s.obj o i d := by rw [State.obj, h.objNum, State.obj]
theorem CascadeKept.cascade (h : CascadeKept s t) (c : Nat) : t.cascade c = s.cascade c := by rw [State.cascade, h.confs, State.cascade]

theorem CascadeKept.count {a n : Nat} (h : CascadeKept s t) : CascadeKept s (t.count a n) := h.others rfl rfl
theorem CascadeKept.spent (h : CascadeKept s t) : CascadeKept s t.spent := h.others rfl rfl
theorem CascadeKept.emit {o : Output} (h : CascadeKept s t) : CascadeKept s (t.emit o) := h.others rfl rfl
theorem CascadeKept.setSlot {n : Nat} {k : KeySlot} (h : CascadeKept s t) : CascadeKept s (t.setSlot n k) := h.others rfl rfl

theorem CascadeKept.setBytes {a : Nat} {bs : List Byte} (h : CascadeKept s t) : CascadeKept s (t.setBytes a bs) := by
  have hb : DecodeOnly t (t.setBytes a bs) := (DecodeOnly.refl t).setBytes
  exact h.others (by rw [hb.frame]) (by rw [hb.frame])

theorem CascadeKept.setLe {a n v : Nat} (h : CascadeKept s t) : CascadeKept s (t.setLe a n v) := h.setBytes
theorem CascadeKept.zero {a n : Nat} (h : CascadeKept s t) : CascadeKept s (t.zero a n) := h.setBytes

theorem CascadeKept.writeWord {n : Nat} {w : QWord} {o : WordOwner} (h : CascadeKept s t) : CascadeKept s (t.writeWord n w o).1 :=
  h.others (writeWord_leaves State.objNum (fun _ _ _ => rfl) (fun _ _ => rfl) t n w o)
    (writeWord_leaves State.trk (fun _ _ _ => rfl) (fun _ _ => rfl) t n w o)

theorem CascadeKept.postEvent {q a : Nat} {data : List Byte} (h : CascadeKept s t) : CascadeKept s (t.postEvent q a data) := by
  have hpost : CascadeKept s (t.post q 0 data).1 := by
    have hw := h.writeWord (n := q) (w := ⟨data, true, true, false, 0⟩) (o := .entry)
    unfold State.post
    split <;> next e => rwa [e] at hw
  exact .ite h <| .ite hpost hpost.count

theorem CascadeKept.trunkEvent {ty st what : Nat} {epoch : Option Nat} (h : CascadeKept s t) : CascadeKept s (t.trunkEvent ty st what epoch) :=
  h.spent.postEvent

theorem CascadeKept.exhaust {n : Nat} (h : CascadeKept s t) : CascadeKept s (t.exhaust n) := by
  unfold State.exhaust
  extract_lets k
  split
  exacts [h.setSlot.postEvent, h.setSlot.postEvent, h]

theorem CascadeKept.takeCounter {n : Nat} (h : CascadeKept s t) : CascadeKept s (t.takeCounter n) := by
  unfold State.takeCounter
  extract_lets k
  split
  · exact h
  · have hs {k : KeySlot} {soft : Bool} {g c : Nat} :
        CascadeKept s (if soft = true then (t.setSlot n k).keyEvent 1 n g c else t.setSlot n k) := .ite h.setSlot.postEvent h.setSlot
    exact .ite hs.exhaust hs

theorem CascadeKept.markIndex {c i : Nat} {rtcp : Bool} (h : CascadeKept s t) : CascadeKept s (t.markIndex c rtcp i) :=
  .ite h.setLe.setLe h.setLe.setLe.setLe.setLe

theorem CascadeKept.failRequest {id status gen value n : Nat} {r : CipherReq} (h : CascadeKept s t) :
    CascadeKept s (t.failRequest id r status gen value n) := by
  have hz : CascadeKept s (if r.input.isNone = true then t.zero r.dst n else t) := .ite h.zero h
  unfold State.failRequest State.complete
  dsimp only
  split
  exacts [hz.emit, hz.others rfl rfl]

theorem CascadeKept.countRefusal {status : Nat} (h : CascadeKept s t) : CascadeKept s (t.countRefusal status) :=
  .ite h.count <| .ite h.count <| .ite h.count h

theorem CascadeKept.acceptRequest {id core : Nat} {r : CipherReq} (h : CascadeKept s t) : CascadeKept s (t.acceptRequest id core r) := by
  unfold State.acceptRequest
  split
  · exact .failRequest (.countRefusal (.ite h.exhaust h))
  · extract_lets _ op y s₁ y₁ s₂ y₂
    have hs₁ : CascadeKept s s₁ := h.others rfl rfl
    have hs₂ : CascadeKept s s₂ := .ite hs₁.takeCounter hs₁.setSlot
    exact .ite hs₂ <| .ite hs₂.markIndex (hs₂.others rfl rfl)

theorem CascadeKept.dispatchCipher {fuel : Nat} (h : CascadeKept s t) : CascadeKept s (t.dispatchCipher fuel) := by
  induction fuel generalizing t with
  | zero => exact h
  | succ fuel ih =>
    have hw {x : List (Nat × CipherReq)} : CascadeKept s { t with cpx := { t.cpx with waiting := x } } := h.others rfl rfl
    unfold State.dispatchCipher
    split
    · exact h
    · refine .ite (ih hw.failRequest) (.ite h ?_)
      split
      exacts [h, ih hw.acceptRequest]

theorem CascadeKept.submit {r : CipherReq} (h : CascadeKept s t) : CascadeKept s (t.submit r) := .dispatchCipher (h.others rfl rfl)

/-- A body of the send window goes out encrypted (R398, R403). -/
theorem CascadeKept.transmit {n : Nat} {b : SentBody} (h : CascadeKept s t) : CascadeKept s (t.transmit n b) := by
  refine .ite h (.ite h ?_)
  unfold State.trunkSend
  extract_lets tpl hdr frame s₁ data input s₂
  have hs₂ : CascadeKept s s₂ := CascadeKept.others (t := s₁) h.count rfl rfl
  split_ifs with _ hty
  · exact h
  · exact absurd hty (by decide)
  · exact hs₂.submit

theorem trunk_setTrunk (s : State) (n m : Nat) (k : Trunk) : (s.setTrunk n k).trunk m = if m = n then k else s.trunk m := by
  have ht : (s.setTrunk n k).trk = { s.trk with trunks := SMap.set Trunk.init s.trk.trunks n k } := by
    unfold State.setTrunk
    dsimp only
    split <;> rfl
  rw [State.trunk, ht, get_set, State.trunk]

theorem setTrunk_confs (s : State) (n : Nat) (k : Trunk) : (s.setTrunk n k).trk.confs = s.trk.confs := by
  unfold State.setTrunk
  dsimp only
  split <;> rfl

theorem setTrunk_objNum (s : State) (n : Nat) (k : Trunk) : (s.setTrunk n k).objNum = s.objNum := by
  unfold State.setTrunk
  dsimp only
  split <;> rfl

theorem CascadeKept.setTrunk {n : Nat} {k : Trunk} (h : CascadeKept s t) (hk : k.txNext = (t.trunk n).txNext) :
    CascadeKept s (t.setTrunk n k) := by
  refine h.trans ⟨setTrunk_objNum t n k, setTrunk_confs t n k, fun m => ?_⟩
  rw [trunk_setTrunk]
  split
  · next e => rw [hk, e]
  · rfl

theorem CascadeKept.pump {n : Nat} {bs : List SentBody} (h : CascadeKept s t) : CascadeKept s (t.pump n bs) := by
  induction bs generalizing t with
  | nil => exact h
  | cons b bs ih =>
    unfold State.pump
    extract_lets k b' s₁
    have hs₁ : CascadeKept s s₁ := h.setTrunk rfl
    split_ifs
    exacts [ih h, h, ih hs₁.transmit]

end Messages

/-! ### A message to another module (R403 to R408) -/

/-- A RELIABLE message leaves the objects and the conferences as they are, whether it is sent or not. -/
theorem tell_leaves (s : State) (t kind conf : Nat) (what : List Nat) :
    (s.tell t kind conf what).1.objNum = s.objNum ∧ (s.tell t kind conf what).1.trk.confs = s.trk.confs := by
  have hsend (body : List Byte) : (s.spent.sendReliable t body).1.objNum = s.objNum ∧ (s.spent.sendReliable t body).1.trk.confs = s.trk.confs := by
    unfold State.sendReliable
    dsimp only
    split
    · exact ⟨rfl, rfl⟩
    · have hp {k : Trunk} {bs : List SentBody} : ((s.spent.setTrunk t k).pump t bs).objNum = s.objNum ∧
          ((s.spent.setTrunk t k).pump t bs).trk.confs = s.trk.confs := by
        have h : CascadeKept (s.spent.setTrunk t k) ((s.spent.setTrunk t k).pump t bs) := (CascadeKept.refl _).pump
        exact ⟨h.objNum.trans (setTrunk_objNum ..), h.confs.trans (setTrunk_confs ..)⟩
      split
      · exact hp
      · exact hp
  unfold State.tell
  dsimp only
  split
  · exact hsend _
  · exact hsend _

/-- On a trunk that carries messages the next number of its send window goes to the message. -/
theorem tell_carried {s : State} {t : Nat} (hc : (s.trunk t).st.carries = true) (hw : s.get (R.TRK_Tt_WIN_WIN_MIB t) ≠ 0)
    (kind conf : Nat) (what : List Nat) : (s.tell t kind conf what).2 = St.ok ∧
      ((s.tell t kind conf what).1.trunk t).txNext = ((s.trunk t).txNext + 1) % 2 ^ 32 := by
  have hif : (!(s.spent.trunk t).st.carries || decide (s.spent.get (R.TRK_Tt_WIN_WIN_MIB t) = 0)) = false := by
    change (!(s.trunk t).st.carries || decide (s.get (R.TRK_Tt_WIN_WIN_MIB t) = 0)) = false
    rw [hc, decide_eq_false hw]
    rfl
  have hsend (body : List Byte) : (s.spent.sendReliable t body).2 = St.ok ∧
      ((s.spent.sendReliable t body).1.trunk t).txNext = ((s.trunk t).txNext + 1) % 2 ^ 32 := by
    have hp {k : Trunk} {bs : List SentBody} : (((s.spent.setTrunk t k).pump t bs).trunk t).txNext = k.txNext := by
      rw [((CascadeKept.refl _).pump).numbers, trunk_setTrunk, if_pos rfl]
    simp only [State.sendReliable, hif, Bool.false_eq_true, if_false]
    split
    · exact ⟨trivial, hp⟩
    · exact ⟨trivial, hp⟩
  unfold State.tell
  dsimp only
  rw [if_pos (hsend _).1]
  exact hsend _

theorem objNum_tell (s : State) (t kind conf : Nat) (what : List Nat) : (s.tell t kind conf what).1.objNum = s.objNum :=
  (tell_leaves s t kind conf what).1

theorem confs_tell (s : State) (t kind conf : Nat) (what : List Nat) : (s.tell t kind conf what).1.trk.confs = s.trk.confs :=
  (tell_leaves s t kind conf what).2

/-- What is said to every module that is reached leaves the objects and the conferences (R408). -/
theorem tellAll_leaves (s : State) (conf kind : Nat) (what : List Nat) :
    (s.tellAll conf kind what).objNum = s.objNum ∧ (s.tellAll conf kind what).trk.confs = s.trk.confs := by
  unfold State.tellAll
  refine List.foldlRecOn (motive := fun (t : State) => t.objNum = s.objNum ∧ t.trk.confs = s.trk.confs) _ _ ⟨rfl, rfl⟩ fun t ht m _ => ?_
  split
  · exact ⟨(objNum_tell ..).trans ht.1, (confs_tell ..).trans ht.2⟩
  · exact ht

end Sys2Proof.Laws
end

section
/-! SUPPORT. Legs and conferences (R232, R408 to R419, R544, R545): what each event of a leg, each operation and each message between modules
comes to. -/

namespace Sys2Proof.Laws

open Sys2Proof Sys2Proof.Machine Sys2Proof.Safety

/-! ### Objects and conferences -/

/-- What an object holds is what it was after a write of another. -/
theorem obj_setObj_apart (s : State) (o i d v o' i' d' : Nat) (h : o' * 16777216 + i' ≠ o * 16777216 + i) :
    (s.setObj o i d v).obj o' i' d' = s.obj o' i' d' := obj_setObj_ne s o i d v o' i' d' h

@[simp] theorem cascade_setCascade (s : State) (conf : Nat) (c : Cascade) : (s.setCascade conf c).cascade conf = c := get_set_same _ _ _ _
@[simp] theorem obj_setCascade (s : State) (conf : Nat) (c : Cascade) (o i d : Nat) : (s.setCascade conf c).obj o i d = s.obj o i d := rfl
@[simp] theorem cascade_setObj (s : State) (o i d v conf : Nat) : (s.setObj o i d v).cascade conf = s.cascade conf := rfl

/-- What the dictionary holds after LEG_STATE is written. -/
theorem obj_setLegState (s : State) (leg v o i d : Nat) : (s.setLegState leg v).obj o i d = (s.setObj 0x401001 leg 0 v).obj o i d := rfl

/-- What the dictionary holds after a journal is written, with JOURNAL_USED. -/
theorem obj_setJournal (s : State) (conf : Nat) (j : List JournalEntry) (o i d : Nat) :
    (s.setJournal conf j).obj o i d = (s.setObj 0x820007 conf 0 j.length).obj o i d := rfl

theorem legState_setLegState (s : State) (leg v : Nat) : (s.setLegState leg v).legState leg = v := by
  rw [State.legState, obj_setLegState, obj_setObj_same]

theorem cascade_emit (s : State) (o : Output) (conf : Nat) : (s.emit o).cascade conf = s.cascade conf := rfl

theorem obj_tell (s : State) (t kind conf : Nat) (what : List Nat) (o i d : Nat) : (s.tell t kind conf what).1.obj o i d = s.obj o i d := by
  rw [State.obj, objNum_tell, State.obj]

theorem cascade_tell (s : State) (t kind conf : Nat) (what : List Nat) (c : Nat) : (s.tell t kind conf what).1.cascade c = s.cascade c := by
  rw [State.cascade, confs_tell, State.cascade]

/-! ### The connection of a leg (R232, R545) -/

theorem viewerMode_nothing {s : State} {leg : Nat} {o : ViewerOffer} (h : s.obj 0x40100F leg 0 = 0 ∨ o.forwards = true) :
    s.viewerMode leg o = 0 := by
  simp only [State.viewerMode]
  exact if_pos (by simpa using h)

/-- Where R232 allows stitched layouts. -/
def stitches (s : State) (leg : Nat) (o : ViewerOffer) : Prop :=
  s.obj 0x40100F leg 0 = 3 ∧ (o.profile = .main ∨ o.profile = .main10) ∧ (canvasOf (s.obj 0x506102 leg 3)).level ≤ o.level ∧
    s.layoutKbps o.layout ≤ min (s.obj 0x401011 leg 1500) (canvasKbps (s.obj 0x506102 leg 3)) ∧ s.isFenced Unit.tsp 0 = false

theorem viewerMode_stitched {s : State} {leg : Nat} {o : ViewerOffer} (ho : o.forwards = false) (h : stitches s leg o) :
    s.viewerMode leg o = 1 := by
  obtain ⟨hc, hp, hl, hk, hf⟩ := h
  unfold State.viewerMode
  simp [hc, ho, hp, hl, hf, le_min_iff.1 hk]

theorem viewerMode_composed {s : State} {leg : Nat} {o : ViewerOffer} (hv : s.obj 0x40100F leg 0 ≠ 0) (ho : o.forwards = false)
    (h : ¬ stitches s leg o) : s.viewerMode leg o = 2 := by
  unfold State.viewerMode
  rw [if_neg (by simp [hv, ho]), if_neg]
  simpa [stitches, and_assoc] using h

theorem exec_legConnected_apart {s : State} {leg : Fin 16384} (x : LegOffer) (h : s.legState leg ≠ 2) :
    exec (.legConnected leg x) s = .next s := by
  simp only [exec, execLegConnected, if_neg h]

theorem exec_legConnected {s : State} {leg : Fin 16384} (suite : Fin 5) (o : ViewerOffer) (h : s.legState leg = 2) :
    exec (.legConnected leg ⟨suite, o⟩) s =
      .next (((s.setObj 0x401010 leg 0 suite).setObj 0x506101 leg 0 (s.viewerMode leg o)).setLegState leg 3) := by
  simp only [exec, execLegConnected, if_pos h]

/-- A leg that connects shows its suite and how its video is served. -/
theorem legConnected_connects {s : State} {leg : Fin 16384} (h : s.legState leg = 2) (suite : Fin 5) (o : ViewerOffer) :
    Completes (exec (.legConnected leg ⟨suite, o⟩) s) fun t => t.legState leg = 3 ∧ t.obj 0x401010 leg 0 = suite ∧
      t = { s with objNum := t.objNum, fw := t.fw } ∧ t.obj 0x506101 leg 0 = s.viewerMode leg o := by
  refine ⟨_, exec_legConnected suite o h, legState_setLegState .., ?_, ?frame, ?_⟩
  case frame => simp only [State.setLegState, State.setObj, State.withFw]
  all_goals simp (disch := omega) only [obj_setLegState, obj_setObj_apart, obj_setObj_same]

theorem legConnectTimeout_ends {s : State} {leg : Fin 16384} {c : Nat} {bad : Bool} (hc : SMap.get none s.fw.connecting leg = some c)
    (h : s.legState leg = 2) (hb : bad = true ∨ c + 30 * secCycles ≤ s.cycle) :
    Completes (exec (.legConnectTimeout leg bad) s) fun t => t.legState leg = 4 ∧ t = { s with objNum := t.objNum, fw := t.fw } := by
  refine ⟨s.setLegState leg 4, ?_, legState_setLegState .., rfl⟩
  simp only [exec, execLegConnectTimeout, hc]
  rw [if_pos (by simpa [h, State.passed] using hb)]

theorem exec_legConnectTimeout_apart {s : State} {leg : Fin 16384} {c : Nat} {bad : Bool} (hc : SMap.get none s.fw.connecting leg = some c)
    (h : s.legState leg ≠ 2 ∨ (bad = false ∧ s.cycle < c + 30 * secCycles)) : exec (.legConnectTimeout leg bad) s = .next s := by
  simp only [exec, execLegConnectTimeout, hc]
  rw [if_neg]
  rcases h with h | ⟨hb, ht⟩
  · simp [h]
  · simp [hb, State.passed, ht]

/-! ### Operations (R410, R415 to R417) -/

/-- An operation on one of the settings that a conference holds: LOCKED and what follows it. -/
structure ConfSetting (o : ConfOp) : Prop where
  noLeg : o.object = none
  low : 0x400006 ≤ o.op
  high : o.op ≤ 0x400008

theorem ConfSetting.applyOp {o : ConfOp} (h : ConfSetting o) (s : State) (conf : Nat) : s.applyOp conf o = s.setObj o.op conf 0 o.arg := by
  obtain ⟨hn, hl, hh⟩ := h
  simp only [State.applyOp, hn]
  rw [if_neg (by omega), if_neg (by omega)]

/-- An anchor's conference after an operation that may conflict with a replay (R419). -/
def conflictable (s : State) (conf : Nat) (e : JournalEntry) : State := s.setCascade conf { s.cascade conf with done := (s.cascade conf).done ++ [e] }

theorem anchorApply_applies {s : State} {conf : Nat} {o : ConfOp} (h : ∀ id, o.object = some id → moduleOf id ∉ (s.cascade conf).lost) :
    s.anchorApply conf o = (conflictable (s.applyOp conf o) conf ((s.applyOp conf o).entryOf conf o false), St.ok) := by
  obtain ⟨_ | id, op, arg⟩ := o
  · rfl
  · simp [State.anchorApply, h id rfl, conflictable]

/-- An operation whose status is there at once. -/
theorem exec_confOp_at_once {s t : State} {who : Sender} {conf : Fin 4096} {op : ConfOp} {st : Nat}
    (h : s.confOp (.unit who) conf op = (t, some st)) : exec (.confOp none who conf op) s = .next (t.emit (.done who st [conf.val])) := by
  simp only [exec, execConfOp, h]

/-- An operation whose status the anchor will give. -/
theorem exec_confOp_awaits {s t : State} {who : Sender} {conf : Fin 4096} {op : ConfOp} (h : s.confOp (.unit who) conf op = (t, none)) :
    exec (.confOp none who conf op) s = .next t := by
  simp only [exec, execConfOp, h]

theorem confOp_anchor {s t : State} {conf st : Nat} {o : ConfOp} (who : Asker) (h : s.roleOf conf = 1) (ha : s.anchorApply conf o = (t, st)) :
    s.confOp who conf o = (t, some st) := by
  simp [State.confOp, h, ha]

theorem exec_confOp_island {s t : State} {conf : Fin 4096} {op : ConfOp} {st : Nat} (who : Sender) (h : s.roleOf conf = 3)
    (hi : s.islandOp conf op = (t, st)) : exec (.confOp none who conf op) s = .next (t.emit (.done who st [conf.val])) :=
  exec_confOp_at_once (by simp [State.confOp, h, hi])

theorem confOp_anchor_applies {s : State} {conf : Fin 4096} {op : ConfOp} (who : Sender) (h : s.roleOf conf = 1) (ho : ConfSetting op) :
    Completes (exec (.confOp none who conf op) s) fun t => t.obj op.op conf 0 = op.arg ∧
      t = { s with objNum := t.objNum, trk := t.trk, out := .done who St.ok [conf.val] :: s.out } ∧
      (t.cascade conf).journal = (s.cascade conf).journal := by
  have ha := anchorApply_applies (s := s) (conf := conf) (o := op) fun id hid => by simp [ho.noLeg] at hid
  rw [ho.applyOp] at ha
  refine ⟨_, exec_confOp_at_once (confOp_anchor _ h ha), ?_, rfl, ?_⟩
  · simp only [conflictable, emit_obj_read, obj_setCascade, obj_setObj_same]
  · simp only [conflictable, cascade_emit, cascade_setCascade, cascade_setObj]

theorem confOp_member_cut_off {s : State} {conf : Fin 4096} {op : ConfOp} (who : Sender) (h : s.roleOf conf = 2) (ho : s.ownLeg op = false)
    (ht : s.trunkTo (s.anchorOf conf) = none) : exec (.confOp none who conf op) s = .next (s.emit (.done who St.trunkDown [conf.val])) :=
  exec_confOp_at_once (by simp [State.confOp, h, ho, ht])

/-- A member forwards an operation to its anchor, whose answer it awaits (R410). -/
theorem confOp_member_forwards {s : State} {conf : Fin 4096} {op : ConfOp} {k : Nat} (who : Sender) (h : s.roleOf conf = 2)
    (ho : s.ownLeg op = false) (ht : s.trunkTo (s.anchorOf conf) = some k) (hc : (s.trunk k).st.carries = true)
    (hw : s.get (R.TRK_Tt_WIN_WIN_MIB k) ≠ 0) : Completes (exec (.confOp none who conf op) s) fun t =>
      (t.cascade conf).asked = (s.cascade conf).asked ++ [(.unit who, op.op, op.arg)] ∧
        (t.trunk k).txNext = ((s.trunk k).txNext + 1) % 2 ^ 32 ∧ t.objNum = s.objNum := by
  obtain ⟨hok, hnext⟩ := tell_carried hc hw 4 conf [op.object.getD (2 ^ 22), op.op, op.arg]
  have hf : s.confOp (.unit who) conf op = ((s.tell k 4 conf [op.object.getD (2 ^ 22), op.op, op.arg]).1.setCascade conf
      { s.cascade conf with asked := (s.cascade conf).asked ++ [(.unit who, op.op, op.arg)] }, none) := by
    rw [State.confOp]
    dsimp only
    rw [if_neg (by omega), if_pos h, if_neg (by simp [ho]), ht]
    dsimp only
    rw [hok, if_neg (by decide), cascade_tell]
  refine ⟨_, exec_confOp_awaits hf, ?_, hnext, objNum_tell ..⟩
  rw [cascade_setCascade]

theorem journal_full {s : State} {conf : Nat} (h : s.obj 0x800005 0 4096 ≤ (s.cascade conf).journal.length) (o : ConfOp) (q : Bool) :
    s.journal conf o q = none := if_pos h

theorem journal_takes {s : State} {conf : Nat} (h : (s.cascade conf).journal.length < s.obj 0x800005 0 4096) (o : ConfOp) (q : Bool) :
    s.journal conf o q = some (s.setJournal conf ((s.cascade conf).journal ++ [s.entryOf conf o q])) := if_neg (Nat.not_le.2 h)

theorem cascade_setJournal (s : State) (conf : Nat) (j : List JournalEntry) :
    (s.setJournal conf j).cascade conf = { s.cascade conf with journal := j } := by
  rw [State.setJournal, cascade_setObj, cascade_setCascade]

theorem confOp_island_refuses {s : State} {conf : Fin 4096} {op : ConfOp} (who : Sender) (h : s.roleOf conf = 3) (ho : s.ownLeg op = false)
    (hq : s.obj 0x820005 conf 0 = 0) : exec (.confOp none who conf op) s = .next (s.emit (.done who St.trunkIsland [conf.val])) :=
  exec_confOp_island who h (by simp [State.islandOp, ho, hq])

theorem confOp_island_full {s : State} {conf : Fin 4096} {op : ConfOp} (who : Sender) (h : s.roleOf conf = 3)
    (ho : s.ownLeg op = true ∨ s.obj 0x820005 conf 0 ≠ 0) (hj : s.obj 0x800005 0 4096 ≤ (s.cascade conf).journal.length) :
    exec (.confOp none who conf op) s = .next (s.emit (.done who St.trunkJournalFull [conf.val])) := by
  have hi : s.islandOp conf op = (s, St.trunkJournalFull) := by
    unfold State.islandOp
    rw [journal_full hj, journal_full hj]
    by_cases hown : s.ownLeg op = true
    · rw [if_pos hown]
    · rw [if_neg hown, if_neg (ho.resolve_left hown)]
  exact exec_confOp_island who h hi

theorem confOp_island_queues {s : State} {conf : Fin 4096} {op : ConfOp} (who : Sender) (h : s.roleOf conf = 3) (ho : s.ownLeg op = false)
    (hq : s.obj 0x820005 conf 0 ≠ 0) (hj : (s.cascade conf).journal.length < s.obj 0x800005 0 4096) :
    Completes (exec (.confOp none who conf op) s) fun t => t.cascade conf = { s.cascade conf with
        journal := (s.cascade conf).journal ++ [⟨s.epochOf conf, s.time64, s.isSet R.TIM_CTRL_TIME_VALID, op.object, op.op, op.arg, true⟩] } ∧
      t.obj 0x820007 conf 0 = (s.cascade conf).journal.length + 1 ∧
      t = { s with objNum := t.objNum, trk := t.trk, out := .done who St.trunkQueued [conf.val] :: s.out } := by
  have hi : s.islandOp conf op = (s.setJournal conf ((s.cascade conf).journal ++ [s.entryOf conf op true]), St.trunkQueued) := by
    simp [State.islandOp, ho, hq, journal_takes hj]
  refine ⟨_, exec_confOp_island who h hi, cascade_setJournal .., ?_, rfl⟩
  rw [emit_obj_read, obj_setJournal, obj_setObj_same, List.length_append, List.length_singleton]

theorem confOp_island_own_leg {s : State} {conf : Fin 4096} {op : ConfOp} {id : Nat} (who : Sender) (h : s.roleOf conf = 3)
    (ho : op.object = some id) (hl : s.isLocal id = true) (hop : op.op = 0x602003)
    (hj : (s.cascade conf).journal.length < s.obj 0x800005 0 4096) : Completes (exec (.confOp none who conf op) s) fun t =>
      t.obj 0x602003 (id % 16384) 0 = op.arg ∧ (t.cascade conf).journal.length = (s.cascade conf).journal.length + 1 ∧
        t.out = .done who St.ok [conf.val] :: s.out := by
  have happly (t : State) (ht : t.isLocal id = true) : t.applyOp conf op = t.setObj 0x602003 (id % 16384) 0 op.arg := by
    simp [State.applyOp, ho, ht, hop]
  have hi : s.islandOp conf op =
      ((s.setJournal conf ((s.cascade conf).journal ++ [s.entryOf conf op false])).setObj 0x602003 (id % 16384) 0 op.arg, St.ok) := by
    have hown : s.ownLeg op = true := by rw [State.ownLeg, ho]; exact hl
    rw [State.islandOp, if_pos hown, journal_takes hj]
    exact congrArg (·, St.ok) (happly _ hl)
  refine ⟨_, exec_confOp_island who h hi, ?_, ?_, rfl⟩
  · rw [emit_obj_read, obj_setObj_same]
  · simp only [cascade_emit, cascade_setObj, cascade_setJournal, List.length_append, List.length_singleton]

theorem exec_confOp_stray {s : State} {conf : Fin 4096} (k : Fin 256) (who : Sender) (op : ConfOp) (h : s.roleOf conf ≠ 1) :
    exec (.confOp (some k) who conf op) s = .next s := by
  simp [exec, execConfOp, h]

theorem exec_confOpResult_stray {s : State} {conf : Fin 4096} {k : Fin 256} (st : Nat)
    (h : s.peerOf k ≠ s.anchorOf conf ∨ (s.cascade conf).asked = []) : exec (.confOpResult k conf st) s = .next s := by
  simp only [exec, execConfOpResult]
  rcases h with h | h
  · simp [h]
  · rw [h]
    exact ite_self _

theorem exec_confOpResult_unlisted {s : State} {conf : Fin 4096} {st : Nat} (k : Fin 256) (hl : St.listed st = false) (hf : st ≠ St.unitFenced) :
    exec (.confOpResult k conf st) s = .next s := by
  simp [exec, execConfOpResult, hl, hf]

theorem exec_confOpResult {s : State} {conf : Fin 4096} {k : Fin 256} {st : Nat} {who : Sender} {x : Nat × Nat}
    {rest : List (Asker × Nat × Nat)} (hp : s.peerOf k = s.anchorOf conf) (ha : (s.cascade conf).asked = (.unit who, x) :: rest)
    (hl : St.listed st = true ∨ st = St.unitFenced) : exec (.confOpResult k conf st) s =
      .next ((s.setCascade conf { s.cascade conf with asked := rest }).emit (.done who st [conf.val])) := by
  have hst : (St.listed st || st == St.unitFenced) = true := by simpa using hl
  simp [exec, execConfOpResult, hp, ha, hst, State.answer]

theorem exec_promote {s t : State} {conf : Fin 4096} {st : Nat} (who : Sender) (h : s.promote conf = (t, st)) :
    exec (.promote who conf) s = .next (t.emit (.done who st [conf.val])) := by
  simp only [exec, execPromote, h]

theorem exec_promote_elsewhere {s : State} {conf : Fin 4096} (who : Sender) (h : s.roleOf conf ≠ 3) :
    exec (.promote who conf) s = .next (s.emit (.done who St.trunkNotIsland [conf.val])) := by
  exact exec_promote who (if_pos (by simpa using h))

/-- An ISLAND is promoted; it has no operation queued (R416). -/
theorem promote_island {s : State} {conf : Fin 4096} (who : Sender) (h : s.roleOf conf = 3)
    (hq : ∀ e ∈ (s.cascade conf).journal, e.queued = false) : Completes (exec (.promote who conf) s) fun t =>
      t.roleOf conf = 1 ∧ t.anchorOf conf = s.module ∧ t.anchorEpochOf conf = (s.anchorEpochOf conf + 1) % 2 ^ 32 ∧ t.epochOf conf = (s.epochOf conf + 1) % 2 ^ 32 ∧
      (t.cascade conf).journal = (s.cascade conf).journal ∧
      t = { s with objNum := t.objNum, trk := t.trk, out := .done who St.ok [conf.val] :: s.out } := by
  have hnone : (s.cascade conf).journal.filter (fun e => e.queued) = [] := List.filter_eq_nil_iff.2 fun e he => by simp [hq e he]
  have hall : (s.cascade conf).journal.filter (fun e => !e.queued) = (s.cascade conf).journal :=
    List.filter_eq_self.2 fun e he => by simp [hq e he]
  have hp : s.promote conf = (((((s.setObj 0x820001 conf 0 1).setObj 0x820002 conf 0 s.module).setObj 0x820004 conf 0
      ((s.anchorEpochOf conf + 1) % 2 ^ 32)).bumpEpoch conf).setJournal conf (s.cascade conf).journal, St.ok) := by
    simp only [State.promote, h, bne_self_eq_false, Bool.false_eq_true, if_false, hnone, List.foldl_nil, State.bumpEpoch, cascade_setObj, hall]
  refine ⟨_, exec_promote who hp, ?_, ?_, ?_, ?_, ?journal, ?frame⟩
  case journal => rw [cascade_emit, cascade_setJournal]
  case frame => simp only [State.emit, State.setJournal, State.bumpEpoch, State.setObj, State.setCascade]
  all_goals simp (disch := omega) only [State.roleOf, State.anchorOf, State.anchorEpochOf, State.epochOf, State.bumpEpoch, emit_obj_read,
    obj_setJournal, obj_setObj_apart, obj_setObj_same]

/-! ### The roster and the turn of presences (R408, R414) -/

/-- The counts of a roster go to two objects of its conference (R424, R544). -/
theorem obj_countRoster (s : State) (conf o i d : Nat) (ha : o * 16777216 + i ≠ 0x40000A * 16777216 + conf)
    (hb : o * 16777216 + i ≠ 0x820008 * 16777216 + conf) : (s.countRoster conf).obj o i d = s.obj o i d := by
  simp only [State.countRoster]
  rw [obj_setObj_apart _ _ _ _ _ _ _ _ hb, obj_setObj_apart _ _ _ _ _ _ _ _ ha]

@[simp] theorem cascade_countRoster (s : State) (conf c : Nat) : (s.countRoster conf).cascade c = s.cascade c := rfl

/-- A conference that is not ending is not settled (R544). -/
theorem settleEnd_goes_on {s : State} {conf : Nat} (h : s.obj 0x400001 conf 0 ≠ 2) : s.settleEnd conf = s :=
  if_neg (by simp [h])

/-- A presence changes in a conference that is not ending. -/
theorem setPresence_changes {s : State} {conf : Nat} (h : s.obj 0x400001 conf 0 ≠ 2) (id : Nat) (p : Presence) :
    s.setPresence conf id p =
      (s.setCascade conf { s.cascade conf with roster := SMap.set Presence.left (s.cascade conf).roster id p }).countRoster conf :=
  settleEnd_goes_on (by rw [obj_countRoster _ _ _ _ _ (by omega) (by omega)]; exact h)

theorem obj_turn (s : State) (conf : Nat) (who : Nat → Bool) (was is_ : Presence) (o i d : Nat)
    (ha : o * 16777216 + i ≠ 0x40000A * 16777216 + conf) (hb : o * 16777216 + i ≠ 0x820008 * 16777216 + conf) :
    (s.turn conf who was is_).obj o i d = s.obj o i d := obj_countRoster _ conf o i d ha hb

/-- The roster is all of a conference that a turn of presences changes. -/
theorem cascade_turn (s : State) (conf : Nat) (who : Nat → Bool) (was is_ : Presence) :
    (s.turn conf who was is_).cascade conf = { s.cascade conf with
      roster := (s.cascade conf).roster.map fun e => if who e.1 && e.2 == was then (e.1, is_) else e } := cascade_setCascade ..

/-! ### STATE_SUMMARY (R409, R418) -/

/-- The counters of an anchor's summary are taken over (R409). -/
def takeSummary (s : State) (conf a ae e : Nat) : State :=
  ((s.setObj 0x820002 conf 0 (a % 256)).setObj 0x820003 conf 0 (e % 2 ^ 32)).setObj 0x820004 conf 0 (ae % 2 ^ 32)

/-- A module is among those that serve the conference. -/
def withMember (s : State) (conf peer : Nat) : State :=
  if (s.cascade conf).members.contains peer then s
  else s.setCascade conf { s.cascade conf with members := (s.cascade conf).members ++ [peer] }

theorem obj_withMember (s : State) (conf peer o i d : Nat) : (withMember s conf peer).obj o i d = s.obj o i d := by
  unfold withMember
  split
  · rfl
  · rfl

theorem mem_members_withMember (s : State) (conf peer : Nat) : peer ∈ ((withMember s conf peer).cascade conf).members := by
  unfold withMember
  split
  · next h => exact List.contains_iff_mem.1 h
  · rw [cascade_setCascade]
    exact List.mem_append_right _ (List.mem_singleton_self peer)

/-- A module that does not serve the conference yet joins it (R418). -/
theorem stateSummary_joins {s : State} {conf : Fin 4096} {k : Fin 256} (h : s.roleOf conf = 0) (ae e len : Nat) :
    Completes (exec (.stateSummary k conf (s.peerOf k) ae e len) s) fun t => t.roleOf conf = 2 ∧ t.anchorOf conf = s.peerOf k % 256 ∧
      t.epochOf conf = e % 2 ^ 32 ∧ t.anchorEpochOf conf = ae % 2 ^ 32 ∧ t.obj 0x400001 conf 0 = 1 ∧
      s.peerOf k ∈ (t.cascade conf).members := by
  have he : exec (.stateSummary k conf (s.peerOf k) ae e len) s = .next (withMember
      (((takeSummary s conf (s.peerOf k) ae e).setObj 0x820001 conf 0 2).setObj 0x400001 conf 0 1) conf (s.peerOf k)) := by
    simp only [exec, execStateSummary, if_true]
    rw [if_pos h]
    rfl
  refine ⟨_, he, ?_, ?_, ?_, ?_, ?_, mem_members_withMember ..⟩ <;>
    simp (disch := omega) only [State.roleOf, State.anchorOf, State.epochOf, State.anchorEpochOf, obj_withMember, takeSummary, obj_setObj_apart,
      obj_setObj_same]

/-- A member takes the counters of its anchor (R409). -/
theorem stateSummary_updates {s : State} {conf : Fin 4096} {k : Fin 256} (h : s.roleOf conf = 2) (ha : s.peerOf k = s.anchorOf conf)
    (ae e len : Nat) : Completes (exec (.stateSummary k conf (s.peerOf k) ae e len) s) fun t => t.epochOf conf = e % 2 ^ 32 ∧
      t.anchorEpochOf conf = ae % 2 ^ 32 ∧ t = { s with objNum := t.objNum } := by
  have he : exec (.stateSummary k conf (s.peerOf k) ae e len) s = .next (takeSummary s conf (s.peerOf k) ae e) := by
    simp only [exec, execStateSummary]
    rw [if_neg (by omega), if_pos h, if_pos (by simpa using ha)]
    rfl
  refine ⟨_, he, ?_, ?_, ?frame⟩
  case frame => simp only [takeSummary, State.setObj]
  all_goals simp (disch := omega) only [takeSummary, State.epochOf, State.anchorEpochOf, obj_setObj_apart, obj_setObj_same]

/-- A summary that names another module than its sender is ignored outside an anchor. -/
theorem exec_stateSummary_relayed {s : State} {conf : Fin 4096} {k : Fin 256} {a : Nat} (ha : a ≠ s.peerOf k)
    (h : s.roleOf conf = 0 ∨ s.roleOf conf = 2 ∨ s.roleOf conf = 3) (ae e len : Nat) : exec (.stateSummary k conf a ae e len) s = .next s := by
  rcases h with h | h | h <;> simp [exec, execStateSummary, h, ha]

/-- An island keeps to its own part where that has the later anchor (R418). -/
theorem exec_stateSummary_older {s : State} {conf : Fin 4096} (k : Fin 256) {ae : Nat} (h : s.roleOf conf = 3) (ha : ae < s.anchorEpochOf conf)
    (a e len : Nat) : exec (.stateSummary k conf a ae e len) s = .next s := by
  simp [exec, execStateSummary, h, ha]

/-- An island whose journal is empty joins the other part (R418, R419). -/
theorem stateSummary_heals {s : State} {conf : Fin 4096} {k : Fin 256} {ae : Nat} (h : s.roleOf conf = 3) (ha : s.anchorEpochOf conf ≤ ae)
    (hj : (s.cascade conf).journal = []) (e len : Nat) : Completes (exec (.stateSummary k conf (s.peerOf k) ae e len) s) fun t =>
      (t.cascade conf).joining = true ∧ t.anchorOf conf = s.peerOf k % 256 ∧ t.roleOf conf = 3 := by
  have hs : s.sendJournal k conf = (s.tell k 8 conf [0]).1.setCascade conf { s.cascade conf with joining := true } := by
    simp only [State.sendJournal, hj, List.foldl_nil, List.length_nil, cascade_tell]
  have he : exec (.stateSummary k conf (s.peerOf k) ae e len) s =
      .next ((s.sendJournal k conf).setObj 0x820002 conf 0 (s.peerOf k % 256)) := by
    simp only [exec, execStateSummary]
    rw [if_neg (by omega), if_neg (by omega), if_pos h, if_pos (by simpa using ha)]
  rw [hs] at he
  refine ⟨_, he, by rw [cascade_setObj, cascade_setCascade], obj_setObj_same .., ?_⟩
  rw [State.roleOf, obj_setObj_apart _ _ _ _ _ _ _ _ (by omega), obj_setCascade, obj_tell]
  exact h

/-! ### The replay of a journal (R419) -/

theorem exec_journalEntry_elsewhere {s : State} {conf : Fin 4096} (k : Fin 256) (h : s.roleOf conf ≠ 1) (e time : Nat) (v : Bool) (op : ConfOp) :
    exec (.journalEntry k conf e time v op) s = .next s := by
  simp [exec, execJournalEntry, h]

theorem exec_journalEntry {s : State} {conf : Fin 4096} (k : Fin 256) (h : s.roleOf conf = 1) (e time : Nat) (v : Bool) (op : ConfOp) :
    exec (.journalEntry k conf e time v op) s = .next (s.setCascade conf
      { s.cascade conf with replay := (s.cascade conf).replay ++ [⟨e, time, v, op.object, op.op, op.arg, false⟩] }) := by
  simp [exec, execJournalEntry, h]

theorem exec_journalDone_apart {s : State} {conf : Fin 4096} (k : Fin 256) {count : Nat}
    (h : s.roleOf conf ≠ 1 ∨ (s.cascade conf).replay.length ≠ count) : exec (.journalDone k conf count) s = .next s := by
  simp only [exec, execJournalDone]
  rw [if_pos (by simpa using h)]

/-- A conflict is an event for vendor firmware (R418, R419, R421): nothing of the cascade changes. -/
theorem CascadeKept.postConflict (s : State) (conf : Nat) : CascadeKept s (s.postConflict conf) := (CascadeKept.refl s).trunkEvent

/-- An entry to which the anchor's journal holds no later change is applied. -/
theorem replayOne_applies {s : State} {conf : Nat} {e : JournalEntry} (ho : ConfSetting ⟨e.object, e.op, e.arg⟩)
    (h : ∀ j ∈ (s.cascade conf).journal, j.object ≠ none) : s.replayOne conf e = s.setObj e.op conf 0 e.arg := by
  have hn : e.object = none := ho.noLeg
  have hno : ((s.cascade conf).journal.any fun j => j.object == e.object && e.before j) = false := by
    rw [hn]
    exact List.any_eq_false.2 fun j hj => by simp [h j hj]
  rw [State.replayOne, hno, if_neg Bool.false_ne_true, hn]
  rw [hn] at ho
  exact ho.applyOp s conf

/-- An entry yields to the anchor's own later change of the same object. -/
theorem replayOne_yields {s : State} {conf : Nat} {e j : JournalEntry} (hj : j ∈ (s.cascade conf).journal) (ho : j.object = e.object)
    (h : e.epoch < j.epoch) : s.replayOne conf e = s.postConflict conf :=
  if_pos (List.any_eq_true.2 ⟨j, hj, by simp [ho, JournalEntry.before, h]⟩)

/-- The replay of an entry leaves the EPOCH and the cascade as they are. -/
theorem replayOne_keeps (s : State) (conf : Nat) {e : JournalEntry} (ho : ConfSetting ⟨e.object, e.op, e.arg⟩) :
    (s.replayOne conf e).epochOf conf = s.epochOf conf ∧ (s.replayOne conf e).cascade conf = s.cascade conf := by
  have hhigh : e.op ≤ 0x400008 := ho.high
  by_cases hc : ((s.cascade conf).journal.any fun j => j.object == e.object && e.before j) = true
  · have hk := CascadeKept.postConflict s conf
    rw [State.replayOne, if_pos hc]
    exact ⟨hk.obj .., hk.cascade _⟩
  · have hn : e.object = none := ho.noLeg
    have ha := ho.applyOp s conf
    rw [hn] at ha
    rw [State.replayOne, if_neg hc, hn]
    dsimp only
    rw [ha]
    exact ⟨obj_setObj_apart s e.op conf 0 e.arg 0x820003 conf 0 (by omega), rfl⟩

/-- The state in which an anchor tells of the roster, after the replay has led to `x` (R419). -/
def healed (x : State) (conf peer : Nat) : State :=
  let y := (x.setJournal conf []).bumpEpoch conf
  (y.setCascade conf { y.cascade conf with replay := [], lost := (y.cascade conf).lost.filter fun m => m != peer, done := [] }).turn conf
    (fun id => moduleOf id == peer) .away .present

/-- The journals are cleared, the EPOCH is raised and the module is no longer lost. -/
theorem healed_shows (x : State) (conf peer : Nat) : (healed x conf peer).epochOf conf = (x.epochOf conf + 1) % 2 ^ 32 ∧
    ((healed x conf peer).cascade conf).journal = [] ∧ ((healed x conf peer).cascade conf).replay = [] ∧
    ((healed x conf peer).cascade conf).lost = (x.cascade conf).lost.filter (fun m => m != peer) ∧
    ∀ o, 0x400006 ≤ o → o ≤ 0x400008 → (healed x conf peer).obj o conf 0 = x.obj o conf 0 := by
  refine ⟨?epoch, ?_, ?_, ?_, fun o hl hh => ?held⟩
  case epoch | held =>
    simp (disch := omega) only [healed, State.epochOf, State.bumpEpoch, obj_turn, obj_setCascade, obj_setObj_apart, obj_setObj_same, obj_setJournal]
  all_goals simp only [healed, State.bumpEpoch, cascade_turn, cascade_setCascade, cascade_setObj, cascade_setJournal]

/-- An anchor tells of each participant of a roster (R419). -/
def tellRoster (s : State) (conf : Nat) (roster : SMap Presence) : State := roster.foldl (fun (s : State) x => s.tellAll conf 1 [x.1]) s

theorem tellRoster_leaves (s : State) (conf : Nat) (roster : SMap Presence) :
    (tellRoster s conf roster).objNum = s.objNum ∧ (tellRoster s conf roster).trk.confs = s.trk.confs :=
  List.foldlRecOn (motive := fun (t : State) => t.objNum = s.objNum ∧ t.trk.confs = s.trk.confs) _ _ ⟨rfl, rfl⟩ fun t ht x _ =>
    ⟨(tellAll_leaves t conf 1 [x.1]).1.trans ht.1, (tellAll_leaves t conf 1 [x.1]).2.trans ht.2⟩

/-- The replay of one entry that sets what the conference holds: it counts unless the anchor has changed the same since. -/
theorem journalDone_replays {s : State} {conf : Fin 4096} {k : Fin 256} {e : JournalEntry} (h : s.roleOf conf = 1)
    (hr : (s.cascade conf).replay = [e]) (ho : ConfSetting ⟨e.object, e.op, e.arg⟩) : Completes (exec (.journalDone k conf 1) s) fun t =>
      t.epochOf conf = (s.epochOf conf + 1) % 2 ^ 32 ∧ (t.cascade conf).journal = [] ∧ (t.cascade conf).replay = [] ∧
      (t.cascade conf).lost = (s.cascade conf).lost.filter (fun m => m != s.peerOf k) ∧
      ((∀ j ∈ (s.cascade conf).journal, j.object ≠ none) → t.obj e.op conf 0 = e.arg) ∧
      (∀ j ∈ (s.cascade conf).journal, j.object = none → e.epoch < j.epoch → t.obj e.op conf 0 = s.obj e.op conf 0) := by
  have hl : 0x400006 ≤ e.op := ho.low
  have hh : e.op ≤ 0x400008 := ho.high
  have hx := replayOne_keeps s conf ho
  have he : exec (.journalDone k conf 1) s = .next (tellRoster (healed (s.replayOne conf e) conf (s.peerOf k)) conf
      ((healed (s.replayOne conf e) conf (s.peerOf k)).cascade conf).roster) := by
    simp only [exec, execJournalDone, h, hr]
    rfl
  obtain ⟨hepoch, hjournal, hreplay, hlost, hobj⟩ := healed_shows (s.replayOne conf e) conf (s.peerOf k)
  generalize healed (s.replayOne conf e) conf (s.peerOf k) = y at he hepoch hjournal hreplay hlost hobj
  obtain ⟨hn, hc⟩ := tellRoster_leaves y conf (y.cascade conf).roster
  generalize tellRoster y conf (y.cascade conf).roster = t at he hn hc
  have hto (o d : Nat) : t.obj o conf d = y.obj o conf d := by rw [State.obj, hn, State.obj]
  have htc : t.cascade conf = y.cascade conf := by rw [State.cascade, hc, State.cascade]
  refine ⟨t, he, ?_, by rw [htc, hjournal], by rw [htc, hreplay], by rw [htc, hlost, hx.2], fun hj => ?_, fun j hj hjn hje => ?_⟩
  · rw [State.epochOf, hto, ← hx.1]
    exact hepoch
  · rw [hto, hobj _ hl hh, replayOne_applies ho hj, obj_setObj_same]
  · rw [hto, hobj _ hl hh, replayOne_yields hj (hjn.trans ho.noLeg.symm) hje]
    exact (CascadeKept.postConflict s conf).obj ..

/-! ### ROSTER_UPDATE, talkers and channels (R408, R411, R419) -/

theorem rosterUpdate_presents {s : State} {conf : Fin 4096} (k : Fin 256) (hj : (s.cascade conf).joining = false)
    (h2 : s.obj 0x400001 conf 0 ≠ 2) (e id : Nat) (p : Presence) : Completes (exec (.rosterUpdate k conf e id p) s) fun t =>
      SMap.get .left (t.cascade conf).roster (id % 2 ^ 22) = p ∧ t = { s with objNum := t.objNum, trk := t.trk } ∧
        t.roleOf conf = s.roleOf conf := by
  have he : exec (.rosterUpdate k conf e id p) s = .next (s.setPresence conf (id % 2 ^ 22) p) := by
    simp [exec, execRosterUpdate, hj]
  rw [setPresence_changes h2] at he
  refine ⟨_, he, ?_, ?frame, obj_countRoster _ _ _ _ _ (by omega) (by omega)⟩
  case frame => simp only [State.countRoster, State.setObj, State.setCascade]
  rw [cascade_countRoster, cascade_setCascade]
  exact get_set_same ..

/-- The first ROSTER_UPDATE of the winning anchor makes a joining side MEMBER (R419). -/
theorem rosterUpdate_joins {s : State} {conf : Fin 4096} {k : Fin 256} (hj : (s.cascade conf).joining = true) (hp : s.peerOf k = s.anchorOf conf)
    (h2 : s.obj 0x400001 conf 0 ≠ 2) (e id : Nat) (p : Presence) : Completes (exec (.rosterUpdate k conf e id p) s) fun t =>
      t.roleOf conf = 2 ∧ t.epochOf conf = e % 2 ^ 32 ∧ (t.cascade conf).journal = [] ∧ (t.cascade conf).lost = [] ∧
        (t.cascade conf).joining = false := by
  have hif : ((s.cascade conf).joining && decide (s.peerOf k = s.anchorOf conf)) = true := by simp [hj, hp]
  simp only [exec, execRosterUpdate, hif, if_true]
  rw [setPresence_changes (by simpa (disch := omega) only [obj_turn, obj_setCascade, obj_setJournal, obj_setObj_apart] using h2)]
  refine ⟨_, rfl, ?role, ?epoch, ?_, ?_, ?_⟩
  case role | epoch =>
    simp (disch := omega) only [State.roleOf, State.epochOf, obj_countRoster, obj_turn, obj_setCascade, obj_setJournal, obj_setObj_apart,
      obj_setObj_same]
  all_goals simp only [cascade_countRoster, cascade_setCascade, cascade_turn, cascade_setObj, cascade_setJournal]

theorem exec_talkerReport_elsewhere {s : State} {conf : Fin 4096} (k : Fin 256) (h : s.roleOf conf ≠ 1) (e : Nat) (pairs : List (Nat × Nat)) :
    exec (.talkerReport k conf e pairs) s = .next s := by
  simp [exec, execTalkerReport, h]

theorem talkerReport_kept {s : State} {conf : Fin 4096} (k : Fin 256) (h : s.roleOf conf = 1) (e : Nat) (pairs : List (Nat × Nat)) :
    Completes (exec (.talkerReport k conf e pairs) s) fun t => t = { s with trk := t.trk } ∧
      SMap.get [] (t.cascade conf).reports (s.peerOf k) = (pairs.take 8).map fun p => (s.peerOf k * 16384 + p.1 % 16384, p.2) := by
  have he : exec (.talkerReport k conf e pairs) s = .next (s.setCascade conf { s.cascade conf with
      reports := SMap.set [] (s.cascade conf).reports (s.peerOf k) ((pairs.take 8).map fun p => (s.peerOf k * 16384 + p.1 % 16384, p.2)) }) := by
    simp [exec, execTalkerReport, h]
  refine ⟨_, he, rfl, ?_⟩
  rw [cascade_setCascade]
  exact get_set_same ..

theorem exec_talkerSet_elsewhere {s : State} {conf : Fin 4096} {k : Fin 256} (h : s.roleOf conf ≠ 2 ∨ s.peerOf k ≠ s.anchorOf conf) (e : Nat)
    (ids : List Nat) : exec (.talkerSet k conf e ids) s = .next s := by
  simp only [exec, execTalkerSet]
  rw [if_pos (by simpa using h)]

theorem exec_talkerSet {s : State} {conf : Fin 4096} {k : Fin 256} (h : s.roleOf conf = 2) (hp : s.peerOf k = s.anchorOf conf) (e : Nat)
    (ids : List Nat) : exec (.talkerSet k conf e ids) s =
      .next (s.setCascade conf { s.cascade conf with setDue := some (ids.map fun i => i % 2 ^ 22), setAt := s.mxm.began }) := by
  simp [exec, execTalkerSet, h, hp]

end Sys2Proof.Laws
end

section
/-! SUPPORT. A WRITE of one object in a session (R518, R525, R532): the state that its action runs in, its reply, and what the messages of a session
leave of the rest. -/

namespace Sys2Proof.Laws

open Sys2Proof Sys2Proof.Machine Sys2Proof.Safety

/-! ### What the messages of the sessions leave (R523, R537)

`MessagesKept` chains as `Keeps` does. -/

/-- From `s` to `t` only what carries messages changes, and each session keeps its replies, LAST and the requests that it holds. -/
structure MessagesKept (s t : State) : Prop where
  frame : t = { s with regs := t.regs, gul := t.gul, fns := t.fns, out := t.out, freeCtr := t.freeCtr }
  sessions : ∀ n g, s.session n = some g → ∃ x, t.session n = some x ∧ x.replies = g.replies ∧ x.last = g.last ∧ x.held = g.held

section Messages

variable {s t u : State}

theorem MessagesKept.refl (s : State) : MessagesKept s s := ⟨rfl, fun _ g h => ⟨g, h, rfl, rfl, rfl⟩⟩

theorem MessagesKept.trans (h : MessagesKept s t) (k : MessagesKept t u) : MessagesKept s u := by
  refine ⟨by rw [k.frame, h.frame], fun n g hg => ?_⟩
  obtain ⟨x, hx, hxr, hxl, hxh⟩ := h.sessions n g hg
  obtain ⟨y, hy, hyr, hyl, hyh⟩ := k.sessions n x hx
  exact ⟨y, hy, hyr.trans hxr, hyl.trans hxl, hyh.trans hxh⟩

theorem MessagesKept.others (h : MessagesKept s t)
    (hf : u = { t with regs := u.regs, gul := u.gul, fns := u.fns, out := u.out, freeCtr := u.freeCtr })
    (hs : u.gul.sessions = t.gul.sessions) : MessagesKept s u :=
  h.trans ⟨hf, fun n g hg => ⟨g, by rw [State.session, hs]; exact hg, rfl, rfl, rfl⟩⟩

theorem MessagesKept.foldl {α : Type} {f : State → α → State} {l : List α} (h : MessagesKept s t)
    (hf : ∀ u x, MessagesKept s u → MessagesKept s (f u x)) : MessagesKept s (l.foldl f t) :=
  List.foldlRecOn (motive := MessagesKept s) l f h fun u hu x _ => hf u x hu

theorem session_setSession_ne (s : State) {n m : Nat} (g : Option GulSession) (h : m ≠ n) : (s.setSession n g).session m = s.session m :=
  get_set_ne _ _ _ _ h

@[simp] theorem session_setSession (s : State) (n : Nat) (g : Option GulSession) : (s.setSession n g).session n = g := get_set_same _ _ _ _

/-- A session's other fields change. -/
theorem MessagesKept.setSession {n : Nat} {g x : GulSession} (h : MessagesKept s t) (hg : t.session n = some g) (hr : x.replies = g.replies)
    (hl : x.last = g.last) (hh : x.held = g.held) : MessagesKept s (t.setSession n (some x)) := by
  refine h.trans ⟨rfl, fun m y hy => ?_⟩
  by_cases hm : m = n
  · subst hm
    obtain rfl : g = y := Option.some.inj (hg.symm.trans hy)
    exact ⟨x, session_setSession .., hr, hl, hh⟩
  · exact ⟨y, (session_setSession_ne t _ hm).trans hy, rfl, rfl, rfl⟩

theorem MessagesKept.emit {o : Output} (h : MessagesKept s t) : MessagesKept s (t.emit o) := h.others rfl rfl
theorem MessagesKept.setReplyQueue {fn : Nat} {l : List (Nat × GulMsg)} (h : MessagesKept s t) : MessagesKept s (t.setReplyQueue fn l) :=
  h.others rfl rfl
theorem MessagesKept.setNoteQueue {fn : Nat} {l : List GulWaiting} (h : MessagesKept s t) : MessagesKept s (t.setNoteQueue fn l) :=
  h.others rfl rfl

theorem MessagesKept.raise {n v : Nat} (h : MessagesKept s t) : MessagesKept s (t.raise n v) := by
  unfold State.raise
  extract_lets f
  split_ifs
  exacts [h, h.others rfl rfl, h.emit]

theorem MessagesKept.putMessage {c n : Nat} {m : GulMsg} (h : MessagesKept s t) : MessagesKept s (t.putMessage c n m) := by
  have hput {u : State} {f : Fld} {x : Nat} (hu : MessagesKept s u) : MessagesKept s (u.put f x) := hu.others rfl rfl
  have hfill {stamp : Nat} {ws : List Nat} : MessagesKept s (t.fillChannel c stamp ws) := by
    have hws := hput (f := R.MBX_CHc_STAT_FULL c) (x := bnat true) (hput (f := R.MBX_CHc_SENDER_SENDER c) (x := stamp)
      (h.foldl (l := ws.zipIdx) (f := fun (s : State) (e : Nat × Nat) => s.put (R.MBX_CHc_DATA_DATA c e.2) e.1) fun _ _ hu => hput hu))
    unfold State.fillChannel State.notifyReceiver
    dsimp only
    split
    · exact hws.raise
    · exact hws.emit
  exact hfill.others rfl rfl

theorem MessagesKept.flushGul {note : Bool} {fn : Nat} (h : MessagesKept s t) : MessagesKept s (t.flushGul note fn) := by
  unfold State.flushGul
  extract_lets c
  split_ifs
  · exact h
  · split
    exacts [h, h.setNoteQueue.putMessage]
  · split
    exacts [h, h.setReplyQueue.putMessage]

theorem MessagesKept.gulSend {n : Nat} {m : GulMsg} (h : MessagesKept s t) : MessagesKept s (t.gulSend n m) := by
  unfold State.gulSend
  split
  · exact h
  · next g hg =>
    unfold State.gulSendOn
    split
    · exact h.setReplyQueue.flushGul
    · rw [hg]
      dsimp only
      split
      · exact h.emit
      · exact MessagesKept.emit (h.setSession hg rfl rfl rfl)

theorem MessagesKept.notify {b : GulSub} {inst status : Nat} {body : List Byte} (h : MessagesKept s t) :
    MessagesKept s (t.notify b inst status body) := by
  unfold State.notify
  split
  · exact h
  · next g hg =>
    have hset {k : Nat} {ns : List GulNote} : MessagesKept s (t.setSession b.session (some { g with noteSeq := k, notes := ns })) :=
      h.setSession hg rfl rfl rfl
    split_ifs
    · unfold State.noteOnPort
      extract_lets same put m
      split_ifs
      exacts [hset, hset.gulSend]
    · unfold State.noteInMailbox
      extract_lets q same s₁
      split_ifs
      exacts [h.setNoteQueue, MessagesKept.flushGul (.setNoteQueue hset)]

/-- A subscription whose object has become invisible goes, and nothing else (R538). -/
theorem MessagesKept.sweepSubs (h : MessagesKept s t) : MessagesKept s t.sweepSubs :=
  h.foldl fun _ _ hu => hu.notify.others rfl rfl

end Messages

/-! ### The arrival and the reply of a request (R529, R532) -/

/-- A session of the mailbox path has been heard, and is otherwise as it was. -/
theorem arriveInMailbox_session {s u : State} {fn : Nat} {h : GulHead} {ty n : Nat} {g : GulSession}
    (ha : s.arriveInMailbox fn h ty = .session u n g) : u = s.setSession n (some g) := by
  unfold State.arriveInMailbox at ha
  dsimp only at ha
  split at ha
  · cases ha
  · split at ha
    · cases ha
    · split at ha
      · cases ha
      · cases ha
        rfl

/-- An open session of the management port has been heard, and is otherwise as it was. -/
theorem arriveOnPort_session {s u : State} {h : GulHead} {n : Nat} {g : GulSession} (ha : s.arriveOnPort h = .session u n g)
    (ho : g.isOpen = true) : u = s.setSession n (some g) := by
  unfold State.arriveOnPort at ha
  dsimp only at ha
  split_ifs at ha
  split at ha
  · cases ha
  · split_ifs at ha with _ hclosed
    · cases ha
      simp [ho] at hclosed
    · cases ha
      rfl

theorem arrive_session {s u : State} {h : GulHead} {ty n : Nat} {g : GulSession} (ha : s.arrive h ty = .session u n g) (ho : g.isOpen = true) :
    u = s.setSession n (some g) := by
  unfold State.arrive at ha
  split_ifs at ha
  split at ha
  · exact arriveInMailbox_session ha
  · exact arriveOnPort_session ha ho

/-- A session with the request numbered `seq` taken in order, and none held. -/
def taken (g : GulSession) (seq : Nat) : GulSession := { g with last := seq, held := [] }

/-- The state in which a request of a session is processed. -/
def taking (u : State) (n : Nat) (g : GulSession) (seq : Nat) (q : GulReq) : State :=
  (u.setSession n (some { g with held := [(seq, u.cycle, q)] })).setSession n (some (taken g seq))

/-- A request in order is processed at once, and then what is held and next. -/
theorem sequence_next {u : State} {n seq : Nat} {g : GulSession} (hh : g.held = []) (hl : g.last < 2 ^ 32) (hs : seq = (g.last + 1) % 2 ^ 32)
    (q : GulReq) : u.sequence n g seq q = ((taking u n g seq q).doRequest n (taken g seq) seq q).drain n 16 := by
  have hd : (seq + 2 ^ 32 - g.last) % 2 ^ 32 = 1 := by omega
  have hfirst : u.sequence n g seq q = (u.setSession n (some { g with held := [(seq, u.cycle, q)] })).drain n 17 := by
    simp only [State.sequence, hd]
    rw [if_neg (by decide), if_pos (by decide)]
    simp [GulSession.heldAt, hh]
  have hnext : ({ g with held := [(seq, u.cycle, q)] } : GulSession).next = seq := hs.symm
  rw [hfirst, State.drain, session_setSession]
  dsimp only
  rw [hnext]
  have hat : ({ g with held := [(seq, u.cycle, q)] } : GulSession).heldAt seq = some q := by simp [GulSession.heldAt]
  rw [hat]
  dsimp only
  rw [State.takeRequest, session_setSession]
  dsimp only
  rw [show ([(seq, u.cycle, q)] : List (Nat × Nat × GulReq)).filter (fun e => e.1 != seq) = [] by simp]
  rfl

/-- With nothing held there is nothing more to process. -/
theorem drain_idle {s : State} {n : Nat} {g : GulSession} (hs : s.session n = some g) (hh : g.held = []) (fuel : Nat) : s.drain n fuel = s := by
  cases fuel with
  | zero => rfl
  | succ fuel =>
    rw [State.drain, hs]
    dsimp only
    rw [show g.heldAt g.next = none by simp [GulSession.heldAt, hh]]

/-- Session `n` keeps the reply `m` to request `seq`, its latest, and holds none. -/
def Answered (t : State) (n seq : Nat) (m : GulMsg) : Prop :=
  ∃ g, t.session n = some g ∧ m ∈ g.replies ∧ g.last = seq ∧ g.held = []

theorem MessagesKept.answered {s t : State} {n seq : Nat} {m : GulMsg} (h : MessagesKept s t) (ha : Answered s n seq m) : Answered t n seq m := by
  obtain ⟨g, hg, hm, hl, hh⟩ := ha
  obtain ⟨x, hx, hxr, hxl, hxh⟩ := h.sessions n g hg
  exact ⟨x, hx, hxr ▸ hm, hxl.trans hl, hxh.trans hh⟩

/-- A reply is kept among those of its session, and leaves (R532). -/
theorem gulReply_answers {s : State} {n : Nat} {g : GulSession} (hs : s.session n = some g) (hh : g.held = []) (m : GulMsg) :
    ∃ t : State, t = { s with gul := t.gul } ∧ MessagesKept t (s.gulReply n m) ∧ Answered (s.gulReply n m) n g.last m := by
  have hk : MessagesKept (s.setSession n (some { g with replies := (m :: g.replies.filter fun r => r.seq != m.seq).take 16 }))
      (s.gulReply n m) := by
    rw [State.gulReply, hs]
    exact (MessagesKept.refl _).gulSend
  exact ⟨_, rfl, hk, hk.answered ⟨_, session_setSession .., by simp, rfl, hh⟩⟩

/-! ### The WRITE of one object (R518) -/

/-- An object that is an action: a number that no register holds, which a WRITE sets off. -/
structure ActionRow (r : ObjRow) : Prop where
  own : r.home = .own
  wo : r.access = .wo
  number : r.ty.size.isNone = false
  noPort : r.inst ≠ .port

/-- What an ADMIN writes to an object that is an action, where the object is there and the value is in range. -/
theorem writeEntry_action {w : State} {k : GulSession} {t : GulToken} {confirm : Bool} {o i : Nat} {v : List Byte} {r : ObjRow} (hk : k.role = 2)
    (hb : w.bootStage = 0x60) (hrow : objRow o = some r) (hnum : r.num = o) (hr : ActionRow r) (ho : o < 2 ^ 24) (hi : i < 2 ^ 16)
    (hinst : w.instanceExists r i = true) (hval : w.valueOk r i v = true) :
    w.writeEntry_ t k confirm ⟨⟨BitVec.ofNat 16 (o / 256), BitVec.ofNat 8 o, BitVec.ofNat 16 i⟩, v⟩ = w.writeOwn t k o i (beVal v) := by
  obtain ⟨hown, hwo, hsize, hport⟩ := hr
  have hi' : (BitVec.ofNat 16 i).toNat = i := by simpa using hi
  have ho' : (BitVec.ofNat 16 (o / 256)).toNat * 256 + (BitVec.ofNat 8 o).toNat = o := by simp; omega
  have hcheck : w.objCheck k ⟨BitVec.ofNat 16 (o / 256), BitVec.ofNat 8 o, BitVec.ofNat 16 i⟩ true = .ok r := by
    unfold State.objCheck
    dsimp only
    rw [ho', hrow, hi']
    simp [hinst, State.visible, hk, hwo, roleWrites]
  have hserved : w.objServed r = true := by simp [State.objServed, hb]
  have hhidden : w.hiddenPort r i = false := by
    unfold State.hiddenPort
    split
    · next h => exact absurd h hport
    · rfl
  rw [State.writeEntry_, hcheck]
  dsimp only
  simp [hi', State.applyWrite, hval, hserved, hhidden, hwo, hsize, hown, hnum]

/-- The state in which the entries of a WRITE of one object are processed: its reply is awaited. -/
def awaiting (w : State) (n seq : Nat) : State := { w with gul := { w.gul with waits := [⟨n, seq, [none]⟩] } }

/-- The status of the only entry completes its WRITE, whose reply leaves (R518). -/
theorem gulAnswer_only {x : State} {n seq : Nat} (hw : x.gul.waits = [⟨n, seq, [none]⟩]) (code : Nat) :
    x.gulAnswer ⟨n, seq, 0⟩ code = ({ x with gul := { x.gul with waits := [] } } : State).gulReply n (writeReply seq [code]) := by
  simp [State.gulAnswer, hw]

/-- A WRITE of one object whose action is done at once, and which closes no session: its reply is kept. -/
theorem doWrite_acts {w x : State} {n seq code : Nat} {k : GulSession} {confirm : Bool} {e : ObjWrite} (hw : w.gul.waits = [])
    (hs : w.session n = some k) (hh : k.held = []) (hx : (awaiting w n seq).writeEntry_ ⟨n, seq, 0⟩ k confirm e = (x, some code))
    (hg : x.gul = (awaiting w n seq).gul)
    (ha : ∀ t : State, t.afterWrite n (e.addr.index.toNat * 256 + e.addr.sub.toNat) e.addr.inst.toNat e.value = t) :
    ∃ t : State, t = { x with gul := t.gul } ∧ MessagesKept t (w.doWrite n k seq confirm [e]) ∧
      Answered (w.doWrite n k seq confirm [e]) n k.last (writeReply seq [code]) := by
  have hwaits : x.gul.waits = [⟨n, seq, [none]⟩] := by rw [hg]; rfl
  have hsess : ({ x with gul := { x.gul with waits := [] } } : State).session n = some k := by
    have hsx : x.gul.sessions = w.gul.sessions := by rw [hg]; rfl
    change SMap.get none x.gul.sessions n = some k
    rw [hsx]
    exact hs
  have hdo : w.doWrite n k seq confirm [e] =
      (({ x with gul := { x.gul with waits := [] } } : State).gulReply n (writeReply seq [code])).sweepSubs := by
    have hwa : ({ w with gul := { w.gul with waits := ⟨n, seq, [e].map fun _ => none⟩ :: w.gul.waits } } : State) = awaiting w n seq := by
      rw [hw]
      rfl
    unfold State.doWrite
    dsimp only
    rw [hwa]
    simp only [State.writeEntries, List.length_singleton, beq_self_eq_true, Bool.and_true, hx, gulAnswer_only hwaits]
    split
    · rw [List.foldl_cons, List.foldl_nil, ha]
    · rfl
  obtain ⟨t, ht, hk, hans⟩ := gulReply_answers hsess hh (writeReply seq [code])
  rw [hdo]
  exact ⟨t, ht, hk.sweepSubs, (MessagesKept.refl _).sweepSubs.answered hans⟩

/-- What is asked of the action of an object that an open ADMIN session writes: done at once, it leaves the sessions as they are, and what it comes
to holds whatever messages have left since. -/
structure Acts (u : State) (t : GulToken) (g : GulSession) (o i v code : Nat) (p : State → Prop) : Prop where
  acts : ∀ G : Gulter, ∃ x : State, ({ u with gul := G } : State).writeOwn t g o i v = (x, some code) ∧ x.gul = G ∧ p x
  stays : ∀ x t : State, t = { x with regs := t.regs, gul := t.gul, fns := t.fns, out := t.out, freeCtr := t.freeCtr } → p x → p t

/-- A WRITE of an ADMIN has reached its open session in order, in an operational device where no other WRITE awaits its reply. -/
structure AdminWrites (s u : State) (h : GulHead) (n : Nat) (g : GulSession) : Prop where
  heard : Heard s u h 8 n g
  admin : g.role = 2
  running : s.bootStage = 0x60
  alone : u.gul.waits = []

/-- The WRITE of one object by an ADMIN: its action runs with only the session changed, and its reply is kept. -/
theorem AdminWrites.one_acts {s u : State} {h : GulHead} {n : Nat} {g : GulSession} (hw : AdminWrites s u h n g) {o i code : Nat} {v : List Byte}
    {r : ObjRow} (hrow : objRow o = some r) (hnum : r.num = o) (hr : ActionRow r) (ho : o < 2 ^ 24) (hi : i < 2 ^ 16)
    (hinst : u.instanceExists r i = true) (hval : u.valueOk r i v = true) (hafter : ∀ t : State, t.afterWrite n o i v = t) {p : State → Prop}
    (hact : Acts u ⟨n, h.seq.toNat, 0⟩ (taken g h.seq.toNat) o i (beVal v) code p) :
    p (s.writeOneObject h o i v) ∧ Replied (s.writeOneObject h o i v) n h.seq.toNat (writeReply h.seq.toNat [code]) := by
  obtain ⟨⟨harr, hopen, hhead, hheld, hlast, hseq⟩, hk, hb, hwaits⟩ := hw
  have hub : u.bootStage = 0x60 := by
    rw [arrive_session harr hopen]
    exact hb
  have hreq (e : ObjWrite) : s.gulWrite h [e] = u.sequence n g h.seq.toNat (.write (h.flags.getLsbD 0) [e]) := by
    have harr' : s.arrive h (GulReq.write (h.flags.getLsbD 0) [e]).code = .session u n g := harr
    rw [State.gulWrite, State.request, harr']
    dsimp only
    rw [if_neg (by simp [hopen, hhead])]
  rw [State.writeOneObject, hreq, sequence_next hheld hlast hseq]
  generalize h.seq.toNat = seq at hact ⊢
  generalize he : (⟨⟨BitVec.ofNat 16 (o / 256), BitVec.ofNat 8 o, BitVec.ofNat 16 i⟩, v⟩ : ObjWrite) = e
  obtain ⟨x, hx, hxg, hpx⟩ := hact.acts (awaiting (taking u n g seq (.write (h.flags.getLsbD 0) [e])) n seq).gul
  have hentry : (awaiting (taking u n g seq (.write (h.flags.getLsbD 0) [e])) n seq).writeEntry_ ⟨n, seq, 0⟩ (taken g seq) (h.flags.getLsbD 0) e =
      (x, some code) := by
    rw [← hx, ← he]
    exact writeEntry_action hk hub hrow hnum hr ho hi hinst hval
  have hloc : e.addr.index.toNat * 256 + e.addr.sub.toNat = o ∧ e.addr.inst.toNat = i ∧ e.value = v := by
    subst he
    refine ⟨?_, by simpa using hi, rfl⟩
    simp only [BitVec.toNat_ofNat]
    omega
  obtain ⟨hobject, hplace, hvalue⟩ := hloc
  obtain ⟨t, ht, hkept, hans⟩ := doWrite_acts (w := taking u n g seq (.write (h.flags.getLsbD 0) [e])) hwaits (session_setSession ..) rfl hentry
    hxg (by rw [hobject, hplace, hvalue]; exact hafter)
  obtain ⟨k, hks, hkm, hkl, hkh⟩ := hans
  rw [State.doRequest, drain_idle hks hkh]
  refine ⟨hact.stays x _ ?_ hpx, rfl, k, hks, hkm, hkl⟩
  rw [hkept.frame, ht]

end Sys2Proof.Laws
end

section
/-! SUPPORT. The objects that create and end a conference and that attach, detach and release a leg (R544, R545), as an ADMIN writes them. -/

namespace Sys2Proof.Laws

open Sys2Proof Sys2Proof.Machine Sys2Proof.Safety

/-! ### Roles and probes of a leg (R292, R339) -/

theorem obj_setRole (s : State) (leg role o i d : Nat) (h : o * 16777216 + i ≠ 0x600005 * 16777216 + 0) :
    (s.setRole leg role).obj o i d = (s.setObj 0x602001 leg 0 role).obj o i d := by
  rw [State.setRole, State.showSlots, obj_setObj_apart _ _ _ _ _ _ _ _ h]
  split_ifs <;> rfl

theorem setLegState_gul (s : State) (leg v : Nat) : (s.setLegState leg v).gul = s.gul := rfl

theorem setRole_gul (s : State) (leg role : Nat) : (s.setRole leg role).gul = s.gul := by
  unfold State.setRole
  split_ifs <;> rfl

theorem setRole_trk (s : State) (leg role : Nat) : (s.setRole leg role).trk = s.trk := by
  unfold State.setRole
  split_ifs <;> rfl

theorem setRole_fw (s : State) (leg : Nat) {role : Nat} (h : role ≠ 0) : (s.setRole leg role).fw = s.fw := by
  rw [State.setRole, if_neg h]
  split_ifs <;> rfl

/-- A request for a probe changes the table of probes alone (R339). -/
theorem requestProbe_frame (s : State) (leg : Nat) :
    (s.requestProbe leg).1 = { s with freeCtr := (s.requestProbe leg).1.freeCtr, sdg := (s.requestProbe leg).1.sdg } := by
  unfold State.requestProbe
  split_ifs <;> rfl

/-- A leg that joins a conference, before its probe is requested. -/
def joining (s : State) (leg conf : Nat) : State := ((s.setObj 0x401005 leg 0xFFFF conf).setLegState leg 2).setRole leg 1

theorem joinLeg_frame (s : State) (leg conf : Nat) :
    s.joinLeg leg conf = { joining s leg conf with freeCtr := (s.joinLeg leg conf).freeCtr, sdg := (s.joinLeg leg conf).sdg } :=
  requestProbe_frame (joining s leg conf) leg

theorem obj_joinLeg (s : State) (leg conf o i d : Nat) (h : o * 16777216 + i ≠ 0x600005 * 16777216 + 0) : (s.joinLeg leg conf).obj o i d =
    (((s.setObj 0x401005 leg 0xFFFF conf).setObj 0x401001 leg 0 2).setObj 0x602001 leg 0 1).obj o i d := by
  rw [State.obj, joinLeg_frame, ← State.obj]
  exact obj_setRole _ leg 1 o i d h

theorem joinLeg_gul (s : State) (leg conf : Nat) : (s.joinLeg leg conf).gul = s.gul := by
  rw [joinLeg_frame]
  exact setRole_gul ((s.setObj 0x401005 leg 0xFFFF conf).setLegState leg 2) leg 1

theorem cascade_joinLeg (s : State) (leg conf c : Nat) : (s.joinLeg leg conf).cascade c = s.cascade c := by
  have ht : (s.joinLeg leg conf).trk = s.trk := by
    rw [joinLeg_frame]
    exact setRole_trk ((s.setObj 0x401005 leg 0xFFFF conf).setLegState leg 2) leg 1
  rw [State.cascade, ht, State.cascade]

/-- The 30 s of CONNECTING count from now on (R545). -/
theorem joinLeg_connecting (s : State) (leg conf : Nat) : SMap.get none (s.joinLeg leg conf).fw.connecting leg = some s.cycle := by
  have hf : (s.joinLeg leg conf).fw = ((s.setObj 0x401005 leg 0xFFFF conf).setLegState leg 2).fw := by
    rw [joinLeg_frame]
    exact setRole_fw ((s.setObj 0x401005 leg 0xFFFF conf).setLegState leg 2) leg one_ne_zero
  rw [hf]
  exact get_set_same none _ leg (some s.cycle)

/-- A probe that is over leaves the sessions and the states of the legs. -/
theorem returnLeg_leaves (s : State) (q : Probe) {leg : Nat} (hl : leg < 2 ^ 24) :
    (s.returnLeg q).gul = s.gul ∧ (s.returnLeg q).legState leg = s.legState leg := by
  have hstore (t : State) (b : Nat) (d : List Byte) : (t.storeSet b d).1.gul = t.gul ∧ (t.storeSet b d).1.objNum = t.objNum := by
    unfold State.storeSet
    split_ifs <;> exact ⟨rfl, rfl⟩
  have hcommit (t : State) (bs : List Nat) (tag : Nat) :
      (t.commitGroup 1 bs tag none).1.gul = t.gul ∧ (t.commitGroup 1 bs tag none).1.objNum = t.objNum := by
    unfold State.commitGroup
    split_ifs <;> exact ⟨rfl, rfl⟩
  have hrole : (if s.roleOfLeg q.leg = 4 then s.restRole q.leg else s).gul = s.gul ∧
      (if s.roleOfLeg q.leg = 4 then s.restRole q.leg else s).legState leg = s.legState leg := by
    split
    · refine ⟨setRole_gul .., ?_⟩
      rw [State.legState, State.restRole, obj_setRole _ _ _ _ _ _ (by omega), obj_setObj_apart _ _ _ _ _ _ _ _ (by omega), State.legState]
    · exact ⟨rfl, rfl⟩
  unfold State.returnLeg
  dsimp only
  generalize (if s.roleOfLeg q.leg = 4 then s.restRole q.leg else s) = u at hrole ⊢
  have hs := hstore u q.bus blankSet
  have hc := hcommit (u.storeSet q.bus blankSet).1 [q.bus] q.mod
  have hlegs {t : State} (h : t.objNum = u.objNum) : t.legState leg = s.legState leg := by
    rw [← hrole.2, State.legState, State.obj, h]
    rfl
  split
  · exact ⟨hs.1.trans hrole.1, hlegs hs.2⟩
  · exact ⟨(hc.1.trans hs.1).trans hrole.1, hlegs (hc.2.trans hs.2)⟩

theorem leaveSundog_leaves (s : State) (n : Nat) {leg : Nat} (hl : leg < 2 ^ 24) :
    (s.leaveSundog n).gul = s.gul ∧ (s.leaveSundog n).legState leg = s.legState leg := by
  have habort : (s.abortProbe n).gul = s.gul ∧ (s.abortProbe n).legState leg = s.legState leg := by
    unfold State.abortProbe
    split
    · split
      · exact ⟨rfl, rfl⟩
      · next q _ _ =>
        dsimp only
        have hb : ((s.putBit (R.SDG_MOD_CTRL_EN q.mod) false).stopBeacon q.mod).gul = s.gul ∧
            ((s.putBit (R.SDG_MOD_CTRL_EN q.mod) false).stopBeacon q.mod).legState leg = s.legState leg := by
          unfold State.stopBeacon
          dsimp only
          split <;> exact ⟨rfl, rfl⟩
        exact ⟨(returnLeg_leaves _ q hl).1.trans hb.1, (returnLeg_leaves _ q hl).2.trans hb.2⟩
    · exact ⟨rfl, rfl⟩
  exact habort

/-! ### The actions (R544, R545) -/

/-- The state with a conference just created by function `fn` (R409, R544). -/
def created (w : State) (conf fn : Nat) : State :=
  (((((w.setObj 0x400001 conf 0 1).setObj 0x400004 conf 255 fn).setObj 0x820001 conf 0 1).setObj 0x820002 conf 0 w.module).setObj 0x820003 conf 0
    1).setObj 0x820004 conf 0 1

theorem createConf_free {w : State} {conf : Nat} (g : GulSession) (h : w.obj 0x400001 conf 0 = 0) :
    w.createConf g conf = (created w conf g.fn, St.ok) := by
  simp only [State.createConf, State.changeIf, h, beq_self_eq_true, if_true]
  rfl

theorem createConf_taken {w : State} {conf : Nat} (g : GulSession) (h : w.obj 0x400001 conf 0 ≠ 0) : w.createConf g conf = (w, St.objRange) := by
  simp [State.createConf, State.changeIf, h]

theorem created_shows (w : State) (conf fn : Nat) : (created w conf fn).obj 0x400001 conf 0 = 1 ∧ (created w conf fn).roleOf conf = 1 ∧
    (created w conf fn).anchorOf conf = w.module ∧ (created w conf fn).epochOf conf = 1 ∧ (created w conf fn).anchorEpochOf conf = 1 ∧
    (created w conf fn).obj 0x400004 conf 255 = fn := by
  refine ⟨?_, ?_, ?_, ?_, ?_, ?_⟩ <;>
    simp (disch := omega) only [created, State.roleOf, State.anchorOf, State.epochOf, State.anchorEpochOf, obj_setObj_apart, obj_setObj_same]

/-- Where an object holds a value nowhere, it does so nowhere after a write of another object. -/
theorem instancesWith_setObj {s : State} {o v : Nat} (h : s.instancesWith o v = []) (o' i d x : Nat) (ho : (o' * 16777216 + i) / 16777216 ≠ o) :
    (s.setObj o' i d x).instancesWith o v = [] := by
  have hs (e : Nat × Nat) (he : e ∈ s.objNum) : (e.1 / 16777216 == o && e.2 == v) = false := by
    rw [State.instancesWith, List.map_eq_nil_iff, List.filter_eq_nil_iff] at h
    simpa using h e he
  rw [State.instancesWith, List.map_eq_nil_iff, List.filter_eq_nil_iff]
  intro e he
  rw [Bool.not_eq_true]
  simp only [State.setObj, SMap.set] at he
  split at he
  · exact hs e (List.mem_of_mem_filter he)
  · obtain rfl | hm := mem_insert _ _ _ _ he
    · simp [objKey, ho]
    · exact hs e hm

theorem setCascade_gul (s : State) (conf : Nat) (c : Cascade) : (s.setCascade conf c).gul = s.gul := rfl
theorem setCascade_fw (s : State) (conf : Nat) (c : Cascade) : (s.setCascade conf c).fw = s.fw := rfl
theorem countRoster_gul (s : State) (conf : Nat) : (s.countRoster conf).gul = s.gul := by rw [State.countRoster, setObj_gul, setObj_gul]
theorem countRoster_fw (s : State) (conf : Nat) : (s.countRoster conf).fw = s.fw := by rw [State.countRoster, setObj_fw, setObj_fw]

/-- A conference without legs and participants ends at once (R544). -/
theorem endConf_empty {w : State} {conf : Nat} (hc : conf < 2 ^ 24) (h : w.obj 0x400001 conf 0 = 1) (hl : w.legsOf conf = [])
    (hr : (w.cascade conf).roster = []) : (w.endConf conf).obj 0x400001 conf 0 = 0 ∧ (w.endConf conf).roleOf conf = 0 ∧
      (w.endConf conf).obj 0x400004 conf 255 = 255 ∧ (w.endConf conf).gul = w.gul := by
  have hl' : (w.setObj 0x400001 conf 0 2).legsOf conf = [] := instancesWith_setObj hl _ _ _ _ (by omega)
  have hif : ((w.setObj 0x400001 conf 0 2).obj 0x400001 conf 0 = 2 && ((w.setObj 0x400001 conf 0 2).legsOf conf).isEmpty &&
      (((w.setObj 0x400001 conf 0 2).cascade conf).roster.all fun e => e.2 == Presence.left)) = true := by
    simp [hl', hr]
  rw [State.endConf, if_pos h]
  dsimp only
  rw [hl', List.foldl_nil, State.settleEnd, if_pos hif]
  dsimp only
  refine ⟨?_, ?_, ?_, ?gul⟩
  case gul => simp only [countRoster_gul, setCascade_gul, setObj_gul]
  all_goals simp (disch := omega) only [State.roleOf, obj_countRoster, obj_setCascade, obj_setObj_apart, obj_setObj_same]

/-- With no module reached there is nobody to tell (R408). -/
theorem tellAll_alone {s : State} {conf : Nat} (h : (s.cascade conf).members = []) (kind : Nat) (what : List Nat) : s.tellAll conf kind what = s := by
  simp [State.tellAll, State.reached, h]

/-- A leg is attached to a conference that only this module serves: its participant is PRESENT (R408, R545). -/
theorem attachLeg_alone {w : State} {leg conf : Nat} (hl : leg < 2 ^ 24) (hc : conf < 2 ^ 24) (h : w.obj 0x400001 conf 0 = 1)
    (hm : (w.cascade conf).members = []) : w.attachLeg leg conf = ((w.joinLeg leg conf).setCascade conf { w.cascade conf with
      roster := SMap.set Presence.left (w.cascade conf).roster (w.rosterId leg) .present }).countRoster conf := by
  have hactive : (w.joinLeg leg conf).obj 0x400001 conf 0 ≠ 2 := by
    rw [obj_joinLeg _ _ _ _ _ _ (by omega)]
    simp (disch := omega) only [obj_setObj_apart, h]
    decide
  rw [State.attachLeg, State.announce, setPresence_changes hactive, cascade_joinLeg]
  split
  · refine tellAll_alone ?_ 1 _
    rw [cascade_countRoster, cascade_setCascade]
    exact hm
  · rfl

theorem rosterId_leg (w : State) {leg : Nat} (hl : leg < 16384) : w.rosterId leg % 16384 = leg ∧ w.isLocal (w.rosterId leg) = true := by
  rw [State.isLocal, State.rosterId]
  generalize w.get R.TRK_MODULE_INDEX = m
  exact ⟨by omega, by simp only [beq_iff_eq]; omega⟩

/-- The attachment of a leg by an anchor that no other module serves with, and that has lost none. -/
theorem attach_connects {w : State} {leg conf : Nat} (t : GulToken) (hl : leg < 16384) (hc : conf < 4096) (hs : w.legState leg = 1)
    (h : w.obj 0x400001 conf 0 = 1) (hlock : w.obj 0x400006 conf 0 = 0) (hr : w.roleOf conf = 1) (hm : (w.cascade conf).members = [])
    (hlost : (w.cascade conf).lost = []) : ∃ x : State, w.attach t leg conf = (x, some St.ok) ∧ x.gul = w.gul ∧ x.legState leg = 2 ∧
      x.confOf leg = conf ∧ x.obj 0x602001 leg 0 = 1 ∧ SMap.get none x.fw.connecting leg = some w.cycle ∧
      SMap.get .left (x.cascade conf).roster (w.rosterId leg) = .present := by
  obtain ⟨hid, hloc⟩ := rosterId_leg w hl
  have happly : w.applyOp conf ⟨some (w.rosterId leg), 0x401002, conf⟩ = w.attachLeg leg conf := by
    simp [State.applyOp, hloc, hid]
  have ha := anchorApply_applies (s := w) (conf := conf) (o := ⟨some (w.rosterId leg), 0x401002, conf⟩) fun id _ => by simp [hlost]
  rw [happly, attachLeg_alone (by omega) (by omega) h hm] at ha
  have hat : w.attach t leg conf = w.askConf t conf (some (w.rosterId leg)) 0x401002 conf := by
    simp [State.attach, hs, h, hlock]
  refine ⟨_, hat.trans (confOp_anchor _ hr ha), ?gul, ?_, ?_, ?_, ?fw, ?roster⟩
  case gul => simp only [conflictable, setCascade_gul, countRoster_gul, joinLeg_gul]
  case fw => simp only [conflictable, setCascade_fw, countRoster_fw, joinLeg_connecting]
  case roster =>
    simp only [conflictable, cascade_setCascade, cascade_countRoster]
    exact get_set_same ..
  all_goals
    simp (disch := omega) only [conflictable, State.legState, State.confOf, obj_setCascade, obj_countRoster, obj_joinLeg, obj_setObj_apart,
      obj_setObj_same]

theorem attach_refused {w : State} {leg conf : Nat} (t : GulToken)
    (h : w.legState leg ≠ 1 ∨ w.obj 0x400001 conf 0 ≠ 1 ∨ w.obj 0x400006 conf 0 ≠ 0) : w.attach t leg conf = (w, some St.objRange) := by
  unfold State.attach
  rw [if_neg]
  simp only [Bool.and_eq_true, decide_eq_true_eq, beq_iff_eq]
  tauto

/-- A leg that has left is CONFIGURED again, and its video is not served (R545). -/
theorem leaveLeg_shows {w : State} {leg : Nat} (hl : leg < 16384) (h : w.legState leg ≠ 0) : (w.leaveLeg leg).legState leg = 1 ∧
    (w.leaveLeg leg).confOf leg = 0xFFFF ∧ (w.leaveLeg leg).obj 0x506101 leg 0 = 0 ∧ (w.leaveLeg leg).gul = w.gul := by
  obtain ⟨hg, hs⟩ := leaveSundog_leaves w leg (leg := leg) (by omega)
  have hne : ((((w.leaveSundog leg).setObj 0x401005 leg 0xFFFF 0xFFFF).setRole leg 0).setObj 0x506101 leg 0 0).legState leg ≠ 0 := by
    simp (disch := omega) only [State.legState, obj_setRole, obj_setObj_apart]
    rw [← State.legState, hs]
    exact h
  rw [State.leaveLeg, if_neg hne]
  refine ⟨legState_setLegState .., ?_, ?_, ?gul⟩
  case gul => rw [setLegState_gul, setObj_gul, setRole_gul, setObj_gul, hg]
  all_goals simp (disch := omega) only [State.confOf, obj_setLegState, obj_setRole, obj_setObj_apart, obj_setObj_same]

/-- A leg without key slots and FCT entries is freed (R545). -/
theorem freeLeg_empty {w : State} {leg : Nat} (hs : w.slotsOfLeg leg = []) (hf : w.fctOfLeg leg = []) :
    w.freeLeg leg = (w.setObj 0x401010 leg 0 0).setLegState leg 0 := by
  simp only [State.freeLeg, hs, hf, List.foldl_nil]

theorem releaseLeg_alone {w : State} {leg : Nat} (t : GulToken) (hc : w.confOf leg = 0xFFFF) (hs : w.slotsOfLeg leg = []) (hf : w.fctOfLeg leg = []) :
    w.releaseLeg t leg = ((w.setObj 0x401010 leg 0 0).setLegState leg 0, some St.ok) := by
  simp only [State.releaseLeg, State.askLeg, hc, if_true]
  rw [if_pos (by decide), freeLeg_empty hs hf]

/-! ### The objects (R544, R545) -/

theorem writeOwn_confCreate (w : State) (t : GulToken) (g : GulSession) (i v : Nat) :
    w.writeOwn t g 0x400002 i v = now (w.createConf g i) := by simp [State.writeOwn]

theorem writeOwn_confEnd (w : State) (t : GulToken) (g : GulSession) (i v : Nat) :
    w.writeOwn t g 0x400003 i v = w.askConf t i none 0x400003 v := by simp [State.writeOwn]

theorem writeOwn_legAttach (w : State) (t : GulToken) (g : GulSession) (i v : Nat) :
    w.writeOwn t g 0x401002 i v = w.attach t i v := by simp [State.writeOwn]

theorem writeOwn_legDetach (w : State) (t : GulToken) (g : GulSession) (i v : Nat) :
    w.writeOwn t g 0x401003 i v = w.askLeg t i 0x401003 v (w.leaveLeg i) := by simp [State.writeOwn]

theorem writeOwn_legRelease (w : State) (t : GulToken) (g : GulSession) (i v : Nat) :
    w.writeOwn t g 0x401004 i v = w.releaseLeg t i := by simp [State.writeOwn]

/-- A number comes back from its two octets. -/
theorem beVal_natToOs_two {v : Nat} (h : v < 65536) : beVal (natToOs 2 v) = v := by
  simp only [natToOs, List.nil_append, List.cons_append, beVal, List.foldl_cons, List.foldl_nil, BitVec.toNat_ofNat]
  omega

theorem legLimit_le (s : State) : s.legLimit ≤ 16384 := by
  unfold State.legLimit
  split <;> decide

/-- The row of an action of a conference or of a leg. -/
abbrev actionRow (o : Nat) (inst : ObjInst) (ty : ObjTy) (lo hi : Nat) : ObjRow := ⟨o, inst, ty, .wo, lo, hi, .own⟩

section Commands

variable {s u : State} {h : GulHead} {n : Nat} {g : GulSession} {conf leg : BitVec 16}

/-- A BOOL action of a conference, written by an ADMIN. -/
theorem AdminWrites.conf_acts (hw : AdminWrites s u h n g) (hc : conf.toNat < 4096) {o code : Nat} {p : State → Prop}
    (hrow : objRow o = some (actionRow o .conf .bool 1 1)) (ho : o < 2 ^ 24)
    (hval : ∀ w : State, w.valueOk (actionRow o .conf .bool 1 1) conf.toNat one = true)
    (hafter : ∀ t : State, t.afterWrite n o conf.toNat one = t)
    (hact : Acts u ⟨n, h.seq.toNat, 0⟩ (taken g h.seq.toNat) o conf.toNat 1 code p) :
    p (s.writeOneObject h o conf.toNat one) ∧ Replied (s.writeOneObject h o conf.toNat one) n h.seq.toNat (writeReply h.seq.toNat [code]) :=
  hw.one_acts hrow rfl ⟨rfl, rfl, rfl, nofun⟩ ho conf.isLt (decide_eq_true hc) (hval u) hafter hact

/-- An action of a leg, written by an ADMIN. -/
theorem AdminWrites.leg_acts (hw : AdminWrites s u h n g) (hl : leg.toNat < u.legLimit) {o lo hi code : Nat} {ty : ObjTy} {v : List Byte}
    {p : State → Prop}
    (hrow : objRow o = some (actionRow o .leg ty lo hi)) (hnum : ty.size.isNone = false) (ho : o < 2 ^ 24)
    (hval : ∀ w : State, w.valueOk (actionRow o .leg ty lo hi) leg.toNat v = true) (hafter : ∀ t : State, t.afterWrite n o leg.toNat v = t)
    (hact : Acts u ⟨n, h.seq.toNat, 0⟩ (taken g h.seq.toNat) o leg.toNat (beVal v) code p) :
    p (s.writeOneObject h o leg.toNat v) ∧ Replied (s.writeOneObject h o leg.toNat v) n h.seq.toNat (writeReply h.seq.toNat [code]) :=
  hw.one_acts hrow rfl ⟨rfl, rfl, hnum, nofun⟩ ho leg.isLt (decide_eq_true hl) (hval u) hafter hact

theorem AdminWrites.confCreate_acts (hw : AdminWrites s u h n g) (hc : conf.toNat < 4096) {code : Nat} {p : State → Prop}
    (hact : Acts u ⟨n, h.seq.toNat, 0⟩ (taken g h.seq.toNat) 0x400002 conf.toNat 1 code p) : Completes (exec (.confCreate h conf) s) fun t =>
      p t ∧ Replied t n h.seq.toNat (writeReply h.seq.toNat [code]) :=
  ⟨_, rfl, hw.conf_acts hc rfl (by decide) (fun _ => rfl) (fun _ => rfl) hact⟩

theorem AdminWrites.confEnd_acts (hw : AdminWrites s u h n g) (hc : conf.toNat < 4096) {code : Nat} {p : State → Prop}
    (hact : Acts u ⟨n, h.seq.toNat, 0⟩ (taken g h.seq.toNat) 0x400003 conf.toNat 1 code p) : Completes (exec (.confEnd h conf) s) fun t =>
      p t ∧ Replied t n h.seq.toNat (writeReply h.seq.toNat [code]) :=
  ⟨_, rfl, hw.conf_acts hc rfl (by decide) (fun _ => rfl) (fun _ => rfl) hact⟩

theorem AdminWrites.legDetach_acts (hw : AdminWrites s u h n g) (hl : leg.toNat < u.legLimit) {code : Nat} {p : State → Prop}
    (hact : Acts u ⟨n, h.seq.toNat, 0⟩ (taken g h.seq.toNat) 0x401003 leg.toNat 1 code p) : Completes (exec (.legDetach h leg) s) fun t =>
      p t ∧ Replied t n h.seq.toNat (writeReply h.seq.toNat [code]) :=
  ⟨_, rfl, hw.leg_acts (v := one) (ty := .bool) (lo := 1) (hi := 1) hl rfl rfl (by decide) (fun _ => rfl) (fun _ => rfl) hact⟩

theorem AdminWrites.legRelease_acts (hw : AdminWrites s u h n g) (hl : leg.toNat < u.legLimit) {code : Nat} {p : State → Prop}
    (hact : Acts u ⟨n, h.seq.toNat, 0⟩ (taken g h.seq.toNat) 0x401004 leg.toNat 1 code p) : Completes (exec (.legRelease h leg) s) fun t =>
      p t ∧ Replied t n h.seq.toNat (writeReply h.seq.toNat [code]) :=
  ⟨_, rfl, hw.leg_acts (v := one) (ty := .bool) (lo := 1) (hi := 1) hl rfl rfl (by decide) (fun _ => rfl) (fun _ => rfl) hact⟩

theorem AdminWrites.legAttach_acts (hw : AdminWrites s u h n g) (hl : leg.toNat < u.legLimit) (hc : conf.toNat < 4096) {code : Nat}
    {p : State → Prop} (hact : Acts u ⟨n, h.seq.toNat, 0⟩ (taken g h.seq.toNat) 0x401002 leg.toNat conf.toNat code p) :
    Completes (exec (.legAttach h leg conf) s) fun t =>
      p t ∧ Replied t n h.seq.toNat (writeReply h.seq.toNat [code]) := by
  have hv : beVal (natToOs 2 conf.toNat) = conf.toNat := beVal_natToOs_two conf.isLt
  have hval (w : State) : w.valueOk (actionRow 0x401002 .leg .u16 0 4095) leg.toNat (natToOs 2 conf.toNat) = true := by
    have hn : w.numOk (actionRow 0x401002 .leg .u16 0 4095) leg.toNat conf.toNat = true := by
      simpa [State.numOk] using Nat.le_of_lt_succ hc
    simp only [State.valueOk, hv, hn, Bool.and_true]
    rfl
  exact ⟨_, rfl, hw.leg_acts (v := natToOs 2 conf.toNat) hl rfl rfl (by decide) hval (fun _ => rfl) (hv.symm ▸ hact)⟩

theorem AdminWrites.confCreate_free (hw : AdminWrites s u h n g) (hc : conf.toNat < 4096) (h0 : u.obj 0x400001 conf.toNat 0 = 0) :
    Completes (exec (.confCreate h conf) s) fun t => (t.obj 0x400001 conf.toNat 0 = 1 ∧ t.roleOf conf.toNat = 1 ∧ t.anchorOf conf.toNat = u.module ∧
      t.epochOf conf.toNat = 1 ∧ t.anchorEpochOf conf.toNat = 1 ∧ t.obj 0x400004 conf.toNat 255 = g.fn) ∧
      Replied t n h.seq.toNat (writeReply h.seq.toNat [St.ok]) := by
  refine hw.confCreate_acts hc ⟨fun G => ⟨created { u with gul := G } conf.toNat g.fn, ?_, rfl, created_shows ..⟩, fun x t ht hx => ?_⟩
  · exact (writeOwn_confCreate ..).trans (congrArg now (createConf_free (w := { u with gul := G }) _ h0))
  · rw [ht]
    exact hx

theorem AdminWrites.confCreate_taken (hw : AdminWrites s u h n g) (hc : conf.toNat < 4096) (h0 : u.obj 0x400001 conf.toNat 0 ≠ 0) :
    Completes (exec (.confCreate h conf) s) fun t => t.objNum = u.objNum ∧ Replied t n h.seq.toNat (writeReply h.seq.toNat [St.objRange]) := by
  refine hw.confCreate_acts hc ⟨fun G => ⟨{ u with gul := G }, ?_, rfl, rfl⟩, fun x t ht hx => ?_⟩
  · exact (writeOwn_confCreate ..).trans (congrArg now (createConf_taken (w := { u with gul := G }) _ h0))
  · rw [ht]
    exact hx

theorem AdminWrites.confEnd_empty (hw : AdminWrites s u h n g) (hc : conf.toNat < 4096) (h1 : u.obj 0x400001 conf.toNat 0 = 1)
    (hr : u.roleOf conf.toNat = 1) (hl : u.legsOf conf.toNat = []) (hp : (u.cascade conf.toNat).roster = []) :
    Completes (exec (.confEnd h conf) s) fun t => (t.obj 0x400001 conf.toNat 0 = 0 ∧ t.roleOf conf.toNat = 0 ∧ t.obj 0x400004 conf.toNat 255 = 255) ∧
      Replied t n h.seq.toNat (writeReply h.seq.toNat [St.ok]) := by
  refine hw.confEnd_acts hc ⟨fun G => ?_, fun x t ht hx => ?_⟩
  · obtain ⟨hfree, hnone, howner, hgul⟩ := endConf_empty (w := { u with gul := G }) (conf := conf.toNat) (by omega) h1 hl hp
    have ha := anchorApply_applies (s := { u with gul := G }) (conf := conf.toNat) (o := ⟨none, 0x400003, 1⟩) nofun
    have happly : ({ u with gul := G } : State).applyOp conf.toNat ⟨none, 0x400003, 1⟩ = ({ u with gul := G } : State).endConf conf.toNat := by
      simp [State.applyOp]
    rw [happly] at ha
    exact ⟨_, (writeOwn_confEnd ..).trans (confOp_anchor _ hr ha), hgul, hfree, hnone, howner⟩
  · rw [ht]
    exact hx

theorem AdminWrites.legAttach_connects (hw : AdminWrites s u h n g) (hl : leg.toNat < u.legLimit) (hc : conf.toNat < 4096)
    (hs : u.legState leg.toNat = 1) (h1 : u.obj 0x400001 conf.toNat 0 = 1) (hlock : u.obj 0x400006 conf.toNat 0 = 0) (hr : u.roleOf conf.toNat = 1)
    (hm : (u.cascade conf.toNat).members = []) (hlost : (u.cascade conf.toNat).lost = []) : Completes (exec (.legAttach h leg conf) s) fun t =>
      (t.legState leg.toNat = 2 ∧ t.confOf leg.toNat = conf.toNat ∧ t.obj 0x602001 leg.toNat 0 = 1 ∧
        SMap.get none t.fw.connecting leg.toNat = some u.cycle ∧ SMap.get .left (t.cascade conf.toNat).roster (u.rosterId leg.toNat) = .present) ∧
      Replied t n h.seq.toNat (writeReply h.seq.toNat [St.ok]) := by
  refine hw.legAttach_acts hl hc ⟨fun G => ?_, fun x t ht hx => ?_⟩
  · obtain ⟨x, hx, hg, hshows⟩ := attach_connects (w := { u with gul := G }) ⟨n, h.seq.toNat, 0⟩ (hl.trans_le (legLimit_le u)) hc hs h1 hlock
      hr hm hlost
    exact ⟨x, (writeOwn_legAttach ..).trans hx, hg, hshows⟩
  · rw [ht]
    exact hx

theorem AdminWrites.legAttach_refused (hw : AdminWrites s u h n g) (hl : leg.toNat < u.legLimit) (hc : conf.toNat < 4096)
    (hs : u.legState leg.toNat ≠ 1 ∨ u.obj 0x400001 conf.toNat 0 ≠ 1 ∨ u.obj 0x400006 conf.toNat 0 ≠ 0) :
    Completes (exec (.legAttach h leg conf) s) fun t =>
      (t.objNum = u.objNum ∧ t.trk = u.trk) ∧ Replied t n h.seq.toNat (writeReply h.seq.toNat [St.objRange]) := by
  refine hw.legAttach_acts hl hc ⟨fun G => ⟨{ u with gul := G }, ?_, rfl, rfl, rfl⟩, fun x t ht hx => ?_⟩
  · exact (writeOwn_legAttach ..).trans (attach_refused (w := { u with gul := G }) _ hs)
  · rw [ht]
    exact hx

theorem AdminWrites.legDetach_unattached (hw : AdminWrites s u h n g) (hl : leg.toNat < u.legLimit) (hc : u.confOf leg.toNat = 0xFFFF)
    (hs : u.legState leg.toNat ≠ 0) : Completes (exec (.legDetach h leg) s) fun t =>
      (t.legState leg.toNat = 1 ∧ t.confOf leg.toNat = 0xFFFF ∧ t.obj 0x506101 leg.toNat 0 = 0) ∧
      Replied t n h.seq.toNat (writeReply h.seq.toNat [St.ok]) := by
  refine hw.legDetach_acts hl ⟨fun G => ?_, fun x t ht hx => ?_⟩
  · obtain ⟨hstate, hconf, hmode, hgul⟩ := leaveLeg_shows (w := { u with gul := G }) (hl.trans_le (legLimit_le u)) hs
    exact ⟨_, (writeOwn_legDetach ..).trans (if_pos hc), hgul, hstate, hconf, hmode⟩
  · rw [ht]
    exact hx

theorem AdminWrites.legRelease_unattached (hw : AdminWrites s u h n g) (hl : leg.toNat < u.legLimit) (hc : u.confOf leg.toNat = 0xFFFF)
    (hs : u.slotsOfLeg leg.toNat = []) (hf : u.fctOfLeg leg.toNat = []) : Completes (exec (.legRelease h leg) s) fun t =>
      (t.legState leg.toNat = 0 ∧ t.obj 0x401010 leg.toNat 0 = 0 ∧ t.cpx = u.cpx ∧ t.mem = u.mem) ∧
      Replied t n h.seq.toNat (writeReply h.seq.toNat [St.ok]) := by
  refine hw.legRelease_acts hl ⟨fun G => ⟨_, (writeOwn_legRelease ..).trans (releaseLeg_alone _ hc hs hf), rfl, legState_setLegState .., ?_, rfl,
    rfl⟩, fun x t ht hx => ?_⟩
  · simp (disch := omega) only [obj_setLegState, obj_setObj_apart, obj_setObj_same]
  · rw [ht]
    exact hx

end Commands

end Sys2Proof.Laws
end

section
/-! The statement of chapter 12 about conferences, their legs and their journals. -/

namespace Sys2Proof.Proofs

open Sys2Proof Sys2Proof.Machine Sys2Proof.Safety Sys2Proof.Laws

/-- Settles O44: the WRITEs of an ADMIN that create and end a conference and attach, detach and release a leg; what ends CONNECTING; an operation by
the role of the module it is asked of; and each message of the cascade by the role of its receiver. -/
theorem conferencesHaveOneAnchor : Obligations.ConferencesHaveOneAnchor := by
  refine ⟨?requests, ?legs, ?operations, ?messages⟩
  case requests =>
    rintro s u h n g conf leg _ _ hh hk hb rfl rfl hc hl hw
    have ha : AdminWrites s u h n g := ⟨hh, hk, hb, hw⟩
    refine ⟨fun h0 => ?_, fun h0 => ha.confCreate_taken hc h0, fun h1 hr hno hp => ?_, fun hs h1 hlock hr hm hlost => ?_, fun hs => ?_, fun hout =>
      ⟨fun hs => ?_, fun hslots hf => ?_⟩⟩
    · simpa only [and_assoc] using ha.confCreate_free hc h0
    · simpa only [and_assoc] using ha.confEnd_empty hc h1 hr hno hp
    · simpa only [and_assoc] using ha.legAttach_connects hl hc hs h1 hlock hr hm hlost
    · simpa only [and_assoc] using ha.legAttach_refused hl hc hs
    · simpa only [and_assoc] using ha.legDetach_unattached hl hout hs
    · simpa only [and_assoc] using ha.legRelease_unattached hl hout hslots hf
  case legs =>
    refine fun s leg => ⟨?_, fun bad c hc => ⟨fun h hb => legConnectTimeout_ends hc h hb, fun h => ⟨s, exec_legConnectTimeout_apart hc h, rfl⟩⟩⟩
    rintro suite o _ rfl
    refine ⟨fun h => ⟨s, exec_legConnected_apart _ h, rfl⟩, fun h => ?_⟩
    obtain ⟨t, ht, hstate, hsuite, hframe, hmode⟩ := legConnected_connects h suite o
    refine ⟨t, ht, hstate, hsuite, hframe, fun hn => ?_, fun hc ho hp hlevel hrate hf => ?_, fun hv ho hno => ?_⟩
    · exact hmode.trans (viewerMode_nothing hn)
    · exact hmode.trans (viewerMode_stitched ho ⟨hc, hp, hlevel, hrate, hf⟩)
    · refine hmode.trans (viewerMode_composed hv ho ?_)
      rintro ⟨hc, hp, hlevel, hrate, hf⟩
      rcases hno with h | h | h | h | h
      · exact h hc
      · exact hp.elim h.1 h.2
      · exact absurd hlevel (Nat.not_le.2 h)
      · exact absurd hrate (Nat.not_le.2 h)
      · exact Bool.false_ne_true (hf.symm.trans h)
  case operations =>
    rintro s who conf op _ rfl
    refine ⟨fun h hn hlo hhi => confOp_anchor_applies who h ⟨hn, hlo, hhi⟩, fun h ho ht => ⟨_, confOp_member_cut_off who h ho ht, rfl⟩,
      fun k h ho ht hc hw => confOp_member_forwards who h ho ht hc hw, fun h ho hq => ⟨_, confOp_island_refuses who h ho hq, rfl⟩,
      fun h ho hj => ⟨_, confOp_island_full who h ho hj, rfl⟩, fun h ho hq hj => confOp_island_queues who h ho hq hj,
      fun id h ho hl hop hj => confOp_island_own_leg who h ho hl hop hj, fun k h => ⟨s, exec_confOp_stray k who op h, rfl⟩,
      fun k st h => ⟨s, exec_confOpResult_stray st h, rfl⟩, fun k st x rest hp ha => ⟨fun hl => ?_, fun hl hf => ?_⟩,
      fun h => ⟨_, exec_promote_elsewhere who h, rfl⟩, fun h hq => promote_island who h hq⟩
    · exact ⟨_, exec_confOpResult hp ha hl, cascade_setCascade .., rfl⟩
    · exact ⟨s, exec_confOpResult_unlisted k hl hf, rfl⟩
  case messages =>
    rintro s k conf _ _ rfl rfl
    refine ⟨fun ae e len => ⟨fun h => stateSummary_joins h ae e len, fun h ha => stateSummary_updates h ha ae e len,
        fun a ha h => ⟨s, exec_stateSummary_relayed ha h ae e len, rfl⟩, fun h ha => ⟨s, exec_stateSummary_older k h ha _ e len, rfl⟩,
        fun h ha hj => stateSummary_heals h ha hj e len⟩,
      fun e time v op => ⟨fun h => ⟨s, exec_journalEntry_elsewhere k h e time v op, rfl⟩,
        fun h => ⟨_, exec_journalEntry k h e time v op, cascade_setCascade .., rfl⟩⟩,
      fun count h => ⟨s, exec_journalDone_apart k h, rfl⟩, fun e h hr hn hlo hhi => journalDone_replays h hr ⟨hn, hlo, hhi⟩,
      fun e id p hj h2 => rosterUpdate_presents k hj h2 e id p, fun e id p hj hp h2 => rosterUpdate_joins hj hp h2 e id p,
      fun e pairs => ⟨fun h => ⟨s, exec_talkerReport_elsewhere k h e pairs, rfl⟩, fun h => talkerReport_kept k h e pairs⟩,
      fun e ids => ⟨fun h => ⟨s, exec_talkerSet_elsewhere h e ids, rfl⟩,
        fun h hp => ⟨_, exec_talkerSet h hp e ids, rfl, cascade_setCascade ..⟩⟩,
      fun stream => ⟨_, rfl, rfl, cascade_setCascade ..⟩⟩

end Sys2Proof.Proofs
end
